-- ==== Sys2Proof/Word.lean ====
section
/-! DEFINITION. The words of the DX9: a 64-bit register or message word, an octet, an FP32 pattern, and the
names that number its parts (dies, cores, queues, strands). -/

namespace Sys2Proof

/-- A register or message word: the manual's 64-bit word. -/
abbrev Word := BitVec 64
/-- An octet. -/
abbrev Byte := BitVec 8
/-- A binary32 pattern (03 R61). -/
abbrev F32 := BitVec 32

/-- A core number (01 R13). -/
abbrev CoreId := Fin 64
/-- A die identifier (01 R12). -/
abbrev DieId := Fin 100
/-- A mesh die, which has a router (01 R12, 14 R352). -/
abbrev MeshDie := Fin 80
/-- A shared-cache slice (01 R14). -/
abbrev SliceId := Fin 16
/-- A near-tier stack and its MIF die (01 R16). -/
abbrev StackId := Fin 8
/-- A channel of a stack (13 R326). -/
abbrev Channel := Fin 48
/-- A far-tier port (13 R334). -/
abbrev FarPort := Fin 4
/-- A Limund port (15 R365). -/
abbrev PortId := Fin 16
/-- A link die (01 R16). -/
abbrev LnkDie := Fin 8
/-- A strand (16 R403). -/
abbrev StrandId := Fin 262144
/-- A submission or completion queue (16 R407). -/
abbrev HostQueue := Fin 4096
/-- A task slot (16 R402). -/
abbrev SlotId := Fin 1024
/-- A row counter: counter c lies in slice c div 64 (09 R250). -/
abbrev CounterId := Fin 1024
/-- A hardware queue (11 R283). -/
abbrev HwQueue := Fin 2048
/-- A region of one scratchpad memory (08 R198). -/
abbrev RegionId := Fin 64
/-- A landing window of a core (08 R210). -/
abbrev WindowId := Fin 64
/-- A stitch marker of a core (08 R214). -/
abbrev MarkerId := Fin 256
/-- A fetch tag of a core (10 R259). -/
abbrev TagId := Fin 256
/-- A sparse issue lane of a core (05). -/
abbrev LaneId := Fin 32

/-- The field [hi:lo] of a number, the manual's NAME[msb:lsb]. -/
def bits (w hi lo : Nat) : Nat := (w >>> lo) % 2 ^ (hi + 1 - lo)

/-- Bit i of a number. -/
def bit (w i : Nat) : Bool := w.testBit i

/-- A Bool as the bit that a register shows. -/
def b2n (b : Bool) : Nat := if b then 1 else 0

/-- ceil(a / b). -/
def ceilDiv (a b : Nat) : Nat := (a + b - 1) / b

/-- The two's-complement value of the low n bits of w. -/
def signed (n w : Nat) : Int :=
  let v := w % 2 ^ n
  if 2 * v < 2 ^ n then (v : Int) else (v : Int) - (2 ^ n : Nat)

/-- An integer as an n-bit two's-complement pattern. -/
def unsigned (n : Nat) (z : Int) : Nat := (z % ((2 ^ n : Nat) : Int)).toNat

end Sys2Proof
end

