-- ==== Sys2Proof/Syntax.lean ====
section
/-! DEFINITION. The commands of the DX9 block: one constructor for each row of spec/opcode_table.json. The table
gives a row no operands; those here are what the row's rule says comes from outside the step (log entry 1). -/

namespace Sys2Proof

/-- The part of a chain frame that the destination checks (14 R356): the source die and its sequence number. -/
structure Frame where
  src : DieId
  seq : Fin 1024
  deriving DecidableEq, Repr

/-- The part of a bulk header that the destination checks (14 R351, R353). -/
structure BulkTag where
  src : DieId
  seq : Fin 65536
  deriving DecidableEq, Repr

/-- Bulk packet types that travel through routers (14 R351). -/
inductive BulkType where
  | readRequest | readData | write | accWrite | writeAck | nack | regWrite | regRead | regData | endToEndAck
  deriving DecidableEq, Repr

/-- What a tier read met on its way (13 R329, R330, R335 to R337; 10 R273). -/
inductive ReadOutcome where
  /-- data delivered; `retries` read CRC retries, at most three (R329) -/
  | ok (retries : Fin 4)
  /-- the third retry failed too (R329) -/
  | crcExhausted
  /-- the on-die ECC corrected the read (R330) -/
  | odeccCorrected
  /-- the on-die ECC reports an uncorrectable read (R330) -/
  | odeccUncorrectable
  /-- the home slice corrected a single-bit error (R273, R274) -/
  | secdedCorrected
  /-- a double-bit error in the resident line (R337) -/
  | secdedDouble
  /-- the expander returned poison (R335) -/
  | farPoison
  deriving DecidableEq, Repr

/-- What a tier write met (13 R329). -/
inductive WriteOutcome where
  | ok (resends : Fin 4)
  | crcExhausted
  deriving DecidableEq, Repr

/-- The source of a write that reaches a core's ingress (08 R210 SRC_KIND). -/
inductive Source where
  | core (c : CoreId)
  | strand (n : StrandId) (die : DieId)
  | host
  deriving DecidableEq, Repr

/-- What a translation walk is for, and the REFTIME that it takes, ns (13 R340). -/
structure Walk where
  write : Bool
  ns : Nat := 0
  deriving DecidableEq, Repr

/-- Where a bulk write is aimed (08 R211, 13 R324). -/
inductive WriteTarget where
  /-- row `off` of a landing window; append mode ignores `off` -/
  | window (core : CoreId) (win : WindowId) (off : Nat)
  /-- a foreign row of 06 R154 for the home core -/
  | foreignRow (core : CoreId) (attempt : BitVec 2)
  /-- a tier address, served by its home slice -/
  | tier (dpa : Nat)
  deriving DecidableEq, Repr

/-- Who writes a queue port (11 R286). -/
inductive Producer where
  | core (c : CoreId)
  | strand (n : StrandId)
  | host
  deriving DecidableEq, Repr

/-- Who consumes from a queue (11 R291, R293). -/
inductive Consumer where
  | task | software
  deriving DecidableEq, Repr

/-- The dictionary paths (19 R465 to R473). -/
inductive DictPath where
  | tdp | mailbox | window
  deriving DecidableEq, Repr

/-- What a pipeline stage holds for the stitch (02 R32): the hand-over that it makes when the core takes one. The
lanes, match engines, segmenter and hash accumulator act on the state by themselves and need no entry here. -/
inductive StageItem where
  /-- the arrays take the next panel step of the nest (09 R232) -/
  | panelStep
  /-- the row-function and conversion stages take the next row of the span's output (03 R74, 07 R167) -/
  | outputRow
  /-- the unpacker reads a row of a compressed operand: its two row pointers and its indices (04 R96 to R98) -/
  | unpackRow (slot : Fin 8) (row : Nat)
  /-- a local read of a scratchpad row; `fails` says that its detection word does not check (08 R217) -/
  | readRow (mem : Fin 3) (row : Nat) (fails : Bool)
  /-- a local write of a scratchpad row (08 R194, R209) -/
  | writeRow (mem : Fin 3) (row : Nat) (data : List Byte)
  /-- a producer writes the row at TAIL of a region (08 R199) -/
  | produce (mem : Fin 3) (region : RegionId) (data : List Byte)
  /-- a consumer releases rows of a region (08 R199) -/
  | release (mem : Fin 3) (region : RegionId) (rows : Nat)
  /-- the copy engine resolves its next index and moves its slice (12 R311 to R315) -/
  | resolveIndex
  /-- a layout copy writes its next elements; of a whole-operand copy (R306), its next rows (12 R303 to R308) -/
  | copyElements (count : Nat)
  /-- rows that the copy engine has read pass the cable network, at most those of a group (12 R307) -/
  | cableRows (rows : Fin 33)
  /-- the next token of the running band is scored against the predictor (07 R177, R178) -/
  | scoreToken
  /-- an entry of the hash accumulator fails its detection code (06 R143, R146) -/
  | accumulatorFault
  /-- a local instruction asks the scoreboard for its ranges: reads and writes as (memory, first row, rows) (08 R208) -/
  | scoreboardIssue (reads writes : List (Fin 3 × Nat × Nat))
  /-- the last access of an issued instruction to its ranges completes (08 R208) -/
  | scoreboardDone (entry : Nat)
  /-- two accesses met one bank and one of them waits (08 R195) -/
  | bankConflict
  /-- a core detects a mid-stream fault (10 R276): status, stream, slot, address -/
  | fault (status : BitVec 16) (stream : Fin 32) (slot : Fin 8) (va : BitVec 48)
  /-- a handshake that the core's next stitch needs is not yet acknowledged (02 R32); `stream` names a due row's stream -/
  | pendingHandshake (resource : BitVec 8) (stream : Option (Fin 16))
  deriving DecidableEq, Repr

/-- A Limund flit, its header fields and payload words (15 R369). -/
structure Flit where
  cls : Fin 4
  first : Bool
  last : Bool
  mcast : Bool
  valid8 : Fin 32
  dstDev : BitVec 12
  strand : StrandId
  msgSeq : BitVec 16
  payload : List Word
  deriving DecidableEq, Repr

/-- A Limund frame as the receiver sees it after decoding (15 R368, R370). -/
structure LinkFrame where
  frameSeq : BitVec 16
  ackSeq : BitVec 16
  nak : Bool
  credBulk : BitVec 8
  credCbulk : BitVec 8
  flits : List Flit
  deriving DecidableEq, Repr

/-- A measured saturation resource in one sub-period: its worst measure and where (19 R491). -/
structure Measure where
  value : Nat
  inst : BitVec 8
  deriving DecidableEq, Repr

/-- What an activity has ready at one instance in a background period (19 R485 to R490): work units, ns that each holds the resource,
whether a foreground request waits there meanwhile, and whether it is a retraining that runs whatever the budget (R490). -/
structure BgUse where
  activity : Fin 7
  inst : Nat
  units : Nat
  unitNs : Nat
  waiting : Bool
  forced : Bool := false
  deriving DecidableEq, Repr

/-- One image of a set as the boot ROM checks it (20 R500, R501): header fields and the outcome of its signatures. -/
structure ImageCheck where
  kind : Fin 8
  counter : Fin 64
  svn : Nat
  version : BitVec 32
  headerHash : List Byte
  formOk : Bool
  keysOk : Bool
  hashOk : Bool
  signaturesOk : Bool
  deriving DecidableEq, Repr

/-- What waits in a long stall: a core, a strand without a port that is UP (15 R378), or a barrier's task (16 R414). -/
inductive Waiter where
  | core (c : CoreId)
  | strand (n : StrandId)
  | barrier (slot : SlotId)
  deriving DecidableEq, Repr

/-- The commands, in the order of spec/opcode_table.json. -/
inductive Instr where
  -- faults of cores, dies and connections
  /-- CORE_INTERNAL_FAULT (14 R359) -/
  | coreInternalFault (core : CoreId)
  /-- FENCE_CORE_REQUEST (14 R359): the octet written to 0x4010:04 -/
  | fenceCoreRequest (value : Byte)
  /-- ROUTER_FAULT (14 R361) -/
  | routerFault (die : MeshDie)
  /-- RING_DIE_FAILURE (01 R17): ring die 80 + index -/
  | ringDieFailure (ring : Fin 20)
  /-- UCIE_MODULE_FAILURE (14 R350): a connection named by a mesh die and one of its ports -/
  | ucieModuleFailure (die : MeshDie) (port : Fin 7)
  /-- ADAPTER_RETRY_EXHAUSTED (14 R350) -/
  | adapterRetryExhausted (die : MeshDie) (port : Fin 7)
  -- pace and time
  /-- STITCH (02 R32): the items that the core's stages hold -/
  | stitch (core : CoreId) (items : List StageItem)
  /-- LONG_STALL_EVENT (02 R46) -/
  | longStallEvent (who : Waiter)
  /-- GOVERNOR_WINDOW_END (02 R54): the power limiter's request to this core -/
  | governorWindowEnd (core : CoreId)
  /-- FLOOR_CHECK (02 R54 rule 1) -/
  | floorCheck (core : CoreId)
  /-- REFTIME_LOAD (02 R49) -/
  | reftimeLoad (value : Word)
  /-- REFTIME_SLEW (02 R49): a signed offset in ns -/
  | reftimeSlew (offset : Word)
  /-- REFCLK_LOST (02 R51) -/
  | refclkLost
  /-- REFCLK_RETURN (02 R51): the signed difference to slew, ns -/
  | refclkReturn (difference : Word)
  /-- REFTIME_DISTRIBUTION (02 R48) -/
  | reftimeDistribution (die : DieId) (f : Frame) (value : Word)
  -- tasks at the HST die
  /-- COMPUTE (16 R411): dispatch of the front descriptor of an SQ -/
  | compute (sq : HostQueue)
  /-- COPY (12 R301) -/
  | copy (sq : HostQueue)
  /-- MASK_LOAD (04 R102) -/
  | maskLoad (sq : HostQueue)
  /-- MASK_FREE (04 R106) -/
  | maskFree (sq : HostQueue)
  /-- BARRIER (16 R414) -/
  | barrier (sq : HostQueue)
  /-- BARRIER_ARRIVAL (16 R414) -/
  | barrierArrival (f : Frame) (barId : BitVec 12) (gen : BitVec 16) (srcDev : BitVec 12)
  /-- INVALIDATE (13 R341) -/
  | invalidate (sq : HostQueue)
  /-- INVALIDATE_COMPLETE (13 R341) -/
  | invalidateComplete (slot : SlotId)
  /-- NOP (16 R409) -/
  | nop (sq : HostQueue)
  /-- SQ_TAIL_DOORBELL (16 R408) -/
  | sqTailDoorbell (q : HostQueue) (value : Word)
  /-- CQ_HEAD_DOORBELL (16 R408) -/
  | cqHeadDoorbell (q : HostQueue) (value : Word)
  /-- DOORBELL (16 R408, R413): KIND true for a CQ head -/
  | doorbell (f : Frame) (cqHead : Bool) (q : HostQueue) (value : BitVec 16)
  /-- DESCRIPTOR_FETCH (16 R410): the 32 words of each descriptor that the read returned -/
  | descriptorFetch (sq : HostQueue) (descriptors : List (List Word))
  -- task control at the cores and the HST die
  /-- DISPATCH (09 R238, 16 R413) -/
  | dispatch (f : Frame) (core : CoreId) (slot : SlotId) (rank : Fin 64) (cores : Fin 65)
  /-- ISSUE_CHECKS (09 R239, 12 R319) -/
  | issueChecks (core : CoreId)
  /-- COMPLETION_REPORT_PASSED (09 R238) -/
  | completionReportPassed (f : Frame) (slot : SlotId)
  /-- COMPLETION_REPORT_REFUSED (09 R238) -/
  | completionReportRefused (f : Frame) (slot : SlotId) (status : BitVec 16) (check : Fin 32)
  /-- GO (09 R245) -/
  | go (f : Frame) (core : CoreId) (slot : SlotId) (span : BitVec 32)
  /-- WAIT (09 R246) -/
  | wait (f : Frame) (core : CoreId) (slot : SlotId) (marker : MarkerId) (target : BitVec 32)
  /-- COMPLETION_REPORT_MARKER_REACHED (09 R246) -/
  | completionReportMarkerReached (f : Frame) (slot : SlotId)
  /-- COMPLETION_REPORT_SPAN_DONE (09 R244) -/
  | completionReportSpanDone (f : Frame) (slot : SlotId) (span : BitVec 29)
  /-- COMPLETION_REPORT_DONE (01 R29) -/
  | completionReportDone (f : Frame) (slot : SlotId)
  /-- COMPLETION_WRITE (16 R415) -/
  | completionWrite (slot : SlotId)
  /-- MSIX_AGGREGATION_TIMEOUT (16 R417) -/
  | msixAggregationTimeout (cq : HostQueue)
  /-- COMPLETION_REPORT_FAULT (10 R277) -/
  | completionReportFault (f : Frame) (slot : SlotId) (status : BitVec 16)
  /-- ABORT (10 R277) -/
  | abort (f : Frame) (core : CoreId) (slot : SlotId)
  /-- CANCEL (10 R280) -/
  | cancel (f : Frame) (core : CoreId) (slot : SlotId)
  /-- COMPLETION_REPORT_DRAINED (10 R281) -/
  | completionReportDrained (f : Frame) (slot : SlotId)
  /-- COMPLETION_REPORT_DETECTION (06 R143) -/
  | completionReportDetection (f : Frame) (slot : SlotId) (span : BitVec 29)
  /-- REPLAY (06 R143) -/
  | replay (f : Frame) (core : CoreId) (slot : SlotId) (span : BitVec 32)
  /-- HST_CANCEL (16 R418): the word written -/
  | hstCancel (value : Word)
  -- row counters
  /-- ARM0 (09 R251) -/
  | arm0 (f : Frame) (counter : CounterId) (chunkLog : BitVec 3) (k : BitVec 21)
  /-- ARM1 (09 R251) -/
  | arm1 (f : Frame) (counter : CounterId) (strand : StrandId)
  /-- ARM2 (09 R250) -/
  | arm2 (f : Frame) (counter : CounterId) (summaryBase : BitVec 48)
  /-- ARMED (09 R250) -/
  | armed (f : Frame) (counter : CounterId)
  /-- CLAIM (05 R129) -/
  | claim (f : Frame) (counter : CounterId) (attempt : BitVec 2)
  /-- ANSWER with its ROWS (05 R133, 09 R251) -/
  | answer (f : Frame) (core : CoreId) (counter : CounterId) (attempt : BitVec 2) (empty : Bool) (chunk : BitVec 21)
      (i0 i1 : BitVec 32)
  /-- LOCAL_CLAIM (09 R255) -/
  | localClaim (core : CoreId)
  /-- OWNER (06 R153) -/
  | owner (f : Frame) (counter : CounterId) (chunk : BitVec 21)
  /-- OWNER_ANS (06 R153) -/
  | ownerAns (f : Frame) (core : CoreId) (counter : CounterId) (chunk : BitVec 21) (home : CoreId)
  /-- REPORT (06 R160, 09 R252) -/
  | report (f : Frame) (counter : CounterId) (attempt : BitVec 2) (chunk : BitVec 21) (count : BitVec 26) (final : Bool)
  /-- BASE (06 R160) -/
  | base (f : Frame) (core : CoreId) (counter : CounterId) (value : BitVec 48)
  /-- REARM (09 R253) -/
  | rearm (f : Frame) (counter : CounterId) (attempt : BitVec 2)
  /-- DISARM (09 R256) -/
  | disarm (f : Frame) (counter : CounterId)
  -- accumulation and prediction
  /-- SEND_PASS (06 R154) -/
  | sendPass (core : CoreId)
  /-- FOREIGN_ANNOUNCEMENT (06 R155) -/
  | foreignAnnouncement (f : Frame) (core : CoreId) (chunk : BitVec 21) (rows : BitVec 32)
  /-- MERGE_PASS_START (06 R155) -/
  | mergePassStart (core : CoreId)
  /-- GROUP_COMMIT (06 R141) -/
  | groupCommit (slot : SlotId)
  /-- AUDIT_REPORT (07 R186): the counts and limits that the report carries -/
  | auditReport (core : CoreId) (strand : StrandId) (stateBase : BitVec 48) (tokens inactive misses : BitVec 32)
      (missLimit window : BitVec 16) (bandStep bandMax : F32)
  /-- FUSED_BAND_READY (07 R172) -/
  | fusedBandReady (core : CoreId)
  -- scratchpads
  /-- SPM_OP_START (08 R204): the pattern written to SPM_OP2 -/
  | spmOpStart (core : CoreId) (pattern : Word)
  /-- SPM_OP_DONE (08 R203) -/
  | spmOpDone (core : CoreId)
  /-- REGION_ENTRY_WRITE (08 R201) -/
  | regionEntryWrite (core : CoreId) (mem : Fin 3) (region : RegionId) (word : Fin 8) (value : Word)
  /-- WINDOW_ENTRY_WRITE (08 R210) -/
  | windowEntryWrite (core : CoreId) (win : WindowId) (word : Fin 4) (value : Word)
  /-- WIN_OPEN (08 R210): `byTask` for an open by the core's running task -/
  | winOpen (core : CoreId) (win : WindowId) (byTask : Bool)
  /-- WIN_CLOSE (08 R215) -/
  | winClose (core : CoreId) (win : WindowId)
  /-- WINDOW_CLOSED (08 R215) -/
  | windowClosed (core : CoreId) (win : WindowId)
  /-- STITCH_MARKER_WRITE (08 R214) -/
  | stitchMarkerWrite (core : CoreId) (marker : MarkerId) (value : Word)
  /-- NARROW_WRITE (08 R538): bytes at an offset within a row of a window -/
  | narrowWrite (core : CoreId) (src : Source) (win : WindowId) (row off : Nat) (data : List Byte) (readFails : Bool)
  /-- GB_IDLE_FLUSH (08 R206, R207) -/
  | gbIdleFlush (core : CoreId) (mem : Fin 3) (row : Nat) (readFails : Bool)
  /-- SPM_GB_FLUSH (08 R206) -/
  | spmGbFlush (core : CoreId) (readFails : Bool)
  /-- RELOAD_DONE (08 R218): the row that the home copy gave, and whether the repeated read fails again -/
  | reloadDone (core : CoreId) (row : Nat) (data : List Byte) (fails : Bool)
  /-- RESIDENT_WEIGHT_SCRUB (08 R222) -/
  | residentWeightScrub (core : CoreId) (row : Nat) (fails : Bool)
  /-- BANK_POWER_DOWN (08 R223) -/
  | bankPowerDown (core : CoreId) (mem : Fin 4) (bank : Fin 64)
  /-- BANK_DRAINED (08 R223) -/
  | bankDrained (core : CoreId)
  /-- BANK_DRAIN_TIMEOUT (08 R224) -/
  | bankDrainTimeout (core : CoreId)
  /-- BANK_POWER_UP (08 R225) -/
  | bankPowerUp (core : CoreId) (mem : Fin 4) (bank : Fin 64)
  /-- BANK_POWER_UP_DONE (08 R225) -/
  | bankPowerUpDone (core : CoreId)
  -- fetch engine and bulk packets
  /-- TAG_ISSUE (10 R269) -/
  | tagIssue (core : CoreId)
  /-- SMALL_TRANSFER_HOLD_END (10 R261) -/
  | smallTransferHoldEnd (core : CoreId)
  /-- CLASS3_PROMOTION (10 R269) -/
  | class3Promotion (core : CoreId)
  /-- READ_REQUEST (14 R351) at the die that serves it -/
  | readRequest (die : DieId) (t : BulkTag) (tag : TagId) (dpa : BitVec 52) (gran : Fin 8) (outcome : ReadOutcome)
  /-- READ_DATA (10 R259): a row or an error for a tag; the corrections that the row met at its slice and MIF die, and a cause of
  Table: Overrun cause codes that no command showed -/
  | readData (core : CoreId) (t : BulkTag) (tag : TagId) (status : BitVec 16) (data : List Byte) (events : Fin 8)
      (cause : Fin 6)
  /-- BULK_WRITE (08 R211) -/
  | bulkWrite (t : BulkTag) (src : Source) (tag : TagId) (target : WriteTarget) (data : List Byte) (outcome : WriteOutcome)
  /-- ACCUMULATE_WRITE (12 R310) -/
  | accumulateWrite (t : BulkTag) (src : Source) (tag : TagId) (target : WriteTarget) (off : Nat) (data : List Byte)
  /-- WRITE_ACKNOWLEDGE (10 R259) -/
  | writeAcknowledge (core : CoreId) (t : BulkTag) (tag : TagId)
  /-- NEGATIVE_ACKNOWLEDGE (08 R213): `abandoned` for a row of an attempt already given up; `read` for a refused read -/
  | negativeAcknowledge (core : CoreId) (t : BulkTag) (tag : TagId) (read abandoned : Bool)
  /-- REGISTER_WRITE (14 R354): a BAR0 offset -/
  | registerWrite (t : BulkTag) (off : BitVec 26) (value : Word)
  /-- REGISTER_READ (14 R354) -/
  | registerRead (t : BulkTag) (off : BitVec 26)
  /-- REGISTER_DATA (14 R354) -/
  | registerData (t : BulkTag) (dst : DieId) (value : Word)
  /-- BULK_PACKET_HOP (14 R352) -/
  | bulkPacketHop (router : MeshDie) (t : BulkTag) (dst : DieId) (type : BulkType) (gran : Fin 8) (vc1 : Bool)
  /-- END_TO_END_ACKNOWLEDGE (14 R353): at the source `die`, from `peer` -/
  | endToEndAcknowledge (die peer : DieId) (baseSeq : Fin 65536) (bitmap : BitVec 32)
  /-- BULK_RESEND_TIMEOUT (14 R353) -/
  | bulkResendTimeout (src dst : DieId) (seq : Fin 65536)
  -- chain transport, fencing, configuration
  /-- CHAIN_ACK (14 R356): at `die`, for a message it sent to `peer` -/
  | chainAck (die peer : DieId) (seq : Fin 1024)
  /-- CHAIN_RESEND_TIMEOUT (14 R356) -/
  | chainResendTimeout (src dst : DieId) (seq : Fin 1024)
  /-- FENCE (14 R360) -/
  | fence (f : Frame) (die : DieId) (action : BitVec 2) (epoch : BitVec 16)
  /-- ROUTE_WRITE (14 R361) -/
  | routeWrite (f : Frame) (die : DieId) (first : BitVec 8) (chainNet : Bool) (entries : BitVec 40)
  /-- CONFIG_WRITE (19 R474) -/
  | configWrite (f : Frame) (die : DieId) (index : BitVec 16) (sub : Byte) (part : BitVec 4) (value : BitVec 32)
  /-- CONFIG_READ (19 R474) -/
  | configRead (f : Frame) (die : DieId) (index : BitVec 16) (sub : Byte) (part : BitVec 4)
  /-- CONFIG_DATA (19 R474) -/
  | configData (f : Frame) (index : BitVec 16) (sub : Byte) (part : BitVec 4) (value : BitVec 32)
  /-- CONFIG_DONE (19 R474) -/
  | configDone (f : Frame) (index : BitVec 16) (sub : Byte) (part : BitVec 4)
  /-- FREEZE (19 R480) -/
  | freeze (f : Frame) (die : DieId) (epoch : BitVec 32)
  /-- ACTIVATE (19 R481) -/
  | activate (f : Frame) (die : DieId) (epoch : BitVec 32)
  /-- EVENT (19 R475) at the management die -/
  | event (f : Frame) (code : BitVec 16) (severity : BitVec 2) (arg : BitVec 46)
  -- hardware queues
  /-- QUEUE_CREDIT (11 R296) -/
  | queueCredit (f : Frame) (core : CoreId) (q : HwQueue) (rows : BitVec 13)
  /-- QUEUE_ENABLE (11 R284): the write of word 0 -/
  | queueEnable (q : HwQueue) (value : Word)
  /-- OPEN (11 R286) -/
  | openPacket (q : HwQueue) (p : Producer)
  /-- DATA (11 R286) -/
  | data (q : HwQueue) (p : Producer) (value : Word)
  /-- CLOSE (11 R286) -/
  | close (q : HwQueue) (p : Producer)
  /-- PACKET_READABLE (11 R288) -/
  | packetReadable (q : HwQueue)
  /-- MARKER_QUIET_TIMEOUT (11 R295) -/
  | markerQuietTimeout (q : HwQueue)
  /-- DISCARD (11 R298) -/
  | discard (q : HwQueue) (by_ : Consumer)
  /-- QUEUE_FLUSH (11 R299) -/
  | queueFlush (q : HwQueue)
  /-- QUEUE_RELEASE (11 R293) -/
  | queueRelease (q : HwQueue) (rows : BitVec 13)
  -- tiers
  /-- TRANSLATION_WALK (13 R338), and the time that it takes -/
  | translationWalk (core : CoreId) (strand : StrandId) (va : BitVec 48) (walk : Walk)
  /-- RETRAIN_INTERVAL (13 R331) -/
  | retrainInterval (stack : StackId) (ch : Channel)
  /-- RETRAIN_TEMPERATURE (13 R331): the die temperature now -/
  | retrainTemperature (stack : StackId) (ch : Channel) (temp : Nat)
  /-- RETRAIN_CRC_COUNT (13 R331) -/
  | retrainCrcCount (stack : StackId) (ch : Channel)
  /-- RETRAIN_DONE (13 R331) -/
  | retrainDone (stack : StackId)
  /-- NEAR_TIER_SCRUB (19 R485, 13 R332) -/
  | nearTierScrub (dpa : BitVec 52) (outcome : ReadOutcome)
  /-- FAR_COMPLETION_TIMEOUT (13 R336): the outstanding request that the expander did not answer -/
  | farCompletionTimeout (port : FarPort) (core : CoreId) (tag : TagId)
  /-- FAR_LINK_DOWN (13 R336) -/
  | farLinkDown (port : FarPort)
  /-- FAR_LINK_RETRY (13 R334): the row that it delays -/
  | farLinkRetry (port : FarPort) (core : CoreId) (tag : TagId)
  /-- EXPANDER_EVENT_RECORD (13 R334) -/
  | expanderEventRecord (port : FarPort) (record : Word)
  /-- BIAS_CHANGE (13 R345): whole 2 MiB pages -/
  | biasChange (firstPage pages : Nat) (hostBias : Bool)
  -- Limund link
  /-- LIMUND_TRAINING_START (15 R366) -/
  | limundTrainingStart (port : PortId)
  /-- LIMUND_TRAINING_DONE (15 R367): whether alignment and equalisation finished -/
  | limundTrainingDone (port : PortId) (ok : Bool) (peerGenMax : Fin 3)
  /-- LINK_MGMT (15 R367, R374) -/
  | linkMgmt (port : PortId) (genMax width : Nat) (dx8 : Bool) (peerDev : BitVec 12) (peerPort : BitVec 4)
      (echo : Word)
  /-- CONFIG_TIMEOUT (15 R367) -/
  | configTimeout (port : PortId)
  /-- DOWN_RETRY_TIMER (15 R367) -/
  | downRetryTimer (port : PortId)
  /-- RETRAIN_ENTRY (15 R367) -/
  | retrainEntry (port : PortId)
  /-- RETRAIN_EQUALISED (15 R367) -/
  | retrainEqualised (port : PortId)
  /-- RETRAIN_TIMEOUT (15 R367) -/
  | retrainTimeout (port : PortId)
  /-- FRAME_RECEIVE (15 R370): none for an uncorrectable codeword or a failed CRC; bytes that the code corrected -/
  | frameReceive (port : PortId) (frame : Option LinkFrame) (corrected : Nat)
  /-- FRAME_REPLAY (15 R370): the peer's ACK_SEQ in a frame with NAK -/
  | frameReplay (port : PortId) (ackSeq : BitVec 16)
  /-- FLIT_SELECT (15 R372) -/
  | flitSelect (port : PortId)
  /-- STRAND_ENTRY_FILL (15 R377) -/
  | strandEntryFill (die : LnkDie) (strand : StrandId)
  /-- LNK_SEND_POST (15 R379): the task that posts, if one does, and words 0 to 7 -/
  | lnkSendPost (die : LnkDie) (task : Option SlotId) (descriptor : List Word)
  /-- SEND_ACKNOWLEDGED (15 R379): the oldest message sent over the port -/
  | sendAcknowledged (port : PortId)
  /-- CREDIT (15 R382) -/
  | credit (port : PortId) (dstDev : BitVec 12) (strand : StrandId) (flits : BitVec 16)
  /-- NACK (15 R381) -/
  | nack (port : PortId) (dstDev : BitVec 12) (strand : StrandId) (msgSeq : BitVec 16) (cause : BitVec 3)
      (abandoned : Bool)
  /-- DIGEST (15 R391) -/
  | digest (port : PortId) (epoch : BitVec 32) (digest64 : Word)
  /-- DIGEST_TIMER (15 R391) -/
  | digestTimer (port : PortId)
  /-- EPOCH_DISAGREEMENT_TIMEOUT (15 R391) -/
  | epochDisagreementTimeout (port : PortId)
  /-- TIME (15 R392) -/
  | time (port : PortId) (reftime : Word)
  /-- TIME_TIMER (15 R392) -/
  | timeTimer (port : PortId)
  /-- LIMUND_PORT_DOWN (15 R383) -/
  | limundPortDown (port : PortId)
  /-- MCAST_ACK (15 R385) -/
  | mcastAck (group : BitVec 12) (member : BitVec 12) (offset : Word)
  /-- DETACH_TIMEOUT (15 R386) -/
  | detachTimeout (group : BitVec 12)
  /-- DETACH (15 R387) at a member -/
  | detach (port : PortId) (srcDev group : BitVec 12) (from_ : Word)
  /-- RECOVER (15 R387) at the source -/
  | recover (port : PortId) (group : BitVec 12) (member : BitVec 12) (from_ to_ : Word)
  /-- LOST (15 R387) at a member -/
  | lost (port : PortId) (group : BitVec 12) (from_ to_ : Word) (msgs : BitVec 16)
  /-- MERGE_CONTEXT_OPEN (15 R388): the write of word 0 -/
  | mergeContextOpen (die : LnkDie) (ctx : Fin 8) (value : Word)
  /-- MERGE_ENTRY_EMIT (15 R389) -/
  | mergeEntryEmit (die : LnkDie) (ctx : Fin 8)
  -- strands, queue pairs, host writes, configuration space
  /-- STRAND_ACTIVATE (16 R404) -/
  | strandActivate (strand : StrandId)
  /-- STRAND_UPDATE (16 R404) -/
  | strandUpdate (strand : StrandId)
  /-- STRAND_FLUSH (16 R404) -/
  | strandFlush (strand : StrandId)
  /-- STRAND_RELEASE (16 R405) -/
  | strandRelease (strand : StrandId)
  /-- STRAND_CACHE_MISS (16 R406) -/
  | strandCacheMiss (strand : StrandId)
  /-- QUEUE_PAIR_ENABLE (16 R407): the write of word 0 of an SQ or CQ entry -/
  | queuePairEnable (cq : Bool) (q : HostQueue) (value : Word)
  /-- APERTURE_WRITE (16 R419) -/
  | apertureWrite (a : Fin 16) (off : Fin 512) (data : List Byte)
  /-- CONFIG_REQUEST (18 R448): the register asked for -/
  | configRequest (dword : BitVec 12)
  -- mailbox
  /-- DICT_REQUEST (19 R472): header words and data -/
  | dictRequest (hdr0 hdr1 : Word) (data : List Byte)
  /-- EVENT_READ (19 R472) -/
  | eventRead (seq : BitVec 32)
  /-- MAILBOX_UNSUPPORTED (16 R398) -/
  | mailboxUnsupported (opcode : BitVec 16)
  /-- IDENTIFY (16 R398) -/
  | identify
  /-- GET_EVENT_RECORDS (16 R398) -/
  | getEventRecords
  /-- GET_FW_INFO (16 R398) -/
  | getFwInfo
  /-- TIMESTAMP (16 R398): a value to set, or a read -/
  | timestamp (set : Option Word)
  /-- GET_LOG (16 R398): offset and length -/
  | getLog (off len : BitVec 32)
  /-- TRANSFER_FW (20 R504): bytes at an offset; with the last byte the set's check outcomes -/
  | transferFw (off : Nat) (data : List Byte) (last : Bool) (images : List ImageCheck)
  /-- ACTIVATE_FW (20 R505): the slot, and whether online activation is asked for -/
  | activateFw (slot : Fin 16) (online : Bool)
  -- dictionary
  /-- READ (19 R463) -/
  | read (path : DictPath) (index : BitVec 16) (sub type : Byte) (staged : Bool)
  /-- WRITE (19 R463) -/
  | write (path : DictPath) (index : BitVec 16) (sub type : Byte) (value : List Byte)
  /-- SEG_READ (19 R467) -/
  | segRead (path : DictPath) (index : BitVec 16) (sub : Byte) (off : BitVec 32) (staged : Bool)
  /-- SEG_WRITE (19 R467): with the last segment of an image set the outcomes of its checks -/
  | segWrite (path : DictPath) (index : BitVec 16) (sub : Byte) (off : BitVec 32) (value : List Byte)
      (images : List ImageCheck)
  /-- NEXT (19 R540) -/
  | next (path : DictPath) (index : BitVec 16) (sub : Byte) (staged : Bool)
  /-- DICT_WINDOW_GO (19 R473) -/
  | dictWindowGo
  /-- TDP_FRAME_RECEIVE (19 R470): VERSION, MSG, SEQ, group address, and the request it carries -/
  | tdpFrameReceive (version msg : Fin 16) (seq : BitVec 16) (group : Bool) (hdr0 hdr1 : Word) (data : List Byte)
  /-- HEARTBEAT (19 R471) -/
  | heartbeat
  /-- HEARTBEAT_RECEIVED (19 R483, R484) -/
  | heartbeatReceived (v2 : Bool) (master : Bool) (device : BitVec 12) (epoch : BitVec 32) (reftime : Word)
      (digest : List Byte)
  /-- EPOCH_ARM (19 R479): the value written to 0x1020:03 -/
  | epochArm (time : Word)
  /-- EPOCH_DISARM (19 R479) -/
  | epochDisarm
  /-- EPOCH_FREEZE (19 R480) -/
  | epochFreeze
  /-- EPOCH_ACTIVATION (19 R481) -/
  | epochActivation
  -- background work and saturation
  /-- BACKGROUND_PERIOD (19 R487): what each activity instance did in the period that ends -/
  | backgroundPeriod (uses : List BgUse)
  /-- AGING_MONITOR_SWEEP (19 R485) -/
  | agingMonitorSweep (core : CoreId)
  /-- EYE_MONITOR_SCAN (19 R485): the lane's margin in mUI -/
  | eyeMonitorScan (port : PortId) (lane : Fin 8) (margin : BitVec 16)
  /-- MRAM_WEAR_LEVEL (19 R485): the block moved -/
  | mramWearLevel (block : Fin 4096)
  /-- TELEMETRY_SAMPLE (19 R493): whether the sample fitted the allowance -/
  | telemetrySample (sampled : Bool)
  /-- SATURATION_SUBPERIOD (19 R491): the measure of codes 1 to 10 -/
  | saturationSubperiod (measures : List Measure)
  /-- SATURATION_WINDOW_END (19 R492) -/
  | saturationWindowEnd
  -- power, cast-on, inputs
  /-- INPUT_VALID (18 R441): the straps as they stand -/
  | inputValid (feedId : BitVec 4) (slotId : Byte)
  /-- BUS_OFF (18 R445) -/
  | busOff
  /-- SAG_WARNING (18 R443): the bus in mV and the filtered SAG_N level -/
  | sagWarning (busMv : Nat) (sagAsserted : Bool)
  /-- SAG_WARNING_CLEAR (18 R443) -/
  | sagWarningClear (busMv : Nat)
  /-- THROTTLE_N_ASSERT (18 R443) -/
  | throttleNAssert
  /-- THROTTLE_N_DEASSERT (18 R443) -/
  | throttleNDeassert
  /-- POWER_WINDOW (18 R442): the mean power in W over 1 ms, or the mean current in 0.1 A over 100 µs, and the bus -/
  | powerWindow (watts deciamps busMv : Nat) (current : Bool)
  /-- THERMAL_THROTTLE (18 R443): the junction temperature of a die, and the highest of all -/
  | thermalThrottle (die : DieId) (temp highest : Nat)
  /-- THERMAL_OVERVOLT_TRIP (18 R444): true for overvoltage -/
  | thermalOvervoltTrip (overvolt : Bool) (highest busMv : Nat)
  /-- BIND_OFF (18 R451): the load-side voltage, mV -/
  | bindOff (loadMv : Nat)
  /-- SAVE_COMPLETE (18 R451) -/
  | saveComplete
  /-- HALTED_RESTART (18 R455): the bus, mV -/
  | haltedRestart (busMv : Nat)
  /-- CAST_ON_STAGE_COMPLETE (18 R446): the outcomes that the stage found -/
  | castOnStageComplete (failedCores : Word) (banks : List (List ImageCheck)) (farCaps : List Nat) (linkMode : Fin 4)
  /-- CAST_ON_STAGE_FAIL (18 R447): with the stack and channel of a stage 3 failure -/
  | castOnStageFail (status : BitVec 16) (stack : StackId) (ch : Channel)
  /-- PERST_N_ASSERT (18 R449): the highest junction and the bus, for R444 -/
  | perstNAssert (highest busMv : Nat)
  /-- PERST_N_DEASSERT (18 R449) -/
  | perstNDeassert
  /-- INPUT_CHATTER (18 R457): 0 PERST_N, 1 THROTTLE_N, 2 SAG_N -/
  | inputChatter (pin : Fin 3)
  /-- INPUT_HELD (18 R458) -/
  | inputHeld (pin : Fin 3)
  /-- MGT_INPUT_CLEAR (18 R457): the word, and which pins made no transition for 100 ms -/
  | mgtInputClear (value : Word) (quiet : BitVec 3)
  /-- PWR_EN_CONNECT (21 R523) -/
  | pwrEnConnect
  /-- BANK_CHARGED (21 R524) -/
  | bankCharged (bankMv busMv : Nat)
  -- lifeline
  /-- ARM (17 R428): with the setup block's words -/
  | arm (strand : StrandId)
  /-- HOLD (17 R427) -/
  | hold (strand : StrandId)
  /-- LIFELINE_DISARM (17 R427) -/
  | lifelineDisarm (strand : StrandId)
  /-- RESTORE (17 R438) -/
  | restore (strand : StrandId)
  /-- ARM_REQ (17 R428) at the holder -/
  | armReq (strand : StrandId) (feed : BitVec 4) (kMax : BitVec 16) (slotBytes : BitVec 40)
  /-- ARM_ACK (17 R428) at the source -/
  | armAck (strand : StrandId) (feed : BitVec 4) (result : BitVec 2) (slotBytes : BitVec 40)
  /-- ARM_TIMEOUT (17 R428) -/
  | armTimeout (strand : StrandId)
  /-- MARK (17 R432) at the holder -/
  | mark (strand : StrandId) (step dataPos rngStep : Word) (paramBytes : BitVec 40) (anchor : Bool)
  /-- PAYLOAD (17 R432) at the holder; `error` for a far-tier error or a NACK met -/
  | payload (strand : StrandId) (data : List Byte) (error : Bool)
  /-- COMMIT (17 R432) at the source -/
  | commit (strand : StrandId) (step : Word) (slot : Fin 4) (failed : Bool)
  /-- LIFELINE_BROKEN (17 R436) -/
  | lifelineBroken (strand : StrandId)
  -- security
  /-- FW_COMMIT (20 R506) -/
  | fwCommit
  /-- BURN_COMPLETE (20 R506) -/
  | burnComplete
  /-- UNLOCK_NONCE (20 R510): the random octets of the nonce -/
  | unlockNonce
  /-- UNLOCK_RESPONSE (20 R510): the fields, and whether both signatures verify -/
  | unlockResponse (nonce : List Byte) (serial : Word) (level : Byte) (duration : BitVec 32) (signaturesOk : Bool)
  /-- UNLOCK_EXPIRY (20 R511) -/
  | unlockExpiry
  /-- RELOCK (20 R511) -/
  | relock
  /-- ALIAS_LMS_RENEWAL (20 R498) -/
  | aliasLmsRenewal
  /-- TMUX_SELECT (20 R512): the word, and whether it came through the dictionary -/
  | tmuxSelect (value : Word) (dictionary : Bool)
  /-- GET_VERSION (20 R507): the requester's connection -/
  | getVersion (requester : BitVec 48)
  /-- GET_CAPABILITIES (20 R507) -/
  | getCapabilities (requester : BitVec 48)
  /-- NEGOTIATE_ALGORITHMS (20 R507): whether P-384 and SHA-384 are among those offered -/
  | negotiateAlgorithms (requester : BitVec 48) (offered : Bool)
  /-- GET_DIGESTS (20 R507) -/
  | getDigests (requester : BitVec 48)
  /-- GET_CERTIFICATE (20 R507): slot, offset, length -/
  | getCertificate (requester : BitVec 48) (slot : Byte) (off len : BitVec 16)
  /-- CHALLENGE (20 R507): the message hash that the response signs -/
  | challenge (requester : BitVec 48) (slot : Byte) (hash : List Byte)
  /-- GET_MEASUREMENTS (20 R509): a block index or all, signed or not -/
  | getMeasurements (requester : BitVec 48) (block : Byte) (signed : Bool) (hash : List Byte)
  /-- GET_LMS_SIGNATURE (20 R508) -/
  | getLmsSignature (requester : BitVec 48)
  -- clears of counters
  /-- CORE_PACE_CLEAR (02 R58) -/
  | corePaceClear (core : CoreId) (value : Word)
  /-- CORE_NUM_CLEAR (03 R86) -/
  | coreNumClear (core : CoreId) (value : Word)
  /-- CORE_FMT_CLEAR (04 R110) -/
  | coreFmtClear (core : CoreId) (value : Word)
  /-- CORE_LANE_CLEAR (05 R139) -/
  | coreLaneClear (core : CoreId) (value : Word)
  /-- CORE_ACC_CLEAR (06 R165) -/
  | coreAccClear (core : CoreId) (value : Word)
  /-- CORE_RFU_CLEAR (07 R192) -/
  | coreRfuClear (core : CoreId) (value : Word)
  /-- SPM_CLEAR (08 R227) -/
  | spmClear (core : CoreId) (value : Word)
  /-- LOOP_CLEAR (09 R258) -/
  | loopClear (core : CoreId) (value : Word)
  /-- FET_CLEAR (10 R282) -/
  | fetClear (core : CoreId) (value : Word)
  /-- QUE_CLEAR (11 R300) -/
  | queClear (core : CoreId) (value : Word)
  /-- LCE_CLEAR (12 R323) -/
  | lceClear (core : CoreId) (value : Word)
  /-- MIF_CLEAR (13 R348) -/
  | mifClear (stack : StackId) (value : Word)
  /-- FAR_CLEAR (13 R348) -/
  | farClear (port : FarPort) (value : Word)
  /-- CORE_XLT_CLEAR (13 R348) -/
  | coreXltClear (core : CoreId) (value : Word)
  /-- MGT_RTR_CLEAR (14 R364) -/
  | mgtRtrClear (die : DieId) (value : Word)
  /-- LNK_PORT_CLEAR (15 R394) -/
  | lnkPortClear (port : PortId) (value : Word)
  /-- LNK_DIE_CLEAR (15 R394) -/
  | lnkDieClear (die : LnkDie) (value : Word)
  /-- HST_CLEAR (16 R423) -/
  | hstClear (value : Word)
  /-- MGT_LL_CLEAR (17 R440) -/
  | mgtLlClear (value : Word)
  /-- MGT_PWR_CLEAR (18 R460) -/
  | mgtPwrClear (value : Word)
  /-- SEC_CLEAR (20 R512) -/
  | secClear (value : Word)
  -- the last rows
  /-- REFERENCE_CLOCK_EDGE (02 R47): the spread correction measured, in thousandths of a ns -/
  | referenceClockEdge (spread : Int)
  /-- UCIE_ADAPTER_RETRY (14 R350) -/
  | ucieAdapterRetry (die : MeshDie) (port : Fin 7)
  /-- CXL_MEM_REQUEST (13 R344): a write carries bytes -/
  | cxlMemRequest (dpa : BitVec 52) (data : Option (List Byte)) (outcome : ReadOutcome)
  /-- HOST_SNOOP (16 R395) -/
  | hostSnoop (addr : BitVec 52)
  /-- SEGMENT_DIVERGENCE_TIMEOUT (19 R483) -/
  | segmentDivergenceTimeout (device : BitVec 12)
  /-- RESERVED_CHAIN_MESSAGE (14 R357) -/
  | reservedChainMessage (f : Frame) (die : DieId) (type : BitVec 6)
  deriving DecidableEq, Repr

end Sys2Proof
end

