-- ==== Sys2Proof/Decode.lean ====
section
/-! DEFINITION. The commands as table words: the opcode table of this hardware gives no row any bits. -/

namespace Sys2Proof

/-- The command that a table word spells: none, since no row of the table has bits. -/
def decodeTableWord (_nbits _w : Nat) : Option Instr := none

end Sys2Proof
end

