-- ==== Sys2Proof/Config.lean ====
section
/-! DEFINITION. What one module fixes and the manual leaves to it: identity, silicon, strap-independent constants,
and the free values, which are opaque and so hold in every statement whatever they are (log entries 2 and 4). -/

namespace Sys2Proof.Config

/-- The order code of the module, 1 to 3 (00 R2). -/
opaque orderCode : Nat
/-- Cores enabled at shipment, bit n for core n (00 R3, 01 R15). -/
opaque enabledMask : Word
/-- Core dies whose routers failed test before shipment (14 R363): State.shippedRouters says which of them count. -/
opaque shippedFenced : List Nat
/-- Silicon revision (16 R402). -/
opaque siliconRev : Nat
/-- Module serial number (16 R402). -/
opaque serial : Word
/-- Firmware version of bank A and bank B as shipped (16 R402, 20 R500). -/
opaque fwVersion : Nat → Nat
/-- MAC address, an octet for each index below 6 (19 R469). -/
opaque mac : Nat → Byte
/-- PCI vendor and other words that the standards put into configuration space (18 R448). -/
opaque configSpace : Nat → BitVec 32
/-- The certificate chain of slot 0 as it ends in an ECDSA alias key, octet by octet, and its length (20 R507): the alias key is
named by the hash that it is derived from (20 R496). -/
opaque certOctet : List Byte → Nat → Byte
opaque certLength : Nat
/-- The signature octets that a key makes over a hash: key number, hash octets, octet index (20 R496). -/
opaque signature : Nat → List Byte → Nat → Byte
/-- Whether the two signatures of an unlock response verify under the debug root (20 R510): the signed fields, and the octets
that follow them. -/
opaque debugSignaturesOk : List Byte → List Byte → Bool
/-- The images of a set whose last bytes came in a raw frame, as the device checks them (20 R504): by the number of a free value
(log entry 4). -/
opaque imageSet : Nat → List ImageCheck
/-- The payload of a standard CXL mailbox command that the manual leaves to the standard (16 R398): opcode and arguments. -/
opaque standardReply : Nat → List Nat → List Byte
/-- The SHA-384 of the boot ROM (20 R509). -/
opaque romDigest : Nat → Byte
/-- Anti-rollback counters as fused at shipment (20 R499). -/
opaque fusedCounter : Nat → Nat
/-- Capacitance of the hold-up bank measured at cast-on, 10 µF (21 R531). -/
opaque bankCapacitance : Nat

/-- Silicon rate of a core at a voltage (mV) and junction temperature (°C), stitches/µs (02 R34). -/
opaque siliconRate (core mV temp : Nat) : Nat

/-- A fresh free value: State.freeIdx numbers them (log entry 4). -/
opaque freeWord : Nat → Word

/-- Which of the values that are left an adder tree takes next (03 R71, 05 R118): by the accumulator, the finite products as sign,
magnitude and power of two, and the number of the choice. -/
opaque adderTree : F32 → Option (List (Bool × Nat × Int)) → Nat → Nat

/-- The set of its home slice that a line belongs to (13 R342): the manual gives 65,536 sets and no rule that names one. -/
opaque cacheSet : Nat → Nat

/-- How far a row function's result lies from the correctly rounded one (03 R73): the function's number and the finite FP32 pattern. -/
opaque rowFnError : Nat → F32 → Nat

end Sys2Proof.Config
end

