-- ==== Sys2Proof/Machine/Flags.lean ====
section
/-! DEFINITION. Numbers: decoding and encoding of every format (03 R60 to R66), exact products and group sums (R70,
R71), FP32 arithmetic (R72), output conversion (R74 to R78), the random generator (R79 to R81), and CRC-32 (18 R453). -/

namespace Sys2Proof.Machine

/-- The value of an element: NaN, an infinity, or sign, magnitude and power of two. -/
inductive FVal where
  | nan
  | inf (neg : Bool)
  | fin (neg : Bool) (mag : Nat) (exp : Int)
  deriving DecidableEq, Repr

/-- A floating-point layout (R61): mantissa bits, exponent bits, bias; whether the top exponent is special; whether only
its all-ones mantissa is NaN. -/
structure FloatFmt where
  man : Nat
  expBits : Nat
  bias : Nat
  ieee : Bool
  e4m3 : Bool
  deriving DecidableEq, Repr

def fp32 : FloatFmt := ⟨23, 8, 127, true, false⟩
def fp16 : FloatFmt := ⟨10, 5, 15, true, false⟩
def bf16 : FloatFmt := ⟨7, 8, 127, true, false⟩
def fmtE4m3 : FloatFmt := ⟨3, 4, 7, false, true⟩
def fmtE5m2 : FloatFmt := ⟨2, 5, 15, true, false⟩
def fmtE2m3 : FloatFmt := ⟨3, 2, 1, false, false⟩
def fmtE3m2 : FloatFmt := ⟨2, 3, 3, false, false⟩
def fmtE2m1 : FloatFmt := ⟨1, 2, 1, false, false⟩

/-- Decode a pattern of a floating-point layout (R61, R64). -/
def decodeFloat (f : FloatFmt) (w : Nat) : FVal :=
  let m := w % 2 ^ f.man
  let e := (w >>> f.man) % 2 ^ f.expBits
  let neg := w.testBit (f.man + f.expBits)
  if f.ieee ∧ e = 2 ^ f.expBits - 1 then (if m = 0 then .inf neg else .nan)
  else if f.e4m3 ∧ e = 15 ∧ m = 7 then .nan
  else if e = 0 then .fin neg m (1 - (f.bias : Int) - f.man)
  else .fin neg (2 ^ f.man + m) ((e : Int) - f.bias - f.man)

/-- The largest finite pattern without its sign (R61). -/
def maxFinite (f : FloatFmt) : Nat :=
  if f.ieee then (2 ^ f.expBits - 1) * 2 ^ f.man - 1
  else if f.e4m3 then 2 ^ (f.man + f.expBits) - 2
  else 2 ^ (f.man + f.expBits) - 1

/-- The canonical NaN of a layout (R64). -/
def canonNan (f : FloatFmt) : Nat :=
  if f.e4m3 then 0x7F else (2 ^ f.expBits - 1) * 2 ^ f.man + 2 ^ (f.man - 1)

/-- Units of the target's last place and what lies below it: quotient, remainder, and the divisor (R77, R78). The first
component is the exponent of the unit above the subnormal step. -/
def splitAt (man : Nat) (step : Int) (mag : Nat) (exp : Int) : Nat × Nat × Nat × Nat :=
  let top : Int := (mag.log2 : Int) + exp - man
  let u : Int := if top < step then step else top
  let up := (u - step).toNat
  if exp ≥ u then (up, mag * 2 ^ (exp - u).toNat, 0, 1)
  else
    let d := 2 ^ (u - exp).toNat
    (up, mag / d, mag % d, d)

/-- Round to nearest, ties to the even quotient (R77). -/
def rne (q r d : Nat) : Nat :=
  if 2 * r < d then q else if d < 2 * r then q + 1 else if d = 1 then q else if q % 2 = 0 then q else q + 1

/-- Stochastic rounding with the 16 draw bits (R78). -/
def stochastic (draw q r d : Nat) : Nat := if r * 65536 / d + draw ≥ 65536 then q + 1 else q

/-- The pattern without sign of a magnitude rounded into a layout; it may exceed the largest finite one. -/
def roundMag (f : FloatFmt) (draw : Option Nat) (mag : Nat) (exp : Int) : Nat :=
  if mag = 0 then 0 else
  let (up, q, r, d) := splitAt f.man (1 - (f.bias : Int) - f.man) mag exp
  let q' := match draw with
    | none => rne q r d
    | some n => stochastic n q r d
  up * 2 ^ f.man + q'

/-- The sign bit of a layout. -/
def signBit (f : FloatFmt) (neg : Bool) : Nat := if neg then 2 ^ (f.man + f.expBits) else 0

/-- What a conversion wrote: the pattern, and what it counts (R75, R78). -/
structure Converted where
  bits : Nat
  sat : Nat := 0
  nan : Nat := 0
  sr : Nat := 0
  deriving DecidableEq, Repr

/-- Conversion of one value into a layout that is no MX element (R75). -/
def convertFloat (f : FloatFmt) (ovfInf : Bool) (draw : Option Nat) : FVal → Converted
  | .nan => { bits := canonNan f, nan := 1 }
  | .inf neg =>
    if ovfInf then
      (if f.ieee then { bits := signBit f neg + maxFinite f + 1 } else { bits := canonNan f, nan := 1 })
    else { bits := signBit f neg + maxFinite f, sat := 1 }
  | .fin neg mag exp =>
    let p := roundMag f draw mag exp
    let sr := if draw.isSome then 1 else 0
    if maxFinite f < p then
      if ovfInf then
        (if f.ieee then { bits := signBit f neg + maxFinite f + 1, sr := sr } else { bits := canonNan f, nan := 1, sr := sr })
      else { bits := signBit f neg + maxFinite f, sat := 1, sr := sr }
    else { bits := signBit f neg + p, sr := sr }

/-- A value rounded once to FP32, overflow becoming an infinity (R71, R72). -/
def toF32 : FVal → F32
  | .nan => 0x7FC00000#32
  | .inf neg => if neg then 0xFF800000#32 else 0x7F800000#32
  | .fin neg mag exp =>
    let p := roundMag fp32 none mag exp
    BitVec.ofNat 32 (signBit fp32 neg + (if maxFinite fp32 < p then maxFinite fp32 + 1 else p))

/-- The value of an FP32 pattern. -/
def ofF32 (w : F32) : FVal := decodeFloat fp32 w.toNat

/-- Whether an FP32 pattern is an infinity. -/
def isInfF32 (w : F32) : Bool := w.toNat % 2 ^ 31 == 0x7F800000
/-- Whether an FP32 pattern is a NaN. -/
def isNanF32 (w : F32) : Bool := decide (0x7F800000 < w.toNat % 2 ^ 31)
/-- Whether an FP32 pattern is ±0. -/
def isZeroF32 (w : F32) : Bool := w.toNat % 2 ^ 31 == 0

/-- The product of two values, exact (R70, R72). -/
def fmul : FVal → FVal → FVal
  | .nan, _ => .nan
  | _, .nan => .nan
  | .inf a, .inf b => .inf (a != b)
  | .inf a, .fin b m _ => if m = 0 then .nan else .inf (a != b)
  | .fin a m _, .inf b => if m = 0 then .nan else .inf (a != b)
  | .fin a m e, .fin b n k => .fin (a != b) (m * n) (e + k)

/-- The signed mantissa of a finite value over a smaller exponent. -/
def alignTo (x : Int) (neg : Bool) (m : Nat) (e : Int) : Int :=
  let v : Int := (m * 2 ^ (e - x).toNat : Nat)
  if neg then -v else v

/-- The sum of two values, exact (R71, R72). A zero sum is +0 unless both are -0. -/
def fadd : FVal → FVal → FVal
  | .nan, _ => .nan
  | _, .nan => .nan
  | .inf a, .inf b => if a = b then .inf a else .nan
  | .inf a, _ => .inf a
  | _, .inf b => .inf b
  | .fin a m e, .fin b n k =>
    let x := if e ≤ k then e else k
    let z := alignTo x a m e + alignTo x b n k
    if z = 0 then .fin (a && b && m == 0 && n == 0) 0 x else .fin (decide (z < 0)) z.natAbs x

/-- The exact sum of a list; of none +0. -/
def fsum : List FVal → FVal
  | [] => .fin false 0 0
  | x :: l => l.foldl fadd x

/-- One FP32 addition, rounded to nearest even (R71). -/
def addF32 (a b : F32) : F32 := toF32 (fadd (ofF32 a) (ofF32 b))
/-- One FP32 multiplication (R73). -/
def mulF32 (a b : F32) : F32 := toF32 (fmul (ofF32 a) (ofF32 b))

/-- One FP32 division, correctly rounded: the quotient is taken to 64 more bits than FP32 holds, a sticky bit below (R73). -/
def divF32 (a b : F32) : F32 :=
  match ofF32 a, ofF32 b with
  | .nan, _ => 0x7FC00000#32
  | _, .nan => 0x7FC00000#32
  | .inf _, .inf _ => 0x7FC00000#32
  | .inf x, .fin y _ _ => toF32 (.inf (x != y))
  | .fin x _ _, .inf y => toF32 (.fin (x != y) 0 0)
  | .fin x m e, .fin y n k =>
    if n = 0 then (if m = 0 then 0x7FC00000#32 else toF32 (.inf (x != y)))
    else
      let q := m * 2 ^ 128 / n
      let s := if m * 2 ^ 128 % n = 0 then 0 else 1
      toF32 (.fin (x != y) (2 * q + s) (e - k - 129))

/-- a < b for FP32 values; false for a NaN. -/
def ltF32 (a b : F32) : Bool :=
  match fadd (ofF32 a) (ofF32 (b ^^^ 0x80000000#32)), ofF32 a, ofF32 b with
  | _, .nan, _ => false
  | _, _, .nan => false
  | _, .inf x, .inf y => x && !y
  | .fin neg m _, _, _ => neg && m != 0
  | .inf neg, _, _ => neg
  | .nan, _, _ => false

/-- Whether the rounded addition overflowed to an infinity that no operand held (R72). -/
def overflowed (a b r : F32) : Bool := isInfF32 r && !isInfF32 a && !isInfF32 b

/-! Format codes (R60). -/

/-- A code of Table: Format codes. -/
def fmtOk (c : Nat) : Bool :=
  (1 ≤ c && c ≤ 5) || (8 ≤ c && c ≤ 13) || (17 ≤ c && c ≤ 24)
/-- A plane-integer code. -/
def isPint (c : Nat) : Bool := 17 ≤ c && c ≤ 24
/-- A code with block scales. -/
def hasScale (c : Nat) : Bool := 8 ≤ c && c ≤ 24
/-- Element bits of a code. -/
def fmtBits (c : Nat) : Nat :=
  if c = 1 then 32 else if c = 2 ∨ c = 3 then 16 else if c = 4 ∨ c = 5 ∨ c = 8 ∨ c = 9 ∨ c = 13 then 8
  else if c = 10 ∨ c = 11 then 6 else if c = 12 then 4 else c - 16
/-- Stored as bit planes (04 R87). -/
def isPlane (c : Nat) : Bool := c == 10 || c == 11 || c == 12 || isPint c
/-- Bytes of an element of a byte format. -/
def fmtBytes (c : Nat) : Nat := fmtBits c / 8

/-- The element layout of a code that has one. -/
def elemFmt (c : Nat) : Option FloatFmt :=
  if c = 1 then some fp32 else if c = 2 then some fp16 else if c = 3 then some bf16
  else if c = 4 ∨ c = 8 then some fmtE4m3 else if c = 5 ∨ c = 9 then some fmtE5m2
  else if c = 10 then some fmtE2m3 else if c = 11 then some fmtE3m2 else if c = 12 then some fmtE2m1 else none

/-- An integer as a value over a power of two. -/
def ofInt (z : Int) (e : Int) : FVal := .fin (decide (z < 0)) z.natAbs e

/-- An element without its block scale (R61, R62, R65). -/
def decodeElem (c w : Nat) : FVal :=
  match elemFmt c with
  | some f => decodeFloat f w
  | none =>
    if c = 13 then ofInt (signed 8 w) (-6)
    else if c = 17 then (if w % 2 = 1 then .fin false 1 0 else .fin true 1 0)
    else ofInt (signed (c - 16) w) 0

/-- The value of an E8M0 block scale (R63). -/
def scaleVal (s : Nat) : FVal := if s = 255 then .nan else .fin false 1 ((s : Int) - 127)

/-- An element with its block scale (R63, R70). -/
def decodeScaled (c w s : Nat) : FVal := if hasScale c then fmul (decodeElem c w) (scaleVal s) else decodeElem c w

/-- Relative rate of an operand pair times 8, 0 where the pair is refused (R67); `a` is operand A. MXFP8 counts among the FP8 activations of
plane integers (log entry 65). -/
def pairRate8 (a b : Nat) : Nat :=
  let byte c := c == 4 || c == 5 || c == 8 || c == 9 || c == 13
  let sub c := c == 10 || c == 11 || c == 12
  if (a = 3 ∧ b = 3) ∨ (a = 2 ∧ b = 2) then 4
  else if byte a ∧ byte b then 8
  else if sub a ∧ sub b then 16
  else if (sub a ∧ byte b) ∨ (byte a ∧ sub b) then 8
  else if byte a ∧ isPint b then 64 / (b - 16)
  else 0

/-- MACs per stitch of a pair, dense, times 1; a 2:4 product does exactly twice as many (R67, R68). PINTk rates are
averages (R69). -/
def macsPerStitch (a b : Nat) : Nat := if isPint b then 65536 * 8 / (b - 16) else 8192 * pairRate8 a b

/-- One group sum of up to 32 products: exact, rounded once (R71). -/
def groupSum (l : List (FVal × FVal)) : F32 := toF32 (fsum (l.map (fun p => fmul p.1 p.2)))

/-- The finite products of a list, none where one is special. -/
def finiteProducts : List (FVal × FVal) → Option (List (Bool × Nat × Int))
  | [] => some []
  | p :: l => match fmul p.1 p.2, finiteProducts l with
    | .fin n m e, some r => some ((n, m, e) :: r)
    | _, _ => none
/-- Groups of 32 products into an accumulator (R71): the sum, and its overflows, those of a group's own sum among them (R72; log entry 32). Fuel bounds
the groups. -/
def accGroups : Nat → F32 → List (FVal × FVal) → F32 × Nat
  | 0, acc, _ => (acc, 0)
  | _, acc, [] => (acc, 0)
  | fuel + 1, acc, l =>
    let g := groupSum (l.take 32)
    let r := addF32 acc g
    let (v, o) := accGroups fuel r (l.drop 32)
    (v, o + b2n (overflowed acc g r) + b2n (isInfF32 g && (finiteProducts (l.take 32)).isSome))
/-- Element i of a list is taken out of it. -/
def pickAt {α : Type} (i : Nat) (l : List α) : Option (α × List α) := (l[i]?).map (fun x => (x, l.eraseIdx i))
/-- An adder tree over exact leaves (R71, R118): each step adds two of the values that are left, rounds the sum to FP32, and counts an
overflow; which two is the device's choice (log entry 14). Fuel bounds the steps. -/
def treeSum (choose : Nat → Nat) : Nat → List FVal → Nat → FVal × Nat
  | 0, _, n => (.fin false 0 0, n)
  | _, [], n => (.fin false 0 0, n)
  | _, [x], n => (x, n)
  | fuel + 1, l, n => match pickAt (choose (2 * fuel) % l.length) l with
    | none => (.fin false 0 0, n)
    | some (x, r) => match pickAt (choose (2 * fuel + 1) % r.length) r with
      | none => (.fin false 0 0, n)
      | some (y, r) =>
        let z := toF32 (fadd x y)
        let inf := match x, y with
          | .fin .., .fin .. => isInfF32 z
          | _, _ => false
        treeSum choose fuel (ofF32 z :: r) (n + b2n inf)
/-- Products of a pair of rate 0.5 added into an FP32 value, and its overflows (R71, R72). -/
def accProducts (acc : F32) (l : List (FVal × FVal)) : F32 × Nat :=
  let leaves := ofF32 acc :: l.map (fun p => fmul p.1 p.2)
  let r := treeSum (Config.adderTree acc (finiteProducts l)) leaves.length leaves 0
  if l.isEmpty then (acc, 0) else (toF32 r.1, r.2)
/-- Products of a pair of rate 0.5 that share a key of a pair vector (R118), and their overflows: a product alone is rounded. -/
def vectorProducts (l : List (FVal × FVal)) : F32 × Nat :=
  let leaves := l.map (fun p => fmul p.1 p.2)
  let r := treeSum (Config.adderTree 0#32 (finiteProducts l)) leaves.length leaves 0
  (toF32 r.1, r.2 + b2n (leaves.length == 1 && isInfF32 (toF32 r.1) && (finiteProducts l).isSome))
/-- Products of a pair of rate 1 or more that share a key (R118), and the overflow of their sum. -/
def vectorGroup (l : List (FVal × FVal)) : F32 × Nat := (groupSum l, b2n (isInfF32 (groupSum l) && (finiteProducts l).isSome))
/-- The sum of products into an accumulator, and its overflows (R71): `grouped` for pairs of rate 1 or more. -/
def accumulate (grouped : Bool) (acc : F32) (l : List (FVal × FVal)) : F32 × Nat :=
  if grouped then accGroups l.length acc l else accProducts acc l

/-! Output conversion (R74 to R78). -/

/-- emax of an MX element (R76). -/
def emax (c : Nat) : Int :=
  if c = 8 then 8 else if c = 9 then 15 else if c = 10 then 2 else if c = 11 then 4 else if c = 12 then 2 else 0

/-- floor of log2 of a positive magnitude. -/
def floorLog2 (mag : Nat) (exp : Int) : Int := (mag.log2 : Int) + exp

/-- floor(log2) of the largest magnitude of a block, none where all are zero. -/
def blockLog : List FVal → Option Int
  | [] => none
  | .fin _ m e :: t =>
    match m, blockLog t with
    | 0, r => r
    | m + 1, none => some (floorLog2 (m + 1) e)
    | m + 1, some x => some (if x < floorLog2 (m + 1) e then floorLog2 (m + 1) e else x)
  | _ :: t => blockLog t

/-- Whether a block holds a NaN or an infinity. -/
def blockSpecial (l : List FVal) : Bool := l.any (fun v => match v with | .fin .. => false | _ => true)

/-- The scale code of an MX block (R76). -/
def blockScale (c : Nat) (l : List FVal) : Nat :=
  if blockSpecial l then 255 else
  match blockLog l with
  | none => 0
  | some x =>
    let e := x - emax c
    ((if e < -127 then -127 else if 127 < e then 127 else e) + 127).toNat

/-- An MX element under its block's scale code (R75, R76). -/
def convertMx (c scale : Nat) (draw : Option Nat) (v : FVal) : Converted :=
  if scale = 255 then { bits := 0, nan := 1 } else
  match v with
  | .fin neg mag exp =>
    let x := exp - ((scale : Int) - 127)
    let sr := if draw.isSome then 1 else 0
    match elemFmt c with
    | some f =>
      let p := roundMag f draw mag x
      if maxFinite f < p then { bits := signBit f neg + maxFinite f, sat := 1, sr := sr }
      else { bits := signBit f neg + p, sr := sr }
    | none =>
      let (q, r, d) := if x ≥ -6 then (mag * 2 ^ (x + 6).toNat, 0, 1) else (mag / 2 ^ (-6 - x).toNat, mag % 2 ^ (-6 - x).toNat, 2 ^ (-6 - x).toNat)
      let n := match draw with
        | none => rne q r d
        | some w => stochastic w q r d
      let m := if 127 < n then 127 else n
      { bits := unsigned 8 (if neg then -(m : Int) else m), sat := if 127 < n then 1 else 0, sr := sr }
  | _ => { bits := 0, nan := 1 }

/-- Fields of the conversion control word (R74). -/
def convFmt (w : Nat) : Nat := bits w 4 0
def convRound (w : Nat) : Bool := bit w 5
def convOvf (w : Nat) : Bool := bit w 6
def convStream (w : Nat) : Nat := bits w 19 8

/-- Conversion of a block of FP32 values under a control word, with one draw for each element: the scale code (0 for a
format without scales) and the elements. A block of zeros consults no draw (R76, R78). -/
def convertBlock (conv : Nat) (draws : List Nat) (vals : List F32) : Nat × List Converted :=
  let c := convFmt conv
  let vs := vals.map ofF32
  let pick (i : Nat) : Option Nat := if convRound conv then some (draws.getD i 0) else none
  if hasScale c then
    let s := blockScale c vs
    let zero := (blockLog vs).isNone
    (s, vs.zipIdx.map (fun p => convertMx c s (if zero then none else pick p.2) p.1))
  else
    match elemFmt c with
    | some f => (0, vs.zipIdx.map (fun p => match p.1 with
        | .fin .. => convertFloat f (convOvf conv) (pick p.2) p.1
        | v => convertFloat f (convOvf conv) none v))
    | none => (0, [])

/-- Whether a converted pattern of a format is ±0 (07 R167). -/
def isZeroPattern (c w : Nat) : Bool :=
  match decodeElem c w with
  | .fin _ m _ => m == 0
  | _ => false

/-! Random streams (R79 to R82). -/

/-- One Philox4x32 round. -/
def philoxRound (c : Nat × Nat × Nat × Nat) (k0 k1 : Nat) : Nat × Nat × Nat × Nat :=
  let (c0, c1, c2, c3) := c
  let p0 := 0xD2511F53 * c0
  let p1 := 0xCD9E8D57 * c2
  ((p1 / 2 ^ 32) ^^^ c1 ^^^ k0, p1 % 2 ^ 32, (p0 / 2 ^ 32) ^^^ c3 ^^^ k1, p0 % 2 ^ 32)

/-- n rounds, the key advancing after each. -/
def philox : Nat → Nat × Nat × Nat × Nat → Nat → Nat → Nat × Nat × Nat × Nat
  | 0, c, _, _ => c
  | n + 1, c, k0, k1 => philox n (philoxRound c k0 k1) ((k0 + 0x9E3779B9) % 2 ^ 32) ((k1 + 0xBB67AE85) % 2 ^ 32)

/-- The draw for element e at step t of stream s of strand n with a seed (R80, R81). -/
def rngDraw (seed n s t e : Nat) : Nat :=
  let k0 := seed % 2 ^ 32
  let k1 := (seed / 2 ^ 32) % 2 ^ 32 ^^^ ((n % 2 ^ 18) * 2 ^ 14 + (s % 2 ^ 12) * 4)
  let q := e / 4
  let (a, b, c, d) := philox 10 (q % 2 ^ 32, (q / 2 ^ 32) % 2 ^ 14, t % 2 ^ 32, (t / 2 ^ 32) % 2 ^ 32) k0 k1
  match e % 4 with
  | 0 => a
  | 1 => b
  | 2 => c
  | _ => d

/-- Dropout of a value by its draw (07 R168): the dropped element is +0, the kept one is scaled by the exact quotient. -/
def dropout (p16 draw : Nat) (v : F32) : F32 × Bool :=
  if draw % 65536 < p16 then (0#32, true)
  else match ofF32 v with
    | .fin neg m e =>
      let den := 65536 - p16
      let q := m * 2 ^ 144 / den
      let s := if m * 2 ^ 144 % den = 0 then 0 else 1
      (toF32 (.fin neg (2 * q + s) (e - 129)), false)
    | .nan => (0x7FC00000#32, false)
    | .inf _ => (v, false)

/-! CRC-32, IEEE 802.3 (15 R368, 18 R453). -/

def crcBits : Nat → Nat → Nat
  | 0, c => c
  | n + 1, c => crcBits n (if c % 2 = 1 then (c / 2) ^^^ 0xEDB88320 else c / 2)

def crc32 (l : List Byte) : Nat :=
  (l.foldl (fun c b => crcBits 8 (c ^^^ b.toNat)) 0xFFFFFFFF) ^^^ 0xFFFFFFFF

end Sys2Proof.Machine
end

