-- ==== Sys2Proof/Machine/Objects.lean ====
section
/-! DEFINITION. The objects of the dictionary with their types, access rights and defaults, as the manual's object
tables give them (00 R2, R3, R6; the object tables of 02 to 21; 19 R490). -/

namespace Sys2Proof.Machine

/-- Access rights (19 R463). -/
inductive Access where
  | ro | rw | wo | rws | rwl
  deriving DecidableEq, Repr

/-- An object: index * 256 + subindex, type code and size (19 R462), right, default. -/
structure Obj where
  key : Nat
  type : Nat
  size : Nat
  access : Access
  default_ : Nat
  deriving DecidableEq, Repr

def objects0 : List Obj := [
  ⟨0x100101, 12, 0, .ro, 0⟩,
  ⟨0x100102, 2, 1, .ro, 0⟩,
  ⟨0x100103, 2, 1, .ro, 0⟩,
  ⟨0x100104, 5, 8, .ro, 0⟩,
  ⟨0x100105, 1, 1, .ro, 0⟩,
  ⟨0x100201, 11, 6, .ro, 0⟩,
  ⟨0x100202, 2, 1, .rws, 0⟩,
  ⟨0x100203, 2, 1, .ro, 2⟩,
  ⟨0x100204, 5, 8, .ro, 0⟩,
  ⟨0x100205, 5, 8, .ro, 0⟩,
  ⟨0x100301, 3, 2, .rw, 10⟩,
  ⟨0x100401, 1, 1, .rw, 1⟩,
  ⟨0x100402, 2, 1, .rw, 1⟩,
  ⟨0x100403, 11, 6, .rw, 0⟩,
  ⟨0x101001, 2, 1, .ro, 0⟩,
  ⟨0x101002, 2, 1, .ro, 0⟩,
  ⟨0x101101, 3, 2, .ro, 1024⟩,
  ⟨0x101102, 4, 4, .ro, 0⟩,
  ⟨0x102001, 4, 4, .ro, 0⟩,
  ⟨0x102002, 4, 4, .rw, 0⟩,
  ⟨0x102003, 5, 8, .rw, 0⟩,
  ⟨0x102004, 2, 1, .ro, 0⟩,
  ⟨0x102005, 13, 48, .ro, 0⟩,
  ⟨0x102006, 13, 48, .ro, 0⟩,
  ⟨0x102007, 1, 1, .wo, 0⟩,
  ⟨0x102008, 5, 8, .ro, 0⟩,
  ⟨0x102101, 3, 2, .ro, 0⟩,
  ⟨0x104001, 1, 1, .rws, 1⟩,
  ⟨0x104002, 9, 8, .ro, 0⟩,
  ⟨0x200101, 2, 1, .ro, 255⟩,
  ⟨0x200102, 2, 1, .ro, 1⟩,
  ⟨0x200103, 3, 2, .ro, 0⟩,
  ⟨0x201001, 3, 2, .rws, 1600⟩,
  ⟨0x201002, 3, 2, .ro, 1100⟩,
  ⟨0x201003, 3, 2, .rws, 800⟩,
  ⟨0x201004, 3, 2, .ro, 1600⟩,
  ⟨0x201101, 1, 1, .rws, 1⟩,
  ⟨0x201102, 2, 1, .rws, 30⟩,
  ⟨0x201103, 2, 1, .rws, 20⟩,
  ⟨0x201104, 2, 1, .rws, 60⟩]

def objects1 : List Obj := [
  ⟨0x201201, 5, 8, .ro, 0⟩,
  ⟨0x201202, 1, 1, .ro, 0⟩,
  ⟨0x201203, 8, 4, .wo, 0⟩,
  ⟨0x201401, 3, 2, .rw, 100⟩,
  ⟨0x201402, 4, 4, .rw, 1000⟩,
  ⟨0x202001, 3, 2, .rws, 6000⟩,
  ⟨0x202002, 4, 4, .ro, 0⟩,
  ⟨0x202003, 3, 2, .ro, 0⟩,
  ⟨0x202004, 3, 2, .ro, 0⟩,
  ⟨0x202101, 4, 4, .ro, 43000⟩,
  ⟨0x202102, 4, 4, .ro, 41000⟩,
  ⟨0x202103, 4, 4, .ro, 44000⟩,
  ⟨0x202201, 2, 1, .ro, 0⟩,
  ⟨0x202202, 2, 1, .ro, 105⟩,
  ⟨0x202203, 2, 1, .ro, 115⟩,
  ⟨0x202204, 7, 2, .ro, 0⟩,
  ⟨0x202205, 7, 2, .ro, 0⟩,
  ⟨0x202206, 3, 2, .ro, 0⟩,
  ⟨0x202301, 2, 1, .ro, 0⟩,
  ⟨0x202302, 2, 1, .ro, 0⟩,
  ⟨0x202303, 2, 1, .ro, 0⟩,
  ⟨0x202304, 3, 2, .rw, 10⟩,
  ⟨0x202401, 5, 8, .ro, 0⟩,
  ⟨0x202402, 3, 2, .rw, 0⟩,
  ⟨0x202403, 11, 4096, .ro, 0⟩,
  ⟨0x202501, 2, 1, .ro, 0⟩,
  ⟨0x202502, 3, 2, .ro, 0⟩,
  ⟨0x202503, 5, 8, .ro, 0⟩,
  ⟨0x301001, 2, 1, .rw, 36⟩,
  ⟨0x301002, 2, 1, .ro, 3⟩,
  ⟨0x301003, 2, 1, .ro, 255⟩,
  ⟨0x301004, 3, 2, .rw, 60⟩,
  ⟨0x302001, 4, 4, .rw, 100⟩,
  ⟨0x302002, 2, 1, .ro, 0⟩,
  ⟨0x303001, 4, 4, .ro, 0⟩,
  ⟨0x304001, 4, 4, .ro, 0⟩,
  ⟨0x304002, 5, 8, .ro, 0⟩,
  ⟨0x401001, 4, 4, .rw, 2000⟩,
  ⟨0x401002, 3, 2, .rw, 500⟩,
  ⟨0x401003, 4, 4, .ro, 0⟩]

def objects2 : List Obj := [
  ⟨0x401004, 2, 1, .wo, 0⟩,
  ⟨0x401005, 2, 1, .ro, 0⟩,
  ⟨0x401006, 2, 1, .ro, 0⟩,
  ⟨0x401007, 2, 1, .ro, 0⟩,
  ⟨0x403001, 3, 2, .ro, 1024⟩,
  ⟨0x403002, 3, 2, .ro, 0⟩,
  ⟨0x404001, 1, 1, .rws, 1⟩,
  ⟨0x405001, 4, 4, .rw, 50⟩,
  ⟨0x405002, 4, 4, .rw, 1000⟩,
  ⟨0x405003, 1, 1, .rws, 1⟩,
  ⟨0x406001, 2, 1, .ro, 64⟩,
  ⟨0x406002, 3, 2, .ro, 0⟩,
  ⟨0x406003, 5, 8, .ro, 0⟩,
  ⟨0x407001, 3, 2, .ro, 256⟩,
  ⟨0x407002, 4, 4, .ro, 4096⟩,
  ⟨0x407003, 3, 2, .ro, 40⟩,
  ⟨0x407004, 3, 2, .ro, 150⟩,
  ⟨0x407005, 3, 2, .ro, 300⟩,
  ⟨0x407006, 3, 2, .rw, 5⟩,
  ⟨0x408001, 2, 1, .ro, 32⟩,
  ⟨0x408002, 4, 4, .ro, 65536⟩,
  ⟨0x408003, 3, 2, .ro, 4096⟩,
  ⟨0x409001, 2, 1, .ro, 64⟩,
  ⟨0x409002, 2, 1, .ro, 32⟩,
  ⟨0x500101, 3, 2, .rws, 0⟩,
  ⟨0x501001, 3, 2, .ro, 0⟩,
  ⟨0x501002, 5, 8, .rws, 2863311530⟩,
  ⟨0x501003, 3, 2, .ro, 0⟩,
  ⟨0x501004, 3, 2, .ro, 0⟩,
  ⟨0x501005, 3, 2, .rw, 10⟩,
  ⟨0x502001, 11, 4096, .rws, 0⟩,
  ⟨0x503001, 5, 8, .rws, 0⟩,
  ⟨0x503002, 3, 2, .rw, 50⟩,
  ⟨0x600101, 2, 1, .rws, 1⟩,
  ⟨0x600102, 2, 1, .rws, 5⟩,
  ⟨0x600103, 2, 1, .rws, 20⟩,
  ⟨0x600104, 4, 4, .rws, 86400⟩,
  ⟨0x600105, 2, 1, .rws, 1⟩,
  ⟨0x600106, 2, 1, .rws, 10⟩,
  ⟨0x600107, 2, 1, .rws, 25⟩]

def objects3 : List Obj := [
  ⟨0x600108, 1, 1, .rws, 1⟩,
  ⟨0x600109, 2, 1, .ro, 0⟩,
  ⟨0x60010A, 5, 8, .ro, 0⟩,
  ⟨0x60010B, 5, 8, .ro, 0⟩,
  ⟨0x60010C, 5, 8, .ro, 0⟩,
  ⟨0x60010D, 5, 8, .ro, 0⟩,
  ⟨0x600201, 2, 1, .rws, 1⟩,
  ⟨0x600202, 2, 1, .rws, 5⟩,
  ⟨0x600203, 2, 1, .rws, 20⟩,
  ⟨0x600204, 4, 4, .rws, 3600⟩,
  ⟨0x600205, 2, 1, .rws, 1⟩,
  ⟨0x600206, 2, 1, .rws, 10⟩,
  ⟨0x600207, 2, 1, .rws, 25⟩,
  ⟨0x600208, 1, 1, .rws, 1⟩,
  ⟨0x600209, 2, 1, .ro, 0⟩,
  ⟨0x60020A, 5, 8, .ro, 0⟩,
  ⟨0x60020B, 5, 8, .ro, 0⟩,
  ⟨0x60020C, 5, 8, .ro, 0⟩,
  ⟨0x60020D, 5, 8, .ro, 0⟩,
  ⟨0x600301, 2, 1, .rws, 1⟩,
  ⟨0x600302, 2, 1, .rws, 2⟩,
  ⟨0x600303, 2, 1, .rws, 10⟩,
  ⟨0x600304, 4, 4, .ro, 0⟩,
  ⟨0x600305, 2, 1, .rws, 1⟩,
  ⟨0x600306, 2, 1, .rws, 10⟩,
  ⟨0x600307, 2, 1, .rws, 25⟩,
  ⟨0x600308, 1, 1, .rws, 1⟩,
  ⟨0x600309, 2, 1, .ro, 0⟩,
  ⟨0x60030A, 5, 8, .ro, 0⟩,
  ⟨0x60030B, 5, 8, .ro, 0⟩,
  ⟨0x60030C, 5, 8, .ro, 0⟩,
  ⟨0x60030D, 5, 8, .ro, 0⟩,
  ⟨0x600401, 2, 1, .rws, 0⟩,
  ⟨0x600402, 2, 1, .rws, 1⟩,
  ⟨0x600403, 2, 1, .rws, 5⟩,
  ⟨0x600404, 4, 4, .rws, 10⟩,
  ⟨0x600405, 2, 1, .rws, 1⟩,
  ⟨0x600406, 2, 1, .rws, 10⟩,
  ⟨0x600407, 2, 1, .rws, 25⟩,
  ⟨0x600408, 1, 1, .rws, 1⟩]

def objects4 : List Obj := [
  ⟨0x600409, 2, 1, .ro, 0⟩,
  ⟨0x60040A, 5, 8, .ro, 0⟩,
  ⟨0x60040B, 5, 8, .ro, 0⟩,
  ⟨0x60040C, 5, 8, .ro, 0⟩,
  ⟨0x60040D, 5, 8, .ro, 0⟩,
  ⟨0x600501, 2, 1, .rws, 0⟩,
  ⟨0x600502, 2, 1, .rws, 1⟩,
  ⟨0x600503, 2, 1, .rws, 4⟩,
  ⟨0x600504, 4, 4, .rws, 60⟩,
  ⟨0x600505, 2, 1, .rws, 1⟩,
  ⟨0x600506, 2, 1, .rws, 10⟩,
  ⟨0x600507, 2, 1, .rws, 25⟩,
  ⟨0x600508, 1, 1, .rws, 1⟩,
  ⟨0x600509, 2, 1, .ro, 0⟩,
  ⟨0x60050A, 5, 8, .ro, 0⟩,
  ⟨0x60050B, 5, 8, .ro, 0⟩,
  ⟨0x60050C, 5, 8, .ro, 0⟩,
  ⟨0x60050D, 5, 8, .ro, 0⟩,
  ⟨0x600601, 2, 1, .rws, 0⟩,
  ⟨0x600602, 2, 1, .rws, 10⟩,
  ⟨0x600603, 2, 1, .rws, 50⟩,
  ⟨0x600604, 4, 4, .rws, 3600⟩,
  ⟨0x600605, 2, 1, .rws, 1⟩,
  ⟨0x600606, 2, 1, .rws, 10⟩,
  ⟨0x600607, 2, 1, .rws, 25⟩,
  ⟨0x600608, 1, 1, .rws, 1⟩,
  ⟨0x600609, 2, 1, .ro, 0⟩,
  ⟨0x60060A, 5, 8, .ro, 0⟩,
  ⟨0x60060B, 5, 8, .ro, 0⟩,
  ⟨0x60060C, 5, 8, .ro, 0⟩,
  ⟨0x60060D, 5, 8, .ro, 0⟩,
  ⟨0x600701, 2, 1, .rws, 1⟩,
  ⟨0x600702, 2, 1, .rws, 5⟩,
  ⟨0x600703, 2, 1, .rws, 20⟩,
  ⟨0x600704, 4, 4, .ro, 0⟩,
  ⟨0x600705, 2, 1, .rws, 1⟩,
  ⟨0x600706, 2, 1, .rws, 10⟩,
  ⟨0x600707, 2, 1, .rws, 25⟩,
  ⟨0x600708, 1, 1, .rws, 1⟩,
  ⟨0x600709, 2, 1, .ro, 0⟩]

def objects5 : List Obj := [
  ⟨0x60070A, 5, 8, .ro, 0⟩,
  ⟨0x60070B, 5, 8, .ro, 0⟩,
  ⟨0x60070C, 5, 8, .ro, 0⟩,
  ⟨0x60070D, 5, 8, .ro, 0⟩,
  ⟨0x700101, 2, 1, .ro, 0⟩,
  ⟨0x700102, 1, 1, .rws, 0⟩,
  ⟨0x701001, 4, 4, .rws, 21600⟩,
  ⟨0x701002, 3, 2, .ro, 0⟩,
  ⟨0x701003, 3, 2, .ro, 0⟩,
  ⟨0x701004, 3, 2, .ro, 0⟩,
  ⟨0x800101, 2, 1, .ro, 0⟩,
  ⟨0x800102, 2, 1, .ro, 0⟩,
  ⟨0x800103, 2, 1, .ro, 0⟩,
  ⟨0x800104, 2, 1, .ro, 0⟩,
  ⟨0x800105, 2, 1, .ro, 0⟩,
  ⟨0x800106, 2, 1, .ro, 0⟩,
  ⟨0x800107, 2, 1, .ro, 0⟩,
  ⟨0x800108, 2, 1, .ro, 0⟩,
  ⟨0x800109, 2, 1, .ro, 0⟩,
  ⟨0x80010A, 2, 1, .ro, 0⟩,
  ⟨0x80010B, 2, 1, .ro, 0⟩,
  ⟨0x80010C, 2, 1, .ro, 0⟩,
  ⟨0x80010D, 2, 1, .ro, 0⟩,
  ⟨0x80010E, 2, 1, .ro, 0⟩,
  ⟨0x80010F, 2, 1, .ro, 0⟩,
  ⟨0x800110, 2, 1, .ro, 0⟩,
  ⟨0x800111, 2, 1, .ro, 0⟩,
  ⟨0x800112, 2, 1, .ro, 0⟩,
  ⟨0x800113, 2, 1, .ro, 0⟩,
  ⟨0x800114, 2, 1, .ro, 0⟩,
  ⟨0x800115, 2, 1, .ro, 0⟩,
  ⟨0x800116, 2, 1, .ro, 0⟩,
  ⟨0x800117, 2, 1, .ro, 0⟩,
  ⟨0x800118, 2, 1, .ro, 0⟩,
  ⟨0x800119, 2, 1, .ro, 0⟩,
  ⟨0x80011A, 2, 1, .ro, 0⟩,
  ⟨0x80011B, 2, 1, .ro, 0⟩,
  ⟨0x80011C, 2, 1, .ro, 0⟩,
  ⟨0x80011D, 2, 1, .ro, 0⟩,
  ⟨0x80011E, 2, 1, .ro, 0⟩]

def objects6 : List Obj := [
  ⟨0x80011F, 2, 1, .ro, 0⟩,
  ⟨0x800120, 2, 1, .ro, 0⟩,
  ⟨0x800121, 2, 1, .ro, 0⟩,
  ⟨0x800122, 2, 1, .ro, 0⟩,
  ⟨0x800123, 2, 1, .ro, 0⟩,
  ⟨0x800124, 2, 1, .ro, 0⟩,
  ⟨0x800125, 2, 1, .ro, 0⟩,
  ⟨0x800126, 2, 1, .ro, 0⟩,
  ⟨0x800127, 2, 1, .ro, 0⟩,
  ⟨0x800128, 2, 1, .ro, 0⟩,
  ⟨0x800129, 2, 1, .ro, 0⟩,
  ⟨0x80012A, 2, 1, .ro, 0⟩,
  ⟨0x80012B, 2, 1, .ro, 0⟩,
  ⟨0x80012C, 2, 1, .ro, 0⟩,
  ⟨0x80012D, 2, 1, .ro, 0⟩,
  ⟨0x80012E, 2, 1, .ro, 0⟩,
  ⟨0x80012F, 2, 1, .ro, 0⟩,
  ⟨0x800130, 2, 1, .ro, 0⟩,
  ⟨0x800131, 2, 1, .ro, 0⟩,
  ⟨0x800132, 2, 1, .ro, 0⟩,
  ⟨0x800133, 2, 1, .ro, 0⟩,
  ⟨0x800134, 2, 1, .ro, 0⟩,
  ⟨0x800135, 2, 1, .ro, 0⟩,
  ⟨0x800136, 2, 1, .ro, 0⟩,
  ⟨0x800137, 2, 1, .ro, 0⟩,
  ⟨0x800138, 2, 1, .ro, 0⟩,
  ⟨0x800139, 2, 1, .ro, 0⟩,
  ⟨0x80013A, 2, 1, .ro, 0⟩,
  ⟨0x80013B, 2, 1, .ro, 0⟩,
  ⟨0x80013C, 2, 1, .ro, 0⟩,
  ⟨0x80013D, 2, 1, .ro, 0⟩,
  ⟨0x80013E, 2, 1, .ro, 0⟩,
  ⟨0x80013F, 2, 1, .ro, 0⟩,
  ⟨0x800140, 2, 1, .ro, 0⟩,
  ⟨0x801001, 11, 33554432, .wo, 0⟩,
  ⟨0x801002, 1, 1, .wo, 0⟩,
  ⟨0x801003, 1, 1, .wo, 0⟩,
  ⟨0x801004, 2, 1, .ro, 0⟩,
  ⟨0x802001, 3, 2, .ro, 0⟩,
  ⟨0x802002, 3, 2, .ro, 0⟩]

def objects7 : List Obj := [
  ⟨0x803001, 11, 48, .ro, 0⟩,
  ⟨0x803002, 11, 3072, .wo, 0⟩,
  ⟨0x803003, 1, 1, .wo, 0⟩,
  ⟨0x803004, 2, 1, .ro, 0⟩,
  ⟨0x900001, 2, 1, .rws, 1⟩,
  ⟨0x900101, 2, 1, .rws, 90⟩,
  ⟨0x900102, 2, 1, .rws, 90⟩,
  ⟨0x900103, 2, 1, .rws, 100⟩,
  ⟨0x900104, 2, 1, .rws, 1⟩,
  ⟨0x900105, 2, 1, .rws, 90⟩,
  ⟨0x900106, 2, 1, .rws, 90⟩,
  ⟨0x900107, 2, 1, .rws, 50⟩,
  ⟨0x900108, 2, 1, .rws, 90⟩,
  ⟨0x900109, 2, 1, .rws, 25⟩,
  ⟨0x90010A, 2, 1, .rws, 1⟩,
  ⟨0x90010B, 2, 1, .ro, 1⟩,
  ⟨0x901001, 5, 8, .ro, 0⟩,
  ⟨0x901002, 5, 8, .ro, 0⟩,
  ⟨0x901003, 5, 8, .ro, 0⟩,
  ⟨0x901101, 5, 8, .ro, 0⟩,
  ⟨0x901102, 5, 8, .ro, 0⟩,
  ⟨0x901103, 5, 8, .ro, 0⟩,
  ⟨0x901104, 5, 8, .ro, 0⟩,
  ⟨0x901201, 5, 8, .ro, 0⟩,
  ⟨0x901202, 5, 8, .ro, 0⟩,
  ⟨0x901203, 5, 8, .ro, 0⟩,
  ⟨0x901301, 5, 8, .ro, 0⟩,
  ⟨0x901302, 5, 8, .ro, 0⟩,
  ⟨0x901303, 5, 8, .ro, 0⟩,
  ⟨0x901304, 5, 8, .ro, 0⟩,
  ⟨0x901305, 5, 8, .ro, 0⟩,
  ⟨0x901306, 5, 8, .ro, 0⟩,
  ⟨0x901307, 5, 8, .ro, 0⟩,
  ⟨0x901308, 5, 8, .ro, 0⟩,
  ⟨0x901309, 5, 8, .ro, 0⟩,
  ⟨0x90130A, 5, 8, .ro, 0⟩,
  ⟨0x90130B, 5, 8, .ro, 0⟩,
  ⟨0x90130C, 5, 8, .ro, 0⟩,
  ⟨0x901401, 5, 8, .ro, 0⟩,
  ⟨0x901402, 5, 8, .ro, 0⟩]

def objects8 : List Obj := [
  ⟨0x901403, 5, 8, .ro, 0⟩,
  ⟨0x901404, 5, 8, .ro, 0⟩,
  ⟨0x901405, 5, 8, .ro, 0⟩,
  ⟨0x901406, 5, 8, .ro, 0⟩,
  ⟨0x901407, 5, 8, .ro, 0⟩,
  ⟨0x901408, 5, 8, .ro, 0⟩,
  ⟨0x901409, 5, 8, .ro, 0⟩,
  ⟨0x90140A, 5, 8, .ro, 0⟩,
  ⟨0x901501, 5, 8, .ro, 0⟩,
  ⟨0x901502, 5, 8, .ro, 0⟩,
  ⟨0x901503, 5, 8, .ro, 0⟩,
  ⟨0x901504, 5, 8, .ro, 0⟩,
  ⟨0x901505, 5, 8, .ro, 0⟩,
  ⟨0x901506, 5, 8, .ro, 0⟩,
  ⟨0x901507, 5, 8, .ro, 0⟩,
  ⟨0x901508, 5, 8, .ro, 0⟩,
  ⟨0x901509, 5, 8, .ro, 0⟩,
  ⟨0x90150A, 5, 8, .ro, 0⟩,
  ⟨0x90150B, 5, 8, .ro, 0⟩,
  ⟨0x90150C, 5, 8, .ro, 0⟩,
  ⟨0x90150D, 5, 8, .ro, 0⟩,
  ⟨0x901601, 5, 8, .ro, 0⟩,
  ⟨0x901602, 5, 8, .ro, 0⟩,
  ⟨0x901603, 5, 8, .ro, 0⟩,
  ⟨0x901604, 5, 8, .ro, 0⟩,
  ⟨0x901605, 5, 8, .ro, 0⟩,
  ⟨0x901606, 5, 8, .ro, 0⟩,
  ⟨0x901607, 5, 8, .ro, 0⟩,
  ⟨0x901608, 5, 8, .ro, 0⟩,
  ⟨0x901609, 5, 8, .ro, 0⟩,
  ⟨0x90160A, 5, 8, .ro, 0⟩,
  ⟨0x901701, 5, 8, .ro, 0⟩,
  ⟨0x901702, 5, 8, .ro, 0⟩,
  ⟨0x901703, 5, 8, .ro, 0⟩,
  ⟨0x901704, 5, 8, .ro, 0⟩,
  ⟨0x901705, 5, 8, .ro, 0⟩,
  ⟨0x901706, 5, 8, .ro, 0⟩,
  ⟨0x901707, 5, 8, .ro, 0⟩,
  ⟨0x901708, 5, 8, .ro, 0⟩,
  ⟨0x901801, 5, 8, .ro, 0⟩]

def objects9 : List Obj := [
  ⟨0x901802, 5, 8, .ro, 0⟩,
  ⟨0x901803, 5, 8, .ro, 0⟩,
  ⟨0x901804, 5, 8, .ro, 0⟩,
  ⟨0x901805, 5, 8, .ro, 0⟩,
  ⟨0x901806, 5, 8, .ro, 0⟩,
  ⟨0x901807, 5, 8, .ro, 0⟩,
  ⟨0x901808, 5, 8, .ro, 0⟩,
  ⟨0x901809, 5, 8, .ro, 0⟩,
  ⟨0x90180A, 5, 8, .ro, 0⟩,
  ⟨0x901901, 5, 8, .ro, 0⟩,
  ⟨0x901902, 5, 8, .ro, 0⟩,
  ⟨0x901903, 5, 8, .ro, 0⟩,
  ⟨0x901904, 5, 8, .ro, 0⟩,
  ⟨0x901905, 5, 8, .ro, 0⟩,
  ⟨0x901A01, 5, 8, .ro, 0⟩,
  ⟨0x901A02, 5, 8, .ro, 0⟩,
  ⟨0x901A03, 5, 8, .ro, 0⟩,
  ⟨0x901A04, 5, 8, .ro, 0⟩,
  ⟨0x901A05, 5, 8, .ro, 0⟩,
  ⟨0x901A06, 5, 8, .ro, 0⟩,
  ⟨0x901A07, 5, 8, .ro, 0⟩,
  ⟨0x901A08, 5, 8, .ro, 0⟩,
  ⟨0x901B01, 5, 8, .ro, 0⟩,
  ⟨0x901B02, 5, 8, .ro, 0⟩,
  ⟨0x901B03, 5, 8, .ro, 0⟩,
  ⟨0x901B04, 5, 8, .ro, 0⟩,
  ⟨0x901B05, 5, 8, .ro, 0⟩,
  ⟨0x901B06, 5, 8, .ro, 0⟩,
  ⟨0x901B07, 5, 8, .ro, 0⟩,
  ⟨0x901B08, 5, 8, .ro, 0⟩,
  ⟨0x901B09, 5, 8, .ro, 0⟩,
  ⟨0x901C01, 5, 8, .ro, 0⟩,
  ⟨0x901C02, 5, 8, .ro, 0⟩,
  ⟨0x901C03, 5, 8, .ro, 0⟩,
  ⟨0x901C04, 5, 8, .ro, 0⟩,
  ⟨0x901C05, 5, 8, .ro, 0⟩,
  ⟨0x901D01, 5, 8, .ro, 0⟩,
  ⟨0x901D02, 5, 8, .ro, 0⟩,
  ⟨0x901D03, 5, 8, .ro, 0⟩,
  ⟨0x901D04, 5, 8, .ro, 0⟩]

def objects10 : List Obj := [
  ⟨0x901D05, 5, 8, .ro, 0⟩,
  ⟨0x901D06, 5, 8, .ro, 0⟩,
  ⟨0x901D07, 5, 8, .ro, 0⟩,
  ⟨0x901D08, 5, 8, .ro, 0⟩,
  ⟨0x901E01, 5, 8, .ro, 0⟩,
  ⟨0x901E02, 5, 8, .ro, 0⟩,
  ⟨0x901E03, 5, 8, .ro, 0⟩,
  ⟨0x901E04, 5, 8, .ro, 0⟩,
  ⟨0x901E05, 5, 8, .ro, 0⟩,
  ⟨0x902001, 5, 8, .ro, 0⟩,
  ⟨0x902002, 5, 8, .ro, 0⟩,
  ⟨0x902003, 5, 8, .ro, 0⟩,
  ⟨0x902004, 5, 8, .ro, 0⟩,
  ⟨0x902005, 5, 8, .ro, 0⟩,
  ⟨0x902006, 5, 8, .ro, 0⟩,
  ⟨0x902101, 5, 8, .ro, 0⟩,
  ⟨0x902102, 5, 8, .ro, 0⟩,
  ⟨0x902103, 5, 8, .ro, 0⟩,
  ⟨0x902104, 5, 8, .ro, 0⟩,
  ⟨0x902105, 5, 8, .ro, 0⟩,
  ⟨0x902106, 5, 8, .ro, 0⟩,
  ⟨0x902107, 5, 8, .ro, 0⟩,
  ⟨0x903001, 2, 1, .ro, 0⟩,
  ⟨0x903002, 11, 32, .ro, 0⟩,
  ⟨0x903003, 5, 8, .ro, 0⟩,
  ⟨0x903201, 5, 8, .ro, 0⟩,
  ⟨0x903202, 5, 8, .ro, 0⟩,
  ⟨0x904001, 4, 4, .ro, 0⟩,
  ⟨0x904002, 3, 2, .rw, 0⟩,
  ⟨0x904003, 11, 4096, .ro, 0⟩,
  ⟨0x904004, 5, 8, .ro, 0⟩,
  ⟨0xA00101, 11, 8, .rw, 0⟩,
  ⟨0xA00102, 5, 8, .ro, 0⟩]

/-- Every object but the subindices 0, in ascending order. -/
def objects : List Obj := objects0 ++ objects1 ++ objects2 ++ objects3 ++ objects4 ++ objects5 ++ objects6 ++ objects7 ++ objects8 ++ objects9 ++ objects10

/-- The object with a key, none where it does not exist. -/
def findObj (key : Nat) : Option Obj := objects.find? (fun o => o.key == key)

/-- The octets of a number, low octet first. -/
def leBytes : Nat → Nat → List Byte
  | 0, _ => []
  | n + 1, v => BitVec.ofNat 8 v :: leBytes n (v / 256)

/-- Zero octets. -/
def zeros (n : Nat) : List Byte := List.replicate n 0#8

/-- The number that octets spell, low octet first. -/
def leNat : List Byte → Nat
  | [] => 0
  | b :: bs => b.toNat + 256 * leNat bs

/-- The default octets of an object: the route table holds 31 in each octet (15 R376). -/
def Obj.defaultBytes (o : Obj) : List Byte :=
  if o.key = 0x502001 then List.replicate 4096 31#8 else if o.type = 12 then [] else leBytes o.size o.default_

end Sys2Proof.Machine
end

