-- ==== Sys2Proof/Machine/Regs.lean ====
section
/-! DEFINITION. Register offsets within their blocks, as the manual's register tables give them, and the blocks' places in BAR0. -/

namespace Sys2Proof.Machine

/- Per-core pace registers (02) -/
abbrev CORE_PACE_STATUS : Nat := 0x0100
abbrev CORE_VCORE : Nat := 0x0108
abbrev CORE_STITCH_COUNT : Nat := 0x0110
abbrev CORE_STALL_SCHED_NS : Nat := 0x0118
abbrev CORE_STALL_UNSCHED_NS : Nat := 0x0120
abbrev CORE_PACER_HELD_NS : Nat := 0x0128
abbrev CORE_OVR_COUNT : Nat := 0x0130
abbrev CORE_OVR_NS : Nat := 0x0138
abbrev CORE_PACE_CLEAR : Nat := 0x0140
/- Reference-time registers at BAR0 0x3C0_0000 (02) -/
abbrev MGT_REFTIME : Nat := 0x0000
abbrev MGT_REFTIME_LOAD : Nat := 0x0008
abbrev MGT_REFTIME_SLEW : Nat := 0x0010
abbrev MGT_REFTIME_STATUS : Nat := 0x0018
/- Per-core numeric registers (03) -/
abbrev CORE_NUM_SAT_COUNT : Nat := 0x0180
abbrev CORE_NUM_NAN_COUNT : Nat := 0x0188
abbrev CORE_NUM_INF_COUNT : Nat := 0x0190
abbrev CORE_NUM_SR_COUNT : Nat := 0x0198
abbrev CORE_NUM_CLEAR : Nat := 0x01A0
/- Per-core format registers (04) -/
abbrev CORE_FMT_FAULT_COUNT : Nat := 0x01C0
abbrev CORE_FMT_LAST_FAULT : Nat := 0x01C8
abbrev CORE_FMT_CLEAR : Nat := 0x01D0
/- Per-core lane and match registers (05) -/
abbrev CORE_LANE_STATUS : Nat := 0x0200
abbrev CORE_LANE_SEG_COUNT : Nat := 0x0208
abbrev CORE_LANE_STEAL_COUNT : Nat := 0x0210
abbrev CORE_LANE_SPLIT_COUNT : Nat := 0x0218
abbrev CORE_LANE_STARVE_NS : Nat := 0x0220
abbrev CORE_MATCH_PROBE_COUNT : Nat := 0x0228
abbrev CORE_MATCH_SLOT_COUNT : Nat := 0x0230
abbrev CORE_MATCH_PAIR_COUNT : Nat := 0x0238
abbrev CORE_MATCH_LOAD_COUNT : Nat := 0x0240
abbrev CORE_PACK_SLOT_COUNT : Nat := 0x0248
abbrev CORE_PACK_FILL_COUNT : Nat := 0x0250
abbrev CORE_CLAIM_COUNT : Nat := 0x0258
abbrev CORE_CLAIM_POS_COUNT : Nat := 0x0260
abbrev CORE_CLAIM_WAIT_NS : Nat := 0x0268
abbrev CORE_LANE_LAST_FAULT : Nat := 0x0270
abbrev CORE_LANE_CLEAR : Nat := 0x0278
/- Per-core accumulation registers (06) -/
abbrev CORE_ACC_STATUS : Nat := 0x0300
abbrev CORE_ACC_UPDATE_COUNT : Nat := 0x0308
abbrev CORE_ACC_HIT_COUNT : Nat := 0x0310
abbrev CORE_ACC_SPILL_COUNT : Nat := 0x0318
abbrev CORE_ACC_OVF_ROWS : Nat := 0x0320
abbrev CORE_ACC_BANK_WAIT_COUNT : Nat := 0x0328
abbrev CORE_ACC_PEAK_OCC : Nat := 0x0330
abbrev CORE_ACC_FOREIGN_SENT : Nat := 0x0338
abbrev CORE_ACC_FOREIGN_RECV : Nat := 0x0340
abbrev CORE_ACC_FOREIGN_WAIT_NS : Nat := 0x0348
abbrev CORE_ACC_MERGE_NS : Nat := 0x0350
abbrev CORE_ACC_BASE_WAIT_NS : Nat := 0x0358
abbrev CORE_ACC_GROUP_COUNT : Nat := 0x0360
abbrev CORE_ACC_REPLAY_COUNT : Nat := 0x0368
abbrev CORE_ACC_LAST_GROUP : Nat := 0x0370
abbrev CORE_ACC_CLEAR : Nat := 0x0378
/- Per-core row-function and predictor registers (07) -/
abbrev CORE_RFU_ELEM_COUNT : Nat := 0x0400
abbrev CORE_CMP_IN_COUNT : Nat := 0x0408
abbrev CORE_CMP_NZ_COUNT : Nat := 0x0410
abbrev CORE_DROP_COUNT : Nat := 0x0418
abbrev CORE_PRED_TOKEN_COUNT : Nat := 0x0420
abbrev CORE_PRED_BLOCK_COUNT : Nat := 0x0428
abbrev CORE_PRED_SKIP_COUNT : Nat := 0x0430
abbrev CORE_PRED_BAND_COUNT : Nat := 0x0438
abbrev CORE_AUDIT_TOKEN_COUNT : Nat := 0x0440
abbrev CORE_AUDIT_INACTIVE_COUNT : Nat := 0x0448
abbrev CORE_AUDIT_MISS_COUNT : Nat := 0x0450
abbrev CORE_PRED_WIDEN_COUNT : Nat := 0x0458
abbrev CORE_RFU_CLEAR : Nat := 0x0460
/- Per-core scratchpad registers (08) -/
abbrev SPM_STATUS : Nat := 0x0800
abbrev SPM_DET_WMEM_COUNT : Nat := 0x0808
abbrev SPM_DET_AMEM_COUNT : Nat := 0x0810
abbrev SPM_DET_PMEM_COUNT : Nat := 0x0818
abbrev SPM_RELOAD_COUNT : Nat := 0x0820
abbrev SPM_STEP_REPLAY_COUNT : Nat := 0x0828
abbrev SPM_LAST_DETECT : Nat := 0x0830
abbrev SPM_GB_ROW_COUNT : Nat := 0x0838
abbrev SPM_GB_RMW_COUNT : Nat := 0x0840
abbrev SPM_BANK_WAIT_COUNT : Nat := 0x0848
abbrev SPM_SB_WAIT_NS : Nat := 0x0850
abbrev SPM_NACK_COUNT : Nat := 0x0858
abbrev SPM_LAST_NACK : Nat := 0x0860
abbrev SPM_SCRUB_COUNT : Nat := 0x0868
abbrev SPM_PWR_ABANDON_COUNT : Nat := 0x0870
abbrev SPM_CLEAR : Nat := 0x0878
abbrev SPM_PWR_CTL : Nat := 0x0880
abbrev SPM_PWR_MAP_W : Nat := 0x0888
abbrev SPM_PWR_MAP_AP : Nat := 0x0890
abbrev SPM_WIN_CTL : Nat := 0x0898
abbrev SPM_GB_FLUSH : Nat := 0x08A0
abbrev SPM_OP0 : Nat := 0x08A8
abbrev SPM_OP1 : Nat := 0x08B0
abbrev SPM_OP2 : Nat := 0x08B8
abbrev SPM_OP_STATUS : Nat := 0x08C0
/- Per-core loop registers (09) -/
abbrev LOOP_STATUS : Nat := 0x0500
abbrev LOOP_REFUSE_COUNT : Nat := 0x0508
abbrev LOOP_LAST_REFUSE : Nat := 0x0510
abbrev LOOP_SKIP_TILE_COUNT : Nat := 0x0518
abbrev LOOP_SELVEDGE_COUNT : Nat := 0x0520
abbrev LOOP_ZERO_BOUND_COUNT : Nat := 0x0528
abbrev LOOP_ZERO_FILL_ROWS : Nat := 0x0530
abbrev LOOP_SPAN_COUNT : Nat := 0x0538
abbrev LOOP_ISSUE_WAIT_NS : Nat := 0x0540
abbrev LOOP_CLEAR : Nat := 0x0548
/- Per-core fetch registers (10) -/
abbrev FET_STATUS : Nat := 0x0600
abbrev FET_TAG_ISSUE_COUNT : Nat := 0x0608
abbrev FET_BYTES_READ : Nat := 0x0610
abbrev FET_BYTES_WRITTEN : Nat := 0x0618
abbrev FET_SMALL_XFER_COUNT : Nat := 0x0620
abbrev FET_CORR_EVENT_COUNT : Nat := 0x0628
abbrev FET_OVER_ALLOW_COUNT : Nat := 0x0630
abbrev FET_LATE_ISSUE_COUNT : Nat := 0x0638
abbrev FET_TAG_FULL_NS : Nat := 0x0640
abbrev FET_WASTE_BYTES : Nat := 0x0648
abbrev FET_ABORT_COUNT : Nat := 0x0650
abbrev FET_LAST_FAULT : Nat := 0x0658
abbrev FET_CANCEL_COUNT : Nat := 0x0660
abbrev FET_CLEAR : Nat := 0x0668
/- Per-core queue registers (11) -/
abbrev QUE_STATUS : Nat := 0x0700
abbrev QUE_PKT_IN_COUNT : Nat := 0x0708
abbrev QUE_DROP_PKT_COUNT : Nat := 0x0710
abbrev QUE_DROP_BYTES : Nat := 0x0718
abbrev QUE_MARK_COUNT : Nat := 0x0720
abbrev QUE_WITHDRAW_COUNT : Nat := 0x0728
abbrev QUE_DISCARD_ROWS : Nat := 0x0730
abbrev QUE_FLUSH_COUNT : Nat := 0x0738
abbrev QUE_EMPTY_WAIT_NS : Nat := 0x0740
abbrev QUE_FULL_WAIT_NS : Nat := 0x0748
abbrev QUE_CLEAR : Nat := 0x0750
abbrev QUE_TAG_PAGE : Nat := 0x0758
/- Per-core layout-copy registers (12) -/
abbrev LCE_STATUS : Nat := 0x0900
abbrev LCE_ELEM_COUNT : Nat := 0x0908
abbrev LCE_XPOSE_ROWS : Nat := 0x0910
abbrev LCE_RESCALE_BLOCKS : Nat := 0x0918
abbrev LCE_IDX_COUNT : Nat := 0x0920
abbrev LCE_IDX_REPEAT_COUNT : Nat := 0x0928
abbrev LCE_IDX_COMBINE_COUNT : Nat := 0x0930
abbrev LCE_IDX_CLAMP_COUNT : Nat := 0x0938
abbrev LCE_IDX_WRAP_COUNT : Nat := 0x0940
abbrev LCE_IDX_SKIP_COUNT : Nat := 0x0948
abbrev LCE_ACC_WRITE_COUNT : Nat := 0x0950
abbrev LCE_LAST_FAULT : Nat := 0x0958
abbrev LCE_CLEAR : Nat := 0x0960
/- MIF registers (13) -/
abbrev MIF_STATUS : Nat := 0x0000
abbrev MIF_CRC_RETRY_COUNT : Nat := 0x0008
abbrev MIF_WRITE_CRC_COUNT : Nat := 0x0010
abbrev MIF_ODECC_CORR_COUNT : Nat := 0x0018
abbrev MIF_UNCORR_COUNT : Nat := 0x0020
abbrev MIF_RETRAIN_COUNT : Nat := 0x0028
abbrev MIF_RETRAIN_NS : Nat := 0x0030
abbrev MIF_POISON_COUNT : Nat := 0x0038
abbrev MIF_BYTES_READ : Nat := 0x0040
abbrev MIF_BYTES_WRITTEN : Nat := 0x0048
abbrev MIF_LAST_ERROR : Nat := 0x0050
abbrev MIF_CLEAR : Nat := 0x0058
/- FAR registers (13) -/
abbrev FAR_STATUS : Nat := 0x0000
abbrev FAR_LINK_RETRY_COUNT : Nat := 0x0008
abbrev FAR_POISON_COUNT : Nat := 0x0010
abbrev FAR_TIMEOUT_COUNT : Nat := 0x0018
abbrev FAR_OOR_COUNT : Nat := 0x0020
abbrev FAR_EVENT_COUNT : Nat := 0x0028
abbrev FAR_BYTES_READ : Nat := 0x0030
abbrev FAR_BYTES_WRITTEN : Nat := 0x0038
abbrev FAR_CLEAR : Nat := 0x0040
/- Per-core translation registers (13) -/
abbrev CORE_XLT_MISS_COUNT : Nat := 0x0A00
abbrev CORE_XLT_WALK_NS : Nat := 0x0A08
abbrev CORE_XLT_FAULT_COUNT : Nat := 0x0A10
abbrev CORE_XLT_CLEAR : Nat := 0x0A18
/- Network registers at BAR0 0x3C0_0100 (14) -/
abbrev MGT_NET_STATUS : Nat := 0x0000
abbrev MGT_NET_FENCE_CORE : Nat := 0x0008
abbrev MGT_NET_FENCE_RTR0 : Nat := 0x0010
abbrev MGT_NET_FENCE_RTR1 : Nat := 0x0018
/- Router registers at BAR0 0x3C0_1000 + die * 0x100 (14) -/
abbrev MGT_RTR_STATUS : Nat := 0x0000
abbrev MGT_RTR_FWD_BYTES : Nat := 0x0008
abbrev MGT_RTR_DETOUR_COUNT : Nat := 0x0010
abbrev MGT_RTR_HOP_RETRY_COUNT : Nat := 0x0018
abbrev MGT_RTR_RESEND_COUNT : Nat := 0x0020
abbrev MGT_RTR_DUP_COUNT : Nat := 0x0028
abbrev MGT_RTR_NACK_COUNT : Nat := 0x0030
abbrev MGT_RTR_CLEAR : Nat := 0x0038
/- Per-port Limund registers (15) -/
abbrev LNK_PORT_STATUS : Nat := 0x0000
abbrev LNK_FEC_CORR_COUNT : Nat := 0x0008
abbrev LNK_FEC_UNCORR_COUNT : Nat := 0x0010
abbrev LNK_REPLAY_COUNT : Nat := 0x0018
abbrev LNK_RETRAIN_COUNT : Nat := 0x0020
abbrev LNK_TRAIN_FAIL_COUNT : Nat := 0x0028
abbrev LNK_TX_BYTES : Nat := 0x0030
abbrev LNK_RX_BYTES : Nat := 0x0038
abbrev LNK_CTRL_FLIT_COUNT : Nat := 0x0040
abbrev LNK_CTRL_FULL_NS : Nat := 0x0048
abbrev LNK_NACK_TX_COUNT : Nat := 0x0050
abbrev LNK_NACK_RX_COUNT : Nat := 0x0058
abbrev LNK_CTRL_BAD_COUNT : Nat := 0x0060
abbrev LNK_DELAY_NS : Nat := 0x0068
abbrev LNK_TIME_OFFSET : Nat := 0x0070
abbrev LNK_PEER_DIGEST : Nat := 0x0078
abbrev LNK_EYE_MARGIN : Nat := 0x0080
abbrev LNK_PORT_CLEAR : Nat := 0x0088
/- Per-die Limund registers (15) -/
abbrev LNK_STRAND_MISS_COUNT : Nat := 0x2000
abbrev LNK_TRANSIT_BYTES : Nat := 0x2008
abbrev LNK_GAP_COUNT : Nat := 0x2010
abbrev LNK_MERGE_IN_ENTRIES : Nat := 0x2018
abbrev LNK_MERGE_OUT_ENTRIES : Nat := 0x2020
abbrev LNK_MCAST_DETACH_COUNT : Nat := 0x2028
abbrev LNK_RECOVER_BYTES : Nat := 0x2030
abbrev LNK_LOST_BYTES : Nat := 0x2038
abbrev LNK_DIE_CLEAR : Nat := 0x2040
/- HST registers at BAR0 0x00A_0000 (16) -/
abbrev HST_LINK_STATUS : Nat := 0x0000
abbrev HST_CANCEL : Nat := 0x0008
abbrev HST_CANCEL_STATUS : Nat := 0x0010
abbrev HST_SLOTS_BUSY : Nat := 0x0018
abbrev HST_TASK_COUNT : Nat := 0x0020
abbrev HST_CPL_COUNT : Nat := 0x0028
abbrev HST_REFUSE_COUNT : Nat := 0x0030
abbrev HST_CQ_FULL_NS : Nat := 0x0038
abbrev HST_POSTED_DROP_COUNT : Nat := 0x0040
abbrev HST_LAST_DROP : Nat := 0x0048
abbrev HST_STRAND_MISS_COUNT : Nat := 0x0050
abbrev HST_BAR_STALE_COUNT : Nat := 0x0058
abbrev HST_CFG_REJECT_COUNT : Nat := 0x0060
abbrev HST_CLEAR : Nat := 0x0068
/- Strand control registers at BAR0 0x020_0000 (16) -/
abbrev HST_STRAND_BASE : Nat := 0x0000
abbrev HST_STRAND_CTL : Nat := 0x0008
abbrev HST_STRAND_STATUS : Nat := 0x0010
abbrev HST_STRAND_LIVE : Nat := 0x0018
/- Lifeline registers at BAR0 0x3C0_8000 (17) -/
abbrev MGT_LL_CTL : Nat := 0x0000
abbrev MGT_LL_ARG : Nat := 0x0008
abbrev MGT_LL_STATUS : Nat := 0x0010
abbrev MGT_LL_NEXT_STEP : Nat := 0x0018
abbrev MGT_LL_SKEW : Nat := 0x0020
abbrev MGT_LL_COMMIT_COUNT : Nat := 0x0028
abbrev MGT_LL_SKIP_COUNT : Nat := 0x0030
abbrev MGT_LL_HOLD_NS : Nat := 0x0038
abbrev MGT_LL_BYTES : Nat := 0x0040
abbrev MGT_LL_UNPROT_STEPS : Nat := 0x0048
abbrev MGT_LL_CLEAR : Nat := 0x0050
/- Power registers at BAR0 0x3C0_9000 (18) -/
abbrev MGT_PWR_STATUS : Nat := 0x0000
abbrev MGT_PWR_BUS : Nat := 0x0008
abbrev MGT_INPUT_STATUS : Nat := 0x0010
abbrev MGT_INPUT_CLEAR : Nat := 0x0018
abbrev MGT_THROTTLE_NS : Nat := 0x0020
abbrev MGT_PWR_LIMIT_NS : Nat := 0x0028
abbrev MGT_SAG_WARN_COUNT : Nat := 0x0030
abbrev MGT_BINDOFF_COUNT : Nat := 0x0038
abbrev MGT_SAVE_LAST : Nat := 0x0040
abbrev MGT_PWR_CLEAR : Nat := 0x0048
/- Dictionary window registers at BAR0 0x010_0000 (19) -/
abbrev MGT_DICT_HDR0 : Nat := 0x0000
abbrev MGT_DICT_HDR1 : Nat := 0x0008
abbrev MGT_DICT_GO : Nat := 0x0010
abbrev MGT_DICT_STATUS : Nat := 0x0018
abbrev MGT_DICT_DATA : Nat := 0x1000
/- Security registers at BAR0 0x3C0_A000 (20) -/
abbrev SEC_STATUS : Nat := 0x0000
abbrev SEC_CTL : Nat := 0x0008
abbrev SEC_TMUX_SEL : Nat := 0x0010
abbrev SEC_TMUX_ARG : Nat := 0x0018
abbrev SEC_CLEAR : Nat := 0x0020
/- Module registers at BAR0 0x3C0_B000 (21) -/
abbrev MGT_MOD_STATUS : Nat := 0x0000
abbrev MGT_COOLANT : Nat := 0x0008

/-- Offset o of the register block of core c (02). -/
def coreOff (c o : Nat) : Nat := 0x1000000 + c * 0x10000 + o
/-- Offset o of the block of MIF die k (13). -/
def mifOff (k o : Nat) : Nat := 0x2800000 + k * 0x10000 + o
/-- Offset o of the block of far-tier port p (13). -/
def farOff (p o : Nat) : Nat := 0x3800000 + p * 0x10000 + o
/-- Offset o of the registers of Limund port p (15). -/
def portOff (p o : Nat) : Nat := 0x2000000 + (p / 2) * 0x100000 + (p % 2) * 0x1000 + o
/-- Offset o of the registers of link die d (15). -/
def lnkOff (d o : Nat) : Nat := 0x2000000 + d * 0x100000 + o
/-- Offset o of the HST registers (16). -/
def hstOff (o : Nat) : Nat := 0xA0000 + o
/-- Offset o of the strand control registers (16). -/
def strandOff (o : Nat) : Nat := 0x200000 + o
/-- Offset o of the router block of die d (14). -/
def rtrOff (d o : Nat) : Nat := 0x3C01000 + d * 0x100 + o
/-- Offset o of the lifeline registers (17). -/
def llOff (o : Nat) : Nat := 0x3C08000 + o
/-- Offset o of the power registers (18). -/
def pwrOff (o : Nat) : Nat := 0x3C09000 + o
/-- Offset o of the network registers (14). -/
def netOff (o : Nat) : Nat := 0x3C00100 + o
/-- Offset o of the security registers (20). -/
def secOff (o : Nat) : Nat := 0x3C0A000 + o
/-- Word w of submission queue entry q (16 R407). -/
def sqOff (q w : Nat) : Nat := 0x40000 + q * 0x40 + w * 8
/-- Word w of completion queue entry c (16 R407). -/
def cqOff (c w : Nat) : Nat := 0x80000 + c * 0x20 + w * 8
/-- Word w of hardware queue entry q (11). -/
def queOff (q w : Nat) : Nat := 0x10000 + q * 0x40 + w * 8
/-- Word w of region r of memory m of core c (08). -/
def regionOff (c m r w : Nat) : Nat := coreOff c (0x2000 + m * 0x1000 + r * 0x40 + w * 8)
/-- Word w of landing window n of core c (08). -/
def windowOff (c n w : Nat) : Nat := coreOff c (0x5000 + n * 0x20 + w * 8)
/-- Stitch marker k of core c (08). -/
def markerOff (c k : Nat) : Nat := coreOff c (0x5800 + k * 8)
/-- HST_AP_TARGET of host write aperture a (16 R419). -/
def apOff (a : Nat) : Nat := 0xB0000 + a * 0x1000
/-- Word w of MSI-X table entry v: two 64-bit words of its 16 bytes (16 R397). -/
def msixOff (v w : Nat) : Nat := 0xE0000 + v * 16 + w * 8
/-- Word of the pending-bit array that holds vector v. -/
def pbaOff (v : Nat) : Nat := 0xE8000 + (v / 64) * 8
/-- Word w of merge context x of link die d (15). -/
def mergeOff (d x w : Nat) : Nat := lnkOff d (0x3000 + x * 0x20 + w * 8)
/-- Word w of gap record k of link die d (15). -/
def gapOff (d k w : Nat) : Nat := lnkOff d (0x3400 + k * 0x20 + w * 8)

/-- The reset value of a register of a core block, by its offset in the block. -/
def coreRegReset (o : Nat) : Nat :=
  if o = LOOP_LAST_REFUSE then 0x700
  else if o = SPM_PWR_MAP_W then 0xFFFFFFFFFFFFFFFF
  else if o = SPM_PWR_MAP_AP then 0xFFFFFFFFFFFF
  else 0

/-- The reset value of the register at a BAR0 offset, where it is not 0: the registers of Table captions above, PHASE of
completion queue entries (16), and the mask bit of MSI-X entries (log entry 9). -/
def regReset (off : Nat) : Nat :=
  if 0x1000000 ≤ off ∧ off < 0x1400000 then coreRegReset (off % 0x10000)
  else if 0x80000 ≤ off ∧ off < 0xA0000 ∧ off % 0x20 = 0x10 then 2 ^ 32
  else if 0xE0000 ≤ off ∧ off < 0xE8000 ∧ off % 16 = 8 then 2 ^ 32
  else 0

end Sys2Proof.Machine
end

