-- ==== Sys2Proof/Machine/Table.lean ====
section
/-! DEFINITION. Sparse data by key: a table is a list of key and value pairs, keys rising; a key that is not listed
has the default that its reader names. Memory is the same with bytes, in canonical form: no entry holds the value that
an unlisted address reads as. -/

namespace Sys2Proof.Machine

/-- A table: pairs of key and value, keys strictly rising. -/
abbrev Tab (α : Type) := List (Nat × α)

/-- The value at key k; `d` where the table does not list it. -/
def tget {α : Type} (d : α) : Tab α → Nat → α
  | [], _ => d
  | (a, v) :: t, k => if a = k then v else tget d t k

/-- The table with key k holding v. -/
def tset {α : Type} : Tab α → Nat → α → Tab α
  | [], k, v => [(k, v)]
  | (a, w) :: t, k, v =>
    if k < a then (k, v) :: (a, w) :: t
    else if k = a then (a, v) :: t
    else (a, w) :: tset t k v

/-- The table without key k. -/
def tdel {α : Type} (t : Tab α) (k : Nat) : Tab α := t.filter (fun p => p.1 != k)

/-- The table without the keys from lo to hi. -/
def tdelRange {α : Type} (t : Tab α) (lo hi : Nat) : Tab α := t.filter (fun p => p.1 < lo || hi < p.1)

/-- The table with key k holding f of what it held. -/
def tmod {α : Type} (d : α) (t : Tab α) (k : Nat) (f : α → α) : Tab α := tset t k (f (tget d t k))

/-- Whether key k is listed. -/
def thas {α : Type} (t : Tab α) (k : Nat) : Bool := t.any (fun p => p.1 == k)

/-- The value at key k, none where the table does not list it. -/
def tfind {α : Type} : Tab α → Nat → Option α
  | [], _ => none
  | (a, v) :: t, k => if a = k then some v else tfind t k

/-- Memory by device physical address, scratchpads included (13 R324, 08 R194). -/
abbrev Mem := List Host.Cell

/-- What an address reads as that memory does not list (log entry 7). -/
def memDefault : Byte := 0

/-- One byte. -/
def mread : Mem → Nat → Byte
  | [], _ => memDefault
  | (a, v) :: t, k => if a = k then v else mread t k

/-- Insert or replace one byte; writing the default removes the entry. -/
def mwrite : Mem → Nat → Byte → Mem
  | [], k, v => if v = memDefault then [] else [(k, v)]
  | (a, w) :: t, k, v =>
    if k < a then (if v = memDefault then (a, w) :: t else (k, v) :: (a, w) :: t)
    else if k = a then (if v = memDefault then t else (a, v) :: t)
    else (a, w) :: mwrite t k v

/-- Bytes from k up. -/
def mreadN (m : Mem) (k n : Nat) : List Byte := (List.range n).map (fun i => mread m (k + i))

/-- Write bytes from k up. -/
def mwriteN : Mem → Nat → List Byte → Mem
  | m, _, [] => m
  | m, k, b :: bs => mwriteN (mwrite m k b) (k + 1) bs

/-- The bytes from lo up to hi return to the default. -/
def mclear (m : Mem) (lo hi : Nat) : Mem := m.filter (fun c => c.1 < lo || hi ≤ c.1)

/-- Addresses strictly rising above `lo`, and no entry at the default. -/
def memWfFrom : Nat → Mem → Bool
  | _, [] => true
  | lo, (a, v) :: t => decide (lo ≤ a) && v != memDefault && memWfFrom (a + 1) t

/-- The canonical form of memory. -/
def memWf (m : Mem) : Bool := memWfFrom 0 m

end Sys2Proof.Machine
end

