-- ==== Sys2Proof/Machine/State.lean ====
section
/-! DEFINITION. Everything the manual gives the machine, as plain data. Registers and counters live in one table by
their BAR0 offset (`regs`), memory and scratchpads in one table by device physical address (`mem`); the records below
hold what no register or address holds. -/

namespace Sys2Proof.Machine

/-- Why the block would stop. Every command of this manual has an effect, so no meaning raises one; the constructor
stands for a fault whose effect the manual does not give. Safe: nothing answers with it. -/
inductive Fault where
  | undocumented
  deriving DecidableEq, Repr

/-- Why a command has no effect in this model. -/
inductive Refusal where
  /-- the command has no meaning yet; raised by its arm of `exec`. Safe: the run ends -/
  | notModelled (mnemonic : String)
  deriving DecidableEq, Repr

/-- An event before the management die numbers it (19 R475). -/
structure Event where
  code : Nat
  severity : Nat
  die : Nat
  time : Nat := 0
  strand : Nat := 0
  core : Nat := 0
  throttled : Bool := false
  args : List Nat := []
  deriving DecidableEq, Repr

/-- The payload of a chain message (14 R357, 16 R413, 09 R251, 11 R296, 06 R154, 19 R474). -/
inductive Msg where
  | barrier (barId gen srcDev : Nat)
  | doorbell (cqHead : Bool) (queue value : Nat)
  | dispatch (core slot rank cores : Nat)
  | go (core slot span : Nat)
  | abort (core slot : Nat)
  | replay (core slot span : Nat)
  | cancel (core slot : Nat)
  | wait (core slot marker target : Nat)
  | passed (slot : Nat)
  | refused (slot status check : Nat)
  | spanDone (slot span : Nat)
  | done (slot : Nat)
  | fault (slot status : Nat)
  | drained (slot : Nat)
  | detection (slot span : Nat)
  | markerReached (slot : Nat)
  | arm0 (counter chunkLog k : Nat)
  | arm1 (counter strand : Nat)
  | arm2 (counter base : Nat)
  | armed (counter : Nat)
  | claim (counter attempt : Nat)
  | answer (core counter attempt : Nat) (empty : Bool) (chunk i0 i1 : Nat)
  | owner (counter chunk : Nat)
  | ownerAns (core counter chunk home : Nat)
  | report (counter attempt chunk count : Nat) (final : Bool)
  | base (core counter value : Nat)
  | rearm (counter attempt : Nat)
  | disarm (counter : Nat)
  | announce (core chunk rows : Nat)
  | queueCredit (core queue rows : Nat)
  | fence (die action epoch : Nat)
  | routeWrite (die first : Nat) (chainNet : Bool) (entries : Nat)
  | config (op index sub part value : Nat)
  | reftime (value : Nat)
  | event (e : Event)
  deriving DecidableEq, Repr

/-- A chain message that its destination has not acknowledged (14 R356). -/
structure ChainSend where
  src : Nat
  dst : Nat
  seq : Nat
  msg : Msg
  /-- when it went out last -/
  sentAt : Nat := 0
  deriving DecidableEq, Repr

/-- A bulk packet that its destination has not acknowledged: an entry of its source's replay store (14 R353). -/
structure BulkSend where
  src : Nat
  dst : Nat
  seq : Nat
  type : BulkType
  tag : Nat := 0
  addr : Nat := 0
  due : Nat := 0
  data : List Byte := []
  resent : Bool := false
  /-- when it went out last -/
  sentAt : Nat := 0
  deriving DecidableEq, Repr

/-- What leaves the module edge, or is handed to a bus that this model does not hold. -/
inductive Out where
  /-- an MSI-X message (16 R417, 19 R476) -/
  | msix (vector : Nat)
  /-- a dictionary reply on its path (19 R466) -/
  | reply (path : DictPath) (hdr0 hdr1 : Nat) (data : List Byte)
  /-- a TDP 2 event frame (19 R476) -/
  | eventFrame (dest : List Byte) (record : List Nat)
  /-- a heartbeat: words 0 to 2 and the digest octets (19 R471) -/
  | heartbeat (words : List Nat) (digest : List Byte)
  /-- a mailbox answer: return code and payload (16 R398) -/
  | mailbox (unsupported : Bool) (payload : List Byte)
  /-- an SPDM response: its name, its connection, its octets (20 R507) -/
  | spdm (name : String) (requester : Nat) (data : List Byte)
  /-- the answer to a configuration request: none for no answer, some none for retry (18 R448) -/
  | config (answer : Option (Option (BitVec 32)))
  /-- a CXL.cache request to the host: RdCurr, ItoMWr, WOWrInv or RdOwnNoData (16 R395) -/
  | cxlCache (op : String) (addr : Nat) (data : List Byte)
  /-- the answer to a snoop (16 R395) -/
  | snoop (answer : String)
  /-- the answer to a CXL.mem request (13 R344) -/
  | cxlMem (status : Nat) (data : List Byte)
  /-- a Limund flit taken by the transmitter (15 R372) -/
  | flit (port : Nat) (f : Flit)
  /-- the header of a frame whose 25 flits have left (15 R368) -/
  | frame (port : Nat) (header : List Nat)
  /-- the TDP reply header version (19 R470) that precedes a reply -/
  | tdpReply (version seq : Nat)
  /-- register data that reached a die, for the reader behind it (14 R354) -/
  | regData (die value : Nat)
  /-- a write to host memory by the HST die (16 R415) -/
  | hostWrite (addr : Nat) (data : List Byte)
  /-- an audit report that a core sends to its record's home slice: audited tokens, predicted-inactive neurons, misses, and the
  task's MISS_LIMIT, WINDOW, BAND_STEP and BAND_MAX (07 R186) -/
  | auditReport (core strand stateBase : Nat) (counts limits : List Nat)
  deriving DecidableEq, Repr

/-- Reference time (02 R47 to R51). -/
structure Clock where
  reftime : Nat := 0
  locked : Bool := false
  refclkLost : Bool := false
  spread : Bool := false
  /-- offset not yet absorbed, thousandths of a ns -/
  slew : Int := 0
  /-- fraction of a ns carried, thousandths -/
  frac : Int := 0
  /-- REFTIME as each other die last took it from the chain (R48) -/
  dieTime : Tab Nat := []
  deriving DecidableEq, Repr

/-- The package: fences, failed dies, connections and route tables (01, 14). -/
structure Package where
  enabled : Nat := 0
  fenced : Nat := 0
  routersFenced : List Nat := []
  failedDies : List Nat := []
  /-- bulk modules failed, by connection (its lower endpoint key die * 8 + port) -/
  modulesFailed : Tab Nat := []
  connDown : List Nat := []
  deviceLost : Bool := false
  routeEpoch : Nat := 0
  rewriting : Bool := false
  /-- route entries rewritten, by (net * 128 + die) * 128 + destination; unlisted entries are the fault-free ones -/
  routes : Tab Nat := []
  deriving DecidableEq, Repr

/-- A run of non-zero positions that a lane works on (05 R124). `rows` are its rows as (row, first, end). -/
structure Segment where
  chunk : Nat
  lo : Nat
  hi : Nat
  rows : List (Nat × Nat × Nat)
  deriving DecidableEq, Repr

/-- A sparse issue lane (05 R115 to R126). -/
structure Lane where
  running : Option Segment := none
  /-- entries of the running segment loaded into the engine -/
  loaded : Nat := 0
  /-- probes answered, or column slices times quarters done in gather mode -/
  progress : Nat := 0
  /-- stitches that the quarter has waited on a bank (05 R121) -/
  bankWait : Nat := 0
  queue : List Segment := []
  /-- offset in the ring of the thief's next candidate; 32 when the search has ended -/
  search : Nat := 1
  deriving DecidableEq, Repr

/-- A claimed chunk (05 R130, R133). -/
structure Chunk where
  idx : Nat
  s : Nat
  e : Nat
  i0 : Nat
  i1 : Nat
  /-- boundary search done (R134) -/
  searched : Bool := false
  /-- next position to cut into a segment -/
  cut : Nat := 0
  /-- segments cut and not finished -/
  open_ : Nat := 0
  started : Bool := false
  answered : Nat := 0
  ahead : Nat := 0
  /-- boundary rows that have not landed (R134) -/
  rowsLeft : Nat := 0
  deriving DecidableEq, Repr

/-- An accumulation record (06 R150). -/
structure AccRec where
  row : Nat
  col : Nat
  value : F32
  deriving DecidableEq, Repr

/-- A tag held by the fetch engine (10 R259): what it moves, and what came of its row. -/
structure Tag where
  /-- the slot of the task that issued it -/
  task : Nat
  write : Bool := false
  acc : Bool := false
  /-- stream number, 31 none -/
  stream : Nat := 31
  slot : Nat := 0
  va : Nat := 0
  dpa : Nat := 0
  /-- 0 stream, 1 reload, 2 row pointers, 3 unscheduled -/
  kind : Nat := 0
  mem : Nat := 1
  region : Nat := 0
  row : Nat := 0
  due : Nat := 0
  /-- when it was issued -/
  since : Nat := 0
  abandoned : Bool := false
  deriving DecidableEq, Repr

/-- A request of the fetch engine that waits for a tag (10 R269). -/
structure Req where
  write : Bool := false
  /-- an accumulate write (12 R310) -/
  acc : Bool := false
  stream : Nat := 31
  slot : Nat := 0
  va : Nat := 0
  rows : Nat := 1
  kind : Nat := 0
  mem : Nat := 1
  region : Nat := 0
  row : Nat := 0
  /-- latest issue time and due time; the due time 0 none -/
  latest : Int := 0
  due : Nat := 0
  since : Nat := 0
  deriving DecidableEq, Repr

/-- A gathering-buffer row (08 R205). -/
structure GbRow where
  mem : Nat
  row : Nat
  win : Option Nat := none
  bytes : Tab Byte := []
  last : Nat := 0
  deriving DecidableEq, Repr

/-- An entry of the issue scoreboard (08 R208). -/
structure SbEntry where
  id : Nat
  write : Bool
  mem : Nat
  first : Nat
  rows : Nat
  deriving DecidableEq, Repr

/-- A bank power request in progress (08 R223, R225). -/
structure BankReq where
  up : Bool
  mem : Nat
  bank : Nat
  since : Nat
  wins : List Nat
  deriving DecidableEq, Repr

/-- A fill or copy in progress (08 R203). -/
structure SpmOp where
  copy : Bool
  mem : Nat
  dst : Nat
  src : Nat
  rows : Nat
  pattern : Nat
  /-- number of its entries in the issue scoreboard, once it has passed it (R208) -/
  held : Option Nat := none
  deriving DecidableEq, Repr

/-- A stall of a core (02 R32, R43). -/
structure Stall where
  /-- what the core awaits, by the codes of the model (log entry 15) -/
  resource : Nat
  stream : Option Nat
  since : Nat
  scheduled : Bool
  reported : Bool := false
  /-- the lowest cause met by a row that the stall awaited and that landed meanwhile; 0 none -/
  cause : Nat := 0
  deriving DecidableEq, Repr

/-- A token of the running span as the predictor scored it (07 R178, R184): its row, its band, and the neurons predicted inactive. -/
structure Token where
  row : Nat
  band : Nat := 0
  audited : Bool
  inactive : List Nat
  deriving DecidableEq, Repr

/-- A row of 32 records of a sorted block or run: in partial-sum memory, or at a virtual address in the overflow area (06 R158). -/
inductive SortRow
  | psum (row : Nat)
  | overflow (va : Nat)
  deriving DecidableEq, Repr

/-- The task that a core runs (09, 10, 12). Phase codes are those of LOOP_STATUS. -/
structure CoreTask where
  slot : Nat
  rank : Nat := 0
  cores : Nat := 1
  phase : Nat := 1
  copy : Bool := false
  strand : Nat := 0
  step : Nat := 0
  /-- the loop-descriptor table or copy descriptor, 64-bit words, and the status that its fetch met -/
  table : List Nat := []
  fetchStatus : Nat := 0
  shape : List Nat := []
  schedule : List Nat := []
  span : Nat := 0
  tDispatch : Nat := 0
  tGo : Nat := 0
  /-- panel steps taken since GO, and in the running span -/
  steps : Nat := 0
  spanSteps : Nat := 0
  counter : Option Nat := none
  localNext : Option Nat := none
  attempt : Nat := 0
  claimInFlight : Bool := false
  dry : Bool := false
  replays : Nat := 0
  tokenBase : Nat := 0
  band : F32 := 0
  ovrRaised : Bool := false
  /-- HEAD words of queue regions at the last commit, by region (11 R292) -/
  queueMarks : Tab Nat := []
  sent : Bool := false
  /-- the send pass under way (06 R154): rows that still wait for a tag, with their home cores, and the announcements that follow -/
  outbox : Option (List (Nat × List Byte)) := none
  announces : List (Nat × Nat × Nat) := []
  merged : Bool := false
  /-- writes issued and not yet acknowledged belong to the span; done reported -/
  spanReported : Bool := false
  doneReported : Bool := false
  /-- rows of fused bands ready and consumed (07 R172) -/
  bandsReady : Nat := 0
  bandsUsed : Nat := 0
  copyNext : Nat := 0
  /-- rows of a layout copy's source that its walk used last, one for each plane and one for the scales (12 R308) -/
  lastRows : List Nat := []
  /-- output tiles written in the running span, and zero tiles that it still owes (09 R236) -/
  outDone : Nat := 0
  zeroLeft : Nat := 0
  /-- fetch requests of the running span have been formed up to this panel step -/
  fetched : Nat := 0
  /-- token rows of the intermediate formed in the running span (07 R172) -/
  midDone : Nat := 0
  /-- rows that the fetch engine has asked for and rows that have landed in the running span, by slot (10 R264) -/
  asked : Tab Nat := []
  /-- when the next row of a slot became the fetch engine's to ask for, by slot (10 R269; log entry 97) -/
  rowSince : Tab Nat := []
  landed : Tab Nat := []
  /-- block scales of the intermediate, by byte offset of their block in FUSE_REGION over 32 (the manual gives them no place) -/
  midScales : Tab Nat := []
  tokens : List Token := []
  /-- the predictor is on for the task, as at its dispatch (07 R189); its skipped blocks, by band, once the band is scored (07 R178) -/
  predicting : Bool := false
  skipped : Tab (List Nat) := []
  /-- where rows of streamed slots have landed in the running span: slot × 2^48 + virtual address to the row's device physical address -/
  landedAt : Tab Nat := []
  /-- first and last position and boundary summary of a resident claimed operand, as the core read them at issue (09 R255) -/
  localEnds : Nat × Nat := (0, 0)
  localSums : List Nat := []
  /-- destinations that a copy with WRITE_MODE 2 has written (12 R310) -/
  wrote : List Nat := []
  /-- elements that compaction keeps: FP32 patterns by row and column (07 R169) -/
  cmpRows : Tab (Tab Nat) := []
  /-- those of the spans that have committed -/
  cmpKept : Tab (Tab Nat) := []
  /-- inputs of the final merge, each in its rows (06 R157, R158) -/
  runs : List (List SortRow) := []
  /-- sorted blocks and levels of the merge pass, and non-zeros emitted (06 CORE_ACC_LAST_GROUP) -/
  blocks : Nat := 0
  mergeLevels : Nat := 0
  outNz : Nat := 0
  /-- home chunks whose counts are reported; rows sent (06 R154, R160) -/
  counted : Bool := false
  deriving DecidableEq, Repr

/-- What no register of a core holds. -/
structure Core where
  vcore : Nat := 850
  temp : Nat := 0
  /-- the junction temperature has been measured -/
  tempKnown : Bool := false
  /-- stitch credits, in quarters (02 R37) -/
  credits : Nat := 0
  /-- ns of the open 10 µs window in each share: pace-limited, pacer-held, stalled, idle (R536), and its stitches -/
  shares : List Nat := [0, 0, 0, 0]
  winStitches : Nat := 0
  /-- when the governor's running window began (02 R54) -/
  winSince : Nat := 0
  paceMeas : Nat := 0
  winState : Nat := 3
  floorRaise : Bool := false
  pwrLimited : Bool := false
  /-- rule 1 of R54 acted in the open window -/
  floorActed : Bool := false
  stall : Option Stall := none
  /-- earlier waits of the stitch that the core has not taken: their rows are not accepted (02 R43) -/
  episodes : List Stall := []
  ovrLast : Option Nat := none
  halted : Bool := false
  task : Option CoreTask := none
  /-- waits on a stitch marker: slot, marker, target (09 R246) -/
  waits : List (Nat × Nat × Nat) := []
  /-- slot of a stopped task whose tags are still held (10 R281) -/
  draining : Option Nat := none
  /-- the task that drains has finished, and is reported done when it has (10 R281) -/
  doneOwed : Bool := false
  lastWinner : Nat := 0
  tags : Tab Tag := []
  requests : List Req := []
  /-- when the issue port is free again behind short transfers (10 R261) -/
  portHold : Option Nat := none
  /-- when a class-3 request was served ahead of class 2 last (10 R269) -/
  promotedAt : Option Nat := none
  streamBytes : Tab Nat := []
  lateCause : Tab Nat := []
  lanes : Tab Lane := []
  chunks : List Chunk := []
  segLane : Nat := 0
  newSegment : Bool := false
  accPhase : Nat := 0
  acc : Tab Nat := []
  accPlru : Tab Nat := []
  accOcc : Nat := 0
  spilling : Bool := false
  spillBuf : List AccRec := []
  spillRows : Nat := 0
  /-- addresses of the rows in use of each overflow area, by its base (06 R152, 08 R211) -/
  ovfUsed : Tab (List Nat) := []
  /-- the foreign window of the open group: whether it is open, the rows that its stitch marker has counted, and its rows in
  the overflow area, as (sender, address) in order (06 R156) -/
  foreignOpen : Bool := false
  foreignCount : Nat := 0
  foreignOvf : List Nat := []
  /-- rows that the running span has fetched or computed, memory * 2^20 + row (08 R221) -/
  spanRows : List Nat := []
  announced : List (Nat × Nat) := []
  owners : Tab Nat := []
  /-- chunks whose owner the core has asked for (06 R153) -/
  ownersAsked : List Nat := []
  foreignSeen : Nat := 0
  bases : List Nat := []
  psumSeen : List Nat := []
  homeCounts : Tab Nat := []
  windowTask : Tab Nat := []
  /-- cores of the task that opened a window, for SRC_KIND 1 (08 R210, R212) -/
  windowMask : Tab Nat := []
  sb : List SbEntry := []
  sbNext : Nat := 0
  /-- items of the last stitch that wait behind another access to their bank (08 R195) -/
  heldItems : List StageItem := []
  gb : List GbRow := []
  cfgReject : Bool := false
  op : Option SpmOp := none
  opState : Nat := 0
  bankReq : Option BankReq := none
  bankResult : Nat := 0
  /-- memory * 2^20 + row of rows whose detection word fails (08 R207, R217) -/
  badRows : List Nat := []
  /-- weight rows that are being reloaded from their home (08 R218) -/
  reloads : List Nat := []
  /-- rows of home copies that have arrived for a reload, by row -/
  reloadData : Tab (List Byte) := []
  /-- scrub position (08 R222) -/
  scrubPos : Nat := 0
  queueTags : Tab Nat := []
  /-- slot and status of the format fault recorded in the running stitch (04 R110) -/
  lastFormatFault : Option (Nat × Nat) := none
  /-- rows that the open gather window has read, with the values of their slices (12 R314) -/
  lceWindow : List (Nat × List (BitVec 32)) := []
  xlt : List (Nat × Nat × Nat) := []
  audit : List Nat := [0, 0, 0]
  /-- spill rows of the group in the overflow area, in order (06 R151) -/
  spillOvf : List Nat := []
  copyIdx : Nat := 0
  /-- rows that a copy has read and that have not passed the cable network (12 R307) -/
  xposeRows : Nat := 0
  deriving DecidableEq, Repr

/-- A row counter (09 R250 to R256). -/
structure RowCounter where
  reserved : Bool := false
  armed : Bool := false
  chunkLog : Nat := 0
  k : Nat := 0
  strand : Nat := 0
  summaryBase : Nat := 0
  attempt : Nat := 0
  next : Nat := 0
  owners : Tab Nat := []
  counts : Tab Nat := []
  final : List Nat := []
  based : Nat := 0
  outBase : Nat := 0
  slot : Nat := 0
  /-- the pinned summary, entry by entry (05 R132) -/
  pin : List Nat := []
  deriving DecidableEq, Repr

/-- A packet of a hardware queue that is not readable yet (11). -/
structure QPacket where
  seq : Nat
  /-- position of its first row, 0 to 2 LEN - 1 -/
  pos : Nat
  /-- words, the length slot included -/
  n : Nat := 1
  rows : Nat
  dropped : Bool := false
  committed : Bool := false
  /-- the producing core's task that closed it still runs (R289) -/
  own : Bool := true
  /-- the last marker made before it opened: its rows follow that marker's (R295) -/
  after : Nat := 0
  deriving DecidableEq, Repr

/-- A dropped packet that a marker records: its number and payload bytes, when it was dropped, whether the span that dropped it has committed, and
whether the task that did still runs (11 R289, R295). -/
structure QDrop where
  seq : Nat
  bytes : Nat := 0
  time : Nat := 0
  committed : Bool := false
  own : Bool := true
  deriving DecidableEq, Repr

/-- A pending dropped-stitch marker (11 R295): `row` is the position reserved for it. -/
structure QMarker where
  first : Nat
  count : Nat
  bytes : Nat
  tFirst : Nat
  tLast : Nat
  row : Option Nat
  /-- its place among the markers of its queue, and the packets dropped by a task that it records -/
  id : Nat := 0
  drops : List QDrop := []
  deriving DecidableEq, Repr

/-- A hardware queue's engine state beside its entry words (11). -/
structure Queue where
  enabled : Bool := false
  first : Nat := 0
  len : Nat := 0
  readable : Nat := 0
  /-- rows held and not readable yet, a row reserved for a marker included -/
  landed : Nat := 0
  /-- rows released in a span that has not committed (R292) -/
  uncommitted : Nat := 0
  open_ : Option QPacket := none
  waiting : List QPacket := []
  marker : Option QMarker := none
  /-- full markers that still await a row or an earlier packet, and markers made since the queue was enabled (R295) -/
  fullMarkers : List QMarker := []
  markers : Nat := 0
  seqNext : Nat := 0
  flushPending : Bool := false
  bindResult : Nat := 0
  result : Nat := 0
  /-- rows that a DX8-policy core producer may still land (R296) -/
  credits : Nat := 0
  /-- a write whose handshake waits for a free row: an OPEN, or a DATA word (R296) -/
  held : Option (Option Nat) := none
  /-- Limund flits taken and not returned as credit (15 R382) -/
  owed : Nat := 0
  deriving DecidableEq, Repr

/-- A task slot of the HST die (16 R411 to R415, 09 R238 to R246, 10 R277). -/
structure Slot where
  busy : Bool := false
  sq : Nat := 0
  seq : Nat := 0
  cmdId : Nat := 0
  opcode : Nat := 0
  intr : Bool := false
  strand : Nat := 0
  step : Nat := 0
  arg0 : Nat := 0
  arg1 : Nat := 0
  mask : Nat := 0
  passed : Nat := 0
  refusal : Option (Nat × Nat) := none
  refusalDie : Nat := 0
  answered : Nat := 0
  spanDone : Nat := 0
  done : Nat := 0
  drained : Nat := 0
  span : Nat := 0
  spans : Nat := 1
  started : Bool := false
  ending : Bool := false
  written : Bool := false
  status : Nat := 0
  srcDie : Nat := 98
  check : Nat := 0
  info : Nat := 0
  counter : Option Nat := none
  detections : Nat := 0
  waiting : Bool := false
  waited : Bool := false
  table : List Nat := []
  shape : List Nat := []
  schedule : List Nat := []
  pendingWrites : Nat := 0
  tokenBase : Nat := 0
  armedCounter : Bool := false
  /-- when a barrier wait or a marker wait began, and whether its long-stall event was raised (16 R414; 09 R246) -/
  since : Nat := 0
  reported : Bool := false
  /-- masks that were being freed when the task was dispatched (04 R106) -/
  freedMasks : List Nat := []
  /-- cores active when the task was dispatched (09 R240) -/
  activeAt : Nat := 0
  /-- RNG_SEED of the strand when the task began: a running task keeps the words that it began with (16 R404) -/
  seed : Nat := 0
  deriving DecidableEq, Repr

/-- A fetched descriptor that waits for dispatch (16 R411). -/
structure Desc where
  words : List Nat
  seq : Nat := 0
  deriving DecidableEq, Repr

/-- A registered mask (04 R102). -/
structure Mask where
  strand : Nat
  base : Nat
  h : Nat
  w : Nat
  fmt : Nat
  transposable : Bool
  deriving DecidableEq, Repr

/-- A barrier entry (16 R414): arrivals of the current generation and of the next, by device. -/
structure Barrier where
  gen : Nat := 0
  now : List Nat := []
  next : List Nat := []
  deriving DecidableEq, Repr

/-- A live strand as the HST die holds it (16 R403, R404): host-owned words 0 to 7 and device-owned words. -/
structure Strand where
  words : List Nat := []
  txCredit : Nat := 0
  txSeq : Nat := 0
  rxSeq : Nat := 0
  tasksDone : Nat := 0
  stepLast : Nat := 0
  /-- the highest STEP dispatched since the strand went live, none before the first task (17 R430) -/
  stepSeen : Option Nat := none
  port : Option Nat := none
  releasing : Bool := false
  deriving DecidableEq, Repr

/-- Submission and strand control state of the HST die (16). -/
structure Hst where
  slots : Tab Slot := []
  fetched : Tab (List Desc) := []
  /-- descriptors of an SQ that a clear of ENABLE still lets run -/
  closing : List Nat := []
  masks : Tab Mask := []
  barriers : Tab Barrier := []
  strands : Tab Strand := []
  lru : List Nat := []
  /-- completions written since the last message, and when the first of them was, by CQ -/
  unsignalled : Tab (Nat × Nat) := []
  /-- completion entries written and not yet taken by a head doorbell, by CQ (log entry 16) -/
  cqHeld : Tab Nat := []
  /-- numbers of the tasks that a cancel named and that have not completed; cancels of tasks not fetched yet: SQ, CMD_ID, how
  many descriptors are left to look at -/
  cancelWait : List Nat := []
  cancels : List (Nat × Nat × Nat) := []
  cancelResult : Nat := 0
  strandResult : Nat := 0
  strandStatus : Nat := 0
  invalidating : List (Nat × Nat × Nat × Nat) := []
  maskFrees : List (Nat × Nat) := []
  cplCancelled : Nat := 0
  schedInvalid : Nat := 0
  masksLoaded : Nat := 0
  masksRefused : Nat := 0
  msixSent : Nat := 0
  counterWaitNs : Nat := 0
  /-- SQs whose next task waits for a free row counter (09 R250) -/
  counterWaiting : List Nat := []
  /-- SQs whose next task a lifeline holds, with the strand (17 R431, R435) -/
  llWaiting : List (Nat × Nat) := []
  /-- number of the next descriptor fetched -/
  fetchSeq : Nat := 0
  /-- tasks that end without dispatch and wait for a slot: SQ, number, words, status -/
  refused : List (Nat × Nat × List Nat × Nat) := []
  claimsDropped : Nat := 0
  idxFaults : Nat := 0
  laneAborts : Nat := 0
  accAborts : Nat := 0
  predSaturated : Nat := 0
  hostBiasAccess : Nat := 0
  linkMode : Nat := 0
  linkWidth : Nat := 0
  memActive : Bool := false
  /-- what the mailbox timestamp adds to REFTIME, none until it is set (16 R398) -/
  mailboxTime : Option Nat := none
  deriving DecidableEq, Repr

/-- A shared-cache line that the manual gives a state of its own (13 R337, R344, 09 R249). -/
structure Cache where
  poisoned : List Nat := []
  retained : List (Nat × Nat) := []
  streamed : List Nat := []
  dirty : List Nat := []
  resident : List Nat := []
  /-- lines evicted in the saturation window that runs (19 R491) -/
  evicted : List Nat := []
  /-- far-tier lines that hold CXL data poison (13 R337) -/
  farPoison : List Nat := []
  refills : Nat := 0
  fills : Nat := 0
  secded : Nat := 0
  double : Nat := 0
  hostBias : List Nat := []
  deriving DecidableEq, Repr

/-- A near-tier stack (13 R327 to R333). -/
structure Stack where
  state : Nat := 0
  rate : Nat := 0
  channels : Nat := 0
  retraining : Option Nat := none
  queued : List Nat := []
  retrainSince : Nat := 0
  poison : List Nat := []
  lastTrained : Tab Nat := []
  trainedTemp : Tab Nat := []
  /-- times of the last 16 CRC retries of reads, by channel, the newest first (13 R331) -/
  crcTimes : Tab (List Nat) := []
  deriving DecidableEq, Repr

/-- A far-tier port (13 R334 to R336). -/
structure Far where
  link : Nat := 0
  width : Nat := 0
  gts : Nat := 0
  capacity : Nat := 0
  memActive : Bool := false
  present : Bool := false
  deriving DecidableEq, Repr

/-- A multicast member as its source sees it (15 R385 to R387). -/
structure Member where
  dev : Nat
  acked : Nat := 0
  attached : Bool := true
  /-- caught up, and attached again at the next message boundary -/
  joining : Bool := false
  deriving DecidableEq, Repr

/-- A multicast group in use on this device (15 R384 to R387): first what its source keeps, then what a member keeps. -/
structure Group where
  sent : Nat := 0
  /-- stream offsets at which messages begin -/
  starts : List Nat := []
  members : List Member := []
  limitSince : Option Nat := none
  /-- the source's strand, and the link die of the group's lowest port -/
  strand : Nat := 0
  die : Nat := 0
  accepted : Nat := 0
  newest : Nat := 0
  detached : Bool := false
  /-- end of the range that the member has asked for -/
  asked : Nat := 0
  srcDev : Nat := 0
  /-- header of the last group message, which names the target -/
  hdr : List Nat := []
  /-- gap record of a detachment: link die and record, and whether part was lost -/
  gap : Option (Nat × Nat) := none
  partly : Bool := false
  deriving DecidableEq, Repr

/-- A message at a sending port, or a message in transit (15 R372, R376, R379, R383). -/
structure SentMsg where
  /-- posted on this device; a message in transit otherwise -/
  posted : Bool := true
  /-- sending strand, and the link die that took the descriptor -/
  strand : Nat := 0
  die : Nat := 0
  cls : Nat := 2
  /-- a multicast message; `lead` for the copy that fills the retained buffer -/
  mcast : Bool := false
  lead : Bool := false
  dst : Nat := 0
  rcv : Nat := 0
  seq : Nat := 0
  kind : Nat := 0
  /-- flits that the transmitter has not taken, and whether the last one is among them or taken -/
  flits : List Flit := []
  whole : Bool := true
  started : Bool := false
  /-- stream offset of the next payload byte, and payload bytes that the next flit may hold -/
  off : Nat := 0
  task : Option Nat := none
  doneCore : Nat := 0
  doneMarker : Nat := 0
  doneEn : Bool := false
  /-- payload bytes; 1 a lifeline record, 2 a PAYLOAD record (17 R432) -/
  bytes : Nat := 0
  ll : Nat := 0
  /-- when the wait for a port that is UP began, and whether its long-stall event was raised -/
  since : Nat := 0
  reported : Bool := false
  deriving DecidableEq, Repr

/-- A message whose flits are arriving (15 R380). -/
structure RecvMsg where
  strand : Nat
  group : Option Nat := none
  seq : Nat := 0
  hdr : List Nat := []
  /-- payload words that wait, and words delivered -/
  words : List Nat := []
  pos : Nat := 0
  refused : Bool := false
  /-- a multicast message that a detached member discards -/
  skip : Bool := false
  ended : Bool := false
  deriving DecidableEq, Repr

/-- A Limund port (15 R365 to R378). -/
structure Port where
  state : Nat := 0
  /-- when the port entered its state (15 R367) -/
  since : Nat := 0
  gen : Nat := 0
  width : Nat := 0
  attempt : Nat := 0
  dx8 : Bool := false
  peerDev : Nat := 0
  peerPort : Nat := 0
  retrainFails : Nat := 0
  replays : List Nat := []
  divergent : Bool := false
  epochDiffSince : Option Nat := none
  peerEpoch : Nat := 0
  lastMgmt : Nat := 0
  mgmtSent : Bool := false
  rxSeq : Nat := 0
  nakActive : Bool := false
  txSeq : Nat := 0
  ackedSeq : Nat := 0
  /-- flits of the frame being filled, newest first, and the last 64 frames sent -/
  frame : List Flit := []
  replayBuf : List (Nat × List Flit) := []
  creditBulk : Nat := 2048
  creditCbulk : Nat := 2048
  returnBulk : Nat := 0
  returnCbulk : Nat := 0
  slotsSinceControl : Nat := 7
  lastClass : Nat := 3
  /-- control messages waiting, 256-bit patterns (15 R374) -/
  control : List Nat := []
  sending : List SentMsg := []
  /-- messages wholly taken and not acknowledged at link level -/
  sent : List SentMsg := []
  receiving : List RecvMsg := []
  /-- arrived flits that wait for a strand entry (15 R377) -/
  waiting : List Flit := []
  timeLast : Nat := 0
  eyes : Tab Nat := []
  deriving DecidableEq, Repr

/-- One input of a merge context (15 R388 to R390). -/
structure MergeIn where
  entries : List (Nat × F32) := []
  last : Option Nat := none
  ended : Bool := false
  deriving DecidableEq, Repr

/-- A merge context (15 R388). -/
structure MergeCtx where
  inputs : List MergeIn := []
  out : List (Nat × F32) := []
  outCount : Nat := 0
  deriving DecidableEq, Repr

/-- A lifeline (17 R427 to R438). -/
structure Lifeline where
  role : Nat := 0
  state : Nat := 0
  securing : Bool := false
  correlated : Bool := false
  partnerFeed : Nat := 0
  kMax : Nat := 0
  kCur : Nat := 0
  period : Nat := 0
  index : Nat := 0
  securedStep : Nat := 0
  anchorStep : Nat := 0
  dataPos : Nat := 0
  rngStep : Nat := 0
  slotVa : Nat := 0
  slotBytes : Nat := 0
  /-- the setup block of an ARM -/
  setup : List Nat := []
  armedAt : Nat := 0
  /-- the securing in flight: step, data position, RNG step, anchor -/
  mark : Option (Nat × Nat × Nat × Bool) := none
  firstPayload : Nat := 0
  lastPayload : Nat := 0
  hold : Nat := 0
  costs : List Nat := []
  starts : List Nat := []
  failures : Nat := 0
  /-- holder: bytes of the marked payload received, its slot, and its mark -/
  received : Nat := 0
  paramBytes : Nat := 0
  slot : Nat := 0
  failed : Bool := false
  hmark : Option (Nat × Nat × Nat × Bool) := none
  committedSlot : Option Nat := none
  /-- source: number of the MARK message, when it was sent, payload bytes sent behind it, PAYLOAD sent, its bytes not acknowledged -/
  markSeq : Nat := 0
  markAt : Nat := 0
  sentBytes : Nat := 0
  payloadSent : Bool := false
  payloadLeft : Nat := 0
  disarming : Bool := false
  /-- holder: slot bytes that ARM_REQ asked for -/
  needBytes : Nat := 0
  deriving DecidableEq, Repr

/-- Power, inputs and cast-on (18, 21). -/
structure Power where
  powerState : Nat := 1
  stage : Nat := 15
  busy : Bool := true
  failed : Bool := false
  failStage : Nat := 0
  failStatus : Nat := 0
  tStage : Nat := 0
  sag : Bool := false
  throttleN : Bool := false
  powerSrc : Bool := false
  thermal : Bool := false
  /-- the mean power, and the mean current, exceeds its limit: rule 2 of R54 is requested (R442) -/
  limiting : Bool := false
  limitingCurrent : Bool := false
  overSince : Option Nat := none
  underSince : Option Nat := none
  bindoff : Bool := false
  cause : Nat := 0
  tBindoff : Nat := 0
  /-- records of the save image that PERST_N keeps when the strands are gone (R449, R453): lifelines, summaries, strands left out -/
  kept : List (List Nat) × List (List Nat) × Nat := ([], [], 0)
  levels : Nat := 7
  chatter : Nat := 0
  stuck : Nat := 0
  perstHeld : Bool := true
  /-- when PERST_N deasserted last (18 R448, R449) -/
  perstAt : Nat := 0
  busMv : Nat := 0
  ibus : Nat := 0
  pin : Nat := 0
  bankMv : Nat := 0
  bankReady : Bool := false
  pwrEn : Bool := false
  feedId : Nat := 0
  slotId : Nat := 0
  temps : Tab Nat := []
  highest : Nat := 0
  inlet : Nat := 0
  outlet : Nat := 0
  flow : Nat := 0
  farPrsnt : Nat := 0
  saves : Nat := 0
  torn : Nat := 0
  chatterCount : Nat := 0
  clearRefused : Nat := 0
  started : Bool := false
  deriving DecidableEq, Repr

/-- A save in an MRAM slot (18 R453, R454): its header fields and its body's records, and whether it is valid. Event records
and wear counters are 64-bit words by their place. -/
structure Save where
  seq : Nat
  t : Nat
  cause : Nat
  epoch : Nat
  digest : List Byte
  lifelines : List (List Nat)
  summaries : List (List Nat)
  omitted : Nat
  events : Tab (List Nat)
  wear : Tab Nat
  valid : Bool
  deriving DecidableEq, Repr

/-- The object dictionary (19). Keys are index * 256 + subindex; values are octets. -/
structure Dict where
  values : Tab (List Byte) := []
  staged : Tab (List Byte) := []
  frozen : Tab (List Byte) := []
  epoch : Nat := 0
  armState : Nat := 0
  activated : Nat := 0
  /-- a partial segmented write, by path: object and octets so far -/
  partials : Tab (Nat × List Byte) := []
  window : List Byte := []
  busy : Bool := false
  events : Tab Event := []
  eventSeq : Nat := 0
  overwritten : Nat := 0
  lastEventMsix : Option Nat := none
  heartbeats : Nat := 0
  divergent : List Nat := []
  peerSince : Tab Nat := []
  masterOffset : Int := 0
  tdpReceived : Nat := 0
  tdpDiscarded : Nat := 0
  tdpSeq : Nat := 0
  /-- parts of objects that other dies received by CONFIG_WRITE, and answers that came back -/
  remote : Tab (List Byte) := []
  answers : Tab Nat := []
  deriving DecidableEq, Repr

/-- Background activities (19 R485 to R490): by activity * 2^20 + instance. Debt is in 10^-18 work units, lag in ms. -/
structure Background where
  debt : Tab Int := []
  tier : Tab Nat := []
  units : Tab Nat := []
  loss : Tab Nat := []
  criticals : Tab Nat := []
  lag : Tab Nat := []
  /-- when the last 100 µs period ended -/
  lastPeriod : Nat := 0
  deriving DecidableEq, Repr

/-- Saturation telemetry (19 R491 to R493). -/
structure Saturation where
  subperiods : List (List Measure) := []
  /-- when the running sub-period began (19 R491) -/
  since : Nat := 0
  first : Nat := 0
  record : List Nat := [0, 0, 0, 0]
  held : Nat := 0
  reported : Nat := 0
  lastEvent : Option Nat := none
  notSampled : Nat := 0
  deriving DecidableEq, Repr

/-- An SPDM connection (20 R507, R508): its stage and the hash that its last signed response covered. -/
structure Spdm where
  requester : Nat
  stage : Nat := 0
  hash : Option (List Byte) := none
  deriving DecidableEq, Repr

/-- Boot, update, attestation and debug state (20). -/
structure Security where
  activeBank : Nat := 0
  nextBank : Option Nat := none
  fallback : Bool := false
  burning : Bool := false
  burnTo : Tab Nat := []
  counters : Tab Nat := []
  running : List ImageCheck := []
  /-- a transfer in progress: its path (0 TDP, 1 mailbox, 2 window) and the octets received -/
  transfer : Option (Nat × Nat) := none
  activatable : Bool := false
  stagedImages : List ImageCheck := []
  aliasLeaf : Nat := 0
  identityLeaf : Nat := 0
  nonce : Option (List Byte) := none
  refusals : Nat := 0
  unlockLevel : Nat := 0
  unlocks : Nat := 0
  unlockEnd : Nat := 0
  lockReject : Bool := false
  lockRefused : Nat := 0
  tmuxSel : Nat := 0
  tmuxArg : Nat := 0
  connections : List Spdm := []
  exhaustedRaised : Bool := false
  deriving DecidableEq, Repr

/-- Transport of both networks (14 R353, R354, R356). -/
structure Net where
  chain : List ChainSend := []
  /-- next sequence number to send, by src * 128 + dst -/
  chainTx : Tab Nat := []
  /-- next sequence number expected, by src * 128 + dst -/
  chainRx : Tab Nat := []
  bulk : List BulkSend := []
  bulkTx : Tab Nat := []
  /-- received numbers of the window of each pair -/
  bulkRx : Tab (List Nat) := []
  deriving DecidableEq, Repr

/-- The machine. -/
structure State where
  regs : Tab Nat := []
  mem : Mem := []
  clock : Clock := {}
  pkg : Package := {}
  cores : Tab Core := []
  counters : Tab RowCounter := []
  queues : Tab Queue := []
  hst : Hst := {}
  cache : Cache := {}
  mifs : Tab Stack := []
  fars : Tab Far := []
  ports : Tab Port := []
  groups : Tab Group := []
  merges : Tab MergeCtx := []
  gapNext : Tab Nat := []
  /-- words of the send descriptors being written at the link dies (15 R379) -/
  linkPost : Tab Nat := []
  /-- strands that each link die caches, most recent first (15 R377) -/
  lnkCache : Tab (List Nat) := []
  /-- messages that wait for a port that is UP (15 R378) -/
  unsent : List SentMsg := []
  /-- messages posted by tasks: strand, number, slot, KIND (15 R381) -/
  posted : List (Nat × Nat × Nat × Nat) := []
  lifelines : Tab Lifeline := []
  llResult : Nat := 0
  llStatus : Nat := 0
  drawSkews : Nat := 0
  correlatedArms : Nat := 0
  divergenceEvents : Nat := 0
  power : Power := {}
  saves : Tab Save := []
  wear : Tab Nat := []
  dict : Dict := {}
  bg : Background := {}
  sat : Saturation := {}
  sec : Security := {}
  net : Net := {}
  out : List Out := []
  /-- number of the next free value: the model's own field (log entry 4) -/
  freeIdx : Nat := 0
  pending : List Instr := []
  deriving DecidableEq, Repr

/-- Core dies whose routers were fenced at shipment: up to four of a DX9-M64F, none of the others (14 R363; 00 R4). -/
def shippedRouters : List Nat := if Config.orderCode = 1 then Config.shippedFenced.take 4 else []

/-- The machine after reset: nothing listed, every record at the values above, the cores of the module enabled and its routers as
shipped. -/
def State.reset : State := { pkg := { enabled := Config.enabledMask.toNat, routersFenced := shippedRouters } }

end Sys2Proof.Machine
end

