-- ==== Sys2Proof/Machine/Ops.lean ====
section
/-! DEFINITION. The named operations over the state: registers and counters, cores, objects in force, both networks,
events, memory words, translation, regions, windows and markers. -/

namespace Sys2Proof.Machine

/-- What a meaning answers. -/
abbrev Result := Host.Outcome State Fault Refusal

/-! Registers. -/

/-- The register at a BAR0 offset. -/
def reg (s : State) (off : Nat) : Nat := tget (regReset off) s.regs off
/-- Write the register at a BAR0 offset, 64 bits wide. -/
def setReg (s : State) (off v : Nat) : State := { s with regs := tset s.regs off (v % 2 ^ 64) }
/-- Add to a U64 counter, modulo 2^64 (log entry 11). -/
def bump (s : State) (off n : Nat) : State := setReg s off (reg s off + n)
/-- The registers from lo to hi return to their reset values. -/
def clearRegs (s : State) (lo hi : Nat) : State := { s with regs := tdelRange s.regs lo hi }
/-- Field [hi:lo] of a word replaced. -/
def putBits (w hi lo v : Nat) : Nat :=
  w - bits w hi lo * 2 ^ lo + (v % 2 ^ (hi + 1 - lo)) * 2 ^ lo
/-- Field [hi:lo] of a register replaced. -/
def setField (s : State) (off hi lo v : Nat) : State := setReg s off (putBits (reg s off) hi lo v)

/-! Records by number. -/

def core (s : State) (c : Nat) : Core := tget {} s.cores c
def setCore (s : State) (c : Nat) (x : Core) : State := { s with cores := tset s.cores c x }
def updCore (s : State) (c : Nat) (f : Core → Core) : State := setCore s c (f (core s c))
def coreReg (s : State) (c o : Nat) : Nat := reg s (coreOff c o)
def bumpCore (s : State) (c o n : Nat) : State := bump s (coreOff c o) n

def slotOf (s : State) (k : Nat) : Slot := tget {} s.hst.slots k
def setSlot (s : State) (k : Nat) (x : Slot) : State := { s with hst := { s.hst with slots := tset s.hst.slots k x } }
def updSlot (s : State) (k : Nat) (f : Slot → Slot) : State := setSlot s k (f (slotOf s k))

def queue (s : State) (q : Nat) : Queue := tget {} s.queues q
def updQueue (s : State) (q : Nat) (f : Queue → Queue) : State := { s with queues := tset s.queues q (f (queue s q)) }

def rowCounter (s : State) (c : Nat) : RowCounter := tget {} s.counters c
def updCounter (s : State) (c : Nat) (f : RowCounter → RowCounter) : State :=
  { s with counters := tset s.counters c (f (rowCounter s c)) }

def stack (s : State) (k : Nat) : Stack := tget {} s.mifs k
def updStack (s : State) (k : Nat) (f : Stack → Stack) : State := { s with mifs := tset s.mifs k (f (stack s k)) }
def far (s : State) (p : Nat) : Far := tget {} s.fars p
def updFar (s : State) (p : Nat) (f : Far → Far) : State := { s with fars := tset s.fars p (f (far s p)) }
def port (s : State) (p : Nat) : Port := tget {} s.ports p
def updPort (s : State) (p : Nat) (f : Port → Port) : State := { s with ports := tset s.ports p (f (port s p)) }
def strand (s : State) (n : Nat) : Option Strand := tfind s.hst.strands n
def setStrand (s : State) (n : Nat) (x : Strand) : State := { s with hst := { s.hst with strands := tset s.hst.strands n x } }
def updStrand (s : State) (n : Nat) (f : Strand → Strand) : State :=
  match strand s n with
  | none => s
  | some x => setStrand s n (f x)
def lifeline (s : State) (n : Nat) : Lifeline := tget {} s.lifelines n
def updLifeline (s : State) (n : Nat) (f : Lifeline → Lifeline) : State :=
  { s with lifelines := tset s.lifelines n (f (lifeline s n)) }

/-- What leaves the module edge, newest first. -/
def emit (s : State) (o : Out) : State := { s with out := o :: s.out }

/-- Do f for each element of a list, in order. -/
def each {α : Type} (l : List α) (s : State) (f : State → α → State) : State := l.foldl f s

/-- A fresh free value (log entry 4). -/
def freshFree (s : State) : Nat × State := ((Config.freeWord s.freeIdx).toNat, { s with freeIdx := s.freeIdx + 1 })

/-! Numbers of dies and cores. -/

/-- Compute-column index of a mesh column, none for a cache column (01 R13). -/
def columnIndex (x : Nat) : Option Nat :=
  match x with
  | 0 => some 0 | 1 => some 1 | 2 => some 2 | 4 => some 3 | 5 => some 4 | 7 => some 5 | 8 => some 6 | 9 => some 7
  | _ => none
/-- The mesh column of a compute-column index. -/
def columnOf (c : Nat) : Nat := match c with
  | 0 => 0 | 1 => 1 | 2 => 2 | 3 => 4 | 4 => 5 | 5 => 7 | 6 => 8 | _ => 9
/-- Die identifier of a core (01 R12, R13). -/
def coreDie (c : Nat) : Nat := c / 8 * 10 + columnOf (c % 8)
/-- The core on a mesh die, none on a cache die or a ring die. -/
def dieCore (d : Nat) : Option Nat := if d < 80 then (columnIndex (d % 10)).map (fun i => d / 10 * 8 + i) else none
/-- Die identifier of a shared-cache slice (01 R14). -/
def sliceDie (k : Nat) : Nat := if k < 8 then k * 10 + 3 else (k - 8) * 10 + 6
def mgtDie : Nat := 99
def hstDie : Nat := 98
/-- Slice of a row counter (09 R250). -/
def counterSlice (c : Nat) : Nat := c / 64

/-- The active-core mask: enabled and not fenced (01 R15). -/
def activeMask (s : State) : Nat := (s.pkg.enabled &&& (2 ^ 64 - 1)) &&& ((2 ^ 64 - 1) ^^^ (s.pkg.fenced % 2 ^ 64))
def coreActive (s : State) (c : Nat) : Bool := bit (activeMask s) c
def popcount : Nat → Nat → Nat
  | 0, _ => 0
  | n + 1, w => w % 2 + popcount n (w / 2)
def activeCount (s : State) : Nat := popcount 64 (activeMask s)
/-- The cores of a mask, ascending. -/
def coresOf (m : Nat) : List Nat := (List.range 64).filter (fun c => bit m c)

/-! Time. -/

def now (s : State) : Nat := s.clock.reftime
/-- Throttled: any source is present (18 R443), or THROTTLE_N or SAG_N is latched by chatter (R457). -/
def throttled (s : State) : Bool :=
  s.power.sag || s.power.throttleN || s.power.powerSrc || s.power.thermal || bit s.power.chatter 1 || bit s.power.chatter 2

/-- A cast-on stage has completed (18 R446). -/
def stageDone (s : State) (k : Nat) : Bool := s.power.stage != 15 && decide (k ≤ s.power.stage)
/-- The power limiter requests reductions (18 R442). -/
def pwrLimiting (s : State) : Bool := s.power.limiting || s.power.limitingCurrent

/-! Objects in force. -/

/-- 0x6002:08 is the same object as 0x4050:03 (19 R490). -/
def aliasKey (key : Nat) : Nat := if key = 0x600208 then 0x405003 else key
/-- The PLCA node ID that a slot defaults to (19 R469). -/
def nodeDefault (s : State) : Nat := if s.power.slotId < 254 then s.power.slotId + 1 else 255
/-- Octets of an object's value in force; its default where nothing wrote it. -/
def objBytes (s : State) (key : Nat) : List Byte :=
  match tfind s.dict.values (aliasKey key) with
  | some v => v
  | none => if key = 0x100202 then leBytes 1 (nodeDefault s) else match findObj (aliasKey key) with
    | some o => o.defaultBytes
    | none => []
/-- The number in an object. -/
def objNat (s : State) (key : Nat) : Nat := leNat (objBytes s key)
/-- Store an object's value in force. -/
def setObj (s : State) (key : Nat) (v : List Byte) : State := { s with dict := { s.dict with values := tset s.dict.values key v } }

/-! The chain (14 R356). -/

/-- The key of a source and destination pair. -/
def pairKey (src dst : Nat) : Nat := src * 128 + dst

/-- A source sends a message: it takes the pair's next number and stays with the source until acknowledged. -/
def sendChain (s : State) (src dst : Nat) (m : Msg) : State :=
  let q := tget 0 s.net.chainTx (pairKey src dst)
  { s with net := { s.net with
      chain := s.net.chain ++ [{ src := src, dst := dst, seq := q, msg := m, sentAt := now s }]
      chainTx := tset s.net.chainTx (pairKey src dst) ((q + 1) % 1024) } }

/-- A number already received: it lies in the half of the 10-bit space behind the next expected one (log entry 12). -/
def chainRepeat (s : State) (dst : Nat) (f : Frame) : Bool :=
  decide (512 ≤ (f.seq.val + 1024 - tget 0 s.net.chainRx (pairKey f.src dst)) % 1024)

/-- A message arrives: a repeat is discarded and counted; any other is taken, and its effect k runs. -/
def onChain (dst : Nat) (f : Frame) (s : State) (k : State → State) : State :=
  if chainRepeat s dst f then bump s (rtrOff dst MGT_RTR_DUP_COUNT) 1
  else k { s with net := { s.net with chainRx := tset s.net.chainRx (pairKey f.src dst) ((f.seq.val + 1) % 1024) } }

/-! The bulk network (14 R353). -/

/-- Whether a source's replay store has room (R353). -/
def bulkRoom (s : State) (src : Nat) : Bool := decide ((s.net.bulk.filter (fun b => b.src == src)).length < 2048)

/-- A source sends a packet and keeps it in its replay store. -/
def sendBulk (s : State) (src dst : Nat) (type : BulkType) (tag addr due : Nat) (data : List Byte) : State :=
  let q := tget 0 s.net.bulkTx (pairKey src dst)
  { s with net := { s.net with
      bulk := s.net.bulk ++ [{ src := src, dst := dst, seq := q, type := type, tag := tag, addr := addr, due := due, data := data, sentAt := now s }]
      bulkTx := tset s.net.bulkTx (pairKey src dst) ((q + 1) % 65536) } }

/-- A packet arrives: a number in the window of the last 1,024 is discarded and counted; any other is taken. -/
def onBulk (dst : Nat) (t : BulkTag) (s : State) (k : State → State) : State :=
  let w := tget [] s.net.bulkRx (pairKey t.src dst)
  if w.contains t.seq.val then bump s (rtrOff dst MGT_RTR_DUP_COUNT) 1
  else k { s with net := { s.net with bulkRx := tset s.net.bulkRx (pairKey t.src dst) ((t.seq.val :: w).take 1024) } }

/-! MSI-X and events (16 R417, 19 R475, R476). -/

/-- Send a vector's message; a masked vector sets its pending bit. -/
def sendMsix (s : State) (v : Nat) : State :=
  let s := { s with hst := { s.hst with msixSent := s.hst.msixSent + b2n (!bit (reg s (msixOff v 1)) 32) } }
  if bit (reg s (msixOff v 1)) 32 then setReg s (pbaOff v) (reg s (pbaOff v) ||| 2 ^ (v % 64)) else emit s (.msix v)

/-- The words of an event record (19 R475). -/
def eventWords (seq : Nat) (e : Event) : List Nat :=
  let args := (e.args ++ [0, 0, 0, 0, 0]).take 5
  [seq % 2 ^ 32 + e.code * 2 ^ 32 + e.severity * 2 ^ 48 + e.die * 2 ^ 50, e.time,
   e.strand + e.core * 2 ^ 18 + b2n e.throttled * 2 ^ 24] ++ args.map (· % 2 ^ 64)

/-- The management die forms a record and logs it in its slot (19 R475). -/
def recordEvent (s : State) (e : Event) : State :=
  { s with dict := { s.dict with
    eventSeq := s.dict.eventSeq + 1
    overwritten := s.dict.overwritten + b2n (thas s.dict.events (s.dict.eventSeq % 6144))
    events := tset s.dict.events (s.dict.eventSeq % 6144) e } }
/-- An event message is due: none within the last 10 µs. -/
def eventMsixDue (s : State) : Bool := match s.dict.lastEventMsix with
  | none => true
  | some t => decide (t + 10000 ≤ now s)
/-- The event's message over MSI-X, and its frame on the telemetry path (19 R476). -/
def tellEvent (s : State) : State :=
  if objNat s 0x100401 = 1 ∧ eventMsixDue s = true then sendMsix { s with dict := { s.dict with lastEventMsix := some (now s) } } 0 else s
def frameEvent (s : State) (seq : Nat) (e : Event) : State :=
  if objNat s 0x100403 = 0 then s
  else emit { s with dict := { s.dict with tdpSeq := s.dict.tdpSeq + 1 } } (.eventFrame (objBytes s 0x100403) (eventWords seq e))
/-- The management die forms a record, logs it in its slot and delivers it (19 R475, R476). -/
def logEvent (s : State) (e : Event) : State :=
  let t := recordEvent s e
  if e.severity < objNat t 0x100402 then t else frameEvent (tellEvent t) (s.dict.eventSeq + 1) e

/-- A die raises an event: the management die logs its own, every other die sends it over the chain (19 R474). -/
def raise (s : State) (die code severity : Nat) (strandN coreN : Nat) (args : List Nat) : State :=
  let e : Event := { code := code, severity := severity, die := die, time := now s, strand := strandN, core := coreN,
                     throttled := throttled s, args := args }
  if die = mgtDie then logEvent s e else sendChain s die mgtDie (.event e)

/-! Limund control messages (15 R374 to R376). -/

/-- The device identifier. -/
def ownDev (s : State) : Nat := objNat s 0x500101
/-- Port toward a device, 31 for none (15 R376). -/
def routePort (s : State) (dev : Nat) : Nat := ((objBytes s 0x502001).getD dev 0x1F#8).toNat
/-- A control message: TYPE, DST_DEV, SRC_DEV and the fields from bit 32. -/
def control (type dst src fields : Nat) : Nat := type % 256 + dst % 4096 * 2 ^ 8 + src % 4096 * 2 ^ 20 + fields * 2 ^ 32
/-- Hand a control message to a port's queue. -/
def sendControl (s : State) (p m : Nat) : State := updPort s p (fun x => { x with control := x.control ++ [m] })
/-- Send one to a device from this one; without a route it is discarded. -/
def controlTo (s : State) (type dst fields : Nat) : State :=
  let p := routePort s dst
  if p < 16 then sendControl s p (control type dst (ownDev s) fields) else s
/-- NACK to the sender of a message: its device, its strand, the number and the cause (15 R374, R380). -/
def sendNack (s : State) (dst strandN seq cause : Nat) : State :=
  let p := routePort s dst
  if p < 16 then bump (controlTo s 3 dst (strandN % 2 ^ 18 + seq % 65536 * 2 ^ 18 + cause % 8 * 2 ^ 34)) (portOff p LNK_NACK_TX_COUNT) 1 else s
/-- CREDIT for a strand of a device (15 R374, R382). -/
def sendCredit (s : State) (dst strandN flits : Nat) : State := controlTo s 2 dst (strandN % 2 ^ 18 + flits % 65536 * 2 ^ 18)

/-- A refused posted host write is dropped (16 R420, R421): counted, recorded, and an event. Sources: 0 doorbell, 1
aperture, 2 queue port. -/
def postedDrop (s : State) (status source index : Nat) : State :=
  let s := setReg (bump s (hstOff HST_POSTED_DROP_COUNT) 1) (hstOff HST_LAST_DROP) (status + source * 2 ^ 16 + index * 2 ^ 18)
  raise s hstDie 0x801 1 0 0 [status, source, index]

/-! Memory words. -/

/-- A little-endian 64-bit word at a device physical address. -/
def rd64 (s : State) (a : Nat) : Nat := leNat (mreadN s.mem a 8)
/-- A little-endian 32-bit word. -/
def rd32 (s : State) (a : Nat) : Nat := leNat (mreadN s.mem a 4)
/-- Write bytes. -/
def wrBytes (s : State) (a : Nat) (l : List Byte) : State := { s with mem := mwriteN s.mem a l }
/-- Write a little-endian 64-bit word. -/
def wr64 (s : State) (a v : Nat) : State := wrBytes s a (leBytes 8 v)
/-- n words from an address. -/
def rdWords (s : State) (a n : Nat) : List Nat := (List.range n).map (fun i => rd64 s (a + 8 * i))

/-! The address map (13 R324 to R326). -/

def nearSize : Nat := 0x9000000000
def isNear (a : Nat) : Bool := decide (a < nearSize)
def isFar (a : Nat) : Bool := decide (0x10000000000 ≤ a ∧ a < 0x50000000000)
def farPortOf (a : Nat) : Nat := a / 0x10000000000 - 1
def isSpm (a : Nat) : Bool := decide (0x100000000000 ≤ a ∧ a < 0x104000000000)
def spmCore (a : Nat) : Nat := (a - 0x100000000000) / 0x100000000
/-- The hash accumulator's debug view in a scratchpad window: writes to it are ignored (06 R164). -/
def isDebugView (a : Nat) : Bool := isSpm a && (a - 0x100000000000) % 0x100000000 / 0x10000000 == 3
def isMirror (a : Nat) : Bool := decide (0x200000000000 ≤ a ∧ a < 0x200005000000)
def isHost (a : Nat) : Bool := decide (0x400000000000 ≤ a ∧ a < 2 ^ 52)
/-- A range of Table: Device physical address map. -/
def isMapped (a : Nat) : Bool := isNear a || isFar a || isSpm a || isMirror a || isHost a
/-- The die that owns the register at a BAR0 offset (16 Table: BAR0 map). -/
def ownerDie (off : Nat) : Nat :=
  if 0x10000 ≤ off ∧ off < 0x30000 then coreDie ((off - 0x10000) / 0x40 / 32)
  else if off < 0x1000000 then (if 0x100000 ≤ off ∧ off < 0x200000 then mgtDie else hstDie)
  else if off < 0x1400000 then coreDie ((off - 0x1000000) / 0x10000)
  else if 0x2000000 ≤ off ∧ off < 0x2800000 then 88 + (off - 0x2000000) / 0x100000
  else if 0x2800000 ≤ off ∧ off < 0x2880000 then 80 + (off - 0x2800000) / 0x10000
  else if 0x3800000 ≤ off ∧ off < 0x3840000 then 96 + (off - 0x3800000) / 0x20000
  else mgtDie
/-- The die that owns an address of the register mirror: of BAR2's doorbells the HST die (R324). -/
def mirrorDie (a : Nat) : Nat := if 0x4000000 ≤ a - 0x200000000000 then hstDie else ownerDie (a - 0x200000000000)
/-- Home slice (R325). -/
def homeSlice (a : Nat) : Nat := bits a 12 9 ^^^ bits a 16 13 ^^^ bits a 20 17 ^^^ bits a 24 21
/-- Stack of a near-tier address (R326). -/
def stackOf (a : Nat) : Nat := bits a 14 12 ^^^ bits a 17 15 ^^^ bits a 20 18
/-- Channel of a near-tier line (R326). -/
def channelOf (a : Nat) : Nat := (a / 512) % 48

/-- Rows and place of a scratchpad memory (08 R193). -/
def memRows (m : Nat) : Nat := if m = 0 then 327680 else if m = 1 then 131072 else if m = 2 then 65536 else 0
def memBankRows (m : Nat) : Nat := if m = 0 then 5120 else 4096
/-- Device physical address of a row (08 R194). -/
def rowDpa (c m r : Nat) : Nat := 0x100000000000 + c * 0x100000000 + m * 0x10000000 + r * 512
/-- Whether a bank is powered (08). -/
def bankPowered (s : State) (c m b : Nat) : Bool :=
  if m = 0 then bit (coreReg s c SPM_PWR_MAP_W) b
  else bit (coreReg s c SPM_PWR_MAP_AP) (if m = 1 then b else 32 + b)
/-- Whether an offset of a scratchpad window is mapped (08 R197). -/
def spmMapped (o : Nat) : Bool :=
  decide (o < 327680 * 512) || decide (0x10000000 ≤ o ∧ o < 0x10000000 + 131072 * 512)
    || decide (0x20000000 ≤ o ∧ o < 0x20000000 + 65536 * 512) || decide (0x30000000 ≤ o ∧ o < 0x31000000)

/-- A row of a core's scratchpad window: rows of the memories, and the debug view of the accumulator while PHASE is 0 (06 R164). -/
def spmBytes (s : State) (a : Nat) : List Byte :=
  let c := spmCore a
  let o := a % 0x100000000
  if o < 0x30000000 then mreadN s.mem a 512
  else if (core s c).accPhase = 0 then (List.range 64).flatMap (fun i => leBytes 8 (tget 0 (core s c).acc ((o - 0x30000000) / 8 + i)))
  else zeros 512

/-- A far-tier port is up. -/
def farUp (s : State) (p : Nat) : Bool := (far s p).link == 2

/-! Status codes (16 R422). -/

abbrev stSuccess : Nat := 0
abbrev stDescriptorInvalid : Nat := 0x101
abbrev stStrandInvalid : Nat := 0x102
abbrev stNoActiveCore : Nat := 0x103
abbrev stDoorbellInvalid : Nat := 0x104
abbrev stScheduleInvalid : Nat := 0x105
abbrev stLoopInvalid : Nat := 0x106
abbrev stFormatUnsupported : Nat := 0x107
abbrev stLayoutInvalid : Nat := 0x108
abbrev stFormatPairUnsupported : Nat := 0x109
abbrev stBalanceInvalid : Nat := 0x10A
abbrev stFusedPairInvalid : Nat := 0x10B
abbrev stPredictorInvalid : Nat := 0x10C
abbrev stAccConfigInvalid : Nat := 0x10D
abbrev stRngStreamUnset : Nat := 0x10E
abbrev stMaskUnknown : Nat := 0x10F
abbrev stMaskNotTransposable : Nat := 0x110
abbrev stMaskTableFull : Nat := 0x111
abbrev stShapeExceedsPlan : Nat := 0x112
abbrev stSpmRangeInvalid : Nat := 0x113
abbrev stBankPoweredDown : Nat := 0x114
abbrev stSpmCapacity : Nat := 0x115
abbrev stCompactRegionShort : Nat := 0x116
abbrev stAccCapacity : Nat := 0x117
abbrev stSummaryTooLarge : Nat := 0x118
abbrev stSelfOverlapWrite : Nat := 0x119
abbrev stCopyInvalid : Nat := 0x11A
abbrev stTranslationFault : Nat := 0x201
abbrev stProtectionFault : Nat := 0x202
abbrev stTierUncorrectable : Nat := 0x203
abbrev stWindowViolation : Nat := 0x204
abbrev stUnsortedIndex : Nat := 0x205
abbrev stColumnIndexRange : Nat := 0x206
abbrev stRowPointerInvalid : Nat := 0x207
abbrev stStructMetadataInvalid : Nat := 0x208
abbrev stBoundarySummaryInvalid : Nat := 0x209
abbrev stSpillAreaFull : Nat := 0x20A
abbrev stReplayLimit : Nat := 0x20B
abbrev stScratchpadRowFault : Nat := 0x20C
abbrev stIndexOutOfRange : Nat := 0x20D
abbrev stQueueProtocol : Nat := 0x20E
abbrev stQueuePacketTooLong : Nat := 0x20F
abbrev stCancelled : Nat := 0x301
abbrev stCoreFenced : Nat := 0x302
abbrev stStrandReleased : Nat := 0x303
abbrev stLinkDown : Nat := 0x401
abbrev stPeerUnreachable : Nat := 0x402
abbrev stLinkClassUnsupported : Nat := 0x403
abbrev stMergeInvalid : Nat := 0x404
abbrev stValueOutOfRange : Nat := 0x501
abbrev stObjectUnknown : Nat := 0x502
abbrev stAccessDenied : Nat := 0x503
abbrev stTypeMismatch : Nat := 0x504
abbrev stLocked : Nat := 0x505
abbrev stEpochInvalid : Nat := 0x506
abbrev stNotReady : Nat := 0x507
abbrev stPartnerSameFeed : Nat := 0x601
abbrev stImageInvalid : Nat := 0x602
abbrev stRollbackRefused : Nat := 0x603
abbrev stUnlockRefused : Nat := 0x604
abbrev stKeyExhausted : Nat := 0x605

/-! Strands and translation (16 R403, 13 R338, R339). -/

/-- Word w of a strand as the caches hold it, 0 where the strand is not live. -/
def strandWord (s : State) (n w : Nat) : Nat := match strand s n with
  | some x => x.words.getD w 0
  | none => 0
def strandLive (s : State) (n : Nat) : Bool := (strand s n).isSome
/-- Address of word w of a strand entry (16 R403). -/
def strandEntry (s : State) (n w : Nat) : Nat := reg s (strandOff HST_STRAND_BASE) + n * 256 + w * 8

/-- The outcome of a walk: an address, or a status. -/
inductive Xlt where
  | ok (dpa : Nat)
  | err (status : Nat)
  deriving DecidableEq, Repr

/-- Whether a page lies wholly in mapped ranges: they are whole multiples of the pages but for the edges (R324, R339). -/
def pageMapped (base size : Nat) : Bool := isMapped base && isMapped (base + size - 1)
/-- Whether a page lies partly in the register mirror. -/
def pageMirror (base size : Nat) : Bool := decide (base < 0x200005000000 ∧ 0x200000000000 < base + size)

/-- What a leaf gives (R339). -/
def leafCheck (mirrorOk write : Bool) (e size v : Nat) : Xlt :=
  let page := bits e 51 8 * 256
  if page % size ≠ 0 then .err stTranslationFault
  else if (write && !bit e 3) || (!write && !bit e 2) then .err stProtectionFault
  else if !pageMapped page size then .err stProtectionFault
  else if pageMirror page size && !mirrorOk then .err stProtectionFault
  else .ok (page + v % size)

def dieFailed (s : State) (d : Nat) : Bool := s.pkg.failedDies.contains d
/-- The MIF die of a stack. -/
def mifDie (k : Nat) : Nat := 80 + k
/-- A stack's die has failed, or its training has (01 R17, 13 R333). -/
def stackFailed (s : State) (k : Nat) : Bool := dieFailed s (mifDie k) || (stack s k).state == 3
/-- The walk below level l (R338): fuel is the level. Tables lie in the near tier, aligned to their size; an entry behind a failed MIF die is
an uncorrectable read (01 R17). -/
def walkAt (s : State) (mirrorOk write : Bool) (v : Nat) : Nat → Nat → Xlt
  | 0, t =>
    if t % 256 ≠ 0 ∨ ¬ isNear (t + 255) then .err stTranslationFault else
    let e := rd64 s (t + bits v 20 16 * 8)
    if stackFailed s (stackOf (t + bits v 20 16 * 8)) then .err stTierUncorrectable else
    if !bit e 0 then .err stTranslationFault else leafCheck mirrorOk write e 65536 v
  | l + 1, t =>
    if t % 4096 ≠ 0 ∨ ¬ isNear (t + 4095) then .err stTranslationFault else
    let sh := 12 + 9 * (l + 1)
    let e := rd64 s (t + bits v (sh + 8) sh * 8)
    if stackFailed s (stackOf (t + bits v (sh + 8) sh * 8)) then .err stTierUncorrectable
    else if !bit e 0 then .err stTranslationFault
    else if bit e 1 then
      (if l + 1 = 3 then .err stTranslationFault else leafCheck mirrorOk write e (2 ^ sh) v)
    else walkAt s mirrorOk write v l (bits e 51 8 * 256)

/-- Translation of a virtual address of a strand (R338, R339). -/
def translate (s : State) (n : Nat) (v : Nat) (write : Bool) : Xlt :=
  let root := bits (strandWord s n 1) 51 0
  if root = 0 then .err stTranslationFault
  else walkAt s (bit (strandWord s n 0) 1) write (v % 2 ^ 48) 3 root

/-- The size of the page that a walk ends on, below level l; 0 where it ends without a leaf. -/
def pageAt (s : State) (v : Nat) : Nat → Nat → Nat
  | 0, _ => 65536
  | l + 1, t =>
    let sh := 12 + 9 * (l + 1)
    let e := rd64 s (t + bits v (sh + 8) sh * 8)
    if !bit e 0 then 0 else if bit e 1 then 2 ^ sh else pageAt s v l (bits e 51 8 * 256)
def pageSize (s : State) (n v : Nat) : Nat := pageAt s (v % 2 ^ 48) 3 (bits (strandWord s n 1) 51 0)
/-- Two addresses of a strand lie in one page. -/
def samePage (s : State) (n v w : Nat) : Bool := w / max 1 (pageSize s n v) == v / max 1 (pageSize s n v)

/-- Bytes of a strand's virtual range, read page by page; none where an address does not translate. -/
def readVa (s : State) (n v : Nat) : Nat → Option (List Byte)
  | 0 => some []
  | k + 1 => match translate s n v false with
    | .ok a => (readVa s n (v + 1) k).map (fun l => mread s.mem a :: l)
    | .err _ => none

/-- Words of a virtual range of whole 8 B words, each word translated; none where a word does not translate. -/
def readWords (s : State) (n v : Nat) : Nat → Option (List Nat)
  | 0 => some []
  | k + 1 => match translate s n v false with
    | .ok a => (readWords s n (v + 8) k).map (fun l => rd64 s a :: l)
    | .err _ => none

/-- Bytes written to a strand's virtual range; an address that does not translate takes nothing. -/
def writeVa (s : State) (n v : Nat) : List Byte → State
  | [] => s
  | b :: l => match translate s n v true with
    | .ok a => writeVa (wrBytes s a [b]) n (v + 1) l
    | .err _ => writeVa s n (v + 1) l

/-! Regions (08 R198 to R202). -/

def regionBase (s : State) (c m r : Nat) : Nat := bits (reg s (regionOff c m r 0)) 19 0
def regionLen (s : State) (c m r : Nat) : Nat := bits (reg s (regionOff c m r 0)) 39 20
def regionMarker (s : State) (c m r : Nat) : Option Nat :=
  let w := reg s (regionOff c m r 0)
  if bit w 48 then some (bits w 47 40) else none
def regionHome (s : State) (c m r : Nat) : Bool := bit (reg s (regionOff c m r 0)) 49
/-- HEAD and TAIL of a pointer word as positions in 0 to 2 LEN - 1: offset, plus LEN when the wrap bit is set. -/
def ptrHead (len w : Nat) : Nat := bits w 19 0 + (if bit w 20 then len else 0)
def ptrTail (len w : Nat) : Nat := bits w 43 24 + (if bit w 44 then len else 0)
/-- Rows between them. -/
def ptrHeld (len w : Nat) : Nat :=
  if bits w 19 0 = bits w 43 24 then (if bit w 20 = bit w 44 then 0 else len)
  else (((bits w 43 24 : Nat) : Int) - (bits w 19 0 : Nat)).emod len |>.toNat
/-- A pointer word from two positions. -/
def ptrWord (len h t : Nat) : Nat :=
  let h := h % (2 * len)
  let t := t % (2 * len)
  h % len + (if len ≤ h then 2 ^ 20 else 0) + (t % len) * 2 ^ 24 + (if len ≤ t then 2 ^ 44 else 0)
def regionPtr (s : State) (c m r : Nat) : Nat := reg s (regionOff c m r 1)
/-- Rows that a region holds (R198). -/
def regionHeld (s : State) (c m r : Nat) : Nat := ptrHeld (regionLen s c m r) (regionPtr s c m r)
def regionFull (s : State) (c m r : Nat) : Bool := decide (regionLen s c m r ≤ regionHeld s c m r)
/-- TAIL moves n rows on; HEAD moves n rows on. -/
def advanceTail (s : State) (c m r n : Nat) : State :=
  let l := regionLen s c m r
  let w := regionPtr s c m r
  setReg s (regionOff c m r 1) (ptrWord l (ptrHead l w) (ptrTail l w + n))
def advanceHead (s : State) (c m r n : Nat) : State :=
  let l := regionLen s c m r
  let w := regionPtr s c m r
  setReg s (regionOff c m r 1) (ptrWord l (ptrHead l w + n) (ptrTail l w))
/-- The memory row at TAIL. -/
def tailRow (s : State) (c m r : Nat) : Nat := regionBase s c m r + bits (regionPtr s c m r) 43 24

/-! Stitch markers (08 R214). -/

def marker (s : State) (c k : Nat) : Nat := reg s (markerOff c k) % 2 ^ 32
/-- A wait for target t is satisfied. -/
def markerReached (count t : Nat) : Bool := decide ((count + 2 ^ 32 - t % 2 ^ 32) % 2 ^ 32 < 2 ^ 31)

/-- Waits on markers that a core holds: an answer goes to the HST die for each that the count satisfies (09 R246). -/
def checkWait (s : State) (c : Nat) : State :=
  let met := (core s c).waits.filter (fun w => markerReached (marker s c w.2.1) w.2.2)
  if met.isEmpty then s
  else
    let s := updCore s c (fun x => { x with waits := x.waits.filter (fun w => !met.contains w) })
    each met s (fun s w => sendChain s (coreDie c) hstDie (.markerReached w.1))

/-- A row lands and counts on a marker (R214). -/
def countMarker (s : State) (c k : Nat) : State :=
  checkWait (setReg s (markerOff c k) ((marker s c k + 1) % 2 ^ 32)) c

/-- A row lands in a region: its marker counts when MARK_EN is 1 (R202). -/
def countRegion (s : State) (c m r : Nat) : State := match regionMarker s c m r with
  | some k => countMarker s c k
  | none => s

/-! Scratchpad rows. -/

/-- Key of a row of a core's memories. -/
def rowKey (m r : Nat) : Nat := m * 2 ^ 20 + r

/-- Write a row with a new detection word. -/
def writeRow (s : State) (c m r : Nat) (data : List Byte) : State :=
  updCore (wrBytes s (rowDpa c m r) data) c (fun x => { x with badRows := x.badRows.filter (· != rowKey m r) })

/-- The weight-memory region with a valid home that holds a row (R218). -/
def homeRegion (s : State) (c row : Nat) : Option Nat :=
  (List.range 64).find? (fun r => regionHome s c 0 r && decide (regionBase s c 0 r ≤ row)
    && decide (row < regionBase s c 0 r + regionLen s c 0 r))

/-- Any path but a fetch of the region's own home rows writes a weight row: HOME_VALID of its regions clears (R219). -/
def loseHomes (s : State) (c m row : Nat) : State :=
  if m ≠ 0 then s else
  each ((List.range 64).filter (fun r => regionHome s c 0 r && decide (regionBase s c 0 r ≤ row)
      && decide (row < regionBase s c 0 r + regionLen s c 0 r))) s
    (fun s r => raise (setField s (regionOff c 0 r 0) 49 49 0) (coreDie c) 0x401 1 0 c [c, r])

/-! Resources that a stalled core may await, as STITCH and the long-stall event name them; the numbers are the model's (log entry 15): 0 a row of an operand, 1 room in a
region, 2 a row that no producer has written, 9 a base of the merge pass, 10 a stitch marker before GO, 11 the merge pass's foreign rows, 12 a claim's
answer, 13 a band, its scores or free sums, 14 a tag or the issue port of the fetch engine. Of a queue, 16 times one more than its number is
added (11 R290). -/
abbrev resRow : Nat := 0
abbrev resRegionFull : Nat := 1
abbrev resRegionEmpty : Nat := 2
abbrev resScoreboard : Nat := 4
abbrev resQueueEmpty : Nat := 5
abbrev resQueueFull : Nat := 6
abbrev resPort : Nat := 7
abbrev resBarrier : Nat := 8
abbrev resBase : Nat := 9
abbrev resWait : Nat := 10
abbrev resForeign : Nat := 11
abbrev resClaim : Nat := 12
abbrev resBand : Nat := 13
abbrev resTag : Nat := 14
/-- The resource with the queue that is awaited, and the resource without it. -/
def queueRes (k q : Nat) : Nat := k + 16 * (q + 1)
def resKind (r : Nat) : Nat := r % 16
/-! Landing windows (08 R210 to R215). -/

def winState (s : State) (c w : Nat) : Nat := bits (reg s (windowOff c w 0)) 1 0
def winMem (s : State) (c w : Nat) : Nat := bits (reg s (windowOff c w 0)) 3 2
def winMode (s : State) (c w : Nat) : Nat := bits (reg s (windowOff c w 0)) 5 4
def winMarker (s : State) (c w : Nat) : Nat := bits (reg s (windowOff c w 0)) 17 10
def winRegion (s : State) (c w : Nat) : Nat := bits (reg s (windowOff c w 0)) 23 18
/-- First row and rows of a window; append takes the region's. -/
def winBase (s : State) (c w : Nat) : Nat :=
  if winMode s c w = 1 then regionBase s c (winMem s c w) (winRegion s c w) else bits (reg s (windowOff c w 0)) 43 24
def winLen (s : State) (c w : Nat) : Nat :=
  if winMode s c w = 1 then regionLen s c (winMem s c w) (winRegion s c w) else bits (reg s (windowOff c w 0)) 63 44
def winInflight (s : State) (c w : Nat) : Nat := bits (reg s (windowOff c w 3)) 63 32

/-- Two row ranges of one memory meet. -/
def overlaps (a n b k : Nat) : Bool := decide (a < b + k ∧ b < a + n)

/-- Whether a bank that a row range touches is powered down. -/
def rangeDown (s : State) (c m base len : Nat) : Bool :=
  (List.range (if m = 0 then 64 else if m = 1 then 32 else 16)).any (fun b =>
    !bankPowered s c m b && overlaps base len (b * memBankRows m) (memBankRows m))

/-- Why an open is refused (R210). -/
def openRefused (s : State) (c w : Nat) (byTask : Bool) : Bool :=
  let m := winMem s c w
  winState s c w != 0
  || m == 3 || winMode s c w == 3
  || (List.range 64).any (fun v => v != w && (winState s c v == 1 || winState s c v == 2) && winMem s c v == m
        && overlaps (winBase s c w) (winLen s c w) (winBase s c v) (winLen s c v))
  || rangeDown s c m (winBase s c w) (winLen s c w)
  || decide (memRows m < winBase s c w + winLen s c w)
  || (winMode s c w == 1 && regionLen s c m (winRegion s c w) == 0)
  || (bits (reg s (windowOff c w 0)) 9 8 == 1 && !byTask)

/-- Open a window: STATE 1, its marker 0, and its overflow area empty (log entry 98). -/
def openWindow (s : State) (c w : Nat) : State :=
  let s := if bit (reg s (windowOff c w 0)) 7 then
    let b := bits (reg s (windowOff c w 2)) 47 0
    updCore s c (fun x => { x with ovfUsed := tdel x.ovfUsed b })
    else s
  checkWait (setReg (setField s (windowOff c w 0) 1 0 1) (markerOff c (winMarker s c w)) 0) c

/-- A close takes effect at the ingress: STATE 2 until WINDOW_CLOSED (R215). -/
def closeWindow (s : State) (c w : Nat) : State :=
  if winState s c w = 1 then setField s (windowOff c w 0) 1 0 2 else s

end Sys2Proof.Machine
end

