-- ==== Sys2Proof/Machine/Operands.lean ====
section
/-! DEFINITION. Operand forms: the loop-descriptor table (09), the layout descriptor and its geometry (04), the copy
descriptor (12), the stream schedule (10), and the elements that a descriptor names. -/

namespace Sys2Proof.Machine

/-- Word i of a table of 64-bit words. -/
def word (t : List Nat) (i : Nat) : Nat := t.getD i 0

/-! The loop header (09 R229). -/

def hLevels (t : List Nat) : Nat := bits (word t 0) 10 8
def hPair (t : List Nat) : Bool := bit (word t 0) 11
def hSpanLevel (t : List Nat) : Nat := bits (word t 0) 14 12
def hSplitLevel (t : List Nat) : Nat := bits (word t 0) 17 15
def hZeroFill (t : List Nat) : Bool := bit (word t 0) 18
def hOutMode (t : List Nat) : Nat := bits (word t 0) 20 19
def hResSpm (t : List Nat) : Nat := bits (word t 0) 23 21
def hResCache (t : List Nat) : Nat := bits (word t 0) 26 24
def hResNear (t : List Nat) : Nat := bits (word t 0) 29 27
def hResFar (t : List Nat) : Nat := bits (word t 0) 32 30
def hShapeBase (t : List Nat) : Nat := bits (word t 1) 47 0
def hScheduleBase (t : List Nat) : Nat := bits (word t 2) 47 0
def hProOp (t : List Nat) : Nat := bits (word t 6) 45 0
def hProEn (t : List Nat) : Bool := bit (word t 6) 46
def hProRows (t : List Nat) : Nat := bits (word t 7) 19 0
def hAccRegion (t : List Nat) : Nat := bits (word t 7) 25 20
def orOne (n : Nat) : Nat := if n = 0 then 1 else n
def hAccBufs (t : List Nat) : Nat := orOne (bits (word t 7) 27 26)
def hWaitEn (t : List Nat) : Bool := bit (word t 7) 28
def hWaitMarker (t : List Nat) : Nat := bits (word t 7) 36 29
def hWaitCore (t : List Nat) : Nat := bits (word t 7) 42 37
def hConv (t : List Nat) : Nat := bits (word t 8) 31 0
def hBalance (t : List Nat) : Nat := bits (word t 8) 63 32
def hConv2 (t : List Nat) : Nat := bits (word t 9) 31 0
def hWaitTarget (t : List Nat) : Nat := bits (word t 9) 63 32

/-! The balance word (05 R137). -/

def laneMode (t : List Nat) : Nat := bits (hBalance t) 1 0
def claimDepth (t : List Nat) : Nat := bits (hBalance t) 5 2
def chunkLog (t : List Nat) : Nat := bits (hBalance t) 8 6
def stealEn (t : List Nat) : Bool := bit (hBalance t) 9
def splitEn (t : List Nat) : Bool := bit (hBalance t) 10
/-- CHUNK (05). -/
def chunkSize (t : List Nat) : Nat := 4096 * 2 ^ chunkLog t
/-- The task divides claimed work by a counter. -/
def claimsMode (t : List Nat) : Bool := decide (2 ≤ laneMode t)

/-! The row-function word (07 R166). -/

def rFn (t : List Nat) : Nat := bits (word t 10) 3 0
def rCompact (t : List Nat) : Bool := bit (word t 10) 4
def rDropEn (t : List Nat) : Bool := bit (word t 10) 5
def rDropStream (t : List Nat) : Nat := bits (word t 10) 19 8
def rDropP16 (t : List Nat) : Nat := bits (word t 10) 35 20
def rCompactRegion (t : List Nat) : Nat := bits (word t 10) 41 36
def rFuseRegion (t : List Nat) : Nat := bits (word t 10) 47 42
def rScale (t : List Nat) : F32 := BitVec.ofNat 32 (word t 11)
def rThresh (t : List Nat) : F32 := BitVec.ofNat 32 (bits (word t 11) 63 32)
/-- A gated first product (07 R174). -/
def gated (t : List Nat) : Bool := decide (4 ≤ rFn t ∧ rFn t ≤ 6)

/-! The accumulation block (06 R162), predictor block (07 R181) and counter block (09). -/

def aSpillRegion (t : List Nat) : Nat := bits (word t 12) 5 0
def aForeignRegion (t : List Nat) : Nat := bits (word t 12) 11 6
def aEmitSummary (t : List Nat) : Bool := bit (word t 12) 12
def aDropZeros (t : List Nat) : Bool := bit (word t 12) 13
def aOvfRows (t : List Nat) : Nat := bits (word t 12) 63 32
def aOvfBase (t : List Nat) : Nat := bits (word t 13) 47 0
def aRowBase (t : List Nat) : Nat := bits (word t 14) 31 0
def aColBase (t : List Nat) : Nat := bits (word t 14) 63 32
def aSummaryBase (t : List Nat) : Nat := bits (word t 15) 47 0

def pEn (t : List Nat) : Bool := bit (word t 16) 0
def pRankLog (t : List Nat) : Nat := bits (word t 16) 2 1
def pAuditLog (t : List Nat) : Nat := bits (word t 16) 7 4
def pMissLimit (t : List Nat) : Nat := bits (word t 16) 31 16
def pWindow (t : List Nat) : Nat := bits (word t 16) 47 32
def pTheta (t : List Nat) : F32 := BitVec.ofNat 32 (word t 17)
def pBandStep (t : List Nat) : F32 := BitVec.ofNat 32 (bits (word t 17) 63 32)
def pBandMax (t : List Nat) : F32 := BitVec.ofNat 32 (word t 18)
def pActEps (t : List Nat) : F32 := BitVec.ofNat 32 (bits (word t 18) 63 32)
def pStateBase (t : List Nat) : Nat := bits (word t 19) 47 0

def cSummaryBase (t : List Nat) : Nat := bits (word t 20) 47 0
def cClaimSlot (t : List Nat) : Nat := bits (word t 20) 50 48
def cPosFirst (t : List Nat) : Nat := word t 21
def cPosEnd (t : List Nat) : Nat := word t 22
/-- K of a claimed operand (09 R251). -/
def cK (t : List Nat) : Nat := ceilDiv (cPosEnd t - cPosFirst t) 4096

/-! Levels (09 R230). -/

def lWord (t : List Nat) (n w : Nat) : Nat := word t (24 + 8 * n + w)
def lBound (t : List Nat) (n : Nat) : Nat := bits (lWord t n 0) 31 0
def lShapeSel (t : List Nat) (n : Nat) : Nat := bits (lWord t n 0) 36 32
def lReduce (t : List Nat) (n : Nat) : Bool := bit (lWord t n 0) 37
def lRole (t : List Nat) (n : Nat) : Nat := bits (lWord t n 0) 39 38
def lProduct (t : List Nat) (n : Nat) : Nat := bits (lWord t n 0) 41 40
def lUnit (t : List Nat) (n : Nat) : Nat := orOne (bits (lWord t n 1) 15 0)
/-- Position of level n in order k: 0 far, 1 near, 2 cache, 3 scratchpad. -/
def lOrd (t : List Nat) (k n : Nat) : Nat := bits (lWord t n 1) (18 + 3 * k) (16 + 3 * k)
def lSpm (t : List Nat) (n : Nat) : Nat := lOrd t 3 n
def lStride (t : List Nat) (n s : Nat) : Nat :=
  let w := lWord t n (2 + s / 2)
  if s % 2 = 0 then bits w 31 0 else bits w 63 32
def lDti (t : List Nat) (n s : Nat) : Int := signed 16 (lStride t n s)
def lDtj (t : List Nat) (n s : Nat) : Int := signed 16 (lStride t n s / 65536)
/-- The levels in use. -/
def levels (t : List Nat) : List Nat := List.range (hLevels t)
/-- Levels in scratchpad order, outermost first. -/
def spmOrder (t : List Nat) : List Nat :=
  (levels t).flatMap (fun i => (levels t).filter (fun n => lSpm t n == i))

/-! Slots (09 R231). -/

def sWord (t : List Nat) (s w : Nat) : Nat := word t (72 + 16 * s + w)
def sRole (t : List Nat) (s : Nat) : Nat := bits (sWord t s 8) 3 0
def sSource (t : List Nat) (s : Nat) : Nat := bits (sWord t s 8) 5 4
def sMem (t : List Nat) (s : Nat) : Nat := bits (sWord t s 8) 7 6
def sRegion (t : List Nat) (s : Nat) : Nat := bits (sWord t s 8) 13 8
def sBufs (t : List Nat) (s : Nat) : Nat := orOne (bits (sWord t s 8) 15 14)
def sHint (t : List Nat) (s : Nat) : Nat := bits (sWord t s 8) 17 16
def sHShape (t : List Nat) (s : Nat) : Nat := bits (sWord t s 8) 22 18
def sWShape (t : List Nat) (s : Nat) : Nat := bits (sWord t s 8) 27 23
def sPanelTr (t : List Nat) (s : Nat) : Nat := bits (sWord t s 9) 15 0
def sPanelTc (t : List Nat) (s : Nat) : Nat := bits (sWord t s 9) 31 16
def sOriginTi (t : List Nat) (s : Nat) : Nat := bits (sWord t s 10) 31 0
def sOriginTj (t : List Nat) (s : Nat) : Nat := bits (sWord t s 10) 63 32
/-- The layout descriptor of a slot. -/
def sLayout (t : List Nat) (s : Nat) : List Nat := (List.range 8).map (sWord t s)
/-- The slots in use. -/
def slots (t : List Nat) : List Nat := (List.range 8).filter (fun s => sRole t s != 0)
/-- The slot of a role: 1 A, 2 B, 3 C, 4 GATE, 5 UP, 6 B2, 7 C2, 8 P, 9 Q. -/
def slotWith (t : List Nat) (r : Nat) : Option Nat := (slots t).find? (fun s => sRole t s == r)
/-- The output slots: C and C2. -/
def isOut (t : List Nat) (s : Nat) : Bool := sRole t s == 3 || sRole t s == 7
/-- The final output: C2 of a fused pair, C otherwise. -/
def outSlot (t : List Nat) : Option Nat := slotWith t (if hPair t then 7 else 3)

/-! The layout descriptor (04 R107). -/

def dFmt (d : List Nat) : Nat := bits (word d 0) 4 0
def dKind (d : List Nat) : Nat := bits (word d 0) 7 5
def dTileOrder (d : List Nat) : Bool := bit (word d 0) 8
def dBlockOrder (d : List Nat) : Bool := bit (word d 0) 9
def dRpWide (d : List Nat) : Bool := bit (word d 0) 10
def dCiWide (d : List Nat) : Bool := bit (word d 0) 11
def dTransposed (d : List Nat) : Bool := bit (word d 0) 12
def dMaskId (d : List Nat) : Nat := bits (word d 0) 25 16
def dH (d : List Nat) : Nat := bits (word d 1) 31 0
def dW (d : List Nat) : Nat := bits (word d 1) 63 32
def dValue (d : List Nat) : Nat := bits (word d 2) 47 0
def dOuter (d : List Nat) : Nat := orOne (bits (word d 2) 63 48)
def dScale (d : List Nat) : Nat := bits (word d 3) 47 0
def dAux0 (d : List Nat) : Nat := bits (word d 4) 47 0
def dAux1 (d : List Nat) : Nat := bits (word d 5) 47 0
def dMatrixPitch (d : List Nat) : Nat := bits (word d 6) 39 0
def dRowPitch (d : List Nat) : Nat := bits (word d 7) 39 0
/-- A slot is read in the transposed view of a 2:4 operand (04 R105). -/
def isView (t : List Nat) (k : Nat) : Bool := dKind (sLayout t k) == 2 && dTransposed (sLayout t k)
/-- No elements (04 R109). -/
def dEmpty (d : List Nat) : Bool := dH d == 0 || dW d == 0

/-! Tile geometry (04 R87, R89). -/

def tileH (c : Nat) : Nat := if isPlane c then 32 else 16
def tileW (c : Nat) : Nat := if isPlane c then 128 else 32 / orOne (fmtBytes c)
def planes (c : Nat) : Nat := if isPlane c then fmtBits c else 1
def tileElems (c : Nat) : Nat := tileH c * tileW c
def tileScales (c : Nat) : Nat := if hasScale c then tileElems c / 32 else 0
def tileMeta (c : Nat) : Nat := tileElems c / 4
/-- Stored width: half of W for a 2:4 tensor (04 R100). -/
def storedW (d : List Nat) : Nat := if dKind d = 2 then dW d / 2 else dW d
def gridH (d : List Nat) : Nat := ceilDiv (dH d) (tileH (dFmt d))
def gridW (d : List Nat) : Nat := ceilDiv (storedW d) (tileW (dFmt d))
def blocksH (d : List Nat) : Nat := ceilDiv (gridH d) 8
def blocksW (d : List Nat) : Nat := ceilDiv (gridW d) 8
/-- Tile ordinal of tile (ti, tj). -/
def tileOrdinal (d : List Nat) (ti tj : Nat) : Nat :=
  let blk := if dBlockOrder d then tj / 8 * blocksH d + ti / 8 else ti / 8 * blocksW d + tj / 8
  let t := if dTileOrder d then tj % 8 * 8 + ti % 8 else ti % 8 * 8 + tj % 8
  blk * 64 + t
/-- Bytes of one matrix's value array. -/
def matrixBytes (d : List Nat) : Nat := blocksH d * blocksW d * 64 * planes (dFmt d) * 512
def up512 (n : Nat) : Nat := ceilDiv n 512 * 512
/-- Start of matrix m in the value, scale and metadata arrays (04 R92). -/
def matrixValue (d : List Nat) (m : Nat) : Nat := dValue d + m * dMatrixPitch d
def matrixScale (d : List Nat) (m : Nat) : Nat :=
  dScale d + m * up512 (if dKind d = 3 then dH d * ceilDiv (dW d) 32 else blocksH d * blocksW d * 64 * tileScales (dFmt d))
def matrixMeta (d : List Nat) (m : Nat) : Nat := dAux0 d + m * up512 (blocksH d * blocksW d * 64 * tileMeta (dFmt d))

/-- Where a tensor's bytes lie: at virtual addresses of a strand, or at a device physical address (a region's row 0). -/
inductive Place where
  | va (strand : Nat)
  | dpa (base : Nat)
  /-- at virtual addresses of a strand, but for the rows of the list: each has landed at the device physical address beside it -/
  | landed (strand : Nat) (rows : List (Nat × Nat))
  deriving DecidableEq, Repr

/-- A byte at a virtual address; one that does not translate reads as 0 here: the access itself faults (10 R276). -/
def vaByte (s : State) (n a : Nat) : Byte := match translate s n a false with
  | .ok x => mread s.mem x
  | .err _ => 0
/-- A byte of a tensor. -/
def placeByte (s : State) (p : Place) (a : Nat) : Byte := match p with
  | .dpa b => mread s.mem (b + a)
  | .va n => vaByte s n a
  | .landed n l => match l.find? (fun r => r.1 == a / 512 * 512) with
    | some r => mread s.mem (r.2 + a % 512)
    | none => vaByte s n a
/-- n bytes as a little-endian number. -/
def placeLe (s : State) (p : Place) (a : Nat) : Nat → Nat
  | 0 => 0
  | n + 1 => (placeByte s p a).toNat + 256 * placeLe s p (a + 1) n
/-- Write bytes of a tensor. -/
def placeWrite (s : State) (p : Place) (a : Nat) (l : List Byte) : State := match p with
  | .dpa b => wrBytes s (b + a) l
  | .va n => writeVa s n a l
  | .landed n _ => writeVa s n a l

/-- Byte address of stored element (i, j), plane p, of matrix m; bit within the byte for a plane format (04 R88, R89). -/
def elemAddr (d : List Nat) (m i j p : Nat) : Nat × Nat :=
  let c := dFmt d
  let o := tileOrdinal d (i / tileH c) (j / tileW c)
  let base := matrixValue d m + (o * planes c + p) * 512
  let r := i % tileH c
  let k := j % tileW c
  if isPlane c then (base + (r * 128 + k) / 8, (r * 128 + k) % 8) else (base + (r * tileW c + k) * fmtBytes c, 0)

/-- Address of the scale of stored element (i, j) of a tiled tensor (04 R93). -/
def scaleAddr (d : List Nat) (m i j : Nat) : Nat :=
  let c := dFmt d
  matrixScale d m + tileOrdinal d (i / tileH c) (j / tileW c) * tileScales c + i % tileH c * (tileW c / 32) + j % tileW c / 32

/-- The pattern of stored element (i, j) of matrix m. -/
def elemBits (s : State) (pl : Place) (d : List Nat) (m i j : Nat) : Nat :=
  let c := dFmt d
  if isPlane c then
    (List.range (planes c)).foldl (fun v p =>
      let a := elemAddr d m i j p
      v + (if (placeByte s pl a.1).toNat.testBit a.2 then 2 ^ p else 0)) 0
  else placeLe s pl (elemAddr d m i j 0).1 (fmtBytes c)

/-- The value of stored element (i, j) of a tiled tensor, its block scale included. -/
def storedVal (s : State) (pl : Place) (d : List Nat) (m i j : Nat) : FVal :=
  let c := dFmt d
  decodeScaled c (elemBits s pl d m i j) (if hasScale c then (placeByte s pl (scaleAddr d m i j)).toNat else 0)

/-- The metadata nibble of group g = column div 2 of stored row i (04 R100). -/
def nibbleAt (s : State) (pl : Place) (d : List Nat) (m i g : Nat) : Nat :=
  let c := dFmt d
  let j := 2 * g
  let o := tileOrdinal d (i / tileH c) (j / tileW c)
  let k := i % tileH c * (tileW c / 2) + j % tileW c / 2
  let b := (placeByte s pl (matrixMeta d m + o * tileMeta c + k / 2)).toNat
  if k % 2 = 0 then b % 16 else b / 16
/-- The six valid nibbles (04 R101). -/
def nibbleOk (n : Nat) : Bool := [0x4, 0x8, 0xC, 0x9, 0xD, 0xE].contains n

/-- Logical element (i, j) of a tiled or 2:4 tensor of matrix m: of a 2:4 tensor the stored value whose position the
metadata names, +0 elsewhere (04 R100); its transposed view exchanges i and j (04 R105). -/
def logicalVal (s : State) (pl : Place) (d : List Nat) (m i j : Nat) : FVal :=
  if dKind d = 2 then
    let (i, j) := if dTransposed d then (j, i) else (i, j)
    let n := nibbleAt s pl d m i (j / 4)
    if n % 4 = j % 4 then storedVal s pl d m i (j / 4 * 2)
    else if n / 4 = j % 4 then storedVal s pl d m i (j / 4 * 2 + 1)
    else .fin false 0 0
  else storedVal s pl d m i j

/-- Entry i of the row-pointer array, and the column index, pattern and value at a position (04 R95, R99). -/
def rowPtr (s : State) (pl : Place) (d : List Nat) (i : Nat) : Nat :=
  if dRpWide d then placeLe s pl (dAux0 d + 8 * i) 8 else placeLe s pl (dAux0 d + 4 * i) 4
def colIdx (s : State) (pl : Place) (d : List Nat) (p : Nat) : Nat :=
  if dCiWide d then placeLe s pl (dAux1 d + 4 * p) 4 else placeLe s pl (dAux1 d + 2 * p) 2
def posBits (s : State) (pl : Place) (d : List Nat) (p : Nat) : Nat :=
  let c := dFmt d
  if isPlane c then
    (List.range (planes c)).foldl (fun v k =>
      let b := (placeByte s pl (dValue d + (p / 4096 * planes c + k) * 512 + p % 4096 / 8)).toNat
      v + (if b.testBit (p % 8) then 2 ^ k else 0)) 0
  else placeLe s pl (dValue d + p * fmtBytes c) (fmtBytes c)
def posVal (s : State) (pl : Place) (d : List Nat) (p : Nat) : FVal :=
  decodeScaled (dFmt d) (posBits s pl d p) (if hasScale (dFmt d) then (placeByte s pl (dScale d + p / 32)).toNat else 0)
/-- Entry k of a boundary summary (05 R131). -/
def summaryAt (s : State) (pl : Place) (base k : Nat) : Nat := placeLe s pl (base + 4 * k) 4

/-- Byte address of element (i, j) of a linear tensor (04 R107). -/
def linearAddr (d : List Nat) (m i j : Nat) : Nat := matrixValue d m + i * dRowPitch d + j * fmtBytes (dFmt d)
/-- Value of element (i, j) of a linear tensor, its scale at R537's place. -/
def linearVal (s : State) (pl : Place) (d : List Nat) (m i j : Nat) : FVal :=
  let c := dFmt d
  decodeScaled c (placeLe s pl (linearAddr d m i j) (fmtBytes c))
    (if hasScale c then (placeByte s pl (matrixScale d m + i * ceilDiv (dW d) 32 + j / 32)).toNat else 0)

/-! Write one element's pattern into a plane tile's bytes or a byte tile's bytes. -/

/-- The 512 B rows of a tile from its elements' patterns, row-major: P rows (04 R88). -/
def packTile (c : Nat) (elems : List Nat) : List (List Byte) :=
  if isPlane c then
    (List.range (planes c)).map (fun p => (List.range 512).map (fun b =>
      BitVec.ofNat 8 ((List.range 8).foldl (fun v k => v + (if (elems.getD (8 * b + k) 0).testBit p then 2 ^ k else 0)) 0)))
  else [elems.flatMap (leBytes (fmtBytes c))]

/-! Run-time shapes and bounds (09 R234). -/

/-- Value of shape register n of a task. -/
def shapeReg (shape : List Nat) (n : Nat) : Nat := shape.getD n 0
/-- Run-time bound of level n. -/
def bound (t shape : List Nat) (n : Nat) : Nat :=
  let k := lShapeSel t n
  if k = 0 then lBound t n else ceilDiv (shapeReg shape (k - 1)) (lUnit t n)
/-- Run-time H and W of slot s. -/
def runH (t shape : List Nat) (s : Nat) : Nat :=
  if sHShape t s = 0 then dH (sLayout t s) else shapeReg shape (sHShape t s - 1)
def runW (t shape : List Nat) (s : Nat) : Nat :=
  if sWShape t s = 0 then dW (sLayout t s) else shapeReg shape (sWShape t s - 1)

/-- First and one past the last iteration of level n for rank r of `cores` (09 R248). -/
def shareOf (t shape : List Nat) (rank cores n : Nat) : Nat × Nat :=
  let b := bound t shape n
  if hSplitLevel t = n then (rank * b / orOne cores, (rank + 1) * b / orOne cores) else (0, b)
/-- Per-core share of the split level at planned bound (09 R248). -/
def planShare (t : List Nat) (cores : Nat) : Nat := ceilDiv (lBound t (hSplitLevel t)) (orOne cores)
/-- Spans are accumulation groups: a level has REDUCE (09 R244). -/
def hasGroup (t : List Nat) : Bool := (levels t).any (lReduce t)
/-- A span that sums: a group, and a commit span of a claims mode, which runs a send pass and a merge pass too (06 R154; 09 R244; log entry 37). -/
def spanSums (t : List Nat) : Bool := hasGroup t || claimsMode t
/-- Spans of a task (09 R244). -/
def spansOf (t shape : List Nat) : Nat := if hSpanLevel t = 7 then 1 else bound t shape (hSpanLevel t)

/-! Regions that a task names (08 R200): memory and region. -/

/-- Regions of a COMPUTE task: its slots', and those of its control words as its form uses them. -/
def computeRegions (t : List Nat) : List (Nat × Nat) :=
  ((slots t).map (fun s => (sMem t s, sRegion t s))
   ++ (if laneMode t = 3 then [] else [(2, hAccRegion t)])
   ++ (if laneMode t = 3 then [(1, aSpillRegion t)] else [])
   ++ (if claimsMode t then [(1, aForeignRegion t)] else [])
   ++ (if rCompact t && !hPair t then [(1, rCompactRegion t)] else [])
   ++ (if hPair t then [(1, rFuseRegion t)] else [])).eraseDups

/-! The copy descriptor (12 R302). -/

def kOp (t : List Nat) : Nat := bits (word t 0) 9 8
def kMode (t : List Nat) : Nat := bits (word t 0) 11 10
def kPolicy (t : List Nat) : Nat := bits (word t 0) 13 12
def kWide (t : List Nat) : Bool := bit (word t 0) 14
def kXpose (t : List Nat) : Bool := bit (word t 0) 15
def kSrcLocal (t : List Nat) : Bool := bit (word t 0) 16
def kSrcMem (t : List Nat) : Nat := bits (word t 0) 18 17
def kSrcRegion (t : List Nat) : Nat := bits (word t 0) 24 19
def kDstLocal (t : List Nat) : Bool := bit (word t 0) 25
def kDstMem (t : List Nat) : Nat := bits (word t 0) 27 26
def kDstRegion (t : List Nat) : Nat := bits (word t 0) 33 28
def kConv (t : List Nat) : Nat := bits (word t 1) 31 0
def kDueNs (t : List Nat) : Nat := bits (word t 1) 63 32
def kCount (t : List Nat) (i : Nat) : Nat := bits (word t (2 + i / 2)) (if i % 2 = 0 then 31 else 63) (if i % 2 = 0 then 0 else 32)
def kSrcI (t : List Nat) : Nat := bits (word t 4) 31 0
def kSrcJ (t : List Nat) : Nat := bits (word t 4) 63 32
def kDstI (t : List Nat) : Nat := bits (word t 5) 31 0
def kDstJ (t : List Nat) : Nat := bits (word t 5) 63 32
def kSrcStride (t : List Nat) (i : Nat) : Int :=
  signed 32 (bits (word t (6 + i / 2)) (if i % 2 = 0 then 31 else 63) (if i % 2 = 0 then 0 else 32))
def kDstStride (t : List Nat) (i : Nat) : Int :=
  signed 32 (bits (word t (8 + i / 2)) (if i % 2 = 0 then 31 else 63) (if i % 2 = 0 then 0 else 32))
def kIndexBase (t : List Nat) : Nat := bits (word t 10) 47 0
def kIndexCount (t : List Nat) : Nat := bits (word t 11) 31 0
def kSliceW (t : List Nat) : Nat := bits (word t 11) 63 32
def kSrcSummary (t : List Nat) : Nat := bits (word t 12) 47 0
def kDstSummary (t : List Nat) : Nat := bits (word t 13) 47 0
def kWaitEn (t : List Nat) : Bool := bit (word t 14) 0
def kWaitCore (t : List Nat) : Nat := bits (word t 14) 6 1
def kWaitMarker (t : List Nat) : Nat := bits (word t 14) 14 7
def kWaitTarget (t : List Nat) : Nat := bits (word t 14) 63 32
def kSrc (t : List Nat) : List Nat := (List.range 8).map (fun i => word t (16 + i))
def kDst (t : List Nat) : List Nat := (List.range 8).map (fun i => word t (24 + i))
/-- Regions of a COPY task. -/
def copyRegions (t : List Nat) : List (Nat × Nat) :=
  ((if kSrcLocal t then [(kSrcMem t, kSrcRegion t)] else []) ++ (if kDstLocal t then [(kDstMem t, kDstRegion t)] else [])).eraseDups

/-- A copy moves whole operands (R306). -/
def wholeCopy (w : List Nat) : Bool := kOp w == 0 && (dKind (kSrc w) == 1 || dKind (kSrc w) == 2)
/-- Tile ordinals of a descriptor's grid, ascending: padding tiles are neither read nor written (04 R90). -/
def gridOrdinals (d : List Nat) : List Nat := (List.range (blocksH d * blocksW d * 64)).filter (fun o =>
  (List.range (gridH d)).any (fun i => (List.range (gridW d)).any (fun j => tileOrdinal d i j == o)))
/-- An element of a side of a copy: its matrix, row and column in the logical shape, and for a linear side its byte address. -/
structure Elem where
  m : Nat
  i : Nat
  j : Nat
  addr : Nat
  deriving DecidableEq, Repr

/-- Coordinates of a linear element from its address (R537): of a strided walk too, an address before VALUE_BASE counting as (0, 0) (log
entry 77). -/
def linearElem (d : List Nat) (a : Nat) : Elem :=
  let m := ((List.range (dOuter d)).filter (fun m => decide (matrixValue d m ≤ a))).getLast?.getD 0
  let o := a - matrixValue d m
  { m := m, i := o / orOne (dRowPitch d), j := o % orOne (dRowPitch d) / orOne (fmtBytes (dFmt d)), addr := a }
/-- Element (a0, a1, a2, a3) of a layout copy on a side (R303, R304). -/
def walkElem (w : List Nat) (dst : Bool) (a : Nat × Nat × Nat × Nat) : Elem :=
  let d := if dst then kDst w else kSrc w
  let oi := if dst then kDstI w else kSrcI w
  let oj := if dst then kDstJ w else kSrcJ w
  if dKind d = 3 then
    let st (i : Nat) : Int := if dst then kDstStride w i else kSrcStride w i
    let z : Int := (dValue d : Int) + oi * dRowPitch d + oj * fmtBytes (dFmt d) + a.1 * st 0 + a.2.1 * st 1 + a.2.2.1 * st 2 + a.2.2.2 * st 3
    linearElem d (unsigned 48 z)
  else if dst && kXpose w then { m := a.2.2.1, i := oi + a.1, j := oj + a.2.1, addr := 0 }
  else { m := a.2.2.1, i := oi + a.2.1, j := oj + a.1, addr := 0 }
/-- Element (i, j) of matrix 0, as a gather or scatter names it. -/
def sliceElem (d : List Nat) (i j : Nat) : Elem := { m := 0, i := i, j := j, addr := if dKind d = 3 then linearAddr d 0 i j else 0 }
/-- Addresses of an element's bytes and of its scale. -/
def valueAddrs (d : List Nat) (e : Elem) : List Nat :=
  if dKind d = 3 then [e.addr] else (List.range (planes (dFmt d))).map (fun p => (elemAddr d e.m e.i e.j p).1)
def elemScale (d : List Nat) (e : Elem) : Nat :=
  if dKind d = 3 then matrixScale d e.m + e.i * ceilDiv (dW d) 32 + e.j / 32 else scaleAddr d e.m e.i e.j
/-- Byte addresses of an element: its bytes and its scale. -/
def elemBytes (d : List Nat) (e : Elem) : List Nat :=
  (valueAddrs d e).flatMap (fun a => (List.range (orOne (fmtBytes (dFmt d)))).map (a + ·)) ++ (if hasScale (dFmt d) then [elemScale d e] else [])
/-- The selvedge bytes of the tiles that elements lie in, which a step that writes them writes too (04 R91). -/
def selvedgeBytes (d : List Nat) (l : List Elem) : List Nat :=
  if dKind d ≠ 0 then [] else
  let th := tileH (dFmt d)
  let tw := tileW (dFmt d)
  let tiles := (l.map (fun e => (e.m, e.i / th, e.j / tw))).eraseDups.filter (fun p => decide (dH d < (p.2.1 + 1) * th ∨ dW d < (p.2.2 + 1) * tw))
  tiles.flatMap (fun p => (List.range th).flatMap (fun i => (List.range tw).flatMap (fun j =>
    let e : Elem := { m := p.1, i := p.2.1 * th + i, j := p.2.2 * tw + j, addr := 0 }
    if e.i < dH d ∧ e.j < dW d then []
    else if e.j % 32 = 0 then elemBytes d e else valueAddrs d e)))
/-- Index n of a walk over a box of counts, dimension 0 innermost, from an origin in each dimension. -/
def boxIndex (r : Nat → Nat × Nat) (n : Nat) : Nat × Nat × Nat × Nat :=
  let n1 := orOne (r 0).2
  let n2 := n1 * orOne (r 1).2
  let n3 := n2 * orOne (r 2).2
  ((r 0).1 + n % n1, (r 1).1 + n / n1 % orOne (r 1).2, (r 2).1 + n / n2 % orOne (r 2).2, (r 3).1 + n / n3)
/-- Every index of a layout copy, whichever core's share it is in. -/
def boxAll (w : List Nat) : List (Nat × Nat × Nat × Nat) :=
  (List.range (kCount w 0 * kCount w 1 * kCount w 2 * kCount w 3)).map (boxIndex (fun i => (0, kCount w i)))
/-- The 32 elements of a side from an index on are one block, in order. -/
def wholeBlock (w : List Nat) (dst : Bool) (a : Nat × Nat × Nat × Nat) : Bool :=
  let e := walkElem w dst a
  let l := walkElem w dst (a.1 + 31, a.2)
  e.j % 32 == 0 && l.m == e.m && l.i == e.i && l.j == e.j + 31
/-- A layout copy is exact (12 R305): same format, no transposition, and blocks drawn whole: for a format with scales each 32 elements along
dimension 0 are a block on both sides. -/
def copyExact (t : List Nat) : Bool :=
  kOp t == 0 && dFmt (kSrc t) == dFmt (kDst t) && !kXpose t
    && (!hasScale (dFmt (kSrc t)) || dKind (kSrc t) == 1 || dKind (kSrc t) == 2
        || (kCount t 0 % 32 == 0 && ((boxAll t).filter (fun a => a.1 % 32 == 0)).all (fun a => wholeBlock t false a && wholeBlock t true a)))
/-- A copy whose rows pass the cable network (R307): a transposing one, and one between a tiled or 2:4 side and a linear side. -/
def cabled (t : List Nat) : Bool := kXpose t || ((dKind (kSrc t) == 3) != (dKind (kDst t) == 3))

/-- The regions that a core's task names. -/
def taskRegions (t : CoreTask) : List (Nat × Nat) := if t.copy then copyRegions t.table else computeRegions t.table

/-- Whether the task of a core names a region. -/
def namedRegion (s : State) (c m r : Nat) : Bool := match (core s c).task with
  | none => false
  | some t => (taskRegions t).contains (m, r)

/-- The queue of a core that is bound to an activation-memory region, if one is (11 R283, R284). -/
def regionQueue (s : State) (c m r : Nat) : Option Nat :=
  if m = 1 then ((List.range 32).map (fun n => c * 32 + n)).find? (fun q =>
    (queue s q).enabled && bits (reg s (queOff q 0)) 9 4 == r)
  else none

/-! The stream schedule (10 R262): eight header words, then four for each entry. -/

def schedStreams (w : List Nat) : Nat := bits (word w 0) 12 8
def schedGauge (w : List Nat) : Nat := bits (word w 0) 31 16
def schedStep (w : List Nat) : Nat := bits (word w 0) 63 32
def streamWord (w : List Nat) (i : Nat) : Nat := word w (8 + 4 * i)
def streamSlot (w : List Nat) (i : Nat) : Nat := bits (streamWord w i) 2 0
def streamDir (w : List Nat) (i : Nat) : Bool := bit (streamWord w i) 3
def streamTier (w : List Nat) (i : Nat) : Nat := bits (streamWord w i) 5 4
def streamClaimed (w : List Nat) (i : Nat) : Bool := bit (streamWord w i) 6
def streamAllow (w : List Nat) (i : Nat) : Nat := bits (streamWord w i) 31 16
def streamChunk (w : List Nat) (i : Nat) : Nat := bits (streamWord w i) 63 32
/-- Worst-case latency of a tier (01 R23). -/
def tierLatency (t : Nat) : Nat := if t = 0 then 600 else if t = 1 then 1500 else 0
/-- Least allowance of a tier (10 Table: Corrected events and allowance minima). -/
def leastAllow (t : Nat) : Nat := if t = 0 then 150 else if t = 1 then 300 else 0
/-- The stream of a slot, none without a schedule. -/
def slotStream (w : List Nat) (s : Nat) : Option Nat :=
  if w.isEmpty then none else (List.range (schedStreams w)).find? (fun i => streamSlot w i == s)

/-- Why the HST die completes a task with SCHEDULE_INVALID (10 R262). -/
def scheduleBad (t w : List Nat) : Bool :=
  let n := schedStreams w
  bits (word w 0) 7 4 != 1 || n == 0 || decide (16 < n)
    || !(decide (400 ≤ schedGauge w ∧ schedGauge w ≤ 1600) && schedGauge w % 25 == 0)
    || schedStep w == 0
    || (List.range n).any (fun i =>
        sRole t (streamSlot w i) == 0 || sSource t (streamSlot w i) != 0 || streamTier w i == 3
          || decide (streamAllow w i < leastAllow (streamTier w i))
          || (streamClaimed w i && (streamChunk w i == 0 || streamSlot w i != cClaimSlot t)))
    || (slots t).any (fun s => sSource t s == 0 && ((List.range n).filter (fun i => streamSlot w i == s)).length != 1)

/-- Earliest reach of step n, in ns after GO (10 R264); it may lie before GO. -/
def earliestReach (w : List Nat) (n : Nat) : Int :=
  ((n * schedStep w : Nat) - 16 : Int) * 1000 / (orOne (schedGauge w) : Nat)

/-! Deadlines (10 R264 to R266). -/

/-- Lead of a stream. -/
def lead (w : List Nat) (i : Nat) : Nat := tierLatency (streamTier w i) + streamAllow w i
/-- Due times of a row that is due at a moment: the due time, and the latest issue time; 0 without a schedule. -/
def dueAt (t : CoreTask) (i : Nat) (due : Int) : Nat × Int := if t.schedule.isEmpty then (0, 0) else (due.toNat, due - lead t.schedule i)
/-- Due time and latest issue time of a row of stream i that panel step n of the task reads first. -/
def dueOf (t : CoreTask) (i n : Nat) : Nat × Int := dueAt t i ((t.tGo : Int) + earliestReach t.schedule n)

/-! Effective ceiling (02 R36). -/

/-- Schedule gauge of the task on a core, none without one (10 R263: then it is the device gauge). -/
def schedGaugeOf (s : State) (c : Nat) : Option Nat := match (core s c).task with
  | some t => if t.schedule.isEmpty then none else some (schedGauge t.schedule)
  | none => none
/-- E of a core. -/
def effCeil (s : State) (c : Nat) : Nat :=
  let dev := objNat s 0x201001
  let a := match schedGaugeOf s c with
    | some g => min dev g
    | none => dev
  if throttled s then min a (objNat s 0x201003) else a
/-- LIMITER: the lowest code of the terms that equal E. -/
def limiter (s : State) (c : Nat) : Nat :=
  let e := effCeil s c
  if objNat s 0x201001 = e then 0 else if schedGaugeOf s c = some e then 1 else 2
/-- Silicon rate at the present voltage and junction temperature, never above 1,600 in effect (02 R34, R35). -/
def siliconRate (s : State) (c : Nat) : Nat := Config.siliconRate c (core s c).vcore (core s c).temp
/-- V_FLOOR(T): the lowest step of 5 mV from 650 to 850 with a silicon rate of at least 1,100 (02 R34). -/
def vFloor (s : State) (c : Nat) : Nat :=
  (((List.range 41).map (fun k => 650 + 5 * k)).find? (fun v => decide (1100 ≤ Config.siliconRate c v (core s c).temp))).getD 850

end Sys2Proof.Machine
end

