-- ==== Sys2Proof/Machine/TaskOps.lean ====
section
/-! DEFINITION. Shared operations of tasks: the gathering buffer, landing rows, hardware-queue bookkeeping, stopping a
task on a core, faults, detections, spans and commits, and the HST die's task slots. -/

namespace Sys2Proof.Machine

/-! The gathering buffer (08 R205 to R207). -/

/-- The buffer row of a memory row. -/
def gbFind (s : State) (c m r : Nat) : Option GbRow := (core s c).gb.find? (fun g => g.mem == m && g.row == r)
def gbDrop (s : State) (c m r : Nat) : State :=
  updCore s c (fun x => { x with gb := x.gb.filter (fun g => !(g.mem == m && g.row == r)) })
/-- A buffer row counts on the marker of its window (R214). -/
def gbMark (s : State) (c : Nat) (g : GbRow) : State := match g.win with
  | some w => countMarker s c (winMarker s c w)
  | none => s
/-- The bytes of a buffer row are written into its memory row. -/
def gbStore (s : State) (c : Nat) (g : GbRow) : State :=
  g.bytes.foldl (fun s p => wrBytes s (rowDpa c g.mem g.row + p.1) [p.2]) s

/-- Early flush (R206): read, merge, write back, count; a failed read leaves a word that fails every check (R207). -/
def flushGb (s : State) (c : Nat) (fails : Bool) (g : GbRow) : State :=
  let k := rowKey g.mem g.row
  let fails := fails || (core s c).badRows.contains k
  let s := gbStore (gbDrop s c g.mem g.row) c g
  let s := updCore s c (fun x => { x with badRows := (if fails then [k] else []) ++ x.badRows.filter (· != k) })
  let s := gbMark (bumpCore (loseHomes s c g.mem g.row) c SPM_GB_RMW_COUNT 1) c g
  if fails then raise s (coreDie c) 0x402 2 0 c [c, g.mem, g.row] else s

/-- A full buffer row is written whole (R205). -/
def fullGb (s : State) (c : Nat) (g : GbRow) : State :=
  let s := gbStore (gbDrop s c g.mem g.row) c g
  let s := updCore s c (fun x => { x with badRows := x.badRows.filter (· != rowKey g.mem g.row) })
  gbMark (bumpCore (loseHomes s c g.mem g.row) c SPM_GB_ROW_COUNT 1) c g

/-- The buffer row written least recently. -/
def oldestGb (l : List GbRow) : Option GbRow :=
  l.foldl (fun o g => match o with
    | none => some g
    | some h => if g.last < h.last then some g else o) none

/-- Narrow bytes, by their offsets, merge into the buffer row of their memory row; a new row first makes room (R205, R206). -/
def gatherCells (s : State) (c m r : Nat) (win : Option Nat) (cells : List (Nat × Byte)) (readFails : Bool) : State :=
  let s := match gbFind s c m r with
    | some _ => s
    | none => if (core s c).gb.length < 16 then s else match oldestGb (core s c).gb with
      | some g => flushGb s c readFails g
      | none => s
  let g : GbRow := (gbFind s c m r).getD { mem := m, row := r }
  let g : GbRow := { g with win := if g.win.isSome then g.win else win, last := now s,
                            bytes := cells.foldl (fun t p => tset t p.1 p.2) g.bytes }
  let s := gbDrop s c m r
  if g.bytes.length = 512 then fullGb s c g else updCore s c (fun x => { x with gb := x.gb ++ [g] })

def gatherBytes (s : State) (c m r off : Nat) (win : Option Nat) (data : List Byte) (readFails : Bool) : State :=
  gatherCells s c m r win (data.zipIdx.map (fun p => (off + p.2, p.1))) readFails

/-- A local access to a row flushes its buffer row first (R206). -/
def flushRow (s : State) (c m r : Nat) (fails : Bool) : State := match gbFind s c m r with
  | some g => flushGb s c fails g
  | none => s

/-- Close a window: flush its buffer rows; the close takes effect (R206, R215). -/
def closeWin (s : State) (c w : Nat) : State :=
  if winState s c w = 1 then
    closeWindow (each ((core s c).gb.filter (fun g => g.win == some w)) s (fun s g => flushGb s c false g)) c w
  else s

/-! Hardware queues (11). -/

def queCore (q : Nat) : Nat := q / 32
def queWord0 (s : State) (q : Nat) : Nat := reg s (queOff q 0)
def queRegion (s : State) (q : Nat) : Nat := bits (queWord0 s q) 9 4
def quePolicy (s : State) (q : Nat) : Bool := bit (queWord0 s q) 1
def queKind (s : State) (q : Nat) : Nat := bits (queWord0 s q) 3 2
def queProdCore (s : State) (q : Nat) : Nat := bits (queWord0 s q) 15 10
def queProdStrand (s : State) (q : Nat) : Nat := bits (queWord0 s q) 33 16
/-- Rows that a packet holds. -/
def packetRows (p : QPacket) : Nat := if p.dropped then 0 else p.rows
/-- A queue loses its packets and its tag-store entries; ENABLE reads 0 (R284, R290). -/
def dropQueue (s : State) (q : Nat) : State :=
  updQueue (setField s (queOff q 0) 0 0 0) q (fun x => { seqNext := x.seqNext, result := x.result, bindResult := x.bindResult })
/-- Rows of a queue that are free. -/
def queFree (x : Queue) : Nat := x.len - x.readable - x.uncommitted - x.landed
/-- Position at which the next row lands: after every row held (R287). -/
def landPos (s : State) (q : Nat) : Nat :=
  let x := queue s q
  (ptrTail x.len (regionPtr s (queCore q) 1 (queRegion s q)) + x.landed) % (2 * orOne x.len)
/-- Markers without a row take the first rows that a release frees, in order (R295). -/
def markerTakesRow (s : State) (q : Nat) : State :=
  let s := each (List.range (queue s q).fullMarkers.length) s (fun s i => match (queue s q).fullMarkers[i]? with
    | some m => if m.row.isNone && decide (0 < queFree (queue s q)) then
        let p := landPos s q
        updQueue s q (fun x => { x with fullMarkers := x.fullMarkers.set i { m with row := some p }, landed := x.landed + 1 }) else s
    | none => s)
  match (queue s q).marker with
  | some m => if m.row.isNone && decide (0 < queFree (queue s q)) then
      let p := landPos s q
      updQueue s q (fun x => { x with marker := some { m with row := some p }, landed := x.landed + 1 }) else s
  | none => s
/-- Rows become free to the producer; under the DX8 policy a core producer gets credits (R292, R296), a Limund producer the
flits that the rows held (15 R382). -/
def freeRows (s : State) (q n : Nat) : State :=
  let s := markerTakesRow s q
  if !quePolicy s q || n == 0 then s
  else if queKind s q = 0 then
    sendChain s (coreDie (queCore q)) (coreDie (queProdCore s q)) (.queueCredit (queProdCore s q) q n)
  else
    let k := if queFree (queue s q) = (queue s q).len then (queue s q).owed else min (queue s q).owed (2 * n)
    if k = 0 then s else
    let w := strandWord s (queProdStrand s q) 3
    sendCredit (updQueue s q (fun x => { x with owed := x.owed - k })) (bits w 23 12) (bits w 41 24) k

/-- What a replay, or the end of a task, withdraws of what its core's queues hold (R289): the span's, or the task's. -/
def withdrawn (all committed own : Bool) : Bool := if all then own else !committed
/-- A marker without the drops that are withdrawn, none where it recorded no other. -/
def lessDrops (all : Bool) (m : QMarker) : Option QMarker :=
  let gone := m.drops.filter (fun d => withdrawn all d.committed d.own)
  let kept := m.drops.filter (fun d => !withdrawn all d.committed d.own)
  if gone.isEmpty then some m
  else if m.count ≤ gone.length then none
  else some { m with count := m.count - gone.length, bytes := m.bytes - (gone.map (·.bytes)).sum, tLast := (kept.getLast?.map (·.time)).getD m.tLast, drops := kept }
/-- Packets of a queue that its producing core's span or task has not made readable are withdrawn (R289): rows freed, the number back to the first
of them, and no marker for those dropped. -/
def withdrawQueue (all : Bool) (s : State) (q : Nat) : State :=
  let x := queue s q
  let gone := x.waiting.filter (fun p => withdrawn all p.committed p.own)
  let markers := x.fullMarkers ++ x.marker.toList
  let drops := (markers.flatMap (·.drops)).filter (fun d => withdrawn all d.committed d.own && !x.open_.any (fun p => p.seq == d.seq))
  let n := gone.length + x.open_.toList.length + drops.length
  let rows := ((gone ++ x.open_.toList).map packetRows).sum + (markers.filter (fun m => m.row.isSome && (lessDrops all m).isNone)).length
  let s := updQueue s q (fun x => { x with
    waiting := x.waiting.filter (fun p => !withdrawn all p.committed p.own), open_ := none, held := none, flushPending := false,
    seqNext := (x.seqNext + 65536 - n % 65536) % 65536, landed := x.landed - rows,
    fullMarkers := x.fullMarkers.filterMap (lessDrops all), marker := x.marker.bind (lessDrops all) })
  freeRows (bumpCore s (queCore q) QUE_WITHDRAW_COUNT n) q rows
/-- The queues that a core produces for. -/
def producedBy (s : State) (c : Nat) : List Nat :=
  (s.queues.filter (fun p => p.2.enabled && queKind s p.1 == 0 && queProdCore s p.1 == c)).map (·.1)
/-- Withdraw the packets of every queue that a core's span, or all of its task, produces (R289). -/
def withdrawOf (s : State) (c : Nat) (all : Bool) : State := each (producedBy s c) s (withdrawQueue all)
/-- What a core's queues hold of its span has committed, or of its task stays when the task ends. -/
def keepPackets (s : State) (c : Nat) (f : QPacket → QPacket) (g : QDrop → QDrop) : State :=
  each (producedBy s c) s (fun s q => updQueue s q (fun x => { x with
    waiting := x.waiting.map f, marker := x.marker.map (fun m => { m with drops := m.drops.map g }),
    fullMarkers := x.fullMarkers.map (fun m => { m with drops := m.drops.map g }) }))

/-! Rollback marks (08 R200, 11 R292). -/

/-- HEAD and TAIL of every named region go into both marks; a queue region's HEAD word is kept for R292. -/
def markTask (s : State) (c : Nat) (l : List (Nat × Nat)) : State :=
  each l s (fun s p => setReg (setReg s (regionOff c p.1 p.2 2) (regionPtr s c p.1 p.2)) (regionOff c p.1 p.2 3) (regionPtr s c p.1 p.2))
/-- At a commit the group marks are copied again. -/
def markGroup (s : State) (c : Nat) (l : List (Nat × Nat)) : State :=
  each l s (fun s p => setReg s (regionOff c p.1 p.2 3) (regionPtr s c p.1 p.2))
/-- HEAD of a word over the TAIL of another (bits [20:0] and [44:24]). -/
def withHead (ptr mark : Nat) : Nat := putBits ptr 20 0 (bits mark 20 0)
/-- A replay returns HEAD and TAIL to the group mark; of a queue region HEAD alone. -/
def rollGroup (s : State) (c : Nat) (l : List (Nat × Nat)) : State :=
  each l s (fun s p =>
    let g := reg s (regionOff c p.1 p.2 3)
    let q := regionQueue s c p.1 p.2
    let s := match q with
      | some q => updQueue s q (fun x => { x with readable := x.readable + x.uncommitted, uncommitted := 0 })
      | none => s
    setReg s (regionOff c p.1 p.2 1) (if q.isSome then withHead (regionPtr s c p.1 p.2) g else g))
/-- An abort or cancellation returns them to the task mark; a queue region's HEAD to its place at the task's last commit,
which is the group mark. -/
def rollTask (s : State) (c : Nat) (l : List (Nat × Nat)) : State :=
  each l s (fun s p =>
    let q := regionQueue s c p.1 p.2
    let s := match q with
      | some q => updQueue s q (fun x => { x with readable := x.readable + x.uncommitted, uncommitted := 0 })
      | none => s
    setReg s (regionOff c p.1 p.2 1)
      (if q.isSome then withHead (regionPtr s c p.1 p.2) (reg s (regionOff c p.1 p.2 3)) else reg s (regionOff c p.1 p.2 2)))

/-! Windows that a task opened (08 R215). -/

/-- A window belongs to the task that opened it, and is open to the task's cores (08 R210, R212). -/
def ownWindow (s : State) (c w k : Nat) : State :=
  updCore s c (fun x => { x with windowTask := tset x.windowTask w k, windowMask := tset x.windowMask w (slotOf s k).mask })
/-- Windows of a slot on a core whose PERSIST is 0 close; one with PERSIST 1 stays open to the cores of its task. -/
def closeTaskWindows (s : State) (c k : Nat) : State :=
  let l := ((core s c).windowTask.filter (fun p => p.2 == k)).map (·.1)
  let s := each (l.filter (fun w => !bit (reg s (windowOff c w 0)) 6)) s (fun s w => closeWin s c w)
  updCore s c (fun x => { x with windowTask := x.windowTask.filter (fun p => p.2 != k), foreignOpen := false })

/-! Stopping a task on a core (10 R277 step 3, R280). -/

/-- What overflow areas hold beside the running task's own: the rows of landing windows stay (06 R152; 08 R211). -/
def Core.ownArea (x : Core) (l : Tab (List Nat)) : Tab (List Nat) := match x.task with
  | some t => if t.copy then l else tdel l (aOvfBase t.table)
  | none => l
/-- What the core abandons: requests, stalls, scoreboard, lanes, chunks, accumulator and sums. A stall on a due row that is cut off so counts no
overrun (log entry 85). -/
def Core.abandoned (x : Core) : Core :=
  { x with task := none, requests := [], stall := none, episodes := [], sb := [], waits := x.waits.filter (fun w => (x.task.map (·.slot)) != some w.1), lanes := [], chunks := [], acc := [], accPlru := [],
           accOcc := 0, spilling := false, spillBuf := [], spillRows := 0, spillOvf := [], ovfUsed := x.ownArea x.ovfUsed, announced := [], owners := [], ownersAsked := [],
           heldItems := [], foreignOpen := false, foreignCount := 0, foreignOvf := [],
           foreignSeen := 0, bases := [], psumSeen := [], homeCounts := [], accPhase := 0, newSegment := false, audit := [0, 0, 0],
           spanRows := [], reloads := [], copyIdx := 0, lceWindow := [], xposeRows := 0, portHold := none,
           tags := x.tags.map (fun p => (p.1, { p.2 with abandoned := true })) }
/-- Tags of a slot that a core holds. -/
def holdsTags (s : State) (c : Nat) : Bool := !(core s c).tags.isEmpty

/-- The task of a core has passed its checks and waits on a stitch marker: an unscheduled stall (09 R246). -/
def issueWait (s : State) (c : Nat) : Bool := match (core s c).task with
  | some t => t.phase == 2 && (slotOf s t.slot).waiting && !(slotOf s t.slot).waited
  | none => false
/-- The core stops its task: regions to the task mark, windows with PERSIST 0 close, packets withdrawn; it reports drained
when no tag is held, and drains otherwise (R281). -/
def stopTask (s : State) (c : Nat) (cancel : Bool) : State := match (core s c).task with
  | none => s
  | some t =>
    let s := if issueWait s c then bumpCore s c LOOP_ISSUE_WAIT_NS (now s - (slotOf s t.slot).since) else s
    let s := rollTask s c (if t.phase ≤ 2 then [] else taskRegions t)
    let s := withdrawOf (closeTaskWindows s c t.slot) c true
    let s := updCore s c Core.abandoned
    let s := if cancel then bumpCore s c FET_CANCEL_COUNT 1 else s
    if holdsTags s c then updCore s c (fun x => { x with draining := some t.slot })
    else sendChain s (coreDie c) hstDie (.drained t.slot)

/-- A core that runs a task no longer, at its ABORT or CANCEL: one that drains reports when it has, and one that holds nothing of the task any
more has drained (R279, R281). -/
def stopGone (s : State) (c k : Nat) : State :=
  if (core s c).draining = some k then updCore s c (fun x => { x with doneOwed := false }) else sendChain s (coreDie c) hstDie (.drained k)
/-- A tag is freed; the last tag of a stopped or finished task ends its draining. -/
def freeTag (s : State) (c tag : Nat) : State :=
  let s := updCore s c (fun x => { x with tags := tdel x.tags tag })
  match (core s c).draining with
  | some k => if holdsTags s c then s
    else sendChain (updCore s c (fun x => { x with draining := none, doneOwed := false })) (coreDie c) hstDie
      (if (core s c).doneOwed then .done k else .drained k)
  | none => s

/-- A copy task's fault is recorded in LCE_LAST_FAULT too (12 R322). -/
def lceFault (s : State) (c status check k : Nat) : State :=
  setReg s (coreOff c LCE_LAST_FAULT) (status + check * 2 ^ 16 + (k % 2 ^ 32) * 2 ^ 24)

/-- A mid-stream fault on a core (10 R276, R277 step 1): counted, recorded, the task stops here, the HST die is told. -/
def faultCore (s : State) (c status stream slot va : Nat) : State := match (core s c).task with
  | none => s
  | some t =>
    let s := setReg (bumpCore s c FET_ABORT_COUNT 1) (coreOff c FET_LAST_FAULT)
      (status % 65536 + (stream % 32) * 2 ^ 16 + (slot % 8) * 2 ^ 21 + bits va 47 8 * 2 ^ 24)
    let s := if t.copy then lceFault s c status 0 0 else s
    let s := sendChain s (coreDie c) hstDie (.fault t.slot status)
    stopTask s c false


/-- A core still runs a task. -/
def stillRuns (s : State) (c k : Nat) : Bool := match (core s c).task with
  | some t => t.slot == k
  | none => false

/-! Detections (08 R217 to R221, 06 R143). -/

def detReg (m : Nat) : Nat := if m = 0 then SPM_DET_WMEM_COUNT else if m = 1 then SPM_DET_AMEM_COUNT else SPM_DET_PMEM_COUNT
/-- SPM_LAST_DETECT. -/
def setDetect (s : State) (c m row outcome : Nat) : State := setReg s (coreOff c SPM_LAST_DETECT) (m + outcome * 4 + row * 16)

/-- A row fails its check (R217): reloaded from a valid home (R218); otherwise its span or group is replayed (R220), if the
span wrote the row or the row holds partial sums (R221), and the task aborts when not, or in an accumulating copy (R318). -/
def detect (s : State) (c m row : Nat) : State :=
  let s := bumpCore s c (detReg m) 1
  if m = 0 ∧ (homeRegion s c row).isSome then
    if (core s c).reloads.contains row then setDetect s c m row 1
    else
      let r := (homeRegion s c row).getD 0
      let va := bits (reg s (regionOff c 0 r 4)) 47 0 + 512 * (row - regionBase s c 0 r)
      let q : Req := { kind := 1, mem := m, row := row, since := now s, va := va }
      updCore (setDetect s c m row 1) c (fun x => { x with reloads := x.reloads ++ [row], requests := x.requests ++ [q] })
  else match (core s c).task with
    | none => setDetect s c m row 0
    | some t =>
      if !t.copy && hasGroup t.table && decide (3 ≤ t.replays) then faultCore (setDetect s c m row 3) c stReplayLimit 31 0 0
      else if (t.copy && kMode t.table == 1) || (m != 2 && !(core s c).spanRows.contains (rowKey m row)) then
        faultCore (setDetect s c m row 3) c stScratchpadRowFault 31 0 0
      else sendChain (setDetect s c m row 2) (coreDie c) hstDie (.detection t.slot t.span)

/-- The running span has fetched or computed a row. -/
def noteRow (s : State) (c m row : Nat) : State :=
  updCore s c (fun x => { x with spanRows := if x.spanRows.contains (rowKey m row) then x.spanRows else rowKey m row :: x.spanRows })

/-- What a local write of a row meets: an open landing window of its own core (08 R209), or a bank without power (08 R225). -/
def localFault (s : State) (c m row : Nat) : Option Nat :=
  if (List.range 64).any (fun w => winState s c w == 1 && winMem s c w == m && decide (winBase s c w ≤ row ∧ row < winBase s c w + winLen s c w))
  then some stWindowViolation
  else if !bankPowered s c m (row / memBankRows m) then some stBankPoweredDown else none
/-- A local write of a row: the gathering buffer's part of it goes first (08 R206, R219). -/
def localWrite (s : State) (c m row : Nat) (data : List Byte) : State := match localFault s c m row with
  | some e => faultCore s c e 31 0 0
  | none => noteRow (loseHomes (writeRow (flushRow s c m row false) c m row data) c m row) c m row

/-- A producer writes the row at TAIL of a region (08 R199, R202). -/
def appendRow (s : State) (c m r : Nat) (data : List Byte) : State :=
  let row := tailRow s c m r
  match localFault s c m row with
  | some e => faultCore s c e 31 0 0
  | none => countRegion (advanceTail (localWrite s c m row data) c m r 1) c m r

/-- A fetch brings a row of a region from the region's own home (08 R219). -/
def fromHome (s : State) (c m r row va : Nat) : Bool :=
  m == 0 && regionHome s c 0 r && va == bits (reg s (regionOff c 0 r 4)) 47 0 + 512 * (row - regionBase s c 0 r)
/-- Of a row that comes from region r's own home, the other regions that hold it lose their homes (08 R219). -/
def loseOther (s : State) (c row r : Nat) : State :=
  each ((List.range 64).filter (fun q => q != r && regionHome s c 0 q && decide (regionBase s c 0 q ≤ row)
      && decide (row < regionBase s c 0 q + regionLen s c 0 q))) s
    (fun s q => raise (setField s (regionOff c 0 q 0) 49 49 0) (coreDie c) 0x401 1 0 c [c, q])
/-- A fetched row lands at TAIL; one from the region's own home leaves HOME_VALID as it is (08 R219). -/
def landFetched (s : State) (c m r va : Nat) (data : List Byte) : State :=
  let row := tailRow s c m r
  if fromHome s c m r row va && (localFault s c m row).isNone then
    countRegion (advanceTail (noteRow (loseOther (writeRow (flushRow s c m row false) c m row data) c row r) c m row) c m r 1) c m r
  else appendRow s c m r data

/-- What the core's own engines meet before they read rows (08 R206, R217, R218, R225): the gathering buffer's part lands first; a bank
without power ends the task; a row that fails its check gives no data, and one that is being reloaded is waited for. Whether the rows
can be read. -/
def useRows (c : Nat) : List (Nat × Nat) → State → State × Bool
  | [], s => (s, true)
  | p :: l, s =>
    if !bankPowered s c p.1 (p.2 / memBankRows p.1) then (faultCore s c stBankPoweredDown 31 0 0, false)
    else if p.1 == 0 && (core s c).reloads.contains p.2 then (s, false)
    else
      let s := flushRow s c p.1 p.2 false
      if (core s c).badRows.contains (rowKey p.1 p.2) then (detect s c p.1 p.2, false) else useRows c l s
/-- The same before they write rows too: an open landing window or a bank without power ends the task (08 R209, R225). -/
def takeRows (s : State) (c : Nat) (reads writes : List (Nat × Nat)) : State × Bool :=
  match writes.findSome? (fun p => localFault s c p.1 p.2) with
  | some e => (faultCore s c e 31 0 0, false)
  | none => useRows c reads (each writes s (fun s p => flushRow s c p.1 p.2 false))

/-- A consumer releases rows of a region; too many abort the task (08 R199). Queue rows become free at the commit (11 R292). -/
def releaseRegion (s : State) (c m r n : Nat) : State :=
  if regionHeld s c m r < n then faultCore s c stSpmRangeInvalid 31 0 0
  else
    let s := advanceHead s c m r n
    match regionQueue s c m r with
    | some q => updQueue s q (fun x => { x with readable := x.readable - n, uncommitted := x.uncommitted + n })
    | none => s

/-! The issue scoreboard (08 R208). -/

def sbMeets (s : State) (c : Nat) (writesOnly : Bool) (r : Fin 3 × Nat × Nat) : Bool :=
  (core s c).sb.any (fun e => (e.write || !writesOnly) && e.mem == r.1.val && overlaps r.2.1 r.2.2 e.first e.rows)
/-- An instruction waits at issue: for a range that another holds, or for entries of its own. -/
def sbWaits (s : State) (c : Nat) (reads writes : List (Fin 3 × Nat × Nat)) : Bool :=
  reads.any (sbMeets s c true) || writes.any (sbMeets s c false)
    || (!(reads.isEmpty && writes.isEmpty) && decide (64 < (core s c).sb.length + reads.length + writes.length))
/-- An issued instruction holds one entry for each range. -/
def sbIssue (s : State) (c : Nat) (reads writes : List (Fin 3 × Nat × Nat)) : State :=
  updCore s c (fun x =>
    let entry (w : Bool) (r : Fin 3 × Nat × Nat) : SbEntry := { id := x.sbNext, write := w, mem := r.1, first := r.2.1, rows := r.2.2 }
    { x with sb := x.sb ++ reads.map (entry false) ++ writes.map (entry true), sbNext := x.sbNext + 1 })
/-- Its entries leave once its last access is done. -/
def sbDone (s : State) (c id : Nat) : State := updCore s c (fun y => { y with sb := y.sb.filter (fun z => z.id != id) })
/-- Rows of a region, as the scoreboard names them. -/
def regionRange (s : State) (c m r : Nat) : Fin 3 × Nat × Nat := (Fin.ofNat 3 m, regionBase s c m r, regionLen s c m r)

/-! Claims (05 R129, R130). -/

/-- Unstarted chunks that a core holds. -/
def unstarted (x : Core) : Nat := (x.chunks.filter (fun k => !k.started)).length
/-- The counter that a core's task uses: none for a local one. -/
def sendClaim (s : State) (c : Nat) : State := match (core s c).task with
  | none => s
  | some t =>
    if !t.copy && claimsMode t.table && !t.dry && !t.claimInFlight && t.phase == 4 && !t.sent
        && decide (unstarted (core s c) < claimDepth t.table) then
      let s := updCore s c (fun x => { x with task := some { t with claimInFlight := true } })
      match t.counter with
      | some k => sendChain s (coreDie c) (sliceDie (counterSlice k)) (.claim k t.attempt)
      | none => s
    else s

/-! Rows written out (10). -/

/-- Where a slot's operand lies (09 R231). -/
def slotPlace (s : State) (c : Nat) (t : CoreTask) (k : Nat) : Place :=
  if sSource t.table k = 1 then .dpa (rowDpa c (sMem t.table k) (regionBase s c (sMem t.table k) (sRegion t.table k)))
  else .va t.strand

/-- FP32 elements of new bytes added to those of old ones, each sum rounded once (03 R71), and the overflows (03 R72). -/
def addFp32 (old new : List Byte) : List Byte × Nat :=
  let r := (List.range (new.length / 4)).map (fun i =>
    let a := BitVec.ofNat 32 (leNat ((old.drop (4 * i)).take 4))
    let b := BitVec.ofNat 32 (leNat ((new.drop (4 * i)).take 4))
    (addF32 a b, b2n (overflowed a b (addF32 a b))))
  (r.flatMap (fun x => leBytes 4 x.1.toNat), (r.map (·.2)).sum)
/-- An output row of slot k for byte address a: into the region for SOURCE 1; for SOURCE 0 it passes the staging region
and waits for a tag, with its due time and latest issue time (09 R231; 10 R265, R270). Under OUT_MODE 1 it adds (09 R243); under OUT_MODE
2 a core's later write of a row is the one that survives (log entry 93). -/
def outRow (s : State) (c : Nat) (t : CoreTask) (k a : Nat) (due : Nat × Int) (data : List Byte) : State :=
  let acc := !t.copy && hOutMode t.table == 1
  let m := sMem t.table k
  let r := sRegion t.table k
  if sSource t.table k = 1 then
    let row := regionBase s c m r + a / 512
    if !acc then localWrite s c m row data
    else
      let ready := useRows c [(m, row)] s
      let sum := addFp32 (mreadN ready.1.mem (rowDpa c m row) 512) data
      if ready.2 then localWrite (bumpCore ready.1 c CORE_NUM_INF_COUNT sum.2) c m row sum.1 else ready.1
  else
    let row := tailRow s c m r
    let s := appendRow s c m r data
    let st := slotStream t.schedule k
    if !stillRuns s c t.slot then s else
    updCore s c (fun x => { x with requests := x.requests ++
      [{ write := true, acc := acc, stream := st.getD 31, slot := k, va := a, kind := if st.isSome then 0 else 3, mem := m, region := r,
         row := row, latest := due.2, due := due.1, since := now s }] })

/-! The HST die's task slots (16 R411 to R415). -/

/-- Cores of a slot. -/
def slotCores (s : State) (k : Nat) : List Nat := coresOf (slotOf s k).mask
/-- Send a task-control message to cores. -/
def toCores (s : State) (l : List Nat) (m : Nat → Msg) : State := each l s (fun s c => sendChain s hstDie (coreDie c) (m c))
/-- DISARM goes to the slot's row counter (09 R256). -/
def disarmSlot (s : State) (k : Nat) : State := match (slotOf s k).counter with
  | none => s
  | some c => sendChain s hstDie (sliceDie (counterSlice c)) (.disarm c)

/-- A task that ends with one of these statuses counts once (05 R139, 06 R165). -/
def countEnd (s : State) (status : Nat) : State :=
  { s with hst := { s.hst with
      laneAborts := s.hst.laneAborts + b2n (status == stBoundarySummaryInvalid)
      idxFaults := s.hst.idxFaults + b2n (status == stIndexOutOfRange)
      accAborts := s.hst.accAborts + b2n (status == stSpillAreaFull || status == stReplayLimit) } }
/-- A wait on a stitch marker ends with its task, at whichever core holds it (09 R246). -/
def dropWaits (s : State) (k : Nat) : State :=
  each ((List.range 64).filter (fun c => (core s c).waits.any (fun w => w.1 == k))) s (fun s c =>
    updCore s c (fun x => { x with waits := x.waits.filter (fun w => w.1 != k) }))
/-- The first fault, cancellation or fence to arrive ends a task and sets its status (10 R277, R279); ABORT or CANCEL goes
to every core but the one that reported. Cores that are fenced count as drained. -/
def endTask (s : State) (k status die : Nat) (skip : Option Nat) (cancel : Bool) : State :=
  let x := slotOf s k
  if !x.busy || x.ending || x.written then s else
  let dead := (coresOf x.mask).filter (fun c => !coreActive s c)
  let s := countEnd s status
  let s := setSlot s k { x with ending := true, status := status, srcDie := die,
                                drained := x.drained ||| (dead.map (2 ^ ·)).foldl (· ||| ·) 0 }
  let s := disarmSlot (dropWaits s k) k
  toCores s ((coresOf x.mask).filter (fun c => coreActive s c && skip != some c))
    (fun c => if cancel then .cancel c k else .abort c k)

/-- Every core of a task has left its mark in a mask. -/
def allIn (mask got : Nat) : Bool := (mask &&& got) == mask
/-- No write of a slot is outstanding on any of its cores (01 R29). -/
def writesDone (s : State) (k : Nat) : Bool :=
  (slotCores s k).all (fun c => (core s c).requests.all (fun r => !r.write)
    && (core s c).tags.all (fun p => !(p.2.write && p.2.task == k)))

/-- A slot is ready for its completion entry (01 R29, 10 R281, 09 R238). -/
def slotReady (s : State) (k : Nat) : Bool :=
  let x := slotOf s k
  x.busy && !x.written &&
    (if x.ending then allIn x.mask x.drained
     else if x.refusal.isSome then allIn x.mask x.answered
     else allIn x.mask x.done && writesDone s k && x.mask != 0)

/-- Lowest free task slot. -/
def freeSlot (s : State) : Option Nat := (List.range 1024).find? (fun k => !(slotOf s k).busy)
/-- Busy slots. -/
def busySlots (s : State) : List Nat := (s.hst.slots.filter (fun p => p.2.busy)).map (·.1)

/-- A core is taken by a task that has not ended on it (16 R411). -/
def coreTaken (s : State) (c : Nat) : Bool :=
  (core s c).task.isSome || (core s c).draining.isSome ||
  (busySlots s).any (fun k =>
    let x := slotOf s k
    bit x.mask c && !(bit x.done c || (x.ending && bit x.drained c) || (x.refusal.isSome && allIn x.mask x.answered)))

/-- A core leaves a task normally: windows of WIN_CLOSE and those with PERSIST 0 close; it reports done (09 R245), with
rows under way once they have arrived and are dropped (10 R281). -/
def finishCore (s : State) (c : Nat) : State := match (core s c).task with
  | none => s
  | some t =>
    let s := if t.copy then s else
      each ((List.range 64).filter (bit (word t.table 5))) s (fun s w => closeWin s c w)
    let s := keepPackets (closeTaskWindows s c t.slot) c (fun p => { p with own := false }) (fun d => { d with own := false })
    let s := updCore s c (fun x => { x with task := none, chunks := [], lanes := [], spanRows := [], accPhase := 0, stall := none, episodes := [],
                                             audit := [0, 0, 0], psumSeen := [], requests := x.requests.filter (fun r => r.kind == 1),
                                             tags := x.tags.map (fun p => (p.1, { p.2 with abandoned := p.2.abandoned || p.2.kind != 1 })) })
    if holdsTags s c then updCore s c (fun x => { x with draining := some t.slot, doneOwed := true })
    else sendChain s (coreDie c) hstDie (.done t.slot)

/-- Prediction is on for a task (07 R181, R189). -/
def predicts (t : CoreTask) : Bool := pEn t.table && t.predicting
/-- Region r of core c's partial-sum memory becomes empty: HEAD goes to TAIL. -/
def emptySums (s : State) (c r : Nat) : State :=
  if regionLen s c 1 r = 0 then s else
  let tail := ptrTail (regionLen s c 1 r) (regionPtr s c 1 r)
  setReg s (regionOff c 1 r 1) (ptrWord (regionLen s c 1 r) tail tail)

/-- A span commits on a core (09 R244, 08 R200, 06 R141, 11 R292): group marks, counters, released queue rows, the group's
foreign window and spill areas; packets that the core closed are committed. -/
def commitCore (s : State) (c : Nat) : State := match (core s c).task with
  | none => s
  | some t =>
    let l := taskRegions t
    let s := if !t.copy && laneMode t.table == 3 then emptySums s c (aSpillRegion t.table) else s
    let s := if !t.copy && claimsMode t.table && t.counter.isSome then emptySums s c (aForeignRegion t.table) else s
    let s := markGroup s c l
    let none_ := !t.copy && spansOf t.table t.shape == 0
    let s := bumpCore s c LOOP_SPAN_COUNT (if none_ then 0 else 1)
    let a := (core s c).audit
    let s := if t.copy || !predicts t then s
      else emit s (.auditReport c t.strand (pStateBase t.table) a [pMissLimit t.table, pWindow t.table, (pBandStep t.table).toNat, (pBandMax t.table).toNat])
    let s := bumpCore (bumpCore (bumpCore s c CORE_AUDIT_TOKEN_COUNT (a.getD 0 0)) c CORE_AUDIT_INACTIVE_COUNT (a.getD 1 0))
      c CORE_AUDIT_MISS_COUNT (a.getD 2 0)
    let s := updCore s c (fun x => { x with audit := [0, 0, 0], task := some { t with cmpKept := t.cmpRows } })
    let s := each l s (fun s p => match regionQueue s c p.1 p.2 with
      | some q =>
        let n := (queue s q).uncommitted
        freeRows (updQueue s q (fun x => { x with uncommitted := 0 })) q n
      | none => s)
    let s := keepPackets s c (fun p => { p with committed := true }) (fun d => { d with committed := true })
    if !t.copy && spanSums t.table then
      let s := bumpCore s c CORE_ACC_GROUP_COUNT (if none_ || !hasGroup t.table then 0 else 1)
      let s := if laneMode t.table = 3 && hasGroup t.table then
        setReg s (coreOff c CORE_ACC_LAST_GROUP) (t.blocks % 2 ^ 16 + t.mergeLevels % 16 * 2 ^ 16 + t.outNz * 2 ^ 24) else s
      updCore s c (fun x => { x with foreignOpen := false, foreignCount := 0, foreignOvf := [], spillOvf := [], ovfUsed := x.ownArea x.ovfUsed, announced := [], owners := [], ownersAsked := [], foreignSeen := 0, bases := [],
                                     homeCounts := [], accPhase := 0, psumSeen := [], spilling := false, spillRows := 0,
                                     spillBuf := [], spanRows := [] })
    else updCore s c (fun x => { x with spanRows := [] })

/-- Whether the running span of a slot may commit: every core has finished its part, every output write is acknowledged. -/
def spanReady (s : State) (k : Nat) : Bool :=
  let x := slotOf s k
  x.busy && x.started && !x.ending && !x.written && allIn x.mask x.spanDone && writesDone s k && x.mask != 0

/-- The claim level lies inside SPAN_LEVEL: the counter is armed again for each group (09 R253). -/
def claimInside (t : List Nat) : Bool :=
  hSpanLevel t != 7 && (levels t).any (fun n => lRole t n == 1 && decide (lSpm t (hSpanLevel t) < lSpm t n))
def rearms (x : Slot) : Bool := x.counter.isSome && claimInside x.table

/-- The running span commits; the next span's GO follows, or the task ends on its cores (09 R244, R253). -/
def commitSpan (s : State) (k : Nat) : State :=
  let x := slotOf s k
  let s := each (coresOf x.mask) s commitCore
  if x.span + 1 < x.spans then
    let s := setSlot s k { x with span := x.span + 1, spanDone := 0, detections := 0 }
    let s := match rearms x, x.counter with
      | true, some c => sendChain s hstDie (sliceDie (counterSlice c)) (.rearm c (((rowCounter s c).attempt + 1) % 4))
      | _, _ => s
    toCores s (coresOf x.mask) (fun c => .go c k (x.span + 1))
  else each (coresOf x.mask) (setSlot s k { x with spanDone := 0 }) finishCore

/-- A commit span, which is no group, commits as soon as it may. -/
def tryCommit (s : State) (k : Nat) : State :=
  let x := slotOf s k
  if spanReady s k && !(x.opcode == 1 && hasGroup x.table) then commitSpan s k else s

/-- A core has finished its part of the running span and reports it once. -/
def reportSpan (s : State) (c : Nat) : State := match (core s c).task with
  | none => s
  | some t => if t.spanReported then s else
    sendChain (updCore s c (fun x => { x with
      task := some { t with spanReported := true, phase := 5 }, accPhase := if !t.copy && spanSums t.table then 8 else x.accPhase }))
      (coreDie c) hstDie (.spanDone t.slot t.span)

/-! Overflow areas (06 R152). -/

/-- Rows in use of an overflow area. -/
def ovfHeld (x : Core) (base : Nat) : Nat := (tget [] x.ovfUsed base).length
/-- The lowest free row of an overflow area, none when all are in use. -/
def ovfAlloc (s : State) (c base rows : Nat) : Option (Nat × State) :=
  let l := tget [] (core s c).ovfUsed base
  ((List.range (min rows (l.length + 1))).find? (fun i => !l.contains (base + 512 * i))).map (fun i =>
    (base + 512 * i, updCore s c (fun x => { x with ovfUsed := tset x.ovfUsed base (l ++ [base + 512 * i]) })))
/-- The merge has consumed rows of the area (06 R152). -/
def ovfFree (s : State) (c base : Nat) (gone : List Nat) : State :=
  if gone.isEmpty then s else updCore s c (fun x => { x with ovfUsed := tset x.ovfUsed base ((tget [] x.ovfUsed base).filter (fun a => !gone.contains a)) })

/-- Bytes of an accumulation record (06 R150); none is padding. -/
def recBytes : Option AccRec → List Byte
  | some r => leBytes 4 r.row ++ leBytes 4 r.col ++ leBytes 4 r.value.toNat ++ leBytes 4 1
  | none => zeros 16
/-- A row of up to 32 records, padded. -/
def recRow (l : List AccRec) : List Byte := (List.range 32).flatMap (fun i => recBytes l[i]?)
/-- The records of a row. -/
def rowRecs (b : List Byte) : List AccRec :=
  (List.range 32).filterMap (fun i =>
    let w (k : Nat) := leNat ((b.drop (16 * i + 4 * k)).take 4)
    if w 3 % 2 = 1 then some { row := w 0, col := w 1, value := BitVec.ofNat 32 (w 2) } else none)

/-! The issue port (10 R261). -/

/-- The issue port is held by a short transfer (R261). -/
def portHeld (s : State) (c : Nat) : Bool := match (core s c).portHold with
  | some t => decide (now s < t)
  | none => false
/-- n transfers of fewer than 8 rows hold the port one after the other, 40 ns each (R261). -/
def holdPort (s : State) (c n : Nat) : State :=
  if n = 0 then s
  else bumpCore (updCore s c (fun x => { x with portHold := some (max (now s) (x.portHold.getD 0) + 40 * n) })) c FET_SMALL_XFER_COUNT n
/-- Lengths of the transfers that rows at addresses of a strand make, the last first: each runs on over consecutive rows of one page, 64 at
most (R261). -/
def transfers (s : State) (n : Nat) (l : List Nat) : List Nat :=
  (l.foldl (fun (a : List Nat × Nat) v => match a.1 with
    | k :: rest => if v = a.2 + 512 ∧ k < 64 ∧ samePage s n a.2 v = true then ((k + 1) :: rest, v) else (1 :: k :: rest, v)
    | [] => ([1], v)) ([], 0)).1
/-- Rows that a core moves under tags which it takes and gives back within the command (10 R259; log entry 17): their bytes count, and short
transfers hold the port (R261). -/
def tagsWithin (s : State) (c n : Nat) (write : Bool) (l : List Nat) : State :=
  let t := bumpCore s c FET_TAG_ISSUE_COUNT l.length
  let t := bumpCore t c (if write then FET_BYTES_WRITTEN else FET_BYTES_READ) (512 * l.length)
  holdPort t c ((transfers s n l).filter (fun k => decide (k < 8))).length
/-- A row finds no free row of the overflow area: SPILL_AREA_FULL (06 R152). -/
def ovfFull (s : State) (c : Nat) : State :=
  faultCore s c stSpillAreaFull 31 0 0

/-! Long stalls (02 R32, R46). -/

/-- The time a stall took so far goes to the stall counters and to the resource's own counter. -/
def stallReg (scheduled : Bool) : Nat := if scheduled then CORE_STALL_SCHED_NS else CORE_STALL_UNSCHED_NS

/-- The cause of an overrun (02 R45; 10 R275): beyond the stream's allowance 1, else the lowest that its rows met. -/
def overrunCause (s : State) (c : Nat) (st : Stall) : Nat := match st.stream with
  | none => st.cause
  | some i =>
    let w := reg s (coreOff c (0x680 + 8 * i))
    if i < 16 ∧ bits w 63 32 < bits w 31 0 then 1 else st.cause
/-- An episode ends: one on a row that its schedule declares due is an overrun (02 R43, R45). -/
def endEpisode (s : State) (c : Nat) (st : Stall) : State :=
  if !st.scheduled then s else
  let d := now s - st.since
  let s := bumpCore (bumpCore s c CORE_OVR_COUNT 1) c CORE_OVR_NS d
  match (core s c).task with
  | none => s
  | some t =>
    let due := match (core s c).ovrLast with
      | none => true
      | some l => decide (l + objNat s 0x201401 * 1000 ≤ now s)
    if !t.ovrRaised || due then
      let n := overrunCause s c st
      let s := updCore s c (fun x => { x with ovrLast := some (now s), task := some { t with ovrRaised := true } })
      raise s (coreDie c) 0x201 1 t.strand c [t.slot, st.stream.getD 31, st.since, d, n]
    else s
/-- The stitch is taken: its rows are accepted, and every wait for one of them ends (02 R43). -/
def endStall (s : State) (c : Nat) : State :=
  each ((core s c).episodes ++ (core s c).stall.toList) (updCore s c (fun x => { x with stall := none, episodes := [] })) (fun s st => endEpisode s c st)
/-- What the core awaited has come: it waits no longer, and an episode on a row goes on to the stitch that accepts the row. -/
def endWait (s : State) (c : Nat) : State :=
  updCore s c (fun x => { x with stall := none, episodes := x.episodes ++ x.stall.toList.filter (fun st => st.stream.isSome) })
/-- A pass of the accumulator waits: an unscheduled stall (02 R44). -/
def passStall (s : State) (res : Nat) : Stall := { resource := res, stream := none, since := now s, scheduled := false }
/-- A core waits in a pass, and takes no stitch (02 R32; 06 R155, R160). -/
def passWait (x : Core) : Bool := match x.stall with
  | some st => st.resource == resBase || st.resource == resForeign
  | none => false

end Sys2Proof.Machine
end

