-- ==== Sys2Proof/Machine/Checks.lean ====
section
/-! DEFINITION. The issue checks of a core: Table: Issue checks for COMPUTE tasks (09 R239 to R243, R257) and Table: Copy
issue checks for COPY tasks (12 R319). Each answers the first refusal that it finds. -/

namespace Sys2Proof.Machine

/-- A refusal: the failing check, its status, and the SLOT, LEVEL and DETAIL that LOOP_LAST_REFUSE records. -/
structure Refuse where
  check : Nat
  status : Nat
  slot : Nat := 0
  level : Nat := 7
  detail : Nat := 0
  deriving DecidableEq, Repr

/-- A refusal when a condition holds. -/
def refuseIf (b : Bool) (r : Refuse) : Option Refuse := if b then some r else none
/-- The first refusal of a list. -/
def firstRefuse (l : List (Option Refuse)) : Option Refuse := l.findSome? id
/-- The first slot in use that meets a condition refuses. -/
def slotRefuse (t : List Nat) (check status : Nat) (bad : Nat → Bool) : Option Refuse :=
  ((slots t).find? bad).map (fun k => { check := check, status := status, slot := k })
/-- The first level in use that meets a condition refuses. -/
def levelRefuse (t : List Nat) (check status : Nat) (bad : Nat → Bool) : Option Refuse :=
  ((levels t).find? bad).map (fun n => { check := check, status := status, level := n })

/-! Geometry of a table at planned bounds. -/

/-- Operand A, and operand B or, of a gated first product, GATE. -/
def inA (t : List Nat) : Option Nat := slotWith t 1
def inB (t : List Nat) : Option Nat := (slotWith t 2).or (slotWith t 4)
/-- A compressed-row slot is not strided (R232). -/
def strided (t : List Nat) (k : Nat) : Bool := dKind (sLayout t k) != 1
/-- Strides of a slot at a level, 0 for a slot that is not strided. -/
def strideI (t : List Nat) (n k : Nat) : Int := if strided t k then lDti t n k else 0
def strideJ (t : List Nat) (n k : Nat) : Int := if strided t k then lDtj t n k else 0
def moves (t : List Nat) (n k : Nat) : Bool := strideI t n k != 0 || strideJ t n k != 0
/-- Iterations of a level that a slot's coordinate runs over at planned bounds: for SOURCE 1 the per-core share of the split level (R248). -/
def planCount (t : List Nat) (cores k n : Nat) : Nat :=
  if sSource t k = 1 ∧ hSplitLevel t = n then planShare t cores else lBound t n
/-- Lowest and highest tile coordinate of a slot over the planned bounds, from an origin and the strides of the levels (R232). -/
def coordRange (t : List Nat) (cores k : Nat) (origin : Nat) (f : Nat → Int) : Int × Int :=
  (levels t).foldl (fun r n =>
    let d := f n * ((planCount t cores k n : Int) - 1)
    if d < 0 then (r.1 + d, r.2) else (r.1, r.2 + d)) ((origin : Int), (origin : Int))
/-- Planned bounds are all at least 1: some point is reached. -/
def reachesAny (t : List Nat) : Bool := (levels t).all (fun n => lBound t n != 0)
/-- Element extents of a panel of a tiled or 2:4 slot: rows, logical columns. -/
def panelExt (t : List Nat) (o : Option Nat) : Option (Nat × Nat) := match o with
  | none => none
  | some k =>
    let d := sLayout t k
    if (dKind d == 0 || dKind d == 2) && fmtOk (dFmt d) then
      let r := tileH (dFmt d) * sPanelTr t k
      let c := tileW (dFmt d) * sPanelTc t k * (if dKind d = 2 then 2 else 1)
      some (if dTransposed d && dKind d == 2 then (c, r) else (r, c))
    else none
/-- Two extents that are both known and differ. -/
def differ (a b : Option Nat) : Bool := match a, b with
  | some x, some y => x != y
  | _, _ => false

/-! Checks 1 to 5 (R240, R257; R60, R74; R108, R539; R67, R113; R112, R137). -/

/-- The order fields over the levels in use are permutations (R233). -/
def ordersOk (t : List Nat) : Bool :=
  (List.range 4).all (fun k => (levels t).all (fun p => ((levels t).filter (fun n => lOrd t k n == p)).length == 1))
/-- A level lies in ORD_SPM outside another. -/
def outside (t : List Nat) (a b : Nat) : Bool := decide (lSpm t a < lSpm t b)

/-- The framing of a fused pair breaks R257. A role without a slot is R112's refusal (log entry 36). -/
def pairBad (t : List Nat) : Bool :=
  let shared := (levels t).filter (fun n => lProduct t n == 0)
  let rest := (levels t).filter (fun n => lProduct t n != 0)
  let bands := shared.filter (fun n => lRole t n == 2)
  let sp := hSpanLevel t
  shared.any (fun a => rest.any (fun b => !outside t a b))
    || bands.length != 1
    || (match slotWith t 1, bands.head? with
        | some a, some b => sPanelTr t a != 1 || strideI t b a != 1
        | _, _ => false)
    || (sp != 7 && lProduct t sp != 0)

/-- A shape register is named. -/
def namesShape (t : List Nat) : Bool :=
  (levels t).any (fun n => lShapeSel t n != 0) || (slots t).any (fun k => sHShape t k != 0 || sWShape t k != 0)

def check1 (cores active : Nat) (t : List Nat) : Option Refuse :=
  let st := stLoopInvalid
  let n := hLevels t
  let bad : Refuse := { check := 1, status := st }
  let claims := (levels t).filter (fun i => lRole t i == 1)
  let sp := hSpanLevel t
  let sl := hSplitLevel t
  let a := panelExt t (inA t)
  let b := panelExt t (inB t)
  let c := panelExt t (slotWith t 3)
  firstRefuse [
    refuseIf (bits (word t 0) 7 4 != 1 || n == 0 || decide (6 < n)) bad,
    refuseIf (sp != 7 && decide (n ≤ sp)) { bad with level := sp },
    refuseIf (sl != 7 && decide (n ≤ sl)) { bad with level := sl },
    refuseIf (!ordersOk t) bad,
    refuseIf (hOutMode t == 3) bad,
    refuseIf (hProEn t && (decide (1 < bits (hProOp t) 1 0) || bits (hProOp t) 3 2 == 3)) bad,
    levelRefuse t 1 st (fun i => lRole t i == 3 || lProduct t i == 3 || decide (16 < lShapeSel t i)),
    slotRefuse t 1 st (fun k => decide (9 < sRole t k) || decide (1 < sSource t k) || sHint t k == 3
      || decide (16 < sHShape t k) || decide (16 < sWShape t k)),
    slotRefuse t 1 st (fun k => sPanelTr t k == 0 || sPanelTc t k == 0),
    refuseIf (namesShape t && hShapeBase t == 0) bad,
    refuseIf (differ (a.map (·.1)) (c.map (·.1)) || differ (b.map (·.1)) (c.map (·.2)) || differ (a.map (·.2)) (b.map (·.2)))
      { bad with slot := (inA t).getD 0 },
    slotRefuse t 1 st (fun k => reachesAny t && strided t k
      && (decide ((coordRange t cores k (sOriginTi t k) (fun i => lDti t i k)).1 < 0)
          || decide ((coordRange t cores k (sOriginTj t k) (fun i => lDtj t i k)).1 < 0))),
    refuseIf (claims.length != (if claimsMode t then 1 else 0)) bad,
    levelRefuse t 1 st (fun i => lRole t i == 1 && (lReduce t i || (slots t).any (moves t i) || (sp != 7 && outside t i sp))),
    refuseIf (sl != 7 && (lReduce t sl || lRole t sl == 1)) { bad with level := sl },
    refuseIf (sp != 7 && ((sl != 7 && !outside t sp sl) || (levels t).any (fun i => lReduce t i && !outside t sp i)))
      { bad with level := sp },
    slotRefuse t 1 st (fun k => hOutMode t == 1 && isOut t k && dFmt (sLayout t k) != 1),
    refuseIf (decide (cPosEnd t < cPosFirst t)) bad,
    refuseIf (hWaitEn t && !bit active (hWaitCore t)) bad,
    refuseIf (hPair t && pairBad t) bad,
    levelRefuse t 1 st (fun i => !hPair t && lProduct t i != 0)]

/-- A conversion target (R74): a code of Table: Format codes that is an output of conversion. -/
def targetOk (w : Nat) : Bool := fmtOk (convFmt w) && !isPint (convFmt w)

def check2 (t : List Nat) : Option Refuse :=
  firstRefuse [
    slotRefuse t 2 stFormatUnsupported (fun k => !fmtOk (dFmt (sLayout t k))),
    refuseIf (!targetOk (hConv t) || (hPair t && !targetOk (hConv2 t))) { check := 2, status := stFormatUnsupported }]

/-- A condition of Table: Layout refusals, those of R109 left out for an empty tensor (R108). -/
def layoutBad (d : List Nat) : Bool :=
  let k := dKind d
  let c := dFmt d
  let empty := dEmpty d
  decide (3 < k)
  || (decide (k < 3) && (dValue d % 512 != 0 || (hasScale c && dScale d % 512 != 0)
        || (k != 0 && dAux0 d % 512 != 0) || (k == 1 && dAux1 d % 512 != 0)))
  || ((k == 0 || k == 2) && decide (2 ≤ dOuter d)
        && (dMatrixPitch d % 512 != 0 || (!empty && decide (dMatrixPitch d < matrixBytes d))))
  || (k == 1 && !empty && (decide (2 ≤ dOuter d) || (!dCiWide d && decide (65536 < dW d))))
  || (k == 2 && (c == 1 || (!empty && dW d % 4 != 0)))
  || (decide (k < 2) && dTransposed d)
  || (k == 3 && (isPlane c || dValue d % 64 != 0 || dRowPitch d % 64 != 0
        || (!empty && decide (dRowPitch d < dW d * fmtBytes c)) || (hasScale c && dScale d % 64 != 0)))

def check3 (t : List Nat) : Option Refuse :=
  firstRefuse [
    slotRefuse t 3 stLayoutInvalid (fun k => layoutBad (sLayout t k)),
    slotRefuse t 3 stLayoutInvalid (fun k => (sRole t k == 3 && dFmt (sLayout t k) != convFmt (hConv t))
      || (sRole t k == 7 && dFmt (sLayout t k) != convFmt (hConv2 t)))]

/-- Formats of an operand pair, none where a side is missing. -/
def pairBadFmt (t : List Nat) (a : Option Nat) (b : Option Nat) : Bool := match a, b with
  | some x, some y => pairRate8 x (dFmt (sLayout t y)) == 0
  | _, _ => false

def check4 (t : List Nat) : Option Refuse :=
  let st := stFormatPairUnsupported
  let a := (inA t).map (fun k => dFmt (sLayout t k))
  let one (r : Nat) : Option Refuse := match slotWith t r with
    | some k => refuseIf (pairBadFmt t a (some k)) { check := 4, status := st, slot := k }
    | none => none
  firstRefuse [
    one 2, one 4, one 5, if pEn t then one 8 else none,
    (match slotWith t 6 with
      | some k => refuseIf (hPair t && pairBadFmt t (some (convFmt (hConv t))) (some k)) { check := 4, status := st, slot := k }
      | none => none),
    slotRefuse t 4 st (fun k => claimsMode t && isPint (dFmt (sLayout t k)))]

/-- Kinds of the operands A and B that a lane mode takes (Table: Lane modes). -/
def kindsOk (mode a b : Nat) : Bool :=
  match mode with
  | 0 => a == 0 && b == 0
  | 1 => (a == 2 && b == 0) || (a == 0 && b == 2)
  | 2 => (a == 1 && b == 0) || (a == 0 && b == 1)
  | _ => a == 1 && b == 1

/-- Kinds of the other inputs: UP stands beside A as GATE does; B2 may be 2:4 in structured mode (log entry 66); P and Q are dense. -/
def otherKindsOk (t : List Nat) : Bool := (slots t).all (fun k =>
  let x := dKind (sLayout t k)
  if sRole t k = 5 then (match inA t with
    | some a => kindsOk (laneMode t) (dKind (sLayout t a)) x
    | none => true)
  else if sRole t k = 6 then x == 0 || (laneMode t == 1 && x == 2) else if [8, 9].contains (sRole t k) then x == 0 else true)
/-- Roles that a form reads or writes (R112). -/
def formRoles (t : List Nat) : List Nat := if hPair t then (if gated t then [1, 6, 7] else [1, 2, 6, 7]) else [1, 2, 3]

/-- Check 5 (05 R112). A fused pair in gather or match mode is refused too, as the tile steps of a pair have no form there (log entry 103). -/
def check5 (t : List Nat) : Option Refuse :=
  let st := stBalanceInvalid
  let bad : Refuse := { check := 5, status := st }
  firstRefuse [
    refuseIf ((formRoles t).any (fun r => ((slots t).filter (fun k => sRole t k == r)).length != 1)) bad,
    slotRefuse t 5 st (fun k => dKind (sLayout t k) == 3),
    (match inA t, inB t with
      | some a, some b => refuseIf (!kindsOk (laneMode t) (dKind (sLayout t a)) (dKind (sLayout t b))) { bad with slot := b }
      | _, _ => none),
    refuseIf (!otherKindsOk t) bad,
    refuseIf (hPair t && claimsMode t) bad,
    slotRefuse t 5 st (fun k => isOut t k && dKind (sLayout t k) == 2 && laneMode t != 0),
    refuseIf (claimsMode t && (decide (claimDepth t < 2 ∨ 8 < claimDepth t) || chunkLog t == 7)) bad]

/-! Checks 6 to 10. -/

/-- Rows of a slot's planned shape as a factor sees them, of one panel, and what a level's step moves them by: the transposed view of a 2:4
operand exchanges its axes (04 R105). -/
def viewH (t : List Nat) (k : Nat) : Nat := if isView t k then dW (sLayout t k) else dH (sLayout t k)
def viewRows (t : List Nat) (k : Nat) : Nat :=
  if isView t k then sPanelTc t k * tileW (dFmt (sLayout t k)) * 2 else sPanelTr t k * tileH (dFmt (sLayout t k))
def viewStep (t : List Nat) (n k : Nat) : Nat :=
  if isView t k then (strideJ t n k).natAbs * tileW (dFmt (sLayout t k)) * 2 else (strideI t n k).natAbs * tileH (dFmt (sLayout t k))
/-- Width of a fused intermediate for one iteration of the innermost shared level, at planned bounds (R173): the neurons of
GATE, the rows of B, or the keys of one slice under FN 3. -/
def fuseWidth (t : List Nat) : Nat := match (slotWith t 4).or (slotWith t 2) with
  | none => 0
  | some k =>
    if rFn t = 3 then
      min (viewH t k) ((levels t).foldl (fun e n => if lProduct t n = 1 then e + viewStep t n k * (lBound t n - 1) else e) (viewRows t k))
    else viewH t k

/-- Rows that FUSE_REGION needs (R173). -/
def fuseRows (t : List Nat) : Nat :=
  let c := convFmt (hConv t)
  2 * planes c * ceilDiv (fuseWidth t) (tileW c) + (if rFn t = 3 then 2 else 0)

def check6 (s : State) (c : Nat) (t : List Nat) : Option Refuse :=
  let bad : Refuse := { check := 6, status := stFusedPairInvalid }
  let fn := rFn t
  let g := slotWith t 4
  let u := slotWith t 5
  firstRefuse [
    refuseIf (decide (6 < fn)) bad,
    refuseIf (fn == 3 && !(hPair t && (levels t).any (fun n => lProduct t n == 2))) bad,
    refuseIf (gated t && (match g, u with
      | some a, some b =>
        let x := sLayout t a
        let y := sLayout t b
        dH x != dH y || dW x != dW y || dFmt x != dFmt y
      | _, _ => true)) bad,
    refuseIf (decide (fn < 4) && g.isSome && u.isSome) bad,
    refuseIf (hPair t && rFuseRegion t == rCompactRegion t) bad,
    refuseIf (hPair t && decide (regionLen s c 1 (rFuseRegion t) < fuseRows t)) { bad with detail := fuseRows t }]

def nonFinite (w : F32) : Bool := isNanF32 w || isInfF32 w
def negative (w : F32) : Bool := !isZeroF32 w && w.toNat.testBit 31

/-- Neurons of a block (R176). -/
def neuronBlock (t : List Nat) : Nat := match slotWith t 4 with
  | some g => if isPlane (dFmt (sLayout t g)) then 128 else 32
  | none => 32
/-- Neurons of a task: the rows of GATE. -/
def neurons (t : List Nat) : Nat := match slotWith t 4 with
  | some g => viewH t g
  | none => 0

def check7 (t : List Nat) : Option Refuse :=
  if !pEn t then none else
  let bad : Refuse := { check := 7, status := stPredictorInvalid }
  firstRefuse [
    refuseIf (decide (pAuditLog t < 4 ∨ 10 < pAuditLog t) || pWindow t == 0) bad,
    refuseIf ([pTheta t, pBandStep t, pBandMax t, pActEps t].any nonFinite) bad,
    refuseIf ([pBandStep t, pBandMax t, pActEps t].any negative) bad,
    refuseIf (pStateBase t % 64 != 0 || !gated t) bad,
    refuseIf (neurons t % neuronBlock t != 0) { bad with slot := (slotWith t 4).getD 0 }]

/-- Output rows and columns that the loop bounds allow: first and one past the last. -/
def outReach (t : List Nat) (cores k : Nat) : (Int × Int) × (Int × Int) :=
  let d := sLayout t k
  if dKind d = 1 then ((0, dH d), (0, dW d))
  else
    let r := coordRange t cores k (sOriginTi t k) (fun i => lDti t i k)
    let c := coordRange t cores k (sOriginTj t k) (fun i => lDtj t i k)
    let th : Int := tileH (dFmt d)
    let tw : Int := tileW (dFmt d) * (if dKind d = 2 then 2 else 1)
    ((r.1 * th, (r.2 + sPanelTr t k) * th), (c.1 * tw, (c.2 + sPanelTc t k) * tw))
/-- A reach leaves the 2^25 keys from an origin. -/
def reachBad (r : Int × Int) (base : Nat) : Bool := decide (r.1 < base ∨ (base : Int) + 2 ^ 25 < r.2)

def check8 (cores : Nat) (t : List Nat) : Option Refuse :=
  if !claimsMode t then none else
  let bad : Refuse := { check := 8, status := stAccConfigInvalid }
  firstRefuse [
    refuseIf (aSpillRegion t == aForeignRegion t) bad,
    refuseIf (aOvfBase t % 512 != 0 || aSummaryBase t % 512 != 0) bad,
    refuseIf (decide (aOvfRows t < 64)) bad,
    refuseIf (aEmitSummary t && laneMode t == 2) bad,
    (match slotWith t 3 with
      | some k =>
        let r := outReach t cores k
        refuseIf (reachesAny t && decide (r.1.1 < r.1.2 ∧ r.2.1 < r.2.2)
          && (reachBad r.1 (aRowBase t) || reachBad r.2 (aColBase t))) { bad with slot := k }
      | none => none)]

/-- A strand holds no seed for a stream (R83). -/
def streamUnset (s : State) (n stream : Nat) : Bool :=
  let w := strandWord s n 0
  !bit w 5 || decide (bits w 17 6 < stream)

def check9 (s : State) (n : Nat) (t : List Nat) : Option Refuse :=
  refuseIf ((convRound (hConv t) && streamUnset s n (convStream (hConv t)))
    || (hPair t && convRound (hConv2 t) && streamUnset s n (convStream (hConv2 t)))
    || (rDropEn t && streamUnset s n (rDropStream t))) { check := 9, status := stRngStreamUnset }

def check10 (s : State) (k n : Nat) (t : List Nat) : Option Refuse :=
  firstRefuse ((slots t).map (fun i =>
    let d := sLayout t i
    if dKind d != 2 then none else
    match tfind s.hst.masks (dMaskId d) with
    | none => some { check := 10, status := stMaskUnknown, slot := i }
    | some m => firstRefuse [
        refuseIf (m.strand != n || m.base != dAux0 d || m.h != dH d || m.w != dW d || m.fmt != dFmt d
          || (slotOf s k).freedMasks.contains (dMaskId d)) { check := 10, status := stMaskUnknown, slot := i },
        refuseIf (dTransposed d && !m.transposable) { check := 10, status := stMaskNotTransposable, slot := i }]))

/-! Checks 11 to 18. -/

def check11 (t shape : List Nat) : Option Refuse :=
  firstRefuse [
    ((levels t).find? (fun n => decide (lBound t n < bound t shape n))).map
      (fun n => { check := 11, status := stShapeExceedsPlan, level := n, detail := bound t shape n }),
    ((slots t).find? (fun k => decide (dH (sLayout t k) < runH t shape k))).map
      (fun k => { check := 11, status := stShapeExceedsPlan, slot := k, detail := runH t shape k }),
    ((slots t).find? (fun k => decide (dW (sLayout t k) < runW t shape k))).map
      (fun k => { check := 11, status := stShapeExceedsPlan, slot := k, detail := runW t shape k })]

/-- A region that a task may not name (R201). -/
def regionBad (s : State) (c : Nat) (p : Nat × Nat) : Bool :=
  p.1 == 3 || regionLen s c p.1 p.2 == 0 || decide (memRows p.1 < regionBase s c p.1 p.2 + regionLen s c p.1 p.2)
/-- A fill or copy range runs beyond its memory (R203). -/
def opRangeBad (op rows : Nat) : Bool :=
  rows != 0 && (decide (memRows (bits op 3 2) < bits op 25 6 + rows)
    || (bits op 1 0 == 1 && decide (memRows (bits op 3 2) < bits op 45 26 + rows)))

def check12 (s : State) (c : Nat) (t : List Nat) : Option Refuse :=
  refuseIf ((computeRegions t).any (regionBad s c) || (hProEn t && opRangeBad (hProOp t) (hProRows t)))
    { check := 12, status := stSpmRangeInvalid }

def check13 (s : State) (c : Nat) (l : List (Nat × Nat)) (check : Nat) : Option Refuse :=
  refuseIf (l.any (fun p => rangeDown s c p.1 (regionBase s c p.1 p.2) (regionLen s c p.1 p.2)))
    { check := check, status := stBankPoweredDown }

/-- m(L) of a slot (R241): 1 for a zero stride, the per-core share at the split level, BOUND otherwise. -/
def mult (t : List Nat) (cores k n : Nat) : Nat :=
  if !moves t n k then 1 else if hSplitLevel t = n then planShare t cores else lBound t n
/-- Footprint of a slot in rows (R241). -/
def footprint (t : List Nat) (cores k : Nat) : Nat :=
  ((levels t).filter (fun n => decide (hResSpm t ≤ lSpm t n))).foldl (fun r n => r * mult t cores k n)
    (sPanelTr t k * sPanelTc t k * planes (dFmt (sLayout t k)) * sBufs t k)

def check14 (s : State) (c cores : Nat) (t : List Nat) : Option Refuse :=
  ((slots t).find? (fun k => decide (regionLen s c (sMem t k) (sRegion t k) < footprint t cores k))).map
    (fun k => { check := 14, status := stSpmCapacity, slot := k, detail := footprint t cores k })

/-- Rows and width of the largest operand that a core's compaction stage may write (R170): token rows of the core's share,
of C or of A in a fused pair, by the output width. -/
def compactShape (t : List Nat) (cores : Nat) : Nat × Nat := match slotWith t (if hPair t then 1 else 3) with
  | none => (0, 0)
  | some k =>
    let d := sLayout t k
    let w := if hPair t then fuseWidth t else dW d
    let n := hSplitLevel t
    let step := if n = 7 then 0 else viewStep t n k
    if step = 0 then (viewH t k, w)
    else
      let ext := (levels t).foldl (fun e i => e + viewStep t i k * ((if i = n then planShare t cores else lBound t i) - 1)) (viewRows t k)
      (min (viewH t k) ext, w)
/-- Byte offsets of a compacted operand's arrays in its region, and its length (R169): row pointers, column indices, values,
scales, summary. -/
structure CompactMap where
  ci : Nat
  value : Nat
  scale : Nat
  summary : Nat
  len : Nat
  deriving DecidableEq, Repr
def compactMap (t : List Nat) (cores : Nat) : CompactMap :=
  let sh := compactShape t cores
  let c := convFmt (hConv t)
  let n := sh.1 * sh.2
  let ci := up512 (4 * (sh.1 + 1))
  let value := ci + up512 ((if sh.2 ≤ 65536 then 2 else 4) * n)
  let scale := value + (if isPlane c then ceilDiv n 4096 * planes c * 512 else up512 (n * fmtBytes c))
  let summary := scale + (if hasScale c then up512 (ceilDiv n 32) else 0)
  { ci := ci, value := value, scale := scale, summary := summary, len := summary + up512 (4 * (ceilDiv n 4096 + 1)) }
/-- The region that takes a task's compacted output (R169, R175). -/
def compactRegion (t : List Nat) : Nat := if hPair t then rFuseRegion t else rCompactRegion t

/-- Rows that the compaction stage needs: with the running maxima and sums after the arrays of a compacted softmax (R170, R173; log entry 83). -/
def compactNeed (t : List Nat) (cores : Nat) : Nat := (compactMap t cores).len / 512 + (if hPair t ∧ rFn t = 3 then 2 else 0)
def check15 (s : State) (c cores : Nat) (t : List Nat) : Option Refuse :=
  let need := compactNeed t cores
  refuseIf (rCompact t && decide (regionLen s c 1 (compactRegion t) < need))
    { check := 15, status := stCompactRegionShort, detail := need }

/-- Live accumulator rows (R242). -/
def liveRows (t : List Nat) (cores : Nat) : Nat := match slotWith t 3 with
  | none => 0
  | some k =>
    let reds := (levels t).filter (lReduce t)
    ((levels t).filter (fun n => !lReduce t n && reds.any (fun r => decide (lSpm t r < lSpm t n)))).foldl
      (fun r n => r * mult t cores k n)
      (ceilDiv (sPanelTr t k * sPanelTc t k * tileElems (dFmt (sLayout t k))) 128 * hAccBufs t)

def check16 (s : State) (c cores : Nat) (t : List Nat) : Option Refuse :=
  refuseIf (laneMode t != 3 && decide (regionLen s c 2 (hAccRegion t) < liveRows t cores))
    { check := 16, status := stAccCapacity, detail := liveRows t cores }

def check17 (t : List Nat) : Option Refuse :=
  refuseIf (claimsMode t && sSource t (cClaimSlot t) == 0 && decide (1048576 < cK t + 1)) { check := 17, status := stSummaryTooLarge }

/-- Insert by the second component, ties after (R243: ties in level order). -/
def insertBy (x : Nat × Nat × Nat) : List (Nat × Nat × Nat) → List (Nat × Nat × Nat)
  | [] => [x]
  | y :: l => if x.2.1 < y.2.1 then x :: y :: l else y :: insertBy x l
def sortBy (l : List (Nat × Nat × Nat)) : List (Nat × Nat × Nat) := l.foldl (fun a x => insertBy x a) []
/-- The nesting test of R243 and R309 over (level, |stride|, bound) in ascending order: the level that fails. -/
def nestFails : Nat → List (Nat × Nat × Nat) → Option Nat
  | _, [] => none
  | e, (n, d, b) :: l => if d < e then some n else nestFails (e + d * (b - 1)) l

/-- An output slot fails the test of R243: the level. A compressed-row output has no stride on either axis (R232). -/
def overlapLevel (t : List Nat) (k : Nat) : Option Nat :=
  let live := (levels t).filter (fun n => !lReduce t n && decide (2 ≤ lBound t n))
  let axis (f : Nat → Int) (p : Nat) : Option Nat :=
    nestFails p (sortBy ((live.filter (fun n => strided t k && f n != 0)).map (fun n => (n, (f n).natAbs, lBound t n))))
  ((axis (fun n => lDti t n k) (sPanelTr t k)).or (axis (fun n => lDtj t n k) (sPanelTc t k))).or
    (live.find? (fun n => !moves t n k))

def check18 (t : List Nat) : Option Refuse :=
  if hOutMode t != 0 then none else
  firstRefuse (((slots t).filter (isOut t)).map (fun k =>
    (overlapLevel t k).map (fun n => { check := 18, status := stSelfOverlapWrite, slot := k, level := n })))

/-- Table: Issue checks, in its order (R239). -/
def issueRefusal (s : State) (c : Nat) (t : CoreTask) : Option Refuse :=
  let w := t.table
  firstRefuse [check1 t.cores (slotOf s t.slot).activeAt w, check2 w, check3 w, check4 w, check5 w, check6 s c w, check7 w, check8 t.cores w, check9 s t.strand w,
    check10 s t.slot t.strand w, check11 w t.shape, check12 s c w, check13 s c (computeRegions w) 13, check14 s c t.cores w,
    check15 s c t.cores w, check16 s c t.cores w, check17 w, check18 w]

/-! Copy tasks (12 R319). -/

/-- The walk has elements; a gather or scatter has slices (R320). -/
def copyEmpty (w : List Nat) : Bool :=
  if kOp w = 0 then (List.range 4).any (fun i => kCount w i == 0) else kIndexCount w == 0 || kSliceW w == 0
/-- A side is tiled or 2:4. -/
def gridded (d : List Nat) : Bool := dKind d == 0 || dKind d == 2
/-- A side is moved array by array (R306). -/
def rawSide (d : List Nat) : Bool := dKind d == 1 || dKind d == 2
/-- The indexed tensor of a gather or scatter, and the other side (R311). -/
def indexed (w : List Nat) : List Nat := if kOp w = 1 then kSrc w else kDst w
def plainSide (w : List Nat) : List Nat := if kOp w = 1 then kDst w else kSrc w

def copy1 (active : Nat) (w : List Nat) : Bool :=
  bits (word w 0) 7 4 != 1 || kOp w == 3 || kMode w == 3
    || (kSrcLocal w && kSrcMem w == 3) || (kDstLocal w && kDstMem w == 3)
    || (kOp w != 0 && kIndexBase w % 64 != 0)
    || (kOp w == 0 && (List.range 4).any (fun i =>
        (dKind (kSrc w) == 3 && (kSrcStride w i).natAbs % orOne (fmtBytes (dFmt (kSrc w))) != 0)
        || (dKind (kDst w) == 3 && (kDstStride w i).natAbs % orOne (fmtBytes (dFmt (kDst w))) != 0)))
    || (kOp w == 0 && (gridded (kSrc w) || gridded (kDst w)) && kCount w 3 != 1)
    || (kWaitEn w && !bit active (kWaitCore w))

/-- A copy of whole arrays breaks R306. -/
def rawBad (w : List Nat) : Bool :=
  let a := kSrc w
  let b := kDst w
  (rawSide a || rawSide b) &&
    (dKind a != dKind b || dFmt a != dFmt b || dRpWide a != dRpWide b || dCiWide a != dCiWide b || dH a != dH b || dW a != dW b
      || kXpose w || kCount w 1 != 1 || kCount w 2 != 1 || kCount w 3 != 1)

def copy4 (w : List Nat) : Bool :=
  (isPint (dFmt (kDst w)) && !copyExact w)
    || (kOp w == 0 && rawBad w)
    || (kMode w == 1 && dFmt (kDst w) != 1)
    || (kXpose w && dKind (kDst w) != 0)
    || (!copyExact w && convFmt (kConv w) != dFmt (kDst w))
    || (kOp w != 0 && !(dKind (indexed w) == 0 || dKind (indexed w) == 3))
    || (kOp w != 0 && !(dKind (plainSide w) == 0 || dKind (plainSide w) == 3))

def copy5 (w : List Nat) : Bool :=
  if copyEmpty w then false
  else if kOp w = 0 then
    (!rawSide (kSrc w) && gridded (kSrc w)
        && (decide (dH (kSrc w) < kSrcI w + kCount w 1) || decide (dW (kSrc w) < kSrcJ w + kCount w 0)
            || decide (dOuter (kSrc w) < kCount w 2)))
    || (!rawSide (kDst w) && gridded (kDst w)
        && (decide (dH (kDst w) < kDstI w + (if kXpose w then kCount w 0 else kCount w 1))
            || decide (dW (kDst w) < kDstJ w + (if kXpose w then kCount w 1 else kCount w 0))
            || decide (dOuter (kDst w) < kCount w 2)))
  else
    decide (dW (kSrc w) < kSrcJ w + kSliceW w) || decide (dW (kDst w) < kDstJ w + kSliceW w)
      || (gridded (plainSide w)
          && decide (dH (plainSide w) < (if kOp w = 1 then kDstI w else kSrcI w) + kIndexCount w))

/-- The destination walk of a linear destination fails the nesting test (R309), or a scatter is exclusive (R315). -/
def copy9 (w : List Nat) : Bool :=
  kMode w == 0 && (kOp w == 2 || (kOp w == 0 && dKind (kDst w) == 3 &&
    (let live := (List.range 4).filter (fun i => decide (2 ≤ kCount w i))
     live.any (fun i => kDstStride w i == 0)
       || (nestFails (fmtBytes (dFmt (kDst w)))
            (sortBy ((live.filter (fun i => kDstStride w i != 0)).map
              (fun i => (i, (kDstStride w i).natAbs, kCount w i))))).isSome)))

/-- Table: Copy issue checks, in its order. -/
def copyRefusal (s : State) (c : Nat) (t : CoreTask) : Option Refuse :=
  let w := t.table
  firstRefuse [
    refuseIf (copy1 (slotOf s t.slot).activeAt w) { check := 1, status := stCopyInvalid },
    refuseIf (!fmtOk (dFmt (kSrc w)) || !fmtOk (dFmt (kDst w)) || (!copyExact w && !targetOk (kConv w)))
      { check := 2, status := stFormatUnsupported },
    refuseIf (layoutBad (kSrc w) || layoutBad (kDst w)) { check := 3, status := stLayoutInvalid },
    refuseIf (copy4 w) { check := 4, status := stCopyInvalid },
    refuseIf (copy5 w) { check := 5, status := stCopyInvalid },
    refuseIf ((copyRegions w).any (regionBad s c)) { check := 6, status := stSpmRangeInvalid },
    check13 s c (copyRegions w) 7,
    refuseIf (!copyExact w && convRound (kConv w) && streamUnset s t.strand (convStream (kConv w)))
      { check := 8, status := stRngStreamUnset },
    refuseIf (copy9 w) { check := 9, status := stSelfOverlapWrite }]

end Sys2Proof.Machine
end

