-- ==== Sys2Proof/Machine/Sha.lean ====
section
/-! DEFINITION. SHA-384 of octets (19 R482, 20 R496), its constants computed as FIPS 180-4 defines them: the first 64
bits of the fractional parts of square and cube roots of primes. -/

namespace Sys2Proof.Machine

/-- The primes below n, by trial division. -/
def primesBelow (n : Nat) : List Nat :=
  (List.range n).filter (fun p => decide (2 ≤ p) && (List.range p).all (fun d => decide (d < 2) || p % d != 0))

/-- floor of the k-th root of x, x below 2^(70 k). -/
def rootOf (k x : Nat) : Nat :=
  (List.range 70).foldl (fun r i => let c := r + 2 ^ (69 - i)
    if c ^ k ≤ x then c else r) 0

/-- Round constants: cube roots of the first 80 primes. -/
def shaK : List Nat := (primesBelow 410).map (fun p => rootOf 3 (p * 2 ^ 192) % 2 ^ 64)
/-- The first hash value: square roots of the ninth to sixteenth primes. -/
def shaH0 : List Nat := ((primesBelow 54).drop 8).map (fun p => rootOf 2 (p * 2 ^ 128) % 2 ^ 64)

def rotr (n x : Nat) : Nat := x / 2 ^ n + x % 2 ^ n * 2 ^ (64 - n)

/-- The 80 words of a block's schedule, newest first, from its 16 words newest first. -/
def shaSchedule : Nat → List Nat → List Nat
  | 0, w => w
  | n + 1, w =>
    let a := w.getD 14 0
    let b := w.getD 1 0
    let s0 := rotr 1 a ^^^ rotr 8 a ^^^ a / 2 ^ 7
    let s1 := rotr 19 b ^^^ rotr 61 b ^^^ b / 2 ^ 6
    shaSchedule n (((w.getD 15 0 + s0 + w.getD 6 0 + s1) % 2 ^ 64) :: w)

/-- One round on the eight working variables. -/
def shaRound (v : List Nat) (kw : Nat × Nat) : List Nat :=
  let x (i : Nat) := v.getD i 0
  let s1 := rotr 14 (x 4) ^^^ rotr 18 (x 4) ^^^ rotr 41 (x 4)
  let ch := (x 4 &&& x 5) ^^^ ((2 ^ 64 - 1 - x 4) &&& x 6)
  let t1 := x 7 + s1 + ch + kw.1 + kw.2
  let s0 := rotr 28 (x 0) ^^^ rotr 34 (x 0) ^^^ rotr 39 (x 0)
  let maj := (x 0 &&& x 1) ^^^ (x 0 &&& x 2) ^^^ (x 1 &&& x 2)
  [(t1 + s0 + maj) % 2 ^ 64, x 0, x 1, x 2, (x 3 + t1) % 2 ^ 64, x 4, x 5, x 6]

/-- One block of 16 words. -/
def shaBlock (h w : List Nat) : List Nat :=
  let v := (shaK.zip (shaSchedule 64 w.reverse).reverse).foldl shaRound h
  (h.zip v).map (fun p => (p.1 + p.2) % 2 ^ 64)

/-- Big-endian number of octets, and octets of a number. -/
def beNat (l : List Byte) : Nat := l.foldl (fun n b => 256 * n + b.toNat) 0
def beBytes (n v : Nat) : List Byte := (List.range n).map (fun i => BitVec.ofNat 8 (v / 256 ^ (n - 1 - i)))

/-- The padded message. -/
def shaPad (l : List Byte) : List Byte :=
  let z := (128 - (l.length + 17) % 128) % 128
  l ++ [0x80#8] ++ List.replicate z 0#8 ++ beBytes 16 (8 * l.length)

/-- SHA-384. -/
def sha384 (l : List Byte) : List Byte :=
  let p := shaPad l
  let blocks := (List.range (p.length / 128)).map (fun b => (List.range 16).map (fun i => beNat ((p.drop (128 * b + 8 * i)).take 8)))
  ((blocks.foldl shaBlock shaH0).take 6).flatMap (beBytes 8)

end Sys2Proof.Machine
end

