-- ==== Sys2Proof/Machine/Digest.lean ====
section
/-! DEFINITION. The configuration digest (19 R482). -/

namespace Sys2Proof.Machine

/-- Objects of a device of its own, which the digest leaves out. -/
def deviceLocal (k : Nat) : Bool := [0x100202, 0x500101, 0x501002, 0x502001, 0x503001].contains k
/-- The canonical encoding of the RWS objects, their values taken from f. -/
def canonical (f : Nat → List Byte) : List Byte :=
  (objects.filter (fun o => decide (o.access = .rws) && !deviceLocal o.key)).flatMap (fun o =>
    let v := f o.key
    leBytes 2 (o.key / 256) ++ leBytes 1 o.key ++ leBytes 1 o.type ++ leBytes 2 v.length ++ v)
/-- The digest in force, 0x1020:05. -/
def configDigest (s : State) : List Byte := sha384 (canonical (objBytes s))
/-- A staged value, or the one in force. -/
def stagedBytes (s : State) (k : Nat) : List Byte := (tfind s.dict.staged (aliasKey k)).getD (objBytes s k)
/-- The digest that the staging set would give, 0x1020:06. -/
def stagedDigest (s : State) : List Byte := sha384 (canonical (stagedBytes s))

end Sys2Proof.Machine
end

