-- ==== Sys2Proof/Machine/NetOps.lean ====
section
/-! DEFINITION. The package's connections and routes, fencing, and device loss (01 R16, R17; 14 R349 to R363). -/

namespace Sys2Proof.Machine

/-! Connections (01 R16, 14 R352): ports 1 north, 2 east, 3 south, 4 west, 5 ring attachment A. -/

/-- The ring die attached to a mesh die (01 R16). -/
def ringOf (d : Nat) : Option Nat :=
  let x := d % 10
  let y := d / 10
  if x = 0 then some (80 + y / 2) else if x = 9 then some (84 + y / 2)
  else if y = 7 then (match x with
    | 1 => some 88 | 4 => some 89 | 5 => some 90 | 8 => some 91 | 3 => some 96 | 6 => some 97
    | _ => none)
  else if y = 0 then (match x with
    | 1 => some 92 | 4 => some 93 | 5 => some 94 | 8 => some 95 | 3 => some 98 | 6 => some 99
    | _ => none)
  else none

/-- The die at the far end of port p of mesh die d. -/
def neighbour (d p : Nat) : Option Nat :=
  let x := d % 10
  let y := d / 10
  match p with
  | 1 => if y < 7 then some (d + 10) else none
  | 2 => if x < 9 then some (d + 1) else none
  | 3 => if 0 < y then some (d - 10) else none
  | 4 => if 0 < x then some (d - 1) else none
  | 5 => ringOf d
  | _ => none

/-- The key of a connection: its southern, western or mesh end. -/
def connKey (d p : Nat) : Nat := if p = 3 then (d - 10) * 8 + 1 else if p = 4 then (d - 1) * 8 + 2 else d * 8 + p

def routerFenced (s : State) (d : Nat) : Bool := s.pkg.routersFenced.contains d
/-- A port of a mesh die is up (14 MGT_RTR_STATUS). -/
def portUp (s : State) (d p : Nat) : Bool := match neighbour d p with
  | none => p == 0 && !routerFenced s d
  | some e => !routerFenced s d && !routerFenced s e && !dieFailed s e && !s.pkg.connDown.contains (connKey d p)
def portDegraded (s : State) (d p : Nat) : Bool :=
  (neighbour d p).isSome && tget 0 s.pkg.modulesFailed (connKey d p) == 1

/-! Routes (14 R352, R360, R361). -/

/-- Nearest column or row of a ring die's attachment, seen from mesh die d: the attached mesh die (14 R352). -/
def attachment (dst d : Nat) : Nat :=
  if dst < 80 then dst
  else if dst < 84 then (let a := (dst - 80) * 20
    if d / 10 ≤ a / 10 then a else a + 10)
  else if dst < 88 then (let a := (dst - 84) * 20 + 9
    if d / 10 ≤ a / 10 then a else a + 10)
  else ((List.range 80).find? (fun m => ringOf m == some dst)).getD 0

/-- Fault-free entry: X first, then Y, on VC0; 0 local, 5 at the attachment (14 R352). -/
def faultFree (d dst : Nat) : Nat :=
  let a := attachment dst d
  if a % 10 < d % 10 then 4 else if d % 10 < a % 10 then 2
  else if a / 10 < d / 10 then 3 else if d / 10 < a / 10 then 1
  else if dst < 80 then 0 else 5

/-- Route entry of router d for a destination: PORT in [2:0], VC1 in [3]; the entries for a fenced core's die are 7 on the
bulk network (14 R360 step 5). -/
def routeEntry (s : State) (chainNet : Bool) (d dst : Nat) : Nat :=
  let dead := match dieCore dst with
    | some c => bit s.pkg.fenced c
    | none => false
  if !chainNet && dead then 7
  else match tfind s.pkg.routes ((b2n chainNet * 128 + d) * 128 + dst) with
    | some e => e
    | none => faultFree d dst

/-- No entry of an unfenced router leads into a connection that is down: a rewrite is complete (14 R361). -/
def routesClean (s : State) : Bool :=
  (List.range 80).all (fun d => routerFenced s d || (List.range 100).all (fun dst => [false, true].all (fun n =>
    let p := routeEntry s n d dst % 8
    p == 0 || p == 7 || portUp s d p)))

/-- Mesh dies reached from a set over connections that are up. -/
def reachFrom (s : State) : Nat → List Nat → List Nat
  | 0, l => l
  | n + 1, l => reachFrom s n ((l ++ l.flatMap (fun d => (List.range 5).filterMap (fun p =>
      if portUp s d p then neighbour d p else none))).eraseDups)

/-- A rewrite would leave an active core or a cache die unreachable from another (14 R362). -/
def meshSplit (s : State) : Bool :=
  let live := (List.range 80).filter (fun d => !routerFenced s d)
  match live with
  | [] => true
  | d :: _ =>
    let r := reachFrom s 18 [d]
    live.any (fun e => !r.contains e && ((dieCore e).map (coreActive s)).getD true)

/-! What the package records of its dies and connections. Fenced cores and routers stay so (00 R4, 11 R290); failed dies come back at cast-on
(01 R17). -/

def updPkg (s : State) (f : Package → Package) : State := { s with pkg := f s.pkg }
def markLost (p : Package) : Package := { p with deviceLost := true }
def markFailed (die : Nat) (p : Package) : Package := { p with failedDies := p.failedDies ++ [die] }
def markFenced (c : Nat) (p : Package) : Package := { p with fenced := p.fenced ||| 2 ^ c }
def markRouter (d : Nat) (p : Package) : Package := { p with routersFenced := p.routersFenced ++ [d] }
def markDown (k : Nat) (p : Package) : Package := { p with connDown := p.connDown ++ [k] }
def markModule (k n : Nat) (p : Package) : Package := { p with modulesFailed := tset p.modulesFailed k n }
def markRewrite (p : Package) : Package := { p with routeEpoch := (p.routeEpoch + 1) % 2 ^ 32, rewriting := true }
def markRoutes (t : Tab Nat) (p : Package) : Package := { p with routes := t }
def markRewritten (p : Package) : Package := { p with rewriting := false }
def markBooted (p : Package) : Package := { p with failedDies := [] }

/-- Every connection of a ring die is down or attached to a fenced router (01 R17, 14 R362). -/
def ringCut (s : State) (die : Nat) : Bool :=
  (List.range 80).all (fun d => ringOf d != some die || routerFenced s d || s.pkg.connDown.contains (connKey d 5))

/-- The device is lost (14 R362). -/
def loseDevice (s : State) : State := updPkg s markLost

/-- A Limund port goes DOWN; LIMUND_PORT_DOWN follows with its messages (15 R367). -/
def portToDown (s : State) (p : Nat) : State := updPort s p (fun x => { x with state := 0, since := now s, gen := 0, width := 0, attempt := 0 })

/-- What a failed ring die takes with it (01 R17), and the event. -/
def ringLost (s : State) (die : Nat) : State :=
  let s := raise s mgtDie 0x101 3 0 0 [die]
  if 88 ≤ die ∧ die < 96 then portToDown (portToDown s (2 * (die - 88))) (2 * (die - 88) + 1)
  else if 96 ≤ die ∧ die < 98 then
    updFar (updFar s (2 * (die - 96)) (fun x => { x with link := 0, memActive := false })) (2 * (die - 96) + 1)
      (fun x => { x with link := 0, memActive := false })
  else if 98 ≤ die then loseDevice s
  else s
/-- A ring die fails or is cut off (01 R17). -/
def failRing (s : State) (die : Nat) : State := if dieFailed s die then s else ringLost (updPkg s (markFailed die)) die

/-- Ring dies that are cut off are lost (14 R362). -/
def failCut (s : State) : State :=
  each ((List.range 20).map (80 + ·)) s (fun s die => if ringCut s die then failRing s die else s)

/-- New tables are needed: ROUTE_EPOCH rises and REWRITING is 1 until they are in place; a split is a device loss. -/
def rewriteRoutes (s : State) : State :=
  let s := failCut s
  if meshSplit s then loseDevice s
  else updPkg s markRewrite

/-! Core fences (14 R359, R360; 00 R5, R6). -/

/-- Guaranteed active cores of an order number (00). -/
def guaranteed : Nat := if Config.orderCode = 1 then 60 else if Config.orderCode = 2 then 48 else 32
/-- 0x1001:05 (00 R6). -/
def belowGuarantee (s : State) : Bool := decide (activeCount s < guaranteed)

/-- What the loss of a core does to the device: tasks, queues, events (14 R360 steps 3 to 5; 11 R290). -/
def coreLost (s : State) (c : Nat) (was : Bool) : State :=
  let s := each ((busySlots s).filter (fun k => bit (slotOf s k).mask c)) s (fun s k => endTask s k stCoreFenced hstDie (some c) false)
  let s := each ((List.range 32).map (fun n => c * 32 + n)) s (fun s q => if (queue s q).enabled then dropQueue s q else s)
  let s := withdrawOf s c true
  let s := each ((s.lifelines.filter (fun p => p.2.role == 1)).map (·.1)) s (fun s n => updLifeline s n (fun x => { x with failures := x.failures + 1 }))
  let s := raise s mgtDie 0x602 2 0 c [c]
  let s := if belowGuarantee s && !was then raise s mgtDie 0xA01 2 0 c [activeCount s] else s
  if activeCount s = 0 then loseDevice s else s
/-- What a core fence does: the core leaves the mask for good (14 R360). -/
def fenceEffects (s : State) (c : Nat) : State := if !coreActive s c then s else coreLost (updPkg s (markFenced c)) c (belowGuarantee s)

/-- The management die fences an active core: FENCE goes to its die, and the fence proceeds. -/
def fenceCore (s : State) (c : Nat) : State :=
  if !coreActive s c then s else
  fenceEffects (sendChain s mgtDie (coreDie c) (.fence (coreDie c) 1 (s.pkg.routeEpoch % 65536))) c

/-- Software writes a core number to 0x4010:04 (14 R359, 19 R468): the last active core is not fenced; one that is not active stays as it
is. -/
def fenceRequest (s : State) (c : Nat) : Nat × State :=
  if !stageDone s 4 then (stNotReady, s)
  else if 64 ≤ c ∨ (activeCount s = 1 ∧ coreActive s c = true) then (stValueOutOfRange, s)
  else (0, fenceCore s c)

/-- FENCE at the core's die: the core stops; its scratchpad contents, windows, tags and accumulator are lost (14 R360 step
2, 08 R216), and the regions of its task return to their entry marks (01 R30). -/
def haltCore (s : State) (c : Nat) : State :=
  let s := match (core s c).task with
    | some t => rollTask s c (if t.phase ≤ 2 then [] else taskRegions t)
    | none => s
  let s := { s with mem := mclear s.mem (0x100000000000 + c * 0x100000000) (0x100000000000 + (c + 1) * 0x100000000) }
  let s := each (List.range 64) s (fun s w => setField s (windowOff c w 0) 1 0 0)
  updCore s c (fun x => { x.abandoned with halted := true, tags := [], draining := none, doneOwed := false, gb := [], badRows := [], op := none,
                                           bankReq := none, windowTask := [] })

/-! Router fences (14 R359, R361). -/

/-- What a fenced router takes with it: its core; a cache die's is a device loss. -/
def routerLost (s : State) (d : Nat) : State :=
  let s := raise s mgtDie 0x603 2 0 ((dieCore d).getD 0) [d]
  let s := sendChain s mgtDie d (.fence d 2 (s.pkg.routeEpoch % 65536))
  match dieCore d with
  | some c => rewriteRoutes (fenceCore s c)
  | none => loseDevice s
/-- The management die fences a router. -/
def fenceRouter (s : State) (d : Nat) : State := if routerFenced s d then s else routerLost (updPkg s (markRouter d)) d

/-- A router whose every bulk connection is down is fenced (14 R359). -/
def fenceIfCut (s : State) (m : Nat) : State :=
  if m < 80 ∧ (List.range 6).all (fun q => q == 0 || !portUp s m q) then fenceRouter s m else s
/-- A connection goes down (14 R350, R359). -/
def connFail (s : State) (d p : Nat) : State := match neighbour d p with
  | none => s
  | some e =>
    if s.pkg.connDown.contains (connKey d p) then s
    else fenceIfCut (fenceIfCut (rewriteRoutes (updPkg s (markDown (connKey d p)))) d) e

end Sys2Proof.Machine
end

