-- ==== Sys2Proof/Machine/TierOps.lean ====
section
/-! DEFINITION. The shared cache and the tiers behind it: fills, hints, corrections, poison, and what reads and writes of a line meet (09
R249; 13 R324 to R344; 10 R273, R274). -/

namespace Sys2Proof.Machine

abbrev lineOf (a : Nat) : Nat := a / 512 * 512
def bumpMif (s : State) (a off n : Nat) : State := bump s (mifOff (stackOf a) off) n

/-! Poison (R337). -/

/-- A line enters its MIF's poison list; a full list fails the MIF die. -/
def listPoison (s : State) (l : Nat) : State :=
  let k := stackOf l
  if (stack s k).poison.contains l then s
  else if 65536 ≤ (stack s k).poison.length then failRing s (mifDie k)
  else updStack s k (fun x => { x with poison := l :: x.poison })
/-- A write of a whole line clears its poison wherever it is kept. -/
def clearPoison (s : State) (l : Nat) : State :=
  let s := { s with cache := { s.cache with poisoned := s.cache.poisoned.filter (· != l), farPoison := s.cache.farPoison.filter (· != l) } }
  updStack s (stackOf l) (fun x => { x with poison := x.poison.filter (· != l) })

/-! Residency (09 R249; 13 R342). -/

/-- A line leaves its slice; a poisoned one takes its poison to its tier. -/
def evictLine (s : State) (l : Nat) : State :=
  let bad := s.cache.poisoned.contains l
  let s := { s with cache := { s.cache with
    resident := s.cache.resident.filter (· != l), dirty := s.cache.dirty.filter (· != l), streamed := s.cache.streamed.filter (· != l),
    retained := s.cache.retained.filter (fun p => p.1 != l), poisoned := s.cache.poisoned.filter (· != l),
    evicted := if s.cache.evicted.contains l then s.cache.evicted else l :: s.cache.evicted,
    farPoison := if bad && !isNear l then l :: s.cache.farPoison else s.cache.farPoison } }
  if bad && isNear l then listPoison s l else s
/-- Two lines compete for the ways of a set: 16 slices of 65,536 sets (R342); which set a line has is open (log entry 79). -/
def sameSet (a b : Nat) : Bool := homeSlice a == homeSlice b && Config.cacheSet a % 65536 == Config.cacheSet b % 65536
def isRetained (s : State) (l : Nat) : Bool := s.cache.retained.any (fun p => p.1 == l)
/-- A fill into a set of 16 lines evicts one: a streamed line first, a retained line last (09 R249); which one of those is the slice's
choice, a free value. -/
def makeRoom (s : State) (l : Nat) : State :=
  let set := s.cache.resident.filter (sameSet l)
  if set.length < 16 then s
  else
    let free := set.filter (fun x => !isRetained s x)
    let first := free.filter (fun x => s.cache.streamed.contains x)
    let cands := if !first.isEmpty then first else if !free.isEmpty then free else set
    let r := freshFree s
    match cands[r.1 % cands.length]? with
    | some x => evictLine r.2 x
    | none => r.2
/-- A line becomes resident; a miss is one fill, and a refill where the slice evicted the line earlier in the same window (19 R491). -/
def touchLine (s : State) (l : Nat) : State :=
  if s.cache.resident.contains l then s
  else
    let s := makeRoom s l
    { s with cache := { s.cache with resident := l :: s.cache.resident, fills := s.cache.fills + 1, refills := s.cache.refills + b2n (s.cache.evicted.contains l) } }
/-- The hint of the slot whose read filled a line: 1 retain, while its set retains fewer than 8 lines; 2 stream. -/
def hintLine (s : State) (l hint slot : Nat) : State :=
  if hint = 1 then
    (if isRetained s l || decide (8 ≤ (s.cache.retained.filter (fun p => sameSet l p.1)).length) then s
     else { s with cache := { s.cache with retained := (l, slot) :: s.cache.retained } })
  else if hint = 2 then { s with cache := { s.cache with streamed := if s.cache.streamed.contains l then s.cache.streamed else l :: s.cache.streamed } }
  else s

/-! Reads (R329, R330, R332, R335). -/

/-- An uncorrectable read at a MIF die is counted and recorded. -/
def uncorrectable (s : State) (a kind : Nat) : State :=
  let s := bumpMif s a MIF_UNCORR_COUNT 1
  if kind = 0 then s else setReg s (mifOff (stackOf a) MIF_LAST_ERROR) (kind + channelOf a * 2 ^ 2 + bits a 48 9 * 2 ^ 9)
/-- CRC retries of a read are counted, and their times kept for the channel (R331). -/
def crcRetries (s : State) (a n : Nat) : State :=
  let ch := channelOf a
  let note (x : Stack) : Stack := { x with crcTimes := tset x.crcTimes ch ((List.replicate n (now s) ++ tget [] x.crcTimes ch).take 16) }
  bumpMif (if n = 0 then s else updStack s (stackOf a) note) a MIF_CRC_RETRY_COUNT n
/-- A read of a line from the near tier: a status. -/
def readMif (s : State) (a : Nat) (o : ReadOutcome) : State × Nat :=
  let k := stackOf a
  if stackFailed s k || (stack s k).poison.contains (lineOf a) then (uncorrectable s a 0, stTierUncorrectable)
  else
    let got (s : State) : State × Nat := (bumpMif s a MIF_BYTES_READ 512, stSuccess)
    match o with
    | .ok n => got (crcRetries s a n)
    | .crcExhausted => (uncorrectable (crcRetries s a 3) a 1, stTierUncorrectable)
    | .odeccCorrected => got (bumpMif s a MIF_ODECC_CORR_COUNT 1)
    | .odeccUncorrectable => (uncorrectable s a 2, stTierUncorrectable)
    | _ => got s
/-- An access beyond an expander's capacity or to a port that is down. -/
def farOut (s : State) (a : Nat) : Bool := !farUp s (farPortOf a) || decide ((far s (farPortOf a)).capacity * 2 ^ 30 ≤ a % 0x10000000000)
/-- A read of a line from the far tier. -/
def readFar (s : State) (a : Nat) (o : ReadOutcome) : State × Nat :=
  let p := farPortOf a
  if farOut s a then (bump s (farOff p FAR_OOR_COUNT) 1, stTierUncorrectable)
  else if o = .farPoison ∨ s.cache.farPoison.contains (lineOf a) then (bump s (farOff p FAR_POISON_COUNT) 1, stTierUncorrectable)
  else (bump s (farOff p FAR_BYTES_READ) 512, stSuccess)
/-- A read that misses its slice; a good line becomes resident. -/
def readMiss (s : State) (a : Nat) (o : ReadOutcome) : State × Nat :=
  let r := if isNear a then readMif s a o else readFar s a o
  if r.2 = stSuccess then (touchLine r.1 (lineOf a), stSuccess) else r
/-- A read at the home slice (R337, R342; 01 R17): of a failed stack nothing is read, a resident line may need a correction, or hold a double-bit error. -/
def readLine (s : State) (a : Nat) (o : ReadOutcome) : State × Nat :=
  let l := lineOf a
  if isNear a && stackFailed s (stackOf a) then (uncorrectable s a 0, stTierUncorrectable)
  else if s.cache.poisoned.contains l then (s, stTierUncorrectable)
  else if !s.cache.resident.contains l then readMiss s a o
  else match o with
    | .secdedCorrected => ({ s with cache := { s.cache with secded := s.cache.secded + 1 } }, stSuccess)
    | .secdedDouble =>
      let s := { s with cache := { s.cache with double := s.cache.double + 1 } }
      if s.cache.dirty.contains l then ({ s with cache := { s.cache with poisoned := l :: s.cache.poisoned } }, stTierUncorrectable)
      else readMiss (evictLine s l) a (.ok 0)
    | _ => (s, stSuccess)

/-! Bias (R344). -/

def hostBias (s : State) (a : Nat) : Bool := isNear a && s.cache.hostBias.contains (a / 2 ^ 21)
/-- A device access to a page in host bias asks the host first. -/
def askHost (s : State) (a : Nat) (write : Bool) : State :=
  if hostBias s a then emit s (.cxlCache (if write then "RdOwnNoData" else "RdCurr") a []) else s

/-! Writes. -/

/-- A line of the near tier that cannot be written any more is poisoned, with an event (R329). -/
def crcLost (s : State) (a : Nat) : State :=
  let s := if s.cache.poisoned.contains (lineOf a) then s else { s with cache := { s.cache with poisoned := lineOf a :: s.cache.poisoned } }
  raise s (mifDie (stackOf a)) 0x501 2 0 0 [stackOf a, channelOf a, a]
/-- Write CRC resends of a near-tier line: how many, and whether the third failed. -/
def writeCrc (s : State) (a : Nat) (o : WriteOutcome) : State := match o with
  | .ok n => bumpMif s a MIF_WRITE_CRC_COUNT n
  | .crcExhausted => crcLost (bumpMif s a MIF_WRITE_CRC_COUNT 3) a
def resends : WriteOutcome → Nat
  | .ok n => n
  | .crcExhausted => 3
/-- Bytes written at the home slice: the line is resident and dirty, and a whole line's write clears poison. A status. -/
def writeLine (s : State) (a : Nat) (data : List Byte) (o : WriteOutcome) : State × Nat :=
  let l := lineOf a
  let whole := data.length == 512 && a % 512 == 0
  if isNear a && stackFailed s (stackOf a) then (uncorrectable s a 0, stTierUncorrectable)
  else if !isNear a && farOut s a then (bump s (farOff (farPortOf a) FAR_OOR_COUNT) 1, stTierUncorrectable)
  else
    let s := if whole then clearPoison s l else s
    let s := touchLine s l
    let s := { s with cache := { s.cache with dirty := if s.cache.dirty.contains l then s.cache.dirty else l :: s.cache.dirty } }
    let s := wrBytes s a data
    if isNear a then (writeCrc (bumpMif s a MIF_BYTES_WRITTEN data.length) a o, stSuccess)
    else (bump s (farOff (farPortOf a) FAR_BYTES_WRITTEN) data.length, stSuccess)

/-! Accesses of a core through the home slices (01 R22, R24; R342), line by line. -/

/-- A write of bytes of one line: a part of a line that is not resident is read first. -/
def sliceWrite (s : State) (a : Nat) (data : List Byte) (o : WriteOutcome) : State × Nat :=
  let s := askHost s a true
  let r := if (data.length == 512 && a % 512 == 0) || s.cache.resident.contains (lineOf a) then (s, stSuccess) else readMiss s a (.ok 0)
  if r.2 = stSuccess then writeLine r.1 a data o else r
def sliceRead (s : State) (a : Nat) : State × Nat := readLine (askHost s a false) a (.ok 0)
/-- n bytes from an address on, cut at the lines: address and bytes. -/
def linePieces (a n : Nat) : List (Nat × Nat) :=
  if n = 0 then []
  else (List.range ((a + n - 1) / 512 - a / 512 + 1)).map (fun i =>
    (max a ((a / 512 + i) * 512), min (a + n) ((a / 512 + i + 1) * 512) - max a ((a / 512 + i) * 512)))
/-- A register of the mirror is written by a die (13 R324; 14 R354; 16 R408): of BAR0 a register write over the bulk network, of BAR2 a
doorbell over the chain. -/
def mirrorWord (s : State) (die a v : Nat) : State :=
  let off := a - 0x200000000000
  if off < 0x4000000 then sendBulk s die (ownerDie off) .regWrite 0 off 0 (leBytes 8 v)
  else if off % 0x1000 = 0 ∨ off % 0x1000 = 8 then sendChain s die hstDie (.doorbell (off % 0x1000 == 8) ((off - 0x4000000) / 0x1000) (v % 65536))
  else s
/-- The registers that bytes written to the mirror cover whole; a register covered in part is not written (log entry 104). -/
def mirrorWrite (s : State) (die a : Nat) (data : List Byte) : State :=
  each (((List.range (data.length / 8)).map (fun i => ceilDiv a 8 * 8 + 8 * i)).filter (fun w => decide (w + 8 ≤ a + data.length))) s
    (fun s w => mirrorWord s die w (leNat ((data.drop (w - a)).take 8)))
/-- Bytes of one line are written at a device physical address other than a scratchpad row: a status. -/
def putAt (s : State) (die x : Nat) (data : List Byte) : State × Nat :=
  if isNear x || isFar x then sliceWrite s x data (.ok 0)
  else if isHost x then (wrBytes (emit s (.cxlCache "ItoMWr" (x - 0x400000000000) data)) x data, stSuccess)
  else if isMirror x then (mirrorWrite s die x data, stSuccess)
  else if isDebugView x then (s, stSuccess)
  else (s, stWindowViolation)
/-- A line is read at a virtual address: a status. -/
def getLine (s : State) (n v : Nat) : State × Nat := match translate s n v false with
  | .err e => (s, e)
  | .ok x =>
    if isNear x || isFar x then sliceRead s x
    else if isHost x then (emit s (.cxlCache "RdCurr" (x - 0x400000000000) []), stSuccess)
    else (s, stSuccess)
/-- A read of another core's scratchpad window (08 R197, R217): a status and the row's bytes. A row that fails its check gives no data;
one with a valid home gives the home copy's row, as the reload brings it. -/
def readSpm (s : State) (a : Nat) : State × Nat × List Byte :=
  let c := spmCore a
  let o := a % 0x100000000
  let m := o / 0x10000000
  let row := o % 0x10000000 / 512
  if !spmMapped o then (s, stProtectionFault, [])
  else if m < 3 ∧ bankPowered s c m (row / memBankRows m) = false then (s, stBankPoweredDown, [])
  else if m < 3 ∧ (core s c).badRows.contains (rowKey m row) = true then
    match homeRegion s c row, (core s c).task with
    | some r, some t => if m = 0 then
        let va := bits (reg s (regionOff c 0 r 4)) 47 0 + 512 * (row - regionBase s c 0 r)
        match readVa s t.strand va 512 with
        | some l => (detect s c m row, stSuccess, l)
        | none => (detect s c m row, stScratchpadRowFault, [])
      else (setDetect (bumpCore s c (detReg m) 1) c m row 0, stScratchpadRowFault, [])
    | _, _ => (setDetect (bumpCore s c (detReg m) 1) c m row 0, stScratchpadRowFault, [])
  else (s, stSuccess, spmBytes s (lineOf a))
/-- Steps in order up to the first that meets a status, which is answered with its step. -/
def untilFault {α : Type} (f : State → α → State × Nat) : List α → State → State × Option (Nat × α)
  | [], s => (s, none)
  | x :: l, s =>
    let r := f s x
    if r.2 = stSuccess then untilFault f l r.1 else (r.1, some (r.2, x))
/-- Bytes go into a scratchpad row of the core: a whole row with a new word, and less through the gathering buffer (08 R205, R217, R219). -/
def putPiece (s : State) (c a : Nat) (data : List Byte) : State :=
  let m := a % 0x100000000 / 0x10000000
  let row := a % 0x10000000 / 512
  noteRow (if 512 ≤ data.length then loseHomes (writeRow (flushRow s c m row false) c m row data) c m row
    else gatherBytes s c m row (a % 512) none data false) c m row
/-- Every line of a virtual range is read through the home slices (01 R22): the first status met. -/
def getRange (s : State) (n va len : Nat) : State × Nat :=
  let r := untilFault (fun s (p : Nat × Nat) => getLine s n p.1) (linePieces va len) s
  (r.1, (r.2.map (·.1)).getD stSuccess)
/-- A core reads rows at virtual addresses of its task's strand; a status ends the task. -/
def getRows (s : State) (c : Nat) (t : CoreTask) (l : List Nat) : State :=
  let r := untilFault (fun s v => getLine s t.strand v) l s
  match r.2 with
  | none => tagsWithin r.1 c t.strand false (l.map (fun a => a / 512 * 512))
  | some (e, v) => faultCore r.1 c e 31 0 v

/-- A row is written into an overflow area (06 R152); a status is a mid-stream fault (10 R276). An area in a scratchpad has no landing window of
the copy engine to go through and is refused. -/
def ovfStore (s : State) (c n a : Nat) (data : List Byte) : State :=
  let r := match translate s n a true with
    | .err e => (s, e)
    | .ok x => putAt s (coreDie c) x data
  if r.2 = stSuccess then tagsWithin (bumpCore r.1 c CORE_ACC_OVF_ROWS 1) c n true [a / 512 * 512] else faultCore r.1 c r.2 31 0 a

end Sys2Proof.Machine
end

