-- ==== Sys2Proof/Machine/Ingress.lean ====
section
/-! DEFINITION. The ingress of a core: rows and narrow writes that arrive for a landing window (08 R211 to R214, R538). -/

namespace Sys2Proof.Machine

/-- The die that sends for a source. -/
def sourceDie : Source → Nat
  | .core c => coreDie c
  | .strand _ d => d
  | .host => hstDie
/-- The strand of a Limund source. -/
def sourceStrand : Source → Nat
  | .strand n _ => n
  | _ => 0

/-- The slot whose task opened a window. -/
def windowSlot (s : State) (c w : Nat) : Option Nat := tfind (core s c).windowTask w

/-- SRC_KIND and SRC allow a source. -/
def sourceOk (s : State) (c w : Nat) (src : Source) : Bool :=
  let k := bits (reg s (windowOff c w 0)) 9 8
  let v := reg s (windowOff c w 1)
  match src with
  | .core x => (k == 0 && bit v x) || (k == 1 && bit (tget 0 (core s c).windowMask w) x)
  | .strand n _ => k == 2 && bits v 17 0 == n.val
  | .host => k == 3

/-- A window's overflow area: base and rows. -/
def winOvfBase (s : State) (c w : Nat) : Nat := bits (reg s (windowOff c w 2)) 47 0
def winOvfRows (s : State) (c w : Nat) : Nat := bits (reg s (windowOff c w 3)) 31 0
def winOvfEn (s : State) (c w : Nat) : Bool := bit (reg s (windowOff c w 0)) 7

/-- The cause of R212 for a row aimed at offset off, 0 where the ingress takes it. -/
def rowCause (s : State) (c w off : Nat) (src : Source) : Nat :=
  let st := winState s c w
  if st = 2 then 2 else if st ≠ 1 then 1
  else if !sourceOk s c w src then 3
  else if winMode s c w = 1 then
    if !regionFull s c (winMem s c w) (winRegion s c w) then 0
    else if !winOvfEn s c w then 5
    else if ovfHeld (core s c) (winOvfBase s c w) < winOvfRows s c w then 0 else 6
  else if off < winLen s c w then 0 else 4

/-- The cause for a narrow write of n bytes at byte `byte` of row off. -/
def narrowCause (s : State) (c w off byte n : Nat) (src : Source) : Nat :=
  let r := if winMode s c w = 1 then 4 else rowCause s c w off src
  if winState s c w = 1 ∧ sourceOk s c w src = true then
    (if r = 0 ∧ winMode s c w = 2 ∧ (byte % 4 ≠ 0 ∨ n % 4 ≠ 0) then 4 else r)
  else rowCause s c w off src

/-- A refusal at a row of a memory is counted and recorded (R212). -/
def recordNackAt (s : State) (c m row cause : Nat) (src : Source) : State :=
  setReg (bumpCore s c SPM_NACK_COUNT 1) (coreOff c SPM_LAST_NACK)
    (cause + sourceDie src * 2 ^ 8 + sourceStrand src * 2 ^ 16 + m * 2 ^ 34 + row % 2 ^ 20 * 2 ^ 36)
/-- The same for a row of a window. -/
def recordNack (s : State) (c w off cause : Nat) (src : Source) : State :=
  recordNackAt s c (winMem s c w) (if winMode s c w = 1 then tailRow s c (winMem s c w) (winRegion s c w) else winBase s c w + off) cause src

/-- Count a row on the window's marker, and on its region's where that is another (R214). -/
def countWindow (s : State) (c w : Nat) (region : Bool) : State :=
  let s' := countMarker s c (winMarker s c w)
  if !region then s' else match regionMarker s c (winMem s c w) (winRegion s c w) with
    | some k => if k = winMarker s c w then s' else countMarker s' c k
    | none => s'

/-- Add FP32 elements into a row at byte offset off, in order, each rounding once (R211, R538); overflows are counted. A row that fails its
check gives nothing to add to, and takes the path of its memory (R217). Whether they were added. -/
def addElems (s : State) (c m row off : Nat) (data : List Byte) : State × Bool :=
  let s := flushRow s c m row false
  if (core s c).badRows.contains (rowKey m row) then (detect s c m row, false) else
  let base := rowDpa c m row + off
  let s := each (List.range (data.length / 4)) s (fun s i =>
    let a := BitVec.ofNat 32 (rd32 s (base + 4 * i))
    let b := BitVec.ofNat 32 (leNat ((data.drop (4 * i)).take 4))
    let r := addF32 a b
    bumpCore (wrBytes s (base + 4 * i) (leBytes 4 r.toNat)) c CORE_NUM_INF_COUNT (b2n (overflowed a b r)))
  (loseHomes s c m row, true)
/-- The same through a window in accumulate mode: what was added counts on the marker (R214). -/
def addWindow (s : State) (c w row off : Nat) (data : List Byte) : State :=
  let r := addElems s c (winMem s c w) (winBase s c w + row) off data
  if r.2 then countWindow r.1 c w false else r.1

/-- The strand whose translation serves a window's overflow area: its task's, or the strand that it is open to. -/
def windowStrand (s : State) (c w : Nat) : Nat := match windowSlot s c w with
  | some k => (slotOf s k).strand
  | none => match (core s c).task with
    | some t => t.strand
    | none => bits (reg s (windowOff c w 1)) 17 0

/-- A row that the ingress takes lands. -/
def landWindowRow (s : State) (c w off : Nat) (data : List Byte) : State :=
  let m := winMem s c w
  let r := winRegion s c w
  if winMode s c w = 1 then
    if !regionFull s c m r then
      let row := tailRow s c m r
      countWindow (advanceTail (loseHomes (writeRow (flushRow s c m row false) c m row data) c m row) c m r 1) c w true
    else match ovfAlloc s c (winOvfBase s c w) (winOvfRows s c w) with
      | some (a, s) => countWindow (ovfStore s c (windowStrand s c w) a data) c w false
      | none => s
  else if winMode s c w = 2 then addWindow s c w off 0 data
  else
    let row := winBase s c w + off
    countWindow (loseHomes (writeRow (flushRow s c m row false) c m row data) c m row) c w false

/-- A row at the ingress: landed, or refused with a cause. -/
def ingressRow (s : State) (c w off : Nat) (src : Source) (data : List Byte) : State × Nat :=
  let k := rowCause s c w off src
  if k = 0 then (landWindowRow s c w off data, 0) else (recordNack s c w off k src, k)

/-- A narrow write at the ingress (R205, R538). -/
def ingressNarrow (s : State) (c w off byte : Nat) (src : Source) (data : List Byte) (readFails : Bool) : State × Nat :=
  let k := narrowCause s c w off byte data.length src
  if k ≠ 0 then (recordNack s c w off k src, k)
  else if winMode s c w = 2 then (addWindow s c w off byte data, 0)
  else (gatherBytes s c (winMem s c w) (winBase s c w + off) byte (some w) data readFails, 0)

/-! Writes that name a scratchpad row by its address (08 R197, R211; 12 R302). -/

/-- Memory and row of a device physical address in a scratchpad window. -/
def spmMem (a : Nat) : Nat := (a - 0x100000000000) % 0x100000000 / 0x10000000
def spmRow (a : Nat) : Nat := a % 0x10000000 / 512
/-- A core by its number. -/
def coreFin (c : Nat) : CoreId := ⟨c % 64, Nat.mod_lt _ (by decide)⟩
/-- The landing window, open or closing, that holds a row by its address; an append window holds the rows of its region. -/
def windowOver (s : State) (x m row : Nat) : Option Nat := (List.range 64).find? (fun w =>
  (winState s x w == 1 || winState s x w == 2) && winMem s x w == m
    && decide (winBase s x w ≤ row ∧ row < winBase s x w + winLen s x w))
/-- Bytes of one row, at an address of a scratchpad window, reach the ingress: a whole row, or narrow writes of up to 64 B. The cause of R212, 0
where the window takes them. -/
def windowStore (s : State) (src : Source) (a : Nat) (data : List Byte) : State × Nat :=
  let x := spmCore a
  match windowOver s x (spmMem a) (spmRow a) with
  | none => (recordNackAt s x (spmMem a) (spmRow a) 1 src, 1)
  | some w =>
    let off := spmRow a - winBase s x w
    if 512 ≤ data.length then ingressRow s x w off src data
    else
      let r := untilFault (fun s (p : Nat × Nat) => ingressNarrow s x w off (p.1 % 512) src ((data.drop (p.1 - a)).take p.2) false)
        ((List.range 9).filterMap (fun i =>
          let lo := max a (a / 64 * 64 + 64 * i)
          let hi := min (a + data.length) (a / 64 * 64 + 64 * (i + 1))
          if lo < hi then some (lo, hi - lo) else none)) s
      (r.1, (r.2.map (·.1)).getD 0)
/-- Bytes of one line are written at a virtual address of a strand: a status, and the cause of R212 where a landing window refuses them. -/
def putLine (s : State) (src : Source) (n v : Nat) (data : List Byte) : State × Nat × Nat := match translate s n v true with
  | .err e => (s, e, 0)
  | .ok x =>
    if isSpm x && !isDebugView x then
      let r := windowStore s src x data
      (r.1, if r.2 = 0 then stSuccess else stWindowViolation, r.2)
    else
      let r := putAt s (sourceDie src) x data
      (r.1, r.2, 0)
/-- Bytes are written at a virtual address of a strand, line by line: the first status with its cause of R212. -/
def putRange (s : State) (src : Source) (n v : Nat) (data : List Byte) : State × Nat × Nat :=
  (linePieces v data.length).foldl (fun r p => if r.2.1 ≠ stSuccess then r else putLine r.1 src n p.1 ((data.drop (p.1 - v)).take p.2)) (s, stSuccess, 0)
/-- A core's running task writes bytes of a tensor (10 R259): into its own scratchpad, or through the home slices under tags of its own; a
status ends the task (10 R276). -/
def putBytes (s : State) (c : Nat) (t : CoreTask) (pl : Place) (a : Nat) (data : List Byte) : State := match pl with
  | .dpa b =>
    let l := linePieces (b + a) data.length
    match l.findSome? (fun p => localFault s c (p.1 % 0x100000000 / 0x10000000) (p.1 % 0x10000000 / 512)) with
    | some e => if stillRuns s c t.slot then faultCore s c e 31 0 0 else s
    | none => each l s (fun s p => putPiece s c p.1 ((data.drop (p.1 - (b + a))).take p.2))
  | .va n | .landed n _ =>
    if !stillRuns s c t.slot then s
    else
      let l := linePieces a data.length
      let r := untilFault (fun s (p : Nat × Nat) => (fun r => (r.1, r.2.1)) (putLine s (.core (coreFin c)) n p.1 ((data.drop (p.1 - a)).take p.2))) l s
      match r.2 with
      | none => tagsWithin r.1 c n true (l.map (fun p => p.1 / 512 * 512))
      | some (e, p) => faultCore r.1 c e 31 0 p.1
/-! The foreign window of a group (06 R156). -/

/-- A foreign row at its home core: an append-mode row into FOREIGN_REGION, or the overflow area when the region is full; a row of an
abandoned attempt meets a closed window (log entry 35). Which entry and which marker of the core's landing windows the foreign window
takes is not stated: it takes none here, and its rows count in a number of their own (log entry 70). Answers the cause of R212, 0 where it
lands. -/
def foreignLand (s : State) (c attempt : Nat) (src : Source) (data : List Byte) : State × Nat := match (core s c).task with
  | none => (s, 1)
  | some t =>
    let r := aForeignRegion t.table
    let mine := match src with
      | .core x => bit (slotOf s t.slot).mask x
      | _ => false
    if !(core s c).foreignOpen || t.attempt != attempt then (s, 1)
    else if !mine then (s, 3)
    else
      let u := updCore (bumpCore s c CORE_ACC_FOREIGN_RECV 1) c (fun x => { x with foreignCount := x.foreignCount + 1 })
      if !regionFull s c 1 r then
        let row := tailRow u c 1 r
        (countRegion (advanceTail (noteRow (writeRow u c 1 row data) c 1 row) c 1 r 1) c 1 r, 0)
      else match ovfAlloc u c (aOvfBase t.table) (aOvfRows t.table) with
        | some (a, s) =>
          (ovfStore (updCore s c (fun x => { x with foreignOvf := x.foreignOvf ++ [a] })) c t.strand a data, 0)
        | none => (s, 6)
/-- The same, a refusal counted and recorded (08 R212); without a free overflow row the home's task aborts too (06 R152). -/
def foreignRow (s : State) (c attempt : Nat) (src : Source) (data : List Byte) : State × Nat :=
  let r := foreignLand s c attempt src data
  if r.2 = 0 then r
  else
    let row := match (core s c).task with
      | some t => tailRow s c 1 (aForeignRegion t.table)
      | none => 0
    let s := recordNackAt s c 1 row r.2 src
    (if r.2 = 6 then ovfFull s c else s, r.2)

end Sys2Proof.Machine
end

