-- ==== Sys2Proof/Machine/QueueOps.lean ====
section
/-! DEFINITION. The queue engine: rows, tags, packets, dropped-stitch markers and ports (11 R284 to R299). -/

namespace Sys2Proof.Machine

/-! Rows and tags (R285, R287). -/

/-- Address of the row at a position of a queue. -/
def queRowDpa (s : State) (q pos : Nat) : Nat :=
  rowDpa (queCore q) 1 (regionBase s (queCore q) 1 (queRegion s q) + pos % orOne (queue s q).len)
/-- The tag of the row at a position. -/
def queTag (s : State) (q pos : Nat) : Nat :=
  tget 0 (core s (queCore q)).queueTags ((queue s q).first + pos % orOne (queue s q).len)
def setTag (s : State) (q pos v : Nat) : State :=
  let x := queue s q
  updCore s (queCore q) (fun k => { k with queueTags := tset k.queueTags (x.first + pos % orOne x.len) v })
/-- A tag (Table: Queue row tag). -/
def tagWord (valid : Nat) (first last mark : Bool) (seq : Nat) : Nat :=
  valid + b2n first * 2 ^ 10 + b2n last * 2 ^ 11 + b2n mark * 2 ^ 12 + seq % 65536 * 2 ^ 16
/-- A new row lands: zero in every word. -/
def landRow (s : State) (q : Nat) : State :=
  let p := landPos s q
  let r := regionBase s (queCore q) 1 (queRegion s q) + p % orOne (queue s q).len
  updQueue (writeRow s (queCore q) 1 r (zeros 512)) q (fun x => { x with landed := x.landed + 1 })
/-- The lowest run of n consecutive free tag-store entries of a core, none where there is no room (R285). -/
def tagRun (s : State) (c n : Nat) : Option Nat :=
  let l := (s.queues.filter (fun p => queCore p.1 == c && p.2.enabled)).map (fun p => (p.2.first, p.2.len))
  let ok (a : Nat) : Bool := decide (a + n ≤ 65536) && l.all (fun p => !overlaps a n p.1 p.2)
  (0 :: l.map (fun p => p.1 + p.2)).foldl (fun b a => if ok a then (match b with
    | none => some a
    | some x => some (min x a)) else b) none
/-- A row has room: one is held back under the native policy (R294); a core producer needs a credit under the DX8 policy. -/
def hasRoom (s : State) (q : Nat) : Bool :=
  let x := queue s q
  if quePolicy s q then decide (0 < queFree x) && (queKind s q != 0 || x.credits != 0) else decide (2 ≤ queFree x)
/-- A row lands and spends a credit. -/
def takeRow (s : State) (q : Nat) : State :=
  let s := landRow s q
  if quePolicy s q && queKind s q == 0 then updQueue s q (fun x => { x with credits := x.credits - 1 }) else s

/-! Markers (R295). -/

/-- A packet stands after a marker: it opened when the marker had been made. -/
def afterMarker (m : QMarker) (p : QPacket) : Bool := decide (m.id ≤ p.after)
/-- A marker is written into its row and TAIL passes it. -/
def writeMarker (s : State) (q pos : Nat) (m : QMarker) : State :=
  let a := queRowDpa s q pos
  let s := wrBytes s a (leBytes 8 (m.first % 65536 + m.count * 2 ^ 16) ++ leBytes 8 m.bytes ++ leBytes 8 m.tFirst
    ++ leBytes 8 m.tLast ++ zeros 480)
  let s := setTag s q pos (tagWord 32 true true true m.first)
  let s := updQueue s q (fun x => { x with readable := x.readable + 1, landed := x.landed - 1 })
  bumpCore (advanceTail s (queCore q) 1 (queRegion s q) 1) (queCore q) QUE_MARK_COUNT 1
/-- Full markers become readable in order, each as soon as it has a row and no earlier packet stands before it. -/
def showFull (s : State) (q : Nat) : State :=
  each (List.range (queue s q).fullMarkers.length) s (fun s _ => match (queue s q).fullMarkers with
    | m :: rest => (match m.row with
      | some pos => if (queue s q).waiting.all (afterMarker m) then writeMarker (updQueue s q (fun x => { x with fullMarkers := rest })) q pos m else s
      | none => s)
    | [] => s)
/-- A pending marker with a row becomes readable: its row is written, TAIL passes it. -/
def showMarker (s : State) (q : Nat) : State := match (queue s q).marker with
  | none => s
  | some m => match m.row with
    | none => s
    | some pos => if (queue s q).fullMarkers.isEmpty then writeMarker (updQueue s q (fun x => { x with marker := none })) q pos m else s
/-- A pending marker that can take n more drops: the one that stands, or a new one; a marker that they would take past 65,535 becomes readable as
it stands. -/
def nextMarker (s : State) (q seq n : Nat) : State :=
  let fresh (s : State) : State := updQueue s q (fun x => { x with
    marker := some { first := seq, count := 0, bytes := 0, tFirst := now s, tLast := now s, row := none, id := x.markers + 1 }, markers := x.markers + 1 })
  match (queue s q).marker with
  | none => fresh s
  | some m =>
    if m.count + n ≤ 65535 then s
    else fresh (showFull (updQueue s q (fun x => { x with marker := none, fullMarkers := x.fullMarkers ++ [m] })) q)
/-- Drops join the pending marker, or begin one. -/
def joinMarker (s : State) (q seq n bytes : Nat) (drops : List QDrop) : State :=
  let s := nextMarker s q seq n
  markerTakesRow (updQueue s q (fun x => { x with marker := x.marker.map (fun m => { m with
    count := m.count + n, bytes := m.bytes + bytes, tLast := now s, drops := m.drops ++ drops }) })) q
/-- The open packet is dropped whole (R294); one that a flush has abandoned goes without a marker (R299). -/
def dropOpen (s : State) (q : Nat) (p : QPacket) : State :=
  let s := updQueue s q (fun x => { x with landed := x.landed - p.rows, open_ := some { p with dropped := true, rows := 0 } })
  let s := bumpCore s (queCore q) QUE_DROP_PKT_COUNT 1
  if (queue s q).flushPending then markerTakesRow s q else joinMarker s q p.seq 1 0 [{ seq := p.seq, time := now s }]

/-! Ports (R286). Each answers a status: SUCCESS, QUEUE_PROTOCOL or QUEUE_PACKET_TOO_LONG. -/

/-- The producer that an entry names. -/
def producerOk (s : State) (q : Nat) : Producer → Bool
  | .core c => queKind s q == 0 && queProdCore s q == c.val
  | .strand n => queKind s q == 1 && queProdStrand s q == n.val
  | .host => queKind s q == 2
/-- A port takes a write from the named producer of an enabled queue. -/
def portOk (s : State) (q : Nat) (p : Producer) : Bool := (queue s q).enabled && producerOk s q p

/-- OPEN: a number and the first row; under the DX8 policy it waits for the row. -/
def queOpen (s : State) (q : Nat) : State :=
  let x := queue s q
  let p : QPacket := { seq := x.seqNext, pos := landPos s q, rows := 1, after := x.markers }
  if hasRoom s q then
    updQueue (takeRow s q) q (fun x => { x with open_ := some p, seqNext := (x.seqNext + 1) % 65536 })
  else if quePolicy s q then updQueue s q (fun x => { x with held := some none })
  else dropOpen (updQueue s q (fun x => { x with seqNext := (x.seqNext + 1) % 65536 })) q { p with rows := 0 }

/-- A word is stored behind the others of the open packet. -/
def storeWord (s : State) (q : Nat) (p : QPacket) (v : Nat) : State :=
  updQueue (wr64 s (queRowDpa s q (p.pos + p.n / 64) + 8 * (p.n % 64)) v) q (fun x => { x with open_ := some { p with n := p.n + 1 } })

/-- DATA on an open packet. -/
def queData (s : State) (q : Nat) (p : QPacket) (v : Nat) : State × Nat :=
  if p.dropped then (updQueue s q (fun x => { x with open_ := some { p with n := p.n + 1 } }), 0)
  else if p.n % 64 ≠ 0 then (storeWord s q p v, 0)
  else if hasRoom s q then
    if quePolicy s q && decide ((queue s q).len ≤ p.rows + 1) then
      let s := updQueue s q (fun x => { x with open_ := none, seqNext := p.seq, landed := x.landed - p.rows, flushPending := false })
      (freeRows (bumpCore s (queCore q) QUE_WITHDRAW_COUNT 1) q p.rows, stQueuePacketTooLong)
    else
      let s := takeRow s q
      (storeWord s q { p with rows := p.rows + 1 } v, 0)
  else if quePolicy s q then (updQueue s q (fun x => { x with held := some (some v) }), 0)
  else (dropOpen s q { p with n := p.n + 1 }, 0)

/-- The tags of a closed packet (R287). -/
def tagPacket (s : State) (q : Nat) (p : QPacket) : State :=
  each (List.range p.rows) s (fun s i =>
    setTag s q (p.pos + i) (tagWord (if i + 1 < p.rows then 512 else 8 * p.n - 512 * i) (i == 0) (i + 1 == p.rows) false p.seq))

/-- A dropped packet that closes gives its bytes to the marker that records it (R294). -/
def dropBytes (seq b : Nat) (m : QMarker) : QMarker :=
  if m.drops.any (fun d => d.seq == seq) then
    { m with bytes := m.bytes + b, drops := m.drops.map (fun d => if d.seq = seq then { d with bytes := d.bytes + b } else d) } else m
/-- CLOSE on an open packet: the length word and the tags; a dropped packet gives its bytes to the marker; a packet that a
flush abandoned is withdrawn (R299). -/
def queClose (s : State) (q : Nat) (p : QPacket) : State :=
  let x := queue s q
  let c := queCore q
  let b := 8 * (p.n - 1)
  if p.dropped then
    bumpCore (updQueue s q (fun x => { x with open_ := none, flushPending := false, marker := x.marker.map (dropBytes p.seq b),
                                              fullMarkers := x.fullMarkers.map (dropBytes p.seq b) })) c QUE_DROP_BYTES b
  else if x.flushPending then
    freeRows (bumpCore (updQueue s q (fun x => { x with open_ := none, flushPending := false, landed := x.landed - p.rows })) c QUE_WITHDRAW_COUNT 1) q p.rows
  else
    let s := wr64 s (queRowDpa s q p.pos) (b % 2 ^ 32 + p.seq * 2 ^ 32)
    updQueue (tagPacket s q p) q (fun x => { x with open_ := none, waiting := x.waiting ++ [{ p with committed := queKind s q != 0 }] })

/-- A NACK reaches the sending device (15 R381): an event, and the end of the task that posted the message and runs. -/
def takeNack (s : State) (die n seq cause : Nat) : State :=
  let s := raise s die 0x704 1 n 0 [n, seq, cause]
  match s.posted.find? (fun p => p.1 == n && p.2.1 == seq) with
  | none => s
  | some p =>
    endTask s p.2.2.1 (if 1 ≤ cause ∧ cause ≤ 6 then stWindowViolation else if p.2.2.2 = 3 then stMergeInvalid else stPeerUnreachable)
      die none false
/-- The NACK of a message that a receiving strand took: over the link, or here when the sender is a strand of this device. -/
def returnNack (s : State) (die n seq cause : Nat) : State :=
  let w := strandWord s n 3
  if bits w 23 12 = ownDev s then takeNack s die (bits w 41 24) seq cause
  else sendNack s (bits w 23 12) (bits w 41 24) seq cause

/-- What a refusal does to its producer (R286): a core's task aborts, a strand's sender gets a NACK whose cause the manual
does not name, a host write is dropped. -/
def producerFail (s : State) (q status : Nat) : Producer → State
  | .core c => faultCore s c status 31 0 0
  | .strand n =>
    let (v, s) := freshFree s
    let seq := match strand s n with
      | some x => (x.rxSeq + 65535) % 65536
      | none => 0
    returnNack s 88 n seq (v % 8)
  | .host => postedDrop s status 2 q

/-- The producer of a queue. -/
def queProducer (s : State) (q : Nat) : Producer :=
  if queKind s q = 0 then .core (Fin.ofNat 64 (queProdCore s q)) else if queKind s q = 1 then .strand (Fin.ofNat 262144 (queProdStrand s q))
  else .host

/-- A write that waited for a row is tried again (R296). -/
def retryHeld (s : State) (q : Nat) : State :=
  let x := queue s q
  match x.held with
  | none => s
  | some w =>
    let s := updQueue s q (fun x => { x with held := none })
    let s := match w, x.open_ with
      | some v, some p =>
        let r := queData s q p v
        if r.2 = 0 then r.1 else producerFail r.1 q r.2 (queProducer s q)
      | none, none => queOpen s q
      | _, _ => s
    let c := queProdCore s q
    if (queue s q).held.isNone && queKind s q == 0 && ((core s c).stall.map (fun st => st.resource)) == some (queueRes resQueueFull q) then endWait s c else s

/-! Reading (R288, R292, R293, R298, R299). -/

/-- The first waiting packet becomes readable when it is committed, with a marker that it follows; full markers before it come first. -/
def showPacket (s : State) (q : Nat) : State :=
  let s := showFull s q
  match (queue s q).waiting with
  | [] => s
  | p :: rest =>
    if !p.committed || (queue s q).fullMarkers.any (fun m => afterMarker m p) then s else
    let s := match (queue s q).marker with
      | some m => if afterMarker m p then showMarker s q else s
      | none => s
    let s := updQueue s q (fun x => { x with waiting := rest, readable := x.readable + p.rows, landed := x.landed - p.rows })
    showFull (bumpCore (advanceTail s (queCore q) 1 (queRegion s q) p.rows) (queCore q) QUE_PKT_IN_COUNT 1) q

/-- Rows are released by software: free at once (R293). -/
def releaseNow (s : State) (q n : Nat) : State :=
  let s := advanceHead s (queCore q) 1 (queRegion s q) n
  showFull (freeRows (updQueue s q (fun x => { x with readable := x.readable - n })) q n) q

/-- Rows from the read position to the end of its packet, or a marker's one row: tags up to LAST (R298). -/
def rowsToLast (s : State) (q : Nat) : Nat → Nat → Nat
  | 0, _ => 0
  | n + 1, pos => if bit (queTag s q pos) 11 then 1 else 1 + rowsToLast s q n (pos + 1)
def readPos (s : State) (q : Nat) : Nat := ptrHead (queue s q).len (regionPtr s (queCore q) 1 (queRegion s q))

end Sys2Proof.Machine
end

