-- ==== Sys2Proof/Machine/LinkOps.lean ====
section
/-! DEFINITION. The Limund link: strands at the link dies, messages and their flits, delivery by KIND, multicast and
merging (15 R375 to R390, 16 R426). -/

namespace Sys2Proof.Machine

/-! Strands and groups as the link dies hold them (16 R403, 15 R377, R384). -/

def peerDev (s : State) (n : Nat) : Nat := bits (strandWord s n 3) 23 12
def peerStrand (s : State) (n : Nat) : Nat := bits (strandWord s n 3) 41 24
/-- A strand may send and receive: live, LINK_OK, and no release under way (16 R405). -/
def linkOk (s : State) (n : Nat) : Bool := match strand s n with
  | some x => bit (x.words.getD 0 0) 2 && !x.releasing
  | none => false
/-- The lowest-numbered port of the strand's mask that is UP (R378). -/
def upPort (s : State) (n : Nat) : Option Nat :=
  (List.range 16).find? (fun p => bit (bits (strandWord s n 3) 57 42) p && (port s p).state == 3)

/-- The link die that a strand's messages leave by, and that writes for it. -/
def strandLink (s : State) (n : Nat) : Nat := 88 + ((upPort s n).getD 0) / 2
/-- A link die writes bytes at a virtual address of a strand: a status, and the cause of R212 where a landing window refuses them. -/
def linkWrite (s : State) (die n v : Nat) (data : List Byte) : State × Nat × Nat :=
  putRange s (.strand (Fin.ofNat 262144 n) (Fin.ofNat 100 die)) n v data

/-- Word w of a group's entry. -/
def groupWord (s : State) (g w : Nat) : Nat := rd64 s (objNat s 0x503001 + g * 32 + w * 8)
def groupPorts (s : State) (g : Nat) : List Nat := (List.range 16).filter (bit (groupWord s g 0))
def groupLocal (s : State) (g : Nat) : Bool := bit (groupWord s g 0) 16
def groupMembers (s : State) (g : Nat) : Nat := bits (groupWord s g 0) 23 18
def groupStrand (s : State) (g : Nat) : Nat := bits (groupWord s g 0) 41 24
def group (s : State) (g : Nat) : Group := tget {} s.groups g
def updGroup (s : State) (g : Nat) (f : Group → Group) : State := { s with groups := tset s.groups g (f (group s g)) }
/-- The group whose member strand on this device is n. -/
def groupOf (s : State) (n : Nat) : Option Nat :=
  (s.groups.find? (fun p => groupLocal s p.1 && groupStrand s p.1 == n)).map (·.1)

/-- A link die holds a strand's entry. -/
def lnkHolds (s : State) (d n : Nat) : Bool := (tget [] s.lnkCache d).contains n
/-- The link die writes back the word that it owns (16 R403, R406). -/
def lnkBack (s : State) (n : Nat) : State := match strand s n with
  | some x => wr64 s (strandEntry s n 8) (x.txCredit % 65536 + x.txSeq % 65536 * 2 ^ 16 + x.rxSeq % 65536 * 2 ^ 32)
  | none => s
/-- An entry becomes the most recent; the least recent beyond 32,768 leaves. -/
def lnkTouch (s : State) (d n : Nat) : State :=
  let l := n :: (tget [] s.lnkCache d).filter (· != n)
  each (l.drop 32768) { s with lnkCache := tset s.lnkCache d (l.take 32768) } lnkBack
/-- A miss fetches the entry (15 R377). -/
def lnkMiss (s : State) (d n : Nat) : State :=
  if lnkHolds s d n || !strandLive s n then s else lnkTouch (bump s (lnkOff d LNK_STRAND_MISS_COUNT) 1) d n

/-! Messages (R379). -/

/-- Fields of a message header. -/
def mKind (h : List Nat) : Nat := bits (word h 0) 3 0
def mCore (h : List Nat) : Nat := bits (word h 0) 9 4
def mTgt (h : List Nat) : Nat := bits (word h 0) 20 10
def mEnd (h : List Nat) : Bool := bit (word h 0) 21
def mSrcDev (h : List Nat) : Nat := bits (word h 0) 33 22
def mLength (h : List Nat) : Nat := bits (word h 1) 31 0
def mOffset (h : List Nat) : Nat := bits (word h 2) 47 0
def mStream (h : List Nat) : Nat := word h 3

/-- The flits of a message's words, 32 to a flit (R369, R379). -/
def mkFlits (cls : Nat) (mcast : Bool) (dst rcv seq : Nat) (ws : List Nat) : List Flit :=
  let n := ceilDiv ws.length 32
  (List.range n).map (fun i =>
    let p := (ws.drop (32 * i)).take 32
    { cls := Fin.ofNat 4 cls, first := i == 0, last := i + 1 == n, mcast := mcast, valid8 := Fin.ofNat 32 (p.length - 1),
      dstDev := BitVec.ofNat 12 dst, strand := Fin.ofNat 262144 rcv, msgSeq := BitVec.ofNat 16 seq,
      payload := ((p ++ List.replicate 32 0).take 32).map (BitVec.ofNat 64) })
/-- Valid payload words of a flit. -/
def flitWords (f : Flit) : List Nat := (f.payload.take (f.valid8 + 1)).map (·.toNat)

/-- A message that cannot be sent ends the task that posts it. -/
def failSend (s : State) (die status : Nat) : Option Nat → State
  | some k => endTask s k status die none false
  | none => s

/-- A message takes its strand's port, or waits for one (R378). -/
def bindMsg (s : State) (m : SentMsg) : State :=
  let bound := match strand s m.strand with
    | some x => match x.port with
      | some p => if (port s p).state = 0 then upPort s m.strand else some p
      | none => upPort s m.strand
    | none => upPort s m.strand
  match bound with
  | none => { s with unsent := s.unsent ++ [m] }
  | some p =>
    if m.kind = 3 ∧ (port s p).dx8 = true then failSend s m.die stLinkClassUnsupported m.task
    else updPort (updStrand s m.strand (fun x => { x with port := some p })) p (fun x => { x with sending := x.sending ++ [m] })
/-- Messages without a port try again, in order. -/
def bindSends (s : State) : State := each s.unsent { s with unsent := [] } bindMsg

/-! Merge contexts (R388 to R390); context x of link die d, both from 0. -/

def mergeState (s : State) (d x : Nat) : Nat := bits (reg s (mergeOff d x 0)) 1 0
def mergeInputs (s : State) (d x : Nat) : Nat := bits (reg s (mergeOff d x 0)) 3 2 + 1
def inStrand (s : State) (d x i : Nat) : Nat :=
  let w := reg s (mergeOff d x (1 + i / 2))
  if i % 2 = 0 then bits w 17 0 else bits w 35 18
def merge (s : State) (d x : Nat) : MergeCtx := tget {} s.merges (d * 8 + x)
def updMerge (s : State) (d x : Nat) (f : MergeCtx → MergeCtx) : State :=
  { s with merges := tset s.merges (d * 8 + x) (f (merge s d x)) }
/-- The input of a context that takes a strand's messages. -/
def mergeInput (s : State) (d x n : Nat) : Option Nat := (List.range (mergeInputs s d x)).find? (fun i => inStrand s d x i == n)
def setInput (c : MergeCtx) (i : Nat) (v : MergeIn) : MergeCtx :=
  { c with inputs := (c.inputs ++ List.replicate (4 - c.inputs.length) ({} : MergeIn)).set i v }
/-- One entry into input i; indices that do not rise fault the context (R390). -/
def mergeTake (s : State) (d x i idx : Nat) (v : F32) : State :=
  let m := (merge s d x).inputs.getD i ({} : MergeIn)
  let ok := match m.last with
    | some l => decide (l < idx)
    | none => true
  if ok then
    bump (updMerge s d x (fun c => setInput c i { m with entries := m.entries ++ [(idx, v)], last := some idx })) (lnkOff d LNK_MERGE_IN_ENTRIES) 1
  else raise (setField s (mergeOff d x 0) 1 0 3) (88 + d) 0x707 2 0 0 [88 + d, x, i, idx]

/-! Delivery (R380). -/

/-- Where a message goes: KIND, core, target, offset. Recovery data goes where the group's last message says, moved by the
distance in the stream (R380, R387; log entry 40). -/
def target (s : State) (r : RecvMsg) : Nat × Nat × Nat × Nat :=
  let h := r.hdr
  if mKind h ≠ 4 then (mKind h, mCore h, mTgt h, mOffset h)
  else match groupOf s r.strand with
    | none => (15, 0, 0, 0)
    | some g =>
      let gh := (group s g).hdr
      let delta : Int := (mStream h : Int) - mStream gh
      let off : Int := if mKind gh = 0 then mOffset gh + delta / 512 else mOffset gh + delta
      (mKind gh, mCore gh, mTgt gh, off.toNat)

/-- The message is refused from here on: one NACK (R380). -/
def refuseMsg (s : State) (die : Nat) (r : RecvMsg) (cause : Nat) : State × RecvMsg :=
  (returnNack s die r.strand r.seq cause, { r with refused := true, words := [] })

/-- A port of a queue refuses the message (11 R286): the cause of its NACK is a free value, for the manual names none. -/
def refusePort (s : State) (die : Nat) (r : RecvMsg) : State × RecvMsg :=
  let (v, s) := freshFree s
  refuseMsg s die r (v % 8)

/-- An address in the lifeline page of a strand with a role (16 R426). -/
def lifelinePage (s : State) (n a : Nat) : Bool := decide (0xFFFFFFFFF000 ≤ a) && (lifeline s n).role != 0

/-- Where a holder's slot lies (17 R427). -/
def slotAddr (s : State) (n : Nat) : Nat := (lifeline s n).slotVa + (lifeline s n).slot * (lifeline s n).slotBytes
/-- Payload joins the holder's slot (17 R432 step 3); a byte that cannot be written fails the securing. -/
def llAppend (s : State) (die n : Nat) (data : List Byte) : State :=
  let r := linkWrite s die n (slotAddr s n + 512 + (lifeline s n).received) data
  updLifeline r.1 n (fun x => { x with received := x.received + data.length, failed := x.failed || decide (r.2.1 ≠ stSuccess) })
/-- A holder copies the next PARAM_BYTES of payload delivered to its strand. -/
def llCopy (s : State) (die n : Nat) (data : List Byte) : State :=
  let x := lifeline s n
  if x.role = 2 ∧ x.hmark.isSome = true ∧ x.failed = false ∧ x.received < x.paramBytes then
    llAppend s die n (data.take (x.paramBytes - x.received)) else s

/-- Payload words of KIND 2 in one row: written through the strand's translation, or refused with the cause of the landing window that they name,
and with cause 7 for any other status (log entry 104). -/
def deliverRow (s : State) (die : Nat) (r : RecvMsg) (ws : List Nat) : State × RecvMsg :=
  let off := (target s r).2.2.2
  let next : RecvMsg := { r with words := r.words.drop ws.length, pos := r.pos + ws.length }
  if lifelinePage s r.strand off then (s, next)
  else
    let x := linkWrite s die r.strand (off + 8 * r.pos) (ws.flatMap (leBytes 8))
    if x.2.1 = stSuccess then (llCopy x.1 die r.strand (ws.flatMap (leBytes 8)), next)
    else refuseMsg x.1 die r (if x.2.2 = 0 then 7 else x.2.2)
/-- One payload word of KINDs 1 and 3. -/
def deliverWord (s : State) (die : Nat) (r : RecvMsg) (w : Nat) : State × RecvMsg :=
  let (k, _, tgt, off) := target s r
  let next : RecvMsg := { r with words := r.words.drop 1, pos := r.pos + 1 }
  if k = 1 then match portOk s tgt (.strand (Fin.ofNat 262144 r.strand)), (queue s tgt).open_ with
    | false, _ | true, none => refusePort s die r
    | true, some p =>
      let q := queData s tgt p w
      if q.2 = 0 then (llCopy q.1 die r.strand (leBytes 8 w), next) else refusePort q.1 die r
  else if k = 3 then
    let d := tgt / 8 % 8
    let x := tgt % 8
    match mergeInput s d x r.strand with
    | none => refuseMsg s die r 7
    | some i =>
      if mergeState s d x ≠ 1 then refuseMsg s die r 7
      else (mergeTake s d x i (off + w % 2 ^ 32) (BitVec.ofNat 32 (w / 2 ^ 32)), next)
  else (s, next)

/-- The end of a message whose words are delivered. -/
def endMsg (s : State) (die : Nat) (r : RecvMsg) : State :=
  let (k, _, tgt, _) := target s r
  if r.refused || r.skip then s
  else if k = 1 then match portOk s tgt (.strand (Fin.ofNat 262144 r.strand)), (queue s tgt).open_ with
    | true, some p => queClose s tgt p
    | _, _ => (refusePort s die r).1
  else if k = 3 ∧ mEnd r.hdr = true then
    match mergeInput s (tgt / 8 % 8) (tgt % 8) r.strand with
    | some i => updMerge s (tgt / 8 % 8) (tgt % 8) (fun c => setInput c i { (c.inputs.getD i ({} : MergeIn)) with ended := true })
    | none => s
  else s

/-- Deliver the words that wait: whole rows of KIND 0, what is left at its end in narrow writes of up to 64 B, KIND 2 row by row, and word by
word otherwise; a word that waits for a queue row stops the delivery (R296). The fuel is the number of words. -/
def pump : Nat → State → Nat → RecvMsg → State × RecvMsg
  | 0, s, _, r => (s, r)
  | n + 1, s, die, r =>
    if r.refused || r.skip then (s, { r with words := [] }) else
    let (k, core, tgt, off) := target s r
    let src : Source := .strand (Fin.ofNat 262144 r.strand) (Fin.ofNat 100 die)
    if k = 0 then
      if 64 ≤ r.words.length then
        let x := ingressRow s core (tgt % 64) (off + r.pos / 64) src ((r.words.take 64).flatMap (leBytes 8))
        if x.2 = 0 then
          pump n (llCopy x.1 die r.strand ((r.words.take 64).flatMap (leBytes 8))) die { r with words := r.words.drop 64, pos := r.pos + 64 }
        else refuseMsg x.1 die r x.2
      else if r.ended && !r.words.isEmpty then
        let x := ingressNarrow s core (tgt % 64) (off + r.pos / 64) (r.pos % 64 * 8) src ((r.words.take 8).flatMap (leBytes 8)) false
        if x.2 = 0 then
          pump n (llCopy x.1 die r.strand ((r.words.take 8).flatMap (leBytes 8))) die { r with words := r.words.drop 8, pos := r.pos + 8 }
        else refuseMsg x.1 die r x.2
      else (s, r)
    else if k = 2 then
      let room := 64 - (off + 8 * r.pos) % 512 / 8
      if decide (room ≤ r.words.length) || (r.ended && !r.words.isEmpty) then
        let x := deliverRow s die r (r.words.take room)
        pump n x.1 die x.2
      else (s, r)
    else match r.words with
      | [] => (s, r)
      | w :: _ =>
        if k = 1 ∧ (queue s tgt).held.isSome = true then (s, r)
        else
          let x := deliverWord s die r w
          pump n x.1 die x.2

/-- A message has nothing left to deliver. -/
def msgDone (s : State) (r : RecvMsg) : Bool :=
  let (k, _, tgt, _) := target s r
  r.ended && r.words.isEmpty && (r.refused || r.skip || k != 1 || (queue s tgt).held.isNone)

/-- Store a message that goes on, end one that is done. -/
def putMsg (s : State) (p : Nat) (r : RecvMsg) : State :=
  let s := updPort s p (fun x => { x with receiving := x.receiving.filter (fun y => !(y.strand == r.strand && y.group == r.group)) })
  if msgDone s r then endMsg s (88 + p / 2) r else updPort s p (fun x => { x with receiving := x.receiving ++ [r] })

/-- The checks and the opening of a message (R380, R383). -/
def startMsg (s : State) (die : Nat) (r : RecvMsg) : State × RecvMsg :=
  let n := r.strand
  if !linkOk s n || (r.group.isNone && peerDev s n != mSrcDev r.hdr) then
    let (v, s) := freshFree s
    (sendNack s (mSrcDev r.hdr) (if linkOk s n && r.group.isSome then peerStrand s n else v) r.seq 7, { r with refused := true })
  else
    let rx := match strand s n with
      | some x => x.rxSeq
      | none => 0
    let s := if r.group.isSome ∨ mKind r.hdr = 4 then s else
      let s := updStrand s n (fun x => { x with rxSeq := (r.seq + 1) % 65536 })
      if r.seq = rx ∨ 32768 ≤ (r.seq + 65536 - rx) % 65536 then s
      else raise (bump s (lnkOff (die - 88) LNK_GAP_COUNT) 1) die 0x705 2 n 0 [n, rx, (r.seq + 65535) % 65536]
    let (k, _, tgt, _) := target s r
    if 4 ≤ k then
      let (v, s) := freshFree s
      refuseMsg s die r (v % 8)
    else if k = 1 then
      let p : Producer := .strand (Fin.ofNat 262144 n)
      if portOk s tgt p && (queue s tgt).open_.isNone && (queue s tgt).held.isNone then (queOpen s tgt, r)
      else refusePort s die r
    else (s, r)

/-- A whole message is delivered on this device (a strand whose peer is a strand here). -/
def deliverHere (s : State) (die : Nat) (n seq : Nat) (h data : List Nat) : State :=
  let x := startMsg s die { strand := n, seq := seq, hdr := h, words := data, ended := true }
  let y := pump (data.length + 1) x.1 die x.2
  putMsg y.1 (2 * (die - 88)) y.2

/-- Post a message at a link die (R379, R384): header words 0 to 3, payload words, the posting task, and word 5. -/
def postMsg (s : State) (die n : Nat) (h data : List Nat) (task : Option Nat) (done : Nat) : State :=
  match strand s n with
  | none => failSend s die stStrandInvalid task
  | some x =>
    if !linkOk s n then failSend s die stStrandInvalid task else
    let h := [putBits (word h 0) 33 22 (ownDev s), word h 1, word h 2, word h 3]
    let seq := x.txSeq
    let cls := if mKind h = 3 then 3 else 2
    let note (s : State) : State := match task with
      | some k => { s with posted := s.posted ++ [(n, seq, k, mKind h)] }
      | none => s
    let m : SentMsg := { strand := n, die := die, cls := cls, seq := seq, kind := mKind h, off := mStream h, task := task,
                         doneCore := bits done 23 18, doneMarker := bits done 31 24, doneEn := bit done 32, since := now s,
                         bytes := mLength h, ll := if mKind h = 2 && lifelinePage s n (mOffset h) then (if mOffset h = 0xFFFFFFFFF800 then 2 else 1) else 0 }
    let s' := note (updStrand s n (fun x => { x with txSeq := (seq + 1) % 65536 }))
    if bit (strandWord s n 4) 12 then
      let g := bits (strandWord s n 4) 11 0
      let ps := groupPorts s g
      if ps.any (fun p => (port s p).dx8) then failSend s die stLinkClassUnsupported task
      else
        let s := updGroup s' g (fun y => { y with starts := y.starts ++ [mStream h], strand := n, die := ps.headD 0 / 2 })
        each ps.zipIdx s (fun s q => updPort s q.1 (fun y => { y with sending := y.sending ++
          [{ m with mcast := true, lead := q.2 == 0, rcv := g, doneEn := m.doneEn && q.2 == 0,
                    flits := mkFlits cls true (ownDev s) g seq (h ++ data) }] }))
    else if peerDev s n = ownDev s then
      let s := deliverHere s' die (peerStrand s n) seq h data
      if m.doneEn then countMarker s m.doneCore m.doneMarker else s
    else bindMsg s' { m with dst := peerDev s n, rcv := peerStrand s n, flits := mkFlits cls false (peerDev s n) (peerStrand s n) seq (h ++ data) }

/-! Flits in transit and arriving (R376, R380, R382, R384). -/

/-- A flit joins the message in transit that it continues. -/
def forwardFlit (s : State) (p q : Nat) (f : Flit) : State :=
  let s := bump s (lnkOff (p / 2) LNK_TRANSIT_BYTES) (8 * (f.valid8 + 1))
  updPort s q (fun x =>
    match x.sending.reverse.find? (fun m => !m.posted && m.rcv == f.strand.val && m.mcast == f.mcast && m.dst == f.dstDev.toNat && !m.whole) with
    | some m => { x with sending := x.sending.map (fun y => if y == m then { m with flits := m.flits ++ [f], whole := f.last } else y) }
    | none => { x with sending := x.sending ++
        [{ posted := false, cls := f.cls, mcast := f.mcast, dst := f.dstDev.toNat, rcv := f.strand, seq := f.msgSeq.toNat,
           flits := [f], whole := f.last }] })

/-- Credit for a flit that left the receive buffer, to the peer of a live strand: for a queue of POLICY 1 as its rows become free (R382). -/
def flitCredit (s : State) (r : RecvMsg) : State :=
  let (k, _, tgt, _) := target s r
  if mKind r.hdr = 4 ∨ strandLive s r.strand = false then s
  else if k = 1 ∧ r.refused = false ∧ quePolicy s tgt = true then updQueue s tgt (fun x => { x with owed := x.owed + 1 })
  else sendCredit s (peerDev s r.strand) (peerStrand s r.strand) 1

/-- A flit's words join its message; what can be delivered is. -/
def feed (s : State) (p : Nat) (r : RecvMsg) (ws : List Nat) (last : Bool) : State × RecvMsg :=
  let r : RecvMsg := { r with words := r.words ++ ws, ended := last }
  pump (r.words.length + 1) s (88 + p / 2) r

/-- The message under way of a strand at a port. -/
def underWay (s : State) (p n : Nat) (g : Option Nat) : Option RecvMsg :=
  (port s p).receiving.find? (fun r => r.strand == n && r.group == g && !r.ended)

/-- Ask the source for a range (R387). -/
def askRange (s : State) (g lo hi : Nat) : State :=
  controlTo (updGroup s g (fun x => { x with asked := hi })) 8 (group s g).srcDev (g % 4096 + lo % 2 ^ 64 * 2 ^ 12 + hi % 2 ^ 64 * 2 ^ 76)
/-- The member's gap record takes a state. -/
def gapState (s : State) (g v : Nat) : State := match (group s g).gap with
  | some (d, k) => setField s (gapOff d k 0) 31 30 v
  | none => s
/-- A member has bytes up to an offset: acknowledged, and the next range asked for until it has caught up (R385, R387). -/
def accept (s : State) (g off : Nat) : State :=
  let s := updGroup s g (fun x => { x with accepted := off })
  let s := controlTo s 6 (group s g).srcDev (g % 4096 + off % 2 ^ 64 * 2 ^ 12)
  let x := group s g
  if !x.detached || decide (off < x.asked) then s
  else if off < x.newest then askRange s g off (min x.newest (off + 2 ^ 20))
  else gapState s g (if x.partly then 2 else 1)

/-- A unicast flit for this device. -/
def localFlit (s : State) (p : Nat) (f : Flit) : State :=
  let n := f.strand.val
  let s := lnkTouch s (p / 2) n
  let ws := flitWords f
  let start (s : State) : State × RecvMsg := startMsg s (88 + p / 2) { strand := n, seq := f.msgSeq.toNat, hdr := ws.take 4 }
  let go (s : State) (r : RecvMsg) (ws : List Nat) : State :=
    let x := feed s p r ws f.last
    let s := flitCredit (putMsg x.1 p x.2) x.2
    if f.last && mKind r.hdr == 4 && !x.2.refused then match groupOf s n with
      | some g => accept s g (mStream r.hdr + mLength r.hdr)
      | none => s
    else s
  if f.first then
    let x := start s
    go x.1 x.2 (ws.drop 4)
  else match underWay s p n none with
    | some r => go s r ws
    | none => s

/-- A multicast flit for a member (R385, R387): a detached one discards it, until a message begins where it has caught up. -/
def memberFlit (s : State) (p g : Nat) (f : Flit) : State :=
  let n := groupStrand s g
  let ws := flitWords f
  let go (s : State) (r : RecvMsg) (ws : List Nat) : State :=
    let x := feed s p r ws f.last
    let s := putMsg x.1 p x.2
    if r.skip then updGroup s g (fun y => { y with newest := max y.newest (mStream r.hdr + mLength r.hdr) })
    else
      let off := min (mStream r.hdr + mLength r.hdr) ((group s g).accepted + 8 * ws.length)
      let s := updGroup s g (fun y => { y with newest := max y.newest off })
      if f.last || off / 65536 != (group s g).accepted / 65536 then accept s g off
      else updGroup s g (fun y => { y with accepted := off })
  if f.first then
    let h := ws.take 4
    let back := (group s g).detached && mStream h == (group s g).accepted
    let skip := (group s g).detached && !back
    let s := updGroup s g (fun y => { y with srcDev := mSrcDev h, detached := y.detached && !back })
    let s := if skip then s else updGroup s g (fun y => { y with hdr := h, accepted := mStream h })
    let r : RecvMsg := { strand := n, group := some g, seq := f.msgSeq.toNat, hdr := h, skip := skip }
    let x := if skip then (s, r) else startMsg s (88 + p / 2) r
    go x.1 x.2 (ws.drop 4)
  else match underWay s p n (some g) with
    | some r => go s r ws
    | none => s

/-- A data flit arrives (R376): to this device, onward, or discarded with one NACK for each message. -/
def dataFlit (s : State) (p : Nat) (f : Flit) : State :=
  let s := bump s (portOff p LNK_RX_BYTES) (8 * (f.valid8 + 1))
  let s := updPort s p (fun x => if f.cls = 2 then { x with returnBulk := x.returnBulk + 1 } else { x with returnCbulk := x.returnCbulk + 1 })
  if f.mcast then
    let g := f.strand.val % 4096
    let s := each (groupPorts s g) s (fun s q => forwardFlit s p q f)
    if groupLocal s g then memberFlit s p g f else s
  else if f.dstDev.toNat = ownDev s then
    if strandLive s f.strand && (!lnkHolds s (p / 2) f.strand || (port s p).waiting.any (fun y => y.strand == f.strand)) then
      updPort s p (fun x => { x with waiting := x.waiting ++ [f] })
    else localFlit s p f
  else
    let q := routePort s f.dstDev.toNat
    if q < 16 ∧ (port s q).state ≠ 0 then forwardFlit s p q f
    else if f.first then
      let (v, s) := freshFree s
      sendNack s (mSrcDev ((flitWords f).take 4)) v f.msgSeq.toNat 7
    else s

/-! Control messages (R374, R376). -/

/-- The words of a control flit as 256-bit messages. -/
def controlMessages (f : Flit) : List Nat :=
  let ws := flitWords f
  (List.range (ceilDiv ws.length 4)).map (fun i => (List.range 4).foldl (fun m k => m + ws.getD (4 * i + k) 0 * 2 ^ (64 * k)) 0)
/-- A control message arrives: forwarded, discarded and counted, or taken. A BARRIER for this device goes to the host die; the
other messages that stay take effect at their own commands (log entry 41). -/
def controlArrives (s : State) (p m : Nat) : State :=
  let type := m % 256
  let dst := bits m 19 8
  if type = 0 ∨ 10 < type then bump s (portOff p LNK_CTRL_BAD_COUNT) 1
  else if type = 9 ∨ type = 4 ∨ type = 5 then s
  else if dst ≠ ownDev s then
    let q := routePort s dst
    if q < 16 then sendControl s q m else bump s (portOff p LNK_CTRL_BAD_COUNT) 1
  else if type = 1 then sendChain s (88 + p / 2) hstDie (.barrier (bits m 43 32) (bits m 59 44) (bits m 31 20))
  else s
/-- A flit of an accepted frame. -/
def flitArrives (s : State) (p : Nat) (f : Flit) : State :=
  if f.cls = 0 then s
  else if f.cls = 1 then each (controlMessages f) s (fun s m => controlArrives s p m)
  else dataFlit s p f

/-! Queue rows that become free let waiting writes go on (R296, R382). -/

/-- Messages for a queue that wait at the link dies go on. -/
def drainLink (s : State) (q : Nat) : State :=
  each (List.range 16) s (fun s p =>
    match (port s p).receiving.find? (fun r => (target s r).1 == 1 && (target s r).2.2.1 == q) with
    | some r =>
      let x := pump (r.words.length + 1) s (88 + p / 2) r
      putMsg x.1 p x.2
    | none => s)
def settle (s : State) (q : Nat) : State := drainLink (retryHeld s q) q
/-- Every queue that holds a write back. -/
def settleAll (s : State) : State := each ((s.queues.filter (fun p => p.2.held.isSome)).map (·.1)) s settle
/-- Commit a slot's span when it may, and let queues go on. -/
def commitTry (s : State) (k : Nat) : State := settleAll (tryCommit s k)

/-- A row or narrow write of a strand is refused at an ingress (08 R213): the message that it belongs to is refused as one whose flits carry
it is, and its device is told. -/
def refuseStrand (s : State) (die n cause : Nat) : State :=
  match [2 * (die - 88), 2 * (die - 88) + 1].findSome? (fun p =>
      ((port s p).receiving.find? (fun r => r.strand == n && !r.refused)).map (fun r => (p, r))) with
  | some (p, r) =>
    let x := refuseMsg s die r cause
    updPort x.1 p (fun y => { y with receiving := y.receiving.map (fun q => if q == r then x.2 else q) })
  | none => returnNack s die n (((strand s n).map (·.rxSeq)).getD 0) cause

end Sys2Proof.Machine
end

