-- ==== Sys2Proof/Machine/LifelineOps.lean ====
section
/-! DEFINITION. Lifelines: their records, their state words, and what a step start does (17 R426 to R437). -/

namespace Sys2Proof.Machine

/-- Words 16 to 23 of a strand entry (17 R427). -/
def llWords (x : Lifeline) : List Nat :=
  [x.role + x.state * 2 ^ 2 + b2n x.securing * 2 ^ 4 + b2n x.correlated * 2 ^ 5 + x.partnerFeed % 16 * 2 ^ 8,
   x.kMax % 65536 + x.kCur % 65536 * 2 ^ 16 + x.period % 65536 * 2 ^ 32 + x.index % 256 * 2 ^ 48,
   x.securedStep, x.anchorStep, x.dataPos, x.rngStep, x.slotVa, x.slotBytes]
/-- The management die writes the words. -/
def llStore (s : State) (n : Nat) : State :=
  each ((llWords (lifeline s n)).zipIdx) s (fun s w => wr64 s (strandEntry s n (16 + w.2)) w.1)
/-- Change a lifeline and write its words. -/
def setLl (s : State) (n : Nat) (f : Lifeline → Lifeline) : State := llStore (updLifeline s n f) n

/-- Send a lifeline record (R426). -/
def postRecord (s : State) (n off : Nat) (ws : List Nat) : State :=
  postMsg s (strandLink s n) n [2, 8 * ws.length, 0xFFFFFFFFF000 + off, 0] ws none 0

/-! The setup block of an ARM (R427 Table: Setup blocks). -/

def suParamVa (x : Lifeline) : Nat := bits (word x.setup 1) 47 0
def suParamBytes (x : Lifeline) : Nat := bits (word x.setup 2) 39 0
def suOptVa (x : Lifeline) : Nat := bits (word x.setup 3) 47 0
def suOptBytes (x : Lifeline) : Nat := bits (word x.setup 4) 39 0
def suSamples (x : Lifeline) : Nat := bits (word x.setup 5) 31 0
def suDoneCore (x : Lifeline) : Nat := bits (word x.setup 5) 37 32
def suDoneMarker (x : Lifeline) : Nat := bits (word x.setup 5) 45 38
def suStepBase (x : Lifeline) : Nat := word x.setup 6
def suDataBase (x : Lifeline) : Nat := word x.setup 7

/-- One released step (R432). -/
def releaseStep (s : State) (n : Nat) : State := countMarker s (suDoneCore (lifeline s n)) (suDoneMarker (lifeline s n))

/-- PAYLOAD records of a range, of up to 65,536 B (R432 step 4). -/
def sendPayload (s : State) (n va bytes : Nat) : State :=
  each (List.range (ceilDiv bytes 65536)) s (fun s i =>
    let k := min 65536 (bytes - 65536 * i)
    let ws := (List.range (k / 8)).map (fun j => match translate s n (va + 65536 * i + 8 * j) false with
      | .ok a => rd64 s a
      | .err _ => 0)
    bump (postRecord s n 0x800 ws) (llOff MGT_LL_BYTES) k)
/-- The optimiser shard follows the gather (R432 step 4). -/
def sendOptimiser (s : State) (n : Nat) : State :=
  let x := lifeline s n
  sendPayload (updLifeline s n (fun x => { x with payloadSent := true, firstPayload := now s, payloadLeft := suOptBytes x })) n (suOptVa x) (suOptBytes x)

/-- Send MARK for the securing in flight (R432 step 2). -/
def sendMark (s : State) (n : Nat) : State :=
  let x := lifeline s n
  match x.mark with
  | none => s
  | some (step, dataPos, rng, anchor) =>
    let seq := match strand s n with
      | some y => y.txSeq
      | none => 0
    let s := updLifeline s n (fun x => { x with markSeq := seq, markAt := now s, sentBytes := 0, payloadSent := false, payloadLeft := 0 })
    postRecord s n 0x080 [step, dataPos, rng, suParamBytes x + b2n anchor * 2 ^ 40]

/-- Distance of a step from STEP_BASE is a multiple of k. -/
def onBeat (x : Lifeline) (step k : Nat) : Bool := decide (((step : Int) - suStepBase x) % (orOne k : Nat) = 0)
/-- A task's step is new on its strand (R430). -/
def newStep (s : State) (n step : Nat) : Bool := match strand s n with
  | some x => match x.stepSeen with
    | some k => decide (k < step)
    | none => true
  | none => false

/-- A lifeline holds a task at dispatch (R431, R435). -/
def stepHolds (s : State) (n step : Nat) : Bool :=
  let x := lifeline s n
  x.role == 1 && x.state == 2 &&
    (decide (x.anchorStep + x.period < step) || (newStep s n step && x.securing && onBeat x step x.period))

/-- A step starts (R430 to R432, R436). -/
def stepStart (s : State) (n step : Nat) : State :=
  if !newStep s n step then s else
  let last := match strand s n with
    | some y => y.stepLast
    | none => 0
  let s := updStrand s n (fun y => { y with stepSeen := some step })
  let x := lifeline s n
  if x.role ≠ 1 then s
  else
    let s := updLifeline s n (fun x => { x with starts := (x.starts ++ [now s]).drop (x.starts.length - 64) })
    if x.state = 2 ∧ onBeat x step x.kCur = true then
      if x.securing then releaseStep (bump s (llOff MGT_LL_SKIP_COUNT) 1) n
      else
        let pos := (((suDataBase x : Int) + ((step : Int) - suStepBase x) * suSamples x) % (2 ^ 64 : Int)).toNat
        let s := setLl s n (fun x => { x with securing := true, mark := some (step, pos, last, onBeat x step x.period), hold := 0 })
        let s := sendMark s n
        if suParamBytes x = 0 then sendOptimiser s n else s
    else
      let s := if x.state = 3 ∧ x.anchorStep + x.period < step then bump s (llOff MGT_LL_UNPROT_STEPS) 1 else s
      releaseStep s n

end Sys2Proof.Machine
end

