-- ==== Sys2Proof/Machine/Pace.lean ====
section
/-! DEFINITION. Pace, the governor and reference time (02). -/

namespace Sys2Proof.Machine

/-- The opcode of BARRIER (16 R409). -/
abbrev opBarrier : Nat := 5

/-- 10 ns of a share (02 R536): 0 pace-limited, 1 pacer-held, 2 stalled, 3 idle. -/
def shareOfInstant (s : State) (c : Nat) : Nat :=
  if issueWait s c then 2 else
  match (core s c).task, (core s c).stall with
  | none, _ => 3
  | some _, some _ => 2
  | some _, none => if effCeil s c < siliconRate s c then 1 else 0

/-- The list with its element i raised by n. -/
def addAt (l : List Nat) (i n : Nat) : List Nat := l.set i (l.getD i 0 + n)

/-- Lanes that are thieves without success (05 CORE_LANE_STARVE_NS). -/
def starving (s : State) (c : Nat) : Nat := match (core s c).task with
  | none => 0
  | some t => if !t.copy && claimsMode t.table && stealEn t.table && t.phase == 4 then
      ((List.range 32).filter (fun l =>
        let x := tget {} (core s c).lanes l
        x.running.isNone && x.queue.isEmpty)).length else 0

/-- What 10 ns of REFTIME add to a core: a share, its credits, and the counters of time (02 R37, R536 and the registers
that count REFTIME ns). -/
def coreTick (s : State) (c : Nat) : State :=
  let k := shareOfInstant s c
  let e := effCeil s c
  let x := core s c
  let s := updCore s c (fun x => { x with shares := addAt x.shares k 10, credits := min 64 (x.credits + e / 25) })
  let s := if k = 1 then bumpCore s c CORE_PACER_HELD_NS 10 else s
  let s := if issueWait s c then bumpCore s c CORE_STALL_UNSCHED_NS 10 else s
  let s := match x.task, x.stall with
    | some _, some st =>
      let s := bumpCore s c (stallReg st.scheduled) 10
      let s := if st.resource = resScoreboard then bumpCore s c SPM_SB_WAIT_NS 10 else s
      let s := if resKind st.resource = resQueueEmpty then bumpCore s c QUE_EMPTY_WAIT_NS 10 else s
      if resKind st.resource = resQueueFull then bumpCore s c QUE_FULL_WAIT_NS 10 else s
    | _, _ => s
  let s := if x.accPhase = 3 then bumpCore s c CORE_ACC_FOREIGN_WAIT_NS 10
    else if x.accPhase = 6 then bumpCore s c CORE_ACC_BASE_WAIT_NS 10
    else if x.accPhase = 2 ∨ x.accPhase = 4 ∨ x.accPhase = 5 ∨ x.accPhase = 7 then bumpCore s c CORE_ACC_MERGE_NS 10
    else s
  let claiming := match x.task with
    | some t => t.claimInFlight && x.lanes.all (fun p => p.2.queue.isEmpty) && x.chunks.all (fun k => !k.searched || k.cut == k.e)
    | none => false
  let s := if claiming then bumpCore s c CORE_CLAIM_WAIT_NS 10 else s
  let s := if starving s c = 0 then s else bumpCore s c CORE_LANE_STARVE_NS (10 * starving s c)
  if x.tags.length = 256 then bumpCore s c FET_TAG_FULL_NS 10 else s

/-! Completion queues (16 R407, R416): a ring of 2^LOG_SIZE entries, full when that many are held. -/

def cqSize (s : State) (q : Nat) : Nat := 2 ^ bits (reg s (cqOff q 0)) 5 1
def cqHead (s : State) (q : Nat) : Nat := bits (reg s (cqOff q 2)) 15 0
def cqTail (s : State) (q : Nat) : Nat := bits (reg s (cqOff q 2)) 31 16
def cqPhase (s : State) (q : Nat) : Bool := bit (reg s (cqOff q 2)) 32
/-- Entries written and not yet taken: the number since the head doorbell, kept beside the entry (log entry 16). -/
def cqHeld (s : State) (q : Nat) : Nat := tget 0 s.hst.cqHeld q
def cqFull (s : State) (q : Nat) : Bool := decide (cqSize s q ≤ cqHeld s q)
/-- The completion queue of an SQ. -/
def sqCq (s : State) (q : Nat) : Nat := bits (reg s (sqOff q 0)) 14 3

/-- Slots that wait for room in their CQ (16 R416). -/
def waitingForCq (s : State) : List Nat := (busySlots s).filter (fun k => slotReady s k && cqFull s (sqCq s (slotOf s k).sq))

/-- What 10 ns of REFTIME add to the other dies. -/
def deviceTick (s : State) : State :=
  let w := (waitingForCq s).length
  let s := if w = 0 then s else bump s (hstOff HST_CQ_FULL_NS) (10 * w)
  let s := each s.hst.llWaiting s (fun s p => updLifeline (bump s (llOff MGT_LL_HOLD_NS) 10) p.2 (fun x => { x with hold := x.hold + 10 }))
  let s := { s with hst := { s.hst with counterWaitNs := s.hst.counterWaitNs + 10 * s.hst.counterWaiting.length } }
  let s := each ((s.mifs.filter (fun p => p.2.retraining.isSome)).map (·.1)) s (fun s k => bump s (mifOff k MIF_RETRAIN_NS) 10)
  let s := each ((s.ports.filter (fun p => decide (64 < p.2.control.length))).map (·.1)) s (fun s p => bump s (portOff p LNK_CTRL_FULL_NS) 10)
  let s := if throttled s then bump s (pwrOff MGT_THROTTLE_NS) 10 else s
  if pwrLimiting s then bump s (pwrOff MGT_PWR_LIMIT_NS) 10 else s

/-- REFTIME after an edge of the reference clock (02 R47, R49, R50): it advances by 10, corrected for the spread measured and slewed by at most
2/1000 ns; corrections gather until they make a whole 10 ns. -/
def edgeClock (k : Clock) (spread : Int) : Clock :=
  let d : Int := if k.slew > 2 then 2 else if k.slew < -2 then -2 else k.slew
  let total := 10000 + d + spread + k.frac
  let n := (total / 10000).toNat
  { k with
      reftime := (k.reftime + 10 * n) % 2 ^ 64
      slew := k.slew - d
      frac := total - 10000 * n
      spread := k.spread || decide (spread ≠ 0) }

/-- REFERENCE_CLOCK_EDGE (02 R47): REFTIME moves on, and with it every counter of time. -/
def execReferenceClockEdge (spread : Int) (s : State) : Result :=
  let s := { s with clock := edgeClock s.clock spread }
  .next (deviceTick (each (coresOf (activeMask s)) s coreTick))

/-- LONG_STALL_EVENT (02 R46, 15 R378, 16 R414): a wait beyond 0x2014:02; it goes on. -/
def execLongStallEvent (who : Waiter) (s : State) : Result :=
  let long (since : Nat) : Bool := decide (objNat s 0x201402 * 1000 < now s - since)
  .next (match who with
    | .core c => match (core s c).stall with
      | none => match (core s c).task with
        | some t =>
          let x := slotOf s t.slot
          if issueWait s c && !x.reported && long x.since then
            raise (updSlot s t.slot (fun x => { x with reported := true })) (coreDie c) 0x202 1 t.strand c [c, resWait]
          else s
        | none => s
      | some st =>
        if !st.reported && long st.since then
          let s := updCore s c (fun x => { x with stall := some { st with reported := true } })
          let n := match (core s c).task with
            | some t => t.strand
            | none => 0
          raise s (coreDie c) 0x202 1 n c [c, st.resource]
        else s
    | .strand n => match s.unsent.find? (fun m => m.strand == n.val && !m.reported) with
      | none => s
      | some m =>
        if long m.since then
          raise { s with unsent := s.unsent.map (fun y => if y == m then { y with reported := true } else y) } m.die 0x202 1 n 0 [n, resPort]
        else s
    | .barrier k =>
      let x := slotOf s k
      if x.busy && x.opcode == opBarrier && !x.written && !x.reported && long x.since then
        raise (updSlot s k (fun x => { x with reported := true })) hstDie 0x202 1 x.strand 0 [k, resBarrier]
      else s)

/-- Rule 1 of R54. -/
def floorRule (s : State) (c : Nat) : Option State :=
  if (core s c).vcore < vFloor s c then some (updCore s c (fun x => { x with vcore := min 850 (x.vcore + 5), floorActed := true })) else none

/-- One step down, not below the floor. -/
def lowerStep (s : State) (c : Nat) : State := updCore s c (fun x => { x with vcore := max (vFloor s c) (x.vcore - 5) })
/-- One step up, not above 850 mV. -/
def raiseStep (s : State) (c : Nat) : State := updCore s c (fun x => { x with vcore := min 850 (x.vcore + 5) })

/-- FLOOR_CHECK (02 R54 rule 1, every 1 µs). -/
def execFloorCheck (c : CoreId) (s : State) : Result := .next ((floorRule s c).getD s)

/-- The lowest code of the largest shares. -/
def dominant (l : List Nat) : Nat :=
  let m := l.foldl max 0
  ((List.range 4).find? (fun i => l.getD i 0 == m)).getD 0

/-- The rules of R54 at a window's end, with R55 for an idle core and R56 for a governor that is off. -/
def governor (s : State) (c : Nat) : State :=
  let on := objNat s 0x201101 == 1
  let sh (i : Nat) := (core s c).shares.getD i 0 * 100
  match floorRule s c with
  | some s => s
  | none =>
    if pwrLimiting s then updCore (lowerStep s c) c (fun x => { x with pwrLimited := true })
    else if !on then updCore s c (fun x => { x with vcore := 850 })
    else if (core s c).task.isNone then lowerStep s c
    else if objNat s 0x201102 * 10000 ≤ sh 2 ∨ objNat s 0x201103 * 10000 ≤ sh 1 then lowerStep s c
    else if objNat s 0x201104 * 10000 ≤ sh 0 then raiseStep s c
    else s

/-- GOVERNOR_WINDOW_END (02 R54 to R56, R536): the rules act on the window's shares, the window's record is taken, and a
new window opens. -/
def execGovernorWindowEnd (c : CoreId) (s : State) : Result :=
  .next (if now s < (core s c).winSince + 10000 then s else
    let s := governor (updCore s c (fun x => { x with pwrLimited := false })) c
    updCore s c (fun x => { x with floorRaise := x.floorActed, floorActed := false, paceMeas := x.winStitches / 10,
                                   winState := dominant x.shares, shares := [0, 0, 0, 0], winStitches := 0, winSince := now s }))

/-- REFTIME is loaded once; a value below it is slewed to (02 R49). A slew that is under way runs on after a load that is taken at once (log
entry 84). -/
def loadTime (s : State) (v : Nat) : State :=
  if s.clock.locked then s
  else if s.clock.reftime ≤ v then { s with clock := { s.clock with reftime := v, locked := true } }
  else { s with clock := { s.clock with locked := true, slew := ((v : Int) - s.clock.reftime) * 1000 } }
/-- An offset in ns to slew; it replaces what remains of the last one (02 R49). -/
def slewTime (s : State) (z : Int) : State := { s with clock := { s.clock with slew := z * 1000 } }

/-- REFTIME_LOAD (02 R49). -/
def execReftimeLoad (value : Word) (s : State) : Result := .next (loadTime s value.toNat)

/-- REFTIME_SLEW (02 R49). -/
def execReftimeSlew (offset : Word) (s : State) : Result := .next (slewTime s offset.toInt)

/-- REFCLK_LOST (02 R51). -/
def execRefclkLost (s : State) : Result :=
  .next (if s.clock.refclkLost then s
    else raise { s with clock := { s.clock with refclkLost := true } } mgtDie 0x102 1 0 0 [])

/-- REFCLK_RETURN (02 R51): REFTIME goes on from the oscillator's value and slews the difference. -/
def execRefclkReturn (difference : Word) (s : State) : Result :=
  .next (if s.clock.refclkLost then
      { s with clock := { s.clock with refclkLost := false, slew := difference.toInt * 1000 } } else s)

/-- REFTIME_DISTRIBUTION (02 R48): the die takes the value. -/
def execReftimeDistribution (die : DieId) (f : Frame) (value : Word) (s : State) : Result :=
  .next (onChain die f s (fun s => { s with clock := { s.clock with dieTime := tset s.clock.dieTime die value.toNat } }))

end Sys2Proof.Machine
end

