-- ==== Sys2Proof/Machine/Nest.lean ====
section
/-! DEFINITION. The loop nest of a task: iterations, panel coordinates, outputs in the order in which they complete, and where their
partial sums lie (09 R232, R236, R237, R244, R248, R257; 06 R145). -/

namespace Sys2Proof.Machine

/-! Iterations (R232, R248, R257). -/

/-- First iteration of a level in the running span and how many there are: the span's own, the core's share, or all. -/
def levelRange (t : CoreTask) (n : Nat) : Nat × Nat :=
  if hSpanLevel t.table = n then (t.span, if t.span < bound t.table t.shape n then 1 else 0)
  else
    let r := shareOf t.table t.shape t.rank t.cores n
    (r.1, r.2 - r.1)
/-- Levels whose run-time bound is zero: their bodies never run, and nothing is read for them (R236). -/
def zeroLevels (t : CoreTask) : List Nat := (levels t.table).filter (fun n => bound t.table t.shape n == 0)
/-- Iterations of levels together. -/
def total (t : CoreTask) (l : List Nat) : Nat := l.foldl (fun p n => p * (levelRange t n).2) 1
/-- Level indices of iteration k of levels, outermost first. -/
def indices (t : CoreTask) : List Nat → Nat → List (Nat × Nat)
  | [], _ => []
  | n :: l, k => (n, (levelRange t n).1 + k / orOne (total t l)) :: indices t l (k % orOne (total t l))
/-- The index of a level. -/
def indexOf (ix : List (Nat × Nat)) (n : Nat) : Nat := ((ix.find? (fun p => p.1 == n)).map (·.2)).getD 0

/-- Tile coordinate of a slot's panel (R232); the split level counts from the core's first iteration for SOURCE 1 (R248). -/
def panelAt (t : CoreTask) (k : Nat) (ix : List (Nat × Nat)) : Int × Int :=
  let step (f : Nat → Int) : Int := (ix.map (fun p =>
    let i := if sSource t.table k = 1 ∧ hSplitLevel t.table = p.1 then p.2 - (levelRange t p.1).1 else p.2
    (i : Int) * f p.1)).foldl (· + ·) 0
  ((sOriginTi t.table k : Int) + step (fun n => strideI t.table n k), (sOriginTj t.table k : Int) + step (fun n => strideJ t.table n k))
where
  strideI (w : List Nat) (n k : Nat) : Int := if dKind (sLayout w k) != 1 then lDti w n k else 0
  strideJ (w : List Nat) (n k : Nat) : Int := if dKind (sLayout w k) != 1 then lDtj w n k else 0

/-- What the coordinates of a SOURCE 1 slot lack of the whole nest's: the split level's iterations before the core's first (R248). -/
def shareShift (t : CoreTask) (k : Nat) : Int × Int :=
  let n := hSplitLevel t.table
  if sSource t.table k = 1 ∧ (levels t.table).contains n = true then
    (((levelRange t n).1 : Int) * panelAt.strideI t.table n k, ((levelRange t n).1 : Int) * panelAt.strideJ t.table n k)
  else (0, 0)
/-- The step of levels in order at indices; a level without an index stands at its first. -/
def stepOf (t : CoreTask) (l : List Nat) (ix : List (Nat × Nat)) : Nat :=
  l.foldl (fun k n => k * (levelRange t n).2 + (indexOf ix n - (levelRange t n).1)) 0

/-- A slot moves at a level. -/
def slotMoves (t : List Nat) (n k : Nat) : Bool := dKind (sLayout t k) != 1 && (lDti t n k != 0 || lDtj t n k != 0)

/-! Tensors at their run-time shapes (R234, R237; 04 R91). -/

def rows (t : CoreTask) (k : Nat) : Nat := runH t.table t.shape k
def cols (t : CoreTask) (k : Nat) : Nat := runW t.table t.shape k
/-- A slot's tensor has no elements at its run-time shape: no byte of it is read or written (04 R109). -/
def emptyTensor (t : CoreTask) (k : Nat) : Bool := rows t k == 0 || cols t k == 0
/-- Run-time tile grid of a slot. -/
def runGrid (t : CoreTask) (k : Nat) : Nat × Nat :=
  let d := sLayout t.table k
  (ceilDiv (rows t k) (tileH (dFmt d)), ceilDiv (if dKind d = 2 then cols t k / 2 else cols t k) (tileW (dFmt d)))
/-- A tile is skipped (R237). -/
def tileSkipped (t : CoreTask) (k : Nat) (ti tj : Int) : Bool :=
  decide (ti < 0 ∨ tj < 0 ∨ ((runGrid t k).1 : Int) ≤ ti ∨ ((runGrid t k).2 : Int) ≤ tj)
/-- A tile that is read or written holds selvedge elements (R91, R237). -/
def tileMasked (t : CoreTask) (k : Nat) (ti tj : Int) : Bool :=
  let d := sLayout t.table k
  let w := if dKind d = 2 then cols t k / 2 else cols t k
  !tileSkipped t k ti tj && decide ((rows t k : Int) < (ti + 1) * tileH (dFmt d) ∨ (w : Int) < (tj + 1) * tileW (dFmt d))
/-- Tiles of a panel. -/
def panelTiles (t : CoreTask) (k : Nat) (at_ : Int × Int) : List (Int × Int) :=
  (List.range (sPanelTr t.table k)).flatMap (fun i => (List.range (sPanelTc t.table k)).map (fun j => (at_.1 + i, at_.2 + j)))
/-- Skipped and masked tiles of a panel count (R237). -/
def countTiles (s : State) (c : Nat) (t : CoreTask) (k : Nat) (at_ : Int × Int) : State :=
  let l := panelTiles t k at_
  bumpCore (bumpCore s c LOOP_SKIP_TILE_COUNT (l.filter (fun p => tileSkipped t k p.1 p.2)).length)
    c LOOP_SELVEDGE_COUNT (l.filter (fun p => tileMasked t k p.1 p.2)).length

/-! The rows of a panel (R231, R232; 10 R259). -/

/-- Value rows of a tile, and of a panel: addresses relative to the slot's place. -/
def tileVas (t : CoreTask) (k : Nat) (p : Int × Int) : List Nat :=
  let d := sLayout t.table k
  (List.range (planes (dFmt d))).map (fun q => matrixValue d 0 + (tileOrdinal d p.1.toNat p.2.toNat * planes (dFmt d) + q) * 512)
def panelVas (t : CoreTask) (k : Nat) (at_ : Int × Int) : List Nat :=
  ((panelTiles t k at_).filter (fun p => !tileSkipped t k p.1 p.2)).flatMap (tileVas t k)
/-- The device physical address at which a row of a streamed slot has landed. -/
def landedKey (k va : Nat) : Nat := k * 2 ^ 48 + va
def landedRow (t : CoreTask) (k va : Nat) : Option Nat := tfind t.landedAt (landedKey k va)
/-- Where a slot's operand is read: the rows of a streamed one in its region, once they have landed (05 R121). -/
def readPlace (s : State) (c : Nat) (t : CoreTask) (k : Nat) : Place :=
  if sSource t.table k = 0 then .landed t.strand ((t.landedAt.filter (fun p => p.1 / 2 ^ 48 == k)).map (fun p => (p.1 % 2 ^ 48, p.2)))
  else slotPlace s c t k
/-- Scratchpad rows, as memory and row, that hold rows of a slot. -/
def slotRows (s : State) (c : Nat) (t : CoreTask) (k : Nat) (l : List Nat) : List (Nat × Nat) :=
  let m := sMem t.table k
  if sSource t.table k = 1 then l.map (fun a => (m, regionBase s c m (sRegion t.table k) + a / 512))
  else l.filterMap (fun a => (landedRow t k a).map (fun x => (m, (x - rowDpa c m 0) / 512)))
/-- Every row of a panel of a streamed slot has landed. -/
def panelLanded (t : CoreTask) (k : Nat) (at_ : Int × Int) : Bool :=
  sSource t.table k != 0 || (panelVas t k at_).all (fun a => (landedRow t k a).isSome)

/-- Logical element (i, j) of an operand slot as a factor: none outside the shape (04 R91), and none at a position that a 2:4 operand
does not store (04 R101). A tile step names no matrix, so a compute slot with OUTER above 1 reads and writes matrix 0 (log entry 87). -/
def operand (s : State) (c : Nat) (t : CoreTask) (k : Nat) (i j : Int) : Option FVal :=
  let d := sLayout t.table k
  let pl := readPlace s c t k
  if i < 0 ∨ j < 0 then none
  else
    let i := i.toNat
    let j := j.toNat
    let r := if dKind d = 2 ∧ dTransposed d = true then j else i
    let q := if dKind d = 2 ∧ dTransposed d = true then i else j
    if rows t k ≤ r ∨ cols t k ≤ q then none
    else if dKind d = 2 then
      let n := nibbleAt s pl d 0 r (q / 4)
      if n % 4 = q % 4 then some (storedVal s pl d 0 r (q / 4 * 2))
      else if n / 4 = q % 4 then some (storedVal s pl d 0 r (q / 4 * 2 + 1))
      else none
    else some (storedVal s pl d 0 i j)

/-! Products of a form (R257; 07 R174). -/

/-- One product: its levels in scratchpad order with how many of them are shared, slot A (none: the intermediate), weight slots, output
slot (none: the intermediate). -/
structure Prod where
  levels : List Nat
  shared : Nat
  a : Option Nat
  b : List Nat
  out : Option Nat
  first : Bool
  deriving DecidableEq, Repr

def sharedLevels (w : List Nat) : List Nat := (spmOrder w).filter (fun n => lProduct w n == 0)
def ownLevels (w : List Nat) (p : Nat) : List Nat := (spmOrder w).filter (fun n => lProduct w n == p)
def slotList (w : List Nat) (r : Nat) : List Nat := (slotWith w r).toList
/-- The only product of a table, or the second of a pair. -/
def lastProd (w : List Nat) : Prod :=
  if hPair w then { levels := sharedLevels w ++ ownLevels w 2, shared := (sharedLevels w).length, a := none, b := slotList w 6,
                    out := slotWith w 7, first := false }
  else { levels := spmOrder w, shared := 0, a := slotWith w 1, b := slotList w 2, out := slotWith w 3, first := false }
/-- The first product of a pair. -/
def firstProd (w : List Nat) : Prod :=
  { levels := sharedLevels w ++ ownLevels w 1, shared := (sharedLevels w).length, a := slotWith w 1,
    b := if gated w then slotList w 4 ++ slotList w 5 else slotList w 2, out := none, first := true }

/-- Levels of a product before its outermost reduction: each iteration of them completes its output panels. A first product completes
within one iteration of the innermost shared level. -/
def outerCount (w : List Nat) (p : Prod) : Nat :=
  if p.first then p.shared
  else if claimsMode w then 0
  else match p.levels.findIdx? (fun n => lReduce w n) with
    | some i => i
    | none => p.levels.length
def outerLevels (w : List Nat) (p : Prod) : List Nat := p.levels.take (outerCount w p)
def innerLevels (w : List Nat) (p : Prod) : List Nat := p.levels.drop (outerCount w p)
/-- The slot whose strides move a product's output: its output slot, or the weights of a first product. -/
def outMover (p : Prod) : Nat := (p.out.or p.b.head?).getD 0
/-- Inner levels that move the output: they run over the panels that complete together. -/
def panelLevels (w : List Nat) (p : Prod) : List Nat := (innerLevels w p).filter (fun n => !lReduce w n && slotMoves w n (outMover p))

/-- Panel steps of one iteration of the shared levels: first and second product. -/
def ownSteps (t : CoreTask) : Nat × Nat :=
  if hPair t.table then (total t (ownLevels t.table 1), total t (ownLevels t.table 2)) else (0, total t (spmOrder t.table))
/-- Panel steps of the running span. -/
def spanTotal (t : CoreTask) : Nat :=
  if hPair t.table then total t (sharedLevels t.table) * ((ownSteps t).1 + (ownSteps t).2) else (ownSteps t).2
/-- The product that takes step k of the span, and its own step number. -/
def stepProd (t : CoreTask) (k : Nat) : Prod × Nat :=
  let n := ownSteps t
  if hPair t.table then
    let i := k / orOne (n.1 + n.2)
    let r := k % orOne (n.1 + n.2)
    if r < n.1 then (firstProd t.table, i * n.1 + r) else (lastProd t.table, i * n.2 + (r - n.1))
  else (lastProd t.table, k)
/-- Steps of a product that are done after k steps of the span. -/
def prodDone (t : CoreTask) (p : Prod) (k : Nat) : Nat :=
  let n := ownSteps t
  if !hPair t.table then k
  else
    let i := k / orOne (n.1 + n.2)
    let r := k % orOne (n.1 + n.2)
    if p.first then i * n.1 + min r n.1 else i * n.2 + (r - n.1)
/-- Completed outer iterations of a product after k steps of the span. -/
def unitsDone (t : CoreTask) (p : Prod) (k : Nat) : Nat := prodDone t p k / orOne (total t (innerLevels t.table p))

/-! Logical extents of a slot (04 R105). -/

/-- First logical element of a panel: the coordinate counts tiles as stored; a 2:4 tile has twice its columns, and a transposed view
exchanges the axes. -/
def panelOrigin (t : CoreTask) (k : Nat) (at_ : Int × Int) : Int × Int :=
  let d := sLayout t.table k
  let r := at_.1 * tileH (dFmt d)
  let q := at_.2 * tileW (dFmt d) * (if dKind d = 2 then 2 else 1)
  if dKind d = 2 ∧ dTransposed d = true then (q, r) else (r, q)
/-- The logical extent of a slot's panel. -/
def extOf (t : CoreTask) (k : Nat) : Nat × Nat := (panelExt t.table (some k)).getD (0, 0)
/-- Rows and columns of a slot's tensor at its run-time shape, as a factor sees them. -/
def viewEndH (t : CoreTask) (k : Nat) : Nat := if isView t.table k then cols t k else rows t k
def viewEndW (t : CoreTask) (k : Nat) : Nat := if isView t.table k then rows t k else cols t k

/-! Output panels. -/

/-- Rows and columns of a product's output panel, in elements; a 2:4 output in stored columns (07 R190). -/
def outExtent (w : List Nat) (p : Prod) : Nat × Nat := match p.out with
  | some k => (tileH (dFmt (sLayout w k)) * sPanelTr w k, tileW (dFmt (sLayout w k)) * sPanelTc w k)
  | none => match p.a, p.b.head? with
    | some a, some b => (((panelExt w (some a)).getD (0, 0)).1, ((panelExt w (some b)).getD (0, 0)).1)
    | _, _ => (0, 0)
/-- First element of an output panel. -/
def outBase (t : CoreTask) (p : Prod) (ix : List (Nat × Nat)) : Int × Int := match p.out with
  | some k =>
    let a := panelAt t k ix
    (a.1 * tileH (dFmt (sLayout t.table k)), a.2 * tileW (dFmt (sLayout t.table k)))
  | none => match p.a, p.b.head? with
    | some a, some b => ((panelOrigin t a (panelAt t a ix)).1, (panelOrigin t b (panelAt t b ix)).1)
    | _, _ => (0, 0)
/-- Output panels of one outer iteration. -/
def panelCount (t : CoreTask) (p : Prod) : Nat := total t (panelLevels t.table p)
/-- Panel number among those of its outer iteration. -/
def panelNumber (t : CoreTask) (p : Prod) (ix : List (Nat × Nat)) : Nat :=
  (panelLevels t.table p).foldl (fun k n => k * (levelRange t n).2 + (indexOf ix n - (levelRange t n).1)) 0
/-- Indices of panel q of outer iteration u. -/
def panelIndices (t : CoreTask) (p : Prod) (u q : Nat) : List (Nat × Nat) :=
  indices t (outerLevels t.table p) u ++ indices t (panelLevels t.table p) q

/-! Partial sums (06 R145): rows of ACC_REGION, 16 × 8 elements each. Which row takes which part of a panel is the model's choice. -/

/-- Rows of one panel of partial sums. -/
def panelRows (w : List Nat) (p : Prod) : Nat := ceilDiv (outExtent w p).1 16 * ceilDiv (outExtent w p).2 8
/-- Rows that the last product may hold live: the first product's begin after them. -/
def lastRows (t : CoreTask) : Nat := panelRows t.table (lastProd t.table) * panelCount t (lastProd t.table) * hAccBufs t.table
/-- Byte offset in ACC_REGION of element (i, j) of weight w's panel q of outer iteration u. -/
def sumOffset (t : CoreTask) (p : Prod) (u q w i j : Nat) : Nat :=
  let per := panelRows t.table p
  let buf := if p.first then 0 else u % hAccBufs t.table
  let row := (if p.first then lastRows t else 0) + ((buf * panelCount t p + q) * orOne p.b.length + w) * per
    + i / 16 * ceilDiv (outExtent t.table p).2 8 + j / 8
  row * 512 + (i % 16 * 8 + j % 8) * 4
/-- Device physical address of an offset in ACC_REGION. -/
def sumAddr (s : State) (c : Nat) (t : CoreTask) (off : Nat) : Nat := rowDpa c 2 (regionBase s c 2 (hAccRegion t.table)) + off
def sumRow (s : State) (c : Nat) (t : CoreTask) (off : Nat) : Nat := regionBase s c 2 (hAccRegion t.table) + off / 512
/-- A partial sum; +0 where the group has not reached its row. -/
def readSum (s : State) (c : Nat) (t : CoreTask) (off : Nat) : F32 :=
  if (core s c).psumSeen.contains (sumRow s c t off) then BitVec.ofNat 32 (rd32 s (sumAddr s c t off)) else 0#32
/-- A partial sum is written: the first contribution to a row overwrites it (R145). -/
def writeSum (s : State) (c : Nat) (t : CoreTask) (off : Nat) (v : F32) : State :=
  let r := sumRow s c t off
  let s := if (core s c).psumSeen.contains r then s
    else updCore (wrBytes s (rowDpa c 2 r) (zeros 512)) c (fun x =>
      { x with psumSeen := r :: x.psumSeen, badRows := x.badRows.filter (· != rowKey 2 r) })
  wrBytes s (sumAddr s c t off) (leBytes 4 v.toNat)
/-- Products added into a partial sum; overflows count (03 R72). The first contribution to a row overwrites (R145): it is added to -0,
which changes no value and no sign. A step that brings no product brings +0 (09 R236). -/
def addSum (s : State) (c : Nat) (t : CoreTask) (grouped fresh : Bool) (off : Nat) (l : List (FVal × FVal)) : State :=
  let r := if l.isEmpty then (if fresh then 0#32 else readSum s c t off, 0) else accumulate grouped (if fresh then 0x80000000#32 else readSum s c t off) l
  bumpCore (writeSum s c t off r.1) c CORE_NUM_INF_COUNT r.2
/-- Rows of partial sums of panel q of outer iteration u, and those that hold sums. -/
def sumRows (s : State) (c : Nat) (t : CoreTask) (p : Prod) (u q : Nat) : List (Nat × Nat) :=
  (List.range (orOne p.b.length)).flatMap (fun w => (List.range (panelRows t.table p)).map (fun i => (2, sumRow s c t (sumOffset t p u q w 0 0) + i)))
def heldSums (s : State) (c : Nat) (l : List (Nat × Nat)) : List (Nat × Nat) := l.filter (fun r => (core s c).psumSeen.contains r.2)
/-- The rows of an outer iteration's panels are taken: the next contribution overwrites. -/
def dropSums (s : State) (c : Nat) (t : CoreTask) (p : Prod) (u : Nat) : State :=
  let per := panelRows t.table p * orOne p.b.length * panelCount t p
  let lo := sumRow s c t (sumOffset t p u 0 0 0 0)
  updCore s c (fun x => { x with psumSeen := x.psumSeen.filter (fun r => decide (r < lo ∨ lo + per ≤ r)) })

end Sys2Proof.Machine
end

