-- ==== Sys2Proof/Machine/RowFns.lean ====
section
/-! DEFINITION. The functions of the row-function unit (03 R73): exponential, logarithm, reciprocal square root, GELU in its exact form and
SiLU, to 2 units in the last place of the correctly rounded value. The exact function is evaluated to 400 fraction bits, which rounds
correctly wherever its value lies no nearer than 2^-190 to a rounding boundary (log entry 13). -/

namespace Sys2Proof.Machine

/-- Fraction bits of the evaluation. -/
abbrev fracBits : Nat := 400
/-- 2^400 ln 2 and 2^400 / sqrt(2 pi), rounded down. -/
def ln2Fix : Nat := 0xb17217f7d1cf79abc9e3b39803f2f6af40f343267298b62d8a0d175b8baafa2be7b876206debac98559552fb4afa1b10ed2e
def invSqrt2Pi : Nat := 0x662114cf50d942343f2cf1402eae38bfd3829f30512706d8c0471b4802639d2e9df8ac55447d3db723f5d3abb374e88deb14

/-- Terms t, t x / (a + b) , ... of a series with ratios x / (a + b i): their sum. -/
def seriesSum (x a b : Nat) : Nat → Nat → Nat → Nat
  | 0, _, _ => 0
  | fuel + 1, i, t => t + seriesSum x a b fuel (i + 1) (t * x / 2 ^ fracBits / (a + b * i))
/-- exp of a fixed-point number as mantissa E and exponent n: E 2^(n - 400), E in [1, 2). -/
def expFix (x : Int) : Nat × Int :=
  let n := x / (ln2Fix : Int)
  (seriesSum (x % (ln2Fix : Int)).toNat 1 1 100 0 (2 ^ fracBits), n)
/-- A finite value m 2^e in fixed point, where it fits. -/
def toFix (neg : Bool) (m : Nat) (e : Int) : Int :=
  let z : Int := if 0 ≤ e + fracBits then (m * 2 ^ (e + fracBits).toNat : Nat) else (m / 2 ^ (-(e + fracBits)).toNat : Nat)
  if neg then -z else z
/-- Whether a magnitude m 2^e is at least 2^k. -/
def atLeast (m : Nat) (e : Int) (k : Nat) : Bool := m != 0 && decide ((k : Int) ≤ floorLog2 m e)
/-- The correctly rounded exponential. -/
def expRound (neg : Bool) (m : Nat) (e : Int) : F32 :=
  if atLeast m e 8 then (if neg then 0#32 else 0x7F800000#32)
  else
    let r := expFix (toFix neg m e)
    toF32 (.fin false (2 * r.1 + 1) (r.2 - fracBits - 1))
/-- 2^400 times the distribution function of the normal law at a fixed-point z of at least 0, less a half. -/
def halfNormal (z : Nat) : Nat :=
  let q := z * z / 2 ^ fracBits
  let r := expFix (-(q / 2 : Nat))
  let s := seriesSum q 3 2 800 0 z
  let p := s * invSqrt2Pi / 2 ^ fracBits * r.1
  if 0 ≤ r.2 - fracBits then p * 2 ^ (r.2 - fracBits).toNat else p / 2 ^ (-(r.2 - fracBits)).toNat
/-- The correctly rounded GELU. -/
def geluRound (neg : Bool) (m : Nat) (e : Int) : F32 :=
  if atLeast m e 4 then (if neg then 0x80000000#32 else toF32 (.fin false m e))
  else
    let h := halfNormal (toFix false m e).toNat
    let p := if neg then 2 ^ (fracBits - 1) - h else 2 ^ (fracBits - 1) + h
    toF32 (.fin neg (2 * (m * p) + (if m = 0 then 0 else 1)) (e - fracBits - 1))
/-- The correctly rounded SiLU. -/
def siluRound (neg : Bool) (m : Nat) (e : Int) : F32 :=
  if atLeast m e 8 then (if neg then 0x80000000#32 else toF32 (.fin false m e))
  else
    let r := expFix (toFix (!neg) m e)
    let d := 2 ^ fracBits + (if 0 ≤ r.2 then r.1 * 2 ^ r.2.toNat else r.1 / 2 ^ (-r.2).toNat)
    toF32 (.fin neg (2 * (m * 2 ^ (3 * fracBits) / d) + (if m = 0 then 0 else 1)) (e - 2 * fracBits - 1))
/-- The correctly rounded logarithm of a positive number. -/
def logRound (m : Nat) (e : Int) : F32 :=
  let k := m.log2
  let z := (m - 2 ^ k) * 2 ^ fracBits / (m + 2 ^ k)
  let l := (List.range 140).foldl (fun (a : Nat × Nat) i => (a.1 + a.2 / (2 * i + 1), a.2 * z / 2 ^ fracBits * z / 2 ^ fracBits)) (0, z)
  let v : Int := (2 * l.1 : Nat) + (e + k) * ln2Fix
  if m = 2 ^ k ∧ e + k = 0 then 0#32 else toF32 (.fin (decide (v < 0)) (2 * v.natAbs + 1) (-(fracBits : Int) - 1))
/-- The integer square root, by Newton's iteration from above. -/
def isqrtFrom (n : Nat) : Nat → Nat → Nat
  | 0, x => x
  | fuel + 1, x => let y := (x + n / orOneNat x) / 2
    if x ≤ y then x else isqrtFrom n fuel y
where
  orOneNat (x : Nat) : Nat := if x = 0 then 1 else x
def isqrt (n : Nat) : Nat := isqrtFrom n 64 (2 ^ (n.log2 / 2 + 1))
/-- The correctly rounded reciprocal square root of a positive number. -/
def rsqrtRound (m : Nat) (e : Int) : F32 :=
  let (m, e) := if e % 2 = 0 then (m, e) else (2 * m, e - 1)
  let q := 2 ^ (2 * fracBits)
  let r := isqrt (q / m)
  toF32 (.fin false (2 * r + (if r * r * m = q then 0 else 1)) (-(e / 2) - fracBits - 1))

/-- A pattern moved by z units in the last place, no further than the infinities. -/
def moveUlp (w : F32) (z : Int) : F32 :=
  if z = 0 then w else
  let m : Int := (w.toNat % 2 ^ 31 : Nat)
  let v := (if w.toNat.testBit 31 then -m else m) + z
  let v := if v < -0x7F800000 then -0x7F800000 else if 0x7F800000 < v then 0x7F800000 else v
  BitVec.ofNat 32 (v.natAbs + (if v < 0 then 2 ^ 31 else 0))
/-- The device's result of function k at a finite x, at most 2 units in the last place from the correctly rounded one: which is a free value. -/
def near (k : Nat) (x r : F32) : F32 := moveUlp r ((Config.rowFnError k x % 5 : Nat) - 2)

/-! The functions (R73). -/
def rfuExp (x : F32) : F32 := match ofF32 x with
  | .nan => 0x7FC00000#32
  | .inf neg => if neg then 0#32 else 0x7F800000#32
  | .fin neg m e => near 0 x (expRound neg m e)
def rfuGelu (x : F32) : F32 := match ofF32 x with
  | .nan => 0x7FC00000#32
  | .inf neg => if neg then 0x80000000#32 else 0x7F800000#32
  | .fin neg m e => near 1 x (geluRound neg m e)
def rfuSilu (x : F32) : F32 := match ofF32 x with
  | .nan => 0x7FC00000#32
  | .inf neg => if neg then 0x80000000#32 else 0x7F800000#32
  | .fin neg m e => near 2 x (siluRound neg m e)
/-- The logarithm: its value at 0 and at a negative number is not stated, and free. No row function of a task calls it. -/
def rfuLog (x : F32) : F32 := match ofF32 x with
  | .nan => 0x7FC00000#32
  | .inf neg => if neg then 0x7FC00000#32 else 0x7F800000#32
  | .fin neg m e => if neg ∨ m = 0 then BitVec.ofNat 32 (Config.rowFnError 3 x) else near 3 x (logRound m e)
/-- The reciprocal square root: its value at 0 and at a negative number is not stated, and free. No row function of a task calls it. -/
def rfuRsqrt (x : F32) : F32 := match ofF32 x with
  | .nan => 0x7FC00000#32
  | .inf neg => if neg then 0x7FC00000#32 else 0#32
  | .fin neg m e => if neg ∨ m = 0 then BitVec.ofNat 32 (Config.rowFnError 4 x) else near 4 x (rsqrtRound m e)

end Sys2Proof.Machine
end

