-- ==== Sys2Proof/Machine/Stages.lean ====
section
/-! DEFINITION. What the array, row-function and conversion stages of a core do: a panel step, a token row of a fused intermediate, an
output tile, compaction and the neuron predictor (03 R70 to R78; 07 R167 to R185, R190; 09 R232, R236, R237, R257). -/

namespace Sys2Proof.Machine

/-! Draws (03 R80 to R82). -/

/-- The draw of a task's strand and step for element e of a stream. -/
def drawOf (s : State) (t : CoreTask) (stream e : Nat) : Nat := rngDraw (slotOf s t.slot).seed t.strand stream t.step e

/-! Operand panels (R232; 04 R100, R101, R105). -/

/-- A format fault (04 R97, R101, R105) is counted and recorded; of two in one stitch the one at the lower slot is recorded (R110). The
task aborts with it at the end of the stitch. -/
def formatFault (s : State) (c status slot pos : Nat) : State :=
  let kind := if status = stUnsortedIndex then 1 else if status = stColumnIndexRange then 2 else if status = stRowPointerInvalid then 3
    else if status = stStructMetadataInvalid then 4 else 5
  let x := core s c
  if x.task.isNone then s
  else
    let s := bumpCore s c CORE_FMT_FAULT_COUNT 1
    if (match x.lastFormatFault with
        | none => true
        | some k => decide (slot < k.1)) then
      updCore (setReg s (coreOff c CORE_FMT_LAST_FAULT) (kind + slot * 2 ^ 8 + pos * 2 ^ 16)) c
        (fun x => { x with lastFormatFault := some (slot, status) })
    else s
/-- The recorded format fault of a stitch aborts the task (04 R97; 10 R276). -/
def settleFormat (s : State) (c : Nat) : State := match (core s c).lastFormatFault with
  | none => s
  | some k => faultCore s c k.2 31 k.1 0
/-- The fault that the metadata of a 2:4 tile raises (04 R101, R105), with the ordinal of the tile. Nibbles of groups that lie wholly in
the selvedge are not tested (log entry 74), and an invalid nibble of a tile comes before a crowded column (log entry 76). -/
def tileFault (s : State) (c : Nat) (t : CoreTask) (k : Nat) (p : Int × Int) : Option (Nat × Nat) :=
  let d := sLayout t.table k
  if dKind d ≠ 2 then none else
  let pl := slotPlace s c t k
  let th := tileH (dFmt d)
  let tw := tileW (dFmt d)
  let nib (r g : Nat) : Nat := nibbleAt s pl d 0 r g
  let inside (r g : Nat) : Bool := decide (r < rows t k ∧ 4 * g < cols t k)
  let bad : Bool := (List.range th).any (fun i => (List.range (tw / 2)).any (fun g =>
    let r := p.1.toNat * th + i
    let q := p.2.toNat * (tw / 2) + g
    inside r q && !nibbleOk (nib r q)))
  let crowded : Bool := dTransposed d && (List.range (th / 4)).any (fun a => (List.range (tw / 2)).any (fun g =>
    (List.range 4).any (fun j =>
      let q := p.2.toNat * (tw / 2) + g
      decide (2 < ((List.range 4).filter (fun i =>
        let r := p.1.toNat * th + 4 * a + i
        inside r q && (nib r q % 4 == j || nib r q / 4 == j))).length))))
  if bad then some (stStructMetadataInvalid, tileOrdinal d p.1.toNat p.2.toNat)
  else if crowded then some (stMaskNotTransposable, tileOrdinal d p.1.toNat p.2.toNat) else none
/-- The first fault of a panel's tiles. -/
def metaFault (s : State) (c : Nat) (t : CoreTask) (k : Nat) (at_ : Int × Int) : Option (Nat × Nat) :=
  ((panelTiles t k at_).filter (fun p => !tileSkipped t k p.1 p.2)).findSome? (tileFault s c t k)

/-! The intermediate of a fused pair (07 R172, R175; 09 R257). -/

def midFmt (t : CoreTask) : Nat := convFmt (hConv t.table)
/-- Shared iteration of a step of the last product. -/
def sharedOf (t : CoreTask) (n : Nat) : Nat := n / orOne (ownSteps t).2
/-- Indices of a shared iteration. -/
def sharedIndices (t : CoreTask) (i : Nat) : List (Nat × Nat) := indices t (sharedLevels t.table) i
/-- The least coordinates, row and column apart, that the own levels of a product reach in a shared iteration. -/
def leastOf (t : CoreTask) (own : List Nat) (i : Nat) (f : List (Nat × Nat) → Int × Int) : Int × Int :=
  let at_ (j : Nat) : Int × Int := f (sharedIndices t i ++ indices t own j)
  (List.range (total t own)).foldl (fun (a : Int × Int) j => (min a.1 (at_ j).1, min a.2 (at_ j).2)) (at_ 0)
/-- Row of the band of a shared iteration that the first output row at indices of the second product stands for. -/
def bandRowOf (t : CoreTask) (i : Nat) (ix : List (Nat × Nat)) : Int :=
  (outBase t (lastProd t.table) ix).1 - (leastOf t (ownLevels t.table 2) i (outBase t (lastProd t.table))).1
/-- First token row of the band of a shared iteration, and first column of its slice. -/
def bandBase (t : CoreTask) (i : Nat) : Int × Int := leastOf t (ownLevels t.table 1) i (outBase t (firstProd t.table))
/-- Tokens of the task before the first row of slot A on this core (R248). -/
def tokenShift (t : CoreTask) : Int := match inA t.table with
  | some a => (panelOrigin t a (shareShift t a)).1
  | none => 0
/-- The number of a row of slot A in the task's token order (07 R168, R184). -/
def tokenOf (t : CoreTask) (row : Int) : Nat := (row + tokenShift t).toNat
/-- Token rows of a band. -/
def bandRows (t : CoreTask) : Nat := (outExtent t.table (firstProd t.table)).1
/-- Rows of the weights: the intermediate's columns end there. -/
def midEnd (t : CoreTask) : Nat := match (firstProd t.table).b.head? with
  | some k => viewEndH t k
  | none => 0
/-- Width of the intermediate in its region. -/
def midTiles (t : CoreTask) : Nat := ceilDiv (fuseWidth t.table) (tileW (midFmt t))
/-- First row in FUSE_REGION of the band of a shared iteration, and its rows: two bands take turns; one whose tiles are lower than
slot A's takes the room of both (R173 gives no more; log entry 83). -/
def midFirst (t : CoreTask) (i : Nat) : Nat := if bandRows t ≤ tileH (midFmt t) then i % 2 * (planes (midFmt t) * midTiles t) else 0
def midRows (t : CoreTask) : Nat := planes (midFmt t) * midTiles t * ceilDiv (bandRows t) (tileH (midFmt t))
/-- Byte offset in FUSE_REGION of plane p of the tile of (r, k), for a shared iteration. -/
def midTile (t : CoreTask) (i r k p : Nat) : Nat :=
  let c := midFmt t
  (midFirst t i + (r / tileH c * midTiles t + k / tileW c) * planes c + p) * 512
def fuseAddr (s : State) (c : Nat) (t : CoreTask) (off : Nat) : Nat := rowDpa c 1 (regionBase s c 1 (rFuseRegion t.table)) + off
/-- Activation rows of a band, and of the running maxima and sums: after the bands, or after the arrays of a compacted operand (R173, R175;
log entry 83). -/
def bandRowsAt (s : State) (c : Nat) (t : CoreTask) (i : Nat) : List (Nat × Nat) :=
  (List.range (midRows t)).map (fun q => (1, regionBase s c 1 (rFuseRegion t.table) + midFirst t i + q))
def softRow (t : CoreTask) : Nat := if rCompact t.table then (compactMap t.table t.cores).len / 512 else 2 * planes (midFmt t) * midTiles t
def softRowsAt (s : State) (c : Nat) (t : CoreTask) : List (Nat × Nat) :=
  if rFn t.table = 3 then [0, 1].map (fun q => (1, regionBase s c 1 (rFuseRegion t.table) + softRow t + q)) else []
/-- Activation rows of the compacted operand. -/
def compactRowsAt (s : State) (c : Nat) (t : CoreTask) : List (Nat × Nat) :=
  (List.range ((compactMap t.table t.cores).len / 512)).map (fun q => (1, regionBase s c 1 (compactRegion t.table) + q))
/-- Where element (r, k) lies: byte offset and bit. -/
def midPlace (t : CoreTask) (i r k p : Nat) : Nat × Nat :=
  let c := midFmt t
  let e := r % tileH c * tileW c + k % tileW c
  if isPlane c then (midTile t i r k p + e / 8, e % 8) else (midTile t i r k 0 + e * fmtBytes c, 0)
def midKey (i r k : Nat) : Nat := ((i % 2) * 64 + r) * 2 ^ 32 + k / 32
/-- The stored pattern of element (r, k). -/
def midBits (s : State) (c : Nat) (t : CoreTask) (i r k : Nat) : Nat :=
  if isPlane (midFmt t) then
    (List.range (planes (midFmt t))).foldl (fun v p =>
      v + (if (mread s.mem (fuseAddr s c t (midPlace t i r k p).1)).toNat.testBit (midPlace t i r k p).2 then 2 ^ p else 0)) 0
  else leNat (mreadN s.mem (fuseAddr s c t (midPlace t i r k 0).1) (fmtBytes (midFmt t)))
/-- A pattern is stored. -/
def midWrite (s : State) (c : Nat) (t : CoreTask) (i r k w : Nat) : State :=
  if isPlane (midFmt t) then
    each (List.range (planes (midFmt t))) s (fun s p =>
      let q := midPlace t i r k p
      let a := fuseAddr s c t q.1
      let b := (mread s.mem a).toNat
      let b := b - (if b.testBit q.2 then 2 ^ q.2 else 0) + (if w.testBit p then 2 ^ q.2 else 0)
      wrBytes s a [BitVec.ofNat 8 b])
  else wrBytes s (fuseAddr s c t (midPlace t i r k 0).1) (leBytes (fmtBytes (midFmt t)) w)

/-! Compaction (07 R169 to R171). -/

/-- The layout of a compacted operand in its region. -/
def compactDesc (t : CoreTask) (rp h w : Nat) : List Nat :=
  let m : CompactMap := compactMap t.table t.cores
  let wide := if w ≤ 65536 then 0 else 2 ^ 11
  [midFmt t + 2 ^ 5 + wide, h + w * 2 ^ 32, m.value, m.scale, rp, m.ci, 0, 0]
/-- The kept elements of a token row: column and FP32 value, columns rising. -/
def keptRow (t : CoreTask) (row : Nat) : List (Nat × Nat) := tget [] t.cmpRows row
/-- The compacted operand is written: row pointers, column indices, values, scales, summary. The blocks of an MX format are 32 kept
positions (04 R99); which elements are kept was tested in blocks of 32 columns (log entry 67). A kept element's number is that of its row, of `width` elements, and its column past `first`. -/
def writeCompact (s : State) (c : Nat) (t : CoreTask) (width first : Nat) : State :=
  let ready := takeRows s c [] (compactRowsAt s c t)
  if !ready.2 then ready.1 else
  let s := ready.1
  let r := compactRegion t.table
  let m := compactMap t.table t.cores
  let base := rowDpa c 1 (regionBase s c 1 r)
  let l := t.cmpRows
  let rp := l.foldl (fun a p => a ++ [a.getLast?.getD 0 + p.2.length]) [0]
  let n := rp.getLast?.getD 0
  let ci := if (compactShape t.table t.cores).2 ≤ 65536 then 2 else 4
  let elems := l.flatMap (fun p => p.2.map (fun e => (p.1 * width + first + e.1, e.1, BitVec.ofNat 32 e.2)))
  let f := midFmt t
  let conv := hConv t.table
  let draw (e : Nat) : Nat := if convRound conv then drawOf s t (convStream conv) e / 65536 else 0
  let block (b : Nat) : Nat × List Converted :=
    let x := (elems.drop (32 * b)).take 32
    convertBlock conv (x.map (fun e => draw e.1)) (x.map (·.2.2))
  let blocks := (List.range (ceilDiv n 32)).map block
  let pats := blocks.flatMap (fun b => b.2.map (·.bits))
  let value (s : State) : State :=
    if isPlane f then
      each (List.range (ceilDiv n 4096)) s (fun s g => each (packTile f ((List.range 4096).map (fun e => pats.getD (4096 * g + e) 0))).zipIdx s
        (fun s q => wrBytes s (base + m.value + (g * planes f + q.2) * 512) q.1))
    else wrBytes s (base + m.value) (pats.flatMap (leBytes (fmtBytes f)))
  let h := l.length
  let k := ceilDiv n 4096
  let entry (q : Nat) : Nat := if q = k then h - 1 else ((List.range h).filter (fun i => decide (rp.getD i 0 ≤ 4096 * q))).getLast?.getD 0
  let s := wrBytes s base (rp.flatMap (leBytes 4))
  let s := wrBytes s (base + m.ci) (elems.flatMap (fun e => leBytes ci e.2.1))
  let s := value s
  let s := if hasScale f then wrBytes s (base + m.scale) (blocks.map (fun b => BitVec.ofNat 8 b.1)) else s
  let s := wrBytes s (base + m.summary) ((List.range (k + 1)).flatMap (fun q => leBytes 4 (entry q)))
  each (compactRowsAt s c t) s (fun s p => noteRow (updCore s c (fun x => { x with badRows := x.badRows.filter (· != rowKey 1 p.2) })) c 1 p.2)

/-! The neuron predictor (07 R177 to R185, R189). -/

/-- A block of neurons is computed for a token (R178, R184). -/
def blockLive (t : CoreTask) (row blk : Nat) : Bool :=
  !predicts t || (match t.tokens.find? (fun x => x.row == row) with
    | none => true
    | some x => x.audited || t.tokens.any (fun y => !y.audited && y.band == x.band && (List.range (neuronBlock t.table)).any (fun i =>
        let n := blk * neuronBlock t.table + i
        decide (n < midEnd t) && !y.inactive.contains n)))
/-- A token is audited (R184). -/
def auditedToken (t : CoreTask) (row : Nat) : Bool := (t.tokenBase + row) % 2 ^ pAuditLog t.table == 0
/-- Tokens of the band of a shared iteration. -/
def bandTokens (t : CoreTask) (i : Nat) : List Nat := match inA t.table with
  | none => []
  | some a => (((List.range (bandRows t)).map (fun r => (bandBase t i).1.toNat + r)).filter (fun r => decide (r < viewEndH t a))).map (fun r => tokenOf t r)
/-- The band of a shared iteration, by its first row: slices of neurons of one band share it. -/
def bandKey (t : CoreTask) (i : Nat) : Nat := (bandBase t i).1.toNat
/-- Every token of a band is scored. -/
def bandScored (t : CoreTask) (i : Nat) : Bool := !predicts t || (bandTokens t i).isEmpty || thas t.skipped (bandKey t i)

/-! A panel step (R232). -/

/-- Pairs of rate 1 or more are summed in groups. -/
def groupedPair (a b : Nat) : Bool := decide (8 ≤ pairRate8 a b)
/-- Element (r, k) of the band of a shared iteration as a factor of the second product: none in a skipped block (07 R179). -/
def midOperand (s : State) (c : Nat) (t : CoreTask) (i : Nat) (r k : Int) : Option FVal :=
  let b := bandBase t i
  let tok := tokenOf t (b.1 + r)
  if r < 0 ∨ k < 0 ∨ (bandRows t : Int) ≤ r ∨ (fuseWidth t.table : Int) ≤ k ∨ (midEnd t : Int) ≤ b.2 + k then none
  else if gated t.table && !blockLive t tok ((b.2 + k).toNat / neuronBlock t.table) then none
  else if rCompact t.table then
    ((keptRow t tok).find? (fun e => e.1 == k.toNat)).bind (fun _ =>
      let rowNo := (t.cmpRows.filter (fun p => decide (p.1 < tok))).length
      let d := compactDesc t 0 t.cmpRows.length (compactShape t.table t.cores).2
      let pl := Place.dpa (fuseAddr s c t 0)
      ((List.range (rowPtr s pl d (rowNo + 1) - rowPtr s pl d rowNo)).map (rowPtr s pl d rowNo + ·)).findSome? (fun p =>
        if colIdx s pl d p = k.toNat then some (posVal s pl d p) else none))
  else some (decodeScaled (midFmt t) (midBits s c t i r.toNat k.toNat) (tget 0 t.midScales (midKey i r.toNat k.toNat)))

/-- The logical column of stored column j of an output row: a sampled product's mask names it (07 R190). -/
def outColumn (s : State) (c : Nat) (t : CoreTask) (k : Nat) (i j : Nat) : Nat :=
  let d := sLayout t.table k
  if dKind d = 2 then
    let n := nibbleAt s (slotPlace s c t k) d 0 i (j / 2)
    j / 2 * 4 + (if j % 2 = 0 then n % 4 else n / 4)
  else j

/-- The products of element (i, j) of a product's output panel: row i of A's panel against row j of the weight's, along the reduction axis.
Where A is the intermediate, its rows and columns count from the first that the shared iteration reaches. -/
def stepTerms (s : State) (c : Nat) (t : CoreTask) (p : Prod) (sh : Nat) (ix : List (Nat × Nat)) (w : Nat) (i j : Int) : List (FVal × FVal) :=
  let bo := panelOrigin t w (panelAt t w ix)
  let bAt (k : Int) : Option FVal := operand s c t w (bo.1 + j) (bo.2 + k)
  let pair (x y : Option FVal) : Option (FVal × FVal) := match x, y with
    | some x, some y => some (x, y)
    | _, _ => none
  match p.a with
  | some a =>
    let ao := panelOrigin t a (panelAt t a ix)
    (List.range (extOf t a).2).filterMap (fun (k : Nat) => pair (operand s c t a (ao.1 + i) (ao.2 + (k : Int))) (bAt k))
  | none =>
    let own := ownLevels t.table 2
    let r := bandRowOf t sh ix + i
    let q := bo.2 - (leastOf t own sh (fun ix => panelOrigin t w (panelAt t w ix))).2
    (List.range (extOf t w).2).filterMap (fun (k : Nat) => pair (midOperand s c t sh r (q + (k : Int))) (bAt k))

/-- Outer iterations whose output tiles are written out, and tiles of one. -/
def unitTiles (t : CoreTask) : Nat := match (lastProd t.table).out with
  | some k => panelCount t (lastProd t.table) * (sPanelTr t.table k * sPanelTc t.table k)
  | none => 0
def outUnits (t : CoreTask) : Nat := if unitTiles t = 0 then t.spanSteps + 1 else t.outDone / unitTiles t

/-! Rows of a streamed slot (R232, R237; 10 R264): the panels of the running span in scratchpad order, each row once while its panel
stays or is resident. -/

/-- Levels outside the resident ones, in the order in which rows are delivered (R233), and the resident levels that move a slot (R241). -/
def streamOuter (w : List Nat) (p : Prod) : List Nat :=
  (levels w).flatMap (fun i => p.levels.filter (fun n => decide (lSpm w n < hResSpm w) && lOrd w 2 n == i))
def streamInner (w : List Nat) (p : Prod) (k : Nat) : List Nat := p.levels.filter (fun n => decide (hResSpm w ≤ lSpm w n) && slotMoves w n k)
/-- Every 512 B row of an array. -/
def arrayVas (base bytes : Nat) : List Nat := (List.range (ceilDiv bytes 512)).map (fun i => base + 512 * i)
/-- The product that reads a slot. -/
def slotProd (t : CoreTask) (k : Nat) : Prod := if hPair t.table && !(lastProd t.table).b.contains k then firstProd t.table else lastProd t.table
/-- Own step number of a product as a step of the span. -/
def spanStepOf (t : CoreTask) (p : Prod) (n : Nat) : Nat :=
  let m := ownSteps t
  if !hPair t.table then n
  else if p.first then n / orOne m.1 * (m.1 + m.2) + n % orOne m.1 else n / orOne m.2 * (m.1 + m.2) + m.1 + n % orOne m.2
/-- The block of neurons that a tile of GATE, UP or DOWN belongs to (07 R176). -/
def tileBlock (t : CoreTask) (k : Nat) (p : Int × Int) : Option Nat :=
  if !gated t.table then none
  else if (firstProd t.table).b.contains k then some ((panelOrigin t k p).1.toNat / neuronBlock t.table)
  else if (lastProd t.table).b.contains k then some ((panelOrigin t k p).2.toNat / neuronBlock t.table) else none
/-- A tile is read in a shared iteration: of the blocks of neurons those that are computed, once the band is scored (07 R179). -/
def tileWanted (t : CoreTask) (k i : Nat) (p : Int × Int) : Bool := !predicts t || (match tileBlock t k p with
  | none => true
  | some b => bandScored t i && !(tget [] t.skipped (bandKey t i)).contains b)
/-- Rows of a streamed input slot in the running span: address, and the panel step that is the first to read it. A panel that stays is
not delivered again, but for tiles that no earlier delivery of it brought. -/
def streamRows (t : CoreTask) (k : Nat) : List (Nat × Nat) :=
  let d := sLayout t.table k
  let w := t.table
  if emptyTensor t k then []
  else if dKind d = 1 then
    (arrayVas (dAux0 d) ((rows t k + 1) * (if dRpWide d then 8 else 4))).map (fun a => (a, 0))
  else
    let p := slotProd t k
    let outer := streamOuter w p
    let inner := streamInner w p k
    let n := total t outer
    let at_ (i j : Nat) : Int × Int := panelAt t k (indices t outer i ++ indices t inner j)
    let whole := hPair w && !(sharedLevels w).all (fun n => outer.contains n)
    let wanted (i : Nat) (x : Int × Int) : Bool := whole || tileWanted t k (stepOf t (sharedLevels w) (indices t outer i)) x
    let stays (i : Nat) : Bool := i != 0 && (List.range (total t inner)).all (fun j => at_ i j == at_ (i - 1) j)
    (List.range n).flatMap (fun i => (List.range (total t inner)).flatMap (fun j =>
      let brought (x : Int × Int) : Bool := stays i && (List.range i).any (fun i' => at_ i' j == at_ i j && wanted i' x)
      (((panelTiles t k (at_ i j)).filter (fun x => !tileSkipped t k x.1 x.2 && wanted i x && !brought x)).flatMap (tileVas t k)).map (fun a =>
        (a, spanStepOf t p (stepOf t p.levels (indices t outer i ++ indices t inner j))))))
/-- Rows of a slot that must have been delivered for the panel steps up to n. -/
def rowsNeeded (t : CoreTask) (k n : Nat) : Nat := ((streamRows t k).zipIdx.map (fun r => if r.1.2 ≤ n then r.2 + 1 else 0)).foldl max 0
/-- The rows of a step's streamed operands have landed (02 R32). -/
def rowsLanded (t : CoreTask) (ins : List Nat) (n : Nat) : Bool :=
  ins.all (fun k => sSource t.table k != 0 || decide (rowsNeeded t k n ≤ tget 0 t.landed k))

/-- The arrays can take step k: sums are free, and the second product's band is ready (07 R172). -/
def stepReady (t : CoreTask) : Bool :=
  let (p, n) := stepProd t t.spanSteps
  let u := n / orOne (total t (innerLevels t.table p))
  decide (t.spanSteps < spanTotal t) && rowsLanded t (p.a.toList ++ p.b) t.spanSteps &&
    (if p.first then decide (u * bandRows t ≤ t.midDone) && bandScored t (n / orOne (ownSteps t).1)
     else decide (u < outUnits t + hAccBufs t.table) && (!hPair t.table || decide (sharedOf t n < t.bandsReady)))

/-- Scratchpad rows that a panel step reads: of its operands, and of the intermediate (08 R217). -/
def stepRows (s : State) (c : Nat) (t : CoreTask) (p : Prod) (sh : Nat) (ix : List (Nat × Nat)) : List (Nat × Nat) :=
  (p.a.toList ++ p.b).flatMap (fun k => slotRows s c t k (panelVas t k (panelAt t k ix)))
    ++ (if p.a.isSome then [] else if rCompact t.table then compactRowsAt s c t else bandRowsAt s c t sh)
/-- The second product over a compacted intermediate runs in gather mode (R175): quarters of each row's kept elements against the column
slices of its panel count as they are packed (05 R119, R120). The arrays take those of a panel step together (log entry 83). -/
def countQuarters (s : State) (c : Nat) (t : CoreTask) (p : Prod) (sh : Nat) (ix : List (Nat × Nat)) : State := match p.b.head? with
  | none => s
  | some w =>
    let q := (panelOrigin t w (panelAt t w ix)).2 - (leastOf t (ownLevels t.table 2) sh (fun ix => panelOrigin t w (panelAt t w ix))).2
    let rate := pairRate8 (midFmt t) (dFmt (sLayout t.table w))
    let cols := if rate = 4 then 64 else if rate = 16 then 256 else 128
    let kept := (List.range (outExtent t.table p).1).map (fun (i : Nat) => ((List.range (extOf t w).2).filter (fun (k : Nat) =>
      (midOperand s c t sh (bandRowOf t sh ix + (i : Int)) (q + (k : Int))).isSome)).length)
    let n := ceilDiv (extOf t w).1 cols
    bumpCore (bumpCore s c CORE_PACK_SLOT_COUNT (n * (kept.map (fun k => 32 * ceilDiv k 32)).sum)) c CORE_PACK_FILL_COUNT (n * kept.sum)
/-- The arrays take the next panel step of the nest. -/
def panelStep (s : State) (c : Nat) : State := match (core s c).task with
  | none => s
  | some t =>
    if t.copy || claimsMode t.table || t.phase != 4 || !stepReady t then s else
    let (p, n) := stepProd t t.spanSteps
    let w := t.table
    let u := n / orOne (total t (innerLevels w p))
    let ix := indices t p.levels n
    let ins := p.a.toList ++ p.b
    let bad := (ins ++ p.out.toList).filterMap (fun k => (metaFault s c t k (panelAt t k ix)).map (fun e => (k, e)))
    if !bad.isEmpty then each bad s (fun s x => formatFault s c x.2.1 x.1 x.2.2)
    else
      let q := panelNumber t p ix
      let sums := sumRows s c t p u q
      let ready := takeRows s c (stepRows s c t p (sharedOf t n) ix ++ heldSums s c sums) sums
      if !ready.2 then ready.1 else
      let s := each ins ready.1 (fun s k => countTiles s c t k (panelAt t k ix))
      let s := if !p.first && hPair w && rCompact w then countQuarters s c t p (sharedOf t n) ix else s
      let seen := (core s c).psumSeen
      let base := outBase t p ix
      let ext := outExtent w p
      let aFmt := match p.a with
        | some a => dFmt (sLayout w a)
        | none => midFmt t
      let lim := match p.out with
        | some k => (rows t k, if dKind (sLayout w k) = 2 then cols t k / 2 else cols t k)
        | none => (match p.a with
          | some a => viewEndH t a
          | none => 0, midEnd t)
      let s := each p.b.zipIdx s (fun s b => each (List.range ext.1) s (fun s i => each (List.range ext.2) s (fun s j =>
        let row := base.1 + i
        let col := base.2 + j
        if row < 0 ∨ col < 0 ∨ (lim.1 : Int) ≤ row ∨ (lim.2 : Int) ≤ col then s
        else if p.first && gated w && !blockLive t (tokenOf t row) (col.toNat / neuronBlock w) then s
        else
          let jc : Int := match p.out with
            | some k => if dKind (sLayout w k) = 2 then outColumn s c t k row.toNat col.toNat - 2 * base.2 else j
            | none => j
          let o := sumOffset t p u q b.2 i j
          addSum s c t (groupedPair aFmt (dFmt (sLayout w b.1))) (!seen.contains (sumRow s c t o)) o
            (stepTerms s c t p (sharedOf t n) ix b.1 i jc))))
      updCore s c (fun x => { x with task := x.task.map (fun t => { t with spanSteps := t.spanSteps + 1, steps := t.steps + 1 }) })

/-! Scores (07 R177, R178). -/

/-- The FP32 scores of a token's neurons, (x · P) · Q, and the overflows of their sums: x is the row of slot A, the rank 32 × 2^RANK_LOG.
The sums over the rank are taken in an order of the device's choice (log entry 68). -/
def scoresOf (s : State) (c : Nat) (t : CoreTask) (row : Nat) : List (F32 × Nat) :=
  match inA t.table, slotWith t.table 8, slotWith t.table 9 with
  | some a, some p, some q =>
    let pair (x y : Option FVal) : Option (FVal × FVal) := match x, y with
      | some x, some y => some (x, y)
      | _, _ => none
    let rank := 32 * 2 ^ pRankLog t.table
    let low := (List.range rank).map (fun (r : Nat) => accumulate (groupedPair (dFmt (sLayout t.table a)) (dFmt (sLayout t.table p))) 0x80000000#32
      ((List.range (viewEndW t a)).filterMap (fun (k : Nat) => pair (operand s c t a row k) (operand s c t p k r))))
    ((List.range (midEnd t)).map (fun (n : Nat) => accProducts 0x80000000#32
      (low.zipIdx.filterMap (fun x => (operand s c t q x.2 n).map (fun y => (ofF32 x.1.1, y)))))) ++ low.map (fun x => (0#32, x.2))
  | _, _, _ => []
/-- The shared iteration that runs. -/
def runBand (t : CoreTask) : Nat :=
  let x := stepProd t t.spanSteps
  if x.1.first then x.2 / orOne (ownSteps t).1 else x.2 / orOne (ownSteps t).2
/-- The shared iteration whose band the predictor scores next: the running one, or the one after it once that band is scored. -/
def scoreBand (t : CoreTask) : Nat := if bandScored t (runBand t) then runBand t + 1 else runBand t
/-- Slots that scoring reads. -/
def scoreSlots (t : CoreTask) : List Nat := (inA t.table).toList ++ slotList t.table 8 ++ slotList t.table 9
/-- Tiles of slot A that hold a token row. -/
def rowTiles (t : CoreTask) (a row : Nat) : List (Int × Int) :=
  let d := sLayout t.table a
  if isView t.table a then (List.range (runGrid t a).1).map (fun i => ((i : Int), ((row / (tileW (dFmt d) * 2) : Nat) : Int)))
  else (List.range (runGrid t a).2).map (fun j => (((row / tileH (dFmt d) : Nat) : Int), (j : Int)))
/-- Tiles that scoring a token reads: of slot A those of its row, and the factors P and Q whole. -/
def scoreTiles (t : CoreTask) (row : Nat) : List (Nat × Int × Int) :=
  let grid (k : Nat) : List (Int × Int) := (List.range (runGrid t k).1).flatMap (fun i => (List.range (runGrid t k).2).map (fun j => ((i : Int), (j : Int))))
  (inA t.table).toList.flatMap (fun a => (rowTiles t a row).map (fun p => (a, p)))
    ++ (slotList t.table 8 ++ slotList t.table 9).flatMap (fun k => (grid k).map (fun p => (k, p)))
/-- Scratchpad rows that hold them (08 R206, R217). -/
def scoreRows (s : State) (c : Nat) (t : CoreTask) (row : Nat) : List (Nat × Nat) :=
  (scoreTiles t row).flatMap (fun x => slotRows s c t x.1 (tileVas t x.1 x.2))
/-- The metadata of a 2:4 slot A that scoring a token reads is checked as a panel's is (04 R101). -/
def scoreFault (s : State) (c : Nat) (t : CoreTask) (row : Nat) : Option (Nat × Nat × Nat) := (inA t.table).bind (fun a =>
  (rowTiles t a row).findSome? (fun p => (tileFault s c t a p).map (fun e => (a, e))))
/-- Tiles of P and Q that scoring reads count where they hold selvedge (09 R237). -/
def countScored (s : State) (c : Nat) (t : CoreTask) (row : Nat) : State :=
  bumpCore s c LOOP_SELVEDGE_COUNT ((scoreTiles t row).filter (fun x => tileMasked t x.1 x.2.1 x.2.2)).length
/-- The token to score next: the panel step of the span that first reads its band, and its number. -/
def scoreRow (t : CoreTask) : Option (Nat × Nat) :=
  if t.copy || !predicts t || t.phase != 4 || decide (total t (sharedLevels t.table) ≤ scoreBand t) then none
  else ((bandTokens t (scoreBand t)).find? (fun r => !t.tokens.any (fun x => x.row == r))).map (fun r =>
    (spanStepOf t (firstProd t.table) (scoreBand t * (ownSteps t).1), r))
/-- A token is scored: its neurons are classed; the last token of the band settles the band's blocks. A score that is NaN is in none of the
three classes: its neuron is not predicted inactive (log entry 91). -/
def scoreToken (s : State) (c : Nat) : State := match (core s c).task with
  | none => s
  | some t => match scoreRow t with
    | none => s
    | some (step, row) =>
      if !rowsLanded t (scoreSlots t) step then s else
      let ready := useRows c (scoreRows s c t ((row : Int) - tokenShift t).toNat) s
      if !ready.2 then ready.1 else
      let s := ready.1
      match scoreFault s c t ((row : Int) - tokenShift t).toNat with
      | some (k, e) => formatFault s c e.1 k e.2
      | none =>
      let s := countScored s c t ((row : Int) - tokenShift t).toNat
      let i := scoreBand t
      let l := bandTokens t i
      let w := t.table
      let all := scoresOf s c t ((row : Int) - tokenShift t).toNat
      let scores := (all.take (midEnd t)).map (·.1)
      let low := addF32 (pTheta w) (t.band ^^^ 0x80000000#32)
      let inactive := (scores.zipIdx.filter (fun p => ltF32 p.1 low)).map (·.2)
      let band := (scores.filter (fun x => !ltF32 x low && ltF32 x (pTheta w))).length
      let t' := { t with tokens := t.tokens ++ [{ row := row, band := bandKey t i, audited := auditedToken t row, inactive := inactive }] }
      let mine := t'.tokens.filter (fun x => l.contains x.row)
      let plain := mine.filter (fun x => !x.audited)
      let n := midEnd t / neuronBlock w
      let dead := match plain.head? with
        | none => []
        | some y => (List.range n).filter (fun b => !blockLive t' y.row b)
      let finished := l.all (fun r => t'.tokens.any (fun x => x.row == r))
      let t'' := if finished then { t' with skipped := tset t'.skipped (bandKey t i) (if plain.length = mine.length then dead else []) } else t'
      let s := updCore s c (fun x => { x with task := some t'' })
      let s := bumpCore s c CORE_NUM_INF_COUNT (all.map (·.2)).sum
      let s := bumpCore (bumpCore s c CORE_PRED_TOKEN_COUNT 1) c CORE_PRED_BAND_COUNT band
      if finished && !plain.isEmpty then bumpCore (bumpCore s c CORE_PRED_BLOCK_COUNT n) c CORE_PRED_SKIP_COUNT dead.length else s

/-! The row function (07 R167, R168, R174). -/

/-- Steps 1 and 2 on one element; u is the up value of a gated product, scaled as v is. -/
def applyFn (fn : Nat) (scale v u : F32) : F32 :=
  let x := mulF32 v scale
  match fn with
  | 1 => rfuGelu x
  | 2 => rfuSilu x
  | 4 => mulF32 (rfuSilu x) (mulF32 u scale)
  | 5 => mulF32 (rfuGelu x) (mulF32 u scale)
  | 6 => mulF32 x (mulF32 u scale)
  | _ => x
/-- Step 3: dropout of element e. -/
def dropElem (s : State) (t : CoreTask) (e : Nat) (v : F32) : F32 × Bool :=
  if rDropEn t.table then dropout (rDropP16 t.table) (drawOf s t (rDropStream t.table) e) v else (v, false)
/-- Step 5: a converted element counts as zero. -/
def markedZero (t : CoreTask) (f scale : Nat) (v : F32) (w : Nat) : Bool :=
  (scale != 255 && isZeroPattern f w) || ltF32 (v &&& 0x7FFFFFFF#32) (rThresh t.table)

/-- Steps 4 and 5 over one block: elements as (e, value); scale, patterns, and which are zero. -/
def convertElems (s : State) (t : CoreTask) (conv : Nat) (zeros : Bool) (l : List (Nat × F32)) : Nat × List (Converted × Bool) :=
  let draw (e : Nat) : Nat := if convRound conv then drawOf s t (convStream conv) e / 65536 else 0
  let b := convertBlock conv (l.map (fun x => draw x.1)) (l.map (·.2))
  (b.1, (b.2.zip l).map (fun x =>
    let z := zeros && markedZero t (convFmt conv) b.1 x.2.2 x.1.bits
    ({ x.1 with bits := if z then 0 else x.1.bits }, z)))
/-- What conversion counts (03 R75, R78). -/
def countConv (s : State) (c : Nat) (l : List Converted) : State :=
  bumpCore (bumpCore (bumpCore s c CORE_NUM_SAT_COUNT (l.map (·.sat)).sum) c CORE_NUM_NAN_COUNT (l.map (·.nan)).sum)
    c CORE_NUM_SR_COUNT (l.map (·.sr)).sum

/-- A row's elements pass steps 1 to 3: element numbers and values; dropped ones count. -/
def rowFunction (s : State) (c : Nat) (t : CoreTask) (l : List (Nat × F32)) : State × List (Nat × F32) :=
  let r := l.map (fun x => (x.1, dropElem s t x.1 x.2))
  (bumpCore (bumpCore s c CORE_RFU_ELEM_COUNT l.length) c CORE_DROP_COUNT (r.filter (fun x => x.2.2)).length, r.map (fun x => (x.1, x.2.1)))

/-- Kept elements of a token row go to compaction. -/
def keepRow (s : State) (c : Nat) (row : Nat) (l : List (Nat × F32 × Bool)) : State :=
  let s := updCore s c (fun x => { x with task := x.task.map (fun t =>
    { t with cmpRows := tset t.cmpRows row ((l.filter (fun e => !e.2.2)).foldl (fun r e => tset r e.1 e.2.1.toNat) (keptRow t row)) }) })
  bumpCore (bumpCore s c CORE_CMP_IN_COUNT l.length) c CORE_CMP_NZ_COUNT (l.filter (fun e => !e.2.2)).length

/-! Softmax with running normalisation (07 R175): the maxima and sums of a band's token rows, in the two rows after the bands. -/

def softAddr (s : State) (c : Nat) (t : CoreTask) (sum : Bool) (r : Nat) : Nat :=
  fuseAddr s c t ((softRow t + b2n sum) * 512 + 4 * r)
def softMax (s : State) (c : Nat) (t : CoreTask) (r : Nat) : F32 := BitVec.ofNat 32 (rd32 s (softAddr s c t false r))
def softSum (s : State) (c : Nat) (t : CoreTask) (r : Nat) : F32 := BitVec.ofNat 32 (rd32 s (softAddr s c t true r))
/-- Outer iteration of the second product that a shared iteration belongs to. -/
def sliceUnit (t : CoreTask) (i : Nat) : Nat := i * (ownSteps t).2 / orOne (total t (innerLevels t.table (lastProd t.table)))
/-- First slice of a band. -/
def firstSlice (t : CoreTask) (i : Nat) : Bool :=
  let inner := ((sharedLevels t.table).reverse.takeWhile (fun n => lRole t.table n != 2))
  i % orOne (total t inner) == 0
/-- Every sum of row r of the band in the second product is multiplied by a factor. -/
def rescaleSums (s : State) (c : Nat) (t : CoreTask) (i : Nat) (r : Nat) (f : F32) : State :=
  let p := lastProd t.table
  let u := sliceUnit t i
  each (List.range (panelCount t p)) s (fun s q =>
    let r := (r : Int) - bandRowOf t i (panelIndices t p u q)
    if r < 0 ∨ ((outExtent t.table p).1 : Int) ≤ r then s
    else each (List.range (outExtent t.table p).2) s (fun s j =>
      let o := sumOffset t p u q 0 r.toNat j
      if (core s c).psumSeen.contains (sumRow s c t o) then writeSum s c t o (mulF32 (readSum s c t o) f) else s))
/-- A slice of scores of token row r: the new maximum, the sum, and what goes on to the second product. -/
def softSlice (s : State) (c : Nat) (t : CoreTask) (i r : Nat) (l : List (Nat × F32)) : State × List (Nat × F32) :=
  let first := firstSlice t i
  let m := if first then 0xFF800000#32 else softMax s c t r
  let m' := l.foldl (fun a x => if ltF32 a x.2 then x.2 else a) m
  let sub (a b : F32) : F32 := addF32 a (b ^^^ 0x80000000#32)
  let f := rfuExp (sub m m')
  let es := l.map (fun x => (x.1, rfuExp (sub x.2 m')))
  let l0 := if first then 0#32 else mulF32 (softSum s c t r) f
  let l' := es.foldl (fun a x => addF32 a x.2) l0
  let s := wrBytes (wrBytes s (softAddr s c t false r) (leBytes 4 m'.toNat)) (softAddr s c t true r) (leBytes 4 l'.toNat)
  (if !first && m' != m then rescaleSums s c t i r f else s, es)

/-- The next band's first slice of scores waits until the output rows that the running sums divide are written. -/
def midBlocked (t : CoreTask) : Bool :=
  let i := t.midDone / orOne (bandRows t)
  rFn t.table == 3 && firstSlice t i && decide (outUnits t < sliceUnit t i)
/-- The next token row of the intermediate is formed (R172, R174, R175, R179, R185). The +0 elements of skipped blocks pass the row
function and conversion, and count there, as others do (log entry 69). A compacted softmax keeps one slice of one band at a time, as
R170 gives it room (log entry 83). -/
def midRow (s : State) (c : Nat) (t : CoreTask) : State :=
  let w := t.table
  let p := firstProd w
  let n := orOne (bandRows t)
  let i := t.midDone / n
  let r := t.midDone % n
  let base := bandBase t i
  let row := (base.1 + r).toNat
  let tk := tokenOf t (base.1 + r)
  let limit := match p.a with
    | some a => viewEndH t a
    | none => 0
  let done (s : State) : State :=
    let s := updCore s c (fun x => { x with task := x.task.map (fun t => { t with midDone := t.midDone + 1 }) })
    if r + 1 < n then s
    else
      let s := dropSums s c t p i
      if rCompact w then (match (core s c).task with
        | some t => writeCompact s c t (midEnd t) base.2.toNat
        | none => s) else s
  let sums := (List.range (panelCount t p)).flatMap (fun q => sumRows s c t p i q)
  let mine := (if rCompact w then [] else bandRowsAt s c t i) ++ softRowsAt s c t
  let ready := takeRows s c (heldSums s c sums ++ (if r = 0 ∧ firstSlice t i = true then [] else softRowsAt s c t)) mine
  if midBlocked t then s
  else if limit ≤ row then done s
  else if !ready.2 then ready.1
  else
    let s := each mine ready.1 (fun s p => noteRow (if r = 0 then updCore s c (fun x => { x with badRows := x.badRows.filter (· != rowKey 1 p.2) }) else s) c 1 p.2)
    let s := if rCompact w && rFn w == 3 && r == 0 then updCore s c (fun x => { x with task := x.task.map (fun t => { t with cmpRows := [] }) }) else s
    let ext := outExtent w p
    let elems := (List.range (panelCount t p)).flatMap (fun q =>
      let b := outBase t p (panelIndices t p i q)
      ((List.range ext.2).filter (fun (j : Nat) => decide (0 ≤ b.2 + (j : Int) ∧ b.2 + (j : Int) < midEnd t))).map (fun (j : Nat) =>
        let col := (b.2 + (j : Int)).toNat
        let live := !gated w || blockLive t tk (col / neuronBlock w)
        let g := if live then readSum s c t (sumOffset t p i q 0 r j) else 0#32
        let u := if live then readSum s c t (sumOffset t p i q 1 r j) else 0#32
        (col, live, if live then applyFn (rFn w) (rScale w) g u else 0#32)))
    let tok := t.tokens.find? (fun x => x.row == tk)
    let misses := match tok with
      | some x => if x.audited then (elems.filter (fun e =>
          let v := (dropElem s t (tk * midEnd t + e.1) e.2.2).1
          x.inactive.contains e.1 && !ltF32 (v &&& 0x7FFFFFFF#32) (pActEps w) && !isZeroF32 v)).length else 0
      | none => 0
    let s := match tok with
      | some x => if x.audited && predicts t then updCore s c (fun y => { y with
          audit := [y.audit.getD 0 0 + 1, y.audit.getD 1 0 + x.inactive.length, y.audit.getD 2 0 + misses] }) else s
      | none => s
    let width := midEnd t
    let (s, vals) := if rFn w = 3 then softSlice s c t i r (elems.map (fun e => (tk * width + e.1, e.2.2)))
      else (s, elems.map (fun e => (tk * width + e.1, e.2.2)))
    let live := elems.map (fun e => e.2.1)
    let (s, vals) := rowFunction s c t vals
    let k0 := base.2
    let cols := elems.map (fun e => ((e.1 : Int) - k0).toNat)
    let all := (cols.zip (live.zip vals))
    let blocks := (List.range (ceilDiv (fuseWidth w) 32)).map (fun b => all.filter (fun x => x.1 / 32 == b))
    let s := each blocks s (fun s l =>
      if l.isEmpty then s else
      let r' := convertElems s t (hConv w) true (l.map (fun x => x.2.2))
      let out := (l.zip r'.2)
      let s := countConv s c (r'.2.map (·.1))
      if rCompact w then keepRow s c tk (out.map (fun x => (x.1.1, x.1.2.2.2, x.2.2 || !x.1.2.1)))
      else
        let s := each out s (fun s x => midWrite s c t i r x.1.1 (if x.1.2.1 then x.2.1.bits else 0))
        updCore s c (fun y => { y with task := y.task.map (fun t => { t with
          midScales := tset t.midScales (midKey i r ((l.head?.map (·.1)).getD 0)) r'.1 }) }))
    done s

/-! Output tiles (03 R74; 04 R88, R93; 07 R167; 09 R237). -/

/-- The values of a tile's elements, row-major: element number and value, none in the selvedge. -/
def tileVals (s : State) (c : Nat) (t : CoreTask) (p : Prod) (k u q a b : Nat) (ti tj : Nat) : List (Option (Nat × F32)) :=
  let d := sLayout t.table k
  let w := if dKind d = 2 then cols t k / 2 else cols t k
  let th := tileH (dFmt d)
  let tw := tileW (dFmt d)
  let band := bandRowOf t (u * orOne (total t (innerLevels t.table p)) / orOne (ownSteps t).2) (panelIndices t p u q)
  (List.range th).flatMap (fun i => (List.range tw).map (fun j =>
    let row := ti * th + i
    let col := tj * tw + j
    if rows t k ≤ row ∨ w ≤ col then none
    else
      let v := readSum s c t (sumOffset t p u q 0 (a * th + i) (b * tw + j))
      let v2 := readSum s c t (sumOffset t p u q 1 (a * th + i) (b * tw + j))
      let x := if hPair t.table then
          (if rFn t.table = 3 then divF32 v (softSum s c t (band + ((a * th + i : Nat) : Int)).toNat) else v)
        else applyFn (rFn t.table) (rScale t.table) v v2
      let sh := shareShift t k
      some ((row + sh.1 * th).toNat * cols t k + (outColumn s c t k row col + sh.2 * tw * (if dKind d = 2 then 2 else 1)).toNat, x)))

/-- Row i of the output is the core's to write: its first position lies in a chunk that the core holds, or the row begins at the end and
the core holds the last chunk (01 R27; 06 R161). -/
def homeRow (s : State) (c : Nat) (t : CoreTask) (i : Nat) : Bool :=
  let k := cClaimSlot t.table
  let rp (i : Nat) : Nat := if emptyTensor t k then (if t.counter.isSome then cPosFirst t.table else 0)
    else rowPtr s (slotPlace s c t k) (sLayout t.table k) i
  let last := if t.counter.isSome then cPosEnd t.table else rp (rows t k)
  let first := if t.counter.isSome then cPosFirst t.table else rp 0
  (core s c).chunks.any (fun x => decide (x.s ≤ rp i ∧ rp i < x.e) || (x.e == last && rp i == last)) || (first == last && t.rank == 0)
/-- The rows of a tile that lie inside the tensor. -/
def tileRows (t : CoreTask) (k ti : Nat) : List Nat :=
  (List.range (tileH (dFmt (sLayout t.table k)))).filter (fun i => decide (ti * tileH (dFmt (sLayout t.table k)) + i < rows t k))
/-- Those that are the core's to write, and those that are not. -/
def tileHome (s : State) (c : Nat) (t : CoreTask) (k ti : Nat) : List Nat × List Nat :=
  let l := tileRows t k ti
  if claimsMode t.table then
    (l.filter (fun i => homeRow s c t (ti * tileH (dFmt (sLayout t.table k)) + i)), l.filter (fun i => !homeRow s c t (ti * tileH (dFmt (sLayout t.table k)) + i)))
  else (l, [])
/-- Under OUT_MODE 1, where elements add, the selvedge elements of some rows of an FP32 tile are written as zero first (04 R91). -/
def zeroOutside (s : State) (c : Nat) (t : CoreTask) (k ti tj : Nat) (l : List Nat) : State :=
  let d := sLayout t.table k
  let tw := tileW (dFmt d)
  if hOutMode t.table ≠ 1 then s
  else each l s (fun s i =>
    let live := if ti * tileH (dFmt d) + i < rows t k then min tw (cols t k - tj * tw) else 0
    if live < tw then putBytes s c t (slotPlace s c t k) (matrixValue d 0 + tileOrdinal d ti tj * 512 + (i * tw + live) * 4) (zeros ((tw - live) * 4)) else s)
/-- The rows of a tile past the tensor's last: selvedge, which every writer of the tile writes (04 R91). -/
def selvedgeRows (t : CoreTask) (k ti : Nat) : List Nat :=
  (List.range (tileH (dFmt (sLayout t.table k)))).filter (fun i => decide (rows t k ≤ ti * tileH (dFmt (sLayout t.table k)) + i))
/-- The bytes of some element rows of a tile are written, and its selvedge; the other rows keep what they hold. Under OUT_MODE 1 FP32
elements add. -/
def writeTileRows (s : State) (c : Nat) (t : CoreTask) (k ti tj : Nat) (keep : List Nat) (pats scales : List Nat) : State :=
  let d := sLayout t.table k
  let f := dFmt d
  let o := tileOrdinal d ti tj
  let n := 512 / tileH f
  let pl := slotPlace s c t k
  let keep := keep ++ selvedgeRows t k ti
  let s := zeroOutside s c t k ti tj keep
  let s := each (packTile f pats).zipIdx s (fun s r => each keep s (fun s i =>
    let a := matrixValue d 0 + (o * planes f + r.2) * 512 + i * n
    let new := (r.1.drop (i * n)).take n
    let sum := addFp32 ((List.range n).map (fun j => placeByte s pl (a + j))) new
    if hOutMode t.table = 1 then putBytes (bumpCore s c CORE_NUM_INF_COUNT sum.2) c t pl a sum.1 else putBytes s c t pl a new))
  let m := tileScales f / tileH f
  if hasScale f then each keep s (fun s i => putBytes s c t pl (matrixScale d 0 + o * tileScales f + i * m) (((scales.drop (i * m)).take m).map (BitVec.ofNat 8))) else s

/-- Output tile n of the span: its outer iteration and panel, its place in the panel, and its tile coordinates. -/
def outPlace (t : CoreTask) (p : Prod) (k n : Nat) : (Nat × Nat) × (Nat × Nat) × (Int × Int) :=
  let per := orOne (sPanelTr t.table k * sPanelTc t.table k)
  let units := orOne (unitTiles t)
  let u := n / units
  let q := n % units / per
  let a := n % per / orOne (sPanelTc t.table k)
  let b := n % per % orOne (sPanelTc t.table k)
  let at_ := panelAt t k (panelIndices t p u q)
  ((u, q), (a, b), (at_.1 + a, at_.2 + b))
/-- Output tiles of the running span, in all. -/
def outTotal (t : CoreTask) : Nat := unitTiles t * total t (outerLevels t.table (lastProd t.table))
/-- Output tiles of the span that are not skipped. -/
def writtenTiles (t : CoreTask) (k : Nat) : List Nat := (List.range (outTotal t)).filter (fun n =>
  let x := (outPlace t (lastProd t.table) k n).2.2
  !tileSkipped t k x.1 x.2)
/-- When row p of output tile n is due (10 R264, R265): at the panel step that completes the row which needs its slot of the staging region
next, of `len` rows, or with the span's last step where none does. -/
def writeDue (t : CoreTask) (k len n p : Nat) : Nat × Int := match slotStream t.schedule k with
  | none => (0, 0)
  | some i =>
    let pl := planes (dFmt (sLayout t.table k))
    let l := writtenTiles t k
    let prod := lastProd t.table
    let last := match l[((l.takeWhile (fun x => decide (x < n))).length * pl + p + len) / pl]? with
      | some m => spanStepOf t prod ((m / orOne (unitTiles t) + 1) * orOne (total t (innerLevels t.table prod)) - 1)
      | none => spanTotal t - 1
    dueOf t i (t.steps - t.spanSteps + last)

/-- The patterns and scales of output tile n are written out: rows of 512 B, and its block scales. -/
def writeTile (s : State) (c : Nat) (t : CoreTask) (k n ti tj : Nat) (pats scales : List Nat) : State :=
  let d := sLayout t.table k
  let f := dFmt d
  let o := tileOrdinal d ti tj
  let s := if tileMasked t k ti tj then zeroOutside s c t k ti tj (List.range (tileH f)) else s
  let s := each (packTile f pats).zipIdx s (fun s r =>
    outRow s c t k (matrixValue d 0 + (o * planes f + r.2) * 512) (writeDue t k (regionLen s c (sMem t.table k) (sRegion t.table k)) n r.2) r.1)
  if hasScale f then putBytes s c t (slotPlace s c t k) (matrixScale d 0 + o * tileScales f) (scales.map (BitVec.ofNat 8)) else s

/-- The next output tile of the running span. -/
def outTile (s : State) (c : Nat) (t : CoreTask) : State :=
  let w := t.table
  let p := lastProd w
  match p.out with
  | none => s
  | some k =>
    let d := sLayout w k
    let o := outPlace t p k t.outDone
    let u := o.1.1
    let q := o.1.2
    let a := o.2.1.1
    let b := o.2.1.2
    let ti := o.2.2.1
    let tj := o.2.2.2
    let next (s : State) : State :=
      let s := updCore s c (fun x => { x with task := x.task.map (fun t => { t with outDone := t.outDone + 1 }) })
      if (t.outDone + 1) % orOne (unitTiles t) = 0 then dropSums s c t p u else s
    if dKind d = 1 ∧ rCompact w = false then next s
    else if tileSkipped t k ti tj then next (bumpCore s c LOOP_SKIP_TILE_COUNT 1)
    else
      let home := tileHome s c t k ti.toNat
      if claimsMode w ∧ home.1.isEmpty = true then next s else
      let ready := takeRows s c (heldSums s c (sumRows s c t p u q) ++ softRowsAt s c t) []
      if !ready.2 then ready.1 else
      let s := ready.1
      let s := if tileMasked t k ti tj then bumpCore s c LOOP_SELVEDGE_COUNT 1 else s
      let vals := (tileVals s c t p k u q a b ti.toNat tj.toNat).zipIdx.map (fun v =>
        if home.2.contains (v.2 / tileW (dFmt d)) then none else v.1)
      let fn := !hPair w
      let (s, done) := if fn then rowFunction s c t (vals.filterMap id) else (s, vals.filterMap id)
      let look (o : Option (Nat × F32)) : Option (Nat × F32) := o.bind (fun e => done.find? (fun x => x.1 == e.1))
      let conv := if hPair w then hConv2 w else hConv w
      let blocks := (List.range (ceilDiv vals.length 32)).map (fun b => ((vals.drop (32 * b)).take 32).map look)
      let res := blocks.map (fun l => (l, convertElems s t conv fn (l.filterMap id)))
      let s := countConv s c (res.flatMap (fun r => r.2.2.map (·.1)))
      if rCompact w && fn then
        let out := res.flatMap (fun r => (r.1.filterMap id).zip (r.2.2.map (·.2)))
        let width := cols t k
        next (each home.1 s (fun s i =>
          let row := (((ti.toNat * tileH (dFmt d) + i : Nat) : Int) + (shareShift t k).1 * tileH (dFmt d)).toNat
          keepRow s c row ((out.filter (fun e => e.1.1 / orOne width == row)).map (fun e => (e.1.1 % orOne width, e.1.2, e.2)))))
      else
        let pats := res.flatMap (fun r => (r.1.foldl (fun (acc : List Nat × List (Converted × Bool)) e => match e, acc.2 with
          | some _, x :: rest => (acc.1 ++ [x.1.bits], rest)
          | _, l => (acc.1 ++ [0], l)) ([], r.2.2)).1)
        let scales := res.map (fun r => if (r.1.filterMap id).isEmpty then 0 else r.2.1)
        next (if home.2.isEmpty then writeTile s c t k t.outDone ti.toNat tj.toNat pats scales
          else writeTileRows s c t k ti.toNat tj.toNat home.1 pats scales)

/-- The next output tile of the running span has its sums. -/
def outReady (t : CoreTask) : Bool :=
  decide (t.outDone < outTotal t) && (if claimsMode t.table then laneMode t.table == 2 && t.merged && (zeroLevels t).isEmpty
    else decide (t.outDone < unitTiles t * unitsDone t (lastProd t.table) t.spanSteps))
/-- A token row of the intermediate has its sums. -/
def midReady (t : CoreTask) : Bool :=
  hPair t.table && !claimsMode t.table && decide (t.midDone < bandRows t * unitsDone t (firstProd t.table) t.spanSteps)

/-- The compacted operand of a task without a pair is written at the end of its span. -/
def endCompact (s : State) (c : Nat) (t : CoreTask) : State :=
  if rCompact t.table && !hPair t.table then (match outSlot t.table with
    | some k => writeCompact s c t (cols t k) 0
    | none => s) else s
/-- A core's part of the span is finished: the compacted operand written, and reported. -/
def spanEnd (s : State) (c : Nat) : State := match (core s c).task with
  | none => s
  | some t =>
    let finished := if claimsMode t.table then t.merged && (laneMode t.table != 2 || t.outDone == outTotal t || !(zeroLevels t).isEmpty)
      else t.spanSteps == spanTotal t && (spanTotal t == 0 || t.outDone == outTotal t)
    if t.copy || t.phase != 4 || !finished || t.zeroLeft != 0 then s
    else
      let s := if t.spanReported then s else endCompact s c t
      if stillRuns s c t.slot then reportSpan s c else s

/-! Empty sums (R236). -/

/-- The table with its zero run-time bounds taken as 1. -/
def onesTask (t : CoreTask) : CoreTask :=
  let z := zeroLevels t
  { t with table := t.table.zipIdx.map (fun p =>
      if z.any (fun n => p.2 == 24 + 8 * n) then putBits (putBits p.1 31 0 1) 36 32 0 else p.1) }

/-- Elements of a tile that lie inside the tensor: each is a +0 that zero fill converts (03 R78). -/
def liveElems (t : CoreTask) (k : Nat) (ti tj : Int) : Nat :=
  let d := sLayout t.table k
  let w := if dKind d = 2 then cols t k / 2 else cols t k
  min (tileH (dFmt d)) (rows t k - ti.toNat * tileH (dFmt d)) * min (tileW (dFmt d)) (w - tj.toNat * tileW (dFmt d))
/-- Zero tile n of a span whose reductions are empty: +0 under CONV, or under COMPACT a row without an element for each token row. -/
def zeroTile (s : State) (c : Nat) (t0 : CoreTask) : State :=
  let t := onesTask t0
  let p := lastProd t.table
  match p.out with
  | none => s
  | some k =>
    let d := sLayout t.table k
    let n := outTotal t - t0.zeroLeft
    let x := (outPlace t p k n).2.2
    let conv := if hPair t.table then hConv2 t.table else hConv t.table
    let next (s : State) : State := updCore s c (fun x => { x with task := x.task.map (fun t => { t with zeroLeft := t.zeroLeft - 1 }) })
    if tileSkipped t k x.1 x.2 then next (bumpCore s c LOOP_SKIP_TILE_COUNT 1)
    else
      let s := bumpCore s c LOOP_SELVEDGE_COUNT (b2n (tileMasked t k x.1 x.2))
      let s := bumpCore s c CORE_NUM_SR_COUNT (if convRound conv && !hasScale (dFmt d) then liveElems t k x.1 x.2 else 0)
      if rCompact t.table && !hPair t.table then
        next (each (tileRows t k x.1.toNat) s (fun s i =>
          keepRow s c (((x.1.toNat * tileH (dFmt d) + i : Nat) : Int) + (shareShift t k).1 * tileH (dFmt d)).toNat []))
      else
        let z := ((convertBlock conv [] (List.replicate 32 0#32)).2.map (·.bits)).getD 0 0
        let s := writeTile s c t k n x.1.toNat x.2.toNat (List.replicate (tileElems (dFmt d)) z) (List.replicate (tileScales (dFmt d)) 0)
        next (bumpCore s c LOOP_ZERO_FILL_ROWS (planes (dFmt d)))
/-- A span whose reductions are empty owes zero sums (R236): a compressed output gets its row pointers at once, and tiles are written one
after the other. Of claimed work that no split level divides, the first core writes them. -/
def zeroFill (s : State) (c : Nat) : State := match (core s c).task with
  | none => s
  | some t =>
    let w := t.table
    let z := zeroLevels t
    let s := bumpCore s c LOOP_ZERO_BOUND_COUNT z.length
    if !hZeroFill w || z.isEmpty || !z.all (lReduce w) || (claimsMode w && hSplitLevel w == 7 && t.rank != 0) then s else
    match (lastProd w).out with
    | none => s
    | some k =>
      let d := sLayout w k
      if emptyTensor t k then s
      else if dKind d = 1 then
        if t.rank ≠ 0 then s else
        let pl := slotPlace s c t k
        let n := if dRpWide d then 8 else 4
        let bytes := n * rows t k
        bumpCore (putBytes s c t pl (dAux0 d + n) ((List.range (rows t k)).flatMap (fun _ => leBytes n (rowPtr s pl d 0))))
          c LOOP_ZERO_FILL_ROWS ((dAux0 d + n + bytes - 1) / 512 - (dAux0 d + n) / 512 + 1)
      else updCore s c (fun x => { x with task := x.task.map (fun t => { t with zeroLeft := outTotal (onesTask t) }) })

/-- The row-function and conversion stages take the next row of the span's output: a token row of the intermediate first. -/
def outputRow (s : State) (c : Nat) : State := match (core s c).task with
  | none => s
  | some t =>
    if t.copy || t.phase != 4 then s
    else if t.zeroLeft != 0 then spanEnd (zeroTile s c t) c
    else if midReady t && !midBlocked t then midRow s c t
    else if outReady t then spanEnd (outTile s c t) c
    else s

end Sys2Proof.Machine
end

