-- ==== Sys2Proof/Machine/HstOps.lean ====
section
/-! DEFINITION. The host interface die: descriptors, dispatch, completion (16 R403 to R417; 04 R102 to R106; 09 R246, R250). -/

namespace Sys2Proof.Machine

/-! Strand cache of 16,384 entries (01 R16 table, 16 R406). -/

def hstHolds (s : State) (n : Nat) : Bool := s.hst.lru.contains n
/-- The words that the HST die owns go back. -/
def hstBack (s : State) (n : Nat) : State := match strand s n with
  | some x => wr64 (wr64 s (strandEntry s n 9) x.tasksDone) (strandEntry s n 10) x.stepLast
  | none => s
def hstTouch (s : State) (n : Nat) : State :=
  let l := n :: s.hst.lru.filter (· != n)
  each (l.drop 16384) { s with hst := { s.hst with lru := l.take 16384 } } hstBack

/-! Descriptors (R409, R410). -/

def tOpcode (w : List Nat) : Nat := bits (word w 0) 7 0
def tFence (w : List Nat) : Bool := bit (word w 0) 8
def tIntr (w : List Nat) : Bool := bit (word w 0) 9
def tExact (w : List Nat) : Bool := bit (word w 0) 10
def tCmdId (w : List Nat) : Nat := bits (word w 0) 31 16
def tStrand (w : List Nat) : Nat := bits (word w 0) 49 32
def tCores (w : List Nat) : Nat := word w 1
def tStep (w : List Nat) : Nat := word w 2
def tArg0 (w : List Nat) : Nat := bits (word w 3) 47 0
def tArg1 (w : List Nat) : Nat := word w 4

/-- DESCRIPTOR_INVALID (R410): reserved opcodes and fields (Table: Barrier fields among them), and alignment. -/
def descBad (w : List Nat) : Bool :=
  tOpcode w == 0 || decide (7 < tOpcode w) || bits (word w 0) 15 11 != 0 || bits (word w 0) 63 50 != 0 || bits (word w 3) 63 48 != 0
    || (w.drop 5).any (· != 0)
    || ((tOpcode w == 1 || tOpcode w == 2) && tArg0 w % 64 != 0)
    || (tOpcode w == 5 && bits (tArg1 w) 63 52 != 0)
    || (tOpcode w == 6 && (tArg0 w % 65536 != 0 || tArg1 w % 65536 != 0))
/-- The core rules of R410 for a COMPUTE or COPY. -/
def coresBad (s : State) (w : List Nat) : Nat :=
  if tOpcode w ≠ 1 ∧ tOpcode w ≠ 2 then 0
  else if tCores w &&& activeMask s = 0 then stNoActiveCore
  else if tExact w && (tCores w &&& activeMask s) != tCores w then stCoreFenced
  else 0
/-- The verdict on a fetched descriptor: 0 where it waits for dispatch. -/
def verdict (s : State) (q : Nat) (w : List Nat) : Nat :=
  let n := tStrand w
  let lim := reg s (sqOff q 2)
  if descBad w then stDescriptorInvalid
  else if n < bits lim 17 0 ∨ bits lim 35 18 < n then stStrandInvalid
  else match strand s n with
    | none => stStrandInvalid
    | some x => if x.releasing then stStrandReleased else coresBad s w

/-- A task takes a slot. -/
def newSlot (q seq : Nat) (w : List Nat) : Slot :=
  { busy := true, sq := q, seq := seq, cmdId := tCmdId w, opcode := tOpcode w, intr := tIntr w, strand := tStrand w, step := tStep w,
    arg0 := tArg0 w, arg1 := tArg1 w }
/-- A task ends without running on cores: its completion waits in a slot, or for one. -/
def endedTask (s : State) (q seq : Nat) (w : List Nat) (status info : Nat) : State := match freeSlot s with
  | some k => setSlot s k { newSlot q seq w with ending := true, status := status, info := info }
  | none => { s with hst := { s.hst with refused := s.hst.refused ++ [(q, seq, w, status)] } }
/-- A task completes without dispatch; it counts as refused. -/
def refuseTask (s : State) (q seq : Nat) (w : List Nat) (status : Nat) : State :=
  endedTask (bump s (hstOff HST_REFUSE_COUNT) 1) q seq w status 0
/-- Tasks that wait for a slot take those that are free. -/
def settleRefused (s : State) : State :=
  each s.hst.refused { s with hst := { s.hst with refused := [] } } (fun s r => endedTask s r.1 r.2.1 r.2.2.1 r.2.2.2 0)

/-! Dispatch (R411, R412). -/

def fetched (s : State) (q : Nat) : List Desc := tget [] s.hst.fetched q
def setFetched (s : State) (q : Nat) (l : List Desc) : State := { s with hst := { s.hst with fetched := tset s.hst.fetched q l } }
/-- An earlier task of an SQ has not completed. -/
def earlierRuns (s : State) (q seq : Nat) : Bool :=
  s.hst.slots.any (fun p => p.2.busy && p.2.sq == q && decide (p.2.seq < seq))
    || s.hst.refused.any (fun r => r.1 == q && decide (r.2.1 < seq))
/-- The front task of an SQ may be dispatched, but for its cores and its row counter. -/
def mayDispatch (s : State) (q : Nat) (d : Desc) : Bool :=
  hstHolds s (tStrand d.words) && !(tFence d.words && earlierRuns s q d.seq) && (freeSlot s).isSome
    && !(waitingForCq s).any (fun k => sqCq s (slotOf s k).sq == sqCq s q)
/-- The front task of an SQ when it is of an opcode and may be dispatched. -/
def frontTask (s : State) (q op : Nat) : Option Desc := match fetched s q with
  | d :: _ => if tOpcode d.words = op ∧ mayDispatch s q d = true then some d else none
  | [] => none
/-- A lifeline holds the front task of an SQ: its wait is noted. -/
def noteHold (s : State) (q n : Nat) : State :=
  { s with hst := { s.hst with llWaiting := (q, n) :: s.hst.llWaiting.filter (fun p => p.1 != q) } }
/-- The front task of an SQ waits no more, for a row counter or for a lifeline: it is dispatched or gone (09 R250; 17 R431). -/
def leaveWaits (s : State) (q : Nat) : State :=
  { s with hst := { s.hst with counterWaiting := s.hst.counterWaiting.filter (· != q), llWaiting := s.hst.llWaiting.filter (fun p => p.1 != q) } }
/-- The front task of an SQ leaves for dispatch: counted, and its step starts (17 R430). An SQ that was being closed and has
nothing left reads ENABLE 0 (R407). -/
def takeFront (s : State) (q : Nat) (d : Desc) : State :=
  let s := leaveWaits (setFetched s q ((fetched s q).drop 1)) q
  let s := bump (hstTouch s (tStrand d.words)) (hstOff HST_TASK_COUNT) 1
  stepStart s (tStrand d.words) (tStep d.words)

/-- The free row counter of R250: the slice with the fewest armed counters, the lower one on a tie, and its lowest free counter. -/
def freeCounter (s : State) : Option Nat :=
  let free (k : Nat) : Bool := !(rowCounter s k).reserved && !(rowCounter s k).armed
  let armed (l : Nat) : Nat := ((List.range 64).filter (fun i => !free (l * 64 + i))).length
  let l := (List.range 16).foldl (fun b l => if armed l < armed b then l else b) 0
  (List.range 64).findSome? (fun i => if free (l * 64 + i) then some (l * 64 + i) else none)

/-- Shape block: 16 values at SHAPE_BASE (09 R234). -/
def readShape (s : State) (n base : Nat) : Option (List Nat) :=
  if base = 0 then some []
  else (readWords s n base 8).map (fun l => l.flatMap (fun w => [w % 2 ^ 32, w / 2 ^ 32]))

/-- The first status of a range's translation, by pages; none where all translate. -/
def rangeFault (s : State) (n va len : Nat) (write : Bool) : Option Nat :=
  (((List.range (ceilDiv len 65536)).map (fun i => va + 65536 * i)) ++ (if len = 0 then [] else [va + len - 1])).findSome? (fun a =>
    match translate s n a write with
    | .ok _ => none
    | .err e => some e)

/-- DISPATCH to every core of a slot, ranks ascending (09 R247). -/
def sendDispatch (s : State) (k : Nat) : State :=
  let l := slotCores s k
  each l.zipIdx s (fun s c => sendChain s hstDie (coreDie c.1) (.dispatch c.1 k c.2 l.length))

/-- Masks being freed now: a later task that names one is refused (04 R106). -/
def freeingMasks (s : State) : List Nat := s.hst.maskFrees.map (·.2)

/-- The task's token base (07 R183): TOKEN_SEQ of the state record rises by the task's tokens: the rows of slot A, at its
run-time H also where A is resident and the token level is split (log entry 92). -/
def takeTokens (s : State) (n : Nat) (t shape : List Nat) : State × Nat :=
  if !pEn t then (s, 0) else
  let tokens := match slotWith t 1 with
    | some a => runH t shape a
    | none => 0
  let r := getLine s n (pStateBase t + 8)
  match translate r.1 n (pStateBase t + 8) true with
  | .ok a => if r.2 = stSuccess then (wr64 r.1 a (rd64 r.1 a + tokens), rd64 r.1 a) else (r.1, 0)
  | .err _ => (r.1, 0)

/-! Masks (04 R101 to R106). -/

/-- Nibble of group g of row i, matrix m. -/
def maskNibble (s : State) (n : Nat) (d : List Nat) (m i g : Nat) : Nat := nibbleAt s (.va n) d m i g
/-- Mask positions of column j in the rows of an aligned square. -/
def columnLoad (s : State) (n : Nat) (d : List Nat) (m a b j : Nat) : Nat :=
  ((List.range 4).filter (fun r =>
    let v := maskNibble s n d m (4 * a + r) b
    v % 4 == j || v / 4 == j)).length
/-- The metadata that a mask load reads, as address and bytes. -/
def maskBytes (d : List Nat) : Nat × Nat :=
  if fmtOk (dFmt d) ∧ dKind d = 2 ∧ layoutBad d = false then (dAux0 d, matrixMeta d (dOuter d) - dAux0 d) else (0, 0)
/-- The status of a mask-load task, and its mask's number (R102, R103, R106). A full table is found before the metadata is read (log entry
75); `read` is the status that reading it meets; nibbles of groups wholly in the selvedge are not tested (log entry 74). -/
def loadMask (s : State) (n : Nat) (d : List Nat) (transposable : Bool) (read : Nat) : Nat × Nat :=
  if !fmtOk (dFmt d) then (stFormatUnsupported, 0)
  else if dKind d ≠ 2 ∨ layoutBad d = true then (stLayoutInvalid, 0)
  else if transposable && (dH d % 4 != 0 || dW d % 4 != 0) then (stLayoutInvalid, 0)
  else match (List.range 1024).find? (fun k => !thas s.hst.masks k) with
    | none => (stMaskTableFull, 0)
    | some id =>
      if read ≠ stSuccess then (read, 0) else
        let ms := List.range (dOuter d)
        if ms.any (fun m => (List.range (dH d)).any (fun i => (List.range (dW d / 4)).any (fun g => !nibbleOk (maskNibble s n d m i g)))) then
          (stStructMetadataInvalid, 0)
        else if transposable && ms.any (fun m => (List.range (dH d / 4)).any (fun a => (List.range (dW d / 4)).any (fun b =>
            (List.range 4).any (fun j => decide (2 < columnLoad s n d m a b j))))) then (stMaskNotTransposable, 0)
        else (stSuccess, id)
/-- A dispatched task names a mask. -/
def maskNamed (s : State) (id : Nat) : Bool :=
  s.hst.slots.any (fun p => p.2.busy && !p.2.written && p.2.opcode == 1 && (slots p.2.table).any (fun k =>
    dKind (sLayout p.2.table k) == 2 && dMaskId (sLayout p.2.table k) == id))
/-- Mask-free tasks whose mask no task names any more complete. -/
def settleMasks (s : State) : State :=
  each s.hst.maskFrees s (fun s p =>
    if maskNamed s p.2 then s
    else
      let s := { s with hst := { s.hst with masks := tdel s.hst.masks p.2, maskFrees := s.hst.maskFrees.filter (· != p) } }
      updSlot s p.1 (fun x => if x.busy && !x.ending then { x with ending := true, status := stSuccess } else x))

/-! Barriers (R414). -/

def barrierOf (s : State) (b : Nat) : Barrier := tget {} s.hst.barriers b
def barId (x : Slot) : Nat := bits x.arg1 11 0
def barGen (x : Slot) : Nat := bits x.arg1 27 12
def barExpect (x : Slot) : Nat := bits x.arg1 51 40
/-- Barrier tasks whose arrivals are complete end with SUCCESS. -/
def settleBarrier (s : State) (b : Nat) : State :=
  each ((busySlots s).filter (fun k => (slotOf s k).opcode == opBarrier && barId (slotOf s k) == b)) s (fun s k =>
    let x := slotOf s k
    let y := barrierOf s b
    if !x.ending && y.gen == barGen x && decide (barExpect x ≤ (y.now.filter (x.table.contains ·)).length) then
      setSlot s k { x with ending := true, status := stSuccess, info := barGen x }
    else s)

/-! Completion (R415 to R417). -/

/-- The status of a slot's completion: status, die, check. -/
def slotStatus (x : Slot) : Nat × Nat × Nat :=
  if x.ending then (x.status, x.srcDie, x.check) else match x.refusal with
    | some (st, ck) => (st, x.refusalDie, ck)
    | none => (stSuccess, 98, 0)
/-- Bytes to a ring: host memory leaves the device, the near tier takes them here. -/
def ringWrite (s : State) (a : Nat) (l : List Byte) : State := if isHost a then emit s (.hostWrite a l) else wrBytes s a l
/-- Signal a CQ: its vector, when INT_EN is set, and nothing is unsignalled. -/
def signalCq (s : State) (q : Nat) : State :=
  let s := { s with hst := { s.hst with unsignalled := tdel s.hst.unsignalled q } }
  if bit (reg s (cqOff q 0)) 17 then sendMsix s (bits (reg s (cqOff q 0)) 16 6) else s
/-- A completion is written into a CQ: aggregation (R417). -/
def aggregate (s : State) (q : Nat) (intr : Bool) : State :=
  if !bit (reg s (cqOff q 0)) 17 then s
  else
    let (n, t) := tget (0, now s) s.hst.unsignalled q
    if intr || decide (bits (reg s (cqOff q 0)) 25 18 ≤ n + 1) then signalCq s q
    else { s with hst := { s.hst with unsignalled := tset s.hst.unsignalled q (n + 1, t) } }

/-! Releasing strands (R405). -/

/-- Every word that a die of the device owns goes back to the strand's entry (R404 FLUSH). -/
def flushStrand (s : State) (n : Nat) : State :=
  let s := hstBack (lnkBack s n) n
  if (lifeline s n).role = 0 then s else llStore s n
/-- A task of a strand has not completed. -/
def strandBusy (s : State) (n : Nat) : Bool :=
  s.hst.slots.any (fun p => p.2.busy && p.2.strand == n) || s.hst.refused.any (fun r => tStrand r.2.2.1 == n)
/-- Steps 3 to 5 of a release: masks, flush, and every cache drops the entry; RESULT is done. -/
def endRelease (s : State) (n : Nat) : State :=
  let s := { s with hst := { s.hst with masks := s.hst.masks.filter (fun p => p.2.strand != n) } }
  let s := flushStrand s n
  { s with hst := { s.hst with strands := tdel s.hst.strands n, lru := s.hst.lru.filter (· != n), strandResult := 0, strandStatus := 0 }
           lnkCache := s.lnkCache.map (fun p => (p.1, p.2.filter (· != n))) }
/-- A releasing strand whose tasks have all completed ends. -/
def settleRelease (s : State) : State :=
  each ((s.hst.strands.filter (fun p => p.2.releasing)).map (·.1)) s (fun s n => if strandBusy s n then s else endRelease s n)

/-- A slot that is free: nothing waits for it any longer, and the lines its task held in the shared cache are no longer kept (R415, R426). -/
def forgetSlot (s : State) (k seq : Nat) : State :=
  let wait := s.hst.cancelWait.filter (· != seq)
  { s with
    hst := { s.hst with cancelWait := wait, cancelResult := if wait.isEmpty && s.hst.cancels.isEmpty && s.hst.cancelResult == 1 then 0 else s.hst.cancelResult
                        maskFrees := s.hst.maskFrees.filter (fun p => p.1 != k), invalidating := s.hst.invalidating.filter (fun p => p.1 != k) }
    posted := s.posted.filter (fun p => p.2.2.1 != k)
    cache := { s.cache with retained := s.cache.retained.filter (fun p => p.2 != k) } }
/-! What an abort leaves (10 R278): every place that the task could write holds unspecified contents, which are free values. -/

/-- n bytes from an address take free values. -/
def openBytes (s : State) (p : Place) (a n : Nat) : State :=
  each (List.range n) s (fun s i => let f := freshFree s
    placeWrite f.2 p (a + i) [BitVec.ofNat 8 f.1])
/-- OUT_RP[0] of the task that a counter serves (06 R160): its output's row-pointer array holds it. -/
def outRp0 (s : State) (k : Nat) : Nat := match outSlot (slotOf s k).table with
  | some o =>
    let d := sLayout (slotOf s k).table o
    if dKind d = 1 then rowPtr s (.va (slotOf s k).strand) d 0 else 0
  | none => 0
/-- Byte ranges of a compressed or 2:4 tensor that a task writes whole, from position rp0 on where its rows are compressed. -/
def tensorRanges (d : List Nat) (rp0 : Nat) : List (Nat × Nat) :=
  let c := dFmt d
  let n := dH d * dW d
  if dKind d = 1 then
    let w := if dCiWide d then 4 else 2
    let r := if dRpWide d then 8 else 4
    [(dAux0 d, (dH d + 1) * r), (dAux1 d + w * rp0, w * n),
     if isPlane c then (dValue d + rp0 / 4096 * planes c * 512, ceilDiv (rp0 % 4096 + n) 4096 * planes c * 512)
     else (dValue d + rp0 * fmtBytes c, n * fmtBytes c)]
    ++ (if hasScale c then [(dScale d + rp0 / 32, ceilDiv (rp0 % 32 + n) 32)] else [])
  else (List.range (dOuter d)).flatMap (fun m => (gridOrdinals d).flatMap (fun o =>
    [(matrixValue d m + o * planes c * 512, planes c * 512), (matrixMeta d m + o * tileMeta c, tileMeta c)]
      ++ (if hasScale c then [(matrixScale d m + o * tileScales c, tileScales c)] else [])))
/-- Byte ranges of the tiles of a slot's output that its nest addresses, those that ZERO_FILL writes among them. -/
def tileRanges (x : Slot) (k o : Nat) : List (Nat × Nat) :=
  let t0 : CoreTask := { slot := k, table := x.table, shape := x.shape, strand := x.strand }
  let t := if hZeroFill x.table then onesTask t0 else t0
  let d := sLayout x.table o
  let c := dFmt d
  (writtenTiles t o).flatMap (fun n =>
    let p := (outPlace t (lastProd t.table) o n).2.2
    let q := tileOrdinal d p.1.toNat p.2.toNat
    (matrixValue d 0 + q * planes c * 512, planes c * 512) :: if hasScale c then [(matrixScale d 0 + q * tileScales c, tileScales c)] else [])
/-- Byte ranges that a copy writes at its destination: of a whole operand, of the elements of its walk, or of slices of the rows that its
indices name, with the selvedge of their tiles. -/
def copyRanges (s : State) (x : Slot) : List (Nat × Nat) :=
  let t := x.table
  let d := kDst t
  let at_ (l : List Elem) : List (Nat × Nat) := (l.flatMap (elemBytes d) ++ selvedgeBytes d l).map (fun a => (a, 1))
  let slices (rows : List Nat) : List (Nat × Nat) := at_ (rows.flatMap (fun i => (List.range (kSliceW t)).map (fun j => sliceElem d i (kDstJ t + j))))
  if dEmpty d then []
  else if wholeCopy t then
    tensorRanges d (if dKind d = 1 ∧ kSrcLocal t = false then rowPtr s (.va x.strand) (kSrc t) 0 else 0)
      ++ (if dKind d = 1 ∧ kDstSummary t ≠ 0 then [(kDstSummary t, 4 * (ceilDiv (dH d * dW d) 4096 + 1))] else [])
  else if kOp t = 0 then at_ ((boxAll t).map (walkElem t true))
  else if kOp t = 1 then slices ((List.range (kIndexCount t)).map (kDstI t + ·))
  else slices (List.range (dH d))
/-- A task that stopped after GO, by a fault or a cancellation. -/
def aborted (x : Slot) : Bool := x.ending && x.started && (x.opcode == 1 || x.opcode == 2)
/-- Entries of the boundary summary of n positions. -/
def summaryBytes (d : List Nat) : Nat := 4 * (ceilDiv (dH d * dW d) 4096 + 1)
/-- Virtual ranges that a slot's task could write: the tiles or rows of its output, the elements of its destination, their summary, and the overflow
rows of its groups. The predictor's state record is written by its home slice (07 R186, R187). -/
def abortRanges (s : State) (k : Nat) : List (Nat × Nat) :=
  let x := slotOf s k
  let t := x.table
  if x.opcode = 2 then
    if kDstLocal t then [] else copyRanges s x
  else match outSlot t with
    | none => []
    | some o =>
      (if sSource t o = 1 ∨ (rCompact t = true ∧ hPair t = false) then []
       else if dKind (sLayout t o) = 1 then tensorRanges (sLayout t o) (outRp0 s k) else tileRanges x k o)
      ++ (if laneMode t = 3 && aEmitSummary t then [(aSummaryBase t, summaryBytes (sLayout t o))] else [])
      ++ (if claimsMode t then [(aOvfBase t, 512 * aOvfRows t)] else [])
/-- Regions that a task writes: all that it names but those that hold a resident input. -/
def writtenRegions (x : Slot) : List (Nat × Nat) :=
  let t := x.table
  if x.opcode = 2 then (if kDstLocal t then [(kDstMem t, kDstRegion t)] else [])
  else (computeRegions t).filter (fun p => !(slots t).any (fun k => sSource t k == 1 && !isOut t k && sMem t k == p.1 && sRegion t k == p.2))
/-- Scratchpad rows of core c that a slot's task could write: memory, first row, rows; a queue's region holds its producers' rows. -/
def abortRows (s : State) (c k : Nat) : List (Nat × Nat × Nat) :=
  let x := slotOf s k
  ((writtenRegions x).filter (fun p => (regionQueue s c p.1 p.2).isNone)).map (fun p => (p.1, regionBase s c p.1 p.2, regionLen s c p.1 p.2))
  ++ (if x.opcode == 1 && hProEn x.table then [(bits (hProOp x.table) 3 2, bits (hProOp x.table) 25 6, hProRows x.table)] else [])
/-- The bytes that those ranges translate to. -/
def abortBytes (s : State) (k : Nat) : List Nat :=
  (abortRanges s k).flatMap (fun r => (List.range r.2).filterMap (fun i => match translate s (slotOf s k).strand (r.1 + i) true with
    | .ok a => some a
    | .err _ => none))
/-- The bytes of a stopped task's ranges take free values. -/
def openRanges (s : State) (k : Nat) : State :=
  if aborted (slotOf s k) then each (abortBytes s k) s (fun s a => openBytes s (.dpa a) 0 1) else s
/-- The scratchpad rows of a stopped task on a core that has drained. -/
def openRows (s : State) (k c : Nat) : State :=
  if aborted (slotOf s k) && (slotOf s k).status != stCancelled then each (abortRows s c k) s (fun s r => openBytes s (.dpa (rowDpa c r.1 r.2.1)) 0 (512 * r.2.2)) else s

/-- A slot's completion entry is written and the slot is free (R415). -/
def writeCompletion (s : State) (k : Nat) : State :=
  let x := slotOf s k
  let s := openRanges s k
  let q := sqCq s x.sq
  let (st, die, ck) := slotStatus x
  let tail := cqTail s q
  let w0 := x.cmdId % 65536 + x.sq * 2 ^ 16 + bits (reg s (sqOff x.sq 3)) 15 0 * 2 ^ 28 + b2n (cqPhase s q) * 2 ^ 63
  let w1 := st + die * 2 ^ 16 + ck * 2 ^ 24 + x.info % 2 ^ 32 * 2 ^ 32
  let s := ringWrite s (bits (reg s (cqOff q 1)) 51 0 + 32 * tail) ([w0, w1, x.strand, now s].flatMap (leBytes 8))
  let next := (tail + 1) % cqSize s q
  let s := setField (setField s (cqOff q 2) 31 16 next) (cqOff q 2) 32 32 (b2n (cqPhase s q != (next == 0)))
  let s := { s with hst := { s.hst with cqHeld := tset s.hst.cqHeld q (cqHeld s q + 1), cplCancelled := s.hst.cplCancelled + b2n (st == stCancelled) } }
  let s := bump s (hstOff HST_CPL_COUNT) 1
  let s := updStrand s x.strand (fun y => { y with tasksDone := y.tasksDone + 1, stepLast := x.step })
  let s := if x.ending || x.refusal.isSome then s else disarmSlot s k
  let s := setSlot s k {}
  let s := forgetSlot s k x.seq
  settleRelease (settleRefused (settleMasks (aggregate s q x.intr)))

/-! GO (09 R238, R246, R250). -/

/-- The wait that a task carries: core, marker, target (09 R246, 12 R302). -/
def waitOf (x : Slot) : Option (Nat × Nat × Nat) :=
  if x.opcode = 2 then (if kWaitEn x.table then some (kWaitCore x.table, kWaitMarker x.table, kWaitTarget x.table) else none)
  else if hWaitEn x.table then some (hWaitCore x.table, hWaitMarker x.table, hWaitTarget x.table) else none
/-- Every core has passed: the counter is armed, the wait is asked for, and GO follows when both have answered. -/
def proceed (s : State) (k : Nat) : State :=
  let x := slotOf s k
  if !x.busy || x.ending || x.started || x.refusal.isSome || !allIn x.mask x.passed || x.mask == 0 then s
  else match x.counter, x.armedCounter with
    | some c, false =>
      if (rowCounter s c).slot = k ∧ (rowCounter s c).reserved = true then
        let n := sliceDie (counterSlice c)
        let s := updCounter s c (fun y => { y with reserved := false, armed := true })
        sendChain (sendChain (sendChain s hstDie n (.arm0 c (chunkLog x.table) (cK x.table))) hstDie n (.arm1 c x.strand))
          hstDie n (.arm2 c (cSummaryBase x.table))
      else s
    | _, _ => match waitOf x, x.waiting with
      | some (c, m, t), false =>
        sendChain (setSlot s k { x with waiting := true, since := now s, reported := false }) hstDie (coreDie c) (.wait c k m t)
      | w, _ =>
        if w.isSome && !x.waited then s
        else toCores (setSlot s k { x with started := true }) (coresOf x.mask) (fun c => .go c k 0)

end Sys2Proof.Machine
end

