-- ==== Sys2Proof/Machine/Lanes.lean ====
section
/-! DEFINITION. Claimed work of a core: chunks, segments, lanes, match engines, gather quarters and the hash accumulator (05 R114 to
R136; 06 R146 to R151). -/

namespace Sys2Proof.Machine

/-! The claimed operand. -/

/-- The slot that CLAIM_SLOT names, whichever operand it is (log entry 88). -/
def claimSlot (t : CoreTask) : Nat := cClaimSlot t.table
def claimDesc (t : CoreTask) : List Nat := sLayout t.table (claimSlot t)
def claimPlace (s : State) (c : Nat) (t : CoreTask) : Place := slotPlace s c t (claimSlot t)
/-- RP[i] of the claimed operand. -/
def claimRp (s : State) (c : Nat) (t : CoreTask) (i : Nat) : Nat :=
  if emptyTensor t (claimSlot t) then (if t.counter.isSome then cPosFirst t.table else 0) else rowPtr s (claimPlace s c t) (claimDesc t) i
/-- First and last position: of the counter block, or for the local counter as read from the region at issue (09 R255). -/
def posFirst (t : CoreTask) : Nat := if t.counter.isSome then cPosFirst t.table else t.localEnds.1
def posEnd (t : CoreTask) : Nat := if t.counter.isSome then cPosEnd t.table else t.localEnds.2
/-- Offset of the boundary summary of a resident operand: after its values and scales at their largest, as compaction lays it out (07
R169); the manual names no other place. -/
def localSummary (d : List Nat) : Nat :=
  let n := dH d * dW d
  let f := dFmt d
  dValue d + (if isPlane f then ceilDiv n 4096 * planes f * 512 else up512 (n * fmtBytes f)) + (if hasScale f then up512 (ceilDiv n 32) else 0)
/-- What a core reads of a resident claimed operand at issue: RP[0], RP[H] and the summary (09 R255). -/
def readLocal (s : State) (c : Nat) (t : CoreTask) : CoreTask :=
  if t.copy || !claimsMode t.table || t.counter.isSome then t
  else
    let lo := claimRp s c t 0
    let hi := claimRp s c t (rows t (claimSlot t))
    { t with localEnds := (lo, hi),
             localSums := (List.range (ceilDiv (hi - lo) 4096 + 1)).map (summaryAt s (claimPlace s c t) (localSummary (claimDesc t))) }
/-- The boundary rows of a chunk (05 R134): those of the row-pointer array with RP[i0] and RP[i1 + 1]. -/
def boundaryVas (t : CoreTask) (k : Chunk) : List Nat :=
  let d := claimDesc t
  let w := if dRpWide d then 8 else 4
  [(dAux0 d + w * k.i0) / 512 * 512, (dAux0 d + w * (k.i1 + 1)) / 512 * 512].eraseDups
/-- Rows of a chunk's data: row pointers between the boundary rows, column indices, values, scales. -/
def chunkVas (t : CoreTask) (k : Chunk) : List Nat :=
  let d := claimDesc t
  let f := dFmt d
  let w := if dRpWide d then 8 else 4
  let span (base lo hi : Nat) : List Nat := if hi ≤ lo then [] else (List.range ((base + hi - 1) / 512 - (base + lo) / 512 + 1)).map (fun i => ((base + lo) / 512 + i) * 512)
  let ci := if dCiWide d then 4 else 2
  let rp := (span (dAux0 d) (w * k.i0) (w * (k.i1 + 2))).filter (fun a => !(boundaryVas t k).contains a)
  let val := if isPlane f then
      (List.range ((k.e - 1) / 4096 - k.s / 4096 + 1)).flatMap (fun g => (List.range (planes f)).map (fun p => dValue d + ((k.s / 4096 + g) * planes f + p) * 512))
    else span (dValue d) (k.s * fmtBytes f) (k.e * fmtBytes f)
  rp ++ span (dAux1 d) (ci * k.s) (ci * k.e) ++ val ++ (if hasScale f then span (dScale d) (k.s / 32) ((k.e + 31) / 32) else [])
/-- A chunk is finished: searched, wholly cut, no segment of it left. -/
def chunkDone (k : Chunk) : Bool := k.searched && k.cut == k.e && k.open_ == 0
def updChunk (s : State) (c idx : Nat) (f : Chunk → Chunk) : State :=
  updCore s c (fun x => { x with chunks := x.chunks.map (fun k => if k.idx = idx then f k else k) })
/-- Every claimed chunk is finished, and no more will come. -/
def claimsOver (s : State) (c : Nat) (t : CoreTask) : Bool := t.dry && !t.claimInFlight && (core s c).chunks.all chunkDone

/-- The boundary search of a chunk (R134, R135; 09 R254). -/
def boundarySearch (s : State) (c idx : Nat) : State := match (core s c).task, (core s c).chunks.find? (fun k => k.idx == idx) with
  | some t, some k =>
    let h := rows t (claimSlot t)
    let a := decide (k.s < claimRp s c t k.i0)
    let b := decide (claimRp s c t (k.i1 + 1) < k.e)
    let ends := t.counter.isSome && ((k.idx == 0 && claimRp s c t 0 != cPosFirst t.table) || (k.e == cPosEnd t.table && claimRp s c t h != cPosEnd t.table))
    if a || b || ends then
      let s := setReg s (coreOff c CORE_LANE_LAST_FAULT) (bits k.s 47 0 + (b2n a + 2 * b2n b) * 2 ^ 48)
      faultCore s c stBoundarySummaryInvalid 31 (claimSlot t) 0
    else updChunk s c idx (fun k => { k with searched := true, cut := k.s })
  | _, _ => s

/-! Segments (R124). -/

/-- Positions of a segment. -/
def segSize (g : Segment) : Nat := (g.rows.map (fun r => r.2.2 - r.2.1)).sum
/-- End of row r within a chunk: the last row ends with the chunk. -/
def rowEnd (s : State) (c : Nat) (t : CoreTask) (k : Chunk) (r : Nat) : Nat := if k.i1 ≤ r then k.e else min k.e (claimRp s c t (r + 1))
/-- Rows from r on that make up the next segment from position pos; `n` positions are in it already. -/
def cutRows (s : State) (c : Nat) (t : CoreTask) (k : Chunk) : Nat → Nat → Nat → Nat → List (Nat × Nat × Nat)
  | 0, _, _, _ => []
  | fuel + 1, r, pos, n =>
    if k.e ≤ pos ∨ k.i1 < r then []
    else
      let e := rowEnd s c t k r
      if e ≤ pos then cutRows s c t k fuel (r + 1) pos n
      else if n = 0 ∧ 512 < e - pos then [(r, pos, pos + 512)]
      else if n + (e - pos) ≤ 512 then (r, pos, e) :: cutRows s c t k fuel (r + 1) e (n + (e - pos))
      else []
/-- The next segment of a chunk. -/
def nextSegment (s : State) (c : Nat) (t : CoreTask) (k : Chunk) : Segment :=
  let l := cutRows s c t k (k.i1 + 2 - k.i0) k.i0 k.cut 0
  { chunk := k.idx, lo := k.cut, hi := (l.getLast?.map (·.2.2)).getD k.e, rows := l }

/-! Lanes (R125 to R128). -/

def lane (s : State) (c l : Nat) : Lane := tget {} (core s c).lanes l
def updLane (s : State) (c l : Nat) (f : Lane → Lane) : State := updCore s c (fun x => { x with lanes := tset x.lanes l (f (tget {} x.lanes l)) })
/-- The lane at place i of the ring. -/
def ringLane (i : Nat) : Nat := i % 4 * 8 + i / 4 % 8
/-- The place of a lane in the ring. -/
def ringPlace (l : Nat) : Nat := l % 8 * 4 + l / 8

/-- What the unpacker finds wrong in a row range of a compressed operand (04 R97, R98): status and position. The row pointers come first,
and at one position a column out of range before one out of order (log entry 76). -/
def indexFault (s : State) (pl : Place) (d : List Nat) (w row lo hi : Nat) : Option (Nat × Nat) :=
  if rowPtr s pl d (row + 1) < rowPtr s pl d row then some (stRowPointerInvalid, lo)
  else ((List.range (hi - lo)).map (lo + ·)).findSome? (fun p =>
    let x := colIdx s pl d p
    if w ≤ x then some (stColumnIndexRange, p)
    else if rowPtr s pl d row < p ∧ x ≤ colIdx s pl d (p - 1) then some (stUnsortedIndex, p) else none)
/-- What the unpacker finds wrong as a lane takes a segment of a chunk: in the row pointers of the chunk up to the segment's last row,
rows without a position of it among them (R96), and in the segment's indices. -/
def segmentFault (s : State) (c : Nat) (t : CoreTask) (k : Chunk) (g : Segment) : Option (Nat × Nat) :=
  let last := if g.hi = k.e then k.i1 else (g.rows.getLast?.map (·.1)).getD k.i1
  let pl := claimPlace s c t
  let d := claimDesc t
  ((List.range (last + 1 - k.i0)).map (k.i0 + ·)).findSome? (fun r =>
    if rowPtr s pl d (r + 1) < rowPtr s pl d r then some (stRowPointerInvalid, r)
    else (g.rows.find? (fun x => x.1 == r)).bind (fun x => indexFault s pl d (cols t (claimSlot t)) r x.2.1 x.2.2))
/-- The same in a whole compressed operand of another slot, which a match engine probes (R117). -/
def operandFault (s : State) (c : Nat) (t : CoreTask) (k : Nat) : Option (Nat × Nat) :=
  let pl := slotPlace s c t k
  let d := sLayout t.table k
  if emptyTensor t k || dKind d != 1 then none else
  (List.range (rows t k)).findSome? (fun r => (indexFault s pl d (cols t k) r (rowPtr s pl d r) (rowPtr s pl d (r + 1))).map (fun e =>
    if e.1 = stRowPointerInvalid then (e.1, r) else e))
/-- Rows of a resident claimed operand that a segment of a chunk reads. -/
def segmentRows (s : State) (c : Nat) (t : CoreTask) (g : Segment) : List (Nat × Nat) := match (core s c).chunks.find? (fun k => k.idx == g.chunk) with
  | some k => if sSource t.table (claimSlot t) = 1 then
      slotRows s c t (claimSlot t) (boundaryVas t k ++ chunkVas t { k with s := g.lo, e := g.hi }) else []
  | none => []
/-- Rows of a streamed claimed operand that a segment needs and that have not landed (02 R32). -/
def segmentMissing (s : State) (c : Nat) (t : CoreTask) (g : Segment) : List Nat := match (core s c).chunks.find? (fun k => k.idx == g.chunk) with
  | some k => if sSource t.table (claimSlot t) = 1 then []
    else (chunkVas t { k with s := g.lo, e := g.hi }).filter (fun a => (landedRow t (claimSlot t) a).isNone)
  | none => []
/-- A compressed B that a match engine probes has landed. -/
def probesLanded (t : CoreTask) : Bool := match slotWith t.table 2 with
  | some b => laneMode t.table != 3 || rowsLanded t [b] 0
  | none => true
/-- Scratchpad rows that hold rows lo to hi of a resident compressed operand: row pointers, column indices, values and scales (08 R206, R217). -/
def compressedRows (s : State) (c : Nat) (t : CoreTask) (k lo hi : Nat) : List (Nat × Nat) :=
  let d := sLayout t.table k
  if sSource t.table k ≠ 1 ∨ dKind d ≠ 1 then [] else
  let rp (i : Nat) : Nat := rowPtr s (slotPlace s c t k) d i
  let f := dFmt d
  let span (base a b : Nat) : List Nat := if b ≤ a then [] else (List.range ((base + b - 1) / 512 - (base + a) / 512 + 1)).map (fun i => ((base + a) / 512 + i) * 512)
  let n := if dRpWide d then 8 else 4
  let ci := if dCiWide d then 4 else 2
  let val := if isPlane f then
      (if rp hi ≤ rp lo then [] else (List.range ((rp hi - 1) / 4096 - rp lo / 4096 + 1)).flatMap (fun g =>
        (List.range (planes f)).map (fun p => dValue d + ((rp lo / 4096 + g) * planes f + p) * 512)))
    else span (dValue d) (rp lo * fmtBytes f) (rp hi * fmtBytes f)
  slotRows s c t k (span (dAux0 d) (n * lo) (n * (hi + 1)) ++ span (dAux1 d) (ci * rp lo) (ci * rp hi) ++ val
    ++ (if hasScale f then span (dScale d) (rp lo / 32) ((rp hi + 31) / 32) else []))
/-- A lane takes the segment at the front of its queue; the unpacker reads its indices, and in match mode those of the panel that its
entries meet: of a compressed B that is every row of the slot (log entry 71). -/
def popLane (s : State) (c l : Nat) : State := match (core s c).task, (lane s c l).running, (lane s c l).queue with
  | some t, none, g :: rest =>
    if !(segmentMissing s c t g).isEmpty || !probesLanded t then s else
    let probed := if laneMode t.table = 3 then (slotWith t.table 2).toList.flatMap (fun k => compressedRows s c t k 0 (rows t k)) else []
    let ready := useRows c (segmentRows s c t g ++ probed) s
    if !ready.2 then ready.1 else
    let s := ready.1
    let a := ((core s c).chunks.find? (fun k => k.idx == g.chunk)).bind (fun k => segmentFault s c t k g)
    let b := if laneMode t.table = 3 then (slotWith t.table 2).bind (fun k => (operandFault s c t k).map (fun e => (k, e))) else none
    let s := updLane s c l (fun x => { x with running := some g, queue := rest, loaded := 0, progress := 0, search := 1 })
    let s := updChunk s c g.chunk (fun k => { k with started := true })
    let s := match a with
      | some e => formatFault s c e.1 (claimSlot t) e.2
      | none => s
    let s := match b with
      | some (k, e) => formatFault s c e.1 k e.2
      | none => s
    sendClaim s c
  | _, _, _ => s
/-- A segment is split at its midpoint rounded down to 32 positions, counted from its start (R126; log entry 89). -/
def splitSegment (g : Segment) : Segment × Segment :=
  let m := g.lo + segSize g / 2 / 32 * 32
  ({ g with hi := m, rows := (g.rows.filter (fun r => decide (r.2.1 < m))).map (fun r => (r.1, r.2.1, min r.2.2 m)) },
   { g with lo := m, rows := (g.rows.filter (fun r => decide (m < r.2.2))).map (fun r => (r.1, max r.2.1 m, r.2.2)) })

/-- One thief examines its candidate; lanes whose queue changed in this stitch count as empty (R126, R128). -/
def thief (t : CoreTask) (c l : Nat) (st : State × List Nat) : State × List Nat :=
  let (s, changed) := st
  let x := lane s c l
  if x.running.isSome || !x.queue.isEmpty || decide (31 < x.search) then st
  else
    let v := ringLane ((ringPlace l + x.search) % 32)
    let q := if changed.contains v then [] else (lane s c v).queue
    let n := q.length
    if 2 ≤ n then
      let keep := n - n / 2
      let s := updLane (updLane s c v (fun y => { y with queue := q.take keep })) c l (fun y => { y with queue := q.drop keep, search := 1 })
      (bumpCore s c CORE_LANE_STEAL_COUNT 1, v :: l :: changed)
    else match q with
      | [g] =>
        if laneMode t.table = 2 ∧ splitEn t.table = true ∧ 64 ≤ segSize g then
          let r := splitSegment g
          let s := updLane (updLane s c v (fun y => { y with queue := [r.1] })) c l (fun y => { y with queue := [r.2], search := 1 })
          let s := updChunk s c g.chunk (fun k => { k with open_ := k.open_ + 1 })
          (bumpCore (bumpCore s c CORE_LANE_STEAL_COUNT 1) c CORE_LANE_SPLIT_COUNT 1, v :: l :: changed)
        else (updLane s c l (fun y => { y with search := y.search + 1 }), changed)
      | _ => (updLane s c l (fun y => { y with search := y.search + 1 }), changed)

/-- The thieves of a stitch, the nearest to their candidates first. -/
def thieves (s : State) (c : Nat) (t : CoreTask) : State × List Nat :=
  if !stealEn t.table then (s, [])
  else (List.range 32).foldl (fun st d => ((List.range 32).filter (fun l => (lane s c l).search == d)).foldl (fun st l => thief t c l st) st) (s, [])

/-- The segmenter places the next segment on the next lane whose queue has room and has not changed (R125, R128); one in a stitch at most
(log entry 45). -/
def segmenter (s : State) (c : Nat) (t : CoreTask) (changed : List Nat) : State :=
  match (core s c).chunks.find? (fun k => k.searched && k.cut != k.e) with
  | none => s
  | some k =>
    match ((List.range 32).map (fun i => ((core s c).segLane + i) % 32)).find? (fun i =>
        decide ((lane s c (ringLane i)).queue.length < 4) && !changed.contains (ringLane i)) with
    | none => s
    | some i =>
      let g := nextSegment s c t k
      if g.rows.isEmpty then updChunk s c k.idx (fun k => { k with cut := k.e, started := true })
      else
        let s := updChunk s c k.idx (fun k => { k with cut := g.hi, open_ := k.open_ + 1 })
        let s := updLane s c (ringLane i) (fun x => { x with queue := x.queue ++ [g] })
        updCore s c (fun x => { x with segLane := (i + 1) % 32, newSegment := true, lanes := x.lanes.map (fun p =>
          (p.1, if p.2.search = 32 then { p.2 with search := 1 } else p.2)) })

/-- A lane's segment is finished. -/
def endSegment (s : State) (c l : Nat) : State := match (lane s c l).running with
  | none => s
  | some g =>
    let s := updLane s c l (fun x => { x with running := none, loaded := 0, progress := 0, bankWait := 0, search := 1 })
    bumpCore (updChunk s c g.chunk (fun k => { k with open_ := k.open_ - 1 })) c CORE_LANE_SEG_COUNT 1

/-! The hash accumulator (06 R146 to R151). -/

/-- Set and tag of an output key (R147). -/
def accHash (t : CoreTask) (row col : Nat) : Nat × Nat :=
  let k := ((row - aRowBase t.table) * 2 ^ 25 + (col - aColBase t.table)) % 2 ^ 50
  let x1 := k ^^^ (k >>> 25)
  let x2 := x1 * 0x9E3779B97F4B % 2 ^ 50
  let x3 := x2 ^^^ (x2 >>> 25)
  (x3 % 2 ^ 18, x3 / 2 ^ 18)
/-- The key of a set and tag: every step of R147 inverted. -/
def accKey (t : CoreTask) (set tag : Nat) : Nat × Nat :=
  let x3 := tag * 2 ^ 18 + set
  let x2 := x3 ^^^ (x3 >>> 25)
  let x1 := x2 * 0x1393DEE219263 % 2 ^ 50
  let k := x1 ^^^ (x1 >>> 25)
  (k / 2 ^ 25 + aRowBase t.table, k % 2 ^ 25 + aColBase t.table)

/-- The tree of a set points away from an updated way: node 0 above ways 0-3 and 4-7, nodes 1 and 2 above pairs, 3 to 6 above ways. -/
def plruTouch (b w : Nat) : Nat :=
  let put (b i : Nat) (v : Bool) : Nat := b - (if b.testBit i then 2 ^ i else 0) + (if v then 2 ^ i else 0)
  put (put (put b 0 (decide (w < 4))) (1 + w / 4) (decide (w % 4 < 2))) (3 + w / 2) (decide (w % 2 = 0))
/-- The way that the tree chooses. -/
def plruVictim (b : Nat) : Nat :=
  let a := b2n (b.testBit 0)
  let p := 2 * a + b2n (b.testBit (1 + a))
  2 * p + b2n (b.testBit (3 + p))

/-- A full spill row goes to SPILL_REGION, or to the overflow area once that is full (R151, R152). -/
def spillRow (s : State) (c : Nat) (t : CoreTask) (l : List AccRec) : State :=
  let r := aSpillRegion t.table
  if !regionFull s c 1 r then
    updCore (appendRow s c 1 r (recRow l)) c (fun x => { x with spillRows := x.spillRows + 1 })
  else match ovfAlloc s c (aOvfBase t.table) (aOvfRows t.table) with
    | some (a, s) => ovfStore (updCore s c (fun x => { x with spillOvf := x.spillOvf ++ [a] })) c t.strand a (recRow l)
    | none => ovfFull s c
/-- A record is spilled; 32 make a row. -/
def spillRec (s : State) (c : Nat) (t : CoreTask) (r : AccRec) : State :=
  let s := bumpCore (updCore s c (fun x => { x with spilling := true, spillBuf := x.spillBuf ++ [r] })) c CORE_ACC_SPILL_COUNT 1
  if (core s c).spillBuf.length < 32 then s
  else
    let l := (core s c).spillBuf
    spillRow (updCore s c (fun x => { x with spillBuf := [] })) c t l

/-- An update takes one of the three courses of R149. -/
def accUpdate (s : State) (c : Nat) (t : CoreTask) (row col : Nat) (v : F32) : State :=
  let (set, tag) := accHash t row col
  let x := core s c
  let way (w : Nat) : Option Nat := tfind x.acc (set * 8 + w)
  let put (s : State) (w : Nat) (v : F32) : State :=
    updCore s c (fun x => { x with acc := tset x.acc (set * 8 + w) (tag + v.toNat * 2 ^ 32),
                                   accPlru := tset x.accPlru set (plruTouch (tget 0 x.accPlru set) w) })
  let s := bumpCore s c CORE_ACC_UPDATE_COUNT 1
  match (List.range 8).find? (fun w => (way w).map (· % 2 ^ 32) == some tag) with
  | some w =>
    let old := BitVec.ofNat 32 ((way w).getD 0 / 2 ^ 32)
    let r := addF32 old v
    bumpCore (bumpCore (put s w r) c CORE_ACC_HIT_COUNT 1) c CORE_NUM_INF_COUNT (b2n (overflowed old v r))
  | none => match (List.range 8).find? (fun w => (way w).isNone) with
    | some w => updCore (put s w v) c (fun x => { x with accOcc := x.accOcc + 1 })
    | none =>
      let w := plruVictim (tget 0 x.accPlru set)
      let e := (way w).getD 0
      let k := accKey t set (e % 2 ^ 32)
      put (spillRec s c t { row := k.1, col := k.2, value := BitVec.ofNat 32 (e / 2 ^ 32) }) w v

/-! Match mode (R114 to R118). -/

/-- A probe slot: the pair that it emits (output row and column, positions of A and of B), and whether it answers its probe. -/
structure ProbeSlot where
  pair : Option (Nat × Nat × Nat × Nat)
  last : Bool
  deriving DecidableEq, Repr

/-- The probe slots of a segment, in the order of R117: every probe row in panel order, its indices rising. -/
def probeSlots (s : State) (c : Nat) (t : CoreTask) (g : Segment) : List ProbeSlot := match slotWith t.table 2 with
  | none => []
  | some b =>
    let a := claimPlace s c t
    let pb := slotPlace s c t b
    let db := sLayout t.table b
    let entries := g.rows.flatMap (fun r => (List.range (r.2.2 - r.2.1)).map (fun i => (r.1, r.2.1 + i, colIdx s a (claimDesc t) (r.2.1 + i))))
    (List.range (rows t b)).flatMap (fun j =>
      let lo := rowPtr s pb db j
      ((List.range (rowPtr s pb db (j + 1) - lo)).map (lo + ·)).flatMap (fun p =>
        let hits := entries.filter (fun e => e.2.2 == colIdx s pb db p)
        if hits.isEmpty then [{ pair := none, last := true }]
        else hits.zipIdx.map (fun h => { pair := some (h.1.1, j, h.1.2.1, p), last := h.2 + 1 == hits.length })))

/-- An engine gives 32 slots in turn to its lanes that have a probe ready: (lane, slots left) to the slots taken of each. -/
def takeSlots : Nat → List (Nat × List ProbeSlot) → List (Nat × ProbeSlot)
  | 0, _ => []
  | _, [] => []
  | n + 1, (l, x) :: rest => match x with
    | [] => takeSlots n rest
    | p :: ps => (l, p) :: takeSlots n (rest ++ [(l, ps)])

/-- Engine e loads and probes for a stitch (R115, R116): what its lanes emit. Its 32 loads go to the lowest lanes first, and its probe slots
round the lanes (log entry 45). -/
def engine (s : State) (c : Nat) (t : CoreTask) (e : Nat) : State × List (Nat × Nat × Nat × Nat) :=
  let ls := (List.range 8).map (8 * e + ·)
  let ready := ls.filterMap (fun l => match (lane s c l).running with
    | some g => if (lane s c l).loaded = segSize g then some (l, (probeSlots s c t g).drop (lane s c l).progress) else none
    | none => none)
  let r := ls.foldl (fun (st : State × Nat) l => match (lane st.1 c l).running with
    | none => st
    | some g =>
      let n := min st.2 (segSize g - (lane st.1 c l).loaded)
      (bumpCore (updLane st.1 c l (fun x => { x with loaded := x.loaded + n })) c CORE_MATCH_LOAD_COUNT n, st.2 - n)) (s, 32)
  let s := r.1
  let got := (takeSlots 64 ready).take 32
  let s := each got s (fun s p => updLane s c p.1 (fun x => { x with progress := x.progress + 1 }))
  let s := bumpCore (bumpCore s c CORE_MATCH_SLOT_COUNT got.length) c CORE_MATCH_PROBE_COUNT (got.filter (fun p => p.2.last)).length
  let s := each ready s (fun s p => if (got.filter (fun q => q.1 == p.1)).length = p.2.length then endSegment s c p.1 else s)
  (s, got.filterMap (fun p => p.2.pair))

/-- The pair vector of a stitch enters the accumulator (R118; 06 R148). -/
def pairVector (s : State) (c : Nat) (t : CoreTask) (l : List (Nat × Nat × Nat × Nat)) : State := match slotWith t.table 2 with
  | none => s
  | some b =>
    let val (p : Nat × Nat × Nat × Nat) : FVal × FVal :=
      (posVal s (claimPlace s c t) (claimDesc t) p.2.2.1, posVal s (slotPlace s c t b) (sLayout t.table b) p.2.2.2)
    let grouped := groupedPair (dFmt (claimDesc t)) (dFmt (sLayout t.table b))
    let keys := (l.map (fun p => (p.1, p.2.1))).eraseDups
    let sum (k : Nat × Nat) : F32 × Nat :=
      let ps := (l.filter (fun p => (p.1, p.2.1) == k)).map val
      if grouped then vectorGroup ps else vectorProducts ps
    let banks := keys.map (fun k => (accHash t k.1 k.2).1 % 64)
    let worst := (banks.map (fun x => (banks.filter (· == x)).length)).foldl max 0
    let s := bumpCore (bumpCore s c CORE_MATCH_PAIR_COUNT l.length) c CORE_ACC_BANK_WAIT_COUNT (ceilDiv worst 2 - 1)
    each keys s (fun s k => accUpdate (bumpCore s c CORE_NUM_INF_COUNT (sum k).2) c t k.1 k.2 (sum k).1)

/-! Gather mode (R119 to R121). -/

/-- Quarters of a segment: row, first position, positions. -/
def quarters (g : Segment) : List (Nat × Nat × Nat) :=
  g.rows.flatMap (fun r => (List.range (ceilDiv (r.2.2 - r.2.1) 32)).map (fun i => (r.1, r.2.1 + 32 * i, min 32 (r.2.2 - r.2.1 - 32 * i))))
/-- The dense operand of a gather-mode task. -/
def denseSlot (t : CoreTask) : Nat := if claimSlot t = (inA t.table).getD 0 then (inB t.table).getD 0 else (inA t.table).getD 0
/-- Columns of a slice (R120). -/
def sliceCols (t : CoreTask) : Nat :=
  let r := pairRate8 (dFmt (claimDesc t)) (dFmt (sLayout t.table (denseSlot t)))
  if r = 4 then 64 else if r = 16 then 256 else 128
/-- Levels that a segment is applied over: all but the claim level. -/
def gatherLevels (t : CoreTask) : List Nat := (spmOrder t.table).filter (fun n => lRole t.table n != 1)
/-- Column slices of the dense operand: level indices, first column of the slice in the panel. -/
def slices (t : CoreTask) : List (List (Nat × Nat) × Nat) :=
  (List.range (total t (gatherLevels t))).flatMap (fun i => (List.range (ceilDiv (extOf t (denseSlot t)).2 (sliceCols t))).map (fun j =>
    (indices t (gatherLevels t) i, j * sliceCols t)))

/-- An array multiplies a quarter against a slice of the dense rows that it names, and adds the sums (R120; 06 R145). -/
def takeQuarter (s : State) (c : Nat) (t : CoreTask) (q : Nat × Nat × Nat) (sl : List (Nat × Nat) × Nat) : State :=
  let p := lastProd t.table
  let d := denseSlot t
  let o := panelOrigin t d (panelAt t d sl.1)
  let ext := extOf t d
  let base := outBase t p sl.1
  let pa := claimPlace s c t
  let i : Int := (q.1 : Int) - base.1
  let seen := (core s c).psumSeen
  let grouped := groupedPair (dFmt (claimDesc t)) (dFmt (sLayout t.table d))
  if i < 0 ∨ ((outExtent t.table p).1 : Int) ≤ i then s
  else each ((List.range (sliceCols t)).filter (fun j => decide (sl.2 + j < ext.2 ∧ sl.2 + j < (outExtent t.table p).2))) s (fun s j =>
    let col := o.2 + (sl.2 + j : Nat)
    let l := (List.range q.2.2).filterMap (fun n =>
      let x := colIdx s pa (claimDesc t) (q.2.1 + n)
      if (x : Int) < o.1 ∨ o.1 + ext.1 ≤ (x : Int) then none
      else (operand s c t d x col).map (fun v => (posVal s pa (claimDesc t) (q.2.1 + n), v)))
    let off := sumOffset t p 0 (panelNumber t p sl.1) 0 i.toNat (sl.2 + j)
    if l.isEmpty then s else addSum s c t grouped (!seen.contains (sumRow s c t off)) off l)

/-- The dense rows of a slice can be read and its sums written: every row of the panel has landed, and the scratchpad gives them (R121). -/
def sliceReady (s : State) (c : Nat) (t : CoreTask) (sl : List (Nat × Nat) × Nat) : State × Bool :=
  let d := denseSlot t
  let at_ := panelAt t d sl.1
  let sums := sumRows s c t (lastProd t.table) 0 (panelNumber t (lastProd t.table) sl.1)
  if !panelLanded t d at_ then (s, false)
  else takeRows s c (slotRows s c t d (panelVas t d at_) ++ heldSums s c sums) sums
/-- Banks of the memory rows that the dense rows of a quarter's positions are read from (R121; log entry 72): of every tile of the slice, each
bank once for a dense row. -/
def quarterBanks (s : State) (c : Nat) (t : CoreTask) (q : Nat × Nat × Nat) (sl : List (Nat × Nat) × Nat) : List (Nat × Nat) :=
  let d := denseSlot t
  let f := dFmt (sLayout t.table d)
  let o := panelOrigin t d (panelAt t d sl.1)
  let ext := extOf t d
  let first := o.2 + (sl.2 : Int)
  let n := min (sliceCols t) (ext.2 - sl.2)
  let tiles : List Int := (List.range (ceilDiv n (tileW f))).map (fun (j : Nat) => first / tileW f + (j : Int))
  (List.range q.2.2).flatMap (fun i =>
    let x := colIdx s (claimPlace s c t) (claimDesc t) (q.2.1 + i)
    if (x : Int) < o.1 ∨ o.1 + ext.1 ≤ (x : Int) then []
    else
      let l := (tiles.map (fun j => (((x / tileH f : Nat) : Int), j))).filter (fun p => !tileSkipped t d p.1 p.2)
      ((slotRows s c t d (l.flatMap (tileVas t d))).map (fun r => (r.1, r.2 / memBankRows r.1))).eraseDups)
/-- Reads that wait in a stitch behind another read of their bank, after n such stitches. -/
def bankWaits (l : List (Nat × Nat)) (n : Nat) : Nat := (l.eraseDups.map (fun b => (l.filter (· == b)).length - 1 - n)).sum
/-- The quarter that a lane is filling. -/
def laneQuarter (s : State) (c l : Nat) : Option (Nat × Nat × Nat) :=
  (lane s c l).running.bind (fun g => (quarters g)[(lane s c l).progress % orOne (quarters g).length]?)
/-- Array a takes a quarter that one of its lanes has filled: of several, that of the lowest lane (log entry 73). -/
def gatherArray (s : State) (c : Nat) (t : CoreTask) (a : Nat) : State :=
  let ls := (List.range 8).map (8 * a + ·)
  let n := (slices t).length
  let s := each ls s (fun s l => match laneQuarter s c l with
    | some q => updLane s c l (fun x => { x with loaded := min q.2.2 (x.loaded + 4) })
    | none => s)
  match ls.find? (fun l => match laneQuarter s c l with
      | some q => (lane s c l).loaded == q.2.2
      | none => false) with
  | none => s
  | some l => match (lane s c l).running, laneQuarter s c l with
    | some g, some q =>
      let k := (quarters g).length
      let sl := (slices t)[(lane s c l).progress / orOne k]?
      let ready := match sl with
        | some sl => sliceReady s c t sl
        | none => (s, true)
      let wait := match sl with
        | some sl => bankWaits (quarterBanks s c t q sl) (lane s c l).bankWait
        | none => 0
      if !ready.2 then ready.1
      else if wait ≠ 0 then updLane (bumpCore ready.1 c SPM_BANK_WAIT_COUNT wait) c l (fun x => { x with bankWait := x.bankWait + 1 })
      else
      let s := match sl with
        | some sl =>
          let s := if (lane s c l).progress % orOne k = 0 ∧ sl.2 = 0 then countTiles ready.1 c t (denseSlot t) (panelAt t (denseSlot t) sl.1) else ready.1
          takeQuarter s c t q sl
        | none => s
      let s := bumpCore (bumpCore s c CORE_PACK_SLOT_COUNT 32) c CORE_PACK_FILL_COUNT q.2.2
      let s := updLane s c l (fun x => { x with progress := x.progress + 1, loaded := 0, bankWait := 0 })
      if n * k ≤ (lane s c l).progress then endSegment s c l else s
    | _, _ => s

/-! What the lanes wait for (02 R32). -/

/-- The slice that array a takes a quarter against in the next stitch. -/
def nextSlice (s : State) (c : Nat) (t : CoreTask) (a : Nat) : Option (List (Nat × Nat) × Nat) :=
  let ready (l : Nat) : Bool := match laneQuarter s c l with
    | some q => decide (q.2.2 ≤ (lane s c l).loaded + 4)
    | none => false
  (((List.range 8).map (8 * a + ·)).find? ready).bind (fun l =>
    (lane s c l).running.bind (fun g => (slices t)[(lane s c l).progress / orOne (quarters g).length]?))
/-- A dense slot whose rows the next stitch of the arrays needs and that have not landed. -/
def sliceWait (s : State) (c : Nat) (t : CoreTask) : Option Nat :=
  if laneMode t.table ≠ 2 then none
  else (List.range 4).findSome? (fun a => (nextSlice s c t a).bind (fun sl =>
    if panelLanded t (denseSlot t) (panelAt t (denseSlot t) sl.1) then none else some (denseSlot t)))
/-- The segment that a lane without one would start in the next stitch. -/
def nextSegments (s : State) (c : Nat) : List Segment := (List.range 32).filterMap (fun l =>
  if (lane s c l).running.isSome then none else (lane s c l).queue.head?)
/-- No lane holds a segment, and no chunk is left to cut. -/
def lanesIdle (s : State) (c : Nat) : Bool :=
  (List.range 32).all (fun l => (lane s c l).running.isNone && (lane s c l).queue.isEmpty) && (core s c).chunks.all (fun k => !k.searched || k.cut == k.e)
/-- The rows of the claimed operand that the next stitch waits for: those of a segment, or the boundary rows of a chunk when no lane holds
work. -/
def claimMissing (s : State) (c : Nat) (t : CoreTask) : List Nat :=
  match (nextSegments s c).flatMap (segmentMissing s c t) with
  | [] => if !lanesIdle s c then [] else match (core s c).chunks.find? (fun k => !k.searched) with
    | some k => boundaryVas t k
    | none => []
  | l => l
/-- What the lanes wait for: rows of a slot, or the answer of a claim (05 R121; 02 R44). -/
def laneWait (s : State) (c : Nat) (t : CoreTask) : Option (Nat × Option Nat) :=
  if t.copy || !claimsMode t.table || t.phase != 4 || t.sent then none
  else if !(claimMissing s c t).isEmpty then some (resRow, slotStream t.schedule (claimSlot t))
  else match sliceWait s c t with
    | some k => some (resRow, slotStream t.schedule k)
    | none =>
      if !probesLanded t && !(nextSegments s c).isEmpty then some (resRow, (slotWith t.table 2).bind (slotStream t.schedule))
      else if lanesIdle s c && t.claimInFlight then some (resClaim, none) else none
/-- A row that lands under a tag is one that the next stitch waits for (02 R45). -/
def awaitsRow (s : State) (c : Nat) (g : Tag) : Bool := match (core s c).task with
  | none => false
  | some t =>
    if claimsMode t.table && g.slot == claimSlot t then (claimMissing s c t).contains g.va
    else decide (tget 0 t.landed g.slot < rowsNeeded t g.slot t.spanSteps)

/-! One stitch of the lanes. -/

/-- What the lanes, engines, arrays and the segmenter do in a stitch: owners pop, thieves look, the segmenter places, engines answer. -/
def laneStitch (s : State) (c : Nat) : State := match (core s c).task with
  | none => s
  | some t =>
    if t.copy || !claimsMode t.table || t.phase != 4 || t.sent then s else
    let s := each (List.range 32) s (fun s l => if stillRuns s c t.slot then popLane s c l else s)
    if !stillRuns s c t.slot then s else
    let r := thieves s c t
    let s := segmenter (updCore r.1 c (fun x => { x with newSegment := false })) c t r.2
    if laneMode t.table = 3 then
      let r := (List.range 4).foldl (fun (st : State × List (Nat × Nat × Nat × Nat)) e =>
        let x := engine st.1 c t e
        (x.1, st.2 ++ x.2)) (s, [])
      pairVector r.1 c t r.2
    else each (List.range 4) s (fun s a => gatherArray s c t a)

end Sys2Proof.Machine
end

