-- ==== Sys2Proof/Machine/SpanOps.lean ====
section
/-! DEFINITION. The opening of tasks and spans on a core, and what the HST die does with their reports (09 R238, R244 to R246; 06 R143,
R156; 08 R200, R203). -/

namespace Sys2Proof.Machine

/-! Fill and copy within a memory (08 R203). -/

/-- A fill or copy takes effect: every source row is read before any row is written. -/
def spmApply (s : State) (c : Nat) (copy : Bool) (m dst src n pattern : Nat) : State :=
  let data := if copy then (List.range n).map (fun i => mreadN s.mem (rowDpa c m (src + i)) 512)
    else List.replicate n ((List.range 64).flatMap (fun _ => leBytes 8 pattern))
  each data.zipIdx s (fun s d => loseHomes (writeRow (flushRow s c m (dst + d.2) false) c m (dst + d.2) d.1) c m (dst + d.2))
/-- Source rows of a copy are flushed and checked before they are read (08 R206, R217). Whether they can be read. -/
def opRows (s : State) (c : Nat) (copy : Bool) (m src n : Nat) : State × Bool :=
  if copy then useRows c ((List.range n).map (fun i => (m, src + i))) s else (s, true)
/-- What keeps a fill or copy from its rows: an open landing window of its own core (R209), or a bank without power (R225). -/
def opFault (s : State) (c : Nat) (copy : Bool) (m dst src n : Nat) : Option Nat :=
  if n = 0 then none
  else if (List.range 64).any (fun w => winState s c w == 1 && winMem s c w == m && overlaps dst n (winBase s c w) (winLen s c w))
  then some stWindowViolation
  else if rangeDown s c m dst n || (copy && rangeDown s c m src n) then some stBankPoweredDown else none
/-- The same in the layout of SPM_OP0. -/
def spmApplyOp (s : State) (c op n pattern : Nat) : State :=
  spmApply s c (bits op 1 0 == 1) (bits op 3 2) (bits op 25 6) (bits op 45 26) n pattern

/-! Copies (12 R320): the elements or indices that a core of a copy task takes. -/

/-- The outermost dimension whose count is at least 2. -/
def copySplit (w : List Nat) : Option Nat := [3, 2, 1, 0].find? (fun i => decide (2 ≤ kCount w i))
/-- First iteration of a dimension and how many, for a core. -/
def copyRange (t : CoreTask) (i : Nat) : Nat × Nat :=
  let n := kCount t.table i
  if copySplit t.table = some i then (t.rank * n / orOne t.cores, (t.rank + 1) * n / orOne t.cores - t.rank * n / orOne t.cores)
  else if copySplit t.table = none ∧ i = 0 ∧ t.rank ≠ 0 then (0, 0) else (0, n)
/-- First index and how many, of a gather or scatter. -/
def indexRange (t : CoreTask) : Nat × Nat :=
  let n := kIndexCount t.table
  (t.rank * n / orOne t.cores, (t.rank + 1) * n / orOne t.cores - t.rank * n / orOne t.cores)
/-- Where a side of a copy lies (12 R302). -/
def copyPlace (s : State) (c : Nat) (t : CoreTask) (dst : Bool) : Place :=
  let w := t.table
  if dst then (if kDstLocal w then .dpa (rowDpa c (kDstMem w) (regionBase s c (kDstMem w) (kDstRegion w))) else .va t.strand)
  else (if kSrcLocal w then .dpa (rowDpa c (kSrcMem w) (regionBase s c (kSrcMem w) (kSrcRegion w))) else .va t.strand)
/-- Byte ranges of positions lo to hi of a compressed value array (04 R99), as offset and bytes. -/
def valueRanges (f lo hi : Nat) : List (Nat × Nat) :=
  if hi ≤ lo then []
  else if isPlane f then
    (List.range ((hi - 1) / 4096 + 1 - lo / 4096)).flatMap (fun i =>
      let g := lo / 4096 + i
      let a := max lo (4096 * g) % 4096 / 8
      let b := ceilDiv (min hi (4096 * (g + 1)) - 4096 * g) 8
      (List.range (planes f)).map (fun p => ((g * planes f + p) * 512 + a, b - a)))
  else [(lo * fmtBytes f, (hi - lo) * fmtBytes f)]
/-- Arrays of a whole-operand copy: source, destination, bytes; of a compressed operand the positions from RP[0] to RP[H]; and its
summary. An empty operand has no byte (04 R109). -/
def wholeArrays (s : State) (c : Nat) (t : CoreTask) : List (Nat × Nat × Nat) :=
  let w := t.table
  let a := kSrc w
  let b := kDst w
  let f := dFmt a
  let rp (i : Nat) : Nat := if dEmpty a then 0 else rowPtr s (copyPlace s c t false) a i
  let lo := rp 0
  let n := rp (dH a)
  let from_ (x y n : Nat) : List (Nat × Nat × Nat) := [(x, y, n)]
  (if dEmpty a then []
  else if dKind a = 1 then
    from_ (dAux0 a) (dAux0 b) ((dH a + 1) * (if dRpWide a then 8 else 4))
      ++ (let k := if dCiWide a then 4 else 2
          from_ (dAux1 a + k * lo) (dAux1 b + k * lo) (k * (n - lo)))
      ++ (valueRanges f lo n).flatMap (fun x => from_ (dValue a + x.1) (dValue b + x.1) x.2)
      ++ (if hasScale f then from_ (dScale a + lo / 32) (dScale b + lo / 32) (ceilDiv n 32 - lo / 32) else [])
  else
    (List.range (dOuter a)).flatMap (fun m => (gridOrdinals a).flatMap (fun o =>
      from_ (matrixValue a m + o * planes f * 512) (matrixValue b m + o * planes f * 512) (planes f * 512)
        ++ from_ (matrixMeta a m + o * tileMeta f) (matrixMeta b m + o * tileMeta f) (tileMeta f)
        ++ (if hasScale f then from_ (matrixScale a m + o * tileScales f) (matrixScale b m + o * tileScales f) (tileScales f) else []))))
  ++ (if kSrcSummary w = 0 then [] else from_ (kSrcSummary w) (kDstSummary w) (4 * (ceilDiv (n - lo) 4096 + 1)))
/-- Elements of a layout copy, none where a side holds none (04 R109; log entry 105), rows of a whole-operand copy (its first core moves them), or indices, that a core takes. -/
def copyTotal (s : State) (c : Nat) (t : CoreTask) : Nat :=
  if wholeCopy t.table then
    (if t.rank = 0 ∧ [1, 2, 3].all (fun i => kCount t.table i != 0) = true then
      ((wholeArrays s c t).map (fun x => ceilDiv x.2.2 512)).sum else 0)
  else if kOp t.table = 0 then if dEmpty (kSrc t.table) || dEmpty (kDst t.table) then 0 else (copyRange t 0).2 * (copyRange t 1).2 * (copyRange t 2).2 * (copyRange t 3).2
  else if kSliceW t.table = 0 then 0 else (indexRange t).2
/-- A copy core is finished (R301): it has moved its share, and its rows have passed the cable network (R307). -/
def copyEnd (s : State) (c : Nat) : State := match (core s c).task with
  | some t => if t.copy && t.phase == 4 && decide (copyTotal s c t ≤ t.copyNext) && (core s c).xposeRows == 0 then reportSpan s c else s
  | none => s

/-! Opening (R245). -/

/-- The core's task changes. -/
def updTask (s : State) (c : Nat) (f : CoreTask → CoreTask) : State := updCore s c (fun x => { x with task := x.task.map f })

/-- The windows of WIN_OPEN open; a refused open aborts the task with WINDOW_VIOLATION. -/
def openTaskWindows (s : State) (c : Nat) (t : CoreTask) : State :=
  each ((List.range 64).filter (bit (word t.table 4))) s (fun s w =>
    if !stillRuns s c t.slot then s
    else if openRefused s c w true then faultCore s c stWindowViolation 31 0 0
    else ownWindow (openWindow s c w) c w t.slot)

/-- A span opens: its work begins anew, a group with an empty accumulator and its foreign window (06 R140, R156), and the first claim
goes out (05 R130). -/
def startSpan (s : State) (c span attempt : Nat) : State := match (core s c).task with
  | none => s
  | some t0 =>
    let t := { t0 with phase := 4, span := span, attempt := attempt, spanSteps := 0, outDone := 0, zeroLeft := 0, midDone := 0, tokens := [],
                       bandsReady := 0, bandsUsed := 0, fetched := 0, asked := [], rowSince := (List.range 8).map (fun k => (k, now s)), landed := [], landedAt := [], skipped := [], cmpRows := t0.cmpKept, copyNext := 0, lastRows := [], wrote := [], spanReported := false, sent := false, outbox := none, announces := [], merged := false,
                       dry := !t0.copy && !(zeroLevels t0).isEmpty, claimInFlight := false, counted := false, runs := [], localNext := none }
    let claims := !t.copy && claimsMode t.table
    let group := !t.copy && spanSums t.table
    let s := updCore s c (fun x => { x with
      task := some t, lanes := [], chunks := [], segLane := 0, psumSeen := [], announced := [], owners := [], ownersAsked := [], foreignSeen := 0, bases := [],
      homeCounts := [], spilling := false, spillBuf := [], spillRows := 0, spillOvf := [], ovfUsed := x.ownArea x.ovfUsed, audit := [0, 0, 0], copyIdx := 0,
      lceWindow := [], spanRows := [], acc := if group then [] else x.acc, accPlru := if group then [] else x.accPlru,
      accOcc := if group then 0 else x.accOcc, accPhase := if group then 1 else x.accPhase,
      foreignOpen := claims && t.counter.isSome, foreignCount := 0, foreignOvf := [] })
    let s := if t.copy then s else zeroFill s c
    sendClaim (copyEnd (spanEnd s c) c) c

/-- The prologue of a task (R203, R238): it waits for a weight row of its source that is being reloaded (R218). -/
def runPrologue (s : State) (c span : Nat) : State := match (core s c).task with
  | none => s
  | some t =>
    let op := hProOp t.table
    let n := hProRows t.table
    match opFault s c (bits op 1 0 == 1) (bits op 3 2) (bits op 25 6) (bits op 45 26) n with
    | some e => faultCore s c e 31 0 0
    | none =>
      let ready := opRows (updTask s c (fun t => { t with span := span })) c (bits op 1 0 == 1) (bits op 3 2) (bits op 45 26) n
      if !ready.2 then ready.1 else startSpan (spmApplyOp ready.1 c op n (word t.table 3)) c span 0
/-- The first GO: the wait is counted, marks are taken, windows open, the prologue runs, and the first span opens (R238, R245). -/
def firstGo (s : State) (c : Nat) (t : CoreTask) (span : Nat) : State :=
  let s := bumpCore s c LOOP_ISSUE_WAIT_NS (now s - t.tDispatch)
  let s := markTask s c (taskRegions t)
  let s := each (List.range 16) s (fun s i => setReg s (coreOff c (0x680 + 8 * i)) 0)
  let s := updCore s c (fun x => { x with streamBytes := [], lateCause := [] })
  let s := updTask s c (fun t => { t with phase := 3, tGo := now s })
  let s := if t.copy then s else openTaskWindows s c t
  if !stillRuns s c t.slot then s
  else
    if t.copy || !hProEn t.table then startSpan s c span 0 else runPrologue s c span

/-- The attempt of the next group: a counter inside SPAN_LEVEL is armed again (R253). -/
def nextAttempt (t : CoreTask) : Nat := if t.counter.isSome && claimInside t.table then (t.attempt + 1) % 4 else t.attempt

/-- GO at a core: for the task that awaits it, or whose span has committed. -/
def takeGo (s : State) (c k span : Nat) : State := match (core s c).task with
  | none => s
  | some t =>
    if t.slot ≠ k then s
    else if t.phase = 2 then firstGo s c t span
    else if t.phase = 5 then startSpan (updTask s c (fun t => { t with replays := 0 })) c span (nextAttempt t)
    else s

/-- REPLAY at a core (06 R143, 08 R220): the attempt is abandoned, regions return to the group mark, packets are withdrawn, and the
span opens again. A stall on a due row that the replay cuts off counts no overrun (log entry 85). -/
def takeReplay (s : State) (c k : Nat) : State := match (core s c).task with
  | none => s
  | some t =>
    if t.slot ≠ k ∨ t.phase < 4 then s
    else
      let group := !t.copy && hasGroup t.table
      let s := withdrawOf (rollGroup s c (taskRegions t)) c false
      let s := bumpCore s c (if group then CORE_ACC_REPLAY_COUNT else SPM_STEP_REPLAY_COUNT) 1
      let s := if group then bumpCore s c SPM_STEP_REPLAY_COUNT 1 else s
      let s := updCore s c (fun x => { x with requests := [], stall := none, episodes := [], heldItems := [], sb := [], reloads := [], acc := [], accPlru := [], accOcc := 0,
                                              tags := x.tags.map (fun p => (p.1, { p.2 with abandoned := true })) })
      let s := updTask s c (fun t => { t with replays := t.replays + 1, steps := t.steps - t.spanSteps })
      startSpan s c t.span (if t.counter.isSome then (t.attempt + 1) % 4 else t.attempt)

/-! Reports at the HST die. -/

/-- Every core of a refused task has answered: the cores that passed leave it; the manual names no message for that. -/
def settleRefusal (s : State) (k : Nat) : State :=
  let x := slotOf s k
  if x.refusal.isSome && allIn x.mask x.answered then
    disarmSlot (each (coresOf x.mask) s (fun s c => updCore s c (fun y => match y.task with
      | some t => if t.slot = k then { y with task := none } else y
      | none => y))) k
  else s
/-- Of two refusals the one whose check comes first in the table counts (R238). -/
def firstRefusal (a : Option (Nat × Nat)) (check : Nat) : Bool := match a with
  | none => true
  | some (_, k) => decide (check < k)

/-- DETECTION at the HST die (06 R143, R144; 08 R220): the fourth in one group ends the task; others replay the span on every core. -/
def takeDetection (s : State) (k span : Nat) : State :=
  let x := slotOf s k
  if !x.busy || x.ending || x.written || x.span != span then s
  else if 3 ≤ x.detections && x.opcode == 1 && hasGroup x.table then endTask s k stReplayLimit hstDie none false
  else
    let s := setSlot s k { x with detections := x.detections + 1, spanDone := 0 }
    let s := match x.counter with
      | some c => sendChain s hstDie (sliceDie (counterSlice c)) (.rearm c (((rowCounter s c).attempt + 1) % 4))
      | none => s
    toCores s (coresOf x.mask) (fun c => .replay c k span)

end Sys2Proof.Machine
end

