-- ==== Sys2Proof/Machine/FetchOps.lean ====
section
/-! DEFINITION. The fetch engine: requests, arbitration, tags and corrected events (10 R259 to R275; 13 R340; 05 R134). -/

namespace Sys2Proof.Machine

/-! Translation caches (13 R340). -/

/-- A core's translation cache holds an entry for an address: strand, page base, page size. -/
def xltHit (s : State) (c n v : Nat) : Bool := (core s c).xlt.any (fun e => e.1 == n && decide (e.2.1 ≤ v ∧ v < e.2.1 + e.2.2))
/-- An entry enters a cache of 1,024; the oldest leaves. -/
def xltAdd (s : State) (c n v size : Nat) : State :=
  let e := (n, v / orOne size * size, size)
  updCore s c (fun x => { x with xlt := (e :: x.xlt.filter (· != e)).take 1024 })

/-- The tier of an address in a strand's space: 0 near, 1 far, 2 host, 3 another. -/
def tierOf (s : State) (n v : Nat) : Nat := match translate s n v false with
  | .ok a => if isNear a then 0 else if isFar a then 1 else if isHost a then 2 else 3
  | .err _ => 3

/-! Requests. -/

def addReqs (s : State) (c : Nat) (l : List Req) : State := updCore s c (fun x => { x with requests := x.requests ++ l })
/-- The requests of a claimed chunk of a streamed operand: its boundary rows, due at the claim's answer, and its data rows, due at its earliest start
(R266). -/
def chunkReqs (s : State) (t : CoreTask) (k : Chunk) : List Req :=
  let slot := claimSlot t
  let st := (slotStream t.schedule slot).getD 31
  let m := sMem t.table slot
  let r := sRegion t.table slot
  let b := dueAt t st (now s)
  let start := now s + k.ahead * streamChunk t.schedule st * 1000 / orOne (schedGauge t.schedule)
  let d := dueAt t st start
  (boundaryVas t k).map (fun a => ({ stream := st, slot := slot, va := a, kind := 2, mem := m, region := r, row := k.idx, latest := b.2, due := b.1, since := now s } : Req))
    ++ (chunkVas t k).map (fun a => ({ stream := st, slot := slot, va := a, kind := if t.schedule.isEmpty then 3 else 0, mem := m, region := r, latest := d.2, due := d.1, since := now s } : Req))

/-- The next rows of a streamed input slot as requests: those that the engine has not asked for, in the order of delivery. -/
def slotReqs (s : State) (t : CoreTask) (k : Nat) : List Req :=
  let st := (slotStream t.schedule k).getD 31
  (((streamRows t k).drop (tget 0 t.asked k)).take 64).map (fun r =>
    let d := dueOf t st (t.steps - t.spanSteps + r.2)
    { stream := st, slot := k, va := r.1, kind := if t.schedule.isEmpty then 3 else 0, mem := sMem t.table k, region := sRegion t.table k,
      latest := d.2, due := d.1, since := tget (now s) t.rowSince k })
/-- Input slots whose rows the engine asks for by itself: none of a span without a body (09 R236). -/
def askedSlots (t : CoreTask) : List Nat :=
  if t.copy || t.phase != 4 || !(zeroLevels t).isEmpty then [] else
  (slots t.table).filter (fun k => sSource t.table k == 0 && !isOut t.table k && !(claimsMode t.table && k == claimSlot t))
/-- Each slot competes with its next row: the engine walks a slot's rows in order (R264). -/
def streamReqs (s : State) (t : CoreTask) : List Req := (askedSlots t).filterMap (fun k => (slotReqs s t k).head?)

/-- The class of a request (Table: Tag arbitration). -/
def reqClass (t : CoreTask) (r : Req) : Nat :=
  if r.kind = 1 ∨ r.kind = 2 then 1
  else if r.kind = 0 ∧ ((t.copy ∧ r.due ≠ 0) ∨ (r.stream < 31 ∧ ¬ streamTier t.schedule r.stream = 2)) then 2 else 3
/-- Free rows of a request's region that no tag in flight will take. -/
def readRoom (s : State) (c : Nat) (r : Req) : Nat :=
  regionLen s c r.mem r.region - regionHeld s c r.mem r.region - ((core s c).tags.filter (fun p => !p.2.write && !p.2.abandoned
    && p.2.kind != 1 && p.2.kind != 2 && p.2.mem == r.mem && p.2.region == r.region)).length
/-- Requests that need no free row of a region. -/
def roomless (t : CoreTask) (r : Req) : Bool := r.write || r.kind == 1 || r.kind == 2 || t.copy
/-- A request is ready: a read has a free row in its region, its page is translated, and the replay store has room (R270). -/
def reqReady (s : State) (c : Nat) (t : CoreTask) (r : Req) : Bool :=
  xltHit s c t.strand r.va && bulkRoom s (coreDie c)
    && (roomless t r || decide (0 < readRoom s c r))
/-- A comes before b in a class. -/
def reqBefore (cls : Nat) (a b : Req) : Bool :=
  if cls = 2 then decide (a.latest < b.latest) || (a.latest == b.latest && decide (a.stream < b.stream)) else decide (a.since < b.since)
def bestReq (cls : Nat) (l : List Req) : Option Req := l.foldl (fun o r => match o with
  | none => some r
  | some b => if reqBefore cls r b then some r else some b) none
/-- A class-3 request has waited longer than 0x4070:06, and none was served ahead of class 2 within that time (R269). -/
def promoted (s : State) (c : Nat) (r : Req) : Bool :=
  let wait := objNat s 0x407006 * 1000
  decide (wait < now s - r.since) && (match (core s c).promotedAt with
    | some t => decide (wait ≤ now s - t)
    | none => true)
/-- The request that takes the next tag (R269). -/
def pickReq (s : State) (c : Nat) (t : CoreTask) : Option Req :=
  let l := ((core s c).requests ++ streamReqs s t).filter (reqReady s c t)
  let of (k : Nat) : List Req := l.filter (fun r => reqClass t r == k)
  ((((bestReq 1 (of 1)).or (bestReq 3 ((of 3).filter (promoted s c)))).or (bestReq 2 (of 2)))).or (bestReq 3 (of 3))
/-- The transfer that begins with a request (R261): the rows behind it at consecutive addresses of one page, at most 64. -/
def transferOf (s : State) (t : CoreTask) (l : List Req) (r : Req) : Nat → List Req
  | 0 => []
  | n + 1 => match l.find? (fun x => x.write == r.write && x.kind == r.kind && x.stream == r.stream && x.slot == r.slot && x.acc == r.acc
      && x.va == r.va + 512 && samePage s t.strand r.va x.va) with
    | some x => x :: transferOf s t l x n
    | none => []
/-- The same of a slot's next rows, which keep their order. -/
def transferRun (s : State) (t : CoreTask) (r : Req) : List Req → List Req
  | [] => []
  | x :: l => if x.va == r.va + 512 && samePage s t.strand r.va x.va then x :: transferRun s t x l else []

/-- Free tags of a core, ascending. -/
def freeTags (s : State) (c : Nat) : List Nat := (List.range 256).filter (fun i => !thas (core s c).tags i)

/-- One row takes a tag: the packet leaves for the die that serves its address. An address that does not translate, or not for a write, ends
the task (R276). A class-3 request carries no due time (R271). -/
def issueRow (s : State) (c : Nat) (t : CoreTask) (tag : Nat) (r : Req) : State := match translate s t.strand r.va r.write with
  | .err e => faultCore s c e r.stream r.slot r.va
  | .ok a =>
    let dst := if isSpm a then coreDie (spmCore a) else if isMirror a then mirrorDie a else if isHost a then hstDie else sliceDie (homeSlice a)
    let g : Tag := { task := t.slot, write := r.write, acc := r.acc, stream := r.stream, slot := r.slot, va := r.va, dpa := a, kind := r.kind,
                     mem := r.mem, region := r.region, row := r.row, due := r.due, since := now s }
    let late := reqClass t r == 2 && decide (r.latest < (now s : Int))
    let data := if r.write then mreadN s.mem (rowDpa c r.mem r.row) 512 else []
    let s := updCore s c (fun x => { x with tags := tset x.tags tag g, requests := (x.requests.erase r) })
    let s := bumpCore (bumpCore s c FET_TAG_ISSUE_COUNT 1) c FET_LATE_ISSUE_COUNT (b2n late)
    let s := if reqClass t r = 2 then updCore s c (fun x => { x with lastWinner := r.stream }) else s
    sendBulk s (coreDie c) dst (if r.write then (if r.acc then .accWrite else .write) else .readRequest) tag a (if reqClass t r = 3 then 0 else r.due) data

/-- The winner's transfer takes tags (R261, R269): as many rows as there are tags; fewer than 8 rows hold the port. -/
def issueTransfer (s : State) (c : Nat) (t : CoreTask) (r : Req) : State :=
  let own := !(core s c).requests.contains r
  let behind := if own then transferRun s t r ((slotReqs s t r.slot).drop 1) else transferOf s t (core s c).requests r 63
  let l := (r :: behind).filter (reqReady s c t)
  let l := if roomless t r then l else l.take (readRoom s c r)
  let small := decide (l.length < 8)
  let s := each (l.zip (freeTags s c)) s (fun s p =>
    if !stillRuns s c t.slot then s else
    let s := issueRow s c t p.2 p.1
    let s := if own then updTask s c (fun t => { t with asked := tmod 0 t.asked p.1.slot (· + 1), rowSince := tset t.rowSince p.1.slot (now s) }) else s
    if p.1.write && !t.copy && stillRuns s c t.slot then advanceHead s c p.1.mem p.1.region 1 else s)
  holdPort s c (b2n small)

/-- A core's fetch engine gives the next tag; a class-3 request goes ahead of class 2 for one transfer (R269). -/
def tagStep (s : State) (c : Nat) (only3 : Bool) : State := match (core s c).task with
  | none => s
  | some t =>
    if portHeld s c || (freeTags s c).isEmpty then s
    else match pickReq s c t with
      | none => s
      | some r =>
        let ahead := reqClass t r == 3 && promoted s c r
        if only3 && !ahead then s
        else issueTransfer (if ahead then updCore s c (fun x => { x with promotedAt := some (now s) }) else s) c t r

/-! What a row brings (R273, R275). -/

/-- A stream has moved a row: its bytes, and its allowance count in FET_STREAM_EVT. -/
def streamMoved (s : State) (c i bytes : Nat) : State :=
  if 16 ≤ i then s else
  let b := tget 0 (core s c).streamBytes i + bytes
  setField (updCore s c (fun x => { x with streamBytes := tset x.streamBytes i b })) (coreOff c (0x680 + 8 * i)) 63 32 (ceilDiv b 4096)
/-- Corrected events of a row's stream. The event that first takes a stream beyond its allowance counts as met beyond it (log entry 95). -/
def corrected (s : State) (c i n : Nat) : State :=
  if n = 0 then s else
  let s := bumpCore s c FET_CORR_EVENT_COUNT n
  if 16 ≤ i then s else
  let off := coreOff c (0x680 + 8 * i)
  let had := bits (reg s off) 31 0
  let allow := bits (reg s off) 63 32
  let s := bumpCore s c FET_OVER_ALLOW_COUNT ((List.range n).filter (fun k => decide (allow < had + k + 1))).length
  setField s off 31 0 (had + n)

/-- Why a row is late, kept by its tag: the lowest code of Table: Overrun cause codes that applies (02 R45). -/
def noteCause (s : State) (c tag k : Nat) : State :=
  updCore s c (fun x => { x with lateCause := tset x.lateCause tag (match tfind x.lateCause tag with
    | some o => min o k
    | none => k) })

end Sys2Proof.Machine
end

