-- ==== Sys2Proof/Machine/MergeOps.lean ====
section
/-! DEFINITION. Send and merge passes (06 R153 to R161). -/

namespace Sys2Proof.Machine

/-! Chunks and rows of a core. -/

/-- The foreign row of a chunk (05 R136). -/
def foreignOf (s : State) (c : Nat) (t : CoreTask) (k : Chunk) : Option Nat :=
  if t.counter.isSome && decide (claimRp s c t k.i0 < k.s) then some k.i0 else none
/-- Foreign chunks of a core with their rows, ascending. -/
def foreignChunks (s : State) (c : Nat) (t : CoreTask) : List (Nat × Nat) :=
  (core s c).chunks.filterMap (fun k => (foreignOf s c t k).map (fun r => (k.idx, r)))
/-- The chunk that holds the first position of a row. -/
def homeChunk (s : State) (c : Nat) (t : CoreTask) (row : Nat) : Nat := (claimRp s c t row - posFirst t) / orOne (chunkSize t.table)
/-- The owner of a chunk as the core knows it: itself, or the answer of the slice (06 R153). -/
def ownerOf (s : State) (c chunk : Nat) : Option Nat :=
  if (core s c).chunks.any (fun k => k.idx == chunk) then some c else tfind (core s c).owners chunk
/-- Announcements that a home core expects (06 R155): the chunks after each of its own whose last row runs on. A row that begins at the
end of a chunk is homed on the next chunk, so none is expected for it (R136; log entry 33). -/
def expected (s : State) (c : Nat) (t : CoreTask) : List Nat :=
  if t.counter.isNone then [] else
  (core s c).chunks.flatMap (fun k =>
    let rp (i : Nat) : Nat := claimRp s c t i
    if k.s ≤ rp k.i1 ∧ rp k.i1 < k.e ∧ k.e < rp (k.i1 + 1) then
      (List.range (ceilDiv (rp (k.i1 + 1) - k.e) (orOne (chunkSize t.table)))).map (fun i => k.idx + 1 + i)
    else [])

/-! Records. -/

/-- Entries of the accumulator, by set and way. -/
def accRecs (s : State) (c : Nat) (t : CoreTask) : List AccRec := (core s c).acc.map (fun p =>
  let k := accKey t (p.1 / 8) (p.2 % 2 ^ 32)
  { row := k.1, col := k.2, value := BitVec.ofNat 32 (p.2 / 2 ^ 32) })
/-- Addresses of the rows that a region holds, oldest first. -/
def heldRows (s : State) (c m r : Nat) : List Nat :=
  let l := orOne (regionLen s c m r)
  (List.range (regionHeld s c m r)).map (fun i => rowDpa c m (regionBase s c m r + (bits (regionPtr s c m r) 19 0 + i) % l))
/-- The records of rows at virtual addresses of a strand. -/
def vaRecs (s : State) (n : Nat) (l : List Nat) : List AccRec := l.flatMap (fun a => match translate s n a false with
  | .ok x => rowRecs (mreadN s.mem x 512)
  | .err _ => [])
/-- Spill records in the order of writing (06 R151): the group's rows at the end of the region, then the overflow area. -/
def spillRecs (s : State) (c : Nat) (t : CoreTask) : List AccRec :=
  let l := heldRows s c 1 (aSpillRegion t.table)
  (l.drop (l.length - (core s c).spillRows)).flatMap (fun a => rowRecs (mreadN s.mem a 512)) ++ vaRecs s t.strand (core s c).spillOvf
/-- Foreign records in the order of arrival. -/
def foreignRecs (s : State) (c : Nat) (t : CoreTask) : List AccRec :=
  let n := (core s c).foreignCount - (core s c).foreignOvf.length
  let l := heldRows s c 1 (aForeignRegion t.table)
  (l.drop (l.length - n)).flatMap (fun a => rowRecs (mreadN s.mem a 512)) ++ vaRecs s t.strand (core s c).foreignOvf
/-- Rows of the spill region and of the foreign window that hold records of the group. -/
def recordRows (s : State) (c : Nat) (t : CoreTask) (foreign : Bool) : List (Nat × Nat) :=
  let row (a : Nat) : Nat × Nat := (1, (a - rowDpa c 1 0) / 512)
  let spill := heldRows s c 1 (aSpillRegion t.table)
  let got := heldRows s c 1 (aForeignRegion t.table)
  (if laneMode t.table = 3 then (spill.drop (spill.length - (core s c).spillRows)).map row else [])
    ++ (if foreign then (got.drop (got.length - ((core s c).foreignCount - (core s c).foreignOvf.length))).map row else [])
/-- The core reads the records that a pass takes up: its spill rows for the send pass, and the foreign rows too for the merge; those of
the overflow area through the home slices. A row that fails its check replays the group (R143). Whether the pass can go on. -/
def readRecords (s : State) (c : Nat) (t : CoreTask) (foreign : Bool) : State × Bool :=
  let r := useRows c (recordRows s c t foreign) s
  if !r.2 then r
  else
    let s := getRows r.1 c t ((if laneMode t.table = 3 then (core s c).spillOvf else []) ++ (if foreign then (core s c).foreignOvf else []))
    (s, stillRuns s c t.slot)
/-- A partial last row of spill records is written (06 R150). -/
def flushSpill (s : State) (c : Nat) (t : CoreTask) : State :=
  let l := (core s c).spillBuf
  if l.isEmpty then s else spillRow (updCore s c (fun x => { x with spillBuf := [] })) c t l

/-! The send pass (06 R154). -/

/-- Runs of n. -/
def runsOf {α : Type} (n : Nat) (l : List α) : List (List α) := (List.range (ceilDiv l.length n)).map (fun i => (l.drop (n * i)).take n)
/-- Rows that carry a foreign row in match mode: its entries and spill records, 32 to a row. -/
def matchRows (s : State) (c : Nat) (t : CoreTask) (row : Nat) : List (List Byte) :=
  (runsOf 32 ((accRecs s c t ++ spillRecs s c t).filter (fun r => r.row == row))).map recRow
/-- Sums of output row `row` in partial-sum memory: one list for each memory row that holds some. -/
def rowSums (s : State) (c : Nat) (t : CoreTask) (row : Nat) : List (List AccRec) :=
  let p := lastProd t.table
  let width := match p.out with
    | some k => cols t k
    | none => 0
  (List.range (panelCount t p)).flatMap (fun q =>
    let b := outBase t p (panelIndices t p 0 q)
    let i := (row : Int) - b.1
    if i < 0 ∨ ((outExtent t.table p).1 : Int) ≤ i then []
    else (List.range (ceilDiv (outExtent t.table p).2 8)).filterMap (fun g =>
      if !(core s c).psumSeen.contains (sumRow s c t (sumOffset t p 0 q 0 i.toNat (8 * g))) then none
      else
        let l := (List.range (min 8 ((outExtent t.table p).2 - 8 * g))).filterMap (fun (j : Nat) =>
          let col := b.2 + ((8 * g + j : Nat) : Int)
          if col < 0 ∨ (width : Int) ≤ col then none
          else some ({ row := row, col := col.toNat, value := readSum s c t (sumOffset t p 0 q 0 i.toNat (8 * g + j)) } : AccRec))
        if l.isEmpty then none else some l))
/-- Rows that carry a foreign row. -/
def sendRows (s : State) (c : Nat) (t : CoreTask) (row : Nat) : List (List Byte) :=
  if laneMode t.table = 3 then matchRows s c t row else (rowSums s c t row).map recRow
/-- The core asks for owners that it does not know. -/
def askOwners (s : State) (c : Nat) (t : CoreTask) : State := match t.counter with
  | none => s
  | some k => each ((foreignChunks s c t).map (fun f => homeChunk s c t f.2)).eraseDups s (fun s h =>
      if (ownerOf s c h).isSome || (core s c).ownersAsked.contains h then s
      else sendChain (updCore s c (fun x => { x with ownersAsked := h :: x.ownersAsked })) (coreDie c) (sliceDie (counterSlice k)) (.owner k h))
/-- What the send pass sends: for each foreign chunk its announcement's home core, and the rows that the lowest chunk of a row carries. -/
def sendPlan (s : State) (c : Nat) (t : CoreTask) : List (Nat × Nat × List (List Byte)) :=
  let l := foreignChunks s c t
  l.map (fun f => (f.1, (ownerOf s c (homeChunk s c t f.2)).getD c,
    if l.all (fun g => g.2 != f.2 || decide (f.1 ≤ g.1)) then sendRows s c t f.2 else []))
/-- The send pass begins: the rows of each foreign row for its home core, and one announcement for each foreign chunk. -/
def fillOutbox (s : State) (c : Nat) (t : CoreTask) : State :=
  let l := sendPlan s c t
  updTask s c (fun t => { t with outbox := some (l.flatMap (fun p => p.2.2.map (fun d => (p.2.1, d)))), announces := l.map (fun p => (p.2.1, p.1, p.2.2.length)) })
/-- A foreign row takes a tag and leaves for its home core (R154; 01 R535). -/
def sendRow (s : State) (c slot tag : Nat) (p : Nat × List Byte) : State :=
  let s := updCore s c (fun x => { x with tags := tset x.tags tag { task := slot, write := true, kind := 3, since := now s } })
  sendBulk (bumpCore (bumpCore s c CORE_ACC_FOREIGN_SENT 1) c FET_TAG_ISSUE_COUNT 1) (coreDie c) (coreDie p.1) .write tag 0 0 p.2
/-- As many rows leave as there are free tags; the announcements follow the last one. The core then waits for the rows that are announced to
it, in an unscheduled stall until its merge pass starts (01 R28, R535). -/
def sendForeign (s : State) (c : Nat) (t : CoreTask) : State :=
  let l := t.outbox.getD []
  let tags := (List.range 256).filter (fun i => !thas (core s c).tags i)
  let rest := l.drop tags.length
  let s := updTask (each (tags.zip l) s (fun s p => sendRow s c t.slot p.1 p.2)) c (fun t => { t with outbox := some rest })
  if !rest.isEmpty then s
  else updCore (updTask (each t.announces s (fun s p => sendChain s (coreDie c) (coreDie p.1) (.announce p.1 p.2.1 p.2.2))) c (fun t => { t with sent := true })) c
    (fun x => { x with accPhase := 3, stall := if t.counter.isSome then some (passStall s resForeign) else x.stall })

/-- The entries of a match-mode core's foreign rows leave its accumulator with the send pass (R154; log entry 34). -/
def takenOut (t : CoreTask) (gone : List Nat) (x : Core) : Core :=
  if laneMode t.table = 3 then
    let l := x.acc.filter (fun p => !gone.contains (accKey t (p.1 / 8) (p.2 % 2 ^ 32)).1)
    { x with acc := l, accOcc := x.accOcc - (x.acc.length - l.length) }
  else x

/-! The merge pass (06 R157 to R160; in gather mode R156). -/

/-- Key of an output element. -/
def recKey (r : AccRec) : Nat := r.row * 2 ^ 32 + r.col
/-- Records of equal key summed in input order (R159): the sums by (row, column), and overflows. -/
def mergeSums (l : List AccRec) : Tab Nat × Nat := l.foldl (fun st r => match tfind st.1 (recKey r) with
  | none => (tset st.1 (recKey r) r.value.toNat, st.2)
  | some v =>
    let a := BitVec.ofNat 32 v
    let x := addF32 a r.value
    (tset st.1 (recKey r) x.toNat, st.2 + b2n (overflowed a r.value x))) ([], 0)
/-- The inputs of a merge: drained entries, spill records, foreign records, without the rows that were sent. -/
def passInputs (s : State) (c : Nat) (t : CoreTask) : List AccRec × List AccRec :=
  let gone := (foreignChunks s c t).map (·.2)
  ((accRecs s c t).filter (fun r => !gone.contains r.row), (spillRecs s c t).filter (fun r => !gone.contains r.row) ++ foreignRecs s c t)
/-- Blocks of up to 32,768 records (R157). -/
def mergeBlocks (n : Nat) : Nat := ceilDiv n 32768
/-- Levels of merging b blocks, 128 inputs at a time (R158). -/
def mergeLevels : Nat → Nat → Nat
  | 0, _ => 1
  | n + 1, b => if b ≤ 128 then 1 else 1 + mergeLevels n (ceilDiv b 128)

/-! Sorted blocks and runs (06 R150, R152, R157, R158). -/

/-- A record takes its place before those of no lower key. -/
def putSorted {α : Type} (key : α → Nat) (r : α) : List α → List α
  | [] => [r]
  | x :: l => if key r ≤ key x then r :: x :: l else x :: putSorted key r l
/-- Records by a key; those of one key stay in order. -/
def sortByKey {α : Type} (key : α → Nat) (l : List α) : List α := l.foldr (putSorted key) []
/-- Records by (row, column). -/
def sortRecs (l : List AccRec) : List AccRec := sortByKey recKey l
/-- The records of rows of blocks and runs. -/
def runRecs (s : State) (c : Nat) (t : CoreTask) (l : List SortRow) : List AccRec := l.flatMap (fun r => match r with
  | .psum row => rowRecs (mreadN s.mem (rowDpa c 2 row) 512)
  | .overflow va => vaRecs s t.strand [va])
def inPsum (l : List SortRow) : List (Nat × Nat) := l.filterMap (fun r => match r with
  | .psum row => some (2, row)
  | .overflow _ => none)
def inOverflow (l : List SortRow) : List Nat := l.filterMap (fun r => match r with
  | .psum _ => none
  | .overflow va => some va)
/-- Rows of blocks and runs are read; whether none of them fails. -/
def readRuns (s : State) (c : Nat) (t : CoreTask) (l : List SortRow) : State × Bool :=
  let r := useRows c (inPsum l) s
  if !r.2 then r
  else
    let s := if (inOverflow l).isEmpty then r.1 else getRows r.1 c t (inOverflow l)
    (s, stillRuns s c t.slot)
/-- A row of records goes to the overflow area, where it lies then; a full area aborts the task. -/
def storeOver (s : State) (c : Nat) (t : CoreTask) (l : List AccRec) : State × List SortRow :=
  if !stillRuns s c t.slot then (s, [])
  else match ovfAlloc s c (aOvfBase t.table) (aOvfRows t.table) with
    | some (a, s) => (ovfStore s c t.strand a (recRow l), [.overflow a])
    | none => (ovfFull s c, [])
/-- A sorted block is written to a block slot of partial-sum memory, of 1,024 rows, or a block or run to the overflow area. -/
def storeRun (s : State) (c : Nat) (t : CoreTask) (slot : Option Nat) (l : List AccRec) : State × List SortRow :=
  match slot with
  | none => (runsOf 32 l).foldl (fun x l =>
      let r := storeOver x.1 c t l
      (r.1, x.2 ++ r.2)) (s, [])
  | some k =>
    let rows := (runsOf 32 l).zipIdx.map (fun x => (1024 * k + x.2, x.1))
    let r := takeRows s c [] (rows.map (fun x => (2, x.1)))
    if !r.2 then (r.1, [])
    else (each rows r.1 (fun s x => noteRow (writeRow s c 2 x.1 (recRow x.2)) c 2 x.1), rows.map (fun x => .psum x.1))
/-- Blocks in the order produced take the 64 slots, and then the overflow area; the overflow rows that a block's records came from are free
once it is read (R152). -/
def storeAll (s : State) (c : Nat) (t : CoreTask) (l : List (List AccRec × List Nat)) : State × List (List SortRow) :=
  l.zipIdx.foldl (fun x b =>
    let r := storeRun (ovfFree x.1 c (aOvfBase t.table) b.1.2) c t (if b.2 < 64 then some b.2 else none) b.1.1
    (r.1, x.2 ++ [r.2])) (s, [])
/-- The overflow rows of tagged records that no later record comes from. -/
def lastOf (now_ later : List (AccRec × Option Nat)) : List Nat :=
  (now_.filterMap (·.2)).eraseDups.filter (fun a => !later.any (fun x => x.2 == some a))
/-- Records with the overflow row that each lies in. -/
def taggedRecs (s : State) (c : Nat) (t : CoreTask) (l : List SortRow) : List (AccRec × Option Nat) :=
  l.flatMap (fun r => (runRecs s c t [r]).map (fun x => (x, (inOverflow [r]).head?)))
/-- Inputs are merged into one run of the overflow area, row by row; an overflow row of an input is free once its last record has gone into
a row of the run (R152). -/
def mergeGroup (s : State) (c : Nat) (t : CoreTask) (l : List SortRow) : State × List SortRow :=
  let out := sortByKey (fun (x : AccRec × Option Nat) => recKey x.1) (taggedRecs s c t l)
  (runsOf 32 out).zipIdx.foldl (fun x b =>
    let r := storeOver (ovfFree x.1 c (aOvfBase t.table) (lastOf b.1 (out.drop (32 * (b.2 + 1))))) c t (b.1.map (·.1))
    (r.1, x.2 ++ r.2)) (s, [])
/-- While there are more than 128 inputs, groups of 128 are merged into runs. -/
def mergeRuns : Nat → State → Nat → CoreTask → List (List SortRow) → State × Option (List (List SortRow))
  | 0, s, _, _, l => (s, some l)
  | n + 1, s, c, t, l =>
    if l.length ≤ 128 then (s, some l)
    else
      let r := readRuns s c t l.flatten
      if !r.2 then (r.1, none)
      else
        let w := (runsOf 128 l).foldl (fun (x : State × List (List SortRow)) g =>
          let r := mergeGroup x.1 c t g.flatten
          (r.1, x.2 ++ [r.2])) (r.1, [])
        if !stillRuns w.1 c t.slot then (w.1, none)
        else mergeRuns n w.1 c t w.2
/-- Blocks of the spill and foreign records that a pass takes up, each with the overflow rows that are free once it is read. -/
def recordBlocks (s : State) (c : Nat) (t : CoreTask) : List (List AccRec × List Nat) :=
  let gone := (foreignChunks s c t).map (·.2)
  let keep (l : List (AccRec × Option Nat)) : List (AccRec × Option Nat) := l.filter (fun x => !gone.contains x.1.row)
  let spillOvf := (core s c).spillOvf
  let plain (l : List AccRec) : List (AccRec × Option Nat) := l.map (fun x => (x, none))
  let spilled := spillRecs s c t
  let got := foreignRecs s c t
  let tail (l : List AccRec) (rows : List Nat) : List (AccRec × Option Nat) :=
    plain (l.take (l.length - (vaRecs s t.strand rows).length)) ++ taggedRecs s c t (rows.map SortRow.overflow)
  let all := keep (tail spilled spillOvf) ++ tail got (core s c).foreignOvf
  let empty := (spillOvf ++ (core s c).foreignOvf).filter (fun a => !all.any (fun x => x.2 == some a))
  (runsOf 32768 all).zipIdx.map (fun b =>
    (sortRecs (b.1.map (·.1)), (if b.2 = 0 then empty else []) ++ lastOf b.1 (all.drop (32768 * (b.2 + 1)))))
/-- Stages 1 and 2 of a match-mode pass, and the reading of the count pass: entries and records are sorted into blocks, and blocks are merged
to at most 128 inputs. None where the pass ends. -/
def sortPass (s : State) (c : Nat) (t : CoreTask) : State × Option (List (List SortRow)) :=
  let i := passInputs s c t
  let w := storeAll s c t ((runsOf 32768 i.1).map (fun b => (sortRecs b, [])) ++ recordBlocks s c t)
  if !stillRuns w.1 c t.slot then (w.1, none)
  else
    let m := mergeRuns 16 w.1 c t w.2
    match m.2 with
    | none => m
    | some l =>
      let r := readRuns m.1 c t l.flatten
      (r.1, if r.2 then some l else none)

/-- A sum converts to ±0 (R157 stage 3): of an MX format each sum is tested as a block of its own (log entry 90). -/
def sumDropped (s : State) (t : CoreTask) (width : Nat) (e : Nat × Nat) : Bool :=
  let conv := hConv t.table
  let n := e.1 / 2 ^ 32 * width + e.1 % 2 ^ 32
  let r := convertBlock conv [if convRound conv then drawOf s t (convStream conv) n / 65536 else 0] [BitVec.ofNat 32 e.2]
  r.1 != 255 && r.2.all (fun x => isZeroPattern (convFmt conv) x.bits)
/-- The non-zeros of the output that the core emits: row, column, value, ascending. -/
def outNonZeros (s : State) (c : Nat) (t : CoreTask) : List (Nat × Nat × F32) :=
  let width := match outSlot t.table with
    | some k => cols t k
    | none => 0
  ((mergeSums (runRecs s c t t.runs.flatten)).1.filter (fun e => !(aDropZeros t.table && sumDropped s t width e))).map (fun e =>
    (e.1 / 2 ^ 32, e.1 % 2 ^ 32, BitVec.ofNat 32 e.2))
/-- Non-zeros of the rows that are homed in a chunk. -/
def chunkNonZeros (s : State) (c : Nat) (t : CoreTask) (k : Chunk) (l : List (Nat × Nat × F32)) : List (Nat × Nat × F32) :=
  l.filter (fun e => let p := claimRp s c t e.1
                     decide (k.s ≤ p ∧ p < k.e))
/-- Chunks of a core, ascending. -/
def ownChunks (s : State) (c : Nat) : List Chunk :=
  ((core s c).chunks.foldl (fun (m : Tab Chunk) k => tset m k.idx k) []).map (·.2)

/-! The emit pass (R161). -/

/-- A pattern at a position of a compressed operand. -/
def writePos (s : State) (pl : Place) (d : List Nat) (p w : Nat) : State :=
  let f := dFmt d
  if isPlane f then
    each (List.range (planes f)) s (fun s k =>
      let a := dValue d + (p / 4096 * planes f + k) * 512 + p % 4096 / 8
      let b := (placeByte s pl a).toNat
      placeWrite s pl a [BitVec.ofNat 8 (b - (if b.testBit (p % 8) then 2 ^ (p % 8) else 0) + (if w.testBit k then 2 ^ (p % 8) else 0))])
  else placeWrite s pl (dValue d + p * fmtBytes f) (leBytes (fmtBytes f) w)
/-- Byte ranges that n values from position p on lie in, and their scales. -/
def posSpans (d : List Nat) (p n : Nat) : List (Nat × Nat) :=
  let f := dFmt d
  (if n = 0 then []
   else if isPlane f then (List.range ((p + n - 1) / 4096 - p / 4096 + 1)).flatMap (fun g => (List.range (planes f)).map (fun k =>
      let lo := max p ((p / 4096 + g) * 4096)
      let hi := min (p + n) ((p / 4096 + g + 1) * 4096)
      (dValue d + ((p / 4096 + g) * planes f + k) * 512 + lo % 4096 / 8, (hi - 1) % 4096 / 8 - lo % 4096 / 8 + 1)))
   else [(dValue d + p * fmtBytes f, n * fmtBytes f)]) ++ (if hasScale f ∧ n ≠ 0 then [(dScale d + p / 32, (p + n - 1) / 32 - p / 32 + 1)] else [])
/-- Rows of the core's own scratchpad that byte ranges of an output lie in. -/
def spanRowsOf (pl : Place) (l : List (Nat × Nat)) : List (Nat × Nat) := match pl with
  | .dpa b => (l.flatMap (fun p => (linePieces (b + p.1) p.2).map (fun x => (x.1 % 0x100000000 / 0x10000000, x.1 % 0x10000000 / 512)))).eraseDups
  | .va _ | .landed _ _ => []
/-- Byte ranges of an output are written with the bytes that f puts there: parts of their rows in the gathering buffer land first. -/
def putSpans (s : State) (c : Nat) (t : CoreTask) (pl : Place) (l : List (Nat × Nat)) (f : State → State) : State :=
  let ready := useRows c (spanRowsOf pl l) s
  if !ready.2 then ready.1
  else
    let u := f ready.1
    each l ready.1 (fun s p => if stillRuns s c t.slot then putBytes s c t pl p.1 ((List.range p.2).map (fun i => placeByte u pl (p.1 + i))) else s)
/-- The output's non-zeros that the cores of the task have counted and whose bases are settled: position, row, column, value. -/
def settledSums (s : State) (t : CoreTask) : List (Nat × Nat × Nat × F32) := (slotCores s t.slot).flatMap (fun x => match (core s x).task with
  | none => []
  | some u => if u.slot ≠ t.slot ∨ u.counted = false then [] else
    (ownChunks s x).zipIdx.flatMap (fun k =>
      let base : Option Nat := match t.counter with
        | some n =>
          let rc := rowCounter s n
          if (List.range k.1.idx).all (fun i => rc.final.contains i) then some (rc.outBase + ((List.range k.1.idx).map (fun i => tget 0 rc.counts i)).sum) else none
        | none => (core s x).bases[k.2]?
      match base with
      | none => []
      | some b => (chunkNonZeros s x u k.1 (outNonZeros s x u)).zipIdx.map (fun e => (b + e.2, e.1))))
/-- Blocks of 32 positions that n positions from base on lie in, each with all of its elements that are known: a block that two chunks share
is converted whole, whichever of them is emitted last (03 R76; 04 R99; log entry 102). -/
def emitBlocks (s : State) (t : CoreTask) (scaled : Bool) (base : Nat) (l : List (Nat × Nat × F32)) : List (List (Nat × Nat × Nat × F32)) :=
  let own := l.zipIdx.map (fun e => (base + e.2, e.1))
  let others := if scaled then (settledSums s t).filter (fun e => decide (e.1 < base ∨ base + l.length ≤ e.1)) else []
  let all (b : Nat) : List (Nat × Nat × Nat × F32) :=
    let at_ (p : Nat) : Option (Nat × Nat × Nat × F32) := (own.find? (fun e => e.1 == p)).or (others.find? (fun e => e.1 == p))
    (List.range 32).filterMap (fun i => at_ (32 * b + i))
  if l.isEmpty then [] else (List.range ((base + l.length - 1) / 32 - base / 32 + 1)).map (fun b => all (base / 32 + b))
/-- Converted blocks at their positions, with their scales. -/
def emitValues (s : State) (pl : Place) (d : List Nat) (blocks : List (List (Nat × Nat × Nat × F32) × (Nat × List (Converted × Bool)))) : State :=
  each blocks s (fun s b =>
    let s := each (b.1.zip b.2.2) s (fun s x => writePos s pl d x.1.1 x.2.1.bits)
    if hasScale (dFmt d) then placeWrite s pl (dScale d + ((b.1.head?.map (·.1)).getD 0) / 32) [BitVec.ofNat 8 b.2.1] else s)
/-- Columns and values of a chunk's home rows, from its base. -/
def emitChunk (s : State) (c : Nat) (t : CoreTask) (k base : Nat) (l : List (Nat × Nat × F32)) : State :=
  let d := sLayout t.table k
  let pl := slotPlace s c t k
  if emptyTensor t k || l.isEmpty then s else
  let w := if dCiWide d then 4 else 2
  let blocks := (emitBlocks s t (hasScale (dFmt d)) base l).map (fun b => (b, convertElems s t (hConv t.table) false (b.map (fun e => (e.2.1 * cols t k + e.2.2.1, e.2.2.2)))))
  let at_ := blocks.flatMap (fun b => b.1.zip b.2.2)
  let first := (at_.head?.map (fun x => x.1.1)).getD base
  let s := putBytes s c t pl (dAux1 d + w * base) (l.flatMap (fun e => leBytes w e.2.1))
  if !stillRuns s c t.slot then s else
  let s := putSpans s c t pl (posSpans d first ((at_.getLast?.map (fun x => x.1.1)).getD base + 1 - first)) (fun u => emitValues u pl d blocks)
  if !stillRuns s c t.slot then s
  else countConv s c ((at_.filter (fun x => decide (base ≤ x.1.1 ∧ x.1.1 < base + l.length))).map (fun x => x.2.1))
/-- Row pointers that a core writes for a chunk: of the rows that begin in it, and after the last chunk of those that begin at the end. -/
def emitRows (s : State) (c : Nat) (t : CoreTask) (k base : Nat) (x : Chunk) (l : List (Nat × Nat × F32)) : State :=
  let d := sLayout t.table k
  let pl := slotPlace s c t k
  let w := if dRpWide d then 8 else 4
  let last := posEnd t
  let rs := (List.range (rows t (claimSlot t) + 1)).filter (fun i => let p := claimRp s c t i
                                                                   decide (x.s ≤ p ∧ p < x.e) || (x.e == last && p == last))
  if emptyTensor t k || rs.isEmpty then s else
  putSpans s c t pl [(dAux0 d + w * rs.headD 0, w * (rs.getLastD 0 - rs.headD 0 + 1))] (fun u => each rs u
    (fun s i => placeWrite s pl (dAux0 d + w * i) (leBytes w (base + (l.filter (fun e => decide (e.1 < i))).length))))
/-- Entries of the output's boundary summary that a core writes for a chunk. -/
def emitSummary (s : State) (c : Nat) (t : CoreTask) (out0 base : Nat) (x : Chunk) (l : List (Nat × Nat × F32)) : State :=
  if !aEmitSummary t.table then s else
  let put (s : State) (k v : Nat) : State := putBytes s c t (.va t.strand) (aSummaryBase t.table + 4 * k) (leBytes 4 v)
  let s := each l.zipIdx s (fun s e => if (base + e.2 - out0) % 4096 = 0 then put s ((base + e.2 - out0) / 4096) e.1.1 else s)
  if x.e = posEnd t then put s (ceilDiv (base + l.length - out0) 4096) (rows t (claimSlot t) - 1) else s
/-- The status of an emit whose output does not translate. -/
def emitFault (s : State) (t : CoreTask) (k : Nat) (parts : List (Nat × Nat)) : Option Nat :=
  let d := sLayout t.table k
  if sSource t.table k = 1 then none else
  let w := if dCiWide d then 4 else 2
  ((parts.filter (fun p => p.2 ≠ 0)).findSome? (fun p =>
    (rangeFault s t.strand (dAux1 d + w * p.1) (w * p.2) true).or (rangeFault s t.strand (dValue d + p.1 / 4096 * 512) (p.2 * orOne (fmtBytes (dFmt d))) true))).or
  ((if emptyTensor t k then none else rangeFault s t.strand (dAux0 d) ((rows t (claimSlot t) + 1) * (if dRpWide d then 8 else 4)) true).or
    (if aEmitSummary t.table then rangeFault s t.strand (aSummaryBase t.table) 4 true else none))

/-- Emit, once every base of the core's chunks is known: the core's part of the span is then finished. -/
def mergeEmit (s : State) (c : Nat) : State := match (core s c).task with
  | none => s
  | some t =>
    let l := ownChunks s c
    if !t.counted || t.merged || (core s c).bases.length < l.length then s else
    match outSlot t.table with
    | none => s
    | some k =>
      if !(zeroLevels t).isEmpty then
        spanEnd (updTask (updCore s c (fun x => { x with accPhase := 7, stall := if passWait x then none else x.stall })) c (fun t => { t with merged := true })) c else
      let ready := readRuns s c t t.runs.flatten
      if !ready.2 then ready.1 else
      let s := ready.1
      let nz := outNonZeros s c t
      let parts := l.zip (core s c).bases
      let out0 := outRp0 s t.slot
      match emitFault s t k (parts.map (fun p => (p.2, (chunkNonZeros s c t p.1 nz).length))) with
      | some e => faultCore s c e 31 k 0
      | none =>
        let s := updCore s c (fun x => { x with accPhase := 7, stall := if passWait x then none else x.stall })
        let s := each parts s (fun s p =>
          let m := chunkNonZeros s c t p.1 nz
          emitSummary (emitRows (emitChunk s c t k p.2 m) c t k p.2 p.1 m) c t out0 p.2 p.1 m)
        let s := if posEnd t = posFirst t ∧ t.rank = 0 then
          let x : Chunk := { idx := 0, s := posFirst t, e := posEnd t, i0 := 0, i1 := 0 }
          emitSummary (emitRows s c t k out0 x []) c t out0 out0 x [] else s
        if !stillRuns s c t.slot then s else
        spanEnd (updTask (ovfFree s c (aOvfBase t.table) (inOverflow t.runs.flatten)) c (fun t => { t with merged := true, outNz := nz.length })) c

/-! Counts (R160). -/

/-- A chunk's count in reports of at most 2^26 - 1 each; the last is final. -/
def countReports (n : Nat) : List (Nat × Bool) :=
  (List.replicate ((n - 1) / (2 ^ 26 - 1)) (2 ^ 26 - 1, false)) ++ [(n - (n - 1) / (2 ^ 26 - 1) * (2 ^ 26 - 1), true)]
/-- Match mode (R157): sort and count; the counts are reported, or turned into bases at once for a local counter (09 R255). -/
def mergeCount (s : State) (c : Nat) (t : CoreTask) : State :=
  let ready := readRecords s c t true
  if !ready.2 then ready.1 else
  let i := passInputs ready.1 c t
  let blocks := mergeBlocks i.1.length + mergeBlocks i.2.length
  let sorted := sortPass ready.1 c t
  match sorted.2 with
  | none => sorted.1
  | some l =>
  let s := sorted.1
  let nz := outNonZeros s c { t with runs := l }
  let counts := (ownChunks s c).map (fun k => (k.idx, (chunkNonZeros s c t k nz).length))
  let base := outRp0 s t.slot
  let s := bumpCore s c CORE_NUM_INF_COUNT (mergeSums (runRecs s c t l.flatten)).2
  let s := updTask s c (fun t => { t with counted := true, runs := l, blocks := blocks, mergeLevels := mergeLevels 16 blocks })
  let wait (x : Core) : Option Stall := if t.counter.isSome && !counts.isEmpty then some (passStall s resBase) else if passWait x then none else x.stall
  let s := updCore s c (fun x => { x with accPhase := 6, homeCounts := counts, stall := wait x })
  let s := match t.counter with
    | some k => each counts s (fun s p => each (countReports p.2) s (fun s r =>
        sendChain s (coreDie c) (sliceDie (counterSlice k)) (.report k t.attempt p.1 r.1 r.2)))
    | none => updCore s c (fun x => { x with bases := (List.range counts.length).map (fun j => base + ((counts.map (·.2)).take j).sum) })
  mergeEmit s c
/-- Gather mode: received sums are added into partial-sum memory. -/
def mergeGather (s : State) (c : Nat) (t : CoreTask) : State :=
  let ready := readRecords s c t true
  if !ready.2 then ready.1 else
  let p := lastProd t.table
  let sums := (List.range (panelCount t p)).flatMap (fun q => sumRows ready.1 c t p 0 q)
  let ready := takeRows ready.1 c (heldSums ready.1 c sums) sums
  if !ready.2 then ready.1 else
  let s := ready.1
  let s := each (foreignRecs s c t) s (fun s r =>
    match (List.range (panelCount t p)).find? (fun q =>
      let b := outBase t p (panelIndices t p 0 q)
      decide (b.1 ≤ (r.row : Int) ∧ (r.row : Int) < b.1 + (outExtent t.table p).1 ∧ b.2 ≤ (r.col : Int) ∧ (r.col : Int) < b.2 + (outExtent t.table p).2)) with
    | none => s
    | some q =>
      let b := outBase t p (panelIndices t p 0 q)
      let o := sumOffset t p 0 q 0 ((r.row : Int) - b.1).toNat ((r.col : Int) - b.2).toNat
      let a := readSum s c t o
      let x := addF32 a r.value
      bumpCore (writeSum s c t o x) c CORE_NUM_INF_COUNT (b2n (overflowed a r.value x)))
  let s := ovfFree s c (aOvfBase t.table) (core s c).foreignOvf
  spanEnd (updCore (updTask s c (fun t => { t with merged := true })) c (fun x => { x with accPhase := 7, stall := if passWait x then none else x.stall })) c

end Sys2Proof.Machine
end

