-- ==== Sys2Proof/Machine/Accum.lean ====
section
/-! DEFINITION. Send and merge passes, audit reports and token bands (06 R154 to R161; 07 R172, R186, R187). -/

namespace Sys2Proof.Machine

/-- SEND_PASS (R154): owners of foreign rows are asked for first; with all known, the rows leave as tags are free, and the announcements
behind them. It waits on nothing else, and a core without a foreign row skips it. -/
def execSendPass (c : CoreId) (s : State) : Result :=
  .next (match (core s c).task with
    | none => s
    | some t =>
      if t.copy || !claimsMode t.table || t.phase != 4 || t.sent || !claimsOver s c t then s
      else if t.outbox.isSome then sendForeign s c t
      else
        let s := if laneMode t.table = 3 then flushSpill s c t else s
        if !stillRuns s c t.slot then s
        else if (foreignChunks s c t).all (fun f => (ownerOf s c (homeChunk s c t f.2)).isSome) then
          let ready := if (foreignChunks s c t).isEmpty then (s, true) else readRecords s c t false
          if !ready.2 then ready.1 else
          let gone := (foreignChunks ready.1 c t).map (·.2)
          let s := fillOutbox ready.1 c t
          let s := if laneMode t.table = 3 then setReg s (coreOff c CORE_ACC_PEAK_OCC) (core s c).accOcc else s
          let s := updCore s c (fun x => { takenOut t gone x with accPhase := 2 })
          match (core s c).task with
          | some t => sendForeign s c t
          | none => s
        else updCore (askOwners s c t) c (fun x => { x with accPhase := 2 }))

/-- FOREIGN_ANNOUNCEMENT (R154, R155). -/
def execForeignAnnouncement (f : Frame) (c : CoreId) (chunk : BitVec 21) (rows : BitVec 32) (s : State) : Result :=
  .next (onChain (coreDie c) f s (fun s =>
    if (core s c).foreignOpen then updCore s c (fun x => { x with announced := x.announced ++ [(chunk.toNat, rows.toNat)] }) else s))

/-- The merge pass may start (R28, R155): every announcement has arrived, and the foreign window's count is their sum. -/
def mergeMayStart (s : State) (c : Nat) (t : CoreTask) : Bool :=
  !t.copy && claimsMode t.table && t.phase == 4 && t.sent && !t.counted && !t.merged
    && (expected s c t).all (fun k => (core s c).announced.any (fun a => a.1 == k))
    && (core s c).foreignCount == ((core s c).announced.map (·.2)).sum
/-- What a merge pass reads and writes: spill rows and the foreign window, and partial-sum memory, its sort area or its sums (08 R208). -/
def mergeRanges (s : State) (c : Nat) (t : CoreTask) : List (Fin 3 × Nat × Nat) × List (Fin 3 × Nat × Nat) :=
  let own := if t.counter.isSome then [regionRange s c 1 (aForeignRegion t.table)] else []
  if laneMode t.table = 3 then (own ++ [regionRange s c 1 (aSpillRegion t.table)], [(2, 0, memRows 2)]) else (own, [regionRange s c 2 (hAccRegion t.table)])
/-- MERGE_PASS_START (R155, R157). It waits, as other core-local work does, while the scoreboard holds a range that it needs (08 R208). -/
def execMergePassStart (c : CoreId) (s : State) : Result :=
  .next (match (core s c).task with
    | none => s
    | some t =>
      if !mergeMayStart s c t || sbWaits s c (mergeRanges s c t).1 (mergeRanges s c t).2 then s
      else if laneMode t.table = 3 then mergeCount s c t
      else mergeGather s c t)

/-- Below the window the record at address a counts on (07 R187). -/
def auditNote (s : State) (a wi wm wt : Nat) : State :=
  let w3 := rd64 s (a + 24)
  wr64 (wr64 s (a + 16) (wi + wm * 2 ^ 32)) (a + 24) (putBits w3 31 0 wt)
/-- The window closes: word 0 of the record, its widenings, and the window's counts in its totals. -/
def auditClose (s : State) (a w0 : Nat) (widened : Bool) (wi wm : Nat) : State :=
  let w3 := (bits (rd64 s (a + 24)) 63 32 + b2n widened) % 2 ^ 32 * 2 ^ 32
  let w4 := (rd64 s (a + 32) + wi) % 2 ^ 64
  let w5 := (rd64 s (a + 40) + wm) % 2 ^ 64
  wr64 (wr64 (wr64 (wr64 (wr64 s a w0) (a + 16) 0) (a + 24) w3) (a + 32) w4) (a + 40) w5
/-- A predictor has saturated. -/
def countSaturated (s : State) : State := { s with hst := { s.hst with predSaturated := s.hst.predSaturated + 1 } }
/-- A report is applied to a predictor state record at address a (07 R187): the record's words, and what the report closes. -/
def applyAudit (s : State) (c strandN stateBase a tokens inactive misses missLimit window : Nat) (step max : F32) : State :=
  let die := sliceDie (homeSlice a)
  let w0 := rd64 s a
  let w2 := rd64 s (a + 16)
  let wi := (bits w2 31 0 + inactive) % 2 ^ 32
  let wm := (bits w2 63 32 + misses) % 2 ^ 32
  let wt := (bits (rd64 s (a + 24)) 31 0 + tokens) % 2 ^ 32
  if wt < window then auditNote s a wi wm wt
  else
    let band := BitVec.ofNat 32 (bits w0 31 0)
    let wide := addF32 band step
    if decide (missLimit * wi < wm * 65536) then
      if ltF32 band max then
        let band' := if ltF32 max wide then max else wide
        raise (bumpCore (auditClose s a (putBits w0 31 0 band'.toNat) true wi wm) c CORE_PRED_WIDEN_COUNT 1) die 0x301 1 strandN c
          [stateBase, band'.toNat, wt, wi, wm]
      else raise (countSaturated (auditClose s a (putBits w0 32 32 1) false wi wm)) die 0x302 2 strandN c [stateBase, band.toNat, wt, wi, wm]
    else auditClose s a w0 false wi wm
/-- AUDIT_REPORT (R186, R187): one report at the record's home slice, which reads the record and writes it back; a record that cannot be read
takes nothing. -/
def execAuditReport (c : CoreId) (n : StrandId) (stateBase : BitVec 48) (tokens inactive misses : BitVec 32)
    (missLimit window : BitVec 16) (bandStep bandMax : F32) (s : State) : Result :=
  .next (match translate s n stateBase.toNat true with
    | .ok a =>
      let r := sliceRead s a
      if r.2 ≠ stSuccess then r.1
      else
        let s := applyAudit r.1 c n stateBase.toNat a tokens.toNat inactive.toNat misses.toNat missLimit.toNat window.toNat bandStep bandMax
        (sliceWrite s a (mreadN s.mem a 48) (.ok 0)).1
    | .err _ => s)

/-- FUSED_BAND_READY (07 R172): a band whose token rows are all formed goes to the second product. -/
def execFusedBandReady (c : CoreId) (s : State) : Result :=
  .next (match (core s c).task with
    | none => s
    | some t => if hPair t.table && decide ((t.bandsReady + 1) * orOne (bandRows t) ≤ t.midDone)
        then updTask s c (fun t => { t with bandsReady := t.bandsReady + 1 }) else s)

end Sys2Proof.Machine
end

