-- ==== Sys2Proof/Machine/SaveOps.lean ====
section
/-! DEFINITION. The save image and the save slots of the MRAM (18 R453, R454). -/

namespace Sys2Proof.Machine

/-! Records of the image (R453). -/

/-- A lifeline record: its strand and words 16 to 23 of the entry. -/
def lifelineRecord (n : Nat) (x : Lifeline) : List Nat := n :: llWords x
/-- A strand summary: STRAND and KIND, TASKS_DONE, STEP_LAST, RES_HANDLE. -/
def strandSummary (n : Nat) (x : Strand) : List Nat := [n + bits (x.words.getD 0 0) 4 3 * 2 ^ 18, x.tasksDone, x.stepLast, x.words.getD 5 0]
/-- KIND of a strand. -/
def strandKind (x : Strand) : Nat := bits (x.words.getD 0 0) 4 3
/-- Live strands in the image's order: KIND 1 first, then the others, each in ascending number. -/
def summaryOrder (s : State) : Tab Strand :=
  s.hst.strands.filter (fun p => strandKind p.2 == 1) ++ s.hst.strands.filter (fun p => strandKind p.2 != 1)
/-- What the image holds of lifelines and strands, and how many strands it leaves out. -/
def imageRecords (s : State) : List (List Nat) × List (List Nat) × Nat :=
  if s.hst.strands.isEmpty then s.power.kept
  else
    let l := summaryOrder s
    (((s.lifelines.filter (fun p => p.2.role != 0)).take 256).map (fun p => lifelineRecord p.1 p.2),
     (l.take 49152).map (fun p => strandSummary p.1 p.2), l.length - 49152)
/-- SEQ of the record in a slot of the event log (19 R476). -/
def slotSeq (s : State) (k : Nat) : Nat := s.dict.eventSeq - (s.dict.eventSeq - 1 + 6144 - k) % 6144
/-- The record's words, of a slot that one was written to. -/
def slotWords (s : State) (k : Nat) : List Nat := match tfind s.dict.events k with
  | some e => eventWords (slotSeq s k) e
  | none => List.replicate 8 0

/-! The words of a save as it is read (R453 Table: Save image). -/

/-- Length of the image. -/
def imageLength : Nat := 0x1F5800
/-- Word w of the body. -/
def bodyWord (x : Save) (w : Nat) : Nat :=
  if w < 2816 then ((x.lifelines.getD ((w - 512) / 9) []).getD ((w - 512) % 9) 0)
  else if w < 199424 then ((x.summaries.getD ((w - 2816) / 4) []).getD ((w - 2816) % 4) 0)
  else if w < 248576 then ((tget [] x.events ((w - 199424) / 8)).getD ((w - 199424) % 8) 0)
  else if w < 256768 then tget 0 x.wear (w - 248576)
  else 0
/-- CRC-32 of the body. -/
def bodyCrc (x : Save) : Nat := crc32 ((List.range (imageLength / 8 - 512)).flatMap (fun i => leBytes 8 (bodyWord x (512 + i))))
/-- Words 0 to 12 of the header. -/
def headerWords (x : Save) : List Nat :=
  [x.seq, x.t, x.cause % 16, x.epoch % 2 ^ 32 + x.summaries.length % 65536 * 2 ^ 32, x.omitted % 2 ^ 18]
    ++ (List.range 6).map (fun i => leNat ((x.digest.drop (8 * i)).take 8)) ++ [imageLength, bodyCrc x]
/-- Word w of a save. -/
def imageWord (x : Save) (w : Nat) : Nat :=
  if w < 13 then (headerWords x).getD w 0
  else if w = 13 then crc32 ((headerWords x).flatMap (leBytes 8))
  else if w < 512 then 0
  else bodyWord x w

/-! Slots (R454). -/

/-- The newest valid save, with its slot. -/
def newestSlot (s : State) : Option (Nat × Save) := s.saves.foldl (fun o p => if !p.2.valid then o else match o with
  | none => some p
  | some b => if b.2.seq < p.2.seq then some p else o) none
def newestSave (s : State) : Option Save := (newestSlot s).map (·.2)
/-- A valid save is held. -/
def saveValid (s : State) : Bool := (newestSlot s).isSome
/-- Blocks of 4 KiB that a save writes in its slot, and the wear they take. -/
def wearSlot (s : State) (k : Nat) : State :=
  { s with wear := (List.range 502).foldl (fun t i => tset t (512 * k + i) (tget 0 t (512 * k + i) + 1)) s.wear }
/-- The slot after the newest save's, and the next sequence number. -/
def saveSlot (s : State) : Nat := match newestSlot s with
  | some p => (p.1 + 1) % 8
  | none => 0
def saveSeq (s : State) : Nat := match newestSave s with
  | some x => x.seq + 1
  | none => 1
/-- The image is written to the slot after the newest save's; it is valid once its header is written. -/
def writeSave (s : State) (cause : Nat) : State :=
  let k := saveSlot s
  let r := imageRecords s
  let s := wearSlot s k
  let x : Save := { seq := saveSeq s, t := now s, cause := cause, epoch := s.dict.epoch, digest := configDigest s, lifelines := r.1, summaries := r.2.1,
                    omitted := r.2.2, events := s.dict.events.map (fun p => (p.1, slotWords s p.1)), wear := s.wear, valid := false }
  { s with saves := tset s.saves k x }
/-- The header is written: saves that are not valid yet become so. -/
def endSave (s : State) : State := { s with saves := s.saves.map (fun p => (p.1, { p.2 with valid := true })) }
/-- Stage 1 finds torn slots, once each. -/
def findTorn (s : State) : State :=
  { s with
      power := { s.power with torn := s.power.torn + (s.saves.filter (fun p => !p.2.valid)).length }
      saves := s.saves.filter (fun p => p.2.valid) }

end Sys2Proof.Machine
end

