-- ==== Sys2Proof/Machine/RegView.lean ====
section
/-! DEFINITION. What a read of a register gives: the stored word, or for a status register the state that it shows. The 64-bit words of
BAR0 by their offset; write-only registers read 0. -/

namespace Sys2Proof.Machine

/-! The capability list (16 R399 to R402). -/

/-- Running firmware version (16 R402): of the application image in the active bank. -/
def fwVersion (s : State) : Nat := match s.sec.running.find? (fun i => i.kind == 2) with
  | some i => i.version.toNat
  | none => Config.fwVersion s.sec.activeBank
/-- Stacks and far-tier ports that are up, one bit each. -/
def stacksUp (s : State) : Nat := ((List.range 8).map (fun k => b2n ((stack s k).state == 2) * 2 ^ k)).sum
def farsUp (s : State) : Nat := ((List.range 4).map (fun p => b2n (farUp s p) * 2 ^ p)).sum
/-- Pin rate in force, Gb/s. -/
def rateNow (s : State) : Nat := if (stack s 0).rate = 0 then 36 else (stack s 0).rate

/-- A capability: its ID, FLAGS and body words. -/
def capabilities (s : State) : List (Nat × Nat × List Nat) := [
  (0x0001, 1, [Config.orderCode % 256 + popcount 64 (s.pkg.enabled % 2 ^ 64) * 2 ^ 8 + activeCount s * 2 ^ 16 + Config.siliconRev % 256 * 2 ^ 24
      + fwVersion s % 2 ^ 32 * 2 ^ 32, Config.serial.toNat, 0]),
  (0x0002, 1, [s.power.stage % 16 + b2n s.power.busy * 2 ^ 4 + b2n s.power.failed * 2 ^ 5 + s.power.failStage % 16 * 2 ^ 6
      + s.power.failStatus % 65536 * 2 ^ 16 + b2n (saveValid s) * 2 ^ 32, s.power.tStage]),
  (0x0010, 1, [activeMask s, s.pkg.enabled % 2 ^ 64, s.pkg.fenced % 2 ^ 64,
      64 + guaranteed * 2 ^ 8 + 8 * 2 ^ 16 + 8 * 2 ^ 24 + b2n (belowGuarantee s) * 2 ^ 32]),
  (0x0011, 0, [327680 + 64 * 2 ^ 32 + 512 * 2 ^ 48, 131072 + 32 * 2 ^ 32, 65536 + 16 * 2 ^ 32,
      2097152 + 8 * 2 ^ 32 + 64 * 2 ^ 40 + 64 * 2 ^ 48 + 16 * 2 ^ 56, 256 + 64 * 2 ^ 16 + 12 * 2 ^ 24 + 28 * 2 ^ 32]),
  (0x0012, 0, [32 + 4 * 2 ^ 8 + 4096 * 2 ^ 16 + 32 * 2 ^ 32 + 512 * 2 ^ 40 + 4 * 2 ^ 56,
      2 + 8 * 2 ^ 4 + 6 * 2 ^ 8 + 4096 * 2 ^ 16 + 4 * 2 ^ 32 + 32 * 2 ^ 40]),
  (0x0013, 0, [0x01FE3F3E + (1 + 2 + 16 * 2 ^ 8 + 1 * 2 ^ 16) * 2 ^ 32, 4095]),
  (0x0020, 1, [8 + rateNow s * 2 ^ 8 + 72 * 2 ^ 16 + 600 * 2 ^ 32 + stacksUp s * 2 ^ 48 + 21 * 2 ^ 56, 0]),
  (0x0021, 1, [4 + farsUp s * 2 ^ 8 + 1500 * 2 ^ 16 + 40 * 2 ^ 32,
      ((List.range 4).map (fun p => (if farUp s p then (far s p).capacity % 65536 else 0) * 2 ^ (16 * p))).sum]),
  (0x0030, 0, [16 + 8 * 2 ^ 8 + 2 * 2 ^ 16 + 4096 * 2 ^ 32 + 4096 * 2 ^ 48]),
  (0x0031, 0, [8 + 4 * 2 ^ 8 + 8 * 2 ^ 16]),
  (0x0040, 0, [262144 + 16384 * 2 ^ 32 + 256 * 2 ^ 48, 4096 + 4096 * 2 ^ 16 + 2048 * 2 ^ 32 + 1024 * 2 ^ 48]),
  (0x0050, 0, [256 + 3 * 2 ^ 16 + 65535 * 2 ^ 24]),
  (0x0060, 0, [1024 + 3 * 2 ^ 16 + 6144 * 2 ^ 32]),
  (0x0070, 0, [64 + 4 * 2 ^ 8 + 1 * 2 ^ 16]),
  (0x0080, 0, [8 + 0x1F * 2 ^ 8])]

/-- The list's words from byte offset `at_`: each header names the next one (R399, R400). -/
def capWords (at_ : Nat) : List (Nat × Nat × List Nat) → List Nat
  | [] => []
  | (id, flags, body) :: rest =>
    let len := 8 * (body.length + 1)
    (id + 0x10 * 2 ^ 16 + flags * 2 ^ 24 + len * 2 ^ 32 + (if rest.isEmpty then 0 else at_ + len) * 2 ^ 48) :: body ++ capWords (at_ + len) rest

/-! Status registers of a core block. -/

def paceStatus (s : State) (c : Nat) : Nat :=
  let x := core s c
  effCeil s c % 65536 + x.paceMeas % 65536 * 2 ^ 16 + limiter s c * 2 ^ 32 + x.winState * 2 ^ 34 + b2n (throttled s) * 2 ^ 36
    + b2n x.floorRaise * 2 ^ 37 + b2n x.pwrLimited * 2 ^ 38
/-- V_FLOOR(T) shows 0 until the junction has been measured, as at reset. -/
def vcoreWord (s : State) (c : Nat) : Nat := (core s c).vcore % 1024 + (if (core s c).tempKnown then vFloor s c else 0) * 2 ^ 16
def laneStatus (s : State) (c : Nat) : Nat :=
  let x := core s c
  match x.task with
  | none => 0
  | some t => if t.copy then 0 else
    laneMode t.table + (x.lanes.filter (fun p => p.2.running.isSome)).length * 2 ^ 8 + starving s c * 2 ^ 16 + min 8 (unstarted x) * 2 ^ 24
      + (x.chunks.filter (fun k => !(k.searched && k.cut == k.e && k.open_ == 0))).length % 256 * 2 ^ 32 + b2n t.claimInFlight * 2 ^ 40 + b2n t.dry * 2 ^ 41
def accStatus (s : State) (c : Nat) : Nat :=
  let x := core s c
  x.accPhase % 16 + x.accOcc % 2 ^ 24 * 2 ^ 8 + ((x.task.map (·.replays)).getD 0) % 4 * 2 ^ 32 + b2n x.spilling * 2 ^ 34
    + b2n (x.ovfUsed.any (fun p => ovfHeld x p.1 != 0)) * 2 ^ 35
def loopStatus (s : State) (c : Nat) : Nat := match (core s c).task with
  | none => 0
  | some t => t.phase % 16 + t.rank % 64 * 2 ^ 8 + t.cores % 128 * 2 ^ 16 + t.counter.getD 0 % 1024 * 2 ^ 24
      + b2n (!t.copy && claimsMode t.table && t.counter.isNone) * 2 ^ 34 + b2n (!t.copy && hPair t.table) * 2 ^ 35
def fetStatus (s : State) (c : Nat) : Nat :=
  let x := core s c
  let t := (x.task.map (·.schedule)).getD []
  x.tags.length % 512 + (if t.isEmpty then 0 else schedStreams t % 32) * 2 ^ 16 + b2n x.draining.isSome * 2 ^ 24 + b2n (!t.isEmpty) * 2 ^ 25
    + x.lastWinner % 16 * 2 ^ 28
def queStatus (s : State) (c : Nat) : Nat :=
  let l := (s.queues.filter (fun p => p.1 / 32 == c && p.2.enabled)).map (·.2)
  l.length + (l.map (·.len)).sum * 2 ^ 16
def spmStatus (s : State) (c : Nat) : Nat :=
  let x := core s c
  x.gb.length % 32 + x.sb.length % 128 * 2 ^ 8 + b2n x.cfgReject * 2 ^ 16 + b2n x.bankReq.isSome * 2 ^ 17 + b2n x.op.isSome * 2 ^ 18
/-- PHASE of a copy task: idle, checking, awaiting GO, running, draining. -/
def lceStatus (s : State) (c : Nat) : Nat :=
  let x := core s c
  match x.task with
  | some t => if t.copy then
      (if t.phase ≤ 2 then t.phase else 3) + kOp t.table * 2 ^ 3 + b2n (x.xposeRows != 0) * 2 ^ 5 + min 64 x.lceWindow.length * 2 ^ 8 else 0
  | none => if x.draining.isSome then 4 else 0

/-- Offset o of the register block of core c. -/
def coreView (s : State) (c o : Nat) : Nat :=
  if o = CORE_PACE_STATUS then paceStatus s c
  else if o = CORE_VCORE then vcoreWord s c
  else if o = CORE_LANE_STATUS then laneStatus s c
  else if o = CORE_ACC_STATUS then accStatus s c
  else if o = LOOP_STATUS then loopStatus s c
  else if o = FET_STATUS then fetStatus s c
  else if o = QUE_STATUS then queStatus s c
  else if o = SPM_STATUS then spmStatus s c
  else if o = LCE_STATUS then lceStatus s c
  else if o = SPM_PWR_CTL then putBits (reg s (coreOff c SPM_PWR_CTL)) 11 10 (core s c).bankResult
  else if o = SPM_OP_STATUS then (core s c).opState
  else if o = SPM_WIN_CTL ∨ o = SPM_OP0 ∨ o = SPM_OP1 ∨ o = SPM_OP2 ∨ o = SPM_GB_FLUSH then 0
  else if 0x8000 ≤ o then
    let k := bits (coreReg s c QUE_TAG_PAGE) 2 0 * 8192 + (o - 0x8000) / 4
    tget 0 (core s c).queueTags k % 2 ^ 32 + tget 0 (core s c).queueTags (k + 1) % 2 ^ 32 * 2 ^ 32
  else reg s (coreOff c o)

/-! Status registers of the other dies. -/

/-- Word w of hardware queue entry q. -/
def queView (s : State) (q w : Nat) : Nat :=
  let x := queue s q
  if w = 1 then
    x.readable % 8192 + (x.readable + x.uncommitted + x.landed) % 8192 * 2 ^ 13 + b2n x.open_.isSome * 2 ^ 26 + b2n x.marker.isSome * 2 ^ 27 + b2n x.flushPending * 2 ^ 28
      + x.bindResult % 4 * 2 ^ 29 + x.result % 4 * 2 ^ 31
  else if w = 2 then x.seqNext % 65536 + ((x.marker.map (·.count)).getD 0) % 65536 * 2 ^ 16 + x.first % 65536 * 2 ^ 32
  else if w = 0 ∨ w = 7 then reg s (queOff q w) else 0
/-- Offset o of the block of MIF die k. -/
def mifView (s : State) (k o : Nat) : Nat :=
  let x := stack s k
  if o = MIF_STATUS then
    x.state % 4 + x.rate % 256 * 2 ^ 8 + (x.channels - b2n x.retraining.isSome) % 64 * 2 ^ 16 + b2n x.retraining.isSome * 2 ^ 22 + x.retraining.getD 0 % 64 * 2 ^ 23
  else if o = MIF_POISON_COUNT then x.poison.length else reg s (mifOff k o)
/-- Offset o of the block of far-tier port p. -/
def farView (s : State) (p o : Nat) : Nat :=
  let x := far s p
  if o = FAR_STATUS then x.link % 4 + x.width % 32 * 2 ^ 2 + x.gts % 256 * 2 ^ 8 + x.capacity % 2048 * 2 ^ 16 + b2n x.memActive * 2 ^ 27
  else reg s (farOff p o)
/-- LNK_PORT_STATUS. -/
def portStatus (s : State) (p : Nat) : Nat :=
  let x := port s p
  x.state % 8 + x.gen % 4 * 2 ^ 3 + x.width % 16 * 2 ^ 5 + b2n x.dx8 * 2 ^ 9 + b2n x.divergent * 2 ^ 10 + x.peerDev % 4096 * 2 ^ 16
    + x.peerPort % 16 * 2 ^ 28
/-- MGT_RTR_STATUS. -/
def rtrStatus (s : State) (d : Nat) : Nat :=
  (if routerFenced s d then 2 else match dieCore d with
    | some c => if coreActive s c then 0 else 1
    | none => 0)
    + ((List.range 7).map (fun p => b2n (portUp s d p) * 2 ^ (4 + p))).sum + ((List.range 7).map (fun p => b2n (portDegraded s d p) * 2 ^ (12 + p))).sum
/-- Four bits for each destination, 16 to a word: the route-table words that follow MGT_RTR_CLEAR. -/
def routeWord (s : State) (d w : Nat) : Nat :=
  ((List.range 16).map (fun i => if 16 * w + i < 100 then routeEntry s false d (16 * w + i) % 16 * 2 ^ (4 * i) else 0)).sum
def rtrView (s : State) (d o : Nat) : Nat :=
  if o = MGT_RTR_STATUS then (if d < 80 then rtrStatus s d else 0)
  else if 0x40 ≤ o ∧ o < 0x78 ∧ d < 80 then routeWord s d ((o - 0x40) / 8)
  else reg s (rtrOff d o)
def hstView (s : State) (o : Nat) : Nat :=
  if o = HST_LINK_STATUS then s.hst.linkMode % 4 + s.hst.linkWidth % 32 * 2 ^ 2 + b2n s.hst.memActive * 2 ^ 7
  else if o = HST_CANCEL_STATUS then s.hst.cancelResult % 4
  else if o = HST_SLOTS_BUSY then (busySlots s).length
  else if o = HST_CANCEL then 0
  else reg s (hstOff o)
def strandView (s : State) (o : Nat) : Nat :=
  if o = HST_STRAND_STATUS then s.hst.strandResult % 4 + s.hst.strandStatus % 65536 * 2 ^ 2
  else if o = HST_STRAND_LIVE then s.hst.strands.length
  else if o = HST_STRAND_CTL then 0
  else reg s (strandOff o)
def clockView (s : State) (o : Nat) : Nat :=
  if o = MGT_REFTIME then now s
  else if o = MGT_REFTIME_STATUS then b2n s.clock.locked + b2n s.clock.refclkLost * 2 + b2n s.clock.spread * 4 + b2n (s.clock.slew != 0) * 8
  else 0
def netView (s : State) (o : Nat) : Nat :=
  let rtr (lo n : Nat) : Nat := ((List.range n).map (fun i => b2n (routerFenced s (lo + i)) * 2 ^ i)).sum
  if o = MGT_NET_STATUS then b2n s.pkg.rewriting + s.pkg.routeEpoch % 2 ^ 32 * 2 ^ 16
  else if o = MGT_NET_FENCE_CORE then s.pkg.fenced % 2 ^ 64
  else if o = MGT_NET_FENCE_RTR0 then rtr 0 64
  else if o = MGT_NET_FENCE_RTR1 then rtr 64 16
  else 0
/-- THROTTLE_SRC: sag warning, THROTTLE_N, power, thermal (18). -/
def throttleSrc (s : State) : Nat :=
  b2n (s.power.sag || bit s.power.chatter 2) + b2n (s.power.throttleN || bit s.power.chatter 1) * 2 + b2n s.power.powerSrc * 4 + b2n s.power.thermal * 8
def pwrView (s : State) (o : Nat) : Nat :=
  if o = MGT_PWR_STATUS then
    s.power.powerState % 8 + s.power.stage % 16 * 2 ^ 3 + b2n (s.power.busy && s.power.started) * 2 ^ 7 + throttleSrc s * 2 ^ 8
      + b2n s.power.bindoff * 2 ^ 12 + b2n (saveValid s) * 2 ^ 13
  else if o = MGT_PWR_BUS then
    s.power.busMv / 10 % 65536 + s.power.ibus % 65536 * 2 ^ 16 + s.power.pin % 65536 * 2 ^ 32 + s.power.bankMv / 10 % 65536 * 2 ^ 48
  else if o = MGT_INPUT_STATUS then
    (if s.power.started then s.power.levels % 8 else 0) + s.power.chatter % 8 * 2 ^ 3 + s.power.stuck % 8 * 2 ^ 6
  else if o = MGT_SAVE_LAST then match newestSave s with
    | some x => x.seq % 2 ^ 32 + x.cause % 16 * 2 ^ 32
    | none => 0
  else reg s (pwrOff o)
def llView (s : State) (o : Nat) : Nat :=
  if o = MGT_LL_STATUS then s.llResult % 4 + s.llStatus % 65536 * 2 ^ 2
  else if o = MGT_LL_CTL ∨ o = MGT_LL_ARG then 0
  else reg s (llOff o)
def secView (s : State) (o : Nat) : Nat :=
  if o = SEC_STATUS then
    s.sec.activeBank % 2 + b2n s.sec.fallback * 2 + b2n s.sec.burning * 4 + s.sec.unlockLevel % 4 * 8 + b2n s.sec.lockReject * 32
      + s.sec.refusals % 4 * 64
  else if o = SEC_TMUX_SEL then s.sec.tmuxSel
  else if o = SEC_TMUX_ARG then s.sec.tmuxArg
  else 0
def modView (s : State) (o : Nat) : Nat :=
  if o = MGT_MOD_STATUS then
    s.power.feedId % 16 + s.power.slotId % 256 * 2 ^ 4 + b2n (s.power.pwrEn && s.power.started) * 2 ^ 12 + b2n s.power.bankReady * 2 ^ 13 + s.power.farPrsnt % 16 * 2 ^ 14
  else if o = MGT_COOLANT then s.power.inlet % 65536 + s.power.outlet % 65536 * 2 ^ 16 + s.power.flow % 65536 * 2 ^ 32
  else 0

/-- The register at a BAR0 offset as a read sees it. -/
def regView (s : State) (off : Nat) : Nat :=
  let o := off % 0x10000
  if off < 0x10000 then (capWords 0 (capabilities s)).getD (off / 8) 0
  else if off < 0x30000 then queView s ((off - 0x10000) / 0x40) (off % 0x40 / 8)
  else if off < 0xA0000 then reg s off
  else if off < 0xB0000 then hstView s o
  else if 0x100000 ≤ off ∧ off < 0x102000 then
    (if off - 0x100000 = MGT_DICT_STATUS then b2n s.dict.busy
     else if off - 0x100000 = MGT_DICT_GO then 0
     else if MGT_DICT_DATA ≤ off - 0x100000 then leNat ((s.dict.window.drop (off - 0x101000)).take 8)
     else reg s off)
  else if 0x200000 ≤ off ∧ off < 0x210000 then strandView s o
  else if 0x1000000 ≤ off ∧ off < 0x1400000 then coreView s ((off - 0x1000000) / 0x10000) o
  else if 0x2000000 ≤ off ∧ off < 0x2800000 then
    (if off % 0x100000 = LNK_PORT_STATUS ∨ off % 0x100000 = 0x1000 then
      portStatus s ((off - 0x2000000) / 0x100000 * 2 + off % 0x100000 / 0x1000) else reg s off)
  else if 0x2800000 ≤ off ∧ off < 0x2880000 then mifView s ((off - 0x2800000) / 0x10000) o
  else if 0x3800000 ≤ off ∧ off < 0x3840000 then farView s ((off - 0x3800000) / 0x10000) o
  else if 0x3C00000 ≤ off ∧ off < 0x3C00100 then clockView s (off - 0x3C00000)
  else if 0x3C00100 ≤ off ∧ off < 0x3C01000 then netView s (off - 0x3C00100)
  else if 0x3C01000 ≤ off ∧ off < 0x3C07400 then rtrView s ((off - 0x3C01000) / 0x100) (off % 0x100)
  else if 0x3C08000 ≤ off ∧ off < 0x3C09000 then llView s (off - 0x3C08000)
  else if 0x3C09000 ≤ off ∧ off < 0x3C0A000 then pwrView s (off - 0x3C09000)
  else if 0x3C0A000 ≤ off ∧ off < 0x3C0B000 then secView s (off - 0x3C0A000)
  else if 0x3C0B000 ≤ off ∧ off < 0x3C0C000 then modView s (off - 0x3C0B000)
  else if 0x3E00000 ≤ off ∧ off < 0x4000000 then match newestSave s with
    | some x => imageWord x ((off - 0x3E00000) / 8)
    | none => 0
  else reg s off

/-- Bytes of the register mirror from a device physical address (13 R324): BAR0 by its 64-bit words. -/
def mirrorBytes (s : State) (a n : Nat) : List Byte :=
  (List.range (n / 8)).flatMap (fun i => leBytes 8 (regView s (a - 0x200000000000 + 8 * i)))

end Sys2Proof.Machine
end

