-- ==== Sys2Proof/Machine/SecOps.lean ====
section
/-! DEFINITION. The operations of the root of trust: counters and image sets, updates, debug unlocks, the test multiplexer, LMS leaves and
measurements (20 R496 to R512). -/

namespace Sys2Proof.Machine

/-- An event of the management die about no strand and no core. -/
def mgtEvent (s : State) (code severity : Nat) (args : List Nat) : State := raise s mgtDie code severity 0 0 args

/-! Counters and image sets (R499, R501). -/

/-- Anti-rollback counter c, 0 to 64. -/
def rollback (s : State) (c : Nat) : Nat := min 64 (tget (Config.fusedCounter c) s.sec.counters c)
/-- How an image fares: 0, IMAGE_INVALID, or ROLLBACK_REFUSED where condition 5 is its first to fail (R501). -/
def imageStatus (s : State) (i : ImageCheck) : Nat :=
  if !(i.formOk && i.keysOk && i.hashOk && i.signaturesOk) then stImageInvalid
  else if i.svn < rollback s i.counter then stRollbackRefused else 0
/-- A set: one image of each KIND 1 to 7; its first image that fails decides (R501). -/
def setStatus (s : State) (l : List ImageCheck) : Nat :=
  match (l.map (imageStatus s)).find? (· != 0) with
  | some e => e
  | none => if (List.range 7).all (fun k => l.any (fun i => i.kind.val == k + 1)) then 0 else stImageInvalid
/-- FW_COMMIT (R506): the counters that the running set names rise to its SVNs when the burn completes. -/
def commitFw (s : State) : Nat × State :=
  if s.power.sag || s.sec.burning then (stNotReady, s)
  else (0, { s with sec := { s.sec with
    burning := true
    burnTo := s.sec.running.foldl (fun t i => tset t i.counter (max (tget 0 t i.counter) (min 64 i.svn))) [] } })
/-- A counter rises and never falls. -/
def raiseCounter (s : State) (c v : Nat) : State :=
  { s with sec := { s.sec with counters := tset s.sec.counters c (max (rollback s c) v) } }
/-- The burn completes (R506). -/
def endBurn (s : State) : State :=
  if !s.sec.burning then s
  else
    let s := each s.sec.burnTo s (fun s p => raiseCounter s p.1 p.2)
    mgtEvent { s with sec := { s.sec with burning := false, burnTo := [] } } 0xC02 1 []
/-- Loss of power interrupts a burn: each counter stands somewhere between its old and its new value (R499). -/
def breakBurn (s : State) : State :=
  if !s.sec.burning then s
  else
    let s := each s.sec.burnTo s (fun s p =>
      let f := freshFree s
      raiseCounter f.2 p.1 (rollback s p.1 + f.1 % (p.2 - rollback s p.1 + 1)))
    { s with sec := { s.sec with burning := false, burnTo := [] } }

/-! Update (R504, R505). -/

/-- Path number of a transfer: TDP 0, mailbox 1, window 2. -/
def pathNo : DictPath → Nat | .tdp => 0 | .mailbox => 1 | .window => 2
/-- Bytes of an image set arrive at an offset. Bytes that do not continue the path's transfer end it. -/
def transferBytes (s : State) (path off len : Nat) (last : Bool) (images : List ImageCheck) : Nat × State :=
  let take_ (s : State) : Nat × State :=
    if last then
      let e := setStatus s images
      (e, { s with sec := { s.sec with transfer := none, stagedImages := images, activatable := e == 0 } })
    else (0, { s with sec := { s.sec with transfer := some (path, off + len), activatable := false } })
  if 33554432 < off + len then (stValueOutOfRange, s)
  else match s.sec.transfer with
    | none => if off = 0 then take_ s else (stTypeMismatch, s)
    | some (p, n) =>
      if p ≠ path then (stNotReady, s)
      else if off = n then take_ s
      else if off = 0 then (if path = 1 then (stNotReady, s) else take_ s)
      else (stTypeMismatch, { s with sec := { s.sec with transfer := none } })
/-- The inactive bank, verified, becomes the active one from the next cast-on after valid input (R505). -/
def activateBank (s : State) : Nat × State :=
  if s.sec.activatable then (0, { s with sec := { s.sec with nextBank := some (1 - s.sec.activeBank) } }) else (stNotReady, s)

/-! The test multiplexer (R512). -/

/-- Bytes of SEC_TMUX_SEL that name a locked source. -/
def tmuxLocked (w : Nat) : List Nat := (List.range 8).filter (fun k => decide (0x20 ≤ bits w (8 * k + 7) (8 * k)))
/-- A selection is written; a locked source leaves its byte as it was, and a dictionary write as a whole. -/
def selectTmux (s : State) (w : Nat) (dictionary : Bool) : Nat × State :=
  let w := w % 2 ^ 64
  let bad := if s.sec.unlockLevel < 2 then tmuxLocked w else []
  if bad.isEmpty then (0, { s with sec := { s.sec with tmuxSel := w } })
  else
    let kept := bad.foldl (fun v k => putBits v (8 * k + 7) (8 * k) (bits s.sec.tmuxSel (8 * k + 7) (8 * k))) w
    (stLocked, { s with sec := { s.sec with
      lockReject := true
      lockRefused := s.sec.lockRefused + 1
      tmuxSel := if dictionary then s.sec.tmuxSel else kept } })
/-- The core that SEC_TMUX_ARG names. -/
def tmuxCore (s : State) : Nat := bits s.sec.tmuxArg 5 0
/-- READY is asserted (18 R459, 21 R518). -/
def readyPin (s : State) : Bool := s.power.powerState == 2 && s.power.stage == 5
/-- ALERT_N is asserted (18 R459, 21 R518). -/
def alertPin (s : State) : Bool :=
  s.power.powerState == 3 || s.power.powerState == 4
    || (s.power.stage != 15 && s.power.powerState != 0
      && (s.power.sag || s.power.thermal || s.power.chatter != 0 || s.power.stuck != 0 || s.power.failed))
/-- Level of TMUX_OUTk where its source is a level; pulses and codes whose level the manual
does not describe read low (log entry 59). -/
def tmuxOut (s : State) (k : Nat) : Bool :=
  let c := bits s.sec.tmuxSel (8 * k + 7) (8 * k)
  let x := core s (tmuxCore s)
  let up := coreActive s (tmuxCore s)
  if s.power.stage = 15 ∨ s.power.powerState = 0 then false
  else if c = 1 then bit (now s) 10
  else if c = 2 then readyPin s
  else if c = 3 then !alertPin s
  else if c = 4 then throttled s
  else if c = 5 then s.power.powerState == 3 || s.power.powerState == 4
  else if 8 ≤ c ∧ c < 11 then bit s.power.levels (c - 8)
  else if c = 11 then s.power.chatter != 0
  else if c = 0x20 then up && bit (coreReg s (tmuxCore s) CORE_STITCH_COUNT) 6
  else if c = 0x21 then up && x.stall.isSome
  else if c = 0x22 then up && shareOfInstant s (tmuxCore s) == 1
  else if c = 0x26 then (stack s (bits s.sec.tmuxArg 22 20)).retraining.isSome
  else false

/-! Debug unlocks (R510, R511). -/

/-- A fresh 48-octet nonce (free octets) replaces any earlier one. -/
def newNonce (s : State) : List Byte × State :=
  let r := (List.range 6).foldl (fun (a : List Byte × State) _ => let f := freshFree a.2
    (a.1 ++ leBytes 8 f.1, f.2)) ([], s)
  (r.1, { r.2 with sec := { r.2.sec with nonce := some r.1 } })
/-- A response is refused and consumes its nonce; refusals count to three. -/
def refuseUnlock (s : State) : Nat × State :=
  (stUnlockRefused, mgtEvent { s with sec := { s.sec with refusals := min 3 (s.sec.refusals + 1), nonce := none } } 0xC04 2 [])
/-- A response: after three refusals it is refused unchecked. -/
def unlockTry (s : State) (nonce : List Byte) (serial level duration : Nat) (signaturesOk : Bool) : Nat × State :=
  if s.sec.refusals = 3 then (stUnlockRefused, mgtEvent s 0xC04 2 [])
  else if s.sec.nonce = some nonce ∧ serial = Config.serial.toNat ∧ level ≤ 2 ∧ signaturesOk = true then
    (0, mgtEvent { s with sec := { s.sec with
      unlockLevel := level
      unlocks := s.sec.unlocks + 1
      unlockEnd := now s + duration * 10 ^ 9
      nonce := none } } 0xC03 1 [])
  else refuseUnlock s
/-- A response as it is written to 0x8030:02. -/
def unlockOctets (s : State) (v : List Byte) : Nat × State :=
  unlockTry s (v.take 48) (leNat ((v.drop 48).take 8)) (leNat ((v.drop 56).take 1)) (leNat ((v.drop 57).take 4))
    (decide (61 ≤ v.length) && Config.debugSignaturesOk (v.take 61) (v.drop 61))
/-- An unlock ends: outputs set to a locked source fall back to code 0x00. -/
def endUnlock (s : State) : State :=
  if s.sec.unlockLevel = 0 then s
  else mgtEvent { s with sec := { s.sec with
    unlockLevel := 0
    tmuxSel := (tmuxLocked s.sec.tmuxSel).foldl (fun v k => putBits v (8 * k + 7) (8 * k) 0) s.sec.tmuxSel } } 0xC05 1 []

/-! LMS leaves (R497, R498). -/

def lmsLeaves : Nat := 32768
/-- The identity LMS key has no leaf left: the event is raised once. -/
def checkIdentity (s : State) : State :=
  if s.sec.identityLeaf < lmsLeaves || s.sec.exhaustedRaised then s
  else mgtEvent { s with sec := { s.sec with exhaustedRaised := true } } 0xC07 2 []
/-- A new alias LMS key takes one leaf of the identity key for its certificate. -/
def newAlias (s : State) : State :=
  if s.sec.identityLeaf < lmsLeaves then
    checkIdentity { s with sec := { s.sec with identityLeaf := s.sec.identityLeaf + 1, aliasLeaf := 0 } }
  else checkIdentity s

/-! Measurements (R509) and signatures (R496). -/

/-- The 48 octets of the boot ROM's digest. -/
def romOctets : List Byte := (List.range 48).map Config.romDigest
/-- Digest of the header of the running image of a KIND. -/
def headerDigest (s : State) (kind : Nat) : List Byte := match s.sec.running.find? (fun i => i.kind.val == kind) with
  | some i => i.headerHash
  | none => []
/-- The digest of measurement block b, 1 to 11. -/
def measurement (s : State) (b : Nat) : List Byte :=
  if b = 1 then romOctets
  else if b ≤ 8 then headerDigest s (b - 1)
  else if b = 9 then sha384 ((List.range 64).map (fun c => BitVec.ofNat 8 (rollback s c)))
  else if b = 10 then configDigest s
  else sha384 (leBytes 1 s.sec.unlockLevel ++ leBytes 4 s.sec.unlocks)
/-- DMTF measurement value type of a block. -/
def measurementType (b : Nat) : Nat := if b = 1 then 0 else if b ≤ 8 then 1 else if b = 9 then 2 else if b = 10 then 3 else 5
/-- A block in DMTF measurement format. -/
def measurementBlock (s : State) (b : Nat) : List Byte :=
  leBytes 1 b ++ leBytes 1 1 ++ leBytes 2 51 ++ leBytes 1 (measurementType b) ++ leBytes 2 48 ++ measurement s b
/-- What the ECDSA alias key is derived from: the boot measurements. -/
def bootMeasure (s : State) : List Byte := sha384 ((List.range 8).flatMap (fun b => measurement s (b + 1)))
/-- The ECDSA alias signature over a hash, 96 octets. -/
def ecdsaAlias (s : State) (hash : List Byte) : List Byte :=
  (List.range 96).map (Config.signature (beNat (bootMeasure s) * 4 + 1) hash)
/-- The LMS alias signature over a hash with the leaf in hand, 2,668 octets (RFC 8554), and the certificate of the key. -/
def lmsAlias (s : State) (hash : List Byte) : List Byte :=
  (List.range 2668).map (Config.signature ((s.sec.identityLeaf * lmsLeaves + s.sec.aliasLeaf) * 4 + 2) hash)
    ++ (List.range 2668).map (Config.signature (s.sec.identityLeaf * 4 + 3) [])

end Sys2Proof.Machine
end

