-- ==== Sys2Proof/Machine/DictOps.lean ====
section
/-! DEFINITION. The values that objects of the dictionary read as, and the ranges that a write may take (00 to 21: the object tables; 19 R461
to R464, R468). -/

namespace Sys2Proof.Machine

/-! Counters that an object sums: registers by index, in the order of the subindices from 01. -/

def coreObjects (index : Nat) : List Nat := match index with
  | 0x9010 => [CORE_OVR_COUNT, CORE_OVR_NS, CORE_STALL_UNSCHED_NS]
  | 0x9011 => [CORE_NUM_SAT_COUNT, CORE_NUM_NAN_COUNT, CORE_NUM_INF_COUNT, CORE_NUM_SR_COUNT]
  | 0x9012 => [CORE_FMT_FAULT_COUNT]
  | 0x9013 => [CORE_LANE_SEG_COUNT, CORE_LANE_STEAL_COUNT, CORE_LANE_SPLIT_COUNT, CORE_LANE_STARVE_NS, CORE_MATCH_PROBE_COUNT,
      CORE_MATCH_SLOT_COUNT, CORE_MATCH_PAIR_COUNT, CORE_PACK_SLOT_COUNT, CORE_PACK_FILL_COUNT, CORE_CLAIM_COUNT, CORE_CLAIM_WAIT_NS]
  | 0x9014 => [CORE_ACC_UPDATE_COUNT, CORE_ACC_SPILL_COUNT, CORE_ACC_OVF_ROWS, CORE_ACC_BANK_WAIT_COUNT, CORE_ACC_FOREIGN_SENT,
      CORE_ACC_MERGE_NS, CORE_ACC_FOREIGN_WAIT_NS, CORE_ACC_BASE_WAIT_NS, CORE_ACC_REPLAY_COUNT]
  | 0x9015 => [CORE_RFU_ELEM_COUNT, CORE_CMP_IN_COUNT, CORE_CMP_NZ_COUNT, CORE_DROP_COUNT, CORE_PRED_TOKEN_COUNT, CORE_PRED_BLOCK_COUNT,
      CORE_PRED_SKIP_COUNT, CORE_PRED_BAND_COUNT, CORE_AUDIT_TOKEN_COUNT, CORE_AUDIT_INACTIVE_COUNT, CORE_AUDIT_MISS_COUNT,
      CORE_PRED_WIDEN_COUNT]
  | 0x9016 => [SPM_DET_WMEM_COUNT, SPM_DET_AMEM_COUNT, SPM_DET_PMEM_COUNT, SPM_RELOAD_COUNT, SPM_STEP_REPLAY_COUNT, SPM_GB_RMW_COUNT,
      SPM_NACK_COUNT, SPM_PWR_ABANDON_COUNT, SPM_SCRUB_COUNT, SPM_SB_WAIT_NS]
  | 0x9017 => [LOOP_REFUSE_COUNT, LOOP_SKIP_TILE_COUNT, LOOP_SELVEDGE_COUNT, LOOP_ZERO_BOUND_COUNT, LOOP_ZERO_FILL_ROWS, LOOP_SPAN_COUNT,
      LOOP_ISSUE_WAIT_NS]
  | 0x9018 => [FET_BYTES_READ, FET_BYTES_WRITTEN, FET_SMALL_XFER_COUNT, FET_CORR_EVENT_COUNT, FET_OVER_ALLOW_COUNT, FET_LATE_ISSUE_COUNT,
      FET_TAG_FULL_NS, FET_WASTE_BYTES, FET_CANCEL_COUNT]
  | 0x9019 => [QUE_PKT_IN_COUNT, QUE_DROP_PKT_COUNT, QUE_MARK_COUNT, QUE_WITHDRAW_COUNT, QUE_EMPTY_WAIT_NS]
  | 0x901A => [LCE_ELEM_COUNT, LCE_XPOSE_ROWS, LCE_IDX_COUNT, LCE_IDX_REPEAT_COUNT, LCE_IDX_COMBINE_COUNT, LCE_IDX_SKIP_COUNT,
      LCE_ACC_WRITE_COUNT]
  | _ => []

/-- The sum of a register over the active cores, for 0x9010 too, which 02 R58 calls a sum over cores: a fenced core's counts leave the sum
(log entry 86). -/
def coreSum (s : State) (o : Nat) : Nat := ((coresOf (activeMask s)).map (fun c => coreReg s c o)).sum
/-- The sum of a register over n instances. -/
def sumOver (s : State) (n : Nat) (off : Nat → Nat) : Nat := ((List.range n).map (fun k => reg s (off k))).sum
/-- A bit for each of n instances. -/
def maskOver (n : Nat) (f : Nat → Bool) : Nat := ((List.range n).map (fun k => b2n (f k) * 2 ^ k)).sum

/-- Objects of 0x901B to 0x9021 and 0x9032 by subindex. -/
def counterObject (s : State) (index sub : Nat) : Option Nat := match index, sub with
  | 0x9012, 2 => some s.hst.masksLoaded
  | 0x9012, 3 => some s.hst.masksRefused
  | 0x9013, 12 => some s.hst.laneAborts
  | 0x9014, 10 => some s.hst.accAborts
  | 0x9015, 13 => some s.hst.predSaturated
  | 0x9017, 8 => some s.hst.claimsDropped
  | 0x9018, 10 => some s.hst.schedInvalid
  | 0x901A, 8 => some s.hst.idxFaults
  | 0x901B, 1 => some (sumOver s 8 (fun k => mifOff k MIF_CRC_RETRY_COUNT))
  | 0x901B, 2 => some (sumOver s 8 (fun k => mifOff k MIF_ODECC_CORR_COUNT))
  | 0x901B, 3 => some (sumOver s 8 (fun k => mifOff k MIF_UNCORR_COUNT))
  | 0x901B, 4 => some (sumOver s 8 (fun k => mifOff k MIF_RETRAIN_NS))
  | 0x901B, 5 => some (sumOver s 4 (fun p => farOff p FAR_LINK_RETRY_COUNT))
  | 0x901B, 6 => some (sumOver s 4 (fun p => farOff p FAR_TIMEOUT_COUNT))
  | 0x901B, 7 => some s.cache.secded
  | 0x901B, 8 => some s.cache.double
  | 0x901B, 9 => some (coreSum s CORE_XLT_MISS_COUNT)
  | 0x901C, 1 => some (sumOver s 100 (fun d => rtrOff d MGT_RTR_RESEND_COUNT))
  | 0x901C, 2 => some (sumOver s 100 (fun d => rtrOff d MGT_RTR_DUP_COUNT))
  | 0x901C, 3 => some (sumOver s 100 (fun d => rtrOff d MGT_RTR_DETOUR_COUNT))
  | 0x901C, 4 => some (sumOver s 100 (fun d => rtrOff d MGT_RTR_HOP_RETRY_COUNT))
  | 0x901C, 5 => some (sumOver s 100 (fun d => rtrOff d MGT_RTR_NACK_COUNT))
  | 0x901D, 1 => some (sumOver s 16 (fun p => portOff p LNK_REPLAY_COUNT))
  | 0x901D, 2 => some (sumOver s 16 (fun p => portOff p LNK_FEC_CORR_COUNT))
  | 0x901D, 3 => some (sumOver s 16 (fun p => portOff p LNK_TX_BYTES))
  | 0x901D, 4 => some (sumOver s 16 (fun p => portOff p LNK_CTRL_FULL_NS))
  | 0x901D, 5 => some (sumOver s 16 (fun p => portOff p LNK_NACK_RX_COUNT))
  | 0x901D, 6 => some (sumOver s 8 (fun d => lnkOff d LNK_MERGE_OUT_ENTRIES))
  | 0x901D, 7 => some (sumOver s 8 (fun d => lnkOff d LNK_MCAST_DETACH_COUNT))
  | 0x901D, 8 => some s.divergenceEvents
  | 0x901E, 1 => some (reg s (hstOff HST_CPL_COUNT))
  | 0x901E, 2 => some (reg s (hstOff HST_REFUSE_COUNT))
  | 0x901E, 3 => some s.hst.cplCancelled
  | 0x901E, 4 => some (reg s (hstOff HST_POSTED_DROP_COUNT))
  | 0x901E, 5 => some s.hst.msixSent
  | 0x9020, 1 => some (reg s (llOff MGT_LL_COMMIT_COUNT))
  | 0x9020, 2 => some (reg s (llOff MGT_LL_SKIP_COUNT))
  | 0x9020, 3 => some (reg s (llOff MGT_LL_HOLD_NS))
  | 0x9020, 4 => some s.drawSkews
  | 0x9020, 5 => some s.correlatedArms
  | 0x9020, 6 => some (reg s (llOff MGT_LL_UNPROT_STEPS))
  | 0x9021, 1 => some (reg s (pwrOff MGT_SAG_WARN_COUNT))
  | 0x9021, 2 => some (reg s (pwrOff MGT_BINDOFF_COUNT))
  | 0x9021, 3 => some s.power.saves
  | 0x9021, 4 => some s.power.torn
  | 0x9021, 5 => some s.power.chatterCount
  | 0x9021, 6 => some s.power.clearRefused
  | 0x9021, 7 => some (reg s (pwrOff MGT_THROTTLE_NS))
  | 0x9030, 1 => some (bits (s.sat.record.getD 1 0) 7 0)
  | 0x9030, 3 => some s.sat.notSampled
  | 0x9032, 1 => some s.cache.refills
  | 0x9032, 2 => some s.cache.fills
  | 0x9040, 1 => some s.dict.eventSeq
  | 0x9040, 4 => some s.dict.overwritten
  | i, k => if 1 ≤ k ∧ k ≤ (coreObjects i).length then some (coreSum s ((coreObjects i).getD (k - 1) 0)) else none

/-- Entries of an activity's instances in a table of the background engine. -/
def ofActivity {α : Type} (t : Tab α) (a : Nat) : List α := (t.filter (fun p => p.1 / 2 ^ 20 == a)).map (·.2)
def maxOf (l : List Nat) : Nat := l.foldl max 0

/-- Status objects of 0x1000 to 0x8FFF and 0xA000 by subindex. An object of a block that is not yet up reads its reset value (R468). -/
def statusObject (s : State) (index sub : Nat) : Option Nat := match index, sub with
  | 0x1001, 2 => some (popcount 64 (s.pkg.enabled % 2 ^ 64))
  | 0x1001, 3 => some (activeCount s)
  | 0x1001, 4 => some (activeMask s)
  | 0x1001, 5 => some (b2n (belowGuarantee s))
  | 0x1002, 4 => some s.dict.tdpReceived
  | 0x1002, 5 => some s.dict.tdpDiscarded
  | 0x1010, 1 => some s.hst.linkMode
  | 0x1010, 2 => some s.hst.linkWidth
  | 0x1011, 2 => some s.hst.strands.length
  | 0x1020, 1 => some s.dict.epoch
  | 0x1020, 4 => some s.dict.armState
  | 0x1020, 8 => some s.dict.activated
  | 0x1021, 1 => some s.dict.divergent.length
  | 0x1040, 2 => some (unsigned 64 s.dict.masterOffset)
  | 0x2001, 1 => some (if s.power.stage = 15 then 255 else s.power.stage)
  | 0x2001, 2 => some s.power.powerState
  | 0x2001, 3 => some s.power.failStatus
  | 0x2010, 4 => if stageDone s 4 then some (maxOf ((coresOf (activeMask s)).map (effCeil s))) else none
  | 0x2012, 1 => some (now s)
  | 0x2012, 2 => some (b2n s.clock.refclkLost)
  | 0x2020, 2 => some s.power.busMv
  | 0x2020, 3 => some s.power.ibus
  | 0x2020, 4 => some s.power.pin
  | 0x2022, 1 => some s.power.highest
  | 0x2022, 4 => some s.power.inlet
  | 0x2022, 5 => some s.power.outlet
  | 0x2022, 6 => some s.power.flow
  | 0x2023, 1 => some s.power.levels
  | 0x2023, 2 => some s.power.chatter
  | 0x2023, 3 => some s.power.stuck
  | 0x2024, 1 => some (match newestSave s with
      | some x => x.seq
      | none => 0)
  | 0x2025, 1 => some s.power.slotId
  | 0x2025, 2 => some Config.bankCapacitance
  | 0x2025, 3 => some (maxOf ((s.wear.filter (fun p => decide (p.1 < 4096))).map (·.2)))
  | 0x3010, 3 => if stageDone s 3 then some (stacksUp s) else none
  | 0x3020, 2 => some (farsUp s)
  | 0x3030, 1 => some s.cache.poisoned.length
  | 0x3040, 1 => some s.cache.hostBias.length
  | 0x3040, 2 => some s.hst.hostBiasAccess
  | 0x4010, 3 => some s.pkg.routeEpoch
  | 0x4010, 5 => some s.pkg.routersFenced.length
  | 0x4010, 6 => some s.pkg.connDown.length
  | 0x4010, 7 => some shippedRouters.length
  | 0x4030, 2 => some s.hst.masks.length
  | 0x4060, 2 => some (s.counters.filter (fun p => p.2.armed)).length
  | 0x4060, 3 => some s.hst.counterWaitNs
  | 0x5010, 1 => some (maskOver 16 (fun p => (port s p).state == 3))
  | 0x5010, 3 => some (maskOver 16 (fun p => (port s p).divergent))
  | 0x5010, 4 => some (maskOver 16 (fun p => (port s p).dx8))
  | 0x6003, 4 => some (objNat s 0x301004)
  | 0x6007, 4 => some 0
  | 0x7001, 1 => some s.power.feedId
  | 0x7010, 2 => some (s.lifelines.filter (fun p => p.2.role == 1 && p.2.state == 2)).length
  | 0x7010, 3 => some (s.lifelines.filter (fun p => p.2.role == 2)).length
  | 0x7010, 4 => some (s.lifelines.filter (fun p => p.2.role == 1 && p.2.state == 3)).length
  | 0x8010, 4 => some s.sec.activeBank
  | 0x8020, 1 => some (lmsLeaves - s.sec.aliasLeaf)
  | 0x8020, 2 => some (lmsLeaves - s.sec.identityLeaf)
  | 0x8030, 4 => some s.sec.unlockLevel
  | 0xA001, 1 => some s.sec.tmuxSel
  | 0xA001, 2 => some s.sec.lockRefused
  | i, k =>
    if i = 0x8001 ∧ 1 ≤ k ∧ k ≤ 64 then some (rollback s (k - 1))
    else if 0x6001 ≤ i ∧ i ≤ 0x6007 ∧ 9 ≤ k ∧ k ≤ 13 then
      let a := i - 0x6000
      some (if k = 9 then maxOf (ofActivity s.bg.tier a) else if k = 10 then maxOf (ofActivity s.bg.lag a)
        else if k = 11 then (ofActivity s.bg.units a).sum else if k = 12 then (ofActivity s.bg.loss a).sum else (ofActivity s.bg.criticals a).sum)
    else none

/-- The order number as a string (00 R2). -/
def orderName : List Byte :=
  ((if Config.orderCode = 1 then "DX9-M64F" else if Config.orderCode = 2 then "DX9-M48G" else "DX9-M32G").toList).map
    (fun c => BitVec.ofNat 8 c.toNat)

/-- Octet objects that a state shows; `none` for the others. -/
def octetObject (s : State) (key : Nat) : Option (List Byte) :=
  if key = 0x100101 then some orderName
  else if key = 0x100201 then some ((List.range 6).map Config.mac)
  else if key = 0x102005 then some (configDigest s)
  else if key = 0x102006 then some (stagedDigest s)
  else if key = 0x202403 then some (match newestSave s with
    | some x => (List.range 512).flatMap (fun w => leBytes 8 (imageWord x (objNat s 0x202402 * 512 + w)))
    | none => zeros 4096)
  else if key = 0x903002 then some (s.sat.record.flatMap (leBytes 8))
  else if key = 0x904003 then some ((List.range 64).flatMap (fun k => (slotWords s (objNat s 0x904002 * 64 + k)).flatMap (leBytes 8)))
  else none

/-- The value of an object as a read returns it (R463). -/
def objValue (s : State) (o : Obj) : List Byte :=
  match octetObject s o.key with
  | some l => l
  | none => match statusObject s (o.key / 256) (o.key % 256), counterObject s (o.key / 256) (o.key % 256) with
    | some n, _ => leBytes o.size n
    | none, some n => leBytes o.size n
    | none, none => objBytes s o.key

/-! Objects that exist, subindex 0 included (R461). -/

/-- Highest subindex of an index, none where the index is not in use. -/
def highestSub (index : Nat) : Option Nat :=
  (objects.filter (fun o => o.key / 256 == index)).foldl (fun m o => some (max (m.getD 0) (o.key % 256))) none
/-- The object with a key. -/
def dictObj (key : Nat) : Option Obj :=
  if key % 256 = 0 then (highestSub (key / 256)).map (fun n => { key := key, type := 2, size := 1, access := .ro, default_ := n })
  else findObj key
/-- Its value. -/
def dictValue (s : State) (o : Obj) : List Byte := if o.key % 256 = 0 then leBytes 1 o.default_ else objValue s o
/-- The least key of an existing object above a key (R540). -/
def nextKey (k : Nat) : Option Nat :=
  (objects.flatMap (fun o => [o.key / 256 * 256, o.key])).foldl (fun m x =>
    if x ≤ k then m else match m with
      | some y => some (min x y)
      | none => some x) none

/-! Ranges (R463). -/

/-- Each 2-bit field of 0x5010:02 is 0 to 2, and nothing lies above the sixteen. -/
def portModesOk (n : Nat) : Bool := decide (n < 2 ^ 32) && (List.range 16).all (fun p => bits n (2 * p + 1) (2 * p) != 3)
def inRange (lo hi n : Nat) : Bool := decide (lo ≤ n ∧ n ≤ hi)
/-- Whether a value lies in its object's range. -/
def rangeOk (key n : Nat) : Bool :=
  if key = 0x100202 then n != 0
  else if key = 0x100301 then inRange 1 1000 n
  else if key = 0x100402 then inRange 0 3 n
  else if key = 0x201001 ∨ key = 0x201003 then inRange 400 1600 n && n % 25 == 0
  else if key = 0x201102 ∨ key = 0x201103 ∨ key = 0x201104 then inRange 0 100 n
  else if key = 0x202001 then inRange 1500 6000 n
  else if key = 0x202304 then inRange 1 3600 n
  else if key = 0x202402 then inRange 0 511 n
  else if key = 0x301001 then n == 28 || n == 32 || n == 36
  else if key = 0x301004 then inRange 1 3600 n
  else if key = 0x302001 then inRange 10 10000 n
  else if key = 0x401001 then inRange 500 100000 n
  else if key = 0x401002 then inRange 200 10000 n
  else if key = 0x405001 then inRange 1 10000 n
  else if key = 0x405002 then inRange 100 1000000 n
  else if key = 0x407006 then inRange 1 1000 n
  else if key = 0x500101 then inRange 0 4095 n
  else if key = 0x501002 then portModesOk n
  else if key = 0x501005 then inRange 1 1000 n
  else if key = 0x503002 then inRange 10 10000 n
  else if key = 0x701001 then n != 0
  else if key = 0x900001 then inRange 1 100 n
  else if 0x900101 ≤ key ∧ key ≤ 0x90010A then n != 0
  else if key = 0x904002 then inRange 0 95 n
  else if 0x600100 ≤ key ∧ key < 0x600800 ∧ 5 ≤ key % 256 ∧ key % 256 ≤ 7 then inRange 1 100 n
  else true

/-! Heartbeats (R471). -/

/-- Words 0 to 2 of the body. -/
def heartbeatWords (s : State) : List Nat :=
  [ownDev s % 4096 + s.power.slotId % 256 * 2 ^ 12 + s.power.feedId % 16 * 2 ^ 20 + s.power.stage % 16 * 2 ^ 24 + s.power.powerState % 8 * 2 ^ 28
    + b2n (alertPin s) * 2 ^ 31 + s.dict.epoch % 2 ^ 32 * 2 ^ 32, now s, s.dict.eventSeq % 2 ^ 32]
/-- A heartbeat goes to the group address; before stage 0 the device sends nothing. -/
def sendHeartbeat (s : State) : State :=
  if s.power.stage = 15 then s
  else emit { s with dict := { s.dict with heartbeats := s.dict.heartbeats + 1, tdpSeq := s.dict.tdpSeq + 1 } }
    (.heartbeat (heartbeatWords s) (configDigest s))

end Sys2Proof.Machine
end

