-- ==== Sys2Proof/Machine/Background.lean ====
section
/-! DEFINITION. Background work under its budgets (19 R485 to R490) and saturation telemetry (19 R491 to R493, 22 R532). -/

namespace Sys2Proof.Machine

/-! Activities: 1 scrub of a channel, 2 weight scrub of a core, 3 retraining of a channel, 4 eye scans of a port, 5 aging sweep of a core, 6 wear
levelling, 7 telemetry (R485). -/

/-- Object n of activity a. -/
def bgObj (a n : Nat) : Nat := (0x6000 + a) * 256 + n
def bgKey (a i : Nat) : Nat := a * 2 ^ 20 + i
/-- Instances of an activity's resource. -/
def bgInstances (a : Nat) : Nat := match a with
  | 1 => 384 | 2 => 64 | 3 => 384 | 4 => 16 | 5 => 64 | _ => 1
/-- Rows of the weight regions that a core holds a home for (08 R222). -/
def homeRows (s : State) (c : Nat) : Nat := ((List.range 64).map (fun r => if regionHome s c 0 r then regionLen s c 0 r else 0)).sum
/-- Work units that an instance owes in one target period. -/
def bgUnits (s : State) (a i : Nat) : Nat := match a with
  | 1 => 3145728 | 2 => homeRows s i | 4 => 8 | _ => 1
/-- The target period in ms. -/
def bgPeriod (s : State) (a : Nat) : Nat := match a with
  | 3 => objNat s 0x301004 * 1000
  | 7 => objNat s 0x900001
  | a => objNat s (bgObj a 4) * 1000
/-- The cast-on stage that an activity's resource needs (R490). -/
def bgStage (a : Nat) : Nat := match a with
  | 1 => 3 | 2 => 4 | 3 => 3 | 4 => 5 | 5 => 4 | _ => 0
/-- An activity runs: it is enabled, its stage has completed, and no bind-off has begun. -/
def bgRuns (s : State) (a : Nat) : Bool := objNat s (bgObj a 8) == 1 && stageDone s (bgStage a) && !s.power.bindoff
/-- The share that a tier allows ahead of the foreground, % (R487). -/
def bgShare (s : State) (a tier : Nat) : Nat := match tier with
  | 0 => 0 | 1 => objNat s (bgObj a 1) | 2 => objNat s (bgObj a 2) | _ => objNat s (bgObj a 3)
/-- A lag of p percent of the target period, as a debt. -/
def debtAt (u p : Nat) : Int := ((u * p * 10 ^ 16 : Nat) : Int)
/-- The tier that a debt gives, from the tier held (R487). -/
def urgency (s : State) (a u cur : Nat) (debt : Int) : Nat :=
  let holds (t : Nat) : Bool :=
    let th := debtAt u (objNat s (bgObj a (4 + t)))
    decide (th ≤ debt) || (decide (t ≤ cur) && decide (th ≤ 2 * debt))
  if holds 3 then 3 else if holds 2 then 2 else if holds 1 then 1 else 0

/-! Service within a period (R486, R488). -/

/-- The ceiling of a tier, %. -/
def bgCap (s : State) (a tier : Nat) : Nat := objNat s (bgObj a (if tier = 3 then 3 else 2))
/-- The resource that an instance of an activity is: scrubs and retrainings share a channel. -/
def bgResource (a i : Nat) : Nat := bgKey (if a = 3 then 1 else a) i
def useId (x : BgUse) : Nat := x.activity.val + 1
def useTier (s : State) (x : BgUse) : Nat := tget 0 s.bg.tier (bgKey (useId x) x.inst)
/-- The order of service: retrainings that run at once, then the higher tier, and within a tier the lower ID (R488, R490). -/
def bgOrder (s : State) (uses : List BgUse) : List BgUse :=
  uses.filter (·.forced) ++ [3, 2, 1, 0].flatMap (fun τ => ((List.range 7).map (· + 1)).flatMap (fun a =>
    uses.filter (fun x => !x.forced && useId x == a && useTier s x == τ)))
/-- What a use was served: its units, and how many of them ahead of the foreground. -/
structure BgServed where
  use : BgUse
  done : Nat
  ahead : Nat
  deriving DecidableEq, Repr
/-- ns that an instance of an activity, or a resource, has been held. -/
def heldNs (l : List BgServed) (p : BgServed → Bool) : Nat := ((l.filter p).map (fun x => x.done * x.use.unitNs)).sum
def aheadNs (l : List BgServed) (p : BgServed → Bool) : Nat := ((l.filter p).map (fun x => x.ahead * x.use.unitNs)).sum
def ofInstance (a i : Nat) (x : BgServed) : Bool := useId x.use == a && x.use.inst == i
def ofResource (k : Nat) (x : BgServed) : Bool := bgResource (useId x.use) x.use.inst == k
/-- Units of n that fit in a rest of ns. -/
def fits (n unit rest : Nat) : Nat := if unit = 0 then n else min n (rest / unit)
/-- One use is served behind those before it: within the tier's allowance ahead of the foreground, beyond it only while no foreground
request waits, up to the ceiling; the rest waits for the next period (R486, R488; log entry 82). -/
def serveUse (s : State) (l : List BgServed) (x : BgUse) : List BgServed :=
  if x.forced then l ++ [{ use := x, done := x.units, ahead := x.units }]
  else
    let a := useId x
    let mine := ofInstance a x.inst
    let room := 100000 - heldNs l (ofResource (bgResource a x.inst))
    let ahead := fits x.units x.unitNs (min room (1000 * bgShare s a (useTier s x) - aheadNs l mine))
    let idle := if x.waiting then 0
      else fits (x.units - ahead) x.unitNs (min (room - ahead * x.unitNs) (1000 * bgCap s a (useTier s x) - heldNs l mine - ahead * x.unitNs))
    l ++ [{ use := x, done := ahead + idle, ahead := ahead }]
def bgServe (s : State) (uses : List BgUse) : List BgServed := (bgOrder s (uses.filter (fun x => bgRuns s (useId x)))).foldl (serveUse s) []

/-- What an instance owes at a period boundary: what it owed, a period's share more, and what was done less (R487). -/
def bgDebt (s : State) (a i done : Nat) : Int :=
  tget 0 s.bg.debt (bgKey a i) + ((bgUnits s a i * 10 ^ 17 / bgPeriod s a : Nat) : Int) - ((done * 10 ^ 18 : Nat) : Int)
/-- Work units done by an instance; a retraining that ran whatever the budget is none (R490). -/
def bgDone (s : State) (uses : List BgUse) (a i : Nat) : Nat :=
  (((bgServe s uses).filter (fun x => ofInstance a i x && !x.use.forced)).map (·.done)).sum
/-- ns that an instance held its resource while a foreground request waited (R489). -/
def bgLoss (s : State) (uses : List BgUse) (a i : Nat) : Nat := heldNs (bgServe s uses) (fun x => ofInstance a i x && x.use.waiting)
/-- The tier of an instance that owes so much. -/
def bgTier (s : State) (a i : Nat) (debt : Int) : Nat :=
  if bgUnits s a i = 0 then 0 else urgency s a (bgUnits s a i) (tget 0 s.bg.tier (bgKey a i)) debt

/-- One instance at a period boundary, by the state b at the boundary: what it owes for the period, what it did, its tier and its losses
(R487, R489). -/
def bgInstance (b s : State) (uses : List BgUse) (a i : Nat) : State :=
  let k := bgKey a i
  let u := bgUnits b a i
  let cur := tget 0 b.bg.tier k
  let debt := bgDebt b a i (bgDone b uses a i)
  let tier := bgTier b a i debt
  let lag := if u = 0 then 0 else debt.toNat * bgPeriod b a / (u * 10 ^ 18)
  let s := { s with bg := { s.bg with
    debt := tset s.bg.debt k debt
    tier := tset s.bg.tier k tier
    units := tset s.bg.units k (tget 0 b.bg.units k + bgDone b uses a i)
    loss := tset s.bg.loss k (tget 0 b.bg.loss k + bgLoss b uses a i)
    criticals := tset s.bg.criticals k (tget 0 b.bg.criticals k + (if tier = 3 ∧ cur ≠ 3 then 1 else 0))
    lag := tset s.bg.lag k lag } }
  if tier = 3 ∧ cur ≠ 3 ∧ tget 0 b.bg.criticals k = 0 then mgtEvent s 0xB04 1 [a, i] else s

/-- BACKGROUND_PERIOD (R486 to R489): once 100 µs of REFTIME have passed, what the activities had ready is served and accounted. -/
def execBackgroundPeriod (uses : List BgUse) (s : State) : Result :=
  .next (if now s < s.bg.lastPeriod + 100000 then s else
    let b := s
    let s := { s with bg := { s.bg with lastPeriod := now s } }
    each ((List.range 7).map (· + 1)) s (fun s a =>
      if bgRuns b a then each (List.range (bgInstances a)) s (fun s i => bgInstance b s uses a i) else s))

/-- AGING_MONITOR_SWEEP (R485): each monitor of the core changes between stressed and relaxed duty. -/
def execAgingMonitorSweep (c : CoreId) (s : State) : Result :=
  .next (if bgRuns s 5 then { s with wear := tset s.wear (4096 + c) (tget 0 s.wear (4096 + c) + 1) } else s)
/-- EYE_MONITOR_SCAN (R485): LNK_EYE_MARGIN shows the worst lane. -/
def execEyeMonitorScan (p : PortId) (lane : Fin 8) (margin : BitVec 16) (s : State) : Result :=
  .next (
    if bgRuns s 4 && (port s p).state == 3 then
      let s := updPort s p (fun x => { x with eyes := tset x.eyes lane margin.toNat })
      setReg s (portOff p LNK_EYE_MARGIN) ((port s p).eyes.foldl (fun m e => min m e.2) 0xFFFF)
    else s)
/-- MRAM_WEAR_LEVEL (R485, R490): a block is moved. -/
def execMramWearLevel (block : Fin 4096) (s : State) : Result :=
  .next (if bgRuns s 6 then { s with wear := tset s.wear block (tget 0 s.wear block + 1) } else s)

/-! Saturation telemetry. -/

/-- TELEMETRY_SAMPLE (R493): a window that could not be sampled is counted. -/
def execTelemetrySample (sampled : Bool) (s : State) : Result :=
  .next (if sampled then s else { s with sat := { s.sat with notSampled := s.sat.notSampled + 1 } })
/-- SATURATION_SUBPERIOD (R491): the measures of codes 1 to 10, and whether the thermal throttle source is present. -/
def execSaturationSubperiod (measures : List Measure) (s : State) : Result :=
  let none_ : Measure := { value := 0, inst := 0 }
  let heat : Measure := { value := b2n s.power.thermal, inst := 99 }
  .next (if now s < s.sat.since + 100000 then s else { s with sat := { s.sat with
    since := now s
    subperiods := s.sat.subperiods ++ [(measures ++ List.replicate 10 none_).take 10 ++ [heat]] } })

/-- The threshold of a code. -/
def satThreshold (s : State) (c : Nat) : Nat := if c = 11 then 1 else objNat s (0x900100 + c)
/-- A measure of a sub-period. -/
def satMeasure (l : List Measure) (c : Nat) : Measure := l.getD (c - 1) { value := 0, inst := 0 }
/-- Codes saturated in a sub-period. -/
def satCodes (s : State) (l : List Measure) : List Nat :=
  ((List.range 11).map (· + 1)).filter (fun c => decide (satThreshold s c ≤ (satMeasure l c).value))
/-- Codes that may be FIRST (22 R532). -/
def satChoices (cs : List Nat) : List Nat :=
  cs.filter (fun c => !(c == 7 && (cs.contains 1 || cs.contains 2 || cs.contains 8)) && !(c == 6 && (cs.contains 3 || cs.contains 11)))
/-- The code of the largest ratio of measure to threshold, the lower one where two tie (R492). -/
def satWorst (s : State) (l : List Measure) (cs : List Nat) : Nat :=
  cs.foldl (fun b c => if b = 0 then c
    else if (satMeasure l b).value * satThreshold s c < (satMeasure l c).value * satThreshold s b then c else b) 0
/-- The first sub-period of a window in which a code is saturated, with its number. -/
def satHit (s : State) : Option (List Measure × Nat) := s.sat.subperiods.zipIdx.find? (fun p => !(satCodes s p.1).isEmpty)
/-- The first-saturated resource of a window, 0 where there is none (R492, 22 R532). -/
def satFirst (s : State) : Nat := match satHit s with
  | some p => satWorst s p.1 (satChoices (satCodes s p.1))
  | none => 0
/-- Word 1 of the record: FIRST, its sub-period, its measure and instance, and the codes saturated in the window. -/
def satWord (s : State) : Nat :=
  let mask := (((List.range 11).map (· + 1)).map (fun c => b2n (s.sat.subperiods.any (fun x => (satCodes s x).contains c)) * 2 ^ c)).sum
  match satHit s with
  | some p => satFirst s + p.2 % 256 * 2 ^ 8 + min 255 (satMeasure p.1 (satFirst s)).value * 2 ^ 16 + (satMeasure p.1 (satFirst s)).inst.toNat * 2 ^ 24 + mask * 2 ^ 32
  | none => mask * 2 ^ 32
/-- Windows in a row that a FIRST has held, this one among them. -/
def satHeld (s : State) : Nat := if satFirst s = s.sat.first then s.sat.held + 1 else 1
/-- A FIRST that changed and held for ten windows is told of, once in 100 ms at most (R493). -/
def satTells (s : State) : Bool :=
  satFirst s != s.sat.reported && decide (10 ≤ satHeld s) && (match s.sat.lastEvent with
    | none => true
    | some t => decide (t + 10 ^ 8 ≤ now s))
/-- SATURATION_WINDOW_END (R492, R493): the record, and the event of a first-saturated code that changed and held for ten windows. -/
def execSaturationWindowEnd (s : State) : Result :=
  let old := s.sat.reported
  let f := satFirst s
  let tell := satTells s
  let s := { s with
    sat := { s.sat with
      subperiods := []
      first := f
      record := [now s, satWord s, 0, 0]
      held := satHeld s
      reported := if tell then f else old
      lastEvent := if tell then some (now s) else s.sat.lastEvent }
    cache := { s.cache with evicted := [] } }
  .next (if tell then mgtEvent s 0xB05 1 [old, f] else s)

end Sys2Proof.Machine
end

