-- ==== Sys2Proof/Machine/Chain.lean ====
section
/-! DEFINITION. The chain's own transport, and configuration and event messages (14 R356, R357; 19 R474, R475). -/

namespace Sys2Proof.Machine

/-! Transport (14 R356, R357). -/

/-- CHAIN_ACK (14 R356): the source lets go of the message. -/
def execChainAck (die peer : DieId) (seq : Fin 1024) (s : State) : Result :=
  .next { s with net := { s.net with chain := s.net.chain.filter (fun m => !(m.src == die.val && m.dst == peer.val && m.seq == seq.val)) } }

/-- CHAIN_RESEND_TIMEOUT (14 R356): a message unacknowledged for the time in 0x4010:02 goes out once more, behind those that wait; the count of resends is of
bulk packets only. -/
def execChainResendTimeout (src dst : DieId) (seq : Fin 1024) (s : State) : Result :=
  let mine (m : ChainSend) : Bool := m.src == src.val && m.dst == dst.val && m.seq == seq.val
  let due (m : ChainSend) : Bool := mine m && decide (m.sentAt + objNat s 0x401002 ≤ now s)
  .next { s with net := { s.net with chain := s.net.chain.filter (fun m => !due m) ++ (s.net.chain.filter due).map (fun m => { m with sentAt := now s }) } }

/-- RESERVED_CHAIN_MESSAGE (14 R357): discarded and counted. -/
def execReservedChainMessage (f : Frame) (die : DieId) (type : BitVec 6) (s : State) : Result :=
  .next (onChain die f s (fun s =>
    if type.toNat = 0 ∨ 0x0D ≤ type.toNat then bump s (rtrOff die MGT_RTR_DUP_COUNT) 1 else s))

/-! Objects that other dies hold (19 R474). -/

/-- The key of an object at a die. -/
def dieKey (die key : Nat) : Nat := die * 2 ^ 24 + key
/-- The octets of an object as a die holds them. -/
def dieObj (s : State) (die key : Nat) : List Byte := (tfind s.dict.remote (dieKey die key)).getD (objBytes s key)
def objKey (index : BitVec 16) (sub : Byte) : Nat := index.toNat * 256 + sub.toNat
/-- A 4-byte part of a value replaced. -/
def setPart (l : List Byte) (part : Nat) (v : Nat) : List Byte :=
  let l := l ++ zeros (4 * part - l.length)
  l.take (4 * part) ++ leBytes 4 v ++ l.drop (4 * part + 4)

/-- CONFIG_WRITE at a die: the part is stored, and done answers. -/
def execConfigWrite (f : Frame) (die : DieId) (index : BitVec 16) (sub : Byte) (part : BitVec 4) (value : BitVec 32) (s : State) : Result :=
  .next (onChain die f s (fun s =>
    let k := objKey index sub
    let s := { s with dict := { s.dict with
      remote := tset s.dict.remote (dieKey die k) (setPart (dieObj s die k) part.toNat value.toNat) } }
    sendChain s die f.src (.config 4 index.toNat sub.toNat part.toNat 0)))
/-- CONFIG_READ at a die: data answers with the part. -/
def execConfigRead (f : Frame) (die : DieId) (index : BitVec 16) (sub : Byte) (part : BitVec 4) (s : State) : Result :=
  .next (onChain die f s (fun s =>
    let v := leNat (((dieObj s die (objKey index sub)).drop (4 * part.toNat)).take 4)
    sendChain s die f.src (.config 3 index.toNat sub.toNat part.toNat v)))
/-- The key of an answer: die, object, part. -/
def answerKey (die key part : Nat) : Nat := dieKey die key * 16 + part
/-- CONFIG_DATA at the management die. -/
def execConfigData (f : Frame) (index : BitVec 16) (sub : Byte) (part : BitVec 4) (value : BitVec 32) (s : State) : Result :=
  .next (onChain mgtDie f s (fun s =>
    { s with dict := { s.dict with answers := tset s.dict.answers (answerKey f.src (objKey index sub) part.toNat) value.toNat } }))
/-- CONFIG_DONE at the management die; an answer of 2^32 stands for done. -/
def execConfigDone (f : Frame) (index : BitVec 16) (sub : Byte) (part : BitVec 4) (s : State) : Result :=
  .next (onChain mgtDie f s (fun s =>
    { s with dict := { s.dict with answers := tset s.dict.answers (answerKey f.src (objKey index sub) part.toNat) (2 ^ 32) } }))

/-- FREEZE at a die (R480): the die holds the epoch's number as its armed one. -/
def execFreeze (f : Frame) (die : DieId) (epoch : BitVec 32) (s : State) : Result :=
  .next (onChain die f s (fun s =>
    { s with dict := { s.dict with remote := tset s.dict.remote (dieKey die 0x102002) (leBytes 4 epoch.toNat) } }))
/-- ACTIVATE at a die (R481): the die applies its frozen values; EPOCH there is the new one. -/
def execActivate (f : Frame) (die : DieId) (epoch : BitVec 32) (s : State) : Result :=
  .next (onChain die f s (fun s =>
    { s with dict := { s.dict with remote := tset (tdel s.dict.remote (dieKey die 0x102002)) (dieKey die 0x102001) (leBytes 4 epoch.toNat) } }))

/-! Events (19 R474, R475). -/

/-- The record that a message in flight stands for. -/
def eventInFlight (s : State) (f : Frame) : Option Event :=
  s.net.chain.findSome? (fun m => if m.src = f.src.val ∧ m.dst = mgtDie ∧ m.seq = f.seq.val then (match m.msg with
    | .event e => some e
    | _ => none) else none)
/-- EVENT at the management die: the record is formed, logged and delivered. A message that carries CODE 0xFFFF adds an argument to the
newest record of its die. -/
def execEvent (f : Frame) (code : BitVec 16) (severity : BitVec 2) (arg : BitVec 46) (s : State) : Result :=
  .next (onChain mgtDie f s (fun s => match eventInFlight s f with
    | some e => logEvent s e
    | none =>
      if code = 0xFFFF#16 then
        let slot := (s.dict.eventSeq - 1) % 6144
        match tfind s.dict.events slot with
        | some e => if e.die = f.src.val then { s with dict := { s.dict with events := tset s.dict.events slot { e with args := e.args ++ [arg.toNat] } } } else s
        | none => s
      else logEvent s { code := code.toNat, severity := severity.toNat, die := f.src, time := now s, throttled := throttled s, args := [arg.toNat] }))

end Sys2Proof.Machine
end

