-- ==== Sys2Proof/Machine/Clears.lean ====
section
/-! DEFINITION. The registers that clear counters: bit 0 of each returns its table's range to the reset values (02 to 20, the register tables). -/

namespace Sys2Proof.Machine

/-- A write to a CLEAR register whose bit 0 clears the offsets lo to hi. -/
def clearBy (s : State) (value : Word) (lo hi : Nat) : State := if bit value.toNat 0 then clearRegs s lo hi else s

/-- CORE_PACE_CLEAR (02). CORE_STITCH_COUNT is not cleared. -/
def execCorePaceClear (c : CoreId) (value : Word) (s : State) : Result :=
  .next (clearBy s value (coreOff c CORE_STALL_SCHED_NS) (coreOff c CORE_OVR_NS))
/-- CORE_NUM_CLEAR (03). -/
def execCoreNumClear (c : CoreId) (value : Word) (s : State) : Result :=
  .next (clearBy s value (coreOff c CORE_NUM_SAT_COUNT) (coreOff c CORE_NUM_SR_COUNT))
/-- CORE_FMT_CLEAR (04). -/
def execCoreFmtClear (c : CoreId) (value : Word) (s : State) : Result :=
  .next (clearBy s value (coreOff c CORE_FMT_FAULT_COUNT) (coreOff c CORE_FMT_LAST_FAULT))
/-- CORE_LANE_CLEAR (05). -/
def execCoreLaneClear (c : CoreId) (value : Word) (s : State) : Result :=
  .next (clearBy s value (coreOff c CORE_LANE_SEG_COUNT) (coreOff c CORE_LANE_LAST_FAULT))
/-- CORE_ACC_CLEAR (06). -/
def execCoreAccClear (c : CoreId) (value : Word) (s : State) : Result :=
  .next (clearBy s value (coreOff c CORE_ACC_UPDATE_COUNT) (coreOff c CORE_ACC_LAST_GROUP))
/-- CORE_RFU_CLEAR (07). -/
def execCoreRfuClear (c : CoreId) (value : Word) (s : State) : Result :=
  .next (clearBy s value (coreOff c CORE_RFU_ELEM_COUNT) (coreOff c CORE_PRED_WIDEN_COUNT))
/-- SPM_CLEAR (08): bit 1 clears CFG_REJECT. -/
def execSpmClear (c : CoreId) (value : Word) (s : State) : Result :=
  let s := clearBy s value (coreOff c SPM_DET_WMEM_COUNT) (coreOff c SPM_PWR_ABANDON_COUNT)
  .next (if bit value.toNat 1 then updCore s c (fun x => { x with cfgReject := false }) else s)
/-- LOOP_CLEAR (09): LOOP_LAST_REFUSE then reads its reset value. -/
def execLoopClear (c : CoreId) (value : Word) (s : State) : Result :=
  .next (clearBy s value (coreOff c LOOP_REFUSE_COUNT) (coreOff c LOOP_ISSUE_WAIT_NS))
/-- FET_CLEAR (10). -/
def execFetClear (c : CoreId) (value : Word) (s : State) : Result :=
  .next (clearBy s value (coreOff c FET_TAG_ISSUE_COUNT) (coreOff c FET_CANCEL_COUNT))
/-- QUE_CLEAR (11). -/
def execQueClear (c : CoreId) (value : Word) (s : State) : Result :=
  .next (clearBy s value (coreOff c QUE_PKT_IN_COUNT) (coreOff c QUE_FULL_WAIT_NS))
/-- LCE_CLEAR (12). -/
def execLceClear (c : CoreId) (value : Word) (s : State) : Result :=
  .next (clearBy s value (coreOff c LCE_ELEM_COUNT) (coreOff c LCE_LAST_FAULT))
/-- MIF_CLEAR (13): MIF_POISON_COUNT stays. -/
def execMifClear (k : StackId) (value : Word) (s : State) : Result :=
  .next (clearBy (clearBy s value (mifOff k MIF_CRC_RETRY_COUNT) (mifOff k MIF_RETRAIN_NS)) value (mifOff k MIF_BYTES_READ) (mifOff k MIF_LAST_ERROR))
/-- FAR_CLEAR (13). -/
def execFarClear (p : FarPort) (value : Word) (s : State) : Result :=
  .next (clearBy s value (farOff p FAR_LINK_RETRY_COUNT) (farOff p FAR_BYTES_WRITTEN))
/-- CORE_XLT_CLEAR (13). -/
def execCoreXltClear (c : CoreId) (value : Word) (s : State) : Result :=
  .next (clearBy s value (coreOff c CORE_XLT_MISS_COUNT) (coreOff c CORE_XLT_FAULT_COUNT))
/-- MGT_RTR_CLEAR (14). -/
def execMgtRtrClear (d : DieId) (value : Word) (s : State) : Result :=
  .next (clearBy s value (rtrOff d MGT_RTR_FWD_BYTES) (rtrOff d MGT_RTR_NACK_COUNT))
/-- LNK_PORT_CLEAR (15). -/
def execLnkPortClear (p : PortId) (value : Word) (s : State) : Result :=
  .next (clearBy s value (portOff p LNK_FEC_CORR_COUNT) (portOff p LNK_CTRL_BAD_COUNT))
/-- LNK_DIE_CLEAR (15). -/
def execLnkDieClear (d : LnkDie) (value : Word) (s : State) : Result :=
  .next (clearBy s value (lnkOff d LNK_STRAND_MISS_COUNT) (lnkOff d LNK_LOST_BYTES))
/-- HST_CLEAR (16). -/
def execHstClear (value : Word) (s : State) : Result := .next (clearBy s value (hstOff HST_TASK_COUNT) (hstOff HST_CFG_REJECT_COUNT))
/-- MGT_LL_CLEAR (17). -/
def execMgtLlClear (value : Word) (s : State) : Result := .next (clearBy s value (llOff MGT_LL_COMMIT_COUNT) (llOff MGT_LL_UNPROT_STEPS))
/-- MGT_PWR_CLEAR (18). -/
def execMgtPwrClear (value : Word) (s : State) : Result := .next (clearBy s value (pwrOff MGT_THROTTLE_NS) (pwrOff MGT_BINDOFF_COUNT))
/-- SEC_CLEAR (20): bit 0 clears LOCK_REJECT. -/
def execSecClear (value : Word) (s : State) : Result :=
  .next (if bit value.toNat 0 then { s with sec := { s.sec with lockReject := false } } else s)

end Sys2Proof.Machine
end

