-- ==== Sys2Proof/Machine/Link.lean ====
section
/-! DEFINITION. Limund ports and messages (15). -/

namespace Sys2Proof.Machine

/-! Port states (R366, R367). -/

/-- Highest generation that 0x5010:02 allows a port (2 L2, 1 L1, 0 disabled). -/
def genMax (s : State) (p : Nat) : Nat := bits (objNat s 0x501002) (2 * p + 1) (2 * p)
/-- The link die of a port. -/
def lnkDie (p : Nat) : Nat := 88 + p / 2
/-- A port may train: it is enabled and its die is there. -/
def mayTrain (s : State) (p : Nat) : Bool := genMax s p != 0 && !dieFailed s (lnkDie p)

/-- Training starts with the first attempt. -/
def startTraining (s : State) (p : Nat) : State := updPort s p (fun x => { x with state := 1, since := now s, gen := 0, width := 0, attempt := 0 })

/-- A port goes DOWN (R383): messages under way end at their sender with LINK_DOWN; those not begun look for another port. -/
def portDown (s : State) (p : Nat) : State :=
  let x := port s p
  let gone := x.sent ++ x.sending.filter (fun m => m.started || m.mcast)
  let kept := x.sending.filter (fun m => m.posted && !m.started && !m.mcast)
  let s := updPort (portToDown s p) p (fun x => { x with
    sending := [], sent := [], receiving := [], waiting := [], frame := [], replayBuf := [],
    creditBulk := 2048, creditCbulk := 2048, returnBulk := 0, returnCbulk := 0, rxSeq := 0, txSeq := 0, ackedSeq := 0, nakActive := false })
  let s := each (gone.filter (·.posted)) s (fun s m => failSend s (lnkDie p) stLinkDown m.task)
  each kept s bindMsg

/-- LIMUND_TRAINING_START (R366, R522): an enabled port that is DOWN. -/
def execLimundTrainingStart (p : PortId) (s : State) : Result :=
  .next (if (port s p).state = 0 ∧ mayTrain s p = true then startTraining s p else s)

/-- DOWN_RETRY_TIMER (R367): training restarts every 100 ms while the port is enabled. -/
def execDownRetryTimer (p : PortId) (s : State) : Result :=
  .next (if (port s p).state = 0 ∧ mayTrain s p = true ∧ (port s p).since + 100000000 ≤ now s then startTraining s p else s)

/-- Generation and lanes of attempt i with common generation g (R366). -/
def attemptOf (g i : Nat) : Nat × Nat := if i = 0 then (g, 8) else if i = 1 then (1, 8) else if i = 2 then (g, 4) else (1, 4)

/-- A LINK_MGMT control message of a port (R374). -/
def linkMgmtMsg (s : State) (p : Nat) : Nat :=
  let x := port s p
  control 9 x.peerDev (ownDev s) (genMax s p + x.width * 2 ^ 2 + 7 * 2 ^ 8 + p * 2 ^ 11 + now s * 2 ^ 15)

/-- LIMUND_TRAINING_DONE (R366, R367): alignment leads to CONFIG, where LINK_MGMT is sent; a failure to the next attempt, the
fourth to DOWN. -/
def execLimundTrainingDone (p : PortId) (ok : Bool) (peerGenMax : Fin 3) (s : State) : Result :=
  .next (if (port s p).state ≠ 1 then s else
    let g := min (genMax s p) peerGenMax
    let a := attemptOf g (port s p).attempt
    if ok ∧ g ≠ 0 then
      let s := updPort s p (fun x => { x with
      state := 2, since := now s, gen := a.1, width := a.2, mgmtSent := true, lastMgmt := now s })
      sendControl s p (linkMgmtMsg s p)
    else
      let s := bump s (portOff p LNK_TRAIN_FAIL_COUNT) 1
      if (port s p).attempt = 3 then portDown s p else updPort s p (fun x => { x with attempt := x.attempt + 1 }))

/-- First eight octets of the configuration digest. -/
def digest64 (s : State) : Nat := leNat ((configDigest s).take 8)
/-- Send DIGEST on a port (R391). -/
def sendDigest (s : State) (p : Nat) : State :=
  sendControl s p (control 4 (port s p).peerDev (ownDev s) (s.dict.epoch % 2 ^ 32 + digest64 s * 2 ^ 32))

/-- A port is UP: messages that wait for it go, and DIGEST is sent. -/
def portIsUp (s : State) (p : Nat) : State := bindSends (sendDigest (updPort s p (fun x => { x with state := 3, since := now s, retrainFails := 0 })) p)

/-- LINK_MGMT (R367, R375, R392): in CONFIG, with the port's own message sent, the exchange is complete; a peer with this device's
identifier keeps the port in CONFIG. A DX8 peer is L1. The delay is half the round trip. -/
def execLinkMgmt (p : PortId) (_genMax _width : Nat) (dx8 : Bool) (dev : BitVec 12) (pport : BitVec 4) (echo : Word) (s : State) : Result :=
  .next (if (port s p).state ≠ 2 then s else
    let s := updPort s p (fun x => { x with dx8 := dx8, peerDev := dev.toNat, peerPort := pport.toNat, gen := if dx8 then 1 else x.gen })
    let s := setReg s (portOff p LNK_DELAY_NS) ((now s - echo.toNat) / 2)
    if dev.toNat = ownDev s then raise s (lnkDie p) 0x703 2 0 0 [p, dev.toNat]
    else if (port s p).mgmtSent then portIsUp s p else s)

/-- CONFIG_TIMEOUT (R367): 1 ms without the exchange. -/
def execConfigTimeout (p : PortId) (s : State) : Result :=
  .next (if (port s p).state = 2 ∧ (port s p).since + 1000000 ≤ now s then startTraining s p else s)

/-- RETRAIN_ENTRY (R367). -/
def execRetrainEntry (p : PortId) (s : State) : Result :=
  .next (if (port s p).state = 3 then bump (updPort s p (fun x => { x with state := 4, since := now s, replays := [] })) (portOff p LNK_RETRAIN_COUNT) 1 else s)

/-- RETRAIN_EQUALISED (R367). -/
def execRetrainEqualised (p : PortId) (s : State) : Result :=
  .next (if (port s p).state = 4 ∧ now s ≤ (port s p).since + 50000 then portIsUp s p else s)

/-- RETRAIN_TIMEOUT (R367): back to TRAINING, and DOWN after three failures in a row. -/
def execRetrainTimeout (p : PortId) (s : State) : Result :=
  .next (if (port s p).state ≠ 4 ∨ now s < (port s p).since + 50000 then s else
    let n := (port s p).retrainFails + 1
    if 3 ≤ n then portDown (updPort s p (fun x => { x with retrainFails := 0 })) p
    else startTraining (updPort s p (fun x => { x with retrainFails := n })) p)

/-- LIMUND_PORT_DOWN (R367, R383). -/
def execLimundPortDown (p : PortId) (s : State) : Result := .next (portDown s p)

/-! Frames (R368, R370, R371). -/

/-- A flit header word. -/
def flitHeader (f : Flit) : Nat :=
  f.cls + b2n f.first * 2 ^ 2 + b2n f.last * 2 ^ 3 + b2n f.mcast * 2 ^ 4 + f.valid8 * 2 ^ 5 + f.dstDev.toNat * 2 ^ 10 + f.strand * 2 ^ 22
    + f.msgSeq.toNat * 2 ^ 40
/-- A frame header: number, and what the port acknowledges, asks for and returns now. -/
def frameHeader (s : State) (p seq bulk cbulk : Nat) (fl : List Flit) : List Nat :=
  let x := port s p
  let w := seq % 65536 + x.rxSeq % 65536 * 2 ^ 16 + b2n x.nakActive * 2 ^ 32 + bulk * 2 ^ 33 + cbulk * 2 ^ 41
  let body := leBytes 8 w ++ fl.flatMap (fun f => leBytes 8 (flitHeader f) ++ f.payload.flatMap (fun v => leBytes 8 v.toNat))
  [0xA5C30F965A3CF069, w, crc32 body]

/-- The transmitter takes a flit; the twenty-fifth completes a frame, which joins the replay buffer of 64. -/
def pushFlit (s : State) (p : Nat) (f : Flit) : State :=
  let s := emit s (.flit p f)
  let fl := (port s p).frame ++ [f]
  if fl.length < 25 then updPort s p (fun x => { x with frame := fl })
  else
    let seq := ((port s p).txSeq + 1) % 65536
    let b := min 255 (port s p).returnBulk
    let c := min 255 (port s p).returnCbulk
    let h := frameHeader s p seq b c fl
    emit (updPort s p (fun x => { x with
      frame := [], txSeq := seq, replayBuf := (x.replayBuf ++ [(seq, fl)]).drop (x.replayBuf.length - 63),
      returnBulk := x.returnBulk - b, returnCbulk := x.returnCbulk - c })) (.frame p h)

/-- FRAME_RECEIVE (R370, R371): a frame that fails is dropped and asked for again; one out of order is discarded; any other
gives its credits and its flits. -/
def execFrameReceive (p : PortId) (frame : Option LinkFrame) (corrected : Nat) (s : State) : Result :=
  .next (if (port s p).state < 2 then s else
    let s := bump s (portOff p LNK_FEC_CORR_COUNT) corrected
    match frame with
    | none =>
      let s := bump s (portOff p LNK_FEC_UNCORR_COUNT) 1
      if (port s p).nakActive then s
      else bump (updPort s p (fun x => { x with nakActive := true, replays := now s :: x.replays.take 15 })) (portOff p LNK_REPLAY_COUNT) 1
    | some f =>
      if f.frameSeq.toNat ≠ ((port s p).rxSeq + 1) % 65536 then s
      else
        let s := updPort s p (fun x => { x with
          rxSeq := f.frameSeq.toNat, nakActive := false, ackedSeq := f.ackSeq.toNat,
          creditBulk := min 2048 (x.creditBulk + f.credBulk.toNat), creditCbulk := min 2048 (x.creditCbulk + f.credCbulk.toNat) })
        each f.flits s (fun s f => flitArrives s p f))

/-- FRAME_REPLAY (R370): the frames behind ACK_SEQ leave again, in order. -/
def execFrameReplay (p : PortId) (ackSeq : BitVec 16) (s : State) : Result :=
  .next (
    let l := (port s p).replayBuf.filter (fun f => let d := (f.1 + 65536 - ackSeq.toNat) % 65536
      decide (1 ≤ d ∧ d ≤ 64))
    each l (updPort s p (fun x => { x with ackedSeq := ackSeq.toNat })) (fun s f => emit s (.frame p (frameHeader s p f.1 0 0 f.2))))

/-! Flit selection (R371, R372, R382, R385). -/

/-- The slowest attached member's offset: 0 while a member has not been heard. -/
def slowest (s : State) (g : Nat) : Nat :=
  let ms := (group s g).members
  if ms.length < groupMembers s g then 0
  else ((ms.filter (·.attached)).map (·.acked)).foldl min (group s g).sent

/-- Payload bytes of a flit, without the message header. -/
def payloadBytes (f : Flit) : Nat := 8 * (f.valid8 + 1) - (if f.first then 32 else 0)
/-- The group's send limit holds a message. -/
def limited (s : State) (m : SentMsg) (f : Flit) : Bool :=
  m.posted && m.mcast && decide (slowest s m.rcv + 2 ^ 20 < m.off + payloadBytes f)

/-- A message's next flit may leave: link credit, strand credit, and the group's limit. -/
def ready (s : State) (p : Nat) (m : SentMsg) : Bool := match m.flits with
  | [] => false
  | f :: _ =>
    decide (0 < (if m.cls = 2 then (port s p).creditBulk else (port s p).creditCbulk))
    && (!m.posted || m.mcast || m.kind == 4 || (match strand s m.strand with
        | some x => x.txCredit != 0
        | none => false))
    && !limited s m f

/-- Two messages of one strand, or of one strand in transit. -/
def sameFlow (a b : SentMsg) : Bool := a.posted == b.posted && a.rcv == b.rcv && a.dst == b.dst && a.mcast == b.mcast && a.strand == b.strand

/-- The message of a class that sends next: one under way before another, never ahead of its strand's earlier one. -/
def classPick (s : State) (p cls : Nat) : Option SentMsg :=
  let l := (port s p).sending.filter (·.cls == cls)
  let r := (l.zipIdx.filter (fun m => ready s p m.1 && !(l.take m.2).any (sameFlow m.1))).map (·.1)
  match r.find? (·.started) with
  | some m => some m
  | none => r.head?

/-- A data flit leaves. -/
def sendData (s : State) (p : Nat) (m : SentMsg) : State := match m.flits with
  | [] => s
  | f :: rest =>
    let s := bump s (portOff p LNK_TX_BYTES) (8 * (f.valid8 + 1))
    let s := updPort s p (fun x => if m.cls = 2 then { x with creditBulk := x.creditBulk - 1 } else { x with creditCbulk := x.creditCbulk - 1 })
    let s := if m.posted && !m.mcast && m.kind != 4 then updStrand s m.strand (fun x => { x with txCredit := x.txCredit - 1 }) else s
    let s := if m.posted && m.mcast then
        let s := if m.lead then
            let ws := if f.first then (flitWords f).drop 4 else flitWords f
            each ws.zipIdx s (fun s w => (linkWrite s (88 + p / 2) m.strand (bits (groupWord s m.rcv 1) 47 0 + (m.off + 8 * w.2) % 2 ^ 20) (leBytes 8 w.1)).1)
          else s
        updGroup s m.rcv (fun x => { x with sent := max x.sent (m.off + payloadBytes f) })
      else s
    let m' : SentMsg := { m with flits := rest, started := true, off := m.off + payloadBytes f }
    let fin := rest.isEmpty && m.whole
    let s := updPort s p (fun x =>
      let l := x.sending.map (fun y => if y == m then m' else y)
      if fin then { x with sending := l.filter (fun y => !sameFlow y m) ++ (l.filter (fun y => sameFlow y m && y != m')), sent := if m.posted then x.sent ++ [m'] else x.sent }
      else { x with sending := l })
    let s := if fin && m.posted && m.mcast then
        updGroup s m.rcv (fun x => { x with members := x.members.map (fun y => if y.joining then { y with joining := false, attached := true } else y) })
      else s
    pushFlit (updPort s p (fun x => { x with slotsSinceControl := x.slotsSinceControl + 1, lastClass := m.cls })) p f

/-- A flit that carries no data. -/
def bareFlit (cls : Fin 4) (ws : List Nat) : Flit :=
  { cls := cls, first := false, last := false, mcast := false, valid8 := Fin.ofNat 32 (ws.length - 1), dstDev := 0, strand := 0, msgSeq := 0,
    payload := ((ws ++ List.replicate 32 0).take 32).map (BitVec.ofNat 64) }

/-- Groups that the limit holds at a port: their wait begins (R386). -/
def noteLimits (s : State) (p : Nat) : State :=
  each (port s p).sending s (fun s m => match m.flits with
    | f :: _ => if limited s m f && (group s m.rcv).limitSince.isNone then updGroup s m.rcv (fun x => { x with limitSince := some (now s) }) else s
    | [] => s)

/-- FLIT_SELECT (R372). -/
def execFlitSelect (p : PortId) (s : State) : Result :=
  .next (if (port s p).state ≠ 3 then s else
    let s := noteLimits s p
    let x := port s p
    if !x.control.isEmpty && decide (7 ≤ x.slotsSinceControl) then
      let ws := (x.control.take 8).flatMap (fun m => (List.range 4).map (fun k => bits m (64 * k + 63) (64 * k)))
      let s := bump (updPort s p (fun x => { x with control := x.control.drop 8, slotsSinceControl := 0 })) (portOff p LNK_CTRL_FLIT_COUNT) 1
      pushFlit s p (bareFlit 1 ws)
    else
      let a := classPick s p 2
      let b := classPick s p 3
      let pick := match a, b with
        | some m, some n => if x.lastClass = 2 then some n else some m
        | some m, none => some m
        | none, r => r
      match pick with
      | some m => sendData s p m
      | none => pushFlit (updPort s p (fun x => { x with slotsSinceControl := x.slotsSinceControl + 1 })) p (bareFlit 0 [0]))

/-- STRAND_ENTRY_FILL (R377): the entry arrives, and the flits that waited for it go on. -/
def execStrandEntryFill (d : LnkDie) (n : StrandId) (s : State) : Result :=
  .next (
    let s := lnkMiss s d n
    if !lnkHolds s d n then s else
    each [2 * d.val, 2 * d.val + 1] s (fun s p =>
      let l := (port s p).waiting.filter (·.strand == n)
      each l (updPort s p (fun x => { x with waiting := x.waiting.filter (·.strand != n) })) (fun s f => localFlit s p f)))

/-! Messages (R379, R381, R382). -/

/-- The status of the first word of a range that does not translate, none where all do. -/
def readFault (s : State) (n v : Nat) : Nat → Option Nat
  | 0 => none
  | k + 1 => match translate s n v false with
    | .err e => some e
    | .ok _ => readFault s n (v + 8) k

/-- LNK_SEND_POST (R379, R384, R390). -/
def execLnkSendPost (d : LnkDie) (task : Option SlotId) (desc : List Word) (s : State) : Result :=
  .next (
    let w := desc.map (·.toNat)
    let n := bits (word w 5) 17 0
    let va := bits (word w 4) 47 0
    let k := bits (word w 1) 31 0 / 8
    let t := task.map (·.val)
    let s := lnkMiss s d n
    match readFault s n va k with
    | some e => failSend s (88 + d) e t
    | none => postMsg s (88 + d) n (w.take 4) ((readWords s n va k).getD []) t (word w 5))

/-- CREDIT (R382) for a strand of this device; another device's was forwarded. -/
def execCredit (_p : PortId) (dst : BitVec 12) (n : StrandId) (flits : BitVec 16) (s : State) : Result :=
  .next (if dst.toNat ≠ ownDev s then s else updStrand s n (fun x => { x with txCredit := min 65535 (x.txCredit + flits.toNat) }))

/-! Digests and time (R391, R392). -/

/-- A port is divergent by what its peer said. -/
def divergentNow (s : State) (p : Nat) : Bool :=
  let x := port s p
  if x.peerEpoch = s.dict.epoch then reg s (portOff p LNK_PEER_DIGEST) != digest64 s
  else match x.epochDiffSince with
    | some t => decide (objNat s 0x501005 * 1000000 < now s - t)
    | none => false
/-- Enter or leave divergence, with its event. -/
def judgePort (s : State) (p : Nat) : State :=
  let d := divergentNow s p
  if d = (port s p).divergent then s
  else
    let s := updPort s p (fun x => { x with divergent := d })
    raise { s with divergenceEvents := s.divergenceEvents + b2n d } (lnkDie p) (if d then 0x701 else 0x702) (if d then 2 else 1) 0 0 [p]

/-- DIGEST (R391). -/
def execDigest (p : PortId) (epoch : BitVec 32) (d : Word) (s : State) : Result :=
  .next (
    let s := setReg s (portOff p LNK_PEER_DIGEST) d.toNat
    let s := updPort s p (fun x => { x with
      peerEpoch := epoch.toNat
      epochDiffSince := if epoch.toNat = s.dict.epoch then none else if x.epochDiffSince.isSome then x.epochDiffSince else some (now s) })
    judgePort s p)

/-- DIGEST_TIMER (R391): every 1 ms on a port that is UP. -/
def execDigestTimer (p : PortId) (s : State) : Result := .next (if (port s p).state = 3 then sendDigest s p else s)

/-- EPOCH_DISAGREEMENT_TIMEOUT (R391). -/
def execEpochDisagreementTimeout (p : PortId) (s : State) : Result :=
  .next (if (port s p).epochDiffSince.isSome then judgePort s p else s)

/-- TIME (R392): the peer's time less this device's and the delay. -/
def execTime (p : PortId) (reftime : Word) (s : State) : Result :=
  .next (setReg s (portOff p LNK_TIME_OFFSET)
    (unsigned 64 ((reftime.toNat : Int) - now s - reg s (portOff p LNK_DELAY_NS))))

/-- TIME_TIMER (R392). -/
def execTimeTimer (p : PortId) (s : State) : Result :=
  .next (if (port s p).state = 3 then
    sendControl (updPort s p (fun x => { x with timeLast := now s })) p (control 5 (port s p).peerDev (ownDev s) (now s)) else s)

/-! Multicast (R385 to R387). -/

/-- MCAST_ACK at the source (R385, R387): the member's offset; a detached one that has reached the retained buffer joins again, at
once between messages. -/
def execMcastAck (grp member : BitVec 12) (offset : Word) (s : State) : Result :=
  .next (
    let g := grp.toNat
    let ms := (group s g).members
    let ms := if ms.any (·.dev == member.toNat) then ms else ms ++ [{ dev := member.toNat }]
    let oldest := slowest s g
    let busy := s.ports.any (fun p => p.2.sending.any (fun m => m.posted && m.mcast && m.rcv == g && m.started))
    let s := updGroup s g (fun x => { x with members := ms.map (fun y =>
      if y.dev ≠ member.toNat then y
      else
        let back := !y.attached && decide (oldest ≤ offset.toNat)
        { y with acked := max y.acked offset.toNat, attached := y.attached || (back && !busy), joining := back && busy }) })
    if (group s g).sent < slowest s g + 2 ^ 20 then updGroup s g (fun x => { x with limitSince := none }) else s)

/-- DETACH_TIMEOUT (R386) at the source: the slowest member is detached when the limit has held for the time of 0x5030:02 and
every other attached member has acknowledged everything sent. -/
def execDetachTimeout (grp : BitVec 12) (s : State) : Result :=
  .next (
    let g := grp.toNat
    let x := group s g
    match x.limitSince with
    | none => s
    | some t =>
      let att := x.members.filter (·.attached)
      match att.find? (fun m => m.acked == slowest s g && decide (m.acked < x.sent)) with
      | none => s
      | some m =>
        if decide (objNat s 0x503002 * 1000 ≤ now s - t) && att.all (fun y => y.dev == m.dev || y.acked == x.sent)
            && decide (1 < att.length) then
          let s := controlTo s 7 m.dev (g % 4096 + m.acked * 2 ^ 12)
          let s := updGroup s g (fun x => { x with limitSince := none, members := x.members.map (fun y => if y.dev = m.dev then { y with attached := false } else y) })
          bump s (lnkOff x.die LNK_MCAST_DETACH_COUNT) 1
        else s)

/-- DETACH (R387) at a member: the gap record and its event, and the first RECOVER. -/
def execDetach (p : PortId) (srcDev grp : BitVec 12) (from_ : Word) (s : State) : Result :=
  .next (
    let g := grp.toNat
    let d := p.val / 2
    let k := tget 0 s.gapNext d
    let hi := max (group s g).newest from_.toNat
    let s := { s with gapNext := tset s.gapNext d ((k + 1) % 16) }
    let s := setReg s (gapOff d k 0) (g + groupStrand s g * 2 ^ 12)
    let s := setReg (setReg (setReg s (gapOff d k 1) from_.toNat) (gapOff d k 2) hi) (gapOff d k 3) (now s)
    let s := updGroup s g (fun x => { x with detached := true, gap := some (d, k), partly := false, srcDev := srcDev.toNat, accepted := from_.toNat })
    let s := raise s (88 + d) 0x706 1 (groupStrand s g) 0 [g, from_.toNat, hi]
    askRange s g from_.toNat hi)

/-- Cut a range at message starts. -/
def cutAt (lo hi : Nat) (starts : List Nat) : List (Nat × Nat) :=
  let cuts := lo :: (starts.filter (fun a => decide (lo < a ∧ a < hi)))
  cuts.zip (cuts.drop 1 ++ [hi])

/-- Recovery data of one piece: KIND 4 to the member (R387). -/
def sendRecovery (s : State) (g member : Nat) (va : Nat → Nat) (piece : Nat × Nat) : State :=
  let x := group s g
  let n := x.strand
  let len := piece.2 - piece.1
  let ws := (List.range (len / 8)).map (fun i => match translate s n (va (piece.1 + 8 * i)) false with
    | .ok a => rd64 s a
    | .err _ => 0)
  let seq := match strand s n with
    | some y => y.txSeq
    | none => 0
  let h := [4 + ownDev s * 2 ^ 22, len, 0, piece.1]
  let m : SentMsg := { strand := n, die := 88 + x.die, seq := seq, kind := 4, dst := member, rcv := peerStrand s n,
                       flits := mkFlits 2 false member (peerStrand s n) seq (h ++ ws), since := now s }
  let q := routePort s member
  let s := updStrand s n (fun y => { y with txSeq := (seq + 1) % 65536 })
  let s := bump s (lnkOff x.die LNK_RECOVER_BYTES) len
  if q < 16 then updPort s q (fun y => { y with sending := y.sending ++ [m] }) else s

/-- RECOVER (R387) at the source: from the retained buffer, from BACKING_VA, or reported LOST. -/
def execRecover (_p : PortId) (grp member : BitVec 12) (from_ to_ : Word) (s : State) : Result :=
  .next (
    let g := grp.toNat
    let x := group s g
    let hi := min to_.toNat x.sent
    let lo := from_.toNat
    let mid := max lo (min hi (slowest s g))
    let backing := bits (groupWord s g 2) 47 0
    let retain := bits (groupWord s g 1) 47 0
    let s := if mid ≤ lo then s
      else if backing ≠ 0 then each (cutAt lo mid x.starts) s (fun s c => sendRecovery s g member.toNat (fun o => backing + o) c)
      else
        let msgs := (x.starts.filter (fun a => decide (lo ≤ a ∧ a < mid))).length
        bump (controlTo s 10 member.toNat (g + lo * 2 ^ 12 + mid * 2 ^ 76 + msgs % 65536 * 2 ^ 140)) (lnkOff x.die LNK_LOST_BYTES) (mid - lo)
    if mid < hi then each (cutAt mid hi x.starts) s (fun s c => sendRecovery s g member.toNat (fun o => retain + o % 2 ^ 20) c) else s)

/-- LOST (R387) at a member: part of the range is lost; a queue target takes a marker row. -/
def execLost (_p : PortId) (grp : BitVec 12) (from_ to_ : Word) (msgs : BitVec 16) (s : State) : Result :=
  .next (
    let g := grp.toNat
    let s := updGroup s g (fun x => { x with partly := true })
    let s := gapState s g 2
    let h := (group s g).hdr
    let s := if mKind h = 1 then
        let q := mTgt h
        joinMarker s q (queue s q).seqNext msgs.toNat (to_.toNat - from_.toNat) []
      else s
    accept s g to_.toNat)

/-! Merging (R388 to R390). -/

/-- MERGE_CONTEXT_OPEN (R388): the write of word 0; OPEN activates the context with empty inputs. -/
def execMergeContextOpen (d : LnkDie) (x : Fin 8) (value : Word) (s : State) : Result :=
  .next (
    let v := value.toNat
    let st := mergeState s d x
    let s := setReg s (mergeOff d x 0) (st + bits v 5 2 * 2 ^ 2 + bits v 27 10 * 2 ^ 10)
    if bit v 6 then updMerge (setField s (mergeOff d x 0) 1 0 1) d x (fun _ => {}) else s)

/-- Send a context's output entries as one message (R388, R389). The target context of the next hop is a free value: the manual
does not name it. -/
def mergeSend (s : State) (d x : Nat) (final : Bool) : State :=
  let c := merge s d x
  let (v, s) := freshFree s
  let base := ((c.out.head?).map (·.1)).getD 0
  let ws := c.out.map (fun e => (e.1 - base) % 2 ^ 32 + e.2.toNat * 2 ^ 32)
  let s := updMerge s d x (fun c => { c with out := [] })
  postMsg s (88 + d) (bits (reg s (mergeOff d x 0)) 27 10) [3 + v % 2048 * 2 ^ 10 + b2n final * 2 ^ 21, 8 * ws.length, base, 0] ws none 0

/-- An entry leaves the context: to OUT_VA, or into the message that fills to 65,536 B. -/
def mergeOut (s : State) (d x idx : Nat) (v : F32) : State :=
  let s := bump s (lnkOff d LNK_MERGE_OUT_ENTRIES) 1
  if bit (reg s (mergeOff d x 0)) 4 then
    let k := (merge s d x).outCount
    (linkWrite (updMerge s d x (fun c => { c with outCount := k + 1 })) (88 + d) (bits (reg s (mergeOff d x 0)) 27 10)
      (bits (reg s (mergeOff d x 3)) 47 0 + 8 * k) (leBytes 4 idx ++ leBytes 4 v.toNat)).1
  else
    let s := updMerge s d x (fun c => { c with out := c.out ++ [(idx, v)], outCount := c.outCount + 1 })
    if 8192 ≤ (merge s d x).out.length then mergeSend s d x false else s

/-- MERGE_ENTRY_EMIT (R389): the lowest index that every input allows, summed in input order; the end when all inputs ended. A
faulted context's output ends without END. -/
def execMergeEntryEmit (d : LnkDie) (x : Fin 8) (s : State) : Result :=
  .next (
    let c := merge s d x
    let st := mergeState s d x
    let ins := (List.range (mergeInputs s d x)).map (fun i => c.inputs.getD i ({} : MergeIn))
    if st = 3 then (if c.out.isEmpty then s else mergeSend s d x false)
    else if st ≠ 1 ∨ ins.any (fun i => i.entries.isEmpty && !i.ended) then s
    else match ins.filterMap (fun i => (i.entries.head?).map (·.1)) with
      | [] =>
        let s := setField s (mergeOff d x 0) 1 0 2
        if bit (reg s (mergeOff d x 0)) 4 then s else mergeSend s d x true
      | k :: ks =>
        let idx := ks.foldl min k
        let vs := ins.filterMap (fun i => match i.entries.head? with
          | some e => if e.1 = idx then some e.2 else none
          | none => none)
        let v := (vs.drop 1).foldl addF32 (vs.headD 0)
        let s := updMerge s d x (fun c => { c with inputs := c.inputs.map (fun i => match i.entries with
          | e :: rest => if e.1 = idx then { i with entries := rest } else i
          | [] => i) })
        if bit (reg s (mergeOff d x 0)) 5 && isZeroF32 v then s else mergeOut s d x idx v)

end Sys2Proof.Machine
end

