-- ==== Sys2Proof/Machine/Epochs.lean ====
section
/-! DEFINITION. Configuration epochs, the segment's agreement and its time master (19 R478 to R484). -/

namespace Sys2Proof.Machine

/-! Arming (R479). -/

/-- A write of the activation REFTIME arms the epoch, or moves it while it is not frozen. -/
def armEpoch (s : State) (t : Nat) : Nat × State :=
  if s.dict.armState = 2 ∨ objNat s 0x102002 ≠ s.dict.epoch + 1 ∨ t < now s + 1000000 then (stEpochInvalid, s)
  else
    let s := setObj s 0x102003 (leBytes 8 t)
    (0, { s with dict := { s.dict with armState := 1 } })
/-- A write to 0x1020:07. -/
def disarmEpoch (s : State) (true_ : Bool) : Nat × State :=
  if s.dict.armState = 2 then (stEpochInvalid, s)
  else (0, if true_ then { s with dict := { s.dict with armState := 0 } } else s)

/-- EPOCH_ARM (R479). -/
def execEpochArm (time : Word) (s : State) : Result := .next (armEpoch s time.toNat).2
/-- EPOCH_DISARM (R479). -/
def execEpochDisarm (s : State) : Result := .next (disarmEpoch s true).2

/-! Freezing (R480, R486). -/

/-- The number of an object as the frozen set gives it. -/
def frozenNat (s : State) (key : Nat) : Nat := leNat ((tfind s.dict.frozen (aliasKey key)).getD (objBytes s key))
/-- The constraints of R486 for activity a, each with the object that it fails by. -/
def budgetFails (s : State) (a : Nat) : List Nat :=
  let k (n : Nat) : Nat := (0x6000 + a) * 256 + n
  let v (n : Nat) : Nat := frozenNat s (k n)
  (if v 2 < v 1 then [k 1] else []) ++ (if v 3 < v 2 then [k 2] else []) ++ (if 50 < v 3 then [k 3] else [])
    ++ (if v 6 ≤ v 5 then [k 5] else []) ++ (if v 7 ≤ v 6 then [k 6] else [])
/-- Objects that fail a constraint, in ascending order within each activity; activities 1 and 3 share a channel. -/
def epochFails (s : State) : List Nat :=
  (List.range 7).flatMap (fun i => budgetFails s (i + 1))
    ++ (if 50 < frozenNat s 0x600103 + frozenNat s 0x600303 then [0x600303] else [])
/-- A refused epoch: the snapshot returns under the writes that came since, and the event names the first failing object. -/
def refuseEpoch (s : State) (key : Nat) : State :=
  mgtEvent { s with dict := { s.dict with
    armState := 0
    staged := s.dict.staged.foldl (fun t p => tset t p.1 p.2) s.dict.frozen
    frozen := [] } } 0xB02 2 [key / 256, key % 256]
/-- A chain message to every other die (R474). -/
def toEveryDie (s : State) (m : Msg) : State := each (List.range 99) s (fun s d => sendChain s mgtDie d m)
/-- EPOCH_FREEZE (R480): at 100 µs before activation. -/
def execEpochFreeze (s : State) : Result :=
  .next (
    if s.dict.armState = 1 ∧ objNat s 0x102003 ≤ now s + 100000 then
      let s := { s with dict := { s.dict with frozen := s.dict.staged, staged := [] } }
      match epochFails s with
      | [] => toEveryDie { s with dict := { s.dict with armState := 2 } } (.config 6 0 0 0 ((s.dict.epoch + 1) % 2 ^ 32))
      | k :: _ => refuseEpoch s k
    else s)

/-! Activation (R481). -/

/-- A port's view of this device's new epoch (15 R391). -/
def portEpoch (s : State) (p : Nat) : State :=
  let s := updPort s p (fun x => { x with
    epochDiffSince := if x.peerEpoch = s.dict.epoch then none else if x.epochDiffSince.isSome then x.epochDiffSince else some (now s) })
  sendDigest (judgePort s p) p
/-- EPOCH_ACTIVATION (R481): the frozen values take effect at the activation REFTIME. -/
def execEpochActivation (s : State) : Result :=
  .next (
    if s.dict.armState = 2 ∧ objNat s 0x102003 ≤ now s then
      let s := { s with dict := { s.dict with
        values := s.dict.frozen.foldl (fun t p => tset t p.1 p.2) s.dict.values
        frozen := []
        epoch := (s.dict.epoch + 1) % 2 ^ 32
        armState := 0
        activated := now s } }
      let s := toEveryDie s (.config 5 0 0 0 s.dict.epoch)
      let s := mgtEvent s 0xB01 1 [s.dict.epoch]
      let s := each ((List.range 16).filter (fun p => (port s p).state == 3)) s portEpoch
      sendHeartbeat s
    else s)

/-! The segment (R483, R484). -/

/-- A sender becomes or stops being segment-divergent: an event each time. -/
def setSegment (s : State) (dev : Nat) (bad : Bool) : State :=
  if s.dict.divergent.contains dev = bad then s
  else mgtEvent { s with dict := { s.dict with
    divergent := if bad then s.dict.divergent ++ [dev] else s.dict.divergent.filter (· != dev) } } 0xB03 2 [dev]
/-- EPOCH values have differed for longer than 0x5010:05. -/
def differLong (s : State) (dev : Nat) : Bool := match tfind s.dict.peerSince dev with
  | some t => decide (objNat s 0x501005 * 1000000 < now s - t)
  | none => false
/-- A TDP 2 heartbeat compared with the device's own state. -/
def judgeSegment (s : State) (dev epoch : Nat) (digest : List Byte) : State :=
  if epoch = s.dict.epoch then
    setSegment { s with dict := { s.dict with peerSince := tdel s.dict.peerSince dev } } dev (digest != configDigest s)
  else
    let s := if thas s.dict.peerSince dev then s else { s with dict := { s.dict with peerSince := tset s.dict.peerSince dev (now s) } }
    setSegment s dev (differLong s dev)
/-- A master's heartbeat: the first loads REFTIME, later ones slew an offset beyond 1 µs. -/
def followMaster (s : State) (t : Nat) : State :=
  if !s.clock.locked then loadTime s t
  else
    let z : Int := (t : Int) - now s
    let s := { s with dict := { s.dict with masterOffset := z } }
    if 1000 < z.natAbs then slewTime s z else s
/-- HEARTBEAT_RECEIVED (R483, R484). -/
def execHeartbeatReceived (v2 master : Bool) (device : BitVec 12) (epoch : BitVec 32) (reftime : Word) (digest : List Byte) (s : State) : Result :=
  .next (
    if s.power.stage = 15 then s
    else
      let s := { s with dict := { s.dict with tdpReceived := s.dict.tdpReceived + 1 } }
      let s := if v2 then judgeSegment s device.toNat epoch.toNat digest else s
      if master && objNat s 0x104001 == 1 then followMaster s reftime.toNat else s)
/-- SEGMENT_DIVERGENCE_TIMEOUT (R483). -/
def execSegmentDivergenceTimeout (device : BitVec 12) (s : State) : Result :=
  .next (if differLong s device.toNat then setSegment s device.toNat true else s)
/-- HEARTBEAT (R471). -/
def execHeartbeat (s : State) : Result := .next (sendHeartbeat s)

end Sys2Proof.Machine
end

