-- ==== Sys2Proof/Machine/Requests.lean ====
section
/-! DEFINITION. Dictionary requests: reads, writes and their effects, segments, and the walk (19 R463 to R468, R540). -/

namespace Sys2Proof.Machine

/-- A request: the header's fields and its data (R466). -/
structure DictReq where
  op : Nat
  staged : Bool
  type : Nat
  index : Nat
  sub : Nat
  len : Nat
  off : Nat
  tag : Nat
  data : List Byte
  /-- outcomes of the checks of an image set whose last bytes these are (20 R504) -/
  images : List ImageCheck := []
  deriving DecidableEq, Repr

/-- An answer: STATUS, the object it names, its TYPE and its data. -/
structure DictAns where
  status : Nat
  index : Nat
  sub : Nat
  type : Nat
  data : List Byte
  deriving DecidableEq, Repr

/-- A request from its header words. -/
def dictReq (hdr0 hdr1 : Nat) (data : List Byte) (images : List ImageCheck) : DictReq :=
  { op := bits hdr0 3 0, staged := bit hdr0 4, type := bits hdr0 15 8, index := bits hdr0 31 16, sub := bits hdr0 39 32, len := bits hdr0 63 48,
    off := bits hdr1 31 0, tag := bits hdr1 47 32, data := data.take (bits hdr0 63 48), images := images }
/-- The header words of a reply (R466). -/
def replyHdr0 (r : DictReq) (a : DictAns) : Nat :=
  r.op + b2n r.staged * 2 ^ 4 + a.type * 2 ^ 8 + a.index * 2 ^ 16 + a.sub * 2 ^ 32 + a.data.length * 2 ^ 48
def replyHdr1 (r : DictReq) (a : DictAns) : Nat := r.off + r.tag * 2 ^ 32 + a.status * 2 ^ 48

/-! Values. -/

/-- An object that takes requests in segments (R467). -/
def isLarge (o : Obj) : Bool := decide (1024 < o.size)
/-- Objects that take a value of any length up to their size. -/
def anyLength (key : Nat) : Bool := key == 0x801001 || key == 0x803002
/-- What a read of an object returns, and the state after: a read of 0x8030:01 makes a nonce (20 R510). -/
def readObj (s : State) (o : Obj) (staged : Bool) : List Byte × State :=
  if o.key = 0x803001 then newNonce s
  else if staged && decide (o.access = .rws) then (stagedBytes s o.key, s)
  else (dictValue s o, s)

/-- The effect of a write to an RW or WO object (R463): its status, and the state after. -/
def writeEffect (s : State) (key : Nat) (v : List Byte) : Nat × State :=
  let n := leNat v
  if key = 0x201203 then (0, slewTime s (signed 32 n))
  else if key = 0x102003 then armEpoch s n
  else if key = 0x102007 then disarmEpoch s (n == 1)
  else if key = 0x401004 then fenceRequest s n
  else if key = 0x801002 then (if n = 1 then activateBank s else (0, s))
  else if key = 0x801003 then (if n = 1 then commitFw s else (0, s))
  else if key = 0x803002 then unlockOctets s v
  else if key = 0x803003 then (0, if n = 1 then endUnlock s else s)
  else if key = 0xA00101 then selectTmux s n true
  else (0, setObj s key v)
/-- Whether a value fits its object: LENGTH, and a BOOL's 0 or 1 (R462, R463). -/
def valueFits (o : Obj) (v : List Byte) : Bool :=
  if o.type = 12 then decide (v.length ≤ 255)
  else if anyLength o.key then decide (v.length ≤ o.size)
  else v.length == o.size && (o.type != 1 || decide (leNat v ≤ 1))
/-- Why an object takes no write (R463). -/
def writeDenied (s : State) (o : Obj) : Nat :=
  if o.access = .ro then stAccessDenied else if o.access = .rwl ∧ s.sec.unlockLevel = 0 then stLocked else 0
/-- A whole value is written. -/
def writeObj (s : State) (o : Obj) (v : List Byte) : Nat × State :=
  if writeDenied s o ≠ 0 then (writeDenied s o, s)
  else if !valueFits o v then (stTypeMismatch, s)
  else if !isLarge o && !rangeOk o.key (leNat v) then (stValueOutOfRange, s)
  else if o.access = .rws then (0, { s with dict := { s.dict with staged := tset s.dict.staged (aliasKey o.key) v } })
  else writeEffect s o.key v

/-! Segments (R467). -/

/-- A path's partial write is discarded, a transfer of an image set among them. -/
def dropPartial (s : State) (path : Nat) : State :=
  { s with
      dict := { s.dict with partials := tdel s.dict.partials path }
      sec := { s.sec with transfer := match s.sec.transfer with
        | some t => if t.1 = path then none else some t
        | none => none } }
/-- The bytes that a segment at an offset continues: none held at offset 0, or the path's partial write of the object up to there. -/
def heldPart (s : State) (path : Nat) (o : Obj) (off : Nat) : Option (List Byte) :=
  if off = 0 then some [] else match tfind s.dict.partials path with
    | some (k, l) => if k = o.key ∧ l.length = off then some l else none
    | none => none
/-- A segment of an object other than the image set. -/
def writeSegment (s : State) (path : Nat) (o : Obj) (off : Nat) (v : List Byte) : Nat × State :=
  let held := heldPart s path o off
  let s := dropPartial s path
  match held with
  | none => (stTypeMismatch, s)
  | some l =>
    let w := l ++ v
    let last := w.length == o.size || (anyLength o.key && decide (v.length < 1024))
    if o.size < w.length then (stTypeMismatch, s)
    else if last then writeObj s o w
    else if v.length ≠ 1024 then (stTypeMismatch, s)
    else (0, { s with dict := { s.dict with partials := tset s.dict.partials path (o.key, w) } })
/-- A segment of an image set for the inactive bank (20 R504). -/
def writeImage (s : State) (path : Nat) (o : Obj) (off : Nat) (v : List Byte) (images : List ImageCheck) : Nat × State :=
  transferBytes { s with dict := { s.dict with partials := tdel s.dict.partials path } } path off v.length
    (decide (v.length < 1024) || off + v.length == o.size) images

/-! Requests. -/

/-- A request that names an object (R463, R467). -/
def onObject (s : State) (path : Nat) (r : DictReq) (o : Obj) : DictAns × State :=
  let ans (n : Nat) (d : List Byte) : DictAns := { status := n, index := r.index, sub := r.sub, type := o.type, data := d }
  if r.type ≠ 0 ∧ r.type ≠ o.type then (ans stTypeMismatch [], s)
  else if isLarge o != (r.op == 3 || r.op == 4) then (ans stTypeMismatch [], s)
  else if (r.op = 3 ∨ r.op = 4) ∧ o.size ≤ r.off then (ans stValueOutOfRange [], s)
  else if r.op = 1 ∨ r.op = 3 then
    if o.access = .wo then (ans stAccessDenied [], s)
    else
      let v := readObj s o r.staged
      (ans 0 (if r.op = 1 then v.1 else (v.1.drop r.off).take 1024), v.2)
  else if r.op = 2 then (let w := writeObj s o r.data
    (ans w.1 [], w.2))
  else if writeDenied s o ≠ 0 then (ans (writeDenied s o) [], s)
  else
    let w := if o.key = 0x801001 then writeImage s path o r.off r.data r.images else writeSegment s path o r.off r.data
    (ans w.1 [], w.2)
/-- NEXT (R540). -/
def onNext (s : State) (r : DictReq) : DictAns × State :=
  match nextKey (r.index * 256 + r.sub) with
  | none => ({ status := stObjectUnknown, index := r.index, sub := r.sub, type := 0, data := [] }, s)
  | some k => match dictObj k with
    | none => ({ status := stObjectUnknown, index := r.index, sub := r.sub, type := 0, data := [] }, s)
    | some o =>
      if o.access = .wo then ({ status := 0, index := k / 256, sub := k % 256, type := o.type, data := [] }, s)
      else
        let v := readObj s o r.staged
        ({ status := 0, index := k / 256, sub := k % 256, type := o.type, data := v.1.take 1024 }, v.2)
/-- A request of a path (R465, R466). -/
def dictApply (s : State) (path : Nat) (r : DictReq) : DictAns × State :=
  if r.op = 0 ∨ 5 < r.op ∨ 1024 < r.len then ({ status := stDescriptorInvalid, index := r.index, sub := r.sub, type := 0, data := [] }, s)
  else if r.op = 5 then onNext s r
  else match dictObj (r.index * 256 + r.sub) with
    | none => ({ status := stObjectUnknown, index := r.index, sub := r.sub, type := 0, data := [] }, s)
    | some o => onObject s path r o
/-- A path answers: TDP from stage 0, the mailbox and the window from stage 2 (R468). -/
def pathUp (s : State) (path : DictPath) : Bool := match path with
  | .tdp => s.power.stage != 15
  | .mailbox => stageDone s 2
  | .window => stageDone s 2
/-- A request is applied and answered on its path. -/
def dictRequest (s : State) (path : DictPath) (r : DictReq) : State :=
  if !pathUp s path then s
  else
    let a := dictApply s (pathNo path) r
    emit a.2 (.reply path (replyHdr0 r a.1) (replyHdr1 r a.1) a.1.data)

end Sys2Proof.Machine
end

