-- ==== Sys2Proof/Machine/Dictionary.lean ====
section
/-! DEFINITION. The commands of the dictionary's paths (19 R463 to R473, R540). -/

namespace Sys2Proof.Machine

/-- READ (R463). -/
def execRead (path : DictPath) (index : BitVec 16) (sub type : Byte) (staged : Bool) (s : State) : Result :=
  .next (dictRequest s path { op := 1, staged := staged, type := type.toNat, index := index.toNat, sub := sub.toNat, len := 0, off := 0, tag := 0,
                              data := [] })
/-- WRITE (R463). -/
def execWrite (path : DictPath) (index : BitVec 16) (sub type : Byte) (value : List Byte) (s : State) : Result :=
  .next (dictRequest s path { op := 2, staged := false, type := type.toNat, index := index.toNat, sub := sub.toNat, len := value.length, off := 0,
                              tag := 0, data := value })
/-- SEG_READ (R467). -/
def execSegRead (path : DictPath) (index : BitVec 16) (sub : Byte) (off : BitVec 32) (staged : Bool) (s : State) : Result :=
  .next (dictRequest s path { op := 3, staged := staged, type := 0, index := index.toNat, sub := sub.toNat, len := 0, off := off.toNat, tag := 0,
                              data := [] })
/-- SEG_WRITE (R467). -/
def execSegWrite (path : DictPath) (index : BitVec 16) (sub : Byte) (off : BitVec 32) (value : List Byte) (images : List ImageCheck)
    (s : State) : Result :=
  .next (dictRequest s path { op := 4, staged := false, type := 0, index := index.toNat, sub := sub.toNat, len := value.length, off := off.toNat,
                              tag := 0, data := value, images := images })
/-- NEXT (R540). -/
def execNext (path : DictPath) (index : BitVec 16) (sub : Byte) (staged : Bool) (s : State) : Result :=
  .next (dictRequest s path { op := 5, staged := staged, type := 0, index := index.toNat, sub := sub.toNat, len := 0, off := 0, tag := 0, data := [] })

/-- DICT_REQUEST (R472): the mailbox itself succeeds, and a refusal is in STATUS. -/
def execDictRequest (hdr0 hdr1 : Word) (data : List Byte) (s : State) : Result :=
  .next (dictRequest { s with freeIdx := s.freeIdx + 1 } .mailbox (dictReq hdr0.toNat hdr1.toNat data (Config.imageSet s.freeIdx)))

/-- Event records from SEQ n on, of those that the log still holds. -/
def eventsFrom (s : State) (n k : Nat) : List Byte :=
  let first := max (max n 1) (s.dict.eventSeq + 1 - 6144)
  ((List.range k).map (first + ·)).flatMap (fun q =>
    if q ≤ s.dict.eventSeq ∧ thas s.dict.events ((q - 1) % 6144) = true then (slotWords s ((q - 1) % 6144)).flatMap (leBytes 8) else [])
/-- EVENT_READ (R472): up to 16 records. -/
def execEventRead (seq : BitVec 32) (s : State) : Result :=
  .next (if pathUp s .mailbox then emit s (.mailbox false (eventsFrom s seq.toNat 16)) else s)

/-- The window's registers (R473). -/
def dictOff (o : Nat) : Nat := 0x100000 + o
/-- DICT_WINDOW_GO (R473): the reply header replaces HDR0 and HDR1, and read data replaces MGT_DICT_DATA. -/
def execDictWindowGo (s : State) : Result :=
  .next (
    if !pathUp s .window then s
    else
      let data := (s.dict.window ++ zeros 1024).take 1024
      let r := dictReq (reg s (dictOff MGT_DICT_HDR0)) (reg s (dictOff MGT_DICT_HDR1)) data (Config.imageSet s.freeIdx)
      let a := dictApply { s with freeIdx := s.freeIdx + 1 } 2 r
      let s := setReg (setReg a.2 (dictOff MGT_DICT_HDR0) (replyHdr0 r a.1)) (dictOff MGT_DICT_HDR1) (replyHdr1 r a.1)
      { s with dict := { s.dict with window := a.1.data ++ data.drop a.1.data.length } })

/-- A request that TDP 1 does not allow (R470). -/
def tdp1Allows (op : Nat) : Bool := op == 1 || op == 2 || op == 5
/-- The answer to a request that a TDP frame carried: version 1 allows the operations it names alone (R470). -/
def tdpAnswer (s : State) (version : Nat) (r : DictReq) : DictAns × State :=
  if version = 1 ∧ tdp1Allows r.op = false then
    ({ status := stDescriptorInvalid, index := r.index, sub := r.sub, type := 0, data := [] }, s)
  else dictApply s 0 r
/-- The frame that carries an answer back, under the module's own sequence number. -/
def tdpSend (s : State) (version : Nat) (r : DictReq) (a : DictAns) : State :=
  let q := s.dict.tdpSeq
  let s := emit { s with dict := { s.dict with tdpSeq := q + 1 } } (.tdpReply version q)
  emit s (.reply .tdp (replyHdr0 r a) (replyHdr1 r a) a.data)
/-- TDP_FRAME_RECEIVE (R470): frames of another VERSION are discarded and counted; a request to the group address is applied and not
answered; an answer takes the request's version. -/
def execTdpFrameReceive (version msg : Fin 16) (_seq : BitVec 16) (group : Bool) (hdr0 hdr1 : Word) (data : List Byte) (s : State) : Result :=
  .next (
    if s.power.stage = 15 then s
    else
      let s := { s with dict := { s.dict with tdpReceived := s.dict.tdpReceived + 1 } }
      if version.val ≠ 1 ∧ version.val ≠ 2 then { s with dict := { s.dict with tdpDiscarded := s.dict.tdpDiscarded + 1 } }
      else if msg.val ≠ 0 then s
      else
        let r := dictReq hdr0.toNat hdr1.toNat data (Config.imageSet s.freeIdx)
        let s := { s with freeIdx := s.freeIdx + 1 }
        let a := tdpAnswer s version r
        if group then a.2 else tdpSend a.2 version r a.1)

end Sys2Proof.Machine
end

