-- ==== Sys2Proof/Machine/Faults.lean ====
section
/-! DEFINITION. Faults of cores, dies and connections (01 R17; 14 R350, R359 to R362). -/

namespace Sys2Proof.Machine

/-- CORE_INTERNAL_FAULT (14 R359): the management die fences the core. -/
def execCoreInternalFault (c : CoreId) (s : State) : Result := .next (fenceCore s c)

/-- FENCE_CORE_REQUEST (14 R359): a core number written to 0x4010:04; the last active core is refused, and a number that
names no active core changes nothing. The write's status is the dictionary's answer (19). -/
def execFenceCoreRequest (value : Byte) (s : State) : Result :=
  .next (fenceRequest s value.toNat).2

/-- ROUTER_FAULT (14 R361). -/
def execRouterFault (die : MeshDie) (s : State) : Result := .next (fenceRouter s die)

/-- RING_DIE_FAILURE (01 R17). -/
def execRingDieFailure (ring : Fin 20) (s : State) : Result := .next (failRing s (80 + ring))

/-- UCIE_MODULE_FAILURE (14 R350): the first module degrades the connection, the second takes it down. -/
def execUcieModuleFailure (die : MeshDie) (p : Fin 7) (s : State) : Result :=
  .next (match neighbour die p with
    | none => s
    | some e =>
      let k := connKey die p
      let n := tget 0 s.pkg.modulesFailed k
      let s := updPkg s (markModule k (n + 1))
      if n = 0 then raise s mgtDie 0x601 1 0 0 [die, e] else connFail s die p)

/-- ADAPTER_RETRY_EXHAUSTED (14 R350): the connection is down. -/
def execAdapterRetryExhausted (die : MeshDie) (p : Fin 7) (s : State) : Result := .next (connFail s die p)

/-- UCIE_ADAPTER_RETRY (14 R350): a retry of the hop is counted at the routers of its connection. -/
def execUcieAdapterRetry (die : MeshDie) (p : Fin 7) (s : State) : Result :=
  .next (match neighbour die p with
    | none => s
    | some e =>
      let s := bump s (rtrOff die MGT_RTR_HOP_RETRY_COUNT) 1
      if e < 80 then bump s (rtrOff e MGT_RTR_HOP_RETRY_COUNT) 1 else s)

/-- FENCE at a die (14 R360, R361): ACTION 1 stops the core of the die, ACTION 2 the router with its core; the
fence's other effects came with the decision, and come here where no decision of this device preceded. -/
def execFence (f : Frame) (die : DieId) (action : BitVec 2) (_epoch : BitVec 16) (s : State) : Result :=
  .next (onChain die f s (fun s => match dieCore die with
    | some c => if action = 1#2 then haltCore (fenceEffects s c) c else if action = 2#2 then haltCore (fenceRouter s die) c else s
    | none => s))

/-- ROUTE_WRITE at a die (14 R361): ten entries from FIRST; the rewrite ends when no entry leads into a lost connection. -/
def execRouteWrite (f : Frame) (die : DieId) (first : BitVec 8) (chainNet : Bool) (entries : BitVec 40) (s : State) : Result :=
  .next (onChain die f s (fun s =>
    let t := (List.range 10).foldl (fun t i =>
      let dst := first.toNat + i
      if dst < 100 then
        let e := bits entries.toNat (4 * i + 3) (4 * i)
        tset t ((b2n chainNet * 128 + die) * 128 + dst) (if chainNet then e % 8 else e)
      else t) s.pkg.routes
    let s := updPkg s (markRoutes t)
    if routesClean s then updPkg s markRewritten else s))

end Sys2Proof.Machine
end

