-- ==== Sys2Proof/Machine/Fetch.lean ====
section
/-! DEFINITION. Tags, and the bulk packets that serve them (10 R259 to R280; 13 R324 to R344; 14 R351 to R355). -/

namespace Sys2Proof.Machine

/-! Tags (10 R261, R269). -/

/-- TAG_ISSUE (10 R269): the next tag goes to the first class that has a request ready. -/
def execTagIssue (c : CoreId) (s : State) : Result := .next (tagStep s c false)
/-- SMALL_TRANSFER_HOLD_END (10 R261): the issue port is free again once its 40 ns have passed. -/
def execSmallTransferHoldEnd (c : CoreId) (s : State) : Result := .next (if portHeld s c then s else updCore s c (fun x => { x with portHold := none }))
/-- CLASS3_PROMOTION (10 R269): a class-3 request that has waited longer than 0x4070:06 is served ahead of class 2. -/
def execClass3Promotion (c : CoreId) (s : State) : Result := .next (tagStep s c true)

/-! READ_REQUEST (14 R351): the die that holds the address serves it. -/

/-- The tag of a core at a requesting die. -/
def tagAt (s : State) (die tag : Nat) : Option (Nat × Tag) := match dieCore die with
  | some c => (tfind (core s c).tags tag).map (fun g => (c, g))
  | none => none
/-- The hint of the slot that a tag reads for (09 R249). -/
def tagHint (s : State) (c : Nat) (g : Tag) : Nat := match (core s c).task with
  | some t => if t.slot = g.task ∧ t.copy = false ∧ g.kind ≠ 1 then sHint t.table g.slot else 0
  | none => 0
/-- Why the tier delays a row: retraining or a CRC retry at its MIF die, or a background activity that is critical there (19 R489). -/
def tierDelay (s : State) (a : Nat) (o : ReadOutcome) : Option Nat :=
  if !isNear a || s.cache.resident.contains (lineOf a) then none
  else if (stack s (stackOf a)).retraining = some (channelOf a) then some 2
  else match o with
    | .ok 0 =>
      let ch := stackOf a * 48 + channelOf a
      if tget 0 s.bg.tier (1 * 2 ^ 20 + ch) = 3 ∨ tget 0 s.bg.tier (3 * 2 ^ 20 + ch) = 3 then some 5 else none
    | .ok _ => some 2
    | .crcExhausted => some 2
    | _ => none

/-- What the side of the tag keeps of a read that a tier answered: the hint of a line that it filled (09 R249), and the cause of a late
row (10 R275). -/
def answeredTier (s : State) (fill : Bool) (status src : Nat) (tag : TagId) (a : Nat) (late : Option Nat) : State := match tagAt s src tag with
  | some (c, g) =>
    let s := if fill && status == stSuccess then hintLine s (lineOf a) (tagHint s c g) g.task else s
    match late with
    | some k => noteCause s c tag k
    | none => s
  | none => s
/-- What a read of an address gives: none for host memory, whose answer comes back later. -/
def serveRead (s : State) (t : BulkTag) (tag : TagId) (a : Nat) (n : Nat) (o : ReadOutcome) : State × Option (Nat × List Byte) :=
  if isNear a || isFar a then
    let r := readLine (askHost s a false) a o
    let s := answeredTier r.1 (!s.cache.resident.contains (lineOf a)) r.2 t.src tag a (tierDelay s a o)
    (s, some (r.2, if r.2 = stSuccess then mreadN s.mem a n else []))
  else if isSpm a then
    let r := readSpm s a
    (r.1, some (r.2.1, ((r.2.2.drop (a % 512)).take n)))
  else if isMirror a then (s, some (stSuccess, mirrorBytes s (a / 8 * 8) n))
  else if isHost a then (emit s (.cxlCache "RdCurr" (a - 0x400000000000) []), none)
  else (s, some (stProtectionFault, []))

/-- READ_REQUEST (14 R351): served, and answered with data or an error. -/
def execReadRequest (die : DieId) (t : BulkTag) (tag : TagId) (dpa : BitVec 52) (gran : Fin 8) (o : ReadOutcome) (s : State) : Result :=
  .next (onBulk die t s (fun s =>
    let r := serveRead s t tag dpa.toNat (64 * (gran + 1)) o
    match r.2 with
    | none => r.1
    | some (st, data) => sendBulk r.1 die t.src .readData tag st 0 data))

/-! READ_DATA (10 R259). -/

/-- The metadata and the scales of a tile reach the core in the same fetch as its values (05 R122): with the first row of a streamed tile they
are read through the home slices, and their bytes count. The first status that one of them meets, with its address. -/
def besideRows (s : State) (c : Nat) (t : CoreTask) (g : Tag) : State × Option (Nat × Nat) :=
  let d := sLayout t.table g.slot
  let f := dFmt d
  let n := (g.va - matrixValue d 0) / 512
  let o := n / orOne (planes f)
  if t.copy || g.kind == 1 || g.kind == 2 || dKind d == 1 || n % orOne (planes f) != 0 then (s, none)
  else
    let l := (if dKind d = 2 then linePieces (matrixMeta d 0 + o * tileMeta f) (tileMeta f) else [])
      ++ (if hasScale f then linePieces (matrixScale d 0 + o * tileScales f) (tileScales f) else [])
    let r := untilFault (fun s (p : Nat × Nat) => getLine s t.strand p.1) l s
    match r.2 with
    | none => (bumpCore r.1 c FET_BYTES_READ (l.map (·.2)).sum, none)
    | some (e, p) => (r.1, some (e, p.1))
/-- A row that the ingress of a running task takes: it lands in its stream's region, or is a boundary row of a chunk (05 R134). -/
def landRead (s : State) (c : Nat) (g : Tag) (data : List Byte) : State :=
  if g.kind = 1 then updCore s c (fun x => { x with reloadData := if x.reloads.contains g.row then tset x.reloadData g.row data else x.reloadData })
  else if g.kind = 2 then
    let s := updCore s c (fun x => { x with chunks := x.chunks.map (fun k => if k.idx = g.row then { k with rowsLeft := k.rowsLeft - 1 } else k) })
    if (core s c).chunks.any (fun k => k.idx == g.row && k.rowsLeft == 0 && !k.searched) then boundarySearch s c g.row else s
  else
    let row := tailRow s c g.mem g.region
    let s := landFetched s c g.mem g.region g.va data
    updTask s c (fun t => { t with landed := tmod 0 t.landed g.slot (· + 1),
                                   landedAt := tset t.landedAt (landedKey g.slot g.va) (rowDpa c g.mem row) })

/-- A wait for rows of a stream goes on until a stitch accepts them (02 R43); it keeps the lowest cause that one of its rows has met (02
R45). -/
def noteStall (s : State) (c i cause : Nat) : State :=
  if cause = 0 then s else
  let note (st : Stall) : Stall := if st.stream = some i then { st with cause := if st.cause = 0 then cause else min st.cause cause } else st
  updCore s c (fun x => { x with stall := x.stall.map note, episodes := x.episodes.map note })

/-- READ_DATA (10 R259, R275, R280): a row, or an error, for a tag. -/
def execReadData (c : CoreId) (t : BulkTag) (tag : TagId) (status : BitVec 16) (data : List Byte) (events : Fin 8) (cause : Fin 6)
    (s : State) : Result :=
  .next (onBulk (coreDie c) t s (fun s => match tfind (core s c).tags tag with
    | none => s
    | some g =>
      let cause := match tfind (core s c).lateCause tag, cause.val with
        | some k, 0 => k
        | some k, n => min k n
        | none, n => n
      let s := updCore s c (fun x => { x with lateCause := tdel x.lateCause tag })
      let s := freeTag s c tag
      if g.abandoned then
        if status = 0#16 then bumpCore s c FET_WASTE_BYTES 512 else bumpCore s c FET_ABORT_COUNT 1
      else if status ≠ 0#16 then faultCore (corrected s c g.stream events) c status.toNat g.stream g.slot g.va
      else
        let s := streamMoved (bumpCore s c FET_BYTES_READ 512) c g.stream 512
        let s := corrected s c g.stream events
        let beside := match (core s c).task with
          | some t => besideRows s c t g
          | none => (s, none)
        match beside.2 with
        | some (e, a) => faultCore beside.1 c e g.stream g.slot a
        | none => noteStall (landRead beside.1 c g data) c g.stream (if awaitsRow s c g then cause else 0)))

/-! Writes (08 R211 to R213; 12 R310; 10 R259). -/

/-- The answer to a write: an acknowledgement, a refusal, or an error of its tier. -/
def answerWrite (s : State) (die : Nat) (t : BulkTag) (tag cause status : Nat) : State :=
  if status ≠ 0 then sendBulk s die t.src .readData tag status 0 []
  else sendBulk s die t.src (if cause = 0 then .writeAck else .nack) tag 0 0 []
/-- Where a write is served. -/
def targetDie : WriteTarget → Nat
  | .window c _ _ => coreDie c
  | .foreignRow c _ => coreDie c
  | .tier a => if isHost a then hstDie else if isMirror a then mirrorDie a else if isSpm a then coreDie (spmCore a) else sliceDie (homeSlice a)
/-- Resends of a write are corrected events of its stream (10 R273). -/
def writeEvents (s : State) (t : BulkTag) (tag n : Nat) : State := match tagAt s t.src tag with
  | some (c, g) => if g.write then corrected s c g.stream n else s
  | none => s

/-- A landing row refused to a Limund source or a host goes back as R213 says; a core's refusal travels as a packet. -/
def refuseRow (s : State) (die : Nat) (t : BulkTag) (src : Source) (tag cause : Nat) : State := match src with
  | .core _ => answerWrite s die t tag cause 0
  | .strand n d => refuseStrand s d n cause
  | .host => postedDrop s stWindowViolation 1 0

/-- BULK_WRITE (08 R211): a row for a landing window, a foreign row, or a row for a tier; each is acknowledged (01 R535). -/
def execBulkWrite (t : BulkTag) (src : Source) (tag : TagId) (target : WriteTarget) (data : List Byte) (o : WriteOutcome) (s : State) :
    Result :=
  let die := targetDie target
  .next (onBulk die t s (fun s => match target with
    | .window c w off =>
      let r := ingressRow s c w off src data
      if r.2 = 0 then answerWrite r.1 die t tag 0 0 else refuseRow r.1 die t src tag r.2
    | .foreignRow c a =>
      let r := foreignRow s c a.toNat src data
      answerWrite r.1 die t tag r.2 0
    | .tier a =>
      if isHost a then answerWrite (emit s (.cxlCache "ItoMWr" (a - 0x400000000000) data)) die t tag 0 0
      else if isNear a || isFar a then
        let r := writeLine (askHost s a true) a data o
        answerWrite (writeEvents r.1 t tag (resends o)) die t tag 0 r.2
      else if isMirror a then answerWrite (mirrorWrite s t.src a data) die t tag 0 0
      else if isDebugView a then answerWrite s die t tag 0 0
      else if isSpm a then
        let r := windowStore s src a data
        if r.2 = 0 then answerWrite r.1 die t tag 0 0 else refuseRow r.1 die t src tag r.2
      else refuseRow s die t src tag 1))

/-- FP32 elements added to a row of bytes, in order, each sum rounded once (12 R310; 03 R71, R72). -/
def addRow (old data : List Byte) : List Byte := (addFp32 old data).1

/-- FP32 elements for a row of a landing window (08 R211, R212): they add through a window in accumulate mode. The cause of R212, 0 where they do. -/
def accumulateAt (s : State) (c w row off : Nat) (src : Source) (data : List Byte) : State × Nat :=
  let cause := if winMode s c w = 2 then rowCause s c w row src else if winState s c w = 1 then 4 else rowCause s c w row src
  if cause = 0 then (addWindow s c w row off data, 0) else (recordNack s c w row cause src, cause)
/-- ACCUMULATE_WRITE (12 R310): added by the home slice of a tier address, or by the ingress of a window in accumulate mode. -/
def execAccumulateWrite (t : BulkTag) (src : Source) (tag : TagId) (target : WriteTarget) (off : Nat) (data : List Byte) (s : State) : Result :=
  let die := targetDie target
  .next (onBulk die t s (fun s => match target with
    | .window c w row =>
      let r := accumulateAt s c w row (off % 512) src data
      if r.2 = 0 then answerWrite r.1 die t tag 0 0 else refuseRow r.1 die t src tag r.2
    | .foreignRow c a =>
      let r := foreignRow s c a.toNat src data
      answerWrite r.1 die t tag r.2 0
    | .tier a =>
      if isNear a || isFar a then
        let s := askHost s a true
        let r := if s.cache.resident.contains (lineOf (a + off)) then (s, stSuccess) else readMiss s (a + off) (.ok 0)
        if s.cache.poisoned.contains (lineOf (a + off)) then answerWrite s die t tag 0 stTierUncorrectable
        else if r.2 ≠ 0 then answerWrite r.1 die t tag 0 r.2
        else
          let old := mreadN r.1.mem (a + off) data.length
          let sum := addFp32 old data
          let w := writeLine r.1 (a + off) sum.1 (.ok 0)
          let counted := match dieCore t.src with
            | some c => if w.2 = 0 then bumpCore w.1 c CORE_NUM_INF_COUNT sum.2 else w.1
            | none => w.1
          answerWrite counted die t tag 0 w.2
      else if isSpm a then match windowOver s (spmCore a) (spmMem a) (spmRow a) with
        | none => refuseRow (recordNackAt s (spmCore a) (spmMem a) (spmRow a) 1 src) die t src tag 1
        | some w =>
          let r := accumulateAt s (spmCore a) w (spmRow a - winBase s (spmCore a) w) (off % 512) src data
          if r.2 = 0 then answerWrite r.1 die t tag 0 0 else refuseRow r.1 die t src tag r.2
      else refuseRow s die t src tag 1))

/-- WRITE_ACKNOWLEDGE (10 R259; 01 R29): the tag is free, and the span may commit. -/
def execWriteAcknowledge (c : CoreId) (t : BulkTag) (tag : TagId) (s : State) : Result :=
  .next (onBulk (coreDie c) t s (fun s => match tfind (core s c).tags tag with
    | none => s
    | some g =>
      let s := bumpCore s c FET_BYTES_WRITTEN 512
      let s := freeTag s c tag
      if g.abandoned then s else tryCommit (streamMoved s c g.stream 512) g.task))

/-- NEGATIVE_ACKNOWLEDGE (08 R213, 06 R156, 14 R355): ignored for a row of an attempt that the sender has abandoned; a refused write
ends the task with WINDOW_VIOLATION, a refused read with PROTECTION_FAULT. -/
def execNegativeAcknowledge (c : CoreId) (t : BulkTag) (tag : TagId) (read abandoned : Bool) (s : State) : Result :=
  .next (onBulk (coreDie c) t s (fun s =>
    let g := tfind (core s c).tags tag
    let s := if g.isSome then freeTag s c tag else s
    let gone := match g with
      | some g => g.abandoned
      | none => false
    if gone then bumpCore s c FET_ABORT_COUNT 1
    else if abandoned then s
    else faultCore s c (if read then stProtectionFault else stWindowViolation) ((g.map (·.stream)).getD 31) ((g.map (·.slot)).getD 0)
      ((g.map (·.va)).getD 0)))

/-! Registers over the network (14 R354). -/

/-- REGISTER_READ (14 R354): the owning die answers with the register. -/
def execRegisterRead (t : BulkTag) (off : BitVec 26) (s : State) : Result :=
  .next (onBulk (ownerDie off.toNat) t s (fun s => sendBulk s (ownerDie off.toNat) t.src .regData 0 (off.toNat / 8 * 8) 0 (leBytes 8 (regView s (off.toNat / 8 * 8)))))
/-- REGISTER_DATA (14 R354): delivered to the reader behind the die. -/
def execRegisterData (t : BulkTag) (dst : DieId) (value : Word) (s : State) : Result :=
  .next (onBulk dst t s (fun s => emit s (.regData dst value.toNat)))

/-! Routers and the replay store (14 R352, R353, R355). -/

/-- Packets that their source keeps, without one of them. -/
def dropBulk (s : State) (src dst seq : Nat) : State :=
  { s with net := { s.net with bulk := s.net.bulk.filter (fun b => !(b.src == src && b.dst == dst && b.seq == seq)) } }
/-- A request or a write, which is refused with an answer. -/
def asks : BulkType → Bool
  | .readRequest | .write | .accWrite | .regWrite | .regRead => true
  | _ => false
/-- The row that a read request or read data carries was detoured or resent (02 R45, cause 3). -/
def noteDetour (s : State) (src dst : Nat) (type : BulkType) (tag : Nat) : State := match type with
  | .readRequest => match dieCore src with
    | some c => noteCause s c tag 3
    | none => s
  | .readData => match dieCore dst with
    | some c => noteCause s c tag 3
    | none => s
  | _ => s
/-- The tag of a packet that its source keeps. -/
def packetTag (s : State) (src dst seq : Nat) : Nat :=
  ((s.net.bulk.find? (fun b => b.src == src && b.dst == dst && b.seq == seq)).map (·.tag)).getD 0
/-- BULK_PACKET_HOP (14 R352, R355): forwarded on the port that the route table names, on VC1 from the first entry that sets it; an
entry of 7 discards the packet. -/
def execBulkPacketHop (router : MeshDie) (t : BulkTag) (dst : DieId) (type : BulkType) (gran : Fin 8) (vc1 : Bool) (s : State) : Result :=
  let e := routeEntry s false router dst
  .next (if e % 8 = 7 then
      let s := bump s (rtrOff router MGT_RTR_NACK_COUNT) 1
      if asks type then
        sendBulk (dropBulk s t.src dst t.seq) router t.src .nack (packetTag s t.src dst t.seq) 0 0 []
      else s
    else
      let s := bump s (rtrOff router MGT_RTR_FWD_BYTES) (24 + 64 * (gran + 1))
      if vc1 || bit e 3 then
        noteDetour (bump s (rtrOff router MGT_RTR_DETOUR_COUNT) 1) t.src dst type (packetTag s t.src dst t.seq)
      else s)

/-- END_TO_END_ACKNOWLEDGE (14 R353): the source's replay store lets go of the packets that it covers. -/
def execEndToEndAcknowledge (die peer : DieId) (base : Fin 65536) (bitmap : BitVec 32) (s : State) : Result :=
  let got := ((List.range 32).filter (fun i => bit bitmap.toNat i)).map (fun (i : Nat) => (base.val + i) % 65536)
  .next { s with net := { s.net with bulk := s.net.bulk.filter (fun b => !(b.src == die.val && b.dst == peer.val && got.contains b.seq)) } }

/-- BULK_RESEND_TIMEOUT (14 R353): a packet unacknowledged for the time in 0x4010:01 is sent again with RESENT set. -/
def execBulkResendTimeout (src dst : DieId) (seq : Fin 65536) (s : State) : Result :=
  let mine (b : BulkSend) : Bool := b.src == src.val && b.dst == dst.val && b.seq == seq.val
  .next (match s.net.bulk.find? mine with
    | some b =>
      if now s < b.sentAt + objNat s 0x401001 then s else
      let s := { s with net := { s.net with bulk := s.net.bulk.map (fun b => if mine b then { b with resent := true, sentAt := now s } else b) } }
      noteDetour (bump s (rtrOff src MGT_RTR_RESEND_COUNT) 1) src dst b.type b.tag
    | none => s)

end Sys2Proof.Machine
end

