-- ==== Sys2Proof/Machine/HstTasks.lean ====
section
/-! DEFINITION. Commands of the host interface die: doorbells, fetching, dispatch, completion, cancellation (16 R407 to R418; 04 R102
to R106; 12 R301; 13 R341). -/

namespace Sys2Proof.Machine

/-! Doorbells (R408, R421). -/

/-- An SQ tail doorbell. -/
def tailDoorbell (s : State) (q v : Nat) : State :=
  let w := reg s (sqOff q 0)
  if bit w 0 && decide (v % 65536 < 2 ^ bits w 19 15) && !s.hst.closing.contains q then setField s (sqOff q 3) 31 16 v
  else postedDrop s stDoorbellInvalid 0 q
/-- A CQ head doorbell: entries up to the new HEAD are free. -/
def headDoorbell (s : State) (q v : Nat) : State :=
  if bit (reg s (cqOff q 0)) 0 && decide (v % 65536 < cqSize s q) then
    let taken := (v % 65536 + cqSize s q - cqHead s q) % cqSize s q
    let s := { s with hst := { s.hst with cqHeld := tset s.hst.cqHeld q (cqHeld s q - taken) } }
    setField s (cqOff q 2) 15 0 v
  else postedDrop s stDoorbellInvalid 0 q

/-- SQ_TAIL_DOORBELL (R408). -/
def execSqTailDoorbell (q : HostQueue) (value : Word) (s : State) : Result := .next (tailDoorbell s q value.toNat)
/-- CQ_HEAD_DOORBELL (R408). -/
def execCqHeadDoorbell (q : HostQueue) (value : Word) (s : State) : Result := .next (headDoorbell s q value.toNat)
/-- DOORBELL (R408, R413): a doorbell that came over the chain. -/
def execDoorbell (f : Frame) (cqHead : Bool) (q : HostQueue) (value : BitVec 16) (s : State) : Result :=
  .next (onChain hstDie f s (fun s => if cqHead then headDoorbell s q value.toNat else tailDoorbell s q value.toNat))

/-- An SQ whose ENABLE has come to 0 fetches no more: a cancel that waits for one of its descriptors finds no task (log entry 54). -/
def dropCancels (s : State) (q : Nat) : State :=
  let rest := s.hst.cancels.filter (fun c => c.1 != q)
  if rest.length = s.hst.cancels.length then s
  else { s with hst := { s.hst with cancels := rest, cancelResult := if rest.isEmpty && s.hst.cancelWait.isEmpty then 2 else s.hst.cancelResult } }
/-- QUEUE_PAIR_ENABLE (R407): the write of word 0 of an SQ or CQ entry. -/
def execQueuePairEnable (cq : Bool) (q : HostQueue) (value : Word) (s : State) : Result :=
  .next (
    let v := if cq then bits value.toNat 41 0 else bits value.toNat 19 0
    let off := if cq then cqOff q 0 else sqOff q 0
    let was := bit (reg s off) 0
    if cq then
      if bit v 0 then
        let ok := decide (1 ≤ bits v 5 1 ∧ bits v 5 1 ≤ 16)
        let s := setField (setReg s off v) off 0 0 (b2n ok)
        if ok && !was then
          let s := setReg s (cqOff q 2) (2 ^ 32)
          { s with hst := { s.hst with cqHeld := tset s.hst.cqHeld q 0, unsignalled := tdel s.hst.unsignalled q } }
        else s
      else if was && (List.range 4096).any (fun k => bit (reg s (sqOff k 0)) 0 && sqCq s k == q.val) then
        bump s (hstOff HST_CFG_REJECT_COUNT) 1
      else setReg s off v
    else if bit v 0 then
      let lim := reg s (sqOff q 2)
      let ok := decide (1 ≤ bits v 19 15 ∧ bits v 19 15 ≤ 16) && bit (reg s (cqOff (bits v 14 3) 0)) 0 && decide (bits lim 17 0 ≤ bits lim 35 18)
      let s := setField (setReg s off v) off 0 0 (b2n ok)
      if ok && !was then setReg s (sqOff q 3) 0 else s
    else if was && !((fetched s q).isEmpty && !(busySlots s).any (fun k => (slotOf s k).sq == q.val)) then
      let s := setField (setReg s off v) off 0 0 1
      { s with hst := { s.hst with closing := q.val :: s.hst.closing.filter (· != q.val) } }
    else dropCancels (setReg s off v) q)

/-- An SQ that is being closed has run what it had fetched: ENABLE reads 0 (R407). -/
def settleClosing (s : State) : State :=
  each s.hst.closing s (fun s q =>
    if (fetched s q).isEmpty && !(busySlots s).any (fun k => (slotOf s k).sq == q) && !s.hst.refused.any (fun r => r.1 == q) then
      let s := { s with hst := { s.hst with closing := s.hst.closing.filter (· != q) } }
      dropCancels (setField s (sqOff q 0) 0 0 0) q
    else s)

/-- A cancel that waits for a task that was not fetched yet looks at the next descriptor of its SQ (R418). -/
def lookCancel (s : State) (q cmd : Nat) : State × Bool :=
  match s.hst.cancels.find? (fun c => c.1 == q) with
  | none => (s, false)
  | some c =>
    let rest := s.hst.cancels.filter (fun d => d.1 != q)
    if c.2.1 = cmd then ({ s with hst := { s.hst with cancels := rest } }, true)
    else if c.2.2 ≤ 1 then
      ({ s with hst := { s.hst with cancels := rest, cancelResult := if rest.isEmpty && s.hst.cancelWait.isEmpty then 2 else s.hst.cancelResult } }, false)
    else ({ s with hst := { s.hst with cancels := rest ++ [(q, c.2.1, c.2.2 - 1)] } }, false)

/-- DESCRIPTOR_FETCH (R397, R408, R410), once stage 4 has completed: descriptors from HEAD, at most up to TAIL; each waits for dispatch or completes without it. -/
def execDescriptorFetch (q : HostQueue) (ds : List (List Word)) (s : State) : Result :=
  .next (
    let w := reg s (sqOff q 0)
    let size := 2 ^ bits w 19 15
    let head := bits (reg s (sqOff q 3)) 15 0
    let avail := (bits (reg s (sqOff q 3)) 31 16 + size - head) % size
    if !stageDone s 4 || !bit w 0 || s.hst.closing.contains q.val then s
    else
      let l := (ds.take (min 16 avail)).map (fun d => d.map (·.toNat))
      let s := setField s (sqOff q 3) 15 0 ((head + l.length) % size)
      each l s (fun s d =>
        let seq := s.hst.fetchSeq
        let s := { s with hst := { s.hst with fetchSeq := seq + 1 } }
        let (s, hit) := lookCancel s q (tCmdId d)
        let v := verdict s q d
        if hit then refuseTask { s with hst := { s.hst with cancelWait := seq :: s.hst.cancelWait } } q seq d stCancelled
        else if v ≠ 0 then refuseTask s q seq d v
        else setFetched s q (fetched s q ++ [{ words := d, seq := seq }])))

/-! Dispatch to cores (R411 to R413). -/

/-- A task of cores that may not run after all completes without dispatch. -/
def dropFront (s : State) (q : Nat) (d : Desc) (status : Nat) : State :=
  refuseTask (leaveWaits (setFetched s q ((fetched s q).drop 1)) q) q d.seq d.words status

/-- The slot of a task that goes to cores. -/
def coreSlot (s : State) (q : Nat) (d : Desc) (table shape schedule : List Nat) : Slot :=
  { newSlot q d.seq d.words with mask := tCores d.words &&& activeMask s, table := table, shape := shape, schedule := schedule,
                                 freedMasks := freeingMasks s, activeAt := activeMask s, spans := if tOpcode d.words = 2 then 1 else spansOf table shape }

/-- 64-bit words of the stream schedule at an address: the header, and the entries that it counts (10 R262). -/
def scheduleWords (s : State) (n sb : Nat) : Nat := match readWords s n sb 8 with
  | some h => if schedStreams h ≤ 16 then 8 + 4 * schedStreams h else 8
  | none => 8
/-- COMPUTE (R411, R412; 09 R238, R250; 10 R262): the front task goes to its cores. It waits while a core is taken, while a
lifeline holds it, and for a row counter. -/
def execCompute (q : HostQueue) (s : State) : Result :=
  .next (match frontTask s q 1 with
    | none => s
    | some d =>
      let n := tStrand d.words
      let seed := strandWord s n 2
      if coresBad s d.words ≠ 0 then dropFront s q d (coresBad s d.words)
      else if (coresOf (tCores d.words &&& activeMask s)).any (coreTaken s) then s
      else if stepHolds s n (tStep d.words) then noteHold s q n
      else
        let t := (readWords s n (tArg0 d.words) 200).getD []
        let shapes := getRange s n (hShapeBase t) (if hShapeBase t = 0 then 0 else 64)
        let counted := claimsMode t && sSource t (cClaimSlot t) == 0
        if counted && (freeCounter s).isNone then { s with hst := { s.hst with counterWaiting := q.val :: s.hst.counterWaiting.filter (· != q.val) } }
        else if shapes.2 ≠ stSuccess then dropFront shapes.1 q d shapes.2
        else
            let s := shapes.1
            let shape := (readShape s n (hShapeBase t)).getD []
            let sb := hScheduleBase t
            let sched := getRange s n sb (if sb = 0 then 0 else 8 * scheduleWords s n sb)
            if sched.2 ≠ stSuccess then dropFront sched.1 q d sched.2
            else
              let s := sched.1
              let w := if sb = 0 then [] else (readWords s n sb (scheduleWords s n sb)).getD []
              if sb ≠ 0 ∧ t ≠ [] ∧ scheduleBad t w = true then
                dropFront { s with hst := { s.hst with schedInvalid := s.hst.schedInvalid + 1 } } q d stScheduleInvalid
              else match freeSlot s with
                | none => s
                | some k =>
                  let s := takeFront s q d
                  let (s, base) := takeTokens s n t shape
                  let c := if counted then freeCounter s else none
                  let s := match c with
                    | some c => updCounter s c (fun _ => { reserved := true, slot := k })
                    | none => s
                  sendDispatch (setSlot s k { coreSlot s q d t shape w with counter := c, tokenBase := base, seed := seed }) k)

/-- COPY (12 R301; R411, R413). -/
def execCopy (q : HostQueue) (s : State) : Result :=
  .next (match frontTask s q 2 with
    | none => s
    | some d =>
      let n := tStrand d.words
      let seed := strandWord s n 2
      if coresBad s d.words ≠ 0 then dropFront s q d (coresBad s d.words)
      else if (coresOf (tCores d.words &&& activeMask s)).any (coreTaken s) then s
      else if stepHolds s n (tStep d.words) then noteHold s q n
      else match freeSlot s with
        | none => s
        | some k =>
          let t := (readWords s n (tArg0 d.words) 32).getD []
          let s := takeFront s q d
          sendDispatch (setSlot s k { coreSlot s q d t [] [] with seed := seed }) k)

/-! Tasks that the host interface die runs. -/

/-- MASK_LOAD (04 R102, R103, R106). -/
def execMaskLoad (q : HostQueue) (s : State) : Result :=
  .next (match frontTask s q 3 with
    | none => s
    | some d =>
      let n := tStrand d.words
      if stepHolds s n (tStep d.words) then noteHold s q n
      else
        let s := takeFront s q d
        let got := getRange s n (tArg0 d.words) 64
        let s := got.1
        if got.2 ≠ stSuccess then endedTask s q d.seq d.words got.2 0
        else
          let l := (readWords s n (tArg0 d.words) 8).getD []
          let meta_ := getRange s n (maskBytes l).1 (maskBytes l).2
          let s := meta_.1
          let r := loadMask s n l (bit (tArg1 d.words) 0) meta_.2
          if r.1 = stSuccess then
            let m : Mask := { strand := n, base := dAux0 l, h := dH l, w := dW l, fmt := dFmt l, transposable := bit (tArg1 d.words) 0 }
            endedTask { s with hst := { s.hst with masks := tset s.hst.masks r.2 m, masksLoaded := s.hst.masksLoaded + 1 } } q d.seq d.words stSuccess r.2
          else endedTask { s with hst := { s.hst with masksRefused := s.hst.masksRefused + 1 } } q d.seq d.words r.1 0)

/-- MASK_FREE (04 R106): completes when no dispatched task names the mask; the strand must own it. -/
def execMaskFree (q : HostQueue) (s : State) : Result :=
  .next (match frontTask s q 4 with
    | none => s
    | some d =>
      let n := tStrand d.words
      if stepHolds s n (tStep d.words) then noteHold s q n
      else
        let s := takeFront s q d
        let id := bits (tArg1 d.words) 9 0
        match tfind s.hst.masks id, freeSlot s with
        | some m, some k =>
          if m.strand ≠ n ∨ (freeingMasks s).contains id = true then endedTask s q d.seq d.words stMaskUnknown 0
          else settleMasks { setSlot s k (newSlot q d.seq d.words) with hst := { (setSlot s k (newSlot q d.seq d.words)).hst with maskFrees := s.hst.maskFrees ++ [(k, id)] } }
        | _, _ => endedTask s q d.seq d.words stMaskUnknown 0)

/-- Peers of a barrier's list. -/
def peerList (s : State) (n a k : Nat) : List Nat := (List.range k).map (fun i => placeLe s (.va n) (a + 2 * i) 2 % 4096)

/-- BARRIER (R414): the arrivals of its generation are counted from now on; a BARRIER goes to every listed device. -/
def execBarrier (q : HostQueue) (s : State) : Result :=
  .next (match frontTask s q 5 with
    | none => s
    | some d =>
      let n := tStrand d.words
      if stepHolds s n (tStep d.words) then noteHold s q n
      else
        let s := takeFront s q d
        let x := { newSlot q d.seq d.words with since := now s }
        let peers := bits x.arg1 39 28
        match rangeFault s n x.arg0 (2 * peers) false with
        | some e => endedTask s q d.seq d.words e 0
        | none =>
          let l := peerList s n x.arg0 peers
          if l.any (fun v => decide (16 ≤ routePort s v)) then endedTask s q d.seq d.words stPeerUnreachable (barGen x)
          else match freeSlot s with
            | none => s
            | some k =>
              let b := barId x
              let y := barrierOf s b
              let y : Barrier := if y.gen = barGen x then y
                else { gen := barGen x, now := if barGen x = (y.gen + 1) % 65536 then y.next else [], next := [] }
              let s := setSlot s k { x with table := l }
              let s := { s with hst := { s.hst with barriers := tset s.hst.barriers b y } }
              let s := each l s (fun s v => controlTo s 1 v (b + barGen x * 2 ^ 12))
              settleBarrier s b)

/-- Store a barrier entry. -/
def putBarrier (s : State) (b : Nat) (y : Barrier) : State := { s with hst := { s.hst with barriers := tset s.hst.barriers b y } }
/-- BARRIER_ARRIVAL (R414): counted for the current generation or the next; any other is stale. -/
def execBarrierArrival (f : Frame) (b : BitVec 12) (gen : BitVec 16) (srcDev : BitVec 12) (s : State) : Result :=
  .next (onChain hstDie f s (fun s =>
    let y := barrierOf s b.toNat
    if gen.toNat = y.gen then settleBarrier (putBarrier s b.toNat { y with now := y.now ++ [srcDev.toNat] }) b.toNat
    else if gen.toNat = (y.gen + 1) % 65536 then putBarrier s b.toNat { y with next := y.next ++ [srcDev.toNat] }
    else bump s (hstOff HST_BAR_STALE_COUNT) 1))

/-- INVALIDATE (13 R341): every translation cache drops its entries of the range. -/
def execInvalidate (q : HostQueue) (s : State) : Result :=
  .next (match frontTask s q 6 with
    | none => s
    | some d =>
      let n := tStrand d.words
      if stepHolds s n (tStep d.words) then noteHold s q n
      else
        let s := takeFront s q d
        match freeSlot s with
        | none => s
        | some k =>
          let a := tArg0 d.words
          let len := tArg1 d.words
          let s := setSlot s k (newSlot q d.seq d.words)
          let s := { s with hst := { s.hst with invalidating := s.hst.invalidating ++ [(k, n, a, len)] } }
          each (s.cores.map (·.1)) s (fun s c => updCore s c (fun x => { x with xlt := x.xlt.filter (fun e =>
            !(e.1 == n && overlaps e.2.1 e.2.2 a len)) })))

/-- INVALIDATE_COMPLETE (13 R341): when every tag issued in the range has ended. -/
def execInvalidateComplete (slot : SlotId) (s : State) : Result :=
  .next (match s.hst.invalidating.find? (fun i => i.1 == slot.val) with
    | none => s
    | some (k, n, a, len) =>
      let open_ := s.cores.any (fun c => c.2.tags.any (fun t => (slotOf s t.2.task).strand == n && overlaps t.2.va 512 a len))
      if open_ then s
      else updSlot { s with hst := { s.hst with invalidating := s.hst.invalidating.filter (fun i => i.1 != k) } } k
        (fun x => if x.busy && !x.ending then { x with ending := true, status := stSuccess } else x))

/-- NOP (R409). -/
def execNop (q : HostQueue) (s : State) : Result :=
  .next (match frontTask s q 7 with
    | none => s
    | some d =>
      let n := tStrand d.words
      if stepHolds s n (tStep d.words) then noteHold s q n
      else endedTask (takeFront s q d) q d.seq d.words stSuccess 0)

/-! Completion and cancellation. -/

/-- COMPLETION_WRITE (R415 to R417): of a slot that is ready, when its CQ has room. -/
def execCompletionWrite (k : SlotId) (s : State) : Result :=
  .next (if slotReady s k && !cqFull s (sqCq s (slotOf s k).sq) then settleClosing (writeCompletion s k) else s)

/-- MSIX_AGGREGATION_TIMEOUT (R417). -/
def execMsixAggregationTimeout (cq : HostQueue) (s : State) : Result :=
  .next (match tfind s.hst.unsignalled cq with
    | none => s
    | some (_, t) =>
      let lim := bits (reg s (cqOff cq 0)) 41 26 * 100
      if lim ≠ 0 ∧ t + lim ≤ now s then signalCq s cq else s)

/-- Cancel one task that is fetched or running: by its number. -/
def cancelOne (s : State) (q seq : Nat) : State :=
  let s := { s with hst := { s.hst with cancelWait := seq :: s.hst.cancelWait } }
  match (fetched s q).find? (fun d => d.seq == seq) with
  | some d =>
    let s := if ((fetched s q).head?.map (·.seq)) = some seq then leaveWaits s q else s
    refuseTask (setFetched s q ((fetched s q).filter (fun e => e.seq != seq))) q seq d.words stCancelled
  | none => match (busySlots s).find? (fun k => (slotOf s k).sq == q && (slotOf s k).seq == seq) with
    | some k => endTask s k stCancelled hstDie none true
    | none => s

/-- HST_CANCEL (R418). -/
def execHstCancel (value : Word) (s : State) : Result :=
  .next (
    let v := value.toNat
    let q := bits v 11 0
    let cmd := bits v 27 12
    let scope := bits v 29 28
    let running := ((busySlots s).filter (fun k => (slotOf s k).sq == q)).map (fun k => ((slotOf s k).seq, (slotOf s k).cmdId))
    let all := running ++ (fetched s q).map (fun d => (d.seq, tCmdId d.words))
    if scope = 0 then
      match (all.filter (fun p => p.2 == cmd)).map (·.1) with
      | x :: xs => cancelOne { s with hst := { s.hst with cancelResult := 1 } } q (xs.foldl min x)
      | [] =>
        let size := 2 ^ bits (reg s (sqOff q 0)) 19 15
        let left := (bits (reg s (sqOff q 3)) 31 16 + size - bits (reg s (sqOff q 3)) 15 0) % size
        if left = 0 then { s with hst := { s.hst with cancelResult := 2 } }
        else { s with hst := { s.hst with cancelResult := 1, cancels := s.hst.cancels ++ [(q, cmd, left)] } }
    else if scope = 1 then
      if all.isEmpty then { s with hst := { s.hst with cancelResult := 2 } }
      else each (all.map (·.1)) { s with hst := { s.hst with cancelResult := 1 } } (fun s seq => cancelOne s q seq)
    else s)

end Sys2Proof.Machine
end

