-- ==== Sys2Proof/Machine/Lifeline.lean ====
section
/-! DEFINITION. Commands of the lifeline (17), and the link commands that it listens to (15 R379, R381). -/

namespace Sys2Proof.Machine

/-- An action ends: RESULT 0 done, 2 refused with a status. -/
def llEnd (s : State) (result status : Nat) : State := { s with llResult := result, llStatus := status }
/-- Strands with a lifeline role. -/
def llRoles (s : State) : Nat := (s.lifelines.filter (fun p => p.2.role != 0)).length
/-- The lowest free entry of the lifeline table. -/
def llIndex (s : State) : Nat := ((List.range 256).find? (fun i => !s.lifelines.any (fun p => p.2.role != 0 && p.2.index == i))).getD 255
/-- The largest power of two not above k. -/
def pow2Below (k : Nat) : Nat := 2 ^ k.log2
/-- The block at MGT_LL_ARG, through a strand's translation. -/
def llBlock (s : State) (n k : Nat) : Option (List Nat) := readWords s n (bits (reg s (llOff MGT_LL_ARG)) 47 0) k

/-- ARM (R425, R428): refused on a strand that is no training stream with a link, beyond 256 roles, and for a K_MAX of 0. -/
def execArm (n : StrandId) (s : State) : Result :=
  .next (if s.llResult = 1 then s else
    if !linkOk s n || bits (strandWord s n 0) 4 3 != 1 then llEnd s 2 stStrandInvalid
    else if (lifeline s n).role = 0 ∧ 256 ≤ llRoles s then llEnd s 2 stValueOutOfRange
    else match llBlock s n 8 with
      | none => llEnd s 2 stTranslationFault
      | some w =>
        let k := bits (word w 0) 15 0
        if k = 0 then llEnd s 2 stValueOutOfRange
        else
          let p := pow2Below k
          let i := if (lifeline s n).role = 0 then llIndex s else (lifeline s n).index
          let s := setLl s n (fun x => { role := 1, state := 1, setup := w, kMax := k, period := p, kCur := p, index := i, armedAt := now s,
                                         securedStep := x.securedStep, anchorStep := x.anchorStep, dataPos := x.dataPos, rngStep := x.rngStep })
          let x := lifeline s n
          postRecord (llEnd s 1 0) n 0x000 [s.power.feedId % 16 + k * 2 ^ 4, 512 + suParamBytes x + suOptBytes x])

/-- HOLD (R425, R427): the strand becomes a holder of three slots. -/
def execHold (n : StrandId) (s : State) : Result :=
  .next (if s.llResult = 1 then s else
    if !linkOk s n || bits (strandWord s n 0) 4 3 != 1 then llEnd s 2 stStrandInvalid
    else if (lifeline s n).role = 0 ∧ 256 ≤ llRoles s then llEnd s 2 stValueOutOfRange
    else match llBlock s n 2 with
      | none => llEnd s 2 stTranslationFault
      | some w =>
        let i := if (lifeline s n).role = 0 then llIndex s else (lifeline s n).index
        llEnd (setLl s n (fun _ => { role := 2, index := i, slotVa := bits (word w 0) 47 0, slotBytes := bits (word w 1) 39 0 })) 0 0)

/-- LIFELINE_DISARM (R427): the state clears after any securing in flight ends. -/
def execLifelineDisarm (n : StrandId) (s : State) : Result :=
  .next (if s.llResult = 1 then s
    else if (lifeline s n).securing then llEnd (updLifeline s n (fun x => { x with disarming := true })) 1 0
    else llEnd (setLl s n (fun _ => {})) 0 0)

/-- RESTORE (R438). -/
def execRestore (n : StrandId) (s : State) : Result :=
  .next (if s.llResult = 1 then s else
    let x := lifeline s n
    if !strandLive s n || x.role != 1 then llEnd s 2 stStrandInvalid
    else match llBlock s n 4 with
      | none => llEnd s 2 stTranslationFault
      | some w =>
        let pos := word w 0
        let d := pos - suDataBase x
        if pos < suDataBase x ∨ d % orOne (suSamples x) ≠ 0 ∨ suSamples x = 0 then llEnd s 2 stValueOutOfRange
        else
          let t := (suStepBase x + d / suSamples x) % 2 ^ 64
          let before := (t + 2 ^ 64 - 1) % 2 ^ 64
          let s := setLl s n (fun x => { x with securedStep := t, dataPos := pos, anchorStep := word w 2, failures := x.failures + 1 })
          let s := updStrand s n (fun y => { y with stepLast := before })
          let skew := unsigned 64 ((word w 1 : Int) - ((t : Int) - 1))
          let s := setReg s (llOff MGT_LL_SKEW) skew
          let s := if skew = 0 then s
            else raise { s with drawSkews := s.drawSkews + 1 } mgtDie 0x903 1 n 0 [n, skew]
          llEnd (setReg s (llOff MGT_LL_NEXT_STEP) t) 0 0)

/-- A holder's answer to a request for slots of a size: 0 taken, 1 the slots are too small, 2 no holder (R428). -/
def armAnswer (x : Lifeline) (bytes : Nat) : Nat := if x.role ≠ 2 then 2 else if x.slotBytes < bytes then 1 else 0
/-- ARM_REQ (R428) at the holder: the answer carries its feed and its slot size. -/
def execArmReq (n : StrandId) (feed : BitVec 4) (_kMax : BitVec 16) (slotBytes : BitVec 40) (s : State) : Result :=
  .next (
    let x := lifeline s n
    let r := armAnswer x slotBytes.toNat
    let s := if r = 0 then setLl s n (fun x => { x with state := 2, partnerFeed := feed.toNat, needBytes := slotBytes.toNat, hmark := none }) else s
    postRecord s n 0x040 [s.power.feedId % 16 + r * 2 ^ 4, x.slotBytes])

/-- ARM_ACK (R428) at the source. -/
def execArmAck (n : StrandId) (feed : BitVec 4) (result : BitVec 2) (_slotBytes : BitVec 40) (s : State) : Result :=
  .next (
    let x := lifeline s n
    if x.role ≠ 1 ∨ x.state ≠ 1 then s
    else
      let same := feed.toNat == s.power.feedId % 16
      if result ≠ 0#2 then llEnd (setLl s n (fun x => { x with state := 0 })) 2 stValueOutOfRange
      else if same && objNat s 0x700102 == 0 then llEnd (setLl s n (fun x => { x with state := 0 })) 2 stPartnerSameFeed
      else if same then
        let s := setLl s n (fun x => { x with state := 2, correlated := true, partnerFeed := feed.toNat })
        llEnd (raise { s with correlatedArms := s.correlatedArms + 1 } mgtDie 0x901 1 n 0 [n, peerDev s n]) 0 0
      else llEnd (setLl s n (fun x => { x with state := 2, partnerFeed := feed.toNat })) 0 0)

/-- ARM_TIMEOUT (R428): no ARM_ACK within 10 ms. -/
def execArmTimeout (n : StrandId) (s : State) : Result :=
  .next (if (lifeline s n).role = 1 ∧ (lifeline s n).state = 1 then
      llEnd (setLl s n (fun x => { x with state := 0 })) 2 stPeerUnreachable else s)

/-! The holder (R432 to R434). -/

/-- A word of a slot's header in the holder strand's translation. -/
def slotWord (s : State) (n k w : Nat) : Nat :=
  let x := lifeline s n
  match translate s n (x.slotVa + k * x.slotBytes + 8 * w) false with
  | .ok a => rd64 s a
  | .err _ => 0
/-- The anchor slot: valid, ANCHOR 1, the highest step (R433). -/
def anchorSlot (s : State) (n : Nat) : Option Nat :=
  ((List.range 3).filter (fun k => bit (slotWord s n k 0) 0 && bit (slotWord s n k 4) 12)).foldl (fun b k => match b with
    | none => some k
    | some j => if slotWord s n j 1 < slotWord s n k 1 then some k else some j) none
/-- COMMIT answers a securing (R432 step 6, R434). -/
def answerCommit (s : State) (n : Nat) (bad : Bool) : State :=
  let x := lifeline s n
  match x.hmark with
  | none => s
  | some (step, dataPos, rng, anchor) =>
    let a := x.slotVa + x.slot * x.slotBytes
    let w := if bad then (s, stSuccess, 0) else
      linkWrite s (strandLink s n) n a ([1, step, dataPos, rng, peerDev s n + b2n anchor * 2 ^ 12, x.received].flatMap (leBytes 8))
    let s := w.1
    let bad := bad || decide (w.2.1 ≠ stSuccess)
    let s := updLifeline s n (fun x => { x with hmark := none, committedSlot := if bad then x.committedSlot else some x.slot })
    postRecord s n 0x0C0 [step, x.slot + b2n bad * 2 ^ 2]

/-- MARK (R432 step 3, R433): the slot is neither the anchor slot nor the latest committed; its header first reads VALID 0. -/
def execMark (n : StrandId) (step dataPos rngStep : Word) (paramBytes : BitVec 40) (anchor : Bool) (s : State) : Result :=
  .next (
    let x := lifeline s n
    if x.role ≠ 2 then s
    else
      let k := ((List.range 3).find? (fun k => anchorSlot s n != some k && x.committedSlot != some k)).getD 0
      let s := updLifeline s n (fun x => { x with hmark := some (step.toNat, dataPos.toNat, rngStep.toNat, anchor), slot := k, received := 0,
                                                  paramBytes := paramBytes.toNat, failed := false })
      let w := linkWrite s (strandLink s n) n (x.slotVa + k * x.slotBytes) (leBytes 8 0)
      if w.2.1 = stSuccess then w.1 else updLifeline w.1 n (fun x => { x with failed := true }))

/-- PAYLOAD (R432 steps 3 to 6, R434): after the marked parameters its bytes join the slot; the whole slot commits, and an error or
a wrong length fails the securing. -/
def execPayload (n : StrandId) (data : List Byte) (error : Bool) (s : State) : Result :=
  .next (
    let x := lifeline s n
    if x.role ≠ 2 ∨ x.hmark.isNone = true then s
    else
      let s := if error then updLifeline s n (fun x => { x with failed := true }) else llAppend s (strandLink s n) n data
      let x := lifeline s n
      if x.failed || decide (x.needBytes < 512 + x.received) then answerCommit s n true
      else if x.needBytes = 512 + x.received then answerCommit s n false
      else s)

/-! The source (R432 step 7, R434, R436, R437). -/

/-- K_CUR of R437: the largest power of two k, at most PERIOD, with (k S)² at most 2 C M; both means cleared of their divisions. -/
def nextInterval (s : State) (x : Lifeline) : Nat :=
  let n := x.starts.length
  if n < 2 ∨ x.costs = [] then x.period
  else
    let d := x.starts.getLast?.getD 0 - x.starts.headD 0
    let m := objNat s 0x701001 * 1000000000 + (now s - x.armedAt)
    let rhs := 2 * x.costs.sum * m * (n - 1) ^ 2
    let fits (k : Nat) : Bool := decide ((k * d) ^ 2 * (1 + x.failures) * x.costs.length ≤ rhs)
    (((List.range 17).map (fun i => 2 ^ (16 - i))).find? (fun k => decide (k ≤ x.period) && fits k)).getD 1

/-- A disarm that waited for the securing clears the lifeline. -/
def finishDisarm (s : State) (n : Nat) : State := if (lifeline s n).disarming then llEnd (setLl s n (fun _ => {})) 0 0 else s
/-- A securing's end on the source releases the step. -/
def endSecuring (s : State) (n : Nat) : State := releaseStep (setLl s n (fun x => { x with securing := false, mark := none })) n
def securingEnds (s : State) (n : Nat) : State := finishDisarm (endSecuring s n) n

/-- A lifeline after a securing has committed, at a cost c (R432 step 7, R437). -/
def committedTo (s : State) (c m dataPos rng : Nat) (anchor : Bool) (x : Lifeline) : Lifeline :=
  let x : Lifeline := { x with securedStep := m, dataPos := dataPos, rngStep := rng, anchorStep := if anchor then m else x.anchorStep, costs := (c :: x.costs).take 8 }
  { x with kCur := nextInterval s x }
/-- COMMIT (R432 step 7, R434, R437). -/
def execCommit (n : StrandId) (step : Word) (_slot : Fin 4) (failed : Bool) (s : State) : Result :=
  .next (
    let x := lifeline s n
    match x.mark with
    | none => s
    | some (m, dataPos, rng, anchor) =>
      if x.role ≠ 1 ∨ m ≠ step.toNat then s
      else if failed then
        let s := bump s (llOff MGT_LL_SKIP_COUNT) 1
        if anchor && !x.disarming then
          let s := sendMark s n
          let s := sendPayload s n (suParamVa x) (suParamBytes x)
          sendOptimiser s n
        else securingEnds s n
      else
        let c := x.lastPayload - x.firstPayload + x.hold
        securingEnds (bump (setLl s n (committedTo s c m dataPos rng anchor)) (llOff MGT_LL_COMMIT_COUNT) 1) n)

/-- LIFELINE_BROKEN (R436): the partner has gone. -/
def execLifelineBroken (n : StrandId) (s : State) : Result :=
  .next (
    let x := lifeline s n
    if x.role = 0 ∨ x.state ≠ 2 then s
    else
      let was := x.securing
      let s := setLl s n (fun x => { x with state := 3, failures := x.failures + 1, hmark := none })
      let s := raise s mgtDie 0x902 2 n 0 [n, peerDev s n]
      if was then securingEnds s n else s)

/-- SEND_ACKNOWLEDGED (15 R379, 17 R432): the oldest message sent over the port is acknowledged whole; its stitch marker rises when
asked; on a source strand it is payload of the securing in flight. -/
def execSendAcknowledged (p : PortId) (s : State) : Result :=
  .next (match (port s p).sent with
    | [] => s
    | m :: rest =>
      let s := updPort s p (fun x => { x with sent := rest })
      let s := if m.doneEn then countMarker s m.doneCore m.doneMarker else s
      let x := lifeline s m.strand
      if x.role ≠ 1 ∨ x.mark.isNone = true then s
      else if m.ll = 2 then
        updLifeline s m.strand (fun x => { x with payloadLeft := x.payloadLeft - m.bytes, lastPayload := now s })
      else if m.ll = 0 ∧ x.payloadSent = false ∧ (m.seq + 65536 - x.markSeq) % 65536 < 32768 then
        let s := updLifeline s m.strand (fun x => { x with sentBytes := x.sentBytes + m.bytes })
        if suParamBytes x ≤ (lifeline s m.strand).sentBytes then sendOptimiser s m.strand else s
      else s)

/-- NACK (15 R381, 17 R434) for a strand of this device; another device's was forwarded. One for an abandoned attempt is ignored (06
R156); a holder that meets one fails its securing. -/
def execNack (p : PortId) (dst : BitVec 12) (n : StrandId) (seq : BitVec 16) (cause : BitVec 3) (abandoned : Bool) (s : State) : Result :=
  .next (if dst.toNat ≠ ownDev s then s else
    let s := bump s (portOff p LNK_NACK_RX_COUNT) 1
    if abandoned then s
    else
      let s := takeNack s (88 + p.val / 2) n seq.toNat cause.toNat
      if (lifeline s n).role = 2 then answerCommit s n true else s)

end Sys2Proof.Machine
end

