-- ==== Sys2Proof/Machine/Power.lean ====
section
/-! DEFINITION. Input power, throttle sources, power states, cast-on, bind-off and external inputs (18 R441 to R459; 21 R518 to R524). -/

namespace Sys2Proof.Machine

/-! What loses power (18 R445, R449, R451). -/

/-- A register of the management block, which stays powered in STANDBY. -/
def mgtRegister (off : Nat) : Bool := (decide (0x100000 ≤ off) && decide (off < 0x200000)) || decide (0x3C00000 ≤ off)
/-- Every die but the management die loses power: tasks end without a completion, and the near tier, the shared cache and the scratchpads lose
their contents. The far tier's and the host's memory are outside the module. -/
def powerDown (s : State) : State :=
  let records := imageRecords s
  { s with
      regs := s.regs.filter (fun p => mgtRegister p.1)
      mem := s.mem.filter (fun c => isFar c.1 || isHost c.1)
      cores := []
      counters := []
      queues := []
      hst := {}
      cache := {}
      mifs := []
      fars := []
      ports := []
      groups := []
      merges := []
      gapNext := []
      linkPost := []
      lnkCache := []
      unsent := []
      posted := []
      lifelines := []
      net := {}
      clock := { s.clock with dieTime := [] }
      pkg := { s.pkg with rewriting := false }
      power := { s.power with kept := records } }

/-! Stages (R446, R447, R471). -/

/-- A stage completes: STAGE and T_STAGE show it, and a heartbeat is sent. -/
def stageEnd (s : State) (k : Nat) (busy : Bool) : State :=
  sendHeartbeat { s with
    power := { s.power with stage := k, busy := busy, failed := false, tStage := now s }
    bg := { s.bg with
      debt := s.bg.debt.filter (fun p => !(([1, 3].contains (p.1 / 2 ^ 20) && k == 3) || ([2, 5].contains (p.1 / 2 ^ 20) && k == 4)
        || (p.1 / 2 ^ 20 == 4 && k == 5) || ([6, 7].contains (p.1 / 2 ^ 20) && k == 0))) } }
/-- A stage fails: the device stays at the stage before it. -/
def stageFail (s : State) (k status : Nat) : State :=
  mgtEvent { s with power := { s.power with failed := true, failStage := k, failStatus := status, busy := false } } 0xA02 3 [k, status]
/-- STANDBY becomes ACTIVE: stage 1 complete, PERST_N deasserted, and the bank within 1 V of the bus (R445, 21 R524). -/
def tryActive (s : State) : State :=
  if s.power.powerState == 1 && stageDone s 1 && !s.power.perstHeld && s.power.bankReady && !s.power.failed then
    { s with power := { s.power with powerState := 2, busy := true } }
  else s
/-- Debug access at a cast-on: locked, and nothing granted or refused yet (20 R510). -/
def freshDebug (s : State) : State :=
  { s with sec := { s.sec with unlockLevel := 0, unlocks := 0, refusals := 0, nonce := none, connections := [] } }

/-- INPUT_VALID (R441, 21 R519, R523): cast-on begins, the straps are latched, and REFTIME is 0. A bank made active for the next cast-on is
the one that the boot ROM tries first (20 R505). -/
def execInputValid (feedId : BitVec 4) (slotId : Byte) (s : State) : Result :=
  .next (
    if s.power.pwrEn && (s.power.powerState == 0 || !s.power.started) then
      freshDebug { s with
        clock := {}
        power := { s.power with
          powerState := 1
          started := true
          stage := 15
          busy := true
          failed := false
          feedId := feedId.toNat
          slotId := slotId.toNat }
        sec := { s.sec with activeBank := s.sec.nextBank.getD s.sec.activeBank, nextBank := none, fallback := false } }
    else s)

/-- BUS_OFF (R445): the bus lies below 35 V. What survives is in MRAM, flash and fuses; objects take their defaults (19 R478). -/
def execBusOff (s : State) : Result :=
  let s := breakBurn (powerDown s)
  let p := s.power
  .next { s with
    regs := []
    clock := {}
    dict := {}
    bg := {}
    sat := {}
    llResult := 0
    llStatus := 0
    drawSkews := 0
    correlatedArms := 0
    divergenceEvents := 0
    power := { powerState := 0, busy := false, pwrEn := p.pwrEn, perstHeld := p.perstHeld, levels := p.levels, farPrsnt := p.farPrsnt, started := true,
               feedId := p.feedId, slotId := p.slotId }
    sec := { s.sec with
      running := []
      transfer := none
      aliasLeaf := 0
      nonce := none
      refusals := 0
      unlockLevel := 0
      unlocks := 0
      lockReject := false
      lockRefused := 0
      tmuxSel := 0
      tmuxArg := 0
      connections := [] } }

/-! Bind-off (R451 to R455). -/

/-- The save's part of a bind-off: none before stage 1 has completed. -/
def freezeImage (s : State) (cause : Nat) : State := if stageDone s 1 then writeSave s cause else s
/-- A bind-off begins, with its cause: 1 sag, 2 overvoltage, 3 thermal. Fetch and dispatch stop, the image is frozen, and the rails go down. -/
def startBindOff (s : State) (cause : Nat) : State :=
  let s := bump (mgtEvent (endUnlock s) 0xA05 3 [cause]) (pwrOff MGT_BINDOFF_COUNT) 1
  let s := powerDown (freezeImage s cause)
  { s with power := { s.power with
    powerState := 3
    bindoff := true
    cause := cause
    tBindoff := now s
    busy := false
    stage := if s.power.stage = 15 then 15 else min 1 s.power.stage } }
/-- A device that runs: STANDBY or ACTIVE, from stage 0 on, where protection works (R446). -/
def watching (s : State) : Bool := (s.power.powerState == 1 || s.power.powerState == 2) && s.power.stage != 15
/-- BIND_OFF (R451): the load side fell to 41 V. -/
def execBindOff (loadMv : Nat) (s : State) : Result :=
  .next (if watching s && decide (loadMv ≤ 41000) then startBindOff s 1 else s)
/-- THERMAL_OVERVOLT_TRIP (R444): a junction at 115 °C, or the bus above 62 V for 10 µs. A sag bind-off in progress keeps its cause (R455). -/
def execThermalOvervoltTrip (overvolt : Bool) (highest busMv : Nat) (s : State) : Result :=
  let s := { s with power := { s.power with highest := highest, busMv := busMv } }
  .next (if watching s && (if overvolt then decide (62000 < busMv) else decide (115 ≤ highest)) then startBindOff s (if overvolt then 2 else 3) else s)
/-- SAVE_COMPLETE (R451 step 5): the header is written, and the device is HALTED. -/
def execSaveComplete (s : State) : Result :=
  .next (
    if s.power.powerState ≠ 3 then s
    else
      let held := s.saves.any (fun p => !p.2.valid)
      let s := endSave s
      { s with power := { s.power with powerState := 4, saves := s.power.saves + b2n held } })
/-- HALTED_RESTART (R455): after a sag, the bus has held for 100 ms; cast-on runs again from stage 1, and REFTIME goes on. -/
def execHaltedRestart (busMv : Nat) (s : State) : Result :=
  .next (
    if s.power.powerState = 4 ∧ s.power.cause = 1 ∧ 44000 ≤ busMv then
      freshDebug { s with power := { s.power with
        powerState := 1
        bindoff := false
        busMv := busMv
        stage := if s.power.stage = 15 then 15 else 0
        busy := true
        failed := false } }
    else s)

/-! Cast-on (R446, R447). -/

/-- Stage 1: the active bank boots, or else the other one (20 R501); failed dies come back (01 R17), torn saves are counted (R454), and a new
alias LMS key is made (20 R497). -/
def stageOne (s : State) (banks : List (List ImageCheck)) : State :=
  let a := s.sec.activeBank
  let first := banks.getD a []
  let second := banks.getD (1 - a) []
  let up (s : State) (set_ : List ImageCheck) : State :=
    let s := updPkg { s with sec := { s.sec with running := set_ } } markBooted
    tryActive (stageEnd (newAlias (findTorn s)) 1 false)
  if setStatus s first = 0 then up s first
  else if setStatus s second = 0 then
    up (mgtEvent { s with sec := { s.sec with activeBank := 1 - a, fallback := true } } 0xC01 2 []) second
  else stageFail s 1 (setStatus s first)
/-- Stage 3: the stacks are up at the rate chosen (13 R327), the expanders that are present are mapped (13 R336), and host-managed device
memory is active in CXL mode (13 R343). -/
def stageThree (s : State) (farCaps : List Nat) : State :=
  let s := each (List.range 8) s (fun s k =>
    if dieFailed s (80 + k) then updStack s k (fun x => { x with state := 3, channels := 0 })
    else updStack s k (fun x => { x with state := 2, rate := objNat s 0x301001, channels := 48, lastTrained := (List.range 48).map (fun c => (c, now s)),
                                         trainedTemp := (List.range 48).map (fun c => (c, tget 0 s.power.temps (80 + k))) }))
  let s := each (List.range 4) s (fun s p =>
    let cap := min 1024 (farCaps.getD p 0)
    if cap = 0 ∨ dieFailed s (96 + p / 2) = true then updFar s p (fun x => { x with link := 0, width := 0, gts := 0, capacity := 0, memActive := false, present := decide (cap ≠ 0) })
    else updFar s p (fun x => { x with link := 2, width := 16, gts := 32, capacity := cap, memActive := true, present := true }))
  { s with
      hst := { s.hst with memActive := s.hst.linkMode == 1 }
      power := { s.power with farPrsnt := maskOver 4 (fun p => (far s p).present) } }
/-- Stage 4: failed cores are fenced; no core that passes fails the stage. Every scratchpad row holds zero (08 R216). -/
def stageFour (s : State) (failedCores : Nat) : State :=
  if activeMask s &&& (2 ^ 64 - 1 - failedCores) = 0 then stageFail s 4 stCoreFenced
  else
    let s := each ((coresOf (activeMask s)).filter (fun c => bit failedCores c)) s fenceCore
    let s := { s with mem := s.mem.filter (fun c => !isSpm c.1) }
    stageEnd s 4 true
/-- Every enabled Limund port is UP or DOWN. -/
def portsSettled (s : State) : Bool := (List.range 16).all (fun p => (port s p).state == 0 || (port s p).state == 3)

/-- CAST_ON_STAGE_COMPLETE (R446, R447): the stage after STAGE. From stage 2 on the device must be ACTIVE. -/
def execCastOnStageComplete (failedCores : Word) (banks : List (List ImageCheck)) (farCaps : List Nat) (linkMode : Fin 4) (s : State) : Result :=
  let k := if s.power.stage = 15 then 0 else s.power.stage + 1
  .next (
    if !s.power.busy || !s.power.started then s
    else if k = 0 then (if s.power.powerState = 1 then stageEnd s 0 true else s)
    else if k = 1 then (if s.power.powerState = 1 then stageOne s banks else s)
    else if s.power.powerState ≠ 2 then s
    else if k = 2 then
      stageEnd { s with hst := { s.hst with linkMode := linkMode.val, linkWidth := 16 } } 2 true
    else if k = 3 then stageEnd (stageThree s farCaps) 3 true
    else if k = 4 then stageFour s failedCores.toNat
    else if k = 5 then (if portsSettled s then stageEnd s 5 false else s)
    else s)
/-- CAST_ON_STAGE_FAIL (R447): the running stage fails; stage 3 names the stack and channel (13 R333). -/
def execCastOnStageFail (status : BitVec 16) (stack : StackId) (ch : Channel) (s : State) : Result :=
  let k := if s.power.stage = 15 then 0 else s.power.stage + 1
  .next (
    if !s.power.busy || !s.power.started then s
    else
      let s := if k = 3 then updStack (setReg s (mifOff stack MIF_LAST_ERROR) (3 + ch * 4)) stack (fun x => { x with state := 3 }) else s
      stageFail s k status.toNat)

/-! Throttle sources and the power limiter (R442, R443). -/

/-- A pin's filtered level: 0 PERST_N, 1 THROTTLE_N, 2 SAG_N; a 1 is deasserted. A pin that deasserts is no longer STUCK. -/
def setLevel (s : State) (pin : Nat) (high : Bool) : State :=
  { s with power := { s.power with
    levels := putBits s.power.levels pin pin (b2n high)
    stuck := if high then putBits s.power.stuck pin pin 0 else s.power.stuck } }
/-- External inputs act: not from bind-off step 1 until HALTED (R455), and not without power. -/
def inputsAct (s : State) : Bool := s.power.powerState == 1 || s.power.powerState == 2 || s.power.powerState == 4

/-- SAG_WARNING (R443): the bus at or below 43 V, or SAG_N asserted. -/
def execSagWarning (busMv : Nat) (sagAsserted : Bool) (s : State) : Result :=
  let s := { s with power := { s.power with busMv := busMv } }
  .next (
    if !inputsAct s then s
    else
      let s := if sagAsserted then setLevel s 2 false else s
      if (decide (busMv ≤ 43000) || sagAsserted) && !s.power.sag && s.power.stage != 15 then
        bump { s with power := { s.power with sag := true } } (pwrOff MGT_SAG_WARN_COUNT) 1
      else s)
/-- SAG_WARNING_CLEAR (R443): the bus has held 44 V for 1 ms and SAG_N is deasserted. -/
def execSagWarningClear (busMv : Nat) (s : State) : Result :=
  let s := { s with power := { s.power with busMv := busMv } }
  .next (if inputsAct s && decide (44000 ≤ busMv) then
    (let s := setLevel s 2 true
     { s with power := { s.power with sag := false } }) else s)
/-- THROTTLE_N_ASSERT (R443). -/
def execThrottleNAssert (s : State) : Result :=
  .next (if inputsAct s then (let s := setLevel s 1 false
    { s with power := { s.power with throttleN := true } }) else s)
/-- THROTTLE_N_DEASSERT (R443). -/
def execThrottleNDeassert (s : State) : Result :=
  .next (if inputsAct s then (let s := setLevel s 1 true
    { s with power := { s.power with throttleN := false } }) else s)
/-- Every core with a task stands at V_FLOOR(T). -/
def allAtFloor (s : State) : Bool :=
  (coresOf (activeMask s)).all (fun c => (core s c).task.isNone || decide ((core s c).vcore ≤ vFloor s c))
/-- Whether a time has lasted for n ns. -/
def lasted (s : State) (since : Option Nat) (n : Nat) : Bool := match since with
  | some t => decide (t + n ≤ now s)
  | none => false
/-- POWER_WINDOW (R442): a mean over its window against its limit; the source comes after 1 ms above the limit at V_FLOOR(T), and goes after 10
ms below 95 percent. -/
def execPowerWindow (watts deciamps busMv : Nat) (current : Bool) (s : State) : Result :=
  let lim := if current then 1500 else objNat s 0x202001
  let v := if current then deciamps else watts
  let p := s.power
  let s := { s with power := { p with
    pin := watts
    ibus := deciamps
    busMv := busMv
    limiting := if current then p.limiting else decide (lim < v)
    limitingCurrent := if current then decide (lim < v) else p.limitingCurrent } }
  let s := { s with power := { s.power with
    overSince := if pwrLimiting s && allAtFloor s then (if s.power.overSince.isSome then s.power.overSince else some (now s)) else none
    underSince := if v * 100 < lim * 95 then (if s.power.underSince.isSome then s.power.underSince else some (now s)) else none } }
  .next { s with power := { s.power with
    powerSrc := if lasted s s.power.overSince 1000000 then true else if lasted s s.power.underSince 10000000 then false else s.power.powerSrc } }
/-- THERMAL_THROTTLE (R443): a die's junction; the source is present from 105 °C until every junction is at or below 100 °C. -/
def execThermalThrottle (die : DieId) (temp highest : Nat) (s : State) : Result :=
  let s := { s with power := { s.power with
    temps := tset s.power.temps die temp
    highest := highest
    thermal := if 105 ≤ temp ∨ 105 ≤ highest then true else if highest ≤ 100 then false else s.power.thermal } }
  .next (match dieCore die with
    | some c => updCore s c (fun x => { x with temp := temp, tempKnown := true })
    | none => s)

/-! PERST_N (R449, R444). -/

/-- The management die after PERST_N: it keeps REFTIME, which may be loaded again; STANDBY, with stage 1 complete where it was. -/
def perstDown (s : State) : State :=
  { s with
      clock := { s.clock with locked := false }
      power := { s.power with powerState := 1, bindoff := false, stage := if s.power.stage = 15 then 15 else min 1 s.power.stage
                              busy := !stageDone s 1, failed := s.power.failed && !stageDone s 1 } }
/-- The reset that PERST_N makes of a running device: STANDBY with stage 1 complete. -/
def perstReset (s : State) : State :=
  let s := perstDown (powerDown (endUnlock s))
  if stageDone s 1 then sendHeartbeat s else s
/-- PERST_N asserts: in HALTED after a thermal or overvoltage bind-off it leads out once the device is cool and the bus low. -/
def perstActs (s : State) (highest busMv : Nat) : State :=
  let s := { s with power := { s.power with perstHeld := true } }
  if s.power.powerState = 1 ∨ s.power.powerState = 2 then perstReset s
  else if s.power.powerState = 4 ∧ s.power.cause ≠ 1 ∧ highest < 85 ∧ busMv < 60000 then perstReset s
  else s
/-- PERST_N_ASSERT (R449). -/
def execPerstNAssert (highest busMv : Nat) (s : State) : Result :=
  let s := { s with power := { s.power with highest := highest, busMv := busMv } }
  .next (if s.power.powerState = 3 then s else perstActs (setLevel s 0 false) highest busMv)
/-- PERST_N is deasserted, unless its latch holds it (R457): cast-on goes on from stage 2. -/
def perstReleases (s : State) : State :=
  if bit s.power.chatter 0 || !bit s.power.levels 0 then s
  else tryActive { s with power := { s.power with perstHeld := false, perstAt := now s } }
/-- PERST_N_DEASSERT (R449). -/
def execPerstNDeassert (s : State) : Result := .next (if s.power.powerState = 3 then s else perstReleases (setLevel s 0 true))

/-! Chatter and held inputs (R457, R458). -/

/-- INPUT_CHATTER (R457): the input's safe value, asserted, is latched. -/
def execInputChatter (pin : Fin 3) (s : State) : Result :=
  .next (
    if bit s.power.chatter pin || s.power.powerState == 3 || s.power.stage == 15 then s
    else
      let s := { s with power := { s.power with chatter := s.power.chatter ||| 2 ^ pin.val, chatterCount := s.power.chatterCount + 1 } }
      let s := mgtEvent s 0xA03 2 [pin.val]
      if pin.val = 0 then perstActs s s.power.highest s.power.busMv else s)
/-- INPUT_HELD (R458): an input asserted for the time in 0x2023:04 is STUCK, with one event. -/
def execInputHeld (pin : Fin 3) (s : State) : Result :=
  .next (
    if bit s.power.levels pin || bit s.power.stuck pin || s.power.stage == 15 then s
    else mgtEvent { s with power := { s.power with stuck := s.power.stuck ||| 2 ^ pin.val } } 0xA04 1 [pin.val])
/-- One bit of MGT_INPUT_CLEAR: a latch whose pin made no transition for 100 ms is released; another refuses, and is counted. -/
def clearInput (s : State) (pin : Nat) (quiet : Bool) : State :=
  if !bit s.power.chatter pin then s
  else if !quiet then { s with power := { s.power with clearRefused := s.power.clearRefused + 1 } }
  else
    let s := { s with power := { s.power with chatter := putBits s.power.chatter pin pin 0 } }
    if pin = 0 then perstReleases s else s
/-- MGT_INPUT_CLEAR (R457). -/
def execMgtInputClear (value : Word) (quiet : BitVec 3) (s : State) : Result :=
  .next (each ((List.range 3).filter (fun p => bit value.toNat p)) s (fun s p => clearInput s p (bit quiet.toNat p)))

/-! Connectors (21 R523, R524). -/

/-- PWR_EN_CONNECT (21 R523). -/
def execPwrEnConnect (s : State) : Result := .next { s with power := { s.power with pwrEn := true } }
/-- BANK_CHARGED (21 R524): the bank stands within 1 V of the bus. -/
def execBankCharged (bankMv busMv : Nat) (s : State) : Result :=
  .next (tryActive { s with power := { s.power with bankMv := bankMv, busMv := busMv, bankReady := decide (busMv ≤ bankMv + 1000) } })
/-- FARp_PERST_N: released at the start of stage 3, asserted again on PERST_N, at bind-off and in OFF (21 R521). -/
def farReset (s : State) : Bool := !(s.power.powerState == 2 && stageDone s 2)

end Sys2Proof.Machine
end

