-- ==== Sys2Proof/Machine/Queues.lean ====
section
/-! DEFINITION. Commands of the hardware queues (11). -/

namespace Sys2Proof.Machine

/-- A producer core waits for a row: an unscheduled stall (R296). -/
def queueStall (s : State) (q : Nat) : State :=
  if (queue s q).held.isSome && queKind s q == 0 then
    updCore s (queProdCore s q) (fun x => { x with stall := if x.stall.isSome then x.stall else some (passStall s (queueRes resQueueFull q)) })
  else s

/-- QUEUE_CREDIT (11 R296): a producing core's credits; a write that waited goes on. -/
def execQueueCredit (f : Frame) (c : CoreId) (q : HwQueue) (rows : BitVec 13) (s : State) : Result :=
  .next (onChain (coreDie c) f s (fun s => settle (updQueue s q (fun x => { x with credits := x.credits + rows.toNat })) q))

/-- BIND_RESULT of an enable (R284). -/
def bindResult (s : State) (q v : Nat) : Nat :=
  let c := queCore q
  let r := bits v 9 4
  let n := regionLen s c 1 r
  let kind := bits v 3 2
  if n < 2 ∨ 4096 < n then 1
  else if (tagRun s c n).isNone then 2
  else if namedRegion s c 1 r || kind == 3 || (kind == 0 && !coreActive s (bits v 15 10)) || !coreActive s c then 3
  else 0

/-- QUEUE_ENABLE (11 R284): a write of word 0. -/
def execQueueEnable (q : HwQueue) (value : Word) (s : State) : Result :=
  .next (
    let v := bits value.toNat 33 0
    let c := queCore q
    if (queue s q).enabled then
      if bit v 0 then updCore s c (fun x => { x with cfgReject := true })
      else setReg (dropQueue s q) (queOff q 0) v
    else if !bit v 0 then setReg s (queOff q 0) v
    else
      let k := bindResult s q v
      let s := setReg s (queOff q 0) v
      if k ≠ 0 then updQueue (setField s (queOff q 0) 0 0 0) q (fun x => { x with bindResult := k })
      else
        let r := bits v 9 4
        let n := regionLen s c 1 r
        let a := (tagRun s c n).getD 0
        let s := setReg s (regionOff c 1 r 1) 0
        let s := updCore s c (fun x => { x with queueTags := tdelRange x.queueTags a (a + n - 1) })
        updQueue s q (fun x => { enabled := true, first := a, len := n, credits := n, seqNext := x.seqNext }))

/-- OPEN (11 R286). -/
def execOpenPacket (q : HwQueue) (p : Producer) (s : State) : Result :=
  .next (if portOk s q p && (queue s q).open_.isNone then
      (if (queue s q).held.isSome then s else queueStall (queOpen s q) q)
    else producerFail s q stQueueProtocol p)

/-- DATA (11 R286): one word. -/
def execData (q : HwQueue) (p : Producer) (value : Word) (s : State) : Result :=
  .next (match portOk s q p, (queue s q).open_ with
    | true, some k =>
      if (queue s q).held.isSome then s
      else
        let r := queData s q k value.toNat
        if r.2 = 0 then queueStall r.1 q else producerFail r.1 q r.2 p
    | _, _ => if portOk s q p && (queue s q).held.isSome then s else producerFail s q stQueueProtocol p)

/-- CLOSE (11 R286). -/
def execClose (q : HwQueue) (p : Producer) (s : State) : Result :=
  .next (match portOk s q p, (queue s q).open_ with
    | true, some k => if (queue s q).held.isSome then s else queClose s q k
    | _, _ => if portOk s q p && (queue s q).held.isSome then s else producerFail s q stQueueProtocol p)

/-- A consumer that waits for a row of the queue goes on once more rows are readable (11 R291). -/
def queueWoken (before : Nat) (s : State) (q : Nat) : State := match (core s (queCore q)).stall with
  | some st => if (st.resource = resQueueEmpty ∨ st.resource = queueRes resQueueEmpty q) ∧ before < (queue s q).readable then endWait s (queCore q) else s
  | none => s

/-- PACKET_READABLE (11 R288, R295): the first packet that may become readable does; a consumer that waits goes on. -/
def execPacketReadable (q : HwQueue) (s : State) : Result :=
  .next (queueWoken (queue s q).readable (showPacket s q) q)

/-- MARKER_QUIET_TIMEOUT (11 R295): 1 µs after the last drop with no packet open, the marker becomes readable alone, which ends a
wait for its row (11 R291). -/
def execMarkerQuietTimeout (q : HwQueue) (s : State) : Result :=
  .next (match (queue s q).marker with
    | none => s
    | some m =>
      if (queue s q).open_.isNone && (queue s q).waiting.all (afterMarker m) && decide (m.tLast + 1000 ≤ now s) then queueWoken (queue s q).readable (showMarker s q) q else s)

/-- DISCARD (11 R298): the rest of the packet at the read position. -/
def execDiscard (q : HwQueue) (by_ : Consumer) (s : State) : Result :=
  .next (
    let x := queue s q
    let c := queCore q
    if x.readable = 0 then updQueue s q (fun x => { x with result := 2 })
    else
      let n := rowsToLast s q x.readable (readPos s q)
      let s := updQueue (bumpCore s c QUE_DISCARD_ROWS n) q (fun x => { x with result := 0 })
      match by_ with
      | .task => releaseRegion s c 1 (queRegion s q) n
      | .software => settle (releaseNow s q n) q)

/-- QUEUE_FLUSH (11 R299): packets that stand to be readable count as readable (R288); the rest is withdrawn, an open packet when
it closes. -/
def execQueueFlush (q : HwQueue) (s : State) : Result :=
  .next (if (queue s q).flushPending then s else
    let c := queCore q
    let s := each (queue s q).waiting s (fun s _ => showPacket s q)
    let x := queue s q
    let s := bumpCore s c QUE_FLUSH_COUNT 1
    let s := bumpCore s c QUE_WITHDRAW_COUNT x.waiting.length
    let gone := (x.waiting.map packetRows).sum + ((x.fullMarkers ++ x.marker.toList).filter (fun m => m.row.isSome)).length
    let s := updQueue s q (fun x => { x with marker := none, fullMarkers := [], waiting := [], landed := x.landed - gone, flushPending := x.open_.isSome, result := 0 })
    settle (freeRows (releaseNow s q x.readable) q gone) q)

/-- QUEUE_RELEASE (11 R293). -/
def execQueueRelease (q : HwQueue) (rows : BitVec 13) (s : State) : Result :=
  .next (if (queue s q).readable < rows.toNat then updQueue s q (fun x => { x with result := 2 })
    else settle (releaseNow (updQueue s q (fun x => { x with result := 0 })) q rows.toNat) q)

end Sys2Proof.Machine
end

