-- ==== Sys2Proof/Machine/Scratch.lean ====
section
/-! DEFINITION. Scratchpad commands (08 R201 to R225, R538). -/

namespace Sys2Proof.Machine

/-! Fill and copy by software (R203, R204). -/

/-- A write to SPM_OP2 with an operation that the device refuses. -/
def opRefused (s : State) (c : Nat) : Bool :=
  let w := coreReg s c SPM_OP0
  let n := bits (coreReg s c SPM_OP1) 19 0
  let m := bits w 3 2
  (core s c).task.isSome || (core s c).op.isSome || decide (2 ≤ bits w 1 0) || m == 3
    || (n != 0 && (decide (memRows m < bits w 25 6 + n) || (bits w 1 0 == 1 && decide (memRows m < bits w 45 26 + n))))
/-- Row ranges of a fill or copy. -/
def opRanges (o : SpmOp) : List (Fin 3 × Nat × Nat) × List (Fin 3 × Nat × Nat) :=
  (if o.copy then [(Fin.ofNat 3 o.mem, o.src, o.rows)] else [], [(Fin.ofNat 3 o.mem, o.dst, o.rows)])
/-- A fill or copy passes the issue scoreboard as one instruction (R203, R208): it takes its entries once it waits on none. -/
def opIssue (s : State) (c : Nat) : State := match (core s c).op with
  | none => s
  | some o => if o.held.isSome || sbWaits s c (opRanges o).1 (opRanges o).2 then s
    else updCore (sbIssue s c (opRanges o).1 (opRanges o).2) c (fun x => { x with op := some { o with held := some (core s c).sbNext } })
/-- SPM_OP_START (R203, R204). -/
def execSpmOpStart (c : CoreId) (pattern : Word) (s : State) : Result :=
  .next (
    if opRefused s c then updCore s c (fun x => { x with opState := 3 })
    else
      let w := coreReg s c SPM_OP0
      let o : SpmOp := { copy := bits w 1 0 == 1, mem := bits w 3 2, dst := bits w 25 6, src := bits w 45 26,
                         rows := bits (coreReg s c SPM_OP1) 19 0, pattern := pattern.toNat }
      opIssue (updCore (setReg s (coreOff c SPM_OP2) pattern.toNat) c (fun x => { x with op := some o, opState := 1 })) c)
/-- SPM_OP_DONE (R203): the operation, past the scoreboard, takes effect and its entries leave; one that has met a landing window, a bank
without power or a source row that fails its check ends refused (log entry 47). -/
def execSpmOpDone (c : CoreId) (s : State) : Result :=
  .next (
    let s := opIssue s c
    match (core s c).op with
    | none => s
    | some o => match o.held with
      | none => s
      | some id =>
        let s := sbDone (updCore s c (fun x => { x with op := none })) c id
        let ready := opRows s c o.copy o.mem o.src o.rows
        if (opFault s c o.copy o.mem o.dst o.src o.rows).isSome || !ready.2 then updCore ready.1 c (fun x => { x with opState := 3 })
        else updCore (spmApply ready.1 c o.copy o.mem o.dst o.src o.rows o.pattern) c (fun x => { x with opState := 2 }))

/-! Region and window entries (R201, R210). -/

def rejectConfig (s : State) (c : Nat) : State := updCore s c (fun x => { x with cfgReject := true })
/-- REGION_ENTRY_WRITE (R198, R201): words 2, 3 and 5 to 7 take no write. -/
def execRegionEntryWrite (c : CoreId) (m : Fin 3) (r : RegionId) (word : Fin 8) (value : Word) (s : State) : Result :=
  .next (
    let off := regionOff c m r word
    let v := value.toNat
    let busy := namedRegion s c m r
    if word.val = 0 then
      (if busy then rejectConfig (setField s off 49 49 (bits v 49 49)) c else setReg s off (bits v 49 0))
    else if word.val = 1 then
      (if busy then rejectConfig s c else setReg s off (bits v 20 0 + bits v 44 24 * 2 ^ 24))
    else if word.val = 4 then setReg s off (bits v 47 0)
    else s)
/-- WINDOW_ENTRY_WRITE (R210): STATE and INFLIGHT take no write. -/
def execWindowEntryWrite (c : CoreId) (w : WindowId) (word : Fin 4) (value : Word) (s : State) : Result :=
  .next (
    let off := windowOff c w word
    let v := value.toNat
    if winState s c w ≠ 0 then rejectConfig s c
    else if word.val = 0 then setReg s off (v / 4 * 4 % 2 ^ 64)
    else if word.val = 1 then setReg s off v
    else if word.val = 2 then setReg s off (bits v 47 0)
    else setReg s off (bits v 31 0))

/-! Windows (R210, R215). -/

/-- WIN_OPEN (R210): by software through SPM_WIN_CTL, or by the core's running task. -/
def execWinOpen (c : CoreId) (w : WindowId) (byTask : Bool) (s : State) : Result :=
  .next (match byTask, (core s c).task with
    | true, none => s
    | true, some t =>
      if openRefused s c w true then faultCore s c stWindowViolation 31 0 0
      else ownWindow (openWindow s c w) c w t.slot
    | false, _ =>
      if openRefused s c w false then rejectConfig s c
      else updCore (openWindow s c w) c (fun x => { x with windowTask := tdel x.windowTask w }))
/-- WIN_CLOSE (R215). -/
def execWinClose (c : CoreId) (w : WindowId) (s : State) : Result := .next (closeWin s c w)
/-- WINDOW_CLOSED (R215): a closing window without writes in flight. -/
def execWindowClosed (c : CoreId) (w : WindowId) (s : State) : Result :=
  .next (if winState s c w = 2 ∧ winInflight s c w = 0 then
      updCore (setField s (windowOff c w 0) 1 0 0) c (fun x => { x with windowTask := tdel x.windowTask w })
    else s)
/-- STITCH_MARKER_WRITE (R214). -/
def execStitchMarkerWrite (c : CoreId) (k : MarkerId) (value : Word) (s : State) : Result :=
  .next (checkWait (setReg s (markerOff c k) (value.toNat % 2 ^ 32)) c)

/-! Narrow writes and the gathering buffer (R205 to R207, R538). -/

/-- The aperture that aims at a window of a core. -/
def apertureOf (s : State) (c w : Nat) : Nat :=
  ((List.range 16).find? (fun a => bits (reg s (apOff a)) 5 0 == c && bits (reg s (apOff a)) 11 6 == w)).getD 0
/-- A refusal returns to its sender (R213). -/
def refuseNarrow (s : State) (c w : Nat) (src : Source) (cause : Nat) : State := match src with
  | .host => postedDrop s stWindowViolation 1 (apertureOf s c w)
  | .strand n d => refuseStrand s d n cause
  | .core x => sendBulk s (coreDie c) (coreDie x) .nack 0 0 0 []
/-- NARROW_WRITE (R205, R538). -/
def execNarrowWrite (c : CoreId) (src : Source) (w : WindowId) (row off : Nat) (data : List Byte) (readFails : Bool) (s : State) : Result :=
  .next (
    let r := ingressNarrow s c w row off src data readFails
    if r.2 = 0 then r.1 else refuseNarrow r.1 c w src r.2)
/-- GB_IDLE_FLUSH (R206): a buffer row that no write has reached for the time in 0x4050:02. -/
def execGbIdleFlush (c : CoreId) (m : Fin 3) (row : Nat) (readFails : Bool) (s : State) : Result :=
  .next (match gbFind s c m row with
    | some g => if g.last + objNat s 0x405002 ≤ now s then flushGb s c readFails g else s
    | none => s)
/-- SPM_GB_FLUSH (R206). -/
def execSpmGbFlush (c : CoreId) (readFails : Bool) (s : State) : Result :=
  .next (each (core s c).gb s (fun s g => flushGb s c readFails g))

/-! Reload and scrub (R218, R222). -/

/-- The stream of the running task whose slot lies in the region that holds a weight row. -/
def rowStream (s : State) (c row : Nat) : Nat := match (core s c).task, homeRegion s c row with
  | some t, some r => if t.copy then 31 else
    (((slots t.table).find? (fun k => sMem t.table k == 0 && sRegion t.table k == r)).bind (slotStream t.schedule)).getD 31
  | _, _ => 31
/-- RELOAD_DONE (R218, 10 R273): the row is rewritten and the failed read repeated. A reload that its tag brought has the home's row; the data
of another is the command's (log entry 101). A reload passes the scoreboard as a write (R222), and waits while an instruction holds the row. -/
def execReloadDone (c : CoreId) (row : Nat) (data : List Byte) (fails : Bool) (s : State) : Result :=
  .next (if !(core s c).reloads.contains row || sbWaits s c [] [(0, row, 1)] then s
    else
      let home := tget data (core s c).reloadData row
      let s := updCore s c (fun x => { x with reloads := x.reloads.filter (· != row), reloadData := tdel x.reloadData row,
                                              requests := x.requests.filter (fun r => !(r.kind == 1 && r.row == row)) })
      let s := bumpCore (loseOther (writeRow (flushRow s c 0 row false) c 0 row home) c row ((homeRegion s c row).getD 0)) c SPM_RELOAD_COUNT 1
      let s := corrected s c (rowStream s c row) 1
      if fails then
        let s := bumpCore (updCore s c (fun x => { x with badRows := rowKey 0 row :: x.badRows })) c SPM_DET_WMEM_COUNT 1
        faultCore (setDetect s c 0 row (if (core s c).task.isSome then 3 else 0)) c stScratchpadRowFault 31 0 0
      else match (core s c).task with
        | some t => if t.phase = 3 then runPrologue s c t.span else s
        | none => s)
/-- The next row in turn: the first at or after the scrub's position that a region with a valid home holds, else the first of all. -/
def scrubNext (s : State) (c : Nat) : Option Nat :=
  let homes := (List.range 64).filter (fun r => regionHome s c 0 r && regionLen s c 0 r != 0)
  let from_ (p : Nat) : Option Nat := (homes.filterMap (fun r =>
    if p < regionBase s c 0 r + regionLen s c 0 r then some (max p (regionBase s c 0 r)) else none)).foldl (fun o x => match o with
      | none => some x
      | some y => some (min x y)) none
  (from_ (core s c).scrubPos).or (from_ 0)
/-- RESIDENT_WEIGHT_SCRUB (R222): the row whose turn it is, unless a pending write of the scoreboard holds it. -/
def execResidentWeightScrub (c : CoreId) (row : Nat) (fails : Bool) (s : State) : Result :=
  .next (if objNat s 0x405003 ≠ 1 ∨ scrubNext s c ≠ some row ∨ (core s c).sb.any (fun e => e.write && e.mem == 0 && overlaps row 1 e.first e.rows) = true then s
    else
      let s := updCore (bumpCore s c SPM_SCRUB_COUNT 1) c (fun x => { x with scrubPos := row + 1 })
      if fails || (core s c).badRows.contains (rowKey 0 row) then detect s c 0 row else s)

/-! Bank power (R223 to R225). -/

def bankCount (m : Nat) : Nat := if m = 0 then 64 else if m = 1 then 32 else if m = 2 then 16 else 0
/-- The fields MEM, BANK and ACTION of a request. -/
def notePower (s : State) (c m bank action : Nat) : State := setReg s (coreOff c SPM_PWR_CTL) (m + bank * 4 + action * 2 ^ 8)
def setResult (s : State) (c r : Nat) : State := updCore s c (fun x => { x with bankResult := r })
/-- A row range of a memory meets a bank. -/
def inBank (m bank base len : Nat) : Bool := overlaps base len (bank * memBankRows m) (memBankRows m)
/-- The bank's map bit. -/
def setBank (s : State) (c m bank : Nat) (on : Bool) : State :=
  if m = 0 then setField s (coreOff c SPM_PWR_MAP_W) bank bank (b2n on)
  else let b := if m = 1 then bank else 32 + bank
       setField s (coreOff c SPM_PWR_MAP_AP) b b (b2n on)
/-- Every row of a bank holds zero with a valid detection word (R216). -/
def zeroBank (s : State) (c m bank : Nat) : State :=
  let lo := bank * memBankRows m
  let s := { s with mem := mclear s.mem (rowDpa c m lo) (rowDpa c m (lo + memBankRows m)) }
  updCore s c (fun x => { x with badRows := x.badRows.filter (fun k => decide (k < rowKey m lo ∨ rowKey m (lo + memBankRows m) ≤ k)) })
/-- Why a power-down is refused (R223). -/
def downRefused (s : State) (c m bank : Nat) : Bool :=
  decide (bankCount m ≤ bank)
    || (match (core s c).task with
      | some t => (taskRegions t).any (fun p => p.1 == m && inBank m bank (regionBase s c m p.2) (regionLen s c m p.2))
      | none => false)
    || (List.range 64).any (fun w => (winState s c w == 1 || winState s c w == 2) && bit (reg s (windowOff c w 0)) 6 && winMem s c w == m
        && inBank m bank (winBase s c w) (winLen s c w))
/-- BANK_POWER_DOWN (R223, R225): ACTION 1. -/
def execBankPowerDown (c : CoreId) (m : Fin 4) (bank : Fin 64) (s : State) : Result :=
  .next (
    if (core s c).bankReq.isSome then rejectConfig s c
    else
      let s := notePower s c m bank 1
      if downRefused s c m bank then setResult s c 2
      else if !bankPowered s c m bank then setResult s c 0
      else
        let wins := (List.range 64).filter (fun w => winState s c w == 1 && winMem s c w == m.val && inBank m bank (winBase s c w) (winLen s c w))
        let s := each wins s (fun s w => closeWin s c w)
        let s := each ((core s c).gb.filter (fun g => g.mem == m.val && inBank m bank g.row 1)) s (fun s g => flushGb s c false g)
        let r : BankReq := { up := false, mem := m, bank := bank, since := now s, wins := wins }
        setResult (updCore s c (fun x => { x with bankReq := some r })) c 1)
/-- Writes in flight of a power-down: to the windows that it closed, and one for a fill or copy that writes the bank (log entry 47). -/
def reqInflight (s : State) (c : Nat) (r : BankReq) : Nat :=
  (r.wins.map (fun w => winInflight s c w)).sum + (match (core s c).op with
    | some o => b2n (o.mem == r.mem && inBank r.mem r.bank o.dst o.rows)
    | none => 0)
/-- BANK_DRAINED (R223): the bank powers down. -/
def execBankDrained (c : CoreId) (s : State) : Result :=
  .next (match (core s c).bankReq with
    | some r => if r.up || reqInflight s c r != 0 then s else
      setResult (updCore (setBank (zeroBank s c r.mem r.bank) c r.mem r.bank false) c (fun x => { x with bankReq := none })) c 0
    | none => s)
/-- BANK_DRAIN_TIMEOUT (R224). -/
def execBankDrainTimeout (c : CoreId) (s : State) : Result :=
  .next (match (core s c).bankReq with
    | some r => if r.up || reqInflight s c r == 0 || decide (now s < r.since + objNat s 0x405001 * 1000) then s else
      let s := setResult (updCore s c (fun x => { x with bankReq := none })) c 3
      raise (bumpCore s c SPM_PWR_ABANDON_COUNT 1) (coreDie c) 0x403 1 0 c [c, r.mem, r.bank, reqInflight s c r, r.since]
    | none => s)
/-- BANK_POWER_UP (R225): ACTION 2. -/
def execBankPowerUp (c : CoreId) (m : Fin 4) (bank : Fin 64) (s : State) : Result :=
  .next (
    if (core s c).bankReq.isSome then rejectConfig s c
    else
      let s := notePower s c m bank 2
      if bankCount m ≤ bank.val then setResult s c 2
      else if bankPowered s c m bank then setResult s c 0
      else
        let r : BankReq := { up := true, mem := m, bank := bank, since := now s, wins := [] }
        setResult (updCore s c (fun x => { x with bankReq := some r })) c 1)
/-- BANK_POWER_UP_DONE (R216, R225). -/
def execBankPowerUpDone (c : CoreId) (s : State) : Result :=
  .next (match (core s c).bankReq with
    | some r => if !r.up then s else
      setResult (updCore (setBank (zeroBank s c r.mem r.bank) c r.mem r.bank true) c (fun x => { x with bankReq := none })) c 0
    | none => s)

end Sys2Proof.Machine
end

