-- ==== Sys2Proof/Machine/Security.lean ====
section
/-! DEFINITION. Update, anti-rollback, debug unlock, the test multiplexer and the SPDM responder (20 R496 to R512), and the standard mailbox
commands (16 R398, 20 R504, R505). -/

namespace Sys2Proof.Machine

/-! Counters, update, unlock. -/

/-- FW_COMMIT (R506): a refused one changes nothing. -/
def execFwCommit (s : State) : Result := .next (commitFw s).2
/-- BURN_COMPLETE (R506). -/
def execBurnComplete (s : State) : Result := .next (endBurn s)
/-- UNLOCK_NONCE (R510). -/
def execUnlockNonce (s : State) : Result := .next (newNonce s).2
/-- UNLOCK_RESPONSE (R510). -/
def execUnlockResponse (nonce : List Byte) (serial : Word) (level : Byte) (duration : BitVec 32) (signaturesOk : Bool) (s : State) : Result :=
  .next (unlockTry s nonce serial.toNat level.toNat duration.toNat signaturesOk).2
/-- UNLOCK_EXPIRY (R511): DURATION has passed in REFTIME. -/
def execUnlockExpiry (s : State) : Result := .next (if s.sec.unlockEnd ≤ now s then endUnlock s else s)
/-- RELOCK (R511). -/
def execRelock (s : State) : Result := .next (endUnlock s)
/-- ALIAS_LMS_RENEWAL (R498): with 1,024 leaves left, a new alias key replaces the old one. -/
def execAliasLmsRenewal (s : State) : Result :=
  .next (
    if lmsLeaves ≤ s.sec.aliasLeaf + 1024 then
      (if s.sec.identityLeaf < lmsLeaves then mgtEvent (newAlias s) 0xC06 1 [] else checkIdentity s)
    else s)
/-- TMUX_SELECT (R512). -/
def execTmuxSelect (value : Word) (dictionary : Bool) (s : State) : Result := .next (selectTmux s value.toNat dictionary).2

/-! The standard mailbox commands. A status of the manual is carried as two octets (log entry 60). -/

/-- MAILBOX_UNSUPPORTED (16 R398). -/
def execMailboxUnsupported (_opcode : BitVec 16) (s : State) : Result := .next (emit s (.mailbox true []))
/-- IDENTIFY: the payload is the standard's. -/
def execIdentify (s : State) : Result := .next (emit s (.mailbox false (Config.standardReply 0x4000 [])))
/-- GET_EVENT_RECORDS: the payload is the standard's. -/
def execGetEventRecords (s : State) : Result :=
  .next (emit { s with freeIdx := s.freeIdx + 1 } (.mailbox false (Config.standardReply 0x100 [s.freeIdx])))
/-- GET_FW_INFO: two slots, the active bank in slot 1 and the inactive one in slot 2, and what is staged for the next cast-on; the layout is
CXL 2.0's. Online activation is not supported (20 R505). -/
def execGetFwInfo (s : State) : Result :=
  let rev (v : Nat) : List Byte := leBytes 16 v
  .next (emit s (.mailbox false (
    leBytes 1 2 ++ leBytes 1 (1 + (if s.sec.nextBank.isSome then 2 else 0) * 8) ++ leBytes 14 0
      ++ rev (fwVersion s) ++ rev (match s.sec.stagedImages.find? (fun i => i.kind.val == 1) with
        | some i => i.version.toNat
        | none => Config.fwVersion (1 - s.sec.activeBank)) ++ leBytes 32 0)))
/-- TIMESTAMP: set it, or read it as it has advanced since. -/
def execTimestamp (set : Option Word) (s : State) : Result :=
  .next (match set with
    | some v => emit { s with hst := { s.hst with mailboxTime := some ((v.toNat + 2 ^ 64 - now s % 2 ^ 64) % 2 ^ 64) } } (.mailbox false [])
    | none => emit s (.mailbox false (leBytes 8 (match s.hst.mailboxTime with
        | some b => b + now s
        | none => 0))))
/-- GET_LOG: the payload is the standard's. -/
def execGetLog (off len : BitVec 32) (s : State) : Result :=
  .next (emit { s with freeIdx := s.freeIdx + 1 } (.mailbox false (Config.standardReply 0x401 [off.toNat, len.toNat, s.freeIdx])))
/-- TRANSFER_FW (20 R504): bytes of a set for the inactive bank. -/
def execTransferFw (off : Nat) (data : List Byte) (last : Bool) (images : List ImageCheck) (s : State) : Result :=
  let r := transferBytes s 1 off data.length last images
  .next (emit r.2 (.mailbox false (leBytes 2 r.1)))
/-- ACTIVATE_FW (20 R505): slot 2 is the inactive bank, slot 1 the active one; online activation is not supported. -/
def execActivateFw (slot : Fin 16) (online : Bool) (s : State) : Result :=
  .next (
    if online then emit s (.mailbox true [])
    else if slot.val = 2 then (let r := activateBank s
      emit r.2 (.mailbox false (leBytes 2 r.1)))
    else if slot.val = 1 then emit { s with sec := { s.sec with nextBank := none } } (.mailbox false (leBytes 2 0))
    else emit s (.mailbox false (leBytes 2 stValueOutOfRange)))

/-! The SPDM responder (R507 to R509). Stages of a connection: 1 version, 2 capabilities, 3 algorithms negotiated. -/

def spdmOf (s : State) (r : Nat) : Option Spdm := s.sec.connections.find? (fun x => x.requester == r)
def setSpdm (s : State) (x : Spdm) : State :=
  { s with sec := { s.sec with connections := s.sec.connections.filter (fun y => y.requester != x.requester) ++ [x] } }
def spdmError (s : State) (r : Nat) (name : String) : State := emit s (.spdm name r [])
/-- A request at stage n or later: the hash of an earlier signed response is discarded (R508), and k answers. -/
def spdmAt (s : State) (r n : Nat) (k : State → Spdm → State) : State := match spdmOf s r with
  | some x => if n ≤ x.stage then k (setSpdm s { x with hash := none }) { x with hash := none } else spdmError s r "ERROR UnexpectedRequest"
  | none => spdmError s r "ERROR UnexpectedRequest"

/-- GET_VERSION (R507): at most four connections are live. -/
def execGetVersion (requester : BitVec 48) (s : State) : Result :=
  let r := requester.toNat
  .next (
    if (spdmOf s r).isNone && decide (4 ≤ s.sec.connections.length) then spdmError s r "ERROR Busy"
    else emit (setSpdm s { requester := r, stage := 1 }) (.spdm "VERSION" r (leBytes 1 0x12)))
/-- GET_CAPABILITIES (R507): CERT_CAP, CHAL_CAP, MEAS_CAP with signature. -/
def execGetCapabilities (requester : BitVec 48) (s : State) : Result :=
  .next (spdmAt s requester.toNat 1 (fun s x =>
    emit (setSpdm s { x with stage := 2 }) (.spdm "CAPABILITIES" x.requester (leBytes 4 (2 ^ 1 + 2 ^ 2 + 2 * 2 ^ 3)))))
/-- NEGOTIATE_ALGORITHMS (R507): P-384 and SHA-384. -/
def execNegotiateAlgorithms (requester : BitVec 48) (offered : Bool) (s : State) : Result :=
  .next (spdmAt s requester.toNat 2 (fun s x =>
    if offered then emit (setSpdm s { x with stage := 3 }) (.spdm "ALGORITHMS" x.requester (leBytes 4 0x80 ++ leBytes 4 2))
    else spdmError s x.requester "ERROR InvalidRequest"))
/-- The chain of slot 0. -/
def certChain (s : State) (off n : Nat) : List Byte :=
  (List.range (min n (Config.certLength - off))).map (fun i => Config.certOctet (bootMeasure s) (off + i))
/-- GET_DIGESTS (R507). -/
def execGetDigests (requester : BitVec 48) (s : State) : Result :=
  .next (spdmAt s requester.toNat 3 (fun s x => emit s (.spdm "DIGESTS" x.requester (leBytes 1 1 ++ sha384 (certChain s 0 Config.certLength)))))
/-- GET_CERTIFICATE (R507): slot 0 alone, from an offset; the reply says what is left. -/
def execGetCertificate (requester : BitVec 48) (slot : Byte) (off len : BitVec 16) (s : State) : Result :=
  .next (spdmAt s requester.toNat 3 (fun s x =>
    if slot ≠ 0 ∨ Config.certLength < off.toNat then spdmError s x.requester "ERROR InvalidRequest"
    else
      let l := certChain s off.toNat len.toNat
      emit s (.spdm "CERTIFICATE" x.requester (leBytes 1 0 ++ leBytes 2 l.length ++ leBytes 2 (Config.certLength - off.toNat - l.length) ++ l))))
/-- CHALLENGE (R507): the signed answer, and its hash for the LMS half. -/
def execChallenge (requester : BitVec 48) (slot : Byte) (hash : List Byte) (s : State) : Result :=
  .next (spdmAt s requester.toNat 3 (fun s x =>
    if slot ≠ 0 then spdmError s x.requester "ERROR InvalidRequest"
    else emit (setSpdm s { x with hash := some hash }) (.spdm "CHALLENGE_AUTH" x.requester
      (sha384 (certChain s 0 Config.certLength) ++ ecdsaAlias s hash))))
/-- GET_MEASUREMENTS (R509): block 0 asks how many there are, 0xFF asks for all. -/
def execGetMeasurements (requester : BitVec 48) (block : Byte) (signed : Bool) (hash : List Byte) (s : State) : Result :=
  let b := block.toNat
  .next (spdmAt s requester.toNat 3 (fun s x =>
    if 11 < b ∧ b ≠ 0xFF then spdmError s x.requester "ERROR InvalidRequest"
    else
      let body : List Byte :=
        if b = 0 then leBytes 1 11
        else if b = 0xFF then leBytes 1 11 ++ (List.range 11).flatMap (fun i => measurementBlock s (i + 1))
        else leBytes 1 1 ++ measurementBlock s b
      if signed then emit (setSpdm s { x with hash := some hash }) (.spdm "MEASUREMENTS" x.requester (body ++ ecdsaAlias s hash))
      else emit s (.spdm "MEASUREMENTS" x.requester body)))
/-- GET_LMS_SIGNATURE (R508): valid only next after a signed response; it uses one leaf of the alias key. -/
def execGetLmsSignature (requester : BitVec 48) (s : State) : Result :=
  let r := requester.toNat
  .next (match spdmOf s r with
    | none => spdmError s r "ERROR UnexpectedRequest"
    | some x =>
      let t := setSpdm s { x with hash := none }
      if lmsLeaves ≤ s.sec.identityLeaf then emit (checkIdentity t) (.spdm "KEY_EXHAUSTED" r (leBytes 2 stKeyExhausted))
      else match x.hash with
        | none => spdmError t r "ERROR UnexpectedRequest"
        | some h =>
          if lmsLeaves ≤ s.sec.aliasLeaf then spdmError s r "ERROR Busy"
          else emit { t with sec := { t.sec with aliasLeaf := t.sec.aliasLeaf + 1 } } (.spdm "LMS_SIGNATURE" r (lmsAlias s h)))

end Sys2Proof.Machine
end

