-- ==== Sys2Proof/Machine/Strands.lean ====
section
/-! DEFINITION. Strand control, the strand cache, host write apertures and configuration space (16 R403 to R406, R419, R420; 18 R448). -/

namespace Sys2Proof.Machine

/-! Strand control (R404, R405). -/

/-- How an action ends: RESULT and STATUS. -/
def strandEnd (s : State) (result status : Nat) : State := { s with hst := { s.hst with strandResult := result, strandStatus := status } }
/-- A write while an action runs is ignored and counted. -/
def strandCtl (s : State) (k : State → State) : State := if s.hst.strandResult = 1 then bump s (hstOff HST_CFG_REJECT_COUNT) 1 else k s
/-- Words 0 to 7 of an entry. -/
def entryWords (s : State) (n : Nat) : List Nat := rdWords s (strandEntry s n 0) 8
/-- Every cache holds the entry. -/
def cacheEverywhere (s : State) (n : Nat) : State := hstTouch (each (List.range 8) s (fun s d => lnkTouch s d n)) n

/-- STRAND_ACTIVATE (R404). -/
def execStrandActivate (n : StrandId) (s : State) : Result :=
  .next (strandCtl s (fun s =>
    if !stageDone s 3 then strandEnd s 2 stNotReady
    else
      let w := entryWords s n
      if !bit (word w 0) 0 || strandLive s n then strandEnd s 2 stStrandInvalid
      else
        let s := wrBytes s (strandEntry s n 8) (zeros 24)
        let s := setStrand s n { words := w, txCredit := bits (word w 4) 31 16 }
        strandEnd (cacheEverywhere s n) 0 0))
/-- STRAND_UPDATE (R404): a strand that is not live is refused. -/
def execStrandUpdate (n : StrandId) (s : State) : Result :=
  .next (strandCtl s (fun s =>
    if !strandLive s n then strandEnd s 2 stStrandInvalid
    else strandEnd (cacheEverywhere (updStrand s n (fun x => { x with words := entryWords s n })) n) 0 0))
/-- STRAND_FLUSH (R404). -/
def execStrandFlush (n : StrandId) (s : State) : Result :=
  .next (strandCtl s (fun s => if !strandLive s n then strandEnd s 2 stStrandInvalid else strandEnd (flushStrand s n) 0 0))
/-- STRAND_RELEASE (R405): waiting tasks complete, running tasks are cancelled, and the entry leaves when the last has completed. -/
def execStrandRelease (n : StrandId) (s : State) : Result :=
  .next (strandCtl s (fun s =>
    if !strandLive s n then strandEnd s 2 stStrandInvalid
    else
      let s := strandEnd (updStrand s n (fun x => { x with releasing := true })) 1 0
      let s := each (s.hst.fetched.map (·.1)) s (fun s q =>
        let s := if (((fetched s q).head?).map (fun d => tStrand d.words == n.val)).getD false then leaveWaits s q else s
        each ((fetched s q).filter (fun d => tStrand d.words == n.val)) s (fun s d =>
          refuseTask (setFetched s q ((fetched s q).filter (fun e => e.seq != d.seq))) q d.seq d.words stStrandReleased))
      let s := each ((busySlots s).filter (fun k => (slotOf s k).strand == n.val)) s (fun s k => endTask s k stCancelled hstDie none true)
      settleRelease s))
/-- STRAND_CACHE_MISS (R406): the HST die fetches the entry; the least recently used one leaves with its words written back. -/
def execStrandCacheMiss (n : StrandId) (s : State) : Result :=
  .next (if hstHolds s n || !strandLive s n then s else hstTouch (bump s (hstOff HST_STRAND_MISS_COUNT) 1) n)

/-! Host write apertures (R419, R420). -/

/-- APERTURE_WRITE (R419): the bytes go to row ROW of the target window through the core's ingress; a refused write, one for a core without an open window among them (13 R324), is dropped. A write
that covers byte 511 advances ROW. -/
def execApertureWrite (a : Fin 16) (off : Fin 512) (data : List Byte) (s : State) : Result :=
  let w := reg s (apOff a)
  let c := bits w 5 0
  let data := data.take (512 - off)
  let s := if !coreActive s c then postedDrop s stWindowViolation 1 a
    else
      let r := ingressNarrow s c (bits w 11 6) (bits w 31 12) off .host data false
      if r.2 = 0 then r.1 else postedDrop r.1 stWindowViolation 1 a
  .next (if off + data.length = 512 then setField s (apOff a) 31 12 (bits w 31 12 + 1) else s)

/-! Configuration space (18 R448). -/

/-- CONFIG_REQUEST: no answer within 100 ms of PERST_N, then the retry status until stage 2 has completed, then the register. -/
def execConfigRequest (dword : BitVec 12) (s : State) : Result :=
  .next (emit s (.config (
    if s.power.perstHeld || decide (now s < s.power.perstAt + 10 ^ 8) then none
    else if !stageDone s 2 then some none
    else some (some (Config.configSpace dword.toNat)))))

end Sys2Proof.Machine
end

