-- ==== Sys2Proof/Machine/RegWrite.lean ====
section
/-! DEFINITION. Writes of registers over the bulk network (14 R354): a register that has a command of its own takes that command's effect,
any other software register stores its fields; reserved bits, read-only registers and reserved offsets take no write (00 R9). -/

namespace Sys2Proof.Machine

/-- The state that a command leaves. -/
def nextOf (s : State) : Result → State
  | .next t => t
  | _ => s

/-- The producer behind a die that writes a queue's port (11 R286): a core, the host, or the strand whose packets a link die delivers. -/
def producerAt (s : State) (src q : Nat) : Option Producer :=
  if src = hstDie then some .host
  else if 88 ≤ src ∧ src < 96 then some (.strand (Fin.ofNat 262144 (queProdStrand s q)))
  else (dieCore src).map (fun c => .core (Fin.ofNat 64 c))

/-- Word w of hardware queue entry q (11 R284, R286, R293, R298, R299). -/
def writeQueue (s : State) (src : Nat) (q : HwQueue) (w : Nat) (v : Word) : State :=
  let x := v.toNat
  if w = 0 then nextOf s (execQueueEnable q v s)
  else if w = 3 then
    (if bits x 1 0 = 1 then nextOf s (execDiscard q (if src = coreDie (queCore q) ∧ (core s (queCore q)).task.isSome = true then .task else .software) s)
     else if bits x 1 0 = 2 then nextOf s (execQueueFlush q s)
     else if bits x 1 0 = 3 then nextOf s (execQueueRelease q (BitVec.ofNat 13 (bits x 14 2)) s) else s)
  else match producerAt s src q with
    | none => s
    | some p =>
      if w = 4 then nextOf s (execOpenPacket q p s)
      else if w = 5 then nextOf s (execData q p v s)
      else if w = 6 then nextOf s (execClose q p s) else s

/-- Words of submission and completion queue entries (16 R407). -/
def writeSq (s : State) (q : HostQueue) (w : Nat) (v : Word) : State :=
  if w = 0 then nextOf s (execQueuePairEnable false q v s)
  else if w = 1 then setReg s (sqOff q 1) (bits v.toNat 51 0)
  else if w = 2 then setReg s (sqOff q 2) (bits v.toNat 35 0) else s
def writeCq (s : State) (q : HostQueue) (w : Nat) (v : Word) : State :=
  if w = 0 then nextOf s (execQueuePairEnable true q v s)
  else if w = 1 then setReg s (cqOff q 1) (bits v.toNat 51 0) else s

/-- The MSI-X table (16 R417, PCIe): unmasking a vector sends its pending message. -/
def writeMsix (s : State) (k w : Nat) (v : Nat) : State :=
  if w = 0 then setReg s (msixOff k 0) (v / 4 * 4)
  else
    let s := setReg s (msixOff k 1) (bits v 32 0)
    if !bit v 32 && bit (reg s (pbaOff k)) (k % 64) then sendMsix (setField s (pbaOff k) (k % 64) (k % 64) 0) k else s

/-- A host write aperture (16 R419): the target, or eight bytes of the data area. -/
def writeAperture (s : State) (a : Fin 16) (o : Nat) (v : Word) : State :=
  if o = 0 then setReg s (apOff a) (bits v.toNat 31 0)
  else if 0x200 ≤ o ∧ o < 0x400 then nextOf s (execApertureWrite a (Fin.ofNat 512 (o - 0x200)) (leBytes 8 v.toNat) s) else s

/-- The dictionary window (19 R473). -/
def writeWindow (s : State) (o : Nat) (v : Nat) : State :=
  if o = MGT_DICT_HDR0 then setReg s (dictOff o) (putBits (putBits v 7 5 0) 47 40 0)
  else if o = MGT_DICT_HDR1 then setField s (dictOff o) 47 0 v
  else if o = MGT_DICT_GO then (if bit v 0 then nextOf s (execDictWindowGo s) else s)
  else if MGT_DICT_DATA ≤ o ∧ o < MGT_DICT_DATA + 1024 then
    (let w := (s.dict.window ++ zeros 1024).take 1024
     let k := o - MGT_DICT_DATA
     { s with dict := { s.dict with window := w.take k ++ leBytes 8 v ++ w.drop (k + 8) } })
  else s

/-- Strand control (16 R403, R404): the base is 64 MiB-aligned and stands while any strand is live. -/
def writeStrandCtl (s : State) (o : Nat) (v : Nat) : State :=
  if o = HST_STRAND_BASE then (if s.hst.strands.isEmpty then setReg s (strandOff o) (bits v 51 26 * 2 ^ 26) else s)
  else if o = HST_STRAND_CTL then
    let n : StrandId := Fin.ofNat 262144 (bits v 17 0)
    match bits v 20 18 with
    | 1 => nextOf s (execStrandActivate n s)
    | 2 => nextOf s (execStrandUpdate n s)
    | 3 => nextOf s (execStrandFlush n s)
    | 4 => nextOf s (execStrandRelease n s)
    | _ => strandCtl s (fun s => s)
  else s

/-- SPM_PWR_CTL and SPM_WIN_CTL (08). -/
def writeBankPower (s : State) (c : CoreId) (v : Nat) : State :=
  let m : Fin 4 := Fin.ofNat 4 (bits v 1 0)
  let b : Fin 64 := Fin.ofNat 64 (bits v 7 2)
  if bits v 9 8 = 1 then nextOf s (execBankPowerDown c m b s)
  else if bits v 9 8 = 2 then nextOf s (execBankPowerUp c m b s)
  else setReg s (coreOff c SPM_PWR_CTL) (bits v 9 0)
def writeWinCtl (s : State) (c : CoreId) (v : Nat) : State :=
  let w : WindowId := Fin.ofNat 64 (bits v 5 0)
  if bits v 7 6 = 1 then nextOf s (execWinOpen c w false s)
  else if bits v 7 6 = 2 then nextOf s (execWinClose c w s) else s

/-- Named registers of a core block (02 to 13). -/
def writeCoreReg (s : State) (c : CoreId) (o : Nat) (v : Word) : State :=
  let x := v.toNat
  if o = CORE_PACE_CLEAR then nextOf s (execCorePaceClear c v s)
  else if o = CORE_NUM_CLEAR then nextOf s (execCoreNumClear c v s)
  else if o = CORE_FMT_CLEAR then nextOf s (execCoreFmtClear c v s)
  else if o = CORE_LANE_CLEAR then nextOf s (execCoreLaneClear c v s)
  else if o = CORE_ACC_CLEAR then nextOf s (execCoreAccClear c v s)
  else if o = CORE_RFU_CLEAR then nextOf s (execCoreRfuClear c v s)
  else if o = SPM_CLEAR then nextOf s (execSpmClear c v s)
  else if o = LOOP_CLEAR then nextOf s (execLoopClear c v s)
  else if o = FET_CLEAR then nextOf s (execFetClear c v s)
  else if o = QUE_CLEAR then nextOf s (execQueClear c v s)
  else if o = LCE_CLEAR then nextOf s (execLceClear c v s)
  else if o = CORE_XLT_CLEAR then nextOf s (execCoreXltClear c v s)
  else if o = SPM_PWR_CTL then writeBankPower s c x
  else if o = SPM_WIN_CTL then writeWinCtl s c x
  else if o = SPM_GB_FLUSH then
    (if bit x 0 then (let f := freshFree s
                      nextOf f.2 (execSpmGbFlush c (bit f.1 0) f.2)) else s)
  else if o = SPM_OP0 then setReg s (coreOff c o) (bits x 45 0)
  else if o = SPM_OP1 then setReg s (coreOff c o) (bits x 19 0)
  else if o = SPM_OP2 then nextOf s (execSpmOpStart c v s)
  else if o = QUE_TAG_PAGE then setReg s (coreOff c o) (bits x 2 0)
  else s

/-- A core block: its registers, region entries, window entries and stitch markers (08 R198, R210, R214). -/
def writeCore (s : State) (c : CoreId) (o : Nat) (v : Word) : State :=
  if 0x2000 ≤ o ∧ o < 0x5000 then
    nextOf s (execRegionEntryWrite c (Fin.ofNat 3 ((o - 0x2000) / 0x1000)) (Fin.ofNat 64 (o % 0x1000 / 0x40)) (Fin.ofNat 8 (o % 0x40 / 8)) v s)
  else if 0x5000 ≤ o ∧ o < 0x5800 then
    nextOf s (execWindowEntryWrite c (Fin.ofNat 64 ((o - 0x5000) / 0x20)) (Fin.ofNat 4 (o % 0x20 / 8)) v s)
  else if 0x5800 ≤ o ∧ o < 0x6000 then nextOf s (execStitchMarkerWrite c (Fin.ofNat 256 ((o - 0x5800) / 8)) v s)
  else writeCoreReg s c o v

/-- A link die (15 R379, R388): the send descriptor is posted with its word 7. -/
def writeLink (s : State) (d : LnkDie) (o : Nat) (v : Word) : State :=
  if o = LNK_PORT_CLEAR then nextOf s (execLnkPortClear (Fin.ofNat 16 (2 * d)) v s)
  else if o = 0x1000 + LNK_PORT_CLEAR then nextOf s (execLnkPortClear (Fin.ofNat 16 (2 * d + 1)) v s)
  else if o = LNK_DIE_CLEAR then nextOf s (execLnkDieClear d v s)
  else if 0x2100 ≤ o ∧ o < 0x2140 then
    (let s := { s with linkPost := tset s.linkPost (8 * d + (o - 0x2100) / 8) v.toNat }
     if o = 0x2138 then nextOf s (execLnkSendPost d none ((List.range 8).map (fun w => BitVec.ofNat 64 (tget 0 s.linkPost (8 * d + w)))) s) else s)
  else if 0x3000 ≤ o ∧ o < 0x3100 then
    let k := (o - 0x3000) / 0x20
    let w := o % 0x20 / 8
    if w = 0 then nextOf s (execMergeContextOpen d (Fin.ofNat 8 k) v s)
    else setReg s (mergeOff d k w) (if w = 3 then bits v.toNat 47 0 else bits v.toNat 35 0)
  else s

/-- The lifeline registers (17). -/
def writeLifeline (s : State) (o : Nat) (v : Word) : State :=
  let n : StrandId := Fin.ofNat 262144 (bits v.toNat 17 0)
  if o = MGT_LL_CTL then
    match bits v.toNat 20 18 with
    | 1 => nextOf s (execArm n s)
    | 2 => nextOf s (execHold n s)
    | 3 => nextOf s (execLifelineDisarm n s)
    | 4 => nextOf s (execRestore n s)
    | _ => s
  else if o = MGT_LL_ARG then setReg s (llOff o) (bits v.toNat 47 0)
  else if o = MGT_LL_CLEAR then nextOf s (execMgtLlClear v s) else s

/-- The security registers (20). -/
def writeSecurity (s : State) (o : Nat) (v : Word) : State :=
  let x := v.toNat
  if o = SEC_CTL then
    (let s := if bit x 0 then nextOf s (execFwCommit s) else s
     if bit x 1 then nextOf s (execRelock s) else s)
  else if o = SEC_TMUX_SEL then nextOf s (execTmuxSelect v false s)
  else if o = SEC_TMUX_ARG then
    { s with sec := { s.sec with tmuxArg := bits x 5 0 + bits x 15 8 * 2 ^ 8 + bits x 19 16 * 2 ^ 16 + bits x 22 20 * 2 ^ 20 } }
  else if o = SEC_CLEAR then nextOf s (execSecClear v s) else s

/-- The management block (02, 14, 17, 18, 20). How long a chattering pin has been quiet is a free value. -/
def writeMgt (s : State) (off : Nat) (v : Word) : State :=
  if off = 0x3C00000 + MGT_REFTIME_LOAD then nextOf s (execReftimeLoad v s)
  else if off = 0x3C00000 + MGT_REFTIME_SLEW then nextOf s (execReftimeSlew v s)
  else if 0x3C01000 ≤ off ∧ off < 0x3C07400 then
    (if off % 0x100 = MGT_RTR_CLEAR then nextOf s (execMgtRtrClear (Fin.ofNat 100 ((off - 0x3C01000) / 0x100)) v s) else s)
  else if 0x3C08000 ≤ off ∧ off < 0x3C09000 then writeLifeline s (off - 0x3C08000) v
  else if off = pwrOff MGT_INPUT_CLEAR then
    (let f := freshFree s
     nextOf f.2 (execMgtInputClear v (BitVec.ofNat 3 f.1) f.2))
  else if off = pwrOff MGT_PWR_CLEAR then nextOf s (execMgtPwrClear v s)
  else if 0x3C0A000 ≤ off ∧ off < 0x3C0B000 then writeSecurity s (off - 0x3C0A000) v
  else s

/-- The write of the register at a BAR0 offset, from a die. -/
def writeReg (s : State) (src off : Nat) (v : Word) : State :=
  let o := off % 0x10000
  if 0x10000 ≤ off ∧ off < 0x30000 then writeQueue s src (Fin.ofNat 2048 ((off - 0x10000) / 0x40)) (off % 0x40 / 8) v
  else if 0x40000 ≤ off ∧ off < 0x80000 then writeSq s (Fin.ofNat 4096 ((off - 0x40000) / 0x40)) (off % 0x40 / 8) v
  else if 0x80000 ≤ off ∧ off < 0xA0000 then writeCq s (Fin.ofNat 4096 ((off - 0x80000) / 0x20)) (off % 0x20 / 8) v
  else if off = hstOff HST_CANCEL then nextOf s (execHstCancel v s)
  else if off = hstOff HST_CLEAR then nextOf s (execHstClear v s)
  else if 0xB0000 ≤ off ∧ off < 0xC0000 then writeAperture s (Fin.ofNat 16 ((off - 0xB0000) / 0x1000)) (off % 0x1000) v
  else if 0xE0000 ≤ off ∧ off < 0xE8000 then writeMsix s ((off - 0xE0000) / 16) (off % 16 / 8) v.toNat
  else if 0x100000 ≤ off ∧ off < 0x102000 then writeWindow s (off - 0x100000) v.toNat
  else if 0x200000 ≤ off ∧ off < 0x210000 then writeStrandCtl s o v.toNat
  else if 0x1000000 ≤ off ∧ off < 0x1400000 then writeCore s (Fin.ofNat 64 ((off - 0x1000000) / 0x10000)) o v
  else if 0x2000000 ≤ off ∧ off < 0x2800000 then writeLink s (Fin.ofNat 8 ((off - 0x2000000) / 0x100000)) (off % 0x100000) v
  else if 0x2800000 ≤ off ∧ off < 0x2880000 then
    (if o = MIF_CLEAR then nextOf s (execMifClear (Fin.ofNat 8 ((off - 0x2800000) / 0x10000)) v s) else s)
  else if 0x3800000 ≤ off ∧ off < 0x3840000 then
    (if o = FAR_CLEAR then nextOf s (execFarClear (Fin.ofNat 4 ((off - 0x3800000) / 0x10000)) v s) else s)
  else if 0x3C00000 ≤ off then writeMgt s off v
  else s

/-- REGISTER_WRITE (14 R354): the destination delivers it once, and the register takes it. -/
def execRegisterWrite (t : BulkTag) (off : BitVec 26) (value : Word) (s : State) : Result :=
  .next (onBulk (ownerDie off.toNat) t s (fun s => writeReg s t.src (off.toNat / 8 * 8) value))

end Sys2Proof.Machine
end

