-- ==== Sys2Proof/Machine/RowCounters.lean ====
section
/-! DEFINITION. The row counter's protocol (09 R250 to R256; 05 R129 to R134; 06 R153, R160). -/

namespace Sys2Proof.Machine

/-- Chunks of a counter. -/
def chunkCount (x : RowCounter) : Nat := ceilDiv x.k (2 ^ x.chunkLog)
/-- The message reaches the slice of its counter. -/
def onSlice (counter : CounterId) (f : Frame) (s : State) (k : State → State) : State := onChain (sliceDie (counterSlice counter)) f s k
/-- The slice sends a message. -/
def fromSlice (s : State) (counter die : Nat) (m : Msg) : State := sendChain s (sliceDie (counterSlice counter)) die m
/-- A claim or report that is discarded counts (R252, R256). -/
def dropClaim (s : State) : State := { s with hst := { s.hst with claimsDropped := s.hst.claimsDropped + 1 } }

/-! Arming (R250). -/

/-- ARM0 (R251). -/
def execArm0 (f : Frame) (c : CounterId) (chunkLog : BitVec 3) (k : BitVec 21) (s : State) : Result :=
  .next (onSlice c f s (fun s => updCounter s c (fun x => { x with chunkLog := chunkLog.toNat, k := k.toNat })))
/-- ARM1 (R251). -/
def execArm1 (f : Frame) (c : CounterId) (n : StrandId) (s : State) : Result :=
  .next (onSlice c f s (fun s => updCounter s c (fun x => { x with strand := n })))
/-- ARM2 (R250; 05 R132): the summary is pinned, and ARMED answers when it is resident. A line of it that does not translate or
cannot be read ends the task. -/
def execArm2 (f : Frame) (c : CounterId) (base : BitVec 48) (s : State) : Result :=
  .next (onSlice c f s (fun s =>
    let x := rowCounter s c
    let s := updCounter s c (fun x => { x with armed := true, reserved := false, summaryBase := base.toNat, attempt := 0, next := 0, owners := [],
                                               counts := [], final := [], based := 0, outBase := outRp0 s x.slot })
    let r := getRange s x.strand base.toNat (4 * (x.k + 1))
    let s := r.1
    if r.2 ≠ stSuccess then endTask s x.slot r.2 (sliceDie (counterSlice c)) none false
    else fromSlice (updCounter s c (fun y => { y with pin := (List.range (x.k + 1)).map (summaryAt s (.va x.strand) base.toNat) })) c hstDie (.armed c)))
/-- ARMED (R250). -/
def execArmed (f : Frame) (c : CounterId) (s : State) : Result :=
  .next (onChain hstDie f s (fun s =>
    let k := (rowCounter s c).slot
    if (slotOf s k).busy && (slotOf s k).counter == some c.val then proceed (updSlot s k (fun x => { x with armedCounter := true })) k else s))

/-! Claims (05 R129 to R133). -/

/-- Entry k of the pinned summary: the copy that arming made, which no write and no eviction touches (05 R132). -/
def pinned (x : RowCounter) (k : Nat) : Nat := x.pin.getD k 0
/-- CLAIM at the slice (R252): ANSWER and ROWS. -/
def execClaim (f : Frame) (c : CounterId) (attempt : BitVec 2) (s : State) : Result :=
  .next (onSlice c f s (fun s => match dieCore f.src with
    | none => s
    | some n =>
      let x := rowCounter s c
      if x.armed = false ∨ attempt.toNat ≠ x.attempt ∨ coreActive s n = false then dropClaim s
      else if chunkCount x ≤ x.next then fromSlice s c f.src (.answer n c x.attempt true 0 0 0)
      else
        let k := x.next
        let s := updCounter s c (fun x => { x with next := k + 1, owners := tset x.owners k n })
        fromSlice s c f.src (.answer n c x.attempt false k (pinned x (k * 2 ^ x.chunkLog)) (pinned x (min ((k + 1) * 2 ^ x.chunkLog) x.k)))))

/-- The chunk of a claim's answer (05 R129, R131): its positions begin `chunk` chunks after the first and end at the operand's last. -/
def answeredChunk (s : State) (c : Nat) (t : CoreTask) (chunk i0 i1 : Nat) : Chunk :=
  let lo := posFirst t + chunk * chunkSize t.table
  let k : Chunk := { idx := chunk, s := lo, e := min (lo + chunkSize t.table) (posEnd t), i0 := i0, i1 := i1, answered := now s,
                     ahead := unstarted (core s c) }
  { k with rowsLeft := (boundaryVas t k).length }
/-- A claim is answered at the core (05 R129, R133, R134): an empty range ends its claims; any other is queued, and its boundary rows
are asked for, or searched at once in a resident operand. -/
def takeAnswer (s : State) (c : Nat) (empty : Bool) (chunk i0 i1 : Nat) : State := match (core s c).task with
  | none => s
  | some t =>
    let k := answeredChunk s c t chunk i0 i1
    let l := chunkReqs s t k
    let s := updTask s c (fun t => { t with claimInFlight := false, dry := empty })
    if empty then s
    else
      let s := updCore s c (fun x => { x with chunks := x.chunks ++ [k] })
      let s := bumpCore (bumpCore s c CORE_CLAIM_COUNT 1) c CORE_CLAIM_POS_COUNT (k.e - k.s)
      let s := if sSource t.table (claimSlot t) = 1 then boundarySearch s c chunk else addReqs s c l
      sendClaim s c
/-- ANSWER with its ROWS. -/
def execAnswer (f : Frame) (c : CoreId) (counter : CounterId) (attempt : BitVec 2) (empty : Bool) (chunk : BitVec 21) (i0 i1 : BitVec 32)
    (s : State) : Result :=
  .next (onChain (coreDie c) f s (fun s => match (core s c).task with
    | some t => if t.counter = some counter.val ∧ t.claimInFlight = true ∧ t.attempt = attempt.toNat
        then takeAnswer s c empty chunk.toNat i0.toNat i1.toNat else s
    | none => s))
/-- LOCAL_CLAIM (R255): the core answers its own claim from the summary that it read at issue. -/
def execLocalClaim (c : CoreId) (s : State) : Result :=
  .next (match (core s c).task with
    | none => s
    | some t =>
      if t.copy || !claimsMode t.table || t.counter.isSome || !t.claimInFlight || t.phase != 4 then s
      else
        let k := t.localNext.getD 0
        let n := posEnd t - posFirst t
        let last := ceilDiv n 4096
        let entry (q : Nat) : Nat := t.localSums.getD q 0
        let s := updTask s c (fun t => { t with localNext := some (k + 1) })
        if n ≤ k * chunkSize t.table then takeAnswer s c true 0 0 0
        else takeAnswer s c false k (entry (k * 2 ^ chunkLog t.table)) (entry (min ((k + 1) * 2 ^ chunkLog t.table) last)))
/-! Owners, counts and bases (06 R153, R160). -/

/-- OWNER at the slice. -/
def execOwner (f : Frame) (c : CounterId) (chunk : BitVec 21) (s : State) : Result :=
  .next (onSlice c f s (fun s => match dieCore f.src, tfind (rowCounter s c).owners chunk.toNat with
    | some n, some h => fromSlice s c f.src (.ownerAns n c chunk.toNat h)
    | _, _ => s))
/-- OWNER_ANS at the core. -/
def execOwnerAns (f : Frame) (c : CoreId) (counter : CounterId) (chunk : BitVec 21) (home : CoreId) (s : State) : Result :=
  .next (onChain (coreDie c) f s (fun s => match (core s c).task with
    | some t => if t.counter = some counter.val then updCore s c (fun x => { x with owners := tset x.owners chunk.toNat home }) else s
    | none => s))
/-- Bases that can be answered: of each chunk in order while every lower chunk has been reported (R160). -/
def sendBases (c : Nat) : Nat → State → State
  | 0, s => s
  | n + 1, s =>
    let x := rowCounter s c
    let k := x.based
    if chunkCount x ≤ k ∨ ((List.range k).all (fun i => x.final.contains i)) = false then s
    else match tfind x.owners k with
      | none => s
      | some h =>
        let sum := ((List.range k).map (fun i => tget 0 x.counts i)).sum
        let s := updCounter s c (fun x => { x with based := k + 1 })
        sendBases c n (fromSlice s c (coreDie h) (.base h c (x.outBase + sum)))
/-- REPORT at the slice (R160, R252). -/
def execReport (f : Frame) (c : CounterId) (attempt : BitVec 2) (chunk : BitVec 21) (count : BitVec 26) (final : Bool) (s : State) : Result :=
  .next (onSlice c f s (fun s =>
    let x := rowCounter s c
    if x.armed = false ∨ attempt.toNat ≠ x.attempt then dropClaim s
    else
      let s := updCounter s c (fun x => { x with counts := tmod 0 x.counts chunk.toNat (· + count.toNat),
                                                 final := if final && !x.final.contains chunk.toNat then chunk.toNat :: x.final else x.final })
      sendBases c (chunkCount x) s))
/-- BASE at the core: bases come in ascending chunk order (R252). -/
def execBase (f : Frame) (c : CoreId) (counter : CounterId) (value : BitVec 48) (s : State) : Result :=
  .next (onChain (coreDie c) f s (fun s => match (core s c).task with
    | some t => if t.counter = some counter.val then mergeEmit (updCore s c (fun x => { x with bases := x.bases ++ [value.toNat] })) c else s
    | none => s))

/-! Ends (R253, R256). -/

/-- REARM. -/
def execRearm (f : Frame) (c : CounterId) (attempt : BitVec 2) (s : State) : Result :=
  .next (onSlice c f s (fun s => updCounter s c (fun x =>
    if x.armed then { x with attempt := attempt.toNat, next := 0, owners := [], counts := [], final := [], based := 0 } else x)))
/-- DISARM. -/
def execDisarm (f : Frame) (c : CounterId) (s : State) : Result := .next (onSlice c f s (fun s => updCounter s c (fun _ => {})))

end Sys2Proof.Machine
end

