-- ==== Sys2Proof/Machine/CopyOps.lean ====
section
/-! DEFINITION. What the layout-copy engine moves (12 R302 to R318, R537; 04 R89, R92; 08 R197, R209 to R213, R219, R225). -/

namespace Sys2Proof.Machine

/-! Elements of a side. -/

/-- Index n of a core's share of a layout copy. -/
def shareIndex (t : CoreTask) (n : Nat) : Nat × Nat × Nat × Nat := boxIndex (copyRange t) n

/-! Scratchpad rows that a side of a copy names (12 R302; 08 R197, R209, R211 to R214, R225). -/

/-- The cause of R212 for a copy's write at an address of a scratchpad window, 0 where the ingress takes it: an accumulate write needs a
window in accumulate mode, and any other write meets one with whole FP32 elements (08 R538; log entry 52). -/
def copyCause (s : State) (c : CoreId) (t : CoreTask) (a : Nat) : Nat := match windowOver s (spmCore a) (spmMem a) (spmRow a) with
  | none => 1
  | some w =>
    let k := rowCause s (spmCore a) w (spmRow a - winBase s (spmCore a) w) (.core c)
    if k ≠ 0 then k
    else if winMode s (spmCore a) w = 2 then (if dFmt (kDst t.table) = 1 then 0 else 4)
    else if kMode t.table = 1 then 4 else 0
/-- What a byte of a side meets: its translation, an unmapped or unpowered part of a scratchpad, a landing window. A write to another core's debug
view is ignored (06 R164). -/
def byteFault (s : State) (c : Nat) (t : CoreTask) (dst : Bool) (v : Nat) : Option Nat := match copyPlace s c t dst with
  | .dpa b =>
    let m := spmMem (b + v)
    let row := spmRow (b + v)
    if dst then localFault s c m row else if bankPowered s c m (row / memBankRows m) then none else some stBankPoweredDown
  | .va n | .landed n _ => match translate s n v dst with
    | .err e => some e
    | .ok a =>
      if !isSpm a || (dst && isDebugView a) then none
      else if dst then (if copyCause s (coreFin c) t a = 0 then none else some stWindowViolation)
      else if !spmMapped ((a - 0x100000000000) % 0x100000000) then some stProtectionFault
      else if decide (spmMem a < 3) && !bankPowered s (spmCore a) (spmMem a) (spmRow a / memBankRows (spmMem a)) then some stBankPoweredDown
      else none
/-- A copy's access fails: the refusal of a landing window is recorded at its core (08 R212), and the task ends (12 R317; 08 R213). -/
def copyFault (s : State) (c : Nat) (t : CoreTask) (e v : Nat) : State :=
  let s := match copyPlace s c t true with
    | .dpa _ => s
    | .va n | .landed n _ => match translate s n v true with
      | .ok a => if e = stWindowViolation && isSpm a then recordNackAt s (spmCore a) (spmMem a) (spmRow a) (copyCause s (coreFin c) t a) (.core (coreFin c)) else s
      | .err _ => s
  faultCore s c e 31 0 v
/-- Device physical address of a byte of a side. -/
def sideDpa (s : State) (c : Nat) (t : CoreTask) (dst : Bool) (v : Nat) : Option Nat := match copyPlace s c t dst with
  | .dpa b => some (b + v)
  | .va n | .landed n _ => match translate s n v dst with
    | .ok a => some a
    | .err _ => none
/-- The scratchpad row that a byte of a side lies in, if any: core, memory, row. -/
def sideRow (s : State) (c : Nat) (t : CoreTask) (dst : Bool) (v : Nat) : Option (Nat × Nat × Nat) :=
  (sideDpa s c t dst v).bind (fun a => if isSpm a && decide (spmMem a < 3) then some (spmCore a, spmMem a, spmRow a) else none)
def sideRows (s : State) (c : Nat) (t : CoreTask) (dst : Bool) (l : List Nat) : List (Nat × Nat × Nat) := (l.filterMap (sideRow s c t dst)).eraseDups
/-- Parts of rows in a gathering buffer go to their banks before a copy reads or writes the rows (08 R206). -/
def settleRows (s : State) (l : List (Nat × Nat × Nat)) : State := each l s (fun s r => flushRow s r.1 r.2.1 r.2.2 false)
/-- A row that a step adds to: of a window in accumulate mode (08 R211), or of the core's own scratchpad under WRITE_MODE 1 (R310). -/
def rowAdds (s : State) (c : Nat) (t : CoreTask) (r : Nat × Nat × Nat) : Bool := match copyPlace s c t true with
  | .dpa _ => kMode t.table == 1
  | .va _ | .landed _ _ => match windowOver s r.1 r.2.1 r.2.2 with
    | some w => winMode s r.1 w == 2
    | none => false
/-- A destination is written through a window in accumulate mode, where its FP32 elements add. -/
def windowAdds (s : State) (c : Nat) (t : CoreTask) (v : Nat) : Bool := !kDstLocal t.table && match sideRow s c t true v with
  | some r => rowAdds s c t r
  | none => false
/-- The row fails its check (08 R217). -/
def rowBad (s : State) (r : Nat × Nat × Nat) : Bool := (core s r.1).badRows.contains (rowKey r.2.1 r.2.2)
/-- A row is written with a new detection word (08 R217), and a weight-memory home is lost (08 R219). -/
def renewRow (s : State) (c m row : Nat) : State :=
  loseHomes (updCore s c (fun x => { x with badRows := x.badRows.filter (· != rowKey m row) })) c m row
/-- The bytes of the gathering buffer lie in their rows, for a step that puts bytes beside them. -/
def overlay (s : State) (l : List (Nat × Nat × Nat)) : State := each l s (fun s r => match gbFind s r.1 r.2.1 r.2.2 with
  | some g => gbStore s r.1 g
  | none => s)
/-- Offsets in runs: the first of each, and how many. -/
def offRuns : List Nat → List (Nat × Nat)
  | [] => []
  | o :: l => match offRuns l with
    | (p, n) :: r => if p = o + 1 then (o, n + 1) :: r else (o, 1) :: (p, n) :: r
    | [] => [(o, 1)]
/-- What a step has put into a scratchpad row, at a window: it has added already through one in accumulate mode, where a row that fails its
check takes nothing (08 R211, R214, R217); a whole row lands as R211 says, and anything less passes the gathering buffer of an addressed window
(08 R205) and is refused by one in append mode (08 R538). A status. -/
def landWindow (u : State) (c w base : Nat) (cells : List (Nat × Byte)) (s : State) : State × Nat :=
  let x := spmCore base
  let m := spmMem base
  let row := spmRow base
  if winMode s x w = 2 then
    if rowBad s (x, m, row) then (detect s x m row, stSuccess)
    else (countWindow (renewRow (each cells s (fun s p => wrBytes s (base + p.1) [p.2])) x m row) x w false, stSuccess)
  else if 512 ≤ cells.length then
    let r := ingressRow s x w (row - winBase s x w) (.core (coreFin c)) (mreadN u.mem base 512)
    (r.1, if r.2 = 0 then stSuccess else stWindowViolation)
  else if winMode s x w = 1 then (recordNackAt s x m row 4 (.core (coreFin c)), stWindowViolation)
  else (gatherCells s x m row (some w) cells false, stSuccess)
/-- What a step has put into one 512 B row lands there (08 R197, R205; 12 R310; 13 R324): `u` holds the bytes, and `offs` are those put. A status. -/
def landSide (u : State) (c : Nat) (t : CoreTask) (base : Nat) (offs : List Nat) (s : State) : State × Nat :=
  let cells := offs.map (fun o => (o, mread u.mem (base + o)))
  match copyPlace s c t true with
  | .dpa _ =>
    (if 512 ≤ offs.length then putPiece s c base (mreadN u.mem base 512)
     else noteRow (gatherCells s c (spmMem base) (spmRow base) none cells false) c (spmMem base) (spmRow base), stSuccess)
  | .va _ | .landed _ _ =>
    if isSpm base && !isDebugView base then match windowOver s (spmCore base) (spmMem base) (spmRow base) with
      | some w => landWindow u c w base cells s
      | none => (recordNackAt s (spmCore base) (spmMem base) (spmRow base) 1 (.core (coreFin c)), stWindowViolation)
    else
      let r := untilFault (fun s (p : Nat × Nat) => putAt s (coreDie c) (base + p.1) (mreadN u.mem (base + p.1) p.2)) (offRuns offs) s
      (r.1, (r.2.map (·.1)).getD stSuccess)
/-- Bytes that a step has put into `u` land row by row: the first status, and its address. -/
def landSides (u : State) (c : Nat) (t : CoreTask) (l : List Nat) (s : State) : State × Option (Nat × Nat) :=
  let at_ := l.filterMap (fun v => (sideDpa s c t true v).map (fun a => (a, v)))
  let r := untilFault (fun s base => landSide u c t base ((List.range 512).filter (fun o => at_.any (fun p => p.1 == base + o))) s)
    (at_.map (fun p => lineOf p.1)).eraseDups s
  (r.1, r.2.map (fun x => (x.1, ((at_.find? (fun p => lineOf p.1 == x.2)).map (·.2)).getD 0)))

/-- The first status that an element's addresses meet on a side, and the address (R317). -/
def elemFault (s : State) (c : Nat) (t : CoreTask) (dst : Bool) (e : Elem) : Option (Nat × Nat) :=
  (elemBytes (if dst then kDst t.table else kSrc t.table) e).findSome? (fun a => (byteFault s c t dst a).map (fun x => (x, a)))
/-- An element's pattern, scale and FP32 value. -/
def readBits (s : State) (pl : Place) (d : List Nat) (e : Elem) : Nat :=
  if dKind d = 3 then placeLe s pl e.addr (fmtBytes (dFmt d)) else elemBits s pl d e.m e.i e.j
def readScale (s : State) (pl : Place) (d : List Nat) (e : Elem) : Nat := if hasScale (dFmt d) then (placeByte s pl (elemScale d e)).toNat else 0
def readElem (s : State) (pl : Place) (d : List Nat) (e : Elem) : F32 := toF32 (decodeScaled (dFmt d) (readBits s pl d e) (readScale s pl d e))
/-- A pattern is written. -/
def writeBits (s : State) (pl : Place) (d : List Nat) (e : Elem) (w : Nat) : State :=
  if dKind d = 3 then placeWrite s pl e.addr (leBytes (fmtBytes (dFmt d)) w)
  else if isPlane (dFmt d) then
    each (List.range (planes (dFmt d))) s (fun s p =>
      let a := elemAddr d e.m e.i e.j p
      let b := (placeByte s pl a.1).toNat
      placeWrite s pl a.1 [BitVec.ofNat 8 (b - (if b.testBit a.2 then 2 ^ a.2 else 0) + (if w.testBit p then 2 ^ a.2 else 0))])
  else placeWrite s pl (elemAddr d e.m e.i e.j 0).1 (leBytes (fmtBytes (dFmt d)) w)
/-- Row-major index in the logical shape (R305). -/
def elemIndex (d : List Nat) (e : Elem) : Nat := (e.m * dH d + e.i) * dW d + e.j

/-! Writes (R305, R310). -/

/-- Rows of 512 B at addresses. -/
def rowsAt (l : List Nat) : List Nat := (l.map (· / 512)).eraseDups
/-! The tiers' part (01 R22; 10 R259, R261; 13 R342). -/

/-- Rows in the order of their uses, each once for a run of consecutive uses (R308); the row of the use before, if any. -/
def rowsRead : Option Nat → List Nat → List Nat
  | _, [] => []
  | p, a :: l => if p = some (a / 512 * 512) then rowsRead p l else a / 512 * 512 :: rowsRead (some (a / 512 * 512)) l
/-- Rows that elements of a side use, in order: for each plane of their values, and for their scales. -/
def usesOf (d : List Nat) (l : List Elem) : List (List Nat) :=
  ((List.range (if dKind d = 3 then 1 else planes (dFmt d))).map (fun p => l.filterMap (fun e => (valueAddrs d e)[p]?)))
    ++ (if hasScale (dFmt d) then [l.map (elemScale d)] else [])
/-- The home slices serve a source's rows: the first status with its address. -/
def serveReads (s : State) (c : Nat) (t : CoreTask) (l : List Nat) : State × Option (Nat × Nat) := match copyPlace s c t false with
  | .dpa _ => (s, none)
  | .va n | .landed n _ => untilFault (fun s v => getLine s n v) l s
/-- The state as a copy's reads see it: the register mirror and the debug view of another core's accumulator in their places (08 R197; 13
R324). -/
def seen (s : State) (c : Nat) (t : CoreTask) (l : List Nat) : State := match copyPlace s c t false with
  | .dpa _ => s
  | .va n | .landed n _ => each (rowsAt l) s (fun u r => match translate s n (r * 512) false with
    | .ok a => if isSpm a then { u with mem := mwriteN u.mem (lineOf a) (spmBytes s (lineOf a)) }
        else if isMirror a then { u with mem := mwriteN u.mem (lineOf a) (mirrorBytes s (lineOf a) 512) } else u
    | .err _ => u)
/-- A row that a step needs and that fails its check (08 R217): one of the core's own, read or added to, takes the path of its memory, and a
source row of another core answers with an error or from its home. None where every row can be read. -/
def badRow (s : State) (c : Nat) (t : CoreTask) (from_ to_ : List Nat) : Option State :=
  ((sideRows s c t false from_).map (fun r => (r, kSrcLocal t.table)) ++ if kDstLocal t.table && kMode t.table == 1 then (sideRows s c t true to_).map (fun r => (r, true)) else []).findSome?
    (fun r =>
      if !rowBad s r.1 then none
      else if r.2 then some (detect s r.1.1 r.1.2.1 r.1.2.2)
      else
        let x := readSpm s (rowDpa r.1.1 r.1.2.1 r.1.2.2)
        if x.2.1 = stSuccess then none else some (faultCore x.1 c x.2.1 31 0 0))
/-- Rows of a copy with a due time are late where t_go + DUE_NS less the worst-case latency of their tier has passed (R321; 10 R272). -/
def lateRows (s : State) (c : Nat) (t : CoreTask) (write : Bool) (l : List Nat) : State :=
  if kDueNs t.table = 0 then s
  else bumpCore s c FET_LATE_ISSUE_COUNT (l.filter (fun v => match translate s t.strand v write with
    | .ok a => decide (t.tGo + kDueNs t.table < now s + tierLatency (if isNear a then 0 else if isFar a then 1 else 2))
    | .err _ => false)).length
/-- Rows of a side that pass the fetch engine, transfer by transfer: they take tags and give them back (10 R259), and short transfers hold the
port (R261, R316); a local side takes none. -/
def copyTags (s : State) (c : Nat) (t : CoreTask) (write : Bool) (l : List (List Nat)) : State := match copyPlace s c t write with
  | .dpa _ => s
  | .va n | .landed n _ => each l s (fun s l => lateRows (tagsWithin s c n write l) c t write l)
/-- The engine may start a step: its issue port is free and it has a tag. -/
def copyFree (s : State) (c : Nat) : Bool := !portHeld s c && !(freeTags s c).isEmpty

/-- Zeros go into the selvedge of the tiles that a step writes to, and into the scales of blocks that hold nothing else (04 R91). -/
def zeroSelvedge (s : State) (pl : Place) (d : List Nat) (l : List Elem) : State :=
  if dKind d ≠ 0 then s else
  let th := tileH (dFmt d)
  let tw := tileW (dFmt d)
  let tiles := (l.map (fun e => (e.m, e.i / th, e.j / tw))).eraseDups.filter (fun p => decide (dH d < (p.2.1 + 1) * th ∨ dW d < (p.2.2 + 1) * tw))
  each tiles s (fun s p => each (List.range th) s (fun s i => each (List.range tw) s (fun s j =>
    let e : Elem := { m := p.1, i := p.2.1 * th + i, j := p.2.2 * tw + j, addr := 0 }
    if e.i < dH d ∧ e.j < dW d then s
    else
      let s := writeBits s pl d e 0
      if hasScale (dFmt d) ∧ e.j % 32 = 0 ∧ (dH d ≤ e.i ∨ dW d ≤ e.j) then placeWrite s pl (elemScale d e) [0] else s)))
/-- The draw of an element (R305; 03 R82). -/
def copyDraw (s : State) (t : CoreTask) (e : Elem) : Nat :=
  if convRound (kConv t.table) then drawOf s t (convStream (kConv t.table)) (elemIndex (kDst t.table) e) / 65536 else 0
/-- Elements with FP32 values are converted, counted and written: one conversion for each block of 32 of the destination, with a new scale (03
R76). Elements `beside` them in their blocks are written by another step or core, and only bear on the scales. -/
def writeConverted (s : State) (c : Nat) (t : CoreTask) (beside l : List (Elem × F32)) : State :=
  let d := kDst t.table
  let pl := copyPlace s c t true
  let groups := if hasScale (dFmt d) then ((l.map (fun x => elemScale d x.1)).eraseDups).map (fun k =>
      (l.filter (fun x => elemScale d x.1 == k), beside.filter (fun x => elemScale d x.1 == k))) else [(l, [])]
  each groups s (fun s g =>
    let all := g.1 ++ g.2
    let r := convertBlock (kConv t.table) (all.map (fun x => copyDraw s t x.1)) (all.map (·.2))
    let own := g.1.zip r.2
    let s := countConv s c (own.map (·.2))
    let s := each own s (fun s x => writeBits s pl d x.1.1 x.2.bits)
    if hasScale (dFmt d) then each (g.1.take 1) s (fun s x => placeWrite s pl (elemScale d x.1) [BitVec.ofNat 8 r.1]) else s)
/-- FP32 values are converted before they add (R305): counted, and what they become. -/
def convertAdds (s : State) (c : Nat) (t : CoreTask) (l : List (Elem × F32)) : State × List (Elem × F32) :=
  let r := l.flatMap (fun x => ((convertBlock (kConv t.table) [copyDraw s t x.1] [x.2]).2.take 1).map (fun y => (x.1, y)))
  (countConv s c (r.map (·.2)), r.map (fun x => (x.1, BitVec.ofNat 32 x.2.bits)))
/-- FP32 values add into their elements (R310, WRITE_MODE 1); an overflow counts at the core whose scratchpad holds the element. A row that fails
its check takes nothing (08 R217). -/
def writeAdded (s : State) (c : Nat) (t : CoreTask) (l : List (Elem × F32)) : State :=
  let d := kDst t.table
  let pl := copyPlace s c t true
  each l s (fun s x =>
    let row := sideRow s c t true ((valueAddrs d x.1).headD 0)
    if (row.map (rowBad s)).getD false then s else
    let a := BitVec.ofNat 32 (readBits s pl d x.1)
    let r := addF32 a x.2
    let k := (row.map (·.1)).getD c
    bumpCore (writeBits s pl d x.1 r.toNat) k CORE_NUM_INF_COUNT (b2n (overflowed a x.2 r)))
/-- WRITE_MODE 2 (R310): whether a write to a destination survives; against an earlier write of the core that is not defined. -/
def survives (s : State) (c key : Nat) : State × Bool := match (core s c).task with
  | none => (s, true)
  | some t =>
    if t.wrote.contains key then
      let r := freshFree s
      (r.2, r.1 % 2 == 1)
    else (updTask s c (fun t => { t with wrote := key :: t.wrote }), true)
/-! A layout copy (R304 to R308). -/

/-- What tells the destinations of a layout copy apart: the address of a linear element, the index of any other. -/
def destKey (d : List Nat) (e : Elem) : Nat := if dKind d = 3 then e.addr else elemIndex d e
/-- The elements that survive WRITE_MODE 2. -/
def keepSurvivors (s : State) (c : Nat) (t : CoreTask) (l : List (Elem × F32 × Nat × Nat)) : State × List (Elem × F32 × Nat × Nat) :=
  if kMode t.table ≠ 2 then (s, l) else
  l.foldl (fun st x =>
    let r := survives st.1 c (destKey (kDst t.table) x.1)
    (r.1, if r.2 then st.2 ++ [x] else st.2)) (s, [])
/-- Rows of a destination that pass the fetch engine: a register write holds no tag (log entry 104). -/
def rowsWritten (s : State) (c : Nat) (t : CoreTask) (l : List Nat) : List Nat :=
  (rowsAt (l.filter (fun v => match sideDpa s c t true v with
    | some a => !isMirror a
    | none => false))).map (· * 512)
/-- A step of the engine on bytes that pass every check (R317; 01 R22): its sources are read, a bad row among them taking its own path, and `put`
writes the values into the state as the step's reads see it; what it has put lands. `reads` are the rows read, transfer by transfer. -/
def copyStep (s : State) (c : Nat) (t : CoreTask) (from_ to_ : List Nat) (reads : List (List Nat)) (put : State → State → State)
    (done : State → State) : State :=
  let s := settleRows s (sideRows s c t false from_ ++ (sideRows s c t true to_).filter (rowAdds s c t))
  match badRow s c t from_ to_ with
  | some s => s
  | none =>
    let r := serveReads s c t reads.flatten
    match r.2 with
    | some (e, a) => copyFault r.1 c t e a
    | none =>
      let b := copyTags r.1 c t false reads
      let v := overlay b (sideRows b c t true to_)
      let u := put (seen v c t from_) v
      let w := landSides u c t to_ { u with mem := b.mem }
      match w.2 with
      | some (e, a) => faultCore w.1 c e 31 0 a
      | none => done (copyTags w.1 c t true [rowsWritten w.1 c t to_])
/-- Elements of a step with their FP32 values, patterns and scales. -/
def readItem (u : State) (pl : Place) (w : List Nat) (a : Nat × Nat × Nat × Nat) : Elem × F32 × Nat × Nat :=
  let e := walkElem w false a
  (walkElem w true a, if copyExact w then 0#32 else readElem u pl (kSrc w) e, readBits u pl (kSrc w) e, readScale u pl (kSrc w) e)
/-- Values of a step are written (R305, R310): an exact copy moves patterns and scales, and adds patterns; any other converts. -/
def writeItems (s : State) (c : Nat) (t : CoreTask) (beside : List (Elem × F32)) (l : List (Elem × F32 × Nat × Nat)) : State :=
  let w := t.table
  let pl := copyPlace s c t true
  let adds (x : Elem × F32 × Nat × Nat) : Bool := kMode w == 1 || windowAdds s c t ((valueAddrs (kDst w) x.1).headD 0)
  let r := if copyExact w then (s, (l.filter adds).map (fun x => (x.1, BitVec.ofNat 32 x.2.2.1))) else convertAdds s c t ((l.filter adds).map (fun x => (x.1, x.2.1)))
  let s := writeAdded r.1 c t r.2
  let keep := l.filter (fun x => !adds x)
  if copyExact w then each keep s (fun s x =>
    let s := writeBits s pl (kDst w) x.1 x.2.2.1
    if hasScale (dFmt (kDst w)) then placeWrite s pl (elemScale (kDst w) x.1) [BitVec.ofNat 8 x.2.2.2] else s)
  else writeConverted s c t beside (keep.map (fun x => (x.1, x.2.1)))
/-- Indices of the whole copy whose destinations lie in the blocks of others, which a conversion of these blocks takes in too (R305; 04 R94). -/
def blockMates (w : List Nat) (l : List (Nat × Nat × Nat × Nat)) : List (Nat × Nat × Nat × Nat) :=
  if !hasScale (dFmt (kDst w)) || copyExact w then []
  else
    let blocks := (l.map (fun a => elemScale (kDst w) (walkElem w true a))).eraseDups
    (boxAll w).filter (fun a => blocks.contains (elemScale (kDst w) (walkElem w true a)))
/-- The next elements of a core's share. A destination block that they share with other steps or cores is converted whole by each, and counts in
LCE_RESCALE_BLOCKS once, with its first element. -/
def copyWalk (s : State) (c : Nat) (t : CoreTask) (count : Nat) : State :=
  let w := t.table
  let n := min count (copyTotal s c t - t.copyNext)
  if n = 0 then s else
  let ps := copyPlace s c t false
  let new := (List.range n).map (fun i => shareIndex t (t.copyNext + i))
  let mates := blockMates w new
  let beside := mates.filter (fun a => !new.contains a)
  let src (a : Nat × Nat × Nat × Nat) : Elem := walkElem w false a
  let dst (a : Nat × Nat × Nat × Nat) : Elem := walkElem w true a
  match (new ++ beside).findSome? (fun a => (elemFault s c t false (src a)).or (if new.contains a then elemFault s c t true (dst a) else none)) with
  | some (e, a) => copyFault s c t e a
  | none =>
    let uses := usesOf (kSrc w) ((new ++ beside).map src)
    let reads := uses.zipIdx.map (fun g => rowsRead t.lastRows[g.2]? g.1)
    copyStep s c t ((new ++ beside).flatMap (fun a => elemBytes (kSrc w) (src a)))
      (new.flatMap (fun a => elemBytes (kDst w) (dst a)) ++ selvedgeBytes (kDst w) (new.map dst)) reads
      (fun u s =>
        let r := keepSurvivors s c t (new.map (readItem u ps w))
        let others := (beside.map (readItem u ps w)).filter (fun x => !r.2.any (fun y => destKey (kDst w) y.1 == destKey (kDst w) x.1))
        writeItems (zeroSelvedge r.1 (copyPlace s c t true) (kDst w) (new.map dst)) c t (others.map (fun x => (x.1, x.2.1))) r.2)
      (fun s =>
        let blocks := (mates.map (fun a => elemScale (kDst w) (dst a))).eraseDups
        let first (b : Nat) : Bool := ((mates.find? (fun a => elemScale (kDst w) (dst a) == b)).map new.contains).getD false
        let s := bumpCore (bumpCore s c LCE_ELEM_COUNT n) c LCE_RESCALE_BLOCKS (blocks.filter first).length
        let s := if kMode w = 1 then bumpCore s c LCE_ACC_WRITE_COUNT (rowsAt (new.flatMap (fun a => valueAddrs (kDst w) (dst a)))).length else s
        let s := if cabled w then updCore s c (fun x => { x with xposeRows := x.xposeRows + reads.flatten.length }) else s
        updTask s c (fun t => { t with copyNext := t.copyNext + n, lastRows := uses.map (fun l => l.getLast?.getD 0 / 512 * 512) }))

/-- The next rows of a whole-operand copy (R306). -/
def copyWhole (s : State) (c : Nat) (t : CoreTask) (count : Nat) : State :=
  let ps := copyPlace s c t false
  let pd := copyPlace s c t true
  let l := ((wholeArrays s c t).flatMap (fun x => (List.range (ceilDiv x.2.2 512)).map (fun i => (x.1 + 512 * i, x.2.1 + 512 * i, min 512 (x.2.2 - 512 * i)))))
  let l := (l.drop t.copyNext).take count
  let bytes (a n : Nat) : List Nat := [a, a + n - 1]
  let all (a n : Nat) : List Nat := (List.range n).map (a + ·)
  let bad (dst : Bool) (a n : Nat) : Option (Nat × Nat) := (bytes a n).findSome? (fun v => (byteFault s c t dst v).map (fun e => (e, v)))
  match l.findSome? (fun x => (bad false x.1 x.2.2).or (bad true x.2.1 x.2.2)) with
  | some (e, a) => copyFault s c t e a
  | none =>
    copyStep s c t (l.flatMap (fun x => all x.1 x.2.2)) (l.flatMap (fun x => all x.2.1 x.2.2)) [rowsRead none (l.flatMap (fun x => all x.1 x.2.2))]
      (fun u s => each l s (fun s x => placeWrite s pd x.2.1 ((List.range x.2.2).map (fun i => placeByte u ps (x.1 + i)))))
      (fun s => updTask s c (fun t => { t with copyNext := t.copyNext + l.length }))
/-- A layout copy writes on. -/
def copyMore (s : State) (c count : Nat) : State := match (core s c).task with
  | none => s
  | some t =>
    if !t.copy || t.phase != 4 || kOp t.table != 0 || !copyFree s c then s
    else copyEnd (if wholeCopy t.table then copyWhole s c t count else copyWalk s c t count) c

/-- Rows that a copy has read pass the cable network (R307): counted, and with the last of them the copy may end. -/
def cablePass (s : State) (c n : Nat) : State :=
  let k := min n (core s c).xposeRows
  bumpCore (updCore s c (fun x => { x with xposeRows := x.xposeRows - k })) c LCE_XPOSE_ROWS k

/-! Gathers and scatters (R311 to R316). -/

/-- Index k of the index tensor, none where its address does not translate. -/
def indexAt (s : State) (t : CoreTask) (k : Nat) : Option Int :=
  let n := if kWide t.table then 8 else 4
  match translate s t.strand (kIndexBase t.table + n * k) false with
  | .ok a => some (signed (8 * n) (leNat (mreadN s.mem a n)))
  | .err _ => none
/-- The outcome of an index: a row, skipped, or a fault (Table: Index resolution); and whether it was clamped or wrapped. -/
inductive Resolved where
  | row (r : Nat) (clamped wrapped : Bool)
  | skip
  | fault
  deriving DecidableEq, Repr
def resolve (policy n : Nat) (z : Int) : Resolved :=
  if 0 ≤ z ∧ z < (n : Int) then .row z.toNat false false
  else if policy = 3 then .skip
  else if n = 0 then .fault
  else if policy = 1 then .row (if z < 0 then 0 else n - 1) true false
  else if policy = 2 ∧ -(n : Int) ≤ z ∧ z < 0 then .row (z + n).toNat false true
  else .fault
/-- A slice of row i from column j on. -/
def slice (t : CoreTask) (dst : Bool) (i j : Nat) : List Elem :=
  (List.range (kSliceW t.table)).map (fun x => sliceElem (if dst then kDst t.table else kSrc t.table) i (j + x))
/-- The first fault of a slice. -/
def sliceFault (s : State) (c : Nat) (t : CoreTask) (dst : Bool) (l : List Elem) : Option (Nat × Nat) :=
  l.findSome? (elemFault s c t dst)
def readSlice (s : State) (c : Nat) (t : CoreTask) (l : List Elem) : List F32 := l.map (readElem s (copyPlace s c t false) (kSrc t.table))

/-- Bytes of a slice. -/
def sliceBytes (t : CoreTask) (dst : Bool) (l : List Elem) : List Nat := l.flatMap (elemBytes (if dst then kDst t.table else kSrc t.table))
/-- Rows that the reads of a slice take, one transfer for its values and one for its scales (R316). -/
def sliceReads (t : CoreTask) (l : List Elem) : List (List Nat) := (usesOf (kSrc t.table) l).map (rowsRead none)
/-- Rows of a slice that pass the cable network. -/
def cableIn (s : State) (c : Nat) (t : CoreTask) (reads : List (List Nat)) : State :=
  if cabled t.table then updCore s c (fun x => { x with xposeRows := x.xposeRows + reads.flatten.length }) else s
/-- Values of a slice are written (R313): under WRITE_MODE 1 and through a window in accumulate mode they add (08 R211), and elsewhere they are
converted; blocks with new scales are counted. -/
def writeSlice (s : State) (c : Nat) (t : CoreTask) (l : List (Elem × F32)) : State :=
  let d := kDst t.table
  let s := zeroSelvedge s (copyPlace s c t true) d (l.map (·.1))
  let s := writeItems s c t [] (l.map (fun x => (x.1, x.2, 0, 0)))
  if hasScale (dFmt d) then bumpCore s c LCE_RESCALE_BLOCKS ((l.map (fun x => elemScale d x.1)).eraseDups).length else s
/-- Destination bytes of a slice, its tiles' selvedge among them. -/
def sliceTo (t : CoreTask) (l : List Elem) : List Nat := sliceBytes t true l ++ selvedgeBytes (kDst t.table) l

/-- Gather: the slice of a resolved row, or +0 for a skipped index (R313); a row that the open window has read is delivered again, with the
values that it had (R314). A side that holds nothing is not touched (04 R109; log entry 105). `fin` ends the step. -/
def gatherOne (s : State) (c : Nat) (t : CoreTask) (k : Nat) (r : Option Nat) (fin : State → State) : State :=
  let w := t.table
  if dEmpty (kDst w) || (r.isSome && dEmpty (kSrc w)) then fin s else
  let to_ := slice t true (kDstI w + k) (kDstJ w)
  let kept := r.bind (tfind (core s c).lceWindow)
  let from_ := match r, kept with
    | some r, none => slice t false r (kSrcJ w)
    | _, _ => []
  match (sliceFault s c t false from_).or (sliceFault s c t true to_) with
  | some (e, a) => copyFault s c t e a
  | none =>
    copyStep s c t (sliceBytes t false from_) (sliceTo t to_) (sliceReads t from_)
      (fun u s =>
        let vals := match r, kept with
          | some _, some l => l
          | some _, none => readSlice u c t from_
          | none, _ => List.replicate (kSliceW w) 0#32
        let s := match r with
          | some r => updCore s c (fun x => { x with lceWindow := tset x.lceWindow r vals })
          | none => s
        writeSlice s c t (to_.zip vals))
      (fun s =>
        let s := if kMode w = 1 then bumpCore s c LCE_ACC_WRITE_COUNT 1 else s
        let s := bumpCore (bumpCore s c LCE_IDX_REPEAT_COUNT (b2n kept.isSome)) c LCE_ELEM_COUNT (kSliceW w)
        fin (cableIn s c t (sliceReads t from_)))
/-- Scatter under WRITE_MODE 2: one slice of a row survives. -/
def scatterOne (s : State) (c : Nat) (t : CoreTask) (k r : Nat) (fin : State → State) : State :=
  let w := t.table
  if dEmpty (kDst w) || dEmpty (kSrc w) then fin s else
  let from_ := slice t false (kSrcI w + k) (kSrcJ w)
  let to_ := slice t true r (kDstJ w)
  match (sliceFault s c t false from_).or (sliceFault s c t true to_) with
  | some (e, a) => copyFault s c t e a
  | none =>
    copyStep s c t (sliceBytes t false from_) (sliceTo t to_) (sliceReads t from_)
      (fun u s =>
        let v := survives s c r
        if v.2 then writeSlice v.1 c t (to_.zip (readSlice u c t from_)) else v.1)
      (fun s => fin (cableIn (bumpCore s c LCE_ELEM_COUNT (kSliceW w)) c t (sliceReads t from_)))
/-- Slices of equal rows are summed in index order, each sum rounded once: the sums, and how many of them overflowed (03 R72). -/
def sumSlices (l : List (List F32)) : List F32 × Nat := (l.drop 1).foldl (fun a b =>
  let x := (a.1.zip b).map (fun p => (addF32 p.1 p.2, b2n (overflowed p.1 p.2 (addF32 p.1 p.2))))
  (x.map (·.1), a.2 + (x.map (·.2)).sum)) (l.headD [], 0)
/-- Scatter under WRITE_MODE 1: at the end of a window its slices are summed by row, in index order, and one accumulate write leaves for
each row (R315). `l` pairs index positions with rows. -/
def scatterWindow (s : State) (c : Nat) (t : CoreTask) (l : List (Nat × Nat)) (fin : State → State) : State :=
  let w := t.table
  let from_ (k : Nat) : List Elem := slice t false (kSrcI w + k) (kSrcJ w)
  let to_ (r : Nat) : List Elem := slice t true r (kDstJ w)
  if dEmpty (kDst w) || dEmpty (kSrc w) then fin s else
  match l.findSome? (fun p => (sliceFault s c t false (from_ p.1)).or (sliceFault s c t true (to_ p.2))) with
  | some (e, a) => copyFault s c t e a
  | none =>
    match badRow s c t (l.flatMap (fun p => sliceBytes t false (from_ p.1))) (l.flatMap (fun p => sliceBytes t true (to_ p.2))) with
    | some s => s
    | none => fin (each (l.map (·.2)).eraseDups s (fun s r =>
      if !stillRuns s c t.slot then s else
      let ks := (l.filter (fun p => p.2 == r)).map (·.1)
      let reads := ks.flatMap (fun k => sliceReads t (from_ k))
      copyStep s c t (ks.flatMap (fun k => sliceBytes t false (from_ k))) (sliceTo t (to_ r)) reads
        (fun u s =>
          let sum := sumSlices (ks.map (fun k => readSlice u c t (from_ k)))
          bumpCore (writeSlice s c t ((to_ r).zip sum.1)) c CORE_NUM_INF_COUNT sum.2)
        (fun s => cableIn (bumpCore (bumpCore (bumpCore s c LCE_ACC_WRITE_COUNT 1) c LCE_IDX_COMBINE_COUNT (ks.length - 1)) c LCE_ELEM_COUNT (kSliceW w))
          c t reads)))
/-- The rows that the indices of the open window name, skipped ones left out. -/
def windowRows (s : State) (t : CoreTask) (first n : Nat) : List (Nat × Nat) := (List.range n).filterMap (fun i =>
  match indexAt s t (first + i) with
  | some z => (match resolve (kPolicy t.table) (dH (kDst t.table)) z with
    | .row r _ _ => some (first + i, r)
    | _ => none)
  | none => none)

/-- Row of index k in the index tensor. -/
def indexRow (t : CoreTask) (k : Nat) : Nat := (kIndexBase t.table + (if kWide t.table then 8 else 4) * k) / 512
/-- Index rows that index k of the core's share is the first to need: a transfer of up to 64 of them (R316). -/
def indexRows (t : CoreTask) (k : Nat) : List Nat :=
  let first := (indexRange t).1
  let last := indexRow t (first + (indexRange t).2 - 1)
  if t.copyNext = 0 ∨ (indexRow t k ≠ indexRow t (k - 1) ∧ (indexRow t k - indexRow t first) % 64 = 0) then
    (List.range (min 64 (last + 1 - indexRow t k))).map (fun i => (indexRow t k + i) * 512)
  else []
/-- An index is done: counted with its clamp, wrap or skip, and the engine goes on to the next; the last of a window closes it. -/
def nextIndex (s : State) (c slot : Nat) (r : Resolved) (closes : Bool) : State :=
  if !stillRuns s c slot then s
  else
    let s := bumpCore s c LCE_IDX_COUNT 1
    let s := match r with
      | .row _ a b => bumpCore (bumpCore s c LCE_IDX_CLAMP_COUNT (b2n a)) c LCE_IDX_WRAP_COUNT (b2n b)
      | _ => bumpCore s c LCE_IDX_SKIP_COUNT 1
    let s := updCore s c (fun x => { x with lceWindow := if closes then [] else x.lceWindow, copyIdx := if closes then 0 else (x.copyIdx + 1) % 64 })
    copyEnd (updTask s c (fun t => { t with copyNext := t.copyNext + 1 })) c
/-- The engine resolves its next index and moves its slice. -/
def resolveNext (s : State) (c : Nat) : State := match (core s c).task with
  | none => s
  | some t =>
    if !t.copy || t.phase != 4 || kOp t.table = 0 || decide (copyTotal s c t ≤ t.copyNext) || !copyFree s c then s else
    let w := t.table
    let k := (indexRange t).1 + t.copyNext
    let s := if (indexRows t k).isEmpty then s else lateRows (getRows s c t (indexRows t k)) c t false (indexRows t k)
    if !stillRuns s c t.slot then s else
    let n := dH (if kOp w = 1 then kSrc w else kDst w)
    match indexAt s t k with
    | none => faultCore s c ((rangeFault s t.strand (kIndexBase w + (if kWide w then 8 else 4) * k) 1 false).getD stTranslationFault) 31 0 (kIndexBase w)
    | some z => match resolve (kPolicy w) n z with
      | .fault =>
        lceFault (faultCore (bumpCore s c LCE_IDX_COUNT 1) c stIndexOutOfRange 31 0 0) c
          stIndexOutOfRange 0 k
      | r =>
        let row := match r with
          | .row x _ _ => some x
          | _ => none
        let pos := t.copyNext % 64
        let closes := decide (pos = 63 ∨ copyTotal s c t = t.copyNext + 1)
        let fin (s : State) : State := nextIndex s c t.slot r closes
        if kOp w = 1 then gatherOne s c t k row fin
        else if kMode w = 2 then (match row with
          | some x => scatterOne s c t k x fin
          | none => fin s)
        else if closes then scatterWindow s c t (windowRows s t (k - pos) (pos + 1)) fin else fin s

end Sys2Proof.Machine
end

