-- ==== Sys2Proof/Machine/Stitch.lean ====
section
/-! DEFINITION. One stitch of a core (02 R32 to R37). -/

namespace Sys2Proof.Machine

/-! What the next stitch still awaits (02 R32, R43). -/

/-- A row of stream i that is due, that the next stitch waits for and that has not landed, a start-up row left out (10 R264, R266, R267): of a
stepped stream the next row of the slot, of a claimed one the first that its lanes miss. -/
def rowDue (s : State) (c i : Nat) : Bool := match (core s c).task with
  | none => false
  | some t =>
    let late (due : Nat) (latest : Int) : Bool := due != 0 && decide ((t.tGo : Int) ≤ latest) && decide (due ≤ now s)
    if t.schedule.isEmpty || streamTier t.schedule i == 2 || t.copy then false
    else if streamClaimed t.schedule i then match claimMissing s c t with
      | [] => false
      | a :: _ => (core s c).requests.any (fun r => r.stream == i && r.va == a && late r.due r.latest)
        || (core s c).tags.any (fun g => g.2.stream == i && g.2.va == a && !g.2.abandoned && late g.2.due ((g.2.due : Int) - lead t.schedule i))
    else
      let k := streamSlot t.schedule i
      match (streamRows t k)[tget 0 t.landed k]? with
      | some r =>
        let d := dueOf t i (t.steps - t.spanSteps + r.2)
        late d.1 d.2
      | none => false
def slotRange (s : State) (c : Nat) (t : CoreTask) (k : Nat) : Fin 3 × Nat × Nat := regionRange s c (sMem t.table k) (sRegion t.table k)
/-- Local row ranges that an item reads and writes (08 R208). An item's own accesses end within its stitch, so it leaves no entry behind (log
entry 99). -/
def itemRanges (s : State) (c : Nat) (x : StageItem) : List (Fin 3 × Nat × Nat) × List (Fin 3 × Nat × Nat) :=
  match x, (core s c).task with
  | .scoreboardIssue r w, _ => (r.take 4, w.take 2)
  | .readRow m row _, _ => ([(m, row, 1)], [])
  | .writeRow m row _, _ => ([], [(m, row, 1)])
  | .produce m r _, _ => ([], [(m, tailRow s c m r, 1)])
  | .unpackRow k _, some t => if t.copy || sSource t.table k != 1 then ([], []) else ([slotRange s c t k], [])
  | .scoreToken, some t => if t.copy then ([], []) else ((scoreSlots t).map (slotRange s c t), [])
  | .panelStep, some t => if t.copy then ([], []) else
    (((stepProd t t.spanSteps).1.a.toList ++ (stepProd t t.spanSteps).1.b).map (slotRange s c t), [regionRange s c 2 (hAccRegion t.table)])
  | .outputRow, some t => if t.copy then ([], []) else
    ([regionRange s c 2 (hAccRegion t.table)], if midReady t then [regionRange s c 1 (rFuseRegion t.table)]
      else if rCompact t.table && !hPair t.table then [regionRange s c 1 (compactRegion t.table)]
      else (outSlot t.table).toList.filterMap (fun k => if sSource t.table k = 1 then some (slotRange s c t k) else none))
  | .copyElements _, some t | .resolveIndex, some t => if !t.copy then ([], []) else
    (if kSrcLocal t.table then [regionRange s c (kSrcMem t.table) (kSrcRegion t.table)] else [],
     if kDstLocal t.table then [regionRange s c (kDstMem t.table) (kDstRegion t.table)] else [])
  | _, _ => ([], [])
/-- Local row ranges that the lanes of a task read and write: their operands, and the sums or spill rows (08 R208). -/
def laneRanges (s : State) (c : Nat) (t : CoreTask) : List (Fin 3 × Nat × Nat) × List (Fin 3 × Nat × Nat) :=
  if t.copy || !claimsMode t.table || t.phase != 4 || t.sent then ([], [])
  else ([claimSlot t, if laneMode t.table = 3 then (slotWith t.table 2).getD (claimSlot t) else denseSlot t].eraseDups.map (slotRange s c t),
    [if laneMode t.table = 3 then regionRange s c 1 (aSpillRegion t.table) else regionRange s c 2 (hAccRegion t.table)])
/-- A row of a circular region lies at or beyond TAIL. -/
def beyondTail (s : State) (c m r row : Nat) : Bool :=
  let l := orOne (regionLen s c m r)
  decide (regionBase s c m r ≤ row ∧ row < regionBase s c m r + l)
    && decide (regionHeld s c m r ≤ (row - regionBase s c m r + l - bits (regionPtr s c m r) 19 0 % l) % l)
/-- The queue that a slot reads, where its region is one (11 R291). -/
def slotQueue (s : State) (c : Nat) (t : CoreTask) (k : Nat) : Option Nat :=
  if sSource t.table k = 1 ∧ isOut t.table k = false then regionQueue s c (sMem t.table k) (sRegion t.table k) else none
/-- The queue that a panel step waits for: a row that it reads lies at or beyond TAIL (11 R291; 08 R199). -/
def queueWait (s : State) (c : Nat) (t : CoreTask) : Option Nat :=
  let p := stepProd t t.spanSteps
  (p.1.a.toList ++ p.1.b).findSome? (fun k => (slotQueue s c t k).bind (fun q =>
    if (slotRows s c t k (panelVas t k (panelAt t k (indices t p.1.levels p.2)))).any (fun r => beyondTail s c r.1 (sRegion t.table k) r.2) then some q else none))
/-- The same of a row that an item names. -/
def rowQueue (s : State) (c m row : Nat) : Option Nat := match (core s c).task with
  | none => none
  | some t => if t.copy then none else (slots t.table).findSome? (fun k => (slotQueue s c t k).bind (fun q =>
      if sMem t.table k == m && beyondTail s c m (sRegion t.table k) row then some q else none))
/-- A row of a region that rows stream through lies at or beyond TAIL: no producer has written it (08 R199). -/
def unwritten (s : State) (c m row : Nat) : Bool := match (core s c).task with
  | none => false
  | some t => !t.copy && (slots t.table).any (fun k =>
      sSource t.table k != 1 && !isOut t.table k && sMem t.table k == m && beyondTail s c m (sRegion t.table k) row)
/-- The output's staging region has no room for the rows of the next tile (08 R199; 09 R231). -/
def outFull (s : State) (c : Nat) (t : CoreTask) : Bool := match outSlot t.table with
  | none => false
  | some k => sSource t.table k == 0 && !(rCompact t.table && !hPair t.table) && (t.zeroLeft != 0 || (outReady t && !midReady t))
      && decide (regionLen s c (sMem t.table k) (sRegion t.table k) < regionHeld s c (sMem t.table k) (sRegion t.table k) + planes (dFmt (sLayout t.table k)))
/-- A weight row of the next panel step is being reloaded (08 R218). -/
def stepReloads (s : State) (c : Nat) (t : CoreTask) : Bool :=
  let p := stepProd t t.spanSteps
  !(core s c).reloads.isEmpty && (stepRows s c t p.1 (sharedOf t p.2) (indices t p.1.levels p.2)).any (fun r => r.1 == 0 && (core s c).reloads.contains r.2)
/-- What a panel step waits for: rows of a streamed operand, a row of a queue, a reload, a band or its scores, or free sums (07 R172). -/
def panelWait (s : State) (c : Nat) (t : CoreTask) : Option (Nat × Option Nat) :=
  if t.copy || claimsMode t.table || t.phase != 4 || decide (spanTotal t ≤ t.spanSteps) then none
  else ((((stepProd t t.spanSteps).1.a.toList ++ (stepProd t t.spanSteps).1.b).find? (fun k => !rowsLanded t [k] t.spanSteps)).map
      (fun k => (resRow, slotStream t.schedule k))).or
    (((queueWait s c t).map (fun q => (queueRes resQueueEmpty q, none))).or
      (if stepReloads s c t then some (resRow, none) else if stepReady t then none else some (resBand, none)))
/-- What the scoring of the running band waits for: rows of slot A, P or Q (07 R177). -/
def scoreWait (t : CoreTask) : Option (Nat × Option Nat) := match scoreRow t with
  | none => none
  | some x => if scoreBand t ≠ runBand t then none else ((scoreSlots t).find? (fun k => !rowsLanded t [k] x.1)).map (fun k => (resRow, slotStream t.schedule k))
/-- What an item still awaits: the resource, and a stream. -/
def itemPending (s : State) (c : Nat) (x : StageItem) : Option (Nat × Option Nat) :=
  let own : Option (Nat × Option Nat) := match x, (core s c).task with
    | .pendingHandshake r i, _ => some (r.toNat, i.map (·.val))
    | .panelStep, some t => panelWait s c t
    | .scoreToken, some t => scoreWait t
    | .copyElements _, some t | .resolveIndex, some t => if t.copy && t.phase == 4 && !copyFree s c then some (resTag, none) else none
    | .outputRow, some t => if !t.copy && outFull s c t then some (resRegionFull, none) else none
    | .produce m r _, _ => if regionFull s c m r then some (resRegionFull, none) else none
    | .readRow m row _, _ => if unwritten s c m row then some (resRegionEmpty, none)
      else if m.val == 0 && (core s c).reloads.contains row then some (resRow, none)
      else (rowQueue s c m row).map (fun q => (queueRes resQueueEmpty q, none))
    | _, _ => none
  own.or (if sbWaits s c (itemRanges s c x).1 (itemRanges s c x).2 then some (resScoreboard, none) else none)
/-- Rows that the items of a stitch append to a region. -/
def appends (m : Fin 3) (r : Fin 64) (l : List StageItem) : Nat := (l.filter (fun x => match x with
  | .produce m' r' _ => m' == m && r' == r
  | _ => false)).length
/-- A region has no room for the rows that the items of one stitch append to it. -/
def produceWait (s : State) (c : Nat) (l : List StageItem) : Option (Nat × Option Nat) := l.findSome? (fun x => match x with
  | .produce m r _ => if regionLen s c m r < regionHeld s c m r + appends m r l then some (resRegionFull, none) else none
  | _ => none)
/-- The first handshake of the next stitch that is pending: of its items, or of the lanes. -/
def pendingOf (s : State) (c : Nat) (items : List StageItem) : Option (Nat × Option Nat) :=
  let sb (t : CoreTask) : Option (Nat × Option Nat) :=
    if sbWaits s c (laneRanges s c t).1 (laneRanges s c t).2 then some (resScoreboard, none) else none
  (items.findSome? (itemPending s c)).or ((produceWait s c items).or ((core s c).task.bind (fun t => (laneWait s c t).or (sb t))))
/-- The core waits in a stall (02 R32): one on the same resource goes on, as an overrun once its row is due (02 R43); another one gives way to
it, and its episode goes on to the stitch that accepts its row. -/
def beginStall (s : State) (c : Nat) (p : Nat × Option Nat) : State :=
  let due := match p.2 with
    | some i => rowDue s c i
    | none => false
  let same (st : Stall) : Bool := st.resource == p.1 && st.stream == p.2
  updCore s c (fun x =>
    let open_ := x.stall.toList ++ x.episodes
    let st := (open_.find? same).getD { resource := p.1, stream := p.2, since := now s, scheduled := false }
    { x with stall := some { st with scheduled := st.scheduled || due }, episodes := open_.filter (fun st => st.stream.isSome && !same st) })

/-! The items of a stitch. -/

/-- A local read of a row (08 R206, R217, R225). -/
def readRow (s : State) (c m row : Nat) (fails : Bool) : State :=
  if !bankPowered s c m (row / memBankRows m) then faultCore s c stBankPoweredDown 31 0 0
  else
    let s := flushRow s c m row false
    if fails || (core s c).badRows.contains (rowKey m row) then detect s c m row else s
/-- The unpacker reads a row of a compressed operand (04 R96 to R98). -/
def unpackRow (s : State) (c k row : Nat) : State := match (core s c).task with
  | none => s
  | some t =>
    let d := sLayout t.table k
    if t.copy || t.phase != 4 || dKind d != 1 || decide (rows t k ≤ row) then s else
    let ready := useRows c (compressedRows s c t k row (row + 1)) s
    if !ready.2 then ready.1 else
    let s := ready.1
    let pl := slotPlace s c t k
    match indexFault s pl d (cols t k) row (rowPtr s pl d row) (rowPtr s pl d (row + 1)) with
    | some e => formatFault s c e.1 k (if e.1 = stRowPointerInvalid then row else e.2)
    | none => s
/-- An entry of the accumulator fails its check: the group is replayed (06 R143). -/
def accDetect (s : State) (c : Nat) : State := match (core s c).task with
  | some t => if !t.copy && laneMode t.table == 3 && t.phase == 4 && !(core s c).acc.isEmpty then
      if hasGroup t.table && decide (3 ≤ t.replays) then faultCore s c stReplayLimit 31 0 0 else sendChain s (coreDie c) hstDie (.detection t.slot t.span) else s
  | none => s
/-- What one item does. -/
def takeItem (s : State) (c : Nat) (x : StageItem) : State := match x with
  | .panelStep => panelStep s c
  | .outputRow => outputRow s c
  | .unpackRow k row => unpackRow s c k row
  | .readRow m row fails => readRow s c m row fails
  | .writeRow m row data => localWrite s c m row data
  | .produce m r data => if regionFull s c m r then s else appendRow s c m r data
  | .release m r n => releaseRegion s c m r n
  | .resolveIndex => resolveNext s c
  | .copyElements n => copyMore s c n
  | .cableRows n => cablePass s c n
  | .scoreToken => scoreToken s c
  | .accumulatorFault => accDetect s c
  | .scoreboardIssue r w => sbIssue s c (r.take 4) (w.take 2)
  | .scoreboardDone e => sbDone s c e
  | .bankConflict => bumpCore s c SPM_BANK_WAIT_COUNT 1
  | .fault status stream k va => faultCore s c status.toNat stream k va.toNat
  | .pendingHandshake _ _ => s

/-- The bank of a row. -/
def bankOf (w : Bool) (r : Nat × Nat) : Bool × Nat × Nat := (w, r.1, r.2 / memBankRows r.1)
/-- The bank ports that an item takes: whether it writes, memory and bank. The rows that copies and lanes take are not among them (log entry
100). -/
def itemBanks (s : State) (c : Nat) (x : StageItem) : List (Bool × Nat × Nat) := match x, (core s c).task with
  | .readRow m row _, _ => [bankOf false (m.val, row)]
  | .writeRow m row _, _ => [bankOf true (m.val, row)]
  | .produce m r _, _ => [bankOf true (m.val, tailRow s c m r)]
  | .panelStep, some t => if t.copy || claimsMode t.table || t.phase != 4 then [] else
    let p := stepProd t t.spanSteps
    let ix := indices t p.1.levels p.2
    ((stepRows s c t p.1 (sharedOf t p.2) ix).map (bankOf false)
      ++ (sumRows s c t p.1 (p.2 / orOne (total t (innerLevels t.table p.1))) (panelNumber t p.1 ix)).map (bankOf true)).eraseDups
  | _, _ => []
/-- The items of a stitch that proceed, and those that wait a stitch behind another access to one of their banks (08 R195). -/
def bankOrder (s : State) (c : Nat) : List (Bool × Nat × Nat) → List StageItem → List StageItem × List StageItem
  | _, [] => ([], [])
  | used, x :: l =>
    let b := itemBanks s c x
    if b.any (fun y => used.contains y) then ((bankOrder s c used l).1, x :: (bankOrder s c used l).2)
    else (x :: (bankOrder s c (b ++ used) l).1, (bankOrder s c (b ++ used) l).2)
/-- STITCH (R32, R37): the items that waited for a bank come first. With a handshake pending the core stalls, and the items come again with its
next stitch; without a credit it is held; otherwise it takes the stitch, and every stage that holds work advances. -/
def execStitch (c : CoreId) (items : List StageItem) (s : State) : Result :=
  .next (
    if !coreActive s c || (core s c).halted || issueWait s c || passWait (core s c) then s
    else
      let items := (core s c).heldItems ++ items
      match pendingOf s c items with
      | some p => beginStall s c p
      | none =>
        if (core s c).credits < 4 then s
        else
          let s := endStall s c
          let l := bankOrder s c [] items
          let s := bumpCore s c SPM_BANK_WAIT_COUNT l.2.length
          let s := updCore s c (fun x => { x with credits := x.credits - 4, winStitches := x.winStitches + 1, lastFormatFault := none, heldItems := l.2 })
          let s := laneStitch (bumpCore s c CORE_STITCH_COUNT 1) c
          copyEnd (spanEnd (settleFormat (each l.1 s (fun s x => takeItem s c x)) c) c) c)

end Sys2Proof.Machine
end

