-- ==== Sys2Proof/Machine/TaskControl.lean ====
section
/-! DEFINITION. Task control messages at the cores, and completion reports at the HST die (09 R238, R244 to R247; 10 R277 to R281; 06
R143, R144; 16 R413). -/

namespace Sys2Proof.Machine

/-! At a core. -/

/-- The fetch of a task's table by its core (R238; 01 R22, 10 R259): four rows, or one of a copy descriptor, read through their home slices
under tags of the core's own. -/
def fetchTable (s : State) (c : Nat) (x : Slot) : State × List Nat × Nat :=
  let r := getRange s x.strand x.arg0 (8 * x.table.length)
  if x.table.isEmpty then (s, [], 0)
  else if r.2 ≠ stSuccess then (r.1, [], r.2)
  else (tagsWithin r.1 c x.strand false ((linePieces x.arg0 (8 * x.table.length)).map (fun p => lineOf p.1)),
    (readWords r.1 x.strand x.arg0 x.table.length).getD [], stSuccess)
/-- DISPATCH (R238, R247; 10 R281): a free core takes the task and fetches its table. The wait of R238 counts from here, the message's arrival
(log entry 94). -/
def execDispatch (f : Frame) (c : CoreId) (slot : SlotId) (rank : Fin 64) (cores : Fin 65) (s : State) : Result :=
  .next (onChain (coreDie c) f s (fun s =>
    if !coreActive s c || (core s c).halted || (core s c).task.isSome || (core s c).draining.isSome then s
    else
      let x := slotOf s slot
      let r := fetchTable s c x
      let s := r.1
      let t : CoreTask :=
        { slot := slot, rank := rank, cores := cores, phase := 1, copy := x.opcode == 2, strand := x.strand, step := x.step, table := r.2.1, fetchStatus := r.2.2,
          shape := x.shape, schedule := x.schedule, tDispatch := now s, counter := x.counter, tokenBase := x.tokenBase, predicting := objNat s 0x404001 == 1 }
      updCore s c (fun y => { y with task := some t })))

/-- BAND as the core reads it at issue (07 R183), through the record's home slice: a status, and the value. -/
def readBand (s : State) (c : Nat) (t : CoreTask) : State × Nat × F32 :=
  if t.copy || !pEn t.table then (s, stSuccess, 0#32)
  else
    let r := getLine s t.strand (pStateBase t.table)
    if r.2 ≠ stSuccess then (r.1, r.2, 0#32)
    else (tagsWithin r.1 c t.strand false [lineOf (pStateBase t.table)], stSuccess, match translate r.1 t.strand (pStateBase t.table) false with
      | .ok a => BitVec.ofNat 32 (rd32 r.1 a)
      | .err _ => 0#32)
/-- The outcome of a core's checks: the refusal of its table, or of the fetch of it. -/
def checkOutcome (s : State) (c : Nat) (t : CoreTask) : Option Refuse :=
  if t.table = [] then
    some { check := 0, status := if t.fetchStatus ≠ 0 then t.fetchStatus
      else (rangeFault s t.strand (slotOf s t.slot).arg0 (if t.copy then 256 else 1600) false).getD stTranslationFault }
  else if t.copy then copyRefusal s c t else issueRefusal s c t

/-- ISSUE_CHECKS (R234, R238, R239; 12 R319): shapes are latched, the checks run in order, and the outcome is reported. -/
def execIssueChecks (c : CoreId) (s : State) : Result :=
  .next (match (core s c).task with
    | none => s
    | some t =>
      if t.phase ≠ 1 then s
      else
        let s := each t.shape.zipIdx s (fun s v => setReg s (coreOff c (0x580 + 8 * v.2)) v.1)
        let outcome := checkOutcome s c t
        let band := if outcome.isSome then (s, stSuccess, 0#32) else readBand s c t
        let s := band.1
        match outcome.or (if band.2.1 = stSuccess then none else some { check := 0, status := band.2.1 }) with
        | none =>
          let s := updTask s c (fun u => { readLocal s c u with phase := 2, band := band.2.2 })
          sendChain s (coreDie c) hstDie (.passed t.slot)
        | some r =>
          let s := bumpCore s c LOOP_REFUSE_COUNT 1
          let s := if t.copy then lceFault s c r.status r.check 0
            else setReg s (coreOff c LOOP_LAST_REFUSE) (r.check + r.slot * 2 ^ 5 + r.level * 2 ^ 8 + r.detail % 2 ^ 48 * 2 ^ 16)
          let s := updCore s c (fun x => { x with task := none })
          sendChain s (coreDie c) hstDie (.refused t.slot r.status r.check))

/-- GO (R244, R245). -/
def execGo (f : Frame) (c : CoreId) (slot : SlotId) (span : BitVec 32) (s : State) : Result :=
  .next (onChain (coreDie c) f s (fun s => takeGo s c slot span.toNat))

/-- WAIT (R246): the core answers when the marker's count satisfies the target; it need not run a task. -/
def execWait (f : Frame) (c : CoreId) (slot : SlotId) (k : MarkerId) (target : BitVec 32) (s : State) : Result :=
  .next (onChain (coreDie c) f s (fun s =>
    checkWait (updCore s c (fun x => { x with waits := x.waits ++ [(slot.val, k.val, target.toNat)] })) c))

/-- ABORT (10 R277, R280). -/
def execAbort (f : Frame) (c : CoreId) (slot : SlotId) (s : State) : Result :=
  .next (onChain (coreDie c) f s (fun s => if stillRuns s c slot then stopTask s c false else stopGone s c slot))
/-- CANCEL (10 R280). -/
def execCancel (f : Frame) (c : CoreId) (slot : SlotId) (s : State) : Result :=
  .next (onChain (coreDie c) f s (fun s => if stillRuns s c slot then stopTask s c true else stopGone s c slot))
/-- REPLAY (06 R143, 08 R220). -/
def execReplay (f : Frame) (c : CoreId) (slot : SlotId) (span : BitVec 32) (s : State) : Result :=
  .next (onChain (coreDie c) f s (fun s => match (core s c).task with
    | some t => if t.span = span.toNat then takeReplay s c slot else s
    | none => s))

/-! At the HST die. -/

/-- A report from a core's die about a slot that is busy. -/
def onReport (f : Frame) (slot : SlotId) (s : State) (k : State → Nat → State) : State :=
  onChain hstDie f s (fun s => match dieCore f.src with
    | some c => if (slotOf s slot).busy && bit (slotOf s slot).mask c then k s c else s
    | none => s)

/-- COMPLETION_REPORT_PASSED (R238). -/
def execCompletionReportPassed (f : Frame) (slot : SlotId) (s : State) : Result :=
  .next (onReport f slot s (fun s c =>
    proceed (settleRefusal (updSlot s slot (fun x => { x with passed := x.passed ||| 2 ^ c, answered := x.answered ||| 2 ^ c })) slot) slot))
/-- COMPLETION_REPORT_REFUSED (R238). -/
def execCompletionReportRefused (f : Frame) (slot : SlotId) (status : BitVec 16) (check : Fin 32) (s : State) : Result :=
  .next (onReport f slot s (fun s c =>
    let x := slotOf s slot
    let s := if x.refusal.isNone then bump s (hstOff HST_REFUSE_COUNT) 1 else s
    let x := if firstRefusal x.refusal check then { x with refusal := some (status.toNat, check.val), refusalDie := coreDie c } else x
    settleRefusal (setSlot s slot { x with answered := x.answered ||| 2 ^ c }) slot))
/-- COMPLETION_REPORT_MARKER_REACHED (R246). -/
def execCompletionReportMarkerReached (f : Frame) (slot : SlotId) (s : State) : Result :=
  .next (onChain hstDie f s (fun s => if (slotOf s slot).busy && (slotOf s slot).waiting then proceed (updSlot s slot (fun x => { x with waited := true })) slot else s))
/-- COMPLETION_REPORT_SPAN_DONE (R244): the span commits when every core is done and every write is acknowledged. -/
def execCompletionReportSpanDone (f : Frame) (slot : SlotId) (span : BitVec 29) (s : State) : Result :=
  .next (onReport f slot s (fun s c =>
    if (slotOf s slot).span % 2 ^ 29 = span.toNat then commitTry (updSlot s slot (fun x => { x with spanDone := x.spanDone ||| 2 ^ c })) slot else s))
/-- COMPLETION_REPORT_DONE (01 R29). -/
def execCompletionReportDone (f : Frame) (slot : SlotId) (s : State) : Result :=
  .next (onReport f slot s (fun s c => updSlot s slot (fun x => { x with done := x.done ||| 2 ^ c })))
/-- COMPLETION_REPORT_FAULT (10 R277, R279). -/
def execCompletionReportFault (f : Frame) (slot : SlotId) (status : BitVec 16) (s : State) : Result :=
  .next (onReport f slot s (fun s c => endTask s slot status.toNat (coreDie c) (some c) false))
/-- COMPLETION_REPORT_DRAINED (10 R281): the rows that an aborted task could write on the core hold free values from now on (R278). -/
def execCompletionReportDrained (f : Frame) (slot : SlotId) (s : State) : Result :=
  .next (onReport f slot s (fun s c => updSlot (openRows s slot c) slot (fun x => { x with drained := x.drained ||| 2 ^ c })))
/-- COMPLETION_REPORT_DETECTION (06 R143, R144). -/
def execCompletionReportDetection (f : Frame) (slot : SlotId) (span : BitVec 29) (s : State) : Result :=
  .next (onReport f slot s (fun s _ => if (slotOf s slot).span % 2 ^ 29 = span.toNat then takeDetection s slot (slotOf s slot).span else s))

/-- GROUP_COMMIT (06 R141): a group whose cores have finished and whose writes are acknowledged commits. -/
def execGroupCommit (slot : SlotId) (s : State) : Result :=
  .next (if spanReady s slot && (slotOf s slot).opcode == 1 && hasGroup (slotOf s slot).table then settleAll (commitSpan s slot) else s)

end Sys2Proof.Machine
end

