-- ==== Sys2Proof/Machine/Tiers.lean ====
section
/-! DEFINITION. The tiers' own events: translation walks, retraining, the near-tier scrub, the far tier's ports, and bias changes (13 R331
to R345). -/

namespace Sys2Proof.Machine

/-- TRANSLATION_WALK (13 R338 to R340), with the time that it takes: a miss walks the tables; a failed walk of the running task's strand is a mid-stream fault. -/
def execTranslationWalk (c : CoreId) (n : StrandId) (va : BitVec 48) (walk : Walk) (s : State) : Result :=
  .next (if xltHit s c n va.toNat then s
    else
      let s := bumpCore (bumpCore s c CORE_XLT_MISS_COUNT 1) c CORE_XLT_WALK_NS walk.ns
      match translate s n va.toNat walk.write with
      | .ok _ => xltAdd s c n va.toNat (pageSize s n va.toNat)
      | .err e =>
        let s := bumpCore s c CORE_XLT_FAULT_COUNT 1
        match (core s c).task with
        | some t =>
          let r := (core s c).requests.find? (fun r => r.va / 512 == va.toNat / 512)
          if t.strand = n.val then faultCore s c e ((r.map (·.stream)).getD 31) ((r.map (·.slot)).getD 0) va.toNat else s
        | none => s)

/-! Retraining (R331). -/

/-- The next retraining begins, or the channel waits while another is trained. -/
def retrain (s : State) (k ch : Nat) : State :=
  let x := stack s k
  if x.retraining.isSome then updStack s k (fun x => { x with queued := if x.queued.contains ch || x.retraining == some ch then x.queued else x.queued ++ [ch] })
  else bump (updStack s k (fun x => { x with retraining := some ch, retrainSince := now s, queued := x.queued.filter (· != ch) })) (mifOff k MIF_RETRAIN_COUNT) 1
/-- RETRAIN_INTERVAL: the interval of 0x3010:04 has passed for the channel and activity 3 is enabled. -/
def execRetrainInterval (k : StackId) (ch : Channel) (s : State) : Result :=
  .next (if objNat s 0x600308 = 1 ∧ tget 0 (stack s k).lastTrained ch + objNat s 0x301004 * 10 ^ 9 ≤ now s then retrain s k ch else s)
/-- RETRAIN_TEMPERATURE: the die temperature moved 10 °C since the channel was trained. -/
def execRetrainTemperature (k : StackId) (ch : Channel) (temp : Nat) (s : State) : Result :=
  let s := { s with power := { s.power with temps := tset s.power.temps (mifDie k) temp } }
  let t := tget 0 (stack s k).trainedTemp ch
  .next (if t + 10 ≤ temp ∨ temp + 10 ≤ t then retrain s k ch else s)
/-- RETRAIN_CRC_COUNT: 16 CRC retries of the channel within the last 1 ms. -/
def execRetrainCrcCount (k : StackId) (ch : Channel) (s : State) : Result :=
  .next (if 16 ≤ ((tget [] (stack s k).crcTimes ch).filter (fun t => decide (now s ≤ t + 1000000))).length then
      retrain (updStack s k (fun x => { x with crcTimes := tdel x.crcTimes ch })) k ch
    else s)
/-- RETRAIN_DONE: the channel is back in service, and the next one that waits is taken. -/
def execRetrainDone (k : StackId) (s : State) : Result :=
  .next (match (stack s k).retraining with
    | none => s
    | some ch =>
      let s := updStack s k (fun x => { x with retraining := none, lastTrained := tset x.lastTrained ch (now s),
                                               trainedTemp := tset x.trainedTemp ch (tget 0 s.power.temps (mifDie k)) })
      match (stack s k).queued with
      | [] => s
      | q :: _ => retrain s k q)

/-- NEAR_TIER_SCRUB (13 R332; 19 R485): a corrected line is written back; one that reads uncorrectable is poisoned. -/
def execNearTierScrub (dpa : BitVec 52) (o : ReadOutcome) (s : State) : Result :=
  let a := dpa.toNat
  .next (if objNat s 0x600108 ≠ 1 ∨ ¬ isNear a ∨ (stack s (stackOf a)).poison.contains (lineOf a) then s
    else
      let r := readMif s a o
      if r.2 = stSuccess ∨ stackFailed s (stackOf a) = true then r.1 else listPoison r.1 (lineOf a))

/-! The far tier (R334 to R336). -/

/-- The FAR die of a port. -/
def farDie (p : Nat) : Nat := 96 + p / 2
/-- The FAR die answers a request with an error. -/
def farError (s : State) (p c tag : Nat) : State := sendBulk s (farDie p) (coreDie c) .readData tag stTierUncorrectable 0 []
/-- A tag's row lies behind a port. -/
def behind (p : Nat) (g : Tag) : Bool := isFar g.dpa && farPortOf g.dpa == p
/-- FAR_COMPLETION_TIMEOUT (R336): an expander that stays silent is answered for with an error. -/
def execFarCompletionTimeout (p : FarPort) (c : CoreId) (tag : TagId) (s : State) : Result :=
  .next (match tfind (core s c).tags tag with
    | some g => if behind p g && decide (g.since + objNat s 0x302001 * 1000 ≤ now s) then farError (bump s (farOff p FAR_TIMEOUT_COUNT) 1) p c tag else s
    | none => s)
/-- FAR_LINK_DOWN (R336): every request outstanding on the port completes as an error. -/
def execFarLinkDown (p : FarPort) (s : State) : Result :=
  let s := updFar s p (fun x => { x with link := 0, memActive := false })
  .next (each (List.range 64) s (fun s c =>
    each ((core s c).tags.filter (fun g => behind p g.2)) s (fun s g => farError s p c g.1)))
/-- FAR_LINK_RETRY (R334): a corrected event of the row's stream. -/
def execFarLinkRetry (p : FarPort) (c : CoreId) (tag : TagId) (s : State) : Result :=
  let s := bump s (farOff p FAR_LINK_RETRY_COUNT) 1
  .next (match tfind (core s c).tags tag with
    | some g => if behind p g then noteCause (corrected s c g.stream 1) c tag 2 else s
    | none => s)
/-- EXPANDER_EVENT_RECORD (R334). -/
def execExpanderEventRecord (p : FarPort) (record : Word) (s : State) : Result :=
  .next (raise (bump s (farOff p FAR_EVENT_COUNT) 1) (farDie p) 0x502 1 0 0 [p, record.toNat])

/-- BIAS_CHANGE (R345): the named pages of the near tier take the new bias in every slice. -/
def execBiasChange (first pages : Nat) (host : Bool) (s : State) : Result :=
  let inRange (p : Nat) : Bool := decide (first ≤ p ∧ p < first + pages)
  let l := s.cache.hostBias.filter (fun p => !inRange p)
  let new := if host then ((List.range (min (first + pages) 294912 - first)).map (first + ·)) else []
  .next { s with cache := { s.cache with hostBias := l ++ new } }

/-! The host's accesses (R343, R344; 16 R395). -/

/-- A host access to a page in device bias is counted (0x3040:02). -/
def countHost (s : State) (a : Nat) : State :=
  if hostBias s a then s else { s with hst := { s.hst with hostBiasAccess := s.hst.hostBiasAccess + 1 } }
/-- CXL_MEM_REQUEST (R344): the home slice serves it; a write of less than a line reads the line first (R342). Outside host-managed device
memory, or before it is active, there is no such request. -/
def execCxlMemRequest (dpa : BitVec 52) (data : Option (List Byte)) (o : ReadOutcome) (s : State) : Result :=
  let a := dpa.toNat
  .next (
    if !s.hst.memActive || !isNear a then s
    else
      let s := countHost s a
      match data with
      | none =>
        let r := readLine s a o
        emit r.1 (.cxlMem r.2 (if r.2 = 0 then mreadN r.1.mem (a / 64 * 64) 64 else []))
      | some d =>
        let whole := d.length == 512 && a % 512 == 0
        let r := if whole || s.cache.resident.contains (lineOf a) then (s, stSuccess) else readMiss s a o
        if r.2 ≠ 0 then emit r.1 (.cxlMem r.2 [])
        else
          let w := writeLine r.1 a (d.take (512 - a % 512)) (.ok 0)
          emit w.1 (.cxlMem w.2 []))
/-- HOST_SNOOP (16 R395): no host line is kept cached. -/
def execHostSnoop (_addr : BitVec 52) (s : State) : Result := .next (emit s (.snoop "RspIHitI"))

end Sys2Proof.Machine
end

