-- ==== Sys2Proof/Machine/Dispatch.lean ====
section
/-! DEFINITION. One arm for each command: a direct call of its meaning. -/

namespace Sys2Proof.Machine

/-- The effect of a command on everything but the queue. -/
def exec (i : Instr) (s : State) : Host.Outcome State Fault Refusal :=
  match i with
  | .coreInternalFault x0 => Sys2Proof.Machine.execCoreInternalFault x0 s
  | .fenceCoreRequest x0 => Sys2Proof.Machine.execFenceCoreRequest x0 s
  | .routerFault x0 => Sys2Proof.Machine.execRouterFault x0 s
  | .ringDieFailure x0 => Sys2Proof.Machine.execRingDieFailure x0 s
  | .ucieModuleFailure x0 x1 => Sys2Proof.Machine.execUcieModuleFailure x0 x1 s
  | .adapterRetryExhausted x0 x1 => Sys2Proof.Machine.execAdapterRetryExhausted x0 x1 s
  | .stitch x0 x1 => Sys2Proof.Machine.execStitch x0 x1 s
  | .longStallEvent x0 => Sys2Proof.Machine.execLongStallEvent x0 s
  | .governorWindowEnd x0 => Sys2Proof.Machine.execGovernorWindowEnd x0 s
  | .floorCheck x0 => Sys2Proof.Machine.execFloorCheck x0 s
  | .reftimeLoad x0 => Sys2Proof.Machine.execReftimeLoad x0 s
  | .reftimeSlew x0 => Sys2Proof.Machine.execReftimeSlew x0 s
  | .refclkLost => Sys2Proof.Machine.execRefclkLost s
  | .refclkReturn x0 => Sys2Proof.Machine.execRefclkReturn x0 s
  | .reftimeDistribution x0 x1 x2 => Sys2Proof.Machine.execReftimeDistribution x0 x1 x2 s
  | .compute x0 => Sys2Proof.Machine.execCompute x0 s
  | .copy x0 => Sys2Proof.Machine.execCopy x0 s
  | .maskLoad x0 => Sys2Proof.Machine.execMaskLoad x0 s
  | .maskFree x0 => Sys2Proof.Machine.execMaskFree x0 s
  | .barrier x0 => Sys2Proof.Machine.execBarrier x0 s
  | .barrierArrival x0 x1 x2 x3 => Sys2Proof.Machine.execBarrierArrival x0 x1 x2 x3 s
  | .invalidate x0 => Sys2Proof.Machine.execInvalidate x0 s
  | .invalidateComplete x0 => Sys2Proof.Machine.execInvalidateComplete x0 s
  | .nop x0 => Sys2Proof.Machine.execNop x0 s
  | .sqTailDoorbell x0 x1 => Sys2Proof.Machine.execSqTailDoorbell x0 x1 s
  | .cqHeadDoorbell x0 x1 => Sys2Proof.Machine.execCqHeadDoorbell x0 x1 s
  | .doorbell x0 x1 x2 x3 => Sys2Proof.Machine.execDoorbell x0 x1 x2 x3 s
  | .descriptorFetch x0 x1 => Sys2Proof.Machine.execDescriptorFetch x0 x1 s
  | .dispatch x0 x1 x2 x3 x4 => Sys2Proof.Machine.execDispatch x0 x1 x2 x3 x4 s
  | .issueChecks x0 => Sys2Proof.Machine.execIssueChecks x0 s
  | .completionReportPassed x0 x1 => Sys2Proof.Machine.execCompletionReportPassed x0 x1 s
  | .completionReportRefused x0 x1 x2 x3 => Sys2Proof.Machine.execCompletionReportRefused x0 x1 x2 x3 s
  | .go x0 x1 x2 x3 => Sys2Proof.Machine.execGo x0 x1 x2 x3 s
  | .wait x0 x1 x2 x3 x4 => Sys2Proof.Machine.execWait x0 x1 x2 x3 x4 s
  | .completionReportMarkerReached x0 x1 => Sys2Proof.Machine.execCompletionReportMarkerReached x0 x1 s
  | .completionReportSpanDone x0 x1 x2 => Sys2Proof.Machine.execCompletionReportSpanDone x0 x1 x2 s
  | .completionReportDone x0 x1 => Sys2Proof.Machine.execCompletionReportDone x0 x1 s
  | .completionWrite x0 => Sys2Proof.Machine.execCompletionWrite x0 s
  | .msixAggregationTimeout x0 => Sys2Proof.Machine.execMsixAggregationTimeout x0 s
  | .completionReportFault x0 x1 x2 => Sys2Proof.Machine.execCompletionReportFault x0 x1 x2 s
  | .abort x0 x1 x2 => Sys2Proof.Machine.execAbort x0 x1 x2 s
  | .cancel x0 x1 x2 => Sys2Proof.Machine.execCancel x0 x1 x2 s
  | .completionReportDrained x0 x1 => Sys2Proof.Machine.execCompletionReportDrained x0 x1 s
  | .completionReportDetection x0 x1 x2 => Sys2Proof.Machine.execCompletionReportDetection x0 x1 x2 s
  | .replay x0 x1 x2 x3 => Sys2Proof.Machine.execReplay x0 x1 x2 x3 s
  | .hstCancel x0 => Sys2Proof.Machine.execHstCancel x0 s
  | .arm0 x0 x1 x2 x3 => Sys2Proof.Machine.execArm0 x0 x1 x2 x3 s
  | .arm1 x0 x1 x2 => Sys2Proof.Machine.execArm1 x0 x1 x2 s
  | .arm2 x0 x1 x2 => Sys2Proof.Machine.execArm2 x0 x1 x2 s
  | .armed x0 x1 => Sys2Proof.Machine.execArmed x0 x1 s
  | .claim x0 x1 x2 => Sys2Proof.Machine.execClaim x0 x1 x2 s
  | .answer x0 x1 x2 x3 x4 x5 x6 x7 => Sys2Proof.Machine.execAnswer x0 x1 x2 x3 x4 x5 x6 x7 s
  | .localClaim x0 => Sys2Proof.Machine.execLocalClaim x0 s
  | .owner x0 x1 x2 => Sys2Proof.Machine.execOwner x0 x1 x2 s
  | .ownerAns x0 x1 x2 x3 x4 => Sys2Proof.Machine.execOwnerAns x0 x1 x2 x3 x4 s
  | .report x0 x1 x2 x3 x4 x5 => Sys2Proof.Machine.execReport x0 x1 x2 x3 x4 x5 s
  | .base x0 x1 x2 x3 => Sys2Proof.Machine.execBase x0 x1 x2 x3 s
  | .rearm x0 x1 x2 => Sys2Proof.Machine.execRearm x0 x1 x2 s
  | .disarm x0 x1 => Sys2Proof.Machine.execDisarm x0 x1 s
  | .sendPass x0 => Sys2Proof.Machine.execSendPass x0 s
  | .foreignAnnouncement x0 x1 x2 x3 => Sys2Proof.Machine.execForeignAnnouncement x0 x1 x2 x3 s
  | .mergePassStart x0 => Sys2Proof.Machine.execMergePassStart x0 s
  | .groupCommit x0 => Sys2Proof.Machine.execGroupCommit x0 s
  | .auditReport x0 x1 x2 x3 x4 x5 x6 x7 x8 x9 => Sys2Proof.Machine.execAuditReport x0 x1 x2 x3 x4 x5 x6 x7 x8 x9 s
  | .fusedBandReady x0 => Sys2Proof.Machine.execFusedBandReady x0 s
  | .spmOpStart x0 x1 => Sys2Proof.Machine.execSpmOpStart x0 x1 s
  | .spmOpDone x0 => Sys2Proof.Machine.execSpmOpDone x0 s
  | .regionEntryWrite x0 x1 x2 x3 x4 => Sys2Proof.Machine.execRegionEntryWrite x0 x1 x2 x3 x4 s
  | .windowEntryWrite x0 x1 x2 x3 => Sys2Proof.Machine.execWindowEntryWrite x0 x1 x2 x3 s
  | .winOpen x0 x1 x2 => Sys2Proof.Machine.execWinOpen x0 x1 x2 s
  | .winClose x0 x1 => Sys2Proof.Machine.execWinClose x0 x1 s
  | .windowClosed x0 x1 => Sys2Proof.Machine.execWindowClosed x0 x1 s
  | .stitchMarkerWrite x0 x1 x2 => Sys2Proof.Machine.execStitchMarkerWrite x0 x1 x2 s
  | .narrowWrite x0 x1 x2 x3 x4 x5 x6 => Sys2Proof.Machine.execNarrowWrite x0 x1 x2 x3 x4 x5 x6 s
  | .gbIdleFlush x0 x1 x2 x3 => Sys2Proof.Machine.execGbIdleFlush x0 x1 x2 x3 s
  | .spmGbFlush x0 x1 => Sys2Proof.Machine.execSpmGbFlush x0 x1 s
  | .reloadDone x0 x1 x2 x3 => Sys2Proof.Machine.execReloadDone x0 x1 x2 x3 s
  | .residentWeightScrub x0 x1 x2 => Sys2Proof.Machine.execResidentWeightScrub x0 x1 x2 s
  | .bankPowerDown x0 x1 x2 => Sys2Proof.Machine.execBankPowerDown x0 x1 x2 s
  | .bankDrained x0 => Sys2Proof.Machine.execBankDrained x0 s
  | .bankDrainTimeout x0 => Sys2Proof.Machine.execBankDrainTimeout x0 s
  | .bankPowerUp x0 x1 x2 => Sys2Proof.Machine.execBankPowerUp x0 x1 x2 s
  | .bankPowerUpDone x0 => Sys2Proof.Machine.execBankPowerUpDone x0 s
  | .tagIssue x0 => Sys2Proof.Machine.execTagIssue x0 s
  | .smallTransferHoldEnd x0 => Sys2Proof.Machine.execSmallTransferHoldEnd x0 s
  | .class3Promotion x0 => Sys2Proof.Machine.execClass3Promotion x0 s
  | .readRequest x0 x1 x2 x3 x4 x5 => Sys2Proof.Machine.execReadRequest x0 x1 x2 x3 x4 x5 s
  | .readData x0 x1 x2 x3 x4 x5 x6 => Sys2Proof.Machine.execReadData x0 x1 x2 x3 x4 x5 x6 s
  | .bulkWrite x0 x1 x2 x3 x4 x5 => Sys2Proof.Machine.execBulkWrite x0 x1 x2 x3 x4 x5 s
  | .accumulateWrite x0 x1 x2 x3 x4 x5 => Sys2Proof.Machine.execAccumulateWrite x0 x1 x2 x3 x4 x5 s
  | .writeAcknowledge x0 x1 x2 => Sys2Proof.Machine.execWriteAcknowledge x0 x1 x2 s
  | .negativeAcknowledge x0 x1 x2 x3 x4 => Sys2Proof.Machine.execNegativeAcknowledge x0 x1 x2 x3 x4 s
  | .registerWrite x0 x1 x2 => Sys2Proof.Machine.execRegisterWrite x0 x1 x2 s
  | .registerRead x0 x1 => Sys2Proof.Machine.execRegisterRead x0 x1 s
  | .registerData x0 x1 x2 => Sys2Proof.Machine.execRegisterData x0 x1 x2 s
  | .bulkPacketHop x0 x1 x2 x3 x4 x5 => Sys2Proof.Machine.execBulkPacketHop x0 x1 x2 x3 x4 x5 s
  | .endToEndAcknowledge x0 x1 x2 x3 => Sys2Proof.Machine.execEndToEndAcknowledge x0 x1 x2 x3 s
  | .bulkResendTimeout x0 x1 x2 => Sys2Proof.Machine.execBulkResendTimeout x0 x1 x2 s
  | .chainAck x0 x1 x2 => Sys2Proof.Machine.execChainAck x0 x1 x2 s
  | .chainResendTimeout x0 x1 x2 => Sys2Proof.Machine.execChainResendTimeout x0 x1 x2 s
  | .fence x0 x1 x2 x3 => Sys2Proof.Machine.execFence x0 x1 x2 x3 s
  | .routeWrite x0 x1 x2 x3 x4 => Sys2Proof.Machine.execRouteWrite x0 x1 x2 x3 x4 s
  | .configWrite x0 x1 x2 x3 x4 x5 => Sys2Proof.Machine.execConfigWrite x0 x1 x2 x3 x4 x5 s
  | .configRead x0 x1 x2 x3 x4 => Sys2Proof.Machine.execConfigRead x0 x1 x2 x3 x4 s
  | .configData x0 x1 x2 x3 x4 => Sys2Proof.Machine.execConfigData x0 x1 x2 x3 x4 s
  | .configDone x0 x1 x2 x3 => Sys2Proof.Machine.execConfigDone x0 x1 x2 x3 s
  | .freeze x0 x1 x2 => Sys2Proof.Machine.execFreeze x0 x1 x2 s
  | .activate x0 x1 x2 => Sys2Proof.Machine.execActivate x0 x1 x2 s
  | .event x0 x1 x2 x3 => Sys2Proof.Machine.execEvent x0 x1 x2 x3 s
  | .queueCredit x0 x1 x2 x3 => Sys2Proof.Machine.execQueueCredit x0 x1 x2 x3 s
  | .queueEnable x0 x1 => Sys2Proof.Machine.execQueueEnable x0 x1 s
  | .openPacket x0 x1 => Sys2Proof.Machine.execOpenPacket x0 x1 s
  | .data x0 x1 x2 => Sys2Proof.Machine.execData x0 x1 x2 s
  | .close x0 x1 => Sys2Proof.Machine.execClose x0 x1 s
  | .packetReadable x0 => Sys2Proof.Machine.execPacketReadable x0 s
  | .markerQuietTimeout x0 => Sys2Proof.Machine.execMarkerQuietTimeout x0 s
  | .discard x0 x1 => Sys2Proof.Machine.execDiscard x0 x1 s
  | .queueFlush x0 => Sys2Proof.Machine.execQueueFlush x0 s
  | .queueRelease x0 x1 => Sys2Proof.Machine.execQueueRelease x0 x1 s
  | .translationWalk x0 x1 x2 x3 => Sys2Proof.Machine.execTranslationWalk x0 x1 x2 x3 s
  | .retrainInterval x0 x1 => Sys2Proof.Machine.execRetrainInterval x0 x1 s
  | .retrainTemperature x0 x1 x2 => Sys2Proof.Machine.execRetrainTemperature x0 x1 x2 s
  | .retrainCrcCount x0 x1 => Sys2Proof.Machine.execRetrainCrcCount x0 x1 s
  | .retrainDone x0 => Sys2Proof.Machine.execRetrainDone x0 s
  | .nearTierScrub x0 x1 => Sys2Proof.Machine.execNearTierScrub x0 x1 s
  | .farCompletionTimeout x0 x1 x2 => Sys2Proof.Machine.execFarCompletionTimeout x0 x1 x2 s
  | .farLinkDown x0 => Sys2Proof.Machine.execFarLinkDown x0 s
  | .farLinkRetry x0 x1 x2 => Sys2Proof.Machine.execFarLinkRetry x0 x1 x2 s
  | .expanderEventRecord x0 x1 => Sys2Proof.Machine.execExpanderEventRecord x0 x1 s
  | .biasChange x0 x1 x2 => Sys2Proof.Machine.execBiasChange x0 x1 x2 s
  | .limundTrainingStart x0 => Sys2Proof.Machine.execLimundTrainingStart x0 s
  | .limundTrainingDone x0 x1 x2 => Sys2Proof.Machine.execLimundTrainingDone x0 x1 x2 s
  | .linkMgmt x0 x1 x2 x3 x4 x5 x6 => Sys2Proof.Machine.execLinkMgmt x0 x1 x2 x3 x4 x5 x6 s
  | .configTimeout x0 => Sys2Proof.Machine.execConfigTimeout x0 s
  | .downRetryTimer x0 => Sys2Proof.Machine.execDownRetryTimer x0 s
  | .retrainEntry x0 => Sys2Proof.Machine.execRetrainEntry x0 s
  | .retrainEqualised x0 => Sys2Proof.Machine.execRetrainEqualised x0 s
  | .retrainTimeout x0 => Sys2Proof.Machine.execRetrainTimeout x0 s
  | .frameReceive x0 x1 x2 => Sys2Proof.Machine.execFrameReceive x0 x1 x2 s
  | .frameReplay x0 x1 => Sys2Proof.Machine.execFrameReplay x0 x1 s
  | .flitSelect x0 => Sys2Proof.Machine.execFlitSelect x0 s
  | .strandEntryFill x0 x1 => Sys2Proof.Machine.execStrandEntryFill x0 x1 s
  | .lnkSendPost x0 x1 x2 => Sys2Proof.Machine.execLnkSendPost x0 x1 x2 s
  | .sendAcknowledged x0 => Sys2Proof.Machine.execSendAcknowledged x0 s
  | .credit x0 x1 x2 x3 => Sys2Proof.Machine.execCredit x0 x1 x2 x3 s
  | .nack x0 x1 x2 x3 x4 x5 => Sys2Proof.Machine.execNack x0 x1 x2 x3 x4 x5 s
  | .digest x0 x1 x2 => Sys2Proof.Machine.execDigest x0 x1 x2 s
  | .digestTimer x0 => Sys2Proof.Machine.execDigestTimer x0 s
  | .epochDisagreementTimeout x0 => Sys2Proof.Machine.execEpochDisagreementTimeout x0 s
  | .time x0 x1 => Sys2Proof.Machine.execTime x0 x1 s
  | .timeTimer x0 => Sys2Proof.Machine.execTimeTimer x0 s
  | .limundPortDown x0 => Sys2Proof.Machine.execLimundPortDown x0 s
  | .mcastAck x0 x1 x2 => Sys2Proof.Machine.execMcastAck x0 x1 x2 s
  | .detachTimeout x0 => Sys2Proof.Machine.execDetachTimeout x0 s
  | .detach x0 x1 x2 x3 => Sys2Proof.Machine.execDetach x0 x1 x2 x3 s
  | .recover x0 x1 x2 x3 x4 => Sys2Proof.Machine.execRecover x0 x1 x2 x3 x4 s
  | .lost x0 x1 x2 x3 x4 => Sys2Proof.Machine.execLost x0 x1 x2 x3 x4 s
  | .mergeContextOpen x0 x1 x2 => Sys2Proof.Machine.execMergeContextOpen x0 x1 x2 s
  | .mergeEntryEmit x0 x1 => Sys2Proof.Machine.execMergeEntryEmit x0 x1 s
  | .strandActivate x0 => Sys2Proof.Machine.execStrandActivate x0 s
  | .strandUpdate x0 => Sys2Proof.Machine.execStrandUpdate x0 s
  | .strandFlush x0 => Sys2Proof.Machine.execStrandFlush x0 s
  | .strandRelease x0 => Sys2Proof.Machine.execStrandRelease x0 s
  | .strandCacheMiss x0 => Sys2Proof.Machine.execStrandCacheMiss x0 s
  | .queuePairEnable x0 x1 x2 => Sys2Proof.Machine.execQueuePairEnable x0 x1 x2 s
  | .apertureWrite x0 x1 x2 => Sys2Proof.Machine.execApertureWrite x0 x1 x2 s
  | .configRequest x0 => Sys2Proof.Machine.execConfigRequest x0 s
  | .dictRequest x0 x1 x2 => Sys2Proof.Machine.execDictRequest x0 x1 x2 s
  | .eventRead x0 => Sys2Proof.Machine.execEventRead x0 s
  | .mailboxUnsupported x0 => Sys2Proof.Machine.execMailboxUnsupported x0 s
  | .identify => Sys2Proof.Machine.execIdentify s
  | .getEventRecords => Sys2Proof.Machine.execGetEventRecords s
  | .getFwInfo => Sys2Proof.Machine.execGetFwInfo s
  | .timestamp x0 => Sys2Proof.Machine.execTimestamp x0 s
  | .getLog x0 x1 => Sys2Proof.Machine.execGetLog x0 x1 s
  | .transferFw x0 x1 x2 x3 => Sys2Proof.Machine.execTransferFw x0 x1 x2 x3 s
  | .activateFw x0 x1 => Sys2Proof.Machine.execActivateFw x0 x1 s
  | .read x0 x1 x2 x3 x4 => Sys2Proof.Machine.execRead x0 x1 x2 x3 x4 s
  | .write x0 x1 x2 x3 x4 => Sys2Proof.Machine.execWrite x0 x1 x2 x3 x4 s
  | .segRead x0 x1 x2 x3 x4 => Sys2Proof.Machine.execSegRead x0 x1 x2 x3 x4 s
  | .segWrite x0 x1 x2 x3 x4 x5 => Sys2Proof.Machine.execSegWrite x0 x1 x2 x3 x4 x5 s
  | .next x0 x1 x2 x3 => Sys2Proof.Machine.execNext x0 x1 x2 x3 s
  | .dictWindowGo => Sys2Proof.Machine.execDictWindowGo s
  | .tdpFrameReceive x0 x1 x2 x3 x4 x5 x6 => Sys2Proof.Machine.execTdpFrameReceive x0 x1 x2 x3 x4 x5 x6 s
  | .heartbeat => Sys2Proof.Machine.execHeartbeat s
  | .heartbeatReceived x0 x1 x2 x3 x4 x5 => Sys2Proof.Machine.execHeartbeatReceived x0 x1 x2 x3 x4 x5 s
  | .epochArm x0 => Sys2Proof.Machine.execEpochArm x0 s
  | .epochDisarm => Sys2Proof.Machine.execEpochDisarm s
  | .epochFreeze => Sys2Proof.Machine.execEpochFreeze s
  | .epochActivation => Sys2Proof.Machine.execEpochActivation s
  | .backgroundPeriod x0 => Sys2Proof.Machine.execBackgroundPeriod x0 s
  | .agingMonitorSweep x0 => Sys2Proof.Machine.execAgingMonitorSweep x0 s
  | .eyeMonitorScan x0 x1 x2 => Sys2Proof.Machine.execEyeMonitorScan x0 x1 x2 s
  | .mramWearLevel x0 => Sys2Proof.Machine.execMramWearLevel x0 s
  | .telemetrySample x0 => Sys2Proof.Machine.execTelemetrySample x0 s
  | .saturationSubperiod x0 => Sys2Proof.Machine.execSaturationSubperiod x0 s
  | .saturationWindowEnd => Sys2Proof.Machine.execSaturationWindowEnd s
  | .inputValid x0 x1 => Sys2Proof.Machine.execInputValid x0 x1 s
  | .busOff => Sys2Proof.Machine.execBusOff s
  | .sagWarning x0 x1 => Sys2Proof.Machine.execSagWarning x0 x1 s
  | .sagWarningClear x0 => Sys2Proof.Machine.execSagWarningClear x0 s
  | .throttleNAssert => Sys2Proof.Machine.execThrottleNAssert s
  | .throttleNDeassert => Sys2Proof.Machine.execThrottleNDeassert s
  | .powerWindow x0 x1 x2 x3 => Sys2Proof.Machine.execPowerWindow x0 x1 x2 x3 s
  | .thermalThrottle x0 x1 x2 => Sys2Proof.Machine.execThermalThrottle x0 x1 x2 s
  | .thermalOvervoltTrip x0 x1 x2 => Sys2Proof.Machine.execThermalOvervoltTrip x0 x1 x2 s
  | .bindOff x0 => Sys2Proof.Machine.execBindOff x0 s
  | .saveComplete => Sys2Proof.Machine.execSaveComplete s
  | .haltedRestart x0 => Sys2Proof.Machine.execHaltedRestart x0 s
  | .castOnStageComplete x0 x1 x2 x3 => Sys2Proof.Machine.execCastOnStageComplete x0 x1 x2 x3 s
  | .castOnStageFail x0 x1 x2 => Sys2Proof.Machine.execCastOnStageFail x0 x1 x2 s
  | .perstNAssert x0 x1 => Sys2Proof.Machine.execPerstNAssert x0 x1 s
  | .perstNDeassert => Sys2Proof.Machine.execPerstNDeassert s
  | .inputChatter x0 => Sys2Proof.Machine.execInputChatter x0 s
  | .inputHeld x0 => Sys2Proof.Machine.execInputHeld x0 s
  | .mgtInputClear x0 x1 => Sys2Proof.Machine.execMgtInputClear x0 x1 s
  | .pwrEnConnect => Sys2Proof.Machine.execPwrEnConnect s
  | .bankCharged x0 x1 => Sys2Proof.Machine.execBankCharged x0 x1 s
  | .arm x0 => Sys2Proof.Machine.execArm x0 s
  | .hold x0 => Sys2Proof.Machine.execHold x0 s
  | .lifelineDisarm x0 => Sys2Proof.Machine.execLifelineDisarm x0 s
  | .restore x0 => Sys2Proof.Machine.execRestore x0 s
  | .armReq x0 x1 x2 x3 => Sys2Proof.Machine.execArmReq x0 x1 x2 x3 s
  | .armAck x0 x1 x2 x3 => Sys2Proof.Machine.execArmAck x0 x1 x2 x3 s
  | .armTimeout x0 => Sys2Proof.Machine.execArmTimeout x0 s
  | .mark x0 x1 x2 x3 x4 x5 => Sys2Proof.Machine.execMark x0 x1 x2 x3 x4 x5 s
  | .payload x0 x1 x2 => Sys2Proof.Machine.execPayload x0 x1 x2 s
  | .commit x0 x1 x2 x3 => Sys2Proof.Machine.execCommit x0 x1 x2 x3 s
  | .lifelineBroken x0 => Sys2Proof.Machine.execLifelineBroken x0 s
  | .fwCommit => Sys2Proof.Machine.execFwCommit s
  | .burnComplete => Sys2Proof.Machine.execBurnComplete s
  | .unlockNonce => Sys2Proof.Machine.execUnlockNonce s
  | .unlockResponse x0 x1 x2 x3 x4 => Sys2Proof.Machine.execUnlockResponse x0 x1 x2 x3 x4 s
  | .unlockExpiry => Sys2Proof.Machine.execUnlockExpiry s
  | .relock => Sys2Proof.Machine.execRelock s
  | .aliasLmsRenewal => Sys2Proof.Machine.execAliasLmsRenewal s
  | .tmuxSelect x0 x1 => Sys2Proof.Machine.execTmuxSelect x0 x1 s
  | .getVersion x0 => Sys2Proof.Machine.execGetVersion x0 s
  | .getCapabilities x0 => Sys2Proof.Machine.execGetCapabilities x0 s
  | .negotiateAlgorithms x0 x1 => Sys2Proof.Machine.execNegotiateAlgorithms x0 x1 s
  | .getDigests x0 => Sys2Proof.Machine.execGetDigests x0 s
  | .getCertificate x0 x1 x2 x3 => Sys2Proof.Machine.execGetCertificate x0 x1 x2 x3 s
  | .challenge x0 x1 x2 => Sys2Proof.Machine.execChallenge x0 x1 x2 s
  | .getMeasurements x0 x1 x2 x3 => Sys2Proof.Machine.execGetMeasurements x0 x1 x2 x3 s
  | .getLmsSignature x0 => Sys2Proof.Machine.execGetLmsSignature x0 s
  | .corePaceClear x0 x1 => Sys2Proof.Machine.execCorePaceClear x0 x1 s
  | .coreNumClear x0 x1 => Sys2Proof.Machine.execCoreNumClear x0 x1 s
  | .coreFmtClear x0 x1 => Sys2Proof.Machine.execCoreFmtClear x0 x1 s
  | .coreLaneClear x0 x1 => Sys2Proof.Machine.execCoreLaneClear x0 x1 s
  | .coreAccClear x0 x1 => Sys2Proof.Machine.execCoreAccClear x0 x1 s
  | .coreRfuClear x0 x1 => Sys2Proof.Machine.execCoreRfuClear x0 x1 s
  | .spmClear x0 x1 => Sys2Proof.Machine.execSpmClear x0 x1 s
  | .loopClear x0 x1 => Sys2Proof.Machine.execLoopClear x0 x1 s
  | .fetClear x0 x1 => Sys2Proof.Machine.execFetClear x0 x1 s
  | .queClear x0 x1 => Sys2Proof.Machine.execQueClear x0 x1 s
  | .lceClear x0 x1 => Sys2Proof.Machine.execLceClear x0 x1 s
  | .mifClear x0 x1 => Sys2Proof.Machine.execMifClear x0 x1 s
  | .farClear x0 x1 => Sys2Proof.Machine.execFarClear x0 x1 s
  | .coreXltClear x0 x1 => Sys2Proof.Machine.execCoreXltClear x0 x1 s
  | .mgtRtrClear x0 x1 => Sys2Proof.Machine.execMgtRtrClear x0 x1 s
  | .lnkPortClear x0 x1 => Sys2Proof.Machine.execLnkPortClear x0 x1 s
  | .lnkDieClear x0 x1 => Sys2Proof.Machine.execLnkDieClear x0 x1 s
  | .hstClear x0 => Sys2Proof.Machine.execHstClear x0 s
  | .mgtLlClear x0 => Sys2Proof.Machine.execMgtLlClear x0 s
  | .mgtPwrClear x0 => Sys2Proof.Machine.execMgtPwrClear x0 s
  | .secClear x0 => Sys2Proof.Machine.execSecClear x0 s
  | .referenceClockEdge x0 => Sys2Proof.Machine.execReferenceClockEdge x0 s
  | .ucieAdapterRetry x0 x1 => Sys2Proof.Machine.execUcieAdapterRetry x0 x1 s
  | .cxlMemRequest x0 x1 x2 => Sys2Proof.Machine.execCxlMemRequest x0 x1 x2 s
  | .hostSnoop x0 => Sys2Proof.Machine.execHostSnoop x0 s
  | .segmentDivergenceTimeout x0 => Sys2Proof.Machine.execSegmentDivergenceTimeout x0 s
  | .reservedChainMessage x0 x1 x2 => Sys2Proof.Machine.execReservedChainMessage x0 x1 x2 s

end Sys2Proof.Machine
end

