-- ==== Sys2Proof/Safety.lean ====
section
/-! DEFINITION. What a safe step is, in the terms that the statements use: the invariant that every step keeps, and which parts of the
state a command may change. -/

namespace Sys2Proof.Safety

open Sys2Proof Sys2Proof.Machine

/-- Memory in its canonical form. -/
def MemoryCanonical (s : State) : Prop := memWf s.mem = true

/-- Every register holds a word of 64 bits (00, the register tables). -/
def RegistersWords (s : State) : Prop := ∀ p ∈ s.regs, p.2 < 2 ^ 64

/-- What holds at reset and what every step keeps. -/
structure Inv (s : State) : Prop where
  memory : MemoryCanonical s
  registers : RegistersWords s

/-- A command ends in a next state: no command of the table stops the module. -/
def GoesOn (s : State) : Prop := ∃ t, Machine.step s = .next t

/-- A chain message that is no repeat at its destination (14 R356). -/
abbrev NewMessage (s : State) (die : Nat) (f : Frame) : Prop := chainRepeat s die f = false
/-- The state in which the destination has noted a message's number (14 R356). -/
def tookMessage (s : State) (die : Nat) (f : Frame) : State :=
  { s with net := { s.net with chainRx := tset s.net.chainRx (pairKey f.src die) ((f.seq.val + 1) % 1024) } }
/-- A bulk packet that is no repeat at its destination (14 R353). -/
abbrev NewPacket (s : State) (die : Nat) (t : BulkTag) : Prop := (tget [] s.net.bulkRx (pairKey t.src die)).contains t.seq.val = false
/-- The state in which the destination has noted a packet's number (14 R353). -/
def tookPacket (s : State) (die : Nat) (t : BulkTag) : State :=
  { s with net := { s.net with bulkRx := tset s.net.bulkRx (pairKey t.src die) ((t.seq.val :: tget [] s.net.bulkRx (pairKey t.src die)).take 1024) } }

/-- The event that the management die logged last (19 R475). -/
def latestEvent (s : State) : Option Event := tfind s.dict.events ((s.dict.eventSeq - 1) % 6144)
/-- One event more has been logged, with this code, severity and arguments. -/
def LoggedEvent (s t : State) (code severity : Nat) (args : List Nat) : Prop :=
  t.dict.eventSeq = s.dict.eventSeq + 1 ∧ ∃ e, latestEvent t = some e ∧ e.code = code ∧ e.severity = severity ∧ e.time = now s ∧ e.args = args
/-- A die has put a message on the chain, and nothing else (14 R356). -/
def Sent (s t : State) (src dst : Nat) (m : Msg) : Prop :=
  t.net.chain = s.net.chain ++ [{ src := src, dst := dst, seq := tget 0 s.net.chainTx (pairKey src dst), msg := m, sentAt := now s }]
/-- A die has sent an event over the chain to the management die (19 R474). -/
def SentEvent (s t : State) (die code severity : Nat) (args : List Nat) : Prop :=
  ∃ e : Event, Sent s t die mgtDie (.event e) ∧ e.code = code ∧ e.severity = severity ∧ e.die = die ∧ e.time = now s ∧ e.args = args
/-- A row that a request reads alone: it is ready, needs no free row, and no row behind it joins its transfer (R261). -/
def singleRead (s : State) (c : Nat) (w : CoreTask) (r : Req) : Prop :=
  r.write = false ∧ (Machine.core s c).requests.contains r = true ∧ roomless w r = true ∧ reqReady s c w r = true ∧
    transferOf s w (Machine.core s c).requests r 63 = []
/-- The die that serves an address (14 R351; 16 Table: BAR0 map for the mirror). -/
def servingDie (a : Nat) : Nat :=
  if isSpm a then coreDie (spmCore a) else if isMirror a then mirrorDie a else if isHost a then hstDie else sliceDie (homeSlice a)
/-- The state once a row has come for a tag of a running task: the tag is free, its bytes and its corrected events are counted (10 R259, R275). -/
def rowTaken (s : State) (c : CoreId) (p : BulkTag) (tag : TagId) (g : Tag) (events : Nat) : State :=
  let u := freeTag (updCore (tookPacket s (coreDie c) p) c (fun x => { x with lateCause := tdel x.lateCause tag })) c tag
  corrected (streamMoved (bumpCore u c FET_BYTES_READ 512) c g.stream 512) c g.stream events
/-- A counter that ARM2 arms, before its summary is read (09 R250). -/
def armedAt (s : State) (c : CounterId) (f : Frame) (base : Nat) : State :=
  let u := tookMessage s (sliceDie (counterSlice c)) f
  updCounter u c (fun x => { x with armed := true, reserved := false, summaryBase := base, attempt := 0, next := 0, owners := [], counts := [], final := [],
                                    based := 0, outBase := outRp0 u (rowCounter u c).slot })

/-- A core has given up its task with a status, and told the HST die (10 R276, R277). -/
def Faulted (s t : State) (c status : Nat) : Prop :=
  ∃ w, (Machine.core s c).task = some w ∧ (Machine.core t c).task = none ∧
    ∃ m ∈ t.net.chain, m.src = coreDie c ∧ m.dst = hstDie ∧ m.msg = .fault w.slot status
/-- A die has put a packet on the bulk network, and nothing else (14 R353). -/
def SentPacket (s t : State) (src dst : Nat) (type : BulkType) (tag addr : Nat) (data : List Byte) : Prop :=
  ∃ due, t.net.bulk = s.net.bulk ++ [{ src := src, dst := dst, seq := tget 0 s.net.bulkTx (pairKey src dst), type := type, tag := tag,
                                       addr := addr, due := due, data := data, sentAt := now s }]

/-- The state that has answered a dictionary request on its path (19 R466). -/
def replies (s : State) (path : DictPath) (r : DictReq) (status type : Nat) (data : List Byte) : State :=
  let a : DictAns := { status := status, index := r.index, sub := r.sub, type := type, data := data }
  emit s (.reply path (replyHdr0 r a) (replyHdr1 r a) data)

/-- The state after the first steps of a bind-off with a cause (18 R451, R454): no core runs, the near tier and the scratchpads are lost, and the
image stands in the slot after the newest save's, not yet valid, where stage 1 had completed. -/
structure BoundOff (s t : State) (cause : Nat) : Prop where
  state : t.power.powerState = 3 ∧ t.power.bindoff = true ∧ t.power.cause = cause ∧ t.power.tBindoff = now s
  count : reg t (pwrOff MGT_BINDOFF_COUNT) = (reg s (pwrOff MGT_BINDOFF_COUNT) + 1) % 2 ^ 64
  event : ∃ e, latestEvent t = some e ∧ e.code = 0xA05 ∧ e.severity = 3 ∧ e.args = [cause]
  cores : t.cores = []
  memory : ∀ a, isNear a = true ∨ isSpm a = true → mread t.mem a = 0
  saved : stageDone s 1 = true → ∃ k x, tfind t.saves k = some x ∧ x.valid = false ∧ x.cause = cause ∧ x.t = now s ∧
    (∀ p y, newestSlot s = some (p, y) → k = (p + 1) % 8 ∧ x.seq = y.seq + 1) ∧ ∀ j, j ≠ k → tfind t.saves j = tfind s.saves j
  unsaved : stageDone s 1 = false → t.saves = s.saves

/-- The state words of a strand's entry show its lifeline (17 R427). -/
def LifelineShown (s : State) (n : Nat) : Prop := ∀ i, i < 8 → rd64 s (strandEntry s n (16 + i)) = (llWords (lifeline s n)).getD i 0 % 2 ^ 64

/-- No write of a queue waits for a row, at its port or at a link die (11 R296, 15 R382). -/
def QueueQuiet (s : State) (q : Nat) : Prop := (queue s q).held = none ∧ ∀ p, p < 16 → (port s p).receiving = []

/-- The parts of the state. -/
inductive Part where
  | regs | mem | clock | pkg | cores | counters | queues | hst | cache | mifs | fars | ports | groups | merges | gapNext | linkPost
  | lnkCache | unsent | posted | lifelines | llResult | llStatus | drawSkews | correlatedArms | divergenceEvents | power | saves
  | wear | dict | bg | sat | sec | net | out | freeIdx | pending
  deriving DecidableEq, Repr

/-- A part that is as it was. -/
def Part.same (s t : State) : Part → Prop
  | .regs => t.regs = s.regs
  | .mem => t.mem = s.mem
  | .clock => t.clock = s.clock
  | .pkg => t.pkg = s.pkg
  | .cores => t.cores = s.cores
  | .counters => t.counters = s.counters
  | .queues => t.queues = s.queues
  | .hst => t.hst = s.hst
  | .cache => t.cache = s.cache
  | .mifs => t.mifs = s.mifs
  | .fars => t.fars = s.fars
  | .ports => t.ports = s.ports
  | .groups => t.groups = s.groups
  | .merges => t.merges = s.merges
  | .gapNext => t.gapNext = s.gapNext
  | .linkPost => t.linkPost = s.linkPost
  | .lnkCache => t.lnkCache = s.lnkCache
  | .unsent => t.unsent = s.unsent
  | .posted => t.posted = s.posted
  | .lifelines => t.lifelines = s.lifelines
  | .llResult => t.llResult = s.llResult
  | .llStatus => t.llStatus = s.llStatus
  | .drawSkews => t.drawSkews = s.drawSkews
  | .correlatedArms => t.correlatedArms = s.correlatedArms
  | .divergenceEvents => t.divergenceEvents = s.divergenceEvents
  | .power => t.power = s.power
  | .saves => t.saves = s.saves
  | .wear => t.wear = s.wear
  | .dict => t.dict = s.dict
  | .bg => t.bg = s.bg
  | .sat => t.sat = s.sat
  | .sec => t.sec = s.sec
  | .net => t.net = s.net
  | .out => t.out = s.out
  | .freeIdx => t.freeIdx = s.freeIdx
  | .pending => t.pending = s.pending

/-- Nothing but the parts of a list has changed. -/
def OnlyParts (l : List Part) (s t : State) : Prop := ∀ p, p ∉ l → p.same s t

/-- The parts that a command may change. The registers are one part, the cores another: what a command leaves unchanged within a part is said
by the statements about the command. -/
def touches : Instr → List Part
  | .coreInternalFault .. | .fenceCoreRequest .. =>
      [.regs, .pkg, .cores, .queues, .hst, .ports, .lifelines, .dict, .net, .out]
  | .routerFault .. | .ucieModuleFailure .. | .adapterRetryExhausted .. =>
      [.regs, .pkg, .cores, .queues, .hst, .fars, .ports, .lifelines, .dict, .net, .out]
  | .ringDieFailure .. =>
      [.regs, .pkg, .hst, .fars, .ports, .dict, .net, .out]
  | .stitch .. | .go .. | .replay .. | .base .. | .sendPass .. | .mergePassStart .. | .readRequest .. | .bulkWrite .. | .accumulateWrite ..
    | .reloadDone .. | .readData .. =>
      [.regs, .mem, .pkg, .cores, .queues, .hst, .cache, .mifs, .fars, .ports, .dict, .net, .out, .freeIdx]
  | .longStallEvent .. =>
      [.regs, .cores, .hst, .unsent, .dict, .net, .out]
  | .governorWindowEnd .. | .floorCheck .. | .fusedBandReady .. | .smallTransferHoldEnd .. =>
      [.cores]
  | .reftimeLoad .. | .reftimeSlew .. | .refclkReturn .. =>
      [.clock]
  | .refclkLost | .heartbeatReceived .. =>
      [.regs, .clock, .hst, .dict, .net, .out]
  | .reftimeDistribution .. =>
      [.regs, .clock, .net]
  | .compute .. =>
      [.regs, .mem, .pkg, .cores, .counters, .queues, .hst, .cache, .mifs, .fars, .ports, .groups, .merges, .unsent, .posted, .lifelines,
       .dict, .net, .out, .freeIdx]
  | .copy .. | .maskLoad .. | .maskFree .. | .barrier .. | .invalidate .. | .nop .. | .sendAcknowledged .. | .nack .. | .mergeEntryEmit ..
    | .armReq .. | .payload .. =>
      [.regs, .mem, .pkg, .cores, .queues, .hst, .cache, .mifs, .fars, .ports, .groups, .merges, .unsent, .posted, .lifelines, .dict, .net,
       .out, .freeIdx]
  | .barrierArrival .. | .completionReportDone .. =>
      [.regs, .hst, .net]
  | .completionReportFault .. | .completionReportDetection .. | .hstCancel .. | .completionReportRefused .. =>
      [.regs, .cores, .hst, .net]
  | .invalidateComplete .. | .credit .. =>
      [.hst]
  | .sqTailDoorbell .. | .cqHeadDoorbell .. | .doorbell .. | .event .. | .expanderEventRecord .. | .epochFreeze
    | .segmentDivergenceTimeout .. =>
      [.regs, .hst, .dict, .net, .out]
  | .descriptorFetch .. | .queuePairEnable .. =>
      [.regs, .hst]
  | .dispatch .. | .issueChecks .. =>
      [.regs, .pkg, .cores, .hst, .cache, .mifs, .fars, .ports, .dict, .net, .out, .freeIdx]
  | .wait .. | .ownerAns .. | .foreignAnnouncement .. | .stitchMarkerWrite .. | .bulkPacketHop .. | .bulkResendTimeout .. =>
      [.regs, .cores, .net]
  | .tagIssue .. | .class3Promotion .. | .abort .. | .cancel .. | .answer .. | .localClaim .. | .winOpen .. | .residentWeightScrub ..
    | .negativeAcknowledge .. | .translationWalk .. | .apertureWrite .. | .spmOpDone .. | .narrowWrite .. | .writeAcknowledge .. =>
      [.regs, .mem, .cores, .queues, .hst, .ports, .dict, .net, .out]
  | .completionReportPassed .. =>
      [.regs, .cores, .counters, .hst, .net]
  | .packetReadable .. =>
      [.regs, .mem, .cores, .queues, .hst, .dict, .net, .out]
  | .completionReportMarkerReached .. | .armed .. | .claim .. | .report .. =>
      [.regs, .counters, .hst, .net]
  | .arm2 .. =>
      [.regs, .pkg, .cores, .counters, .hst, .cache, .mifs, .fars, .ports, .dict, .net, .out, .freeIdx]
  | .completionReportSpanDone .. | .groupCommit .. | .queueCredit .. | .discard .. | .queueFlush .. | .queueRelease .. =>
      [.regs, .mem, .pkg, .cores, .queues, .hst, .cache, .mifs, .fars, .ports, .merges, .lifelines, .dict, .net, .out, .freeIdx]
  | .completionReportDrained .. =>
      [.regs, .mem, .hst, .net, .freeIdx]
  | .completionWrite .. =>
      [.regs, .mem, .hst, .cache, .lnkCache, .posted, .net, .out, .freeIdx]
  | .msixAggregationTimeout .. =>
      [.regs, .hst, .out]
  | .arm0 .. | .arm1 .. | .rearm .. | .disarm .. =>
      [.regs, .counters, .net]
  | .owner .. | .registerRead .. | .configRead .. | .farCompletionTimeout .. | .reservedChainMessage .. =>
      [.regs, .net]
  | .auditReport .. | .cxlMemRequest .. =>
      [.regs, .mem, .pkg, .hst, .cache, .mifs, .fars, .ports, .dict, .net, .out, .freeIdx]
  | .spmOpStart .. | .regionEntryWrite .. | .windowEntryWrite .. | .windowClosed .. | .bankPowerUp .. | .farLinkRetry .. | .spmClear .. =>
      [.regs, .cores]
  | .winClose .. | .gbIdleFlush .. | .spmGbFlush .. | .bankPowerDown .. =>
      [.regs, .mem, .cores, .hst, .dict, .net, .out]
  | .bankDrained .. | .bankPowerUpDone .. =>
      [.regs, .mem, .cores]
  | .bankDrainTimeout .. =>
      [.regs, .cores, .hst, .dict, .net, .out]
  | .registerWrite .. =>
      [.regs, .mem, .clock, .pkg, .cores, .queues, .hst, .cache, .mifs, .fars, .ports, .groups, .merges, .linkPost, .lnkCache, .unsent,
       .posted, .lifelines, .llResult, .llStatus, .drawSkews, .power, .dict, .sec, .net, .out, .freeIdx]
  | .registerData .. =>
      [.regs, .net, .out]
  | .endToEndAcknowledge .. | .chainAck .. | .chainResendTimeout .. =>
      [.net]
  | .fence .. =>
      [.regs, .mem, .pkg, .cores, .queues, .hst, .fars, .ports, .lifelines, .dict, .net, .out]
  | .routeWrite .. =>
      [.regs, .pkg, .net]
  | .configWrite .. | .configData .. | .configDone .. | .freeze .. | .activate .. =>
      [.regs, .dict, .net]
  | .queueEnable .. =>
      [.regs, .cores, .queues]
  | .openPacket .. | .data .. | .close .. =>
      [.regs, .mem, .cores, .queues, .hst, .ports, .dict, .net, .out, .freeIdx]
  | .markerQuietTimeout .. =>
      [.regs, .mem, .cores, .queues]
  | .retrainInterval .. | .retrainCrcCount .. | .retrainDone .. =>
      [.regs, .mifs]
  | .retrainTemperature .. =>
      [.regs, .mifs, .power]
  | .nearTierScrub .. =>
      [.regs, .pkg, .hst, .mifs, .fars, .ports, .dict, .net, .out]
  | .farLinkDown .. =>
      [.fars, .net]
  | .biasChange .. =>
      [.cache]
  | .limundTrainingStart .. | .configTimeout .. | .downRetryTimer .. | .digestTimer .. | .timeTimer .. =>
      [.ports]
  | .limundTrainingDone .. =>
      [.regs, .cores, .hst, .ports, .unsent, .net]
  | .linkMgmt .. =>
      [.regs, .cores, .hst, .ports, .unsent, .dict, .net, .out]
  | .retrainEntry .. | .eyeMonitorScan .. =>
      [.regs, .ports]
  | .retrainEqualised .. | .retrainTimeout .. | .limundPortDown .. =>
      [.cores, .hst, .ports, .unsent, .net]
  | .frameReceive .. | .strandEntryFill .. =>
      [.regs, .mem, .pkg, .cores, .queues, .hst, .cache, .mifs, .fars, .ports, .groups, .merges, .lnkCache, .lifelines, .dict, .net, .out,
       .freeIdx]
  | .frameReplay .. =>
      [.ports, .out]
  | .flitSelect .. =>
      [.regs, .mem, .pkg, .cores, .queues, .hst, .cache, .mifs, .fars, .ports, .groups, .dict, .net, .out, .freeIdx]
  | .lnkSendPost .. =>
      [.regs, .mem, .pkg, .cores, .queues, .hst, .cache, .mifs, .fars, .ports, .groups, .merges, .lnkCache, .unsent, .posted, .lifelines,
       .dict, .net, .out, .freeIdx]
  | .digest .. | .epochDisagreementTimeout .. | .epochActivation =>
      [.regs, .hst, .ports, .divergenceEvents, .dict, .net, .out]
  | .time .. | .corePaceClear .. | .coreNumClear .. | .coreFmtClear .. | .coreLaneClear .. | .coreAccClear .. | .coreRfuClear ..
    | .loopClear .. | .fetClear .. | .queClear .. | .lceClear .. | .mifClear .. | .farClear .. | .coreXltClear .. | .mgtRtrClear ..
    | .lnkPortClear .. | .lnkDieClear .. | .hstClear .. | .mgtLlClear .. | .mgtPwrClear .. | .ucieAdapterRetry .. =>
      [.regs]
  | .mcastAck .. =>
      [.groups]
  | .detachTimeout .. =>
      [.regs, .ports, .groups]
  | .detach .. =>
      [.regs, .hst, .ports, .groups, .gapNext, .dict, .net, .out]
  | .recover .. =>
      [.regs, .hst, .ports]
  | .lost .. =>
      [.regs, .mem, .cores, .queues, .ports, .groups]
  | .mergeContextOpen .. =>
      [.regs, .merges]
  | .strandActivate .. | .strandUpdate .. =>
      [.regs, .mem, .hst, .lnkCache]
  | .strandFlush .. | .strandCacheMiss .. =>
      [.regs, .mem, .hst]
  | .strandRelease .. =>
      [.regs, .mem, .cores, .hst, .lnkCache, .net]
  | .configRequest .. | .eventRead .. | .mailboxUnsupported .. | .identify | .getFwInfo | .hostSnoop .. =>
      [.out]
  | .dictRequest .. | .read .. | .write .. | .segRead .. | .segWrite .. | .next .. | .dictWindowGo | .tdpFrameReceive .. =>
      [.regs, .clock, .pkg, .cores, .queues, .hst, .ports, .lifelines, .dict, .sec, .net, .out, .freeIdx]
  | .getEventRecords | .getLog .. =>
      [.out, .freeIdx]
  | .timestamp .. =>
      [.hst, .out]
  | .transferFw .. | .activateFw .. | .getVersion .. | .getCapabilities .. | .negotiateAlgorithms .. | .getDigests .. | .getCertificate ..
    | .challenge .. | .getMeasurements .. =>
      [.sec, .out]
  | .heartbeat =>
      [.dict, .out]
  | .epochArm .. | .epochDisarm =>
      [.dict]
  | .backgroundPeriod .. =>
      [.regs, .hst, .dict, .bg, .net, .out]
  | .agingMonitorSweep .. | .mramWearLevel .. =>
      [.wear]
  | .telemetrySample .. | .saturationSubperiod .. =>
      [.sat]
  | .saturationWindowEnd =>
      [.regs, .hst, .cache, .dict, .sat, .net, .out]
  | .inputValid .. =>
      [.clock, .power, .sec]
  | .busOff =>
      [.regs, .mem, .clock, .pkg, .cores, .counters, .queues, .hst, .cache, .mifs, .fars, .ports, .groups, .merges, .gapNext, .linkPost,
       .lnkCache, .unsent, .posted, .lifelines, .llResult, .llStatus, .drawSkews, .correlatedArms, .divergenceEvents, .power, .dict, .bg,
       .sat, .sec, .net, .freeIdx]
  | .sagWarning .. =>
      [.regs, .power]
  | .sagWarningClear .. | .throttleNAssert | .throttleNDeassert | .powerWindow .. | .perstNDeassert | .mgtInputClear .. | .pwrEnConnect
    | .bankCharged .. =>
      [.power]
  | .thermalThrottle .. =>
      [.cores, .power]
  | .thermalOvervoltTrip .. | .bindOff .. =>
      [.regs, .mem, .clock, .pkg, .cores, .counters, .queues, .hst, .cache, .mifs, .fars, .ports, .groups, .merges, .gapNext, .linkPost,
       .lnkCache, .unsent, .posted, .lifelines, .power, .saves, .wear, .dict, .sec, .net, .out]
  | .saveComplete =>
      [.power, .saves]
  | .haltedRestart .. =>
      [.power, .sec]
  | .castOnStageComplete .. =>
      [.regs, .mem, .pkg, .cores, .queues, .hst, .mifs, .fars, .ports, .lifelines, .power, .saves, .dict, .bg, .sec, .net, .out]
  | .castOnStageFail .. =>
      [.regs, .hst, .mifs, .power, .dict, .net, .out]
  | .perstNAssert .. | .inputChatter .. =>
      [.regs, .mem, .clock, .pkg, .cores, .counters, .queues, .hst, .cache, .mifs, .fars, .ports, .groups, .merges, .gapNext, .linkPost,
       .lnkCache, .unsent, .posted, .lifelines, .power, .dict, .sec, .net, .out]
  | .inputHeld .. =>
      [.regs, .hst, .power, .dict, .net, .out]
  | .arm .. | .commit .. =>
      [.regs, .mem, .pkg, .cores, .queues, .hst, .cache, .mifs, .fars, .ports, .groups, .merges, .unsent, .posted, .lifelines, .llResult,
       .llStatus, .dict, .net, .out, .freeIdx]
  | .hold .. | .lifelineDisarm .. | .armTimeout .. =>
      [.mem, .lifelines, .llResult, .llStatus]
  | .restore .. =>
      [.regs, .mem, .hst, .lifelines, .llResult, .llStatus, .drawSkews, .dict, .net, .out]
  | .armAck .. =>
      [.regs, .mem, .cores, .queues, .hst, .ports, .merges, .lifelines, .llResult, .llStatus, .correlatedArms, .dict, .net, .out, .freeIdx]
  | .mark .. =>
      [.regs, .mem, .pkg, .cores, .queues, .hst, .cache, .mifs, .fars, .ports, .lifelines, .dict, .net, .out, .freeIdx]
  | .lifelineBroken .. =>
      [.regs, .mem, .cores, .hst, .lifelines, .llResult, .llStatus, .dict, .net, .out]
  | .fwCommit | .tmuxSelect .. | .secClear .. =>
      [.sec]
  | .burnComplete | .unlockResponse .. | .unlockExpiry | .relock | .aliasLmsRenewal | .getLmsSignature .. =>
      [.regs, .hst, .dict, .sec, .net, .out]
  | .unlockNonce =>
      [.sec, .freeIdx]
  | .referenceClockEdge .. =>
      [.regs, .clock, .cores, .hst, .lifelines]

/-- The commands after which REFTIME may be smaller: a cast-on and the loss of the bus start it at 0, and a clock edge may wrap it. -/
def startsTime : Instr → Bool
  | .inputValid .. | .busOff | .referenceClockEdge .. => true
  | _ => false

end Sys2Proof.Safety
end

