-- ==== Sys2Proof/Certificates/Slice0/Obligations.lean ====
section
/-! DEFINITION. The statements about the model: the machine, then the commands, family by family. Each names the rules of the manual it
formalises; what is the model's own choice says so. Claims are parts of the statement that joins them. -/

open Sys2Proof Sys2Proof.Machine Sys2Proof.Safety

/-! The machine. -/

/-- A step takes the command at the front of the queue and is that command's effect on the state with the queue's rest. -/
def Obligations.StepRunsFrontCommand : Prop :=
  ∀ (c : Instr) (rest : List Instr) (s : State), s.pending = c :: rest → step s = exec c { s with pending := rest }

/-- On an empty queue the block idles: the step answers the state as it is (the model's choice, log entry 10). -/
def Claims.EmptyQueueIdles : Prop := ∀ s : State, s.pending = [] → step s = .next s

/-- The state at reset: nothing waits, nothing has left, memory lists nothing, every register holds its reset value, REFTIME is 0 (R49), no
cast-on stage has completed; and the invariant holds. -/
def Obligations.ResetState : Prop :=
  State.reset.pending = [] ∧ State.reset.out = [] ∧ State.reset.mem = [] ∧ (∀ off, reg State.reset off = regReset off) ∧ now State.reset = 0 ∧
    (∀ k, stageDone State.reset k = false) ∧ State.reset.pkg.fenced = 0 ∧ Inv State.reset

/-- Every step keeps memory in its canonical form and every register a word of 64 bits. -/
def Obligations.StepKeepsInv : Prop := ∀ s t : State, Inv s → step s = .next t → Inv t

/-- Grading and field fencing are for good: no command enables a core that grading disabled, none returns a fenced core, and no router that is
in pass-through ever leaves it (R4). -/
def Obligations.GradedDiesStayDisabled : Prop :=
  ∀ (c : Instr) (s t : State), exec c s = .next t →
    t.pkg.enabled = s.pkg.enabled ∧ (∀ n, coreActive s n = false → coreActive t n = false) ∧
      (∀ d, routerFenced s d = true → routerFenced t d = true)

/-- No command changes a part of the state outside its list in `touches`. -/
def Obligations.CommandsTouchOnlyTheirParts : Prop := ∀ (c : Instr) (s t : State), exec c s = .next t → OnlyParts (touches c) s t

/-- No command touches the queue of waiting commands, so the rest of the queue waits unchanged, first in, first out. -/
def Claims.QueueIsFirstInFirstOut : Prop :=
  ∀ (c : Instr) (rest : List Instr) (s t : State), s.pending = c :: rest → step s = .next t → t.pending = rest

/-- The queue of commands: an empty queue idles (the model's choice, log entry 10), and a step leaves what waits behind the front command as it is. -/
def Obligations.WaitingCommands : Prop := Claims.EmptyQueueIdles ∧ Claims.QueueIsFirstInFirstOut

/-- REFTIME never runs backward (R49): it starts at 0 only at a cast-on (INPUT_VALID) or with the loss of the bus, and a clock edge takes it
back only where 64 bits wrap. -/
def Claims.ReftimeNeverRunsBackward : Prop :=
  ∀ (c : Instr) (s t : State), exec c s = .next t → startsTime c = false → s.clock.reftime ≤ t.clock.reftime

/-- What has left the module edge is never taken back, and no free value is used twice. -/
def Claims.OutputOnlyGrows : Prop := ∀ (c : Instr) (s t : State), exec c s = .next t → s.out <:+ t.out ∧ s.freeIdx ≤ t.freeIdx

/-- Whatever the command: REFTIME never runs backward (R49), what has left the module edge stays, and no free value is used twice. -/
def Obligations.NothingRunsBackward : Prop := Claims.ReftimeNeverRunsBackward ∧ Claims.OutputOnlyGrows

/-- No command of the table stops the block: every step of every state goes on. -/
def Obligations.EveryStepGoesOn : Prop := ∀ s : State, GoesOn s

/-! Faults of cores, dies and connections (01 R17; 14 R350, R359 to R362). -/

/-- CORE_INTERNAL_FAULT fences an active core (R359, R360): it is fenced, and no command makes it active again. On a core that is not
active it changes nothing. -/
def Claims.CoreFaultFences : Prop :=
  ∀ (c : CoreId) (s : State), ∃ t, exec (.coreInternalFault c) s = .next t ∧ coreActive t c = false ∧
    (coreActive s c = true → bit t.pkg.fenced c = true) ∧ (coreActive s c = false → t = s)

/-- FENCE_CORE_REQUEST (R359): from stage 4 on, a core number other than the last active core's is fenced; the last active core and a number
above 63 are refused and change nothing, and so is the request before stage 4. -/
def Claims.FenceRequest : Prop :=
  ∀ (v : Byte) (s : State), ∃ t, exec (.fenceCoreRequest v) s = .next t ∧
    (stageDone s 4 = true → v.toNat < 64 → activeCount s ≠ 1 → coreActive t v.toNat = false) ∧
    (stageDone s 4 = false → t = s) ∧ (64 ≤ v.toNat → t = s) ∧ (activeCount s = 1 → coreActive s v.toNat = true → t = s)

/-- ROUTER_FAULT, RING_DIE_FAILURE, ADAPTER_RETRY_EXHAUSTED (R361, R17, R350): the router is fenced with its core, the ring die has failed, the
connection is down. -/
def Claims.DieAndConnectionFailures : Prop :=
  (∀ (d : MeshDie) (s : State), ∃ t, exec (.routerFault d) s = .next t ∧ routerFenced t d = true ∧
      (∀ c, dieCore d = some c → routerFenced s d = false → coreActive t c = false)) ∧
  (∀ (r : Fin 20) (s : State), ∃ t, exec (.ringDieFailure r) s = .next t ∧ dieFailed t (80 + r) = true ∧
      (dieFailed s (80 + r) = false → 18 ≤ r.val → t.pkg.deviceLost = true)) ∧
  (∀ (d : MeshDie) (p : Fin 7) (e : Nat) (s : State), neighbour d p = some e →
      ∃ t, exec (.adapterRetryExhausted d p) s = .next t ∧ t.pkg.connDown.contains (connKey d p) = true)

/-- UCIE_MODULE_FAILURE (R350): the first module of a connection that fails degrades it, with event 0x0601; the second takes it down. -/
def Claims.ModuleFailures : Prop :=
  ∀ (d : MeshDie) (p : Fin 7) (e : Nat) (s : State), neighbour d p = some e → ∃ t, exec (.ucieModuleFailure d p) s = .next t ∧
    (tget 0 s.pkg.modulesFailed (connKey d p) = 0 →
      tget 0 t.pkg.modulesFailed (connKey d p) = 1 ∧ LoggedEvent s t 0x601 1 [d.val, e] ∧ t.pkg.connDown = s.pkg.connDown) ∧
    (tget 0 s.pkg.modulesFailed (connKey d p) = 1 → t.pkg.connDown.contains (connKey d p) = true)

/-- UCIE_ADAPTER_RETRY (R350): the retry is counted at both routers of the connection, at one where the other end is a ring die, and nothing
else changes. -/
def Claims.AdapterRetryIsCounted : Prop :=
  ∀ (d : MeshDie) (p : Fin 7) (e : Nat) (s : State), neighbour d p = some e → ∃ t, exec (.ucieAdapterRetry d p) s = .next t ∧
    OnlyParts [.regs] s t ∧ reg t (rtrOff d MGT_RTR_HOP_RETRY_COUNT) = (reg s (rtrOff d MGT_RTR_HOP_RETRY_COUNT) + 1) % 2 ^ 64 ∧
    (e < 80 → reg t (rtrOff e MGT_RTR_HOP_RETRY_COUNT) = (reg s (rtrOff e MGT_RTR_HOP_RETRY_COUNT) + 1) % 2 ^ 64) ∧
    ∀ off, off ≠ rtrOff d MGT_RTR_HOP_RETRY_COUNT → off ≠ rtrOff e MGT_RTR_HOP_RETRY_COUNT → reg t off = reg s off

/-- ROUTE_WRITE at a die (R361): the ten entries from FIRST take the message's fields, and the entries of no other die or network change. -/
def Claims.RouteWrite : Prop :=
  ∀ (f : Frame) (d : DieId) (first : BitVec 8) (chainNet : Bool) (entries : BitVec 40) (s : State), NewMessage s d f →
    ∃ t, exec (.routeWrite f d first chainNet entries) s = .next t ∧ OnlyParts [.pkg, .net] s t ∧
      (∀ i, i < 10 → first.toNat + i < 100 →
        tfind t.pkg.routes ((b2n chainNet * 128 + d) * 128 + (first.toNat + i)) =
          some (bits entries.toNat (4 * i + 3) (4 * i) % (if chainNet then 8 else 16))) ∧
      (∀ k, (∀ i, i < 10 → k ≠ (b2n chainNet * 128 + d) * 128 + (first.toNat + i)) → tfind t.pkg.routes k = tfind s.pkg.routes k)

/-- Failures in the package (R17, R350, R361): routers, ring dies, connections, their modules, and their retries; and the routes written around them. -/
def Obligations.PackageFailures : Prop :=
  Claims.DieAndConnectionFailures ∧ Claims.ModuleFailures ∧ Claims.AdapterRetryIsCounted ∧ Claims.RouteWrite

/-- FENCE at a die (R360): ACTION 1 stops the die's core, whose scratchpads lose their contents; the core is active no longer. ACTION 0 and
a die without a core change nothing but the chain's numbering. -/
def Claims.FenceStopsTheCore : Prop :=
  ∀ (f : Frame) (d : DieId) (action : BitVec 2) (epoch : BitVec 16) (s : State), NewMessage s d f →
    ∃ t, exec (.fence f d action epoch) s = .next t ∧
      (∀ c, dieCore d = some c → action = 1#2 → (core t c).halted = true ∧ coreActive t c = false ∧
        (MemoryCanonical s → ∀ a, 0x100000000000 + c * 0x100000000 ≤ a → a < 0x100000000000 + (c + 1) * 0x100000000 → mread t.mem a = 0)) ∧
      (action = 0#2 ∨ dieCore d = none → t = tookMessage s d f)

/-- Fencing a core (R359, R360): by an internal fault, by a request, and by a FENCE message. -/
def Obligations.CoreFencing : Prop := Claims.CoreFaultFences ∧ Claims.FenceRequest ∧ Claims.FenceStopsTheCore

/-! Pace and reference time (02). -/

/-- REFTIME_LOAD (R49): ignored while REFTIME_LOCKED is 1; a value at or above REFTIME is taken at once; a value below it is slewed to. The load
locks, and changes nothing else. -/
def Claims.ReftimeLoad : Prop :=
  ∀ (v : Word) (s : State),
    (s.clock.locked = true → exec (.reftimeLoad v) s = .next s) ∧
    (s.clock.locked = false → s.clock.reftime ≤ v.toNat →
      exec (.reftimeLoad v) s = .next { s with clock := { s.clock with reftime := v.toNat, locked := true } }) ∧
    (s.clock.locked = false → v.toNat < s.clock.reftime →
      exec (.reftimeLoad v) s = .next { s with clock := { s.clock with slew := ((v.toNat : Int) - s.clock.reftime) * 1000, locked := true } })

/-- REFTIME_SLEW, REFCLK_LOST, REFCLK_RETURN, REFTIME_DISTRIBUTION (R48, R49, R51): a newer offset replaces what remains of the last; the loss of
the clock is an event, once; its return slews the difference; each die takes the value distributed to it. -/
def Claims.ReferenceTime : Prop :=
  (∀ (z : Word) (s : State), exec (.reftimeSlew z) s = .next { s with clock := { s.clock with slew := z.toInt * 1000 } }) ∧
  (∀ s : State, s.clock.refclkLost = false → ∃ t, exec .refclkLost s = .next t ∧ t.clock = { s.clock with refclkLost := true } ∧
    LoggedEvent s t 0x102 1 []) ∧
  (∀ s : State, s.clock.refclkLost = true → exec .refclkLost s = .next s) ∧
  (∀ (z : Word) (s : State), s.clock.refclkLost = true →
    exec (.refclkReturn z) s = .next { s with clock := { s.clock with refclkLost := false, slew := z.toInt * 1000 } }) ∧
  (∀ (z : Word) (s : State), s.clock.refclkLost = false → exec (.refclkReturn z) s = .next s) ∧
  (∀ (d : DieId) (f : Frame) (v : Word) (s : State), NewMessage s d f → ∃ t, exec (.reftimeDistribution d f v) s = .next t ∧
    OnlyParts [.clock, .net] s t ∧ t.clock = { s.clock with dieTime := tset s.clock.dieTime d v.toNat })

/-- REFERENCE_CLOCK_EDGE (R47, R49, R50): without spread or slew REFTIME advances by 10; slewing moves it by at most 2/1000 ns an edge, toward
the offset; what the corrections leave over is carried to the next edge. -/
def Claims.ClockEdge : Prop :=
  ∀ (spread : Int) (s : State), ∃ t, exec (.referenceClockEdge spread) s = .next t ∧
    OnlyParts [.regs, .clock, .cores, .hst, .lifelines] s t ∧
    (spread = 0 → s.clock.slew = 0 → s.clock.frac = 0 → t.clock.reftime = (s.clock.reftime + 10) % 2 ^ 64 ∧ t.clock.frac = 0) ∧
    t.clock.slew = (if s.clock.slew > 2 then s.clock.slew - 2 else if s.clock.slew < -2 then s.clock.slew + 2 else 0) ∧
    (∀ n : Nat, (10000 + (s.clock.slew - t.clock.slew) + spread + s.clock.frac) / 10000 = n →
      t.clock.reftime = (s.clock.reftime + 10 * n) % 2 ^ 64 ∧ 0 ≤ t.clock.frac ∧ t.clock.frac < 10000)

/-- Reference time (R47 to R51): its load, slew, loss and return of the clock, distribution, and the clock's edge. -/
def Obligations.ReferenceTimeKeeping : Prop := Claims.ReftimeLoad ∧ Claims.ReferenceTime ∧ Claims.ClockEdge

/-- FLOOR_CHECK (R34, R54 rule 1): a core below its floor voltage goes up one step of 5 mV, to at most 850 mV; any other is left as it is. -/
def Claims.FloorCheck : Prop :=
  ∀ (c : CoreId) (s : State), ∃ t, exec (.floorCheck c) s = .next t ∧
    (vFloor s c ≤ (core s c).vcore → t = s) ∧
    ((core s c).vcore < vFloor s c → OnlyParts [.cores] s t ∧ (∀ d, d ≠ c.val → core t d = core s d) ∧
      core t c = { core s c with vcore := min 850 ((core s c).vcore + 5), floorActed := true })

/-- GOVERNOR_WINDOW_END (R54 to R56, R34; R10): before 10 microseconds of REFTIME have passed the window goes on; at its end VCORE moves by at most one step of 5 mV and not below the floor where it was not; a governor that is
off holds 850 mV; the window's record is taken and a new window opens; no other core changes. -/
def Claims.GovernorWindow : Prop :=
  ∀ (c : CoreId) (s : State), ∃ t, exec (.governorWindowEnd c) s = .next t ∧ OnlyParts [.cores] s t ∧
    (∀ d, d ≠ c.val → core t d = core s d) ∧
    (now s < (core s c).winSince + 10000 → t = s) ∧
    ((core s c).winSince + 10000 ≤ now s →
      (core t c).shares = [0, 0, 0, 0] ∧ (core t c).winStitches = 0 ∧ (core t c).paceMeas = (core s c).winStitches / 10 ∧
      (core t c).winState = dominant (core s c).shares ∧ (core t c).winSince = now s ∧
      (objNat s 0x201101 = 1 → (core t c).vcore ≤ (core s c).vcore + 5 ∧ (core s c).vcore ≤ (core t c).vcore + 5 ∨ 850 < (core s c).vcore) ∧
      (vFloor s c ≤ (core s c).vcore → vFloor s c ≤ (core t c).vcore) ∧
      (objNat s 0x201101 ≠ 1 → vFloor s c ≤ (core s c).vcore → pwrLimiting s = false → (core t c).vcore = 850))

/-- The governor (R34, R54 to R56): the check of the floor, and the end of a window. -/
def Obligations.GovernorSteps : Prop := Claims.FloorCheck ∧ Claims.GovernorWindow

/-- LONG_STALL_EVENT (R46, R246, R378, R414): a stall, the wait of a task before GO, a message that waits for its port, or a barrier older than
0x2014:02 microseconds is an event, once; nothing ends. -/
def Claims.LongStalls : Prop :=
  (∀ (c : CoreId) (st : Stall) (s : State), (core s c).stall = some st → st.reported = false →
    objNat s 0x201402 * 1000 < now s - st.since → ∃ t, exec (.longStallEvent (.core c)) s = .next t ∧
      SentEvent s t (coreDie c) 0x202 1 [c.val, st.resource] ∧ (core t c) = { core s c with stall := some { st with reported := true } }) ∧
  (∀ (n : StrandId) (m : SentMsg) (s : State), s.unsent.find? (fun m => m.strand == n.val && !m.reported) = some m → m.die ≠ mgtDie →
    objNat s 0x201402 * 1000 < now s - m.since → ∃ t, exec (.longStallEvent (.strand n)) s = .next t ∧
      SentEvent s t m.die 0x202 1 [n.val, resPort]) ∧
  (∀ (k : SlotId) (s : State), (slotOf s k).busy = true → (slotOf s k).opcode = opBarrier → (slotOf s k).written = false →
    (slotOf s k).reported = false → objNat s 0x201402 * 1000 < now s - (slotOf s k).since →
    ∃ t, exec (.longStallEvent (.barrier k)) s = .next t ∧ SentEvent s t hstDie 0x202 1 [k.val, resBarrier] ∧
      slotOf t k = { slotOf s k with reported := true }) ∧
  (∀ (c : CoreId) (w : CoreTask) (s : State), (core s c).stall = none → (core s c).task = some w → issueWait s c = true →
    (slotOf s w.slot).reported = false → objNat s 0x201402 * 1000 < now s - (slotOf s w.slot).since →
    ∃ t, exec (.longStallEvent (.core c)) s = .next t ∧ SentEvent s t (coreDie c) 0x202 1 [c.val, resWait] ∧
      slotOf t w.slot = { slotOf s w.slot with reported := true } ∧ core t c = core s c) ∧
  (∀ (c : CoreId) (s : State), (core s c).stall = none → issueWait s c = false → exec (.longStallEvent (.core c)) s = .next s)

/-! The registers that clear counters (the register tables of 02 to 20). -/

/-- A write of a CLEAR register with bit 0 set returns its table's counters to their reset values and changes no other register and nothing else;
with bit 0 clear nothing changes. -/
def Claims.ClearRegisters : Prop :=
  let Clears (c : Instr) (v : Word) (inRange : Nat → Prop) : Prop := ∀ s : State, ∃ t, exec c s = .next t ∧ OnlyParts [.regs] s t ∧
    (∀ off, bit v.toNat 0 = true → inRange off → reg t off = regReset off) ∧
    (∀ off, bit v.toNat 0 = false ∨ ¬ inRange off → reg t off = reg s off)
  let From (a b : Nat) (off : Nat) : Prop := a ≤ off ∧ off ≤ b
  (∀ (c : CoreId) (v : Word), Clears (.corePaceClear c v) v (From (coreOff c CORE_STALL_SCHED_NS) (coreOff c CORE_OVR_NS))) ∧
  (∀ (c : CoreId) (v : Word), Clears (.coreNumClear c v) v (From (coreOff c CORE_NUM_SAT_COUNT) (coreOff c CORE_NUM_SR_COUNT))) ∧
  (∀ (c : CoreId) (v : Word), Clears (.coreFmtClear c v) v (From (coreOff c CORE_FMT_FAULT_COUNT) (coreOff c CORE_FMT_LAST_FAULT))) ∧
  (∀ (c : CoreId) (v : Word), Clears (.coreLaneClear c v) v (From (coreOff c CORE_LANE_SEG_COUNT) (coreOff c CORE_LANE_LAST_FAULT))) ∧
  (∀ (c : CoreId) (v : Word), Clears (.coreAccClear c v) v (From (coreOff c CORE_ACC_UPDATE_COUNT) (coreOff c CORE_ACC_LAST_GROUP))) ∧
  (∀ (c : CoreId) (v : Word), Clears (.coreRfuClear c v) v (From (coreOff c CORE_RFU_ELEM_COUNT) (coreOff c CORE_PRED_WIDEN_COUNT))) ∧
  (∀ (c : CoreId) (v : Word), Clears (.loopClear c v) v (From (coreOff c LOOP_REFUSE_COUNT) (coreOff c LOOP_ISSUE_WAIT_NS))) ∧
  (∀ (c : CoreId) (v : Word), Clears (.fetClear c v) v (From (coreOff c FET_TAG_ISSUE_COUNT) (coreOff c FET_CANCEL_COUNT))) ∧
  (∀ (c : CoreId) (v : Word), Clears (.queClear c v) v (From (coreOff c QUE_PKT_IN_COUNT) (coreOff c QUE_FULL_WAIT_NS))) ∧
  (∀ (c : CoreId) (v : Word), Clears (.lceClear c v) v (From (coreOff c LCE_ELEM_COUNT) (coreOff c LCE_LAST_FAULT))) ∧
  (∀ (c : CoreId) (v : Word), Clears (.coreXltClear c v) v (From (coreOff c CORE_XLT_MISS_COUNT) (coreOff c CORE_XLT_FAULT_COUNT))) ∧
  (∀ (k : StackId) (v : Word), Clears (.mifClear k v) v (fun off => From (mifOff k MIF_CRC_RETRY_COUNT) (mifOff k MIF_RETRAIN_NS) off ∨
      From (mifOff k MIF_BYTES_READ) (mifOff k MIF_LAST_ERROR) off)) ∧
  (∀ (p : FarPort) (v : Word), Clears (.farClear p v) v (From (farOff p FAR_LINK_RETRY_COUNT) (farOff p FAR_BYTES_WRITTEN))) ∧
  (∀ (d : DieId) (v : Word), Clears (.mgtRtrClear d v) v (From (rtrOff d MGT_RTR_FWD_BYTES) (rtrOff d MGT_RTR_NACK_COUNT))) ∧
  (∀ (p : PortId) (v : Word), Clears (.lnkPortClear p v) v (From (portOff p LNK_FEC_CORR_COUNT) (portOff p LNK_CTRL_BAD_COUNT))) ∧
  (∀ (d : LnkDie) (v : Word), Clears (.lnkDieClear d v) v (From (lnkOff d LNK_STRAND_MISS_COUNT) (lnkOff d LNK_LOST_BYTES))) ∧
  (∀ v : Word, Clears (.hstClear v) v (From (hstOff HST_TASK_COUNT) (hstOff HST_CFG_REJECT_COUNT))) ∧
  (∀ v : Word, Clears (.mgtLlClear v) v (From (llOff MGT_LL_COMMIT_COUNT) (llOff MGT_LL_UNPROT_STEPS))) ∧
  (∀ v : Word, Clears (.mgtPwrClear v) v (From (pwrOff MGT_THROTTLE_NS) (pwrOff MGT_BINDOFF_COUNT)))

/-- SPM_CLEAR clears counters with bit 0 and CFG_REJECT with bit 1 (08); SEC_CLEAR clears LOCK_REJECT with bit 0 (20). -/
def Claims.ClearFlags : Prop :=
  (∀ (c : CoreId) (v : Word) (s : State), ∃ t, exec (.spmClear c v) s = .next t ∧ OnlyParts [.regs, .cores] s t ∧
    (∀ off, bit v.toNat 0 = true → coreOff c SPM_DET_WMEM_COUNT ≤ off → off ≤ coreOff c SPM_PWR_ABANDON_COUNT → reg t off = regReset off) ∧
    (bit v.toNat 0 = false → t.regs = s.regs) ∧ (∀ d, d ≠ c.val → core t d = core s d) ∧
    core t c = (if bit v.toNat 1 then { core s c with cfgReject := false } else core s c)) ∧
  (∀ (v : Word) (s : State), exec (.secClear v) s =
    .next (if bit v.toNat 0 then { s with sec := { s.sec with lockReject := false } } else s))

/-- The registers that clear counters and flags (the register tables of 02 to 20). -/
def Obligations.CounterClears : Prop := Claims.ClearRegisters ∧ Claims.ClearFlags

/-! Hardware queues (11). -/

/-- QUEUE_ENABLE (R284): writing ENABLE of a disabled queue binds it to its region, whose HEAD and TAIL become offset 0; a refused enable reads
back 0 and BIND_RESULT gives the cause; the word of an enabled queue is ignored with CFG_REJECT unless it clears ENABLE, which drops the
queue's packets. -/
def Claims.QueueEnable : Prop :=
  ∀ (q : HwQueue) (v : Word) (s : State), ∃ t, exec (.queueEnable q v) s = .next t ∧
    ((queue s q).enabled = false → bit v.toNat 0 = false → t = setReg s (queOff q 0) (bits v.toNat 33 0)) ∧
    ((queue s q).enabled = true → bit v.toNat 0 = true → t = updCore s (queCore q) (fun x => { x with cfgReject := true })) ∧
    ((queue s q).enabled = true → bit v.toNat 0 = false → (queue t q).enabled = false ∧ (queue t q).readable = 0 ∧ (queue t q).waiting = [] ∧
      (queue t q).open_ = none ∧ reg t (queOff q 0) = bits v.toNat 33 0 % 2 ^ 64) ∧
    ((queue s q).enabled = false → bit v.toNat 0 = true → bindResult s q (bits v.toNat 33 0) ≠ 0 →
      queue t q = { queue s q with bindResult := bindResult s q (bits v.toNat 33 0) } ∧ bit (reg t (queOff q 0)) 0 = false ∧
      (∀ off, off ≠ queOff q 0 → reg t off = reg s off)) ∧
    ((queue s q).enabled = false → bit v.toNat 0 = true → bindResult s q (bits v.toNat 33 0) = 0 →
      (queue t q).enabled = true ∧ (queue t q).len = regionLen s (queCore q) 1 (bits v.toNat 9 4) ∧ (queue t q).readable = 0 ∧
      reg t (regionOff (queCore q) 1 (bits v.toNat 9 4) 1) = 0)

/-- OPEN (R286, R294, R296): an open packet takes the next number and its first row; without room the native policy drops it and counts it,
the DX8 policy holds the write back. -/
def Claims.QueueOpen : Prop :=
  ∀ (q : HwQueue) (p : Producer) (s : State), portOk s q p = true → (queue s q).open_ = none → (queue s q).held = none →
    ∃ t, exec (.openPacket q p) s = .next t ∧
      (hasRoom s q = true → (queue t q).open_ = some { seq := (queue s q).seqNext, pos := landPos s q, rows := 1, after := (queue s q).markers } ∧
        (queue t q).seqNext = ((queue s q).seqNext + 1) % 65536 ∧ (queue t q).landed = (queue s q).landed + 1) ∧
      (hasRoom s q = false → quePolicy s q = false → (queue t q).seqNext = ((queue s q).seqNext + 1) % 65536 ∧
        (∃ k, (queue t q).open_ = some k ∧ k.dropped = true ∧ k.seq = (queue s q).seqNext) ∧
        reg t (coreOff (queCore q) QUE_DROP_PKT_COUNT) = (reg s (coreOff (queCore q) QUE_DROP_PKT_COUNT) + 1) % 2 ^ 64) ∧
      (hasRoom s q = false → quePolicy s q = true → queue t q = { queue s q with held := some none })

/-- A host write to the port of a queue that does not take it is dropped and recorded (R286, R420, R421): OPEN of an open packet, DATA or CLOSE
without one. -/
def Claims.QueueProtocolDropsHostWrites : Prop :=
  ∀ (q : HwQueue) (v : Word) (s : State), portOk s q .host = false →
    let Dropped (c : Instr) : Prop := ∃ t, exec c s = .next t ∧ queue t q = queue s q ∧
      reg t (hstOff HST_LAST_DROP) = (stQueueProtocol + 2 * 2 ^ 16 + q * 2 ^ 18) % 2 ^ 64 ∧
      reg t (hstOff HST_POSTED_DROP_COUNT) = (reg s (hstOff HST_POSTED_DROP_COUNT) + 1) % 2 ^ 64
    Dropped (.openPacket q .host) ∧ Dropped (.data q .host v) ∧ Dropped (.close q .host)

/-- DATA and CLOSE (R286, R287): a word that stays in the packet's row is stored behind the others and no other byte of memory changes; a close
writes the length word at the packet's start and makes the packet wait to become readable. -/
def Claims.QueueDataAndClose : Prop :=
  ∀ (q : HwQueue) (p : Producer) (k : QPacket) (s : State), portOk s q p = true → (queue s q).open_ = some k → (queue s q).held = none →
    k.dropped = false → MemoryCanonical s →
    (∀ v : Word, k.n % 64 ≠ 0 → ∃ t, exec (.data q p v) s = .next t ∧ (queue t q).open_ = some { k with n := k.n + 1 } ∧
      rd64 t (queRowDpa s q (k.pos + k.n / 64) + 8 * (k.n % 64)) = v.toNat ∧
      (∀ a, a < queRowDpa s q (k.pos + k.n / 64) + 8 * (k.n % 64) ∨ queRowDpa s q (k.pos + k.n / 64) + 8 * (k.n % 64) + 8 ≤ a →
        mread t.mem a = mread s.mem a) ∧ OnlyParts [.mem, .queues] s t) ∧
    ((queue s q).flushPending = false → ∃ t, exec (.close q p) s = .next t ∧ (queue t q).open_ = none ∧
      (queue t q).waiting = (queue s q).waiting ++ [{ k with committed := queKind s q != 0 }] ∧
      rd64 t (queRowDpa s q k.pos) = (8 * (k.n - 1) % 2 ^ 32 + k.seq * 2 ^ 32) % 2 ^ 64 ∧
      (∀ a, a < queRowDpa s q k.pos ∨ queRowDpa s q k.pos + 8 ≤ a → mread t.mem a = mread s.mem a) ∧
      OnlyParts [.mem, .cores, .queues] s t)

/-- Writes to a queue's port (R286, R287, R294, R296, R420, R421): OPEN, DATA and CLOSE, and the writes that the port does not take. -/
def Obligations.QueueWrites : Prop := Claims.QueueOpen ∧ Claims.QueueProtocolDropsHostWrites ∧ Claims.QueueDataAndClose

/-- PACKET_READABLE and MARKER_QUIET_TIMEOUT (R288, R295): the first packet that may become readable does, and the region's TAIL passes its
rows; a pending marker with a row becomes readable alone once it has been quiet for 1 microsecond. In a queue with no marker
filled to 65,535 drops. -/
def Claims.QueueReadable : Prop :=
  (∀ (q : HwQueue) (k : QPacket) (rest : List QPacket) (s : State), (queue s q).waiting = k :: rest → k.committed = true →
    (queue s q).marker = none → (queue s q).fullMarkers = [] → (core s (queCore q)).stall = none → ∃ t, exec (.packetReadable q) s = .next t ∧
      queue t q = { queue s q with waiting := rest, readable := (queue s q).readable + k.rows, landed := (queue s q).landed - k.rows } ∧
      OnlyParts [.regs, .queues] s t ∧
      reg t (coreOff (queCore q) QUE_PKT_IN_COUNT) = (reg s (coreOff (queCore q) QUE_PKT_IN_COUNT) + 1) % 2 ^ 64) ∧
  (∀ (q : HwQueue) (s : State), (queue s q).waiting = [] → (queue s q).fullMarkers = [] → (core s (queCore q)).stall = none → exec (.packetReadable q) s = .next s) ∧
  (∀ (q : HwQueue) (m : QMarker) (pos : Nat) (s : State), (queue s q).marker = some m → m.row = some pos → (queue s q).fullMarkers = [] → (queue s q).open_ = none →
    (queue s q).waiting.all (afterMarker m) = true → m.tLast + 1000 ≤ now s → ∃ t, exec (.markerQuietTimeout q) s = .next t ∧
      queue t q = { queue s q with marker := none, readable := (queue s q).readable + 1, landed := (queue s q).landed - 1 } ∧
      OnlyParts [.regs, .mem, .cores, .queues] s t ∧
      reg t (coreOff (queCore q) QUE_MARK_COUNT) = (reg s (coreOff (queCore q) QUE_MARK_COUNT) + 1) % 2 ^ 64) ∧
  (∀ (q : HwQueue) (s : State), (queue s q).marker = none → exec (.markerQuietTimeout q) s = .next s)

/-- A queue is bound and unbound (R284), and its packets and markers become readable (R288, R295). -/
def Obligations.QueueBindsAndReads : Prop := Claims.QueueEnable ∧ Claims.QueueReadable

/-- QUEUE_CREDIT, QUEUE_RELEASE, DISCARD and QUEUE_FLUSH on a queue at which no write waits (R293, R296, R298, R299): credits are added; a release
of more rows than are readable shows RESULT 2 and frees none; a discard drops the rest of the packet at the read position; a flush leaves the
queue empty. -/
def Obligations.QueueFrees : Prop :=
  (∀ (f : Frame) (c : CoreId) (q : HwQueue) (rows : BitVec 13) (s : State), NewMessage s (coreDie c) f → QueueQuiet s q →
    exec (.queueCredit f c q rows) s =
      .next (updQueue (tookMessage s (coreDie c) f) q (fun x => { x with credits := x.credits + rows.toNat }))) ∧
  (∀ (q : HwQueue) (rows : BitVec 13) (s : State), ((queue s q).readable < rows.toNat →
      exec (.queueRelease q rows) s = .next (updQueue s q (fun x => { x with result := 2 }))) ∧
    (rows.toNat ≤ (queue s q).readable → QueueQuiet s q → (queue s q).fullMarkers = [] → ∃ t, exec (.queueRelease q rows) s = .next t ∧
      (queue t q).result = 0 ∧ (queue t q).readable = (queue s q).readable - rows.toNat)) ∧
  (∀ (q : HwQueue) (by_ : Consumer) (s : State), ((queue s q).readable = 0 →
      exec (.discard q by_) s = .next (updQueue s q (fun x => { x with result := 2 })))) ∧
  (∀ (q : HwQueue) (s : State), (queue s q).readable ≠ 0 → QueueQuiet s q → (queue s q).fullMarkers = [] → ∃ t, exec (.discard q .software) s = .next t ∧
    (queue t q).result = 0 ∧
    (queue t q).readable = (queue s q).readable - rowsToLast s q (queue s q).readable (readPos s q)) ∧
  (∀ (q : HwQueue) (n : Nat) (s : State), (queue s q).readable ≠ 0 → rowsToLast s q (queue s q).readable (readPos s q) = n →
    n ≤ regionHeld s (queCore q) 1 (queRegion s q) → ∃ t, exec (.discard q .task) s = .next t ∧ (queue t q).result = 0 ∧
      regionPtr t (queCore q) 1 (queRegion s q) = ptrWord (regionLen s (queCore q) 1 (queRegion s q))
        (ptrHead (regionLen s (queCore q) 1 (queRegion s q)) (regionPtr s (queCore q) 1 (queRegion s q)) + n)
        (ptrTail (regionLen s (queCore q) 1 (queRegion s q)) (regionPtr s (queCore q) 1 (queRegion s q))) % 2 ^ 64) ∧
  (∀ (q : HwQueue) (s : State), (queue s q).flushPending = true → exec (.queueFlush q) s = .next s) ∧
  (∀ (q : HwQueue) (s : State), (queue s q).flushPending = false → QueueQuiet s q →
    ∃ t, exec (.queueFlush q) s = .next t ∧ (queue t q).readable = 0 ∧ (queue t q).waiting = [] ∧ (queue t q).marker = none ∧
      (queue t q).fullMarkers = [] ∧ (queue t q).result = 0 ∧ (queue t q).flushPending = (queue s q).open_.isSome)

/-! Row counters (05 R129 to R134, 06 R153, R160, 09 R250 to R256). -/

/-- Arming (R250, R251, R253, R256): ARM0, ARM1 and ARM2 set the counter's fields and ARM2 answers ARMED once the summary is read through the
slices, at u, and pinned (05 R132), or ends the task where a line of it cannot be read; ARMED releases the task's slot; REARM sets the counts to 0, clears the owners and keeps the
summary; DISARM releases the counter. No other counter changes. -/
def Claims.RowCounterArming : Prop :=
  (∀ (f : Frame) (c : CounterId) (s : State), NewMessage s (sliceDie (counterSlice c)) f →
    let slice := sliceDie (counterSlice c)
    (∀ chunkLog k, ∃ t, exec (.arm0 f c chunkLog k) s = .next t ∧ OnlyParts [.counters, .net] s t ∧
      rowCounter t c = { rowCounter s c with chunkLog := chunkLog.toNat, k := k.toNat } ∧ ∀ d, d ≠ c.val → rowCounter t d = rowCounter s d) ∧
    (∀ n, ∃ t, exec (.arm1 f c n) s = .next t ∧ OnlyParts [.counters, .net] s t ∧
      rowCounter t c = { rowCounter s c with strand := n } ∧ ∀ d, d ≠ c.val → rowCounter t d = rowCounter s d) ∧
    (∀ (base : BitVec 48) (u : State), getRange (armedAt s c f base.toNat) (rowCounter s c).strand base.toNat (4 * ((rowCounter s c).k + 1)) = (u, stSuccess) →
      ∃ t, exec (.arm2 f c base) s = .next t ∧ OnlyParts [.counters, .net] u t ∧ Sent u t slice hstDie (.armed c) ∧
        rowCounter t c = { rowCounter s c with armed := true, reserved := false, summaryBase := base.toNat, attempt := 0, next := 0,
                                               owners := [], counts := [], final := [], based := 0,
                                               outBase := outRp0 s (rowCounter s c).slot,
                                               pin := (List.range ((rowCounter s c).k + 1)).map
                                                 (summaryAt u (.va (rowCounter s c).strand) base.toNat) } ∧
        ∀ d, d ≠ c.val → rowCounter t d = rowCounter s d) ∧
    (∀ (base : BitVec 48) (u : State) e, getRange (armedAt s c f base.toNat) (rowCounter s c).strand base.toNat (4 * ((rowCounter s c).k + 1)) = (u, e) →
      e ≠ stSuccess → (slotOf u (rowCounter s c).slot).busy = true → (slotOf u (rowCounter s c).slot).ending = false →
      (slotOf u (rowCounter s c).slot).written = false → ∃ t, exec (.arm2 f c base) s = .next t ∧
        (slotOf t (rowCounter s c).slot).ending = true ∧ (slotOf t (rowCounter s c).slot).status = e ∧
        (slotOf t (rowCounter s c).slot).srcDie = slice) ∧
    (∀ attempt, (rowCounter s c).armed = true → ∃ t, exec (.rearm f c attempt) s = .next t ∧ OnlyParts [.counters, .net] s t ∧
      rowCounter t c = { rowCounter s c with attempt := attempt.toNat, next := 0, owners := [], counts := [], final := [], based := 0 } ∧
      ∀ d, d ≠ c.val → rowCounter t d = rowCounter s d) ∧
    (∃ t, exec (.disarm f c) s = .next t ∧ OnlyParts [.counters, .net] s t ∧ rowCounter t c = {} ∧
      ∀ d, d ≠ c.val → rowCounter t d = rowCounter s d)) ∧
  (∀ (f : Frame) (c : CounterId) (s : State), NewMessage s hstDie f → (slotOf s (rowCounter s c).slot).busy = true →
    (slotOf s (rowCounter s c).slot).counter = some c.val → ∃ t, exec (.armed f c) s = .next t ∧
      (slotOf t (rowCounter s c).slot).armedCounter = true ∧ ∀ k, k ≠ (rowCounter s c).slot → slotOf t k = slotOf s k)

/-- CLAIM, ANSWER and the local counter (05 R129, R133, R134, R252, R255): a claim takes the lowest chunk, which the slice records with its
owner, and its answer carries the chunk's two summary entries; no chunk left answers empty; a claim of another attempt or from a fenced
core is discarded and counted; an answer's chunk is queued at the core, and an empty answer ends its claims. -/
def Obligations.RowCounterClaims : Prop :=
  (∀ (f : Frame) (c : CounterId) (attempt : BitVec 2) (n : Nat) (s : State), NewMessage s (sliceDie (counterSlice c)) f → dieCore f.src = some n →
    (rowCounter s c).armed = true →
    let slice := sliceDie (counterSlice c)
    let x := rowCounter s c
    (attempt.toNat ≠ x.attempt ∨ coreActive s n = false → ∃ t, exec (.claim f c attempt) s = .next t ∧ OnlyParts [.hst, .net] s t ∧
      t.net.chain = s.net.chain ∧ t.hst = { s.hst with claimsDropped := s.hst.claimsDropped + 1 }) ∧
    (attempt.toNat = x.attempt → coreActive s n = true → chunkCount x ≤ x.next → ∃ t, exec (.claim f c attempt) s = .next t ∧
      OnlyParts [.net] s t ∧ Sent s t slice f.src (.answer n c x.attempt true 0 0 0)) ∧
    (attempt.toNat = x.attempt → coreActive s n = true → x.next < chunkCount x → ∃ t, exec (.claim f c attempt) s = .next t ∧
      OnlyParts [.counters, .net] s t ∧ rowCounter t c = { x with next := x.next + 1, owners := tset x.owners x.next n } ∧
      Sent s t slice f.src (.answer n c x.attempt false x.next (pinned x (x.next * 2 ^ x.chunkLog))
        (pinned x (min ((x.next + 1) * 2 ^ x.chunkLog) x.k))))) ∧
  (∀ (f : Frame) (c : CoreId) (counter : CounterId) (attempt : BitVec 2) (empty : Bool) (chunk : BitVec 21) (i0 i1 : BitVec 32) (w : CoreTask)
    (s : State), NewMessage s (coreDie c) f → (core s c).task = some w → w.counter = some counter.val → w.claimInFlight = true →
    w.attempt = attempt.toNat → ∃ t, exec (.answer f c counter attempt empty chunk i0 i1) s = .next t ∧
      (empty = true → (core t c).task = some { w with claimInFlight := false, dry := true } ∧ OnlyParts [.cores, .net] s t) ∧
      (empty = false → sSource w.table (claimSlot w) ≠ 1 →
        (core t c).chunks = (core s c).chunks ++ [answeredChunk s c w chunk.toNat i0.toNat i1.toNat] ∧
        (core t c).requests = (core s c).requests ++ chunkReqs s w (answeredChunk s c w chunk.toNat i0.toNat i1.toNat) ∧
        reg t (coreOff c CORE_CLAIM_COUNT) = (reg s (coreOff c CORE_CLAIM_COUNT) + 1) % 2 ^ 64 ∧ OnlyParts [.regs, .cores, .net] s t)) ∧
  (∀ (c : CoreId) (w : CoreTask) (s : State), (core s c).task = some w → w.copy = false → claimsMode w.table = true → w.counter = none →
    w.claimInFlight = true → w.phase = 4 → posEnd w - posFirst w ≤ w.localNext.getD 0 * chunkSize w.table →
    ∃ t, exec (.localClaim c) s = .next t ∧ OnlyParts [.cores] s t ∧
      (core t c).task = some { w with localNext := some (w.localNext.getD 0 + 1), claimInFlight := false, dry := true })

/-- OWNER, OWNER_ANS, REPORT and BASE (06 R153, R160, 09 R252): a query for a recorded chunk is answered with its owner, which the core keeps; a
report adds to its chunk's count, and one of another attempt is discarded and counted; bases come to the core in order. -/
def Claims.OwnersAndCounts : Prop :=
  (∀ (f : Frame) (c : CounterId) (chunk : BitVec 21) (n h : Nat) (s : State), NewMessage s (sliceDie (counterSlice c)) f → dieCore f.src = some n →
    tfind (rowCounter s c).owners chunk.toNat = some h → ∃ t, exec (.owner f c chunk) s = .next t ∧ OnlyParts [.net] s t ∧
      Sent s t (sliceDie (counterSlice c)) f.src (.ownerAns n c chunk.toNat h)) ∧
  (∀ (f : Frame) (c : CoreId) (counter : CounterId) (chunk : BitVec 21) (home : CoreId) (w : CoreTask) (s : State), NewMessage s (coreDie c) f →
    (core s c).task = some w → w.counter = some counter.val → ∃ t, exec (.ownerAns f c counter chunk home) s = .next t ∧
      OnlyParts [.cores, .net] s t ∧ core t c = { core s c with owners := tset (core s c).owners chunk.toNat home }) ∧
  (∀ (f : Frame) (c : CounterId) (attempt : BitVec 2) (chunk : BitVec 21) (count : BitVec 26) (final : Bool) (s : State),
    NewMessage s (sliceDie (counterSlice c)) f → (rowCounter s c).armed = true →
    (attempt.toNat ≠ (rowCounter s c).attempt → ∃ t, exec (.report f c attempt chunk count final) s = .next t ∧ OnlyParts [.hst, .net] s t ∧
      t.hst = { s.hst with claimsDropped := s.hst.claimsDropped + 1 }) ∧
    (attempt.toNat = (rowCounter s c).attempt → ∃ t, exec (.report f c attempt chunk count final) s = .next t ∧
      OnlyParts [.counters, .net] s t ∧
      (rowCounter t c).counts = tmod 0 (rowCounter s c).counts chunk.toNat (· + count.toNat) ∧
      (final = true → (rowCounter t c).final.contains chunk.toNat = true) ∧ (rowCounter s c).based ≤ (rowCounter t c).based)) ∧
  (∀ (f : Frame) (c : CoreId) (counter : CounterId) (value : BitVec 48) (w : CoreTask) (s : State), NewMessage s (coreDie c) f →
    (core s c).task = some w → w.counter = some counter.val → w.counted = false → ∃ t, exec (.base f c counter value) s = .next t ∧
      OnlyParts [.cores, .net] s t ∧ core t c = { core s c with bases := (core s c).bases ++ [value.toNat] })

/-- Row counters (R153, R160, R250 to R256): arming, release, owners, counts and bases. -/
def Obligations.RowCounterArmsAndOwners : Prop := Claims.RowCounterArming ∧ Claims.OwnersAndCounts

/-! Passes and stitches (02 R32 to R37, 06 R154 to R160, 07 R172, R187). -/

/-- The send pass, the announcements, the start of the merge pass and the fused bands (06 R154, R155, R157, R160; 07 R172). The merge pass waits while the scoreboard holds a range that it needs (08 R208). A pass starts at the
state u that its reads of the records leave (R143, 08 R217); where they wait or fail it does not start. In match mode the records are
sorted into blocks and runs (R158), at v, before they are counted. Each foreign row holds a tag until it is
acknowledged (01 R535): rows that find no tag free wait, and the announcements leave with the last of them. -/
def Obligations.MergePasses : Prop :=
  (∀ (c : CoreId) (w : CoreTask) (s : State), (core s c).task = some w → w.copy = false → claimsMode w.table = true → w.phase = 4 →
    w.sent = false → claimsOver s c w = true →
    let Rows (u t : State) (rows : List (Nat × List Byte)) : Prop :=
      t.net.bulk.map (fun x => (x.src, x.dst, x.type, x.tag, x.data)) = u.net.bulk.map (fun x => (x.src, x.dst, x.type, x.tag, x.data)) ++
        ((freeTags u c).zip rows).map (fun p => (coreDie c, coreDie p.2.1, .write, p.1, p.2.2)) ∧
      (core t c).tags = ((freeTags u c).zip rows).foldl (fun l p => tset l p.1 { task := w.slot, write := true, kind := 3, since := now u }) (core u c).tags
    let Announced (u t : State) (l : List (Nat × Nat × Nat)) : Prop :=
      t.net.chain.map (fun x => (x.src, x.dst, x.msg)) = u.net.chain.map (fun x => (x.src, x.dst, x.msg)) ++
        l.map (fun p => (coreDie c, coreDie p.1, .announce p.1 p.2.1 p.2.2))
    (∀ rows, w.outbox = some rows →
      (rows.length ≤ (freeTags s c).length → ∃ t, exec (.sendPass c) s = .next t ∧ OnlyParts [.regs, .cores, .net] s t ∧ Rows s t rows ∧
        Announced s t w.announces ∧ (core t c).task = some { w with outbox := some [], sent := true } ∧ (core t c).accPhase = 3 ∧
        (core t c).stall = if w.counter.isSome then some (passStall s resForeign) else (core s c).stall) ∧
      ((freeTags s c).length < rows.length → ∃ t, exec (.sendPass c) s = .next t ∧ OnlyParts [.regs, .cores, .net] s t ∧ Rows s t rows ∧
        t.net.chain = s.net.chain ∧ (core t c).task = some { w with outbox := some (rows.drop (freeTags s c).length) } ∧
        (core t c).accPhase = (core s c).accPhase)) ∧
    (w.outbox = none → (laneMode w.table = 3 → (core s c).spillBuf = []) →
      (∀ u, (foreignChunks s c w).all (fun f => (ownerOf s c (homeChunk s c w f.2)).isSome) = true →
        (if (foreignChunks s c w).isEmpty then (s, true) else readRecords s c w false) = (u, true) → (core u c).task = some w →
        let rows := (sendPlan u c w).flatMap (fun p => p.2.2.map (fun d => (p.2.1, d)))
        rows.length ≤ (freeTags u c).length → ∃ t, exec (.sendPass c) s = .next t ∧ OnlyParts [.regs, .cores, .net] u t ∧ Rows u t rows ∧
          Announced u t ((sendPlan u c w).map (fun p => (p.2.1, p.1, p.2.2.length))) ∧
          core t c = { takenOut w ((foreignChunks u c w).map (·.2)) (core u c) with
            task := some { w with outbox := some [], announces := (sendPlan u c w).map (fun p => (p.2.1, p.1, p.2.2.length)), sent := true }
            tags := (core t c).tags, accPhase := 3, stall := if w.counter.isSome then some (passStall u resForeign) else (core u c).stall }) ∧
      (∀ u, (foreignChunks s c w).all (fun f => (ownerOf s c (homeChunk s c w f.2)).isSome) = true → (foreignChunks s c w).isEmpty = false →
        readRecords s c w false = (u, false) → exec (.sendPass c) s = .next u) ∧
      ((foreignChunks s c w).all (fun f => (ownerOf s c (homeChunk s c w f.2)).isSome) = false → ∃ t, exec (.sendPass c) s = .next t ∧
        (core t c).accPhase = 2 ∧ (core t c).task = some w ∧ OnlyParts [.cores, .net] s t))) ∧
  (∀ (f : Frame) (c : CoreId) (chunk : BitVec 21) (rows : BitVec 32) (s : State), NewMessage s (coreDie c) f →
    ∃ t, exec (.foreignAnnouncement f c chunk rows) s = .next t ∧ OnlyParts [.cores, .net] s t ∧
      ((core s c).foreignOpen = true → core t c = { core s c with announced := (core s c).announced ++ [(chunk.toNat, rows.toNat)] }) ∧
      ((core s c).foreignOpen = false → core t c = core s c)) ∧
  (∀ (c : CoreId) (w : CoreTask) (s : State), (core s c).task = some w →
    let may := mergeMayStart s c w && !sbWaits s c (mergeRanges s c w).1 (mergeRanges s c w).2
    (may = false → exec (.mergePassStart c) s = .next s) ∧
    (∀ u, may = true → readRecords s c w true = (u, false) → exec (.mergePassStart c) s = .next u) ∧
    (∀ u v, may = true → laneMode w.table = 3 → readRecords s c w true = (u, true) → sortPass u c w = (v, none) →
      exec (.mergePassStart c) s = .next v) ∧
    (∀ u v l k, may = true → laneMode w.table = 3 → w.counter = some k → readRecords s c w true = (u, true) →
      sortPass u c w = (v, some l) → (core v c).task = some w → (core v c).bases.length < (ownChunks v c).length →
      ∃ t, exec (.mergePassStart c) s = .next t ∧ (core t c).accPhase = 6 ∧ (∃ x, (core t c).task = some x ∧ x.counted = true ∧ x.runs = l) ∧
        (core t c).stall = some (passStall v resBase) ∧ OnlyParts [.regs, .cores, .net] v t ∧
        t.net.chain.map (fun x => (x.dst, x.msg)) = v.net.chain.map (fun x => (x.dst, x.msg)) ++ (ownChunks v c).flatMap (fun j =>
          (countReports (chunkNonZeros v c w j (outNonZeros v c { w with runs := l })).length).map (fun r =>
            (sliceDie (counterSlice k), .report k w.attempt j.idx r.1 r.2)))) ∧
    (∀ u v, may = true → laneMode w.table = 2 → readRecords s c w true = (u, true) →
      let sums := (List.range (panelCount w (lastProd w.table))).flatMap (fun q => sumRows u c w (lastProd w.table) 0 q)
      takeRows u c (heldSums u c sums) sums = (v, true) → foreignRecs v c w = [] → (core v c).task = some w → w.outDone ≠ outTotal w →
      (zeroLevels w).isEmpty = true →
      ∃ t, exec (.mergePassStart c) s = .next t ∧ core t c = { core (ovfFree v c (aOvfBase w.table) (core v c).foreignOvf) c with
        task := some { w with merged := true }, accPhase := 7, stall := if passWait (core v c) then none else (core v c).stall } ∧
        OnlyParts [.cores] v t)) ∧
  (∀ (c : CoreId) (w : CoreTask) (s : State), (core s c).task = some w → ∃ t, exec (.fusedBandReady c) s = .next t ∧ OnlyParts [.cores] s t ∧
    core t c = { core s c with task := some (if hPair w.table = true ∧ (w.bandsReady + 1) * orOne (bandRows w) ≤ w.midDone
      then { w with bandsReady := w.bandsReady + 1 } else w) })

/-- AUDIT_REPORT (07 R187): the record's home slice reads it, at u, and one that it cannot read takes nothing; below the window the record counts on; at the window it starts over, its totals take the counts, and the band widens
with event 0x0301, or, at its bound, the record saturates with event 0x0302, exactly where the misses are more than the limit's share of the
inactive blocks. -/
def Obligations.AuditReport : Prop :=
  ∀ (c : CoreId) (n : StrandId) (base : BitVec 48) (tokens inactive misses : BitVec 32) (limit window : BitVec 16) (step max : F32) (a : Nat)
    (s : State), MemoryCanonical s → translate s n base.toNat true = .ok a →
    (∀ u e, sliceRead s a = (u, e) → e ≠ stSuccess → exec (.auditReport c n base tokens inactive misses limit window step max) s = .next u) ∧
    (∀ u, sliceRead s a = (u, stSuccess) →
      let wi := (bits (rd64 u (a + 16)) 31 0 + inactive.toNat) % 2 ^ 32
      let wm := (bits (rd64 u (a + 16)) 63 32 + misses.toNat) % 2 ^ 32
      let wt := (bits (rd64 u (a + 24)) 31 0 + tokens.toNat) % 2 ^ 32
      let band := BitVec.ofNat 32 (bits (rd64 u a) 31 0)
      let much := decide (limit.toNat * wi < wm * 65536)
      ∃ t, exec (.auditReport c n base tokens inactive misses limit window step max) s = .next t ∧
        OnlyParts [.regs, .mem, .hst, .cache, .dict, .net, .out] u t ∧ (∀ b, b < a ∨ a + 48 ≤ b → mread t.mem b = mread s.mem b) ∧
        (wt < window.toNat → rd64 t a = rd64 u a ∧ rd64 t (a + 16) = wi + wm * 2 ^ 32 ∧ bits (rd64 t (a + 24)) 31 0 = wt ∧ t.net = u.net) ∧
        (window.toNat ≤ wt → rd64 t (a + 16) = 0 ∧ bits (rd64 t (a + 24)) 31 0 = 0 ∧ rd64 t (a + 32) = (rd64 u (a + 32) + wi) % 2 ^ 64 ∧
          rd64 t (a + 40) = (rd64 u (a + 40) + wm) % 2 ^ 64 ∧ (much = false → t.net = u.net ∧ bits (rd64 t a) 31 0 = band.toNat) ∧
          (much = true → ltF32 band max = true → bits (rd64 t a) 31 0 = (if ltF32 max (addF32 band step) then max else addF32 band step).toNat ∧
            SentEvent u t (sliceDie (homeSlice a)) 0x301 1 [base.toNat, bits (rd64 t a) 31 0, wt, wi, wm]) ∧
          (much = true → ltF32 band max = false → bit (rd64 t a) 32 = true ∧
            SentEvent u t (sliceDie (homeSlice a)) 0x302 2 [base.toNat, band.toNat, wt, wi, wm])))

/-- STITCH (02 R32, R37, R43; 08 R195, R208, R209): the items that waited for a bank come first. A handshake that is pending stalls the core in its first
pending resource, as an overrun where the awaited row is due: a wait for the same goes on, and an episode of another on a row is kept until the row is
accepted. A core that is held for want of credits, halted, not active, before GO or waiting in a pass of its accumulator stays as it is; any other takes the stitch, which
uses its credits, is counted, and takes the items of the stages in their order. -/
def Claims.Stitch : Prop :=
  ∀ (c : CoreId) (s : State),
    let free := coreActive s c = true ∧ (core s c).halted = false ∧ issueWait s c = false ∧ passWait (core s c) = false
    let due := fun p : Nat × Option Nat => match p.2 with
      | some i => rowDue s c i
      | none => false
    let waits := (core s c).stall.toList ++ (core s c).episodes
    let same := fun (p : Nat × Option Nat) (x : Stall) => x.resource == p.1 && x.stream == p.2
    let kept := fun p : Nat × Option Nat => waits.filter (fun x => x.stream.isSome && !same p x)
    (∀ items, ¬ free → exec (.stitch c items) s = .next s) ∧
    (∀ items p, free → pendingOf s c ((core s c).heldItems ++ items) = some p → ∃ t, exec (.stitch c items) s = .next t ∧ OnlyParts [.cores] s t ∧
      (∀ d, d ≠ c.val → core t d = core s d) ∧
      (waits.find? (same p) = none → core t c = { core s c with stall := some ⟨p.1, p.2, now s, due p, false, 0⟩, episodes := kept p }) ∧
      (∀ x, waits.find? (same p) = some x → core t c = { core s c with stall := some { x with scheduled := x.scheduled || due p }, episodes := kept p })) ∧
    (∀ items, pendingOf s c ((core s c).heldItems ++ items) = none → (core s c).credits < 4 → exec (.stitch c items) s = .next s) ∧
    (free → 4 ≤ (core s c).credits → (core s c).task = none → (core s c).stall = none → (core s c).episodes = [] → (core s c).heldItems = [] →
      let took (t : State) : Prop := reg t (coreOff c CORE_STITCH_COUNT) = (reg s (coreOff c CORE_STITCH_COUNT) + 1) % 2 ^ 64 ∧
        (core t c).credits = (core s c).credits - 4 ∧ (core t c).winStitches = (core s c).winStitches + 1
      let stalled (t : State) (r : Nat) : Prop := core t c = { core s c with stall := some ⟨r, none, now s, false, false, 0⟩ } ∧ OnlyParts [.cores] s t
      (∃ t, exec (.stitch c []) s = .next t ∧ took t ∧ OnlyParts [.regs, .cores] s t) ∧
      (∀ e, ∃ t, exec (.stitch c [.scoreboardDone e]) s = .next t ∧ took t ∧ (core t c).sb = (core s c).sb.filter (fun z => z.id != e) ∧
        OnlyParts [.regs, .cores] s t) ∧
      (∀ r w, sbWaits s c (r.take 4) (w.take 2) = false → ∃ t, exec (.stitch c [.scoreboardIssue r w]) s = .next t ∧ took t ∧
        (core t c).sb.length = (core s c).sb.length + min 4 r.length + min 2 w.length ∧ OnlyParts [.regs, .cores] s t) ∧
      (∀ r w, sbWaits s c (r.take 4) (w.take 2) = true → ∃ t, exec (.stitch c [.scoreboardIssue r w]) s = .next t ∧ stalled t resScoreboard) ∧
      (∀ (m : Fin 3) (r : RegionId) data, regionFull s c m r = true → ∃ t, exec (.stitch c [.produce m r data]) s = .next t ∧ stalled t resRegionFull) ∧
      (∀ (m : Fin 3) row, bankPowered s c m (row / memBankRows m) = true → sbWaits s c [(m, row, 1)] [] = false →
        ¬ (m.val = 0 ∧ (core s c).reloads.contains row = true) → (core s c).badRows.contains (rowKey m row) = false → (core s c).gb = [] →
        ∃ t, exec (.stitch c [.readRow m row false, .readRow m row false]) s = .next t ∧ took t ∧ OnlyParts [.regs, .cores] s t ∧
          (core t c).heldItems = [.readRow m row false] ∧
          coreReg t c SPM_BANK_WAIT_COUNT = (coreReg s c SPM_BANK_WAIT_COUNT + 1) % 2 ^ 64))

/-- Stitches of a core (R32, R37, R43) and stalls that last too long (R46, R378, R414). -/
def Obligations.StitchesAndStalls : Prop := Claims.Stitch ∧ Claims.LongStalls

/-! Scratchpads (08 R193 to R225, R538). -/

/-- SPM_OP_START and SPM_OP_DONE (R203, R204): an operation that is refused shows STATE 3 and starts nothing; a fill or copy that starts keeps its operands
and takes effect when done, each row from the rows as they were before it, and no other byte of memory changes; one that meets an open window, a bank without power or a
source row that fails its check ends with STATE 3 and no effect (log entry 47: the model's choice); one whose rows an entry of the scoreboard holds waits, and takes its own
entries, which it holds until it is done, as soon as it waits no longer (R208). -/
def Claims.FillAndCopy : Prop :=
  (∀ (c : CoreId) (pattern : Word) (s : State),
    (opRefused s c = true → exec (.spmOpStart c pattern) s = .next (updCore s c (fun x => { x with opState := 3 }))) ∧
    (opRefused s c = false →
      let o : SpmOp := { copy := bits (coreReg s c SPM_OP0) 1 0 == 1, mem := bits (coreReg s c SPM_OP0) 3 2, dst := bits (coreReg s c SPM_OP0) 25 6,
                         src := bits (coreReg s c SPM_OP0) 45 26, rows := bits (coreReg s c SPM_OP1) 19 0, pattern := pattern.toNat }
      ∃ t, exec (.spmOpStart c pattern) s = .next t ∧ OnlyParts [.regs, .cores] s t ∧ coreReg t c SPM_OP2 = pattern.toNat ∧
        (sbWaits s c (opRanges o).1 (opRanges o).2 = true → core t c = { core s c with opState := 1, op := some o }) ∧
        (sbWaits s c (opRanges o).1 (opRanges o).2 = false → core t c = { core (sbIssue s c (opRanges o).1 (opRanges o).2) c with
          opState := 1, op := some { o with held := some (core s c).sbNext } }))) ∧
  (∀ (c : CoreId) (s : State), (core s c).op = none → exec (.spmOpDone c) s = .next s) ∧
  (∀ (c : CoreId) (o : SpmOp) (s : State), (core s c).op = some o → o.held = none →
    (sbWaits s c (opRanges o).1 (opRanges o).2 = true → exec (.spmOpDone c) s = .next s) ∧
    (sbWaits s c (opRanges o).1 (opRanges o).2 = false → exec (.spmOpDone c) s = exec (.spmOpDone c)
      (updCore (sbIssue s c (opRanges o).1 (opRanges o).2) c (fun x => { x with op := some { o with held := some (core s c).sbNext } })))) ∧
  (∀ (c : CoreId) (o : SpmOp) (id : Nat) (s u : State) (b : Bool), (core s c).op = some o → o.held = some id →
    opRows (sbDone (updCore s c (fun x => { x with op := none })) c id) c o.copy o.mem o.src o.rows = (u, b) →
    (opFault s c o.copy o.mem o.dst o.src o.rows ≠ none ∨ b = false → exec (.spmOpDone c) s = .next (updCore u c (fun x => { x with opState := 3 }))) ∧
    (opFault s c o.copy o.mem o.dst o.src o.rows = none → b = true → MemoryCanonical s → (core s c).gb = [] →
      ∃ t, exec (.spmOpDone c) s = .next t ∧ (core t c).op = none ∧ (core t c).opState = 2 ∧ (core t c).sb = (core s c).sb.filter (fun z => z.id != id) ∧
        (∀ i, i < o.rows → mreadN t.mem (rowDpa c o.mem (o.dst + i)) 512 =
          if o.copy then mreadN s.mem (rowDpa c o.mem (o.src + i)) 512 else (List.range 64).flatMap (fun _ => leBytes 8 o.pattern)) ∧
        (∀ a, a < rowDpa c o.mem o.dst ∨ rowDpa c o.mem (o.dst + o.rows) ≤ a → mread t.mem a = mread s.mem a)))

/-- Region and window entries and stitch markers (R198, R201, R210, R214): a named region takes no write but HOME_VALID, an open window none, and either
sets CFG_REJECT; words that take no write stay; a marker takes the low 32 bits, and waits that it meets are answered. -/
def Obligations.ScratchEntries : Prop :=
  (∀ (c : CoreId) (m : Fin 3) (r : RegionId) (word : Fin 8) (v : Word) (s : State), ∃ t, exec (.regionEntryWrite c m r word v) s = .next t ∧
    OnlyParts [.regs, .cores] s t ∧ (∀ off, off ≠ regionOff c m r word → reg t off = reg s off) ∧
    (word = 0 → namedRegion s c m r = false → reg t (regionOff c m r word) = bits v.toNat 49 0 ∧ core t c = core s c) ∧
    (word = 0 → namedRegion s c m r = true → (core t c).cfgReject = true ∧
      reg t (regionOff c m r word) = putBits (reg s (regionOff c m r word)) 49 49 (bits v.toNat 49 49) % 2 ^ 64) ∧
    (word = 1 → namedRegion s c m r = false → reg t (regionOff c m r word) = bits v.toNat 20 0 + bits v.toNat 44 24 * 2 ^ 24 ∧ core t c = core s c) ∧
    (word = 1 → namedRegion s c m r = true → t = updCore s c (fun x => { x with cfgReject := true })) ∧
    (word = 4 → reg t (regionOff c m r word) = bits v.toNat 47 0) ∧ (word ≠ 0 → word ≠ 1 → word ≠ 4 → t = s)) ∧
  (∀ (c : CoreId) (w : WindowId) (word : Fin 4) (v : Word) (s : State), ∃ t, exec (.windowEntryWrite c w word v) s = .next t ∧
    (winState s c w ≠ 0 → t = updCore s c (fun x => { x with cfgReject := true })) ∧
    (winState s c w = 0 → OnlyParts [.regs] s t ∧ (∀ off, off ≠ windowOff c w word → reg t off = reg s off) ∧ winState t c w = 0 ∧
      (word = 0 → reg t (windowOff c w word) = v.toNat / 4 * 4) ∧ (word = 1 → reg t (windowOff c w word) = v.toNat) ∧
      (word = 2 → reg t (windowOff c w word) = bits v.toNat 47 0) ∧ (word = 3 → reg t (windowOff c w word) = bits v.toNat 31 0))) ∧
  (∀ (c : CoreId) (k : MarkerId) (v : Word) (s : State), ∃ t, exec (.stitchMarkerWrite c k v) s = .next t ∧ OnlyParts [.regs, .cores, .net] s t ∧
    reg t (markerOff c k) = v.toNat % 2 ^ 32 ∧ (∀ off, off ≠ markerOff c k → reg t off = reg s off) ∧
    (∀ w, (core s c).waits = [w] → w.2.1 = k.val → markerReached (v.toNat % 2 ^ 32) w.2.2 = true →
      (core t c).waits = [] ∧ Sent s t (coreDie c) hstDie (.markerReached w.1)))

/-- Landing windows (R205, R206, R210 to R215, R538): opening, closing, closed; a narrow write that the ingress refuses is counted and recorded and its
sender told; one that it takes waits in the gathering buffer, or is added element by element in mode 2; a flush writes a buffer row's
bytes and forgets it. -/
def Obligations.WindowsAndNarrowWrites : Prop :=
  (∀ (c : CoreId) (w : WindowId) (s : State),
    (openRefused s c w false = true → exec (.winOpen c w false) s = .next (updCore s c (fun x => { x with cfgReject := true }))) ∧
    (openRefused s c w false = false → ∃ t, exec (.winOpen c w false) s = .next t ∧ winState t c w = 1 ∧ marker t c (winMarker s c w) = 0) ∧
    (∀ x, (core s c).task = some x → openRefused s c w true = true → ∃ t, exec (.winOpen c w true) s = .next t ∧ Faulted s t c stWindowViolation) ∧
    (∀ x, (core s c).task = some x → openRefused s c w true = false → ∃ t, exec (.winOpen c w true) s = .next t ∧ winState t c w = 1 ∧
      tfind (core t c).windowTask w = some x.slot)) ∧
  (∀ (c : CoreId) (w : WindowId) (s : State), (winState s c w ≠ 1 → exec (.winClose c w) s = .next s) ∧
    (winState s c w = 1 → (core s c).gb.all (fun g => g.win != some w.val) = true → ∃ t, exec (.winClose c w) s = .next t ∧ winState t c w = 2 ∧
      OnlyParts [.regs] s t ∧ ∀ off, off ≠ windowOff c w 0 → reg t off = reg s off) ∧
    (winState s c w = 2 → winInflight s c w = 0 → ∃ t, exec (.windowClosed c w) s = .next t ∧ winState t c w = 0 ∧ OnlyParts [.regs, .cores] s t) ∧
    (winState s c w ≠ 2 ∨ winInflight s c w ≠ 0 → exec (.windowClosed c w) s = .next s)) ∧
  (∀ (c : CoreId) (src : Source) (w : WindowId) (row off : Nat) (data : List Byte) (fails : Bool) (s : State),
    let cause := narrowCause s c w row off data.length src
    (cause ≠ 0 → ∃ u, OnlyParts [.regs] s u ∧ coreReg u c SPM_NACK_COUNT = (coreReg s c SPM_NACK_COUNT + 1) % 2 ^ 64 ∧
      bits (coreReg u c SPM_LAST_NACK) 7 0 = cause % 256 ∧
      (src = .host → ∃ t, exec (.narrowWrite c src w row off data fails) s = .next t ∧ OnlyParts [.regs, .net] u t ∧
        reg t (hstOff HST_POSTED_DROP_COUNT) = (reg s (hstOff HST_POSTED_DROP_COUNT) + 1) % 2 ^ 64 ∧
        ∀ k, coreReg t c k = coreReg u c k) ∧
      (∀ x, src = .core x → ∃ t, exec (.narrowWrite c src w row off data fails) s = .next t ∧ OnlyParts [.net] u t ∧
        SentPacket s t (coreDie c) (coreDie x) .nack 0 0 []) ∧
      (∀ n d, src = .strand n d → exec (.narrowWrite c src w row off data fails) s = .next (refuseStrand u d n cause))) ∧
    (cause = 0 → winMode s c w ≠ 2 → (core s c).gb = [] → data ≠ [] → off + data.length < 512 → ∃ t g, exec (.narrowWrite c src w row off data fails) s = .next t ∧
      (core t c).gb = [g] ∧ g.mem = winMem s c w ∧ g.row = winBase s c w + row ∧ g.win = some w.val ∧ g.last = now s ∧
      (∀ i, i < data.length → tfind g.bytes (off + i) = data[i]?) ∧ OnlyParts [.cores] s t) ∧
    (cause = 0 → winMode s c w = 2 → data.length = 4 → MemoryCanonical s → (core s c).gb = [] →
      (core s c).badRows.contains (rowKey (winMem s c w) (winBase s c w + row)) = false → ∃ t, exec (.narrowWrite c src w row off data fails) s = .next t ∧
      let a := rowDpa c (winMem s c w) (winBase s c w + row) + off
      rd32 t a = (addF32 (BitVec.ofNat 32 (rd32 s a)) (BitVec.ofNat 32 (leNat data))).toNat ∧
      ∀ b, b < a ∨ a + 4 ≤ b → mread t.mem b = mread s.mem b)) ∧
  (∀ (c : CoreId) (m : Fin 3) (row : Nat) (fails : Bool) (s : State),
    (gbFind s c m row = none → exec (.gbIdleFlush c m row fails) s = .next s) ∧
    (∀ g, gbFind s c m row = some g → now s < g.last + objNat s 0x405002 → exec (.gbIdleFlush c m row fails) s = .next s) ∧
    (∀ g, gbFind s c m row = some g → g.last + objNat s 0x405002 ≤ now s → ∃ t, exec (.gbIdleFlush c m row fails) s = .next t ∧
      t.mem = (gbStore s c g).mem ∧ gbFind t c m row = none ∧
      (core t c).badRows.contains (rowKey m row) = (fails || (core s c).badRows.contains (rowKey m row)))) ∧
  (∀ (c : CoreId) (fails : Bool) (s : State), ∃ t, exec (.spmGbFlush c fails) s = .next t ∧ (core t c).gb = [] ∧
    t.mem = ((core s c).gb.foldl (fun u g => gbStore u c g) s).mem)

/-- Reload and scrub (R218, R222): a row that comes from its home, by the tag of its reload or, without one, with the command, is rewritten and checked
again, and a task that awaited it before its first span goes on; one that an instruction holds in the scoreboard waits; the scrub takes the resident rows in turn, and reads one
that no instruction is writing. -/
def Claims.ReloadAndScrub : Prop :=
  (∀ (c : CoreId) (row : Nat) (data : List Byte) (fails : Bool) (s : State),
    ((core s c).reloads.contains row = false ∨ sbWaits s c [] [(0, row, 1)] = true → exec (.reloadDone c row data fails) s = .next s) ∧
    ((core s c).reloads.contains row = true → sbWaits s c [] [(0, row, 1)] = false → fails = false → MemoryCanonical s → (core s c).gb = [] →
      let home := tget data (core s c).reloadData row
      ∃ u, exec (.reloadDone c row data fails) s = .next (match (core s c).task with
          | some w => if w.phase = 3 then runPrologue u c w.span else u
          | none => u) ∧
        (core u c).reloads = (core s c).reloads.filter (· != row) ∧ (core u c).badRows = (core s c).badRows.filter (· != rowKey 0 row) ∧
        mreadN u.mem (rowDpa c 0 row) home.length = home ∧
        (∀ a, a < rowDpa c 0 row ∨ rowDpa c 0 row + home.length ≤ a → mread u.mem a = mread s.mem a) ∧
        coreReg u c SPM_RELOAD_COUNT = (coreReg s c SPM_RELOAD_COUNT + 1) % 2 ^ 64) ∧
    (∀ w, (core s c).reloads.contains row = true → sbWaits s c [] [(0, row, 1)] = false → fails = true → (core s c).task = some w →
      ∃ t, exec (.reloadDone c row data fails) s = .next t ∧ Faulted s t c stScratchpadRowFault)) ∧
  (∀ (c : CoreId) (row : Nat) (fails : Bool) (s : State),
    let held := (core s c).sb.any (fun e => e.write && e.mem == 0 && overlaps row 1 e.first e.rows)
    (objNat s 0x405003 ≠ 1 ∨ scrubNext s c ≠ some row ∨ held = true → exec (.residentWeightScrub c row fails) s = .next s) ∧
    (objNat s 0x405003 = 1 → scrubNext s c = some row → held = false → fails = false → (core s c).badRows.contains (rowKey 0 row) = false →
      ∃ t, exec (.residentWeightScrub c row fails) s = .next t ∧
        coreReg t c SPM_SCRUB_COUNT = (coreReg s c SPM_SCRUB_COUNT + 1) % 2 ^ 64 ∧ (core t c).scrubPos = row + 1 ∧ OnlyParts [.regs, .cores] s t) ∧
    (objNat s 0x405003 = 1 → scrubNext s c = some row → held = false → (fails = true ∨ (core s c).badRows.contains (rowKey 0 row) = true) →
      homeRegion s c row ≠ none → (core s c).reloads.contains row = false → ∃ t, exec (.residentWeightScrub c row fails) s = .next t ∧
        (core t c).reloads = (core s c).reloads ++ [row] ∧ coreReg t c SPM_DET_WMEM_COUNT = (coreReg s c SPM_DET_WMEM_COUNT + 1) % 2 ^ 64))

/-- Rows of the scratchpads: fills and copies (R203, R204), reloads and the scrub (R218, R222). -/
def Obligations.ScratchpadRows : Prop := Claims.FillAndCopy ∧ Claims.ReloadAndScrub

/-- Bank power (R223 to R225): a request while another runs sets CFG_REJECT; a refused one shows RESULT 2, one for the power that the bank already has
RESULT 0, and any other RESULT 1 until it is done, abandoned with event 0x0403, or the bank is up or down with every row zero. -/
def Obligations.BankPower : Prop :=
  (∀ (c : CoreId) (m : Fin 4) (bank : Fin 64) (s : State),
    ((core s c).bankReq ≠ none → exec (.bankPowerDown c m bank) s = .next (updCore s c (fun x => { x with cfgReject := true })) ∧
      exec (.bankPowerUp c m bank) s = .next (updCore s c (fun x => { x with cfgReject := true }))) ∧
    ((core s c).bankReq = none → downRefused (notePower s c m bank 1) c m bank = true → ∃ t, exec (.bankPowerDown c m bank) s = .next t ∧ (core t c).bankResult = 2 ∧
      OnlyParts [.regs, .cores] s t) ∧
    ((core s c).bankReq = none → bankCount m ≤ bank → ∃ t, exec (.bankPowerUp c m bank) s = .next t ∧ (core t c).bankResult = 2 ∧ OnlyParts [.regs, .cores] s t) ∧
    ((core s c).bankReq = none → bank < bankCount m → bankPowered s c m bank = true → ∃ t, exec (.bankPowerUp c m bank) s = .next t ∧
      (core t c).bankResult = 0 ∧ (core t c).bankReq = none) ∧
    ((core s c).bankReq = none → bank < bankCount m → bankPowered s c m bank = false → ∃ t, exec (.bankPowerUp c m bank) s = .next t ∧
      (core t c).bankResult = 1 ∧ (core t c).bankReq = some { up := true, mem := m, bank := bank, since := now s, wins := [] }) ∧
    ((core s c).bankReq = none → downRefused (notePower s c m bank 1) c m bank = false → bankPowered s c m bank = true → ∃ t, exec (.bankPowerDown c m bank) s = .next t ∧
      (core t c).bankResult = 1 ∧ ∃ r, (core t c).bankReq = some r ∧ r.up = false ∧ r.mem = m ∧ r.bank = bank ∧ r.since = now s)) ∧
  (∀ (c : CoreId) (r : BankReq) (s : State), (core s c).bankReq = some r → MemoryCanonical s →
    let lo := r.bank * memBankRows r.mem
    let Cleared (t : State) (on : Bool) : Prop := (core t c).bankReq = none ∧ (core t c).bankResult = 0 ∧
      (r.mem < 3 → r.bank < bankCount r.mem → bankPowered t c r.mem r.bank = on) ∧
      (∀ a, rowDpa c r.mem lo ≤ a → a < rowDpa c r.mem (lo + memBankRows r.mem) → mread t.mem a = 0) ∧
      (∀ a, a < rowDpa c r.mem lo ∨ rowDpa c r.mem (lo + memBankRows r.mem) ≤ a → mread t.mem a = mread s.mem a)
    (r.up = true → (∃ t, exec (.bankPowerUpDone c) s = .next t ∧ Cleared t true) ∧ exec (.bankDrained c) s = .next s ∧
      exec (.bankDrainTimeout c) s = .next s) ∧
    (reqInflight s c r = 0 → exec (.bankDrainTimeout c) s = .next s) ∧
    (r.up = false → exec (.bankPowerUpDone c) s = .next s ∧
      (reqInflight s c r = 0 → ∃ t, exec (.bankDrained c) s = .next t ∧ Cleared t false) ∧
      (now s < r.since + objNat s 0x405001 * 1000 → exec (.bankDrainTimeout c) s = .next s) ∧
      (reqInflight s c r ≠ 0 → r.since + objNat s 0x405001 * 1000 ≤ now s → ∃ t, exec (.bankDrainTimeout c) s = .next t ∧ (core t c).bankReq = none ∧ (core t c).bankResult = 3 ∧
        coreReg t c SPM_PWR_ABANDON_COUNT = (coreReg s c SPM_PWR_ABANDON_COUNT + 1) % 2 ^ 64 ∧
        SentEvent s t (coreDie c) 0x403 1 [c, r.mem, r.bank, reqInflight s c r, r.since])))

/-! Tags and bulk packets (10 R259 to R280, 14 R351 to R355). -/

/-- TAG_ISSUE, CLASS3_PROMOTION and the end of the small-transfer hold (R261, R269): a read that is picked takes the lowest free tag and its request leaves
for the die that holds the address; fewer than 8 rows hold the port for 40 ns; no task, no free tag, a held port or nothing ready issues nothing;
a promotion serves only a class-3 request that has waited too long. -/
def Claims.TagIssue : Prop :=
  (∀ (c : CoreId) (s : State), (core s c).task = none ∨ portHeld s c = true ∨ freeTags s c = [] →
    exec (.tagIssue c) s = .next s ∧ exec (.class3Promotion c) s = .next s) ∧
  (∀ (c : CoreId) (w : CoreTask) (r : Req) (tag : Nat) (free : List Nat) (a : Nat) (s : State), (core s c).task = some w → portHeld s c = false →
    freeTags s c = tag :: free → pickReq s c w = some r → singleRead s c w r → translate s w.strand r.va false = .ok a →
    (∃ t, exec (.tagIssue c) s = .next t ∧ OnlyParts [.regs, .cores, .net] s t ∧ (core t c).portHold = some (now s + 40) ∧
      (core t c).requests = (core s c).requests.erase r ∧ (∃ g, tfind (core t c).tags tag = some g ∧ g.task = w.slot ∧ g.dpa = a ∧ g.va = r.va ∧
        g.stream = r.stream ∧ g.write = false ∧ g.abandoned = false) ∧
      coreReg t c FET_TAG_ISSUE_COUNT = (coreReg s c FET_TAG_ISSUE_COUNT + 1) % 2 ^ 64 ∧
      t.net.bulk = s.net.bulk ++ [{ src := coreDie c, dst := servingDie a, seq := tget 0 s.net.bulkTx (pairKey (coreDie c) (servingDie a)),
                                    type := .readRequest, tag := tag, addr := a, due := if reqClass w r = 3 then 0 else r.due, data := [], sentAt := now s }]) ∧
    ((reqClass w r == 3 && promoted s c r) = true → exec (.class3Promotion c) s = exec (.tagIssue c) s) ∧
    ((reqClass w r == 3 && promoted s c r) = false → exec (.class3Promotion c) s = .next s)) ∧
  (∀ (c : CoreId) (s : State), (portHeld s c = true → exec (.smallTransferHoldEnd c) s = .next s) ∧
    (portHeld s c = false → exec (.smallTransferHoldEnd c) s = .next (updCore s c (fun x => { x with portHold := none }))))

/-- Rows, errors, acknowledgements and refusals for a tag (R259, R275, R276, R280; 08 R213): a packet for no tag does nothing; what comes back for an abandoned tag
frees it and is counted as waste; an error, a refusal or a line of the row's scales or metadata that cannot be read ends the task; a row lands in its stream's region. -/
def Claims.TagAnswers : Prop :=
  ∀ (c : CoreId) (p : BulkTag) (tag : TagId) (s : State), NewPacket s (coreDie c) p →
    (tfind (core s c).tags tag.val = none → (∀ st data ev ca, exec (.readData c p tag st data ev ca) s = .next (tookPacket s (coreDie c) p)) ∧
      exec (.writeAcknowledge c p tag) s = .next (tookPacket s (coreDie c) p) ∧
      (∀ rd, exec (.negativeAcknowledge c p tag rd true) s = .next (tookPacket s (coreDie c) p))) ∧
    (∀ g, tfind (core s c).tags tag.val = some g → g.abandoned = true → (core s c).draining = none →
      (∀ data ev ca, ∃ t, exec (.readData c p tag 0#16 data ev ca) s = .next t ∧ OnlyParts [.regs, .cores, .net] s t ∧ tfind (core t c).tags tag.val = none ∧
        coreReg t c FET_WASTE_BYTES = (coreReg s c FET_WASTE_BYTES + 512) % 2 ^ 64) ∧
      (∃ t, exec (.writeAcknowledge c p tag) s = .next t ∧ OnlyParts [.regs, .cores, .net] s t ∧ tfind (core t c).tags tag.val = none ∧
        coreReg t c FET_BYTES_WRITTEN = (coreReg s c FET_BYTES_WRITTEN + 512) % 2 ^ 64) ∧
      (∀ rd ab, ∃ t, exec (.negativeAcknowledge c p tag rd ab) s = .next t ∧ OnlyParts [.regs, .cores, .net] s t ∧ tfind (core t c).tags tag.val = none ∧
        coreReg t c FET_ABORT_COUNT = (coreReg s c FET_ABORT_COUNT + 1) % 2 ^ 64)) ∧
    (∀ g w, tfind (core s c).tags tag.val = some g → g.abandoned = false → (core s c).draining = none → (core s c).task = some w →
      (∀ st data ev ca, st ≠ 0#16 → ∃ t, exec (.readData c p tag st data ev ca) s = .next t ∧ Faulted s t c st.toNat) ∧
      (∀ rd, ∃ t, exec (.negativeAcknowledge c p tag rd false) s = .next t ∧ Faulted s t c (if rd then stProtectionFault else stWindowViolation)) ∧
      (spanReady (streamMoved (freeTag (bumpCore (tookPacket s (coreDie c) p) c FET_BYTES_WRITTEN 512) c tag) c g.stream 512) g.task = false →
        ∃ t, exec (.writeAcknowledge c p tag) s = .next t ∧ tfind (core t c).tags tag.val = none ∧ OnlyParts [.regs, .cores, .net] s t) ∧
      (∀ data (ev : Fin 8) ca u e a, besideRows (rowTaken s c p tag g ev) c w g = (u, some (e, a)) → ∃ t, exec (.readData c p tag 0#16 data ev ca) s = .next t ∧ Faulted s t c e) ∧
      (∀ data (ev : Fin 8) ca u, g.kind = 0 → g.mem < 3 ∧ g.region < 64 → MemoryCanonical s → (core s c).gb = [] → data.length = 512 → localFault s c g.mem (tailRow s c g.mem g.region) = none →
        besideRows (rowTaken s c p tag g ev) c w g = (u, none) → ∃ t, exec (.readData c p tag 0#16 data ev ca) s = .next t ∧ mreadN t.mem (rowDpa c g.mem (tailRow s c g.mem g.region)) 512 = data ∧
          (∀ a, a < rowDpa c g.mem (tailRow s c g.mem g.region) ∨ rowDpa c g.mem (tailRow s c g.mem g.region) + 512 ≤ a → mread t.mem a = mread s.mem a)))

/-- Tags of the fetch engine (R259 to R280): their issue, and what comes back for them. -/
def Obligations.TagsOfTheFetchEngine : Prop := Claims.TagIssue ∧ Claims.TagAnswers

/-- READ_REQUEST, BULK_WRITE and ACCUMULATE_WRITE at a tier, and the registers over the network (14 R351, R354; 12 R310): the die that holds the address answers a read
with the bytes; a write stores its bytes, and an accumulate write adds each FP32 element to the one stored, at the home slice; a refused write is counted, and
its core is told, its strand's sender refused, its host's write dropped; a register read answers with the register's value. -/
def Claims.BulkServes : Prop :=
  (∀ (die : DieId) (p : BulkTag) (tag : TagId) (dpa : BitVec 52) (gran : Fin 8) (o : ReadOutcome) (s : State), NewPacket s die p →
    (isNear dpa.toNat = false → isFar dpa.toNat = false → isSpm dpa.toNat = false → isMirror dpa.toNat = true →
      ∃ t, exec (.readRequest die p tag dpa gran o) s = .next t ∧ OnlyParts [.net] s t ∧
        SentPacket s t die p.src .readData tag stSuccess (mirrorBytes (tookPacket s die p) (dpa.toNat / 8 * 8) (64 * (gran.val + 1)))) ∧
    (isNear dpa.toNat = true → hostBias s dpa.toNat = false → s.cache.resident.contains (lineOf dpa.toNat) = true → s.cache.poisoned.contains (lineOf dpa.toNat) = false →
      stackFailed s (stackOf dpa.toNat) = false → (stack s (stackOf dpa.toNat)).retraining = none → o = .ok 0 → ∃ t, exec (.readRequest die p tag dpa gran o) s = .next t ∧
        t.mem = s.mem ∧ SentPacket s t die p.src .readData tag stSuccess (mreadN s.mem dpa.toNat (64 * (gran.val + 1)))) ∧
    (isNear dpa.toNat = true → hostBias s dpa.toNat = false → s.cache.poisoned.contains (lineOf dpa.toNat) = true ∨ stackFailed s (stackOf dpa.toNat) = true → (stack s (stackOf dpa.toNat)).retraining = none →
      o = .ok 0 → ∃ t, exec (.readRequest die p tag dpa gran o) s = .next t ∧ SentPacket s t die p.src .readData tag stTierUncorrectable [])) ∧
  (∀ (p : BulkTag) (src : Source) (tag : TagId) (a : Nat) (data : List Byte) (s : State), NewPacket s (sliceDie (homeSlice a)) p → isNear a = true →
    isHost a = false → isMirror a = false → isSpm a = false → hostBias s a = false → stackFailed s (stackOf a) = false → MemoryCanonical s →
    s.cache.resident.contains (lineOf a) = true →
    (∃ t, exec (.bulkWrite p src tag (.tier a) data (.ok 0)) s = .next t ∧ mreadN t.mem a data.length = data ∧
      (∀ b, b < a ∨ a + data.length ≤ b → mread t.mem b = mread s.mem b) ∧ SentPacket s t (sliceDie (homeSlice a)) p.src .writeAck tag 0 [] ∧
      t.cache.dirty.contains (lineOf a) = true) ∧
    (s.cache.poisoned.contains (lineOf a) = false → ∃ t, exec (.accumulateWrite p src tag (.tier a) 0 data) s = .next t ∧
      t.mem = mwriteN s.mem a (addRow (mreadN s.mem a data.length) data) ∧ SentPacket s t (sliceDie (homeSlice a)) p.src .writeAck tag 0 [])) ∧
  (∀ (p : BulkTag) (src : Source) (tag : TagId) (c : CoreId) (w : WindowId) (off : Nat) (data : List Byte) (o : WriteOutcome) (s : State),
    NewPacket s (coreDie c) p → rowCause s c w off src ≠ 0 → ∃ u, OnlyParts [.regs, .net] s u ∧
      coreReg u c SPM_NACK_COUNT = (coreReg s c SPM_NACK_COUNT + 1) % 2 ^ 64 ∧
      (∀ x, src = .core x → ∃ t, exec (.bulkWrite p src tag (.window c w off) data o) s = .next t ∧ OnlyParts [.net] u t ∧
        SentPacket s t (coreDie c) p.src .nack tag 0 []) ∧
      (∀ n d, src = .strand n d → exec (.bulkWrite p src tag (.window c w off) data o) s = .next (refuseStrand u d n (rowCause s c w off src))) ∧
      (src = .host → exec (.bulkWrite p src tag (.window c w off) data o) s = .next (postedDrop u stWindowViolation 1 0))) ∧
  (∀ (p : BulkTag) (off : BitVec 26) (s : State), NewPacket s (ownerDie off.toNat) p → ∃ t, exec (.registerRead p off) s = .next t ∧ OnlyParts [.net] s t ∧
    SentPacket s t (ownerDie off.toNat) p.src .regData 0 (off.toNat / 8 * 8) (leBytes 8 (regView (tookPacket s (ownerDie off.toNat) p) (off.toNat / 8 * 8)))) ∧
  (∀ (p : BulkTag) (dst : DieId) (v : Word) (s : State), NewPacket s dst p → exec (.registerData p dst v) s = .next (emit (tookPacket s dst p) (.regData dst v.toNat)))

/-- READ_REQUEST, BULK_WRITE, ACCUMULATE_WRITE, REGISTER_READ and REGISTER_DATA complete in every state and for every operand: each answers a next state, and
changes no part of the state outside its list. -/
def Claims.BulkCompletes : Prop :=
  (∀ (die : DieId) (p : BulkTag) (tag : TagId) (dpa : BitVec 52) (gran : Fin 8) (o : ReadOutcome) (s : State),
    ∃ t, exec (.readRequest die p tag dpa gran o) s = .next t ∧ OnlyParts (touches (.readRequest die p tag dpa gran o)) s t) ∧
  (∀ (p : BulkTag) (src : Source) (tag : TagId) (target : WriteTarget) (data : List Byte) (o : WriteOutcome) (s : State),
    ∃ t, exec (.bulkWrite p src tag target data o) s = .next t ∧ OnlyParts (touches (.bulkWrite p src tag target data o)) s t) ∧
  (∀ (p : BulkTag) (src : Source) (tag : TagId) (target : WriteTarget) (off : Nat) (data : List Byte) (s : State),
    ∃ t, exec (.accumulateWrite p src tag target off data) s = .next t ∧ OnlyParts (touches (.accumulateWrite p src tag target off data)) s t) ∧
  (∀ (p : BulkTag) (off : BitVec 26) (s : State), ∃ t, exec (.registerRead p off) s = .next t ∧ OnlyParts (touches (.registerRead p off)) s t) ∧
  (∀ (p : BulkTag) (dst : DieId) (v : Word) (s : State), ∃ t, exec (.registerData p dst v) s = .next t ∧
    OnlyParts (touches (.registerData p dst v)) s t)

/-- The requests of the bulk network and the registers over it: READ_REQUEST, BULK_WRITE, ACCUMULATE_WRITE, REGISTER_READ and REGISTER_DATA each complete, and what
each does where it is served (14 R351, R354; 12 R310). -/
def Obligations.BulkRequests : Prop := Claims.BulkCompletes ∧ Claims.BulkServes

/-- Hops, end-to-end acknowledgements and resends (14 R352, R353, R355): a router forwards on the port that its table names and counts the bytes, counts a detour
on VC1, and refuses a packet that no port takes; an acknowledgement releases what it covers; a resend, once 0x4010:01 ns have passed, marks the packet and is counted. -/
def Obligations.BulkTransport : Prop :=
  (∀ (router : MeshDie) (p : BulkTag) (dst : DieId) (type : BulkType) (gran : Fin 8) (vc1 : Bool) (s : State),
    let e := routeEntry s false router dst
    (e % 8 ≠ 7 → (vc1 || bit e 3) = false → exec (.bulkPacketHop router p dst type gran vc1) s =
      .next (bump s (rtrOff router MGT_RTR_FWD_BYTES) (24 + 64 * (gran.val + 1)))) ∧
    (e % 8 ≠ 7 → (vc1 || bit e 3) = true → ∃ t, exec (.bulkPacketHop router p dst type gran vc1) s = .next t ∧ OnlyParts [.regs, .cores] s t ∧
      reg t (rtrOff router MGT_RTR_FWD_BYTES) = (reg s (rtrOff router MGT_RTR_FWD_BYTES) + (24 + 64 * (gran.val + 1))) % 2 ^ 64 ∧
      reg t (rtrOff router MGT_RTR_DETOUR_COUNT) = (reg s (rtrOff router MGT_RTR_DETOUR_COUNT) + 1) % 2 ^ 64) ∧
    (e % 8 = 7 → asks type = false → exec (.bulkPacketHop router p dst type gran vc1) s = .next (bump s (rtrOff router MGT_RTR_NACK_COUNT) 1)) ∧
    (e % 8 = 7 → asks type = true → ∃ t, exec (.bulkPacketHop router p dst type gran vc1) s = .next t ∧ OnlyParts [.regs, .net] s t ∧
      reg t (rtrOff router MGT_RTR_NACK_COUNT) = (reg s (rtrOff router MGT_RTR_NACK_COUNT) + 1) % 2 ^ 64 ∧
      ∃ l, t.net.bulk = l ++ [{ src := router, dst := p.src, seq := tget 0 s.net.bulkTx (pairKey router p.src), type := .nack,
                                 tag := packetTag s p.src dst p.seq, addr := 0, due := 0, data := [], sentAt := now s }])) ∧
  (∀ (die peer : DieId) (base : Fin 65536) (bitmap : BitVec 32) (s : State), ∃ t, exec (.endToEndAcknowledge die peer base bitmap) s = .next t ∧ OnlyParts [.net] s t ∧
    ∀ b, b ∈ t.net.bulk ↔ b ∈ s.net.bulk ∧ ¬ (b.src = die ∧ b.dst = peer ∧ ∃ i, i < 32 ∧ bit bitmap.toNat i = true ∧ b.seq = (base.val + i) % 65536)) ∧
  (∀ (src dst : DieId) (seq : Fin 65536) (b : BulkSend) (s : State), s.net.bulk = [b] → b.src = src → b.dst = dst → b.seq = seq →
    (now s < b.sentAt + objNat s 0x401001 → exec (.bulkResendTimeout src dst seq) s = .next s) ∧
    (b.sentAt + objNat s 0x401001 ≤ now s → ∃ t, exec (.bulkResendTimeout src dst seq) s = .next t ∧
      t.net.bulk = [{ b with resent := true, sentAt := now s }] ∧ OnlyParts [.regs, .cores, .net] s t ∧
      reg t (rtrOff src MGT_RTR_RESEND_COUNT) = (reg s (rtrOff src MGT_RTR_RESEND_COUNT) + 1) % 2 ^ 64)) ∧
  (∀ (src dst : DieId) (seq : Fin 65536) (s : State), s.net.bulk = [] → exec (.bulkResendTimeout src dst seq) s = .next s)

/-! The tiers and the chain (13 R331 to R345, 14 R356, R357, 19 R474 to R481). -/

/-- TRANSLATION_WALK (R338 to R340): an address that the cache holds needs no walk; a walk is counted with its time, enters the cache where the address translates, and is a
fault of the running task of its strand where it does not. -/
def Claims.TranslationWalk : Prop :=
  ∀ (c : CoreId) (n : StrandId) (va : BitVec 48) (write : Bool) (ns : Nat) (s : State),
    (xltHit s c n va.toNat = true → exec (.translationWalk c n va ⟨write, ns⟩) s = .next s) ∧
    (∀ a, xltHit s c n va.toNat = false → translate s n va.toNat write = .ok a → ∃ t, exec (.translationWalk c n va ⟨write, ns⟩) s = .next t ∧ OnlyParts [.regs, .cores] s t ∧
      coreReg t c CORE_XLT_MISS_COUNT = (coreReg s c CORE_XLT_MISS_COUNT + 1) % 2 ^ 64 ∧
      coreReg t c CORE_XLT_WALK_NS = (coreReg s c CORE_XLT_WALK_NS + ns) % 2 ^ 64 ∧
      ∃ e ∈ (core t c).xlt, e.1 = n.val ∧ e.2.1 ≤ va.toNat ∧ e.2.2 = pageSize s n va.toNat) ∧
    (∀ e, xltHit s c n va.toNat = false → translate s n va.toNat write = .err e → (core s c).task = none → ∃ t, exec (.translationWalk c n va ⟨write, ns⟩) s = .next t ∧
      OnlyParts [.regs] s t ∧ coreReg t c CORE_XLT_FAULT_COUNT = (coreReg s c CORE_XLT_FAULT_COUNT + 1) % 2 ^ 64) ∧
    (∀ e w, xltHit s c n va.toNat = false → translate s n va.toNat write = .err e → (core s c).task = some w → w.strand = n.val →
      ∃ t, exec (.translationWalk c n va ⟨write, ns⟩) s = .next t ∧ Faulted s t c e)

/-- Retraining (R331): one channel of a stack at a time is trained, and counted; another waits behind it; when it is done its temperature and time are kept and
the next that waits is taken. The interval, a change of 10 degrees and 16 CRC retries within 1 ms are its causes. -/
def Claims.Retraining : Prop :=
  (∀ (k : StackId) (ch : Channel) (s : State),
    (objNat s 0x600308 ≠ 1 ∨ now s < tget 0 (stack s k).lastTrained ch + objNat s 0x301004 * 10 ^ 9 → exec (.retrainInterval k ch) s = .next s) ∧
    (objNat s 0x600308 = 1 → tget 0 (stack s k).lastTrained ch + objNat s 0x301004 * 10 ^ 9 ≤ now s → exec (.retrainInterval k ch) s = .next (retrain s k ch)) ∧
    (∀ temp, tget 0 (stack s k).trainedTemp ch + 10 ≤ temp ∨ temp + 10 ≤ tget 0 (stack s k).trainedTemp ch → exec (.retrainTemperature k ch temp) s =
      .next (retrain { s with power := { s.power with temps := tset s.power.temps (mifDie k) temp } } k ch)) ∧
    (∀ temp, temp < tget 0 (stack s k).trainedTemp ch + 10 → tget 0 (stack s k).trainedTemp ch < temp + 10 →
      ∃ t, exec (.retrainTemperature k ch temp) s = .next t ∧ OnlyParts [.power] s t ∧ tget 0 t.power.temps (mifDie k) = temp) ∧
    (∀ recent, recent = ((tget [] (stack s k).crcTimes ch).filter (fun t => decide (now s ≤ t + 1000000))).length →
      (recent < 16 → exec (.retrainCrcCount k ch) s = .next s) ∧
      (16 ≤ recent → exec (.retrainCrcCount k ch) s = .next (retrain (updStack s k (fun x => { x with crcTimes := tdel x.crcTimes ch })) k ch))) ∧
    (∀ t, t = retrain s k ch →
     ((stack s k).retraining = none → OnlyParts [.regs, .mifs] s t ∧ (stack t k).retraining = some ch.val ∧
      (stack t k).retrainSince = now s ∧ reg t (mifOff k MIF_RETRAIN_COUNT) = (reg s (mifOff k MIF_RETRAIN_COUNT) + 1) % 2 ^ 64) ∧
     ∀ x, (stack s k).retraining = some x → x ≠ ch.val → (stack s k).queued.contains ch.val = false → OnlyParts [.mifs] s t ∧
      stack t k = { stack s k with queued := (stack s k).queued ++ [ch.val] })) ∧
  (∀ (k : StackId) (s : State), (stack s k).retraining = none → exec (.retrainDone k) s = .next s) ∧
  (∀ (k : StackId) (ch : Nat) (s : State), (stack s k).retraining = some ch →
    ((stack s k).queued = [] → ∃ t, exec (.retrainDone k) s = .next t ∧ OnlyParts [.mifs] s t ∧ (stack t k).retraining = none ∧
      tget 0 (stack t k).lastTrained ch = now s ∧ tget 0 (stack t k).trainedTemp ch = tget 0 s.power.temps (mifDie k)) ∧
    (∀ q rest, (stack s k).queued = q :: rest → ∃ t, exec (.retrainDone k) s = .next t ∧ OnlyParts [.regs, .mifs] s t ∧ (stack t k).retraining = some q ∧
      tget 0 (stack t k).lastTrained ch = now s))

/-- Translation walks (R338 to R340) and the retraining of channels (R331). -/
def Obligations.WalksAndRetraining : Prop := Claims.TranslationWalk ∧ Claims.Retraining

/-- The near-tier scrub, the far tier's ports, bias and the host's accesses (R332, R334, R336, R344, R345; 16 R395). -/
def Obligations.TierEvents : Prop :=
  (∀ (dpa : BitVec 52) (o : ReadOutcome) (s : State),
    (objNat s 0x600108 ≠ 1 ∨ isNear dpa.toNat = false ∨ (stack s (stackOf dpa.toNat)).poison.contains (lineOf dpa.toNat) = true →
      exec (.nearTierScrub dpa o) s = .next s) ∧
    (objNat s 0x600108 = 1 → isNear dpa.toNat = true → (stack s (stackOf dpa.toNat)).poison.contains (lineOf dpa.toNat) = false → stackFailed s (stackOf dpa.toNat) = false →
      (o = .odeccCorrected → ∃ t, exec (.nearTierScrub dpa o) s = .next t ∧ OnlyParts [.regs] s t ∧
        reg t (mifOff (stackOf dpa.toNat) MIF_ODECC_CORR_COUNT) = (reg s (mifOff (stackOf dpa.toNat) MIF_ODECC_CORR_COUNT) + 1) % 2 ^ 64) ∧
      (o = .odeccUncorrectable → (stack s (stackOf dpa.toNat)).poison.length < 65536 → ∃ t, exec (.nearTierScrub dpa o) s = .next t ∧ OnlyParts [.regs, .mifs] s t ∧
        (stack t (stackOf dpa.toNat)).poison = lineOf dpa.toNat :: (stack s (stackOf dpa.toNat)).poison))) ∧
  (∀ (p : FarPort) (c : CoreId) (tag : TagId) (s : State), (∀ g, tfind (core s c).tags tag.val = some g → behind p g = true →
      (now s < g.since + objNat s 0x302001 * 1000 → exec (.farCompletionTimeout p c tag) s = .next s) ∧
      (g.since + objNat s 0x302001 * 1000 ≤ now s → ∃ t, exec (.farCompletionTimeout p c tag) s = .next t ∧ OnlyParts [.regs, .net] s t ∧ reg t (farOff p FAR_TIMEOUT_COUNT) = (reg s (farOff p FAR_TIMEOUT_COUNT) + 1) % 2 ^ 64 ∧
        SentPacket s t (farDie p) (coreDie c) .readData tag stTierUncorrectable []) ∧
      (∃ t, exec (.farLinkRetry p c tag) s = .next t ∧ OnlyParts [.regs, .cores] s t ∧ reg t (farOff p FAR_LINK_RETRY_COUNT) = (reg s (farOff p FAR_LINK_RETRY_COUNT) + 1) % 2 ^ 64 ∧
        coreReg t c FET_CORR_EVENT_COUNT = (coreReg s c FET_CORR_EVENT_COUNT + 1) % 2 ^ 64)) ∧
    (tfind (core s c).tags tag.val = none → exec (.farCompletionTimeout p c tag) s = .next s ∧
      exec (.farLinkRetry p c tag) s = .next (bump s (farOff p FAR_LINK_RETRY_COUNT) 1))) ∧
  (∀ (p : FarPort) (s : State), ∃ t, exec (.farLinkDown p) s = .next t ∧ OnlyParts [.fars, .net] s t ∧ (far t p).link = 0 ∧ (far t p).memActive = false ∧
    ∀ c tag g, c < 64 → (tag, g) ∈ (core s c).tags → behind p g = true →
      ∃ b ∈ t.net.bulk, b.src = farDie p ∧ b.dst = coreDie c ∧ b.type = .readData ∧ b.tag = tag ∧ b.addr = stTierUncorrectable) ∧
  (∀ (p : FarPort) (record : Word) (s : State), ∃ t, exec (.expanderEventRecord p record) s = .next t ∧
    reg t (farOff p FAR_EVENT_COUNT) = (reg s (farOff p FAR_EVENT_COUNT) + 1) % 2 ^ 64 ∧ SentEvent s t (farDie p) 0x502 1 [p.val, record.toNat]) ∧
  (∀ (first pages : Nat) (host : Bool) (s : State), ∃ t, exec (.biasChange first pages host) s = .next t ∧ OnlyParts [.cache] s t ∧
    ∀ a, isNear a = true → hostBias t a = if first ≤ a / 2 ^ 21 ∧ a / 2 ^ 21 < first + pages then host else hostBias s a) ∧
  (∀ (dpa : BitVec 52) (data : Option (List Byte)) (o : ReadOutcome) (s : State),
    (s.hst.memActive = false ∨ isNear dpa.toNat = false → exec (.cxlMemRequest dpa data o) s = .next s) ∧
    (s.hst.memActive = true → isNear dpa.toNat = true → s.cache.resident.contains (lineOf dpa.toNat) = true → s.cache.poisoned.contains (lineOf dpa.toNat) = false →
      (data = none → o = .ok 0 → stackFailed s (stackOf dpa.toNat) = false → ∃ t, exec (.cxlMemRequest dpa data o) s = .next t ∧ OnlyParts [.hst, .out] s t ∧
        t.out = .cxlMem stSuccess (mreadN s.mem (dpa.toNat / 64 * 64) 64) :: s.out) ∧
      (∀ d, data = some d → d.length ≤ 512 - dpa.toNat % 512 → MemoryCanonical s → stackFailed s (stackOf dpa.toNat) = false → ∃ t, exec (.cxlMemRequest dpa data o) s = .next t ∧
        mreadN t.mem dpa.toNat d.length = d ∧ (∀ b, b < dpa.toNat ∨ dpa.toNat + d.length ≤ b → mread t.mem b = mread s.mem b)))) ∧
  (∀ (addr : BitVec 52) (s : State), exec (.hostSnoop addr) s = .next (emit s (.snoop "RspIHitI")))

/-- The chain's transport and its configuration messages (14 R356, R357, 19 R474, R480, R481): an acknowledgement releases its message; a resend, once 0x4010:02 ns have passed,
goes behind those that wait; a reserved message is counted; a repeat of any message is discarded and counted; a configuration write is stored and answered, a read answered
with the part, and the management die keeps answers; a freeze and an activation are kept per die. -/
def Obligations.ChainMessages : Prop :=
  (∀ (die peer : DieId) (seq : Fin 1024) (s : State), ∃ t, exec (.chainAck die peer seq) s = .next t ∧ OnlyParts [.net] s t ∧
    ∀ m, m ∈ t.net.chain ↔ m ∈ s.net.chain ∧ ¬ (m.src = die ∧ m.dst = peer ∧ m.seq = seq)) ∧
  (∀ (src dst : DieId) (seq : Fin 1024) (s : State), ∃ t, exec (.chainResendTimeout src dst seq) s = .next t ∧ OnlyParts [.net] s t ∧
    (t.net.chain.map (fun m => { m with sentAt := 0 })).Perm (s.net.chain.map (fun m => { m with sentAt := 0 })) ∧
    ((∀ m ∈ s.net.chain, m.src = src → m.dst = dst → m.seq = seq → now s < m.sentAt + objNat s 0x401002) → t = s) ∧
    ∀ m, s.net.chain = m :: s.net.chain.tail → (m.src = src ∧ m.dst = dst ∧ m.seq = seq) → m.sentAt + objNat s 0x401002 ≤ now s →
      s.net.chain.tail.all (fun x => !(x.src == src.val && x.dst == dst.val && x.seq == seq.val)) = true →
      t.net.chain = s.net.chain.tail ++ [{ m with sentAt := now s }]) ∧
  (∀ (f : Frame) (die : DieId) (type : BitVec 6) (s : State), (type.toNat = 0 ∨ 0x0D ≤ type.toNat) → NewMessage s die f →
    exec (.reservedChainMessage f die type) s = .next (bump (tookMessage s die f) (rtrOff die MGT_RTR_DUP_COUNT) 1)) ∧
  (∀ (f : Frame) (die : DieId) (index : BitVec 16) (sub : Byte) (part : BitVec 4) (v : BitVec 32) (s : State),
    (chainRepeat s die f = true → exec (.configWrite f die index sub part v) s = .next (bump s (rtrOff die MGT_RTR_DUP_COUNT) 1) ∧
      exec (.configRead f die index sub part) s = .next (bump s (rtrOff die MGT_RTR_DUP_COUNT) 1)) ∧
    (NewMessage s die f → (∃ t, exec (.configWrite f die index sub part v) s = .next t ∧ OnlyParts [.dict, .net] s t ∧ Sent s t die f.src (.config 4 index.toNat sub.toNat part.toNat 0) ∧
        leNat (((dieObj t die (objKey index sub)).drop (4 * part.toNat)).take 4) = v.toNat) ∧
      (∃ t, exec (.configRead f die index sub part) s = .next t ∧ OnlyParts [.net] s t ∧
        Sent s t die f.src (.config 3 index.toNat sub.toNat part.toNat (leNat (((dieObj s die (objKey index sub)).drop (4 * part.toNat)).take 4))))) ∧
    (NewMessage s mgtDie f → (∃ t, exec (.configData f index sub part v) s = .next t ∧ OnlyParts [.dict, .net] s t ∧
        tfind t.dict.answers (answerKey f.src (objKey index sub) part.toNat) = some v.toNat) ∧
      (∃ t, exec (.configDone f index sub part) s = .next t ∧ OnlyParts [.dict, .net] s t ∧
        tfind t.dict.answers (answerKey f.src (objKey index sub) part.toNat) = some (2 ^ 32)))) ∧
  (∀ (f : Frame) (die : DieId) (epoch : BitVec 32) (s : State), NewMessage s die f →
    (∃ t, exec (.freeze f die epoch) s = .next t ∧ OnlyParts [.dict, .net] s t ∧ leNat (dieObj t die 0x102002) = epoch.toNat) ∧
    (∃ t, exec (.activate f die epoch) s = .next t ∧ OnlyParts [.dict, .net] s t ∧ leNat (dieObj t die 0x102001) = epoch.toNat)) ∧
  (∀ (f : Frame) (code : BitVec 16) (severity : BitVec 2) (arg : BitVec 46) (s : State), NewMessage s mgtDie f →
    (∀ e, eventInFlight (tookMessage s mgtDie f) f = some e → ∃ t, exec (.event f code severity arg) s = .next t ∧ latestEvent t = some e ∧ t.dict.eventSeq = s.dict.eventSeq + 1) ∧
    (eventInFlight (tookMessage s mgtDie f) f = none → code ≠ 0xFFFF#16 → ∃ t, exec (.event f code severity arg) s = .next t ∧
      LoggedEvent s t code.toNat severity.toNat [arg.toNat]))

/-! Strands, apertures and configuration space (16 R404 to R406, R419, R420, 18 R448). -/

/-- Strand control (R404 to R406): while an action runs a write is counted and ignored; ACTIVATE, UPDATE, FLUSH, RELEASE and a miss, each where it is refused and
where it completes. -/
def Obligations.StrandControl : Prop :=
  ∀ (n : StrandId) (s : State),
    (s.hst.strandResult = 1 → ∀ c ∈ [Instr.strandActivate n, .strandUpdate n, .strandFlush n, .strandRelease n],
      exec c s = .next (bump s (hstOff HST_CFG_REJECT_COUNT) 1)) ∧
    (s.hst.strandResult ≠ 1 → strandLive s n = false → ∀ c ∈ [Instr.strandUpdate n, .strandFlush n, .strandRelease n],
      exec c s = .next { s with hst := { s.hst with strandResult := 2, strandStatus := stStrandInvalid } }) ∧
    (s.hst.strandResult ≠ 1 → stageDone s 3 = false →
      exec (.strandActivate n) s = .next { s with hst := { s.hst with strandResult := 2, strandStatus := stNotReady } }) ∧
    (s.hst.strandResult ≠ 1 → stageDone s 3 = true → (bit (rd64 s (strandEntry s n 0)) 0 = false ∨ strandLive s n = true) →
      exec (.strandActivate n) s = .next { s with hst := { s.hst with strandResult := 2, strandStatus := stStrandInvalid } }) ∧
    (s.hst.strandResult ≠ 1 → stageDone s 3 = true → bit (rd64 s (strandEntry s n 0)) 0 = true → strandLive s n = false →
      ∃ t, exec (.strandActivate n) s = .next t ∧ OnlyParts [.mem, .hst, .lnkCache] s t ∧ t.hst.strandResult = 0 ∧ t.hst.strandStatus = 0 ∧
        hstHolds t n = true ∧ (∀ d, d < 8 → lnkHolds t d n = true) ∧
        (∃ x, strand t n = some x ∧ x.words = rdWords s (strandEntry s n 0) 8 ∧ x.txCredit = bits (rd64 s (strandEntry s n 4)) 31 16 ∧ x.tasksDone = 0 ∧ x.stepLast = 0) ∧
        (s.hst.lru.length < 16384 → (∀ d, (tget [] s.lnkCache d).length < 32768) → t.mem = mwriteN s.mem (strandEntry s n 8) (zeros 24))) ∧
    (s.hst.strandResult ≠ 1 → strandLive s n = true →
      (∃ t, exec (.strandUpdate n) s = .next t ∧ OnlyParts [.mem, .hst, .lnkCache] s t ∧ t.hst.strandResult = 0 ∧ t.hst.strandStatus = 0 ∧
        (∃ x y, strand s n = some x ∧ strand t n = some y ∧ y = { x with words := rdWords s (strandEntry s n 0) 8 })) ∧
      (∃ t, exec (.strandFlush n) s = .next t ∧ OnlyParts [.mem, .hst] s t ∧ t.hst.strandResult = 0 ∧ t.hst.strandStatus = 0 ∧ t.hst.strands = s.hst.strands ∧
        (MemoryCanonical s → (lifeline s n).role = 0 → ∃ x, strand s n = some x ∧ rd64 t (strandEntry s n 9) = x.tasksDone % 2 ^ 64 ∧ rd64 t (strandEntry s n 10) = x.stepLast % 2 ^ 64)) ∧
      ((∀ q, (fetched s q).all (fun d => tStrand d.words != n.val) = true) →
        ∃ t, exec (.strandRelease n) s = .next t ∧
          (strandBusy s n = false → strandLive t n = false ∧ t.hst.strandResult = 0 ∧ t.hst.strandStatus = 0 ∧ hstHolds t n = false ∧ (∀ d, lnkHolds t d n = false) ∧
            t.hst.masks.all (fun p => p.2.strand != n.val) = true) ∧
          (∀ k, (slotOf s k).busy = true → (slotOf s k).ending = false → (slotOf s k).written = false → (slotOf s k).strand = n.val →
            (slotOf t k).ending = true ∧ (slotOf t k).status = stCancelled)))  ∧
    ((hstHolds s n = true ∨ strandLive s n = false) → exec (.strandCacheMiss n) s = .next s) ∧
    (hstHolds s n = false → strandLive s n = true → ∃ t, exec (.strandCacheMiss n) s = .next t ∧ OnlyParts [.regs, .mem, .hst] s t ∧ hstHolds t n = true ∧
      reg t (hstOff HST_STRAND_MISS_COUNT) = (reg s (hstOff HST_STRAND_MISS_COUNT) + 1) % 2 ^ 64)

/-- Host write apertures and configuration space (R419, R420, R448): a write to a disabled core, and one that the ingress refuses, is dropped, counted, recorded
and told of; one that it takes reaches the window; a write that covers byte 511 advances ROW. The device answers a configuration request as R448 says. -/
def Claims.AperturesAndConfig : Prop :=
  (∀ (a : Fin 16) (off : Fin 512) (data : List Byte) (s : State),
    let w := reg s (apOff a)
    let took := data.take (512 - off)
    let row := fun t : State => reg t (apOff a) = if off.val + took.length = 512 then putBits w 31 12 (bits w 31 12 + 1) % 2 ^ 64 else w
    (coreActive s (bits w 5 0) = false → off.val + took.length ≠ 512 → exec (.apertureWrite a off data) s = .next (postedDrop s stWindowViolation 1 a)) ∧
    (coreActive s (bits w 5 0) = false → ∃ t, exec (.apertureWrite a off data) s = .next t ∧ OnlyParts [.regs, .net] s t ∧ row t ∧
      reg t (hstOff HST_POSTED_DROP_COUNT) = (reg s (hstOff HST_POSTED_DROP_COUNT) + 1) % 2 ^ 64 ∧
      reg t (hstOff HST_LAST_DROP) = stWindowViolation + 2 ^ 16 + a.val * 2 ^ 18 ∧ SentEvent s t hstDie 0x801 1 [stWindowViolation, 1, a.val]) ∧
    (coreActive s (bits w 5 0) = true → narrowCause s (bits w 5 0) (bits w 11 6) (bits w 31 12) off took.length .host ≠ 0 →
      ∃ t, exec (.apertureWrite a off data) s = .next t ∧ t.mem = s.mem ∧ row t ∧
        reg t (hstOff HST_POSTED_DROP_COUNT) = (reg s (hstOff HST_POSTED_DROP_COUNT) + 1) % 2 ^ 64 ∧ reg t (hstOff HST_LAST_DROP) = stWindowViolation + 2 ^ 16 + a.val * 2 ^ 18) ∧
    (coreActive s (bits w 5 0) = true → narrowCause s (bits w 5 0) (bits w 11 6) (bits w 31 12) off took.length .host = 0 → off.val + took.length ≠ 512 →
      exec (.apertureWrite a off data) s = .next (ingressNarrow s (bits w 5 0) (bits w 11 6) (bits w 31 12) off .host took false).1)) ∧
  (∀ (dword : BitVec 12) (s : State),
    ((s.power.perstHeld = true ∨ now s < s.power.perstAt + 10 ^ 8) → exec (.configRequest dword) s = .next (emit s (.config none))) ∧
    (s.power.perstHeld = false → s.power.perstAt + 10 ^ 8 ≤ now s → stageDone s 2 = false → exec (.configRequest dword) s = .next (emit s (.config (some none)))) ∧
    (s.power.perstHeld = false → s.power.perstAt + 10 ^ 8 ≤ now s → stageDone s 2 = true →
      exec (.configRequest dword) s = .next (emit s (.config (some (some (Config.configSpace dword.toNat)))))))

/-- REGISTER_WRITE (R354, R9): a repeat is discarded and counted; the register of a command takes that command's effect, from the die that wrote; a plain register keeps its
software fields; offsets of read-only and reserved registers take nothing. -/
def Claims.RegisterWrites : Prop :=
  ∀ (t : BulkTag) (off : BitVec 26) (value : Word) (s : State), let o := off.toNat / 8 * 8
    let d := ownerDie off.toNat
    let u := tookPacket s d t
    let v := value.toNat
    let does : Instr → Prop := fun c => exec (.registerWrite t off value) s = exec c u
    let keeps : Nat → Prop := fun x => exec (.registerWrite t off value) s = .next (setReg u o x)
    (¬ NewPacket s d t → ∃ w, exec (.registerWrite t off value) s = .next w ∧ OnlyParts [.regs] s w ∧
      reg w (rtrOff d MGT_RTR_DUP_COUNT) = (reg s (rtrOff d MGT_RTR_DUP_COUNT) + 1) % 2 ^ 64) ∧
    (NewPacket s d t →
      (∀ c : CoreId, (∀ r ∈ [(CORE_PACE_CLEAR, Instr.corePaceClear c value), (CORE_NUM_CLEAR, .coreNumClear c value), (CORE_FMT_CLEAR, .coreFmtClear c value),
          (CORE_LANE_CLEAR, .coreLaneClear c value), (CORE_ACC_CLEAR, .coreAccClear c value), (CORE_RFU_CLEAR, .coreRfuClear c value), (SPM_CLEAR, .spmClear c value),
          (LOOP_CLEAR, .loopClear c value), (FET_CLEAR, .fetClear c value), (QUE_CLEAR, .queClear c value), (LCE_CLEAR, .lceClear c value),
          (CORE_XLT_CLEAR, .coreXltClear c value), (SPM_OP2, .spmOpStart c value)], o = coreOff c r.1 → does r.2) ∧
        (o = coreOff c SPM_OP0 → keeps (bits v 45 0)) ∧ (o = coreOff c SPM_OP1 → keeps (bits v 19 0)) ∧ (o = coreOff c QUE_TAG_PAGE → keeps (bits v 2 0)) ∧
        (o = coreOff c SPM_PWR_CTL → (bits v 9 8 = 1 → does (.bankPowerDown c (Fin.ofNat 4 v) (Fin.ofNat 64 (bits v 7 2)))) ∧
          (bits v 9 8 = 2 → does (.bankPowerUp c (Fin.ofNat 4 v) (Fin.ofNat 64 (bits v 7 2))))) ∧
        (o = coreOff c SPM_WIN_CTL → (bits v 7 6 = 1 → does (.winOpen c (Fin.ofNat 64 v) false)) ∧ (bits v 7 6 = 2 → does (.winClose c (Fin.ofNat 64 v)))) ∧
        (∀ (m : Fin 3) (r : RegionId) (w : Fin 8), o = regionOff c m r w → does (.regionEntryWrite c m r w value)) ∧
        (∀ (n : WindowId) (w : Fin 4), o = windowOff c n w → does (.windowEntryWrite c n w value)) ∧
        (∀ k : MarkerId, o = markerOff c k → does (.stitchMarkerWrite c k value)) ∧
        (∀ r ∈ [CORE_PACE_STATUS, CORE_VCORE, LOOP_STATUS, FET_STATUS, SPM_STATUS, SPM_OP_STATUS], o = coreOff c r → exec (.registerWrite t off value) s = .next u)) ∧
      (∀ q : HwQueue, (o = queOff q 0 → does (.queueEnable q value)) ∧
        (o = queOff q 3 → (v % 4 = 1 → does (.discard q (if t.src.val = coreDie (queCore q) ∧ (core u (queCore q)).task.isSome = true then .task else .software))) ∧ (v % 4 = 2 → does (.queueFlush q)) ∧ (v % 4 = 3 → does (.queueRelease q (BitVec.ofNat 13 (v / 4))))) ∧
        ∀ p, p = (if t.src.val = hstDie then some Producer.host else if 88 ≤ t.src.val ∧ t.src.val < 96 then some (.strand (Fin.ofNat 262144 (queProdStrand s q))) else
            (dieCore t.src).map (fun c => .core (Fin.ofNat 64 c))) → ∀ w, p = some w →
          (o = queOff q 4 → does (.openPacket q w)) ∧ (o = queOff q 5 → does (.data q w value)) ∧ (o = queOff q 6 → does (.close q w))) ∧
      (∀ q : HostQueue, (o = sqOff q 0 → does (.queuePairEnable false q value)) ∧ (o = cqOff q 0 → does (.queuePairEnable true q value)) ∧
        (o = sqOff q 1 ∨ o = cqOff q 1 → keeps (bits v 51 0)) ∧ (o = sqOff q 2 → keeps (bits v 35 0)) ∧ (o = sqOff q 3 → exec (.registerWrite t off value) s = .next u)) ∧
      (o = hstOff HST_CANCEL → does (.hstCancel value)) ∧ (o = hstOff HST_CLEAR → does (.hstClear value)) ∧ (∀ a : Fin 16, o = apOff a → keeps (bits v 31 0)) ∧
      (o = 0x100000 + MGT_DICT_GO → bit v 0 = true → does .dictWindowGo) ∧
      (o = strandOff HST_STRAND_CTL → let n : StrandId := Fin.ofNat 262144 v
        (bits v 20 18 = 1 → does (.strandActivate n)) ∧ (bits v 20 18 = 2 → does (.strandUpdate n)) ∧ (bits v 20 18 = 3 → does (.strandFlush n)) ∧
        (bits v 20 18 = 4 → does (.strandRelease n))) ∧
      (∀ e : LnkDie, (o = portOff (2 * e.val) LNK_PORT_CLEAR → does (.lnkPortClear (Fin.ofNat 16 (2 * e)) value)) ∧
        (o = portOff (2 * e.val + 1) LNK_PORT_CLEAR → does (.lnkPortClear (Fin.ofNat 16 (2 * e + 1)) value)) ∧ (o = lnkOff e LNK_DIE_CLEAR → does (.lnkDieClear e value)) ∧
        (∀ x : Fin 8, (o = mergeOff e x 0 → does (.mergeContextOpen e x value)) ∧ (o = mergeOff e x 3 → keeps (bits v 47 0)) ∧
          (o = mergeOff e x 1 ∨ o = mergeOff e x 2 → keeps (bits v 35 0)))) ∧
      (∀ k : StackId, o = mifOff k MIF_CLEAR → does (.mifClear k value)) ∧ (∀ p : FarPort, o = farOff p FAR_CLEAR → does (.farClear p value)) ∧
      (o = 0x3C00000 + MGT_REFTIME_LOAD → does (.reftimeLoad value)) ∧ (o = 0x3C00000 + MGT_REFTIME_SLEW → does (.reftimeSlew value)) ∧
      (∀ e : DieId, o = rtrOff e MGT_RTR_CLEAR → does (.mgtRtrClear e value)) ∧ (o = llOff MGT_LL_CLEAR → does (.mgtLlClear value)) ∧ (o = llOff MGT_LL_ARG → keeps (bits v 47 0)) ∧
      (o = llOff MGT_LL_CTL → let n : StrandId := Fin.ofNat 262144 v
        (bits v 20 18 = 1 → does (.arm n)) ∧ (bits v 20 18 = 2 → does (.hold n)) ∧ (bits v 20 18 = 3 → does (.lifelineDisarm n)) ∧ (bits v 20 18 = 4 → does (.restore n))) ∧
      (o = pwrOff MGT_PWR_CLEAR → does (.mgtPwrClear value)) ∧ (o = secOff SEC_CLEAR → does (.secClear value)) ∧
      (o = secOff SEC_CTL → (v % 4 = 1 → does .fwCommit) ∧ (v % 4 = 2 → does .relock) ∧ (v % 4 = 0 → exec (.registerWrite t off value) s = .next u)) ∧
      (o < 0x10000 ∨ o = 0x3C00000 + MGT_REFTIME → exec (.registerWrite t off value) s = .next u))

/-- Writes from the host and over the bulk network (R354, R419, R421, R448): apertures, the configuration space, and registers. -/
def Obligations.HostWrites : Prop := Claims.AperturesAndConfig ∧ Claims.RegisterWrites

/-! Background work and saturation telemetry (19 R485 to R493, 22 R532). -/

/-- A boundary of the background period (R486 to R490), which 100 microseconds of REFTIME part from the last: each instance of an activity that runs owes a period's share of its work more and what was done less, its tier
follows its debt, its loss stays within the share that its tier allows but for a retraining that runs whatever the budget; an activity that does not run is left as it is. -/
def Claims.BackgroundAccounts : Prop :=
  (∀ (uses : List BgUse) (s : State), ∃ t, exec (.backgroundPeriod uses) s = .next t ∧ OnlyParts [.regs, .hst, .bg, .dict, .net, .out] s t ∧
    (now s < s.bg.lastPeriod + 100000 → t = s) ∧
    ∀ a i, s.bg.lastPeriod + 100000 ≤ now s → 1 ≤ a → a ≤ 7 → i < bgInstances a →
      (bgRuns s a = true →
        tget 0 t.bg.debt (bgKey a i) = tget 0 s.bg.debt (bgKey a i) + ((bgUnits s a i * 10 ^ 17 / bgPeriod s a : Nat) : Int) - ((bgDone s uses a i * 10 ^ 18 : Nat) : Int) ∧
        tget 0 t.bg.tier (bgKey a i) = (if bgUnits s a i = 0 then 0 else urgency s a (bgUnits s a i) (tget 0 s.bg.tier (bgKey a i)) (tget 0 t.bg.debt (bgKey a i))) ∧
        tget 0 t.bg.units (bgKey a i) = tget 0 s.bg.units (bgKey a i) + bgDone s uses a i ∧
        ((∀ x ∈ uses, useId x = a → x.forced = false) → tget 0 t.bg.loss (bgKey a i) ≤ tget 0 s.bg.loss (bgKey a i) + 1000 * bgShare s a (tget 0 s.bg.tier (bgKey a i)))) ∧
      (bgRuns s a = false → tget 0 t.bg.debt (bgKey a i) = tget 0 s.bg.debt (bgKey a i) ∧ tget 0 t.bg.tier (bgKey a i) = tget 0 s.bg.tier (bgKey a i) ∧
        tget 0 t.bg.units (bgKey a i) = tget 0 s.bg.units (bgKey a i) ∧ tget 0 t.bg.loss (bgKey a i) = tget 0 s.bg.loss (bgKey a i))) ∧
  (∀ (c : CoreId) (s : State), (bgRuns s 5 = false → exec (.agingMonitorSweep c) s = .next s) ∧
    (bgRuns s 5 = true → ∃ t, exec (.agingMonitorSweep c) s = .next t ∧ OnlyParts [.wear] s t ∧ tget 0 t.wear (4096 + c.val) = tget 0 s.wear (4096 + c.val) + 1)) ∧
  (∀ (block : Fin 4096) (s : State), (bgRuns s 6 = false → exec (.mramWearLevel block) s = .next s) ∧
    (bgRuns s 6 = true → ∃ t, exec (.mramWearLevel block) s = .next t ∧ OnlyParts [.wear] s t ∧ tget 0 t.wear block = tget 0 s.wear block + 1)) ∧
  (∀ (p : PortId) (lane : Fin 8) (margin : BitVec 16) (s : State),
    ((bgRuns s 4 = false ∨ (port s p).state ≠ 3) → exec (.eyeMonitorScan p lane margin) s = .next s) ∧
    (bgRuns s 4 = true → (port s p).state = 3 → ∃ t, exec (.eyeMonitorScan p lane margin) s = .next t ∧ OnlyParts [.regs, .ports] s t ∧
      tget 0 (port t p).eyes lane = margin.toNat ∧ (∀ e ∈ (port t p).eyes, reg t (portOff p LNK_EYE_MARGIN) ≤ e.2) ∧
      (reg t (portOff p LNK_EYE_MARGIN) = 0xFFFF ∨ ∃ e ∈ (port t p).eyes, reg t (portOff p LNK_EYE_MARGIN) = e.2)))

/-- Saturation telemetry (R491 to R493, R532): the sub-period's measures are kept; at a window's end FIRST is a code saturated in the first sub-period with one, never
7 beside 1, 2 or 8, never 6 beside 3 or 11, and of the others none has a larger ratio; a FIRST that held ten windows and is new is told of. -/
def Claims.SaturationWindow : Prop :=
  (∀ (sampled : Bool) (s : State), exec (.telemetrySample sampled) s = .next { s with sat := { s.sat with notSampled := s.sat.notSampled + b2n !sampled } }) ∧
  (∀ (measures : List Measure) (s : State), (now s < s.sat.since + 100000 → exec (.saturationSubperiod measures) s = .next s) ∧
    (s.sat.since + 100000 ≤ now s → measures.length = 10 → exec (.saturationSubperiod measures) s = .next { s with
    sat := { s.sat with since := now s, subperiods := s.sat.subperiods ++ [measures ++ [{ value := b2n s.power.thermal, inst := 99 }]] } })) ∧
  (∀ (s : State), ∃ t, exec .saturationWindowEnd s = .next t ∧ t.sat.subperiods = [] ∧
    (s.sat.subperiods.all (fun l => (satCodes s l).isEmpty) = true → t.sat.first = 0 ∧ t.sat.record = [now s, 0, 0, 0]) ∧
    (∀ before l after, s.sat.subperiods = before ++ l :: after → before.all (fun l => (satCodes s l).isEmpty) = true → satCodes s l ≠ [] →
      t.sat.first ∈ satCodes s l ∧ (t.sat.first = 7 → 1 ∉ satCodes s l ∧ 2 ∉ satCodes s l ∧ 8 ∉ satCodes s l) ∧
      (t.sat.first = 6 → 3 ∉ satCodes s l ∧ 11 ∉ satCodes s l) ∧
      ((∀ c, 1 ≤ c → c ≤ 11 → 0 < satThreshold s c) → ∀ c ∈ satChoices (satCodes s l), (satMeasure l c).value * satThreshold s t.sat.first ≤ (satMeasure l t.sat.first).value * satThreshold s c)) ∧
    (t.sat.first = s.sat.reported ∨ t.sat.first ≠ s.sat.first ∨ s.sat.held < 9 → OnlyParts [.sat, .cache] s t) ∧
    (t.sat.first ≠ s.sat.reported → t.sat.first = s.sat.first → 9 ≤ s.sat.held → s.sat.lastEvent = none → LoggedEvent s t 0xB05 1 [s.sat.reported, t.sat.first]))

/-- Background work (R485 to R490) and saturation telemetry (R491 to R493, R532). -/
def Obligations.BackgroundAndSaturation : Prop := Claims.BackgroundAccounts ∧ Claims.SaturationWindow

/-! The dictionary (19 R463 to R473, R540). -/

/-- A reply's header carries the request's OP, STAGED, OFFSET and TAG, and the answer's TYPE, INDEX, SUB, LENGTH and STATUS in the places of R466. -/
def Claims.ReplyHeader : Prop :=
  ∀ (r : DictReq) (a : DictAns), r.op < 16 → a.type < 256 → a.index < 2 ^ 16 → a.sub < 256 → a.data.length < 2 ^ 16 → r.off < 2 ^ 32 → r.tag < 2 ^ 16 → a.status < 2 ^ 16 →
    bits (replyHdr0 r a) 3 0 = r.op ∧ bit (replyHdr0 r a) 4 = r.staged ∧ bits (replyHdr0 r a) 15 8 = a.type ∧ bits (replyHdr0 r a) 31 16 = a.index ∧
    bits (replyHdr0 r a) 39 32 = a.sub ∧ bits (replyHdr0 r a) 63 48 = a.data.length ∧
    bits (replyHdr1 r a) 31 0 = r.off ∧ bits (replyHdr1 r a) 47 32 = r.tag ∧ bits (replyHdr1 r a) 63 48 = a.status

/-- READ, WRITE and NEXT (R463, R467, R540) on any path that answers: each refusal with its status, and nothing changed; a read returns the value, the
staged one where it is asked for; a write of an RWS object is staged, one of any other takes effect before the reply; NEXT finds the next object. The
manual lists no RWL object; one would be refused with LOCKED outside an unlock. -/
def Obligations.DictionaryReadsWrites : Prop :=
  (∀ (path : DictPath) (index : BitVec 16) (sub type : Byte) (staged : Bool) (v : List Byte) (s : State),
    let rd : DictReq := ⟨1, staged, type.toNat, index.toNat, sub.toNat, 0, 0, 0, [], []⟩
    let wr : DictReq := ⟨2, false, type.toNat, index.toNat, sub.toNat, v.length, 0, 0, v, []⟩
    let nx : DictReq := ⟨5, staged, 0, index.toNat, sub.toNat, 0, 0, 0, [], []⟩
    let key := index.toNat * 256 + sub.toNat
    (pathUp s path = false → exec (.read path index sub type staged) s = .next s ∧ exec (.write path index sub type v) s = .next s ∧
      exec (.next path index sub staged) s = .next s) ∧
    (pathUp s path = true → 1024 < v.length → exec (.write path index sub type v) s = .next (replies s path wr stDescriptorInvalid 0 [])) ∧
    (pathUp s path = true → dictObj key = none → exec (.read path index sub type staged) s = .next (replies s path rd stObjectUnknown 0 []) ∧
      (v.length ≤ 1024 → exec (.write path index sub type v) s = .next (replies s path wr stObjectUnknown 0 []))) ∧
    (∀ o, pathUp s path = true → dictObj key = some o → (type.toNat ≠ 0 ∧ type.toNat ≠ o.type ∨ isLarge o = true) →
      exec (.read path index sub type staged) s = .next (replies s path rd stTypeMismatch o.type []) ∧
      (v.length ≤ 1024 → exec (.write path index sub type v) s = .next (replies s path wr stTypeMismatch o.type []))) ∧
    (∀ o, pathUp s path = true → dictObj key = some o → (type.toNat = 0 ∨ type.toNat = o.type) → isLarge o = false →
      (o.access = .wo → exec (.read path index sub type staged) s = .next (replies s path rd stAccessDenied o.type [])) ∧
      (o.access ≠ .wo → o.key ≠ 0x803001 → exec (.read path index sub type staged) s =
        .next (replies s path rd 0 o.type (if staged = true ∧ o.access = .rws then stagedBytes s o.key else dictValue s o))) ∧
      (v.length ≤ 1024 →
        (o.access = .ro → exec (.write path index sub type v) s = .next (replies s path wr stAccessDenied o.type [])) ∧
        (o.access ≠ .ro →
          (valueFits o v = false → exec (.write path index sub type v) s = .next (replies s path wr stTypeMismatch o.type [])) ∧
          (valueFits o v = true → rangeOk o.key (leNat v) = false → exec (.write path index sub type v) s = .next (replies s path wr stValueOutOfRange o.type [])) ∧
          (valueFits o v = true → rangeOk o.key (leNat v) = true →
            (o.access = .rws → exec (.write path index sub type v) s =
              .next (replies { s with dict := { s.dict with staged := tset s.dict.staged (aliasKey o.key) v } } path wr 0 o.type [])) ∧
            (o.access ≠ .rws → exec (.write path index sub type v) s = .next (replies (writeEffect s o.key v).2 path wr (writeEffect s o.key v).1 o.type [])))))) ∧
    (pathUp s path = true → (nextKey key = none → exec (.next path index sub staged) s = .next (replies s path nx stObjectUnknown 0 [])) ∧
      (∀ k o, nextKey key = some k → dictObj k = some o →
        (o.access = .wo → exec (.next path index sub staged) s = .next (replies s path { nx with index := k / 256, sub := k % 256 } 0 o.type [])) ∧
        (o.access ≠ .wo → o.key ≠ 0x803001 → exec (.next path index sub staged) s = .next (replies s path { nx with index := k / 256, sub := k % 256 } 0 o.type
          ((if staged = true ∧ o.access = .rws then stagedBytes s o.key else dictValue s o).take 1024)))))) ∧
  (∀ n, (nextKey n = none → ∀ j, n < j → dictObj j = none) ∧
    ∀ k, nextKey n = some k → n < k ∧ dictObj k ≠ none ∧ ∀ j, n < j → dictObj j ≠ none → k ≤ j) ∧
  (∀ key, (dictObj key).all (fun o => o.access != .rwl) = true) ∧
  (∀ (o : Obj) (s : State), o.access = .rwl → writeDenied s o = if s.sec.unlockLevel = 0 then stLocked else 0)

/-- "When a value written to 0x2011:02, 0x2011:03 or 0x2011:04 exceeds 100, the write is refused" (R59): on every path, whatever the state, such a write answers
VALUE_OUT_OF_RANGE and changes nothing. -/
def Obligations.PaceSharesRefused : Prop :=
  ∀ (path : DictPath) (sub type : Byte) (v : List Byte) (s : State), pathUp s path = true → sub ∈ [2#8, 3#8, 4#8] → v.length = 1 → 100 < leNat v → (type.toNat = 0 ∨ type.toNat = 2) →
    exec (.write path 0x2011 sub type v) s = .next (replies s path ⟨2, false, type.toNat, 0x2011, sub.toNat, 1, 0, 0, v, []⟩ stValueOutOfRange 2 [])

/-- Segments (R467): of an object that is not large they are refused; an OFFSET beyond its size is refused; a read returns the part; a first segment starts a
partial write, one that continues it adds to it, one that does not ends it, and the last writes the object. -/
def Claims.DictionarySegments : Prop :=
  ∀ (path : DictPath) (index : BitVec 16) (sub : Byte) (off : BitVec 32) (staged : Bool) (v : List Byte) (im : List ImageCheck) (s : State),
    let rd : DictReq := ⟨3, staged, 0, index.toNat, sub.toNat, 0, off.toNat, 0, [], []⟩
    let wr : DictReq := ⟨4, false, 0, index.toNat, sub.toNat, v.length, off.toNat, 0, v, im⟩
    let dropped := dropPartial s (pathNo path)
    (pathUp s path = false → exec (.segRead path index sub off staged) s = .next s ∧ exec (.segWrite path index sub off v im) s = .next s) ∧
    (pathUp s path = true → 1024 < v.length → exec (.segWrite path index sub off v im) s = .next (replies s path wr stDescriptorInvalid 0 [])) ∧
    (∀ o, pathUp s path = true → v.length ≤ 1024 → dictObj (index.toNat * 256 + sub.toNat) = some o →
      (isLarge o = false → exec (.segRead path index sub off staged) s = .next (replies s path rd stTypeMismatch o.type []) ∧
        exec (.segWrite path index sub off v im) s = .next (replies s path wr stTypeMismatch o.type [])) ∧
      (isLarge o = true → o.size ≤ off.toNat → exec (.segRead path index sub off staged) s = .next (replies s path rd stValueOutOfRange o.type []) ∧
        exec (.segWrite path index sub off v im) s = .next (replies s path wr stValueOutOfRange o.type [])) ∧
      (isLarge o = true → off.toNat < o.size →
        (o.access ≠ .wo → o.key ≠ 0x803001 → exec (.segRead path index sub off staged) s = .next (replies s path rd 0 o.type
          (((if staged = true ∧ o.access = .rws then stagedBytes s o.key else dictValue s o).drop off.toNat).take 1024))) ∧
        (writeDenied s o ≠ 0 → exec (.segWrite path index sub off v im) s = .next (replies s path wr (writeDenied s o) o.type [])) ∧
        (writeDenied s o = 0 → o.key ≠ 0x801001 →
          (∀ l, (off.toNat = 0 ∧ l = [] ∨ off.toNat ≠ 0 ∧ tfind s.dict.partials (pathNo path) = some (o.key, l) ∧ l.length = off.toNat) →
            (v.length = 1024 → off.toNat + 1024 < o.size → exec (.segWrite path index sub off v im) s = .next (replies
              { dropped with dict := { dropped.dict with partials := tset dropped.dict.partials (pathNo path) (o.key, l ++ v) } } path wr 0 o.type [])) ∧
            (off.toNat + v.length = o.size → exec (.segWrite path index sub off v im) s =
              .next (replies (writeObj dropped o (l ++ v)).2 path wr (writeObj dropped o (l ++ v)).1 o.type []))) ∧
          (off.toNat ≠ 0 → (∀ l, tfind s.dict.partials (pathNo path) = some (o.key, l) → l.length ≠ off.toNat) →
            exec (.segWrite path index sub off v im) s = .next (replies dropped path wr stTypeMismatch o.type [])))))

/-- Replies of the dictionary (R466) and its segments (R467). -/
def Obligations.RepliesAndSegments : Prop := Claims.ReplyHeader ∧ Claims.DictionarySegments

/-- The dictionary's paths (R468, R470, R472, R473): the mailbox, the window and TDP answer a request by its header, and refuse a reserved one; the window takes the
reply's header and data; TDP discards other versions, answers nothing to a group address, and version 1 allows READ, WRITE and NEXT alone. -/
def Obligations.DictionaryPaths : Prop :=
  (∀ (h0 h1 : Word) (d : List Byte) (s : State), let r := dictReq h0.toNat h1.toNat d (Config.imageSet s.freeIdx)
    let u := { s with freeIdx := s.freeIdx + 1 }
    (pathUp s .mailbox = false → exec (.dictRequest h0 h1 d) s = .next u) ∧
    (pathUp s .mailbox = true → (r.op = 0 ∨ 5 < r.op ∨ 1024 < r.len) → exec (.dictRequest h0 h1 d) s = .next (replies u .mailbox r stDescriptorInvalid 0 [])) ∧
    (pathUp s .mailbox = true → exec (.dictRequest h0 h1 d) s = .next (emit (dictApply u 1 r).2
      (.reply .mailbox (replyHdr0 r (dictApply u 1 r).1) (replyHdr1 r (dictApply u 1 r).1) (dictApply u 1 r).1.data)))) ∧
  (∀ (seq : BitVec 32) (s : State), (pathUp s .mailbox = false → exec (.eventRead seq) s = .next s) ∧
    (pathUp s .mailbox = true → ∃ l, exec (.eventRead seq) s = .next (emit s (.mailbox false l)) ∧
      (1 ≤ seq.toNat → seq.toNat ≤ s.dict.eventSeq → s.dict.eventSeq < seq.toNat + 6144 → thas s.dict.events ((seq.toNat - 1) % 6144) = true →
        (slotWords s ((seq.toNat - 1) % 6144)).flatMap (leBytes 8) <+: l))) ∧
  (∀ s : State, (pathUp s .window = false → exec .dictWindowGo s = .next s) ∧
    (pathUp s .window = true → 
      let data := (s.dict.window ++ zeros 1024).take 1024
      let r := dictReq (reg s (dictOff MGT_DICT_HDR0)) (reg s (dictOff MGT_DICT_HDR1)) data (Config.imageSet s.freeIdx)
      let a := (dictApply { s with freeIdx := s.freeIdx + 1 } 2 r).1
      ∃ t, exec .dictWindowGo s = .next t ∧ reg t (dictOff MGT_DICT_HDR0) = replyHdr0 r a % 2 ^ 64 ∧ reg t (dictOff MGT_DICT_HDR1) = replyHdr1 r a % 2 ^ 64 ∧
        t.dict.window = a.data ++ data.drop a.data.length)) ∧
  (∀ (version msg : Fin 16) (seq : BitVec 16) (group : Bool) (h0 h1 : Word) (d : List Byte) (s : State),
    let took := { s with dict := { s.dict with tdpReceived := s.dict.tdpReceived + 1 } }
    let r := dictReq h0.toNat h1.toNat d (Config.imageSet s.freeIdx)
    let u := { took with freeIdx := s.freeIdx + 1 }
    (s.power.stage = 15 → exec (.tdpFrameReceive version msg seq group h0 h1 d) s = .next s) ∧
    (s.power.stage ≠ 15 → version.val ≠ 1 → version.val ≠ 2 → exec (.tdpFrameReceive version msg seq group h0 h1 d) s =
      .next { took with dict := { took.dict with tdpDiscarded := s.dict.tdpDiscarded + 1 } }) ∧
    (s.power.stage ≠ 15 → (version.val = 1 ∨ version.val = 2) → msg.val ≠ 0 → exec (.tdpFrameReceive version msg seq group h0 h1 d) s = .next took) ∧
    (s.power.stage ≠ 15 → version.val = 2 → msg.val = 0 →
      (group = true → exec (.tdpFrameReceive version msg seq group h0 h1 d) s = .next (dictApply u 0 r).2) ∧
      (group = false → ∃ t, exec (.tdpFrameReceive version msg seq group h0 h1 d) s = .next t ∧ t.dict.tdpSeq = (dictApply u 0 r).2.dict.tdpSeq + 1 ∧ 
        t.out = .reply .tdp (replyHdr0 r (dictApply u 0 r).1) (replyHdr1 r (dictApply u 0 r).1) (dictApply u 0 r).1.data :: .tdpReply 2 (dictApply u 0 r).2.dict.tdpSeq :: (dictApply u 0 r).2.out)) ∧
    (s.power.stage ≠ 15 → version.val = 1 → msg.val = 0 → group = false → r.op ∉ [1, 2, 5] → ∃ t, exec (.tdpFrameReceive version msg seq group h0 h1 d) s = .next t ∧ OnlyParts [.dict, .freeIdx, .out] s t ∧
      ∃ hdr0 hdr1, t.out = .reply .tdp hdr0 hdr1 [] :: .tdpReply 1 s.dict.tdpSeq :: s.out ∧ hdr1 = r.off + r.tag * 2 ^ 32 + stDescriptorInvalid * 2 ^ 48))

/-! Configuration epochs and the segment (19 R471, R479 to R484). -/

/-- Arming, freezing and activating an epoch (R479 to R481): the refusals leave the state as it is; a freeze takes the staging set and sends FREEZE to every other die, or
refuses an epoch that fails a constraint with the set back as it was; an activation puts the frozen values in force and raises EPOCH. -/
def Obligations.ConfigurationEpochs : Prop :=
  (∀ (time : Word) (s : State), ((s.dict.armState = 2 ∨ objNat s 0x102002 ≠ s.dict.epoch + 1 ∨ time.toNat < now s + 1000000) →
      exec (.epochArm time) s = .next s ∧ (armEpoch s time.toNat).1 = stEpochInvalid) ∧
    (s.dict.armState ≠ 2 → objNat s 0x102002 = s.dict.epoch + 1 → now s + 1000000 ≤ time.toNat → ∃ t, exec (.epochArm time) s = .next t ∧ OnlyParts [.dict] s t ∧
      t.dict.armState = 1 ∧ objNat t 0x102003 = time.toNat)) ∧
  (∀ s : State, (s.dict.armState = 2 → exec .epochDisarm s = .next s ∧ (disarmEpoch s true).1 = stEpochInvalid) ∧
    (s.dict.armState ≠ 2 → exec .epochDisarm s = .next { s with dict := { s.dict with armState := 0 } })) ∧
  (∀ s : State, let f := { s with dict := { s.dict with frozen := s.dict.staged, staged := [] } }
    (¬(s.dict.armState = 1 ∧ objNat s 0x102003 ≤ now s + 100000) → exec .epochFreeze s = .next s) ∧
    (s.dict.armState = 1 → objNat s 0x102003 ≤ now s + 100000 →
      (epochFails f = [] → ∃ t, exec .epochFreeze s = .next t ∧ OnlyParts [.dict, .net] s t ∧ t.dict = { s.dict with frozen := s.dict.staged, staged := [], armState := 2 } ∧
        ∀ d, d < 99 → ∃ m ∈ t.net.chain, m.src = mgtDie ∧ m.dst = d ∧ m.msg = .config 6 0 0 0 ((s.dict.epoch + 1) % 2 ^ 32)) ∧
      (∀ k rest, epochFails f = k :: rest → ∃ t, exec .epochFreeze s = .next t ∧ t.dict.armState = 0 ∧ t.dict.epoch = s.dict.epoch ∧ t.dict.values = s.dict.values ∧
        t.dict.staged = s.dict.staged ∧ LoggedEvent s t 0xB02 2 [k / 256, k % 256]))) ∧
  (∀ s : State, (¬(s.dict.armState = 2 ∧ objNat s 0x102003 ≤ now s) → exec .epochActivation s = .next s) ∧
    (s.dict.armState = 2 → objNat s 0x102003 ≤ now s → ∃ t, exec .epochActivation s = .next t ∧ t.dict.epoch = (s.dict.epoch + 1) % 2 ^ 32 ∧ t.dict.armState = 0 ∧
      t.dict.activated = now s ∧ t.dict.values = s.dict.frozen.foldl (fun v p => tset v p.1 p.2) s.dict.values ∧ LoggedEvent s t 0xB01 1 [(s.dict.epoch + 1) % 2 ^ 32] ∧
      (s.power.stage ≠ 15 → t.dict.heartbeats = s.dict.heartbeats + 1) ∧
      (∀ d, d < 99 → ∃ m ∈ t.net.chain, m.src = mgtDie ∧ m.dst = d ∧ m.msg = .config 5 0 0 0 ((s.dict.epoch + 1) % 2 ^ 32))))

/-- The segment (R471, R483, R484): a heartbeat leaves with the words of R471; one received compares EPOCH and digest and marks its sender divergent or no longer so, each time with
an event; a master's first loads REFTIME, a later one slews an offset beyond 1 µs. -/
def Obligations.Segment : Prop :=
  (∀ s : State, (s.power.stage = 15 → exec .heartbeat s = .next s) ∧ (s.power.stage ≠ 15 → ∃ t, exec .heartbeat s = .next t ∧ OnlyParts [.dict, .out] s t ∧
    t.out = .heartbeat (heartbeatWords s) (configDigest s) :: s.out ∧ t.dict.heartbeats = s.dict.heartbeats + 1)) ∧
  (∀ (v2 master : Bool) (dev : BitVec 12) (epoch : BitVec 32) (time : Word) (digest : List Byte) (s : State),
    (s.power.stage = 15 → exec (.heartbeatReceived v2 master dev epoch time digest) s = .next s) ∧
    (s.power.stage ≠ 15 → v2 = false → (master = false ∨ objNat s 0x104001 ≠ 1) →
      exec (.heartbeatReceived v2 master dev epoch time digest) s = .next { s with dict := { s.dict with tdpReceived := s.dict.tdpReceived + 1 } }) ∧
    (s.power.stage ≠ 15 → v2 = true → master = false → epoch.toNat = s.dict.epoch →
      (digest ≠ configDigest s → s.dict.divergent.contains dev.toNat = false → ∃ t, exec (.heartbeatReceived v2 master dev epoch time digest) s = .next t ∧
        t.dict.divergent = s.dict.divergent ++ [dev.toNat] ∧ LoggedEvent s t 0xB03 2 [dev.toNat]) ∧
      (digest = configDigest s → s.dict.divergent.contains dev.toNat = true → ∃ t, exec (.heartbeatReceived v2 master dev epoch time digest) s = .next t ∧
        t.dict.divergent = s.dict.divergent.filter (· != dev.toNat) ∧ LoggedEvent s t 0xB03 2 [dev.toNat])) ∧
    (s.power.stage ≠ 15 → v2 = true → master = false → epoch.toNat ≠ s.dict.epoch → tfind s.dict.peerSince dev.toNat = none → s.dict.divergent.contains dev.toNat = false →
      ∃ t, exec (.heartbeatReceived v2 master dev epoch time digest) s = .next t ∧ OnlyParts [.dict] s t ∧ tfind t.dict.peerSince dev.toNat = some (now s) ∧ t.dict.divergent = s.dict.divergent) ∧
    (s.power.stage ≠ 15 → v2 = false → master = true → objNat s 0x104001 = 1 → ∃ t, exec (.heartbeatReceived v2 master dev epoch time digest) s = .next t ∧ OnlyParts [.clock, .dict] s t ∧
      (s.clock.locked = false → now s ≤ time.toNat → now t = time.toNat ∧ t.clock.locked = true) ∧
      (s.clock.locked = true → (1000 < ((time.toNat : Int) - now s).natAbs → t.clock.slew = ((time.toNat : Int) - now s) * 1000) ∧
        (((time.toNat : Int) - now s).natAbs ≤ 1000 → t.clock = s.clock)))) ∧
  (∀ (dev : BitVec 12) (s : State),
    (s.dict.divergent.contains dev.toNat = true ∨ (∀ t, tfind s.dict.peerSince dev.toNat = some t → now s - t ≤ objNat s 0x501005 * 1000000) →
      exec (.segmentDivergenceTimeout dev) s = .next s) ∧
    (∀ t0, s.dict.divergent.contains dev.toNat = false → tfind s.dict.peerSince dev.toNat = some t0 → objNat s 0x501005 * 1000000 < now s - t0 →
      ∃ t, exec (.segmentDivergenceTimeout dev) s = .next t ∧ t.dict.divergent = s.dict.divergent ++ [dev.toNat] ∧ LoggedEvent s t 0xB03 2 [dev.toNat]))

/-! The root of trust (20 R496 to R512) and the standard mailbox (16 R398). -/

/-- Firmware commit, transfer and activation (R499, R501, R504 to R506): a set is accepted only whole, each image sound and no older than its counter; a commit raises the
counters that the running set names, and no counter falls; a set is transferred in order by one path at a time. -/
def Obligations.FirmwareUpdate : Prop :=
  (∀ s : State, (s.power.sag = true ∨ s.sec.burning = true → exec .fwCommit s = .next s ∧ (commitFw s).1 = stNotReady) ∧
    (s.power.sag = false → s.sec.burning = false → ∃ t, exec .fwCommit s = .next t ∧ OnlyParts [.sec] s t ∧ t.sec.burning = true ∧ (commitFw s).1 = 0 ∧
      ∀ i ∈ s.sec.running, min 64 i.svn ≤ tget 0 t.sec.burnTo i.counter)) ∧
  (∀ s : State, (s.sec.burning = false → exec .burnComplete s = .next s) ∧
    (s.sec.burning = true → ∃ t, exec .burnComplete s = .next t ∧ t.sec.burning = false ∧ LoggedEvent s t 0xC02 1 [] ∧
      (∀ c, rollback s c ≤ rollback t c) ∧ ∀ p ∈ s.sec.burnTo, min 64 p.2 ≤ rollback t p.1)) ∧
  (∀ (s : State) (l : List ImageCheck), setStatus s l = 0 ↔
    (∀ i ∈ l, i.formOk = true ∧ i.keysOk = true ∧ i.hashOk = true ∧ i.signaturesOk = true ∧ rollback s i.counter ≤ i.svn) ∧ ∀ k, 1 ≤ k → k ≤ 7 → ∃ i ∈ l, i.kind.val = k) ∧
  (∀ (off : Nat) (data : List Byte) (last : Bool) (im : List ImageCheck) (s : State),
    let answers := fun (n : Nat) (t : State) => exec (.transferFw off data last im) s = .next (emit t (.mailbox false (leBytes 2 n)))
    (33554432 < off + data.length → answers stValueOutOfRange s) ∧
    (off + data.length ≤ 33554432 →
      (∀ p n, s.sec.transfer = some (p, n) → p ≠ 1 → answers stNotReady s) ∧
      (∀ n, s.sec.transfer = some (1, n) → off ≠ n → off = 0 → answers stNotReady s) ∧
      (∀ n, s.sec.transfer = some (1, n) → off ≠ n → off ≠ 0 → answers stTypeMismatch { s with sec := { s.sec with transfer := none } }) ∧
      (s.sec.transfer = none → off ≠ 0 → answers stTypeMismatch s) ∧
      ((s.sec.transfer = none ∧ off = 0 ∨ s.sec.transfer = some (1, off)) →
        (last = false → answers 0 { s with sec := { s.sec with transfer := some (1, off + data.length), activatable := false } }) ∧
        (last = true → answers (setStatus s im) { s with sec := { s.sec with transfer := none, stagedImages := im, activatable := setStatus s im == 0 } })))) ∧
  (∀ (slot : Fin 16) (online : Bool) (s : State),
    let answers := fun (n : Nat) (t : State) => exec (.activateFw slot online) s = .next (emit t (.mailbox false (leBytes 2 n)))
    (online = true → exec (.activateFw slot online) s = .next (emit s (.mailbox true []))) ∧
    (online = false → (slot.val = 2 → s.sec.activatable = true → answers 0 { s with sec := { s.sec with nextBank := some (1 - s.sec.activeBank) } }) ∧
      (slot.val = 2 → s.sec.activatable = false → answers stNotReady s) ∧ (slot.val = 1 → answers 0 { s with sec := { s.sec with nextBank := none } }) ∧
      (slot.val ≠ 1 → slot.val ≠ 2 → answers stValueOutOfRange s)))

/-- Debug unlocks and the test multiplexer (R510 to R512): a nonce of 48 octets replaces the last; a response with it unlocks to its level, any other is refused and uses it up, and
after three nothing is checked; an unlock ends with every locked source of the multiplexer at 0; below level 2 a locked source leaves its byte as it was. -/
def Obligations.DebugUnlock : Prop :=
  (∀ s : State, ∃ t l, exec .unlockNonce s = .next t ∧ OnlyParts [.sec, .freeIdx] s t ∧ l.length = 48 ∧ t.sec = { s.sec with nonce := some l }) ∧
  (∀ (nonce : List Byte) (serial : Word) (level : Byte) (dur : BitVec 32) (ok : Bool) (s : State),
    let accepted := s.sec.nonce = some nonce ∧ serial.toNat = Config.serial.toNat ∧ level.toNat ≤ 2 ∧ ok = true
    (s.sec.refusals = 3 → ∃ t, exec (.unlockResponse nonce serial level dur ok) s = .next t ∧ t.sec = s.sec ∧ LoggedEvent s t 0xC04 2 []) ∧
    (s.sec.refusals ≠ 3 → accepted → ∃ t, exec (.unlockResponse nonce serial level dur ok) s = .next t ∧ LoggedEvent s t 0xC03 1 [] ∧
      t.sec = { s.sec with unlockLevel := level.toNat, unlocks := s.sec.unlocks + 1, unlockEnd := now s + dur.toNat * 10 ^ 9, nonce := none }) ∧
    (s.sec.refusals < 3 → ¬accepted → ∃ t, exec (.unlockResponse nonce serial level dur ok) s = .next t ∧ LoggedEvent s t 0xC04 2 [] ∧
      t.sec = { s.sec with refusals := s.sec.refusals + 1, nonce := none })) ∧
  (∀ s : State, (s.sec.unlockLevel = 0 → exec .relock s = .next s ∧ exec .unlockExpiry s = .next s) ∧
    (now s < s.sec.unlockEnd → exec .unlockExpiry s = .next s) ∧ (s.sec.unlockEnd ≤ now s → exec .unlockExpiry s = exec .relock s) ∧
    (s.sec.unlockLevel ≠ 0 → ∃ t, exec .relock s = .next t ∧ t.sec.unlockLevel = 0 ∧ LoggedEvent s t 0xC05 1 [] ∧
      ∀ k, k < 8 → bits t.sec.tmuxSel (8 * k + 7) (8 * k) = if 0x20 ≤ bits s.sec.tmuxSel (8 * k + 7) (8 * k) then 0 else bits s.sec.tmuxSel (8 * k + 7) (8 * k))) ∧
  (∀ (w : Word) (dictionary : Bool) (s : State),
    ((2 ≤ s.sec.unlockLevel ∨ ∀ k, k < 8 → bits w.toNat (8 * k + 7) (8 * k) < 0x20) → exec (.tmuxSelect w dictionary) s = .next { s with sec := { s.sec with tmuxSel := w.toNat } }) ∧
    (s.sec.unlockLevel < 2 → (∃ k, k < 8 ∧ 0x20 ≤ bits w.toNat (8 * k + 7) (8 * k)) → ∃ t, exec (.tmuxSelect w dictionary) s = .next t ∧ OnlyParts [.sec] s t ∧
      t.sec.lockReject = true ∧ t.sec.lockRefused = s.sec.lockRefused + 1 ∧ (selectTmux s w.toNat dictionary).1 = stLocked ∧ (dictionary = true → t.sec.tmuxSel = s.sec.tmuxSel) ∧
      (dictionary = false → ∀ k, k < 8 → bits t.sec.tmuxSel (8 * k + 7) (8 * k) =
        if 0x20 ≤ bits w.toNat (8 * k + 7) (8 * k) then bits s.sec.tmuxSel (8 * k + 7) (8 * k) else bits w.toNat (8 * k + 7) (8 * k))))

/-- The SPDM responder and the standard mailbox (R398, R498, R507 to R509): a connection passes version, capabilities and algorithms in order, and a request out of order is answered
so; at most four connections; an LMS signature follows a signed response at once and takes one leaf; with few leaves left a new alias key replaces the old. -/
def Obligations.Attestation : Prop :=
  (∀ (q : BitVec 48) (s : State), let conn := fun (n : Nat) (h : Option (List Byte)) => setSpdm s { requester := q.toNat, stage := n, hash := h }
    (spdmOf s q.toNat = none → 4 ≤ s.sec.connections.length → exec (.getVersion q) s = .next (spdmError s q.toNat "ERROR Busy")) ∧
    ((spdmOf s q.toNat ≠ none ∨ s.sec.connections.length < 4) → exec (.getVersion q) s = .next (emit (conn 1 none) (.spdm "VERSION" q.toNat (leBytes 1 0x12)))) ∧
    (∀ slot off len hash b signed offered, 
      (∀ n c, (n, c) ∈ [(1, Instr.getCapabilities q), (2, .negotiateAlgorithms q offered), (3, .getDigests q), (3, .getCertificate q slot off len), (3, .challenge q slot hash),
        (3, .getMeasurements q b signed hash)] → (∀ x, spdmOf s q.toNat = some x → x.stage < n) → exec c s = .next (spdmError s q.toNat "ERROR UnexpectedRequest")) ∧
      (∀ x, spdmOf s q.toNat = some x → x.requester = q.toNat →
        (1 ≤ x.stage → ∃ t, exec (.getCapabilities q) s = .next t ∧ OnlyParts [.sec, .out] s t ∧ spdmOf t q.toNat = some { x with stage := 2, hash := none } ∧
          t.out = .spdm "CAPABILITIES" q.toNat (leBytes 4 (2 + 4 + 16)) :: s.out) ∧
        (2 ≤ x.stage → ∃ t, exec (.negotiateAlgorithms q offered) s = .next t ∧ OnlyParts [.sec, .out] s t ∧
          spdmOf t q.toNat = some { x with stage := if offered then 3 else x.stage, hash := none } ∧
          t.out = (if offered then .spdm "ALGORITHMS" q.toNat (leBytes 4 0x80 ++ leBytes 4 2) else .spdm "ERROR InvalidRequest" q.toNat []) :: s.out) ∧
        (3 ≤ x.stage →
          (∃ t, exec (.getDigests q) s = .next t ∧ OnlyParts [.sec, .out] s t ∧ spdmOf t q.toNat = some { x with hash := none } ∧
            t.out = .spdm "DIGESTS" q.toNat (leBytes 1 1 ++ sha384 (certChain s 0 Config.certLength)) :: s.out) ∧
          (∃ t, exec (.getCertificate q slot off len) s = .next t ∧ OnlyParts [.sec, .out] s t ∧ spdmOf t q.toNat = some { x with hash := none } ∧
            (slot = 0 → off.toNat ≤ Config.certLength → ∃ head, t.out = .spdm "CERTIFICATE" q.toNat (head ++ certChain s off.toNat len.toNat) :: s.out)) ∧
          (∃ t, exec (.challenge q slot hash) s = .next t ∧ OnlyParts [.sec, .out] s t ∧ spdmOf t q.toNat = some { x with hash := if slot = 0 then some hash else none } ∧
            (slot = 0 → t.out = .spdm "CHALLENGE_AUTH" q.toNat (sha384 (certChain s 0 Config.certLength) ++ ecdsaAlias s hash) :: s.out)) ∧
          (∃ t, exec (.getMeasurements q b signed hash) s = .next t ∧ OnlyParts [.sec, .out] s t ∧
            spdmOf t q.toNat = some { x with hash := if signed = true ∧ (b.toNat ≤ 11 ∨ b.toNat = 0xFF) then some hash else none } ∧
            (1 ≤ b.toNat → b.toNat ≤ 11 → t.out = .spdm "MEASUREMENTS" q.toNat (leBytes 1 1 ++ measurementBlock s b.toNat ++ (if signed then ecdsaAlias s hash else [])) :: s.out))))) ∧
    (spdmOf s q.toNat = none → exec (.getLmsSignature q) s = .next (spdmError s q.toNat "ERROR UnexpectedRequest")) ∧
    (∀ x, spdmOf s q.toNat = some x → s.sec.identityLeaf < lmsLeaves →
      (x.hash = none → exec (.getLmsSignature q) s = .next (spdmError (setSpdm s { x with hash := none }) q.toNat "ERROR UnexpectedRequest")) ∧
      (∀ h, x.hash = some h → s.sec.aliasLeaf < lmsLeaves → ∃ t, exec (.getLmsSignature q) s = .next t ∧ OnlyParts [.sec, .out] s t ∧ t.sec.aliasLeaf = s.sec.aliasLeaf + 1 ∧
        t.out = .spdm "LMS_SIGNATURE" q.toNat (lmsAlias s h) :: s.out)) ∧
    (∀ x, spdmOf s q.toNat = some x → lmsLeaves ≤ s.sec.identityLeaf → ∃ t, exec (.getLmsSignature q) s = .next t ∧ .spdm "KEY_EXHAUSTED" q.toNat (leBytes 2 stKeyExhausted) ∈ t.out ∧
      t.sec.aliasLeaf = s.sec.aliasLeaf ∧ (s.sec.exhaustedRaised = false → LoggedEvent s t 0xC07 2 []))) ∧
  (∀ s : State, (s.sec.aliasLeaf + 1024 < lmsLeaves → exec .aliasLmsRenewal s = .next s) ∧
    (lmsLeaves ≤ s.sec.aliasLeaf + 1024 → s.sec.identityLeaf + 1 < lmsLeaves → ∃ t, exec .aliasLmsRenewal s = .next t ∧ t.sec.aliasLeaf = 0 ∧
      t.sec.identityLeaf = s.sec.identityLeaf + 1 ∧ LoggedEvent s t 0xC06 1 [])) ∧
  (∀ (opcode : BitVec 16) (off len : BitVec 32) (v : Word) (s : State),
    exec (.mailboxUnsupported opcode) s = .next (emit s (.mailbox true [])) ∧ exec .identify s = .next (emit s (.mailbox false (Config.standardReply 0x4000 []))) ∧
    (∃ t, exec .getEventRecords s = .next t ∧ OnlyParts [.freeIdx, .out] s t ∧ t.out = .mailbox false (Config.standardReply 0x100 [s.freeIdx]) :: s.out) ∧
    (∃ t l, exec .getFwInfo s = .next t ∧ OnlyParts [.out] s t ∧ t.out = .mailbox false l :: s.out) ∧
    (∃ t, exec (.getLog off len) s = .next t ∧ OnlyParts [.freeIdx, .out] s t ∧ t.out = .mailbox false (Config.standardReply 0x401 [off.toNat, len.toNat, s.freeIdx]) :: s.out) ∧
    (∃ t, exec (.timestamp (some v)) s = .next t ∧ OnlyParts [.hst, .out] s t ∧ exec (.timestamp none) t = .next (emit t (.mailbox false (leBytes 8 v.toNat)))))

/-! Power states, cast-on, bind-off and inputs (18 R441 to R458, 20 R501, 21 R523, R524). -/

/-- Power states and cast-on (R441, R445 to R447, R449, R501, R523, R524): valid input begins a cast-on; the stages follow in order, each where its conditions hold; a stage that
fails holds the device; the bank, stage 1 and PERST_N lead to ACTIVE; PERST_N leads back to STANDBY; the loss of the bus to OFF. -/
def Obligations.PowerStates : Prop :=
  (∀ s : State, exec .pwrEnConnect s = .next { s with power := { s.power with pwrEn := true } }) ∧
  (∀ (feed : BitVec 4) (slot : Byte) (s : State),
    ((s.power.pwrEn = false ∨ s.power.powerState ≠ 0 ∧ s.power.started = true) → exec (.inputValid feed slot) s = .next s) ∧
    (s.power.pwrEn = true → (s.power.powerState = 0 ∨ s.power.started = false) → ∃ t, exec (.inputValid feed slot) s = .next t ∧ OnlyParts [.clock, .power, .sec] s t ∧
      t.power.powerState = 1 ∧ t.power.stage = 15 ∧ t.power.busy = true ∧ t.power.started = true ∧ now t = 0 ∧ t.power.feedId = feed.toNat ∧ t.power.slotId = slot.toNat ∧
      t.sec.unlockLevel = 0 ∧ t.sec.activeBank = s.sec.nextBank.getD s.sec.activeBank)) ∧
  (∀ (bank bus : Nat) (s : State), ∃ t, exec (.bankCharged bank bus) s = .next t ∧ OnlyParts [.power] s t ∧ t.power.bankMv = bank ∧ t.power.busMv = bus ∧
    t.power.powerState = if s.power.powerState = 1 ∧ stageDone s 1 = true ∧ s.power.perstHeld = false ∧ bus ≤ bank + 1000 ∧ s.power.failed = false then 2 else s.power.powerState) ∧
  (∀ (failed : Word) (banks : List (List ImageCheck)) (caps : List Nat) (mode : Fin 4) (s : State), let c := Instr.castOnStageComplete failed banks caps mode
    ((s.power.busy = false ∨ s.power.started = false) → exec c s = .next s) ∧
    (s.power.busy = true → s.power.started = true →
      (s.power.stage = 15 → s.power.powerState = 1 → ∃ t, exec c s = .next t ∧ OnlyParts [.power, .bg, .dict, .out] s t ∧ t.power.stage = 0 ∧ t.power.tStage = now s ∧ t.dict.heartbeats = s.dict.heartbeats + 1) ∧
      (s.power.stage = 0 → s.power.powerState = 1 →
        (setStatus s (banks.getD s.sec.activeBank []) = 0 → ∃ t, exec c s = .next t ∧ t.power.stage = 1 ∧ t.sec.running = banks.getD s.sec.activeBank [] ∧ t.sec.activeBank = s.sec.activeBank) ∧
        (setStatus s (banks.getD s.sec.activeBank []) ≠ 0 → setStatus s (banks.getD (1 - s.sec.activeBank) []) = 0 →
          ∃ t, exec c s = .next t ∧ t.power.stage = 1 ∧ t.sec.running = banks.getD (1 - s.sec.activeBank) [] ∧ t.sec.activeBank = 1 - s.sec.activeBank) ∧
        (setStatus s (banks.getD s.sec.activeBank []) ≠ 0 → setStatus s (banks.getD (1 - s.sec.activeBank) []) ≠ 0 → ∃ t, exec c s = .next t ∧ t.power.stage = 0 ∧ t.power.failed = true ∧
          t.power.failStage = 1 ∧ t.power.failStatus = setStatus s (banks.getD s.sec.activeBank []) ∧ LoggedEvent s t 0xA02 3 [1, setStatus s (banks.getD s.sec.activeBank [])])) ∧
      (s.power.stage ∈ [1, 2, 3, 4] → s.power.powerState ≠ 2 → exec c s = .next s) ∧
      (s.power.powerState = 2 →
        (s.power.stage = 1 → ∃ t, exec c s = .next t ∧ OnlyParts [.hst, .power, .bg, .dict, .out] s t ∧ t.power.stage = 2 ∧ t.hst.linkMode = mode) ∧
        (s.power.stage = 2 → ∃ t, exec c s = .next t ∧ OnlyParts [.hst, .mifs, .fars, .power, .bg, .dict, .out] s t ∧ t.power.stage = 3 ∧ (t.hst.memActive = true ↔ s.hst.linkMode = 1) ∧
          ∀ k, k < 8 → (stack t k).state = if dieFailed s (80 + k) = true then 3 else 2) ∧
        (s.power.stage = 3 → activeMask s &&& (2 ^ 64 - 1 - failed.toNat) = 0 → ∃ t, exec c s = .next t ∧ t.power.stage = 3 ∧ t.power.failed = true ∧ t.power.failStatus = stCoreFenced) ∧
        (s.power.stage = 3 → activeMask s &&& (2 ^ 64 - 1 - failed.toNat) ≠ 0 → ∃ t, exec c s = .next t ∧ t.power.stage = 4 ∧
          (∀ a, isSpm a = true → mread t.mem a = 0) ∧ ∀ n, n < 64 → bit failed.toNat n = true → coreActive t n = false) ∧
        (s.power.stage = 4 → portsSettled s = true → ∃ t, exec c s = .next t ∧ OnlyParts [.power, .bg, .dict, .out] s t ∧ t.power.stage = 5 ∧ t.power.busy = false) ∧
        (s.power.stage = 4 → portsSettled s = false → exec c s = .next s)))) ∧
  (∀ (status : BitVec 16) (k : StackId) (ch : Channel) (s : State), ((s.power.busy = false ∨ s.power.started = false) → exec (.castOnStageFail status k ch) s = .next s) ∧
    (s.power.busy = true → s.power.started = true → ∃ t, exec (.castOnStageFail status k ch) s = .next t ∧ t.power.failed = true ∧ t.power.busy = false ∧ t.power.stage = s.power.stage ∧
      t.power.failStatus = status.toNat ∧ t.power.failStage = (if s.power.stage = 15 then 0 else s.power.stage + 1) ∧
      LoggedEvent s t 0xA02 3 [if s.power.stage = 15 then 0 else s.power.stage + 1, status.toNat])) ∧
  (∀ (highest bus : Nat) (s : State), (s.power.powerState = 3 → exec (.perstNAssert highest bus) s = .next { s with power := { s.power with highest := highest, busMv := bus } }) ∧
    ((s.power.powerState = 1 ∨ s.power.powerState = 2 ∨ s.power.powerState = 4 ∧ s.power.cause ≠ 1 ∧ highest < 85 ∧ bus < 60000) → ∃ t, exec (.perstNAssert highest bus) s = .next t ∧
      t.power.powerState = 1 ∧ t.power.perstHeld = true ∧ t.cores = [] ∧ t.power.stage = (if s.power.stage = 15 then 15 else min 1 s.power.stage) ∧ now t = now s ∧
      t.clock.locked = false ∧ t.saves = s.saves ∧ (∀ a, isNear a = true ∨ isSpm a = true → mread t.mem a = 0)) ∧
    (s.power.powerState = 4 → (s.power.cause = 1 ∨ 85 ≤ highest ∨ 60000 ≤ bus) → ∃ t, exec (.perstNAssert highest bus) s = .next t ∧ OnlyParts [.power] s t ∧ t.power.powerState = 4 ∧ t.power.perstHeld = true)) ∧
  (∀ s : State, (s.power.powerState = 3 → exec .perstNDeassert s = .next s) ∧
    (s.power.powerState ≠ 3 → bit s.power.chatter 0 = true → ∃ t, exec .perstNDeassert s = .next t ∧ OnlyParts [.power] s t ∧ t.power.perstHeld = s.power.perstHeld) ∧
    (s.power.powerState ≠ 3 → bit s.power.chatter 0 = false → s.power.levels < 8 → ∃ t, exec .perstNDeassert s = .next t ∧ OnlyParts [.power] s t ∧ t.power.perstHeld = false ∧ t.power.perstAt = now s ∧
      t.power.powerState = if s.power.powerState = 1 ∧ stageDone s 1 = true ∧ s.power.bankReady = true ∧ s.power.failed = false then 2 else s.power.powerState)) ∧
  (∀ s : State, ∃ t, exec .busOff s = .next t ∧ t.power.powerState = 0 ∧ (∀ off, reg t off = regReset off) ∧ t.dict = {} ∧ t.cores = [] ∧ t.saves = s.saves ∧ t.wear = s.wear ∧ t.pkg.fenced = s.pkg.fenced ∧
    now t = 0 ∧ (∀ c, rollback s c ≤ rollback t c) ∧ ∀ a, isNear a = true ∨ isSpm a = true → mread t.mem a = 0)

/-- Bind-off (R444, R451, R454, R455): at 41 V, at 115 °C and above 62 V a running device binds off with its cause; the cores lose their tasks, the image is written to the slot after
the newest save once stage 1 has completed, no other save is touched, and with the header the device is HALTED; a sag's bus that recovers leads to a cast-on from stage 1.
BIND_OFF, THERMAL_OVERVOLT_TRIP, SAVE_COMPLETE and HALTED_RESTART each answer a next state, with their effect under the conditions of R444 and R451 and without it outside
them. -/
def Obligations.BindOff : Prop :=
  (∀ (load : Nat) (s : State), (watching s = false ∨ 41000 < load → exec (.bindOff load) s = .next s) ∧
    (watching s = true → load ≤ 41000 → ∃ t, exec (.bindOff load) s = .next t ∧ BoundOff s t 1)) ∧
  (∀ (volt : Bool) (highest bus : Nat) (s : State), let u := { s with power := { s.power with highest := highest, busMv := bus } }
    ((watching s = false ∨ volt = true ∧ bus ≤ 62000 ∨ volt = false ∧ highest < 115) → exec (.thermalOvervoltTrip volt highest bus) s = .next u) ∧
    (watching s = true → volt = true → 62000 < bus → ∃ t, exec (.thermalOvervoltTrip volt highest bus) s = .next t ∧ BoundOff s t 2) ∧
    (watching s = true → volt = false → 115 ≤ highest → ∃ t, exec (.thermalOvervoltTrip volt highest bus) s = .next t ∧ BoundOff s t 3)) ∧
  (∀ s : State, (s.power.powerState ≠ 3 → exec .saveComplete s = .next s) ∧
    (s.power.powerState = 3 → ∃ t, exec .saveComplete s = .next t ∧ OnlyParts [.power, .saves] s t ∧ t.power.powerState = 4 ∧
      (∀ p ∈ t.saves, p.2.valid = true) ∧ ∀ k, (tfind t.saves k).map (fun x => (x.seq, x.t, x.cause)) = (tfind s.saves k).map (fun x => (x.seq, x.t, x.cause)))) ∧
  (∀ (bus : Nat) (s : State), (¬(s.power.powerState = 4 ∧ s.power.cause = 1 ∧ 44000 ≤ bus) → exec (.haltedRestart bus) s = .next s) ∧
    (s.power.powerState = 4 → s.power.cause = 1 → 44000 ≤ bus → ∃ t, exec (.haltedRestart bus) s = .next t ∧ OnlyParts [.power, .sec] s t ∧ t.power.powerState = 1 ∧
      t.power.bindoff = false ∧ t.power.busy = true ∧ t.power.stage = if s.power.stage = 15 then 15 else 0))

/-- Throttle sources and inputs (R442, R443, R457, R458): each source comes and goes at its own limits; a chattering input is latched asserted and told of once; a latch is
released only where its pin was quiet; an input asserted for long is told of once. SAG_WARNING, SAG_WARNING_CLEAR, THROTTLE_N_ASSERT, THROTTLE_N_DEASSERT, POWER_WINDOW,
THERMAL_THROTTLE, INPUT_CHATTER, INPUT_HELD and MGT_INPUT_CLEAR each answer a next state, with their effect under the conditions named and without it outside them. -/
def Obligations.ThrottleAndInputs : Prop :=
  (∀ (bus : Nat) (pin : Bool) (s : State), ∃ t, exec (.sagWarning bus pin) s = .next t ∧ OnlyParts [.regs, .power] s t ∧ t.power.busMv = bus ∧
    (inputsAct s = true → s.power.stage ≠ 15 → (bus ≤ 43000 ∨ pin = true) → t.power.sag = true ∧
      reg t (pwrOff MGT_SAG_WARN_COUNT) = if s.power.sag = true then reg s (pwrOff MGT_SAG_WARN_COUNT) else (reg s (pwrOff MGT_SAG_WARN_COUNT) + 1) % 2 ^ 64) ∧
    ((inputsAct s = false ∨ 43000 < bus ∧ pin = false) → t.power.sag = s.power.sag ∧ t.regs = s.regs)) ∧
  (∀ (bus : Nat) (s : State), ∃ t, exec (.sagWarningClear bus) s = .next t ∧ OnlyParts [.power] s t ∧ t.power.sag = if inputsAct s = true ∧ 44000 ≤ bus then false else s.power.sag) ∧
  (∀ s : State, (∃ t, exec .throttleNAssert s = .next t ∧ OnlyParts [.power] s t ∧ t.power.throttleN = if inputsAct s then true else s.power.throttleN) ∧
    (∃ t, exec .throttleNDeassert s = .next t ∧ OnlyParts [.power] s t ∧ t.power.throttleN = if inputsAct s then false else s.power.throttleN)) ∧
  (∀ (w da bus : Nat) (current : Bool) (s : State), let lim := if current then 1500 else objNat s 0x202001
    let v := if current then da else w
    ∃ t, exec (.powerWindow w da bus current) s = .next t ∧ OnlyParts [.power] s t ∧ t.power.pin = w ∧ t.power.ibus = da ∧
      (if current then t.power.limitingCurrent else t.power.limiting) = decide (lim < v) ∧
      (∀ t0, s.power.overSince = some t0 → lim < v → allAtFloor s = true → t0 + 1000000 ≤ now s → t.power.powerSrc = true) ∧
      (∀ t0, s.power.underSince = some t0 → v * 100 < lim * 95 → (if current then s.power.limiting else s.power.limitingCurrent) = false → t0 + 10000000 ≤ now s → t.power.powerSrc = false) ∧
      (s.power.overSince = none → s.power.underSince = none → t.power.powerSrc = s.power.powerSrc)) ∧
  (∀ (die : DieId) (temp highest : Nat) (s : State), ∃ t, exec (.thermalThrottle die temp highest) s = .next t ∧ OnlyParts [.cores, .power] s t ∧ tget 0 t.power.temps die = temp ∧
    t.power.highest = highest ∧ (∀ c, dieCore die = some c → core t c = { core s c with temp := temp, tempKnown := true }) ∧
    t.power.thermal = if 105 ≤ temp ∨ 105 ≤ highest then true else if highest ≤ 100 then false else s.power.thermal) ∧
  (∀ (pin : Fin 3) (s : State), ((bit s.power.chatter pin = true ∨ s.power.powerState = 3 ∨ s.power.stage = 15) → exec (.inputChatter pin) s = .next s) ∧
    (bit s.power.chatter pin = false → s.power.powerState ≠ 3 → s.power.stage ≠ 15 → ∃ t, exec (.inputChatter pin) s = .next t ∧ bit t.power.chatter pin = true) ∧
    (bit s.power.chatter pin = false → s.power.powerState ≠ 3 → s.power.stage ≠ 15 → pin ≠ 0 → ∃ t, exec (.inputChatter pin) s = .next t ∧ bit t.power.chatter pin = true ∧
      t.power.chatterCount = s.power.chatterCount + 1 ∧ LoggedEvent s t 0xA03 2 [pin.val]) ∧
    (bit s.power.chatter 0 = false → s.power.stage ≠ 15 → (s.power.powerState = 1 ∨ s.power.powerState = 2) → ∃ t, exec (.inputChatter 0) s = .next t ∧ bit t.power.chatter 0 = true ∧
      t.power.powerState = 1 ∧ t.power.perstHeld = true ∧ t.cores = [])) ∧
  (∀ (pin : Fin 3) (s : State), ((bit s.power.levels pin = true ∨ bit s.power.stuck pin = true ∨ s.power.stage = 15) → exec (.inputHeld pin) s = .next s) ∧
    (bit s.power.levels pin = false → bit s.power.stuck pin = false → s.power.stage ≠ 15 → ∃ t, exec (.inputHeld pin) s = .next t ∧ bit t.power.stuck pin = true ∧ LoggedEvent s t 0xA04 1 [pin.val])) ∧
  (∀ (quiet : BitVec 3) (s : State), exec (.mgtInputClear 0 quiet) s = .next s ∧
    (∀ pin v, (pin, v) ∈ [(1, (2 : Word)), (2, 4)] →
      (bit s.power.chatter pin = false → exec (.mgtInputClear v quiet) s = .next s) ∧
      (bit s.power.chatter pin = true → bit quiet.toNat pin = false → exec (.mgtInputClear v quiet) s = .next { s with power := { s.power with clearRefused := s.power.clearRefused + 1 } }) ∧
      (bit s.power.chatter pin = true → bit quiet.toNat pin = true → exec (.mgtInputClear v quiet) s = .next { s with power := { s.power with chatter := putBits s.power.chatter pin pin 0 } })) ∧
    (bit s.power.chatter 0 = true → bit quiet.toNat 0 = true → s.power.chatter < 8 → bit s.power.levels 0 = true → ∃ t, exec (.mgtInputClear 1 quiet) s = .next t ∧ OnlyParts [.power] s t ∧
      bit t.power.chatter 0 = false ∧ t.power.perstHeld = false ∧ t.power.perstAt = now s))

/-! Lifelines (17 R425 to R438; 15 R379, R381). -/

/-- Lifeline control (R425, R427, R428, R438): a write while an action runs does nothing; ARM, HOLD, DISARM and RESTORE, each where it is refused and where it
completes. ARM posts its ARM_REQ; the state words show what the lifeline holds. -/
def Obligations.LifelineControl : Prop :=
  ∀ (n : StrandId) (s : State), MemoryCanonical s → let x := lifeline s n
    let refused : Nat → State := fun e => { s with llResult := 2, llStatus := e }
    (s.llResult = 1 → ∀ c ∈ [Instr.arm n, .hold n, .lifelineDisarm n, .restore n], exec c s = .next s) ∧
    (s.llResult ≠ 1 →
      ((linkOk s n = false ∨ bits (strandWord s n 0) 4 3 ≠ 1) → ∀ c ∈ [Instr.arm n, .hold n], exec c s = .next (refused stStrandInvalid)) ∧
      (linkOk s n = true → bits (strandWord s n 0) 4 3 = 1 → x.role = 0 → 256 ≤ llRoles s → ∀ c ∈ [Instr.arm n, .hold n], exec c s = .next (refused stValueOutOfRange)) ∧
      (linkOk s n = true → bits (strandWord s n 0) 4 3 = 1 → (x.role = 0 → llRoles s < 256) →
        (llBlock s n 8 = none → exec (.arm n) s = .next (refused stTranslationFault)) ∧
        (∀ w, llBlock s n 8 = some w → bits (word w 0) 15 0 = 0 → exec (.arm n) s = .next (refused stValueOutOfRange)) ∧
        (∀ w k, llBlock s n 8 = some w → k = bits (word w 0) 15 0 → k ≠ 0 → ∃ u y, y = lifeline u n ∧
          exec (.arm n) s = .next (postRecord u n 0 [s.power.feedId % 16 + k * 2 ^ 4, 512 + suParamBytes y + suOptBytes y]) ∧
          OnlyParts [.mem, .lifelines, .llResult, .llStatus] s u ∧ u.llResult = 1 ∧ u.llStatus = 0 ∧ LifelineShown u n ∧ y.role = 1 ∧ y.state = 1 ∧ y.setup = w ∧ y.kMax = k ∧
          y.period ≤ k ∧ k < 2 * y.period ∧ (∃ e, y.period = 2 ^ e) ∧ y.kCur = y.period ∧ y.securing = false ∧ y.failures = 0 ∧
          (∀ m, m ≠ n.val → lifeline u m = lifeline s m)) ∧
        (llBlock s n 2 = none → exec (.hold n) s = .next (refused stTranslationFault)) ∧
        (∀ w, llBlock s n 2 = some w → ∃ t, exec (.hold n) s = .next t ∧ OnlyParts [.mem, .lifelines, .llResult, .llStatus] s t ∧ t.llResult = 0 ∧ t.llStatus = 0 ∧
          LifelineShown t n ∧ (lifeline t n).role = 2 ∧ (lifeline t n).state = 0 ∧ (lifeline t n).slotVa = bits (word w 0) 47 0 ∧ (lifeline t n).slotBytes = bits (word w 1) 39 0 ∧
          (∀ m, m ≠ n.val → lifeline t m = lifeline s m))) ∧
      (x.securing = true → ∃ t, exec (.lifelineDisarm n) s = .next t ∧ OnlyParts [.lifelines, .llResult, .llStatus] s t ∧ t.llResult = 1 ∧ lifeline t n = { x with disarming := true }) ∧
      (x.securing = false → ∃ t, exec (.lifelineDisarm n) s = .next t ∧ OnlyParts [.mem, .lifelines, .llResult, .llStatus] s t ∧ t.llResult = 0 ∧ t.llStatus = 0 ∧
        lifeline t n = {} ∧ LifelineShown t n) ∧
      ((strandLive s n = false ∨ x.role ≠ 1) → exec (.restore n) s = .next (refused stStrandInvalid)) ∧
      (strandLive s n = true → x.role = 1 →
        (llBlock s n 4 = none → exec (.restore n) s = .next (refused stTranslationFault)) ∧
        (∀ w, llBlock s n 4 = some w →
          ((word w 0 < suDataBase x ∨ suSamples x = 0 ∨ (word w 0 - suDataBase x) % suSamples x ≠ 0) → exec (.restore n) s = .next (refused stValueOutOfRange)) ∧
          (suDataBase x ≤ word w 0 → suSamples x ≠ 0 → (word w 0 - suDataBase x) % suSamples x = 0 → let step := (suStepBase x + (word w 0 - suDataBase x) / suSamples x) % 2 ^ 64
            ∃ t, exec (.restore n) s = .next t ∧ t.llResult = 0 ∧ t.llStatus = 0 ∧ reg t (llOff MGT_LL_NEXT_STEP) = step ∧
              (lifeline t n).securedStep = step ∧ (lifeline t n).dataPos = word w 0 ∧ (lifeline t n).anchorStep = word w 2 ∧ (lifeline t n).failures = x.failures + 1 ∧
              (∀ y, strand s n = some y → strand t n = some { y with stepLast := (step + 2 ^ 64 - 1) % 2 ^ 64 }) ∧
              ((step : Int) - 1 ≡ word w 1 [ZMOD 2 ^ 64] → t.drawSkews = s.drawSkews ∧ t.dict = s.dict ∧ reg t (llOff MGT_LL_SKEW) = 0) ∧
              (¬ ((step : Int) - 1 ≡ word w 1 [ZMOD 2 ^ 64]) → t.drawSkews = s.drawSkews + 1 ∧
                ∃ k : Nat, k < 2 ^ 64 ∧ ((step : Int) - 1 + k ≡ word w 1 [ZMOD 2 ^ 64]) ∧ reg t (llOff MGT_LL_SKEW) = k ∧ LoggedEvent s t 0x903 1 [n, k])))))

/-- A lifeline's pairing (R428, R436): the holder answers each ARM_REQ with its feed and its slot size; ARM_ACK, its absence and the partner's loss at the source. -/
def Obligations.LifelinePairing : Prop :=
  ∀ (n : StrandId) (s : State), MemoryCanonical s → let x := lifeline s n
    let shown : State → Prop := fun t => OnlyParts [.mem, .lifelines, .llResult, .llStatus] s t ∧ LifelineShown t n
    (∀ (feed : BitVec 4) (k : BitVec 16) (size : BitVec 40),
      (x.role ≠ 2 → exec (.armReq n feed k size) s = .next (postRecord s n 0x040 [s.power.feedId % 16 + 2 * 2 ^ 4, x.slotBytes])) ∧
      (x.role = 2 → x.slotBytes < size.toNat → exec (.armReq n feed k size) s = .next (postRecord s n 0x040 [s.power.feedId % 16 + 1 * 2 ^ 4, x.slotBytes])) ∧
      (x.role = 2 → size.toNat ≤ x.slotBytes → ∃ u, exec (.armReq n feed k size) s = .next (postRecord u n 0x040 [s.power.feedId % 16, x.slotBytes]) ∧
        OnlyParts [.mem, .lifelines] s u ∧ LifelineShown u n ∧ lifeline u n = { x with state := 2, partnerFeed := feed.toNat, needBytes := size.toNat, hmark := none })) ∧
    (∀ (feed : BitVec 4) (r : BitVec 2) (size : BitVec 40), let c := Instr.armAck n feed r size
      ((x.role ≠ 1 ∨ x.state ≠ 1) → exec c s = .next s) ∧
      (x.role = 1 → x.state = 1 →
        (r ≠ 0 → ∃ t, exec c s = .next t ∧ shown t ∧ t.llResult = 2 ∧ t.llStatus = stValueOutOfRange ∧ lifeline t n = { x with state := 0 }) ∧
        (r = 0 → feed.toNat = s.power.feedId % 16 → objNat s 0x700102 = 0 →
          ∃ t, exec c s = .next t ∧ shown t ∧ t.llResult = 2 ∧ t.llStatus = stPartnerSameFeed ∧ lifeline t n = { x with state := 0 }) ∧
        (r = 0 → feed.toNat = s.power.feedId % 16 → objNat s 0x700102 ≠ 0 →
          ∃ t, exec c s = .next t ∧ t.llResult = 0 ∧ t.llStatus = 0 ∧ lifeline t n = { x with state := 2, correlated := true, partnerFeed := feed.toNat } ∧
            t.correlatedArms = s.correlatedArms + 1 ∧ LoggedEvent s t 0x901 1 [n, peerDev s n]) ∧
        (r = 0 → feed.toNat ≠ s.power.feedId % 16 →
          ∃ t, exec c s = .next t ∧ shown t ∧ t.llResult = 0 ∧ t.llStatus = 0 ∧ lifeline t n = { x with state := 2, partnerFeed := feed.toNat }))) ∧
    (¬(x.role = 1 ∧ x.state = 1) → exec (.armTimeout n) s = .next s) ∧
    (x.role = 1 → x.state = 1 → ∃ t, exec (.armTimeout n) s = .next t ∧ shown t ∧ t.llResult = 2 ∧ t.llStatus = stPeerUnreachable ∧ lifeline t n = { x with state := 0 }) ∧
    ((x.role = 0 ∨ x.state ≠ 2) → exec (.lifelineBroken n) s = .next s) ∧
    (x.role ≠ 0 → x.state = 2 → ∃ t, exec (.lifelineBroken n) s = .next t ∧ LoggedEvent s t 0x902 2 [n, peerDev s n] ∧
      (x.securing = false → lifeline t n = { x with state := 3, failures := x.failures + 1, hmark := none } ∧ LifelineShown t n) ∧
      (x.securing = true → x.disarming = false →
        lifeline t n = { x with state := 3, failures := x.failures + 1, hmark := none, securing := false, mark := none }) ∧
      (x.securing = true → x.disarming = true → lifeline t n = {} ∧ t.llResult = 0))

/-- A securing at the holder and its end at the source (R432 to R434, R437): MARK takes a slot that is neither the anchor's nor the latest committed and clears its
VALID; PAYLOAD fills it until it is whole, an error or an excess fails it; COMMIT counts it and shows the secured step, a failed one is skipped, an anchor sent again. -/
def Obligations.LifelineSecuring : Prop :=
  ∀ (n : StrandId) (s : State), let x := lifeline s n
    (∀ (step pos rng : Word) (bytes : BitVec 40) (anchor : Bool), let c := Instr.mark n step pos rng bytes anchor
      (x.role ≠ 2 → exec c s = .next s) ∧
      (x.role = 2 → ∃ k u, let w := linkWrite u (strandLink s n) n (x.slotVa + k * x.slotBytes) (leBytes 8 0)
        exec c s = .next (if w.2.1 = stSuccess then w.1 else updLifeline w.1 n (fun y => { y with failed := true })) ∧ k < 3 ∧ anchorSlot s n ≠ some k ∧
        x.committedSlot ≠ some k ∧ OnlyParts [.lifelines] s u ∧ lifeline u n = { x with
          hmark := some (step.toNat, pos.toNat, rng.toNat, anchor)
          slot := k
          received := 0
          paramBytes := bytes.toNat
          failed := false })) ∧
    (∀ (data : List Byte) (error : Bool), let c := Instr.payload n data error
      ((x.role ≠ 2 ∨ x.hmark = none) → exec c s = .next s) ∧
      (∀ step pos rng anchor, x.role = 2 → x.hmark = some (step, pos, rng, anchor) →
        (error = true → ∃ u, exec c s = .next (postRecord u n 0x0C0 [step, x.slot + 4]) ∧ OnlyParts [.lifelines] s u ∧ lifeline u n = { x with failed := true, hmark := none }) ∧
        (error = false → let w := linkWrite s (strandLink s n) n (x.slotVa + x.slot * x.slotBytes + 512 + x.received) data
          ∃ v, OnlyParts [.lifelines] w.1 v ∧ (lifeline v n).received = x.received + data.length ∧ ((lifeline v n).failed = true ↔ x.failed = true ∨ w.2.1 ≠ stSuccess) ∧
          (((lifeline v n).failed = true ∨ x.needBytes < 512 + (x.received + data.length)) → ∃ u, exec c s = .next (postRecord u n 0x0C0 [step, x.slot + 4]) ∧
            OnlyParts [.lifelines] v u ∧ (lifeline u n).hmark = none ∧ (lifeline u n).committedSlot = x.committedSlot) ∧
          ((lifeline v n).failed = false → x.needBytes = 512 + (x.received + data.length) →
            let z := linkWrite v (strandLink v n) n (x.slotVa + x.slot * x.slotBytes) ([1, step, pos, rng, peerDev v n + b2n anchor * 2 ^ 12, x.received + data.length].flatMap (leBytes 8))
            ∃ u, exec c s = .next (postRecord u n 0x0C0 [step, x.slot + if z.2.1 = stSuccess then 0 else 4]) ∧ OnlyParts [.lifelines] z.1 u ∧
              (lifeline u n).hmark = none ∧ (lifeline u n).committedSlot = if z.2.1 = stSuccess then some x.slot else x.committedSlot) ∧
          ((lifeline v n).failed = false → 512 + (x.received + data.length) < x.needBytes → exec c s = .next v)))) ∧
    (∀ (step : Word) (slot : Fin 4), (x.mark = none → ∀ f, exec (.commit n step slot f) s = .next s) ∧
      (∀ m pos rng anchor, x.mark = some (m, pos, rng, anchor) →
        ((x.role ≠ 1 ∨ m ≠ step.toNat) → ∀ f, exec (.commit n step slot f) s = .next s) ∧
        (x.role = 1 → m = step.toNat →
          (∃ t, exec (.commit n step slot false) s = .next t ∧ reg t (llOff MGT_LL_COMMIT_COUNT) = (reg s (llOff MGT_LL_COMMIT_COUNT) + 1) % 2 ^ 64 ∧
            (x.disarming = true → lifeline t n = {} ∧ t.llResult = 0 ∧ t.llStatus = 0) ∧
            (x.disarming = false → let y := lifeline t n
              y.securedStep = m ∧ y.dataPos = pos ∧ y.rngStep = rng ∧ y.anchorStep = (if anchor then m else x.anchorStep) ∧ y.securing = false ∧ y.mark = none ∧ y.state = x.state ∧
              t.llResult = s.llResult)) ∧
          (anchor = false ∨ x.disarming = true → ∃ t, exec (.commit n step slot true) s = .next t ∧ reg t (llOff MGT_LL_SKIP_COUNT) = (reg s (llOff MGT_LL_SKIP_COUNT) + 1) % 2 ^ 64 ∧
            (x.disarming = true → lifeline t n = {} ∧ t.llResult = 0) ∧ (x.disarming = false → lifeline t n = { x with securing := false, mark := none })) ∧
          (anchor = true → x.disarming = false → exec (.commit n step slot true) s =
            .next (sendOptimiser (sendPayload (sendMark (bump s (llOff MGT_LL_SKIP_COUNT) 1) n) n (suParamVa x) (suParamBytes x)) n)))))

/-- What the lifeline hears of the link (15 R379, R381; 17 R432, R434): a message acknowledged whole leaves, counts on its marker when asked, and on a source is payload of the
securing in flight; a NACK for this device is told of and ends the task that posted the message; a holder that meets one fails its securing. -/
def Obligations.AcknowledgedAndNack : Prop :=
  (∀ (p : PortId) (s : State), ((port s p).sent = [] → exec (.sendAcknowledged p) s = .next s) ∧
    (∀ m rest, (port s p).sent = m :: rest → ∃ v, OnlyParts [.regs, .cores, .ports, .net] s v ∧ (port v p).sent = rest ∧
      (m.doneEn = true → marker v m.doneCore m.doneMarker = (marker s m.doneCore m.doneMarker + 1) % 2 ^ 32) ∧
      (m.doneEn = false → OnlyParts [.ports] s v) ∧
      (let x := lifeline s m.strand
       ((x.role ≠ 1 ∨ x.mark = none ∨ m.ll = 1) → exec (.sendAcknowledged p) s = .next v) ∧
       (x.role = 1 → x.mark ≠ none → m.ll = 2 → ∃ t, exec (.sendAcknowledged p) s = .next t ∧ OnlyParts [.lifelines] v t ∧
         lifeline t m.strand = { x with payloadLeft := x.payloadLeft - m.bytes, lastPayload := now s }) ∧
       (x.role = 1 → x.mark ≠ none → m.ll = 0 → x.payloadSent = false → (m.seq + 65536 - x.markSeq) % 65536 < 32768 →
         ∃ u, OnlyParts [.lifelines] v u ∧ lifeline u m.strand = { x with sentBytes := x.sentBytes + m.bytes } ∧
           exec (.sendAcknowledged p) s = .next (if suParamBytes x ≤ x.sentBytes + m.bytes then sendOptimiser u m.strand else u)) ∧
       (x.role = 1 → m.ll = 0 → (x.payloadSent = true ∨ 32768 ≤ (m.seq + 65536 - x.markSeq) % 65536) → exec (.sendAcknowledged p) s = .next v)))) ∧
  (∀ (p : PortId) (dst : BitVec 12) (n : StrandId) (seq : BitVec 16) (cause : BitVec 3) (s : State),
    (dst.toNat ≠ ownDev s → ∀ b, exec (.nack p dst n seq cause b) s = .next s) ∧
    (dst.toNat = ownDev s → exec (.nack p dst n seq cause true) s = .next (bump s (portOff p LNK_NACK_RX_COUNT) 1) ∧
      ∃ u, OnlyParts [.regs, .cores, .hst, .net] s u ∧
        (∃ m ∈ u.net.chain, m.dst = mgtDie ∧ ∃ e, m.msg = .event e ∧ e.code = 0x704 ∧ e.severity = 1 ∧ e.args = [n.val, seq.toNat, cause.toNat]) ∧
        (s.posted.find? (fun q => q.1 == n.val && q.2.1 == seq.toNat) = none → OnlyParts [.regs, .net] s u ∧ reg u (portOff p LNK_NACK_RX_COUNT) = (reg s (portOff p LNK_NACK_RX_COUNT) + 1) % 2 ^ 64) ∧
        (∀ q, s.posted.find? (fun q => q.1 == n.val && q.2.1 == seq.toNat) = some q → (slotOf s q.2.2.1).busy = true → (slotOf s q.2.2.1).ending = false → (slotOf s q.2.2.1).written = false →
          (slotOf u q.2.2.1).ending = true ∧ (slotOf u q.2.2.1).status =
            if 1 ≤ cause.toNat ∧ cause.toNat ≤ 6 then stWindowViolation else if q.2.2.2 = 3 then stMergeInvalid else stPeerUnreachable) ∧
        (((lifeline s n).role ≠ 2 ∨ (lifeline s n).hmark = none) → exec (.nack p dst n seq cause false) s = .next u) ∧
        (∀ step pos rng anchor, (lifeline s n).role = 2 → (lifeline s n).hmark = some (step, pos, rng, anchor) → ∃ v, OnlyParts [.lifelines] u v ∧
          exec (.nack p dst n seq cause false) s = .next (postRecord v n 0x0C0 [step, (lifeline s n).slot + 4]) ∧ lifeline v n = { lifeline s n with hmark := none })))

/-! Task control at the cores, and reports at the HST die (09 R238, R239, R244 to R247; 10 R277 to R281; 06 R141 to R144). -/

/-- What a core does with the HST die's messages (R238, R239, R244 to R247; 10 R277, R280, R281; 06 R143): DISPATCH gives a free core its task, whose table the core reads; ISSUE_CHECKS latches the shapes,
reads what a local counter needs and reports the outcome; GO runs a span; WAIT answers once the marker has its count; ABORT and CANCEL stop the task; REPLAY starts the span again. -/
def Obligations.TaskMessagesAtCores : Prop :=
  (∀ (f : Frame) (c : CoreId) (slot : SlotId) (rank : Fin 64) (cores : Fin 65) (s : State), NewMessage s (coreDie c) f →
    ((coreActive s c = false ∨ (core s c).halted = true ∨ (core s c).task ≠ none ∨ (core s c).draining ≠ none) →
      exec (.dispatch f c slot rank cores) s = .next (tookMessage s (coreDie c) f)) ∧
    (coreActive s c = true → (core s c).halted = false → (core s c).task = none → (core s c).draining = none →
      let x := slotOf s slot
      let g := getRange (tookMessage s (coreDie c) f) x.strand x.arg0 (8 * x.table.length)
      ∃ t w, exec (.dispatch f c slot rank cores) s = .next t ∧ OnlyParts (.cores :: [.regs, .pkg, .hst, .cache, .mifs, .fars, .ports, .dict, .net, .out, .freeIdx]) s t ∧ (∀ d, d ≠ c.val → core t d = core s d) ∧
        (core t c).task = some w ∧ (x.table ≠ [] → g.2 = stSuccess →
          coreReg t c FET_TAG_ISSUE_COUNT = (coreReg s c FET_TAG_ISSUE_COUNT + (linePieces x.arg0 (8 * x.table.length)).length) % 2 ^ 64) ∧
        w.slot = slot.val ∧ w.rank = rank.val ∧ w.cores = cores.val ∧ w.phase = 1 ∧ w.tDispatch = now s ∧ w.strand = (slotOf s slot).strand ∧ w.step = (slotOf s slot).step ∧
        w.table = (if x.table = [] ∨ g.2 ≠ stSuccess then [] else (readWords g.1 x.strand x.arg0 x.table.length).getD []) ∧ w.fetchStatus = (if x.table = [] then 0 else g.2) ∧
        w.predicting = (objNat t 0x404001 == 1) ∧ w.tokenBase = (slotOf s slot).tokenBase ∧ w.shape = (slotOf s slot).shape ∧ w.schedule = (slotOf s slot).schedule ∧ w.counter = (slotOf s slot).counter ∧
        (w.copy = true ↔ (slotOf s slot).opcode = 2))) ∧
  (∀ (c : CoreId) (s : State), ((core s c).task = none → exec (.issueChecks c) s = .next s) ∧
    (∀ w, (core s c).task = some w → (w.phase ≠ 1 → exec (.issueChecks c) s = .next s) ∧
      (w.phase = 1 → w.shape.length ≤ 32 → ∃ u, OnlyParts [.regs] s u ∧ (∀ i v, w.shape[i]? = some v → reg u (coreOff c (0x580 + 8 * i)) = v % 2 ^ 64) ∧
        let b := readBand u c w
        let refuses : State → Refuse → Prop := fun v r => ∃ t, exec (.issueChecks c) s = .next t ∧ OnlyParts [.regs, .cores, .net] v t ∧
          Sent v t (coreDie c) hstDie (.refused w.slot r.status r.check) ∧ core t c = { core v c with task := none } ∧
          reg t (coreOff c LOOP_REFUSE_COUNT) = (reg v (coreOff c LOOP_REFUSE_COUNT) + 1) % 2 ^ 64 ∧
          (w.copy = false → reg t (coreOff c LOOP_LAST_REFUSE) = (r.check + r.slot * 2 ^ 5 + r.level * 2 ^ 8 + r.detail % 2 ^ 48 * 2 ^ 16) % 2 ^ 64) ∧
          (w.copy = true → reg t (coreOff c LCE_LAST_FAULT) = (r.status + r.check * 2 ^ 16) % 2 ^ 64)
        OnlyParts (.cores :: [.regs, .pkg, .hst, .cache, .mifs, .fars, .ports, .dict, .net, .out, .freeIdx]) u b.1 ∧ (core b.1 c).task = some w ∧
        (checkOutcome u c w = none → b.2.1 = stSuccess → ∃ t, exec (.issueChecks c) s = .next t ∧ OnlyParts [.cores, .net] b.1 t ∧
          Sent b.1 t (coreDie c) hstDie (.passed w.slot) ∧ core t c = { core b.1 c with task := some { readLocal b.1 c w with phase := 2, band := b.2.2 } }) ∧
        (checkOutcome u c w = none → b.2.1 ≠ stSuccess → refuses b.1 { check := 0, status := b.2.1 }) ∧
        (∀ r, checkOutcome u c w = some r → refuses u r)))) ∧
  (∀ (f : Frame) (c : CoreId) (slot : SlotId) (span : BitVec 32) (s : State), NewMessage s (coreDie c) f → let s' := tookMessage s (coreDie c) f
    ((core s c).task = none → exec (.go f c slot span) s = .next s') ∧
    (∀ w, (core s c).task = some w →
      ((w.slot ≠ slot.val ∨ w.phase ≠ 2 ∧ w.phase ≠ 5) → exec (.go f c slot span) s = .next s') ∧
      (w.slot = slot.val → w.phase = 2 → exec (.go f c slot span) s = .next (firstGo s' c w span.toNat)) ∧
      (w.slot = slot.val → w.phase = 5 → ∃ u, OnlyParts [.cores, .net] s u ∧ core u c = { core s c with task := some { w with replays := 0 } } ∧
        exec (.go f c slot span) s = .next (startSpan u c span.toNat (nextAttempt w))))) ∧
  (∀ (f : Frame) (c : CoreId) (slot : SlotId) (k : MarkerId) (target : BitVec 32) (s : State), NewMessage s (coreDie c) f → (core s c).waits = [] →
    ∃ t, exec (.wait f c slot k target) s = .next t ∧ OnlyParts [.cores, .net] s t ∧
      (markerReached (marker s c k) target.toNat = true → Sent s t (coreDie c) hstDie (.markerReached slot) ∧ (core t c).waits = []) ∧
      (markerReached (marker s c k) target.toNat = false → t.net.chain = s.net.chain ∧ (core t c).waits = [(slot.val, k.val, target.toNat)])) ∧
  (∀ (f : Frame) (c : CoreId) (slot : SlotId) (s : State), NewMessage s (coreDie c) f →
    (stillRuns s c slot = false → ∀ m ∈ [Instr.abort f c slot, .cancel f c slot], ∃ t, exec m s = .next t ∧ OnlyParts [.cores, .net] s t ∧
      ((core s c).draining = some slot.val → core t c = { core s c with doneOwed := false } ∧ t.net.chain = s.net.chain) ∧
      ((core s c).draining ≠ some slot.val → OnlyParts [.net] s t ∧ Sent s t (coreDie c) hstDie (.drained slot))) ∧
    (stillRuns s c slot = true → ∀ m ∈ [Instr.abort f c slot, .cancel f c slot], ∃ t, exec m s = .next t ∧ (core t c).task = none ∧ (core t c).requests = [] ∧ (core t c).chunks = [] ∧
      ((core s c).tags = [] → ∃ x ∈ t.net.chain, x.src = coreDie c ∧ x.dst = hstDie ∧ x.msg = .drained slot.val) ∧
      ((core s c).tags ≠ [] → (core t c).draining = some slot.val ∧ ∀ p ∈ (core t c).tags, p.2.abandoned = true))) ∧
  (∀ (f : Frame) (c : CoreId) (slot : SlotId) (span : BitVec 32) (s : State), NewMessage s (coreDie c) f →
    ((core s c).task = none → exec (.replay f c slot span) s = .next (tookMessage s (coreDie c) f)) ∧
    (∀ w, (core s c).task = some w →
      ((w.span ≠ span.toNat ∨ w.slot ≠ slot.val ∨ w.phase < 4) → exec (.replay f c slot span) s = .next (tookMessage s (coreDie c) f)) ∧
      (w.span = span.toNat → w.slot = slot.val → 4 ≤ w.phase → ∃ u, exec (.replay f c slot span) s = .next (startSpan u c w.span (if w.counter.isSome then (w.attempt + 1) % 4 else w.attempt)) ∧
        (core u c).requests = [] ∧ (core u c).acc = [] ∧ (core u c).stall = none ∧ (∀ p ∈ (core u c).tags, p.2.abandoned = true) ∧
        (core u c).task = some { w with replays := w.replays + 1, steps := w.steps - w.spanSteps })))

/-- What the HST die does with reports (R238, R244, R246; 10 R277 to R281; 06 R141, R143, R144): one from a core that does not run the slot's task changes nothing; the others mark their
core's part, the first fault or fence ends the task, the refusal whose check comes first is kept, the fourth detection of a span ends the task. -/
def Obligations.TaskReports : Prop :=
  (∀ (f : Frame) (slot : SlotId) (s : State), NewMessage s hstDie f → (∀ c, dieCore f.src = some c → (slotOf s slot).busy = false ∨ bit (slotOf s slot).mask c = false) →
    ∀ (st : BitVec 16) (ck : Fin 32) (sp : BitVec 29), ∀ m ∈ [Instr.completionReportPassed f slot, .completionReportRefused f slot st ck, .completionReportSpanDone f slot sp, .completionReportDone f slot,
      .completionReportFault f slot st, .completionReportDrained f slot, .completionReportDetection f slot sp], exec m s = .next (tookMessage s hstDie f)) ∧
  (∀ (f : Frame) (slot : SlotId) (c : Nat) (s : State), NewMessage s hstDie f → dieCore f.src = some c → (slotOf s slot).busy = true → bit (slotOf s slot).mask c = true →
    let x := slotOf s slot
    let s' := tookMessage s hstDie f
    (∃ t a b n r, exec (.completionReportPassed f slot) s = .next t ∧
      slotOf t slot = { x with passed := x.passed ||| 2 ^ c, answered := x.answered ||| 2 ^ c, waiting := a, started := b, since := n, reported := r } ∧
      (x.ending = false → x.started = false → x.refusal = none → allIn x.mask (x.passed ||| 2 ^ c) = true → x.counter = none → waitOf x = none →
        (slotOf t slot).started = true ∧ ∀ d, d < 64 → bit x.mask d = true → ∃ m ∈ t.net.chain, m.src = hstDie ∧ m.dst = coreDie d ∧ m.msg = .go d slot.val 0) ∧
      (allIn x.mask (x.passed ||| 2 ^ c) = false → x.refusal = none → t.net = s'.net)) ∧
    (∀ (st : BitVec 16) (ck : Fin 32), ∃ t, exec (.completionReportRefused f slot st ck) s = .next t ∧ OnlyParts [.regs, .cores, .hst, .net] s t ∧
      (slotOf t slot).answered = x.answered ||| 2 ^ c ∧
      ((x.refusal = none ∨ ∃ e k, x.refusal = some (e, k) ∧ ck.val < k) → (slotOf t slot).refusal = some (st.toNat, ck.val) ∧ (slotOf t slot).refusalDie = coreDie c) ∧
      (∀ e k, x.refusal = some (e, k) → k ≤ ck.val → (slotOf t slot).refusal = x.refusal ∧ (slotOf t slot).refusalDie = x.refusalDie) ∧
      reg t (hstOff HST_REFUSE_COUNT) = if x.refusal = none then (reg s (hstOff HST_REFUSE_COUNT) + 1) % 2 ^ 64 else reg s (hstOff HST_REFUSE_COUNT)) ∧
    (∃ t, exec (.completionReportDone f slot) s = .next t ∧ OnlyParts [.hst, .net] s t ∧ slotOf t slot = { x with done := x.done ||| 2 ^ c } ∧ ∀ j, j ≠ slot.val → slotOf t j = slotOf s j) ∧
    (∃ t, exec (.completionReportDrained f slot) s = .next t ∧ OnlyParts (if aborted x && x.status != stCancelled then [.mem, .hst, .net, .freeIdx] else [.hst, .net]) s t ∧
      (∀ b, (∀ r ∈ abortRows s c slot, b < rowDpa c r.1 r.2.1 ∨ rowDpa c r.1 (r.2.1 + r.2.2) ≤ b) → mread t.mem b = mread s.mem b) ∧
      slotOf t slot = { x with drained := x.drained ||| 2 ^ c } ∧ ∀ j, j ≠ slot.val → slotOf t j = slotOf s j) ∧
    (∀ st : BitVec 16, ((x.ending = true ∨ x.written = true) → exec (.completionReportFault f slot st) s = .next s') ∧
      (x.ending = false → x.written = false → ∃ t, exec (.completionReportFault f slot st) s = .next t ∧ OnlyParts [.cores, .hst, .net] s t ∧ (slotOf t slot).ending = true ∧
        (slotOf t slot).status = st.toNat ∧ (slotOf t slot).srcDie = coreDie c ∧
        (∀ d, d < 64 → d ≠ c → bit x.mask d = true → coreActive s d = true → ∃ m ∈ t.net.chain, m.src = hstDie ∧ m.dst = coreDie d ∧ m.msg = .abort d slot.val))) ∧
    (∀ sp : BitVec 29, (x.span % 2 ^ 29 ≠ sp.toNat → ∀ m ∈ [Instr.completionReportSpanDone f slot sp, .completionReportDetection f slot sp], exec m s = .next s') ∧
      (x.span % 2 ^ 29 = sp.toNat →
        (allIn x.mask (x.spanDone ||| 2 ^ c) = false → (∀ p ∈ s.queues, p.2.held = none) →
          ∃ t, exec (.completionReportSpanDone f slot sp) s = .next t ∧ OnlyParts [.hst, .net] s t ∧ slotOf t slot = { x with spanDone := x.spanDone ||| 2 ^ c }) ∧
        ((x.ending = true ∨ x.written = true) → exec (.completionReportDetection f slot sp) s = .next s') ∧
        (x.ending = false → x.written = false → (x.detections < 3 ∨ x.opcode ≠ 1 ∨ hasGroup x.table = false) → ∃ t, exec (.completionReportDetection f slot sp) s = .next t ∧ OnlyParts [.hst, .net] s t ∧
          slotOf t slot = { x with detections := x.detections + 1, spanDone := 0 } ∧
          ∀ d, d < 64 → bit x.mask d = true → ∃ m ∈ t.net.chain, m.src = hstDie ∧ m.dst = coreDie d ∧ m.msg = .replay d slot.val x.span) ∧
        (x.ending = false → x.written = false → 3 ≤ x.detections → x.opcode = 1 → hasGroup x.table = true → ∃ t, exec (.completionReportDetection f slot sp) s = .next t ∧ OnlyParts [.cores, .hst, .net] s t ∧
          (slotOf t slot).ending = true ∧ (slotOf t slot).status = stReplayLimit ∧ t.hst.accAborts = s.hst.accAborts + 1)))) ∧
  (∀ (f : Frame) (slot : SlotId) (s : State), NewMessage s hstDie f →
    (((slotOf s slot).busy = false ∨ (slotOf s slot).waiting = false) → exec (.completionReportMarkerReached f slot) s = .next (tookMessage s hstDie f)) ∧
    ((slotOf s slot).busy = true → (slotOf s slot).waiting = true → ∃ t a b n r, exec (.completionReportMarkerReached f slot) s = .next t ∧
      slotOf t slot = { slotOf s slot with waited := true, waiting := a, started := b, since := n, reported := r } ∧ ∀ j, j ≠ slot.val → slotOf t j = slotOf s j)) ∧
  (∀ (slot : SlotId) (s : State), let x := slotOf s slot
    ((spanReady s slot = false ∨ x.opcode ≠ 1 ∨ hasGroup x.table = false) → exec (.groupCommit slot) s = .next s) ∧
    (spanReady s slot = true → x.opcode = 1 → hasGroup x.table = true → (∀ p ∈ s.queues, p.2.held = none) → ∃ t, exec (.groupCommit slot) s = .next t ∧
      (x.span + 1 < x.spans → slotOf t slot = { x with span := x.span + 1, spanDone := 0, detections := 0 } ∧
        ∀ d, d < 64 → bit x.mask d = true → ∃ m ∈ t.net.chain, m.src = hstDie ∧ m.dst = coreDie d ∧ m.msg = .go d slot.val (x.span + 1)) ∧
      (x.spans ≤ x.span + 1 → slotOf t slot = { x with spanDone := 0 } ∧ ∀ d, d < 64 → bit x.mask d = true → (core t d).task = none)))

/-! The host interface: doorbells and queue pairs, fetching and dispatch, tasks of the HST die, completion and cancellation (16 R407 to R421; 04 R102 to R106; 12 R301; 13 R341). -/

/-- Doorbells and queue pairs (R407, R408, R417, R420, R421): a valid doorbell moves TAIL, or HEAD and frees the entries; an invalid one is dropped, counted, recorded and told
of. The enables and their refusals; the aggregation time of a completion queue. -/
def Obligations.QueuePairs : Prop :=
  (∀ (q : HostQueue) (v : Word) (s : State),
    let tail : State → Prop := fun t => OnlyParts [.regs] s t ∧ bits (reg t (sqOff q 3)) 31 16 = v.toNat % 2 ^ 16 ∧ bits (reg t (sqOff q 3)) 15 0 = bits (reg s (sqOff q 3)) 15 0 ∧
      ∀ off, off ≠ sqOff q 3 → reg t off = reg s off
    let head : State → Prop := fun t => OnlyParts [.regs, .hst] s t ∧ cqHead t q = v.toNat % 2 ^ 16 ∧ cqTail t q = cqTail s q ∧ cqPhase t q = cqPhase s q ∧
      (cqHead s q < cqSize s q → cqHeld t q = cqHeld s q - if cqHead s q ≤ v.toNat % 2 ^ 16 then v.toNat % 2 ^ 16 - cqHead s q else cqSize s q + v.toNat % 2 ^ 16 - cqHead s q) ∧
      ∀ off, off ≠ cqOff q 2 → reg t off = reg s off
    let dropped : State → Prop := fun t => OnlyParts [.regs, .net] s t ∧ reg t (hstOff HST_POSTED_DROP_COUNT) = (reg s (hstOff HST_POSTED_DROP_COUNT) + 1) % 2 ^ 64 ∧
      reg t (hstOff HST_LAST_DROP) = stDoorbellInvalid + q * 2 ^ 18 ∧ SentEvent s t hstDie 0x801 1 [stDoorbellInvalid, 0, q]
    let tailOk : Prop := bit (reg s (sqOff q 0)) 0 = true ∧ v.toNat % 2 ^ 16 < 2 ^ bits (reg s (sqOff q 0)) 19 15 ∧ q.val ∉ s.hst.closing
    let headOk : Prop := bit (reg s (cqOff q 0)) 0 = true ∧ v.toNat % 2 ^ 16 < cqSize s q
    (tailOk → ∃ t, exec (.sqTailDoorbell q v) s = .next t ∧ tail t) ∧ (¬ tailOk → ∃ t, exec (.sqTailDoorbell q v) s = .next t ∧ dropped t) ∧
    (headOk → ∃ t, exec (.cqHeadDoorbell q v) s = .next t ∧ head t) ∧ (¬ headOk → ∃ t, exec (.cqHeadDoorbell q v) s = .next t ∧ dropped t) ∧
    (∀ (f : Frame) (w : BitVec 16), NewMessage s hstDie f →
      exec (.doorbell f false q w) s = exec (.sqTailDoorbell q (w.zeroExtend 64)) (tookMessage s hstDie f) ∧
      exec (.doorbell f true q w) s = exec (.cqHeadDoorbell q (w.zeroExtend 64)) (tookMessage s hstDie f)) ∧
    (bit v.toNat 0 = true →
      let okCq : Prop := 1 ≤ bits v.toNat 5 1 ∧ bits v.toNat 5 1 ≤ 16
      let okSq : Prop := (1 ≤ bits v.toNat 19 15 ∧ bits v.toNat 19 15 ≤ 16) ∧ bit (reg s (cqOff (bits v.toNat 14 3) 0)) 0 = true ∧ bits (reg s (sqOff q 2)) 17 0 ≤ bits (reg s (sqOff q 2)) 35 18
      (∃ t, exec (.queuePairEnable true q v) s = .next t ∧ OnlyParts [.regs, .hst] s t ∧ bits (reg t (cqOff q 0)) 41 1 = bits v.toNat 41 1 ∧
        (bit (reg t (cqOff q 0)) 0 = true ↔ okCq) ∧
        (okCq → bit (reg s (cqOff q 0)) 0 = false → cqHead t q = 0 ∧ cqTail t q = 0 ∧ cqPhase t q = true ∧ cqHeld t q = 0) ∧
        ((¬ okCq ∨ bit (reg s (cqOff q 0)) 0 = true) → reg t (cqOff q 2) = reg s (cqOff q 2) ∧ t.hst = s.hst)) ∧
      (∃ t, exec (.queuePairEnable false q v) s = .next t ∧ OnlyParts [.regs] s t ∧ bits (reg t (sqOff q 0)) 19 1 = bits v.toNat 19 1 ∧ (bit (reg t (sqOff q 0)) 0 = true ↔ okSq) ∧
        reg t (sqOff q 3) = if okSq ∧ bit (reg s (sqOff q 0)) 0 = false then 0 else reg s (sqOff q 3))) ∧
    (bit v.toNat 0 = false →
      (∃ t, exec (.queuePairEnable true q v) s = .next t ∧ OnlyParts [.regs] s t ∧
        ((bit (reg s (cqOff q 0)) 0 = true ∧ ∃ k < 4096, bit (reg s (sqOff k 0)) 0 = true ∧ sqCq s k = q) →
          reg t (hstOff HST_CFG_REJECT_COUNT) = (reg s (hstOff HST_CFG_REJECT_COUNT) + 1) % 2 ^ 64 ∧ reg t (cqOff q 0) = reg s (cqOff q 0)) ∧
        (¬ (bit (reg s (cqOff q 0)) 0 = true ∧ ∃ k < 4096, bit (reg s (sqOff k 0)) 0 = true ∧ sqCq s k = q) → reg t (cqOff q 0) = bits v.toNat 41 0)) ∧
      (∃ t, exec (.queuePairEnable false q v) s = .next t ∧ OnlyParts [.regs, .hst] s t ∧ bits (reg t (sqOff q 0)) 19 1 = bits v.toNat 19 1 ∧
        let runs : Prop := fetched s q ≠ [] ∨ ∃ k ∈ busySlots s, (slotOf s k).sq = q
        ((bit (reg s (sqOff q 0)) 0 = true ∧ runs) → bit (reg t (sqOff q 0)) 0 = true ∧ q.val ∈ t.hst.closing) ∧
        (¬ (bit (reg s (sqOff q 0)) 0 = true ∧ runs) → bit (reg t (sqOff q 0)) 0 = false ∧ t.hst.closing = s.hst.closing ∧ t.hst.slots = s.hst.slots ∧
          ((∀ c ∈ s.hst.cancels, c.1 ≠ q) → t.hst = s.hst))))) ∧
  (∀ (cq : HostQueue) (s : State), let lim := bits (reg s (cqOff cq 0)) 41 26 * 100
    (tfind s.hst.unsignalled cq = none → exec (.msixAggregationTimeout cq) s = .next s) ∧
    (∀ n since, tfind s.hst.unsignalled cq = some (n, since) →
      ((lim = 0 ∨ now s < since + lim) → exec (.msixAggregationTimeout cq) s = .next s) ∧
      (lim ≠ 0 → since + lim ≤ now s → ∃ t, exec (.msixAggregationTimeout cq) s = .next t ∧ OnlyParts [.regs, .hst, .out] s t ∧ tfind t.hst.unsignalled cq = none ∧
        let vec := bits (reg s (cqOff cq 0)) 16 6
        (bit (reg s (cqOff cq 0)) 17 = true → bit (reg s (msixOff vec 1)) 32 = false → t.out = .msix vec :: s.out ∧ t.regs = s.regs) ∧
        (bit (reg s (cqOff cq 0)) 17 = true → bit (reg s (msixOff vec 1)) 32 = true → t.out = s.out ∧ bit (reg t (pbaOff vec)) (vec % 64) = true) ∧
        (bit (reg s (cqOff cq 0)) 17 = false → t.out = s.out ∧ t.regs = s.regs))))

/-- Fetching and cancelling (R397, R408, R410, R418): nothing is fetched before stage 4 has completed; HEAD moves by the descriptors taken, at most 16 and up to TAIL; a valid one waits in its SQ, another completes with its verdict,
counted as refused. HST_CANCEL ends the first task of a CMD_ID, waits for one that is not fetched yet, or ends every task of the SQ; it says when it finds none. -/
def Claims.FetchAndCancel : Prop :=
  (∀ (q : HostQueue) (ds : List (List Word)) (s : State), let size := 2 ^ bits (reg s (sqOff q 0)) 19 15
    let head := bits (reg s (sqOff q 3)) 15 0
    let avail := (bits (reg s (sqOff q 3)) 31 16 + size - head) % size
    let l := (ds.take (min 16 avail)).map (fun d => d.map (·.toNat))
    ((stageDone s 4 = false ∨ bit (reg s (sqOff q 0)) 0 = false ∨ q.val ∈ s.hst.closing) → exec (.descriptorFetch q ds) s = .next s) ∧
    (stageDone s 4 = true → bit (reg s (sqOff q 0)) 0 = true → q.val ∉ s.hst.closing → (∀ c ∈ s.hst.cancels, c.1 ≠ q) →
      ((∀ d ∈ l, verdict s q d = 0) → ∃ t, exec (.descriptorFetch q ds) s = .next t ∧ OnlyParts [.regs, .hst] s t ∧
        bits (reg t (sqOff q 3)) 15 0 = (head + l.length) % size % 2 ^ 16 ∧ bits (reg t (sqOff q 3)) 31 16 = bits (reg s (sqOff q 3)) 31 16 ∧
        (∀ off, off ≠ sqOff q 3 → reg t off = reg s off) ∧ fetched t q = fetched s q ++ l.zipIdx.map (fun d => { words := d.1, seq := s.hst.fetchSeq + d.2 }) ∧
        t.hst.slots = s.hst.slots ∧ t.hst.fetchSeq = s.hst.fetchSeq + l.length) ∧
      (∀ d k, l = [d] → verdict s q d ≠ 0 → freeSlot s = some k → ∃ t, exec (.descriptorFetch q ds) s = .next t ∧ OnlyParts [.regs, .hst] s t ∧
        bits (reg t (sqOff q 3)) 15 0 = (head + 1) % size % 2 ^ 16 ∧ reg t (hstOff HST_REFUSE_COUNT) = (reg s (hstOff HST_REFUSE_COUNT) + 1) % 2 ^ 64 ∧ fetched t q = fetched s q ∧
        slotOf t k = { newSlot q s.hst.fetchSeq d with ending := true, status := verdict s q d } ∧ ∀ j, j ≠ k → slotOf t j = slotOf s j))) ∧
  (∀ (v : Word) (s : State), let q := bits v.toNat 11 0
    let cmd := bits v.toNat 27 12
    let names : Nat → Nat → Prop := fun seq id => (∃ k ∈ busySlots s, (slotOf s k).sq = q ∧ (slotOf s k).seq = seq ∧ (slotOf s k).cmdId = id) ∨
      ∃ d ∈ fetched s q, d.seq = seq ∧ tCmdId d.words = id
    let size := 2 ^ bits (reg s (sqOff q 0)) 19 15
    let left := (bits (reg s (sqOff q 3)) 31 16 + size - bits (reg s (sqOff q 3)) 15 0) % size
    (2 ≤ bits v.toNat 29 28 → exec (.hstCancel v) s = .next s) ∧
    (bits v.toNat 29 28 = 0 → (∀ seq, ¬ names seq cmd) → ∃ t, exec (.hstCancel v) s = .next t ∧ OnlyParts [.hst] s t ∧ t.hst.slots = s.hst.slots ∧
      t.hst.cancelResult = (if left = 0 then 2 else 1) ∧ t.hst.cancels = s.hst.cancels ++ if left = 0 then [] else [(q, cmd, left)]) ∧
    (bits v.toNat 29 28 = 0 → ∀ seq, names seq cmd → (∀ m, names m cmd → seq ≤ m) →
      ∃ u, OnlyParts [.hst] s u ∧ u.hst.slots = s.hst.slots ∧ u.hst.fetched = s.hst.fetched ∧ u.hst.refused = s.hst.refused ∧ u.hst.cancelResult = 1 ∧ seq ∈ u.hst.cancelWait ∧
        (∀ d, (fetched s q).find? (fun d => d.seq == seq) = some d → exec (.hstCancel v) s =
          .next (refuseTask (setFetched u q ((fetched s q).filter (fun e => e.seq != seq))) q seq d.words stCancelled)) ∧
        ((∀ d ∈ fetched s q, d.seq ≠ seq) → ∃ k ∈ busySlots s, (slotOf s k).sq = q ∧ (slotOf s k).seq = seq ∧ exec (.hstCancel v) s = .next (endTask u k stCancelled hstDie none true))) ∧
    (bits v.toNat 29 28 = 1 → (∀ seq id, ¬ names seq id) → ∃ t, exec (.hstCancel v) s = .next t ∧ OnlyParts [.hst] s t ∧ t.hst.slots = s.hst.slots ∧ t.hst.cancelResult = 2) ∧
    (bits v.toNat 29 28 = 1 → (∃ seq id, names seq id) → ∃ t, exec (.hstCancel v) s = .next t ∧ t.hst.cancelResult = 1 ∧ (∀ seq id, names seq id → seq ∈ t.hst.cancelWait) ∧
      (fetched s q = [] → ∀ k ∈ busySlots s, (slotOf s k).sq = q → (∀ j ∈ busySlots s, (slotOf s j).sq = q → (slotOf s j).seq = (slotOf s k).seq → j = k) →
        (slotOf s k).busy = true → (slotOf s k).written = false → (slotOf t k).ending = true)))

/-- Dispatch to cores (R411, R412, R413; 09 R247, R250; 12 R301): a front task that may not run after all completes without dispatch; it waits while a core of its mask is taken,
while a lifeline holds it, and for a row counter; dispatched, it holds a slot and each of its active cores is sent DISPATCH, ranks ascending. -/
def Obligations.Dispatch : Prop :=
  ∀ (q : HostQueue) (s : State),
    (frontTask s q 1 = none → exec (.compute q) s = .next s) ∧ (frontTask s q 2 = none → exec (.copy q) s = .next s) ∧
    (∀ d, let n := tStrand d.words
      let mask := tCores d.words &&& activeMask s
      let front : Instr → Nat → Prop := fun c op => c = .compute q ∧ op = 1 ∨ c = .copy q ∧ op = 2
      let dropped : State → Instr → Nat → Prop := fun u c st => ∃ t, exec c s = .next t ∧ OnlyParts [.regs, .hst] u t ∧ fetched t q = (fetched u q).drop 1 ∧
        reg t (hstOff HST_REFUSE_COUNT) = (reg u (hstOff HST_REFUSE_COUNT) + 1) % 2 ^ 64 ∧
        ∀ k, freeSlot u = some k → slotOf t k = { newSlot q d.seq d.words with ending := true, status := st } ∧ ∀ j, j ≠ k → slotOf t j = slotOf u j
      let sent : State → Nat → Prop := fun t k => (∀ i c, (coresOf mask)[i]? = some c →
        ∃ m ∈ t.net.chain, m.src = hstDie ∧ m.dst = coreDie c ∧ m.msg = .dispatch c k i (coresOf mask).length)
      (∀ c op, front c op → frontTask s q op = some d → coresBad s d.words ≠ 0 → dropped s c (coresBad s d.words)) ∧
      (∀ c op, front c op → frontTask s q op = some d → coresBad s d.words = 0 → (∃ c ∈ coresOf mask, coreTaken s c = true) → exec c s = .next s) ∧
      (∀ c op, front c op → frontTask s q op = some d → coresBad s d.words = 0 → (∀ c ∈ coresOf mask, coreTaken s c = false) → stepHolds s n (tStep d.words) = true →
        ∃ t, exec c s = .next t ∧ OnlyParts [.hst] s t ∧ t.hst.slots = s.hst.slots ∧ t.hst.fetched = s.hst.fetched ∧ (q.val, n) ∈ t.hst.llWaiting) ∧
      (frontTask s q 2 = some d → coresBad s d.words = 0 → (∀ c ∈ coresOf mask, coreTaken s c = false) → stepHolds s n (tStep d.words) = false → ∀ k, freeSlot s = some k →
        ∃ t freed, exec (.copy q) s = .next t ∧ sent t k ∧ ((lifeline s n).role ≠ 1 → freed = freeingMasks s) ∧ slotOf t k = { newSlot q d.seq d.words with
          mask := mask
          table := (readWords s n (tArg0 d.words) 32).getD []
          seed := strandWord s n 2
          freedMasks := freed
          activeAt := activeMask s
          spans := 1 }) ∧
      (frontTask s q 1 = some d → coresBad s d.words = 0 → (∀ c ∈ coresOf mask, coreTaken s c = false) → stepHolds s n (tStep d.words) = false →
        let tab := (readWords s n (tArg0 d.words) 200).getD []
        let counted := claimsMode tab && sSource tab (cClaimSlot tab) == 0
        let g := getRange s n (hShapeBase tab) (if hShapeBase tab = 0 then 0 else 64)
        let x := (readShape g.1 n (hShapeBase tab)).getD []
        let sb := hScheduleBase tab
        let h := getRange g.1 n sb (if sb = 0 then 0 else 8 * scheduleWords g.1 n sb)
        let w := if sb = 0 then [] else (readWords h.1 n sb (scheduleWords h.1 n sb)).getD []
        OnlyParts [.regs, .pkg, .hst, .cache, .mifs, .fars, .ports, .dict, .net, .out, .freeIdx] s g.1 ∧ OnlyParts [.regs, .pkg, .hst, .cache, .mifs, .fars, .ports, .dict, .net, .out, .freeIdx] g.1 h.1 ∧
        ((counted = true ∧ freeCounter s = none) → ∃ t, exec (.compute q) s = .next t ∧ OnlyParts [.hst] s t ∧ t.hst.slots = s.hst.slots ∧ t.hst.fetched = s.hst.fetched ∧
          q.val ∈ t.hst.counterWaiting) ∧
        (¬ (counted = true ∧ freeCounter s = none) →
          (g.2 ≠ stSuccess → dropped g.1 (.compute q) g.2) ∧
          (g.2 = stSuccess → h.2 ≠ stSuccess → dropped h.1 (.compute q) h.2) ∧
          (g.2 = stSuccess → h.2 = stSuccess → sb ≠ 0 → tab ≠ [] → scheduleBad tab w = true →
            ∃ u, OnlyParts [.hst] h.1 u ∧ u.hst.schedInvalid = h.1.hst.schedInvalid + 1 ∧ dropped u (.compute q) stScheduleInvalid) ∧
          (∀ k, g.2 = stSuccess → h.2 = stSuccess → (sb = 0 ∨ tab = [] ∨ scheduleBad tab w = false) → freeSlot h.1 = some k →
            ∃ t base freed, exec (.compute q) s = .next t ∧ sent t k ∧ ((lifeline s n).role ≠ 1 → freed = freeingMasks s) ∧ slotOf t k = { newSlot q d.seq d.words with
              mask := mask
              table := tab
              shape := x
              schedule := w
              freedMasks := freed
              activeAt := activeMask s
              spans := spansOf tab x
              tokenBase := base
              seed := strandWord s n 2
              counter := if counted then freeCounter s else none }))))

/-- Tasks that the HST die runs (R409, R411, R414; 04 R102 to R106; 13 R341): a task whose turn it is not changes nothing, one that a lifeline holds waits; the others leave their
SQ, counted in HST_TASK_COUNT, and end as their rules say. A barrier's arrivals, and the end of an INVALIDATE. -/
def Obligations.HostDieTasks : Prop :=
  (∀ (q : HostQueue) (s : State),
    (∀ p ∈ [(3, Instr.maskLoad q), (4, .maskFree q), (5, .barrier q), (6, .invalidate q), (7, .nop q)],
      (frontTask s q p.1 = none → exec p.2 s = .next s) ∧
      (∀ d, frontTask s q p.1 = some d → stepHolds s (tStrand d.words) (tStep d.words) = true →
        ∃ t, exec p.2 s = .next t ∧ OnlyParts [.hst] s t ∧ t.hst.slots = s.hst.slots ∧ t.hst.fetched = s.hst.fetched ∧ (q.val, tStrand d.words) ∈ t.hst.llWaiting)) ∧
    (∀ d, let n := tStrand d.words
      let u := takeFront s q d
      let x := newSlot q d.seq d.words
      ((lifeline s n).role ≠ 1 → fetched u q = (fetched s q).drop 1 ∧ reg u (hstOff HST_TASK_COUNT) = (reg s (hstOff HST_TASK_COUNT) + 1) % 2 ^ 64 ∧ u.hst.slots = s.hst.slots ∧
        u.hst.masks = s.hst.masks ∧ u.hst.maskFrees = s.hst.maskFrees ∧ u.hst.barriers = s.hst.barriers ∧ u.cores = s.cores ∧ u.hst.lru.head? = some n ∧
        ∀ y, strand s n = some y → strand u n = some (if newStep s n (tStep d.words) then { y with stepSeen := some (tStep d.words) } else y)) ∧
      (stepHolds s n (tStep d.words) = false → ∀ k, freeSlot u = some k →
        let ends : Instr → State → Nat → Nat → Prop := fun c v st info => exec c s = .next (setSlot v k { x with ending := true, status := st, info := info })
        (frontTask s q 7 = some d → ends (.nop q) u stSuccess 0) ∧
        (frontTask s q 6 = some d → ∃ t, exec (.invalidate q) s = .next t ∧ OnlyParts [.cores, .hst] u t ∧ slotOf t k = x ∧
          (k, n, tArg0 d.words, tArg1 d.words) ∈ t.hst.invalidating ∧
          ∀ c e, e ∈ (core t c).xlt ↔ e ∈ (core u c).xlt ∧ ¬ (e.1 = n ∧ overlaps e.2.1 e.2.2 (tArg0 d.words) (tArg1 d.words) = true)) ∧
        (frontTask s q 5 = some d → let y := barrierOf u (barId x)
          let l := peerList u n x.arg0 (bits x.arg1 39 28)
          let arrived := if y.gen = barGen x then y.now else if barGen x = (y.gen + 1) % 65536 then y.next else []
          (∀ e, rangeFault u n x.arg0 (2 * bits x.arg1 39 28) false = some e → ends (.barrier q) u e 0) ∧
          (rangeFault u n x.arg0 (2 * bits x.arg1 39 28) false = none →
            ((∃ v ∈ l, 16 ≤ routePort u v) → ends (.barrier q) u stPeerUnreachable (barGen x)) ∧
            ((∀ v ∈ l, routePort u v < 16) → ∃ t, exec (.barrier q) s = .next t ∧ OnlyParts [.hst, .ports] u t ∧
              (∀ v ∈ l, control 1 v (ownDev u) (barId x + barGen x * 2 ^ 12) ∈ (port t (routePort u v)).control) ∧
              (barrierOf t (barId x)).gen = barGen x ∧ (barrierOf t (barId x)).now = arrived ∧
              (((arrived.filter (l.contains ·)).length < barExpect x) → slotOf t k = { x with since := now u, table := l }) ∧
              ((barExpect x ≤ (arrived.filter (l.contains ·)).length) →
                slotOf t k = { x with since := now u, table := l, ending := true, status := stSuccess, info := barGen x })))) ∧
        (frontTask s q 3 = some d →
          let g := getRange u n x.arg0 64
          (g.2 ≠ stSuccess → ends (.maskLoad q) g.1 g.2 0) ∧
          (∀ w, g.2 = stSuccess → readWords g.1 n x.arg0 8 = some w →
            let h := getRange g.1 n (maskBytes w).1 (maskBytes w).2
            let r := loadMask h.1 n w (bit x.arg1 0) h.2
            (r.1 ≠ stSuccess → ∃ v, OnlyParts [.hst] h.1 v ∧ v.hst.masks = h.1.hst.masks ∧ v.hst.masksRefused = h.1.hst.masksRefused + 1 ∧ ends (.maskLoad q) v r.1 0) ∧
            (r.1 = stSuccess → ∃ v, OnlyParts [.hst] h.1 v ∧ v.hst.masksLoaded = h.1.hst.masksLoaded + 1 ∧ tfind h.1.hst.masks r.2 = none ∧ r.2 < 1024 ∧
              tfind v.hst.masks r.2 = some { strand := n, base := dAux0 w, h := dH w, w := dW w, fmt := dFmt w, transposable := bit x.arg1 0 } ∧
              ends (.maskLoad q) v stSuccess r.2))) ∧
        (frontTask s q 4 = some d → let id := bits x.arg1 9 0
          ((∀ m, tfind u.hst.masks id = some m → m.strand ≠ n ∨ id ∈ freeingMasks u) → ends (.maskFree q) u stMaskUnknown 0) ∧
          (∀ m, tfind u.hst.masks id = some m → m.strand = n → id ∉ freeingMasks u → ∃ t, exec (.maskFree q) s = .next t ∧ OnlyParts [.hst] u t ∧
            (maskNamed (setSlot u k x) id = false → tfind t.hst.masks id = none ∧ slotOf t k = { x with ending := true, status := stSuccess }) ∧
            (maskNamed (setSlot u k x) id = true → (∀ p ∈ u.hst.maskFrees, p.1 ≠ k) → tfind t.hst.masks id = some m ∧ slotOf t k = x ∧ (k, id) ∈ t.hst.maskFrees)))))) ∧
  (∀ (f : Frame) (b : BitVec 12) (gen : BitVec 16) (src : BitVec 12) (s : State), NewMessage s hstDie f → let y := barrierOf s b.toNat
    (gen.toNat = y.gen → ∃ t, exec (.barrierArrival f b gen src) s = .next t ∧ OnlyParts [.hst, .net] s t ∧ barrierOf t b.toNat = { y with now := y.now ++ [src.toNat] } ∧
      ∀ k ∈ busySlots s, (slotOf s k).opcode = 5 → barId (slotOf s k) = b.toNat → barGen (slotOf s k) = y.gen → (slotOf s k).ending = false →
        ((slotOf t k).ending = true ↔ barExpect (slotOf s k) ≤ ((y.now ++ [src.toNat]).filter ((slotOf s k).table.contains ·)).length)) ∧
    (gen.toNat ≠ y.gen → gen.toNat = (y.gen + 1) % 65536 → ∃ t, exec (.barrierArrival f b gen src) s = .next t ∧ OnlyParts [.hst, .net] s t ∧ t.hst.slots = s.hst.slots ∧
      barrierOf t b.toNat = { y with next := y.next ++ [src.toNat] }) ∧
    (gen.toNat ≠ y.gen → gen.toNat ≠ (y.gen + 1) % 65536 → ∃ t, exec (.barrierArrival f b gen src) s = .next t ∧ OnlyParts [.regs, .net] s t ∧
      reg t (hstOff HST_BAR_STALE_COUNT) = (reg s (hstOff HST_BAR_STALE_COUNT) + 1) % 2 ^ 64)) ∧
  (∀ (slot : SlotId) (s : State), (s.hst.invalidating.find? (fun i => i.1 == slot.val) = none → exec (.invalidateComplete slot) s = .next s) ∧
    (∀ n a len, s.hst.invalidating.find? (fun i => i.1 == slot.val) = some (slot.val, n, a, len) →
      let busy : Prop := ∃ c ∈ s.cores, ∃ t ∈ c.2.tags, (slotOf s t.2.task).strand = n ∧ overlaps t.2.va 512 a len = true
      (busy → exec (.invalidateComplete slot) s = .next s) ∧
      (¬ busy → (slotOf s slot).busy = true → (slotOf s slot).ending = false → ∃ t, exec (.invalidateComplete slot) s = .next t ∧ OnlyParts [.hst] s t ∧
        slotOf t slot = { slotOf s slot with ending := true, status := stSuccess } ∧ ∀ i ∈ t.hst.invalidating, i.1 ≠ slot)))

/-- Completion (R415, R416; 01 R29): a slot that is not ready, or whose queue is full, waits; else the places that a task stopped after GO could write hold free values (10 R278) and no others change, its entry of 32 bytes goes to the ring at TAIL with the phase of this pass, the
slot is free, the strand's words move on, and the completion is counted. -/
def Claims.Completion : Prop :=
  ∀ (k : SlotId) (s : State), let x := slotOf s k
    let cq := sqCq s x.sq
    ((slotReady s k = false ∨ cqSize s cq ≤ cqHeld s cq) → exec (.completionWrite k) s = .next s) ∧
    (slotReady s k = true → cqHeld s cq < cqSize s cq → s.hst.refused = [] → s.hst.maskFrees = [] → s.hst.closing = [] → (∀ p ∈ s.hst.strands, p.2.releasing = false) →
      cqTail s cq < cqSize s cq → cqSize s cq ≤ 2 ^ 16 → ∃ t, exec (.completionWrite k) s = .next t ∧
        OnlyParts ([.regs, .mem, .hst, .cache, .posted, .net, .out] ++ if aborted x then [.freeIdx] else []) s t ∧
        let a := bits (reg s (cqOff cq 1)) 51 0 + 32 * cqTail s cq
        let st := slotStatus x
        let entry := [x.cmdId % 2 ^ 16 + x.sq * 2 ^ 16 + bits (reg s (sqOff x.sq 3)) 15 0 * 2 ^ 28 + b2n (cqPhase s cq) * 2 ^ 63,
          st.1 + st.2.1 * 2 ^ 16 + st.2.2 * 2 ^ 24 + x.info % 2 ^ 32 * 2 ^ 32, x.strand, now s].flatMap (leBytes 8)
        let m := (openRanges s k).mem
        (isHost a = true → Out.hostWrite a entry ∈ t.out ∧ t.mem = m) ∧ (isHost a = false → t.mem = mwriteN m a entry) ∧
        (aborted x = false → m = s.mem) ∧
        (∀ b, b ∉ abortBytes s k → mread m b = mread s.mem b) ∧
        slotOf t k = {} ∧ (∀ j, j ≠ k.val → slotOf t j = slotOf s j) ∧ cqHeld t cq = cqHeld s cq + 1 ∧
        reg t (hstOff HST_CPL_COUNT) = (reg s (hstOff HST_CPL_COUNT) + 1) % 2 ^ 64 ∧
        (cqTail s cq + 1 < cqSize s cq → cqTail t cq = cqTail s cq + 1 ∧ cqPhase t cq = cqPhase s cq) ∧
        (cqTail s cq + 1 = cqSize s cq → cqTail t cq = 0 ∧ cqPhase t cq = !cqPhase s cq) ∧
        (∀ y, strand s x.strand = some y → strand t x.strand = some { y with tasksDone := y.tasksDone + 1, stepLast := x.step }))

/-- Tasks of the submission queues (R408, R410, R415, R416, R418): fetched, cancelled, completed. -/
def Obligations.FetchCancelComplete : Prop := Claims.FetchAndCancel ∧ Claims.Completion

/-! Limund ports, frames and messages; multicast and merging (15). -/

/-- Training and the states of a port (R366, R367, R375, R383; the delay of R392). A port that is DOWN, enabled and on a die that is there trains; each failed
attempt counts and leads to the next of R366, the fourth to DOWN; an exchange of LINK_MGMT with another device leads to UP with DIGEST; RETRAIN leads back to
UP, or to TRAINING, and to DOWN after three failures in a row; a command in a state that has no such edge changes nothing. -/
def Claims.PortStates : Prop :=
  ∀ (p : PortId) (s : State), let x := port s p
    let others : State → Prop := fun t => ∀ q, q ≠ p.val → port t q = port s q
    let trains : Instr → Nat → Prop := fun c fails => ∃ t, exec c s = .next t ∧ OnlyParts [.ports] s t ∧ others t ∧
      port t p = { x with state := 1, since := now s, gen := 0, width := 0, attempt := 0, retrainFails := fails }
    let down : State → Prop := fun t => (port t p).state = 0 ∧ (port t p).gen = 0 ∧ (port t p).width = 0 ∧ (port t p).sending = [] ∧ (port t p).sent = [] ∧
      (port t p).receiving = [] ∧ ∀ m, m ∈ x.sent ∨ m ∈ x.sending → m.posted = true → m ∈ x.sent ∨ m.started = true ∨ m.mcast = true →
        ∀ k, m.task = some k → (slotOf s k).busy = true → (slotOf s k).written = false → (slotOf t k).ending = true ∧
          ((slotOf s k).ending = false → (slotOf t k).status = stLinkDown)
    let digests : State → Nat → Prop := fun t dev => (port t p).state = 3 ∧ (port t p).retrainFails = 0 ∧
      (port t p).control = x.control ++ [control 4 dev (ownDev s) (s.dict.epoch % 2 ^ 32 + digest64 s * 2 ^ 32)]
    (x.state = 0 → genMax s p ≠ 0 → dieFailed s (88 + p / 2) = false → trains (.limundTrainingStart p) x.retrainFails ∧
      (x.since + 100000000 ≤ now s → trains (.downRetryTimer p) x.retrainFails)) ∧
    (x.state ≠ 0 ∨ genMax s p = 0 ∨ dieFailed s (88 + p / 2) = true → exec (.limundTrainingStart p) s = .next s ∧ exec (.downRetryTimer p) s = .next s) ∧
    (now s < x.since + 100000000 → exec (.downRetryTimer p) s = .next s) ∧
    (∀ (ok : Bool) (peer : Fin 3), let g := min (genMax s p) peer.val
      let a : Nat × Nat := match x.attempt with | 0 => (g, 8) | 1 => (1, 8) | 2 => (g, 4) | _ => (1, 4)
      (x.state ≠ 1 → exec (.limundTrainingDone p ok peer) s = .next s) ∧
      (x.state = 1 → ok = true → g ≠ 0 → ∃ t m, exec (.limundTrainingDone p ok peer) s = .next t ∧ OnlyParts [.ports] s t ∧ others t ∧
        port t p = { x with state := 2, since := now s, gen := a.1, width := a.2, mgmtSent := true, lastMgmt := now s, control := x.control ++ [m] } ∧ m % 256 = 9 ∧
        bits m 31 20 = ownDev s % 4096 ∧ bits m 33 32 = genMax s p) ∧
      (x.state = 1 → ok = false ∨ g = 0 → ∃ t, exec (.limundTrainingDone p ok peer) s = .next t ∧
        reg t (portOff p LNK_TRAIN_FAIL_COUNT) = (reg s (portOff p LNK_TRAIN_FAIL_COUNT) + 1) % 2 ^ 64 ∧
        (x.attempt ≠ 3 → OnlyParts [.regs, .ports] s t ∧ others t ∧ port t p = { x with attempt := x.attempt + 1 }) ∧
        (x.attempt = 3 → OnlyParts [.regs, .cores, .hst, .ports, .unsent, .net] s t ∧ down t))) ∧
    (∀ (gm w : Nat) (dx8 : Bool) (dev : BitVec 12) (pp : BitVec 4) (echo : Word), let c := Instr.linkMgmt p gm w dx8 dev pp echo
      (x.state ≠ 2 → exec c s = .next s) ∧
      (x.state = 2 → ∃ t, exec c s = .next t ∧ (port t p).peerDev = dev.toNat ∧ (port t p).peerPort = pp.toNat ∧ (port t p).dx8 = dx8 ∧
        (port t p).gen = (if dx8 then 1 else x.gen) ∧ reg t (portOff p LNK_DELAY_NS) = (now s - echo.toNat) / 2 % 2 ^ 64 ∧
        (dev.toNat = ownDev s → (port t p).state = 2 ∧ SentEvent s t (88 + p / 2) 0x703 2 [p.val, dev.toNat]) ∧
        (dev.toNat ≠ ownDev s → x.mgmtSent = false → OnlyParts [.regs, .ports] s t ∧ others t ∧ (port t p).state = 2) ∧
        (dev.toNat ≠ ownDev s → x.mgmtSent = true → digests t dev.toNat))) ∧
    ((x.state = 2 → x.since + 1000000 ≤ now s → trains (.configTimeout p) x.retrainFails) ∧ (x.state ≠ 2 ∨ now s < x.since + 1000000 → exec (.configTimeout p) s = .next s)) ∧
    ((x.state ≠ 3 → exec (.retrainEntry p) s = .next s) ∧
      (x.state = 3 → ∃ t, exec (.retrainEntry p) s = .next t ∧ OnlyParts [.regs, .ports] s t ∧ others t ∧ port t p = { x with state := 4, since := now s, replays := [] } ∧
        reg t (portOff p LNK_RETRAIN_COUNT) = (reg s (portOff p LNK_RETRAIN_COUNT) + 1) % 2 ^ 64)) ∧
    ((x.state ≠ 4 → exec (.retrainEqualised p) s = .next s ∧ exec (.retrainTimeout p) s = .next s) ∧
      (x.since + 50000 < now s → exec (.retrainEqualised p) s = .next s) ∧ (now s < x.since + 50000 → exec (.retrainTimeout p) s = .next s) ∧
      (x.state = 4 → now s ≤ x.since + 50000 → ∃ t, exec (.retrainEqualised p) s = .next t ∧ OnlyParts [.cores, .hst, .ports, .unsent, .net] s t ∧ digests t x.peerDev) ∧
      (x.state = 4 → x.since + 50000 ≤ now s → x.retrainFails < 2 → trains (.retrainTimeout p) (x.retrainFails + 1)) ∧
      (x.state = 4 → x.since + 50000 ≤ now s → 2 ≤ x.retrainFails → ∃ t, exec (.retrainTimeout p) s = .next t ∧ OnlyParts [.cores, .hst, .ports, .unsent, .net] s t ∧ down t ∧ (port t p).retrainFails = 0)) ∧
    (∃ t, exec (.limundPortDown p) s = .next t ∧ OnlyParts [.cores, .hst, .ports, .unsent, .net] s t ∧ down t)

/-- DIGEST, TIME and their timers (R391, R392): what the peer sent is kept; a port is divergent where equal epochs have different digests, or where the epochs
have differed for longer than 0x5010:05; entering and leaving divergence is an event; no time that a peer sends moves REFTIME. -/
def Claims.DigestsAndTime : Prop :=
  ∀ (p : PortId) (s : State), let x := port s p
    let judged : State → Nat → Nat → Option Nat → Prop := fun t d epoch since =>
      let div : Bool := if epoch = s.dict.epoch then d != digest64 s else
        match since with | some a => decide (objNat s 0x501005 * 1000000 < now s - a) | none => false
      port t p = { x with peerEpoch := epoch, epochDiffSince := since, divergent := div } ∧ (∀ q, q ≠ p.val → port t q = port s q) ∧
        (div = x.divergent → OnlyParts [.regs, .ports] s t) ∧
        (div ≠ x.divergent → SentEvent s t (88 + p / 2) (if div then 0x701 else 0x702) (if div then 2 else 1) [p.val] ∧
          t.divergenceEvents = s.divergenceEvents + b2n div)
    (∀ (epoch : BitVec 32) (d : Word), ∃ t, exec (.digest p epoch d) s = .next t ∧ reg t (portOff p LNK_PEER_DIGEST) = d.toNat ∧
      judged t d.toNat epoch.toNat (if epoch.toNat = s.dict.epoch then none else if x.epochDiffSince.isSome then x.epochDiffSince else some (now s))) ∧
    (x.epochDiffSince = none → exec (.epochDisagreementTimeout p) s = .next s) ∧
    (∀ a, x.epochDiffSince = some a → ∃ t, exec (.epochDisagreementTimeout p) s = .next t ∧
      judged t (reg s (portOff p LNK_PEER_DIGEST)) x.peerEpoch (some a)) ∧
    (x.state = 3 → ∃ t, exec (.digestTimer p) s = .next t ∧ OnlyParts [.ports] s t ∧ (∀ q, q ≠ p.val → port t q = port s q) ∧
      port t p = { x with control := x.control ++ [control 4 x.peerDev (ownDev s) (s.dict.epoch % 2 ^ 32 + digest64 s * 2 ^ 32)] }) ∧
    (x.state ≠ 3 → exec (.digestTimer p) s = .next s ∧ exec (.timeTimer p) s = .next s) ∧
    (x.state = 3 → ∃ t, exec (.timeTimer p) s = .next t ∧ OnlyParts [.ports] s t ∧ (∀ q, q ≠ p.val → port t q = port s q) ∧
      port t p = { x with timeLast := now s, control := x.control ++ [control 5 x.peerDev (ownDev s) (now s)] }) ∧
    (∀ v : Word, ∃ t, exec (.time p v) s = .next t ∧ OnlyParts [.regs] s t ∧ (∀ off, off ≠ portOff p LNK_TIME_OFFSET → reg t off = reg s off) ∧
      (reg t (portOff p LNK_TIME_OFFSET) : Int) = ((v.toNat : Int) - now s - reg s (portOff p LNK_DELAY_NS)) % 2 ^ 64)

/-- Limund ports (R366, R367, R375, R383, R391, R392): their states, digests and time. -/
def Obligations.LimundPorts : Prop := Claims.PortStates ∧ Claims.DigestsAndTime

/-- Frames (R370, R371): a frame that fails is dropped, counted, and asked for again once; a frame out of order is discarded; the frame in order is acknowledged,
gives its credits, and gives its flits in order. A replay sends the frames behind ACK_SEQ again, in order. -/
def Claims.Frames : Prop :=
  ∀ (p : PortId) (s : State), let x := port s p
    let others : State → Prop := fun t => ∀ q, q ≠ p.val → port t q = port s q
    let corrected : State → Nat → Prop := fun t n => reg t (portOff p LNK_FEC_CORR_COUNT) = (reg s (portOff p LNK_FEC_CORR_COUNT) + n) % 2 ^ 64
    (∀ (n : Nat) (f : Option LinkFrame), x.state < 2 → exec (.frameReceive p f n) s = .next s) ∧
    (∀ n : Nat, 2 ≤ x.state → ∃ t, exec (.frameReceive p none n) s = .next t ∧ OnlyParts [.regs, .ports] s t ∧ others t ∧ corrected t n ∧
      reg t (portOff p LNK_FEC_UNCORR_COUNT) = (reg s (portOff p LNK_FEC_UNCORR_COUNT) + 1) % 2 ^ 64 ∧
      (x.nakActive = true → port t p = x ∧ reg t (portOff p LNK_REPLAY_COUNT) = reg s (portOff p LNK_REPLAY_COUNT)) ∧
      (x.nakActive = false → port t p = { x with nakActive := true, replays := now s :: x.replays.take 15 } ∧
        reg t (portOff p LNK_REPLAY_COUNT) = (reg s (portOff p LNK_REPLAY_COUNT) + 1) % 2 ^ 64)) ∧
    (∀ (n : Nat) (f : LinkFrame), 2 ≤ x.state → f.frameSeq.toNat ≠ (x.rxSeq + 1) % 65536 → ∃ t, exec (.frameReceive p (some f) n) s = .next t ∧
      OnlyParts [.regs] s t ∧ corrected t n ∧ ∀ off, off ≠ portOff p LNK_FEC_CORR_COUNT → reg t off = reg s off) ∧
    (∀ (n : Nat) (f : LinkFrame), 2 ≤ x.state → f.frameSeq.toNat = (x.rxSeq + 1) % 65536 → ∃ u,
      exec (.frameReceive p (some f) n) s = .next (f.flits.foldl (fun v g => flitArrives v p g) u) ∧ OnlyParts [.regs, .ports] s u ∧ others u ∧ corrected u n ∧
      port u p = { x with
        rxSeq := f.frameSeq.toNat, nakActive := false, ackedSeq := f.ackSeq.toNat,
        creditBulk := min 2048 (x.creditBulk + f.credBulk.toNat), creditCbulk := min 2048 (x.creditCbulk + f.credCbulk.toNat) }) ∧
    (∀ ack : BitVec 16, let l := x.replayBuf.filter (fun f => decide (1 ≤ (f.1 + 65536 - ack.toNat) % 65536 ∧ (f.1 + 65536 - ack.toNat) % 65536 ≤ 64))
      ∃ t, exec (.frameReplay p ack) s = .next t ∧ OnlyParts [.ports, .out] s t ∧ others t ∧ port t p = { x with ackedSeq := ack.toNat } ∧
        t.out = (l.map (fun f => Out.frame p (frameHeader s p f.1 0 0 f.2))).reverse ++ s.out)

/-- The flits of an accepted frame (R374, R376, R377, R380, R383, R384): idle ones do nothing; control messages of a reserved TYPE, and those for another device without a
route, are discarded and counted, the others for another device are forwarded, and a BARRIER for this one goes to the HST die; data flits are forwarded and
counted, wait for their strand's entry, or are discarded with one NACK; a message of one flit for memory is written where its strand's translation leads. -/
def Claims.FlitsThatArrive : Prop :=
  ∀ (p : PortId) (g : Flit) (s : State), let t := flitArrives s p g
    let ws := flitWords g
    let bad := reg t (portOff p LNK_CTRL_BAD_COUNT) = (reg s (portOff p LNK_CTRL_BAD_COUNT) + 1) % 2 ^ 64 ∧ OnlyParts [.regs] s t
    let n := g.strand.val
    let nacked : Nat → Prop := fun dst => routePort s dst < 16 → ∃ v,
      control 3 dst (ownDev s) (v % 2 ^ 18 + g.msgSeq.toNat * 2 ^ 18 + 7 * 2 ^ 34) ∈ (port t (routePort s dst)).control
    (g.cls = 0 → t = s) ∧
    (∀ m, g.cls = 1 → controlMessages g = [m] → let dst := bits m 19 8
      (m % 256 = 0 ∨ 10 < m % 256 → bad) ∧ (m % 256 ∈ [4, 5, 9] → t = s) ∧
      (1 ≤ m % 256 → m % 256 ≤ 10 → m % 256 ∉ [4, 5, 9] → dst ≠ ownDev s →
        (16 ≤ routePort s dst → bad) ∧ (routePort s dst < 16 → OnlyParts [.ports] s t ∧ (port t (routePort s dst)).control = (port s (routePort s dst)).control ++ [m])) ∧
      (m % 256 = 1 → dst = ownDev s → OnlyParts [.net] s t ∧ Sent s t (88 + p / 2) hstDie (.barrier (bits m 43 32) (bits m 59 44) (bits m 31 20)))) ∧
    (2 ≤ g.cls.val → g.mcast = false →
      let counted := reg t (portOff p LNK_RX_BYTES) = (reg s (portOff p LNK_RX_BYTES) + 8 * (g.valid8.val + 1)) % 2 ^ 64
      (let q := routePort s g.dstDev.toNat
       g.dstDev.toNat ≠ ownDev s →
        (q < 16 → (port s q).state ≠ 0 → counted ∧ OnlyParts [.regs, .ports] s t ∧
          reg t (lnkOff (p / 2) LNK_TRANSIT_BYTES) = (reg s (lnkOff (p / 2) LNK_TRANSIT_BYTES) + 8 * (g.valid8.val + 1)) % 2 ^ 64 ∧
          ∃ m ∈ (port t q).sending, g ∈ m.flits ∧ m.posted = false ∧ m.dst = g.dstDev.toNat ∧ m.rcv = n) ∧
        (16 ≤ q ∨ (port s q).state = 0 → g.first = true → counted ∧ nacked (mSrcDev (ws.take 4)) ∧ t.mem = s.mem) ∧
        (16 ≤ q ∨ (port s q).state = 0 → g.first = false → counted ∧ OnlyParts [.regs, .ports] s t ∧ ∀ r, (port t r).control = (port s r).control ∧ (port t r).sending = (port s r).sending)) ∧
      (g.dstDev.toNat = ownDev s → strandLive s n = true → lnkHolds s (p / 2) n = false → counted ∧ OnlyParts [.regs, .ports] s t ∧ (port t p).waiting = (port s p).waiting ++ [g]) ∧
      (g.dstDev.toNat = ownDev s → g.first = true → (strandLive s n = false ∨ lnkHolds s (p / 2) n = true ∧ (port s p).waiting = []) →
        (tget [] s.lnkCache (p / 2)).length < 32768 →
        (linkOk s n = false ∨ peerDev s n ≠ mSrcDev (ws.take 4) → counted ∧ nacked (mSrcDev (ws.take 4)) ∧ OnlyParts [.regs, .ports, .lnkCache, .freeIdx] s t) ∧
        (∀ y w a, linkOk s n = true → peerDev s n = mSrcDev (ws.take 4) → strand s n = some y → g.last = true → ws.drop 4 = [w] → mKind (ws.take 4) = 2 →
          (lifeline s n).role = 0 → translate s n (mOffset (ws.take 4)) true = .ok a → mOffset (ws.take 4) % 512 ≤ 504 →
          (isNear a = true ∧ stackFailed s (stackOf a) = false ∧ (stack s (stackOf a)).poison.contains (lineOf a) = false ∨
            isFar a = true ∧ farOut s a = false ∧ s.cache.farPoison.contains (lineOf a) = false) →
          counted ∧ t.mem = mwriteN s.mem a (leBytes 8 w) ∧ strand t n = some { y with rxSeq := (g.msgSeq.toNat + 1) % 65536 } ∧
          (g.msgSeq.toNat = y.rxSeq → reg t (lnkOff (p / 2) LNK_GAP_COUNT) = reg s (lnkOff (p / 2) LNK_GAP_COUNT)) ∧
          (g.msgSeq.toNat ≠ y.rxSeq → (g.msgSeq.toNat + 65536 - y.rxSeq) % 65536 < 32768 →
            reg t (lnkOff (p / 2) LNK_GAP_COUNT) = (reg s (lnkOff (p / 2) LNK_GAP_COUNT) + 1) % 2 ^ 64 ∧
            SentEvent s t (88 + p / 2) 0x705 2 [n, y.rxSeq, (g.msgSeq.toNat + 65535) % 65536]) ∧
          (routePort s (peerDev s n) < 16 → (port t (routePort s (peerDev s n))).control = (port s (routePort s (peerDev s n))).control ++
            [control 2 (peerDev s n) (ownDev s) (peerStrand s n + 2 ^ 18)]))))

/-- STRAND_ENTRY_FILL (R377): the link die holds the entry of a live strand, the miss is counted, and no flit of the strand waits for it any longer; an entry that
does not come changes nothing. -/
def Claims.StrandEntryFill : Prop :=
  ∀ (d : LnkDie) (n : StrandId) (s : State),
    (strandLive s n = false → lnkHolds s d n = false → exec (.strandEntryFill d n) s = .next s) ∧
    (strandLive s n = true → ∃ t, exec (.strandEntryFill d n) s = .next t ∧ lnkHolds t d n = true ∧
      (∀ p, p = 2 * d.val ∨ p = 2 * d.val + 1 → ∀ f ∈ (port t p).waiting, f.strand ≠ n) ∧
      ((∀ p, p = 2 * d.val ∨ p = 2 * d.val + 1 → ∀ f ∈ (port s p).waiting, f.strand ≠ n) →
        (lnkHolds s d n = true → t.regs = s.regs ∧ t.mem = s.mem) ∧
        (lnkHolds s d n = false → reg t (lnkOff d LNK_STRAND_MISS_COUNT) = (reg s (lnkOff d LNK_STRAND_MISS_COUNT) + 1) % 2 ^ 64)))

/-- FLIT_SELECT (R371, R372, R382, R385): on a port that is UP, control leaves first when none of the last seven slots carried it; then data, the classes in turn where
both are ready; then an idle flit. A message chosen has a flit, a link credit of its class, its strand's credit if it is unicast data of this device, and
stays within the send limit of its group. Twenty-five flits are a frame. -/
def Claims.FlitSelect : Prop :=
  ∀ (p : PortId) (s : State), let x := port s p
    let taken : State → Flit → Prop := fun t g =>
      (x.frame.length < 24 → t.out = .flit p g :: s.out ∧ (port t p).frame = x.frame ++ [g]) ∧
      (24 ≤ x.frame.length → (∃ h, t.out = .frame p h :: .flit p g :: s.out) ∧ (port t p).frame = [] ∧ (port t p).txSeq = (x.txSeq + 1) % 65536 ∧
        ((x.txSeq + 1) % 65536, x.frame ++ [g]) ∈ (port t p).replayBuf)
    let due := x.control ≠ [] ∧ 7 ≤ x.slotsSinceControl
    let a := classPick s p 2
    let b := classPick s p 3
    (x.state ≠ 3 → exec (.flitSelect p) s = .next s) ∧
    (x.state = 3 → due → ∃ t g, exec (.flitSelect p) s = .next t ∧ OnlyParts [.regs, .ports, .groups, .out] s t ∧ taken t g ∧ g.cls = 1 ∧
      controlMessages g = (x.control.take 8).map (· % 2 ^ 256) ∧ (port t p).control = x.control.drop 8 ∧ (port t p).slotsSinceControl = 0 ∧
      (port t p).sending = x.sending ∧ reg t (portOff p LNK_CTRL_FLIT_COUNT) = (reg s (portOff p LNK_CTRL_FLIT_COUNT) + 1) % 2 ^ 64) ∧
    (x.state = 3 → ¬ due → a = none → b = none → ∃ t g, exec (.flitSelect p) s = .next t ∧ OnlyParts [.ports, .groups, .out] s t ∧ taken t g ∧ g.cls = 0 ∧
      (port t p).slotsSinceControl = x.slotsSinceControl + 1 ∧ (port t p).sending = x.sending ∧ (port t p).control = x.control) ∧
    let picked : SentMsg → Prop := fun m => a = some m ∧ b = none ∨ b = some m ∧ a = none ∨ a = some m ∧ b ≠ none ∧ x.lastClass ≠ 2 ∨ b = some m ∧ a ≠ none ∧ x.lastClass = 2
    (∀ m, x.state = 3 → ¬ due → picked m → (m.posted = true ∧ m.mcast = true → m.lead = false) →
      ∃ t g rest, exec (.flitSelect p) s = .next t ∧ m.flits = g :: rest ∧ taken t g ∧ (port t p).lastClass = m.cls ∧ (port t p).slotsSinceControl = x.slotsSinceControl + 1 ∧
        (port t p).control = x.control ∧ reg t (portOff p LNK_TX_BYTES) = (reg s (portOff p LNK_TX_BYTES) + 8 * (g.valid8.val + 1)) % 2 ^ 64 ∧
        (m.cls = 2 → (port t p).creditBulk + 1 = x.creditBulk ∧ (port t p).creditCbulk = x.creditCbulk) ∧
        (m.cls = 3 → (port t p).creditCbulk + 1 = x.creditCbulk ∧ (port t p).creditBulk = x.creditBulk) ∧
        (m.posted = true → m.mcast = false → m.kind ≠ 4 → ∀ y, strand s m.strand = some y → strand t m.strand = some { y with txCredit := y.txCredit - 1 }) ∧
        OnlyParts [.regs, .hst, .ports, .groups, .out] s t ∧
        (rest = [] → m.whole = true → m.posted = true → ∃ m' ∈ (port t p).sent, m'.seq = m.seq ∧ m'.strand = m.strand ∧ m'.flits = [])) ∧
    (∀ m, x.state = 3 → ¬ due → picked m → m.posted = true → m.mcast = true → m.lead = true → ∃ t g rest v u, exec (.flitSelect p) s = .next t ∧ m.flits = g :: rest ∧
      OnlyParts [.regs, .ports, .groups] s v ∧ reg v (portOff p LNK_TX_BYTES) = (reg s (portOff p LNK_TX_BYTES) + 8 * (g.valid8.val + 1)) % 2 ^ 64 ∧
      (m.cls = 2 → (port v p).creditBulk + 1 = x.creditBulk ∧ (port v p).creditCbulk = x.creditCbulk) ∧
      (m.cls = 3 → (port v p).creditCbulk + 1 = x.creditCbulk ∧ (port v p).creditBulk = x.creditBulk) ∧
      u = each (if g.first then (flitWords g).drop 4 else flitWords g).zipIdx v (fun v w =>
        (linkWrite v (88 + p.val / 2) m.strand (bits (groupWord v m.rcv 1) 47 0 + (m.off + 8 * w.2) % 2 ^ 20) (leBytes 8 w.1)).1) ∧
      OnlyParts [.regs, .ports, .groups, .out] u t ∧ (port t p).lastClass = m.cls ∧ (port t p).slotsSinceControl = (port u p).slotsSinceControl + 1 ∧
      (port t p).control = (port u p).control ∧ ((port u p).frame.length < 24 → t.out = .flit p g :: u.out)) ∧
    (∀ cls m, classPick s p cls = some m → m ∈ x.sending ∧ m.cls = cls ∧ m.flits ≠ [] ∧ 0 < (if cls = 2 then x.creditBulk else x.creditCbulk) ∧
      (m.posted = true → m.mcast = false → m.kind ≠ 4 → ∃ y, strand s m.strand = some y ∧ y.txCredit ≠ 0) ∧
      (m.posted = true → m.mcast = true → ∀ g rest, m.flits = g :: rest → m.off + payloadBytes g ≤ slowest s m.rcv + 2 ^ 20))

/-- Frames and flits of the Limund link (R370 to R372, R374, R376, R377, R380, R382 to R385). -/
def Obligations.LimundFrames : Prop := Claims.Frames ∧ Claims.FlitsThatArrive ∧ Claims.StrandEntryFill ∧ Claims.FlitSelect

/-- LNK_SEND_POST and CREDIT (R374, R378, R379, R382, R384, R390): what does not translate, or a strand that may not send, ends the task that posts; a unicast message
takes the strand's next number and its flits join its bound port, or wait where no port is UP, or are delivered
here where its peer is a strand of this device; KIND 3 toward a DX8 peer, and a group with such a port, end with
LINK_CLASS_UNSUPPORTED; a group's message joins each port of FWD_PORTS once. The order of the first two checks is the model's (log entry 27). -/
def Obligations.LimundSends : Prop :=
  (∀ (d : LnkDie) (task : Option SlotId) (desc : List Word) (s : State), let w := desc.map (·.toNat)
    let n := bits (word w 5) 17 0
    let va := bits (word w 4) 47 0
    let k := bits (word w 1) 31 0 / 8
    let ends : Nat → Prop := fun st => exec (.lnkSendPost d task desc) s = .next (match task with | some j => endTask s j st (88 + d) none false | none => s)
    let h := [putBits (word w 0) 33 22 (ownDev s), word w 1, word w 2, word w 3]
    let data := (readWords s n va k).getD []
    let flits := fun (cls : Nat) (mc : Bool) (dst rcv seq : Nat) => mkFlits cls mc dst rcv seq (h ++ data)
    let cls := if mKind w = 3 then 3 else 2
    (lnkHolds s d n = true ∨ strandLive s n = false) →
      ((∃ i, i < k ∧ ∀ a, translate s n (va + 8 * i) false ≠ .ok a) → ∃ e, ends e) ∧
      ((∀ i, i < k → ∃ a, translate s n (va + 8 * i) false = .ok a) →
        (linkOk s n = false → ends stStrandInvalid) ∧
        (∀ y, linkOk s n = true → strand s n = some y →
          let fits : Nat → Prop := fun p => (y.port = some p ∧ (port s p).state ≠ 0) ∨ ((∀ q, y.port = some q → (port s q).state = 0) ∧ upPort s n = some p)
          let group := bits (strandWord s n 4) 11 0
          (bit (strandWord s n 4) 12 = false → peerDev s n ≠ ownDev s → ∀ p, fits p → (mKind w ≠ 3 ∨ (port s p).dx8 = false) → ∃ t m,
            exec (.lnkSendPost d task desc) s = .next t ∧ OnlyParts [.hst, .ports, .posted] s t ∧ (port t p).sending = (port s p).sending ++ [m] ∧ (∀ q, q ≠ p → port t q = port s q) ∧
            strand t n = some { y with txSeq := (y.txSeq + 1) % 65536, port := some p } ∧ m.strand = n ∧ m.cls = cls ∧ m.kind = mKind w ∧ m.seq = y.txSeq ∧ m.dst = peerDev s n ∧
            m.rcv = peerStrand s n ∧ m.flits = flits cls false (peerDev s n) (peerStrand s n) y.txSeq ∧ m.doneEn = bit (word w 5) 32 ∧ m.doneCore = bits (word w 5) 23 18 ∧
            m.doneMarker = bits (word w 5) 31 24 ∧ (∀ j, task = some j → t.posted = s.posted ++ [(n, y.txSeq, j.val, mKind w)]) ∧ (task = none → t.posted = s.posted)) ∧
          (bit (strandWord s n 4) 12 = false → peerDev s n ≠ ownDev s → (∀ p, ¬ fits p) → ∃ t m, exec (.lnkSendPost d task desc) s = .next t ∧
            OnlyParts [.hst, .unsent, .posted] s t ∧ t.unsent = s.unsent ++ [m] ∧ m.strand = n ∧ m.since = now s ∧ m.flits = flits cls false (peerDev s n) (peerStrand s n) y.txSeq) ∧
          (bit (strandWord s n 4) 12 = false → peerDev s n ≠ ownDev s → ∀ p, fits p → mKind w = 3 → (port s p).dx8 = true → ∃ t, exec (.lnkSendPost d task desc) s = .next t ∧
            t.ports = s.ports ∧ t.unsent = s.unsent ∧ ∀ j, task = some j → (slotOf s j).busy = true → (slotOf s j).ending = false → (slotOf s j).written = false →
              (slotOf t j).ending = true ∧ (slotOf t j).status = stLinkClassUnsupported) ∧
          (bit (strandWord s n 4) 12 = false → peerDev s n = ownDev s → ∃ u, OnlyParts [.hst, .posted] s u ∧ strand u n = some { y with txSeq := (y.txSeq + 1) % 65536 } ∧
            let v := deliverHere u (88 + d) (peerStrand s n) y.txSeq h data
            exec (.lnkSendPost d task desc) s = .next (if bit (word w 5) 32 then countMarker v (bits (word w 5) 23 18) (bits (word w 5) 31 24) else v)) ∧
          (bit (strandWord s n 4) 12 = true → (∃ p ∈ groupPorts s group, (port s p).dx8 = true) → ends stLinkClassUnsupported) ∧
          (bit (strandWord s n 4) 12 = true → (∀ p ∈ groupPorts s group, (port s p).dx8 = false) → ∃ t, exec (.lnkSendPost d task desc) s = .next t ∧
            OnlyParts [.hst, .ports, .groups, .posted] s t ∧ (∀ p, p ∉ groupPorts s group → port t p = port s p) ∧
            ∀ p ∈ groupPorts s group, ∃ m, (port t p).sending = (port s p).sending ++ [m] ∧ m.mcast = true ∧ m.rcv = group ∧ m.flits = flits cls true (ownDev s) group y.txSeq)))) ∧
  (∀ (p : PortId) (dst : BitVec 12) (n : StrandId) (flits : BitVec 16) (s : State),
    (dst.toNat ≠ ownDev s → exec (.credit p dst n flits) s = .next s) ∧ (strand s n = none → exec (.credit p dst n flits) s = .next s) ∧
    (∀ y, dst.toNat = ownDev s → strand s n = some y → ∃ t, exec (.credit p dst n flits) s = .next t ∧ OnlyParts [.hst] s t ∧
      strand t n = some { y with txCredit := min 65535 (y.txCredit + flits.toNat) } ∧ ∀ m, m ≠ n.val → strand t m = strand s m))

/-- Multicast (R385 to R387): an acknowledgement moves its member's offset, and joins a detached member that has reached the retained buffer; the slowest member is
detached when the limit has held for the time of 0x5030:02 and every other attached member has everything; the member writes its gap record, raises an event
and asks for what it misses; the source answers from the retained buffer, else from BACKING_VA, else with LOST; LOST marks the record, and a queue target's
marker takes the messages. -/
def Claims.Multicast : Prop :=
  (∀ (grp member : BitVec 12) (offset : Word) (s : State), let g := grp.toNat
    let busy : Prop := ∃ q ∈ s.ports, ∃ m ∈ q.2.sending, m.posted = true ∧ m.mcast = true ∧ m.rcv = g ∧ m.started = true
    ∃ t, exec (.mcastAck grp member offset) s = .next t ∧ OnlyParts [.groups] s t ∧ (∀ h, h ≠ g → group t h = group s h) ∧
      (∀ y ∈ (group s g).members, y.dev ≠ member.toNat → y ∈ (group t g).members) ∧
      (∀ y ∈ (group s g).members, y.dev = member.toNat → ∃ z ∈ (group t g).members, z.dev = y.dev ∧ z.acked = max y.acked offset.toNat ∧
        (y.attached = true → z.attached = true) ∧ (y.attached = false → offset.toNat < slowest s g → z.attached = false ∧ z.joining = false) ∧
        (y.attached = false → slowest s g ≤ offset.toNat → (busy → z.attached = false ∧ z.joining = true) ∧ (¬ busy → z.attached = true))) ∧
      ((∀ y ∈ (group s g).members, y.dev ≠ member.toNat) → ∃ z ∈ (group t g).members, z.dev = member.toNat ∧ z.acked = offset.toNat ∧ z.attached = true) ∧
      ((group s g).sent < slowest t g + 2 ^ 20 → (group t g).limitSince = none)) ∧
  (∀ (grp : BitVec 12) (s : State), let g := grp.toNat
    let x := group s g
    let att := x.members.filter (·.attached)
    (x.limitSince = none → exec (.detachTimeout grp) s = .next s) ∧
    (∀ a, x.limitSince = some a → now s - a < objNat s 0x503002 * 1000 → exec (.detachTimeout grp) s = .next s) ∧
    ((∀ m ∈ att, m.acked = slowest s g → x.sent ≤ m.acked) → exec (.detachTimeout grp) s = .next s) ∧
    (att.length ≤ 1 → exec (.detachTimeout grp) s = .next s) ∧
    (∀ a m, x.limitSince = some a → objNat s 0x503002 * 1000 ≤ now s - a → att.find? (fun m => m.acked == slowest s g && decide (m.acked < x.sent)) = some m →
      ((∃ y ∈ att, y.dev ≠ m.dev ∧ y.acked ≠ x.sent) → exec (.detachTimeout grp) s = .next s) ∧
      ((∀ y ∈ att, y.dev = m.dev ∨ y.acked = x.sent) → 1 < att.length → ∃ t, exec (.detachTimeout grp) s = .next t ∧ OnlyParts [.regs, .ports, .groups] s t ∧
        (routePort s m.dev < 16 → (port t (routePort s m.dev)).control = (port s (routePort s m.dev)).control ++ [control 7 m.dev (ownDev s) (g + m.acked * 2 ^ 12)]) ∧
        reg t (lnkOff x.die LNK_MCAST_DETACH_COUNT) = (reg s (lnkOff x.die LNK_MCAST_DETACH_COUNT) + 1) % 2 ^ 64 ∧ (group t g).limitSince = none ∧
        (∀ y ∈ (group t g).members, y.dev = m.dev → y.attached = false) ∧ ∀ y ∈ x.members, y.dev ≠ m.dev → y ∈ (group t g).members))) ∧
  (∀ (p : PortId) (src grp : BitVec 12) (from_ : Word) (s : State), let g := grp.toNat
    let d := p.val / 2
    let k := tget 0 s.gapNext d
    let hi := max (group s g).newest from_.toNat
    ∃ t, exec (.detach p src grp from_) s = .next t ∧ OnlyParts [.regs, .ports, .groups, .gapNext, .net] s t ∧ tget 0 t.gapNext d = (k + 1) % 16 ∧
      reg t (gapOff d k 0) = g + groupStrand s g * 2 ^ 12 ∧ reg t (gapOff d k 1) = from_.toNat ∧ reg t (gapOff d k 2) = hi % 2 ^ 64 ∧ reg t (gapOff d k 3) = now s % 2 ^ 64 ∧
      (group t g).detached = true ∧ (group t g).gap = some (d, k) ∧ (group t g).accepted = from_.toNat ∧ SentEvent s t (88 + d) 0x706 1 [g, from_.toNat, hi] ∧
      (routePort s src.toNat < 16 → (port t (routePort s src.toNat)).control = (port s (routePort s src.toNat)).control ++
        [control 8 src.toNat (ownDev s) (g + from_.toNat * 2 ^ 12 + hi % 2 ^ 64 * 2 ^ 76)])) ∧
  (∀ (p : PortId) (grp member : BitVec 12) (from_ to_ : Word) (s : State), let g := grp.toNat
    let x := group s g
    let lo := from_.toNat
    let hi := min to_.toNat x.sent
    let backing := bits (groupWord s g 2) 47 0
    let retain := bits (groupWord s g 1) 47 0
    let q := routePort s member.toNat
    let sends : (Nat → Nat) → Prop := fun va => ∀ y, strand s x.strand = some y → ∃ t m, exec (.recover p grp member from_ to_) s = .next t ∧ OnlyParts [.regs, .hst, .ports] s t ∧
      (port t q).sending = (port s q).sending ++ [m] ∧ m.kind = 4 ∧ m.cls = 2 ∧ m.dst = member.toNat ∧ m.strand = x.strand ∧
      m.flits = mkFlits 2 false member.toNat (peerStrand s x.strand) y.txSeq ([4 + ownDev s * 2 ^ 22, hi - lo, 0, lo] ++
        (List.range ((hi - lo) / 8)).map (fun i => match translate s x.strand (va (lo + 8 * i)) false with | .ok a => rd64 s a | .err _ => 0)) ∧
      strand t x.strand = some { y with txSeq := (y.txSeq + 1) % 65536 } ∧
      reg t (lnkOff x.die LNK_RECOVER_BYTES) = (reg s (lnkOff x.die LNK_RECOVER_BYTES) + (hi - lo)) % 2 ^ 64
    (hi ≤ lo → exec (.recover p grp member from_ to_) s = .next s) ∧
    (lo < hi → q < 16 → (∀ a ∈ x.starts, a ≤ lo ∨ hi ≤ a) →
      (slowest s g ≤ lo → sends (fun o => retain + o % 2 ^ 20)) ∧ (hi ≤ slowest s g → backing ≠ 0 → sends (fun o => backing + o))) ∧
    (lo < hi → q < 16 → hi ≤ slowest s g → backing = 0 → ∃ t, exec (.recover p grp member from_ to_) s = .next t ∧ OnlyParts [.regs, .ports] s t ∧
      (port t q).control = (port s q).control ++
        [control 10 member.toNat (ownDev s) (g + lo * 2 ^ 12 + hi * 2 ^ 76 + (x.starts.filter (fun a => decide (lo ≤ a ∧ a < hi))).length % 65536 * 2 ^ 140)] ∧
      (port t q).sending = (port s q).sending ∧ reg t (lnkOff x.die LNK_LOST_BYTES) = (reg s (lnkOff x.die LNK_LOST_BYTES) + (hi - lo)) % 2 ^ 64)) ∧
  (∀ (p : PortId) (grp : BitVec 12) (from_ to_ : Word) (msgs : BitVec 16) (s : State), let g := grp.toNat
    let x := group s g
    let q := mTgt x.hdr
    ∃ t, exec (.lost p grp from_ to_ msgs) s = .next t ∧ OnlyParts [.regs, .mem, .cores, .queues, .ports, .groups] s t ∧
      ((mKind x.hdr ≠ 1 ∨ (queue s q).marker = none ∨ (∃ m0, (queue s q).marker = some m0 ∧ m0.count + msgs.toNat ≤ 65535)) → OnlyParts [.regs, .queues, .ports, .groups] s t) ∧
      (group t g).partly = true ∧ (group t g).accepted = to_.toNat ∧
      (∀ d k, x.gap = some (d, k) → bits (reg t (gapOff d k 0)) 31 30 = 2) ∧
      (routePort s x.srcDev < 16 → control 6 x.srcDev (ownDev s) (g + to_.toNat * 2 ^ 12) ∈ (port t (routePort s x.srcDev)).control) ∧
      (mKind x.hdr ≠ 1 → t.queues = s.queues) ∧
      (mKind x.hdr = 1 → ∃ m, (queue t q).marker = some m ∧ m.tLast = now s ∧
        ((queue s q).marker = none → m.first = (queue s q).seqNext ∧ m.count = msgs.toNat) ∧
        (∀ m0, (queue s q).marker = some m0 →
          (m0.count + msgs.toNat ≤ 65535 → m.first = m0.first ∧ m.count = m0.count + msgs.toNat) ∧
          (65535 < m0.count + msgs.toNat → m.first = (queue s q).seqNext ∧ m.count = msgs.toNat))))

/-- In-transit merging (R388 to R390): OPEN activates a context with empty inputs; the engine waits for an input that has neither an entry nor its end; else it takes the
lowest index, sums its entries in input order with the addition of R72, and emits the sum unless DROP_ZERO leaves it out; when all inputs have ended the
output ends with END and the context is done; a faulted context's output ends without it. The context that the next hop's message names is a free value (log
entry 28). -/
def Claims.MergeContexts : Prop :=
  (∀ (d : LnkDie) (x : Fin 8) (value : Word) (s : State), let v := value.toNat
    ∃ t, exec (.mergeContextOpen d x value) s = .next t ∧ OnlyParts [.regs, .merges] s t ∧ (∀ off, off ≠ mergeOff d x 0 → reg t off = reg s off) ∧
      bits (reg t (mergeOff d x 0)) 5 2 = bits v 5 2 ∧ bits (reg t (mergeOff d x 0)) 27 10 = bits v 27 10 ∧ bit (reg t (mergeOff d x 0)) 6 = false ∧
      (bit v 6 = true → mergeState t d x = 1 ∧ merge t d x = {} ∧ ∀ d' x', d' * 8 + x' ≠ d.val * 8 + x.val → merge t d' x' = merge s d' x') ∧
      (bit v 6 = false → mergeState t d x = mergeState s d x ∧ t.merges = s.merges)) ∧
  (∀ (d : LnkDie) (x : Fin 8) (s : State), let c := merge s d x
    let st := mergeState s d x
    let word0 := reg s (mergeOff d x 0)
    let ins := (List.range (mergeInputs s d x)).map (fun i => c.inputs.getD i ({} : MergeIn))
    let runs : State → Prop := fun t => exec (.mergeEntryEmit d x) s = .next t
    let posts : State → Bool → Prop := fun u final => ∃ v, runs (postMsg u (88 + d) (bits word0 27 10)
      [3 + v % 2048 * 2 ^ 10 + b2n final * 2 ^ 21, 8 * c.out.length, ((c.out.head?).map (·.1)).getD 0, 0]
      (c.out.map (fun e => (e.1 - ((c.out.head?).map (·.1)).getD 0) % 2 ^ 32 + e.2.toNat * 2 ^ 32)) none 0)
    (st ≠ 1 → st ≠ 3 → runs s) ∧ (st = 3 → c.out = [] → runs s) ∧
    (st = 3 → c.out ≠ [] → ∃ u, OnlyParts [.merges, .freeIdx] s u ∧ merge u d x = { c with out := [] } ∧ posts u false) ∧
    (st = 1 → (∃ i ∈ ins, i.entries = [] ∧ i.ended = false) → runs s) ∧
    (st = 1 → (∀ i ∈ ins, i.entries = [] ∧ i.ended = true) →
      (bit word0 4 = true → ∃ t, runs t ∧ OnlyParts [.regs] s t ∧ mergeState t d x = 2) ∧
      (bit word0 4 = false → ∃ u, OnlyParts [.regs, .merges, .freeIdx] s u ∧ mergeState u d x = 2 ∧ merge u d x = { c with out := [] } ∧ posts u true)) ∧
    (∀ idx, st = 1 → (∀ i ∈ ins, i.entries ≠ [] ∨ i.ended = true) → (∃ i ∈ ins, ∃ v, i.entries.head? = some (idx, v)) → (∀ i ∈ ins, ∀ e, i.entries.head? = some e → idx ≤ e.1) →
      let vs := ins.filterMap (fun i => match i.entries.head? with | some e => if e.1 = idx then some e.2 else none | none => none)
      let sum := (vs.drop 1).foldl addF32 (vs.headD 0)
      let rest := c.inputs.map (fun i => match i.entries with | e :: l => if e.1 = idx then { i with entries := l } else i | [] => i)
      (bit word0 5 = true → isZeroF32 sum = true → ∃ t, runs t ∧ OnlyParts [.merges] s t ∧ merge t d x = { c with inputs := rest }) ∧
      (bit word0 5 = false ∨ isZeroF32 sum = false → let counted := fun u => reg u (lnkOff d LNK_MERGE_OUT_ENTRIES) = (reg s (lnkOff d LNK_MERGE_OUT_ENTRIES) + 1) % 2 ^ 64
        (bit word0 4 = true → ∃ u, OnlyParts [.regs, .merges] s u ∧ counted u ∧ merge u d x = { c with inputs := rest, outCount := c.outCount + 1 } ∧
          runs (linkWrite u (88 + d.val) (bits word0 27 10) (bits (reg s (mergeOff d x 3)) 47 0 + 8 * c.outCount) (leBytes 4 idx ++ leBytes 4 sum.toNat)).1) ∧
        (bit word0 4 = false → c.out.length < 8191 → ∃ t, runs t ∧ OnlyParts [.regs, .merges] s t ∧ counted t ∧
          merge t d x = { inputs := rest, out := c.out ++ [(idx, sum)], outCount := c.outCount + 1 }) ∧
        (bit word0 4 = false → 8191 ≤ c.out.length → ∃ u, OnlyParts [.regs, .merges, .freeIdx] s u ∧ counted u ∧
          merge u d x = { inputs := rest, out := [], outCount := c.outCount + 1 } ∧ ∃ h data, mKind h = 3 ∧ mEnd h = false ∧ data.length = c.out.length + 1 ∧
          runs (postMsg u (88 + d) (bits word0 27 10) h data none 0)))))

/-- Multicast groups (R385 to R387) and in-transit merging (R388 to R390). -/
def Obligations.MulticastAndMerge : Prop := Claims.Multicast ∧ Claims.MergeContexts
end

