-- ==== Sys2Proof/Laws/Table.lean ====
section
/-! SUPPORT. Tables and memory: what a read gives after a write, and that memory keeps its canonical form. -/

namespace Sys2Proof.Machine

theorem tget_tset {α : Type} (d : α) (t : Tab α) (k j : Nat) (v : α) :
    tget d (tset t k v) j = if k = j then v else tget d t j := by
  induction t with
  | nil => simp [tset, tget]
  | cons p t ih =>
    obtain ⟨a, w⟩ := p
    simp only [tset]
    split
    · simp [tget]
    · split
      · subst_vars; simp only [tget]; split <;> rfl
      · simp only [tget, ih]
        split
        · subst_vars; rw [if_neg (by omega)]
        · rfl

theorem tfind_tset {α : Type} (t : Tab α) (k j : Nat) (v : α) :
    tfind (tset t k v) j = if k = j then some v else tfind t j := by
  induction t with
  | nil => simp [tset, tfind]
  | cons p t ih =>
    obtain ⟨a, w⟩ := p
    simp only [tset]
    split
    · simp [tfind]
    · split
      · subst_vars
        simp only [tfind]
        split <;> simp_all
      · simp only [tfind, ih]
        split
        · split <;> simp_all
        · rfl
theorem tget_all {α : Type} (P : α → Prop) (d : α) (t : Tab α) (k : Nat) (hd : P d) (h : ∀ p ∈ t, P p.2) : P (tget d t k) := by
  induction t with
  | nil => exact hd
  | cons p t ih =>
    obtain ⟨a, w⟩ := p
    simp only [tget]
    split
    · exact h (a, w) (by simp)
    · exact ih (fun q hq => h q (by simp [hq]))

theorem mem_tset {α : Type} (t : Tab α) (k : Nat) (v : α) (p : Nat × α) (h : p ∈ tset t k v) : p = (k, v) ∨ p ∈ t := by
  induction t with
  | nil => simpa [tset] using h
  | cons q t ih =>
    obtain ⟨a, w⟩ := q
    simp only [tset] at h
    split at h
    · simpa [or_assoc] using h
    · split at h
      · rename_i e; subst e; simp at h ⊢; tauto
      · simp at h ⊢; rcases h with h | h
        · tauto
        · rcases ih h with h | h <;> tauto

/-- A byte read after a byte write. -/
theorem mread_mwrite (m : Mem) (k j : Nat) (v : Byte) (h : ∃ lo, memWfFrom lo m = true) :
    mread (mwrite m k v) j = if k = j then v else mread m j := by
  obtain ⟨lo, h⟩ := h
  induction m generalizing lo with
  | nil => simp only [mwrite]; split <;> simp_all [mread]
  | cons p t ih =>
    obtain ⟨a, w⟩ := p
    simp only [memWfFrom, Bool.and_eq_true, decide_eq_true_eq] at h
    obtain ⟨⟨h1, h2⟩, h3⟩ := h
    have below : ∀ (t : Mem) (lo : Nat), memWfFrom lo t = true → ∀ j, j < lo → mread t j = memDefault := by
      intro t
      induction t with
      | nil => intros; rfl
      | cons q t ih2 =>
        obtain ⟨b, x⟩ := q
        intro lo hw j hj
        simp only [memWfFrom, Bool.and_eq_true, decide_eq_true_eq] at hw
        simp only [mread]
        rw [if_neg (by omega)]
        exact ih2 _ hw.2 j (by omega)
    simp only [mwrite]
    split
    · split
      · by_cases e : k = j
        · subst e; simp only [mread, if_pos rfl]; rw [if_neg (by omega), below t _ h3 k (by omega)]; simp_all
        · simp only [if_neg e]
      · simp only [mread]
    · split
      · rename_i e; subst e
        split
        · by_cases e : k = j
          · subst e; rw [if_pos rfl, below t _ h3 k (by omega)]; simp_all
          · simp only [mread, if_neg e]
        · simp only [mread]; split <;> rfl
      · simp only [mread, ih _ h3]
        split
        · subst_vars; rw [if_neg (by omega)]
        · rfl

theorem memWfFrom_mono (m : Mem) (lo lo' : Nat) (h : lo' ≤ lo) (w : memWfFrom lo m = true) : memWfFrom lo' m = true := by
  cases m with
  | nil => rfl
  | cons p t => obtain ⟨a, v⟩ := p; simp only [memWfFrom, Bool.and_eq_true, decide_eq_true_eq] at w ⊢; exact ⟨⟨by omega, w.1.2⟩, w.2⟩

theorem mwrite_wfFrom (m : Mem) (k lo : Nat) (v : Byte) (hk : lo ≤ k) (h : memWfFrom lo m = true) : memWfFrom lo (mwrite m k v) = true := by
  induction m generalizing lo with
  | nil => simp only [mwrite]; split <;> simp_all [memWfFrom]
  | cons p t ih =>
    obtain ⟨a, w⟩ := p
    have h' := h
    simp only [memWfFrom, Bool.and_eq_true, decide_eq_true_eq] at h
    simp only [mwrite]
    split
    · split
      · exact h'
      · simp only [memWfFrom, Bool.and_eq_true, decide_eq_true_eq]
        exact ⟨⟨hk, by simp_all⟩, ⟨⟨by omega, h.1.2⟩, h.2⟩⟩
    · split
      · split
        · exact memWfFrom_mono _ _ _ (by omega) h.2
        · simp only [memWfFrom, Bool.and_eq_true, decide_eq_true_eq]; exact ⟨⟨h.1.1, by simp_all⟩, h.2⟩
      · simp only [memWfFrom, Bool.and_eq_true, decide_eq_true_eq]
        exact ⟨h.1, ih _ (by omega) h.2⟩

/-- A byte write keeps memory canonical. -/
theorem mwrite_wf (m : Mem) (k : Nat) (v : Byte) (h : memWf m = true) : memWf (mwrite m k v) = true :=
  mwrite_wfFrom m k 0 v (Nat.zero_le _) h

/-- A run of byte writes keeps memory canonical. -/
theorem mwriteN_wf (l : List Byte) (m : Mem) (k : Nat) (h : memWf m = true) : memWf (mwriteN m k l) = true := by
  induction l generalizing m k with
  | nil => exact h
  | cons b bs ih => exact ih _ _ (mwrite_wf m k b h)

theorem filter_wfFrom (p : Host.Cell → Bool) (m : Mem) (lo : Nat) (h : memWfFrom lo m = true) : memWfFrom lo (m.filter p) = true := by
  induction m generalizing lo with
  | nil => rfl
  | cons q t ih =>
    obtain ⟨a, v⟩ := q
    simp only [memWfFrom, Bool.and_eq_true, decide_eq_true_eq] at h
    rw [List.filter_cons]
    split
    · simp only [memWfFrom, Bool.and_eq_true, decide_eq_true_eq]; exact ⟨h.1, ih _ h.2⟩
    · exact memWfFrom_mono _ _ _ (by omega) (ih _ h.2)

/-- Losing contents keeps memory canonical. -/
theorem filter_wf (p : Host.Cell → Bool) (m : Mem) (h : memWf m = true) : memWf (m.filter p) = true := filter_wfFrom p m 0 h

/-- Bytes outside a run of writes read as before. -/
theorem mread_mwriteN (l : List Byte) (m : Mem) (k j : Nat) (h : memWf m = true) (hj : j < k ∨ k + l.length ≤ j) :
    mread (mwriteN m k l) j = mread m j := by
  induction l generalizing m k with
  | nil => rfl
  | cons b bs ih =>
    simp only [List.length_cons] at hj
    simp only [mwriteN]
    rw [ih _ _ (mwrite_wf m k b h) (by omega), mread_mwrite _ _ _ _ ⟨0, h⟩, if_neg (by omega)]

/-- Byte i of a run of writes. -/
theorem mread_mwriteN_at (l : List Byte) (m : Mem) (k i : Nat) (h : memWf m = true) (hi : i < l.length) :
    mread (mwriteN m k l) (k + i) = l[i] := by
  induction l generalizing m k i with
  | nil => simp at hi
  | cons b bs ih =>
    simp only [mwriteN]
    cases i with
    | zero =>
      rw [mread_mwriteN bs _ _ _ (mwrite_wf m k b h) (by omega), mread_mwrite _ _ _ _ ⟨0, h⟩]
      simp
    | succ i =>
      have := ih (mwrite m k b) (k + 1) i (mwrite_wf m k b h) (by simpa using hi)
      rw [show k + (i + 1) = k + 1 + i by omega, this]; simp

end Sys2Proof.Machine
end

