-- ==== Sys2Proof/Laws/Within.lean ====
section
/-! SUPPORT. What an operation can do to the state, said once: `Within m s t` holds where t comes from s by changes of the parts in the
mask m alone; registers change by 64-bit writes and resets, memory by byte writes and by the loss of contents, the list of what left the
module by growing, the number of the next free value by rising; REFTIME goes back only with bit 36; what a package loses for good stays
lost; and the queue of waiting commands never changes. The Laws/Within files show it
for every operation and every command. -/

namespace Sys2Proof.Machine

/-- What no command undoes of the package: the cores enabled at grading, the cores fenced, the routers fenced, the connections down. -/
def PkgGrows (p q : Package) : Prop := q.enabled = p.enabled ∧ p.fenced ||| q.fenced = q.fenced ∧ p.routersFenced <+: q.routersFenced
  ∧ p.connDown <+: q.connDown
theorem PkgGrows.refl (p : Package) : PkgGrows p p := ⟨rfl, Nat.or_self _, List.prefix_rfl, List.prefix_rfl⟩
theorem PkgGrows.trans {p q r : Package} (a : PkgGrows p q) (b : PkgGrows q r) : PkgGrows p r :=
  ⟨b.1.trans a.1, by rw [← b.2.1, ← a.2.1]; simp [← Nat.or_assoc], a.2.2.1.trans b.2.2.1, a.2.2.2.trans b.2.2.2⟩

/-- t comes from s by changes of the parts in m. Bit k of m stands for field k of State. -/
inductive Within (m : Nat) (s : State) : State → Prop
  | refl : Within m s s
  | regWrite {t : State} (off v : Nat) (h : Within m s t) (b : Nat.testBit m 0 = true) : Within m s { t with regs := tset t.regs off (v % 2 ^ 64) }
  | regClear {t : State} (p : Nat × Nat → Bool) (h : Within m s t) (b : Nat.testBit m 0 = true) : Within m s { t with regs := t.regs.filter p }
  | memWrite {t : State} (a : Nat) (l : List Byte) (h : Within m s t) (b : Nat.testBit m 1 = true) : Within m s { t with mem := mwriteN t.mem a l }
  | memClear {t : State} (p : Host.Cell → Bool) (h : Within m s t) (b : Nat.testBit m 1 = true) : Within m s { t with mem := t.mem.filter p }
  | clock {t : State} {v : _} (h : Within m s t) (b : Nat.testBit m 2 = true) (g : t.clock.reftime ≤ v.reftime) : Within m s { t with clock := v }
  | clockBack {t : State} {v : _} (h : Within m s t) (b : Nat.testBit m 2 = true) (b2 : Nat.testBit m 36 = true) : Within m s { t with clock := v }
  | pkg {t : State} {v : _} (h : Within m s t) (b : Nat.testBit m 3 = true) (g : PkgGrows t.pkg v) : Within m s { t with pkg := v }
  | cores {t : State} {v : _} (h : Within m s t) (b : Nat.testBit m 4 = true) : Within m s { t with cores := v }
  | counters {t : State} {v : _} (h : Within m s t) (b : Nat.testBit m 5 = true) : Within m s { t with counters := v }
  | queues {t : State} {v : _} (h : Within m s t) (b : Nat.testBit m 6 = true) : Within m s { t with queues := v }
  | hst {t : State} {v : _} (h : Within m s t) (b : Nat.testBit m 7 = true) : Within m s { t with hst := v }
  | cache {t : State} {v : _} (h : Within m s t) (b : Nat.testBit m 8 = true) : Within m s { t with cache := v }
  | mifs {t : State} {v : _} (h : Within m s t) (b : Nat.testBit m 9 = true) : Within m s { t with mifs := v }
  | fars {t : State} {v : _} (h : Within m s t) (b : Nat.testBit m 10 = true) : Within m s { t with fars := v }
  | ports {t : State} {v : _} (h : Within m s t) (b : Nat.testBit m 11 = true) : Within m s { t with ports := v }
  | groups {t : State} {v : _} (h : Within m s t) (b : Nat.testBit m 12 = true) : Within m s { t with groups := v }
  | merges {t : State} {v : _} (h : Within m s t) (b : Nat.testBit m 13 = true) : Within m s { t with merges := v }
  | gapNext {t : State} {v : _} (h : Within m s t) (b : Nat.testBit m 14 = true) : Within m s { t with gapNext := v }
  | linkPost {t : State} {v : _} (h : Within m s t) (b : Nat.testBit m 15 = true) : Within m s { t with linkPost := v }
  | lnkCache {t : State} {v : _} (h : Within m s t) (b : Nat.testBit m 16 = true) : Within m s { t with lnkCache := v }
  | unsent {t : State} {v : _} (h : Within m s t) (b : Nat.testBit m 17 = true) : Within m s { t with unsent := v }
  | posted {t : State} {v : _} (h : Within m s t) (b : Nat.testBit m 18 = true) : Within m s { t with posted := v }
  | lifelines {t : State} {v : _} (h : Within m s t) (b : Nat.testBit m 19 = true) : Within m s { t with lifelines := v }
  | llResult {t : State} {v : _} (h : Within m s t) (b : Nat.testBit m 20 = true) : Within m s { t with llResult := v }
  | llStatus {t : State} {v : _} (h : Within m s t) (b : Nat.testBit m 21 = true) : Within m s { t with llStatus := v }
  | drawSkews {t : State} {v : _} (h : Within m s t) (b : Nat.testBit m 22 = true) : Within m s { t with drawSkews := v }
  | correlatedArms {t : State} {v : _} (h : Within m s t) (b : Nat.testBit m 23 = true) : Within m s { t with correlatedArms := v }
  | divergenceEvents {t : State} {v : _} (h : Within m s t) (b : Nat.testBit m 24 = true) : Within m s { t with divergenceEvents := v }
  | power {t : State} {v : _} (h : Within m s t) (b : Nat.testBit m 25 = true) : Within m s { t with power := v }
  | saves {t : State} {v : _} (h : Within m s t) (b : Nat.testBit m 26 = true) : Within m s { t with saves := v }
  | wear {t : State} {v : _} (h : Within m s t) (b : Nat.testBit m 27 = true) : Within m s { t with wear := v }
  | dict {t : State} {v : _} (h : Within m s t) (b : Nat.testBit m 28 = true) : Within m s { t with dict := v }
  | bg {t : State} {v : _} (h : Within m s t) (b : Nat.testBit m 29 = true) : Within m s { t with bg := v }
  | sat {t : State} {v : _} (h : Within m s t) (b : Nat.testBit m 30 = true) : Within m s { t with sat := v }
  | sec {t : State} {v : _} (h : Within m s t) (b : Nat.testBit m 31 = true) : Within m s { t with sec := v }
  | net {t : State} {v : _} (h : Within m s t) (b : Nat.testBit m 32 = true) : Within m s { t with net := v }
  | out {t : State} (x : Out) (h : Within m s t) (b : Nat.testBit m 33 = true) : Within m s { t with out := x :: t.out }
  | freeIdx {t : State} (h : Within m s t) (b : Nat.testBit m 34 = true) : Within m s { t with freeIdx := t.freeIdx + 1 }

/-- Every part of a lies in m. -/
abbrev Sub (a m : Nat) : Prop := Nat.land a m = a
theorem Sub.up {a b m : Nat} (k : Sub b m) (h : Sub a b) : Sub a m := by
  have e : a &&& b = a := h
  have e' : b &&& m = b := k
  show a &&& m = a
  rw [← e, Nat.land_assoc, e']
theorem Sub.has {a m k : Nat} (hm : Sub a m) (h : Nat.testBit a k = true) : Nat.testBit m k = true := by
  have e : a &&& m = a := hm
  rw [← e, Nat.testBit_and] at h
  simp_all

namespace Within

theorem ite {m : Nat} {s a b : State} {c : Prop} [Decidable c] (ha : Within m s a) (hb : Within m s b) : Within m s (if c then a else b) := by
  split <;> assumption

theorem memRange {m : Nat} {s t : State} (lo hi : Nat) (h : Within m s t) (b : Nat.testBit m 1 = true) :
    Within m s { t with mem := mclear t.mem lo hi } := .memClear _ h b
theorem regNone {m : Nat} {s t : State} (h : Within m s t) (b : Nat.testBit m 0 = true) : Within m s { t with regs := [] } := by
  simpa using Within.regClear (fun _ => false) h b
theorem ite2 {m : Nat} {s : State} {α : Type} {a b : α × State} {c : Prop} [Decidable c] (ha : Within m s a.2) (hb : Within m s b.2) :
    Within m s (if c then a else b).2 := by
  split <;> assumption
theorem ite1 {m : Nat} {s : State} {α : Type} {a b : State × α} {c : Prop} [Decidable c] (ha : Within m s a.1) (hb : Within m s b.1) :
    Within m s (if c then a else b).1 := by
  split <;> assumption
theorem mk2 {m : Nat} {s x : State} {α : Type} {v : α} (h : Within m s x) : Within m s (v, x).2 := h
theorem mk1 {m : Nat} {s x : State} {α : Type} {v : α} (h : Within m s x) : Within m s (x, v).1 := h

/-- The state of a pair, an option or an answer that stands for a state. -/
theorem snd {m : Nat} {s u : State} {α : Type} {p : α × State} {v : α} (e : p = (v, u)) (h : Within m s p.2) : Within m s u := by
  rw [e] at h; exact h
theorem fst {m : Nat} {s u : State} {α : Type} {p : State × α} {v : α} (e : p = (u, v)) (h : Within m s p.1) : Within m s u := by
  rw [e] at h; exact h
theorem fst2 {m : Nat} {s u : State} {α β : Type} {p : State × α × β} {v : α} {w : β} (e : p = (u, v, w)) (h : Within m s p.1) : Within m s u := by
  rw [e] at h; exact h
theorem fold {m : Nat} {s0 : State} {α : Type} {l : List α} {s : State} {f : State → α → State}
    (hf : ∀ t x, Within m s0 t → Within m s0 (f t x)) (h : Within m s0 s) : Within m s0 (l.foldl f s) := by
  induction l generalizing s with
  | nil => exact h
  | cons x l ih => exact ih (hf s x h)
/-- A fold whose accumulator carries the state beside other data. -/
theorem fold1 {m : Nat} {s0 : State} {α β : Type} {l : List α} {s : State × β} {f : State × β → α → State × β}
    (hf : ∀ t x, Within m s0 t.1 → Within m s0 (f t x).1) (h : Within m s0 s.1) : Within m s0 (l.foldl f s).1 := by
  induction l generalizing s with
  | nil => exact h
  | cons x l ih => exact ih (hf s x h)
theorem fold2 {m : Nat} {s0 : State} {α β : Type} {l : List α} {s : β × State} {f : β × State → α → β × State}
    (hf : ∀ t x, Within m s0 t.2 → Within m s0 (f t x).2) (h : Within m s0 s.2) : Within m s0 (l.foldl f s).2 := by
  induction l generalizing s with
  | nil => exact h
  | cons x l ih => exact ih (hf s x h)

theorem trans {m : Nat} {s t u : State} (h : Within m s t) (k : Within m t u) : Within m s u := by
  induction k with
  | refl => exact h
  | regWrite off v _ b ih => exact .regWrite off v ih b
  | regClear p _ b ih => exact .regClear p ih b
  | memWrite a l _ b ih => exact .memWrite a l ih b
  | memClear p _ b ih => exact .memClear p ih b
  | out x _ b ih => exact .out x ih b
  | freeIdx _ b ih => exact .freeIdx ih b
  | clock _ b g ih => exact .clock ih b g
  | clockBack _ b b2 ih => exact .clockBack ih b b2
  | pkg _ b g ih => exact .pkg ih b g
  | _ _ b ih => constructor <;> assumption

theorem up {a m : Nat} {s t : State} (k : Within a s t) (hM : Sub a m) : Within m s t := by
  induction k with
  | refl => exact .refl
  | regWrite off v _ b ih => exact .regWrite off v ih (Sub.has hM b)
  | regClear p _ b ih => exact .regClear p ih (Sub.has hM b)
  | memWrite a l _ b ih => exact .memWrite a l ih (Sub.has hM b)
  | memClear p _ b ih => exact .memClear p ih (Sub.has hM b)
  | out x _ b ih => exact .out x ih (Sub.has hM b)
  | freeIdx _ b ih => exact .freeIdx ih (Sub.has hM b)
  | clock _ b g ih => exact .clock ih (Sub.has hM b) g
  | clockBack _ b b2 ih => exact .clockBack ih (Sub.has hM b) (Sub.has hM b2)
  | pkg _ b g ih => exact .pkg ih (Sub.has hM b) g
  | _ _ b ih => constructor <;> first | assumption | exact Sub.has hM b

/-- The memory the state began with, put back. -/
theorem memBack {m : Nat} {s t : State} (h : Within m s t) : Within m s { t with mem := s.mem } := by
  induction h with
  | refl => exact .refl
  | regWrite off v _ b ih => exact .regWrite off v ih b
  | regClear p _ b ih => exact .regClear p ih b
  | memWrite a l _ b ih => exact ih
  | memClear p _ b ih => exact ih
  | out x _ b ih => exact .out x ih b
  | freeIdx _ b ih => exact .freeIdx ih b
  | clock _ b g ih => exact .clock ih b g
  | clockBack _ b b2 ih => exact .clockBack ih b b2
  | pkg _ b g ih => exact .pkg ih b g
  | cores _ b ih => exact .cores ih b
  | counters _ b ih => exact .counters ih b
  | queues _ b ih => exact .queues ih b
  | hst _ b ih => exact .hst ih b
  | cache _ b ih => exact .cache ih b
  | mifs _ b ih => exact .mifs ih b
  | fars _ b ih => exact .fars ih b
  | ports _ b ih => exact .ports ih b
  | groups _ b ih => exact .groups ih b
  | merges _ b ih => exact .merges ih b
  | gapNext _ b ih => exact .gapNext ih b
  | linkPost _ b ih => exact .linkPost ih b
  | lnkCache _ b ih => exact .lnkCache ih b
  | unsent _ b ih => exact .unsent ih b
  | posted _ b ih => exact .posted ih b
  | lifelines _ b ih => exact .lifelines ih b
  | llResult _ b ih => exact .llResult ih b
  | llStatus _ b ih => exact .llStatus ih b
  | drawSkews _ b ih => exact .drawSkews ih b
  | correlatedArms _ b ih => exact .correlatedArms ih b
  | divergenceEvents _ b ih => exact .divergenceEvents ih b
  | power _ b ih => exact .power ih b
  | saves _ b ih => exact .saves ih b
  | wear _ b ih => exact .wear ih b
  | dict _ b ih => exact .dict ih b
  | bg _ b ih => exact .bg ih b
  | sat _ b ih => exact .sat ih b
  | sec _ b ih => exact .sec ih b
  | net _ b ih => exact .net ih b

/-- The memory of one state that s reaches, put into another one that s reaches. -/
theorem memOf {m : Nat} {s t r : State} (h : Within m s t) (k : Within m s r) (b : Nat.testBit m 1 = true) : Within m s { t with mem := r.mem } := by
  induction k with
  | refl => exact memBack h
  | memWrite a l _ _ ih => exact .memWrite a l ih b
  | memClear p _ _ ih => exact .memClear p ih b
  | _ => assumption

end Within


namespace Within

/-! Updates of several parts at once. -/

theorem setHstLnkCache {m : Nat} {s t : State} {v0 v1 : _} (h : Within m s t) (b0 : Nat.testBit m 7 = true) (b1 : Nat.testBit m 16 = true) :
    Within m s { t with hst := v0, lnkCache := v1 } := Within.lnkCache (t := { t with hst := v0 }) (v := v1) (Within.hst (t := t) (v := v0) h b0) b1
theorem setHstPostedCache {m : Nat} {s t : State} {v0 v1 v2 : _} (h : Within m s t) (b0 : Nat.testBit m 7 = true) (b1 : Nat.testBit m 18 = true) (b2 : Nat.testBit m 8 = true) :
    Within m s { t with hst := v0, posted := v1, cache := v2 } := Within.cache (t := { t with hst := v0, posted := v1 }) (v := v2) (Within.posted (t := { t with hst := v0 }) (v := v1) (Within.hst (t := t) (v := v0) h b0) b1) b2
theorem setDictSec {m : Nat} {s t : State} {v0 v1 : _} (h : Within m s t) (b0 : Nat.testBit m 28 = true) (b1 : Nat.testBit m 31 = true) :
    Within m s { t with dict := v0, sec := v1 } := Within.sec (t := { t with dict := v0 }) (v := v1) (Within.dict (t := t) (v := v0) h b0) b1
theorem setPowerBg {m : Nat} {s t : State} {v0 v1 : _} (h : Within m s t) (b0 : Nat.testBit m 25 = true) (b1 : Nat.testBit m 29 = true) :
    Within m s { t with power := v0, bg := v1 } := Within.bg (t := { t with power := v0 }) (v := v1) (Within.power (t := t) (v := v0) h b0) b1
theorem setHstPower {m : Nat} {s t : State} {v0 v1 : _} (h : Within m s t) (b0 : Nat.testBit m 7 = true) (b1 : Nat.testBit m 25 = true) :
    Within m s { t with hst := v0, power := v1 } := Within.power (t := { t with hst := v0 }) (v := v1) (Within.hst (t := t) (v := v0) h b0) b1
theorem setPowerSaves {m : Nat} {s t : State} {v0 v1 : _} (h : Within m s t) (b0 : Nat.testBit m 25 = true) (b1 : Nat.testBit m 26 = true) :
    Within m s { t with power := v0, saves := v1 } := Within.saves (t := { t with power := v0 }) (v := v1) (Within.power (t := t) (v := v0) h b0) b1
theorem setSatCache {m : Nat} {s t : State} {v0 v1 : _} (h : Within m s t) (b0 : Nat.testBit m 30 = true) (b1 : Nat.testBit m 8 = true) :
    Within m s { t with sat := v0, cache := v1 } := Within.cache (t := { t with sat := v0 }) (v := v1) (Within.sat (t := t) (v := v0) h b0) b1
theorem setClockPower {m : Nat} {s t : State} {v0 v1 : _} (h : Within m s t) (b0 : Nat.testBit m 2 = true) (g0 : t.clock.reftime ≤ v0.reftime) (b1 : Nat.testBit m 25 = true) :
    Within m s { t with clock := v0, power := v1 } := Within.power (t := { t with clock := v0 }) (v := v1) (Within.clock (t := t) (v := v0) h b0 g0) b1
theorem setLlResultLlStatus {m : Nat} {s t : State} {v0 v1 : _} (h : Within m s t) (b0 : Nat.testBit m 20 = true) (b1 : Nat.testBit m 21 = true) :
    Within m s { t with llResult := v0, llStatus := v1 } := Within.llStatus (t := { t with llResult := v0 }) (v := v1) (Within.llResult (t := t) (v := v0) h b0) b1
theorem setClockBackPowerSec {m : Nat} {s t : State} {v0 v1 v2 : _} (h : Within m s t) (b0 : Nat.testBit m 2 = true) (g0 : Nat.testBit m 36 = true) (b1 : Nat.testBit m 25 = true) (b2 : Nat.testBit m 31 = true) :
    Within m s { t with clock := v0, power := v1, sec := v2 } := Within.sec (t := { t with clock := v0, power := v1 }) (v := v2) (Within.power (t := { t with clock := v0 }) (v := v1) (Within.clockBack (t := t) (v := v0) h b0 g0) b1) b2
theorem setPowerSec {m : Nat} {s t : State} {v0 v1 : _} (h : Within m s t) (b0 : Nat.testBit m 25 = true) (b1 : Nat.testBit m 31 = true) :
    Within m s { t with power := v0, sec := v1 } := Within.sec (t := { t with power := v0 }) (v := v1) (Within.power (t := t) (v := v0) h b0) b1
theorem setMany11 {m : Nat} {s t : State} {v0 v1 v2 v3 v4 v5 v6 v7 v8 v9 v10 : _} (h : Within m s t) (b0 : Nat.testBit m 2 = true) (g0 : Nat.testBit m 36 = true) (b1 : Nat.testBit m 28 = true) (b2 : Nat.testBit m 29 = true) (b3 : Nat.testBit m 30 = true) (b4 : Nat.testBit m 20 = true) (b5 : Nat.testBit m 21 = true) (b6 : Nat.testBit m 22 = true) (b7 : Nat.testBit m 23 = true) (b8 : Nat.testBit m 24 = true) (b9 : Nat.testBit m 25 = true) (b10 : Nat.testBit m 31 = true) :
    Within m s { t with clock := v0, dict := v1, bg := v2, sat := v3, llResult := v4, llStatus := v5, drawSkews := v6, correlatedArms := v7, divergenceEvents := v8, power := v9, sec := v10 } := Within.sec (t := { t with clock := v0, dict := v1, bg := v2, sat := v3, llResult := v4, llStatus := v5, drawSkews := v6, correlatedArms := v7, divergenceEvents := v8, power := v9 }) (v := v10) (Within.power (t := { t with clock := v0, dict := v1, bg := v2, sat := v3, llResult := v4, llStatus := v5, drawSkews := v6, correlatedArms := v7, divergenceEvents := v8 }) (v := v9) (Within.divergenceEvents (t := { t with clock := v0, dict := v1, bg := v2, sat := v3, llResult := v4, llStatus := v5, drawSkews := v6, correlatedArms := v7 }) (v := v8) (Within.correlatedArms (t := { t with clock := v0, dict := v1, bg := v2, sat := v3, llResult := v4, llStatus := v5, drawSkews := v6 }) (v := v7) (Within.drawSkews (t := { t with clock := v0, dict := v1, bg := v2, sat := v3, llResult := v4, llStatus := v5 }) (v := v6) (Within.llStatus (t := { t with clock := v0, dict := v1, bg := v2, sat := v3, llResult := v4 }) (v := v5) (Within.llResult (t := { t with clock := v0, dict := v1, bg := v2, sat := v3 }) (v := v4) (Within.sat (t := { t with clock := v0, dict := v1, bg := v2 }) (v := v3) (Within.bg (t := { t with clock := v0, dict := v1 }) (v := v2) (Within.dict (t := { t with clock := v0 }) (v := v1) (Within.clockBack (t := t) (v := v0) h b0 g0) b1) b2) b3) b4) b5) b6) b7) b8) b9) b10
theorem setMany20 {m : Nat} {s t : State} {v0 v1 v2 v3 v4 v5 v6 v7 v8 v9 v10 v11 v12 v13 v14 v15 v16 v17 v18 v19 : _} (h : Within m s t) (b0 : Nat.testBit m 2 = true) (g0 : t.clock.reftime ≤ v0.reftime) (b1 : Nat.testBit m 3 = true) (g1 : PkgGrows t.pkg v1) (b2 : Nat.testBit m 4 = true) (b3 : Nat.testBit m 5 = true) (b4 : Nat.testBit m 6 = true) (b5 : Nat.testBit m 7 = true) (b6 : Nat.testBit m 8 = true) (b7 : Nat.testBit m 9 = true) (b8 : Nat.testBit m 10 = true) (b9 : Nat.testBit m 11 = true) (b10 : Nat.testBit m 12 = true) (b11 : Nat.testBit m 13 = true) (b12 : Nat.testBit m 14 = true) (b13 : Nat.testBit m 15 = true) (b14 : Nat.testBit m 16 = true) (b15 : Nat.testBit m 17 = true) (b16 : Nat.testBit m 18 = true) (b17 : Nat.testBit m 19 = true) (b18 : Nat.testBit m 25 = true) (b19 : Nat.testBit m 32 = true) :
    Within m s { t with clock := v0, pkg := v1, cores := v2, counters := v3, queues := v4, hst := v5, cache := v6, mifs := v7, fars := v8, ports := v9, groups := v10, merges := v11, gapNext := v12, linkPost := v13, lnkCache := v14, unsent := v15, posted := v16, lifelines := v17, power := v18, net := v19 } := Within.net (t := { t with clock := v0, pkg := v1, cores := v2, counters := v3, queues := v4, hst := v5, cache := v6, mifs := v7, fars := v8, ports := v9, groups := v10, merges := v11, gapNext := v12, linkPost := v13, lnkCache := v14, unsent := v15, posted := v16, lifelines := v17, power := v18 }) (v := v19) (Within.power (t := { t with clock := v0, pkg := v1, cores := v2, counters := v3, queues := v4, hst := v5, cache := v6, mifs := v7, fars := v8, ports := v9, groups := v10, merges := v11, gapNext := v12, linkPost := v13, lnkCache := v14, unsent := v15, posted := v16, lifelines := v17 }) (v := v18) (Within.lifelines (t := { t with clock := v0, pkg := v1, cores := v2, counters := v3, queues := v4, hst := v5, cache := v6, mifs := v7, fars := v8, ports := v9, groups := v10, merges := v11, gapNext := v12, linkPost := v13, lnkCache := v14, unsent := v15, posted := v16 }) (v := v17) (Within.posted (t := { t with clock := v0, pkg := v1, cores := v2, counters := v3, queues := v4, hst := v5, cache := v6, mifs := v7, fars := v8, ports := v9, groups := v10, merges := v11, gapNext := v12, linkPost := v13, lnkCache := v14, unsent := v15 }) (v := v16) (Within.unsent (t := { t with clock := v0, pkg := v1, cores := v2, counters := v3, queues := v4, hst := v5, cache := v6, mifs := v7, fars := v8, ports := v9, groups := v10, merges := v11, gapNext := v12, linkPost := v13, lnkCache := v14 }) (v := v15) (Within.lnkCache (t := { t with clock := v0, pkg := v1, cores := v2, counters := v3, queues := v4, hst := v5, cache := v6, mifs := v7, fars := v8, ports := v9, groups := v10, merges := v11, gapNext := v12, linkPost := v13 }) (v := v14) (Within.linkPost (t := { t with clock := v0, pkg := v1, cores := v2, counters := v3, queues := v4, hst := v5, cache := v6, mifs := v7, fars := v8, ports := v9, groups := v10, merges := v11, gapNext := v12 }) (v := v13) (Within.gapNext (t := { t with clock := v0, pkg := v1, cores := v2, counters := v3, queues := v4, hst := v5, cache := v6, mifs := v7, fars := v8, ports := v9, groups := v10, merges := v11 }) (v := v12) (Within.merges (t := { t with clock := v0, pkg := v1, cores := v2, counters := v3, queues := v4, hst := v5, cache := v6, mifs := v7, fars := v8, ports := v9, groups := v10 }) (v := v11) (Within.groups (t := { t with clock := v0, pkg := v1, cores := v2, counters := v3, queues := v4, hst := v5, cache := v6, mifs := v7, fars := v8, ports := v9 }) (v := v10) (Within.ports (t := { t with clock := v0, pkg := v1, cores := v2, counters := v3, queues := v4, hst := v5, cache := v6, mifs := v7, fars := v8 }) (v := v9) (Within.fars (t := { t with clock := v0, pkg := v1, cores := v2, counters := v3, queues := v4, hst := v5, cache := v6, mifs := v7 }) (v := v8) (Within.mifs (t := { t with clock := v0, pkg := v1, cores := v2, counters := v3, queues := v4, hst := v5, cache := v6 }) (v := v7) (Within.cache (t := { t with clock := v0, pkg := v1, cores := v2, counters := v3, queues := v4, hst := v5 }) (v := v6) (Within.hst (t := { t with clock := v0, pkg := v1, cores := v2, counters := v3, queues := v4 }) (v := v5) (Within.queues (t := { t with clock := v0, pkg := v1, cores := v2, counters := v3 }) (v := v4) (Within.counters (t := { t with clock := v0, pkg := v1, cores := v2 }) (v := v3) (Within.cores (t := { t with clock := v0, pkg := v1 }) (v := v2) (Within.pkg (t := { t with clock := v0 }) (v := v1) (Within.clock (t := t) (v := v0) h b0 g0) b1 g1) b2) b3) b4) b5) b6) b7) b8) b9) b10) b11) b12) b13) b14) b15) b16) b17) b18) b19

end Within

end Sys2Proof.Machine
end

