-- ==== Sys2Proof/Laws/WithinOps.lean ====
section
/-! SUPPORT. What the operations and commands of Machine/Ops can do to the state (Laws/Within). -/

namespace Sys2Proof.Machine

theorem setReg_within {M : Nat} {s0 : State} (hM : Sub 0x1 M) (s : State) (off v : Nat) (hW : Within M s0 s) : Within M s0 (setReg s off v) := by
  unfold setReg
  repeat' first
    | with_reducible assumption
    | with_reducible refine Within.regWrite _ _ ?_ (Sub.has hM rfl)
    | with_reducible refine Within.regClear _ ?_ (Sub.has hM rfl)

theorem bump_within {M : Nat} {s0 : State} (hM : Sub 0x1 M) (s : State) (off n : Nat) (hW : Within M s0 s) : Within M s0 (bump s off n) := by
  unfold bump
  repeat' first
    | with_reducible assumption
    | with_reducible apply setReg_within (Sub.up hM rfl)

theorem clearRegs_within {M : Nat} {s0 : State} (hM : Sub 0x1 M) (s : State) (lo hi : Nat) (h : Within M s0 s) :
    Within M s0 (clearRegs s lo hi) := .regClear _ h (Sub.has hM rfl)

theorem setField_within {M : Nat} {s0 : State} (hM : Sub 0x1 M) (s : State) (off hi lo v : Nat) (hW : Within M s0 s) : Within M s0 (setField s off hi lo v) := by
  unfold setField
  repeat' first
    | with_reducible assumption
    | with_reducible apply setReg_within (Sub.up hM rfl)

theorem setCore_within {M : Nat} {s0 : State} (hM : Sub 0x10 M) (s : State) (c : Nat) (x : Core) (hW : Within M s0 s) : Within M s0 (setCore s c x) := by
  unfold setCore
  repeat' first
    | with_reducible assumption
    | with_reducible refine Within.cores ?_ (Sub.has hM rfl)

theorem updCore_within {M : Nat} {s0 : State} (hM : Sub 0x10 M) (s : State) (c : Nat) (f : Core → Core) (hW : Within M s0 s) : Within M s0 (updCore s c f) := by
  unfold updCore
  repeat' first
    | with_reducible assumption
    | with_reducible apply setCore_within (Sub.up hM rfl)

theorem bumpCore_within {M : Nat} {s0 : State} (hM : Sub 0x1 M) (s : State) (c o n : Nat) (hW : Within M s0 s) : Within M s0 (bumpCore s c o n) := by
  unfold bumpCore
  repeat' first
    | with_reducible assumption
    | with_reducible apply bump_within (Sub.up hM rfl)

theorem setSlot_within {M : Nat} {s0 : State} (hM : Sub 0x80 M) (s : State) (k : Nat) (x : Slot) (hW : Within M s0 s) : Within M s0 (setSlot s k x) := by
  unfold setSlot
  repeat' first
    | with_reducible assumption
    | with_reducible refine Within.hst ?_ (Sub.has hM rfl)

theorem updSlot_within {M : Nat} {s0 : State} (hM : Sub 0x80 M) (s : State) (k : Nat) (f : Slot → Slot) (hW : Within M s0 s) : Within M s0 (updSlot s k f) := by
  unfold updSlot
  repeat' first
    | with_reducible assumption
    | with_reducible apply setSlot_within (Sub.up hM rfl)

theorem updQueue_within {M : Nat} {s0 : State} (hM : Sub 0x40 M) (s : State) (q : Nat) (f : Queue → Queue) (hW : Within M s0 s) : Within M s0 (updQueue s q f) := by
  unfold updQueue
  repeat' first
    | with_reducible assumption
    | with_reducible refine Within.queues ?_ (Sub.has hM rfl)

theorem updCounter_within {M : Nat} {s0 : State} (hM : Sub 0x20 M) (s : State) (c : Nat) (f : RowCounter → RowCounter) (hW : Within M s0 s) : Within M s0 (updCounter s c f) := by
  unfold updCounter
  repeat' first
    | with_reducible assumption
    | with_reducible refine Within.counters ?_ (Sub.has hM rfl)

theorem updStack_within {M : Nat} {s0 : State} (hM : Sub 0x200 M) (s : State) (k : Nat) (f : Stack → Stack) (hW : Within M s0 s) : Within M s0 (updStack s k f) := by
  unfold updStack
  repeat' first
    | with_reducible assumption
    | with_reducible refine Within.mifs ?_ (Sub.has hM rfl)

theorem updFar_within {M : Nat} {s0 : State} (hM : Sub 0x400 M) (s : State) (p : Nat) (f : Far → Far) (hW : Within M s0 s) : Within M s0 (updFar s p f) := by
  unfold updFar
  repeat' first
    | with_reducible assumption
    | with_reducible refine Within.fars ?_ (Sub.has hM rfl)

theorem updPort_within {M : Nat} {s0 : State} (hM : Sub 0x800 M) (s : State) (p : Nat) (f : Port → Port) (hW : Within M s0 s) : Within M s0 (updPort s p f) := by
  unfold updPort
  repeat' first
    | with_reducible assumption
    | with_reducible refine Within.ports ?_ (Sub.has hM rfl)

theorem setStrand_within {M : Nat} {s0 : State} (hM : Sub 0x80 M) (s : State) (n : Nat) (x : Strand) (hW : Within M s0 s) : Within M s0 (setStrand s n x) := by
  unfold setStrand
  repeat' first
    | with_reducible assumption
    | with_reducible refine Within.hst ?_ (Sub.has hM rfl)

theorem updStrand_within {M : Nat} {s0 : State} (hM : Sub 0x80 M) (s : State) (n : Nat) (f : Strand → Strand) (hW : Within M s0 s) : Within M s0 (updStrand s n f) := by
  unfold updStrand
  repeat' first
    | with_reducible assumption
    | with_reducible apply setStrand_within (Sub.up hM rfl)
    | (with_reducible apply Within.snd <;> [with_reducible assumption; skip])
    | (with_reducible apply Within.fst <;> [with_reducible assumption; skip])
    | (with_reducible apply Within.fst2 <;> [with_reducible assumption; skip])
    | split

theorem updLifeline_within {M : Nat} {s0 : State} (hM : Sub 0x80000 M) (s : State) (n : Nat) (f : Lifeline → Lifeline) (hW : Within M s0 s) : Within M s0 (updLifeline s n f) := by
  unfold updLifeline
  repeat' first
    | with_reducible assumption
    | with_reducible refine Within.lifelines ?_ (Sub.has hM rfl)

theorem emit_within {M : Nat} {s0 : State} (hM : Sub 0x200000000 M) (s : State) (o : Out) (hW : Within M s0 s) : Within M s0 (emit s o) := by
  unfold emit
  repeat' first
    | with_reducible assumption
    | with_reducible refine Within.out _ ?_ (Sub.has hM rfl)

theorem each_within {M : Nat} {s0 : State} {α : Type} {l : List α} {s : State} {f : State → α → State}
    (hf : ∀ t x, Within M s0 t → Within M s0 (f t x)) (h : Within M s0 s) : Within M s0 (each l s f) := by
  unfold each
  induction l generalizing s with
  | nil => exact h
  | cons x l ih => exact ih (hf s x h)

theorem freshFree_within {M : Nat} {s0 : State} (hM : Sub 0x400000000 M) (s : State) (hW : Within M s0 s) : Within M s0 (freshFree s).2 := by
  unfold freshFree
  repeat' first
    | with_reducible assumption
    | dsimp -zeta only
    | with_reducible apply Within.ite2
    | with_reducible refine Within.freeIdx ?_ (Sub.has hM rfl)

theorem setObj_within {M : Nat} {s0 : State} (hM : Sub 0x10000000 M) (s : State) (key : Nat) (v : List Byte) (hW : Within M s0 s) : Within M s0 (setObj s key v) := by
  unfold setObj
  repeat' first
    | with_reducible assumption
    | with_reducible refine Within.dict ?_ (Sub.has hM rfl)

theorem sendChain_within {M : Nat} {s0 : State} (hM : Sub 0x100000000 M) (s : State) (src dst : Nat) (m : Msg) (hW : Within M s0 s) : Within M s0 (sendChain s src dst m) := by
  unfold sendChain
  repeat' first
    | with_reducible assumption
    | (intro x
       first
         | (have hx : Within M s0 x := by
              unfold x
              repeat' first
                | with_reducible assumption
                | dsimp -zeta only
                | with_reducible apply Within.ite1
                | with_reducible apply Within.ite2
                | with_reducible apply Within.ite
                | (with_reducible apply Within.snd <;> [with_reducible assumption; skip])
                | (with_reducible apply Within.fst <;> [with_reducible assumption; skip])
                | (with_reducible apply Within.fst2 <;> [with_reducible assumption; skip])
                | split
                | with_reducible refine Within.net ?_ (Sub.has hM rfl))
         | (have hx : Within M s0 x.1 := by
              unfold x
              repeat' first
                | with_reducible assumption
                | dsimp -zeta only
                | with_reducible apply Within.ite1
                | with_reducible apply Within.ite2
                | with_reducible apply Within.ite
                | (with_reducible apply Within.snd <;> [with_reducible assumption; skip])
                | (with_reducible apply Within.fst <;> [with_reducible assumption; skip])
                | (with_reducible apply Within.fst2 <;> [with_reducible assumption; skip])
                | split
                | with_reducible refine Within.net ?_ (Sub.has hM rfl))
         | (have hx : Within M s0 x.2 := by
              unfold x
              repeat' first
                | with_reducible assumption
                | dsimp -zeta only
                | with_reducible apply Within.ite1
                | with_reducible apply Within.ite2
                | with_reducible apply Within.ite
                | (with_reducible apply Within.snd <;> [with_reducible assumption; skip])
                | (with_reducible apply Within.fst <;> [with_reducible assumption; skip])
                | (with_reducible apply Within.fst2 <;> [with_reducible assumption; skip])
                | split
                | with_reducible refine Within.net ?_ (Sub.has hM rfl))
         | skip
       clear_value x)
    | lift_lets -underBinder
    | dsimp -zeta only
    | with_reducible apply Within.ite1
    | with_reducible apply Within.ite2
    | with_reducible apply Within.ite
    | (with_reducible apply Within.snd <;> [with_reducible assumption; skip])
    | (with_reducible apply Within.fst <;> [with_reducible assumption; skip])
    | (with_reducible apply Within.fst2 <;> [with_reducible assumption; skip])
    | split
    | with_reducible refine Within.net ?_ (Sub.has hM rfl)

theorem onChain_within {M : Nat} {s0 : State} (hM : Sub 0x100000001 M) {dst : Nat} {f : Frame} {s : State} {k : State → State}
    (hk : ∀ t, Within M s0 t → Within M s0 (k t)) (h : Within M s0 s) : Within M s0 (onChain dst f s k) := by
  unfold onChain
  dsimp only
  split
  · exact bump_within (Sub.up hM rfl) s _ _ h
  · exact hk _ (.net h (Sub.has hM rfl))

theorem sendBulk_within {M : Nat} {s0 : State} (hM : Sub 0x100000000 M) (s : State) (src dst : Nat) (type : BulkType) (tag addr due : Nat) (data : List Byte) (hW : Within M s0 s) : Within M s0 (sendBulk s src dst type tag addr due data) := by
  unfold sendBulk
  repeat' first
    | with_reducible assumption
    | (intro x
       first
         | (have hx : Within M s0 x := by
              unfold x
              repeat' first
                | with_reducible assumption
                | dsimp -zeta only
                | with_reducible apply Within.ite1
                | with_reducible apply Within.ite2
                | with_reducible apply Within.ite
                | (with_reducible apply Within.snd <;> [with_reducible assumption; skip])
                | (with_reducible apply Within.fst <;> [with_reducible assumption; skip])
                | (with_reducible apply Within.fst2 <;> [with_reducible assumption; skip])
                | split
                | with_reducible refine Within.net ?_ (Sub.has hM rfl))
         | (have hx : Within M s0 x.1 := by
              unfold x
              repeat' first
                | with_reducible assumption
                | dsimp -zeta only
                | with_reducible apply Within.ite1
                | with_reducible apply Within.ite2
                | with_reducible apply Within.ite
                | (with_reducible apply Within.snd <;> [with_reducible assumption; skip])
                | (with_reducible apply Within.fst <;> [with_reducible assumption; skip])
                | (with_reducible apply Within.fst2 <;> [with_reducible assumption; skip])
                | split
                | with_reducible refine Within.net ?_ (Sub.has hM rfl))
         | (have hx : Within M s0 x.2 := by
              unfold x
              repeat' first
                | with_reducible assumption
                | dsimp -zeta only
                | with_reducible apply Within.ite1
                | with_reducible apply Within.ite2
                | with_reducible apply Within.ite
                | (with_reducible apply Within.snd <;> [with_reducible assumption; skip])
                | (with_reducible apply Within.fst <;> [with_reducible assumption; skip])
                | (with_reducible apply Within.fst2 <;> [with_reducible assumption; skip])
                | split
                | with_reducible refine Within.net ?_ (Sub.has hM rfl))
         | skip
       clear_value x)
    | lift_lets -underBinder
    | dsimp -zeta only
    | with_reducible apply Within.ite1
    | with_reducible apply Within.ite2
    | with_reducible apply Within.ite
    | (with_reducible apply Within.snd <;> [with_reducible assumption; skip])
    | (with_reducible apply Within.fst <;> [with_reducible assumption; skip])
    | (with_reducible apply Within.fst2 <;> [with_reducible assumption; skip])
    | split
    | with_reducible refine Within.net ?_ (Sub.has hM rfl)

theorem onBulk_within {M : Nat} {s0 : State} (hM : Sub 0x100000001 M) {dst : Nat} {f : BulkTag} {s : State} {k : State → State}
    (hk : ∀ t, Within M s0 t → Within M s0 (k t)) (h : Within M s0 s) : Within M s0 (onBulk dst f s k) := by
  unfold onBulk
  dsimp only
  split
  · exact bump_within (Sub.up hM rfl) s _ _ h
  · exact hk _ (.net h (Sub.has hM rfl))

theorem sendMsix_within {M : Nat} {s0 : State} (hM : Sub 0x200000081 M) (s : State) (v : Nat) (hW : Within M s0 s) : Within M s0 (sendMsix s v) := by
  unfold sendMsix
  repeat' first
    | with_reducible assumption
    | (intro x
       first
         | (have hx : Within M s0 x := by
              unfold x
              repeat' first
                | with_reducible assumption
                | with_reducible apply Within.ite
                | with_reducible apply setReg_within (Sub.up hM rfl)
                | with_reducible apply emit_within (Sub.up hM rfl)
                | with_reducible refine Within.hst ?_ (Sub.has hM rfl))
         | skip
       clear_value x)
    | lift_lets -underBinder
    | with_reducible apply Within.ite
    | with_reducible apply setReg_within (Sub.up hM rfl)
    | with_reducible apply emit_within (Sub.up hM rfl)
    | with_reducible refine Within.hst ?_ (Sub.has hM rfl)

theorem recordEvent_within {M : Nat} {s0 : State} (hM : Sub 0x10000000 M) (s : State) (e : Event) (hW : Within M s0 s) : Within M s0 (recordEvent s e) := by
  unfold recordEvent
  repeat' first
    | with_reducible assumption
    | with_reducible refine Within.dict ?_ (Sub.has hM rfl)

theorem tellEvent_within {M : Nat} {s0 : State} (hM : Sub 0x210000081 M) (s : State) (hW : Within M s0 s) : Within M s0 (tellEvent s) := by
  unfold tellEvent
  repeat' first
    | with_reducible assumption
    | with_reducible apply Within.ite
    | with_reducible apply sendMsix_within (Sub.up hM rfl)
    | with_reducible refine Within.dict ?_ (Sub.has hM rfl)

theorem frameEvent_within {M : Nat} {s0 : State} (hM : Sub 0x210000000 M) (s : State) (seq : Nat) (e : Event) (hW : Within M s0 s) : Within M s0 (frameEvent s seq e) := by
  unfold frameEvent
  repeat' first
    | with_reducible assumption
    | with_reducible apply Within.ite
    | with_reducible apply emit_within (Sub.up hM rfl)
    | with_reducible refine Within.dict ?_ (Sub.has hM rfl)

theorem logEvent_within {M : Nat} {s0 : State} (hM : Sub 0x210000081 M) (s : State) (e : Event) (hW : Within M s0 s) : Within M s0 (logEvent s e) := by
  unfold logEvent
  repeat' first
    | with_reducible assumption
    | (intro x
       first
         | (have hx : Within M s0 x := by
              unfold x
              repeat' first
                | with_reducible assumption
                | with_reducible apply Within.ite
                | with_reducible apply recordEvent_within (Sub.up hM rfl)
                | with_reducible apply tellEvent_within (Sub.up hM rfl)
                | with_reducible apply frameEvent_within (Sub.up hM rfl))
         | skip
       clear_value x)
    | lift_lets -underBinder
    | with_reducible apply Within.ite
    | with_reducible apply recordEvent_within (Sub.up hM rfl)
    | with_reducible apply tellEvent_within (Sub.up hM rfl)
    | with_reducible apply frameEvent_within (Sub.up hM rfl)

theorem raise_within {M : Nat} {s0 : State} (hM : Sub 0x310000081 M) (s : State) (die code severity : Nat) (strandN coreN : Nat) (args : List Nat) (hW : Within M s0 s) : Within M s0 (raise s die code severity strandN coreN args) := by
  unfold raise
  repeat' first
    | with_reducible assumption
    | (intro x
       first
         | (have hx : Within M s0 x := by
              unfold x
              repeat' first
                | with_reducible assumption
                | with_reducible apply Within.ite
                | with_reducible apply sendChain_within (Sub.up hM rfl)
                | with_reducible apply logEvent_within (Sub.up hM rfl))
         | skip
       clear_value x)
    | lift_lets -underBinder
    | with_reducible apply Within.ite
    | with_reducible apply sendChain_within (Sub.up hM rfl)
    | with_reducible apply logEvent_within (Sub.up hM rfl)

theorem sendControl_within {M : Nat} {s0 : State} (hM : Sub 0x800 M) (s : State) (p m : Nat) (hW : Within M s0 s) : Within M s0 (sendControl s p m) := by
  unfold sendControl
  repeat' first
    | with_reducible assumption
    | with_reducible apply updPort_within (Sub.up hM rfl)

theorem controlTo_within {M : Nat} {s0 : State} (hM : Sub 0x800 M) (s : State) (type dst fields : Nat) (hW : Within M s0 s) : Within M s0 (controlTo s type dst fields) := by
  unfold controlTo
  repeat' first
    | with_reducible assumption
    | (intro x
       first
         | (have hx : Within M s0 x := by
              unfold x
              repeat' first
                | with_reducible assumption
                | with_reducible apply Within.ite
                | with_reducible apply sendControl_within (Sub.up hM rfl))
         | skip
       clear_value x)
    | lift_lets -underBinder
    | with_reducible apply Within.ite
    | with_reducible apply sendControl_within (Sub.up hM rfl)

theorem sendNack_within {M : Nat} {s0 : State} (hM : Sub 0x801 M) (s : State) (dst strandN seq cause : Nat) (hW : Within M s0 s) : Within M s0 (sendNack s dst strandN seq cause) := by
  unfold sendNack
  repeat' first
    | with_reducible assumption
    | (intro x
       first
         | (have hx : Within M s0 x := by
              unfold x
              repeat' first
                | with_reducible assumption
                | with_reducible apply Within.ite
                | with_reducible apply bump_within (Sub.up hM rfl)
                | with_reducible apply controlTo_within (Sub.up hM rfl))
         | skip
       clear_value x)
    | lift_lets -underBinder
    | with_reducible apply Within.ite
    | with_reducible apply bump_within (Sub.up hM rfl)
    | with_reducible apply controlTo_within (Sub.up hM rfl)

theorem sendCredit_within {M : Nat} {s0 : State} (hM : Sub 0x800 M) (s : State) (dst strandN flits : Nat) (hW : Within M s0 s) : Within M s0 (sendCredit s dst strandN flits) := by
  unfold sendCredit
  repeat' first
    | with_reducible assumption
    | with_reducible apply controlTo_within (Sub.up hM rfl)

theorem postedDrop_within {M : Nat} {s0 : State} (hM : Sub 0x310000081 M) (s : State) (status source index : Nat) (hW : Within M s0 s) : Within M s0 (postedDrop s status source index) := by
  unfold postedDrop
  repeat' first
    | with_reducible assumption
    | (intro x
       first
         | (have hx : Within M s0 x := by
              unfold x
              repeat' first
                | with_reducible assumption
                | with_reducible apply setReg_within (Sub.up hM rfl)
                | with_reducible apply bump_within (Sub.up hM rfl)
                | with_reducible apply raise_within (Sub.up hM rfl))
         | skip
       clear_value x)
    | lift_lets -underBinder
    | with_reducible apply setReg_within (Sub.up hM rfl)
    | with_reducible apply bump_within (Sub.up hM rfl)
    | with_reducible apply raise_within (Sub.up hM rfl)

theorem wrBytes_within {M : Nat} {s0 : State} (hM : Sub 0x2 M) (s : State) (a : Nat) (l : List Byte) (hW : Within M s0 s) : Within M s0 (wrBytes s a l) := by
  unfold wrBytes
  repeat' first
    | with_reducible assumption
    | with_reducible refine Within.memWrite _ _ ?_ (Sub.has hM rfl)
    | with_reducible refine Within.memRange _ _ ?_ (Sub.has hM rfl)
    | with_reducible refine Within.memWrite _ _ ?_ (Sub.has hM rfl)
    | with_reducible refine Within.memClear _ ?_ (Sub.has hM rfl)

theorem wr64_within {M : Nat} {s0 : State} (hM : Sub 0x2 M) (s : State) (a v : Nat) (hW : Within M s0 s) : Within M s0 (wr64 s a v) := by
  unfold wr64
  repeat' first
    | with_reducible assumption
    | with_reducible apply wrBytes_within (Sub.up hM rfl)

theorem writeVa_within {M : Nat} {s0 : State} (hM : Sub 0x2 M) (s : State) (n v : Nat) (l : List Byte) (h : Within M s0 s) :
    Within M s0 (writeVa s n v l) := by
  induction l generalizing s v with
  | nil => exact h
  | cons b l ih =>
    unfold writeVa
    split
    · exact ih _ _ (wrBytes_within (Sub.up hM rfl) s _ _ h)
    · exact ih _ _ h

theorem advanceTail_within {M : Nat} {s0 : State} (hM : Sub 0x1 M) (s : State) (c m r n : Nat) (hW : Within M s0 s) : Within M s0 (advanceTail s c m r n) := by
  unfold advanceTail
  repeat' first
    | with_reducible assumption
    | (intro x
       first
         | (have hx : Within M s0 x := by
              unfold x
              repeat' first
                | with_reducible assumption
                | with_reducible apply setReg_within (Sub.up hM rfl))
         | skip
       clear_value x)
    | lift_lets -underBinder
    | with_reducible apply setReg_within (Sub.up hM rfl)

theorem advanceHead_within {M : Nat} {s0 : State} (hM : Sub 0x1 M) (s : State) (c m r n : Nat) (hW : Within M s0 s) : Within M s0 (advanceHead s c m r n) := by
  unfold advanceHead
  repeat' first
    | with_reducible assumption
    | (intro x
       first
         | (have hx : Within M s0 x := by
              unfold x
              repeat' first
                | with_reducible assumption
                | with_reducible apply setReg_within (Sub.up hM rfl))
         | skip
       clear_value x)
    | lift_lets -underBinder
    | with_reducible apply setReg_within (Sub.up hM rfl)

theorem checkWait_within {M : Nat} {s0 : State} (hM : Sub 0x100000010 M) (s : State) (c : Nat) (hW : Within M s0 s) : Within M s0 (checkWait s c) := by
  unfold checkWait
  repeat' first
    | with_reducible assumption
    | (intro x
       first
         | (have hx : Within M s0 x := by
              unfold x
              repeat' first
                | with_reducible assumption
                | with_reducible apply Within.ite
                | with_reducible apply updCore_within (Sub.up hM rfl)
                | with_reducible apply sendChain_within (Sub.up hM rfl)
                | with_reducible refine each_within (fun _ _ _ => ?_) ?_)
         | skip
       clear_value x)
    | lift_lets -underBinder
    | with_reducible apply Within.ite
    | with_reducible apply updCore_within (Sub.up hM rfl)
    | with_reducible apply sendChain_within (Sub.up hM rfl)
    | with_reducible refine each_within (fun _ _ _ => ?_) ?_

theorem countMarker_within {M : Nat} {s0 : State} (hM : Sub 0x100000011 M) (s : State) (c k : Nat) (hW : Within M s0 s) : Within M s0 (countMarker s c k) := by
  unfold countMarker
  repeat' first
    | with_reducible assumption
    | with_reducible apply setReg_within (Sub.up hM rfl)
    | with_reducible apply checkWait_within (Sub.up hM rfl)

theorem countRegion_within {M : Nat} {s0 : State} (hM : Sub 0x100000011 M) (s : State) (c m r : Nat) (hW : Within M s0 s) : Within M s0 (countRegion s c m r) := by
  unfold countRegion
  repeat' first
    | with_reducible assumption
    | with_reducible apply countMarker_within (Sub.up hM rfl)
    | (with_reducible apply Within.snd <;> [with_reducible assumption; skip])
    | (with_reducible apply Within.fst <;> [with_reducible assumption; skip])
    | (with_reducible apply Within.fst2 <;> [with_reducible assumption; skip])
    | split

theorem writeRow_within {M : Nat} {s0 : State} (hM : Sub 0x12 M) (s : State) (c m r : Nat) (data : List Byte) (hW : Within M s0 s) : Within M s0 (writeRow s c m r data) := by
  unfold writeRow
  repeat' first
    | with_reducible assumption
    | with_reducible apply updCore_within (Sub.up hM rfl)
    | with_reducible apply wrBytes_within (Sub.up hM rfl)

theorem loseHomes_within {M : Nat} {s0 : State} (hM : Sub 0x310000081 M) (s : State) (c m row : Nat) (hW : Within M s0 s) : Within M s0 (loseHomes s c m row) := by
  unfold loseHomes
  repeat' first
    | with_reducible assumption
    | with_reducible apply Within.ite
    | with_reducible apply setField_within (Sub.up hM rfl)
    | with_reducible apply raise_within (Sub.up hM rfl)
    | with_reducible refine each_within (fun _ _ _ => ?_) ?_

theorem openWindow_within {M : Nat} {s0 : State} (hM : Sub 0x100000011 M) (s : State) (c w : Nat) (hW : Within M s0 s) : Within M s0 (openWindow s c w) := by
  unfold openWindow
  repeat' first
    | with_reducible assumption
    | (intro x
       first
         | (have hx : Within M s0 x := by
              unfold x
              repeat' first
                | with_reducible assumption
                | dsimp -zeta only
                | with_reducible apply Within.ite1
                | with_reducible apply Within.ite2
                | with_reducible apply Within.ite
                | with_reducible apply setReg_within (Sub.up hM rfl)
                | with_reducible apply setField_within (Sub.up hM rfl)
                | with_reducible apply updCore_within (Sub.up hM rfl)
                | with_reducible apply checkWait_within (Sub.up hM rfl)
                | (with_reducible apply Within.snd <;> [with_reducible assumption; skip])
                | (with_reducible apply Within.fst <;> [with_reducible assumption; skip])
                | (with_reducible apply Within.fst2 <;> [with_reducible assumption; skip])
                | split)
         | (have hx : Within M s0 x.1 := by
              unfold x
              repeat' first
                | with_reducible assumption
                | dsimp -zeta only
                | with_reducible apply Within.ite1
                | with_reducible apply Within.ite2
                | with_reducible apply Within.ite
                | with_reducible apply setReg_within (Sub.up hM rfl)
                | with_reducible apply setField_within (Sub.up hM rfl)
                | with_reducible apply updCore_within (Sub.up hM rfl)
                | with_reducible apply checkWait_within (Sub.up hM rfl)
                | (with_reducible apply Within.snd <;> [with_reducible assumption; skip])
                | (with_reducible apply Within.fst <;> [with_reducible assumption; skip])
                | (with_reducible apply Within.fst2 <;> [with_reducible assumption; skip])
                | split)
         | (have hx : Within M s0 x.2 := by
              unfold x
              repeat' first
                | with_reducible assumption
                | dsimp -zeta only
                | with_reducible apply Within.ite1
                | with_reducible apply Within.ite2
                | with_reducible apply Within.ite
                | with_reducible apply setReg_within (Sub.up hM rfl)
                | with_reducible apply setField_within (Sub.up hM rfl)
                | with_reducible apply updCore_within (Sub.up hM rfl)
                | with_reducible apply checkWait_within (Sub.up hM rfl)
                | (with_reducible apply Within.snd <;> [with_reducible assumption; skip])
                | (with_reducible apply Within.fst <;> [with_reducible assumption; skip])
                | (with_reducible apply Within.fst2 <;> [with_reducible assumption; skip])
                | split)
         | skip
       clear_value x)
    | lift_lets -underBinder
    | dsimp -zeta only
    | with_reducible apply Within.ite1
    | with_reducible apply Within.ite2
    | with_reducible apply Within.ite
    | with_reducible apply setReg_within (Sub.up hM rfl)
    | with_reducible apply setField_within (Sub.up hM rfl)
    | with_reducible apply updCore_within (Sub.up hM rfl)
    | with_reducible apply checkWait_within (Sub.up hM rfl)
    | (with_reducible apply Within.snd <;> [with_reducible assumption; skip])
    | (with_reducible apply Within.fst <;> [with_reducible assumption; skip])
    | (with_reducible apply Within.fst2 <;> [with_reducible assumption; skip])
    | split

theorem closeWindow_within {M : Nat} {s0 : State} (hM : Sub 0x1 M) (s : State) (c w : Nat) (hW : Within M s0 s) : Within M s0 (closeWindow s c w) := by
  unfold closeWindow
  repeat' first
    | with_reducible assumption
    | with_reducible apply Within.ite
    | with_reducible apply setField_within (Sub.up hM rfl)

end Sys2Proof.Machine
end

