-- ==== Sys2Proof/Laws/WithinTaskOps.lean ====
section
/-! SUPPORT. What the operations and commands of Machine/TaskOps can do to the state (Laws/Within). -/

namespace Sys2Proof.Machine

theorem gbDrop_within {M : Nat} {s0 : State} (hM : Sub 0x10 M) (s : State) (c m r : Nat) (hW : Within M s0 s) : Within M s0 (gbDrop s c m r) := by
  unfold gbDrop
  repeat' first
    | with_reducible assumption
    | with_reducible apply updCore_within (Sub.up hM rfl)

theorem gbMark_within {M : Nat} {s0 : State} (hM : Sub 0x100000011 M) (s : State) (c : Nat) (g : GbRow) (hW : Within M s0 s) : Within M s0 (gbMark s c g) := by
  unfold gbMark
  repeat' first
    | with_reducible assumption
    | with_reducible apply countMarker_within (Sub.up hM rfl)
    | (with_reducible apply Within.snd <;> [with_reducible assumption; skip])
    | (with_reducible apply Within.fst <;> [with_reducible assumption; skip])
    | (with_reducible apply Within.fst2 <;> [with_reducible assumption; skip])
    | split

theorem gbStore_within {M : Nat} {s0 : State} (hM : Sub 0x2 M) (s : State) (c : Nat) (g : GbRow) (hW : Within M s0 s) : Within M s0 (gbStore s c g) := by
  unfold gbStore
  repeat' first
    | with_reducible assumption
    | with_reducible apply wrBytes_within (Sub.up hM rfl)
    | with_reducible refine Within.fold (fun _ _ _ => ?_) ?_
    | with_reducible refine Within.fold1 (fun _ _ _ => ?_) ?_
    | with_reducible refine Within.fold2 (fun _ _ _ => ?_) ?_

theorem flushGb_within {M : Nat} {s0 : State} (hM : Sub 0x310000093 M) (s : State) (c : Nat) (fails : Bool) (g : GbRow) (hW : Within M s0 s) : Within M s0 (flushGb s c fails g) := by
  unfold flushGb
  repeat' first
    | with_reducible assumption
    | (intro x
       first
         | (have hx : Within M s0 x := by
              unfold x
              repeat' first
                | with_reducible assumption
                | dsimp -zeta only
                | with_reducible apply Within.ite1
                | with_reducible apply Within.ite2
                | with_reducible apply Within.ite
                | with_reducible apply updCore_within (Sub.up hM rfl)
                | with_reducible apply bumpCore_within (Sub.up hM rfl)
                | with_reducible apply raise_within (Sub.up hM rfl)
                | with_reducible apply loseHomes_within (Sub.up hM rfl)
                | with_reducible apply gbDrop_within (Sub.up hM rfl)
                | with_reducible apply gbMark_within (Sub.up hM rfl)
                | with_reducible apply gbStore_within (Sub.up hM rfl)
                | (with_reducible apply Within.snd <;> [with_reducible assumption; skip])
                | (with_reducible apply Within.fst <;> [with_reducible assumption; skip])
                | (with_reducible apply Within.fst2 <;> [with_reducible assumption; skip])
                | split)
         | (have hx : Within M s0 x.1 := by
              unfold x
              repeat' first
                | with_reducible assumption
                | dsimp -zeta only
                | with_reducible apply Within.ite1
                | with_reducible apply Within.ite2
                | with_reducible apply Within.ite
                | with_reducible apply updCore_within (Sub.up hM rfl)
                | with_reducible apply bumpCore_within (Sub.up hM rfl)
                | with_reducible apply raise_within (Sub.up hM rfl)
                | with_reducible apply loseHomes_within (Sub.up hM rfl)
                | with_reducible apply gbDrop_within (Sub.up hM rfl)
                | with_reducible apply gbMark_within (Sub.up hM rfl)
                | with_reducible apply gbStore_within (Sub.up hM rfl)
                | (with_reducible apply Within.snd <;> [with_reducible assumption; skip])
                | (with_reducible apply Within.fst <;> [with_reducible assumption; skip])
                | (with_reducible apply Within.fst2 <;> [with_reducible assumption; skip])
                | split)
         | (have hx : Within M s0 x.2 := by
              unfold x
              repeat' first
                | with_reducible assumption
                | dsimp -zeta only
                | with_reducible apply Within.ite1
                | with_reducible apply Within.ite2
                | with_reducible apply Within.ite
                | with_reducible apply updCore_within (Sub.up hM rfl)
                | with_reducible apply bumpCore_within (Sub.up hM rfl)
                | with_reducible apply raise_within (Sub.up hM rfl)
                | with_reducible apply loseHomes_within (Sub.up hM rfl)
                | with_reducible apply gbDrop_within (Sub.up hM rfl)
                | with_reducible apply gbMark_within (Sub.up hM rfl)
                | with_reducible apply gbStore_within (Sub.up hM rfl)
                | (with_reducible apply Within.snd <;> [with_reducible assumption; skip])
                | (with_reducible apply Within.fst <;> [with_reducible assumption; skip])
                | (with_reducible apply Within.fst2 <;> [with_reducible assumption; skip])
                | split)
         | skip
       clear_value x)
    | lift_lets -underBinder
    | dsimp -zeta only
    | with_reducible apply Within.ite1
    | with_reducible apply Within.ite2
    | with_reducible apply Within.ite
    | with_reducible apply updCore_within (Sub.up hM rfl)
    | with_reducible apply bumpCore_within (Sub.up hM rfl)
    | with_reducible apply raise_within (Sub.up hM rfl)
    | with_reducible apply loseHomes_within (Sub.up hM rfl)
    | with_reducible apply gbDrop_within (Sub.up hM rfl)
    | with_reducible apply gbMark_within (Sub.up hM rfl)
    | with_reducible apply gbStore_within (Sub.up hM rfl)
    | (with_reducible apply Within.snd <;> [with_reducible assumption; skip])
    | (with_reducible apply Within.fst <;> [with_reducible assumption; skip])
    | (with_reducible apply Within.fst2 <;> [with_reducible assumption; skip])
    | split

theorem fullGb_within {M : Nat} {s0 : State} (hM : Sub 0x310000093 M) (s : State) (c : Nat) (g : GbRow) (hW : Within M s0 s) : Within M s0 (fullGb s c g) := by
  unfold fullGb
  repeat' first
    | with_reducible assumption
    | (intro x
       first
         | (have hx : Within M s0 x := by
              unfold x
              repeat' first
                | with_reducible assumption
                | with_reducible apply updCore_within (Sub.up hM rfl)
                | with_reducible apply bumpCore_within (Sub.up hM rfl)
                | with_reducible apply loseHomes_within (Sub.up hM rfl)
                | with_reducible apply gbDrop_within (Sub.up hM rfl)
                | with_reducible apply gbMark_within (Sub.up hM rfl)
                | with_reducible apply gbStore_within (Sub.up hM rfl))
         | skip
       clear_value x)
    | lift_lets -underBinder
    | with_reducible apply updCore_within (Sub.up hM rfl)
    | with_reducible apply bumpCore_within (Sub.up hM rfl)
    | with_reducible apply loseHomes_within (Sub.up hM rfl)
    | with_reducible apply gbDrop_within (Sub.up hM rfl)
    | with_reducible apply gbMark_within (Sub.up hM rfl)
    | with_reducible apply gbStore_within (Sub.up hM rfl)

theorem gatherCells_within {M : Nat} {s0 : State} (hM : Sub 0x310000093 M) (s : State) (c m r : Nat) (win : Option Nat) (cells : List (Nat × Byte)) (readFails : Bool) (hW : Within M s0 s) : Within M s0 (gatherCells s c m r win cells readFails) := by
  unfold gatherCells
  repeat' first
    | with_reducible assumption
    | (intro x
       first
         | (have hx : Within M s0 x := by
              unfold x
              repeat' first
                | with_reducible assumption
                | dsimp -zeta only
                | with_reducible apply Within.ite1
                | with_reducible apply Within.ite2
                | with_reducible apply Within.ite
                | with_reducible apply updCore_within (Sub.up hM rfl)
                | with_reducible apply gbDrop_within (Sub.up hM rfl)
                | with_reducible apply flushGb_within (Sub.up hM rfl)
                | with_reducible apply fullGb_within (Sub.up hM rfl)
                | with_reducible refine Within.fold (fun _ _ _ => ?_) ?_
                | with_reducible refine Within.fold1 (fun _ _ _ => ?_) ?_
                | with_reducible refine Within.fold2 (fun _ _ _ => ?_) ?_
                | (with_reducible apply Within.snd <;> [with_reducible assumption; skip])
                | (with_reducible apply Within.fst <;> [with_reducible assumption; skip])
                | (with_reducible apply Within.fst2 <;> [with_reducible assumption; skip])
                | split)
         | (have hx : Within M s0 x.1 := by
              unfold x
              repeat' first
                | with_reducible assumption
                | dsimp -zeta only
                | with_reducible apply Within.ite1
                | with_reducible apply Within.ite2
                | with_reducible apply Within.ite
                | with_reducible apply updCore_within (Sub.up hM rfl)
                | with_reducible apply gbDrop_within (Sub.up hM rfl)
                | with_reducible apply flushGb_within (Sub.up hM rfl)
                | with_reducible apply fullGb_within (Sub.up hM rfl)
                | with_reducible refine Within.fold (fun _ _ _ => ?_) ?_
                | with_reducible refine Within.fold1 (fun _ _ _ => ?_) ?_
                | with_reducible refine Within.fold2 (fun _ _ _ => ?_) ?_
                | (with_reducible apply Within.snd <;> [with_reducible assumption; skip])
                | (with_reducible apply Within.fst <;> [with_reducible assumption; skip])
                | (with_reducible apply Within.fst2 <;> [with_reducible assumption; skip])
                | split)
         | (have hx : Within M s0 x.2 := by
              unfold x
              repeat' first
                | with_reducible assumption
                | dsimp -zeta only
                | with_reducible apply Within.ite1
                | with_reducible apply Within.ite2
                | with_reducible apply Within.ite
                | with_reducible apply updCore_within (Sub.up hM rfl)
                | with_reducible apply gbDrop_within (Sub.up hM rfl)
                | with_reducible apply flushGb_within (Sub.up hM rfl)
                | with_reducible apply fullGb_within (Sub.up hM rfl)
                | with_reducible refine Within.fold (fun _ _ _ => ?_) ?_
                | with_reducible refine Within.fold1 (fun _ _ _ => ?_) ?_
                | with_reducible refine Within.fold2 (fun _ _ _ => ?_) ?_
                | (with_reducible apply Within.snd <;> [with_reducible assumption; skip])
                | (with_reducible apply Within.fst <;> [with_reducible assumption; skip])
                | (with_reducible apply Within.fst2 <;> [with_reducible assumption; skip])
                | split)
         | skip
       clear_value x)
    | lift_lets -underBinder
    | dsimp -zeta only
    | with_reducible apply Within.ite1
    | with_reducible apply Within.ite2
    | with_reducible apply Within.ite
    | with_reducible apply updCore_within (Sub.up hM rfl)
    | with_reducible apply gbDrop_within (Sub.up hM rfl)
    | with_reducible apply flushGb_within (Sub.up hM rfl)
    | with_reducible apply fullGb_within (Sub.up hM rfl)
    | with_reducible refine Within.fold (fun _ _ _ => ?_) ?_
    | with_reducible refine Within.fold1 (fun _ _ _ => ?_) ?_
    | with_reducible refine Within.fold2 (fun _ _ _ => ?_) ?_
    | (with_reducible apply Within.snd <;> [with_reducible assumption; skip])
    | (with_reducible apply Within.fst <;> [with_reducible assumption; skip])
    | (with_reducible apply Within.fst2 <;> [with_reducible assumption; skip])
    | split

theorem gatherBytes_within {M : Nat} {s0 : State} (hM : Sub 0x310000093 M) (s : State) (c m r off : Nat) (win : Option Nat) (data : List Byte) (readFails : Bool) (hW : Within M s0 s) : Within M s0 (gatherBytes s c m r off win data readFails) := by
  unfold gatherBytes
  repeat' first
    | with_reducible assumption
    | (intro x
       first
         | (have hx : Within M s0 x := by
              unfold x
              repeat' first
                | with_reducible assumption
                | dsimp -zeta only
                | with_reducible apply Within.ite1
                | with_reducible apply Within.ite2
                | with_reducible apply Within.ite
                | with_reducible apply gatherCells_within (Sub.up hM rfl)
                | (with_reducible apply Within.snd <;> [with_reducible assumption; skip])
                | (with_reducible apply Within.fst <;> [with_reducible assumption; skip])
                | (with_reducible apply Within.fst2 <;> [with_reducible assumption; skip])
                | split)
         | (have hx : Within M s0 x.1 := by
              unfold x
              repeat' first
                | with_reducible assumption
                | dsimp -zeta only
                | with_reducible apply Within.ite1
                | with_reducible apply Within.ite2
                | with_reducible apply Within.ite
                | with_reducible apply gatherCells_within (Sub.up hM rfl)
                | (with_reducible apply Within.snd <;> [with_reducible assumption; skip])
                | (with_reducible apply Within.fst <;> [with_reducible assumption; skip])
                | (with_reducible apply Within.fst2 <;> [with_reducible assumption; skip])
                | split)
         | (have hx : Within M s0 x.2 := by
              unfold x
              repeat' first
                | with_reducible assumption
                | dsimp -zeta only
                | with_reducible apply Within.ite1
                | with_reducible apply Within.ite2
                | with_reducible apply Within.ite
                | with_reducible apply gatherCells_within (Sub.up hM rfl)
                | (with_reducible apply Within.snd <;> [with_reducible assumption; skip])
                | (with_reducible apply Within.fst <;> [with_reducible assumption; skip])
                | (with_reducible apply Within.fst2 <;> [with_reducible assumption; skip])
                | split)
         | skip
       clear_value x)
    | lift_lets -underBinder
    | dsimp -zeta only
    | with_reducible apply Within.ite1
    | with_reducible apply Within.ite2
    | with_reducible apply Within.ite
    | with_reducible apply gatherCells_within (Sub.up hM rfl)
    | (with_reducible apply Within.snd <;> [with_reducible assumption; skip])
    | (with_reducible apply Within.fst <;> [with_reducible assumption; skip])
    | (with_reducible apply Within.fst2 <;> [with_reducible assumption; skip])
    | split

theorem flushRow_within {M : Nat} {s0 : State} (hM : Sub 0x310000093 M) (s : State) (c m r : Nat) (fails : Bool) (hW : Within M s0 s) : Within M s0 (flushRow s c m r fails) := by
  unfold flushRow
  repeat' first
    | with_reducible assumption
    | with_reducible apply flushGb_within (Sub.up hM rfl)
    | (with_reducible apply Within.snd <;> [with_reducible assumption; skip])
    | (with_reducible apply Within.fst <;> [with_reducible assumption; skip])
    | (with_reducible apply Within.fst2 <;> [with_reducible assumption; skip])
    | split

theorem closeWin_within {M : Nat} {s0 : State} (hM : Sub 0x310000093 M) (s : State) (c w : Nat) (hW : Within M s0 s) : Within M s0 (closeWin s c w) := by
  unfold closeWin
  repeat' first
    | with_reducible assumption
    | with_reducible apply Within.ite
    | with_reducible apply closeWindow_within (Sub.up hM rfl)
    | with_reducible apply flushGb_within (Sub.up hM rfl)
    | with_reducible refine each_within (fun _ _ _ => ?_) ?_

theorem dropQueue_within {M : Nat} {s0 : State} (hM : Sub 0x41 M) (s : State) (q : Nat) (hW : Within M s0 s) : Within M s0 (dropQueue s q) := by
  unfold dropQueue
  repeat' first
    | with_reducible assumption
    | with_reducible apply setField_within (Sub.up hM rfl)
    | with_reducible apply updQueue_within (Sub.up hM rfl)

theorem markerTakesRow_within {M : Nat} {s0 : State} (hM : Sub 0x40 M) (s : State) (q : Nat) (hW : Within M s0 s) : Within M s0 (markerTakesRow s q) := by
  unfold markerTakesRow
  repeat' first
    | with_reducible assumption
    | (intro x
       first
         | (have hx : Within M s0 x := by
              unfold x
              repeat' first
                | with_reducible assumption
                | dsimp -zeta only
                | with_reducible apply Within.ite1
                | with_reducible apply Within.ite2
                | with_reducible apply Within.ite
                | with_reducible apply updQueue_within (Sub.up hM rfl)
                | with_reducible refine each_within (fun _ _ _ => ?_) ?_
                | (with_reducible apply Within.snd <;> [with_reducible assumption; skip])
                | (with_reducible apply Within.fst <;> [with_reducible assumption; skip])
                | (with_reducible apply Within.fst2 <;> [with_reducible assumption; skip])
                | split)
         | (have hx : Within M s0 x.1 := by
              unfold x
              repeat' first
                | with_reducible assumption
                | dsimp -zeta only
                | with_reducible apply Within.ite1
                | with_reducible apply Within.ite2
                | with_reducible apply Within.ite
                | with_reducible apply updQueue_within (Sub.up hM rfl)
                | with_reducible refine each_within (fun _ _ _ => ?_) ?_
                | (with_reducible apply Within.snd <;> [with_reducible assumption; skip])
                | (with_reducible apply Within.fst <;> [with_reducible assumption; skip])
                | (with_reducible apply Within.fst2 <;> [with_reducible assumption; skip])
                | split)
         | (have hx : Within M s0 x.2 := by
              unfold x
              repeat' first
                | with_reducible assumption
                | dsimp -zeta only
                | with_reducible apply Within.ite1
                | with_reducible apply Within.ite2
                | with_reducible apply Within.ite
                | with_reducible apply updQueue_within (Sub.up hM rfl)
                | with_reducible refine each_within (fun _ _ _ => ?_) ?_
                | (with_reducible apply Within.snd <;> [with_reducible assumption; skip])
                | (with_reducible apply Within.fst <;> [with_reducible assumption; skip])
                | (with_reducible apply Within.fst2 <;> [with_reducible assumption; skip])
                | split)
         | skip
       clear_value x)
    | lift_lets -underBinder
    | dsimp -zeta only
    | with_reducible apply Within.ite1
    | with_reducible apply Within.ite2
    | with_reducible apply Within.ite
    | with_reducible apply updQueue_within (Sub.up hM rfl)
    | with_reducible refine each_within (fun _ _ _ => ?_) ?_
    | (with_reducible apply Within.snd <;> [with_reducible assumption; skip])
    | (with_reducible apply Within.fst <;> [with_reducible assumption; skip])
    | (with_reducible apply Within.fst2 <;> [with_reducible assumption; skip])
    | split

theorem freeRows_within {M : Nat} {s0 : State} (hM : Sub 0x100000840 M) (s : State) (q n : Nat) (hW : Within M s0 s) : Within M s0 (freeRows s q n) := by
  unfold freeRows
  repeat' first
    | with_reducible assumption
    | (intro x
       first
         | (have hx : Within M s0 x := by
              unfold x
              repeat' first
                | with_reducible assumption
                | with_reducible apply Within.ite
                | with_reducible apply updQueue_within (Sub.up hM rfl)
                | with_reducible apply sendChain_within (Sub.up hM rfl)
                | with_reducible apply sendCredit_within (Sub.up hM rfl)
                | with_reducible apply markerTakesRow_within (Sub.up hM rfl))
         | skip
       clear_value x)
    | lift_lets -underBinder
    | with_reducible apply Within.ite
    | with_reducible apply updQueue_within (Sub.up hM rfl)
    | with_reducible apply sendChain_within (Sub.up hM rfl)
    | with_reducible apply sendCredit_within (Sub.up hM rfl)
    | with_reducible apply markerTakesRow_within (Sub.up hM rfl)

theorem withdrawQueue_within {M : Nat} {s0 : State} (hM : Sub 0x100000841 M) (all : Bool) (s : State) (q : Nat) (hW : Within M s0 s) : Within M s0 (withdrawQueue all s q) := by
  unfold withdrawQueue
  repeat' first
    | with_reducible assumption
    | (intro x
       first
         | (have hx : Within M s0 x := by
              unfold x
              repeat' first
                | with_reducible assumption
                | dsimp -zeta only
                | with_reducible apply Within.ite1
                | with_reducible apply Within.ite2
                | with_reducible apply Within.ite
                | with_reducible apply bumpCore_within (Sub.up hM rfl)
                | with_reducible apply updQueue_within (Sub.up hM rfl)
                | with_reducible apply freeRows_within (Sub.up hM rfl)
                | (with_reducible apply Within.snd <;> [with_reducible assumption; skip])
                | (with_reducible apply Within.fst <;> [with_reducible assumption; skip])
                | (with_reducible apply Within.fst2 <;> [with_reducible assumption; skip])
                | split)
         | (have hx : Within M s0 x.1 := by
              unfold x
              repeat' first
                | with_reducible assumption
                | dsimp -zeta only
                | with_reducible apply Within.ite1
                | with_reducible apply Within.ite2
                | with_reducible apply Within.ite
                | with_reducible apply bumpCore_within (Sub.up hM rfl)
                | with_reducible apply updQueue_within (Sub.up hM rfl)
                | with_reducible apply freeRows_within (Sub.up hM rfl)
                | (with_reducible apply Within.snd <;> [with_reducible assumption; skip])
                | (with_reducible apply Within.fst <;> [with_reducible assumption; skip])
                | (with_reducible apply Within.fst2 <;> [with_reducible assumption; skip])
                | split)
         | (have hx : Within M s0 x.2 := by
              unfold x
              repeat' first
                | with_reducible assumption
                | dsimp -zeta only
                | with_reducible apply Within.ite1
                | with_reducible apply Within.ite2
                | with_reducible apply Within.ite
                | with_reducible apply bumpCore_within (Sub.up hM rfl)
                | with_reducible apply updQueue_within (Sub.up hM rfl)
                | with_reducible apply freeRows_within (Sub.up hM rfl)
                | (with_reducible apply Within.snd <;> [with_reducible assumption; skip])
                | (with_reducible apply Within.fst <;> [with_reducible assumption; skip])
                | (with_reducible apply Within.fst2 <;> [with_reducible assumption; skip])
                | split)
         | skip
       clear_value x)
    | lift_lets -underBinder
    | dsimp -zeta only
    | with_reducible apply Within.ite1
    | with_reducible apply Within.ite2
    | with_reducible apply Within.ite
    | with_reducible apply bumpCore_within (Sub.up hM rfl)
    | with_reducible apply updQueue_within (Sub.up hM rfl)
    | with_reducible apply freeRows_within (Sub.up hM rfl)
    | (with_reducible apply Within.snd <;> [with_reducible assumption; skip])
    | (with_reducible apply Within.fst <;> [with_reducible assumption; skip])
    | (with_reducible apply Within.fst2 <;> [with_reducible assumption; skip])
    | split

theorem withdrawOf_within {M : Nat} {s0 : State} (hM : Sub 0x100000841 M) (s : State) (c : Nat) (all : Bool) (hW : Within M s0 s) : Within M s0 (withdrawOf s c all) := by
  unfold withdrawOf
  repeat' first
    | with_reducible assumption
    | (intro x
       first
         | (have hx : Within M s0 x := by
              unfold x
              repeat' first
                | with_reducible assumption
                | dsimp -zeta only
                | with_reducible apply Within.ite1
                | with_reducible apply Within.ite2
                | with_reducible apply Within.ite
                | with_reducible apply withdrawQueue_within (Sub.up hM rfl)
                | with_reducible refine each_within (fun _ _ _ => ?_) ?_
                | (with_reducible apply Within.snd <;> [with_reducible assumption; skip])
                | (with_reducible apply Within.fst <;> [with_reducible assumption; skip])
                | (with_reducible apply Within.fst2 <;> [with_reducible assumption; skip])
                | split)
         | (have hx : Within M s0 x.1 := by
              unfold x
              repeat' first
                | with_reducible assumption
                | dsimp -zeta only
                | with_reducible apply Within.ite1
                | with_reducible apply Within.ite2
                | with_reducible apply Within.ite
                | with_reducible apply withdrawQueue_within (Sub.up hM rfl)
                | with_reducible refine each_within (fun _ _ _ => ?_) ?_
                | (with_reducible apply Within.snd <;> [with_reducible assumption; skip])
                | (with_reducible apply Within.fst <;> [with_reducible assumption; skip])
                | (with_reducible apply Within.fst2 <;> [with_reducible assumption; skip])
                | split)
         | (have hx : Within M s0 x.2 := by
              unfold x
              repeat' first
                | with_reducible assumption
                | dsimp -zeta only
                | with_reducible apply Within.ite1
                | with_reducible apply Within.ite2
                | with_reducible apply Within.ite
                | with_reducible apply withdrawQueue_within (Sub.up hM rfl)
                | with_reducible refine each_within (fun _ _ _ => ?_) ?_
                | (with_reducible apply Within.snd <;> [with_reducible assumption; skip])
                | (with_reducible apply Within.fst <;> [with_reducible assumption; skip])
                | (with_reducible apply Within.fst2 <;> [with_reducible assumption; skip])
                | split)
         | skip
       clear_value x)
    | lift_lets -underBinder
    | dsimp -zeta only
    | with_reducible apply Within.ite1
    | with_reducible apply Within.ite2
    | with_reducible apply Within.ite
    | with_reducible apply withdrawQueue_within (Sub.up hM rfl)
    | with_reducible refine each_within (fun _ _ _ => ?_) ?_
    | (with_reducible apply Within.snd <;> [with_reducible assumption; skip])
    | (with_reducible apply Within.fst <;> [with_reducible assumption; skip])
    | (with_reducible apply Within.fst2 <;> [with_reducible assumption; skip])
    | split

theorem keepPackets_within {M : Nat} {s0 : State} (hM : Sub 0x40 M) (s : State) (c : Nat) (f : QPacket → QPacket) (g : QDrop → QDrop) (hW : Within M s0 s) : Within M s0 (keepPackets s c f g) := by
  unfold keepPackets
  repeat' first
    | with_reducible assumption
    | (intro x
       first
         | (have hx : Within M s0 x := by
              unfold x
              repeat' first
                | with_reducible assumption
                | dsimp -zeta only
                | with_reducible apply Within.ite1
                | with_reducible apply Within.ite2
                | with_reducible apply Within.ite
                | with_reducible apply updQueue_within (Sub.up hM rfl)
                | with_reducible refine each_within (fun _ _ _ => ?_) ?_
                | (with_reducible apply Within.snd <;> [with_reducible assumption; skip])
                | (with_reducible apply Within.fst <;> [with_reducible assumption; skip])
                | (with_reducible apply Within.fst2 <;> [with_reducible assumption; skip])
                | split)
         | (have hx : Within M s0 x.1 := by
              unfold x
              repeat' first
                | with_reducible assumption
                | dsimp -zeta only
                | with_reducible apply Within.ite1
                | with_reducible apply Within.ite2
                | with_reducible apply Within.ite
                | with_reducible apply updQueue_within (Sub.up hM rfl)
                | with_reducible refine each_within (fun _ _ _ => ?_) ?_
                | (with_reducible apply Within.snd <;> [with_reducible assumption; skip])
                | (with_reducible apply Within.fst <;> [with_reducible assumption; skip])
                | (with_reducible apply Within.fst2 <;> [with_reducible assumption; skip])
                | split)
         | (have hx : Within M s0 x.2 := by
              unfold x
              repeat' first
                | with_reducible assumption
                | dsimp -zeta only
                | with_reducible apply Within.ite1
                | with_reducible apply Within.ite2
                | with_reducible apply Within.ite
                | with_reducible apply updQueue_within (Sub.up hM rfl)
                | with_reducible refine each_within (fun _ _ _ => ?_) ?_
                | (with_reducible apply Within.snd <;> [with_reducible assumption; skip])
                | (with_reducible apply Within.fst <;> [with_reducible assumption; skip])
                | (with_reducible apply Within.fst2 <;> [with_reducible assumption; skip])
                | split)
         | skip
       clear_value x)
    | lift_lets -underBinder
    | dsimp -zeta only
    | with_reducible apply Within.ite1
    | with_reducible apply Within.ite2
    | with_reducible apply Within.ite
    | with_reducible apply updQueue_within (Sub.up hM rfl)
    | with_reducible refine each_within (fun _ _ _ => ?_) ?_
    | (with_reducible apply Within.snd <;> [with_reducible assumption; skip])
    | (with_reducible apply Within.fst <;> [with_reducible assumption; skip])
    | (with_reducible apply Within.fst2 <;> [with_reducible assumption; skip])
    | split

theorem markTask_within {M : Nat} {s0 : State} (hM : Sub 0x1 M) (s : State) (c : Nat) (l : List (Nat × Nat)) (hW : Within M s0 s) : Within M s0 (markTask s c l) := by
  unfold markTask
  repeat' first
    | with_reducible assumption
    | with_reducible apply setReg_within (Sub.up hM rfl)
    | with_reducible refine each_within (fun _ _ _ => ?_) ?_

theorem markGroup_within {M : Nat} {s0 : State} (hM : Sub 0x1 M) (s : State) (c : Nat) (l : List (Nat × Nat)) (hW : Within M s0 s) : Within M s0 (markGroup s c l) := by
  unfold markGroup
  repeat' first
    | with_reducible assumption
    | with_reducible apply setReg_within (Sub.up hM rfl)
    | with_reducible refine each_within (fun _ _ _ => ?_) ?_

theorem rollGroup_within {M : Nat} {s0 : State} (hM : Sub 0x41 M) (s : State) (c : Nat) (l : List (Nat × Nat)) (hW : Within M s0 s) : Within M s0 (rollGroup s c l) := by
  unfold rollGroup
  repeat' first
    | with_reducible assumption
    | (intro x
       first
         | (have hx : Within M s0 x := by
              unfold x
              repeat' first
                | with_reducible assumption
                | with_reducible apply Within.ite
                | with_reducible apply setReg_within (Sub.up hM rfl)
                | with_reducible apply updQueue_within (Sub.up hM rfl)
                | with_reducible refine each_within (fun _ _ _ => ?_) ?_
                | (with_reducible apply Within.snd <;> [with_reducible assumption; skip])
                | (with_reducible apply Within.fst <;> [with_reducible assumption; skip])
                | (with_reducible apply Within.fst2 <;> [with_reducible assumption; skip])
                | split)
         | skip
       clear_value x)
    | lift_lets -underBinder
    | with_reducible apply Within.ite
    | with_reducible apply setReg_within (Sub.up hM rfl)
    | with_reducible apply updQueue_within (Sub.up hM rfl)
    | with_reducible refine each_within (fun _ _ _ => ?_) ?_
    | (with_reducible apply Within.snd <;> [with_reducible assumption; skip])
    | (with_reducible apply Within.fst <;> [with_reducible assumption; skip])
    | (with_reducible apply Within.fst2 <;> [with_reducible assumption; skip])
    | split

theorem rollTask_within {M : Nat} {s0 : State} (hM : Sub 0x41 M) (s : State) (c : Nat) (l : List (Nat × Nat)) (hW : Within M s0 s) : Within M s0 (rollTask s c l) := by
  unfold rollTask
  repeat' first
    | with_reducible assumption
    | (intro x
       first
         | (have hx : Within M s0 x := by
              unfold x
              repeat' first
                | with_reducible assumption
                | with_reducible apply Within.ite
                | with_reducible apply setReg_within (Sub.up hM rfl)
                | with_reducible apply updQueue_within (Sub.up hM rfl)
                | with_reducible refine each_within (fun _ _ _ => ?_) ?_
                | (with_reducible apply Within.snd <;> [with_reducible assumption; skip])
                | (with_reducible apply Within.fst <;> [with_reducible assumption; skip])
                | (with_reducible apply Within.fst2 <;> [with_reducible assumption; skip])
                | split)
         | skip
       clear_value x)
    | lift_lets -underBinder
    | with_reducible apply Within.ite
    | with_reducible apply setReg_within (Sub.up hM rfl)
    | with_reducible apply updQueue_within (Sub.up hM rfl)
    | with_reducible refine each_within (fun _ _ _ => ?_) ?_
    | (with_reducible apply Within.snd <;> [with_reducible assumption; skip])
    | (with_reducible apply Within.fst <;> [with_reducible assumption; skip])
    | (with_reducible apply Within.fst2 <;> [with_reducible assumption; skip])
    | split

theorem ownWindow_within {M : Nat} {s0 : State} (hM : Sub 0x10 M) (s : State) (c w k : Nat) (hW : Within M s0 s) : Within M s0 (ownWindow s c w k) := by
  unfold ownWindow
  repeat' first
    | with_reducible assumption
    | (intro x
       first
         | (have hx : Within M s0 x := by
              unfold x
              repeat' first
                | with_reducible assumption
                | dsimp -zeta only
                | with_reducible apply Within.ite1
                | with_reducible apply Within.ite2
                | with_reducible apply Within.ite
                | with_reducible apply updCore_within (Sub.up hM rfl)
                | (with_reducible apply Within.snd <;> [with_reducible assumption; skip])
                | (with_reducible apply Within.fst <;> [with_reducible assumption; skip])
                | (with_reducible apply Within.fst2 <;> [with_reducible assumption; skip])
                | split)
         | (have hx : Within M s0 x.1 := by
              unfold x
              repeat' first
                | with_reducible assumption
                | dsimp -zeta only
                | with_reducible apply Within.ite1
                | with_reducible apply Within.ite2
                | with_reducible apply Within.ite
                | with_reducible apply updCore_within (Sub.up hM rfl)
                | (with_reducible apply Within.snd <;> [with_reducible assumption; skip])
                | (with_reducible apply Within.fst <;> [with_reducible assumption; skip])
                | (with_reducible apply Within.fst2 <;> [with_reducible assumption; skip])
                | split)
         | (have hx : Within M s0 x.2 := by
              unfold x
              repeat' first
                | with_reducible assumption
                | dsimp -zeta only
                | with_reducible apply Within.ite1
                | with_reducible apply Within.ite2
                | with_reducible apply Within.ite
                | with_reducible apply updCore_within (Sub.up hM rfl)
                | (with_reducible apply Within.snd <;> [with_reducible assumption; skip])
                | (with_reducible apply Within.fst <;> [with_reducible assumption; skip])
                | (with_reducible apply Within.fst2 <;> [with_reducible assumption; skip])
                | split)
         | skip
       clear_value x)
    | lift_lets -underBinder
    | dsimp -zeta only
    | with_reducible apply Within.ite1
    | with_reducible apply Within.ite2
    | with_reducible apply Within.ite
    | with_reducible apply updCore_within (Sub.up hM rfl)
    | (with_reducible apply Within.snd <;> [with_reducible assumption; skip])
    | (with_reducible apply Within.fst <;> [with_reducible assumption; skip])
    | (with_reducible apply Within.fst2 <;> [with_reducible assumption; skip])
    | split

theorem closeTaskWindows_within {M : Nat} {s0 : State} (hM : Sub 0x310000093 M) (s : State) (c k : Nat) (hW : Within M s0 s) : Within M s0 (closeTaskWindows s c k) := by
  unfold closeTaskWindows
  repeat' first
    | with_reducible assumption
    | (intro x
       first
         | (have hx : Within M s0 x := by
              unfold x
              repeat' first
                | with_reducible assumption
                | with_reducible apply updCore_within (Sub.up hM rfl)
                | with_reducible apply closeWin_within (Sub.up hM rfl)
                | with_reducible refine each_within (fun _ _ _ => ?_) ?_)
         | skip
       clear_value x)
    | lift_lets -underBinder
    | with_reducible apply updCore_within (Sub.up hM rfl)
    | with_reducible apply closeWin_within (Sub.up hM rfl)
    | with_reducible refine each_within (fun _ _ _ => ?_) ?_

theorem stopTask_within {M : Nat} {s0 : State} (hM : Sub 0x3100008d3 M) (s : State) (c : Nat) (cancel : Bool) (hW : Within M s0 s) : Within M s0 (stopTask s c cancel) := by
  unfold stopTask
  repeat' first
    | with_reducible assumption
    | (intro x
       first
         | (have hx : Within M s0 x := by
              unfold x
              repeat' first
                | with_reducible assumption
                | dsimp -zeta only
                | with_reducible apply Within.ite1
                | with_reducible apply Within.ite2
                | with_reducible apply Within.ite
                | with_reducible apply updCore_within (Sub.up hM rfl)
                | with_reducible apply bumpCore_within (Sub.up hM rfl)
                | with_reducible apply sendChain_within (Sub.up hM rfl)
                | with_reducible apply withdrawOf_within (Sub.up hM rfl)
                | with_reducible apply rollTask_within (Sub.up hM rfl)
                | with_reducible apply closeTaskWindows_within (Sub.up hM rfl)
                | (with_reducible apply Within.snd <;> [with_reducible assumption; skip])
                | (with_reducible apply Within.fst <;> [with_reducible assumption; skip])
                | (with_reducible apply Within.fst2 <;> [with_reducible assumption; skip])
                | split)
         | (have hx : Within M s0 x.1 := by
              unfold x
              repeat' first
                | with_reducible assumption
                | dsimp -zeta only
                | with_reducible apply Within.ite1
                | with_reducible apply Within.ite2
                | with_reducible apply Within.ite
                | with_reducible apply updCore_within (Sub.up hM rfl)
                | with_reducible apply bumpCore_within (Sub.up hM rfl)
                | with_reducible apply sendChain_within (Sub.up hM rfl)
                | with_reducible apply withdrawOf_within (Sub.up hM rfl)
                | with_reducible apply rollTask_within (Sub.up hM rfl)
                | with_reducible apply closeTaskWindows_within (Sub.up hM rfl)
                | (with_reducible apply Within.snd <;> [with_reducible assumption; skip])
                | (with_reducible apply Within.fst <;> [with_reducible assumption; skip])
                | (with_reducible apply Within.fst2 <;> [with_reducible assumption; skip])
                | split)
         | (have hx : Within M s0 x.2 := by
              unfold x
              repeat' first
                | with_reducible assumption
                | dsimp -zeta only
                | with_reducible apply Within.ite1
                | with_reducible apply Within.ite2
                | with_reducible apply Within.ite
                | with_reducible apply updCore_within (Sub.up hM rfl)
                | with_reducible apply bumpCore_within (Sub.up hM rfl)
                | with_reducible apply sendChain_within (Sub.up hM rfl)
                | with_reducible apply withdrawOf_within (Sub.up hM rfl)
                | with_reducible apply rollTask_within (Sub.up hM rfl)
                | with_reducible apply closeTaskWindows_within (Sub.up hM rfl)
                | (with_reducible apply Within.snd <;> [with_reducible assumption; skip])
                | (with_reducible apply Within.fst <;> [with_reducible assumption; skip])
                | (with_reducible apply Within.fst2 <;> [with_reducible assumption; skip])
                | split)
         | skip
       clear_value x)
    | lift_lets -underBinder
    | dsimp -zeta only
    | with_reducible apply Within.ite1
    | with_reducible apply Within.ite2
    | with_reducible apply Within.ite
    | with_reducible apply updCore_within (Sub.up hM rfl)
    | with_reducible apply bumpCore_within (Sub.up hM rfl)
    | with_reducible apply sendChain_within (Sub.up hM rfl)
    | with_reducible apply withdrawOf_within (Sub.up hM rfl)
    | with_reducible apply rollTask_within (Sub.up hM rfl)
    | with_reducible apply closeTaskWindows_within (Sub.up hM rfl)
    | (with_reducible apply Within.snd <;> [with_reducible assumption; skip])
    | (with_reducible apply Within.fst <;> [with_reducible assumption; skip])
    | (with_reducible apply Within.fst2 <;> [with_reducible assumption; skip])
    | split

theorem stopGone_within {M : Nat} {s0 : State} (hM : Sub 0x100000010 M) (s : State) (c k : Nat) (hW : Within M s0 s) : Within M s0 (stopGone s c k) := by
  unfold stopGone
  repeat' first
    | with_reducible assumption
    | (intro x
       first
         | (have hx : Within M s0 x := by
              unfold x
              repeat' first
                | with_reducible assumption
                | dsimp -zeta only
                | with_reducible apply Within.ite1
                | with_reducible apply Within.ite2
                | with_reducible apply Within.ite
                | with_reducible apply updCore_within (Sub.up hM rfl)
                | with_reducible apply sendChain_within (Sub.up hM rfl)
                | (with_reducible apply Within.snd <;> [with_reducible assumption; skip])
                | (with_reducible apply Within.fst <;> [with_reducible assumption; skip])
                | (with_reducible apply Within.fst2 <;> [with_reducible assumption; skip])
                | split)
         | (have hx : Within M s0 x.1 := by
              unfold x
              repeat' first
                | with_reducible assumption
                | dsimp -zeta only
                | with_reducible apply Within.ite1
                | with_reducible apply Within.ite2
                | with_reducible apply Within.ite
                | with_reducible apply updCore_within (Sub.up hM rfl)
                | with_reducible apply sendChain_within (Sub.up hM rfl)
                | (with_reducible apply Within.snd <;> [with_reducible assumption; skip])
                | (with_reducible apply Within.fst <;> [with_reducible assumption; skip])
                | (with_reducible apply Within.fst2 <;> [with_reducible assumption; skip])
                | split)
         | (have hx : Within M s0 x.2 := by
              unfold x
              repeat' first
                | with_reducible assumption
                | dsimp -zeta only
                | with_reducible apply Within.ite1
                | with_reducible apply Within.ite2
                | with_reducible apply Within.ite
                | with_reducible apply updCore_within (Sub.up hM rfl)
                | with_reducible apply sendChain_within (Sub.up hM rfl)
                | (with_reducible apply Within.snd <;> [with_reducible assumption; skip])
                | (with_reducible apply Within.fst <;> [with_reducible assumption; skip])
                | (with_reducible apply Within.fst2 <;> [with_reducible assumption; skip])
                | split)
         | skip
       clear_value x)
    | lift_lets -underBinder
    | dsimp -zeta only
    | with_reducible apply Within.ite1
    | with_reducible apply Within.ite2
    | with_reducible apply Within.ite
    | with_reducible apply updCore_within (Sub.up hM rfl)
    | with_reducible apply sendChain_within (Sub.up hM rfl)
    | (with_reducible apply Within.snd <;> [with_reducible assumption; skip])
    | (with_reducible apply Within.fst <;> [with_reducible assumption; skip])
    | (with_reducible apply Within.fst2 <;> [with_reducible assumption; skip])
    | split

theorem freeTag_within {M : Nat} {s0 : State} (hM : Sub 0x100000010 M) (s : State) (c tag : Nat) (hW : Within M s0 s) : Within M s0 (freeTag s c tag) := by
  unfold freeTag
  repeat' first
    | with_reducible assumption
    | (intro x
       first
         | (have hx : Within M s0 x := by
              unfold x
              repeat' first
                | with_reducible assumption
                | dsimp -zeta only
                | with_reducible apply Within.ite1
                | with_reducible apply Within.ite2
                | with_reducible apply Within.ite
                | with_reducible apply updCore_within (Sub.up hM rfl)
                | with_reducible apply sendChain_within (Sub.up hM rfl)
                | (with_reducible apply Within.snd <;> [with_reducible assumption; skip])
                | (with_reducible apply Within.fst <;> [with_reducible assumption; skip])
                | (with_reducible apply Within.fst2 <;> [with_reducible assumption; skip])
                | split)
         | (have hx : Within M s0 x.1 := by
              unfold x
              repeat' first
                | with_reducible assumption
                | dsimp -zeta only
                | with_reducible apply Within.ite1
                | with_reducible apply Within.ite2
                | with_reducible apply Within.ite
                | with_reducible apply updCore_within (Sub.up hM rfl)
                | with_reducible apply sendChain_within (Sub.up hM rfl)
                | (with_reducible apply Within.snd <;> [with_reducible assumption; skip])
                | (with_reducible apply Within.fst <;> [with_reducible assumption; skip])
                | (with_reducible apply Within.fst2 <;> [with_reducible assumption; skip])
                | split)
         | (have hx : Within M s0 x.2 := by
              unfold x
              repeat' first
                | with_reducible assumption
                | dsimp -zeta only
                | with_reducible apply Within.ite1
                | with_reducible apply Within.ite2
                | with_reducible apply Within.ite
                | with_reducible apply updCore_within (Sub.up hM rfl)
                | with_reducible apply sendChain_within (Sub.up hM rfl)
                | (with_reducible apply Within.snd <;> [with_reducible assumption; skip])
                | (with_reducible apply Within.fst <;> [with_reducible assumption; skip])
                | (with_reducible apply Within.fst2 <;> [with_reducible assumption; skip])
                | split)
         | skip
       clear_value x)
    | lift_lets -underBinder
    | dsimp -zeta only
    | with_reducible apply Within.ite1
    | with_reducible apply Within.ite2
    | with_reducible apply Within.ite
    | with_reducible apply updCore_within (Sub.up hM rfl)
    | with_reducible apply sendChain_within (Sub.up hM rfl)
    | (with_reducible apply Within.snd <;> [with_reducible assumption; skip])
    | (with_reducible apply Within.fst <;> [with_reducible assumption; skip])
    | (with_reducible apply Within.fst2 <;> [with_reducible assumption; skip])
    | split

theorem lceFault_within {M : Nat} {s0 : State} (hM : Sub 0x1 M) (s : State) (c status check k : Nat) (hW : Within M s0 s) : Within M s0 (lceFault s c status check k) := by
  unfold lceFault
  repeat' first
    | with_reducible assumption
    | with_reducible apply setReg_within (Sub.up hM rfl)

theorem faultCore_within {M : Nat} {s0 : State} (hM : Sub 0x3100008d3 M) (s : State) (c status stream slot va : Nat) (hW : Within M s0 s) : Within M s0 (faultCore s c status stream slot va) := by
  unfold faultCore
  repeat' first
    | with_reducible assumption
    | (intro x
       first
         | (have hx : Within M s0 x := by
              unfold x
              repeat' first
                | with_reducible assumption
                | with_reducible apply Within.ite
                | with_reducible apply setReg_within (Sub.up hM rfl)
                | with_reducible apply bumpCore_within (Sub.up hM rfl)
                | with_reducible apply sendChain_within (Sub.up hM rfl)
                | with_reducible apply stopTask_within (Sub.up hM rfl)
                | with_reducible apply lceFault_within (Sub.up hM rfl)
                | (with_reducible apply Within.snd <;> [with_reducible assumption; skip])
                | (with_reducible apply Within.fst <;> [with_reducible assumption; skip])
                | (with_reducible apply Within.fst2 <;> [with_reducible assumption; skip])
                | split)
         | skip
       clear_value x)
    | lift_lets -underBinder
    | with_reducible apply Within.ite
    | with_reducible apply setReg_within (Sub.up hM rfl)
    | with_reducible apply bumpCore_within (Sub.up hM rfl)
    | with_reducible apply sendChain_within (Sub.up hM rfl)
    | with_reducible apply stopTask_within (Sub.up hM rfl)
    | with_reducible apply lceFault_within (Sub.up hM rfl)
    | (with_reducible apply Within.snd <;> [with_reducible assumption; skip])
    | (with_reducible apply Within.fst <;> [with_reducible assumption; skip])
    | (with_reducible apply Within.fst2 <;> [with_reducible assumption; skip])
    | split

theorem setDetect_within {M : Nat} {s0 : State} (hM : Sub 0x1 M) (s : State) (c m row outcome : Nat) (hW : Within M s0 s) : Within M s0 (setDetect s c m row outcome) := by
  unfold setDetect
  repeat' first
    | with_reducible assumption
    | with_reducible apply setReg_within (Sub.up hM rfl)

theorem detect_within {M : Nat} {s0 : State} (hM : Sub 0x3100008d3 M) (s : State) (c m row : Nat) (hW : Within M s0 s) : Within M s0 (detect s c m row) := by
  unfold detect
  repeat' first
    | with_reducible assumption
    | (intro x
       first
         | (have hx : Within M s0 x := by
              unfold x
              repeat' first
                | with_reducible assumption
                | dsimp -zeta only
                | with_reducible apply Within.ite1
                | with_reducible apply Within.ite2
                | with_reducible apply Within.ite
                | with_reducible apply updCore_within (Sub.up hM rfl)
                | with_reducible apply bumpCore_within (Sub.up hM rfl)
                | with_reducible apply sendChain_within (Sub.up hM rfl)
                | with_reducible apply faultCore_within (Sub.up hM rfl)
                | with_reducible apply setDetect_within (Sub.up hM rfl)
                | (with_reducible apply Within.snd <;> [with_reducible assumption; skip])
                | (with_reducible apply Within.fst <;> [with_reducible assumption; skip])
                | (with_reducible apply Within.fst2 <;> [with_reducible assumption; skip])
                | split)
         | (have hx : Within M s0 x.1 := by
              unfold x
              repeat' first
                | with_reducible assumption
                | dsimp -zeta only
                | with_reducible apply Within.ite1
                | with_reducible apply Within.ite2
                | with_reducible apply Within.ite
                | with_reducible apply updCore_within (Sub.up hM rfl)
                | with_reducible apply bumpCore_within (Sub.up hM rfl)
                | with_reducible apply sendChain_within (Sub.up hM rfl)
                | with_reducible apply faultCore_within (Sub.up hM rfl)
                | with_reducible apply setDetect_within (Sub.up hM rfl)
                | (with_reducible apply Within.snd <;> [with_reducible assumption; skip])
                | (with_reducible apply Within.fst <;> [with_reducible assumption; skip])
                | (with_reducible apply Within.fst2 <;> [with_reducible assumption; skip])
                | split)
         | (have hx : Within M s0 x.2 := by
              unfold x
              repeat' first
                | with_reducible assumption
                | dsimp -zeta only
                | with_reducible apply Within.ite1
                | with_reducible apply Within.ite2
                | with_reducible apply Within.ite
                | with_reducible apply updCore_within (Sub.up hM rfl)
                | with_reducible apply bumpCore_within (Sub.up hM rfl)
                | with_reducible apply sendChain_within (Sub.up hM rfl)
                | with_reducible apply faultCore_within (Sub.up hM rfl)
                | with_reducible apply setDetect_within (Sub.up hM rfl)
                | (with_reducible apply Within.snd <;> [with_reducible assumption; skip])
                | (with_reducible apply Within.fst <;> [with_reducible assumption; skip])
                | (with_reducible apply Within.fst2 <;> [with_reducible assumption; skip])
                | split)
         | skip
       clear_value x)
    | lift_lets -underBinder
    | dsimp -zeta only
    | with_reducible apply Within.ite1
    | with_reducible apply Within.ite2
    | with_reducible apply Within.ite
    | with_reducible apply updCore_within (Sub.up hM rfl)
    | with_reducible apply bumpCore_within (Sub.up hM rfl)
    | with_reducible apply sendChain_within (Sub.up hM rfl)
    | with_reducible apply faultCore_within (Sub.up hM rfl)
    | with_reducible apply setDetect_within (Sub.up hM rfl)
    | (with_reducible apply Within.snd <;> [with_reducible assumption; skip])
    | (with_reducible apply Within.fst <;> [with_reducible assumption; skip])
    | (with_reducible apply Within.fst2 <;> [with_reducible assumption; skip])
    | split

theorem noteRow_within {M : Nat} {s0 : State} (hM : Sub 0x10 M) (s : State) (c m row : Nat) (hW : Within M s0 s) : Within M s0 (noteRow s c m row) := by
  unfold noteRow
  repeat' first
    | with_reducible assumption
    | with_reducible apply Within.ite
    | with_reducible apply updCore_within (Sub.up hM rfl)

theorem localWrite_within {M : Nat} {s0 : State} (hM : Sub 0x3100008d3 M) (s : State) (c m row : Nat) (data : List Byte) (hW : Within M s0 s) : Within M s0 (localWrite s c m row data) := by
  unfold localWrite
  repeat' first
    | with_reducible assumption
    | with_reducible apply writeRow_within (Sub.up hM rfl)
    | with_reducible apply loseHomes_within (Sub.up hM rfl)
    | with_reducible apply flushRow_within (Sub.up hM rfl)
    | with_reducible apply faultCore_within (Sub.up hM rfl)
    | with_reducible apply noteRow_within (Sub.up hM rfl)
    | (with_reducible apply Within.snd <;> [with_reducible assumption; skip])
    | (with_reducible apply Within.fst <;> [with_reducible assumption; skip])
    | (with_reducible apply Within.fst2 <;> [with_reducible assumption; skip])
    | split

theorem appendRow_within {M : Nat} {s0 : State} (hM : Sub 0x3100008d3 M) (s : State) (c m r : Nat) (data : List Byte) (hW : Within M s0 s) : Within M s0 (appendRow s c m r data) := by
  unfold appendRow
  repeat' first
    | with_reducible assumption
    | (intro x
       first
         | (have hx : Within M s0 x := by
              unfold x
              repeat' first
                | with_reducible assumption
                | with_reducible apply advanceTail_within (Sub.up hM rfl)
                | with_reducible apply countRegion_within (Sub.up hM rfl)
                | with_reducible apply faultCore_within (Sub.up hM rfl)
                | with_reducible apply localWrite_within (Sub.up hM rfl)
                | (with_reducible apply Within.snd <;> [with_reducible assumption; skip])
                | (with_reducible apply Within.fst <;> [with_reducible assumption; skip])
                | (with_reducible apply Within.fst2 <;> [with_reducible assumption; skip])
                | split)
         | skip
       clear_value x)
    | lift_lets -underBinder
    | with_reducible apply advanceTail_within (Sub.up hM rfl)
    | with_reducible apply countRegion_within (Sub.up hM rfl)
    | with_reducible apply faultCore_within (Sub.up hM rfl)
    | with_reducible apply localWrite_within (Sub.up hM rfl)
    | (with_reducible apply Within.snd <;> [with_reducible assumption; skip])
    | (with_reducible apply Within.fst <;> [with_reducible assumption; skip])
    | (with_reducible apply Within.fst2 <;> [with_reducible assumption; skip])
    | split

theorem loseOther_within {M : Nat} {s0 : State} (hM : Sub 0x310000081 M) (s : State) (c row r : Nat) (hW : Within M s0 s) : Within M s0 (loseOther s c row r) := by
  unfold loseOther
  repeat' first
    | with_reducible assumption
    | (intro x
       first
         | (have hx : Within M s0 x := by
              unfold x
              repeat' first
                | with_reducible assumption
                | dsimp -zeta only
                | with_reducible apply Within.ite1
                | with_reducible apply Within.ite2
                | with_reducible apply Within.ite
                | with_reducible apply setField_within (Sub.up hM rfl)
                | with_reducible apply raise_within (Sub.up hM rfl)
                | with_reducible refine each_within (fun _ _ _ => ?_) ?_
                | (with_reducible apply Within.snd <;> [with_reducible assumption; skip])
                | (with_reducible apply Within.fst <;> [with_reducible assumption; skip])
                | (with_reducible apply Within.fst2 <;> [with_reducible assumption; skip])
                | split)
         | (have hx : Within M s0 x.1 := by
              unfold x
              repeat' first
                | with_reducible assumption
                | dsimp -zeta only
                | with_reducible apply Within.ite1
                | with_reducible apply Within.ite2
                | with_reducible apply Within.ite
                | with_reducible apply setField_within (Sub.up hM rfl)
                | with_reducible apply raise_within (Sub.up hM rfl)
                | with_reducible refine each_within (fun _ _ _ => ?_) ?_
                | (with_reducible apply Within.snd <;> [with_reducible assumption; skip])
                | (with_reducible apply Within.fst <;> [with_reducible assumption; skip])
                | (with_reducible apply Within.fst2 <;> [with_reducible assumption; skip])
                | split)
         | (have hx : Within M s0 x.2 := by
              unfold x
              repeat' first
                | with_reducible assumption
                | dsimp -zeta only
                | with_reducible apply Within.ite1
                | with_reducible apply Within.ite2
                | with_reducible apply Within.ite
                | with_reducible apply setField_within (Sub.up hM rfl)
                | with_reducible apply raise_within (Sub.up hM rfl)
                | with_reducible refine each_within (fun _ _ _ => ?_) ?_
                | (with_reducible apply Within.snd <;> [with_reducible assumption; skip])
                | (with_reducible apply Within.fst <;> [with_reducible assumption; skip])
                | (with_reducible apply Within.fst2 <;> [with_reducible assumption; skip])
                | split)
         | skip
       clear_value x)
    | lift_lets -underBinder
    | dsimp -zeta only
    | with_reducible apply Within.ite1
    | with_reducible apply Within.ite2
    | with_reducible apply Within.ite
    | with_reducible apply setField_within (Sub.up hM rfl)
    | with_reducible apply raise_within (Sub.up hM rfl)
    | with_reducible refine each_within (fun _ _ _ => ?_) ?_
    | (with_reducible apply Within.snd <;> [with_reducible assumption; skip])
    | (with_reducible apply Within.fst <;> [with_reducible assumption; skip])
    | (with_reducible apply Within.fst2 <;> [with_reducible assumption; skip])
    | split

theorem landFetched_within {M : Nat} {s0 : State} (hM : Sub 0x3100008d3 M) (s : State) (c m r va : Nat) (data : List Byte) (hW : Within M s0 s) : Within M s0 (landFetched s c m r va data) := by
  unfold landFetched
  repeat' first
    | with_reducible assumption
    | (intro x
       first
         | (have hx : Within M s0 x := by
              unfold x
              repeat' first
                | with_reducible assumption
                | dsimp -zeta only
                | with_reducible apply Within.ite1
                | with_reducible apply Within.ite2
                | with_reducible apply Within.ite
                | with_reducible apply advanceTail_within (Sub.up hM rfl)
                | with_reducible apply countRegion_within (Sub.up hM rfl)
                | with_reducible apply writeRow_within (Sub.up hM rfl)
                | with_reducible apply flushRow_within (Sub.up hM rfl)
                | with_reducible apply noteRow_within (Sub.up hM rfl)
                | with_reducible apply appendRow_within (Sub.up hM rfl)
                | with_reducible apply loseOther_within (Sub.up hM rfl)
                | (with_reducible apply Within.snd <;> [with_reducible assumption; skip])
                | (with_reducible apply Within.fst <;> [with_reducible assumption; skip])
                | (with_reducible apply Within.fst2 <;> [with_reducible assumption; skip])
                | split)
         | (have hx : Within M s0 x.1 := by
              unfold x
              repeat' first
                | with_reducible assumption
                | dsimp -zeta only
                | with_reducible apply Within.ite1
                | with_reducible apply Within.ite2
                | with_reducible apply Within.ite
                | with_reducible apply advanceTail_within (Sub.up hM rfl)
                | with_reducible apply countRegion_within (Sub.up hM rfl)
                | with_reducible apply writeRow_within (Sub.up hM rfl)
                | with_reducible apply flushRow_within (Sub.up hM rfl)
                | with_reducible apply noteRow_within (Sub.up hM rfl)
                | with_reducible apply appendRow_within (Sub.up hM rfl)
                | with_reducible apply loseOther_within (Sub.up hM rfl)
                | (with_reducible apply Within.snd <;> [with_reducible assumption; skip])
                | (with_reducible apply Within.fst <;> [with_reducible assumption; skip])
                | (with_reducible apply Within.fst2 <;> [with_reducible assumption; skip])
                | split)
         | (have hx : Within M s0 x.2 := by
              unfold x
              repeat' first
                | with_reducible assumption
                | dsimp -zeta only
                | with_reducible apply Within.ite1
                | with_reducible apply Within.ite2
                | with_reducible apply Within.ite
                | with_reducible apply advanceTail_within (Sub.up hM rfl)
                | with_reducible apply countRegion_within (Sub.up hM rfl)
                | with_reducible apply writeRow_within (Sub.up hM rfl)
                | with_reducible apply flushRow_within (Sub.up hM rfl)
                | with_reducible apply noteRow_within (Sub.up hM rfl)
                | with_reducible apply appendRow_within (Sub.up hM rfl)
                | with_reducible apply loseOther_within (Sub.up hM rfl)
                | (with_reducible apply Within.snd <;> [with_reducible assumption; skip])
                | (with_reducible apply Within.fst <;> [with_reducible assumption; skip])
                | (with_reducible apply Within.fst2 <;> [with_reducible assumption; skip])
                | split)
         | skip
       clear_value x)
    | lift_lets -underBinder
    | dsimp -zeta only
    | with_reducible apply Within.ite1
    | with_reducible apply Within.ite2
    | with_reducible apply Within.ite
    | with_reducible apply advanceTail_within (Sub.up hM rfl)
    | with_reducible apply countRegion_within (Sub.up hM rfl)
    | with_reducible apply writeRow_within (Sub.up hM rfl)
    | with_reducible apply flushRow_within (Sub.up hM rfl)
    | with_reducible apply noteRow_within (Sub.up hM rfl)
    | with_reducible apply appendRow_within (Sub.up hM rfl)
    | with_reducible apply loseOther_within (Sub.up hM rfl)
    | (with_reducible apply Within.snd <;> [with_reducible assumption; skip])
    | (with_reducible apply Within.fst <;> [with_reducible assumption; skip])
    | (with_reducible apply Within.fst2 <;> [with_reducible assumption; skip])
    | split

theorem useRows_within {M : Nat} {s0 : State} (hM : Sub 0x3100008d3 M) (c : Nat) (l : List (Nat × Nat)) (s : State) (hW : Within M s0 s) :
    Within M s0 (useRows c l s).1 := by
  induction l generalizing s with
  | nil => exact hW
  | cons p l ih =>
    unfold useRows
    split
    · exact faultCore_within (Sub.up hM rfl) _ _ _ _ _ _ hW
    · split
      · exact hW
      · dsimp only
        split
        · exact detect_within (Sub.up hM rfl) _ _ _ _ (flushRow_within (Sub.up hM rfl) _ _ _ _ _ hW)
        · exact ih _ (flushRow_within (Sub.up hM rfl) _ _ _ _ _ hW)

theorem takeRows_within {M : Nat} {s0 : State} (hM : Sub 0x3100008d3 M) (s : State) (c : Nat) (reads writes : List (Nat × Nat)) (hW : Within M s0 s) : Within M s0 (takeRows s c reads writes).1 := by
  unfold takeRows
  repeat' first
    | with_reducible assumption
    | (intro x
       first
         | (have hx : Within M s0 x := by
              unfold x
              repeat' first
                | with_reducible assumption
                | dsimp -zeta only
                | with_reducible apply Within.ite1
                | with_reducible apply Within.ite2
                | with_reducible apply Within.ite
                | with_reducible apply flushRow_within (Sub.up hM rfl)
                | with_reducible apply faultCore_within (Sub.up hM rfl)
                | with_reducible apply useRows_within (Sub.up hM rfl)
                | with_reducible refine each_within (fun _ _ _ => ?_) ?_
                | (with_reducible apply Within.snd <;> [with_reducible assumption; skip])
                | (with_reducible apply Within.fst <;> [with_reducible assumption; skip])
                | (with_reducible apply Within.fst2 <;> [with_reducible assumption; skip])
                | split)
         | (have hx : Within M s0 x.1 := by
              unfold x
              repeat' first
                | with_reducible assumption
                | dsimp -zeta only
                | with_reducible apply Within.ite1
                | with_reducible apply Within.ite2
                | with_reducible apply Within.ite
                | with_reducible apply flushRow_within (Sub.up hM rfl)
                | with_reducible apply faultCore_within (Sub.up hM rfl)
                | with_reducible apply useRows_within (Sub.up hM rfl)
                | with_reducible refine each_within (fun _ _ _ => ?_) ?_
                | (with_reducible apply Within.snd <;> [with_reducible assumption; skip])
                | (with_reducible apply Within.fst <;> [with_reducible assumption; skip])
                | (with_reducible apply Within.fst2 <;> [with_reducible assumption; skip])
                | split)
         | (have hx : Within M s0 x.2 := by
              unfold x
              repeat' first
                | with_reducible assumption
                | dsimp -zeta only
                | with_reducible apply Within.ite1
                | with_reducible apply Within.ite2
                | with_reducible apply Within.ite
                | with_reducible apply flushRow_within (Sub.up hM rfl)
                | with_reducible apply faultCore_within (Sub.up hM rfl)
                | with_reducible apply useRows_within (Sub.up hM rfl)
                | with_reducible refine each_within (fun _ _ _ => ?_) ?_
                | (with_reducible apply Within.snd <;> [with_reducible assumption; skip])
                | (with_reducible apply Within.fst <;> [with_reducible assumption; skip])
                | (with_reducible apply Within.fst2 <;> [with_reducible assumption; skip])
                | split)
         | skip
       clear_value x)
    | lift_lets -underBinder
    | dsimp -zeta only
    | with_reducible apply Within.ite1
    | with_reducible apply Within.ite2
    | with_reducible apply Within.ite
    | with_reducible apply flushRow_within (Sub.up hM rfl)
    | with_reducible apply faultCore_within (Sub.up hM rfl)
    | with_reducible apply useRows_within (Sub.up hM rfl)
    | with_reducible refine each_within (fun _ _ _ => ?_) ?_
    | (with_reducible apply Within.snd <;> [with_reducible assumption; skip])
    | (with_reducible apply Within.fst <;> [with_reducible assumption; skip])
    | (with_reducible apply Within.fst2 <;> [with_reducible assumption; skip])
    | split

theorem releaseRegion_within {M : Nat} {s0 : State} (hM : Sub 0x3100008d3 M) (s : State) (c m r n : Nat) (hW : Within M s0 s) : Within M s0 (releaseRegion s c m r n) := by
  unfold releaseRegion
  repeat' first
    | with_reducible assumption
    | (intro x
       first
         | (have hx : Within M s0 x := by
              unfold x
              repeat' first
                | with_reducible assumption
                | with_reducible apply Within.ite
                | with_reducible apply updQueue_within (Sub.up hM rfl)
                | with_reducible apply advanceHead_within (Sub.up hM rfl)
                | with_reducible apply faultCore_within (Sub.up hM rfl)
                | (with_reducible apply Within.snd <;> [with_reducible assumption; skip])
                | (with_reducible apply Within.fst <;> [with_reducible assumption; skip])
                | (with_reducible apply Within.fst2 <;> [with_reducible assumption; skip])
                | split)
         | skip
       clear_value x)
    | lift_lets -underBinder
    | with_reducible apply Within.ite
    | with_reducible apply updQueue_within (Sub.up hM rfl)
    | with_reducible apply advanceHead_within (Sub.up hM rfl)
    | with_reducible apply faultCore_within (Sub.up hM rfl)
    | (with_reducible apply Within.snd <;> [with_reducible assumption; skip])
    | (with_reducible apply Within.fst <;> [with_reducible assumption; skip])
    | (with_reducible apply Within.fst2 <;> [with_reducible assumption; skip])
    | split

theorem sbIssue_within {M : Nat} {s0 : State} (hM : Sub 0x10 M) (s : State) (c : Nat) (reads writes : List (Fin 3 × Nat × Nat)) (hW : Within M s0 s) : Within M s0 (sbIssue s c reads writes) := by
  unfold sbIssue
  repeat' first
    | with_reducible assumption
    | (intro x
       first
         | (have hx : Within M s0 x := by
              unfold x
              repeat' first
                | with_reducible assumption
                | with_reducible apply updCore_within (Sub.up hM rfl))
         | skip
       clear_value x)
    | lift_lets -underBinder
    | with_reducible apply updCore_within (Sub.up hM rfl)

theorem sbDone_within {M : Nat} {s0 : State} (hM : Sub 0x10 M) (s : State) (c id : Nat) (hW : Within M s0 s) : Within M s0 (sbDone s c id) := by
  unfold sbDone
  repeat' first
    | with_reducible assumption
    | (intro x
       first
         | (have hx : Within M s0 x := by
              unfold x
              repeat' first
                | with_reducible assumption
                | dsimp -zeta only
                | with_reducible apply Within.ite1
                | with_reducible apply Within.ite2
                | with_reducible apply Within.ite
                | with_reducible apply updCore_within (Sub.up hM rfl)
                | (with_reducible apply Within.snd <;> [with_reducible assumption; skip])
                | (with_reducible apply Within.fst <;> [with_reducible assumption; skip])
                | (with_reducible apply Within.fst2 <;> [with_reducible assumption; skip])
                | split)
         | (have hx : Within M s0 x.1 := by
              unfold x
              repeat' first
                | with_reducible assumption
                | dsimp -zeta only
                | with_reducible apply Within.ite1
                | with_reducible apply Within.ite2
                | with_reducible apply Within.ite
                | with_reducible apply updCore_within (Sub.up hM rfl)
                | (with_reducible apply Within.snd <;> [with_reducible assumption; skip])
                | (with_reducible apply Within.fst <;> [with_reducible assumption; skip])
                | (with_reducible apply Within.fst2 <;> [with_reducible assumption; skip])
                | split)
         | (have hx : Within M s0 x.2 := by
              unfold x
              repeat' first
                | with_reducible assumption
                | dsimp -zeta only
                | with_reducible apply Within.ite1
                | with_reducible apply Within.ite2
                | with_reducible apply Within.ite
                | with_reducible apply updCore_within (Sub.up hM rfl)
                | (with_reducible apply Within.snd <;> [with_reducible assumption; skip])
                | (with_reducible apply Within.fst <;> [with_reducible assumption; skip])
                | (with_reducible apply Within.fst2 <;> [with_reducible assumption; skip])
                | split)
         | skip
       clear_value x)
    | lift_lets -underBinder
    | dsimp -zeta only
    | with_reducible apply Within.ite1
    | with_reducible apply Within.ite2
    | with_reducible apply Within.ite
    | with_reducible apply updCore_within (Sub.up hM rfl)
    | (with_reducible apply Within.snd <;> [with_reducible assumption; skip])
    | (with_reducible apply Within.fst <;> [with_reducible assumption; skip])
    | (with_reducible apply Within.fst2 <;> [with_reducible assumption; skip])
    | split

theorem sendClaim_within {M : Nat} {s0 : State} (hM : Sub 0x100000010 M) (s : State) (c : Nat) (hW : Within M s0 s) : Within M s0 (sendClaim s c) := by
  unfold sendClaim
  repeat' first
    | with_reducible assumption
    | (intro x
       first
         | (have hx : Within M s0 x := by
              unfold x
              repeat' first
                | with_reducible assumption
                | with_reducible apply Within.ite
                | with_reducible apply updCore_within (Sub.up hM rfl)
                | with_reducible apply sendChain_within (Sub.up hM rfl)
                | (with_reducible apply Within.snd <;> [with_reducible assumption; skip])
                | (with_reducible apply Within.fst <;> [with_reducible assumption; skip])
                | (with_reducible apply Within.fst2 <;> [with_reducible assumption; skip])
                | split)
         | skip
       clear_value x)
    | lift_lets -underBinder
    | with_reducible apply Within.ite
    | with_reducible apply updCore_within (Sub.up hM rfl)
    | with_reducible apply sendChain_within (Sub.up hM rfl)
    | (with_reducible apply Within.snd <;> [with_reducible assumption; skip])
    | (with_reducible apply Within.fst <;> [with_reducible assumption; skip])
    | (with_reducible apply Within.fst2 <;> [with_reducible assumption; skip])
    | split

theorem outRow_within {M : Nat} {s0 : State} (hM : Sub 0x3100008d3 M) (s : State) (c : Nat) (t : CoreTask) (k a : Nat) (due : Nat × Int) (data : List Byte) (hW : Within M s0 s) : Within M s0 (outRow s c t k a due data) := by
  unfold outRow
  repeat' first
    | with_reducible assumption
    | (intro x
       first
         | (have hx : Within M s0 x := by
              unfold x
              repeat' first
                | with_reducible assumption
                | dsimp -zeta only
                | with_reducible apply Within.ite1
                | with_reducible apply Within.ite2
                | with_reducible apply Within.ite
                | with_reducible apply updCore_within (Sub.up hM rfl)
                | with_reducible apply bumpCore_within (Sub.up hM rfl)
                | with_reducible apply localWrite_within (Sub.up hM rfl)
                | with_reducible apply appendRow_within (Sub.up hM rfl)
                | with_reducible apply useRows_within (Sub.up hM rfl)
                | (with_reducible apply Within.snd <;> [with_reducible assumption; skip])
                | (with_reducible apply Within.fst <;> [with_reducible assumption; skip])
                | (with_reducible apply Within.fst2 <;> [with_reducible assumption; skip])
                | split)
         | (have hx : Within M s0 x.1 := by
              unfold x
              repeat' first
                | with_reducible assumption
                | dsimp -zeta only
                | with_reducible apply Within.ite1
                | with_reducible apply Within.ite2
                | with_reducible apply Within.ite
                | with_reducible apply updCore_within (Sub.up hM rfl)
                | with_reducible apply bumpCore_within (Sub.up hM rfl)
                | with_reducible apply localWrite_within (Sub.up hM rfl)
                | with_reducible apply appendRow_within (Sub.up hM rfl)
                | with_reducible apply useRows_within (Sub.up hM rfl)
                | (with_reducible apply Within.snd <;> [with_reducible assumption; skip])
                | (with_reducible apply Within.fst <;> [with_reducible assumption; skip])
                | (with_reducible apply Within.fst2 <;> [with_reducible assumption; skip])
                | split)
         | (have hx : Within M s0 x.2 := by
              unfold x
              repeat' first
                | with_reducible assumption
                | dsimp -zeta only
                | with_reducible apply Within.ite1
                | with_reducible apply Within.ite2
                | with_reducible apply Within.ite
                | with_reducible apply updCore_within (Sub.up hM rfl)
                | with_reducible apply bumpCore_within (Sub.up hM rfl)
                | with_reducible apply localWrite_within (Sub.up hM rfl)
                | with_reducible apply appendRow_within (Sub.up hM rfl)
                | with_reducible apply useRows_within (Sub.up hM rfl)
                | (with_reducible apply Within.snd <;> [with_reducible assumption; skip])
                | (with_reducible apply Within.fst <;> [with_reducible assumption; skip])
                | (with_reducible apply Within.fst2 <;> [with_reducible assumption; skip])
                | split)
         | skip
       clear_value x)
    | lift_lets -underBinder
    | dsimp -zeta only
    | with_reducible apply Within.ite1
    | with_reducible apply Within.ite2
    | with_reducible apply Within.ite
    | with_reducible apply updCore_within (Sub.up hM rfl)
    | with_reducible apply bumpCore_within (Sub.up hM rfl)
    | with_reducible apply localWrite_within (Sub.up hM rfl)
    | with_reducible apply appendRow_within (Sub.up hM rfl)
    | with_reducible apply useRows_within (Sub.up hM rfl)
    | (with_reducible apply Within.snd <;> [with_reducible assumption; skip])
    | (with_reducible apply Within.fst <;> [with_reducible assumption; skip])
    | (with_reducible apply Within.fst2 <;> [with_reducible assumption; skip])
    | split

theorem toCores_within {M : Nat} {s0 : State} (hM : Sub 0x100000000 M) (s : State) (l : List Nat) (m : Nat → Msg) (hW : Within M s0 s) : Within M s0 (toCores s l m) := by
  unfold toCores
  repeat' first
    | with_reducible assumption
    | with_reducible apply sendChain_within (Sub.up hM rfl)
    | with_reducible refine each_within (fun _ _ _ => ?_) ?_

theorem disarmSlot_within {M : Nat} {s0 : State} (hM : Sub 0x100000000 M) (s : State) (k : Nat) (hW : Within M s0 s) : Within M s0 (disarmSlot s k) := by
  unfold disarmSlot
  repeat' first
    | with_reducible assumption
    | with_reducible apply sendChain_within (Sub.up hM rfl)
    | (with_reducible apply Within.snd <;> [with_reducible assumption; skip])
    | (with_reducible apply Within.fst <;> [with_reducible assumption; skip])
    | (with_reducible apply Within.fst2 <;> [with_reducible assumption; skip])
    | split

theorem countEnd_within {M : Nat} {s0 : State} (hM : Sub 0x80 M) (s : State) (status : Nat) (hW : Within M s0 s) : Within M s0 (countEnd s status) := by
  unfold countEnd
  repeat' first
    | with_reducible assumption
    | (intro x
       first
         | (have hx : Within M s0 x := by
              unfold x
              repeat' first
                | with_reducible assumption
                | dsimp -zeta only
                | with_reducible apply Within.ite1
                | with_reducible apply Within.ite2
                | with_reducible apply Within.ite
                | (with_reducible apply Within.snd <;> [with_reducible assumption; skip])
                | (with_reducible apply Within.fst <;> [with_reducible assumption; skip])
                | (with_reducible apply Within.fst2 <;> [with_reducible assumption; skip])
                | split
                | with_reducible refine Within.hst ?_ (Sub.has hM rfl))
         | (have hx : Within M s0 x.1 := by
              unfold x
              repeat' first
                | with_reducible assumption
                | dsimp -zeta only
                | with_reducible apply Within.ite1
                | with_reducible apply Within.ite2
                | with_reducible apply Within.ite
                | (with_reducible apply Within.snd <;> [with_reducible assumption; skip])
                | (with_reducible apply Within.fst <;> [with_reducible assumption; skip])
                | (with_reducible apply Within.fst2 <;> [with_reducible assumption; skip])
                | split
                | with_reducible refine Within.hst ?_ (Sub.has hM rfl))
         | (have hx : Within M s0 x.2 := by
              unfold x
              repeat' first
                | with_reducible assumption
                | dsimp -zeta only
                | with_reducible apply Within.ite1
                | with_reducible apply Within.ite2
                | with_reducible apply Within.ite
                | (with_reducible apply Within.snd <;> [with_reducible assumption; skip])
                | (with_reducible apply Within.fst <;> [with_reducible assumption; skip])
                | (with_reducible apply Within.fst2 <;> [with_reducible assumption; skip])
                | split
                | with_reducible refine Within.hst ?_ (Sub.has hM rfl))
         | skip
       clear_value x)
    | lift_lets -underBinder
    | dsimp -zeta only
    | with_reducible apply Within.ite1
    | with_reducible apply Within.ite2
    | with_reducible apply Within.ite
    | (with_reducible apply Within.snd <;> [with_reducible assumption; skip])
    | (with_reducible apply Within.fst <;> [with_reducible assumption; skip])
    | (with_reducible apply Within.fst2 <;> [with_reducible assumption; skip])
    | split
    | with_reducible refine Within.hst ?_ (Sub.has hM rfl)

theorem dropWaits_within {M : Nat} {s0 : State} (hM : Sub 0x10 M) (s : State) (k : Nat) (hW : Within M s0 s) : Within M s0 (dropWaits s k) := by
  unfold dropWaits
  repeat' first
    | with_reducible assumption
    | (intro x
       first
         | (have hx : Within M s0 x := by
              unfold x
              repeat' first
                | with_reducible assumption
                | dsimp -zeta only
                | with_reducible apply Within.ite1
                | with_reducible apply Within.ite2
                | with_reducible apply Within.ite
                | with_reducible apply updCore_within (Sub.up hM rfl)
                | with_reducible refine each_within (fun _ _ _ => ?_) ?_
                | (with_reducible apply Within.snd <;> [with_reducible assumption; skip])
                | (with_reducible apply Within.fst <;> [with_reducible assumption; skip])
                | (with_reducible apply Within.fst2 <;> [with_reducible assumption; skip])
                | split)
         | (have hx : Within M s0 x.1 := by
              unfold x
              repeat' first
                | with_reducible assumption
                | dsimp -zeta only
                | with_reducible apply Within.ite1
                | with_reducible apply Within.ite2
                | with_reducible apply Within.ite
                | with_reducible apply updCore_within (Sub.up hM rfl)
                | with_reducible refine each_within (fun _ _ _ => ?_) ?_
                | (with_reducible apply Within.snd <;> [with_reducible assumption; skip])
                | (with_reducible apply Within.fst <;> [with_reducible assumption; skip])
                | (with_reducible apply Within.fst2 <;> [with_reducible assumption; skip])
                | split)
         | (have hx : Within M s0 x.2 := by
              unfold x
              repeat' first
                | with_reducible assumption
                | dsimp -zeta only
                | with_reducible apply Within.ite1
                | with_reducible apply Within.ite2
                | with_reducible apply Within.ite
                | with_reducible apply updCore_within (Sub.up hM rfl)
                | with_reducible refine each_within (fun _ _ _ => ?_) ?_
                | (with_reducible apply Within.snd <;> [with_reducible assumption; skip])
                | (with_reducible apply Within.fst <;> [with_reducible assumption; skip])
                | (with_reducible apply Within.fst2 <;> [with_reducible assumption; skip])
                | split)
         | skip
       clear_value x)
    | lift_lets -underBinder
    | dsimp -zeta only
    | with_reducible apply Within.ite1
    | with_reducible apply Within.ite2
    | with_reducible apply Within.ite
    | with_reducible apply updCore_within (Sub.up hM rfl)
    | with_reducible refine each_within (fun _ _ _ => ?_) ?_
    | (with_reducible apply Within.snd <;> [with_reducible assumption; skip])
    | (with_reducible apply Within.fst <;> [with_reducible assumption; skip])
    | (with_reducible apply Within.fst2 <;> [with_reducible assumption; skip])
    | split

theorem endTask_within {M : Nat} {s0 : State} (hM : Sub 0x100000090 M) (s : State) (k status die : Nat) (skip : Option Nat) (cancel : Bool) (hW : Within M s0 s) : Within M s0 (endTask s k status die skip cancel) := by
  unfold endTask
  repeat' first
    | with_reducible assumption
    | (intro x
       first
         | (have hx : Within M s0 x := by
              unfold x
              repeat' first
                | with_reducible assumption
                | dsimp -zeta only
                | with_reducible apply Within.ite1
                | with_reducible apply Within.ite2
                | with_reducible apply Within.ite
                | with_reducible apply setSlot_within (Sub.up hM rfl)
                | with_reducible apply toCores_within (Sub.up hM rfl)
                | with_reducible apply disarmSlot_within (Sub.up hM rfl)
                | with_reducible apply countEnd_within (Sub.up hM rfl)
                | with_reducible apply dropWaits_within (Sub.up hM rfl)
                | with_reducible refine Within.fold (fun _ _ _ => ?_) ?_
                | with_reducible refine Within.fold1 (fun _ _ _ => ?_) ?_
                | with_reducible refine Within.fold2 (fun _ _ _ => ?_) ?_
                | (with_reducible apply Within.snd <;> [with_reducible assumption; skip])
                | (with_reducible apply Within.fst <;> [with_reducible assumption; skip])
                | (with_reducible apply Within.fst2 <;> [with_reducible assumption; skip])
                | split)
         | (have hx : Within M s0 x.1 := by
              unfold x
              repeat' first
                | with_reducible assumption
                | dsimp -zeta only
                | with_reducible apply Within.ite1
                | with_reducible apply Within.ite2
                | with_reducible apply Within.ite
                | with_reducible apply setSlot_within (Sub.up hM rfl)
                | with_reducible apply toCores_within (Sub.up hM rfl)
                | with_reducible apply disarmSlot_within (Sub.up hM rfl)
                | with_reducible apply countEnd_within (Sub.up hM rfl)
                | with_reducible apply dropWaits_within (Sub.up hM rfl)
                | with_reducible refine Within.fold (fun _ _ _ => ?_) ?_
                | with_reducible refine Within.fold1 (fun _ _ _ => ?_) ?_
                | with_reducible refine Within.fold2 (fun _ _ _ => ?_) ?_
                | (with_reducible apply Within.snd <;> [with_reducible assumption; skip])
                | (with_reducible apply Within.fst <;> [with_reducible assumption; skip])
                | (with_reducible apply Within.fst2 <;> [with_reducible assumption; skip])
                | split)
         | (have hx : Within M s0 x.2 := by
              unfold x
              repeat' first
                | with_reducible assumption
                | dsimp -zeta only
                | with_reducible apply Within.ite1
                | with_reducible apply Within.ite2
                | with_reducible apply Within.ite
                | with_reducible apply setSlot_within (Sub.up hM rfl)
                | with_reducible apply toCores_within (Sub.up hM rfl)
                | with_reducible apply disarmSlot_within (Sub.up hM rfl)
                | with_reducible apply countEnd_within (Sub.up hM rfl)
                | with_reducible apply dropWaits_within (Sub.up hM rfl)
                | with_reducible refine Within.fold (fun _ _ _ => ?_) ?_
                | with_reducible refine Within.fold1 (fun _ _ _ => ?_) ?_
                | with_reducible refine Within.fold2 (fun _ _ _ => ?_) ?_
                | (with_reducible apply Within.snd <;> [with_reducible assumption; skip])
                | (with_reducible apply Within.fst <;> [with_reducible assumption; skip])
                | (with_reducible apply Within.fst2 <;> [with_reducible assumption; skip])
                | split)
         | skip
       clear_value x)
    | lift_lets -underBinder
    | dsimp -zeta only
    | with_reducible apply Within.ite1
    | with_reducible apply Within.ite2
    | with_reducible apply Within.ite
    | with_reducible apply setSlot_within (Sub.up hM rfl)
    | with_reducible apply toCores_within (Sub.up hM rfl)
    | with_reducible apply disarmSlot_within (Sub.up hM rfl)
    | with_reducible apply countEnd_within (Sub.up hM rfl)
    | with_reducible apply dropWaits_within (Sub.up hM rfl)
    | with_reducible refine Within.fold (fun _ _ _ => ?_) ?_
    | with_reducible refine Within.fold1 (fun _ _ _ => ?_) ?_
    | with_reducible refine Within.fold2 (fun _ _ _ => ?_) ?_
    | (with_reducible apply Within.snd <;> [with_reducible assumption; skip])
    | (with_reducible apply Within.fst <;> [with_reducible assumption; skip])
    | (with_reducible apply Within.fst2 <;> [with_reducible assumption; skip])
    | split

theorem finishCore_within {M : Nat} {s0 : State} (hM : Sub 0x3100000d3 M) (s : State) (c : Nat) (hW : Within M s0 s) : Within M s0 (finishCore s c) := by
  unfold finishCore
  repeat' first
    | with_reducible assumption
    | (intro x
       first
         | (have hx : Within M s0 x := by
              unfold x
              repeat' first
                | with_reducible assumption
                | dsimp -zeta only
                | with_reducible apply Within.ite1
                | with_reducible apply Within.ite2
                | with_reducible apply Within.ite
                | with_reducible apply updCore_within (Sub.up hM rfl)
                | with_reducible apply sendChain_within (Sub.up hM rfl)
                | with_reducible apply closeWin_within (Sub.up hM rfl)
                | with_reducible apply keepPackets_within (Sub.up hM rfl)
                | with_reducible apply closeTaskWindows_within (Sub.up hM rfl)
                | with_reducible refine each_within (fun _ _ _ => ?_) ?_
                | (with_reducible apply Within.snd <;> [with_reducible assumption; skip])
                | (with_reducible apply Within.fst <;> [with_reducible assumption; skip])
                | (with_reducible apply Within.fst2 <;> [with_reducible assumption; skip])
                | split)
         | (have hx : Within M s0 x.1 := by
              unfold x
              repeat' first
                | with_reducible assumption
                | dsimp -zeta only
                | with_reducible apply Within.ite1
                | with_reducible apply Within.ite2
                | with_reducible apply Within.ite
                | with_reducible apply updCore_within (Sub.up hM rfl)
                | with_reducible apply sendChain_within (Sub.up hM rfl)
                | with_reducible apply closeWin_within (Sub.up hM rfl)
                | with_reducible apply keepPackets_within (Sub.up hM rfl)
                | with_reducible apply closeTaskWindows_within (Sub.up hM rfl)
                | with_reducible refine each_within (fun _ _ _ => ?_) ?_
                | (with_reducible apply Within.snd <;> [with_reducible assumption; skip])
                | (with_reducible apply Within.fst <;> [with_reducible assumption; skip])
                | (with_reducible apply Within.fst2 <;> [with_reducible assumption; skip])
                | split)
         | (have hx : Within M s0 x.2 := by
              unfold x
              repeat' first
                | with_reducible assumption
                | dsimp -zeta only
                | with_reducible apply Within.ite1
                | with_reducible apply Within.ite2
                | with_reducible apply Within.ite
                | with_reducible apply updCore_within (Sub.up hM rfl)
                | with_reducible apply sendChain_within (Sub.up hM rfl)
                | with_reducible apply closeWin_within (Sub.up hM rfl)
                | with_reducible apply keepPackets_within (Sub.up hM rfl)
                | with_reducible apply closeTaskWindows_within (Sub.up hM rfl)
                | with_reducible refine each_within (fun _ _ _ => ?_) ?_
                | (with_reducible apply Within.snd <;> [with_reducible assumption; skip])
                | (with_reducible apply Within.fst <;> [with_reducible assumption; skip])
                | (with_reducible apply Within.fst2 <;> [with_reducible assumption; skip])
                | split)
         | skip
       clear_value x)
    | lift_lets -underBinder
    | dsimp -zeta only
    | with_reducible apply Within.ite1
    | with_reducible apply Within.ite2
    | with_reducible apply Within.ite
    | with_reducible apply updCore_within (Sub.up hM rfl)
    | with_reducible apply sendChain_within (Sub.up hM rfl)
    | with_reducible apply closeWin_within (Sub.up hM rfl)
    | with_reducible apply keepPackets_within (Sub.up hM rfl)
    | with_reducible apply closeTaskWindows_within (Sub.up hM rfl)
    | with_reducible refine each_within (fun _ _ _ => ?_) ?_
    | (with_reducible apply Within.snd <;> [with_reducible assumption; skip])
    | (with_reducible apply Within.fst <;> [with_reducible assumption; skip])
    | (with_reducible apply Within.fst2 <;> [with_reducible assumption; skip])
    | split

theorem emptySums_within {M : Nat} {s0 : State} (hM : Sub 0x1 M) (s : State) (c r : Nat) (hW : Within M s0 s) : Within M s0 (emptySums s c r) := by
  unfold emptySums
  repeat' first
    | with_reducible assumption
    | (intro x
       first
         | (have hx : Within M s0 x := by
              unfold x
              repeat' first
                | with_reducible assumption
                | dsimp -zeta only
                | with_reducible apply Within.ite1
                | with_reducible apply Within.ite2
                | with_reducible apply Within.ite
                | with_reducible apply setReg_within (Sub.up hM rfl)
                | (with_reducible apply Within.snd <;> [with_reducible assumption; skip])
                | (with_reducible apply Within.fst <;> [with_reducible assumption; skip])
                | (with_reducible apply Within.fst2 <;> [with_reducible assumption; skip])
                | split)
         | (have hx : Within M s0 x.1 := by
              unfold x
              repeat' first
                | with_reducible assumption
                | dsimp -zeta only
                | with_reducible apply Within.ite1
                | with_reducible apply Within.ite2
                | with_reducible apply Within.ite
                | with_reducible apply setReg_within (Sub.up hM rfl)
                | (with_reducible apply Within.snd <;> [with_reducible assumption; skip])
                | (with_reducible apply Within.fst <;> [with_reducible assumption; skip])
                | (with_reducible apply Within.fst2 <;> [with_reducible assumption; skip])
                | split)
         | (have hx : Within M s0 x.2 := by
              unfold x
              repeat' first
                | with_reducible assumption
                | dsimp -zeta only
                | with_reducible apply Within.ite1
                | with_reducible apply Within.ite2
                | with_reducible apply Within.ite
                | with_reducible apply setReg_within (Sub.up hM rfl)
                | (with_reducible apply Within.snd <;> [with_reducible assumption; skip])
                | (with_reducible apply Within.fst <;> [with_reducible assumption; skip])
                | (with_reducible apply Within.fst2 <;> [with_reducible assumption; skip])
                | split)
         | skip
       clear_value x)
    | lift_lets -underBinder
    | dsimp -zeta only
    | with_reducible apply Within.ite1
    | with_reducible apply Within.ite2
    | with_reducible apply Within.ite
    | with_reducible apply setReg_within (Sub.up hM rfl)
    | (with_reducible apply Within.snd <;> [with_reducible assumption; skip])
    | (with_reducible apply Within.fst <;> [with_reducible assumption; skip])
    | (with_reducible apply Within.fst2 <;> [with_reducible assumption; skip])
    | split

theorem commitCore_within {M : Nat} {s0 : State} (hM : Sub 0x300000851 M) (s : State) (c : Nat) (hW : Within M s0 s) : Within M s0 (commitCore s c) := by
  unfold commitCore
  repeat' first
    | with_reducible assumption
    | (intro x
       first
         | (have hx : Within M s0 x := by
              unfold x
              repeat' first
                | with_reducible assumption
                | dsimp -zeta only
                | with_reducible apply Within.ite1
                | with_reducible apply Within.ite2
                | with_reducible apply Within.ite
                | with_reducible apply setReg_within (Sub.up hM rfl)
                | with_reducible apply updCore_within (Sub.up hM rfl)
                | with_reducible apply bumpCore_within (Sub.up hM rfl)
                | with_reducible apply updQueue_within (Sub.up hM rfl)
                | with_reducible apply emit_within (Sub.up hM rfl)
                | with_reducible apply freeRows_within (Sub.up hM rfl)
                | with_reducible apply keepPackets_within (Sub.up hM rfl)
                | with_reducible apply markGroup_within (Sub.up hM rfl)
                | with_reducible apply emptySums_within (Sub.up hM rfl)
                | with_reducible refine each_within (fun _ _ _ => ?_) ?_
                | (with_reducible apply Within.snd <;> [with_reducible assumption; skip])
                | (with_reducible apply Within.fst <;> [with_reducible assumption; skip])
                | (with_reducible apply Within.fst2 <;> [with_reducible assumption; skip])
                | split)
         | (have hx : Within M s0 x.1 := by
              unfold x
              repeat' first
                | with_reducible assumption
                | dsimp -zeta only
                | with_reducible apply Within.ite1
                | with_reducible apply Within.ite2
                | with_reducible apply Within.ite
                | with_reducible apply setReg_within (Sub.up hM rfl)
                | with_reducible apply updCore_within (Sub.up hM rfl)
                | with_reducible apply bumpCore_within (Sub.up hM rfl)
                | with_reducible apply updQueue_within (Sub.up hM rfl)
                | with_reducible apply emit_within (Sub.up hM rfl)
                | with_reducible apply freeRows_within (Sub.up hM rfl)
                | with_reducible apply keepPackets_within (Sub.up hM rfl)
                | with_reducible apply markGroup_within (Sub.up hM rfl)
                | with_reducible apply emptySums_within (Sub.up hM rfl)
                | with_reducible refine each_within (fun _ _ _ => ?_) ?_
                | (with_reducible apply Within.snd <;> [with_reducible assumption; skip])
                | (with_reducible apply Within.fst <;> [with_reducible assumption; skip])
                | (with_reducible apply Within.fst2 <;> [with_reducible assumption; skip])
                | split)
         | (have hx : Within M s0 x.2 := by
              unfold x
              repeat' first
                | with_reducible assumption
                | dsimp -zeta only
                | with_reducible apply Within.ite1
                | with_reducible apply Within.ite2
                | with_reducible apply Within.ite
                | with_reducible apply setReg_within (Sub.up hM rfl)
                | with_reducible apply updCore_within (Sub.up hM rfl)
                | with_reducible apply bumpCore_within (Sub.up hM rfl)
                | with_reducible apply updQueue_within (Sub.up hM rfl)
                | with_reducible apply emit_within (Sub.up hM rfl)
                | with_reducible apply freeRows_within (Sub.up hM rfl)
                | with_reducible apply keepPackets_within (Sub.up hM rfl)
                | with_reducible apply markGroup_within (Sub.up hM rfl)
                | with_reducible apply emptySums_within (Sub.up hM rfl)
                | with_reducible refine each_within (fun _ _ _ => ?_) ?_
                | (with_reducible apply Within.snd <;> [with_reducible assumption; skip])
                | (with_reducible apply Within.fst <;> [with_reducible assumption; skip])
                | (with_reducible apply Within.fst2 <;> [with_reducible assumption; skip])
                | split)
         | skip
       clear_value x)
    | lift_lets -underBinder
    | dsimp -zeta only
    | with_reducible apply Within.ite1
    | with_reducible apply Within.ite2
    | with_reducible apply Within.ite
    | with_reducible apply setReg_within (Sub.up hM rfl)
    | with_reducible apply updCore_within (Sub.up hM rfl)
    | with_reducible apply bumpCore_within (Sub.up hM rfl)
    | with_reducible apply updQueue_within (Sub.up hM rfl)
    | with_reducible apply emit_within (Sub.up hM rfl)
    | with_reducible apply freeRows_within (Sub.up hM rfl)
    | with_reducible apply keepPackets_within (Sub.up hM rfl)
    | with_reducible apply markGroup_within (Sub.up hM rfl)
    | with_reducible apply emptySums_within (Sub.up hM rfl)
    | with_reducible refine each_within (fun _ _ _ => ?_) ?_
    | (with_reducible apply Within.snd <;> [with_reducible assumption; skip])
    | (with_reducible apply Within.fst <;> [with_reducible assumption; skip])
    | (with_reducible apply Within.fst2 <;> [with_reducible assumption; skip])
    | split

theorem commitSpan_within {M : Nat} {s0 : State} (hM : Sub 0x3100008d3 M) (s : State) (k : Nat) (hW : Within M s0 s) : Within M s0 (commitSpan s k) := by
  unfold commitSpan
  repeat' first
    | with_reducible assumption
    | (intro x
       first
         | (have hx : Within M s0 x := by
              unfold x
              repeat' first
                | with_reducible assumption
                | with_reducible apply Within.ite
                | with_reducible apply setSlot_within (Sub.up hM rfl)
                | with_reducible apply sendChain_within (Sub.up hM rfl)
                | with_reducible apply toCores_within (Sub.up hM rfl)
                | with_reducible apply finishCore_within (Sub.up hM rfl)
                | with_reducible apply commitCore_within (Sub.up hM rfl)
                | with_reducible refine each_within (fun _ _ _ => ?_) ?_
                | (with_reducible apply Within.snd <;> [with_reducible assumption; skip])
                | (with_reducible apply Within.fst <;> [with_reducible assumption; skip])
                | (with_reducible apply Within.fst2 <;> [with_reducible assumption; skip])
                | split)
         | skip
       clear_value x)
    | lift_lets -underBinder
    | with_reducible apply Within.ite
    | with_reducible apply setSlot_within (Sub.up hM rfl)
    | with_reducible apply sendChain_within (Sub.up hM rfl)
    | with_reducible apply toCores_within (Sub.up hM rfl)
    | with_reducible apply finishCore_within (Sub.up hM rfl)
    | with_reducible apply commitCore_within (Sub.up hM rfl)
    | with_reducible refine each_within (fun _ _ _ => ?_) ?_
    | (with_reducible apply Within.snd <;> [with_reducible assumption; skip])
    | (with_reducible apply Within.fst <;> [with_reducible assumption; skip])
    | (with_reducible apply Within.fst2 <;> [with_reducible assumption; skip])
    | split

theorem tryCommit_within {M : Nat} {s0 : State} (hM : Sub 0x3100008d3 M) (s : State) (k : Nat) (hW : Within M s0 s) : Within M s0 (tryCommit s k) := by
  unfold tryCommit
  repeat' first
    | with_reducible assumption
    | (intro x
       first
         | (have hx : Within M s0 x := by
              unfold x
              repeat' first
                | with_reducible assumption
                | with_reducible apply Within.ite
                | with_reducible apply commitSpan_within (Sub.up hM rfl))
         | skip
       clear_value x)
    | lift_lets -underBinder
    | with_reducible apply Within.ite
    | with_reducible apply commitSpan_within (Sub.up hM rfl)

theorem reportSpan_within {M : Nat} {s0 : State} (hM : Sub 0x100000010 M) (s : State) (c : Nat) (hW : Within M s0 s) : Within M s0 (reportSpan s c) := by
  unfold reportSpan
  repeat' first
    | with_reducible assumption
    | (intro x
       first
         | (have hx : Within M s0 x := by
              unfold x
              repeat' first
                | with_reducible assumption
                | dsimp -zeta only
                | with_reducible apply Within.ite1
                | with_reducible apply Within.ite2
                | with_reducible apply Within.ite
                | with_reducible apply updCore_within (Sub.up hM rfl)
                | with_reducible apply sendChain_within (Sub.up hM rfl)
                | (with_reducible apply Within.snd <;> [with_reducible assumption; skip])
                | (with_reducible apply Within.fst <;> [with_reducible assumption; skip])
                | (with_reducible apply Within.fst2 <;> [with_reducible assumption; skip])
                | split)
         | (have hx : Within M s0 x.1 := by
              unfold x
              repeat' first
                | with_reducible assumption
                | dsimp -zeta only
                | with_reducible apply Within.ite1
                | with_reducible apply Within.ite2
                | with_reducible apply Within.ite
                | with_reducible apply updCore_within (Sub.up hM rfl)
                | with_reducible apply sendChain_within (Sub.up hM rfl)
                | (with_reducible apply Within.snd <;> [with_reducible assumption; skip])
                | (with_reducible apply Within.fst <;> [with_reducible assumption; skip])
                | (with_reducible apply Within.fst2 <;> [with_reducible assumption; skip])
                | split)
         | (have hx : Within M s0 x.2 := by
              unfold x
              repeat' first
                | with_reducible assumption
                | dsimp -zeta only
                | with_reducible apply Within.ite1
                | with_reducible apply Within.ite2
                | with_reducible apply Within.ite
                | with_reducible apply updCore_within (Sub.up hM rfl)
                | with_reducible apply sendChain_within (Sub.up hM rfl)
                | (with_reducible apply Within.snd <;> [with_reducible assumption; skip])
                | (with_reducible apply Within.fst <;> [with_reducible assumption; skip])
                | (with_reducible apply Within.fst2 <;> [with_reducible assumption; skip])
                | split)
         | skip
       clear_value x)
    | lift_lets -underBinder
    | dsimp -zeta only
    | with_reducible apply Within.ite1
    | with_reducible apply Within.ite2
    | with_reducible apply Within.ite
    | with_reducible apply updCore_within (Sub.up hM rfl)
    | with_reducible apply sendChain_within (Sub.up hM rfl)
    | (with_reducible apply Within.snd <;> [with_reducible assumption; skip])
    | (with_reducible apply Within.fst <;> [with_reducible assumption; skip])
    | (with_reducible apply Within.fst2 <;> [with_reducible assumption; skip])
    | split

theorem ovfAlloc_within {M : Nat} {s0 : State} (hM : Sub 0x10 M) {s u : State} {c base rows a : Nat}
    (e : ovfAlloc s c base rows = some (a, u)) (h : Within M s0 s) : Within M s0 u := by
  unfold ovfAlloc at e
  obtain ⟨i, -, e⟩ := Option.map_eq_some_iff.mp e
  cases e; exact updCore_within (Sub.up hM rfl) s c _ h

theorem ovfFree_within {M : Nat} {s0 : State} (hM : Sub 0x10 M) (s : State) (c base : Nat) (gone : List Nat) (hW : Within M s0 s) : Within M s0 (ovfFree s c base gone) := by
  unfold ovfFree
  repeat' first
    | with_reducible assumption
    | (intro x
       first
         | (have hx : Within M s0 x := by
              unfold x
              repeat' first
                | with_reducible assumption
                | dsimp -zeta only
                | with_reducible apply Within.ite1
                | with_reducible apply Within.ite2
                | with_reducible apply Within.ite
                | with_reducible apply updCore_within (Sub.up hM rfl)
                | (with_reducible apply Within.snd <;> [with_reducible assumption; skip])
                | (with_reducible apply Within.fst <;> [with_reducible assumption; skip])
                | (with_reducible apply Within.fst2 <;> [with_reducible assumption; skip])
                | split)
         | (have hx : Within M s0 x.1 := by
              unfold x
              repeat' first
                | with_reducible assumption
                | dsimp -zeta only
                | with_reducible apply Within.ite1
                | with_reducible apply Within.ite2
                | with_reducible apply Within.ite
                | with_reducible apply updCore_within (Sub.up hM rfl)
                | (with_reducible apply Within.snd <;> [with_reducible assumption; skip])
                | (with_reducible apply Within.fst <;> [with_reducible assumption; skip])
                | (with_reducible apply Within.fst2 <;> [with_reducible assumption; skip])
                | split)
         | (have hx : Within M s0 x.2 := by
              unfold x
              repeat' first
                | with_reducible assumption
                | dsimp -zeta only
                | with_reducible apply Within.ite1
                | with_reducible apply Within.ite2
                | with_reducible apply Within.ite
                | with_reducible apply updCore_within (Sub.up hM rfl)
                | (with_reducible apply Within.snd <;> [with_reducible assumption; skip])
                | (with_reducible apply Within.fst <;> [with_reducible assumption; skip])
                | (with_reducible apply Within.fst2 <;> [with_reducible assumption; skip])
                | split)
         | skip
       clear_value x)
    | lift_lets -underBinder
    | dsimp -zeta only
    | with_reducible apply Within.ite1
    | with_reducible apply Within.ite2
    | with_reducible apply Within.ite
    | with_reducible apply updCore_within (Sub.up hM rfl)
    | (with_reducible apply Within.snd <;> [with_reducible assumption; skip])
    | (with_reducible apply Within.fst <;> [with_reducible assumption; skip])
    | (with_reducible apply Within.fst2 <;> [with_reducible assumption; skip])
    | split

theorem holdPort_within {M : Nat} {s0 : State} (hM : Sub 0x11 M) (s : State) (c n : Nat) (hW : Within M s0 s) : Within M s0 (holdPort s c n) := by
  unfold holdPort
  repeat' first
    | with_reducible assumption
    | (intro x
       first
         | (have hx : Within M s0 x := by
              unfold x
              repeat' first
                | with_reducible assumption
                | dsimp -zeta only
                | with_reducible apply Within.ite1
                | with_reducible apply Within.ite2
                | with_reducible apply Within.ite
                | with_reducible apply updCore_within (Sub.up hM rfl)
                | with_reducible apply bumpCore_within (Sub.up hM rfl)
                | (with_reducible apply Within.snd <;> [with_reducible assumption; skip])
                | (with_reducible apply Within.fst <;> [with_reducible assumption; skip])
                | (with_reducible apply Within.fst2 <;> [with_reducible assumption; skip])
                | split)
         | (have hx : Within M s0 x.1 := by
              unfold x
              repeat' first
                | with_reducible assumption
                | dsimp -zeta only
                | with_reducible apply Within.ite1
                | with_reducible apply Within.ite2
                | with_reducible apply Within.ite
                | with_reducible apply updCore_within (Sub.up hM rfl)
                | with_reducible apply bumpCore_within (Sub.up hM rfl)
                | (with_reducible apply Within.snd <;> [with_reducible assumption; skip])
                | (with_reducible apply Within.fst <;> [with_reducible assumption; skip])
                | (with_reducible apply Within.fst2 <;> [with_reducible assumption; skip])
                | split)
         | (have hx : Within M s0 x.2 := by
              unfold x
              repeat' first
                | with_reducible assumption
                | dsimp -zeta only
                | with_reducible apply Within.ite1
                | with_reducible apply Within.ite2
                | with_reducible apply Within.ite
                | with_reducible apply updCore_within (Sub.up hM rfl)
                | with_reducible apply bumpCore_within (Sub.up hM rfl)
                | (with_reducible apply Within.snd <;> [with_reducible assumption; skip])
                | (with_reducible apply Within.fst <;> [with_reducible assumption; skip])
                | (with_reducible apply Within.fst2 <;> [with_reducible assumption; skip])
                | split)
         | skip
       clear_value x)
    | lift_lets -underBinder
    | dsimp -zeta only
    | with_reducible apply Within.ite1
    | with_reducible apply Within.ite2
    | with_reducible apply Within.ite
    | with_reducible apply updCore_within (Sub.up hM rfl)
    | with_reducible apply bumpCore_within (Sub.up hM rfl)
    | (with_reducible apply Within.snd <;> [with_reducible assumption; skip])
    | (with_reducible apply Within.fst <;> [with_reducible assumption; skip])
    | (with_reducible apply Within.fst2 <;> [with_reducible assumption; skip])
    | split

theorem tagsWithin_within {M : Nat} {s0 : State} (hM : Sub 0x11 M) (s : State) (c n : Nat) (write : Bool) (l : List Nat) (hW : Within M s0 s) : Within M s0 (tagsWithin s c n write l) := by
  unfold tagsWithin
  repeat' first
    | with_reducible assumption
    | (intro x
       first
         | (have hx : Within M s0 x := by
              unfold x
              repeat' first
                | with_reducible assumption
                | dsimp -zeta only
                | with_reducible apply Within.ite1
                | with_reducible apply Within.ite2
                | with_reducible apply Within.ite
                | with_reducible apply bumpCore_within (Sub.up hM rfl)
                | with_reducible apply holdPort_within (Sub.up hM rfl)
                | (with_reducible apply Within.snd <;> [with_reducible assumption; skip])
                | (with_reducible apply Within.fst <;> [with_reducible assumption; skip])
                | (with_reducible apply Within.fst2 <;> [with_reducible assumption; skip])
                | split)
         | (have hx : Within M s0 x.1 := by
              unfold x
              repeat' first
                | with_reducible assumption
                | dsimp -zeta only
                | with_reducible apply Within.ite1
                | with_reducible apply Within.ite2
                | with_reducible apply Within.ite
                | with_reducible apply bumpCore_within (Sub.up hM rfl)
                | with_reducible apply holdPort_within (Sub.up hM rfl)
                | (with_reducible apply Within.snd <;> [with_reducible assumption; skip])
                | (with_reducible apply Within.fst <;> [with_reducible assumption; skip])
                | (with_reducible apply Within.fst2 <;> [with_reducible assumption; skip])
                | split)
         | (have hx : Within M s0 x.2 := by
              unfold x
              repeat' first
                | with_reducible assumption
                | dsimp -zeta only
                | with_reducible apply Within.ite1
                | with_reducible apply Within.ite2
                | with_reducible apply Within.ite
                | with_reducible apply bumpCore_within (Sub.up hM rfl)
                | with_reducible apply holdPort_within (Sub.up hM rfl)
                | (with_reducible apply Within.snd <;> [with_reducible assumption; skip])
                | (with_reducible apply Within.fst <;> [with_reducible assumption; skip])
                | (with_reducible apply Within.fst2 <;> [with_reducible assumption; skip])
                | split)
         | skip
       clear_value x)
    | lift_lets -underBinder
    | dsimp -zeta only
    | with_reducible apply Within.ite1
    | with_reducible apply Within.ite2
    | with_reducible apply Within.ite
    | with_reducible apply bumpCore_within (Sub.up hM rfl)
    | with_reducible apply holdPort_within (Sub.up hM rfl)
    | (with_reducible apply Within.snd <;> [with_reducible assumption; skip])
    | (with_reducible apply Within.fst <;> [with_reducible assumption; skip])
    | (with_reducible apply Within.fst2 <;> [with_reducible assumption; skip])
    | split

theorem ovfFull_within {M : Nat} {s0 : State} (hM : Sub 0x3100008d3 M) (s : State) (c : Nat) (hW : Within M s0 s) : Within M s0 (ovfFull s c) := by
  unfold ovfFull
  repeat' first
    | with_reducible assumption
    | (intro x
       first
         | (have hx : Within M s0 x := by
              unfold x
              repeat' first
                | with_reducible assumption
                | dsimp -zeta only
                | with_reducible apply Within.ite1
                | with_reducible apply Within.ite2
                | with_reducible apply Within.ite
                | with_reducible apply faultCore_within (Sub.up hM rfl)
                | (with_reducible apply Within.snd <;> [with_reducible assumption; skip])
                | (with_reducible apply Within.fst <;> [with_reducible assumption; skip])
                | (with_reducible apply Within.fst2 <;> [with_reducible assumption; skip])
                | split)
         | (have hx : Within M s0 x.1 := by
              unfold x
              repeat' first
                | with_reducible assumption
                | dsimp -zeta only
                | with_reducible apply Within.ite1
                | with_reducible apply Within.ite2
                | with_reducible apply Within.ite
                | with_reducible apply faultCore_within (Sub.up hM rfl)
                | (with_reducible apply Within.snd <;> [with_reducible assumption; skip])
                | (with_reducible apply Within.fst <;> [with_reducible assumption; skip])
                | (with_reducible apply Within.fst2 <;> [with_reducible assumption; skip])
                | split)
         | (have hx : Within M s0 x.2 := by
              unfold x
              repeat' first
                | with_reducible assumption
                | dsimp -zeta only
                | with_reducible apply Within.ite1
                | with_reducible apply Within.ite2
                | with_reducible apply Within.ite
                | with_reducible apply faultCore_within (Sub.up hM rfl)
                | (with_reducible apply Within.snd <;> [with_reducible assumption; skip])
                | (with_reducible apply Within.fst <;> [with_reducible assumption; skip])
                | (with_reducible apply Within.fst2 <;> [with_reducible assumption; skip])
                | split)
         | skip
       clear_value x)
    | lift_lets -underBinder
    | dsimp -zeta only
    | with_reducible apply Within.ite1
    | with_reducible apply Within.ite2
    | with_reducible apply Within.ite
    | with_reducible apply faultCore_within (Sub.up hM rfl)
    | (with_reducible apply Within.snd <;> [with_reducible assumption; skip])
    | (with_reducible apply Within.fst <;> [with_reducible assumption; skip])
    | (with_reducible apply Within.fst2 <;> [with_reducible assumption; skip])
    | split

theorem endEpisode_within {M : Nat} {s0 : State} (hM : Sub 0x310000091 M) (s : State) (c : Nat) (st : Stall) (hW : Within M s0 s) : Within M s0 (endEpisode s c st) := by
  unfold endEpisode
  repeat' first
    | with_reducible assumption
    | (intro x
       first
         | (have hx : Within M s0 x := by
              unfold x
              repeat' first
                | with_reducible assumption
                | dsimp -zeta only
                | with_reducible apply Within.ite1
                | with_reducible apply Within.ite2
                | with_reducible apply Within.ite
                | with_reducible apply updCore_within (Sub.up hM rfl)
                | with_reducible apply bumpCore_within (Sub.up hM rfl)
                | with_reducible apply raise_within (Sub.up hM rfl)
                | (with_reducible apply Within.snd <;> [with_reducible assumption; skip])
                | (with_reducible apply Within.fst <;> [with_reducible assumption; skip])
                | (with_reducible apply Within.fst2 <;> [with_reducible assumption; skip])
                | split)
         | (have hx : Within M s0 x.1 := by
              unfold x
              repeat' first
                | with_reducible assumption
                | dsimp -zeta only
                | with_reducible apply Within.ite1
                | with_reducible apply Within.ite2
                | with_reducible apply Within.ite
                | with_reducible apply updCore_within (Sub.up hM rfl)
                | with_reducible apply bumpCore_within (Sub.up hM rfl)
                | with_reducible apply raise_within (Sub.up hM rfl)
                | (with_reducible apply Within.snd <;> [with_reducible assumption; skip])
                | (with_reducible apply Within.fst <;> [with_reducible assumption; skip])
                | (with_reducible apply Within.fst2 <;> [with_reducible assumption; skip])
                | split)
         | (have hx : Within M s0 x.2 := by
              unfold x
              repeat' first
                | with_reducible assumption
                | dsimp -zeta only
                | with_reducible apply Within.ite1
                | with_reducible apply Within.ite2
                | with_reducible apply Within.ite
                | with_reducible apply updCore_within (Sub.up hM rfl)
                | with_reducible apply bumpCore_within (Sub.up hM rfl)
                | with_reducible apply raise_within (Sub.up hM rfl)
                | (with_reducible apply Within.snd <;> [with_reducible assumption; skip])
                | (with_reducible apply Within.fst <;> [with_reducible assumption; skip])
                | (with_reducible apply Within.fst2 <;> [with_reducible assumption; skip])
                | split)
         | skip
       clear_value x)
    | lift_lets -underBinder
    | dsimp -zeta only
    | with_reducible apply Within.ite1
    | with_reducible apply Within.ite2
    | with_reducible apply Within.ite
    | with_reducible apply updCore_within (Sub.up hM rfl)
    | with_reducible apply bumpCore_within (Sub.up hM rfl)
    | with_reducible apply raise_within (Sub.up hM rfl)
    | (with_reducible apply Within.snd <;> [with_reducible assumption; skip])
    | (with_reducible apply Within.fst <;> [with_reducible assumption; skip])
    | (with_reducible apply Within.fst2 <;> [with_reducible assumption; skip])
    | split

theorem endStall_within {M : Nat} {s0 : State} (hM : Sub 0x310000091 M) (s : State) (c : Nat) (hW : Within M s0 s) : Within M s0 (endStall s c) := by
  unfold endStall
  repeat' first
    | with_reducible assumption
    | (intro x
       first
         | (have hx : Within M s0 x := by
              unfold x
              repeat' first
                | with_reducible assumption
                | dsimp -zeta only
                | with_reducible apply Within.ite1
                | with_reducible apply Within.ite2
                | with_reducible apply Within.ite
                | with_reducible apply updCore_within (Sub.up hM rfl)
                | with_reducible apply endEpisode_within (Sub.up hM rfl)
                | with_reducible refine each_within (fun _ _ _ => ?_) ?_
                | (with_reducible apply Within.snd <;> [with_reducible assumption; skip])
                | (with_reducible apply Within.fst <;> [with_reducible assumption; skip])
                | (with_reducible apply Within.fst2 <;> [with_reducible assumption; skip])
                | split)
         | (have hx : Within M s0 x.1 := by
              unfold x
              repeat' first
                | with_reducible assumption
                | dsimp -zeta only
                | with_reducible apply Within.ite1
                | with_reducible apply Within.ite2
                | with_reducible apply Within.ite
                | with_reducible apply updCore_within (Sub.up hM rfl)
                | with_reducible apply endEpisode_within (Sub.up hM rfl)
                | with_reducible refine each_within (fun _ _ _ => ?_) ?_
                | (with_reducible apply Within.snd <;> [with_reducible assumption; skip])
                | (with_reducible apply Within.fst <;> [with_reducible assumption; skip])
                | (with_reducible apply Within.fst2 <;> [with_reducible assumption; skip])
                | split)
         | (have hx : Within M s0 x.2 := by
              unfold x
              repeat' first
                | with_reducible assumption
                | dsimp -zeta only
                | with_reducible apply Within.ite1
                | with_reducible apply Within.ite2
                | with_reducible apply Within.ite
                | with_reducible apply updCore_within (Sub.up hM rfl)
                | with_reducible apply endEpisode_within (Sub.up hM rfl)
                | with_reducible refine each_within (fun _ _ _ => ?_) ?_
                | (with_reducible apply Within.snd <;> [with_reducible assumption; skip])
                | (with_reducible apply Within.fst <;> [with_reducible assumption; skip])
                | (with_reducible apply Within.fst2 <;> [with_reducible assumption; skip])
                | split)
         | skip
       clear_value x)
    | lift_lets -underBinder
    | dsimp -zeta only
    | with_reducible apply Within.ite1
    | with_reducible apply Within.ite2
    | with_reducible apply Within.ite
    | with_reducible apply updCore_within (Sub.up hM rfl)
    | with_reducible apply endEpisode_within (Sub.up hM rfl)
    | with_reducible refine each_within (fun _ _ _ => ?_) ?_
    | (with_reducible apply Within.snd <;> [with_reducible assumption; skip])
    | (with_reducible apply Within.fst <;> [with_reducible assumption; skip])
    | (with_reducible apply Within.fst2 <;> [with_reducible assumption; skip])
    | split

theorem endWait_within {M : Nat} {s0 : State} (hM : Sub 0x10 M) (s : State) (c : Nat) (hW : Within M s0 s) : Within M s0 (endWait s c) := by
  unfold endWait
  repeat' first
    | with_reducible assumption
    | (intro x
       first
         | (have hx : Within M s0 x := by
              unfold x
              repeat' first
                | with_reducible assumption
                | dsimp -zeta only
                | with_reducible apply Within.ite1
                | with_reducible apply Within.ite2
                | with_reducible apply Within.ite
                | with_reducible apply updCore_within (Sub.up hM rfl)
                | (with_reducible apply Within.snd <;> [with_reducible assumption; skip])
                | (with_reducible apply Within.fst <;> [with_reducible assumption; skip])
                | (with_reducible apply Within.fst2 <;> [with_reducible assumption; skip])
                | split)
         | (have hx : Within M s0 x.1 := by
              unfold x
              repeat' first
                | with_reducible assumption
                | dsimp -zeta only
                | with_reducible apply Within.ite1
                | with_reducible apply Within.ite2
                | with_reducible apply Within.ite
                | with_reducible apply updCore_within (Sub.up hM rfl)
                | (with_reducible apply Within.snd <;> [with_reducible assumption; skip])
                | (with_reducible apply Within.fst <;> [with_reducible assumption; skip])
                | (with_reducible apply Within.fst2 <;> [with_reducible assumption; skip])
                | split)
         | (have hx : Within M s0 x.2 := by
              unfold x
              repeat' first
                | with_reducible assumption
                | dsimp -zeta only
                | with_reducible apply Within.ite1
                | with_reducible apply Within.ite2
                | with_reducible apply Within.ite
                | with_reducible apply updCore_within (Sub.up hM rfl)
                | (with_reducible apply Within.snd <;> [with_reducible assumption; skip])
                | (with_reducible apply Within.fst <;> [with_reducible assumption; skip])
                | (with_reducible apply Within.fst2 <;> [with_reducible assumption; skip])
                | split)
         | skip
       clear_value x)
    | lift_lets -underBinder
    | dsimp -zeta only
    | with_reducible apply Within.ite1
    | with_reducible apply Within.ite2
    | with_reducible apply Within.ite
    | with_reducible apply updCore_within (Sub.up hM rfl)
    | (with_reducible apply Within.snd <;> [with_reducible assumption; skip])
    | (with_reducible apply Within.fst <;> [with_reducible assumption; skip])
    | (with_reducible apply Within.fst2 <;> [with_reducible assumption; skip])
    | split

end Sys2Proof.Machine
end

