-- ==== Sys2Proof/Laws/WithinNetOps.lean ====
section
/-! SUPPORT. What the operations and commands of Machine/NetOps can do to the state (Laws/Within). -/

namespace Sys2Proof.Machine

theorem markLost_grows (p : Package) : PkgGrows p (markLost p) := ⟨rfl, Nat.or_self _, List.prefix_rfl, List.prefix_rfl⟩

theorem markFailed_grows (d : Nat) (p : Package) : PkgGrows p (markFailed d p) := ⟨rfl, Nat.or_self _, List.prefix_rfl, List.prefix_rfl⟩

theorem markFenced_grows (c : Nat) (p : Package) : PkgGrows p (markFenced c p) := ⟨rfl, by simp [markFenced, ← Nat.or_assoc], List.prefix_rfl, List.prefix_rfl⟩

theorem markRouter_grows (d : Nat) (p : Package) : PkgGrows p (markRouter d p) := ⟨rfl, Nat.or_self _, List.prefix_append _ _, List.prefix_rfl⟩

theorem markDown_grows (k : Nat) (p : Package) : PkgGrows p (markDown k p) := ⟨rfl, Nat.or_self _, List.prefix_rfl, List.prefix_append _ _⟩

theorem markModule_grows (k n : Nat) (p : Package) : PkgGrows p (markModule k n p) := ⟨rfl, Nat.or_self _, List.prefix_rfl, List.prefix_rfl⟩

theorem markRewrite_grows (p : Package) : PkgGrows p (markRewrite p) := ⟨rfl, Nat.or_self _, List.prefix_rfl, List.prefix_rfl⟩

theorem markRoutes_grows (t : Tab Nat) (p : Package) : PkgGrows p (markRoutes t p) := ⟨rfl, Nat.or_self _, List.prefix_rfl, List.prefix_rfl⟩

theorem markRewritten_grows (p : Package) : PkgGrows p (markRewritten p) := ⟨rfl, Nat.or_self _, List.prefix_rfl, List.prefix_rfl⟩

theorem markBooted_grows (p : Package) : PkgGrows p (markBooted p) := ⟨rfl, Nat.or_self _, List.prefix_rfl, List.prefix_rfl⟩

theorem updPkg_within {M : Nat} {s0 : State} (hM : Sub 0x8 M) {s : State} {f : Package → Package} (g : ∀ p, PkgGrows p (f p))
    (hW : Within M s0 s) : Within M s0 (updPkg s f) := .pkg hW (Sub.has hM rfl) (g _)

theorem loseDevice_within {M : Nat} {s0 : State} (hM : Sub 0x8 M) (s : State) (hW : Within M s0 s) : Within M s0 (loseDevice s) := by
  unfold loseDevice
  repeat' first
    | with_reducible assumption
    | with_reducible refine updPkg_within (Sub.up hM rfl) (markLost_grows) ?_

theorem portToDown_within {M : Nat} {s0 : State} (hM : Sub 0x800 M) (s : State) (p : Nat) (hW : Within M s0 s) : Within M s0 (portToDown s p) := by
  unfold portToDown
  repeat' first
    | with_reducible assumption
    | (intro x
       first
         | (have hx : Within M s0 x := by
              unfold x
              repeat' first
                | with_reducible assumption
                | dsimp -zeta only
                | with_reducible apply Within.ite1
                | with_reducible apply Within.ite2
                | with_reducible apply Within.ite
                | with_reducible apply updPort_within (Sub.up hM rfl)
                | (with_reducible apply Within.snd <;> [with_reducible assumption; skip])
                | (with_reducible apply Within.fst <;> [with_reducible assumption; skip])
                | (with_reducible apply Within.fst2 <;> [with_reducible assumption; skip])
                | split)
         | (have hx : Within M s0 x.1 := by
              unfold x
              repeat' first
                | with_reducible assumption
                | dsimp -zeta only
                | with_reducible apply Within.ite1
                | with_reducible apply Within.ite2
                | with_reducible apply Within.ite
                | with_reducible apply updPort_within (Sub.up hM rfl)
                | (with_reducible apply Within.snd <;> [with_reducible assumption; skip])
                | (with_reducible apply Within.fst <;> [with_reducible assumption; skip])
                | (with_reducible apply Within.fst2 <;> [with_reducible assumption; skip])
                | split)
         | (have hx : Within M s0 x.2 := by
              unfold x
              repeat' first
                | with_reducible assumption
                | dsimp -zeta only
                | with_reducible apply Within.ite1
                | with_reducible apply Within.ite2
                | with_reducible apply Within.ite
                | with_reducible apply updPort_within (Sub.up hM rfl)
                | (with_reducible apply Within.snd <;> [with_reducible assumption; skip])
                | (with_reducible apply Within.fst <;> [with_reducible assumption; skip])
                | (with_reducible apply Within.fst2 <;> [with_reducible assumption; skip])
                | split)
         | skip
       clear_value x)
    | lift_lets -underBinder
    | dsimp -zeta only
    | with_reducible apply Within.ite1
    | with_reducible apply Within.ite2
    | with_reducible apply Within.ite
    | with_reducible apply updPort_within (Sub.up hM rfl)
    | (with_reducible apply Within.snd <;> [with_reducible assumption; skip])
    | (with_reducible apply Within.fst <;> [with_reducible assumption; skip])
    | (with_reducible apply Within.fst2 <;> [with_reducible assumption; skip])
    | split

theorem ringLost_within {M : Nat} {s0 : State} (hM : Sub 0x310000c89 M) (s : State) (die : Nat) (hW : Within M s0 s) : Within M s0 (ringLost s die) := by
  unfold ringLost
  repeat' first
    | with_reducible assumption
    | (intro x
       first
         | (have hx : Within M s0 x := by
              unfold x
              repeat' first
                | with_reducible assumption
                | with_reducible apply Within.ite
                | with_reducible apply updFar_within (Sub.up hM rfl)
                | with_reducible apply raise_within (Sub.up hM rfl)
                | with_reducible apply loseDevice_within (Sub.up hM rfl)
                | with_reducible apply portToDown_within (Sub.up hM rfl))
         | skip
       clear_value x)
    | lift_lets -underBinder
    | with_reducible apply Within.ite
    | with_reducible apply updFar_within (Sub.up hM rfl)
    | with_reducible apply raise_within (Sub.up hM rfl)
    | with_reducible apply loseDevice_within (Sub.up hM rfl)
    | with_reducible apply portToDown_within (Sub.up hM rfl)

theorem failRing_within {M : Nat} {s0 : State} (hM : Sub 0x310000c89 M) (s : State) (die : Nat) (hW : Within M s0 s) : Within M s0 (failRing s die) := by
  unfold failRing
  repeat' first
    | with_reducible assumption
    | with_reducible apply Within.ite
    | with_reducible refine updPkg_within (Sub.up hM rfl) (markFailed_grows _) ?_
    | with_reducible apply ringLost_within (Sub.up hM rfl)

theorem failCut_within {M : Nat} {s0 : State} (hM : Sub 0x310000c89 M) (s : State) (hW : Within M s0 s) : Within M s0 (failCut s) := by
  unfold failCut
  repeat' first
    | with_reducible assumption
    | with_reducible apply Within.ite
    | with_reducible apply failRing_within (Sub.up hM rfl)
    | with_reducible refine each_within (fun _ _ _ => ?_) ?_

theorem rewriteRoutes_within {M : Nat} {s0 : State} (hM : Sub 0x310000c89 M) (s : State) (hW : Within M s0 s) : Within M s0 (rewriteRoutes s) := by
  unfold rewriteRoutes
  repeat' first
    | with_reducible assumption
    | (intro x
       first
         | (have hx : Within M s0 x := by
              unfold x
              repeat' first
                | with_reducible assumption
                | with_reducible apply Within.ite
                | with_reducible refine updPkg_within (Sub.up hM rfl) (markRewrite_grows) ?_
                | with_reducible apply loseDevice_within (Sub.up hM rfl)
                | with_reducible apply failCut_within (Sub.up hM rfl))
         | skip
       clear_value x)
    | lift_lets -underBinder
    | with_reducible apply Within.ite
    | with_reducible refine updPkg_within (Sub.up hM rfl) (markRewrite_grows) ?_
    | with_reducible apply loseDevice_within (Sub.up hM rfl)
    | with_reducible apply failCut_within (Sub.up hM rfl)

theorem coreLost_within {M : Nat} {s0 : State} (hM : Sub 0x3100808d9 M) (s : State) (c : Nat) (was : Bool) (hW : Within M s0 s) : Within M s0 (coreLost s c was) := by
  unfold coreLost
  repeat' first
    | with_reducible assumption
    | (intro x
       first
         | (have hx : Within M s0 x := by
              unfold x
              repeat' first
                | with_reducible assumption
                | dsimp -zeta only
                | with_reducible apply Within.ite1
                | with_reducible apply Within.ite2
                | with_reducible apply Within.ite
                | with_reducible apply updLifeline_within (Sub.up hM rfl)
                | with_reducible apply raise_within (Sub.up hM rfl)
                | with_reducible apply dropQueue_within (Sub.up hM rfl)
                | with_reducible apply withdrawOf_within (Sub.up hM rfl)
                | with_reducible apply endTask_within (Sub.up hM rfl)
                | with_reducible apply loseDevice_within (Sub.up hM rfl)
                | with_reducible refine each_within (fun _ _ _ => ?_) ?_
                | (with_reducible apply Within.snd <;> [with_reducible assumption; skip])
                | (with_reducible apply Within.fst <;> [with_reducible assumption; skip])
                | (with_reducible apply Within.fst2 <;> [with_reducible assumption; skip])
                | split)
         | (have hx : Within M s0 x.1 := by
              unfold x
              repeat' first
                | with_reducible assumption
                | dsimp -zeta only
                | with_reducible apply Within.ite1
                | with_reducible apply Within.ite2
                | with_reducible apply Within.ite
                | with_reducible apply updLifeline_within (Sub.up hM rfl)
                | with_reducible apply raise_within (Sub.up hM rfl)
                | with_reducible apply dropQueue_within (Sub.up hM rfl)
                | with_reducible apply withdrawOf_within (Sub.up hM rfl)
                | with_reducible apply endTask_within (Sub.up hM rfl)
                | with_reducible apply loseDevice_within (Sub.up hM rfl)
                | with_reducible refine each_within (fun _ _ _ => ?_) ?_
                | (with_reducible apply Within.snd <;> [with_reducible assumption; skip])
                | (with_reducible apply Within.fst <;> [with_reducible assumption; skip])
                | (with_reducible apply Within.fst2 <;> [with_reducible assumption; skip])
                | split)
         | (have hx : Within M s0 x.2 := by
              unfold x
              repeat' first
                | with_reducible assumption
                | dsimp -zeta only
                | with_reducible apply Within.ite1
                | with_reducible apply Within.ite2
                | with_reducible apply Within.ite
                | with_reducible apply updLifeline_within (Sub.up hM rfl)
                | with_reducible apply raise_within (Sub.up hM rfl)
                | with_reducible apply dropQueue_within (Sub.up hM rfl)
                | with_reducible apply withdrawOf_within (Sub.up hM rfl)
                | with_reducible apply endTask_within (Sub.up hM rfl)
                | with_reducible apply loseDevice_within (Sub.up hM rfl)
                | with_reducible refine each_within (fun _ _ _ => ?_) ?_
                | (with_reducible apply Within.snd <;> [with_reducible assumption; skip])
                | (with_reducible apply Within.fst <;> [with_reducible assumption; skip])
                | (with_reducible apply Within.fst2 <;> [with_reducible assumption; skip])
                | split)
         | skip
       clear_value x)
    | lift_lets -underBinder
    | dsimp -zeta only
    | with_reducible apply Within.ite1
    | with_reducible apply Within.ite2
    | with_reducible apply Within.ite
    | with_reducible apply updLifeline_within (Sub.up hM rfl)
    | with_reducible apply raise_within (Sub.up hM rfl)
    | with_reducible apply dropQueue_within (Sub.up hM rfl)
    | with_reducible apply withdrawOf_within (Sub.up hM rfl)
    | with_reducible apply endTask_within (Sub.up hM rfl)
    | with_reducible apply loseDevice_within (Sub.up hM rfl)
    | with_reducible refine each_within (fun _ _ _ => ?_) ?_
    | (with_reducible apply Within.snd <;> [with_reducible assumption; skip])
    | (with_reducible apply Within.fst <;> [with_reducible assumption; skip])
    | (with_reducible apply Within.fst2 <;> [with_reducible assumption; skip])
    | split

theorem fenceEffects_within {M : Nat} {s0 : State} (hM : Sub 0x3100808d9 M) (s : State) (c : Nat) (hW : Within M s0 s) : Within M s0 (fenceEffects s c) := by
  unfold fenceEffects
  repeat' first
    | with_reducible assumption
    | with_reducible apply Within.ite
    | with_reducible refine updPkg_within (Sub.up hM rfl) (markFenced_grows _) ?_
    | with_reducible apply coreLost_within (Sub.up hM rfl)

theorem fenceCore_within {M : Nat} {s0 : State} (hM : Sub 0x3100808d9 M) (s : State) (c : Nat) (hW : Within M s0 s) : Within M s0 (fenceCore s c) := by
  unfold fenceCore
  repeat' first
    | with_reducible assumption
    | with_reducible apply Within.ite
    | with_reducible apply sendChain_within (Sub.up hM rfl)
    | with_reducible apply fenceEffects_within (Sub.up hM rfl)

theorem fenceRequest_within {M : Nat} {s0 : State} (hM : Sub 0x3100808d9 M) (s : State) (c : Nat) (hW : Within M s0 s) : Within M s0 (fenceRequest s c).2 := by
  unfold fenceRequest
  repeat' first
    | with_reducible assumption
    | dsimp -zeta only
    | with_reducible apply Within.ite2
    | with_reducible apply Within.ite
    | with_reducible apply fenceCore_within (Sub.up hM rfl)
    | split

theorem haltCore_within {M : Nat} {s0 : State} (hM : Sub 0x53 M) (s : State) (c : Nat) (hW : Within M s0 s) : Within M s0 (haltCore s c) := by
  unfold haltCore
  repeat' first
    | with_reducible assumption
    | (intro x
       first
         | (have hx : Within M s0 x := by
              unfold x
              repeat' first
                | with_reducible assumption
                | dsimp -zeta only
                | with_reducible apply Within.ite1
                | with_reducible apply Within.ite2
                | with_reducible apply Within.ite
                | with_reducible apply setField_within (Sub.up hM rfl)
                | with_reducible apply updCore_within (Sub.up hM rfl)
                | with_reducible apply rollTask_within (Sub.up hM rfl)
                | with_reducible refine each_within (fun _ _ _ => ?_) ?_
                | with_reducible refine Within.memWrite _ _ ?_ (Sub.has hM rfl)
                | with_reducible refine Within.memRange _ _ ?_ (Sub.has hM rfl)
                | with_reducible refine Within.memClear _ ?_ (Sub.has hM rfl)
                | (with_reducible apply Within.snd <;> [with_reducible assumption; skip])
                | (with_reducible apply Within.fst <;> [with_reducible assumption; skip])
                | (with_reducible apply Within.fst2 <;> [with_reducible assumption; skip])
                | split)
         | (have hx : Within M s0 x.1 := by
              unfold x
              repeat' first
                | with_reducible assumption
                | dsimp -zeta only
                | with_reducible apply Within.ite1
                | with_reducible apply Within.ite2
                | with_reducible apply Within.ite
                | with_reducible apply setField_within (Sub.up hM rfl)
                | with_reducible apply updCore_within (Sub.up hM rfl)
                | with_reducible apply rollTask_within (Sub.up hM rfl)
                | with_reducible refine each_within (fun _ _ _ => ?_) ?_
                | with_reducible refine Within.memWrite _ _ ?_ (Sub.has hM rfl)
                | with_reducible refine Within.memRange _ _ ?_ (Sub.has hM rfl)
                | with_reducible refine Within.memClear _ ?_ (Sub.has hM rfl)
                | (with_reducible apply Within.snd <;> [with_reducible assumption; skip])
                | (with_reducible apply Within.fst <;> [with_reducible assumption; skip])
                | (with_reducible apply Within.fst2 <;> [with_reducible assumption; skip])
                | split)
         | (have hx : Within M s0 x.2 := by
              unfold x
              repeat' first
                | with_reducible assumption
                | dsimp -zeta only
                | with_reducible apply Within.ite1
                | with_reducible apply Within.ite2
                | with_reducible apply Within.ite
                | with_reducible apply setField_within (Sub.up hM rfl)
                | with_reducible apply updCore_within (Sub.up hM rfl)
                | with_reducible apply rollTask_within (Sub.up hM rfl)
                | with_reducible refine each_within (fun _ _ _ => ?_) ?_
                | with_reducible refine Within.memWrite _ _ ?_ (Sub.has hM rfl)
                | with_reducible refine Within.memRange _ _ ?_ (Sub.has hM rfl)
                | with_reducible refine Within.memClear _ ?_ (Sub.has hM rfl)
                | (with_reducible apply Within.snd <;> [with_reducible assumption; skip])
                | (with_reducible apply Within.fst <;> [with_reducible assumption; skip])
                | (with_reducible apply Within.fst2 <;> [with_reducible assumption; skip])
                | split)
         | skip
       clear_value x)
    | lift_lets -underBinder
    | dsimp -zeta only
    | with_reducible apply Within.ite1
    | with_reducible apply Within.ite2
    | with_reducible apply Within.ite
    | with_reducible apply setField_within (Sub.up hM rfl)
    | with_reducible apply updCore_within (Sub.up hM rfl)
    | with_reducible apply rollTask_within (Sub.up hM rfl)
    | with_reducible refine each_within (fun _ _ _ => ?_) ?_
    | with_reducible refine Within.memWrite _ _ ?_ (Sub.has hM rfl)
    | with_reducible refine Within.memRange _ _ ?_ (Sub.has hM rfl)
    | with_reducible refine Within.memClear _ ?_ (Sub.has hM rfl)
    | (with_reducible apply Within.snd <;> [with_reducible assumption; skip])
    | (with_reducible apply Within.fst <;> [with_reducible assumption; skip])
    | (with_reducible apply Within.fst2 <;> [with_reducible assumption; skip])
    | split

theorem routerLost_within {M : Nat} {s0 : State} (hM : Sub 0x310080cd9 M) (s : State) (d : Nat) (hW : Within M s0 s) : Within M s0 (routerLost s d) := by
  unfold routerLost
  repeat' first
    | with_reducible assumption
    | (intro x
       first
         | (have hx : Within M s0 x := by
              unfold x
              repeat' first
                | with_reducible assumption
                | with_reducible apply sendChain_within (Sub.up hM rfl)
                | with_reducible apply raise_within (Sub.up hM rfl)
                | with_reducible apply loseDevice_within (Sub.up hM rfl)
                | with_reducible apply rewriteRoutes_within (Sub.up hM rfl)
                | with_reducible apply fenceCore_within (Sub.up hM rfl)
                | (with_reducible apply Within.snd <;> [with_reducible assumption; skip])
                | (with_reducible apply Within.fst <;> [with_reducible assumption; skip])
                | (with_reducible apply Within.fst2 <;> [with_reducible assumption; skip])
                | split)
         | skip
       clear_value x)
    | lift_lets -underBinder
    | with_reducible apply sendChain_within (Sub.up hM rfl)
    | with_reducible apply raise_within (Sub.up hM rfl)
    | with_reducible apply loseDevice_within (Sub.up hM rfl)
    | with_reducible apply rewriteRoutes_within (Sub.up hM rfl)
    | with_reducible apply fenceCore_within (Sub.up hM rfl)
    | (with_reducible apply Within.snd <;> [with_reducible assumption; skip])
    | (with_reducible apply Within.fst <;> [with_reducible assumption; skip])
    | (with_reducible apply Within.fst2 <;> [with_reducible assumption; skip])
    | split

theorem fenceRouter_within {M : Nat} {s0 : State} (hM : Sub 0x310080cd9 M) (s : State) (d : Nat) (hW : Within M s0 s) : Within M s0 (fenceRouter s d) := by
  unfold fenceRouter
  repeat' first
    | with_reducible assumption
    | with_reducible apply Within.ite
    | with_reducible refine updPkg_within (Sub.up hM rfl) (markRouter_grows _) ?_
    | with_reducible apply routerLost_within (Sub.up hM rfl)

theorem fenceIfCut_within {M : Nat} {s0 : State} (hM : Sub 0x310080cd9 M) (s : State) (m : Nat) (hW : Within M s0 s) : Within M s0 (fenceIfCut s m) := by
  unfold fenceIfCut
  repeat' first
    | with_reducible assumption
    | with_reducible apply Within.ite
    | with_reducible apply fenceRouter_within (Sub.up hM rfl)

theorem connFail_within {M : Nat} {s0 : State} (hM : Sub 0x310080cd9 M) (s : State) (d p : Nat) (hW : Within M s0 s) : Within M s0 (connFail s d p) := by
  unfold connFail
  repeat' first
    | with_reducible assumption
    | with_reducible apply Within.ite
    | with_reducible refine updPkg_within (Sub.up hM rfl) (markDown_grows _) ?_
    | with_reducible apply rewriteRoutes_within (Sub.up hM rfl)
    | with_reducible apply fenceIfCut_within (Sub.up hM rfl)
    | (with_reducible apply Within.snd <;> [with_reducible assumption; skip])
    | (with_reducible apply Within.fst <;> [with_reducible assumption; skip])
    | (with_reducible apply Within.fst2 <;> [with_reducible assumption; skip])
    | split

end Sys2Proof.Machine
end

