-- ==== Sys2Proof/Laws/WithinTierOps.lean ====
section
/-! SUPPORT. What the operations and commands of Machine/TierOps can do to the state (Laws/Within). -/

namespace Sys2Proof.Machine

theorem bumpMif_within {M : Nat} {s0 : State} (hM : Sub 0x1 M) (s : State) (a off n : Nat) (hW : Within M s0 s) : Within M s0 (bumpMif s a off n) := by
  unfold bumpMif
  repeat' first
    | with_reducible assumption
    | with_reducible apply bump_within (Sub.up hM rfl)

theorem listPoison_within {M : Nat} {s0 : State} (hM : Sub 0x310000e89 M) (s : State) (l : Nat) (hW : Within M s0 s) : Within M s0 (listPoison s l) := by
  unfold listPoison
  repeat' first
    | with_reducible assumption
    | (intro x
       first
         | (have hx : Within M s0 x := by
              unfold x
              repeat' first
                | with_reducible assumption
                | with_reducible apply Within.ite
                | with_reducible apply updStack_within (Sub.up hM rfl)
                | with_reducible apply failRing_within (Sub.up hM rfl))
         | skip
       clear_value x)
    | lift_lets -underBinder
    | with_reducible apply Within.ite
    | with_reducible apply updStack_within (Sub.up hM rfl)
    | with_reducible apply failRing_within (Sub.up hM rfl)

theorem clearPoison_within {M : Nat} {s0 : State} (hM : Sub 0x300 M) (s : State) (l : Nat) (hW : Within M s0 s) : Within M s0 (clearPoison s l) := by
  unfold clearPoison
  repeat' first
    | with_reducible assumption
    | (intro x
       first
         | (have hx : Within M s0 x := by
              unfold x
              repeat' first
                | with_reducible assumption
                | with_reducible apply updStack_within (Sub.up hM rfl)
                | with_reducible refine Within.cache ?_ (Sub.has hM rfl))
         | skip
       clear_value x)
    | lift_lets -underBinder
    | with_reducible apply updStack_within (Sub.up hM rfl)
    | with_reducible refine Within.cache ?_ (Sub.has hM rfl)

theorem evictLine_within {M : Nat} {s0 : State} (hM : Sub 0x310000f89 M) (s : State) (l : Nat) (hW : Within M s0 s) : Within M s0 (evictLine s l) := by
  unfold evictLine
  repeat' first
    | with_reducible assumption
    | (intro x
       first
         | (have hx : Within M s0 x := by
              unfold x
              repeat' first
                | with_reducible assumption
                | with_reducible apply Within.ite
                | with_reducible apply listPoison_within (Sub.up hM rfl)
                | with_reducible refine Within.cache ?_ (Sub.has hM rfl))
         | skip
       clear_value x)
    | lift_lets -underBinder
    | with_reducible apply Within.ite
    | with_reducible apply listPoison_within (Sub.up hM rfl)
    | with_reducible refine Within.cache ?_ (Sub.has hM rfl)

theorem makeRoom_within {M : Nat} {s0 : State} (hM : Sub 0x710000f89 M) (s : State) (l : Nat) (hW : Within M s0 s) : Within M s0 (makeRoom s l) := by
  unfold makeRoom
  repeat' first
    | with_reducible assumption
    | (intro x
       first
         | (have hx : Within M s0 x := by
              unfold x
              repeat' first
                | with_reducible assumption
                | dsimp -zeta only
                | with_reducible apply Within.ite1
                | with_reducible apply Within.ite2
                | with_reducible apply Within.ite
                | with_reducible apply freshFree_within (Sub.up hM rfl)
                | with_reducible apply evictLine_within (Sub.up hM rfl)
                | (with_reducible apply Within.snd <;> [with_reducible assumption; skip])
                | (with_reducible apply Within.fst <;> [with_reducible assumption; skip])
                | (with_reducible apply Within.fst2 <;> [with_reducible assumption; skip])
                | split)
         | (have hx : Within M s0 x.1 := by
              unfold x
              repeat' first
                | with_reducible assumption
                | dsimp -zeta only
                | with_reducible apply Within.ite1
                | with_reducible apply Within.ite2
                | with_reducible apply Within.ite
                | with_reducible apply freshFree_within (Sub.up hM rfl)
                | with_reducible apply evictLine_within (Sub.up hM rfl)
                | (with_reducible apply Within.snd <;> [with_reducible assumption; skip])
                | (with_reducible apply Within.fst <;> [with_reducible assumption; skip])
                | (with_reducible apply Within.fst2 <;> [with_reducible assumption; skip])
                | split)
         | (have hx : Within M s0 x.2 := by
              unfold x
              repeat' first
                | with_reducible assumption
                | dsimp -zeta only
                | with_reducible apply Within.ite1
                | with_reducible apply Within.ite2
                | with_reducible apply Within.ite
                | with_reducible apply freshFree_within (Sub.up hM rfl)
                | with_reducible apply evictLine_within (Sub.up hM rfl)
                | (with_reducible apply Within.snd <;> [with_reducible assumption; skip])
                | (with_reducible apply Within.fst <;> [with_reducible assumption; skip])
                | (with_reducible apply Within.fst2 <;> [with_reducible assumption; skip])
                | split)
         | skip
       clear_value x)
    | lift_lets -underBinder
    | dsimp -zeta only
    | with_reducible apply Within.ite1
    | with_reducible apply Within.ite2
    | with_reducible apply Within.ite
    | with_reducible apply freshFree_within (Sub.up hM rfl)
    | with_reducible apply evictLine_within (Sub.up hM rfl)
    | (with_reducible apply Within.snd <;> [with_reducible assumption; skip])
    | (with_reducible apply Within.fst <;> [with_reducible assumption; skip])
    | (with_reducible apply Within.fst2 <;> [with_reducible assumption; skip])
    | split

theorem touchLine_within {M : Nat} {s0 : State} (hM : Sub 0x710000f89 M) (s : State) (l : Nat) (hW : Within M s0 s) : Within M s0 (touchLine s l) := by
  unfold touchLine
  repeat' first
    | with_reducible assumption
    | (intro x
       first
         | (have hx : Within M s0 x := by
              unfold x
              repeat' first
                | with_reducible assumption
                | with_reducible apply Within.ite
                | with_reducible apply makeRoom_within (Sub.up hM rfl)
                | with_reducible refine Within.cache ?_ (Sub.has hM rfl))
         | skip
       clear_value x)
    | lift_lets -underBinder
    | with_reducible apply Within.ite
    | with_reducible apply makeRoom_within (Sub.up hM rfl)
    | with_reducible refine Within.cache ?_ (Sub.has hM rfl)

theorem hintLine_within {M : Nat} {s0 : State} (hM : Sub 0x100 M) (s : State) (l hint slot : Nat) (hW : Within M s0 s) : Within M s0 (hintLine s l hint slot) := by
  unfold hintLine
  repeat' first
    | with_reducible assumption
    | (intro x
       first
         | (have hx : Within M s0 x := by
              unfold x
              repeat' first
                | with_reducible assumption
                | dsimp -zeta only
                | with_reducible apply Within.ite1
                | with_reducible apply Within.ite2
                | with_reducible apply Within.ite
                | (with_reducible apply Within.snd <;> [with_reducible assumption; skip])
                | (with_reducible apply Within.fst <;> [with_reducible assumption; skip])
                | (with_reducible apply Within.fst2 <;> [with_reducible assumption; skip])
                | split
                | with_reducible refine Within.cache ?_ (Sub.has hM rfl))
         | (have hx : Within M s0 x.1 := by
              unfold x
              repeat' first
                | with_reducible assumption
                | dsimp -zeta only
                | with_reducible apply Within.ite1
                | with_reducible apply Within.ite2
                | with_reducible apply Within.ite
                | (with_reducible apply Within.snd <;> [with_reducible assumption; skip])
                | (with_reducible apply Within.fst <;> [with_reducible assumption; skip])
                | (with_reducible apply Within.fst2 <;> [with_reducible assumption; skip])
                | split
                | with_reducible refine Within.cache ?_ (Sub.has hM rfl))
         | (have hx : Within M s0 x.2 := by
              unfold x
              repeat' first
                | with_reducible assumption
                | dsimp -zeta only
                | with_reducible apply Within.ite1
                | with_reducible apply Within.ite2
                | with_reducible apply Within.ite
                | (with_reducible apply Within.snd <;> [with_reducible assumption; skip])
                | (with_reducible apply Within.fst <;> [with_reducible assumption; skip])
                | (with_reducible apply Within.fst2 <;> [with_reducible assumption; skip])
                | split
                | with_reducible refine Within.cache ?_ (Sub.has hM rfl))
         | skip
       clear_value x)
    | lift_lets -underBinder
    | dsimp -zeta only
    | with_reducible apply Within.ite1
    | with_reducible apply Within.ite2
    | with_reducible apply Within.ite
    | (with_reducible apply Within.snd <;> [with_reducible assumption; skip])
    | (with_reducible apply Within.fst <;> [with_reducible assumption; skip])
    | (with_reducible apply Within.fst2 <;> [with_reducible assumption; skip])
    | split
    | with_reducible refine Within.cache ?_ (Sub.has hM rfl)

theorem uncorrectable_within {M : Nat} {s0 : State} (hM : Sub 0x1 M) (s : State) (a kind : Nat) (hW : Within M s0 s) : Within M s0 (uncorrectable s a kind) := by
  unfold uncorrectable
  repeat' first
    | with_reducible assumption
    | (intro x
       first
         | (have hx : Within M s0 x := by
              unfold x
              repeat' first
                | with_reducible assumption
                | with_reducible apply Within.ite
                | with_reducible apply setReg_within (Sub.up hM rfl)
                | with_reducible apply bumpMif_within (Sub.up hM rfl))
         | skip
       clear_value x)
    | lift_lets -underBinder
    | with_reducible apply Within.ite
    | with_reducible apply setReg_within (Sub.up hM rfl)
    | with_reducible apply bumpMif_within (Sub.up hM rfl)

theorem crcRetries_within {M : Nat} {s0 : State} (hM : Sub 0x201 M) (s : State) (a n : Nat) (hW : Within M s0 s) : Within M s0 (crcRetries s a n) := by
  unfold crcRetries
  repeat' first
    | with_reducible assumption
    | (intro x
       first
         | (have hx : Within M s0 x := by
              unfold x
              repeat' first
                | with_reducible assumption
                | dsimp -zeta only
                | with_reducible apply Within.ite1
                | with_reducible apply Within.ite2
                | with_reducible apply Within.ite
                | with_reducible apply updStack_within (Sub.up hM rfl)
                | with_reducible apply bumpMif_within (Sub.up hM rfl)
                | (with_reducible apply Within.snd <;> [with_reducible assumption; skip])
                | (with_reducible apply Within.fst <;> [with_reducible assumption; skip])
                | (with_reducible apply Within.fst2 <;> [with_reducible assumption; skip])
                | split)
         | (have hx : Within M s0 x.1 := by
              unfold x
              repeat' first
                | with_reducible assumption
                | dsimp -zeta only
                | with_reducible apply Within.ite1
                | with_reducible apply Within.ite2
                | with_reducible apply Within.ite
                | with_reducible apply updStack_within (Sub.up hM rfl)
                | with_reducible apply bumpMif_within (Sub.up hM rfl)
                | (with_reducible apply Within.snd <;> [with_reducible assumption; skip])
                | (with_reducible apply Within.fst <;> [with_reducible assumption; skip])
                | (with_reducible apply Within.fst2 <;> [with_reducible assumption; skip])
                | split)
         | (have hx : Within M s0 x.2 := by
              unfold x
              repeat' first
                | with_reducible assumption
                | dsimp -zeta only
                | with_reducible apply Within.ite1
                | with_reducible apply Within.ite2
                | with_reducible apply Within.ite
                | with_reducible apply updStack_within (Sub.up hM rfl)
                | with_reducible apply bumpMif_within (Sub.up hM rfl)
                | (with_reducible apply Within.snd <;> [with_reducible assumption; skip])
                | (with_reducible apply Within.fst <;> [with_reducible assumption; skip])
                | (with_reducible apply Within.fst2 <;> [with_reducible assumption; skip])
                | split)
         | skip
       clear_value x)
    | lift_lets -underBinder
    | dsimp -zeta only
    | with_reducible apply Within.ite1
    | with_reducible apply Within.ite2
    | with_reducible apply Within.ite
    | with_reducible apply updStack_within (Sub.up hM rfl)
    | with_reducible apply bumpMif_within (Sub.up hM rfl)
    | (with_reducible apply Within.snd <;> [with_reducible assumption; skip])
    | (with_reducible apply Within.fst <;> [with_reducible assumption; skip])
    | (with_reducible apply Within.fst2 <;> [with_reducible assumption; skip])
    | split

theorem readMif_within {M : Nat} {s0 : State} (hM : Sub 0x201 M) (s : State) (a : Nat) (o : ReadOutcome) (hW : Within M s0 s) : Within M s0 (readMif s a o).1 := by
  unfold readMif
  repeat' first
    | with_reducible assumption
    | (intro x
       first
         | (have hx : Within M s0 x := by
              unfold x
              repeat' first
                | with_reducible assumption
                | dsimp -zeta only
                | with_reducible apply Within.ite1
                | with_reducible apply Within.ite2
                | with_reducible apply Within.ite
                | with_reducible apply bumpMif_within (Sub.up hM rfl)
                | with_reducible apply uncorrectable_within (Sub.up hM rfl)
                | with_reducible apply crcRetries_within (Sub.up hM rfl)
                | with_reducible apply hfa
                | with_reducible apply hfb
                | with_reducible apply hfc
                | with_reducible apply hfd
                | with_reducible apply hfe
                | with_reducible apply hff
                | with_reducible apply hfg
                | with_reducible apply hfh
                | with_reducible apply hfi
                | (with_reducible apply Within.snd <;> [with_reducible assumption; skip])
                | (with_reducible apply Within.fst <;> [with_reducible assumption; skip])
                | (with_reducible apply Within.fst2 <;> [with_reducible assumption; skip])
                | split)
         | (have hx : Within M s0 x.1 := by
              unfold x
              repeat' first
                | with_reducible assumption
                | dsimp -zeta only
                | with_reducible apply Within.ite1
                | with_reducible apply Within.ite2
                | with_reducible apply Within.ite
                | with_reducible apply bumpMif_within (Sub.up hM rfl)
                | with_reducible apply uncorrectable_within (Sub.up hM rfl)
                | with_reducible apply crcRetries_within (Sub.up hM rfl)
                | with_reducible apply hfa
                | with_reducible apply hfb
                | with_reducible apply hfc
                | with_reducible apply hfd
                | with_reducible apply hfe
                | with_reducible apply hff
                | with_reducible apply hfg
                | with_reducible apply hfh
                | with_reducible apply hfi
                | (with_reducible apply Within.snd <;> [with_reducible assumption; skip])
                | (with_reducible apply Within.fst <;> [with_reducible assumption; skip])
                | (with_reducible apply Within.fst2 <;> [with_reducible assumption; skip])
                | split)
         | (have hx : Within M s0 x.2 := by
              unfold x
              repeat' first
                | with_reducible assumption
                | dsimp -zeta only
                | with_reducible apply Within.ite1
                | with_reducible apply Within.ite2
                | with_reducible apply Within.ite
                | with_reducible apply bumpMif_within (Sub.up hM rfl)
                | with_reducible apply uncorrectable_within (Sub.up hM rfl)
                | with_reducible apply crcRetries_within (Sub.up hM rfl)
                | with_reducible apply hfa
                | with_reducible apply hfb
                | with_reducible apply hfc
                | with_reducible apply hfd
                | with_reducible apply hfe
                | with_reducible apply hff
                | with_reducible apply hfg
                | with_reducible apply hfh
                | with_reducible apply hfi
                | (with_reducible apply Within.snd <;> [with_reducible assumption; skip])
                | (with_reducible apply Within.fst <;> [with_reducible assumption; skip])
                | (with_reducible apply Within.fst2 <;> [with_reducible assumption; skip])
                | split)
         | (have hfa : ∀ t, Within M s0 t → Within M s0 (x t) := by
              intro t ht; unfold x
              repeat' first
                | with_reducible assumption
                | dsimp -zeta only
                | with_reducible apply Within.ite1
                | with_reducible apply Within.ite2
                | with_reducible apply Within.ite
                | with_reducible apply bumpMif_within (Sub.up hM rfl)
                | with_reducible apply uncorrectable_within (Sub.up hM rfl)
                | with_reducible apply crcRetries_within (Sub.up hM rfl)
                | with_reducible apply hfa
                | with_reducible apply hfb
                | with_reducible apply hfc
                | with_reducible apply hfd
                | with_reducible apply hfe
                | with_reducible apply hff
                | with_reducible apply hfg
                | with_reducible apply hfh
                | with_reducible apply hfi
                | (with_reducible apply Within.snd <;> [with_reducible assumption; skip])
                | (with_reducible apply Within.fst <;> [with_reducible assumption; skip])
                | (with_reducible apply Within.fst2 <;> [with_reducible assumption; skip])
                | split)
         | (have hfb : ∀ t a, Within M s0 t → Within M s0 (x t a) := by
              intro t a ht; unfold x
              repeat' first
                | with_reducible assumption
                | dsimp -zeta only
                | with_reducible apply Within.ite1
                | with_reducible apply Within.ite2
                | with_reducible apply Within.ite
                | with_reducible apply bumpMif_within (Sub.up hM rfl)
                | with_reducible apply uncorrectable_within (Sub.up hM rfl)
                | with_reducible apply crcRetries_within (Sub.up hM rfl)
                | with_reducible apply hfa
                | with_reducible apply hfb
                | with_reducible apply hfc
                | with_reducible apply hfd
                | with_reducible apply hfe
                | with_reducible apply hff
                | with_reducible apply hfg
                | with_reducible apply hfh
                | with_reducible apply hfi
                | (with_reducible apply Within.snd <;> [with_reducible assumption; skip])
                | (with_reducible apply Within.fst <;> [with_reducible assumption; skip])
                | (with_reducible apply Within.fst2 <;> [with_reducible assumption; skip])
                | split)
         | (have hfc : ∀ t a b, Within M s0 t → Within M s0 (x t a b) := by
              intro t a b ht; unfold x
              repeat' first
                | with_reducible assumption
                | dsimp -zeta only
                | with_reducible apply Within.ite1
                | with_reducible apply Within.ite2
                | with_reducible apply Within.ite
                | with_reducible apply bumpMif_within (Sub.up hM rfl)
                | with_reducible apply uncorrectable_within (Sub.up hM rfl)
                | with_reducible apply crcRetries_within (Sub.up hM rfl)
                | with_reducible apply hfa
                | with_reducible apply hfb
                | with_reducible apply hfc
                | with_reducible apply hfd
                | with_reducible apply hfe
                | with_reducible apply hff
                | with_reducible apply hfg
                | with_reducible apply hfh
                | with_reducible apply hfi
                | (with_reducible apply Within.snd <;> [with_reducible assumption; skip])
                | (with_reducible apply Within.fst <;> [with_reducible assumption; skip])
                | (with_reducible apply Within.fst2 <;> [with_reducible assumption; skip])
                | split)
         | (have hfd : ∀ t, Within M s0 t → Within M s0 (x t).1 := by
              intro t ht; unfold x
              repeat' first
                | with_reducible assumption
                | dsimp -zeta only
                | with_reducible apply Within.ite1
                | with_reducible apply Within.ite2
                | with_reducible apply Within.ite
                | with_reducible apply bumpMif_within (Sub.up hM rfl)
                | with_reducible apply uncorrectable_within (Sub.up hM rfl)
                | with_reducible apply crcRetries_within (Sub.up hM rfl)
                | with_reducible apply hfa
                | with_reducible apply hfb
                | with_reducible apply hfc
                | with_reducible apply hfd
                | with_reducible apply hfe
                | with_reducible apply hff
                | with_reducible apply hfg
                | with_reducible apply hfh
                | with_reducible apply hfi
                | (with_reducible apply Within.snd <;> [with_reducible assumption; skip])
                | (with_reducible apply Within.fst <;> [with_reducible assumption; skip])
                | (with_reducible apply Within.fst2 <;> [with_reducible assumption; skip])
                | split)
         | (have hfe : ∀ t a, Within M s0 t → Within M s0 (x t a).1 := by
              intro t a ht; unfold x
              repeat' first
                | with_reducible assumption
                | dsimp -zeta only
                | with_reducible apply Within.ite1
                | with_reducible apply Within.ite2
                | with_reducible apply Within.ite
                | with_reducible apply bumpMif_within (Sub.up hM rfl)
                | with_reducible apply uncorrectable_within (Sub.up hM rfl)
                | with_reducible apply crcRetries_within (Sub.up hM rfl)
                | with_reducible apply hfa
                | with_reducible apply hfb
                | with_reducible apply hfc
                | with_reducible apply hfd
                | with_reducible apply hfe
                | with_reducible apply hff
                | with_reducible apply hfg
                | with_reducible apply hfh
                | with_reducible apply hfi
                | (with_reducible apply Within.snd <;> [with_reducible assumption; skip])
                | (with_reducible apply Within.fst <;> [with_reducible assumption; skip])
                | (with_reducible apply Within.fst2 <;> [with_reducible assumption; skip])
                | split)
         | (have hff : ∀ t a b, Within M s0 t → Within M s0 (x t a b).1 := by
              intro t a b ht; unfold x
              repeat' first
                | with_reducible assumption
                | dsimp -zeta only
                | with_reducible apply Within.ite1
                | with_reducible apply Within.ite2
                | with_reducible apply Within.ite
                | with_reducible apply bumpMif_within (Sub.up hM rfl)
                | with_reducible apply uncorrectable_within (Sub.up hM rfl)
                | with_reducible apply crcRetries_within (Sub.up hM rfl)
                | with_reducible apply hfa
                | with_reducible apply hfb
                | with_reducible apply hfc
                | with_reducible apply hfd
                | with_reducible apply hfe
                | with_reducible apply hff
                | with_reducible apply hfg
                | with_reducible apply hfh
                | with_reducible apply hfi
                | (with_reducible apply Within.snd <;> [with_reducible assumption; skip])
                | (with_reducible apply Within.fst <;> [with_reducible assumption; skip])
                | (with_reducible apply Within.fst2 <;> [with_reducible assumption; skip])
                | split)
         | (have hfg : ∀ t, Within M s0 t → Within M s0 (x t).2 := by
              intro t ht; unfold x
              repeat' first
                | with_reducible assumption
                | dsimp -zeta only
                | with_reducible apply Within.ite1
                | with_reducible apply Within.ite2
                | with_reducible apply Within.ite
                | with_reducible apply bumpMif_within (Sub.up hM rfl)
                | with_reducible apply uncorrectable_within (Sub.up hM rfl)
                | with_reducible apply crcRetries_within (Sub.up hM rfl)
                | with_reducible apply hfa
                | with_reducible apply hfb
                | with_reducible apply hfc
                | with_reducible apply hfd
                | with_reducible apply hfe
                | with_reducible apply hff
                | with_reducible apply hfg
                | with_reducible apply hfh
                | with_reducible apply hfi
                | (with_reducible apply Within.snd <;> [with_reducible assumption; skip])
                | (with_reducible apply Within.fst <;> [with_reducible assumption; skip])
                | (with_reducible apply Within.fst2 <;> [with_reducible assumption; skip])
                | split)
         | (have hfh : ∀ t a, Within M s0 t → Within M s0 (x t a).2 := by
              intro t a ht; unfold x
              repeat' first
                | with_reducible assumption
                | dsimp -zeta only
                | with_reducible apply Within.ite1
                | with_reducible apply Within.ite2
                | with_reducible apply Within.ite
                | with_reducible apply bumpMif_within (Sub.up hM rfl)
                | with_reducible apply uncorrectable_within (Sub.up hM rfl)
                | with_reducible apply crcRetries_within (Sub.up hM rfl)
                | with_reducible apply hfa
                | with_reducible apply hfb
                | with_reducible apply hfc
                | with_reducible apply hfd
                | with_reducible apply hfe
                | with_reducible apply hff
                | with_reducible apply hfg
                | with_reducible apply hfh
                | with_reducible apply hfi
                | (with_reducible apply Within.snd <;> [with_reducible assumption; skip])
                | (with_reducible apply Within.fst <;> [with_reducible assumption; skip])
                | (with_reducible apply Within.fst2 <;> [with_reducible assumption; skip])
                | split)
         | (have hfi : ∀ t a b, Within M s0 t → Within M s0 (x t a b).2 := by
              intro t a b ht; unfold x
              repeat' first
                | with_reducible assumption
                | dsimp -zeta only
                | with_reducible apply Within.ite1
                | with_reducible apply Within.ite2
                | with_reducible apply Within.ite
                | with_reducible apply bumpMif_within (Sub.up hM rfl)
                | with_reducible apply uncorrectable_within (Sub.up hM rfl)
                | with_reducible apply crcRetries_within (Sub.up hM rfl)
                | with_reducible apply hfa
                | with_reducible apply hfb
                | with_reducible apply hfc
                | with_reducible apply hfd
                | with_reducible apply hfe
                | with_reducible apply hff
                | with_reducible apply hfg
                | with_reducible apply hfh
                | with_reducible apply hfi
                | (with_reducible apply Within.snd <;> [with_reducible assumption; skip])
                | (with_reducible apply Within.fst <;> [with_reducible assumption; skip])
                | (with_reducible apply Within.fst2 <;> [with_reducible assumption; skip])
                | split)
         | skip
       clear_value x)
    | lift_lets -underBinder
    | dsimp -zeta only
    | with_reducible apply Within.ite1
    | with_reducible apply Within.ite2
    | with_reducible apply Within.ite
    | with_reducible apply bumpMif_within (Sub.up hM rfl)
    | with_reducible apply uncorrectable_within (Sub.up hM rfl)
    | with_reducible apply crcRetries_within (Sub.up hM rfl)
    | with_reducible apply hfa
    | with_reducible apply hfb
    | with_reducible apply hfc
    | with_reducible apply hfd
    | with_reducible apply hfe
    | with_reducible apply hff
    | with_reducible apply hfg
    | with_reducible apply hfh
    | with_reducible apply hfi
    | (with_reducible apply Within.snd <;> [with_reducible assumption; skip])
    | (with_reducible apply Within.fst <;> [with_reducible assumption; skip])
    | (with_reducible apply Within.fst2 <;> [with_reducible assumption; skip])
    | split

theorem readFar_within {M : Nat} {s0 : State} (hM : Sub 0x1 M) (s : State) (a : Nat) (o : ReadOutcome) (hW : Within M s0 s) : Within M s0 (readFar s a o).1 := by
  unfold readFar
  repeat' first
    | with_reducible assumption
    | (intro x
       first
         | (have hx : Within M s0 x := by
              unfold x
              repeat' first
                | with_reducible assumption
                | dsimp -zeta only
                | with_reducible apply Within.ite1
                | with_reducible apply Within.ite
                | with_reducible apply bump_within (Sub.up hM rfl)
                | split)
         | (have hx : Within M s0 x.1 := by
              unfold x
              repeat' first
                | with_reducible assumption
                | dsimp -zeta only
                | with_reducible apply Within.ite1
                | with_reducible apply Within.ite
                | with_reducible apply bump_within (Sub.up hM rfl)
                | split)
         | (have hx : Within M s0 x.2 := by
              unfold x
              repeat' first
                | with_reducible assumption
                | dsimp -zeta only
                | with_reducible apply Within.ite1
                | with_reducible apply Within.ite
                | with_reducible apply bump_within (Sub.up hM rfl)
                | split)
         | skip
       clear_value x)
    | lift_lets -underBinder
    | dsimp -zeta only
    | with_reducible apply Within.ite1
    | with_reducible apply Within.ite
    | with_reducible apply bump_within (Sub.up hM rfl)
    | split

theorem readMiss_within {M : Nat} {s0 : State} (hM : Sub 0x710000f89 M) (s : State) (a : Nat) (o : ReadOutcome) (hW : Within M s0 s) : Within M s0 (readMiss s a o).1 := by
  unfold readMiss
  repeat' first
    | with_reducible assumption
    | (intro x
       first
         | (have hx : Within M s0 x := by
              unfold x
              repeat' first
                | with_reducible assumption
                | dsimp -zeta only
                | with_reducible apply Within.ite1
                | with_reducible apply Within.ite
                | with_reducible apply touchLine_within (Sub.up hM rfl)
                | with_reducible apply readMif_within (Sub.up hM rfl)
                | with_reducible apply readFar_within (Sub.up hM rfl)
                | (with_reducible apply Within.snd <;> [with_reducible assumption; skip])
                | (with_reducible apply Within.fst <;> [with_reducible assumption; skip])
                | (with_reducible apply Within.fst2 <;> [with_reducible assumption; skip])
                | split)
         | (have hx : Within M s0 x.1 := by
              unfold x
              repeat' first
                | with_reducible assumption
                | dsimp -zeta only
                | with_reducible apply Within.ite1
                | with_reducible apply Within.ite
                | with_reducible apply touchLine_within (Sub.up hM rfl)
                | with_reducible apply readMif_within (Sub.up hM rfl)
                | with_reducible apply readFar_within (Sub.up hM rfl)
                | (with_reducible apply Within.snd <;> [with_reducible assumption; skip])
                | (with_reducible apply Within.fst <;> [with_reducible assumption; skip])
                | (with_reducible apply Within.fst2 <;> [with_reducible assumption; skip])
                | split)
         | (have hx : Within M s0 x.2 := by
              unfold x
              repeat' first
                | with_reducible assumption
                | dsimp -zeta only
                | with_reducible apply Within.ite1
                | with_reducible apply Within.ite
                | with_reducible apply touchLine_within (Sub.up hM rfl)
                | with_reducible apply readMif_within (Sub.up hM rfl)
                | with_reducible apply readFar_within (Sub.up hM rfl)
                | (with_reducible apply Within.snd <;> [with_reducible assumption; skip])
                | (with_reducible apply Within.fst <;> [with_reducible assumption; skip])
                | (with_reducible apply Within.fst2 <;> [with_reducible assumption; skip])
                | split)
         | skip
       clear_value x)
    | lift_lets -underBinder
    | dsimp -zeta only
    | with_reducible apply Within.ite1
    | with_reducible apply Within.ite
    | with_reducible apply touchLine_within (Sub.up hM rfl)
    | with_reducible apply readMif_within (Sub.up hM rfl)
    | with_reducible apply readFar_within (Sub.up hM rfl)
    | (with_reducible apply Within.snd <;> [with_reducible assumption; skip])
    | (with_reducible apply Within.fst <;> [with_reducible assumption; skip])
    | (with_reducible apply Within.fst2 <;> [with_reducible assumption; skip])
    | split

theorem readLine_within {M : Nat} {s0 : State} (hM : Sub 0x710000f89 M) (s : State) (a : Nat) (o : ReadOutcome) (hW : Within M s0 s) : Within M s0 (readLine s a o).1 := by
  unfold readLine
  repeat' first
    | with_reducible assumption
    | (intro x
       first
         | (have hx : Within M s0 x := by
              unfold x
              repeat' first
                | with_reducible assumption
                | dsimp -zeta only
                | with_reducible apply Within.ite1
                | with_reducible apply Within.ite2
                | with_reducible apply Within.ite
                | with_reducible apply evictLine_within (Sub.up hM rfl)
                | with_reducible apply uncorrectable_within (Sub.up hM rfl)
                | with_reducible apply readMiss_within (Sub.up hM rfl)
                | (with_reducible apply Within.snd <;> [with_reducible assumption; skip])
                | (with_reducible apply Within.fst <;> [with_reducible assumption; skip])
                | (with_reducible apply Within.fst2 <;> [with_reducible assumption; skip])
                | split
                | with_reducible refine Within.cache ?_ (Sub.has hM rfl))
         | (have hx : Within M s0 x.1 := by
              unfold x
              repeat' first
                | with_reducible assumption
                | dsimp -zeta only
                | with_reducible apply Within.ite1
                | with_reducible apply Within.ite2
                | with_reducible apply Within.ite
                | with_reducible apply evictLine_within (Sub.up hM rfl)
                | with_reducible apply uncorrectable_within (Sub.up hM rfl)
                | with_reducible apply readMiss_within (Sub.up hM rfl)
                | (with_reducible apply Within.snd <;> [with_reducible assumption; skip])
                | (with_reducible apply Within.fst <;> [with_reducible assumption; skip])
                | (with_reducible apply Within.fst2 <;> [with_reducible assumption; skip])
                | split
                | with_reducible refine Within.cache ?_ (Sub.has hM rfl))
         | (have hx : Within M s0 x.2 := by
              unfold x
              repeat' first
                | with_reducible assumption
                | dsimp -zeta only
                | with_reducible apply Within.ite1
                | with_reducible apply Within.ite2
                | with_reducible apply Within.ite
                | with_reducible apply evictLine_within (Sub.up hM rfl)
                | with_reducible apply uncorrectable_within (Sub.up hM rfl)
                | with_reducible apply readMiss_within (Sub.up hM rfl)
                | (with_reducible apply Within.snd <;> [with_reducible assumption; skip])
                | (with_reducible apply Within.fst <;> [with_reducible assumption; skip])
                | (with_reducible apply Within.fst2 <;> [with_reducible assumption; skip])
                | split
                | with_reducible refine Within.cache ?_ (Sub.has hM rfl))
         | skip
       clear_value x)
    | lift_lets -underBinder
    | dsimp -zeta only
    | with_reducible apply Within.ite1
    | with_reducible apply Within.ite2
    | with_reducible apply Within.ite
    | with_reducible apply evictLine_within (Sub.up hM rfl)
    | with_reducible apply uncorrectable_within (Sub.up hM rfl)
    | with_reducible apply readMiss_within (Sub.up hM rfl)
    | (with_reducible apply Within.snd <;> [with_reducible assumption; skip])
    | (with_reducible apply Within.fst <;> [with_reducible assumption; skip])
    | (with_reducible apply Within.fst2 <;> [with_reducible assumption; skip])
    | split
    | with_reducible refine Within.cache ?_ (Sub.has hM rfl)

theorem askHost_within {M : Nat} {s0 : State} (hM : Sub 0x200000000 M) (s : State) (a : Nat) (write : Bool) (hW : Within M s0 s) : Within M s0 (askHost s a write) := by
  unfold askHost
  repeat' first
    | with_reducible assumption
    | with_reducible apply Within.ite
    | with_reducible apply emit_within (Sub.up hM rfl)

theorem crcLost_within {M : Nat} {s0 : State} (hM : Sub 0x310000181 M) (s : State) (a : Nat) (hW : Within M s0 s) : Within M s0 (crcLost s a) := by
  unfold crcLost
  repeat' first
    | with_reducible assumption
    | (intro x
       first
         | (have hx : Within M s0 x := by
              unfold x
              repeat' first
                | with_reducible assumption
                | with_reducible apply Within.ite
                | with_reducible apply raise_within (Sub.up hM rfl)
                | with_reducible refine Within.cache ?_ (Sub.has hM rfl))
         | skip
       clear_value x)
    | lift_lets -underBinder
    | with_reducible apply Within.ite
    | with_reducible apply raise_within (Sub.up hM rfl)
    | with_reducible refine Within.cache ?_ (Sub.has hM rfl)

theorem writeCrc_within {M : Nat} {s0 : State} (hM : Sub 0x310000181 M) (s : State) (a : Nat) (o : WriteOutcome) (hW : Within M s0 s) : Within M s0 (writeCrc s a o) := by
  unfold writeCrc
  repeat' first
    | with_reducible assumption
    | with_reducible apply Within.ite
    | with_reducible apply bumpMif_within (Sub.up hM rfl)
    | with_reducible apply crcLost_within (Sub.up hM rfl)
    | (with_reducible apply Within.snd <;> [with_reducible assumption; skip])
    | (with_reducible apply Within.fst <;> [with_reducible assumption; skip])
    | (with_reducible apply Within.fst2 <;> [with_reducible assumption; skip])
    | split

theorem writeLine_within {M : Nat} {s0 : State} (hM : Sub 0x710000f8b M) (s : State) (a : Nat) (data : List Byte) (o : WriteOutcome) (hW : Within M s0 s) : Within M s0 (writeLine s a data o).1 := by
  unfold writeLine
  repeat' first
    | with_reducible assumption
    | (intro x
       first
         | (have hx : Within M s0 x := by
              unfold x
              repeat' first
                | with_reducible assumption
                | dsimp -zeta only
                | with_reducible apply Within.ite1
                | with_reducible apply Within.ite
                | with_reducible apply bump_within (Sub.up hM rfl)
                | with_reducible apply wrBytes_within (Sub.up hM rfl)
                | with_reducible apply bumpMif_within (Sub.up hM rfl)
                | with_reducible apply clearPoison_within (Sub.up hM rfl)
                | with_reducible apply touchLine_within (Sub.up hM rfl)
                | with_reducible apply uncorrectable_within (Sub.up hM rfl)
                | with_reducible apply writeCrc_within (Sub.up hM rfl)
                | split
                | with_reducible refine Within.cache ?_ (Sub.has hM rfl))
         | (have hx : Within M s0 x.1 := by
              unfold x
              repeat' first
                | with_reducible assumption
                | dsimp -zeta only
                | with_reducible apply Within.ite1
                | with_reducible apply Within.ite
                | with_reducible apply bump_within (Sub.up hM rfl)
                | with_reducible apply wrBytes_within (Sub.up hM rfl)
                | with_reducible apply bumpMif_within (Sub.up hM rfl)
                | with_reducible apply clearPoison_within (Sub.up hM rfl)
                | with_reducible apply touchLine_within (Sub.up hM rfl)
                | with_reducible apply uncorrectable_within (Sub.up hM rfl)
                | with_reducible apply writeCrc_within (Sub.up hM rfl)
                | split
                | with_reducible refine Within.cache ?_ (Sub.has hM rfl))
         | (have hx : Within M s0 x.2 := by
              unfold x
              repeat' first
                | with_reducible assumption
                | dsimp -zeta only
                | with_reducible apply Within.ite1
                | with_reducible apply Within.ite
                | with_reducible apply bump_within (Sub.up hM rfl)
                | with_reducible apply wrBytes_within (Sub.up hM rfl)
                | with_reducible apply bumpMif_within (Sub.up hM rfl)
                | with_reducible apply clearPoison_within (Sub.up hM rfl)
                | with_reducible apply touchLine_within (Sub.up hM rfl)
                | with_reducible apply uncorrectable_within (Sub.up hM rfl)
                | with_reducible apply writeCrc_within (Sub.up hM rfl)
                | split
                | with_reducible refine Within.cache ?_ (Sub.has hM rfl))
         | skip
       clear_value x)
    | lift_lets -underBinder
    | dsimp -zeta only
    | with_reducible apply Within.ite1
    | with_reducible apply Within.ite
    | with_reducible apply bump_within (Sub.up hM rfl)
    | with_reducible apply wrBytes_within (Sub.up hM rfl)
    | with_reducible apply bumpMif_within (Sub.up hM rfl)
    | with_reducible apply clearPoison_within (Sub.up hM rfl)
    | with_reducible apply touchLine_within (Sub.up hM rfl)
    | with_reducible apply uncorrectable_within (Sub.up hM rfl)
    | with_reducible apply writeCrc_within (Sub.up hM rfl)
    | split
    | with_reducible refine Within.cache ?_ (Sub.has hM rfl)

theorem sliceWrite_within {M : Nat} {s0 : State} (hM : Sub 0x710000f8b M) (s : State) (a : Nat) (data : List Byte) (o : WriteOutcome) (hW : Within M s0 s) : Within M s0 (sliceWrite s a data o).1 := by
  unfold sliceWrite
  repeat' first
    | with_reducible assumption
    | (intro x
       first
         | (have hx : Within M s0 x := by
              unfold x
              repeat' first
                | with_reducible assumption
                | dsimp -zeta only
                | with_reducible apply Within.ite1
                | with_reducible apply Within.ite2
                | with_reducible apply Within.ite
                | with_reducible apply readMiss_within (Sub.up hM rfl)
                | with_reducible apply askHost_within (Sub.up hM rfl)
                | with_reducible apply writeLine_within (Sub.up hM rfl)
                | (with_reducible apply Within.snd <;> [with_reducible assumption; skip])
                | (with_reducible apply Within.fst <;> [with_reducible assumption; skip])
                | (with_reducible apply Within.fst2 <;> [with_reducible assumption; skip])
                | split)
         | (have hx : Within M s0 x.1 := by
              unfold x
              repeat' first
                | with_reducible assumption
                | dsimp -zeta only
                | with_reducible apply Within.ite1
                | with_reducible apply Within.ite2
                | with_reducible apply Within.ite
                | with_reducible apply readMiss_within (Sub.up hM rfl)
                | with_reducible apply askHost_within (Sub.up hM rfl)
                | with_reducible apply writeLine_within (Sub.up hM rfl)
                | (with_reducible apply Within.snd <;> [with_reducible assumption; skip])
                | (with_reducible apply Within.fst <;> [with_reducible assumption; skip])
                | (with_reducible apply Within.fst2 <;> [with_reducible assumption; skip])
                | split)
         | (have hx : Within M s0 x.2 := by
              unfold x
              repeat' first
                | with_reducible assumption
                | dsimp -zeta only
                | with_reducible apply Within.ite1
                | with_reducible apply Within.ite2
                | with_reducible apply Within.ite
                | with_reducible apply readMiss_within (Sub.up hM rfl)
                | with_reducible apply askHost_within (Sub.up hM rfl)
                | with_reducible apply writeLine_within (Sub.up hM rfl)
                | (with_reducible apply Within.snd <;> [with_reducible assumption; skip])
                | (with_reducible apply Within.fst <;> [with_reducible assumption; skip])
                | (with_reducible apply Within.fst2 <;> [with_reducible assumption; skip])
                | split)
         | skip
       clear_value x)
    | lift_lets -underBinder
    | dsimp -zeta only
    | with_reducible apply Within.ite1
    | with_reducible apply Within.ite2
    | with_reducible apply Within.ite
    | with_reducible apply readMiss_within (Sub.up hM rfl)
    | with_reducible apply askHost_within (Sub.up hM rfl)
    | with_reducible apply writeLine_within (Sub.up hM rfl)
    | (with_reducible apply Within.snd <;> [with_reducible assumption; skip])
    | (with_reducible apply Within.fst <;> [with_reducible assumption; skip])
    | (with_reducible apply Within.fst2 <;> [with_reducible assumption; skip])
    | split

theorem sliceRead_within {M : Nat} {s0 : State} (hM : Sub 0x710000f89 M) (s : State) (a : Nat) (hW : Within M s0 s) : Within M s0 (sliceRead s a).1 := by
  unfold sliceRead
  repeat' first
    | with_reducible assumption
    | (intro x
       first
         | (have hx : Within M s0 x := by
              unfold x
              repeat' first
                | with_reducible assumption
                | dsimp -zeta only
                | with_reducible apply Within.ite1
                | with_reducible apply Within.ite2
                | with_reducible apply Within.ite
                | with_reducible apply readLine_within (Sub.up hM rfl)
                | with_reducible apply askHost_within (Sub.up hM rfl)
                | (with_reducible apply Within.snd <;> [with_reducible assumption; skip])
                | (with_reducible apply Within.fst <;> [with_reducible assumption; skip])
                | (with_reducible apply Within.fst2 <;> [with_reducible assumption; skip])
                | split)
         | (have hx : Within M s0 x.1 := by
              unfold x
              repeat' first
                | with_reducible assumption
                | dsimp -zeta only
                | with_reducible apply Within.ite1
                | with_reducible apply Within.ite2
                | with_reducible apply Within.ite
                | with_reducible apply readLine_within (Sub.up hM rfl)
                | with_reducible apply askHost_within (Sub.up hM rfl)
                | (with_reducible apply Within.snd <;> [with_reducible assumption; skip])
                | (with_reducible apply Within.fst <;> [with_reducible assumption; skip])
                | (with_reducible apply Within.fst2 <;> [with_reducible assumption; skip])
                | split)
         | (have hx : Within M s0 x.2 := by
              unfold x
              repeat' first
                | with_reducible assumption
                | dsimp -zeta only
                | with_reducible apply Within.ite1
                | with_reducible apply Within.ite2
                | with_reducible apply Within.ite
                | with_reducible apply readLine_within (Sub.up hM rfl)
                | with_reducible apply askHost_within (Sub.up hM rfl)
                | (with_reducible apply Within.snd <;> [with_reducible assumption; skip])
                | (with_reducible apply Within.fst <;> [with_reducible assumption; skip])
                | (with_reducible apply Within.fst2 <;> [with_reducible assumption; skip])
                | split)
         | skip
       clear_value x)
    | lift_lets -underBinder
    | dsimp -zeta only
    | with_reducible apply Within.ite1
    | with_reducible apply Within.ite2
    | with_reducible apply Within.ite
    | with_reducible apply readLine_within (Sub.up hM rfl)
    | with_reducible apply askHost_within (Sub.up hM rfl)
    | (with_reducible apply Within.snd <;> [with_reducible assumption; skip])
    | (with_reducible apply Within.fst <;> [with_reducible assumption; skip])
    | (with_reducible apply Within.fst2 <;> [with_reducible assumption; skip])
    | split

theorem mirrorWord_within {M : Nat} {s0 : State} (hM : Sub 0x100000000 M) (s : State) (die a v : Nat) (hW : Within M s0 s) : Within M s0 (mirrorWord s die a v) := by
  unfold mirrorWord
  repeat' first
    | with_reducible assumption
    | (intro x
       first
         | (have hx : Within M s0 x := by
              unfold x
              repeat' first
                | with_reducible assumption
                | dsimp -zeta only
                | with_reducible apply Within.ite1
                | with_reducible apply Within.ite2
                | with_reducible apply Within.ite
                | with_reducible apply sendChain_within (Sub.up hM rfl)
                | with_reducible apply sendBulk_within (Sub.up hM rfl)
                | (with_reducible apply Within.snd <;> [with_reducible assumption; skip])
                | (with_reducible apply Within.fst <;> [with_reducible assumption; skip])
                | (with_reducible apply Within.fst2 <;> [with_reducible assumption; skip])
                | split)
         | (have hx : Within M s0 x.1 := by
              unfold x
              repeat' first
                | with_reducible assumption
                | dsimp -zeta only
                | with_reducible apply Within.ite1
                | with_reducible apply Within.ite2
                | with_reducible apply Within.ite
                | with_reducible apply sendChain_within (Sub.up hM rfl)
                | with_reducible apply sendBulk_within (Sub.up hM rfl)
                | (with_reducible apply Within.snd <;> [with_reducible assumption; skip])
                | (with_reducible apply Within.fst <;> [with_reducible assumption; skip])
                | (with_reducible apply Within.fst2 <;> [with_reducible assumption; skip])
                | split)
         | (have hx : Within M s0 x.2 := by
              unfold x
              repeat' first
                | with_reducible assumption
                | dsimp -zeta only
                | with_reducible apply Within.ite1
                | with_reducible apply Within.ite2
                | with_reducible apply Within.ite
                | with_reducible apply sendChain_within (Sub.up hM rfl)
                | with_reducible apply sendBulk_within (Sub.up hM rfl)
                | (with_reducible apply Within.snd <;> [with_reducible assumption; skip])
                | (with_reducible apply Within.fst <;> [with_reducible assumption; skip])
                | (with_reducible apply Within.fst2 <;> [with_reducible assumption; skip])
                | split)
         | skip
       clear_value x)
    | lift_lets -underBinder
    | dsimp -zeta only
    | with_reducible apply Within.ite1
    | with_reducible apply Within.ite2
    | with_reducible apply Within.ite
    | with_reducible apply sendChain_within (Sub.up hM rfl)
    | with_reducible apply sendBulk_within (Sub.up hM rfl)
    | (with_reducible apply Within.snd <;> [with_reducible assumption; skip])
    | (with_reducible apply Within.fst <;> [with_reducible assumption; skip])
    | (with_reducible apply Within.fst2 <;> [with_reducible assumption; skip])
    | split

theorem mirrorWrite_within {M : Nat} {s0 : State} (hM : Sub 0x100000000 M) (s : State) (die a : Nat) (data : List Byte) (hW : Within M s0 s) : Within M s0 (mirrorWrite s die a data) := by
  unfold mirrorWrite
  repeat' first
    | with_reducible assumption
    | (intro x
       first
         | (have hx : Within M s0 x := by
              unfold x
              repeat' first
                | with_reducible assumption
                | dsimp -zeta only
                | with_reducible apply Within.ite1
                | with_reducible apply Within.ite2
                | with_reducible apply Within.ite
                | with_reducible apply mirrorWord_within (Sub.up hM rfl)
                | with_reducible refine each_within (fun _ _ _ => ?_) ?_
                | (with_reducible apply Within.snd <;> [with_reducible assumption; skip])
                | (with_reducible apply Within.fst <;> [with_reducible assumption; skip])
                | (with_reducible apply Within.fst2 <;> [with_reducible assumption; skip])
                | split)
         | (have hx : Within M s0 x.1 := by
              unfold x
              repeat' first
                | with_reducible assumption
                | dsimp -zeta only
                | with_reducible apply Within.ite1
                | with_reducible apply Within.ite2
                | with_reducible apply Within.ite
                | with_reducible apply mirrorWord_within (Sub.up hM rfl)
                | with_reducible refine each_within (fun _ _ _ => ?_) ?_
                | (with_reducible apply Within.snd <;> [with_reducible assumption; skip])
                | (with_reducible apply Within.fst <;> [with_reducible assumption; skip])
                | (with_reducible apply Within.fst2 <;> [with_reducible assumption; skip])
                | split)
         | (have hx : Within M s0 x.2 := by
              unfold x
              repeat' first
                | with_reducible assumption
                | dsimp -zeta only
                | with_reducible apply Within.ite1
                | with_reducible apply Within.ite2
                | with_reducible apply Within.ite
                | with_reducible apply mirrorWord_within (Sub.up hM rfl)
                | with_reducible refine each_within (fun _ _ _ => ?_) ?_
                | (with_reducible apply Within.snd <;> [with_reducible assumption; skip])
                | (with_reducible apply Within.fst <;> [with_reducible assumption; skip])
                | (with_reducible apply Within.fst2 <;> [with_reducible assumption; skip])
                | split)
         | skip
       clear_value x)
    | lift_lets -underBinder
    | dsimp -zeta only
    | with_reducible apply Within.ite1
    | with_reducible apply Within.ite2
    | with_reducible apply Within.ite
    | with_reducible apply mirrorWord_within (Sub.up hM rfl)
    | with_reducible refine each_within (fun _ _ _ => ?_) ?_
    | (with_reducible apply Within.snd <;> [with_reducible assumption; skip])
    | (with_reducible apply Within.fst <;> [with_reducible assumption; skip])
    | (with_reducible apply Within.fst2 <;> [with_reducible assumption; skip])
    | split

theorem putAt_within {M : Nat} {s0 : State} (hM : Sub 0x710000f8b M) (s : State) (die x : Nat) (data : List Byte) (hW : Within M s0 s) : Within M s0 (putAt s die x data).1 := by
  unfold putAt
  repeat' first
    | with_reducible assumption
    | (intro x
       first
         | (have hx : Within M s0 x := by
              unfold x
              repeat' first
                | with_reducible assumption
                | dsimp -zeta only
                | with_reducible apply Within.ite1
                | with_reducible apply Within.ite2
                | with_reducible apply Within.ite
                | with_reducible apply emit_within (Sub.up hM rfl)
                | with_reducible apply wrBytes_within (Sub.up hM rfl)
                | with_reducible apply sliceWrite_within (Sub.up hM rfl)
                | with_reducible apply mirrorWrite_within (Sub.up hM rfl)
                | (with_reducible apply Within.snd <;> [with_reducible assumption; skip])
                | (with_reducible apply Within.fst <;> [with_reducible assumption; skip])
                | (with_reducible apply Within.fst2 <;> [with_reducible assumption; skip])
                | split)
         | (have hx : Within M s0 x.1 := by
              unfold x
              repeat' first
                | with_reducible assumption
                | dsimp -zeta only
                | with_reducible apply Within.ite1
                | with_reducible apply Within.ite2
                | with_reducible apply Within.ite
                | with_reducible apply emit_within (Sub.up hM rfl)
                | with_reducible apply wrBytes_within (Sub.up hM rfl)
                | with_reducible apply sliceWrite_within (Sub.up hM rfl)
                | with_reducible apply mirrorWrite_within (Sub.up hM rfl)
                | (with_reducible apply Within.snd <;> [with_reducible assumption; skip])
                | (with_reducible apply Within.fst <;> [with_reducible assumption; skip])
                | (with_reducible apply Within.fst2 <;> [with_reducible assumption; skip])
                | split)
         | (have hx : Within M s0 x.2 := by
              unfold x
              repeat' first
                | with_reducible assumption
                | dsimp -zeta only
                | with_reducible apply Within.ite1
                | with_reducible apply Within.ite2
                | with_reducible apply Within.ite
                | with_reducible apply emit_within (Sub.up hM rfl)
                | with_reducible apply wrBytes_within (Sub.up hM rfl)
                | with_reducible apply sliceWrite_within (Sub.up hM rfl)
                | with_reducible apply mirrorWrite_within (Sub.up hM rfl)
                | (with_reducible apply Within.snd <;> [with_reducible assumption; skip])
                | (with_reducible apply Within.fst <;> [with_reducible assumption; skip])
                | (with_reducible apply Within.fst2 <;> [with_reducible assumption; skip])
                | split)
         | skip
       clear_value x)
    | lift_lets -underBinder
    | dsimp -zeta only
    | with_reducible apply Within.ite1
    | with_reducible apply Within.ite2
    | with_reducible apply Within.ite
    | with_reducible apply emit_within (Sub.up hM rfl)
    | with_reducible apply wrBytes_within (Sub.up hM rfl)
    | with_reducible apply sliceWrite_within (Sub.up hM rfl)
    | with_reducible apply mirrorWrite_within (Sub.up hM rfl)
    | (with_reducible apply Within.snd <;> [with_reducible assumption; skip])
    | (with_reducible apply Within.fst <;> [with_reducible assumption; skip])
    | (with_reducible apply Within.fst2 <;> [with_reducible assumption; skip])
    | split

theorem getLine_within {M : Nat} {s0 : State} (hM : Sub 0x710000f89 M) (s : State) (n v : Nat) (hW : Within M s0 s) : Within M s0 (getLine s n v).1 := by
  unfold getLine
  repeat' first
    | with_reducible assumption
    | (intro x
       first
         | (have hx : Within M s0 x := by
              unfold x
              repeat' first
                | with_reducible assumption
                | dsimp -zeta only
                | with_reducible apply Within.ite1
                | with_reducible apply Within.ite2
                | with_reducible apply Within.ite
                | with_reducible apply emit_within (Sub.up hM rfl)
                | with_reducible apply sliceRead_within (Sub.up hM rfl)
                | (with_reducible apply Within.snd <;> [with_reducible assumption; skip])
                | (with_reducible apply Within.fst <;> [with_reducible assumption; skip])
                | (with_reducible apply Within.fst2 <;> [with_reducible assumption; skip])
                | split)
         | (have hx : Within M s0 x.1 := by
              unfold x
              repeat' first
                | with_reducible assumption
                | dsimp -zeta only
                | with_reducible apply Within.ite1
                | with_reducible apply Within.ite2
                | with_reducible apply Within.ite
                | with_reducible apply emit_within (Sub.up hM rfl)
                | with_reducible apply sliceRead_within (Sub.up hM rfl)
                | (with_reducible apply Within.snd <;> [with_reducible assumption; skip])
                | (with_reducible apply Within.fst <;> [with_reducible assumption; skip])
                | (with_reducible apply Within.fst2 <;> [with_reducible assumption; skip])
                | split)
         | (have hx : Within M s0 x.2 := by
              unfold x
              repeat' first
                | with_reducible assumption
                | dsimp -zeta only
                | with_reducible apply Within.ite1
                | with_reducible apply Within.ite2
                | with_reducible apply Within.ite
                | with_reducible apply emit_within (Sub.up hM rfl)
                | with_reducible apply sliceRead_within (Sub.up hM rfl)
                | (with_reducible apply Within.snd <;> [with_reducible assumption; skip])
                | (with_reducible apply Within.fst <;> [with_reducible assumption; skip])
                | (with_reducible apply Within.fst2 <;> [with_reducible assumption; skip])
                | split)
         | skip
       clear_value x)
    | lift_lets -underBinder
    | dsimp -zeta only
    | with_reducible apply Within.ite1
    | with_reducible apply Within.ite2
    | with_reducible apply Within.ite
    | with_reducible apply emit_within (Sub.up hM rfl)
    | with_reducible apply sliceRead_within (Sub.up hM rfl)
    | (with_reducible apply Within.snd <;> [with_reducible assumption; skip])
    | (with_reducible apply Within.fst <;> [with_reducible assumption; skip])
    | (with_reducible apply Within.fst2 <;> [with_reducible assumption; skip])
    | split

theorem readSpm_within {M : Nat} {s0 : State} (hM : Sub 0x3100008d3 M) (s : State) (a : Nat) (hW : Within M s0 s) : Within M s0 (readSpm s a).1 := by
  unfold readSpm
  repeat' first
    | with_reducible assumption
    | (intro x
       first
         | (have hx : Within M s0 x := by
              unfold x
              repeat' first
                | with_reducible assumption
                | dsimp -zeta only
                | with_reducible apply Within.ite1
                | with_reducible apply Within.ite
                | with_reducible apply bumpCore_within (Sub.up hM rfl)
                | with_reducible apply setDetect_within (Sub.up hM rfl)
                | with_reducible apply detect_within (Sub.up hM rfl)
                | (with_reducible apply Within.snd <;> [with_reducible assumption; skip])
                | (with_reducible apply Within.fst <;> [with_reducible assumption; skip])
                | (with_reducible apply Within.fst2 <;> [with_reducible assumption; skip])
                | split)
         | (have hx : Within M s0 x.1 := by
              unfold x
              repeat' first
                | with_reducible assumption
                | dsimp -zeta only
                | with_reducible apply Within.ite1
                | with_reducible apply Within.ite
                | with_reducible apply bumpCore_within (Sub.up hM rfl)
                | with_reducible apply setDetect_within (Sub.up hM rfl)
                | with_reducible apply detect_within (Sub.up hM rfl)
                | (with_reducible apply Within.snd <;> [with_reducible assumption; skip])
                | (with_reducible apply Within.fst <;> [with_reducible assumption; skip])
                | (with_reducible apply Within.fst2 <;> [with_reducible assumption; skip])
                | split)
         | (have hx : Within M s0 x.2 := by
              unfold x
              repeat' first
                | with_reducible assumption
                | dsimp -zeta only
                | with_reducible apply Within.ite1
                | with_reducible apply Within.ite
                | with_reducible apply bumpCore_within (Sub.up hM rfl)
                | with_reducible apply setDetect_within (Sub.up hM rfl)
                | with_reducible apply detect_within (Sub.up hM rfl)
                | (with_reducible apply Within.snd <;> [with_reducible assumption; skip])
                | (with_reducible apply Within.fst <;> [with_reducible assumption; skip])
                | (with_reducible apply Within.fst2 <;> [with_reducible assumption; skip])
                | split)
         | skip
       clear_value x)
    | lift_lets -underBinder
    | dsimp -zeta only
    | with_reducible apply Within.ite1
    | with_reducible apply Within.ite
    | with_reducible apply bumpCore_within (Sub.up hM rfl)
    | with_reducible apply setDetect_within (Sub.up hM rfl)
    | with_reducible apply detect_within (Sub.up hM rfl)
    | (with_reducible apply Within.snd <;> [with_reducible assumption; skip])
    | (with_reducible apply Within.fst <;> [with_reducible assumption; skip])
    | (with_reducible apply Within.fst2 <;> [with_reducible assumption; skip])
    | split

theorem untilFault_within {M : Nat} {s0 : State} {α : Type} {f : State → α → State × Nat} {l : List α} {s : State}
    (hf : ∀ t x, Within M s0 t → Within M s0 (f t x).1) (h : Within M s0 s) : Within M s0 (untilFault f l s).1 := by
  induction l generalizing s with
  | nil => exact h
  | cons x l ih =>
    unfold untilFault
    dsimp only
    split
    · exact ih (hf s x h)
    · exact hf s x h

theorem putPiece_within {M : Nat} {s0 : State} (hM : Sub 0x310000093 M) (s : State) (c a : Nat) (data : List Byte) (hW : Within M s0 s) : Within M s0 (putPiece s c a data) := by
  unfold putPiece
  repeat' first
    | with_reducible assumption
    | (intro x
       first
         | (have hx : Within M s0 x := by
              unfold x
              repeat' first
                | with_reducible assumption
                | dsimp -zeta only
                | with_reducible apply Within.ite1
                | with_reducible apply Within.ite2
                | with_reducible apply Within.ite
                | with_reducible apply writeRow_within (Sub.up hM rfl)
                | with_reducible apply loseHomes_within (Sub.up hM rfl)
                | with_reducible apply gatherBytes_within (Sub.up hM rfl)
                | with_reducible apply flushRow_within (Sub.up hM rfl)
                | with_reducible apply noteRow_within (Sub.up hM rfl)
                | (with_reducible apply Within.snd <;> [with_reducible assumption; skip])
                | (with_reducible apply Within.fst <;> [with_reducible assumption; skip])
                | (with_reducible apply Within.fst2 <;> [with_reducible assumption; skip])
                | split)
         | (have hx : Within M s0 x.1 := by
              unfold x
              repeat' first
                | with_reducible assumption
                | dsimp -zeta only
                | with_reducible apply Within.ite1
                | with_reducible apply Within.ite2
                | with_reducible apply Within.ite
                | with_reducible apply writeRow_within (Sub.up hM rfl)
                | with_reducible apply loseHomes_within (Sub.up hM rfl)
                | with_reducible apply gatherBytes_within (Sub.up hM rfl)
                | with_reducible apply flushRow_within (Sub.up hM rfl)
                | with_reducible apply noteRow_within (Sub.up hM rfl)
                | (with_reducible apply Within.snd <;> [with_reducible assumption; skip])
                | (with_reducible apply Within.fst <;> [with_reducible assumption; skip])
                | (with_reducible apply Within.fst2 <;> [with_reducible assumption; skip])
                | split)
         | (have hx : Within M s0 x.2 := by
              unfold x
              repeat' first
                | with_reducible assumption
                | dsimp -zeta only
                | with_reducible apply Within.ite1
                | with_reducible apply Within.ite2
                | with_reducible apply Within.ite
                | with_reducible apply writeRow_within (Sub.up hM rfl)
                | with_reducible apply loseHomes_within (Sub.up hM rfl)
                | with_reducible apply gatherBytes_within (Sub.up hM rfl)
                | with_reducible apply flushRow_within (Sub.up hM rfl)
                | with_reducible apply noteRow_within (Sub.up hM rfl)
                | (with_reducible apply Within.snd <;> [with_reducible assumption; skip])
                | (with_reducible apply Within.fst <;> [with_reducible assumption; skip])
                | (with_reducible apply Within.fst2 <;> [with_reducible assumption; skip])
                | split)
         | skip
       clear_value x)
    | lift_lets -underBinder
    | dsimp -zeta only
    | with_reducible apply Within.ite1
    | with_reducible apply Within.ite2
    | with_reducible apply Within.ite
    | with_reducible apply writeRow_within (Sub.up hM rfl)
    | with_reducible apply loseHomes_within (Sub.up hM rfl)
    | with_reducible apply gatherBytes_within (Sub.up hM rfl)
    | with_reducible apply flushRow_within (Sub.up hM rfl)
    | with_reducible apply noteRow_within (Sub.up hM rfl)
    | (with_reducible apply Within.snd <;> [with_reducible assumption; skip])
    | (with_reducible apply Within.fst <;> [with_reducible assumption; skip])
    | (with_reducible apply Within.fst2 <;> [with_reducible assumption; skip])
    | split

theorem getRange_within {M : Nat} {s0 : State} (hM : Sub 0x710000f89 M) (s : State) (n va len : Nat) (hW : Within M s0 s) : Within M s0 (getRange s n va len).1 := by
  unfold getRange
  repeat' first
    | with_reducible assumption
    | (intro x
       first
         | (have hx : Within M s0 x := by
              unfold x
              repeat' first
                | with_reducible assumption
                | dsimp -zeta only
                | with_reducible apply Within.ite1
                | with_reducible apply Within.ite2
                | with_reducible apply Within.ite
                | with_reducible apply getLine_within (Sub.up hM rfl)
                | with_reducible refine untilFault_within (fun _ _ _ => ?_) ?_
                | (with_reducible apply Within.snd <;> [with_reducible assumption; skip])
                | (with_reducible apply Within.fst <;> [with_reducible assumption; skip])
                | (with_reducible apply Within.fst2 <;> [with_reducible assumption; skip])
                | split)
         | (have hx : Within M s0 x.1 := by
              unfold x
              repeat' first
                | with_reducible assumption
                | dsimp -zeta only
                | with_reducible apply Within.ite1
                | with_reducible apply Within.ite2
                | with_reducible apply Within.ite
                | with_reducible apply getLine_within (Sub.up hM rfl)
                | with_reducible refine untilFault_within (fun _ _ _ => ?_) ?_
                | (with_reducible apply Within.snd <;> [with_reducible assumption; skip])
                | (with_reducible apply Within.fst <;> [with_reducible assumption; skip])
                | (with_reducible apply Within.fst2 <;> [with_reducible assumption; skip])
                | split)
         | (have hx : Within M s0 x.2 := by
              unfold x
              repeat' first
                | with_reducible assumption
                | dsimp -zeta only
                | with_reducible apply Within.ite1
                | with_reducible apply Within.ite2
                | with_reducible apply Within.ite
                | with_reducible apply getLine_within (Sub.up hM rfl)
                | with_reducible refine untilFault_within (fun _ _ _ => ?_) ?_
                | (with_reducible apply Within.snd <;> [with_reducible assumption; skip])
                | (with_reducible apply Within.fst <;> [with_reducible assumption; skip])
                | (with_reducible apply Within.fst2 <;> [with_reducible assumption; skip])
                | split)
         | skip
       clear_value x)
    | lift_lets -underBinder
    | dsimp -zeta only
    | with_reducible apply Within.ite1
    | with_reducible apply Within.ite2
    | with_reducible apply Within.ite
    | with_reducible apply getLine_within (Sub.up hM rfl)
    | with_reducible refine untilFault_within (fun _ _ _ => ?_) ?_
    | (with_reducible apply Within.snd <;> [with_reducible assumption; skip])
    | (with_reducible apply Within.fst <;> [with_reducible assumption; skip])
    | (with_reducible apply Within.fst2 <;> [with_reducible assumption; skip])
    | split

theorem getRows_within {M : Nat} {s0 : State} (hM : Sub 0x710000fdb M) (s : State) (c : Nat) (t : CoreTask) (l : List Nat) (hW : Within M s0 s) : Within M s0 (getRows s c t l) := by
  unfold getRows
  repeat' first
    | with_reducible assumption
    | (intro x
       first
         | (have hx : Within M s0 x := by
              unfold x
              repeat' first
                | with_reducible assumption
                | dsimp -zeta only
                | with_reducible apply Within.ite1
                | with_reducible apply Within.ite2
                | with_reducible apply Within.ite
                | with_reducible apply faultCore_within (Sub.up hM rfl)
                | with_reducible apply tagsWithin_within (Sub.up hM rfl)
                | with_reducible apply getLine_within (Sub.up hM rfl)
                | with_reducible refine untilFault_within (fun _ _ _ => ?_) ?_
                | (with_reducible apply Within.snd <;> [with_reducible assumption; skip])
                | (with_reducible apply Within.fst <;> [with_reducible assumption; skip])
                | (with_reducible apply Within.fst2 <;> [with_reducible assumption; skip])
                | split)
         | (have hx : Within M s0 x.1 := by
              unfold x
              repeat' first
                | with_reducible assumption
                | dsimp -zeta only
                | with_reducible apply Within.ite1
                | with_reducible apply Within.ite2
                | with_reducible apply Within.ite
                | with_reducible apply faultCore_within (Sub.up hM rfl)
                | with_reducible apply tagsWithin_within (Sub.up hM rfl)
                | with_reducible apply getLine_within (Sub.up hM rfl)
                | with_reducible refine untilFault_within (fun _ _ _ => ?_) ?_
                | (with_reducible apply Within.snd <;> [with_reducible assumption; skip])
                | (with_reducible apply Within.fst <;> [with_reducible assumption; skip])
                | (with_reducible apply Within.fst2 <;> [with_reducible assumption; skip])
                | split)
         | (have hx : Within M s0 x.2 := by
              unfold x
              repeat' first
                | with_reducible assumption
                | dsimp -zeta only
                | with_reducible apply Within.ite1
                | with_reducible apply Within.ite2
                | with_reducible apply Within.ite
                | with_reducible apply faultCore_within (Sub.up hM rfl)
                | with_reducible apply tagsWithin_within (Sub.up hM rfl)
                | with_reducible apply getLine_within (Sub.up hM rfl)
                | with_reducible refine untilFault_within (fun _ _ _ => ?_) ?_
                | (with_reducible apply Within.snd <;> [with_reducible assumption; skip])
                | (with_reducible apply Within.fst <;> [with_reducible assumption; skip])
                | (with_reducible apply Within.fst2 <;> [with_reducible assumption; skip])
                | split)
         | skip
       clear_value x)
    | lift_lets -underBinder
    | dsimp -zeta only
    | with_reducible apply Within.ite1
    | with_reducible apply Within.ite2
    | with_reducible apply Within.ite
    | with_reducible apply faultCore_within (Sub.up hM rfl)
    | with_reducible apply tagsWithin_within (Sub.up hM rfl)
    | with_reducible apply getLine_within (Sub.up hM rfl)
    | with_reducible refine untilFault_within (fun _ _ _ => ?_) ?_
    | (with_reducible apply Within.snd <;> [with_reducible assumption; skip])
    | (with_reducible apply Within.fst <;> [with_reducible assumption; skip])
    | (with_reducible apply Within.fst2 <;> [with_reducible assumption; skip])
    | split

theorem ovfStore_within {M : Nat} {s0 : State} (hM : Sub 0x710000fdb M) (s : State) (c n a : Nat) (data : List Byte) (hW : Within M s0 s) : Within M s0 (ovfStore s c n a data) := by
  unfold ovfStore
  repeat' first
    | with_reducible assumption
    | (intro x
       first
         | (have hx : Within M s0 x := by
              unfold x
              repeat' first
                | with_reducible assumption
                | dsimp -zeta only
                | with_reducible apply Within.ite1
                | with_reducible apply Within.ite2
                | with_reducible apply Within.ite
                | with_reducible apply bumpCore_within (Sub.up hM rfl)
                | with_reducible apply faultCore_within (Sub.up hM rfl)
                | with_reducible apply tagsWithin_within (Sub.up hM rfl)
                | with_reducible apply putAt_within (Sub.up hM rfl)
                | (with_reducible apply Within.snd <;> [with_reducible assumption; skip])
                | (with_reducible apply Within.fst <;> [with_reducible assumption; skip])
                | (with_reducible apply Within.fst2 <;> [with_reducible assumption; skip])
                | split)
         | (have hx : Within M s0 x.1 := by
              unfold x
              repeat' first
                | with_reducible assumption
                | dsimp -zeta only
                | with_reducible apply Within.ite1
                | with_reducible apply Within.ite2
                | with_reducible apply Within.ite
                | with_reducible apply bumpCore_within (Sub.up hM rfl)
                | with_reducible apply faultCore_within (Sub.up hM rfl)
                | with_reducible apply tagsWithin_within (Sub.up hM rfl)
                | with_reducible apply putAt_within (Sub.up hM rfl)
                | (with_reducible apply Within.snd <;> [with_reducible assumption; skip])
                | (with_reducible apply Within.fst <;> [with_reducible assumption; skip])
                | (with_reducible apply Within.fst2 <;> [with_reducible assumption; skip])
                | split)
         | (have hx : Within M s0 x.2 := by
              unfold x
              repeat' first
                | with_reducible assumption
                | dsimp -zeta only
                | with_reducible apply Within.ite1
                | with_reducible apply Within.ite2
                | with_reducible apply Within.ite
                | with_reducible apply bumpCore_within (Sub.up hM rfl)
                | with_reducible apply faultCore_within (Sub.up hM rfl)
                | with_reducible apply tagsWithin_within (Sub.up hM rfl)
                | with_reducible apply putAt_within (Sub.up hM rfl)
                | (with_reducible apply Within.snd <;> [with_reducible assumption; skip])
                | (with_reducible apply Within.fst <;> [with_reducible assumption; skip])
                | (with_reducible apply Within.fst2 <;> [with_reducible assumption; skip])
                | split)
         | skip
       clear_value x)
    | lift_lets -underBinder
    | dsimp -zeta only
    | with_reducible apply Within.ite1
    | with_reducible apply Within.ite2
    | with_reducible apply Within.ite
    | with_reducible apply bumpCore_within (Sub.up hM rfl)
    | with_reducible apply faultCore_within (Sub.up hM rfl)
    | with_reducible apply tagsWithin_within (Sub.up hM rfl)
    | with_reducible apply putAt_within (Sub.up hM rfl)
    | (with_reducible apply Within.snd <;> [with_reducible assumption; skip])
    | (with_reducible apply Within.fst <;> [with_reducible assumption; skip])
    | (with_reducible apply Within.fst2 <;> [with_reducible assumption; skip])
    | split

end Sys2Proof.Machine
end

