-- ==== Sys2Proof/Laws/WithinIngress.lean ====
section
/-! SUPPORT. What the operations and commands of Machine/Ingress can do to the state (Laws/Within). -/

namespace Sys2Proof.Machine

theorem recordNackAt_within {M : Nat} {s0 : State} (hM : Sub 0x1 M) (s : State) (c m row cause : Nat) (src : Source) (hW : Within M s0 s) : Within M s0 (recordNackAt s c m row cause src) := by
  unfold recordNackAt
  repeat' first
    | with_reducible assumption
    | (intro x
       first
         | (have hx : Within M s0 x := by
              unfold x
              repeat' first
                | with_reducible assumption
                | dsimp -zeta only
                | with_reducible apply Within.ite1
                | with_reducible apply Within.ite2
                | with_reducible apply Within.ite
                | with_reducible apply setReg_within (Sub.up hM rfl)
                | with_reducible apply bumpCore_within (Sub.up hM rfl)
                | (with_reducible apply Within.snd <;> [with_reducible assumption; skip])
                | (with_reducible apply Within.fst <;> [with_reducible assumption; skip])
                | (with_reducible apply Within.fst2 <;> [with_reducible assumption; skip])
                | split)
         | (have hx : Within M s0 x.1 := by
              unfold x
              repeat' first
                | with_reducible assumption
                | dsimp -zeta only
                | with_reducible apply Within.ite1
                | with_reducible apply Within.ite2
                | with_reducible apply Within.ite
                | with_reducible apply setReg_within (Sub.up hM rfl)
                | with_reducible apply bumpCore_within (Sub.up hM rfl)
                | (with_reducible apply Within.snd <;> [with_reducible assumption; skip])
                | (with_reducible apply Within.fst <;> [with_reducible assumption; skip])
                | (with_reducible apply Within.fst2 <;> [with_reducible assumption; skip])
                | split)
         | (have hx : Within M s0 x.2 := by
              unfold x
              repeat' first
                | with_reducible assumption
                | dsimp -zeta only
                | with_reducible apply Within.ite1
                | with_reducible apply Within.ite2
                | with_reducible apply Within.ite
                | with_reducible apply setReg_within (Sub.up hM rfl)
                | with_reducible apply bumpCore_within (Sub.up hM rfl)
                | (with_reducible apply Within.snd <;> [with_reducible assumption; skip])
                | (with_reducible apply Within.fst <;> [with_reducible assumption; skip])
                | (with_reducible apply Within.fst2 <;> [with_reducible assumption; skip])
                | split)
         | skip
       clear_value x)
    | lift_lets -underBinder
    | dsimp -zeta only
    | with_reducible apply Within.ite1
    | with_reducible apply Within.ite2
    | with_reducible apply Within.ite
    | with_reducible apply setReg_within (Sub.up hM rfl)
    | with_reducible apply bumpCore_within (Sub.up hM rfl)
    | (with_reducible apply Within.snd <;> [with_reducible assumption; skip])
    | (with_reducible apply Within.fst <;> [with_reducible assumption; skip])
    | (with_reducible apply Within.fst2 <;> [with_reducible assumption; skip])
    | split

theorem recordNack_within {M : Nat} {s0 : State} (hM : Sub 0x1 M) (s : State) (c w off cause : Nat) (src : Source) (hW : Within M s0 s) : Within M s0 (recordNack s c w off cause src) := by
  unfold recordNack
  repeat' first
    | with_reducible assumption
    | (intro x
       first
         | (have hx : Within M s0 x := by
              unfold x
              repeat' first
                | with_reducible assumption
                | dsimp -zeta only
                | with_reducible apply Within.ite1
                | with_reducible apply Within.ite2
                | with_reducible apply Within.ite
                | with_reducible apply recordNackAt_within (Sub.up hM rfl)
                | (with_reducible apply Within.snd <;> [with_reducible assumption; skip])
                | (with_reducible apply Within.fst <;> [with_reducible assumption; skip])
                | (with_reducible apply Within.fst2 <;> [with_reducible assumption; skip])
                | split)
         | (have hx : Within M s0 x.1 := by
              unfold x
              repeat' first
                | with_reducible assumption
                | dsimp -zeta only
                | with_reducible apply Within.ite1
                | with_reducible apply Within.ite2
                | with_reducible apply Within.ite
                | with_reducible apply recordNackAt_within (Sub.up hM rfl)
                | (with_reducible apply Within.snd <;> [with_reducible assumption; skip])
                | (with_reducible apply Within.fst <;> [with_reducible assumption; skip])
                | (with_reducible apply Within.fst2 <;> [with_reducible assumption; skip])
                | split)
         | (have hx : Within M s0 x.2 := by
              unfold x
              repeat' first
                | with_reducible assumption
                | dsimp -zeta only
                | with_reducible apply Within.ite1
                | with_reducible apply Within.ite2
                | with_reducible apply Within.ite
                | with_reducible apply recordNackAt_within (Sub.up hM rfl)
                | (with_reducible apply Within.snd <;> [with_reducible assumption; skip])
                | (with_reducible apply Within.fst <;> [with_reducible assumption; skip])
                | (with_reducible apply Within.fst2 <;> [with_reducible assumption; skip])
                | split)
         | skip
       clear_value x)
    | lift_lets -underBinder
    | dsimp -zeta only
    | with_reducible apply Within.ite1
    | with_reducible apply Within.ite2
    | with_reducible apply Within.ite
    | with_reducible apply recordNackAt_within (Sub.up hM rfl)
    | (with_reducible apply Within.snd <;> [with_reducible assumption; skip])
    | (with_reducible apply Within.fst <;> [with_reducible assumption; skip])
    | (with_reducible apply Within.fst2 <;> [with_reducible assumption; skip])
    | split

theorem countWindow_within {M : Nat} {s0 : State} (hM : Sub 0x100000011 M) (s : State) (c w : Nat) (region : Bool) (hW : Within M s0 s) : Within M s0 (countWindow s c w region) := by
  unfold countWindow
  repeat' first
    | with_reducible assumption
    | (intro x
       first
         | (have hx : Within M s0 x := by
              unfold x
              repeat' first
                | with_reducible assumption
                | with_reducible apply Within.ite
                | with_reducible apply countMarker_within (Sub.up hM rfl)
                | (with_reducible apply Within.snd <;> [with_reducible assumption; skip])
                | (with_reducible apply Within.fst <;> [with_reducible assumption; skip])
                | (with_reducible apply Within.fst2 <;> [with_reducible assumption; skip])
                | split)
         | skip
       clear_value x)
    | lift_lets -underBinder
    | with_reducible apply Within.ite
    | with_reducible apply countMarker_within (Sub.up hM rfl)
    | (with_reducible apply Within.snd <;> [with_reducible assumption; skip])
    | (with_reducible apply Within.fst <;> [with_reducible assumption; skip])
    | (with_reducible apply Within.fst2 <;> [with_reducible assumption; skip])
    | split

theorem addElems_within {M : Nat} {s0 : State} (hM : Sub 0x3100008d3 M) (s : State) (c m row off : Nat) (data : List Byte) (hW : Within M s0 s) : Within M s0 (addElems s c m row off data).1 := by
  unfold addElems
  repeat' first
    | with_reducible assumption
    | (intro x
       first
         | (have hx : Within M s0 x := by
              unfold x
              repeat' first
                | with_reducible assumption
                | dsimp -zeta only
                | with_reducible apply Within.ite1
                | with_reducible apply Within.ite2
                | with_reducible apply Within.ite
                | with_reducible apply bumpCore_within (Sub.up hM rfl)
                | with_reducible apply wrBytes_within (Sub.up hM rfl)
                | with_reducible apply loseHomes_within (Sub.up hM rfl)
                | with_reducible apply flushRow_within (Sub.up hM rfl)
                | with_reducible apply detect_within (Sub.up hM rfl)
                | with_reducible refine each_within (fun _ _ _ => ?_) ?_
                | (with_reducible apply Within.snd <;> [with_reducible assumption; skip])
                | (with_reducible apply Within.fst <;> [with_reducible assumption; skip])
                | (with_reducible apply Within.fst2 <;> [with_reducible assumption; skip])
                | split)
         | (have hx : Within M s0 x.1 := by
              unfold x
              repeat' first
                | with_reducible assumption
                | dsimp -zeta only
                | with_reducible apply Within.ite1
                | with_reducible apply Within.ite2
                | with_reducible apply Within.ite
                | with_reducible apply bumpCore_within (Sub.up hM rfl)
                | with_reducible apply wrBytes_within (Sub.up hM rfl)
                | with_reducible apply loseHomes_within (Sub.up hM rfl)
                | with_reducible apply flushRow_within (Sub.up hM rfl)
                | with_reducible apply detect_within (Sub.up hM rfl)
                | with_reducible refine each_within (fun _ _ _ => ?_) ?_
                | (with_reducible apply Within.snd <;> [with_reducible assumption; skip])
                | (with_reducible apply Within.fst <;> [with_reducible assumption; skip])
                | (with_reducible apply Within.fst2 <;> [with_reducible assumption; skip])
                | split)
         | (have hx : Within M s0 x.2 := by
              unfold x
              repeat' first
                | with_reducible assumption
                | dsimp -zeta only
                | with_reducible apply Within.ite1
                | with_reducible apply Within.ite2
                | with_reducible apply Within.ite
                | with_reducible apply bumpCore_within (Sub.up hM rfl)
                | with_reducible apply wrBytes_within (Sub.up hM rfl)
                | with_reducible apply loseHomes_within (Sub.up hM rfl)
                | with_reducible apply flushRow_within (Sub.up hM rfl)
                | with_reducible apply detect_within (Sub.up hM rfl)
                | with_reducible refine each_within (fun _ _ _ => ?_) ?_
                | (with_reducible apply Within.snd <;> [with_reducible assumption; skip])
                | (with_reducible apply Within.fst <;> [with_reducible assumption; skip])
                | (with_reducible apply Within.fst2 <;> [with_reducible assumption; skip])
                | split)
         | skip
       clear_value x)
    | lift_lets -underBinder
    | dsimp -zeta only
    | with_reducible apply Within.ite1
    | with_reducible apply Within.ite2
    | with_reducible apply Within.ite
    | with_reducible apply bumpCore_within (Sub.up hM rfl)
    | with_reducible apply wrBytes_within (Sub.up hM rfl)
    | with_reducible apply loseHomes_within (Sub.up hM rfl)
    | with_reducible apply flushRow_within (Sub.up hM rfl)
    | with_reducible apply detect_within (Sub.up hM rfl)
    | with_reducible refine each_within (fun _ _ _ => ?_) ?_
    | (with_reducible apply Within.snd <;> [with_reducible assumption; skip])
    | (with_reducible apply Within.fst <;> [with_reducible assumption; skip])
    | (with_reducible apply Within.fst2 <;> [with_reducible assumption; skip])
    | split

theorem addWindow_within {M : Nat} {s0 : State} (hM : Sub 0x3100008d3 M) (s : State) (c w row off : Nat) (data : List Byte) (hW : Within M s0 s) : Within M s0 (addWindow s c w row off data) := by
  unfold addWindow
  repeat' first
    | with_reducible assumption
    | (intro x
       first
         | (have hx : Within M s0 x := by
              unfold x
              repeat' first
                | with_reducible assumption
                | dsimp -zeta only
                | with_reducible apply Within.ite1
                | with_reducible apply Within.ite2
                | with_reducible apply Within.ite
                | with_reducible apply countWindow_within (Sub.up hM rfl)
                | with_reducible apply addElems_within (Sub.up hM rfl)
                | (with_reducible apply Within.snd <;> [with_reducible assumption; skip])
                | (with_reducible apply Within.fst <;> [with_reducible assumption; skip])
                | (with_reducible apply Within.fst2 <;> [with_reducible assumption; skip])
                | split)
         | (have hx : Within M s0 x.1 := by
              unfold x
              repeat' first
                | with_reducible assumption
                | dsimp -zeta only
                | with_reducible apply Within.ite1
                | with_reducible apply Within.ite2
                | with_reducible apply Within.ite
                | with_reducible apply countWindow_within (Sub.up hM rfl)
                | with_reducible apply addElems_within (Sub.up hM rfl)
                | (with_reducible apply Within.snd <;> [with_reducible assumption; skip])
                | (with_reducible apply Within.fst <;> [with_reducible assumption; skip])
                | (with_reducible apply Within.fst2 <;> [with_reducible assumption; skip])
                | split)
         | (have hx : Within M s0 x.2 := by
              unfold x
              repeat' first
                | with_reducible assumption
                | dsimp -zeta only
                | with_reducible apply Within.ite1
                | with_reducible apply Within.ite2
                | with_reducible apply Within.ite
                | with_reducible apply countWindow_within (Sub.up hM rfl)
                | with_reducible apply addElems_within (Sub.up hM rfl)
                | (with_reducible apply Within.snd <;> [with_reducible assumption; skip])
                | (with_reducible apply Within.fst <;> [with_reducible assumption; skip])
                | (with_reducible apply Within.fst2 <;> [with_reducible assumption; skip])
                | split)
         | skip
       clear_value x)
    | lift_lets -underBinder
    | dsimp -zeta only
    | with_reducible apply Within.ite1
    | with_reducible apply Within.ite2
    | with_reducible apply Within.ite
    | with_reducible apply countWindow_within (Sub.up hM rfl)
    | with_reducible apply addElems_within (Sub.up hM rfl)
    | (with_reducible apply Within.snd <;> [with_reducible assumption; skip])
    | (with_reducible apply Within.fst <;> [with_reducible assumption; skip])
    | (with_reducible apply Within.fst2 <;> [with_reducible assumption; skip])
    | split

theorem landWindowRow_within {M : Nat} {s0 : State} (hM : Sub 0x710000fdb M) (s : State) (c w off : Nat) (data : List Byte) (hW : Within M s0 s) : Within M s0 (landWindowRow s c w off data) := by
  unfold landWindowRow
  repeat' first
    | with_reducible assumption
    | (intro x
       first
         | (have hx : Within M s0 x := by
              unfold x
              repeat' first
                | with_reducible assumption
                | dsimp -zeta only
                | with_reducible apply Within.ite1
                | with_reducible apply Within.ite2
                | with_reducible apply Within.ite
                | with_reducible apply advanceTail_within (Sub.up hM rfl)
                | with_reducible apply writeRow_within (Sub.up hM rfl)
                | with_reducible apply loseHomes_within (Sub.up hM rfl)
                | with_reducible apply flushRow_within (Sub.up hM rfl)
                | with_reducible apply ovfStore_within (Sub.up hM rfl)
                | with_reducible apply countWindow_within (Sub.up hM rfl)
                | with_reducible apply addWindow_within (Sub.up hM rfl)
                | with_reducible refine ovfAlloc_within (Sub.up hM rfl) ‹ovfAlloc _ _ _ _ = some _› ?_
                | (with_reducible apply Within.snd <;> [with_reducible assumption; skip])
                | (with_reducible apply Within.fst <;> [with_reducible assumption; skip])
                | (with_reducible apply Within.fst2 <;> [with_reducible assumption; skip])
                | split)
         | (have hx : Within M s0 x.1 := by
              unfold x
              repeat' first
                | with_reducible assumption
                | dsimp -zeta only
                | with_reducible apply Within.ite1
                | with_reducible apply Within.ite2
                | with_reducible apply Within.ite
                | with_reducible apply advanceTail_within (Sub.up hM rfl)
                | with_reducible apply writeRow_within (Sub.up hM rfl)
                | with_reducible apply loseHomes_within (Sub.up hM rfl)
                | with_reducible apply flushRow_within (Sub.up hM rfl)
                | with_reducible apply ovfStore_within (Sub.up hM rfl)
                | with_reducible apply countWindow_within (Sub.up hM rfl)
                | with_reducible apply addWindow_within (Sub.up hM rfl)
                | with_reducible refine ovfAlloc_within (Sub.up hM rfl) ‹ovfAlloc _ _ _ _ = some _› ?_
                | (with_reducible apply Within.snd <;> [with_reducible assumption; skip])
                | (with_reducible apply Within.fst <;> [with_reducible assumption; skip])
                | (with_reducible apply Within.fst2 <;> [with_reducible assumption; skip])
                | split)
         | (have hx : Within M s0 x.2 := by
              unfold x
              repeat' first
                | with_reducible assumption
                | dsimp -zeta only
                | with_reducible apply Within.ite1
                | with_reducible apply Within.ite2
                | with_reducible apply Within.ite
                | with_reducible apply advanceTail_within (Sub.up hM rfl)
                | with_reducible apply writeRow_within (Sub.up hM rfl)
                | with_reducible apply loseHomes_within (Sub.up hM rfl)
                | with_reducible apply flushRow_within (Sub.up hM rfl)
                | with_reducible apply ovfStore_within (Sub.up hM rfl)
                | with_reducible apply countWindow_within (Sub.up hM rfl)
                | with_reducible apply addWindow_within (Sub.up hM rfl)
                | with_reducible refine ovfAlloc_within (Sub.up hM rfl) ‹ovfAlloc _ _ _ _ = some _› ?_
                | (with_reducible apply Within.snd <;> [with_reducible assumption; skip])
                | (with_reducible apply Within.fst <;> [with_reducible assumption; skip])
                | (with_reducible apply Within.fst2 <;> [with_reducible assumption; skip])
                | split)
         | skip
       clear_value x)
    | lift_lets -underBinder
    | dsimp -zeta only
    | with_reducible apply Within.ite1
    | with_reducible apply Within.ite2
    | with_reducible apply Within.ite
    | with_reducible apply advanceTail_within (Sub.up hM rfl)
    | with_reducible apply writeRow_within (Sub.up hM rfl)
    | with_reducible apply loseHomes_within (Sub.up hM rfl)
    | with_reducible apply flushRow_within (Sub.up hM rfl)
    | with_reducible apply ovfStore_within (Sub.up hM rfl)
    | with_reducible apply countWindow_within (Sub.up hM rfl)
    | with_reducible apply addWindow_within (Sub.up hM rfl)
    | with_reducible refine ovfAlloc_within (Sub.up hM rfl) ‹ovfAlloc _ _ _ _ = some _› ?_
    | (with_reducible apply Within.snd <;> [with_reducible assumption; skip])
    | (with_reducible apply Within.fst <;> [with_reducible assumption; skip])
    | (with_reducible apply Within.fst2 <;> [with_reducible assumption; skip])
    | split

theorem ingressRow_within {M : Nat} {s0 : State} (hM : Sub 0x710000fdb M) (s : State) (c w off : Nat) (src : Source) (data : List Byte) (hW : Within M s0 s) : Within M s0 (ingressRow s c w off src data).1 := by
  unfold ingressRow
  repeat' first
    | with_reducible assumption
    | (intro x
       first
         | (have hx : Within M s0 x := by
              unfold x
              repeat' first
                | with_reducible assumption
                | dsimp -zeta only
                | with_reducible apply Within.ite1
                | with_reducible apply Within.ite
                | with_reducible apply recordNack_within (Sub.up hM rfl)
                | with_reducible apply landWindowRow_within (Sub.up hM rfl)
                | split)
         | (have hx : Within M s0 x.1 := by
              unfold x
              repeat' first
                | with_reducible assumption
                | dsimp -zeta only
                | with_reducible apply Within.ite1
                | with_reducible apply Within.ite
                | with_reducible apply recordNack_within (Sub.up hM rfl)
                | with_reducible apply landWindowRow_within (Sub.up hM rfl)
                | split)
         | (have hx : Within M s0 x.2 := by
              unfold x
              repeat' first
                | with_reducible assumption
                | dsimp -zeta only
                | with_reducible apply Within.ite1
                | with_reducible apply Within.ite
                | with_reducible apply recordNack_within (Sub.up hM rfl)
                | with_reducible apply landWindowRow_within (Sub.up hM rfl)
                | split)
         | skip
       clear_value x)
    | lift_lets -underBinder
    | dsimp -zeta only
    | with_reducible apply Within.ite1
    | with_reducible apply Within.ite
    | with_reducible apply recordNack_within (Sub.up hM rfl)
    | with_reducible apply landWindowRow_within (Sub.up hM rfl)
    | split

theorem ingressNarrow_within {M : Nat} {s0 : State} (hM : Sub 0x3100008d3 M) (s : State) (c w off byte : Nat) (src : Source) (data : List Byte) (readFails : Bool) (hW : Within M s0 s) : Within M s0 (ingressNarrow s c w off byte src data readFails).1 := by
  unfold ingressNarrow
  repeat' first
    | with_reducible assumption
    | (intro x
       first
         | (have hx : Within M s0 x := by
              unfold x
              repeat' first
                | with_reducible assumption
                | dsimp -zeta only
                | with_reducible apply Within.ite1
                | with_reducible apply Within.ite2
                | with_reducible apply Within.ite
                | with_reducible apply gatherBytes_within (Sub.up hM rfl)
                | with_reducible apply recordNack_within (Sub.up hM rfl)
                | with_reducible apply addWindow_within (Sub.up hM rfl)
                | (with_reducible apply Within.snd <;> [with_reducible assumption; skip])
                | (with_reducible apply Within.fst <;> [with_reducible assumption; skip])
                | (with_reducible apply Within.fst2 <;> [with_reducible assumption; skip])
                | split)
         | (have hx : Within M s0 x.1 := by
              unfold x
              repeat' first
                | with_reducible assumption
                | dsimp -zeta only
                | with_reducible apply Within.ite1
                | with_reducible apply Within.ite2
                | with_reducible apply Within.ite
                | with_reducible apply gatherBytes_within (Sub.up hM rfl)
                | with_reducible apply recordNack_within (Sub.up hM rfl)
                | with_reducible apply addWindow_within (Sub.up hM rfl)
                | (with_reducible apply Within.snd <;> [with_reducible assumption; skip])
                | (with_reducible apply Within.fst <;> [with_reducible assumption; skip])
                | (with_reducible apply Within.fst2 <;> [with_reducible assumption; skip])
                | split)
         | (have hx : Within M s0 x.2 := by
              unfold x
              repeat' first
                | with_reducible assumption
                | dsimp -zeta only
                | with_reducible apply Within.ite1
                | with_reducible apply Within.ite2
                | with_reducible apply Within.ite
                | with_reducible apply gatherBytes_within (Sub.up hM rfl)
                | with_reducible apply recordNack_within (Sub.up hM rfl)
                | with_reducible apply addWindow_within (Sub.up hM rfl)
                | (with_reducible apply Within.snd <;> [with_reducible assumption; skip])
                | (with_reducible apply Within.fst <;> [with_reducible assumption; skip])
                | (with_reducible apply Within.fst2 <;> [with_reducible assumption; skip])
                | split)
         | skip
       clear_value x)
    | lift_lets -underBinder
    | dsimp -zeta only
    | with_reducible apply Within.ite1
    | with_reducible apply Within.ite2
    | with_reducible apply Within.ite
    | with_reducible apply gatherBytes_within (Sub.up hM rfl)
    | with_reducible apply recordNack_within (Sub.up hM rfl)
    | with_reducible apply addWindow_within (Sub.up hM rfl)
    | (with_reducible apply Within.snd <;> [with_reducible assumption; skip])
    | (with_reducible apply Within.fst <;> [with_reducible assumption; skip])
    | (with_reducible apply Within.fst2 <;> [with_reducible assumption; skip])
    | split

theorem windowStore_within {M : Nat} {s0 : State} (hM : Sub 0x710000fdb M) (s : State) (src : Source) (a : Nat) (data : List Byte) (hW : Within M s0 s) : Within M s0 (windowStore s src a data).1 := by
  unfold windowStore
  repeat' first
    | with_reducible assumption
    | (intro x
       first
         | (have hx : Within M s0 x := by
              unfold x
              repeat' first
                | with_reducible assumption
                | dsimp -zeta only
                | with_reducible apply Within.ite1
                | with_reducible apply Within.ite2
                | with_reducible apply Within.ite
                | with_reducible apply recordNackAt_within (Sub.up hM rfl)
                | with_reducible apply ingressRow_within (Sub.up hM rfl)
                | with_reducible apply ingressNarrow_within (Sub.up hM rfl)
                | with_reducible refine untilFault_within (fun _ _ _ => ?_) ?_
                | (with_reducible apply Within.snd <;> [with_reducible assumption; skip])
                | (with_reducible apply Within.fst <;> [with_reducible assumption; skip])
                | (with_reducible apply Within.fst2 <;> [with_reducible assumption; skip])
                | split)
         | (have hx : Within M s0 x.1 := by
              unfold x
              repeat' first
                | with_reducible assumption
                | dsimp -zeta only
                | with_reducible apply Within.ite1
                | with_reducible apply Within.ite2
                | with_reducible apply Within.ite
                | with_reducible apply recordNackAt_within (Sub.up hM rfl)
                | with_reducible apply ingressRow_within (Sub.up hM rfl)
                | with_reducible apply ingressNarrow_within (Sub.up hM rfl)
                | with_reducible refine untilFault_within (fun _ _ _ => ?_) ?_
                | (with_reducible apply Within.snd <;> [with_reducible assumption; skip])
                | (with_reducible apply Within.fst <;> [with_reducible assumption; skip])
                | (with_reducible apply Within.fst2 <;> [with_reducible assumption; skip])
                | split)
         | (have hx : Within M s0 x.2 := by
              unfold x
              repeat' first
                | with_reducible assumption
                | dsimp -zeta only
                | with_reducible apply Within.ite1
                | with_reducible apply Within.ite2
                | with_reducible apply Within.ite
                | with_reducible apply recordNackAt_within (Sub.up hM rfl)
                | with_reducible apply ingressRow_within (Sub.up hM rfl)
                | with_reducible apply ingressNarrow_within (Sub.up hM rfl)
                | with_reducible refine untilFault_within (fun _ _ _ => ?_) ?_
                | (with_reducible apply Within.snd <;> [with_reducible assumption; skip])
                | (with_reducible apply Within.fst <;> [with_reducible assumption; skip])
                | (with_reducible apply Within.fst2 <;> [with_reducible assumption; skip])
                | split)
         | skip
       clear_value x)
    | lift_lets -underBinder
    | dsimp -zeta only
    | with_reducible apply Within.ite1
    | with_reducible apply Within.ite2
    | with_reducible apply Within.ite
    | with_reducible apply recordNackAt_within (Sub.up hM rfl)
    | with_reducible apply ingressRow_within (Sub.up hM rfl)
    | with_reducible apply ingressNarrow_within (Sub.up hM rfl)
    | with_reducible refine untilFault_within (fun _ _ _ => ?_) ?_
    | (with_reducible apply Within.snd <;> [with_reducible assumption; skip])
    | (with_reducible apply Within.fst <;> [with_reducible assumption; skip])
    | (with_reducible apply Within.fst2 <;> [with_reducible assumption; skip])
    | split

theorem putLine_within {M : Nat} {s0 : State} (hM : Sub 0x710000fdb M) (s : State) (src : Source) (n v : Nat) (data : List Byte) (hW : Within M s0 s) : Within M s0 (putLine s src n v data).1 := by
  unfold putLine
  repeat' first
    | with_reducible assumption
    | (intro x
       first
         | (have hx : Within M s0 x := by
              unfold x
              repeat' first
                | with_reducible assumption
                | dsimp -zeta only
                | with_reducible apply Within.ite1
                | with_reducible apply Within.ite2
                | with_reducible apply Within.ite
                | with_reducible apply putAt_within (Sub.up hM rfl)
                | with_reducible apply windowStore_within (Sub.up hM rfl)
                | (with_reducible apply Within.snd <;> [with_reducible assumption; skip])
                | (with_reducible apply Within.fst <;> [with_reducible assumption; skip])
                | (with_reducible apply Within.fst2 <;> [with_reducible assumption; skip])
                | split)
         | (have hx : Within M s0 x.1 := by
              unfold x
              repeat' first
                | with_reducible assumption
                | dsimp -zeta only
                | with_reducible apply Within.ite1
                | with_reducible apply Within.ite2
                | with_reducible apply Within.ite
                | with_reducible apply putAt_within (Sub.up hM rfl)
                | with_reducible apply windowStore_within (Sub.up hM rfl)
                | (with_reducible apply Within.snd <;> [with_reducible assumption; skip])
                | (with_reducible apply Within.fst <;> [with_reducible assumption; skip])
                | (with_reducible apply Within.fst2 <;> [with_reducible assumption; skip])
                | split)
         | (have hx : Within M s0 x.2 := by
              unfold x
              repeat' first
                | with_reducible assumption
                | dsimp -zeta only
                | with_reducible apply Within.ite1
                | with_reducible apply Within.ite2
                | with_reducible apply Within.ite
                | with_reducible apply putAt_within (Sub.up hM rfl)
                | with_reducible apply windowStore_within (Sub.up hM rfl)
                | (with_reducible apply Within.snd <;> [with_reducible assumption; skip])
                | (with_reducible apply Within.fst <;> [with_reducible assumption; skip])
                | (with_reducible apply Within.fst2 <;> [with_reducible assumption; skip])
                | split)
         | skip
       clear_value x)
    | lift_lets -underBinder
    | dsimp -zeta only
    | with_reducible apply Within.ite1
    | with_reducible apply Within.ite2
    | with_reducible apply Within.ite
    | with_reducible apply putAt_within (Sub.up hM rfl)
    | with_reducible apply windowStore_within (Sub.up hM rfl)
    | (with_reducible apply Within.snd <;> [with_reducible assumption; skip])
    | (with_reducible apply Within.fst <;> [with_reducible assumption; skip])
    | (with_reducible apply Within.fst2 <;> [with_reducible assumption; skip])
    | split

theorem putRange_within {M : Nat} {s0 : State} (hM : Sub 0x710000fdb M) (s : State) (src : Source) (n v : Nat) (data : List Byte) (hW : Within M s0 s) : Within M s0 (putRange s src n v data).1 := by
  unfold putRange
  repeat' first
    | with_reducible assumption
    | (intro x
       first
         | (have hx : Within M s0 x := by
              unfold x
              repeat' first
                | with_reducible assumption
                | dsimp -zeta only
                | with_reducible apply Within.ite1
                | with_reducible apply Within.ite2
                | with_reducible apply Within.ite
                | with_reducible apply putLine_within (Sub.up hM rfl)
                | with_reducible refine Within.fold (fun _ _ _ => ?_) ?_
                | with_reducible refine Within.fold1 (fun _ _ _ => ?_) ?_
                | with_reducible refine Within.fold2 (fun _ _ _ => ?_) ?_
                | (with_reducible apply Within.snd <;> [with_reducible assumption; skip])
                | (with_reducible apply Within.fst <;> [with_reducible assumption; skip])
                | (with_reducible apply Within.fst2 <;> [with_reducible assumption; skip])
                | split)
         | (have hx : Within M s0 x.1 := by
              unfold x
              repeat' first
                | with_reducible assumption
                | dsimp -zeta only
                | with_reducible apply Within.ite1
                | with_reducible apply Within.ite2
                | with_reducible apply Within.ite
                | with_reducible apply putLine_within (Sub.up hM rfl)
                | with_reducible refine Within.fold (fun _ _ _ => ?_) ?_
                | with_reducible refine Within.fold1 (fun _ _ _ => ?_) ?_
                | with_reducible refine Within.fold2 (fun _ _ _ => ?_) ?_
                | (with_reducible apply Within.snd <;> [with_reducible assumption; skip])
                | (with_reducible apply Within.fst <;> [with_reducible assumption; skip])
                | (with_reducible apply Within.fst2 <;> [with_reducible assumption; skip])
                | split)
         | (have hx : Within M s0 x.2 := by
              unfold x
              repeat' first
                | with_reducible assumption
                | dsimp -zeta only
                | with_reducible apply Within.ite1
                | with_reducible apply Within.ite2
                | with_reducible apply Within.ite
                | with_reducible apply putLine_within (Sub.up hM rfl)
                | with_reducible refine Within.fold (fun _ _ _ => ?_) ?_
                | with_reducible refine Within.fold1 (fun _ _ _ => ?_) ?_
                | with_reducible refine Within.fold2 (fun _ _ _ => ?_) ?_
                | (with_reducible apply Within.snd <;> [with_reducible assumption; skip])
                | (with_reducible apply Within.fst <;> [with_reducible assumption; skip])
                | (with_reducible apply Within.fst2 <;> [with_reducible assumption; skip])
                | split)
         | skip
       clear_value x)
    | lift_lets -underBinder
    | dsimp -zeta only
    | with_reducible apply Within.ite1
    | with_reducible apply Within.ite2
    | with_reducible apply Within.ite
    | with_reducible apply putLine_within (Sub.up hM rfl)
    | with_reducible refine Within.fold (fun _ _ _ => ?_) ?_
    | with_reducible refine Within.fold1 (fun _ _ _ => ?_) ?_
    | with_reducible refine Within.fold2 (fun _ _ _ => ?_) ?_
    | (with_reducible apply Within.snd <;> [with_reducible assumption; skip])
    | (with_reducible apply Within.fst <;> [with_reducible assumption; skip])
    | (with_reducible apply Within.fst2 <;> [with_reducible assumption; skip])
    | split

theorem putBytes_within {M : Nat} {s0 : State} (hM : Sub 0x710000fdb M) (s : State) (c : Nat) (t : CoreTask) (pl : Place) (a : Nat) (data : List Byte) (hW : Within M s0 s) : Within M s0 (putBytes s c t pl a data) := by
  unfold putBytes
  repeat' first
    | with_reducible assumption
    | (intro x
       first
         | (have hx : Within M s0 x := by
              unfold x
              repeat' first
                | with_reducible assumption
                | dsimp -zeta only
                | with_reducible apply Within.ite1
                | with_reducible apply Within.ite2
                | with_reducible apply Within.ite
                | with_reducible apply faultCore_within (Sub.up hM rfl)
                | with_reducible apply tagsWithin_within (Sub.up hM rfl)
                | with_reducible apply putPiece_within (Sub.up hM rfl)
                | with_reducible apply putLine_within (Sub.up hM rfl)
                | with_reducible refine each_within (fun _ _ _ => ?_) ?_
                | with_reducible refine untilFault_within (fun _ _ _ => ?_) ?_
                | (with_reducible apply Within.snd <;> [with_reducible assumption; skip])
                | (with_reducible apply Within.fst <;> [with_reducible assumption; skip])
                | (with_reducible apply Within.fst2 <;> [with_reducible assumption; skip])
                | split)
         | (have hx : Within M s0 x.1 := by
              unfold x
              repeat' first
                | with_reducible assumption
                | dsimp -zeta only
                | with_reducible apply Within.ite1
                | with_reducible apply Within.ite2
                | with_reducible apply Within.ite
                | with_reducible apply faultCore_within (Sub.up hM rfl)
                | with_reducible apply tagsWithin_within (Sub.up hM rfl)
                | with_reducible apply putPiece_within (Sub.up hM rfl)
                | with_reducible apply putLine_within (Sub.up hM rfl)
                | with_reducible refine each_within (fun _ _ _ => ?_) ?_
                | with_reducible refine untilFault_within (fun _ _ _ => ?_) ?_
                | (with_reducible apply Within.snd <;> [with_reducible assumption; skip])
                | (with_reducible apply Within.fst <;> [with_reducible assumption; skip])
                | (with_reducible apply Within.fst2 <;> [with_reducible assumption; skip])
                | split)
         | (have hx : Within M s0 x.2 := by
              unfold x
              repeat' first
                | with_reducible assumption
                | dsimp -zeta only
                | with_reducible apply Within.ite1
                | with_reducible apply Within.ite2
                | with_reducible apply Within.ite
                | with_reducible apply faultCore_within (Sub.up hM rfl)
                | with_reducible apply tagsWithin_within (Sub.up hM rfl)
                | with_reducible apply putPiece_within (Sub.up hM rfl)
                | with_reducible apply putLine_within (Sub.up hM rfl)
                | with_reducible refine each_within (fun _ _ _ => ?_) ?_
                | with_reducible refine untilFault_within (fun _ _ _ => ?_) ?_
                | (with_reducible apply Within.snd <;> [with_reducible assumption; skip])
                | (with_reducible apply Within.fst <;> [with_reducible assumption; skip])
                | (with_reducible apply Within.fst2 <;> [with_reducible assumption; skip])
                | split)
         | skip
       clear_value x)
    | lift_lets -underBinder
    | dsimp -zeta only
    | with_reducible apply Within.ite1
    | with_reducible apply Within.ite2
    | with_reducible apply Within.ite
    | with_reducible apply faultCore_within (Sub.up hM rfl)
    | with_reducible apply tagsWithin_within (Sub.up hM rfl)
    | with_reducible apply putPiece_within (Sub.up hM rfl)
    | with_reducible apply putLine_within (Sub.up hM rfl)
    | with_reducible refine each_within (fun _ _ _ => ?_) ?_
    | with_reducible refine untilFault_within (fun _ _ _ => ?_) ?_
    | (with_reducible apply Within.snd <;> [with_reducible assumption; skip])
    | (with_reducible apply Within.fst <;> [with_reducible assumption; skip])
    | (with_reducible apply Within.fst2 <;> [with_reducible assumption; skip])
    | split

theorem foreignLand_within {M : Nat} {s0 : State} (hM : Sub 0x710000fdb M) (s : State) (c attempt : Nat) (src : Source) (data : List Byte) (hW : Within M s0 s) : Within M s0 (foreignLand s c attempt src data).1 := by
  unfold foreignLand
  repeat' first
    | with_reducible assumption
    | (intro x
       first
         | (have hx : Within M s0 x := by
              unfold x
              repeat' first
                | with_reducible assumption
                | dsimp -zeta only
                | with_reducible apply Within.ite1
                | with_reducible apply Within.ite
                | with_reducible apply updCore_within (Sub.up hM rfl)
                | with_reducible apply bumpCore_within (Sub.up hM rfl)
                | with_reducible apply advanceTail_within (Sub.up hM rfl)
                | with_reducible apply countRegion_within (Sub.up hM rfl)
                | with_reducible apply writeRow_within (Sub.up hM rfl)
                | with_reducible apply noteRow_within (Sub.up hM rfl)
                | with_reducible apply ovfStore_within (Sub.up hM rfl)
                | with_reducible refine ovfAlloc_within (Sub.up hM rfl) ‹ovfAlloc _ _ _ _ = some _› ?_
                | (with_reducible apply Within.snd <;> [with_reducible assumption; skip])
                | (with_reducible apply Within.fst <;> [with_reducible assumption; skip])
                | (with_reducible apply Within.fst2 <;> [with_reducible assumption; skip])
                | split)
         | (have hx : Within M s0 x.1 := by
              unfold x
              repeat' first
                | with_reducible assumption
                | dsimp -zeta only
                | with_reducible apply Within.ite1
                | with_reducible apply Within.ite
                | with_reducible apply updCore_within (Sub.up hM rfl)
                | with_reducible apply bumpCore_within (Sub.up hM rfl)
                | with_reducible apply advanceTail_within (Sub.up hM rfl)
                | with_reducible apply countRegion_within (Sub.up hM rfl)
                | with_reducible apply writeRow_within (Sub.up hM rfl)
                | with_reducible apply noteRow_within (Sub.up hM rfl)
                | with_reducible apply ovfStore_within (Sub.up hM rfl)
                | with_reducible refine ovfAlloc_within (Sub.up hM rfl) ‹ovfAlloc _ _ _ _ = some _› ?_
                | (with_reducible apply Within.snd <;> [with_reducible assumption; skip])
                | (with_reducible apply Within.fst <;> [with_reducible assumption; skip])
                | (with_reducible apply Within.fst2 <;> [with_reducible assumption; skip])
                | split)
         | (have hx : Within M s0 x.2 := by
              unfold x
              repeat' first
                | with_reducible assumption
                | dsimp -zeta only
                | with_reducible apply Within.ite1
                | with_reducible apply Within.ite
                | with_reducible apply updCore_within (Sub.up hM rfl)
                | with_reducible apply bumpCore_within (Sub.up hM rfl)
                | with_reducible apply advanceTail_within (Sub.up hM rfl)
                | with_reducible apply countRegion_within (Sub.up hM rfl)
                | with_reducible apply writeRow_within (Sub.up hM rfl)
                | with_reducible apply noteRow_within (Sub.up hM rfl)
                | with_reducible apply ovfStore_within (Sub.up hM rfl)
                | with_reducible refine ovfAlloc_within (Sub.up hM rfl) ‹ovfAlloc _ _ _ _ = some _› ?_
                | (with_reducible apply Within.snd <;> [with_reducible assumption; skip])
                | (with_reducible apply Within.fst <;> [with_reducible assumption; skip])
                | (with_reducible apply Within.fst2 <;> [with_reducible assumption; skip])
                | split)
         | skip
       clear_value x)
    | lift_lets -underBinder
    | dsimp -zeta only
    | with_reducible apply Within.ite1
    | with_reducible apply Within.ite
    | with_reducible apply updCore_within (Sub.up hM rfl)
    | with_reducible apply bumpCore_within (Sub.up hM rfl)
    | with_reducible apply advanceTail_within (Sub.up hM rfl)
    | with_reducible apply countRegion_within (Sub.up hM rfl)
    | with_reducible apply writeRow_within (Sub.up hM rfl)
    | with_reducible apply noteRow_within (Sub.up hM rfl)
    | with_reducible apply ovfStore_within (Sub.up hM rfl)
    | with_reducible refine ovfAlloc_within (Sub.up hM rfl) ‹ovfAlloc _ _ _ _ = some _› ?_
    | (with_reducible apply Within.snd <;> [with_reducible assumption; skip])
    | (with_reducible apply Within.fst <;> [with_reducible assumption; skip])
    | (with_reducible apply Within.fst2 <;> [with_reducible assumption; skip])
    | split

theorem foreignRow_within {M : Nat} {s0 : State} (hM : Sub 0x710000fdb M) (s : State) (c attempt : Nat) (src : Source) (data : List Byte) (hW : Within M s0 s) : Within M s0 (foreignRow s c attempt src data).1 := by
  unfold foreignRow
  repeat' first
    | with_reducible assumption
    | (intro x
       first
         | (have hx : Within M s0 x := by
              unfold x
              repeat' first
                | with_reducible assumption
                | dsimp -zeta only
                | with_reducible apply Within.ite1
                | with_reducible apply Within.ite2
                | with_reducible apply Within.ite
                | with_reducible apply ovfFull_within (Sub.up hM rfl)
                | with_reducible apply recordNackAt_within (Sub.up hM rfl)
                | with_reducible apply foreignLand_within (Sub.up hM rfl)
                | (with_reducible apply Within.snd <;> [with_reducible assumption; skip])
                | (with_reducible apply Within.fst <;> [with_reducible assumption; skip])
                | (with_reducible apply Within.fst2 <;> [with_reducible assumption; skip])
                | split)
         | (have hx : Within M s0 x.1 := by
              unfold x
              repeat' first
                | with_reducible assumption
                | dsimp -zeta only
                | with_reducible apply Within.ite1
                | with_reducible apply Within.ite2
                | with_reducible apply Within.ite
                | with_reducible apply ovfFull_within (Sub.up hM rfl)
                | with_reducible apply recordNackAt_within (Sub.up hM rfl)
                | with_reducible apply foreignLand_within (Sub.up hM rfl)
                | (with_reducible apply Within.snd <;> [with_reducible assumption; skip])
                | (with_reducible apply Within.fst <;> [with_reducible assumption; skip])
                | (with_reducible apply Within.fst2 <;> [with_reducible assumption; skip])
                | split)
         | (have hx : Within M s0 x.2 := by
              unfold x
              repeat' first
                | with_reducible assumption
                | dsimp -zeta only
                | with_reducible apply Within.ite1
                | with_reducible apply Within.ite2
                | with_reducible apply Within.ite
                | with_reducible apply ovfFull_within (Sub.up hM rfl)
                | with_reducible apply recordNackAt_within (Sub.up hM rfl)
                | with_reducible apply foreignLand_within (Sub.up hM rfl)
                | (with_reducible apply Within.snd <;> [with_reducible assumption; skip])
                | (with_reducible apply Within.fst <;> [with_reducible assumption; skip])
                | (with_reducible apply Within.fst2 <;> [with_reducible assumption; skip])
                | split)
         | skip
       clear_value x)
    | lift_lets -underBinder
    | dsimp -zeta only
    | with_reducible apply Within.ite1
    | with_reducible apply Within.ite2
    | with_reducible apply Within.ite
    | with_reducible apply ovfFull_within (Sub.up hM rfl)
    | with_reducible apply recordNackAt_within (Sub.up hM rfl)
    | with_reducible apply foreignLand_within (Sub.up hM rfl)
    | (with_reducible apply Within.snd <;> [with_reducible assumption; skip])
    | (with_reducible apply Within.fst <;> [with_reducible assumption; skip])
    | (with_reducible apply Within.fst2 <;> [with_reducible assumption; skip])
    | split

end Sys2Proof.Machine
end

