-- ==== Sys2Proof/Laws/WithinNest.lean ====
section
/-! SUPPORT. What the operations and commands of Machine/Nest can do to the state (Laws/Within). -/

namespace Sys2Proof.Machine

theorem countTiles_within {M : Nat} {s0 : State} (hM : Sub 0x1 M) (s : State) (c : Nat) (t : CoreTask) (k : Nat) (at_ : Int × Int) (hW : Within M s0 s) : Within M s0 (countTiles s c t k at_) := by
  unfold countTiles
  repeat' first
    | with_reducible assumption
    | (intro x
       first
         | (have hx : Within M s0 x := by
              unfold x
              repeat' first
                | with_reducible assumption
                | with_reducible apply bumpCore_within (Sub.up hM rfl))
         | skip
       clear_value x)
    | lift_lets -underBinder
    | with_reducible apply bumpCore_within (Sub.up hM rfl)

theorem writeSum_within {M : Nat} {s0 : State} (hM : Sub 0x12 M) (s : State) (c : Nat) (t : CoreTask) (off : Nat) (v : F32) (hW : Within M s0 s) : Within M s0 (writeSum s c t off v) := by
  unfold writeSum
  repeat' first
    | with_reducible assumption
    | (intro x
       first
         | (have hx : Within M s0 x := by
              unfold x
              repeat' first
                | with_reducible assumption
                | with_reducible apply Within.ite
                | with_reducible apply updCore_within (Sub.up hM rfl)
                | with_reducible apply wrBytes_within (Sub.up hM rfl))
         | skip
       clear_value x)
    | lift_lets -underBinder
    | with_reducible apply Within.ite
    | with_reducible apply updCore_within (Sub.up hM rfl)
    | with_reducible apply wrBytes_within (Sub.up hM rfl)

theorem addSum_within {M : Nat} {s0 : State} (hM : Sub 0x13 M) (s : State) (c : Nat) (t : CoreTask) (grouped fresh : Bool) (off : Nat) (l : List (FVal × FVal)) (hW : Within M s0 s) : Within M s0 (addSum s c t grouped fresh off l) := by
  unfold addSum
  repeat' first
    | with_reducible assumption
    | (intro x
       first
         | (have hx : Within M s0 x := by
              unfold x
              repeat' first
                | with_reducible assumption
                | dsimp -zeta only
                | with_reducible apply Within.ite1
                | with_reducible apply Within.ite2
                | with_reducible apply Within.ite
                | with_reducible apply bumpCore_within (Sub.up hM rfl)
                | with_reducible apply writeSum_within (Sub.up hM rfl)
                | (with_reducible apply Within.snd <;> [with_reducible assumption; skip])
                | (with_reducible apply Within.fst <;> [with_reducible assumption; skip])
                | (with_reducible apply Within.fst2 <;> [with_reducible assumption; skip])
                | split)
         | (have hx : Within M s0 x.1 := by
              unfold x
              repeat' first
                | with_reducible assumption
                | dsimp -zeta only
                | with_reducible apply Within.ite1
                | with_reducible apply Within.ite2
                | with_reducible apply Within.ite
                | with_reducible apply bumpCore_within (Sub.up hM rfl)
                | with_reducible apply writeSum_within (Sub.up hM rfl)
                | (with_reducible apply Within.snd <;> [with_reducible assumption; skip])
                | (with_reducible apply Within.fst <;> [with_reducible assumption; skip])
                | (with_reducible apply Within.fst2 <;> [with_reducible assumption; skip])
                | split)
         | (have hx : Within M s0 x.2 := by
              unfold x
              repeat' first
                | with_reducible assumption
                | dsimp -zeta only
                | with_reducible apply Within.ite1
                | with_reducible apply Within.ite2
                | with_reducible apply Within.ite
                | with_reducible apply bumpCore_within (Sub.up hM rfl)
                | with_reducible apply writeSum_within (Sub.up hM rfl)
                | (with_reducible apply Within.snd <;> [with_reducible assumption; skip])
                | (with_reducible apply Within.fst <;> [with_reducible assumption; skip])
                | (with_reducible apply Within.fst2 <;> [with_reducible assumption; skip])
                | split)
         | skip
       clear_value x)
    | lift_lets -underBinder
    | dsimp -zeta only
    | with_reducible apply Within.ite1
    | with_reducible apply Within.ite2
    | with_reducible apply Within.ite
    | with_reducible apply bumpCore_within (Sub.up hM rfl)
    | with_reducible apply writeSum_within (Sub.up hM rfl)
    | (with_reducible apply Within.snd <;> [with_reducible assumption; skip])
    | (with_reducible apply Within.fst <;> [with_reducible assumption; skip])
    | (with_reducible apply Within.fst2 <;> [with_reducible assumption; skip])
    | split

theorem dropSums_within {M : Nat} {s0 : State} (hM : Sub 0x10 M) (s : State) (c : Nat) (t : CoreTask) (p : Prod) (u : Nat) (hW : Within M s0 s) : Within M s0 (dropSums s c t p u) := by
  unfold dropSums
  repeat' first
    | with_reducible assumption
    | (intro x
       first
         | (have hx : Within M s0 x := by
              unfold x
              repeat' first
                | with_reducible assumption
                | with_reducible apply updCore_within (Sub.up hM rfl))
         | skip
       clear_value x)
    | lift_lets -underBinder
    | with_reducible apply updCore_within (Sub.up hM rfl)

end Sys2Proof.Machine
end

