-- ==== Sys2Proof/Laws/WithinStages.lean ====
section
/-! SUPPORT. What the operations and commands of Machine/Stages can do to the state (Laws/Within). -/

namespace Sys2Proof.Machine

theorem formatFault_within {M : Nat} {s0 : State} (hM : Sub 0x3100000d3 M) (s : State) (c status slot pos : Nat) (hW : Within M s0 s) : Within M s0 (formatFault s c status slot pos) := by
  unfold formatFault
  repeat' first
    | with_reducible assumption
    | (intro x
       first
         | (have hx : Within M s0 x := by
              unfold x
              repeat' first
                | with_reducible assumption
                | dsimp -zeta only
                | with_reducible apply Within.ite1
                | with_reducible apply Within.ite2
                | with_reducible apply Within.ite
                | with_reducible apply setReg_within (Sub.up hM rfl)
                | with_reducible apply updCore_within (Sub.up hM rfl)
                | with_reducible apply bumpCore_within (Sub.up hM rfl)
                | (with_reducible apply Within.snd <;> [with_reducible assumption; skip])
                | (with_reducible apply Within.fst <;> [with_reducible assumption; skip])
                | (with_reducible apply Within.fst2 <;> [with_reducible assumption; skip])
                | split)
         | (have hx : Within M s0 x.1 := by
              unfold x
              repeat' first
                | with_reducible assumption
                | dsimp -zeta only
                | with_reducible apply Within.ite1
                | with_reducible apply Within.ite2
                | with_reducible apply Within.ite
                | with_reducible apply setReg_within (Sub.up hM rfl)
                | with_reducible apply updCore_within (Sub.up hM rfl)
                | with_reducible apply bumpCore_within (Sub.up hM rfl)
                | (with_reducible apply Within.snd <;> [with_reducible assumption; skip])
                | (with_reducible apply Within.fst <;> [with_reducible assumption; skip])
                | (with_reducible apply Within.fst2 <;> [with_reducible assumption; skip])
                | split)
         | (have hx : Within M s0 x.2 := by
              unfold x
              repeat' first
                | with_reducible assumption
                | dsimp -zeta only
                | with_reducible apply Within.ite1
                | with_reducible apply Within.ite2
                | with_reducible apply Within.ite
                | with_reducible apply setReg_within (Sub.up hM rfl)
                | with_reducible apply updCore_within (Sub.up hM rfl)
                | with_reducible apply bumpCore_within (Sub.up hM rfl)
                | (with_reducible apply Within.snd <;> [with_reducible assumption; skip])
                | (with_reducible apply Within.fst <;> [with_reducible assumption; skip])
                | (with_reducible apply Within.fst2 <;> [with_reducible assumption; skip])
                | split)
         | skip
       clear_value x)
    | lift_lets -underBinder
    | dsimp -zeta only
    | with_reducible apply Within.ite1
    | with_reducible apply Within.ite2
    | with_reducible apply Within.ite
    | with_reducible apply setReg_within (Sub.up hM rfl)
    | with_reducible apply updCore_within (Sub.up hM rfl)
    | with_reducible apply bumpCore_within (Sub.up hM rfl)
    | (with_reducible apply Within.snd <;> [with_reducible assumption; skip])
    | (with_reducible apply Within.fst <;> [with_reducible assumption; skip])
    | (with_reducible apply Within.fst2 <;> [with_reducible assumption; skip])
    | split

theorem settleFormat_within {M : Nat} {s0 : State} (hM : Sub 0x3100008d3 M) (s : State) (c : Nat) (hW : Within M s0 s) : Within M s0 (settleFormat s c) := by
  unfold settleFormat
  repeat' first
    | with_reducible assumption
    | (intro x
       first
         | (have hx : Within M s0 x := by
              unfold x
              repeat' first
                | with_reducible assumption
                | dsimp -zeta only
                | with_reducible apply Within.ite1
                | with_reducible apply Within.ite2
                | with_reducible apply Within.ite
                | with_reducible apply faultCore_within (Sub.up hM rfl)
                | (with_reducible apply Within.snd <;> [with_reducible assumption; skip])
                | (with_reducible apply Within.fst <;> [with_reducible assumption; skip])
                | (with_reducible apply Within.fst2 <;> [with_reducible assumption; skip])
                | split)
         | (have hx : Within M s0 x.1 := by
              unfold x
              repeat' first
                | with_reducible assumption
                | dsimp -zeta only
                | with_reducible apply Within.ite1
                | with_reducible apply Within.ite2
                | with_reducible apply Within.ite
                | with_reducible apply faultCore_within (Sub.up hM rfl)
                | (with_reducible apply Within.snd <;> [with_reducible assumption; skip])
                | (with_reducible apply Within.fst <;> [with_reducible assumption; skip])
                | (with_reducible apply Within.fst2 <;> [with_reducible assumption; skip])
                | split)
         | (have hx : Within M s0 x.2 := by
              unfold x
              repeat' first
                | with_reducible assumption
                | dsimp -zeta only
                | with_reducible apply Within.ite1
                | with_reducible apply Within.ite2
                | with_reducible apply Within.ite
                | with_reducible apply faultCore_within (Sub.up hM rfl)
                | (with_reducible apply Within.snd <;> [with_reducible assumption; skip])
                | (with_reducible apply Within.fst <;> [with_reducible assumption; skip])
                | (with_reducible apply Within.fst2 <;> [with_reducible assumption; skip])
                | split)
         | skip
       clear_value x)
    | lift_lets -underBinder
    | dsimp -zeta only
    | with_reducible apply Within.ite1
    | with_reducible apply Within.ite2
    | with_reducible apply Within.ite
    | with_reducible apply faultCore_within (Sub.up hM rfl)
    | (with_reducible apply Within.snd <;> [with_reducible assumption; skip])
    | (with_reducible apply Within.fst <;> [with_reducible assumption; skip])
    | (with_reducible apply Within.fst2 <;> [with_reducible assumption; skip])
    | split

theorem midWrite_within {M : Nat} {s0 : State} (hM : Sub 0x2 M) (s : State) (c : Nat) (t : CoreTask) (i r k w : Nat) (hW : Within M s0 s) : Within M s0 (midWrite s c t i r k w) := by
  unfold midWrite
  repeat' first
    | with_reducible assumption
    | (intro x
       first
         | (have hx : Within M s0 x := by
              unfold x
              repeat' first
                | with_reducible assumption
                | with_reducible apply Within.ite
                | with_reducible apply wrBytes_within (Sub.up hM rfl)
                | with_reducible refine each_within (fun _ _ _ => ?_) ?_)
         | skip
       clear_value x)
    | lift_lets -underBinder
    | with_reducible apply Within.ite
    | with_reducible apply wrBytes_within (Sub.up hM rfl)
    | with_reducible refine each_within (fun _ _ _ => ?_) ?_

theorem writeCompact_within {M : Nat} {s0 : State} (hM : Sub 0x3100008d3 M) (s : State) (c : Nat) (t : CoreTask) (width first : Nat) (hW : Within M s0 s) : Within M s0 (writeCompact s c t width first) := by
  unfold writeCompact
  repeat' first
    | with_reducible assumption
    | (intro x
       first
         | (have hx : Within M s0 x := by
              unfold x
              repeat' first
                | with_reducible assumption
                | dsimp -zeta only
                | with_reducible apply Within.ite1
                | with_reducible apply Within.ite2
                | with_reducible apply Within.ite
                | with_reducible apply updCore_within (Sub.up hM rfl)
                | with_reducible apply wrBytes_within (Sub.up hM rfl)
                | with_reducible apply noteRow_within (Sub.up hM rfl)
                | with_reducible apply takeRows_within (Sub.up hM rfl)
                | with_reducible refine each_within (fun _ _ _ => ?_) ?_
                | with_reducible refine Within.fold (fun _ _ _ => ?_) ?_
                | with_reducible refine Within.fold1 (fun _ _ _ => ?_) ?_
                | with_reducible refine Within.fold2 (fun _ _ _ => ?_) ?_
                | with_reducible apply hfa
                | with_reducible apply hfb
                | with_reducible apply hfc
                | with_reducible apply hfd
                | with_reducible apply hfe
                | with_reducible apply hff
                | with_reducible apply hfg
                | with_reducible apply hfh
                | with_reducible apply hfi
                | (with_reducible apply Within.snd <;> [with_reducible assumption; skip])
                | (with_reducible apply Within.fst <;> [with_reducible assumption; skip])
                | (with_reducible apply Within.fst2 <;> [with_reducible assumption; skip])
                | split)
         | (have hx : Within M s0 x.1 := by
              unfold x
              repeat' first
                | with_reducible assumption
                | dsimp -zeta only
                | with_reducible apply Within.ite1
                | with_reducible apply Within.ite2
                | with_reducible apply Within.ite
                | with_reducible apply updCore_within (Sub.up hM rfl)
                | with_reducible apply wrBytes_within (Sub.up hM rfl)
                | with_reducible apply noteRow_within (Sub.up hM rfl)
                | with_reducible apply takeRows_within (Sub.up hM rfl)
                | with_reducible refine each_within (fun _ _ _ => ?_) ?_
                | with_reducible refine Within.fold (fun _ _ _ => ?_) ?_
                | with_reducible refine Within.fold1 (fun _ _ _ => ?_) ?_
                | with_reducible refine Within.fold2 (fun _ _ _ => ?_) ?_
                | with_reducible apply hfa
                | with_reducible apply hfb
                | with_reducible apply hfc
                | with_reducible apply hfd
                | with_reducible apply hfe
                | with_reducible apply hff
                | with_reducible apply hfg
                | with_reducible apply hfh
                | with_reducible apply hfi
                | (with_reducible apply Within.snd <;> [with_reducible assumption; skip])
                | (with_reducible apply Within.fst <;> [with_reducible assumption; skip])
                | (with_reducible apply Within.fst2 <;> [with_reducible assumption; skip])
                | split)
         | (have hx : Within M s0 x.2 := by
              unfold x
              repeat' first
                | with_reducible assumption
                | dsimp -zeta only
                | with_reducible apply Within.ite1
                | with_reducible apply Within.ite2
                | with_reducible apply Within.ite
                | with_reducible apply updCore_within (Sub.up hM rfl)
                | with_reducible apply wrBytes_within (Sub.up hM rfl)
                | with_reducible apply noteRow_within (Sub.up hM rfl)
                | with_reducible apply takeRows_within (Sub.up hM rfl)
                | with_reducible refine each_within (fun _ _ _ => ?_) ?_
                | with_reducible refine Within.fold (fun _ _ _ => ?_) ?_
                | with_reducible refine Within.fold1 (fun _ _ _ => ?_) ?_
                | with_reducible refine Within.fold2 (fun _ _ _ => ?_) ?_
                | with_reducible apply hfa
                | with_reducible apply hfb
                | with_reducible apply hfc
                | with_reducible apply hfd
                | with_reducible apply hfe
                | with_reducible apply hff
                | with_reducible apply hfg
                | with_reducible apply hfh
                | with_reducible apply hfi
                | (with_reducible apply Within.snd <;> [with_reducible assumption; skip])
                | (with_reducible apply Within.fst <;> [with_reducible assumption; skip])
                | (with_reducible apply Within.fst2 <;> [with_reducible assumption; skip])
                | split)
         | (have hfa : ∀ t, Within M s0 t → Within M s0 (x t) := by
              intro t ht; unfold x
              repeat' first
                | with_reducible assumption
                | dsimp -zeta only
                | with_reducible apply Within.ite1
                | with_reducible apply Within.ite2
                | with_reducible apply Within.ite
                | with_reducible apply updCore_within (Sub.up hM rfl)
                | with_reducible apply wrBytes_within (Sub.up hM rfl)
                | with_reducible apply noteRow_within (Sub.up hM rfl)
                | with_reducible apply takeRows_within (Sub.up hM rfl)
                | with_reducible refine each_within (fun _ _ _ => ?_) ?_
                | with_reducible refine Within.fold (fun _ _ _ => ?_) ?_
                | with_reducible refine Within.fold1 (fun _ _ _ => ?_) ?_
                | with_reducible refine Within.fold2 (fun _ _ _ => ?_) ?_
                | with_reducible apply hfa
                | with_reducible apply hfb
                | with_reducible apply hfc
                | with_reducible apply hfd
                | with_reducible apply hfe
                | with_reducible apply hff
                | with_reducible apply hfg
                | with_reducible apply hfh
                | with_reducible apply hfi
                | (with_reducible apply Within.snd <;> [with_reducible assumption; skip])
                | (with_reducible apply Within.fst <;> [with_reducible assumption; skip])
                | (with_reducible apply Within.fst2 <;> [with_reducible assumption; skip])
                | split)
         | (have hfb : ∀ t a, Within M s0 t → Within M s0 (x t a) := by
              intro t a ht; unfold x
              repeat' first
                | with_reducible assumption
                | dsimp -zeta only
                | with_reducible apply Within.ite1
                | with_reducible apply Within.ite2
                | with_reducible apply Within.ite
                | with_reducible apply updCore_within (Sub.up hM rfl)
                | with_reducible apply wrBytes_within (Sub.up hM rfl)
                | with_reducible apply noteRow_within (Sub.up hM rfl)
                | with_reducible apply takeRows_within (Sub.up hM rfl)
                | with_reducible refine each_within (fun _ _ _ => ?_) ?_
                | with_reducible refine Within.fold (fun _ _ _ => ?_) ?_
                | with_reducible refine Within.fold1 (fun _ _ _ => ?_) ?_
                | with_reducible refine Within.fold2 (fun _ _ _ => ?_) ?_
                | with_reducible apply hfa
                | with_reducible apply hfb
                | with_reducible apply hfc
                | with_reducible apply hfd
                | with_reducible apply hfe
                | with_reducible apply hff
                | with_reducible apply hfg
                | with_reducible apply hfh
                | with_reducible apply hfi
                | (with_reducible apply Within.snd <;> [with_reducible assumption; skip])
                | (with_reducible apply Within.fst <;> [with_reducible assumption; skip])
                | (with_reducible apply Within.fst2 <;> [with_reducible assumption; skip])
                | split)
         | (have hfc : ∀ t a b, Within M s0 t → Within M s0 (x t a b) := by
              intro t a b ht; unfold x
              repeat' first
                | with_reducible assumption
                | dsimp -zeta only
                | with_reducible apply Within.ite1
                | with_reducible apply Within.ite2
                | with_reducible apply Within.ite
                | with_reducible apply updCore_within (Sub.up hM rfl)
                | with_reducible apply wrBytes_within (Sub.up hM rfl)
                | with_reducible apply noteRow_within (Sub.up hM rfl)
                | with_reducible apply takeRows_within (Sub.up hM rfl)
                | with_reducible refine each_within (fun _ _ _ => ?_) ?_
                | with_reducible refine Within.fold (fun _ _ _ => ?_) ?_
                | with_reducible refine Within.fold1 (fun _ _ _ => ?_) ?_
                | with_reducible refine Within.fold2 (fun _ _ _ => ?_) ?_
                | with_reducible apply hfa
                | with_reducible apply hfb
                | with_reducible apply hfc
                | with_reducible apply hfd
                | with_reducible apply hfe
                | with_reducible apply hff
                | with_reducible apply hfg
                | with_reducible apply hfh
                | with_reducible apply hfi
                | (with_reducible apply Within.snd <;> [with_reducible assumption; skip])
                | (with_reducible apply Within.fst <;> [with_reducible assumption; skip])
                | (with_reducible apply Within.fst2 <;> [with_reducible assumption; skip])
                | split)
         | (have hfd : ∀ t, Within M s0 t → Within M s0 (x t).1 := by
              intro t ht; unfold x
              repeat' first
                | with_reducible assumption
                | dsimp -zeta only
                | with_reducible apply Within.ite1
                | with_reducible apply Within.ite2
                | with_reducible apply Within.ite
                | with_reducible apply updCore_within (Sub.up hM rfl)
                | with_reducible apply wrBytes_within (Sub.up hM rfl)
                | with_reducible apply noteRow_within (Sub.up hM rfl)
                | with_reducible apply takeRows_within (Sub.up hM rfl)
                | with_reducible refine each_within (fun _ _ _ => ?_) ?_
                | with_reducible refine Within.fold (fun _ _ _ => ?_) ?_
                | with_reducible refine Within.fold1 (fun _ _ _ => ?_) ?_
                | with_reducible refine Within.fold2 (fun _ _ _ => ?_) ?_
                | with_reducible apply hfa
                | with_reducible apply hfb
                | with_reducible apply hfc
                | with_reducible apply hfd
                | with_reducible apply hfe
                | with_reducible apply hff
                | with_reducible apply hfg
                | with_reducible apply hfh
                | with_reducible apply hfi
                | (with_reducible apply Within.snd <;> [with_reducible assumption; skip])
                | (with_reducible apply Within.fst <;> [with_reducible assumption; skip])
                | (with_reducible apply Within.fst2 <;> [with_reducible assumption; skip])
                | split)
         | (have hfe : ∀ t a, Within M s0 t → Within M s0 (x t a).1 := by
              intro t a ht; unfold x
              repeat' first
                | with_reducible assumption
                | dsimp -zeta only
                | with_reducible apply Within.ite1
                | with_reducible apply Within.ite2
                | with_reducible apply Within.ite
                | with_reducible apply updCore_within (Sub.up hM rfl)
                | with_reducible apply wrBytes_within (Sub.up hM rfl)
                | with_reducible apply noteRow_within (Sub.up hM rfl)
                | with_reducible apply takeRows_within (Sub.up hM rfl)
                | with_reducible refine each_within (fun _ _ _ => ?_) ?_
                | with_reducible refine Within.fold (fun _ _ _ => ?_) ?_
                | with_reducible refine Within.fold1 (fun _ _ _ => ?_) ?_
                | with_reducible refine Within.fold2 (fun _ _ _ => ?_) ?_
                | with_reducible apply hfa
                | with_reducible apply hfb
                | with_reducible apply hfc
                | with_reducible apply hfd
                | with_reducible apply hfe
                | with_reducible apply hff
                | with_reducible apply hfg
                | with_reducible apply hfh
                | with_reducible apply hfi
                | (with_reducible apply Within.snd <;> [with_reducible assumption; skip])
                | (with_reducible apply Within.fst <;> [with_reducible assumption; skip])
                | (with_reducible apply Within.fst2 <;> [with_reducible assumption; skip])
                | split)
         | (have hff : ∀ t a b, Within M s0 t → Within M s0 (x t a b).1 := by
              intro t a b ht; unfold x
              repeat' first
                | with_reducible assumption
                | dsimp -zeta only
                | with_reducible apply Within.ite1
                | with_reducible apply Within.ite2
                | with_reducible apply Within.ite
                | with_reducible apply updCore_within (Sub.up hM rfl)
                | with_reducible apply wrBytes_within (Sub.up hM rfl)
                | with_reducible apply noteRow_within (Sub.up hM rfl)
                | with_reducible apply takeRows_within (Sub.up hM rfl)
                | with_reducible refine each_within (fun _ _ _ => ?_) ?_
                | with_reducible refine Within.fold (fun _ _ _ => ?_) ?_
                | with_reducible refine Within.fold1 (fun _ _ _ => ?_) ?_
                | with_reducible refine Within.fold2 (fun _ _ _ => ?_) ?_
                | with_reducible apply hfa
                | with_reducible apply hfb
                | with_reducible apply hfc
                | with_reducible apply hfd
                | with_reducible apply hfe
                | with_reducible apply hff
                | with_reducible apply hfg
                | with_reducible apply hfh
                | with_reducible apply hfi
                | (with_reducible apply Within.snd <;> [with_reducible assumption; skip])
                | (with_reducible apply Within.fst <;> [with_reducible assumption; skip])
                | (with_reducible apply Within.fst2 <;> [with_reducible assumption; skip])
                | split)
         | (have hfg : ∀ t, Within M s0 t → Within M s0 (x t).2 := by
              intro t ht; unfold x
              repeat' first
                | with_reducible assumption
                | dsimp -zeta only
                | with_reducible apply Within.ite1
                | with_reducible apply Within.ite2
                | with_reducible apply Within.ite
                | with_reducible apply updCore_within (Sub.up hM rfl)
                | with_reducible apply wrBytes_within (Sub.up hM rfl)
                | with_reducible apply noteRow_within (Sub.up hM rfl)
                | with_reducible apply takeRows_within (Sub.up hM rfl)
                | with_reducible refine each_within (fun _ _ _ => ?_) ?_
                | with_reducible refine Within.fold (fun _ _ _ => ?_) ?_
                | with_reducible refine Within.fold1 (fun _ _ _ => ?_) ?_
                | with_reducible refine Within.fold2 (fun _ _ _ => ?_) ?_
                | with_reducible apply hfa
                | with_reducible apply hfb
                | with_reducible apply hfc
                | with_reducible apply hfd
                | with_reducible apply hfe
                | with_reducible apply hff
                | with_reducible apply hfg
                | with_reducible apply hfh
                | with_reducible apply hfi
                | (with_reducible apply Within.snd <;> [with_reducible assumption; skip])
                | (with_reducible apply Within.fst <;> [with_reducible assumption; skip])
                | (with_reducible apply Within.fst2 <;> [with_reducible assumption; skip])
                | split)
         | (have hfh : ∀ t a, Within M s0 t → Within M s0 (x t a).2 := by
              intro t a ht; unfold x
              repeat' first
                | with_reducible assumption
                | dsimp -zeta only
                | with_reducible apply Within.ite1
                | with_reducible apply Within.ite2
                | with_reducible apply Within.ite
                | with_reducible apply updCore_within (Sub.up hM rfl)
                | with_reducible apply wrBytes_within (Sub.up hM rfl)
                | with_reducible apply noteRow_within (Sub.up hM rfl)
                | with_reducible apply takeRows_within (Sub.up hM rfl)
                | with_reducible refine each_within (fun _ _ _ => ?_) ?_
                | with_reducible refine Within.fold (fun _ _ _ => ?_) ?_
                | with_reducible refine Within.fold1 (fun _ _ _ => ?_) ?_
                | with_reducible refine Within.fold2 (fun _ _ _ => ?_) ?_
                | with_reducible apply hfa
                | with_reducible apply hfb
                | with_reducible apply hfc
                | with_reducible apply hfd
                | with_reducible apply hfe
                | with_reducible apply hff
                | with_reducible apply hfg
                | with_reducible apply hfh
                | with_reducible apply hfi
                | (with_reducible apply Within.snd <;> [with_reducible assumption; skip])
                | (with_reducible apply Within.fst <;> [with_reducible assumption; skip])
                | (with_reducible apply Within.fst2 <;> [with_reducible assumption; skip])
                | split)
         | (have hfi : ∀ t a b, Within M s0 t → Within M s0 (x t a b).2 := by
              intro t a b ht; unfold x
              repeat' first
                | with_reducible assumption
                | dsimp -zeta only
                | with_reducible apply Within.ite1
                | with_reducible apply Within.ite2
                | with_reducible apply Within.ite
                | with_reducible apply updCore_within (Sub.up hM rfl)
                | with_reducible apply wrBytes_within (Sub.up hM rfl)
                | with_reducible apply noteRow_within (Sub.up hM rfl)
                | with_reducible apply takeRows_within (Sub.up hM rfl)
                | with_reducible refine each_within (fun _ _ _ => ?_) ?_
                | with_reducible refine Within.fold (fun _ _ _ => ?_) ?_
                | with_reducible refine Within.fold1 (fun _ _ _ => ?_) ?_
                | with_reducible refine Within.fold2 (fun _ _ _ => ?_) ?_
                | with_reducible apply hfa
                | with_reducible apply hfb
                | with_reducible apply hfc
                | with_reducible apply hfd
                | with_reducible apply hfe
                | with_reducible apply hff
                | with_reducible apply hfg
                | with_reducible apply hfh
                | with_reducible apply hfi
                | (with_reducible apply Within.snd <;> [with_reducible assumption; skip])
                | (with_reducible apply Within.fst <;> [with_reducible assumption; skip])
                | (with_reducible apply Within.fst2 <;> [with_reducible assumption; skip])
                | split)
         | skip
       clear_value x)
    | lift_lets -underBinder
    | dsimp -zeta only
    | with_reducible apply Within.ite1
    | with_reducible apply Within.ite2
    | with_reducible apply Within.ite
    | with_reducible apply updCore_within (Sub.up hM rfl)
    | with_reducible apply wrBytes_within (Sub.up hM rfl)
    | with_reducible apply noteRow_within (Sub.up hM rfl)
    | with_reducible apply takeRows_within (Sub.up hM rfl)
    | with_reducible refine each_within (fun _ _ _ => ?_) ?_
    | with_reducible refine Within.fold (fun _ _ _ => ?_) ?_
    | with_reducible refine Within.fold1 (fun _ _ _ => ?_) ?_
    | with_reducible refine Within.fold2 (fun _ _ _ => ?_) ?_
    | with_reducible apply hfa
    | with_reducible apply hfb
    | with_reducible apply hfc
    | with_reducible apply hfd
    | with_reducible apply hfe
    | with_reducible apply hff
    | with_reducible apply hfg
    | with_reducible apply hfh
    | with_reducible apply hfi
    | (with_reducible apply Within.snd <;> [with_reducible assumption; skip])
    | (with_reducible apply Within.fst <;> [with_reducible assumption; skip])
    | (with_reducible apply Within.fst2 <;> [with_reducible assumption; skip])
    | split

theorem countQuarters_within {M : Nat} {s0 : State} (hM : Sub 0x1 M) (s : State) (c : Nat) (t : CoreTask) (p : Prod) (sh : Nat) (ix : List (Nat × Nat)) (hW : Within M s0 s) : Within M s0 (countQuarters s c t p sh ix) := by
  unfold countQuarters
  repeat' first
    | with_reducible assumption
    | (intro x
       first
         | (have hx : Within M s0 x := by
              unfold x
              repeat' first
                | with_reducible assumption
                | dsimp -zeta only
                | with_reducible apply Within.ite1
                | with_reducible apply Within.ite2
                | with_reducible apply Within.ite
                | with_reducible apply bumpCore_within (Sub.up hM rfl)
                | (with_reducible apply Within.snd <;> [with_reducible assumption; skip])
                | (with_reducible apply Within.fst <;> [with_reducible assumption; skip])
                | (with_reducible apply Within.fst2 <;> [with_reducible assumption; skip])
                | split)
         | (have hx : Within M s0 x.1 := by
              unfold x
              repeat' first
                | with_reducible assumption
                | dsimp -zeta only
                | with_reducible apply Within.ite1
                | with_reducible apply Within.ite2
                | with_reducible apply Within.ite
                | with_reducible apply bumpCore_within (Sub.up hM rfl)
                | (with_reducible apply Within.snd <;> [with_reducible assumption; skip])
                | (with_reducible apply Within.fst <;> [with_reducible assumption; skip])
                | (with_reducible apply Within.fst2 <;> [with_reducible assumption; skip])
                | split)
         | (have hx : Within M s0 x.2 := by
              unfold x
              repeat' first
                | with_reducible assumption
                | dsimp -zeta only
                | with_reducible apply Within.ite1
                | with_reducible apply Within.ite2
                | with_reducible apply Within.ite
                | with_reducible apply bumpCore_within (Sub.up hM rfl)
                | (with_reducible apply Within.snd <;> [with_reducible assumption; skip])
                | (with_reducible apply Within.fst <;> [with_reducible assumption; skip])
                | (with_reducible apply Within.fst2 <;> [with_reducible assumption; skip])
                | split)
         | skip
       clear_value x)
    | lift_lets -underBinder
    | dsimp -zeta only
    | with_reducible apply Within.ite1
    | with_reducible apply Within.ite2
    | with_reducible apply Within.ite
    | with_reducible apply bumpCore_within (Sub.up hM rfl)
    | (with_reducible apply Within.snd <;> [with_reducible assumption; skip])
    | (with_reducible apply Within.fst <;> [with_reducible assumption; skip])
    | (with_reducible apply Within.fst2 <;> [with_reducible assumption; skip])
    | split

theorem panelStep_within {M : Nat} {s0 : State} (hM : Sub 0x3100008d3 M) (s : State) (c : Nat) (hW : Within M s0 s) : Within M s0 (panelStep s c) := by
  unfold panelStep
  repeat' first
    | with_reducible assumption
    | (intro x
       first
         | (have hx : Within M s0 x := by
              unfold x
              repeat' first
                | with_reducible assumption
                | dsimp -zeta only
                | with_reducible apply Within.ite1
                | with_reducible apply Within.ite2
                | with_reducible apply Within.ite
                | with_reducible apply updCore_within (Sub.up hM rfl)
                | with_reducible apply takeRows_within (Sub.up hM rfl)
                | with_reducible apply countTiles_within (Sub.up hM rfl)
                | with_reducible apply addSum_within (Sub.up hM rfl)
                | with_reducible apply formatFault_within (Sub.up hM rfl)
                | with_reducible apply countQuarters_within (Sub.up hM rfl)
                | with_reducible refine each_within (fun _ _ _ => ?_) ?_
                | (with_reducible apply Within.snd <;> [with_reducible assumption; skip])
                | (with_reducible apply Within.fst <;> [with_reducible assumption; skip])
                | (with_reducible apply Within.fst2 <;> [with_reducible assumption; skip])
                | split)
         | (have hx : Within M s0 x.1 := by
              unfold x
              repeat' first
                | with_reducible assumption
                | dsimp -zeta only
                | with_reducible apply Within.ite1
                | with_reducible apply Within.ite2
                | with_reducible apply Within.ite
                | with_reducible apply updCore_within (Sub.up hM rfl)
                | with_reducible apply takeRows_within (Sub.up hM rfl)
                | with_reducible apply countTiles_within (Sub.up hM rfl)
                | with_reducible apply addSum_within (Sub.up hM rfl)
                | with_reducible apply formatFault_within (Sub.up hM rfl)
                | with_reducible apply countQuarters_within (Sub.up hM rfl)
                | with_reducible refine each_within (fun _ _ _ => ?_) ?_
                | (with_reducible apply Within.snd <;> [with_reducible assumption; skip])
                | (with_reducible apply Within.fst <;> [with_reducible assumption; skip])
                | (with_reducible apply Within.fst2 <;> [with_reducible assumption; skip])
                | split)
         | (have hx : Within M s0 x.2 := by
              unfold x
              repeat' first
                | with_reducible assumption
                | dsimp -zeta only
                | with_reducible apply Within.ite1
                | with_reducible apply Within.ite2
                | with_reducible apply Within.ite
                | with_reducible apply updCore_within (Sub.up hM rfl)
                | with_reducible apply takeRows_within (Sub.up hM rfl)
                | with_reducible apply countTiles_within (Sub.up hM rfl)
                | with_reducible apply addSum_within (Sub.up hM rfl)
                | with_reducible apply formatFault_within (Sub.up hM rfl)
                | with_reducible apply countQuarters_within (Sub.up hM rfl)
                | with_reducible refine each_within (fun _ _ _ => ?_) ?_
                | (with_reducible apply Within.snd <;> [with_reducible assumption; skip])
                | (with_reducible apply Within.fst <;> [with_reducible assumption; skip])
                | (with_reducible apply Within.fst2 <;> [with_reducible assumption; skip])
                | split)
         | skip
       clear_value x)
    | lift_lets -underBinder
    | dsimp -zeta only
    | with_reducible apply Within.ite1
    | with_reducible apply Within.ite2
    | with_reducible apply Within.ite
    | with_reducible apply updCore_within (Sub.up hM rfl)
    | with_reducible apply takeRows_within (Sub.up hM rfl)
    | with_reducible apply countTiles_within (Sub.up hM rfl)
    | with_reducible apply addSum_within (Sub.up hM rfl)
    | with_reducible apply formatFault_within (Sub.up hM rfl)
    | with_reducible apply countQuarters_within (Sub.up hM rfl)
    | with_reducible refine each_within (fun _ _ _ => ?_) ?_
    | (with_reducible apply Within.snd <;> [with_reducible assumption; skip])
    | (with_reducible apply Within.fst <;> [with_reducible assumption; skip])
    | (with_reducible apply Within.fst2 <;> [with_reducible assumption; skip])
    | split

theorem countScored_within {M : Nat} {s0 : State} (hM : Sub 0x1 M) (s : State) (c : Nat) (t : CoreTask) (row : Nat) (hW : Within M s0 s) : Within M s0 (countScored s c t row) := by
  unfold countScored
  repeat' first
    | with_reducible assumption
    | (intro x
       first
         | (have hx : Within M s0 x := by
              unfold x
              repeat' first
                | with_reducible assumption
                | dsimp -zeta only
                | with_reducible apply Within.ite1
                | with_reducible apply Within.ite2
                | with_reducible apply Within.ite
                | with_reducible apply bumpCore_within (Sub.up hM rfl)
                | (with_reducible apply Within.snd <;> [with_reducible assumption; skip])
                | (with_reducible apply Within.fst <;> [with_reducible assumption; skip])
                | (with_reducible apply Within.fst2 <;> [with_reducible assumption; skip])
                | split)
         | (have hx : Within M s0 x.1 := by
              unfold x
              repeat' first
                | with_reducible assumption
                | dsimp -zeta only
                | with_reducible apply Within.ite1
                | with_reducible apply Within.ite2
                | with_reducible apply Within.ite
                | with_reducible apply bumpCore_within (Sub.up hM rfl)
                | (with_reducible apply Within.snd <;> [with_reducible assumption; skip])
                | (with_reducible apply Within.fst <;> [with_reducible assumption; skip])
                | (with_reducible apply Within.fst2 <;> [with_reducible assumption; skip])
                | split)
         | (have hx : Within M s0 x.2 := by
              unfold x
              repeat' first
                | with_reducible assumption
                | dsimp -zeta only
                | with_reducible apply Within.ite1
                | with_reducible apply Within.ite2
                | with_reducible apply Within.ite
                | with_reducible apply bumpCore_within (Sub.up hM rfl)
                | (with_reducible apply Within.snd <;> [with_reducible assumption; skip])
                | (with_reducible apply Within.fst <;> [with_reducible assumption; skip])
                | (with_reducible apply Within.fst2 <;> [with_reducible assumption; skip])
                | split)
         | skip
       clear_value x)
    | lift_lets -underBinder
    | dsimp -zeta only
    | with_reducible apply Within.ite1
    | with_reducible apply Within.ite2
    | with_reducible apply Within.ite
    | with_reducible apply bumpCore_within (Sub.up hM rfl)
    | (with_reducible apply Within.snd <;> [with_reducible assumption; skip])
    | (with_reducible apply Within.fst <;> [with_reducible assumption; skip])
    | (with_reducible apply Within.fst2 <;> [with_reducible assumption; skip])
    | split

theorem scoreToken_within {M : Nat} {s0 : State} (hM : Sub 0x3100008d3 M) (s : State) (c : Nat) (hW : Within M s0 s) : Within M s0 (scoreToken s c) := by
  unfold scoreToken
  repeat' first
    | with_reducible assumption
    | (intro x
       first
         | (have hx : Within M s0 x := by
              unfold x
              repeat' first
                | with_reducible assumption
                | dsimp -zeta only
                | with_reducible apply Within.ite1
                | with_reducible apply Within.ite2
                | with_reducible apply Within.ite
                | with_reducible apply updCore_within (Sub.up hM rfl)
                | with_reducible apply bumpCore_within (Sub.up hM rfl)
                | with_reducible apply useRows_within (Sub.up hM rfl)
                | with_reducible apply formatFault_within (Sub.up hM rfl)
                | with_reducible apply countScored_within (Sub.up hM rfl)
                | (with_reducible apply Within.snd <;> [with_reducible assumption; skip])
                | (with_reducible apply Within.fst <;> [with_reducible assumption; skip])
                | (with_reducible apply Within.fst2 <;> [with_reducible assumption; skip])
                | split)
         | (have hx : Within M s0 x.1 := by
              unfold x
              repeat' first
                | with_reducible assumption
                | dsimp -zeta only
                | with_reducible apply Within.ite1
                | with_reducible apply Within.ite2
                | with_reducible apply Within.ite
                | with_reducible apply updCore_within (Sub.up hM rfl)
                | with_reducible apply bumpCore_within (Sub.up hM rfl)
                | with_reducible apply useRows_within (Sub.up hM rfl)
                | with_reducible apply formatFault_within (Sub.up hM rfl)
                | with_reducible apply countScored_within (Sub.up hM rfl)
                | (with_reducible apply Within.snd <;> [with_reducible assumption; skip])
                | (with_reducible apply Within.fst <;> [with_reducible assumption; skip])
                | (with_reducible apply Within.fst2 <;> [with_reducible assumption; skip])
                | split)
         | (have hx : Within M s0 x.2 := by
              unfold x
              repeat' first
                | with_reducible assumption
                | dsimp -zeta only
                | with_reducible apply Within.ite1
                | with_reducible apply Within.ite2
                | with_reducible apply Within.ite
                | with_reducible apply updCore_within (Sub.up hM rfl)
                | with_reducible apply bumpCore_within (Sub.up hM rfl)
                | with_reducible apply useRows_within (Sub.up hM rfl)
                | with_reducible apply formatFault_within (Sub.up hM rfl)
                | with_reducible apply countScored_within (Sub.up hM rfl)
                | (with_reducible apply Within.snd <;> [with_reducible assumption; skip])
                | (with_reducible apply Within.fst <;> [with_reducible assumption; skip])
                | (with_reducible apply Within.fst2 <;> [with_reducible assumption; skip])
                | split)
         | skip
       clear_value x)
    | lift_lets -underBinder
    | dsimp -zeta only
    | with_reducible apply Within.ite1
    | with_reducible apply Within.ite2
    | with_reducible apply Within.ite
    | with_reducible apply updCore_within (Sub.up hM rfl)
    | with_reducible apply bumpCore_within (Sub.up hM rfl)
    | with_reducible apply useRows_within (Sub.up hM rfl)
    | with_reducible apply formatFault_within (Sub.up hM rfl)
    | with_reducible apply countScored_within (Sub.up hM rfl)
    | (with_reducible apply Within.snd <;> [with_reducible assumption; skip])
    | (with_reducible apply Within.fst <;> [with_reducible assumption; skip])
    | (with_reducible apply Within.fst2 <;> [with_reducible assumption; skip])
    | split

theorem countConv_within {M : Nat} {s0 : State} (hM : Sub 0x1 M) (s : State) (c : Nat) (l : List Converted) (hW : Within M s0 s) : Within M s0 (countConv s c l) := by
  unfold countConv
  repeat' first
    | with_reducible assumption
    | with_reducible apply bumpCore_within (Sub.up hM rfl)

theorem rowFunction_within {M : Nat} {s0 : State} (hM : Sub 0x1 M) (s : State) (c : Nat) (t : CoreTask) (l : List (Nat × F32)) (hW : Within M s0 s) : Within M s0 (rowFunction s c t l).1 := by
  unfold rowFunction
  repeat' first
    | with_reducible assumption
    | (intro x
       first
         | (have hx : Within M s0 x := by
              unfold x
              repeat' first
                | with_reducible assumption
                | dsimp -zeta only
                | with_reducible apply Within.ite1
                | with_reducible apply bumpCore_within (Sub.up hM rfl))
         | (have hx : Within M s0 x.1 := by
              unfold x
              repeat' first
                | with_reducible assumption
                | dsimp -zeta only
                | with_reducible apply Within.ite1
                | with_reducible apply bumpCore_within (Sub.up hM rfl))
         | (have hx : Within M s0 x.2 := by
              unfold x
              repeat' first
                | with_reducible assumption
                | dsimp -zeta only
                | with_reducible apply Within.ite1
                | with_reducible apply bumpCore_within (Sub.up hM rfl))
         | skip
       clear_value x)
    | lift_lets -underBinder
    | dsimp -zeta only
    | with_reducible apply Within.ite1
    | with_reducible apply bumpCore_within (Sub.up hM rfl)

theorem keepRow_within {M : Nat} {s0 : State} (hM : Sub 0x11 M) (s : State) (c : Nat) (row : Nat) (l : List (Nat × F32 × Bool)) (hW : Within M s0 s) : Within M s0 (keepRow s c row l) := by
  unfold keepRow
  repeat' first
    | with_reducible assumption
    | (intro x
       first
         | (have hx : Within M s0 x := by
              unfold x
              repeat' first
                | with_reducible assumption
                | with_reducible apply updCore_within (Sub.up hM rfl)
                | with_reducible apply bumpCore_within (Sub.up hM rfl)
                | with_reducible refine Within.fold (fun _ _ _ => ?_) ?_
                | with_reducible refine Within.fold1 (fun _ _ _ => ?_) ?_
                | with_reducible refine Within.fold2 (fun _ _ _ => ?_) ?_)
         | skip
       clear_value x)
    | lift_lets -underBinder
    | with_reducible apply updCore_within (Sub.up hM rfl)
    | with_reducible apply bumpCore_within (Sub.up hM rfl)
    | with_reducible refine Within.fold (fun _ _ _ => ?_) ?_
    | with_reducible refine Within.fold1 (fun _ _ _ => ?_) ?_
    | with_reducible refine Within.fold2 (fun _ _ _ => ?_) ?_

theorem rescaleSums_within {M : Nat} {s0 : State} (hM : Sub 0x12 M) (s : State) (c : Nat) (t : CoreTask) (i : Nat) (r : Nat) (f : F32) (hW : Within M s0 s) : Within M s0 (rescaleSums s c t i r f) := by
  unfold rescaleSums
  repeat' first
    | with_reducible assumption
    | (intro x
       first
         | (have hx : Within M s0 x := by
              unfold x
              repeat' first
                | with_reducible assumption
                | dsimp -zeta only
                | with_reducible apply Within.ite1
                | with_reducible apply Within.ite2
                | with_reducible apply Within.ite
                | with_reducible apply writeSum_within (Sub.up hM rfl)
                | with_reducible refine each_within (fun _ _ _ => ?_) ?_
                | (with_reducible apply Within.snd <;> [with_reducible assumption; skip])
                | (with_reducible apply Within.fst <;> [with_reducible assumption; skip])
                | (with_reducible apply Within.fst2 <;> [with_reducible assumption; skip])
                | split)
         | (have hx : Within M s0 x.1 := by
              unfold x
              repeat' first
                | with_reducible assumption
                | dsimp -zeta only
                | with_reducible apply Within.ite1
                | with_reducible apply Within.ite2
                | with_reducible apply Within.ite
                | with_reducible apply writeSum_within (Sub.up hM rfl)
                | with_reducible refine each_within (fun _ _ _ => ?_) ?_
                | (with_reducible apply Within.snd <;> [with_reducible assumption; skip])
                | (with_reducible apply Within.fst <;> [with_reducible assumption; skip])
                | (with_reducible apply Within.fst2 <;> [with_reducible assumption; skip])
                | split)
         | (have hx : Within M s0 x.2 := by
              unfold x
              repeat' first
                | with_reducible assumption
                | dsimp -zeta only
                | with_reducible apply Within.ite1
                | with_reducible apply Within.ite2
                | with_reducible apply Within.ite
                | with_reducible apply writeSum_within (Sub.up hM rfl)
                | with_reducible refine each_within (fun _ _ _ => ?_) ?_
                | (with_reducible apply Within.snd <;> [with_reducible assumption; skip])
                | (with_reducible apply Within.fst <;> [with_reducible assumption; skip])
                | (with_reducible apply Within.fst2 <;> [with_reducible assumption; skip])
                | split)
         | skip
       clear_value x)
    | lift_lets -underBinder
    | dsimp -zeta only
    | with_reducible apply Within.ite1
    | with_reducible apply Within.ite2
    | with_reducible apply Within.ite
    | with_reducible apply writeSum_within (Sub.up hM rfl)
    | with_reducible refine each_within (fun _ _ _ => ?_) ?_
    | (with_reducible apply Within.snd <;> [with_reducible assumption; skip])
    | (with_reducible apply Within.fst <;> [with_reducible assumption; skip])
    | (with_reducible apply Within.fst2 <;> [with_reducible assumption; skip])
    | split

theorem softSlice_within {M : Nat} {s0 : State} (hM : Sub 0x12 M) (s : State) (c : Nat) (t : CoreTask) (i r : Nat) (l : List (Nat × F32)) (hW : Within M s0 s) : Within M s0 (softSlice s c t i r l).1 := by
  unfold softSlice
  repeat' first
    | with_reducible assumption
    | (intro x
       first
         | (have hx : Within M s0 x := by
              unfold x
              repeat' first
                | with_reducible assumption
                | dsimp -zeta only
                | with_reducible apply Within.ite1
                | with_reducible apply Within.ite2
                | with_reducible apply Within.ite
                | with_reducible apply wrBytes_within (Sub.up hM rfl)
                | with_reducible apply rescaleSums_within (Sub.up hM rfl)
                | with_reducible refine Within.fold (fun _ _ _ => ?_) ?_
                | with_reducible refine Within.fold1 (fun _ _ _ => ?_) ?_
                | with_reducible refine Within.fold2 (fun _ _ _ => ?_) ?_
                | (with_reducible apply Within.snd <;> [with_reducible assumption; skip])
                | (with_reducible apply Within.fst <;> [with_reducible assumption; skip])
                | (with_reducible apply Within.fst2 <;> [with_reducible assumption; skip])
                | split)
         | (have hx : Within M s0 x.1 := by
              unfold x
              repeat' first
                | with_reducible assumption
                | dsimp -zeta only
                | with_reducible apply Within.ite1
                | with_reducible apply Within.ite2
                | with_reducible apply Within.ite
                | with_reducible apply wrBytes_within (Sub.up hM rfl)
                | with_reducible apply rescaleSums_within (Sub.up hM rfl)
                | with_reducible refine Within.fold (fun _ _ _ => ?_) ?_
                | with_reducible refine Within.fold1 (fun _ _ _ => ?_) ?_
                | with_reducible refine Within.fold2 (fun _ _ _ => ?_) ?_
                | (with_reducible apply Within.snd <;> [with_reducible assumption; skip])
                | (with_reducible apply Within.fst <;> [with_reducible assumption; skip])
                | (with_reducible apply Within.fst2 <;> [with_reducible assumption; skip])
                | split)
         | (have hx : Within M s0 x.2 := by
              unfold x
              repeat' first
                | with_reducible assumption
                | dsimp -zeta only
                | with_reducible apply Within.ite1
                | with_reducible apply Within.ite2
                | with_reducible apply Within.ite
                | with_reducible apply wrBytes_within (Sub.up hM rfl)
                | with_reducible apply rescaleSums_within (Sub.up hM rfl)
                | with_reducible refine Within.fold (fun _ _ _ => ?_) ?_
                | with_reducible refine Within.fold1 (fun _ _ _ => ?_) ?_
                | with_reducible refine Within.fold2 (fun _ _ _ => ?_) ?_
                | (with_reducible apply Within.snd <;> [with_reducible assumption; skip])
                | (with_reducible apply Within.fst <;> [with_reducible assumption; skip])
                | (with_reducible apply Within.fst2 <;> [with_reducible assumption; skip])
                | split)
         | skip
       clear_value x)
    | lift_lets -underBinder
    | dsimp -zeta only
    | with_reducible apply Within.ite1
    | with_reducible apply Within.ite2
    | with_reducible apply Within.ite
    | with_reducible apply wrBytes_within (Sub.up hM rfl)
    | with_reducible apply rescaleSums_within (Sub.up hM rfl)
    | with_reducible refine Within.fold (fun _ _ _ => ?_) ?_
    | with_reducible refine Within.fold1 (fun _ _ _ => ?_) ?_
    | with_reducible refine Within.fold2 (fun _ _ _ => ?_) ?_
    | (with_reducible apply Within.snd <;> [with_reducible assumption; skip])
    | (with_reducible apply Within.fst <;> [with_reducible assumption; skip])
    | (with_reducible apply Within.fst2 <;> [with_reducible assumption; skip])
    | split

theorem midRow_within {M : Nat} {s0 : State} (hM : Sub 0x3100008d3 M) (s : State) (c : Nat) (t : CoreTask) (hW : Within M s0 s) : Within M s0 (midRow s c t) := by
  unfold midRow
  repeat' first
    | with_reducible assumption
    | (intro x
       first
         | (have hx : Within M s0 x := by
              unfold x
              repeat' first
                | with_reducible assumption
                | dsimp -zeta only
                | with_reducible apply Within.ite1
                | with_reducible apply Within.ite2
                | with_reducible apply Within.ite
                | with_reducible apply updCore_within (Sub.up hM rfl)
                | with_reducible apply noteRow_within (Sub.up hM rfl)
                | with_reducible apply takeRows_within (Sub.up hM rfl)
                | with_reducible apply dropSums_within (Sub.up hM rfl)
                | with_reducible apply midWrite_within (Sub.up hM rfl)
                | with_reducible apply writeCompact_within (Sub.up hM rfl)
                | with_reducible apply countConv_within (Sub.up hM rfl)
                | with_reducible apply rowFunction_within (Sub.up hM rfl)
                | with_reducible apply keepRow_within (Sub.up hM rfl)
                | with_reducible apply softSlice_within (Sub.up hM rfl)
                | with_reducible refine each_within (fun _ _ _ => ?_) ?_
                | with_reducible apply hfa
                | with_reducible apply hfb
                | with_reducible apply hfc
                | with_reducible apply hfd
                | with_reducible apply hfe
                | with_reducible apply hff
                | with_reducible apply hfg
                | with_reducible apply hfh
                | with_reducible apply hfi
                | (with_reducible apply Within.snd <;> [with_reducible assumption; skip])
                | (with_reducible apply Within.fst <;> [with_reducible assumption; skip])
                | (with_reducible apply Within.fst2 <;> [with_reducible assumption; skip])
                | split)
         | (have hx : Within M s0 x.1 := by
              unfold x
              repeat' first
                | with_reducible assumption
                | dsimp -zeta only
                | with_reducible apply Within.ite1
                | with_reducible apply Within.ite2
                | with_reducible apply Within.ite
                | with_reducible apply updCore_within (Sub.up hM rfl)
                | with_reducible apply noteRow_within (Sub.up hM rfl)
                | with_reducible apply takeRows_within (Sub.up hM rfl)
                | with_reducible apply dropSums_within (Sub.up hM rfl)
                | with_reducible apply midWrite_within (Sub.up hM rfl)
                | with_reducible apply writeCompact_within (Sub.up hM rfl)
                | with_reducible apply countConv_within (Sub.up hM rfl)
                | with_reducible apply rowFunction_within (Sub.up hM rfl)
                | with_reducible apply keepRow_within (Sub.up hM rfl)
                | with_reducible apply softSlice_within (Sub.up hM rfl)
                | with_reducible refine each_within (fun _ _ _ => ?_) ?_
                | with_reducible apply hfa
                | with_reducible apply hfb
                | with_reducible apply hfc
                | with_reducible apply hfd
                | with_reducible apply hfe
                | with_reducible apply hff
                | with_reducible apply hfg
                | with_reducible apply hfh
                | with_reducible apply hfi
                | (with_reducible apply Within.snd <;> [with_reducible assumption; skip])
                | (with_reducible apply Within.fst <;> [with_reducible assumption; skip])
                | (with_reducible apply Within.fst2 <;> [with_reducible assumption; skip])
                | split)
         | (have hx : Within M s0 x.2 := by
              unfold x
              repeat' first
                | with_reducible assumption
                | dsimp -zeta only
                | with_reducible apply Within.ite1
                | with_reducible apply Within.ite2
                | with_reducible apply Within.ite
                | with_reducible apply updCore_within (Sub.up hM rfl)
                | with_reducible apply noteRow_within (Sub.up hM rfl)
                | with_reducible apply takeRows_within (Sub.up hM rfl)
                | with_reducible apply dropSums_within (Sub.up hM rfl)
                | with_reducible apply midWrite_within (Sub.up hM rfl)
                | with_reducible apply writeCompact_within (Sub.up hM rfl)
                | with_reducible apply countConv_within (Sub.up hM rfl)
                | with_reducible apply rowFunction_within (Sub.up hM rfl)
                | with_reducible apply keepRow_within (Sub.up hM rfl)
                | with_reducible apply softSlice_within (Sub.up hM rfl)
                | with_reducible refine each_within (fun _ _ _ => ?_) ?_
                | with_reducible apply hfa
                | with_reducible apply hfb
                | with_reducible apply hfc
                | with_reducible apply hfd
                | with_reducible apply hfe
                | with_reducible apply hff
                | with_reducible apply hfg
                | with_reducible apply hfh
                | with_reducible apply hfi
                | (with_reducible apply Within.snd <;> [with_reducible assumption; skip])
                | (with_reducible apply Within.fst <;> [with_reducible assumption; skip])
                | (with_reducible apply Within.fst2 <;> [with_reducible assumption; skip])
                | split)
         | (have hfa : ∀ t, Within M s0 t → Within M s0 (x t) := by
              intro t ht; unfold x
              repeat' first
                | with_reducible assumption
                | dsimp -zeta only
                | with_reducible apply Within.ite1
                | with_reducible apply Within.ite2
                | with_reducible apply Within.ite
                | with_reducible apply updCore_within (Sub.up hM rfl)
                | with_reducible apply noteRow_within (Sub.up hM rfl)
                | with_reducible apply takeRows_within (Sub.up hM rfl)
                | with_reducible apply dropSums_within (Sub.up hM rfl)
                | with_reducible apply midWrite_within (Sub.up hM rfl)
                | with_reducible apply writeCompact_within (Sub.up hM rfl)
                | with_reducible apply countConv_within (Sub.up hM rfl)
                | with_reducible apply rowFunction_within (Sub.up hM rfl)
                | with_reducible apply keepRow_within (Sub.up hM rfl)
                | with_reducible apply softSlice_within (Sub.up hM rfl)
                | with_reducible refine each_within (fun _ _ _ => ?_) ?_
                | with_reducible apply hfa
                | with_reducible apply hfb
                | with_reducible apply hfc
                | with_reducible apply hfd
                | with_reducible apply hfe
                | with_reducible apply hff
                | with_reducible apply hfg
                | with_reducible apply hfh
                | with_reducible apply hfi
                | (with_reducible apply Within.snd <;> [with_reducible assumption; skip])
                | (with_reducible apply Within.fst <;> [with_reducible assumption; skip])
                | (with_reducible apply Within.fst2 <;> [with_reducible assumption; skip])
                | split)
         | (have hfb : ∀ t a, Within M s0 t → Within M s0 (x t a) := by
              intro t a ht; unfold x
              repeat' first
                | with_reducible assumption
                | dsimp -zeta only
                | with_reducible apply Within.ite1
                | with_reducible apply Within.ite2
                | with_reducible apply Within.ite
                | with_reducible apply updCore_within (Sub.up hM rfl)
                | with_reducible apply noteRow_within (Sub.up hM rfl)
                | with_reducible apply takeRows_within (Sub.up hM rfl)
                | with_reducible apply dropSums_within (Sub.up hM rfl)
                | with_reducible apply midWrite_within (Sub.up hM rfl)
                | with_reducible apply writeCompact_within (Sub.up hM rfl)
                | with_reducible apply countConv_within (Sub.up hM rfl)
                | with_reducible apply rowFunction_within (Sub.up hM rfl)
                | with_reducible apply keepRow_within (Sub.up hM rfl)
                | with_reducible apply softSlice_within (Sub.up hM rfl)
                | with_reducible refine each_within (fun _ _ _ => ?_) ?_
                | with_reducible apply hfa
                | with_reducible apply hfb
                | with_reducible apply hfc
                | with_reducible apply hfd
                | with_reducible apply hfe
                | with_reducible apply hff
                | with_reducible apply hfg
                | with_reducible apply hfh
                | with_reducible apply hfi
                | (with_reducible apply Within.snd <;> [with_reducible assumption; skip])
                | (with_reducible apply Within.fst <;> [with_reducible assumption; skip])
                | (with_reducible apply Within.fst2 <;> [with_reducible assumption; skip])
                | split)
         | (have hfc : ∀ t a b, Within M s0 t → Within M s0 (x t a b) := by
              intro t a b ht; unfold x
              repeat' first
                | with_reducible assumption
                | dsimp -zeta only
                | with_reducible apply Within.ite1
                | with_reducible apply Within.ite2
                | with_reducible apply Within.ite
                | with_reducible apply updCore_within (Sub.up hM rfl)
                | with_reducible apply noteRow_within (Sub.up hM rfl)
                | with_reducible apply takeRows_within (Sub.up hM rfl)
                | with_reducible apply dropSums_within (Sub.up hM rfl)
                | with_reducible apply midWrite_within (Sub.up hM rfl)
                | with_reducible apply writeCompact_within (Sub.up hM rfl)
                | with_reducible apply countConv_within (Sub.up hM rfl)
                | with_reducible apply rowFunction_within (Sub.up hM rfl)
                | with_reducible apply keepRow_within (Sub.up hM rfl)
                | with_reducible apply softSlice_within (Sub.up hM rfl)
                | with_reducible refine each_within (fun _ _ _ => ?_) ?_
                | with_reducible apply hfa
                | with_reducible apply hfb
                | with_reducible apply hfc
                | with_reducible apply hfd
                | with_reducible apply hfe
                | with_reducible apply hff
                | with_reducible apply hfg
                | with_reducible apply hfh
                | with_reducible apply hfi
                | (with_reducible apply Within.snd <;> [with_reducible assumption; skip])
                | (with_reducible apply Within.fst <;> [with_reducible assumption; skip])
                | (with_reducible apply Within.fst2 <;> [with_reducible assumption; skip])
                | split)
         | (have hfd : ∀ t, Within M s0 t → Within M s0 (x t).1 := by
              intro t ht; unfold x
              repeat' first
                | with_reducible assumption
                | dsimp -zeta only
                | with_reducible apply Within.ite1
                | with_reducible apply Within.ite2
                | with_reducible apply Within.ite
                | with_reducible apply updCore_within (Sub.up hM rfl)
                | with_reducible apply noteRow_within (Sub.up hM rfl)
                | with_reducible apply takeRows_within (Sub.up hM rfl)
                | with_reducible apply dropSums_within (Sub.up hM rfl)
                | with_reducible apply midWrite_within (Sub.up hM rfl)
                | with_reducible apply writeCompact_within (Sub.up hM rfl)
                | with_reducible apply countConv_within (Sub.up hM rfl)
                | with_reducible apply rowFunction_within (Sub.up hM rfl)
                | with_reducible apply keepRow_within (Sub.up hM rfl)
                | with_reducible apply softSlice_within (Sub.up hM rfl)
                | with_reducible refine each_within (fun _ _ _ => ?_) ?_
                | with_reducible apply hfa
                | with_reducible apply hfb
                | with_reducible apply hfc
                | with_reducible apply hfd
                | with_reducible apply hfe
                | with_reducible apply hff
                | with_reducible apply hfg
                | with_reducible apply hfh
                | with_reducible apply hfi
                | (with_reducible apply Within.snd <;> [with_reducible assumption; skip])
                | (with_reducible apply Within.fst <;> [with_reducible assumption; skip])
                | (with_reducible apply Within.fst2 <;> [with_reducible assumption; skip])
                | split)
         | (have hfe : ∀ t a, Within M s0 t → Within M s0 (x t a).1 := by
              intro t a ht; unfold x
              repeat' first
                | with_reducible assumption
                | dsimp -zeta only
                | with_reducible apply Within.ite1
                | with_reducible apply Within.ite2
                | with_reducible apply Within.ite
                | with_reducible apply updCore_within (Sub.up hM rfl)
                | with_reducible apply noteRow_within (Sub.up hM rfl)
                | with_reducible apply takeRows_within (Sub.up hM rfl)
                | with_reducible apply dropSums_within (Sub.up hM rfl)
                | with_reducible apply midWrite_within (Sub.up hM rfl)
                | with_reducible apply writeCompact_within (Sub.up hM rfl)
                | with_reducible apply countConv_within (Sub.up hM rfl)
                | with_reducible apply rowFunction_within (Sub.up hM rfl)
                | with_reducible apply keepRow_within (Sub.up hM rfl)
                | with_reducible apply softSlice_within (Sub.up hM rfl)
                | with_reducible refine each_within (fun _ _ _ => ?_) ?_
                | with_reducible apply hfa
                | with_reducible apply hfb
                | with_reducible apply hfc
                | with_reducible apply hfd
                | with_reducible apply hfe
                | with_reducible apply hff
                | with_reducible apply hfg
                | with_reducible apply hfh
                | with_reducible apply hfi
                | (with_reducible apply Within.snd <;> [with_reducible assumption; skip])
                | (with_reducible apply Within.fst <;> [with_reducible assumption; skip])
                | (with_reducible apply Within.fst2 <;> [with_reducible assumption; skip])
                | split)
         | (have hff : ∀ t a b, Within M s0 t → Within M s0 (x t a b).1 := by
              intro t a b ht; unfold x
              repeat' first
                | with_reducible assumption
                | dsimp -zeta only
                | with_reducible apply Within.ite1
                | with_reducible apply Within.ite2
                | with_reducible apply Within.ite
                | with_reducible apply updCore_within (Sub.up hM rfl)
                | with_reducible apply noteRow_within (Sub.up hM rfl)
                | with_reducible apply takeRows_within (Sub.up hM rfl)
                | with_reducible apply dropSums_within (Sub.up hM rfl)
                | with_reducible apply midWrite_within (Sub.up hM rfl)
                | with_reducible apply writeCompact_within (Sub.up hM rfl)
                | with_reducible apply countConv_within (Sub.up hM rfl)
                | with_reducible apply rowFunction_within (Sub.up hM rfl)
                | with_reducible apply keepRow_within (Sub.up hM rfl)
                | with_reducible apply softSlice_within (Sub.up hM rfl)
                | with_reducible refine each_within (fun _ _ _ => ?_) ?_
                | with_reducible apply hfa
                | with_reducible apply hfb
                | with_reducible apply hfc
                | with_reducible apply hfd
                | with_reducible apply hfe
                | with_reducible apply hff
                | with_reducible apply hfg
                | with_reducible apply hfh
                | with_reducible apply hfi
                | (with_reducible apply Within.snd <;> [with_reducible assumption; skip])
                | (with_reducible apply Within.fst <;> [with_reducible assumption; skip])
                | (with_reducible apply Within.fst2 <;> [with_reducible assumption; skip])
                | split)
         | (have hfg : ∀ t, Within M s0 t → Within M s0 (x t).2 := by
              intro t ht; unfold x
              repeat' first
                | with_reducible assumption
                | dsimp -zeta only
                | with_reducible apply Within.ite1
                | with_reducible apply Within.ite2
                | with_reducible apply Within.ite
                | with_reducible apply updCore_within (Sub.up hM rfl)
                | with_reducible apply noteRow_within (Sub.up hM rfl)
                | with_reducible apply takeRows_within (Sub.up hM rfl)
                | with_reducible apply dropSums_within (Sub.up hM rfl)
                | with_reducible apply midWrite_within (Sub.up hM rfl)
                | with_reducible apply writeCompact_within (Sub.up hM rfl)
                | with_reducible apply countConv_within (Sub.up hM rfl)
                | with_reducible apply rowFunction_within (Sub.up hM rfl)
                | with_reducible apply keepRow_within (Sub.up hM rfl)
                | with_reducible apply softSlice_within (Sub.up hM rfl)
                | with_reducible refine each_within (fun _ _ _ => ?_) ?_
                | with_reducible apply hfa
                | with_reducible apply hfb
                | with_reducible apply hfc
                | with_reducible apply hfd
                | with_reducible apply hfe
                | with_reducible apply hff
                | with_reducible apply hfg
                | with_reducible apply hfh
                | with_reducible apply hfi
                | (with_reducible apply Within.snd <;> [with_reducible assumption; skip])
                | (with_reducible apply Within.fst <;> [with_reducible assumption; skip])
                | (with_reducible apply Within.fst2 <;> [with_reducible assumption; skip])
                | split)
         | (have hfh : ∀ t a, Within M s0 t → Within M s0 (x t a).2 := by
              intro t a ht; unfold x
              repeat' first
                | with_reducible assumption
                | dsimp -zeta only
                | with_reducible apply Within.ite1
                | with_reducible apply Within.ite2
                | with_reducible apply Within.ite
                | with_reducible apply updCore_within (Sub.up hM rfl)
                | with_reducible apply noteRow_within (Sub.up hM rfl)
                | with_reducible apply takeRows_within (Sub.up hM rfl)
                | with_reducible apply dropSums_within (Sub.up hM rfl)
                | with_reducible apply midWrite_within (Sub.up hM rfl)
                | with_reducible apply writeCompact_within (Sub.up hM rfl)
                | with_reducible apply countConv_within (Sub.up hM rfl)
                | with_reducible apply rowFunction_within (Sub.up hM rfl)
                | with_reducible apply keepRow_within (Sub.up hM rfl)
                | with_reducible apply softSlice_within (Sub.up hM rfl)
                | with_reducible refine each_within (fun _ _ _ => ?_) ?_
                | with_reducible apply hfa
                | with_reducible apply hfb
                | with_reducible apply hfc
                | with_reducible apply hfd
                | with_reducible apply hfe
                | with_reducible apply hff
                | with_reducible apply hfg
                | with_reducible apply hfh
                | with_reducible apply hfi
                | (with_reducible apply Within.snd <;> [with_reducible assumption; skip])
                | (with_reducible apply Within.fst <;> [with_reducible assumption; skip])
                | (with_reducible apply Within.fst2 <;> [with_reducible assumption; skip])
                | split)
         | (have hfi : ∀ t a b, Within M s0 t → Within M s0 (x t a b).2 := by
              intro t a b ht; unfold x
              repeat' first
                | with_reducible assumption
                | dsimp -zeta only
                | with_reducible apply Within.ite1
                | with_reducible apply Within.ite2
                | with_reducible apply Within.ite
                | with_reducible apply updCore_within (Sub.up hM rfl)
                | with_reducible apply noteRow_within (Sub.up hM rfl)
                | with_reducible apply takeRows_within (Sub.up hM rfl)
                | with_reducible apply dropSums_within (Sub.up hM rfl)
                | with_reducible apply midWrite_within (Sub.up hM rfl)
                | with_reducible apply writeCompact_within (Sub.up hM rfl)
                | with_reducible apply countConv_within (Sub.up hM rfl)
                | with_reducible apply rowFunction_within (Sub.up hM rfl)
                | with_reducible apply keepRow_within (Sub.up hM rfl)
                | with_reducible apply softSlice_within (Sub.up hM rfl)
                | with_reducible refine each_within (fun _ _ _ => ?_) ?_
                | with_reducible apply hfa
                | with_reducible apply hfb
                | with_reducible apply hfc
                | with_reducible apply hfd
                | with_reducible apply hfe
                | with_reducible apply hff
                | with_reducible apply hfg
                | with_reducible apply hfh
                | with_reducible apply hfi
                | (with_reducible apply Within.snd <;> [with_reducible assumption; skip])
                | (with_reducible apply Within.fst <;> [with_reducible assumption; skip])
                | (with_reducible apply Within.fst2 <;> [with_reducible assumption; skip])
                | split)
         | skip
       clear_value x)
    | lift_lets -underBinder
    | dsimp -zeta only
    | with_reducible apply Within.ite1
    | with_reducible apply Within.ite2
    | with_reducible apply Within.ite
    | with_reducible apply updCore_within (Sub.up hM rfl)
    | with_reducible apply noteRow_within (Sub.up hM rfl)
    | with_reducible apply takeRows_within (Sub.up hM rfl)
    | with_reducible apply dropSums_within (Sub.up hM rfl)
    | with_reducible apply midWrite_within (Sub.up hM rfl)
    | with_reducible apply writeCompact_within (Sub.up hM rfl)
    | with_reducible apply countConv_within (Sub.up hM rfl)
    | with_reducible apply rowFunction_within (Sub.up hM rfl)
    | with_reducible apply keepRow_within (Sub.up hM rfl)
    | with_reducible apply softSlice_within (Sub.up hM rfl)
    | with_reducible refine each_within (fun _ _ _ => ?_) ?_
    | with_reducible apply hfa
    | with_reducible apply hfb
    | with_reducible apply hfc
    | with_reducible apply hfd
    | with_reducible apply hfe
    | with_reducible apply hff
    | with_reducible apply hfg
    | with_reducible apply hfh
    | with_reducible apply hfi
    | (with_reducible apply Within.snd <;> [with_reducible assumption; skip])
    | (with_reducible apply Within.fst <;> [with_reducible assumption; skip])
    | (with_reducible apply Within.fst2 <;> [with_reducible assumption; skip])
    | split

theorem zeroOutside_within {M : Nat} {s0 : State} (hM : Sub 0x710000fdb M) (s : State) (c : Nat) (t : CoreTask) (k ti tj : Nat) (l : List Nat) (hW : Within M s0 s) : Within M s0 (zeroOutside s c t k ti tj l) := by
  unfold zeroOutside
  repeat' first
    | with_reducible assumption
    | (intro x
       first
         | (have hx : Within M s0 x := by
              unfold x
              repeat' first
                | with_reducible assumption
                | dsimp -zeta only
                | with_reducible apply Within.ite1
                | with_reducible apply Within.ite2
                | with_reducible apply Within.ite
                | with_reducible apply putBytes_within (Sub.up hM rfl)
                | with_reducible refine each_within (fun _ _ _ => ?_) ?_
                | (with_reducible apply Within.snd <;> [with_reducible assumption; skip])
                | (with_reducible apply Within.fst <;> [with_reducible assumption; skip])
                | (with_reducible apply Within.fst2 <;> [with_reducible assumption; skip])
                | split)
         | (have hx : Within M s0 x.1 := by
              unfold x
              repeat' first
                | with_reducible assumption
                | dsimp -zeta only
                | with_reducible apply Within.ite1
                | with_reducible apply Within.ite2
                | with_reducible apply Within.ite
                | with_reducible apply putBytes_within (Sub.up hM rfl)
                | with_reducible refine each_within (fun _ _ _ => ?_) ?_
                | (with_reducible apply Within.snd <;> [with_reducible assumption; skip])
                | (with_reducible apply Within.fst <;> [with_reducible assumption; skip])
                | (with_reducible apply Within.fst2 <;> [with_reducible assumption; skip])
                | split)
         | (have hx : Within M s0 x.2 := by
              unfold x
              repeat' first
                | with_reducible assumption
                | dsimp -zeta only
                | with_reducible apply Within.ite1
                | with_reducible apply Within.ite2
                | with_reducible apply Within.ite
                | with_reducible apply putBytes_within (Sub.up hM rfl)
                | with_reducible refine each_within (fun _ _ _ => ?_) ?_
                | (with_reducible apply Within.snd <;> [with_reducible assumption; skip])
                | (with_reducible apply Within.fst <;> [with_reducible assumption; skip])
                | (with_reducible apply Within.fst2 <;> [with_reducible assumption; skip])
                | split)
         | skip
       clear_value x)
    | lift_lets -underBinder
    | dsimp -zeta only
    | with_reducible apply Within.ite1
    | with_reducible apply Within.ite2
    | with_reducible apply Within.ite
    | with_reducible apply putBytes_within (Sub.up hM rfl)
    | with_reducible refine each_within (fun _ _ _ => ?_) ?_
    | (with_reducible apply Within.snd <;> [with_reducible assumption; skip])
    | (with_reducible apply Within.fst <;> [with_reducible assumption; skip])
    | (with_reducible apply Within.fst2 <;> [with_reducible assumption; skip])
    | split

theorem writeTileRows_within {M : Nat} {s0 : State} (hM : Sub 0x710000fdb M) (s : State) (c : Nat) (t : CoreTask) (k ti tj : Nat) (keep : List Nat) (pats scales : List Nat) (hW : Within M s0 s) : Within M s0 (writeTileRows s c t k ti tj keep pats scales) := by
  unfold writeTileRows
  repeat' first
    | with_reducible assumption
    | (intro x
       first
         | (have hx : Within M s0 x := by
              unfold x
              repeat' first
                | with_reducible assumption
                | dsimp -zeta only
                | with_reducible apply Within.ite1
                | with_reducible apply Within.ite2
                | with_reducible apply Within.ite
                | with_reducible apply bumpCore_within (Sub.up hM rfl)
                | with_reducible apply putBytes_within (Sub.up hM rfl)
                | with_reducible apply zeroOutside_within (Sub.up hM rfl)
                | with_reducible refine each_within (fun _ _ _ => ?_) ?_
                | (with_reducible apply Within.snd <;> [with_reducible assumption; skip])
                | (with_reducible apply Within.fst <;> [with_reducible assumption; skip])
                | (with_reducible apply Within.fst2 <;> [with_reducible assumption; skip])
                | split)
         | (have hx : Within M s0 x.1 := by
              unfold x
              repeat' first
                | with_reducible assumption
                | dsimp -zeta only
                | with_reducible apply Within.ite1
                | with_reducible apply Within.ite2
                | with_reducible apply Within.ite
                | with_reducible apply bumpCore_within (Sub.up hM rfl)
                | with_reducible apply putBytes_within (Sub.up hM rfl)
                | with_reducible apply zeroOutside_within (Sub.up hM rfl)
                | with_reducible refine each_within (fun _ _ _ => ?_) ?_
                | (with_reducible apply Within.snd <;> [with_reducible assumption; skip])
                | (with_reducible apply Within.fst <;> [with_reducible assumption; skip])
                | (with_reducible apply Within.fst2 <;> [with_reducible assumption; skip])
                | split)
         | (have hx : Within M s0 x.2 := by
              unfold x
              repeat' first
                | with_reducible assumption
                | dsimp -zeta only
                | with_reducible apply Within.ite1
                | with_reducible apply Within.ite2
                | with_reducible apply Within.ite
                | with_reducible apply bumpCore_within (Sub.up hM rfl)
                | with_reducible apply putBytes_within (Sub.up hM rfl)
                | with_reducible apply zeroOutside_within (Sub.up hM rfl)
                | with_reducible refine each_within (fun _ _ _ => ?_) ?_
                | (with_reducible apply Within.snd <;> [with_reducible assumption; skip])
                | (with_reducible apply Within.fst <;> [with_reducible assumption; skip])
                | (with_reducible apply Within.fst2 <;> [with_reducible assumption; skip])
                | split)
         | skip
       clear_value x)
    | lift_lets -underBinder
    | dsimp -zeta only
    | with_reducible apply Within.ite1
    | with_reducible apply Within.ite2
    | with_reducible apply Within.ite
    | with_reducible apply bumpCore_within (Sub.up hM rfl)
    | with_reducible apply putBytes_within (Sub.up hM rfl)
    | with_reducible apply zeroOutside_within (Sub.up hM rfl)
    | with_reducible refine each_within (fun _ _ _ => ?_) ?_
    | (with_reducible apply Within.snd <;> [with_reducible assumption; skip])
    | (with_reducible apply Within.fst <;> [with_reducible assumption; skip])
    | (with_reducible apply Within.fst2 <;> [with_reducible assumption; skip])
    | split

theorem writeTile_within {M : Nat} {s0 : State} (hM : Sub 0x710000fdb M) (s : State) (c : Nat) (t : CoreTask) (k n ti tj : Nat) (pats scales : List Nat) (hW : Within M s0 s) : Within M s0 (writeTile s c t k n ti tj pats scales) := by
  unfold writeTile
  repeat' first
    | with_reducible assumption
    | (intro x
       first
         | (have hx : Within M s0 x := by
              unfold x
              repeat' first
                | with_reducible assumption
                | dsimp -zeta only
                | with_reducible apply Within.ite1
                | with_reducible apply Within.ite2
                | with_reducible apply Within.ite
                | with_reducible apply outRow_within (Sub.up hM rfl)
                | with_reducible apply putBytes_within (Sub.up hM rfl)
                | with_reducible apply zeroOutside_within (Sub.up hM rfl)
                | with_reducible refine each_within (fun _ _ _ => ?_) ?_
                | (with_reducible apply Within.snd <;> [with_reducible assumption; skip])
                | (with_reducible apply Within.fst <;> [with_reducible assumption; skip])
                | (with_reducible apply Within.fst2 <;> [with_reducible assumption; skip])
                | split)
         | (have hx : Within M s0 x.1 := by
              unfold x
              repeat' first
                | with_reducible assumption
                | dsimp -zeta only
                | with_reducible apply Within.ite1
                | with_reducible apply Within.ite2
                | with_reducible apply Within.ite
                | with_reducible apply outRow_within (Sub.up hM rfl)
                | with_reducible apply putBytes_within (Sub.up hM rfl)
                | with_reducible apply zeroOutside_within (Sub.up hM rfl)
                | with_reducible refine each_within (fun _ _ _ => ?_) ?_
                | (with_reducible apply Within.snd <;> [with_reducible assumption; skip])
                | (with_reducible apply Within.fst <;> [with_reducible assumption; skip])
                | (with_reducible apply Within.fst2 <;> [with_reducible assumption; skip])
                | split)
         | (have hx : Within M s0 x.2 := by
              unfold x
              repeat' first
                | with_reducible assumption
                | dsimp -zeta only
                | with_reducible apply Within.ite1
                | with_reducible apply Within.ite2
                | with_reducible apply Within.ite
                | with_reducible apply outRow_within (Sub.up hM rfl)
                | with_reducible apply putBytes_within (Sub.up hM rfl)
                | with_reducible apply zeroOutside_within (Sub.up hM rfl)
                | with_reducible refine each_within (fun _ _ _ => ?_) ?_
                | (with_reducible apply Within.snd <;> [with_reducible assumption; skip])
                | (with_reducible apply Within.fst <;> [with_reducible assumption; skip])
                | (with_reducible apply Within.fst2 <;> [with_reducible assumption; skip])
                | split)
         | skip
       clear_value x)
    | lift_lets -underBinder
    | dsimp -zeta only
    | with_reducible apply Within.ite1
    | with_reducible apply Within.ite2
    | with_reducible apply Within.ite
    | with_reducible apply outRow_within (Sub.up hM rfl)
    | with_reducible apply putBytes_within (Sub.up hM rfl)
    | with_reducible apply zeroOutside_within (Sub.up hM rfl)
    | with_reducible refine each_within (fun _ _ _ => ?_) ?_
    | (with_reducible apply Within.snd <;> [with_reducible assumption; skip])
    | (with_reducible apply Within.fst <;> [with_reducible assumption; skip])
    | (with_reducible apply Within.fst2 <;> [with_reducible assumption; skip])
    | split

theorem outTile_within {M : Nat} {s0 : State} (hM : Sub 0x710000fdb M) (s : State) (c : Nat) (t : CoreTask) (hW : Within M s0 s) : Within M s0 (outTile s c t) := by
  unfold outTile
  repeat' first
    | with_reducible assumption
    | (intro x
       first
         | (have hx : Within M s0 x := by
              unfold x
              repeat' first
                | with_reducible assumption
                | dsimp -zeta only
                | with_reducible apply Within.ite1
                | with_reducible apply Within.ite2
                | with_reducible apply Within.ite
                | with_reducible apply updCore_within (Sub.up hM rfl)
                | with_reducible apply bumpCore_within (Sub.up hM rfl)
                | with_reducible apply takeRows_within (Sub.up hM rfl)
                | with_reducible apply dropSums_within (Sub.up hM rfl)
                | with_reducible apply countConv_within (Sub.up hM rfl)
                | with_reducible apply rowFunction_within (Sub.up hM rfl)
                | with_reducible apply keepRow_within (Sub.up hM rfl)
                | with_reducible apply writeTileRows_within (Sub.up hM rfl)
                | with_reducible apply writeTile_within (Sub.up hM rfl)
                | with_reducible refine each_within (fun _ _ _ => ?_) ?_
                | with_reducible refine Within.fold (fun _ _ _ => ?_) ?_
                | with_reducible refine Within.fold1 (fun _ _ _ => ?_) ?_
                | with_reducible refine Within.fold2 (fun _ _ _ => ?_) ?_
                | with_reducible apply hfa
                | with_reducible apply hfb
                | with_reducible apply hfc
                | with_reducible apply hfd
                | with_reducible apply hfe
                | with_reducible apply hff
                | with_reducible apply hfg
                | with_reducible apply hfh
                | with_reducible apply hfi
                | (with_reducible apply Within.snd <;> [with_reducible assumption; skip])
                | (with_reducible apply Within.fst <;> [with_reducible assumption; skip])
                | (with_reducible apply Within.fst2 <;> [with_reducible assumption; skip])
                | split)
         | (have hx : Within M s0 x.1 := by
              unfold x
              repeat' first
                | with_reducible assumption
                | dsimp -zeta only
                | with_reducible apply Within.ite1
                | with_reducible apply Within.ite2
                | with_reducible apply Within.ite
                | with_reducible apply updCore_within (Sub.up hM rfl)
                | with_reducible apply bumpCore_within (Sub.up hM rfl)
                | with_reducible apply takeRows_within (Sub.up hM rfl)
                | with_reducible apply dropSums_within (Sub.up hM rfl)
                | with_reducible apply countConv_within (Sub.up hM rfl)
                | with_reducible apply rowFunction_within (Sub.up hM rfl)
                | with_reducible apply keepRow_within (Sub.up hM rfl)
                | with_reducible apply writeTileRows_within (Sub.up hM rfl)
                | with_reducible apply writeTile_within (Sub.up hM rfl)
                | with_reducible refine each_within (fun _ _ _ => ?_) ?_
                | with_reducible refine Within.fold (fun _ _ _ => ?_) ?_
                | with_reducible refine Within.fold1 (fun _ _ _ => ?_) ?_
                | with_reducible refine Within.fold2 (fun _ _ _ => ?_) ?_
                | with_reducible apply hfa
                | with_reducible apply hfb
                | with_reducible apply hfc
                | with_reducible apply hfd
                | with_reducible apply hfe
                | with_reducible apply hff
                | with_reducible apply hfg
                | with_reducible apply hfh
                | with_reducible apply hfi
                | (with_reducible apply Within.snd <;> [with_reducible assumption; skip])
                | (with_reducible apply Within.fst <;> [with_reducible assumption; skip])
                | (with_reducible apply Within.fst2 <;> [with_reducible assumption; skip])
                | split)
         | (have hx : Within M s0 x.2 := by
              unfold x
              repeat' first
                | with_reducible assumption
                | dsimp -zeta only
                | with_reducible apply Within.ite1
                | with_reducible apply Within.ite2
                | with_reducible apply Within.ite
                | with_reducible apply updCore_within (Sub.up hM rfl)
                | with_reducible apply bumpCore_within (Sub.up hM rfl)
                | with_reducible apply takeRows_within (Sub.up hM rfl)
                | with_reducible apply dropSums_within (Sub.up hM rfl)
                | with_reducible apply countConv_within (Sub.up hM rfl)
                | with_reducible apply rowFunction_within (Sub.up hM rfl)
                | with_reducible apply keepRow_within (Sub.up hM rfl)
                | with_reducible apply writeTileRows_within (Sub.up hM rfl)
                | with_reducible apply writeTile_within (Sub.up hM rfl)
                | with_reducible refine each_within (fun _ _ _ => ?_) ?_
                | with_reducible refine Within.fold (fun _ _ _ => ?_) ?_
                | with_reducible refine Within.fold1 (fun _ _ _ => ?_) ?_
                | with_reducible refine Within.fold2 (fun _ _ _ => ?_) ?_
                | with_reducible apply hfa
                | with_reducible apply hfb
                | with_reducible apply hfc
                | with_reducible apply hfd
                | with_reducible apply hfe
                | with_reducible apply hff
                | with_reducible apply hfg
                | with_reducible apply hfh
                | with_reducible apply hfi
                | (with_reducible apply Within.snd <;> [with_reducible assumption; skip])
                | (with_reducible apply Within.fst <;> [with_reducible assumption; skip])
                | (with_reducible apply Within.fst2 <;> [with_reducible assumption; skip])
                | split)
         | (have hfa : ∀ t, Within M s0 t → Within M s0 (x t) := by
              intro t ht; unfold x
              repeat' first
                | with_reducible assumption
                | dsimp -zeta only
                | with_reducible apply Within.ite1
                | with_reducible apply Within.ite2
                | with_reducible apply Within.ite
                | with_reducible apply updCore_within (Sub.up hM rfl)
                | with_reducible apply bumpCore_within (Sub.up hM rfl)
                | with_reducible apply takeRows_within (Sub.up hM rfl)
                | with_reducible apply dropSums_within (Sub.up hM rfl)
                | with_reducible apply countConv_within (Sub.up hM rfl)
                | with_reducible apply rowFunction_within (Sub.up hM rfl)
                | with_reducible apply keepRow_within (Sub.up hM rfl)
                | with_reducible apply writeTileRows_within (Sub.up hM rfl)
                | with_reducible apply writeTile_within (Sub.up hM rfl)
                | with_reducible refine each_within (fun _ _ _ => ?_) ?_
                | with_reducible refine Within.fold (fun _ _ _ => ?_) ?_
                | with_reducible refine Within.fold1 (fun _ _ _ => ?_) ?_
                | with_reducible refine Within.fold2 (fun _ _ _ => ?_) ?_
                | with_reducible apply hfa
                | with_reducible apply hfb
                | with_reducible apply hfc
                | with_reducible apply hfd
                | with_reducible apply hfe
                | with_reducible apply hff
                | with_reducible apply hfg
                | with_reducible apply hfh
                | with_reducible apply hfi
                | (with_reducible apply Within.snd <;> [with_reducible assumption; skip])
                | (with_reducible apply Within.fst <;> [with_reducible assumption; skip])
                | (with_reducible apply Within.fst2 <;> [with_reducible assumption; skip])
                | split)
         | (have hfb : ∀ t a, Within M s0 t → Within M s0 (x t a) := by
              intro t a ht; unfold x
              repeat' first
                | with_reducible assumption
                | dsimp -zeta only
                | with_reducible apply Within.ite1
                | with_reducible apply Within.ite2
                | with_reducible apply Within.ite
                | with_reducible apply updCore_within (Sub.up hM rfl)
                | with_reducible apply bumpCore_within (Sub.up hM rfl)
                | with_reducible apply takeRows_within (Sub.up hM rfl)
                | with_reducible apply dropSums_within (Sub.up hM rfl)
                | with_reducible apply countConv_within (Sub.up hM rfl)
                | with_reducible apply rowFunction_within (Sub.up hM rfl)
                | with_reducible apply keepRow_within (Sub.up hM rfl)
                | with_reducible apply writeTileRows_within (Sub.up hM rfl)
                | with_reducible apply writeTile_within (Sub.up hM rfl)
                | with_reducible refine each_within (fun _ _ _ => ?_) ?_
                | with_reducible refine Within.fold (fun _ _ _ => ?_) ?_
                | with_reducible refine Within.fold1 (fun _ _ _ => ?_) ?_
                | with_reducible refine Within.fold2 (fun _ _ _ => ?_) ?_
                | with_reducible apply hfa
                | with_reducible apply hfb
                | with_reducible apply hfc
                | with_reducible apply hfd
                | with_reducible apply hfe
                | with_reducible apply hff
                | with_reducible apply hfg
                | with_reducible apply hfh
                | with_reducible apply hfi
                | (with_reducible apply Within.snd <;> [with_reducible assumption; skip])
                | (with_reducible apply Within.fst <;> [with_reducible assumption; skip])
                | (with_reducible apply Within.fst2 <;> [with_reducible assumption; skip])
                | split)
         | (have hfc : ∀ t a b, Within M s0 t → Within M s0 (x t a b) := by
              intro t a b ht; unfold x
              repeat' first
                | with_reducible assumption
                | dsimp -zeta only
                | with_reducible apply Within.ite1
                | with_reducible apply Within.ite2
                | with_reducible apply Within.ite
                | with_reducible apply updCore_within (Sub.up hM rfl)
                | with_reducible apply bumpCore_within (Sub.up hM rfl)
                | with_reducible apply takeRows_within (Sub.up hM rfl)
                | with_reducible apply dropSums_within (Sub.up hM rfl)
                | with_reducible apply countConv_within (Sub.up hM rfl)
                | with_reducible apply rowFunction_within (Sub.up hM rfl)
                | with_reducible apply keepRow_within (Sub.up hM rfl)
                | with_reducible apply writeTileRows_within (Sub.up hM rfl)
                | with_reducible apply writeTile_within (Sub.up hM rfl)
                | with_reducible refine each_within (fun _ _ _ => ?_) ?_
                | with_reducible refine Within.fold (fun _ _ _ => ?_) ?_
                | with_reducible refine Within.fold1 (fun _ _ _ => ?_) ?_
                | with_reducible refine Within.fold2 (fun _ _ _ => ?_) ?_
                | with_reducible apply hfa
                | with_reducible apply hfb
                | with_reducible apply hfc
                | with_reducible apply hfd
                | with_reducible apply hfe
                | with_reducible apply hff
                | with_reducible apply hfg
                | with_reducible apply hfh
                | with_reducible apply hfi
                | (with_reducible apply Within.snd <;> [with_reducible assumption; skip])
                | (with_reducible apply Within.fst <;> [with_reducible assumption; skip])
                | (with_reducible apply Within.fst2 <;> [with_reducible assumption; skip])
                | split)
         | (have hfd : ∀ t, Within M s0 t → Within M s0 (x t).1 := by
              intro t ht; unfold x
              repeat' first
                | with_reducible assumption
                | dsimp -zeta only
                | with_reducible apply Within.ite1
                | with_reducible apply Within.ite2
                | with_reducible apply Within.ite
                | with_reducible apply updCore_within (Sub.up hM rfl)
                | with_reducible apply bumpCore_within (Sub.up hM rfl)
                | with_reducible apply takeRows_within (Sub.up hM rfl)
                | with_reducible apply dropSums_within (Sub.up hM rfl)
                | with_reducible apply countConv_within (Sub.up hM rfl)
                | with_reducible apply rowFunction_within (Sub.up hM rfl)
                | with_reducible apply keepRow_within (Sub.up hM rfl)
                | with_reducible apply writeTileRows_within (Sub.up hM rfl)
                | with_reducible apply writeTile_within (Sub.up hM rfl)
                | with_reducible refine each_within (fun _ _ _ => ?_) ?_
                | with_reducible refine Within.fold (fun _ _ _ => ?_) ?_
                | with_reducible refine Within.fold1 (fun _ _ _ => ?_) ?_
                | with_reducible refine Within.fold2 (fun _ _ _ => ?_) ?_
                | with_reducible apply hfa
                | with_reducible apply hfb
                | with_reducible apply hfc
                | with_reducible apply hfd
                | with_reducible apply hfe
                | with_reducible apply hff
                | with_reducible apply hfg
                | with_reducible apply hfh
                | with_reducible apply hfi
                | (with_reducible apply Within.snd <;> [with_reducible assumption; skip])
                | (with_reducible apply Within.fst <;> [with_reducible assumption; skip])
                | (with_reducible apply Within.fst2 <;> [with_reducible assumption; skip])
                | split)
         | (have hfe : ∀ t a, Within M s0 t → Within M s0 (x t a).1 := by
              intro t a ht; unfold x
              repeat' first
                | with_reducible assumption
                | dsimp -zeta only
                | with_reducible apply Within.ite1
                | with_reducible apply Within.ite2
                | with_reducible apply Within.ite
                | with_reducible apply updCore_within (Sub.up hM rfl)
                | with_reducible apply bumpCore_within (Sub.up hM rfl)
                | with_reducible apply takeRows_within (Sub.up hM rfl)
                | with_reducible apply dropSums_within (Sub.up hM rfl)
                | with_reducible apply countConv_within (Sub.up hM rfl)
                | with_reducible apply rowFunction_within (Sub.up hM rfl)
                | with_reducible apply keepRow_within (Sub.up hM rfl)
                | with_reducible apply writeTileRows_within (Sub.up hM rfl)
                | with_reducible apply writeTile_within (Sub.up hM rfl)
                | with_reducible refine each_within (fun _ _ _ => ?_) ?_
                | with_reducible refine Within.fold (fun _ _ _ => ?_) ?_
                | with_reducible refine Within.fold1 (fun _ _ _ => ?_) ?_
                | with_reducible refine Within.fold2 (fun _ _ _ => ?_) ?_
                | with_reducible apply hfa
                | with_reducible apply hfb
                | with_reducible apply hfc
                | with_reducible apply hfd
                | with_reducible apply hfe
                | with_reducible apply hff
                | with_reducible apply hfg
                | with_reducible apply hfh
                | with_reducible apply hfi
                | (with_reducible apply Within.snd <;> [with_reducible assumption; skip])
                | (with_reducible apply Within.fst <;> [with_reducible assumption; skip])
                | (with_reducible apply Within.fst2 <;> [with_reducible assumption; skip])
                | split)
         | (have hff : ∀ t a b, Within M s0 t → Within M s0 (x t a b).1 := by
              intro t a b ht; unfold x
              repeat' first
                | with_reducible assumption
                | dsimp -zeta only
                | with_reducible apply Within.ite1
                | with_reducible apply Within.ite2
                | with_reducible apply Within.ite
                | with_reducible apply updCore_within (Sub.up hM rfl)
                | with_reducible apply bumpCore_within (Sub.up hM rfl)
                | with_reducible apply takeRows_within (Sub.up hM rfl)
                | with_reducible apply dropSums_within (Sub.up hM rfl)
                | with_reducible apply countConv_within (Sub.up hM rfl)
                | with_reducible apply rowFunction_within (Sub.up hM rfl)
                | with_reducible apply keepRow_within (Sub.up hM rfl)
                | with_reducible apply writeTileRows_within (Sub.up hM rfl)
                | with_reducible apply writeTile_within (Sub.up hM rfl)
                | with_reducible refine each_within (fun _ _ _ => ?_) ?_
                | with_reducible refine Within.fold (fun _ _ _ => ?_) ?_
                | with_reducible refine Within.fold1 (fun _ _ _ => ?_) ?_
                | with_reducible refine Within.fold2 (fun _ _ _ => ?_) ?_
                | with_reducible apply hfa
                | with_reducible apply hfb
                | with_reducible apply hfc
                | with_reducible apply hfd
                | with_reducible apply hfe
                | with_reducible apply hff
                | with_reducible apply hfg
                | with_reducible apply hfh
                | with_reducible apply hfi
                | (with_reducible apply Within.snd <;> [with_reducible assumption; skip])
                | (with_reducible apply Within.fst <;> [with_reducible assumption; skip])
                | (with_reducible apply Within.fst2 <;> [with_reducible assumption; skip])
                | split)
         | (have hfg : ∀ t, Within M s0 t → Within M s0 (x t).2 := by
              intro t ht; unfold x
              repeat' first
                | with_reducible assumption
                | dsimp -zeta only
                | with_reducible apply Within.ite1
                | with_reducible apply Within.ite2
                | with_reducible apply Within.ite
                | with_reducible apply updCore_within (Sub.up hM rfl)
                | with_reducible apply bumpCore_within (Sub.up hM rfl)
                | with_reducible apply takeRows_within (Sub.up hM rfl)
                | with_reducible apply dropSums_within (Sub.up hM rfl)
                | with_reducible apply countConv_within (Sub.up hM rfl)
                | with_reducible apply rowFunction_within (Sub.up hM rfl)
                | with_reducible apply keepRow_within (Sub.up hM rfl)
                | with_reducible apply writeTileRows_within (Sub.up hM rfl)
                | with_reducible apply writeTile_within (Sub.up hM rfl)
                | with_reducible refine each_within (fun _ _ _ => ?_) ?_
                | with_reducible refine Within.fold (fun _ _ _ => ?_) ?_
                | with_reducible refine Within.fold1 (fun _ _ _ => ?_) ?_
                | with_reducible refine Within.fold2 (fun _ _ _ => ?_) ?_
                | with_reducible apply hfa
                | with_reducible apply hfb
                | with_reducible apply hfc
                | with_reducible apply hfd
                | with_reducible apply hfe
                | with_reducible apply hff
                | with_reducible apply hfg
                | with_reducible apply hfh
                | with_reducible apply hfi
                | (with_reducible apply Within.snd <;> [with_reducible assumption; skip])
                | (with_reducible apply Within.fst <;> [with_reducible assumption; skip])
                | (with_reducible apply Within.fst2 <;> [with_reducible assumption; skip])
                | split)
         | (have hfh : ∀ t a, Within M s0 t → Within M s0 (x t a).2 := by
              intro t a ht; unfold x
              repeat' first
                | with_reducible assumption
                | dsimp -zeta only
                | with_reducible apply Within.ite1
                | with_reducible apply Within.ite2
                | with_reducible apply Within.ite
                | with_reducible apply updCore_within (Sub.up hM rfl)
                | with_reducible apply bumpCore_within (Sub.up hM rfl)
                | with_reducible apply takeRows_within (Sub.up hM rfl)
                | with_reducible apply dropSums_within (Sub.up hM rfl)
                | with_reducible apply countConv_within (Sub.up hM rfl)
                | with_reducible apply rowFunction_within (Sub.up hM rfl)
                | with_reducible apply keepRow_within (Sub.up hM rfl)
                | with_reducible apply writeTileRows_within (Sub.up hM rfl)
                | with_reducible apply writeTile_within (Sub.up hM rfl)
                | with_reducible refine each_within (fun _ _ _ => ?_) ?_
                | with_reducible refine Within.fold (fun _ _ _ => ?_) ?_
                | with_reducible refine Within.fold1 (fun _ _ _ => ?_) ?_
                | with_reducible refine Within.fold2 (fun _ _ _ => ?_) ?_
                | with_reducible apply hfa
                | with_reducible apply hfb
                | with_reducible apply hfc
                | with_reducible apply hfd
                | with_reducible apply hfe
                | with_reducible apply hff
                | with_reducible apply hfg
                | with_reducible apply hfh
                | with_reducible apply hfi
                | (with_reducible apply Within.snd <;> [with_reducible assumption; skip])
                | (with_reducible apply Within.fst <;> [with_reducible assumption; skip])
                | (with_reducible apply Within.fst2 <;> [with_reducible assumption; skip])
                | split)
         | (have hfi : ∀ t a b, Within M s0 t → Within M s0 (x t a b).2 := by
              intro t a b ht; unfold x
              repeat' first
                | with_reducible assumption
                | dsimp -zeta only
                | with_reducible apply Within.ite1
                | with_reducible apply Within.ite2
                | with_reducible apply Within.ite
                | with_reducible apply updCore_within (Sub.up hM rfl)
                | with_reducible apply bumpCore_within (Sub.up hM rfl)
                | with_reducible apply takeRows_within (Sub.up hM rfl)
                | with_reducible apply dropSums_within (Sub.up hM rfl)
                | with_reducible apply countConv_within (Sub.up hM rfl)
                | with_reducible apply rowFunction_within (Sub.up hM rfl)
                | with_reducible apply keepRow_within (Sub.up hM rfl)
                | with_reducible apply writeTileRows_within (Sub.up hM rfl)
                | with_reducible apply writeTile_within (Sub.up hM rfl)
                | with_reducible refine each_within (fun _ _ _ => ?_) ?_
                | with_reducible refine Within.fold (fun _ _ _ => ?_) ?_
                | with_reducible refine Within.fold1 (fun _ _ _ => ?_) ?_
                | with_reducible refine Within.fold2 (fun _ _ _ => ?_) ?_
                | with_reducible apply hfa
                | with_reducible apply hfb
                | with_reducible apply hfc
                | with_reducible apply hfd
                | with_reducible apply hfe
                | with_reducible apply hff
                | with_reducible apply hfg
                | with_reducible apply hfh
                | with_reducible apply hfi
                | (with_reducible apply Within.snd <;> [with_reducible assumption; skip])
                | (with_reducible apply Within.fst <;> [with_reducible assumption; skip])
                | (with_reducible apply Within.fst2 <;> [with_reducible assumption; skip])
                | split)
         | skip
       clear_value x)
    | lift_lets -underBinder
    | dsimp -zeta only
    | with_reducible apply Within.ite1
    | with_reducible apply Within.ite2
    | with_reducible apply Within.ite
    | with_reducible apply updCore_within (Sub.up hM rfl)
    | with_reducible apply bumpCore_within (Sub.up hM rfl)
    | with_reducible apply takeRows_within (Sub.up hM rfl)
    | with_reducible apply dropSums_within (Sub.up hM rfl)
    | with_reducible apply countConv_within (Sub.up hM rfl)
    | with_reducible apply rowFunction_within (Sub.up hM rfl)
    | with_reducible apply keepRow_within (Sub.up hM rfl)
    | with_reducible apply writeTileRows_within (Sub.up hM rfl)
    | with_reducible apply writeTile_within (Sub.up hM rfl)
    | with_reducible refine each_within (fun _ _ _ => ?_) ?_
    | with_reducible refine Within.fold (fun _ _ _ => ?_) ?_
    | with_reducible refine Within.fold1 (fun _ _ _ => ?_) ?_
    | with_reducible refine Within.fold2 (fun _ _ _ => ?_) ?_
    | with_reducible apply hfa
    | with_reducible apply hfb
    | with_reducible apply hfc
    | with_reducible apply hfd
    | with_reducible apply hfe
    | with_reducible apply hff
    | with_reducible apply hfg
    | with_reducible apply hfh
    | with_reducible apply hfi
    | (with_reducible apply Within.snd <;> [with_reducible assumption; skip])
    | (with_reducible apply Within.fst <;> [with_reducible assumption; skip])
    | (with_reducible apply Within.fst2 <;> [with_reducible assumption; skip])
    | split

theorem endCompact_within {M : Nat} {s0 : State} (hM : Sub 0x3100008d3 M) (s : State) (c : Nat) (t : CoreTask) (hW : Within M s0 s) : Within M s0 (endCompact s c t) := by
  unfold endCompact
  repeat' first
    | with_reducible assumption
    | (intro x
       first
         | (have hx : Within M s0 x := by
              unfold x
              repeat' first
                | with_reducible assumption
                | dsimp -zeta only
                | with_reducible apply Within.ite1
                | with_reducible apply Within.ite2
                | with_reducible apply Within.ite
                | with_reducible apply writeCompact_within (Sub.up hM rfl)
                | (with_reducible apply Within.snd <;> [with_reducible assumption; skip])
                | (with_reducible apply Within.fst <;> [with_reducible assumption; skip])
                | (with_reducible apply Within.fst2 <;> [with_reducible assumption; skip])
                | split)
         | (have hx : Within M s0 x.1 := by
              unfold x
              repeat' first
                | with_reducible assumption
                | dsimp -zeta only
                | with_reducible apply Within.ite1
                | with_reducible apply Within.ite2
                | with_reducible apply Within.ite
                | with_reducible apply writeCompact_within (Sub.up hM rfl)
                | (with_reducible apply Within.snd <;> [with_reducible assumption; skip])
                | (with_reducible apply Within.fst <;> [with_reducible assumption; skip])
                | (with_reducible apply Within.fst2 <;> [with_reducible assumption; skip])
                | split)
         | (have hx : Within M s0 x.2 := by
              unfold x
              repeat' first
                | with_reducible assumption
                | dsimp -zeta only
                | with_reducible apply Within.ite1
                | with_reducible apply Within.ite2
                | with_reducible apply Within.ite
                | with_reducible apply writeCompact_within (Sub.up hM rfl)
                | (with_reducible apply Within.snd <;> [with_reducible assumption; skip])
                | (with_reducible apply Within.fst <;> [with_reducible assumption; skip])
                | (with_reducible apply Within.fst2 <;> [with_reducible assumption; skip])
                | split)
         | skip
       clear_value x)
    | lift_lets -underBinder
    | dsimp -zeta only
    | with_reducible apply Within.ite1
    | with_reducible apply Within.ite2
    | with_reducible apply Within.ite
    | with_reducible apply writeCompact_within (Sub.up hM rfl)
    | (with_reducible apply Within.snd <;> [with_reducible assumption; skip])
    | (with_reducible apply Within.fst <;> [with_reducible assumption; skip])
    | (with_reducible apply Within.fst2 <;> [with_reducible assumption; skip])
    | split

theorem spanEnd_within {M : Nat} {s0 : State} (hM : Sub 0x3100008d3 M) (s : State) (c : Nat) (hW : Within M s0 s) : Within M s0 (spanEnd s c) := by
  unfold spanEnd
  repeat' first
    | with_reducible assumption
    | (intro x
       first
         | (have hx : Within M s0 x := by
              unfold x
              repeat' first
                | with_reducible assumption
                | dsimp -zeta only
                | with_reducible apply Within.ite1
                | with_reducible apply Within.ite2
                | with_reducible apply Within.ite
                | with_reducible apply reportSpan_within (Sub.up hM rfl)
                | with_reducible apply endCompact_within (Sub.up hM rfl)
                | (with_reducible apply Within.snd <;> [with_reducible assumption; skip])
                | (with_reducible apply Within.fst <;> [with_reducible assumption; skip])
                | (with_reducible apply Within.fst2 <;> [with_reducible assumption; skip])
                | split)
         | (have hx : Within M s0 x.1 := by
              unfold x
              repeat' first
                | with_reducible assumption
                | dsimp -zeta only
                | with_reducible apply Within.ite1
                | with_reducible apply Within.ite2
                | with_reducible apply Within.ite
                | with_reducible apply reportSpan_within (Sub.up hM rfl)
                | with_reducible apply endCompact_within (Sub.up hM rfl)
                | (with_reducible apply Within.snd <;> [with_reducible assumption; skip])
                | (with_reducible apply Within.fst <;> [with_reducible assumption; skip])
                | (with_reducible apply Within.fst2 <;> [with_reducible assumption; skip])
                | split)
         | (have hx : Within M s0 x.2 := by
              unfold x
              repeat' first
                | with_reducible assumption
                | dsimp -zeta only
                | with_reducible apply Within.ite1
                | with_reducible apply Within.ite2
                | with_reducible apply Within.ite
                | with_reducible apply reportSpan_within (Sub.up hM rfl)
                | with_reducible apply endCompact_within (Sub.up hM rfl)
                | (with_reducible apply Within.snd <;> [with_reducible assumption; skip])
                | (with_reducible apply Within.fst <;> [with_reducible assumption; skip])
                | (with_reducible apply Within.fst2 <;> [with_reducible assumption; skip])
                | split)
         | skip
       clear_value x)
    | lift_lets -underBinder
    | dsimp -zeta only
    | with_reducible apply Within.ite1
    | with_reducible apply Within.ite2
    | with_reducible apply Within.ite
    | with_reducible apply reportSpan_within (Sub.up hM rfl)
    | with_reducible apply endCompact_within (Sub.up hM rfl)
    | (with_reducible apply Within.snd <;> [with_reducible assumption; skip])
    | (with_reducible apply Within.fst <;> [with_reducible assumption; skip])
    | (with_reducible apply Within.fst2 <;> [with_reducible assumption; skip])
    | split

theorem zeroTile_within {M : Nat} {s0 : State} (hM : Sub 0x710000fdb M) (s : State) (c : Nat) (t0 : CoreTask) (hW : Within M s0 s) : Within M s0 (zeroTile s c t0) := by
  unfold zeroTile
  repeat' first
    | with_reducible assumption
    | (intro x
       first
         | (have hx : Within M s0 x := by
              unfold x
              repeat' first
                | with_reducible assumption
                | dsimp -zeta only
                | with_reducible apply Within.ite1
                | with_reducible apply Within.ite2
                | with_reducible apply Within.ite
                | with_reducible apply updCore_within (Sub.up hM rfl)
                | with_reducible apply bumpCore_within (Sub.up hM rfl)
                | with_reducible apply keepRow_within (Sub.up hM rfl)
                | with_reducible apply writeTile_within (Sub.up hM rfl)
                | with_reducible refine each_within (fun _ _ _ => ?_) ?_
                | with_reducible apply hfa
                | with_reducible apply hfb
                | with_reducible apply hfc
                | with_reducible apply hfd
                | with_reducible apply hfe
                | with_reducible apply hff
                | with_reducible apply hfg
                | with_reducible apply hfh
                | with_reducible apply hfi
                | (with_reducible apply Within.snd <;> [with_reducible assumption; skip])
                | (with_reducible apply Within.fst <;> [with_reducible assumption; skip])
                | (with_reducible apply Within.fst2 <;> [with_reducible assumption; skip])
                | split)
         | (have hx : Within M s0 x.1 := by
              unfold x
              repeat' first
                | with_reducible assumption
                | dsimp -zeta only
                | with_reducible apply Within.ite1
                | with_reducible apply Within.ite2
                | with_reducible apply Within.ite
                | with_reducible apply updCore_within (Sub.up hM rfl)
                | with_reducible apply bumpCore_within (Sub.up hM rfl)
                | with_reducible apply keepRow_within (Sub.up hM rfl)
                | with_reducible apply writeTile_within (Sub.up hM rfl)
                | with_reducible refine each_within (fun _ _ _ => ?_) ?_
                | with_reducible apply hfa
                | with_reducible apply hfb
                | with_reducible apply hfc
                | with_reducible apply hfd
                | with_reducible apply hfe
                | with_reducible apply hff
                | with_reducible apply hfg
                | with_reducible apply hfh
                | with_reducible apply hfi
                | (with_reducible apply Within.snd <;> [with_reducible assumption; skip])
                | (with_reducible apply Within.fst <;> [with_reducible assumption; skip])
                | (with_reducible apply Within.fst2 <;> [with_reducible assumption; skip])
                | split)
         | (have hx : Within M s0 x.2 := by
              unfold x
              repeat' first
                | with_reducible assumption
                | dsimp -zeta only
                | with_reducible apply Within.ite1
                | with_reducible apply Within.ite2
                | with_reducible apply Within.ite
                | with_reducible apply updCore_within (Sub.up hM rfl)
                | with_reducible apply bumpCore_within (Sub.up hM rfl)
                | with_reducible apply keepRow_within (Sub.up hM rfl)
                | with_reducible apply writeTile_within (Sub.up hM rfl)
                | with_reducible refine each_within (fun _ _ _ => ?_) ?_
                | with_reducible apply hfa
                | with_reducible apply hfb
                | with_reducible apply hfc
                | with_reducible apply hfd
                | with_reducible apply hfe
                | with_reducible apply hff
                | with_reducible apply hfg
                | with_reducible apply hfh
                | with_reducible apply hfi
                | (with_reducible apply Within.snd <;> [with_reducible assumption; skip])
                | (with_reducible apply Within.fst <;> [with_reducible assumption; skip])
                | (with_reducible apply Within.fst2 <;> [with_reducible assumption; skip])
                | split)
         | (have hfa : ∀ t, Within M s0 t → Within M s0 (x t) := by
              intro t ht; unfold x
              repeat' first
                | with_reducible assumption
                | dsimp -zeta only
                | with_reducible apply Within.ite1
                | with_reducible apply Within.ite2
                | with_reducible apply Within.ite
                | with_reducible apply updCore_within (Sub.up hM rfl)
                | with_reducible apply bumpCore_within (Sub.up hM rfl)
                | with_reducible apply keepRow_within (Sub.up hM rfl)
                | with_reducible apply writeTile_within (Sub.up hM rfl)
                | with_reducible refine each_within (fun _ _ _ => ?_) ?_
                | with_reducible apply hfa
                | with_reducible apply hfb
                | with_reducible apply hfc
                | with_reducible apply hfd
                | with_reducible apply hfe
                | with_reducible apply hff
                | with_reducible apply hfg
                | with_reducible apply hfh
                | with_reducible apply hfi
                | (with_reducible apply Within.snd <;> [with_reducible assumption; skip])
                | (with_reducible apply Within.fst <;> [with_reducible assumption; skip])
                | (with_reducible apply Within.fst2 <;> [with_reducible assumption; skip])
                | split)
         | (have hfb : ∀ t a, Within M s0 t → Within M s0 (x t a) := by
              intro t a ht; unfold x
              repeat' first
                | with_reducible assumption
                | dsimp -zeta only
                | with_reducible apply Within.ite1
                | with_reducible apply Within.ite2
                | with_reducible apply Within.ite
                | with_reducible apply updCore_within (Sub.up hM rfl)
                | with_reducible apply bumpCore_within (Sub.up hM rfl)
                | with_reducible apply keepRow_within (Sub.up hM rfl)
                | with_reducible apply writeTile_within (Sub.up hM rfl)
                | with_reducible refine each_within (fun _ _ _ => ?_) ?_
                | with_reducible apply hfa
                | with_reducible apply hfb
                | with_reducible apply hfc
                | with_reducible apply hfd
                | with_reducible apply hfe
                | with_reducible apply hff
                | with_reducible apply hfg
                | with_reducible apply hfh
                | with_reducible apply hfi
                | (with_reducible apply Within.snd <;> [with_reducible assumption; skip])
                | (with_reducible apply Within.fst <;> [with_reducible assumption; skip])
                | (with_reducible apply Within.fst2 <;> [with_reducible assumption; skip])
                | split)
         | (have hfc : ∀ t a b, Within M s0 t → Within M s0 (x t a b) := by
              intro t a b ht; unfold x
              repeat' first
                | with_reducible assumption
                | dsimp -zeta only
                | with_reducible apply Within.ite1
                | with_reducible apply Within.ite2
                | with_reducible apply Within.ite
                | with_reducible apply updCore_within (Sub.up hM rfl)
                | with_reducible apply bumpCore_within (Sub.up hM rfl)
                | with_reducible apply keepRow_within (Sub.up hM rfl)
                | with_reducible apply writeTile_within (Sub.up hM rfl)
                | with_reducible refine each_within (fun _ _ _ => ?_) ?_
                | with_reducible apply hfa
                | with_reducible apply hfb
                | with_reducible apply hfc
                | with_reducible apply hfd
                | with_reducible apply hfe
                | with_reducible apply hff
                | with_reducible apply hfg
                | with_reducible apply hfh
                | with_reducible apply hfi
                | (with_reducible apply Within.snd <;> [with_reducible assumption; skip])
                | (with_reducible apply Within.fst <;> [with_reducible assumption; skip])
                | (with_reducible apply Within.fst2 <;> [with_reducible assumption; skip])
                | split)
         | (have hfd : ∀ t, Within M s0 t → Within M s0 (x t).1 := by
              intro t ht; unfold x
              repeat' first
                | with_reducible assumption
                | dsimp -zeta only
                | with_reducible apply Within.ite1
                | with_reducible apply Within.ite2
                | with_reducible apply Within.ite
                | with_reducible apply updCore_within (Sub.up hM rfl)
                | with_reducible apply bumpCore_within (Sub.up hM rfl)
                | with_reducible apply keepRow_within (Sub.up hM rfl)
                | with_reducible apply writeTile_within (Sub.up hM rfl)
                | with_reducible refine each_within (fun _ _ _ => ?_) ?_
                | with_reducible apply hfa
                | with_reducible apply hfb
                | with_reducible apply hfc
                | with_reducible apply hfd
                | with_reducible apply hfe
                | with_reducible apply hff
                | with_reducible apply hfg
                | with_reducible apply hfh
                | with_reducible apply hfi
                | (with_reducible apply Within.snd <;> [with_reducible assumption; skip])
                | (with_reducible apply Within.fst <;> [with_reducible assumption; skip])
                | (with_reducible apply Within.fst2 <;> [with_reducible assumption; skip])
                | split)
         | (have hfe : ∀ t a, Within M s0 t → Within M s0 (x t a).1 := by
              intro t a ht; unfold x
              repeat' first
                | with_reducible assumption
                | dsimp -zeta only
                | with_reducible apply Within.ite1
                | with_reducible apply Within.ite2
                | with_reducible apply Within.ite
                | with_reducible apply updCore_within (Sub.up hM rfl)
                | with_reducible apply bumpCore_within (Sub.up hM rfl)
                | with_reducible apply keepRow_within (Sub.up hM rfl)
                | with_reducible apply writeTile_within (Sub.up hM rfl)
                | with_reducible refine each_within (fun _ _ _ => ?_) ?_
                | with_reducible apply hfa
                | with_reducible apply hfb
                | with_reducible apply hfc
                | with_reducible apply hfd
                | with_reducible apply hfe
                | with_reducible apply hff
                | with_reducible apply hfg
                | with_reducible apply hfh
                | with_reducible apply hfi
                | (with_reducible apply Within.snd <;> [with_reducible assumption; skip])
                | (with_reducible apply Within.fst <;> [with_reducible assumption; skip])
                | (with_reducible apply Within.fst2 <;> [with_reducible assumption; skip])
                | split)
         | (have hff : ∀ t a b, Within M s0 t → Within M s0 (x t a b).1 := by
              intro t a b ht; unfold x
              repeat' first
                | with_reducible assumption
                | dsimp -zeta only
                | with_reducible apply Within.ite1
                | with_reducible apply Within.ite2
                | with_reducible apply Within.ite
                | with_reducible apply updCore_within (Sub.up hM rfl)
                | with_reducible apply bumpCore_within (Sub.up hM rfl)
                | with_reducible apply keepRow_within (Sub.up hM rfl)
                | with_reducible apply writeTile_within (Sub.up hM rfl)
                | with_reducible refine each_within (fun _ _ _ => ?_) ?_
                | with_reducible apply hfa
                | with_reducible apply hfb
                | with_reducible apply hfc
                | with_reducible apply hfd
                | with_reducible apply hfe
                | with_reducible apply hff
                | with_reducible apply hfg
                | with_reducible apply hfh
                | with_reducible apply hfi
                | (with_reducible apply Within.snd <;> [with_reducible assumption; skip])
                | (with_reducible apply Within.fst <;> [with_reducible assumption; skip])
                | (with_reducible apply Within.fst2 <;> [with_reducible assumption; skip])
                | split)
         | (have hfg : ∀ t, Within M s0 t → Within M s0 (x t).2 := by
              intro t ht; unfold x
              repeat' first
                | with_reducible assumption
                | dsimp -zeta only
                | with_reducible apply Within.ite1
                | with_reducible apply Within.ite2
                | with_reducible apply Within.ite
                | with_reducible apply updCore_within (Sub.up hM rfl)
                | with_reducible apply bumpCore_within (Sub.up hM rfl)
                | with_reducible apply keepRow_within (Sub.up hM rfl)
                | with_reducible apply writeTile_within (Sub.up hM rfl)
                | with_reducible refine each_within (fun _ _ _ => ?_) ?_
                | with_reducible apply hfa
                | with_reducible apply hfb
                | with_reducible apply hfc
                | with_reducible apply hfd
                | with_reducible apply hfe
                | with_reducible apply hff
                | with_reducible apply hfg
                | with_reducible apply hfh
                | with_reducible apply hfi
                | (with_reducible apply Within.snd <;> [with_reducible assumption; skip])
                | (with_reducible apply Within.fst <;> [with_reducible assumption; skip])
                | (with_reducible apply Within.fst2 <;> [with_reducible assumption; skip])
                | split)
         | (have hfh : ∀ t a, Within M s0 t → Within M s0 (x t a).2 := by
              intro t a ht; unfold x
              repeat' first
                | with_reducible assumption
                | dsimp -zeta only
                | with_reducible apply Within.ite1
                | with_reducible apply Within.ite2
                | with_reducible apply Within.ite
                | with_reducible apply updCore_within (Sub.up hM rfl)
                | with_reducible apply bumpCore_within (Sub.up hM rfl)
                | with_reducible apply keepRow_within (Sub.up hM rfl)
                | with_reducible apply writeTile_within (Sub.up hM rfl)
                | with_reducible refine each_within (fun _ _ _ => ?_) ?_
                | with_reducible apply hfa
                | with_reducible apply hfb
                | with_reducible apply hfc
                | with_reducible apply hfd
                | with_reducible apply hfe
                | with_reducible apply hff
                | with_reducible apply hfg
                | with_reducible apply hfh
                | with_reducible apply hfi
                | (with_reducible apply Within.snd <;> [with_reducible assumption; skip])
                | (with_reducible apply Within.fst <;> [with_reducible assumption; skip])
                | (with_reducible apply Within.fst2 <;> [with_reducible assumption; skip])
                | split)
         | (have hfi : ∀ t a b, Within M s0 t → Within M s0 (x t a b).2 := by
              intro t a b ht; unfold x
              repeat' first
                | with_reducible assumption
                | dsimp -zeta only
                | with_reducible apply Within.ite1
                | with_reducible apply Within.ite2
                | with_reducible apply Within.ite
                | with_reducible apply updCore_within (Sub.up hM rfl)
                | with_reducible apply bumpCore_within (Sub.up hM rfl)
                | with_reducible apply keepRow_within (Sub.up hM rfl)
                | with_reducible apply writeTile_within (Sub.up hM rfl)
                | with_reducible refine each_within (fun _ _ _ => ?_) ?_
                | with_reducible apply hfa
                | with_reducible apply hfb
                | with_reducible apply hfc
                | with_reducible apply hfd
                | with_reducible apply hfe
                | with_reducible apply hff
                | with_reducible apply hfg
                | with_reducible apply hfh
                | with_reducible apply hfi
                | (with_reducible apply Within.snd <;> [with_reducible assumption; skip])
                | (with_reducible apply Within.fst <;> [with_reducible assumption; skip])
                | (with_reducible apply Within.fst2 <;> [with_reducible assumption; skip])
                | split)
         | skip
       clear_value x)
    | lift_lets -underBinder
    | dsimp -zeta only
    | with_reducible apply Within.ite1
    | with_reducible apply Within.ite2
    | with_reducible apply Within.ite
    | with_reducible apply updCore_within (Sub.up hM rfl)
    | with_reducible apply bumpCore_within (Sub.up hM rfl)
    | with_reducible apply keepRow_within (Sub.up hM rfl)
    | with_reducible apply writeTile_within (Sub.up hM rfl)
    | with_reducible refine each_within (fun _ _ _ => ?_) ?_
    | with_reducible apply hfa
    | with_reducible apply hfb
    | with_reducible apply hfc
    | with_reducible apply hfd
    | with_reducible apply hfe
    | with_reducible apply hff
    | with_reducible apply hfg
    | with_reducible apply hfh
    | with_reducible apply hfi
    | (with_reducible apply Within.snd <;> [with_reducible assumption; skip])
    | (with_reducible apply Within.fst <;> [with_reducible assumption; skip])
    | (with_reducible apply Within.fst2 <;> [with_reducible assumption; skip])
    | split

theorem zeroFill_within {M : Nat} {s0 : State} (hM : Sub 0x710000fdb M) (s : State) (c : Nat) (hW : Within M s0 s) : Within M s0 (zeroFill s c) := by
  unfold zeroFill
  repeat' first
    | with_reducible assumption
    | (intro x
       first
         | (have hx : Within M s0 x := by
              unfold x
              repeat' first
                | with_reducible assumption
                | dsimp -zeta only
                | with_reducible apply Within.ite1
                | with_reducible apply Within.ite2
                | with_reducible apply Within.ite
                | with_reducible apply updCore_within (Sub.up hM rfl)
                | with_reducible apply bumpCore_within (Sub.up hM rfl)
                | with_reducible apply putBytes_within (Sub.up hM rfl)
                | (with_reducible apply Within.snd <;> [with_reducible assumption; skip])
                | (with_reducible apply Within.fst <;> [with_reducible assumption; skip])
                | (with_reducible apply Within.fst2 <;> [with_reducible assumption; skip])
                | split)
         | (have hx : Within M s0 x.1 := by
              unfold x
              repeat' first
                | with_reducible assumption
                | dsimp -zeta only
                | with_reducible apply Within.ite1
                | with_reducible apply Within.ite2
                | with_reducible apply Within.ite
                | with_reducible apply updCore_within (Sub.up hM rfl)
                | with_reducible apply bumpCore_within (Sub.up hM rfl)
                | with_reducible apply putBytes_within (Sub.up hM rfl)
                | (with_reducible apply Within.snd <;> [with_reducible assumption; skip])
                | (with_reducible apply Within.fst <;> [with_reducible assumption; skip])
                | (with_reducible apply Within.fst2 <;> [with_reducible assumption; skip])
                | split)
         | (have hx : Within M s0 x.2 := by
              unfold x
              repeat' first
                | with_reducible assumption
                | dsimp -zeta only
                | with_reducible apply Within.ite1
                | with_reducible apply Within.ite2
                | with_reducible apply Within.ite
                | with_reducible apply updCore_within (Sub.up hM rfl)
                | with_reducible apply bumpCore_within (Sub.up hM rfl)
                | with_reducible apply putBytes_within (Sub.up hM rfl)
                | (with_reducible apply Within.snd <;> [with_reducible assumption; skip])
                | (with_reducible apply Within.fst <;> [with_reducible assumption; skip])
                | (with_reducible apply Within.fst2 <;> [with_reducible assumption; skip])
                | split)
         | skip
       clear_value x)
    | lift_lets -underBinder
    | dsimp -zeta only
    | with_reducible apply Within.ite1
    | with_reducible apply Within.ite2
    | with_reducible apply Within.ite
    | with_reducible apply updCore_within (Sub.up hM rfl)
    | with_reducible apply bumpCore_within (Sub.up hM rfl)
    | with_reducible apply putBytes_within (Sub.up hM rfl)
    | (with_reducible apply Within.snd <;> [with_reducible assumption; skip])
    | (with_reducible apply Within.fst <;> [with_reducible assumption; skip])
    | (with_reducible apply Within.fst2 <;> [with_reducible assumption; skip])
    | split

theorem outputRow_within {M : Nat} {s0 : State} (hM : Sub 0x710000fdb M) (s : State) (c : Nat) (hW : Within M s0 s) : Within M s0 (outputRow s c) := by
  unfold outputRow
  repeat' first
    | with_reducible assumption
    | (intro x
       first
         | (have hx : Within M s0 x := by
              unfold x
              repeat' first
                | with_reducible assumption
                | dsimp -zeta only
                | with_reducible apply Within.ite1
                | with_reducible apply Within.ite2
                | with_reducible apply Within.ite
                | with_reducible apply midRow_within (Sub.up hM rfl)
                | with_reducible apply outTile_within (Sub.up hM rfl)
                | with_reducible apply spanEnd_within (Sub.up hM rfl)
                | with_reducible apply zeroTile_within (Sub.up hM rfl)
                | (with_reducible apply Within.snd <;> [with_reducible assumption; skip])
                | (with_reducible apply Within.fst <;> [with_reducible assumption; skip])
                | (with_reducible apply Within.fst2 <;> [with_reducible assumption; skip])
                | split)
         | (have hx : Within M s0 x.1 := by
              unfold x
              repeat' first
                | with_reducible assumption
                | dsimp -zeta only
                | with_reducible apply Within.ite1
                | with_reducible apply Within.ite2
                | with_reducible apply Within.ite
                | with_reducible apply midRow_within (Sub.up hM rfl)
                | with_reducible apply outTile_within (Sub.up hM rfl)
                | with_reducible apply spanEnd_within (Sub.up hM rfl)
                | with_reducible apply zeroTile_within (Sub.up hM rfl)
                | (with_reducible apply Within.snd <;> [with_reducible assumption; skip])
                | (with_reducible apply Within.fst <;> [with_reducible assumption; skip])
                | (with_reducible apply Within.fst2 <;> [with_reducible assumption; skip])
                | split)
         | (have hx : Within M s0 x.2 := by
              unfold x
              repeat' first
                | with_reducible assumption
                | dsimp -zeta only
                | with_reducible apply Within.ite1
                | with_reducible apply Within.ite2
                | with_reducible apply Within.ite
                | with_reducible apply midRow_within (Sub.up hM rfl)
                | with_reducible apply outTile_within (Sub.up hM rfl)
                | with_reducible apply spanEnd_within (Sub.up hM rfl)
                | with_reducible apply zeroTile_within (Sub.up hM rfl)
                | (with_reducible apply Within.snd <;> [with_reducible assumption; skip])
                | (with_reducible apply Within.fst <;> [with_reducible assumption; skip])
                | (with_reducible apply Within.fst2 <;> [with_reducible assumption; skip])
                | split)
         | skip
       clear_value x)
    | lift_lets -underBinder
    | dsimp -zeta only
    | with_reducible apply Within.ite1
    | with_reducible apply Within.ite2
    | with_reducible apply Within.ite
    | with_reducible apply midRow_within (Sub.up hM rfl)
    | with_reducible apply outTile_within (Sub.up hM rfl)
    | with_reducible apply spanEnd_within (Sub.up hM rfl)
    | with_reducible apply zeroTile_within (Sub.up hM rfl)
    | (with_reducible apply Within.snd <;> [with_reducible assumption; skip])
    | (with_reducible apply Within.fst <;> [with_reducible assumption; skip])
    | (with_reducible apply Within.fst2 <;> [with_reducible assumption; skip])
    | split

end Sys2Proof.Machine
end

