-- ==== Sys2Proof/Laws/WithinLanes.lean ====
section
/-! SUPPORT. What the operations and commands of Machine/Lanes can do to the state (Laws/Within). -/

namespace Sys2Proof.Machine

theorem updChunk_within {M : Nat} {s0 : State} (hM : Sub 0x10 M) (s : State) (c idx : Nat) (f : Chunk → Chunk) (hW : Within M s0 s) : Within M s0 (updChunk s c idx f) := by
  unfold updChunk
  repeat' first
    | with_reducible assumption
    | with_reducible apply Within.ite
    | with_reducible apply updCore_within (Sub.up hM rfl)

theorem boundarySearch_within {M : Nat} {s0 : State} (hM : Sub 0x3100008d3 M) (s : State) (c idx : Nat) (hW : Within M s0 s) : Within M s0 (boundarySearch s c idx) := by
  unfold boundarySearch
  repeat' first
    | with_reducible assumption
    | (intro x
       first
         | (have hx : Within M s0 x := by
              unfold x
              repeat' first
                | with_reducible assumption
                | dsimp -zeta only
                | with_reducible apply Within.ite1
                | with_reducible apply Within.ite2
                | with_reducible apply Within.ite
                | with_reducible apply setReg_within (Sub.up hM rfl)
                | with_reducible apply faultCore_within (Sub.up hM rfl)
                | with_reducible apply updChunk_within (Sub.up hM rfl)
                | (with_reducible apply Within.snd <;> [with_reducible assumption; skip])
                | (with_reducible apply Within.fst <;> [with_reducible assumption; skip])
                | (with_reducible apply Within.fst2 <;> [with_reducible assumption; skip])
                | split)
         | (have hx : Within M s0 x.1 := by
              unfold x
              repeat' first
                | with_reducible assumption
                | dsimp -zeta only
                | with_reducible apply Within.ite1
                | with_reducible apply Within.ite2
                | with_reducible apply Within.ite
                | with_reducible apply setReg_within (Sub.up hM rfl)
                | with_reducible apply faultCore_within (Sub.up hM rfl)
                | with_reducible apply updChunk_within (Sub.up hM rfl)
                | (with_reducible apply Within.snd <;> [with_reducible assumption; skip])
                | (with_reducible apply Within.fst <;> [with_reducible assumption; skip])
                | (with_reducible apply Within.fst2 <;> [with_reducible assumption; skip])
                | split)
         | (have hx : Within M s0 x.2 := by
              unfold x
              repeat' first
                | with_reducible assumption
                | dsimp -zeta only
                | with_reducible apply Within.ite1
                | with_reducible apply Within.ite2
                | with_reducible apply Within.ite
                | with_reducible apply setReg_within (Sub.up hM rfl)
                | with_reducible apply faultCore_within (Sub.up hM rfl)
                | with_reducible apply updChunk_within (Sub.up hM rfl)
                | (with_reducible apply Within.snd <;> [with_reducible assumption; skip])
                | (with_reducible apply Within.fst <;> [with_reducible assumption; skip])
                | (with_reducible apply Within.fst2 <;> [with_reducible assumption; skip])
                | split)
         | skip
       clear_value x)
    | lift_lets -underBinder
    | dsimp -zeta only
    | with_reducible apply Within.ite1
    | with_reducible apply Within.ite2
    | with_reducible apply Within.ite
    | with_reducible apply setReg_within (Sub.up hM rfl)
    | with_reducible apply faultCore_within (Sub.up hM rfl)
    | with_reducible apply updChunk_within (Sub.up hM rfl)
    | (with_reducible apply Within.snd <;> [with_reducible assumption; skip])
    | (with_reducible apply Within.fst <;> [with_reducible assumption; skip])
    | (with_reducible apply Within.fst2 <;> [with_reducible assumption; skip])
    | split

theorem updLane_within {M : Nat} {s0 : State} (hM : Sub 0x10 M) (s : State) (c l : Nat) (f : Lane → Lane) (hW : Within M s0 s) : Within M s0 (updLane s c l f) := by
  unfold updLane
  repeat' first
    | with_reducible assumption
    | with_reducible apply updCore_within (Sub.up hM rfl)

theorem popLane_within {M : Nat} {s0 : State} (hM : Sub 0x3100008d3 M) (s : State) (c l : Nat) (hW : Within M s0 s) : Within M s0 (popLane s c l) := by
  unfold popLane
  repeat' first
    | with_reducible assumption
    | (intro x
       first
         | (have hx : Within M s0 x := by
              unfold x
              repeat' first
                | with_reducible assumption
                | dsimp -zeta only
                | with_reducible apply Within.ite1
                | with_reducible apply Within.ite2
                | with_reducible apply Within.ite
                | with_reducible apply useRows_within (Sub.up hM rfl)
                | with_reducible apply sendClaim_within (Sub.up hM rfl)
                | with_reducible apply formatFault_within (Sub.up hM rfl)
                | with_reducible apply updChunk_within (Sub.up hM rfl)
                | with_reducible apply updLane_within (Sub.up hM rfl)
                | (with_reducible apply Within.snd <;> [with_reducible assumption; skip])
                | (with_reducible apply Within.fst <;> [with_reducible assumption; skip])
                | (with_reducible apply Within.fst2 <;> [with_reducible assumption; skip])
                | split)
         | (have hx : Within M s0 x.1 := by
              unfold x
              repeat' first
                | with_reducible assumption
                | dsimp -zeta only
                | with_reducible apply Within.ite1
                | with_reducible apply Within.ite2
                | with_reducible apply Within.ite
                | with_reducible apply useRows_within (Sub.up hM rfl)
                | with_reducible apply sendClaim_within (Sub.up hM rfl)
                | with_reducible apply formatFault_within (Sub.up hM rfl)
                | with_reducible apply updChunk_within (Sub.up hM rfl)
                | with_reducible apply updLane_within (Sub.up hM rfl)
                | (with_reducible apply Within.snd <;> [with_reducible assumption; skip])
                | (with_reducible apply Within.fst <;> [with_reducible assumption; skip])
                | (with_reducible apply Within.fst2 <;> [with_reducible assumption; skip])
                | split)
         | (have hx : Within M s0 x.2 := by
              unfold x
              repeat' first
                | with_reducible assumption
                | dsimp -zeta only
                | with_reducible apply Within.ite1
                | with_reducible apply Within.ite2
                | with_reducible apply Within.ite
                | with_reducible apply useRows_within (Sub.up hM rfl)
                | with_reducible apply sendClaim_within (Sub.up hM rfl)
                | with_reducible apply formatFault_within (Sub.up hM rfl)
                | with_reducible apply updChunk_within (Sub.up hM rfl)
                | with_reducible apply updLane_within (Sub.up hM rfl)
                | (with_reducible apply Within.snd <;> [with_reducible assumption; skip])
                | (with_reducible apply Within.fst <;> [with_reducible assumption; skip])
                | (with_reducible apply Within.fst2 <;> [with_reducible assumption; skip])
                | split)
         | skip
       clear_value x)
    | lift_lets -underBinder
    | dsimp -zeta only
    | with_reducible apply Within.ite1
    | with_reducible apply Within.ite2
    | with_reducible apply Within.ite
    | with_reducible apply useRows_within (Sub.up hM rfl)
    | with_reducible apply sendClaim_within (Sub.up hM rfl)
    | with_reducible apply formatFault_within (Sub.up hM rfl)
    | with_reducible apply updChunk_within (Sub.up hM rfl)
    | with_reducible apply updLane_within (Sub.up hM rfl)
    | (with_reducible apply Within.snd <;> [with_reducible assumption; skip])
    | (with_reducible apply Within.fst <;> [with_reducible assumption; skip])
    | (with_reducible apply Within.fst2 <;> [with_reducible assumption; skip])
    | split

theorem thief_within {M : Nat} {s0 : State} (hM : Sub 0x11 M) (t : CoreTask) (c l : Nat) (st : State × List Nat) (hW : Within M s0 st.1) :
    Within M s0 (thief t c l st).1 := by
  unfold thief
  dsimp only
  repeat' first
    | with_reducible assumption
    | with_reducible apply bumpCore_within (Sub.up hM rfl)
    | with_reducible apply updChunk_within (Sub.up hM rfl)
    | with_reducible apply updLane_within (Sub.up hM rfl)
    | with_reducible apply Within.ite1
    | dsimp -zeta only
    | split

theorem thieves_within {M : Nat} {s0 : State} (hM : Sub 0x11 M) (s : State) (c : Nat) (t : CoreTask) (hW : Within M s0 s) :
    Within M s0 (thieves s c t).1 := by
  unfold thieves
  refine .ite1 hW (.fold1 (fun u d hu => .fold1 (fun v l hv => thief_within hM t c l v hv) hu) hW)

theorem segmenter_within {M : Nat} {s0 : State} (hM : Sub 0x10 M) (s : State) (c : Nat) (t : CoreTask) (changed : List Nat) (hW : Within M s0 s) : Within M s0 (segmenter s c t changed) := by
  unfold segmenter
  repeat' first
    | with_reducible assumption
    | (intro x
       first
         | (have hx : Within M s0 x := by
              unfold x
              repeat' first
                | with_reducible assumption
                | with_reducible apply Within.ite
                | with_reducible apply updCore_within (Sub.up hM rfl)
                | with_reducible apply updChunk_within (Sub.up hM rfl)
                | with_reducible apply updLane_within (Sub.up hM rfl)
                | (with_reducible apply Within.snd <;> [with_reducible assumption; skip])
                | (with_reducible apply Within.fst <;> [with_reducible assumption; skip])
                | (with_reducible apply Within.fst2 <;> [with_reducible assumption; skip])
                | split)
         | skip
       clear_value x)
    | lift_lets -underBinder
    | with_reducible apply Within.ite
    | with_reducible apply updCore_within (Sub.up hM rfl)
    | with_reducible apply updChunk_within (Sub.up hM rfl)
    | with_reducible apply updLane_within (Sub.up hM rfl)
    | (with_reducible apply Within.snd <;> [with_reducible assumption; skip])
    | (with_reducible apply Within.fst <;> [with_reducible assumption; skip])
    | (with_reducible apply Within.fst2 <;> [with_reducible assumption; skip])
    | split

theorem endSegment_within {M : Nat} {s0 : State} (hM : Sub 0x11 M) (s : State) (c l : Nat) (hW : Within M s0 s) : Within M s0 (endSegment s c l) := by
  unfold endSegment
  repeat' first
    | with_reducible assumption
    | (intro x
       first
         | (have hx : Within M s0 x := by
              unfold x
              repeat' first
                | with_reducible assumption
                | dsimp -zeta only
                | with_reducible apply Within.ite1
                | with_reducible apply Within.ite2
                | with_reducible apply Within.ite
                | with_reducible apply bumpCore_within (Sub.up hM rfl)
                | with_reducible apply updChunk_within (Sub.up hM rfl)
                | with_reducible apply updLane_within (Sub.up hM rfl)
                | (with_reducible apply Within.snd <;> [with_reducible assumption; skip])
                | (with_reducible apply Within.fst <;> [with_reducible assumption; skip])
                | (with_reducible apply Within.fst2 <;> [with_reducible assumption; skip])
                | split)
         | (have hx : Within M s0 x.1 := by
              unfold x
              repeat' first
                | with_reducible assumption
                | dsimp -zeta only
                | with_reducible apply Within.ite1
                | with_reducible apply Within.ite2
                | with_reducible apply Within.ite
                | with_reducible apply bumpCore_within (Sub.up hM rfl)
                | with_reducible apply updChunk_within (Sub.up hM rfl)
                | with_reducible apply updLane_within (Sub.up hM rfl)
                | (with_reducible apply Within.snd <;> [with_reducible assumption; skip])
                | (with_reducible apply Within.fst <;> [with_reducible assumption; skip])
                | (with_reducible apply Within.fst2 <;> [with_reducible assumption; skip])
                | split)
         | (have hx : Within M s0 x.2 := by
              unfold x
              repeat' first
                | with_reducible assumption
                | dsimp -zeta only
                | with_reducible apply Within.ite1
                | with_reducible apply Within.ite2
                | with_reducible apply Within.ite
                | with_reducible apply bumpCore_within (Sub.up hM rfl)
                | with_reducible apply updChunk_within (Sub.up hM rfl)
                | with_reducible apply updLane_within (Sub.up hM rfl)
                | (with_reducible apply Within.snd <;> [with_reducible assumption; skip])
                | (with_reducible apply Within.fst <;> [with_reducible assumption; skip])
                | (with_reducible apply Within.fst2 <;> [with_reducible assumption; skip])
                | split)
         | skip
       clear_value x)
    | lift_lets -underBinder
    | dsimp -zeta only
    | with_reducible apply Within.ite1
    | with_reducible apply Within.ite2
    | with_reducible apply Within.ite
    | with_reducible apply bumpCore_within (Sub.up hM rfl)
    | with_reducible apply updChunk_within (Sub.up hM rfl)
    | with_reducible apply updLane_within (Sub.up hM rfl)
    | (with_reducible apply Within.snd <;> [with_reducible assumption; skip])
    | (with_reducible apply Within.fst <;> [with_reducible assumption; skip])
    | (with_reducible apply Within.fst2 <;> [with_reducible assumption; skip])
    | split

theorem spillRow_within {M : Nat} {s0 : State} (hM : Sub 0x710000fdb M) (s : State) (c : Nat) (t : CoreTask) (l : List AccRec) (hW : Within M s0 s) : Within M s0 (spillRow s c t l) := by
  unfold spillRow
  repeat' first
    | with_reducible assumption
    | (intro x
       first
         | (have hx : Within M s0 x := by
              unfold x
              repeat' first
                | with_reducible assumption
                | with_reducible apply Within.ite
                | with_reducible apply updCore_within (Sub.up hM rfl)
                | with_reducible apply appendRow_within (Sub.up hM rfl)
                | with_reducible apply ovfStore_within (Sub.up hM rfl)
                | with_reducible apply ovfFull_within (Sub.up hM rfl)
                | with_reducible refine ovfAlloc_within (Sub.up hM rfl) ‹ovfAlloc _ _ _ _ = some _› ?_
                | (with_reducible apply Within.snd <;> [with_reducible assumption; skip])
                | (with_reducible apply Within.fst <;> [with_reducible assumption; skip])
                | (with_reducible apply Within.fst2 <;> [with_reducible assumption; skip])
                | split)
         | skip
       clear_value x)
    | lift_lets -underBinder
    | with_reducible apply Within.ite
    | with_reducible apply updCore_within (Sub.up hM rfl)
    | with_reducible apply appendRow_within (Sub.up hM rfl)
    | with_reducible apply ovfStore_within (Sub.up hM rfl)
    | with_reducible apply ovfFull_within (Sub.up hM rfl)
    | with_reducible refine ovfAlloc_within (Sub.up hM rfl) ‹ovfAlloc _ _ _ _ = some _› ?_
    | (with_reducible apply Within.snd <;> [with_reducible assumption; skip])
    | (with_reducible apply Within.fst <;> [with_reducible assumption; skip])
    | (with_reducible apply Within.fst2 <;> [with_reducible assumption; skip])
    | split

theorem spillRec_within {M : Nat} {s0 : State} (hM : Sub 0x710000fdb M) (s : State) (c : Nat) (t : CoreTask) (r : AccRec) (hW : Within M s0 s) : Within M s0 (spillRec s c t r) := by
  unfold spillRec
  repeat' first
    | with_reducible assumption
    | (intro x
       first
         | (have hx : Within M s0 x := by
              unfold x
              repeat' first
                | with_reducible assumption
                | with_reducible apply Within.ite
                | with_reducible apply updCore_within (Sub.up hM rfl)
                | with_reducible apply bumpCore_within (Sub.up hM rfl)
                | with_reducible apply spillRow_within (Sub.up hM rfl))
         | skip
       clear_value x)
    | lift_lets -underBinder
    | with_reducible apply Within.ite
    | with_reducible apply updCore_within (Sub.up hM rfl)
    | with_reducible apply bumpCore_within (Sub.up hM rfl)
    | with_reducible apply spillRow_within (Sub.up hM rfl)

theorem accUpdate_within {M : Nat} {s0 : State} (hM : Sub 0x710000fdb M) (s : State) (c : Nat) (t : CoreTask) (row col : Nat) (v : F32) (hW : Within M s0 s) : Within M s0 (accUpdate s c t row col v) := by
  unfold accUpdate
  repeat' first
    | with_reducible assumption
    | (intro x
       first
         | (have hx : Within M s0 x := by
              unfold x
              repeat' first
                | with_reducible assumption
                | with_reducible apply hfa
                | with_reducible apply hfb
                | with_reducible apply hfc
                | with_reducible apply hfd
                | with_reducible apply hfe
                | with_reducible apply updCore_within (Sub.up hM rfl)
                | with_reducible apply bumpCore_within (Sub.up hM rfl)
                | with_reducible apply spillRec_within (Sub.up hM rfl)
                | (with_reducible apply Within.snd <;> [with_reducible assumption; skip])
                | (with_reducible apply Within.fst <;> [with_reducible assumption; skip])
                | (with_reducible apply Within.fst2 <;> [with_reducible assumption; skip])
                | split)
         | (have hfa : ∀ t, Within M s0 t → Within M s0 (x t) := by
              intro t ht; unfold x
              repeat' first
                | with_reducible assumption
                | with_reducible apply hfa
                | with_reducible apply hfb
                | with_reducible apply hfc
                | with_reducible apply hfd
                | with_reducible apply hfe
                | with_reducible apply updCore_within (Sub.up hM rfl)
                | with_reducible apply bumpCore_within (Sub.up hM rfl)
                | with_reducible apply spillRec_within (Sub.up hM rfl)
                | (with_reducible apply Within.snd <;> [with_reducible assumption; skip])
                | (with_reducible apply Within.fst <;> [with_reducible assumption; skip])
                | (with_reducible apply Within.fst2 <;> [with_reducible assumption; skip])
                | split)
         | (have hfb : ∀ t a, Within M s0 t → Within M s0 (x t a) := by
              intro t a ht; unfold x
              repeat' first
                | with_reducible assumption
                | with_reducible apply hfa
                | with_reducible apply hfb
                | with_reducible apply hfc
                | with_reducible apply hfd
                | with_reducible apply hfe
                | with_reducible apply updCore_within (Sub.up hM rfl)
                | with_reducible apply bumpCore_within (Sub.up hM rfl)
                | with_reducible apply spillRec_within (Sub.up hM rfl)
                | (with_reducible apply Within.snd <;> [with_reducible assumption; skip])
                | (with_reducible apply Within.fst <;> [with_reducible assumption; skip])
                | (with_reducible apply Within.fst2 <;> [with_reducible assumption; skip])
                | split)
         | (have hfc : ∀ t a b, Within M s0 t → Within M s0 (x t a b) := by
              intro t a b ht; unfold x
              repeat' first
                | with_reducible assumption
                | with_reducible apply hfa
                | with_reducible apply hfb
                | with_reducible apply hfc
                | with_reducible apply hfd
                | with_reducible apply hfe
                | with_reducible apply updCore_within (Sub.up hM rfl)
                | with_reducible apply bumpCore_within (Sub.up hM rfl)
                | with_reducible apply spillRec_within (Sub.up hM rfl)
                | (with_reducible apply Within.snd <;> [with_reducible assumption; skip])
                | (with_reducible apply Within.fst <;> [with_reducible assumption; skip])
                | (with_reducible apply Within.fst2 <;> [with_reducible assumption; skip])
                | split)
         | (have hfd : ∀ t, Within M s0 t → Within M s0 (x t).1 := by
              intro t ht; unfold x
              repeat' first
                | with_reducible assumption
                | with_reducible apply hfa
                | with_reducible apply hfb
                | with_reducible apply hfc
                | with_reducible apply hfd
                | with_reducible apply hfe
                | with_reducible apply updCore_within (Sub.up hM rfl)
                | with_reducible apply bumpCore_within (Sub.up hM rfl)
                | with_reducible apply spillRec_within (Sub.up hM rfl)
                | (with_reducible apply Within.snd <;> [with_reducible assumption; skip])
                | (with_reducible apply Within.fst <;> [with_reducible assumption; skip])
                | (with_reducible apply Within.fst2 <;> [with_reducible assumption; skip])
                | split)
         | (have hfe : ∀ t, Within M s0 t → Within M s0 (x t).2 := by
              intro t ht; unfold x
              repeat' first
                | with_reducible assumption
                | with_reducible apply hfa
                | with_reducible apply hfb
                | with_reducible apply hfc
                | with_reducible apply hfd
                | with_reducible apply hfe
                | with_reducible apply updCore_within (Sub.up hM rfl)
                | with_reducible apply bumpCore_within (Sub.up hM rfl)
                | with_reducible apply spillRec_within (Sub.up hM rfl)
                | (with_reducible apply Within.snd <;> [with_reducible assumption; skip])
                | (with_reducible apply Within.fst <;> [with_reducible assumption; skip])
                | (with_reducible apply Within.fst2 <;> [with_reducible assumption; skip])
                | split)
         | skip
       clear_value x)
    | lift_lets -underBinder
    | with_reducible apply hfa
    | with_reducible apply hfb
    | with_reducible apply hfc
    | with_reducible apply hfd
    | with_reducible apply hfe
    | with_reducible apply updCore_within (Sub.up hM rfl)
    | with_reducible apply bumpCore_within (Sub.up hM rfl)
    | with_reducible apply spillRec_within (Sub.up hM rfl)
    | (with_reducible apply Within.snd <;> [with_reducible assumption; skip])
    | (with_reducible apply Within.fst <;> [with_reducible assumption; skip])
    | (with_reducible apply Within.fst2 <;> [with_reducible assumption; skip])
    | split

theorem engine_within {M : Nat} {s0 : State} (hM : Sub 0x11 M) (s : State) (c : Nat) (t : CoreTask) (e : Nat) (hW : Within M s0 s) : Within M s0 (engine s c t e).1 := by
  unfold engine
  repeat' first
    | with_reducible assumption
    | (intro x
       first
         | (have hx : Within M s0 x := by
              unfold x
              repeat' first
                | with_reducible assumption
                | dsimp -zeta only
                | with_reducible apply Within.ite1
                | with_reducible apply Within.ite
                | with_reducible apply bumpCore_within (Sub.up hM rfl)
                | with_reducible apply updLane_within (Sub.up hM rfl)
                | with_reducible apply endSegment_within (Sub.up hM rfl)
                | with_reducible refine each_within (fun _ _ _ => ?_) ?_
                | with_reducible refine Within.fold (fun _ _ _ => ?_) ?_
                | with_reducible refine Within.fold1 (fun _ _ _ => ?_) ?_
                | with_reducible refine Within.fold2 (fun _ _ _ => ?_) ?_
                | (with_reducible apply Within.snd <;> [with_reducible assumption; skip])
                | (with_reducible apply Within.fst <;> [with_reducible assumption; skip])
                | (with_reducible apply Within.fst2 <;> [with_reducible assumption; skip])
                | split)
         | (have hx : Within M s0 x.1 := by
              unfold x
              repeat' first
                | with_reducible assumption
                | dsimp -zeta only
                | with_reducible apply Within.ite1
                | with_reducible apply Within.ite
                | with_reducible apply bumpCore_within (Sub.up hM rfl)
                | with_reducible apply updLane_within (Sub.up hM rfl)
                | with_reducible apply endSegment_within (Sub.up hM rfl)
                | with_reducible refine each_within (fun _ _ _ => ?_) ?_
                | with_reducible refine Within.fold (fun _ _ _ => ?_) ?_
                | with_reducible refine Within.fold1 (fun _ _ _ => ?_) ?_
                | with_reducible refine Within.fold2 (fun _ _ _ => ?_) ?_
                | (with_reducible apply Within.snd <;> [with_reducible assumption; skip])
                | (with_reducible apply Within.fst <;> [with_reducible assumption; skip])
                | (with_reducible apply Within.fst2 <;> [with_reducible assumption; skip])
                | split)
         | (have hx : Within M s0 x.2 := by
              unfold x
              repeat' first
                | with_reducible assumption
                | dsimp -zeta only
                | with_reducible apply Within.ite1
                | with_reducible apply Within.ite
                | with_reducible apply bumpCore_within (Sub.up hM rfl)
                | with_reducible apply updLane_within (Sub.up hM rfl)
                | with_reducible apply endSegment_within (Sub.up hM rfl)
                | with_reducible refine each_within (fun _ _ _ => ?_) ?_
                | with_reducible refine Within.fold (fun _ _ _ => ?_) ?_
                | with_reducible refine Within.fold1 (fun _ _ _ => ?_) ?_
                | with_reducible refine Within.fold2 (fun _ _ _ => ?_) ?_
                | (with_reducible apply Within.snd <;> [with_reducible assumption; skip])
                | (with_reducible apply Within.fst <;> [with_reducible assumption; skip])
                | (with_reducible apply Within.fst2 <;> [with_reducible assumption; skip])
                | split)
         | skip
       clear_value x)
    | lift_lets -underBinder
    | dsimp -zeta only
    | with_reducible apply Within.ite1
    | with_reducible apply Within.ite
    | with_reducible apply bumpCore_within (Sub.up hM rfl)
    | with_reducible apply updLane_within (Sub.up hM rfl)
    | with_reducible apply endSegment_within (Sub.up hM rfl)
    | with_reducible refine each_within (fun _ _ _ => ?_) ?_
    | with_reducible refine Within.fold (fun _ _ _ => ?_) ?_
    | with_reducible refine Within.fold1 (fun _ _ _ => ?_) ?_
    | with_reducible refine Within.fold2 (fun _ _ _ => ?_) ?_
    | (with_reducible apply Within.snd <;> [with_reducible assumption; skip])
    | (with_reducible apply Within.fst <;> [with_reducible assumption; skip])
    | (with_reducible apply Within.fst2 <;> [with_reducible assumption; skip])
    | split

theorem pairVector_within {M : Nat} {s0 : State} (hM : Sub 0x710000fdb M) (s : State) (c : Nat) (t : CoreTask) (l : List (Nat × Nat × Nat × Nat)) (hW : Within M s0 s) : Within M s0 (pairVector s c t l) := by
  unfold pairVector
  repeat' first
    | with_reducible assumption
    | (intro x
       first
         | (have hx : Within M s0 x := by
              unfold x
              repeat' first
                | with_reducible assumption
                | dsimp -zeta only
                | with_reducible apply Within.ite1
                | with_reducible apply Within.ite2
                | with_reducible apply Within.ite
                | with_reducible apply bumpCore_within (Sub.up hM rfl)
                | with_reducible apply accUpdate_within (Sub.up hM rfl)
                | with_reducible refine each_within (fun _ _ _ => ?_) ?_
                | with_reducible refine Within.fold (fun _ _ _ => ?_) ?_
                | with_reducible refine Within.fold1 (fun _ _ _ => ?_) ?_
                | with_reducible refine Within.fold2 (fun _ _ _ => ?_) ?_
                | (with_reducible apply Within.snd <;> [with_reducible assumption; skip])
                | (with_reducible apply Within.fst <;> [with_reducible assumption; skip])
                | (with_reducible apply Within.fst2 <;> [with_reducible assumption; skip])
                | split)
         | (have hx : Within M s0 x.1 := by
              unfold x
              repeat' first
                | with_reducible assumption
                | dsimp -zeta only
                | with_reducible apply Within.ite1
                | with_reducible apply Within.ite2
                | with_reducible apply Within.ite
                | with_reducible apply bumpCore_within (Sub.up hM rfl)
                | with_reducible apply accUpdate_within (Sub.up hM rfl)
                | with_reducible refine each_within (fun _ _ _ => ?_) ?_
                | with_reducible refine Within.fold (fun _ _ _ => ?_) ?_
                | with_reducible refine Within.fold1 (fun _ _ _ => ?_) ?_
                | with_reducible refine Within.fold2 (fun _ _ _ => ?_) ?_
                | (with_reducible apply Within.snd <;> [with_reducible assumption; skip])
                | (with_reducible apply Within.fst <;> [with_reducible assumption; skip])
                | (with_reducible apply Within.fst2 <;> [with_reducible assumption; skip])
                | split)
         | (have hx : Within M s0 x.2 := by
              unfold x
              repeat' first
                | with_reducible assumption
                | dsimp -zeta only
                | with_reducible apply Within.ite1
                | with_reducible apply Within.ite2
                | with_reducible apply Within.ite
                | with_reducible apply bumpCore_within (Sub.up hM rfl)
                | with_reducible apply accUpdate_within (Sub.up hM rfl)
                | with_reducible refine each_within (fun _ _ _ => ?_) ?_
                | with_reducible refine Within.fold (fun _ _ _ => ?_) ?_
                | with_reducible refine Within.fold1 (fun _ _ _ => ?_) ?_
                | with_reducible refine Within.fold2 (fun _ _ _ => ?_) ?_
                | (with_reducible apply Within.snd <;> [with_reducible assumption; skip])
                | (with_reducible apply Within.fst <;> [with_reducible assumption; skip])
                | (with_reducible apply Within.fst2 <;> [with_reducible assumption; skip])
                | split)
         | skip
       clear_value x)
    | lift_lets -underBinder
    | dsimp -zeta only
    | with_reducible apply Within.ite1
    | with_reducible apply Within.ite2
    | with_reducible apply Within.ite
    | with_reducible apply bumpCore_within (Sub.up hM rfl)
    | with_reducible apply accUpdate_within (Sub.up hM rfl)
    | with_reducible refine each_within (fun _ _ _ => ?_) ?_
    | with_reducible refine Within.fold (fun _ _ _ => ?_) ?_
    | with_reducible refine Within.fold1 (fun _ _ _ => ?_) ?_
    | with_reducible refine Within.fold2 (fun _ _ _ => ?_) ?_
    | (with_reducible apply Within.snd <;> [with_reducible assumption; skip])
    | (with_reducible apply Within.fst <;> [with_reducible assumption; skip])
    | (with_reducible apply Within.fst2 <;> [with_reducible assumption; skip])
    | split

theorem takeQuarter_within {M : Nat} {s0 : State} (hM : Sub 0x13 M) (s : State) (c : Nat) (t : CoreTask) (q : Nat × Nat × Nat) (sl : List (Nat × Nat) × Nat) (hW : Within M s0 s) : Within M s0 (takeQuarter s c t q sl) := by
  unfold takeQuarter
  repeat' first
    | with_reducible assumption
    | (intro x
       first
         | (have hx : Within M s0 x := by
              unfold x
              repeat' first
                | with_reducible assumption
                | dsimp -zeta only
                | with_reducible apply Within.ite1
                | with_reducible apply Within.ite2
                | with_reducible apply Within.ite
                | with_reducible apply addSum_within (Sub.up hM rfl)
                | with_reducible refine each_within (fun _ _ _ => ?_) ?_
                | (with_reducible apply Within.snd <;> [with_reducible assumption; skip])
                | (with_reducible apply Within.fst <;> [with_reducible assumption; skip])
                | (with_reducible apply Within.fst2 <;> [with_reducible assumption; skip])
                | split)
         | (have hx : Within M s0 x.1 := by
              unfold x
              repeat' first
                | with_reducible assumption
                | dsimp -zeta only
                | with_reducible apply Within.ite1
                | with_reducible apply Within.ite2
                | with_reducible apply Within.ite
                | with_reducible apply addSum_within (Sub.up hM rfl)
                | with_reducible refine each_within (fun _ _ _ => ?_) ?_
                | (with_reducible apply Within.snd <;> [with_reducible assumption; skip])
                | (with_reducible apply Within.fst <;> [with_reducible assumption; skip])
                | (with_reducible apply Within.fst2 <;> [with_reducible assumption; skip])
                | split)
         | (have hx : Within M s0 x.2 := by
              unfold x
              repeat' first
                | with_reducible assumption
                | dsimp -zeta only
                | with_reducible apply Within.ite1
                | with_reducible apply Within.ite2
                | with_reducible apply Within.ite
                | with_reducible apply addSum_within (Sub.up hM rfl)
                | with_reducible refine each_within (fun _ _ _ => ?_) ?_
                | (with_reducible apply Within.snd <;> [with_reducible assumption; skip])
                | (with_reducible apply Within.fst <;> [with_reducible assumption; skip])
                | (with_reducible apply Within.fst2 <;> [with_reducible assumption; skip])
                | split)
         | skip
       clear_value x)
    | lift_lets -underBinder
    | dsimp -zeta only
    | with_reducible apply Within.ite1
    | with_reducible apply Within.ite2
    | with_reducible apply Within.ite
    | with_reducible apply addSum_within (Sub.up hM rfl)
    | with_reducible refine each_within (fun _ _ _ => ?_) ?_
    | (with_reducible apply Within.snd <;> [with_reducible assumption; skip])
    | (with_reducible apply Within.fst <;> [with_reducible assumption; skip])
    | (with_reducible apply Within.fst2 <;> [with_reducible assumption; skip])
    | split

theorem sliceReady_within {M : Nat} {s0 : State} (hM : Sub 0x3100008d3 M) (s : State) (c : Nat) (t : CoreTask) (sl : List (Nat × Nat) × Nat) (hW : Within M s0 s) : Within M s0 (sliceReady s c t sl).1 := by
  unfold sliceReady
  repeat' first
    | with_reducible assumption
    | (intro x
       first
         | (have hx : Within M s0 x := by
              unfold x
              repeat' first
                | with_reducible assumption
                | dsimp -zeta only
                | with_reducible apply Within.ite1
                | with_reducible apply Within.ite2
                | with_reducible apply Within.ite
                | with_reducible apply takeRows_within (Sub.up hM rfl)
                | (with_reducible apply Within.snd <;> [with_reducible assumption; skip])
                | (with_reducible apply Within.fst <;> [with_reducible assumption; skip])
                | (with_reducible apply Within.fst2 <;> [with_reducible assumption; skip])
                | split)
         | (have hx : Within M s0 x.1 := by
              unfold x
              repeat' first
                | with_reducible assumption
                | dsimp -zeta only
                | with_reducible apply Within.ite1
                | with_reducible apply Within.ite2
                | with_reducible apply Within.ite
                | with_reducible apply takeRows_within (Sub.up hM rfl)
                | (with_reducible apply Within.snd <;> [with_reducible assumption; skip])
                | (with_reducible apply Within.fst <;> [with_reducible assumption; skip])
                | (with_reducible apply Within.fst2 <;> [with_reducible assumption; skip])
                | split)
         | (have hx : Within M s0 x.2 := by
              unfold x
              repeat' first
                | with_reducible assumption
                | dsimp -zeta only
                | with_reducible apply Within.ite1
                | with_reducible apply Within.ite2
                | with_reducible apply Within.ite
                | with_reducible apply takeRows_within (Sub.up hM rfl)
                | (with_reducible apply Within.snd <;> [with_reducible assumption; skip])
                | (with_reducible apply Within.fst <;> [with_reducible assumption; skip])
                | (with_reducible apply Within.fst2 <;> [with_reducible assumption; skip])
                | split)
         | skip
       clear_value x)
    | lift_lets -underBinder
    | dsimp -zeta only
    | with_reducible apply Within.ite1
    | with_reducible apply Within.ite2
    | with_reducible apply Within.ite
    | with_reducible apply takeRows_within (Sub.up hM rfl)
    | (with_reducible apply Within.snd <;> [with_reducible assumption; skip])
    | (with_reducible apply Within.fst <;> [with_reducible assumption; skip])
    | (with_reducible apply Within.fst2 <;> [with_reducible assumption; skip])
    | split

theorem gatherArray_within {M : Nat} {s0 : State} (hM : Sub 0x3100008d3 M) (s : State) (c : Nat) (t : CoreTask) (a : Nat) (hW : Within M s0 s) : Within M s0 (gatherArray s c t a) := by
  unfold gatherArray
  repeat' first
    | with_reducible assumption
    | (intro x
       first
         | (have hx : Within M s0 x := by
              unfold x
              repeat' first
                | with_reducible assumption
                | dsimp -zeta only
                | with_reducible apply Within.ite1
                | with_reducible apply Within.ite2
                | with_reducible apply Within.ite
                | with_reducible apply bumpCore_within (Sub.up hM rfl)
                | with_reducible apply countTiles_within (Sub.up hM rfl)
                | with_reducible apply updLane_within (Sub.up hM rfl)
                | with_reducible apply endSegment_within (Sub.up hM rfl)
                | with_reducible apply takeQuarter_within (Sub.up hM rfl)
                | with_reducible apply sliceReady_within (Sub.up hM rfl)
                | with_reducible refine each_within (fun _ _ _ => ?_) ?_
                | (with_reducible apply Within.snd <;> [with_reducible assumption; skip])
                | (with_reducible apply Within.fst <;> [with_reducible assumption; skip])
                | (with_reducible apply Within.fst2 <;> [with_reducible assumption; skip])
                | split)
         | (have hx : Within M s0 x.1 := by
              unfold x
              repeat' first
                | with_reducible assumption
                | dsimp -zeta only
                | with_reducible apply Within.ite1
                | with_reducible apply Within.ite2
                | with_reducible apply Within.ite
                | with_reducible apply bumpCore_within (Sub.up hM rfl)
                | with_reducible apply countTiles_within (Sub.up hM rfl)
                | with_reducible apply updLane_within (Sub.up hM rfl)
                | with_reducible apply endSegment_within (Sub.up hM rfl)
                | with_reducible apply takeQuarter_within (Sub.up hM rfl)
                | with_reducible apply sliceReady_within (Sub.up hM rfl)
                | with_reducible refine each_within (fun _ _ _ => ?_) ?_
                | (with_reducible apply Within.snd <;> [with_reducible assumption; skip])
                | (with_reducible apply Within.fst <;> [with_reducible assumption; skip])
                | (with_reducible apply Within.fst2 <;> [with_reducible assumption; skip])
                | split)
         | (have hx : Within M s0 x.2 := by
              unfold x
              repeat' first
                | with_reducible assumption
                | dsimp -zeta only
                | with_reducible apply Within.ite1
                | with_reducible apply Within.ite2
                | with_reducible apply Within.ite
                | with_reducible apply bumpCore_within (Sub.up hM rfl)
                | with_reducible apply countTiles_within (Sub.up hM rfl)
                | with_reducible apply updLane_within (Sub.up hM rfl)
                | with_reducible apply endSegment_within (Sub.up hM rfl)
                | with_reducible apply takeQuarter_within (Sub.up hM rfl)
                | with_reducible apply sliceReady_within (Sub.up hM rfl)
                | with_reducible refine each_within (fun _ _ _ => ?_) ?_
                | (with_reducible apply Within.snd <;> [with_reducible assumption; skip])
                | (with_reducible apply Within.fst <;> [with_reducible assumption; skip])
                | (with_reducible apply Within.fst2 <;> [with_reducible assumption; skip])
                | split)
         | skip
       clear_value x)
    | lift_lets -underBinder
    | dsimp -zeta only
    | with_reducible apply Within.ite1
    | with_reducible apply Within.ite2
    | with_reducible apply Within.ite
    | with_reducible apply bumpCore_within (Sub.up hM rfl)
    | with_reducible apply countTiles_within (Sub.up hM rfl)
    | with_reducible apply updLane_within (Sub.up hM rfl)
    | with_reducible apply endSegment_within (Sub.up hM rfl)
    | with_reducible apply takeQuarter_within (Sub.up hM rfl)
    | with_reducible apply sliceReady_within (Sub.up hM rfl)
    | with_reducible refine each_within (fun _ _ _ => ?_) ?_
    | (with_reducible apply Within.snd <;> [with_reducible assumption; skip])
    | (with_reducible apply Within.fst <;> [with_reducible assumption; skip])
    | (with_reducible apply Within.fst2 <;> [with_reducible assumption; skip])
    | split

theorem laneStitch_within {M : Nat} {s0 : State} (hM : Sub 0x710000fdb M) (s : State) (c : Nat) (hW : Within M s0 s) : Within M s0 (laneStitch s c) := by
  unfold laneStitch
  repeat' first
    | with_reducible assumption
    | (intro x
       first
         | (have hx : Within M s0 x := by
              unfold x
              repeat' first
                | with_reducible assumption
                | with_reducible apply Within.ite
                | with_reducible apply updCore_within (Sub.up hM rfl)
                | with_reducible apply popLane_within (Sub.up hM rfl)
                | with_reducible apply thieves_within (Sub.up hM rfl)
                | with_reducible apply segmenter_within (Sub.up hM rfl)
                | with_reducible apply engine_within (Sub.up hM rfl)
                | with_reducible apply pairVector_within (Sub.up hM rfl)
                | with_reducible apply gatherArray_within (Sub.up hM rfl)
                | with_reducible refine each_within (fun _ _ _ => ?_) ?_
                | with_reducible refine Within.fold (fun _ _ _ => ?_) ?_
                | with_reducible refine Within.fold1 (fun _ _ _ => ?_) ?_
                | with_reducible refine Within.fold2 (fun _ _ _ => ?_) ?_
                | (with_reducible apply Within.snd <;> [with_reducible assumption; skip])
                | (with_reducible apply Within.fst <;> [with_reducible assumption; skip])
                | (with_reducible apply Within.fst2 <;> [with_reducible assumption; skip])
                | split)
         | (have hx : Within M s0 x.1 := by
              unfold x
              repeat' first
                | with_reducible assumption
                | with_reducible apply Within.ite
                | with_reducible apply updCore_within (Sub.up hM rfl)
                | with_reducible apply popLane_within (Sub.up hM rfl)
                | with_reducible apply thieves_within (Sub.up hM rfl)
                | with_reducible apply segmenter_within (Sub.up hM rfl)
                | with_reducible apply engine_within (Sub.up hM rfl)
                | with_reducible apply pairVector_within (Sub.up hM rfl)
                | with_reducible apply gatherArray_within (Sub.up hM rfl)
                | with_reducible refine each_within (fun _ _ _ => ?_) ?_
                | with_reducible refine Within.fold (fun _ _ _ => ?_) ?_
                | with_reducible refine Within.fold1 (fun _ _ _ => ?_) ?_
                | with_reducible refine Within.fold2 (fun _ _ _ => ?_) ?_
                | (with_reducible apply Within.snd <;> [with_reducible assumption; skip])
                | (with_reducible apply Within.fst <;> [with_reducible assumption; skip])
                | (with_reducible apply Within.fst2 <;> [with_reducible assumption; skip])
                | split)
         | (have hx : Within M s0 x.2 := by
              unfold x
              repeat' first
                | with_reducible assumption
                | with_reducible apply Within.ite
                | with_reducible apply updCore_within (Sub.up hM rfl)
                | with_reducible apply popLane_within (Sub.up hM rfl)
                | with_reducible apply thieves_within (Sub.up hM rfl)
                | with_reducible apply segmenter_within (Sub.up hM rfl)
                | with_reducible apply engine_within (Sub.up hM rfl)
                | with_reducible apply pairVector_within (Sub.up hM rfl)
                | with_reducible apply gatherArray_within (Sub.up hM rfl)
                | with_reducible refine each_within (fun _ _ _ => ?_) ?_
                | with_reducible refine Within.fold (fun _ _ _ => ?_) ?_
                | with_reducible refine Within.fold1 (fun _ _ _ => ?_) ?_
                | with_reducible refine Within.fold2 (fun _ _ _ => ?_) ?_
                | (with_reducible apply Within.snd <;> [with_reducible assumption; skip])
                | (with_reducible apply Within.fst <;> [with_reducible assumption; skip])
                | (with_reducible apply Within.fst2 <;> [with_reducible assumption; skip])
                | split)
         | skip
       clear_value x)
    | lift_lets -underBinder
    | with_reducible apply Within.ite
    | with_reducible apply updCore_within (Sub.up hM rfl)
    | with_reducible apply popLane_within (Sub.up hM rfl)
    | with_reducible apply thieves_within (Sub.up hM rfl)
    | with_reducible apply segmenter_within (Sub.up hM rfl)
    | with_reducible apply engine_within (Sub.up hM rfl)
    | with_reducible apply pairVector_within (Sub.up hM rfl)
    | with_reducible apply gatherArray_within (Sub.up hM rfl)
    | with_reducible refine each_within (fun _ _ _ => ?_) ?_
    | with_reducible refine Within.fold (fun _ _ _ => ?_) ?_
    | with_reducible refine Within.fold1 (fun _ _ _ => ?_) ?_
    | with_reducible refine Within.fold2 (fun _ _ _ => ?_) ?_
    | (with_reducible apply Within.snd <;> [with_reducible assumption; skip])
    | (with_reducible apply Within.fst <;> [with_reducible assumption; skip])
    | (with_reducible apply Within.fst2 <;> [with_reducible assumption; skip])
    | split

end Sys2Proof.Machine
end

