-- ==== Sys2Proof/Laws/WithinSpanOps.lean ====
section
/-! SUPPORT. What the operations and commands of Machine/SpanOps can do to the state (Laws/Within). -/

namespace Sys2Proof.Machine

theorem spmApply_within {M : Nat} {s0 : State} (hM : Sub 0x310000093 M) (s : State) (c : Nat) (copy : Bool) (m dst src n pattern : Nat) (hW : Within M s0 s) : Within M s0 (spmApply s c copy m dst src n pattern) := by
  unfold spmApply
  repeat' first
    | with_reducible assumption
    | (intro x
       first
         | (have hx : Within M s0 x := by
              unfold x
              repeat' first
                | with_reducible assumption
                | with_reducible apply Within.ite
                | with_reducible apply writeRow_within (Sub.up hM rfl)
                | with_reducible apply loseHomes_within (Sub.up hM rfl)
                | with_reducible apply flushRow_within (Sub.up hM rfl)
                | with_reducible refine each_within (fun _ _ _ => ?_) ?_)
         | skip
       clear_value x)
    | lift_lets -underBinder
    | with_reducible apply Within.ite
    | with_reducible apply writeRow_within (Sub.up hM rfl)
    | with_reducible apply loseHomes_within (Sub.up hM rfl)
    | with_reducible apply flushRow_within (Sub.up hM rfl)
    | with_reducible refine each_within (fun _ _ _ => ?_) ?_

theorem opRows_within {M : Nat} {s0 : State} (hM : Sub 0x3100008d3 M) (s : State) (c : Nat) (copy : Bool) (m src n : Nat) (hW : Within M s0 s) : Within M s0 (opRows s c copy m src n).1 := by
  unfold opRows
  repeat' first
    | with_reducible assumption
    | (intro x
       first
         | (have hx : Within M s0 x := by
              unfold x
              repeat' first
                | with_reducible assumption
                | dsimp -zeta only
                | with_reducible apply Within.ite1
                | with_reducible apply Within.ite2
                | with_reducible apply Within.ite
                | with_reducible apply useRows_within (Sub.up hM rfl)
                | (with_reducible apply Within.snd <;> [with_reducible assumption; skip])
                | (with_reducible apply Within.fst <;> [with_reducible assumption; skip])
                | (with_reducible apply Within.fst2 <;> [with_reducible assumption; skip])
                | split)
         | (have hx : Within M s0 x.1 := by
              unfold x
              repeat' first
                | with_reducible assumption
                | dsimp -zeta only
                | with_reducible apply Within.ite1
                | with_reducible apply Within.ite2
                | with_reducible apply Within.ite
                | with_reducible apply useRows_within (Sub.up hM rfl)
                | (with_reducible apply Within.snd <;> [with_reducible assumption; skip])
                | (with_reducible apply Within.fst <;> [with_reducible assumption; skip])
                | (with_reducible apply Within.fst2 <;> [with_reducible assumption; skip])
                | split)
         | (have hx : Within M s0 x.2 := by
              unfold x
              repeat' first
                | with_reducible assumption
                | dsimp -zeta only
                | with_reducible apply Within.ite1
                | with_reducible apply Within.ite2
                | with_reducible apply Within.ite
                | with_reducible apply useRows_within (Sub.up hM rfl)
                | (with_reducible apply Within.snd <;> [with_reducible assumption; skip])
                | (with_reducible apply Within.fst <;> [with_reducible assumption; skip])
                | (with_reducible apply Within.fst2 <;> [with_reducible assumption; skip])
                | split)
         | skip
       clear_value x)
    | lift_lets -underBinder
    | dsimp -zeta only
    | with_reducible apply Within.ite1
    | with_reducible apply Within.ite2
    | with_reducible apply Within.ite
    | with_reducible apply useRows_within (Sub.up hM rfl)
    | (with_reducible apply Within.snd <;> [with_reducible assumption; skip])
    | (with_reducible apply Within.fst <;> [with_reducible assumption; skip])
    | (with_reducible apply Within.fst2 <;> [with_reducible assumption; skip])
    | split

theorem spmApplyOp_within {M : Nat} {s0 : State} (hM : Sub 0x310000093 M) (s : State) (c op n pattern : Nat) (hW : Within M s0 s) : Within M s0 (spmApplyOp s c op n pattern) := by
  unfold spmApplyOp
  repeat' first
    | with_reducible assumption
    | with_reducible apply spmApply_within (Sub.up hM rfl)

theorem copyEnd_within {M : Nat} {s0 : State} (hM : Sub 0x100000010 M) (s : State) (c : Nat) (hW : Within M s0 s) : Within M s0 (copyEnd s c) := by
  unfold copyEnd
  repeat' first
    | with_reducible assumption
    | (intro x
       first
         | (have hx : Within M s0 x := by
              unfold x
              repeat' first
                | with_reducible assumption
                | dsimp -zeta only
                | with_reducible apply Within.ite1
                | with_reducible apply Within.ite2
                | with_reducible apply Within.ite
                | with_reducible apply reportSpan_within (Sub.up hM rfl)
                | (with_reducible apply Within.snd <;> [with_reducible assumption; skip])
                | (with_reducible apply Within.fst <;> [with_reducible assumption; skip])
                | (with_reducible apply Within.fst2 <;> [with_reducible assumption; skip])
                | split)
         | (have hx : Within M s0 x.1 := by
              unfold x
              repeat' first
                | with_reducible assumption
                | dsimp -zeta only
                | with_reducible apply Within.ite1
                | with_reducible apply Within.ite2
                | with_reducible apply Within.ite
                | with_reducible apply reportSpan_within (Sub.up hM rfl)
                | (with_reducible apply Within.snd <;> [with_reducible assumption; skip])
                | (with_reducible apply Within.fst <;> [with_reducible assumption; skip])
                | (with_reducible apply Within.fst2 <;> [with_reducible assumption; skip])
                | split)
         | (have hx : Within M s0 x.2 := by
              unfold x
              repeat' first
                | with_reducible assumption
                | dsimp -zeta only
                | with_reducible apply Within.ite1
                | with_reducible apply Within.ite2
                | with_reducible apply Within.ite
                | with_reducible apply reportSpan_within (Sub.up hM rfl)
                | (with_reducible apply Within.snd <;> [with_reducible assumption; skip])
                | (with_reducible apply Within.fst <;> [with_reducible assumption; skip])
                | (with_reducible apply Within.fst2 <;> [with_reducible assumption; skip])
                | split)
         | skip
       clear_value x)
    | lift_lets -underBinder
    | dsimp -zeta only
    | with_reducible apply Within.ite1
    | with_reducible apply Within.ite2
    | with_reducible apply Within.ite
    | with_reducible apply reportSpan_within (Sub.up hM rfl)
    | (with_reducible apply Within.snd <;> [with_reducible assumption; skip])
    | (with_reducible apply Within.fst <;> [with_reducible assumption; skip])
    | (with_reducible apply Within.fst2 <;> [with_reducible assumption; skip])
    | split

theorem updTask_within {M : Nat} {s0 : State} (hM : Sub 0x10 M) (s : State) (c : Nat) (f : CoreTask → CoreTask) (hW : Within M s0 s) : Within M s0 (updTask s c f) := by
  unfold updTask
  repeat' first
    | with_reducible assumption
    | with_reducible apply updCore_within (Sub.up hM rfl)

theorem openTaskWindows_within {M : Nat} {s0 : State} (hM : Sub 0x3100008d3 M) (s : State) (c : Nat) (t : CoreTask) (hW : Within M s0 s) : Within M s0 (openTaskWindows s c t) := by
  unfold openTaskWindows
  repeat' first
    | with_reducible assumption
    | (intro x
       first
         | (have hx : Within M s0 x := by
              unfold x
              repeat' first
                | with_reducible assumption
                | dsimp -zeta only
                | with_reducible apply Within.ite1
                | with_reducible apply Within.ite2
                | with_reducible apply Within.ite
                | with_reducible apply openWindow_within (Sub.up hM rfl)
                | with_reducible apply ownWindow_within (Sub.up hM rfl)
                | with_reducible apply faultCore_within (Sub.up hM rfl)
                | with_reducible refine each_within (fun _ _ _ => ?_) ?_
                | (with_reducible apply Within.snd <;> [with_reducible assumption; skip])
                | (with_reducible apply Within.fst <;> [with_reducible assumption; skip])
                | (with_reducible apply Within.fst2 <;> [with_reducible assumption; skip])
                | split)
         | (have hx : Within M s0 x.1 := by
              unfold x
              repeat' first
                | with_reducible assumption
                | dsimp -zeta only
                | with_reducible apply Within.ite1
                | with_reducible apply Within.ite2
                | with_reducible apply Within.ite
                | with_reducible apply openWindow_within (Sub.up hM rfl)
                | with_reducible apply ownWindow_within (Sub.up hM rfl)
                | with_reducible apply faultCore_within (Sub.up hM rfl)
                | with_reducible refine each_within (fun _ _ _ => ?_) ?_
                | (with_reducible apply Within.snd <;> [with_reducible assumption; skip])
                | (with_reducible apply Within.fst <;> [with_reducible assumption; skip])
                | (with_reducible apply Within.fst2 <;> [with_reducible assumption; skip])
                | split)
         | (have hx : Within M s0 x.2 := by
              unfold x
              repeat' first
                | with_reducible assumption
                | dsimp -zeta only
                | with_reducible apply Within.ite1
                | with_reducible apply Within.ite2
                | with_reducible apply Within.ite
                | with_reducible apply openWindow_within (Sub.up hM rfl)
                | with_reducible apply ownWindow_within (Sub.up hM rfl)
                | with_reducible apply faultCore_within (Sub.up hM rfl)
                | with_reducible refine each_within (fun _ _ _ => ?_) ?_
                | (with_reducible apply Within.snd <;> [with_reducible assumption; skip])
                | (with_reducible apply Within.fst <;> [with_reducible assumption; skip])
                | (with_reducible apply Within.fst2 <;> [with_reducible assumption; skip])
                | split)
         | skip
       clear_value x)
    | lift_lets -underBinder
    | dsimp -zeta only
    | with_reducible apply Within.ite1
    | with_reducible apply Within.ite2
    | with_reducible apply Within.ite
    | with_reducible apply openWindow_within (Sub.up hM rfl)
    | with_reducible apply ownWindow_within (Sub.up hM rfl)
    | with_reducible apply faultCore_within (Sub.up hM rfl)
    | with_reducible refine each_within (fun _ _ _ => ?_) ?_
    | (with_reducible apply Within.snd <;> [with_reducible assumption; skip])
    | (with_reducible apply Within.fst <;> [with_reducible assumption; skip])
    | (with_reducible apply Within.fst2 <;> [with_reducible assumption; skip])
    | split

theorem startSpan_within {M : Nat} {s0 : State} (hM : Sub 0x710000fdb M) (s : State) (c span attempt : Nat) (hW : Within M s0 s) : Within M s0 (startSpan s c span attempt) := by
  unfold startSpan
  repeat' first
    | with_reducible assumption
    | (intro x
       first
         | (have hx : Within M s0 x := by
              unfold x
              repeat' first
                | with_reducible assumption
                | dsimp -zeta only
                | with_reducible apply Within.ite1
                | with_reducible apply Within.ite2
                | with_reducible apply Within.ite
                | with_reducible apply updCore_within (Sub.up hM rfl)
                | with_reducible apply sendClaim_within (Sub.up hM rfl)
                | with_reducible apply spanEnd_within (Sub.up hM rfl)
                | with_reducible apply zeroFill_within (Sub.up hM rfl)
                | with_reducible apply copyEnd_within (Sub.up hM rfl)
                | (with_reducible apply Within.snd <;> [with_reducible assumption; skip])
                | (with_reducible apply Within.fst <;> [with_reducible assumption; skip])
                | (with_reducible apply Within.fst2 <;> [with_reducible assumption; skip])
                | split)
         | (have hx : Within M s0 x.1 := by
              unfold x
              repeat' first
                | with_reducible assumption
                | dsimp -zeta only
                | with_reducible apply Within.ite1
                | with_reducible apply Within.ite2
                | with_reducible apply Within.ite
                | with_reducible apply updCore_within (Sub.up hM rfl)
                | with_reducible apply sendClaim_within (Sub.up hM rfl)
                | with_reducible apply spanEnd_within (Sub.up hM rfl)
                | with_reducible apply zeroFill_within (Sub.up hM rfl)
                | with_reducible apply copyEnd_within (Sub.up hM rfl)
                | (with_reducible apply Within.snd <;> [with_reducible assumption; skip])
                | (with_reducible apply Within.fst <;> [with_reducible assumption; skip])
                | (with_reducible apply Within.fst2 <;> [with_reducible assumption; skip])
                | split)
         | (have hx : Within M s0 x.2 := by
              unfold x
              repeat' first
                | with_reducible assumption
                | dsimp -zeta only
                | with_reducible apply Within.ite1
                | with_reducible apply Within.ite2
                | with_reducible apply Within.ite
                | with_reducible apply updCore_within (Sub.up hM rfl)
                | with_reducible apply sendClaim_within (Sub.up hM rfl)
                | with_reducible apply spanEnd_within (Sub.up hM rfl)
                | with_reducible apply zeroFill_within (Sub.up hM rfl)
                | with_reducible apply copyEnd_within (Sub.up hM rfl)
                | (with_reducible apply Within.snd <;> [with_reducible assumption; skip])
                | (with_reducible apply Within.fst <;> [with_reducible assumption; skip])
                | (with_reducible apply Within.fst2 <;> [with_reducible assumption; skip])
                | split)
         | skip
       clear_value x)
    | lift_lets -underBinder
    | dsimp -zeta only
    | with_reducible apply Within.ite1
    | with_reducible apply Within.ite2
    | with_reducible apply Within.ite
    | with_reducible apply updCore_within (Sub.up hM rfl)
    | with_reducible apply sendClaim_within (Sub.up hM rfl)
    | with_reducible apply spanEnd_within (Sub.up hM rfl)
    | with_reducible apply zeroFill_within (Sub.up hM rfl)
    | with_reducible apply copyEnd_within (Sub.up hM rfl)
    | (with_reducible apply Within.snd <;> [with_reducible assumption; skip])
    | (with_reducible apply Within.fst <;> [with_reducible assumption; skip])
    | (with_reducible apply Within.fst2 <;> [with_reducible assumption; skip])
    | split

theorem runPrologue_within {M : Nat} {s0 : State} (hM : Sub 0x710000fdb M) (s : State) (c span : Nat) (hW : Within M s0 s) : Within M s0 (runPrologue s c span) := by
  unfold runPrologue
  repeat' first
    | with_reducible assumption
    | (intro x
       first
         | (have hx : Within M s0 x := by
              unfold x
              repeat' first
                | with_reducible assumption
                | dsimp -zeta only
                | with_reducible apply Within.ite1
                | with_reducible apply Within.ite2
                | with_reducible apply Within.ite
                | with_reducible apply faultCore_within (Sub.up hM rfl)
                | with_reducible apply opRows_within (Sub.up hM rfl)
                | with_reducible apply spmApplyOp_within (Sub.up hM rfl)
                | with_reducible apply updTask_within (Sub.up hM rfl)
                | with_reducible apply startSpan_within (Sub.up hM rfl)
                | (with_reducible apply Within.snd <;> [with_reducible assumption; skip])
                | (with_reducible apply Within.fst <;> [with_reducible assumption; skip])
                | (with_reducible apply Within.fst2 <;> [with_reducible assumption; skip])
                | split)
         | (have hx : Within M s0 x.1 := by
              unfold x
              repeat' first
                | with_reducible assumption
                | dsimp -zeta only
                | with_reducible apply Within.ite1
                | with_reducible apply Within.ite2
                | with_reducible apply Within.ite
                | with_reducible apply faultCore_within (Sub.up hM rfl)
                | with_reducible apply opRows_within (Sub.up hM rfl)
                | with_reducible apply spmApplyOp_within (Sub.up hM rfl)
                | with_reducible apply updTask_within (Sub.up hM rfl)
                | with_reducible apply startSpan_within (Sub.up hM rfl)
                | (with_reducible apply Within.snd <;> [with_reducible assumption; skip])
                | (with_reducible apply Within.fst <;> [with_reducible assumption; skip])
                | (with_reducible apply Within.fst2 <;> [with_reducible assumption; skip])
                | split)
         | (have hx : Within M s0 x.2 := by
              unfold x
              repeat' first
                | with_reducible assumption
                | dsimp -zeta only
                | with_reducible apply Within.ite1
                | with_reducible apply Within.ite2
                | with_reducible apply Within.ite
                | with_reducible apply faultCore_within (Sub.up hM rfl)
                | with_reducible apply opRows_within (Sub.up hM rfl)
                | with_reducible apply spmApplyOp_within (Sub.up hM rfl)
                | with_reducible apply updTask_within (Sub.up hM rfl)
                | with_reducible apply startSpan_within (Sub.up hM rfl)
                | (with_reducible apply Within.snd <;> [with_reducible assumption; skip])
                | (with_reducible apply Within.fst <;> [with_reducible assumption; skip])
                | (with_reducible apply Within.fst2 <;> [with_reducible assumption; skip])
                | split)
         | skip
       clear_value x)
    | lift_lets -underBinder
    | dsimp -zeta only
    | with_reducible apply Within.ite1
    | with_reducible apply Within.ite2
    | with_reducible apply Within.ite
    | with_reducible apply faultCore_within (Sub.up hM rfl)
    | with_reducible apply opRows_within (Sub.up hM rfl)
    | with_reducible apply spmApplyOp_within (Sub.up hM rfl)
    | with_reducible apply updTask_within (Sub.up hM rfl)
    | with_reducible apply startSpan_within (Sub.up hM rfl)
    | (with_reducible apply Within.snd <;> [with_reducible assumption; skip])
    | (with_reducible apply Within.fst <;> [with_reducible assumption; skip])
    | (with_reducible apply Within.fst2 <;> [with_reducible assumption; skip])
    | split

theorem firstGo_within {M : Nat} {s0 : State} (hM : Sub 0x710000fdb M) (s : State) (c : Nat) (t : CoreTask) (span : Nat) (hW : Within M s0 s) : Within M s0 (firstGo s c t span) := by
  unfold firstGo
  repeat' first
    | with_reducible assumption
    | (intro x
       first
         | (have hx : Within M s0 x := by
              unfold x
              repeat' first
                | with_reducible assumption
                | dsimp -zeta only
                | with_reducible apply Within.ite1
                | with_reducible apply Within.ite2
                | with_reducible apply Within.ite
                | with_reducible apply setReg_within (Sub.up hM rfl)
                | with_reducible apply updCore_within (Sub.up hM rfl)
                | with_reducible apply bumpCore_within (Sub.up hM rfl)
                | with_reducible apply markTask_within (Sub.up hM rfl)
                | with_reducible apply updTask_within (Sub.up hM rfl)
                | with_reducible apply openTaskWindows_within (Sub.up hM rfl)
                | with_reducible apply startSpan_within (Sub.up hM rfl)
                | with_reducible apply runPrologue_within (Sub.up hM rfl)
                | with_reducible refine each_within (fun _ _ _ => ?_) ?_
                | (with_reducible apply Within.snd <;> [with_reducible assumption; skip])
                | (with_reducible apply Within.fst <;> [with_reducible assumption; skip])
                | (with_reducible apply Within.fst2 <;> [with_reducible assumption; skip])
                | split)
         | (have hx : Within M s0 x.1 := by
              unfold x
              repeat' first
                | with_reducible assumption
                | dsimp -zeta only
                | with_reducible apply Within.ite1
                | with_reducible apply Within.ite2
                | with_reducible apply Within.ite
                | with_reducible apply setReg_within (Sub.up hM rfl)
                | with_reducible apply updCore_within (Sub.up hM rfl)
                | with_reducible apply bumpCore_within (Sub.up hM rfl)
                | with_reducible apply markTask_within (Sub.up hM rfl)
                | with_reducible apply updTask_within (Sub.up hM rfl)
                | with_reducible apply openTaskWindows_within (Sub.up hM rfl)
                | with_reducible apply startSpan_within (Sub.up hM rfl)
                | with_reducible apply runPrologue_within (Sub.up hM rfl)
                | with_reducible refine each_within (fun _ _ _ => ?_) ?_
                | (with_reducible apply Within.snd <;> [with_reducible assumption; skip])
                | (with_reducible apply Within.fst <;> [with_reducible assumption; skip])
                | (with_reducible apply Within.fst2 <;> [with_reducible assumption; skip])
                | split)
         | (have hx : Within M s0 x.2 := by
              unfold x
              repeat' first
                | with_reducible assumption
                | dsimp -zeta only
                | with_reducible apply Within.ite1
                | with_reducible apply Within.ite2
                | with_reducible apply Within.ite
                | with_reducible apply setReg_within (Sub.up hM rfl)
                | with_reducible apply updCore_within (Sub.up hM rfl)
                | with_reducible apply bumpCore_within (Sub.up hM rfl)
                | with_reducible apply markTask_within (Sub.up hM rfl)
                | with_reducible apply updTask_within (Sub.up hM rfl)
                | with_reducible apply openTaskWindows_within (Sub.up hM rfl)
                | with_reducible apply startSpan_within (Sub.up hM rfl)
                | with_reducible apply runPrologue_within (Sub.up hM rfl)
                | with_reducible refine each_within (fun _ _ _ => ?_) ?_
                | (with_reducible apply Within.snd <;> [with_reducible assumption; skip])
                | (with_reducible apply Within.fst <;> [with_reducible assumption; skip])
                | (with_reducible apply Within.fst2 <;> [with_reducible assumption; skip])
                | split)
         | skip
       clear_value x)
    | lift_lets -underBinder
    | dsimp -zeta only
    | with_reducible apply Within.ite1
    | with_reducible apply Within.ite2
    | with_reducible apply Within.ite
    | with_reducible apply setReg_within (Sub.up hM rfl)
    | with_reducible apply updCore_within (Sub.up hM rfl)
    | with_reducible apply bumpCore_within (Sub.up hM rfl)
    | with_reducible apply markTask_within (Sub.up hM rfl)
    | with_reducible apply updTask_within (Sub.up hM rfl)
    | with_reducible apply openTaskWindows_within (Sub.up hM rfl)
    | with_reducible apply startSpan_within (Sub.up hM rfl)
    | with_reducible apply runPrologue_within (Sub.up hM rfl)
    | with_reducible refine each_within (fun _ _ _ => ?_) ?_
    | (with_reducible apply Within.snd <;> [with_reducible assumption; skip])
    | (with_reducible apply Within.fst <;> [with_reducible assumption; skip])
    | (with_reducible apply Within.fst2 <;> [with_reducible assumption; skip])
    | split

theorem takeGo_within {M : Nat} {s0 : State} (hM : Sub 0x710000fdb M) (s : State) (c k span : Nat) (hW : Within M s0 s) : Within M s0 (takeGo s c k span) := by
  unfold takeGo
  repeat' first
    | with_reducible assumption
    | with_reducible apply Within.ite
    | with_reducible apply updTask_within (Sub.up hM rfl)
    | with_reducible apply startSpan_within (Sub.up hM rfl)
    | with_reducible apply firstGo_within (Sub.up hM rfl)
    | (with_reducible apply Within.snd <;> [with_reducible assumption; skip])
    | (with_reducible apply Within.fst <;> [with_reducible assumption; skip])
    | (with_reducible apply Within.fst2 <;> [with_reducible assumption; skip])
    | split

theorem takeReplay_within {M : Nat} {s0 : State} (hM : Sub 0x710000fdb M) (s : State) (c k : Nat) (hW : Within M s0 s) : Within M s0 (takeReplay s c k) := by
  unfold takeReplay
  repeat' first
    | with_reducible assumption
    | (intro x
       first
         | (have hx : Within M s0 x := by
              unfold x
              repeat' first
                | with_reducible assumption
                | dsimp -zeta only
                | with_reducible apply Within.ite1
                | with_reducible apply Within.ite2
                | with_reducible apply Within.ite
                | with_reducible apply updCore_within (Sub.up hM rfl)
                | with_reducible apply bumpCore_within (Sub.up hM rfl)
                | with_reducible apply withdrawOf_within (Sub.up hM rfl)
                | with_reducible apply rollGroup_within (Sub.up hM rfl)
                | with_reducible apply updTask_within (Sub.up hM rfl)
                | with_reducible apply startSpan_within (Sub.up hM rfl)
                | (with_reducible apply Within.snd <;> [with_reducible assumption; skip])
                | (with_reducible apply Within.fst <;> [with_reducible assumption; skip])
                | (with_reducible apply Within.fst2 <;> [with_reducible assumption; skip])
                | split)
         | (have hx : Within M s0 x.1 := by
              unfold x
              repeat' first
                | with_reducible assumption
                | dsimp -zeta only
                | with_reducible apply Within.ite1
                | with_reducible apply Within.ite2
                | with_reducible apply Within.ite
                | with_reducible apply updCore_within (Sub.up hM rfl)
                | with_reducible apply bumpCore_within (Sub.up hM rfl)
                | with_reducible apply withdrawOf_within (Sub.up hM rfl)
                | with_reducible apply rollGroup_within (Sub.up hM rfl)
                | with_reducible apply updTask_within (Sub.up hM rfl)
                | with_reducible apply startSpan_within (Sub.up hM rfl)
                | (with_reducible apply Within.snd <;> [with_reducible assumption; skip])
                | (with_reducible apply Within.fst <;> [with_reducible assumption; skip])
                | (with_reducible apply Within.fst2 <;> [with_reducible assumption; skip])
                | split)
         | (have hx : Within M s0 x.2 := by
              unfold x
              repeat' first
                | with_reducible assumption
                | dsimp -zeta only
                | with_reducible apply Within.ite1
                | with_reducible apply Within.ite2
                | with_reducible apply Within.ite
                | with_reducible apply updCore_within (Sub.up hM rfl)
                | with_reducible apply bumpCore_within (Sub.up hM rfl)
                | with_reducible apply withdrawOf_within (Sub.up hM rfl)
                | with_reducible apply rollGroup_within (Sub.up hM rfl)
                | with_reducible apply updTask_within (Sub.up hM rfl)
                | with_reducible apply startSpan_within (Sub.up hM rfl)
                | (with_reducible apply Within.snd <;> [with_reducible assumption; skip])
                | (with_reducible apply Within.fst <;> [with_reducible assumption; skip])
                | (with_reducible apply Within.fst2 <;> [with_reducible assumption; skip])
                | split)
         | skip
       clear_value x)
    | lift_lets -underBinder
    | dsimp -zeta only
    | with_reducible apply Within.ite1
    | with_reducible apply Within.ite2
    | with_reducible apply Within.ite
    | with_reducible apply updCore_within (Sub.up hM rfl)
    | with_reducible apply bumpCore_within (Sub.up hM rfl)
    | with_reducible apply withdrawOf_within (Sub.up hM rfl)
    | with_reducible apply rollGroup_within (Sub.up hM rfl)
    | with_reducible apply updTask_within (Sub.up hM rfl)
    | with_reducible apply startSpan_within (Sub.up hM rfl)
    | (with_reducible apply Within.snd <;> [with_reducible assumption; skip])
    | (with_reducible apply Within.fst <;> [with_reducible assumption; skip])
    | (with_reducible apply Within.fst2 <;> [with_reducible assumption; skip])
    | split

theorem settleRefusal_within {M : Nat} {s0 : State} (hM : Sub 0x100000010 M) (s : State) (k : Nat) (hW : Within M s0 s) : Within M s0 (settleRefusal s k) := by
  unfold settleRefusal
  repeat' first
    | with_reducible assumption
    | (intro x
       first
         | (have hx : Within M s0 x := by
              unfold x
              repeat' first
                | with_reducible assumption
                | with_reducible apply Within.ite
                | with_reducible apply updCore_within (Sub.up hM rfl)
                | with_reducible apply disarmSlot_within (Sub.up hM rfl)
                | with_reducible refine each_within (fun _ _ _ => ?_) ?_
                | (with_reducible apply Within.snd <;> [with_reducible assumption; skip])
                | (with_reducible apply Within.fst <;> [with_reducible assumption; skip])
                | (with_reducible apply Within.fst2 <;> [with_reducible assumption; skip])
                | split)
         | skip
       clear_value x)
    | lift_lets -underBinder
    | with_reducible apply Within.ite
    | with_reducible apply updCore_within (Sub.up hM rfl)
    | with_reducible apply disarmSlot_within (Sub.up hM rfl)
    | with_reducible refine each_within (fun _ _ _ => ?_) ?_
    | (with_reducible apply Within.snd <;> [with_reducible assumption; skip])
    | (with_reducible apply Within.fst <;> [with_reducible assumption; skip])
    | (with_reducible apply Within.fst2 <;> [with_reducible assumption; skip])
    | split

theorem takeDetection_within {M : Nat} {s0 : State} (hM : Sub 0x100000090 M) (s : State) (k span : Nat) (hW : Within M s0 s) : Within M s0 (takeDetection s k span) := by
  unfold takeDetection
  repeat' first
    | with_reducible assumption
    | (intro x
       first
         | (have hx : Within M s0 x := by
              unfold x
              repeat' first
                | with_reducible assumption
                | dsimp -zeta only
                | with_reducible apply Within.ite1
                | with_reducible apply Within.ite2
                | with_reducible apply Within.ite
                | with_reducible apply setSlot_within (Sub.up hM rfl)
                | with_reducible apply sendChain_within (Sub.up hM rfl)
                | with_reducible apply toCores_within (Sub.up hM rfl)
                | with_reducible apply endTask_within (Sub.up hM rfl)
                | (with_reducible apply Within.snd <;> [with_reducible assumption; skip])
                | (with_reducible apply Within.fst <;> [with_reducible assumption; skip])
                | (with_reducible apply Within.fst2 <;> [with_reducible assumption; skip])
                | split)
         | (have hx : Within M s0 x.1 := by
              unfold x
              repeat' first
                | with_reducible assumption
                | dsimp -zeta only
                | with_reducible apply Within.ite1
                | with_reducible apply Within.ite2
                | with_reducible apply Within.ite
                | with_reducible apply setSlot_within (Sub.up hM rfl)
                | with_reducible apply sendChain_within (Sub.up hM rfl)
                | with_reducible apply toCores_within (Sub.up hM rfl)
                | with_reducible apply endTask_within (Sub.up hM rfl)
                | (with_reducible apply Within.snd <;> [with_reducible assumption; skip])
                | (with_reducible apply Within.fst <;> [with_reducible assumption; skip])
                | (with_reducible apply Within.fst2 <;> [with_reducible assumption; skip])
                | split)
         | (have hx : Within M s0 x.2 := by
              unfold x
              repeat' first
                | with_reducible assumption
                | dsimp -zeta only
                | with_reducible apply Within.ite1
                | with_reducible apply Within.ite2
                | with_reducible apply Within.ite
                | with_reducible apply setSlot_within (Sub.up hM rfl)
                | with_reducible apply sendChain_within (Sub.up hM rfl)
                | with_reducible apply toCores_within (Sub.up hM rfl)
                | with_reducible apply endTask_within (Sub.up hM rfl)
                | (with_reducible apply Within.snd <;> [with_reducible assumption; skip])
                | (with_reducible apply Within.fst <;> [with_reducible assumption; skip])
                | (with_reducible apply Within.fst2 <;> [with_reducible assumption; skip])
                | split)
         | skip
       clear_value x)
    | lift_lets -underBinder
    | dsimp -zeta only
    | with_reducible apply Within.ite1
    | with_reducible apply Within.ite2
    | with_reducible apply Within.ite
    | with_reducible apply setSlot_within (Sub.up hM rfl)
    | with_reducible apply sendChain_within (Sub.up hM rfl)
    | with_reducible apply toCores_within (Sub.up hM rfl)
    | with_reducible apply endTask_within (Sub.up hM rfl)
    | (with_reducible apply Within.snd <;> [with_reducible assumption; skip])
    | (with_reducible apply Within.fst <;> [with_reducible assumption; skip])
    | (with_reducible apply Within.fst2 <;> [with_reducible assumption; skip])
    | split

end Sys2Proof.Machine
end

