-- ==== Sys2Proof/Laws/WithinAccum.lean ====
section
/-! SUPPORT. What the operations and commands of Machine/Accum can do to the state (Laws/Within). -/

namespace Sys2Proof.Machine

theorem execSendPass_within {M : Nat} {s0 : State} (hM : Sub 0x710000fdb M) (c : CoreId) (s : State) (hW : Within M s0 s) :
    ∃ u, execSendPass c s = .next u ∧ Within M s0 u := by
  unfold execSendPass
  refine ⟨_, rfl, ?_⟩
  repeat' first
    | with_reducible assumption
    | (intro x
       first
         | (have hx : Within M s0 x := by
              unfold x
              repeat' first
                | with_reducible assumption
                | dsimp -zeta only
                | with_reducible apply Within.ite1
                | with_reducible apply Within.ite2
                | with_reducible apply Within.ite
                | with_reducible apply setReg_within (Sub.up hM rfl)
                | with_reducible apply updCore_within (Sub.up hM rfl)
                | with_reducible apply readRecords_within (Sub.up hM rfl)
                | with_reducible apply flushSpill_within (Sub.up hM rfl)
                | with_reducible apply askOwners_within (Sub.up hM rfl)
                | with_reducible apply fillOutbox_within (Sub.up hM rfl)
                | with_reducible apply sendForeign_within (Sub.up hM rfl)
                | (with_reducible apply Within.snd <;> [with_reducible assumption; skip])
                | (with_reducible apply Within.fst <;> [with_reducible assumption; skip])
                | (with_reducible apply Within.fst2 <;> [with_reducible assumption; skip])
                | split)
         | (have hx : Within M s0 x.1 := by
              unfold x
              repeat' first
                | with_reducible assumption
                | dsimp -zeta only
                | with_reducible apply Within.ite1
                | with_reducible apply Within.ite2
                | with_reducible apply Within.ite
                | with_reducible apply setReg_within (Sub.up hM rfl)
                | with_reducible apply updCore_within (Sub.up hM rfl)
                | with_reducible apply readRecords_within (Sub.up hM rfl)
                | with_reducible apply flushSpill_within (Sub.up hM rfl)
                | with_reducible apply askOwners_within (Sub.up hM rfl)
                | with_reducible apply fillOutbox_within (Sub.up hM rfl)
                | with_reducible apply sendForeign_within (Sub.up hM rfl)
                | (with_reducible apply Within.snd <;> [with_reducible assumption; skip])
                | (with_reducible apply Within.fst <;> [with_reducible assumption; skip])
                | (with_reducible apply Within.fst2 <;> [with_reducible assumption; skip])
                | split)
         | (have hx : Within M s0 x.2 := by
              unfold x
              repeat' first
                | with_reducible assumption
                | dsimp -zeta only
                | with_reducible apply Within.ite1
                | with_reducible apply Within.ite2
                | with_reducible apply Within.ite
                | with_reducible apply setReg_within (Sub.up hM rfl)
                | with_reducible apply updCore_within (Sub.up hM rfl)
                | with_reducible apply readRecords_within (Sub.up hM rfl)
                | with_reducible apply flushSpill_within (Sub.up hM rfl)
                | with_reducible apply askOwners_within (Sub.up hM rfl)
                | with_reducible apply fillOutbox_within (Sub.up hM rfl)
                | with_reducible apply sendForeign_within (Sub.up hM rfl)
                | (with_reducible apply Within.snd <;> [with_reducible assumption; skip])
                | (with_reducible apply Within.fst <;> [with_reducible assumption; skip])
                | (with_reducible apply Within.fst2 <;> [with_reducible assumption; skip])
                | split)
         | skip
       clear_value x)
    | lift_lets -underBinder
    | dsimp -zeta only
    | with_reducible apply Within.ite1
    | with_reducible apply Within.ite2
    | with_reducible apply Within.ite
    | with_reducible apply setReg_within (Sub.up hM rfl)
    | with_reducible apply updCore_within (Sub.up hM rfl)
    | with_reducible apply readRecords_within (Sub.up hM rfl)
    | with_reducible apply flushSpill_within (Sub.up hM rfl)
    | with_reducible apply askOwners_within (Sub.up hM rfl)
    | with_reducible apply fillOutbox_within (Sub.up hM rfl)
    | with_reducible apply sendForeign_within (Sub.up hM rfl)
    | (with_reducible apply Within.snd <;> [with_reducible assumption; skip])
    | (with_reducible apply Within.fst <;> [with_reducible assumption; skip])
    | (with_reducible apply Within.fst2 <;> [with_reducible assumption; skip])
    | split

theorem execForeignAnnouncement_within {M : Nat} {s0 : State} (hM : Sub 0x100000011 M) (f : Frame) (c : CoreId) (chunk : BitVec 21) (rows : BitVec 32) (s : State) (hW : Within M s0 s) :
    ∃ u, execForeignAnnouncement f c chunk rows s = .next u ∧ Within M s0 u := by
  unfold execForeignAnnouncement
  refine ⟨_, rfl, ?_⟩
  repeat' first
    | with_reducible assumption
    | with_reducible apply Within.ite
    | with_reducible apply updCore_within (Sub.up hM rfl)
    | with_reducible refine onChain_within (Sub.up hM rfl) (fun _ _ => ?_) ?_

theorem execMergePassStart_within {M : Nat} {s0 : State} (hM : Sub 0x710000fdb M) (c : CoreId) (s : State) (hW : Within M s0 s) :
    ∃ u, execMergePassStart c s = .next u ∧ Within M s0 u := by
  unfold execMergePassStart
  refine ⟨_, rfl, ?_⟩
  repeat' first
    | with_reducible assumption
    | (intro x
       first
         | (have hx : Within M s0 x := by
              unfold x
              repeat' first
                | with_reducible assumption
                | dsimp -zeta only
                | with_reducible apply Within.ite1
                | with_reducible apply Within.ite2
                | with_reducible apply Within.ite
                | with_reducible apply mergeCount_within (Sub.up hM rfl)
                | with_reducible apply mergeGather_within (Sub.up hM rfl)
                | (with_reducible apply Within.snd <;> [with_reducible assumption; skip])
                | (with_reducible apply Within.fst <;> [with_reducible assumption; skip])
                | (with_reducible apply Within.fst2 <;> [with_reducible assumption; skip])
                | split)
         | (have hx : Within M s0 x.1 := by
              unfold x
              repeat' first
                | with_reducible assumption
                | dsimp -zeta only
                | with_reducible apply Within.ite1
                | with_reducible apply Within.ite2
                | with_reducible apply Within.ite
                | with_reducible apply mergeCount_within (Sub.up hM rfl)
                | with_reducible apply mergeGather_within (Sub.up hM rfl)
                | (with_reducible apply Within.snd <;> [with_reducible assumption; skip])
                | (with_reducible apply Within.fst <;> [with_reducible assumption; skip])
                | (with_reducible apply Within.fst2 <;> [with_reducible assumption; skip])
                | split)
         | (have hx : Within M s0 x.2 := by
              unfold x
              repeat' first
                | with_reducible assumption
                | dsimp -zeta only
                | with_reducible apply Within.ite1
                | with_reducible apply Within.ite2
                | with_reducible apply Within.ite
                | with_reducible apply mergeCount_within (Sub.up hM rfl)
                | with_reducible apply mergeGather_within (Sub.up hM rfl)
                | (with_reducible apply Within.snd <;> [with_reducible assumption; skip])
                | (with_reducible apply Within.fst <;> [with_reducible assumption; skip])
                | (with_reducible apply Within.fst2 <;> [with_reducible assumption; skip])
                | split)
         | skip
       clear_value x)
    | lift_lets -underBinder
    | dsimp -zeta only
    | with_reducible apply Within.ite1
    | with_reducible apply Within.ite2
    | with_reducible apply Within.ite
    | with_reducible apply mergeCount_within (Sub.up hM rfl)
    | with_reducible apply mergeGather_within (Sub.up hM rfl)
    | (with_reducible apply Within.snd <;> [with_reducible assumption; skip])
    | (with_reducible apply Within.fst <;> [with_reducible assumption; skip])
    | (with_reducible apply Within.fst2 <;> [with_reducible assumption; skip])
    | split

theorem auditNote_within {M : Nat} {s0 : State} (hM : Sub 0x2 M) (s : State) (a wi wm wt : Nat) (hW : Within M s0 s) : Within M s0 (auditNote s a wi wm wt) := by
  unfold auditNote
  repeat' first
    | with_reducible assumption
    | (intro x
       first
         | (have hx : Within M s0 x := by
              unfold x
              repeat' first
                | with_reducible assumption
                | with_reducible apply wr64_within (Sub.up hM rfl))
         | skip
       clear_value x)
    | lift_lets -underBinder
    | with_reducible apply wr64_within (Sub.up hM rfl)

theorem auditClose_within {M : Nat} {s0 : State} (hM : Sub 0x2 M) (s : State) (a w0 : Nat) (widened : Bool) (wi wm : Nat) (hW : Within M s0 s) : Within M s0 (auditClose s a w0 widened wi wm) := by
  unfold auditClose
  repeat' first
    | with_reducible assumption
    | (intro x
       first
         | (have hx : Within M s0 x := by
              unfold x
              repeat' first
                | with_reducible assumption
                | with_reducible apply wr64_within (Sub.up hM rfl))
         | skip
       clear_value x)
    | lift_lets -underBinder
    | with_reducible apply wr64_within (Sub.up hM rfl)

theorem countSaturated_within {M : Nat} {s0 : State} (hM : Sub 0x80 M) (s : State) (hW : Within M s0 s) : Within M s0 (countSaturated s) := by
  unfold countSaturated
  repeat' first
    | with_reducible assumption
    | with_reducible refine Within.hst ?_ (Sub.has hM rfl)

theorem applyAudit_within {M : Nat} {s0 : State} (hM : Sub 0x310000083 M) (s : State) (c strandN stateBase a tokens inactive misses missLimit window : Nat) (step max : F32) (hW : Within M s0 s) : Within M s0 (applyAudit s c strandN stateBase a tokens inactive misses missLimit window step max) := by
  unfold applyAudit
  repeat' first
    | with_reducible assumption
    | (intro x
       first
         | (have hx : Within M s0 x := by
              unfold x
              repeat' first
                | with_reducible assumption
                | with_reducible apply Within.ite
                | with_reducible apply bumpCore_within (Sub.up hM rfl)
                | with_reducible apply raise_within (Sub.up hM rfl)
                | with_reducible apply auditNote_within (Sub.up hM rfl)
                | with_reducible apply auditClose_within (Sub.up hM rfl)
                | with_reducible apply countSaturated_within (Sub.up hM rfl))
         | skip
       clear_value x)
    | lift_lets -underBinder
    | with_reducible apply Within.ite
    | with_reducible apply bumpCore_within (Sub.up hM rfl)
    | with_reducible apply raise_within (Sub.up hM rfl)
    | with_reducible apply auditNote_within (Sub.up hM rfl)
    | with_reducible apply auditClose_within (Sub.up hM rfl)
    | with_reducible apply countSaturated_within (Sub.up hM rfl)

theorem execAuditReport_within {M : Nat} {s0 : State} (hM : Sub 0x710000f8b M) (c : CoreId) (n : StrandId) (stateBase : BitVec 48) (tokens inactive misses : BitVec 32) (missLimit window : BitVec 16) (bandStep bandMax : F32) (s : State) (hW : Within M s0 s) :
    ∃ u, execAuditReport c n stateBase tokens inactive misses missLimit window bandStep bandMax s = .next u ∧ Within M s0 u := by
  unfold execAuditReport
  refine ⟨_, rfl, ?_⟩
  repeat' first
    | with_reducible assumption
    | (intro x
       first
         | (have hx : Within M s0 x := by
              unfold x
              repeat' first
                | with_reducible assumption
                | dsimp -zeta only
                | with_reducible apply Within.ite1
                | with_reducible apply Within.ite2
                | with_reducible apply Within.ite
                | with_reducible apply sliceWrite_within (Sub.up hM rfl)
                | with_reducible apply sliceRead_within (Sub.up hM rfl)
                | with_reducible apply applyAudit_within (Sub.up hM rfl)
                | (with_reducible apply Within.snd <;> [with_reducible assumption; skip])
                | (with_reducible apply Within.fst <;> [with_reducible assumption; skip])
                | (with_reducible apply Within.fst2 <;> [with_reducible assumption; skip])
                | split)
         | (have hx : Within M s0 x.1 := by
              unfold x
              repeat' first
                | with_reducible assumption
                | dsimp -zeta only
                | with_reducible apply Within.ite1
                | with_reducible apply Within.ite2
                | with_reducible apply Within.ite
                | with_reducible apply sliceWrite_within (Sub.up hM rfl)
                | with_reducible apply sliceRead_within (Sub.up hM rfl)
                | with_reducible apply applyAudit_within (Sub.up hM rfl)
                | (with_reducible apply Within.snd <;> [with_reducible assumption; skip])
                | (with_reducible apply Within.fst <;> [with_reducible assumption; skip])
                | (with_reducible apply Within.fst2 <;> [with_reducible assumption; skip])
                | split)
         | (have hx : Within M s0 x.2 := by
              unfold x
              repeat' first
                | with_reducible assumption
                | dsimp -zeta only
                | with_reducible apply Within.ite1
                | with_reducible apply Within.ite2
                | with_reducible apply Within.ite
                | with_reducible apply sliceWrite_within (Sub.up hM rfl)
                | with_reducible apply sliceRead_within (Sub.up hM rfl)
                | with_reducible apply applyAudit_within (Sub.up hM rfl)
                | (with_reducible apply Within.snd <;> [with_reducible assumption; skip])
                | (with_reducible apply Within.fst <;> [with_reducible assumption; skip])
                | (with_reducible apply Within.fst2 <;> [with_reducible assumption; skip])
                | split)
         | skip
       clear_value x)
    | lift_lets -underBinder
    | dsimp -zeta only
    | with_reducible apply Within.ite1
    | with_reducible apply Within.ite2
    | with_reducible apply Within.ite
    | with_reducible apply sliceWrite_within (Sub.up hM rfl)
    | with_reducible apply sliceRead_within (Sub.up hM rfl)
    | with_reducible apply applyAudit_within (Sub.up hM rfl)
    | (with_reducible apply Within.snd <;> [with_reducible assumption; skip])
    | (with_reducible apply Within.fst <;> [with_reducible assumption; skip])
    | (with_reducible apply Within.fst2 <;> [with_reducible assumption; skip])
    | split

theorem execFusedBandReady_within {M : Nat} {s0 : State} (hM : Sub 0x10 M) (c : CoreId) (s : State) (hW : Within M s0 s) :
    ∃ u, execFusedBandReady c s = .next u ∧ Within M s0 u := by
  unfold execFusedBandReady
  refine ⟨_, rfl, ?_⟩
  repeat' first
    | with_reducible assumption
    | with_reducible apply Within.ite
    | with_reducible apply updTask_within (Sub.up hM rfl)
    | (with_reducible apply Within.snd <;> [with_reducible assumption; skip])
    | (with_reducible apply Within.fst <;> [with_reducible assumption; skip])
    | (with_reducible apply Within.fst2 <;> [with_reducible assumption; skip])
    | split

end Sys2Proof.Machine
end

