-- ==== Sys2Proof/Laws/WithinSecOps.lean ====
section
/-! SUPPORT. What the operations and commands of Machine/SecOps can do to the state (Laws/Within). -/

namespace Sys2Proof.Machine

theorem mgtEvent_within {M : Nat} {s0 : State} (hM : Sub 0x310000081 M) (s : State) (code severity : Nat) (args : List Nat) (hW : Within M s0 s) : Within M s0 (mgtEvent s code severity args) := by
  unfold mgtEvent
  repeat' first
    | with_reducible assumption
    | with_reducible apply raise_within (Sub.up hM rfl)

theorem commitFw_within {M : Nat} {s0 : State} (hM : Sub 0x80000000 M) (s : State) (hW : Within M s0 s) : Within M s0 (commitFw s).2 := by
  unfold commitFw
  repeat' first
    | with_reducible assumption
    | dsimp -zeta only
    | with_reducible apply Within.ite2
    | with_reducible apply Within.ite
    | with_reducible refine Within.fold (fun _ _ _ => ?_) ?_
    | with_reducible refine Within.fold1 (fun _ _ _ => ?_) ?_
    | with_reducible refine Within.fold2 (fun _ _ _ => ?_) ?_
    | split
    | with_reducible refine Within.sec ?_ (Sub.has hM rfl)

theorem raiseCounter_within {M : Nat} {s0 : State} (hM : Sub 0x80000000 M) (s : State) (c v : Nat) (hW : Within M s0 s) : Within M s0 (raiseCounter s c v) := by
  unfold raiseCounter
  repeat' first
    | with_reducible assumption
    | with_reducible refine Within.sec ?_ (Sub.has hM rfl)

theorem endBurn_within {M : Nat} {s0 : State} (hM : Sub 0x390000081 M) (s : State) (hW : Within M s0 s) : Within M s0 (endBurn s) := by
  unfold endBurn
  repeat' first
    | with_reducible assumption
    | (intro x
       first
         | (have hx : Within M s0 x := by
              unfold x
              repeat' first
                | with_reducible assumption
                | with_reducible apply Within.ite
                | with_reducible apply mgtEvent_within (Sub.up hM rfl)
                | with_reducible apply raiseCounter_within (Sub.up hM rfl)
                | with_reducible refine each_within (fun _ _ _ => ?_) ?_
                | with_reducible refine Within.sec ?_ (Sub.has hM rfl))
         | skip
       clear_value x)
    | lift_lets -underBinder
    | with_reducible apply Within.ite
    | with_reducible apply mgtEvent_within (Sub.up hM rfl)
    | with_reducible apply raiseCounter_within (Sub.up hM rfl)
    | with_reducible refine each_within (fun _ _ _ => ?_) ?_
    | with_reducible refine Within.sec ?_ (Sub.has hM rfl)

theorem breakBurn_within {M : Nat} {s0 : State} (hM : Sub 0x480000000 M) (s : State) (hW : Within M s0 s) : Within M s0 (breakBurn s) := by
  unfold breakBurn
  repeat' first
    | with_reducible assumption
    | (intro x
       first
         | (have hx : Within M s0 x := by
              unfold x
              repeat' first
                | with_reducible assumption
                | with_reducible apply Within.ite
                | with_reducible apply freshFree_within (Sub.up hM rfl)
                | with_reducible apply raiseCounter_within (Sub.up hM rfl)
                | with_reducible refine each_within (fun _ _ _ => ?_) ?_
                | (with_reducible apply Within.snd <;> [with_reducible assumption; skip])
                | (with_reducible apply Within.fst <;> [with_reducible assumption; skip])
                | (with_reducible apply Within.fst2 <;> [with_reducible assumption; skip])
                | with_reducible refine Within.sec ?_ (Sub.has hM rfl))
         | (have hx : Within M s0 x.1 := by
              unfold x
              repeat' first
                | with_reducible assumption
                | with_reducible apply Within.ite
                | with_reducible apply freshFree_within (Sub.up hM rfl)
                | with_reducible apply raiseCounter_within (Sub.up hM rfl)
                | with_reducible refine each_within (fun _ _ _ => ?_) ?_
                | (with_reducible apply Within.snd <;> [with_reducible assumption; skip])
                | (with_reducible apply Within.fst <;> [with_reducible assumption; skip])
                | (with_reducible apply Within.fst2 <;> [with_reducible assumption; skip])
                | with_reducible refine Within.sec ?_ (Sub.has hM rfl))
         | (have hx : Within M s0 x.2 := by
              unfold x
              repeat' first
                | with_reducible assumption
                | with_reducible apply Within.ite
                | with_reducible apply freshFree_within (Sub.up hM rfl)
                | with_reducible apply raiseCounter_within (Sub.up hM rfl)
                | with_reducible refine each_within (fun _ _ _ => ?_) ?_
                | (with_reducible apply Within.snd <;> [with_reducible assumption; skip])
                | (with_reducible apply Within.fst <;> [with_reducible assumption; skip])
                | (with_reducible apply Within.fst2 <;> [with_reducible assumption; skip])
                | with_reducible refine Within.sec ?_ (Sub.has hM rfl))
         | skip
       clear_value x)
    | lift_lets -underBinder
    | with_reducible apply Within.ite
    | with_reducible apply freshFree_within (Sub.up hM rfl)
    | with_reducible apply raiseCounter_within (Sub.up hM rfl)
    | with_reducible refine each_within (fun _ _ _ => ?_) ?_
    | (with_reducible apply Within.snd <;> [with_reducible assumption; skip])
    | (with_reducible apply Within.fst <;> [with_reducible assumption; skip])
    | (with_reducible apply Within.fst2 <;> [with_reducible assumption; skip])
    | with_reducible refine Within.sec ?_ (Sub.has hM rfl)

theorem transferBytes_within {M : Nat} {s0 : State} (hM : Sub 0x80000000 M) (s : State) (path off len : Nat) (last : Bool) (images : List ImageCheck) (hW : Within M s0 s) : Within M s0 (transferBytes s path off len last images).2 := by
  unfold transferBytes
  repeat' first
    | with_reducible assumption
    | (intro x
       first
         | (have hx : Within M s0 x := by
              unfold x
              repeat' first
                | with_reducible assumption
                | with_reducible apply hfa
                | with_reducible apply hfb
                | with_reducible apply hfc
                | with_reducible apply hfd
                | with_reducible apply hfe
                | dsimp -zeta only
                | with_reducible apply Within.ite2
                | with_reducible apply Within.ite
                | (with_reducible apply Within.snd <;> [with_reducible assumption; skip])
                | (with_reducible apply Within.fst <;> [with_reducible assumption; skip])
                | (with_reducible apply Within.fst2 <;> [with_reducible assumption; skip])
                | split
                | with_reducible refine Within.sec ?_ (Sub.has hM rfl))
         | (have hfa : ∀ t, Within M s0 t → Within M s0 (x t) := by
              intro t ht; unfold x
              repeat' first
                | with_reducible assumption
                | with_reducible apply hfa
                | with_reducible apply hfb
                | with_reducible apply hfc
                | with_reducible apply hfd
                | with_reducible apply hfe
                | dsimp -zeta only
                | with_reducible apply Within.ite2
                | with_reducible apply Within.ite
                | (with_reducible apply Within.snd <;> [with_reducible assumption; skip])
                | (with_reducible apply Within.fst <;> [with_reducible assumption; skip])
                | (with_reducible apply Within.fst2 <;> [with_reducible assumption; skip])
                | split
                | with_reducible refine Within.sec ?_ (Sub.has hM rfl))
         | (have hfb : ∀ t a, Within M s0 t → Within M s0 (x t a) := by
              intro t a ht; unfold x
              repeat' first
                | with_reducible assumption
                | with_reducible apply hfa
                | with_reducible apply hfb
                | with_reducible apply hfc
                | with_reducible apply hfd
                | with_reducible apply hfe
                | dsimp -zeta only
                | with_reducible apply Within.ite2
                | with_reducible apply Within.ite
                | (with_reducible apply Within.snd <;> [with_reducible assumption; skip])
                | (with_reducible apply Within.fst <;> [with_reducible assumption; skip])
                | (with_reducible apply Within.fst2 <;> [with_reducible assumption; skip])
                | split
                | with_reducible refine Within.sec ?_ (Sub.has hM rfl))
         | (have hfc : ∀ t a b, Within M s0 t → Within M s0 (x t a b) := by
              intro t a b ht; unfold x
              repeat' first
                | with_reducible assumption
                | with_reducible apply hfa
                | with_reducible apply hfb
                | with_reducible apply hfc
                | with_reducible apply hfd
                | with_reducible apply hfe
                | dsimp -zeta only
                | with_reducible apply Within.ite2
                | with_reducible apply Within.ite
                | (with_reducible apply Within.snd <;> [with_reducible assumption; skip])
                | (with_reducible apply Within.fst <;> [with_reducible assumption; skip])
                | (with_reducible apply Within.fst2 <;> [with_reducible assumption; skip])
                | split
                | with_reducible refine Within.sec ?_ (Sub.has hM rfl))
         | (have hfd : ∀ t, Within M s0 t → Within M s0 (x t).1 := by
              intro t ht; unfold x
              repeat' first
                | with_reducible assumption
                | with_reducible apply hfa
                | with_reducible apply hfb
                | with_reducible apply hfc
                | with_reducible apply hfd
                | with_reducible apply hfe
                | dsimp -zeta only
                | with_reducible apply Within.ite2
                | with_reducible apply Within.ite
                | (with_reducible apply Within.snd <;> [with_reducible assumption; skip])
                | (with_reducible apply Within.fst <;> [with_reducible assumption; skip])
                | (with_reducible apply Within.fst2 <;> [with_reducible assumption; skip])
                | split
                | with_reducible refine Within.sec ?_ (Sub.has hM rfl))
         | (have hfe : ∀ t, Within M s0 t → Within M s0 (x t).2 := by
              intro t ht; unfold x
              repeat' first
                | with_reducible assumption
                | with_reducible apply hfa
                | with_reducible apply hfb
                | with_reducible apply hfc
                | with_reducible apply hfd
                | with_reducible apply hfe
                | dsimp -zeta only
                | with_reducible apply Within.ite2
                | with_reducible apply Within.ite
                | (with_reducible apply Within.snd <;> [with_reducible assumption; skip])
                | (with_reducible apply Within.fst <;> [with_reducible assumption; skip])
                | (with_reducible apply Within.fst2 <;> [with_reducible assumption; skip])
                | split
                | with_reducible refine Within.sec ?_ (Sub.has hM rfl))
         | (have hx : Within M s0 x.1 := by
              unfold x
              repeat' first
                | with_reducible assumption
                | with_reducible apply hfa
                | with_reducible apply hfb
                | with_reducible apply hfc
                | with_reducible apply hfd
                | with_reducible apply hfe
                | dsimp -zeta only
                | with_reducible apply Within.ite2
                | with_reducible apply Within.ite
                | (with_reducible apply Within.snd <;> [with_reducible assumption; skip])
                | (with_reducible apply Within.fst <;> [with_reducible assumption; skip])
                | (with_reducible apply Within.fst2 <;> [with_reducible assumption; skip])
                | split
                | with_reducible refine Within.sec ?_ (Sub.has hM rfl))
         | (have hx : Within M s0 x.2 := by
              unfold x
              repeat' first
                | with_reducible assumption
                | with_reducible apply hfa
                | with_reducible apply hfb
                | with_reducible apply hfc
                | with_reducible apply hfd
                | with_reducible apply hfe
                | dsimp -zeta only
                | with_reducible apply Within.ite2
                | with_reducible apply Within.ite
                | (with_reducible apply Within.snd <;> [with_reducible assumption; skip])
                | (with_reducible apply Within.fst <;> [with_reducible assumption; skip])
                | (with_reducible apply Within.fst2 <;> [with_reducible assumption; skip])
                | split
                | with_reducible refine Within.sec ?_ (Sub.has hM rfl))
         | skip
       clear_value x)
    | lift_lets -underBinder
    | with_reducible apply hfa
    | with_reducible apply hfb
    | with_reducible apply hfc
    | with_reducible apply hfd
    | with_reducible apply hfe
    | dsimp -zeta only
    | with_reducible apply Within.ite2
    | with_reducible apply Within.ite
    | (with_reducible apply Within.snd <;> [with_reducible assumption; skip])
    | (with_reducible apply Within.fst <;> [with_reducible assumption; skip])
    | (with_reducible apply Within.fst2 <;> [with_reducible assumption; skip])
    | split
    | with_reducible refine Within.sec ?_ (Sub.has hM rfl)

theorem activateBank_within {M : Nat} {s0 : State} (hM : Sub 0x80000000 M) (s : State) (hW : Within M s0 s) : Within M s0 (activateBank s).2 := by
  unfold activateBank
  repeat' first
    | with_reducible assumption
    | dsimp -zeta only
    | with_reducible apply Within.ite2
    | with_reducible apply Within.ite
    | split
    | with_reducible refine Within.sec ?_ (Sub.has hM rfl)

theorem selectTmux_within {M : Nat} {s0 : State} (hM : Sub 0x80000000 M) (s : State) (w : Nat) (dictionary : Bool) (hW : Within M s0 s) : Within M s0 (selectTmux s w dictionary).2 := by
  unfold selectTmux
  repeat' first
    | with_reducible assumption
    | (intro x
       first
         | (have hx : Within M s0 x := by
              unfold x
              repeat' first
                | with_reducible assumption
                | dsimp -zeta only
                | with_reducible apply Within.ite2
                | with_reducible apply Within.ite
                | with_reducible refine Within.fold (fun _ _ _ => ?_) ?_
                | with_reducible refine Within.fold1 (fun _ _ _ => ?_) ?_
                | with_reducible refine Within.fold2 (fun _ _ _ => ?_) ?_
                | split
                | with_reducible refine Within.sec ?_ (Sub.has hM rfl))
         | (have hx : Within M s0 x.1 := by
              unfold x
              repeat' first
                | with_reducible assumption
                | dsimp -zeta only
                | with_reducible apply Within.ite2
                | with_reducible apply Within.ite
                | with_reducible refine Within.fold (fun _ _ _ => ?_) ?_
                | with_reducible refine Within.fold1 (fun _ _ _ => ?_) ?_
                | with_reducible refine Within.fold2 (fun _ _ _ => ?_) ?_
                | split
                | with_reducible refine Within.sec ?_ (Sub.has hM rfl))
         | (have hx : Within M s0 x.2 := by
              unfold x
              repeat' first
                | with_reducible assumption
                | dsimp -zeta only
                | with_reducible apply Within.ite2
                | with_reducible apply Within.ite
                | with_reducible refine Within.fold (fun _ _ _ => ?_) ?_
                | with_reducible refine Within.fold1 (fun _ _ _ => ?_) ?_
                | with_reducible refine Within.fold2 (fun _ _ _ => ?_) ?_
                | split
                | with_reducible refine Within.sec ?_ (Sub.has hM rfl))
         | skip
       clear_value x)
    | lift_lets -underBinder
    | dsimp -zeta only
    | with_reducible apply Within.ite2
    | with_reducible apply Within.ite
    | with_reducible refine Within.fold (fun _ _ _ => ?_) ?_
    | with_reducible refine Within.fold1 (fun _ _ _ => ?_) ?_
    | with_reducible refine Within.fold2 (fun _ _ _ => ?_) ?_
    | split
    | with_reducible refine Within.sec ?_ (Sub.has hM rfl)

theorem newNonce_within {M : Nat} {s0 : State} (hM : Sub 0x480000000 M) (s : State) (h : Within M s0 s) : Within M s0 (newNonce s).2 := by
  refine .sec (Within.fold2 (fun t _ ht => ?_) h) (Sub.has hM rfl)
  exact freshFree_within (Sub.up hM rfl) t.2 ht

theorem refuseUnlock_within {M : Nat} {s0 : State} (hM : Sub 0x390000081 M) (s : State) (hW : Within M s0 s) : Within M s0 (refuseUnlock s).2 := by
  unfold refuseUnlock
  repeat' first
    | with_reducible assumption
    | dsimp -zeta only
    | with_reducible apply Within.ite2
    | with_reducible apply mgtEvent_within (Sub.up hM rfl)
    | with_reducible refine Within.sec ?_ (Sub.has hM rfl)

theorem unlockTry_within {M : Nat} {s0 : State} (hM : Sub 0x390000081 M) (s : State) (nonce : List Byte) (serial level duration : Nat) (signaturesOk : Bool) (hW : Within M s0 s) : Within M s0 (unlockTry s nonce serial level duration signaturesOk).2 := by
  unfold unlockTry
  repeat' first
    | with_reducible assumption
    | dsimp -zeta only
    | with_reducible apply Within.ite2
    | with_reducible apply Within.ite
    | with_reducible apply mgtEvent_within (Sub.up hM rfl)
    | with_reducible apply refuseUnlock_within (Sub.up hM rfl)
    | (with_reducible apply Within.snd <;> [with_reducible assumption; skip])
    | (with_reducible apply Within.fst <;> [with_reducible assumption; skip])
    | (with_reducible apply Within.fst2 <;> [with_reducible assumption; skip])
    | split
    | with_reducible refine Within.sec ?_ (Sub.has hM rfl)

theorem unlockOctets_within {M : Nat} {s0 : State} (hM : Sub 0x390000081 M) (s : State) (v : List Byte) (hW : Within M s0 s) : Within M s0 (unlockOctets s v).2 := by
  unfold unlockOctets
  repeat' first
    | with_reducible assumption
    | dsimp -zeta only
    | with_reducible apply Within.ite2
    | with_reducible apply unlockTry_within (Sub.up hM rfl)
    | (with_reducible apply Within.snd <;> [with_reducible assumption; skip])
    | (with_reducible apply Within.fst <;> [with_reducible assumption; skip])
    | (with_reducible apply Within.fst2 <;> [with_reducible assumption; skip])

theorem endUnlock_within {M : Nat} {s0 : State} (hM : Sub 0x390000081 M) (s : State) (hW : Within M s0 s) : Within M s0 (endUnlock s) := by
  unfold endUnlock
  repeat' first
    | with_reducible assumption
    | with_reducible apply Within.ite
    | with_reducible apply mgtEvent_within (Sub.up hM rfl)
    | with_reducible refine Within.fold (fun _ _ _ => ?_) ?_
    | with_reducible refine Within.fold1 (fun _ _ _ => ?_) ?_
    | with_reducible refine Within.fold2 (fun _ _ _ => ?_) ?_
    | with_reducible refine Within.sec ?_ (Sub.has hM rfl)

theorem checkIdentity_within {M : Nat} {s0 : State} (hM : Sub 0x390000081 M) (s : State) (hW : Within M s0 s) : Within M s0 (checkIdentity s) := by
  unfold checkIdentity
  repeat' first
    | with_reducible assumption
    | with_reducible apply Within.ite
    | with_reducible apply mgtEvent_within (Sub.up hM rfl)
    | with_reducible refine Within.sec ?_ (Sub.has hM rfl)

theorem newAlias_within {M : Nat} {s0 : State} (hM : Sub 0x390000081 M) (s : State) (hW : Within M s0 s) : Within M s0 (newAlias s) := by
  unfold newAlias
  repeat' first
    | with_reducible assumption
    | with_reducible apply Within.ite
    | with_reducible apply checkIdentity_within (Sub.up hM rfl)
    | with_reducible refine Within.sec ?_ (Sub.has hM rfl)

end Sys2Proof.Machine
end

