-- ==== Sys2Proof/Laws/WithinBackground.lean ====
section
/-! SUPPORT. What the operations and commands of Machine/Background can do to the state (Laws/Within). -/

namespace Sys2Proof.Machine

theorem bgInstance_within {M : Nat} {s0 : State} (hM : Sub 0x330000081 M) (b s : State) (uses : List BgUse) (a i : Nat) (hW : Within M s0 s) : Within M s0 (bgInstance b s uses a i) := by
  unfold bgInstance
  repeat' first
    | with_reducible assumption
    | (intro x
       first
         | (have hx : Within M s0 x := by
              unfold x
              repeat' first
                | with_reducible assumption
                | dsimp -zeta only
                | with_reducible apply Within.ite1
                | with_reducible apply Within.ite2
                | with_reducible apply Within.ite
                | with_reducible apply mgtEvent_within (Sub.up hM rfl)
                | (with_reducible apply Within.snd <;> [with_reducible assumption; skip])
                | (with_reducible apply Within.fst <;> [with_reducible assumption; skip])
                | (with_reducible apply Within.fst2 <;> [with_reducible assumption; skip])
                | split
                | with_reducible refine Within.bg ?_ (Sub.has hM rfl))
         | (have hx : Within M s0 x.1 := by
              unfold x
              repeat' first
                | with_reducible assumption
                | dsimp -zeta only
                | with_reducible apply Within.ite1
                | with_reducible apply Within.ite2
                | with_reducible apply Within.ite
                | with_reducible apply mgtEvent_within (Sub.up hM rfl)
                | (with_reducible apply Within.snd <;> [with_reducible assumption; skip])
                | (with_reducible apply Within.fst <;> [with_reducible assumption; skip])
                | (with_reducible apply Within.fst2 <;> [with_reducible assumption; skip])
                | split
                | with_reducible refine Within.bg ?_ (Sub.has hM rfl))
         | (have hx : Within M s0 x.2 := by
              unfold x
              repeat' first
                | with_reducible assumption
                | dsimp -zeta only
                | with_reducible apply Within.ite1
                | with_reducible apply Within.ite2
                | with_reducible apply Within.ite
                | with_reducible apply mgtEvent_within (Sub.up hM rfl)
                | (with_reducible apply Within.snd <;> [with_reducible assumption; skip])
                | (with_reducible apply Within.fst <;> [with_reducible assumption; skip])
                | (with_reducible apply Within.fst2 <;> [with_reducible assumption; skip])
                | split
                | with_reducible refine Within.bg ?_ (Sub.has hM rfl))
         | skip
       clear_value x)
    | lift_lets -underBinder
    | dsimp -zeta only
    | with_reducible apply Within.ite1
    | with_reducible apply Within.ite2
    | with_reducible apply Within.ite
    | with_reducible apply mgtEvent_within (Sub.up hM rfl)
    | (with_reducible apply Within.snd <;> [with_reducible assumption; skip])
    | (with_reducible apply Within.fst <;> [with_reducible assumption; skip])
    | (with_reducible apply Within.fst2 <;> [with_reducible assumption; skip])
    | split
    | with_reducible refine Within.bg ?_ (Sub.has hM rfl)

theorem execBackgroundPeriod_within {M : Nat} {s0 : State} (hM : Sub 0x330000081 M) (uses : List BgUse) (s : State) (hW : Within M s0 s) :
    ∃ u, execBackgroundPeriod uses s = .next u ∧ Within M s0 u := by
  unfold execBackgroundPeriod
  refine ⟨_, rfl, ?_⟩
  repeat' first
    | with_reducible assumption
    | (intro x
       first
         | (have hx : Within M s0 x := by
              unfold x
              repeat' first
                | with_reducible assumption
                | dsimp -zeta only
                | with_reducible apply Within.ite1
                | with_reducible apply Within.ite2
                | with_reducible apply Within.ite
                | with_reducible apply bgInstance_within (Sub.up hM rfl)
                | with_reducible refine each_within (fun _ _ _ => ?_) ?_
                | (with_reducible apply Within.snd <;> [with_reducible assumption; skip])
                | (with_reducible apply Within.fst <;> [with_reducible assumption; skip])
                | (with_reducible apply Within.fst2 <;> [with_reducible assumption; skip])
                | split
                | with_reducible refine Within.bg ?_ (Sub.has hM rfl))
         | (have hx : Within M s0 x.1 := by
              unfold x
              repeat' first
                | with_reducible assumption
                | dsimp -zeta only
                | with_reducible apply Within.ite1
                | with_reducible apply Within.ite2
                | with_reducible apply Within.ite
                | with_reducible apply bgInstance_within (Sub.up hM rfl)
                | with_reducible refine each_within (fun _ _ _ => ?_) ?_
                | (with_reducible apply Within.snd <;> [with_reducible assumption; skip])
                | (with_reducible apply Within.fst <;> [with_reducible assumption; skip])
                | (with_reducible apply Within.fst2 <;> [with_reducible assumption; skip])
                | split
                | with_reducible refine Within.bg ?_ (Sub.has hM rfl))
         | (have hx : Within M s0 x.2 := by
              unfold x
              repeat' first
                | with_reducible assumption
                | dsimp -zeta only
                | with_reducible apply Within.ite1
                | with_reducible apply Within.ite2
                | with_reducible apply Within.ite
                | with_reducible apply bgInstance_within (Sub.up hM rfl)
                | with_reducible refine each_within (fun _ _ _ => ?_) ?_
                | (with_reducible apply Within.snd <;> [with_reducible assumption; skip])
                | (with_reducible apply Within.fst <;> [with_reducible assumption; skip])
                | (with_reducible apply Within.fst2 <;> [with_reducible assumption; skip])
                | split
                | with_reducible refine Within.bg ?_ (Sub.has hM rfl))
         | skip
       clear_value x)
    | lift_lets -underBinder
    | dsimp -zeta only
    | with_reducible apply Within.ite1
    | with_reducible apply Within.ite2
    | with_reducible apply Within.ite
    | with_reducible apply bgInstance_within (Sub.up hM rfl)
    | with_reducible refine each_within (fun _ _ _ => ?_) ?_
    | (with_reducible apply Within.snd <;> [with_reducible assumption; skip])
    | (with_reducible apply Within.fst <;> [with_reducible assumption; skip])
    | (with_reducible apply Within.fst2 <;> [with_reducible assumption; skip])
    | split
    | with_reducible refine Within.bg ?_ (Sub.has hM rfl)

theorem execAgingMonitorSweep_within {M : Nat} {s0 : State} (hM : Sub 0x8000000 M) (c : CoreId) (s : State) (hW : Within M s0 s) :
    ∃ u, execAgingMonitorSweep c s = .next u ∧ Within M s0 u := by
  unfold execAgingMonitorSweep
  refine ⟨_, rfl, ?_⟩
  repeat' first
    | with_reducible assumption
    | with_reducible apply Within.ite
    | with_reducible refine Within.wear ?_ (Sub.has hM rfl)

theorem execEyeMonitorScan_within {M : Nat} {s0 : State} (hM : Sub 0x801 M) (p : PortId) (lane : Fin 8) (margin : BitVec 16) (s : State) (hW : Within M s0 s) :
    ∃ u, execEyeMonitorScan p lane margin s = .next u ∧ Within M s0 u := by
  unfold execEyeMonitorScan
  refine ⟨_, rfl, ?_⟩
  repeat' first
    | with_reducible assumption
    | (intro x
       first
         | (have hx : Within M s0 x := by
              unfold x
              repeat' first
                | with_reducible assumption
                | with_reducible apply Within.ite
                | with_reducible apply setReg_within (Sub.up hM rfl)
                | with_reducible apply updPort_within (Sub.up hM rfl)
                | with_reducible refine Within.fold (fun _ _ _ => ?_) ?_
                | with_reducible refine Within.fold1 (fun _ _ _ => ?_) ?_
                | with_reducible refine Within.fold2 (fun _ _ _ => ?_) ?_)
         | skip
       clear_value x)
    | lift_lets -underBinder
    | with_reducible apply Within.ite
    | with_reducible apply setReg_within (Sub.up hM rfl)
    | with_reducible apply updPort_within (Sub.up hM rfl)
    | with_reducible refine Within.fold (fun _ _ _ => ?_) ?_
    | with_reducible refine Within.fold1 (fun _ _ _ => ?_) ?_
    | with_reducible refine Within.fold2 (fun _ _ _ => ?_) ?_

theorem execMramWearLevel_within {M : Nat} {s0 : State} (hM : Sub 0x8000000 M) (block : Fin 4096) (s : State) (hW : Within M s0 s) :
    ∃ u, execMramWearLevel block s = .next u ∧ Within M s0 u := by
  unfold execMramWearLevel
  refine ⟨_, rfl, ?_⟩
  repeat' first
    | with_reducible assumption
    | with_reducible apply Within.ite
    | with_reducible refine Within.wear ?_ (Sub.has hM rfl)

theorem execTelemetrySample_within {M : Nat} {s0 : State} (hM : Sub 0x40000000 M) (sampled : Bool) (s : State) (hW : Within M s0 s) :
    ∃ u, execTelemetrySample sampled s = .next u ∧ Within M s0 u := by
  unfold execTelemetrySample
  refine ⟨_, rfl, ?_⟩
  repeat' first
    | with_reducible assumption
    | with_reducible apply Within.ite
    | with_reducible refine Within.sat ?_ (Sub.has hM rfl)

theorem execSaturationSubperiod_within {M : Nat} {s0 : State} (hM : Sub 0x40000000 M) (measures : List Measure) (s : State) (hW : Within M s0 s) :
    ∃ u, execSaturationSubperiod measures s = .next u ∧ Within M s0 u := by
  unfold execSaturationSubperiod
  refine ⟨_, rfl, ?_⟩
  repeat' first
    | with_reducible assumption
    | (intro x
       first
         | (have hx : Within M s0 x := by
              unfold x
              repeat' first
                | with_reducible assumption
                | dsimp -zeta only
                | with_reducible apply Within.ite1
                | with_reducible apply Within.ite2
                | with_reducible apply Within.ite
                | (with_reducible apply Within.snd <;> [with_reducible assumption; skip])
                | (with_reducible apply Within.fst <;> [with_reducible assumption; skip])
                | (with_reducible apply Within.fst2 <;> [with_reducible assumption; skip])
                | split
                | with_reducible refine Within.sat ?_ (Sub.has hM rfl))
         | (have hx : Within M s0 x.1 := by
              unfold x
              repeat' first
                | with_reducible assumption
                | dsimp -zeta only
                | with_reducible apply Within.ite1
                | with_reducible apply Within.ite2
                | with_reducible apply Within.ite
                | (with_reducible apply Within.snd <;> [with_reducible assumption; skip])
                | (with_reducible apply Within.fst <;> [with_reducible assumption; skip])
                | (with_reducible apply Within.fst2 <;> [with_reducible assumption; skip])
                | split
                | with_reducible refine Within.sat ?_ (Sub.has hM rfl))
         | (have hx : Within M s0 x.2 := by
              unfold x
              repeat' first
                | with_reducible assumption
                | dsimp -zeta only
                | with_reducible apply Within.ite1
                | with_reducible apply Within.ite2
                | with_reducible apply Within.ite
                | (with_reducible apply Within.snd <;> [with_reducible assumption; skip])
                | (with_reducible apply Within.fst <;> [with_reducible assumption; skip])
                | (with_reducible apply Within.fst2 <;> [with_reducible assumption; skip])
                | split
                | with_reducible refine Within.sat ?_ (Sub.has hM rfl))
         | skip
       clear_value x)
    | lift_lets -underBinder
    | dsimp -zeta only
    | with_reducible apply Within.ite1
    | with_reducible apply Within.ite2
    | with_reducible apply Within.ite
    | (with_reducible apply Within.snd <;> [with_reducible assumption; skip])
    | (with_reducible apply Within.fst <;> [with_reducible assumption; skip])
    | (with_reducible apply Within.fst2 <;> [with_reducible assumption; skip])
    | split
    | with_reducible refine Within.sat ?_ (Sub.has hM rfl)

theorem execSaturationWindowEnd_within {M : Nat} {s0 : State} (hM : Sub 0x350000181 M) (s : State) (hW : Within M s0 s) :
    ∃ u, execSaturationWindowEnd s = .next u ∧ Within M s0 u := by
  unfold execSaturationWindowEnd
  refine ⟨_, rfl, ?_⟩
  repeat' first
    | with_reducible assumption
    | (intro x
       first
         | (have hx : Within M s0 x := by
              unfold x
              repeat' first
                | with_reducible assumption
                | with_reducible apply Within.ite
                | with_reducible apply mgtEvent_within (Sub.up hM rfl)
                | with_reducible refine Within.setSatCache ?_ (Sub.has hM rfl) (Sub.has hM rfl)
                | with_reducible refine Within.cache ?_ (Sub.has hM rfl)
                | with_reducible refine Within.sat ?_ (Sub.has hM rfl))
         | skip
       clear_value x)
    | lift_lets -underBinder
    | with_reducible apply Within.ite
    | with_reducible apply mgtEvent_within (Sub.up hM rfl)
    | with_reducible refine Within.setSatCache ?_ (Sub.has hM rfl) (Sub.has hM rfl)
    | with_reducible refine Within.cache ?_ (Sub.has hM rfl)
    | with_reducible refine Within.sat ?_ (Sub.has hM rfl)

end Sys2Proof.Machine
end

