-- ==== Sys2Proof/Laws/WithinChain.lean ====
section
/-! SUPPORT. What the operations and commands of Machine/Chain can do to the state (Laws/Within). -/

namespace Sys2Proof.Machine

theorem execChainAck_within {M : Nat} {s0 : State} (hM : Sub 0x100000000 M) (die peer : DieId) (seq : Fin 1024) (s : State) (hW : Within M s0 s) :
    ∃ u, execChainAck die peer seq s = .next u ∧ Within M s0 u := by
  unfold execChainAck
  refine ⟨_, rfl, ?_⟩
  repeat' first
    | with_reducible assumption
    | with_reducible refine Within.net ?_ (Sub.has hM rfl)

theorem execChainResendTimeout_within {M : Nat} {s0 : State} (hM : Sub 0x100000000 M) (src dst : DieId) (seq : Fin 1024) (s : State) (hW : Within M s0 s) :
    ∃ u, execChainResendTimeout src dst seq s = .next u ∧ Within M s0 u := by
  unfold execChainResendTimeout
  refine ⟨_, rfl, ?_⟩
  repeat' first
    | with_reducible assumption
    | (intro x
       first
         | (have hx : Within M s0 x := by
              unfold x
              repeat' first
                | with_reducible assumption
                | dsimp -zeta only
                | with_reducible apply Within.ite1
                | with_reducible apply Within.ite2
                | with_reducible apply Within.ite
                | (with_reducible apply Within.snd <;> [with_reducible assumption; skip])
                | (with_reducible apply Within.fst <;> [with_reducible assumption; skip])
                | (with_reducible apply Within.fst2 <;> [with_reducible assumption; skip])
                | split
                | with_reducible refine Within.net ?_ (Sub.has hM rfl))
         | (have hx : Within M s0 x.1 := by
              unfold x
              repeat' first
                | with_reducible assumption
                | dsimp -zeta only
                | with_reducible apply Within.ite1
                | with_reducible apply Within.ite2
                | with_reducible apply Within.ite
                | (with_reducible apply Within.snd <;> [with_reducible assumption; skip])
                | (with_reducible apply Within.fst <;> [with_reducible assumption; skip])
                | (with_reducible apply Within.fst2 <;> [with_reducible assumption; skip])
                | split
                | with_reducible refine Within.net ?_ (Sub.has hM rfl))
         | (have hx : Within M s0 x.2 := by
              unfold x
              repeat' first
                | with_reducible assumption
                | dsimp -zeta only
                | with_reducible apply Within.ite1
                | with_reducible apply Within.ite2
                | with_reducible apply Within.ite
                | (with_reducible apply Within.snd <;> [with_reducible assumption; skip])
                | (with_reducible apply Within.fst <;> [with_reducible assumption; skip])
                | (with_reducible apply Within.fst2 <;> [with_reducible assumption; skip])
                | split
                | with_reducible refine Within.net ?_ (Sub.has hM rfl))
         | skip
       clear_value x)
    | lift_lets -underBinder
    | dsimp -zeta only
    | with_reducible apply Within.ite1
    | with_reducible apply Within.ite2
    | with_reducible apply Within.ite
    | (with_reducible apply Within.snd <;> [with_reducible assumption; skip])
    | (with_reducible apply Within.fst <;> [with_reducible assumption; skip])
    | (with_reducible apply Within.fst2 <;> [with_reducible assumption; skip])
    | split
    | with_reducible refine Within.net ?_ (Sub.has hM rfl)

theorem execReservedChainMessage_within {M : Nat} {s0 : State} (hM : Sub 0x100000001 M) (f : Frame) (die : DieId) (type : BitVec 6) (s : State) (hW : Within M s0 s) :
    ∃ u, execReservedChainMessage f die type s = .next u ∧ Within M s0 u := by
  unfold execReservedChainMessage
  refine ⟨_, rfl, ?_⟩
  repeat' first
    | with_reducible assumption
    | with_reducible apply Within.ite
    | with_reducible apply bump_within (Sub.up hM rfl)
    | with_reducible refine onChain_within (Sub.up hM rfl) (fun _ _ => ?_) ?_

theorem execConfigWrite_within {M : Nat} {s0 : State} (hM : Sub 0x110000001 M) (f : Frame) (die : DieId) (index : BitVec 16) (sub : Byte) (part : BitVec 4) (value : BitVec 32) (s : State) (hW : Within M s0 s) :
    ∃ u, execConfigWrite f die index sub part value s = .next u ∧ Within M s0 u := by
  unfold execConfigWrite
  refine ⟨_, rfl, ?_⟩
  repeat' first
    | with_reducible assumption
    | (intro x
       first
         | (have hx : Within M s0 x := by
              unfold x
              repeat' first
                | with_reducible assumption
                | with_reducible apply sendChain_within (Sub.up hM rfl)
                | with_reducible refine onChain_within (Sub.up hM rfl) (fun _ _ => ?_) ?_
                | with_reducible refine Within.dict ?_ (Sub.has hM rfl))
         | skip
       clear_value x)
    | lift_lets -underBinder
    | with_reducible apply sendChain_within (Sub.up hM rfl)
    | with_reducible refine onChain_within (Sub.up hM rfl) (fun _ _ => ?_) ?_
    | with_reducible refine Within.dict ?_ (Sub.has hM rfl)

theorem execConfigRead_within {M : Nat} {s0 : State} (hM : Sub 0x100000001 M) (f : Frame) (die : DieId) (index : BitVec 16) (sub : Byte) (part : BitVec 4) (s : State) (hW : Within M s0 s) :
    ∃ u, execConfigRead f die index sub part s = .next u ∧ Within M s0 u := by
  unfold execConfigRead
  refine ⟨_, rfl, ?_⟩
  repeat' first
    | with_reducible assumption
    | (intro x
       first
         | (have hx : Within M s0 x := by
              unfold x
              repeat' first
                | with_reducible assumption
                | with_reducible apply sendChain_within (Sub.up hM rfl)
                | with_reducible refine onChain_within (Sub.up hM rfl) (fun _ _ => ?_) ?_)
         | skip
       clear_value x)
    | lift_lets -underBinder
    | with_reducible apply sendChain_within (Sub.up hM rfl)
    | with_reducible refine onChain_within (Sub.up hM rfl) (fun _ _ => ?_) ?_

theorem execConfigData_within {M : Nat} {s0 : State} (hM : Sub 0x110000001 M) (f : Frame) (index : BitVec 16) (sub : Byte) (part : BitVec 4) (value : BitVec 32) (s : State) (hW : Within M s0 s) :
    ∃ u, execConfigData f index sub part value s = .next u ∧ Within M s0 u := by
  unfold execConfigData
  refine ⟨_, rfl, ?_⟩
  repeat' first
    | with_reducible assumption
    | with_reducible refine onChain_within (Sub.up hM rfl) (fun _ _ => ?_) ?_
    | with_reducible refine Within.dict ?_ (Sub.has hM rfl)

theorem execConfigDone_within {M : Nat} {s0 : State} (hM : Sub 0x110000001 M) (f : Frame) (index : BitVec 16) (sub : Byte) (part : BitVec 4) (s : State) (hW : Within M s0 s) :
    ∃ u, execConfigDone f index sub part s = .next u ∧ Within M s0 u := by
  unfold execConfigDone
  refine ⟨_, rfl, ?_⟩
  repeat' first
    | with_reducible assumption
    | with_reducible refine onChain_within (Sub.up hM rfl) (fun _ _ => ?_) ?_
    | with_reducible refine Within.dict ?_ (Sub.has hM rfl)

theorem execFreeze_within {M : Nat} {s0 : State} (hM : Sub 0x110000001 M) (f : Frame) (die : DieId) (epoch : BitVec 32) (s : State) (hW : Within M s0 s) :
    ∃ u, execFreeze f die epoch s = .next u ∧ Within M s0 u := by
  unfold execFreeze
  refine ⟨_, rfl, ?_⟩
  repeat' first
    | with_reducible assumption
    | with_reducible refine onChain_within (Sub.up hM rfl) (fun _ _ => ?_) ?_
    | with_reducible refine Within.dict ?_ (Sub.has hM rfl)

theorem execActivate_within {M : Nat} {s0 : State} (hM : Sub 0x110000001 M) (f : Frame) (die : DieId) (epoch : BitVec 32) (s : State) (hW : Within M s0 s) :
    ∃ u, execActivate f die epoch s = .next u ∧ Within M s0 u := by
  unfold execActivate
  refine ⟨_, rfl, ?_⟩
  repeat' first
    | with_reducible assumption
    | with_reducible refine onChain_within (Sub.up hM rfl) (fun _ _ => ?_) ?_
    | with_reducible refine Within.dict ?_ (Sub.has hM rfl)

theorem execEvent_within {M : Nat} {s0 : State} (hM : Sub 0x310000081 M) (f : Frame) (code : BitVec 16) (severity : BitVec 2) (arg : BitVec 46) (s : State) (hW : Within M s0 s) :
    ∃ u, execEvent f code severity arg s = .next u ∧ Within M s0 u := by
  unfold execEvent
  refine ⟨_, rfl, ?_⟩
  repeat' first
    | with_reducible assumption
    | (intro x
       first
         | (have hx : Within M s0 x := by
              unfold x
              repeat' first
                | with_reducible assumption
                | with_reducible apply Within.ite
                | with_reducible refine onChain_within (Sub.up hM rfl) (fun _ _ => ?_) ?_
                | with_reducible apply logEvent_within (Sub.up hM rfl)
                | (with_reducible apply Within.snd <;> [with_reducible assumption; skip])
                | (with_reducible apply Within.fst <;> [with_reducible assumption; skip])
                | (with_reducible apply Within.fst2 <;> [with_reducible assumption; skip])
                | split
                | with_reducible refine Within.dict ?_ (Sub.has hM rfl))
         | skip
       clear_value x)
    | lift_lets -underBinder
    | with_reducible apply Within.ite
    | with_reducible refine onChain_within (Sub.up hM rfl) (fun _ _ => ?_) ?_
    | with_reducible apply logEvent_within (Sub.up hM rfl)
    | (with_reducible apply Within.snd <;> [with_reducible assumption; skip])
    | (with_reducible apply Within.fst <;> [with_reducible assumption; skip])
    | (with_reducible apply Within.fst2 <;> [with_reducible assumption; skip])
    | split
    | with_reducible refine Within.dict ?_ (Sub.has hM rfl)

end Sys2Proof.Machine
end

