-- ==== Sys2Proof/Laws/WithinClears.lean ====
section
/-! SUPPORT. What the operations and commands of Machine/Clears can do to the state (Laws/Within). -/

namespace Sys2Proof.Machine

theorem clearBy_within {M : Nat} {s0 : State} (hM : Sub 0x1 M) (s : State) (value : Word) (lo hi : Nat) (hW : Within M s0 s) : Within M s0 (clearBy s value lo hi) := by
  unfold clearBy
  repeat' first
    | with_reducible assumption
    | with_reducible apply Within.ite
    | with_reducible apply clearRegs_within (Sub.up hM rfl)

theorem execCorePaceClear_within {M : Nat} {s0 : State} (hM : Sub 0x1 M) (c : CoreId) (value : Word) (s : State) (hW : Within M s0 s) :
    ∃ u, execCorePaceClear c value s = .next u ∧ Within M s0 u := by
  unfold execCorePaceClear
  refine ⟨_, rfl, ?_⟩
  repeat' first
    | with_reducible assumption
    | with_reducible apply clearBy_within (Sub.up hM rfl)

theorem execCoreNumClear_within {M : Nat} {s0 : State} (hM : Sub 0x1 M) (c : CoreId) (value : Word) (s : State) (hW : Within M s0 s) :
    ∃ u, execCoreNumClear c value s = .next u ∧ Within M s0 u := by
  unfold execCoreNumClear
  refine ⟨_, rfl, ?_⟩
  repeat' first
    | with_reducible assumption
    | with_reducible apply clearBy_within (Sub.up hM rfl)

theorem execCoreFmtClear_within {M : Nat} {s0 : State} (hM : Sub 0x1 M) (c : CoreId) (value : Word) (s : State) (hW : Within M s0 s) :
    ∃ u, execCoreFmtClear c value s = .next u ∧ Within M s0 u := by
  unfold execCoreFmtClear
  refine ⟨_, rfl, ?_⟩
  repeat' first
    | with_reducible assumption
    | with_reducible apply clearBy_within (Sub.up hM rfl)

theorem execCoreLaneClear_within {M : Nat} {s0 : State} (hM : Sub 0x1 M) (c : CoreId) (value : Word) (s : State) (hW : Within M s0 s) :
    ∃ u, execCoreLaneClear c value s = .next u ∧ Within M s0 u := by
  unfold execCoreLaneClear
  refine ⟨_, rfl, ?_⟩
  repeat' first
    | with_reducible assumption
    | with_reducible apply clearBy_within (Sub.up hM rfl)

theorem execCoreAccClear_within {M : Nat} {s0 : State} (hM : Sub 0x1 M) (c : CoreId) (value : Word) (s : State) (hW : Within M s0 s) :
    ∃ u, execCoreAccClear c value s = .next u ∧ Within M s0 u := by
  unfold execCoreAccClear
  refine ⟨_, rfl, ?_⟩
  repeat' first
    | with_reducible assumption
    | with_reducible apply clearBy_within (Sub.up hM rfl)

theorem execCoreRfuClear_within {M : Nat} {s0 : State} (hM : Sub 0x1 M) (c : CoreId) (value : Word) (s : State) (hW : Within M s0 s) :
    ∃ u, execCoreRfuClear c value s = .next u ∧ Within M s0 u := by
  unfold execCoreRfuClear
  refine ⟨_, rfl, ?_⟩
  repeat' first
    | with_reducible assumption
    | with_reducible apply clearBy_within (Sub.up hM rfl)

theorem execSpmClear_within {M : Nat} {s0 : State} (hM : Sub 0x11 M) (c : CoreId) (value : Word) (s : State) (hW : Within M s0 s) :
    ∃ u, execSpmClear c value s = .next u ∧ Within M s0 u := by
  unfold execSpmClear
  refine ⟨_, rfl, ?_⟩
  repeat' first
    | with_reducible assumption
    | (intro x
       first
         | (have hx : Within M s0 x := by
              unfold x
              repeat' first
                | with_reducible assumption
                | with_reducible apply Within.ite
                | with_reducible apply updCore_within (Sub.up hM rfl)
                | with_reducible apply clearBy_within (Sub.up hM rfl))
         | skip
       clear_value x)
    | lift_lets -underBinder
    | with_reducible apply Within.ite
    | with_reducible apply updCore_within (Sub.up hM rfl)
    | with_reducible apply clearBy_within (Sub.up hM rfl)

theorem execLoopClear_within {M : Nat} {s0 : State} (hM : Sub 0x1 M) (c : CoreId) (value : Word) (s : State) (hW : Within M s0 s) :
    ∃ u, execLoopClear c value s = .next u ∧ Within M s0 u := by
  unfold execLoopClear
  refine ⟨_, rfl, ?_⟩
  repeat' first
    | with_reducible assumption
    | with_reducible apply clearBy_within (Sub.up hM rfl)

theorem execFetClear_within {M : Nat} {s0 : State} (hM : Sub 0x1 M) (c : CoreId) (value : Word) (s : State) (hW : Within M s0 s) :
    ∃ u, execFetClear c value s = .next u ∧ Within M s0 u := by
  unfold execFetClear
  refine ⟨_, rfl, ?_⟩
  repeat' first
    | with_reducible assumption
    | with_reducible apply clearBy_within (Sub.up hM rfl)

theorem execQueClear_within {M : Nat} {s0 : State} (hM : Sub 0x1 M) (c : CoreId) (value : Word) (s : State) (hW : Within M s0 s) :
    ∃ u, execQueClear c value s = .next u ∧ Within M s0 u := by
  unfold execQueClear
  refine ⟨_, rfl, ?_⟩
  repeat' first
    | with_reducible assumption
    | with_reducible apply clearBy_within (Sub.up hM rfl)

theorem execLceClear_within {M : Nat} {s0 : State} (hM : Sub 0x1 M) (c : CoreId) (value : Word) (s : State) (hW : Within M s0 s) :
    ∃ u, execLceClear c value s = .next u ∧ Within M s0 u := by
  unfold execLceClear
  refine ⟨_, rfl, ?_⟩
  repeat' first
    | with_reducible assumption
    | with_reducible apply clearBy_within (Sub.up hM rfl)

theorem execMifClear_within {M : Nat} {s0 : State} (hM : Sub 0x1 M) (k : StackId) (value : Word) (s : State) (hW : Within M s0 s) :
    ∃ u, execMifClear k value s = .next u ∧ Within M s0 u := by
  unfold execMifClear
  refine ⟨_, rfl, ?_⟩
  repeat' first
    | with_reducible assumption
    | with_reducible apply clearBy_within (Sub.up hM rfl)

theorem execFarClear_within {M : Nat} {s0 : State} (hM : Sub 0x1 M) (p : FarPort) (value : Word) (s : State) (hW : Within M s0 s) :
    ∃ u, execFarClear p value s = .next u ∧ Within M s0 u := by
  unfold execFarClear
  refine ⟨_, rfl, ?_⟩
  repeat' first
    | with_reducible assumption
    | with_reducible apply clearBy_within (Sub.up hM rfl)

theorem execCoreXltClear_within {M : Nat} {s0 : State} (hM : Sub 0x1 M) (c : CoreId) (value : Word) (s : State) (hW : Within M s0 s) :
    ∃ u, execCoreXltClear c value s = .next u ∧ Within M s0 u := by
  unfold execCoreXltClear
  refine ⟨_, rfl, ?_⟩
  repeat' first
    | with_reducible assumption
    | with_reducible apply clearBy_within (Sub.up hM rfl)

theorem execMgtRtrClear_within {M : Nat} {s0 : State} (hM : Sub 0x1 M) (d : DieId) (value : Word) (s : State) (hW : Within M s0 s) :
    ∃ u, execMgtRtrClear d value s = .next u ∧ Within M s0 u := by
  unfold execMgtRtrClear
  refine ⟨_, rfl, ?_⟩
  repeat' first
    | with_reducible assumption
    | with_reducible apply clearBy_within (Sub.up hM rfl)

theorem execLnkPortClear_within {M : Nat} {s0 : State} (hM : Sub 0x1 M) (p : PortId) (value : Word) (s : State) (hW : Within M s0 s) :
    ∃ u, execLnkPortClear p value s = .next u ∧ Within M s0 u := by
  unfold execLnkPortClear
  refine ⟨_, rfl, ?_⟩
  repeat' first
    | with_reducible assumption
    | with_reducible apply clearBy_within (Sub.up hM rfl)

theorem execLnkDieClear_within {M : Nat} {s0 : State} (hM : Sub 0x1 M) (d : LnkDie) (value : Word) (s : State) (hW : Within M s0 s) :
    ∃ u, execLnkDieClear d value s = .next u ∧ Within M s0 u := by
  unfold execLnkDieClear
  refine ⟨_, rfl, ?_⟩
  repeat' first
    | with_reducible assumption
    | with_reducible apply clearBy_within (Sub.up hM rfl)

theorem execHstClear_within {M : Nat} {s0 : State} (hM : Sub 0x1 M) (value : Word) (s : State) (hW : Within M s0 s) :
    ∃ u, execHstClear value s = .next u ∧ Within M s0 u := by
  unfold execHstClear
  refine ⟨_, rfl, ?_⟩
  repeat' first
    | with_reducible assumption
    | with_reducible apply clearBy_within (Sub.up hM rfl)

theorem execMgtLlClear_within {M : Nat} {s0 : State} (hM : Sub 0x1 M) (value : Word) (s : State) (hW : Within M s0 s) :
    ∃ u, execMgtLlClear value s = .next u ∧ Within M s0 u := by
  unfold execMgtLlClear
  refine ⟨_, rfl, ?_⟩
  repeat' first
    | with_reducible assumption
    | with_reducible apply clearBy_within (Sub.up hM rfl)

theorem execMgtPwrClear_within {M : Nat} {s0 : State} (hM : Sub 0x1 M) (value : Word) (s : State) (hW : Within M s0 s) :
    ∃ u, execMgtPwrClear value s = .next u ∧ Within M s0 u := by
  unfold execMgtPwrClear
  refine ⟨_, rfl, ?_⟩
  repeat' first
    | with_reducible assumption
    | with_reducible apply clearBy_within (Sub.up hM rfl)

theorem execSecClear_within {M : Nat} {s0 : State} (hM : Sub 0x80000000 M) (value : Word) (s : State) (hW : Within M s0 s) :
    ∃ u, execSecClear value s = .next u ∧ Within M s0 u := by
  unfold execSecClear
  refine ⟨_, rfl, ?_⟩
  repeat' first
    | with_reducible assumption
    | with_reducible apply Within.ite
    | with_reducible refine Within.sec ?_ (Sub.has hM rfl)

end Sys2Proof.Machine
end

