-- ==== Sys2Proof/Laws/WithinDictOps.lean ====
section
/-! SUPPORT. What the operations and commands of Machine/DictOps can do to the state (Laws/Within). -/

namespace Sys2Proof.Machine

theorem sendHeartbeat_within {M : Nat} {s0 : State} (hM : Sub 0x210000000 M) (s : State) (hW : Within M s0 s) : Within M s0 (sendHeartbeat s) := by
  unfold sendHeartbeat
  repeat' first
    | with_reducible assumption
    | with_reducible apply Within.ite
    | with_reducible apply emit_within (Sub.up hM rfl)
    | with_reducible refine Within.dict ?_ (Sub.has hM rfl)

end Sys2Proof.Machine
end

