-- ==== Sys2Proof/Laws/WithinQueueOps.lean ====
section
/-! SUPPORT. What the operations and commands of Machine/QueueOps can do to the state (Laws/Within). -/

namespace Sys2Proof.Machine

theorem setTag_within {M : Nat} {s0 : State} (hM : Sub 0x10 M) (s : State) (q pos v : Nat) (hW : Within M s0 s) : Within M s0 (setTag s q pos v) := by
  unfold setTag
  repeat' first
    | with_reducible assumption
    | (intro x
       first
         | (have hx : Within M s0 x := by
              unfold x
              repeat' first
                | with_reducible assumption
                | with_reducible apply updCore_within (Sub.up hM rfl))
         | skip
       clear_value x)
    | lift_lets -underBinder
    | with_reducible apply updCore_within (Sub.up hM rfl)

theorem landRow_within {M : Nat} {s0 : State} (hM : Sub 0x52 M) (s : State) (q : Nat) (hW : Within M s0 s) : Within M s0 (landRow s q) := by
  unfold landRow
  repeat' first
    | with_reducible assumption
    | (intro x
       first
         | (have hx : Within M s0 x := by
              unfold x
              repeat' first
                | with_reducible assumption
                | with_reducible apply updQueue_within (Sub.up hM rfl)
                | with_reducible apply writeRow_within (Sub.up hM rfl))
         | skip
       clear_value x)
    | lift_lets -underBinder
    | with_reducible apply updQueue_within (Sub.up hM rfl)
    | with_reducible apply writeRow_within (Sub.up hM rfl)

theorem takeRow_within {M : Nat} {s0 : State} (hM : Sub 0x52 M) (s : State) (q : Nat) (hW : Within M s0 s) : Within M s0 (takeRow s q) := by
  unfold takeRow
  repeat' first
    | with_reducible assumption
    | (intro x
       first
         | (have hx : Within M s0 x := by
              unfold x
              repeat' first
                | with_reducible assumption
                | with_reducible apply Within.ite
                | with_reducible apply updQueue_within (Sub.up hM rfl)
                | with_reducible apply landRow_within (Sub.up hM rfl))
         | skip
       clear_value x)
    | lift_lets -underBinder
    | with_reducible apply Within.ite
    | with_reducible apply updQueue_within (Sub.up hM rfl)
    | with_reducible apply landRow_within (Sub.up hM rfl)

theorem writeMarker_within {M : Nat} {s0 : State} (hM : Sub 0x53 M) (s : State) (q pos : Nat) (m : QMarker) (hW : Within M s0 s) : Within M s0 (writeMarker s q pos m) := by
  unfold writeMarker
  repeat' first
    | with_reducible assumption
    | (intro x
       first
         | (have hx : Within M s0 x := by
              unfold x
              repeat' first
                | with_reducible assumption
                | dsimp -zeta only
                | with_reducible apply Within.ite1
                | with_reducible apply Within.ite2
                | with_reducible apply Within.ite
                | with_reducible apply bumpCore_within (Sub.up hM rfl)
                | with_reducible apply updQueue_within (Sub.up hM rfl)
                | with_reducible apply wrBytes_within (Sub.up hM rfl)
                | with_reducible apply advanceTail_within (Sub.up hM rfl)
                | with_reducible apply setTag_within (Sub.up hM rfl)
                | (with_reducible apply Within.snd <;> [with_reducible assumption; skip])
                | (with_reducible apply Within.fst <;> [with_reducible assumption; skip])
                | (with_reducible apply Within.fst2 <;> [with_reducible assumption; skip])
                | split)
         | (have hx : Within M s0 x.1 := by
              unfold x
              repeat' first
                | with_reducible assumption
                | dsimp -zeta only
                | with_reducible apply Within.ite1
                | with_reducible apply Within.ite2
                | with_reducible apply Within.ite
                | with_reducible apply bumpCore_within (Sub.up hM rfl)
                | with_reducible apply updQueue_within (Sub.up hM rfl)
                | with_reducible apply wrBytes_within (Sub.up hM rfl)
                | with_reducible apply advanceTail_within (Sub.up hM rfl)
                | with_reducible apply setTag_within (Sub.up hM rfl)
                | (with_reducible apply Within.snd <;> [with_reducible assumption; skip])
                | (with_reducible apply Within.fst <;> [with_reducible assumption; skip])
                | (with_reducible apply Within.fst2 <;> [with_reducible assumption; skip])
                | split)
         | (have hx : Within M s0 x.2 := by
              unfold x
              repeat' first
                | with_reducible assumption
                | dsimp -zeta only
                | with_reducible apply Within.ite1
                | with_reducible apply Within.ite2
                | with_reducible apply Within.ite
                | with_reducible apply bumpCore_within (Sub.up hM rfl)
                | with_reducible apply updQueue_within (Sub.up hM rfl)
                | with_reducible apply wrBytes_within (Sub.up hM rfl)
                | with_reducible apply advanceTail_within (Sub.up hM rfl)
                | with_reducible apply setTag_within (Sub.up hM rfl)
                | (with_reducible apply Within.snd <;> [with_reducible assumption; skip])
                | (with_reducible apply Within.fst <;> [with_reducible assumption; skip])
                | (with_reducible apply Within.fst2 <;> [with_reducible assumption; skip])
                | split)
         | skip
       clear_value x)
    | lift_lets -underBinder
    | dsimp -zeta only
    | with_reducible apply Within.ite1
    | with_reducible apply Within.ite2
    | with_reducible apply Within.ite
    | with_reducible apply bumpCore_within (Sub.up hM rfl)
    | with_reducible apply updQueue_within (Sub.up hM rfl)
    | with_reducible apply wrBytes_within (Sub.up hM rfl)
    | with_reducible apply advanceTail_within (Sub.up hM rfl)
    | with_reducible apply setTag_within (Sub.up hM rfl)
    | (with_reducible apply Within.snd <;> [with_reducible assumption; skip])
    | (with_reducible apply Within.fst <;> [with_reducible assumption; skip])
    | (with_reducible apply Within.fst2 <;> [with_reducible assumption; skip])
    | split

theorem showFull_within {M : Nat} {s0 : State} (hM : Sub 0x53 M) (s : State) (q : Nat) (hW : Within M s0 s) : Within M s0 (showFull s q) := by
  unfold showFull
  repeat' first
    | with_reducible assumption
    | (intro x
       first
         | (have hx : Within M s0 x := by
              unfold x
              repeat' first
                | with_reducible assumption
                | dsimp -zeta only
                | with_reducible apply Within.ite1
                | with_reducible apply Within.ite2
                | with_reducible apply Within.ite
                | with_reducible apply updQueue_within (Sub.up hM rfl)
                | with_reducible apply writeMarker_within (Sub.up hM rfl)
                | with_reducible refine each_within (fun _ _ _ => ?_) ?_
                | (with_reducible apply Within.snd <;> [with_reducible assumption; skip])
                | (with_reducible apply Within.fst <;> [with_reducible assumption; skip])
                | (with_reducible apply Within.fst2 <;> [with_reducible assumption; skip])
                | split)
         | (have hx : Within M s0 x.1 := by
              unfold x
              repeat' first
                | with_reducible assumption
                | dsimp -zeta only
                | with_reducible apply Within.ite1
                | with_reducible apply Within.ite2
                | with_reducible apply Within.ite
                | with_reducible apply updQueue_within (Sub.up hM rfl)
                | with_reducible apply writeMarker_within (Sub.up hM rfl)
                | with_reducible refine each_within (fun _ _ _ => ?_) ?_
                | (with_reducible apply Within.snd <;> [with_reducible assumption; skip])
                | (with_reducible apply Within.fst <;> [with_reducible assumption; skip])
                | (with_reducible apply Within.fst2 <;> [with_reducible assumption; skip])
                | split)
         | (have hx : Within M s0 x.2 := by
              unfold x
              repeat' first
                | with_reducible assumption
                | dsimp -zeta only
                | with_reducible apply Within.ite1
                | with_reducible apply Within.ite2
                | with_reducible apply Within.ite
                | with_reducible apply updQueue_within (Sub.up hM rfl)
                | with_reducible apply writeMarker_within (Sub.up hM rfl)
                | with_reducible refine each_within (fun _ _ _ => ?_) ?_
                | (with_reducible apply Within.snd <;> [with_reducible assumption; skip])
                | (with_reducible apply Within.fst <;> [with_reducible assumption; skip])
                | (with_reducible apply Within.fst2 <;> [with_reducible assumption; skip])
                | split)
         | skip
       clear_value x)
    | lift_lets -underBinder
    | dsimp -zeta only
    | with_reducible apply Within.ite1
    | with_reducible apply Within.ite2
    | with_reducible apply Within.ite
    | with_reducible apply updQueue_within (Sub.up hM rfl)
    | with_reducible apply writeMarker_within (Sub.up hM rfl)
    | with_reducible refine each_within (fun _ _ _ => ?_) ?_
    | (with_reducible apply Within.snd <;> [with_reducible assumption; skip])
    | (with_reducible apply Within.fst <;> [with_reducible assumption; skip])
    | (with_reducible apply Within.fst2 <;> [with_reducible assumption; skip])
    | split

theorem showMarker_within {M : Nat} {s0 : State} (hM : Sub 0x53 M) (s : State) (q : Nat) (hW : Within M s0 s) : Within M s0 (showMarker s q) := by
  unfold showMarker
  repeat' first
    | with_reducible assumption
    | (intro x
       first
         | (have hx : Within M s0 x := by
              unfold x
              repeat' first
                | with_reducible assumption
                | dsimp -zeta only
                | with_reducible apply Within.ite1
                | with_reducible apply Within.ite2
                | with_reducible apply Within.ite
                | with_reducible apply updQueue_within (Sub.up hM rfl)
                | with_reducible apply writeMarker_within (Sub.up hM rfl)
                | (with_reducible apply Within.snd <;> [with_reducible assumption; skip])
                | (with_reducible apply Within.fst <;> [with_reducible assumption; skip])
                | (with_reducible apply Within.fst2 <;> [with_reducible assumption; skip])
                | split)
         | (have hx : Within M s0 x.1 := by
              unfold x
              repeat' first
                | with_reducible assumption
                | dsimp -zeta only
                | with_reducible apply Within.ite1
                | with_reducible apply Within.ite2
                | with_reducible apply Within.ite
                | with_reducible apply updQueue_within (Sub.up hM rfl)
                | with_reducible apply writeMarker_within (Sub.up hM rfl)
                | (with_reducible apply Within.snd <;> [with_reducible assumption; skip])
                | (with_reducible apply Within.fst <;> [with_reducible assumption; skip])
                | (with_reducible apply Within.fst2 <;> [with_reducible assumption; skip])
                | split)
         | (have hx : Within M s0 x.2 := by
              unfold x
              repeat' first
                | with_reducible assumption
                | dsimp -zeta only
                | with_reducible apply Within.ite1
                | with_reducible apply Within.ite2
                | with_reducible apply Within.ite
                | with_reducible apply updQueue_within (Sub.up hM rfl)
                | with_reducible apply writeMarker_within (Sub.up hM rfl)
                | (with_reducible apply Within.snd <;> [with_reducible assumption; skip])
                | (with_reducible apply Within.fst <;> [with_reducible assumption; skip])
                | (with_reducible apply Within.fst2 <;> [with_reducible assumption; skip])
                | split)
         | skip
       clear_value x)
    | lift_lets -underBinder
    | dsimp -zeta only
    | with_reducible apply Within.ite1
    | with_reducible apply Within.ite2
    | with_reducible apply Within.ite
    | with_reducible apply updQueue_within (Sub.up hM rfl)
    | with_reducible apply writeMarker_within (Sub.up hM rfl)
    | (with_reducible apply Within.snd <;> [with_reducible assumption; skip])
    | (with_reducible apply Within.fst <;> [with_reducible assumption; skip])
    | (with_reducible apply Within.fst2 <;> [with_reducible assumption; skip])
    | split

theorem nextMarker_within {M : Nat} {s0 : State} (hM : Sub 0x53 M) (s : State) (q seq n : Nat) (hW : Within M s0 s) : Within M s0 (nextMarker s q seq n) := by
  unfold nextMarker
  repeat' first
    | with_reducible assumption
    | (intro x
       first
         | (have hx : Within M s0 x := by
              unfold x
              repeat' first
                | with_reducible assumption
                | dsimp -zeta only
                | with_reducible apply Within.ite1
                | with_reducible apply Within.ite2
                | with_reducible apply Within.ite
                | with_reducible apply updQueue_within (Sub.up hM rfl)
                | with_reducible apply showFull_within (Sub.up hM rfl)
                | with_reducible apply hfa
                | with_reducible apply hfb
                | with_reducible apply hfc
                | with_reducible apply hfd
                | with_reducible apply hfe
                | with_reducible apply hff
                | with_reducible apply hfg
                | with_reducible apply hfh
                | with_reducible apply hfi
                | (with_reducible apply Within.snd <;> [with_reducible assumption; skip])
                | (with_reducible apply Within.fst <;> [with_reducible assumption; skip])
                | (with_reducible apply Within.fst2 <;> [with_reducible assumption; skip])
                | split)
         | (have hx : Within M s0 x.1 := by
              unfold x
              repeat' first
                | with_reducible assumption
                | dsimp -zeta only
                | with_reducible apply Within.ite1
                | with_reducible apply Within.ite2
                | with_reducible apply Within.ite
                | with_reducible apply updQueue_within (Sub.up hM rfl)
                | with_reducible apply showFull_within (Sub.up hM rfl)
                | with_reducible apply hfa
                | with_reducible apply hfb
                | with_reducible apply hfc
                | with_reducible apply hfd
                | with_reducible apply hfe
                | with_reducible apply hff
                | with_reducible apply hfg
                | with_reducible apply hfh
                | with_reducible apply hfi
                | (with_reducible apply Within.snd <;> [with_reducible assumption; skip])
                | (with_reducible apply Within.fst <;> [with_reducible assumption; skip])
                | (with_reducible apply Within.fst2 <;> [with_reducible assumption; skip])
                | split)
         | (have hx : Within M s0 x.2 := by
              unfold x
              repeat' first
                | with_reducible assumption
                | dsimp -zeta only
                | with_reducible apply Within.ite1
                | with_reducible apply Within.ite2
                | with_reducible apply Within.ite
                | with_reducible apply updQueue_within (Sub.up hM rfl)
                | with_reducible apply showFull_within (Sub.up hM rfl)
                | with_reducible apply hfa
                | with_reducible apply hfb
                | with_reducible apply hfc
                | with_reducible apply hfd
                | with_reducible apply hfe
                | with_reducible apply hff
                | with_reducible apply hfg
                | with_reducible apply hfh
                | with_reducible apply hfi
                | (with_reducible apply Within.snd <;> [with_reducible assumption; skip])
                | (with_reducible apply Within.fst <;> [with_reducible assumption; skip])
                | (with_reducible apply Within.fst2 <;> [with_reducible assumption; skip])
                | split)
         | (have hfa : ∀ t, Within M s0 t → Within M s0 (x t) := by
              intro t ht; unfold x
              repeat' first
                | with_reducible assumption
                | dsimp -zeta only
                | with_reducible apply Within.ite1
                | with_reducible apply Within.ite2
                | with_reducible apply Within.ite
                | with_reducible apply updQueue_within (Sub.up hM rfl)
                | with_reducible apply showFull_within (Sub.up hM rfl)
                | with_reducible apply hfa
                | with_reducible apply hfb
                | with_reducible apply hfc
                | with_reducible apply hfd
                | with_reducible apply hfe
                | with_reducible apply hff
                | with_reducible apply hfg
                | with_reducible apply hfh
                | with_reducible apply hfi
                | (with_reducible apply Within.snd <;> [with_reducible assumption; skip])
                | (with_reducible apply Within.fst <;> [with_reducible assumption; skip])
                | (with_reducible apply Within.fst2 <;> [with_reducible assumption; skip])
                | split)
         | (have hfb : ∀ t a, Within M s0 t → Within M s0 (x t a) := by
              intro t a ht; unfold x
              repeat' first
                | with_reducible assumption
                | dsimp -zeta only
                | with_reducible apply Within.ite1
                | with_reducible apply Within.ite2
                | with_reducible apply Within.ite
                | with_reducible apply updQueue_within (Sub.up hM rfl)
                | with_reducible apply showFull_within (Sub.up hM rfl)
                | with_reducible apply hfa
                | with_reducible apply hfb
                | with_reducible apply hfc
                | with_reducible apply hfd
                | with_reducible apply hfe
                | with_reducible apply hff
                | with_reducible apply hfg
                | with_reducible apply hfh
                | with_reducible apply hfi
                | (with_reducible apply Within.snd <;> [with_reducible assumption; skip])
                | (with_reducible apply Within.fst <;> [with_reducible assumption; skip])
                | (with_reducible apply Within.fst2 <;> [with_reducible assumption; skip])
                | split)
         | (have hfc : ∀ t a b, Within M s0 t → Within M s0 (x t a b) := by
              intro t a b ht; unfold x
              repeat' first
                | with_reducible assumption
                | dsimp -zeta only
                | with_reducible apply Within.ite1
                | with_reducible apply Within.ite2
                | with_reducible apply Within.ite
                | with_reducible apply updQueue_within (Sub.up hM rfl)
                | with_reducible apply showFull_within (Sub.up hM rfl)
                | with_reducible apply hfa
                | with_reducible apply hfb
                | with_reducible apply hfc
                | with_reducible apply hfd
                | with_reducible apply hfe
                | with_reducible apply hff
                | with_reducible apply hfg
                | with_reducible apply hfh
                | with_reducible apply hfi
                | (with_reducible apply Within.snd <;> [with_reducible assumption; skip])
                | (with_reducible apply Within.fst <;> [with_reducible assumption; skip])
                | (with_reducible apply Within.fst2 <;> [with_reducible assumption; skip])
                | split)
         | (have hfd : ∀ t, Within M s0 t → Within M s0 (x t).1 := by
              intro t ht; unfold x
              repeat' first
                | with_reducible assumption
                | dsimp -zeta only
                | with_reducible apply Within.ite1
                | with_reducible apply Within.ite2
                | with_reducible apply Within.ite
                | with_reducible apply updQueue_within (Sub.up hM rfl)
                | with_reducible apply showFull_within (Sub.up hM rfl)
                | with_reducible apply hfa
                | with_reducible apply hfb
                | with_reducible apply hfc
                | with_reducible apply hfd
                | with_reducible apply hfe
                | with_reducible apply hff
                | with_reducible apply hfg
                | with_reducible apply hfh
                | with_reducible apply hfi
                | (with_reducible apply Within.snd <;> [with_reducible assumption; skip])
                | (with_reducible apply Within.fst <;> [with_reducible assumption; skip])
                | (with_reducible apply Within.fst2 <;> [with_reducible assumption; skip])
                | split)
         | (have hfe : ∀ t a, Within M s0 t → Within M s0 (x t a).1 := by
              intro t a ht; unfold x
              repeat' first
                | with_reducible assumption
                | dsimp -zeta only
                | with_reducible apply Within.ite1
                | with_reducible apply Within.ite2
                | with_reducible apply Within.ite
                | with_reducible apply updQueue_within (Sub.up hM rfl)
                | with_reducible apply showFull_within (Sub.up hM rfl)
                | with_reducible apply hfa
                | with_reducible apply hfb
                | with_reducible apply hfc
                | with_reducible apply hfd
                | with_reducible apply hfe
                | with_reducible apply hff
                | with_reducible apply hfg
                | with_reducible apply hfh
                | with_reducible apply hfi
                | (with_reducible apply Within.snd <;> [with_reducible assumption; skip])
                | (with_reducible apply Within.fst <;> [with_reducible assumption; skip])
                | (with_reducible apply Within.fst2 <;> [with_reducible assumption; skip])
                | split)
         | (have hff : ∀ t a b, Within M s0 t → Within M s0 (x t a b).1 := by
              intro t a b ht; unfold x
              repeat' first
                | with_reducible assumption
                | dsimp -zeta only
                | with_reducible apply Within.ite1
                | with_reducible apply Within.ite2
                | with_reducible apply Within.ite
                | with_reducible apply updQueue_within (Sub.up hM rfl)
                | with_reducible apply showFull_within (Sub.up hM rfl)
                | with_reducible apply hfa
                | with_reducible apply hfb
                | with_reducible apply hfc
                | with_reducible apply hfd
                | with_reducible apply hfe
                | with_reducible apply hff
                | with_reducible apply hfg
                | with_reducible apply hfh
                | with_reducible apply hfi
                | (with_reducible apply Within.snd <;> [with_reducible assumption; skip])
                | (with_reducible apply Within.fst <;> [with_reducible assumption; skip])
                | (with_reducible apply Within.fst2 <;> [with_reducible assumption; skip])
                | split)
         | (have hfg : ∀ t, Within M s0 t → Within M s0 (x t).2 := by
              intro t ht; unfold x
              repeat' first
                | with_reducible assumption
                | dsimp -zeta only
                | with_reducible apply Within.ite1
                | with_reducible apply Within.ite2
                | with_reducible apply Within.ite
                | with_reducible apply updQueue_within (Sub.up hM rfl)
                | with_reducible apply showFull_within (Sub.up hM rfl)
                | with_reducible apply hfa
                | with_reducible apply hfb
                | with_reducible apply hfc
                | with_reducible apply hfd
                | with_reducible apply hfe
                | with_reducible apply hff
                | with_reducible apply hfg
                | with_reducible apply hfh
                | with_reducible apply hfi
                | (with_reducible apply Within.snd <;> [with_reducible assumption; skip])
                | (with_reducible apply Within.fst <;> [with_reducible assumption; skip])
                | (with_reducible apply Within.fst2 <;> [with_reducible assumption; skip])
                | split)
         | (have hfh : ∀ t a, Within M s0 t → Within M s0 (x t a).2 := by
              intro t a ht; unfold x
              repeat' first
                | with_reducible assumption
                | dsimp -zeta only
                | with_reducible apply Within.ite1
                | with_reducible apply Within.ite2
                | with_reducible apply Within.ite
                | with_reducible apply updQueue_within (Sub.up hM rfl)
                | with_reducible apply showFull_within (Sub.up hM rfl)
                | with_reducible apply hfa
                | with_reducible apply hfb
                | with_reducible apply hfc
                | with_reducible apply hfd
                | with_reducible apply hfe
                | with_reducible apply hff
                | with_reducible apply hfg
                | with_reducible apply hfh
                | with_reducible apply hfi
                | (with_reducible apply Within.snd <;> [with_reducible assumption; skip])
                | (with_reducible apply Within.fst <;> [with_reducible assumption; skip])
                | (with_reducible apply Within.fst2 <;> [with_reducible assumption; skip])
                | split)
         | (have hfi : ∀ t a b, Within M s0 t → Within M s0 (x t a b).2 := by
              intro t a b ht; unfold x
              repeat' first
                | with_reducible assumption
                | dsimp -zeta only
                | with_reducible apply Within.ite1
                | with_reducible apply Within.ite2
                | with_reducible apply Within.ite
                | with_reducible apply updQueue_within (Sub.up hM rfl)
                | with_reducible apply showFull_within (Sub.up hM rfl)
                | with_reducible apply hfa
                | with_reducible apply hfb
                | with_reducible apply hfc
                | with_reducible apply hfd
                | with_reducible apply hfe
                | with_reducible apply hff
                | with_reducible apply hfg
                | with_reducible apply hfh
                | with_reducible apply hfi
                | (with_reducible apply Within.snd <;> [with_reducible assumption; skip])
                | (with_reducible apply Within.fst <;> [with_reducible assumption; skip])
                | (with_reducible apply Within.fst2 <;> [with_reducible assumption; skip])
                | split)
         | skip
       clear_value x)
    | lift_lets -underBinder
    | dsimp -zeta only
    | with_reducible apply Within.ite1
    | with_reducible apply Within.ite2
    | with_reducible apply Within.ite
    | with_reducible apply updQueue_within (Sub.up hM rfl)
    | with_reducible apply showFull_within (Sub.up hM rfl)
    | with_reducible apply hfa
    | with_reducible apply hfb
    | with_reducible apply hfc
    | with_reducible apply hfd
    | with_reducible apply hfe
    | with_reducible apply hff
    | with_reducible apply hfg
    | with_reducible apply hfh
    | with_reducible apply hfi
    | (with_reducible apply Within.snd <;> [with_reducible assumption; skip])
    | (with_reducible apply Within.fst <;> [with_reducible assumption; skip])
    | (with_reducible apply Within.fst2 <;> [with_reducible assumption; skip])
    | split

theorem joinMarker_within {M : Nat} {s0 : State} (hM : Sub 0x53 M) (s : State) (q seq n bytes : Nat) (drops : List QDrop) (hW : Within M s0 s) : Within M s0 (joinMarker s q seq n bytes drops) := by
  unfold joinMarker
  repeat' first
    | with_reducible assumption
    | (intro x
       first
         | (have hx : Within M s0 x := by
              unfold x
              repeat' first
                | with_reducible assumption
                | dsimp -zeta only
                | with_reducible apply Within.ite1
                | with_reducible apply Within.ite2
                | with_reducible apply Within.ite
                | with_reducible apply updQueue_within (Sub.up hM rfl)
                | with_reducible apply markerTakesRow_within (Sub.up hM rfl)
                | with_reducible apply nextMarker_within (Sub.up hM rfl)
                | (with_reducible apply Within.snd <;> [with_reducible assumption; skip])
                | (with_reducible apply Within.fst <;> [with_reducible assumption; skip])
                | (with_reducible apply Within.fst2 <;> [with_reducible assumption; skip])
                | split)
         | (have hx : Within M s0 x.1 := by
              unfold x
              repeat' first
                | with_reducible assumption
                | dsimp -zeta only
                | with_reducible apply Within.ite1
                | with_reducible apply Within.ite2
                | with_reducible apply Within.ite
                | with_reducible apply updQueue_within (Sub.up hM rfl)
                | with_reducible apply markerTakesRow_within (Sub.up hM rfl)
                | with_reducible apply nextMarker_within (Sub.up hM rfl)
                | (with_reducible apply Within.snd <;> [with_reducible assumption; skip])
                | (with_reducible apply Within.fst <;> [with_reducible assumption; skip])
                | (with_reducible apply Within.fst2 <;> [with_reducible assumption; skip])
                | split)
         | (have hx : Within M s0 x.2 := by
              unfold x
              repeat' first
                | with_reducible assumption
                | dsimp -zeta only
                | with_reducible apply Within.ite1
                | with_reducible apply Within.ite2
                | with_reducible apply Within.ite
                | with_reducible apply updQueue_within (Sub.up hM rfl)
                | with_reducible apply markerTakesRow_within (Sub.up hM rfl)
                | with_reducible apply nextMarker_within (Sub.up hM rfl)
                | (with_reducible apply Within.snd <;> [with_reducible assumption; skip])
                | (with_reducible apply Within.fst <;> [with_reducible assumption; skip])
                | (with_reducible apply Within.fst2 <;> [with_reducible assumption; skip])
                | split)
         | skip
       clear_value x)
    | lift_lets -underBinder
    | dsimp -zeta only
    | with_reducible apply Within.ite1
    | with_reducible apply Within.ite2
    | with_reducible apply Within.ite
    | with_reducible apply updQueue_within (Sub.up hM rfl)
    | with_reducible apply markerTakesRow_within (Sub.up hM rfl)
    | with_reducible apply nextMarker_within (Sub.up hM rfl)
    | (with_reducible apply Within.snd <;> [with_reducible assumption; skip])
    | (with_reducible apply Within.fst <;> [with_reducible assumption; skip])
    | (with_reducible apply Within.fst2 <;> [with_reducible assumption; skip])
    | split

theorem dropOpen_within {M : Nat} {s0 : State} (hM : Sub 0x53 M) (s : State) (q : Nat) (p : QPacket) (hW : Within M s0 s) : Within M s0 (dropOpen s q p) := by
  unfold dropOpen
  repeat' first
    | with_reducible assumption
    | (intro x
       first
         | (have hx : Within M s0 x := by
              unfold x
              repeat' first
                | with_reducible assumption
                | dsimp -zeta only
                | with_reducible apply Within.ite1
                | with_reducible apply Within.ite2
                | with_reducible apply Within.ite
                | with_reducible apply bumpCore_within (Sub.up hM rfl)
                | with_reducible apply updQueue_within (Sub.up hM rfl)
                | with_reducible apply markerTakesRow_within (Sub.up hM rfl)
                | with_reducible apply joinMarker_within (Sub.up hM rfl)
                | (with_reducible apply Within.snd <;> [with_reducible assumption; skip])
                | (with_reducible apply Within.fst <;> [with_reducible assumption; skip])
                | (with_reducible apply Within.fst2 <;> [with_reducible assumption; skip])
                | split)
         | (have hx : Within M s0 x.1 := by
              unfold x
              repeat' first
                | with_reducible assumption
                | dsimp -zeta only
                | with_reducible apply Within.ite1
                | with_reducible apply Within.ite2
                | with_reducible apply Within.ite
                | with_reducible apply bumpCore_within (Sub.up hM rfl)
                | with_reducible apply updQueue_within (Sub.up hM rfl)
                | with_reducible apply markerTakesRow_within (Sub.up hM rfl)
                | with_reducible apply joinMarker_within (Sub.up hM rfl)
                | (with_reducible apply Within.snd <;> [with_reducible assumption; skip])
                | (with_reducible apply Within.fst <;> [with_reducible assumption; skip])
                | (with_reducible apply Within.fst2 <;> [with_reducible assumption; skip])
                | split)
         | (have hx : Within M s0 x.2 := by
              unfold x
              repeat' first
                | with_reducible assumption
                | dsimp -zeta only
                | with_reducible apply Within.ite1
                | with_reducible apply Within.ite2
                | with_reducible apply Within.ite
                | with_reducible apply bumpCore_within (Sub.up hM rfl)
                | with_reducible apply updQueue_within (Sub.up hM rfl)
                | with_reducible apply markerTakesRow_within (Sub.up hM rfl)
                | with_reducible apply joinMarker_within (Sub.up hM rfl)
                | (with_reducible apply Within.snd <;> [with_reducible assumption; skip])
                | (with_reducible apply Within.fst <;> [with_reducible assumption; skip])
                | (with_reducible apply Within.fst2 <;> [with_reducible assumption; skip])
                | split)
         | skip
       clear_value x)
    | lift_lets -underBinder
    | dsimp -zeta only
    | with_reducible apply Within.ite1
    | with_reducible apply Within.ite2
    | with_reducible apply Within.ite
    | with_reducible apply bumpCore_within (Sub.up hM rfl)
    | with_reducible apply updQueue_within (Sub.up hM rfl)
    | with_reducible apply markerTakesRow_within (Sub.up hM rfl)
    | with_reducible apply joinMarker_within (Sub.up hM rfl)
    | (with_reducible apply Within.snd <;> [with_reducible assumption; skip])
    | (with_reducible apply Within.fst <;> [with_reducible assumption; skip])
    | (with_reducible apply Within.fst2 <;> [with_reducible assumption; skip])
    | split

theorem queOpen_within {M : Nat} {s0 : State} (hM : Sub 0x53 M) (s : State) (q : Nat) (hW : Within M s0 s) : Within M s0 (queOpen s q) := by
  unfold queOpen
  repeat' first
    | with_reducible assumption
    | (intro x
       first
         | (have hx : Within M s0 x := by
              unfold x
              repeat' first
                | with_reducible assumption
                | dsimp -zeta only
                | with_reducible apply Within.ite1
                | with_reducible apply Within.ite2
                | with_reducible apply Within.ite
                | with_reducible apply updQueue_within (Sub.up hM rfl)
                | with_reducible apply takeRow_within (Sub.up hM rfl)
                | with_reducible apply dropOpen_within (Sub.up hM rfl)
                | (with_reducible apply Within.snd <;> [with_reducible assumption; skip])
                | (with_reducible apply Within.fst <;> [with_reducible assumption; skip])
                | (with_reducible apply Within.fst2 <;> [with_reducible assumption; skip])
                | split)
         | (have hx : Within M s0 x.1 := by
              unfold x
              repeat' first
                | with_reducible assumption
                | dsimp -zeta only
                | with_reducible apply Within.ite1
                | with_reducible apply Within.ite2
                | with_reducible apply Within.ite
                | with_reducible apply updQueue_within (Sub.up hM rfl)
                | with_reducible apply takeRow_within (Sub.up hM rfl)
                | with_reducible apply dropOpen_within (Sub.up hM rfl)
                | (with_reducible apply Within.snd <;> [with_reducible assumption; skip])
                | (with_reducible apply Within.fst <;> [with_reducible assumption; skip])
                | (with_reducible apply Within.fst2 <;> [with_reducible assumption; skip])
                | split)
         | (have hx : Within M s0 x.2 := by
              unfold x
              repeat' first
                | with_reducible assumption
                | dsimp -zeta only
                | with_reducible apply Within.ite1
                | with_reducible apply Within.ite2
                | with_reducible apply Within.ite
                | with_reducible apply updQueue_within (Sub.up hM rfl)
                | with_reducible apply takeRow_within (Sub.up hM rfl)
                | with_reducible apply dropOpen_within (Sub.up hM rfl)
                | (with_reducible apply Within.snd <;> [with_reducible assumption; skip])
                | (with_reducible apply Within.fst <;> [with_reducible assumption; skip])
                | (with_reducible apply Within.fst2 <;> [with_reducible assumption; skip])
                | split)
         | skip
       clear_value x)
    | lift_lets -underBinder
    | dsimp -zeta only
    | with_reducible apply Within.ite1
    | with_reducible apply Within.ite2
    | with_reducible apply Within.ite
    | with_reducible apply updQueue_within (Sub.up hM rfl)
    | with_reducible apply takeRow_within (Sub.up hM rfl)
    | with_reducible apply dropOpen_within (Sub.up hM rfl)
    | (with_reducible apply Within.snd <;> [with_reducible assumption; skip])
    | (with_reducible apply Within.fst <;> [with_reducible assumption; skip])
    | (with_reducible apply Within.fst2 <;> [with_reducible assumption; skip])
    | split

theorem storeWord_within {M : Nat} {s0 : State} (hM : Sub 0x42 M) (s : State) (q : Nat) (p : QPacket) (v : Nat) (hW : Within M s0 s) : Within M s0 (storeWord s q p v) := by
  unfold storeWord
  repeat' first
    | with_reducible assumption
    | with_reducible apply updQueue_within (Sub.up hM rfl)
    | with_reducible apply wr64_within (Sub.up hM rfl)

theorem queData_within {M : Nat} {s0 : State} (hM : Sub 0x100000853 M) (s : State) (q : Nat) (p : QPacket) (v : Nat) (hW : Within M s0 s) : Within M s0 (queData s q p v).1 := by
  unfold queData
  repeat' first
    | with_reducible assumption
    | (intro x
       first
         | (have hx : Within M s0 x := by
              unfold x
              repeat' first
                | with_reducible assumption
                | dsimp -zeta only
                | with_reducible apply Within.ite1
                | with_reducible apply Within.ite2
                | with_reducible apply Within.ite
                | with_reducible apply bumpCore_within (Sub.up hM rfl)
                | with_reducible apply updQueue_within (Sub.up hM rfl)
                | with_reducible apply freeRows_within (Sub.up hM rfl)
                | with_reducible apply takeRow_within (Sub.up hM rfl)
                | with_reducible apply dropOpen_within (Sub.up hM rfl)
                | with_reducible apply storeWord_within (Sub.up hM rfl)
                | (with_reducible apply Within.snd <;> [with_reducible assumption; skip])
                | (with_reducible apply Within.fst <;> [with_reducible assumption; skip])
                | (with_reducible apply Within.fst2 <;> [with_reducible assumption; skip])
                | split)
         | (have hx : Within M s0 x.1 := by
              unfold x
              repeat' first
                | with_reducible assumption
                | dsimp -zeta only
                | with_reducible apply Within.ite1
                | with_reducible apply Within.ite2
                | with_reducible apply Within.ite
                | with_reducible apply bumpCore_within (Sub.up hM rfl)
                | with_reducible apply updQueue_within (Sub.up hM rfl)
                | with_reducible apply freeRows_within (Sub.up hM rfl)
                | with_reducible apply takeRow_within (Sub.up hM rfl)
                | with_reducible apply dropOpen_within (Sub.up hM rfl)
                | with_reducible apply storeWord_within (Sub.up hM rfl)
                | (with_reducible apply Within.snd <;> [with_reducible assumption; skip])
                | (with_reducible apply Within.fst <;> [with_reducible assumption; skip])
                | (with_reducible apply Within.fst2 <;> [with_reducible assumption; skip])
                | split)
         | (have hx : Within M s0 x.2 := by
              unfold x
              repeat' first
                | with_reducible assumption
                | dsimp -zeta only
                | with_reducible apply Within.ite1
                | with_reducible apply Within.ite2
                | with_reducible apply Within.ite
                | with_reducible apply bumpCore_within (Sub.up hM rfl)
                | with_reducible apply updQueue_within (Sub.up hM rfl)
                | with_reducible apply freeRows_within (Sub.up hM rfl)
                | with_reducible apply takeRow_within (Sub.up hM rfl)
                | with_reducible apply dropOpen_within (Sub.up hM rfl)
                | with_reducible apply storeWord_within (Sub.up hM rfl)
                | (with_reducible apply Within.snd <;> [with_reducible assumption; skip])
                | (with_reducible apply Within.fst <;> [with_reducible assumption; skip])
                | (with_reducible apply Within.fst2 <;> [with_reducible assumption; skip])
                | split)
         | skip
       clear_value x)
    | lift_lets -underBinder
    | dsimp -zeta only
    | with_reducible apply Within.ite1
    | with_reducible apply Within.ite2
    | with_reducible apply Within.ite
    | with_reducible apply bumpCore_within (Sub.up hM rfl)
    | with_reducible apply updQueue_within (Sub.up hM rfl)
    | with_reducible apply freeRows_within (Sub.up hM rfl)
    | with_reducible apply takeRow_within (Sub.up hM rfl)
    | with_reducible apply dropOpen_within (Sub.up hM rfl)
    | with_reducible apply storeWord_within (Sub.up hM rfl)
    | (with_reducible apply Within.snd <;> [with_reducible assumption; skip])
    | (with_reducible apply Within.fst <;> [with_reducible assumption; skip])
    | (with_reducible apply Within.fst2 <;> [with_reducible assumption; skip])
    | split

theorem tagPacket_within {M : Nat} {s0 : State} (hM : Sub 0x10 M) (s : State) (q : Nat) (p : QPacket) (hW : Within M s0 s) : Within M s0 (tagPacket s q p) := by
  unfold tagPacket
  repeat' first
    | with_reducible assumption
    | with_reducible apply Within.ite
    | with_reducible apply setTag_within (Sub.up hM rfl)
    | with_reducible refine each_within (fun _ _ _ => ?_) ?_

theorem queClose_within {M : Nat} {s0 : State} (hM : Sub 0x100000853 M) (s : State) (q : Nat) (p : QPacket) (hW : Within M s0 s) : Within M s0 (queClose s q p) := by
  unfold queClose
  repeat' first
    | with_reducible assumption
    | (intro x
       first
         | (have hx : Within M s0 x := by
              unfold x
              repeat' first
                | with_reducible assumption
                | dsimp -zeta only
                | with_reducible apply Within.ite1
                | with_reducible apply Within.ite2
                | with_reducible apply Within.ite
                | with_reducible apply bumpCore_within (Sub.up hM rfl)
                | with_reducible apply updQueue_within (Sub.up hM rfl)
                | with_reducible apply wr64_within (Sub.up hM rfl)
                | with_reducible apply freeRows_within (Sub.up hM rfl)
                | with_reducible apply tagPacket_within (Sub.up hM rfl)
                | (with_reducible apply Within.snd <;> [with_reducible assumption; skip])
                | (with_reducible apply Within.fst <;> [with_reducible assumption; skip])
                | (with_reducible apply Within.fst2 <;> [with_reducible assumption; skip])
                | split)
         | (have hx : Within M s0 x.1 := by
              unfold x
              repeat' first
                | with_reducible assumption
                | dsimp -zeta only
                | with_reducible apply Within.ite1
                | with_reducible apply Within.ite2
                | with_reducible apply Within.ite
                | with_reducible apply bumpCore_within (Sub.up hM rfl)
                | with_reducible apply updQueue_within (Sub.up hM rfl)
                | with_reducible apply wr64_within (Sub.up hM rfl)
                | with_reducible apply freeRows_within (Sub.up hM rfl)
                | with_reducible apply tagPacket_within (Sub.up hM rfl)
                | (with_reducible apply Within.snd <;> [with_reducible assumption; skip])
                | (with_reducible apply Within.fst <;> [with_reducible assumption; skip])
                | (with_reducible apply Within.fst2 <;> [with_reducible assumption; skip])
                | split)
         | (have hx : Within M s0 x.2 := by
              unfold x
              repeat' first
                | with_reducible assumption
                | dsimp -zeta only
                | with_reducible apply Within.ite1
                | with_reducible apply Within.ite2
                | with_reducible apply Within.ite
                | with_reducible apply bumpCore_within (Sub.up hM rfl)
                | with_reducible apply updQueue_within (Sub.up hM rfl)
                | with_reducible apply wr64_within (Sub.up hM rfl)
                | with_reducible apply freeRows_within (Sub.up hM rfl)
                | with_reducible apply tagPacket_within (Sub.up hM rfl)
                | (with_reducible apply Within.snd <;> [with_reducible assumption; skip])
                | (with_reducible apply Within.fst <;> [with_reducible assumption; skip])
                | (with_reducible apply Within.fst2 <;> [with_reducible assumption; skip])
                | split)
         | skip
       clear_value x)
    | lift_lets -underBinder
    | dsimp -zeta only
    | with_reducible apply Within.ite1
    | with_reducible apply Within.ite2
    | with_reducible apply Within.ite
    | with_reducible apply bumpCore_within (Sub.up hM rfl)
    | with_reducible apply updQueue_within (Sub.up hM rfl)
    | with_reducible apply wr64_within (Sub.up hM rfl)
    | with_reducible apply freeRows_within (Sub.up hM rfl)
    | with_reducible apply tagPacket_within (Sub.up hM rfl)
    | (with_reducible apply Within.snd <;> [with_reducible assumption; skip])
    | (with_reducible apply Within.fst <;> [with_reducible assumption; skip])
    | (with_reducible apply Within.fst2 <;> [with_reducible assumption; skip])
    | split

theorem takeNack_within {M : Nat} {s0 : State} (hM : Sub 0x310000091 M) (s : State) (die n seq cause : Nat) (hW : Within M s0 s) : Within M s0 (takeNack s die n seq cause) := by
  unfold takeNack
  repeat' first
    | with_reducible assumption
    | (intro x
       first
         | (have hx : Within M s0 x := by
              unfold x
              repeat' first
                | with_reducible assumption
                | with_reducible apply Within.ite
                | with_reducible apply raise_within (Sub.up hM rfl)
                | with_reducible apply endTask_within (Sub.up hM rfl)
                | (with_reducible apply Within.snd <;> [with_reducible assumption; skip])
                | (with_reducible apply Within.fst <;> [with_reducible assumption; skip])
                | (with_reducible apply Within.fst2 <;> [with_reducible assumption; skip])
                | split)
         | skip
       clear_value x)
    | lift_lets -underBinder
    | with_reducible apply Within.ite
    | with_reducible apply raise_within (Sub.up hM rfl)
    | with_reducible apply endTask_within (Sub.up hM rfl)
    | (with_reducible apply Within.snd <;> [with_reducible assumption; skip])
    | (with_reducible apply Within.fst <;> [with_reducible assumption; skip])
    | (with_reducible apply Within.fst2 <;> [with_reducible assumption; skip])
    | split

theorem returnNack_within {M : Nat} {s0 : State} (hM : Sub 0x310000891 M) (s : State) (die n seq cause : Nat) (hW : Within M s0 s) : Within M s0 (returnNack s die n seq cause) := by
  unfold returnNack
  repeat' first
    | with_reducible assumption
    | (intro x
       first
         | (have hx : Within M s0 x := by
              unfold x
              repeat' first
                | with_reducible assumption
                | with_reducible apply Within.ite
                | with_reducible apply sendNack_within (Sub.up hM rfl)
                | with_reducible apply takeNack_within (Sub.up hM rfl))
         | skip
       clear_value x)
    | lift_lets -underBinder
    | with_reducible apply Within.ite
    | with_reducible apply sendNack_within (Sub.up hM rfl)
    | with_reducible apply takeNack_within (Sub.up hM rfl)

theorem producerFail_within {M : Nat} {s0 : State} (hM : Sub 0x7100008d3 M) (s : State) (q status : Nat) (p : Producer) (h : Within M s0 s) :
    Within M s0 (producerFail s q status p) := by
  cases p with
  | core c => exact faultCore_within (Sub.up hM rfl) _ _ _ _ _ _ h
  | strand n => exact returnNack_within (Sub.up hM rfl) _ _ _ _ _ (freshFree_within (Sub.up hM rfl) s h)
  | host => exact postedDrop_within (Sub.up hM rfl) _ _ _ _ h

theorem retryHeld_within {M : Nat} {s0 : State} (hM : Sub 0x7100008d3 M) (s : State) (q : Nat) (hW : Within M s0 s) : Within M s0 (retryHeld s q) := by
  unfold retryHeld
  repeat' first
    | with_reducible assumption
    | (intro x
       first
         | (have hx : Within M s0 x := by
              unfold x
              repeat' first
                | with_reducible assumption
                | dsimp -zeta only
                | with_reducible apply Within.ite1
                | with_reducible apply Within.ite2
                | with_reducible apply Within.ite
                | with_reducible apply updQueue_within (Sub.up hM rfl)
                | with_reducible apply endWait_within (Sub.up hM rfl)
                | with_reducible apply queOpen_within (Sub.up hM rfl)
                | with_reducible apply queData_within (Sub.up hM rfl)
                | with_reducible apply producerFail_within (Sub.up hM rfl)
                | (with_reducible apply Within.snd <;> [with_reducible assumption; skip])
                | (with_reducible apply Within.fst <;> [with_reducible assumption; skip])
                | (with_reducible apply Within.fst2 <;> [with_reducible assumption; skip])
                | split)
         | (have hx : Within M s0 x.1 := by
              unfold x
              repeat' first
                | with_reducible assumption
                | dsimp -zeta only
                | with_reducible apply Within.ite1
                | with_reducible apply Within.ite2
                | with_reducible apply Within.ite
                | with_reducible apply updQueue_within (Sub.up hM rfl)
                | with_reducible apply endWait_within (Sub.up hM rfl)
                | with_reducible apply queOpen_within (Sub.up hM rfl)
                | with_reducible apply queData_within (Sub.up hM rfl)
                | with_reducible apply producerFail_within (Sub.up hM rfl)
                | (with_reducible apply Within.snd <;> [with_reducible assumption; skip])
                | (with_reducible apply Within.fst <;> [with_reducible assumption; skip])
                | (with_reducible apply Within.fst2 <;> [with_reducible assumption; skip])
                | split)
         | (have hx : Within M s0 x.2 := by
              unfold x
              repeat' first
                | with_reducible assumption
                | dsimp -zeta only
                | with_reducible apply Within.ite1
                | with_reducible apply Within.ite2
                | with_reducible apply Within.ite
                | with_reducible apply updQueue_within (Sub.up hM rfl)
                | with_reducible apply endWait_within (Sub.up hM rfl)
                | with_reducible apply queOpen_within (Sub.up hM rfl)
                | with_reducible apply queData_within (Sub.up hM rfl)
                | with_reducible apply producerFail_within (Sub.up hM rfl)
                | (with_reducible apply Within.snd <;> [with_reducible assumption; skip])
                | (with_reducible apply Within.fst <;> [with_reducible assumption; skip])
                | (with_reducible apply Within.fst2 <;> [with_reducible assumption; skip])
                | split)
         | skip
       clear_value x)
    | lift_lets -underBinder
    | dsimp -zeta only
    | with_reducible apply Within.ite1
    | with_reducible apply Within.ite2
    | with_reducible apply Within.ite
    | with_reducible apply updQueue_within (Sub.up hM rfl)
    | with_reducible apply endWait_within (Sub.up hM rfl)
    | with_reducible apply queOpen_within (Sub.up hM rfl)
    | with_reducible apply queData_within (Sub.up hM rfl)
    | with_reducible apply producerFail_within (Sub.up hM rfl)
    | (with_reducible apply Within.snd <;> [with_reducible assumption; skip])
    | (with_reducible apply Within.fst <;> [with_reducible assumption; skip])
    | (with_reducible apply Within.fst2 <;> [with_reducible assumption; skip])
    | split

theorem showPacket_within {M : Nat} {s0 : State} (hM : Sub 0x53 M) (s : State) (q : Nat) (hW : Within M s0 s) : Within M s0 (showPacket s q) := by
  unfold showPacket
  repeat' first
    | with_reducible assumption
    | (intro x
       first
         | (have hx : Within M s0 x := by
              unfold x
              repeat' first
                | with_reducible assumption
                | dsimp -zeta only
                | with_reducible apply Within.ite1
                | with_reducible apply Within.ite2
                | with_reducible apply Within.ite
                | with_reducible apply bumpCore_within (Sub.up hM rfl)
                | with_reducible apply updQueue_within (Sub.up hM rfl)
                | with_reducible apply advanceTail_within (Sub.up hM rfl)
                | with_reducible apply showFull_within (Sub.up hM rfl)
                | with_reducible apply showMarker_within (Sub.up hM rfl)
                | (with_reducible apply Within.snd <;> [with_reducible assumption; skip])
                | (with_reducible apply Within.fst <;> [with_reducible assumption; skip])
                | (with_reducible apply Within.fst2 <;> [with_reducible assumption; skip])
                | split)
         | (have hx : Within M s0 x.1 := by
              unfold x
              repeat' first
                | with_reducible assumption
                | dsimp -zeta only
                | with_reducible apply Within.ite1
                | with_reducible apply Within.ite2
                | with_reducible apply Within.ite
                | with_reducible apply bumpCore_within (Sub.up hM rfl)
                | with_reducible apply updQueue_within (Sub.up hM rfl)
                | with_reducible apply advanceTail_within (Sub.up hM rfl)
                | with_reducible apply showFull_within (Sub.up hM rfl)
                | with_reducible apply showMarker_within (Sub.up hM rfl)
                | (with_reducible apply Within.snd <;> [with_reducible assumption; skip])
                | (with_reducible apply Within.fst <;> [with_reducible assumption; skip])
                | (with_reducible apply Within.fst2 <;> [with_reducible assumption; skip])
                | split)
         | (have hx : Within M s0 x.2 := by
              unfold x
              repeat' first
                | with_reducible assumption
                | dsimp -zeta only
                | with_reducible apply Within.ite1
                | with_reducible apply Within.ite2
                | with_reducible apply Within.ite
                | with_reducible apply bumpCore_within (Sub.up hM rfl)
                | with_reducible apply updQueue_within (Sub.up hM rfl)
                | with_reducible apply advanceTail_within (Sub.up hM rfl)
                | with_reducible apply showFull_within (Sub.up hM rfl)
                | with_reducible apply showMarker_within (Sub.up hM rfl)
                | (with_reducible apply Within.snd <;> [with_reducible assumption; skip])
                | (with_reducible apply Within.fst <;> [with_reducible assumption; skip])
                | (with_reducible apply Within.fst2 <;> [with_reducible assumption; skip])
                | split)
         | skip
       clear_value x)
    | lift_lets -underBinder
    | dsimp -zeta only
    | with_reducible apply Within.ite1
    | with_reducible apply Within.ite2
    | with_reducible apply Within.ite
    | with_reducible apply bumpCore_within (Sub.up hM rfl)
    | with_reducible apply updQueue_within (Sub.up hM rfl)
    | with_reducible apply advanceTail_within (Sub.up hM rfl)
    | with_reducible apply showFull_within (Sub.up hM rfl)
    | with_reducible apply showMarker_within (Sub.up hM rfl)
    | (with_reducible apply Within.snd <;> [with_reducible assumption; skip])
    | (with_reducible apply Within.fst <;> [with_reducible assumption; skip])
    | (with_reducible apply Within.fst2 <;> [with_reducible assumption; skip])
    | split

theorem releaseNow_within {M : Nat} {s0 : State} (hM : Sub 0x100000853 M) (s : State) (q n : Nat) (hW : Within M s0 s) : Within M s0 (releaseNow s q n) := by
  unfold releaseNow
  repeat' first
    | with_reducible assumption
    | (intro x
       first
         | (have hx : Within M s0 x := by
              unfold x
              repeat' first
                | with_reducible assumption
                | dsimp -zeta only
                | with_reducible apply Within.ite1
                | with_reducible apply Within.ite2
                | with_reducible apply Within.ite
                | with_reducible apply updQueue_within (Sub.up hM rfl)
                | with_reducible apply advanceHead_within (Sub.up hM rfl)
                | with_reducible apply freeRows_within (Sub.up hM rfl)
                | with_reducible apply showFull_within (Sub.up hM rfl)
                | (with_reducible apply Within.snd <;> [with_reducible assumption; skip])
                | (with_reducible apply Within.fst <;> [with_reducible assumption; skip])
                | (with_reducible apply Within.fst2 <;> [with_reducible assumption; skip])
                | split)
         | (have hx : Within M s0 x.1 := by
              unfold x
              repeat' first
                | with_reducible assumption
                | dsimp -zeta only
                | with_reducible apply Within.ite1
                | with_reducible apply Within.ite2
                | with_reducible apply Within.ite
                | with_reducible apply updQueue_within (Sub.up hM rfl)
                | with_reducible apply advanceHead_within (Sub.up hM rfl)
                | with_reducible apply freeRows_within (Sub.up hM rfl)
                | with_reducible apply showFull_within (Sub.up hM rfl)
                | (with_reducible apply Within.snd <;> [with_reducible assumption; skip])
                | (with_reducible apply Within.fst <;> [with_reducible assumption; skip])
                | (with_reducible apply Within.fst2 <;> [with_reducible assumption; skip])
                | split)
         | (have hx : Within M s0 x.2 := by
              unfold x
              repeat' first
                | with_reducible assumption
                | dsimp -zeta only
                | with_reducible apply Within.ite1
                | with_reducible apply Within.ite2
                | with_reducible apply Within.ite
                | with_reducible apply updQueue_within (Sub.up hM rfl)
                | with_reducible apply advanceHead_within (Sub.up hM rfl)
                | with_reducible apply freeRows_within (Sub.up hM rfl)
                | with_reducible apply showFull_within (Sub.up hM rfl)
                | (with_reducible apply Within.snd <;> [with_reducible assumption; skip])
                | (with_reducible apply Within.fst <;> [with_reducible assumption; skip])
                | (with_reducible apply Within.fst2 <;> [with_reducible assumption; skip])
                | split)
         | skip
       clear_value x)
    | lift_lets -underBinder
    | dsimp -zeta only
    | with_reducible apply Within.ite1
    | with_reducible apply Within.ite2
    | with_reducible apply Within.ite
    | with_reducible apply updQueue_within (Sub.up hM rfl)
    | with_reducible apply advanceHead_within (Sub.up hM rfl)
    | with_reducible apply freeRows_within (Sub.up hM rfl)
    | with_reducible apply showFull_within (Sub.up hM rfl)
    | (with_reducible apply Within.snd <;> [with_reducible assumption; skip])
    | (with_reducible apply Within.fst <;> [with_reducible assumption; skip])
    | (with_reducible apply Within.fst2 <;> [with_reducible assumption; skip])
    | split

end Sys2Proof.Machine
end

