-- ==== Sys2Proof/Laws/WithinLinkOps.lean ====
section
/-! SUPPORT. What the operations and commands of Machine/LinkOps can do to the state (Laws/Within). -/

namespace Sys2Proof.Machine

theorem linkWrite_within {M : Nat} {s0 : State} (hM : Sub 0x710000fdb M) (s : State) (die n v : Nat) (data : List Byte) (hW : Within M s0 s) : Within M s0 (linkWrite s die n v data).1 := by
  unfold linkWrite
  repeat' first
    | with_reducible assumption
    | (intro x
       first
         | (have hx : Within M s0 x := by
              unfold x
              repeat' first
                | with_reducible assumption
                | dsimp -zeta only
                | with_reducible apply Within.ite1
                | with_reducible apply Within.ite2
                | with_reducible apply Within.ite
                | with_reducible apply putRange_within (Sub.up hM rfl)
                | (with_reducible apply Within.snd <;> [with_reducible assumption; skip])
                | (with_reducible apply Within.fst <;> [with_reducible assumption; skip])
                | (with_reducible apply Within.fst2 <;> [with_reducible assumption; skip])
                | split)
         | (have hx : Within M s0 x.1 := by
              unfold x
              repeat' first
                | with_reducible assumption
                | dsimp -zeta only
                | with_reducible apply Within.ite1
                | with_reducible apply Within.ite2
                | with_reducible apply Within.ite
                | with_reducible apply putRange_within (Sub.up hM rfl)
                | (with_reducible apply Within.snd <;> [with_reducible assumption; skip])
                | (with_reducible apply Within.fst <;> [with_reducible assumption; skip])
                | (with_reducible apply Within.fst2 <;> [with_reducible assumption; skip])
                | split)
         | (have hx : Within M s0 x.2 := by
              unfold x
              repeat' first
                | with_reducible assumption
                | dsimp -zeta only
                | with_reducible apply Within.ite1
                | with_reducible apply Within.ite2
                | with_reducible apply Within.ite
                | with_reducible apply putRange_within (Sub.up hM rfl)
                | (with_reducible apply Within.snd <;> [with_reducible assumption; skip])
                | (with_reducible apply Within.fst <;> [with_reducible assumption; skip])
                | (with_reducible apply Within.fst2 <;> [with_reducible assumption; skip])
                | split)
         | skip
       clear_value x)
    | lift_lets -underBinder
    | dsimp -zeta only
    | with_reducible apply Within.ite1
    | with_reducible apply Within.ite2
    | with_reducible apply Within.ite
    | with_reducible apply putRange_within (Sub.up hM rfl)
    | (with_reducible apply Within.snd <;> [with_reducible assumption; skip])
    | (with_reducible apply Within.fst <;> [with_reducible assumption; skip])
    | (with_reducible apply Within.fst2 <;> [with_reducible assumption; skip])
    | split

theorem updGroup_within {M : Nat} {s0 : State} (hM : Sub 0x1000 M) (s : State) (g : Nat) (f : Group → Group) (hW : Within M s0 s) : Within M s0 (updGroup s g f) := by
  unfold updGroup
  repeat' first
    | with_reducible assumption
    | with_reducible refine Within.groups ?_ (Sub.has hM rfl)

theorem lnkBack_within {M : Nat} {s0 : State} (hM : Sub 0x2 M) (s : State) (n : Nat) (hW : Within M s0 s) : Within M s0 (lnkBack s n) := by
  unfold lnkBack
  repeat' first
    | with_reducible assumption
    | with_reducible apply wr64_within (Sub.up hM rfl)
    | (with_reducible apply Within.snd <;> [with_reducible assumption; skip])
    | (with_reducible apply Within.fst <;> [with_reducible assumption; skip])
    | (with_reducible apply Within.fst2 <;> [with_reducible assumption; skip])
    | split

theorem lnkTouch_within {M : Nat} {s0 : State} (hM : Sub 0x10002 M) (s : State) (d n : Nat) (hW : Within M s0 s) : Within M s0 (lnkTouch s d n) := by
  unfold lnkTouch
  repeat' first
    | with_reducible assumption
    | (intro x
       first
         | (have hx : Within M s0 x := by
              unfold x
              repeat' first
                | with_reducible assumption
                | with_reducible apply lnkBack_within (Sub.up hM rfl)
                | with_reducible refine each_within (fun _ _ _ => ?_) ?_
                | with_reducible refine Within.lnkCache ?_ (Sub.has hM rfl))
         | skip
       clear_value x)
    | lift_lets -underBinder
    | with_reducible apply lnkBack_within (Sub.up hM rfl)
    | with_reducible refine each_within (fun _ _ _ => ?_) ?_
    | with_reducible refine Within.lnkCache ?_ (Sub.has hM rfl)

theorem lnkMiss_within {M : Nat} {s0 : State} (hM : Sub 0x10003 M) (s : State) (d n : Nat) (hW : Within M s0 s) : Within M s0 (lnkMiss s d n) := by
  unfold lnkMiss
  repeat' first
    | with_reducible assumption
    | with_reducible apply Within.ite
    | with_reducible apply bump_within (Sub.up hM rfl)
    | with_reducible apply lnkTouch_within (Sub.up hM rfl)

theorem failSend_within {M : Nat} {s0 : State} (hM : Sub 0x100000090 M) (s : State) (die status : Nat) (k : Option Nat) (h : Within M s0 s) :
    Within M s0 (failSend s die status k) := by
  cases k with
  | none => exact h
  | some k => exact endTask_within (Sub.up hM rfl) s k status die none false h

theorem bindMsg_within {M : Nat} {s0 : State} (hM : Sub 0x100020890 M) (s : State) (m : SentMsg) (hW : Within M s0 s) : Within M s0 (bindMsg s m) := by
  unfold bindMsg
  repeat' first
    | with_reducible assumption
    | (intro x
       first
         | (have hx : Within M s0 x := by
              unfold x
              repeat' first
                | with_reducible assumption
                | with_reducible apply Within.ite
                | with_reducible apply updPort_within (Sub.up hM rfl)
                | with_reducible apply updStrand_within (Sub.up hM rfl)
                | with_reducible apply failSend_within (Sub.up hM rfl)
                | (with_reducible apply Within.snd <;> [with_reducible assumption; skip])
                | (with_reducible apply Within.fst <;> [with_reducible assumption; skip])
                | (with_reducible apply Within.fst2 <;> [with_reducible assumption; skip])
                | split
                | with_reducible refine Within.unsent ?_ (Sub.has hM rfl))
         | skip
       clear_value x)
    | lift_lets -underBinder
    | with_reducible apply Within.ite
    | with_reducible apply updPort_within (Sub.up hM rfl)
    | with_reducible apply updStrand_within (Sub.up hM rfl)
    | with_reducible apply failSend_within (Sub.up hM rfl)
    | (with_reducible apply Within.snd <;> [with_reducible assumption; skip])
    | (with_reducible apply Within.fst <;> [with_reducible assumption; skip])
    | (with_reducible apply Within.fst2 <;> [with_reducible assumption; skip])
    | split
    | with_reducible refine Within.unsent ?_ (Sub.has hM rfl)

theorem bindSends_within {M : Nat} {s0 : State} (hM : Sub 0x100020890 M) (s : State) (hW : Within M s0 s) : Within M s0 (bindSends s) := by
  unfold bindSends
  repeat' first
    | with_reducible assumption
    | with_reducible apply bindMsg_within (Sub.up hM rfl)
    | with_reducible refine each_within (fun _ _ _ => ?_) ?_
    | with_reducible refine Within.unsent ?_ (Sub.has hM rfl)

theorem updMerge_within {M : Nat} {s0 : State} (hM : Sub 0x2000 M) (s : State) (d x : Nat) (f : MergeCtx → MergeCtx) (hW : Within M s0 s) : Within M s0 (updMerge s d x f) := by
  unfold updMerge
  repeat' first
    | with_reducible assumption
    | with_reducible refine Within.merges ?_ (Sub.has hM rfl)

theorem mergeTake_within {M : Nat} {s0 : State} (hM : Sub 0x310002081 M) (s : State) (d x i idx : Nat) (v : F32) (hW : Within M s0 s) : Within M s0 (mergeTake s d x i idx v) := by
  unfold mergeTake
  repeat' first
    | with_reducible assumption
    | (intro x
       first
         | (have hx : Within M s0 x := by
              unfold x
              repeat' first
                | with_reducible assumption
                | with_reducible apply Within.ite
                | with_reducible apply bump_within (Sub.up hM rfl)
                | with_reducible apply setField_within (Sub.up hM rfl)
                | with_reducible apply raise_within (Sub.up hM rfl)
                | with_reducible apply updMerge_within (Sub.up hM rfl)
                | (with_reducible apply Within.snd <;> [with_reducible assumption; skip])
                | (with_reducible apply Within.fst <;> [with_reducible assumption; skip])
                | (with_reducible apply Within.fst2 <;> [with_reducible assumption; skip])
                | split)
         | skip
       clear_value x)
    | lift_lets -underBinder
    | with_reducible apply Within.ite
    | with_reducible apply bump_within (Sub.up hM rfl)
    | with_reducible apply setField_within (Sub.up hM rfl)
    | with_reducible apply raise_within (Sub.up hM rfl)
    | with_reducible apply updMerge_within (Sub.up hM rfl)
    | (with_reducible apply Within.snd <;> [with_reducible assumption; skip])
    | (with_reducible apply Within.fst <;> [with_reducible assumption; skip])
    | (with_reducible apply Within.fst2 <;> [with_reducible assumption; skip])
    | split

theorem refuseMsg_within {M : Nat} {s0 : State} (hM : Sub 0x310000891 M) (s : State) (die : Nat) (r : RecvMsg) (cause : Nat) (hW : Within M s0 s) : Within M s0 (refuseMsg s die r cause).1 := by
  unfold refuseMsg
  repeat' first
    | with_reducible assumption
    | dsimp -zeta only
    | with_reducible apply Within.ite1
    | with_reducible apply returnNack_within (Sub.up hM rfl)

theorem refusePort_within {M : Nat} {s0 : State} (hM : Sub 0x710000891 M) (s : State) (die : Nat) (r : RecvMsg) (hW : Within M s0 s) : Within M s0 (refusePort s die r).1 := by
  unfold refusePort
  repeat' first
    | with_reducible assumption
    | (intro x
       first
         | (have hx : Within M s0 x := by
              unfold x
              repeat' first
                | with_reducible assumption
                | dsimp -zeta only
                | with_reducible apply Within.ite1
                | with_reducible apply Within.ite2
                | with_reducible apply Within.ite
                | with_reducible apply freshFree_within (Sub.up hM rfl)
                | with_reducible apply refuseMsg_within (Sub.up hM rfl)
                | (with_reducible apply Within.snd <;> [with_reducible assumption; skip])
                | (with_reducible apply Within.fst <;> [with_reducible assumption; skip])
                | (with_reducible apply Within.fst2 <;> [with_reducible assumption; skip])
                | split)
         | (have hx : Within M s0 x.1 := by
              unfold x
              repeat' first
                | with_reducible assumption
                | dsimp -zeta only
                | with_reducible apply Within.ite1
                | with_reducible apply Within.ite2
                | with_reducible apply Within.ite
                | with_reducible apply freshFree_within (Sub.up hM rfl)
                | with_reducible apply refuseMsg_within (Sub.up hM rfl)
                | (with_reducible apply Within.snd <;> [with_reducible assumption; skip])
                | (with_reducible apply Within.fst <;> [with_reducible assumption; skip])
                | (with_reducible apply Within.fst2 <;> [with_reducible assumption; skip])
                | split)
         | (have hx : Within M s0 x.2 := by
              unfold x
              repeat' first
                | with_reducible assumption
                | dsimp -zeta only
                | with_reducible apply Within.ite1
                | with_reducible apply Within.ite2
                | with_reducible apply Within.ite
                | with_reducible apply freshFree_within (Sub.up hM rfl)
                | with_reducible apply refuseMsg_within (Sub.up hM rfl)
                | (with_reducible apply Within.snd <;> [with_reducible assumption; skip])
                | (with_reducible apply Within.fst <;> [with_reducible assumption; skip])
                | (with_reducible apply Within.fst2 <;> [with_reducible assumption; skip])
                | split)
         | skip
       clear_value x)
    | lift_lets -underBinder
    | dsimp -zeta only
    | with_reducible apply Within.ite1
    | with_reducible apply Within.ite2
    | with_reducible apply Within.ite
    | with_reducible apply freshFree_within (Sub.up hM rfl)
    | with_reducible apply refuseMsg_within (Sub.up hM rfl)
    | (with_reducible apply Within.snd <;> [with_reducible assumption; skip])
    | (with_reducible apply Within.fst <;> [with_reducible assumption; skip])
    | (with_reducible apply Within.fst2 <;> [with_reducible assumption; skip])
    | split

theorem llAppend_within {M : Nat} {s0 : State} (hM : Sub 0x710080fdb M) (s : State) (die n : Nat) (data : List Byte) (hW : Within M s0 s) : Within M s0 (llAppend s die n data) := by
  unfold llAppend
  repeat' first
    | with_reducible assumption
    | (intro x
       first
         | (have hx : Within M s0 x := by
              unfold x
              repeat' first
                | with_reducible assumption
                | dsimp -zeta only
                | with_reducible apply Within.ite1
                | with_reducible apply Within.ite2
                | with_reducible apply Within.ite
                | with_reducible apply updLifeline_within (Sub.up hM rfl)
                | with_reducible apply linkWrite_within (Sub.up hM rfl)
                | (with_reducible apply Within.snd <;> [with_reducible assumption; skip])
                | (with_reducible apply Within.fst <;> [with_reducible assumption; skip])
                | (with_reducible apply Within.fst2 <;> [with_reducible assumption; skip])
                | split)
         | (have hx : Within M s0 x.1 := by
              unfold x
              repeat' first
                | with_reducible assumption
                | dsimp -zeta only
                | with_reducible apply Within.ite1
                | with_reducible apply Within.ite2
                | with_reducible apply Within.ite
                | with_reducible apply updLifeline_within (Sub.up hM rfl)
                | with_reducible apply linkWrite_within (Sub.up hM rfl)
                | (with_reducible apply Within.snd <;> [with_reducible assumption; skip])
                | (with_reducible apply Within.fst <;> [with_reducible assumption; skip])
                | (with_reducible apply Within.fst2 <;> [with_reducible assumption; skip])
                | split)
         | (have hx : Within M s0 x.2 := by
              unfold x
              repeat' first
                | with_reducible assumption
                | dsimp -zeta only
                | with_reducible apply Within.ite1
                | with_reducible apply Within.ite2
                | with_reducible apply Within.ite
                | with_reducible apply updLifeline_within (Sub.up hM rfl)
                | with_reducible apply linkWrite_within (Sub.up hM rfl)
                | (with_reducible apply Within.snd <;> [with_reducible assumption; skip])
                | (with_reducible apply Within.fst <;> [with_reducible assumption; skip])
                | (with_reducible apply Within.fst2 <;> [with_reducible assumption; skip])
                | split)
         | skip
       clear_value x)
    | lift_lets -underBinder
    | dsimp -zeta only
    | with_reducible apply Within.ite1
    | with_reducible apply Within.ite2
    | with_reducible apply Within.ite
    | with_reducible apply updLifeline_within (Sub.up hM rfl)
    | with_reducible apply linkWrite_within (Sub.up hM rfl)
    | (with_reducible apply Within.snd <;> [with_reducible assumption; skip])
    | (with_reducible apply Within.fst <;> [with_reducible assumption; skip])
    | (with_reducible apply Within.fst2 <;> [with_reducible assumption; skip])
    | split

theorem llCopy_within {M : Nat} {s0 : State} (hM : Sub 0x710080fdb M) (s : State) (die n : Nat) (data : List Byte) (hW : Within M s0 s) : Within M s0 (llCopy s die n data) := by
  unfold llCopy
  repeat' first
    | with_reducible assumption
    | (intro x
       first
         | (have hx : Within M s0 x := by
              unfold x
              repeat' first
                | with_reducible assumption
                | dsimp -zeta only
                | with_reducible apply Within.ite1
                | with_reducible apply Within.ite2
                | with_reducible apply Within.ite
                | with_reducible apply llAppend_within (Sub.up hM rfl)
                | (with_reducible apply Within.snd <;> [with_reducible assumption; skip])
                | (with_reducible apply Within.fst <;> [with_reducible assumption; skip])
                | (with_reducible apply Within.fst2 <;> [with_reducible assumption; skip])
                | split)
         | (have hx : Within M s0 x.1 := by
              unfold x
              repeat' first
                | with_reducible assumption
                | dsimp -zeta only
                | with_reducible apply Within.ite1
                | with_reducible apply Within.ite2
                | with_reducible apply Within.ite
                | with_reducible apply llAppend_within (Sub.up hM rfl)
                | (with_reducible apply Within.snd <;> [with_reducible assumption; skip])
                | (with_reducible apply Within.fst <;> [with_reducible assumption; skip])
                | (with_reducible apply Within.fst2 <;> [with_reducible assumption; skip])
                | split)
         | (have hx : Within M s0 x.2 := by
              unfold x
              repeat' first
                | with_reducible assumption
                | dsimp -zeta only
                | with_reducible apply Within.ite1
                | with_reducible apply Within.ite2
                | with_reducible apply Within.ite
                | with_reducible apply llAppend_within (Sub.up hM rfl)
                | (with_reducible apply Within.snd <;> [with_reducible assumption; skip])
                | (with_reducible apply Within.fst <;> [with_reducible assumption; skip])
                | (with_reducible apply Within.fst2 <;> [with_reducible assumption; skip])
                | split)
         | skip
       clear_value x)
    | lift_lets -underBinder
    | dsimp -zeta only
    | with_reducible apply Within.ite1
    | with_reducible apply Within.ite2
    | with_reducible apply Within.ite
    | with_reducible apply llAppend_within (Sub.up hM rfl)
    | (with_reducible apply Within.snd <;> [with_reducible assumption; skip])
    | (with_reducible apply Within.fst <;> [with_reducible assumption; skip])
    | (with_reducible apply Within.fst2 <;> [with_reducible assumption; skip])
    | split

theorem deliverRow_within {M : Nat} {s0 : State} (hM : Sub 0x710080fdb M) (s : State) (die : Nat) (r : RecvMsg) (ws : List Nat) (hW : Within M s0 s) : Within M s0 (deliverRow s die r ws).1 := by
  unfold deliverRow
  repeat' first
    | with_reducible assumption
    | (intro x
       first
         | (have hx : Within M s0 x := by
              unfold x
              repeat' first
                | with_reducible assumption
                | dsimp -zeta only
                | with_reducible apply Within.ite1
                | with_reducible apply Within.ite2
                | with_reducible apply Within.ite
                | with_reducible apply linkWrite_within (Sub.up hM rfl)
                | with_reducible apply refuseMsg_within (Sub.up hM rfl)
                | with_reducible apply llCopy_within (Sub.up hM rfl)
                | (with_reducible apply Within.snd <;> [with_reducible assumption; skip])
                | (with_reducible apply Within.fst <;> [with_reducible assumption; skip])
                | (with_reducible apply Within.fst2 <;> [with_reducible assumption; skip])
                | split)
         | (have hx : Within M s0 x.1 := by
              unfold x
              repeat' first
                | with_reducible assumption
                | dsimp -zeta only
                | with_reducible apply Within.ite1
                | with_reducible apply Within.ite2
                | with_reducible apply Within.ite
                | with_reducible apply linkWrite_within (Sub.up hM rfl)
                | with_reducible apply refuseMsg_within (Sub.up hM rfl)
                | with_reducible apply llCopy_within (Sub.up hM rfl)
                | (with_reducible apply Within.snd <;> [with_reducible assumption; skip])
                | (with_reducible apply Within.fst <;> [with_reducible assumption; skip])
                | (with_reducible apply Within.fst2 <;> [with_reducible assumption; skip])
                | split)
         | (have hx : Within M s0 x.2 := by
              unfold x
              repeat' first
                | with_reducible assumption
                | dsimp -zeta only
                | with_reducible apply Within.ite1
                | with_reducible apply Within.ite2
                | with_reducible apply Within.ite
                | with_reducible apply linkWrite_within (Sub.up hM rfl)
                | with_reducible apply refuseMsg_within (Sub.up hM rfl)
                | with_reducible apply llCopy_within (Sub.up hM rfl)
                | (with_reducible apply Within.snd <;> [with_reducible assumption; skip])
                | (with_reducible apply Within.fst <;> [with_reducible assumption; skip])
                | (with_reducible apply Within.fst2 <;> [with_reducible assumption; skip])
                | split)
         | skip
       clear_value x)
    | lift_lets -underBinder
    | dsimp -zeta only
    | with_reducible apply Within.ite1
    | with_reducible apply Within.ite2
    | with_reducible apply Within.ite
    | with_reducible apply linkWrite_within (Sub.up hM rfl)
    | with_reducible apply refuseMsg_within (Sub.up hM rfl)
    | with_reducible apply llCopy_within (Sub.up hM rfl)
    | (with_reducible apply Within.snd <;> [with_reducible assumption; skip])
    | (with_reducible apply Within.fst <;> [with_reducible assumption; skip])
    | (with_reducible apply Within.fst2 <;> [with_reducible assumption; skip])
    | split

theorem deliverWord_within {M : Nat} {s0 : State} (hM : Sub 0x710082fdb M) (s : State) (die : Nat) (r : RecvMsg) (w : Nat) (hW : Within M s0 s) : Within M s0 (deliverWord s die r w).1 := by
  unfold deliverWord
  repeat' first
    | with_reducible assumption
    | (intro x
       first
         | (have hx : Within M s0 x := by
              unfold x
              repeat' first
                | with_reducible assumption
                | dsimp -zeta only
                | with_reducible apply Within.ite1
                | with_reducible apply Within.ite2
                | with_reducible apply Within.ite
                | with_reducible apply queData_within (Sub.up hM rfl)
                | with_reducible apply mergeTake_within (Sub.up hM rfl)
                | with_reducible apply refuseMsg_within (Sub.up hM rfl)
                | with_reducible apply refusePort_within (Sub.up hM rfl)
                | with_reducible apply llCopy_within (Sub.up hM rfl)
                | (with_reducible apply Within.snd <;> [with_reducible assumption; skip])
                | (with_reducible apply Within.fst <;> [with_reducible assumption; skip])
                | (with_reducible apply Within.fst2 <;> [with_reducible assumption; skip])
                | split)
         | (have hx : Within M s0 x.1 := by
              unfold x
              repeat' first
                | with_reducible assumption
                | dsimp -zeta only
                | with_reducible apply Within.ite1
                | with_reducible apply Within.ite2
                | with_reducible apply Within.ite
                | with_reducible apply queData_within (Sub.up hM rfl)
                | with_reducible apply mergeTake_within (Sub.up hM rfl)
                | with_reducible apply refuseMsg_within (Sub.up hM rfl)
                | with_reducible apply refusePort_within (Sub.up hM rfl)
                | with_reducible apply llCopy_within (Sub.up hM rfl)
                | (with_reducible apply Within.snd <;> [with_reducible assumption; skip])
                | (with_reducible apply Within.fst <;> [with_reducible assumption; skip])
                | (with_reducible apply Within.fst2 <;> [with_reducible assumption; skip])
                | split)
         | (have hx : Within M s0 x.2 := by
              unfold x
              repeat' first
                | with_reducible assumption
                | dsimp -zeta only
                | with_reducible apply Within.ite1
                | with_reducible apply Within.ite2
                | with_reducible apply Within.ite
                | with_reducible apply queData_within (Sub.up hM rfl)
                | with_reducible apply mergeTake_within (Sub.up hM rfl)
                | with_reducible apply refuseMsg_within (Sub.up hM rfl)
                | with_reducible apply refusePort_within (Sub.up hM rfl)
                | with_reducible apply llCopy_within (Sub.up hM rfl)
                | (with_reducible apply Within.snd <;> [with_reducible assumption; skip])
                | (with_reducible apply Within.fst <;> [with_reducible assumption; skip])
                | (with_reducible apply Within.fst2 <;> [with_reducible assumption; skip])
                | split)
         | skip
       clear_value x)
    | lift_lets -underBinder
    | dsimp -zeta only
    | with_reducible apply Within.ite1
    | with_reducible apply Within.ite2
    | with_reducible apply Within.ite
    | with_reducible apply queData_within (Sub.up hM rfl)
    | with_reducible apply mergeTake_within (Sub.up hM rfl)
    | with_reducible apply refuseMsg_within (Sub.up hM rfl)
    | with_reducible apply refusePort_within (Sub.up hM rfl)
    | with_reducible apply llCopy_within (Sub.up hM rfl)
    | (with_reducible apply Within.snd <;> [with_reducible assumption; skip])
    | (with_reducible apply Within.fst <;> [with_reducible assumption; skip])
    | (with_reducible apply Within.fst2 <;> [with_reducible assumption; skip])
    | split

theorem endMsg_within {M : Nat} {s0 : State} (hM : Sub 0x7100028d3 M) (s : State) (die : Nat) (r : RecvMsg) (hW : Within M s0 s) : Within M s0 (endMsg s die r) := by
  unfold endMsg
  repeat' first
    | with_reducible assumption
    | (intro x
       first
         | (have hx : Within M s0 x := by
              unfold x
              repeat' first
                | with_reducible assumption
                | dsimp -zeta only
                | with_reducible apply Within.ite1
                | with_reducible apply Within.ite2
                | with_reducible apply Within.ite
                | with_reducible apply queClose_within (Sub.up hM rfl)
                | with_reducible apply updMerge_within (Sub.up hM rfl)
                | with_reducible apply refusePort_within (Sub.up hM rfl)
                | (with_reducible apply Within.snd <;> [with_reducible assumption; skip])
                | (with_reducible apply Within.fst <;> [with_reducible assumption; skip])
                | (with_reducible apply Within.fst2 <;> [with_reducible assumption; skip])
                | split)
         | (have hx : Within M s0 x.1 := by
              unfold x
              repeat' first
                | with_reducible assumption
                | dsimp -zeta only
                | with_reducible apply Within.ite1
                | with_reducible apply Within.ite2
                | with_reducible apply Within.ite
                | with_reducible apply queClose_within (Sub.up hM rfl)
                | with_reducible apply updMerge_within (Sub.up hM rfl)
                | with_reducible apply refusePort_within (Sub.up hM rfl)
                | (with_reducible apply Within.snd <;> [with_reducible assumption; skip])
                | (with_reducible apply Within.fst <;> [with_reducible assumption; skip])
                | (with_reducible apply Within.fst2 <;> [with_reducible assumption; skip])
                | split)
         | (have hx : Within M s0 x.2 := by
              unfold x
              repeat' first
                | with_reducible assumption
                | dsimp -zeta only
                | with_reducible apply Within.ite1
                | with_reducible apply Within.ite2
                | with_reducible apply Within.ite
                | with_reducible apply queClose_within (Sub.up hM rfl)
                | with_reducible apply updMerge_within (Sub.up hM rfl)
                | with_reducible apply refusePort_within (Sub.up hM rfl)
                | (with_reducible apply Within.snd <;> [with_reducible assumption; skip])
                | (with_reducible apply Within.fst <;> [with_reducible assumption; skip])
                | (with_reducible apply Within.fst2 <;> [with_reducible assumption; skip])
                | split)
         | skip
       clear_value x)
    | lift_lets -underBinder
    | dsimp -zeta only
    | with_reducible apply Within.ite1
    | with_reducible apply Within.ite2
    | with_reducible apply Within.ite
    | with_reducible apply queClose_within (Sub.up hM rfl)
    | with_reducible apply updMerge_within (Sub.up hM rfl)
    | with_reducible apply refusePort_within (Sub.up hM rfl)
    | (with_reducible apply Within.snd <;> [with_reducible assumption; skip])
    | (with_reducible apply Within.fst <;> [with_reducible assumption; skip])
    | (with_reducible apply Within.fst2 <;> [with_reducible assumption; skip])
    | split

theorem pump_within {M : Nat} {s0 : State} (hM : Sub 0x710082fdb M) (n : Nat) (s : State) (die : Nat) (r : RecvMsg) (h : Within M s0 s) :
    Within M s0 (pump n s die r).1 := by
  induction n generalizing s r with
  | zero => exact h
  | succ n ih =>
    unfold pump
    split
    · exact h
    · dsimp only
      split
      · split
        · split
          · exact ih _ _ (llCopy_within (Sub.up hM rfl) _ _ _ _ (ingressRow_within (Sub.up hM rfl) _ _ _ _ _ _ h))
          · exact refuseMsg_within (Sub.up hM rfl) _ _ _ _ (ingressRow_within (Sub.up hM rfl) _ _ _ _ _ _ h)
        · split
          · split
            · exact ih _ _ (llCopy_within (Sub.up hM rfl) _ _ _ _ (ingressNarrow_within (Sub.up hM rfl) _ _ _ _ _ _ _ _ h))
            · exact refuseMsg_within (Sub.up hM rfl) _ _ _ _ (ingressNarrow_within (Sub.up hM rfl) _ _ _ _ _ _ _ _ h)
          · exact h
      · split
        · split
          · exact ih _ _ (deliverRow_within (Sub.up hM rfl) _ _ _ _ h)
          · exact h
        · split
          · exact h
          · split
            · exact h
            · exact ih _ _ (deliverWord_within (Sub.up hM rfl) _ _ _ _ h)

theorem putMsg_within {M : Nat} {s0 : State} (hM : Sub 0x7100028d3 M) (s : State) (p : Nat) (r : RecvMsg) (hW : Within M s0 s) : Within M s0 (putMsg s p r) := by
  unfold putMsg
  repeat' first
    | with_reducible assumption
    | (intro x
       first
         | (have hx : Within M s0 x := by
              unfold x
              repeat' first
                | with_reducible assumption
                | dsimp -zeta only
                | with_reducible apply Within.ite1
                | with_reducible apply Within.ite2
                | with_reducible apply Within.ite
                | with_reducible apply updPort_within (Sub.up hM rfl)
                | with_reducible apply endMsg_within (Sub.up hM rfl)
                | (with_reducible apply Within.snd <;> [with_reducible assumption; skip])
                | (with_reducible apply Within.fst <;> [with_reducible assumption; skip])
                | (with_reducible apply Within.fst2 <;> [with_reducible assumption; skip])
                | split)
         | (have hx : Within M s0 x.1 := by
              unfold x
              repeat' first
                | with_reducible assumption
                | dsimp -zeta only
                | with_reducible apply Within.ite1
                | with_reducible apply Within.ite2
                | with_reducible apply Within.ite
                | with_reducible apply updPort_within (Sub.up hM rfl)
                | with_reducible apply endMsg_within (Sub.up hM rfl)
                | (with_reducible apply Within.snd <;> [with_reducible assumption; skip])
                | (with_reducible apply Within.fst <;> [with_reducible assumption; skip])
                | (with_reducible apply Within.fst2 <;> [with_reducible assumption; skip])
                | split)
         | (have hx : Within M s0 x.2 := by
              unfold x
              repeat' first
                | with_reducible assumption
                | dsimp -zeta only
                | with_reducible apply Within.ite1
                | with_reducible apply Within.ite2
                | with_reducible apply Within.ite
                | with_reducible apply updPort_within (Sub.up hM rfl)
                | with_reducible apply endMsg_within (Sub.up hM rfl)
                | (with_reducible apply Within.snd <;> [with_reducible assumption; skip])
                | (with_reducible apply Within.fst <;> [with_reducible assumption; skip])
                | (with_reducible apply Within.fst2 <;> [with_reducible assumption; skip])
                | split)
         | skip
       clear_value x)
    | lift_lets -underBinder
    | dsimp -zeta only
    | with_reducible apply Within.ite1
    | with_reducible apply Within.ite2
    | with_reducible apply Within.ite
    | with_reducible apply updPort_within (Sub.up hM rfl)
    | with_reducible apply endMsg_within (Sub.up hM rfl)
    | (with_reducible apply Within.snd <;> [with_reducible assumption; skip])
    | (with_reducible apply Within.fst <;> [with_reducible assumption; skip])
    | (with_reducible apply Within.fst2 <;> [with_reducible assumption; skip])
    | split

theorem startMsg_within {M : Nat} {s0 : State} (hM : Sub 0x7100008d3 M) (s : State) (die : Nat) (r : RecvMsg) (hW : Within M s0 s) : Within M s0 (startMsg s die r).1 := by
  unfold startMsg
  repeat' first
    | with_reducible assumption
    | (intro x
       first
         | (have hx : Within M s0 x := by
              unfold x
              repeat' first
                | with_reducible assumption
                | dsimp -zeta only
                | with_reducible apply Within.ite1
                | with_reducible apply Within.ite2
                | with_reducible apply Within.ite
                | with_reducible apply bump_within (Sub.up hM rfl)
                | with_reducible apply updStrand_within (Sub.up hM rfl)
                | with_reducible apply freshFree_within (Sub.up hM rfl)
                | with_reducible apply raise_within (Sub.up hM rfl)
                | with_reducible apply sendNack_within (Sub.up hM rfl)
                | with_reducible apply queOpen_within (Sub.up hM rfl)
                | with_reducible apply refuseMsg_within (Sub.up hM rfl)
                | with_reducible apply refusePort_within (Sub.up hM rfl)
                | (with_reducible apply Within.snd <;> [with_reducible assumption; skip])
                | (with_reducible apply Within.fst <;> [with_reducible assumption; skip])
                | (with_reducible apply Within.fst2 <;> [with_reducible assumption; skip])
                | split)
         | (have hx : Within M s0 x.1 := by
              unfold x
              repeat' first
                | with_reducible assumption
                | dsimp -zeta only
                | with_reducible apply Within.ite1
                | with_reducible apply Within.ite2
                | with_reducible apply Within.ite
                | with_reducible apply bump_within (Sub.up hM rfl)
                | with_reducible apply updStrand_within (Sub.up hM rfl)
                | with_reducible apply freshFree_within (Sub.up hM rfl)
                | with_reducible apply raise_within (Sub.up hM rfl)
                | with_reducible apply sendNack_within (Sub.up hM rfl)
                | with_reducible apply queOpen_within (Sub.up hM rfl)
                | with_reducible apply refuseMsg_within (Sub.up hM rfl)
                | with_reducible apply refusePort_within (Sub.up hM rfl)
                | (with_reducible apply Within.snd <;> [with_reducible assumption; skip])
                | (with_reducible apply Within.fst <;> [with_reducible assumption; skip])
                | (with_reducible apply Within.fst2 <;> [with_reducible assumption; skip])
                | split)
         | (have hx : Within M s0 x.2 := by
              unfold x
              repeat' first
                | with_reducible assumption
                | dsimp -zeta only
                | with_reducible apply Within.ite1
                | with_reducible apply Within.ite2
                | with_reducible apply Within.ite
                | with_reducible apply bump_within (Sub.up hM rfl)
                | with_reducible apply updStrand_within (Sub.up hM rfl)
                | with_reducible apply freshFree_within (Sub.up hM rfl)
                | with_reducible apply raise_within (Sub.up hM rfl)
                | with_reducible apply sendNack_within (Sub.up hM rfl)
                | with_reducible apply queOpen_within (Sub.up hM rfl)
                | with_reducible apply refuseMsg_within (Sub.up hM rfl)
                | with_reducible apply refusePort_within (Sub.up hM rfl)
                | (with_reducible apply Within.snd <;> [with_reducible assumption; skip])
                | (with_reducible apply Within.fst <;> [with_reducible assumption; skip])
                | (with_reducible apply Within.fst2 <;> [with_reducible assumption; skip])
                | split)
         | skip
       clear_value x)
    | lift_lets -underBinder
    | dsimp -zeta only
    | with_reducible apply Within.ite1
    | with_reducible apply Within.ite2
    | with_reducible apply Within.ite
    | with_reducible apply bump_within (Sub.up hM rfl)
    | with_reducible apply updStrand_within (Sub.up hM rfl)
    | with_reducible apply freshFree_within (Sub.up hM rfl)
    | with_reducible apply raise_within (Sub.up hM rfl)
    | with_reducible apply sendNack_within (Sub.up hM rfl)
    | with_reducible apply queOpen_within (Sub.up hM rfl)
    | with_reducible apply refuseMsg_within (Sub.up hM rfl)
    | with_reducible apply refusePort_within (Sub.up hM rfl)
    | (with_reducible apply Within.snd <;> [with_reducible assumption; skip])
    | (with_reducible apply Within.fst <;> [with_reducible assumption; skip])
    | (with_reducible apply Within.fst2 <;> [with_reducible assumption; skip])
    | split

theorem deliverHere_within {M : Nat} {s0 : State} (hM : Sub 0x710082fdb M) (s : State) (die : Nat) (n seq : Nat) (h data : List Nat) (hW : Within M s0 s) : Within M s0 (deliverHere s die n seq h data) := by
  unfold deliverHere
  repeat' first
    | with_reducible assumption
    | (intro x
       first
         | (have hx : Within M s0 x := by
              unfold x
              repeat' first
                | with_reducible assumption
                | with_reducible apply pump_within (Sub.up hM rfl)
                | with_reducible apply putMsg_within (Sub.up hM rfl)
                | with_reducible apply startMsg_within (Sub.up hM rfl)
                | (with_reducible apply Within.snd <;> [with_reducible assumption; skip])
                | (with_reducible apply Within.fst <;> [with_reducible assumption; skip])
                | (with_reducible apply Within.fst2 <;> [with_reducible assumption; skip]))
         | (have hx : Within M s0 x.1 := by
              unfold x
              repeat' first
                | with_reducible assumption
                | with_reducible apply pump_within (Sub.up hM rfl)
                | with_reducible apply putMsg_within (Sub.up hM rfl)
                | with_reducible apply startMsg_within (Sub.up hM rfl)
                | (with_reducible apply Within.snd <;> [with_reducible assumption; skip])
                | (with_reducible apply Within.fst <;> [with_reducible assumption; skip])
                | (with_reducible apply Within.fst2 <;> [with_reducible assumption; skip]))
         | (have hx : Within M s0 x.2 := by
              unfold x
              repeat' first
                | with_reducible assumption
                | with_reducible apply pump_within (Sub.up hM rfl)
                | with_reducible apply putMsg_within (Sub.up hM rfl)
                | with_reducible apply startMsg_within (Sub.up hM rfl)
                | (with_reducible apply Within.snd <;> [with_reducible assumption; skip])
                | (with_reducible apply Within.fst <;> [with_reducible assumption; skip])
                | (with_reducible apply Within.fst2 <;> [with_reducible assumption; skip]))
         | skip
       clear_value x)
    | lift_lets -underBinder
    | with_reducible apply pump_within (Sub.up hM rfl)
    | with_reducible apply putMsg_within (Sub.up hM rfl)
    | with_reducible apply startMsg_within (Sub.up hM rfl)
    | (with_reducible apply Within.snd <;> [with_reducible assumption; skip])
    | (with_reducible apply Within.fst <;> [with_reducible assumption; skip])
    | (with_reducible apply Within.fst2 <;> [with_reducible assumption; skip])

theorem postMsg_within {M : Nat} {s0 : State} (hM : Sub 0x7100e3fdb M) (s : State) (die n : Nat) (h data : List Nat) (task : Option Nat) (done : Nat) (hW : Within M s0 s) : Within M s0 (postMsg s die n h data task done) := by
  unfold postMsg
  repeat' first
    | with_reducible assumption
    | (intro x
       first
         | (have hx : Within M s0 x := by
              unfold x
              repeat' first
                | with_reducible assumption
                | with_reducible apply hfa
                | with_reducible apply hfb
                | with_reducible apply hfc
                | with_reducible apply hfd
                | with_reducible apply hfe
                | with_reducible apply Within.ite
                | with_reducible apply updPort_within (Sub.up hM rfl)
                | with_reducible apply updStrand_within (Sub.up hM rfl)
                | with_reducible apply countMarker_within (Sub.up hM rfl)
                | with_reducible apply updGroup_within (Sub.up hM rfl)
                | with_reducible apply failSend_within (Sub.up hM rfl)
                | with_reducible apply bindMsg_within (Sub.up hM rfl)
                | with_reducible apply deliverHere_within (Sub.up hM rfl)
                | with_reducible refine each_within (fun _ _ _ => ?_) ?_
                | (with_reducible apply Within.snd <;> [with_reducible assumption; skip])
                | (with_reducible apply Within.fst <;> [with_reducible assumption; skip])
                | (with_reducible apply Within.fst2 <;> [with_reducible assumption; skip])
                | split
                | with_reducible refine Within.posted ?_ (Sub.has hM rfl))
         | (have hfa : ∀ t, Within M s0 t → Within M s0 (x t) := by
              intro t ht; unfold x
              repeat' first
                | with_reducible assumption
                | with_reducible apply hfa
                | with_reducible apply hfb
                | with_reducible apply hfc
                | with_reducible apply hfd
                | with_reducible apply hfe
                | with_reducible apply Within.ite
                | with_reducible apply updPort_within (Sub.up hM rfl)
                | with_reducible apply updStrand_within (Sub.up hM rfl)
                | with_reducible apply countMarker_within (Sub.up hM rfl)
                | with_reducible apply updGroup_within (Sub.up hM rfl)
                | with_reducible apply failSend_within (Sub.up hM rfl)
                | with_reducible apply bindMsg_within (Sub.up hM rfl)
                | with_reducible apply deliverHere_within (Sub.up hM rfl)
                | with_reducible refine each_within (fun _ _ _ => ?_) ?_
                | (with_reducible apply Within.snd <;> [with_reducible assumption; skip])
                | (with_reducible apply Within.fst <;> [with_reducible assumption; skip])
                | (with_reducible apply Within.fst2 <;> [with_reducible assumption; skip])
                | split
                | with_reducible refine Within.posted ?_ (Sub.has hM rfl))
         | (have hfb : ∀ t a, Within M s0 t → Within M s0 (x t a) := by
              intro t a ht; unfold x
              repeat' first
                | with_reducible assumption
                | with_reducible apply hfa
                | with_reducible apply hfb
                | with_reducible apply hfc
                | with_reducible apply hfd
                | with_reducible apply hfe
                | with_reducible apply Within.ite
                | with_reducible apply updPort_within (Sub.up hM rfl)
                | with_reducible apply updStrand_within (Sub.up hM rfl)
                | with_reducible apply countMarker_within (Sub.up hM rfl)
                | with_reducible apply updGroup_within (Sub.up hM rfl)
                | with_reducible apply failSend_within (Sub.up hM rfl)
                | with_reducible apply bindMsg_within (Sub.up hM rfl)
                | with_reducible apply deliverHere_within (Sub.up hM rfl)
                | with_reducible refine each_within (fun _ _ _ => ?_) ?_
                | (with_reducible apply Within.snd <;> [with_reducible assumption; skip])
                | (with_reducible apply Within.fst <;> [with_reducible assumption; skip])
                | (with_reducible apply Within.fst2 <;> [with_reducible assumption; skip])
                | split
                | with_reducible refine Within.posted ?_ (Sub.has hM rfl))
         | (have hfc : ∀ t a b, Within M s0 t → Within M s0 (x t a b) := by
              intro t a b ht; unfold x
              repeat' first
                | with_reducible assumption
                | with_reducible apply hfa
                | with_reducible apply hfb
                | with_reducible apply hfc
                | with_reducible apply hfd
                | with_reducible apply hfe
                | with_reducible apply Within.ite
                | with_reducible apply updPort_within (Sub.up hM rfl)
                | with_reducible apply updStrand_within (Sub.up hM rfl)
                | with_reducible apply countMarker_within (Sub.up hM rfl)
                | with_reducible apply updGroup_within (Sub.up hM rfl)
                | with_reducible apply failSend_within (Sub.up hM rfl)
                | with_reducible apply bindMsg_within (Sub.up hM rfl)
                | with_reducible apply deliverHere_within (Sub.up hM rfl)
                | with_reducible refine each_within (fun _ _ _ => ?_) ?_
                | (with_reducible apply Within.snd <;> [with_reducible assumption; skip])
                | (with_reducible apply Within.fst <;> [with_reducible assumption; skip])
                | (with_reducible apply Within.fst2 <;> [with_reducible assumption; skip])
                | split
                | with_reducible refine Within.posted ?_ (Sub.has hM rfl))
         | (have hfd : ∀ t, Within M s0 t → Within M s0 (x t).1 := by
              intro t ht; unfold x
              repeat' first
                | with_reducible assumption
                | with_reducible apply hfa
                | with_reducible apply hfb
                | with_reducible apply hfc
                | with_reducible apply hfd
                | with_reducible apply hfe
                | with_reducible apply Within.ite
                | with_reducible apply updPort_within (Sub.up hM rfl)
                | with_reducible apply updStrand_within (Sub.up hM rfl)
                | with_reducible apply countMarker_within (Sub.up hM rfl)
                | with_reducible apply updGroup_within (Sub.up hM rfl)
                | with_reducible apply failSend_within (Sub.up hM rfl)
                | with_reducible apply bindMsg_within (Sub.up hM rfl)
                | with_reducible apply deliverHere_within (Sub.up hM rfl)
                | with_reducible refine each_within (fun _ _ _ => ?_) ?_
                | (with_reducible apply Within.snd <;> [with_reducible assumption; skip])
                | (with_reducible apply Within.fst <;> [with_reducible assumption; skip])
                | (with_reducible apply Within.fst2 <;> [with_reducible assumption; skip])
                | split
                | with_reducible refine Within.posted ?_ (Sub.has hM rfl))
         | (have hfe : ∀ t, Within M s0 t → Within M s0 (x t).2 := by
              intro t ht; unfold x
              repeat' first
                | with_reducible assumption
                | with_reducible apply hfa
                | with_reducible apply hfb
                | with_reducible apply hfc
                | with_reducible apply hfd
                | with_reducible apply hfe
                | with_reducible apply Within.ite
                | with_reducible apply updPort_within (Sub.up hM rfl)
                | with_reducible apply updStrand_within (Sub.up hM rfl)
                | with_reducible apply countMarker_within (Sub.up hM rfl)
                | with_reducible apply updGroup_within (Sub.up hM rfl)
                | with_reducible apply failSend_within (Sub.up hM rfl)
                | with_reducible apply bindMsg_within (Sub.up hM rfl)
                | with_reducible apply deliverHere_within (Sub.up hM rfl)
                | with_reducible refine each_within (fun _ _ _ => ?_) ?_
                | (with_reducible apply Within.snd <;> [with_reducible assumption; skip])
                | (with_reducible apply Within.fst <;> [with_reducible assumption; skip])
                | (with_reducible apply Within.fst2 <;> [with_reducible assumption; skip])
                | split
                | with_reducible refine Within.posted ?_ (Sub.has hM rfl))
         | skip
       clear_value x)
    | lift_lets -underBinder
    | with_reducible apply hfa
    | with_reducible apply hfb
    | with_reducible apply hfc
    | with_reducible apply hfd
    | with_reducible apply hfe
    | with_reducible apply Within.ite
    | with_reducible apply updPort_within (Sub.up hM rfl)
    | with_reducible apply updStrand_within (Sub.up hM rfl)
    | with_reducible apply countMarker_within (Sub.up hM rfl)
    | with_reducible apply updGroup_within (Sub.up hM rfl)
    | with_reducible apply failSend_within (Sub.up hM rfl)
    | with_reducible apply bindMsg_within (Sub.up hM rfl)
    | with_reducible apply deliverHere_within (Sub.up hM rfl)
    | with_reducible refine each_within (fun _ _ _ => ?_) ?_
    | (with_reducible apply Within.snd <;> [with_reducible assumption; skip])
    | (with_reducible apply Within.fst <;> [with_reducible assumption; skip])
    | (with_reducible apply Within.fst2 <;> [with_reducible assumption; skip])
    | split
    | with_reducible refine Within.posted ?_ (Sub.has hM rfl)

theorem forwardFlit_within {M : Nat} {s0 : State} (hM : Sub 0x801 M) (s : State) (p q : Nat) (f : Flit) (hW : Within M s0 s) : Within M s0 (forwardFlit s p q f) := by
  unfold forwardFlit
  repeat' first
    | with_reducible assumption
    | (intro x
       first
         | (have hx : Within M s0 x := by
              unfold x
              repeat' first
                | with_reducible assumption
                | with_reducible apply Within.ite
                | with_reducible apply bump_within (Sub.up hM rfl)
                | with_reducible apply updPort_within (Sub.up hM rfl)
                | (with_reducible apply Within.snd <;> [with_reducible assumption; skip])
                | (with_reducible apply Within.fst <;> [with_reducible assumption; skip])
                | (with_reducible apply Within.fst2 <;> [with_reducible assumption; skip])
                | split)
         | skip
       clear_value x)
    | lift_lets -underBinder
    | with_reducible apply Within.ite
    | with_reducible apply bump_within (Sub.up hM rfl)
    | with_reducible apply updPort_within (Sub.up hM rfl)
    | (with_reducible apply Within.snd <;> [with_reducible assumption; skip])
    | (with_reducible apply Within.fst <;> [with_reducible assumption; skip])
    | (with_reducible apply Within.fst2 <;> [with_reducible assumption; skip])
    | split

theorem flitCredit_within {M : Nat} {s0 : State} (hM : Sub 0x840 M) (s : State) (r : RecvMsg) (hW : Within M s0 s) : Within M s0 (flitCredit s r) := by
  unfold flitCredit
  repeat' first
    | with_reducible assumption
    | (intro x
       first
         | (have hx : Within M s0 x := by
              unfold x
              repeat' first
                | with_reducible assumption
                | with_reducible apply Within.ite
                | with_reducible apply updQueue_within (Sub.up hM rfl)
                | with_reducible apply sendCredit_within (Sub.up hM rfl)
                | (with_reducible apply Within.snd <;> [with_reducible assumption; skip])
                | (with_reducible apply Within.fst <;> [with_reducible assumption; skip])
                | (with_reducible apply Within.fst2 <;> [with_reducible assumption; skip])
                | split)
         | skip
       clear_value x)
    | lift_lets -underBinder
    | with_reducible apply Within.ite
    | with_reducible apply updQueue_within (Sub.up hM rfl)
    | with_reducible apply sendCredit_within (Sub.up hM rfl)
    | (with_reducible apply Within.snd <;> [with_reducible assumption; skip])
    | (with_reducible apply Within.fst <;> [with_reducible assumption; skip])
    | (with_reducible apply Within.fst2 <;> [with_reducible assumption; skip])
    | split

theorem feed_within {M : Nat} {s0 : State} (hM : Sub 0x710082fdb M) (s : State) (p : Nat) (r : RecvMsg) (ws : List Nat) (last : Bool) (hW : Within M s0 s) : Within M s0 (feed s p r ws last).1 := by
  unfold feed
  repeat' first
    | with_reducible assumption
    | (intro x
       first
         | (have hx : Within M s0 x := by
              unfold x
              repeat' first
                | with_reducible assumption
                | dsimp -zeta only
                | with_reducible apply Within.ite1
                | with_reducible apply pump_within (Sub.up hM rfl)
                | (with_reducible apply Within.snd <;> [with_reducible assumption; skip])
                | (with_reducible apply Within.fst <;> [with_reducible assumption; skip])
                | (with_reducible apply Within.fst2 <;> [with_reducible assumption; skip]))
         | (have hx : Within M s0 x.1 := by
              unfold x
              repeat' first
                | with_reducible assumption
                | dsimp -zeta only
                | with_reducible apply Within.ite1
                | with_reducible apply pump_within (Sub.up hM rfl)
                | (with_reducible apply Within.snd <;> [with_reducible assumption; skip])
                | (with_reducible apply Within.fst <;> [with_reducible assumption; skip])
                | (with_reducible apply Within.fst2 <;> [with_reducible assumption; skip]))
         | (have hx : Within M s0 x.2 := by
              unfold x
              repeat' first
                | with_reducible assumption
                | dsimp -zeta only
                | with_reducible apply Within.ite1
                | with_reducible apply pump_within (Sub.up hM rfl)
                | (with_reducible apply Within.snd <;> [with_reducible assumption; skip])
                | (with_reducible apply Within.fst <;> [with_reducible assumption; skip])
                | (with_reducible apply Within.fst2 <;> [with_reducible assumption; skip]))
         | skip
       clear_value x)
    | lift_lets -underBinder
    | dsimp -zeta only
    | with_reducible apply Within.ite1
    | with_reducible apply pump_within (Sub.up hM rfl)
    | (with_reducible apply Within.snd <;> [with_reducible assumption; skip])
    | (with_reducible apply Within.fst <;> [with_reducible assumption; skip])
    | (with_reducible apply Within.fst2 <;> [with_reducible assumption; skip])

theorem askRange_within {M : Nat} {s0 : State} (hM : Sub 0x1800 M) (s : State) (g lo hi : Nat) (hW : Within M s0 s) : Within M s0 (askRange s g lo hi) := by
  unfold askRange
  repeat' first
    | with_reducible assumption
    | with_reducible apply controlTo_within (Sub.up hM rfl)
    | with_reducible apply updGroup_within (Sub.up hM rfl)

theorem gapState_within {M : Nat} {s0 : State} (hM : Sub 0x1 M) (s : State) (g v : Nat) (hW : Within M s0 s) : Within M s0 (gapState s g v) := by
  unfold gapState
  repeat' first
    | with_reducible assumption
    | with_reducible apply setField_within (Sub.up hM rfl)
    | (with_reducible apply Within.snd <;> [with_reducible assumption; skip])
    | (with_reducible apply Within.fst <;> [with_reducible assumption; skip])
    | (with_reducible apply Within.fst2 <;> [with_reducible assumption; skip])
    | split

theorem accept_within {M : Nat} {s0 : State} (hM : Sub 0x1801 M) (s : State) (g off : Nat) (hW : Within M s0 s) : Within M s0 (accept s g off) := by
  unfold accept
  repeat' first
    | with_reducible assumption
    | (intro x
       first
         | (have hx : Within M s0 x := by
              unfold x
              repeat' first
                | with_reducible assumption
                | with_reducible apply Within.ite
                | with_reducible apply controlTo_within (Sub.up hM rfl)
                | with_reducible apply updGroup_within (Sub.up hM rfl)
                | with_reducible apply askRange_within (Sub.up hM rfl)
                | with_reducible apply gapState_within (Sub.up hM rfl))
         | skip
       clear_value x)
    | lift_lets -underBinder
    | with_reducible apply Within.ite
    | with_reducible apply controlTo_within (Sub.up hM rfl)
    | with_reducible apply updGroup_within (Sub.up hM rfl)
    | with_reducible apply askRange_within (Sub.up hM rfl)
    | with_reducible apply gapState_within (Sub.up hM rfl)

theorem localFlit_within {M : Nat} {s0 : State} (hM : Sub 0x710093fdb M) (s : State) (p : Nat) (f : Flit) (hW : Within M s0 s) : Within M s0 (localFlit s p f) := by
  unfold localFlit
  repeat' first
    | with_reducible assumption
    | (intro x
       first
         | (have hx : Within M s0 x := by
              unfold x
              repeat' first
                | with_reducible assumption
                | with_reducible apply hfa
                | with_reducible apply hfb
                | with_reducible apply hfc
                | with_reducible apply hfd
                | with_reducible apply hfe
                | with_reducible apply Within.ite
                | with_reducible apply lnkTouch_within (Sub.up hM rfl)
                | with_reducible apply putMsg_within (Sub.up hM rfl)
                | with_reducible apply startMsg_within (Sub.up hM rfl)
                | with_reducible apply flitCredit_within (Sub.up hM rfl)
                | with_reducible apply feed_within (Sub.up hM rfl)
                | with_reducible apply accept_within (Sub.up hM rfl)
                | (with_reducible apply Within.snd <;> [with_reducible assumption; skip])
                | (with_reducible apply Within.fst <;> [with_reducible assumption; skip])
                | (with_reducible apply Within.fst2 <;> [with_reducible assumption; skip])
                | split)
         | (have hfa : ∀ t, Within M s0 t → Within M s0 (x t) := by
              intro t ht; unfold x
              repeat' first
                | with_reducible assumption
                | with_reducible apply hfa
                | with_reducible apply hfb
                | with_reducible apply hfc
                | with_reducible apply hfd
                | with_reducible apply hfe
                | with_reducible apply Within.ite
                | with_reducible apply lnkTouch_within (Sub.up hM rfl)
                | with_reducible apply putMsg_within (Sub.up hM rfl)
                | with_reducible apply startMsg_within (Sub.up hM rfl)
                | with_reducible apply flitCredit_within (Sub.up hM rfl)
                | with_reducible apply feed_within (Sub.up hM rfl)
                | with_reducible apply accept_within (Sub.up hM rfl)
                | (with_reducible apply Within.snd <;> [with_reducible assumption; skip])
                | (with_reducible apply Within.fst <;> [with_reducible assumption; skip])
                | (with_reducible apply Within.fst2 <;> [with_reducible assumption; skip])
                | split)
         | (have hfb : ∀ t a, Within M s0 t → Within M s0 (x t a) := by
              intro t a ht; unfold x
              repeat' first
                | with_reducible assumption
                | with_reducible apply hfa
                | with_reducible apply hfb
                | with_reducible apply hfc
                | with_reducible apply hfd
                | with_reducible apply hfe
                | with_reducible apply Within.ite
                | with_reducible apply lnkTouch_within (Sub.up hM rfl)
                | with_reducible apply putMsg_within (Sub.up hM rfl)
                | with_reducible apply startMsg_within (Sub.up hM rfl)
                | with_reducible apply flitCredit_within (Sub.up hM rfl)
                | with_reducible apply feed_within (Sub.up hM rfl)
                | with_reducible apply accept_within (Sub.up hM rfl)
                | (with_reducible apply Within.snd <;> [with_reducible assumption; skip])
                | (with_reducible apply Within.fst <;> [with_reducible assumption; skip])
                | (with_reducible apply Within.fst2 <;> [with_reducible assumption; skip])
                | split)
         | (have hfc : ∀ t a b, Within M s0 t → Within M s0 (x t a b) := by
              intro t a b ht; unfold x
              repeat' first
                | with_reducible assumption
                | with_reducible apply hfa
                | with_reducible apply hfb
                | with_reducible apply hfc
                | with_reducible apply hfd
                | with_reducible apply hfe
                | with_reducible apply Within.ite
                | with_reducible apply lnkTouch_within (Sub.up hM rfl)
                | with_reducible apply putMsg_within (Sub.up hM rfl)
                | with_reducible apply startMsg_within (Sub.up hM rfl)
                | with_reducible apply flitCredit_within (Sub.up hM rfl)
                | with_reducible apply feed_within (Sub.up hM rfl)
                | with_reducible apply accept_within (Sub.up hM rfl)
                | (with_reducible apply Within.snd <;> [with_reducible assumption; skip])
                | (with_reducible apply Within.fst <;> [with_reducible assumption; skip])
                | (with_reducible apply Within.fst2 <;> [with_reducible assumption; skip])
                | split)
         | (have hfd : ∀ t, Within M s0 t → Within M s0 (x t).1 := by
              intro t ht; unfold x
              repeat' first
                | with_reducible assumption
                | with_reducible apply hfa
                | with_reducible apply hfb
                | with_reducible apply hfc
                | with_reducible apply hfd
                | with_reducible apply hfe
                | with_reducible apply Within.ite
                | with_reducible apply lnkTouch_within (Sub.up hM rfl)
                | with_reducible apply putMsg_within (Sub.up hM rfl)
                | with_reducible apply startMsg_within (Sub.up hM rfl)
                | with_reducible apply flitCredit_within (Sub.up hM rfl)
                | with_reducible apply feed_within (Sub.up hM rfl)
                | with_reducible apply accept_within (Sub.up hM rfl)
                | (with_reducible apply Within.snd <;> [with_reducible assumption; skip])
                | (with_reducible apply Within.fst <;> [with_reducible assumption; skip])
                | (with_reducible apply Within.fst2 <;> [with_reducible assumption; skip])
                | split)
         | (have hfe : ∀ t, Within M s0 t → Within M s0 (x t).2 := by
              intro t ht; unfold x
              repeat' first
                | with_reducible assumption
                | with_reducible apply hfa
                | with_reducible apply hfb
                | with_reducible apply hfc
                | with_reducible apply hfd
                | with_reducible apply hfe
                | with_reducible apply Within.ite
                | with_reducible apply lnkTouch_within (Sub.up hM rfl)
                | with_reducible apply putMsg_within (Sub.up hM rfl)
                | with_reducible apply startMsg_within (Sub.up hM rfl)
                | with_reducible apply flitCredit_within (Sub.up hM rfl)
                | with_reducible apply feed_within (Sub.up hM rfl)
                | with_reducible apply accept_within (Sub.up hM rfl)
                | (with_reducible apply Within.snd <;> [with_reducible assumption; skip])
                | (with_reducible apply Within.fst <;> [with_reducible assumption; skip])
                | (with_reducible apply Within.fst2 <;> [with_reducible assumption; skip])
                | split)
         | (have hx : Within M s0 x.1 := by
              unfold x
              repeat' first
                | with_reducible assumption
                | with_reducible apply hfa
                | with_reducible apply hfb
                | with_reducible apply hfc
                | with_reducible apply hfd
                | with_reducible apply hfe
                | with_reducible apply Within.ite
                | with_reducible apply lnkTouch_within (Sub.up hM rfl)
                | with_reducible apply putMsg_within (Sub.up hM rfl)
                | with_reducible apply startMsg_within (Sub.up hM rfl)
                | with_reducible apply flitCredit_within (Sub.up hM rfl)
                | with_reducible apply feed_within (Sub.up hM rfl)
                | with_reducible apply accept_within (Sub.up hM rfl)
                | (with_reducible apply Within.snd <;> [with_reducible assumption; skip])
                | (with_reducible apply Within.fst <;> [with_reducible assumption; skip])
                | (with_reducible apply Within.fst2 <;> [with_reducible assumption; skip])
                | split)
         | (have hx : Within M s0 x.2 := by
              unfold x
              repeat' first
                | with_reducible assumption
                | with_reducible apply hfa
                | with_reducible apply hfb
                | with_reducible apply hfc
                | with_reducible apply hfd
                | with_reducible apply hfe
                | with_reducible apply Within.ite
                | with_reducible apply lnkTouch_within (Sub.up hM rfl)
                | with_reducible apply putMsg_within (Sub.up hM rfl)
                | with_reducible apply startMsg_within (Sub.up hM rfl)
                | with_reducible apply flitCredit_within (Sub.up hM rfl)
                | with_reducible apply feed_within (Sub.up hM rfl)
                | with_reducible apply accept_within (Sub.up hM rfl)
                | (with_reducible apply Within.snd <;> [with_reducible assumption; skip])
                | (with_reducible apply Within.fst <;> [with_reducible assumption; skip])
                | (with_reducible apply Within.fst2 <;> [with_reducible assumption; skip])
                | split)
         | skip
       clear_value x)
    | lift_lets -underBinder
    | with_reducible apply hfa
    | with_reducible apply hfb
    | with_reducible apply hfc
    | with_reducible apply hfd
    | with_reducible apply hfe
    | with_reducible apply Within.ite
    | with_reducible apply lnkTouch_within (Sub.up hM rfl)
    | with_reducible apply putMsg_within (Sub.up hM rfl)
    | with_reducible apply startMsg_within (Sub.up hM rfl)
    | with_reducible apply flitCredit_within (Sub.up hM rfl)
    | with_reducible apply feed_within (Sub.up hM rfl)
    | with_reducible apply accept_within (Sub.up hM rfl)
    | (with_reducible apply Within.snd <;> [with_reducible assumption; skip])
    | (with_reducible apply Within.fst <;> [with_reducible assumption; skip])
    | (with_reducible apply Within.fst2 <;> [with_reducible assumption; skip])
    | split

theorem memberFlit_within {M : Nat} {s0 : State} (hM : Sub 0x710083fdb M) (s : State) (p g : Nat) (f : Flit) (hW : Within M s0 s) : Within M s0 (memberFlit s p g f) := by
  unfold memberFlit
  repeat' first
    | with_reducible assumption
    | (intro x
       first
         | (have hx : Within M s0 x := by
              unfold x
              repeat' first
                | with_reducible assumption
                | with_reducible apply hfa
                | with_reducible apply hfb
                | with_reducible apply hfc
                | with_reducible apply hfd
                | with_reducible apply hfe
                | with_reducible apply Within.ite
                | with_reducible apply updGroup_within (Sub.up hM rfl)
                | with_reducible apply putMsg_within (Sub.up hM rfl)
                | with_reducible apply startMsg_within (Sub.up hM rfl)
                | with_reducible apply feed_within (Sub.up hM rfl)
                | with_reducible apply accept_within (Sub.up hM rfl)
                | (with_reducible apply Within.snd <;> [with_reducible assumption; skip])
                | (with_reducible apply Within.fst <;> [with_reducible assumption; skip])
                | (with_reducible apply Within.fst2 <;> [with_reducible assumption; skip])
                | split)
         | (have hfa : ∀ t, Within M s0 t → Within M s0 (x t) := by
              intro t ht; unfold x
              repeat' first
                | with_reducible assumption
                | with_reducible apply hfa
                | with_reducible apply hfb
                | with_reducible apply hfc
                | with_reducible apply hfd
                | with_reducible apply hfe
                | with_reducible apply Within.ite
                | with_reducible apply updGroup_within (Sub.up hM rfl)
                | with_reducible apply putMsg_within (Sub.up hM rfl)
                | with_reducible apply startMsg_within (Sub.up hM rfl)
                | with_reducible apply feed_within (Sub.up hM rfl)
                | with_reducible apply accept_within (Sub.up hM rfl)
                | (with_reducible apply Within.snd <;> [with_reducible assumption; skip])
                | (with_reducible apply Within.fst <;> [with_reducible assumption; skip])
                | (with_reducible apply Within.fst2 <;> [with_reducible assumption; skip])
                | split)
         | (have hfb : ∀ t a, Within M s0 t → Within M s0 (x t a) := by
              intro t a ht; unfold x
              repeat' first
                | with_reducible assumption
                | with_reducible apply hfa
                | with_reducible apply hfb
                | with_reducible apply hfc
                | with_reducible apply hfd
                | with_reducible apply hfe
                | with_reducible apply Within.ite
                | with_reducible apply updGroup_within (Sub.up hM rfl)
                | with_reducible apply putMsg_within (Sub.up hM rfl)
                | with_reducible apply startMsg_within (Sub.up hM rfl)
                | with_reducible apply feed_within (Sub.up hM rfl)
                | with_reducible apply accept_within (Sub.up hM rfl)
                | (with_reducible apply Within.snd <;> [with_reducible assumption; skip])
                | (with_reducible apply Within.fst <;> [with_reducible assumption; skip])
                | (with_reducible apply Within.fst2 <;> [with_reducible assumption; skip])
                | split)
         | (have hfc : ∀ t a b, Within M s0 t → Within M s0 (x t a b) := by
              intro t a b ht; unfold x
              repeat' first
                | with_reducible assumption
                | with_reducible apply hfa
                | with_reducible apply hfb
                | with_reducible apply hfc
                | with_reducible apply hfd
                | with_reducible apply hfe
                | with_reducible apply Within.ite
                | with_reducible apply updGroup_within (Sub.up hM rfl)
                | with_reducible apply putMsg_within (Sub.up hM rfl)
                | with_reducible apply startMsg_within (Sub.up hM rfl)
                | with_reducible apply feed_within (Sub.up hM rfl)
                | with_reducible apply accept_within (Sub.up hM rfl)
                | (with_reducible apply Within.snd <;> [with_reducible assumption; skip])
                | (with_reducible apply Within.fst <;> [with_reducible assumption; skip])
                | (with_reducible apply Within.fst2 <;> [with_reducible assumption; skip])
                | split)
         | (have hfd : ∀ t, Within M s0 t → Within M s0 (x t).1 := by
              intro t ht; unfold x
              repeat' first
                | with_reducible assumption
                | with_reducible apply hfa
                | with_reducible apply hfb
                | with_reducible apply hfc
                | with_reducible apply hfd
                | with_reducible apply hfe
                | with_reducible apply Within.ite
                | with_reducible apply updGroup_within (Sub.up hM rfl)
                | with_reducible apply putMsg_within (Sub.up hM rfl)
                | with_reducible apply startMsg_within (Sub.up hM rfl)
                | with_reducible apply feed_within (Sub.up hM rfl)
                | with_reducible apply accept_within (Sub.up hM rfl)
                | (with_reducible apply Within.snd <;> [with_reducible assumption; skip])
                | (with_reducible apply Within.fst <;> [with_reducible assumption; skip])
                | (with_reducible apply Within.fst2 <;> [with_reducible assumption; skip])
                | split)
         | (have hfe : ∀ t, Within M s0 t → Within M s0 (x t).2 := by
              intro t ht; unfold x
              repeat' first
                | with_reducible assumption
                | with_reducible apply hfa
                | with_reducible apply hfb
                | with_reducible apply hfc
                | with_reducible apply hfd
                | with_reducible apply hfe
                | with_reducible apply Within.ite
                | with_reducible apply updGroup_within (Sub.up hM rfl)
                | with_reducible apply putMsg_within (Sub.up hM rfl)
                | with_reducible apply startMsg_within (Sub.up hM rfl)
                | with_reducible apply feed_within (Sub.up hM rfl)
                | with_reducible apply accept_within (Sub.up hM rfl)
                | (with_reducible apply Within.snd <;> [with_reducible assumption; skip])
                | (with_reducible apply Within.fst <;> [with_reducible assumption; skip])
                | (with_reducible apply Within.fst2 <;> [with_reducible assumption; skip])
                | split)
         | (have hx : Within M s0 x.1 := by
              unfold x
              repeat' first
                | with_reducible assumption
                | with_reducible apply hfa
                | with_reducible apply hfb
                | with_reducible apply hfc
                | with_reducible apply hfd
                | with_reducible apply hfe
                | with_reducible apply Within.ite
                | with_reducible apply updGroup_within (Sub.up hM rfl)
                | with_reducible apply putMsg_within (Sub.up hM rfl)
                | with_reducible apply startMsg_within (Sub.up hM rfl)
                | with_reducible apply feed_within (Sub.up hM rfl)
                | with_reducible apply accept_within (Sub.up hM rfl)
                | (with_reducible apply Within.snd <;> [with_reducible assumption; skip])
                | (with_reducible apply Within.fst <;> [with_reducible assumption; skip])
                | (with_reducible apply Within.fst2 <;> [with_reducible assumption; skip])
                | split)
         | (have hx : Within M s0 x.2 := by
              unfold x
              repeat' first
                | with_reducible assumption
                | with_reducible apply hfa
                | with_reducible apply hfb
                | with_reducible apply hfc
                | with_reducible apply hfd
                | with_reducible apply hfe
                | with_reducible apply Within.ite
                | with_reducible apply updGroup_within (Sub.up hM rfl)
                | with_reducible apply putMsg_within (Sub.up hM rfl)
                | with_reducible apply startMsg_within (Sub.up hM rfl)
                | with_reducible apply feed_within (Sub.up hM rfl)
                | with_reducible apply accept_within (Sub.up hM rfl)
                | (with_reducible apply Within.snd <;> [with_reducible assumption; skip])
                | (with_reducible apply Within.fst <;> [with_reducible assumption; skip])
                | (with_reducible apply Within.fst2 <;> [with_reducible assumption; skip])
                | split)
         | skip
       clear_value x)
    | lift_lets -underBinder
    | with_reducible apply hfa
    | with_reducible apply hfb
    | with_reducible apply hfc
    | with_reducible apply hfd
    | with_reducible apply hfe
    | with_reducible apply Within.ite
    | with_reducible apply updGroup_within (Sub.up hM rfl)
    | with_reducible apply putMsg_within (Sub.up hM rfl)
    | with_reducible apply startMsg_within (Sub.up hM rfl)
    | with_reducible apply feed_within (Sub.up hM rfl)
    | with_reducible apply accept_within (Sub.up hM rfl)
    | (with_reducible apply Within.snd <;> [with_reducible assumption; skip])
    | (with_reducible apply Within.fst <;> [with_reducible assumption; skip])
    | (with_reducible apply Within.fst2 <;> [with_reducible assumption; skip])
    | split

theorem dataFlit_within {M : Nat} {s0 : State} (hM : Sub 0x710093fdb M) (s : State) (p : Nat) (f : Flit) (hW : Within M s0 s) : Within M s0 (dataFlit s p f) := by
  unfold dataFlit
  repeat' first
    | with_reducible assumption
    | (intro x
       first
         | (have hx : Within M s0 x := by
              unfold x
              repeat' first
                | with_reducible assumption
                | with_reducible apply Within.ite
                | with_reducible apply bump_within (Sub.up hM rfl)
                | with_reducible apply updPort_within (Sub.up hM rfl)
                | with_reducible apply freshFree_within (Sub.up hM rfl)
                | with_reducible apply sendNack_within (Sub.up hM rfl)
                | with_reducible apply forwardFlit_within (Sub.up hM rfl)
                | with_reducible apply localFlit_within (Sub.up hM rfl)
                | with_reducible apply memberFlit_within (Sub.up hM rfl)
                | with_reducible refine each_within (fun _ _ _ => ?_) ?_
                | (with_reducible apply Within.snd <;> [with_reducible assumption; skip])
                | (with_reducible apply Within.fst <;> [with_reducible assumption; skip])
                | (with_reducible apply Within.fst2 <;> [with_reducible assumption; skip])
                | split)
         | (have hx : Within M s0 x.1 := by
              unfold x
              repeat' first
                | with_reducible assumption
                | with_reducible apply Within.ite
                | with_reducible apply bump_within (Sub.up hM rfl)
                | with_reducible apply updPort_within (Sub.up hM rfl)
                | with_reducible apply freshFree_within (Sub.up hM rfl)
                | with_reducible apply sendNack_within (Sub.up hM rfl)
                | with_reducible apply forwardFlit_within (Sub.up hM rfl)
                | with_reducible apply localFlit_within (Sub.up hM rfl)
                | with_reducible apply memberFlit_within (Sub.up hM rfl)
                | with_reducible refine each_within (fun _ _ _ => ?_) ?_
                | (with_reducible apply Within.snd <;> [with_reducible assumption; skip])
                | (with_reducible apply Within.fst <;> [with_reducible assumption; skip])
                | (with_reducible apply Within.fst2 <;> [with_reducible assumption; skip])
                | split)
         | (have hx : Within M s0 x.2 := by
              unfold x
              repeat' first
                | with_reducible assumption
                | with_reducible apply Within.ite
                | with_reducible apply bump_within (Sub.up hM rfl)
                | with_reducible apply updPort_within (Sub.up hM rfl)
                | with_reducible apply freshFree_within (Sub.up hM rfl)
                | with_reducible apply sendNack_within (Sub.up hM rfl)
                | with_reducible apply forwardFlit_within (Sub.up hM rfl)
                | with_reducible apply localFlit_within (Sub.up hM rfl)
                | with_reducible apply memberFlit_within (Sub.up hM rfl)
                | with_reducible refine each_within (fun _ _ _ => ?_) ?_
                | (with_reducible apply Within.snd <;> [with_reducible assumption; skip])
                | (with_reducible apply Within.fst <;> [with_reducible assumption; skip])
                | (with_reducible apply Within.fst2 <;> [with_reducible assumption; skip])
                | split)
         | skip
       clear_value x)
    | lift_lets -underBinder
    | with_reducible apply Within.ite
    | with_reducible apply bump_within (Sub.up hM rfl)
    | with_reducible apply updPort_within (Sub.up hM rfl)
    | with_reducible apply freshFree_within (Sub.up hM rfl)
    | with_reducible apply sendNack_within (Sub.up hM rfl)
    | with_reducible apply forwardFlit_within (Sub.up hM rfl)
    | with_reducible apply localFlit_within (Sub.up hM rfl)
    | with_reducible apply memberFlit_within (Sub.up hM rfl)
    | with_reducible refine each_within (fun _ _ _ => ?_) ?_
    | (with_reducible apply Within.snd <;> [with_reducible assumption; skip])
    | (with_reducible apply Within.fst <;> [with_reducible assumption; skip])
    | (with_reducible apply Within.fst2 <;> [with_reducible assumption; skip])
    | split

theorem controlArrives_within {M : Nat} {s0 : State} (hM : Sub 0x100000801 M) (s : State) (p m : Nat) (hW : Within M s0 s) : Within M s0 (controlArrives s p m) := by
  unfold controlArrives
  repeat' first
    | with_reducible assumption
    | (intro x
       first
         | (have hx : Within M s0 x := by
              unfold x
              repeat' first
                | with_reducible assumption
                | with_reducible apply Within.ite
                | with_reducible apply bump_within (Sub.up hM rfl)
                | with_reducible apply sendChain_within (Sub.up hM rfl)
                | with_reducible apply sendControl_within (Sub.up hM rfl))
         | skip
       clear_value x)
    | lift_lets -underBinder
    | with_reducible apply Within.ite
    | with_reducible apply bump_within (Sub.up hM rfl)
    | with_reducible apply sendChain_within (Sub.up hM rfl)
    | with_reducible apply sendControl_within (Sub.up hM rfl)

theorem flitArrives_within {M : Nat} {s0 : State} (hM : Sub 0x710093fdb M) (s : State) (p : Nat) (f : Flit) (hW : Within M s0 s) : Within M s0 (flitArrives s p f) := by
  unfold flitArrives
  repeat' first
    | with_reducible assumption
    | with_reducible apply Within.ite
    | with_reducible apply dataFlit_within (Sub.up hM rfl)
    | with_reducible apply controlArrives_within (Sub.up hM rfl)
    | with_reducible refine each_within (fun _ _ _ => ?_) ?_

theorem drainLink_within {M : Nat} {s0 : State} (hM : Sub 0x710082fdb M) (s : State) (q : Nat) (hW : Within M s0 s) : Within M s0 (drainLink s q) := by
  unfold drainLink
  repeat' first
    | with_reducible assumption
    | (intro x
       first
         | (have hx : Within M s0 x := by
              unfold x
              repeat' first
                | with_reducible assumption
                | with_reducible apply pump_within (Sub.up hM rfl)
                | with_reducible apply putMsg_within (Sub.up hM rfl)
                | with_reducible refine each_within (fun _ _ _ => ?_) ?_
                | (with_reducible apply Within.snd <;> [with_reducible assumption; skip])
                | (with_reducible apply Within.fst <;> [with_reducible assumption; skip])
                | (with_reducible apply Within.fst2 <;> [with_reducible assumption; skip])
                | split)
         | (have hx : Within M s0 x.1 := by
              unfold x
              repeat' first
                | with_reducible assumption
                | with_reducible apply pump_within (Sub.up hM rfl)
                | with_reducible apply putMsg_within (Sub.up hM rfl)
                | with_reducible refine each_within (fun _ _ _ => ?_) ?_
                | (with_reducible apply Within.snd <;> [with_reducible assumption; skip])
                | (with_reducible apply Within.fst <;> [with_reducible assumption; skip])
                | (with_reducible apply Within.fst2 <;> [with_reducible assumption; skip])
                | split)
         | (have hx : Within M s0 x.2 := by
              unfold x
              repeat' first
                | with_reducible assumption
                | with_reducible apply pump_within (Sub.up hM rfl)
                | with_reducible apply putMsg_within (Sub.up hM rfl)
                | with_reducible refine each_within (fun _ _ _ => ?_) ?_
                | (with_reducible apply Within.snd <;> [with_reducible assumption; skip])
                | (with_reducible apply Within.fst <;> [with_reducible assumption; skip])
                | (with_reducible apply Within.fst2 <;> [with_reducible assumption; skip])
                | split)
         | skip
       clear_value x)
    | lift_lets -underBinder
    | with_reducible apply pump_within (Sub.up hM rfl)
    | with_reducible apply putMsg_within (Sub.up hM rfl)
    | with_reducible refine each_within (fun _ _ _ => ?_) ?_
    | (with_reducible apply Within.snd <;> [with_reducible assumption; skip])
    | (with_reducible apply Within.fst <;> [with_reducible assumption; skip])
    | (with_reducible apply Within.fst2 <;> [with_reducible assumption; skip])
    | split

theorem settle_within {M : Nat} {s0 : State} (hM : Sub 0x710082fdb M) (s : State) (q : Nat) (hW : Within M s0 s) : Within M s0 (settle s q) := by
  unfold settle
  repeat' first
    | with_reducible assumption
    | with_reducible apply retryHeld_within (Sub.up hM rfl)
    | with_reducible apply drainLink_within (Sub.up hM rfl)

theorem settleAll_within {M : Nat} {s0 : State} (hM : Sub 0x710082fdb M) (s : State) (hW : Within M s0 s) : Within M s0 (settleAll s) := by
  unfold settleAll
  repeat' first
    | with_reducible assumption
    | with_reducible apply settle_within (Sub.up hM rfl)
    | with_reducible refine each_within (fun _ _ _ => ?_) ?_

theorem commitTry_within {M : Nat} {s0 : State} (hM : Sub 0x710082fdb M) (s : State) (k : Nat) (hW : Within M s0 s) : Within M s0 (commitTry s k) := by
  unfold commitTry
  repeat' first
    | with_reducible assumption
    | with_reducible apply tryCommit_within (Sub.up hM rfl)
    | with_reducible apply settleAll_within (Sub.up hM rfl)

theorem refuseStrand_within {M : Nat} {s0 : State} (hM : Sub 0x310000891 M) (s : State) (die n cause : Nat) (hW : Within M s0 s) : Within M s0 (refuseStrand s die n cause) := by
  unfold refuseStrand
  repeat' first
    | with_reducible assumption
    | (intro x
       first
         | (have hx : Within M s0 x := by
              unfold x
              repeat' first
                | with_reducible assumption
                | dsimp -zeta only
                | with_reducible apply Within.ite1
                | with_reducible apply Within.ite2
                | with_reducible apply Within.ite
                | with_reducible apply updPort_within (Sub.up hM rfl)
                | with_reducible apply returnNack_within (Sub.up hM rfl)
                | with_reducible apply refuseMsg_within (Sub.up hM rfl)
                | (with_reducible apply Within.snd <;> [with_reducible assumption; skip])
                | (with_reducible apply Within.fst <;> [with_reducible assumption; skip])
                | (with_reducible apply Within.fst2 <;> [with_reducible assumption; skip])
                | split)
         | (have hx : Within M s0 x.1 := by
              unfold x
              repeat' first
                | with_reducible assumption
                | dsimp -zeta only
                | with_reducible apply Within.ite1
                | with_reducible apply Within.ite2
                | with_reducible apply Within.ite
                | with_reducible apply updPort_within (Sub.up hM rfl)
                | with_reducible apply returnNack_within (Sub.up hM rfl)
                | with_reducible apply refuseMsg_within (Sub.up hM rfl)
                | (with_reducible apply Within.snd <;> [with_reducible assumption; skip])
                | (with_reducible apply Within.fst <;> [with_reducible assumption; skip])
                | (with_reducible apply Within.fst2 <;> [with_reducible assumption; skip])
                | split)
         | (have hx : Within M s0 x.2 := by
              unfold x
              repeat' first
                | with_reducible assumption
                | dsimp -zeta only
                | with_reducible apply Within.ite1
                | with_reducible apply Within.ite2
                | with_reducible apply Within.ite
                | with_reducible apply updPort_within (Sub.up hM rfl)
                | with_reducible apply returnNack_within (Sub.up hM rfl)
                | with_reducible apply refuseMsg_within (Sub.up hM rfl)
                | (with_reducible apply Within.snd <;> [with_reducible assumption; skip])
                | (with_reducible apply Within.fst <;> [with_reducible assumption; skip])
                | (with_reducible apply Within.fst2 <;> [with_reducible assumption; skip])
                | split)
         | skip
       clear_value x)
    | lift_lets -underBinder
    | dsimp -zeta only
    | with_reducible apply Within.ite1
    | with_reducible apply Within.ite2
    | with_reducible apply Within.ite
    | with_reducible apply updPort_within (Sub.up hM rfl)
    | with_reducible apply returnNack_within (Sub.up hM rfl)
    | with_reducible apply refuseMsg_within (Sub.up hM rfl)
    | (with_reducible apply Within.snd <;> [with_reducible assumption; skip])
    | (with_reducible apply Within.fst <;> [with_reducible assumption; skip])
    | (with_reducible apply Within.fst2 <;> [with_reducible assumption; skip])
    | split

end Sys2Proof.Machine
end

