-- ==== Sys2Proof/Laws/WithinLink.lean ====
section
/-! SUPPORT. What the operations and commands of Machine/Link can do to the state (Laws/Within). -/

namespace Sys2Proof.Machine

theorem startTraining_within {M : Nat} {s0 : State} (hM : Sub 0x800 M) (s : State) (p : Nat) (hW : Within M s0 s) : Within M s0 (startTraining s p) := by
  unfold startTraining
  repeat' first
    | with_reducible assumption
    | (intro x
       first
         | (have hx : Within M s0 x := by
              unfold x
              repeat' first
                | with_reducible assumption
                | dsimp -zeta only
                | with_reducible apply Within.ite1
                | with_reducible apply Within.ite2
                | with_reducible apply Within.ite
                | with_reducible apply updPort_within (Sub.up hM rfl)
                | (with_reducible apply Within.snd <;> [with_reducible assumption; skip])
                | (with_reducible apply Within.fst <;> [with_reducible assumption; skip])
                | (with_reducible apply Within.fst2 <;> [with_reducible assumption; skip])
                | split)
         | (have hx : Within M s0 x.1 := by
              unfold x
              repeat' first
                | with_reducible assumption
                | dsimp -zeta only
                | with_reducible apply Within.ite1
                | with_reducible apply Within.ite2
                | with_reducible apply Within.ite
                | with_reducible apply updPort_within (Sub.up hM rfl)
                | (with_reducible apply Within.snd <;> [with_reducible assumption; skip])
                | (with_reducible apply Within.fst <;> [with_reducible assumption; skip])
                | (with_reducible apply Within.fst2 <;> [with_reducible assumption; skip])
                | split)
         | (have hx : Within M s0 x.2 := by
              unfold x
              repeat' first
                | with_reducible assumption
                | dsimp -zeta only
                | with_reducible apply Within.ite1
                | with_reducible apply Within.ite2
                | with_reducible apply Within.ite
                | with_reducible apply updPort_within (Sub.up hM rfl)
                | (with_reducible apply Within.snd <;> [with_reducible assumption; skip])
                | (with_reducible apply Within.fst <;> [with_reducible assumption; skip])
                | (with_reducible apply Within.fst2 <;> [with_reducible assumption; skip])
                | split)
         | skip
       clear_value x)
    | lift_lets -underBinder
    | dsimp -zeta only
    | with_reducible apply Within.ite1
    | with_reducible apply Within.ite2
    | with_reducible apply Within.ite
    | with_reducible apply updPort_within (Sub.up hM rfl)
    | (with_reducible apply Within.snd <;> [with_reducible assumption; skip])
    | (with_reducible apply Within.fst <;> [with_reducible assumption; skip])
    | (with_reducible apply Within.fst2 <;> [with_reducible assumption; skip])
    | split

theorem portDown_within {M : Nat} {s0 : State} (hM : Sub 0x100020890 M) (s : State) (p : Nat) (hW : Within M s0 s) : Within M s0 (portDown s p) := by
  unfold portDown
  repeat' first
    | with_reducible assumption
    | (intro x
       first
         | (have hx : Within M s0 x := by
              unfold x
              repeat' first
                | with_reducible assumption
                | with_reducible apply updPort_within (Sub.up hM rfl)
                | with_reducible apply portToDown_within (Sub.up hM rfl)
                | with_reducible apply failSend_within (Sub.up hM rfl)
                | with_reducible apply bindMsg_within (Sub.up hM rfl)
                | with_reducible refine each_within (fun _ _ _ => ?_) ?_
                | (with_reducible apply Within.snd <;> [with_reducible assumption; skip])
                | (with_reducible apply Within.fst <;> [with_reducible assumption; skip])
                | (with_reducible apply Within.fst2 <;> [with_reducible assumption; skip]))
         | skip
       clear_value x)
    | lift_lets -underBinder
    | with_reducible apply updPort_within (Sub.up hM rfl)
    | with_reducible apply portToDown_within (Sub.up hM rfl)
    | with_reducible apply failSend_within (Sub.up hM rfl)
    | with_reducible apply bindMsg_within (Sub.up hM rfl)
    | with_reducible refine each_within (fun _ _ _ => ?_) ?_
    | (with_reducible apply Within.snd <;> [with_reducible assumption; skip])
    | (with_reducible apply Within.fst <;> [with_reducible assumption; skip])
    | (with_reducible apply Within.fst2 <;> [with_reducible assumption; skip])

theorem execLimundTrainingStart_within {M : Nat} {s0 : State} (hM : Sub 0x800 M) (p : PortId) (s : State) (hW : Within M s0 s) :
    ∃ u, execLimundTrainingStart p s = .next u ∧ Within M s0 u := by
  unfold execLimundTrainingStart
  refine ⟨_, rfl, ?_⟩
  repeat' first
    | with_reducible assumption
    | with_reducible apply Within.ite
    | with_reducible apply startTraining_within (Sub.up hM rfl)

theorem execDownRetryTimer_within {M : Nat} {s0 : State} (hM : Sub 0x800 M) (p : PortId) (s : State) (hW : Within M s0 s) :
    ∃ u, execDownRetryTimer p s = .next u ∧ Within M s0 u := by
  unfold execDownRetryTimer
  refine ⟨_, rfl, ?_⟩
  repeat' first
    | with_reducible assumption
    | (intro x
       first
         | (have hx : Within M s0 x := by
              unfold x
              repeat' first
                | with_reducible assumption
                | dsimp -zeta only
                | with_reducible apply Within.ite1
                | with_reducible apply Within.ite2
                | with_reducible apply Within.ite
                | with_reducible apply startTraining_within (Sub.up hM rfl)
                | (with_reducible apply Within.snd <;> [with_reducible assumption; skip])
                | (with_reducible apply Within.fst <;> [with_reducible assumption; skip])
                | (with_reducible apply Within.fst2 <;> [with_reducible assumption; skip])
                | split)
         | (have hx : Within M s0 x.1 := by
              unfold x
              repeat' first
                | with_reducible assumption
                | dsimp -zeta only
                | with_reducible apply Within.ite1
                | with_reducible apply Within.ite2
                | with_reducible apply Within.ite
                | with_reducible apply startTraining_within (Sub.up hM rfl)
                | (with_reducible apply Within.snd <;> [with_reducible assumption; skip])
                | (with_reducible apply Within.fst <;> [with_reducible assumption; skip])
                | (with_reducible apply Within.fst2 <;> [with_reducible assumption; skip])
                | split)
         | (have hx : Within M s0 x.2 := by
              unfold x
              repeat' first
                | with_reducible assumption
                | dsimp -zeta only
                | with_reducible apply Within.ite1
                | with_reducible apply Within.ite2
                | with_reducible apply Within.ite
                | with_reducible apply startTraining_within (Sub.up hM rfl)
                | (with_reducible apply Within.snd <;> [with_reducible assumption; skip])
                | (with_reducible apply Within.fst <;> [with_reducible assumption; skip])
                | (with_reducible apply Within.fst2 <;> [with_reducible assumption; skip])
                | split)
         | skip
       clear_value x)
    | lift_lets -underBinder
    | dsimp -zeta only
    | with_reducible apply Within.ite1
    | with_reducible apply Within.ite2
    | with_reducible apply Within.ite
    | with_reducible apply startTraining_within (Sub.up hM rfl)
    | (with_reducible apply Within.snd <;> [with_reducible assumption; skip])
    | (with_reducible apply Within.fst <;> [with_reducible assumption; skip])
    | (with_reducible apply Within.fst2 <;> [with_reducible assumption; skip])
    | split

theorem execLimundTrainingDone_within {M : Nat} {s0 : State} (hM : Sub 0x100020891 M) (p : PortId) (ok : Bool) (peerGenMax : Fin 3) (s : State) (hW : Within M s0 s) :
    ∃ u, execLimundTrainingDone p ok peerGenMax s = .next u ∧ Within M s0 u := by
  unfold execLimundTrainingDone
  refine ⟨_, rfl, ?_⟩
  repeat' first
    | with_reducible assumption
    | (intro x
       first
         | (have hx : Within M s0 x := by
              unfold x
              repeat' first
                | with_reducible assumption
                | dsimp -zeta only
                | with_reducible apply Within.ite1
                | with_reducible apply Within.ite2
                | with_reducible apply Within.ite
                | with_reducible apply bump_within (Sub.up hM rfl)
                | with_reducible apply updPort_within (Sub.up hM rfl)
                | with_reducible apply sendControl_within (Sub.up hM rfl)
                | with_reducible apply portDown_within (Sub.up hM rfl)
                | (with_reducible apply Within.snd <;> [with_reducible assumption; skip])
                | (with_reducible apply Within.fst <;> [with_reducible assumption; skip])
                | (with_reducible apply Within.fst2 <;> [with_reducible assumption; skip])
                | split)
         | (have hx : Within M s0 x.1 := by
              unfold x
              repeat' first
                | with_reducible assumption
                | dsimp -zeta only
                | with_reducible apply Within.ite1
                | with_reducible apply Within.ite2
                | with_reducible apply Within.ite
                | with_reducible apply bump_within (Sub.up hM rfl)
                | with_reducible apply updPort_within (Sub.up hM rfl)
                | with_reducible apply sendControl_within (Sub.up hM rfl)
                | with_reducible apply portDown_within (Sub.up hM rfl)
                | (with_reducible apply Within.snd <;> [with_reducible assumption; skip])
                | (with_reducible apply Within.fst <;> [with_reducible assumption; skip])
                | (with_reducible apply Within.fst2 <;> [with_reducible assumption; skip])
                | split)
         | (have hx : Within M s0 x.2 := by
              unfold x
              repeat' first
                | with_reducible assumption
                | dsimp -zeta only
                | with_reducible apply Within.ite1
                | with_reducible apply Within.ite2
                | with_reducible apply Within.ite
                | with_reducible apply bump_within (Sub.up hM rfl)
                | with_reducible apply updPort_within (Sub.up hM rfl)
                | with_reducible apply sendControl_within (Sub.up hM rfl)
                | with_reducible apply portDown_within (Sub.up hM rfl)
                | (with_reducible apply Within.snd <;> [with_reducible assumption; skip])
                | (with_reducible apply Within.fst <;> [with_reducible assumption; skip])
                | (with_reducible apply Within.fst2 <;> [with_reducible assumption; skip])
                | split)
         | skip
       clear_value x)
    | lift_lets -underBinder
    | dsimp -zeta only
    | with_reducible apply Within.ite1
    | with_reducible apply Within.ite2
    | with_reducible apply Within.ite
    | with_reducible apply bump_within (Sub.up hM rfl)
    | with_reducible apply updPort_within (Sub.up hM rfl)
    | with_reducible apply sendControl_within (Sub.up hM rfl)
    | with_reducible apply portDown_within (Sub.up hM rfl)
    | (with_reducible apply Within.snd <;> [with_reducible assumption; skip])
    | (with_reducible apply Within.fst <;> [with_reducible assumption; skip])
    | (with_reducible apply Within.fst2 <;> [with_reducible assumption; skip])
    | split

theorem sendDigest_within {M : Nat} {s0 : State} (hM : Sub 0x800 M) (s : State) (p : Nat) (hW : Within M s0 s) : Within M s0 (sendDigest s p) := by
  unfold sendDigest
  repeat' first
    | with_reducible assumption
    | with_reducible apply sendControl_within (Sub.up hM rfl)

theorem portIsUp_within {M : Nat} {s0 : State} (hM : Sub 0x100020890 M) (s : State) (p : Nat) (hW : Within M s0 s) : Within M s0 (portIsUp s p) := by
  unfold portIsUp
  repeat' first
    | with_reducible assumption
    | (intro x
       first
         | (have hx : Within M s0 x := by
              unfold x
              repeat' first
                | with_reducible assumption
                | dsimp -zeta only
                | with_reducible apply Within.ite1
                | with_reducible apply Within.ite2
                | with_reducible apply Within.ite
                | with_reducible apply updPort_within (Sub.up hM rfl)
                | with_reducible apply bindSends_within (Sub.up hM rfl)
                | with_reducible apply sendDigest_within (Sub.up hM rfl)
                | (with_reducible apply Within.snd <;> [with_reducible assumption; skip])
                | (with_reducible apply Within.fst <;> [with_reducible assumption; skip])
                | (with_reducible apply Within.fst2 <;> [with_reducible assumption; skip])
                | split)
         | (have hx : Within M s0 x.1 := by
              unfold x
              repeat' first
                | with_reducible assumption
                | dsimp -zeta only
                | with_reducible apply Within.ite1
                | with_reducible apply Within.ite2
                | with_reducible apply Within.ite
                | with_reducible apply updPort_within (Sub.up hM rfl)
                | with_reducible apply bindSends_within (Sub.up hM rfl)
                | with_reducible apply sendDigest_within (Sub.up hM rfl)
                | (with_reducible apply Within.snd <;> [with_reducible assumption; skip])
                | (with_reducible apply Within.fst <;> [with_reducible assumption; skip])
                | (with_reducible apply Within.fst2 <;> [with_reducible assumption; skip])
                | split)
         | (have hx : Within M s0 x.2 := by
              unfold x
              repeat' first
                | with_reducible assumption
                | dsimp -zeta only
                | with_reducible apply Within.ite1
                | with_reducible apply Within.ite2
                | with_reducible apply Within.ite
                | with_reducible apply updPort_within (Sub.up hM rfl)
                | with_reducible apply bindSends_within (Sub.up hM rfl)
                | with_reducible apply sendDigest_within (Sub.up hM rfl)
                | (with_reducible apply Within.snd <;> [with_reducible assumption; skip])
                | (with_reducible apply Within.fst <;> [with_reducible assumption; skip])
                | (with_reducible apply Within.fst2 <;> [with_reducible assumption; skip])
                | split)
         | skip
       clear_value x)
    | lift_lets -underBinder
    | dsimp -zeta only
    | with_reducible apply Within.ite1
    | with_reducible apply Within.ite2
    | with_reducible apply Within.ite
    | with_reducible apply updPort_within (Sub.up hM rfl)
    | with_reducible apply bindSends_within (Sub.up hM rfl)
    | with_reducible apply sendDigest_within (Sub.up hM rfl)
    | (with_reducible apply Within.snd <;> [with_reducible assumption; skip])
    | (with_reducible apply Within.fst <;> [with_reducible assumption; skip])
    | (with_reducible apply Within.fst2 <;> [with_reducible assumption; skip])
    | split

theorem execLinkMgmt_within {M : Nat} {s0 : State} (hM : Sub 0x310020891 M) (p : PortId) (_genMax _width : Nat) (dx8 : Bool) (dev : BitVec 12) (pport : BitVec 4) (echo : Word) (s : State) (hW : Within M s0 s) :
    ∃ u, execLinkMgmt p _genMax _width dx8 dev pport echo s = .next u ∧ Within M s0 u := by
  unfold execLinkMgmt
  refine ⟨_, rfl, ?_⟩
  repeat' first
    | with_reducible assumption
    | (intro x
       first
         | (have hx : Within M s0 x := by
              unfold x
              repeat' first
                | with_reducible assumption
                | with_reducible apply Within.ite
                | with_reducible apply setReg_within (Sub.up hM rfl)
                | with_reducible apply updPort_within (Sub.up hM rfl)
                | with_reducible apply raise_within (Sub.up hM rfl)
                | with_reducible apply portIsUp_within (Sub.up hM rfl))
         | skip
       clear_value x)
    | lift_lets -underBinder
    | with_reducible apply Within.ite
    | with_reducible apply setReg_within (Sub.up hM rfl)
    | with_reducible apply updPort_within (Sub.up hM rfl)
    | with_reducible apply raise_within (Sub.up hM rfl)
    | with_reducible apply portIsUp_within (Sub.up hM rfl)

theorem execConfigTimeout_within {M : Nat} {s0 : State} (hM : Sub 0x800 M) (p : PortId) (s : State) (hW : Within M s0 s) :
    ∃ u, execConfigTimeout p s = .next u ∧ Within M s0 u := by
  unfold execConfigTimeout
  refine ⟨_, rfl, ?_⟩
  repeat' first
    | with_reducible assumption
    | (intro x
       first
         | (have hx : Within M s0 x := by
              unfold x
              repeat' first
                | with_reducible assumption
                | dsimp -zeta only
                | with_reducible apply Within.ite1
                | with_reducible apply Within.ite2
                | with_reducible apply Within.ite
                | with_reducible apply startTraining_within (Sub.up hM rfl)
                | (with_reducible apply Within.snd <;> [with_reducible assumption; skip])
                | (with_reducible apply Within.fst <;> [with_reducible assumption; skip])
                | (with_reducible apply Within.fst2 <;> [with_reducible assumption; skip])
                | split)
         | (have hx : Within M s0 x.1 := by
              unfold x
              repeat' first
                | with_reducible assumption
                | dsimp -zeta only
                | with_reducible apply Within.ite1
                | with_reducible apply Within.ite2
                | with_reducible apply Within.ite
                | with_reducible apply startTraining_within (Sub.up hM rfl)
                | (with_reducible apply Within.snd <;> [with_reducible assumption; skip])
                | (with_reducible apply Within.fst <;> [with_reducible assumption; skip])
                | (with_reducible apply Within.fst2 <;> [with_reducible assumption; skip])
                | split)
         | (have hx : Within M s0 x.2 := by
              unfold x
              repeat' first
                | with_reducible assumption
                | dsimp -zeta only
                | with_reducible apply Within.ite1
                | with_reducible apply Within.ite2
                | with_reducible apply Within.ite
                | with_reducible apply startTraining_within (Sub.up hM rfl)
                | (with_reducible apply Within.snd <;> [with_reducible assumption; skip])
                | (with_reducible apply Within.fst <;> [with_reducible assumption; skip])
                | (with_reducible apply Within.fst2 <;> [with_reducible assumption; skip])
                | split)
         | skip
       clear_value x)
    | lift_lets -underBinder
    | dsimp -zeta only
    | with_reducible apply Within.ite1
    | with_reducible apply Within.ite2
    | with_reducible apply Within.ite
    | with_reducible apply startTraining_within (Sub.up hM rfl)
    | (with_reducible apply Within.snd <;> [with_reducible assumption; skip])
    | (with_reducible apply Within.fst <;> [with_reducible assumption; skip])
    | (with_reducible apply Within.fst2 <;> [with_reducible assumption; skip])
    | split

theorem execRetrainEntry_within {M : Nat} {s0 : State} (hM : Sub 0x801 M) (p : PortId) (s : State) (hW : Within M s0 s) :
    ∃ u, execRetrainEntry p s = .next u ∧ Within M s0 u := by
  unfold execRetrainEntry
  refine ⟨_, rfl, ?_⟩
  repeat' first
    | with_reducible assumption
    | (intro x
       first
         | (have hx : Within M s0 x := by
              unfold x
              repeat' first
                | with_reducible assumption
                | dsimp -zeta only
                | with_reducible apply Within.ite1
                | with_reducible apply Within.ite2
                | with_reducible apply Within.ite
                | with_reducible apply bump_within (Sub.up hM rfl)
                | with_reducible apply updPort_within (Sub.up hM rfl)
                | (with_reducible apply Within.snd <;> [with_reducible assumption; skip])
                | (with_reducible apply Within.fst <;> [with_reducible assumption; skip])
                | (with_reducible apply Within.fst2 <;> [with_reducible assumption; skip])
                | split)
         | (have hx : Within M s0 x.1 := by
              unfold x
              repeat' first
                | with_reducible assumption
                | dsimp -zeta only
                | with_reducible apply Within.ite1
                | with_reducible apply Within.ite2
                | with_reducible apply Within.ite
                | with_reducible apply bump_within (Sub.up hM rfl)
                | with_reducible apply updPort_within (Sub.up hM rfl)
                | (with_reducible apply Within.snd <;> [with_reducible assumption; skip])
                | (with_reducible apply Within.fst <;> [with_reducible assumption; skip])
                | (with_reducible apply Within.fst2 <;> [with_reducible assumption; skip])
                | split)
         | (have hx : Within M s0 x.2 := by
              unfold x
              repeat' first
                | with_reducible assumption
                | dsimp -zeta only
                | with_reducible apply Within.ite1
                | with_reducible apply Within.ite2
                | with_reducible apply Within.ite
                | with_reducible apply bump_within (Sub.up hM rfl)
                | with_reducible apply updPort_within (Sub.up hM rfl)
                | (with_reducible apply Within.snd <;> [with_reducible assumption; skip])
                | (with_reducible apply Within.fst <;> [with_reducible assumption; skip])
                | (with_reducible apply Within.fst2 <;> [with_reducible assumption; skip])
                | split)
         | skip
       clear_value x)
    | lift_lets -underBinder
    | dsimp -zeta only
    | with_reducible apply Within.ite1
    | with_reducible apply Within.ite2
    | with_reducible apply Within.ite
    | with_reducible apply bump_within (Sub.up hM rfl)
    | with_reducible apply updPort_within (Sub.up hM rfl)
    | (with_reducible apply Within.snd <;> [with_reducible assumption; skip])
    | (with_reducible apply Within.fst <;> [with_reducible assumption; skip])
    | (with_reducible apply Within.fst2 <;> [with_reducible assumption; skip])
    | split

theorem execRetrainEqualised_within {M : Nat} {s0 : State} (hM : Sub 0x100020890 M) (p : PortId) (s : State) (hW : Within M s0 s) :
    ∃ u, execRetrainEqualised p s = .next u ∧ Within M s0 u := by
  unfold execRetrainEqualised
  refine ⟨_, rfl, ?_⟩
  repeat' first
    | with_reducible assumption
    | (intro x
       first
         | (have hx : Within M s0 x := by
              unfold x
              repeat' first
                | with_reducible assumption
                | dsimp -zeta only
                | with_reducible apply Within.ite1
                | with_reducible apply Within.ite2
                | with_reducible apply Within.ite
                | with_reducible apply portIsUp_within (Sub.up hM rfl)
                | (with_reducible apply Within.snd <;> [with_reducible assumption; skip])
                | (with_reducible apply Within.fst <;> [with_reducible assumption; skip])
                | (with_reducible apply Within.fst2 <;> [with_reducible assumption; skip])
                | split)
         | (have hx : Within M s0 x.1 := by
              unfold x
              repeat' first
                | with_reducible assumption
                | dsimp -zeta only
                | with_reducible apply Within.ite1
                | with_reducible apply Within.ite2
                | with_reducible apply Within.ite
                | with_reducible apply portIsUp_within (Sub.up hM rfl)
                | (with_reducible apply Within.snd <;> [with_reducible assumption; skip])
                | (with_reducible apply Within.fst <;> [with_reducible assumption; skip])
                | (with_reducible apply Within.fst2 <;> [with_reducible assumption; skip])
                | split)
         | (have hx : Within M s0 x.2 := by
              unfold x
              repeat' first
                | with_reducible assumption
                | dsimp -zeta only
                | with_reducible apply Within.ite1
                | with_reducible apply Within.ite2
                | with_reducible apply Within.ite
                | with_reducible apply portIsUp_within (Sub.up hM rfl)
                | (with_reducible apply Within.snd <;> [with_reducible assumption; skip])
                | (with_reducible apply Within.fst <;> [with_reducible assumption; skip])
                | (with_reducible apply Within.fst2 <;> [with_reducible assumption; skip])
                | split)
         | skip
       clear_value x)
    | lift_lets -underBinder
    | dsimp -zeta only
    | with_reducible apply Within.ite1
    | with_reducible apply Within.ite2
    | with_reducible apply Within.ite
    | with_reducible apply portIsUp_within (Sub.up hM rfl)
    | (with_reducible apply Within.snd <;> [with_reducible assumption; skip])
    | (with_reducible apply Within.fst <;> [with_reducible assumption; skip])
    | (with_reducible apply Within.fst2 <;> [with_reducible assumption; skip])
    | split

theorem execRetrainTimeout_within {M : Nat} {s0 : State} (hM : Sub 0x100020890 M) (p : PortId) (s : State) (hW : Within M s0 s) :
    ∃ u, execRetrainTimeout p s = .next u ∧ Within M s0 u := by
  unfold execRetrainTimeout
  refine ⟨_, rfl, ?_⟩
  repeat' first
    | with_reducible assumption
    | (intro x
       first
         | (have hx : Within M s0 x := by
              unfold x
              repeat' first
                | with_reducible assumption
                | dsimp -zeta only
                | with_reducible apply Within.ite1
                | with_reducible apply Within.ite2
                | with_reducible apply Within.ite
                | with_reducible apply updPort_within (Sub.up hM rfl)
                | with_reducible apply startTraining_within (Sub.up hM rfl)
                | with_reducible apply portDown_within (Sub.up hM rfl)
                | (with_reducible apply Within.snd <;> [with_reducible assumption; skip])
                | (with_reducible apply Within.fst <;> [with_reducible assumption; skip])
                | (with_reducible apply Within.fst2 <;> [with_reducible assumption; skip])
                | split)
         | (have hx : Within M s0 x.1 := by
              unfold x
              repeat' first
                | with_reducible assumption
                | dsimp -zeta only
                | with_reducible apply Within.ite1
                | with_reducible apply Within.ite2
                | with_reducible apply Within.ite
                | with_reducible apply updPort_within (Sub.up hM rfl)
                | with_reducible apply startTraining_within (Sub.up hM rfl)
                | with_reducible apply portDown_within (Sub.up hM rfl)
                | (with_reducible apply Within.snd <;> [with_reducible assumption; skip])
                | (with_reducible apply Within.fst <;> [with_reducible assumption; skip])
                | (with_reducible apply Within.fst2 <;> [with_reducible assumption; skip])
                | split)
         | (have hx : Within M s0 x.2 := by
              unfold x
              repeat' first
                | with_reducible assumption
                | dsimp -zeta only
                | with_reducible apply Within.ite1
                | with_reducible apply Within.ite2
                | with_reducible apply Within.ite
                | with_reducible apply updPort_within (Sub.up hM rfl)
                | with_reducible apply startTraining_within (Sub.up hM rfl)
                | with_reducible apply portDown_within (Sub.up hM rfl)
                | (with_reducible apply Within.snd <;> [with_reducible assumption; skip])
                | (with_reducible apply Within.fst <;> [with_reducible assumption; skip])
                | (with_reducible apply Within.fst2 <;> [with_reducible assumption; skip])
                | split)
         | skip
       clear_value x)
    | lift_lets -underBinder
    | dsimp -zeta only
    | with_reducible apply Within.ite1
    | with_reducible apply Within.ite2
    | with_reducible apply Within.ite
    | with_reducible apply updPort_within (Sub.up hM rfl)
    | with_reducible apply startTraining_within (Sub.up hM rfl)
    | with_reducible apply portDown_within (Sub.up hM rfl)
    | (with_reducible apply Within.snd <;> [with_reducible assumption; skip])
    | (with_reducible apply Within.fst <;> [with_reducible assumption; skip])
    | (with_reducible apply Within.fst2 <;> [with_reducible assumption; skip])
    | split

theorem execLimundPortDown_within {M : Nat} {s0 : State} (hM : Sub 0x100020890 M) (p : PortId) (s : State) (hW : Within M s0 s) :
    ∃ u, execLimundPortDown p s = .next u ∧ Within M s0 u := by
  unfold execLimundPortDown
  refine ⟨_, rfl, ?_⟩
  repeat' first
    | with_reducible assumption
    | with_reducible apply portDown_within (Sub.up hM rfl)

theorem pushFlit_within {M : Nat} {s0 : State} (hM : Sub 0x200000800 M) (s : State) (p : Nat) (f : Flit) (hW : Within M s0 s) : Within M s0 (pushFlit s p f) := by
  unfold pushFlit
  repeat' first
    | with_reducible assumption
    | (intro x
       first
         | (have hx : Within M s0 x := by
              unfold x
              repeat' first
                | with_reducible assumption
                | with_reducible apply Within.ite
                | with_reducible apply updPort_within (Sub.up hM rfl)
                | with_reducible apply emit_within (Sub.up hM rfl))
         | skip
       clear_value x)
    | lift_lets -underBinder
    | with_reducible apply Within.ite
    | with_reducible apply updPort_within (Sub.up hM rfl)
    | with_reducible apply emit_within (Sub.up hM rfl)

theorem execFrameReceive_within {M : Nat} {s0 : State} (hM : Sub 0x710093fdb M) (p : PortId) (frame : Option LinkFrame) (corrected : Nat) (s : State) (hW : Within M s0 s) :
    ∃ u, execFrameReceive p frame corrected s = .next u ∧ Within M s0 u := by
  unfold execFrameReceive
  refine ⟨_, rfl, ?_⟩
  repeat' first
    | with_reducible assumption
    | (intro x
       first
         | (have hx : Within M s0 x := by
              unfold x
              repeat' first
                | with_reducible assumption
                | with_reducible apply Within.ite
                | with_reducible apply bump_within (Sub.up hM rfl)
                | with_reducible apply updPort_within (Sub.up hM rfl)
                | with_reducible apply flitArrives_within (Sub.up hM rfl)
                | with_reducible apply corrected_within (Sub.up hM rfl)
                | with_reducible refine each_within (fun _ _ _ => ?_) ?_
                | (with_reducible apply Within.snd <;> [with_reducible assumption; skip])
                | (with_reducible apply Within.fst <;> [with_reducible assumption; skip])
                | (with_reducible apply Within.fst2 <;> [with_reducible assumption; skip])
                | split)
         | skip
       clear_value x)
    | lift_lets -underBinder
    | with_reducible apply Within.ite
    | with_reducible apply bump_within (Sub.up hM rfl)
    | with_reducible apply updPort_within (Sub.up hM rfl)
    | with_reducible apply flitArrives_within (Sub.up hM rfl)
    | with_reducible apply corrected_within (Sub.up hM rfl)
    | with_reducible refine each_within (fun _ _ _ => ?_) ?_
    | (with_reducible apply Within.snd <;> [with_reducible assumption; skip])
    | (with_reducible apply Within.fst <;> [with_reducible assumption; skip])
    | (with_reducible apply Within.fst2 <;> [with_reducible assumption; skip])
    | split

theorem execFrameReplay_within {M : Nat} {s0 : State} (hM : Sub 0x200000800 M) (p : PortId) (ackSeq : BitVec 16) (s : State) (hW : Within M s0 s) :
    ∃ u, execFrameReplay p ackSeq s = .next u ∧ Within M s0 u := by
  unfold execFrameReplay
  refine ⟨_, rfl, ?_⟩
  repeat' first
    | with_reducible assumption
    | (intro x
       first
         | (have hx : Within M s0 x := by
              unfold x
              repeat' first
                | with_reducible assumption
                | with_reducible apply updPort_within (Sub.up hM rfl)
                | with_reducible apply emit_within (Sub.up hM rfl)
                | with_reducible refine each_within (fun _ _ _ => ?_) ?_)
         | skip
       clear_value x)
    | lift_lets -underBinder
    | with_reducible apply updPort_within (Sub.up hM rfl)
    | with_reducible apply emit_within (Sub.up hM rfl)
    | with_reducible refine each_within (fun _ _ _ => ?_) ?_

theorem sendData_within {M : Nat} {s0 : State} (hM : Sub 0x710001fdb M) (s : State) (p : Nat) (m : SentMsg) (hW : Within M s0 s) : Within M s0 (sendData s p m) := by
  unfold sendData
  repeat' first
    | with_reducible assumption
    | (intro x
       first
         | (have hx : Within M s0 x := by
              unfold x
              repeat' first
                | with_reducible assumption
                | dsimp -zeta only
                | with_reducible apply Within.ite1
                | with_reducible apply Within.ite2
                | with_reducible apply Within.ite
                | with_reducible apply bump_within (Sub.up hM rfl)
                | with_reducible apply updPort_within (Sub.up hM rfl)
                | with_reducible apply updStrand_within (Sub.up hM rfl)
                | with_reducible apply linkWrite_within (Sub.up hM rfl)
                | with_reducible apply updGroup_within (Sub.up hM rfl)
                | with_reducible apply pushFlit_within (Sub.up hM rfl)
                | with_reducible refine each_within (fun _ _ _ => ?_) ?_
                | (with_reducible apply Within.snd <;> [with_reducible assumption; skip])
                | (with_reducible apply Within.fst <;> [with_reducible assumption; skip])
                | (with_reducible apply Within.fst2 <;> [with_reducible assumption; skip])
                | split)
         | (have hx : Within M s0 x.1 := by
              unfold x
              repeat' first
                | with_reducible assumption
                | dsimp -zeta only
                | with_reducible apply Within.ite1
                | with_reducible apply Within.ite2
                | with_reducible apply Within.ite
                | with_reducible apply bump_within (Sub.up hM rfl)
                | with_reducible apply updPort_within (Sub.up hM rfl)
                | with_reducible apply updStrand_within (Sub.up hM rfl)
                | with_reducible apply linkWrite_within (Sub.up hM rfl)
                | with_reducible apply updGroup_within (Sub.up hM rfl)
                | with_reducible apply pushFlit_within (Sub.up hM rfl)
                | with_reducible refine each_within (fun _ _ _ => ?_) ?_
                | (with_reducible apply Within.snd <;> [with_reducible assumption; skip])
                | (with_reducible apply Within.fst <;> [with_reducible assumption; skip])
                | (with_reducible apply Within.fst2 <;> [with_reducible assumption; skip])
                | split)
         | (have hx : Within M s0 x.2 := by
              unfold x
              repeat' first
                | with_reducible assumption
                | dsimp -zeta only
                | with_reducible apply Within.ite1
                | with_reducible apply Within.ite2
                | with_reducible apply Within.ite
                | with_reducible apply bump_within (Sub.up hM rfl)
                | with_reducible apply updPort_within (Sub.up hM rfl)
                | with_reducible apply updStrand_within (Sub.up hM rfl)
                | with_reducible apply linkWrite_within (Sub.up hM rfl)
                | with_reducible apply updGroup_within (Sub.up hM rfl)
                | with_reducible apply pushFlit_within (Sub.up hM rfl)
                | with_reducible refine each_within (fun _ _ _ => ?_) ?_
                | (with_reducible apply Within.snd <;> [with_reducible assumption; skip])
                | (with_reducible apply Within.fst <;> [with_reducible assumption; skip])
                | (with_reducible apply Within.fst2 <;> [with_reducible assumption; skip])
                | split)
         | skip
       clear_value x)
    | lift_lets -underBinder
    | dsimp -zeta only
    | with_reducible apply Within.ite1
    | with_reducible apply Within.ite2
    | with_reducible apply Within.ite
    | with_reducible apply bump_within (Sub.up hM rfl)
    | with_reducible apply updPort_within (Sub.up hM rfl)
    | with_reducible apply updStrand_within (Sub.up hM rfl)
    | with_reducible apply linkWrite_within (Sub.up hM rfl)
    | with_reducible apply updGroup_within (Sub.up hM rfl)
    | with_reducible apply pushFlit_within (Sub.up hM rfl)
    | with_reducible refine each_within (fun _ _ _ => ?_) ?_
    | (with_reducible apply Within.snd <;> [with_reducible assumption; skip])
    | (with_reducible apply Within.fst <;> [with_reducible assumption; skip])
    | (with_reducible apply Within.fst2 <;> [with_reducible assumption; skip])
    | split

theorem noteLimits_within {M : Nat} {s0 : State} (hM : Sub 0x1000 M) (s : State) (p : Nat) (hW : Within M s0 s) : Within M s0 (noteLimits s p) := by
  unfold noteLimits
  repeat' first
    | with_reducible assumption
    | with_reducible apply Within.ite
    | with_reducible apply updGroup_within (Sub.up hM rfl)
    | with_reducible refine each_within (fun _ _ _ => ?_) ?_
    | (with_reducible apply Within.snd <;> [with_reducible assumption; skip])
    | (with_reducible apply Within.fst <;> [with_reducible assumption; skip])
    | (with_reducible apply Within.fst2 <;> [with_reducible assumption; skip])
    | split

theorem execFlitSelect_within {M : Nat} {s0 : State} (hM : Sub 0x710001fdb M) (p : PortId) (s : State) (hW : Within M s0 s) :
    ∃ u, execFlitSelect p s = .next u ∧ Within M s0 u := by
  unfold execFlitSelect
  refine ⟨_, rfl, ?_⟩
  repeat' first
    | with_reducible assumption
    | (intro x
       first
         | (have hx : Within M s0 x := by
              unfold x
              repeat' first
                | with_reducible assumption
                | with_reducible apply Within.ite
                | with_reducible apply bump_within (Sub.up hM rfl)
                | with_reducible apply updPort_within (Sub.up hM rfl)
                | with_reducible apply pushFlit_within (Sub.up hM rfl)
                | with_reducible apply sendData_within (Sub.up hM rfl)
                | with_reducible apply noteLimits_within (Sub.up hM rfl)
                | (with_reducible apply Within.snd <;> [with_reducible assumption; skip])
                | (with_reducible apply Within.fst <;> [with_reducible assumption; skip])
                | (with_reducible apply Within.fst2 <;> [with_reducible assumption; skip])
                | split)
         | skip
       clear_value x)
    | lift_lets -underBinder
    | with_reducible apply Within.ite
    | with_reducible apply bump_within (Sub.up hM rfl)
    | with_reducible apply updPort_within (Sub.up hM rfl)
    | with_reducible apply pushFlit_within (Sub.up hM rfl)
    | with_reducible apply sendData_within (Sub.up hM rfl)
    | with_reducible apply noteLimits_within (Sub.up hM rfl)
    | (with_reducible apply Within.snd <;> [with_reducible assumption; skip])
    | (with_reducible apply Within.fst <;> [with_reducible assumption; skip])
    | (with_reducible apply Within.fst2 <;> [with_reducible assumption; skip])
    | split

theorem execStrandEntryFill_within {M : Nat} {s0 : State} (hM : Sub 0x710093fdb M) (d : LnkDie) (n : StrandId) (s : State) (hW : Within M s0 s) :
    ∃ u, execStrandEntryFill d n s = .next u ∧ Within M s0 u := by
  unfold execStrandEntryFill
  refine ⟨_, rfl, ?_⟩
  repeat' first
    | with_reducible assumption
    | (intro x
       first
         | (have hx : Within M s0 x := by
              unfold x
              repeat' first
                | with_reducible assumption
                | with_reducible apply Within.ite
                | with_reducible apply updPort_within (Sub.up hM rfl)
                | with_reducible apply lnkMiss_within (Sub.up hM rfl)
                | with_reducible apply localFlit_within (Sub.up hM rfl)
                | with_reducible refine each_within (fun _ _ _ => ?_) ?_)
         | skip
       clear_value x)
    | lift_lets -underBinder
    | with_reducible apply Within.ite
    | with_reducible apply updPort_within (Sub.up hM rfl)
    | with_reducible apply lnkMiss_within (Sub.up hM rfl)
    | with_reducible apply localFlit_within (Sub.up hM rfl)
    | with_reducible refine each_within (fun _ _ _ => ?_) ?_

theorem execLnkSendPost_within {M : Nat} {s0 : State} (hM : Sub 0x7100f3fdb M) (d : LnkDie) (task : Option SlotId) (desc : List Word) (s : State) (hW : Within M s0 s) :
    ∃ u, execLnkSendPost d task desc s = .next u ∧ Within M s0 u := by
  unfold execLnkSendPost
  refine ⟨_, rfl, ?_⟩
  repeat' first
    | with_reducible assumption
    | (intro x
       first
         | (have hx : Within M s0 x := by
              unfold x
              repeat' first
                | with_reducible assumption
                | with_reducible apply lnkMiss_within (Sub.up hM rfl)
                | with_reducible apply failSend_within (Sub.up hM rfl)
                | with_reducible apply postMsg_within (Sub.up hM rfl)
                | (with_reducible apply Within.snd <;> [with_reducible assumption; skip])
                | (with_reducible apply Within.fst <;> [with_reducible assumption; skip])
                | (with_reducible apply Within.fst2 <;> [with_reducible assumption; skip])
                | split)
         | skip
       clear_value x)
    | lift_lets -underBinder
    | with_reducible apply lnkMiss_within (Sub.up hM rfl)
    | with_reducible apply failSend_within (Sub.up hM rfl)
    | with_reducible apply postMsg_within (Sub.up hM rfl)
    | (with_reducible apply Within.snd <;> [with_reducible assumption; skip])
    | (with_reducible apply Within.fst <;> [with_reducible assumption; skip])
    | (with_reducible apply Within.fst2 <;> [with_reducible assumption; skip])
    | split

theorem execCredit_within {M : Nat} {s0 : State} (hM : Sub 0x80 M) (_p : PortId) (dst : BitVec 12) (n : StrandId) (flits : BitVec 16) (s : State) (hW : Within M s0 s) :
    ∃ u, execCredit _p dst n flits s = .next u ∧ Within M s0 u := by
  unfold execCredit
  refine ⟨_, rfl, ?_⟩
  repeat' first
    | with_reducible assumption
    | with_reducible apply Within.ite
    | with_reducible apply updStrand_within (Sub.up hM rfl)

theorem judgePort_within {M : Nat} {s0 : State} (hM : Sub 0x311000881 M) (s : State) (p : Nat) (hW : Within M s0 s) : Within M s0 (judgePort s p) := by
  unfold judgePort
  repeat' first
    | with_reducible assumption
    | (intro x
       first
         | (have hx : Within M s0 x := by
              unfold x
              repeat' first
                | with_reducible assumption
                | with_reducible apply Within.ite
                | with_reducible apply updPort_within (Sub.up hM rfl)
                | with_reducible apply raise_within (Sub.up hM rfl)
                | with_reducible refine Within.divergenceEvents ?_ (Sub.has hM rfl))
         | skip
       clear_value x)
    | lift_lets -underBinder
    | with_reducible apply Within.ite
    | with_reducible apply updPort_within (Sub.up hM rfl)
    | with_reducible apply raise_within (Sub.up hM rfl)
    | with_reducible refine Within.divergenceEvents ?_ (Sub.has hM rfl)

theorem execDigest_within {M : Nat} {s0 : State} (hM : Sub 0x311000881 M) (p : PortId) (epoch : BitVec 32) (d : Word) (s : State) (hW : Within M s0 s) :
    ∃ u, execDigest p epoch d s = .next u ∧ Within M s0 u := by
  unfold execDigest
  refine ⟨_, rfl, ?_⟩
  repeat' first
    | with_reducible assumption
    | (intro x
       first
         | (have hx : Within M s0 x := by
              unfold x
              repeat' first
                | with_reducible assumption
                | with_reducible apply Within.ite
                | with_reducible apply setReg_within (Sub.up hM rfl)
                | with_reducible apply updPort_within (Sub.up hM rfl)
                | with_reducible apply judgePort_within (Sub.up hM rfl))
         | skip
       clear_value x)
    | lift_lets -underBinder
    | with_reducible apply Within.ite
    | with_reducible apply setReg_within (Sub.up hM rfl)
    | with_reducible apply updPort_within (Sub.up hM rfl)
    | with_reducible apply judgePort_within (Sub.up hM rfl)

theorem execDigestTimer_within {M : Nat} {s0 : State} (hM : Sub 0x800 M) (p : PortId) (s : State) (hW : Within M s0 s) :
    ∃ u, execDigestTimer p s = .next u ∧ Within M s0 u := by
  unfold execDigestTimer
  refine ⟨_, rfl, ?_⟩
  repeat' first
    | with_reducible assumption
    | with_reducible apply Within.ite
    | with_reducible apply sendDigest_within (Sub.up hM rfl)

theorem execEpochDisagreementTimeout_within {M : Nat} {s0 : State} (hM : Sub 0x311000881 M) (p : PortId) (s : State) (hW : Within M s0 s) :
    ∃ u, execEpochDisagreementTimeout p s = .next u ∧ Within M s0 u := by
  unfold execEpochDisagreementTimeout
  refine ⟨_, rfl, ?_⟩
  repeat' first
    | with_reducible assumption
    | with_reducible apply Within.ite
    | with_reducible apply judgePort_within (Sub.up hM rfl)

theorem execTime_within {M : Nat} {s0 : State} (hM : Sub 0x1 M) (p : PortId) (reftime : Word) (s : State) (hW : Within M s0 s) :
    ∃ u, execTime p reftime s = .next u ∧ Within M s0 u := by
  unfold execTime
  refine ⟨_, rfl, ?_⟩
  repeat' first
    | with_reducible assumption
    | with_reducible apply setReg_within (Sub.up hM rfl)

theorem execTimeTimer_within {M : Nat} {s0 : State} (hM : Sub 0x800 M) (p : PortId) (s : State) (hW : Within M s0 s) :
    ∃ u, execTimeTimer p s = .next u ∧ Within M s0 u := by
  unfold execTimeTimer
  refine ⟨_, rfl, ?_⟩
  repeat' first
    | with_reducible assumption
    | with_reducible apply Within.ite
    | with_reducible apply updPort_within (Sub.up hM rfl)
    | with_reducible apply sendControl_within (Sub.up hM rfl)

theorem execMcastAck_within {M : Nat} {s0 : State} (hM : Sub 0x1000 M) (grp member : BitVec 12) (offset : Word) (s : State) (hW : Within M s0 s) :
    ∃ u, execMcastAck grp member offset s = .next u ∧ Within M s0 u := by
  unfold execMcastAck
  refine ⟨_, rfl, ?_⟩
  repeat' first
    | with_reducible assumption
    | (intro x
       first
         | (have hx : Within M s0 x := by
              unfold x
              repeat' first
                | with_reducible assumption
                | with_reducible apply Within.ite
                | with_reducible apply updGroup_within (Sub.up hM rfl))
         | skip
       clear_value x)
    | lift_lets -underBinder
    | with_reducible apply Within.ite
    | with_reducible apply updGroup_within (Sub.up hM rfl)

theorem execDetachTimeout_within {M : Nat} {s0 : State} (hM : Sub 0x1801 M) (grp : BitVec 12) (s : State) (hW : Within M s0 s) :
    ∃ u, execDetachTimeout grp s = .next u ∧ Within M s0 u := by
  unfold execDetachTimeout
  refine ⟨_, rfl, ?_⟩
  repeat' first
    | with_reducible assumption
    | (intro x
       first
         | (have hx : Within M s0 x := by
              unfold x
              repeat' first
                | with_reducible assumption
                | with_reducible apply Within.ite
                | with_reducible apply bump_within (Sub.up hM rfl)
                | with_reducible apply controlTo_within (Sub.up hM rfl)
                | with_reducible apply updGroup_within (Sub.up hM rfl)
                | (with_reducible apply Within.snd <;> [with_reducible assumption; skip])
                | (with_reducible apply Within.fst <;> [with_reducible assumption; skip])
                | (with_reducible apply Within.fst2 <;> [with_reducible assumption; skip])
                | split)
         | skip
       clear_value x)
    | lift_lets -underBinder
    | with_reducible apply Within.ite
    | with_reducible apply bump_within (Sub.up hM rfl)
    | with_reducible apply controlTo_within (Sub.up hM rfl)
    | with_reducible apply updGroup_within (Sub.up hM rfl)
    | (with_reducible apply Within.snd <;> [with_reducible assumption; skip])
    | (with_reducible apply Within.fst <;> [with_reducible assumption; skip])
    | (with_reducible apply Within.fst2 <;> [with_reducible assumption; skip])
    | split

theorem execDetach_within {M : Nat} {s0 : State} (hM : Sub 0x310005881 M) (p : PortId) (srcDev grp : BitVec 12) (from_ : Word) (s : State) (hW : Within M s0 s) :
    ∃ u, execDetach p srcDev grp from_ s = .next u ∧ Within M s0 u := by
  unfold execDetach
  refine ⟨_, rfl, ?_⟩
  repeat' first
    | with_reducible assumption
    | (intro x
       first
         | (have hx : Within M s0 x := by
              unfold x
              repeat' first
                | with_reducible assumption
                | with_reducible apply setReg_within (Sub.up hM rfl)
                | with_reducible apply raise_within (Sub.up hM rfl)
                | with_reducible apply updGroup_within (Sub.up hM rfl)
                | with_reducible apply askRange_within (Sub.up hM rfl)
                | with_reducible refine Within.gapNext ?_ (Sub.has hM rfl))
         | skip
       clear_value x)
    | lift_lets -underBinder
    | with_reducible apply setReg_within (Sub.up hM rfl)
    | with_reducible apply raise_within (Sub.up hM rfl)
    | with_reducible apply updGroup_within (Sub.up hM rfl)
    | with_reducible apply askRange_within (Sub.up hM rfl)
    | with_reducible refine Within.gapNext ?_ (Sub.has hM rfl)

theorem sendRecovery_within {M : Nat} {s0 : State} (hM : Sub 0x881 M) (s : State) (g member : Nat) (va : Nat → Nat) (piece : Nat × Nat) (hW : Within M s0 s) : Within M s0 (sendRecovery s g member va piece) := by
  unfold sendRecovery
  repeat' first
    | with_reducible assumption
    | (intro x
       first
         | (have hx : Within M s0 x := by
              unfold x
              repeat' first
                | with_reducible assumption
                | with_reducible apply Within.ite
                | with_reducible apply bump_within (Sub.up hM rfl)
                | with_reducible apply updPort_within (Sub.up hM rfl)
                | with_reducible apply updStrand_within (Sub.up hM rfl)
                | (with_reducible apply Within.snd <;> [with_reducible assumption; skip])
                | (with_reducible apply Within.fst <;> [with_reducible assumption; skip])
                | (with_reducible apply Within.fst2 <;> [with_reducible assumption; skip])
                | split)
         | skip
       clear_value x)
    | lift_lets -underBinder
    | with_reducible apply Within.ite
    | with_reducible apply bump_within (Sub.up hM rfl)
    | with_reducible apply updPort_within (Sub.up hM rfl)
    | with_reducible apply updStrand_within (Sub.up hM rfl)
    | (with_reducible apply Within.snd <;> [with_reducible assumption; skip])
    | (with_reducible apply Within.fst <;> [with_reducible assumption; skip])
    | (with_reducible apply Within.fst2 <;> [with_reducible assumption; skip])
    | split

theorem execRecover_within {M : Nat} {s0 : State} (hM : Sub 0x881 M) (_p : PortId) (grp member : BitVec 12) (from_ to_ : Word) (s : State) (hW : Within M s0 s) :
    ∃ u, execRecover _p grp member from_ to_ s = .next u ∧ Within M s0 u := by
  unfold execRecover
  refine ⟨_, rfl, ?_⟩
  repeat' first
    | with_reducible assumption
    | (intro x
       first
         | (have hx : Within M s0 x := by
              unfold x
              repeat' first
                | with_reducible assumption
                | with_reducible apply Within.ite
                | with_reducible apply bump_within (Sub.up hM rfl)
                | with_reducible apply controlTo_within (Sub.up hM rfl)
                | with_reducible apply sendRecovery_within (Sub.up hM rfl)
                | with_reducible refine each_within (fun _ _ _ => ?_) ?_)
         | skip
       clear_value x)
    | lift_lets -underBinder
    | with_reducible apply Within.ite
    | with_reducible apply bump_within (Sub.up hM rfl)
    | with_reducible apply controlTo_within (Sub.up hM rfl)
    | with_reducible apply sendRecovery_within (Sub.up hM rfl)
    | with_reducible refine each_within (fun _ _ _ => ?_) ?_

theorem execLost_within {M : Nat} {s0 : State} (hM : Sub 0x1853 M) (_p : PortId) (grp : BitVec 12) (from_ to_ : Word) (msgs : BitVec 16) (s : State) (hW : Within M s0 s) :
    ∃ u, execLost _p grp from_ to_ msgs s = .next u ∧ Within M s0 u := by
  unfold execLost
  refine ⟨_, rfl, ?_⟩
  repeat' first
    | with_reducible assumption
    | (intro x
       first
         | (have hx : Within M s0 x := by
              unfold x
              repeat' first
                | with_reducible assumption
                | dsimp -zeta only
                | with_reducible apply Within.ite1
                | with_reducible apply Within.ite2
                | with_reducible apply Within.ite
                | with_reducible apply joinMarker_within (Sub.up hM rfl)
                | with_reducible apply updGroup_within (Sub.up hM rfl)
                | with_reducible apply gapState_within (Sub.up hM rfl)
                | with_reducible apply accept_within (Sub.up hM rfl)
                | (with_reducible apply Within.snd <;> [with_reducible assumption; skip])
                | (with_reducible apply Within.fst <;> [with_reducible assumption; skip])
                | (with_reducible apply Within.fst2 <;> [with_reducible assumption; skip])
                | split)
         | (have hx : Within M s0 x.1 := by
              unfold x
              repeat' first
                | with_reducible assumption
                | dsimp -zeta only
                | with_reducible apply Within.ite1
                | with_reducible apply Within.ite2
                | with_reducible apply Within.ite
                | with_reducible apply joinMarker_within (Sub.up hM rfl)
                | with_reducible apply updGroup_within (Sub.up hM rfl)
                | with_reducible apply gapState_within (Sub.up hM rfl)
                | with_reducible apply accept_within (Sub.up hM rfl)
                | (with_reducible apply Within.snd <;> [with_reducible assumption; skip])
                | (with_reducible apply Within.fst <;> [with_reducible assumption; skip])
                | (with_reducible apply Within.fst2 <;> [with_reducible assumption; skip])
                | split)
         | (have hx : Within M s0 x.2 := by
              unfold x
              repeat' first
                | with_reducible assumption
                | dsimp -zeta only
                | with_reducible apply Within.ite1
                | with_reducible apply Within.ite2
                | with_reducible apply Within.ite
                | with_reducible apply joinMarker_within (Sub.up hM rfl)
                | with_reducible apply updGroup_within (Sub.up hM rfl)
                | with_reducible apply gapState_within (Sub.up hM rfl)
                | with_reducible apply accept_within (Sub.up hM rfl)
                | (with_reducible apply Within.snd <;> [with_reducible assumption; skip])
                | (with_reducible apply Within.fst <;> [with_reducible assumption; skip])
                | (with_reducible apply Within.fst2 <;> [with_reducible assumption; skip])
                | split)
         | skip
       clear_value x)
    | lift_lets -underBinder
    | dsimp -zeta only
    | with_reducible apply Within.ite1
    | with_reducible apply Within.ite2
    | with_reducible apply Within.ite
    | with_reducible apply joinMarker_within (Sub.up hM rfl)
    | with_reducible apply updGroup_within (Sub.up hM rfl)
    | with_reducible apply gapState_within (Sub.up hM rfl)
    | with_reducible apply accept_within (Sub.up hM rfl)
    | (with_reducible apply Within.snd <;> [with_reducible assumption; skip])
    | (with_reducible apply Within.fst <;> [with_reducible assumption; skip])
    | (with_reducible apply Within.fst2 <;> [with_reducible assumption; skip])
    | split

theorem execMergeContextOpen_within {M : Nat} {s0 : State} (hM : Sub 0x2001 M) (d : LnkDie) (x : Fin 8) (value : Word) (s : State) (hW : Within M s0 s) :
    ∃ u, execMergeContextOpen d x value s = .next u ∧ Within M s0 u := by
  unfold execMergeContextOpen
  refine ⟨_, rfl, ?_⟩
  repeat' first
    | with_reducible assumption
    | (intro x
       first
         | (have hx : Within M s0 x := by
              unfold x
              repeat' first
                | with_reducible assumption
                | with_reducible apply Within.ite
                | with_reducible apply setReg_within (Sub.up hM rfl)
                | with_reducible apply setField_within (Sub.up hM rfl)
                | with_reducible apply updMerge_within (Sub.up hM rfl))
         | skip
       clear_value x)
    | lift_lets -underBinder
    | with_reducible apply Within.ite
    | with_reducible apply setReg_within (Sub.up hM rfl)
    | with_reducible apply setField_within (Sub.up hM rfl)
    | with_reducible apply updMerge_within (Sub.up hM rfl)

theorem mergeSend_within {M : Nat} {s0 : State} (hM : Sub 0x7100e3fdb M) (s : State) (d x : Nat) (final : Bool) (hW : Within M s0 s) : Within M s0 (mergeSend s d x final) := by
  unfold mergeSend
  repeat' first
    | with_reducible assumption
    | (intro x
       first
         | (have hx : Within M s0 x := by
              unfold x
              repeat' first
                | with_reducible assumption
                | with_reducible apply freshFree_within (Sub.up hM rfl)
                | with_reducible apply updMerge_within (Sub.up hM rfl)
                | with_reducible apply postMsg_within (Sub.up hM rfl)
                | (with_reducible apply Within.snd <;> [with_reducible assumption; skip])
                | (with_reducible apply Within.fst <;> [with_reducible assumption; skip])
                | (with_reducible apply Within.fst2 <;> [with_reducible assumption; skip])
                | split)
         | (have hx : Within M s0 x.1 := by
              unfold x
              repeat' first
                | with_reducible assumption
                | with_reducible apply freshFree_within (Sub.up hM rfl)
                | with_reducible apply updMerge_within (Sub.up hM rfl)
                | with_reducible apply postMsg_within (Sub.up hM rfl)
                | (with_reducible apply Within.snd <;> [with_reducible assumption; skip])
                | (with_reducible apply Within.fst <;> [with_reducible assumption; skip])
                | (with_reducible apply Within.fst2 <;> [with_reducible assumption; skip])
                | split)
         | (have hx : Within M s0 x.2 := by
              unfold x
              repeat' first
                | with_reducible assumption
                | with_reducible apply freshFree_within (Sub.up hM rfl)
                | with_reducible apply updMerge_within (Sub.up hM rfl)
                | with_reducible apply postMsg_within (Sub.up hM rfl)
                | (with_reducible apply Within.snd <;> [with_reducible assumption; skip])
                | (with_reducible apply Within.fst <;> [with_reducible assumption; skip])
                | (with_reducible apply Within.fst2 <;> [with_reducible assumption; skip])
                | split)
         | skip
       clear_value x)
    | lift_lets -underBinder
    | with_reducible apply freshFree_within (Sub.up hM rfl)
    | with_reducible apply updMerge_within (Sub.up hM rfl)
    | with_reducible apply postMsg_within (Sub.up hM rfl)
    | (with_reducible apply Within.snd <;> [with_reducible assumption; skip])
    | (with_reducible apply Within.fst <;> [with_reducible assumption; skip])
    | (with_reducible apply Within.fst2 <;> [with_reducible assumption; skip])
    | split

theorem mergeOut_within {M : Nat} {s0 : State} (hM : Sub 0x7100e3fdb M) (s : State) (d x idx : Nat) (v : F32) (hW : Within M s0 s) : Within M s0 (mergeOut s d x idx v) := by
  unfold mergeOut
  repeat' first
    | with_reducible assumption
    | (intro x
       first
         | (have hx : Within M s0 x := by
              unfold x
              repeat' first
                | with_reducible assumption
                | dsimp -zeta only
                | with_reducible apply Within.ite1
                | with_reducible apply Within.ite2
                | with_reducible apply Within.ite
                | with_reducible apply bump_within (Sub.up hM rfl)
                | with_reducible apply linkWrite_within (Sub.up hM rfl)
                | with_reducible apply updMerge_within (Sub.up hM rfl)
                | with_reducible apply mergeSend_within (Sub.up hM rfl)
                | (with_reducible apply Within.snd <;> [with_reducible assumption; skip])
                | (with_reducible apply Within.fst <;> [with_reducible assumption; skip])
                | (with_reducible apply Within.fst2 <;> [with_reducible assumption; skip])
                | split)
         | (have hx : Within M s0 x.1 := by
              unfold x
              repeat' first
                | with_reducible assumption
                | dsimp -zeta only
                | with_reducible apply Within.ite1
                | with_reducible apply Within.ite2
                | with_reducible apply Within.ite
                | with_reducible apply bump_within (Sub.up hM rfl)
                | with_reducible apply linkWrite_within (Sub.up hM rfl)
                | with_reducible apply updMerge_within (Sub.up hM rfl)
                | with_reducible apply mergeSend_within (Sub.up hM rfl)
                | (with_reducible apply Within.snd <;> [with_reducible assumption; skip])
                | (with_reducible apply Within.fst <;> [with_reducible assumption; skip])
                | (with_reducible apply Within.fst2 <;> [with_reducible assumption; skip])
                | split)
         | (have hx : Within M s0 x.2 := by
              unfold x
              repeat' first
                | with_reducible assumption
                | dsimp -zeta only
                | with_reducible apply Within.ite1
                | with_reducible apply Within.ite2
                | with_reducible apply Within.ite
                | with_reducible apply bump_within (Sub.up hM rfl)
                | with_reducible apply linkWrite_within (Sub.up hM rfl)
                | with_reducible apply updMerge_within (Sub.up hM rfl)
                | with_reducible apply mergeSend_within (Sub.up hM rfl)
                | (with_reducible apply Within.snd <;> [with_reducible assumption; skip])
                | (with_reducible apply Within.fst <;> [with_reducible assumption; skip])
                | (with_reducible apply Within.fst2 <;> [with_reducible assumption; skip])
                | split)
         | skip
       clear_value x)
    | lift_lets -underBinder
    | dsimp -zeta only
    | with_reducible apply Within.ite1
    | with_reducible apply Within.ite2
    | with_reducible apply Within.ite
    | with_reducible apply bump_within (Sub.up hM rfl)
    | with_reducible apply linkWrite_within (Sub.up hM rfl)
    | with_reducible apply updMerge_within (Sub.up hM rfl)
    | with_reducible apply mergeSend_within (Sub.up hM rfl)
    | (with_reducible apply Within.snd <;> [with_reducible assumption; skip])
    | (with_reducible apply Within.fst <;> [with_reducible assumption; skip])
    | (with_reducible apply Within.fst2 <;> [with_reducible assumption; skip])
    | split

theorem execMergeEntryEmit_within {M : Nat} {s0 : State} (hM : Sub 0x7100e3fdb M) (d : LnkDie) (x : Fin 8) (s : State) (hW : Within M s0 s) :
    ∃ u, execMergeEntryEmit d x s = .next u ∧ Within M s0 u := by
  unfold execMergeEntryEmit
  refine ⟨_, rfl, ?_⟩
  repeat' first
    | with_reducible assumption
    | (intro x
       first
         | (have hx : Within M s0 x := by
              unfold x
              repeat' first
                | with_reducible assumption
                | with_reducible apply Within.ite
                | with_reducible apply setField_within (Sub.up hM rfl)
                | with_reducible apply updMerge_within (Sub.up hM rfl)
                | with_reducible apply mergeSend_within (Sub.up hM rfl)
                | with_reducible apply mergeOut_within (Sub.up hM rfl)
                | with_reducible refine Within.fold (fun _ _ _ => ?_) ?_
                | with_reducible refine Within.fold1 (fun _ _ _ => ?_) ?_
                | with_reducible refine Within.fold2 (fun _ _ _ => ?_) ?_
                | (with_reducible apply Within.snd <;> [with_reducible assumption; skip])
                | (with_reducible apply Within.fst <;> [with_reducible assumption; skip])
                | (with_reducible apply Within.fst2 <;> [with_reducible assumption; skip])
                | split)
         | skip
       clear_value x)
    | lift_lets -underBinder
    | with_reducible apply Within.ite
    | with_reducible apply setField_within (Sub.up hM rfl)
    | with_reducible apply updMerge_within (Sub.up hM rfl)
    | with_reducible apply mergeSend_within (Sub.up hM rfl)
    | with_reducible apply mergeOut_within (Sub.up hM rfl)
    | with_reducible refine Within.fold (fun _ _ _ => ?_) ?_
    | with_reducible refine Within.fold1 (fun _ _ _ => ?_) ?_
    | with_reducible refine Within.fold2 (fun _ _ _ => ?_) ?_
    | (with_reducible apply Within.snd <;> [with_reducible assumption; skip])
    | (with_reducible apply Within.fst <;> [with_reducible assumption; skip])
    | (with_reducible apply Within.fst2 <;> [with_reducible assumption; skip])
    | split

end Sys2Proof.Machine
end

