-- ==== Sys2Proof/Laws/WithinPace.lean ====
section
/-! SUPPORT. What the operations and commands of Machine/Pace can do to the state (Laws/Within). -/

namespace Sys2Proof.Machine

theorem coreTick_within {M : Nat} {s0 : State} (hM : Sub 0x11 M) (s : State) (c : Nat) (hW : Within M s0 s) : Within M s0 (coreTick s c) := by
  unfold coreTick
  repeat' first
    | with_reducible assumption
    | (intro x
       first
         | (have hx : Within M s0 x := by
              unfold x
              repeat' first
                | with_reducible assumption
                | dsimp -zeta only
                | with_reducible apply Within.ite1
                | with_reducible apply Within.ite2
                | with_reducible apply Within.ite
                | with_reducible apply updCore_within (Sub.up hM rfl)
                | with_reducible apply bumpCore_within (Sub.up hM rfl)
                | (with_reducible apply Within.snd <;> [with_reducible assumption; skip])
                | (with_reducible apply Within.fst <;> [with_reducible assumption; skip])
                | (with_reducible apply Within.fst2 <;> [with_reducible assumption; skip])
                | split)
         | (have hx : Within M s0 x.1 := by
              unfold x
              repeat' first
                | with_reducible assumption
                | dsimp -zeta only
                | with_reducible apply Within.ite1
                | with_reducible apply Within.ite2
                | with_reducible apply Within.ite
                | with_reducible apply updCore_within (Sub.up hM rfl)
                | with_reducible apply bumpCore_within (Sub.up hM rfl)
                | (with_reducible apply Within.snd <;> [with_reducible assumption; skip])
                | (with_reducible apply Within.fst <;> [with_reducible assumption; skip])
                | (with_reducible apply Within.fst2 <;> [with_reducible assumption; skip])
                | split)
         | (have hx : Within M s0 x.2 := by
              unfold x
              repeat' first
                | with_reducible assumption
                | dsimp -zeta only
                | with_reducible apply Within.ite1
                | with_reducible apply Within.ite2
                | with_reducible apply Within.ite
                | with_reducible apply updCore_within (Sub.up hM rfl)
                | with_reducible apply bumpCore_within (Sub.up hM rfl)
                | (with_reducible apply Within.snd <;> [with_reducible assumption; skip])
                | (with_reducible apply Within.fst <;> [with_reducible assumption; skip])
                | (with_reducible apply Within.fst2 <;> [with_reducible assumption; skip])
                | split)
         | skip
       clear_value x)
    | lift_lets -underBinder
    | dsimp -zeta only
    | with_reducible apply Within.ite1
    | with_reducible apply Within.ite2
    | with_reducible apply Within.ite
    | with_reducible apply updCore_within (Sub.up hM rfl)
    | with_reducible apply bumpCore_within (Sub.up hM rfl)
    | (with_reducible apply Within.snd <;> [with_reducible assumption; skip])
    | (with_reducible apply Within.fst <;> [with_reducible assumption; skip])
    | (with_reducible apply Within.fst2 <;> [with_reducible assumption; skip])
    | split

theorem deviceTick_within {M : Nat} {s0 : State} (hM : Sub 0x80081 M) (s : State) (hW : Within M s0 s) : Within M s0 (deviceTick s) := by
  unfold deviceTick
  repeat' first
    | with_reducible assumption
    | (intro x
       first
         | (have hx : Within M s0 x := by
              unfold x
              repeat' first
                | with_reducible assumption
                | with_reducible apply Within.ite
                | with_reducible apply bump_within (Sub.up hM rfl)
                | with_reducible apply updLifeline_within (Sub.up hM rfl)
                | with_reducible refine each_within (fun _ _ _ => ?_) ?_
                | with_reducible refine Within.hst ?_ (Sub.has hM rfl))
         | skip
       clear_value x)
    | lift_lets -underBinder
    | with_reducible apply Within.ite
    | with_reducible apply bump_within (Sub.up hM rfl)
    | with_reducible apply updLifeline_within (Sub.up hM rfl)
    | with_reducible refine each_within (fun _ _ _ => ?_) ?_
    | with_reducible refine Within.hst ?_ (Sub.has hM rfl)

theorem execReferenceClockEdge_within {M : Nat} {s0 : State} (hM : Sub 0x1000080095 M) (spread : Int) (s : State) (hW : Within M s0 s) :
    ∃ u, execReferenceClockEdge spread s = .next u ∧ Within M s0 u := by
  unfold execReferenceClockEdge
  refine ⟨_, rfl, ?_⟩
  repeat' first
    | with_reducible assumption
    | (intro x
       first
         | (have hx : Within M s0 x := by
              unfold x
              repeat' first
                | with_reducible assumption
                | with_reducible apply coreTick_within (Sub.up hM rfl)
                | with_reducible apply deviceTick_within (Sub.up hM rfl)
                | with_reducible refine each_within (fun _ _ _ => ?_) ?_
                | with_reducible refine Within.clockBack ?_ (Sub.has hM rfl) (Sub.has hM rfl)
                | exact Nat.le_refl _)
         | skip
       clear_value x)
    | lift_lets -underBinder
    | with_reducible apply coreTick_within (Sub.up hM rfl)
    | with_reducible apply deviceTick_within (Sub.up hM rfl)
    | with_reducible refine each_within (fun _ _ _ => ?_) ?_
    | with_reducible refine Within.clockBack ?_ (Sub.has hM rfl) (Sub.has hM rfl)
    | exact Nat.le_refl _

theorem execLongStallEvent_within {M : Nat} {s0 : State} (hM : Sub 0x310020091 M) (who : Waiter) (s : State) (hW : Within M s0 s) :
    ∃ u, execLongStallEvent who s = .next u ∧ Within M s0 u := by
  unfold execLongStallEvent
  refine ⟨_, rfl, ?_⟩
  repeat' first
    | with_reducible assumption
    | (intro x
       first
         | (have hx : Within M s0 x := by
              unfold x
              repeat' first
                | with_reducible assumption
                | dsimp -zeta only
                | with_reducible apply Within.ite1
                | with_reducible apply Within.ite2
                | with_reducible apply Within.ite
                | with_reducible apply updCore_within (Sub.up hM rfl)
                | with_reducible apply updSlot_within (Sub.up hM rfl)
                | with_reducible apply raise_within (Sub.up hM rfl)
                | (with_reducible apply Within.snd <;> [with_reducible assumption; skip])
                | (with_reducible apply Within.fst <;> [with_reducible assumption; skip])
                | (with_reducible apply Within.fst2 <;> [with_reducible assumption; skip])
                | split
                | with_reducible refine Within.unsent ?_ (Sub.has hM rfl))
         | (have hx : Within M s0 x.1 := by
              unfold x
              repeat' first
                | with_reducible assumption
                | dsimp -zeta only
                | with_reducible apply Within.ite1
                | with_reducible apply Within.ite2
                | with_reducible apply Within.ite
                | with_reducible apply updCore_within (Sub.up hM rfl)
                | with_reducible apply updSlot_within (Sub.up hM rfl)
                | with_reducible apply raise_within (Sub.up hM rfl)
                | (with_reducible apply Within.snd <;> [with_reducible assumption; skip])
                | (with_reducible apply Within.fst <;> [with_reducible assumption; skip])
                | (with_reducible apply Within.fst2 <;> [with_reducible assumption; skip])
                | split
                | with_reducible refine Within.unsent ?_ (Sub.has hM rfl))
         | (have hx : Within M s0 x.2 := by
              unfold x
              repeat' first
                | with_reducible assumption
                | dsimp -zeta only
                | with_reducible apply Within.ite1
                | with_reducible apply Within.ite2
                | with_reducible apply Within.ite
                | with_reducible apply updCore_within (Sub.up hM rfl)
                | with_reducible apply updSlot_within (Sub.up hM rfl)
                | with_reducible apply raise_within (Sub.up hM rfl)
                | (with_reducible apply Within.snd <;> [with_reducible assumption; skip])
                | (with_reducible apply Within.fst <;> [with_reducible assumption; skip])
                | (with_reducible apply Within.fst2 <;> [with_reducible assumption; skip])
                | split
                | with_reducible refine Within.unsent ?_ (Sub.has hM rfl))
         | skip
       clear_value x)
    | lift_lets -underBinder
    | dsimp -zeta only
    | with_reducible apply Within.ite1
    | with_reducible apply Within.ite2
    | with_reducible apply Within.ite
    | with_reducible apply updCore_within (Sub.up hM rfl)
    | with_reducible apply updSlot_within (Sub.up hM rfl)
    | with_reducible apply raise_within (Sub.up hM rfl)
    | (with_reducible apply Within.snd <;> [with_reducible assumption; skip])
    | (with_reducible apply Within.fst <;> [with_reducible assumption; skip])
    | (with_reducible apply Within.fst2 <;> [with_reducible assumption; skip])
    | split
    | with_reducible refine Within.unsent ?_ (Sub.has hM rfl)

theorem floorRule_within {M : Nat} {s0 : State} (hM : Sub 0x10 M) {s u : State} {c : Nat} (e : floorRule s c = some u) (h : Within M s0 s) :
    Within M s0 u := by
  unfold floorRule at e
  split at e
  · cases e; exact updCore_within (Sub.up hM rfl) s c _ h
  · cases e

theorem lowerStep_within {M : Nat} {s0 : State} (hM : Sub 0x10 M) (s : State) (c : Nat) (hW : Within M s0 s) : Within M s0 (lowerStep s c) := by
  unfold lowerStep
  repeat' first
    | with_reducible assumption
    | with_reducible apply updCore_within (Sub.up hM rfl)

theorem raiseStep_within {M : Nat} {s0 : State} (hM : Sub 0x10 M) (s : State) (c : Nat) (hW : Within M s0 s) : Within M s0 (raiseStep s c) := by
  unfold raiseStep
  repeat' first
    | with_reducible assumption
    | with_reducible apply updCore_within (Sub.up hM rfl)

theorem execFloorCheck_within {M : Nat} {s0 : State} (hM : Sub 0x10 M) (c : CoreId) (s : State) (hW : Within M s0 s) :
    ∃ t, execFloorCheck c s = .next t ∧ Within M s0 t := by
  refine ⟨_, rfl, ?_⟩
  cases e : floorRule s c with
  | none => exact hW
  | some u => exact floorRule_within hM e hW

theorem governor_within {M : Nat} {s0 : State} (hM : Sub 0x10 M) (s : State) (c : Nat) (hW : Within M s0 s) : Within M s0 (governor s c) := by
  unfold governor
  repeat' first
    | with_reducible assumption
    | (intro x
       first
         | (have hx : Within M s0 x := by
              unfold x
              repeat' first
                | with_reducible assumption
                | with_reducible apply Within.ite
                | with_reducible apply updCore_within (Sub.up hM rfl)
                | with_reducible apply lowerStep_within (Sub.up hM rfl)
                | with_reducible apply raiseStep_within (Sub.up hM rfl)
                | with_reducible refine floorRule_within (Sub.up hM rfl) ‹floorRule _ _ = some _› ?_
                | (with_reducible apply Within.snd <;> [with_reducible assumption; skip])
                | (with_reducible apply Within.fst <;> [with_reducible assumption; skip])
                | (with_reducible apply Within.fst2 <;> [with_reducible assumption; skip])
                | split)
         | skip
       clear_value x)
    | lift_lets -underBinder
    | with_reducible apply Within.ite
    | with_reducible apply updCore_within (Sub.up hM rfl)
    | with_reducible apply lowerStep_within (Sub.up hM rfl)
    | with_reducible apply raiseStep_within (Sub.up hM rfl)
    | with_reducible refine floorRule_within (Sub.up hM rfl) ‹floorRule _ _ = some _› ?_
    | (with_reducible apply Within.snd <;> [with_reducible assumption; skip])
    | (with_reducible apply Within.fst <;> [with_reducible assumption; skip])
    | (with_reducible apply Within.fst2 <;> [with_reducible assumption; skip])
    | split

theorem execGovernorWindowEnd_within {M : Nat} {s0 : State} (hM : Sub 0x10 M) (c : CoreId) (s : State) (hW : Within M s0 s) :
    ∃ u, execGovernorWindowEnd c s = .next u ∧ Within M s0 u := by
  unfold execGovernorWindowEnd
  refine ⟨_, rfl, ?_⟩
  repeat' first
    | with_reducible assumption
    | (intro x
       first
         | (have hx : Within M s0 x := by
              unfold x
              repeat' first
                | with_reducible assumption
                | dsimp -zeta only
                | with_reducible apply Within.ite1
                | with_reducible apply Within.ite2
                | with_reducible apply Within.ite
                | with_reducible apply updCore_within (Sub.up hM rfl)
                | with_reducible apply governor_within (Sub.up hM rfl)
                | (with_reducible apply Within.snd <;> [with_reducible assumption; skip])
                | (with_reducible apply Within.fst <;> [with_reducible assumption; skip])
                | (with_reducible apply Within.fst2 <;> [with_reducible assumption; skip])
                | split)
         | (have hx : Within M s0 x.1 := by
              unfold x
              repeat' first
                | with_reducible assumption
                | dsimp -zeta only
                | with_reducible apply Within.ite1
                | with_reducible apply Within.ite2
                | with_reducible apply Within.ite
                | with_reducible apply updCore_within (Sub.up hM rfl)
                | with_reducible apply governor_within (Sub.up hM rfl)
                | (with_reducible apply Within.snd <;> [with_reducible assumption; skip])
                | (with_reducible apply Within.fst <;> [with_reducible assumption; skip])
                | (with_reducible apply Within.fst2 <;> [with_reducible assumption; skip])
                | split)
         | (have hx : Within M s0 x.2 := by
              unfold x
              repeat' first
                | with_reducible assumption
                | dsimp -zeta only
                | with_reducible apply Within.ite1
                | with_reducible apply Within.ite2
                | with_reducible apply Within.ite
                | with_reducible apply updCore_within (Sub.up hM rfl)
                | with_reducible apply governor_within (Sub.up hM rfl)
                | (with_reducible apply Within.snd <;> [with_reducible assumption; skip])
                | (with_reducible apply Within.fst <;> [with_reducible assumption; skip])
                | (with_reducible apply Within.fst2 <;> [with_reducible assumption; skip])
                | split)
         | skip
       clear_value x)
    | lift_lets -underBinder
    | dsimp -zeta only
    | with_reducible apply Within.ite1
    | with_reducible apply Within.ite2
    | with_reducible apply Within.ite
    | with_reducible apply updCore_within (Sub.up hM rfl)
    | with_reducible apply governor_within (Sub.up hM rfl)
    | (with_reducible apply Within.snd <;> [with_reducible assumption; skip])
    | (with_reducible apply Within.fst <;> [with_reducible assumption; skip])
    | (with_reducible apply Within.fst2 <;> [with_reducible assumption; skip])
    | split

theorem loadTime_within {M : Nat} {s0 : State} (hM : Sub 0x4 M) (s : State) (v : Nat) (hW : Within M s0 s) : Within M s0 (loadTime s v) := by
  unfold loadTime
  split
  · exact hW
  · split
    · exact .clock hW (Sub.has hM rfl) ‹_›
    · exact .clock hW (Sub.has hM rfl) (Nat.le_refl _)

theorem slewTime_within {M : Nat} {s0 : State} (hM : Sub 0x4 M) (s : State) (z : Int) (hW : Within M s0 s) : Within M s0 (slewTime s z) := by
  unfold slewTime
  repeat' first
    | with_reducible assumption
    | with_reducible refine Within.clock ?_ (Sub.has hM rfl) ?_
    | exact Nat.le_refl _

theorem execReftimeLoad_within {M : Nat} {s0 : State} (hM : Sub 0x4 M) (value : Word) (s : State) (hW : Within M s0 s) :
    ∃ u, execReftimeLoad value s = .next u ∧ Within M s0 u := by
  unfold execReftimeLoad
  refine ⟨_, rfl, ?_⟩
  repeat' first
    | with_reducible assumption
    | with_reducible apply loadTime_within (Sub.up hM rfl)

theorem execReftimeSlew_within {M : Nat} {s0 : State} (hM : Sub 0x4 M) (offset : Word) (s : State) (hW : Within M s0 s) :
    ∃ u, execReftimeSlew offset s = .next u ∧ Within M s0 u := by
  unfold execReftimeSlew
  refine ⟨_, rfl, ?_⟩
  repeat' first
    | with_reducible assumption
    | with_reducible apply slewTime_within (Sub.up hM rfl)

theorem execRefclkLost_within {M : Nat} {s0 : State} (hM : Sub 0x310000085 M) (s : State) (hW : Within M s0 s) :
    ∃ u, execRefclkLost s = .next u ∧ Within M s0 u := by
  unfold execRefclkLost
  refine ⟨_, rfl, ?_⟩
  repeat' first
    | with_reducible assumption
    | with_reducible apply Within.ite
    | with_reducible apply raise_within (Sub.up hM rfl)
    | with_reducible refine Within.clock ?_ (Sub.has hM rfl) ?_
    | exact Nat.le_refl _

theorem execRefclkReturn_within {M : Nat} {s0 : State} (hM : Sub 0x4 M) (difference : Word) (s : State) (hW : Within M s0 s) :
    ∃ u, execRefclkReturn difference s = .next u ∧ Within M s0 u := by
  unfold execRefclkReturn
  refine ⟨_, rfl, ?_⟩
  repeat' first
    | with_reducible assumption
    | with_reducible apply Within.ite
    | with_reducible refine Within.clock ?_ (Sub.has hM rfl) ?_
    | exact Nat.le_refl _

theorem execReftimeDistribution_within {M : Nat} {s0 : State} (hM : Sub 0x100000005 M) (die : DieId) (f : Frame) (value : Word) (s : State) (hW : Within M s0 s) :
    ∃ u, execReftimeDistribution die f value s = .next u ∧ Within M s0 u := by
  unfold execReftimeDistribution
  refine ⟨_, rfl, ?_⟩
  repeat' first
    | with_reducible assumption
    | with_reducible refine onChain_within (Sub.up hM rfl) (fun _ _ => ?_) ?_
    | with_reducible refine Within.clock ?_ (Sub.has hM rfl) ?_
    | exact Nat.le_refl _

end Sys2Proof.Machine
end

