-- ==== Sys2Proof/Laws/WithinEpochs.lean ====
section
/-! SUPPORT. What the operations and commands of Machine/Epochs can do to the state (Laws/Within). -/

namespace Sys2Proof.Machine

theorem armEpoch_within {M : Nat} {s0 : State} (hM : Sub 0x10000000 M) (s : State) (t : Nat) (hW : Within M s0 s) : Within M s0 (armEpoch s t).2 := by
  unfold armEpoch
  repeat' first
    | with_reducible assumption
    | (intro x
       first
         | (have hx : Within M s0 x := by
              unfold x
              repeat' first
                | with_reducible assumption
                | dsimp -zeta only
                | with_reducible apply Within.ite2
                | with_reducible apply Within.ite
                | with_reducible apply setObj_within (Sub.up hM rfl)
                | split
                | with_reducible refine Within.dict ?_ (Sub.has hM rfl))
         | (have hx : Within M s0 x.1 := by
              unfold x
              repeat' first
                | with_reducible assumption
                | dsimp -zeta only
                | with_reducible apply Within.ite2
                | with_reducible apply Within.ite
                | with_reducible apply setObj_within (Sub.up hM rfl)
                | split
                | with_reducible refine Within.dict ?_ (Sub.has hM rfl))
         | (have hx : Within M s0 x.2 := by
              unfold x
              repeat' first
                | with_reducible assumption
                | dsimp -zeta only
                | with_reducible apply Within.ite2
                | with_reducible apply Within.ite
                | with_reducible apply setObj_within (Sub.up hM rfl)
                | split
                | with_reducible refine Within.dict ?_ (Sub.has hM rfl))
         | skip
       clear_value x)
    | lift_lets -underBinder
    | dsimp -zeta only
    | with_reducible apply Within.ite2
    | with_reducible apply Within.ite
    | with_reducible apply setObj_within (Sub.up hM rfl)
    | split
    | with_reducible refine Within.dict ?_ (Sub.has hM rfl)

theorem disarmEpoch_within {M : Nat} {s0 : State} (hM : Sub 0x10000000 M) (s : State) (true_ : Bool) (hW : Within M s0 s) : Within M s0 (disarmEpoch s true_).2 := by
  unfold disarmEpoch
  repeat' first
    | with_reducible assumption
    | dsimp -zeta only
    | with_reducible apply Within.ite2
    | with_reducible apply Within.ite
    | split
    | with_reducible refine Within.dict ?_ (Sub.has hM rfl)

theorem execEpochArm_within {M : Nat} {s0 : State} (hM : Sub 0x10000000 M) (time : Word) (s : State) (hW : Within M s0 s) :
    ∃ u, execEpochArm time s = .next u ∧ Within M s0 u := by
  unfold execEpochArm
  refine ⟨_, rfl, ?_⟩
  repeat' first
    | with_reducible assumption
    | with_reducible apply armEpoch_within (Sub.up hM rfl)
    | (with_reducible apply Within.snd <;> [with_reducible assumption; skip])
    | (with_reducible apply Within.fst <;> [with_reducible assumption; skip])
    | (with_reducible apply Within.fst2 <;> [with_reducible assumption; skip])

theorem execEpochDisarm_within {M : Nat} {s0 : State} (hM : Sub 0x10000000 M) (s : State) (hW : Within M s0 s) :
    ∃ u, execEpochDisarm s = .next u ∧ Within M s0 u := by
  unfold execEpochDisarm
  refine ⟨_, rfl, ?_⟩
  repeat' first
    | with_reducible assumption
    | with_reducible apply disarmEpoch_within (Sub.up hM rfl)
    | (with_reducible apply Within.snd <;> [with_reducible assumption; skip])
    | (with_reducible apply Within.fst <;> [with_reducible assumption; skip])
    | (with_reducible apply Within.fst2 <;> [with_reducible assumption; skip])

theorem refuseEpoch_within {M : Nat} {s0 : State} (hM : Sub 0x310000081 M) (s : State) (key : Nat) (hW : Within M s0 s) : Within M s0 (refuseEpoch s key) := by
  unfold refuseEpoch
  repeat' first
    | with_reducible assumption
    | with_reducible apply mgtEvent_within (Sub.up hM rfl)
    | with_reducible refine Within.fold (fun _ _ _ => ?_) ?_
    | with_reducible refine Within.fold1 (fun _ _ _ => ?_) ?_
    | with_reducible refine Within.fold2 (fun _ _ _ => ?_) ?_
    | with_reducible refine Within.dict ?_ (Sub.has hM rfl)

theorem toEveryDie_within {M : Nat} {s0 : State} (hM : Sub 0x100000000 M) (s : State) (m : Msg) (hW : Within M s0 s) : Within M s0 (toEveryDie s m) := by
  unfold toEveryDie
  repeat' first
    | with_reducible assumption
    | with_reducible apply sendChain_within (Sub.up hM rfl)
    | with_reducible refine each_within (fun _ _ _ => ?_) ?_

theorem execEpochFreeze_within {M : Nat} {s0 : State} (hM : Sub 0x310000081 M) (s : State) (hW : Within M s0 s) :
    ∃ u, execEpochFreeze s = .next u ∧ Within M s0 u := by
  unfold execEpochFreeze
  refine ⟨_, rfl, ?_⟩
  repeat' first
    | with_reducible assumption
    | (intro x
       first
         | (have hx : Within M s0 x := by
              unfold x
              repeat' first
                | with_reducible assumption
                | with_reducible apply Within.ite
                | with_reducible apply refuseEpoch_within (Sub.up hM rfl)
                | with_reducible apply toEveryDie_within (Sub.up hM rfl)
                | (with_reducible apply Within.snd <;> [with_reducible assumption; skip])
                | (with_reducible apply Within.fst <;> [with_reducible assumption; skip])
                | (with_reducible apply Within.fst2 <;> [with_reducible assumption; skip])
                | split
                | with_reducible refine Within.dict ?_ (Sub.has hM rfl))
         | skip
       clear_value x)
    | lift_lets -underBinder
    | with_reducible apply Within.ite
    | with_reducible apply refuseEpoch_within (Sub.up hM rfl)
    | with_reducible apply toEveryDie_within (Sub.up hM rfl)
    | (with_reducible apply Within.snd <;> [with_reducible assumption; skip])
    | (with_reducible apply Within.fst <;> [with_reducible assumption; skip])
    | (with_reducible apply Within.fst2 <;> [with_reducible assumption; skip])
    | split
    | with_reducible refine Within.dict ?_ (Sub.has hM rfl)

theorem portEpoch_within {M : Nat} {s0 : State} (hM : Sub 0x311000881 M) (s : State) (p : Nat) (hW : Within M s0 s) : Within M s0 (portEpoch s p) := by
  unfold portEpoch
  repeat' first
    | with_reducible assumption
    | (intro x
       first
         | (have hx : Within M s0 x := by
              unfold x
              repeat' first
                | with_reducible assumption
                | with_reducible apply Within.ite
                | with_reducible apply updPort_within (Sub.up hM rfl)
                | with_reducible apply sendDigest_within (Sub.up hM rfl)
                | with_reducible apply judgePort_within (Sub.up hM rfl))
         | skip
       clear_value x)
    | lift_lets -underBinder
    | with_reducible apply Within.ite
    | with_reducible apply updPort_within (Sub.up hM rfl)
    | with_reducible apply sendDigest_within (Sub.up hM rfl)
    | with_reducible apply judgePort_within (Sub.up hM rfl)

theorem execEpochActivation_within {M : Nat} {s0 : State} (hM : Sub 0x311000881 M) (s : State) (hW : Within M s0 s) :
    ∃ u, execEpochActivation s = .next u ∧ Within M s0 u := by
  unfold execEpochActivation
  refine ⟨_, rfl, ?_⟩
  repeat' first
    | with_reducible assumption
    | (intro x
       first
         | (have hx : Within M s0 x := by
              unfold x
              repeat' first
                | with_reducible assumption
                | with_reducible apply Within.ite
                | with_reducible apply mgtEvent_within (Sub.up hM rfl)
                | with_reducible apply sendHeartbeat_within (Sub.up hM rfl)
                | with_reducible apply toEveryDie_within (Sub.up hM rfl)
                | with_reducible apply portEpoch_within (Sub.up hM rfl)
                | with_reducible refine each_within (fun _ _ _ => ?_) ?_
                | with_reducible refine Within.fold (fun _ _ _ => ?_) ?_
                | with_reducible refine Within.fold1 (fun _ _ _ => ?_) ?_
                | with_reducible refine Within.fold2 (fun _ _ _ => ?_) ?_
                | with_reducible refine Within.dict ?_ (Sub.has hM rfl))
         | skip
       clear_value x)
    | lift_lets -underBinder
    | with_reducible apply Within.ite
    | with_reducible apply mgtEvent_within (Sub.up hM rfl)
    | with_reducible apply sendHeartbeat_within (Sub.up hM rfl)
    | with_reducible apply toEveryDie_within (Sub.up hM rfl)
    | with_reducible apply portEpoch_within (Sub.up hM rfl)
    | with_reducible refine each_within (fun _ _ _ => ?_) ?_
    | with_reducible refine Within.fold (fun _ _ _ => ?_) ?_
    | with_reducible refine Within.fold1 (fun _ _ _ => ?_) ?_
    | with_reducible refine Within.fold2 (fun _ _ _ => ?_) ?_
    | with_reducible refine Within.dict ?_ (Sub.has hM rfl)

theorem setSegment_within {M : Nat} {s0 : State} (hM : Sub 0x310000081 M) (s : State) (dev : Nat) (bad : Bool) (hW : Within M s0 s) : Within M s0 (setSegment s dev bad) := by
  unfold setSegment
  repeat' first
    | with_reducible assumption
    | with_reducible apply Within.ite
    | with_reducible apply mgtEvent_within (Sub.up hM rfl)
    | with_reducible refine Within.dict ?_ (Sub.has hM rfl)

theorem judgeSegment_within {M : Nat} {s0 : State} (hM : Sub 0x310000081 M) (s : State) (dev epoch : Nat) (digest : List Byte) (hW : Within M s0 s) : Within M s0 (judgeSegment s dev epoch digest) := by
  unfold judgeSegment
  repeat' first
    | with_reducible assumption
    | (intro x
       first
         | (have hx : Within M s0 x := by
              unfold x
              repeat' first
                | with_reducible assumption
                | with_reducible apply Within.ite
                | with_reducible apply setSegment_within (Sub.up hM rfl)
                | with_reducible refine Within.dict ?_ (Sub.has hM rfl))
         | skip
       clear_value x)
    | lift_lets -underBinder
    | with_reducible apply Within.ite
    | with_reducible apply setSegment_within (Sub.up hM rfl)
    | with_reducible refine Within.dict ?_ (Sub.has hM rfl)

theorem followMaster_within {M : Nat} {s0 : State} (hM : Sub 0x10000004 M) (s : State) (t : Nat) (hW : Within M s0 s) : Within M s0 (followMaster s t) := by
  unfold followMaster
  repeat' first
    | with_reducible assumption
    | (intro x
       first
         | (have hx : Within M s0 x := by
              unfold x
              repeat' first
                | with_reducible assumption
                | with_reducible apply Within.ite
                | with_reducible apply loadTime_within (Sub.up hM rfl)
                | with_reducible apply slewTime_within (Sub.up hM rfl)
                | with_reducible refine Within.dict ?_ (Sub.has hM rfl))
         | skip
       clear_value x)
    | lift_lets -underBinder
    | with_reducible apply Within.ite
    | with_reducible apply loadTime_within (Sub.up hM rfl)
    | with_reducible apply slewTime_within (Sub.up hM rfl)
    | with_reducible refine Within.dict ?_ (Sub.has hM rfl)

theorem execHeartbeatReceived_within {M : Nat} {s0 : State} (hM : Sub 0x310000085 M) (v2 master : Bool) (device : BitVec 12) (epoch : BitVec 32) (reftime : Word) (digest : List Byte) (s : State) (hW : Within M s0 s) :
    ∃ u, execHeartbeatReceived v2 master device epoch reftime digest s = .next u ∧ Within M s0 u := by
  unfold execHeartbeatReceived
  refine ⟨_, rfl, ?_⟩
  repeat' first
    | with_reducible assumption
    | (intro x
       first
         | (have hx : Within M s0 x := by
              unfold x
              repeat' first
                | with_reducible assumption
                | with_reducible apply Within.ite
                | with_reducible apply judgeSegment_within (Sub.up hM rfl)
                | with_reducible apply followMaster_within (Sub.up hM rfl)
                | with_reducible refine Within.dict ?_ (Sub.has hM rfl))
         | skip
       clear_value x)
    | lift_lets -underBinder
    | with_reducible apply Within.ite
    | with_reducible apply judgeSegment_within (Sub.up hM rfl)
    | with_reducible apply followMaster_within (Sub.up hM rfl)
    | with_reducible refine Within.dict ?_ (Sub.has hM rfl)

theorem execSegmentDivergenceTimeout_within {M : Nat} {s0 : State} (hM : Sub 0x310000081 M) (device : BitVec 12) (s : State) (hW : Within M s0 s) :
    ∃ u, execSegmentDivergenceTimeout device s = .next u ∧ Within M s0 u := by
  unfold execSegmentDivergenceTimeout
  refine ⟨_, rfl, ?_⟩
  repeat' first
    | with_reducible assumption
    | with_reducible apply Within.ite
    | with_reducible apply setSegment_within (Sub.up hM rfl)

theorem execHeartbeat_within {M : Nat} {s0 : State} (hM : Sub 0x210000000 M) (s : State) (hW : Within M s0 s) :
    ∃ u, execHeartbeat s = .next u ∧ Within M s0 u := by
  unfold execHeartbeat
  refine ⟨_, rfl, ?_⟩
  repeat' first
    | with_reducible assumption
    | with_reducible apply sendHeartbeat_within (Sub.up hM rfl)

end Sys2Proof.Machine
end

