-- ==== Sys2Proof/Laws/WithinRequests.lean ====
section
/-! SUPPORT. What the operations and commands of Machine/Requests can do to the state (Laws/Within). -/

namespace Sys2Proof.Machine

theorem readObj_within {M : Nat} {s0 : State} (hM : Sub 0x480000000 M) (s : State) (o : Obj) (staged : Bool) (hW : Within M s0 s) : Within M s0 (readObj s o staged).2 := by
  unfold readObj
  repeat' first
    | with_reducible assumption
    | dsimp -zeta only
    | with_reducible apply Within.ite2
    | with_reducible apply Within.ite
    | with_reducible apply newNonce_within (Sub.up hM rfl)
    | (with_reducible apply Within.snd <;> [with_reducible assumption; skip])
    | (with_reducible apply Within.fst <;> [with_reducible assumption; skip])
    | (with_reducible apply Within.fst2 <;> [with_reducible assumption; skip])
    | split

theorem writeEffect_within {M : Nat} {s0 : State} (hM : Sub 0x3900808dd M) (s : State) (key : Nat) (v : List Byte) (hW : Within M s0 s) : Within M s0 (writeEffect s key v).2 := by
  unfold writeEffect
  repeat' first
    | with_reducible assumption
    | (intro x
       first
         | (have hx : Within M s0 x := by
              unfold x
              repeat' first
                | with_reducible assumption
                | dsimp -zeta only
                | with_reducible apply Within.ite2
                | with_reducible apply Within.ite
                | with_reducible apply setObj_within (Sub.up hM rfl)
                | with_reducible apply fenceRequest_within (Sub.up hM rfl)
                | with_reducible apply slewTime_within (Sub.up hM rfl)
                | with_reducible apply commitFw_within (Sub.up hM rfl)
                | with_reducible apply activateBank_within (Sub.up hM rfl)
                | with_reducible apply selectTmux_within (Sub.up hM rfl)
                | with_reducible apply unlockOctets_within (Sub.up hM rfl)
                | with_reducible apply endUnlock_within (Sub.up hM rfl)
                | with_reducible apply armEpoch_within (Sub.up hM rfl)
                | with_reducible apply disarmEpoch_within (Sub.up hM rfl)
                | (with_reducible apply Within.snd <;> [with_reducible assumption; skip])
                | (with_reducible apply Within.fst <;> [with_reducible assumption; skip])
                | (with_reducible apply Within.fst2 <;> [with_reducible assumption; skip])
                | split)
         | (have hx : Within M s0 x.1 := by
              unfold x
              repeat' first
                | with_reducible assumption
                | dsimp -zeta only
                | with_reducible apply Within.ite2
                | with_reducible apply Within.ite
                | with_reducible apply setObj_within (Sub.up hM rfl)
                | with_reducible apply fenceRequest_within (Sub.up hM rfl)
                | with_reducible apply slewTime_within (Sub.up hM rfl)
                | with_reducible apply commitFw_within (Sub.up hM rfl)
                | with_reducible apply activateBank_within (Sub.up hM rfl)
                | with_reducible apply selectTmux_within (Sub.up hM rfl)
                | with_reducible apply unlockOctets_within (Sub.up hM rfl)
                | with_reducible apply endUnlock_within (Sub.up hM rfl)
                | with_reducible apply armEpoch_within (Sub.up hM rfl)
                | with_reducible apply disarmEpoch_within (Sub.up hM rfl)
                | (with_reducible apply Within.snd <;> [with_reducible assumption; skip])
                | (with_reducible apply Within.fst <;> [with_reducible assumption; skip])
                | (with_reducible apply Within.fst2 <;> [with_reducible assumption; skip])
                | split)
         | (have hx : Within M s0 x.2 := by
              unfold x
              repeat' first
                | with_reducible assumption
                | dsimp -zeta only
                | with_reducible apply Within.ite2
                | with_reducible apply Within.ite
                | with_reducible apply setObj_within (Sub.up hM rfl)
                | with_reducible apply fenceRequest_within (Sub.up hM rfl)
                | with_reducible apply slewTime_within (Sub.up hM rfl)
                | with_reducible apply commitFw_within (Sub.up hM rfl)
                | with_reducible apply activateBank_within (Sub.up hM rfl)
                | with_reducible apply selectTmux_within (Sub.up hM rfl)
                | with_reducible apply unlockOctets_within (Sub.up hM rfl)
                | with_reducible apply endUnlock_within (Sub.up hM rfl)
                | with_reducible apply armEpoch_within (Sub.up hM rfl)
                | with_reducible apply disarmEpoch_within (Sub.up hM rfl)
                | (with_reducible apply Within.snd <;> [with_reducible assumption; skip])
                | (with_reducible apply Within.fst <;> [with_reducible assumption; skip])
                | (with_reducible apply Within.fst2 <;> [with_reducible assumption; skip])
                | split)
         | skip
       clear_value x)
    | lift_lets -underBinder
    | dsimp -zeta only
    | with_reducible apply Within.ite2
    | with_reducible apply Within.ite
    | with_reducible apply setObj_within (Sub.up hM rfl)
    | with_reducible apply fenceRequest_within (Sub.up hM rfl)
    | with_reducible apply slewTime_within (Sub.up hM rfl)
    | with_reducible apply commitFw_within (Sub.up hM rfl)
    | with_reducible apply activateBank_within (Sub.up hM rfl)
    | with_reducible apply selectTmux_within (Sub.up hM rfl)
    | with_reducible apply unlockOctets_within (Sub.up hM rfl)
    | with_reducible apply endUnlock_within (Sub.up hM rfl)
    | with_reducible apply armEpoch_within (Sub.up hM rfl)
    | with_reducible apply disarmEpoch_within (Sub.up hM rfl)
    | (with_reducible apply Within.snd <;> [with_reducible assumption; skip])
    | (with_reducible apply Within.fst <;> [with_reducible assumption; skip])
    | (with_reducible apply Within.fst2 <;> [with_reducible assumption; skip])
    | split

theorem writeObj_within {M : Nat} {s0 : State} (hM : Sub 0x3900808dd M) (s : State) (o : Obj) (v : List Byte) (hW : Within M s0 s) : Within M s0 (writeObj s o v).2 := by
  unfold writeObj
  repeat' first
    | with_reducible assumption
    | dsimp -zeta only
    | with_reducible apply Within.ite2
    | with_reducible apply Within.ite
    | with_reducible apply writeEffect_within (Sub.up hM rfl)
    | (with_reducible apply Within.snd <;> [with_reducible assumption; skip])
    | (with_reducible apply Within.fst <;> [with_reducible assumption; skip])
    | (with_reducible apply Within.fst2 <;> [with_reducible assumption; skip])
    | split
    | with_reducible refine Within.dict ?_ (Sub.has hM rfl)

theorem dropPartial_within {M : Nat} {s0 : State} (hM : Sub 0x90000000 M) (s : State) (path : Nat) (hW : Within M s0 s) : Within M s0 (dropPartial s path) := by
  unfold dropPartial
  repeat' first
    | with_reducible assumption
    | with_reducible apply Within.ite
    | (with_reducible apply Within.snd <;> [with_reducible assumption; skip])
    | (with_reducible apply Within.fst <;> [with_reducible assumption; skip])
    | (with_reducible apply Within.fst2 <;> [with_reducible assumption; skip])
    | split
    | with_reducible refine Within.setDictSec ?_ (Sub.has hM rfl) (Sub.has hM rfl)
    | with_reducible refine Within.dict ?_ (Sub.has hM rfl)
    | with_reducible refine Within.sec ?_ (Sub.has hM rfl)

theorem writeSegment_within {M : Nat} {s0 : State} (hM : Sub 0x3900808dd M) (s : State) (path : Nat) (o : Obj) (off : Nat) (v : List Byte) (hW : Within M s0 s) : Within M s0 (writeSegment s path o off v).2 := by
  unfold writeSegment
  repeat' first
    | with_reducible assumption
    | (intro x
       first
         | (have hx : Within M s0 x := by
              unfold x
              repeat' first
                | with_reducible assumption
                | dsimp -zeta only
                | with_reducible apply Within.ite2
                | with_reducible apply Within.ite
                | with_reducible apply writeObj_within (Sub.up hM rfl)
                | with_reducible apply dropPartial_within (Sub.up hM rfl)
                | (with_reducible apply Within.snd <;> [with_reducible assumption; skip])
                | (with_reducible apply Within.fst <;> [with_reducible assumption; skip])
                | (with_reducible apply Within.fst2 <;> [with_reducible assumption; skip])
                | split
                | with_reducible refine Within.dict ?_ (Sub.has hM rfl))
         | (have hx : Within M s0 x.1 := by
              unfold x
              repeat' first
                | with_reducible assumption
                | dsimp -zeta only
                | with_reducible apply Within.ite2
                | with_reducible apply Within.ite
                | with_reducible apply writeObj_within (Sub.up hM rfl)
                | with_reducible apply dropPartial_within (Sub.up hM rfl)
                | (with_reducible apply Within.snd <;> [with_reducible assumption; skip])
                | (with_reducible apply Within.fst <;> [with_reducible assumption; skip])
                | (with_reducible apply Within.fst2 <;> [with_reducible assumption; skip])
                | split
                | with_reducible refine Within.dict ?_ (Sub.has hM rfl))
         | (have hx : Within M s0 x.2 := by
              unfold x
              repeat' first
                | with_reducible assumption
                | dsimp -zeta only
                | with_reducible apply Within.ite2
                | with_reducible apply Within.ite
                | with_reducible apply writeObj_within (Sub.up hM rfl)
                | with_reducible apply dropPartial_within (Sub.up hM rfl)
                | (with_reducible apply Within.snd <;> [with_reducible assumption; skip])
                | (with_reducible apply Within.fst <;> [with_reducible assumption; skip])
                | (with_reducible apply Within.fst2 <;> [with_reducible assumption; skip])
                | split
                | with_reducible refine Within.dict ?_ (Sub.has hM rfl))
         | skip
       clear_value x)
    | lift_lets -underBinder
    | dsimp -zeta only
    | with_reducible apply Within.ite2
    | with_reducible apply Within.ite
    | with_reducible apply writeObj_within (Sub.up hM rfl)
    | with_reducible apply dropPartial_within (Sub.up hM rfl)
    | (with_reducible apply Within.snd <;> [with_reducible assumption; skip])
    | (with_reducible apply Within.fst <;> [with_reducible assumption; skip])
    | (with_reducible apply Within.fst2 <;> [with_reducible assumption; skip])
    | split
    | with_reducible refine Within.dict ?_ (Sub.has hM rfl)

theorem writeImage_within {M : Nat} {s0 : State} (hM : Sub 0x90000000 M) (s : State) (path : Nat) (o : Obj) (off : Nat) (v : List Byte) (images : List ImageCheck) (hW : Within M s0 s) : Within M s0 (writeImage s path o off v images).2 := by
  unfold writeImage
  repeat' first
    | with_reducible assumption
    | dsimp -zeta only
    | with_reducible apply Within.ite2
    | with_reducible apply transferBytes_within (Sub.up hM rfl)
    | (with_reducible apply Within.snd <;> [with_reducible assumption; skip])
    | (with_reducible apply Within.fst <;> [with_reducible assumption; skip])
    | (with_reducible apply Within.fst2 <;> [with_reducible assumption; skip])
    | with_reducible refine Within.dict ?_ (Sub.has hM rfl)

theorem onObject_within {M : Nat} {s0 : State} (hM : Sub 0x7900808dd M) (s : State) (path : Nat) (r : DictReq) (o : Obj) (hW : Within M s0 s) : Within M s0 (onObject s path r o).2 := by
  unfold onObject
  repeat' first
    | with_reducible assumption
    | (intro x
       first
         | (have hx : Within M s0 x := by
              unfold x
              repeat' first
                | with_reducible assumption
                | dsimp -zeta only
                | with_reducible apply Within.ite2
                | with_reducible apply Within.ite
                | with_reducible apply readObj_within (Sub.up hM rfl)
                | with_reducible apply writeObj_within (Sub.up hM rfl)
                | with_reducible apply writeSegment_within (Sub.up hM rfl)
                | with_reducible apply writeImage_within (Sub.up hM rfl)
                | (with_reducible apply Within.snd <;> [with_reducible assumption; skip])
                | (with_reducible apply Within.fst <;> [with_reducible assumption; skip])
                | (with_reducible apply Within.fst2 <;> [with_reducible assumption; skip])
                | split)
         | (have hx : Within M s0 x.1 := by
              unfold x
              repeat' first
                | with_reducible assumption
                | dsimp -zeta only
                | with_reducible apply Within.ite2
                | with_reducible apply Within.ite
                | with_reducible apply readObj_within (Sub.up hM rfl)
                | with_reducible apply writeObj_within (Sub.up hM rfl)
                | with_reducible apply writeSegment_within (Sub.up hM rfl)
                | with_reducible apply writeImage_within (Sub.up hM rfl)
                | (with_reducible apply Within.snd <;> [with_reducible assumption; skip])
                | (with_reducible apply Within.fst <;> [with_reducible assumption; skip])
                | (with_reducible apply Within.fst2 <;> [with_reducible assumption; skip])
                | split)
         | (have hx : Within M s0 x.2 := by
              unfold x
              repeat' first
                | with_reducible assumption
                | dsimp -zeta only
                | with_reducible apply Within.ite2
                | with_reducible apply Within.ite
                | with_reducible apply readObj_within (Sub.up hM rfl)
                | with_reducible apply writeObj_within (Sub.up hM rfl)
                | with_reducible apply writeSegment_within (Sub.up hM rfl)
                | with_reducible apply writeImage_within (Sub.up hM rfl)
                | (with_reducible apply Within.snd <;> [with_reducible assumption; skip])
                | (with_reducible apply Within.fst <;> [with_reducible assumption; skip])
                | (with_reducible apply Within.fst2 <;> [with_reducible assumption; skip])
                | split)
         | skip
       clear_value x)
    | lift_lets -underBinder
    | dsimp -zeta only
    | with_reducible apply Within.ite2
    | with_reducible apply Within.ite
    | with_reducible apply readObj_within (Sub.up hM rfl)
    | with_reducible apply writeObj_within (Sub.up hM rfl)
    | with_reducible apply writeSegment_within (Sub.up hM rfl)
    | with_reducible apply writeImage_within (Sub.up hM rfl)
    | (with_reducible apply Within.snd <;> [with_reducible assumption; skip])
    | (with_reducible apply Within.fst <;> [with_reducible assumption; skip])
    | (with_reducible apply Within.fst2 <;> [with_reducible assumption; skip])
    | split

theorem onNext_within {M : Nat} {s0 : State} (hM : Sub 0x480000000 M) (s : State) (r : DictReq) (hW : Within M s0 s) : Within M s0 (onNext s r).2 := by
  unfold onNext
  repeat' first
    | with_reducible assumption
    | (intro x
       first
         | (have hx : Within M s0 x := by
              unfold x
              repeat' first
                | with_reducible assumption
                | dsimp -zeta only
                | with_reducible apply Within.ite2
                | with_reducible apply Within.ite
                | with_reducible apply readObj_within (Sub.up hM rfl)
                | (with_reducible apply Within.snd <;> [with_reducible assumption; skip])
                | (with_reducible apply Within.fst <;> [with_reducible assumption; skip])
                | (with_reducible apply Within.fst2 <;> [with_reducible assumption; skip])
                | split)
         | (have hx : Within M s0 x.1 := by
              unfold x
              repeat' first
                | with_reducible assumption
                | dsimp -zeta only
                | with_reducible apply Within.ite2
                | with_reducible apply Within.ite
                | with_reducible apply readObj_within (Sub.up hM rfl)
                | (with_reducible apply Within.snd <;> [with_reducible assumption; skip])
                | (with_reducible apply Within.fst <;> [with_reducible assumption; skip])
                | (with_reducible apply Within.fst2 <;> [with_reducible assumption; skip])
                | split)
         | (have hx : Within M s0 x.2 := by
              unfold x
              repeat' first
                | with_reducible assumption
                | dsimp -zeta only
                | with_reducible apply Within.ite2
                | with_reducible apply Within.ite
                | with_reducible apply readObj_within (Sub.up hM rfl)
                | (with_reducible apply Within.snd <;> [with_reducible assumption; skip])
                | (with_reducible apply Within.fst <;> [with_reducible assumption; skip])
                | (with_reducible apply Within.fst2 <;> [with_reducible assumption; skip])
                | split)
         | skip
       clear_value x)
    | lift_lets -underBinder
    | dsimp -zeta only
    | with_reducible apply Within.ite2
    | with_reducible apply Within.ite
    | with_reducible apply readObj_within (Sub.up hM rfl)
    | (with_reducible apply Within.snd <;> [with_reducible assumption; skip])
    | (with_reducible apply Within.fst <;> [with_reducible assumption; skip])
    | (with_reducible apply Within.fst2 <;> [with_reducible assumption; skip])
    | split

theorem dictApply_within {M : Nat} {s0 : State} (hM : Sub 0x7900808dd M) (s : State) (path : Nat) (r : DictReq) (hW : Within M s0 s) : Within M s0 (dictApply s path r).2 := by
  unfold dictApply
  repeat' first
    | with_reducible assumption
    | dsimp -zeta only
    | with_reducible apply Within.ite2
    | with_reducible apply Within.ite
    | with_reducible apply onObject_within (Sub.up hM rfl)
    | with_reducible apply onNext_within (Sub.up hM rfl)
    | (with_reducible apply Within.snd <;> [with_reducible assumption; skip])
    | (with_reducible apply Within.fst <;> [with_reducible assumption; skip])
    | (with_reducible apply Within.fst2 <;> [with_reducible assumption; skip])
    | split

theorem dictRequest_within {M : Nat} {s0 : State} (hM : Sub 0x7900808dd M) (s : State) (path : DictPath) (r : DictReq) (hW : Within M s0 s) : Within M s0 (dictRequest s path r) := by
  unfold dictRequest
  repeat' first
    | with_reducible assumption
    | (intro x
       first
         | (have hx : Within M s0 x := by
              unfold x
              repeat' first
                | with_reducible assumption
                | with_reducible apply Within.ite
                | with_reducible apply emit_within (Sub.up hM rfl)
                | with_reducible apply dictApply_within (Sub.up hM rfl)
                | (with_reducible apply Within.snd <;> [with_reducible assumption; skip])
                | (with_reducible apply Within.fst <;> [with_reducible assumption; skip])
                | (with_reducible apply Within.fst2 <;> [with_reducible assumption; skip]))
         | (have hx : Within M s0 x.1 := by
              unfold x
              repeat' first
                | with_reducible assumption
                | with_reducible apply Within.ite
                | with_reducible apply emit_within (Sub.up hM rfl)
                | with_reducible apply dictApply_within (Sub.up hM rfl)
                | (with_reducible apply Within.snd <;> [with_reducible assumption; skip])
                | (with_reducible apply Within.fst <;> [with_reducible assumption; skip])
                | (with_reducible apply Within.fst2 <;> [with_reducible assumption; skip]))
         | (have hx : Within M s0 x.2 := by
              unfold x
              repeat' first
                | with_reducible assumption
                | with_reducible apply Within.ite
                | with_reducible apply emit_within (Sub.up hM rfl)
                | with_reducible apply dictApply_within (Sub.up hM rfl)
                | (with_reducible apply Within.snd <;> [with_reducible assumption; skip])
                | (with_reducible apply Within.fst <;> [with_reducible assumption; skip])
                | (with_reducible apply Within.fst2 <;> [with_reducible assumption; skip]))
         | skip
       clear_value x)
    | lift_lets -underBinder
    | with_reducible apply Within.ite
    | with_reducible apply emit_within (Sub.up hM rfl)
    | with_reducible apply dictApply_within (Sub.up hM rfl)
    | (with_reducible apply Within.snd <;> [with_reducible assumption; skip])
    | (with_reducible apply Within.fst <;> [with_reducible assumption; skip])
    | (with_reducible apply Within.fst2 <;> [with_reducible assumption; skip])

end Sys2Proof.Machine
end

