-- ==== Sys2Proof/Laws/WithinDictionary.lean ====
section
/-! SUPPORT. What the operations and commands of Machine/Dictionary can do to the state (Laws/Within). -/

namespace Sys2Proof.Machine

theorem execRead_within {M : Nat} {s0 : State} (hM : Sub 0x7900808dd M) (path : DictPath) (index : BitVec 16) (sub type : Byte) (staged : Bool) (s : State) (hW : Within M s0 s) :
    ∃ u, execRead path index sub type staged s = .next u ∧ Within M s0 u := by
  unfold execRead
  refine ⟨_, rfl, ?_⟩
  repeat' first
    | with_reducible assumption
    | with_reducible apply dictRequest_within (Sub.up hM rfl)

theorem execWrite_within {M : Nat} {s0 : State} (hM : Sub 0x7900808dd M) (path : DictPath) (index : BitVec 16) (sub type : Byte) (value : List Byte) (s : State) (hW : Within M s0 s) :
    ∃ u, execWrite path index sub type value s = .next u ∧ Within M s0 u := by
  unfold execWrite
  refine ⟨_, rfl, ?_⟩
  repeat' first
    | with_reducible assumption
    | with_reducible apply dictRequest_within (Sub.up hM rfl)

theorem execSegRead_within {M : Nat} {s0 : State} (hM : Sub 0x7900808dd M) (path : DictPath) (index : BitVec 16) (sub : Byte) (off : BitVec 32) (staged : Bool) (s : State) (hW : Within M s0 s) :
    ∃ u, execSegRead path index sub off staged s = .next u ∧ Within M s0 u := by
  unfold execSegRead
  refine ⟨_, rfl, ?_⟩
  repeat' first
    | with_reducible assumption
    | with_reducible apply dictRequest_within (Sub.up hM rfl)

theorem execSegWrite_within {M : Nat} {s0 : State} (hM : Sub 0x7900808dd M) (path : DictPath) (index : BitVec 16) (sub : Byte) (off : BitVec 32) (value : List Byte) (images : List ImageCheck)
    (s : State) (hW : Within M s0 s) :
    ∃ u, execSegWrite path index sub off value images s = .next u ∧ Within M s0 u := by
  unfold execSegWrite
  refine ⟨_, rfl, ?_⟩
  repeat' first
    | with_reducible assumption
    | with_reducible apply dictRequest_within (Sub.up hM rfl)

theorem execNext_within {M : Nat} {s0 : State} (hM : Sub 0x7900808dd M) (path : DictPath) (index : BitVec 16) (sub : Byte) (staged : Bool) (s : State) (hW : Within M s0 s) :
    ∃ u, execNext path index sub staged s = .next u ∧ Within M s0 u := by
  unfold execNext
  refine ⟨_, rfl, ?_⟩
  repeat' first
    | with_reducible assumption
    | with_reducible apply dictRequest_within (Sub.up hM rfl)

theorem execDictRequest_within {M : Nat} {s0 : State} (hM : Sub 0x7900808dd M) (hdr0 hdr1 : Word) (data : List Byte) (s : State) (hW : Within M s0 s) :
    ∃ u, execDictRequest hdr0 hdr1 data s = .next u ∧ Within M s0 u := by
  unfold execDictRequest
  refine ⟨_, rfl, ?_⟩
  repeat' first
    | with_reducible assumption
    | with_reducible apply dictRequest_within (Sub.up hM rfl)
    | with_reducible refine Within.freeIdx ?_ (Sub.has hM rfl)

theorem execEventRead_within {M : Nat} {s0 : State} (hM : Sub 0x200000000 M) (seq : BitVec 32) (s : State) (hW : Within M s0 s) :
    ∃ u, execEventRead seq s = .next u ∧ Within M s0 u := by
  unfold execEventRead
  refine ⟨_, rfl, ?_⟩
  repeat' first
    | with_reducible assumption
    | with_reducible apply Within.ite
    | with_reducible apply emit_within (Sub.up hM rfl)

theorem execDictWindowGo_within {M : Nat} {s0 : State} (hM : Sub 0x7900808dd M) (s : State) (hW : Within M s0 s) :
    ∃ u, execDictWindowGo s = .next u ∧ Within M s0 u := by
  unfold execDictWindowGo
  refine ⟨_, rfl, ?_⟩
  repeat' first
    | with_reducible assumption
    | (intro x
       first
         | (have hx : Within M s0 x := by
              unfold x
              repeat' first
                | with_reducible assumption
                | with_reducible apply Within.ite
                | with_reducible apply setReg_within (Sub.up hM rfl)
                | with_reducible apply dictApply_within (Sub.up hM rfl)
                | (with_reducible apply Within.snd <;> [with_reducible assumption; skip])
                | (with_reducible apply Within.fst <;> [with_reducible assumption; skip])
                | (with_reducible apply Within.fst2 <;> [with_reducible assumption; skip])
                | with_reducible refine Within.dict ?_ (Sub.has hM rfl)
                | with_reducible refine Within.freeIdx ?_ (Sub.has hM rfl))
         | (have hx : Within M s0 x.1 := by
              unfold x
              repeat' first
                | with_reducible assumption
                | with_reducible apply Within.ite
                | with_reducible apply setReg_within (Sub.up hM rfl)
                | with_reducible apply dictApply_within (Sub.up hM rfl)
                | (with_reducible apply Within.snd <;> [with_reducible assumption; skip])
                | (with_reducible apply Within.fst <;> [with_reducible assumption; skip])
                | (with_reducible apply Within.fst2 <;> [with_reducible assumption; skip])
                | with_reducible refine Within.dict ?_ (Sub.has hM rfl)
                | with_reducible refine Within.freeIdx ?_ (Sub.has hM rfl))
         | (have hx : Within M s0 x.2 := by
              unfold x
              repeat' first
                | with_reducible assumption
                | with_reducible apply Within.ite
                | with_reducible apply setReg_within (Sub.up hM rfl)
                | with_reducible apply dictApply_within (Sub.up hM rfl)
                | (with_reducible apply Within.snd <;> [with_reducible assumption; skip])
                | (with_reducible apply Within.fst <;> [with_reducible assumption; skip])
                | (with_reducible apply Within.fst2 <;> [with_reducible assumption; skip])
                | with_reducible refine Within.dict ?_ (Sub.has hM rfl)
                | with_reducible refine Within.freeIdx ?_ (Sub.has hM rfl))
         | skip
       clear_value x)
    | lift_lets -underBinder
    | with_reducible apply Within.ite
    | with_reducible apply setReg_within (Sub.up hM rfl)
    | with_reducible apply dictApply_within (Sub.up hM rfl)
    | (with_reducible apply Within.snd <;> [with_reducible assumption; skip])
    | (with_reducible apply Within.fst <;> [with_reducible assumption; skip])
    | (with_reducible apply Within.fst2 <;> [with_reducible assumption; skip])
    | with_reducible refine Within.dict ?_ (Sub.has hM rfl)
    | with_reducible refine Within.freeIdx ?_ (Sub.has hM rfl)

theorem tdpAnswer_within {M : Nat} {s0 : State} (hM : Sub 0x7900808dd M) (s : State) (version : Nat) (r : DictReq) (hW : Within M s0 s) : Within M s0 (tdpAnswer s version r).2 := by
  unfold tdpAnswer
  repeat' first
    | with_reducible assumption
    | dsimp -zeta only
    | with_reducible apply Within.ite2
    | with_reducible apply Within.ite
    | with_reducible apply dictApply_within (Sub.up hM rfl)
    | (with_reducible apply Within.snd <;> [with_reducible assumption; skip])
    | (with_reducible apply Within.fst <;> [with_reducible assumption; skip])
    | (with_reducible apply Within.fst2 <;> [with_reducible assumption; skip])
    | split

theorem tdpSend_within {M : Nat} {s0 : State} (hM : Sub 0x210000000 M) (s : State) (version : Nat) (r : DictReq) (a : DictAns) (hW : Within M s0 s) : Within M s0 (tdpSend s version r a) := by
  unfold tdpSend
  repeat' first
    | with_reducible assumption
    | (intro x
       first
         | (have hx : Within M s0 x := by
              unfold x
              repeat' first
                | with_reducible assumption
                | with_reducible apply emit_within (Sub.up hM rfl)
                | with_reducible refine Within.dict ?_ (Sub.has hM rfl))
         | skip
       clear_value x)
    | lift_lets -underBinder
    | with_reducible apply emit_within (Sub.up hM rfl)
    | with_reducible refine Within.dict ?_ (Sub.has hM rfl)

theorem execTdpFrameReceive_within {M : Nat} {s0 : State} (hM : Sub 0x7900808dd M) (version msg : Fin 16) (_seq : BitVec 16) (group : Bool) (hdr0 hdr1 : Word) (data : List Byte) (s : State) (hW : Within M s0 s) :
    ∃ u, execTdpFrameReceive version msg _seq group hdr0 hdr1 data s = .next u ∧ Within M s0 u := by
  unfold execTdpFrameReceive
  refine ⟨_, rfl, ?_⟩
  repeat' first
    | with_reducible assumption
    | (intro x
       first
         | (have hx : Within M s0 x := by
              unfold x
              repeat' first
                | with_reducible assumption
                | with_reducible apply Within.ite
                | with_reducible apply tdpAnswer_within (Sub.up hM rfl)
                | with_reducible apply tdpSend_within (Sub.up hM rfl)
                | (with_reducible apply Within.snd <;> [with_reducible assumption; skip])
                | (with_reducible apply Within.fst <;> [with_reducible assumption; skip])
                | (with_reducible apply Within.fst2 <;> [with_reducible assumption; skip])
                | with_reducible refine Within.dict ?_ (Sub.has hM rfl)
                | with_reducible refine Within.freeIdx ?_ (Sub.has hM rfl))
         | (have hx : Within M s0 x.1 := by
              unfold x
              repeat' first
                | with_reducible assumption
                | with_reducible apply Within.ite
                | with_reducible apply tdpAnswer_within (Sub.up hM rfl)
                | with_reducible apply tdpSend_within (Sub.up hM rfl)
                | (with_reducible apply Within.snd <;> [with_reducible assumption; skip])
                | (with_reducible apply Within.fst <;> [with_reducible assumption; skip])
                | (with_reducible apply Within.fst2 <;> [with_reducible assumption; skip])
                | with_reducible refine Within.dict ?_ (Sub.has hM rfl)
                | with_reducible refine Within.freeIdx ?_ (Sub.has hM rfl))
         | (have hx : Within M s0 x.2 := by
              unfold x
              repeat' first
                | with_reducible assumption
                | with_reducible apply Within.ite
                | with_reducible apply tdpAnswer_within (Sub.up hM rfl)
                | with_reducible apply tdpSend_within (Sub.up hM rfl)
                | (with_reducible apply Within.snd <;> [with_reducible assumption; skip])
                | (with_reducible apply Within.fst <;> [with_reducible assumption; skip])
                | (with_reducible apply Within.fst2 <;> [with_reducible assumption; skip])
                | with_reducible refine Within.dict ?_ (Sub.has hM rfl)
                | with_reducible refine Within.freeIdx ?_ (Sub.has hM rfl))
         | skip
       clear_value x)
    | lift_lets -underBinder
    | with_reducible apply Within.ite
    | with_reducible apply tdpAnswer_within (Sub.up hM rfl)
    | with_reducible apply tdpSend_within (Sub.up hM rfl)
    | (with_reducible apply Within.snd <;> [with_reducible assumption; skip])
    | (with_reducible apply Within.fst <;> [with_reducible assumption; skip])
    | (with_reducible apply Within.fst2 <;> [with_reducible assumption; skip])
    | with_reducible refine Within.dict ?_ (Sub.has hM rfl)
    | with_reducible refine Within.freeIdx ?_ (Sub.has hM rfl)

end Sys2Proof.Machine
end

