-- ==== Sys2Proof/Laws/WithinFaults.lean ====
section
/-! SUPPORT. What the operations and commands of Machine/Faults can do to the state (Laws/Within). -/

namespace Sys2Proof.Machine

theorem execCoreInternalFault_within {M : Nat} {s0 : State} (hM : Sub 0x3100808d9 M) (c : CoreId) (s : State) (hW : Within M s0 s) :
    ∃ u, execCoreInternalFault c s = .next u ∧ Within M s0 u := by
  unfold execCoreInternalFault
  refine ⟨_, rfl, ?_⟩
  repeat' first
    | with_reducible assumption
    | with_reducible apply fenceCore_within (Sub.up hM rfl)

theorem execFenceCoreRequest_within {M : Nat} {s0 : State} (hM : Sub 0x3100808d9 M) (value : Byte) (s : State) (hW : Within M s0 s) :
    ∃ u, execFenceCoreRequest value s = .next u ∧ Within M s0 u := by
  unfold execFenceCoreRequest
  refine ⟨_, rfl, ?_⟩
  repeat' first
    | with_reducible assumption
    | with_reducible apply fenceRequest_within (Sub.up hM rfl)
    | (with_reducible apply Within.snd <;> [with_reducible assumption; skip])
    | (with_reducible apply Within.fst <;> [with_reducible assumption; skip])
    | (with_reducible apply Within.fst2 <;> [with_reducible assumption; skip])

theorem execRouterFault_within {M : Nat} {s0 : State} (hM : Sub 0x310080cd9 M) (die : MeshDie) (s : State) (hW : Within M s0 s) :
    ∃ u, execRouterFault die s = .next u ∧ Within M s0 u := by
  unfold execRouterFault
  refine ⟨_, rfl, ?_⟩
  repeat' first
    | with_reducible assumption
    | with_reducible apply fenceRouter_within (Sub.up hM rfl)

theorem execRingDieFailure_within {M : Nat} {s0 : State} (hM : Sub 0x310000c89 M) (ring : Fin 20) (s : State) (hW : Within M s0 s) :
    ∃ u, execRingDieFailure ring s = .next u ∧ Within M s0 u := by
  unfold execRingDieFailure
  refine ⟨_, rfl, ?_⟩
  repeat' first
    | with_reducible assumption
    | with_reducible apply failRing_within (Sub.up hM rfl)

theorem execUcieModuleFailure_within {M : Nat} {s0 : State} (hM : Sub 0x310080cd9 M) (die : MeshDie) (p : Fin 7) (s : State) (hW : Within M s0 s) :
    ∃ u, execUcieModuleFailure die p s = .next u ∧ Within M s0 u := by
  unfold execUcieModuleFailure
  refine ⟨_, rfl, ?_⟩
  repeat' first
    | with_reducible assumption
    | (intro x
       first
         | (have hx : Within M s0 x := by
              unfold x
              repeat' first
                | with_reducible assumption
                | with_reducible apply Within.ite
                | with_reducible apply raise_within (Sub.up hM rfl)
                | with_reducible refine updPkg_within (Sub.up hM rfl) (markModule_grows _ _) ?_
                | with_reducible apply connFail_within (Sub.up hM rfl)
                | (with_reducible apply Within.snd <;> [with_reducible assumption; skip])
                | (with_reducible apply Within.fst <;> [with_reducible assumption; skip])
                | (with_reducible apply Within.fst2 <;> [with_reducible assumption; skip])
                | split)
         | skip
       clear_value x)
    | lift_lets -underBinder
    | with_reducible apply Within.ite
    | with_reducible apply raise_within (Sub.up hM rfl)
    | with_reducible refine updPkg_within (Sub.up hM rfl) (markModule_grows _ _) ?_
    | with_reducible apply connFail_within (Sub.up hM rfl)
    | (with_reducible apply Within.snd <;> [with_reducible assumption; skip])
    | (with_reducible apply Within.fst <;> [with_reducible assumption; skip])
    | (with_reducible apply Within.fst2 <;> [with_reducible assumption; skip])
    | split

theorem execAdapterRetryExhausted_within {M : Nat} {s0 : State} (hM : Sub 0x310080cd9 M) (die : MeshDie) (p : Fin 7) (s : State) (hW : Within M s0 s) :
    ∃ u, execAdapterRetryExhausted die p s = .next u ∧ Within M s0 u := by
  unfold execAdapterRetryExhausted
  refine ⟨_, rfl, ?_⟩
  repeat' first
    | with_reducible assumption
    | with_reducible apply connFail_within (Sub.up hM rfl)

theorem execUcieAdapterRetry_within {M : Nat} {s0 : State} (hM : Sub 0x1 M) (die : MeshDie) (p : Fin 7) (s : State) (hW : Within M s0 s) :
    ∃ u, execUcieAdapterRetry die p s = .next u ∧ Within M s0 u := by
  unfold execUcieAdapterRetry
  refine ⟨_, rfl, ?_⟩
  repeat' first
    | with_reducible assumption
    | (intro x
       first
         | (have hx : Within M s0 x := by
              unfold x
              repeat' first
                | with_reducible assumption
                | with_reducible apply Within.ite
                | with_reducible apply bump_within (Sub.up hM rfl)
                | (with_reducible apply Within.snd <;> [with_reducible assumption; skip])
                | (with_reducible apply Within.fst <;> [with_reducible assumption; skip])
                | (with_reducible apply Within.fst2 <;> [with_reducible assumption; skip])
                | split)
         | skip
       clear_value x)
    | lift_lets -underBinder
    | with_reducible apply Within.ite
    | with_reducible apply bump_within (Sub.up hM rfl)
    | (with_reducible apply Within.snd <;> [with_reducible assumption; skip])
    | (with_reducible apply Within.fst <;> [with_reducible assumption; skip])
    | (with_reducible apply Within.fst2 <;> [with_reducible assumption; skip])
    | split

theorem execFence_within {M : Nat} {s0 : State} (hM : Sub 0x310080cdb M) (f : Frame) (die : DieId) (action : BitVec 2) (_epoch : BitVec 16) (s : State) (hW : Within M s0 s) :
    ∃ u, execFence f die action _epoch s = .next u ∧ Within M s0 u := by
  unfold execFence
  refine ⟨_, rfl, ?_⟩
  repeat' first
    | with_reducible assumption
    | with_reducible apply Within.ite
    | with_reducible refine onChain_within (Sub.up hM rfl) (fun _ _ => ?_) ?_
    | with_reducible apply fenceEffects_within (Sub.up hM rfl)
    | with_reducible apply haltCore_within (Sub.up hM rfl)
    | with_reducible apply fenceRouter_within (Sub.up hM rfl)
    | (with_reducible apply Within.snd <;> [with_reducible assumption; skip])
    | (with_reducible apply Within.fst <;> [with_reducible assumption; skip])
    | (with_reducible apply Within.fst2 <;> [with_reducible assumption; skip])
    | split

theorem execRouteWrite_within {M : Nat} {s0 : State} (hM : Sub 0x100000009 M) (f : Frame) (die : DieId) (first : BitVec 8) (chainNet : Bool) (entries : BitVec 40) (s : State) (hW : Within M s0 s) :
    ∃ u, execRouteWrite f die first chainNet entries s = .next u ∧ Within M s0 u := by
  unfold execRouteWrite
  refine ⟨_, rfl, ?_⟩
  repeat' first
    | with_reducible assumption
    | (intro x
       first
         | (have hx : Within M s0 x := by
              unfold x
              repeat' first
                | with_reducible assumption
                | with_reducible apply Within.ite
                | with_reducible refine onChain_within (Sub.up hM rfl) (fun _ _ => ?_) ?_
                | with_reducible refine updPkg_within (Sub.up hM rfl) (markRewritten_grows) ?_
                | with_reducible refine updPkg_within (Sub.up hM rfl) (markRoutes_grows _) ?_
                | with_reducible refine Within.fold (fun _ _ _ => ?_) ?_
                | with_reducible refine Within.fold1 (fun _ _ _ => ?_) ?_
                | with_reducible refine Within.fold2 (fun _ _ _ => ?_) ?_)
         | skip
       clear_value x)
    | lift_lets -underBinder
    | with_reducible apply Within.ite
    | with_reducible refine onChain_within (Sub.up hM rfl) (fun _ _ => ?_) ?_
    | with_reducible refine updPkg_within (Sub.up hM rfl) (markRewritten_grows) ?_
    | with_reducible refine updPkg_within (Sub.up hM rfl) (markRoutes_grows _) ?_
    | with_reducible refine Within.fold (fun _ _ _ => ?_) ?_
    | with_reducible refine Within.fold1 (fun _ _ _ => ?_) ?_
    | with_reducible refine Within.fold2 (fun _ _ _ => ?_) ?_

end Sys2Proof.Machine
end

