-- ==== Sys2Proof/Laws/WithinFetch.lean ====
section
/-! SUPPORT. What the operations and commands of Machine/Fetch can do to the state (Laws/Within). -/

namespace Sys2Proof.Machine

theorem execTagIssue_within {M : Nat} {s0 : State} (hM : Sub 0x3100008d3 M) (c : CoreId) (s : State) (hW : Within M s0 s) :
    ∃ u, execTagIssue c s = .next u ∧ Within M s0 u := by
  unfold execTagIssue
  refine ⟨_, rfl, ?_⟩
  repeat' first
    | with_reducible assumption
    | with_reducible apply tagStep_within (Sub.up hM rfl)

theorem execSmallTransferHoldEnd_within {M : Nat} {s0 : State} (hM : Sub 0x10 M) (c : CoreId) (s : State) (hW : Within M s0 s) :
    ∃ u, execSmallTransferHoldEnd c s = .next u ∧ Within M s0 u := by
  unfold execSmallTransferHoldEnd
  refine ⟨_, rfl, ?_⟩
  repeat' first
    | with_reducible assumption
    | (intro x
       first
         | (have hx : Within M s0 x := by
              unfold x
              repeat' first
                | with_reducible assumption
                | dsimp -zeta only
                | with_reducible apply Within.ite1
                | with_reducible apply Within.ite2
                | with_reducible apply Within.ite
                | with_reducible apply updCore_within (Sub.up hM rfl)
                | (with_reducible apply Within.snd <;> [with_reducible assumption; skip])
                | (with_reducible apply Within.fst <;> [with_reducible assumption; skip])
                | (with_reducible apply Within.fst2 <;> [with_reducible assumption; skip])
                | split)
         | (have hx : Within M s0 x.1 := by
              unfold x
              repeat' first
                | with_reducible assumption
                | dsimp -zeta only
                | with_reducible apply Within.ite1
                | with_reducible apply Within.ite2
                | with_reducible apply Within.ite
                | with_reducible apply updCore_within (Sub.up hM rfl)
                | (with_reducible apply Within.snd <;> [with_reducible assumption; skip])
                | (with_reducible apply Within.fst <;> [with_reducible assumption; skip])
                | (with_reducible apply Within.fst2 <;> [with_reducible assumption; skip])
                | split)
         | (have hx : Within M s0 x.2 := by
              unfold x
              repeat' first
                | with_reducible assumption
                | dsimp -zeta only
                | with_reducible apply Within.ite1
                | with_reducible apply Within.ite2
                | with_reducible apply Within.ite
                | with_reducible apply updCore_within (Sub.up hM rfl)
                | (with_reducible apply Within.snd <;> [with_reducible assumption; skip])
                | (with_reducible apply Within.fst <;> [with_reducible assumption; skip])
                | (with_reducible apply Within.fst2 <;> [with_reducible assumption; skip])
                | split)
         | skip
       clear_value x)
    | lift_lets -underBinder
    | dsimp -zeta only
    | with_reducible apply Within.ite1
    | with_reducible apply Within.ite2
    | with_reducible apply Within.ite
    | with_reducible apply updCore_within (Sub.up hM rfl)
    | (with_reducible apply Within.snd <;> [with_reducible assumption; skip])
    | (with_reducible apply Within.fst <;> [with_reducible assumption; skip])
    | (with_reducible apply Within.fst2 <;> [with_reducible assumption; skip])
    | split

theorem execClass3Promotion_within {M : Nat} {s0 : State} (hM : Sub 0x3100008d3 M) (c : CoreId) (s : State) (hW : Within M s0 s) :
    ∃ u, execClass3Promotion c s = .next u ∧ Within M s0 u := by
  unfold execClass3Promotion
  refine ⟨_, rfl, ?_⟩
  repeat' first
    | with_reducible assumption
    | with_reducible apply tagStep_within (Sub.up hM rfl)

theorem answeredTier_within {M : Nat} {s0 : State} (hM : Sub 0x110 M) (s : State) (fill : Bool) (status src : Nat) (tag : TagId) (a : Nat) (late : Option Nat) (hW : Within M s0 s) : Within M s0 (answeredTier s fill status src tag a late) := by
  unfold answeredTier
  repeat' first
    | with_reducible assumption
    | (intro x
       first
         | (have hx : Within M s0 x := by
              unfold x
              repeat' first
                | with_reducible assumption
                | dsimp -zeta only
                | with_reducible apply Within.ite1
                | with_reducible apply Within.ite2
                | with_reducible apply Within.ite
                | with_reducible apply hintLine_within (Sub.up hM rfl)
                | with_reducible apply noteCause_within (Sub.up hM rfl)
                | (with_reducible apply Within.snd <;> [with_reducible assumption; skip])
                | (with_reducible apply Within.fst <;> [with_reducible assumption; skip])
                | (with_reducible apply Within.fst2 <;> [with_reducible assumption; skip])
                | split)
         | (have hx : Within M s0 x.1 := by
              unfold x
              repeat' first
                | with_reducible assumption
                | dsimp -zeta only
                | with_reducible apply Within.ite1
                | with_reducible apply Within.ite2
                | with_reducible apply Within.ite
                | with_reducible apply hintLine_within (Sub.up hM rfl)
                | with_reducible apply noteCause_within (Sub.up hM rfl)
                | (with_reducible apply Within.snd <;> [with_reducible assumption; skip])
                | (with_reducible apply Within.fst <;> [with_reducible assumption; skip])
                | (with_reducible apply Within.fst2 <;> [with_reducible assumption; skip])
                | split)
         | (have hx : Within M s0 x.2 := by
              unfold x
              repeat' first
                | with_reducible assumption
                | dsimp -zeta only
                | with_reducible apply Within.ite1
                | with_reducible apply Within.ite2
                | with_reducible apply Within.ite
                | with_reducible apply hintLine_within (Sub.up hM rfl)
                | with_reducible apply noteCause_within (Sub.up hM rfl)
                | (with_reducible apply Within.snd <;> [with_reducible assumption; skip])
                | (with_reducible apply Within.fst <;> [with_reducible assumption; skip])
                | (with_reducible apply Within.fst2 <;> [with_reducible assumption; skip])
                | split)
         | skip
       clear_value x)
    | lift_lets -underBinder
    | dsimp -zeta only
    | with_reducible apply Within.ite1
    | with_reducible apply Within.ite2
    | with_reducible apply Within.ite
    | with_reducible apply hintLine_within (Sub.up hM rfl)
    | with_reducible apply noteCause_within (Sub.up hM rfl)
    | (with_reducible apply Within.snd <;> [with_reducible assumption; skip])
    | (with_reducible apply Within.fst <;> [with_reducible assumption; skip])
    | (with_reducible apply Within.fst2 <;> [with_reducible assumption; skip])
    | split

theorem serveRead_within {M : Nat} {s0 : State} (hM : Sub 0x710000fdb M) (s : State) (t : BulkTag) (tag : TagId) (a : Nat) (n : Nat) (o : ReadOutcome) (hW : Within M s0 s) : Within M s0 (serveRead s t tag a n o).1 := by
  unfold serveRead
  repeat' first
    | with_reducible assumption
    | (intro x
       first
         | (have hx : Within M s0 x := by
              unfold x
              repeat' first
                | with_reducible assumption
                | dsimp -zeta only
                | with_reducible apply Within.ite1
                | with_reducible apply Within.ite2
                | with_reducible apply Within.ite
                | with_reducible apply emit_within (Sub.up hM rfl)
                | with_reducible apply readLine_within (Sub.up hM rfl)
                | with_reducible apply askHost_within (Sub.up hM rfl)
                | with_reducible apply readSpm_within (Sub.up hM rfl)
                | with_reducible apply answeredTier_within (Sub.up hM rfl)
                | (with_reducible apply Within.snd <;> [with_reducible assumption; skip])
                | (with_reducible apply Within.fst <;> [with_reducible assumption; skip])
                | (with_reducible apply Within.fst2 <;> [with_reducible assumption; skip])
                | split)
         | (have hx : Within M s0 x.1 := by
              unfold x
              repeat' first
                | with_reducible assumption
                | dsimp -zeta only
                | with_reducible apply Within.ite1
                | with_reducible apply Within.ite2
                | with_reducible apply Within.ite
                | with_reducible apply emit_within (Sub.up hM rfl)
                | with_reducible apply readLine_within (Sub.up hM rfl)
                | with_reducible apply askHost_within (Sub.up hM rfl)
                | with_reducible apply readSpm_within (Sub.up hM rfl)
                | with_reducible apply answeredTier_within (Sub.up hM rfl)
                | (with_reducible apply Within.snd <;> [with_reducible assumption; skip])
                | (with_reducible apply Within.fst <;> [with_reducible assumption; skip])
                | (with_reducible apply Within.fst2 <;> [with_reducible assumption; skip])
                | split)
         | (have hx : Within M s0 x.2 := by
              unfold x
              repeat' first
                | with_reducible assumption
                | dsimp -zeta only
                | with_reducible apply Within.ite1
                | with_reducible apply Within.ite2
                | with_reducible apply Within.ite
                | with_reducible apply emit_within (Sub.up hM rfl)
                | with_reducible apply readLine_within (Sub.up hM rfl)
                | with_reducible apply askHost_within (Sub.up hM rfl)
                | with_reducible apply readSpm_within (Sub.up hM rfl)
                | with_reducible apply answeredTier_within (Sub.up hM rfl)
                | (with_reducible apply Within.snd <;> [with_reducible assumption; skip])
                | (with_reducible apply Within.fst <;> [with_reducible assumption; skip])
                | (with_reducible apply Within.fst2 <;> [with_reducible assumption; skip])
                | split)
         | skip
       clear_value x)
    | lift_lets -underBinder
    | dsimp -zeta only
    | with_reducible apply Within.ite1
    | with_reducible apply Within.ite2
    | with_reducible apply Within.ite
    | with_reducible apply emit_within (Sub.up hM rfl)
    | with_reducible apply readLine_within (Sub.up hM rfl)
    | with_reducible apply askHost_within (Sub.up hM rfl)
    | with_reducible apply readSpm_within (Sub.up hM rfl)
    | with_reducible apply answeredTier_within (Sub.up hM rfl)
    | (with_reducible apply Within.snd <;> [with_reducible assumption; skip])
    | (with_reducible apply Within.fst <;> [with_reducible assumption; skip])
    | (with_reducible apply Within.fst2 <;> [with_reducible assumption; skip])
    | split

theorem execReadRequest_within {M : Nat} {s0 : State} (hM : Sub 0x710000fdb M) (die : DieId) (t : BulkTag) (tag : TagId) (dpa : BitVec 52) (gran : Fin 8) (o : ReadOutcome) (s : State) (hW : Within M s0 s) :
    ∃ u, execReadRequest die t tag dpa gran o s = .next u ∧ Within M s0 u := by
  unfold execReadRequest
  refine ⟨_, rfl, ?_⟩
  repeat' first
    | with_reducible assumption
    | (intro x
       first
         | (have hx : Within M s0 x := by
              unfold x
              repeat' first
                | with_reducible assumption
                | with_reducible apply sendBulk_within (Sub.up hM rfl)
                | with_reducible refine onBulk_within (Sub.up hM rfl) (fun _ _ => ?_) ?_
                | with_reducible apply serveRead_within (Sub.up hM rfl)
                | (with_reducible apply Within.snd <;> [with_reducible assumption; skip])
                | (with_reducible apply Within.fst <;> [with_reducible assumption; skip])
                | (with_reducible apply Within.fst2 <;> [with_reducible assumption; skip])
                | split)
         | (have hx : Within M s0 x.1 := by
              unfold x
              repeat' first
                | with_reducible assumption
                | with_reducible apply sendBulk_within (Sub.up hM rfl)
                | with_reducible refine onBulk_within (Sub.up hM rfl) (fun _ _ => ?_) ?_
                | with_reducible apply serveRead_within (Sub.up hM rfl)
                | (with_reducible apply Within.snd <;> [with_reducible assumption; skip])
                | (with_reducible apply Within.fst <;> [with_reducible assumption; skip])
                | (with_reducible apply Within.fst2 <;> [with_reducible assumption; skip])
                | split)
         | (have hx : Within M s0 x.2 := by
              unfold x
              repeat' first
                | with_reducible assumption
                | with_reducible apply sendBulk_within (Sub.up hM rfl)
                | with_reducible refine onBulk_within (Sub.up hM rfl) (fun _ _ => ?_) ?_
                | with_reducible apply serveRead_within (Sub.up hM rfl)
                | (with_reducible apply Within.snd <;> [with_reducible assumption; skip])
                | (with_reducible apply Within.fst <;> [with_reducible assumption; skip])
                | (with_reducible apply Within.fst2 <;> [with_reducible assumption; skip])
                | split)
         | skip
       clear_value x)
    | lift_lets -underBinder
    | with_reducible apply sendBulk_within (Sub.up hM rfl)
    | with_reducible refine onBulk_within (Sub.up hM rfl) (fun _ _ => ?_) ?_
    | with_reducible apply serveRead_within (Sub.up hM rfl)
    | (with_reducible apply Within.snd <;> [with_reducible assumption; skip])
    | (with_reducible apply Within.fst <;> [with_reducible assumption; skip])
    | (with_reducible apply Within.fst2 <;> [with_reducible assumption; skip])
    | split

theorem besideRows_within {M : Nat} {s0 : State} (hM : Sub 0x710000f89 M) (s : State) (c : Nat) (t : CoreTask) (g : Tag) (hW : Within M s0 s) : Within M s0 (besideRows s c t g).1 := by
  unfold besideRows
  repeat' first
    | with_reducible assumption
    | (intro x
       first
         | (have hx : Within M s0 x := by
              unfold x
              repeat' first
                | with_reducible assumption
                | dsimp -zeta only
                | with_reducible apply Within.ite1
                | with_reducible apply Within.ite2
                | with_reducible apply Within.ite
                | with_reducible apply bumpCore_within (Sub.up hM rfl)
                | with_reducible apply getLine_within (Sub.up hM rfl)
                | with_reducible refine untilFault_within (fun _ _ _ => ?_) ?_
                | (with_reducible apply Within.snd <;> [with_reducible assumption; skip])
                | (with_reducible apply Within.fst <;> [with_reducible assumption; skip])
                | (with_reducible apply Within.fst2 <;> [with_reducible assumption; skip])
                | split)
         | (have hx : Within M s0 x.1 := by
              unfold x
              repeat' first
                | with_reducible assumption
                | dsimp -zeta only
                | with_reducible apply Within.ite1
                | with_reducible apply Within.ite2
                | with_reducible apply Within.ite
                | with_reducible apply bumpCore_within (Sub.up hM rfl)
                | with_reducible apply getLine_within (Sub.up hM rfl)
                | with_reducible refine untilFault_within (fun _ _ _ => ?_) ?_
                | (with_reducible apply Within.snd <;> [with_reducible assumption; skip])
                | (with_reducible apply Within.fst <;> [with_reducible assumption; skip])
                | (with_reducible apply Within.fst2 <;> [with_reducible assumption; skip])
                | split)
         | (have hx : Within M s0 x.2 := by
              unfold x
              repeat' first
                | with_reducible assumption
                | dsimp -zeta only
                | with_reducible apply Within.ite1
                | with_reducible apply Within.ite2
                | with_reducible apply Within.ite
                | with_reducible apply bumpCore_within (Sub.up hM rfl)
                | with_reducible apply getLine_within (Sub.up hM rfl)
                | with_reducible refine untilFault_within (fun _ _ _ => ?_) ?_
                | (with_reducible apply Within.snd <;> [with_reducible assumption; skip])
                | (with_reducible apply Within.fst <;> [with_reducible assumption; skip])
                | (with_reducible apply Within.fst2 <;> [with_reducible assumption; skip])
                | split)
         | skip
       clear_value x)
    | lift_lets -underBinder
    | dsimp -zeta only
    | with_reducible apply Within.ite1
    | with_reducible apply Within.ite2
    | with_reducible apply Within.ite
    | with_reducible apply bumpCore_within (Sub.up hM rfl)
    | with_reducible apply getLine_within (Sub.up hM rfl)
    | with_reducible refine untilFault_within (fun _ _ _ => ?_) ?_
    | (with_reducible apply Within.snd <;> [with_reducible assumption; skip])
    | (with_reducible apply Within.fst <;> [with_reducible assumption; skip])
    | (with_reducible apply Within.fst2 <;> [with_reducible assumption; skip])
    | split

theorem landRead_within {M : Nat} {s0 : State} (hM : Sub 0x3100008d3 M) (s : State) (c : Nat) (g : Tag) (data : List Byte) (hW : Within M s0 s) : Within M s0 (landRead s c g data) := by
  unfold landRead
  repeat' first
    | with_reducible assumption
    | (intro x
       first
         | (have hx : Within M s0 x := by
              unfold x
              repeat' first
                | with_reducible assumption
                | dsimp -zeta only
                | with_reducible apply Within.ite1
                | with_reducible apply Within.ite2
                | with_reducible apply Within.ite
                | with_reducible apply updCore_within (Sub.up hM rfl)
                | with_reducible apply landFetched_within (Sub.up hM rfl)
                | with_reducible apply boundarySearch_within (Sub.up hM rfl)
                | with_reducible apply updTask_within (Sub.up hM rfl)
                | (with_reducible apply Within.snd <;> [with_reducible assumption; skip])
                | (with_reducible apply Within.fst <;> [with_reducible assumption; skip])
                | (with_reducible apply Within.fst2 <;> [with_reducible assumption; skip])
                | split)
         | (have hx : Within M s0 x.1 := by
              unfold x
              repeat' first
                | with_reducible assumption
                | dsimp -zeta only
                | with_reducible apply Within.ite1
                | with_reducible apply Within.ite2
                | with_reducible apply Within.ite
                | with_reducible apply updCore_within (Sub.up hM rfl)
                | with_reducible apply landFetched_within (Sub.up hM rfl)
                | with_reducible apply boundarySearch_within (Sub.up hM rfl)
                | with_reducible apply updTask_within (Sub.up hM rfl)
                | (with_reducible apply Within.snd <;> [with_reducible assumption; skip])
                | (with_reducible apply Within.fst <;> [with_reducible assumption; skip])
                | (with_reducible apply Within.fst2 <;> [with_reducible assumption; skip])
                | split)
         | (have hx : Within M s0 x.2 := by
              unfold x
              repeat' first
                | with_reducible assumption
                | dsimp -zeta only
                | with_reducible apply Within.ite1
                | with_reducible apply Within.ite2
                | with_reducible apply Within.ite
                | with_reducible apply updCore_within (Sub.up hM rfl)
                | with_reducible apply landFetched_within (Sub.up hM rfl)
                | with_reducible apply boundarySearch_within (Sub.up hM rfl)
                | with_reducible apply updTask_within (Sub.up hM rfl)
                | (with_reducible apply Within.snd <;> [with_reducible assumption; skip])
                | (with_reducible apply Within.fst <;> [with_reducible assumption; skip])
                | (with_reducible apply Within.fst2 <;> [with_reducible assumption; skip])
                | split)
         | skip
       clear_value x)
    | lift_lets -underBinder
    | dsimp -zeta only
    | with_reducible apply Within.ite1
    | with_reducible apply Within.ite2
    | with_reducible apply Within.ite
    | with_reducible apply updCore_within (Sub.up hM rfl)
    | with_reducible apply landFetched_within (Sub.up hM rfl)
    | with_reducible apply boundarySearch_within (Sub.up hM rfl)
    | with_reducible apply updTask_within (Sub.up hM rfl)
    | (with_reducible apply Within.snd <;> [with_reducible assumption; skip])
    | (with_reducible apply Within.fst <;> [with_reducible assumption; skip])
    | (with_reducible apply Within.fst2 <;> [with_reducible assumption; skip])
    | split

theorem noteStall_within {M : Nat} {s0 : State} (hM : Sub 0x10 M) (s : State) (c i cause : Nat) (hW : Within M s0 s) : Within M s0 (noteStall s c i cause) := by
  unfold noteStall
  repeat' first
    | with_reducible assumption
    | (intro x
       first
         | (have hx : Within M s0 x := by
              unfold x
              repeat' first
                | with_reducible assumption
                | dsimp -zeta only
                | with_reducible apply Within.ite1
                | with_reducible apply Within.ite2
                | with_reducible apply Within.ite
                | with_reducible apply updCore_within (Sub.up hM rfl)
                | (with_reducible apply Within.snd <;> [with_reducible assumption; skip])
                | (with_reducible apply Within.fst <;> [with_reducible assumption; skip])
                | (with_reducible apply Within.fst2 <;> [with_reducible assumption; skip])
                | split)
         | (have hx : Within M s0 x.1 := by
              unfold x
              repeat' first
                | with_reducible assumption
                | dsimp -zeta only
                | with_reducible apply Within.ite1
                | with_reducible apply Within.ite2
                | with_reducible apply Within.ite
                | with_reducible apply updCore_within (Sub.up hM rfl)
                | (with_reducible apply Within.snd <;> [with_reducible assumption; skip])
                | (with_reducible apply Within.fst <;> [with_reducible assumption; skip])
                | (with_reducible apply Within.fst2 <;> [with_reducible assumption; skip])
                | split)
         | (have hx : Within M s0 x.2 := by
              unfold x
              repeat' first
                | with_reducible assumption
                | dsimp -zeta only
                | with_reducible apply Within.ite1
                | with_reducible apply Within.ite2
                | with_reducible apply Within.ite
                | with_reducible apply updCore_within (Sub.up hM rfl)
                | (with_reducible apply Within.snd <;> [with_reducible assumption; skip])
                | (with_reducible apply Within.fst <;> [with_reducible assumption; skip])
                | (with_reducible apply Within.fst2 <;> [with_reducible assumption; skip])
                | split)
         | skip
       clear_value x)
    | lift_lets -underBinder
    | dsimp -zeta only
    | with_reducible apply Within.ite1
    | with_reducible apply Within.ite2
    | with_reducible apply Within.ite
    | with_reducible apply updCore_within (Sub.up hM rfl)
    | (with_reducible apply Within.snd <;> [with_reducible assumption; skip])
    | (with_reducible apply Within.fst <;> [with_reducible assumption; skip])
    | (with_reducible apply Within.fst2 <;> [with_reducible assumption; skip])
    | split

theorem execReadData_within {M : Nat} {s0 : State} (hM : Sub 0x710000fdb M) (c : CoreId) (t : BulkTag) (tag : TagId) (status : BitVec 16) (data : List Byte) (events : Fin 8) (cause : Fin 6) (s : State) (hW : Within M s0 s) :
    ∃ u, execReadData c t tag status data events cause s = .next u ∧ Within M s0 u := by
  unfold execReadData
  refine ⟨_, rfl, ?_⟩
  repeat' first
    | with_reducible assumption
    | (intro x
       first
         | (have hx : Within M s0 x := by
              unfold x
              repeat' first
                | with_reducible assumption
                | dsimp -zeta only
                | with_reducible apply Within.ite1
                | with_reducible apply Within.ite2
                | with_reducible apply Within.ite
                | with_reducible apply updCore_within (Sub.up hM rfl)
                | with_reducible apply bumpCore_within (Sub.up hM rfl)
                | with_reducible apply freeTag_within (Sub.up hM rfl)
                | with_reducible apply faultCore_within (Sub.up hM rfl)
                | with_reducible apply streamMoved_within (Sub.up hM rfl)
                | with_reducible apply corrected_within (Sub.up hM rfl)
                | with_reducible apply besideRows_within (Sub.up hM rfl)
                | with_reducible apply landRead_within (Sub.up hM rfl)
                | with_reducible apply noteStall_within (Sub.up hM rfl)
                | with_reducible refine onBulk_within (Sub.up hM rfl) (fun _ _ => ?_) ?_
                | (with_reducible apply Within.snd <;> [with_reducible assumption; skip])
                | (with_reducible apply Within.fst <;> [with_reducible assumption; skip])
                | (with_reducible apply Within.fst2 <;> [with_reducible assumption; skip])
                | split)
         | (have hx : Within M s0 x.1 := by
              unfold x
              repeat' first
                | with_reducible assumption
                | dsimp -zeta only
                | with_reducible apply Within.ite1
                | with_reducible apply Within.ite2
                | with_reducible apply Within.ite
                | with_reducible apply updCore_within (Sub.up hM rfl)
                | with_reducible apply bumpCore_within (Sub.up hM rfl)
                | with_reducible apply freeTag_within (Sub.up hM rfl)
                | with_reducible apply faultCore_within (Sub.up hM rfl)
                | with_reducible apply streamMoved_within (Sub.up hM rfl)
                | with_reducible apply corrected_within (Sub.up hM rfl)
                | with_reducible apply besideRows_within (Sub.up hM rfl)
                | with_reducible apply landRead_within (Sub.up hM rfl)
                | with_reducible apply noteStall_within (Sub.up hM rfl)
                | with_reducible refine onBulk_within (Sub.up hM rfl) (fun _ _ => ?_) ?_
                | (with_reducible apply Within.snd <;> [with_reducible assumption; skip])
                | (with_reducible apply Within.fst <;> [with_reducible assumption; skip])
                | (with_reducible apply Within.fst2 <;> [with_reducible assumption; skip])
                | split)
         | (have hx : Within M s0 x.2 := by
              unfold x
              repeat' first
                | with_reducible assumption
                | dsimp -zeta only
                | with_reducible apply Within.ite1
                | with_reducible apply Within.ite2
                | with_reducible apply Within.ite
                | with_reducible apply updCore_within (Sub.up hM rfl)
                | with_reducible apply bumpCore_within (Sub.up hM rfl)
                | with_reducible apply freeTag_within (Sub.up hM rfl)
                | with_reducible apply faultCore_within (Sub.up hM rfl)
                | with_reducible apply streamMoved_within (Sub.up hM rfl)
                | with_reducible apply corrected_within (Sub.up hM rfl)
                | with_reducible apply besideRows_within (Sub.up hM rfl)
                | with_reducible apply landRead_within (Sub.up hM rfl)
                | with_reducible apply noteStall_within (Sub.up hM rfl)
                | with_reducible refine onBulk_within (Sub.up hM rfl) (fun _ _ => ?_) ?_
                | (with_reducible apply Within.snd <;> [with_reducible assumption; skip])
                | (with_reducible apply Within.fst <;> [with_reducible assumption; skip])
                | (with_reducible apply Within.fst2 <;> [with_reducible assumption; skip])
                | split)
         | skip
       clear_value x)
    | lift_lets -underBinder
    | dsimp -zeta only
    | with_reducible apply Within.ite1
    | with_reducible apply Within.ite2
    | with_reducible apply Within.ite
    | with_reducible apply updCore_within (Sub.up hM rfl)
    | with_reducible apply bumpCore_within (Sub.up hM rfl)
    | with_reducible apply freeTag_within (Sub.up hM rfl)
    | with_reducible apply faultCore_within (Sub.up hM rfl)
    | with_reducible apply streamMoved_within (Sub.up hM rfl)
    | with_reducible apply corrected_within (Sub.up hM rfl)
    | with_reducible apply besideRows_within (Sub.up hM rfl)
    | with_reducible apply landRead_within (Sub.up hM rfl)
    | with_reducible apply noteStall_within (Sub.up hM rfl)
    | with_reducible refine onBulk_within (Sub.up hM rfl) (fun _ _ => ?_) ?_
    | (with_reducible apply Within.snd <;> [with_reducible assumption; skip])
    | (with_reducible apply Within.fst <;> [with_reducible assumption; skip])
    | (with_reducible apply Within.fst2 <;> [with_reducible assumption; skip])
    | split

theorem answerWrite_within {M : Nat} {s0 : State} (hM : Sub 0x100000000 M) (s : State) (die : Nat) (t : BulkTag) (tag cause status : Nat) (hW : Within M s0 s) : Within M s0 (answerWrite s die t tag cause status) := by
  unfold answerWrite
  repeat' first
    | with_reducible assumption
    | with_reducible apply Within.ite
    | with_reducible apply sendBulk_within (Sub.up hM rfl)

theorem writeEvents_within {M : Nat} {s0 : State} (hM : Sub 0x1 M) (s : State) (t : BulkTag) (tag n : Nat) (hW : Within M s0 s) : Within M s0 (writeEvents s t tag n) := by
  unfold writeEvents
  repeat' first
    | with_reducible assumption
    | with_reducible apply Within.ite
    | with_reducible apply corrected_within (Sub.up hM rfl)
    | (with_reducible apply Within.snd <;> [with_reducible assumption; skip])
    | (with_reducible apply Within.fst <;> [with_reducible assumption; skip])
    | (with_reducible apply Within.fst2 <;> [with_reducible assumption; skip])
    | split

theorem refuseRow_within {M : Nat} {s0 : State} (hM : Sub 0x310000891 M) (s : State) (die : Nat) (t : BulkTag) (src : Source) (tag cause : Nat) (hW : Within M s0 s) : Within M s0 (refuseRow s die t src tag cause) := by
  unfold refuseRow
  repeat' first
    | with_reducible assumption
    | (intro x
       first
         | (have hx : Within M s0 x := by
              unfold x
              repeat' first
                | with_reducible assumption
                | dsimp -zeta only
                | with_reducible apply Within.ite1
                | with_reducible apply Within.ite2
                | with_reducible apply Within.ite
                | with_reducible apply postedDrop_within (Sub.up hM rfl)
                | with_reducible apply refuseStrand_within (Sub.up hM rfl)
                | with_reducible apply answerWrite_within (Sub.up hM rfl)
                | (with_reducible apply Within.snd <;> [with_reducible assumption; skip])
                | (with_reducible apply Within.fst <;> [with_reducible assumption; skip])
                | (with_reducible apply Within.fst2 <;> [with_reducible assumption; skip])
                | split)
         | (have hx : Within M s0 x.1 := by
              unfold x
              repeat' first
                | with_reducible assumption
                | dsimp -zeta only
                | with_reducible apply Within.ite1
                | with_reducible apply Within.ite2
                | with_reducible apply Within.ite
                | with_reducible apply postedDrop_within (Sub.up hM rfl)
                | with_reducible apply refuseStrand_within (Sub.up hM rfl)
                | with_reducible apply answerWrite_within (Sub.up hM rfl)
                | (with_reducible apply Within.snd <;> [with_reducible assumption; skip])
                | (with_reducible apply Within.fst <;> [with_reducible assumption; skip])
                | (with_reducible apply Within.fst2 <;> [with_reducible assumption; skip])
                | split)
         | (have hx : Within M s0 x.2 := by
              unfold x
              repeat' first
                | with_reducible assumption
                | dsimp -zeta only
                | with_reducible apply Within.ite1
                | with_reducible apply Within.ite2
                | with_reducible apply Within.ite
                | with_reducible apply postedDrop_within (Sub.up hM rfl)
                | with_reducible apply refuseStrand_within (Sub.up hM rfl)
                | with_reducible apply answerWrite_within (Sub.up hM rfl)
                | (with_reducible apply Within.snd <;> [with_reducible assumption; skip])
                | (with_reducible apply Within.fst <;> [with_reducible assumption; skip])
                | (with_reducible apply Within.fst2 <;> [with_reducible assumption; skip])
                | split)
         | skip
       clear_value x)
    | lift_lets -underBinder
    | dsimp -zeta only
    | with_reducible apply Within.ite1
    | with_reducible apply Within.ite2
    | with_reducible apply Within.ite
    | with_reducible apply postedDrop_within (Sub.up hM rfl)
    | with_reducible apply refuseStrand_within (Sub.up hM rfl)
    | with_reducible apply answerWrite_within (Sub.up hM rfl)
    | (with_reducible apply Within.snd <;> [with_reducible assumption; skip])
    | (with_reducible apply Within.fst <;> [with_reducible assumption; skip])
    | (with_reducible apply Within.fst2 <;> [with_reducible assumption; skip])
    | split

theorem execBulkWrite_within {M : Nat} {s0 : State} (hM : Sub 0x710000fdb M) (t : BulkTag) (src : Source) (tag : TagId) (target : WriteTarget) (data : List Byte) (o : WriteOutcome) (s : State) (hW : Within M s0 s) :
    ∃ u, execBulkWrite t src tag target data o s = .next u ∧ Within M s0 u := by
  unfold execBulkWrite
  refine ⟨_, rfl, ?_⟩
  repeat' first
    | with_reducible assumption
    | (intro x
       first
         | (have hx : Within M s0 x := by
              unfold x
              repeat' first
                | with_reducible assumption
                | dsimp -zeta only
                | with_reducible apply Within.ite1
                | with_reducible apply Within.ite2
                | with_reducible apply Within.ite
                | with_reducible apply emit_within (Sub.up hM rfl)
                | with_reducible apply askHost_within (Sub.up hM rfl)
                | with_reducible apply writeLine_within (Sub.up hM rfl)
                | with_reducible apply mirrorWrite_within (Sub.up hM rfl)
                | with_reducible apply ingressRow_within (Sub.up hM rfl)
                | with_reducible apply windowStore_within (Sub.up hM rfl)
                | with_reducible apply foreignRow_within (Sub.up hM rfl)
                | with_reducible apply answerWrite_within (Sub.up hM rfl)
                | with_reducible apply writeEvents_within (Sub.up hM rfl)
                | with_reducible apply refuseRow_within (Sub.up hM rfl)
                | with_reducible refine onBulk_within (Sub.up hM rfl) (fun _ _ => ?_) ?_
                | (with_reducible apply Within.snd <;> [with_reducible assumption; skip])
                | (with_reducible apply Within.fst <;> [with_reducible assumption; skip])
                | (with_reducible apply Within.fst2 <;> [with_reducible assumption; skip])
                | split)
         | (have hx : Within M s0 x.1 := by
              unfold x
              repeat' first
                | with_reducible assumption
                | dsimp -zeta only
                | with_reducible apply Within.ite1
                | with_reducible apply Within.ite2
                | with_reducible apply Within.ite
                | with_reducible apply emit_within (Sub.up hM rfl)
                | with_reducible apply askHost_within (Sub.up hM rfl)
                | with_reducible apply writeLine_within (Sub.up hM rfl)
                | with_reducible apply mirrorWrite_within (Sub.up hM rfl)
                | with_reducible apply ingressRow_within (Sub.up hM rfl)
                | with_reducible apply windowStore_within (Sub.up hM rfl)
                | with_reducible apply foreignRow_within (Sub.up hM rfl)
                | with_reducible apply answerWrite_within (Sub.up hM rfl)
                | with_reducible apply writeEvents_within (Sub.up hM rfl)
                | with_reducible apply refuseRow_within (Sub.up hM rfl)
                | with_reducible refine onBulk_within (Sub.up hM rfl) (fun _ _ => ?_) ?_
                | (with_reducible apply Within.snd <;> [with_reducible assumption; skip])
                | (with_reducible apply Within.fst <;> [with_reducible assumption; skip])
                | (with_reducible apply Within.fst2 <;> [with_reducible assumption; skip])
                | split)
         | (have hx : Within M s0 x.2 := by
              unfold x
              repeat' first
                | with_reducible assumption
                | dsimp -zeta only
                | with_reducible apply Within.ite1
                | with_reducible apply Within.ite2
                | with_reducible apply Within.ite
                | with_reducible apply emit_within (Sub.up hM rfl)
                | with_reducible apply askHost_within (Sub.up hM rfl)
                | with_reducible apply writeLine_within (Sub.up hM rfl)
                | with_reducible apply mirrorWrite_within (Sub.up hM rfl)
                | with_reducible apply ingressRow_within (Sub.up hM rfl)
                | with_reducible apply windowStore_within (Sub.up hM rfl)
                | with_reducible apply foreignRow_within (Sub.up hM rfl)
                | with_reducible apply answerWrite_within (Sub.up hM rfl)
                | with_reducible apply writeEvents_within (Sub.up hM rfl)
                | with_reducible apply refuseRow_within (Sub.up hM rfl)
                | with_reducible refine onBulk_within (Sub.up hM rfl) (fun _ _ => ?_) ?_
                | (with_reducible apply Within.snd <;> [with_reducible assumption; skip])
                | (with_reducible apply Within.fst <;> [with_reducible assumption; skip])
                | (with_reducible apply Within.fst2 <;> [with_reducible assumption; skip])
                | split)
         | skip
       clear_value x)
    | lift_lets -underBinder
    | dsimp -zeta only
    | with_reducible apply Within.ite1
    | with_reducible apply Within.ite2
    | with_reducible apply Within.ite
    | with_reducible apply emit_within (Sub.up hM rfl)
    | with_reducible apply askHost_within (Sub.up hM rfl)
    | with_reducible apply writeLine_within (Sub.up hM rfl)
    | with_reducible apply mirrorWrite_within (Sub.up hM rfl)
    | with_reducible apply ingressRow_within (Sub.up hM rfl)
    | with_reducible apply windowStore_within (Sub.up hM rfl)
    | with_reducible apply foreignRow_within (Sub.up hM rfl)
    | with_reducible apply answerWrite_within (Sub.up hM rfl)
    | with_reducible apply writeEvents_within (Sub.up hM rfl)
    | with_reducible apply refuseRow_within (Sub.up hM rfl)
    | with_reducible refine onBulk_within (Sub.up hM rfl) (fun _ _ => ?_) ?_
    | (with_reducible apply Within.snd <;> [with_reducible assumption; skip])
    | (with_reducible apply Within.fst <;> [with_reducible assumption; skip])
    | (with_reducible apply Within.fst2 <;> [with_reducible assumption; skip])
    | split

theorem accumulateAt_within {M : Nat} {s0 : State} (hM : Sub 0x3100008d3 M) (s : State) (c w row off : Nat) (src : Source) (data : List Byte) (hW : Within M s0 s) : Within M s0 (accumulateAt s c w row off src data).1 := by
  unfold accumulateAt
  repeat' first
    | with_reducible assumption
    | (intro x
       first
         | (have hx : Within M s0 x := by
              unfold x
              repeat' first
                | with_reducible assumption
                | dsimp -zeta only
                | with_reducible apply Within.ite1
                | with_reducible apply Within.ite2
                | with_reducible apply Within.ite
                | with_reducible apply recordNack_within (Sub.up hM rfl)
                | with_reducible apply addWindow_within (Sub.up hM rfl)
                | (with_reducible apply Within.snd <;> [with_reducible assumption; skip])
                | (with_reducible apply Within.fst <;> [with_reducible assumption; skip])
                | (with_reducible apply Within.fst2 <;> [with_reducible assumption; skip])
                | split)
         | (have hx : Within M s0 x.1 := by
              unfold x
              repeat' first
                | with_reducible assumption
                | dsimp -zeta only
                | with_reducible apply Within.ite1
                | with_reducible apply Within.ite2
                | with_reducible apply Within.ite
                | with_reducible apply recordNack_within (Sub.up hM rfl)
                | with_reducible apply addWindow_within (Sub.up hM rfl)
                | (with_reducible apply Within.snd <;> [with_reducible assumption; skip])
                | (with_reducible apply Within.fst <;> [with_reducible assumption; skip])
                | (with_reducible apply Within.fst2 <;> [with_reducible assumption; skip])
                | split)
         | (have hx : Within M s0 x.2 := by
              unfold x
              repeat' first
                | with_reducible assumption
                | dsimp -zeta only
                | with_reducible apply Within.ite1
                | with_reducible apply Within.ite2
                | with_reducible apply Within.ite
                | with_reducible apply recordNack_within (Sub.up hM rfl)
                | with_reducible apply addWindow_within (Sub.up hM rfl)
                | (with_reducible apply Within.snd <;> [with_reducible assumption; skip])
                | (with_reducible apply Within.fst <;> [with_reducible assumption; skip])
                | (with_reducible apply Within.fst2 <;> [with_reducible assumption; skip])
                | split)
         | skip
       clear_value x)
    | lift_lets -underBinder
    | dsimp -zeta only
    | with_reducible apply Within.ite1
    | with_reducible apply Within.ite2
    | with_reducible apply Within.ite
    | with_reducible apply recordNack_within (Sub.up hM rfl)
    | with_reducible apply addWindow_within (Sub.up hM rfl)
    | (with_reducible apply Within.snd <;> [with_reducible assumption; skip])
    | (with_reducible apply Within.fst <;> [with_reducible assumption; skip])
    | (with_reducible apply Within.fst2 <;> [with_reducible assumption; skip])
    | split

theorem execAccumulateWrite_within {M : Nat} {s0 : State} (hM : Sub 0x710000fdb M) (t : BulkTag) (src : Source) (tag : TagId) (target : WriteTarget) (off : Nat) (data : List Byte) (s : State) (hW : Within M s0 s) :
    ∃ u, execAccumulateWrite t src tag target off data s = .next u ∧ Within M s0 u := by
  unfold execAccumulateWrite
  refine ⟨_, rfl, ?_⟩
  repeat' first
    | with_reducible assumption
    | (intro x
       first
         | (have hx : Within M s0 x := by
              unfold x
              repeat' first
                | with_reducible assumption
                | dsimp -zeta only
                | with_reducible apply Within.ite1
                | with_reducible apply Within.ite2
                | with_reducible apply Within.ite
                | with_reducible apply bumpCore_within (Sub.up hM rfl)
                | with_reducible apply readMiss_within (Sub.up hM rfl)
                | with_reducible apply askHost_within (Sub.up hM rfl)
                | with_reducible apply writeLine_within (Sub.up hM rfl)
                | with_reducible apply recordNackAt_within (Sub.up hM rfl)
                | with_reducible apply foreignRow_within (Sub.up hM rfl)
                | with_reducible apply answerWrite_within (Sub.up hM rfl)
                | with_reducible apply refuseRow_within (Sub.up hM rfl)
                | with_reducible apply accumulateAt_within (Sub.up hM rfl)
                | with_reducible refine onBulk_within (Sub.up hM rfl) (fun _ _ => ?_) ?_
                | (with_reducible apply Within.snd <;> [with_reducible assumption; skip])
                | (with_reducible apply Within.fst <;> [with_reducible assumption; skip])
                | (with_reducible apply Within.fst2 <;> [with_reducible assumption; skip])
                | split)
         | (have hx : Within M s0 x.1 := by
              unfold x
              repeat' first
                | with_reducible assumption
                | dsimp -zeta only
                | with_reducible apply Within.ite1
                | with_reducible apply Within.ite2
                | with_reducible apply Within.ite
                | with_reducible apply bumpCore_within (Sub.up hM rfl)
                | with_reducible apply readMiss_within (Sub.up hM rfl)
                | with_reducible apply askHost_within (Sub.up hM rfl)
                | with_reducible apply writeLine_within (Sub.up hM rfl)
                | with_reducible apply recordNackAt_within (Sub.up hM rfl)
                | with_reducible apply foreignRow_within (Sub.up hM rfl)
                | with_reducible apply answerWrite_within (Sub.up hM rfl)
                | with_reducible apply refuseRow_within (Sub.up hM rfl)
                | with_reducible apply accumulateAt_within (Sub.up hM rfl)
                | with_reducible refine onBulk_within (Sub.up hM rfl) (fun _ _ => ?_) ?_
                | (with_reducible apply Within.snd <;> [with_reducible assumption; skip])
                | (with_reducible apply Within.fst <;> [with_reducible assumption; skip])
                | (with_reducible apply Within.fst2 <;> [with_reducible assumption; skip])
                | split)
         | (have hx : Within M s0 x.2 := by
              unfold x
              repeat' first
                | with_reducible assumption
                | dsimp -zeta only
                | with_reducible apply Within.ite1
                | with_reducible apply Within.ite2
                | with_reducible apply Within.ite
                | with_reducible apply bumpCore_within (Sub.up hM rfl)
                | with_reducible apply readMiss_within (Sub.up hM rfl)
                | with_reducible apply askHost_within (Sub.up hM rfl)
                | with_reducible apply writeLine_within (Sub.up hM rfl)
                | with_reducible apply recordNackAt_within (Sub.up hM rfl)
                | with_reducible apply foreignRow_within (Sub.up hM rfl)
                | with_reducible apply answerWrite_within (Sub.up hM rfl)
                | with_reducible apply refuseRow_within (Sub.up hM rfl)
                | with_reducible apply accumulateAt_within (Sub.up hM rfl)
                | with_reducible refine onBulk_within (Sub.up hM rfl) (fun _ _ => ?_) ?_
                | (with_reducible apply Within.snd <;> [with_reducible assumption; skip])
                | (with_reducible apply Within.fst <;> [with_reducible assumption; skip])
                | (with_reducible apply Within.fst2 <;> [with_reducible assumption; skip])
                | split)
         | skip
       clear_value x)
    | lift_lets -underBinder
    | dsimp -zeta only
    | with_reducible apply Within.ite1
    | with_reducible apply Within.ite2
    | with_reducible apply Within.ite
    | with_reducible apply bumpCore_within (Sub.up hM rfl)
    | with_reducible apply readMiss_within (Sub.up hM rfl)
    | with_reducible apply askHost_within (Sub.up hM rfl)
    | with_reducible apply writeLine_within (Sub.up hM rfl)
    | with_reducible apply recordNackAt_within (Sub.up hM rfl)
    | with_reducible apply foreignRow_within (Sub.up hM rfl)
    | with_reducible apply answerWrite_within (Sub.up hM rfl)
    | with_reducible apply refuseRow_within (Sub.up hM rfl)
    | with_reducible apply accumulateAt_within (Sub.up hM rfl)
    | with_reducible refine onBulk_within (Sub.up hM rfl) (fun _ _ => ?_) ?_
    | (with_reducible apply Within.snd <;> [with_reducible assumption; skip])
    | (with_reducible apply Within.fst <;> [with_reducible assumption; skip])
    | (with_reducible apply Within.fst2 <;> [with_reducible assumption; skip])
    | split

theorem execWriteAcknowledge_within {M : Nat} {s0 : State} (hM : Sub 0x3100008d3 M) (c : CoreId) (t : BulkTag) (tag : TagId) (s : State) (hW : Within M s0 s) :
    ∃ u, execWriteAcknowledge c t tag s = .next u ∧ Within M s0 u := by
  unfold execWriteAcknowledge
  refine ⟨_, rfl, ?_⟩
  repeat' first
    | with_reducible assumption
    | (intro x
       first
         | (have hx : Within M s0 x := by
              unfold x
              repeat' first
                | with_reducible assumption
                | with_reducible apply Within.ite
                | with_reducible apply bumpCore_within (Sub.up hM rfl)
                | with_reducible refine onBulk_within (Sub.up hM rfl) (fun _ _ => ?_) ?_
                | with_reducible apply freeTag_within (Sub.up hM rfl)
                | with_reducible apply tryCommit_within (Sub.up hM rfl)
                | with_reducible apply streamMoved_within (Sub.up hM rfl)
                | (with_reducible apply Within.snd <;> [with_reducible assumption; skip])
                | (with_reducible apply Within.fst <;> [with_reducible assumption; skip])
                | (with_reducible apply Within.fst2 <;> [with_reducible assumption; skip])
                | split)
         | skip
       clear_value x)
    | lift_lets -underBinder
    | with_reducible apply Within.ite
    | with_reducible apply bumpCore_within (Sub.up hM rfl)
    | with_reducible refine onBulk_within (Sub.up hM rfl) (fun _ _ => ?_) ?_
    | with_reducible apply freeTag_within (Sub.up hM rfl)
    | with_reducible apply tryCommit_within (Sub.up hM rfl)
    | with_reducible apply streamMoved_within (Sub.up hM rfl)
    | (with_reducible apply Within.snd <;> [with_reducible assumption; skip])
    | (with_reducible apply Within.fst <;> [with_reducible assumption; skip])
    | (with_reducible apply Within.fst2 <;> [with_reducible assumption; skip])
    | split

theorem execNegativeAcknowledge_within {M : Nat} {s0 : State} (hM : Sub 0x3100008d3 M) (c : CoreId) (t : BulkTag) (tag : TagId) (read abandoned : Bool) (s : State) (hW : Within M s0 s) :
    ∃ u, execNegativeAcknowledge c t tag read abandoned s = .next u ∧ Within M s0 u := by
  unfold execNegativeAcknowledge
  refine ⟨_, rfl, ?_⟩
  repeat' first
    | with_reducible assumption
    | (intro x
       first
         | (have hx : Within M s0 x := by
              unfold x
              repeat' first
                | with_reducible assumption
                | with_reducible apply Within.ite
                | with_reducible apply bumpCore_within (Sub.up hM rfl)
                | with_reducible refine onBulk_within (Sub.up hM rfl) (fun _ _ => ?_) ?_
                | with_reducible apply freeTag_within (Sub.up hM rfl)
                | with_reducible apply faultCore_within (Sub.up hM rfl)
                | (with_reducible apply Within.snd <;> [with_reducible assumption; skip])
                | (with_reducible apply Within.fst <;> [with_reducible assumption; skip])
                | (with_reducible apply Within.fst2 <;> [with_reducible assumption; skip])
                | split)
         | skip
       clear_value x)
    | lift_lets -underBinder
    | with_reducible apply Within.ite
    | with_reducible apply bumpCore_within (Sub.up hM rfl)
    | with_reducible refine onBulk_within (Sub.up hM rfl) (fun _ _ => ?_) ?_
    | with_reducible apply freeTag_within (Sub.up hM rfl)
    | with_reducible apply faultCore_within (Sub.up hM rfl)
    | (with_reducible apply Within.snd <;> [with_reducible assumption; skip])
    | (with_reducible apply Within.fst <;> [with_reducible assumption; skip])
    | (with_reducible apply Within.fst2 <;> [with_reducible assumption; skip])
    | split

theorem execRegisterRead_within {M : Nat} {s0 : State} (hM : Sub 0x100000001 M) (t : BulkTag) (off : BitVec 26) (s : State) (hW : Within M s0 s) :
    ∃ u, execRegisterRead t off s = .next u ∧ Within M s0 u := by
  unfold execRegisterRead
  refine ⟨_, rfl, ?_⟩
  repeat' first
    | with_reducible assumption
    | with_reducible apply sendBulk_within (Sub.up hM rfl)
    | with_reducible refine onBulk_within (Sub.up hM rfl) (fun _ _ => ?_) ?_

theorem execRegisterData_within {M : Nat} {s0 : State} (hM : Sub 0x300000001 M) (t : BulkTag) (dst : DieId) (value : Word) (s : State) (hW : Within M s0 s) :
    ∃ u, execRegisterData t dst value s = .next u ∧ Within M s0 u := by
  unfold execRegisterData
  refine ⟨_, rfl, ?_⟩
  repeat' first
    | with_reducible assumption
    | with_reducible apply emit_within (Sub.up hM rfl)
    | with_reducible refine onBulk_within (Sub.up hM rfl) (fun _ _ => ?_) ?_

theorem dropBulk_within {M : Nat} {s0 : State} (hM : Sub 0x100000000 M) (s : State) (src dst seq : Nat) (hW : Within M s0 s) : Within M s0 (dropBulk s src dst seq) := by
  unfold dropBulk
  repeat' first
    | with_reducible assumption
    | with_reducible refine Within.net ?_ (Sub.has hM rfl)

theorem noteDetour_within {M : Nat} {s0 : State} (hM : Sub 0x10 M) (s : State) (src dst : Nat) (type : BulkType) (tag : Nat) (hW : Within M s0 s) : Within M s0 (noteDetour s src dst type tag) := by
  unfold noteDetour
  repeat' first
    | with_reducible assumption
    | with_reducible apply noteCause_within (Sub.up hM rfl)
    | (with_reducible apply Within.snd <;> [with_reducible assumption; skip])
    | (with_reducible apply Within.fst <;> [with_reducible assumption; skip])
    | (with_reducible apply Within.fst2 <;> [with_reducible assumption; skip])
    | split

theorem execBulkPacketHop_within {M : Nat} {s0 : State} (hM : Sub 0x100000011 M) (router : MeshDie) (t : BulkTag) (dst : DieId) (type : BulkType) (gran : Fin 8) (vc1 : Bool) (s : State) (hW : Within M s0 s) :
    ∃ u, execBulkPacketHop router t dst type gran vc1 s = .next u ∧ Within M s0 u := by
  unfold execBulkPacketHop
  refine ⟨_, rfl, ?_⟩
  repeat' first
    | with_reducible assumption
    | (intro x
       first
         | (have hx : Within M s0 x := by
              unfold x
              repeat' first
                | with_reducible assumption
                | with_reducible apply Within.ite
                | with_reducible apply bump_within (Sub.up hM rfl)
                | with_reducible apply sendBulk_within (Sub.up hM rfl)
                | with_reducible apply dropBulk_within (Sub.up hM rfl)
                | with_reducible apply noteDetour_within (Sub.up hM rfl))
         | skip
       clear_value x)
    | lift_lets -underBinder
    | with_reducible apply Within.ite
    | with_reducible apply bump_within (Sub.up hM rfl)
    | with_reducible apply sendBulk_within (Sub.up hM rfl)
    | with_reducible apply dropBulk_within (Sub.up hM rfl)
    | with_reducible apply noteDetour_within (Sub.up hM rfl)

theorem execEndToEndAcknowledge_within {M : Nat} {s0 : State} (hM : Sub 0x100000000 M) (die peer : DieId) (base : Fin 65536) (bitmap : BitVec 32) (s : State) (hW : Within M s0 s) :
    ∃ u, execEndToEndAcknowledge die peer base bitmap s = .next u ∧ Within M s0 u := by
  unfold execEndToEndAcknowledge
  refine ⟨_, rfl, ?_⟩
  repeat' first
    | with_reducible assumption
    | (intro x
       first
         | (have hx : Within M s0 x := by
              unfold x
              repeat' first
                | with_reducible assumption
                | with_reducible refine Within.net ?_ (Sub.has hM rfl))
         | skip
       clear_value x)
    | lift_lets -underBinder
    | with_reducible refine Within.net ?_ (Sub.has hM rfl)

theorem execBulkResendTimeout_within {M : Nat} {s0 : State} (hM : Sub 0x100000011 M) (src dst : DieId) (seq : Fin 65536) (s : State) (hW : Within M s0 s) :
    ∃ u, execBulkResendTimeout src dst seq s = .next u ∧ Within M s0 u := by
  unfold execBulkResendTimeout
  refine ⟨_, rfl, ?_⟩
  repeat' first
    | with_reducible assumption
    | (intro x
       first
         | (have hx : Within M s0 x := by
              unfold x
              repeat' first
                | with_reducible assumption
                | dsimp -zeta only
                | with_reducible apply Within.ite1
                | with_reducible apply Within.ite2
                | with_reducible apply Within.ite
                | with_reducible apply bump_within (Sub.up hM rfl)
                | with_reducible apply noteDetour_within (Sub.up hM rfl)
                | (with_reducible apply Within.snd <;> [with_reducible assumption; skip])
                | (with_reducible apply Within.fst <;> [with_reducible assumption; skip])
                | (with_reducible apply Within.fst2 <;> [with_reducible assumption; skip])
                | split
                | with_reducible refine Within.net ?_ (Sub.has hM rfl))
         | (have hx : Within M s0 x.1 := by
              unfold x
              repeat' first
                | with_reducible assumption
                | dsimp -zeta only
                | with_reducible apply Within.ite1
                | with_reducible apply Within.ite2
                | with_reducible apply Within.ite
                | with_reducible apply bump_within (Sub.up hM rfl)
                | with_reducible apply noteDetour_within (Sub.up hM rfl)
                | (with_reducible apply Within.snd <;> [with_reducible assumption; skip])
                | (with_reducible apply Within.fst <;> [with_reducible assumption; skip])
                | (with_reducible apply Within.fst2 <;> [with_reducible assumption; skip])
                | split
                | with_reducible refine Within.net ?_ (Sub.has hM rfl))
         | (have hx : Within M s0 x.2 := by
              unfold x
              repeat' first
                | with_reducible assumption
                | dsimp -zeta only
                | with_reducible apply Within.ite1
                | with_reducible apply Within.ite2
                | with_reducible apply Within.ite
                | with_reducible apply bump_within (Sub.up hM rfl)
                | with_reducible apply noteDetour_within (Sub.up hM rfl)
                | (with_reducible apply Within.snd <;> [with_reducible assumption; skip])
                | (with_reducible apply Within.fst <;> [with_reducible assumption; skip])
                | (with_reducible apply Within.fst2 <;> [with_reducible assumption; skip])
                | split
                | with_reducible refine Within.net ?_ (Sub.has hM rfl))
         | skip
       clear_value x)
    | lift_lets -underBinder
    | dsimp -zeta only
    | with_reducible apply Within.ite1
    | with_reducible apply Within.ite2
    | with_reducible apply Within.ite
    | with_reducible apply bump_within (Sub.up hM rfl)
    | with_reducible apply noteDetour_within (Sub.up hM rfl)
    | (with_reducible apply Within.snd <;> [with_reducible assumption; skip])
    | (with_reducible apply Within.fst <;> [with_reducible assumption; skip])
    | (with_reducible apply Within.fst2 <;> [with_reducible assumption; skip])
    | split
    | with_reducible refine Within.net ?_ (Sub.has hM rfl)

end Sys2Proof.Machine
end

