-- ==== Sys2Proof/Laws/WithinLifelineOps.lean ====
section
/-! SUPPORT. What the operations and commands of Machine/LifelineOps can do to the state (Laws/Within). -/

namespace Sys2Proof.Machine

theorem llStore_within {M : Nat} {s0 : State} (hM : Sub 0x2 M) (s : State) (n : Nat) (hW : Within M s0 s) : Within M s0 (llStore s n) := by
  unfold llStore
  repeat' first
    | with_reducible assumption
    | with_reducible apply wr64_within (Sub.up hM rfl)
    | with_reducible refine each_within (fun _ _ _ => ?_) ?_

theorem setLl_within {M : Nat} {s0 : State} (hM : Sub 0x80002 M) (s : State) (n : Nat) (f : Lifeline → Lifeline) (hW : Within M s0 s) : Within M s0 (setLl s n f) := by
  unfold setLl
  repeat' first
    | with_reducible assumption
    | with_reducible apply updLifeline_within (Sub.up hM rfl)
    | with_reducible apply llStore_within (Sub.up hM rfl)

theorem postRecord_within {M : Nat} {s0 : State} (hM : Sub 0x7100e3fdb M) (s : State) (n off : Nat) (ws : List Nat) (hW : Within M s0 s) : Within M s0 (postRecord s n off ws) := by
  unfold postRecord
  repeat' first
    | with_reducible assumption
    | with_reducible apply postMsg_within (Sub.up hM rfl)

theorem releaseStep_within {M : Nat} {s0 : State} (hM : Sub 0x100000011 M) (s : State) (n : Nat) (hW : Within M s0 s) : Within M s0 (releaseStep s n) := by
  unfold releaseStep
  repeat' first
    | with_reducible assumption
    | with_reducible apply countMarker_within (Sub.up hM rfl)

theorem sendPayload_within {M : Nat} {s0 : State} (hM : Sub 0x7100e3fdb M) (s : State) (n va bytes : Nat) (hW : Within M s0 s) : Within M s0 (sendPayload s n va bytes) := by
  unfold sendPayload
  repeat' first
    | with_reducible assumption
    | (intro x
       first
         | (have hx : Within M s0 x := by
              unfold x
              repeat' first
                | with_reducible assumption
                | with_reducible apply bump_within (Sub.up hM rfl)
                | with_reducible apply postRecord_within (Sub.up hM rfl)
                | with_reducible refine each_within (fun _ _ _ => ?_) ?_
                | (with_reducible apply Within.snd <;> [with_reducible assumption; skip])
                | (with_reducible apply Within.fst <;> [with_reducible assumption; skip])
                | (with_reducible apply Within.fst2 <;> [with_reducible assumption; skip])
                | split)
         | skip
       clear_value x)
    | lift_lets -underBinder
    | with_reducible apply bump_within (Sub.up hM rfl)
    | with_reducible apply postRecord_within (Sub.up hM rfl)
    | with_reducible refine each_within (fun _ _ _ => ?_) ?_
    | (with_reducible apply Within.snd <;> [with_reducible assumption; skip])
    | (with_reducible apply Within.fst <;> [with_reducible assumption; skip])
    | (with_reducible apply Within.fst2 <;> [with_reducible assumption; skip])
    | split

theorem sendOptimiser_within {M : Nat} {s0 : State} (hM : Sub 0x7100e3fdb M) (s : State) (n : Nat) (hW : Within M s0 s) : Within M s0 (sendOptimiser s n) := by
  unfold sendOptimiser
  repeat' first
    | with_reducible assumption
    | (intro x
       first
         | (have hx : Within M s0 x := by
              unfold x
              repeat' first
                | with_reducible assumption
                | with_reducible apply updLifeline_within (Sub.up hM rfl)
                | with_reducible apply sendPayload_within (Sub.up hM rfl))
         | skip
       clear_value x)
    | lift_lets -underBinder
    | with_reducible apply updLifeline_within (Sub.up hM rfl)
    | with_reducible apply sendPayload_within (Sub.up hM rfl)

theorem sendMark_within {M : Nat} {s0 : State} (hM : Sub 0x7100e3fdb M) (s : State) (n : Nat) (hW : Within M s0 s) : Within M s0 (sendMark s n) := by
  unfold sendMark
  repeat' first
    | with_reducible assumption
    | (intro x
       first
         | (have hx : Within M s0 x := by
              unfold x
              repeat' first
                | with_reducible assumption
                | with_reducible apply updLifeline_within (Sub.up hM rfl)
                | with_reducible apply postRecord_within (Sub.up hM rfl)
                | (with_reducible apply Within.snd <;> [with_reducible assumption; skip])
                | (with_reducible apply Within.fst <;> [with_reducible assumption; skip])
                | (with_reducible apply Within.fst2 <;> [with_reducible assumption; skip])
                | split)
         | skip
       clear_value x)
    | lift_lets -underBinder
    | with_reducible apply updLifeline_within (Sub.up hM rfl)
    | with_reducible apply postRecord_within (Sub.up hM rfl)
    | (with_reducible apply Within.snd <;> [with_reducible assumption; skip])
    | (with_reducible apply Within.fst <;> [with_reducible assumption; skip])
    | (with_reducible apply Within.fst2 <;> [with_reducible assumption; skip])
    | split

theorem stepStart_within {M : Nat} {s0 : State} (hM : Sub 0x7100e3fdb M) (s : State) (n step : Nat) (hW : Within M s0 s) : Within M s0 (stepStart s n step) := by
  unfold stepStart
  repeat' first
    | with_reducible assumption
    | (intro x
       first
         | (have hx : Within M s0 x := by
              unfold x
              repeat' first
                | with_reducible assumption
                | with_reducible apply Within.ite
                | with_reducible apply bump_within (Sub.up hM rfl)
                | with_reducible apply updStrand_within (Sub.up hM rfl)
                | with_reducible apply updLifeline_within (Sub.up hM rfl)
                | with_reducible apply setLl_within (Sub.up hM rfl)
                | with_reducible apply releaseStep_within (Sub.up hM rfl)
                | with_reducible apply sendOptimiser_within (Sub.up hM rfl)
                | with_reducible apply sendMark_within (Sub.up hM rfl)
                | (with_reducible apply Within.snd <;> [with_reducible assumption; skip])
                | (with_reducible apply Within.fst <;> [with_reducible assumption; skip])
                | (with_reducible apply Within.fst2 <;> [with_reducible assumption; skip])
                | split)
         | skip
       clear_value x)
    | lift_lets -underBinder
    | with_reducible apply Within.ite
    | with_reducible apply bump_within (Sub.up hM rfl)
    | with_reducible apply updStrand_within (Sub.up hM rfl)
    | with_reducible apply updLifeline_within (Sub.up hM rfl)
    | with_reducible apply setLl_within (Sub.up hM rfl)
    | with_reducible apply releaseStep_within (Sub.up hM rfl)
    | with_reducible apply sendOptimiser_within (Sub.up hM rfl)
    | with_reducible apply sendMark_within (Sub.up hM rfl)
    | (with_reducible apply Within.snd <;> [with_reducible assumption; skip])
    | (with_reducible apply Within.fst <;> [with_reducible assumption; skip])
    | (with_reducible apply Within.fst2 <;> [with_reducible assumption; skip])
    | split

end Sys2Proof.Machine
end

