-- ==== Sys2Proof/Laws/WithinHstOps.lean ====
section
/-! SUPPORT. What the operations and commands of Machine/HstOps can do to the state (Laws/Within). -/

namespace Sys2Proof.Machine

theorem hstBack_within {M : Nat} {s0 : State} (hM : Sub 0x2 M) (s : State) (n : Nat) (hW : Within M s0 s) : Within M s0 (hstBack s n) := by
  unfold hstBack
  repeat' first
    | with_reducible assumption
    | with_reducible apply wr64_within (Sub.up hM rfl)
    | (with_reducible apply Within.snd <;> [with_reducible assumption; skip])
    | (with_reducible apply Within.fst <;> [with_reducible assumption; skip])
    | (with_reducible apply Within.fst2 <;> [with_reducible assumption; skip])
    | split

theorem hstTouch_within {M : Nat} {s0 : State} (hM : Sub 0x82 M) (s : State) (n : Nat) (hW : Within M s0 s) : Within M s0 (hstTouch s n) := by
  unfold hstTouch
  repeat' first
    | with_reducible assumption
    | (intro x
       first
         | (have hx : Within M s0 x := by
              unfold x
              repeat' first
                | with_reducible assumption
                | with_reducible apply hstBack_within (Sub.up hM rfl)
                | with_reducible refine each_within (fun _ _ _ => ?_) ?_
                | with_reducible refine Within.hst ?_ (Sub.has hM rfl))
         | skip
       clear_value x)
    | lift_lets -underBinder
    | with_reducible apply hstBack_within (Sub.up hM rfl)
    | with_reducible refine each_within (fun _ _ _ => ?_) ?_
    | with_reducible refine Within.hst ?_ (Sub.has hM rfl)

theorem endedTask_within {M : Nat} {s0 : State} (hM : Sub 0x80 M) (s : State) (q seq : Nat) (w : List Nat) (status info : Nat) (hW : Within M s0 s) : Within M s0 (endedTask s q seq w status info) := by
  unfold endedTask
  repeat' first
    | with_reducible assumption
    | with_reducible apply setSlot_within (Sub.up hM rfl)
    | (with_reducible apply Within.snd <;> [with_reducible assumption; skip])
    | (with_reducible apply Within.fst <;> [with_reducible assumption; skip])
    | (with_reducible apply Within.fst2 <;> [with_reducible assumption; skip])
    | split
    | with_reducible refine Within.hst ?_ (Sub.has hM rfl)

theorem refuseTask_within {M : Nat} {s0 : State} (hM : Sub 0x81 M) (s : State) (q seq : Nat) (w : List Nat) (status : Nat) (hW : Within M s0 s) : Within M s0 (refuseTask s q seq w status) := by
  unfold refuseTask
  repeat' first
    | with_reducible assumption
    | with_reducible apply bump_within (Sub.up hM rfl)
    | with_reducible apply endedTask_within (Sub.up hM rfl)

theorem settleRefused_within {M : Nat} {s0 : State} (hM : Sub 0x80 M) (s : State) (hW : Within M s0 s) : Within M s0 (settleRefused s) := by
  unfold settleRefused
  repeat' first
    | with_reducible assumption
    | with_reducible apply endedTask_within (Sub.up hM rfl)
    | with_reducible refine each_within (fun _ _ _ => ?_) ?_
    | with_reducible refine Within.hst ?_ (Sub.has hM rfl)

theorem setFetched_within {M : Nat} {s0 : State} (hM : Sub 0x80 M) (s : State) (q : Nat) (l : List Desc) (hW : Within M s0 s) : Within M s0 (setFetched s q l) := by
  unfold setFetched
  repeat' first
    | with_reducible assumption
    | with_reducible refine Within.hst ?_ (Sub.has hM rfl)

theorem noteHold_within {M : Nat} {s0 : State} (hM : Sub 0x80 M) (s : State) (q n : Nat) (hW : Within M s0 s) : Within M s0 (noteHold s q n) := by
  unfold noteHold
  repeat' first
    | with_reducible assumption
    | with_reducible refine Within.hst ?_ (Sub.has hM rfl)

theorem leaveWaits_within {M : Nat} {s0 : State} (hM : Sub 0x80 M) (s : State) (q : Nat) (hW : Within M s0 s) : Within M s0 (leaveWaits s q) := by
  unfold leaveWaits
  repeat' first
    | with_reducible assumption
    | (intro x
       first
         | (have hx : Within M s0 x := by
              unfold x
              repeat' first
                | with_reducible assumption
                | dsimp -zeta only
                | with_reducible apply Within.ite1
                | with_reducible apply Within.ite2
                | with_reducible apply Within.ite
                | (with_reducible apply Within.snd <;> [with_reducible assumption; skip])
                | (with_reducible apply Within.fst <;> [with_reducible assumption; skip])
                | (with_reducible apply Within.fst2 <;> [with_reducible assumption; skip])
                | split
                | with_reducible refine Within.hst ?_ (Sub.has hM rfl))
         | (have hx : Within M s0 x.1 := by
              unfold x
              repeat' first
                | with_reducible assumption
                | dsimp -zeta only
                | with_reducible apply Within.ite1
                | with_reducible apply Within.ite2
                | with_reducible apply Within.ite
                | (with_reducible apply Within.snd <;> [with_reducible assumption; skip])
                | (with_reducible apply Within.fst <;> [with_reducible assumption; skip])
                | (with_reducible apply Within.fst2 <;> [with_reducible assumption; skip])
                | split
                | with_reducible refine Within.hst ?_ (Sub.has hM rfl))
         | (have hx : Within M s0 x.2 := by
              unfold x
              repeat' first
                | with_reducible assumption
                | dsimp -zeta only
                | with_reducible apply Within.ite1
                | with_reducible apply Within.ite2
                | with_reducible apply Within.ite
                | (with_reducible apply Within.snd <;> [with_reducible assumption; skip])
                | (with_reducible apply Within.fst <;> [with_reducible assumption; skip])
                | (with_reducible apply Within.fst2 <;> [with_reducible assumption; skip])
                | split
                | with_reducible refine Within.hst ?_ (Sub.has hM rfl))
         | skip
       clear_value x)
    | lift_lets -underBinder
    | dsimp -zeta only
    | with_reducible apply Within.ite1
    | with_reducible apply Within.ite2
    | with_reducible apply Within.ite
    | (with_reducible apply Within.snd <;> [with_reducible assumption; skip])
    | (with_reducible apply Within.fst <;> [with_reducible assumption; skip])
    | (with_reducible apply Within.fst2 <;> [with_reducible assumption; skip])
    | split
    | with_reducible refine Within.hst ?_ (Sub.has hM rfl)

theorem takeFront_within {M : Nat} {s0 : State} (hM : Sub 0x7100e3fdb M) (s : State) (q : Nat) (d : Desc) (hW : Within M s0 s) : Within M s0 (takeFront s q d) := by
  unfold takeFront
  repeat' first
    | with_reducible assumption
    | (intro x
       first
         | (have hx : Within M s0 x := by
              unfold x
              repeat' first
                | with_reducible assumption
                | dsimp -zeta only
                | with_reducible apply Within.ite1
                | with_reducible apply Within.ite2
                | with_reducible apply Within.ite
                | with_reducible apply bump_within (Sub.up hM rfl)
                | with_reducible apply stepStart_within (Sub.up hM rfl)
                | with_reducible apply hstTouch_within (Sub.up hM rfl)
                | with_reducible apply setFetched_within (Sub.up hM rfl)
                | with_reducible apply leaveWaits_within (Sub.up hM rfl)
                | (with_reducible apply Within.snd <;> [with_reducible assumption; skip])
                | (with_reducible apply Within.fst <;> [with_reducible assumption; skip])
                | (with_reducible apply Within.fst2 <;> [with_reducible assumption; skip])
                | split)
         | (have hx : Within M s0 x.1 := by
              unfold x
              repeat' first
                | with_reducible assumption
                | dsimp -zeta only
                | with_reducible apply Within.ite1
                | with_reducible apply Within.ite2
                | with_reducible apply Within.ite
                | with_reducible apply bump_within (Sub.up hM rfl)
                | with_reducible apply stepStart_within (Sub.up hM rfl)
                | with_reducible apply hstTouch_within (Sub.up hM rfl)
                | with_reducible apply setFetched_within (Sub.up hM rfl)
                | with_reducible apply leaveWaits_within (Sub.up hM rfl)
                | (with_reducible apply Within.snd <;> [with_reducible assumption; skip])
                | (with_reducible apply Within.fst <;> [with_reducible assumption; skip])
                | (with_reducible apply Within.fst2 <;> [with_reducible assumption; skip])
                | split)
         | (have hx : Within M s0 x.2 := by
              unfold x
              repeat' first
                | with_reducible assumption
                | dsimp -zeta only
                | with_reducible apply Within.ite1
                | with_reducible apply Within.ite2
                | with_reducible apply Within.ite
                | with_reducible apply bump_within (Sub.up hM rfl)
                | with_reducible apply stepStart_within (Sub.up hM rfl)
                | with_reducible apply hstTouch_within (Sub.up hM rfl)
                | with_reducible apply setFetched_within (Sub.up hM rfl)
                | with_reducible apply leaveWaits_within (Sub.up hM rfl)
                | (with_reducible apply Within.snd <;> [with_reducible assumption; skip])
                | (with_reducible apply Within.fst <;> [with_reducible assumption; skip])
                | (with_reducible apply Within.fst2 <;> [with_reducible assumption; skip])
                | split)
         | skip
       clear_value x)
    | lift_lets -underBinder
    | dsimp -zeta only
    | with_reducible apply Within.ite1
    | with_reducible apply Within.ite2
    | with_reducible apply Within.ite
    | with_reducible apply bump_within (Sub.up hM rfl)
    | with_reducible apply stepStart_within (Sub.up hM rfl)
    | with_reducible apply hstTouch_within (Sub.up hM rfl)
    | with_reducible apply setFetched_within (Sub.up hM rfl)
    | with_reducible apply leaveWaits_within (Sub.up hM rfl)
    | (with_reducible apply Within.snd <;> [with_reducible assumption; skip])
    | (with_reducible apply Within.fst <;> [with_reducible assumption; skip])
    | (with_reducible apply Within.fst2 <;> [with_reducible assumption; skip])
    | split

theorem sendDispatch_within {M : Nat} {s0 : State} (hM : Sub 0x100000000 M) (s : State) (k : Nat) (hW : Within M s0 s) : Within M s0 (sendDispatch s k) := by
  unfold sendDispatch
  repeat' first
    | with_reducible assumption
    | (intro x
       first
         | (have hx : Within M s0 x := by
              unfold x
              repeat' first
                | with_reducible assumption
                | with_reducible apply sendChain_within (Sub.up hM rfl)
                | with_reducible refine each_within (fun _ _ _ => ?_) ?_)
         | skip
       clear_value x)
    | lift_lets -underBinder
    | with_reducible apply sendChain_within (Sub.up hM rfl)
    | with_reducible refine each_within (fun _ _ _ => ?_) ?_

theorem takeTokens_within {M : Nat} {s0 : State} (hM : Sub 0x710000f8b M) (s : State) (n : Nat) (t shape : List Nat) (hW : Within M s0 s) : Within M s0 (takeTokens s n t shape).1 := by
  unfold takeTokens
  repeat' first
    | with_reducible assumption
    | (intro x
       first
         | (have hx : Within M s0 x := by
              unfold x
              repeat' first
                | with_reducible assumption
                | dsimp -zeta only
                | with_reducible apply Within.ite1
                | with_reducible apply Within.ite2
                | with_reducible apply Within.ite
                | with_reducible apply wr64_within (Sub.up hM rfl)
                | with_reducible apply getLine_within (Sub.up hM rfl)
                | (with_reducible apply Within.snd <;> [with_reducible assumption; skip])
                | (with_reducible apply Within.fst <;> [with_reducible assumption; skip])
                | (with_reducible apply Within.fst2 <;> [with_reducible assumption; skip])
                | split)
         | (have hx : Within M s0 x.1 := by
              unfold x
              repeat' first
                | with_reducible assumption
                | dsimp -zeta only
                | with_reducible apply Within.ite1
                | with_reducible apply Within.ite2
                | with_reducible apply Within.ite
                | with_reducible apply wr64_within (Sub.up hM rfl)
                | with_reducible apply getLine_within (Sub.up hM rfl)
                | (with_reducible apply Within.snd <;> [with_reducible assumption; skip])
                | (with_reducible apply Within.fst <;> [with_reducible assumption; skip])
                | (with_reducible apply Within.fst2 <;> [with_reducible assumption; skip])
                | split)
         | (have hx : Within M s0 x.2 := by
              unfold x
              repeat' first
                | with_reducible assumption
                | dsimp -zeta only
                | with_reducible apply Within.ite1
                | with_reducible apply Within.ite2
                | with_reducible apply Within.ite
                | with_reducible apply wr64_within (Sub.up hM rfl)
                | with_reducible apply getLine_within (Sub.up hM rfl)
                | (with_reducible apply Within.snd <;> [with_reducible assumption; skip])
                | (with_reducible apply Within.fst <;> [with_reducible assumption; skip])
                | (with_reducible apply Within.fst2 <;> [with_reducible assumption; skip])
                | split)
         | skip
       clear_value x)
    | lift_lets -underBinder
    | dsimp -zeta only
    | with_reducible apply Within.ite1
    | with_reducible apply Within.ite2
    | with_reducible apply Within.ite
    | with_reducible apply wr64_within (Sub.up hM rfl)
    | with_reducible apply getLine_within (Sub.up hM rfl)
    | (with_reducible apply Within.snd <;> [with_reducible assumption; skip])
    | (with_reducible apply Within.fst <;> [with_reducible assumption; skip])
    | (with_reducible apply Within.fst2 <;> [with_reducible assumption; skip])
    | split

theorem settleMasks_within {M : Nat} {s0 : State} (hM : Sub 0x80 M) (s : State) (hW : Within M s0 s) : Within M s0 (settleMasks s) := by
  unfold settleMasks
  repeat' first
    | with_reducible assumption
    | (intro x
       first
         | (have hx : Within M s0 x := by
              unfold x
              repeat' first
                | with_reducible assumption
                | with_reducible apply Within.ite
                | with_reducible apply updSlot_within (Sub.up hM rfl)
                | with_reducible refine each_within (fun _ _ _ => ?_) ?_
                | with_reducible refine Within.hst ?_ (Sub.has hM rfl))
         | skip
       clear_value x)
    | lift_lets -underBinder
    | with_reducible apply Within.ite
    | with_reducible apply updSlot_within (Sub.up hM rfl)
    | with_reducible refine each_within (fun _ _ _ => ?_) ?_
    | with_reducible refine Within.hst ?_ (Sub.has hM rfl)

theorem settleBarrier_within {M : Nat} {s0 : State} (hM : Sub 0x80 M) (s : State) (b : Nat) (hW : Within M s0 s) : Within M s0 (settleBarrier s b) := by
  unfold settleBarrier
  repeat' first
    | with_reducible assumption
    | (intro x
       first
         | (have hx : Within M s0 x := by
              unfold x
              repeat' first
                | with_reducible assumption
                | with_reducible apply Within.ite
                | with_reducible apply setSlot_within (Sub.up hM rfl)
                | with_reducible refine each_within (fun _ _ _ => ?_) ?_)
         | skip
       clear_value x)
    | lift_lets -underBinder
    | with_reducible apply Within.ite
    | with_reducible apply setSlot_within (Sub.up hM rfl)
    | with_reducible refine each_within (fun _ _ _ => ?_) ?_

theorem ringWrite_within {M : Nat} {s0 : State} (hM : Sub 0x200000002 M) (s : State) (a : Nat) (l : List Byte) (hW : Within M s0 s) : Within M s0 (ringWrite s a l) := by
  unfold ringWrite
  repeat' first
    | with_reducible assumption
    | with_reducible apply Within.ite
    | with_reducible apply emit_within (Sub.up hM rfl)
    | with_reducible apply wrBytes_within (Sub.up hM rfl)

theorem signalCq_within {M : Nat} {s0 : State} (hM : Sub 0x200000081 M) (s : State) (q : Nat) (hW : Within M s0 s) : Within M s0 (signalCq s q) := by
  unfold signalCq
  repeat' first
    | with_reducible assumption
    | (intro x
       first
         | (have hx : Within M s0 x := by
              unfold x
              repeat' first
                | with_reducible assumption
                | with_reducible apply Within.ite
                | with_reducible apply sendMsix_within (Sub.up hM rfl)
                | with_reducible refine Within.hst ?_ (Sub.has hM rfl))
         | skip
       clear_value x)
    | lift_lets -underBinder
    | with_reducible apply Within.ite
    | with_reducible apply sendMsix_within (Sub.up hM rfl)
    | with_reducible refine Within.hst ?_ (Sub.has hM rfl)

theorem aggregate_within {M : Nat} {s0 : State} (hM : Sub 0x200000081 M) (s : State) (q : Nat) (intr : Bool) (hW : Within M s0 s) : Within M s0 (aggregate s q intr) := by
  unfold aggregate
  repeat' first
    | with_reducible assumption
    | (intro x
       first
         | (have hx : Within M s0 x := by
              unfold x
              repeat' first
                | with_reducible assumption
                | with_reducible apply Within.ite
                | with_reducible apply signalCq_within (Sub.up hM rfl)
                | (with_reducible apply Within.snd <;> [with_reducible assumption; skip])
                | (with_reducible apply Within.fst <;> [with_reducible assumption; skip])
                | (with_reducible apply Within.fst2 <;> [with_reducible assumption; skip])
                | split
                | with_reducible refine Within.hst ?_ (Sub.has hM rfl))
         | skip
       clear_value x)
    | lift_lets -underBinder
    | with_reducible apply Within.ite
    | with_reducible apply signalCq_within (Sub.up hM rfl)
    | (with_reducible apply Within.snd <;> [with_reducible assumption; skip])
    | (with_reducible apply Within.fst <;> [with_reducible assumption; skip])
    | (with_reducible apply Within.fst2 <;> [with_reducible assumption; skip])
    | split
    | with_reducible refine Within.hst ?_ (Sub.has hM rfl)

theorem flushStrand_within {M : Nat} {s0 : State} (hM : Sub 0x2 M) (s : State) (n : Nat) (hW : Within M s0 s) : Within M s0 (flushStrand s n) := by
  unfold flushStrand
  repeat' first
    | with_reducible assumption
    | (intro x
       first
         | (have hx : Within M s0 x := by
              unfold x
              repeat' first
                | with_reducible assumption
                | with_reducible apply Within.ite
                | with_reducible apply lnkBack_within (Sub.up hM rfl)
                | with_reducible apply llStore_within (Sub.up hM rfl)
                | with_reducible apply hstBack_within (Sub.up hM rfl))
         | skip
       clear_value x)
    | lift_lets -underBinder
    | with_reducible apply Within.ite
    | with_reducible apply lnkBack_within (Sub.up hM rfl)
    | with_reducible apply llStore_within (Sub.up hM rfl)
    | with_reducible apply hstBack_within (Sub.up hM rfl)

theorem endRelease_within {M : Nat} {s0 : State} (hM : Sub 0x10082 M) (s : State) (n : Nat) (hW : Within M s0 s) : Within M s0 (endRelease s n) := by
  unfold endRelease
  repeat' first
    | with_reducible assumption
    | (intro x
       first
         | (have hx : Within M s0 x := by
              unfold x
              repeat' first
                | with_reducible assumption
                | with_reducible apply flushStrand_within (Sub.up hM rfl)
                | with_reducible refine Within.setHstLnkCache ?_ (Sub.has hM rfl) (Sub.has hM rfl)
                | with_reducible refine Within.hst ?_ (Sub.has hM rfl)
                | with_reducible refine Within.lnkCache ?_ (Sub.has hM rfl))
         | skip
       clear_value x)
    | lift_lets -underBinder
    | with_reducible apply flushStrand_within (Sub.up hM rfl)
    | with_reducible refine Within.setHstLnkCache ?_ (Sub.has hM rfl) (Sub.has hM rfl)
    | with_reducible refine Within.hst ?_ (Sub.has hM rfl)
    | with_reducible refine Within.lnkCache ?_ (Sub.has hM rfl)

theorem settleRelease_within {M : Nat} {s0 : State} (hM : Sub 0x10082 M) (s : State) (hW : Within M s0 s) : Within M s0 (settleRelease s) := by
  unfold settleRelease
  repeat' first
    | with_reducible assumption
    | with_reducible apply Within.ite
    | with_reducible apply endRelease_within (Sub.up hM rfl)
    | with_reducible refine each_within (fun _ _ _ => ?_) ?_

theorem forgetSlot_within {M : Nat} {s0 : State} (hM : Sub 0x40180 M) (s : State) (k seq : Nat) (hW : Within M s0 s) : Within M s0 (forgetSlot s k seq) := by
  unfold forgetSlot
  repeat' first
    | with_reducible assumption
    | (intro x
       first
         | (have hx : Within M s0 x := by
              unfold x
              repeat' first
                | with_reducible assumption
                | with_reducible apply Within.ite
                | with_reducible refine Within.setHstPostedCache ?_ (Sub.has hM rfl) (Sub.has hM rfl) (Sub.has hM rfl)
                | with_reducible refine Within.hst ?_ (Sub.has hM rfl)
                | with_reducible refine Within.cache ?_ (Sub.has hM rfl)
                | with_reducible refine Within.posted ?_ (Sub.has hM rfl))
         | skip
       clear_value x)
    | lift_lets -underBinder
    | with_reducible apply Within.ite
    | with_reducible refine Within.setHstPostedCache ?_ (Sub.has hM rfl) (Sub.has hM rfl) (Sub.has hM rfl)
    | with_reducible refine Within.hst ?_ (Sub.has hM rfl)
    | with_reducible refine Within.cache ?_ (Sub.has hM rfl)
    | with_reducible refine Within.posted ?_ (Sub.has hM rfl)

theorem openBytes_within {M : Nat} {s0 : State} (hM : Sub 0x400000002 M) (s : State) (p : Place) (a n : Nat) (hW : Within M s0 s) : Within M s0 (openBytes s p a n) := by
  unfold openBytes
  exact each_within (fun t _ ht => placeWrite_within (Sub.up hM rfl) _ _ _ _ (freshFree_within (Sub.up hM rfl) t ht)) hW

theorem openRanges_within {M : Nat} {s0 : State} (hM : Sub 0x400000002 M) (s : State) (k : Nat) (hW : Within M s0 s) : Within M s0 (openRanges s k) := by
  unfold openRanges
  exact Within.ite (each_within (fun t _ ht => openBytes_within (Sub.up hM rfl) t _ _ _ ht) hW) hW

theorem openRows_within {M : Nat} {s0 : State} (hM : Sub 0x400000002 M) (s : State) (k c : Nat) (hW : Within M s0 s) : Within M s0 (openRows s k c) := by
  unfold openRows
  repeat' first
    | with_reducible assumption
    | (intro x
       first
         | (have hx : Within M s0 x := by
              unfold x
              repeat' first
                | with_reducible assumption
                | dsimp -zeta only
                | with_reducible apply Within.ite1
                | with_reducible apply Within.ite2
                | with_reducible apply Within.ite
                | with_reducible apply openBytes_within (Sub.up hM rfl)
                | with_reducible refine each_within (fun _ _ _ => ?_) ?_
                | (with_reducible apply Within.snd <;> [with_reducible assumption; skip])
                | (with_reducible apply Within.fst <;> [with_reducible assumption; skip])
                | (with_reducible apply Within.fst2 <;> [with_reducible assumption; skip])
                | split)
         | (have hx : Within M s0 x.1 := by
              unfold x
              repeat' first
                | with_reducible assumption
                | dsimp -zeta only
                | with_reducible apply Within.ite1
                | with_reducible apply Within.ite2
                | with_reducible apply Within.ite
                | with_reducible apply openBytes_within (Sub.up hM rfl)
                | with_reducible refine each_within (fun _ _ _ => ?_) ?_
                | (with_reducible apply Within.snd <;> [with_reducible assumption; skip])
                | (with_reducible apply Within.fst <;> [with_reducible assumption; skip])
                | (with_reducible apply Within.fst2 <;> [with_reducible assumption; skip])
                | split)
         | (have hx : Within M s0 x.2 := by
              unfold x
              repeat' first
                | with_reducible assumption
                | dsimp -zeta only
                | with_reducible apply Within.ite1
                | with_reducible apply Within.ite2
                | with_reducible apply Within.ite
                | with_reducible apply openBytes_within (Sub.up hM rfl)
                | with_reducible refine each_within (fun _ _ _ => ?_) ?_
                | (with_reducible apply Within.snd <;> [with_reducible assumption; skip])
                | (with_reducible apply Within.fst <;> [with_reducible assumption; skip])
                | (with_reducible apply Within.fst2 <;> [with_reducible assumption; skip])
                | split)
         | skip
       clear_value x)
    | lift_lets -underBinder
    | dsimp -zeta only
    | with_reducible apply Within.ite1
    | with_reducible apply Within.ite2
    | with_reducible apply Within.ite
    | with_reducible apply openBytes_within (Sub.up hM rfl)
    | with_reducible refine each_within (fun _ _ _ => ?_) ?_
    | (with_reducible apply Within.snd <;> [with_reducible assumption; skip])
    | (with_reducible apply Within.fst <;> [with_reducible assumption; skip])
    | (with_reducible apply Within.fst2 <;> [with_reducible assumption; skip])
    | split

theorem writeCompletion_within {M : Nat} {s0 : State} (hM : Sub 0x700050183 M) (s : State) (k : Nat) (hW : Within M s0 s) : Within M s0 (writeCompletion s k) := by
  unfold writeCompletion
  repeat' first
    | with_reducible assumption
    | (intro x
       first
         | (have hx : Within M s0 x := by
              unfold x
              repeat' first
                | with_reducible assumption
                | dsimp -zeta only
                | with_reducible apply Within.ite1
                | with_reducible apply Within.ite2
                | with_reducible apply Within.ite
                | with_reducible apply bump_within (Sub.up hM rfl)
                | with_reducible apply setField_within (Sub.up hM rfl)
                | with_reducible apply setSlot_within (Sub.up hM rfl)
                | with_reducible apply updStrand_within (Sub.up hM rfl)
                | with_reducible apply disarmSlot_within (Sub.up hM rfl)
                | with_reducible apply settleRefused_within (Sub.up hM rfl)
                | with_reducible apply settleMasks_within (Sub.up hM rfl)
                | with_reducible apply ringWrite_within (Sub.up hM rfl)
                | with_reducible apply aggregate_within (Sub.up hM rfl)
                | with_reducible apply settleRelease_within (Sub.up hM rfl)
                | with_reducible apply forgetSlot_within (Sub.up hM rfl)
                | with_reducible apply openRanges_within (Sub.up hM rfl)
                | (with_reducible apply Within.snd <;> [with_reducible assumption; skip])
                | (with_reducible apply Within.fst <;> [with_reducible assumption; skip])
                | (with_reducible apply Within.fst2 <;> [with_reducible assumption; skip])
                | split
                | with_reducible refine Within.hst ?_ (Sub.has hM rfl))
         | (have hx : Within M s0 x.1 := by
              unfold x
              repeat' first
                | with_reducible assumption
                | dsimp -zeta only
                | with_reducible apply Within.ite1
                | with_reducible apply Within.ite2
                | with_reducible apply Within.ite
                | with_reducible apply bump_within (Sub.up hM rfl)
                | with_reducible apply setField_within (Sub.up hM rfl)
                | with_reducible apply setSlot_within (Sub.up hM rfl)
                | with_reducible apply updStrand_within (Sub.up hM rfl)
                | with_reducible apply disarmSlot_within (Sub.up hM rfl)
                | with_reducible apply settleRefused_within (Sub.up hM rfl)
                | with_reducible apply settleMasks_within (Sub.up hM rfl)
                | with_reducible apply ringWrite_within (Sub.up hM rfl)
                | with_reducible apply aggregate_within (Sub.up hM rfl)
                | with_reducible apply settleRelease_within (Sub.up hM rfl)
                | with_reducible apply forgetSlot_within (Sub.up hM rfl)
                | with_reducible apply openRanges_within (Sub.up hM rfl)
                | (with_reducible apply Within.snd <;> [with_reducible assumption; skip])
                | (with_reducible apply Within.fst <;> [with_reducible assumption; skip])
                | (with_reducible apply Within.fst2 <;> [with_reducible assumption; skip])
                | split
                | with_reducible refine Within.hst ?_ (Sub.has hM rfl))
         | (have hx : Within M s0 x.2 := by
              unfold x
              repeat' first
                | with_reducible assumption
                | dsimp -zeta only
                | with_reducible apply Within.ite1
                | with_reducible apply Within.ite2
                | with_reducible apply Within.ite
                | with_reducible apply bump_within (Sub.up hM rfl)
                | with_reducible apply setField_within (Sub.up hM rfl)
                | with_reducible apply setSlot_within (Sub.up hM rfl)
                | with_reducible apply updStrand_within (Sub.up hM rfl)
                | with_reducible apply disarmSlot_within (Sub.up hM rfl)
                | with_reducible apply settleRefused_within (Sub.up hM rfl)
                | with_reducible apply settleMasks_within (Sub.up hM rfl)
                | with_reducible apply ringWrite_within (Sub.up hM rfl)
                | with_reducible apply aggregate_within (Sub.up hM rfl)
                | with_reducible apply settleRelease_within (Sub.up hM rfl)
                | with_reducible apply forgetSlot_within (Sub.up hM rfl)
                | with_reducible apply openRanges_within (Sub.up hM rfl)
                | (with_reducible apply Within.snd <;> [with_reducible assumption; skip])
                | (with_reducible apply Within.fst <;> [with_reducible assumption; skip])
                | (with_reducible apply Within.fst2 <;> [with_reducible assumption; skip])
                | split
                | with_reducible refine Within.hst ?_ (Sub.has hM rfl))
         | skip
       clear_value x)
    | lift_lets -underBinder
    | dsimp -zeta only
    | with_reducible apply Within.ite1
    | with_reducible apply Within.ite2
    | with_reducible apply Within.ite
    | with_reducible apply bump_within (Sub.up hM rfl)
    | with_reducible apply setField_within (Sub.up hM rfl)
    | with_reducible apply setSlot_within (Sub.up hM rfl)
    | with_reducible apply updStrand_within (Sub.up hM rfl)
    | with_reducible apply disarmSlot_within (Sub.up hM rfl)
    | with_reducible apply settleRefused_within (Sub.up hM rfl)
    | with_reducible apply settleMasks_within (Sub.up hM rfl)
    | with_reducible apply ringWrite_within (Sub.up hM rfl)
    | with_reducible apply aggregate_within (Sub.up hM rfl)
    | with_reducible apply settleRelease_within (Sub.up hM rfl)
    | with_reducible apply forgetSlot_within (Sub.up hM rfl)
    | with_reducible apply openRanges_within (Sub.up hM rfl)
    | (with_reducible apply Within.snd <;> [with_reducible assumption; skip])
    | (with_reducible apply Within.fst <;> [with_reducible assumption; skip])
    | (with_reducible apply Within.fst2 <;> [with_reducible assumption; skip])
    | split
    | with_reducible refine Within.hst ?_ (Sub.has hM rfl)

theorem proceed_within {M : Nat} {s0 : State} (hM : Sub 0x1000000a0 M) (s : State) (k : Nat) (hW : Within M s0 s) : Within M s0 (proceed s k) := by
  unfold proceed
  repeat' first
    | with_reducible assumption
    | (intro x
       first
         | (have hx : Within M s0 x := by
              unfold x
              repeat' first
                | with_reducible assumption
                | dsimp -zeta only
                | with_reducible apply Within.ite1
                | with_reducible apply Within.ite2
                | with_reducible apply Within.ite
                | with_reducible apply setSlot_within (Sub.up hM rfl)
                | with_reducible apply updCounter_within (Sub.up hM rfl)
                | with_reducible apply sendChain_within (Sub.up hM rfl)
                | with_reducible apply toCores_within (Sub.up hM rfl)
                | (with_reducible apply Within.snd <;> [with_reducible assumption; skip])
                | (with_reducible apply Within.fst <;> [with_reducible assumption; skip])
                | (with_reducible apply Within.fst2 <;> [with_reducible assumption; skip])
                | split)
         | (have hx : Within M s0 x.1 := by
              unfold x
              repeat' first
                | with_reducible assumption
                | dsimp -zeta only
                | with_reducible apply Within.ite1
                | with_reducible apply Within.ite2
                | with_reducible apply Within.ite
                | with_reducible apply setSlot_within (Sub.up hM rfl)
                | with_reducible apply updCounter_within (Sub.up hM rfl)
                | with_reducible apply sendChain_within (Sub.up hM rfl)
                | with_reducible apply toCores_within (Sub.up hM rfl)
                | (with_reducible apply Within.snd <;> [with_reducible assumption; skip])
                | (with_reducible apply Within.fst <;> [with_reducible assumption; skip])
                | (with_reducible apply Within.fst2 <;> [with_reducible assumption; skip])
                | split)
         | (have hx : Within M s0 x.2 := by
              unfold x
              repeat' first
                | with_reducible assumption
                | dsimp -zeta only
                | with_reducible apply Within.ite1
                | with_reducible apply Within.ite2
                | with_reducible apply Within.ite
                | with_reducible apply setSlot_within (Sub.up hM rfl)
                | with_reducible apply updCounter_within (Sub.up hM rfl)
                | with_reducible apply sendChain_within (Sub.up hM rfl)
                | with_reducible apply toCores_within (Sub.up hM rfl)
                | (with_reducible apply Within.snd <;> [with_reducible assumption; skip])
                | (with_reducible apply Within.fst <;> [with_reducible assumption; skip])
                | (with_reducible apply Within.fst2 <;> [with_reducible assumption; skip])
                | split)
         | skip
       clear_value x)
    | lift_lets -underBinder
    | dsimp -zeta only
    | with_reducible apply Within.ite1
    | with_reducible apply Within.ite2
    | with_reducible apply Within.ite
    | with_reducible apply setSlot_within (Sub.up hM rfl)
    | with_reducible apply updCounter_within (Sub.up hM rfl)
    | with_reducible apply sendChain_within (Sub.up hM rfl)
    | with_reducible apply toCores_within (Sub.up hM rfl)
    | (with_reducible apply Within.snd <;> [with_reducible assumption; skip])
    | (with_reducible apply Within.fst <;> [with_reducible assumption; skip])
    | (with_reducible apply Within.fst2 <;> [with_reducible assumption; skip])
    | split

end Sys2Proof.Machine
end

