-- ==== Sys2Proof/Laws/WithinHstTasks.lean ====
section
/-! SUPPORT. What the operations and commands of Machine/HstTasks can do to the state (Laws/Within). -/

namespace Sys2Proof.Machine

theorem tailDoorbell_within {M : Nat} {s0 : State} (hM : Sub 0x310000081 M) (s : State) (q v : Nat) (hW : Within M s0 s) : Within M s0 (tailDoorbell s q v) := by
  unfold tailDoorbell
  repeat' first
    | with_reducible assumption
    | (intro x
       first
         | (have hx : Within M s0 x := by
              unfold x
              repeat' first
                | with_reducible assumption
                | with_reducible apply Within.ite
                | with_reducible apply setField_within (Sub.up hM rfl)
                | with_reducible apply postedDrop_within (Sub.up hM rfl))
         | skip
       clear_value x)
    | lift_lets -underBinder
    | with_reducible apply Within.ite
    | with_reducible apply setField_within (Sub.up hM rfl)
    | with_reducible apply postedDrop_within (Sub.up hM rfl)

theorem headDoorbell_within {M : Nat} {s0 : State} (hM : Sub 0x310000081 M) (s : State) (q v : Nat) (hW : Within M s0 s) : Within M s0 (headDoorbell s q v) := by
  unfold headDoorbell
  repeat' first
    | with_reducible assumption
    | (intro x
       first
         | (have hx : Within M s0 x := by
              unfold x
              repeat' first
                | with_reducible assumption
                | with_reducible apply Within.ite
                | with_reducible apply setField_within (Sub.up hM rfl)
                | with_reducible apply postedDrop_within (Sub.up hM rfl)
                | with_reducible refine Within.hst ?_ (Sub.has hM rfl))
         | skip
       clear_value x)
    | lift_lets -underBinder
    | with_reducible apply Within.ite
    | with_reducible apply setField_within (Sub.up hM rfl)
    | with_reducible apply postedDrop_within (Sub.up hM rfl)
    | with_reducible refine Within.hst ?_ (Sub.has hM rfl)

theorem execSqTailDoorbell_within {M : Nat} {s0 : State} (hM : Sub 0x310000081 M) (q : HostQueue) (value : Word) (s : State) (hW : Within M s0 s) :
    ∃ u, execSqTailDoorbell q value s = .next u ∧ Within M s0 u := by
  unfold execSqTailDoorbell
  refine ⟨_, rfl, ?_⟩
  repeat' first
    | with_reducible assumption
    | with_reducible apply tailDoorbell_within (Sub.up hM rfl)

theorem execCqHeadDoorbell_within {M : Nat} {s0 : State} (hM : Sub 0x310000081 M) (q : HostQueue) (value : Word) (s : State) (hW : Within M s0 s) :
    ∃ u, execCqHeadDoorbell q value s = .next u ∧ Within M s0 u := by
  unfold execCqHeadDoorbell
  refine ⟨_, rfl, ?_⟩
  repeat' first
    | with_reducible assumption
    | with_reducible apply headDoorbell_within (Sub.up hM rfl)

theorem execDoorbell_within {M : Nat} {s0 : State} (hM : Sub 0x310000081 M) (f : Frame) (cqHead : Bool) (q : HostQueue) (value : BitVec 16) (s : State) (hW : Within M s0 s) :
    ∃ u, execDoorbell f cqHead q value s = .next u ∧ Within M s0 u := by
  unfold execDoorbell
  refine ⟨_, rfl, ?_⟩
  repeat' first
    | with_reducible assumption
    | with_reducible apply Within.ite
    | with_reducible refine onChain_within (Sub.up hM rfl) (fun _ _ => ?_) ?_
    | with_reducible apply tailDoorbell_within (Sub.up hM rfl)
    | with_reducible apply headDoorbell_within (Sub.up hM rfl)

theorem dropCancels_within {M : Nat} {s0 : State} (hM : Sub 0x80 M) (s : State) (q : Nat) (hW : Within M s0 s) : Within M s0 (dropCancels s q) := by
  unfold dropCancels
  lift_lets -underBinder
  intro rest
  clear_value rest
  with_reducible apply Within.ite
  · exact hW
  · exact Within.hst hW (Sub.has hM rfl)

theorem execQueuePairEnable_within {M : Nat} {s0 : State} (hM : Sub 0x81 M) (cq : Bool) (q : HostQueue) (value : Word) (s : State) (hW : Within M s0 s) :
    ∃ u, execQueuePairEnable cq q value s = .next u ∧ Within M s0 u := by
  unfold execQueuePairEnable
  refine ⟨_, rfl, ?_⟩
  repeat' first
    | with_reducible assumption
    | (intro x
       first
         | (have hx : Within M s0 x := by
              unfold x
              repeat' first
                | with_reducible assumption
                | with_reducible apply Within.ite
                | with_reducible apply setReg_within (Sub.up hM rfl)
                | with_reducible apply bump_within (Sub.up hM rfl)
                | with_reducible apply setField_within (Sub.up hM rfl)
                | with_reducible apply dropCancels_within (Sub.up hM rfl)
                | with_reducible refine Within.hst ?_ (Sub.has hM rfl))
         | skip
       clear_value x)
    | lift_lets -underBinder
    | with_reducible apply Within.ite
    | with_reducible apply setReg_within (Sub.up hM rfl)
    | with_reducible apply bump_within (Sub.up hM rfl)
    | with_reducible apply setField_within (Sub.up hM rfl)
    | with_reducible apply dropCancels_within (Sub.up hM rfl)
    | with_reducible refine Within.hst ?_ (Sub.has hM rfl)

theorem settleClosing_within {M : Nat} {s0 : State} (hM : Sub 0x81 M) (s : State) (hW : Within M s0 s) : Within M s0 (settleClosing s) := by
  unfold settleClosing
  repeat' first
    | with_reducible assumption
    | (intro x
       first
         | (have hx : Within M s0 x := by
              unfold x
              repeat' first
                | with_reducible assumption
                | with_reducible apply Within.ite
                | with_reducible apply setField_within (Sub.up hM rfl)
                | with_reducible apply dropCancels_within (Sub.up hM rfl)
                | with_reducible refine each_within (fun _ _ _ => ?_) ?_
                | with_reducible refine Within.hst ?_ (Sub.has hM rfl))
         | skip
       clear_value x)
    | lift_lets -underBinder
    | with_reducible apply Within.ite
    | with_reducible apply setField_within (Sub.up hM rfl)
    | with_reducible apply dropCancels_within (Sub.up hM rfl)
    | with_reducible refine each_within (fun _ _ _ => ?_) ?_
    | with_reducible refine Within.hst ?_ (Sub.has hM rfl)

theorem lookCancel_within {M : Nat} {s0 : State} (hM : Sub 0x80 M) (s : State) (q cmd : Nat) (hW : Within M s0 s) : Within M s0 (lookCancel s q cmd).1 := by
  unfold lookCancel
  repeat' first
    | with_reducible assumption
    | (intro x
       first
         | (have hx : Within M s0 x := by
              unfold x
              repeat' first
                | with_reducible assumption
                | dsimp -zeta only
                | with_reducible apply Within.ite1
                | with_reducible apply Within.ite
                | (with_reducible apply Within.snd <;> [with_reducible assumption; skip])
                | (with_reducible apply Within.fst <;> [with_reducible assumption; skip])
                | (with_reducible apply Within.fst2 <;> [with_reducible assumption; skip])
                | split
                | with_reducible refine Within.hst ?_ (Sub.has hM rfl))
         | (have hx : Within M s0 x.1 := by
              unfold x
              repeat' first
                | with_reducible assumption
                | dsimp -zeta only
                | with_reducible apply Within.ite1
                | with_reducible apply Within.ite
                | (with_reducible apply Within.snd <;> [with_reducible assumption; skip])
                | (with_reducible apply Within.fst <;> [with_reducible assumption; skip])
                | (with_reducible apply Within.fst2 <;> [with_reducible assumption; skip])
                | split
                | with_reducible refine Within.hst ?_ (Sub.has hM rfl))
         | (have hx : Within M s0 x.2 := by
              unfold x
              repeat' first
                | with_reducible assumption
                | dsimp -zeta only
                | with_reducible apply Within.ite1
                | with_reducible apply Within.ite
                | (with_reducible apply Within.snd <;> [with_reducible assumption; skip])
                | (with_reducible apply Within.fst <;> [with_reducible assumption; skip])
                | (with_reducible apply Within.fst2 <;> [with_reducible assumption; skip])
                | split
                | with_reducible refine Within.hst ?_ (Sub.has hM rfl))
         | skip
       clear_value x)
    | lift_lets -underBinder
    | dsimp -zeta only
    | with_reducible apply Within.ite1
    | with_reducible apply Within.ite
    | (with_reducible apply Within.snd <;> [with_reducible assumption; skip])
    | (with_reducible apply Within.fst <;> [with_reducible assumption; skip])
    | (with_reducible apply Within.fst2 <;> [with_reducible assumption; skip])
    | split
    | with_reducible refine Within.hst ?_ (Sub.has hM rfl)

theorem execDescriptorFetch_within {M : Nat} {s0 : State} (hM : Sub 0x81 M) (q : HostQueue) (ds : List (List Word)) (s : State) (hW : Within M s0 s) :
    ∃ u, execDescriptorFetch q ds s = .next u ∧ Within M s0 u := by
  unfold execDescriptorFetch
  refine ⟨_, rfl, ?_⟩
  repeat' first
    | with_reducible assumption
    | (intro x
       first
         | (have hx : Within M s0 x := by
              unfold x
              repeat' first
                | with_reducible assumption
                | with_reducible apply Within.ite
                | with_reducible apply setField_within (Sub.up hM rfl)
                | with_reducible apply refuseTask_within (Sub.up hM rfl)
                | with_reducible apply setFetched_within (Sub.up hM rfl)
                | with_reducible apply lookCancel_within (Sub.up hM rfl)
                | with_reducible refine each_within (fun _ _ _ => ?_) ?_
                | (with_reducible apply Within.snd <;> [with_reducible assumption; skip])
                | (with_reducible apply Within.fst <;> [with_reducible assumption; skip])
                | (with_reducible apply Within.fst2 <;> [with_reducible assumption; skip])
                | split
                | with_reducible refine Within.hst ?_ (Sub.has hM rfl))
         | (have hx : Within M s0 x.1 := by
              unfold x
              repeat' first
                | with_reducible assumption
                | with_reducible apply Within.ite
                | with_reducible apply setField_within (Sub.up hM rfl)
                | with_reducible apply refuseTask_within (Sub.up hM rfl)
                | with_reducible apply setFetched_within (Sub.up hM rfl)
                | with_reducible apply lookCancel_within (Sub.up hM rfl)
                | with_reducible refine each_within (fun _ _ _ => ?_) ?_
                | (with_reducible apply Within.snd <;> [with_reducible assumption; skip])
                | (with_reducible apply Within.fst <;> [with_reducible assumption; skip])
                | (with_reducible apply Within.fst2 <;> [with_reducible assumption; skip])
                | split
                | with_reducible refine Within.hst ?_ (Sub.has hM rfl))
         | (have hx : Within M s0 x.2 := by
              unfold x
              repeat' first
                | with_reducible assumption
                | with_reducible apply Within.ite
                | with_reducible apply setField_within (Sub.up hM rfl)
                | with_reducible apply refuseTask_within (Sub.up hM rfl)
                | with_reducible apply setFetched_within (Sub.up hM rfl)
                | with_reducible apply lookCancel_within (Sub.up hM rfl)
                | with_reducible refine each_within (fun _ _ _ => ?_) ?_
                | (with_reducible apply Within.snd <;> [with_reducible assumption; skip])
                | (with_reducible apply Within.fst <;> [with_reducible assumption; skip])
                | (with_reducible apply Within.fst2 <;> [with_reducible assumption; skip])
                | split
                | with_reducible refine Within.hst ?_ (Sub.has hM rfl))
         | skip
       clear_value x)
    | lift_lets -underBinder
    | with_reducible apply Within.ite
    | with_reducible apply setField_within (Sub.up hM rfl)
    | with_reducible apply refuseTask_within (Sub.up hM rfl)
    | with_reducible apply setFetched_within (Sub.up hM rfl)
    | with_reducible apply lookCancel_within (Sub.up hM rfl)
    | with_reducible refine each_within (fun _ _ _ => ?_) ?_
    | (with_reducible apply Within.snd <;> [with_reducible assumption; skip])
    | (with_reducible apply Within.fst <;> [with_reducible assumption; skip])
    | (with_reducible apply Within.fst2 <;> [with_reducible assumption; skip])
    | split
    | with_reducible refine Within.hst ?_ (Sub.has hM rfl)

theorem dropFront_within {M : Nat} {s0 : State} (hM : Sub 0x81 M) (s : State) (q : Nat) (d : Desc) (status : Nat) (hW : Within M s0 s) : Within M s0 (dropFront s q d status) := by
  unfold dropFront
  repeat' first
    | with_reducible assumption
    | (intro x
       first
         | (have hx : Within M s0 x := by
              unfold x
              repeat' first
                | with_reducible assumption
                | dsimp -zeta only
                | with_reducible apply Within.ite1
                | with_reducible apply Within.ite2
                | with_reducible apply Within.ite
                | with_reducible apply refuseTask_within (Sub.up hM rfl)
                | with_reducible apply setFetched_within (Sub.up hM rfl)
                | with_reducible apply leaveWaits_within (Sub.up hM rfl)
                | (with_reducible apply Within.snd <;> [with_reducible assumption; skip])
                | (with_reducible apply Within.fst <;> [with_reducible assumption; skip])
                | (with_reducible apply Within.fst2 <;> [with_reducible assumption; skip])
                | split)
         | (have hx : Within M s0 x.1 := by
              unfold x
              repeat' first
                | with_reducible assumption
                | dsimp -zeta only
                | with_reducible apply Within.ite1
                | with_reducible apply Within.ite2
                | with_reducible apply Within.ite
                | with_reducible apply refuseTask_within (Sub.up hM rfl)
                | with_reducible apply setFetched_within (Sub.up hM rfl)
                | with_reducible apply leaveWaits_within (Sub.up hM rfl)
                | (with_reducible apply Within.snd <;> [with_reducible assumption; skip])
                | (with_reducible apply Within.fst <;> [with_reducible assumption; skip])
                | (with_reducible apply Within.fst2 <;> [with_reducible assumption; skip])
                | split)
         | (have hx : Within M s0 x.2 := by
              unfold x
              repeat' first
                | with_reducible assumption
                | dsimp -zeta only
                | with_reducible apply Within.ite1
                | with_reducible apply Within.ite2
                | with_reducible apply Within.ite
                | with_reducible apply refuseTask_within (Sub.up hM rfl)
                | with_reducible apply setFetched_within (Sub.up hM rfl)
                | with_reducible apply leaveWaits_within (Sub.up hM rfl)
                | (with_reducible apply Within.snd <;> [with_reducible assumption; skip])
                | (with_reducible apply Within.fst <;> [with_reducible assumption; skip])
                | (with_reducible apply Within.fst2 <;> [with_reducible assumption; skip])
                | split)
         | skip
       clear_value x)
    | lift_lets -underBinder
    | dsimp -zeta only
    | with_reducible apply Within.ite1
    | with_reducible apply Within.ite2
    | with_reducible apply Within.ite
    | with_reducible apply refuseTask_within (Sub.up hM rfl)
    | with_reducible apply setFetched_within (Sub.up hM rfl)
    | with_reducible apply leaveWaits_within (Sub.up hM rfl)
    | (with_reducible apply Within.snd <;> [with_reducible assumption; skip])
    | (with_reducible apply Within.fst <;> [with_reducible assumption; skip])
    | (with_reducible apply Within.fst2 <;> [with_reducible assumption; skip])
    | split

theorem execCompute_within {M : Nat} {s0 : State} (hM : Sub 0x7100e3ffb M) (q : HostQueue) (s : State) (hW : Within M s0 s) :
    ∃ u, execCompute q s = .next u ∧ Within M s0 u := by
  unfold execCompute
  refine ⟨_, rfl, ?_⟩
  repeat' first
    | with_reducible assumption
    | (intro x
       first
         | (have hx : Within M s0 x := by
              unfold x
              repeat' first
                | with_reducible assumption
                | dsimp -zeta only
                | with_reducible apply Within.ite1
                | with_reducible apply Within.ite2
                | with_reducible apply Within.ite
                | with_reducible apply setSlot_within (Sub.up hM rfl)
                | with_reducible apply updCounter_within (Sub.up hM rfl)
                | with_reducible apply getRange_within (Sub.up hM rfl)
                | with_reducible apply noteHold_within (Sub.up hM rfl)
                | with_reducible apply takeFront_within (Sub.up hM rfl)
                | with_reducible apply sendDispatch_within (Sub.up hM rfl)
                | with_reducible apply takeTokens_within (Sub.up hM rfl)
                | with_reducible apply dropFront_within (Sub.up hM rfl)
                | (with_reducible apply Within.snd <;> [with_reducible assumption; skip])
                | (with_reducible apply Within.fst <;> [with_reducible assumption; skip])
                | (with_reducible apply Within.fst2 <;> [with_reducible assumption; skip])
                | split
                | with_reducible refine Within.hst ?_ (Sub.has hM rfl))
         | (have hx : Within M s0 x.1 := by
              unfold x
              repeat' first
                | with_reducible assumption
                | dsimp -zeta only
                | with_reducible apply Within.ite1
                | with_reducible apply Within.ite2
                | with_reducible apply Within.ite
                | with_reducible apply setSlot_within (Sub.up hM rfl)
                | with_reducible apply updCounter_within (Sub.up hM rfl)
                | with_reducible apply getRange_within (Sub.up hM rfl)
                | with_reducible apply noteHold_within (Sub.up hM rfl)
                | with_reducible apply takeFront_within (Sub.up hM rfl)
                | with_reducible apply sendDispatch_within (Sub.up hM rfl)
                | with_reducible apply takeTokens_within (Sub.up hM rfl)
                | with_reducible apply dropFront_within (Sub.up hM rfl)
                | (with_reducible apply Within.snd <;> [with_reducible assumption; skip])
                | (with_reducible apply Within.fst <;> [with_reducible assumption; skip])
                | (with_reducible apply Within.fst2 <;> [with_reducible assumption; skip])
                | split
                | with_reducible refine Within.hst ?_ (Sub.has hM rfl))
         | (have hx : Within M s0 x.2 := by
              unfold x
              repeat' first
                | with_reducible assumption
                | dsimp -zeta only
                | with_reducible apply Within.ite1
                | with_reducible apply Within.ite2
                | with_reducible apply Within.ite
                | with_reducible apply setSlot_within (Sub.up hM rfl)
                | with_reducible apply updCounter_within (Sub.up hM rfl)
                | with_reducible apply getRange_within (Sub.up hM rfl)
                | with_reducible apply noteHold_within (Sub.up hM rfl)
                | with_reducible apply takeFront_within (Sub.up hM rfl)
                | with_reducible apply sendDispatch_within (Sub.up hM rfl)
                | with_reducible apply takeTokens_within (Sub.up hM rfl)
                | with_reducible apply dropFront_within (Sub.up hM rfl)
                | (with_reducible apply Within.snd <;> [with_reducible assumption; skip])
                | (with_reducible apply Within.fst <;> [with_reducible assumption; skip])
                | (with_reducible apply Within.fst2 <;> [with_reducible assumption; skip])
                | split
                | with_reducible refine Within.hst ?_ (Sub.has hM rfl))
         | skip
       clear_value x)
    | lift_lets -underBinder
    | dsimp -zeta only
    | with_reducible apply Within.ite1
    | with_reducible apply Within.ite2
    | with_reducible apply Within.ite
    | with_reducible apply setSlot_within (Sub.up hM rfl)
    | with_reducible apply updCounter_within (Sub.up hM rfl)
    | with_reducible apply getRange_within (Sub.up hM rfl)
    | with_reducible apply noteHold_within (Sub.up hM rfl)
    | with_reducible apply takeFront_within (Sub.up hM rfl)
    | with_reducible apply sendDispatch_within (Sub.up hM rfl)
    | with_reducible apply takeTokens_within (Sub.up hM rfl)
    | with_reducible apply dropFront_within (Sub.up hM rfl)
    | (with_reducible apply Within.snd <;> [with_reducible assumption; skip])
    | (with_reducible apply Within.fst <;> [with_reducible assumption; skip])
    | (with_reducible apply Within.fst2 <;> [with_reducible assumption; skip])
    | split
    | with_reducible refine Within.hst ?_ (Sub.has hM rfl)

theorem execCopy_within {M : Nat} {s0 : State} (hM : Sub 0x7100e3fdb M) (q : HostQueue) (s : State) (hW : Within M s0 s) :
    ∃ u, execCopy q s = .next u ∧ Within M s0 u := by
  unfold execCopy
  refine ⟨_, rfl, ?_⟩
  repeat' first
    | with_reducible assumption
    | (intro x
       first
         | (have hx : Within M s0 x := by
              unfold x
              repeat' first
                | with_reducible assumption
                | with_reducible apply Within.ite
                | with_reducible apply setSlot_within (Sub.up hM rfl)
                | with_reducible apply noteHold_within (Sub.up hM rfl)
                | with_reducible apply takeFront_within (Sub.up hM rfl)
                | with_reducible apply sendDispatch_within (Sub.up hM rfl)
                | with_reducible apply dropFront_within (Sub.up hM rfl)
                | (with_reducible apply Within.snd <;> [with_reducible assumption; skip])
                | (with_reducible apply Within.fst <;> [with_reducible assumption; skip])
                | (with_reducible apply Within.fst2 <;> [with_reducible assumption; skip])
                | split)
         | skip
       clear_value x)
    | lift_lets -underBinder
    | with_reducible apply Within.ite
    | with_reducible apply setSlot_within (Sub.up hM rfl)
    | with_reducible apply noteHold_within (Sub.up hM rfl)
    | with_reducible apply takeFront_within (Sub.up hM rfl)
    | with_reducible apply sendDispatch_within (Sub.up hM rfl)
    | with_reducible apply dropFront_within (Sub.up hM rfl)
    | (with_reducible apply Within.snd <;> [with_reducible assumption; skip])
    | (with_reducible apply Within.fst <;> [with_reducible assumption; skip])
    | (with_reducible apply Within.fst2 <;> [with_reducible assumption; skip])
    | split

theorem execMaskLoad_within {M : Nat} {s0 : State} (hM : Sub 0x7100e3fdb M) (q : HostQueue) (s : State) (hW : Within M s0 s) :
    ∃ u, execMaskLoad q s = .next u ∧ Within M s0 u := by
  unfold execMaskLoad
  refine ⟨_, rfl, ?_⟩
  repeat' first
    | with_reducible assumption
    | (intro x
       first
         | (have hx : Within M s0 x := by
              unfold x
              repeat' first
                | with_reducible assumption
                | dsimp -zeta only
                | with_reducible apply Within.ite1
                | with_reducible apply Within.ite2
                | with_reducible apply Within.ite
                | with_reducible apply getRange_within (Sub.up hM rfl)
                | with_reducible apply endedTask_within (Sub.up hM rfl)
                | with_reducible apply noteHold_within (Sub.up hM rfl)
                | with_reducible apply takeFront_within (Sub.up hM rfl)
                | (with_reducible apply Within.snd <;> [with_reducible assumption; skip])
                | (with_reducible apply Within.fst <;> [with_reducible assumption; skip])
                | (with_reducible apply Within.fst2 <;> [with_reducible assumption; skip])
                | split
                | with_reducible refine Within.hst ?_ (Sub.has hM rfl))
         | (have hx : Within M s0 x.1 := by
              unfold x
              repeat' first
                | with_reducible assumption
                | dsimp -zeta only
                | with_reducible apply Within.ite1
                | with_reducible apply Within.ite2
                | with_reducible apply Within.ite
                | with_reducible apply getRange_within (Sub.up hM rfl)
                | with_reducible apply endedTask_within (Sub.up hM rfl)
                | with_reducible apply noteHold_within (Sub.up hM rfl)
                | with_reducible apply takeFront_within (Sub.up hM rfl)
                | (with_reducible apply Within.snd <;> [with_reducible assumption; skip])
                | (with_reducible apply Within.fst <;> [with_reducible assumption; skip])
                | (with_reducible apply Within.fst2 <;> [with_reducible assumption; skip])
                | split
                | with_reducible refine Within.hst ?_ (Sub.has hM rfl))
         | (have hx : Within M s0 x.2 := by
              unfold x
              repeat' first
                | with_reducible assumption
                | dsimp -zeta only
                | with_reducible apply Within.ite1
                | with_reducible apply Within.ite2
                | with_reducible apply Within.ite
                | with_reducible apply getRange_within (Sub.up hM rfl)
                | with_reducible apply endedTask_within (Sub.up hM rfl)
                | with_reducible apply noteHold_within (Sub.up hM rfl)
                | with_reducible apply takeFront_within (Sub.up hM rfl)
                | (with_reducible apply Within.snd <;> [with_reducible assumption; skip])
                | (with_reducible apply Within.fst <;> [with_reducible assumption; skip])
                | (with_reducible apply Within.fst2 <;> [with_reducible assumption; skip])
                | split
                | with_reducible refine Within.hst ?_ (Sub.has hM rfl))
         | skip
       clear_value x)
    | lift_lets -underBinder
    | dsimp -zeta only
    | with_reducible apply Within.ite1
    | with_reducible apply Within.ite2
    | with_reducible apply Within.ite
    | with_reducible apply getRange_within (Sub.up hM rfl)
    | with_reducible apply endedTask_within (Sub.up hM rfl)
    | with_reducible apply noteHold_within (Sub.up hM rfl)
    | with_reducible apply takeFront_within (Sub.up hM rfl)
    | (with_reducible apply Within.snd <;> [with_reducible assumption; skip])
    | (with_reducible apply Within.fst <;> [with_reducible assumption; skip])
    | (with_reducible apply Within.fst2 <;> [with_reducible assumption; skip])
    | split
    | with_reducible refine Within.hst ?_ (Sub.has hM rfl)

theorem execMaskFree_within {M : Nat} {s0 : State} (hM : Sub 0x7100e3fdb M) (q : HostQueue) (s : State) (hW : Within M s0 s) :
    ∃ u, execMaskFree q s = .next u ∧ Within M s0 u := by
  unfold execMaskFree
  refine ⟨_, rfl, ?_⟩
  repeat' first
    | with_reducible assumption
    | (intro x
       first
         | (have hx : Within M s0 x := by
              unfold x
              repeat' first
                | with_reducible assumption
                | with_reducible apply Within.ite
                | with_reducible apply setSlot_within (Sub.up hM rfl)
                | with_reducible apply endedTask_within (Sub.up hM rfl)
                | with_reducible apply noteHold_within (Sub.up hM rfl)
                | with_reducible apply takeFront_within (Sub.up hM rfl)
                | with_reducible apply settleMasks_within (Sub.up hM rfl)
                | (with_reducible apply Within.snd <;> [with_reducible assumption; skip])
                | (with_reducible apply Within.fst <;> [with_reducible assumption; skip])
                | (with_reducible apply Within.fst2 <;> [with_reducible assumption; skip])
                | split
                | with_reducible refine Within.hst ?_ (Sub.has hM rfl))
         | skip
       clear_value x)
    | lift_lets -underBinder
    | with_reducible apply Within.ite
    | with_reducible apply setSlot_within (Sub.up hM rfl)
    | with_reducible apply endedTask_within (Sub.up hM rfl)
    | with_reducible apply noteHold_within (Sub.up hM rfl)
    | with_reducible apply takeFront_within (Sub.up hM rfl)
    | with_reducible apply settleMasks_within (Sub.up hM rfl)
    | (with_reducible apply Within.snd <;> [with_reducible assumption; skip])
    | (with_reducible apply Within.fst <;> [with_reducible assumption; skip])
    | (with_reducible apply Within.fst2 <;> [with_reducible assumption; skip])
    | split
    | with_reducible refine Within.hst ?_ (Sub.has hM rfl)

theorem execBarrier_within {M : Nat} {s0 : State} (hM : Sub 0x7100e3fdb M) (q : HostQueue) (s : State) (hW : Within M s0 s) :
    ∃ u, execBarrier q s = .next u ∧ Within M s0 u := by
  unfold execBarrier
  refine ⟨_, rfl, ?_⟩
  repeat' first
    | with_reducible assumption
    | (intro x
       first
         | (have hx : Within M s0 x := by
              unfold x
              repeat' first
                | with_reducible assumption
                | with_reducible apply Within.ite
                | with_reducible apply setSlot_within (Sub.up hM rfl)
                | with_reducible apply controlTo_within (Sub.up hM rfl)
                | with_reducible apply endedTask_within (Sub.up hM rfl)
                | with_reducible apply noteHold_within (Sub.up hM rfl)
                | with_reducible apply takeFront_within (Sub.up hM rfl)
                | with_reducible apply settleBarrier_within (Sub.up hM rfl)
                | with_reducible refine each_within (fun _ _ _ => ?_) ?_
                | (with_reducible apply Within.snd <;> [with_reducible assumption; skip])
                | (with_reducible apply Within.fst <;> [with_reducible assumption; skip])
                | (with_reducible apply Within.fst2 <;> [with_reducible assumption; skip])
                | split
                | with_reducible refine Within.hst ?_ (Sub.has hM rfl))
         | skip
       clear_value x)
    | lift_lets -underBinder
    | with_reducible apply Within.ite
    | with_reducible apply setSlot_within (Sub.up hM rfl)
    | with_reducible apply controlTo_within (Sub.up hM rfl)
    | with_reducible apply endedTask_within (Sub.up hM rfl)
    | with_reducible apply noteHold_within (Sub.up hM rfl)
    | with_reducible apply takeFront_within (Sub.up hM rfl)
    | with_reducible apply settleBarrier_within (Sub.up hM rfl)
    | with_reducible refine each_within (fun _ _ _ => ?_) ?_
    | (with_reducible apply Within.snd <;> [with_reducible assumption; skip])
    | (with_reducible apply Within.fst <;> [with_reducible assumption; skip])
    | (with_reducible apply Within.fst2 <;> [with_reducible assumption; skip])
    | split
    | with_reducible refine Within.hst ?_ (Sub.has hM rfl)

theorem putBarrier_within {M : Nat} {s0 : State} (hM : Sub 0x80 M) (s : State) (b : Nat) (y : Barrier) (hW : Within M s0 s) : Within M s0 (putBarrier s b y) := by
  unfold putBarrier
  repeat' first
    | with_reducible assumption
    | with_reducible refine Within.hst ?_ (Sub.has hM rfl)

theorem execBarrierArrival_within {M : Nat} {s0 : State} (hM : Sub 0x100000081 M) (f : Frame) (b : BitVec 12) (gen : BitVec 16) (srcDev : BitVec 12) (s : State) (hW : Within M s0 s) :
    ∃ u, execBarrierArrival f b gen srcDev s = .next u ∧ Within M s0 u := by
  unfold execBarrierArrival
  refine ⟨_, rfl, ?_⟩
  repeat' first
    | with_reducible assumption
    | (intro x
       first
         | (have hx : Within M s0 x := by
              unfold x
              repeat' first
                | with_reducible assumption
                | with_reducible apply Within.ite
                | with_reducible apply bump_within (Sub.up hM rfl)
                | with_reducible refine onChain_within (Sub.up hM rfl) (fun _ _ => ?_) ?_
                | with_reducible apply settleBarrier_within (Sub.up hM rfl)
                | with_reducible apply putBarrier_within (Sub.up hM rfl))
         | skip
       clear_value x)
    | lift_lets -underBinder
    | with_reducible apply Within.ite
    | with_reducible apply bump_within (Sub.up hM rfl)
    | with_reducible refine onChain_within (Sub.up hM rfl) (fun _ _ => ?_) ?_
    | with_reducible apply settleBarrier_within (Sub.up hM rfl)
    | with_reducible apply putBarrier_within (Sub.up hM rfl)

theorem execInvalidate_within {M : Nat} {s0 : State} (hM : Sub 0x7100e3fdb M) (q : HostQueue) (s : State) (hW : Within M s0 s) :
    ∃ t, execInvalidate q s = .next t ∧ Within M s0 t := by
  refine ⟨_, rfl, ?_⟩
  split
  · exact hW
  · refine .ite (noteHold_within (Sub.up hM rfl) _ _ _ hW) ?_
    dsimp only
    split
    · exact takeFront_within (Sub.up hM rfl) _ _ _ hW
    · exact each_within (fun _ _ h => updCore_within (Sub.up hM rfl) _ _ _ h)
        (.hst (setSlot_within (Sub.up hM rfl) _ _ _ (takeFront_within (Sub.up hM rfl) _ _ _ hW)) (Sub.has hM rfl))

theorem execInvalidateComplete_within {M : Nat} {s0 : State} (hM : Sub 0x80 M) (slot : SlotId) (s : State) (hW : Within M s0 s) :
    ∃ u, execInvalidateComplete slot s = .next u ∧ Within M s0 u := by
  unfold execInvalidateComplete
  refine ⟨_, rfl, ?_⟩
  repeat' first
    | with_reducible assumption
    | (intro x
       first
         | (have hx : Within M s0 x := by
              unfold x
              repeat' first
                | with_reducible assumption
                | with_reducible apply Within.ite
                | with_reducible apply updSlot_within (Sub.up hM rfl)
                | (with_reducible apply Within.snd <;> [with_reducible assumption; skip])
                | (with_reducible apply Within.fst <;> [with_reducible assumption; skip])
                | (with_reducible apply Within.fst2 <;> [with_reducible assumption; skip])
                | split
                | with_reducible refine Within.hst ?_ (Sub.has hM rfl))
         | skip
       clear_value x)
    | lift_lets -underBinder
    | with_reducible apply Within.ite
    | with_reducible apply updSlot_within (Sub.up hM rfl)
    | (with_reducible apply Within.snd <;> [with_reducible assumption; skip])
    | (with_reducible apply Within.fst <;> [with_reducible assumption; skip])
    | (with_reducible apply Within.fst2 <;> [with_reducible assumption; skip])
    | split
    | with_reducible refine Within.hst ?_ (Sub.has hM rfl)

theorem execNop_within {M : Nat} {s0 : State} (hM : Sub 0x7100e3fdb M) (q : HostQueue) (s : State) (hW : Within M s0 s) :
    ∃ u, execNop q s = .next u ∧ Within M s0 u := by
  unfold execNop
  refine ⟨_, rfl, ?_⟩
  repeat' first
    | with_reducible assumption
    | (intro x
       first
         | (have hx : Within M s0 x := by
              unfold x
              repeat' first
                | with_reducible assumption
                | with_reducible apply Within.ite
                | with_reducible apply endedTask_within (Sub.up hM rfl)
                | with_reducible apply noteHold_within (Sub.up hM rfl)
                | with_reducible apply takeFront_within (Sub.up hM rfl)
                | (with_reducible apply Within.snd <;> [with_reducible assumption; skip])
                | (with_reducible apply Within.fst <;> [with_reducible assumption; skip])
                | (with_reducible apply Within.fst2 <;> [with_reducible assumption; skip])
                | split)
         | skip
       clear_value x)
    | lift_lets -underBinder
    | with_reducible apply Within.ite
    | with_reducible apply endedTask_within (Sub.up hM rfl)
    | with_reducible apply noteHold_within (Sub.up hM rfl)
    | with_reducible apply takeFront_within (Sub.up hM rfl)
    | (with_reducible apply Within.snd <;> [with_reducible assumption; skip])
    | (with_reducible apply Within.fst <;> [with_reducible assumption; skip])
    | (with_reducible apply Within.fst2 <;> [with_reducible assumption; skip])
    | split

theorem execCompletionWrite_within {M : Nat} {s0 : State} (hM : Sub 0x700050183 M) (k : SlotId) (s : State) (hW : Within M s0 s) :
    ∃ u, execCompletionWrite k s = .next u ∧ Within M s0 u := by
  unfold execCompletionWrite
  refine ⟨_, rfl, ?_⟩
  repeat' first
    | with_reducible assumption
    | with_reducible apply Within.ite
    | with_reducible apply writeCompletion_within (Sub.up hM rfl)
    | with_reducible apply settleClosing_within (Sub.up hM rfl)

theorem execMsixAggregationTimeout_within {M : Nat} {s0 : State} (hM : Sub 0x200000081 M) (cq : HostQueue) (s : State) (hW : Within M s0 s) :
    ∃ u, execMsixAggregationTimeout cq s = .next u ∧ Within M s0 u := by
  unfold execMsixAggregationTimeout
  refine ⟨_, rfl, ?_⟩
  repeat' first
    | with_reducible assumption
    | (intro x
       first
         | (have hx : Within M s0 x := by
              unfold x
              repeat' first
                | with_reducible assumption
                | with_reducible apply Within.ite
                | with_reducible apply signalCq_within (Sub.up hM rfl)
                | (with_reducible apply Within.snd <;> [with_reducible assumption; skip])
                | (with_reducible apply Within.fst <;> [with_reducible assumption; skip])
                | (with_reducible apply Within.fst2 <;> [with_reducible assumption; skip])
                | split)
         | skip
       clear_value x)
    | lift_lets -underBinder
    | with_reducible apply Within.ite
    | with_reducible apply signalCq_within (Sub.up hM rfl)
    | (with_reducible apply Within.snd <;> [with_reducible assumption; skip])
    | (with_reducible apply Within.fst <;> [with_reducible assumption; skip])
    | (with_reducible apply Within.fst2 <;> [with_reducible assumption; skip])
    | split

theorem cancelOne_within {M : Nat} {s0 : State} (hM : Sub 0x100000091 M) (s : State) (q seq : Nat) (hW : Within M s0 s) : Within M s0 (cancelOne s q seq) := by
  unfold cancelOne
  repeat' first
    | with_reducible assumption
    | (intro x
       first
         | (have hx : Within M s0 x := by
              unfold x
              repeat' first
                | with_reducible assumption
                | dsimp -zeta only
                | with_reducible apply Within.ite1
                | with_reducible apply Within.ite2
                | with_reducible apply Within.ite
                | with_reducible apply endTask_within (Sub.up hM rfl)
                | with_reducible apply refuseTask_within (Sub.up hM rfl)
                | with_reducible apply setFetched_within (Sub.up hM rfl)
                | with_reducible apply leaveWaits_within (Sub.up hM rfl)
                | (with_reducible apply Within.snd <;> [with_reducible assumption; skip])
                | (with_reducible apply Within.fst <;> [with_reducible assumption; skip])
                | (with_reducible apply Within.fst2 <;> [with_reducible assumption; skip])
                | split
                | with_reducible refine Within.hst ?_ (Sub.has hM rfl))
         | (have hx : Within M s0 x.1 := by
              unfold x
              repeat' first
                | with_reducible assumption
                | dsimp -zeta only
                | with_reducible apply Within.ite1
                | with_reducible apply Within.ite2
                | with_reducible apply Within.ite
                | with_reducible apply endTask_within (Sub.up hM rfl)
                | with_reducible apply refuseTask_within (Sub.up hM rfl)
                | with_reducible apply setFetched_within (Sub.up hM rfl)
                | with_reducible apply leaveWaits_within (Sub.up hM rfl)
                | (with_reducible apply Within.snd <;> [with_reducible assumption; skip])
                | (with_reducible apply Within.fst <;> [with_reducible assumption; skip])
                | (with_reducible apply Within.fst2 <;> [with_reducible assumption; skip])
                | split
                | with_reducible refine Within.hst ?_ (Sub.has hM rfl))
         | (have hx : Within M s0 x.2 := by
              unfold x
              repeat' first
                | with_reducible assumption
                | dsimp -zeta only
                | with_reducible apply Within.ite1
                | with_reducible apply Within.ite2
                | with_reducible apply Within.ite
                | with_reducible apply endTask_within (Sub.up hM rfl)
                | with_reducible apply refuseTask_within (Sub.up hM rfl)
                | with_reducible apply setFetched_within (Sub.up hM rfl)
                | with_reducible apply leaveWaits_within (Sub.up hM rfl)
                | (with_reducible apply Within.snd <;> [with_reducible assumption; skip])
                | (with_reducible apply Within.fst <;> [with_reducible assumption; skip])
                | (with_reducible apply Within.fst2 <;> [with_reducible assumption; skip])
                | split
                | with_reducible refine Within.hst ?_ (Sub.has hM rfl))
         | skip
       clear_value x)
    | lift_lets -underBinder
    | dsimp -zeta only
    | with_reducible apply Within.ite1
    | with_reducible apply Within.ite2
    | with_reducible apply Within.ite
    | with_reducible apply endTask_within (Sub.up hM rfl)
    | with_reducible apply refuseTask_within (Sub.up hM rfl)
    | with_reducible apply setFetched_within (Sub.up hM rfl)
    | with_reducible apply leaveWaits_within (Sub.up hM rfl)
    | (with_reducible apply Within.snd <;> [with_reducible assumption; skip])
    | (with_reducible apply Within.fst <;> [with_reducible assumption; skip])
    | (with_reducible apply Within.fst2 <;> [with_reducible assumption; skip])
    | split
    | with_reducible refine Within.hst ?_ (Sub.has hM rfl)

theorem execHstCancel_within {M : Nat} {s0 : State} (hM : Sub 0x100000091 M) (value : Word) (s : State) (hW : Within M s0 s) :
    ∃ u, execHstCancel value s = .next u ∧ Within M s0 u := by
  unfold execHstCancel
  refine ⟨_, rfl, ?_⟩
  repeat' first
    | with_reducible assumption
    | (intro x
       first
         | (have hx : Within M s0 x := by
              unfold x
              repeat' first
                | with_reducible assumption
                | with_reducible apply Within.ite
                | with_reducible apply cancelOne_within (Sub.up hM rfl)
                | with_reducible refine each_within (fun _ _ _ => ?_) ?_
                | with_reducible refine Within.fold (fun _ _ _ => ?_) ?_
                | with_reducible refine Within.fold1 (fun _ _ _ => ?_) ?_
                | with_reducible refine Within.fold2 (fun _ _ _ => ?_) ?_
                | (with_reducible apply Within.snd <;> [with_reducible assumption; skip])
                | (with_reducible apply Within.fst <;> [with_reducible assumption; skip])
                | (with_reducible apply Within.fst2 <;> [with_reducible assumption; skip])
                | split
                | with_reducible refine Within.hst ?_ (Sub.has hM rfl))
         | skip
       clear_value x)
    | lift_lets -underBinder
    | with_reducible apply Within.ite
    | with_reducible apply cancelOne_within (Sub.up hM rfl)
    | with_reducible refine each_within (fun _ _ _ => ?_) ?_
    | with_reducible refine Within.fold (fun _ _ _ => ?_) ?_
    | with_reducible refine Within.fold1 (fun _ _ _ => ?_) ?_
    | with_reducible refine Within.fold2 (fun _ _ _ => ?_) ?_
    | (with_reducible apply Within.snd <;> [with_reducible assumption; skip])
    | (with_reducible apply Within.fst <;> [with_reducible assumption; skip])
    | (with_reducible apply Within.fst2 <;> [with_reducible assumption; skip])
    | split
    | with_reducible refine Within.hst ?_ (Sub.has hM rfl)

end Sys2Proof.Machine
end

