-- ==== Sys2Proof/Laws/WithinLifeline.lean ====
section
/-! SUPPORT. What the operations and commands of Machine/Lifeline can do to the state (Laws/Within). -/

namespace Sys2Proof.Machine

theorem llEnd_within {M : Nat} {s0 : State} (hM : Sub 0x300000 M) (s : State) (result status : Nat) (hW : Within M s0 s) : Within M s0 (llEnd s result status) := by
  unfold llEnd
  repeat' first
    | with_reducible assumption
    | with_reducible refine Within.setLlResultLlStatus ?_ (Sub.has hM rfl) (Sub.has hM rfl)
    | with_reducible refine Within.llResult ?_ (Sub.has hM rfl)
    | with_reducible refine Within.llStatus ?_ (Sub.has hM rfl)

theorem execArm_within {M : Nat} {s0 : State} (hM : Sub 0x7103e3fdb M) (n : StrandId) (s : State) (hW : Within M s0 s) :
    ∃ u, execArm n s = .next u ∧ Within M s0 u := by
  unfold execArm
  refine ⟨_, rfl, ?_⟩
  repeat' first
    | with_reducible assumption
    | (intro x
       first
         | (have hx : Within M s0 x := by
              unfold x
              repeat' first
                | with_reducible assumption
                | with_reducible apply Within.ite
                | with_reducible apply setLl_within (Sub.up hM rfl)
                | with_reducible apply postRecord_within (Sub.up hM rfl)
                | with_reducible apply llEnd_within (Sub.up hM rfl)
                | (with_reducible apply Within.snd <;> [with_reducible assumption; skip])
                | (with_reducible apply Within.fst <;> [with_reducible assumption; skip])
                | (with_reducible apply Within.fst2 <;> [with_reducible assumption; skip])
                | split)
         | skip
       clear_value x)
    | lift_lets -underBinder
    | with_reducible apply Within.ite
    | with_reducible apply setLl_within (Sub.up hM rfl)
    | with_reducible apply postRecord_within (Sub.up hM rfl)
    | with_reducible apply llEnd_within (Sub.up hM rfl)
    | (with_reducible apply Within.snd <;> [with_reducible assumption; skip])
    | (with_reducible apply Within.fst <;> [with_reducible assumption; skip])
    | (with_reducible apply Within.fst2 <;> [with_reducible assumption; skip])
    | split

theorem execHold_within {M : Nat} {s0 : State} (hM : Sub 0x380002 M) (n : StrandId) (s : State) (hW : Within M s0 s) :
    ∃ u, execHold n s = .next u ∧ Within M s0 u := by
  unfold execHold
  refine ⟨_, rfl, ?_⟩
  repeat' first
    | with_reducible assumption
    | (intro x
       first
         | (have hx : Within M s0 x := by
              unfold x
              repeat' first
                | with_reducible assumption
                | with_reducible apply Within.ite
                | with_reducible apply setLl_within (Sub.up hM rfl)
                | with_reducible apply llEnd_within (Sub.up hM rfl)
                | (with_reducible apply Within.snd <;> [with_reducible assumption; skip])
                | (with_reducible apply Within.fst <;> [with_reducible assumption; skip])
                | (with_reducible apply Within.fst2 <;> [with_reducible assumption; skip])
                | split)
         | skip
       clear_value x)
    | lift_lets -underBinder
    | with_reducible apply Within.ite
    | with_reducible apply setLl_within (Sub.up hM rfl)
    | with_reducible apply llEnd_within (Sub.up hM rfl)
    | (with_reducible apply Within.snd <;> [with_reducible assumption; skip])
    | (with_reducible apply Within.fst <;> [with_reducible assumption; skip])
    | (with_reducible apply Within.fst2 <;> [with_reducible assumption; skip])
    | split

theorem execLifelineDisarm_within {M : Nat} {s0 : State} (hM : Sub 0x380002 M) (n : StrandId) (s : State) (hW : Within M s0 s) :
    ∃ u, execLifelineDisarm n s = .next u ∧ Within M s0 u := by
  unfold execLifelineDisarm
  refine ⟨_, rfl, ?_⟩
  repeat' first
    | with_reducible assumption
    | with_reducible apply Within.ite
    | with_reducible apply updLifeline_within (Sub.up hM rfl)
    | with_reducible apply setLl_within (Sub.up hM rfl)
    | with_reducible apply llEnd_within (Sub.up hM rfl)

theorem execRestore_within {M : Nat} {s0 : State} (hM : Sub 0x310780083 M) (n : StrandId) (s : State) (hW : Within M s0 s) :
    ∃ u, execRestore n s = .next u ∧ Within M s0 u := by
  unfold execRestore
  refine ⟨_, rfl, ?_⟩
  repeat' first
    | with_reducible assumption
    | (intro x
       first
         | (have hx : Within M s0 x := by
              unfold x
              repeat' first
                | with_reducible assumption
                | with_reducible apply Within.ite
                | with_reducible apply setReg_within (Sub.up hM rfl)
                | with_reducible apply updStrand_within (Sub.up hM rfl)
                | with_reducible apply raise_within (Sub.up hM rfl)
                | with_reducible apply setLl_within (Sub.up hM rfl)
                | with_reducible apply llEnd_within (Sub.up hM rfl)
                | (with_reducible apply Within.snd <;> [with_reducible assumption; skip])
                | (with_reducible apply Within.fst <;> [with_reducible assumption; skip])
                | (with_reducible apply Within.fst2 <;> [with_reducible assumption; skip])
                | split
                | with_reducible refine Within.drawSkews ?_ (Sub.has hM rfl))
         | skip
       clear_value x)
    | lift_lets -underBinder
    | with_reducible apply Within.ite
    | with_reducible apply setReg_within (Sub.up hM rfl)
    | with_reducible apply updStrand_within (Sub.up hM rfl)
    | with_reducible apply raise_within (Sub.up hM rfl)
    | with_reducible apply setLl_within (Sub.up hM rfl)
    | with_reducible apply llEnd_within (Sub.up hM rfl)
    | (with_reducible apply Within.snd <;> [with_reducible assumption; skip])
    | (with_reducible apply Within.fst <;> [with_reducible assumption; skip])
    | (with_reducible apply Within.fst2 <;> [with_reducible assumption; skip])
    | split
    | with_reducible refine Within.drawSkews ?_ (Sub.has hM rfl)

theorem execArmReq_within {M : Nat} {s0 : State} (hM : Sub 0x7100e3fdb M) (n : StrandId) (feed : BitVec 4) (_kMax : BitVec 16) (slotBytes : BitVec 40) (s : State) (hW : Within M s0 s) :
    ∃ u, execArmReq n feed _kMax slotBytes s = .next u ∧ Within M s0 u := by
  unfold execArmReq
  refine ⟨_, rfl, ?_⟩
  repeat' first
    | with_reducible assumption
    | (intro x
       first
         | (have hx : Within M s0 x := by
              unfold x
              repeat' first
                | with_reducible assumption
                | with_reducible apply Within.ite
                | with_reducible apply feed_within (Sub.up hM rfl)
                | with_reducible apply setLl_within (Sub.up hM rfl)
                | with_reducible apply postRecord_within (Sub.up hM rfl)
                | (with_reducible apply Within.snd <;> [with_reducible assumption; skip])
                | (with_reducible apply Within.fst <;> [with_reducible assumption; skip])
                | (with_reducible apply Within.fst2 <;> [with_reducible assumption; skip]))
         | (have hx : Within M s0 x.1 := by
              unfold x
              repeat' first
                | with_reducible assumption
                | with_reducible apply Within.ite
                | with_reducible apply feed_within (Sub.up hM rfl)
                | with_reducible apply setLl_within (Sub.up hM rfl)
                | with_reducible apply postRecord_within (Sub.up hM rfl)
                | (with_reducible apply Within.snd <;> [with_reducible assumption; skip])
                | (with_reducible apply Within.fst <;> [with_reducible assumption; skip])
                | (with_reducible apply Within.fst2 <;> [with_reducible assumption; skip]))
         | (have hx : Within M s0 x.2 := by
              unfold x
              repeat' first
                | with_reducible assumption
                | with_reducible apply Within.ite
                | with_reducible apply feed_within (Sub.up hM rfl)
                | with_reducible apply setLl_within (Sub.up hM rfl)
                | with_reducible apply postRecord_within (Sub.up hM rfl)
                | (with_reducible apply Within.snd <;> [with_reducible assumption; skip])
                | (with_reducible apply Within.fst <;> [with_reducible assumption; skip])
                | (with_reducible apply Within.fst2 <;> [with_reducible assumption; skip]))
         | skip
       clear_value x)
    | lift_lets -underBinder
    | with_reducible apply Within.ite
    | with_reducible apply feed_within (Sub.up hM rfl)
    | with_reducible apply setLl_within (Sub.up hM rfl)
    | with_reducible apply postRecord_within (Sub.up hM rfl)
    | (with_reducible apply Within.snd <;> [with_reducible assumption; skip])
    | (with_reducible apply Within.fst <;> [with_reducible assumption; skip])
    | (with_reducible apply Within.fst2 <;> [with_reducible assumption; skip])

theorem execArmAck_within {M : Nat} {s0 : State} (hM : Sub 0x710b828d3 M) (n : StrandId) (feed : BitVec 4) (result : BitVec 2) (_slotBytes : BitVec 40) (s : State) (hW : Within M s0 s) :
    ∃ u, execArmAck n feed result _slotBytes s = .next u ∧ Within M s0 u := by
  unfold execArmAck
  refine ⟨_, rfl, ?_⟩
  repeat' first
    | with_reducible assumption
    | (intro x
       first
         | (have hx : Within M s0 x := by
              unfold x
              repeat' first
                | with_reducible assumption
                | with_reducible apply Within.ite
                | with_reducible apply raise_within (Sub.up hM rfl)
                | with_reducible apply feed_within (Sub.up hM rfl)
                | with_reducible apply setLl_within (Sub.up hM rfl)
                | with_reducible apply llEnd_within (Sub.up hM rfl)
                | (with_reducible apply Within.snd <;> [with_reducible assumption; skip])
                | (with_reducible apply Within.fst <;> [with_reducible assumption; skip])
                | (with_reducible apply Within.fst2 <;> [with_reducible assumption; skip])
                | with_reducible refine Within.correlatedArms ?_ (Sub.has hM rfl))
         | (have hx : Within M s0 x.1 := by
              unfold x
              repeat' first
                | with_reducible assumption
                | with_reducible apply Within.ite
                | with_reducible apply raise_within (Sub.up hM rfl)
                | with_reducible apply feed_within (Sub.up hM rfl)
                | with_reducible apply setLl_within (Sub.up hM rfl)
                | with_reducible apply llEnd_within (Sub.up hM rfl)
                | (with_reducible apply Within.snd <;> [with_reducible assumption; skip])
                | (with_reducible apply Within.fst <;> [with_reducible assumption; skip])
                | (with_reducible apply Within.fst2 <;> [with_reducible assumption; skip])
                | with_reducible refine Within.correlatedArms ?_ (Sub.has hM rfl))
         | (have hx : Within M s0 x.2 := by
              unfold x
              repeat' first
                | with_reducible assumption
                | with_reducible apply Within.ite
                | with_reducible apply raise_within (Sub.up hM rfl)
                | with_reducible apply feed_within (Sub.up hM rfl)
                | with_reducible apply setLl_within (Sub.up hM rfl)
                | with_reducible apply llEnd_within (Sub.up hM rfl)
                | (with_reducible apply Within.snd <;> [with_reducible assumption; skip])
                | (with_reducible apply Within.fst <;> [with_reducible assumption; skip])
                | (with_reducible apply Within.fst2 <;> [with_reducible assumption; skip])
                | with_reducible refine Within.correlatedArms ?_ (Sub.has hM rfl))
         | skip
       clear_value x)
    | lift_lets -underBinder
    | with_reducible apply Within.ite
    | with_reducible apply raise_within (Sub.up hM rfl)
    | with_reducible apply feed_within (Sub.up hM rfl)
    | with_reducible apply setLl_within (Sub.up hM rfl)
    | with_reducible apply llEnd_within (Sub.up hM rfl)
    | (with_reducible apply Within.snd <;> [with_reducible assumption; skip])
    | (with_reducible apply Within.fst <;> [with_reducible assumption; skip])
    | (with_reducible apply Within.fst2 <;> [with_reducible assumption; skip])
    | with_reducible refine Within.correlatedArms ?_ (Sub.has hM rfl)

theorem execArmTimeout_within {M : Nat} {s0 : State} (hM : Sub 0x380002 M) (n : StrandId) (s : State) (hW : Within M s0 s) :
    ∃ u, execArmTimeout n s = .next u ∧ Within M s0 u := by
  unfold execArmTimeout
  refine ⟨_, rfl, ?_⟩
  repeat' first
    | with_reducible assumption
    | with_reducible apply Within.ite
    | with_reducible apply setLl_within (Sub.up hM rfl)
    | with_reducible apply llEnd_within (Sub.up hM rfl)

theorem answerCommit_within {M : Nat} {s0 : State} (hM : Sub 0x7100e3fdb M) (s : State) (n : Nat) (bad : Bool) (hW : Within M s0 s) : Within M s0 (answerCommit s n bad) := by
  unfold answerCommit
  repeat' first
    | with_reducible assumption
    | (intro x
       first
         | (have hx : Within M s0 x := by
              unfold x
              repeat' first
                | with_reducible assumption
                | dsimp -zeta only
                | with_reducible apply Within.ite1
                | with_reducible apply Within.ite2
                | with_reducible apply Within.ite
                | with_reducible apply updLifeline_within (Sub.up hM rfl)
                | with_reducible apply linkWrite_within (Sub.up hM rfl)
                | with_reducible apply postRecord_within (Sub.up hM rfl)
                | (with_reducible apply Within.snd <;> [with_reducible assumption; skip])
                | (with_reducible apply Within.fst <;> [with_reducible assumption; skip])
                | (with_reducible apply Within.fst2 <;> [with_reducible assumption; skip])
                | split)
         | (have hx : Within M s0 x.1 := by
              unfold x
              repeat' first
                | with_reducible assumption
                | dsimp -zeta only
                | with_reducible apply Within.ite1
                | with_reducible apply Within.ite2
                | with_reducible apply Within.ite
                | with_reducible apply updLifeline_within (Sub.up hM rfl)
                | with_reducible apply linkWrite_within (Sub.up hM rfl)
                | with_reducible apply postRecord_within (Sub.up hM rfl)
                | (with_reducible apply Within.snd <;> [with_reducible assumption; skip])
                | (with_reducible apply Within.fst <;> [with_reducible assumption; skip])
                | (with_reducible apply Within.fst2 <;> [with_reducible assumption; skip])
                | split)
         | (have hx : Within M s0 x.2 := by
              unfold x
              repeat' first
                | with_reducible assumption
                | dsimp -zeta only
                | with_reducible apply Within.ite1
                | with_reducible apply Within.ite2
                | with_reducible apply Within.ite
                | with_reducible apply updLifeline_within (Sub.up hM rfl)
                | with_reducible apply linkWrite_within (Sub.up hM rfl)
                | with_reducible apply postRecord_within (Sub.up hM rfl)
                | (with_reducible apply Within.snd <;> [with_reducible assumption; skip])
                | (with_reducible apply Within.fst <;> [with_reducible assumption; skip])
                | (with_reducible apply Within.fst2 <;> [with_reducible assumption; skip])
                | split)
         | skip
       clear_value x)
    | lift_lets -underBinder
    | dsimp -zeta only
    | with_reducible apply Within.ite1
    | with_reducible apply Within.ite2
    | with_reducible apply Within.ite
    | with_reducible apply updLifeline_within (Sub.up hM rfl)
    | with_reducible apply linkWrite_within (Sub.up hM rfl)
    | with_reducible apply postRecord_within (Sub.up hM rfl)
    | (with_reducible apply Within.snd <;> [with_reducible assumption; skip])
    | (with_reducible apply Within.fst <;> [with_reducible assumption; skip])
    | (with_reducible apply Within.fst2 <;> [with_reducible assumption; skip])
    | split

theorem execMark_within {M : Nat} {s0 : State} (hM : Sub 0x710080fdb M) (n : StrandId) (step dataPos rngStep : Word) (paramBytes : BitVec 40) (anchor : Bool) (s : State) (hW : Within M s0 s) :
    ∃ u, execMark n step dataPos rngStep paramBytes anchor s = .next u ∧ Within M s0 u := by
  unfold execMark
  refine ⟨_, rfl, ?_⟩
  repeat' first
    | with_reducible assumption
    | (intro x
       first
         | (have hx : Within M s0 x := by
              unfold x
              repeat' first
                | with_reducible assumption
                | dsimp -zeta only
                | with_reducible apply Within.ite1
                | with_reducible apply Within.ite2
                | with_reducible apply Within.ite
                | with_reducible apply updLifeline_within (Sub.up hM rfl)
                | with_reducible apply linkWrite_within (Sub.up hM rfl)
                | (with_reducible apply Within.snd <;> [with_reducible assumption; skip])
                | (with_reducible apply Within.fst <;> [with_reducible assumption; skip])
                | (with_reducible apply Within.fst2 <;> [with_reducible assumption; skip])
                | split)
         | (have hx : Within M s0 x.1 := by
              unfold x
              repeat' first
                | with_reducible assumption
                | dsimp -zeta only
                | with_reducible apply Within.ite1
                | with_reducible apply Within.ite2
                | with_reducible apply Within.ite
                | with_reducible apply updLifeline_within (Sub.up hM rfl)
                | with_reducible apply linkWrite_within (Sub.up hM rfl)
                | (with_reducible apply Within.snd <;> [with_reducible assumption; skip])
                | (with_reducible apply Within.fst <;> [with_reducible assumption; skip])
                | (with_reducible apply Within.fst2 <;> [with_reducible assumption; skip])
                | split)
         | (have hx : Within M s0 x.2 := by
              unfold x
              repeat' first
                | with_reducible assumption
                | dsimp -zeta only
                | with_reducible apply Within.ite1
                | with_reducible apply Within.ite2
                | with_reducible apply Within.ite
                | with_reducible apply updLifeline_within (Sub.up hM rfl)
                | with_reducible apply linkWrite_within (Sub.up hM rfl)
                | (with_reducible apply Within.snd <;> [with_reducible assumption; skip])
                | (with_reducible apply Within.fst <;> [with_reducible assumption; skip])
                | (with_reducible apply Within.fst2 <;> [with_reducible assumption; skip])
                | split)
         | skip
       clear_value x)
    | lift_lets -underBinder
    | dsimp -zeta only
    | with_reducible apply Within.ite1
    | with_reducible apply Within.ite2
    | with_reducible apply Within.ite
    | with_reducible apply updLifeline_within (Sub.up hM rfl)
    | with_reducible apply linkWrite_within (Sub.up hM rfl)
    | (with_reducible apply Within.snd <;> [with_reducible assumption; skip])
    | (with_reducible apply Within.fst <;> [with_reducible assumption; skip])
    | (with_reducible apply Within.fst2 <;> [with_reducible assumption; skip])
    | split

theorem execPayload_within {M : Nat} {s0 : State} (hM : Sub 0x7100e3fdb M) (n : StrandId) (data : List Byte) (error : Bool) (s : State) (hW : Within M s0 s) :
    ∃ u, execPayload n data error s = .next u ∧ Within M s0 u := by
  unfold execPayload
  refine ⟨_, rfl, ?_⟩
  repeat' first
    | with_reducible assumption
    | (intro x
       first
         | (have hx : Within M s0 x := by
              unfold x
              repeat' first
                | with_reducible assumption
                | dsimp -zeta only
                | with_reducible apply Within.ite1
                | with_reducible apply Within.ite2
                | with_reducible apply Within.ite
                | with_reducible apply updLifeline_within (Sub.up hM rfl)
                | with_reducible apply llAppend_within (Sub.up hM rfl)
                | with_reducible apply answerCommit_within (Sub.up hM rfl)
                | (with_reducible apply Within.snd <;> [with_reducible assumption; skip])
                | (with_reducible apply Within.fst <;> [with_reducible assumption; skip])
                | (with_reducible apply Within.fst2 <;> [with_reducible assumption; skip])
                | split)
         | (have hx : Within M s0 x.1 := by
              unfold x
              repeat' first
                | with_reducible assumption
                | dsimp -zeta only
                | with_reducible apply Within.ite1
                | with_reducible apply Within.ite2
                | with_reducible apply Within.ite
                | with_reducible apply updLifeline_within (Sub.up hM rfl)
                | with_reducible apply llAppend_within (Sub.up hM rfl)
                | with_reducible apply answerCommit_within (Sub.up hM rfl)
                | (with_reducible apply Within.snd <;> [with_reducible assumption; skip])
                | (with_reducible apply Within.fst <;> [with_reducible assumption; skip])
                | (with_reducible apply Within.fst2 <;> [with_reducible assumption; skip])
                | split)
         | (have hx : Within M s0 x.2 := by
              unfold x
              repeat' first
                | with_reducible assumption
                | dsimp -zeta only
                | with_reducible apply Within.ite1
                | with_reducible apply Within.ite2
                | with_reducible apply Within.ite
                | with_reducible apply updLifeline_within (Sub.up hM rfl)
                | with_reducible apply llAppend_within (Sub.up hM rfl)
                | with_reducible apply answerCommit_within (Sub.up hM rfl)
                | (with_reducible apply Within.snd <;> [with_reducible assumption; skip])
                | (with_reducible apply Within.fst <;> [with_reducible assumption; skip])
                | (with_reducible apply Within.fst2 <;> [with_reducible assumption; skip])
                | split)
         | skip
       clear_value x)
    | lift_lets -underBinder
    | dsimp -zeta only
    | with_reducible apply Within.ite1
    | with_reducible apply Within.ite2
    | with_reducible apply Within.ite
    | with_reducible apply updLifeline_within (Sub.up hM rfl)
    | with_reducible apply llAppend_within (Sub.up hM rfl)
    | with_reducible apply answerCommit_within (Sub.up hM rfl)
    | (with_reducible apply Within.snd <;> [with_reducible assumption; skip])
    | (with_reducible apply Within.fst <;> [with_reducible assumption; skip])
    | (with_reducible apply Within.fst2 <;> [with_reducible assumption; skip])
    | split

theorem finishDisarm_within {M : Nat} {s0 : State} (hM : Sub 0x380002 M) (s : State) (n : Nat) (hW : Within M s0 s) : Within M s0 (finishDisarm s n) := by
  unfold finishDisarm
  repeat' first
    | with_reducible assumption
    | with_reducible apply Within.ite
    | with_reducible apply setLl_within (Sub.up hM rfl)
    | with_reducible apply llEnd_within (Sub.up hM rfl)

theorem endSecuring_within {M : Nat} {s0 : State} (hM : Sub 0x100080013 M) (s : State) (n : Nat) (hW : Within M s0 s) : Within M s0 (endSecuring s n) := by
  unfold endSecuring
  repeat' first
    | with_reducible assumption
    | with_reducible apply setLl_within (Sub.up hM rfl)
    | with_reducible apply releaseStep_within (Sub.up hM rfl)

theorem securingEnds_within {M : Nat} {s0 : State} (hM : Sub 0x100380013 M) (s : State) (n : Nat) (hW : Within M s0 s) : Within M s0 (securingEnds s n) := by
  unfold securingEnds
  repeat' first
    | with_reducible assumption
    | with_reducible apply finishDisarm_within (Sub.up hM rfl)
    | with_reducible apply endSecuring_within (Sub.up hM rfl)

theorem execCommit_within {M : Nat} {s0 : State} (hM : Sub 0x7103e3fdb M) (n : StrandId) (step : Word) (_slot : Fin 4) (failed : Bool) (s : State) (hW : Within M s0 s) :
    ∃ u, execCommit n step _slot failed s = .next u ∧ Within M s0 u := by
  unfold execCommit
  refine ⟨_, rfl, ?_⟩
  repeat' first
    | with_reducible assumption
    | (intro x
       first
         | (have hx : Within M s0 x := by
              unfold x
              repeat' first
                | with_reducible assumption
                | with_reducible apply Within.ite
                | with_reducible apply bump_within (Sub.up hM rfl)
                | with_reducible apply setLl_within (Sub.up hM rfl)
                | with_reducible apply sendPayload_within (Sub.up hM rfl)
                | with_reducible apply sendOptimiser_within (Sub.up hM rfl)
                | with_reducible apply sendMark_within (Sub.up hM rfl)
                | with_reducible apply securingEnds_within (Sub.up hM rfl)
                | (with_reducible apply Within.snd <;> [with_reducible assumption; skip])
                | (with_reducible apply Within.fst <;> [with_reducible assumption; skip])
                | (with_reducible apply Within.fst2 <;> [with_reducible assumption; skip])
                | split)
         | skip
       clear_value x)
    | lift_lets -underBinder
    | with_reducible apply Within.ite
    | with_reducible apply bump_within (Sub.up hM rfl)
    | with_reducible apply setLl_within (Sub.up hM rfl)
    | with_reducible apply sendPayload_within (Sub.up hM rfl)
    | with_reducible apply sendOptimiser_within (Sub.up hM rfl)
    | with_reducible apply sendMark_within (Sub.up hM rfl)
    | with_reducible apply securingEnds_within (Sub.up hM rfl)
    | (with_reducible apply Within.snd <;> [with_reducible assumption; skip])
    | (with_reducible apply Within.fst <;> [with_reducible assumption; skip])
    | (with_reducible apply Within.fst2 <;> [with_reducible assumption; skip])
    | split

theorem execLifelineBroken_within {M : Nat} {s0 : State} (hM : Sub 0x310380093 M) (n : StrandId) (s : State) (hW : Within M s0 s) :
    ∃ u, execLifelineBroken n s = .next u ∧ Within M s0 u := by
  unfold execLifelineBroken
  refine ⟨_, rfl, ?_⟩
  repeat' first
    | with_reducible assumption
    | (intro x
       first
         | (have hx : Within M s0 x := by
              unfold x
              repeat' first
                | with_reducible assumption
                | with_reducible apply Within.ite
                | with_reducible apply raise_within (Sub.up hM rfl)
                | with_reducible apply setLl_within (Sub.up hM rfl)
                | with_reducible apply securingEnds_within (Sub.up hM rfl))
         | skip
       clear_value x)
    | lift_lets -underBinder
    | with_reducible apply Within.ite
    | with_reducible apply raise_within (Sub.up hM rfl)
    | with_reducible apply setLl_within (Sub.up hM rfl)
    | with_reducible apply securingEnds_within (Sub.up hM rfl)

theorem execSendAcknowledged_within {M : Nat} {s0 : State} (hM : Sub 0x7100e3fdb M) (p : PortId) (s : State) (hW : Within M s0 s) :
    ∃ u, execSendAcknowledged p s = .next u ∧ Within M s0 u := by
  unfold execSendAcknowledged
  refine ⟨_, rfl, ?_⟩
  repeat' first
    | with_reducible assumption
    | (intro x
       first
         | (have hx : Within M s0 x := by
              unfold x
              repeat' first
                | with_reducible assumption
                | with_reducible apply Within.ite
                | with_reducible apply updPort_within (Sub.up hM rfl)
                | with_reducible apply updLifeline_within (Sub.up hM rfl)
                | with_reducible apply countMarker_within (Sub.up hM rfl)
                | with_reducible apply sendOptimiser_within (Sub.up hM rfl)
                | (with_reducible apply Within.snd <;> [with_reducible assumption; skip])
                | (with_reducible apply Within.fst <;> [with_reducible assumption; skip])
                | (with_reducible apply Within.fst2 <;> [with_reducible assumption; skip])
                | split)
         | skip
       clear_value x)
    | lift_lets -underBinder
    | with_reducible apply Within.ite
    | with_reducible apply updPort_within (Sub.up hM rfl)
    | with_reducible apply updLifeline_within (Sub.up hM rfl)
    | with_reducible apply countMarker_within (Sub.up hM rfl)
    | with_reducible apply sendOptimiser_within (Sub.up hM rfl)
    | (with_reducible apply Within.snd <;> [with_reducible assumption; skip])
    | (with_reducible apply Within.fst <;> [with_reducible assumption; skip])
    | (with_reducible apply Within.fst2 <;> [with_reducible assumption; skip])
    | split

theorem execNack_within {M : Nat} {s0 : State} (hM : Sub 0x7100e3fdb M) (p : PortId) (dst : BitVec 12) (n : StrandId) (seq : BitVec 16) (cause : BitVec 3) (abandoned : Bool) (s : State) (hW : Within M s0 s) :
    ∃ u, execNack p dst n seq cause abandoned s = .next u ∧ Within M s0 u := by
  unfold execNack
  refine ⟨_, rfl, ?_⟩
  repeat' first
    | with_reducible assumption
    | (intro x
       first
         | (have hx : Within M s0 x := by
              unfold x
              repeat' first
                | with_reducible assumption
                | with_reducible apply Within.ite
                | with_reducible apply bump_within (Sub.up hM rfl)
                | with_reducible apply takeNack_within (Sub.up hM rfl)
                | with_reducible apply answerCommit_within (Sub.up hM rfl))
         | skip
       clear_value x)
    | lift_lets -underBinder
    | with_reducible apply Within.ite
    | with_reducible apply bump_within (Sub.up hM rfl)
    | with_reducible apply takeNack_within (Sub.up hM rfl)
    | with_reducible apply answerCommit_within (Sub.up hM rfl)

end Sys2Proof.Machine
end

