-- ==== Sys2Proof/Laws/WithinSaveOps.lean ====
section
/-! SUPPORT. What the operations and commands of Machine/SaveOps can do to the state (Laws/Within). -/

namespace Sys2Proof.Machine

theorem wearSlot_within {M : Nat} {s0 : State} (hM : Sub 0x8000000 M) (s : State) (k : Nat) (hW : Within M s0 s) : Within M s0 (wearSlot s k) := by
  unfold wearSlot
  repeat' first
    | with_reducible assumption
    | with_reducible refine Within.fold (fun _ _ _ => ?_) ?_
    | with_reducible refine Within.fold1 (fun _ _ _ => ?_) ?_
    | with_reducible refine Within.fold2 (fun _ _ _ => ?_) ?_
    | with_reducible refine Within.wear ?_ (Sub.has hM rfl)

theorem writeSave_within {M : Nat} {s0 : State} (hM : Sub 0xc000000 M) (s : State) (cause : Nat) (hW : Within M s0 s) : Within M s0 (writeSave s cause) := by
  unfold writeSave
  repeat' first
    | with_reducible assumption
    | (intro x
       first
         | (have hx : Within M s0 x := by
              unfold x
              repeat' first
                | with_reducible assumption
                | with_reducible apply wearSlot_within (Sub.up hM rfl)
                | with_reducible refine Within.saves ?_ (Sub.has hM rfl))
         | skip
       clear_value x)
    | lift_lets -underBinder
    | with_reducible apply wearSlot_within (Sub.up hM rfl)
    | with_reducible refine Within.saves ?_ (Sub.has hM rfl)

theorem endSave_within {M : Nat} {s0 : State} (hM : Sub 0x4000000 M) (s : State) (hW : Within M s0 s) : Within M s0 (endSave s) := by
  unfold endSave
  repeat' first
    | with_reducible assumption
    | with_reducible refine Within.saves ?_ (Sub.has hM rfl)

theorem findTorn_within {M : Nat} {s0 : State} (hM : Sub 0x6000000 M) (s : State) (hW : Within M s0 s) : Within M s0 (findTorn s) := by
  unfold findTorn
  repeat' first
    | with_reducible assumption
    | with_reducible refine Within.setPowerSaves ?_ (Sub.has hM rfl) (Sub.has hM rfl)
    | with_reducible refine Within.power ?_ (Sub.has hM rfl)
    | with_reducible refine Within.saves ?_ (Sub.has hM rfl)

end Sys2Proof.Machine
end

