-- ==== Sys2Proof/Laws/WithinPower.lean ====
section
/-! SUPPORT. What the operations and commands of Machine/Power can do to the state (Laws/Within). -/

namespace Sys2Proof.Machine

theorem powerDown_within {M : Nat} {s0 : State} (hM : Sub 0x1020fffff M) (s : State) (hW : Within M s0 s) : Within M s0 (powerDown s) :=
  Within.setMany20 (t := { s with regs := s.regs.filter (fun p => mgtRegister p.1), mem := s.mem.filter (fun c => isFar c.1 || isHost c.1) })
    (.memClear (t := { s with regs := s.regs.filter (fun p => mgtRegister p.1) }) _ (.regClear _ hW (Sub.has hM rfl)) (Sub.has hM rfl))
    (Sub.has hM rfl) (Nat.le_refl _) (Sub.has hM rfl) ⟨rfl, Nat.or_self _, List.prefix_rfl, List.prefix_rfl⟩ (Sub.has hM rfl) (Sub.has hM rfl) (Sub.has hM rfl) (Sub.has hM rfl) (Sub.has hM rfl) (Sub.has hM rfl) (Sub.has hM rfl) (Sub.has hM rfl) (Sub.has hM rfl) (Sub.has hM rfl) (Sub.has hM rfl) (Sub.has hM rfl) (Sub.has hM rfl) (Sub.has hM rfl) (Sub.has hM rfl) (Sub.has hM rfl) (Sub.has hM rfl) (Sub.has hM rfl)

theorem stageEnd_within {M : Nat} {s0 : State} (hM : Sub 0x232000000 M) (s : State) (k : Nat) (busy : Bool) (hW : Within M s0 s) : Within M s0 (stageEnd s k busy) := by
  unfold stageEnd
  repeat' first
    | with_reducible assumption
    | with_reducible apply sendHeartbeat_within (Sub.up hM rfl)
    | with_reducible refine Within.setPowerBg ?_ (Sub.has hM rfl) (Sub.has hM rfl)
    | with_reducible refine Within.power ?_ (Sub.has hM rfl)
    | with_reducible refine Within.bg ?_ (Sub.has hM rfl)

theorem stageFail_within {M : Nat} {s0 : State} (hM : Sub 0x312000081 M) (s : State) (k status : Nat) (hW : Within M s0 s) : Within M s0 (stageFail s k status) := by
  unfold stageFail
  repeat' first
    | with_reducible assumption
    | with_reducible apply mgtEvent_within (Sub.up hM rfl)
    | with_reducible refine Within.power ?_ (Sub.has hM rfl)

theorem tryActive_within {M : Nat} {s0 : State} (hM : Sub 0x2000000 M) (s : State) (hW : Within M s0 s) : Within M s0 (tryActive s) := by
  unfold tryActive
  repeat' first
    | with_reducible assumption
    | with_reducible apply Within.ite
    | with_reducible refine Within.power ?_ (Sub.has hM rfl)

theorem freshDebug_within {M : Nat} {s0 : State} (hM : Sub 0x80000000 M) (s : State) (hW : Within M s0 s) : Within M s0 (freshDebug s) := by
  unfold freshDebug
  repeat' first
    | with_reducible assumption
    | with_reducible refine Within.sec ?_ (Sub.has hM rfl)

theorem execInputValid_within {M : Nat} {s0 : State} (hM : Sub 0x1082000004 M) (feedId : BitVec 4) (slotId : Byte) (s : State) (hW : Within M s0 s) :
    ∃ u, execInputValid feedId slotId s = .next u ∧ Within M s0 u := by
  unfold execInputValid
  refine ⟨_, rfl, ?_⟩
  repeat' first
    | with_reducible assumption
    | with_reducible apply Within.ite
    | with_reducible apply freshDebug_within (Sub.up hM rfl)
    | with_reducible refine Within.setClockBackPowerSec ?_ (Sub.has hM rfl) (Sub.has hM rfl) (Sub.has hM rfl) (Sub.has hM rfl)
    | with_reducible refine Within.clockBack ?_ (Sub.has hM rfl) (Sub.has hM rfl)
    | with_reducible refine Within.power ?_ (Sub.has hM rfl)
    | with_reducible refine Within.sec ?_ (Sub.has hM rfl)
    | exact Nat.le_refl _

theorem execBusOff_within {M : Nat} {s0 : State} (hM : Sub 0x15f3ffffff M) (s : State) (hW : Within M s0 s) :
    ∃ u, execBusOff s = .next u ∧ Within M s0 u :=
  ⟨_, rfl, Within.setMany11 (t := { breakBurn (powerDown s) with regs := [] })
    (Within.regNone (breakBurn_within (Sub.up hM rfl) _ (powerDown_within (Sub.up hM rfl) _ hW)) (Sub.has hM rfl)) (Sub.has hM rfl) (Sub.has hM rfl) (Sub.has hM rfl) (Sub.has hM rfl) (Sub.has hM rfl) (Sub.has hM rfl) (Sub.has hM rfl) (Sub.has hM rfl) (Sub.has hM rfl) (Sub.has hM rfl) (Sub.has hM rfl) (Sub.has hM rfl)⟩

theorem freezeImage_within {M : Nat} {s0 : State} (hM : Sub 0xc000000 M) (s : State) (cause : Nat) (hW : Within M s0 s) : Within M s0 (freezeImage s cause) := by
  unfold freezeImage
  repeat' first
    | with_reducible assumption
    | with_reducible apply Within.ite
    | with_reducible apply writeSave_within (Sub.up hM rfl)

theorem startBindOff_within {M : Nat} {s0 : State} (hM : Sub 0x39e0fffff M) (s : State) (cause : Nat) (hW : Within M s0 s) : Within M s0 (startBindOff s cause) := by
  unfold startBindOff
  repeat' first
    | with_reducible assumption
    | (intro x
       first
         | (have hx : Within M s0 x := by
              unfold x
              repeat' first
                | with_reducible assumption
                | with_reducible apply Within.ite
                | with_reducible apply bump_within (Sub.up hM rfl)
                | with_reducible apply mgtEvent_within (Sub.up hM rfl)
                | with_reducible apply endUnlock_within (Sub.up hM rfl)
                | with_reducible apply powerDown_within (Sub.up hM rfl)
                | with_reducible apply freezeImage_within (Sub.up hM rfl)
                | with_reducible refine Within.power ?_ (Sub.has hM rfl))
         | skip
       clear_value x)
    | lift_lets -underBinder
    | with_reducible apply Within.ite
    | with_reducible apply bump_within (Sub.up hM rfl)
    | with_reducible apply mgtEvent_within (Sub.up hM rfl)
    | with_reducible apply endUnlock_within (Sub.up hM rfl)
    | with_reducible apply powerDown_within (Sub.up hM rfl)
    | with_reducible apply freezeImage_within (Sub.up hM rfl)
    | with_reducible refine Within.power ?_ (Sub.has hM rfl)

theorem execBindOff_within {M : Nat} {s0 : State} (hM : Sub 0x39e0fffff M) (loadMv : Nat) (s : State) (hW : Within M s0 s) :
    ∃ u, execBindOff loadMv s = .next u ∧ Within M s0 u := by
  unfold execBindOff
  refine ⟨_, rfl, ?_⟩
  repeat' first
    | with_reducible assumption
    | with_reducible apply Within.ite
    | with_reducible apply startBindOff_within (Sub.up hM rfl)

theorem execThermalOvervoltTrip_within {M : Nat} {s0 : State} (hM : Sub 0x39e0fffff M) (overvolt : Bool) (highest busMv : Nat) (s : State) (hW : Within M s0 s) :
    ∃ u, execThermalOvervoltTrip overvolt highest busMv s = .next u ∧ Within M s0 u := by
  unfold execThermalOvervoltTrip
  refine ⟨_, rfl, ?_⟩
  repeat' first
    | with_reducible assumption
    | (intro x
       first
         | (have hx : Within M s0 x := by
              unfold x
              repeat' first
                | with_reducible assumption
                | with_reducible apply Within.ite
                | with_reducible apply startBindOff_within (Sub.up hM rfl)
                | with_reducible refine Within.power ?_ (Sub.has hM rfl))
         | skip
       clear_value x)
    | lift_lets -underBinder
    | with_reducible apply Within.ite
    | with_reducible apply startBindOff_within (Sub.up hM rfl)
    | with_reducible refine Within.power ?_ (Sub.has hM rfl)

theorem execSaveComplete_within {M : Nat} {s0 : State} (hM : Sub 0x6000000 M) (s : State) (hW : Within M s0 s) :
    ∃ u, execSaveComplete s = .next u ∧ Within M s0 u := by
  unfold execSaveComplete
  refine ⟨_, rfl, ?_⟩
  repeat' first
    | with_reducible assumption
    | (intro x
       first
         | (have hx : Within M s0 x := by
              unfold x
              repeat' first
                | with_reducible assumption
                | with_reducible apply Within.ite
                | with_reducible apply endSave_within (Sub.up hM rfl)
                | with_reducible refine Within.power ?_ (Sub.has hM rfl)
                | with_reducible refine Within.saves ?_ (Sub.has hM rfl))
         | skip
       clear_value x)
    | lift_lets -underBinder
    | with_reducible apply Within.ite
    | with_reducible apply endSave_within (Sub.up hM rfl)
    | with_reducible refine Within.power ?_ (Sub.has hM rfl)
    | with_reducible refine Within.saves ?_ (Sub.has hM rfl)

theorem execHaltedRestart_within {M : Nat} {s0 : State} (hM : Sub 0x82000000 M) (busMv : Nat) (s : State) (hW : Within M s0 s) :
    ∃ u, execHaltedRestart busMv s = .next u ∧ Within M s0 u := by
  unfold execHaltedRestart
  refine ⟨_, rfl, ?_⟩
  repeat' first
    | with_reducible assumption
    | with_reducible apply Within.ite
    | with_reducible apply freshDebug_within (Sub.up hM rfl)
    | with_reducible refine Within.setPowerSec ?_ (Sub.has hM rfl) (Sub.has hM rfl)
    | with_reducible refine Within.power ?_ (Sub.has hM rfl)

theorem stageOne_within {M : Nat} {s0 : State} (hM : Sub 0x3b6000089 M) (s : State) (banks : List (List ImageCheck)) (hW : Within M s0 s) : Within M s0 (stageOne s banks) := by
  unfold stageOne
  repeat' first
    | with_reducible assumption
    | (intro x
       first
         | (have hx : Within M s0 x := by
              unfold x
              repeat' first
                | with_reducible assumption
                | with_reducible apply hfa
                | with_reducible apply hfb
                | with_reducible apply hfc
                | with_reducible apply hfd
                | with_reducible apply hfe
                | with_reducible apply Within.ite
                | with_reducible refine updPkg_within (Sub.up hM rfl) (markBooted_grows) ?_
                | with_reducible apply findTorn_within (Sub.up hM rfl)
                | with_reducible apply mgtEvent_within (Sub.up hM rfl)
                | with_reducible apply newAlias_within (Sub.up hM rfl)
                | with_reducible apply stageEnd_within (Sub.up hM rfl)
                | with_reducible apply stageFail_within (Sub.up hM rfl)
                | with_reducible apply tryActive_within (Sub.up hM rfl)
                | with_reducible refine Within.sec ?_ (Sub.has hM rfl))
         | (have hfa : ∀ t, Within M s0 t → Within M s0 (x t) := by
              intro t ht; unfold x
              repeat' first
                | with_reducible assumption
                | with_reducible apply hfa
                | with_reducible apply hfb
                | with_reducible apply hfc
                | with_reducible apply hfd
                | with_reducible apply hfe
                | with_reducible apply Within.ite
                | with_reducible refine updPkg_within (Sub.up hM rfl) (markBooted_grows) ?_
                | with_reducible apply findTorn_within (Sub.up hM rfl)
                | with_reducible apply mgtEvent_within (Sub.up hM rfl)
                | with_reducible apply newAlias_within (Sub.up hM rfl)
                | with_reducible apply stageEnd_within (Sub.up hM rfl)
                | with_reducible apply stageFail_within (Sub.up hM rfl)
                | with_reducible apply tryActive_within (Sub.up hM rfl)
                | with_reducible refine Within.sec ?_ (Sub.has hM rfl))
         | (have hfb : ∀ t a, Within M s0 t → Within M s0 (x t a) := by
              intro t a ht; unfold x
              repeat' first
                | with_reducible assumption
                | with_reducible apply hfa
                | with_reducible apply hfb
                | with_reducible apply hfc
                | with_reducible apply hfd
                | with_reducible apply hfe
                | with_reducible apply Within.ite
                | with_reducible refine updPkg_within (Sub.up hM rfl) (markBooted_grows) ?_
                | with_reducible apply findTorn_within (Sub.up hM rfl)
                | with_reducible apply mgtEvent_within (Sub.up hM rfl)
                | with_reducible apply newAlias_within (Sub.up hM rfl)
                | with_reducible apply stageEnd_within (Sub.up hM rfl)
                | with_reducible apply stageFail_within (Sub.up hM rfl)
                | with_reducible apply tryActive_within (Sub.up hM rfl)
                | with_reducible refine Within.sec ?_ (Sub.has hM rfl))
         | (have hfc : ∀ t a b, Within M s0 t → Within M s0 (x t a b) := by
              intro t a b ht; unfold x
              repeat' first
                | with_reducible assumption
                | with_reducible apply hfa
                | with_reducible apply hfb
                | with_reducible apply hfc
                | with_reducible apply hfd
                | with_reducible apply hfe
                | with_reducible apply Within.ite
                | with_reducible refine updPkg_within (Sub.up hM rfl) (markBooted_grows) ?_
                | with_reducible apply findTorn_within (Sub.up hM rfl)
                | with_reducible apply mgtEvent_within (Sub.up hM rfl)
                | with_reducible apply newAlias_within (Sub.up hM rfl)
                | with_reducible apply stageEnd_within (Sub.up hM rfl)
                | with_reducible apply stageFail_within (Sub.up hM rfl)
                | with_reducible apply tryActive_within (Sub.up hM rfl)
                | with_reducible refine Within.sec ?_ (Sub.has hM rfl))
         | (have hfd : ∀ t, Within M s0 t → Within M s0 (x t).1 := by
              intro t ht; unfold x
              repeat' first
                | with_reducible assumption
                | with_reducible apply hfa
                | with_reducible apply hfb
                | with_reducible apply hfc
                | with_reducible apply hfd
                | with_reducible apply hfe
                | with_reducible apply Within.ite
                | with_reducible refine updPkg_within (Sub.up hM rfl) (markBooted_grows) ?_
                | with_reducible apply findTorn_within (Sub.up hM rfl)
                | with_reducible apply mgtEvent_within (Sub.up hM rfl)
                | with_reducible apply newAlias_within (Sub.up hM rfl)
                | with_reducible apply stageEnd_within (Sub.up hM rfl)
                | with_reducible apply stageFail_within (Sub.up hM rfl)
                | with_reducible apply tryActive_within (Sub.up hM rfl)
                | with_reducible refine Within.sec ?_ (Sub.has hM rfl))
         | (have hfe : ∀ t, Within M s0 t → Within M s0 (x t).2 := by
              intro t ht; unfold x
              repeat' first
                | with_reducible assumption
                | with_reducible apply hfa
                | with_reducible apply hfb
                | with_reducible apply hfc
                | with_reducible apply hfd
                | with_reducible apply hfe
                | with_reducible apply Within.ite
                | with_reducible refine updPkg_within (Sub.up hM rfl) (markBooted_grows) ?_
                | with_reducible apply findTorn_within (Sub.up hM rfl)
                | with_reducible apply mgtEvent_within (Sub.up hM rfl)
                | with_reducible apply newAlias_within (Sub.up hM rfl)
                | with_reducible apply stageEnd_within (Sub.up hM rfl)
                | with_reducible apply stageFail_within (Sub.up hM rfl)
                | with_reducible apply tryActive_within (Sub.up hM rfl)
                | with_reducible refine Within.sec ?_ (Sub.has hM rfl))
         | skip
       clear_value x)
    | lift_lets -underBinder
    | with_reducible apply hfa
    | with_reducible apply hfb
    | with_reducible apply hfc
    | with_reducible apply hfd
    | with_reducible apply hfe
    | with_reducible apply Within.ite
    | with_reducible refine updPkg_within (Sub.up hM rfl) (markBooted_grows) ?_
    | with_reducible apply findTorn_within (Sub.up hM rfl)
    | with_reducible apply mgtEvent_within (Sub.up hM rfl)
    | with_reducible apply newAlias_within (Sub.up hM rfl)
    | with_reducible apply stageEnd_within (Sub.up hM rfl)
    | with_reducible apply stageFail_within (Sub.up hM rfl)
    | with_reducible apply tryActive_within (Sub.up hM rfl)
    | with_reducible refine Within.sec ?_ (Sub.has hM rfl)

theorem stageThree_within {M : Nat} {s0 : State} (hM : Sub 0x2000680 M) (s : State) (farCaps : List Nat) (hW : Within M s0 s) : Within M s0 (stageThree s farCaps) := by
  unfold stageThree
  repeat' first
    | with_reducible assumption
    | (intro x
       first
         | (have hx : Within M s0 x := by
              unfold x
              repeat' first
                | with_reducible assumption
                | with_reducible apply Within.ite
                | with_reducible apply updStack_within (Sub.up hM rfl)
                | with_reducible apply updFar_within (Sub.up hM rfl)
                | with_reducible refine each_within (fun _ _ _ => ?_) ?_
                | with_reducible refine Within.setHstPower ?_ (Sub.has hM rfl) (Sub.has hM rfl)
                | with_reducible refine Within.hst ?_ (Sub.has hM rfl)
                | with_reducible refine Within.power ?_ (Sub.has hM rfl))
         | skip
       clear_value x)
    | lift_lets -underBinder
    | with_reducible apply Within.ite
    | with_reducible apply updStack_within (Sub.up hM rfl)
    | with_reducible apply updFar_within (Sub.up hM rfl)
    | with_reducible refine each_within (fun _ _ _ => ?_) ?_
    | with_reducible refine Within.setHstPower ?_ (Sub.has hM rfl) (Sub.has hM rfl)
    | with_reducible refine Within.hst ?_ (Sub.has hM rfl)
    | with_reducible refine Within.power ?_ (Sub.has hM rfl)

theorem stageFour_within {M : Nat} {s0 : State} (hM : Sub 0x3320808db M) (s : State) (failedCores : Nat) (hW : Within M s0 s) : Within M s0 (stageFour s failedCores) := by
  unfold stageFour
  repeat' first
    | with_reducible assumption
    | (intro x
       first
         | (have hx : Within M s0 x := by
              unfold x
              repeat' first
                | with_reducible assumption
                | with_reducible apply Within.ite
                | with_reducible apply fenceCore_within (Sub.up hM rfl)
                | with_reducible apply stageEnd_within (Sub.up hM rfl)
                | with_reducible apply stageFail_within (Sub.up hM rfl)
                | with_reducible refine each_within (fun _ _ _ => ?_) ?_
                | with_reducible refine Within.memRange _ _ ?_ (Sub.has hM rfl)
                | with_reducible refine Within.memWrite _ _ ?_ (Sub.has hM rfl)
                | with_reducible refine Within.memClear _ ?_ (Sub.has hM rfl))
         | skip
       clear_value x)
    | lift_lets -underBinder
    | with_reducible apply Within.ite
    | with_reducible apply fenceCore_within (Sub.up hM rfl)
    | with_reducible apply stageEnd_within (Sub.up hM rfl)
    | with_reducible apply stageFail_within (Sub.up hM rfl)
    | with_reducible refine each_within (fun _ _ _ => ?_) ?_
    | with_reducible refine Within.memRange _ _ ?_ (Sub.has hM rfl)
    | with_reducible refine Within.memWrite _ _ ?_ (Sub.has hM rfl)
    | with_reducible refine Within.memClear _ ?_ (Sub.has hM rfl)

theorem execCastOnStageComplete_within {M : Nat} {s0 : State} (hM : Sub 0x3b6080edb M) (failedCores : Word) (banks : List (List ImageCheck)) (farCaps : List Nat) (linkMode : Fin 4) (s : State) (hW : Within M s0 s) :
    ∃ u, execCastOnStageComplete failedCores banks farCaps linkMode s = .next u ∧ Within M s0 u := by
  unfold execCastOnStageComplete
  refine ⟨_, rfl, ?_⟩
  repeat' first
    | with_reducible assumption
    | (intro x
       first
         | (have hx : Within M s0 x := by
              unfold x
              repeat' first
                | with_reducible assumption
                | with_reducible apply Within.ite
                | with_reducible apply stageEnd_within (Sub.up hM rfl)
                | with_reducible apply stageOne_within (Sub.up hM rfl)
                | with_reducible apply stageThree_within (Sub.up hM rfl)
                | with_reducible apply stageFour_within (Sub.up hM rfl)
                | with_reducible refine Within.hst ?_ (Sub.has hM rfl))
         | skip
       clear_value x)
    | lift_lets -underBinder
    | with_reducible apply Within.ite
    | with_reducible apply stageEnd_within (Sub.up hM rfl)
    | with_reducible apply stageOne_within (Sub.up hM rfl)
    | with_reducible apply stageThree_within (Sub.up hM rfl)
    | with_reducible apply stageFour_within (Sub.up hM rfl)
    | with_reducible refine Within.hst ?_ (Sub.has hM rfl)

theorem execCastOnStageFail_within {M : Nat} {s0 : State} (hM : Sub 0x312000281 M) (status : BitVec 16) (stack : StackId) (ch : Channel) (s : State) (hW : Within M s0 s) :
    ∃ u, execCastOnStageFail status stack ch s = .next u ∧ Within M s0 u := by
  unfold execCastOnStageFail
  refine ⟨_, rfl, ?_⟩
  repeat' first
    | with_reducible assumption
    | (intro x
       first
         | (have hx : Within M s0 x := by
              unfold x
              repeat' first
                | with_reducible assumption
                | with_reducible apply Within.ite
                | with_reducible apply setReg_within (Sub.up hM rfl)
                | with_reducible apply updStack_within (Sub.up hM rfl)
                | with_reducible apply stageFail_within (Sub.up hM rfl))
         | skip
       clear_value x)
    | lift_lets -underBinder
    | with_reducible apply Within.ite
    | with_reducible apply setReg_within (Sub.up hM rfl)
    | with_reducible apply updStack_within (Sub.up hM rfl)
    | with_reducible apply stageFail_within (Sub.up hM rfl)

theorem setLevel_within {M : Nat} {s0 : State} (hM : Sub 0x2000000 M) (s : State) (pin : Nat) (high : Bool) (hW : Within M s0 s) : Within M s0 (setLevel s pin high) := by
  unfold setLevel
  repeat' first
    | with_reducible assumption
    | with_reducible apply Within.ite
    | with_reducible refine Within.power ?_ (Sub.has hM rfl)

theorem execSagWarning_within {M : Nat} {s0 : State} (hM : Sub 0x2000001 M) (busMv : Nat) (sagAsserted : Bool) (s : State) (hW : Within M s0 s) :
    ∃ u, execSagWarning busMv sagAsserted s = .next u ∧ Within M s0 u := by
  unfold execSagWarning
  refine ⟨_, rfl, ?_⟩
  repeat' first
    | with_reducible assumption
    | (intro x
       first
         | (have hx : Within M s0 x := by
              unfold x
              repeat' first
                | with_reducible assumption
                | with_reducible apply Within.ite
                | with_reducible apply bump_within (Sub.up hM rfl)
                | with_reducible apply setLevel_within (Sub.up hM rfl)
                | with_reducible refine Within.power ?_ (Sub.has hM rfl))
         | skip
       clear_value x)
    | lift_lets -underBinder
    | with_reducible apply Within.ite
    | with_reducible apply bump_within (Sub.up hM rfl)
    | with_reducible apply setLevel_within (Sub.up hM rfl)
    | with_reducible refine Within.power ?_ (Sub.has hM rfl)

theorem execSagWarningClear_within {M : Nat} {s0 : State} (hM : Sub 0x2000000 M) (busMv : Nat) (s : State) (hW : Within M s0 s) :
    ∃ u, execSagWarningClear busMv s = .next u ∧ Within M s0 u := by
  unfold execSagWarningClear
  refine ⟨_, rfl, ?_⟩
  repeat' first
    | with_reducible assumption
    | (intro x
       first
         | (have hx : Within M s0 x := by
              unfold x
              repeat' first
                | with_reducible assumption
                | with_reducible apply Within.ite
                | with_reducible apply setLevel_within (Sub.up hM rfl)
                | with_reducible refine Within.power ?_ (Sub.has hM rfl))
         | skip
       clear_value x)
    | lift_lets -underBinder
    | with_reducible apply Within.ite
    | with_reducible apply setLevel_within (Sub.up hM rfl)
    | with_reducible refine Within.power ?_ (Sub.has hM rfl)

theorem execThrottleNAssert_within {M : Nat} {s0 : State} (hM : Sub 0x2000000 M) (s : State) (hW : Within M s0 s) :
    ∃ u, execThrottleNAssert s = .next u ∧ Within M s0 u := by
  unfold execThrottleNAssert
  refine ⟨_, rfl, ?_⟩
  repeat' first
    | with_reducible assumption
    | (intro x
       first
         | (have hx : Within M s0 x := by
              unfold x
              repeat' first
                | with_reducible assumption
                | with_reducible apply Within.ite
                | with_reducible apply setLevel_within (Sub.up hM rfl)
                | with_reducible refine Within.power ?_ (Sub.has hM rfl))
         | skip
       clear_value x)
    | lift_lets -underBinder
    | with_reducible apply Within.ite
    | with_reducible apply setLevel_within (Sub.up hM rfl)
    | with_reducible refine Within.power ?_ (Sub.has hM rfl)

theorem execThrottleNDeassert_within {M : Nat} {s0 : State} (hM : Sub 0x2000000 M) (s : State) (hW : Within M s0 s) :
    ∃ u, execThrottleNDeassert s = .next u ∧ Within M s0 u := by
  unfold execThrottleNDeassert
  refine ⟨_, rfl, ?_⟩
  repeat' first
    | with_reducible assumption
    | (intro x
       first
         | (have hx : Within M s0 x := by
              unfold x
              repeat' first
                | with_reducible assumption
                | with_reducible apply Within.ite
                | with_reducible apply setLevel_within (Sub.up hM rfl)
                | with_reducible refine Within.power ?_ (Sub.has hM rfl))
         | skip
       clear_value x)
    | lift_lets -underBinder
    | with_reducible apply Within.ite
    | with_reducible apply setLevel_within (Sub.up hM rfl)
    | with_reducible refine Within.power ?_ (Sub.has hM rfl)

theorem execPowerWindow_within {M : Nat} {s0 : State} (hM : Sub 0x2000000 M) (watts deciamps busMv : Nat) (current : Bool) (s : State) (hW : Within M s0 s) :
    ∃ u, execPowerWindow watts deciamps busMv current s = .next u ∧ Within M s0 u := by
  unfold execPowerWindow
  refine ⟨_, rfl, ?_⟩
  repeat' first
    | with_reducible assumption
    | (intro x
       first
         | (have hx : Within M s0 x := by
              unfold x
              repeat' first
                | with_reducible assumption
                | with_reducible apply Within.ite
                | with_reducible refine Within.power ?_ (Sub.has hM rfl))
         | skip
       clear_value x)
    | lift_lets -underBinder
    | with_reducible apply Within.ite
    | with_reducible refine Within.power ?_ (Sub.has hM rfl)

theorem execThermalThrottle_within {M : Nat} {s0 : State} (hM : Sub 0x2000010 M) (die : DieId) (temp highest : Nat) (s : State) (hW : Within M s0 s) :
    ∃ u, execThermalThrottle die temp highest s = .next u ∧ Within M s0 u := by
  unfold execThermalThrottle
  refine ⟨_, rfl, ?_⟩
  repeat' first
    | with_reducible assumption
    | (intro x
       first
         | (have hx : Within M s0 x := by
              unfold x
              repeat' first
                | with_reducible assumption
                | dsimp -zeta only
                | with_reducible apply Within.ite1
                | with_reducible apply Within.ite2
                | with_reducible apply Within.ite
                | with_reducible apply updCore_within (Sub.up hM rfl)
                | (with_reducible apply Within.snd <;> [with_reducible assumption; skip])
                | (with_reducible apply Within.fst <;> [with_reducible assumption; skip])
                | (with_reducible apply Within.fst2 <;> [with_reducible assumption; skip])
                | split
                | with_reducible refine Within.power ?_ (Sub.has hM rfl))
         | (have hx : Within M s0 x.1 := by
              unfold x
              repeat' first
                | with_reducible assumption
                | dsimp -zeta only
                | with_reducible apply Within.ite1
                | with_reducible apply Within.ite2
                | with_reducible apply Within.ite
                | with_reducible apply updCore_within (Sub.up hM rfl)
                | (with_reducible apply Within.snd <;> [with_reducible assumption; skip])
                | (with_reducible apply Within.fst <;> [with_reducible assumption; skip])
                | (with_reducible apply Within.fst2 <;> [with_reducible assumption; skip])
                | split
                | with_reducible refine Within.power ?_ (Sub.has hM rfl))
         | (have hx : Within M s0 x.2 := by
              unfold x
              repeat' first
                | with_reducible assumption
                | dsimp -zeta only
                | with_reducible apply Within.ite1
                | with_reducible apply Within.ite2
                | with_reducible apply Within.ite
                | with_reducible apply updCore_within (Sub.up hM rfl)
                | (with_reducible apply Within.snd <;> [with_reducible assumption; skip])
                | (with_reducible apply Within.fst <;> [with_reducible assumption; skip])
                | (with_reducible apply Within.fst2 <;> [with_reducible assumption; skip])
                | split
                | with_reducible refine Within.power ?_ (Sub.has hM rfl))
         | skip
       clear_value x)
    | lift_lets -underBinder
    | dsimp -zeta only
    | with_reducible apply Within.ite1
    | with_reducible apply Within.ite2
    | with_reducible apply Within.ite
    | with_reducible apply updCore_within (Sub.up hM rfl)
    | (with_reducible apply Within.snd <;> [with_reducible assumption; skip])
    | (with_reducible apply Within.fst <;> [with_reducible assumption; skip])
    | (with_reducible apply Within.fst2 <;> [with_reducible assumption; skip])
    | split
    | with_reducible refine Within.power ?_ (Sub.has hM rfl)

theorem perstDown_within {M : Nat} {s0 : State} (hM : Sub 0x2000004 M) (s : State) (hW : Within M s0 s) : Within M s0 (perstDown s) :=
  .setClockPower hW (Sub.has hM rfl) (Nat.le_refl _) (Sub.has hM rfl)

theorem perstReset_within {M : Nat} {s0 : State} (hM : Sub 0x3920fffff M) (s : State) (hW : Within M s0 s) : Within M s0 (perstReset s) := by
  unfold perstReset
  repeat' first
    | with_reducible assumption
    | (intro x
       first
         | (have hx : Within M s0 x := by
              unfold x
              repeat' first
                | with_reducible assumption
                | with_reducible apply Within.ite
                | with_reducible apply endUnlock_within (Sub.up hM rfl)
                | with_reducible apply sendHeartbeat_within (Sub.up hM rfl)
                | with_reducible apply powerDown_within (Sub.up hM rfl)
                | with_reducible apply perstDown_within (Sub.up hM rfl))
         | skip
       clear_value x)
    | lift_lets -underBinder
    | with_reducible apply Within.ite
    | with_reducible apply endUnlock_within (Sub.up hM rfl)
    | with_reducible apply sendHeartbeat_within (Sub.up hM rfl)
    | with_reducible apply powerDown_within (Sub.up hM rfl)
    | with_reducible apply perstDown_within (Sub.up hM rfl)

theorem perstActs_within {M : Nat} {s0 : State} (hM : Sub 0x3920fffff M) (s : State) (highest busMv : Nat) (hW : Within M s0 s) : Within M s0 (perstActs s highest busMv) := by
  unfold perstActs
  repeat' first
    | with_reducible assumption
    | (intro x
       first
         | (have hx : Within M s0 x := by
              unfold x
              repeat' first
                | with_reducible assumption
                | with_reducible apply Within.ite
                | with_reducible apply perstReset_within (Sub.up hM rfl)
                | with_reducible refine Within.power ?_ (Sub.has hM rfl))
         | skip
       clear_value x)
    | lift_lets -underBinder
    | with_reducible apply Within.ite
    | with_reducible apply perstReset_within (Sub.up hM rfl)
    | with_reducible refine Within.power ?_ (Sub.has hM rfl)

theorem execPerstNAssert_within {M : Nat} {s0 : State} (hM : Sub 0x3920fffff M) (highest busMv : Nat) (s : State) (hW : Within M s0 s) :
    ∃ u, execPerstNAssert highest busMv s = .next u ∧ Within M s0 u := by
  unfold execPerstNAssert
  refine ⟨_, rfl, ?_⟩
  repeat' first
    | with_reducible assumption
    | (intro x
       first
         | (have hx : Within M s0 x := by
              unfold x
              repeat' first
                | with_reducible assumption
                | with_reducible apply Within.ite
                | with_reducible apply setLevel_within (Sub.up hM rfl)
                | with_reducible apply perstActs_within (Sub.up hM rfl)
                | with_reducible refine Within.power ?_ (Sub.has hM rfl))
         | skip
       clear_value x)
    | lift_lets -underBinder
    | with_reducible apply Within.ite
    | with_reducible apply setLevel_within (Sub.up hM rfl)
    | with_reducible apply perstActs_within (Sub.up hM rfl)
    | with_reducible refine Within.power ?_ (Sub.has hM rfl)

theorem perstReleases_within {M : Nat} {s0 : State} (hM : Sub 0x2000000 M) (s : State) (hW : Within M s0 s) : Within M s0 (perstReleases s) := by
  unfold perstReleases
  repeat' first
    | with_reducible assumption
    | with_reducible apply Within.ite
    | with_reducible apply tryActive_within (Sub.up hM rfl)
    | with_reducible refine Within.power ?_ (Sub.has hM rfl)

theorem execPerstNDeassert_within {M : Nat} {s0 : State} (hM : Sub 0x2000000 M) (s : State) (hW : Within M s0 s) :
    ∃ u, execPerstNDeassert s = .next u ∧ Within M s0 u := by
  unfold execPerstNDeassert
  refine ⟨_, rfl, ?_⟩
  repeat' first
    | with_reducible assumption
    | with_reducible apply Within.ite
    | with_reducible apply setLevel_within (Sub.up hM rfl)
    | with_reducible apply perstReleases_within (Sub.up hM rfl)

theorem execInputChatter_within {M : Nat} {s0 : State} (hM : Sub 0x3920fffff M) (pin : Fin 3) (s : State) (hW : Within M s0 s) :
    ∃ u, execInputChatter pin s = .next u ∧ Within M s0 u := by
  unfold execInputChatter
  refine ⟨_, rfl, ?_⟩
  repeat' first
    | with_reducible assumption
    | (intro x
       first
         | (have hx : Within M s0 x := by
              unfold x
              repeat' first
                | with_reducible assumption
                | with_reducible apply Within.ite
                | with_reducible apply mgtEvent_within (Sub.up hM rfl)
                | with_reducible apply perstActs_within (Sub.up hM rfl)
                | with_reducible refine Within.power ?_ (Sub.has hM rfl))
         | skip
       clear_value x)
    | lift_lets -underBinder
    | with_reducible apply Within.ite
    | with_reducible apply mgtEvent_within (Sub.up hM rfl)
    | with_reducible apply perstActs_within (Sub.up hM rfl)
    | with_reducible refine Within.power ?_ (Sub.has hM rfl)

theorem execInputHeld_within {M : Nat} {s0 : State} (hM : Sub 0x312000081 M) (pin : Fin 3) (s : State) (hW : Within M s0 s) :
    ∃ u, execInputHeld pin s = .next u ∧ Within M s0 u := by
  unfold execInputHeld
  refine ⟨_, rfl, ?_⟩
  repeat' first
    | with_reducible assumption
    | with_reducible apply Within.ite
    | with_reducible apply mgtEvent_within (Sub.up hM rfl)
    | with_reducible refine Within.power ?_ (Sub.has hM rfl)

theorem clearInput_within {M : Nat} {s0 : State} (hM : Sub 0x2000000 M) (s : State) (pin : Nat) (quiet : Bool) (hW : Within M s0 s) : Within M s0 (clearInput s pin quiet) := by
  unfold clearInput
  repeat' first
    | with_reducible assumption
    | (intro x
       first
         | (have hx : Within M s0 x := by
              unfold x
              repeat' first
                | with_reducible assumption
                | with_reducible apply Within.ite
                | with_reducible apply perstReleases_within (Sub.up hM rfl)
                | with_reducible refine Within.power ?_ (Sub.has hM rfl))
         | skip
       clear_value x)
    | lift_lets -underBinder
    | with_reducible apply Within.ite
    | with_reducible apply perstReleases_within (Sub.up hM rfl)
    | with_reducible refine Within.power ?_ (Sub.has hM rfl)

theorem execMgtInputClear_within {M : Nat} {s0 : State} (hM : Sub 0x2000000 M) (value : Word) (quiet : BitVec 3) (s : State) (hW : Within M s0 s) :
    ∃ u, execMgtInputClear value quiet s = .next u ∧ Within M s0 u := by
  unfold execMgtInputClear
  refine ⟨_, rfl, ?_⟩
  repeat' first
    | with_reducible assumption
    | with_reducible apply clearInput_within (Sub.up hM rfl)
    | with_reducible refine each_within (fun _ _ _ => ?_) ?_

theorem execPwrEnConnect_within {M : Nat} {s0 : State} (hM : Sub 0x2000000 M) (s : State) (hW : Within M s0 s) :
    ∃ u, execPwrEnConnect s = .next u ∧ Within M s0 u := by
  unfold execPwrEnConnect
  refine ⟨_, rfl, ?_⟩
  repeat' first
    | with_reducible assumption
    | with_reducible refine Within.power ?_ (Sub.has hM rfl)

theorem execBankCharged_within {M : Nat} {s0 : State} (hM : Sub 0x2000000 M) (bankMv busMv : Nat) (s : State) (hW : Within M s0 s) :
    ∃ u, execBankCharged bankMv busMv s = .next u ∧ Within M s0 u := by
  unfold execBankCharged
  refine ⟨_, rfl, ?_⟩
  repeat' first
    | with_reducible assumption
    | with_reducible apply tryActive_within (Sub.up hM rfl)
    | with_reducible refine Within.power ?_ (Sub.has hM rfl)

end Sys2Proof.Machine
end

