-- ==== Sys2Proof/Laws/WithinScratch.lean ====
section
/-! SUPPORT. What the operations and commands of Machine/Scratch can do to the state (Laws/Within). -/

namespace Sys2Proof.Machine

theorem opIssue_within {M : Nat} {s0 : State} (hM : Sub 0x10 M) (s : State) (c : Nat) (hW : Within M s0 s) : Within M s0 (opIssue s c) := by
  unfold opIssue
  repeat' first
    | with_reducible assumption
    | (intro x
       first
         | (have hx : Within M s0 x := by
              unfold x
              repeat' first
                | with_reducible assumption
                | dsimp -zeta only
                | with_reducible apply Within.ite1
                | with_reducible apply Within.ite2
                | with_reducible apply Within.ite
                | with_reducible apply updCore_within (Sub.up hM rfl)
                | with_reducible apply sbIssue_within (Sub.up hM rfl)
                | (with_reducible apply Within.snd <;> [with_reducible assumption; skip])
                | (with_reducible apply Within.fst <;> [with_reducible assumption; skip])
                | (with_reducible apply Within.fst2 <;> [with_reducible assumption; skip])
                | split)
         | (have hx : Within M s0 x.1 := by
              unfold x
              repeat' first
                | with_reducible assumption
                | dsimp -zeta only
                | with_reducible apply Within.ite1
                | with_reducible apply Within.ite2
                | with_reducible apply Within.ite
                | with_reducible apply updCore_within (Sub.up hM rfl)
                | with_reducible apply sbIssue_within (Sub.up hM rfl)
                | (with_reducible apply Within.snd <;> [with_reducible assumption; skip])
                | (with_reducible apply Within.fst <;> [with_reducible assumption; skip])
                | (with_reducible apply Within.fst2 <;> [with_reducible assumption; skip])
                | split)
         | (have hx : Within M s0 x.2 := by
              unfold x
              repeat' first
                | with_reducible assumption
                | dsimp -zeta only
                | with_reducible apply Within.ite1
                | with_reducible apply Within.ite2
                | with_reducible apply Within.ite
                | with_reducible apply updCore_within (Sub.up hM rfl)
                | with_reducible apply sbIssue_within (Sub.up hM rfl)
                | (with_reducible apply Within.snd <;> [with_reducible assumption; skip])
                | (with_reducible apply Within.fst <;> [with_reducible assumption; skip])
                | (with_reducible apply Within.fst2 <;> [with_reducible assumption; skip])
                | split)
         | skip
       clear_value x)
    | lift_lets -underBinder
    | dsimp -zeta only
    | with_reducible apply Within.ite1
    | with_reducible apply Within.ite2
    | with_reducible apply Within.ite
    | with_reducible apply updCore_within (Sub.up hM rfl)
    | with_reducible apply sbIssue_within (Sub.up hM rfl)
    | (with_reducible apply Within.snd <;> [with_reducible assumption; skip])
    | (with_reducible apply Within.fst <;> [with_reducible assumption; skip])
    | (with_reducible apply Within.fst2 <;> [with_reducible assumption; skip])
    | split

theorem execSpmOpStart_within {M : Nat} {s0 : State} (hM : Sub 0x11 M) (c : CoreId) (pattern : Word) (s : State) (hW : Within M s0 s) :
    ∃ u, execSpmOpStart c pattern s = .next u ∧ Within M s0 u := by
  unfold execSpmOpStart
  refine ⟨_, rfl, ?_⟩
  repeat' first
    | with_reducible assumption
    | (intro x
       first
         | (have hx : Within M s0 x := by
              unfold x
              repeat' first
                | with_reducible assumption
                | dsimp -zeta only
                | with_reducible apply Within.ite1
                | with_reducible apply Within.ite2
                | with_reducible apply Within.ite
                | with_reducible apply setReg_within (Sub.up hM rfl)
                | with_reducible apply updCore_within (Sub.up hM rfl)
                | with_reducible apply opIssue_within (Sub.up hM rfl)
                | (with_reducible apply Within.snd <;> [with_reducible assumption; skip])
                | (with_reducible apply Within.fst <;> [with_reducible assumption; skip])
                | (with_reducible apply Within.fst2 <;> [with_reducible assumption; skip])
                | split)
         | (have hx : Within M s0 x.1 := by
              unfold x
              repeat' first
                | with_reducible assumption
                | dsimp -zeta only
                | with_reducible apply Within.ite1
                | with_reducible apply Within.ite2
                | with_reducible apply Within.ite
                | with_reducible apply setReg_within (Sub.up hM rfl)
                | with_reducible apply updCore_within (Sub.up hM rfl)
                | with_reducible apply opIssue_within (Sub.up hM rfl)
                | (with_reducible apply Within.snd <;> [with_reducible assumption; skip])
                | (with_reducible apply Within.fst <;> [with_reducible assumption; skip])
                | (with_reducible apply Within.fst2 <;> [with_reducible assumption; skip])
                | split)
         | (have hx : Within M s0 x.2 := by
              unfold x
              repeat' first
                | with_reducible assumption
                | dsimp -zeta only
                | with_reducible apply Within.ite1
                | with_reducible apply Within.ite2
                | with_reducible apply Within.ite
                | with_reducible apply setReg_within (Sub.up hM rfl)
                | with_reducible apply updCore_within (Sub.up hM rfl)
                | with_reducible apply opIssue_within (Sub.up hM rfl)
                | (with_reducible apply Within.snd <;> [with_reducible assumption; skip])
                | (with_reducible apply Within.fst <;> [with_reducible assumption; skip])
                | (with_reducible apply Within.fst2 <;> [with_reducible assumption; skip])
                | split)
         | skip
       clear_value x)
    | lift_lets -underBinder
    | dsimp -zeta only
    | with_reducible apply Within.ite1
    | with_reducible apply Within.ite2
    | with_reducible apply Within.ite
    | with_reducible apply setReg_within (Sub.up hM rfl)
    | with_reducible apply updCore_within (Sub.up hM rfl)
    | with_reducible apply opIssue_within (Sub.up hM rfl)
    | (with_reducible apply Within.snd <;> [with_reducible assumption; skip])
    | (with_reducible apply Within.fst <;> [with_reducible assumption; skip])
    | (with_reducible apply Within.fst2 <;> [with_reducible assumption; skip])
    | split

theorem execSpmOpDone_within {M : Nat} {s0 : State} (hM : Sub 0x3100008d3 M) (c : CoreId) (s : State) (hW : Within M s0 s) :
    ∃ u, execSpmOpDone c s = .next u ∧ Within M s0 u := by
  unfold execSpmOpDone
  refine ⟨_, rfl, ?_⟩
  repeat' first
    | with_reducible assumption
    | (intro x
       first
         | (have hx : Within M s0 x := by
              unfold x
              repeat' first
                | with_reducible assumption
                | dsimp -zeta only
                | with_reducible apply Within.ite1
                | with_reducible apply Within.ite2
                | with_reducible apply Within.ite
                | with_reducible apply updCore_within (Sub.up hM rfl)
                | with_reducible apply sbDone_within (Sub.up hM rfl)
                | with_reducible apply spmApply_within (Sub.up hM rfl)
                | with_reducible apply opRows_within (Sub.up hM rfl)
                | with_reducible apply opIssue_within (Sub.up hM rfl)
                | (with_reducible apply Within.snd <;> [with_reducible assumption; skip])
                | (with_reducible apply Within.fst <;> [with_reducible assumption; skip])
                | (with_reducible apply Within.fst2 <;> [with_reducible assumption; skip])
                | split)
         | (have hx : Within M s0 x.1 := by
              unfold x
              repeat' first
                | with_reducible assumption
                | dsimp -zeta only
                | with_reducible apply Within.ite1
                | with_reducible apply Within.ite2
                | with_reducible apply Within.ite
                | with_reducible apply updCore_within (Sub.up hM rfl)
                | with_reducible apply sbDone_within (Sub.up hM rfl)
                | with_reducible apply spmApply_within (Sub.up hM rfl)
                | with_reducible apply opRows_within (Sub.up hM rfl)
                | with_reducible apply opIssue_within (Sub.up hM rfl)
                | (with_reducible apply Within.snd <;> [with_reducible assumption; skip])
                | (with_reducible apply Within.fst <;> [with_reducible assumption; skip])
                | (with_reducible apply Within.fst2 <;> [with_reducible assumption; skip])
                | split)
         | (have hx : Within M s0 x.2 := by
              unfold x
              repeat' first
                | with_reducible assumption
                | dsimp -zeta only
                | with_reducible apply Within.ite1
                | with_reducible apply Within.ite2
                | with_reducible apply Within.ite
                | with_reducible apply updCore_within (Sub.up hM rfl)
                | with_reducible apply sbDone_within (Sub.up hM rfl)
                | with_reducible apply spmApply_within (Sub.up hM rfl)
                | with_reducible apply opRows_within (Sub.up hM rfl)
                | with_reducible apply opIssue_within (Sub.up hM rfl)
                | (with_reducible apply Within.snd <;> [with_reducible assumption; skip])
                | (with_reducible apply Within.fst <;> [with_reducible assumption; skip])
                | (with_reducible apply Within.fst2 <;> [with_reducible assumption; skip])
                | split)
         | skip
       clear_value x)
    | lift_lets -underBinder
    | dsimp -zeta only
    | with_reducible apply Within.ite1
    | with_reducible apply Within.ite2
    | with_reducible apply Within.ite
    | with_reducible apply updCore_within (Sub.up hM rfl)
    | with_reducible apply sbDone_within (Sub.up hM rfl)
    | with_reducible apply spmApply_within (Sub.up hM rfl)
    | with_reducible apply opRows_within (Sub.up hM rfl)
    | with_reducible apply opIssue_within (Sub.up hM rfl)
    | (with_reducible apply Within.snd <;> [with_reducible assumption; skip])
    | (with_reducible apply Within.fst <;> [with_reducible assumption; skip])
    | (with_reducible apply Within.fst2 <;> [with_reducible assumption; skip])
    | split

theorem rejectConfig_within {M : Nat} {s0 : State} (hM : Sub 0x10 M) (s : State) (c : Nat) (hW : Within M s0 s) : Within M s0 (rejectConfig s c) := by
  unfold rejectConfig
  repeat' first
    | with_reducible assumption
    | with_reducible apply updCore_within (Sub.up hM rfl)

theorem execRegionEntryWrite_within {M : Nat} {s0 : State} (hM : Sub 0x11 M) (c : CoreId) (m : Fin 3) (r : RegionId) (word : Fin 8) (value : Word) (s : State) (hW : Within M s0 s) :
    ∃ u, execRegionEntryWrite c m r word value s = .next u ∧ Within M s0 u := by
  unfold execRegionEntryWrite
  refine ⟨_, rfl, ?_⟩
  repeat' first
    | with_reducible assumption
    | (intro x
       first
         | (have hx : Within M s0 x := by
              unfold x
              repeat' first
                | with_reducible assumption
                | with_reducible apply Within.ite
                | with_reducible apply setReg_within (Sub.up hM rfl)
                | with_reducible apply setField_within (Sub.up hM rfl)
                | with_reducible apply rejectConfig_within (Sub.up hM rfl))
         | skip
       clear_value x)
    | lift_lets -underBinder
    | with_reducible apply Within.ite
    | with_reducible apply setReg_within (Sub.up hM rfl)
    | with_reducible apply setField_within (Sub.up hM rfl)
    | with_reducible apply rejectConfig_within (Sub.up hM rfl)

theorem execWindowEntryWrite_within {M : Nat} {s0 : State} (hM : Sub 0x11 M) (c : CoreId) (w : WindowId) (word : Fin 4) (value : Word) (s : State) (hW : Within M s0 s) :
    ∃ u, execWindowEntryWrite c w word value s = .next u ∧ Within M s0 u := by
  unfold execWindowEntryWrite
  refine ⟨_, rfl, ?_⟩
  repeat' first
    | with_reducible assumption
    | (intro x
       first
         | (have hx : Within M s0 x := by
              unfold x
              repeat' first
                | with_reducible assumption
                | with_reducible apply Within.ite
                | with_reducible apply setReg_within (Sub.up hM rfl)
                | with_reducible apply rejectConfig_within (Sub.up hM rfl))
         | skip
       clear_value x)
    | lift_lets -underBinder
    | with_reducible apply Within.ite
    | with_reducible apply setReg_within (Sub.up hM rfl)
    | with_reducible apply rejectConfig_within (Sub.up hM rfl)

theorem execWinOpen_within {M : Nat} {s0 : State} (hM : Sub 0x3100008d3 M) (c : CoreId) (w : WindowId) (byTask : Bool) (s : State) (hW : Within M s0 s) :
    ∃ u, execWinOpen c w byTask s = .next u ∧ Within M s0 u := by
  unfold execWinOpen
  refine ⟨_, rfl, ?_⟩
  repeat' first
    | with_reducible assumption
    | (intro x
       first
         | (have hx : Within M s0 x := by
              unfold x
              repeat' first
                | with_reducible assumption
                | dsimp -zeta only
                | with_reducible apply Within.ite1
                | with_reducible apply Within.ite2
                | with_reducible apply Within.ite
                | with_reducible apply updCore_within (Sub.up hM rfl)
                | with_reducible apply openWindow_within (Sub.up hM rfl)
                | with_reducible apply ownWindow_within (Sub.up hM rfl)
                | with_reducible apply faultCore_within (Sub.up hM rfl)
                | with_reducible apply rejectConfig_within (Sub.up hM rfl)
                | (with_reducible apply Within.snd <;> [with_reducible assumption; skip])
                | (with_reducible apply Within.fst <;> [with_reducible assumption; skip])
                | (with_reducible apply Within.fst2 <;> [with_reducible assumption; skip])
                | split)
         | (have hx : Within M s0 x.1 := by
              unfold x
              repeat' first
                | with_reducible assumption
                | dsimp -zeta only
                | with_reducible apply Within.ite1
                | with_reducible apply Within.ite2
                | with_reducible apply Within.ite
                | with_reducible apply updCore_within (Sub.up hM rfl)
                | with_reducible apply openWindow_within (Sub.up hM rfl)
                | with_reducible apply ownWindow_within (Sub.up hM rfl)
                | with_reducible apply faultCore_within (Sub.up hM rfl)
                | with_reducible apply rejectConfig_within (Sub.up hM rfl)
                | (with_reducible apply Within.snd <;> [with_reducible assumption; skip])
                | (with_reducible apply Within.fst <;> [with_reducible assumption; skip])
                | (with_reducible apply Within.fst2 <;> [with_reducible assumption; skip])
                | split)
         | (have hx : Within M s0 x.2 := by
              unfold x
              repeat' first
                | with_reducible assumption
                | dsimp -zeta only
                | with_reducible apply Within.ite1
                | with_reducible apply Within.ite2
                | with_reducible apply Within.ite
                | with_reducible apply updCore_within (Sub.up hM rfl)
                | with_reducible apply openWindow_within (Sub.up hM rfl)
                | with_reducible apply ownWindow_within (Sub.up hM rfl)
                | with_reducible apply faultCore_within (Sub.up hM rfl)
                | with_reducible apply rejectConfig_within (Sub.up hM rfl)
                | (with_reducible apply Within.snd <;> [with_reducible assumption; skip])
                | (with_reducible apply Within.fst <;> [with_reducible assumption; skip])
                | (with_reducible apply Within.fst2 <;> [with_reducible assumption; skip])
                | split)
         | skip
       clear_value x)
    | lift_lets -underBinder
    | dsimp -zeta only
    | with_reducible apply Within.ite1
    | with_reducible apply Within.ite2
    | with_reducible apply Within.ite
    | with_reducible apply updCore_within (Sub.up hM rfl)
    | with_reducible apply openWindow_within (Sub.up hM rfl)
    | with_reducible apply ownWindow_within (Sub.up hM rfl)
    | with_reducible apply faultCore_within (Sub.up hM rfl)
    | with_reducible apply rejectConfig_within (Sub.up hM rfl)
    | (with_reducible apply Within.snd <;> [with_reducible assumption; skip])
    | (with_reducible apply Within.fst <;> [with_reducible assumption; skip])
    | (with_reducible apply Within.fst2 <;> [with_reducible assumption; skip])
    | split

theorem execWinClose_within {M : Nat} {s0 : State} (hM : Sub 0x310000093 M) (c : CoreId) (w : WindowId) (s : State) (hW : Within M s0 s) :
    ∃ u, execWinClose c w s = .next u ∧ Within M s0 u := by
  unfold execWinClose
  refine ⟨_, rfl, ?_⟩
  repeat' first
    | with_reducible assumption
    | with_reducible apply closeWin_within (Sub.up hM rfl)

theorem execWindowClosed_within {M : Nat} {s0 : State} (hM : Sub 0x11 M) (c : CoreId) (w : WindowId) (s : State) (hW : Within M s0 s) :
    ∃ u, execWindowClosed c w s = .next u ∧ Within M s0 u := by
  unfold execWindowClosed
  refine ⟨_, rfl, ?_⟩
  repeat' first
    | with_reducible assumption
    | with_reducible apply Within.ite
    | with_reducible apply setField_within (Sub.up hM rfl)
    | with_reducible apply updCore_within (Sub.up hM rfl)

theorem execStitchMarkerWrite_within {M : Nat} {s0 : State} (hM : Sub 0x100000011 M) (c : CoreId) (k : MarkerId) (value : Word) (s : State) (hW : Within M s0 s) :
    ∃ u, execStitchMarkerWrite c k value s = .next u ∧ Within M s0 u := by
  unfold execStitchMarkerWrite
  refine ⟨_, rfl, ?_⟩
  repeat' first
    | with_reducible assumption
    | with_reducible apply setReg_within (Sub.up hM rfl)
    | with_reducible apply checkWait_within (Sub.up hM rfl)

theorem refuseNarrow_within {M : Nat} {s0 : State} (hM : Sub 0x310000891 M) (s : State) (c w : Nat) (src : Source) (cause : Nat) (hW : Within M s0 s) : Within M s0 (refuseNarrow s c w src cause) := by
  unfold refuseNarrow
  repeat' first
    | with_reducible assumption
    | (intro x
       first
         | (have hx : Within M s0 x := by
              unfold x
              repeat' first
                | with_reducible assumption
                | dsimp -zeta only
                | with_reducible apply Within.ite1
                | with_reducible apply Within.ite2
                | with_reducible apply Within.ite
                | with_reducible apply sendBulk_within (Sub.up hM rfl)
                | with_reducible apply postedDrop_within (Sub.up hM rfl)
                | with_reducible apply refuseStrand_within (Sub.up hM rfl)
                | (with_reducible apply Within.snd <;> [with_reducible assumption; skip])
                | (with_reducible apply Within.fst <;> [with_reducible assumption; skip])
                | (with_reducible apply Within.fst2 <;> [with_reducible assumption; skip])
                | split)
         | (have hx : Within M s0 x.1 := by
              unfold x
              repeat' first
                | with_reducible assumption
                | dsimp -zeta only
                | with_reducible apply Within.ite1
                | with_reducible apply Within.ite2
                | with_reducible apply Within.ite
                | with_reducible apply sendBulk_within (Sub.up hM rfl)
                | with_reducible apply postedDrop_within (Sub.up hM rfl)
                | with_reducible apply refuseStrand_within (Sub.up hM rfl)
                | (with_reducible apply Within.snd <;> [with_reducible assumption; skip])
                | (with_reducible apply Within.fst <;> [with_reducible assumption; skip])
                | (with_reducible apply Within.fst2 <;> [with_reducible assumption; skip])
                | split)
         | (have hx : Within M s0 x.2 := by
              unfold x
              repeat' first
                | with_reducible assumption
                | dsimp -zeta only
                | with_reducible apply Within.ite1
                | with_reducible apply Within.ite2
                | with_reducible apply Within.ite
                | with_reducible apply sendBulk_within (Sub.up hM rfl)
                | with_reducible apply postedDrop_within (Sub.up hM rfl)
                | with_reducible apply refuseStrand_within (Sub.up hM rfl)
                | (with_reducible apply Within.snd <;> [with_reducible assumption; skip])
                | (with_reducible apply Within.fst <;> [with_reducible assumption; skip])
                | (with_reducible apply Within.fst2 <;> [with_reducible assumption; skip])
                | split)
         | skip
       clear_value x)
    | lift_lets -underBinder
    | dsimp -zeta only
    | with_reducible apply Within.ite1
    | with_reducible apply Within.ite2
    | with_reducible apply Within.ite
    | with_reducible apply sendBulk_within (Sub.up hM rfl)
    | with_reducible apply postedDrop_within (Sub.up hM rfl)
    | with_reducible apply refuseStrand_within (Sub.up hM rfl)
    | (with_reducible apply Within.snd <;> [with_reducible assumption; skip])
    | (with_reducible apply Within.fst <;> [with_reducible assumption; skip])
    | (with_reducible apply Within.fst2 <;> [with_reducible assumption; skip])
    | split

theorem execNarrowWrite_within {M : Nat} {s0 : State} (hM : Sub 0x3100008d3 M) (c : CoreId) (src : Source) (w : WindowId) (row off : Nat) (data : List Byte) (readFails : Bool) (s : State) (hW : Within M s0 s) :
    ∃ u, execNarrowWrite c src w row off data readFails s = .next u ∧ Within M s0 u := by
  unfold execNarrowWrite
  refine ⟨_, rfl, ?_⟩
  repeat' first
    | with_reducible assumption
    | (intro x
       first
         | (have hx : Within M s0 x := by
              unfold x
              repeat' first
                | with_reducible assumption
                | dsimp -zeta only
                | with_reducible apply Within.ite1
                | with_reducible apply Within.ite2
                | with_reducible apply Within.ite
                | with_reducible apply ingressNarrow_within (Sub.up hM rfl)
                | with_reducible apply refuseNarrow_within (Sub.up hM rfl)
                | (with_reducible apply Within.snd <;> [with_reducible assumption; skip])
                | (with_reducible apply Within.fst <;> [with_reducible assumption; skip])
                | (with_reducible apply Within.fst2 <;> [with_reducible assumption; skip])
                | split)
         | (have hx : Within M s0 x.1 := by
              unfold x
              repeat' first
                | with_reducible assumption
                | dsimp -zeta only
                | with_reducible apply Within.ite1
                | with_reducible apply Within.ite2
                | with_reducible apply Within.ite
                | with_reducible apply ingressNarrow_within (Sub.up hM rfl)
                | with_reducible apply refuseNarrow_within (Sub.up hM rfl)
                | (with_reducible apply Within.snd <;> [with_reducible assumption; skip])
                | (with_reducible apply Within.fst <;> [with_reducible assumption; skip])
                | (with_reducible apply Within.fst2 <;> [with_reducible assumption; skip])
                | split)
         | (have hx : Within M s0 x.2 := by
              unfold x
              repeat' first
                | with_reducible assumption
                | dsimp -zeta only
                | with_reducible apply Within.ite1
                | with_reducible apply Within.ite2
                | with_reducible apply Within.ite
                | with_reducible apply ingressNarrow_within (Sub.up hM rfl)
                | with_reducible apply refuseNarrow_within (Sub.up hM rfl)
                | (with_reducible apply Within.snd <;> [with_reducible assumption; skip])
                | (with_reducible apply Within.fst <;> [with_reducible assumption; skip])
                | (with_reducible apply Within.fst2 <;> [with_reducible assumption; skip])
                | split)
         | skip
       clear_value x)
    | lift_lets -underBinder
    | dsimp -zeta only
    | with_reducible apply Within.ite1
    | with_reducible apply Within.ite2
    | with_reducible apply Within.ite
    | with_reducible apply ingressNarrow_within (Sub.up hM rfl)
    | with_reducible apply refuseNarrow_within (Sub.up hM rfl)
    | (with_reducible apply Within.snd <;> [with_reducible assumption; skip])
    | (with_reducible apply Within.fst <;> [with_reducible assumption; skip])
    | (with_reducible apply Within.fst2 <;> [with_reducible assumption; skip])
    | split

theorem execGbIdleFlush_within {M : Nat} {s0 : State} (hM : Sub 0x310000093 M) (c : CoreId) (m : Fin 3) (row : Nat) (readFails : Bool) (s : State) (hW : Within M s0 s) :
    ∃ u, execGbIdleFlush c m row readFails s = .next u ∧ Within M s0 u := by
  unfold execGbIdleFlush
  refine ⟨_, rfl, ?_⟩
  repeat' first
    | with_reducible assumption
    | with_reducible apply Within.ite
    | with_reducible apply flushGb_within (Sub.up hM rfl)
    | (with_reducible apply Within.snd <;> [with_reducible assumption; skip])
    | (with_reducible apply Within.fst <;> [with_reducible assumption; skip])
    | (with_reducible apply Within.fst2 <;> [with_reducible assumption; skip])
    | split

theorem execSpmGbFlush_within {M : Nat} {s0 : State} (hM : Sub 0x310000093 M) (c : CoreId) (readFails : Bool) (s : State) (hW : Within M s0 s) :
    ∃ u, execSpmGbFlush c readFails s = .next u ∧ Within M s0 u := by
  unfold execSpmGbFlush
  refine ⟨_, rfl, ?_⟩
  repeat' first
    | with_reducible assumption
    | with_reducible apply flushGb_within (Sub.up hM rfl)
    | with_reducible refine each_within (fun _ _ _ => ?_) ?_

theorem execReloadDone_within {M : Nat} {s0 : State} (hM : Sub 0x710000fdb M) (c : CoreId) (row : Nat) (data : List Byte) (fails : Bool) (s : State) (hW : Within M s0 s) :
    ∃ u, execReloadDone c row data fails s = .next u ∧ Within M s0 u := by
  unfold execReloadDone
  refine ⟨_, rfl, ?_⟩
  repeat' first
    | with_reducible assumption
    | (intro x
       first
         | (have hx : Within M s0 x := by
              unfold x
              repeat' first
                | with_reducible assumption
                | dsimp -zeta only
                | with_reducible apply Within.ite1
                | with_reducible apply Within.ite2
                | with_reducible apply Within.ite
                | with_reducible apply updCore_within (Sub.up hM rfl)
                | with_reducible apply bumpCore_within (Sub.up hM rfl)
                | with_reducible apply writeRow_within (Sub.up hM rfl)
                | with_reducible apply flushRow_within (Sub.up hM rfl)
                | with_reducible apply faultCore_within (Sub.up hM rfl)
                | with_reducible apply setDetect_within (Sub.up hM rfl)
                | with_reducible apply loseOther_within (Sub.up hM rfl)
                | with_reducible apply runPrologue_within (Sub.up hM rfl)
                | with_reducible apply corrected_within (Sub.up hM rfl)
                | (with_reducible apply Within.snd <;> [with_reducible assumption; skip])
                | (with_reducible apply Within.fst <;> [with_reducible assumption; skip])
                | (with_reducible apply Within.fst2 <;> [with_reducible assumption; skip])
                | split)
         | (have hx : Within M s0 x.1 := by
              unfold x
              repeat' first
                | with_reducible assumption
                | dsimp -zeta only
                | with_reducible apply Within.ite1
                | with_reducible apply Within.ite2
                | with_reducible apply Within.ite
                | with_reducible apply updCore_within (Sub.up hM rfl)
                | with_reducible apply bumpCore_within (Sub.up hM rfl)
                | with_reducible apply writeRow_within (Sub.up hM rfl)
                | with_reducible apply flushRow_within (Sub.up hM rfl)
                | with_reducible apply faultCore_within (Sub.up hM rfl)
                | with_reducible apply setDetect_within (Sub.up hM rfl)
                | with_reducible apply loseOther_within (Sub.up hM rfl)
                | with_reducible apply runPrologue_within (Sub.up hM rfl)
                | with_reducible apply corrected_within (Sub.up hM rfl)
                | (with_reducible apply Within.snd <;> [with_reducible assumption; skip])
                | (with_reducible apply Within.fst <;> [with_reducible assumption; skip])
                | (with_reducible apply Within.fst2 <;> [with_reducible assumption; skip])
                | split)
         | (have hx : Within M s0 x.2 := by
              unfold x
              repeat' first
                | with_reducible assumption
                | dsimp -zeta only
                | with_reducible apply Within.ite1
                | with_reducible apply Within.ite2
                | with_reducible apply Within.ite
                | with_reducible apply updCore_within (Sub.up hM rfl)
                | with_reducible apply bumpCore_within (Sub.up hM rfl)
                | with_reducible apply writeRow_within (Sub.up hM rfl)
                | with_reducible apply flushRow_within (Sub.up hM rfl)
                | with_reducible apply faultCore_within (Sub.up hM rfl)
                | with_reducible apply setDetect_within (Sub.up hM rfl)
                | with_reducible apply loseOther_within (Sub.up hM rfl)
                | with_reducible apply runPrologue_within (Sub.up hM rfl)
                | with_reducible apply corrected_within (Sub.up hM rfl)
                | (with_reducible apply Within.snd <;> [with_reducible assumption; skip])
                | (with_reducible apply Within.fst <;> [with_reducible assumption; skip])
                | (with_reducible apply Within.fst2 <;> [with_reducible assumption; skip])
                | split)
         | skip
       clear_value x)
    | lift_lets -underBinder
    | dsimp -zeta only
    | with_reducible apply Within.ite1
    | with_reducible apply Within.ite2
    | with_reducible apply Within.ite
    | with_reducible apply updCore_within (Sub.up hM rfl)
    | with_reducible apply bumpCore_within (Sub.up hM rfl)
    | with_reducible apply writeRow_within (Sub.up hM rfl)
    | with_reducible apply flushRow_within (Sub.up hM rfl)
    | with_reducible apply faultCore_within (Sub.up hM rfl)
    | with_reducible apply setDetect_within (Sub.up hM rfl)
    | with_reducible apply loseOther_within (Sub.up hM rfl)
    | with_reducible apply runPrologue_within (Sub.up hM rfl)
    | with_reducible apply corrected_within (Sub.up hM rfl)
    | (with_reducible apply Within.snd <;> [with_reducible assumption; skip])
    | (with_reducible apply Within.fst <;> [with_reducible assumption; skip])
    | (with_reducible apply Within.fst2 <;> [with_reducible assumption; skip])
    | split

theorem execResidentWeightScrub_within {M : Nat} {s0 : State} (hM : Sub 0x3100008d3 M) (c : CoreId) (row : Nat) (fails : Bool) (s : State) (hW : Within M s0 s) :
    ∃ u, execResidentWeightScrub c row fails s = .next u ∧ Within M s0 u := by
  unfold execResidentWeightScrub
  refine ⟨_, rfl, ?_⟩
  repeat' first
    | with_reducible assumption
    | (intro x
       first
         | (have hx : Within M s0 x := by
              unfold x
              repeat' first
                | with_reducible assumption
                | dsimp -zeta only
                | with_reducible apply Within.ite1
                | with_reducible apply Within.ite2
                | with_reducible apply Within.ite
                | with_reducible apply updCore_within (Sub.up hM rfl)
                | with_reducible apply bumpCore_within (Sub.up hM rfl)
                | with_reducible apply detect_within (Sub.up hM rfl)
                | (with_reducible apply Within.snd <;> [with_reducible assumption; skip])
                | (with_reducible apply Within.fst <;> [with_reducible assumption; skip])
                | (with_reducible apply Within.fst2 <;> [with_reducible assumption; skip])
                | split)
         | (have hx : Within M s0 x.1 := by
              unfold x
              repeat' first
                | with_reducible assumption
                | dsimp -zeta only
                | with_reducible apply Within.ite1
                | with_reducible apply Within.ite2
                | with_reducible apply Within.ite
                | with_reducible apply updCore_within (Sub.up hM rfl)
                | with_reducible apply bumpCore_within (Sub.up hM rfl)
                | with_reducible apply detect_within (Sub.up hM rfl)
                | (with_reducible apply Within.snd <;> [with_reducible assumption; skip])
                | (with_reducible apply Within.fst <;> [with_reducible assumption; skip])
                | (with_reducible apply Within.fst2 <;> [with_reducible assumption; skip])
                | split)
         | (have hx : Within M s0 x.2 := by
              unfold x
              repeat' first
                | with_reducible assumption
                | dsimp -zeta only
                | with_reducible apply Within.ite1
                | with_reducible apply Within.ite2
                | with_reducible apply Within.ite
                | with_reducible apply updCore_within (Sub.up hM rfl)
                | with_reducible apply bumpCore_within (Sub.up hM rfl)
                | with_reducible apply detect_within (Sub.up hM rfl)
                | (with_reducible apply Within.snd <;> [with_reducible assumption; skip])
                | (with_reducible apply Within.fst <;> [with_reducible assumption; skip])
                | (with_reducible apply Within.fst2 <;> [with_reducible assumption; skip])
                | split)
         | skip
       clear_value x)
    | lift_lets -underBinder
    | dsimp -zeta only
    | with_reducible apply Within.ite1
    | with_reducible apply Within.ite2
    | with_reducible apply Within.ite
    | with_reducible apply updCore_within (Sub.up hM rfl)
    | with_reducible apply bumpCore_within (Sub.up hM rfl)
    | with_reducible apply detect_within (Sub.up hM rfl)
    | (with_reducible apply Within.snd <;> [with_reducible assumption; skip])
    | (with_reducible apply Within.fst <;> [with_reducible assumption; skip])
    | (with_reducible apply Within.fst2 <;> [with_reducible assumption; skip])
    | split

theorem notePower_within {M : Nat} {s0 : State} (hM : Sub 0x1 M) (s : State) (c m bank action : Nat) (hW : Within M s0 s) : Within M s0 (notePower s c m bank action) := by
  unfold notePower
  repeat' first
    | with_reducible assumption
    | with_reducible apply setReg_within (Sub.up hM rfl)

theorem setResult_within {M : Nat} {s0 : State} (hM : Sub 0x10 M) (s : State) (c r : Nat) (hW : Within M s0 s) : Within M s0 (setResult s c r) := by
  unfold setResult
  repeat' first
    | with_reducible assumption
    | with_reducible apply updCore_within (Sub.up hM rfl)

theorem setBank_within {M : Nat} {s0 : State} (hM : Sub 0x1 M) (s : State) (c m bank : Nat) (on : Bool) (hW : Within M s0 s) : Within M s0 (setBank s c m bank on) := by
  unfold setBank
  repeat' first
    | with_reducible assumption
    | (intro x
       first
         | (have hx : Within M s0 x := by
              unfold x
              repeat' first
                | with_reducible assumption
                | with_reducible apply Within.ite
                | with_reducible apply setField_within (Sub.up hM rfl))
         | skip
       clear_value x)
    | lift_lets -underBinder
    | with_reducible apply Within.ite
    | with_reducible apply setField_within (Sub.up hM rfl)

theorem zeroBank_within {M : Nat} {s0 : State} (hM : Sub 0x12 M) (s : State) (c m bank : Nat) (hW : Within M s0 s) : Within M s0 (zeroBank s c m bank) := by
  unfold zeroBank
  repeat' first
    | with_reducible assumption
    | (intro x
       first
         | (have hx : Within M s0 x := by
              unfold x
              repeat' first
                | with_reducible assumption
                | with_reducible apply updCore_within (Sub.up hM rfl)
                | with_reducible refine Within.memRange _ _ ?_ (Sub.has hM rfl)
                | with_reducible refine Within.memWrite _ _ ?_ (Sub.has hM rfl)
                | with_reducible refine Within.memClear _ ?_ (Sub.has hM rfl))
         | skip
       clear_value x)
    | lift_lets -underBinder
    | with_reducible apply updCore_within (Sub.up hM rfl)
    | with_reducible refine Within.memRange _ _ ?_ (Sub.has hM rfl)
    | with_reducible refine Within.memWrite _ _ ?_ (Sub.has hM rfl)
    | with_reducible refine Within.memClear _ ?_ (Sub.has hM rfl)

theorem execBankPowerDown_within {M : Nat} {s0 : State} (hM : Sub 0x310000093 M) (c : CoreId) (m : Fin 4) (bank : Fin 64) (s : State) (hW : Within M s0 s) :
    ∃ u, execBankPowerDown c m bank s = .next u ∧ Within M s0 u := by
  unfold execBankPowerDown
  refine ⟨_, rfl, ?_⟩
  repeat' first
    | with_reducible assumption
    | (intro x
       first
         | (have hx : Within M s0 x := by
              unfold x
              repeat' first
                | with_reducible assumption
                | with_reducible apply Within.ite
                | with_reducible apply updCore_within (Sub.up hM rfl)
                | with_reducible apply flushGb_within (Sub.up hM rfl)
                | with_reducible apply closeWin_within (Sub.up hM rfl)
                | with_reducible apply rejectConfig_within (Sub.up hM rfl)
                | with_reducible apply notePower_within (Sub.up hM rfl)
                | with_reducible apply setResult_within (Sub.up hM rfl)
                | with_reducible refine each_within (fun _ _ _ => ?_) ?_)
         | skip
       clear_value x)
    | lift_lets -underBinder
    | with_reducible apply Within.ite
    | with_reducible apply updCore_within (Sub.up hM rfl)
    | with_reducible apply flushGb_within (Sub.up hM rfl)
    | with_reducible apply closeWin_within (Sub.up hM rfl)
    | with_reducible apply rejectConfig_within (Sub.up hM rfl)
    | with_reducible apply notePower_within (Sub.up hM rfl)
    | with_reducible apply setResult_within (Sub.up hM rfl)
    | with_reducible refine each_within (fun _ _ _ => ?_) ?_

theorem execBankDrained_within {M : Nat} {s0 : State} (hM : Sub 0x13 M) (c : CoreId) (s : State) (hW : Within M s0 s) :
    ∃ u, execBankDrained c s = .next u ∧ Within M s0 u := by
  unfold execBankDrained
  refine ⟨_, rfl, ?_⟩
  repeat' first
    | with_reducible assumption
    | with_reducible apply Within.ite
    | with_reducible apply updCore_within (Sub.up hM rfl)
    | with_reducible apply setResult_within (Sub.up hM rfl)
    | with_reducible apply setBank_within (Sub.up hM rfl)
    | with_reducible apply zeroBank_within (Sub.up hM rfl)
    | (with_reducible apply Within.snd <;> [with_reducible assumption; skip])
    | (with_reducible apply Within.fst <;> [with_reducible assumption; skip])
    | (with_reducible apply Within.fst2 <;> [with_reducible assumption; skip])
    | split

theorem execBankDrainTimeout_within {M : Nat} {s0 : State} (hM : Sub 0x310000091 M) (c : CoreId) (s : State) (hW : Within M s0 s) :
    ∃ u, execBankDrainTimeout c s = .next u ∧ Within M s0 u := by
  unfold execBankDrainTimeout
  refine ⟨_, rfl, ?_⟩
  repeat' first
    | with_reducible assumption
    | (intro x
       first
         | (have hx : Within M s0 x := by
              unfold x
              repeat' first
                | with_reducible assumption
                | dsimp -zeta only
                | with_reducible apply Within.ite1
                | with_reducible apply Within.ite2
                | with_reducible apply Within.ite
                | with_reducible apply updCore_within (Sub.up hM rfl)
                | with_reducible apply bumpCore_within (Sub.up hM rfl)
                | with_reducible apply raise_within (Sub.up hM rfl)
                | with_reducible apply setResult_within (Sub.up hM rfl)
                | (with_reducible apply Within.snd <;> [with_reducible assumption; skip])
                | (with_reducible apply Within.fst <;> [with_reducible assumption; skip])
                | (with_reducible apply Within.fst2 <;> [with_reducible assumption; skip])
                | split)
         | (have hx : Within M s0 x.1 := by
              unfold x
              repeat' first
                | with_reducible assumption
                | dsimp -zeta only
                | with_reducible apply Within.ite1
                | with_reducible apply Within.ite2
                | with_reducible apply Within.ite
                | with_reducible apply updCore_within (Sub.up hM rfl)
                | with_reducible apply bumpCore_within (Sub.up hM rfl)
                | with_reducible apply raise_within (Sub.up hM rfl)
                | with_reducible apply setResult_within (Sub.up hM rfl)
                | (with_reducible apply Within.snd <;> [with_reducible assumption; skip])
                | (with_reducible apply Within.fst <;> [with_reducible assumption; skip])
                | (with_reducible apply Within.fst2 <;> [with_reducible assumption; skip])
                | split)
         | (have hx : Within M s0 x.2 := by
              unfold x
              repeat' first
                | with_reducible assumption
                | dsimp -zeta only
                | with_reducible apply Within.ite1
                | with_reducible apply Within.ite2
                | with_reducible apply Within.ite
                | with_reducible apply updCore_within (Sub.up hM rfl)
                | with_reducible apply bumpCore_within (Sub.up hM rfl)
                | with_reducible apply raise_within (Sub.up hM rfl)
                | with_reducible apply setResult_within (Sub.up hM rfl)
                | (with_reducible apply Within.snd <;> [with_reducible assumption; skip])
                | (with_reducible apply Within.fst <;> [with_reducible assumption; skip])
                | (with_reducible apply Within.fst2 <;> [with_reducible assumption; skip])
                | split)
         | skip
       clear_value x)
    | lift_lets -underBinder
    | dsimp -zeta only
    | with_reducible apply Within.ite1
    | with_reducible apply Within.ite2
    | with_reducible apply Within.ite
    | with_reducible apply updCore_within (Sub.up hM rfl)
    | with_reducible apply bumpCore_within (Sub.up hM rfl)
    | with_reducible apply raise_within (Sub.up hM rfl)
    | with_reducible apply setResult_within (Sub.up hM rfl)
    | (with_reducible apply Within.snd <;> [with_reducible assumption; skip])
    | (with_reducible apply Within.fst <;> [with_reducible assumption; skip])
    | (with_reducible apply Within.fst2 <;> [with_reducible assumption; skip])
    | split

theorem execBankPowerUp_within {M : Nat} {s0 : State} (hM : Sub 0x11 M) (c : CoreId) (m : Fin 4) (bank : Fin 64) (s : State) (hW : Within M s0 s) :
    ∃ u, execBankPowerUp c m bank s = .next u ∧ Within M s0 u := by
  unfold execBankPowerUp
  refine ⟨_, rfl, ?_⟩
  repeat' first
    | with_reducible assumption
    | (intro x
       first
         | (have hx : Within M s0 x := by
              unfold x
              repeat' first
                | with_reducible assumption
                | with_reducible apply Within.ite
                | with_reducible apply updCore_within (Sub.up hM rfl)
                | with_reducible apply rejectConfig_within (Sub.up hM rfl)
                | with_reducible apply notePower_within (Sub.up hM rfl)
                | with_reducible apply setResult_within (Sub.up hM rfl))
         | skip
       clear_value x)
    | lift_lets -underBinder
    | with_reducible apply Within.ite
    | with_reducible apply updCore_within (Sub.up hM rfl)
    | with_reducible apply rejectConfig_within (Sub.up hM rfl)
    | with_reducible apply notePower_within (Sub.up hM rfl)
    | with_reducible apply setResult_within (Sub.up hM rfl)

theorem execBankPowerUpDone_within {M : Nat} {s0 : State} (hM : Sub 0x13 M) (c : CoreId) (s : State) (hW : Within M s0 s) :
    ∃ u, execBankPowerUpDone c s = .next u ∧ Within M s0 u := by
  unfold execBankPowerUpDone
  refine ⟨_, rfl, ?_⟩
  repeat' first
    | with_reducible assumption
    | with_reducible apply Within.ite
    | with_reducible apply updCore_within (Sub.up hM rfl)
    | with_reducible apply setResult_within (Sub.up hM rfl)
    | with_reducible apply setBank_within (Sub.up hM rfl)
    | with_reducible apply zeroBank_within (Sub.up hM rfl)
    | (with_reducible apply Within.snd <;> [with_reducible assumption; skip])
    | (with_reducible apply Within.fst <;> [with_reducible assumption; skip])
    | (with_reducible apply Within.fst2 <;> [with_reducible assumption; skip])
    | split

end Sys2Proof.Machine
end

