-- ==== Sys2Proof/Laws/WithinSecurity.lean ====
section
/-! SUPPORT. What the operations and commands of Machine/Security can do to the state (Laws/Within). -/

namespace Sys2Proof.Machine

theorem execFwCommit_within {M : Nat} {s0 : State} (hM : Sub 0x80000000 M) (s : State) (hW : Within M s0 s) :
    ∃ u, execFwCommit s = .next u ∧ Within M s0 u := by
  unfold execFwCommit
  refine ⟨_, rfl, ?_⟩
  repeat' first
    | with_reducible assumption
    | with_reducible apply commitFw_within (Sub.up hM rfl)
    | (with_reducible apply Within.snd <;> [with_reducible assumption; skip])
    | (with_reducible apply Within.fst <;> [with_reducible assumption; skip])
    | (with_reducible apply Within.fst2 <;> [with_reducible assumption; skip])

theorem execBurnComplete_within {M : Nat} {s0 : State} (hM : Sub 0x390000081 M) (s : State) (hW : Within M s0 s) :
    ∃ u, execBurnComplete s = .next u ∧ Within M s0 u := by
  unfold execBurnComplete
  refine ⟨_, rfl, ?_⟩
  repeat' first
    | with_reducible assumption
    | with_reducible apply endBurn_within (Sub.up hM rfl)

theorem execUnlockNonce_within {M : Nat} {s0 : State} (hM : Sub 0x480000000 M) (s : State) (hW : Within M s0 s) :
    ∃ u, execUnlockNonce s = .next u ∧ Within M s0 u := by
  unfold execUnlockNonce
  refine ⟨_, rfl, ?_⟩
  repeat' first
    | with_reducible assumption
    | with_reducible apply newNonce_within (Sub.up hM rfl)
    | (with_reducible apply Within.snd <;> [with_reducible assumption; skip])
    | (with_reducible apply Within.fst <;> [with_reducible assumption; skip])
    | (with_reducible apply Within.fst2 <;> [with_reducible assumption; skip])

theorem execUnlockResponse_within {M : Nat} {s0 : State} (hM : Sub 0x390000081 M) (nonce : List Byte) (serial : Word) (level : Byte) (duration : BitVec 32) (signaturesOk : Bool) (s : State) (hW : Within M s0 s) :
    ∃ u, execUnlockResponse nonce serial level duration signaturesOk s = .next u ∧ Within M s0 u := by
  unfold execUnlockResponse
  refine ⟨_, rfl, ?_⟩
  repeat' first
    | with_reducible assumption
    | with_reducible apply unlockTry_within (Sub.up hM rfl)
    | (with_reducible apply Within.snd <;> [with_reducible assumption; skip])
    | (with_reducible apply Within.fst <;> [with_reducible assumption; skip])
    | (with_reducible apply Within.fst2 <;> [with_reducible assumption; skip])

theorem execUnlockExpiry_within {M : Nat} {s0 : State} (hM : Sub 0x390000081 M) (s : State) (hW : Within M s0 s) :
    ∃ u, execUnlockExpiry s = .next u ∧ Within M s0 u := by
  unfold execUnlockExpiry
  refine ⟨_, rfl, ?_⟩
  repeat' first
    | with_reducible assumption
    | with_reducible apply Within.ite
    | with_reducible apply endUnlock_within (Sub.up hM rfl)

theorem execRelock_within {M : Nat} {s0 : State} (hM : Sub 0x390000081 M) (s : State) (hW : Within M s0 s) :
    ∃ u, execRelock s = .next u ∧ Within M s0 u := by
  unfold execRelock
  refine ⟨_, rfl, ?_⟩
  repeat' first
    | with_reducible assumption
    | with_reducible apply endUnlock_within (Sub.up hM rfl)

theorem execAliasLmsRenewal_within {M : Nat} {s0 : State} (hM : Sub 0x390000081 M) (s : State) (hW : Within M s0 s) :
    ∃ u, execAliasLmsRenewal s = .next u ∧ Within M s0 u := by
  unfold execAliasLmsRenewal
  refine ⟨_, rfl, ?_⟩
  repeat' first
    | with_reducible assumption
    | with_reducible apply Within.ite
    | with_reducible apply mgtEvent_within (Sub.up hM rfl)
    | with_reducible apply checkIdentity_within (Sub.up hM rfl)
    | with_reducible apply newAlias_within (Sub.up hM rfl)

theorem execTmuxSelect_within {M : Nat} {s0 : State} (hM : Sub 0x80000000 M) (value : Word) (dictionary : Bool) (s : State) (hW : Within M s0 s) :
    ∃ u, execTmuxSelect value dictionary s = .next u ∧ Within M s0 u := by
  unfold execTmuxSelect
  refine ⟨_, rfl, ?_⟩
  repeat' first
    | with_reducible assumption
    | with_reducible apply selectTmux_within (Sub.up hM rfl)
    | (with_reducible apply Within.snd <;> [with_reducible assumption; skip])
    | (with_reducible apply Within.fst <;> [with_reducible assumption; skip])
    | (with_reducible apply Within.fst2 <;> [with_reducible assumption; skip])

theorem execMailboxUnsupported_within {M : Nat} {s0 : State} (hM : Sub 0x200000000 M) (_opcode : BitVec 16) (s : State) (hW : Within M s0 s) :
    ∃ u, execMailboxUnsupported _opcode s = .next u ∧ Within M s0 u := by
  unfold execMailboxUnsupported
  refine ⟨_, rfl, ?_⟩
  repeat' first
    | with_reducible assumption
    | with_reducible apply emit_within (Sub.up hM rfl)

theorem execIdentify_within {M : Nat} {s0 : State} (hM : Sub 0x200000000 M) (s : State) (hW : Within M s0 s) :
    ∃ u, execIdentify s = .next u ∧ Within M s0 u := by
  unfold execIdentify
  refine ⟨_, rfl, ?_⟩
  repeat' first
    | with_reducible assumption
    | with_reducible apply emit_within (Sub.up hM rfl)

theorem execGetEventRecords_within {M : Nat} {s0 : State} (hM : Sub 0x600000000 M) (s : State) (hW : Within M s0 s) :
    ∃ u, execGetEventRecords s = .next u ∧ Within M s0 u := by
  unfold execGetEventRecords
  refine ⟨_, rfl, ?_⟩
  repeat' first
    | with_reducible assumption
    | with_reducible apply emit_within (Sub.up hM rfl)
    | with_reducible refine Within.freeIdx ?_ (Sub.has hM rfl)

theorem execGetFwInfo_within {M : Nat} {s0 : State} (hM : Sub 0x200000000 M) (s : State) (hW : Within M s0 s) :
    ∃ u, execGetFwInfo s = .next u ∧ Within M s0 u := by
  unfold execGetFwInfo
  refine ⟨_, rfl, ?_⟩
  repeat' first
    | with_reducible assumption
    | (intro x
       first
         | (have hx : Within M s0 x := by
              unfold x
              repeat' first
                | with_reducible assumption
                | with_reducible apply Within.ite
                | with_reducible apply emit_within (Sub.up hM rfl)
                | (with_reducible apply Within.snd <;> [with_reducible assumption; skip])
                | (with_reducible apply Within.fst <;> [with_reducible assumption; skip])
                | (with_reducible apply Within.fst2 <;> [with_reducible assumption; skip])
                | split)
         | skip
       clear_value x)
    | lift_lets -underBinder
    | with_reducible apply Within.ite
    | with_reducible apply emit_within (Sub.up hM rfl)
    | (with_reducible apply Within.snd <;> [with_reducible assumption; skip])
    | (with_reducible apply Within.fst <;> [with_reducible assumption; skip])
    | (with_reducible apply Within.fst2 <;> [with_reducible assumption; skip])
    | split

theorem execTimestamp_within {M : Nat} {s0 : State} (hM : Sub 0x200000080 M) (set : Option Word) (s : State) (hW : Within M s0 s) :
    ∃ u, execTimestamp set s = .next u ∧ Within M s0 u := by
  unfold execTimestamp
  refine ⟨_, rfl, ?_⟩
  repeat' first
    | with_reducible assumption
    | with_reducible apply emit_within (Sub.up hM rfl)
    | (with_reducible apply Within.snd <;> [with_reducible assumption; skip])
    | (with_reducible apply Within.fst <;> [with_reducible assumption; skip])
    | (with_reducible apply Within.fst2 <;> [with_reducible assumption; skip])
    | split
    | with_reducible refine Within.hst ?_ (Sub.has hM rfl)

theorem execGetLog_within {M : Nat} {s0 : State} (hM : Sub 0x600000000 M) (off len : BitVec 32) (s : State) (hW : Within M s0 s) :
    ∃ u, execGetLog off len s = .next u ∧ Within M s0 u := by
  unfold execGetLog
  refine ⟨_, rfl, ?_⟩
  repeat' first
    | with_reducible assumption
    | with_reducible apply emit_within (Sub.up hM rfl)
    | with_reducible refine Within.freeIdx ?_ (Sub.has hM rfl)

theorem execTransferFw_within {M : Nat} {s0 : State} (hM : Sub 0x280000000 M) (off : Nat) (data : List Byte) (last : Bool) (images : List ImageCheck) (s : State) (hW : Within M s0 s) :
    ∃ u, execTransferFw off data last images s = .next u ∧ Within M s0 u := by
  unfold execTransferFw
  refine ⟨_, rfl, ?_⟩
  repeat' first
    | with_reducible assumption
    | (intro x
       first
         | (have hx : Within M s0 x := by
              unfold x
              repeat' first
                | with_reducible assumption
                | with_reducible apply emit_within (Sub.up hM rfl)
                | with_reducible apply transferBytes_within (Sub.up hM rfl)
                | (with_reducible apply Within.snd <;> [with_reducible assumption; skip])
                | (with_reducible apply Within.fst <;> [with_reducible assumption; skip])
                | (with_reducible apply Within.fst2 <;> [with_reducible assumption; skip]))
         | (have hx : Within M s0 x.1 := by
              unfold x
              repeat' first
                | with_reducible assumption
                | with_reducible apply emit_within (Sub.up hM rfl)
                | with_reducible apply transferBytes_within (Sub.up hM rfl)
                | (with_reducible apply Within.snd <;> [with_reducible assumption; skip])
                | (with_reducible apply Within.fst <;> [with_reducible assumption; skip])
                | (with_reducible apply Within.fst2 <;> [with_reducible assumption; skip]))
         | (have hx : Within M s0 x.2 := by
              unfold x
              repeat' first
                | with_reducible assumption
                | with_reducible apply emit_within (Sub.up hM rfl)
                | with_reducible apply transferBytes_within (Sub.up hM rfl)
                | (with_reducible apply Within.snd <;> [with_reducible assumption; skip])
                | (with_reducible apply Within.fst <;> [with_reducible assumption; skip])
                | (with_reducible apply Within.fst2 <;> [with_reducible assumption; skip]))
         | skip
       clear_value x)
    | lift_lets -underBinder
    | with_reducible apply emit_within (Sub.up hM rfl)
    | with_reducible apply transferBytes_within (Sub.up hM rfl)
    | (with_reducible apply Within.snd <;> [with_reducible assumption; skip])
    | (with_reducible apply Within.fst <;> [with_reducible assumption; skip])
    | (with_reducible apply Within.fst2 <;> [with_reducible assumption; skip])

theorem execActivateFw_within {M : Nat} {s0 : State} (hM : Sub 0x280000000 M) (slot : Fin 16) (online : Bool) (s : State) (hW : Within M s0 s) :
    ∃ u, execActivateFw slot online s = .next u ∧ Within M s0 u := by
  unfold execActivateFw
  refine ⟨_, rfl, ?_⟩
  repeat' first
    | with_reducible assumption
    | (intro x
       first
         | (have hx : Within M s0 x := by
              unfold x
              repeat' first
                | with_reducible assumption
                | with_reducible apply Within.ite
                | with_reducible apply emit_within (Sub.up hM rfl)
                | with_reducible apply activateBank_within (Sub.up hM rfl)
                | (with_reducible apply Within.snd <;> [with_reducible assumption; skip])
                | (with_reducible apply Within.fst <;> [with_reducible assumption; skip])
                | (with_reducible apply Within.fst2 <;> [with_reducible assumption; skip])
                | with_reducible refine Within.sec ?_ (Sub.has hM rfl))
         | (have hx : Within M s0 x.1 := by
              unfold x
              repeat' first
                | with_reducible assumption
                | with_reducible apply Within.ite
                | with_reducible apply emit_within (Sub.up hM rfl)
                | with_reducible apply activateBank_within (Sub.up hM rfl)
                | (with_reducible apply Within.snd <;> [with_reducible assumption; skip])
                | (with_reducible apply Within.fst <;> [with_reducible assumption; skip])
                | (with_reducible apply Within.fst2 <;> [with_reducible assumption; skip])
                | with_reducible refine Within.sec ?_ (Sub.has hM rfl))
         | (have hx : Within M s0 x.2 := by
              unfold x
              repeat' first
                | with_reducible assumption
                | with_reducible apply Within.ite
                | with_reducible apply emit_within (Sub.up hM rfl)
                | with_reducible apply activateBank_within (Sub.up hM rfl)
                | (with_reducible apply Within.snd <;> [with_reducible assumption; skip])
                | (with_reducible apply Within.fst <;> [with_reducible assumption; skip])
                | (with_reducible apply Within.fst2 <;> [with_reducible assumption; skip])
                | with_reducible refine Within.sec ?_ (Sub.has hM rfl))
         | skip
       clear_value x)
    | lift_lets -underBinder
    | with_reducible apply Within.ite
    | with_reducible apply emit_within (Sub.up hM rfl)
    | with_reducible apply activateBank_within (Sub.up hM rfl)
    | (with_reducible apply Within.snd <;> [with_reducible assumption; skip])
    | (with_reducible apply Within.fst <;> [with_reducible assumption; skip])
    | (with_reducible apply Within.fst2 <;> [with_reducible assumption; skip])
    | with_reducible refine Within.sec ?_ (Sub.has hM rfl)

theorem setSpdm_within {M : Nat} {s0 : State} (hM : Sub 0x80000000 M) (s : State) (x : Spdm) (hW : Within M s0 s) : Within M s0 (setSpdm s x) := by
  unfold setSpdm
  repeat' first
    | with_reducible assumption
    | with_reducible refine Within.sec ?_ (Sub.has hM rfl)

theorem spdmError_within {M : Nat} {s0 : State} (hM : Sub 0x200000000 M) (s : State) (r : Nat) (name : String) (hW : Within M s0 s) : Within M s0 (spdmError s r name) := by
  unfold spdmError
  repeat' first
    | with_reducible assumption
    | with_reducible apply emit_within (Sub.up hM rfl)

theorem spdmAt_within {M : Nat} {s0 : State} (hM : Sub 0x280000000 M) {s : State} {r n : Nat} {k : State → Spdm → State}
    (hk : ∀ t c, Within M s0 t → Within M s0 (k t c)) (hW : Within M s0 s) : Within M s0 (spdmAt s r n k) := by
  unfold spdmAt
  split
  · exact .ite (hk _ _ (setSpdm_within (Sub.up hM rfl) _ _ hW)) (spdmError_within (Sub.up hM rfl) _ _ _ hW)
  · exact spdmError_within (Sub.up hM rfl) _ _ _ hW

theorem execGetVersion_within {M : Nat} {s0 : State} (hM : Sub 0x280000000 M) (requester : BitVec 48) (s : State) (hW : Within M s0 s) :
    ∃ u, execGetVersion requester s = .next u ∧ Within M s0 u := by
  unfold execGetVersion
  refine ⟨_, rfl, ?_⟩
  repeat' first
    | with_reducible assumption
    | (intro x
       first
         | (have hx : Within M s0 x := by
              unfold x
              repeat' first
                | with_reducible assumption
                | with_reducible apply Within.ite
                | with_reducible apply emit_within (Sub.up hM rfl)
                | with_reducible apply setSpdm_within (Sub.up hM rfl)
                | with_reducible apply spdmError_within (Sub.up hM rfl))
         | skip
       clear_value x)
    | lift_lets -underBinder
    | with_reducible apply Within.ite
    | with_reducible apply emit_within (Sub.up hM rfl)
    | with_reducible apply setSpdm_within (Sub.up hM rfl)
    | with_reducible apply spdmError_within (Sub.up hM rfl)

theorem execGetCapabilities_within {M : Nat} {s0 : State} (hM : Sub 0x280000000 M) (requester : BitVec 48) (s : State) (hW : Within M s0 s) :
    ∃ u, execGetCapabilities requester s = .next u ∧ Within M s0 u := by
  unfold execGetCapabilities
  refine ⟨_, rfl, ?_⟩
  repeat' first
    | with_reducible assumption
    | with_reducible apply emit_within (Sub.up hM rfl)
    | with_reducible apply setSpdm_within (Sub.up hM rfl)
    | with_reducible refine spdmAt_within (Sub.up hM rfl) (fun _ _ _ => ?_) ?_

theorem execNegotiateAlgorithms_within {M : Nat} {s0 : State} (hM : Sub 0x280000000 M) (requester : BitVec 48) (offered : Bool) (s : State) (hW : Within M s0 s) :
    ∃ u, execNegotiateAlgorithms requester offered s = .next u ∧ Within M s0 u := by
  unfold execNegotiateAlgorithms
  refine ⟨_, rfl, ?_⟩
  repeat' first
    | with_reducible assumption
    | with_reducible apply Within.ite
    | with_reducible apply emit_within (Sub.up hM rfl)
    | with_reducible apply setSpdm_within (Sub.up hM rfl)
    | with_reducible apply spdmError_within (Sub.up hM rfl)
    | with_reducible refine spdmAt_within (Sub.up hM rfl) (fun _ _ _ => ?_) ?_

theorem execGetDigests_within {M : Nat} {s0 : State} (hM : Sub 0x280000000 M) (requester : BitVec 48) (s : State) (hW : Within M s0 s) :
    ∃ u, execGetDigests requester s = .next u ∧ Within M s0 u := by
  unfold execGetDigests
  refine ⟨_, rfl, ?_⟩
  repeat' first
    | with_reducible assumption
    | with_reducible apply emit_within (Sub.up hM rfl)
    | with_reducible refine spdmAt_within (Sub.up hM rfl) (fun _ _ _ => ?_) ?_

theorem execGetCertificate_within {M : Nat} {s0 : State} (hM : Sub 0x280000000 M) (requester : BitVec 48) (slot : Byte) (off len : BitVec 16) (s : State) (hW : Within M s0 s) :
    ∃ u, execGetCertificate requester slot off len s = .next u ∧ Within M s0 u := by
  unfold execGetCertificate
  refine ⟨_, rfl, ?_⟩
  repeat' first
    | with_reducible assumption
    | (intro x
       first
         | (have hx : Within M s0 x := by
              unfold x
              repeat' first
                | with_reducible assumption
                | with_reducible apply Within.ite
                | with_reducible apply emit_within (Sub.up hM rfl)
                | with_reducible apply spdmError_within (Sub.up hM rfl)
                | with_reducible refine spdmAt_within (Sub.up hM rfl) (fun _ _ _ => ?_) ?_)
         | skip
       clear_value x)
    | lift_lets -underBinder
    | with_reducible apply Within.ite
    | with_reducible apply emit_within (Sub.up hM rfl)
    | with_reducible apply spdmError_within (Sub.up hM rfl)
    | with_reducible refine spdmAt_within (Sub.up hM rfl) (fun _ _ _ => ?_) ?_

theorem execChallenge_within {M : Nat} {s0 : State} (hM : Sub 0x280000000 M) (requester : BitVec 48) (slot : Byte) (hash : List Byte) (s : State) (hW : Within M s0 s) :
    ∃ u, execChallenge requester slot hash s = .next u ∧ Within M s0 u := by
  unfold execChallenge
  refine ⟨_, rfl, ?_⟩
  repeat' first
    | with_reducible assumption
    | with_reducible apply Within.ite
    | with_reducible apply emit_within (Sub.up hM rfl)
    | with_reducible apply setSpdm_within (Sub.up hM rfl)
    | with_reducible apply spdmError_within (Sub.up hM rfl)
    | with_reducible refine spdmAt_within (Sub.up hM rfl) (fun _ _ _ => ?_) ?_

theorem execGetMeasurements_within {M : Nat} {s0 : State} (hM : Sub 0x280000000 M) (requester : BitVec 48) (block : Byte) (signed : Bool) (hash : List Byte) (s : State) (hW : Within M s0 s) :
    ∃ u, execGetMeasurements requester block signed hash s = .next u ∧ Within M s0 u := by
  unfold execGetMeasurements
  refine ⟨_, rfl, ?_⟩
  repeat' first
    | with_reducible assumption
    | (intro x
       first
         | (have hx : Within M s0 x := by
              unfold x
              repeat' first
                | with_reducible assumption
                | with_reducible apply Within.ite
                | with_reducible apply emit_within (Sub.up hM rfl)
                | with_reducible apply setSpdm_within (Sub.up hM rfl)
                | with_reducible apply spdmError_within (Sub.up hM rfl)
                | with_reducible refine spdmAt_within (Sub.up hM rfl) (fun _ _ _ => ?_) ?_)
         | skip
       clear_value x)
    | lift_lets -underBinder
    | with_reducible apply Within.ite
    | with_reducible apply emit_within (Sub.up hM rfl)
    | with_reducible apply setSpdm_within (Sub.up hM rfl)
    | with_reducible apply spdmError_within (Sub.up hM rfl)
    | with_reducible refine spdmAt_within (Sub.up hM rfl) (fun _ _ _ => ?_) ?_

theorem execGetLmsSignature_within {M : Nat} {s0 : State} (hM : Sub 0x390000081 M) (requester : BitVec 48) (s : State) (hW : Within M s0 s) :
    ∃ u, execGetLmsSignature requester s = .next u ∧ Within M s0 u := by
  unfold execGetLmsSignature
  refine ⟨_, rfl, ?_⟩
  repeat' first
    | with_reducible assumption
    | (intro x
       first
         | (have hx : Within M s0 x := by
              unfold x
              repeat' first
                | with_reducible assumption
                | with_reducible apply Within.ite
                | with_reducible apply emit_within (Sub.up hM rfl)
                | with_reducible apply checkIdentity_within (Sub.up hM rfl)
                | with_reducible apply setSpdm_within (Sub.up hM rfl)
                | with_reducible apply spdmError_within (Sub.up hM rfl)
                | (with_reducible apply Within.snd <;> [with_reducible assumption; skip])
                | (with_reducible apply Within.fst <;> [with_reducible assumption; skip])
                | (with_reducible apply Within.fst2 <;> [with_reducible assumption; skip])
                | split
                | with_reducible refine Within.sec ?_ (Sub.has hM rfl))
         | skip
       clear_value x)
    | lift_lets -underBinder
    | with_reducible apply Within.ite
    | with_reducible apply emit_within (Sub.up hM rfl)
    | with_reducible apply checkIdentity_within (Sub.up hM rfl)
    | with_reducible apply setSpdm_within (Sub.up hM rfl)
    | with_reducible apply spdmError_within (Sub.up hM rfl)
    | (with_reducible apply Within.snd <;> [with_reducible assumption; skip])
    | (with_reducible apply Within.fst <;> [with_reducible assumption; skip])
    | (with_reducible apply Within.fst2 <;> [with_reducible assumption; skip])
    | split
    | with_reducible refine Within.sec ?_ (Sub.has hM rfl)

end Sys2Proof.Machine
end

