-- ==== Sys2Proof/Laws/WithinStrands.lean ====
section
/-! SUPPORT. What the operations and commands of Machine/Strands can do to the state (Laws/Within). -/

namespace Sys2Proof.Machine

theorem strandEnd_within {M : Nat} {s0 : State} (hM : Sub 0x80 M) (s : State) (result status : Nat) (hW : Within M s0 s) : Within M s0 (strandEnd s result status) := by
  unfold strandEnd
  repeat' first
    | with_reducible assumption
    | with_reducible refine Within.hst ?_ (Sub.has hM rfl)

theorem strandCtl_within {M : Nat} {s0 : State} (hM : Sub 0x1 M) {s : State} {k : State → State}
    (hk : ∀ t, Within M s0 t → Within M s0 (k t)) (h : Within M s0 s) : Within M s0 (strandCtl s k) :=
  .ite (bump_within (Sub.up hM rfl) s _ _ h) (hk _ h)

theorem cacheEverywhere_within {M : Nat} {s0 : State} (hM : Sub 0x10082 M) (s : State) (n : Nat) (hW : Within M s0 s) : Within M s0 (cacheEverywhere s n) := by
  unfold cacheEverywhere
  repeat' first
    | with_reducible assumption
    | with_reducible apply lnkTouch_within (Sub.up hM rfl)
    | with_reducible apply hstTouch_within (Sub.up hM rfl)
    | with_reducible refine each_within (fun _ _ _ => ?_) ?_

theorem execStrandActivate_within {M : Nat} {s0 : State} (hM : Sub 0x10083 M) (n : StrandId) (s : State) (hW : Within M s0 s) :
    ∃ u, execStrandActivate n s = .next u ∧ Within M s0 u := by
  unfold execStrandActivate
  refine ⟨_, rfl, ?_⟩
  repeat' first
    | with_reducible assumption
    | (intro x
       first
         | (have hx : Within M s0 x := by
              unfold x
              repeat' first
                | with_reducible assumption
                | with_reducible apply Within.ite
                | with_reducible apply setStrand_within (Sub.up hM rfl)
                | with_reducible apply wrBytes_within (Sub.up hM rfl)
                | with_reducible apply strandEnd_within (Sub.up hM rfl)
                | with_reducible refine strandCtl_within (Sub.up hM rfl) (fun _ _ => ?_) ?_
                | with_reducible apply cacheEverywhere_within (Sub.up hM rfl))
         | skip
       clear_value x)
    | lift_lets -underBinder
    | with_reducible apply Within.ite
    | with_reducible apply setStrand_within (Sub.up hM rfl)
    | with_reducible apply wrBytes_within (Sub.up hM rfl)
    | with_reducible apply strandEnd_within (Sub.up hM rfl)
    | with_reducible refine strandCtl_within (Sub.up hM rfl) (fun _ _ => ?_) ?_
    | with_reducible apply cacheEverywhere_within (Sub.up hM rfl)

theorem execStrandUpdate_within {M : Nat} {s0 : State} (hM : Sub 0x10083 M) (n : StrandId) (s : State) (hW : Within M s0 s) :
    ∃ u, execStrandUpdate n s = .next u ∧ Within M s0 u := by
  unfold execStrandUpdate
  refine ⟨_, rfl, ?_⟩
  repeat' first
    | with_reducible assumption
    | with_reducible apply Within.ite
    | with_reducible apply updStrand_within (Sub.up hM rfl)
    | with_reducible apply strandEnd_within (Sub.up hM rfl)
    | with_reducible refine strandCtl_within (Sub.up hM rfl) (fun _ _ => ?_) ?_
    | with_reducible apply cacheEverywhere_within (Sub.up hM rfl)

theorem execStrandFlush_within {M : Nat} {s0 : State} (hM : Sub 0x83 M) (n : StrandId) (s : State) (hW : Within M s0 s) :
    ∃ u, execStrandFlush n s = .next u ∧ Within M s0 u := by
  unfold execStrandFlush
  refine ⟨_, rfl, ?_⟩
  repeat' first
    | with_reducible assumption
    | with_reducible apply Within.ite
    | with_reducible apply flushStrand_within (Sub.up hM rfl)
    | with_reducible apply strandEnd_within (Sub.up hM rfl)
    | with_reducible refine strandCtl_within (Sub.up hM rfl) (fun _ _ => ?_) ?_

theorem execStrandRelease_within {M : Nat} {s0 : State} (hM : Sub 0x100010093 M) (n : StrandId) (s : State) (hW : Within M s0 s) :
    ∃ u, execStrandRelease n s = .next u ∧ Within M s0 u := by
  unfold execStrandRelease
  refine ⟨_, rfl, ?_⟩
  repeat' first
    | with_reducible assumption
    | (intro x
       first
         | (have hx : Within M s0 x := by
              unfold x
              repeat' first
                | with_reducible assumption
                | dsimp -zeta only
                | with_reducible apply Within.ite1
                | with_reducible apply Within.ite2
                | with_reducible apply Within.ite
                | with_reducible apply updStrand_within (Sub.up hM rfl)
                | with_reducible apply endTask_within (Sub.up hM rfl)
                | with_reducible apply refuseTask_within (Sub.up hM rfl)
                | with_reducible apply setFetched_within (Sub.up hM rfl)
                | with_reducible apply leaveWaits_within (Sub.up hM rfl)
                | with_reducible apply settleRelease_within (Sub.up hM rfl)
                | with_reducible apply strandEnd_within (Sub.up hM rfl)
                | with_reducible refine each_within (fun _ _ _ => ?_) ?_
                | with_reducible refine strandCtl_within (Sub.up hM rfl) (fun _ _ => ?_) ?_
                | (with_reducible apply Within.snd <;> [with_reducible assumption; skip])
                | (with_reducible apply Within.fst <;> [with_reducible assumption; skip])
                | (with_reducible apply Within.fst2 <;> [with_reducible assumption; skip])
                | split)
         | (have hx : Within M s0 x.1 := by
              unfold x
              repeat' first
                | with_reducible assumption
                | dsimp -zeta only
                | with_reducible apply Within.ite1
                | with_reducible apply Within.ite2
                | with_reducible apply Within.ite
                | with_reducible apply updStrand_within (Sub.up hM rfl)
                | with_reducible apply endTask_within (Sub.up hM rfl)
                | with_reducible apply refuseTask_within (Sub.up hM rfl)
                | with_reducible apply setFetched_within (Sub.up hM rfl)
                | with_reducible apply leaveWaits_within (Sub.up hM rfl)
                | with_reducible apply settleRelease_within (Sub.up hM rfl)
                | with_reducible apply strandEnd_within (Sub.up hM rfl)
                | with_reducible refine each_within (fun _ _ _ => ?_) ?_
                | with_reducible refine strandCtl_within (Sub.up hM rfl) (fun _ _ => ?_) ?_
                | (with_reducible apply Within.snd <;> [with_reducible assumption; skip])
                | (with_reducible apply Within.fst <;> [with_reducible assumption; skip])
                | (with_reducible apply Within.fst2 <;> [with_reducible assumption; skip])
                | split)
         | (have hx : Within M s0 x.2 := by
              unfold x
              repeat' first
                | with_reducible assumption
                | dsimp -zeta only
                | with_reducible apply Within.ite1
                | with_reducible apply Within.ite2
                | with_reducible apply Within.ite
                | with_reducible apply updStrand_within (Sub.up hM rfl)
                | with_reducible apply endTask_within (Sub.up hM rfl)
                | with_reducible apply refuseTask_within (Sub.up hM rfl)
                | with_reducible apply setFetched_within (Sub.up hM rfl)
                | with_reducible apply leaveWaits_within (Sub.up hM rfl)
                | with_reducible apply settleRelease_within (Sub.up hM rfl)
                | with_reducible apply strandEnd_within (Sub.up hM rfl)
                | with_reducible refine each_within (fun _ _ _ => ?_) ?_
                | with_reducible refine strandCtl_within (Sub.up hM rfl) (fun _ _ => ?_) ?_
                | (with_reducible apply Within.snd <;> [with_reducible assumption; skip])
                | (with_reducible apply Within.fst <;> [with_reducible assumption; skip])
                | (with_reducible apply Within.fst2 <;> [with_reducible assumption; skip])
                | split)
         | skip
       clear_value x)
    | lift_lets -underBinder
    | dsimp -zeta only
    | with_reducible apply Within.ite1
    | with_reducible apply Within.ite2
    | with_reducible apply Within.ite
    | with_reducible apply updStrand_within (Sub.up hM rfl)
    | with_reducible apply endTask_within (Sub.up hM rfl)
    | with_reducible apply refuseTask_within (Sub.up hM rfl)
    | with_reducible apply setFetched_within (Sub.up hM rfl)
    | with_reducible apply leaveWaits_within (Sub.up hM rfl)
    | with_reducible apply settleRelease_within (Sub.up hM rfl)
    | with_reducible apply strandEnd_within (Sub.up hM rfl)
    | with_reducible refine each_within (fun _ _ _ => ?_) ?_
    | with_reducible refine strandCtl_within (Sub.up hM rfl) (fun _ _ => ?_) ?_
    | (with_reducible apply Within.snd <;> [with_reducible assumption; skip])
    | (with_reducible apply Within.fst <;> [with_reducible assumption; skip])
    | (with_reducible apply Within.fst2 <;> [with_reducible assumption; skip])
    | split

theorem execStrandCacheMiss_within {M : Nat} {s0 : State} (hM : Sub 0x83 M) (n : StrandId) (s : State) (hW : Within M s0 s) :
    ∃ u, execStrandCacheMiss n s = .next u ∧ Within M s0 u := by
  unfold execStrandCacheMiss
  refine ⟨_, rfl, ?_⟩
  repeat' first
    | with_reducible assumption
    | with_reducible apply Within.ite
    | with_reducible apply bump_within (Sub.up hM rfl)
    | with_reducible apply hstTouch_within (Sub.up hM rfl)

theorem execApertureWrite_within {M : Nat} {s0 : State} (hM : Sub 0x3100008d3 M) (a : Fin 16) (off : Fin 512) (data : List Byte) (s : State) (hW : Within M s0 s) :
    ∃ u, execApertureWrite a off data s = .next u ∧ Within M s0 u := by
  unfold execApertureWrite
  refine ⟨_, rfl, ?_⟩
  repeat' first
    | with_reducible assumption
    | (intro x
       first
         | (have hx : Within M s0 x := by
              unfold x
              repeat' first
                | with_reducible assumption
                | with_reducible apply Within.ite
                | with_reducible apply setField_within (Sub.up hM rfl)
                | with_reducible apply postedDrop_within (Sub.up hM rfl)
                | with_reducible apply ingressNarrow_within (Sub.up hM rfl)
                | (with_reducible apply Within.snd <;> [with_reducible assumption; skip])
                | (with_reducible apply Within.fst <;> [with_reducible assumption; skip])
                | (with_reducible apply Within.fst2 <;> [with_reducible assumption; skip]))
         | (have hx : Within M s0 x.1 := by
              unfold x
              repeat' first
                | with_reducible assumption
                | with_reducible apply Within.ite
                | with_reducible apply setField_within (Sub.up hM rfl)
                | with_reducible apply postedDrop_within (Sub.up hM rfl)
                | with_reducible apply ingressNarrow_within (Sub.up hM rfl)
                | (with_reducible apply Within.snd <;> [with_reducible assumption; skip])
                | (with_reducible apply Within.fst <;> [with_reducible assumption; skip])
                | (with_reducible apply Within.fst2 <;> [with_reducible assumption; skip]))
         | (have hx : Within M s0 x.2 := by
              unfold x
              repeat' first
                | with_reducible assumption
                | with_reducible apply Within.ite
                | with_reducible apply setField_within (Sub.up hM rfl)
                | with_reducible apply postedDrop_within (Sub.up hM rfl)
                | with_reducible apply ingressNarrow_within (Sub.up hM rfl)
                | (with_reducible apply Within.snd <;> [with_reducible assumption; skip])
                | (with_reducible apply Within.fst <;> [with_reducible assumption; skip])
                | (with_reducible apply Within.fst2 <;> [with_reducible assumption; skip]))
         | skip
       clear_value x)
    | lift_lets -underBinder
    | with_reducible apply Within.ite
    | with_reducible apply setField_within (Sub.up hM rfl)
    | with_reducible apply postedDrop_within (Sub.up hM rfl)
    | with_reducible apply ingressNarrow_within (Sub.up hM rfl)
    | (with_reducible apply Within.snd <;> [with_reducible assumption; skip])
    | (with_reducible apply Within.fst <;> [with_reducible assumption; skip])
    | (with_reducible apply Within.fst2 <;> [with_reducible assumption; skip])

theorem execConfigRequest_within {M : Nat} {s0 : State} (hM : Sub 0x200000000 M) (dword : BitVec 12) (s : State) (hW : Within M s0 s) :
    ∃ u, execConfigRequest dword s = .next u ∧ Within M s0 u := by
  unfold execConfigRequest
  refine ⟨_, rfl, ?_⟩
  repeat' first
    | with_reducible assumption
    | with_reducible apply Within.ite
    | with_reducible apply emit_within (Sub.up hM rfl)

end Sys2Proof.Machine
end

