-- ==== Sys2Proof/Laws/WithinRegWrite.lean ====
section
/-! SUPPORT. What the operations and commands of Machine/RegWrite can do to the state (Laws/Within). -/

namespace Sys2Proof.Machine

theorem nextOf_within {M a : Nat} {s0 s : State} {r : Result} (hM : Sub a M) (e : ∃ t, r = .next t ∧ Within a s t) (h : Within M s0 s) :
    Within M s0 (nextOf s r) := by
  obtain ⟨t, rfl, k⟩ := e
  exact h.trans (k.up hM)

theorem writeQueue_within {M : Nat} {s0 : State} (hM : Sub 0x710082fdb M) (s : State) (src : Nat) (q : HwQueue) (w : Nat) (v : Word) (hW : Within M s0 s) : Within M s0 (writeQueue s src q w v) := by
  unfold writeQueue
  repeat' first
    | with_reducible assumption
    | (intro x
       first
         | (have hx : Within M s0 x := by
              unfold x
              repeat' first
                | with_reducible assumption
                | dsimp -zeta only
                | with_reducible apply Within.ite1
                | with_reducible apply Within.ite2
                | with_reducible apply Within.ite
                | with_reducible apply execQueueEnable_within (Sub.up hM rfl)
                | with_reducible apply execOpenPacket_within (Sub.up hM rfl)
                | with_reducible apply execData_within (Sub.up hM rfl)
                | with_reducible apply execClose_within (Sub.up hM rfl)
                | with_reducible apply execDiscard_within (Sub.up hM rfl)
                | with_reducible apply execQueueFlush_within (Sub.up hM rfl)
                | with_reducible apply execQueueRelease_within (Sub.up hM rfl)
                | with_reducible refine nextOf_within (a := 0x51) (Sub.up hM rfl) (execQueueEnable_within rfl (hW := .refl) ..) ?_
                | with_reducible refine nextOf_within (a := 0x7100008d3) (Sub.up hM rfl) (execOpenPacket_within rfl (hW := .refl) ..) ?_
                | with_reducible refine nextOf_within (a := 0x7100008d3) (Sub.up hM rfl) (execData_within rfl (hW := .refl) ..) ?_
                | with_reducible refine nextOf_within (a := 0x7100008d3) (Sub.up hM rfl) (execClose_within rfl (hW := .refl) ..) ?_
                | with_reducible refine nextOf_within (a := 0x710082fdb) (Sub.up hM rfl) (execDiscard_within rfl (hW := .refl) ..) ?_
                | with_reducible refine nextOf_within (a := 0x710082fdb) (Sub.up hM rfl) (execQueueFlush_within rfl (hW := .refl) ..) ?_
                | with_reducible refine nextOf_within (a := 0x710082fdb) (Sub.up hM rfl) (execQueueRelease_within rfl (hW := .refl) ..) ?_
                | (with_reducible apply Within.snd <;> [with_reducible assumption; skip])
                | (with_reducible apply Within.fst <;> [with_reducible assumption; skip])
                | (with_reducible apply Within.fst2 <;> [with_reducible assumption; skip])
                | split)
         | (have hx : Within M s0 x.1 := by
              unfold x
              repeat' first
                | with_reducible assumption
                | dsimp -zeta only
                | with_reducible apply Within.ite1
                | with_reducible apply Within.ite2
                | with_reducible apply Within.ite
                | with_reducible apply execQueueEnable_within (Sub.up hM rfl)
                | with_reducible apply execOpenPacket_within (Sub.up hM rfl)
                | with_reducible apply execData_within (Sub.up hM rfl)
                | with_reducible apply execClose_within (Sub.up hM rfl)
                | with_reducible apply execDiscard_within (Sub.up hM rfl)
                | with_reducible apply execQueueFlush_within (Sub.up hM rfl)
                | with_reducible apply execQueueRelease_within (Sub.up hM rfl)
                | with_reducible refine nextOf_within (a := 0x51) (Sub.up hM rfl) (execQueueEnable_within rfl (hW := .refl) ..) ?_
                | with_reducible refine nextOf_within (a := 0x7100008d3) (Sub.up hM rfl) (execOpenPacket_within rfl (hW := .refl) ..) ?_
                | with_reducible refine nextOf_within (a := 0x7100008d3) (Sub.up hM rfl) (execData_within rfl (hW := .refl) ..) ?_
                | with_reducible refine nextOf_within (a := 0x7100008d3) (Sub.up hM rfl) (execClose_within rfl (hW := .refl) ..) ?_
                | with_reducible refine nextOf_within (a := 0x710082fdb) (Sub.up hM rfl) (execDiscard_within rfl (hW := .refl) ..) ?_
                | with_reducible refine nextOf_within (a := 0x710082fdb) (Sub.up hM rfl) (execQueueFlush_within rfl (hW := .refl) ..) ?_
                | with_reducible refine nextOf_within (a := 0x710082fdb) (Sub.up hM rfl) (execQueueRelease_within rfl (hW := .refl) ..) ?_
                | (with_reducible apply Within.snd <;> [with_reducible assumption; skip])
                | (with_reducible apply Within.fst <;> [with_reducible assumption; skip])
                | (with_reducible apply Within.fst2 <;> [with_reducible assumption; skip])
                | split)
         | (have hx : Within M s0 x.2 := by
              unfold x
              repeat' first
                | with_reducible assumption
                | dsimp -zeta only
                | with_reducible apply Within.ite1
                | with_reducible apply Within.ite2
                | with_reducible apply Within.ite
                | with_reducible apply execQueueEnable_within (Sub.up hM rfl)
                | with_reducible apply execOpenPacket_within (Sub.up hM rfl)
                | with_reducible apply execData_within (Sub.up hM rfl)
                | with_reducible apply execClose_within (Sub.up hM rfl)
                | with_reducible apply execDiscard_within (Sub.up hM rfl)
                | with_reducible apply execQueueFlush_within (Sub.up hM rfl)
                | with_reducible apply execQueueRelease_within (Sub.up hM rfl)
                | with_reducible refine nextOf_within (a := 0x51) (Sub.up hM rfl) (execQueueEnable_within rfl (hW := .refl) ..) ?_
                | with_reducible refine nextOf_within (a := 0x7100008d3) (Sub.up hM rfl) (execOpenPacket_within rfl (hW := .refl) ..) ?_
                | with_reducible refine nextOf_within (a := 0x7100008d3) (Sub.up hM rfl) (execData_within rfl (hW := .refl) ..) ?_
                | with_reducible refine nextOf_within (a := 0x7100008d3) (Sub.up hM rfl) (execClose_within rfl (hW := .refl) ..) ?_
                | with_reducible refine nextOf_within (a := 0x710082fdb) (Sub.up hM rfl) (execDiscard_within rfl (hW := .refl) ..) ?_
                | with_reducible refine nextOf_within (a := 0x710082fdb) (Sub.up hM rfl) (execQueueFlush_within rfl (hW := .refl) ..) ?_
                | with_reducible refine nextOf_within (a := 0x710082fdb) (Sub.up hM rfl) (execQueueRelease_within rfl (hW := .refl) ..) ?_
                | (with_reducible apply Within.snd <;> [with_reducible assumption; skip])
                | (with_reducible apply Within.fst <;> [with_reducible assumption; skip])
                | (with_reducible apply Within.fst2 <;> [with_reducible assumption; skip])
                | split)
         | skip
       clear_value x)
    | lift_lets -underBinder
    | dsimp -zeta only
    | with_reducible apply Within.ite1
    | with_reducible apply Within.ite2
    | with_reducible apply Within.ite
    | with_reducible apply execQueueEnable_within (Sub.up hM rfl)
    | with_reducible apply execOpenPacket_within (Sub.up hM rfl)
    | with_reducible apply execData_within (Sub.up hM rfl)
    | with_reducible apply execClose_within (Sub.up hM rfl)
    | with_reducible apply execDiscard_within (Sub.up hM rfl)
    | with_reducible apply execQueueFlush_within (Sub.up hM rfl)
    | with_reducible apply execQueueRelease_within (Sub.up hM rfl)
    | with_reducible refine nextOf_within (a := 0x51) (Sub.up hM rfl) (execQueueEnable_within rfl (hW := .refl) ..) ?_
    | with_reducible refine nextOf_within (a := 0x7100008d3) (Sub.up hM rfl) (execOpenPacket_within rfl (hW := .refl) ..) ?_
    | with_reducible refine nextOf_within (a := 0x7100008d3) (Sub.up hM rfl) (execData_within rfl (hW := .refl) ..) ?_
    | with_reducible refine nextOf_within (a := 0x7100008d3) (Sub.up hM rfl) (execClose_within rfl (hW := .refl) ..) ?_
    | with_reducible refine nextOf_within (a := 0x710082fdb) (Sub.up hM rfl) (execDiscard_within rfl (hW := .refl) ..) ?_
    | with_reducible refine nextOf_within (a := 0x710082fdb) (Sub.up hM rfl) (execQueueFlush_within rfl (hW := .refl) ..) ?_
    | with_reducible refine nextOf_within (a := 0x710082fdb) (Sub.up hM rfl) (execQueueRelease_within rfl (hW := .refl) ..) ?_
    | (with_reducible apply Within.snd <;> [with_reducible assumption; skip])
    | (with_reducible apply Within.fst <;> [with_reducible assumption; skip])
    | (with_reducible apply Within.fst2 <;> [with_reducible assumption; skip])
    | split

theorem writeSq_within {M : Nat} {s0 : State} (hM : Sub 0x81 M) (s : State) (q : HostQueue) (w : Nat) (v : Word) (hW : Within M s0 s) : Within M s0 (writeSq s q w v) := by
  unfold writeSq
  repeat' first
    | with_reducible assumption
    | with_reducible apply Within.ite
    | with_reducible apply setReg_within (Sub.up hM rfl)
    | with_reducible refine nextOf_within (a := 0x81) (Sub.up hM rfl) (execQueuePairEnable_within rfl (hW := .refl) ..) ?_
    | with_reducible apply nextOf_within (Sub.up hM rfl)
    | (with_reducible apply Within.snd <;> [with_reducible assumption; skip])
    | (with_reducible apply Within.fst <;> [with_reducible assumption; skip])
    | (with_reducible apply Within.fst2 <;> [with_reducible assumption; skip])

theorem writeCq_within {M : Nat} {s0 : State} (hM : Sub 0x81 M) (s : State) (q : HostQueue) (w : Nat) (v : Word) (hW : Within M s0 s) : Within M s0 (writeCq s q w v) := by
  unfold writeCq
  repeat' first
    | with_reducible assumption
    | with_reducible apply Within.ite
    | with_reducible apply setReg_within (Sub.up hM rfl)
    | with_reducible refine nextOf_within (a := 0x81) (Sub.up hM rfl) (execQueuePairEnable_within rfl (hW := .refl) ..) ?_
    | with_reducible apply nextOf_within (Sub.up hM rfl)
    | (with_reducible apply Within.snd <;> [with_reducible assumption; skip])
    | (with_reducible apply Within.fst <;> [with_reducible assumption; skip])
    | (with_reducible apply Within.fst2 <;> [with_reducible assumption; skip])

theorem writeMsix_within {M : Nat} {s0 : State} (hM : Sub 0x200000081 M) (s : State) (k w : Nat) (v : Nat) (hW : Within M s0 s) : Within M s0 (writeMsix s k w v) := by
  unfold writeMsix
  repeat' first
    | with_reducible assumption
    | (intro x
       first
         | (have hx : Within M s0 x := by
              unfold x
              repeat' first
                | with_reducible assumption
                | with_reducible apply Within.ite
                | with_reducible apply setReg_within (Sub.up hM rfl)
                | with_reducible apply setField_within (Sub.up hM rfl)
                | with_reducible apply sendMsix_within (Sub.up hM rfl))
         | skip
       clear_value x)
    | lift_lets -underBinder
    | with_reducible apply Within.ite
    | with_reducible apply setReg_within (Sub.up hM rfl)
    | with_reducible apply setField_within (Sub.up hM rfl)
    | with_reducible apply sendMsix_within (Sub.up hM rfl)

theorem writeAperture_within {M : Nat} {s0 : State} (hM : Sub 0x3100008d3 M) (s : State) (a : Fin 16) (o : Nat) (v : Word) (hW : Within M s0 s) : Within M s0 (writeAperture s a o v) := by
  unfold writeAperture
  repeat' first
    | with_reducible assumption
    | with_reducible apply Within.ite
    | with_reducible apply setReg_within (Sub.up hM rfl)
    | with_reducible refine nextOf_within (a := 0x3100008d3) (Sub.up hM rfl) (execApertureWrite_within rfl (hW := .refl) ..) ?_
    | with_reducible apply nextOf_within (Sub.up hM rfl)
    | (with_reducible apply Within.snd <;> [with_reducible assumption; skip])
    | (with_reducible apply Within.fst <;> [with_reducible assumption; skip])
    | (with_reducible apply Within.fst2 <;> [with_reducible assumption; skip])

theorem writeWindow_within {M : Nat} {s0 : State} (hM : Sub 0x7900808dd M) (s : State) (o : Nat) (v : Nat) (hW : Within M s0 s) : Within M s0 (writeWindow s o v) := by
  unfold writeWindow
  repeat' first
    | with_reducible assumption
    | (intro x
       first
         | (have hx : Within M s0 x := by
              unfold x
              repeat' first
                | with_reducible assumption
                | dsimp -zeta only
                | with_reducible apply Within.ite1
                | with_reducible apply Within.ite2
                | with_reducible apply Within.ite
                | with_reducible apply setReg_within (Sub.up hM rfl)
                | with_reducible apply setField_within (Sub.up hM rfl)
                | with_reducible apply execDictWindowGo_within (Sub.up hM rfl)
                | with_reducible refine nextOf_within (a := 0x7900808dd) (Sub.up hM rfl) (execDictWindowGo_within rfl (hW := .refl) ..) ?_
                | (with_reducible apply Within.snd <;> [with_reducible assumption; skip])
                | (with_reducible apply Within.fst <;> [with_reducible assumption; skip])
                | (with_reducible apply Within.fst2 <;> [with_reducible assumption; skip])
                | split
                | with_reducible refine Within.dict ?_ (Sub.has hM rfl))
         | (have hx : Within M s0 x.1 := by
              unfold x
              repeat' first
                | with_reducible assumption
                | dsimp -zeta only
                | with_reducible apply Within.ite1
                | with_reducible apply Within.ite2
                | with_reducible apply Within.ite
                | with_reducible apply setReg_within (Sub.up hM rfl)
                | with_reducible apply setField_within (Sub.up hM rfl)
                | with_reducible apply execDictWindowGo_within (Sub.up hM rfl)
                | with_reducible refine nextOf_within (a := 0x7900808dd) (Sub.up hM rfl) (execDictWindowGo_within rfl (hW := .refl) ..) ?_
                | (with_reducible apply Within.snd <;> [with_reducible assumption; skip])
                | (with_reducible apply Within.fst <;> [with_reducible assumption; skip])
                | (with_reducible apply Within.fst2 <;> [with_reducible assumption; skip])
                | split
                | with_reducible refine Within.dict ?_ (Sub.has hM rfl))
         | (have hx : Within M s0 x.2 := by
              unfold x
              repeat' first
                | with_reducible assumption
                | dsimp -zeta only
                | with_reducible apply Within.ite1
                | with_reducible apply Within.ite2
                | with_reducible apply Within.ite
                | with_reducible apply setReg_within (Sub.up hM rfl)
                | with_reducible apply setField_within (Sub.up hM rfl)
                | with_reducible apply execDictWindowGo_within (Sub.up hM rfl)
                | with_reducible refine nextOf_within (a := 0x7900808dd) (Sub.up hM rfl) (execDictWindowGo_within rfl (hW := .refl) ..) ?_
                | (with_reducible apply Within.snd <;> [with_reducible assumption; skip])
                | (with_reducible apply Within.fst <;> [with_reducible assumption; skip])
                | (with_reducible apply Within.fst2 <;> [with_reducible assumption; skip])
                | split
                | with_reducible refine Within.dict ?_ (Sub.has hM rfl))
         | skip
       clear_value x)
    | lift_lets -underBinder
    | dsimp -zeta only
    | with_reducible apply Within.ite1
    | with_reducible apply Within.ite2
    | with_reducible apply Within.ite
    | with_reducible apply setReg_within (Sub.up hM rfl)
    | with_reducible apply setField_within (Sub.up hM rfl)
    | with_reducible apply execDictWindowGo_within (Sub.up hM rfl)
    | with_reducible refine nextOf_within (a := 0x7900808dd) (Sub.up hM rfl) (execDictWindowGo_within rfl (hW := .refl) ..) ?_
    | (with_reducible apply Within.snd <;> [with_reducible assumption; skip])
    | (with_reducible apply Within.fst <;> [with_reducible assumption; skip])
    | (with_reducible apply Within.fst2 <;> [with_reducible assumption; skip])
    | split
    | with_reducible refine Within.dict ?_ (Sub.has hM rfl)

theorem writeStrandCtl_within {M : Nat} {s0 : State} (hM : Sub 0x100010093 M) (s : State) (o : Nat) (v : Nat) (hW : Within M s0 s) : Within M s0 (writeStrandCtl s o v) := by
  unfold writeStrandCtl
  repeat' first
    | with_reducible assumption
    | (intro x
       first
         | (have hx : Within M s0 x := by
              unfold x
              repeat' first
                | with_reducible assumption
                | with_reducible apply Within.ite
                | with_reducible apply setReg_within (Sub.up hM rfl)
                | with_reducible refine strandCtl_within (Sub.up hM rfl) (fun _ _ => ?_) ?_
                | with_reducible refine nextOf_within (a := 0x10083) (Sub.up hM rfl) (execStrandActivate_within rfl (hW := .refl) ..) ?_
                | with_reducible refine nextOf_within (a := 0x10083) (Sub.up hM rfl) (execStrandUpdate_within rfl (hW := .refl) ..) ?_
                | with_reducible refine nextOf_within (a := 0x83) (Sub.up hM rfl) (execStrandFlush_within rfl (hW := .refl) ..) ?_
                | with_reducible refine nextOf_within (a := 0x100010093) (Sub.up hM rfl) (execStrandRelease_within rfl (hW := .refl) ..) ?_
                | with_reducible apply nextOf_within (Sub.up hM rfl)
                | (with_reducible apply Within.snd <;> [with_reducible assumption; skip])
                | (with_reducible apply Within.fst <;> [with_reducible assumption; skip])
                | (with_reducible apply Within.fst2 <;> [with_reducible assumption; skip])
                | split)
         | skip
       clear_value x)
    | lift_lets -underBinder
    | with_reducible apply Within.ite
    | with_reducible apply setReg_within (Sub.up hM rfl)
    | with_reducible refine strandCtl_within (Sub.up hM rfl) (fun _ _ => ?_) ?_
    | with_reducible refine nextOf_within (a := 0x10083) (Sub.up hM rfl) (execStrandActivate_within rfl (hW := .refl) ..) ?_
    | with_reducible refine nextOf_within (a := 0x10083) (Sub.up hM rfl) (execStrandUpdate_within rfl (hW := .refl) ..) ?_
    | with_reducible refine nextOf_within (a := 0x83) (Sub.up hM rfl) (execStrandFlush_within rfl (hW := .refl) ..) ?_
    | with_reducible refine nextOf_within (a := 0x100010093) (Sub.up hM rfl) (execStrandRelease_within rfl (hW := .refl) ..) ?_
    | with_reducible apply nextOf_within (Sub.up hM rfl)
    | (with_reducible apply Within.snd <;> [with_reducible assumption; skip])
    | (with_reducible apply Within.fst <;> [with_reducible assumption; skip])
    | (with_reducible apply Within.fst2 <;> [with_reducible assumption; skip])
    | split

theorem writeBankPower_within {M : Nat} {s0 : State} (hM : Sub 0x310000093 M) (s : State) (c : CoreId) (v : Nat) (hW : Within M s0 s) : Within M s0 (writeBankPower s c v) := by
  unfold writeBankPower
  repeat' first
    | with_reducible assumption
    | (intro x
       first
         | (have hx : Within M s0 x := by
              unfold x
              repeat' first
                | with_reducible assumption
                | with_reducible apply Within.ite
                | with_reducible apply setReg_within (Sub.up hM rfl)
                | with_reducible refine nextOf_within (a := 0x310000093) (Sub.up hM rfl) (execBankPowerDown_within rfl (hW := .refl) ..) ?_
                | with_reducible refine nextOf_within (a := 0x11) (Sub.up hM rfl) (execBankPowerUp_within rfl (hW := .refl) ..) ?_
                | with_reducible apply nextOf_within (Sub.up hM rfl)
                | (with_reducible apply Within.snd <;> [with_reducible assumption; skip])
                | (with_reducible apply Within.fst <;> [with_reducible assumption; skip])
                | (with_reducible apply Within.fst2 <;> [with_reducible assumption; skip]))
         | skip
       clear_value x)
    | lift_lets -underBinder
    | with_reducible apply Within.ite
    | with_reducible apply setReg_within (Sub.up hM rfl)
    | with_reducible refine nextOf_within (a := 0x310000093) (Sub.up hM rfl) (execBankPowerDown_within rfl (hW := .refl) ..) ?_
    | with_reducible refine nextOf_within (a := 0x11) (Sub.up hM rfl) (execBankPowerUp_within rfl (hW := .refl) ..) ?_
    | with_reducible apply nextOf_within (Sub.up hM rfl)
    | (with_reducible apply Within.snd <;> [with_reducible assumption; skip])
    | (with_reducible apply Within.fst <;> [with_reducible assumption; skip])
    | (with_reducible apply Within.fst2 <;> [with_reducible assumption; skip])

theorem writeWinCtl_within {M : Nat} {s0 : State} (hM : Sub 0x3100008d3 M) (s : State) (c : CoreId) (v : Nat) (hW : Within M s0 s) : Within M s0 (writeWinCtl s c v) := by
  unfold writeWinCtl
  repeat' first
    | with_reducible assumption
    | (intro x
       first
         | (have hx : Within M s0 x := by
              unfold x
              repeat' first
                | with_reducible assumption
                | with_reducible apply Within.ite
                | with_reducible refine nextOf_within (a := 0x3100008d3) (Sub.up hM rfl) (execWinOpen_within rfl (hW := .refl) ..) ?_
                | with_reducible refine nextOf_within (a := 0x310000093) (Sub.up hM rfl) (execWinClose_within rfl (hW := .refl) ..) ?_
                | with_reducible apply nextOf_within (Sub.up hM rfl)
                | (with_reducible apply Within.snd <;> [with_reducible assumption; skip])
                | (with_reducible apply Within.fst <;> [with_reducible assumption; skip])
                | (with_reducible apply Within.fst2 <;> [with_reducible assumption; skip]))
         | skip
       clear_value x)
    | lift_lets -underBinder
    | with_reducible apply Within.ite
    | with_reducible refine nextOf_within (a := 0x3100008d3) (Sub.up hM rfl) (execWinOpen_within rfl (hW := .refl) ..) ?_
    | with_reducible refine nextOf_within (a := 0x310000093) (Sub.up hM rfl) (execWinClose_within rfl (hW := .refl) ..) ?_
    | with_reducible apply nextOf_within (Sub.up hM rfl)
    | (with_reducible apply Within.snd <;> [with_reducible assumption; skip])
    | (with_reducible apply Within.fst <;> [with_reducible assumption; skip])
    | (with_reducible apply Within.fst2 <;> [with_reducible assumption; skip])

theorem writeCoreReg_within {M : Nat} {s0 : State} (hM : Sub 0x7100008d3 M) (s : State) (c : CoreId) (o : Nat) (v : Word) (hW : Within M s0 s) : Within M s0 (writeCoreReg s c o v) := by
  unfold writeCoreReg
  repeat' first
    | with_reducible assumption
    | (intro x
       first
         | (have hx : Within M s0 x := by
              unfold x
              repeat' first
                | with_reducible assumption
                | with_reducible apply Within.ite
                | with_reducible apply setReg_within (Sub.up hM rfl)
                | with_reducible apply freshFree_within (Sub.up hM rfl)
                | with_reducible refine nextOf_within (a := 0x11) (Sub.up hM rfl) (execSpmOpStart_within rfl (hW := .refl) ..) ?_
                | with_reducible refine nextOf_within (a := 0x310000093) (Sub.up hM rfl) (execSpmGbFlush_within rfl (hW := .refl) ..) ?_
                | with_reducible refine nextOf_within (a := 0x1) (Sub.up hM rfl) (execCorePaceClear_within rfl (hW := .refl) ..) ?_
                | with_reducible refine nextOf_within (a := 0x1) (Sub.up hM rfl) (execCoreNumClear_within rfl (hW := .refl) ..) ?_
                | with_reducible refine nextOf_within (a := 0x1) (Sub.up hM rfl) (execCoreFmtClear_within rfl (hW := .refl) ..) ?_
                | with_reducible refine nextOf_within (a := 0x1) (Sub.up hM rfl) (execCoreLaneClear_within rfl (hW := .refl) ..) ?_
                | with_reducible refine nextOf_within (a := 0x1) (Sub.up hM rfl) (execCoreAccClear_within rfl (hW := .refl) ..) ?_
                | with_reducible refine nextOf_within (a := 0x1) (Sub.up hM rfl) (execCoreRfuClear_within rfl (hW := .refl) ..) ?_
                | with_reducible refine nextOf_within (a := 0x11) (Sub.up hM rfl) (execSpmClear_within rfl (hW := .refl) ..) ?_
                | with_reducible refine nextOf_within (a := 0x1) (Sub.up hM rfl) (execLoopClear_within rfl (hW := .refl) ..) ?_
                | with_reducible refine nextOf_within (a := 0x1) (Sub.up hM rfl) (execFetClear_within rfl (hW := .refl) ..) ?_
                | with_reducible refine nextOf_within (a := 0x1) (Sub.up hM rfl) (execQueClear_within rfl (hW := .refl) ..) ?_
                | with_reducible refine nextOf_within (a := 0x1) (Sub.up hM rfl) (execLceClear_within rfl (hW := .refl) ..) ?_
                | with_reducible refine nextOf_within (a := 0x1) (Sub.up hM rfl) (execCoreXltClear_within rfl (hW := .refl) ..) ?_
                | with_reducible apply nextOf_within (Sub.up hM rfl)
                | with_reducible apply writeBankPower_within (Sub.up hM rfl)
                | with_reducible apply writeWinCtl_within (Sub.up hM rfl)
                | (with_reducible apply Within.snd <;> [with_reducible assumption; skip])
                | (with_reducible apply Within.fst <;> [with_reducible assumption; skip])
                | (with_reducible apply Within.fst2 <;> [with_reducible assumption; skip]))
         | (have hx : Within M s0 x.1 := by
              unfold x
              repeat' first
                | with_reducible assumption
                | with_reducible apply Within.ite
                | with_reducible apply setReg_within (Sub.up hM rfl)
                | with_reducible apply freshFree_within (Sub.up hM rfl)
                | with_reducible refine nextOf_within (a := 0x11) (Sub.up hM rfl) (execSpmOpStart_within rfl (hW := .refl) ..) ?_
                | with_reducible refine nextOf_within (a := 0x310000093) (Sub.up hM rfl) (execSpmGbFlush_within rfl (hW := .refl) ..) ?_
                | with_reducible refine nextOf_within (a := 0x1) (Sub.up hM rfl) (execCorePaceClear_within rfl (hW := .refl) ..) ?_
                | with_reducible refine nextOf_within (a := 0x1) (Sub.up hM rfl) (execCoreNumClear_within rfl (hW := .refl) ..) ?_
                | with_reducible refine nextOf_within (a := 0x1) (Sub.up hM rfl) (execCoreFmtClear_within rfl (hW := .refl) ..) ?_
                | with_reducible refine nextOf_within (a := 0x1) (Sub.up hM rfl) (execCoreLaneClear_within rfl (hW := .refl) ..) ?_
                | with_reducible refine nextOf_within (a := 0x1) (Sub.up hM rfl) (execCoreAccClear_within rfl (hW := .refl) ..) ?_
                | with_reducible refine nextOf_within (a := 0x1) (Sub.up hM rfl) (execCoreRfuClear_within rfl (hW := .refl) ..) ?_
                | with_reducible refine nextOf_within (a := 0x11) (Sub.up hM rfl) (execSpmClear_within rfl (hW := .refl) ..) ?_
                | with_reducible refine nextOf_within (a := 0x1) (Sub.up hM rfl) (execLoopClear_within rfl (hW := .refl) ..) ?_
                | with_reducible refine nextOf_within (a := 0x1) (Sub.up hM rfl) (execFetClear_within rfl (hW := .refl) ..) ?_
                | with_reducible refine nextOf_within (a := 0x1) (Sub.up hM rfl) (execQueClear_within rfl (hW := .refl) ..) ?_
                | with_reducible refine nextOf_within (a := 0x1) (Sub.up hM rfl) (execLceClear_within rfl (hW := .refl) ..) ?_
                | with_reducible refine nextOf_within (a := 0x1) (Sub.up hM rfl) (execCoreXltClear_within rfl (hW := .refl) ..) ?_
                | with_reducible apply nextOf_within (Sub.up hM rfl)
                | with_reducible apply writeBankPower_within (Sub.up hM rfl)
                | with_reducible apply writeWinCtl_within (Sub.up hM rfl)
                | (with_reducible apply Within.snd <;> [with_reducible assumption; skip])
                | (with_reducible apply Within.fst <;> [with_reducible assumption; skip])
                | (with_reducible apply Within.fst2 <;> [with_reducible assumption; skip]))
         | (have hx : Within M s0 x.2 := by
              unfold x
              repeat' first
                | with_reducible assumption
                | with_reducible apply Within.ite
                | with_reducible apply setReg_within (Sub.up hM rfl)
                | with_reducible apply freshFree_within (Sub.up hM rfl)
                | with_reducible refine nextOf_within (a := 0x11) (Sub.up hM rfl) (execSpmOpStart_within rfl (hW := .refl) ..) ?_
                | with_reducible refine nextOf_within (a := 0x310000093) (Sub.up hM rfl) (execSpmGbFlush_within rfl (hW := .refl) ..) ?_
                | with_reducible refine nextOf_within (a := 0x1) (Sub.up hM rfl) (execCorePaceClear_within rfl (hW := .refl) ..) ?_
                | with_reducible refine nextOf_within (a := 0x1) (Sub.up hM rfl) (execCoreNumClear_within rfl (hW := .refl) ..) ?_
                | with_reducible refine nextOf_within (a := 0x1) (Sub.up hM rfl) (execCoreFmtClear_within rfl (hW := .refl) ..) ?_
                | with_reducible refine nextOf_within (a := 0x1) (Sub.up hM rfl) (execCoreLaneClear_within rfl (hW := .refl) ..) ?_
                | with_reducible refine nextOf_within (a := 0x1) (Sub.up hM rfl) (execCoreAccClear_within rfl (hW := .refl) ..) ?_
                | with_reducible refine nextOf_within (a := 0x1) (Sub.up hM rfl) (execCoreRfuClear_within rfl (hW := .refl) ..) ?_
                | with_reducible refine nextOf_within (a := 0x11) (Sub.up hM rfl) (execSpmClear_within rfl (hW := .refl) ..) ?_
                | with_reducible refine nextOf_within (a := 0x1) (Sub.up hM rfl) (execLoopClear_within rfl (hW := .refl) ..) ?_
                | with_reducible refine nextOf_within (a := 0x1) (Sub.up hM rfl) (execFetClear_within rfl (hW := .refl) ..) ?_
                | with_reducible refine nextOf_within (a := 0x1) (Sub.up hM rfl) (execQueClear_within rfl (hW := .refl) ..) ?_
                | with_reducible refine nextOf_within (a := 0x1) (Sub.up hM rfl) (execLceClear_within rfl (hW := .refl) ..) ?_
                | with_reducible refine nextOf_within (a := 0x1) (Sub.up hM rfl) (execCoreXltClear_within rfl (hW := .refl) ..) ?_
                | with_reducible apply nextOf_within (Sub.up hM rfl)
                | with_reducible apply writeBankPower_within (Sub.up hM rfl)
                | with_reducible apply writeWinCtl_within (Sub.up hM rfl)
                | (with_reducible apply Within.snd <;> [with_reducible assumption; skip])
                | (with_reducible apply Within.fst <;> [with_reducible assumption; skip])
                | (with_reducible apply Within.fst2 <;> [with_reducible assumption; skip]))
         | skip
       clear_value x)
    | lift_lets -underBinder
    | with_reducible apply Within.ite
    | with_reducible apply setReg_within (Sub.up hM rfl)
    | with_reducible apply freshFree_within (Sub.up hM rfl)
    | with_reducible refine nextOf_within (a := 0x11) (Sub.up hM rfl) (execSpmOpStart_within rfl (hW := .refl) ..) ?_
    | with_reducible refine nextOf_within (a := 0x310000093) (Sub.up hM rfl) (execSpmGbFlush_within rfl (hW := .refl) ..) ?_
    | with_reducible refine nextOf_within (a := 0x1) (Sub.up hM rfl) (execCorePaceClear_within rfl (hW := .refl) ..) ?_
    | with_reducible refine nextOf_within (a := 0x1) (Sub.up hM rfl) (execCoreNumClear_within rfl (hW := .refl) ..) ?_
    | with_reducible refine nextOf_within (a := 0x1) (Sub.up hM rfl) (execCoreFmtClear_within rfl (hW := .refl) ..) ?_
    | with_reducible refine nextOf_within (a := 0x1) (Sub.up hM rfl) (execCoreLaneClear_within rfl (hW := .refl) ..) ?_
    | with_reducible refine nextOf_within (a := 0x1) (Sub.up hM rfl) (execCoreAccClear_within rfl (hW := .refl) ..) ?_
    | with_reducible refine nextOf_within (a := 0x1) (Sub.up hM rfl) (execCoreRfuClear_within rfl (hW := .refl) ..) ?_
    | with_reducible refine nextOf_within (a := 0x11) (Sub.up hM rfl) (execSpmClear_within rfl (hW := .refl) ..) ?_
    | with_reducible refine nextOf_within (a := 0x1) (Sub.up hM rfl) (execLoopClear_within rfl (hW := .refl) ..) ?_
    | with_reducible refine nextOf_within (a := 0x1) (Sub.up hM rfl) (execFetClear_within rfl (hW := .refl) ..) ?_
    | with_reducible refine nextOf_within (a := 0x1) (Sub.up hM rfl) (execQueClear_within rfl (hW := .refl) ..) ?_
    | with_reducible refine nextOf_within (a := 0x1) (Sub.up hM rfl) (execLceClear_within rfl (hW := .refl) ..) ?_
    | with_reducible refine nextOf_within (a := 0x1) (Sub.up hM rfl) (execCoreXltClear_within rfl (hW := .refl) ..) ?_
    | with_reducible apply nextOf_within (Sub.up hM rfl)
    | with_reducible apply writeBankPower_within (Sub.up hM rfl)
    | with_reducible apply writeWinCtl_within (Sub.up hM rfl)
    | (with_reducible apply Within.snd <;> [with_reducible assumption; skip])
    | (with_reducible apply Within.fst <;> [with_reducible assumption; skip])
    | (with_reducible apply Within.fst2 <;> [with_reducible assumption; skip])

theorem writeCore_within {M : Nat} {s0 : State} (hM : Sub 0x7100008d3 M) (s : State) (c : CoreId) (o : Nat) (v : Word) (hW : Within M s0 s) : Within M s0 (writeCore s c o v) := by
  unfold writeCore
  repeat' first
    | with_reducible assumption
    | with_reducible apply Within.ite
    | with_reducible refine nextOf_within (a := 0x11) (Sub.up hM rfl) (execRegionEntryWrite_within rfl (hW := .refl) ..) ?_
    | with_reducible refine nextOf_within (a := 0x11) (Sub.up hM rfl) (execWindowEntryWrite_within rfl (hW := .refl) ..) ?_
    | with_reducible refine nextOf_within (a := 0x100000011) (Sub.up hM rfl) (execStitchMarkerWrite_within rfl (hW := .refl) ..) ?_
    | with_reducible apply nextOf_within (Sub.up hM rfl)
    | with_reducible apply writeCoreReg_within (Sub.up hM rfl)
    | (with_reducible apply Within.snd <;> [with_reducible assumption; skip])
    | (with_reducible apply Within.fst <;> [with_reducible assumption; skip])
    | (with_reducible apply Within.fst2 <;> [with_reducible assumption; skip])

theorem writeLink_within {M : Nat} {s0 : State} (hM : Sub 0x7100fbfdb M) (s : State) (d : LnkDie) (o : Nat) (v : Word) (hW : Within M s0 s) : Within M s0 (writeLink s d o v) := by
  unfold writeLink
  repeat' first
    | with_reducible assumption
    | (intro x
       first
         | (have hx : Within M s0 x := by
              unfold x
              repeat' first
                | with_reducible assumption
                | with_reducible apply Within.ite
                | with_reducible apply setReg_within (Sub.up hM rfl)
                | with_reducible refine nextOf_within (a := 0x7100f3fdb) (Sub.up hM rfl) (execLnkSendPost_within rfl (hW := .refl) ..) ?_
                | with_reducible refine nextOf_within (a := 0x2001) (Sub.up hM rfl) (execMergeContextOpen_within rfl (hW := .refl) ..) ?_
                | with_reducible refine nextOf_within (a := 0x1) (Sub.up hM rfl) (execLnkPortClear_within rfl (hW := .refl) ..) ?_
                | with_reducible refine nextOf_within (a := 0x1) (Sub.up hM rfl) (execLnkDieClear_within rfl (hW := .refl) ..) ?_
                | with_reducible apply nextOf_within (Sub.up hM rfl)
                | (with_reducible apply Within.snd <;> [with_reducible assumption; skip])
                | (with_reducible apply Within.fst <;> [with_reducible assumption; skip])
                | (with_reducible apply Within.fst2 <;> [with_reducible assumption; skip])
                | with_reducible refine Within.linkPost ?_ (Sub.has hM rfl))
         | skip
       clear_value x)
    | lift_lets -underBinder
    | with_reducible apply Within.ite
    | with_reducible apply setReg_within (Sub.up hM rfl)
    | with_reducible refine nextOf_within (a := 0x7100f3fdb) (Sub.up hM rfl) (execLnkSendPost_within rfl (hW := .refl) ..) ?_
    | with_reducible refine nextOf_within (a := 0x2001) (Sub.up hM rfl) (execMergeContextOpen_within rfl (hW := .refl) ..) ?_
    | with_reducible refine nextOf_within (a := 0x1) (Sub.up hM rfl) (execLnkPortClear_within rfl (hW := .refl) ..) ?_
    | with_reducible refine nextOf_within (a := 0x1) (Sub.up hM rfl) (execLnkDieClear_within rfl (hW := .refl) ..) ?_
    | with_reducible apply nextOf_within (Sub.up hM rfl)
    | (with_reducible apply Within.snd <;> [with_reducible assumption; skip])
    | (with_reducible apply Within.fst <;> [with_reducible assumption; skip])
    | (with_reducible apply Within.fst2 <;> [with_reducible assumption; skip])
    | with_reducible refine Within.linkPost ?_ (Sub.has hM rfl)

theorem writeLifeline_within {M : Nat} {s0 : State} (hM : Sub 0x7107e3fdb M) (s : State) (o : Nat) (v : Word) (hW : Within M s0 s) : Within M s0 (writeLifeline s o v) := by
  unfold writeLifeline
  repeat' first
    | with_reducible assumption
    | (intro x
       first
         | (have hx : Within M s0 x := by
              unfold x
              repeat' first
                | with_reducible assumption
                | with_reducible apply Within.ite
                | with_reducible apply setReg_within (Sub.up hM rfl)
                | with_reducible refine nextOf_within (a := 0x7103e3fdb) (Sub.up hM rfl) (execArm_within rfl (hW := .refl) ..) ?_
                | with_reducible refine nextOf_within (a := 0x380002) (Sub.up hM rfl) (execHold_within rfl (hW := .refl) ..) ?_
                | with_reducible refine nextOf_within (a := 0x380002) (Sub.up hM rfl) (execLifelineDisarm_within rfl (hW := .refl) ..) ?_
                | with_reducible refine nextOf_within (a := 0x310780083) (Sub.up hM rfl) (execRestore_within rfl (hW := .refl) ..) ?_
                | with_reducible refine nextOf_within (a := 0x1) (Sub.up hM rfl) (execMgtLlClear_within rfl (hW := .refl) ..) ?_
                | with_reducible apply nextOf_within (Sub.up hM rfl)
                | (with_reducible apply Within.snd <;> [with_reducible assumption; skip])
                | (with_reducible apply Within.fst <;> [with_reducible assumption; skip])
                | (with_reducible apply Within.fst2 <;> [with_reducible assumption; skip])
                | split)
         | skip
       clear_value x)
    | lift_lets -underBinder
    | with_reducible apply Within.ite
    | with_reducible apply setReg_within (Sub.up hM rfl)
    | with_reducible refine nextOf_within (a := 0x7103e3fdb) (Sub.up hM rfl) (execArm_within rfl (hW := .refl) ..) ?_
    | with_reducible refine nextOf_within (a := 0x380002) (Sub.up hM rfl) (execHold_within rfl (hW := .refl) ..) ?_
    | with_reducible refine nextOf_within (a := 0x380002) (Sub.up hM rfl) (execLifelineDisarm_within rfl (hW := .refl) ..) ?_
    | with_reducible refine nextOf_within (a := 0x310780083) (Sub.up hM rfl) (execRestore_within rfl (hW := .refl) ..) ?_
    | with_reducible refine nextOf_within (a := 0x1) (Sub.up hM rfl) (execMgtLlClear_within rfl (hW := .refl) ..) ?_
    | with_reducible apply nextOf_within (Sub.up hM rfl)
    | (with_reducible apply Within.snd <;> [with_reducible assumption; skip])
    | (with_reducible apply Within.fst <;> [with_reducible assumption; skip])
    | (with_reducible apply Within.fst2 <;> [with_reducible assumption; skip])
    | split

theorem writeSecurity_within {M : Nat} {s0 : State} (hM : Sub 0x390000081 M) (s : State) (o : Nat) (v : Word) (hW : Within M s0 s) : Within M s0 (writeSecurity s o v) := by
  unfold writeSecurity
  repeat' first
    | with_reducible assumption
    | (intro x
       first
         | (have hx : Within M s0 x := by
              unfold x
              repeat' first
                | with_reducible assumption
                | with_reducible apply Within.ite
                | with_reducible refine nextOf_within (a := 0x80000000) (Sub.up hM rfl) (execFwCommit_within rfl (hW := .refl) ..) ?_
                | with_reducible refine nextOf_within (a := 0x390000081) (Sub.up hM rfl) (execRelock_within rfl (hW := .refl) ..) ?_
                | with_reducible refine nextOf_within (a := 0x80000000) (Sub.up hM rfl) (execTmuxSelect_within rfl (hW := .refl) ..) ?_
                | with_reducible refine nextOf_within (a := 0x80000000) (Sub.up hM rfl) (execSecClear_within rfl (hW := .refl) ..) ?_
                | with_reducible apply nextOf_within (Sub.up hM rfl)
                | (with_reducible apply Within.snd <;> [with_reducible assumption; skip])
                | (with_reducible apply Within.fst <;> [with_reducible assumption; skip])
                | (with_reducible apply Within.fst2 <;> [with_reducible assumption; skip])
                | with_reducible refine Within.sec ?_ (Sub.has hM rfl))
         | skip
       clear_value x)
    | lift_lets -underBinder
    | with_reducible apply Within.ite
    | with_reducible refine nextOf_within (a := 0x80000000) (Sub.up hM rfl) (execFwCommit_within rfl (hW := .refl) ..) ?_
    | with_reducible refine nextOf_within (a := 0x390000081) (Sub.up hM rfl) (execRelock_within rfl (hW := .refl) ..) ?_
    | with_reducible refine nextOf_within (a := 0x80000000) (Sub.up hM rfl) (execTmuxSelect_within rfl (hW := .refl) ..) ?_
    | with_reducible refine nextOf_within (a := 0x80000000) (Sub.up hM rfl) (execSecClear_within rfl (hW := .refl) ..) ?_
    | with_reducible apply nextOf_within (Sub.up hM rfl)
    | (with_reducible apply Within.snd <;> [with_reducible assumption; skip])
    | (with_reducible apply Within.fst <;> [with_reducible assumption; skip])
    | (with_reducible apply Within.fst2 <;> [with_reducible assumption; skip])
    | with_reducible refine Within.sec ?_ (Sub.has hM rfl)

theorem writeMgt_within {M : Nat} {s0 : State} (hM : Sub 0x7927e3fdf M) (s : State) (off : Nat) (v : Word) (hW : Within M s0 s) : Within M s0 (writeMgt s off v) := by
  unfold writeMgt
  repeat' first
    | with_reducible assumption
    | (intro x
       first
         | (have hx : Within M s0 x := by
              unfold x
              repeat' first
                | with_reducible assumption
                | with_reducible apply Within.ite
                | with_reducible apply freshFree_within (Sub.up hM rfl)
                | with_reducible refine nextOf_within (a := 0x4) (Sub.up hM rfl) (execReftimeLoad_within rfl (hW := .refl) ..) ?_
                | with_reducible refine nextOf_within (a := 0x4) (Sub.up hM rfl) (execReftimeSlew_within rfl (hW := .refl) ..) ?_
                | with_reducible refine nextOf_within (a := 0x2000000) (Sub.up hM rfl) (execMgtInputClear_within rfl (hW := .refl) ..) ?_
                | with_reducible refine nextOf_within (a := 0x1) (Sub.up hM rfl) (execMgtRtrClear_within rfl (hW := .refl) ..) ?_
                | with_reducible refine nextOf_within (a := 0x1) (Sub.up hM rfl) (execMgtPwrClear_within rfl (hW := .refl) ..) ?_
                | with_reducible apply nextOf_within (Sub.up hM rfl)
                | with_reducible apply writeLifeline_within (Sub.up hM rfl)
                | with_reducible apply writeSecurity_within (Sub.up hM rfl)
                | (with_reducible apply Within.snd <;> [with_reducible assumption; skip])
                | (with_reducible apply Within.fst <;> [with_reducible assumption; skip])
                | (with_reducible apply Within.fst2 <;> [with_reducible assumption; skip]))
         | (have hx : Within M s0 x.1 := by
              unfold x
              repeat' first
                | with_reducible assumption
                | with_reducible apply Within.ite
                | with_reducible apply freshFree_within (Sub.up hM rfl)
                | with_reducible refine nextOf_within (a := 0x4) (Sub.up hM rfl) (execReftimeLoad_within rfl (hW := .refl) ..) ?_
                | with_reducible refine nextOf_within (a := 0x4) (Sub.up hM rfl) (execReftimeSlew_within rfl (hW := .refl) ..) ?_
                | with_reducible refine nextOf_within (a := 0x2000000) (Sub.up hM rfl) (execMgtInputClear_within rfl (hW := .refl) ..) ?_
                | with_reducible refine nextOf_within (a := 0x1) (Sub.up hM rfl) (execMgtRtrClear_within rfl (hW := .refl) ..) ?_
                | with_reducible refine nextOf_within (a := 0x1) (Sub.up hM rfl) (execMgtPwrClear_within rfl (hW := .refl) ..) ?_
                | with_reducible apply nextOf_within (Sub.up hM rfl)
                | with_reducible apply writeLifeline_within (Sub.up hM rfl)
                | with_reducible apply writeSecurity_within (Sub.up hM rfl)
                | (with_reducible apply Within.snd <;> [with_reducible assumption; skip])
                | (with_reducible apply Within.fst <;> [with_reducible assumption; skip])
                | (with_reducible apply Within.fst2 <;> [with_reducible assumption; skip]))
         | (have hx : Within M s0 x.2 := by
              unfold x
              repeat' first
                | with_reducible assumption
                | with_reducible apply Within.ite
                | with_reducible apply freshFree_within (Sub.up hM rfl)
                | with_reducible refine nextOf_within (a := 0x4) (Sub.up hM rfl) (execReftimeLoad_within rfl (hW := .refl) ..) ?_
                | with_reducible refine nextOf_within (a := 0x4) (Sub.up hM rfl) (execReftimeSlew_within rfl (hW := .refl) ..) ?_
                | with_reducible refine nextOf_within (a := 0x2000000) (Sub.up hM rfl) (execMgtInputClear_within rfl (hW := .refl) ..) ?_
                | with_reducible refine nextOf_within (a := 0x1) (Sub.up hM rfl) (execMgtRtrClear_within rfl (hW := .refl) ..) ?_
                | with_reducible refine nextOf_within (a := 0x1) (Sub.up hM rfl) (execMgtPwrClear_within rfl (hW := .refl) ..) ?_
                | with_reducible apply nextOf_within (Sub.up hM rfl)
                | with_reducible apply writeLifeline_within (Sub.up hM rfl)
                | with_reducible apply writeSecurity_within (Sub.up hM rfl)
                | (with_reducible apply Within.snd <;> [with_reducible assumption; skip])
                | (with_reducible apply Within.fst <;> [with_reducible assumption; skip])
                | (with_reducible apply Within.fst2 <;> [with_reducible assumption; skip]))
         | skip
       clear_value x)
    | lift_lets -underBinder
    | with_reducible apply Within.ite
    | with_reducible apply freshFree_within (Sub.up hM rfl)
    | with_reducible refine nextOf_within (a := 0x4) (Sub.up hM rfl) (execReftimeLoad_within rfl (hW := .refl) ..) ?_
    | with_reducible refine nextOf_within (a := 0x4) (Sub.up hM rfl) (execReftimeSlew_within rfl (hW := .refl) ..) ?_
    | with_reducible refine nextOf_within (a := 0x2000000) (Sub.up hM rfl) (execMgtInputClear_within rfl (hW := .refl) ..) ?_
    | with_reducible refine nextOf_within (a := 0x1) (Sub.up hM rfl) (execMgtRtrClear_within rfl (hW := .refl) ..) ?_
    | with_reducible refine nextOf_within (a := 0x1) (Sub.up hM rfl) (execMgtPwrClear_within rfl (hW := .refl) ..) ?_
    | with_reducible apply nextOf_within (Sub.up hM rfl)
    | with_reducible apply writeLifeline_within (Sub.up hM rfl)
    | with_reducible apply writeSecurity_within (Sub.up hM rfl)
    | (with_reducible apply Within.snd <;> [with_reducible assumption; skip])
    | (with_reducible apply Within.fst <;> [with_reducible assumption; skip])
    | (with_reducible apply Within.fst2 <;> [with_reducible assumption; skip])

theorem writeReg_within {M : Nat} {s0 : State} (hM : Sub 0x7927fbfdf M) (s : State) (src off : Nat) (v : Word) (hW : Within M s0 s) : Within M s0 (writeReg s src off v) := by
  unfold writeReg
  repeat' first
    | with_reducible assumption
    | (intro x
       first
         | (have hx : Within M s0 x := by
              unfold x
              repeat' first
                | with_reducible assumption
                | with_reducible apply Within.ite
                | with_reducible refine nextOf_within (a := 0x100000091) (Sub.up hM rfl) (execHstCancel_within rfl (hW := .refl) ..) ?_
                | with_reducible refine nextOf_within (a := 0x1) (Sub.up hM rfl) (execMifClear_within rfl (hW := .refl) ..) ?_
                | with_reducible refine nextOf_within (a := 0x1) (Sub.up hM rfl) (execFarClear_within rfl (hW := .refl) ..) ?_
                | with_reducible refine nextOf_within (a := 0x1) (Sub.up hM rfl) (execHstClear_within rfl (hW := .refl) ..) ?_
                | with_reducible apply nextOf_within (Sub.up hM rfl)
                | with_reducible apply writeQueue_within (Sub.up hM rfl)
                | with_reducible apply writeSq_within (Sub.up hM rfl)
                | with_reducible apply writeCq_within (Sub.up hM rfl)
                | with_reducible apply writeMsix_within (Sub.up hM rfl)
                | with_reducible apply writeAperture_within (Sub.up hM rfl)
                | with_reducible apply writeWindow_within (Sub.up hM rfl)
                | with_reducible apply writeStrandCtl_within (Sub.up hM rfl)
                | with_reducible apply writeCore_within (Sub.up hM rfl)
                | with_reducible apply writeLink_within (Sub.up hM rfl)
                | with_reducible apply writeMgt_within (Sub.up hM rfl)
                | (with_reducible apply Within.snd <;> [with_reducible assumption; skip])
                | (with_reducible apply Within.fst <;> [with_reducible assumption; skip])
                | (with_reducible apply Within.fst2 <;> [with_reducible assumption; skip]))
         | skip
       clear_value x)
    | lift_lets -underBinder
    | with_reducible apply Within.ite
    | with_reducible refine nextOf_within (a := 0x100000091) (Sub.up hM rfl) (execHstCancel_within rfl (hW := .refl) ..) ?_
    | with_reducible refine nextOf_within (a := 0x1) (Sub.up hM rfl) (execMifClear_within rfl (hW := .refl) ..) ?_
    | with_reducible refine nextOf_within (a := 0x1) (Sub.up hM rfl) (execFarClear_within rfl (hW := .refl) ..) ?_
    | with_reducible refine nextOf_within (a := 0x1) (Sub.up hM rfl) (execHstClear_within rfl (hW := .refl) ..) ?_
    | with_reducible apply nextOf_within (Sub.up hM rfl)
    | with_reducible apply writeQueue_within (Sub.up hM rfl)
    | with_reducible apply writeSq_within (Sub.up hM rfl)
    | with_reducible apply writeCq_within (Sub.up hM rfl)
    | with_reducible apply writeMsix_within (Sub.up hM rfl)
    | with_reducible apply writeAperture_within (Sub.up hM rfl)
    | with_reducible apply writeWindow_within (Sub.up hM rfl)
    | with_reducible apply writeStrandCtl_within (Sub.up hM rfl)
    | with_reducible apply writeCore_within (Sub.up hM rfl)
    | with_reducible apply writeLink_within (Sub.up hM rfl)
    | with_reducible apply writeMgt_within (Sub.up hM rfl)
    | (with_reducible apply Within.snd <;> [with_reducible assumption; skip])
    | (with_reducible apply Within.fst <;> [with_reducible assumption; skip])
    | (with_reducible apply Within.fst2 <;> [with_reducible assumption; skip])

theorem execRegisterWrite_within {M : Nat} {s0 : State} (hM : Sub 0x7927fbfdf M) (t : BulkTag) (off : BitVec 26) (value : Word) (s : State) (hW : Within M s0 s) :
    ∃ u, execRegisterWrite t off value s = .next u ∧ Within M s0 u := by
  unfold execRegisterWrite
  refine ⟨_, rfl, ?_⟩
  repeat' first
    | with_reducible assumption
    | with_reducible refine onBulk_within (Sub.up hM rfl) (fun _ _ => ?_) ?_
    | with_reducible apply writeReg_within (Sub.up hM rfl)

end Sys2Proof.Machine
end

