-- ==== Sys2Proof/Laws/WithinRowCounters.lean ====
section
/-! SUPPORT. What the operations and commands of Machine/RowCounters can do to the state (Laws/Within). -/

namespace Sys2Proof.Machine

theorem onSlice_within {M : Nat} {s0 : State} (hM : Sub 0x100000001 M) {n : CounterId} {f : Frame} {s : State} {k : State → State}
    (hk : ∀ t, Within M s0 t → Within M s0 (k t)) (h : Within M s0 s) : Within M s0 (onSlice n f s k) :=
  onChain_within hM hk h

theorem fromSlice_within {M : Nat} {s0 : State} (hM : Sub 0x100000000 M) (s : State) (counter die : Nat) (m : Msg) (hW : Within M s0 s) : Within M s0 (fromSlice s counter die m) := by
  unfold fromSlice
  repeat' first
    | with_reducible assumption
    | with_reducible apply sendChain_within (Sub.up hM rfl)

theorem dropClaim_within {M : Nat} {s0 : State} (hM : Sub 0x80 M) (s : State) (hW : Within M s0 s) : Within M s0 (dropClaim s) := by
  unfold dropClaim
  repeat' first
    | with_reducible assumption
    | with_reducible refine Within.hst ?_ (Sub.has hM rfl)

theorem execArm0_within {M : Nat} {s0 : State} (hM : Sub 0x100000021 M) (f : Frame) (c : CounterId) (chunkLog : BitVec 3) (k : BitVec 21) (s : State) (hW : Within M s0 s) :
    ∃ u, execArm0 f c chunkLog k s = .next u ∧ Within M s0 u := by
  unfold execArm0
  refine ⟨_, rfl, ?_⟩
  repeat' first
    | with_reducible assumption
    | with_reducible apply updCounter_within (Sub.up hM rfl)
    | with_reducible refine onSlice_within (Sub.up hM rfl) (fun _ _ => ?_) ?_

theorem execArm1_within {M : Nat} {s0 : State} (hM : Sub 0x100000021 M) (f : Frame) (c : CounterId) (n : StrandId) (s : State) (hW : Within M s0 s) :
    ∃ u, execArm1 f c n s = .next u ∧ Within M s0 u := by
  unfold execArm1
  refine ⟨_, rfl, ?_⟩
  repeat' first
    | with_reducible assumption
    | with_reducible apply updCounter_within (Sub.up hM rfl)
    | with_reducible refine onSlice_within (Sub.up hM rfl) (fun _ _ => ?_) ?_

theorem execArm2_within {M : Nat} {s0 : State} (hM : Sub 0x710000fb9 M) (f : Frame) (c : CounterId) (base : BitVec 48) (s : State) (hW : Within M s0 s) :
    ∃ u, execArm2 f c base s = .next u ∧ Within M s0 u := by
  unfold execArm2
  refine ⟨_, rfl, ?_⟩
  repeat' first
    | with_reducible assumption
    | (intro x
       first
         | (have hx : Within M s0 x := by
              unfold x
              repeat' first
                | with_reducible assumption
                | dsimp -zeta only
                | with_reducible apply Within.ite1
                | with_reducible apply Within.ite2
                | with_reducible apply Within.ite
                | with_reducible apply updCounter_within (Sub.up hM rfl)
                | with_reducible apply endTask_within (Sub.up hM rfl)
                | with_reducible apply getRange_within (Sub.up hM rfl)
                | with_reducible apply fromSlice_within (Sub.up hM rfl)
                | with_reducible refine onSlice_within (Sub.up hM rfl) (fun _ _ => ?_) ?_
                | (with_reducible apply Within.snd <;> [with_reducible assumption; skip])
                | (with_reducible apply Within.fst <;> [with_reducible assumption; skip])
                | (with_reducible apply Within.fst2 <;> [with_reducible assumption; skip])
                | split)
         | (have hx : Within M s0 x.1 := by
              unfold x
              repeat' first
                | with_reducible assumption
                | dsimp -zeta only
                | with_reducible apply Within.ite1
                | with_reducible apply Within.ite2
                | with_reducible apply Within.ite
                | with_reducible apply updCounter_within (Sub.up hM rfl)
                | with_reducible apply endTask_within (Sub.up hM rfl)
                | with_reducible apply getRange_within (Sub.up hM rfl)
                | with_reducible apply fromSlice_within (Sub.up hM rfl)
                | with_reducible refine onSlice_within (Sub.up hM rfl) (fun _ _ => ?_) ?_
                | (with_reducible apply Within.snd <;> [with_reducible assumption; skip])
                | (with_reducible apply Within.fst <;> [with_reducible assumption; skip])
                | (with_reducible apply Within.fst2 <;> [with_reducible assumption; skip])
                | split)
         | (have hx : Within M s0 x.2 := by
              unfold x
              repeat' first
                | with_reducible assumption
                | dsimp -zeta only
                | with_reducible apply Within.ite1
                | with_reducible apply Within.ite2
                | with_reducible apply Within.ite
                | with_reducible apply updCounter_within (Sub.up hM rfl)
                | with_reducible apply endTask_within (Sub.up hM rfl)
                | with_reducible apply getRange_within (Sub.up hM rfl)
                | with_reducible apply fromSlice_within (Sub.up hM rfl)
                | with_reducible refine onSlice_within (Sub.up hM rfl) (fun _ _ => ?_) ?_
                | (with_reducible apply Within.snd <;> [with_reducible assumption; skip])
                | (with_reducible apply Within.fst <;> [with_reducible assumption; skip])
                | (with_reducible apply Within.fst2 <;> [with_reducible assumption; skip])
                | split)
         | skip
       clear_value x)
    | lift_lets -underBinder
    | dsimp -zeta only
    | with_reducible apply Within.ite1
    | with_reducible apply Within.ite2
    | with_reducible apply Within.ite
    | with_reducible apply updCounter_within (Sub.up hM rfl)
    | with_reducible apply endTask_within (Sub.up hM rfl)
    | with_reducible apply getRange_within (Sub.up hM rfl)
    | with_reducible apply fromSlice_within (Sub.up hM rfl)
    | with_reducible refine onSlice_within (Sub.up hM rfl) (fun _ _ => ?_) ?_
    | (with_reducible apply Within.snd <;> [with_reducible assumption; skip])
    | (with_reducible apply Within.fst <;> [with_reducible assumption; skip])
    | (with_reducible apply Within.fst2 <;> [with_reducible assumption; skip])
    | split

theorem execArmed_within {M : Nat} {s0 : State} (hM : Sub 0x1000000a1 M) (f : Frame) (c : CounterId) (s : State) (hW : Within M s0 s) :
    ∃ u, execArmed f c s = .next u ∧ Within M s0 u := by
  unfold execArmed
  refine ⟨_, rfl, ?_⟩
  repeat' first
    | with_reducible assumption
    | (intro x
       first
         | (have hx : Within M s0 x := by
              unfold x
              repeat' first
                | with_reducible assumption
                | with_reducible apply Within.ite
                | with_reducible apply updSlot_within (Sub.up hM rfl)
                | with_reducible refine onChain_within (Sub.up hM rfl) (fun _ _ => ?_) ?_
                | with_reducible apply proceed_within (Sub.up hM rfl))
         | skip
       clear_value x)
    | lift_lets -underBinder
    | with_reducible apply Within.ite
    | with_reducible apply updSlot_within (Sub.up hM rfl)
    | with_reducible refine onChain_within (Sub.up hM rfl) (fun _ _ => ?_) ?_
    | with_reducible apply proceed_within (Sub.up hM rfl)

theorem execClaim_within {M : Nat} {s0 : State} (hM : Sub 0x1000000a1 M) (f : Frame) (c : CounterId) (attempt : BitVec 2) (s : State) (hW : Within M s0 s) :
    ∃ u, execClaim f c attempt s = .next u ∧ Within M s0 u := by
  unfold execClaim
  refine ⟨_, rfl, ?_⟩
  repeat' first
    | with_reducible assumption
    | (intro x
       first
         | (have hx : Within M s0 x := by
              unfold x
              repeat' first
                | with_reducible assumption
                | dsimp -zeta only
                | with_reducible apply Within.ite1
                | with_reducible apply Within.ite2
                | with_reducible apply Within.ite
                | with_reducible apply updCounter_within (Sub.up hM rfl)
                | with_reducible apply fromSlice_within (Sub.up hM rfl)
                | with_reducible apply dropClaim_within (Sub.up hM rfl)
                | with_reducible refine onSlice_within (Sub.up hM rfl) (fun _ _ => ?_) ?_
                | (with_reducible apply Within.snd <;> [with_reducible assumption; skip])
                | (with_reducible apply Within.fst <;> [with_reducible assumption; skip])
                | (with_reducible apply Within.fst2 <;> [with_reducible assumption; skip])
                | split)
         | (have hx : Within M s0 x.1 := by
              unfold x
              repeat' first
                | with_reducible assumption
                | dsimp -zeta only
                | with_reducible apply Within.ite1
                | with_reducible apply Within.ite2
                | with_reducible apply Within.ite
                | with_reducible apply updCounter_within (Sub.up hM rfl)
                | with_reducible apply fromSlice_within (Sub.up hM rfl)
                | with_reducible apply dropClaim_within (Sub.up hM rfl)
                | with_reducible refine onSlice_within (Sub.up hM rfl) (fun _ _ => ?_) ?_
                | (with_reducible apply Within.snd <;> [with_reducible assumption; skip])
                | (with_reducible apply Within.fst <;> [with_reducible assumption; skip])
                | (with_reducible apply Within.fst2 <;> [with_reducible assumption; skip])
                | split)
         | (have hx : Within M s0 x.2 := by
              unfold x
              repeat' first
                | with_reducible assumption
                | dsimp -zeta only
                | with_reducible apply Within.ite1
                | with_reducible apply Within.ite2
                | with_reducible apply Within.ite
                | with_reducible apply updCounter_within (Sub.up hM rfl)
                | with_reducible apply fromSlice_within (Sub.up hM rfl)
                | with_reducible apply dropClaim_within (Sub.up hM rfl)
                | with_reducible refine onSlice_within (Sub.up hM rfl) (fun _ _ => ?_) ?_
                | (with_reducible apply Within.snd <;> [with_reducible assumption; skip])
                | (with_reducible apply Within.fst <;> [with_reducible assumption; skip])
                | (with_reducible apply Within.fst2 <;> [with_reducible assumption; skip])
                | split)
         | skip
       clear_value x)
    | lift_lets -underBinder
    | dsimp -zeta only
    | with_reducible apply Within.ite1
    | with_reducible apply Within.ite2
    | with_reducible apply Within.ite
    | with_reducible apply updCounter_within (Sub.up hM rfl)
    | with_reducible apply fromSlice_within (Sub.up hM rfl)
    | with_reducible apply dropClaim_within (Sub.up hM rfl)
    | with_reducible refine onSlice_within (Sub.up hM rfl) (fun _ _ => ?_) ?_
    | (with_reducible apply Within.snd <;> [with_reducible assumption; skip])
    | (with_reducible apply Within.fst <;> [with_reducible assumption; skip])
    | (with_reducible apply Within.fst2 <;> [with_reducible assumption; skip])
    | split

theorem takeAnswer_within {M : Nat} {s0 : State} (hM : Sub 0x3100008d3 M) (s : State) (c : Nat) (empty : Bool) (chunk i0 i1 : Nat) (hW : Within M s0 s) : Within M s0 (takeAnswer s c empty chunk i0 i1) := by
  unfold takeAnswer
  repeat' first
    | with_reducible assumption
    | (intro x
       first
         | (have hx : Within M s0 x := by
              unfold x
              repeat' first
                | with_reducible assumption
                | with_reducible apply Within.ite
                | with_reducible apply updCore_within (Sub.up hM rfl)
                | with_reducible apply bumpCore_within (Sub.up hM rfl)
                | with_reducible apply sendClaim_within (Sub.up hM rfl)
                | with_reducible apply boundarySearch_within (Sub.up hM rfl)
                | with_reducible apply updTask_within (Sub.up hM rfl)
                | with_reducible apply addReqs_within (Sub.up hM rfl)
                | (with_reducible apply Within.snd <;> [with_reducible assumption; skip])
                | (with_reducible apply Within.fst <;> [with_reducible assumption; skip])
                | (with_reducible apply Within.fst2 <;> [with_reducible assumption; skip])
                | split)
         | skip
       clear_value x)
    | lift_lets -underBinder
    | with_reducible apply Within.ite
    | with_reducible apply updCore_within (Sub.up hM rfl)
    | with_reducible apply bumpCore_within (Sub.up hM rfl)
    | with_reducible apply sendClaim_within (Sub.up hM rfl)
    | with_reducible apply boundarySearch_within (Sub.up hM rfl)
    | with_reducible apply updTask_within (Sub.up hM rfl)
    | with_reducible apply addReqs_within (Sub.up hM rfl)
    | (with_reducible apply Within.snd <;> [with_reducible assumption; skip])
    | (with_reducible apply Within.fst <;> [with_reducible assumption; skip])
    | (with_reducible apply Within.fst2 <;> [with_reducible assumption; skip])
    | split

theorem execAnswer_within {M : Nat} {s0 : State} (hM : Sub 0x3100008d3 M) (f : Frame) (c : CoreId) (counter : CounterId) (attempt : BitVec 2) (empty : Bool) (chunk : BitVec 21) (i0 i1 : BitVec 32)
    (s : State) (hW : Within M s0 s) :
    ∃ u, execAnswer f c counter attempt empty chunk i0 i1 s = .next u ∧ Within M s0 u := by
  unfold execAnswer
  refine ⟨_, rfl, ?_⟩
  repeat' first
    | with_reducible assumption
    | with_reducible apply Within.ite
    | with_reducible refine onChain_within (Sub.up hM rfl) (fun _ _ => ?_) ?_
    | with_reducible apply takeAnswer_within (Sub.up hM rfl)
    | (with_reducible apply Within.snd <;> [with_reducible assumption; skip])
    | (with_reducible apply Within.fst <;> [with_reducible assumption; skip])
    | (with_reducible apply Within.fst2 <;> [with_reducible assumption; skip])
    | split

theorem execLocalClaim_within {M : Nat} {s0 : State} (hM : Sub 0x3100008d3 M) (c : CoreId) (s : State) (hW : Within M s0 s) :
    ∃ u, execLocalClaim c s = .next u ∧ Within M s0 u := by
  unfold execLocalClaim
  refine ⟨_, rfl, ?_⟩
  repeat' first
    | with_reducible assumption
    | (intro x
       first
         | (have hx : Within M s0 x := by
              unfold x
              repeat' first
                | with_reducible assumption
                | dsimp -zeta only
                | with_reducible apply Within.ite1
                | with_reducible apply Within.ite2
                | with_reducible apply Within.ite
                | with_reducible apply updTask_within (Sub.up hM rfl)
                | with_reducible apply takeAnswer_within (Sub.up hM rfl)
                | (with_reducible apply Within.snd <;> [with_reducible assumption; skip])
                | (with_reducible apply Within.fst <;> [with_reducible assumption; skip])
                | (with_reducible apply Within.fst2 <;> [with_reducible assumption; skip])
                | split)
         | (have hx : Within M s0 x.1 := by
              unfold x
              repeat' first
                | with_reducible assumption
                | dsimp -zeta only
                | with_reducible apply Within.ite1
                | with_reducible apply Within.ite2
                | with_reducible apply Within.ite
                | with_reducible apply updTask_within (Sub.up hM rfl)
                | with_reducible apply takeAnswer_within (Sub.up hM rfl)
                | (with_reducible apply Within.snd <;> [with_reducible assumption; skip])
                | (with_reducible apply Within.fst <;> [with_reducible assumption; skip])
                | (with_reducible apply Within.fst2 <;> [with_reducible assumption; skip])
                | split)
         | (have hx : Within M s0 x.2 := by
              unfold x
              repeat' first
                | with_reducible assumption
                | dsimp -zeta only
                | with_reducible apply Within.ite1
                | with_reducible apply Within.ite2
                | with_reducible apply Within.ite
                | with_reducible apply updTask_within (Sub.up hM rfl)
                | with_reducible apply takeAnswer_within (Sub.up hM rfl)
                | (with_reducible apply Within.snd <;> [with_reducible assumption; skip])
                | (with_reducible apply Within.fst <;> [with_reducible assumption; skip])
                | (with_reducible apply Within.fst2 <;> [with_reducible assumption; skip])
                | split)
         | skip
       clear_value x)
    | lift_lets -underBinder
    | dsimp -zeta only
    | with_reducible apply Within.ite1
    | with_reducible apply Within.ite2
    | with_reducible apply Within.ite
    | with_reducible apply updTask_within (Sub.up hM rfl)
    | with_reducible apply takeAnswer_within (Sub.up hM rfl)
    | (with_reducible apply Within.snd <;> [with_reducible assumption; skip])
    | (with_reducible apply Within.fst <;> [with_reducible assumption; skip])
    | (with_reducible apply Within.fst2 <;> [with_reducible assumption; skip])
    | split

theorem execOwner_within {M : Nat} {s0 : State} (hM : Sub 0x100000001 M) (f : Frame) (c : CounterId) (chunk : BitVec 21) (s : State) (hW : Within M s0 s) :
    ∃ u, execOwner f c chunk s = .next u ∧ Within M s0 u := by
  unfold execOwner
  refine ⟨_, rfl, ?_⟩
  repeat' first
    | with_reducible assumption
    | with_reducible refine onSlice_within (Sub.up hM rfl) (fun _ _ => ?_) ?_
    | with_reducible apply fromSlice_within (Sub.up hM rfl)
    | (with_reducible apply Within.snd <;> [with_reducible assumption; skip])
    | (with_reducible apply Within.fst <;> [with_reducible assumption; skip])
    | (with_reducible apply Within.fst2 <;> [with_reducible assumption; skip])
    | split

theorem execOwnerAns_within {M : Nat} {s0 : State} (hM : Sub 0x100000011 M) (f : Frame) (c : CoreId) (counter : CounterId) (chunk : BitVec 21) (home : CoreId) (s : State) (hW : Within M s0 s) :
    ∃ u, execOwnerAns f c counter chunk home s = .next u ∧ Within M s0 u := by
  unfold execOwnerAns
  refine ⟨_, rfl, ?_⟩
  repeat' first
    | with_reducible assumption
    | with_reducible apply Within.ite
    | with_reducible apply updCore_within (Sub.up hM rfl)
    | with_reducible refine onChain_within (Sub.up hM rfl) (fun _ _ => ?_) ?_
    | (with_reducible apply Within.snd <;> [with_reducible assumption; skip])
    | (with_reducible apply Within.fst <;> [with_reducible assumption; skip])
    | (with_reducible apply Within.fst2 <;> [with_reducible assumption; skip])
    | split

theorem sendBases_within {M : Nat} {s0 : State} (hM : Sub 0x100000020 M) (c n : Nat) (s : State) (h : Within M s0 s) :
    Within M s0 (sendBases c n s) := by
  induction n generalizing s with
  | zero => exact h
  | succ n ih =>
    unfold sendBases
    dsimp only
    split
    · exact h
    · split
      · exact h
      · exact ih _ (fromSlice_within (Sub.up hM rfl) _ _ _ _ (updCounter_within (Sub.up hM rfl) s c _ h))

theorem execReport_within {M : Nat} {s0 : State} (hM : Sub 0x1000000a1 M) (f : Frame) (c : CounterId) (attempt : BitVec 2) (chunk : BitVec 21) (count : BitVec 26) (final : Bool) (s : State) (hW : Within M s0 s) :
    ∃ u, execReport f c attempt chunk count final s = .next u ∧ Within M s0 u := by
  unfold execReport
  refine ⟨_, rfl, ?_⟩
  repeat' first
    | with_reducible assumption
    | (intro x
       first
         | (have hx : Within M s0 x := by
              unfold x
              repeat' first
                | with_reducible assumption
                | dsimp -zeta only
                | with_reducible apply Within.ite1
                | with_reducible apply Within.ite2
                | with_reducible apply Within.ite
                | with_reducible apply updCounter_within (Sub.up hM rfl)
                | with_reducible apply dropClaim_within (Sub.up hM rfl)
                | with_reducible apply sendBases_within (Sub.up hM rfl)
                | with_reducible refine onSlice_within (Sub.up hM rfl) (fun _ _ => ?_) ?_
                | (with_reducible apply Within.snd <;> [with_reducible assumption; skip])
                | (with_reducible apply Within.fst <;> [with_reducible assumption; skip])
                | (with_reducible apply Within.fst2 <;> [with_reducible assumption; skip])
                | split)
         | (have hx : Within M s0 x.1 := by
              unfold x
              repeat' first
                | with_reducible assumption
                | dsimp -zeta only
                | with_reducible apply Within.ite1
                | with_reducible apply Within.ite2
                | with_reducible apply Within.ite
                | with_reducible apply updCounter_within (Sub.up hM rfl)
                | with_reducible apply dropClaim_within (Sub.up hM rfl)
                | with_reducible apply sendBases_within (Sub.up hM rfl)
                | with_reducible refine onSlice_within (Sub.up hM rfl) (fun _ _ => ?_) ?_
                | (with_reducible apply Within.snd <;> [with_reducible assumption; skip])
                | (with_reducible apply Within.fst <;> [with_reducible assumption; skip])
                | (with_reducible apply Within.fst2 <;> [with_reducible assumption; skip])
                | split)
         | (have hx : Within M s0 x.2 := by
              unfold x
              repeat' first
                | with_reducible assumption
                | dsimp -zeta only
                | with_reducible apply Within.ite1
                | with_reducible apply Within.ite2
                | with_reducible apply Within.ite
                | with_reducible apply updCounter_within (Sub.up hM rfl)
                | with_reducible apply dropClaim_within (Sub.up hM rfl)
                | with_reducible apply sendBases_within (Sub.up hM rfl)
                | with_reducible refine onSlice_within (Sub.up hM rfl) (fun _ _ => ?_) ?_
                | (with_reducible apply Within.snd <;> [with_reducible assumption; skip])
                | (with_reducible apply Within.fst <;> [with_reducible assumption; skip])
                | (with_reducible apply Within.fst2 <;> [with_reducible assumption; skip])
                | split)
         | skip
       clear_value x)
    | lift_lets -underBinder
    | dsimp -zeta only
    | with_reducible apply Within.ite1
    | with_reducible apply Within.ite2
    | with_reducible apply Within.ite
    | with_reducible apply updCounter_within (Sub.up hM rfl)
    | with_reducible apply dropClaim_within (Sub.up hM rfl)
    | with_reducible apply sendBases_within (Sub.up hM rfl)
    | with_reducible refine onSlice_within (Sub.up hM rfl) (fun _ _ => ?_) ?_
    | (with_reducible apply Within.snd <;> [with_reducible assumption; skip])
    | (with_reducible apply Within.fst <;> [with_reducible assumption; skip])
    | (with_reducible apply Within.fst2 <;> [with_reducible assumption; skip])
    | split

theorem execBase_within {M : Nat} {s0 : State} (hM : Sub 0x710000fdb M) (f : Frame) (c : CoreId) (counter : CounterId) (value : BitVec 48) (s : State) (hW : Within M s0 s) :
    ∃ u, execBase f c counter value s = .next u ∧ Within M s0 u := by
  unfold execBase
  refine ⟨_, rfl, ?_⟩
  repeat' first
    | with_reducible assumption
    | with_reducible apply Within.ite
    | with_reducible apply updCore_within (Sub.up hM rfl)
    | with_reducible refine onChain_within (Sub.up hM rfl) (fun _ _ => ?_) ?_
    | with_reducible apply mergeEmit_within (Sub.up hM rfl)
    | (with_reducible apply Within.snd <;> [with_reducible assumption; skip])
    | (with_reducible apply Within.fst <;> [with_reducible assumption; skip])
    | (with_reducible apply Within.fst2 <;> [with_reducible assumption; skip])
    | split

theorem execRearm_within {M : Nat} {s0 : State} (hM : Sub 0x100000021 M) (f : Frame) (c : CounterId) (attempt : BitVec 2) (s : State) (hW : Within M s0 s) :
    ∃ u, execRearm f c attempt s = .next u ∧ Within M s0 u := by
  unfold execRearm
  refine ⟨_, rfl, ?_⟩
  repeat' first
    | with_reducible assumption
    | with_reducible apply Within.ite
    | with_reducible apply updCounter_within (Sub.up hM rfl)
    | with_reducible refine onSlice_within (Sub.up hM rfl) (fun _ _ => ?_) ?_

theorem execDisarm_within {M : Nat} {s0 : State} (hM : Sub 0x100000021 M) (f : Frame) (c : CounterId) (s : State) (hW : Within M s0 s) :
    ∃ u, execDisarm f c s = .next u ∧ Within M s0 u := by
  unfold execDisarm
  refine ⟨_, rfl, ?_⟩
  repeat' first
    | with_reducible assumption
    | with_reducible apply updCounter_within (Sub.up hM rfl)
    | with_reducible refine onSlice_within (Sub.up hM rfl) (fun _ _ => ?_) ?_

end Sys2Proof.Machine
end

