-- ==== Sys2Proof/Laws/WithinCopyOps.lean ====
section
/-! SUPPORT. What the operations and commands of Machine/CopyOps can do to the state (Laws/Within). -/

namespace Sys2Proof.Machine

theorem copyFault_within {M : Nat} {s0 : State} (hM : Sub 0x3100008d3 M) (s : State) (c : Nat) (t : CoreTask) (e v : Nat) (hW : Within M s0 s) : Within M s0 (copyFault s c t e v) := by
  unfold copyFault
  repeat' first
    | with_reducible assumption
    | (intro x
       first
         | (have hx : Within M s0 x := by
              unfold x
              repeat' first
                | with_reducible assumption
                | dsimp -zeta only
                | with_reducible apply Within.ite1
                | with_reducible apply Within.ite2
                | with_reducible apply Within.ite
                | with_reducible apply faultCore_within (Sub.up hM rfl)
                | with_reducible apply recordNackAt_within (Sub.up hM rfl)
                | (with_reducible apply Within.snd <;> [with_reducible assumption; skip])
                | (with_reducible apply Within.fst <;> [with_reducible assumption; skip])
                | (with_reducible apply Within.fst2 <;> [with_reducible assumption; skip])
                | split)
         | (have hx : Within M s0 x.1 := by
              unfold x
              repeat' first
                | with_reducible assumption
                | dsimp -zeta only
                | with_reducible apply Within.ite1
                | with_reducible apply Within.ite2
                | with_reducible apply Within.ite
                | with_reducible apply faultCore_within (Sub.up hM rfl)
                | with_reducible apply recordNackAt_within (Sub.up hM rfl)
                | (with_reducible apply Within.snd <;> [with_reducible assumption; skip])
                | (with_reducible apply Within.fst <;> [with_reducible assumption; skip])
                | (with_reducible apply Within.fst2 <;> [with_reducible assumption; skip])
                | split)
         | (have hx : Within M s0 x.2 := by
              unfold x
              repeat' first
                | with_reducible assumption
                | dsimp -zeta only
                | with_reducible apply Within.ite1
                | with_reducible apply Within.ite2
                | with_reducible apply Within.ite
                | with_reducible apply faultCore_within (Sub.up hM rfl)
                | with_reducible apply recordNackAt_within (Sub.up hM rfl)
                | (with_reducible apply Within.snd <;> [with_reducible assumption; skip])
                | (with_reducible apply Within.fst <;> [with_reducible assumption; skip])
                | (with_reducible apply Within.fst2 <;> [with_reducible assumption; skip])
                | split)
         | skip
       clear_value x)
    | lift_lets -underBinder
    | dsimp -zeta only
    | with_reducible apply Within.ite1
    | with_reducible apply Within.ite2
    | with_reducible apply Within.ite
    | with_reducible apply faultCore_within (Sub.up hM rfl)
    | with_reducible apply recordNackAt_within (Sub.up hM rfl)
    | (with_reducible apply Within.snd <;> [with_reducible assumption; skip])
    | (with_reducible apply Within.fst <;> [with_reducible assumption; skip])
    | (with_reducible apply Within.fst2 <;> [with_reducible assumption; skip])
    | split

theorem settleRows_within {M : Nat} {s0 : State} (hM : Sub 0x310000093 M) (s : State) (l : List (Nat × Nat × Nat)) (hW : Within M s0 s) : Within M s0 (settleRows s l) := by
  unfold settleRows
  repeat' first
    | with_reducible assumption
    | (intro x
       first
         | (have hx : Within M s0 x := by
              unfold x
              repeat' first
                | with_reducible assumption
                | with_reducible apply Within.ite
                | with_reducible apply flushRow_within (Sub.up hM rfl)
                | with_reducible refine each_within (fun _ _ _ => ?_) ?_
                | (with_reducible apply Within.snd <;> [with_reducible assumption; skip])
                | (with_reducible apply Within.fst <;> [with_reducible assumption; skip])
                | (with_reducible apply Within.fst2 <;> [with_reducible assumption; skip])
                | split)
         | skip
       clear_value x)
    | lift_lets -underBinder
    | with_reducible apply Within.ite
    | with_reducible apply flushRow_within (Sub.up hM rfl)
    | with_reducible refine each_within (fun _ _ _ => ?_) ?_
    | (with_reducible apply Within.snd <;> [with_reducible assumption; skip])
    | (with_reducible apply Within.fst <;> [with_reducible assumption; skip])
    | (with_reducible apply Within.fst2 <;> [with_reducible assumption; skip])
    | split

theorem renewRow_within {M : Nat} {s0 : State} (hM : Sub 0x310000091 M) (s : State) (c m row : Nat) (hW : Within M s0 s) : Within M s0 (renewRow s c m row) := by
  unfold renewRow
  repeat' first
    | with_reducible assumption
    | (intro x
       first
         | (have hx : Within M s0 x := by
              unfold x
              repeat' first
                | with_reducible assumption
                | with_reducible apply Within.ite
                | with_reducible apply loseHomes_within (Sub.up hM rfl)
                | with_reducible apply updCore_within (Sub.up hM rfl)
                | (with_reducible apply Within.snd <;> [with_reducible assumption; skip])
                | (with_reducible apply Within.fst <;> [with_reducible assumption; skip])
                | (with_reducible apply Within.fst2 <;> [with_reducible assumption; skip])
                | split)
         | skip
       clear_value x)
    | lift_lets -underBinder
    | with_reducible apply Within.ite
    | with_reducible apply loseHomes_within (Sub.up hM rfl)
    | with_reducible apply updCore_within (Sub.up hM rfl)
    | (with_reducible apply Within.snd <;> [with_reducible assumption; skip])
    | (with_reducible apply Within.fst <;> [with_reducible assumption; skip])
    | (with_reducible apply Within.fst2 <;> [with_reducible assumption; skip])
    | split

theorem overlay_within {M : Nat} {s0 : State} (hM : Sub 0x2 M) (s : State) (l : List (Nat × Nat × Nat)) (hW : Within M s0 s) : Within M s0 (overlay s l) := by
  unfold overlay
  repeat' first
    | with_reducible assumption
    | (intro x
       first
         | (have hx : Within M s0 x := by
              unfold x
              repeat' first
                | with_reducible assumption
                | dsimp -zeta only
                | with_reducible apply Within.ite1
                | with_reducible apply Within.ite2
                | with_reducible apply Within.ite
                | with_reducible apply gbStore_within (Sub.up hM rfl)
                | with_reducible refine each_within (fun _ _ _ => ?_) ?_
                | (with_reducible apply Within.snd <;> [with_reducible assumption; skip])
                | (with_reducible apply Within.fst <;> [with_reducible assumption; skip])
                | (with_reducible apply Within.fst2 <;> [with_reducible assumption; skip])
                | split)
         | (have hx : Within M s0 x.1 := by
              unfold x
              repeat' first
                | with_reducible assumption
                | dsimp -zeta only
                | with_reducible apply Within.ite1
                | with_reducible apply Within.ite2
                | with_reducible apply Within.ite
                | with_reducible apply gbStore_within (Sub.up hM rfl)
                | with_reducible refine each_within (fun _ _ _ => ?_) ?_
                | (with_reducible apply Within.snd <;> [with_reducible assumption; skip])
                | (with_reducible apply Within.fst <;> [with_reducible assumption; skip])
                | (with_reducible apply Within.fst2 <;> [with_reducible assumption; skip])
                | split)
         | (have hx : Within M s0 x.2 := by
              unfold x
              repeat' first
                | with_reducible assumption
                | dsimp -zeta only
                | with_reducible apply Within.ite1
                | with_reducible apply Within.ite2
                | with_reducible apply Within.ite
                | with_reducible apply gbStore_within (Sub.up hM rfl)
                | with_reducible refine each_within (fun _ _ _ => ?_) ?_
                | (with_reducible apply Within.snd <;> [with_reducible assumption; skip])
                | (with_reducible apply Within.fst <;> [with_reducible assumption; skip])
                | (with_reducible apply Within.fst2 <;> [with_reducible assumption; skip])
                | split)
         | skip
       clear_value x)
    | lift_lets -underBinder
    | dsimp -zeta only
    | with_reducible apply Within.ite1
    | with_reducible apply Within.ite2
    | with_reducible apply Within.ite
    | with_reducible apply gbStore_within (Sub.up hM rfl)
    | with_reducible refine each_within (fun _ _ _ => ?_) ?_
    | (with_reducible apply Within.snd <;> [with_reducible assumption; skip])
    | (with_reducible apply Within.fst <;> [with_reducible assumption; skip])
    | (with_reducible apply Within.fst2 <;> [with_reducible assumption; skip])
    | split

theorem landWindow_within {M : Nat} {s0 : State} (hM : Sub 0x710000fdb M) (u : State) (c w base : Nat) (cells : List (Nat × Byte)) (s : State) (hW : Within M s0 s) : Within M s0 (landWindow u c w base cells s).1 := by
  unfold landWindow
  repeat' first
    | with_reducible assumption
    | (intro x
       first
         | (have hx : Within M s0 x := by
              unfold x
              repeat' first
                | with_reducible assumption
                | dsimp -zeta only
                | with_reducible apply Within.ite1
                | with_reducible apply Within.ite2
                | with_reducible apply Within.ite
                | with_reducible apply wrBytes_within (Sub.up hM rfl)
                | with_reducible apply gatherCells_within (Sub.up hM rfl)
                | with_reducible apply detect_within (Sub.up hM rfl)
                | with_reducible apply recordNackAt_within (Sub.up hM rfl)
                | with_reducible apply countWindow_within (Sub.up hM rfl)
                | with_reducible apply ingressRow_within (Sub.up hM rfl)
                | with_reducible apply renewRow_within (Sub.up hM rfl)
                | with_reducible refine each_within (fun _ _ _ => ?_) ?_
                | (with_reducible apply Within.snd <;> [with_reducible assumption; skip])
                | (with_reducible apply Within.fst <;> [with_reducible assumption; skip])
                | (with_reducible apply Within.fst2 <;> [with_reducible assumption; skip])
                | split)
         | (have hx : Within M s0 x.1 := by
              unfold x
              repeat' first
                | with_reducible assumption
                | dsimp -zeta only
                | with_reducible apply Within.ite1
                | with_reducible apply Within.ite2
                | with_reducible apply Within.ite
                | with_reducible apply wrBytes_within (Sub.up hM rfl)
                | with_reducible apply gatherCells_within (Sub.up hM rfl)
                | with_reducible apply detect_within (Sub.up hM rfl)
                | with_reducible apply recordNackAt_within (Sub.up hM rfl)
                | with_reducible apply countWindow_within (Sub.up hM rfl)
                | with_reducible apply ingressRow_within (Sub.up hM rfl)
                | with_reducible apply renewRow_within (Sub.up hM rfl)
                | with_reducible refine each_within (fun _ _ _ => ?_) ?_
                | (with_reducible apply Within.snd <;> [with_reducible assumption; skip])
                | (with_reducible apply Within.fst <;> [with_reducible assumption; skip])
                | (with_reducible apply Within.fst2 <;> [with_reducible assumption; skip])
                | split)
         | (have hx : Within M s0 x.2 := by
              unfold x
              repeat' first
                | with_reducible assumption
                | dsimp -zeta only
                | with_reducible apply Within.ite1
                | with_reducible apply Within.ite2
                | with_reducible apply Within.ite
                | with_reducible apply wrBytes_within (Sub.up hM rfl)
                | with_reducible apply gatherCells_within (Sub.up hM rfl)
                | with_reducible apply detect_within (Sub.up hM rfl)
                | with_reducible apply recordNackAt_within (Sub.up hM rfl)
                | with_reducible apply countWindow_within (Sub.up hM rfl)
                | with_reducible apply ingressRow_within (Sub.up hM rfl)
                | with_reducible apply renewRow_within (Sub.up hM rfl)
                | with_reducible refine each_within (fun _ _ _ => ?_) ?_
                | (with_reducible apply Within.snd <;> [with_reducible assumption; skip])
                | (with_reducible apply Within.fst <;> [with_reducible assumption; skip])
                | (with_reducible apply Within.fst2 <;> [with_reducible assumption; skip])
                | split)
         | skip
       clear_value x)
    | lift_lets -underBinder
    | dsimp -zeta only
    | with_reducible apply Within.ite1
    | with_reducible apply Within.ite2
    | with_reducible apply Within.ite
    | with_reducible apply wrBytes_within (Sub.up hM rfl)
    | with_reducible apply gatherCells_within (Sub.up hM rfl)
    | with_reducible apply detect_within (Sub.up hM rfl)
    | with_reducible apply recordNackAt_within (Sub.up hM rfl)
    | with_reducible apply countWindow_within (Sub.up hM rfl)
    | with_reducible apply ingressRow_within (Sub.up hM rfl)
    | with_reducible apply renewRow_within (Sub.up hM rfl)
    | with_reducible refine each_within (fun _ _ _ => ?_) ?_
    | (with_reducible apply Within.snd <;> [with_reducible assumption; skip])
    | (with_reducible apply Within.fst <;> [with_reducible assumption; skip])
    | (with_reducible apply Within.fst2 <;> [with_reducible assumption; skip])
    | split

theorem landSide_within {M : Nat} {s0 : State} (hM : Sub 0x710000fdb M) (u : State) (c : Nat) (t : CoreTask) (base : Nat) (offs : List Nat) (s : State) (hW : Within M s0 s) : Within M s0 (landSide u c t base offs s).1 := by
  unfold landSide
  repeat' first
    | with_reducible assumption
    | (intro x
       first
         | (have hx : Within M s0 x := by
              unfold x
              repeat' first
                | with_reducible assumption
                | dsimp -zeta only
                | with_reducible apply Within.ite1
                | with_reducible apply Within.ite2
                | with_reducible apply Within.ite
                | with_reducible apply gatherCells_within (Sub.up hM rfl)
                | with_reducible apply noteRow_within (Sub.up hM rfl)
                | with_reducible apply putAt_within (Sub.up hM rfl)
                | with_reducible apply putPiece_within (Sub.up hM rfl)
                | with_reducible apply recordNackAt_within (Sub.up hM rfl)
                | with_reducible apply landWindow_within (Sub.up hM rfl)
                | with_reducible refine untilFault_within (fun _ _ _ => ?_) ?_
                | (with_reducible apply Within.snd <;> [with_reducible assumption; skip])
                | (with_reducible apply Within.fst <;> [with_reducible assumption; skip])
                | (with_reducible apply Within.fst2 <;> [with_reducible assumption; skip])
                | split)
         | (have hx : Within M s0 x.1 := by
              unfold x
              repeat' first
                | with_reducible assumption
                | dsimp -zeta only
                | with_reducible apply Within.ite1
                | with_reducible apply Within.ite2
                | with_reducible apply Within.ite
                | with_reducible apply gatherCells_within (Sub.up hM rfl)
                | with_reducible apply noteRow_within (Sub.up hM rfl)
                | with_reducible apply putAt_within (Sub.up hM rfl)
                | with_reducible apply putPiece_within (Sub.up hM rfl)
                | with_reducible apply recordNackAt_within (Sub.up hM rfl)
                | with_reducible apply landWindow_within (Sub.up hM rfl)
                | with_reducible refine untilFault_within (fun _ _ _ => ?_) ?_
                | (with_reducible apply Within.snd <;> [with_reducible assumption; skip])
                | (with_reducible apply Within.fst <;> [with_reducible assumption; skip])
                | (with_reducible apply Within.fst2 <;> [with_reducible assumption; skip])
                | split)
         | (have hx : Within M s0 x.2 := by
              unfold x
              repeat' first
                | with_reducible assumption
                | dsimp -zeta only
                | with_reducible apply Within.ite1
                | with_reducible apply Within.ite2
                | with_reducible apply Within.ite
                | with_reducible apply gatherCells_within (Sub.up hM rfl)
                | with_reducible apply noteRow_within (Sub.up hM rfl)
                | with_reducible apply putAt_within (Sub.up hM rfl)
                | with_reducible apply putPiece_within (Sub.up hM rfl)
                | with_reducible apply recordNackAt_within (Sub.up hM rfl)
                | with_reducible apply landWindow_within (Sub.up hM rfl)
                | with_reducible refine untilFault_within (fun _ _ _ => ?_) ?_
                | (with_reducible apply Within.snd <;> [with_reducible assumption; skip])
                | (with_reducible apply Within.fst <;> [with_reducible assumption; skip])
                | (with_reducible apply Within.fst2 <;> [with_reducible assumption; skip])
                | split)
         | skip
       clear_value x)
    | lift_lets -underBinder
    | dsimp -zeta only
    | with_reducible apply Within.ite1
    | with_reducible apply Within.ite2
    | with_reducible apply Within.ite
    | with_reducible apply gatherCells_within (Sub.up hM rfl)
    | with_reducible apply noteRow_within (Sub.up hM rfl)
    | with_reducible apply putAt_within (Sub.up hM rfl)
    | with_reducible apply putPiece_within (Sub.up hM rfl)
    | with_reducible apply recordNackAt_within (Sub.up hM rfl)
    | with_reducible apply landWindow_within (Sub.up hM rfl)
    | with_reducible refine untilFault_within (fun _ _ _ => ?_) ?_
    | (with_reducible apply Within.snd <;> [with_reducible assumption; skip])
    | (with_reducible apply Within.fst <;> [with_reducible assumption; skip])
    | (with_reducible apply Within.fst2 <;> [with_reducible assumption; skip])
    | split

theorem landSides_within {M : Nat} {s0 : State} (hM : Sub 0x710000fdb M) (u : State) (c : Nat) (t : CoreTask) (l : List Nat) (s : State) (hW : Within M s0 s) : Within M s0 (landSides u c t l s).1 := by
  unfold landSides
  repeat' first
    | with_reducible assumption
    | (intro x
       first
         | (have hx : Within M s0 x := by
              unfold x
              repeat' first
                | with_reducible assumption
                | dsimp -zeta only
                | with_reducible apply Within.ite1
                | with_reducible apply Within.ite2
                | with_reducible apply Within.ite
                | with_reducible apply landSide_within (Sub.up hM rfl)
                | with_reducible refine untilFault_within (fun _ _ _ => ?_) ?_
                | (with_reducible apply Within.snd <;> [with_reducible assumption; skip])
                | (with_reducible apply Within.fst <;> [with_reducible assumption; skip])
                | (with_reducible apply Within.fst2 <;> [with_reducible assumption; skip])
                | split)
         | (have hx : Within M s0 x.1 := by
              unfold x
              repeat' first
                | with_reducible assumption
                | dsimp -zeta only
                | with_reducible apply Within.ite1
                | with_reducible apply Within.ite2
                | with_reducible apply Within.ite
                | with_reducible apply landSide_within (Sub.up hM rfl)
                | with_reducible refine untilFault_within (fun _ _ _ => ?_) ?_
                | (with_reducible apply Within.snd <;> [with_reducible assumption; skip])
                | (with_reducible apply Within.fst <;> [with_reducible assumption; skip])
                | (with_reducible apply Within.fst2 <;> [with_reducible assumption; skip])
                | split)
         | (have hx : Within M s0 x.2 := by
              unfold x
              repeat' first
                | with_reducible assumption
                | dsimp -zeta only
                | with_reducible apply Within.ite1
                | with_reducible apply Within.ite2
                | with_reducible apply Within.ite
                | with_reducible apply landSide_within (Sub.up hM rfl)
                | with_reducible refine untilFault_within (fun _ _ _ => ?_) ?_
                | (with_reducible apply Within.snd <;> [with_reducible assumption; skip])
                | (with_reducible apply Within.fst <;> [with_reducible assumption; skip])
                | (with_reducible apply Within.fst2 <;> [with_reducible assumption; skip])
                | split)
         | skip
       clear_value x)
    | lift_lets -underBinder
    | dsimp -zeta only
    | with_reducible apply Within.ite1
    | with_reducible apply Within.ite2
    | with_reducible apply Within.ite
    | with_reducible apply landSide_within (Sub.up hM rfl)
    | with_reducible refine untilFault_within (fun _ _ _ => ?_) ?_
    | (with_reducible apply Within.snd <;> [with_reducible assumption; skip])
    | (with_reducible apply Within.fst <;> [with_reducible assumption; skip])
    | (with_reducible apply Within.fst2 <;> [with_reducible assumption; skip])
    | split

theorem writeBits_within {M : Nat} {s0 : State} (hM : Sub 0x2 M) (s : State) (pl : Place) (d : List Nat) (e : Elem) (w : Nat) (hW : Within M s0 s) : Within M s0 (writeBits s pl d e w) := by
  unfold writeBits
  repeat' first
    | with_reducible assumption
    | (intro x
       first
         | (have hx : Within M s0 x := by
              unfold x
              repeat' first
                | with_reducible assumption
                | with_reducible apply Within.ite
                | with_reducible apply placeWrite_within (Sub.up hM rfl)
                | with_reducible refine each_within (fun _ _ _ => ?_) ?_)
         | skip
       clear_value x)
    | lift_lets -underBinder
    | with_reducible apply Within.ite
    | with_reducible apply placeWrite_within (Sub.up hM rfl)
    | with_reducible refine each_within (fun _ _ _ => ?_) ?_

theorem serveReads_within {M : Nat} {s0 : State} (hM : Sub 0x710000f89 M) (s : State) (c : Nat) (t : CoreTask) (l : List Nat) (hW : Within M s0 s) : Within M s0 (serveReads s c t l).1 := by
  unfold serveReads
  repeat' first
    | with_reducible assumption
    | (intro x
       first
         | (have hx : Within M s0 x := by
              unfold x
              repeat' first
                | with_reducible assumption
                | dsimp -zeta only
                | with_reducible apply Within.ite1
                | with_reducible apply Within.ite2
                | with_reducible apply Within.ite
                | with_reducible apply getLine_within (Sub.up hM rfl)
                | with_reducible refine untilFault_within (fun _ _ _ => ?_) ?_
                | (with_reducible apply Within.snd <;> [with_reducible assumption; skip])
                | (with_reducible apply Within.fst <;> [with_reducible assumption; skip])
                | (with_reducible apply Within.fst2 <;> [with_reducible assumption; skip])
                | split)
         | (have hx : Within M s0 x.1 := by
              unfold x
              repeat' first
                | with_reducible assumption
                | dsimp -zeta only
                | with_reducible apply Within.ite1
                | with_reducible apply Within.ite2
                | with_reducible apply Within.ite
                | with_reducible apply getLine_within (Sub.up hM rfl)
                | with_reducible refine untilFault_within (fun _ _ _ => ?_) ?_
                | (with_reducible apply Within.snd <;> [with_reducible assumption; skip])
                | (with_reducible apply Within.fst <;> [with_reducible assumption; skip])
                | (with_reducible apply Within.fst2 <;> [with_reducible assumption; skip])
                | split)
         | (have hx : Within M s0 x.2 := by
              unfold x
              repeat' first
                | with_reducible assumption
                | dsimp -zeta only
                | with_reducible apply Within.ite1
                | with_reducible apply Within.ite2
                | with_reducible apply Within.ite
                | with_reducible apply getLine_within (Sub.up hM rfl)
                | with_reducible refine untilFault_within (fun _ _ _ => ?_) ?_
                | (with_reducible apply Within.snd <;> [with_reducible assumption; skip])
                | (with_reducible apply Within.fst <;> [with_reducible assumption; skip])
                | (with_reducible apply Within.fst2 <;> [with_reducible assumption; skip])
                | split)
         | skip
       clear_value x)
    | lift_lets -underBinder
    | dsimp -zeta only
    | with_reducible apply Within.ite1
    | with_reducible apply Within.ite2
    | with_reducible apply Within.ite
    | with_reducible apply getLine_within (Sub.up hM rfl)
    | with_reducible refine untilFault_within (fun _ _ _ => ?_) ?_
    | (with_reducible apply Within.snd <;> [with_reducible assumption; skip])
    | (with_reducible apply Within.fst <;> [with_reducible assumption; skip])
    | (with_reducible apply Within.fst2 <;> [with_reducible assumption; skip])
    | split

theorem seen_within {M : Nat} {s0 : State} (hM : Sub 0x2 M) (s : State) (c : Nat) (t : CoreTask) (l : List Nat) (hW : Within M s0 s) :
    Within M s0 (seen s c t l) := by
  have one : ∀ (n : Nat) (u : State) (r : Nat), Within M s0 u → Within M s0 (match translate s n (r * 512) false with
    | .ok a => if isSpm a then { u with mem := mwriteN u.mem (lineOf a) (spmBytes s (lineOf a)) }
        else if isMirror a then { u with mem := mwriteN u.mem (lineOf a) (mirrorBytes s (lineOf a) 512) } else u
    | .err _ => u) := by
    intro n u r hu
    repeat' first
      | with_reducible exact hu
      | with_reducible exact Within.memWrite _ _ hu (Sub.has hM rfl)
      | split
  unfold seen
  split
  · exact hW
  all_goals exact each_within (fun _ _ h => one _ _ _ h) hW

theorem badRow_within {M : Nat} {s0 : State} (hM : Sub 0x3100008d3 M) {s u : State} {c : Nat} {t : CoreTask} {l w : List Nat}
    (e : badRow s c t l w = some u) (hW : Within M s0 s) : Within M s0 u := by
  unfold badRow at e
  obtain ⟨r, -, e⟩ := List.exists_of_findSome?_eq_some e
  split at e
  · cases e
  · split at e
    · cases e; exact detect_within (Sub.up hM rfl) _ _ _ _ hW
    · dsimp only at e
      split at e
      · cases e
      · cases e; exact faultCore_within (Sub.up hM rfl) _ _ _ _ _ _ (readSpm_within (Sub.up hM rfl) _ _ hW)

theorem lateRows_within {M : Nat} {s0 : State} (hM : Sub 0x1 M) (s : State) (c : Nat) (t : CoreTask) (write : Bool) (l : List Nat) (hW : Within M s0 s) : Within M s0 (lateRows s c t write l) := by
  unfold lateRows
  repeat' first
    | with_reducible assumption
    | (intro x
       first
         | (have hx : Within M s0 x := by
              unfold x
              repeat' first
                | with_reducible assumption
                | dsimp -zeta only
                | with_reducible apply Within.ite1
                | with_reducible apply Within.ite2
                | with_reducible apply Within.ite
                | with_reducible apply bumpCore_within (Sub.up hM rfl)
                | (with_reducible apply Within.snd <;> [with_reducible assumption; skip])
                | (with_reducible apply Within.fst <;> [with_reducible assumption; skip])
                | (with_reducible apply Within.fst2 <;> [with_reducible assumption; skip])
                | split)
         | (have hx : Within M s0 x.1 := by
              unfold x
              repeat' first
                | with_reducible assumption
                | dsimp -zeta only
                | with_reducible apply Within.ite1
                | with_reducible apply Within.ite2
                | with_reducible apply Within.ite
                | with_reducible apply bumpCore_within (Sub.up hM rfl)
                | (with_reducible apply Within.snd <;> [with_reducible assumption; skip])
                | (with_reducible apply Within.fst <;> [with_reducible assumption; skip])
                | (with_reducible apply Within.fst2 <;> [with_reducible assumption; skip])
                | split)
         | (have hx : Within M s0 x.2 := by
              unfold x
              repeat' first
                | with_reducible assumption
                | dsimp -zeta only
                | with_reducible apply Within.ite1
                | with_reducible apply Within.ite2
                | with_reducible apply Within.ite
                | with_reducible apply bumpCore_within (Sub.up hM rfl)
                | (with_reducible apply Within.snd <;> [with_reducible assumption; skip])
                | (with_reducible apply Within.fst <;> [with_reducible assumption; skip])
                | (with_reducible apply Within.fst2 <;> [with_reducible assumption; skip])
                | split)
         | skip
       clear_value x)
    | lift_lets -underBinder
    | dsimp -zeta only
    | with_reducible apply Within.ite1
    | with_reducible apply Within.ite2
    | with_reducible apply Within.ite
    | with_reducible apply bumpCore_within (Sub.up hM rfl)
    | (with_reducible apply Within.snd <;> [with_reducible assumption; skip])
    | (with_reducible apply Within.fst <;> [with_reducible assumption; skip])
    | (with_reducible apply Within.fst2 <;> [with_reducible assumption; skip])
    | split

theorem copyTags_within {M : Nat} {s0 : State} (hM : Sub 0x11 M) (s : State) (c : Nat) (t : CoreTask) (write : Bool) (l : List (List Nat)) (hW : Within M s0 s) : Within M s0 (copyTags s c t write l) := by
  unfold copyTags
  repeat' first
    | with_reducible assumption
    | (intro x
       first
         | (have hx : Within M s0 x := by
              unfold x
              repeat' first
                | with_reducible assumption
                | dsimp -zeta only
                | with_reducible apply Within.ite1
                | with_reducible apply Within.ite2
                | with_reducible apply Within.ite
                | with_reducible apply tagsWithin_within (Sub.up hM rfl)
                | with_reducible apply lateRows_within (Sub.up hM rfl)
                | with_reducible refine each_within (fun _ _ _ => ?_) ?_
                | (with_reducible apply Within.snd <;> [with_reducible assumption; skip])
                | (with_reducible apply Within.fst <;> [with_reducible assumption; skip])
                | (with_reducible apply Within.fst2 <;> [with_reducible assumption; skip])
                | split)
         | (have hx : Within M s0 x.1 := by
              unfold x
              repeat' first
                | with_reducible assumption
                | dsimp -zeta only
                | with_reducible apply Within.ite1
                | with_reducible apply Within.ite2
                | with_reducible apply Within.ite
                | with_reducible apply tagsWithin_within (Sub.up hM rfl)
                | with_reducible apply lateRows_within (Sub.up hM rfl)
                | with_reducible refine each_within (fun _ _ _ => ?_) ?_
                | (with_reducible apply Within.snd <;> [with_reducible assumption; skip])
                | (with_reducible apply Within.fst <;> [with_reducible assumption; skip])
                | (with_reducible apply Within.fst2 <;> [with_reducible assumption; skip])
                | split)
         | (have hx : Within M s0 x.2 := by
              unfold x
              repeat' first
                | with_reducible assumption
                | dsimp -zeta only
                | with_reducible apply Within.ite1
                | with_reducible apply Within.ite2
                | with_reducible apply Within.ite
                | with_reducible apply tagsWithin_within (Sub.up hM rfl)
                | with_reducible apply lateRows_within (Sub.up hM rfl)
                | with_reducible refine each_within (fun _ _ _ => ?_) ?_
                | (with_reducible apply Within.snd <;> [with_reducible assumption; skip])
                | (with_reducible apply Within.fst <;> [with_reducible assumption; skip])
                | (with_reducible apply Within.fst2 <;> [with_reducible assumption; skip])
                | split)
         | skip
       clear_value x)
    | lift_lets -underBinder
    | dsimp -zeta only
    | with_reducible apply Within.ite1
    | with_reducible apply Within.ite2
    | with_reducible apply Within.ite
    | with_reducible apply tagsWithin_within (Sub.up hM rfl)
    | with_reducible apply lateRows_within (Sub.up hM rfl)
    | with_reducible refine each_within (fun _ _ _ => ?_) ?_
    | (with_reducible apply Within.snd <;> [with_reducible assumption; skip])
    | (with_reducible apply Within.fst <;> [with_reducible assumption; skip])
    | (with_reducible apply Within.fst2 <;> [with_reducible assumption; skip])
    | split

theorem zeroSelvedge_within {M : Nat} {s0 : State} (hM : Sub 0x2 M) (s : State) (pl : Place) (d : List Nat) (l : List Elem) (hW : Within M s0 s) : Within M s0 (zeroSelvedge s pl d l) := by
  unfold zeroSelvedge
  repeat' first
    | with_reducible assumption
    | (intro x
       first
         | (have hx : Within M s0 x := by
              unfold x
              repeat' first
                | with_reducible assumption
                | dsimp -zeta only
                | with_reducible apply Within.ite1
                | with_reducible apply Within.ite2
                | with_reducible apply Within.ite
                | with_reducible apply placeWrite_within (Sub.up hM rfl)
                | with_reducible apply writeBits_within (Sub.up hM rfl)
                | with_reducible refine each_within (fun _ _ _ => ?_) ?_
                | (with_reducible apply Within.snd <;> [with_reducible assumption; skip])
                | (with_reducible apply Within.fst <;> [with_reducible assumption; skip])
                | (with_reducible apply Within.fst2 <;> [with_reducible assumption; skip])
                | split)
         | (have hx : Within M s0 x.1 := by
              unfold x
              repeat' first
                | with_reducible assumption
                | dsimp -zeta only
                | with_reducible apply Within.ite1
                | with_reducible apply Within.ite2
                | with_reducible apply Within.ite
                | with_reducible apply placeWrite_within (Sub.up hM rfl)
                | with_reducible apply writeBits_within (Sub.up hM rfl)
                | with_reducible refine each_within (fun _ _ _ => ?_) ?_
                | (with_reducible apply Within.snd <;> [with_reducible assumption; skip])
                | (with_reducible apply Within.fst <;> [with_reducible assumption; skip])
                | (with_reducible apply Within.fst2 <;> [with_reducible assumption; skip])
                | split)
         | (have hx : Within M s0 x.2 := by
              unfold x
              repeat' first
                | with_reducible assumption
                | dsimp -zeta only
                | with_reducible apply Within.ite1
                | with_reducible apply Within.ite2
                | with_reducible apply Within.ite
                | with_reducible apply placeWrite_within (Sub.up hM rfl)
                | with_reducible apply writeBits_within (Sub.up hM rfl)
                | with_reducible refine each_within (fun _ _ _ => ?_) ?_
                | (with_reducible apply Within.snd <;> [with_reducible assumption; skip])
                | (with_reducible apply Within.fst <;> [with_reducible assumption; skip])
                | (with_reducible apply Within.fst2 <;> [with_reducible assumption; skip])
                | split)
         | skip
       clear_value x)
    | lift_lets -underBinder
    | dsimp -zeta only
    | with_reducible apply Within.ite1
    | with_reducible apply Within.ite2
    | with_reducible apply Within.ite
    | with_reducible apply placeWrite_within (Sub.up hM rfl)
    | with_reducible apply writeBits_within (Sub.up hM rfl)
    | with_reducible refine each_within (fun _ _ _ => ?_) ?_
    | (with_reducible apply Within.snd <;> [with_reducible assumption; skip])
    | (with_reducible apply Within.fst <;> [with_reducible assumption; skip])
    | (with_reducible apply Within.fst2 <;> [with_reducible assumption; skip])
    | split

theorem writeConverted_within {M : Nat} {s0 : State} (hM : Sub 0x3 M) (s : State) (c : Nat) (t : CoreTask) (beside l : List (Elem × F32)) (hW : Within M s0 s) : Within M s0 (writeConverted s c t beside l) := by
  unfold writeConverted
  repeat' first
    | with_reducible assumption
    | (intro x
       first
         | (have hx : Within M s0 x := by
              unfold x
              repeat' first
                | with_reducible assumption
                | dsimp -zeta only
                | with_reducible apply Within.ite1
                | with_reducible apply Within.ite2
                | with_reducible apply Within.ite
                | with_reducible apply placeWrite_within (Sub.up hM rfl)
                | with_reducible apply countConv_within (Sub.up hM rfl)
                | with_reducible apply writeBits_within (Sub.up hM rfl)
                | with_reducible refine each_within (fun _ _ _ => ?_) ?_
                | (with_reducible apply Within.snd <;> [with_reducible assumption; skip])
                | (with_reducible apply Within.fst <;> [with_reducible assumption; skip])
                | (with_reducible apply Within.fst2 <;> [with_reducible assumption; skip])
                | split)
         | (have hx : Within M s0 x.1 := by
              unfold x
              repeat' first
                | with_reducible assumption
                | dsimp -zeta only
                | with_reducible apply Within.ite1
                | with_reducible apply Within.ite2
                | with_reducible apply Within.ite
                | with_reducible apply placeWrite_within (Sub.up hM rfl)
                | with_reducible apply countConv_within (Sub.up hM rfl)
                | with_reducible apply writeBits_within (Sub.up hM rfl)
                | with_reducible refine each_within (fun _ _ _ => ?_) ?_
                | (with_reducible apply Within.snd <;> [with_reducible assumption; skip])
                | (with_reducible apply Within.fst <;> [with_reducible assumption; skip])
                | (with_reducible apply Within.fst2 <;> [with_reducible assumption; skip])
                | split)
         | (have hx : Within M s0 x.2 := by
              unfold x
              repeat' first
                | with_reducible assumption
                | dsimp -zeta only
                | with_reducible apply Within.ite1
                | with_reducible apply Within.ite2
                | with_reducible apply Within.ite
                | with_reducible apply placeWrite_within (Sub.up hM rfl)
                | with_reducible apply countConv_within (Sub.up hM rfl)
                | with_reducible apply writeBits_within (Sub.up hM rfl)
                | with_reducible refine each_within (fun _ _ _ => ?_) ?_
                | (with_reducible apply Within.snd <;> [with_reducible assumption; skip])
                | (with_reducible apply Within.fst <;> [with_reducible assumption; skip])
                | (with_reducible apply Within.fst2 <;> [with_reducible assumption; skip])
                | split)
         | skip
       clear_value x)
    | lift_lets -underBinder
    | dsimp -zeta only
    | with_reducible apply Within.ite1
    | with_reducible apply Within.ite2
    | with_reducible apply Within.ite
    | with_reducible apply placeWrite_within (Sub.up hM rfl)
    | with_reducible apply countConv_within (Sub.up hM rfl)
    | with_reducible apply writeBits_within (Sub.up hM rfl)
    | with_reducible refine each_within (fun _ _ _ => ?_) ?_
    | (with_reducible apply Within.snd <;> [with_reducible assumption; skip])
    | (with_reducible apply Within.fst <;> [with_reducible assumption; skip])
    | (with_reducible apply Within.fst2 <;> [with_reducible assumption; skip])
    | split

theorem convertAdds_within {M : Nat} {s0 : State} (hM : Sub 0x1 M) (s : State) (c : Nat) (t : CoreTask) (l : List (Elem × F32)) (hW : Within M s0 s) : Within M s0 (convertAdds s c t l).1 := by
  unfold convertAdds
  repeat' first
    | with_reducible assumption
    | (intro x
       first
         | (have hx : Within M s0 x := by
              unfold x
              repeat' first
                | with_reducible assumption
                | dsimp -zeta only
                | with_reducible apply Within.ite1
                | with_reducible apply Within.ite2
                | with_reducible apply Within.ite
                | with_reducible apply countConv_within (Sub.up hM rfl)
                | (with_reducible apply Within.snd <;> [with_reducible assumption; skip])
                | (with_reducible apply Within.fst <;> [with_reducible assumption; skip])
                | (with_reducible apply Within.fst2 <;> [with_reducible assumption; skip])
                | split)
         | (have hx : Within M s0 x.1 := by
              unfold x
              repeat' first
                | with_reducible assumption
                | dsimp -zeta only
                | with_reducible apply Within.ite1
                | with_reducible apply Within.ite2
                | with_reducible apply Within.ite
                | with_reducible apply countConv_within (Sub.up hM rfl)
                | (with_reducible apply Within.snd <;> [with_reducible assumption; skip])
                | (with_reducible apply Within.fst <;> [with_reducible assumption; skip])
                | (with_reducible apply Within.fst2 <;> [with_reducible assumption; skip])
                | split)
         | (have hx : Within M s0 x.2 := by
              unfold x
              repeat' first
                | with_reducible assumption
                | dsimp -zeta only
                | with_reducible apply Within.ite1
                | with_reducible apply Within.ite2
                | with_reducible apply Within.ite
                | with_reducible apply countConv_within (Sub.up hM rfl)
                | (with_reducible apply Within.snd <;> [with_reducible assumption; skip])
                | (with_reducible apply Within.fst <;> [with_reducible assumption; skip])
                | (with_reducible apply Within.fst2 <;> [with_reducible assumption; skip])
                | split)
         | skip
       clear_value x)
    | lift_lets -underBinder
    | dsimp -zeta only
    | with_reducible apply Within.ite1
    | with_reducible apply Within.ite2
    | with_reducible apply Within.ite
    | with_reducible apply countConv_within (Sub.up hM rfl)
    | (with_reducible apply Within.snd <;> [with_reducible assumption; skip])
    | (with_reducible apply Within.fst <;> [with_reducible assumption; skip])
    | (with_reducible apply Within.fst2 <;> [with_reducible assumption; skip])
    | split

theorem writeAdded_within {M : Nat} {s0 : State} (hM : Sub 0x3 M) (s : State) (c : Nat) (t : CoreTask) (l : List (Elem × F32)) (hW : Within M s0 s) : Within M s0 (writeAdded s c t l) := by
  unfold writeAdded
  repeat' first
    | with_reducible assumption
    | (intro x
       first
         | (have hx : Within M s0 x := by
              unfold x
              repeat' first
                | with_reducible assumption
                | dsimp -zeta only
                | with_reducible apply Within.ite1
                | with_reducible apply Within.ite2
                | with_reducible apply Within.ite
                | with_reducible apply bumpCore_within (Sub.up hM rfl)
                | with_reducible apply writeBits_within (Sub.up hM rfl)
                | with_reducible refine each_within (fun _ _ _ => ?_) ?_
                | (with_reducible apply Within.snd <;> [with_reducible assumption; skip])
                | (with_reducible apply Within.fst <;> [with_reducible assumption; skip])
                | (with_reducible apply Within.fst2 <;> [with_reducible assumption; skip])
                | split)
         | (have hx : Within M s0 x.1 := by
              unfold x
              repeat' first
                | with_reducible assumption
                | dsimp -zeta only
                | with_reducible apply Within.ite1
                | with_reducible apply Within.ite2
                | with_reducible apply Within.ite
                | with_reducible apply bumpCore_within (Sub.up hM rfl)
                | with_reducible apply writeBits_within (Sub.up hM rfl)
                | with_reducible refine each_within (fun _ _ _ => ?_) ?_
                | (with_reducible apply Within.snd <;> [with_reducible assumption; skip])
                | (with_reducible apply Within.fst <;> [with_reducible assumption; skip])
                | (with_reducible apply Within.fst2 <;> [with_reducible assumption; skip])
                | split)
         | (have hx : Within M s0 x.2 := by
              unfold x
              repeat' first
                | with_reducible assumption
                | dsimp -zeta only
                | with_reducible apply Within.ite1
                | with_reducible apply Within.ite2
                | with_reducible apply Within.ite
                | with_reducible apply bumpCore_within (Sub.up hM rfl)
                | with_reducible apply writeBits_within (Sub.up hM rfl)
                | with_reducible refine each_within (fun _ _ _ => ?_) ?_
                | (with_reducible apply Within.snd <;> [with_reducible assumption; skip])
                | (with_reducible apply Within.fst <;> [with_reducible assumption; skip])
                | (with_reducible apply Within.fst2 <;> [with_reducible assumption; skip])
                | split)
         | skip
       clear_value x)
    | lift_lets -underBinder
    | dsimp -zeta only
    | with_reducible apply Within.ite1
    | with_reducible apply Within.ite2
    | with_reducible apply Within.ite
    | with_reducible apply bumpCore_within (Sub.up hM rfl)
    | with_reducible apply writeBits_within (Sub.up hM rfl)
    | with_reducible refine each_within (fun _ _ _ => ?_) ?_
    | (with_reducible apply Within.snd <;> [with_reducible assumption; skip])
    | (with_reducible apply Within.fst <;> [with_reducible assumption; skip])
    | (with_reducible apply Within.fst2 <;> [with_reducible assumption; skip])
    | split

theorem survives_within {M : Nat} {s0 : State} (hM : Sub 0x400000010 M) (s : State) (c key : Nat) (hW : Within M s0 s) : Within M s0 (survives s c key).1 := by
  unfold survives
  repeat' first
    | with_reducible assumption
    | (intro x
       first
         | (have hx : Within M s0 x := by
              unfold x
              repeat' first
                | with_reducible assumption
                | dsimp -zeta only
                | with_reducible apply Within.ite1
                | with_reducible apply Within.ite
                | with_reducible apply freshFree_within (Sub.up hM rfl)
                | with_reducible apply updTask_within (Sub.up hM rfl)
                | (with_reducible apply Within.snd <;> [with_reducible assumption; skip])
                | (with_reducible apply Within.fst <;> [with_reducible assumption; skip])
                | (with_reducible apply Within.fst2 <;> [with_reducible assumption; skip])
                | split)
         | (have hx : Within M s0 x.1 := by
              unfold x
              repeat' first
                | with_reducible assumption
                | dsimp -zeta only
                | with_reducible apply Within.ite1
                | with_reducible apply Within.ite
                | with_reducible apply freshFree_within (Sub.up hM rfl)
                | with_reducible apply updTask_within (Sub.up hM rfl)
                | (with_reducible apply Within.snd <;> [with_reducible assumption; skip])
                | (with_reducible apply Within.fst <;> [with_reducible assumption; skip])
                | (with_reducible apply Within.fst2 <;> [with_reducible assumption; skip])
                | split)
         | (have hx : Within M s0 x.2 := by
              unfold x
              repeat' first
                | with_reducible assumption
                | dsimp -zeta only
                | with_reducible apply Within.ite1
                | with_reducible apply Within.ite
                | with_reducible apply freshFree_within (Sub.up hM rfl)
                | with_reducible apply updTask_within (Sub.up hM rfl)
                | (with_reducible apply Within.snd <;> [with_reducible assumption; skip])
                | (with_reducible apply Within.fst <;> [with_reducible assumption; skip])
                | (with_reducible apply Within.fst2 <;> [with_reducible assumption; skip])
                | split)
         | skip
       clear_value x)
    | lift_lets -underBinder
    | dsimp -zeta only
    | with_reducible apply Within.ite1
    | with_reducible apply Within.ite
    | with_reducible apply freshFree_within (Sub.up hM rfl)
    | with_reducible apply updTask_within (Sub.up hM rfl)
    | (with_reducible apply Within.snd <;> [with_reducible assumption; skip])
    | (with_reducible apply Within.fst <;> [with_reducible assumption; skip])
    | (with_reducible apply Within.fst2 <;> [with_reducible assumption; skip])
    | split

theorem keepSurvivors_within {M : Nat} {s0 : State} (hM : Sub 0x400000010 M) (s : State) (c : Nat) (t : CoreTask) (l : List (Elem × F32 × Nat × Nat)) (hW : Within M s0 s) : Within M s0 (keepSurvivors s c t l).1 := by
  unfold keepSurvivors
  repeat' first
    | with_reducible assumption
    | (intro x
       first
         | (have hx : Within M s0 x := by
              unfold x
              repeat' first
                | with_reducible assumption
                | dsimp -zeta only
                | with_reducible apply Within.ite1
                | with_reducible apply Within.ite2
                | with_reducible apply Within.ite
                | with_reducible apply survives_within (Sub.up hM rfl)
                | with_reducible refine Within.fold (fun _ _ _ => ?_) ?_
                | with_reducible refine Within.fold1 (fun _ _ _ => ?_) ?_
                | with_reducible refine Within.fold2 (fun _ _ _ => ?_) ?_
                | (with_reducible apply Within.snd <;> [with_reducible assumption; skip])
                | (with_reducible apply Within.fst <;> [with_reducible assumption; skip])
                | (with_reducible apply Within.fst2 <;> [with_reducible assumption; skip])
                | split)
         | (have hx : Within M s0 x.1 := by
              unfold x
              repeat' first
                | with_reducible assumption
                | dsimp -zeta only
                | with_reducible apply Within.ite1
                | with_reducible apply Within.ite2
                | with_reducible apply Within.ite
                | with_reducible apply survives_within (Sub.up hM rfl)
                | with_reducible refine Within.fold (fun _ _ _ => ?_) ?_
                | with_reducible refine Within.fold1 (fun _ _ _ => ?_) ?_
                | with_reducible refine Within.fold2 (fun _ _ _ => ?_) ?_
                | (with_reducible apply Within.snd <;> [with_reducible assumption; skip])
                | (with_reducible apply Within.fst <;> [with_reducible assumption; skip])
                | (with_reducible apply Within.fst2 <;> [with_reducible assumption; skip])
                | split)
         | (have hx : Within M s0 x.2 := by
              unfold x
              repeat' first
                | with_reducible assumption
                | dsimp -zeta only
                | with_reducible apply Within.ite1
                | with_reducible apply Within.ite2
                | with_reducible apply Within.ite
                | with_reducible apply survives_within (Sub.up hM rfl)
                | with_reducible refine Within.fold (fun _ _ _ => ?_) ?_
                | with_reducible refine Within.fold1 (fun _ _ _ => ?_) ?_
                | with_reducible refine Within.fold2 (fun _ _ _ => ?_) ?_
                | (with_reducible apply Within.snd <;> [with_reducible assumption; skip])
                | (with_reducible apply Within.fst <;> [with_reducible assumption; skip])
                | (with_reducible apply Within.fst2 <;> [with_reducible assumption; skip])
                | split)
         | skip
       clear_value x)
    | lift_lets -underBinder
    | dsimp -zeta only
    | with_reducible apply Within.ite1
    | with_reducible apply Within.ite2
    | with_reducible apply Within.ite
    | with_reducible apply survives_within (Sub.up hM rfl)
    | with_reducible refine Within.fold (fun _ _ _ => ?_) ?_
    | with_reducible refine Within.fold1 (fun _ _ _ => ?_) ?_
    | with_reducible refine Within.fold2 (fun _ _ _ => ?_) ?_
    | (with_reducible apply Within.snd <;> [with_reducible assumption; skip])
    | (with_reducible apply Within.fst <;> [with_reducible assumption; skip])
    | (with_reducible apply Within.fst2 <;> [with_reducible assumption; skip])
    | split

theorem copyStep_within {M : Nat} {s0 : State} (hM : Sub 0x710000fdb M) (s : State) (c : Nat) (t : CoreTask) (from_ to_ : List Nat) (reads : List (List Nat)) (put : State → State → State) (done : State → State) (hput : ∀ u v, Within M s0 v → Within M s0 (put u v)) (hdone : ∀ v, Within M s0 v → Within M s0 (done v)) (hW : Within M s0 s) : Within M s0 (copyStep s c t from_ to_ reads put done) := by
  unfold copyStep
  have h0 := settleRows_within (Sub.up hM rfl) s (sideRows s c t false from_ ++ (sideRows s c t true to_).filter (rowAdds s c t)) hW
  dsimp only
  split
  · next e => exact badRow_within (Sub.up hM rfl) e h0
  · have h1 := serveReads_within (Sub.up hM rfl) _ c t reads.flatten h0
    split
    · exact copyFault_within (Sub.up hM rfl) _ _ _ _ _ h1
    · have h2 := copyTags_within (Sub.up hM rfl) _ c t false reads h1
      have h3 := fun u rows => Within.memOf (hput u _ (overlay_within (Sub.up hM rfl) _ rows h2)) h2 (Sub.has hM rfl)
      split
      · exact faultCore_within (Sub.up hM rfl) _ _ _ _ _ _ (landSides_within (Sub.up hM rfl) _ _ _ _ _ (h3 _ _))
      · exact hdone _ (copyTags_within (Sub.up hM rfl) _ _ _ _ _ (landSides_within (Sub.up hM rfl) _ _ _ _ _ (h3 _ _)))

theorem writeItems_within {M : Nat} {s0 : State} (hM : Sub 0x3 M) (s : State) (c : Nat) (t : CoreTask) (beside : List (Elem × F32)) (l : List (Elem × F32 × Nat × Nat)) (hW : Within M s0 s) : Within M s0 (writeItems s c t beside l) := by
  unfold writeItems
  repeat' first
    | with_reducible assumption
    | (intro x
       first
         | (have hx : Within M s0 x := by
              unfold x
              repeat' first
                | with_reducible assumption
                | dsimp -zeta only
                | with_reducible apply Within.ite1
                | with_reducible apply Within.ite2
                | with_reducible apply Within.ite
                | with_reducible apply placeWrite_within (Sub.up hM rfl)
                | with_reducible apply writeBits_within (Sub.up hM rfl)
                | with_reducible apply writeConverted_within (Sub.up hM rfl)
                | with_reducible apply convertAdds_within (Sub.up hM rfl)
                | with_reducible apply writeAdded_within (Sub.up hM rfl)
                | with_reducible refine each_within (fun _ _ _ => ?_) ?_
                | (with_reducible apply Within.snd <;> [with_reducible assumption; skip])
                | (with_reducible apply Within.fst <;> [with_reducible assumption; skip])
                | (with_reducible apply Within.fst2 <;> [with_reducible assumption; skip])
                | split)
         | (have hx : Within M s0 x.1 := by
              unfold x
              repeat' first
                | with_reducible assumption
                | dsimp -zeta only
                | with_reducible apply Within.ite1
                | with_reducible apply Within.ite2
                | with_reducible apply Within.ite
                | with_reducible apply placeWrite_within (Sub.up hM rfl)
                | with_reducible apply writeBits_within (Sub.up hM rfl)
                | with_reducible apply writeConverted_within (Sub.up hM rfl)
                | with_reducible apply convertAdds_within (Sub.up hM rfl)
                | with_reducible apply writeAdded_within (Sub.up hM rfl)
                | with_reducible refine each_within (fun _ _ _ => ?_) ?_
                | (with_reducible apply Within.snd <;> [with_reducible assumption; skip])
                | (with_reducible apply Within.fst <;> [with_reducible assumption; skip])
                | (with_reducible apply Within.fst2 <;> [with_reducible assumption; skip])
                | split)
         | (have hx : Within M s0 x.2 := by
              unfold x
              repeat' first
                | with_reducible assumption
                | dsimp -zeta only
                | with_reducible apply Within.ite1
                | with_reducible apply Within.ite2
                | with_reducible apply Within.ite
                | with_reducible apply placeWrite_within (Sub.up hM rfl)
                | with_reducible apply writeBits_within (Sub.up hM rfl)
                | with_reducible apply writeConverted_within (Sub.up hM rfl)
                | with_reducible apply convertAdds_within (Sub.up hM rfl)
                | with_reducible apply writeAdded_within (Sub.up hM rfl)
                | with_reducible refine each_within (fun _ _ _ => ?_) ?_
                | (with_reducible apply Within.snd <;> [with_reducible assumption; skip])
                | (with_reducible apply Within.fst <;> [with_reducible assumption; skip])
                | (with_reducible apply Within.fst2 <;> [with_reducible assumption; skip])
                | split)
         | skip
       clear_value x)
    | lift_lets -underBinder
    | dsimp -zeta only
    | with_reducible apply Within.ite1
    | with_reducible apply Within.ite2
    | with_reducible apply Within.ite
    | with_reducible apply placeWrite_within (Sub.up hM rfl)
    | with_reducible apply writeBits_within (Sub.up hM rfl)
    | with_reducible apply writeConverted_within (Sub.up hM rfl)
    | with_reducible apply convertAdds_within (Sub.up hM rfl)
    | with_reducible apply writeAdded_within (Sub.up hM rfl)
    | with_reducible refine each_within (fun _ _ _ => ?_) ?_
    | (with_reducible apply Within.snd <;> [with_reducible assumption; skip])
    | (with_reducible apply Within.fst <;> [with_reducible assumption; skip])
    | (with_reducible apply Within.fst2 <;> [with_reducible assumption; skip])
    | split

theorem copyWalk_within {M : Nat} {s0 : State} (hM : Sub 0x710000fdb M) (s : State) (c : Nat) (t : CoreTask) (count : Nat) (hW : Within M s0 s) : Within M s0 (copyWalk s c t count) := by
  unfold copyWalk
  repeat' first
    | with_reducible assumption
    | (intro x
       first
         | (have hx : Within M s0 x := by
              unfold x
              repeat' first
                | with_reducible assumption
                | dsimp -zeta only
                | with_reducible apply Within.ite1
                | with_reducible apply Within.ite2
                | with_reducible apply Within.ite
                | with_reducible apply updCore_within (Sub.up hM rfl)
                | with_reducible apply bumpCore_within (Sub.up hM rfl)
                | with_reducible apply updTask_within (Sub.up hM rfl)
                | with_reducible apply copyFault_within (Sub.up hM rfl)
                | with_reducible apply zeroSelvedge_within (Sub.up hM rfl)
                | with_reducible apply keepSurvivors_within (Sub.up hM rfl)
                | with_reducible apply writeItems_within (Sub.up hM rfl)
                | with_reducible refine copyStep_within (Sub.up hM rfl) _ _ _ _ _ _ _ _ (fun _ _ _ => ?_) (fun _ _ => ?_) ?_
                | (with_reducible apply Within.snd <;> [with_reducible assumption; skip])
                | (with_reducible apply Within.fst <;> [with_reducible assumption; skip])
                | (with_reducible apply Within.fst2 <;> [with_reducible assumption; skip])
                | split)
         | (have hx : Within M s0 x.1 := by
              unfold x
              repeat' first
                | with_reducible assumption
                | dsimp -zeta only
                | with_reducible apply Within.ite1
                | with_reducible apply Within.ite2
                | with_reducible apply Within.ite
                | with_reducible apply updCore_within (Sub.up hM rfl)
                | with_reducible apply bumpCore_within (Sub.up hM rfl)
                | with_reducible apply updTask_within (Sub.up hM rfl)
                | with_reducible apply copyFault_within (Sub.up hM rfl)
                | with_reducible apply zeroSelvedge_within (Sub.up hM rfl)
                | with_reducible apply keepSurvivors_within (Sub.up hM rfl)
                | with_reducible apply writeItems_within (Sub.up hM rfl)
                | with_reducible refine copyStep_within (Sub.up hM rfl) _ _ _ _ _ _ _ _ (fun _ _ _ => ?_) (fun _ _ => ?_) ?_
                | (with_reducible apply Within.snd <;> [with_reducible assumption; skip])
                | (with_reducible apply Within.fst <;> [with_reducible assumption; skip])
                | (with_reducible apply Within.fst2 <;> [with_reducible assumption; skip])
                | split)
         | (have hx : Within M s0 x.2 := by
              unfold x
              repeat' first
                | with_reducible assumption
                | dsimp -zeta only
                | with_reducible apply Within.ite1
                | with_reducible apply Within.ite2
                | with_reducible apply Within.ite
                | with_reducible apply updCore_within (Sub.up hM rfl)
                | with_reducible apply bumpCore_within (Sub.up hM rfl)
                | with_reducible apply updTask_within (Sub.up hM rfl)
                | with_reducible apply copyFault_within (Sub.up hM rfl)
                | with_reducible apply zeroSelvedge_within (Sub.up hM rfl)
                | with_reducible apply keepSurvivors_within (Sub.up hM rfl)
                | with_reducible apply writeItems_within (Sub.up hM rfl)
                | with_reducible refine copyStep_within (Sub.up hM rfl) _ _ _ _ _ _ _ _ (fun _ _ _ => ?_) (fun _ _ => ?_) ?_
                | (with_reducible apply Within.snd <;> [with_reducible assumption; skip])
                | (with_reducible apply Within.fst <;> [with_reducible assumption; skip])
                | (with_reducible apply Within.fst2 <;> [with_reducible assumption; skip])
                | split)
         | skip
       clear_value x)
    | lift_lets -underBinder
    | dsimp -zeta only
    | with_reducible apply Within.ite1
    | with_reducible apply Within.ite2
    | with_reducible apply Within.ite
    | with_reducible apply updCore_within (Sub.up hM rfl)
    | with_reducible apply bumpCore_within (Sub.up hM rfl)
    | with_reducible apply updTask_within (Sub.up hM rfl)
    | with_reducible apply copyFault_within (Sub.up hM rfl)
    | with_reducible apply zeroSelvedge_within (Sub.up hM rfl)
    | with_reducible apply keepSurvivors_within (Sub.up hM rfl)
    | with_reducible apply writeItems_within (Sub.up hM rfl)
    | with_reducible refine copyStep_within (Sub.up hM rfl) _ _ _ _ _ _ _ _ (fun _ _ _ => ?_) (fun _ _ => ?_) ?_
    | (with_reducible apply Within.snd <;> [with_reducible assumption; skip])
    | (with_reducible apply Within.fst <;> [with_reducible assumption; skip])
    | (with_reducible apply Within.fst2 <;> [with_reducible assumption; skip])
    | split

theorem copyWhole_within {M : Nat} {s0 : State} (hM : Sub 0x710000fdb M) (s : State) (c : Nat) (t : CoreTask) (count : Nat) (hW : Within M s0 s) : Within M s0 (copyWhole s c t count) := by
  unfold copyWhole
  repeat' first
    | with_reducible assumption
    | (intro x
       first
         | (have hx : Within M s0 x := by
              unfold x
              repeat' first
                | with_reducible assumption
                | dsimp -zeta only
                | with_reducible apply Within.ite1
                | with_reducible apply Within.ite2
                | with_reducible apply Within.ite
                | with_reducible apply placeWrite_within (Sub.up hM rfl)
                | with_reducible apply updTask_within (Sub.up hM rfl)
                | with_reducible apply copyFault_within (Sub.up hM rfl)
                | with_reducible refine each_within (fun _ _ _ => ?_) ?_
                | with_reducible refine copyStep_within (Sub.up hM rfl) _ _ _ _ _ _ _ _ (fun _ _ _ => ?_) (fun _ _ => ?_) ?_
                | (with_reducible apply Within.snd <;> [with_reducible assumption; skip])
                | (with_reducible apply Within.fst <;> [with_reducible assumption; skip])
                | (with_reducible apply Within.fst2 <;> [with_reducible assumption; skip])
                | split)
         | (have hx : Within M s0 x.1 := by
              unfold x
              repeat' first
                | with_reducible assumption
                | dsimp -zeta only
                | with_reducible apply Within.ite1
                | with_reducible apply Within.ite2
                | with_reducible apply Within.ite
                | with_reducible apply placeWrite_within (Sub.up hM rfl)
                | with_reducible apply updTask_within (Sub.up hM rfl)
                | with_reducible apply copyFault_within (Sub.up hM rfl)
                | with_reducible refine each_within (fun _ _ _ => ?_) ?_
                | with_reducible refine copyStep_within (Sub.up hM rfl) _ _ _ _ _ _ _ _ (fun _ _ _ => ?_) (fun _ _ => ?_) ?_
                | (with_reducible apply Within.snd <;> [with_reducible assumption; skip])
                | (with_reducible apply Within.fst <;> [with_reducible assumption; skip])
                | (with_reducible apply Within.fst2 <;> [with_reducible assumption; skip])
                | split)
         | (have hx : Within M s0 x.2 := by
              unfold x
              repeat' first
                | with_reducible assumption
                | dsimp -zeta only
                | with_reducible apply Within.ite1
                | with_reducible apply Within.ite2
                | with_reducible apply Within.ite
                | with_reducible apply placeWrite_within (Sub.up hM rfl)
                | with_reducible apply updTask_within (Sub.up hM rfl)
                | with_reducible apply copyFault_within (Sub.up hM rfl)
                | with_reducible refine each_within (fun _ _ _ => ?_) ?_
                | with_reducible refine copyStep_within (Sub.up hM rfl) _ _ _ _ _ _ _ _ (fun _ _ _ => ?_) (fun _ _ => ?_) ?_
                | (with_reducible apply Within.snd <;> [with_reducible assumption; skip])
                | (with_reducible apply Within.fst <;> [with_reducible assumption; skip])
                | (with_reducible apply Within.fst2 <;> [with_reducible assumption; skip])
                | split)
         | skip
       clear_value x)
    | lift_lets -underBinder
    | dsimp -zeta only
    | with_reducible apply Within.ite1
    | with_reducible apply Within.ite2
    | with_reducible apply Within.ite
    | with_reducible apply placeWrite_within (Sub.up hM rfl)
    | with_reducible apply updTask_within (Sub.up hM rfl)
    | with_reducible apply copyFault_within (Sub.up hM rfl)
    | with_reducible refine each_within (fun _ _ _ => ?_) ?_
    | with_reducible refine copyStep_within (Sub.up hM rfl) _ _ _ _ _ _ _ _ (fun _ _ _ => ?_) (fun _ _ => ?_) ?_
    | (with_reducible apply Within.snd <;> [with_reducible assumption; skip])
    | (with_reducible apply Within.fst <;> [with_reducible assumption; skip])
    | (with_reducible apply Within.fst2 <;> [with_reducible assumption; skip])
    | split

theorem copyMore_within {M : Nat} {s0 : State} (hM : Sub 0x710000fdb M) (s : State) (c count : Nat) (hW : Within M s0 s) : Within M s0 (copyMore s c count) := by
  unfold copyMore
  repeat' first
    | with_reducible assumption
    | (intro x
       first
         | (have hx : Within M s0 x := by
              unfold x
              repeat' first
                | with_reducible assumption
                | dsimp -zeta only
                | with_reducible apply Within.ite1
                | with_reducible apply Within.ite2
                | with_reducible apply Within.ite
                | with_reducible apply copyEnd_within (Sub.up hM rfl)
                | with_reducible apply copyWalk_within (Sub.up hM rfl)
                | with_reducible apply copyWhole_within (Sub.up hM rfl)
                | (with_reducible apply Within.snd <;> [with_reducible assumption; skip])
                | (with_reducible apply Within.fst <;> [with_reducible assumption; skip])
                | (with_reducible apply Within.fst2 <;> [with_reducible assumption; skip])
                | split)
         | (have hx : Within M s0 x.1 := by
              unfold x
              repeat' first
                | with_reducible assumption
                | dsimp -zeta only
                | with_reducible apply Within.ite1
                | with_reducible apply Within.ite2
                | with_reducible apply Within.ite
                | with_reducible apply copyEnd_within (Sub.up hM rfl)
                | with_reducible apply copyWalk_within (Sub.up hM rfl)
                | with_reducible apply copyWhole_within (Sub.up hM rfl)
                | (with_reducible apply Within.snd <;> [with_reducible assumption; skip])
                | (with_reducible apply Within.fst <;> [with_reducible assumption; skip])
                | (with_reducible apply Within.fst2 <;> [with_reducible assumption; skip])
                | split)
         | (have hx : Within M s0 x.2 := by
              unfold x
              repeat' first
                | with_reducible assumption
                | dsimp -zeta only
                | with_reducible apply Within.ite1
                | with_reducible apply Within.ite2
                | with_reducible apply Within.ite
                | with_reducible apply copyEnd_within (Sub.up hM rfl)
                | with_reducible apply copyWalk_within (Sub.up hM rfl)
                | with_reducible apply copyWhole_within (Sub.up hM rfl)
                | (with_reducible apply Within.snd <;> [with_reducible assumption; skip])
                | (with_reducible apply Within.fst <;> [with_reducible assumption; skip])
                | (with_reducible apply Within.fst2 <;> [with_reducible assumption; skip])
                | split)
         | skip
       clear_value x)
    | lift_lets -underBinder
    | dsimp -zeta only
    | with_reducible apply Within.ite1
    | with_reducible apply Within.ite2
    | with_reducible apply Within.ite
    | with_reducible apply copyEnd_within (Sub.up hM rfl)
    | with_reducible apply copyWalk_within (Sub.up hM rfl)
    | with_reducible apply copyWhole_within (Sub.up hM rfl)
    | (with_reducible apply Within.snd <;> [with_reducible assumption; skip])
    | (with_reducible apply Within.fst <;> [with_reducible assumption; skip])
    | (with_reducible apply Within.fst2 <;> [with_reducible assumption; skip])
    | split

theorem cablePass_within {M : Nat} {s0 : State} (hM : Sub 0x11 M) (s : State) (c n : Nat) (hW : Within M s0 s) : Within M s0 (cablePass s c n) := by
  unfold cablePass
  repeat' first
    | with_reducible assumption
    | (intro x
       first
         | (have hx : Within M s0 x := by
              unfold x
              repeat' first
                | with_reducible assumption
                | dsimp -zeta only
                | with_reducible apply Within.ite1
                | with_reducible apply Within.ite2
                | with_reducible apply Within.ite
                | with_reducible apply updCore_within (Sub.up hM rfl)
                | with_reducible apply bumpCore_within (Sub.up hM rfl)
                | (with_reducible apply Within.snd <;> [with_reducible assumption; skip])
                | (with_reducible apply Within.fst <;> [with_reducible assumption; skip])
                | (with_reducible apply Within.fst2 <;> [with_reducible assumption; skip])
                | split)
         | (have hx : Within M s0 x.1 := by
              unfold x
              repeat' first
                | with_reducible assumption
                | dsimp -zeta only
                | with_reducible apply Within.ite1
                | with_reducible apply Within.ite2
                | with_reducible apply Within.ite
                | with_reducible apply updCore_within (Sub.up hM rfl)
                | with_reducible apply bumpCore_within (Sub.up hM rfl)
                | (with_reducible apply Within.snd <;> [with_reducible assumption; skip])
                | (with_reducible apply Within.fst <;> [with_reducible assumption; skip])
                | (with_reducible apply Within.fst2 <;> [with_reducible assumption; skip])
                | split)
         | (have hx : Within M s0 x.2 := by
              unfold x
              repeat' first
                | with_reducible assumption
                | dsimp -zeta only
                | with_reducible apply Within.ite1
                | with_reducible apply Within.ite2
                | with_reducible apply Within.ite
                | with_reducible apply updCore_within (Sub.up hM rfl)
                | with_reducible apply bumpCore_within (Sub.up hM rfl)
                | (with_reducible apply Within.snd <;> [with_reducible assumption; skip])
                | (with_reducible apply Within.fst <;> [with_reducible assumption; skip])
                | (with_reducible apply Within.fst2 <;> [with_reducible assumption; skip])
                | split)
         | skip
       clear_value x)
    | lift_lets -underBinder
    | dsimp -zeta only
    | with_reducible apply Within.ite1
    | with_reducible apply Within.ite2
    | with_reducible apply Within.ite
    | with_reducible apply updCore_within (Sub.up hM rfl)
    | with_reducible apply bumpCore_within (Sub.up hM rfl)
    | (with_reducible apply Within.snd <;> [with_reducible assumption; skip])
    | (with_reducible apply Within.fst <;> [with_reducible assumption; skip])
    | (with_reducible apply Within.fst2 <;> [with_reducible assumption; skip])
    | split

theorem cableIn_within {M : Nat} {s0 : State} (hM : Sub 0x10 M) (s : State) (c : Nat) (t : CoreTask) (reads : List (List Nat)) (hW : Within M s0 s) : Within M s0 (cableIn s c t reads) := by
  unfold cableIn
  repeat' first
    | with_reducible assumption
    | (intro x
       first
         | (have hx : Within M s0 x := by
              unfold x
              repeat' first
                | with_reducible assumption
                | dsimp -zeta only
                | with_reducible apply Within.ite1
                | with_reducible apply Within.ite2
                | with_reducible apply Within.ite
                | with_reducible apply updCore_within (Sub.up hM rfl)
                | (with_reducible apply Within.snd <;> [with_reducible assumption; skip])
                | (with_reducible apply Within.fst <;> [with_reducible assumption; skip])
                | (with_reducible apply Within.fst2 <;> [with_reducible assumption; skip])
                | split)
         | (have hx : Within M s0 x.1 := by
              unfold x
              repeat' first
                | with_reducible assumption
                | dsimp -zeta only
                | with_reducible apply Within.ite1
                | with_reducible apply Within.ite2
                | with_reducible apply Within.ite
                | with_reducible apply updCore_within (Sub.up hM rfl)
                | (with_reducible apply Within.snd <;> [with_reducible assumption; skip])
                | (with_reducible apply Within.fst <;> [with_reducible assumption; skip])
                | (with_reducible apply Within.fst2 <;> [with_reducible assumption; skip])
                | split)
         | (have hx : Within M s0 x.2 := by
              unfold x
              repeat' first
                | with_reducible assumption
                | dsimp -zeta only
                | with_reducible apply Within.ite1
                | with_reducible apply Within.ite2
                | with_reducible apply Within.ite
                | with_reducible apply updCore_within (Sub.up hM rfl)
                | (with_reducible apply Within.snd <;> [with_reducible assumption; skip])
                | (with_reducible apply Within.fst <;> [with_reducible assumption; skip])
                | (with_reducible apply Within.fst2 <;> [with_reducible assumption; skip])
                | split)
         | skip
       clear_value x)
    | lift_lets -underBinder
    | dsimp -zeta only
    | with_reducible apply Within.ite1
    | with_reducible apply Within.ite2
    | with_reducible apply Within.ite
    | with_reducible apply updCore_within (Sub.up hM rfl)
    | (with_reducible apply Within.snd <;> [with_reducible assumption; skip])
    | (with_reducible apply Within.fst <;> [with_reducible assumption; skip])
    | (with_reducible apply Within.fst2 <;> [with_reducible assumption; skip])
    | split

theorem writeSlice_within {M : Nat} {s0 : State} (hM : Sub 0x3 M) (s : State) (c : Nat) (t : CoreTask) (l : List (Elem × F32)) (hW : Within M s0 s) : Within M s0 (writeSlice s c t l) := by
  unfold writeSlice
  repeat' first
    | with_reducible assumption
    | (intro x
       first
         | (have hx : Within M s0 x := by
              unfold x
              repeat' first
                | with_reducible assumption
                | dsimp -zeta only
                | with_reducible apply Within.ite1
                | with_reducible apply Within.ite2
                | with_reducible apply Within.ite
                | with_reducible apply bumpCore_within (Sub.up hM rfl)
                | with_reducible apply zeroSelvedge_within (Sub.up hM rfl)
                | with_reducible apply writeItems_within (Sub.up hM rfl)
                | (with_reducible apply Within.snd <;> [with_reducible assumption; skip])
                | (with_reducible apply Within.fst <;> [with_reducible assumption; skip])
                | (with_reducible apply Within.fst2 <;> [with_reducible assumption; skip])
                | split)
         | (have hx : Within M s0 x.1 := by
              unfold x
              repeat' first
                | with_reducible assumption
                | dsimp -zeta only
                | with_reducible apply Within.ite1
                | with_reducible apply Within.ite2
                | with_reducible apply Within.ite
                | with_reducible apply bumpCore_within (Sub.up hM rfl)
                | with_reducible apply zeroSelvedge_within (Sub.up hM rfl)
                | with_reducible apply writeItems_within (Sub.up hM rfl)
                | (with_reducible apply Within.snd <;> [with_reducible assumption; skip])
                | (with_reducible apply Within.fst <;> [with_reducible assumption; skip])
                | (with_reducible apply Within.fst2 <;> [with_reducible assumption; skip])
                | split)
         | (have hx : Within M s0 x.2 := by
              unfold x
              repeat' first
                | with_reducible assumption
                | dsimp -zeta only
                | with_reducible apply Within.ite1
                | with_reducible apply Within.ite2
                | with_reducible apply Within.ite
                | with_reducible apply bumpCore_within (Sub.up hM rfl)
                | with_reducible apply zeroSelvedge_within (Sub.up hM rfl)
                | with_reducible apply writeItems_within (Sub.up hM rfl)
                | (with_reducible apply Within.snd <;> [with_reducible assumption; skip])
                | (with_reducible apply Within.fst <;> [with_reducible assumption; skip])
                | (with_reducible apply Within.fst2 <;> [with_reducible assumption; skip])
                | split)
         | skip
       clear_value x)
    | lift_lets -underBinder
    | dsimp -zeta only
    | with_reducible apply Within.ite1
    | with_reducible apply Within.ite2
    | with_reducible apply Within.ite
    | with_reducible apply bumpCore_within (Sub.up hM rfl)
    | with_reducible apply zeroSelvedge_within (Sub.up hM rfl)
    | with_reducible apply writeItems_within (Sub.up hM rfl)
    | (with_reducible apply Within.snd <;> [with_reducible assumption; skip])
    | (with_reducible apply Within.fst <;> [with_reducible assumption; skip])
    | (with_reducible apply Within.fst2 <;> [with_reducible assumption; skip])
    | split

theorem gatherOne_within {M : Nat} {s0 : State} (hM : Sub 0x710000fdb M) (s : State) (c : Nat) (t : CoreTask) (k : Nat) (r : Option Nat) (fin : State → State) (hfin : ∀ v, Within M s0 v → Within M s0 (fin v)) (hW : Within M s0 s) : Within M s0 (gatherOne s c t k r fin) := by
  unfold gatherOne
  repeat' first
    | with_reducible assumption
    | (intro x
       first
         | (have hx : Within M s0 x := by
              unfold x
              repeat' first
                | with_reducible assumption
                | dsimp -zeta only
                | with_reducible apply Within.ite1
                | with_reducible apply Within.ite2
                | with_reducible apply Within.ite
                | with_reducible apply updCore_within (Sub.up hM rfl)
                | with_reducible apply bumpCore_within (Sub.up hM rfl)
                | with_reducible apply copyFault_within (Sub.up hM rfl)
                | with_reducible apply cableIn_within (Sub.up hM rfl)
                | with_reducible apply writeSlice_within (Sub.up hM rfl)
                | with_reducible refine copyStep_within (Sub.up hM rfl) _ _ _ _ _ _ _ _ (fun _ _ _ => ?_) (fun _ _ => ?_) ?_
                | with_reducible apply hfin
                | (with_reducible apply Within.snd <;> [with_reducible assumption; skip])
                | (with_reducible apply Within.fst <;> [with_reducible assumption; skip])
                | (with_reducible apply Within.fst2 <;> [with_reducible assumption; skip])
                | split)
         | (have hx : Within M s0 x.1 := by
              unfold x
              repeat' first
                | with_reducible assumption
                | dsimp -zeta only
                | with_reducible apply Within.ite1
                | with_reducible apply Within.ite2
                | with_reducible apply Within.ite
                | with_reducible apply updCore_within (Sub.up hM rfl)
                | with_reducible apply bumpCore_within (Sub.up hM rfl)
                | with_reducible apply copyFault_within (Sub.up hM rfl)
                | with_reducible apply cableIn_within (Sub.up hM rfl)
                | with_reducible apply writeSlice_within (Sub.up hM rfl)
                | with_reducible refine copyStep_within (Sub.up hM rfl) _ _ _ _ _ _ _ _ (fun _ _ _ => ?_) (fun _ _ => ?_) ?_
                | with_reducible apply hfin
                | (with_reducible apply Within.snd <;> [with_reducible assumption; skip])
                | (with_reducible apply Within.fst <;> [with_reducible assumption; skip])
                | (with_reducible apply Within.fst2 <;> [with_reducible assumption; skip])
                | split)
         | (have hx : Within M s0 x.2 := by
              unfold x
              repeat' first
                | with_reducible assumption
                | dsimp -zeta only
                | with_reducible apply Within.ite1
                | with_reducible apply Within.ite2
                | with_reducible apply Within.ite
                | with_reducible apply updCore_within (Sub.up hM rfl)
                | with_reducible apply bumpCore_within (Sub.up hM rfl)
                | with_reducible apply copyFault_within (Sub.up hM rfl)
                | with_reducible apply cableIn_within (Sub.up hM rfl)
                | with_reducible apply writeSlice_within (Sub.up hM rfl)
                | with_reducible refine copyStep_within (Sub.up hM rfl) _ _ _ _ _ _ _ _ (fun _ _ _ => ?_) (fun _ _ => ?_) ?_
                | with_reducible apply hfin
                | (with_reducible apply Within.snd <;> [with_reducible assumption; skip])
                | (with_reducible apply Within.fst <;> [with_reducible assumption; skip])
                | (with_reducible apply Within.fst2 <;> [with_reducible assumption; skip])
                | split)
         | skip
       clear_value x)
    | lift_lets -underBinder
    | dsimp -zeta only
    | with_reducible apply Within.ite1
    | with_reducible apply Within.ite2
    | with_reducible apply Within.ite
    | with_reducible apply updCore_within (Sub.up hM rfl)
    | with_reducible apply bumpCore_within (Sub.up hM rfl)
    | with_reducible apply copyFault_within (Sub.up hM rfl)
    | with_reducible apply cableIn_within (Sub.up hM rfl)
    | with_reducible apply writeSlice_within (Sub.up hM rfl)
    | with_reducible refine copyStep_within (Sub.up hM rfl) _ _ _ _ _ _ _ _ (fun _ _ _ => ?_) (fun _ _ => ?_) ?_
    | with_reducible apply hfin
    | (with_reducible apply Within.snd <;> [with_reducible assumption; skip])
    | (with_reducible apply Within.fst <;> [with_reducible assumption; skip])
    | (with_reducible apply Within.fst2 <;> [with_reducible assumption; skip])
    | split

theorem scatterOne_within {M : Nat} {s0 : State} (hM : Sub 0x710000fdb M) (s : State) (c : Nat) (t : CoreTask) (k r : Nat) (fin : State → State) (hfin : ∀ v, Within M s0 v → Within M s0 (fin v)) (hW : Within M s0 s) : Within M s0 (scatterOne s c t k r fin) := by
  unfold scatterOne
  repeat' first
    | with_reducible assumption
    | (intro x
       first
         | (have hx : Within M s0 x := by
              unfold x
              repeat' first
                | with_reducible assumption
                | dsimp -zeta only
                | with_reducible apply Within.ite1
                | with_reducible apply Within.ite2
                | with_reducible apply Within.ite
                | with_reducible apply bumpCore_within (Sub.up hM rfl)
                | with_reducible apply copyFault_within (Sub.up hM rfl)
                | with_reducible apply survives_within (Sub.up hM rfl)
                | with_reducible apply cableIn_within (Sub.up hM rfl)
                | with_reducible apply writeSlice_within (Sub.up hM rfl)
                | with_reducible refine copyStep_within (Sub.up hM rfl) _ _ _ _ _ _ _ _ (fun _ _ _ => ?_) (fun _ _ => ?_) ?_
                | with_reducible apply hfin
                | (with_reducible apply Within.snd <;> [with_reducible assumption; skip])
                | (with_reducible apply Within.fst <;> [with_reducible assumption; skip])
                | (with_reducible apply Within.fst2 <;> [with_reducible assumption; skip])
                | split)
         | (have hx : Within M s0 x.1 := by
              unfold x
              repeat' first
                | with_reducible assumption
                | dsimp -zeta only
                | with_reducible apply Within.ite1
                | with_reducible apply Within.ite2
                | with_reducible apply Within.ite
                | with_reducible apply bumpCore_within (Sub.up hM rfl)
                | with_reducible apply copyFault_within (Sub.up hM rfl)
                | with_reducible apply survives_within (Sub.up hM rfl)
                | with_reducible apply cableIn_within (Sub.up hM rfl)
                | with_reducible apply writeSlice_within (Sub.up hM rfl)
                | with_reducible refine copyStep_within (Sub.up hM rfl) _ _ _ _ _ _ _ _ (fun _ _ _ => ?_) (fun _ _ => ?_) ?_
                | with_reducible apply hfin
                | (with_reducible apply Within.snd <;> [with_reducible assumption; skip])
                | (with_reducible apply Within.fst <;> [with_reducible assumption; skip])
                | (with_reducible apply Within.fst2 <;> [with_reducible assumption; skip])
                | split)
         | (have hx : Within M s0 x.2 := by
              unfold x
              repeat' first
                | with_reducible assumption
                | dsimp -zeta only
                | with_reducible apply Within.ite1
                | with_reducible apply Within.ite2
                | with_reducible apply Within.ite
                | with_reducible apply bumpCore_within (Sub.up hM rfl)
                | with_reducible apply copyFault_within (Sub.up hM rfl)
                | with_reducible apply survives_within (Sub.up hM rfl)
                | with_reducible apply cableIn_within (Sub.up hM rfl)
                | with_reducible apply writeSlice_within (Sub.up hM rfl)
                | with_reducible refine copyStep_within (Sub.up hM rfl) _ _ _ _ _ _ _ _ (fun _ _ _ => ?_) (fun _ _ => ?_) ?_
                | with_reducible apply hfin
                | (with_reducible apply Within.snd <;> [with_reducible assumption; skip])
                | (with_reducible apply Within.fst <;> [with_reducible assumption; skip])
                | (with_reducible apply Within.fst2 <;> [with_reducible assumption; skip])
                | split)
         | skip
       clear_value x)
    | lift_lets -underBinder
    | dsimp -zeta only
    | with_reducible apply Within.ite1
    | with_reducible apply Within.ite2
    | with_reducible apply Within.ite
    | with_reducible apply bumpCore_within (Sub.up hM rfl)
    | with_reducible apply copyFault_within (Sub.up hM rfl)
    | with_reducible apply survives_within (Sub.up hM rfl)
    | with_reducible apply cableIn_within (Sub.up hM rfl)
    | with_reducible apply writeSlice_within (Sub.up hM rfl)
    | with_reducible refine copyStep_within (Sub.up hM rfl) _ _ _ _ _ _ _ _ (fun _ _ _ => ?_) (fun _ _ => ?_) ?_
    | with_reducible apply hfin
    | (with_reducible apply Within.snd <;> [with_reducible assumption; skip])
    | (with_reducible apply Within.fst <;> [with_reducible assumption; skip])
    | (with_reducible apply Within.fst2 <;> [with_reducible assumption; skip])
    | split

theorem scatterWindow_within {M : Nat} {s0 : State} (hM : Sub 0x710000fdb M) (s : State) (c : Nat) (t : CoreTask) (l : List (Nat × Nat)) (fin : State → State) (hfin : ∀ v, Within M s0 v → Within M s0 (fin v)) (hW : Within M s0 s) : Within M s0 (scatterWindow s c t l fin) := by
  unfold scatterWindow
  repeat' first
    | with_reducible assumption
    | (intro x
       first
         | (have hx : Within M s0 x := by
              unfold x
              repeat' first
                | with_reducible assumption
                | dsimp -zeta only
                | with_reducible apply Within.ite1
                | with_reducible apply Within.ite2
                | with_reducible apply Within.ite
                | with_reducible apply bumpCore_within (Sub.up hM rfl)
                | with_reducible apply copyFault_within (Sub.up hM rfl)
                | with_reducible apply cableIn_within (Sub.up hM rfl)
                | with_reducible apply writeSlice_within (Sub.up hM rfl)
                | with_reducible refine each_within (fun _ _ _ => ?_) ?_
                | with_reducible refine badRow_within (Sub.up hM rfl) ‹badRow _ _ _ _ _ = some _› ?_
                | with_reducible refine copyStep_within (Sub.up hM rfl) _ _ _ _ _ _ _ _ (fun _ _ _ => ?_) (fun _ _ => ?_) ?_
                | with_reducible apply hfin
                | (with_reducible apply Within.snd <;> [with_reducible assumption; skip])
                | (with_reducible apply Within.fst <;> [with_reducible assumption; skip])
                | (with_reducible apply Within.fst2 <;> [with_reducible assumption; skip])
                | split)
         | (have hx : Within M s0 x.1 := by
              unfold x
              repeat' first
                | with_reducible assumption
                | dsimp -zeta only
                | with_reducible apply Within.ite1
                | with_reducible apply Within.ite2
                | with_reducible apply Within.ite
                | with_reducible apply bumpCore_within (Sub.up hM rfl)
                | with_reducible apply copyFault_within (Sub.up hM rfl)
                | with_reducible apply cableIn_within (Sub.up hM rfl)
                | with_reducible apply writeSlice_within (Sub.up hM rfl)
                | with_reducible refine each_within (fun _ _ _ => ?_) ?_
                | with_reducible refine badRow_within (Sub.up hM rfl) ‹badRow _ _ _ _ _ = some _› ?_
                | with_reducible refine copyStep_within (Sub.up hM rfl) _ _ _ _ _ _ _ _ (fun _ _ _ => ?_) (fun _ _ => ?_) ?_
                | with_reducible apply hfin
                | (with_reducible apply Within.snd <;> [with_reducible assumption; skip])
                | (with_reducible apply Within.fst <;> [with_reducible assumption; skip])
                | (with_reducible apply Within.fst2 <;> [with_reducible assumption; skip])
                | split)
         | (have hx : Within M s0 x.2 := by
              unfold x
              repeat' first
                | with_reducible assumption
                | dsimp -zeta only
                | with_reducible apply Within.ite1
                | with_reducible apply Within.ite2
                | with_reducible apply Within.ite
                | with_reducible apply bumpCore_within (Sub.up hM rfl)
                | with_reducible apply copyFault_within (Sub.up hM rfl)
                | with_reducible apply cableIn_within (Sub.up hM rfl)
                | with_reducible apply writeSlice_within (Sub.up hM rfl)
                | with_reducible refine each_within (fun _ _ _ => ?_) ?_
                | with_reducible refine badRow_within (Sub.up hM rfl) ‹badRow _ _ _ _ _ = some _› ?_
                | with_reducible refine copyStep_within (Sub.up hM rfl) _ _ _ _ _ _ _ _ (fun _ _ _ => ?_) (fun _ _ => ?_) ?_
                | with_reducible apply hfin
                | (with_reducible apply Within.snd <;> [with_reducible assumption; skip])
                | (with_reducible apply Within.fst <;> [with_reducible assumption; skip])
                | (with_reducible apply Within.fst2 <;> [with_reducible assumption; skip])
                | split)
         | skip
       clear_value x)
    | lift_lets -underBinder
    | dsimp -zeta only
    | with_reducible apply Within.ite1
    | with_reducible apply Within.ite2
    | with_reducible apply Within.ite
    | with_reducible apply bumpCore_within (Sub.up hM rfl)
    | with_reducible apply copyFault_within (Sub.up hM rfl)
    | with_reducible apply cableIn_within (Sub.up hM rfl)
    | with_reducible apply writeSlice_within (Sub.up hM rfl)
    | with_reducible refine each_within (fun _ _ _ => ?_) ?_
    | with_reducible refine badRow_within (Sub.up hM rfl) ‹badRow _ _ _ _ _ = some _› ?_
    | with_reducible refine copyStep_within (Sub.up hM rfl) _ _ _ _ _ _ _ _ (fun _ _ _ => ?_) (fun _ _ => ?_) ?_
    | with_reducible apply hfin
    | (with_reducible apply Within.snd <;> [with_reducible assumption; skip])
    | (with_reducible apply Within.fst <;> [with_reducible assumption; skip])
    | (with_reducible apply Within.fst2 <;> [with_reducible assumption; skip])
    | split

theorem nextIndex_within {M : Nat} {s0 : State} (hM : Sub 0x100000011 M) (s : State) (c slot : Nat) (r : Resolved) (closes : Bool) (hW : Within M s0 s) : Within M s0 (nextIndex s c slot r closes) := by
  unfold nextIndex
  repeat' first
    | with_reducible assumption
    | (intro x
       first
         | (have hx : Within M s0 x := by
              unfold x
              repeat' first
                | with_reducible assumption
                | dsimp -zeta only
                | with_reducible apply Within.ite1
                | with_reducible apply Within.ite2
                | with_reducible apply Within.ite
                | with_reducible apply updCore_within (Sub.up hM rfl)
                | with_reducible apply bumpCore_within (Sub.up hM rfl)
                | with_reducible apply copyEnd_within (Sub.up hM rfl)
                | with_reducible apply updTask_within (Sub.up hM rfl)
                | (with_reducible apply Within.snd <;> [with_reducible assumption; skip])
                | (with_reducible apply Within.fst <;> [with_reducible assumption; skip])
                | (with_reducible apply Within.fst2 <;> [with_reducible assumption; skip])
                | split)
         | (have hx : Within M s0 x.1 := by
              unfold x
              repeat' first
                | with_reducible assumption
                | dsimp -zeta only
                | with_reducible apply Within.ite1
                | with_reducible apply Within.ite2
                | with_reducible apply Within.ite
                | with_reducible apply updCore_within (Sub.up hM rfl)
                | with_reducible apply bumpCore_within (Sub.up hM rfl)
                | with_reducible apply copyEnd_within (Sub.up hM rfl)
                | with_reducible apply updTask_within (Sub.up hM rfl)
                | (with_reducible apply Within.snd <;> [with_reducible assumption; skip])
                | (with_reducible apply Within.fst <;> [with_reducible assumption; skip])
                | (with_reducible apply Within.fst2 <;> [with_reducible assumption; skip])
                | split)
         | (have hx : Within M s0 x.2 := by
              unfold x
              repeat' first
                | with_reducible assumption
                | dsimp -zeta only
                | with_reducible apply Within.ite1
                | with_reducible apply Within.ite2
                | with_reducible apply Within.ite
                | with_reducible apply updCore_within (Sub.up hM rfl)
                | with_reducible apply bumpCore_within (Sub.up hM rfl)
                | with_reducible apply copyEnd_within (Sub.up hM rfl)
                | with_reducible apply updTask_within (Sub.up hM rfl)
                | (with_reducible apply Within.snd <;> [with_reducible assumption; skip])
                | (with_reducible apply Within.fst <;> [with_reducible assumption; skip])
                | (with_reducible apply Within.fst2 <;> [with_reducible assumption; skip])
                | split)
         | skip
       clear_value x)
    | lift_lets -underBinder
    | dsimp -zeta only
    | with_reducible apply Within.ite1
    | with_reducible apply Within.ite2
    | with_reducible apply Within.ite
    | with_reducible apply updCore_within (Sub.up hM rfl)
    | with_reducible apply bumpCore_within (Sub.up hM rfl)
    | with_reducible apply copyEnd_within (Sub.up hM rfl)
    | with_reducible apply updTask_within (Sub.up hM rfl)
    | (with_reducible apply Within.snd <;> [with_reducible assumption; skip])
    | (with_reducible apply Within.fst <;> [with_reducible assumption; skip])
    | (with_reducible apply Within.fst2 <;> [with_reducible assumption; skip])
    | split

theorem resolveNext_within {M : Nat} {s0 : State} (hM : Sub 0x710000fdb M) (s : State) (c : Nat) (hW : Within M s0 s) : Within M s0 (resolveNext s c) := by
  unfold resolveNext
  repeat' first
    | with_reducible assumption
    | (intro x
       first
         | (have hx : Within M s0 x := by
              unfold x
              repeat' first
                | with_reducible assumption
                | dsimp -zeta only
                | with_reducible apply Within.ite1
                | with_reducible apply Within.ite2
                | with_reducible apply Within.ite
                | with_reducible apply bumpCore_within (Sub.up hM rfl)
                | with_reducible apply lceFault_within (Sub.up hM rfl)
                | with_reducible apply faultCore_within (Sub.up hM rfl)
                | with_reducible apply getRows_within (Sub.up hM rfl)
                | with_reducible apply lateRows_within (Sub.up hM rfl)
                | with_reducible apply nextIndex_within (Sub.up hM rfl)
                | with_reducible refine gatherOne_within (Sub.up hM rfl) _ _ _ _ _ _ (fun _ _ => ?_) ?_
                | with_reducible refine scatterOne_within (Sub.up hM rfl) _ _ _ _ _ _ (fun _ _ => ?_) ?_
                | with_reducible refine scatterWindow_within (Sub.up hM rfl) _ _ _ _ _ (fun _ _ => ?_) ?_
                | with_reducible apply hfa
                | with_reducible apply hfb
                | with_reducible apply hfc
                | with_reducible apply hfd
                | with_reducible apply hfe
                | with_reducible apply hff
                | with_reducible apply hfg
                | with_reducible apply hfh
                | with_reducible apply hfi
                | (with_reducible apply Within.snd <;> [with_reducible assumption; skip])
                | (with_reducible apply Within.fst <;> [with_reducible assumption; skip])
                | (with_reducible apply Within.fst2 <;> [with_reducible assumption; skip])
                | split)
         | (have hx : Within M s0 x.1 := by
              unfold x
              repeat' first
                | with_reducible assumption
                | dsimp -zeta only
                | with_reducible apply Within.ite1
                | with_reducible apply Within.ite2
                | with_reducible apply Within.ite
                | with_reducible apply bumpCore_within (Sub.up hM rfl)
                | with_reducible apply lceFault_within (Sub.up hM rfl)
                | with_reducible apply faultCore_within (Sub.up hM rfl)
                | with_reducible apply getRows_within (Sub.up hM rfl)
                | with_reducible apply lateRows_within (Sub.up hM rfl)
                | with_reducible apply nextIndex_within (Sub.up hM rfl)
                | with_reducible refine gatherOne_within (Sub.up hM rfl) _ _ _ _ _ _ (fun _ _ => ?_) ?_
                | with_reducible refine scatterOne_within (Sub.up hM rfl) _ _ _ _ _ _ (fun _ _ => ?_) ?_
                | with_reducible refine scatterWindow_within (Sub.up hM rfl) _ _ _ _ _ (fun _ _ => ?_) ?_
                | with_reducible apply hfa
                | with_reducible apply hfb
                | with_reducible apply hfc
                | with_reducible apply hfd
                | with_reducible apply hfe
                | with_reducible apply hff
                | with_reducible apply hfg
                | with_reducible apply hfh
                | with_reducible apply hfi
                | (with_reducible apply Within.snd <;> [with_reducible assumption; skip])
                | (with_reducible apply Within.fst <;> [with_reducible assumption; skip])
                | (with_reducible apply Within.fst2 <;> [with_reducible assumption; skip])
                | split)
         | (have hx : Within M s0 x.2 := by
              unfold x
              repeat' first
                | with_reducible assumption
                | dsimp -zeta only
                | with_reducible apply Within.ite1
                | with_reducible apply Within.ite2
                | with_reducible apply Within.ite
                | with_reducible apply bumpCore_within (Sub.up hM rfl)
                | with_reducible apply lceFault_within (Sub.up hM rfl)
                | with_reducible apply faultCore_within (Sub.up hM rfl)
                | with_reducible apply getRows_within (Sub.up hM rfl)
                | with_reducible apply lateRows_within (Sub.up hM rfl)
                | with_reducible apply nextIndex_within (Sub.up hM rfl)
                | with_reducible refine gatherOne_within (Sub.up hM rfl) _ _ _ _ _ _ (fun _ _ => ?_) ?_
                | with_reducible refine scatterOne_within (Sub.up hM rfl) _ _ _ _ _ _ (fun _ _ => ?_) ?_
                | with_reducible refine scatterWindow_within (Sub.up hM rfl) _ _ _ _ _ (fun _ _ => ?_) ?_
                | with_reducible apply hfa
                | with_reducible apply hfb
                | with_reducible apply hfc
                | with_reducible apply hfd
                | with_reducible apply hfe
                | with_reducible apply hff
                | with_reducible apply hfg
                | with_reducible apply hfh
                | with_reducible apply hfi
                | (with_reducible apply Within.snd <;> [with_reducible assumption; skip])
                | (with_reducible apply Within.fst <;> [with_reducible assumption; skip])
                | (with_reducible apply Within.fst2 <;> [with_reducible assumption; skip])
                | split)
         | (have hfa : ∀ t, Within M s0 t → Within M s0 (x t) := by
              intro t ht; unfold x
              repeat' first
                | with_reducible assumption
                | dsimp -zeta only
                | with_reducible apply Within.ite1
                | with_reducible apply Within.ite2
                | with_reducible apply Within.ite
                | with_reducible apply bumpCore_within (Sub.up hM rfl)
                | with_reducible apply lceFault_within (Sub.up hM rfl)
                | with_reducible apply faultCore_within (Sub.up hM rfl)
                | with_reducible apply getRows_within (Sub.up hM rfl)
                | with_reducible apply lateRows_within (Sub.up hM rfl)
                | with_reducible apply nextIndex_within (Sub.up hM rfl)
                | with_reducible refine gatherOne_within (Sub.up hM rfl) _ _ _ _ _ _ (fun _ _ => ?_) ?_
                | with_reducible refine scatterOne_within (Sub.up hM rfl) _ _ _ _ _ _ (fun _ _ => ?_) ?_
                | with_reducible refine scatterWindow_within (Sub.up hM rfl) _ _ _ _ _ (fun _ _ => ?_) ?_
                | with_reducible apply hfa
                | with_reducible apply hfb
                | with_reducible apply hfc
                | with_reducible apply hfd
                | with_reducible apply hfe
                | with_reducible apply hff
                | with_reducible apply hfg
                | with_reducible apply hfh
                | with_reducible apply hfi
                | (with_reducible apply Within.snd <;> [with_reducible assumption; skip])
                | (with_reducible apply Within.fst <;> [with_reducible assumption; skip])
                | (with_reducible apply Within.fst2 <;> [with_reducible assumption; skip])
                | split)
         | (have hfb : ∀ t a, Within M s0 t → Within M s0 (x t a) := by
              intro t a ht; unfold x
              repeat' first
                | with_reducible assumption
                | dsimp -zeta only
                | with_reducible apply Within.ite1
                | with_reducible apply Within.ite2
                | with_reducible apply Within.ite
                | with_reducible apply bumpCore_within (Sub.up hM rfl)
                | with_reducible apply lceFault_within (Sub.up hM rfl)
                | with_reducible apply faultCore_within (Sub.up hM rfl)
                | with_reducible apply getRows_within (Sub.up hM rfl)
                | with_reducible apply lateRows_within (Sub.up hM rfl)
                | with_reducible apply nextIndex_within (Sub.up hM rfl)
                | with_reducible refine gatherOne_within (Sub.up hM rfl) _ _ _ _ _ _ (fun _ _ => ?_) ?_
                | with_reducible refine scatterOne_within (Sub.up hM rfl) _ _ _ _ _ _ (fun _ _ => ?_) ?_
                | with_reducible refine scatterWindow_within (Sub.up hM rfl) _ _ _ _ _ (fun _ _ => ?_) ?_
                | with_reducible apply hfa
                | with_reducible apply hfb
                | with_reducible apply hfc
                | with_reducible apply hfd
                | with_reducible apply hfe
                | with_reducible apply hff
                | with_reducible apply hfg
                | with_reducible apply hfh
                | with_reducible apply hfi
                | (with_reducible apply Within.snd <;> [with_reducible assumption; skip])
                | (with_reducible apply Within.fst <;> [with_reducible assumption; skip])
                | (with_reducible apply Within.fst2 <;> [with_reducible assumption; skip])
                | split)
         | (have hfc : ∀ t a b, Within M s0 t → Within M s0 (x t a b) := by
              intro t a b ht; unfold x
              repeat' first
                | with_reducible assumption
                | dsimp -zeta only
                | with_reducible apply Within.ite1
                | with_reducible apply Within.ite2
                | with_reducible apply Within.ite
                | with_reducible apply bumpCore_within (Sub.up hM rfl)
                | with_reducible apply lceFault_within (Sub.up hM rfl)
                | with_reducible apply faultCore_within (Sub.up hM rfl)
                | with_reducible apply getRows_within (Sub.up hM rfl)
                | with_reducible apply lateRows_within (Sub.up hM rfl)
                | with_reducible apply nextIndex_within (Sub.up hM rfl)
                | with_reducible refine gatherOne_within (Sub.up hM rfl) _ _ _ _ _ _ (fun _ _ => ?_) ?_
                | with_reducible refine scatterOne_within (Sub.up hM rfl) _ _ _ _ _ _ (fun _ _ => ?_) ?_
                | with_reducible refine scatterWindow_within (Sub.up hM rfl) _ _ _ _ _ (fun _ _ => ?_) ?_
                | with_reducible apply hfa
                | with_reducible apply hfb
                | with_reducible apply hfc
                | with_reducible apply hfd
                | with_reducible apply hfe
                | with_reducible apply hff
                | with_reducible apply hfg
                | with_reducible apply hfh
                | with_reducible apply hfi
                | (with_reducible apply Within.snd <;> [with_reducible assumption; skip])
                | (with_reducible apply Within.fst <;> [with_reducible assumption; skip])
                | (with_reducible apply Within.fst2 <;> [with_reducible assumption; skip])
                | split)
         | (have hfd : ∀ t, Within M s0 t → Within M s0 (x t).1 := by
              intro t ht; unfold x
              repeat' first
                | with_reducible assumption
                | dsimp -zeta only
                | with_reducible apply Within.ite1
                | with_reducible apply Within.ite2
                | with_reducible apply Within.ite
                | with_reducible apply bumpCore_within (Sub.up hM rfl)
                | with_reducible apply lceFault_within (Sub.up hM rfl)
                | with_reducible apply faultCore_within (Sub.up hM rfl)
                | with_reducible apply getRows_within (Sub.up hM rfl)
                | with_reducible apply lateRows_within (Sub.up hM rfl)
                | with_reducible apply nextIndex_within (Sub.up hM rfl)
                | with_reducible refine gatherOne_within (Sub.up hM rfl) _ _ _ _ _ _ (fun _ _ => ?_) ?_
                | with_reducible refine scatterOne_within (Sub.up hM rfl) _ _ _ _ _ _ (fun _ _ => ?_) ?_
                | with_reducible refine scatterWindow_within (Sub.up hM rfl) _ _ _ _ _ (fun _ _ => ?_) ?_
                | with_reducible apply hfa
                | with_reducible apply hfb
                | with_reducible apply hfc
                | with_reducible apply hfd
                | with_reducible apply hfe
                | with_reducible apply hff
                | with_reducible apply hfg
                | with_reducible apply hfh
                | with_reducible apply hfi
                | (with_reducible apply Within.snd <;> [with_reducible assumption; skip])
                | (with_reducible apply Within.fst <;> [with_reducible assumption; skip])
                | (with_reducible apply Within.fst2 <;> [with_reducible assumption; skip])
                | split)
         | (have hfe : ∀ t a, Within M s0 t → Within M s0 (x t a).1 := by
              intro t a ht; unfold x
              repeat' first
                | with_reducible assumption
                | dsimp -zeta only
                | with_reducible apply Within.ite1
                | with_reducible apply Within.ite2
                | with_reducible apply Within.ite
                | with_reducible apply bumpCore_within (Sub.up hM rfl)
                | with_reducible apply lceFault_within (Sub.up hM rfl)
                | with_reducible apply faultCore_within (Sub.up hM rfl)
                | with_reducible apply getRows_within (Sub.up hM rfl)
                | with_reducible apply lateRows_within (Sub.up hM rfl)
                | with_reducible apply nextIndex_within (Sub.up hM rfl)
                | with_reducible refine gatherOne_within (Sub.up hM rfl) _ _ _ _ _ _ (fun _ _ => ?_) ?_
                | with_reducible refine scatterOne_within (Sub.up hM rfl) _ _ _ _ _ _ (fun _ _ => ?_) ?_
                | with_reducible refine scatterWindow_within (Sub.up hM rfl) _ _ _ _ _ (fun _ _ => ?_) ?_
                | with_reducible apply hfa
                | with_reducible apply hfb
                | with_reducible apply hfc
                | with_reducible apply hfd
                | with_reducible apply hfe
                | with_reducible apply hff
                | with_reducible apply hfg
                | with_reducible apply hfh
                | with_reducible apply hfi
                | (with_reducible apply Within.snd <;> [with_reducible assumption; skip])
                | (with_reducible apply Within.fst <;> [with_reducible assumption; skip])
                | (with_reducible apply Within.fst2 <;> [with_reducible assumption; skip])
                | split)
         | (have hff : ∀ t a b, Within M s0 t → Within M s0 (x t a b).1 := by
              intro t a b ht; unfold x
              repeat' first
                | with_reducible assumption
                | dsimp -zeta only
                | with_reducible apply Within.ite1
                | with_reducible apply Within.ite2
                | with_reducible apply Within.ite
                | with_reducible apply bumpCore_within (Sub.up hM rfl)
                | with_reducible apply lceFault_within (Sub.up hM rfl)
                | with_reducible apply faultCore_within (Sub.up hM rfl)
                | with_reducible apply getRows_within (Sub.up hM rfl)
                | with_reducible apply lateRows_within (Sub.up hM rfl)
                | with_reducible apply nextIndex_within (Sub.up hM rfl)
                | with_reducible refine gatherOne_within (Sub.up hM rfl) _ _ _ _ _ _ (fun _ _ => ?_) ?_
                | with_reducible refine scatterOne_within (Sub.up hM rfl) _ _ _ _ _ _ (fun _ _ => ?_) ?_
                | with_reducible refine scatterWindow_within (Sub.up hM rfl) _ _ _ _ _ (fun _ _ => ?_) ?_
                | with_reducible apply hfa
                | with_reducible apply hfb
                | with_reducible apply hfc
                | with_reducible apply hfd
                | with_reducible apply hfe
                | with_reducible apply hff
                | with_reducible apply hfg
                | with_reducible apply hfh
                | with_reducible apply hfi
                | (with_reducible apply Within.snd <;> [with_reducible assumption; skip])
                | (with_reducible apply Within.fst <;> [with_reducible assumption; skip])
                | (with_reducible apply Within.fst2 <;> [with_reducible assumption; skip])
                | split)
         | (have hfg : ∀ t, Within M s0 t → Within M s0 (x t).2 := by
              intro t ht; unfold x
              repeat' first
                | with_reducible assumption
                | dsimp -zeta only
                | with_reducible apply Within.ite1
                | with_reducible apply Within.ite2
                | with_reducible apply Within.ite
                | with_reducible apply bumpCore_within (Sub.up hM rfl)
                | with_reducible apply lceFault_within (Sub.up hM rfl)
                | with_reducible apply faultCore_within (Sub.up hM rfl)
                | with_reducible apply getRows_within (Sub.up hM rfl)
                | with_reducible apply lateRows_within (Sub.up hM rfl)
                | with_reducible apply nextIndex_within (Sub.up hM rfl)
                | with_reducible refine gatherOne_within (Sub.up hM rfl) _ _ _ _ _ _ (fun _ _ => ?_) ?_
                | with_reducible refine scatterOne_within (Sub.up hM rfl) _ _ _ _ _ _ (fun _ _ => ?_) ?_
                | with_reducible refine scatterWindow_within (Sub.up hM rfl) _ _ _ _ _ (fun _ _ => ?_) ?_
                | with_reducible apply hfa
                | with_reducible apply hfb
                | with_reducible apply hfc
                | with_reducible apply hfd
                | with_reducible apply hfe
                | with_reducible apply hff
                | with_reducible apply hfg
                | with_reducible apply hfh
                | with_reducible apply hfi
                | (with_reducible apply Within.snd <;> [with_reducible assumption; skip])
                | (with_reducible apply Within.fst <;> [with_reducible assumption; skip])
                | (with_reducible apply Within.fst2 <;> [with_reducible assumption; skip])
                | split)
         | (have hfh : ∀ t a, Within M s0 t → Within M s0 (x t a).2 := by
              intro t a ht; unfold x
              repeat' first
                | with_reducible assumption
                | dsimp -zeta only
                | with_reducible apply Within.ite1
                | with_reducible apply Within.ite2
                | with_reducible apply Within.ite
                | with_reducible apply bumpCore_within (Sub.up hM rfl)
                | with_reducible apply lceFault_within (Sub.up hM rfl)
                | with_reducible apply faultCore_within (Sub.up hM rfl)
                | with_reducible apply getRows_within (Sub.up hM rfl)
                | with_reducible apply lateRows_within (Sub.up hM rfl)
                | with_reducible apply nextIndex_within (Sub.up hM rfl)
                | with_reducible refine gatherOne_within (Sub.up hM rfl) _ _ _ _ _ _ (fun _ _ => ?_) ?_
                | with_reducible refine scatterOne_within (Sub.up hM rfl) _ _ _ _ _ _ (fun _ _ => ?_) ?_
                | with_reducible refine scatterWindow_within (Sub.up hM rfl) _ _ _ _ _ (fun _ _ => ?_) ?_
                | with_reducible apply hfa
                | with_reducible apply hfb
                | with_reducible apply hfc
                | with_reducible apply hfd
                | with_reducible apply hfe
                | with_reducible apply hff
                | with_reducible apply hfg
                | with_reducible apply hfh
                | with_reducible apply hfi
                | (with_reducible apply Within.snd <;> [with_reducible assumption; skip])
                | (with_reducible apply Within.fst <;> [with_reducible assumption; skip])
                | (with_reducible apply Within.fst2 <;> [with_reducible assumption; skip])
                | split)
         | (have hfi : ∀ t a b, Within M s0 t → Within M s0 (x t a b).2 := by
              intro t a b ht; unfold x
              repeat' first
                | with_reducible assumption
                | dsimp -zeta only
                | with_reducible apply Within.ite1
                | with_reducible apply Within.ite2
                | with_reducible apply Within.ite
                | with_reducible apply bumpCore_within (Sub.up hM rfl)
                | with_reducible apply lceFault_within (Sub.up hM rfl)
                | with_reducible apply faultCore_within (Sub.up hM rfl)
                | with_reducible apply getRows_within (Sub.up hM rfl)
                | with_reducible apply lateRows_within (Sub.up hM rfl)
                | with_reducible apply nextIndex_within (Sub.up hM rfl)
                | with_reducible refine gatherOne_within (Sub.up hM rfl) _ _ _ _ _ _ (fun _ _ => ?_) ?_
                | with_reducible refine scatterOne_within (Sub.up hM rfl) _ _ _ _ _ _ (fun _ _ => ?_) ?_
                | with_reducible refine scatterWindow_within (Sub.up hM rfl) _ _ _ _ _ (fun _ _ => ?_) ?_
                | with_reducible apply hfa
                | with_reducible apply hfb
                | with_reducible apply hfc
                | with_reducible apply hfd
                | with_reducible apply hfe
                | with_reducible apply hff
                | with_reducible apply hfg
                | with_reducible apply hfh
                | with_reducible apply hfi
                | (with_reducible apply Within.snd <;> [with_reducible assumption; skip])
                | (with_reducible apply Within.fst <;> [with_reducible assumption; skip])
                | (with_reducible apply Within.fst2 <;> [with_reducible assumption; skip])
                | split)
         | skip
       clear_value x)
    | lift_lets -underBinder
    | dsimp -zeta only
    | with_reducible apply Within.ite1
    | with_reducible apply Within.ite2
    | with_reducible apply Within.ite
    | with_reducible apply bumpCore_within (Sub.up hM rfl)
    | with_reducible apply lceFault_within (Sub.up hM rfl)
    | with_reducible apply faultCore_within (Sub.up hM rfl)
    | with_reducible apply getRows_within (Sub.up hM rfl)
    | with_reducible apply lateRows_within (Sub.up hM rfl)
    | with_reducible apply nextIndex_within (Sub.up hM rfl)
    | with_reducible refine gatherOne_within (Sub.up hM rfl) _ _ _ _ _ _ (fun _ _ => ?_) ?_
    | with_reducible refine scatterOne_within (Sub.up hM rfl) _ _ _ _ _ _ (fun _ _ => ?_) ?_
    | with_reducible refine scatterWindow_within (Sub.up hM rfl) _ _ _ _ _ (fun _ _ => ?_) ?_
    | with_reducible apply hfa
    | with_reducible apply hfb
    | with_reducible apply hfc
    | with_reducible apply hfd
    | with_reducible apply hfe
    | with_reducible apply hff
    | with_reducible apply hfg
    | with_reducible apply hfh
    | with_reducible apply hfi
    | (with_reducible apply Within.snd <;> [with_reducible assumption; skip])
    | (with_reducible apply Within.fst <;> [with_reducible assumption; skip])
    | (with_reducible apply Within.fst2 <;> [with_reducible assumption; skip])
    | split

end Sys2Proof.Machine
end

