-- ==== Sys2Proof/Laws/WithinStitch.lean ====
section
/-! SUPPORT. What the operations and commands of Machine/Stitch can do to the state (Laws/Within). -/

namespace Sys2Proof.Machine

theorem beginStall_within {M : Nat} {s0 : State} (hM : Sub 0x310000091 M) (s : State) (c : Nat) (p : Nat × Option Nat) (hW : Within M s0 s) : Within M s0 (beginStall s c p) := by
  unfold beginStall
  repeat' first
    | with_reducible assumption
    | (intro x
       first
         | (have hx : Within M s0 x := by
              unfold x
              repeat' first
                | with_reducible assumption
                | dsimp -zeta only
                | with_reducible apply Within.ite1
                | with_reducible apply Within.ite2
                | with_reducible apply Within.ite
                | with_reducible apply updCore_within (Sub.up hM rfl)
                | (with_reducible apply Within.snd <;> [with_reducible assumption; skip])
                | (with_reducible apply Within.fst <;> [with_reducible assumption; skip])
                | (with_reducible apply Within.fst2 <;> [with_reducible assumption; skip])
                | split)
         | (have hx : Within M s0 x.1 := by
              unfold x
              repeat' first
                | with_reducible assumption
                | dsimp -zeta only
                | with_reducible apply Within.ite1
                | with_reducible apply Within.ite2
                | with_reducible apply Within.ite
                | with_reducible apply updCore_within (Sub.up hM rfl)
                | (with_reducible apply Within.snd <;> [with_reducible assumption; skip])
                | (with_reducible apply Within.fst <;> [with_reducible assumption; skip])
                | (with_reducible apply Within.fst2 <;> [with_reducible assumption; skip])
                | split)
         | (have hx : Within M s0 x.2 := by
              unfold x
              repeat' first
                | with_reducible assumption
                | dsimp -zeta only
                | with_reducible apply Within.ite1
                | with_reducible apply Within.ite2
                | with_reducible apply Within.ite
                | with_reducible apply updCore_within (Sub.up hM rfl)
                | (with_reducible apply Within.snd <;> [with_reducible assumption; skip])
                | (with_reducible apply Within.fst <;> [with_reducible assumption; skip])
                | (with_reducible apply Within.fst2 <;> [with_reducible assumption; skip])
                | split)
         | skip
       clear_value x)
    | lift_lets -underBinder
    | dsimp -zeta only
    | with_reducible apply Within.ite1
    | with_reducible apply Within.ite2
    | with_reducible apply Within.ite
    | with_reducible apply updCore_within (Sub.up hM rfl)
    | (with_reducible apply Within.snd <;> [with_reducible assumption; skip])
    | (with_reducible apply Within.fst <;> [with_reducible assumption; skip])
    | (with_reducible apply Within.fst2 <;> [with_reducible assumption; skip])
    | split

theorem readRow_within {M : Nat} {s0 : State} (hM : Sub 0x3100008d3 M) (s : State) (c m row : Nat) (fails : Bool) (hW : Within M s0 s) : Within M s0 (readRow s c m row fails) := by
  unfold readRow
  repeat' first
    | with_reducible assumption
    | (intro x
       first
         | (have hx : Within M s0 x := by
              unfold x
              repeat' first
                | with_reducible assumption
                | with_reducible apply Within.ite
                | with_reducible apply flushRow_within (Sub.up hM rfl)
                | with_reducible apply faultCore_within (Sub.up hM rfl)
                | with_reducible apply detect_within (Sub.up hM rfl))
         | skip
       clear_value x)
    | lift_lets -underBinder
    | with_reducible apply Within.ite
    | with_reducible apply flushRow_within (Sub.up hM rfl)
    | with_reducible apply faultCore_within (Sub.up hM rfl)
    | with_reducible apply detect_within (Sub.up hM rfl)

theorem unpackRow_within {M : Nat} {s0 : State} (hM : Sub 0x3100008d3 M) (s : State) (c k row : Nat) (hW : Within M s0 s) : Within M s0 (unpackRow s c k row) := by
  unfold unpackRow
  repeat' first
    | with_reducible assumption
    | (intro x
       first
         | (have hx : Within M s0 x := by
              unfold x
              repeat' first
                | with_reducible assumption
                | dsimp -zeta only
                | with_reducible apply Within.ite1
                | with_reducible apply Within.ite2
                | with_reducible apply Within.ite
                | with_reducible apply useRows_within (Sub.up hM rfl)
                | with_reducible apply formatFault_within (Sub.up hM rfl)
                | (with_reducible apply Within.snd <;> [with_reducible assumption; skip])
                | (with_reducible apply Within.fst <;> [with_reducible assumption; skip])
                | (with_reducible apply Within.fst2 <;> [with_reducible assumption; skip])
                | split)
         | (have hx : Within M s0 x.1 := by
              unfold x
              repeat' first
                | with_reducible assumption
                | dsimp -zeta only
                | with_reducible apply Within.ite1
                | with_reducible apply Within.ite2
                | with_reducible apply Within.ite
                | with_reducible apply useRows_within (Sub.up hM rfl)
                | with_reducible apply formatFault_within (Sub.up hM rfl)
                | (with_reducible apply Within.snd <;> [with_reducible assumption; skip])
                | (with_reducible apply Within.fst <;> [with_reducible assumption; skip])
                | (with_reducible apply Within.fst2 <;> [with_reducible assumption; skip])
                | split)
         | (have hx : Within M s0 x.2 := by
              unfold x
              repeat' first
                | with_reducible assumption
                | dsimp -zeta only
                | with_reducible apply Within.ite1
                | with_reducible apply Within.ite2
                | with_reducible apply Within.ite
                | with_reducible apply useRows_within (Sub.up hM rfl)
                | with_reducible apply formatFault_within (Sub.up hM rfl)
                | (with_reducible apply Within.snd <;> [with_reducible assumption; skip])
                | (with_reducible apply Within.fst <;> [with_reducible assumption; skip])
                | (with_reducible apply Within.fst2 <;> [with_reducible assumption; skip])
                | split)
         | skip
       clear_value x)
    | lift_lets -underBinder
    | dsimp -zeta only
    | with_reducible apply Within.ite1
    | with_reducible apply Within.ite2
    | with_reducible apply Within.ite
    | with_reducible apply useRows_within (Sub.up hM rfl)
    | with_reducible apply formatFault_within (Sub.up hM rfl)
    | (with_reducible apply Within.snd <;> [with_reducible assumption; skip])
    | (with_reducible apply Within.fst <;> [with_reducible assumption; skip])
    | (with_reducible apply Within.fst2 <;> [with_reducible assumption; skip])
    | split

theorem accDetect_within {M : Nat} {s0 : State} (hM : Sub 0x3100008d3 M) (s : State) (c : Nat) (hW : Within M s0 s) : Within M s0 (accDetect s c) := by
  unfold accDetect
  repeat' first
    | with_reducible assumption
    | (intro x
       first
         | (have hx : Within M s0 x := by
              unfold x
              repeat' first
                | with_reducible assumption
                | dsimp -zeta only
                | with_reducible apply Within.ite1
                | with_reducible apply Within.ite2
                | with_reducible apply Within.ite
                | with_reducible apply sendChain_within (Sub.up hM rfl)
                | with_reducible apply faultCore_within (Sub.up hM rfl)
                | (with_reducible apply Within.snd <;> [with_reducible assumption; skip])
                | (with_reducible apply Within.fst <;> [with_reducible assumption; skip])
                | (with_reducible apply Within.fst2 <;> [with_reducible assumption; skip])
                | split)
         | (have hx : Within M s0 x.1 := by
              unfold x
              repeat' first
                | with_reducible assumption
                | dsimp -zeta only
                | with_reducible apply Within.ite1
                | with_reducible apply Within.ite2
                | with_reducible apply Within.ite
                | with_reducible apply sendChain_within (Sub.up hM rfl)
                | with_reducible apply faultCore_within (Sub.up hM rfl)
                | (with_reducible apply Within.snd <;> [with_reducible assumption; skip])
                | (with_reducible apply Within.fst <;> [with_reducible assumption; skip])
                | (with_reducible apply Within.fst2 <;> [with_reducible assumption; skip])
                | split)
         | (have hx : Within M s0 x.2 := by
              unfold x
              repeat' first
                | with_reducible assumption
                | dsimp -zeta only
                | with_reducible apply Within.ite1
                | with_reducible apply Within.ite2
                | with_reducible apply Within.ite
                | with_reducible apply sendChain_within (Sub.up hM rfl)
                | with_reducible apply faultCore_within (Sub.up hM rfl)
                | (with_reducible apply Within.snd <;> [with_reducible assumption; skip])
                | (with_reducible apply Within.fst <;> [with_reducible assumption; skip])
                | (with_reducible apply Within.fst2 <;> [with_reducible assumption; skip])
                | split)
         | skip
       clear_value x)
    | lift_lets -underBinder
    | dsimp -zeta only
    | with_reducible apply Within.ite1
    | with_reducible apply Within.ite2
    | with_reducible apply Within.ite
    | with_reducible apply sendChain_within (Sub.up hM rfl)
    | with_reducible apply faultCore_within (Sub.up hM rfl)
    | (with_reducible apply Within.snd <;> [with_reducible assumption; skip])
    | (with_reducible apply Within.fst <;> [with_reducible assumption; skip])
    | (with_reducible apply Within.fst2 <;> [with_reducible assumption; skip])
    | split

theorem takeItem_within {M : Nat} {s0 : State} (hM : Sub 0x710000fdb M) (s : State) (c : Nat) (x : StageItem) (hW : Within M s0 s) : Within M s0 (takeItem s c x) := by
  unfold takeItem
  repeat' first
    | with_reducible assumption
    | (intro x
       first
         | (have hx : Within M s0 x := by
              unfold x
              repeat' first
                | with_reducible assumption
                | dsimp -zeta only
                | with_reducible apply Within.ite1
                | with_reducible apply Within.ite2
                | with_reducible apply Within.ite
                | with_reducible apply bumpCore_within (Sub.up hM rfl)
                | with_reducible apply writeRow_within (Sub.up hM rfl)
                | with_reducible apply faultCore_within (Sub.up hM rfl)
                | with_reducible apply localWrite_within (Sub.up hM rfl)
                | with_reducible apply appendRow_within (Sub.up hM rfl)
                | with_reducible apply releaseRegion_within (Sub.up hM rfl)
                | with_reducible apply sbIssue_within (Sub.up hM rfl)
                | with_reducible apply sbDone_within (Sub.up hM rfl)
                | with_reducible apply panelStep_within (Sub.up hM rfl)
                | with_reducible apply scoreToken_within (Sub.up hM rfl)
                | with_reducible apply outputRow_within (Sub.up hM rfl)
                | with_reducible apply copyMore_within (Sub.up hM rfl)
                | with_reducible apply cablePass_within (Sub.up hM rfl)
                | with_reducible apply resolveNext_within (Sub.up hM rfl)
                | with_reducible apply readRow_within (Sub.up hM rfl)
                | with_reducible apply unpackRow_within (Sub.up hM rfl)
                | with_reducible apply accDetect_within (Sub.up hM rfl)
                | (with_reducible apply Within.snd <;> [with_reducible assumption; skip])
                | (with_reducible apply Within.fst <;> [with_reducible assumption; skip])
                | (with_reducible apply Within.fst2 <;> [with_reducible assumption; skip])
                | split)
         | (have hx : Within M s0 x.1 := by
              unfold x
              repeat' first
                | with_reducible assumption
                | dsimp -zeta only
                | with_reducible apply Within.ite1
                | with_reducible apply Within.ite2
                | with_reducible apply Within.ite
                | with_reducible apply bumpCore_within (Sub.up hM rfl)
                | with_reducible apply writeRow_within (Sub.up hM rfl)
                | with_reducible apply faultCore_within (Sub.up hM rfl)
                | with_reducible apply localWrite_within (Sub.up hM rfl)
                | with_reducible apply appendRow_within (Sub.up hM rfl)
                | with_reducible apply releaseRegion_within (Sub.up hM rfl)
                | with_reducible apply sbIssue_within (Sub.up hM rfl)
                | with_reducible apply sbDone_within (Sub.up hM rfl)
                | with_reducible apply panelStep_within (Sub.up hM rfl)
                | with_reducible apply scoreToken_within (Sub.up hM rfl)
                | with_reducible apply outputRow_within (Sub.up hM rfl)
                | with_reducible apply copyMore_within (Sub.up hM rfl)
                | with_reducible apply cablePass_within (Sub.up hM rfl)
                | with_reducible apply resolveNext_within (Sub.up hM rfl)
                | with_reducible apply readRow_within (Sub.up hM rfl)
                | with_reducible apply unpackRow_within (Sub.up hM rfl)
                | with_reducible apply accDetect_within (Sub.up hM rfl)
                | (with_reducible apply Within.snd <;> [with_reducible assumption; skip])
                | (with_reducible apply Within.fst <;> [with_reducible assumption; skip])
                | (with_reducible apply Within.fst2 <;> [with_reducible assumption; skip])
                | split)
         | (have hx : Within M s0 x.2 := by
              unfold x
              repeat' first
                | with_reducible assumption
                | dsimp -zeta only
                | with_reducible apply Within.ite1
                | with_reducible apply Within.ite2
                | with_reducible apply Within.ite
                | with_reducible apply bumpCore_within (Sub.up hM rfl)
                | with_reducible apply writeRow_within (Sub.up hM rfl)
                | with_reducible apply faultCore_within (Sub.up hM rfl)
                | with_reducible apply localWrite_within (Sub.up hM rfl)
                | with_reducible apply appendRow_within (Sub.up hM rfl)
                | with_reducible apply releaseRegion_within (Sub.up hM rfl)
                | with_reducible apply sbIssue_within (Sub.up hM rfl)
                | with_reducible apply sbDone_within (Sub.up hM rfl)
                | with_reducible apply panelStep_within (Sub.up hM rfl)
                | with_reducible apply scoreToken_within (Sub.up hM rfl)
                | with_reducible apply outputRow_within (Sub.up hM rfl)
                | with_reducible apply copyMore_within (Sub.up hM rfl)
                | with_reducible apply cablePass_within (Sub.up hM rfl)
                | with_reducible apply resolveNext_within (Sub.up hM rfl)
                | with_reducible apply readRow_within (Sub.up hM rfl)
                | with_reducible apply unpackRow_within (Sub.up hM rfl)
                | with_reducible apply accDetect_within (Sub.up hM rfl)
                | (with_reducible apply Within.snd <;> [with_reducible assumption; skip])
                | (with_reducible apply Within.fst <;> [with_reducible assumption; skip])
                | (with_reducible apply Within.fst2 <;> [with_reducible assumption; skip])
                | split)
         | skip
       clear_value x)
    | lift_lets -underBinder
    | dsimp -zeta only
    | with_reducible apply Within.ite1
    | with_reducible apply Within.ite2
    | with_reducible apply Within.ite
    | with_reducible apply bumpCore_within (Sub.up hM rfl)
    | with_reducible apply writeRow_within (Sub.up hM rfl)
    | with_reducible apply faultCore_within (Sub.up hM rfl)
    | with_reducible apply localWrite_within (Sub.up hM rfl)
    | with_reducible apply appendRow_within (Sub.up hM rfl)
    | with_reducible apply releaseRegion_within (Sub.up hM rfl)
    | with_reducible apply sbIssue_within (Sub.up hM rfl)
    | with_reducible apply sbDone_within (Sub.up hM rfl)
    | with_reducible apply panelStep_within (Sub.up hM rfl)
    | with_reducible apply scoreToken_within (Sub.up hM rfl)
    | with_reducible apply outputRow_within (Sub.up hM rfl)
    | with_reducible apply copyMore_within (Sub.up hM rfl)
    | with_reducible apply cablePass_within (Sub.up hM rfl)
    | with_reducible apply resolveNext_within (Sub.up hM rfl)
    | with_reducible apply readRow_within (Sub.up hM rfl)
    | with_reducible apply unpackRow_within (Sub.up hM rfl)
    | with_reducible apply accDetect_within (Sub.up hM rfl)
    | (with_reducible apply Within.snd <;> [with_reducible assumption; skip])
    | (with_reducible apply Within.fst <;> [with_reducible assumption; skip])
    | (with_reducible apply Within.fst2 <;> [with_reducible assumption; skip])
    | split

theorem execStitch_within {M : Nat} {s0 : State} (hM : Sub 0x710000fdb M) (c : CoreId) (items : List StageItem) (s : State) (hW : Within M s0 s) :
    ∃ u, execStitch c items s = .next u ∧ Within M s0 u := by
  unfold execStitch
  refine ⟨_, rfl, ?_⟩
  repeat' first
    | with_reducible assumption
    | (intro x
       first
         | (have hx : Within M s0 x := by
              unfold x
              repeat' first
                | with_reducible assumption
                | dsimp -zeta only
                | with_reducible apply Within.ite1
                | with_reducible apply Within.ite2
                | with_reducible apply Within.ite
                | with_reducible apply updCore_within (Sub.up hM rfl)
                | with_reducible apply bumpCore_within (Sub.up hM rfl)
                | with_reducible apply endStall_within (Sub.up hM rfl)
                | with_reducible apply settleFormat_within (Sub.up hM rfl)
                | with_reducible apply spanEnd_within (Sub.up hM rfl)
                | with_reducible apply laneStitch_within (Sub.up hM rfl)
                | with_reducible apply copyEnd_within (Sub.up hM rfl)
                | with_reducible apply beginStall_within (Sub.up hM rfl)
                | with_reducible apply takeItem_within (Sub.up hM rfl)
                | with_reducible refine each_within (fun _ _ _ => ?_) ?_
                | (with_reducible apply Within.snd <;> [with_reducible assumption; skip])
                | (with_reducible apply Within.fst <;> [with_reducible assumption; skip])
                | (with_reducible apply Within.fst2 <;> [with_reducible assumption; skip])
                | split)
         | (have hx : Within M s0 x.1 := by
              unfold x
              repeat' first
                | with_reducible assumption
                | dsimp -zeta only
                | with_reducible apply Within.ite1
                | with_reducible apply Within.ite2
                | with_reducible apply Within.ite
                | with_reducible apply updCore_within (Sub.up hM rfl)
                | with_reducible apply bumpCore_within (Sub.up hM rfl)
                | with_reducible apply endStall_within (Sub.up hM rfl)
                | with_reducible apply settleFormat_within (Sub.up hM rfl)
                | with_reducible apply spanEnd_within (Sub.up hM rfl)
                | with_reducible apply laneStitch_within (Sub.up hM rfl)
                | with_reducible apply copyEnd_within (Sub.up hM rfl)
                | with_reducible apply beginStall_within (Sub.up hM rfl)
                | with_reducible apply takeItem_within (Sub.up hM rfl)
                | with_reducible refine each_within (fun _ _ _ => ?_) ?_
                | (with_reducible apply Within.snd <;> [with_reducible assumption; skip])
                | (with_reducible apply Within.fst <;> [with_reducible assumption; skip])
                | (with_reducible apply Within.fst2 <;> [with_reducible assumption; skip])
                | split)
         | (have hx : Within M s0 x.2 := by
              unfold x
              repeat' first
                | with_reducible assumption
                | dsimp -zeta only
                | with_reducible apply Within.ite1
                | with_reducible apply Within.ite2
                | with_reducible apply Within.ite
                | with_reducible apply updCore_within (Sub.up hM rfl)
                | with_reducible apply bumpCore_within (Sub.up hM rfl)
                | with_reducible apply endStall_within (Sub.up hM rfl)
                | with_reducible apply settleFormat_within (Sub.up hM rfl)
                | with_reducible apply spanEnd_within (Sub.up hM rfl)
                | with_reducible apply laneStitch_within (Sub.up hM rfl)
                | with_reducible apply copyEnd_within (Sub.up hM rfl)
                | with_reducible apply beginStall_within (Sub.up hM rfl)
                | with_reducible apply takeItem_within (Sub.up hM rfl)
                | with_reducible refine each_within (fun _ _ _ => ?_) ?_
                | (with_reducible apply Within.snd <;> [with_reducible assumption; skip])
                | (with_reducible apply Within.fst <;> [with_reducible assumption; skip])
                | (with_reducible apply Within.fst2 <;> [with_reducible assumption; skip])
                | split)
         | skip
       clear_value x)
    | lift_lets -underBinder
    | dsimp -zeta only
    | with_reducible apply Within.ite1
    | with_reducible apply Within.ite2
    | with_reducible apply Within.ite
    | with_reducible apply updCore_within (Sub.up hM rfl)
    | with_reducible apply bumpCore_within (Sub.up hM rfl)
    | with_reducible apply endStall_within (Sub.up hM rfl)
    | with_reducible apply settleFormat_within (Sub.up hM rfl)
    | with_reducible apply spanEnd_within (Sub.up hM rfl)
    | with_reducible apply laneStitch_within (Sub.up hM rfl)
    | with_reducible apply copyEnd_within (Sub.up hM rfl)
    | with_reducible apply beginStall_within (Sub.up hM rfl)
    | with_reducible apply takeItem_within (Sub.up hM rfl)
    | with_reducible refine each_within (fun _ _ _ => ?_) ?_
    | (with_reducible apply Within.snd <;> [with_reducible assumption; skip])
    | (with_reducible apply Within.fst <;> [with_reducible assumption; skip])
    | (with_reducible apply Within.fst2 <;> [with_reducible assumption; skip])
    | split

end Sys2Proof.Machine
end

