-- ==== Sys2Proof/Laws/WithinTaskControl.lean ====
section
/-! SUPPORT. What the operations and commands of Machine/TaskControl can do to the state (Laws/Within). -/

namespace Sys2Proof.Machine

theorem fetchTable_within {M : Nat} {s0 : State} (hM : Sub 0x710000f99 M) (s : State) (c : Nat) (x : Slot) (hW : Within M s0 s) : Within M s0 (fetchTable s c x).1 := by
  unfold fetchTable
  repeat' first
    | with_reducible assumption
    | (intro x
       first
         | (have hx : Within M s0 x := by
              unfold x
              repeat' first
                | with_reducible assumption
                | dsimp -zeta only
                | with_reducible apply Within.ite1
                | with_reducible apply Within.ite2
                | with_reducible apply Within.ite
                | with_reducible apply tagsWithin_within (Sub.up hM rfl)
                | with_reducible apply getRange_within (Sub.up hM rfl)
                | (with_reducible apply Within.snd <;> [with_reducible assumption; skip])
                | (with_reducible apply Within.fst <;> [with_reducible assumption; skip])
                | (with_reducible apply Within.fst2 <;> [with_reducible assumption; skip])
                | split)
         | (have hx : Within M s0 x.1 := by
              unfold x
              repeat' first
                | with_reducible assumption
                | dsimp -zeta only
                | with_reducible apply Within.ite1
                | with_reducible apply Within.ite2
                | with_reducible apply Within.ite
                | with_reducible apply tagsWithin_within (Sub.up hM rfl)
                | with_reducible apply getRange_within (Sub.up hM rfl)
                | (with_reducible apply Within.snd <;> [with_reducible assumption; skip])
                | (with_reducible apply Within.fst <;> [with_reducible assumption; skip])
                | (with_reducible apply Within.fst2 <;> [with_reducible assumption; skip])
                | split)
         | (have hx : Within M s0 x.2 := by
              unfold x
              repeat' first
                | with_reducible assumption
                | dsimp -zeta only
                | with_reducible apply Within.ite1
                | with_reducible apply Within.ite2
                | with_reducible apply Within.ite
                | with_reducible apply tagsWithin_within (Sub.up hM rfl)
                | with_reducible apply getRange_within (Sub.up hM rfl)
                | (with_reducible apply Within.snd <;> [with_reducible assumption; skip])
                | (with_reducible apply Within.fst <;> [with_reducible assumption; skip])
                | (with_reducible apply Within.fst2 <;> [with_reducible assumption; skip])
                | split)
         | skip
       clear_value x)
    | lift_lets -underBinder
    | dsimp -zeta only
    | with_reducible apply Within.ite1
    | with_reducible apply Within.ite2
    | with_reducible apply Within.ite
    | with_reducible apply tagsWithin_within (Sub.up hM rfl)
    | with_reducible apply getRange_within (Sub.up hM rfl)
    | (with_reducible apply Within.snd <;> [with_reducible assumption; skip])
    | (with_reducible apply Within.fst <;> [with_reducible assumption; skip])
    | (with_reducible apply Within.fst2 <;> [with_reducible assumption; skip])
    | split

theorem execDispatch_within {M : Nat} {s0 : State} (hM : Sub 0x710000f99 M) (f : Frame) (c : CoreId) (slot : SlotId) (rank : Fin 64) (cores : Fin 65) (s : State) (hW : Within M s0 s) :
    ∃ u, execDispatch f c slot rank cores s = .next u ∧ Within M s0 u := by
  unfold execDispatch
  refine ⟨_, rfl, ?_⟩
  repeat' first
    | with_reducible assumption
    | (intro x
       first
         | (have hx : Within M s0 x := by
              unfold x
              repeat' first
                | with_reducible assumption
                | dsimp -zeta only
                | with_reducible apply Within.ite1
                | with_reducible apply Within.ite2
                | with_reducible apply Within.ite
                | with_reducible apply updCore_within (Sub.up hM rfl)
                | with_reducible apply fetchTable_within (Sub.up hM rfl)
                | with_reducible refine onChain_within (Sub.up hM rfl) (fun _ _ => ?_) ?_
                | (with_reducible apply Within.snd <;> [with_reducible assumption; skip])
                | (with_reducible apply Within.fst <;> [with_reducible assumption; skip])
                | (with_reducible apply Within.fst2 <;> [with_reducible assumption; skip])
                | split)
         | (have hx : Within M s0 x.1 := by
              unfold x
              repeat' first
                | with_reducible assumption
                | dsimp -zeta only
                | with_reducible apply Within.ite1
                | with_reducible apply Within.ite2
                | with_reducible apply Within.ite
                | with_reducible apply updCore_within (Sub.up hM rfl)
                | with_reducible apply fetchTable_within (Sub.up hM rfl)
                | with_reducible refine onChain_within (Sub.up hM rfl) (fun _ _ => ?_) ?_
                | (with_reducible apply Within.snd <;> [with_reducible assumption; skip])
                | (with_reducible apply Within.fst <;> [with_reducible assumption; skip])
                | (with_reducible apply Within.fst2 <;> [with_reducible assumption; skip])
                | split)
         | (have hx : Within M s0 x.2 := by
              unfold x
              repeat' first
                | with_reducible assumption
                | dsimp -zeta only
                | with_reducible apply Within.ite1
                | with_reducible apply Within.ite2
                | with_reducible apply Within.ite
                | with_reducible apply updCore_within (Sub.up hM rfl)
                | with_reducible apply fetchTable_within (Sub.up hM rfl)
                | with_reducible refine onChain_within (Sub.up hM rfl) (fun _ _ => ?_) ?_
                | (with_reducible apply Within.snd <;> [with_reducible assumption; skip])
                | (with_reducible apply Within.fst <;> [with_reducible assumption; skip])
                | (with_reducible apply Within.fst2 <;> [with_reducible assumption; skip])
                | split)
         | skip
       clear_value x)
    | lift_lets -underBinder
    | dsimp -zeta only
    | with_reducible apply Within.ite1
    | with_reducible apply Within.ite2
    | with_reducible apply Within.ite
    | with_reducible apply updCore_within (Sub.up hM rfl)
    | with_reducible apply fetchTable_within (Sub.up hM rfl)
    | with_reducible refine onChain_within (Sub.up hM rfl) (fun _ _ => ?_) ?_
    | (with_reducible apply Within.snd <;> [with_reducible assumption; skip])
    | (with_reducible apply Within.fst <;> [with_reducible assumption; skip])
    | (with_reducible apply Within.fst2 <;> [with_reducible assumption; skip])
    | split

theorem readBand_within {M : Nat} {s0 : State} (hM : Sub 0x710000f99 M) (s : State) (c : Nat) (t : CoreTask) (hW : Within M s0 s) : Within M s0 (readBand s c t).1 := by
  unfold readBand
  repeat' first
    | with_reducible assumption
    | (intro x
       first
         | (have hx : Within M s0 x := by
              unfold x
              repeat' first
                | with_reducible assumption
                | dsimp -zeta only
                | with_reducible apply Within.ite1
                | with_reducible apply Within.ite2
                | with_reducible apply Within.ite
                | with_reducible apply tagsWithin_within (Sub.up hM rfl)
                | with_reducible apply getLine_within (Sub.up hM rfl)
                | (with_reducible apply Within.snd <;> [with_reducible assumption; skip])
                | (with_reducible apply Within.fst <;> [with_reducible assumption; skip])
                | (with_reducible apply Within.fst2 <;> [with_reducible assumption; skip])
                | split)
         | (have hx : Within M s0 x.1 := by
              unfold x
              repeat' first
                | with_reducible assumption
                | dsimp -zeta only
                | with_reducible apply Within.ite1
                | with_reducible apply Within.ite2
                | with_reducible apply Within.ite
                | with_reducible apply tagsWithin_within (Sub.up hM rfl)
                | with_reducible apply getLine_within (Sub.up hM rfl)
                | (with_reducible apply Within.snd <;> [with_reducible assumption; skip])
                | (with_reducible apply Within.fst <;> [with_reducible assumption; skip])
                | (with_reducible apply Within.fst2 <;> [with_reducible assumption; skip])
                | split)
         | (have hx : Within M s0 x.2 := by
              unfold x
              repeat' first
                | with_reducible assumption
                | dsimp -zeta only
                | with_reducible apply Within.ite1
                | with_reducible apply Within.ite2
                | with_reducible apply Within.ite
                | with_reducible apply tagsWithin_within (Sub.up hM rfl)
                | with_reducible apply getLine_within (Sub.up hM rfl)
                | (with_reducible apply Within.snd <;> [with_reducible assumption; skip])
                | (with_reducible apply Within.fst <;> [with_reducible assumption; skip])
                | (with_reducible apply Within.fst2 <;> [with_reducible assumption; skip])
                | split)
         | skip
       clear_value x)
    | lift_lets -underBinder
    | dsimp -zeta only
    | with_reducible apply Within.ite1
    | with_reducible apply Within.ite2
    | with_reducible apply Within.ite
    | with_reducible apply tagsWithin_within (Sub.up hM rfl)
    | with_reducible apply getLine_within (Sub.up hM rfl)
    | (with_reducible apply Within.snd <;> [with_reducible assumption; skip])
    | (with_reducible apply Within.fst <;> [with_reducible assumption; skip])
    | (with_reducible apply Within.fst2 <;> [with_reducible assumption; skip])
    | split

theorem execIssueChecks_within {M : Nat} {s0 : State} (hM : Sub 0x710000f99 M) (c : CoreId) (s : State) (hW : Within M s0 s) :
    ∃ u, execIssueChecks c s = .next u ∧ Within M s0 u := by
  unfold execIssueChecks
  refine ⟨_, rfl, ?_⟩
  repeat' first
    | with_reducible assumption
    | (intro x
       first
         | (have hx : Within M s0 x := by
              unfold x
              repeat' first
                | with_reducible assumption
                | dsimp -zeta only
                | with_reducible apply Within.ite1
                | with_reducible apply Within.ite2
                | with_reducible apply Within.ite
                | with_reducible apply setReg_within (Sub.up hM rfl)
                | with_reducible apply updCore_within (Sub.up hM rfl)
                | with_reducible apply bumpCore_within (Sub.up hM rfl)
                | with_reducible apply sendChain_within (Sub.up hM rfl)
                | with_reducible apply lceFault_within (Sub.up hM rfl)
                | with_reducible apply updTask_within (Sub.up hM rfl)
                | with_reducible apply readBand_within (Sub.up hM rfl)
                | with_reducible refine each_within (fun _ _ _ => ?_) ?_
                | (with_reducible apply Within.snd <;> [with_reducible assumption; skip])
                | (with_reducible apply Within.fst <;> [with_reducible assumption; skip])
                | (with_reducible apply Within.fst2 <;> [with_reducible assumption; skip])
                | split)
         | (have hx : Within M s0 x.1 := by
              unfold x
              repeat' first
                | with_reducible assumption
                | dsimp -zeta only
                | with_reducible apply Within.ite1
                | with_reducible apply Within.ite2
                | with_reducible apply Within.ite
                | with_reducible apply setReg_within (Sub.up hM rfl)
                | with_reducible apply updCore_within (Sub.up hM rfl)
                | with_reducible apply bumpCore_within (Sub.up hM rfl)
                | with_reducible apply sendChain_within (Sub.up hM rfl)
                | with_reducible apply lceFault_within (Sub.up hM rfl)
                | with_reducible apply updTask_within (Sub.up hM rfl)
                | with_reducible apply readBand_within (Sub.up hM rfl)
                | with_reducible refine each_within (fun _ _ _ => ?_) ?_
                | (with_reducible apply Within.snd <;> [with_reducible assumption; skip])
                | (with_reducible apply Within.fst <;> [with_reducible assumption; skip])
                | (with_reducible apply Within.fst2 <;> [with_reducible assumption; skip])
                | split)
         | (have hx : Within M s0 x.2 := by
              unfold x
              repeat' first
                | with_reducible assumption
                | dsimp -zeta only
                | with_reducible apply Within.ite1
                | with_reducible apply Within.ite2
                | with_reducible apply Within.ite
                | with_reducible apply setReg_within (Sub.up hM rfl)
                | with_reducible apply updCore_within (Sub.up hM rfl)
                | with_reducible apply bumpCore_within (Sub.up hM rfl)
                | with_reducible apply sendChain_within (Sub.up hM rfl)
                | with_reducible apply lceFault_within (Sub.up hM rfl)
                | with_reducible apply updTask_within (Sub.up hM rfl)
                | with_reducible apply readBand_within (Sub.up hM rfl)
                | with_reducible refine each_within (fun _ _ _ => ?_) ?_
                | (with_reducible apply Within.snd <;> [with_reducible assumption; skip])
                | (with_reducible apply Within.fst <;> [with_reducible assumption; skip])
                | (with_reducible apply Within.fst2 <;> [with_reducible assumption; skip])
                | split)
         | skip
       clear_value x)
    | lift_lets -underBinder
    | dsimp -zeta only
    | with_reducible apply Within.ite1
    | with_reducible apply Within.ite2
    | with_reducible apply Within.ite
    | with_reducible apply setReg_within (Sub.up hM rfl)
    | with_reducible apply updCore_within (Sub.up hM rfl)
    | with_reducible apply bumpCore_within (Sub.up hM rfl)
    | with_reducible apply sendChain_within (Sub.up hM rfl)
    | with_reducible apply lceFault_within (Sub.up hM rfl)
    | with_reducible apply updTask_within (Sub.up hM rfl)
    | with_reducible apply readBand_within (Sub.up hM rfl)
    | with_reducible refine each_within (fun _ _ _ => ?_) ?_
    | (with_reducible apply Within.snd <;> [with_reducible assumption; skip])
    | (with_reducible apply Within.fst <;> [with_reducible assumption; skip])
    | (with_reducible apply Within.fst2 <;> [with_reducible assumption; skip])
    | split

theorem execGo_within {M : Nat} {s0 : State} (hM : Sub 0x710000fdb M) (f : Frame) (c : CoreId) (slot : SlotId) (span : BitVec 32) (s : State) (hW : Within M s0 s) :
    ∃ u, execGo f c slot span s = .next u ∧ Within M s0 u := by
  unfold execGo
  refine ⟨_, rfl, ?_⟩
  repeat' first
    | with_reducible assumption
    | with_reducible refine onChain_within (Sub.up hM rfl) (fun _ _ => ?_) ?_
    | with_reducible apply takeGo_within (Sub.up hM rfl)

theorem execWait_within {M : Nat} {s0 : State} (hM : Sub 0x100000011 M) (f : Frame) (c : CoreId) (slot : SlotId) (k : MarkerId) (target : BitVec 32) (s : State) (hW : Within M s0 s) :
    ∃ u, execWait f c slot k target s = .next u ∧ Within M s0 u := by
  unfold execWait
  refine ⟨_, rfl, ?_⟩
  repeat' first
    | with_reducible assumption
    | with_reducible apply updCore_within (Sub.up hM rfl)
    | with_reducible refine onChain_within (Sub.up hM rfl) (fun _ _ => ?_) ?_
    | with_reducible apply checkWait_within (Sub.up hM rfl)

theorem execAbort_within {M : Nat} {s0 : State} (hM : Sub 0x3100008d3 M) (f : Frame) (c : CoreId) (slot : SlotId) (s : State) (hW : Within M s0 s) :
    ∃ u, execAbort f c slot s = .next u ∧ Within M s0 u := by
  unfold execAbort
  refine ⟨_, rfl, ?_⟩
  repeat' first
    | with_reducible assumption
    | (intro x
       first
         | (have hx : Within M s0 x := by
              unfold x
              repeat' first
                | with_reducible assumption
                | dsimp -zeta only
                | with_reducible apply Within.ite1
                | with_reducible apply Within.ite2
                | with_reducible apply Within.ite
                | with_reducible apply stopTask_within (Sub.up hM rfl)
                | with_reducible apply stopGone_within (Sub.up hM rfl)
                | with_reducible refine onChain_within (Sub.up hM rfl) (fun _ _ => ?_) ?_
                | (with_reducible apply Within.snd <;> [with_reducible assumption; skip])
                | (with_reducible apply Within.fst <;> [with_reducible assumption; skip])
                | (with_reducible apply Within.fst2 <;> [with_reducible assumption; skip])
                | split)
         | (have hx : Within M s0 x.1 := by
              unfold x
              repeat' first
                | with_reducible assumption
                | dsimp -zeta only
                | with_reducible apply Within.ite1
                | with_reducible apply Within.ite2
                | with_reducible apply Within.ite
                | with_reducible apply stopTask_within (Sub.up hM rfl)
                | with_reducible apply stopGone_within (Sub.up hM rfl)
                | with_reducible refine onChain_within (Sub.up hM rfl) (fun _ _ => ?_) ?_
                | (with_reducible apply Within.snd <;> [with_reducible assumption; skip])
                | (with_reducible apply Within.fst <;> [with_reducible assumption; skip])
                | (with_reducible apply Within.fst2 <;> [with_reducible assumption; skip])
                | split)
         | (have hx : Within M s0 x.2 := by
              unfold x
              repeat' first
                | with_reducible assumption
                | dsimp -zeta only
                | with_reducible apply Within.ite1
                | with_reducible apply Within.ite2
                | with_reducible apply Within.ite
                | with_reducible apply stopTask_within (Sub.up hM rfl)
                | with_reducible apply stopGone_within (Sub.up hM rfl)
                | with_reducible refine onChain_within (Sub.up hM rfl) (fun _ _ => ?_) ?_
                | (with_reducible apply Within.snd <;> [with_reducible assumption; skip])
                | (with_reducible apply Within.fst <;> [with_reducible assumption; skip])
                | (with_reducible apply Within.fst2 <;> [with_reducible assumption; skip])
                | split)
         | skip
       clear_value x)
    | lift_lets -underBinder
    | dsimp -zeta only
    | with_reducible apply Within.ite1
    | with_reducible apply Within.ite2
    | with_reducible apply Within.ite
    | with_reducible apply stopTask_within (Sub.up hM rfl)
    | with_reducible apply stopGone_within (Sub.up hM rfl)
    | with_reducible refine onChain_within (Sub.up hM rfl) (fun _ _ => ?_) ?_
    | (with_reducible apply Within.snd <;> [with_reducible assumption; skip])
    | (with_reducible apply Within.fst <;> [with_reducible assumption; skip])
    | (with_reducible apply Within.fst2 <;> [with_reducible assumption; skip])
    | split

theorem execCancel_within {M : Nat} {s0 : State} (hM : Sub 0x3100008d3 M) (f : Frame) (c : CoreId) (slot : SlotId) (s : State) (hW : Within M s0 s) :
    ∃ u, execCancel f c slot s = .next u ∧ Within M s0 u := by
  unfold execCancel
  refine ⟨_, rfl, ?_⟩
  repeat' first
    | with_reducible assumption
    | (intro x
       first
         | (have hx : Within M s0 x := by
              unfold x
              repeat' first
                | with_reducible assumption
                | dsimp -zeta only
                | with_reducible apply Within.ite1
                | with_reducible apply Within.ite2
                | with_reducible apply Within.ite
                | with_reducible apply stopTask_within (Sub.up hM rfl)
                | with_reducible apply stopGone_within (Sub.up hM rfl)
                | with_reducible refine onChain_within (Sub.up hM rfl) (fun _ _ => ?_) ?_
                | (with_reducible apply Within.snd <;> [with_reducible assumption; skip])
                | (with_reducible apply Within.fst <;> [with_reducible assumption; skip])
                | (with_reducible apply Within.fst2 <;> [with_reducible assumption; skip])
                | split)
         | (have hx : Within M s0 x.1 := by
              unfold x
              repeat' first
                | with_reducible assumption
                | dsimp -zeta only
                | with_reducible apply Within.ite1
                | with_reducible apply Within.ite2
                | with_reducible apply Within.ite
                | with_reducible apply stopTask_within (Sub.up hM rfl)
                | with_reducible apply stopGone_within (Sub.up hM rfl)
                | with_reducible refine onChain_within (Sub.up hM rfl) (fun _ _ => ?_) ?_
                | (with_reducible apply Within.snd <;> [with_reducible assumption; skip])
                | (with_reducible apply Within.fst <;> [with_reducible assumption; skip])
                | (with_reducible apply Within.fst2 <;> [with_reducible assumption; skip])
                | split)
         | (have hx : Within M s0 x.2 := by
              unfold x
              repeat' first
                | with_reducible assumption
                | dsimp -zeta only
                | with_reducible apply Within.ite1
                | with_reducible apply Within.ite2
                | with_reducible apply Within.ite
                | with_reducible apply stopTask_within (Sub.up hM rfl)
                | with_reducible apply stopGone_within (Sub.up hM rfl)
                | with_reducible refine onChain_within (Sub.up hM rfl) (fun _ _ => ?_) ?_
                | (with_reducible apply Within.snd <;> [with_reducible assumption; skip])
                | (with_reducible apply Within.fst <;> [with_reducible assumption; skip])
                | (with_reducible apply Within.fst2 <;> [with_reducible assumption; skip])
                | split)
         | skip
       clear_value x)
    | lift_lets -underBinder
    | dsimp -zeta only
    | with_reducible apply Within.ite1
    | with_reducible apply Within.ite2
    | with_reducible apply Within.ite
    | with_reducible apply stopTask_within (Sub.up hM rfl)
    | with_reducible apply stopGone_within (Sub.up hM rfl)
    | with_reducible refine onChain_within (Sub.up hM rfl) (fun _ _ => ?_) ?_
    | (with_reducible apply Within.snd <;> [with_reducible assumption; skip])
    | (with_reducible apply Within.fst <;> [with_reducible assumption; skip])
    | (with_reducible apply Within.fst2 <;> [with_reducible assumption; skip])
    | split

theorem execReplay_within {M : Nat} {s0 : State} (hM : Sub 0x710000fdb M) (f : Frame) (c : CoreId) (slot : SlotId) (span : BitVec 32) (s : State) (hW : Within M s0 s) :
    ∃ u, execReplay f c slot span s = .next u ∧ Within M s0 u := by
  unfold execReplay
  refine ⟨_, rfl, ?_⟩
  repeat' first
    | with_reducible assumption
    | with_reducible apply Within.ite
    | with_reducible refine onChain_within (Sub.up hM rfl) (fun _ _ => ?_) ?_
    | with_reducible apply takeReplay_within (Sub.up hM rfl)
    | (with_reducible apply Within.snd <;> [with_reducible assumption; skip])
    | (with_reducible apply Within.fst <;> [with_reducible assumption; skip])
    | (with_reducible apply Within.fst2 <;> [with_reducible assumption; skip])
    | split

theorem onReport_within {M : Nat} {s0 : State} (hM : Sub 0x100000001 M) {f : Frame} {n : SlotId} {s : State} {k : State → Nat → State}
    (hk : ∀ t c, Within M s0 t → Within M s0 (k t c)) (hW : Within M s0 s) : Within M s0 (onReport f n s k) := by
  unfold onReport
  refine onChain_within (Sub.up hM rfl) (fun t ht => ?_) hW
  split
  · exact .ite (hk _ _ ht) ht
  · exact ht

theorem execCompletionReportPassed_within {M : Nat} {s0 : State} (hM : Sub 0x1000000b1 M) (f : Frame) (slot : SlotId) (s : State) (hW : Within M s0 s) :
    ∃ u, execCompletionReportPassed f slot s = .next u ∧ Within M s0 u := by
  unfold execCompletionReportPassed
  refine ⟨_, rfl, ?_⟩
  repeat' first
    | with_reducible assumption
    | with_reducible apply updSlot_within (Sub.up hM rfl)
    | with_reducible apply proceed_within (Sub.up hM rfl)
    | with_reducible apply settleRefusal_within (Sub.up hM rfl)
    | with_reducible refine onReport_within (Sub.up hM rfl) (fun _ _ _ => ?_) ?_

theorem execCompletionReportRefused_within {M : Nat} {s0 : State} (hM : Sub 0x100000091 M) (f : Frame) (slot : SlotId) (status : BitVec 16) (check : Fin 32) (s : State) (hW : Within M s0 s) :
    ∃ u, execCompletionReportRefused f slot status check s = .next u ∧ Within M s0 u := by
  unfold execCompletionReportRefused
  refine ⟨_, rfl, ?_⟩
  repeat' first
    | with_reducible assumption
    | (intro x
       first
         | (have hx : Within M s0 x := by
              unfold x
              repeat' first
                | with_reducible assumption
                | with_reducible apply Within.ite
                | with_reducible apply bump_within (Sub.up hM rfl)
                | with_reducible apply setSlot_within (Sub.up hM rfl)
                | with_reducible apply settleRefusal_within (Sub.up hM rfl)
                | with_reducible refine onReport_within (Sub.up hM rfl) (fun _ _ _ => ?_) ?_)
         | skip
       clear_value x)
    | lift_lets -underBinder
    | with_reducible apply Within.ite
    | with_reducible apply bump_within (Sub.up hM rfl)
    | with_reducible apply setSlot_within (Sub.up hM rfl)
    | with_reducible apply settleRefusal_within (Sub.up hM rfl)
    | with_reducible refine onReport_within (Sub.up hM rfl) (fun _ _ _ => ?_) ?_

theorem execCompletionReportMarkerReached_within {M : Nat} {s0 : State} (hM : Sub 0x1000000a1 M) (f : Frame) (slot : SlotId) (s : State) (hW : Within M s0 s) :
    ∃ u, execCompletionReportMarkerReached f slot s = .next u ∧ Within M s0 u := by
  unfold execCompletionReportMarkerReached
  refine ⟨_, rfl, ?_⟩
  repeat' first
    | with_reducible assumption
    | with_reducible apply Within.ite
    | with_reducible apply updSlot_within (Sub.up hM rfl)
    | with_reducible refine onChain_within (Sub.up hM rfl) (fun _ _ => ?_) ?_
    | with_reducible apply proceed_within (Sub.up hM rfl)

theorem execCompletionReportSpanDone_within {M : Nat} {s0 : State} (hM : Sub 0x710082fdb M) (f : Frame) (slot : SlotId) (span : BitVec 29) (s : State) (hW : Within M s0 s) :
    ∃ u, execCompletionReportSpanDone f slot span s = .next u ∧ Within M s0 u := by
  unfold execCompletionReportSpanDone
  refine ⟨_, rfl, ?_⟩
  repeat' first
    | with_reducible assumption
    | with_reducible apply Within.ite
    | with_reducible apply updSlot_within (Sub.up hM rfl)
    | with_reducible apply commitTry_within (Sub.up hM rfl)
    | with_reducible refine onReport_within (Sub.up hM rfl) (fun _ _ _ => ?_) ?_

theorem execCompletionReportDone_within {M : Nat} {s0 : State} (hM : Sub 0x100000081 M) (f : Frame) (slot : SlotId) (s : State) (hW : Within M s0 s) :
    ∃ u, execCompletionReportDone f slot s = .next u ∧ Within M s0 u := by
  unfold execCompletionReportDone
  refine ⟨_, rfl, ?_⟩
  repeat' first
    | with_reducible assumption
    | with_reducible apply updSlot_within (Sub.up hM rfl)
    | with_reducible refine onReport_within (Sub.up hM rfl) (fun _ _ _ => ?_) ?_

theorem execCompletionReportFault_within {M : Nat} {s0 : State} (hM : Sub 0x100000091 M) (f : Frame) (slot : SlotId) (status : BitVec 16) (s : State) (hW : Within M s0 s) :
    ∃ u, execCompletionReportFault f slot status s = .next u ∧ Within M s0 u := by
  unfold execCompletionReportFault
  refine ⟨_, rfl, ?_⟩
  repeat' first
    | with_reducible assumption
    | with_reducible apply endTask_within (Sub.up hM rfl)
    | with_reducible refine onReport_within (Sub.up hM rfl) (fun _ _ _ => ?_) ?_

theorem execCompletionReportDrained_within {M : Nat} {s0 : State} (hM : Sub 0x500000083 M) (f : Frame) (slot : SlotId) (s : State) (hW : Within M s0 s) :
    ∃ u, execCompletionReportDrained f slot s = .next u ∧ Within M s0 u := by
  unfold execCompletionReportDrained
  refine ⟨_, rfl, ?_⟩
  repeat' first
    | with_reducible assumption
    | with_reducible apply updSlot_within (Sub.up hM rfl)
    | with_reducible apply openRows_within (Sub.up hM rfl)
    | with_reducible refine onReport_within (Sub.up hM rfl) (fun _ _ _ => ?_) ?_

theorem execCompletionReportDetection_within {M : Nat} {s0 : State} (hM : Sub 0x100000091 M) (f : Frame) (slot : SlotId) (span : BitVec 29) (s : State) (hW : Within M s0 s) :
    ∃ u, execCompletionReportDetection f slot span s = .next u ∧ Within M s0 u := by
  unfold execCompletionReportDetection
  refine ⟨_, rfl, ?_⟩
  repeat' first
    | with_reducible assumption
    | with_reducible apply Within.ite
    | with_reducible apply takeDetection_within (Sub.up hM rfl)
    | with_reducible refine onReport_within (Sub.up hM rfl) (fun _ _ _ => ?_) ?_

theorem execGroupCommit_within {M : Nat} {s0 : State} (hM : Sub 0x710082fdb M) (slot : SlotId) (s : State) (hW : Within M s0 s) :
    ∃ u, execGroupCommit slot s = .next u ∧ Within M s0 u := by
  unfold execGroupCommit
  refine ⟨_, rfl, ?_⟩
  repeat' first
    | with_reducible assumption
    | with_reducible apply Within.ite
    | with_reducible apply commitSpan_within (Sub.up hM rfl)
    | with_reducible apply settleAll_within (Sub.up hM rfl)

end Sys2Proof.Machine
end

