-- ==== Sys2Proof/Laws/WithinTiers.lean ====
section
/-! SUPPORT. What the operations and commands of Machine/Tiers can do to the state (Laws/Within). -/

namespace Sys2Proof.Machine

theorem execTranslationWalk_within {M : Nat} {s0 : State} (hM : Sub 0x3100008d3 M) (c : CoreId) (n : StrandId) (va : BitVec 48) (walk : Walk) (s : State) (hW : Within M s0 s) :
    ∃ u, execTranslationWalk c n va walk s = .next u ∧ Within M s0 u := by
  unfold execTranslationWalk
  refine ⟨_, rfl, ?_⟩
  repeat' first
    | with_reducible assumption
    | (intro x
       first
         | (have hx : Within M s0 x := by
              unfold x
              repeat' first
                | with_reducible assumption
                | with_reducible apply Within.ite
                | with_reducible apply bumpCore_within (Sub.up hM rfl)
                | with_reducible apply faultCore_within (Sub.up hM rfl)
                | with_reducible apply xltAdd_within (Sub.up hM rfl)
                | (with_reducible apply Within.snd <;> [with_reducible assumption; skip])
                | (with_reducible apply Within.fst <;> [with_reducible assumption; skip])
                | (with_reducible apply Within.fst2 <;> [with_reducible assumption; skip])
                | split)
         | skip
       clear_value x)
    | lift_lets -underBinder
    | with_reducible apply Within.ite
    | with_reducible apply bumpCore_within (Sub.up hM rfl)
    | with_reducible apply faultCore_within (Sub.up hM rfl)
    | with_reducible apply xltAdd_within (Sub.up hM rfl)
    | (with_reducible apply Within.snd <;> [with_reducible assumption; skip])
    | (with_reducible apply Within.fst <;> [with_reducible assumption; skip])
    | (with_reducible apply Within.fst2 <;> [with_reducible assumption; skip])
    | split

theorem retrain_within {M : Nat} {s0 : State} (hM : Sub 0x201 M) (s : State) (k ch : Nat) (hW : Within M s0 s) : Within M s0 (retrain s k ch) := by
  unfold retrain
  repeat' first
    | with_reducible assumption
    | (intro x
       first
         | (have hx : Within M s0 x := by
              unfold x
              repeat' first
                | with_reducible assumption
                | with_reducible apply Within.ite
                | with_reducible apply bump_within (Sub.up hM rfl)
                | with_reducible apply updStack_within (Sub.up hM rfl))
         | skip
       clear_value x)
    | lift_lets -underBinder
    | with_reducible apply Within.ite
    | with_reducible apply bump_within (Sub.up hM rfl)
    | with_reducible apply updStack_within (Sub.up hM rfl)

theorem execRetrainInterval_within {M : Nat} {s0 : State} (hM : Sub 0x201 M) (k : StackId) (ch : Channel) (s : State) (hW : Within M s0 s) :
    ∃ u, execRetrainInterval k ch s = .next u ∧ Within M s0 u := by
  unfold execRetrainInterval
  refine ⟨_, rfl, ?_⟩
  repeat' first
    | with_reducible assumption
    | with_reducible apply Within.ite
    | with_reducible apply retrain_within (Sub.up hM rfl)

theorem execRetrainTemperature_within {M : Nat} {s0 : State} (hM : Sub 0x2000201 M) (k : StackId) (ch : Channel) (temp : Nat) (s : State) (hW : Within M s0 s) :
    ∃ u, execRetrainTemperature k ch temp s = .next u ∧ Within M s0 u :=
  ⟨_, rfl, .ite (retrain_within (Sub.up hM rfl) (hW := .power hW (Sub.has hM rfl)) ..) (.power hW (Sub.has hM rfl))⟩

theorem execRetrainCrcCount_within {M : Nat} {s0 : State} (hM : Sub 0x201 M) (k : StackId) (ch : Channel) (s : State) (hW : Within M s0 s) :
    ∃ u, execRetrainCrcCount k ch s = .next u ∧ Within M s0 u := by
  unfold execRetrainCrcCount
  refine ⟨_, rfl, ?_⟩
  repeat' first
    | with_reducible assumption
    | (intro x
       first
         | (have hx : Within M s0 x := by
              unfold x
              repeat' first
                | with_reducible assumption
                | dsimp -zeta only
                | with_reducible apply Within.ite1
                | with_reducible apply Within.ite2
                | with_reducible apply Within.ite
                | with_reducible apply updStack_within (Sub.up hM rfl)
                | with_reducible apply retrain_within (Sub.up hM rfl)
                | (with_reducible apply Within.snd <;> [with_reducible assumption; skip])
                | (with_reducible apply Within.fst <;> [with_reducible assumption; skip])
                | (with_reducible apply Within.fst2 <;> [with_reducible assumption; skip])
                | split)
         | (have hx : Within M s0 x.1 := by
              unfold x
              repeat' first
                | with_reducible assumption
                | dsimp -zeta only
                | with_reducible apply Within.ite1
                | with_reducible apply Within.ite2
                | with_reducible apply Within.ite
                | with_reducible apply updStack_within (Sub.up hM rfl)
                | with_reducible apply retrain_within (Sub.up hM rfl)
                | (with_reducible apply Within.snd <;> [with_reducible assumption; skip])
                | (with_reducible apply Within.fst <;> [with_reducible assumption; skip])
                | (with_reducible apply Within.fst2 <;> [with_reducible assumption; skip])
                | split)
         | (have hx : Within M s0 x.2 := by
              unfold x
              repeat' first
                | with_reducible assumption
                | dsimp -zeta only
                | with_reducible apply Within.ite1
                | with_reducible apply Within.ite2
                | with_reducible apply Within.ite
                | with_reducible apply updStack_within (Sub.up hM rfl)
                | with_reducible apply retrain_within (Sub.up hM rfl)
                | (with_reducible apply Within.snd <;> [with_reducible assumption; skip])
                | (with_reducible apply Within.fst <;> [with_reducible assumption; skip])
                | (with_reducible apply Within.fst2 <;> [with_reducible assumption; skip])
                | split)
         | skip
       clear_value x)
    | lift_lets -underBinder
    | dsimp -zeta only
    | with_reducible apply Within.ite1
    | with_reducible apply Within.ite2
    | with_reducible apply Within.ite
    | with_reducible apply updStack_within (Sub.up hM rfl)
    | with_reducible apply retrain_within (Sub.up hM rfl)
    | (with_reducible apply Within.snd <;> [with_reducible assumption; skip])
    | (with_reducible apply Within.fst <;> [with_reducible assumption; skip])
    | (with_reducible apply Within.fst2 <;> [with_reducible assumption; skip])
    | split

theorem execRetrainDone_within {M : Nat} {s0 : State} (hM : Sub 0x201 M) (k : StackId) (s : State) (hW : Within M s0 s) :
    ∃ u, execRetrainDone k s = .next u ∧ Within M s0 u := by
  unfold execRetrainDone
  refine ⟨_, rfl, ?_⟩
  repeat' first
    | with_reducible assumption
    | (intro x
       first
         | (have hx : Within M s0 x := by
              unfold x
              repeat' first
                | with_reducible assumption
                | with_reducible apply updStack_within (Sub.up hM rfl)
                | with_reducible apply retrain_within (Sub.up hM rfl)
                | (with_reducible apply Within.snd <;> [with_reducible assumption; skip])
                | (with_reducible apply Within.fst <;> [with_reducible assumption; skip])
                | (with_reducible apply Within.fst2 <;> [with_reducible assumption; skip])
                | split)
         | skip
       clear_value x)
    | lift_lets -underBinder
    | with_reducible apply updStack_within (Sub.up hM rfl)
    | with_reducible apply retrain_within (Sub.up hM rfl)
    | (with_reducible apply Within.snd <;> [with_reducible assumption; skip])
    | (with_reducible apply Within.fst <;> [with_reducible assumption; skip])
    | (with_reducible apply Within.fst2 <;> [with_reducible assumption; skip])
    | split

theorem execNearTierScrub_within {M : Nat} {s0 : State} (hM : Sub 0x310000e89 M) (dpa : BitVec 52) (o : ReadOutcome) (s : State) (hW : Within M s0 s) :
    ∃ u, execNearTierScrub dpa o s = .next u ∧ Within M s0 u := by
  unfold execNearTierScrub
  refine ⟨_, rfl, ?_⟩
  repeat' first
    | with_reducible assumption
    | (intro x
       first
         | (have hx : Within M s0 x := by
              unfold x
              repeat' first
                | with_reducible assumption
                | with_reducible apply Within.ite
                | with_reducible apply listPoison_within (Sub.up hM rfl)
                | with_reducible apply readMif_within (Sub.up hM rfl)
                | (with_reducible apply Within.snd <;> [with_reducible assumption; skip])
                | (with_reducible apply Within.fst <;> [with_reducible assumption; skip])
                | (with_reducible apply Within.fst2 <;> [with_reducible assumption; skip]))
         | (have hx : Within M s0 x.1 := by
              unfold x
              repeat' first
                | with_reducible assumption
                | with_reducible apply Within.ite
                | with_reducible apply listPoison_within (Sub.up hM rfl)
                | with_reducible apply readMif_within (Sub.up hM rfl)
                | (with_reducible apply Within.snd <;> [with_reducible assumption; skip])
                | (with_reducible apply Within.fst <;> [with_reducible assumption; skip])
                | (with_reducible apply Within.fst2 <;> [with_reducible assumption; skip]))
         | (have hx : Within M s0 x.2 := by
              unfold x
              repeat' first
                | with_reducible assumption
                | with_reducible apply Within.ite
                | with_reducible apply listPoison_within (Sub.up hM rfl)
                | with_reducible apply readMif_within (Sub.up hM rfl)
                | (with_reducible apply Within.snd <;> [with_reducible assumption; skip])
                | (with_reducible apply Within.fst <;> [with_reducible assumption; skip])
                | (with_reducible apply Within.fst2 <;> [with_reducible assumption; skip]))
         | skip
       clear_value x)
    | lift_lets -underBinder
    | with_reducible apply Within.ite
    | with_reducible apply listPoison_within (Sub.up hM rfl)
    | with_reducible apply readMif_within (Sub.up hM rfl)
    | (with_reducible apply Within.snd <;> [with_reducible assumption; skip])
    | (with_reducible apply Within.fst <;> [with_reducible assumption; skip])
    | (with_reducible apply Within.fst2 <;> [with_reducible assumption; skip])

theorem farError_within {M : Nat} {s0 : State} (hM : Sub 0x100000000 M) (s : State) (p c tag : Nat) (hW : Within M s0 s) : Within M s0 (farError s p c tag) := by
  unfold farError
  repeat' first
    | with_reducible assumption
    | with_reducible apply sendBulk_within (Sub.up hM rfl)

theorem execFarCompletionTimeout_within {M : Nat} {s0 : State} (hM : Sub 0x100000001 M) (p : FarPort) (c : CoreId) (tag : TagId) (s : State) (hW : Within M s0 s) :
    ∃ u, execFarCompletionTimeout p c tag s = .next u ∧ Within M s0 u := by
  unfold execFarCompletionTimeout
  refine ⟨_, rfl, ?_⟩
  repeat' first
    | with_reducible assumption
    | (intro x
       first
         | (have hx : Within M s0 x := by
              unfold x
              repeat' first
                | with_reducible assumption
                | dsimp -zeta only
                | with_reducible apply Within.ite1
                | with_reducible apply Within.ite2
                | with_reducible apply Within.ite
                | with_reducible apply bump_within (Sub.up hM rfl)
                | with_reducible apply farError_within (Sub.up hM rfl)
                | (with_reducible apply Within.snd <;> [with_reducible assumption; skip])
                | (with_reducible apply Within.fst <;> [with_reducible assumption; skip])
                | (with_reducible apply Within.fst2 <;> [with_reducible assumption; skip])
                | split)
         | (have hx : Within M s0 x.1 := by
              unfold x
              repeat' first
                | with_reducible assumption
                | dsimp -zeta only
                | with_reducible apply Within.ite1
                | with_reducible apply Within.ite2
                | with_reducible apply Within.ite
                | with_reducible apply bump_within (Sub.up hM rfl)
                | with_reducible apply farError_within (Sub.up hM rfl)
                | (with_reducible apply Within.snd <;> [with_reducible assumption; skip])
                | (with_reducible apply Within.fst <;> [with_reducible assumption; skip])
                | (with_reducible apply Within.fst2 <;> [with_reducible assumption; skip])
                | split)
         | (have hx : Within M s0 x.2 := by
              unfold x
              repeat' first
                | with_reducible assumption
                | dsimp -zeta only
                | with_reducible apply Within.ite1
                | with_reducible apply Within.ite2
                | with_reducible apply Within.ite
                | with_reducible apply bump_within (Sub.up hM rfl)
                | with_reducible apply farError_within (Sub.up hM rfl)
                | (with_reducible apply Within.snd <;> [with_reducible assumption; skip])
                | (with_reducible apply Within.fst <;> [with_reducible assumption; skip])
                | (with_reducible apply Within.fst2 <;> [with_reducible assumption; skip])
                | split)
         | skip
       clear_value x)
    | lift_lets -underBinder
    | dsimp -zeta only
    | with_reducible apply Within.ite1
    | with_reducible apply Within.ite2
    | with_reducible apply Within.ite
    | with_reducible apply bump_within (Sub.up hM rfl)
    | with_reducible apply farError_within (Sub.up hM rfl)
    | (with_reducible apply Within.snd <;> [with_reducible assumption; skip])
    | (with_reducible apply Within.fst <;> [with_reducible assumption; skip])
    | (with_reducible apply Within.fst2 <;> [with_reducible assumption; skip])
    | split

theorem execFarLinkDown_within {M : Nat} {s0 : State} (hM : Sub 0x100000400 M) (p : FarPort) (s : State) (hW : Within M s0 s) :
    ∃ u, execFarLinkDown p s = .next u ∧ Within M s0 u := by
  unfold execFarLinkDown
  refine ⟨_, rfl, ?_⟩
  repeat' first
    | with_reducible assumption
    | (intro x
       first
         | (have hx : Within M s0 x := by
              unfold x
              repeat' first
                | with_reducible assumption
                | with_reducible apply updFar_within (Sub.up hM rfl)
                | with_reducible apply farError_within (Sub.up hM rfl)
                | with_reducible refine each_within (fun _ _ _ => ?_) ?_)
         | skip
       clear_value x)
    | lift_lets -underBinder
    | with_reducible apply updFar_within (Sub.up hM rfl)
    | with_reducible apply farError_within (Sub.up hM rfl)
    | with_reducible refine each_within (fun _ _ _ => ?_) ?_

theorem execFarLinkRetry_within {M : Nat} {s0 : State} (hM : Sub 0x11 M) (p : FarPort) (c : CoreId) (tag : TagId) (s : State) (hW : Within M s0 s) :
    ∃ u, execFarLinkRetry p c tag s = .next u ∧ Within M s0 u := by
  unfold execFarLinkRetry
  refine ⟨_, rfl, ?_⟩
  repeat' first
    | with_reducible assumption
    | (intro x
       first
         | (have hx : Within M s0 x := by
              unfold x
              repeat' first
                | with_reducible assumption
                | with_reducible apply Within.ite
                | with_reducible apply bump_within (Sub.up hM rfl)
                | with_reducible apply corrected_within (Sub.up hM rfl)
                | with_reducible apply noteCause_within (Sub.up hM rfl)
                | (with_reducible apply Within.snd <;> [with_reducible assumption; skip])
                | (with_reducible apply Within.fst <;> [with_reducible assumption; skip])
                | (with_reducible apply Within.fst2 <;> [with_reducible assumption; skip])
                | split)
         | skip
       clear_value x)
    | lift_lets -underBinder
    | with_reducible apply Within.ite
    | with_reducible apply bump_within (Sub.up hM rfl)
    | with_reducible apply corrected_within (Sub.up hM rfl)
    | with_reducible apply noteCause_within (Sub.up hM rfl)
    | (with_reducible apply Within.snd <;> [with_reducible assumption; skip])
    | (with_reducible apply Within.fst <;> [with_reducible assumption; skip])
    | (with_reducible apply Within.fst2 <;> [with_reducible assumption; skip])
    | split

theorem execExpanderEventRecord_within {M : Nat} {s0 : State} (hM : Sub 0x310000081 M) (p : FarPort) (record : Word) (s : State) (hW : Within M s0 s) :
    ∃ u, execExpanderEventRecord p record s = .next u ∧ Within M s0 u := by
  unfold execExpanderEventRecord
  refine ⟨_, rfl, ?_⟩
  repeat' first
    | with_reducible assumption
    | with_reducible apply bump_within (Sub.up hM rfl)
    | with_reducible apply raise_within (Sub.up hM rfl)

theorem execBiasChange_within {M : Nat} {s0 : State} (hM : Sub 0x100 M) (first pages : Nat) (host : Bool) (s : State) (hW : Within M s0 s) :
    ∃ u, execBiasChange first pages host s = .next u ∧ Within M s0 u := by
  unfold execBiasChange
  refine ⟨_, rfl, ?_⟩
  repeat' first
    | with_reducible assumption
    | (intro x
       first
         | (have hx : Within M s0 x := by
              unfold x
              repeat' first
                | with_reducible assumption
                | with_reducible apply Within.ite
                | with_reducible refine Within.cache ?_ (Sub.has hM rfl))
         | skip
       clear_value x)
    | lift_lets -underBinder
    | with_reducible apply Within.ite
    | with_reducible refine Within.cache ?_ (Sub.has hM rfl)

theorem countHost_within {M : Nat} {s0 : State} (hM : Sub 0x80 M) (s : State) (a : Nat) (hW : Within M s0 s) : Within M s0 (countHost s a) := by
  unfold countHost
  repeat' first
    | with_reducible assumption
    | with_reducible apply Within.ite
    | with_reducible refine Within.hst ?_ (Sub.has hM rfl)

theorem execCxlMemRequest_within {M : Nat} {s0 : State} (hM : Sub 0x710000f8b M) (dpa : BitVec 52) (data : Option (List Byte)) (o : ReadOutcome) (s : State) (hW : Within M s0 s) :
    ∃ u, execCxlMemRequest dpa data o s = .next u ∧ Within M s0 u := by
  unfold execCxlMemRequest
  refine ⟨_, rfl, ?_⟩
  repeat' first
    | with_reducible assumption
    | (intro x
       first
         | (have hx : Within M s0 x := by
              unfold x
              repeat' first
                | with_reducible assumption
                | with_reducible apply Within.ite
                | with_reducible apply emit_within (Sub.up hM rfl)
                | with_reducible apply readMiss_within (Sub.up hM rfl)
                | with_reducible apply readLine_within (Sub.up hM rfl)
                | with_reducible apply writeLine_within (Sub.up hM rfl)
                | with_reducible apply countHost_within (Sub.up hM rfl)
                | (with_reducible apply Within.snd <;> [with_reducible assumption; skip])
                | (with_reducible apply Within.fst <;> [with_reducible assumption; skip])
                | (with_reducible apply Within.fst2 <;> [with_reducible assumption; skip])
                | split)
         | (have hx : Within M s0 x.1 := by
              unfold x
              repeat' first
                | with_reducible assumption
                | with_reducible apply Within.ite
                | with_reducible apply emit_within (Sub.up hM rfl)
                | with_reducible apply readMiss_within (Sub.up hM rfl)
                | with_reducible apply readLine_within (Sub.up hM rfl)
                | with_reducible apply writeLine_within (Sub.up hM rfl)
                | with_reducible apply countHost_within (Sub.up hM rfl)
                | (with_reducible apply Within.snd <;> [with_reducible assumption; skip])
                | (with_reducible apply Within.fst <;> [with_reducible assumption; skip])
                | (with_reducible apply Within.fst2 <;> [with_reducible assumption; skip])
                | split)
         | (have hx : Within M s0 x.2 := by
              unfold x
              repeat' first
                | with_reducible assumption
                | with_reducible apply Within.ite
                | with_reducible apply emit_within (Sub.up hM rfl)
                | with_reducible apply readMiss_within (Sub.up hM rfl)
                | with_reducible apply readLine_within (Sub.up hM rfl)
                | with_reducible apply writeLine_within (Sub.up hM rfl)
                | with_reducible apply countHost_within (Sub.up hM rfl)
                | (with_reducible apply Within.snd <;> [with_reducible assumption; skip])
                | (with_reducible apply Within.fst <;> [with_reducible assumption; skip])
                | (with_reducible apply Within.fst2 <;> [with_reducible assumption; skip])
                | split)
         | skip
       clear_value x)
    | lift_lets -underBinder
    | with_reducible apply Within.ite
    | with_reducible apply emit_within (Sub.up hM rfl)
    | with_reducible apply readMiss_within (Sub.up hM rfl)
    | with_reducible apply readLine_within (Sub.up hM rfl)
    | with_reducible apply writeLine_within (Sub.up hM rfl)
    | with_reducible apply countHost_within (Sub.up hM rfl)
    | (with_reducible apply Within.snd <;> [with_reducible assumption; skip])
    | (with_reducible apply Within.fst <;> [with_reducible assumption; skip])
    | (with_reducible apply Within.fst2 <;> [with_reducible assumption; skip])
    | split

theorem execHostSnoop_within {M : Nat} {s0 : State} (hM : Sub 0x200000000 M) (_addr : BitVec 52) (s : State) (hW : Within M s0 s) :
    ∃ u, execHostSnoop _addr s = .next u ∧ Within M s0 u := by
  unfold execHostSnoop
  refine ⟨_, rfl, ?_⟩
  repeat' first
    | with_reducible assumption
    | with_reducible apply emit_within (Sub.up hM rfl)

end Sys2Proof.Machine
end

