-- ==== Sys2Proof/Laws/Exec.lean ====
section
/-! SUPPORT. What follows from Laws/Within: the parts a command leaves as they were, the canonical memory, the registers' width, the queue
of waiting commands. -/

namespace Sys2Proof.Machine

open Sys2Proof Sys2Proof.Safety

/-- The bit of a part. -/
def partBit : Part → Nat
  | .regs => 0
  | .mem => 1
  | .clock => 2
  | .pkg => 3
  | .cores => 4
  | .counters => 5
  | .queues => 6
  | .hst => 7
  | .cache => 8
  | .mifs => 9
  | .fars => 10
  | .ports => 11
  | .groups => 12
  | .merges => 13
  | .gapNext => 14
  | .linkPost => 15
  | .lnkCache => 16
  | .unsent => 17
  | .posted => 18
  | .lifelines => 19
  | .llResult => 20
  | .llStatus => 21
  | .drawSkews => 22
  | .correlatedArms => 23
  | .divergenceEvents => 24
  | .power => 25
  | .saves => 26
  | .wear => 27
  | .dict => 28
  | .bg => 29
  | .sat => 30
  | .sec => 31
  | .net => 32
  | .out => 33
  | .freeIdx => 34
  | .pending => 35

/-- The mask of a list of parts. -/
def partMask (l : List Part) (back : Bool) : Nat := l.foldl (fun m p => m ||| 2 ^ partBit p) (if back then 2 ^ 36 else 0)

theorem Within.same {m : Nat} {s t : State} (h : Within m s t) (p : Part) (b : Nat.testBit m (partBit p) = false) : p.same s t := by
  induction h with
  | refl => cases p <;> rfl
  | _ => cases p <;> first | assumption | (exfalso; simp_all [partBit])

theorem partMask_testBit (l : List Part) (back : Bool) (p : Part) : Nat.testBit (partMask l back) (partBit p) = decide (p ∈ l) := by
  have key : ∀ (l : List Part) (m : Nat), Nat.testBit (l.foldl (fun m p => m ||| 2 ^ partBit p) m) (partBit p) = (Nat.testBit m (partBit p) || decide (p ∈ l)) := by
    intro l
    induction l with
    | nil => simp
    | cons q l ih =>
      intro m
      have e : Nat.testBit (2 ^ partBit q) (partBit p) = decide (p = q) := by cases p <;> cases q <;> rfl
      simp [ih, Nat.testBit_or, e, Bool.or_assoc]
  rw [partMask, key]
  have z : Nat.testBit (if back = true then 2 ^ 36 else 0) (partBit p) = false := by cases back <;> cases p <;> rfl
  rw [z, Bool.false_or]

/-- Parts that a change does not name are as they were. -/
theorem Within.onlyParts {l : List Part} {back : Bool} {s t : State} (h : Within (partMask l back) s t) : OnlyParts l s t :=
  fun p hp => h.same p (by simp [partMask_testBit, hp])

theorem Within.memory {m : Nat} {s t : State} (h : Within m s t) (w : MemoryCanonical s) : MemoryCanonical t := by
  induction h with
  | refl => exact w
  | memWrite a l _ _ ih => exact mwriteN_wf l _ a ih
  | memClear p _ _ ih => exact filter_wf p _ ih
  | _ => assumption

theorem Within.registers {m : Nat} {s t : State} (h : Within m s t) (w : RegistersWords s) : RegistersWords t := by
  induction h with
  | refl => exact w
  | regWrite off v _ _ ih =>
    intro p hp
    rcases mem_tset _ _ _ p hp with rfl | hp
    · exact Nat.mod_lt _ (by decide)
    · exact ih p hp
  | regClear q _ _ ih => exact fun p hp => ih p (List.mem_filter.mp hp).1
  | _ => assumption

theorem Within.package {m : Nat} {s t : State} (h : Within m s t) : PkgGrows s.pkg t.pkg := by
  induction h with
  | refl => exact .refl _
  | pkg _ _ g ih => exact ih.trans g
  | _ => assumption

theorem Within.time {m : Nat} {s t : State} (h : Within m s t) (b : Nat.testBit m 36 = false) : s.clock.reftime ≤ t.clock.reftime := by
  induction h with
  | refl => exact Nat.le_refl _
  | clock _ _ g ih => exact Nat.le_trans ih g
  | clockBack _ _ b2 => simp [b] at b2
  | _ => assumption

theorem Within.output {m : Nat} {s t : State} (h : Within m s t) : s.out <:+ t.out := by
  induction h with
  | refl => exact List.suffix_refl _
  | out x _ _ ih => exact ih.trans (List.suffix_cons _ _)
  | _ => assumption

theorem Within.freeRises {m : Nat} {s t : State} (h : Within m s t) : s.freeIdx ≤ t.freeIdx := by
  induction h with
  | refl => exact Nat.le_refl _
  | freeIdx _ _ ih => exact Nat.le_succ_of_le ih
  | _ => assumption

/-- A register that is listed holds a word; so does every register that is read. -/
theorem reg_lt (s : State) (off : Nat) (h : RegistersWords s) (hr : regReset off < 2 ^ 64) : reg s off < 2 ^ 64 :=
  tget_all (· < 2 ^ 64) _ _ _ hr h

/-- No change reaches the queue of waiting commands. -/
theorem Within.queueKept {m : Nat} {s t : State} (h : Within m s t) : t.pending = s.pending := by
  induction h <;> first | rfl | assumption

theorem partMask_back (l : List Part) (back : Bool) : Nat.testBit (partMask l back) 36 = back := by
  have key : ∀ (l : List Part) (m : Nat), Nat.testBit (l.foldl (fun m p => m ||| 2 ^ partBit p) m) 36 = Nat.testBit m 36 := by
    intro l
    induction l with
    | nil => exact fun _ => rfl
    | cons q l ih =>
      intro m
      have e : Nat.testBit (2 ^ partBit q) 36 = false := by cases q <;> rfl
      rw [List.foldl_cons, ih, Nat.testBit_or, e, Bool.or_false]
  rw [partMask, key]
  cases back <;> rfl

/-! What the package loses for good (00 R4; 11 R290). -/

theorem coreActive_mono {s t : State} (g : PkgGrows s.pkg t.pkg) (n : Nat) (h : coreActive s n = false) : coreActive t n = false := by
  unfold coreActive activeMask bit at *
  rw [g.1]
  simp only [Nat.testBit_and, Nat.testBit_xor, Nat.testBit_mod_two_pow] at *
  have k : (s.pkg.fenced ||| t.pkg.fenced).testBit n = t.pkg.fenced.testBit n := by rw [g.2.1]
  rw [Nat.testBit_or] at k
  by_cases hn : n < 64
  · simp only [hn, decide_true, Bool.true_and] at *
    cases hs : s.pkg.fenced.testBit n <;> cases ht : t.pkg.fenced.testBit n <;> simp_all
  · rw [Nat.testBit_two_pow_sub_one, decide_eq_false hn]
    simp

theorem routerFenced_mono {s t : State} (g : PkgGrows s.pkg t.pkg) (d : Nat) (h : routerFenced s d = true) : routerFenced t d = true := by
  unfold routerFenced at *
  simp only [List.contains_iff_mem] at *
  exact g.2.2.1.subset h

theorem connDown_mono {s t : State} (g : PkgGrows s.pkg t.pkg) (d : Nat) (h : s.pkg.connDown.contains d = true) : t.pkg.connDown.contains d = true := by
  simp only [List.contains_iff_mem] at *
  exact g.2.2.2.subset h

theorem fenced_mono {s t : State} (g : PkgGrows s.pkg t.pkg) (n : Nat) (h : bit s.pkg.fenced n = true) : bit t.pkg.fenced n = true := by
  unfold bit at *
  rw [← g.2.1, Nat.testBit_or, h, Bool.true_or]


/-- What each command can do (Laws/Within), and that it goes on. -/
theorem exec_within (c : Instr) (s : State) : ∃ t, exec c s = .next t ∧ Within (partMask (touches c) (startsTime c)) s t := by
  cases c with
  | coreInternalFault x0 => exact execCoreInternalFault_within (M := partMask [.regs, .pkg, .cores, .queues, .hst, .ports, .lifelines, .dict, .net, .out] false) (by decide) x0 s .refl
  | fenceCoreRequest x0 => exact execFenceCoreRequest_within (M := partMask [.regs, .pkg, .cores, .queues, .hst, .ports, .lifelines, .dict, .net, .out] false) (by decide) x0 s .refl
  | routerFault x0 => exact execRouterFault_within (M := partMask [.regs, .pkg, .cores, .queues, .hst, .fars, .ports, .lifelines, .dict, .net, .out] false) (by decide) x0 s .refl
  | ringDieFailure x0 => exact execRingDieFailure_within (M := partMask [.regs, .pkg, .hst, .fars, .ports, .dict, .net, .out] false) (by decide) x0 s .refl
  | ucieModuleFailure x0 x1 => exact execUcieModuleFailure_within (M := partMask [.regs, .pkg, .cores, .queues, .hst, .fars, .ports, .lifelines, .dict, .net, .out] false) (by decide) x0 x1 s .refl
  | adapterRetryExhausted x0 x1 => exact execAdapterRetryExhausted_within (M := partMask [.regs, .pkg, .cores, .queues, .hst, .fars, .ports, .lifelines, .dict, .net, .out] false) (by decide) x0 x1 s .refl
  | stitch x0 x1 => exact execStitch_within (M := partMask [.regs, .mem, .pkg, .cores, .queues, .hst, .cache, .mifs, .fars, .ports, .dict, .net, .out, .freeIdx] false) (by decide) x0 x1 s .refl
  | longStallEvent x0 => exact execLongStallEvent_within (M := partMask [.regs, .cores, .hst, .unsent, .dict, .net, .out] false) (by decide) x0 s .refl
  | governorWindowEnd x0 => exact execGovernorWindowEnd_within (M := partMask [.cores] false) (by decide) x0 s .refl
  | floorCheck x0 => exact execFloorCheck_within (M := partMask [.cores] false) (by decide) x0 s .refl
  | reftimeLoad x0 => exact execReftimeLoad_within (M := partMask [.clock] false) (by decide) x0 s .refl
  | reftimeSlew x0 => exact execReftimeSlew_within (M := partMask [.clock] false) (by decide) x0 s .refl
  | refclkLost => exact execRefclkLost_within (M := partMask [.regs, .clock, .hst, .dict, .net, .out] false) (by decide) s .refl
  | refclkReturn x0 => exact execRefclkReturn_within (M := partMask [.clock] false) (by decide) x0 s .refl
  | reftimeDistribution x0 x1 x2 => exact execReftimeDistribution_within (M := partMask [.regs, .clock, .net] false) (by decide) x0 x1 x2 s .refl
  | compute x0 => exact execCompute_within (M := partMask [.regs, .mem, .pkg, .cores, .counters, .queues, .hst, .cache, .mifs, .fars, .ports, .groups, .merges, .unsent, .posted, .lifelines, .dict, .net, .out, .freeIdx] false) (by decide) x0 s .refl
  | copy x0 => exact execCopy_within (M := partMask [.regs, .mem, .pkg, .cores, .queues, .hst, .cache, .mifs, .fars, .ports, .groups, .merges, .unsent, .posted, .lifelines, .dict, .net, .out, .freeIdx] false) (by decide) x0 s .refl
  | maskLoad x0 => exact execMaskLoad_within (M := partMask [.regs, .mem, .pkg, .cores, .queues, .hst, .cache, .mifs, .fars, .ports, .groups, .merges, .unsent, .posted, .lifelines, .dict, .net, .out, .freeIdx] false) (by decide) x0 s .refl
  | maskFree x0 => exact execMaskFree_within (M := partMask [.regs, .mem, .pkg, .cores, .queues, .hst, .cache, .mifs, .fars, .ports, .groups, .merges, .unsent, .posted, .lifelines, .dict, .net, .out, .freeIdx] false) (by decide) x0 s .refl
  | barrier x0 => exact execBarrier_within (M := partMask [.regs, .mem, .pkg, .cores, .queues, .hst, .cache, .mifs, .fars, .ports, .groups, .merges, .unsent, .posted, .lifelines, .dict, .net, .out, .freeIdx] false) (by decide) x0 s .refl
  | barrierArrival x0 x1 x2 x3 => exact execBarrierArrival_within (M := partMask [.regs, .hst, .net] false) (by decide) x0 x1 x2 x3 s .refl
  | invalidate x0 => exact execInvalidate_within (M := partMask [.regs, .mem, .pkg, .cores, .queues, .hst, .cache, .mifs, .fars, .ports, .groups, .merges, .unsent, .posted, .lifelines, .dict, .net, .out, .freeIdx] false) (by decide) x0 s .refl
  | invalidateComplete x0 => exact execInvalidateComplete_within (M := partMask [.hst] false) (by decide) x0 s .refl
  | nop x0 => exact execNop_within (M := partMask [.regs, .mem, .pkg, .cores, .queues, .hst, .cache, .mifs, .fars, .ports, .groups, .merges, .unsent, .posted, .lifelines, .dict, .net, .out, .freeIdx] false) (by decide) x0 s .refl
  | sqTailDoorbell x0 x1 => exact execSqTailDoorbell_within (M := partMask [.regs, .hst, .dict, .net, .out] false) (by decide) x0 x1 s .refl
  | cqHeadDoorbell x0 x1 => exact execCqHeadDoorbell_within (M := partMask [.regs, .hst, .dict, .net, .out] false) (by decide) x0 x1 s .refl
  | doorbell x0 x1 x2 x3 => exact execDoorbell_within (M := partMask [.regs, .hst, .dict, .net, .out] false) (by decide) x0 x1 x2 x3 s .refl
  | descriptorFetch x0 x1 => exact execDescriptorFetch_within (M := partMask [.regs, .hst] false) (by decide) x0 x1 s .refl
  | dispatch x0 x1 x2 x3 x4 => exact execDispatch_within (M := partMask [.regs, .pkg, .cores, .hst, .cache, .mifs, .fars, .ports, .dict, .net, .out, .freeIdx] false) (by decide) x0 x1 x2 x3 x4 s .refl
  | issueChecks x0 => exact execIssueChecks_within (M := partMask [.regs, .pkg, .cores, .hst, .cache, .mifs, .fars, .ports, .dict, .net, .out, .freeIdx] false) (by decide) x0 s .refl
  | completionReportPassed x0 x1 => exact execCompletionReportPassed_within (M := partMask [.regs, .cores, .counters, .hst, .net] false) (by decide) x0 x1 s .refl
  | completionReportRefused x0 x1 x2 x3 => exact execCompletionReportRefused_within (M := partMask [.regs, .cores, .hst, .net] false) (by decide) x0 x1 x2 x3 s .refl
  | go x0 x1 x2 x3 => exact execGo_within (M := partMask [.regs, .mem, .pkg, .cores, .queues, .hst, .cache, .mifs, .fars, .ports, .dict, .net, .out, .freeIdx] false) (by decide) x0 x1 x2 x3 s .refl
  | wait x0 x1 x2 x3 x4 => exact execWait_within (M := partMask [.regs, .cores, .net] false) (by decide) x0 x1 x2 x3 x4 s .refl
  | completionReportMarkerReached x0 x1 => exact execCompletionReportMarkerReached_within (M := partMask [.regs, .counters, .hst, .net] false) (by decide) x0 x1 s .refl
  | completionReportSpanDone x0 x1 x2 => exact execCompletionReportSpanDone_within (M := partMask [.regs, .mem, .pkg, .cores, .queues, .hst, .cache, .mifs, .fars, .ports, .merges, .lifelines, .dict, .net, .out, .freeIdx] false) (by decide) x0 x1 x2 s .refl
  | completionReportDone x0 x1 => exact execCompletionReportDone_within (M := partMask [.regs, .hst, .net] false) (by decide) x0 x1 s .refl
  | completionWrite x0 => exact execCompletionWrite_within (M := partMask [.regs, .mem, .hst, .cache, .lnkCache, .posted, .net, .out, .freeIdx] false) (by decide) x0 s .refl
  | msixAggregationTimeout x0 => exact execMsixAggregationTimeout_within (M := partMask [.regs, .hst, .out] false) (by decide) x0 s .refl
  | completionReportFault x0 x1 x2 => exact execCompletionReportFault_within (M := partMask [.regs, .cores, .hst, .net] false) (by decide) x0 x1 x2 s .refl
  | abort x0 x1 x2 => exact execAbort_within (M := partMask [.regs, .mem, .cores, .queues, .hst, .ports, .dict, .net, .out] false) (by decide) x0 x1 x2 s .refl
  | cancel x0 x1 x2 => exact execCancel_within (M := partMask [.regs, .mem, .cores, .queues, .hst, .ports, .dict, .net, .out] false) (by decide) x0 x1 x2 s .refl
  | completionReportDrained x0 x1 => exact execCompletionReportDrained_within (M := partMask [.regs, .mem, .hst, .net, .freeIdx] false) (by decide) x0 x1 s .refl
  | completionReportDetection x0 x1 x2 => exact execCompletionReportDetection_within (M := partMask [.regs, .cores, .hst, .net] false) (by decide) x0 x1 x2 s .refl
  | replay x0 x1 x2 x3 => exact execReplay_within (M := partMask [.regs, .mem, .pkg, .cores, .queues, .hst, .cache, .mifs, .fars, .ports, .dict, .net, .out, .freeIdx] false) (by decide) x0 x1 x2 x3 s .refl
  | hstCancel x0 => exact execHstCancel_within (M := partMask [.regs, .cores, .hst, .net] false) (by decide) x0 s .refl
  | arm0 x0 x1 x2 x3 => exact execArm0_within (M := partMask [.regs, .counters, .net] false) (by decide) x0 x1 x2 x3 s .refl
  | arm1 x0 x1 x2 => exact execArm1_within (M := partMask [.regs, .counters, .net] false) (by decide) x0 x1 x2 s .refl
  | arm2 x0 x1 x2 => exact execArm2_within (M := partMask [.regs, .pkg, .cores, .counters, .hst, .cache, .mifs, .fars, .ports, .dict, .net, .out, .freeIdx] false) (by decide) x0 x1 x2 s .refl
  | armed x0 x1 => exact execArmed_within (M := partMask [.regs, .counters, .hst, .net] false) (by decide) x0 x1 s .refl
  | claim x0 x1 x2 => exact execClaim_within (M := partMask [.regs, .counters, .hst, .net] false) (by decide) x0 x1 x2 s .refl
  | answer x0 x1 x2 x3 x4 x5 x6 x7 => exact execAnswer_within (M := partMask [.regs, .mem, .cores, .queues, .hst, .ports, .dict, .net, .out] false) (by decide) x0 x1 x2 x3 x4 x5 x6 x7 s .refl
  | localClaim x0 => exact execLocalClaim_within (M := partMask [.regs, .mem, .cores, .queues, .hst, .ports, .dict, .net, .out] false) (by decide) x0 s .refl
  | owner x0 x1 x2 => exact execOwner_within (M := partMask [.regs, .net] false) (by decide) x0 x1 x2 s .refl
  | ownerAns x0 x1 x2 x3 x4 => exact execOwnerAns_within (M := partMask [.regs, .cores, .net] false) (by decide) x0 x1 x2 x3 x4 s .refl
  | report x0 x1 x2 x3 x4 x5 => exact execReport_within (M := partMask [.regs, .counters, .hst, .net] false) (by decide) x0 x1 x2 x3 x4 x5 s .refl
  | base x0 x1 x2 x3 => exact execBase_within (M := partMask [.regs, .mem, .pkg, .cores, .queues, .hst, .cache, .mifs, .fars, .ports, .dict, .net, .out, .freeIdx] false) (by decide) x0 x1 x2 x3 s .refl
  | rearm x0 x1 x2 => exact execRearm_within (M := partMask [.regs, .counters, .net] false) (by decide) x0 x1 x2 s .refl
  | disarm x0 x1 => exact execDisarm_within (M := partMask [.regs, .counters, .net] false) (by decide) x0 x1 s .refl
  | sendPass x0 => exact execSendPass_within (M := partMask [.regs, .mem, .pkg, .cores, .queues, .hst, .cache, .mifs, .fars, .ports, .dict, .net, .out, .freeIdx] false) (by decide) x0 s .refl
  | foreignAnnouncement x0 x1 x2 x3 => exact execForeignAnnouncement_within (M := partMask [.regs, .cores, .net] false) (by decide) x0 x1 x2 x3 s .refl
  | mergePassStart x0 => exact execMergePassStart_within (M := partMask [.regs, .mem, .pkg, .cores, .queues, .hst, .cache, .mifs, .fars, .ports, .dict, .net, .out, .freeIdx] false) (by decide) x0 s .refl
  | groupCommit x0 => exact execGroupCommit_within (M := partMask [.regs, .mem, .pkg, .cores, .queues, .hst, .cache, .mifs, .fars, .ports, .merges, .lifelines, .dict, .net, .out, .freeIdx] false) (by decide) x0 s .refl
  | auditReport x0 x1 x2 x3 x4 x5 x6 x7 x8 x9 => exact execAuditReport_within (M := partMask [.regs, .mem, .pkg, .hst, .cache, .mifs, .fars, .ports, .dict, .net, .out, .freeIdx] false) (by decide) x0 x1 x2 x3 x4 x5 x6 x7 x8 x9 s .refl
  | fusedBandReady x0 => exact execFusedBandReady_within (M := partMask [.cores] false) (by decide) x0 s .refl
  | spmOpStart x0 x1 => exact execSpmOpStart_within (M := partMask [.regs, .cores] false) (by decide) x0 x1 s .refl
  | spmOpDone x0 => exact execSpmOpDone_within (M := partMask [.regs, .mem, .cores, .queues, .hst, .ports, .dict, .net, .out] false) (by decide) x0 s .refl
  | regionEntryWrite x0 x1 x2 x3 x4 => exact execRegionEntryWrite_within (M := partMask [.regs, .cores] false) (by decide) x0 x1 x2 x3 x4 s .refl
  | windowEntryWrite x0 x1 x2 x3 => exact execWindowEntryWrite_within (M := partMask [.regs, .cores] false) (by decide) x0 x1 x2 x3 s .refl
  | winOpen x0 x1 x2 => exact execWinOpen_within (M := partMask [.regs, .mem, .cores, .queues, .hst, .ports, .dict, .net, .out] false) (by decide) x0 x1 x2 s .refl
  | winClose x0 x1 => exact execWinClose_within (M := partMask [.regs, .mem, .cores, .hst, .dict, .net, .out] false) (by decide) x0 x1 s .refl
  | windowClosed x0 x1 => exact execWindowClosed_within (M := partMask [.regs, .cores] false) (by decide) x0 x1 s .refl
  | stitchMarkerWrite x0 x1 x2 => exact execStitchMarkerWrite_within (M := partMask [.regs, .cores, .net] false) (by decide) x0 x1 x2 s .refl
  | narrowWrite x0 x1 x2 x3 x4 x5 x6 => exact execNarrowWrite_within (M := partMask [.regs, .mem, .cores, .queues, .hst, .ports, .dict, .net, .out] false) (by decide) x0 x1 x2 x3 x4 x5 x6 s .refl
  | gbIdleFlush x0 x1 x2 x3 => exact execGbIdleFlush_within (M := partMask [.regs, .mem, .cores, .hst, .dict, .net, .out] false) (by decide) x0 x1 x2 x3 s .refl
  | spmGbFlush x0 x1 => exact execSpmGbFlush_within (M := partMask [.regs, .mem, .cores, .hst, .dict, .net, .out] false) (by decide) x0 x1 s .refl
  | reloadDone x0 x1 x2 x3 => exact execReloadDone_within (M := partMask [.regs, .mem, .pkg, .cores, .queues, .hst, .cache, .mifs, .fars, .ports, .dict, .net, .out, .freeIdx] false) (by decide) x0 x1 x2 x3 s .refl
  | residentWeightScrub x0 x1 x2 => exact execResidentWeightScrub_within (M := partMask [.regs, .mem, .cores, .queues, .hst, .ports, .dict, .net, .out] false) (by decide) x0 x1 x2 s .refl
  | bankPowerDown x0 x1 x2 => exact execBankPowerDown_within (M := partMask [.regs, .mem, .cores, .hst, .dict, .net, .out] false) (by decide) x0 x1 x2 s .refl
  | bankDrained x0 => exact execBankDrained_within (M := partMask [.regs, .mem, .cores] false) (by decide) x0 s .refl
  | bankDrainTimeout x0 => exact execBankDrainTimeout_within (M := partMask [.regs, .cores, .hst, .dict, .net, .out] false) (by decide) x0 s .refl
  | bankPowerUp x0 x1 x2 => exact execBankPowerUp_within (M := partMask [.regs, .cores] false) (by decide) x0 x1 x2 s .refl
  | bankPowerUpDone x0 => exact execBankPowerUpDone_within (M := partMask [.regs, .mem, .cores] false) (by decide) x0 s .refl
  | tagIssue x0 => exact execTagIssue_within (M := partMask [.regs, .mem, .cores, .queues, .hst, .ports, .dict, .net, .out] false) (by decide) x0 s .refl
  | smallTransferHoldEnd x0 => exact execSmallTransferHoldEnd_within (M := partMask [.cores] false) (by decide) x0 s .refl
  | class3Promotion x0 => exact execClass3Promotion_within (M := partMask [.regs, .mem, .cores, .queues, .hst, .ports, .dict, .net, .out] false) (by decide) x0 s .refl
  | readRequest x0 x1 x2 x3 x4 x5 => exact execReadRequest_within (M := partMask [.regs, .mem, .pkg, .cores, .queues, .hst, .cache, .mifs, .fars, .ports, .dict, .net, .out, .freeIdx] false) (by decide) x0 x1 x2 x3 x4 x5 s .refl
  | readData x0 x1 x2 x3 x4 x5 x6 => exact execReadData_within (M := partMask [.regs, .mem, .pkg, .cores, .queues, .hst, .cache, .mifs, .fars, .ports, .dict, .net, .out, .freeIdx] false) (by decide) x0 x1 x2 x3 x4 x5 x6 s .refl
  | bulkWrite x0 x1 x2 x3 x4 x5 => exact execBulkWrite_within (M := partMask [.regs, .mem, .pkg, .cores, .queues, .hst, .cache, .mifs, .fars, .ports, .dict, .net, .out, .freeIdx] false) (by decide) x0 x1 x2 x3 x4 x5 s .refl
  | accumulateWrite x0 x1 x2 x3 x4 x5 => exact execAccumulateWrite_within (M := partMask [.regs, .mem, .pkg, .cores, .queues, .hst, .cache, .mifs, .fars, .ports, .dict, .net, .out, .freeIdx] false) (by decide) x0 x1 x2 x3 x4 x5 s .refl
  | writeAcknowledge x0 x1 x2 => exact execWriteAcknowledge_within (M := partMask [.regs, .mem, .cores, .queues, .hst, .ports, .dict, .net, .out] false) (by decide) x0 x1 x2 s .refl
  | negativeAcknowledge x0 x1 x2 x3 x4 => exact execNegativeAcknowledge_within (M := partMask [.regs, .mem, .cores, .queues, .hst, .ports, .dict, .net, .out] false) (by decide) x0 x1 x2 x3 x4 s .refl
  | registerWrite x0 x1 x2 => exact execRegisterWrite_within (M := partMask [.regs, .mem, .clock, .pkg, .cores, .queues, .hst, .cache, .mifs, .fars, .ports, .groups, .merges, .linkPost, .lnkCache, .unsent, .posted, .lifelines, .llResult, .llStatus, .drawSkews, .power, .dict, .sec, .net, .out, .freeIdx] false) (by decide) x0 x1 x2 s .refl
  | registerRead x0 x1 => exact execRegisterRead_within (M := partMask [.regs, .net] false) (by decide) x0 x1 s .refl
  | registerData x0 x1 x2 => exact execRegisterData_within (M := partMask [.regs, .net, .out] false) (by decide) x0 x1 x2 s .refl
  | bulkPacketHop x0 x1 x2 x3 x4 x5 => exact execBulkPacketHop_within (M := partMask [.regs, .cores, .net] false) (by decide) x0 x1 x2 x3 x4 x5 s .refl
  | endToEndAcknowledge x0 x1 x2 x3 => exact execEndToEndAcknowledge_within (M := partMask [.net] false) (by decide) x0 x1 x2 x3 s .refl
  | bulkResendTimeout x0 x1 x2 => exact execBulkResendTimeout_within (M := partMask [.regs, .cores, .net] false) (by decide) x0 x1 x2 s .refl
  | chainAck x0 x1 x2 => exact execChainAck_within (M := partMask [.net] false) (by decide) x0 x1 x2 s .refl
  | chainResendTimeout x0 x1 x2 => exact execChainResendTimeout_within (M := partMask [.net] false) (by decide) x0 x1 x2 s .refl
  | fence x0 x1 x2 x3 => exact execFence_within (M := partMask [.regs, .mem, .pkg, .cores, .queues, .hst, .fars, .ports, .lifelines, .dict, .net, .out] false) (by decide) x0 x1 x2 x3 s .refl
  | routeWrite x0 x1 x2 x3 x4 => exact execRouteWrite_within (M := partMask [.regs, .pkg, .net] false) (by decide) x0 x1 x2 x3 x4 s .refl
  | configWrite x0 x1 x2 x3 x4 x5 => exact execConfigWrite_within (M := partMask [.regs, .dict, .net] false) (by decide) x0 x1 x2 x3 x4 x5 s .refl
  | configRead x0 x1 x2 x3 x4 => exact execConfigRead_within (M := partMask [.regs, .net] false) (by decide) x0 x1 x2 x3 x4 s .refl
  | configData x0 x1 x2 x3 x4 => exact execConfigData_within (M := partMask [.regs, .dict, .net] false) (by decide) x0 x1 x2 x3 x4 s .refl
  | configDone x0 x1 x2 x3 => exact execConfigDone_within (M := partMask [.regs, .dict, .net] false) (by decide) x0 x1 x2 x3 s .refl
  | freeze x0 x1 x2 => exact execFreeze_within (M := partMask [.regs, .dict, .net] false) (by decide) x0 x1 x2 s .refl
  | activate x0 x1 x2 => exact execActivate_within (M := partMask [.regs, .dict, .net] false) (by decide) x0 x1 x2 s .refl
  | event x0 x1 x2 x3 => exact execEvent_within (M := partMask [.regs, .hst, .dict, .net, .out] false) (by decide) x0 x1 x2 x3 s .refl
  | queueCredit x0 x1 x2 x3 => exact execQueueCredit_within (M := partMask [.regs, .mem, .pkg, .cores, .queues, .hst, .cache, .mifs, .fars, .ports, .merges, .lifelines, .dict, .net, .out, .freeIdx] false) (by decide) x0 x1 x2 x3 s .refl
  | queueEnable x0 x1 => exact execQueueEnable_within (M := partMask [.regs, .cores, .queues] false) (by decide) x0 x1 s .refl
  | openPacket x0 x1 => exact execOpenPacket_within (M := partMask [.regs, .mem, .cores, .queues, .hst, .ports, .dict, .net, .out, .freeIdx] false) (by decide) x0 x1 s .refl
  | data x0 x1 x2 => exact execData_within (M := partMask [.regs, .mem, .cores, .queues, .hst, .ports, .dict, .net, .out, .freeIdx] false) (by decide) x0 x1 x2 s .refl
  | close x0 x1 => exact execClose_within (M := partMask [.regs, .mem, .cores, .queues, .hst, .ports, .dict, .net, .out, .freeIdx] false) (by decide) x0 x1 s .refl
  | packetReadable x0 => exact execPacketReadable_within (M := partMask [.regs, .mem, .cores, .queues, .hst, .dict, .net, .out] false) (by decide) x0 s .refl
  | markerQuietTimeout x0 => exact execMarkerQuietTimeout_within (M := partMask [.regs, .mem, .cores, .queues] false) (by decide) x0 s .refl
  | discard x0 x1 => exact execDiscard_within (M := partMask [.regs, .mem, .pkg, .cores, .queues, .hst, .cache, .mifs, .fars, .ports, .merges, .lifelines, .dict, .net, .out, .freeIdx] false) (by decide) x0 x1 s .refl
  | queueFlush x0 => exact execQueueFlush_within (M := partMask [.regs, .mem, .pkg, .cores, .queues, .hst, .cache, .mifs, .fars, .ports, .merges, .lifelines, .dict, .net, .out, .freeIdx] false) (by decide) x0 s .refl
  | queueRelease x0 x1 => exact execQueueRelease_within (M := partMask [.regs, .mem, .pkg, .cores, .queues, .hst, .cache, .mifs, .fars, .ports, .merges, .lifelines, .dict, .net, .out, .freeIdx] false) (by decide) x0 x1 s .refl
  | translationWalk x0 x1 x2 x3 => exact execTranslationWalk_within (M := partMask [.regs, .mem, .cores, .queues, .hst, .ports, .dict, .net, .out] false) (by decide) x0 x1 x2 x3 s .refl
  | retrainInterval x0 x1 => exact execRetrainInterval_within (M := partMask [.regs, .mifs] false) (by decide) x0 x1 s .refl
  | retrainTemperature x0 x1 x2 => exact execRetrainTemperature_within (M := partMask [.regs, .mifs, .power] false) (by decide) x0 x1 x2 s .refl
  | retrainCrcCount x0 x1 => exact execRetrainCrcCount_within (M := partMask [.regs, .mifs] false) (by decide) x0 x1 s .refl
  | retrainDone x0 => exact execRetrainDone_within (M := partMask [.regs, .mifs] false) (by decide) x0 s .refl
  | nearTierScrub x0 x1 => exact execNearTierScrub_within (M := partMask [.regs, .pkg, .hst, .mifs, .fars, .ports, .dict, .net, .out] false) (by decide) x0 x1 s .refl
  | farCompletionTimeout x0 x1 x2 => exact execFarCompletionTimeout_within (M := partMask [.regs, .net] false) (by decide) x0 x1 x2 s .refl
  | farLinkDown x0 => exact execFarLinkDown_within (M := partMask [.fars, .net] false) (by decide) x0 s .refl
  | farLinkRetry x0 x1 x2 => exact execFarLinkRetry_within (M := partMask [.regs, .cores] false) (by decide) x0 x1 x2 s .refl
  | expanderEventRecord x0 x1 => exact execExpanderEventRecord_within (M := partMask [.regs, .hst, .dict, .net, .out] false) (by decide) x0 x1 s .refl
  | biasChange x0 x1 x2 => exact execBiasChange_within (M := partMask [.cache] false) (by decide) x0 x1 x2 s .refl
  | limundTrainingStart x0 => exact execLimundTrainingStart_within (M := partMask [.ports] false) (by decide) x0 s .refl
  | limundTrainingDone x0 x1 x2 => exact execLimundTrainingDone_within (M := partMask [.regs, .cores, .hst, .ports, .unsent, .net] false) (by decide) x0 x1 x2 s .refl
  | linkMgmt x0 x1 x2 x3 x4 x5 x6 => exact execLinkMgmt_within (M := partMask [.regs, .cores, .hst, .ports, .unsent, .dict, .net, .out] false) (by decide) x0 x1 x2 x3 x4 x5 x6 s .refl
  | configTimeout x0 => exact execConfigTimeout_within (M := partMask [.ports] false) (by decide) x0 s .refl
  | downRetryTimer x0 => exact execDownRetryTimer_within (M := partMask [.ports] false) (by decide) x0 s .refl
  | retrainEntry x0 => exact execRetrainEntry_within (M := partMask [.regs, .ports] false) (by decide) x0 s .refl
  | retrainEqualised x0 => exact execRetrainEqualised_within (M := partMask [.cores, .hst, .ports, .unsent, .net] false) (by decide) x0 s .refl
  | retrainTimeout x0 => exact execRetrainTimeout_within (M := partMask [.cores, .hst, .ports, .unsent, .net] false) (by decide) x0 s .refl
  | frameReceive x0 x1 x2 => exact execFrameReceive_within (M := partMask [.regs, .mem, .pkg, .cores, .queues, .hst, .cache, .mifs, .fars, .ports, .groups, .merges, .lnkCache, .lifelines, .dict, .net, .out, .freeIdx] false) (by decide) x0 x1 x2 s .refl
  | frameReplay x0 x1 => exact execFrameReplay_within (M := partMask [.ports, .out] false) (by decide) x0 x1 s .refl
  | flitSelect x0 => exact execFlitSelect_within (M := partMask [.regs, .mem, .pkg, .cores, .queues, .hst, .cache, .mifs, .fars, .ports, .groups, .dict, .net, .out, .freeIdx] false) (by decide) x0 s .refl
  | strandEntryFill x0 x1 => exact execStrandEntryFill_within (M := partMask [.regs, .mem, .pkg, .cores, .queues, .hst, .cache, .mifs, .fars, .ports, .groups, .merges, .lnkCache, .lifelines, .dict, .net, .out, .freeIdx] false) (by decide) x0 x1 s .refl
  | lnkSendPost x0 x1 x2 => exact execLnkSendPost_within (M := partMask [.regs, .mem, .pkg, .cores, .queues, .hst, .cache, .mifs, .fars, .ports, .groups, .merges, .lnkCache, .unsent, .posted, .lifelines, .dict, .net, .out, .freeIdx] false) (by decide) x0 x1 x2 s .refl
  | sendAcknowledged x0 => exact execSendAcknowledged_within (M := partMask [.regs, .mem, .pkg, .cores, .queues, .hst, .cache, .mifs, .fars, .ports, .groups, .merges, .unsent, .posted, .lifelines, .dict, .net, .out, .freeIdx] false) (by decide) x0 s .refl
  | credit x0 x1 x2 x3 => exact execCredit_within (M := partMask [.hst] false) (by decide) x0 x1 x2 x3 s .refl
  | nack x0 x1 x2 x3 x4 x5 => exact execNack_within (M := partMask [.regs, .mem, .pkg, .cores, .queues, .hst, .cache, .mifs, .fars, .ports, .groups, .merges, .unsent, .posted, .lifelines, .dict, .net, .out, .freeIdx] false) (by decide) x0 x1 x2 x3 x4 x5 s .refl
  | digest x0 x1 x2 => exact execDigest_within (M := partMask [.regs, .hst, .ports, .divergenceEvents, .dict, .net, .out] false) (by decide) x0 x1 x2 s .refl
  | digestTimer x0 => exact execDigestTimer_within (M := partMask [.ports] false) (by decide) x0 s .refl
  | epochDisagreementTimeout x0 => exact execEpochDisagreementTimeout_within (M := partMask [.regs, .hst, .ports, .divergenceEvents, .dict, .net, .out] false) (by decide) x0 s .refl
  | time x0 x1 => exact execTime_within (M := partMask [.regs] false) (by decide) x0 x1 s .refl
  | timeTimer x0 => exact execTimeTimer_within (M := partMask [.ports] false) (by decide) x0 s .refl
  | limundPortDown x0 => exact execLimundPortDown_within (M := partMask [.cores, .hst, .ports, .unsent, .net] false) (by decide) x0 s .refl
  | mcastAck x0 x1 x2 => exact execMcastAck_within (M := partMask [.groups] false) (by decide) x0 x1 x2 s .refl
  | detachTimeout x0 => exact execDetachTimeout_within (M := partMask [.regs, .ports, .groups] false) (by decide) x0 s .refl
  | detach x0 x1 x2 x3 => exact execDetach_within (M := partMask [.regs, .hst, .ports, .groups, .gapNext, .dict, .net, .out] false) (by decide) x0 x1 x2 x3 s .refl
  | recover x0 x1 x2 x3 x4 => exact execRecover_within (M := partMask [.regs, .hst, .ports] false) (by decide) x0 x1 x2 x3 x4 s .refl
  | lost x0 x1 x2 x3 x4 => exact execLost_within (M := partMask [.regs, .mem, .cores, .queues, .ports, .groups] false) (by decide) x0 x1 x2 x3 x4 s .refl
  | mergeContextOpen x0 x1 x2 => exact execMergeContextOpen_within (M := partMask [.regs, .merges] false) (by decide) x0 x1 x2 s .refl
  | mergeEntryEmit x0 x1 => exact execMergeEntryEmit_within (M := partMask [.regs, .mem, .pkg, .cores, .queues, .hst, .cache, .mifs, .fars, .ports, .groups, .merges, .unsent, .posted, .lifelines, .dict, .net, .out, .freeIdx] false) (by decide) x0 x1 s .refl
  | strandActivate x0 => exact execStrandActivate_within (M := partMask [.regs, .mem, .hst, .lnkCache] false) (by decide) x0 s .refl
  | strandUpdate x0 => exact execStrandUpdate_within (M := partMask [.regs, .mem, .hst, .lnkCache] false) (by decide) x0 s .refl
  | strandFlush x0 => exact execStrandFlush_within (M := partMask [.regs, .mem, .hst] false) (by decide) x0 s .refl
  | strandRelease x0 => exact execStrandRelease_within (M := partMask [.regs, .mem, .cores, .hst, .lnkCache, .net] false) (by decide) x0 s .refl
  | strandCacheMiss x0 => exact execStrandCacheMiss_within (M := partMask [.regs, .mem, .hst] false) (by decide) x0 s .refl
  | queuePairEnable x0 x1 x2 => exact execQueuePairEnable_within (M := partMask [.regs, .hst] false) (by decide) x0 x1 x2 s .refl
  | apertureWrite x0 x1 x2 => exact execApertureWrite_within (M := partMask [.regs, .mem, .cores, .queues, .hst, .ports, .dict, .net, .out] false) (by decide) x0 x1 x2 s .refl
  | configRequest x0 => exact execConfigRequest_within (M := partMask [.out] false) (by decide) x0 s .refl
  | dictRequest x0 x1 x2 => exact execDictRequest_within (M := partMask [.regs, .clock, .pkg, .cores, .queues, .hst, .ports, .lifelines, .dict, .sec, .net, .out, .freeIdx] false) (by decide) x0 x1 x2 s .refl
  | eventRead x0 => exact execEventRead_within (M := partMask [.out] false) (by decide) x0 s .refl
  | mailboxUnsupported x0 => exact execMailboxUnsupported_within (M := partMask [.out] false) (by decide) x0 s .refl
  | identify => exact execIdentify_within (M := partMask [.out] false) (by decide) s .refl
  | getEventRecords => exact execGetEventRecords_within (M := partMask [.out, .freeIdx] false) (by decide) s .refl
  | getFwInfo => exact execGetFwInfo_within (M := partMask [.out] false) (by decide) s .refl
  | timestamp x0 => exact execTimestamp_within (M := partMask [.hst, .out] false) (by decide) x0 s .refl
  | getLog x0 x1 => exact execGetLog_within (M := partMask [.out, .freeIdx] false) (by decide) x0 x1 s .refl
  | transferFw x0 x1 x2 x3 => exact execTransferFw_within (M := partMask [.sec, .out] false) (by decide) x0 x1 x2 x3 s .refl
  | activateFw x0 x1 => exact execActivateFw_within (M := partMask [.sec, .out] false) (by decide) x0 x1 s .refl
  | read x0 x1 x2 x3 x4 => exact execRead_within (M := partMask [.regs, .clock, .pkg, .cores, .queues, .hst, .ports, .lifelines, .dict, .sec, .net, .out, .freeIdx] false) (by decide) x0 x1 x2 x3 x4 s .refl
  | write x0 x1 x2 x3 x4 => exact execWrite_within (M := partMask [.regs, .clock, .pkg, .cores, .queues, .hst, .ports, .lifelines, .dict, .sec, .net, .out, .freeIdx] false) (by decide) x0 x1 x2 x3 x4 s .refl
  | segRead x0 x1 x2 x3 x4 => exact execSegRead_within (M := partMask [.regs, .clock, .pkg, .cores, .queues, .hst, .ports, .lifelines, .dict, .sec, .net, .out, .freeIdx] false) (by decide) x0 x1 x2 x3 x4 s .refl
  | segWrite x0 x1 x2 x3 x4 x5 => exact execSegWrite_within (M := partMask [.regs, .clock, .pkg, .cores, .queues, .hst, .ports, .lifelines, .dict, .sec, .net, .out, .freeIdx] false) (by decide) x0 x1 x2 x3 x4 x5 s .refl
  | next x0 x1 x2 x3 => exact execNext_within (M := partMask [.regs, .clock, .pkg, .cores, .queues, .hst, .ports, .lifelines, .dict, .sec, .net, .out, .freeIdx] false) (by decide) x0 x1 x2 x3 s .refl
  | dictWindowGo => exact execDictWindowGo_within (M := partMask [.regs, .clock, .pkg, .cores, .queues, .hst, .ports, .lifelines, .dict, .sec, .net, .out, .freeIdx] false) (by decide) s .refl
  | tdpFrameReceive x0 x1 x2 x3 x4 x5 x6 => exact execTdpFrameReceive_within (M := partMask [.regs, .clock, .pkg, .cores, .queues, .hst, .ports, .lifelines, .dict, .sec, .net, .out, .freeIdx] false) (by decide) x0 x1 x2 x3 x4 x5 x6 s .refl
  | heartbeat => exact execHeartbeat_within (M := partMask [.dict, .out] false) (by decide) s .refl
  | heartbeatReceived x0 x1 x2 x3 x4 x5 => exact execHeartbeatReceived_within (M := partMask [.regs, .clock, .hst, .dict, .net, .out] false) (by decide) x0 x1 x2 x3 x4 x5 s .refl
  | epochArm x0 => exact execEpochArm_within (M := partMask [.dict] false) (by decide) x0 s .refl
  | epochDisarm => exact execEpochDisarm_within (M := partMask [.dict] false) (by decide) s .refl
  | epochFreeze => exact execEpochFreeze_within (M := partMask [.regs, .hst, .dict, .net, .out] false) (by decide) s .refl
  | epochActivation => exact execEpochActivation_within (M := partMask [.regs, .hst, .ports, .divergenceEvents, .dict, .net, .out] false) (by decide) s .refl
  | backgroundPeriod x0 => exact execBackgroundPeriod_within (M := partMask [.regs, .hst, .dict, .bg, .net, .out] false) (by decide) x0 s .refl
  | agingMonitorSweep x0 => exact execAgingMonitorSweep_within (M := partMask [.wear] false) (by decide) x0 s .refl
  | eyeMonitorScan x0 x1 x2 => exact execEyeMonitorScan_within (M := partMask [.regs, .ports] false) (by decide) x0 x1 x2 s .refl
  | mramWearLevel x0 => exact execMramWearLevel_within (M := partMask [.wear] false) (by decide) x0 s .refl
  | telemetrySample x0 => exact execTelemetrySample_within (M := partMask [.sat] false) (by decide) x0 s .refl
  | saturationSubperiod x0 => exact execSaturationSubperiod_within (M := partMask [.sat] false) (by decide) x0 s .refl
  | saturationWindowEnd => exact execSaturationWindowEnd_within (M := partMask [.regs, .hst, .cache, .dict, .sat, .net, .out] false) (by decide) s .refl
  | inputValid x0 x1 => exact execInputValid_within (M := partMask [.clock, .power, .sec] true) (by decide) x0 x1 s .refl
  | busOff => exact execBusOff_within (M := partMask [.regs, .mem, .clock, .pkg, .cores, .counters, .queues, .hst, .cache, .mifs, .fars, .ports, .groups, .merges, .gapNext, .linkPost, .lnkCache, .unsent, .posted, .lifelines, .llResult, .llStatus, .drawSkews, .correlatedArms, .divergenceEvents, .power, .dict, .bg, .sat, .sec, .net, .freeIdx] true) (by decide) s .refl
  | sagWarning x0 x1 => exact execSagWarning_within (M := partMask [.regs, .power] false) (by decide) x0 x1 s .refl
  | sagWarningClear x0 => exact execSagWarningClear_within (M := partMask [.power] false) (by decide) x0 s .refl
  | throttleNAssert => exact execThrottleNAssert_within (M := partMask [.power] false) (by decide) s .refl
  | throttleNDeassert => exact execThrottleNDeassert_within (M := partMask [.power] false) (by decide) s .refl
  | powerWindow x0 x1 x2 x3 => exact execPowerWindow_within (M := partMask [.power] false) (by decide) x0 x1 x2 x3 s .refl
  | thermalThrottle x0 x1 x2 => exact execThermalThrottle_within (M := partMask [.cores, .power] false) (by decide) x0 x1 x2 s .refl
  | thermalOvervoltTrip x0 x1 x2 => exact execThermalOvervoltTrip_within (M := partMask [.regs, .mem, .clock, .pkg, .cores, .counters, .queues, .hst, .cache, .mifs, .fars, .ports, .groups, .merges, .gapNext, .linkPost, .lnkCache, .unsent, .posted, .lifelines, .power, .saves, .wear, .dict, .sec, .net, .out] false) (by decide) x0 x1 x2 s .refl
  | bindOff x0 => exact execBindOff_within (M := partMask [.regs, .mem, .clock, .pkg, .cores, .counters, .queues, .hst, .cache, .mifs, .fars, .ports, .groups, .merges, .gapNext, .linkPost, .lnkCache, .unsent, .posted, .lifelines, .power, .saves, .wear, .dict, .sec, .net, .out] false) (by decide) x0 s .refl
  | saveComplete => exact execSaveComplete_within (M := partMask [.power, .saves] false) (by decide) s .refl
  | haltedRestart x0 => exact execHaltedRestart_within (M := partMask [.power, .sec] false) (by decide) x0 s .refl
  | castOnStageComplete x0 x1 x2 x3 => exact execCastOnStageComplete_within (M := partMask [.regs, .mem, .pkg, .cores, .queues, .hst, .mifs, .fars, .ports, .lifelines, .power, .saves, .dict, .bg, .sec, .net, .out] false) (by decide) x0 x1 x2 x3 s .refl
  | castOnStageFail x0 x1 x2 => exact execCastOnStageFail_within (M := partMask [.regs, .hst, .mifs, .power, .dict, .net, .out] false) (by decide) x0 x1 x2 s .refl
  | perstNAssert x0 x1 => exact execPerstNAssert_within (M := partMask [.regs, .mem, .clock, .pkg, .cores, .counters, .queues, .hst, .cache, .mifs, .fars, .ports, .groups, .merges, .gapNext, .linkPost, .lnkCache, .unsent, .posted, .lifelines, .power, .dict, .sec, .net, .out] false) (by decide) x0 x1 s .refl
  | perstNDeassert => exact execPerstNDeassert_within (M := partMask [.power] false) (by decide) s .refl
  | inputChatter x0 => exact execInputChatter_within (M := partMask [.regs, .mem, .clock, .pkg, .cores, .counters, .queues, .hst, .cache, .mifs, .fars, .ports, .groups, .merges, .gapNext, .linkPost, .lnkCache, .unsent, .posted, .lifelines, .power, .dict, .sec, .net, .out] false) (by decide) x0 s .refl
  | inputHeld x0 => exact execInputHeld_within (M := partMask [.regs, .hst, .power, .dict, .net, .out] false) (by decide) x0 s .refl
  | mgtInputClear x0 x1 => exact execMgtInputClear_within (M := partMask [.power] false) (by decide) x0 x1 s .refl
  | pwrEnConnect => exact execPwrEnConnect_within (M := partMask [.power] false) (by decide) s .refl
  | bankCharged x0 x1 => exact execBankCharged_within (M := partMask [.power] false) (by decide) x0 x1 s .refl
  | arm x0 => exact execArm_within (M := partMask [.regs, .mem, .pkg, .cores, .queues, .hst, .cache, .mifs, .fars, .ports, .groups, .merges, .unsent, .posted, .lifelines, .llResult, .llStatus, .dict, .net, .out, .freeIdx] false) (by decide) x0 s .refl
  | hold x0 => exact execHold_within (M := partMask [.mem, .lifelines, .llResult, .llStatus] false) (by decide) x0 s .refl
  | lifelineDisarm x0 => exact execLifelineDisarm_within (M := partMask [.mem, .lifelines, .llResult, .llStatus] false) (by decide) x0 s .refl
  | restore x0 => exact execRestore_within (M := partMask [.regs, .mem, .hst, .lifelines, .llResult, .llStatus, .drawSkews, .dict, .net, .out] false) (by decide) x0 s .refl
  | armReq x0 x1 x2 x3 => exact execArmReq_within (M := partMask [.regs, .mem, .pkg, .cores, .queues, .hst, .cache, .mifs, .fars, .ports, .groups, .merges, .unsent, .posted, .lifelines, .dict, .net, .out, .freeIdx] false) (by decide) x0 x1 x2 x3 s .refl
  | armAck x0 x1 x2 x3 => exact execArmAck_within (M := partMask [.regs, .mem, .cores, .queues, .hst, .ports, .merges, .lifelines, .llResult, .llStatus, .correlatedArms, .dict, .net, .out, .freeIdx] false) (by decide) x0 x1 x2 x3 s .refl
  | armTimeout x0 => exact execArmTimeout_within (M := partMask [.mem, .lifelines, .llResult, .llStatus] false) (by decide) x0 s .refl
  | mark x0 x1 x2 x3 x4 x5 => exact execMark_within (M := partMask [.regs, .mem, .pkg, .cores, .queues, .hst, .cache, .mifs, .fars, .ports, .lifelines, .dict, .net, .out, .freeIdx] false) (by decide) x0 x1 x2 x3 x4 x5 s .refl
  | payload x0 x1 x2 => exact execPayload_within (M := partMask [.regs, .mem, .pkg, .cores, .queues, .hst, .cache, .mifs, .fars, .ports, .groups, .merges, .unsent, .posted, .lifelines, .dict, .net, .out, .freeIdx] false) (by decide) x0 x1 x2 s .refl
  | commit x0 x1 x2 x3 => exact execCommit_within (M := partMask [.regs, .mem, .pkg, .cores, .queues, .hst, .cache, .mifs, .fars, .ports, .groups, .merges, .unsent, .posted, .lifelines, .llResult, .llStatus, .dict, .net, .out, .freeIdx] false) (by decide) x0 x1 x2 x3 s .refl
  | lifelineBroken x0 => exact execLifelineBroken_within (M := partMask [.regs, .mem, .cores, .hst, .lifelines, .llResult, .llStatus, .dict, .net, .out] false) (by decide) x0 s .refl
  | fwCommit => exact execFwCommit_within (M := partMask [.sec] false) (by decide) s .refl
  | burnComplete => exact execBurnComplete_within (M := partMask [.regs, .hst, .dict, .sec, .net, .out] false) (by decide) s .refl
  | unlockNonce => exact execUnlockNonce_within (M := partMask [.sec, .freeIdx] false) (by decide) s .refl
  | unlockResponse x0 x1 x2 x3 x4 => exact execUnlockResponse_within (M := partMask [.regs, .hst, .dict, .sec, .net, .out] false) (by decide) x0 x1 x2 x3 x4 s .refl
  | unlockExpiry => exact execUnlockExpiry_within (M := partMask [.regs, .hst, .dict, .sec, .net, .out] false) (by decide) s .refl
  | relock => exact execRelock_within (M := partMask [.regs, .hst, .dict, .sec, .net, .out] false) (by decide) s .refl
  | aliasLmsRenewal => exact execAliasLmsRenewal_within (M := partMask [.regs, .hst, .dict, .sec, .net, .out] false) (by decide) s .refl
  | tmuxSelect x0 x1 => exact execTmuxSelect_within (M := partMask [.sec] false) (by decide) x0 x1 s .refl
  | getVersion x0 => exact execGetVersion_within (M := partMask [.sec, .out] false) (by decide) x0 s .refl
  | getCapabilities x0 => exact execGetCapabilities_within (M := partMask [.sec, .out] false) (by decide) x0 s .refl
  | negotiateAlgorithms x0 x1 => exact execNegotiateAlgorithms_within (M := partMask [.sec, .out] false) (by decide) x0 x1 s .refl
  | getDigests x0 => exact execGetDigests_within (M := partMask [.sec, .out] false) (by decide) x0 s .refl
  | getCertificate x0 x1 x2 x3 => exact execGetCertificate_within (M := partMask [.sec, .out] false) (by decide) x0 x1 x2 x3 s .refl
  | challenge x0 x1 x2 => exact execChallenge_within (M := partMask [.sec, .out] false) (by decide) x0 x1 x2 s .refl
  | getMeasurements x0 x1 x2 x3 => exact execGetMeasurements_within (M := partMask [.sec, .out] false) (by decide) x0 x1 x2 x3 s .refl
  | getLmsSignature x0 => exact execGetLmsSignature_within (M := partMask [.regs, .hst, .dict, .sec, .net, .out] false) (by decide) x0 s .refl
  | corePaceClear x0 x1 => exact execCorePaceClear_within (M := partMask [.regs] false) (by decide) x0 x1 s .refl
  | coreNumClear x0 x1 => exact execCoreNumClear_within (M := partMask [.regs] false) (by decide) x0 x1 s .refl
  | coreFmtClear x0 x1 => exact execCoreFmtClear_within (M := partMask [.regs] false) (by decide) x0 x1 s .refl
  | coreLaneClear x0 x1 => exact execCoreLaneClear_within (M := partMask [.regs] false) (by decide) x0 x1 s .refl
  | coreAccClear x0 x1 => exact execCoreAccClear_within (M := partMask [.regs] false) (by decide) x0 x1 s .refl
  | coreRfuClear x0 x1 => exact execCoreRfuClear_within (M := partMask [.regs] false) (by decide) x0 x1 s .refl
  | spmClear x0 x1 => exact execSpmClear_within (M := partMask [.regs, .cores] false) (by decide) x0 x1 s .refl
  | loopClear x0 x1 => exact execLoopClear_within (M := partMask [.regs] false) (by decide) x0 x1 s .refl
  | fetClear x0 x1 => exact execFetClear_within (M := partMask [.regs] false) (by decide) x0 x1 s .refl
  | queClear x0 x1 => exact execQueClear_within (M := partMask [.regs] false) (by decide) x0 x1 s .refl
  | lceClear x0 x1 => exact execLceClear_within (M := partMask [.regs] false) (by decide) x0 x1 s .refl
  | mifClear x0 x1 => exact execMifClear_within (M := partMask [.regs] false) (by decide) x0 x1 s .refl
  | farClear x0 x1 => exact execFarClear_within (M := partMask [.regs] false) (by decide) x0 x1 s .refl
  | coreXltClear x0 x1 => exact execCoreXltClear_within (M := partMask [.regs] false) (by decide) x0 x1 s .refl
  | mgtRtrClear x0 x1 => exact execMgtRtrClear_within (M := partMask [.regs] false) (by decide) x0 x1 s .refl
  | lnkPortClear x0 x1 => exact execLnkPortClear_within (M := partMask [.regs] false) (by decide) x0 x1 s .refl
  | lnkDieClear x0 x1 => exact execLnkDieClear_within (M := partMask [.regs] false) (by decide) x0 x1 s .refl
  | hstClear x0 => exact execHstClear_within (M := partMask [.regs] false) (by decide) x0 s .refl
  | mgtLlClear x0 => exact execMgtLlClear_within (M := partMask [.regs] false) (by decide) x0 s .refl
  | mgtPwrClear x0 => exact execMgtPwrClear_within (M := partMask [.regs] false) (by decide) x0 s .refl
  | secClear x0 => exact execSecClear_within (M := partMask [.sec] false) (by decide) x0 s .refl
  | referenceClockEdge x0 => exact execReferenceClockEdge_within (M := partMask [.regs, .clock, .cores, .hst, .lifelines] true) (by decide) x0 s .refl
  | ucieAdapterRetry x0 x1 => exact execUcieAdapterRetry_within (M := partMask [.regs] false) (by decide) x0 x1 s .refl
  | cxlMemRequest x0 x1 x2 => exact execCxlMemRequest_within (M := partMask [.regs, .mem, .pkg, .hst, .cache, .mifs, .fars, .ports, .dict, .net, .out, .freeIdx] false) (by decide) x0 x1 x2 s .refl
  | hostSnoop x0 => exact execHostSnoop_within (M := partMask [.out] false) (by decide) x0 s .refl
  | segmentDivergenceTimeout x0 => exact execSegmentDivergenceTimeout_within (M := partMask [.regs, .hst, .dict, .net, .out] false) (by decide) x0 s .refl
  | reservedChainMessage x0 x1 x2 => exact execReservedChainMessage_within (M := partMask [.regs, .net] false) (by decide) x0 x1 x2 s .refl

end Sys2Proof.Machine
end

