-- ==== Sys2Proof/Laws/State.lean ====
section
/-! SUPPORT. The named updates of the state, field by field: what each leaves as it was, and what a read after a write gives. -/

namespace Sys2Proof.Machine

/-! setReg. -/
@[simp] theorem setReg_mem (s : State) (off v : Nat) : (setReg s off v).mem = s.mem := rfl
@[simp] theorem setReg_clock (s : State) (off v : Nat) : (setReg s off v).clock = s.clock := rfl
@[simp] theorem setReg_pkg (s : State) (off v : Nat) : (setReg s off v).pkg = s.pkg := rfl
@[simp] theorem setReg_cores (s : State) (off v : Nat) : (setReg s off v).cores = s.cores := rfl
@[simp] theorem setReg_counters (s : State) (off v : Nat) : (setReg s off v).counters = s.counters := rfl
@[simp] theorem setReg_queues (s : State) (off v : Nat) : (setReg s off v).queues = s.queues := rfl
@[simp] theorem setReg_hst (s : State) (off v : Nat) : (setReg s off v).hst = s.hst := rfl
@[simp] theorem setReg_cache (s : State) (off v : Nat) : (setReg s off v).cache = s.cache := rfl
@[simp] theorem setReg_mifs (s : State) (off v : Nat) : (setReg s off v).mifs = s.mifs := rfl
@[simp] theorem setReg_fars (s : State) (off v : Nat) : (setReg s off v).fars = s.fars := rfl
@[simp] theorem setReg_ports (s : State) (off v : Nat) : (setReg s off v).ports = s.ports := rfl
@[simp] theorem setReg_groups (s : State) (off v : Nat) : (setReg s off v).groups = s.groups := rfl
@[simp] theorem setReg_merges (s : State) (off v : Nat) : (setReg s off v).merges = s.merges := rfl
@[simp] theorem setReg_gapNext (s : State) (off v : Nat) : (setReg s off v).gapNext = s.gapNext := rfl
@[simp] theorem setReg_linkPost (s : State) (off v : Nat) : (setReg s off v).linkPost = s.linkPost := rfl
@[simp] theorem setReg_lnkCache (s : State) (off v : Nat) : (setReg s off v).lnkCache = s.lnkCache := rfl
@[simp] theorem setReg_unsent (s : State) (off v : Nat) : (setReg s off v).unsent = s.unsent := rfl
@[simp] theorem setReg_posted (s : State) (off v : Nat) : (setReg s off v).posted = s.posted := rfl
@[simp] theorem setReg_lifelines (s : State) (off v : Nat) : (setReg s off v).lifelines = s.lifelines := rfl
@[simp] theorem setReg_llResult (s : State) (off v : Nat) : (setReg s off v).llResult = s.llResult := rfl
@[simp] theorem setReg_llStatus (s : State) (off v : Nat) : (setReg s off v).llStatus = s.llStatus := rfl
@[simp] theorem setReg_drawSkews (s : State) (off v : Nat) : (setReg s off v).drawSkews = s.drawSkews := rfl
@[simp] theorem setReg_correlatedArms (s : State) (off v : Nat) : (setReg s off v).correlatedArms = s.correlatedArms := rfl
@[simp] theorem setReg_divergenceEvents (s : State) (off v : Nat) : (setReg s off v).divergenceEvents = s.divergenceEvents := rfl
@[simp] theorem setReg_power (s : State) (off v : Nat) : (setReg s off v).power = s.power := rfl
@[simp] theorem setReg_saves (s : State) (off v : Nat) : (setReg s off v).saves = s.saves := rfl
@[simp] theorem setReg_wear (s : State) (off v : Nat) : (setReg s off v).wear = s.wear := rfl
@[simp] theorem setReg_dict (s : State) (off v : Nat) : (setReg s off v).dict = s.dict := rfl
@[simp] theorem setReg_bg (s : State) (off v : Nat) : (setReg s off v).bg = s.bg := rfl
@[simp] theorem setReg_sat (s : State) (off v : Nat) : (setReg s off v).sat = s.sat := rfl
@[simp] theorem setReg_sec (s : State) (off v : Nat) : (setReg s off v).sec = s.sec := rfl
@[simp] theorem setReg_net (s : State) (off v : Nat) : (setReg s off v).net = s.net := rfl
@[simp] theorem setReg_out (s : State) (off v : Nat) : (setReg s off v).out = s.out := rfl
@[simp] theorem setReg_freeIdx (s : State) (off v : Nat) : (setReg s off v).freeIdx = s.freeIdx := rfl
@[simp] theorem setReg_pending (s : State) (off v : Nat) : (setReg s off v).pending = s.pending := rfl
@[simp] theorem setReg_core_of (s : State) (off v : Nat) (c : Nat) : core (setReg s off v) c = core s c := rfl
@[simp] theorem setReg_slotOf_of (s : State) (off v : Nat) (k : Nat) : slotOf (setReg s off v) k = slotOf s k := rfl
@[simp] theorem setReg_queue_of (s : State) (off v : Nat) (q : Nat) : queue (setReg s off v) q = queue s q := rfl
@[simp] theorem setReg_rowCounter_of (s : State) (off v : Nat) (c : Nat) : rowCounter (setReg s off v) c = rowCounter s c := rfl
@[simp] theorem setReg_stack_of (s : State) (off v : Nat) (k : Nat) : stack (setReg s off v) k = stack s k := rfl
@[simp] theorem setReg_far_of (s : State) (off v : Nat) (p : Nat) : far (setReg s off v) p = far s p := rfl
@[simp] theorem setReg_port_of (s : State) (off v : Nat) (p : Nat) : port (setReg s off v) p = port s p := rfl
@[simp] theorem setReg_strand_of (s : State) (off v : Nat) (n : Nat) : strand (setReg s off v) n = strand s n := rfl
@[simp] theorem setReg_lifeline_of (s : State) (off v : Nat) (n : Nat) : lifeline (setReg s off v) n = lifeline s n := rfl
@[simp] theorem setReg_now_of (s : State) (off v : Nat) : now (setReg s off v) = now s := rfl
@[simp] theorem setReg_activeMask_of (s : State) (off v : Nat) : activeMask (setReg s off v) = activeMask s := rfl

/-! bump. -/
@[simp] theorem bump_mem (s : State) (off v : Nat) : (bump s off v).mem = s.mem := rfl
@[simp] theorem bump_clock (s : State) (off v : Nat) : (bump s off v).clock = s.clock := rfl
@[simp] theorem bump_pkg (s : State) (off v : Nat) : (bump s off v).pkg = s.pkg := rfl
@[simp] theorem bump_cores (s : State) (off v : Nat) : (bump s off v).cores = s.cores := rfl
@[simp] theorem bump_counters (s : State) (off v : Nat) : (bump s off v).counters = s.counters := rfl
@[simp] theorem bump_queues (s : State) (off v : Nat) : (bump s off v).queues = s.queues := rfl
@[simp] theorem bump_hst (s : State) (off v : Nat) : (bump s off v).hst = s.hst := rfl
@[simp] theorem bump_cache (s : State) (off v : Nat) : (bump s off v).cache = s.cache := rfl
@[simp] theorem bump_mifs (s : State) (off v : Nat) : (bump s off v).mifs = s.mifs := rfl
@[simp] theorem bump_fars (s : State) (off v : Nat) : (bump s off v).fars = s.fars := rfl
@[simp] theorem bump_ports (s : State) (off v : Nat) : (bump s off v).ports = s.ports := rfl
@[simp] theorem bump_groups (s : State) (off v : Nat) : (bump s off v).groups = s.groups := rfl
@[simp] theorem bump_merges (s : State) (off v : Nat) : (bump s off v).merges = s.merges := rfl
@[simp] theorem bump_gapNext (s : State) (off v : Nat) : (bump s off v).gapNext = s.gapNext := rfl
@[simp] theorem bump_linkPost (s : State) (off v : Nat) : (bump s off v).linkPost = s.linkPost := rfl
@[simp] theorem bump_lnkCache (s : State) (off v : Nat) : (bump s off v).lnkCache = s.lnkCache := rfl
@[simp] theorem bump_unsent (s : State) (off v : Nat) : (bump s off v).unsent = s.unsent := rfl
@[simp] theorem bump_posted (s : State) (off v : Nat) : (bump s off v).posted = s.posted := rfl
@[simp] theorem bump_lifelines (s : State) (off v : Nat) : (bump s off v).lifelines = s.lifelines := rfl
@[simp] theorem bump_llResult (s : State) (off v : Nat) : (bump s off v).llResult = s.llResult := rfl
@[simp] theorem bump_llStatus (s : State) (off v : Nat) : (bump s off v).llStatus = s.llStatus := rfl
@[simp] theorem bump_drawSkews (s : State) (off v : Nat) : (bump s off v).drawSkews = s.drawSkews := rfl
@[simp] theorem bump_correlatedArms (s : State) (off v : Nat) : (bump s off v).correlatedArms = s.correlatedArms := rfl
@[simp] theorem bump_divergenceEvents (s : State) (off v : Nat) : (bump s off v).divergenceEvents = s.divergenceEvents := rfl
@[simp] theorem bump_power (s : State) (off v : Nat) : (bump s off v).power = s.power := rfl
@[simp] theorem bump_saves (s : State) (off v : Nat) : (bump s off v).saves = s.saves := rfl
@[simp] theorem bump_wear (s : State) (off v : Nat) : (bump s off v).wear = s.wear := rfl
@[simp] theorem bump_dict (s : State) (off v : Nat) : (bump s off v).dict = s.dict := rfl
@[simp] theorem bump_bg (s : State) (off v : Nat) : (bump s off v).bg = s.bg := rfl
@[simp] theorem bump_sat (s : State) (off v : Nat) : (bump s off v).sat = s.sat := rfl
@[simp] theorem bump_sec (s : State) (off v : Nat) : (bump s off v).sec = s.sec := rfl
@[simp] theorem bump_net (s : State) (off v : Nat) : (bump s off v).net = s.net := rfl
@[simp] theorem bump_out (s : State) (off v : Nat) : (bump s off v).out = s.out := rfl
@[simp] theorem bump_freeIdx (s : State) (off v : Nat) : (bump s off v).freeIdx = s.freeIdx := rfl
@[simp] theorem bump_pending (s : State) (off v : Nat) : (bump s off v).pending = s.pending := rfl
@[simp] theorem bump_core_of (s : State) (off v : Nat) (c : Nat) : core (bump s off v) c = core s c := rfl
@[simp] theorem bump_slotOf_of (s : State) (off v : Nat) (k : Nat) : slotOf (bump s off v) k = slotOf s k := rfl
@[simp] theorem bump_queue_of (s : State) (off v : Nat) (q : Nat) : queue (bump s off v) q = queue s q := rfl
@[simp] theorem bump_rowCounter_of (s : State) (off v : Nat) (c : Nat) : rowCounter (bump s off v) c = rowCounter s c := rfl
@[simp] theorem bump_stack_of (s : State) (off v : Nat) (k : Nat) : stack (bump s off v) k = stack s k := rfl
@[simp] theorem bump_far_of (s : State) (off v : Nat) (p : Nat) : far (bump s off v) p = far s p := rfl
@[simp] theorem bump_port_of (s : State) (off v : Nat) (p : Nat) : port (bump s off v) p = port s p := rfl
@[simp] theorem bump_strand_of (s : State) (off v : Nat) (n : Nat) : strand (bump s off v) n = strand s n := rfl
@[simp] theorem bump_lifeline_of (s : State) (off v : Nat) (n : Nat) : lifeline (bump s off v) n = lifeline s n := rfl
@[simp] theorem bump_now_of (s : State) (off v : Nat) : now (bump s off v) = now s := rfl
@[simp] theorem bump_activeMask_of (s : State) (off v : Nat) : activeMask (bump s off v) = activeMask s := rfl

/-! setField. -/
@[simp] theorem setField_mem (s : State) (off hi lo v : Nat) : (setField s off hi lo v).mem = s.mem := rfl
@[simp] theorem setField_clock (s : State) (off hi lo v : Nat) : (setField s off hi lo v).clock = s.clock := rfl
@[simp] theorem setField_pkg (s : State) (off hi lo v : Nat) : (setField s off hi lo v).pkg = s.pkg := rfl
@[simp] theorem setField_cores (s : State) (off hi lo v : Nat) : (setField s off hi lo v).cores = s.cores := rfl
@[simp] theorem setField_counters (s : State) (off hi lo v : Nat) : (setField s off hi lo v).counters = s.counters := rfl
@[simp] theorem setField_queues (s : State) (off hi lo v : Nat) : (setField s off hi lo v).queues = s.queues := rfl
@[simp] theorem setField_hst (s : State) (off hi lo v : Nat) : (setField s off hi lo v).hst = s.hst := rfl
@[simp] theorem setField_cache (s : State) (off hi lo v : Nat) : (setField s off hi lo v).cache = s.cache := rfl
@[simp] theorem setField_mifs (s : State) (off hi lo v : Nat) : (setField s off hi lo v).mifs = s.mifs := rfl
@[simp] theorem setField_fars (s : State) (off hi lo v : Nat) : (setField s off hi lo v).fars = s.fars := rfl
@[simp] theorem setField_ports (s : State) (off hi lo v : Nat) : (setField s off hi lo v).ports = s.ports := rfl
@[simp] theorem setField_groups (s : State) (off hi lo v : Nat) : (setField s off hi lo v).groups = s.groups := rfl
@[simp] theorem setField_merges (s : State) (off hi lo v : Nat) : (setField s off hi lo v).merges = s.merges := rfl
@[simp] theorem setField_gapNext (s : State) (off hi lo v : Nat) : (setField s off hi lo v).gapNext = s.gapNext := rfl
@[simp] theorem setField_linkPost (s : State) (off hi lo v : Nat) : (setField s off hi lo v).linkPost = s.linkPost := rfl
@[simp] theorem setField_lnkCache (s : State) (off hi lo v : Nat) : (setField s off hi lo v).lnkCache = s.lnkCache := rfl
@[simp] theorem setField_unsent (s : State) (off hi lo v : Nat) : (setField s off hi lo v).unsent = s.unsent := rfl
@[simp] theorem setField_posted (s : State) (off hi lo v : Nat) : (setField s off hi lo v).posted = s.posted := rfl
@[simp] theorem setField_lifelines (s : State) (off hi lo v : Nat) : (setField s off hi lo v).lifelines = s.lifelines := rfl
@[simp] theorem setField_llResult (s : State) (off hi lo v : Nat) : (setField s off hi lo v).llResult = s.llResult := rfl
@[simp] theorem setField_llStatus (s : State) (off hi lo v : Nat) : (setField s off hi lo v).llStatus = s.llStatus := rfl
@[simp] theorem setField_drawSkews (s : State) (off hi lo v : Nat) : (setField s off hi lo v).drawSkews = s.drawSkews := rfl
@[simp] theorem setField_correlatedArms (s : State) (off hi lo v : Nat) : (setField s off hi lo v).correlatedArms = s.correlatedArms := rfl
@[simp] theorem setField_divergenceEvents (s : State) (off hi lo v : Nat) : (setField s off hi lo v).divergenceEvents = s.divergenceEvents := rfl
@[simp] theorem setField_power (s : State) (off hi lo v : Nat) : (setField s off hi lo v).power = s.power := rfl
@[simp] theorem setField_saves (s : State) (off hi lo v : Nat) : (setField s off hi lo v).saves = s.saves := rfl
@[simp] theorem setField_wear (s : State) (off hi lo v : Nat) : (setField s off hi lo v).wear = s.wear := rfl
@[simp] theorem setField_dict (s : State) (off hi lo v : Nat) : (setField s off hi lo v).dict = s.dict := rfl
@[simp] theorem setField_bg (s : State) (off hi lo v : Nat) : (setField s off hi lo v).bg = s.bg := rfl
@[simp] theorem setField_sat (s : State) (off hi lo v : Nat) : (setField s off hi lo v).sat = s.sat := rfl
@[simp] theorem setField_sec (s : State) (off hi lo v : Nat) : (setField s off hi lo v).sec = s.sec := rfl
@[simp] theorem setField_net (s : State) (off hi lo v : Nat) : (setField s off hi lo v).net = s.net := rfl
@[simp] theorem setField_out (s : State) (off hi lo v : Nat) : (setField s off hi lo v).out = s.out := rfl
@[simp] theorem setField_freeIdx (s : State) (off hi lo v : Nat) : (setField s off hi lo v).freeIdx = s.freeIdx := rfl
@[simp] theorem setField_pending (s : State) (off hi lo v : Nat) : (setField s off hi lo v).pending = s.pending := rfl
@[simp] theorem setField_core_of (s : State) (off hi lo v : Nat) (c : Nat) : core (setField s off hi lo v) c = core s c := rfl
@[simp] theorem setField_slotOf_of (s : State) (off hi lo v : Nat) (k : Nat) : slotOf (setField s off hi lo v) k = slotOf s k := rfl
@[simp] theorem setField_queue_of (s : State) (off hi lo v : Nat) (q : Nat) : queue (setField s off hi lo v) q = queue s q := rfl
@[simp] theorem setField_rowCounter_of (s : State) (off hi lo v : Nat) (c : Nat) : rowCounter (setField s off hi lo v) c = rowCounter s c := rfl
@[simp] theorem setField_stack_of (s : State) (off hi lo v : Nat) (k : Nat) : stack (setField s off hi lo v) k = stack s k := rfl
@[simp] theorem setField_far_of (s : State) (off hi lo v : Nat) (p : Nat) : far (setField s off hi lo v) p = far s p := rfl
@[simp] theorem setField_port_of (s : State) (off hi lo v : Nat) (p : Nat) : port (setField s off hi lo v) p = port s p := rfl
@[simp] theorem setField_strand_of (s : State) (off hi lo v : Nat) (n : Nat) : strand (setField s off hi lo v) n = strand s n := rfl
@[simp] theorem setField_lifeline_of (s : State) (off hi lo v : Nat) (n : Nat) : lifeline (setField s off hi lo v) n = lifeline s n := rfl
@[simp] theorem setField_now_of (s : State) (off hi lo v : Nat) : now (setField s off hi lo v) = now s := rfl
@[simp] theorem setField_activeMask_of (s : State) (off hi lo v : Nat) : activeMask (setField s off hi lo v) = activeMask s := rfl

/-! clearRegs. -/
@[simp] theorem clearRegs_mem (s : State) (lo hi : Nat) : (clearRegs s lo hi).mem = s.mem := rfl
@[simp] theorem clearRegs_clock (s : State) (lo hi : Nat) : (clearRegs s lo hi).clock = s.clock := rfl
@[simp] theorem clearRegs_pkg (s : State) (lo hi : Nat) : (clearRegs s lo hi).pkg = s.pkg := rfl
@[simp] theorem clearRegs_cores (s : State) (lo hi : Nat) : (clearRegs s lo hi).cores = s.cores := rfl
@[simp] theorem clearRegs_counters (s : State) (lo hi : Nat) : (clearRegs s lo hi).counters = s.counters := rfl
@[simp] theorem clearRegs_queues (s : State) (lo hi : Nat) : (clearRegs s lo hi).queues = s.queues := rfl
@[simp] theorem clearRegs_hst (s : State) (lo hi : Nat) : (clearRegs s lo hi).hst = s.hst := rfl
@[simp] theorem clearRegs_cache (s : State) (lo hi : Nat) : (clearRegs s lo hi).cache = s.cache := rfl
@[simp] theorem clearRegs_mifs (s : State) (lo hi : Nat) : (clearRegs s lo hi).mifs = s.mifs := rfl
@[simp] theorem clearRegs_fars (s : State) (lo hi : Nat) : (clearRegs s lo hi).fars = s.fars := rfl
@[simp] theorem clearRegs_ports (s : State) (lo hi : Nat) : (clearRegs s lo hi).ports = s.ports := rfl
@[simp] theorem clearRegs_groups (s : State) (lo hi : Nat) : (clearRegs s lo hi).groups = s.groups := rfl
@[simp] theorem clearRegs_merges (s : State) (lo hi : Nat) : (clearRegs s lo hi).merges = s.merges := rfl
@[simp] theorem clearRegs_gapNext (s : State) (lo hi : Nat) : (clearRegs s lo hi).gapNext = s.gapNext := rfl
@[simp] theorem clearRegs_linkPost (s : State) (lo hi : Nat) : (clearRegs s lo hi).linkPost = s.linkPost := rfl
@[simp] theorem clearRegs_lnkCache (s : State) (lo hi : Nat) : (clearRegs s lo hi).lnkCache = s.lnkCache := rfl
@[simp] theorem clearRegs_unsent (s : State) (lo hi : Nat) : (clearRegs s lo hi).unsent = s.unsent := rfl
@[simp] theorem clearRegs_posted (s : State) (lo hi : Nat) : (clearRegs s lo hi).posted = s.posted := rfl
@[simp] theorem clearRegs_lifelines (s : State) (lo hi : Nat) : (clearRegs s lo hi).lifelines = s.lifelines := rfl
@[simp] theorem clearRegs_llResult (s : State) (lo hi : Nat) : (clearRegs s lo hi).llResult = s.llResult := rfl
@[simp] theorem clearRegs_llStatus (s : State) (lo hi : Nat) : (clearRegs s lo hi).llStatus = s.llStatus := rfl
@[simp] theorem clearRegs_drawSkews (s : State) (lo hi : Nat) : (clearRegs s lo hi).drawSkews = s.drawSkews := rfl
@[simp] theorem clearRegs_correlatedArms (s : State) (lo hi : Nat) : (clearRegs s lo hi).correlatedArms = s.correlatedArms := rfl
@[simp] theorem clearRegs_divergenceEvents (s : State) (lo hi : Nat) : (clearRegs s lo hi).divergenceEvents = s.divergenceEvents := rfl
@[simp] theorem clearRegs_power (s : State) (lo hi : Nat) : (clearRegs s lo hi).power = s.power := rfl
@[simp] theorem clearRegs_saves (s : State) (lo hi : Nat) : (clearRegs s lo hi).saves = s.saves := rfl
@[simp] theorem clearRegs_wear (s : State) (lo hi : Nat) : (clearRegs s lo hi).wear = s.wear := rfl
@[simp] theorem clearRegs_dict (s : State) (lo hi : Nat) : (clearRegs s lo hi).dict = s.dict := rfl
@[simp] theorem clearRegs_bg (s : State) (lo hi : Nat) : (clearRegs s lo hi).bg = s.bg := rfl
@[simp] theorem clearRegs_sat (s : State) (lo hi : Nat) : (clearRegs s lo hi).sat = s.sat := rfl
@[simp] theorem clearRegs_sec (s : State) (lo hi : Nat) : (clearRegs s lo hi).sec = s.sec := rfl
@[simp] theorem clearRegs_net (s : State) (lo hi : Nat) : (clearRegs s lo hi).net = s.net := rfl
@[simp] theorem clearRegs_out (s : State) (lo hi : Nat) : (clearRegs s lo hi).out = s.out := rfl
@[simp] theorem clearRegs_freeIdx (s : State) (lo hi : Nat) : (clearRegs s lo hi).freeIdx = s.freeIdx := rfl
@[simp] theorem clearRegs_pending (s : State) (lo hi : Nat) : (clearRegs s lo hi).pending = s.pending := rfl
@[simp] theorem clearRegs_core_of (s : State) (lo hi : Nat) (c : Nat) : core (clearRegs s lo hi) c = core s c := rfl
@[simp] theorem clearRegs_slotOf_of (s : State) (lo hi : Nat) (k : Nat) : slotOf (clearRegs s lo hi) k = slotOf s k := rfl
@[simp] theorem clearRegs_queue_of (s : State) (lo hi : Nat) (q : Nat) : queue (clearRegs s lo hi) q = queue s q := rfl
@[simp] theorem clearRegs_rowCounter_of (s : State) (lo hi : Nat) (c : Nat) : rowCounter (clearRegs s lo hi) c = rowCounter s c := rfl
@[simp] theorem clearRegs_stack_of (s : State) (lo hi : Nat) (k : Nat) : stack (clearRegs s lo hi) k = stack s k := rfl
@[simp] theorem clearRegs_far_of (s : State) (lo hi : Nat) (p : Nat) : far (clearRegs s lo hi) p = far s p := rfl
@[simp] theorem clearRegs_port_of (s : State) (lo hi : Nat) (p : Nat) : port (clearRegs s lo hi) p = port s p := rfl
@[simp] theorem clearRegs_strand_of (s : State) (lo hi : Nat) (n : Nat) : strand (clearRegs s lo hi) n = strand s n := rfl
@[simp] theorem clearRegs_lifeline_of (s : State) (lo hi : Nat) (n : Nat) : lifeline (clearRegs s lo hi) n = lifeline s n := rfl
@[simp] theorem clearRegs_now_of (s : State) (lo hi : Nat) : now (clearRegs s lo hi) = now s := rfl
@[simp] theorem clearRegs_activeMask_of (s : State) (lo hi : Nat) : activeMask (clearRegs s lo hi) = activeMask s := rfl

/-! setCore. -/
@[simp] theorem setCore_regs (s : State) (c : Nat) (x : Core) : (setCore s c x).regs = s.regs := rfl
@[simp] theorem setCore_mem (s : State) (c : Nat) (x : Core) : (setCore s c x).mem = s.mem := rfl
@[simp] theorem setCore_clock (s : State) (c : Nat) (x : Core) : (setCore s c x).clock = s.clock := rfl
@[simp] theorem setCore_pkg (s : State) (c : Nat) (x : Core) : (setCore s c x).pkg = s.pkg := rfl
@[simp] theorem setCore_counters (s : State) (c : Nat) (x : Core) : (setCore s c x).counters = s.counters := rfl
@[simp] theorem setCore_queues (s : State) (c : Nat) (x : Core) : (setCore s c x).queues = s.queues := rfl
@[simp] theorem setCore_hst (s : State) (c : Nat) (x : Core) : (setCore s c x).hst = s.hst := rfl
@[simp] theorem setCore_cache (s : State) (c : Nat) (x : Core) : (setCore s c x).cache = s.cache := rfl
@[simp] theorem setCore_mifs (s : State) (c : Nat) (x : Core) : (setCore s c x).mifs = s.mifs := rfl
@[simp] theorem setCore_fars (s : State) (c : Nat) (x : Core) : (setCore s c x).fars = s.fars := rfl
@[simp] theorem setCore_ports (s : State) (c : Nat) (x : Core) : (setCore s c x).ports = s.ports := rfl
@[simp] theorem setCore_groups (s : State) (c : Nat) (x : Core) : (setCore s c x).groups = s.groups := rfl
@[simp] theorem setCore_merges (s : State) (c : Nat) (x : Core) : (setCore s c x).merges = s.merges := rfl
@[simp] theorem setCore_gapNext (s : State) (c : Nat) (x : Core) : (setCore s c x).gapNext = s.gapNext := rfl
@[simp] theorem setCore_linkPost (s : State) (c : Nat) (x : Core) : (setCore s c x).linkPost = s.linkPost := rfl
@[simp] theorem setCore_lnkCache (s : State) (c : Nat) (x : Core) : (setCore s c x).lnkCache = s.lnkCache := rfl
@[simp] theorem setCore_unsent (s : State) (c : Nat) (x : Core) : (setCore s c x).unsent = s.unsent := rfl
@[simp] theorem setCore_posted (s : State) (c : Nat) (x : Core) : (setCore s c x).posted = s.posted := rfl
@[simp] theorem setCore_lifelines (s : State) (c : Nat) (x : Core) : (setCore s c x).lifelines = s.lifelines := rfl
@[simp] theorem setCore_llResult (s : State) (c : Nat) (x : Core) : (setCore s c x).llResult = s.llResult := rfl
@[simp] theorem setCore_llStatus (s : State) (c : Nat) (x : Core) : (setCore s c x).llStatus = s.llStatus := rfl
@[simp] theorem setCore_drawSkews (s : State) (c : Nat) (x : Core) : (setCore s c x).drawSkews = s.drawSkews := rfl
@[simp] theorem setCore_correlatedArms (s : State) (c : Nat) (x : Core) : (setCore s c x).correlatedArms = s.correlatedArms := rfl
@[simp] theorem setCore_divergenceEvents (s : State) (c : Nat) (x : Core) : (setCore s c x).divergenceEvents = s.divergenceEvents := rfl
@[simp] theorem setCore_power (s : State) (c : Nat) (x : Core) : (setCore s c x).power = s.power := rfl
@[simp] theorem setCore_saves (s : State) (c : Nat) (x : Core) : (setCore s c x).saves = s.saves := rfl
@[simp] theorem setCore_wear (s : State) (c : Nat) (x : Core) : (setCore s c x).wear = s.wear := rfl
@[simp] theorem setCore_dict (s : State) (c : Nat) (x : Core) : (setCore s c x).dict = s.dict := rfl
@[simp] theorem setCore_bg (s : State) (c : Nat) (x : Core) : (setCore s c x).bg = s.bg := rfl
@[simp] theorem setCore_sat (s : State) (c : Nat) (x : Core) : (setCore s c x).sat = s.sat := rfl
@[simp] theorem setCore_sec (s : State) (c : Nat) (x : Core) : (setCore s c x).sec = s.sec := rfl
@[simp] theorem setCore_net (s : State) (c : Nat) (x : Core) : (setCore s c x).net = s.net := rfl
@[simp] theorem setCore_out (s : State) (c : Nat) (x : Core) : (setCore s c x).out = s.out := rfl
@[simp] theorem setCore_freeIdx (s : State) (c : Nat) (x : Core) : (setCore s c x).freeIdx = s.freeIdx := rfl
@[simp] theorem setCore_pending (s : State) (c : Nat) (x : Core) : (setCore s c x).pending = s.pending := rfl
@[simp] theorem setCore_reg_of (s : State) (c : Nat) (x : Core) (o : Nat) : reg (setCore s c x) o = reg s o := rfl
@[simp] theorem setCore_slotOf_of (s : State) (c : Nat) (x : Core) (k : Nat) : slotOf (setCore s c x) k = slotOf s k := rfl
@[simp] theorem setCore_queue_of (s : State) (c : Nat) (x : Core) (q : Nat) : queue (setCore s c x) q = queue s q := rfl
@[simp] theorem setCore_rowCounter_of (s : State) (c : Nat) (x : Core) (c' : Nat) : rowCounter (setCore s c x) c' = rowCounter s c' := rfl
@[simp] theorem setCore_stack_of (s : State) (c : Nat) (x : Core) (k : Nat) : stack (setCore s c x) k = stack s k := rfl
@[simp] theorem setCore_far_of (s : State) (c : Nat) (x : Core) (p : Nat) : far (setCore s c x) p = far s p := rfl
@[simp] theorem setCore_port_of (s : State) (c : Nat) (x : Core) (p : Nat) : port (setCore s c x) p = port s p := rfl
@[simp] theorem setCore_strand_of (s : State) (c : Nat) (x : Core) (n : Nat) : strand (setCore s c x) n = strand s n := rfl
@[simp] theorem setCore_lifeline_of (s : State) (c : Nat) (x : Core) (n : Nat) : lifeline (setCore s c x) n = lifeline s n := rfl
@[simp] theorem setCore_coreReg_of (s : State) (c : Nat) (x : Core) (c' o : Nat) : coreReg (setCore s c x) c' o = coreReg s c' o := rfl
@[simp] theorem setCore_now_of (s : State) (c : Nat) (x : Core) : now (setCore s c x) = now s := rfl
@[simp] theorem setCore_activeMask_of (s : State) (c : Nat) (x : Core) : activeMask (setCore s c x) = activeMask s := rfl

/-! updCore. -/
@[simp] theorem updCore_regs (s : State) (c : Nat) (f : Core → Core) : (updCore s c f).regs = s.regs := rfl
@[simp] theorem updCore_mem (s : State) (c : Nat) (f : Core → Core) : (updCore s c f).mem = s.mem := rfl
@[simp] theorem updCore_clock (s : State) (c : Nat) (f : Core → Core) : (updCore s c f).clock = s.clock := rfl
@[simp] theorem updCore_pkg (s : State) (c : Nat) (f : Core → Core) : (updCore s c f).pkg = s.pkg := rfl
@[simp] theorem updCore_counters (s : State) (c : Nat) (f : Core → Core) : (updCore s c f).counters = s.counters := rfl
@[simp] theorem updCore_queues (s : State) (c : Nat) (f : Core → Core) : (updCore s c f).queues = s.queues := rfl
@[simp] theorem updCore_hst (s : State) (c : Nat) (f : Core → Core) : (updCore s c f).hst = s.hst := rfl
@[simp] theorem updCore_cache (s : State) (c : Nat) (f : Core → Core) : (updCore s c f).cache = s.cache := rfl
@[simp] theorem updCore_mifs (s : State) (c : Nat) (f : Core → Core) : (updCore s c f).mifs = s.mifs := rfl
@[simp] theorem updCore_fars (s : State) (c : Nat) (f : Core → Core) : (updCore s c f).fars = s.fars := rfl
@[simp] theorem updCore_ports (s : State) (c : Nat) (f : Core → Core) : (updCore s c f).ports = s.ports := rfl
@[simp] theorem updCore_groups (s : State) (c : Nat) (f : Core → Core) : (updCore s c f).groups = s.groups := rfl
@[simp] theorem updCore_merges (s : State) (c : Nat) (f : Core → Core) : (updCore s c f).merges = s.merges := rfl
@[simp] theorem updCore_gapNext (s : State) (c : Nat) (f : Core → Core) : (updCore s c f).gapNext = s.gapNext := rfl
@[simp] theorem updCore_linkPost (s : State) (c : Nat) (f : Core → Core) : (updCore s c f).linkPost = s.linkPost := rfl
@[simp] theorem updCore_lnkCache (s : State) (c : Nat) (f : Core → Core) : (updCore s c f).lnkCache = s.lnkCache := rfl
@[simp] theorem updCore_unsent (s : State) (c : Nat) (f : Core → Core) : (updCore s c f).unsent = s.unsent := rfl
@[simp] theorem updCore_posted (s : State) (c : Nat) (f : Core → Core) : (updCore s c f).posted = s.posted := rfl
@[simp] theorem updCore_lifelines (s : State) (c : Nat) (f : Core → Core) : (updCore s c f).lifelines = s.lifelines := rfl
@[simp] theorem updCore_llResult (s : State) (c : Nat) (f : Core → Core) : (updCore s c f).llResult = s.llResult := rfl
@[simp] theorem updCore_llStatus (s : State) (c : Nat) (f : Core → Core) : (updCore s c f).llStatus = s.llStatus := rfl
@[simp] theorem updCore_drawSkews (s : State) (c : Nat) (f : Core → Core) : (updCore s c f).drawSkews = s.drawSkews := rfl
@[simp] theorem updCore_correlatedArms (s : State) (c : Nat) (f : Core → Core) : (updCore s c f).correlatedArms = s.correlatedArms := rfl
@[simp] theorem updCore_divergenceEvents (s : State) (c : Nat) (f : Core → Core) : (updCore s c f).divergenceEvents = s.divergenceEvents := rfl
@[simp] theorem updCore_power (s : State) (c : Nat) (f : Core → Core) : (updCore s c f).power = s.power := rfl
@[simp] theorem updCore_saves (s : State) (c : Nat) (f : Core → Core) : (updCore s c f).saves = s.saves := rfl
@[simp] theorem updCore_wear (s : State) (c : Nat) (f : Core → Core) : (updCore s c f).wear = s.wear := rfl
@[simp] theorem updCore_dict (s : State) (c : Nat) (f : Core → Core) : (updCore s c f).dict = s.dict := rfl
@[simp] theorem updCore_bg (s : State) (c : Nat) (f : Core → Core) : (updCore s c f).bg = s.bg := rfl
@[simp] theorem updCore_sat (s : State) (c : Nat) (f : Core → Core) : (updCore s c f).sat = s.sat := rfl
@[simp] theorem updCore_sec (s : State) (c : Nat) (f : Core → Core) : (updCore s c f).sec = s.sec := rfl
@[simp] theorem updCore_net (s : State) (c : Nat) (f : Core → Core) : (updCore s c f).net = s.net := rfl
@[simp] theorem updCore_out (s : State) (c : Nat) (f : Core → Core) : (updCore s c f).out = s.out := rfl
@[simp] theorem updCore_freeIdx (s : State) (c : Nat) (f : Core → Core) : (updCore s c f).freeIdx = s.freeIdx := rfl
@[simp] theorem updCore_pending (s : State) (c : Nat) (f : Core → Core) : (updCore s c f).pending = s.pending := rfl
@[simp] theorem updCore_reg_of (s : State) (c : Nat) (f : Core → Core) (o : Nat) : reg (updCore s c f) o = reg s o := rfl
@[simp] theorem updCore_slotOf_of (s : State) (c : Nat) (f : Core → Core) (k : Nat) : slotOf (updCore s c f) k = slotOf s k := rfl
@[simp] theorem updCore_queue_of (s : State) (c : Nat) (f : Core → Core) (q : Nat) : queue (updCore s c f) q = queue s q := rfl
@[simp] theorem updCore_rowCounter_of (s : State) (c : Nat) (f : Core → Core) (c' : Nat) : rowCounter (updCore s c f) c' = rowCounter s c' := rfl
@[simp] theorem updCore_stack_of (s : State) (c : Nat) (f : Core → Core) (k : Nat) : stack (updCore s c f) k = stack s k := rfl
@[simp] theorem updCore_far_of (s : State) (c : Nat) (f : Core → Core) (p : Nat) : far (updCore s c f) p = far s p := rfl
@[simp] theorem updCore_port_of (s : State) (c : Nat) (f : Core → Core) (p : Nat) : port (updCore s c f) p = port s p := rfl
@[simp] theorem updCore_strand_of (s : State) (c : Nat) (f : Core → Core) (n : Nat) : strand (updCore s c f) n = strand s n := rfl
@[simp] theorem updCore_lifeline_of (s : State) (c : Nat) (f : Core → Core) (n : Nat) : lifeline (updCore s c f) n = lifeline s n := rfl
@[simp] theorem updCore_coreReg_of (s : State) (c : Nat) (f : Core → Core) (c' o : Nat) : coreReg (updCore s c f) c' o = coreReg s c' o := rfl
@[simp] theorem updCore_now_of (s : State) (c : Nat) (f : Core → Core) : now (updCore s c f) = now s := rfl
@[simp] theorem updCore_activeMask_of (s : State) (c : Nat) (f : Core → Core) : activeMask (updCore s c f) = activeMask s := rfl

/-! bumpCore. -/
@[simp] theorem bumpCore_mem (s : State) (c o n : Nat) : (bumpCore s c o n).mem = s.mem := rfl
@[simp] theorem bumpCore_clock (s : State) (c o n : Nat) : (bumpCore s c o n).clock = s.clock := rfl
@[simp] theorem bumpCore_pkg (s : State) (c o n : Nat) : (bumpCore s c o n).pkg = s.pkg := rfl
@[simp] theorem bumpCore_cores (s : State) (c o n : Nat) : (bumpCore s c o n).cores = s.cores := rfl
@[simp] theorem bumpCore_counters (s : State) (c o n : Nat) : (bumpCore s c o n).counters = s.counters := rfl
@[simp] theorem bumpCore_queues (s : State) (c o n : Nat) : (bumpCore s c o n).queues = s.queues := rfl
@[simp] theorem bumpCore_hst (s : State) (c o n : Nat) : (bumpCore s c o n).hst = s.hst := rfl
@[simp] theorem bumpCore_cache (s : State) (c o n : Nat) : (bumpCore s c o n).cache = s.cache := rfl
@[simp] theorem bumpCore_mifs (s : State) (c o n : Nat) : (bumpCore s c o n).mifs = s.mifs := rfl
@[simp] theorem bumpCore_fars (s : State) (c o n : Nat) : (bumpCore s c o n).fars = s.fars := rfl
@[simp] theorem bumpCore_ports (s : State) (c o n : Nat) : (bumpCore s c o n).ports = s.ports := rfl
@[simp] theorem bumpCore_groups (s : State) (c o n : Nat) : (bumpCore s c o n).groups = s.groups := rfl
@[simp] theorem bumpCore_merges (s : State) (c o n : Nat) : (bumpCore s c o n).merges = s.merges := rfl
@[simp] theorem bumpCore_gapNext (s : State) (c o n : Nat) : (bumpCore s c o n).gapNext = s.gapNext := rfl
@[simp] theorem bumpCore_linkPost (s : State) (c o n : Nat) : (bumpCore s c o n).linkPost = s.linkPost := rfl
@[simp] theorem bumpCore_lnkCache (s : State) (c o n : Nat) : (bumpCore s c o n).lnkCache = s.lnkCache := rfl
@[simp] theorem bumpCore_unsent (s : State) (c o n : Nat) : (bumpCore s c o n).unsent = s.unsent := rfl
@[simp] theorem bumpCore_posted (s : State) (c o n : Nat) : (bumpCore s c o n).posted = s.posted := rfl
@[simp] theorem bumpCore_lifelines (s : State) (c o n : Nat) : (bumpCore s c o n).lifelines = s.lifelines := rfl
@[simp] theorem bumpCore_llResult (s : State) (c o n : Nat) : (bumpCore s c o n).llResult = s.llResult := rfl
@[simp] theorem bumpCore_llStatus (s : State) (c o n : Nat) : (bumpCore s c o n).llStatus = s.llStatus := rfl
@[simp] theorem bumpCore_drawSkews (s : State) (c o n : Nat) : (bumpCore s c o n).drawSkews = s.drawSkews := rfl
@[simp] theorem bumpCore_correlatedArms (s : State) (c o n : Nat) : (bumpCore s c o n).correlatedArms = s.correlatedArms := rfl
@[simp] theorem bumpCore_divergenceEvents (s : State) (c o n : Nat) : (bumpCore s c o n).divergenceEvents = s.divergenceEvents := rfl
@[simp] theorem bumpCore_power (s : State) (c o n : Nat) : (bumpCore s c o n).power = s.power := rfl
@[simp] theorem bumpCore_saves (s : State) (c o n : Nat) : (bumpCore s c o n).saves = s.saves := rfl
@[simp] theorem bumpCore_wear (s : State) (c o n : Nat) : (bumpCore s c o n).wear = s.wear := rfl
@[simp] theorem bumpCore_dict (s : State) (c o n : Nat) : (bumpCore s c o n).dict = s.dict := rfl
@[simp] theorem bumpCore_bg (s : State) (c o n : Nat) : (bumpCore s c o n).bg = s.bg := rfl
@[simp] theorem bumpCore_sat (s : State) (c o n : Nat) : (bumpCore s c o n).sat = s.sat := rfl
@[simp] theorem bumpCore_sec (s : State) (c o n : Nat) : (bumpCore s c o n).sec = s.sec := rfl
@[simp] theorem bumpCore_net (s : State) (c o n : Nat) : (bumpCore s c o n).net = s.net := rfl
@[simp] theorem bumpCore_out (s : State) (c o n : Nat) : (bumpCore s c o n).out = s.out := rfl
@[simp] theorem bumpCore_freeIdx (s : State) (c o n : Nat) : (bumpCore s c o n).freeIdx = s.freeIdx := rfl
@[simp] theorem bumpCore_pending (s : State) (c o n : Nat) : (bumpCore s c o n).pending = s.pending := rfl
@[simp] theorem bumpCore_core_of (s : State) (c o n : Nat) (c' : Nat) : core (bumpCore s c o n) c' = core s c' := rfl
@[simp] theorem bumpCore_slotOf_of (s : State) (c o n : Nat) (k : Nat) : slotOf (bumpCore s c o n) k = slotOf s k := rfl
@[simp] theorem bumpCore_queue_of (s : State) (c o n : Nat) (q : Nat) : queue (bumpCore s c o n) q = queue s q := rfl
@[simp] theorem bumpCore_rowCounter_of (s : State) (c o n : Nat) (c' : Nat) : rowCounter (bumpCore s c o n) c' = rowCounter s c' := rfl
@[simp] theorem bumpCore_stack_of (s : State) (c o n : Nat) (k : Nat) : stack (bumpCore s c o n) k = stack s k := rfl
@[simp] theorem bumpCore_far_of (s : State) (c o n : Nat) (p : Nat) : far (bumpCore s c o n) p = far s p := rfl
@[simp] theorem bumpCore_port_of (s : State) (c o n : Nat) (p : Nat) : port (bumpCore s c o n) p = port s p := rfl
@[simp] theorem bumpCore_strand_of (s : State) (c o n : Nat) (n' : Nat) : strand (bumpCore s c o n) n' = strand s n' := rfl
@[simp] theorem bumpCore_lifeline_of (s : State) (c o n : Nat) (n' : Nat) : lifeline (bumpCore s c o n) n' = lifeline s n' := rfl
@[simp] theorem bumpCore_now_of (s : State) (c o n : Nat) : now (bumpCore s c o n) = now s := rfl
@[simp] theorem bumpCore_activeMask_of (s : State) (c o n : Nat) : activeMask (bumpCore s c o n) = activeMask s := rfl

/-! setSlot. -/
@[simp] theorem setSlot_regs (s : State) (k : Nat) (x : Slot) : (setSlot s k x).regs = s.regs := rfl
@[simp] theorem setSlot_mem (s : State) (k : Nat) (x : Slot) : (setSlot s k x).mem = s.mem := rfl
@[simp] theorem setSlot_clock (s : State) (k : Nat) (x : Slot) : (setSlot s k x).clock = s.clock := rfl
@[simp] theorem setSlot_pkg (s : State) (k : Nat) (x : Slot) : (setSlot s k x).pkg = s.pkg := rfl
@[simp] theorem setSlot_cores (s : State) (k : Nat) (x : Slot) : (setSlot s k x).cores = s.cores := rfl
@[simp] theorem setSlot_counters (s : State) (k : Nat) (x : Slot) : (setSlot s k x).counters = s.counters := rfl
@[simp] theorem setSlot_queues (s : State) (k : Nat) (x : Slot) : (setSlot s k x).queues = s.queues := rfl
@[simp] theorem setSlot_cache (s : State) (k : Nat) (x : Slot) : (setSlot s k x).cache = s.cache := rfl
@[simp] theorem setSlot_mifs (s : State) (k : Nat) (x : Slot) : (setSlot s k x).mifs = s.mifs := rfl
@[simp] theorem setSlot_fars (s : State) (k : Nat) (x : Slot) : (setSlot s k x).fars = s.fars := rfl
@[simp] theorem setSlot_ports (s : State) (k : Nat) (x : Slot) : (setSlot s k x).ports = s.ports := rfl
@[simp] theorem setSlot_groups (s : State) (k : Nat) (x : Slot) : (setSlot s k x).groups = s.groups := rfl
@[simp] theorem setSlot_merges (s : State) (k : Nat) (x : Slot) : (setSlot s k x).merges = s.merges := rfl
@[simp] theorem setSlot_gapNext (s : State) (k : Nat) (x : Slot) : (setSlot s k x).gapNext = s.gapNext := rfl
@[simp] theorem setSlot_linkPost (s : State) (k : Nat) (x : Slot) : (setSlot s k x).linkPost = s.linkPost := rfl
@[simp] theorem setSlot_lnkCache (s : State) (k : Nat) (x : Slot) : (setSlot s k x).lnkCache = s.lnkCache := rfl
@[simp] theorem setSlot_unsent (s : State) (k : Nat) (x : Slot) : (setSlot s k x).unsent = s.unsent := rfl
@[simp] theorem setSlot_posted (s : State) (k : Nat) (x : Slot) : (setSlot s k x).posted = s.posted := rfl
@[simp] theorem setSlot_lifelines (s : State) (k : Nat) (x : Slot) : (setSlot s k x).lifelines = s.lifelines := rfl
@[simp] theorem setSlot_llResult (s : State) (k : Nat) (x : Slot) : (setSlot s k x).llResult = s.llResult := rfl
@[simp] theorem setSlot_llStatus (s : State) (k : Nat) (x : Slot) : (setSlot s k x).llStatus = s.llStatus := rfl
@[simp] theorem setSlot_drawSkews (s : State) (k : Nat) (x : Slot) : (setSlot s k x).drawSkews = s.drawSkews := rfl
@[simp] theorem setSlot_correlatedArms (s : State) (k : Nat) (x : Slot) : (setSlot s k x).correlatedArms = s.correlatedArms := rfl
@[simp] theorem setSlot_divergenceEvents (s : State) (k : Nat) (x : Slot) : (setSlot s k x).divergenceEvents = s.divergenceEvents := rfl
@[simp] theorem setSlot_power (s : State) (k : Nat) (x : Slot) : (setSlot s k x).power = s.power := rfl
@[simp] theorem setSlot_saves (s : State) (k : Nat) (x : Slot) : (setSlot s k x).saves = s.saves := rfl
@[simp] theorem setSlot_wear (s : State) (k : Nat) (x : Slot) : (setSlot s k x).wear = s.wear := rfl
@[simp] theorem setSlot_dict (s : State) (k : Nat) (x : Slot) : (setSlot s k x).dict = s.dict := rfl
@[simp] theorem setSlot_bg (s : State) (k : Nat) (x : Slot) : (setSlot s k x).bg = s.bg := rfl
@[simp] theorem setSlot_sat (s : State) (k : Nat) (x : Slot) : (setSlot s k x).sat = s.sat := rfl
@[simp] theorem setSlot_sec (s : State) (k : Nat) (x : Slot) : (setSlot s k x).sec = s.sec := rfl
@[simp] theorem setSlot_net (s : State) (k : Nat) (x : Slot) : (setSlot s k x).net = s.net := rfl
@[simp] theorem setSlot_out (s : State) (k : Nat) (x : Slot) : (setSlot s k x).out = s.out := rfl
@[simp] theorem setSlot_freeIdx (s : State) (k : Nat) (x : Slot) : (setSlot s k x).freeIdx = s.freeIdx := rfl
@[simp] theorem setSlot_pending (s : State) (k : Nat) (x : Slot) : (setSlot s k x).pending = s.pending := rfl
@[simp] theorem setSlot_reg_of (s : State) (k : Nat) (x : Slot) (o : Nat) : reg (setSlot s k x) o = reg s o := rfl
@[simp] theorem setSlot_core_of (s : State) (k : Nat) (x : Slot) (c : Nat) : core (setSlot s k x) c = core s c := rfl
@[simp] theorem setSlot_queue_of (s : State) (k : Nat) (x : Slot) (q : Nat) : queue (setSlot s k x) q = queue s q := rfl
@[simp] theorem setSlot_rowCounter_of (s : State) (k : Nat) (x : Slot) (c : Nat) : rowCounter (setSlot s k x) c = rowCounter s c := rfl
@[simp] theorem setSlot_stack_of (s : State) (k : Nat) (x : Slot) (k' : Nat) : stack (setSlot s k x) k' = stack s k' := rfl
@[simp] theorem setSlot_far_of (s : State) (k : Nat) (x : Slot) (p : Nat) : far (setSlot s k x) p = far s p := rfl
@[simp] theorem setSlot_port_of (s : State) (k : Nat) (x : Slot) (p : Nat) : port (setSlot s k x) p = port s p := rfl
@[simp] theorem setSlot_lifeline_of (s : State) (k : Nat) (x : Slot) (n : Nat) : lifeline (setSlot s k x) n = lifeline s n := rfl
@[simp] theorem setSlot_coreReg_of (s : State) (k : Nat) (x : Slot) (c o : Nat) : coreReg (setSlot s k x) c o = coreReg s c o := rfl
@[simp] theorem setSlot_now_of (s : State) (k : Nat) (x : Slot) : now (setSlot s k x) = now s := rfl
@[simp] theorem setSlot_activeMask_of (s : State) (k : Nat) (x : Slot) : activeMask (setSlot s k x) = activeMask s := rfl

/-! updSlot. -/
@[simp] theorem updSlot_regs (s : State) (k : Nat) (f : Slot → Slot) : (updSlot s k f).regs = s.regs := rfl
@[simp] theorem updSlot_mem (s : State) (k : Nat) (f : Slot → Slot) : (updSlot s k f).mem = s.mem := rfl
@[simp] theorem updSlot_clock (s : State) (k : Nat) (f : Slot → Slot) : (updSlot s k f).clock = s.clock := rfl
@[simp] theorem updSlot_pkg (s : State) (k : Nat) (f : Slot → Slot) : (updSlot s k f).pkg = s.pkg := rfl
@[simp] theorem updSlot_cores (s : State) (k : Nat) (f : Slot → Slot) : (updSlot s k f).cores = s.cores := rfl
@[simp] theorem updSlot_counters (s : State) (k : Nat) (f : Slot → Slot) : (updSlot s k f).counters = s.counters := rfl
@[simp] theorem updSlot_queues (s : State) (k : Nat) (f : Slot → Slot) : (updSlot s k f).queues = s.queues := rfl
@[simp] theorem updSlot_cache (s : State) (k : Nat) (f : Slot → Slot) : (updSlot s k f).cache = s.cache := rfl
@[simp] theorem updSlot_mifs (s : State) (k : Nat) (f : Slot → Slot) : (updSlot s k f).mifs = s.mifs := rfl
@[simp] theorem updSlot_fars (s : State) (k : Nat) (f : Slot → Slot) : (updSlot s k f).fars = s.fars := rfl
@[simp] theorem updSlot_ports (s : State) (k : Nat) (f : Slot → Slot) : (updSlot s k f).ports = s.ports := rfl
@[simp] theorem updSlot_groups (s : State) (k : Nat) (f : Slot → Slot) : (updSlot s k f).groups = s.groups := rfl
@[simp] theorem updSlot_merges (s : State) (k : Nat) (f : Slot → Slot) : (updSlot s k f).merges = s.merges := rfl
@[simp] theorem updSlot_gapNext (s : State) (k : Nat) (f : Slot → Slot) : (updSlot s k f).gapNext = s.gapNext := rfl
@[simp] theorem updSlot_linkPost (s : State) (k : Nat) (f : Slot → Slot) : (updSlot s k f).linkPost = s.linkPost := rfl
@[simp] theorem updSlot_lnkCache (s : State) (k : Nat) (f : Slot → Slot) : (updSlot s k f).lnkCache = s.lnkCache := rfl
@[simp] theorem updSlot_unsent (s : State) (k : Nat) (f : Slot → Slot) : (updSlot s k f).unsent = s.unsent := rfl
@[simp] theorem updSlot_posted (s : State) (k : Nat) (f : Slot → Slot) : (updSlot s k f).posted = s.posted := rfl
@[simp] theorem updSlot_lifelines (s : State) (k : Nat) (f : Slot → Slot) : (updSlot s k f).lifelines = s.lifelines := rfl
@[simp] theorem updSlot_llResult (s : State) (k : Nat) (f : Slot → Slot) : (updSlot s k f).llResult = s.llResult := rfl
@[simp] theorem updSlot_llStatus (s : State) (k : Nat) (f : Slot → Slot) : (updSlot s k f).llStatus = s.llStatus := rfl
@[simp] theorem updSlot_drawSkews (s : State) (k : Nat) (f : Slot → Slot) : (updSlot s k f).drawSkews = s.drawSkews := rfl
@[simp] theorem updSlot_correlatedArms (s : State) (k : Nat) (f : Slot → Slot) : (updSlot s k f).correlatedArms = s.correlatedArms := rfl
@[simp] theorem updSlot_divergenceEvents (s : State) (k : Nat) (f : Slot → Slot) : (updSlot s k f).divergenceEvents = s.divergenceEvents := rfl
@[simp] theorem updSlot_power (s : State) (k : Nat) (f : Slot → Slot) : (updSlot s k f).power = s.power := rfl
@[simp] theorem updSlot_saves (s : State) (k : Nat) (f : Slot → Slot) : (updSlot s k f).saves = s.saves := rfl
@[simp] theorem updSlot_wear (s : State) (k : Nat) (f : Slot → Slot) : (updSlot s k f).wear = s.wear := rfl
@[simp] theorem updSlot_dict (s : State) (k : Nat) (f : Slot → Slot) : (updSlot s k f).dict = s.dict := rfl
@[simp] theorem updSlot_bg (s : State) (k : Nat) (f : Slot → Slot) : (updSlot s k f).bg = s.bg := rfl
@[simp] theorem updSlot_sat (s : State) (k : Nat) (f : Slot → Slot) : (updSlot s k f).sat = s.sat := rfl
@[simp] theorem updSlot_sec (s : State) (k : Nat) (f : Slot → Slot) : (updSlot s k f).sec = s.sec := rfl
@[simp] theorem updSlot_net (s : State) (k : Nat) (f : Slot → Slot) : (updSlot s k f).net = s.net := rfl
@[simp] theorem updSlot_out (s : State) (k : Nat) (f : Slot → Slot) : (updSlot s k f).out = s.out := rfl
@[simp] theorem updSlot_freeIdx (s : State) (k : Nat) (f : Slot → Slot) : (updSlot s k f).freeIdx = s.freeIdx := rfl
@[simp] theorem updSlot_pending (s : State) (k : Nat) (f : Slot → Slot) : (updSlot s k f).pending = s.pending := rfl
@[simp] theorem updSlot_reg_of (s : State) (k : Nat) (f : Slot → Slot) (o : Nat) : reg (updSlot s k f) o = reg s o := rfl
@[simp] theorem updSlot_core_of (s : State) (k : Nat) (f : Slot → Slot) (c : Nat) : core (updSlot s k f) c = core s c := rfl
@[simp] theorem updSlot_queue_of (s : State) (k : Nat) (f : Slot → Slot) (q : Nat) : queue (updSlot s k f) q = queue s q := rfl
@[simp] theorem updSlot_rowCounter_of (s : State) (k : Nat) (f : Slot → Slot) (c : Nat) : rowCounter (updSlot s k f) c = rowCounter s c := rfl
@[simp] theorem updSlot_stack_of (s : State) (k : Nat) (f : Slot → Slot) (k' : Nat) : stack (updSlot s k f) k' = stack s k' := rfl
@[simp] theorem updSlot_far_of (s : State) (k : Nat) (f : Slot → Slot) (p : Nat) : far (updSlot s k f) p = far s p := rfl
@[simp] theorem updSlot_port_of (s : State) (k : Nat) (f : Slot → Slot) (p : Nat) : port (updSlot s k f) p = port s p := rfl
@[simp] theorem updSlot_lifeline_of (s : State) (k : Nat) (f : Slot → Slot) (n : Nat) : lifeline (updSlot s k f) n = lifeline s n := rfl
@[simp] theorem updSlot_coreReg_of (s : State) (k : Nat) (f : Slot → Slot) (c o : Nat) : coreReg (updSlot s k f) c o = coreReg s c o := rfl
@[simp] theorem updSlot_now_of (s : State) (k : Nat) (f : Slot → Slot) : now (updSlot s k f) = now s := rfl
@[simp] theorem updSlot_activeMask_of (s : State) (k : Nat) (f : Slot → Slot) : activeMask (updSlot s k f) = activeMask s := rfl

/-! updQueue. -/
@[simp] theorem updQueue_regs (s : State) (q : Nat) (f : Queue → Queue) : (updQueue s q f).regs = s.regs := rfl
@[simp] theorem updQueue_mem (s : State) (q : Nat) (f : Queue → Queue) : (updQueue s q f).mem = s.mem := rfl
@[simp] theorem updQueue_clock (s : State) (q : Nat) (f : Queue → Queue) : (updQueue s q f).clock = s.clock := rfl
@[simp] theorem updQueue_pkg (s : State) (q : Nat) (f : Queue → Queue) : (updQueue s q f).pkg = s.pkg := rfl
@[simp] theorem updQueue_cores (s : State) (q : Nat) (f : Queue → Queue) : (updQueue s q f).cores = s.cores := rfl
@[simp] theorem updQueue_counters (s : State) (q : Nat) (f : Queue → Queue) : (updQueue s q f).counters = s.counters := rfl
@[simp] theorem updQueue_hst (s : State) (q : Nat) (f : Queue → Queue) : (updQueue s q f).hst = s.hst := rfl
@[simp] theorem updQueue_cache (s : State) (q : Nat) (f : Queue → Queue) : (updQueue s q f).cache = s.cache := rfl
@[simp] theorem updQueue_mifs (s : State) (q : Nat) (f : Queue → Queue) : (updQueue s q f).mifs = s.mifs := rfl
@[simp] theorem updQueue_fars (s : State) (q : Nat) (f : Queue → Queue) : (updQueue s q f).fars = s.fars := rfl
@[simp] theorem updQueue_ports (s : State) (q : Nat) (f : Queue → Queue) : (updQueue s q f).ports = s.ports := rfl
@[simp] theorem updQueue_groups (s : State) (q : Nat) (f : Queue → Queue) : (updQueue s q f).groups = s.groups := rfl
@[simp] theorem updQueue_merges (s : State) (q : Nat) (f : Queue → Queue) : (updQueue s q f).merges = s.merges := rfl
@[simp] theorem updQueue_gapNext (s : State) (q : Nat) (f : Queue → Queue) : (updQueue s q f).gapNext = s.gapNext := rfl
@[simp] theorem updQueue_linkPost (s : State) (q : Nat) (f : Queue → Queue) : (updQueue s q f).linkPost = s.linkPost := rfl
@[simp] theorem updQueue_lnkCache (s : State) (q : Nat) (f : Queue → Queue) : (updQueue s q f).lnkCache = s.lnkCache := rfl
@[simp] theorem updQueue_unsent (s : State) (q : Nat) (f : Queue → Queue) : (updQueue s q f).unsent = s.unsent := rfl
@[simp] theorem updQueue_posted (s : State) (q : Nat) (f : Queue → Queue) : (updQueue s q f).posted = s.posted := rfl
@[simp] theorem updQueue_lifelines (s : State) (q : Nat) (f : Queue → Queue) : (updQueue s q f).lifelines = s.lifelines := rfl
@[simp] theorem updQueue_llResult (s : State) (q : Nat) (f : Queue → Queue) : (updQueue s q f).llResult = s.llResult := rfl
@[simp] theorem updQueue_llStatus (s : State) (q : Nat) (f : Queue → Queue) : (updQueue s q f).llStatus = s.llStatus := rfl
@[simp] theorem updQueue_drawSkews (s : State) (q : Nat) (f : Queue → Queue) : (updQueue s q f).drawSkews = s.drawSkews := rfl
@[simp] theorem updQueue_correlatedArms (s : State) (q : Nat) (f : Queue → Queue) : (updQueue s q f).correlatedArms = s.correlatedArms := rfl
@[simp] theorem updQueue_divergenceEvents (s : State) (q : Nat) (f : Queue → Queue) : (updQueue s q f).divergenceEvents = s.divergenceEvents := rfl
@[simp] theorem updQueue_power (s : State) (q : Nat) (f : Queue → Queue) : (updQueue s q f).power = s.power := rfl
@[simp] theorem updQueue_saves (s : State) (q : Nat) (f : Queue → Queue) : (updQueue s q f).saves = s.saves := rfl
@[simp] theorem updQueue_wear (s : State) (q : Nat) (f : Queue → Queue) : (updQueue s q f).wear = s.wear := rfl
@[simp] theorem updQueue_dict (s : State) (q : Nat) (f : Queue → Queue) : (updQueue s q f).dict = s.dict := rfl
@[simp] theorem updQueue_bg (s : State) (q : Nat) (f : Queue → Queue) : (updQueue s q f).bg = s.bg := rfl
@[simp] theorem updQueue_sat (s : State) (q : Nat) (f : Queue → Queue) : (updQueue s q f).sat = s.sat := rfl
@[simp] theorem updQueue_sec (s : State) (q : Nat) (f : Queue → Queue) : (updQueue s q f).sec = s.sec := rfl
@[simp] theorem updQueue_net (s : State) (q : Nat) (f : Queue → Queue) : (updQueue s q f).net = s.net := rfl
@[simp] theorem updQueue_out (s : State) (q : Nat) (f : Queue → Queue) : (updQueue s q f).out = s.out := rfl
@[simp] theorem updQueue_freeIdx (s : State) (q : Nat) (f : Queue → Queue) : (updQueue s q f).freeIdx = s.freeIdx := rfl
@[simp] theorem updQueue_pending (s : State) (q : Nat) (f : Queue → Queue) : (updQueue s q f).pending = s.pending := rfl
@[simp] theorem updQueue_reg_of (s : State) (q : Nat) (f : Queue → Queue) (o : Nat) : reg (updQueue s q f) o = reg s o := rfl
@[simp] theorem updQueue_core_of (s : State) (q : Nat) (f : Queue → Queue) (c : Nat) : core (updQueue s q f) c = core s c := rfl
@[simp] theorem updQueue_slotOf_of (s : State) (q : Nat) (f : Queue → Queue) (k : Nat) : slotOf (updQueue s q f) k = slotOf s k := rfl
@[simp] theorem updQueue_rowCounter_of (s : State) (q : Nat) (f : Queue → Queue) (c : Nat) : rowCounter (updQueue s q f) c = rowCounter s c := rfl
@[simp] theorem updQueue_stack_of (s : State) (q : Nat) (f : Queue → Queue) (k : Nat) : stack (updQueue s q f) k = stack s k := rfl
@[simp] theorem updQueue_far_of (s : State) (q : Nat) (f : Queue → Queue) (p : Nat) : far (updQueue s q f) p = far s p := rfl
@[simp] theorem updQueue_port_of (s : State) (q : Nat) (f : Queue → Queue) (p : Nat) : port (updQueue s q f) p = port s p := rfl
@[simp] theorem updQueue_strand_of (s : State) (q : Nat) (f : Queue → Queue) (n : Nat) : strand (updQueue s q f) n = strand s n := rfl
@[simp] theorem updQueue_lifeline_of (s : State) (q : Nat) (f : Queue → Queue) (n : Nat) : lifeline (updQueue s q f) n = lifeline s n := rfl
@[simp] theorem updQueue_coreReg_of (s : State) (q : Nat) (f : Queue → Queue) (c o : Nat) : coreReg (updQueue s q f) c o = coreReg s c o := rfl
@[simp] theorem updQueue_now_of (s : State) (q : Nat) (f : Queue → Queue) : now (updQueue s q f) = now s := rfl
@[simp] theorem updQueue_activeMask_of (s : State) (q : Nat) (f : Queue → Queue) : activeMask (updQueue s q f) = activeMask s := rfl

/-! updCounter. -/
@[simp] theorem updCounter_regs (s : State) (c : Nat) (f : RowCounter → RowCounter) : (updCounter s c f).regs = s.regs := rfl
@[simp] theorem updCounter_mem (s : State) (c : Nat) (f : RowCounter → RowCounter) : (updCounter s c f).mem = s.mem := rfl
@[simp] theorem updCounter_clock (s : State) (c : Nat) (f : RowCounter → RowCounter) : (updCounter s c f).clock = s.clock := rfl
@[simp] theorem updCounter_pkg (s : State) (c : Nat) (f : RowCounter → RowCounter) : (updCounter s c f).pkg = s.pkg := rfl
@[simp] theorem updCounter_cores (s : State) (c : Nat) (f : RowCounter → RowCounter) : (updCounter s c f).cores = s.cores := rfl
@[simp] theorem updCounter_queues (s : State) (c : Nat) (f : RowCounter → RowCounter) : (updCounter s c f).queues = s.queues := rfl
@[simp] theorem updCounter_hst (s : State) (c : Nat) (f : RowCounter → RowCounter) : (updCounter s c f).hst = s.hst := rfl
@[simp] theorem updCounter_cache (s : State) (c : Nat) (f : RowCounter → RowCounter) : (updCounter s c f).cache = s.cache := rfl
@[simp] theorem updCounter_mifs (s : State) (c : Nat) (f : RowCounter → RowCounter) : (updCounter s c f).mifs = s.mifs := rfl
@[simp] theorem updCounter_fars (s : State) (c : Nat) (f : RowCounter → RowCounter) : (updCounter s c f).fars = s.fars := rfl
@[simp] theorem updCounter_ports (s : State) (c : Nat) (f : RowCounter → RowCounter) : (updCounter s c f).ports = s.ports := rfl
@[simp] theorem updCounter_groups (s : State) (c : Nat) (f : RowCounter → RowCounter) : (updCounter s c f).groups = s.groups := rfl
@[simp] theorem updCounter_merges (s : State) (c : Nat) (f : RowCounter → RowCounter) : (updCounter s c f).merges = s.merges := rfl
@[simp] theorem updCounter_gapNext (s : State) (c : Nat) (f : RowCounter → RowCounter) : (updCounter s c f).gapNext = s.gapNext := rfl
@[simp] theorem updCounter_linkPost (s : State) (c : Nat) (f : RowCounter → RowCounter) : (updCounter s c f).linkPost = s.linkPost := rfl
@[simp] theorem updCounter_lnkCache (s : State) (c : Nat) (f : RowCounter → RowCounter) : (updCounter s c f).lnkCache = s.lnkCache := rfl
@[simp] theorem updCounter_unsent (s : State) (c : Nat) (f : RowCounter → RowCounter) : (updCounter s c f).unsent = s.unsent := rfl
@[simp] theorem updCounter_posted (s : State) (c : Nat) (f : RowCounter → RowCounter) : (updCounter s c f).posted = s.posted := rfl
@[simp] theorem updCounter_lifelines (s : State) (c : Nat) (f : RowCounter → RowCounter) : (updCounter s c f).lifelines = s.lifelines := rfl
@[simp] theorem updCounter_llResult (s : State) (c : Nat) (f : RowCounter → RowCounter) : (updCounter s c f).llResult = s.llResult := rfl
@[simp] theorem updCounter_llStatus (s : State) (c : Nat) (f : RowCounter → RowCounter) : (updCounter s c f).llStatus = s.llStatus := rfl
@[simp] theorem updCounter_drawSkews (s : State) (c : Nat) (f : RowCounter → RowCounter) : (updCounter s c f).drawSkews = s.drawSkews := rfl
@[simp] theorem updCounter_correlatedArms (s : State) (c : Nat) (f : RowCounter → RowCounter) : (updCounter s c f).correlatedArms = s.correlatedArms := rfl
@[simp] theorem updCounter_divergenceEvents (s : State) (c : Nat) (f : RowCounter → RowCounter) : (updCounter s c f).divergenceEvents = s.divergenceEvents := rfl
@[simp] theorem updCounter_power (s : State) (c : Nat) (f : RowCounter → RowCounter) : (updCounter s c f).power = s.power := rfl
@[simp] theorem updCounter_saves (s : State) (c : Nat) (f : RowCounter → RowCounter) : (updCounter s c f).saves = s.saves := rfl
@[simp] theorem updCounter_wear (s : State) (c : Nat) (f : RowCounter → RowCounter) : (updCounter s c f).wear = s.wear := rfl
@[simp] theorem updCounter_dict (s : State) (c : Nat) (f : RowCounter → RowCounter) : (updCounter s c f).dict = s.dict := rfl
@[simp] theorem updCounter_bg (s : State) (c : Nat) (f : RowCounter → RowCounter) : (updCounter s c f).bg = s.bg := rfl
@[simp] theorem updCounter_sat (s : State) (c : Nat) (f : RowCounter → RowCounter) : (updCounter s c f).sat = s.sat := rfl
@[simp] theorem updCounter_sec (s : State) (c : Nat) (f : RowCounter → RowCounter) : (updCounter s c f).sec = s.sec := rfl
@[simp] theorem updCounter_net (s : State) (c : Nat) (f : RowCounter → RowCounter) : (updCounter s c f).net = s.net := rfl
@[simp] theorem updCounter_out (s : State) (c : Nat) (f : RowCounter → RowCounter) : (updCounter s c f).out = s.out := rfl
@[simp] theorem updCounter_freeIdx (s : State) (c : Nat) (f : RowCounter → RowCounter) : (updCounter s c f).freeIdx = s.freeIdx := rfl
@[simp] theorem updCounter_pending (s : State) (c : Nat) (f : RowCounter → RowCounter) : (updCounter s c f).pending = s.pending := rfl
@[simp] theorem updCounter_reg_of (s : State) (c : Nat) (f : RowCounter → RowCounter) (o : Nat) : reg (updCounter s c f) o = reg s o := rfl
@[simp] theorem updCounter_core_of (s : State) (c : Nat) (f : RowCounter → RowCounter) (c' : Nat) : core (updCounter s c f) c' = core s c' := rfl
@[simp] theorem updCounter_slotOf_of (s : State) (c : Nat) (f : RowCounter → RowCounter) (k : Nat) : slotOf (updCounter s c f) k = slotOf s k := rfl
@[simp] theorem updCounter_queue_of (s : State) (c : Nat) (f : RowCounter → RowCounter) (q : Nat) : queue (updCounter s c f) q = queue s q := rfl
@[simp] theorem updCounter_stack_of (s : State) (c : Nat) (f : RowCounter → RowCounter) (k : Nat) : stack (updCounter s c f) k = stack s k := rfl
@[simp] theorem updCounter_far_of (s : State) (c : Nat) (f : RowCounter → RowCounter) (p : Nat) : far (updCounter s c f) p = far s p := rfl
@[simp] theorem updCounter_port_of (s : State) (c : Nat) (f : RowCounter → RowCounter) (p : Nat) : port (updCounter s c f) p = port s p := rfl
@[simp] theorem updCounter_strand_of (s : State) (c : Nat) (f : RowCounter → RowCounter) (n : Nat) : strand (updCounter s c f) n = strand s n := rfl
@[simp] theorem updCounter_lifeline_of (s : State) (c : Nat) (f : RowCounter → RowCounter) (n : Nat) : lifeline (updCounter s c f) n = lifeline s n := rfl
@[simp] theorem updCounter_coreReg_of (s : State) (c : Nat) (f : RowCounter → RowCounter) (c' o : Nat) : coreReg (updCounter s c f) c' o = coreReg s c' o := rfl
@[simp] theorem updCounter_now_of (s : State) (c : Nat) (f : RowCounter → RowCounter) : now (updCounter s c f) = now s := rfl
@[simp] theorem updCounter_activeMask_of (s : State) (c : Nat) (f : RowCounter → RowCounter) : activeMask (updCounter s c f) = activeMask s := rfl

/-! updStack. -/
@[simp] theorem updStack_regs (s : State) (k : Nat) (f : Stack → Stack) : (updStack s k f).regs = s.regs := rfl
@[simp] theorem updStack_mem (s : State) (k : Nat) (f : Stack → Stack) : (updStack s k f).mem = s.mem := rfl
@[simp] theorem updStack_clock (s : State) (k : Nat) (f : Stack → Stack) : (updStack s k f).clock = s.clock := rfl
@[simp] theorem updStack_pkg (s : State) (k : Nat) (f : Stack → Stack) : (updStack s k f).pkg = s.pkg := rfl
@[simp] theorem updStack_cores (s : State) (k : Nat) (f : Stack → Stack) : (updStack s k f).cores = s.cores := rfl
@[simp] theorem updStack_counters (s : State) (k : Nat) (f : Stack → Stack) : (updStack s k f).counters = s.counters := rfl
@[simp] theorem updStack_queues (s : State) (k : Nat) (f : Stack → Stack) : (updStack s k f).queues = s.queues := rfl
@[simp] theorem updStack_hst (s : State) (k : Nat) (f : Stack → Stack) : (updStack s k f).hst = s.hst := rfl
@[simp] theorem updStack_cache (s : State) (k : Nat) (f : Stack → Stack) : (updStack s k f).cache = s.cache := rfl
@[simp] theorem updStack_fars (s : State) (k : Nat) (f : Stack → Stack) : (updStack s k f).fars = s.fars := rfl
@[simp] theorem updStack_ports (s : State) (k : Nat) (f : Stack → Stack) : (updStack s k f).ports = s.ports := rfl
@[simp] theorem updStack_groups (s : State) (k : Nat) (f : Stack → Stack) : (updStack s k f).groups = s.groups := rfl
@[simp] theorem updStack_merges (s : State) (k : Nat) (f : Stack → Stack) : (updStack s k f).merges = s.merges := rfl
@[simp] theorem updStack_gapNext (s : State) (k : Nat) (f : Stack → Stack) : (updStack s k f).gapNext = s.gapNext := rfl
@[simp] theorem updStack_linkPost (s : State) (k : Nat) (f : Stack → Stack) : (updStack s k f).linkPost = s.linkPost := rfl
@[simp] theorem updStack_lnkCache (s : State) (k : Nat) (f : Stack → Stack) : (updStack s k f).lnkCache = s.lnkCache := rfl
@[simp] theorem updStack_unsent (s : State) (k : Nat) (f : Stack → Stack) : (updStack s k f).unsent = s.unsent := rfl
@[simp] theorem updStack_posted (s : State) (k : Nat) (f : Stack → Stack) : (updStack s k f).posted = s.posted := rfl
@[simp] theorem updStack_lifelines (s : State) (k : Nat) (f : Stack → Stack) : (updStack s k f).lifelines = s.lifelines := rfl
@[simp] theorem updStack_llResult (s : State) (k : Nat) (f : Stack → Stack) : (updStack s k f).llResult = s.llResult := rfl
@[simp] theorem updStack_llStatus (s : State) (k : Nat) (f : Stack → Stack) : (updStack s k f).llStatus = s.llStatus := rfl
@[simp] theorem updStack_drawSkews (s : State) (k : Nat) (f : Stack → Stack) : (updStack s k f).drawSkews = s.drawSkews := rfl
@[simp] theorem updStack_correlatedArms (s : State) (k : Nat) (f : Stack → Stack) : (updStack s k f).correlatedArms = s.correlatedArms := rfl
@[simp] theorem updStack_divergenceEvents (s : State) (k : Nat) (f : Stack → Stack) : (updStack s k f).divergenceEvents = s.divergenceEvents := rfl
@[simp] theorem updStack_power (s : State) (k : Nat) (f : Stack → Stack) : (updStack s k f).power = s.power := rfl
@[simp] theorem updStack_saves (s : State) (k : Nat) (f : Stack → Stack) : (updStack s k f).saves = s.saves := rfl
@[simp] theorem updStack_wear (s : State) (k : Nat) (f : Stack → Stack) : (updStack s k f).wear = s.wear := rfl
@[simp] theorem updStack_dict (s : State) (k : Nat) (f : Stack → Stack) : (updStack s k f).dict = s.dict := rfl
@[simp] theorem updStack_bg (s : State) (k : Nat) (f : Stack → Stack) : (updStack s k f).bg = s.bg := rfl
@[simp] theorem updStack_sat (s : State) (k : Nat) (f : Stack → Stack) : (updStack s k f).sat = s.sat := rfl
@[simp] theorem updStack_sec (s : State) (k : Nat) (f : Stack → Stack) : (updStack s k f).sec = s.sec := rfl
@[simp] theorem updStack_net (s : State) (k : Nat) (f : Stack → Stack) : (updStack s k f).net = s.net := rfl
@[simp] theorem updStack_out (s : State) (k : Nat) (f : Stack → Stack) : (updStack s k f).out = s.out := rfl
@[simp] theorem updStack_freeIdx (s : State) (k : Nat) (f : Stack → Stack) : (updStack s k f).freeIdx = s.freeIdx := rfl
@[simp] theorem updStack_pending (s : State) (k : Nat) (f : Stack → Stack) : (updStack s k f).pending = s.pending := rfl
@[simp] theorem updStack_reg_of (s : State) (k : Nat) (f : Stack → Stack) (o : Nat) : reg (updStack s k f) o = reg s o := rfl
@[simp] theorem updStack_core_of (s : State) (k : Nat) (f : Stack → Stack) (c : Nat) : core (updStack s k f) c = core s c := rfl
@[simp] theorem updStack_slotOf_of (s : State) (k : Nat) (f : Stack → Stack) (k' : Nat) : slotOf (updStack s k f) k' = slotOf s k' := rfl
@[simp] theorem updStack_queue_of (s : State) (k : Nat) (f : Stack → Stack) (q : Nat) : queue (updStack s k f) q = queue s q := rfl
@[simp] theorem updStack_rowCounter_of (s : State) (k : Nat) (f : Stack → Stack) (c : Nat) : rowCounter (updStack s k f) c = rowCounter s c := rfl
@[simp] theorem updStack_far_of (s : State) (k : Nat) (f : Stack → Stack) (p : Nat) : far (updStack s k f) p = far s p := rfl
@[simp] theorem updStack_port_of (s : State) (k : Nat) (f : Stack → Stack) (p : Nat) : port (updStack s k f) p = port s p := rfl
@[simp] theorem updStack_strand_of (s : State) (k : Nat) (f : Stack → Stack) (n : Nat) : strand (updStack s k f) n = strand s n := rfl
@[simp] theorem updStack_lifeline_of (s : State) (k : Nat) (f : Stack → Stack) (n : Nat) : lifeline (updStack s k f) n = lifeline s n := rfl
@[simp] theorem updStack_coreReg_of (s : State) (k : Nat) (f : Stack → Stack) (c o : Nat) : coreReg (updStack s k f) c o = coreReg s c o := rfl
@[simp] theorem updStack_now_of (s : State) (k : Nat) (f : Stack → Stack) : now (updStack s k f) = now s := rfl
@[simp] theorem updStack_activeMask_of (s : State) (k : Nat) (f : Stack → Stack) : activeMask (updStack s k f) = activeMask s := rfl

/-! updFar. -/
@[simp] theorem updFar_regs (s : State) (p : Nat) (f : Far → Far) : (updFar s p f).regs = s.regs := rfl
@[simp] theorem updFar_mem (s : State) (p : Nat) (f : Far → Far) : (updFar s p f).mem = s.mem := rfl
@[simp] theorem updFar_clock (s : State) (p : Nat) (f : Far → Far) : (updFar s p f).clock = s.clock := rfl
@[simp] theorem updFar_pkg (s : State) (p : Nat) (f : Far → Far) : (updFar s p f).pkg = s.pkg := rfl
@[simp] theorem updFar_cores (s : State) (p : Nat) (f : Far → Far) : (updFar s p f).cores = s.cores := rfl
@[simp] theorem updFar_counters (s : State) (p : Nat) (f : Far → Far) : (updFar s p f).counters = s.counters := rfl
@[simp] theorem updFar_queues (s : State) (p : Nat) (f : Far → Far) : (updFar s p f).queues = s.queues := rfl
@[simp] theorem updFar_hst (s : State) (p : Nat) (f : Far → Far) : (updFar s p f).hst = s.hst := rfl
@[simp] theorem updFar_cache (s : State) (p : Nat) (f : Far → Far) : (updFar s p f).cache = s.cache := rfl
@[simp] theorem updFar_mifs (s : State) (p : Nat) (f : Far → Far) : (updFar s p f).mifs = s.mifs := rfl
@[simp] theorem updFar_ports (s : State) (p : Nat) (f : Far → Far) : (updFar s p f).ports = s.ports := rfl
@[simp] theorem updFar_groups (s : State) (p : Nat) (f : Far → Far) : (updFar s p f).groups = s.groups := rfl
@[simp] theorem updFar_merges (s : State) (p : Nat) (f : Far → Far) : (updFar s p f).merges = s.merges := rfl
@[simp] theorem updFar_gapNext (s : State) (p : Nat) (f : Far → Far) : (updFar s p f).gapNext = s.gapNext := rfl
@[simp] theorem updFar_linkPost (s : State) (p : Nat) (f : Far → Far) : (updFar s p f).linkPost = s.linkPost := rfl
@[simp] theorem updFar_lnkCache (s : State) (p : Nat) (f : Far → Far) : (updFar s p f).lnkCache = s.lnkCache := rfl
@[simp] theorem updFar_unsent (s : State) (p : Nat) (f : Far → Far) : (updFar s p f).unsent = s.unsent := rfl
@[simp] theorem updFar_posted (s : State) (p : Nat) (f : Far → Far) : (updFar s p f).posted = s.posted := rfl
@[simp] theorem updFar_lifelines (s : State) (p : Nat) (f : Far → Far) : (updFar s p f).lifelines = s.lifelines := rfl
@[simp] theorem updFar_llResult (s : State) (p : Nat) (f : Far → Far) : (updFar s p f).llResult = s.llResult := rfl
@[simp] theorem updFar_llStatus (s : State) (p : Nat) (f : Far → Far) : (updFar s p f).llStatus = s.llStatus := rfl
@[simp] theorem updFar_drawSkews (s : State) (p : Nat) (f : Far → Far) : (updFar s p f).drawSkews = s.drawSkews := rfl
@[simp] theorem updFar_correlatedArms (s : State) (p : Nat) (f : Far → Far) : (updFar s p f).correlatedArms = s.correlatedArms := rfl
@[simp] theorem updFar_divergenceEvents (s : State) (p : Nat) (f : Far → Far) : (updFar s p f).divergenceEvents = s.divergenceEvents := rfl
@[simp] theorem updFar_power (s : State) (p : Nat) (f : Far → Far) : (updFar s p f).power = s.power := rfl
@[simp] theorem updFar_saves (s : State) (p : Nat) (f : Far → Far) : (updFar s p f).saves = s.saves := rfl
@[simp] theorem updFar_wear (s : State) (p : Nat) (f : Far → Far) : (updFar s p f).wear = s.wear := rfl
@[simp] theorem updFar_dict (s : State) (p : Nat) (f : Far → Far) : (updFar s p f).dict = s.dict := rfl
@[simp] theorem updFar_bg (s : State) (p : Nat) (f : Far → Far) : (updFar s p f).bg = s.bg := rfl
@[simp] theorem updFar_sat (s : State) (p : Nat) (f : Far → Far) : (updFar s p f).sat = s.sat := rfl
@[simp] theorem updFar_sec (s : State) (p : Nat) (f : Far → Far) : (updFar s p f).sec = s.sec := rfl
@[simp] theorem updFar_net (s : State) (p : Nat) (f : Far → Far) : (updFar s p f).net = s.net := rfl
@[simp] theorem updFar_out (s : State) (p : Nat) (f : Far → Far) : (updFar s p f).out = s.out := rfl
@[simp] theorem updFar_freeIdx (s : State) (p : Nat) (f : Far → Far) : (updFar s p f).freeIdx = s.freeIdx := rfl
@[simp] theorem updFar_pending (s : State) (p : Nat) (f : Far → Far) : (updFar s p f).pending = s.pending := rfl
@[simp] theorem updFar_reg_of (s : State) (p : Nat) (f : Far → Far) (o : Nat) : reg (updFar s p f) o = reg s o := rfl
@[simp] theorem updFar_core_of (s : State) (p : Nat) (f : Far → Far) (c : Nat) : core (updFar s p f) c = core s c := rfl
@[simp] theorem updFar_slotOf_of (s : State) (p : Nat) (f : Far → Far) (k : Nat) : slotOf (updFar s p f) k = slotOf s k := rfl
@[simp] theorem updFar_queue_of (s : State) (p : Nat) (f : Far → Far) (q : Nat) : queue (updFar s p f) q = queue s q := rfl
@[simp] theorem updFar_rowCounter_of (s : State) (p : Nat) (f : Far → Far) (c : Nat) : rowCounter (updFar s p f) c = rowCounter s c := rfl
@[simp] theorem updFar_stack_of (s : State) (p : Nat) (f : Far → Far) (k : Nat) : stack (updFar s p f) k = stack s k := rfl
@[simp] theorem updFar_port_of (s : State) (p : Nat) (f : Far → Far) (p' : Nat) : port (updFar s p f) p' = port s p' := rfl
@[simp] theorem updFar_strand_of (s : State) (p : Nat) (f : Far → Far) (n : Nat) : strand (updFar s p f) n = strand s n := rfl
@[simp] theorem updFar_lifeline_of (s : State) (p : Nat) (f : Far → Far) (n : Nat) : lifeline (updFar s p f) n = lifeline s n := rfl
@[simp] theorem updFar_coreReg_of (s : State) (p : Nat) (f : Far → Far) (c o : Nat) : coreReg (updFar s p f) c o = coreReg s c o := rfl
@[simp] theorem updFar_now_of (s : State) (p : Nat) (f : Far → Far) : now (updFar s p f) = now s := rfl
@[simp] theorem updFar_activeMask_of (s : State) (p : Nat) (f : Far → Far) : activeMask (updFar s p f) = activeMask s := rfl

/-! updPort. -/
@[simp] theorem updPort_regs (s : State) (p : Nat) (f : Port → Port) : (updPort s p f).regs = s.regs := rfl
@[simp] theorem updPort_mem (s : State) (p : Nat) (f : Port → Port) : (updPort s p f).mem = s.mem := rfl
@[simp] theorem updPort_clock (s : State) (p : Nat) (f : Port → Port) : (updPort s p f).clock = s.clock := rfl
@[simp] theorem updPort_pkg (s : State) (p : Nat) (f : Port → Port) : (updPort s p f).pkg = s.pkg := rfl
@[simp] theorem updPort_cores (s : State) (p : Nat) (f : Port → Port) : (updPort s p f).cores = s.cores := rfl
@[simp] theorem updPort_counters (s : State) (p : Nat) (f : Port → Port) : (updPort s p f).counters = s.counters := rfl
@[simp] theorem updPort_queues (s : State) (p : Nat) (f : Port → Port) : (updPort s p f).queues = s.queues := rfl
@[simp] theorem updPort_hst (s : State) (p : Nat) (f : Port → Port) : (updPort s p f).hst = s.hst := rfl
@[simp] theorem updPort_cache (s : State) (p : Nat) (f : Port → Port) : (updPort s p f).cache = s.cache := rfl
@[simp] theorem updPort_mifs (s : State) (p : Nat) (f : Port → Port) : (updPort s p f).mifs = s.mifs := rfl
@[simp] theorem updPort_fars (s : State) (p : Nat) (f : Port → Port) : (updPort s p f).fars = s.fars := rfl
@[simp] theorem updPort_groups (s : State) (p : Nat) (f : Port → Port) : (updPort s p f).groups = s.groups := rfl
@[simp] theorem updPort_merges (s : State) (p : Nat) (f : Port → Port) : (updPort s p f).merges = s.merges := rfl
@[simp] theorem updPort_gapNext (s : State) (p : Nat) (f : Port → Port) : (updPort s p f).gapNext = s.gapNext := rfl
@[simp] theorem updPort_linkPost (s : State) (p : Nat) (f : Port → Port) : (updPort s p f).linkPost = s.linkPost := rfl
@[simp] theorem updPort_lnkCache (s : State) (p : Nat) (f : Port → Port) : (updPort s p f).lnkCache = s.lnkCache := rfl
@[simp] theorem updPort_unsent (s : State) (p : Nat) (f : Port → Port) : (updPort s p f).unsent = s.unsent := rfl
@[simp] theorem updPort_posted (s : State) (p : Nat) (f : Port → Port) : (updPort s p f).posted = s.posted := rfl
@[simp] theorem updPort_lifelines (s : State) (p : Nat) (f : Port → Port) : (updPort s p f).lifelines = s.lifelines := rfl
@[simp] theorem updPort_llResult (s : State) (p : Nat) (f : Port → Port) : (updPort s p f).llResult = s.llResult := rfl
@[simp] theorem updPort_llStatus (s : State) (p : Nat) (f : Port → Port) : (updPort s p f).llStatus = s.llStatus := rfl
@[simp] theorem updPort_drawSkews (s : State) (p : Nat) (f : Port → Port) : (updPort s p f).drawSkews = s.drawSkews := rfl
@[simp] theorem updPort_correlatedArms (s : State) (p : Nat) (f : Port → Port) : (updPort s p f).correlatedArms = s.correlatedArms := rfl
@[simp] theorem updPort_divergenceEvents (s : State) (p : Nat) (f : Port → Port) : (updPort s p f).divergenceEvents = s.divergenceEvents := rfl
@[simp] theorem updPort_power (s : State) (p : Nat) (f : Port → Port) : (updPort s p f).power = s.power := rfl
@[simp] theorem updPort_saves (s : State) (p : Nat) (f : Port → Port) : (updPort s p f).saves = s.saves := rfl
@[simp] theorem updPort_wear (s : State) (p : Nat) (f : Port → Port) : (updPort s p f).wear = s.wear := rfl
@[simp] theorem updPort_dict (s : State) (p : Nat) (f : Port → Port) : (updPort s p f).dict = s.dict := rfl
@[simp] theorem updPort_bg (s : State) (p : Nat) (f : Port → Port) : (updPort s p f).bg = s.bg := rfl
@[simp] theorem updPort_sat (s : State) (p : Nat) (f : Port → Port) : (updPort s p f).sat = s.sat := rfl
@[simp] theorem updPort_sec (s : State) (p : Nat) (f : Port → Port) : (updPort s p f).sec = s.sec := rfl
@[simp] theorem updPort_net (s : State) (p : Nat) (f : Port → Port) : (updPort s p f).net = s.net := rfl
@[simp] theorem updPort_out (s : State) (p : Nat) (f : Port → Port) : (updPort s p f).out = s.out := rfl
@[simp] theorem updPort_freeIdx (s : State) (p : Nat) (f : Port → Port) : (updPort s p f).freeIdx = s.freeIdx := rfl
@[simp] theorem updPort_pending (s : State) (p : Nat) (f : Port → Port) : (updPort s p f).pending = s.pending := rfl
@[simp] theorem updPort_reg_of (s : State) (p : Nat) (f : Port → Port) (o : Nat) : reg (updPort s p f) o = reg s o := rfl
@[simp] theorem updPort_core_of (s : State) (p : Nat) (f : Port → Port) (c : Nat) : core (updPort s p f) c = core s c := rfl
@[simp] theorem updPort_slotOf_of (s : State) (p : Nat) (f : Port → Port) (k : Nat) : slotOf (updPort s p f) k = slotOf s k := rfl
@[simp] theorem updPort_queue_of (s : State) (p : Nat) (f : Port → Port) (q : Nat) : queue (updPort s p f) q = queue s q := rfl
@[simp] theorem updPort_rowCounter_of (s : State) (p : Nat) (f : Port → Port) (c : Nat) : rowCounter (updPort s p f) c = rowCounter s c := rfl
@[simp] theorem updPort_stack_of (s : State) (p : Nat) (f : Port → Port) (k : Nat) : stack (updPort s p f) k = stack s k := rfl
@[simp] theorem updPort_far_of (s : State) (p : Nat) (f : Port → Port) (p' : Nat) : far (updPort s p f) p' = far s p' := rfl
@[simp] theorem updPort_strand_of (s : State) (p : Nat) (f : Port → Port) (n : Nat) : strand (updPort s p f) n = strand s n := rfl
@[simp] theorem updPort_lifeline_of (s : State) (p : Nat) (f : Port → Port) (n : Nat) : lifeline (updPort s p f) n = lifeline s n := rfl
@[simp] theorem updPort_coreReg_of (s : State) (p : Nat) (f : Port → Port) (c o : Nat) : coreReg (updPort s p f) c o = coreReg s c o := rfl
@[simp] theorem updPort_now_of (s : State) (p : Nat) (f : Port → Port) : now (updPort s p f) = now s := rfl
@[simp] theorem updPort_activeMask_of (s : State) (p : Nat) (f : Port → Port) : activeMask (updPort s p f) = activeMask s := rfl

/-! setStrand. -/
@[simp] theorem setStrand_regs (s : State) (n : Nat) (x : Strand) : (setStrand s n x).regs = s.regs := rfl
@[simp] theorem setStrand_mem (s : State) (n : Nat) (x : Strand) : (setStrand s n x).mem = s.mem := rfl
@[simp] theorem setStrand_clock (s : State) (n : Nat) (x : Strand) : (setStrand s n x).clock = s.clock := rfl
@[simp] theorem setStrand_pkg (s : State) (n : Nat) (x : Strand) : (setStrand s n x).pkg = s.pkg := rfl
@[simp] theorem setStrand_cores (s : State) (n : Nat) (x : Strand) : (setStrand s n x).cores = s.cores := rfl
@[simp] theorem setStrand_counters (s : State) (n : Nat) (x : Strand) : (setStrand s n x).counters = s.counters := rfl
@[simp] theorem setStrand_queues (s : State) (n : Nat) (x : Strand) : (setStrand s n x).queues = s.queues := rfl
@[simp] theorem setStrand_cache (s : State) (n : Nat) (x : Strand) : (setStrand s n x).cache = s.cache := rfl
@[simp] theorem setStrand_mifs (s : State) (n : Nat) (x : Strand) : (setStrand s n x).mifs = s.mifs := rfl
@[simp] theorem setStrand_fars (s : State) (n : Nat) (x : Strand) : (setStrand s n x).fars = s.fars := rfl
@[simp] theorem setStrand_ports (s : State) (n : Nat) (x : Strand) : (setStrand s n x).ports = s.ports := rfl
@[simp] theorem setStrand_groups (s : State) (n : Nat) (x : Strand) : (setStrand s n x).groups = s.groups := rfl
@[simp] theorem setStrand_merges (s : State) (n : Nat) (x : Strand) : (setStrand s n x).merges = s.merges := rfl
@[simp] theorem setStrand_gapNext (s : State) (n : Nat) (x : Strand) : (setStrand s n x).gapNext = s.gapNext := rfl
@[simp] theorem setStrand_linkPost (s : State) (n : Nat) (x : Strand) : (setStrand s n x).linkPost = s.linkPost := rfl
@[simp] theorem setStrand_lnkCache (s : State) (n : Nat) (x : Strand) : (setStrand s n x).lnkCache = s.lnkCache := rfl
@[simp] theorem setStrand_unsent (s : State) (n : Nat) (x : Strand) : (setStrand s n x).unsent = s.unsent := rfl
@[simp] theorem setStrand_posted (s : State) (n : Nat) (x : Strand) : (setStrand s n x).posted = s.posted := rfl
@[simp] theorem setStrand_lifelines (s : State) (n : Nat) (x : Strand) : (setStrand s n x).lifelines = s.lifelines := rfl
@[simp] theorem setStrand_llResult (s : State) (n : Nat) (x : Strand) : (setStrand s n x).llResult = s.llResult := rfl
@[simp] theorem setStrand_llStatus (s : State) (n : Nat) (x : Strand) : (setStrand s n x).llStatus = s.llStatus := rfl
@[simp] theorem setStrand_drawSkews (s : State) (n : Nat) (x : Strand) : (setStrand s n x).drawSkews = s.drawSkews := rfl
@[simp] theorem setStrand_correlatedArms (s : State) (n : Nat) (x : Strand) : (setStrand s n x).correlatedArms = s.correlatedArms := rfl
@[simp] theorem setStrand_divergenceEvents (s : State) (n : Nat) (x : Strand) : (setStrand s n x).divergenceEvents = s.divergenceEvents := rfl
@[simp] theorem setStrand_power (s : State) (n : Nat) (x : Strand) : (setStrand s n x).power = s.power := rfl
@[simp] theorem setStrand_saves (s : State) (n : Nat) (x : Strand) : (setStrand s n x).saves = s.saves := rfl
@[simp] theorem setStrand_wear (s : State) (n : Nat) (x : Strand) : (setStrand s n x).wear = s.wear := rfl
@[simp] theorem setStrand_dict (s : State) (n : Nat) (x : Strand) : (setStrand s n x).dict = s.dict := rfl
@[simp] theorem setStrand_bg (s : State) (n : Nat) (x : Strand) : (setStrand s n x).bg = s.bg := rfl
@[simp] theorem setStrand_sat (s : State) (n : Nat) (x : Strand) : (setStrand s n x).sat = s.sat := rfl
@[simp] theorem setStrand_sec (s : State) (n : Nat) (x : Strand) : (setStrand s n x).sec = s.sec := rfl
@[simp] theorem setStrand_net (s : State) (n : Nat) (x : Strand) : (setStrand s n x).net = s.net := rfl
@[simp] theorem setStrand_out (s : State) (n : Nat) (x : Strand) : (setStrand s n x).out = s.out := rfl
@[simp] theorem setStrand_freeIdx (s : State) (n : Nat) (x : Strand) : (setStrand s n x).freeIdx = s.freeIdx := rfl
@[simp] theorem setStrand_pending (s : State) (n : Nat) (x : Strand) : (setStrand s n x).pending = s.pending := rfl
@[simp] theorem setStrand_reg_of (s : State) (n : Nat) (x : Strand) (o : Nat) : reg (setStrand s n x) o = reg s o := rfl
@[simp] theorem setStrand_core_of (s : State) (n : Nat) (x : Strand) (c : Nat) : core (setStrand s n x) c = core s c := rfl
@[simp] theorem setStrand_queue_of (s : State) (n : Nat) (x : Strand) (q : Nat) : queue (setStrand s n x) q = queue s q := rfl
@[simp] theorem setStrand_rowCounter_of (s : State) (n : Nat) (x : Strand) (c : Nat) : rowCounter (setStrand s n x) c = rowCounter s c := rfl
@[simp] theorem setStrand_stack_of (s : State) (n : Nat) (x : Strand) (k : Nat) : stack (setStrand s n x) k = stack s k := rfl
@[simp] theorem setStrand_far_of (s : State) (n : Nat) (x : Strand) (p : Nat) : far (setStrand s n x) p = far s p := rfl
@[simp] theorem setStrand_port_of (s : State) (n : Nat) (x : Strand) (p : Nat) : port (setStrand s n x) p = port s p := rfl
@[simp] theorem setStrand_lifeline_of (s : State) (n : Nat) (x : Strand) (n' : Nat) : lifeline (setStrand s n x) n' = lifeline s n' := rfl
@[simp] theorem setStrand_coreReg_of (s : State) (n : Nat) (x : Strand) (c o : Nat) : coreReg (setStrand s n x) c o = coreReg s c o := rfl
@[simp] theorem setStrand_now_of (s : State) (n : Nat) (x : Strand) : now (setStrand s n x) = now s := rfl
@[simp] theorem setStrand_activeMask_of (s : State) (n : Nat) (x : Strand) : activeMask (setStrand s n x) = activeMask s := rfl

/-! updLifeline. -/
@[simp] theorem updLifeline_regs (s : State) (n : Nat) (f : Lifeline → Lifeline) : (updLifeline s n f).regs = s.regs := rfl
@[simp] theorem updLifeline_mem (s : State) (n : Nat) (f : Lifeline → Lifeline) : (updLifeline s n f).mem = s.mem := rfl
@[simp] theorem updLifeline_clock (s : State) (n : Nat) (f : Lifeline → Lifeline) : (updLifeline s n f).clock = s.clock := rfl
@[simp] theorem updLifeline_pkg (s : State) (n : Nat) (f : Lifeline → Lifeline) : (updLifeline s n f).pkg = s.pkg := rfl
@[simp] theorem updLifeline_cores (s : State) (n : Nat) (f : Lifeline → Lifeline) : (updLifeline s n f).cores = s.cores := rfl
@[simp] theorem updLifeline_counters (s : State) (n : Nat) (f : Lifeline → Lifeline) : (updLifeline s n f).counters = s.counters := rfl
@[simp] theorem updLifeline_queues (s : State) (n : Nat) (f : Lifeline → Lifeline) : (updLifeline s n f).queues = s.queues := rfl
@[simp] theorem updLifeline_hst (s : State) (n : Nat) (f : Lifeline → Lifeline) : (updLifeline s n f).hst = s.hst := rfl
@[simp] theorem updLifeline_cache (s : State) (n : Nat) (f : Lifeline → Lifeline) : (updLifeline s n f).cache = s.cache := rfl
@[simp] theorem updLifeline_mifs (s : State) (n : Nat) (f : Lifeline → Lifeline) : (updLifeline s n f).mifs = s.mifs := rfl
@[simp] theorem updLifeline_fars (s : State) (n : Nat) (f : Lifeline → Lifeline) : (updLifeline s n f).fars = s.fars := rfl
@[simp] theorem updLifeline_ports (s : State) (n : Nat) (f : Lifeline → Lifeline) : (updLifeline s n f).ports = s.ports := rfl
@[simp] theorem updLifeline_groups (s : State) (n : Nat) (f : Lifeline → Lifeline) : (updLifeline s n f).groups = s.groups := rfl
@[simp] theorem updLifeline_merges (s : State) (n : Nat) (f : Lifeline → Lifeline) : (updLifeline s n f).merges = s.merges := rfl
@[simp] theorem updLifeline_gapNext (s : State) (n : Nat) (f : Lifeline → Lifeline) : (updLifeline s n f).gapNext = s.gapNext := rfl
@[simp] theorem updLifeline_linkPost (s : State) (n : Nat) (f : Lifeline → Lifeline) : (updLifeline s n f).linkPost = s.linkPost := rfl
@[simp] theorem updLifeline_lnkCache (s : State) (n : Nat) (f : Lifeline → Lifeline) : (updLifeline s n f).lnkCache = s.lnkCache := rfl
@[simp] theorem updLifeline_unsent (s : State) (n : Nat) (f : Lifeline → Lifeline) : (updLifeline s n f).unsent = s.unsent := rfl
@[simp] theorem updLifeline_posted (s : State) (n : Nat) (f : Lifeline → Lifeline) : (updLifeline s n f).posted = s.posted := rfl
@[simp] theorem updLifeline_llResult (s : State) (n : Nat) (f : Lifeline → Lifeline) : (updLifeline s n f).llResult = s.llResult := rfl
@[simp] theorem updLifeline_llStatus (s : State) (n : Nat) (f : Lifeline → Lifeline) : (updLifeline s n f).llStatus = s.llStatus := rfl
@[simp] theorem updLifeline_drawSkews (s : State) (n : Nat) (f : Lifeline → Lifeline) : (updLifeline s n f).drawSkews = s.drawSkews := rfl
@[simp] theorem updLifeline_correlatedArms (s : State) (n : Nat) (f : Lifeline → Lifeline) : (updLifeline s n f).correlatedArms = s.correlatedArms := rfl
@[simp] theorem updLifeline_divergenceEvents (s : State) (n : Nat) (f : Lifeline → Lifeline) : (updLifeline s n f).divergenceEvents = s.divergenceEvents := rfl
@[simp] theorem updLifeline_power (s : State) (n : Nat) (f : Lifeline → Lifeline) : (updLifeline s n f).power = s.power := rfl
@[simp] theorem updLifeline_saves (s : State) (n : Nat) (f : Lifeline → Lifeline) : (updLifeline s n f).saves = s.saves := rfl
@[simp] theorem updLifeline_wear (s : State) (n : Nat) (f : Lifeline → Lifeline) : (updLifeline s n f).wear = s.wear := rfl
@[simp] theorem updLifeline_dict (s : State) (n : Nat) (f : Lifeline → Lifeline) : (updLifeline s n f).dict = s.dict := rfl
@[simp] theorem updLifeline_bg (s : State) (n : Nat) (f : Lifeline → Lifeline) : (updLifeline s n f).bg = s.bg := rfl
@[simp] theorem updLifeline_sat (s : State) (n : Nat) (f : Lifeline → Lifeline) : (updLifeline s n f).sat = s.sat := rfl
@[simp] theorem updLifeline_sec (s : State) (n : Nat) (f : Lifeline → Lifeline) : (updLifeline s n f).sec = s.sec := rfl
@[simp] theorem updLifeline_net (s : State) (n : Nat) (f : Lifeline → Lifeline) : (updLifeline s n f).net = s.net := rfl
@[simp] theorem updLifeline_out (s : State) (n : Nat) (f : Lifeline → Lifeline) : (updLifeline s n f).out = s.out := rfl
@[simp] theorem updLifeline_freeIdx (s : State) (n : Nat) (f : Lifeline → Lifeline) : (updLifeline s n f).freeIdx = s.freeIdx := rfl
@[simp] theorem updLifeline_pending (s : State) (n : Nat) (f : Lifeline → Lifeline) : (updLifeline s n f).pending = s.pending := rfl
@[simp] theorem updLifeline_reg_of (s : State) (n : Nat) (f : Lifeline → Lifeline) (o : Nat) : reg (updLifeline s n f) o = reg s o := rfl
@[simp] theorem updLifeline_core_of (s : State) (n : Nat) (f : Lifeline → Lifeline) (c : Nat) : core (updLifeline s n f) c = core s c := rfl
@[simp] theorem updLifeline_slotOf_of (s : State) (n : Nat) (f : Lifeline → Lifeline) (k : Nat) : slotOf (updLifeline s n f) k = slotOf s k := rfl
@[simp] theorem updLifeline_queue_of (s : State) (n : Nat) (f : Lifeline → Lifeline) (q : Nat) : queue (updLifeline s n f) q = queue s q := rfl
@[simp] theorem updLifeline_rowCounter_of (s : State) (n : Nat) (f : Lifeline → Lifeline) (c : Nat) : rowCounter (updLifeline s n f) c = rowCounter s c := rfl
@[simp] theorem updLifeline_stack_of (s : State) (n : Nat) (f : Lifeline → Lifeline) (k : Nat) : stack (updLifeline s n f) k = stack s k := rfl
@[simp] theorem updLifeline_far_of (s : State) (n : Nat) (f : Lifeline → Lifeline) (p : Nat) : far (updLifeline s n f) p = far s p := rfl
@[simp] theorem updLifeline_port_of (s : State) (n : Nat) (f : Lifeline → Lifeline) (p : Nat) : port (updLifeline s n f) p = port s p := rfl
@[simp] theorem updLifeline_strand_of (s : State) (n : Nat) (f : Lifeline → Lifeline) (n' : Nat) : strand (updLifeline s n f) n' = strand s n' := rfl
@[simp] theorem updLifeline_coreReg_of (s : State) (n : Nat) (f : Lifeline → Lifeline) (c o : Nat) : coreReg (updLifeline s n f) c o = coreReg s c o := rfl
@[simp] theorem updLifeline_now_of (s : State) (n : Nat) (f : Lifeline → Lifeline) : now (updLifeline s n f) = now s := rfl
@[simp] theorem updLifeline_activeMask_of (s : State) (n : Nat) (f : Lifeline → Lifeline) : activeMask (updLifeline s n f) = activeMask s := rfl

/-! emit. -/
@[simp] theorem emit_regs (s : State) (o : Out) : (emit s o).regs = s.regs := rfl
@[simp] theorem emit_mem (s : State) (o : Out) : (emit s o).mem = s.mem := rfl
@[simp] theorem emit_clock (s : State) (o : Out) : (emit s o).clock = s.clock := rfl
@[simp] theorem emit_pkg (s : State) (o : Out) : (emit s o).pkg = s.pkg := rfl
@[simp] theorem emit_cores (s : State) (o : Out) : (emit s o).cores = s.cores := rfl
@[simp] theorem emit_counters (s : State) (o : Out) : (emit s o).counters = s.counters := rfl
@[simp] theorem emit_queues (s : State) (o : Out) : (emit s o).queues = s.queues := rfl
@[simp] theorem emit_hst (s : State) (o : Out) : (emit s o).hst = s.hst := rfl
@[simp] theorem emit_cache (s : State) (o : Out) : (emit s o).cache = s.cache := rfl
@[simp] theorem emit_mifs (s : State) (o : Out) : (emit s o).mifs = s.mifs := rfl
@[simp] theorem emit_fars (s : State) (o : Out) : (emit s o).fars = s.fars := rfl
@[simp] theorem emit_ports (s : State) (o : Out) : (emit s o).ports = s.ports := rfl
@[simp] theorem emit_groups (s : State) (o : Out) : (emit s o).groups = s.groups := rfl
@[simp] theorem emit_merges (s : State) (o : Out) : (emit s o).merges = s.merges := rfl
@[simp] theorem emit_gapNext (s : State) (o : Out) : (emit s o).gapNext = s.gapNext := rfl
@[simp] theorem emit_linkPost (s : State) (o : Out) : (emit s o).linkPost = s.linkPost := rfl
@[simp] theorem emit_lnkCache (s : State) (o : Out) : (emit s o).lnkCache = s.lnkCache := rfl
@[simp] theorem emit_unsent (s : State) (o : Out) : (emit s o).unsent = s.unsent := rfl
@[simp] theorem emit_posted (s : State) (o : Out) : (emit s o).posted = s.posted := rfl
@[simp] theorem emit_lifelines (s : State) (o : Out) : (emit s o).lifelines = s.lifelines := rfl
@[simp] theorem emit_llResult (s : State) (o : Out) : (emit s o).llResult = s.llResult := rfl
@[simp] theorem emit_llStatus (s : State) (o : Out) : (emit s o).llStatus = s.llStatus := rfl
@[simp] theorem emit_drawSkews (s : State) (o : Out) : (emit s o).drawSkews = s.drawSkews := rfl
@[simp] theorem emit_correlatedArms (s : State) (o : Out) : (emit s o).correlatedArms = s.correlatedArms := rfl
@[simp] theorem emit_divergenceEvents (s : State) (o : Out) : (emit s o).divergenceEvents = s.divergenceEvents := rfl
@[simp] theorem emit_power (s : State) (o : Out) : (emit s o).power = s.power := rfl
@[simp] theorem emit_saves (s : State) (o : Out) : (emit s o).saves = s.saves := rfl
@[simp] theorem emit_wear (s : State) (o : Out) : (emit s o).wear = s.wear := rfl
@[simp] theorem emit_dict (s : State) (o : Out) : (emit s o).dict = s.dict := rfl
@[simp] theorem emit_bg (s : State) (o : Out) : (emit s o).bg = s.bg := rfl
@[simp] theorem emit_sat (s : State) (o : Out) : (emit s o).sat = s.sat := rfl
@[simp] theorem emit_sec (s : State) (o : Out) : (emit s o).sec = s.sec := rfl
@[simp] theorem emit_net (s : State) (o : Out) : (emit s o).net = s.net := rfl
@[simp] theorem emit_freeIdx (s : State) (o : Out) : (emit s o).freeIdx = s.freeIdx := rfl
@[simp] theorem emit_pending (s : State) (o : Out) : (emit s o).pending = s.pending := rfl
@[simp] theorem emit_reg_of (s : State) (o : Out) (o' : Nat) : reg (emit s o) o' = reg s o' := rfl
@[simp] theorem emit_core_of (s : State) (o : Out) (c : Nat) : core (emit s o) c = core s c := rfl
@[simp] theorem emit_slotOf_of (s : State) (o : Out) (k : Nat) : slotOf (emit s o) k = slotOf s k := rfl
@[simp] theorem emit_queue_of (s : State) (o : Out) (q : Nat) : queue (emit s o) q = queue s q := rfl
@[simp] theorem emit_rowCounter_of (s : State) (o : Out) (c : Nat) : rowCounter (emit s o) c = rowCounter s c := rfl
@[simp] theorem emit_stack_of (s : State) (o : Out) (k : Nat) : stack (emit s o) k = stack s k := rfl
@[simp] theorem emit_far_of (s : State) (o : Out) (p : Nat) : far (emit s o) p = far s p := rfl
@[simp] theorem emit_port_of (s : State) (o : Out) (p : Nat) : port (emit s o) p = port s p := rfl
@[simp] theorem emit_strand_of (s : State) (o : Out) (n : Nat) : strand (emit s o) n = strand s n := rfl
@[simp] theorem emit_lifeline_of (s : State) (o : Out) (n : Nat) : lifeline (emit s o) n = lifeline s n := rfl
@[simp] theorem emit_coreReg_of (s : State) (o : Out) (c o' : Nat) : coreReg (emit s o) c o' = coreReg s c o' := rfl
@[simp] theorem emit_now_of (s : State) (o : Out) : now (emit s o) = now s := rfl
@[simp] theorem emit_activeMask_of (s : State) (o : Out) : activeMask (emit s o) = activeMask s := rfl

/-! wrBytes. -/
@[simp] theorem wrBytes_regs (s : State) (a : Nat) (l : List Byte) : (wrBytes s a l).regs = s.regs := rfl
@[simp] theorem wrBytes_clock (s : State) (a : Nat) (l : List Byte) : (wrBytes s a l).clock = s.clock := rfl
@[simp] theorem wrBytes_pkg (s : State) (a : Nat) (l : List Byte) : (wrBytes s a l).pkg = s.pkg := rfl
@[simp] theorem wrBytes_cores (s : State) (a : Nat) (l : List Byte) : (wrBytes s a l).cores = s.cores := rfl
@[simp] theorem wrBytes_counters (s : State) (a : Nat) (l : List Byte) : (wrBytes s a l).counters = s.counters := rfl
@[simp] theorem wrBytes_queues (s : State) (a : Nat) (l : List Byte) : (wrBytes s a l).queues = s.queues := rfl
@[simp] theorem wrBytes_hst (s : State) (a : Nat) (l : List Byte) : (wrBytes s a l).hst = s.hst := rfl
@[simp] theorem wrBytes_cache (s : State) (a : Nat) (l : List Byte) : (wrBytes s a l).cache = s.cache := rfl
@[simp] theorem wrBytes_mifs (s : State) (a : Nat) (l : List Byte) : (wrBytes s a l).mifs = s.mifs := rfl
@[simp] theorem wrBytes_fars (s : State) (a : Nat) (l : List Byte) : (wrBytes s a l).fars = s.fars := rfl
@[simp] theorem wrBytes_ports (s : State) (a : Nat) (l : List Byte) : (wrBytes s a l).ports = s.ports := rfl
@[simp] theorem wrBytes_groups (s : State) (a : Nat) (l : List Byte) : (wrBytes s a l).groups = s.groups := rfl
@[simp] theorem wrBytes_merges (s : State) (a : Nat) (l : List Byte) : (wrBytes s a l).merges = s.merges := rfl
@[simp] theorem wrBytes_gapNext (s : State) (a : Nat) (l : List Byte) : (wrBytes s a l).gapNext = s.gapNext := rfl
@[simp] theorem wrBytes_linkPost (s : State) (a : Nat) (l : List Byte) : (wrBytes s a l).linkPost = s.linkPost := rfl
@[simp] theorem wrBytes_lnkCache (s : State) (a : Nat) (l : List Byte) : (wrBytes s a l).lnkCache = s.lnkCache := rfl
@[simp] theorem wrBytes_unsent (s : State) (a : Nat) (l : List Byte) : (wrBytes s a l).unsent = s.unsent := rfl
@[simp] theorem wrBytes_posted (s : State) (a : Nat) (l : List Byte) : (wrBytes s a l).posted = s.posted := rfl
@[simp] theorem wrBytes_lifelines (s : State) (a : Nat) (l : List Byte) : (wrBytes s a l).lifelines = s.lifelines := rfl
@[simp] theorem wrBytes_llResult (s : State) (a : Nat) (l : List Byte) : (wrBytes s a l).llResult = s.llResult := rfl
@[simp] theorem wrBytes_llStatus (s : State) (a : Nat) (l : List Byte) : (wrBytes s a l).llStatus = s.llStatus := rfl
@[simp] theorem wrBytes_drawSkews (s : State) (a : Nat) (l : List Byte) : (wrBytes s a l).drawSkews = s.drawSkews := rfl
@[simp] theorem wrBytes_correlatedArms (s : State) (a : Nat) (l : List Byte) : (wrBytes s a l).correlatedArms = s.correlatedArms := rfl
@[simp] theorem wrBytes_divergenceEvents (s : State) (a : Nat) (l : List Byte) : (wrBytes s a l).divergenceEvents = s.divergenceEvents := rfl
@[simp] theorem wrBytes_power (s : State) (a : Nat) (l : List Byte) : (wrBytes s a l).power = s.power := rfl
@[simp] theorem wrBytes_saves (s : State) (a : Nat) (l : List Byte) : (wrBytes s a l).saves = s.saves := rfl
@[simp] theorem wrBytes_wear (s : State) (a : Nat) (l : List Byte) : (wrBytes s a l).wear = s.wear := rfl
@[simp] theorem wrBytes_dict (s : State) (a : Nat) (l : List Byte) : (wrBytes s a l).dict = s.dict := rfl
@[simp] theorem wrBytes_bg (s : State) (a : Nat) (l : List Byte) : (wrBytes s a l).bg = s.bg := rfl
@[simp] theorem wrBytes_sat (s : State) (a : Nat) (l : List Byte) : (wrBytes s a l).sat = s.sat := rfl
@[simp] theorem wrBytes_sec (s : State) (a : Nat) (l : List Byte) : (wrBytes s a l).sec = s.sec := rfl
@[simp] theorem wrBytes_net (s : State) (a : Nat) (l : List Byte) : (wrBytes s a l).net = s.net := rfl
@[simp] theorem wrBytes_out (s : State) (a : Nat) (l : List Byte) : (wrBytes s a l).out = s.out := rfl
@[simp] theorem wrBytes_freeIdx (s : State) (a : Nat) (l : List Byte) : (wrBytes s a l).freeIdx = s.freeIdx := rfl
@[simp] theorem wrBytes_pending (s : State) (a : Nat) (l : List Byte) : (wrBytes s a l).pending = s.pending := rfl
@[simp] theorem wrBytes_reg_of (s : State) (a : Nat) (l : List Byte) (o : Nat) : reg (wrBytes s a l) o = reg s o := rfl
@[simp] theorem wrBytes_core_of (s : State) (a : Nat) (l : List Byte) (c : Nat) : core (wrBytes s a l) c = core s c := rfl
@[simp] theorem wrBytes_slotOf_of (s : State) (a : Nat) (l : List Byte) (k : Nat) : slotOf (wrBytes s a l) k = slotOf s k := rfl
@[simp] theorem wrBytes_queue_of (s : State) (a : Nat) (l : List Byte) (q : Nat) : queue (wrBytes s a l) q = queue s q := rfl
@[simp] theorem wrBytes_rowCounter_of (s : State) (a : Nat) (l : List Byte) (c : Nat) : rowCounter (wrBytes s a l) c = rowCounter s c := rfl
@[simp] theorem wrBytes_stack_of (s : State) (a : Nat) (l : List Byte) (k : Nat) : stack (wrBytes s a l) k = stack s k := rfl
@[simp] theorem wrBytes_far_of (s : State) (a : Nat) (l : List Byte) (p : Nat) : far (wrBytes s a l) p = far s p := rfl
@[simp] theorem wrBytes_port_of (s : State) (a : Nat) (l : List Byte) (p : Nat) : port (wrBytes s a l) p = port s p := rfl
@[simp] theorem wrBytes_strand_of (s : State) (a : Nat) (l : List Byte) (n : Nat) : strand (wrBytes s a l) n = strand s n := rfl
@[simp] theorem wrBytes_lifeline_of (s : State) (a : Nat) (l : List Byte) (n : Nat) : lifeline (wrBytes s a l) n = lifeline s n := rfl
@[simp] theorem wrBytes_coreReg_of (s : State) (a : Nat) (l : List Byte) (c o : Nat) : coreReg (wrBytes s a l) c o = coreReg s c o := rfl
@[simp] theorem wrBytes_now_of (s : State) (a : Nat) (l : List Byte) : now (wrBytes s a l) = now s := rfl
@[simp] theorem wrBytes_activeMask_of (s : State) (a : Nat) (l : List Byte) : activeMask (wrBytes s a l) = activeMask s := rfl

/-! wr64. -/
@[simp] theorem wr64_regs (s : State) (a v : Nat) : (wr64 s a v).regs = s.regs := rfl
@[simp] theorem wr64_clock (s : State) (a v : Nat) : (wr64 s a v).clock = s.clock := rfl
@[simp] theorem wr64_pkg (s : State) (a v : Nat) : (wr64 s a v).pkg = s.pkg := rfl
@[simp] theorem wr64_cores (s : State) (a v : Nat) : (wr64 s a v).cores = s.cores := rfl
@[simp] theorem wr64_counters (s : State) (a v : Nat) : (wr64 s a v).counters = s.counters := rfl
@[simp] theorem wr64_queues (s : State) (a v : Nat) : (wr64 s a v).queues = s.queues := rfl
@[simp] theorem wr64_hst (s : State) (a v : Nat) : (wr64 s a v).hst = s.hst := rfl
@[simp] theorem wr64_cache (s : State) (a v : Nat) : (wr64 s a v).cache = s.cache := rfl
@[simp] theorem wr64_mifs (s : State) (a v : Nat) : (wr64 s a v).mifs = s.mifs := rfl
@[simp] theorem wr64_fars (s : State) (a v : Nat) : (wr64 s a v).fars = s.fars := rfl
@[simp] theorem wr64_ports (s : State) (a v : Nat) : (wr64 s a v).ports = s.ports := rfl
@[simp] theorem wr64_groups (s : State) (a v : Nat) : (wr64 s a v).groups = s.groups := rfl
@[simp] theorem wr64_merges (s : State) (a v : Nat) : (wr64 s a v).merges = s.merges := rfl
@[simp] theorem wr64_gapNext (s : State) (a v : Nat) : (wr64 s a v).gapNext = s.gapNext := rfl
@[simp] theorem wr64_linkPost (s : State) (a v : Nat) : (wr64 s a v).linkPost = s.linkPost := rfl
@[simp] theorem wr64_lnkCache (s : State) (a v : Nat) : (wr64 s a v).lnkCache = s.lnkCache := rfl
@[simp] theorem wr64_unsent (s : State) (a v : Nat) : (wr64 s a v).unsent = s.unsent := rfl
@[simp] theorem wr64_posted (s : State) (a v : Nat) : (wr64 s a v).posted = s.posted := rfl
@[simp] theorem wr64_lifelines (s : State) (a v : Nat) : (wr64 s a v).lifelines = s.lifelines := rfl
@[simp] theorem wr64_llResult (s : State) (a v : Nat) : (wr64 s a v).llResult = s.llResult := rfl
@[simp] theorem wr64_llStatus (s : State) (a v : Nat) : (wr64 s a v).llStatus = s.llStatus := rfl
@[simp] theorem wr64_drawSkews (s : State) (a v : Nat) : (wr64 s a v).drawSkews = s.drawSkews := rfl
@[simp] theorem wr64_correlatedArms (s : State) (a v : Nat) : (wr64 s a v).correlatedArms = s.correlatedArms := rfl
@[simp] theorem wr64_divergenceEvents (s : State) (a v : Nat) : (wr64 s a v).divergenceEvents = s.divergenceEvents := rfl
@[simp] theorem wr64_power (s : State) (a v : Nat) : (wr64 s a v).power = s.power := rfl
@[simp] theorem wr64_saves (s : State) (a v : Nat) : (wr64 s a v).saves = s.saves := rfl
@[simp] theorem wr64_wear (s : State) (a v : Nat) : (wr64 s a v).wear = s.wear := rfl
@[simp] theorem wr64_dict (s : State) (a v : Nat) : (wr64 s a v).dict = s.dict := rfl
@[simp] theorem wr64_bg (s : State) (a v : Nat) : (wr64 s a v).bg = s.bg := rfl
@[simp] theorem wr64_sat (s : State) (a v : Nat) : (wr64 s a v).sat = s.sat := rfl
@[simp] theorem wr64_sec (s : State) (a v : Nat) : (wr64 s a v).sec = s.sec := rfl
@[simp] theorem wr64_net (s : State) (a v : Nat) : (wr64 s a v).net = s.net := rfl
@[simp] theorem wr64_out (s : State) (a v : Nat) : (wr64 s a v).out = s.out := rfl
@[simp] theorem wr64_freeIdx (s : State) (a v : Nat) : (wr64 s a v).freeIdx = s.freeIdx := rfl
@[simp] theorem wr64_pending (s : State) (a v : Nat) : (wr64 s a v).pending = s.pending := rfl
@[simp] theorem wr64_reg_of (s : State) (a v : Nat) (o : Nat) : reg (wr64 s a v) o = reg s o := rfl
@[simp] theorem wr64_core_of (s : State) (a v : Nat) (c : Nat) : core (wr64 s a v) c = core s c := rfl
@[simp] theorem wr64_slotOf_of (s : State) (a v : Nat) (k : Nat) : slotOf (wr64 s a v) k = slotOf s k := rfl
@[simp] theorem wr64_queue_of (s : State) (a v : Nat) (q : Nat) : queue (wr64 s a v) q = queue s q := rfl
@[simp] theorem wr64_rowCounter_of (s : State) (a v : Nat) (c : Nat) : rowCounter (wr64 s a v) c = rowCounter s c := rfl
@[simp] theorem wr64_stack_of (s : State) (a v : Nat) (k : Nat) : stack (wr64 s a v) k = stack s k := rfl
@[simp] theorem wr64_far_of (s : State) (a v : Nat) (p : Nat) : far (wr64 s a v) p = far s p := rfl
@[simp] theorem wr64_port_of (s : State) (a v : Nat) (p : Nat) : port (wr64 s a v) p = port s p := rfl
@[simp] theorem wr64_strand_of (s : State) (a v : Nat) (n : Nat) : strand (wr64 s a v) n = strand s n := rfl
@[simp] theorem wr64_lifeline_of (s : State) (a v : Nat) (n : Nat) : lifeline (wr64 s a v) n = lifeline s n := rfl
@[simp] theorem wr64_coreReg_of (s : State) (a v : Nat) (c o : Nat) : coreReg (wr64 s a v) c o = coreReg s c o := rfl
@[simp] theorem wr64_now_of (s : State) (a v : Nat) : now (wr64 s a v) = now s := rfl
@[simp] theorem wr64_activeMask_of (s : State) (a v : Nat) : activeMask (wr64 s a v) = activeMask s := rfl

/-! setObj. -/
@[simp] theorem setObj_regs (s : State) (key : Nat) (v : List Byte) : (setObj s key v).regs = s.regs := rfl
@[simp] theorem setObj_mem (s : State) (key : Nat) (v : List Byte) : (setObj s key v).mem = s.mem := rfl
@[simp] theorem setObj_clock (s : State) (key : Nat) (v : List Byte) : (setObj s key v).clock = s.clock := rfl
@[simp] theorem setObj_pkg (s : State) (key : Nat) (v : List Byte) : (setObj s key v).pkg = s.pkg := rfl
@[simp] theorem setObj_cores (s : State) (key : Nat) (v : List Byte) : (setObj s key v).cores = s.cores := rfl
@[simp] theorem setObj_counters (s : State) (key : Nat) (v : List Byte) : (setObj s key v).counters = s.counters := rfl
@[simp] theorem setObj_queues (s : State) (key : Nat) (v : List Byte) : (setObj s key v).queues = s.queues := rfl
@[simp] theorem setObj_hst (s : State) (key : Nat) (v : List Byte) : (setObj s key v).hst = s.hst := rfl
@[simp] theorem setObj_cache (s : State) (key : Nat) (v : List Byte) : (setObj s key v).cache = s.cache := rfl
@[simp] theorem setObj_mifs (s : State) (key : Nat) (v : List Byte) : (setObj s key v).mifs = s.mifs := rfl
@[simp] theorem setObj_fars (s : State) (key : Nat) (v : List Byte) : (setObj s key v).fars = s.fars := rfl
@[simp] theorem setObj_ports (s : State) (key : Nat) (v : List Byte) : (setObj s key v).ports = s.ports := rfl
@[simp] theorem setObj_groups (s : State) (key : Nat) (v : List Byte) : (setObj s key v).groups = s.groups := rfl
@[simp] theorem setObj_merges (s : State) (key : Nat) (v : List Byte) : (setObj s key v).merges = s.merges := rfl
@[simp] theorem setObj_gapNext (s : State) (key : Nat) (v : List Byte) : (setObj s key v).gapNext = s.gapNext := rfl
@[simp] theorem setObj_linkPost (s : State) (key : Nat) (v : List Byte) : (setObj s key v).linkPost = s.linkPost := rfl
@[simp] theorem setObj_lnkCache (s : State) (key : Nat) (v : List Byte) : (setObj s key v).lnkCache = s.lnkCache := rfl
@[simp] theorem setObj_unsent (s : State) (key : Nat) (v : List Byte) : (setObj s key v).unsent = s.unsent := rfl
@[simp] theorem setObj_posted (s : State) (key : Nat) (v : List Byte) : (setObj s key v).posted = s.posted := rfl
@[simp] theorem setObj_lifelines (s : State) (key : Nat) (v : List Byte) : (setObj s key v).lifelines = s.lifelines := rfl
@[simp] theorem setObj_llResult (s : State) (key : Nat) (v : List Byte) : (setObj s key v).llResult = s.llResult := rfl
@[simp] theorem setObj_llStatus (s : State) (key : Nat) (v : List Byte) : (setObj s key v).llStatus = s.llStatus := rfl
@[simp] theorem setObj_drawSkews (s : State) (key : Nat) (v : List Byte) : (setObj s key v).drawSkews = s.drawSkews := rfl
@[simp] theorem setObj_correlatedArms (s : State) (key : Nat) (v : List Byte) : (setObj s key v).correlatedArms = s.correlatedArms := rfl
@[simp] theorem setObj_divergenceEvents (s : State) (key : Nat) (v : List Byte) : (setObj s key v).divergenceEvents = s.divergenceEvents := rfl
@[simp] theorem setObj_power (s : State) (key : Nat) (v : List Byte) : (setObj s key v).power = s.power := rfl
@[simp] theorem setObj_saves (s : State) (key : Nat) (v : List Byte) : (setObj s key v).saves = s.saves := rfl
@[simp] theorem setObj_wear (s : State) (key : Nat) (v : List Byte) : (setObj s key v).wear = s.wear := rfl
@[simp] theorem setObj_bg (s : State) (key : Nat) (v : List Byte) : (setObj s key v).bg = s.bg := rfl
@[simp] theorem setObj_sat (s : State) (key : Nat) (v : List Byte) : (setObj s key v).sat = s.sat := rfl
@[simp] theorem setObj_sec (s : State) (key : Nat) (v : List Byte) : (setObj s key v).sec = s.sec := rfl
@[simp] theorem setObj_net (s : State) (key : Nat) (v : List Byte) : (setObj s key v).net = s.net := rfl
@[simp] theorem setObj_out (s : State) (key : Nat) (v : List Byte) : (setObj s key v).out = s.out := rfl
@[simp] theorem setObj_freeIdx (s : State) (key : Nat) (v : List Byte) : (setObj s key v).freeIdx = s.freeIdx := rfl
@[simp] theorem setObj_pending (s : State) (key : Nat) (v : List Byte) : (setObj s key v).pending = s.pending := rfl
@[simp] theorem setObj_reg_of (s : State) (key : Nat) (v : List Byte) (o : Nat) : reg (setObj s key v) o = reg s o := rfl
@[simp] theorem setObj_core_of (s : State) (key : Nat) (v : List Byte) (c : Nat) : core (setObj s key v) c = core s c := rfl
@[simp] theorem setObj_slotOf_of (s : State) (key : Nat) (v : List Byte) (k : Nat) : slotOf (setObj s key v) k = slotOf s k := rfl
@[simp] theorem setObj_queue_of (s : State) (key : Nat) (v : List Byte) (q : Nat) : queue (setObj s key v) q = queue s q := rfl
@[simp] theorem setObj_rowCounter_of (s : State) (key : Nat) (v : List Byte) (c : Nat) : rowCounter (setObj s key v) c = rowCounter s c := rfl
@[simp] theorem setObj_stack_of (s : State) (key : Nat) (v : List Byte) (k : Nat) : stack (setObj s key v) k = stack s k := rfl
@[simp] theorem setObj_far_of (s : State) (key : Nat) (v : List Byte) (p : Nat) : far (setObj s key v) p = far s p := rfl
@[simp] theorem setObj_port_of (s : State) (key : Nat) (v : List Byte) (p : Nat) : port (setObj s key v) p = port s p := rfl
@[simp] theorem setObj_strand_of (s : State) (key : Nat) (v : List Byte) (n : Nat) : strand (setObj s key v) n = strand s n := rfl
@[simp] theorem setObj_lifeline_of (s : State) (key : Nat) (v : List Byte) (n : Nat) : lifeline (setObj s key v) n = lifeline s n := rfl
@[simp] theorem setObj_coreReg_of (s : State) (key : Nat) (v : List Byte) (c o : Nat) : coreReg (setObj s key v) c o = coreReg s c o := rfl
@[simp] theorem setObj_now_of (s : State) (key : Nat) (v : List Byte) : now (setObj s key v) = now s := rfl
@[simp] theorem setObj_activeMask_of (s : State) (key : Nat) (v : List Byte) : activeMask (setObj s key v) = activeMask s := rfl

/-! sendChain. -/
@[simp] theorem sendChain_regs (s : State) (a b : Nat) (m : Msg) : (sendChain s a b m).regs = s.regs := rfl
@[simp] theorem sendChain_mem (s : State) (a b : Nat) (m : Msg) : (sendChain s a b m).mem = s.mem := rfl
@[simp] theorem sendChain_clock (s : State) (a b : Nat) (m : Msg) : (sendChain s a b m).clock = s.clock := rfl
@[simp] theorem sendChain_pkg (s : State) (a b : Nat) (m : Msg) : (sendChain s a b m).pkg = s.pkg := rfl
@[simp] theorem sendChain_cores (s : State) (a b : Nat) (m : Msg) : (sendChain s a b m).cores = s.cores := rfl
@[simp] theorem sendChain_counters (s : State) (a b : Nat) (m : Msg) : (sendChain s a b m).counters = s.counters := rfl
@[simp] theorem sendChain_queues (s : State) (a b : Nat) (m : Msg) : (sendChain s a b m).queues = s.queues := rfl
@[simp] theorem sendChain_hst (s : State) (a b : Nat) (m : Msg) : (sendChain s a b m).hst = s.hst := rfl
@[simp] theorem sendChain_cache (s : State) (a b : Nat) (m : Msg) : (sendChain s a b m).cache = s.cache := rfl
@[simp] theorem sendChain_mifs (s : State) (a b : Nat) (m : Msg) : (sendChain s a b m).mifs = s.mifs := rfl
@[simp] theorem sendChain_fars (s : State) (a b : Nat) (m : Msg) : (sendChain s a b m).fars = s.fars := rfl
@[simp] theorem sendChain_ports (s : State) (a b : Nat) (m : Msg) : (sendChain s a b m).ports = s.ports := rfl
@[simp] theorem sendChain_groups (s : State) (a b : Nat) (m : Msg) : (sendChain s a b m).groups = s.groups := rfl
@[simp] theorem sendChain_merges (s : State) (a b : Nat) (m : Msg) : (sendChain s a b m).merges = s.merges := rfl
@[simp] theorem sendChain_gapNext (s : State) (a b : Nat) (m : Msg) : (sendChain s a b m).gapNext = s.gapNext := rfl
@[simp] theorem sendChain_linkPost (s : State) (a b : Nat) (m : Msg) : (sendChain s a b m).linkPost = s.linkPost := rfl
@[simp] theorem sendChain_lnkCache (s : State) (a b : Nat) (m : Msg) : (sendChain s a b m).lnkCache = s.lnkCache := rfl
@[simp] theorem sendChain_unsent (s : State) (a b : Nat) (m : Msg) : (sendChain s a b m).unsent = s.unsent := rfl
@[simp] theorem sendChain_posted (s : State) (a b : Nat) (m : Msg) : (sendChain s a b m).posted = s.posted := rfl
@[simp] theorem sendChain_lifelines (s : State) (a b : Nat) (m : Msg) : (sendChain s a b m).lifelines = s.lifelines := rfl
@[simp] theorem sendChain_llResult (s : State) (a b : Nat) (m : Msg) : (sendChain s a b m).llResult = s.llResult := rfl
@[simp] theorem sendChain_llStatus (s : State) (a b : Nat) (m : Msg) : (sendChain s a b m).llStatus = s.llStatus := rfl
@[simp] theorem sendChain_drawSkews (s : State) (a b : Nat) (m : Msg) : (sendChain s a b m).drawSkews = s.drawSkews := rfl
@[simp] theorem sendChain_correlatedArms (s : State) (a b : Nat) (m : Msg) : (sendChain s a b m).correlatedArms = s.correlatedArms := rfl
@[simp] theorem sendChain_divergenceEvents (s : State) (a b : Nat) (m : Msg) : (sendChain s a b m).divergenceEvents = s.divergenceEvents := rfl
@[simp] theorem sendChain_power (s : State) (a b : Nat) (m : Msg) : (sendChain s a b m).power = s.power := rfl
@[simp] theorem sendChain_saves (s : State) (a b : Nat) (m : Msg) : (sendChain s a b m).saves = s.saves := rfl
@[simp] theorem sendChain_wear (s : State) (a b : Nat) (m : Msg) : (sendChain s a b m).wear = s.wear := rfl
@[simp] theorem sendChain_dict (s : State) (a b : Nat) (m : Msg) : (sendChain s a b m).dict = s.dict := rfl
@[simp] theorem sendChain_bg (s : State) (a b : Nat) (m : Msg) : (sendChain s a b m).bg = s.bg := rfl
@[simp] theorem sendChain_sat (s : State) (a b : Nat) (m : Msg) : (sendChain s a b m).sat = s.sat := rfl
@[simp] theorem sendChain_sec (s : State) (a b : Nat) (m : Msg) : (sendChain s a b m).sec = s.sec := rfl
@[simp] theorem sendChain_out (s : State) (a b : Nat) (m : Msg) : (sendChain s a b m).out = s.out := rfl
@[simp] theorem sendChain_freeIdx (s : State) (a b : Nat) (m : Msg) : (sendChain s a b m).freeIdx = s.freeIdx := rfl
@[simp] theorem sendChain_pending (s : State) (a b : Nat) (m : Msg) : (sendChain s a b m).pending = s.pending := rfl
@[simp] theorem sendChain_reg_of (s : State) (a b : Nat) (m : Msg) (o : Nat) : reg (sendChain s a b m) o = reg s o := rfl
@[simp] theorem sendChain_core_of (s : State) (a b : Nat) (m : Msg) (c : Nat) : core (sendChain s a b m) c = core s c := rfl
@[simp] theorem sendChain_slotOf_of (s : State) (a b : Nat) (m : Msg) (k : Nat) : slotOf (sendChain s a b m) k = slotOf s k := rfl
@[simp] theorem sendChain_queue_of (s : State) (a b : Nat) (m : Msg) (q : Nat) : queue (sendChain s a b m) q = queue s q := rfl
@[simp] theorem sendChain_rowCounter_of (s : State) (a b : Nat) (m : Msg) (c : Nat) : rowCounter (sendChain s a b m) c = rowCounter s c := rfl
@[simp] theorem sendChain_stack_of (s : State) (a b : Nat) (m : Msg) (k : Nat) : stack (sendChain s a b m) k = stack s k := rfl
@[simp] theorem sendChain_far_of (s : State) (a b : Nat) (m : Msg) (p : Nat) : far (sendChain s a b m) p = far s p := rfl
@[simp] theorem sendChain_port_of (s : State) (a b : Nat) (m : Msg) (p : Nat) : port (sendChain s a b m) p = port s p := rfl
@[simp] theorem sendChain_strand_of (s : State) (a b : Nat) (m : Msg) (n : Nat) : strand (sendChain s a b m) n = strand s n := rfl
@[simp] theorem sendChain_lifeline_of (s : State) (a b : Nat) (m : Msg) (n : Nat) : lifeline (sendChain s a b m) n = lifeline s n := rfl
@[simp] theorem sendChain_coreReg_of (s : State) (a b : Nat) (m : Msg) (c o : Nat) : coreReg (sendChain s a b m) c o = coreReg s c o := rfl
@[simp] theorem sendChain_now_of (s : State) (a b : Nat) (m : Msg) : now (sendChain s a b m) = now s := rfl
@[simp] theorem sendChain_activeMask_of (s : State) (a b : Nat) (m : Msg) : activeMask (sendChain s a b m) = activeMask s := rfl

/-! sendBulk. -/
@[simp] theorem sendBulk_regs (s : State) (a b : Nat) (y : BulkType) (tag addr due : Nat) (l : List Byte) : (sendBulk s a b y tag addr due l).regs = s.regs := rfl
@[simp] theorem sendBulk_mem (s : State) (a b : Nat) (y : BulkType) (tag addr due : Nat) (l : List Byte) : (sendBulk s a b y tag addr due l).mem = s.mem := rfl
@[simp] theorem sendBulk_clock (s : State) (a b : Nat) (y : BulkType) (tag addr due : Nat) (l : List Byte) : (sendBulk s a b y tag addr due l).clock = s.clock := rfl
@[simp] theorem sendBulk_pkg (s : State) (a b : Nat) (y : BulkType) (tag addr due : Nat) (l : List Byte) : (sendBulk s a b y tag addr due l).pkg = s.pkg := rfl
@[simp] theorem sendBulk_cores (s : State) (a b : Nat) (y : BulkType) (tag addr due : Nat) (l : List Byte) : (sendBulk s a b y tag addr due l).cores = s.cores := rfl
@[simp] theorem sendBulk_counters (s : State) (a b : Nat) (y : BulkType) (tag addr due : Nat) (l : List Byte) : (sendBulk s a b y tag addr due l).counters = s.counters := rfl
@[simp] theorem sendBulk_queues (s : State) (a b : Nat) (y : BulkType) (tag addr due : Nat) (l : List Byte) : (sendBulk s a b y tag addr due l).queues = s.queues := rfl
@[simp] theorem sendBulk_hst (s : State) (a b : Nat) (y : BulkType) (tag addr due : Nat) (l : List Byte) : (sendBulk s a b y tag addr due l).hst = s.hst := rfl
@[simp] theorem sendBulk_cache (s : State) (a b : Nat) (y : BulkType) (tag addr due : Nat) (l : List Byte) : (sendBulk s a b y tag addr due l).cache = s.cache := rfl
@[simp] theorem sendBulk_mifs (s : State) (a b : Nat) (y : BulkType) (tag addr due : Nat) (l : List Byte) : (sendBulk s a b y tag addr due l).mifs = s.mifs := rfl
@[simp] theorem sendBulk_fars (s : State) (a b : Nat) (y : BulkType) (tag addr due : Nat) (l : List Byte) : (sendBulk s a b y tag addr due l).fars = s.fars := rfl
@[simp] theorem sendBulk_ports (s : State) (a b : Nat) (y : BulkType) (tag addr due : Nat) (l : List Byte) : (sendBulk s a b y tag addr due l).ports = s.ports := rfl
@[simp] theorem sendBulk_groups (s : State) (a b : Nat) (y : BulkType) (tag addr due : Nat) (l : List Byte) : (sendBulk s a b y tag addr due l).groups = s.groups := rfl
@[simp] theorem sendBulk_merges (s : State) (a b : Nat) (y : BulkType) (tag addr due : Nat) (l : List Byte) : (sendBulk s a b y tag addr due l).merges = s.merges := rfl
@[simp] theorem sendBulk_gapNext (s : State) (a b : Nat) (y : BulkType) (tag addr due : Nat) (l : List Byte) : (sendBulk s a b y tag addr due l).gapNext = s.gapNext := rfl
@[simp] theorem sendBulk_linkPost (s : State) (a b : Nat) (y : BulkType) (tag addr due : Nat) (l : List Byte) : (sendBulk s a b y tag addr due l).linkPost = s.linkPost := rfl
@[simp] theorem sendBulk_lnkCache (s : State) (a b : Nat) (y : BulkType) (tag addr due : Nat) (l : List Byte) : (sendBulk s a b y tag addr due l).lnkCache = s.lnkCache := rfl
@[simp] theorem sendBulk_unsent (s : State) (a b : Nat) (y : BulkType) (tag addr due : Nat) (l : List Byte) : (sendBulk s a b y tag addr due l).unsent = s.unsent := rfl
@[simp] theorem sendBulk_posted (s : State) (a b : Nat) (y : BulkType) (tag addr due : Nat) (l : List Byte) : (sendBulk s a b y tag addr due l).posted = s.posted := rfl
@[simp] theorem sendBulk_lifelines (s : State) (a b : Nat) (y : BulkType) (tag addr due : Nat) (l : List Byte) : (sendBulk s a b y tag addr due l).lifelines = s.lifelines := rfl
@[simp] theorem sendBulk_llResult (s : State) (a b : Nat) (y : BulkType) (tag addr due : Nat) (l : List Byte) : (sendBulk s a b y tag addr due l).llResult = s.llResult := rfl
@[simp] theorem sendBulk_llStatus (s : State) (a b : Nat) (y : BulkType) (tag addr due : Nat) (l : List Byte) : (sendBulk s a b y tag addr due l).llStatus = s.llStatus := rfl
@[simp] theorem sendBulk_drawSkews (s : State) (a b : Nat) (y : BulkType) (tag addr due : Nat) (l : List Byte) : (sendBulk s a b y tag addr due l).drawSkews = s.drawSkews := rfl
@[simp] theorem sendBulk_correlatedArms (s : State) (a b : Nat) (y : BulkType) (tag addr due : Nat) (l : List Byte) : (sendBulk s a b y tag addr due l).correlatedArms = s.correlatedArms := rfl
@[simp] theorem sendBulk_divergenceEvents (s : State) (a b : Nat) (y : BulkType) (tag addr due : Nat) (l : List Byte) : (sendBulk s a b y tag addr due l).divergenceEvents = s.divergenceEvents := rfl
@[simp] theorem sendBulk_power (s : State) (a b : Nat) (y : BulkType) (tag addr due : Nat) (l : List Byte) : (sendBulk s a b y tag addr due l).power = s.power := rfl
@[simp] theorem sendBulk_saves (s : State) (a b : Nat) (y : BulkType) (tag addr due : Nat) (l : List Byte) : (sendBulk s a b y tag addr due l).saves = s.saves := rfl
@[simp] theorem sendBulk_wear (s : State) (a b : Nat) (y : BulkType) (tag addr due : Nat) (l : List Byte) : (sendBulk s a b y tag addr due l).wear = s.wear := rfl
@[simp] theorem sendBulk_dict (s : State) (a b : Nat) (y : BulkType) (tag addr due : Nat) (l : List Byte) : (sendBulk s a b y tag addr due l).dict = s.dict := rfl
@[simp] theorem sendBulk_bg (s : State) (a b : Nat) (y : BulkType) (tag addr due : Nat) (l : List Byte) : (sendBulk s a b y tag addr due l).bg = s.bg := rfl
@[simp] theorem sendBulk_sat (s : State) (a b : Nat) (y : BulkType) (tag addr due : Nat) (l : List Byte) : (sendBulk s a b y tag addr due l).sat = s.sat := rfl
@[simp] theorem sendBulk_sec (s : State) (a b : Nat) (y : BulkType) (tag addr due : Nat) (l : List Byte) : (sendBulk s a b y tag addr due l).sec = s.sec := rfl
@[simp] theorem sendBulk_out (s : State) (a b : Nat) (y : BulkType) (tag addr due : Nat) (l : List Byte) : (sendBulk s a b y tag addr due l).out = s.out := rfl
@[simp] theorem sendBulk_freeIdx (s : State) (a b : Nat) (y : BulkType) (tag addr due : Nat) (l : List Byte) : (sendBulk s a b y tag addr due l).freeIdx = s.freeIdx := rfl
@[simp] theorem sendBulk_pending (s : State) (a b : Nat) (y : BulkType) (tag addr due : Nat) (l : List Byte) : (sendBulk s a b y tag addr due l).pending = s.pending := rfl
@[simp] theorem sendBulk_reg_of (s : State) (a b : Nat) (y : BulkType) (tag addr due : Nat) (l : List Byte) (o : Nat) : reg (sendBulk s a b y tag addr due l) o = reg s o := rfl
@[simp] theorem sendBulk_core_of (s : State) (a b : Nat) (y : BulkType) (tag addr due : Nat) (l : List Byte) (c : Nat) : core (sendBulk s a b y tag addr due l) c = core s c := rfl
@[simp] theorem sendBulk_slotOf_of (s : State) (a b : Nat) (y : BulkType) (tag addr due : Nat) (l : List Byte) (k : Nat) : slotOf (sendBulk s a b y tag addr due l) k = slotOf s k := rfl
@[simp] theorem sendBulk_queue_of (s : State) (a b : Nat) (y : BulkType) (tag addr due : Nat) (l : List Byte) (q : Nat) : queue (sendBulk s a b y tag addr due l) q = queue s q := rfl
@[simp] theorem sendBulk_rowCounter_of (s : State) (a b : Nat) (y : BulkType) (tag addr due : Nat) (l : List Byte) (c : Nat) : rowCounter (sendBulk s a b y tag addr due l) c = rowCounter s c := rfl
@[simp] theorem sendBulk_stack_of (s : State) (a b : Nat) (y : BulkType) (tag addr due : Nat) (l : List Byte) (k : Nat) : stack (sendBulk s a b y tag addr due l) k = stack s k := rfl
@[simp] theorem sendBulk_far_of (s : State) (a b : Nat) (y : BulkType) (tag addr due : Nat) (l : List Byte) (p : Nat) : far (sendBulk s a b y tag addr due l) p = far s p := rfl
@[simp] theorem sendBulk_port_of (s : State) (a b : Nat) (y : BulkType) (tag addr due : Nat) (l : List Byte) (p : Nat) : port (sendBulk s a b y tag addr due l) p = port s p := rfl
@[simp] theorem sendBulk_strand_of (s : State) (a b : Nat) (y : BulkType) (tag addr due : Nat) (l : List Byte) (n : Nat) : strand (sendBulk s a b y tag addr due l) n = strand s n := rfl
@[simp] theorem sendBulk_lifeline_of (s : State) (a b : Nat) (y : BulkType) (tag addr due : Nat) (l : List Byte) (n : Nat) : lifeline (sendBulk s a b y tag addr due l) n = lifeline s n := rfl
@[simp] theorem sendBulk_coreReg_of (s : State) (a b : Nat) (y : BulkType) (tag addr due : Nat) (l : List Byte) (c o : Nat) : coreReg (sendBulk s a b y tag addr due l) c o = coreReg s c o := rfl
@[simp] theorem sendBulk_now_of (s : State) (a b : Nat) (y : BulkType) (tag addr due : Nat) (l : List Byte) : now (sendBulk s a b y tag addr due l) = now s := rfl
@[simp] theorem sendBulk_activeMask_of (s : State) (a b : Nat) (y : BulkType) (tag addr due : Nat) (l : List Byte) : activeMask (sendBulk s a b y tag addr due l) = activeMask s := rfl

/-! A read after a write. -/

@[simp] theorem reg_setReg (s : State) (a b v : Nat) : reg (setReg s a v) b = if a = b then v % 2 ^ 64 else reg s b := by
  show tget _ (tset s.regs a (v % 2 ^ 64)) b = _
  rw [tget_tset]
  by_cases h : a = b
  · subst h; simp
  · simp [h, reg]
@[simp] theorem reg_bump (s : State) (a b n : Nat) : reg (bump s a n) b = if a = b then (reg s a + n) % 2 ^ 64 else reg s b := by
  simp [bump]
@[simp] theorem reg_setField (s : State) (a b hi lo v : Nat) :
    reg (setField s a hi lo v) b = if a = b then putBits (reg s a) hi lo v % 2 ^ 64 else reg s b := by
  simp [setField]
@[simp] theorem reg_bumpCore (s : State) (c o n b : Nat) :
    reg (bumpCore s c o n) b = if coreOff c o = b then (reg s (coreOff c o) + n) % 2 ^ 64 else reg s b := by
  simp [bumpCore]
@[simp] theorem reg_clearRegs (s : State) (lo hi b : Nat) : reg (clearRegs s lo hi) b = if lo ≤ b ∧ b ≤ hi then regReset b else reg s b := by
  show tget _ (tdelRange s.regs lo hi) b = _
  unfold tdelRange reg
  induction s.regs with
  | nil => simp [tget]
  | cons p t ih =>
    obtain ⟨a, v⟩ := p
    by_cases h : a < lo ∨ hi < a
    · rw [List.filter_cons_of_pos (by simpa using h)]
      simp only [tget]
      by_cases e : a = b
      · subst e
        have : ¬ (lo ≤ a ∧ a ≤ hi) := by omega
        simp [this]
      · simp [e, ih]
    · rw [List.filter_cons_of_neg (by simpa using h)]
      simp only [tget]
      by_cases e : a = b
      · subst e
        have : lo ≤ a ∧ a ≤ hi := by omega
        simpa [this] using ih
      · simp [e, ih]

@[simp] theorem core_updCore (s : State) (a b : Nat) (f : Core → Core) : core (updCore s a f) b = if a = b then f (core s a) else core s b := by
  simp [core, updCore, setCore, tget_tset]
@[simp] theorem slotOf_updSlot (s : State) (a b : Nat) (f : Slot → Slot) : slotOf (updSlot s a f) b = if a = b then f (slotOf s a) else slotOf s b := by
  simp [slotOf, updSlot, setSlot, tget_tset]
@[simp] theorem queue_updQueue (s : State) (a b : Nat) (f : Queue → Queue) : queue (updQueue s a f) b = if a = b then f (queue s a) else queue s b := by
  simp [queue, updQueue, tget_tset]
@[simp] theorem rowCounter_updCounter (s : State) (a b : Nat) (f : RowCounter → RowCounter) : rowCounter (updCounter s a f) b = if a = b then f (rowCounter s a) else rowCounter s b := by
  simp [rowCounter, updCounter, tget_tset]
@[simp] theorem stack_updStack (s : State) (a b : Nat) (f : Stack → Stack) : stack (updStack s a f) b = if a = b then f (stack s a) else stack s b := by
  simp [stack, updStack, tget_tset]
@[simp] theorem far_updFar (s : State) (a b : Nat) (f : Far → Far) : far (updFar s a f) b = if a = b then f (far s a) else far s b := by
  simp [far, updFar, tget_tset]
@[simp] theorem port_updPort (s : State) (a b : Nat) (f : Port → Port) : port (updPort s a f) b = if a = b then f (port s a) else port s b := by
  simp [port, updPort, tget_tset]
@[simp] theorem lifeline_updLifeline (s : State) (a b : Nat) (f : Lifeline → Lifeline) : lifeline (updLifeline s a f) b = if a = b then f (lifeline s a) else lifeline s b := by
  simp [lifeline, updLifeline, tget_tset]
@[simp] theorem core_setCore (s : State) (a b : Nat) (x : Core) : core (setCore s a x) b = if a = b then x else core s b := by
  simp [core, setCore, tget_tset]
@[simp] theorem slotOf_setSlot (s : State) (a b : Nat) (x : Slot) : slotOf (setSlot s a x) b = if a = b then x else slotOf s b := by
  simp [slotOf, setSlot, tget_tset]
@[simp] theorem strand_setStrand (s : State) (a b : Nat) (x : Strand) : strand (setStrand s a x) b = if a = b then some x else strand s b := by
  simp [strand, setStrand, tfind_tset]
@[simp] theorem slotOf_setStrand (s : State) (a b : Nat) (x : Strand) : slotOf (setStrand s a x) b = slotOf s b := rfl
@[simp] theorem strand_setSlot (s : State) (a b : Nat) (x : Slot) : strand (setSlot s a x) b = strand s b := rfl
@[simp] theorem strand_updSlot (s : State) (a b : Nat) (f : Slot → Slot) : strand (updSlot s a f) b = strand s b := rfl
@[simp] theorem emit_out (s : State) (o : Out) : (emit s o).out = o :: s.out := rfl
@[simp] theorem sendChain_chain (s : State) (a b : Nat) (m : Msg) :
    (sendChain s a b m).net.chain = s.net.chain ++ [{ src := a, dst := b, seq := tget 0 s.net.chainTx (pairKey a b), msg := m, sentAt := now s }] := rfl
@[simp] theorem sendBulk_bulk (s : State) (a b : Nat) (y : BulkType) (tag addr due : Nat) (l : List Byte) :
    (sendBulk s a b y tag addr due l).net.bulk =
      s.net.bulk ++ [{ src := a, dst := b, seq := tget 0 s.net.bulkTx (pairKey a b), type := y, tag := tag, addr := addr, due := due, data := l, sentAt := now s }] := rfl

end Sys2Proof.Machine
end

