-- ==== Sys2Proof/Laws/Events.lean ====
section
/-! SUPPORT. What logging and raising an event does, and what taking a message or a packet does. -/

namespace Sys2Proof.Machine

open Sys2Proof Sys2Proof.Safety

theorem sendMsix_dict (s : State) (v : Nat) : (sendMsix s v).dict = s.dict := by
  unfold sendMsix
  dsimp only
  split <;> rfl

/-- The message and the frame keep what they do not write. -/
theorem tellEvent_keeps {β : Type} (g : State → β) (s : State) (hd : ∀ (u : State) d, g { u with dict := { u.dict with lastEventMsix := d } } = g u)
    (hm : ∀ u, g (sendMsix u 0) = g u) : g (tellEvent s) = g s := by
  unfold tellEvent
  split
  · exact (hm _).trans (hd _ _)
  · rfl
theorem frameEvent_keeps {β : Type} (g : State → β) (s : State) (n : Nat) (e : Event) (hd : ∀ (u : State) d, g { u with dict := { u.dict with tdpSeq := d } } = g u)
    (ho : ∀ u o, g (emit u o) = g u) : g (frameEvent s n e) = g s := by
  unfold frameEvent
  split
  · rfl
  · exact (ho _ _).trans (hd _ _)
/-- Logging keeps what neither the log nor the message touches. -/
theorem logEvent_keeps {β : Type} (g : State → β) (s : State) (e : Event) (hd : ∀ (u : State) d, g { u with dict := d } = g u)
    (hm : ∀ u, g (sendMsix u 0) = g u) (ho : ∀ u o, g (emit u o) = g u) : g (logEvent s e) = g s := by
  unfold logEvent
  dsimp only
  split
  · exact hd _ _
  · exact (frameEvent_keeps g _ _ _ (fun u _ => hd u _) ho).trans ((tellEvent_keeps g _ (fun u _ => hd u _) hm).trans (hd _ _))
theorem logEvent_log {β : Type} (g : Dict → β) (h1 : ∀ d x, g { d with lastEventMsix := x } = g d) (h2 : ∀ d x, g { d with tdpSeq := x } = g d) (s : State) (e : Event) :
    g (logEvent s e).dict = g (recordEvent s e).dict := by
  unfold logEvent
  dsimp only
  split
  · rfl
  · exact (frameEvent_keeps (fun s => g s.dict) _ _ _ (fun _ _ => h2 _ _) (fun _ _ => rfl)).trans
      (tellEvent_keeps (fun s => g s.dict) _ (fun _ _ => h1 _ _) (fun u => by rw [sendMsix_dict]))
theorem logEvent_eventSeq (s : State) (e : Event) : (logEvent s e).dict.eventSeq = s.dict.eventSeq + 1 :=
  logEvent_log (·.eventSeq) (fun _ _ => rfl) (fun _ _ => rfl) s e
theorem logEvent_events (s : State) (e : Event) : (logEvent s e).dict.events = tset s.dict.events (s.dict.eventSeq % 6144) e :=
  logEvent_log (·.events) (fun _ _ => rfl) (fun _ _ => rfl) s e

theorem logEvent_latest (s : State) (e : Event) : latestEvent (logEvent s e) = some e := by
  simp [latestEvent, logEvent_eventSeq, logEvent_events, tfind_tset]

/-- The management die's own event is logged at once (19 R475). -/
theorem raise_mgt_logged (s : State) (code severity strandN coreN : Nat) (args : List Nat) :
    LoggedEvent s (raise s mgtDie code severity strandN coreN args) code severity args := by
  unfold raise
  simp only [if_true]
  exact ⟨logEvent_eventSeq _ _, _, logEvent_latest _ _, rfl, rfl, rfl, rfl⟩

/-- Its own event keeps the strands, and every register but the pending bits of vector 0. -/
theorem raise_strands (s : State) (c v a b : Nat) (l : List Nat) : (raise s mgtDie c v a b l).hst.strands = s.hst.strands := by
  unfold raise; rw [if_pos rfl]
  exact logEvent_keeps (·.hst.strands) s _ (fun _ _ => rfl) (fun u => by unfold sendMsix; dsimp only; split <;> rfl) (fun _ _ => rfl)
theorem raise_reg (s : State) (c v a b : Nat) (l : List Nat) (off : Nat) (h : pbaOff 0 ≠ off) : reg (raise s mgtDie c v a b l) off = reg s off := by
  unfold raise; rw [if_pos rfl]
  exact logEvent_keeps (reg · off) s _ (fun _ _ => rfl) (fun u => by
    unfold sendMsix; dsimp only; split
    · rw [reg_setReg, if_neg h]; rfl
    · rfl) (fun _ _ => rfl)

/-- Any other die's event goes to the management die over the chain (19 R474). -/
theorem raise_sends (s : State) (die code severity strandN coreN : Nat) (args : List Nat) (h : die ≠ mgtDie) :
    raise s die code severity strandN coreN args = 
      sendChain s die mgtDie (.event ⟨code, severity, die, now s, strandN, coreN, throttled s, args⟩) := by
  simp [raise, h]

/-- Any other die's event, seen from a state whose network is as it is. -/
theorem raise_sentEvent (s u : State) (die code severity strandN coreN : Nat) (args : List Nat) (h : die ≠ mgtDie) (hn : u.net = s.net)
    (ht : now u = now s) : SentEvent s (raise u die code severity strandN coreN args) die code severity args := by
  rw [raise_sends _ _ _ _ _ _ _ h]
  exact ⟨⟨code, severity, die, now u, strandN, coreN, throttled u, args⟩, by simp [Sent, sendChain, hn, ht], rfl, rfl, rfl, ht, rfl⟩

theorem onChain_new {die : Nat} {f : Frame} {s : State} (k : State → State) (h : NewMessage s die f) :
    onChain die f s k = k (tookMessage s die f) := by
  unfold onChain
  rw [show chainRepeat s die f = false from h]
  rfl

theorem onBulk_new {die : Nat} {t : BulkTag} {s : State} (k : State → State) (h : NewPacket s die t) :
    onBulk die t s k = k (tookPacket s die t) := by
  unfold onBulk
  simp only [show (tget [] s.net.bulkRx (pairKey t.src die)).contains t.seq.val = false from h]
  rfl

/-! Taking a message or a packet changes the numbering alone. -/

@[simp] theorem tookMessage_regs (s : State) (die : Nat) (f : Frame) : (tookMessage s die f).regs = s.regs := rfl
@[simp] theorem tookMessage_mem (s : State) (die : Nat) (f : Frame) : (tookMessage s die f).mem = s.mem := rfl
@[simp] theorem tookMessage_clock (s : State) (die : Nat) (f : Frame) : (tookMessage s die f).clock = s.clock := rfl
@[simp] theorem tookMessage_pkg (s : State) (die : Nat) (f : Frame) : (tookMessage s die f).pkg = s.pkg := rfl
@[simp] theorem tookMessage_cores (s : State) (die : Nat) (f : Frame) : (tookMessage s die f).cores = s.cores := rfl
@[simp] theorem tookMessage_counters (s : State) (die : Nat) (f : Frame) : (tookMessage s die f).counters = s.counters := rfl
@[simp] theorem tookMessage_queues (s : State) (die : Nat) (f : Frame) : (tookMessage s die f).queues = s.queues := rfl
@[simp] theorem tookMessage_hst (s : State) (die : Nat) (f : Frame) : (tookMessage s die f).hst = s.hst := rfl
@[simp] theorem tookMessage_cache (s : State) (die : Nat) (f : Frame) : (tookMessage s die f).cache = s.cache := rfl
@[simp] theorem tookMessage_mifs (s : State) (die : Nat) (f : Frame) : (tookMessage s die f).mifs = s.mifs := rfl
@[simp] theorem tookMessage_fars (s : State) (die : Nat) (f : Frame) : (tookMessage s die f).fars = s.fars := rfl
@[simp] theorem tookMessage_ports (s : State) (die : Nat) (f : Frame) : (tookMessage s die f).ports = s.ports := rfl
@[simp] theorem tookMessage_groups (s : State) (die : Nat) (f : Frame) : (tookMessage s die f).groups = s.groups := rfl
@[simp] theorem tookMessage_merges (s : State) (die : Nat) (f : Frame) : (tookMessage s die f).merges = s.merges := rfl
@[simp] theorem tookMessage_gapNext (s : State) (die : Nat) (f : Frame) : (tookMessage s die f).gapNext = s.gapNext := rfl
@[simp] theorem tookMessage_linkPost (s : State) (die : Nat) (f : Frame) : (tookMessage s die f).linkPost = s.linkPost := rfl
@[simp] theorem tookMessage_lnkCache (s : State) (die : Nat) (f : Frame) : (tookMessage s die f).lnkCache = s.lnkCache := rfl
@[simp] theorem tookMessage_unsent (s : State) (die : Nat) (f : Frame) : (tookMessage s die f).unsent = s.unsent := rfl
@[simp] theorem tookMessage_posted (s : State) (die : Nat) (f : Frame) : (tookMessage s die f).posted = s.posted := rfl
@[simp] theorem tookMessage_lifelines (s : State) (die : Nat) (f : Frame) : (tookMessage s die f).lifelines = s.lifelines := rfl
@[simp] theorem tookMessage_llResult (s : State) (die : Nat) (f : Frame) : (tookMessage s die f).llResult = s.llResult := rfl
@[simp] theorem tookMessage_llStatus (s : State) (die : Nat) (f : Frame) : (tookMessage s die f).llStatus = s.llStatus := rfl
@[simp] theorem tookMessage_drawSkews (s : State) (die : Nat) (f : Frame) : (tookMessage s die f).drawSkews = s.drawSkews := rfl
@[simp] theorem tookMessage_correlatedArms (s : State) (die : Nat) (f : Frame) : (tookMessage s die f).correlatedArms = s.correlatedArms := rfl
@[simp] theorem tookMessage_divergenceEvents (s : State) (die : Nat) (f : Frame) : (tookMessage s die f).divergenceEvents = s.divergenceEvents := rfl
@[simp] theorem tookMessage_power (s : State) (die : Nat) (f : Frame) : (tookMessage s die f).power = s.power := rfl
@[simp] theorem tookMessage_saves (s : State) (die : Nat) (f : Frame) : (tookMessage s die f).saves = s.saves := rfl
@[simp] theorem tookMessage_wear (s : State) (die : Nat) (f : Frame) : (tookMessage s die f).wear = s.wear := rfl
@[simp] theorem tookMessage_dict (s : State) (die : Nat) (f : Frame) : (tookMessage s die f).dict = s.dict := rfl
@[simp] theorem tookMessage_bg (s : State) (die : Nat) (f : Frame) : (tookMessage s die f).bg = s.bg := rfl
@[simp] theorem tookMessage_sat (s : State) (die : Nat) (f : Frame) : (tookMessage s die f).sat = s.sat := rfl
@[simp] theorem tookMessage_sec (s : State) (die : Nat) (f : Frame) : (tookMessage s die f).sec = s.sec := rfl
@[simp] theorem tookMessage_out (s : State) (die : Nat) (f : Frame) : (tookMessage s die f).out = s.out := rfl
@[simp] theorem tookMessage_freeIdx (s : State) (die : Nat) (f : Frame) : (tookMessage s die f).freeIdx = s.freeIdx := rfl
@[simp] theorem tookMessage_pending (s : State) (die : Nat) (f : Frame) : (tookMessage s die f).pending = s.pending := rfl
@[simp] theorem tookMessage_reg_of (s : State) (die : Nat) (f : Frame) (o : Nat) : reg (tookMessage s die f) o = reg s o := rfl
@[simp] theorem tookMessage_core_of (s : State) (die : Nat) (f : Frame) (c : Nat) : core (tookMessage s die f) c = core s c := rfl
@[simp] theorem tookMessage_slotOf_of (s : State) (die : Nat) (f : Frame) (k : Nat) : slotOf (tookMessage s die f) k = slotOf s k := rfl
@[simp] theorem tookMessage_queue_of (s : State) (die : Nat) (f : Frame) (q : Nat) : queue (tookMessage s die f) q = queue s q := rfl
@[simp] theorem tookMessage_rowCounter_of (s : State) (die : Nat) (f : Frame) (c : Nat) : rowCounter (tookMessage s die f) c = rowCounter s c := rfl
@[simp] theorem tookMessage_stack_of (s : State) (die : Nat) (f : Frame) (k : Nat) : stack (tookMessage s die f) k = stack s k := rfl
@[simp] theorem tookMessage_far_of (s : State) (die : Nat) (f : Frame) (p : Nat) : far (tookMessage s die f) p = far s p := rfl
@[simp] theorem tookMessage_port_of (s : State) (die : Nat) (f : Frame) (p : Nat) : port (tookMessage s die f) p = port s p := rfl
@[simp] theorem tookMessage_strand_of (s : State) (die : Nat) (f : Frame) (n : Nat) : strand (tookMessage s die f) n = strand s n := rfl
@[simp] theorem tookMessage_lifeline_of (s : State) (die : Nat) (f : Frame) (n : Nat) : lifeline (tookMessage s die f) n = lifeline s n := rfl
@[simp] theorem tookMessage_coreReg_of (s : State) (die : Nat) (f : Frame) (c o : Nat) : coreReg (tookMessage s die f) c o = coreReg s c o := rfl
@[simp] theorem tookMessage_objBytes_of (s : State) (die : Nat) (f : Frame) (k : Nat) : objBytes (tookMessage s die f) k = objBytes s k := rfl
@[simp] theorem tookMessage_objNat_of (s : State) (die : Nat) (f : Frame) (k : Nat) : objNat (tookMessage s die f) k = objNat s k := rfl
@[simp] theorem tookMessage_coreActive_of (s : State) (die : Nat) (f : Frame) (c : Nat) : coreActive (tookMessage s die f) c = coreActive s c := rfl
@[simp] theorem tookMessage_now_of (s : State) (die : Nat) (f : Frame) : now (tookMessage s die f) = now s := rfl
@[simp] theorem tookMessage_throttled_of (s : State) (die : Nat) (f : Frame) : throttled (tookMessage s die f) = throttled s := rfl
@[simp] theorem tookMessage_activeMask_of (s : State) (die : Nat) (f : Frame) : activeMask (tookMessage s die f) = activeMask s := rfl
@[simp] theorem tookMessage_translate_of (s : State) (die : Nat) (f : Frame) (n v : Nat) (w : Bool) : translate (tookMessage s die f) n v w = translate s n v w := rfl
@[simp] theorem tookMessage_rd64_of (s : State) (die : Nat) (f : Frame) (a : Nat) : rd64 (tookMessage s die f) a = rd64 s a := rfl

@[simp] theorem tookPacket_regs (s : State) (die : Nat) (f : BulkTag) : (tookPacket s die f).regs = s.regs := rfl
@[simp] theorem tookPacket_mem (s : State) (die : Nat) (f : BulkTag) : (tookPacket s die f).mem = s.mem := rfl
@[simp] theorem tookPacket_clock (s : State) (die : Nat) (f : BulkTag) : (tookPacket s die f).clock = s.clock := rfl
@[simp] theorem tookPacket_pkg (s : State) (die : Nat) (f : BulkTag) : (tookPacket s die f).pkg = s.pkg := rfl
@[simp] theorem tookPacket_cores (s : State) (die : Nat) (f : BulkTag) : (tookPacket s die f).cores = s.cores := rfl
@[simp] theorem tookPacket_counters (s : State) (die : Nat) (f : BulkTag) : (tookPacket s die f).counters = s.counters := rfl
@[simp] theorem tookPacket_queues (s : State) (die : Nat) (f : BulkTag) : (tookPacket s die f).queues = s.queues := rfl
@[simp] theorem tookPacket_hst (s : State) (die : Nat) (f : BulkTag) : (tookPacket s die f).hst = s.hst := rfl
@[simp] theorem tookPacket_cache (s : State) (die : Nat) (f : BulkTag) : (tookPacket s die f).cache = s.cache := rfl
@[simp] theorem tookPacket_mifs (s : State) (die : Nat) (f : BulkTag) : (tookPacket s die f).mifs = s.mifs := rfl
@[simp] theorem tookPacket_fars (s : State) (die : Nat) (f : BulkTag) : (tookPacket s die f).fars = s.fars := rfl
@[simp] theorem tookPacket_ports (s : State) (die : Nat) (f : BulkTag) : (tookPacket s die f).ports = s.ports := rfl
@[simp] theorem tookPacket_groups (s : State) (die : Nat) (f : BulkTag) : (tookPacket s die f).groups = s.groups := rfl
@[simp] theorem tookPacket_merges (s : State) (die : Nat) (f : BulkTag) : (tookPacket s die f).merges = s.merges := rfl
@[simp] theorem tookPacket_gapNext (s : State) (die : Nat) (f : BulkTag) : (tookPacket s die f).gapNext = s.gapNext := rfl
@[simp] theorem tookPacket_linkPost (s : State) (die : Nat) (f : BulkTag) : (tookPacket s die f).linkPost = s.linkPost := rfl
@[simp] theorem tookPacket_lnkCache (s : State) (die : Nat) (f : BulkTag) : (tookPacket s die f).lnkCache = s.lnkCache := rfl
@[simp] theorem tookPacket_unsent (s : State) (die : Nat) (f : BulkTag) : (tookPacket s die f).unsent = s.unsent := rfl
@[simp] theorem tookPacket_posted (s : State) (die : Nat) (f : BulkTag) : (tookPacket s die f).posted = s.posted := rfl
@[simp] theorem tookPacket_lifelines (s : State) (die : Nat) (f : BulkTag) : (tookPacket s die f).lifelines = s.lifelines := rfl
@[simp] theorem tookPacket_llResult (s : State) (die : Nat) (f : BulkTag) : (tookPacket s die f).llResult = s.llResult := rfl
@[simp] theorem tookPacket_llStatus (s : State) (die : Nat) (f : BulkTag) : (tookPacket s die f).llStatus = s.llStatus := rfl
@[simp] theorem tookPacket_drawSkews (s : State) (die : Nat) (f : BulkTag) : (tookPacket s die f).drawSkews = s.drawSkews := rfl
@[simp] theorem tookPacket_correlatedArms (s : State) (die : Nat) (f : BulkTag) : (tookPacket s die f).correlatedArms = s.correlatedArms := rfl
@[simp] theorem tookPacket_divergenceEvents (s : State) (die : Nat) (f : BulkTag) : (tookPacket s die f).divergenceEvents = s.divergenceEvents := rfl
@[simp] theorem tookPacket_power (s : State) (die : Nat) (f : BulkTag) : (tookPacket s die f).power = s.power := rfl
@[simp] theorem tookPacket_saves (s : State) (die : Nat) (f : BulkTag) : (tookPacket s die f).saves = s.saves := rfl
@[simp] theorem tookPacket_wear (s : State) (die : Nat) (f : BulkTag) : (tookPacket s die f).wear = s.wear := rfl
@[simp] theorem tookPacket_dict (s : State) (die : Nat) (f : BulkTag) : (tookPacket s die f).dict = s.dict := rfl
@[simp] theorem tookPacket_bg (s : State) (die : Nat) (f : BulkTag) : (tookPacket s die f).bg = s.bg := rfl
@[simp] theorem tookPacket_sat (s : State) (die : Nat) (f : BulkTag) : (tookPacket s die f).sat = s.sat := rfl
@[simp] theorem tookPacket_sec (s : State) (die : Nat) (f : BulkTag) : (tookPacket s die f).sec = s.sec := rfl
@[simp] theorem tookPacket_out (s : State) (die : Nat) (f : BulkTag) : (tookPacket s die f).out = s.out := rfl
@[simp] theorem tookPacket_freeIdx (s : State) (die : Nat) (f : BulkTag) : (tookPacket s die f).freeIdx = s.freeIdx := rfl
@[simp] theorem tookPacket_pending (s : State) (die : Nat) (f : BulkTag) : (tookPacket s die f).pending = s.pending := rfl
@[simp] theorem tookPacket_reg_of (s : State) (die : Nat) (f : BulkTag) (o : Nat) : reg (tookPacket s die f) o = reg s o := rfl
@[simp] theorem tookPacket_core_of (s : State) (die : Nat) (f : BulkTag) (c : Nat) : core (tookPacket s die f) c = core s c := rfl
@[simp] theorem tookPacket_slotOf_of (s : State) (die : Nat) (f : BulkTag) (k : Nat) : slotOf (tookPacket s die f) k = slotOf s k := rfl
@[simp] theorem tookPacket_queue_of (s : State) (die : Nat) (f : BulkTag) (q : Nat) : queue (tookPacket s die f) q = queue s q := rfl
@[simp] theorem tookPacket_rowCounter_of (s : State) (die : Nat) (f : BulkTag) (c : Nat) : rowCounter (tookPacket s die f) c = rowCounter s c := rfl
@[simp] theorem tookPacket_stack_of (s : State) (die : Nat) (f : BulkTag) (k : Nat) : stack (tookPacket s die f) k = stack s k := rfl
@[simp] theorem tookPacket_far_of (s : State) (die : Nat) (f : BulkTag) (p : Nat) : far (tookPacket s die f) p = far s p := rfl
@[simp] theorem tookPacket_port_of (s : State) (die : Nat) (f : BulkTag) (p : Nat) : port (tookPacket s die f) p = port s p := rfl
@[simp] theorem tookPacket_strand_of (s : State) (die : Nat) (f : BulkTag) (n : Nat) : strand (tookPacket s die f) n = strand s n := rfl
@[simp] theorem tookPacket_lifeline_of (s : State) (die : Nat) (f : BulkTag) (n : Nat) : lifeline (tookPacket s die f) n = lifeline s n := rfl
@[simp] theorem tookPacket_coreReg_of (s : State) (die : Nat) (f : BulkTag) (c o : Nat) : coreReg (tookPacket s die f) c o = coreReg s c o := rfl
@[simp] theorem tookPacket_objBytes_of (s : State) (die : Nat) (f : BulkTag) (k : Nat) : objBytes (tookPacket s die f) k = objBytes s k := rfl
@[simp] theorem tookPacket_objNat_of (s : State) (die : Nat) (f : BulkTag) (k : Nat) : objNat (tookPacket s die f) k = objNat s k := rfl
@[simp] theorem tookPacket_coreActive_of (s : State) (die : Nat) (f : BulkTag) (c : Nat) : coreActive (tookPacket s die f) c = coreActive s c := rfl
@[simp] theorem tookPacket_now_of (s : State) (die : Nat) (f : BulkTag) : now (tookPacket s die f) = now s := rfl
@[simp] theorem tookPacket_throttled_of (s : State) (die : Nat) (f : BulkTag) : throttled (tookPacket s die f) = throttled s := rfl
@[simp] theorem tookPacket_activeMask_of (s : State) (die : Nat) (f : BulkTag) : activeMask (tookPacket s die f) = activeMask s := rfl
@[simp] theorem tookPacket_translate_of (s : State) (die : Nat) (f : BulkTag) (n v : Nat) (w : Bool) : translate (tookPacket s die f) n v w = translate s n v w := rfl
@[simp] theorem tookPacket_rd64_of (s : State) (die : Nat) (f : BulkTag) (a : Nat) : rd64 (tookPacket s die f) a = rd64 s a := rfl

end Sys2Proof.Machine
end

