-- ==== Sys2Proof/Laws/Tasks.lean ====
section
/-! SUPPORT. What the shared operations of tasks do: messages to cores, the end of a task, claims and row counters. -/

namespace Sys2Proof.Machine

open Sys2Proof Sys2Proof.Safety

/-- What a fold of an operation keeps. -/
theorem each_keeps {α β : Type} (g : State → β) (l : List α) (s : State) (f : State → α → State) (h : ∀ s, ∀ x ∈ l, g (f s x) = g s) :
    g (each l s f) = g s := by
  induction l generalizing s with
  | nil => rfl
  | cons x l ih => exact (ih _ (fun s y hy => h s y (by simp [hy]))).trans (h _ x (by simp))

/-- A fold of operations that change nothing. -/
theorem each_id {α : Type} (l : List α) (s : State) (f : State → α → State) (h : ∀ x ∈ l, f s x = s) : each l s f = s := by
  induction l with
  | nil => rfl
  | cons x l ih =>
    show each l (f s x) f = s
    rw [h x (by simp)]
    exact ih (fun y hy => h y (by simp [hy]))

theorem OnlyParts.mono {s t : State} {l : List Part} (h : OnlyParts l s t) (n : List Part) (hn : ∀ p ∈ l, p ∈ n) : OnlyParts n s t :=
  fun p hp => h p (fun hl => hp (hn p hl))

theorem OnlyParts.ite {s t u : State} {l : List Part} {p : Prop} [Decidable p] (h1 : p → OnlyParts l s t) (h2 : ¬p → OnlyParts l s u) :
    OnlyParts l s (if p then t else u) := by
  split
  · exact h1 ‹_›
  · exact h2 ‹_›
theorem OnlyParts.trans {s t u : State} {l m n : List Part} (h1 : OnlyParts l s t) (h2 : OnlyParts m t u) (hl : ∀ p ∈ l, p ∈ n)
    (hm : ∀ p ∈ m, p ∈ n) : OnlyParts n s u := fun p hp => by
  have e1 := h1 p (fun h => hp (hl p h))
  have e2 := h2 p (fun h => hp (hm p h))
  cases p <;> exact Eq.trans e2 e1
theorem core_congr {s t : State} (h : t.cores = s.cores) (c : Nat) : core t c = core s c := by unfold core; rw [h]
theorem slot_congr {s t : State} (h : t.hst.slots = s.hst.slots) (k : Nat) : slotOf t k = slotOf s k := by unfold slotOf; rw [h]
theorem reg_congr {s t : State} (h : t.regs = s.regs) (off : Nat) : reg t off = reg s off := by unfold reg; rw [h]

theorem onSlice_new {c : CounterId} {f : Frame} {s : State} (k : State → State) (h : NewMessage s (sliceDie (counterSlice c)) f) :
    onSlice c f s k = k (tookMessage s (sliceDie (counterSlice c)) f) := onChain_new k h

/-! Messages to the cores of a task. -/

@[simp] theorem toCores_slotOf (s : State) (l : List Nat) (m : Nat → Msg) (k : Nat) : slotOf (toCores s l m) k = slotOf s k :=
  each_keeps (fun s => slotOf s k) l s _ (fun _ _ _ => rfl)
@[simp] theorem toCores_regs (s : State) (l : List Nat) (m : Nat → Msg) : (toCores s l m).regs = s.regs := each_keeps (·.regs) l s _ (fun _ _ _ => rfl)
@[simp] theorem toCores_cores (s : State) (l : List Nat) (m : Nat → Msg) : (toCores s l m).cores = s.cores := each_keeps (·.cores) l s _ (fun _ _ _ => rfl)
@[simp] theorem toCores_hst (s : State) (l : List Nat) (m : Nat → Msg) : (toCores s l m).hst = s.hst := each_keeps (·.hst) l s _ (fun _ _ _ => rfl)
@[simp] theorem toCores_counters (s : State) (l : List Nat) (m : Nat → Msg) : (toCores s l m).counters = s.counters :=
  each_keeps (·.counters) l s _ (fun _ _ _ => rfl)
/-- One message to each core of the list, in its order. -/
theorem toCores_dsts (s : State) (l : List Nat) (m : Nat → Msg) :
    (toCores s l m).net.chain.map (fun x => (x.src, x.dst, x.msg)) =
      s.net.chain.map (fun x => (x.src, x.dst, x.msg)) ++ l.map (fun c => (hstDie, coreDie c, m c)) := by
  unfold toCores each
  induction l generalizing s with
  | nil => simp
  | cons x l ih => rw [List.foldl_cons, ih]; simp [sendChain]

@[simp] theorem disarmSlot_slotOf (s : State) (j k : Nat) : slotOf (disarmSlot s j) k = slotOf s k := by
  unfold disarmSlot; split <;> rfl

@[simp] theorem countEnd_slotOf (s : State) (st k : Nat) : slotOf (countEnd s st) k = slotOf s k := rfl

@[simp] theorem dropWaits_slotOf (s : State) (j k : Nat) : slotOf (dropWaits s j) k = slotOf s k :=
  each_keeps (fun s => slotOf s k) _ s _ (fun _ _ _ => rfl)

/-- A task that runs ends with the status and the die of the first fault. -/
theorem endTask_slotOf (s : State) (k status die : Nat) (skip : Option Nat) (cancel : Bool) (h1 : (slotOf s k).busy = true)
    (h2 : (slotOf s k).ending = false) (h3 : (slotOf s k).written = false) (j : Nat) :
    slotOf (endTask s k status die skip cancel) j = if k = j then { slotOf s k with
        ending := true, status := status, srcDie := die,
        drained := (slotOf s k).drained ||| (((coresOf (slotOf s k).mask).filter (fun c => !coreActive s c)).map (2 ^ ·)).foldl (· ||| ·) 0 }
      else slotOf s j := by
  simp [endTask, h1, h2, h3, countEnd_slotOf]
/-- A task that has ended, or none, stays as it is. -/
theorem endTask_settled (s : State) (k status die : Nat) (skip : Option Nat) (cancel : Bool)
    (h : (slotOf s k).busy = false ∨ (slotOf s k).ending = true ∨ (slotOf s k).written = true) : endTask s k status die skip cancel = s := by
  rcases h with h | h | h <;> simp [endTask, h]

/-- Proceeding with a task leaves its slot as it is but for the wait asked for and the start. -/
theorem proceed_slotOf (s : State) (k : Nat) : (∀ j, j ≠ k → slotOf (proceed s k) j = slotOf s j) ∧
    ∃ a b n r, slotOf (proceed s k) k = { slotOf s k with waiting := a, started := b, since := n, reported := r } := by
  unfold proceed
  dsimp only
  split
  · exact ⟨fun _ _ => rfl, (slotOf s k).waiting, (slotOf s k).started, (slotOf s k).since, (slotOf s k).reported, rfl⟩
  split
  · split
    · exact ⟨fun _ _ => rfl, (slotOf s k).waiting, (slotOf s k).started, (slotOf s k).since, (slotOf s k).reported, rfl⟩
    · exact ⟨fun _ _ => rfl, (slotOf s k).waiting, (slotOf s k).started, (slotOf s k).since, (slotOf s k).reported, rfl⟩
  split
  · exact ⟨fun j hj => by simp [Ne.symm hj], true, (slotOf s k).started, now s, false, by simp⟩
  · split
    · exact ⟨fun _ _ => rfl, (slotOf s k).waiting, (slotOf s k).started, (slotOf s k).since, (slotOf s k).reported, rfl⟩
    · exact ⟨fun j hj => by simp [Ne.symm hj], (slotOf s k).waiting, true, (slotOf s k).since, (slotOf s k).reported, by simp⟩

/-! Claims. -/

/-- Whether a core sends a claim. -/
def claims (s : State) (c : Nat) (t : CoreTask) : Bool :=
  !t.copy && claimsMode t.table && !t.dry && !t.claimInFlight && t.phase == 4 && !t.sent && decide (unstarted (core s c) < claimDepth t.table)

/-- A claim changes the core's task alone, and sends at most one message. -/
theorem sendClaim_core (s : State) (c : Nat) : ∃ o, core (sendClaim s c) c = { core s c with task := o } := by
  unfold sendClaim
  split
  · exact ⟨(core s c).task, rfl⟩
  · split
    · split
      · exact ⟨_, by simp; rfl⟩
      · exact ⟨_, by simp; rfl⟩
    · exact ⟨(core s c).task, rfl⟩

theorem sendClaim_parts (s : State) (c : Nat) : OnlyParts [.cores, .net] s (sendClaim s c) := by
  unfold sendClaim
  repeat' split
  all_goals intro r hr; cases r <;> first | (exfalso; simp at hr; done) | rfl

theorem reg_sendClaim (s : State) (c off : Nat) : reg (sendClaim s c) off = reg s off := by
  unfold reg; rw [show (sendClaim s c).regs = s.regs from sendClaim_parts s c .regs (by decide)]

@[simp] theorem answeredChunk_tookMessage (s : State) (die : Nat) (f : Frame) (c : Nat) (t : CoreTask) (k i j : Nat) :
    answeredChunk (tookMessage s die f) c t k i j = answeredChunk s c t k i j := rfl
@[simp] theorem chunkReqs_tookMessage (s : State) (die : Nat) (f : Frame) (t : CoreTask) (k : Chunk) :
    chunkReqs (tookMessage s die f) t k = chunkReqs s t k := rfl

/-- An answer ends the claim; one that is empty ends them all (05 R129). -/
theorem takeAnswer_empty (s : State) (c : Nat) (t : CoreTask) (k i j : Nat) (h : (core s c).task = some t) :
    takeAnswer s c true k i j = updCore s c (fun x => { x with task := some { t with claimInFlight := false, dry := true } }) := by
  simp [takeAnswer, h, updTask, updCore]

/-- The chunk of an answer is queued and its rows are asked for (05 R129, R134). -/
theorem takeAnswer_chunk (s : State) (c : Nat) (t : CoreTask) (k i j : Nat) (h : (core s c).task = some t)
    (h1 : sSource t.table (claimSlot t) ≠ 1) :
    (∃ o, core (takeAnswer s c false k i j) c = { core s c with
        task := o
        chunks := (core s c).chunks ++ [answeredChunk s c t k i j]
        requests := (core s c).requests ++ chunkReqs s t (answeredChunk s c t k i j) }) ∧
      OnlyParts [.regs, .cores, .net] s (takeAnswer s c false k i j) ∧
      reg (takeAnswer s c false k i j) (coreOff c CORE_CLAIM_COUNT) = (reg s (coreOff c CORE_CLAIM_COUNT) + 1) % 2 ^ 64 := by
  simp only [takeAnswer, h, Bool.false_eq_true, if_false, h1, updTask]
  generalize answeredChunk s c t k i j = a
  generalize chunkReqs s t a = l
  set u := addReqs _ _ _ with hu
  obtain ⟨o, ho⟩ := sendClaim_core u c
  refine ⟨⟨o, ?_⟩, ?_, ?_⟩
  · rw [ho, hu]; simp [addReqs]
  · intro r hr
    have e := sendClaim_parts u c r (fun hc => hr (by simp at hc ⊢; tauto))
    cases r <;> first | (exfalso; simp at hr; done) | exact Eq.trans e rfl
  · rw [reg_sendClaim, hu]
    simp [addReqs, CORE_CLAIM_POS_COUNT, CORE_CLAIM_COUNT, coreOff]

end Sys2Proof.Machine
end

