-- ==== Sys2Proof/Laws/Faults.lean ====
section
/-! SUPPORT. What a fault of a core does: the task is given up, and the message to the HST die stays on the chain. -/

namespace Sys2Proof.Machine

open Sys2Proof Sys2Proof.Safety

/-! The chain only grows while a command runs. -/

/-- The messages on the chain stay, those of t after them. -/
def ChainGrows (s t : State) : Prop := s.net.chain <+: t.net.chain
theorem ChainGrows.refl (s : State) : ChainGrows s s := List.prefix_refl _
theorem ChainGrows.trans {s t u : State} (h1 : ChainGrows s t) (h2 : ChainGrows t u) : ChainGrows s u := List.IsPrefix.trans h1 h2
theorem ChainGrows.of_net {s t : State} (h : t.net = s.net) : ChainGrows s t := by unfold ChainGrows; rw [h]
theorem ChainGrows.after {s t u : State} (g : ChainGrows t u) (h : t.net = s.net) : ChainGrows s u := (ChainGrows.of_net h).trans g
theorem ChainGrows.send {s t : State} (h : ChainGrows s t) (src dst : Nat) (m : Msg) : ChainGrows s (sendChain t src dst m) :=
  h.trans (List.prefix_append _ _)
theorem ChainGrows.each {α : Type} (l : List α) (s : State) (f : State → α → State) (h : ∀ s, ∀ x ∈ l, ChainGrows s (f s x)) :
    ChainGrows s (each l s f) := by
  induction l generalizing s with
  | nil => exact .refl _
  | cons x l ih => exact (h s x (by simp)).trans (ih _ (fun s y hy => h s y (by simp [hy])))
theorem ChainGrows.ite {s t u : State} {p : Prop} [Decidable p] (h1 : p → ChainGrows s t) (h2 : ¬p → ChainGrows s u) :
    ChainGrows s (if p then t else u) := by
  split
  · exact h1 ‹_›
  · exact h2 ‹_›

theorem sendMsix_net (s : State) (v : Nat) : (sendMsix s v).net = s.net := by unfold sendMsix; dsimp only; split <;> rfl
theorem logEvent_net (s : State) (e : Event) : (logEvent s e).net = s.net :=
  logEvent_keeps (·.net) s e (fun _ _ => rfl) (fun u => sendMsix_net u 0) (fun _ _ => rfl)
theorem raise_grows (s : State) (die code severity n c : Nat) (args : List Nat) : ChainGrows s (raise s die code severity n c args) := by
  unfold raise
  dsimp only
  split
  · exact .of_net (logEvent_net _ _)
  · exact ChainGrows.refl s |>.send _ _ _

theorem checkWait_grows (s : State) (c : Nat) : ChainGrows s (checkWait s c) := by
  unfold checkWait
  dsimp only
  split
  · exact .refl s
  · refine ChainGrows.after (t := updCore s c _) (ChainGrows.each _ _ _ (fun s x _ => ?_)) rfl
    exact (ChainGrows.refl s).send _ _ _
theorem countMarker_grows (s : State) (c k : Nat) : ChainGrows s (countMarker s c k) :=
  (checkWait_grows (setReg s (markerOff c k) ((marker s c k + 1) % 2 ^ 32)) c).after rfl
theorem loseHomes_grows (s : State) (c m row : Nat) : ChainGrows s (loseHomes s c m row) := by
  unfold loseHomes
  split
  · exact .refl s
  · exact ChainGrows.each _ _ _ (fun s x _ => (raise_grows (setField s (regionOff c 0 x 0) 49 49 0) _ _ _ _ _ _).after rfl)
theorem gbStore_net (s : State) (c : Nat) (g : GbRow) : (gbStore s c g).net = s.net := by
  unfold gbStore
  generalize g.bytes = l
  induction l generalizing s with
  | nil => rfl
  | cons p l ih => exact (ih _).trans rfl
theorem gbMark_grows (s : State) (c : Nat) (g : GbRow) : ChainGrows s (gbMark s c g) := by
  unfold gbMark
  split
  · exact countMarker_grows _ _ _
  · exact .refl s
theorem flushGb_grows (s : State) (c : Nat) (fails : Bool) (g : GbRow) : ChainGrows s (flushGb s c fails g) := by
  unfold flushGb
  dsimp only
  generalize (fails || (core s c).badRows.contains (rowKey g.mem g.row)) = b
  generalize hu : updCore (gbStore (gbDrop s c g.mem g.row) c g) c
    (fun x => { x with badRows := (if b then [rowKey g.mem g.row] else []) ++ x.badRows.filter (· != rowKey g.mem g.row) }) = u
  have hn : u.net = s.net := by rw [← hu, updCore_net, gbStore_net]; rfl
  have h := ((loseHomes_grows u c g.mem g.row).after hn).trans ((gbMark_grows (bumpCore (loseHomes u c g.mem g.row) c SPM_GB_RMW_COUNT 1) c g).after rfl)
  exact ChainGrows.ite (fun _ => h.trans (raise_grows _ _ _ _ _ _ _)) (fun _ => h)
theorem closeWin_grows (s : State) (c w : Nat) : ChainGrows s (closeWin s c w) := by
  unfold closeWin closeWindow
  split
  · have h := ChainGrows.each ((core s c).gb.filter (fun g => g.win == some w)) s (fun s g => flushGb s c false g) (fun s g _ => flushGb_grows s c false g)
    exact ChainGrows.ite (fun _ => h.trans (.of_net rfl)) (fun _ => h)
  · exact .refl s
theorem rollTask_grows (s : State) (c : Nat) (l : List (Nat × Nat)) : ChainGrows s (rollTask s c l) := by
  unfold rollTask
  exact ChainGrows.each _ _ _ (fun s p _ => ChainGrows.of_net (by dsimp only; split <;> rfl))
theorem markerTakesRow_net (s : State) (q : Nat) : (markerTakesRow s q).net = s.net := by
  unfold markerTakesRow
  dsimp only
  have h := each_keeps (·.net) (List.range (queue s q).fullMarkers.length) s (fun s i => match (queue s q).fullMarkers[i]? with
    | some m => if m.row.isNone && decide (0 < queFree (queue s q)) then
        updQueue s q (fun x => { x with fullMarkers := x.fullMarkers.set i { m with row := some (landPos s q) }, landed := x.landed + 1 }) else s
    | none => s) (fun s i _ => by
      repeat' split
      all_goals rfl)
  repeat' split
  all_goals exact h
theorem freeRows_grows (s : State) (q n : Nat) : ChainGrows s (freeRows s q n) := by
  have h : ChainGrows s (markerTakesRow s q) := .of_net (markerTakesRow_net s q)
  unfold freeRows
  generalize markerTakesRow s q = u at h
  dsimp only
  refine ChainGrows.ite (fun _ => h) (fun _ => ChainGrows.ite (fun _ => h.send _ _ _) (fun _ => ?_))
  refine ChainGrows.ite (fun _ => h) (fun _ => h.trans (.of_net ?_))
  unfold sendCredit controlTo
  dsimp only
  repeat' split
  all_goals rfl
theorem withdrawQueue_grows (all : Bool) (s : State) (q : Nat) : ChainGrows s (withdrawQueue all s q) := by
  unfold withdrawQueue
  exact (freeRows_grows _ _ _).after rfl
theorem withdrawOf_grows (s : State) (c : Nat) (all : Bool) : ChainGrows s (withdrawOf s c all) := by
  unfold withdrawOf
  exact ChainGrows.each _ _ _ (fun s q _ => withdrawQueue_grows all s q)
theorem closeTaskWindows_grows (s : State) (c k : Nat) : ChainGrows s (closeTaskWindows s c k) := by
  unfold closeTaskWindows
  exact ChainGrows.trans (ChainGrows.each _ _ _ (fun s w _ => closeWin_grows s c w)) (.of_net rfl)

/-- A core that stops its task holds none. -/
theorem stopTask_does (s : State) (c : Nat) (cancel : Bool) : ChainGrows s (stopTask s c cancel) ∧ (core (stopTask s c cancel) c).task = none := by
  unfold stopTask
  split
  · next h => exact ⟨.refl s, h⟩
  · next t _ =>
    dsimp only
    have h0 : ChainGrows s (if issueWait s c = true then bumpCore s c LOOP_ISSUE_WAIT_NS (now s - (slotOf s t.slot).since) else s) :=
      ChainGrows.ite (fun _ => .of_net rfl) (fun _ => .refl s)
    generalize (if issueWait s c = true then bumpCore s c LOOP_ISSUE_WAIT_NS (now s - (slotOf s t.slot).since) else s) = s' at h0
    have hg : ChainGrows s (updCore (withdrawOf (closeTaskWindows (rollTask s' c (if t.phase ≤ 2 then [] else taskRegions t)) c t.slot) c true) c Core.abandoned) :=
      h0.trans <| ChainGrows.trans (rollTask_grows _ _ _) (ChainGrows.trans (closeTaskWindows_grows _ _ _) (ChainGrows.trans (withdrawOf_grows _ _ _) (.of_net rfl)))
    have hn : (core (updCore (withdrawOf (closeTaskWindows (rollTask s' c (if t.phase ≤ 2 then [] else taskRegions t)) c t.slot) c true) c Core.abandoned) c).task = none := by
      simp [Core.abandoned]
    generalize updCore (withdrawOf (closeTaskWindows (rollTask s' c (if t.phase ≤ 2 then [] else taskRegions t)) c t.slot) c true) c Core.abandoned = u at hg hn
    have h1 : ChainGrows s (if cancel then bumpCore u c FET_CANCEL_COUNT 1 else u) := ChainGrows.ite (fun _ => hg.trans (.of_net rfl)) (fun _ => hg)
    have h2 : (core (if cancel then bumpCore u c FET_CANCEL_COUNT 1 else u) c).task = none := by split <;> simpa using hn
    generalize (if cancel then bumpCore u c FET_CANCEL_COUNT 1 else u) = v at h1 h2
    refine ⟨ChainGrows.ite (fun _ => h1.trans (.of_net rfl)) (fun _ => h1.send _ _ _), ?_⟩
    split
    · simpa using h2
    · simpa using h2

/-- A fault of a core gives up its task and tells the HST die (10 R276, R277). -/
theorem faultCore_faulted (s : State) (c status stream slot va : Nat) (w : CoreTask) (h : (core s c).task = some w) :
    Faulted s (faultCore s c status stream slot va) c status := by
  unfold faultCore
  simp only [h]
  generalize setReg (bumpCore s c FET_ABORT_COUNT 1) (coreOff c FET_LAST_FAULT)
    (status % 65536 + (stream % 32) * 2 ^ 16 + (slot % 8) * 2 ^ 21 + bits va 47 8 * 2 ^ 24) = u
  generalize (if w.copy = true then lceFault u c status 0 0 else u) = v
  obtain ⟨g, n⟩ := stopTask_does (sendChain v (coreDie c) hstDie (.fault w.slot status)) c false
  exact ⟨w, h, n, { src := coreDie c, dst := hstDie, seq := tget 0 v.net.chainTx (pairKey (coreDie c) hstDie), msg := .fault w.slot status, sentAt := now v },
    g.subset (by simp [sendChain]), rfl, rfl, rfl⟩
/-- A core without a task has nothing to give up. -/
theorem faultCore_idle (s : State) (c status stream slot va : Nat) (h : (core s c).task = none) : faultCore s c status stream slot va = s := by
  simp [faultCore, h]

theorem Faulted.of {s u t : State} {c status : Nat} (h : (core u c).task = (core s c).task) (f : Faulted u t c status) : Faulted s t c status := by
  obtain ⟨w, h1, h2⟩ := f
  exact ⟨w, h ▸ h1, h2⟩

end Sys2Proof.Machine
end

