-- ==== Sys2Proof/Laws/Memory.lean ====
section
/-! SUPPORT. Words in memory: a read after a write gives the word, and every other byte stays. -/

namespace Sys2Proof.Machine

open Sys2Proof

theorem leNat_leBytes (n v : Nat) : leNat (leBytes n v) = v % 256 ^ n := by
  induction n generalizing v with
  | zero => simp [leBytes, leNat, Nat.mod_one]
  | succ n ih =>
    simp only [leBytes, leNat, ih, BitVec.toNat_ofNat]
    show v % 256 + 256 * (v / 256 % 256 ^ n) = v % 256 ^ (n + 1)
    rw [pow_succ' 256 n, Nat.mod_mul]
theorem leBytes_length (n v : Nat) : (leBytes n v).length = n := by
  induction n generalizing v with
  | zero => rfl
  | succ n ih => simp [leBytes, ih]

/-- The bytes just written. -/
theorem mreadN_mwriteN (l : List Byte) (m : Mem) (k : Nat) (h : memWf m = true) : mreadN (mwriteN m k l) k l.length = l := by
  unfold mreadN
  apply List.ext_getElem
  · simp
  · intro i h1 h2
    simp only [List.getElem_map, List.getElem_range]
    exact mread_mwriteN_at l m k i h h2
/-- Bytes of a range that no write reaches. -/
theorem mreadN_mwriteN_ne (l : List Byte) (m : Mem) (k j n : Nat) (h : memWf m = true) (hj : j + n ≤ k ∨ k + l.length ≤ j) :
    mreadN (mwriteN m k l) j n = mreadN m j n := by
  unfold mreadN
  apply List.map_congr_left
  intro i hi
  rw [List.mem_range] at hi
  exact mread_mwriteN l m k (j + i) h (by omega)

theorem rd64_wr64 (s : State) (a v : Nat) (h : memWf s.mem = true) : rd64 (wr64 s a v) a = v % 2 ^ 64 := by
  have := mreadN_mwriteN (leBytes 8 v) s.mem a h
  rw [leBytes_length] at this
  show leNat (mreadN (mwriteN s.mem a (leBytes 8 v)) a 8) = _
  rw [this, leNat_leBytes]
  norm_num
theorem mread_wr64 (s : State) (a v b : Nat) (h : memWf s.mem = true) (hb : b < a ∨ a + 8 ≤ b) : mread (wr64 s a v).mem b = mread s.mem b :=
  mread_mwriteN _ _ _ _ h (by rw [leBytes_length]; exact hb)
theorem mread_wrBytes (s : State) (a : Nat) (l : List Byte) (b : Nat) (h : memWf s.mem = true) (hb : b < a ∨ a + l.length ≤ b) :
    mread (wrBytes s a l).mem b = mread s.mem b := mread_mwriteN _ _ _ _ h hb

theorem memWf_wr64 (s : State) (a v : Nat) (h : memWf s.mem = true) : memWf (wr64 s a v).mem = true := mwriteN_wf (leBytes 8 v) s.mem a h
/-- A word that a write of another does not reach. -/
theorem rd64_wr64_ne (s : State) (a v b : Nat) (h : memWf s.mem = true) (hb : b + 8 ≤ a ∨ a + 8 ≤ b) : rd64 (wr64 s a v) b = rd64 s b := by
  have := mreadN_mwriteN_ne (leBytes 8 v) s.mem a b 8 h (by rw [leBytes_length]; exact hb)
  show leNat (mreadN (mwriteN s.mem a (leBytes 8 v)) b 8) = leNat (mreadN s.mem b 8)
  rw [this]
theorem rd64_congr {s t : State} (h : t.mem = s.mem) (a : Nat) : rd64 t a = rd64 s a := by unfold rd64; rw [h]

end Sys2Proof.Machine
end

