-- ==== Sys2Proof/Laws/Scratch.lean ====
section
/-! SUPPORT. What the shared operations of the scratchpads do: lost homes, markers, the gathering buffer, banks. -/

namespace Sys2Proof.Machine

open Sys2Proof Sys2Proof.Safety

theorem coreDie_ne_mgt (c : Nat) (h : c < 64) : coreDie c ≠ mgtDie := by
  unfold coreDie columnOf mgtDie; split <;> omega

theorem bits_putBits (w hi lo v : Nat) : bits (putBits w hi lo v % 2 ^ 64) hi lo = v % 2 ^ (hi + 1 - lo) ∨ 64 ≤ hi ∨ hi < lo := by
  by_cases h : 64 ≤ hi
  · exact .inr (.inl h)
  by_cases h' : hi < lo
  · exact .inr (.inr h')
  left
  have e : 2 ^ 64 = 2 ^ lo * (2 ^ (hi + 1 - lo) * 2 ^ (63 - hi)) := by rw [← pow_add, ← pow_add]; congr 1; omega
  simp only [bits, putBits, Nat.shiftRight_eq_div_pow]
  set n := 2 ^ (hi + 1 - lo) with hn
  have hn0 : 0 < n := Nat.two_pow_pos _
  set q := w / 2 ^ lo with hq
  have hw : w = 2 ^ lo * q + w % 2 ^ lo := (Nat.div_add_mod w (2 ^ lo)).symm
  have h1 : q % n * 2 ^ lo ≤ w := by
    have : q % n ≤ q := Nat.mod_le _ _
    calc q % n * 2 ^ lo ≤ q * 2 ^ lo := Nat.mul_le_mul_right _ this
      _ ≤ w := by rw [hw, Nat.mul_comm]; omega
  have h2 : w - q % n * 2 ^ lo + v % n * 2 ^ lo = 2 ^ lo * (n * (q / n) + v % n) + w % 2 ^ lo := by
    have hd : q = n * (q / n) + q % n := (Nat.div_add_mod q n).symm
    have : w = 2 ^ lo * (n * (q / n)) + q % n * 2 ^ lo + w % 2 ^ lo := by
      conv_lhs => rw [hw, hd]
      ring
    rw [Nat.mul_add, Nat.mul_comm (2 ^ lo) (v % n)]
    omega
  rw [h2, e, Nat.mod_mul_right_div_self, ]
  have h3 : (2 ^ lo * (n * (q / n) + v % n) + w % 2 ^ lo) / 2 ^ lo = n * (q / n) + v % n := by
    rw [Nat.mul_add_div (Nat.two_pow_pos _), Nat.div_eq_of_lt (Nat.mod_lt _ (Nat.two_pow_pos _)), Nat.add_zero]
  rw [h3, Nat.mod_mul_right_mod, Nat.mul_add_mod, Nat.mod_mod]

/-! Homes that are lost. -/

@[simp] theorem loseHomes_mem (s : State) (c m row : Nat) : (loseHomes s c m row).mem = s.mem :=
  (loseHomes_within (M := 0x310000081) rfl s c m row .refl).same .mem rfl
@[simp] theorem loseHomes_cores (s : State) (c m row : Nat) : (loseHomes s c m row).cores = s.cores :=
  (loseHomes_within (M := 0x310000081) rfl s c m row .refl).same .cores rfl
@[simp] theorem loseHomes_core (s : State) (c m row k : Nat) : core (loseHomes s c m row) k = core s k := core_congr (loseHomes_cores s c m row) k

/-! Markers. -/

@[simp] theorem checkWait_mem (s : State) (c : Nat) : (checkWait s c).mem = s.mem := (checkWait_within (M := 0x100000010) rfl s c .refl).same .mem rfl
@[simp] theorem checkWait_regs (s : State) (c : Nat) : (checkWait s c).regs = s.regs := (checkWait_within (M := 0x100000010) rfl s c .refl).same .regs rfl
@[simp] theorem checkWait_reg (s : State) (c off : Nat) : reg (checkWait s c) off = reg s off := reg_congr (checkWait_regs s c) off
theorem checkWait_core (s : State) (c : Nat) : ∃ l, core (checkWait s c) c = { core s c with waits := l } := by
  unfold checkWait
  dsimp only
  split
  · exact ⟨(core s c).waits, rfl⟩
  · have h := each_keeps (fun u => core u c) ((core s c).waits.filter (fun w => markerReached (marker s c w.2.1) w.2.2))
      (updCore s c (fun x => { x with waits := x.waits.filter (fun w => !((core s c).waits.filter (fun w => markerReached (marker s c w.2.1) w.2.2)).contains w) }))
      (fun s w => sendChain s (coreDie c) hstDie (.markerReached w.1)) (fun u x _ => rfl)
    exact ⟨_, h.trans (by simp; rfl)⟩
@[simp] theorem countMarker_mem (s : State) (c k : Nat) : (countMarker s c k).mem = s.mem := (countMarker_within (M := 0x100000011) rfl s c k .refl).same .mem rfl
theorem countMarker_core (s : State) (c k : Nat) : ∃ l, core (countMarker s c k) c = { core s c with waits := l } := by
  obtain ⟨l, h⟩ := checkWait_core (setReg s (markerOff c k) ((marker s c k + 1) % 2 ^ 32)) c
  exact ⟨l, h⟩
@[simp] theorem countWindow_mem (s : State) (c w : Nat) (b : Bool) : (countWindow s c w b).mem = s.mem :=
  (countWindow_within (M := 0x100000011) rfl s c w b .refl).same .mem rfl

/-! The gathering buffer. -/

@[simp] theorem gbStore_cores (s : State) (c : Nat) (g : GbRow) : (gbStore s c g).cores = s.cores := by
  unfold gbStore
  generalize g.bytes = l
  induction l generalizing s with
  | nil => rfl
  | cons p l ih => exact (ih _).trans rfl
theorem gbStore_mem_congr {s t : State} (h : t.mem = s.mem) (c : Nat) (g : GbRow) : (gbStore t c g).mem = (gbStore s c g).mem := by
  unfold gbStore
  generalize g.bytes = l
  induction l generalizing s t with
  | nil => exact h
  | cons p l ih => exact ih (by simp [wrBytes, h])
theorem gbMark_core (s : State) (c : Nat) (g : GbRow) : ∃ l, core (gbMark s c g) c = { core s c with waits := l } := by
  unfold gbMark
  split
  · exact countMarker_core _ _ _
  · exact ⟨(core s c).waits, rfl⟩
theorem gbMark_mem (s : State) (c : Nat) (g : GbRow) : (gbMark s c g).mem = s.mem := by
  unfold gbMark
  split
  · exact countMarker_mem _ _ _
  · rfl
theorem raise_mem (s : State) (die code sev n c : Nat) (args : List Nat) : (raise s die code sev n c args).mem = s.mem :=
  (raise_within (M := 0x310000081) rfl s die code sev n c args .refl).same .mem rfl
theorem raise_cores (s : State) (die code sev n c : Nat) (args : List Nat) : (raise s die code sev n c args).cores = s.cores :=
  (raise_within (M := 0x310000081) rfl s die code sev n c args .refl).same .cores rfl

/-- A flush writes the bytes that a buffer row holds, and forgets the row (08 R206, R207). -/
theorem flushGb_does (s : State) (c : Nat) (fails : Bool) (g : GbRow) : (flushGb s c fails g).mem = (gbStore s c g).mem ∧
    ∃ l, core (flushGb s c fails g) c = { core s c with
      waits := l
      gb := (core s c).gb.filter (fun x => !(x.mem == g.mem && x.row == g.row))
      badRows := (if fails || (core s c).badRows.contains (rowKey g.mem g.row) then [rowKey g.mem g.row] else []) ++
        (core s c).badRows.filter (· != rowKey g.mem g.row) } := by
  unfold flushGb
  dsimp only
  generalize (fails || (core s c).badRows.contains (rowKey g.mem g.row)) = fails
  generalize hu : updCore (gbStore (gbDrop s c g.mem g.row) c g) c (fun x => { x with badRows := (if fails = true then [rowKey g.mem g.row] else []) ++ x.badRows.filter (· != rowKey g.mem g.row) }) = u
  have hm : u.mem = (gbStore s c g).mem := by rw [← hu, updCore_mem]; exact gbStore_mem_congr (s := s) (t := gbDrop s c g.mem g.row) rfl _ _
  have hc : core u c = { core s c with gb := (core s c).gb.filter (fun x => !(x.mem == g.mem && x.row == g.row)), badRows := (if fails then [rowKey g.mem g.row] else []) ++ (core s c).badRows.filter (· != rowKey g.mem g.row) } := by
    rw [← hu, core_updCore, if_pos rfl, core_congr (gbStore_cores _ _ _)]
    simp [gbDrop]
  obtain ⟨l, hl⟩ := gbMark_core (bumpCore (loseHomes u c g.mem g.row) c SPM_GB_RMW_COUNT 1) c g
  have hm2 := gbMark_mem (bumpCore (loseHomes u c g.mem g.row) c SPM_GB_RMW_COUNT 1) c g
  simp only [bumpCore_mem, loseHomes_mem, bumpCore_core_of, loseHomes_core] at hl hm2
  cases fails
  · exact ⟨by simp only [Bool.false_eq_true, if_false]; rw [hm2, hm], l, by simp only [Bool.false_eq_true, if_false]; rw [hl, hc]; rfl⟩
  · exact ⟨by simp only [if_true]; rw [raise_mem, hm2, hm], l, by
      simp only [if_true]; rw [core_congr (raise_cores _ _ _ _ _ _ _), hl, hc]; rfl⟩

/-! Memory that is cleared. -/

theorem mread_mclear (m : Mem) (lo hi a : Nat) : mread (mclear m lo hi) a = if lo ≤ a ∧ a < hi then memDefault else mread m a := by
  induction m with
  | nil => simp [mclear, mread]
  | cons x t ih =>
    obtain ⟨k, v⟩ := x
    unfold mclear at ih ⊢
    by_cases hk : k < lo ∨ hi ≤ k
    · rw [List.filter_cons_of_pos (by simpa using hk)]
      simp only [mread, ih]
      split
      · next h => subst h; rw [if_neg (by omega)]
      · rfl
    · rw [List.filter_cons_of_neg (by simpa using hk), ih]
      simp only [mread]
      split
      · rfl
      · next h => rw [if_neg (by rintro rfl; omega)]

/-! Corrected events and homes. -/

theorem reg_corrected (s : State) (c i n off : Nat) (h1 : off ≠ coreOff c FET_CORR_EVENT_COUNT) (h2 : off ≠ coreOff c FET_OVER_ALLOW_COUNT)
    (h3 : ∀ j, j < 16 → off ≠ coreOff c (0x680 + 8 * j)) : reg (corrected s c i n) off = reg s off := by
  unfold corrected
  split
  · rfl
  · dsimp only
    split
    · rw [reg_bumpCore, if_neg (Ne.symm h1)]
    · rw [reg_setField, if_neg (Ne.symm (h3 i (by omega))), reg_bumpCore, if_neg (Ne.symm h2), reg_bumpCore, if_neg (Ne.symm h1)]

theorem homeRegion_congr {s t : State} {c : Nat} (h : ∀ r k, k < 8 → reg t (regionOff c 0 r k) = reg s (regionOff c 0 r k)) (row : Nat) :
    homeRegion t c row = homeRegion s c row := by
  unfold homeRegion regionHome regionBase regionLen
  simp only [h _ 0 (by decide)]

/-- A detection in a row with a valid home asks for the row again (08 R217, R218). -/
theorem detect_home (s : State) (c row : Nat) (h : homeRegion s c row ≠ none) (hr : (core s c).reloads.contains row = false) :
    (core (detect s c 0 row) c).reloads = (core s c).reloads ++ [row] ∧
      coreReg (detect s c 0 row) c SPM_DET_WMEM_COUNT = (coreReg s c SPM_DET_WMEM_COUNT + 1) % 2 ^ 64 := by
  have e : homeRegion (bumpCore s c (detReg 0) 1) c row = homeRegion s c row := by
    refine homeRegion_congr (fun r k hk => ?_) row
    rw [reg_bumpCore, if_neg (by simp only [detReg, if_true, coreOff, regionOff, SPM_DET_WMEM_COUNT]; omega)]
  have hs : (homeRegion s c row).isSome = true := Option.isSome_iff_ne_none.2 h
  unfold detect
  dsimp only
  simp only [e, hs, and_self, if_true, bumpCore_core_of, hr, Bool.false_eq_true, if_false]
  refine ⟨by simp [setDetect], ?_⟩
  unfold coreReg setDetect
  rw [updCore_reg_of, reg_setReg, if_neg (by simp [coreOff, SPM_LAST_DETECT, SPM_DET_WMEM_COUNT]), reg_bumpCore]
  rw [if_pos (by simp [detReg])]
  rfl

/-! What depends on the registers of a core's scratchpads alone. -/

/-- The registers of a core's regions, windows and bank maps are the same. -/
def SpmSame (s t : State) (c : Nat) : Prop :=
  (∀ o, 0x2000 ≤ o → o < 0x5800 → reg t (coreOff c o) = reg s (coreOff c o)) ∧
    coreReg t c SPM_PWR_MAP_W = coreReg s c SPM_PWR_MAP_W ∧ coreReg t c SPM_PWR_MAP_AP = coreReg s c SPM_PWR_MAP_AP
theorem SpmSame.of_regs {s t : State} {c : Nat} (h : t.regs = s.regs) : SpmSame s t c :=
  ⟨fun _ _ _ => reg_congr h _, reg_congr h _, reg_congr h _⟩
theorem SpmSame.trans {s t u : State} {c : Nat} (h1 : SpmSame s t c) (h2 : SpmSame t u c) : SpmSame s u c :=
  ⟨fun o a b => (h2.1 o a b).trans (h1.1 o a b), h2.2.1.trans h1.2.1, h2.2.2.trans h1.2.2⟩
theorem SpmSame.of_bump (s : State) (c o n : Nat) (h : o < 0x2000) (h1 : o ≠ SPM_PWR_MAP_W) (h2 : o ≠ SPM_PWR_MAP_AP) : SpmSame s (bumpCore s c o n) c := by
  refine ⟨fun k a b => ?_, ?_, ?_⟩
  · rw [reg_bumpCore, if_neg (by unfold coreOff; omega)]
  · unfold coreReg; rw [reg_bumpCore, if_neg (by unfold coreOff; omega)]
  · unfold coreReg; rw [reg_bumpCore, if_neg (by unfold coreOff; omega)]
theorem SpmSame.of_streamMoved (s : State) (c i n : Nat) : SpmSame s (streamMoved s c i n) c := by
  unfold Machine.streamMoved
  split
  · exact .of_regs rfl
  · refine ⟨fun k a b => ?_, ?_, ?_⟩
    · rw [reg_setField, if_neg (by unfold coreOff; omega)]; rfl
    · unfold coreReg; rw [reg_setField, if_neg (by simp only [coreOff, SPM_PWR_MAP_W]; omega)]; rfl
    · unfold coreReg; rw [reg_setField, if_neg (by simp only [coreOff, SPM_PWR_MAP_AP]; omega)]; rfl
theorem SpmSame.of_corrected (s : State) (c i n : Nat) : SpmSame s (corrected s c i n) c := by
  refine ⟨fun k a b => ?_, ?_, ?_⟩
  · rw [reg_corrected _ _ _ _ _ (by simp only [coreOff, FET_CORR_EVENT_COUNT]; omega) (by simp only [coreOff, FET_OVER_ALLOW_COUNT]; omega) (fun j hj => by unfold coreOff; omega)]
  · unfold coreReg
    rw [reg_corrected _ _ _ _ _ (by simp [coreOff, FET_CORR_EVENT_COUNT, SPM_PWR_MAP_W]) (by simp [coreOff, FET_OVER_ALLOW_COUNT, SPM_PWR_MAP_W]) (fun j hj => by simp only [coreOff, SPM_PWR_MAP_W]; omega)]
  · unfold coreReg
    rw [reg_corrected _ _ _ _ _ (by simp [coreOff, FET_CORR_EVENT_COUNT, SPM_PWR_MAP_AP]) (by simp [coreOff, FET_OVER_ALLOW_COUNT, SPM_PWR_MAP_AP]) (fun j hj => by simp only [coreOff, SPM_PWR_MAP_AP]; omega)]

theorem SpmSame.region {s t : State} {c : Nat} (h : SpmSame s t c) (m r w : Nat) (hm : m < 3) (hr : r < 64) (hw : w < 8) :
    reg t (regionOff c m r w) = reg s (regionOff c m r w) := h.1 _ (by omega) (by omega)
theorem SpmSame.window {s t : State} {c : Nat} (h : SpmSame s t c) (n w : Nat) (hn : n < 64) (hw : w < 4) :
    reg t (windowOff c n w) = reg s (windowOff c n w) := h.1 _ (by omega) (by omega)
theorem SpmSame.powered {s t : State} {c : Nat} (h : SpmSame s t c) (m b : Nat) : bankPowered t c m b = bankPowered s c m b := by
  unfold bankPowered; rw [h.2.1, h.2.2]
theorem SpmSame.tailRow_eq {s t : State} {c : Nat} (h : SpmSame s t c) (m r : Nat) (hm : m < 3) (hr : r < 64) : tailRow t c m r = tailRow s c m r := by
  unfold Machine.tailRow regionBase regionPtr
  rw [h.region m r 0 hm hr (by omega), h.region m r 1 hm hr (by omega)]
theorem bits_lt (w hi lo : Nat) : bits w hi lo < 2 ^ (hi + 1 - lo) := Nat.mod_lt _ (Nat.two_pow_pos _)
theorem SpmSame.win_eq {s t : State} {c : Nat} (h : SpmSame s t c) (n : Nat) (hn : n < 64) : winState t c n = winState s c n ∧ winMem t c n = winMem s c n ∧
    (winMem s c n < 3 → winBase t c n = winBase s c n ∧ winLen t c n = winLen s c n) := by
  have e := h.window n 0 hn (by omega)
  have hr : winRegion s c n < 64 := bits_lt _ _ _
  have e1 : winMode t c n = winMode s c n := by unfold winMode; rw [e]
  have e2 : winMem t c n = winMem s c n := by unfold winMem; rw [e]
  have e3 : winRegion t c n = winRegion s c n := by unfold winRegion; rw [e]
  refine ⟨by unfold winState; rw [e], e2, fun hm => ⟨?_, ?_⟩⟩
  · unfold Machine.winBase regionBase; rw [e1, e2, e3, e, h.region _ _ 0 hm hr (by omega)]
  · unfold winLen regionLen; rw [e1, e2, e3, e, h.region _ _ 0 hm hr (by omega)]
theorem any_congr_mem {α : Type} (l : List α) (p q : α → Bool) (h : ∀ x ∈ l, p x = q x) : l.any p = l.any q := by
  induction l with
  | nil => rfl
  | cons x l ih => rw [List.any_cons, List.any_cons, h x (by simp), ih (fun y hy => h y (by simp [hy]))]
theorem SpmSame.localFault_eq {s t : State} {c : Nat} (h : SpmSame s t c) (m row : Nat) (hm : m < 3) : localFault t c m row = localFault s c m row := by
  unfold Machine.localFault
  have e : (List.range 64).any (fun w => winState t c w == 1 && winMem t c w == m && decide (winBase t c w ≤ row ∧ row < winBase t c w + winLen t c w)) =
      (List.range 64).any (fun w => winState s c w == 1 && winMem s c w == m && decide (winBase s c w ≤ row ∧ row < winBase s c w + winLen s c w)) := by
    refine any_congr_mem _ _ _ (fun w hw => ?_)
    rw [List.mem_range] at hw
    obtain ⟨a, b, d⟩ := h.win_eq w hw
    rw [a, b]
    by_cases hm' : winMem s c w = m
    · rw [(d (by omega)).1, (d (by omega)).2]
    · simp only [beq_eq_false_iff_ne.2 hm', Bool.and_false, Bool.false_and]
  rw [e, h.powered]

end Sys2Proof.Machine
end

