-- ==== Sys2Proof/Laws/Tiers.lean ====
section
/-! SUPPORT. What packets, and reads and writes of lines at the tiers do. -/

namespace Sys2Proof.Machine

open Sys2Proof Sys2Proof.Safety

theorem sentPacket_of {s u : State} (h : u.net = s.net) (ht : now u = now s) (src dst : Nat) (ty : BulkType) (tag a due : Nat) (data : List Byte) :
    SentPacket s (sendBulk u src dst ty tag a due data) src dst ty tag a data := ⟨due, by simp [sendBulk, h, ht]⟩
theorem sentPacket_took {s u : State} {d : Nat} {p : BulkTag} (h : u.net = (tookPacket s d p).net) (ht : now u = now s) (src dst : Nat) (ty : BulkType) (tag a due : Nat) (data : List Byte) :
    SentPacket s (sendBulk u src dst ty tag a due data) src dst ty tag a data := ⟨due, by simp [sendBulk, h, ht, tookPacket]⟩

theorem askHost_own (s : State) (a : Nat) (w : Bool) (h : hostBias s a = false) : askHost s a w = s := by unfold askHost; simp [h]

theorem hintLine_parts (s : State) (l h k : Nat) : OnlyParts [.cache] s (hintLine s l h k) :=
  Within.onlyParts (back := false) (hintLine_within rfl s l h k .refl)
theorem answeredTier_parts (s : State) (fill : Bool) (st src : Nat) (tag : TagId) (a : Nat) (late : Option Nat) :
    OnlyParts [.cores, .cache] s (answeredTier s fill st src tag a late) :=
  Within.onlyParts (back := false) (answeredTier_within rfl s fill st src tag a late .refl)

theorem writeLine_near (s : State) (a : Nat) (data : List Byte) (h1 : isNear a = true) (h2 : stackFailed s (stackOf a) = false)
    (hr : s.cache.resident.contains (lineOf a) = true) : (writeLine s a data (.ok 0)).2 = stSuccess ∧ (writeLine s a data (.ok 0)).1.mem = mwriteN s.mem a data ∧
      (writeLine s a data (.ok 0)).1.net = s.net ∧ (writeLine s a data (.ok 0)).1.cache.dirty.contains (lineOf a) = true ∧ (writeLine s a data (.ok 0)).1.cores = s.cores := by
  unfold writeLine
  simp only [h1, h2, Bool.and_false, Bool.false_eq_true, if_false, Bool.not_true, Bool.false_and, if_true]
  have hw : ∀ b : Bool, ∃ u, (if b then clearPoison s (lineOf a) else s) = u ∧ u.mem = s.mem ∧ u.net = s.net ∧ u.cores = s.cores ∧ u.cache.resident.contains (lineOf a) = true := by
    intro b
    cases b
    · exact ⟨s, by simp, rfl, rfl, rfl, hr⟩
    · exact ⟨clearPoison s (lineOf a), by simp, rfl, rfl, rfl, hr⟩
  obtain ⟨u, e, e1, e2, e3, e4⟩ := hw (data.length == 512 && a % 512 == 0)
  rw [e]
  have et : touchLine u (lineOf a) = u := by unfold touchLine; rw [if_pos e4]
  rw [et]
  unfold writeCrc bumpMif
  refine ⟨trivial, ?_, ?_, ?_, ?_⟩
  · simp only [bump_mem]; show mwriteN u.mem a data = _; rw [e1]
  · simp only [bump_net]; exact e2
  · simp only [bump_cache]
    show (if u.cache.dirty.contains (lineOf a) then u.cache.dirty else lineOf a :: u.cache.dirty).contains (lineOf a) = true
    split
    · assumption
    · simp
  · simp only [bump_cores]; exact e3

theorem writeEvents_none (s : State) (p : BulkTag) (tag : Nat) : writeEvents s p tag 0 = s := by
  unfold writeEvents
  split
  · split
    · rfl
    · rfl
  · rfl

end Sys2Proof.Machine
end

