-- ==== Sys2Proof/Machine/Payload.lean ====
section
/-! DEFINITION. How the messages of the chain lie in their 96 bits: frame and payload (14 R356, R357; 16 R413; 09 R251; 14 R361; 02 R48; 19
R474). In State a message is its fields; the queue's commands carry them too (log entry 1). -/

namespace Sys2Proof.Machine

/-- A word by its fields, each a value, its first bit and its width. -/
def fields (l : List (Nat × Nat × Nat)) : Nat := (l.map (fun f => f.1 % 2 ^ f.2.2 * 2 ^ f.2.1)).sum

/-- TYPE of a message (Table: Chain message types). The manual names none for the announcement of 06 R154; it is told from the others by
its constructor. -/
def chainType : Msg → Option Nat
  | .barrier .. => some 0x01
  | .doorbell .. => some 0x02
  | .dispatch .. | .go .. | .abort .. | .replay .. | .cancel .. | .wait .. => some 0x03
  | .passed .. | .refused .. | .spanDone .. | .done .. | .fault .. | .drained .. | .detection .. | .markerReached .. => some 0x04
  | .arm0 .. | .arm1 .. | .arm2 .. | .armed .. | .claim .. | .answer .. | .owner .. | .ownerAns .. | .report .. | .base .. | .rearm ..
  | .disarm .. => some 0x05
  | .queueCredit .. => some 0x06
  | .fence .. => some 0x07
  | .routeWrite .. => some 0x08
  | .config .. => some 0x09
  | .reftime .. => some 0x0A
  | .event .. => some 0x0B
  | .announce .. => none
/-- The frame of a message (R356). -/
def chainFrame (src dst seq type : Nat) : Nat := fields [(dst, 0, 8), (src, 8, 8), (type, 16, 6), (seq, 22, 10)]

/-- Task control, TYPE 0x03: SUB and SLOT, and the fields of its message. -/
def taskControl (sub slot : Nat) (l : List (Nat × Nat × Nat)) : Nat := fields ([(sub, 0, 4), (slot, 4, 10)] ++ l)
/-- A row-counter message: OP and its fields (R251). -/
def counterWord (op counter : Nat) (l : List (Nat × Nat × Nat)) : Nat := fields ([(op, 60, 4), (counter, 0, 10)] ++ l)
/-- The payloads of a message: ROWS follows ANSWER (R251), and an event's further arguments follow in messages of CODE 0xFFFF (19 R474).
None where the manual lays no payload out: queue credits (11 R296) and announcements (06 R154). -/
def chainPayload : Msg → List Nat
  | .barrier b g d => [fields [(b, 0, 12), (g, 12, 16), (d, 28, 12)]]
  | .doorbell k q v => [fields [(q, 0, 12), (v, 12, 16), (b2n k, 28, 1)]]
  | .dispatch _ k r n => [taskControl 0 k [(r, 14, 6), (n, 20, 7)]]
  | .go _ k x => [taskControl 1 k [(x, 27, 32)]]
  | .abort _ k => [taskControl 2 k []]
  | .replay _ k x => [taskControl 3 k [(x, 27, 32)]]
  | .cancel _ k => [taskControl 4 k []]
  | .wait _ k m x => [taskControl 5 k [(m, 14, 8), (x, 32, 32)]]
  | .passed k => [taskControl 0 k []]
  | .refused k e x => [taskControl 1 k [(e, 14, 16), (x, 30, 5)]]
  | .spanDone k x => [taskControl 2 k [(x, 35, 29)]]
  | .done k => [taskControl 3 k []]
  | .fault k e => [taskControl 4 k [(e, 14, 16)]]
  | .drained k => [taskControl 5 k []]
  | .detection k x => [taskControl 6 k [(x, 35, 29)]]
  | .markerReached k => [taskControl 7 k []]
  | .arm0 c g k => [counterWord 0x1 c [(g, 10, 3), (k, 13, 21)]]
  | .arm1 c n => [counterWord 0x2 c [(n, 10, 18)]]
  | .arm2 c a => [counterWord 0x3 c [(a, 12, 48)]]
  | .armed c => [counterWord 0x4 c []]
  | .claim c a => [counterWord 0x5 c [(a, 10, 2)]]
  | .answer _ c a e k i0 i1 => [counterWord 0x6 c [(a, 10, 2), (b2n e, 12, 1), (k, 13, 21)], fields [(i0, 0, 32), (i1, 32, 32)]]
  | .owner c k => [counterWord 0x8 c [(k, 10, 21)]]
  | .ownerAns _ c k h => [counterWord 0x9 c [(k, 10, 21), (h, 31, 6)]]
  | .report c a k n d => [counterWord 0xA c [(a, 10, 2), (k, 12, 21), (n, 33, 26), (b2n d, 59, 1)]]
  | .base _ c v => [counterWord 0xB c [(v, 10, 48)]]
  | .rearm c a => [counterWord 0xC c [(a, 10, 2)]]
  | .disarm c => [counterWord 0xD c []]
  | .fence d a e => [fields [(d, 0, 8), (a, 8, 2), (e, 16, 16)]]
  | .routeWrite d r x l => [fields [(d, 0, 8), (r, 8, 8), (b2n x, 16, 1), (l, 21, 40)]]
  | .config o i u p v => [fields [(o, 0, 4), (i, 4, 16), (u, 20, 8), (p, 28, 4), (v, 32, 32)]]
  | .reftime v => [v % 2 ^ 64]
  | .event e =>
    let first := fields [(e.code, 0, 16), (e.severity, 16, 2), (e.args.headD 0, 18, 46)]
    first :: (e.args.drop 1).map (fun a => fields [(0xFFFF, 0, 16), (e.severity, 16, 2), (a, 18, 46)])
  | .queueCredit .. | .announce .. => []

end Sys2Proof.Machine
end

