-- ==== Sys2Proof/WellFormed.lean ====
section
/-! DEFINITION. Which commands are well formed: their lists have the lengths that the manual gives them. The meanings
are total; an ill-formed command is one that no sender of the manual can send. -/

namespace Sys2Proof

/-- A narrow write carries 1 to 64 bytes within one 64 B granule of its row (08 R205). -/
def narrowOk (off : Nat) (data : List Byte) : Bool :=
  decide (0 < data.length) && decide (off % 64 + data.length ≤ 64) && decide (off < 512)

/-- A row of 512 bytes (08 R194). -/
def rowOk (data : List Byte) : Bool := data.length == 512

/-- A flit carries 32 payload words (15 R368). -/
def flitOk (f : Flit) : Bool := f.payload.length == 32

/-- Well-formedness of a command. -/
def wellFormed : Instr → Bool
  | .descriptorFetch _ ds => decide (ds.length ≤ 16) && ds.all (fun d => d.length == 32)
  | .narrowWrite _ _ _ _ off data _ => narrowOk off data
  | .reloadDone _ _ data _ => rowOk data
  | .readData _ _ _ _ data _ _ => data.isEmpty || rowOk data
  | .bulkWrite _ _ _ target data _ =>
    match target with
    | .tier _ => decide (0 < data.length) && decide (data.length ≤ 512)
    | _ => rowOk data
  | .accumulateWrite _ _ _ _ off data => decide (off % 4 = 0) && decide (data.length % 4 = 0) && decide (off + data.length ≤ 512)
  | .biasChange p n _ => decide (p + n ≤ 294912)
  | .frameReceive _ fr _ => match fr with
    | none => true
    | some f => decide (f.flits.length ≤ 25) && f.flits.all flitOk
  | .lnkSendPost _ _ d => d.length == 8
  | .apertureWrite _ off data => decide (0 < data.length) && decide (off.val + data.length ≤ 512)
  | .dictRequest h0 _ data => data.length == bits h0.toNat 63 48
  | .segWrite _ _ _ _ v _ => decide (v.length ≤ 1024)
  | .write _ _ _ _ v => decide (v.length ≤ 1024)
  | .tdpFrameReceive _ _ _ _ h0 _ data => data.length == bits h0.toNat 63 48
  | .heartbeatReceived v2 _ _ _ _ d => d.length == (if v2 then 48 else 8)
  | .saturationSubperiod ms => ms.length == 10
  | .castOnStageComplete _ _ caps _ => decide (caps.length ≤ 4)
  | .payload _ data _ => decide (data.length ≤ 65536)
  | .unlockResponse n _ _ _ _ => n.length == 48
  | .challenge _ _ h => h.length == 48
  | .getMeasurements _ _ _ h => h.length == 48
  | _ => true

end Sys2Proof
end

