-- ==== Sys2Proof/Tests/Slice0.lean ====
section
/-! SUPPORT. Tests of the model on small states, and for every statement that has hypotheses a state and operands that meet them. Expected
values come from the manual's rules, named at each test. -/

namespace Sys2Proof.Tests

set_option Elab.async false

open Sys2Proof Sys2Proof.Machine Sys2Proof.Safety

/-! Small states. -/

/-- A module with 64 cores before cast-on. -/
def s0 : State := { pkg := { enabled := 2 ^ 64 - 1 } }
/-- A module with 64 cores that has finished cast-on at REFTIME t. -/
def up (t : Nat) : State :=
  { s0 with
    clock := { reftime := t }
    power := { powerState := 2, stage := 5, busy := false, started := true, perstHeld := false } }
/-- The same with a record for core 5. -/
def withCore (x : Machine.Core) (t : Nat := 0) : State := { up t with cores := [(5, x)] }
/-- The same with a record for slot 3. -/
def withSlot (x : Slot) (t : Nat := 0) : State := { up t with hst := { slots := [(3, x)] } }
/-- The same with a record for Limund port 2. -/
def withPort (x : Port) (t : Nat := 0) : State := { up t with ports := [(2, x)] }
/-- One object of the dictionary with a value of one octet. -/
def withObj (key : Nat) (v : Byte) : State := { up 0 with dict := { values := [(key, [v])] } }
/-- Strand 1 live, its table root 0x1000; the first GiB maps onto the near tier, readable and writable (13 R338, R339). -/
def mapped : State :=
  { up 0 with
    mem := [(0x1000, 1#8), (0x1001, 0x20#8), (0x2000, 15#8)]
    hst := { strands := [(1, { words := [12, 0x1000, 0, 0, 0, 0, 0, 0] })] } }
/-- What a command does to a state, asked of the next state. -/
def gives (c : Instr) (s : State) (p : State → Bool) : Bool := match exec c s with
  | .next t => p t
  | .fault _ => false
  | .refused _ => false
/-- A frame and a packet tag of die d that no state here has seen. -/
def fr (d : DieId) : Frame := { src := d, seq := 0 }
def pk (d : DieId) : BulkTag := { src := d, seq := 0 }

/-! Well-formedness: one command that each check refuses. -/

theorem smoke_descriptorFetch : wellFormed (.descriptorFetch 0 [[]]) = false := by decide +kernel
theorem smoke_descriptorFetch_many : wellFormed (.descriptorFetch 0 (List.replicate 17 (List.replicate 32 0))) = false := by decide +kernel
theorem smoke_narrowWrite : wellFormed (.narrowWrite 0 .host 0 0 60 [1, 2, 3, 4, 5] false) = false := by decide +kernel
theorem smoke_reloadDone : wellFormed (.reloadDone 0 0 [1] false) = false := by decide +kernel
theorem smoke_readData : wellFormed (.readData 0 (pk 0) 0 0 [1] 0 0) = false := by decide +kernel
theorem smoke_bulkWrite_window : wellFormed (.bulkWrite (pk 0) .host 0 (.window 0 0 0) [1] (.ok 0)) = false := by decide +kernel
theorem smoke_bulkWrite_tier : wellFormed (.bulkWrite (pk 0) .host 0 (.tier 0) [] (.ok 0)) = false := by decide +kernel
theorem smoke_accumulateWrite : wellFormed (.accumulateWrite (pk 0) .host 0 (.tier 0) 2 [1, 2, 3, 4]) = false := by decide +kernel
theorem smoke_biasChange : wellFormed (.biasChange 294912 1 true) = false := by decide +kernel
theorem smoke_frameReceive : wellFormed (.frameReceive 0 (some ⟨0, 0, false, 0, 0, [⟨0, false, false, false, 0, 0, 0, 0, []⟩]⟩) 0) = false := by decide +kernel
theorem smoke_lnkSendPost : wellFormed (.lnkSendPost 0 none [0]) = false := by decide +kernel
theorem smoke_apertureWrite : wellFormed (.apertureWrite 0 511 [1, 2]) = false := by decide +kernel
theorem smoke_dictRequest : wellFormed (.dictRequest 0 0 [1]) = false := by decide +kernel
theorem smoke_segWrite : wellFormed (.segWrite .mailbox 0 0 0 (List.replicate 1025 0) []) = false := by decide +kernel
theorem smoke_write : wellFormed (.write .mailbox 0 0 0 (List.replicate 1025 0)) = false := by decide +kernel
theorem smoke_tdpFrameReceive : wellFormed (.tdpFrameReceive 2 0 0 false 0 0 [1]) = false := by decide +kernel
theorem smoke_heartbeatReceived : wellFormed (.heartbeatReceived true false 0 0 0 [1]) = false := by decide +kernel
theorem smoke_saturationSubperiod : wellFormed (.saturationSubperiod []) = false := by decide +kernel
theorem smoke_castOnStageComplete : wellFormed (.castOnStageComplete 0 [] [0, 0, 0, 0, 0] 0) = false := by decide +kernel
theorem smoke_payload : wellFormed (.payload 0 (List.replicate 65537 0) false) = false := by decide +kernel
theorem smoke_unlockResponse : wellFormed (.unlockResponse [] 0 0 0 true) = false := by decide +kernel
theorem smoke_challenge : wellFormed (.challenge 0 0 []) = false := by decide +kernel
theorem smoke_getMeasurements : wellFormed (.getMeasurements 0 0 true []) = false := by decide +kernel
theorem smoke_goodCommand : wellFormed (.apertureWrite 0 508 [1, 2, 3, 4]) = true := by decide +kernel

/-! The table gives no row any bits, so no word spells a command. -/

theorem test_decodeTableWord : decodeTableWord 64 5 = none := by decide +kernel

/-! Witnesses: the machine, faults, pace and time. -/

theorem witness_StepRunsFrontCommand : ({ s0 with pending := [.identify, .busOff] } : State).pending = .identify :: [.busOff] := by decide +kernel
theorem witness_QueueIsFirstInFirstOut : ({ s0 with pending := [.fenceCoreRequest 64, .busOff] } : State).pending = .fenceCoreRequest 64 :: [.busOff] ∧
    ∃ t, step { s0 with pending := [.fenceCoreRequest 64, .busOff] } = .next t := ⟨rfl, _, rfl⟩
theorem witness_EmptyQueueIdles : s0.pending = [] := by decide +kernel
theorem witness_StepKeepsInv : MemoryCanonical s0 ∧ (∀ p ∈ s0.regs, p.2 < 2 ^ 64) ∧ step s0 = .next s0 := ⟨by unfold MemoryCanonical; decide +kernel, by decide +kernel, rfl⟩
/-- Any command on any state has a next state; of one that changes nothing, for CommandsTouchOnlyTheirParts, GradedDiesStayDisabled and OutputOnlyGrows. -/
theorem witness_AnyCommand : ∃ t, exec (.fenceCoreRequest 64) s0 = .next t := ⟨_, rfl⟩
theorem witness_ReftimeNeverRunsBackward : startsTime (.reftimeSlew 0) = false ∧ ∃ t, exec (.reftimeSlew 0) s0 = .next t := ⟨rfl, _, rfl⟩

theorem witness_CoreFaultFences : coreActive s0 63 = true ∧ coreActive { s0 with pkg := { enabled := 1 } } 63 = false := by decide +kernel
/-- Numbers 63 and 64, the last active core, and a state before stage 4. -/
theorem witness_FenceRequest :
    (stageDone (up 0) 4 = true ∧ (63#8).toNat < 64 ∧ activeCount (up 0) ≠ 1) ∧ stageDone s0 4 = false ∧ 64 ≤ (64#8).toNat ∧
    (activeCount { up 0 with pkg := { enabled := 2 ^ 63 } } = 1 ∧ coreActive { up 0 with pkg := { enabled := 2 ^ 63 } } (63#8).toNat = true) := by
  decide +kernel
theorem witness_DieAndConnectionFailures :
    (dieCore 0 = some 0 ∧ routerFenced s0 0 = false) ∧ (dieFailed s0 98 = false ∧ 18 ≤ (18 : Fin 20).val) ∧ neighbour 0 1 = some 10 := by decide +kernel
theorem witness_ModuleFailures : neighbour 0 1 = some 10 ∧ tget 0 s0.pkg.modulesFailed (connKey 0 1) = 0 ∧
    tget 0 ({ s0 with pkg := { modulesFailed := [(1, 1)] } } : State).pkg.modulesFailed (connKey 0 1) = 1 := by decide +kernel
theorem witness_AdapterRetryIsCounted : neighbour 78 2 = some 79 ∧ (79 < 80) ∧ rtrOff 5 MGT_RTR_DUP_COUNT ≠ rtrOff 78 MGT_RTR_HOP_RETRY_COUNT := by
  decide +kernel
theorem witness_FenceStopsTheCore : NewMessage s0 79 (fr 99) ∧ dieCore 79 = some 63 ∧ MemoryCanonical s0 ∧ dieCore 3 = none := by
  unfold MemoryCanonical; decide +kernel
/-- The last ten entries: FIRST 90 to 99; FIRST 91 leaves one outside. -/
theorem witness_RouteWrite : NewMessage s0 79 (fr 99) ∧ (9 < 10 ∧ (90#8).toNat + 9 < 100) ∧ ¬ (91#8).toNat + 9 < 100 := by decide +kernel

theorem witness_ReftimeLoad : ({ s0 with clock := { locked := true } } : State).clock.locked = true ∧
    ((up 7).clock.locked = false ∧ (up 7).clock.reftime ≤ (7 : Word).toNat) ∧ (6 : Word).toNat < (up 7).clock.reftime := by decide +kernel
theorem witness_ReferenceTime : s0.clock.refclkLost = false ∧ ({ s0 with clock := { refclkLost := true } } : State).clock.refclkLost = true ∧
    NewMessage s0 0 (fr 99) := by decide +kernel
/-- A slew of 2/1000 ns, at the limit, and one beyond. -/
theorem witness_ClockEdge : s0.clock.slew = 0 ∧ s0.clock.frac = 0 ∧ ((10000 + (0 - 0) + 0 + 0 : Int) / 10000 = (1 : Nat)) := by decide +kernel
theorem vFloor_ge (s : State) (c : Nat) : 650 ≤ vFloor s c := by
  unfold vFloor
  cases h : ((List.range 41).map (fun k => 650 + 5 * k)).find? (fun v => decide (1100 ≤ Config.siliconRate c v (Machine.core s c).temp)) with
  | none => simp
  | some v => obtain ⟨k, -, rfl⟩ := List.mem_map.mp (List.mem_of_find?_eq_some h); simp
theorem vFloor_le (s : State) (c : Nat) : vFloor s c ≤ 850 := by
  unfold vFloor
  cases h : ((List.range 41).map (fun k => 650 + 5 * k)).find? (fun v => decide (1100 ≤ Config.siliconRate c v (Machine.core s c).temp)) with
  | none => simp
  | some v => obtain ⟨k, hk, rfl⟩ := List.mem_map.mp (List.mem_of_find?_eq_some h); simp at hk ⊢; omega
/-- 850 mV is at or above every floor, 0 below it. -/
theorem witness_FloorCheck : vFloor (up 0) 5 ≤ (Machine.core (up 0) 5).vcore ∧
    (Machine.core (withCore { vcore := 0 }) 5).vcore < vFloor (withCore { vcore := 0 }) 5 :=
  ⟨vFloor_le _ _, Nat.lt_of_lt_of_le (by decide +kernel) (vFloor_ge _ _)⟩
theorem witness_GovernorWindow_time : now (up 9999) < (Machine.core (up 9999) 5).winSince + 10000 ∧
    (Machine.core (up 10000) 5).winSince + 10000 ≤ now (up 10000) := by decide +kernel
theorem witness_GovernorWindow : (objNat (up 0) 0x201101 = 1 ∧ vFloor (up 0) 5 ≤ (Machine.core (up 0) 5).vcore) ∧
    (let s : State := { up 0 with dict := { values := [(0x201101, [0#8])] } }
     objNat s 0x201101 ≠ 1 ∧ vFloor s 5 ≤ (Machine.core s 5).vcore ∧ pwrLimiting s = false) :=
  ⟨⟨by decide +kernel, vFloor_le _ _⟩, by decide +kernel, vFloor_le _ _, by decide +kernel⟩
/-- One ns beyond the limit of 0x2014:02. -/
theorem witness_LongStalls : objNat s0 0x201402 = 1000 ∧
    (let s := withCore { stall := some ⟨7, none, 0, false, false, 0⟩ } 1000001
     (Machine.core s 5).stall = some ⟨7, none, 0, false, false, 0⟩ ∧ objNat s 0x201402 * 1000 < now s - 0) ∧
    (let m : SentMsg := { strand := 1, die := 88 }
     let s : State := { up 1000001 with unsent := [m] }
     s.unsent.find? (fun m => m.strand == 1 && !m.reported) = some m ∧ m.die ≠ mgtDie ∧ objNat s 0x201402 * 1000 < now s - m.since) ∧
    (let s := withSlot { busy := true, opcode := 5 } 1000001
     (slotOf s 3).busy = true ∧ (slotOf s 3).opcode = opBarrier ∧ (slotOf s 3).written = false ∧ (slotOf s 3).reported = false ∧
       objNat s 0x201402 * 1000 < now s - (slotOf s 3).since) ∧
    (let w : CoreTask := { slot := 3, phase := 2 }
     let s : State := { withCore { task := some w } 1000001 with hst := { slots := [(3, { busy := true, waiting := true })] } }
     (Machine.core s 5).stall = none ∧ (Machine.core s 5).task = some w ∧ issueWait s 5 = true ∧ (slotOf s w.slot).reported = false ∧
       objNat s 0x201402 * 1000 < now s - (slotOf s w.slot).since) ∧ (Machine.core s0 5).stall = none ∧ issueWait s0 5 = false := by decide +kernel
theorem witness_ClearRegisters : bit (1 : Word).toNat 0 = true ∧ bit (2 : Word).toNat 0 = false ∧
    (coreOff 5 CORE_STALL_SCHED_NS ≤ coreOff 5 CORE_OVR_NS ∧ coreOff 5 CORE_OVR_NS ≤ coreOff 5 CORE_OVR_NS) ∧
    ¬ coreOff 5 CORE_STALL_SCHED_NS ≤ coreOff 5 CORE_VCORE := by decide +kernel
theorem witness_ClearFlags : bit (3 : Word).toNat 0 = true ∧ bit (2 : Word).toNat 0 = false ∧ (6 : Nat) ≠ (5 : CoreId).val ∧
    coreOff 5 SPM_DET_WMEM_COUNT ≤ coreOff 5 SPM_PWR_ABANDON_COUNT := by decide +kernel

/-! Witnesses: hardware queues and row counters. -/

/-- Queue 160 lies at core 5, bound to region 0 of its activation memory: native policy, written by the host, LEN 4. -/
def withQueue (x : Queue) (word0 : Nat := 9) (t : Nat := 0) : State :=
  { setReg (setReg (up t) (queOff 160 0) word0) (regionOff 5 1 0 0) (4 * 2 ^ 20) with queues := [(160, x)] }
def packet : QPacket := { seq := 0, pos := 0, rows := 1 }

/-- LEN 1 and 4,097 are refused, 2 and 4,096 are bound. -/
theorem witness_QueueEnable : (queue s0 160).enabled = false ∧ bit (0 : Word).toNat 0 = false ∧ bit (9 : Word).toNat 0 = true ∧
    (queue (withQueue { enabled := true }) 160).enabled = true ∧ (queue (withQueue {}) 160).enabled = false ∧
    (∀ n ∈ [1, 4097], bindResult (setReg (up 0) (regionOff 5 1 0 0) (n * 2 ^ 20)) 160 (bits (9 : Word).toNat 33 0) ≠ 0) ∧
    (∀ n ∈ [2, 4096], bindResult (setReg (up 0) (regionOff 5 1 0 0) (n * 2 ^ 20)) 160 (bits (9 : Word).toNat 33 0) = 0) := by decide +kernel
/-- Two rows free, and one; under the DX8 policy none. -/
theorem witness_QueueOpen :
    (let s := withQueue { enabled := true, len := 4, landed := 2 }
     portOk s 160 .host = true ∧ (queue s 160).open_ = none ∧ (queue s 160).held = none ∧ hasRoom s 160 = true) ∧
    (let s := withQueue { enabled := true, len := 4, landed := 3 }
     portOk s 160 .host = true ∧ (queue s 160).open_ = none ∧ (queue s 160).held = none ∧ hasRoom s 160 = false ∧ quePolicy s 160 = false) ∧
    (let s := withQueue { enabled := true, len := 4, landed := 4 } 11
     portOk s 160 .host = true ∧ (queue s 160).open_ = none ∧ (queue s 160).held = none ∧ hasRoom s 160 = false ∧ quePolicy s 160 = true) := by
  decide +kernel
theorem witness_QueueProtocolDropsHostWrites : portOk s0 160 .host = false := by decide +kernel
/-- Word 63 of a row, the last that stays in it. -/
theorem witness_QueueDataAndClose :
    let s := withQueue { enabled := true, len := 4, landed := 1, open_ := some { packet with n := 63 } }
    portOk s 160 .host = true ∧ (queue s 160).open_ = some { packet with n := 63 } ∧ (queue s 160).held = none ∧ MemoryCanonical s ∧ 63 % 64 ≠ 0 ∧
      (queue s 160).flushPending = false := by unfold MemoryCanonical; decide +kernel
/-- A marker that has been quiet for exactly 1 microsecond. -/
theorem witness_QueueReadable :
    (let s := withQueue { enabled := true, len := 4, landed := 1, waiting := [{ packet with committed := true }] }
     (queue s 160).waiting = { packet with committed := true } :: [] ∧ (queue s 160).marker = none ∧ (queue s 160).fullMarkers = [] ∧ (Machine.core s (queCore 160)).stall = none) ∧
    ((queue s0 160).waiting = [] ∧ (queue s0 160).fullMarkers = [] ∧ (Machine.core s0 (queCore 160)).stall = none ∧ (queue s0 160).marker = none) ∧
    (let m : QMarker := { first := 0, count := 1, bytes := 8, tFirst := 0, tLast := 0, row := some 0 }
     let s := withQueue { enabled := true, len := 4, landed := 1, marker := some m } 9 1000
     (queue s 160).marker = some m ∧ (queue s 160).fullMarkers = [] ∧ (queue s 160).open_ = none ∧ (queue s 160).waiting.all (afterMarker m) = true ∧ m.tLast + 1000 ≤ now s) := by
  decide +kernel
/-- Three rows are readable: 4 are too many to release, 3 are not. The packet at the read position ends in its first row. -/
theorem witness_QueueFrees :
    (let s := withQueue { enabled := true, len := 4, readable := 3 }
     NewMessage s (coreDie 5) (fr 0) ∧ QueueQuiet s 160 ∧ (queue s 160).readable < (4#13).toNat ∧ (3#13).toNat ≤ (queue s 160).readable ∧
       (queue s 160).readable ≠ 0 ∧ (queue s 160).flushPending = false) ∧ (queue s0 160).readable = 0 ∧
    (let t := setReg (withQueue { enabled := true, len := 4, readable := 3 }) (regionOff 5 1 0 1) (3 * 2 ^ 24)
     let s : State := { t with cores := [(5, { queueTags := [(0, 2 ^ 11)] })] }
     (queue s 160).readable ≠ 0 ∧ rowsToLast s 160 (queue s 160).readable (readPos s 160) = 1 ∧ 1 ≤ regionHeld s (queCore 160) 1 (queRegion s 160)) ∧
    (queue (withQueue { flushPending := true }) 160).flushPending = true := by unfold QueueQuiet; decide +kernel

/-- Counter 64 lies in slice 1, die 13. -/
def withCounter (x : RowCounter) (y : Slot := {}) : State := { mapped with counters := [(64, x)], hst := { mapped.hst with slots := [(3, y)] } }
theorem witness_RowCounterArming : sliceDie (counterSlice 64) = 13 ∧ NewMessage (withCounter {}) 13 (fr 98) ∧
    (let s := withCounter { strand := 1, k := 1, slot := 3 }
     (getRange (armedAt s 64 (fr 98) 0x3000) (rowCounter s 64).strand (0x3000#48).toNat (4 * ((rowCounter s 64).k + 1))).2 = stSuccess) ∧
    (let s := withCounter { strand := 2, k := 1, slot := 3 } { busy := true }
     let u := getRange (armedAt s 64 (fr 98) 0x3000) (rowCounter s 64).strand (0x3000#48).toNat (4 * ((rowCounter s 64).k + 1))
     u.2 = stTranslationFault ∧ (slotOf u.1 (rowCounter s 64).slot).busy = true ∧ (slotOf u.1 (rowCounter s 64).slot).ending = false ∧
       (slotOf u.1 (rowCounter s 64).slot).written = false) ∧ (rowCounter (withCounter { armed := true }) 64).armed = true ∧
    (let s := withCounter { slot := 3 } { busy := true, counter := some 64 }
     NewMessage s hstDie (fr 13) ∧ (slotOf s (rowCounter s 64).slot).busy = true ∧
       (slotOf s (rowCounter s 64).slot).counter = some (64 : CounterId).val) := by decide +kernel
/-- The last chunk of two, and none left. -/
theorem witness_RowCounterClaims :
    (let s := withCounter { armed := true, k := 2, next := 1 }
     NewMessage s (sliceDie (counterSlice 64)) (fr 0) ∧ dieCore (fr 0).src = some 0 ∧ (rowCounter s 64).armed = true ∧
       (1#2).toNat ≠ (rowCounter s 64).attempt ∧ (0#2).toNat = (rowCounter s 64).attempt ∧ coreActive s 0 = true ∧
       (rowCounter s 64).next < chunkCount (rowCounter s 64)) ∧
    (let s := withCounter { armed := true, k := 2, next := 2 }
     (0#2).toNat = (rowCounter s 64).attempt ∧ chunkCount (rowCounter s 64) ≤ (rowCounter s 64).next) ∧
    (let w : CoreTask := { slot := 3, counter := some 64, claimInFlight := true }
     let s := withCore { task := some w }
     NewMessage s (coreDie 5) (fr 13) ∧ (Machine.core s 5).task = some w ∧ w.counter = some (64 : CounterId).val ∧ w.claimInFlight = true ∧
       w.attempt = (0#2).toNat ∧ sSource w.table (claimSlot w) ≠ 1) ∧
    (let w : CoreTask := { slot := 3, claimInFlight := true, phase := 4, table := [0, 0, 0, 0, 0, 0, 0, 0, 2 * 2 ^ 32] }
     let s := withCore { task := some w }
     (Machine.core s 5).task = some w ∧ w.copy = false ∧ claimsMode w.table = true ∧ w.counter = none ∧ w.claimInFlight = true ∧ w.phase = 4 ∧
       posEnd w - posFirst w ≤ w.localNext.getD 0 * chunkSize w.table) := by decide +kernel
theorem witness_OwnersAndCounts :
    (let s := withCounter { armed := true, owners := [(7, 5)] }
     NewMessage s (sliceDie (counterSlice 64)) (fr 0) ∧ dieCore (fr 0).src = some 0 ∧ tfind (rowCounter s 64).owners (7#21).toNat = some 5 ∧
       (rowCounter s 64).armed = true ∧ (1#2).toNat ≠ (rowCounter s 64).attempt ∧ (0#2).toNat = (rowCounter s 64).attempt) ∧
    (let w : CoreTask := { slot := 3, counter := some 64 }
     let s := withCore { task := some w }
     NewMessage s (coreDie 5) (fr 13) ∧ (Machine.core s 5).task = some w ∧ w.counter = some (64 : CounterId).val ∧ w.counted = false) := by
  decide +kernel

/-! Witnesses: passes, audit and stitches. -/

/-- A claiming task in lane mode m. -/
def claimer (m : Nat) : CoreTask := { slot := 3, phase := 4, dry := true, table := [0, 0, 0, 0, 0, 0, 0, 0, m * 2 ^ 32] }
/-- Rows that find tags and rows that do not; a send pass whose reads meet no fault, and one whose overflow row does not translate. -/
theorem witness_SendPass :
    (let w := claimer 2
     let s := withCore { task := some w }
     (Machine.core s 5).task = some w ∧ w.copy = false ∧ claimsMode w.table = true ∧ w.phase = 4 ∧ w.sent = false ∧ claimsOver s 5 w = true ∧
       laneMode w.table ≠ 3 ∧ w.outbox = none ∧ (foreignChunks s 5 w).all (fun f => (ownerOf s 5 (homeChunk s 5 w f.2)).isSome) = true ∧
       (foreignChunks s 5 w).isEmpty = true ∧ (sendPlan s 5 w).flatMap (fun p => p.2.2.map (fun d => (p.2.1, d))) = []) ∧
    (let w := { claimer 3 with outbox := some [(6, [1#8])] }
     let s := withCore { task := some w }
     let t := withCore { task := some w, tags := (List.range 256).map (fun i => (i, { task := 9 })) }
     (Machine.core s 5).task = some w ∧ w.sent = false ∧ claimsOver s 5 w = true ∧ [(6, [1#8])].length ≤ (freeTags s 5).length ∧
       (Machine.core t 5).task = some w ∧ claimsOver t 5 w = true ∧ (freeTags t 5).length < [(6, [1#8])].length) ∧
    (let w := { claimer 3 with counter := some 64 }
     let k : Chunk := { idx := 1, s := 4096, e := 8192, i0 := 0, i1 := 0, searched := true, cut := 8192 }
     let s := withCore { task := some w, chunks := [k], owners := [(0, 6)], spillOvf := [0x3000] }
     let t := withCore { task := some w, chunks := [k], owners := [(0, 6)] }
     (Machine.core s 5).task = some w ∧ claimsOver s 5 w = true ∧ (Machine.core s 5).spillBuf = [] ∧ w.outbox = none ∧
       (foreignChunks s 5 w).all (fun f => (ownerOf s 5 (homeChunk s 5 w f.2)).isSome) = true ∧ (foreignChunks s 5 w).isEmpty = false ∧
       (readRecords s 5 w false).2 = false ∧ (readRecords t 5 w false).2 = true ∧ (Machine.core (readRecords t 5 w false).1 5).task = some w ∧
       ((sendPlan (readRecords t 5 w false).1 5 w).flatMap (fun p => p.2.2.map (fun d => (p.2.1, d)))).length ≤
         (freeTags (readRecords t 5 w false).1 5).length ∧
       (foreignChunks (withCore { task := some w, chunks := [k] }) 5 w).all (fun f => (ownerOf (withCore { task := some w, chunks := [k] }) 5
         (homeChunk (withCore { task := some w, chunks := [k] }) 5 w f.2)).isSome) = false) := by decide +kernel
/-- A merge pass whose reads meet no fault, and one whose overflow row does not translate. -/
theorem witness_MergePasses :
    (NewMessage (withCore { foreignOpen := true }) (coreDie 5) (fr 0) ∧ (Machine.core (withCore { foreignOpen := true }) 5).foreignOpen = true ∧
      (Machine.core s0 5).foreignOpen = false) ∧
    (let w := claimer 2
     mergeMayStart (withCore { task := some w }) 5 w = false) ∧
    (let w := { claimer 3 with counter := some 64, sent := true }
     let s := withCore { task := some w, spillOvf := [0x3000] }
     mergeMayStart s 5 w = true ∧ (readRecords s 5 w true).2 = false) ∧
    (let w := { claimer 3 with counter := some 64, sent := true }
     let s := withCore { task := some w, chunks := [{ idx := 0, s := 0, e := 4096, i0 := 0, i1 := 0 }] }
     let u := (readRecords s 5 w true).1
     (Machine.core s 5).task = some w ∧ mergeMayStart s 5 w = true ∧ sbWaits s 5 (mergeRanges s 5 w).1 (mergeRanges s 5 w).2 = false ∧
       laneMode w.table = 3 ∧ w.counter = some 64 ∧
       readRecords s 5 w true = (u, true) ∧ sortPass u 5 w = (u, some []) ∧ (Machine.core u 5).task = some w ∧
       (Machine.core u 5).bases.length < (ownChunks u 5).length) ∧
    (let w := { claimer 3 with counter := some 64, sent := true }
     let s := { withCore { task := some w, acc := [(0, 0x3F800000 * 2 ^ 32)] } with regs := [(coreOff 5 SPM_PWR_MAP_AP, 0)] }
     let u := (readRecords s 5 w true).1
     mergeMayStart s 5 w = true ∧ readRecords s 5 w true = (u, true) ∧ sortPass u 5 w = ((sortPass u 5 w).1, none)) ∧
    (let w := { claimer 2 with sent := true, outDone := 7 }
     let s := withCore { task := some w }
     let u := (readRecords s 5 w true).1
     let sums := (List.range (panelCount w (lastProd w.table))).flatMap (fun q => sumRows u 5 w (lastProd w.table) 0 q)
     (Machine.core s 5).task = some w ∧ mergeMayStart s 5 w = true ∧ sbWaits s 5 (mergeRanges s 5 w).1 (mergeRanges s 5 w).2 = false ∧
       (zeroLevels w).isEmpty = true ∧ laneMode w.table = 2 ∧ readRecords s 5 w true = (u, true) ∧
       takeRows u 5 (heldSums u 5 sums) sums = (u, true) ∧ foreignRecs u 5 w = [] ∧ (Machine.core u 5).task = some w ∧ w.outDone ≠ outTotal w) := by
  decide +kernel
/-- The frame of R356, and the fields of REPORT and of ANSWER with ROWS at the bits of Table: Row-counter messages (09 R251). -/
theorem test_chain_payload :
    (chainPayload (.report 0x2A5 2 0x12345 0x155 true)).map (fun w =>
      (bits w 63 60, bits w 9 0, bits w 11 10, bits w 32 12, bits w 58 33, bits w 59 59)) = [(0xA, 0x2A5, 2, 0x12345, 0x155, 1)] ∧
    (chainPayload (.answer 5 7 1 false 9 0x11 0x22)).map (fun w => (bits w 63 60, bits w 33 13, bits w 31 0, bits w 63 32)) =
      [(6, 9, 0x12407, 0x60000000), (0, 0x100000, 0x11, 0x22)] ∧
    (let w := chainFrame 0x2B 0x50 0x2A5 0x05
     (bits w 7 0, bits w 15 8, bits w 21 16, bits w 31 22) = (0x50, 0x2B, 0x05, 0x2A5)) := by decide +kernel
/-- An entry of the accumulator lies as a record in the first block slot, and is read back (06 R150, R157). -/
theorem test_sorted_block :
    let w := { claimer 3 with counter := some 64, sent := true }
    let s := withCore { task := some w, acc := [(0, 0x3F800000 * 2 ^ 32)] }
    (sortPass s 5 w).2 = some [[.psum 0]] ∧
      runRecs (sortPass s 5 w).1 5 w [.psum 0] = [{ row := 0, col := 0, value := 0x3F800000#32 }] := by decide +kernel
/-- One token below the window, and at it; a limit that is met and one that is not; a band below its bound, and at it. -/
theorem witness_AuditReport : MemoryCanonical mapped ∧ translate mapped 1 (0x3000#48).toNat true = .ok 0x3000 ∧
    (sliceRead mapped 0x3000).2 = stSuccess ∧ (sliceRead { mapped with pkg := { failedDies := [mifDie (stackOf 0x3000)] } } 0x3000).2 ≠ stSuccess ∧
    (let wt := (bits (rd64 mapped (0x3000 + 24)) 31 0 + (9#32).toNat) % 2 ^ 32
     wt < (10#16).toNat ∧ (9#16).toNat ≤ wt) ∧ decide ((1#16).toNat * 65536 < 1 * 65536) = false ∧ decide ((0#16).toNat * 65536 < 1 * 65536) = true ∧
    ltF32 (BitVec.ofNat 32 (bits (rd64 mapped 0x3000) 31 0)) 0x3F800000#32 = true ∧
    ltF32 (BitVec.ofNat 32 (bits (rd64 mapped 0x3000) 31 0)) 0#32 = false := by unfold MemoryCanonical; decide +kernel
/-- Credit for one stitch, and a quarter less; a stall that goes on and one that ends; a region that is full. -/
theorem witness_Stitch : coreActive { s0 with pkg := { enabled := 1 } } 5 = false ∧ (Machine.core (withCore { halted := true }) 5).halted = true ∧
    (coreActive (up 0) 5 = true ∧ (Machine.core (up 0) 5).halted = false ∧ issueWait (up 0) 5 = false ∧
      pendingOf (up 0) 5 [.pendingHandshake 7 none] = some (7, none) ∧ (Machine.core (up 0) 5).stall = none) ∧
    (let s := withCore { stall := some ⟨7, none, 0, false, false, 0⟩ }
     coreActive s 5 = true ∧ issueWait s 5 = false ∧ (Machine.core s 5).stall = some ⟨7, none, 0, false, false, 0⟩ ∧ 7 ≠ resBase ∧
       pendingOf s 5 [.pendingHandshake 7 none] = some (7, none) ∧ pendingOf s 5 [.pendingHandshake 6 none] = some (6, none)) ∧
    (let s := withCore { credits := 3 }
     pendingOf s 5 ((Machine.core s 5).heldItems ++ [.bankConflict]) = none ∧ (Machine.core s 5).credits < 4) ∧
    passWait (Machine.core (up 0) 5) = false ∧ (Machine.core (up 0) 5).heldItems = [] ∧ (Machine.core (up 0) 5).episodes = [] ∧
    passWait (Machine.core (withCore { stall := some ⟨resBase, none, 0, false, false, 0⟩ }) 5) = true ∧
    (let s := withCore { episodes := [⟨7, some 3, 0, true, false, 0⟩], heldItems := [.pendingHandshake 7 (some 3)] }
     pendingOf s 5 ((Machine.core s 5).heldItems ++ []) = some (7, some 3) ∧
       ((Machine.core s 5).stall.toList ++ (Machine.core s 5).episodes).find? (fun x => x.resource == 7 && x.stream == some 3) = some ⟨7, some 3, 0, true, false, 0⟩) ∧
    (let s := withCore { credits := 4 }
     coreActive s 5 = true ∧ (Machine.core s 5).halted = false ∧ issueWait s 5 = false ∧ 4 ≤ (Machine.core s 5).credits ∧
       (Machine.core s 5).task = none ∧ (Machine.core s 5).stall = none ∧ sbWaits s 5 [(0, 0, 1)] [] = false ∧
       bankPowered s 5 2 (7 / memBankRows 2) = true ∧ sbWaits s 5 [(2, 7, 1)] [] = false ∧ (Machine.core s 5).badRows.contains (rowKey 2 7) = false ∧
       (Machine.core s 5).gb = [] ∧ regionFull (setReg s (regionOff 5 1 3 0) (2 ^ 20 + 2 ^ 40)) 5 1 3 = false ∧
       regionFull (setReg (setReg s (regionOff 5 1 3 0) (2 ^ 20)) (regionOff 5 1 3 1) (2 ^ 44)) 5 1 3 = true) ∧
    (let s := withCore { credits := 4, sb := [⟨0, true, 0, 0, 1⟩] }
     sbWaits s 5 ([(0, 0, 1)].take 4) [] = true) := by decide +kernel

/-! Witnesses: scratchpads and bank power. -/

/-- The last row of the weight memory, and one beyond; an operation that waits, on banks with and without power. -/
theorem witness_FillAndCopy :
    (let s (dst : Nat) := setReg (setReg (up 0) (coreOff 5 SPM_OP0) (dst * 2 ^ 6)) (coreOff 5 SPM_OP1) 1
     opRefused (s 327680) 5 = true ∧ opRefused (s 327679) 5 = false) ∧ (Machine.core (up 0) 5).op = none ∧
    (let o : SpmOp := { copy := false, mem := 0, dst := 0, src := 0, rows := 1, pattern := 7 }
     let z : SbEntry := ⟨0, false, 0, 0, 1⟩
     sbWaits (withCore {}) 5 (opRanges o).1 (opRanges o).2 = false ∧ sbWaits (withCore { sb := [z] }) 5 (opRanges o).1 (opRanges o).2 = true ∧
       (Machine.core (withCore { op := some o, sb := [z] }) 5).op = some o ∧ o.held = none) ∧
    (let o : SpmOp := { copy := false, mem := 0, dst := 0, src := 0, rows := 1, pattern := 7, held := some 4 }
     let s := withCore { op := some o }
     (Machine.core s 5).op = some o ∧ o.held = some 4 ∧
       opRows (sbDone (updCore s 5 (fun x => { x with op := none })) 5 4) 5 o.copy o.mem o.src o.rows = (sbDone (updCore s 5 (fun x => { x with op := none })) 5 4, true) ∧
       (Machine.core s 5).gb = [] ∧ MemoryCanonical s ∧ opFault s 5 o.copy o.mem o.dst o.src o.rows = none ∧
       (0 < o.rows) ∧ (let t := setReg s (coreOff 5 SPM_PWR_MAP_W) 0
        (Machine.core t 5).op = some o ∧ opFault t 5 o.copy o.mem o.dst o.src o.rows ≠ none)) := by unfold MemoryCanonical; decide +kernel
/-- A free region, and one that the running task names; a window that is closed, and one that is open; a wait that the value meets. -/
theorem witness_ScratchEntries : regionOff 5 0 7 1 ≠ regionOff 5 0 7 0 ∧ namedRegion s0 5 0 0 = false ∧
    (let w : CoreTask := { slot := 3, table := List.replicate 80 0 ++ [1] }
     namedRegion (withCore { task := some w }) 5 0 0 = true) ∧
    ((5 : Fin 8) ≠ 0 ∧ (5 : Fin 8) ≠ 1 ∧ (5 : Fin 8) ≠ 4) ∧ winState s0 5 63 = 0 ∧ winState (setReg s0 (windowOff 5 63 0) 1) 5 63 ≠ 0 ∧
    windowOff 5 63 1 ≠ windowOff 5 63 0 ∧
    ((Machine.core (withCore { waits := [(3, 255, 9)] }) 5).waits = [(3, 255, 9)] ∧ markerReached ((9 : Word).toNat % 2 ^ 32) 9 = true) := by
  decide +kernel
theorem witness_WindowsAndNarrowWrites :
    (openRefused (setReg (up 0) (windowOff 5 63 0) 1) 5 63 false = true ∧ openRefused (up 0) 5 63 false = false) ∧
    (let w : CoreTask := { slot := 3 }
     (Machine.core (withCore { task := some w }) 5).task = some w ∧ openRefused (withCore { task := some w }) 5 63 true = false ∧
       openRefused (setReg (withCore { task := some w }) (windowOff 5 63 0) 2) 5 63 true = true) ∧
    (winState (up 0) 5 63 ≠ 1 ∧ (let s := setReg (up 0) (windowOff 5 63 0) 1
      winState s 5 63 = 1 ∧ (Machine.core s 5).gb.all (fun g => g.win != some (63 : WindowId).val) = true)) ∧
    (let s := setReg (up 0) (windowOff 5 63 0) 2
     winState s 5 63 = 2 ∧ winInflight s 5 63 = 0 ∧ winInflight (setReg s (windowOff 5 63 3) (2 ^ 32)) 5 63 ≠ 0) ∧ winState (up 0) 5 63 ≠ 2 := by
  decide +kernel
/-- Window 63 takes host writes to row 0 of the weight memory: mode 0 up to byte 510, mode 2 whole elements; row 1 is outside it. A buffer row one
ns before its idle time, and at it. -/
theorem witness_NarrowWrites :
    (let s (mode : Nat) := setReg (up 0) (windowOff 5 63 0) (1 + mode * 2 ^ 4 + 3 * 2 ^ 8 + 2 ^ 44)
     narrowCause (s 0) 5 63 1 0 1 .host ≠ 0 ∧ narrowCause (s 0) 5 63 0 0 1 (.core 0) ≠ 0 ∧ narrowCause (s 0) 5 63 0 0 1 (.strand 1 88) ≠ 0 ∧
     (narrowCause (s 0) 5 63 0 510 1 .host = 0 ∧ winMode (s 0) 5 63 ≠ 2 ∧ (Machine.core (s 0) 5).gb = [] ∧ 510 + 1 < 512) ∧
     (narrowCause (s 2) 5 63 0 508 4 .host = 0 ∧ winMode (s 2) 5 63 = 2 ∧ MemoryCanonical (s 2) ∧
       (Machine.core (s 2) 5).badRows.contains (rowKey (winMem (s 2) 5 63) (winBase (s 2) 5 63 + 0)) = false)) ∧
    (let g : GbRow := { mem := 0, row := 9, last := 0 }
     gbFind s0 5 0 9 = none ∧ objNat s0 0x405002 = 1000 ∧ gbFind (withCore { gb := [g] }) 5 0 9 = some g ∧
     now (withCore { gb := [g] } 999) < g.last + objNat (withCore { gb := [g] } 999) 0x405002 ∧
     g.last + objNat (withCore { gb := [g] } 1000) 0x405002 ≤ now (withCore { gb := [g] } 1000)) := by unfold MemoryCanonical; decide +kernel
/-- Row 9 lies in region 0 of the weight memory, whose home is valid; row 10 in none; an instruction that writes it. -/
theorem witness_ReloadAndScrub :
    (Machine.core s0 5).reloads.contains 9 = false ∧ ((Machine.core (withCore { reloads := [9] }) 5).reloads.contains 9 = true ∧
      MemoryCanonical (withCore { reloads := [9] }) ∧ (Machine.core (withCore { reloads := [9] }) 5).gb = [] ∧
      sbWaits (withCore { reloads := [9] }) 5 [] [(0, 9, 1)] = false ∧ sbWaits (withCore { reloads := [9], sb := [⟨0, true, 0, 9, 1⟩] }) 5 [] [(0, 9, 1)] = true) ∧
    (let w : CoreTask := { slot := 3 }
     (Machine.core (withCore { reloads := [9], task := some w }) 5).task = some w) ∧
    objNat (withObj 0x405003 0) 0x405003 ≠ 1 ∧
    (let s (x : Machine.Core) := setReg (withCore x) (regionOff 5 0 0 0) (9 + 2 ^ 20 + 2 ^ 49)
     objNat (s {}) 0x405003 = 1 ∧ homeRegion (s {}) 5 9 ≠ none ∧ scrubNext (s {}) 5 = some 9 ∧ scrubNext (s {}) 5 ≠ some 10 ∧
       (Machine.core (s {}) 5).badRows.contains (rowKey 0 9) = false ∧ (Machine.core (s { badRows := [rowKey 0 9] }) 5).badRows.contains (rowKey 0 9) = true ∧
       (Machine.core (s {}) 5).sb.any (fun e => e.write && e.mem == 0 && overlaps 9 1 e.first e.rows) = false ∧
       (Machine.core (s { sb := [⟨0, true, 0, 9, 1⟩] }) 5).sb.any (fun e => e.write && e.mem == 0 && overlaps 9 1 e.first e.rows) = true ∧
       (Machine.core (s {}) 5).reloads.contains 9 = false) := by
  unfold MemoryCanonical; decide +kernel
/-- Banks 15 and 16 of the partial-sum memory, which has 16; a drain at its limit, and one ns before. -/
theorem witness_BankPower :
    (let r (u : Bool) : BankReq := ⟨u, 2, 15, 0, []⟩
     (Machine.core s0 5).bankReq = none ∧ (Machine.core (withCore { bankReq := some (r true) }) 5).bankReq ≠ none ∧
     (downRefused (notePower (up 0) 5 2 16 1) 5 2 16 = true ∧ downRefused (notePower (up 0) 5 2 15 1) 5 2 15 = false) ∧
     (bankCount 2 ≤ 16 ∧ 15 < bankCount 2) ∧ bankPowered (up 0) 5 2 15 = true ∧
     bankPowered (setReg (up 0) (coreOff 5 SPM_PWR_MAP_AP) 0) 5 2 15 = false ∧ MemoryCanonical (withCore { bankReq := some (r true) }) ∧
     (r false).mem < 3 ∧ (r false).bank < bankCount (r false).mem ∧ reqInflight (withCore { bankReq := some (r false) }) 5 (r false) = 0 ∧
     now (withCore { bankReq := some (r false) } 49999) < (r false).since + objNat s0 0x405001 * 1000 ∧
     (let s := setReg (withCore { bankReq := some (r false) } 50000) (windowOff 5 63 3) (2 ^ 32)
      reqInflight s 5 ⟨false, 2, 15, 0, [63]⟩ ≠ 0) ∧
     (r false).since + objNat s0 0x405001 * 1000 ≤ now (withCore { bankReq := some (r false) } 50000)) := by unfold MemoryCanonical; decide +kernel

/-! Witnesses: tags and bulk packets. -/

/-- A copy that asks for one row of the first page, which the translation cache holds, at an age of t ns. -/
def asked : Req := { va := 0x3000, kind := 3 }
def reader (t : Nat) : State :=
  { mapped with clock := { reftime := t }, cores := [(5, { task := some { slot := 3, copy := true, strand := 1, phase := 4 }, requests := [asked], xlt := [(1, 0, 65536)] })] }
/-- The request 1 ns past the promotion time, and at it. -/
theorem witness_TagIssue : (Machine.core s0 5).task = none ∧ portHeld (withCore { portHold := some 40 } 39) 5 = true ∧
    portHeld (withCore { portHold := some 40 } 40) 5 = false ∧
    (let w : CoreTask := { slot := 3, copy := true, strand := 1, phase := 4 }
     (Machine.core (reader 0) 5).task = some w ∧ portHeld (reader 0) 5 = false ∧ freeTags (reader 0) 5 = 0 :: List.range' 1 255 ∧
     pickReq (reader 0) 5 w = some asked ∧ singleRead (reader 0) 5 w asked ∧ translate (reader 0) w.strand asked.va false = .ok 0x3000 ∧
     (reqClass w asked == 3 && promoted (reader 5001) 5 asked) = true ∧ (reqClass w asked == 3 && promoted (reader 5000) 5 asked) = false) := by
  unfold singleRead; decide +kernel
theorem witness_FreeTags_none : freeTags (withCore { tags := (List.range 256).map (fun i => (i, { task := 3 })) }) 5 = [] := by decide +kernel
/-- Tag 255 of a running task, an abandoned one, and one that no task holds. -/
theorem witness_TagAnswers : NewPacket (up 0) (coreDie 5) (pk 13) ∧ tfind (Machine.core (up 0) 5).tags (255 : TagId).val = none ∧
    (let s := withCore { tags := [(255, { task := 3, abandoned := true })] }
     tfind (Machine.core s 5).tags (255 : TagId).val = some { task := 3, abandoned := true } ∧ (Machine.core s 5).draining = none) ∧
    (let g : Tag := { task := 3, mem := 1, region := 63 }
     let w : CoreTask := { slot := 3, copy := true }
     let s := withCore { task := some w, tags := [(255, g)] }
     NewPacket s (coreDie 5) (pk 13) ∧ tfind (Machine.core s 5).tags (255 : TagId).val = some g ∧ g.abandoned = false ∧ (Machine.core s 5).draining = none ∧
     (Machine.core s 5).task = some w ∧ (0x203#16) ≠ 0#16 ∧ g.kind = 0 ∧ (g.mem < 3 ∧ g.region < 64) ∧ MemoryCanonical s ∧ (Machine.core s 5).gb = [] ∧
     localFault s 5 g.mem (tailRow s 5 g.mem g.region) = none ∧ (besideRows (rowTaken s 5 (pk 13) 255 g 0) 5 w g).2 = none ∧
     (let x : CoreTask := { slot := 3, phase := 4, table := List.replicate 72 0 ++ [8] }
      let u := withCore { task := some x, tags := [(255, g)] }
      (besideRows (rowTaken u 5 (pk 13) 255 g 0) 5 x g).2 ≠ none) ∧
     spanReady (streamMoved (freeTag (bumpCore (tookPacket s (coreDie 5) (pk 13)) 5 FET_BYTES_WRITTEN 512) 5 255) 5 g.stream 512) g.task = false) := by
  unfold MemoryCanonical; decide +kernel
/-- The first and the last address of each range: mirror, and the near tier with a resident line, whole and poisoned. -/
theorem witness_BulkRequests :
    (∀ a ∈ [0x200000000000, 0x200004FFFFFF], isNear a = false ∧ isFar a = false ∧ isSpm a = false ∧ isMirror a = true) ∧
    (∀ a ∈ [0, 0x8FFFFFFFFF], isNear a = true ∧ isHost a = false ∧ isMirror a = false ∧ isSpm a = false ∧
      (let s : State := { up 0 with cache := { resident := [lineOf a] } }
       hostBias s a = false ∧ s.cache.resident.contains (lineOf a) = true ∧ s.cache.poisoned.contains (lineOf a) = false ∧
         (stack s (stackOf a)).retraining = none ∧ stackFailed s (stackOf a) = false ∧ memWf s.mem = true ∧ NewPacket s (sliceDie (homeSlice a)) (pk 0)) ∧
      (let s : State := { up 0 with cache := { resident := [lineOf a], poisoned := [lineOf a] } }
       hostBias s a = false ∧ s.cache.poisoned.contains (lineOf a) = true ∧ (stack s (stackOf a)).retraining = none)) ∧
    stackFailed { up 0 with mifs := [(0, { state := 3 })] } (stackOf 0) = true ∧
    (NewPacket (up 0) (coreDie 5) (pk 13) ∧ rowCause (up 0) 5 63 0 (.core 0) ≠ 0 ∧ rowCause (up 0) 5 63 0 .host ≠ 0 ∧ rowCause (up 0) 5 63 0 (.strand 1 88) ≠ 0) ∧
    NewPacket (up 0) (ownerDie (0x3FFFFFF#26).toNat) (pk 98) := by decide +kernel
/-- An entry 6, a detour, and no way; a packet of each kind. -/
theorem witness_BulkTransport :
    (let s (e : Nat) : State := { up 0 with pkg := { routes := [(79, e)] } }
     (routeEntry (s 6) false 0 79 % 8 ≠ 7 ∧ (false || bit (routeEntry (s 6) false 0 79) 3) = false) ∧
     (routeEntry (s 14) false 0 79 % 8 ≠ 7 ∧ (false || bit (routeEntry (s 14) false 0 79) 3) = true) ∧ routeEntry (s 7) false 0 79 % 8 = 7) ∧
    asks .readData = false ∧ asks .readRequest = true ∧
    (let b : BulkSend := { src := 0, dst := 79, seq := 65535, type := .write }
     now (up 0) < b.sentAt + objNat (up 0) 0x401001 ∧ b.sentAt + objNat (up 0) 0x401001 ≤ now (up (objNat s0 0x401001)) ∧
     ({ up 0 with net := { bulk := [b] } } : State).net.bulk = [b] ∧ b.src = (0 : DieId) ∧ b.dst = (79 : DieId) ∧ b.seq = (65535 : Fin 65536)) ∧
    s0.net.bulk = [] := by decide +kernel

/-! Witnesses: the tiers and the chain. -/

/-- The first page of strand 1, in the translation cache and not; an address that does not translate, with and without a task of the strand. -/
theorem witness_TranslationWalk : xltHit (reader 0) 5 1 (0xFFFF#48).toNat = true ∧ (xltHit mapped 5 1 0x3000 = false ∧ translate mapped 1 0x3000 false = .ok 0x3000) ∧
    (xltHit mapped 5 2 0x3000 = false ∧ translate mapped 2 0x3000 false = .err stTranslationFault ∧ (Machine.core mapped 5).task = none) ∧
    (let w : CoreTask := { slot := 3, strand := 2 }
     let s : State := { mapped with cores := [(5, { task := some w })] }
     xltHit s 5 2 0x3000 = false ∧ translate s 2 0x3000 false = .err stTranslationFault ∧ (Machine.core s 5).task = some w ∧
       w.strand = (2 : StrandId).val) := by decide +kernel
/-- 60 s after the last training, and one ns before; 10 degrees above, and 9. -/
theorem witness_Retraining_crc : ∀ n ∈ [15, 16],
    (let s : State := { up 1000000 with mifs := [(7, { crcTimes := [(47, List.replicate n 0)] })] }
     ((tget [] (stack s 7).crcTimes 47).filter (fun t => decide (now s ≤ t + 1000000))).length = n) := by decide +kernel
theorem witness_Retraining : objNat (withObj 0x600308 0) 0x600308 ≠ 1 ∧ objNat s0 0x600308 = 1 ∧
    now (up (60 * 10 ^ 9 - 1)) < tget 0 (stack s0 7).lastTrained 47 + objNat s0 0x301004 * 10 ^ 9 ∧
    tget 0 (stack s0 7).lastTrained 47 + objNat s0 0x301004 * 10 ^ 9 ≤ now (up (60 * 10 ^ 9)) ∧
    (let s : State := { up 0 with mifs := [(7, { trainedTemp := [(47, 40)] })] }
     tget 0 (stack s 7).trainedTemp 47 + 10 ≤ 50 ∧ (49 < tget 0 (stack s 7).trainedTemp 47 + 10 ∧ tget 0 (stack s 7).trainedTemp 47 < 49 + 10)) ∧
    (stack s0 7).retraining = none ∧
    (let s : State := { up 0 with mifs := [(7, { retraining := some 3, queued := [9] })] }
     (stack s 7).retraining = some 3 ∧ 3 ≠ (47 : Channel).val ∧ (stack s 7).queued.contains (47 : Channel).val = false ∧ (stack s 7).queued = 9 :: []) ∧
    (stack { up 0 with mifs := [(7, { retraining := some 3 })] } 7).queued = [] := by decide +kernel
theorem witness_TierEvents :
    (objNat (withObj 0x600108 0) 0x600108 ≠ 1 ∧ isNear 0x9000000000 = false ∧
      (stack { up 0 with mifs := [(0, { poison := [0] })] } (stackOf 0)).poison.contains (lineOf 0) = true) ∧
    (objNat (up 0) 0x600108 = 1 ∧ isNear 0x8FFFFFFFFF = true ∧ (stack (up 0) (stackOf 0x8FFFFFFFFF)).poison.contains (lineOf 0x8FFFFFFFFF) = false ∧
      stackFailed (up 0) (stackOf 0x8FFFFFFFFF) = false ∧ (stack (up 0) (stackOf 0x8FFFFFFFFF)).poison.length < 65536) ∧
    (let g : Tag := { task := 3, dpa := 0x4FFFFFFFFFF }
     let s := withCore { tags := [(255, g)] }
     tfind (Machine.core s 5).tags (255 : TagId).val = some g ∧ behind 3 g = true ∧ (255, g) ∈ (Machine.core s 5).tags ∧
       (let lim := objNat s 0x302001 * 1000
        0 < lim ∧ now (up (lim - 1)) < g.since + lim ∧ g.since + lim ≤ now (up lim))) ∧
    tfind (Machine.core s0 5).tags (255 : TagId).val = none ∧ isNear 0 = true ∧
    (let s : State := { up 0 with hst := { memActive := true }, cache := { resident := [0] } }
     s.hst.memActive = true ∧ s.cache.resident.contains (lineOf 0) = true ∧ s.cache.poisoned.contains (lineOf 0) = false ∧
       [1#8].length ≤ 512 - 511 % 512 ∧ MemoryCanonical s ∧ stackFailed s (stackOf 0) = false) ∧ s0.hst.memActive = false := by
  unfold MemoryCanonical; decide +kernel
theorem witness_ChainMessages :
    (let m : ChainSend := ⟨0, 99, 0, .done 3, 0⟩
     let s : State := { up (objNat s0 0x401002) with net := { chain := [m] } }
     s.net.chain = m :: s.net.chain.tail ∧ (m.src = (0 : DieId) ∧ m.dst = (99 : DieId) ∧ m.seq = (0 : Fin 1024)) ∧
       m.sentAt + objNat s 0x401002 ≤ now s ∧ now (up 0) < m.sentAt + objNat (up 0) 0x401002 ∧
       s.net.chain.tail.all (fun x => !(x.src == 0 && x.dst == 99 && x.seq == 0)) = true) ∧
    ((0#6).toNat = 0 ∧ 0x0D ≤ (13#6).toNat) ∧ chainRepeat s0 7 { src := 99, seq := 1023 } = true ∧ NewMessage s0 7 (fr 99) ∧ NewMessage s0 mgtDie (fr 7) ∧
    (let e : Event := { code := 0x202, severity := 1, die := 7 }
     eventInFlight (tookMessage { s0 with net := { chain := [⟨7, 99, 0, .event e, 0⟩] } } mgtDie (fr 7)) (fr 7) = some e) ∧
    (eventInFlight (tookMessage s0 mgtDie (fr 7)) (fr 7) = none ∧ 0xFFFE#16 ≠ 0xFFFF#16) := by decide +kernel

/-! Witnesses: strands, host writes, background work and saturation. -/

/-- Strand 262143 is VALID in the table at 0, and not live. -/
def tabled : State := { up 0 with mem := [(0x3FFFF00, 1#8)] }
theorem witness_StrandControl : ({ up 0 with hst := { strandResult := 1 } } : State).hst.strandResult = 1 ∧
    ((up 0).hst.strandResult ≠ 1 ∧ strandLive (up 0) 262143 = false) ∧ stageDone s0 3 = false ∧
    (stageDone (up 0) 3 = true ∧ bit (rd64 (up 0) (strandEntry (up 0) 262143 0)) 0 = false) ∧
    (stageDone tabled 3 = true ∧ bit (rd64 tabled (strandEntry tabled 262143 0)) 0 = true ∧ strandLive tabled 262143 = false ∧
      tabled.hst.lru.length < 16384) ∧ (strandLive mapped 1 = true ∧ MemoryCanonical mapped ∧ (lifeline mapped 1).role = 0 ∧ hstHolds mapped 1 = false) ∧
    strandBusy mapped 1 = false ∧ hstHolds { mapped with hst := { mapped.hst with lru := [1] } } 1 = true ∧
    (let s : State := { mapped with hst := { mapped.hst with slots := [(3, { busy := true, strand := 1 })] } }
     (slotOf s 3).busy = true ∧ (slotOf s 3).ending = false ∧ (slotOf s 3).written = false ∧ (slotOf s 3).strand = (1 : StrandId).val) := by
  unfold MemoryCanonical; decide +kernel
theorem witness_StrandControl_lists : (∀ d : Nat, (tget [] tabled.lnkCache d).length < 32768) ∧
    (∀ q, (fetched mapped q).all (fun d => tStrand d.words != (1 : StrandId).val) = true) := ⟨fun _ => by simp [tabled, up, s0, tget], fun _ => rfl⟩
/-- Aperture 15 aims at window 63 of core 5; a write up to byte 510, and one that covers byte 511. -/
theorem witness_AperturesAndConfig :
    (let w := 5 + 63 * 2 ^ 6
     let s := setReg (up 0) (apOff 15) w
     let off : State := { s with pkg := { enabled := 1 } }
     reg off (apOff 15) = w ∧ coreActive off (bits w 5 0) = false ∧ 510 + 1 ≠ 512 ∧ coreActive s (bits w 5 0) = true ∧
       narrowCause s (bits w 5 0) (bits w 11 6) (bits w 31 12) 510 1 .host ≠ 0 ∧
       (let t := setReg s (windowOff 5 63 0) (1 + 3 * 2 ^ 8 + 2 ^ 44)
        reg t (apOff 15) = w ∧ narrowCause t (bits w 5 0) (bits w 11 6) (bits w 31 12) 510 1 .host = 0)) ∧
    s0.power.perstHeld = true ∧ ((up (10 ^ 8 - 1)).power.perstHeld = false ∧ now (up (10 ^ 8 - 1)) < (up 0).power.perstAt + 10 ^ 8) ∧
    (let s : State := { up (10 ^ 8) with power := { stage := 1, perstHeld := false } }
     s.power.perstHeld = false ∧ s.power.perstAt + 10 ^ 8 ≤ now s ∧ stageDone s 2 = false) ∧
    (stageDone (up (10 ^ 8)) 2 = true ∧ (up 0).power.perstAt + 10 ^ 8 ≤ now (up (10 ^ 8))) := by decide +kernel
/-- Every kind of register lies at an offset of 26 bits, the last instance of each. -/
theorem witness_RegisterWrites : NewPacket s0 (ownerDie (0x3FFFFF8#26).toNat) (pk 98) ∧ ¬ NewPacket { s0 with net := { bulkRx := [(98 * 128 + 99, [0])] } } 99 (pk 98) ∧
    (∀ o ∈ [coreOff 63 CORE_PACE_CLEAR, coreOff 63 SPM_OP0, coreOff 63 SPM_PWR_CTL, coreOff 63 SPM_WIN_CTL, regionOff 63 2 63 7, windowOff 63 63 3, markerOff 63 255,
        coreOff 63 FET_STATUS, queOff 2047 6, sqOff 4095 3, cqOff 4095 2, hstOff HST_CANCEL, hstOff HST_CLEAR, apOff 15, 0x100000 + MGT_DICT_GO, strandOff HST_STRAND_CTL,
        portOff 15 LNK_PORT_CLEAR, lnkOff 7 LNK_DIE_CLEAR, mergeOff 7 7 3, mifOff 7 MIF_CLEAR, farOff 3 FAR_CLEAR, 0x3C00000 + MGT_REFTIME_LOAD, rtrOff 99 MGT_RTR_CLEAR,
        llOff MGT_LL_CTL, pwrOff MGT_PWR_CLEAR, secOff SEC_CTL, 0xFFF8], (BitVec.ofNat 26 o).toNat / 8 * 8 = o) ∧
    bits (1 * 2 ^ 6) 7 6 = 1 ∧ bits (2 * 2 ^ 8) 9 8 = 2 ∧ bits (4 * 2 ^ 18) 20 18 = 4 := by decide +kernel

/-- The last ns of a period, and the next period's first. -/
theorem witness_BackgroundAccounts : (now (up 99999) < (up 0).bg.lastPeriod + 100000 ∧ (up 0).bg.lastPeriod + 100000 ≤ now (up 100000)) ∧
    bgRuns (up 0) 1 = true ∧ bgRuns (withObj 0x600108 0) 1 = false ∧ (1 ≤ 7 ∧ 383 < bgInstances 1) ∧
    (bgRuns (up 0) 5 = true ∧ bgRuns (withObj 0x600508 0) 5 = false) ∧ (bgRuns (up 0) 6 = true ∧ bgRuns (withObj 0x600608 0) 6 = false) ∧
    (bgRuns (withPort { state := 3 }) 4 = true ∧ (port (withPort { state := 3 }) 2).state = 3 ∧ (port (up 0) 2).state ≠ 3) := by decide +kernel
/-- A sub-period in which code 9 is at its threshold, and one below it; FIRST held ten windows. -/
theorem witness_SaturationWindow :
    (let l : Nat → List Measure := fun v => List.replicate 8 ⟨0, 0⟩ ++ [⟨v, 0⟩, ⟨0, 0⟩]
     (l 25).length = 10 ∧ (now (up 99999) < (up 99999).sat.since + 100000 ∧ (up 100000).sat.since + 100000 ≤ now (up 100000)) ∧
     (let s : State := { up 0 with sat := { subperiods := [l 24] } }
      s.sat.subperiods.all (fun x => (satCodes s x).isEmpty) = true) ∧
     (let s : State := { up 0 with sat := { subperiods := [l 24, l 25], first := 9, held := 9 } }
      s.sat.subperiods = [l 24] ++ l 25 :: [] ∧ [l 24].all (fun x => (satCodes s x).isEmpty) = true ∧ satCodes s (l 25) = [9] ∧
      9 ≤ s.sat.held ∧ s.sat.lastEvent = none ∧ 9 ≠ s.sat.reported ∧ 9 = s.sat.first ∧ (∀ c ∈ List.range' 1 11, 0 < satThreshold s c))) := by
  decide +kernel

/-! Witnesses: the dictionary, epochs and the segment. -/

theorem witness_ReplyHeader :
    let r : DictReq := ⟨15, true, 0, 0, 0, 0, 2 ^ 32 - 1, 2 ^ 16 - 1, [], []⟩
    let a : DictAns := { status := 2 ^ 16 - 1, index := 2 ^ 16 - 1, sub := 255, type := 255, data := [1] }
    r.op < 16 ∧ a.type < 256 ∧ a.index < 2 ^ 16 ∧ a.sub < 256 ∧ a.data.length < 2 ^ 16 ∧ r.off < 2 ^ 32 ∧ r.tag < 2 ^ 16 ∧ a.status < 2 ^ 16 := by
  decide +kernel
/-- Objects of each right: 0x1001:02 RO, 0x1003:01 RW, 0x2011:02 RWS, 0x1020:07 WO, and 0x5020:01, which is large. Values at the range's ends. -/
theorem witness_DictionaryReadsWrites : pathUp s0 .mailbox = false ∧ (∀ p ∈ [DictPath.tdp, .mailbox, .window], pathUp (up 0) p = true) ∧
    1024 < (List.replicate 1025 0#8).length ∧ (List.replicate 1024 0#8).length ≤ 1024 ∧ dictObj 0x100106 = none ∧
    (dictObj 0x100102 = some ⟨0x100102, 2, 1, .ro, 0⟩ ∧ (3#8).toNat ≠ 2 ∧ (2#8).toNat = 2) ∧
    (dictObj 0x100301 = some ⟨0x100301, 3, 2, .rw, 10⟩ ∧ valueFits ⟨0x100301, 3, 2, .rw, 10⟩ [232#8, 3#8] = true ∧ rangeOk 0x100301 (leNat [232#8, 3#8]) = true ∧
      rangeOk 0x100301 (leNat [233#8, 3#8]) = false ∧ valueFits ⟨0x100301, 3, 2, .rw, 10⟩ [232#8] = false) ∧
    (dictObj 0x201102 = some ⟨0x201102, 2, 1, .rws, 30⟩ ∧ rangeOk 0x201102 (leNat [100#8]) = true) ∧
    dictObj 0x102007 = some ⟨0x102007, 1, 1, .wo, 0⟩ ∧ (dictObj 0x502001).map isLarge = some true ∧
    nextKey 0xFFFFFF = none ∧ (nextKey 0x100101 = some 0x100102 ∧ nextKey 0x102006 = some 0x102007) ∧
    ({ key := 0, type := 2, size := 1, access := .rwl, default_ := 0 } : Obj).access = .rwl := by decide +kernel
theorem witness_PaceSharesRefused : pathUp (up 0) .tdp = true ∧ 4#8 ∈ [2#8, 3#8, 4#8] ∧ [101#8].length = 1 ∧ 100 < leNat [101#8] ∧ (2#8).toNat = 2 := by
  decide +kernel
/-- 0x2024:03 is large and RO, 0x5020:01 large and RWS, 0x8030:02 large and WO; offsets at and below the size, a last segment, one in between. -/
theorem witness_DictionarySegments :
    (let o : Obj := ⟨0x502001, 11, 4096, .rws, 0⟩
     let s : State := { up 0 with dict := { partials := [(1, (0x502001, List.replicate 3072 0#8))] } }
     dictObj (0x5020 * 256 + 1) = some o ∧ isLarge o = true ∧ o.size ≤ 4096 ∧ 3072 < o.size ∧ writeDenied s o = 0 ∧ o.key ≠ 0x801001 ∧
       tfind s.dict.partials (pathNo .mailbox) = some (o.key, List.replicate 3072 0#8) ∧ (List.replicate 3072 0#8).length = 3072 ∧
       3072 + (List.replicate 1024 0#8).length = o.size ∧ (3072 ≠ 0) ∧ 0 + 1024 < o.size ∧ tfind (up 0).dict.partials (pathNo .mailbox) = none) ∧
    (let o : Obj := ⟨0x202403, 11, 4096, .ro, 0⟩
     dictObj (0x2024 * 256 + 3) = some o ∧ isLarge o = true ∧ writeDenied (up 0) o ≠ 0 ∧ o.access ≠ .wo ∧ o.key ≠ 0x803001) ∧
    (dictObj (0x2011 * 256 + 2)).map isLarge = some false := by decide +kernel
theorem witness_DictionaryPaths : pathUp s0 .mailbox = false ∧ pathUp (up 0) .mailbox = true ∧ pathUp s0 .window = false ∧ pathUp (up 0) .window = true ∧
    (let op (n : Word) := (dictReq n.toNat 0 [] []).op
     op 0 = 0 ∧ op 5 = 5 ∧ 5 < op 6 ∧ 1024 < (dictReq (1025 * 2 ^ 48) 0 [] []).len ∧ op 3 ∉ [1, 2, 5]) ∧
    (let e : Event := { code := 0x202, severity := 1, die := 7 }
     let s : State := { up 0 with dict := { events := [(0, e)], eventSeq := 1 } }
     1 ≤ (1#32).toNat ∧ (1#32).toNat ≤ s.dict.eventSeq ∧ s.dict.eventSeq < (1#32).toNat + 6144 ∧ thas s.dict.events (((1#32).toNat - 1) % 6144) = true) ∧
    s0.power.stage = 15 ∧ (up 0).power.stage ≠ 15 ∧ ((3 : Fin 16).val ≠ 1 ∧ (3 : Fin 16).val ≠ 2) ∧ (1 : Fin 16).val ≠ 0 := by decide +kernel
/-- Exactly 1 ms ahead arms, one ns less does not; a freeze 100 µs ahead, and one ns before that; an activation at its time. -/
theorem witness_ConfigurationEpochs :
    (let s : State := { up 0 with dict := { values := [(0x102002, [1#8])] } }
     s.dict.armState ≠ 2 ∧ objNat s 0x102002 = s.dict.epoch + 1 ∧ now s + 1000000 ≤ (1000000 : Word).toNat ∧ (999999 : Word).toNat < now s + 1000000) ∧
    ({ up 0 with dict := { armState := 2 } } : State).dict.armState = 2 ∧ objNat (up 0) 0x102002 ≠ (up 0).dict.epoch + 1 ∧
    (let s (a t : Nat) (st : Tab (List Byte)) : State := { up t with dict := { armState := a, values := [(0x102003, leBytes 8 1000000)], staged := st } }
     let f (s : State) : State := { s with dict := { s.dict with frozen := s.dict.staged, staged := [] } }
     ¬(1 = 1 ∧ objNat (s 1 899999 []) 0x102003 ≤ now (s 1 899999 []) + 100000) ∧ objNat (s 1 900000 []) 0x102003 ≤ now (s 1 900000 []) + 100000 ∧
     epochFails (f (s 1 900000 [])) = [] ∧ epochFails (f (s 1 900000 [(0x600102, [0#8])])) ≠ [] ∧
     (objNat (s 2 1000000 []) 0x102003 ≤ now (s 2 1000000 []) ∧ (s 2 1000000 []).dict.armState = 2) ∧ ¬ objNat (s 2 999999 []) 0x102003 ≤ now (s 2 999999 [])) := by
  decide +kernel
/-- A divergent device and one that is not; epochs that differ for 10 ms, and one ns longer; offsets of 1,000 and 1,001 ns. -/
theorem witness_Segment : s0.power.stage = 15 ∧ (up 0).power.stage ≠ 15 ∧ objNat (up 0) 0x104001 = 1 ∧ objNat (withObj 0x104001 0) 0x104001 ≠ 1 ∧
    (0#32).toNat = (up 0).dict.epoch ∧ (1#32).toNat ≠ (up 0).dict.epoch ∧ (up 0).dict.divergent.contains (4095#12).toNat = false ∧
    ({ up 0 with dict := { divergent := [4095] } } : State).dict.divergent.contains (4095#12).toNat = true ∧ tfind (up 0).dict.peerSince 4095 = none ∧
    ((up 7).clock.locked = false ∧ now (up 7) ≤ (7 : Word).toNat) ∧
    (let s : State := { up 0 with clock := { reftime := 5000, locked := true } }
     s.clock.locked = true ∧ 1000 < (((6001 : Word).toNat : Int) - now s).natAbs ∧ (((6000 : Word).toNat : Int) - now s).natAbs ≤ 1000) ∧
    (let s (t : Nat) : State := { up t with dict := { peerSince := [(4095, 0)] } }
     tfind (s 0).dict.peerSince (4095#12).toNat = some 0 ∧ (s 0).dict.divergent.contains (4095#12).toNat = false ∧
     now (s 10000000) - 0 ≤ objNat (s 0) 0x501005 * 1000000 ∧ objNat (s 0) 0x501005 * 1000000 < now (s 10000001) - 0) := by decide +kernel
theorem witness_Segment_digest : (∃ d : List Byte, d.length = 48 ∧ d ≠ configDigest (up 0)) ∧ ∃ d, d = configDigest (up 0) := by
  refine ⟨?_, _, rfl⟩
  by_cases h : List.replicate 48 0#8 = configDigest (up 0)
  · exact ⟨List.replicate 48 1#8, by decide, by rw [← h]; decide⟩
  · exact ⟨_, by decide, h⟩

/-! Witnesses: the root of trust. -/

/-- A whole set, with images at or above the counters of `safe`. -/
def image (k : Fin 8) : ImageCheck := ⟨k, 0, 5, 0, [], true, true, true, true⟩
def whole : List ImageCheck := [image 1, image 2, image 3, image 4, image 5, image 6, image 7]
/-- Counter 0 at 5, the images' own number. -/
def safe : State := { up 0 with sec := { counters := [(0, 5)] } }
/-- The last byte of the bank, and one beyond; a set that is whole, and one that is not. -/
theorem witness_FirmwareUpdate : ({ up 0 with power := { sag := true } } : State).power.sag = true ∧ ((up 0).power.sag = false ∧ (up 0).sec.burning = false) ∧
    ({ up 0 with sec := { burning := true } } : State).sec.burning = true ∧ (setStatus safe whole = 0 ∧ setStatus safe [] ≠ 0) ∧
    (33554432 < 33554431 + [1#8, 2#8].length ∧ 33554431 + [1#8].length ≤ 33554432) ∧
    (let s (x : Option (Nat × Nat)) : State := { up 0 with sec := { transfer := x } }
     (s (some (0, 9))).sec.transfer = some (0, 9) ∧ 0 ≠ 1 ∧ (s (some (1, 9))).sec.transfer = some (1, 9) ∧ (s none).sec.transfer = none) ∧
    ((2 : Fin 16).val = 2 ∧ ({ up 0 with sec := { activatable := true } } : State).sec.activatable = true ∧ (up 0).sec.activatable = false ∧
      (3 : Fin 16).val ≠ 1 ∧ (3 : Fin 16).val ≠ 2) := by decide +kernel
/-- The third refusal and before; level 2, the highest, and 3; an unlock at its end, and one ns before; codes 0x1F and 0x20 of the multiplexer. -/
theorem witness_DebugUnlock :
    (let s (r : Nat) : State := { up 0 with sec := { refusals := r, nonce := some [1] } }
     (s 3).sec.refusals = 3 ∧ (s 2).sec.refusals < 3 ∧ (s 0).sec.nonce = some [1] ∧ (2#8).toNat ≤ 2 ∧ ¬ (3#8).toNat ≤ 2) ∧
    (let s (t : Nat) : State := { up t with sec := { unlockLevel := 2, unlockEnd := 10 } }
     now (s 9) < (s 9).sec.unlockEnd ∧ (s 10).sec.unlockEnd ≤ now (s 10) ∧ (s 10).sec.unlockLevel ≠ 0 ∧ 2 ≤ (s 10).sec.unlockLevel) ∧
    (up 0).sec.unlockLevel = 0 ∧ (up 0).sec.unlockLevel < 2 ∧ (∀ k, k < 8 → bits (0x1F : Word).toNat (8 * k + 7) (8 * k) < 0x20) ∧
    (7 < 8 ∧ 0x20 ≤ bits (0x2000000000000000 : Word).toNat (8 * 7 + 7) (8 * 7)) := by decide +kernel
theorem witness_DebugUnlock_serial : ∃ serial : Word, serial.toNat = Config.serial.toNat := ⟨Config.serial, rfl⟩
/-- Three connections, and four; each stage; the last leaf of a key, and none. -/
theorem witness_Attestation :
    (let s (n : Nat) : State := { up 0 with sec := { connections := (List.range n).map (fun i => { requester := i, stage := 3, hash := some [1] }) } }
     (spdmOf (s 4) (4#48).toNat = none ∧ 4 ≤ (s 4).sec.connections.length) ∧ (spdmOf (s 4) (3#48).toNat ≠ none ∧ (s 3).sec.connections.length < 4) ∧
     (spdmOf (s 4) (3#48).toNat = some ⟨3, 3, some [1]⟩ ∧ (s 4).sec.identityLeaf < lmsLeaves ∧ (s 4).sec.aliasLeaf < lmsLeaves)) ∧
    (let s (n : Nat) : State := { up 0 with sec := { connections := [⟨3, n, none⟩] } }
     (spdmOf (s 0) (3#48).toNat = some ⟨3, 0, none⟩ ∧ 0 < 1) ∧ (spdmOf (s 1) (3#48).toNat = some ⟨3, 1, none⟩ ∧ 1 ≤ 1) ∧
     (spdmOf (s 2) (3#48).toNat = some ⟨3, 2, none⟩ ∧ 2 ≤ 2 ∧ 2 < 3)) ∧
    ((11#8).toNat ≤ 11 ∧ ¬ (12#8).toNat ≤ 11) ∧
    (let s (a i : Nat) : State := { up 0 with sec := { aliasLeaf := a, identityLeaf := i, connections := [⟨3, 3, none⟩] } }
     (s 31743 0).sec.aliasLeaf + 1024 < lmsLeaves ∧ (lmsLeaves ≤ (s 31744 0).sec.aliasLeaf + 1024 ∧ (s 31744 32766).sec.identityLeaf + 1 < lmsLeaves) ∧
     lmsLeaves ≤ (s 0 32768).sec.identityLeaf ∧ (s 0 32768).sec.exhaustedRaised = false) := by decide +kernel
theorem witness_Attestation_certificate : ∃ off : BitVec 16, off.toNat ≤ Config.certLength := ⟨0, by simp⟩

/-! Witnesses: power. -/

/-- A cast-on at a stage, in a power state. -/
def casting (st stage : Nat) : State := { safe with power := { powerState := st, stage := stage, busy := true, started := true, perstHeld := false } }
theorem witness_PowerStates :
    (s0.power.pwrEn = false ∧ (let s : State := { s0 with power := { pwrEn := true } }
      s.power.pwrEn = true ∧ s.power.started = false)) ∧
    ((up 0).power.busy = false ∧ (casting 1 15).power.busy = true ∧ (casting 1 15).power.started = true ∧ (casting 1 15).power.stage = 15 ∧ (casting 1 15).power.powerState = 1) ∧
    (let banks : List (List ImageCheck) := [whole, []]
     (casting 1 0).power.stage = 0 ∧ setStatus (casting 1 0) (banks.getD (casting 1 0).sec.activeBank []) = 0 ∧
     (let s : State := { casting 1 0 with sec := { (casting 1 0).sec with activeBank := 1 } }
      setStatus s (banks.getD s.sec.activeBank []) ≠ 0 ∧ setStatus s (banks.getD (1 - s.sec.activeBank) []) = 0) ∧
     setStatus (casting 1 0) (([] : List (List ImageCheck)).getD (casting 1 0).sec.activeBank []) ≠ 0 ∧
     setStatus (casting 1 0) (([] : List (List ImageCheck)).getD (1 - (casting 1 0).sec.activeBank) []) ≠ 0) ∧
    ((casting 1 4).power.stage ∈ [1, 2, 3, 4] ∧ (casting 1 4).power.powerState ≠ 2) ∧ ((casting 2 1).power.stage = 1 ∧ (casting 2 1).power.powerState = 2) ∧
    (casting 2 2).power.stage = 2 ∧
    ((casting 2 3).power.stage = 3 ∧ activeMask (casting 2 3) &&& (2 ^ 64 - 1 - (18446744073709551615 : Word).toNat) = 0 ∧
      activeMask (casting 2 3) &&& (2 ^ 64 - 1 - (18446744073709551614 : Word).toNat) ≠ 0) ∧
    ((casting 2 4).power.stage = 4 ∧ portsSettled (casting 2 4) = true ∧ portsSettled { casting 2 4 with ports := [(15, { state := 1 })] } = false) ∧
    ((up 0).power.powerState = 2 ∧ ({ up 0 with power := { powerState := 3 } } : State).power.powerState = 3) ∧
    (let s (c : Nat) : State := { up 0 with power := { powerState := 4, cause := c } }
     ((s 3).power.powerState = 4 ∧ (s 3).power.cause ≠ 1 ∧ 84 < 85 ∧ 59999 < 60000) ∧ (s 1).power.cause = 1 ∧ 85 ≤ 85 ∧ 60000 ≤ 60000) ∧
    (let s : State := { up 0 with power := { powerState := 1, chatter := 1 } }
     s.power.powerState ≠ 3 ∧ bit s.power.chatter 0 = true ∧ bit (up 0).power.chatter 0 = false ∧ (up 0).power.levels < 8) := by decide +kernel
/-- 41,000 mV and 41,001; 62,000 mV and 62,001; 115 and 114 degrees; 44,000 mV and 43,999. -/
theorem witness_BindOff : watching s0 = false ∧ watching (up 0) = true ∧ (41000 < 41001 ∧ 41000 ≤ 41000) ∧ (62000 ≤ 62000 ∧ 62000 < 62001) ∧ (114 < 115 ∧ 115 ≤ 115) ∧
    ((up 0).power.powerState ≠ 3 ∧ (stageDone (up 0) 1 = true ∧ stageDone s0 1 = false)) ∧
    (let s (p c : Nat) : State := { up 0 with power := { powerState := p, cause := c } }
     (s 3 1).power.powerState = 3 ∧ ((s 4 1).power.powerState = 4 ∧ (s 4 1).power.cause = 1 ∧ 44000 ≤ 44000) ∧ ¬((s 4 1).power.powerState = 4 ∧ (s 4 1).power.cause = 1 ∧ 44000 ≤ 43999)) := by
  decide +kernel
/-- Sag at 43,000 mV, and one above; rule 2's times reached; PERST_N, THROTTLE_N and SAG_N chattering, quiet and not. -/
theorem witness_ThrottleAndInputs : (inputsAct (up 0) = true ∧ (up 0).power.stage ≠ 15 ∧ 43000 ≤ 43000 ∧ 43000 < 43001) ∧
    inputsAct { up 0 with power := { powerState := 0 } } = false ∧
    (let s : State := { up 1000000 with power := { overSince := some 0 } }
     s.power.overSince = some 0 ∧ allAtFloor s = true ∧ objNat s 0x202001 < 6001 ∧ 0 + 1000000 ≤ now s) ∧
    (let s : State := { up 10000000 with power := { underSince := some 0 } }
     s.power.underSince = some 0 ∧ 5699 * 100 < objNat s 0x202001 * 95 ∧ s.power.limiting = false ∧ s.power.limitingCurrent = false ∧ 0 + 10000000 ≤ now s) ∧
    ((up 0).power.overSince = none ∧ (up 0).power.underSince = none) ∧
    (let s (p c : Nat) : State := { up 0 with power := { powerState := p, stage := 5, chatter := c } }
     bit (s 2 7).power.chatter 0 = true ∧ (s 3 0).power.powerState = 3 ∧ s0.power.stage = 15 ∧ (bit (s 2 0).power.chatter 2 = false ∧ (s 2 0).power.powerState ≠ 3 ∧ (2 : Fin 3) ≠ 0) ∧
     (bit (s 1 0).power.chatter 0 = false ∧ (s 1 0).power.powerState = 1) ∧ bit (s 2 6).power.chatter 1 = true ∧ bit (s 2 6).power.chatter 2 = true ∧
     bit (0#3).toNat 1 = false ∧ bit (7#3).toNat 1 = true ∧ (s 2 1).power.chatter < 8 ∧ bit (s 2 1).power.levels 0 = true) ∧
    (let s (l k : Nat) : State := { up 0 with power := { stage := 5, levels := l, stuck := k } }
     bit (s 7 0).power.levels 1 = true ∧ bit (s 0 7).power.stuck 1 = true ∧ (bit (s 0 0).power.levels 1 = false ∧ bit (s 0 0).power.stuck 1 = false)) := by decide +kernel
/-! Witnesses: lifelines. -/

/-- Strand 1 with a lifeline, and a control block of bytes at 0x3000. -/
def lined (x : Lifeline) (block : Mem := []) : State :=
  let s := setReg { mapped with mem := mapped.mem ++ block } (llOff MGT_LL_ARG) 0x3000
  { s with lifelines := [(1, x)] }
theorem witness_LifelineControl :
    ({ lined {} with llResult := 1 } : State).llResult = 1 ∧ (lined {}).llResult ≠ 1 ∧ MemoryCanonical (lined {} [(0x3000, 1#8)]) ∧
    (linkOk (up 0) 1 = false ∧ linkOk (lined {}) 1 = true ∧ bits (strandWord (lined {}) 1 0) 4 3 = 1) ∧
    (let s : State := { lined {} with lifelines := (List.range 256).map (fun i => (i + 2, { role := 1 })) }
     (lifeline s 1).role = 0 ∧ 256 ≤ llRoles s ∧ llRoles { s with lifelines := s.lifelines.drop 1 } < 256) ∧
    (llBlock (setReg (lined {}) (llOff MGT_LL_ARG) (2 ^ 40)) 1 8 = none ∧ llBlock (setReg (lined {}) (llOff MGT_LL_ARG) (2 ^ 40)) 1 2 = none ∧
      llBlock (setReg (lined {}) (llOff MGT_LL_ARG) (2 ^ 40)) 1 4 = none) ∧
    (llBlock (lined {}) 1 8 = some (List.replicate 8 0) ∧ bits (word (List.replicate 8 0) 0) 15 0 = 0) ∧
    (llBlock (lined {} [(0x3000, 1#8)]) 1 8 = some (1 :: List.replicate 7 0) ∧ bits (word (1 :: List.replicate 7 0) 0) 15 0 = 1) ∧
    llBlock (lined {}) 1 2 = some [0, 0] ∧ ((lifeline (lined { securing := true }) 1).securing = true ∧ (lifeline (lined {}) 1).securing = false) ∧
    (strandLive (lined {}) 1 = true ∧ (lifeline (lined {}) 1).role ≠ 1 ∧ (lifeline (lined { role := 1 }) 1).role = 1) ∧
    (let x (samples base : Nat) : Lifeline := { role := 1, setup := [0, 0, 0, 0, 0, samples, 0, base] }
     let w := [4, 1, 0, 0]
     llBlock (lined (x 2 0) [(0x3000, 4#8), (0x3008, 1#8)]) 1 4 = some w ∧ word w 0 < suDataBase (x 2 5) ∧ suSamples (x 0 0) = 0 ∧
     (word w 0 - suDataBase (x 3 0)) % suSamples (x 3 0) ≠ 0 ∧
     (suDataBase (x 2 4) ≤ word w 0 ∧ suSamples (x 2 4) ≠ 0 ∧ (word w 0 - suDataBase (x 2 4)) % suSamples (x 2 4) = 0) ∧
     (let step : Nat := (suStepBase (x 2 0) + (word w 0 - suDataBase (x 2 0)) / suSamples (x 2 0)) % 2 ^ 64
      ((step : Int) - 1 ≡ word w 1 [ZMOD 2 ^ 64]) ∧ ¬ ((step : Int) - 1 ≡ word [4, 2, 0, 0] 1 [ZMOD 2 ^ 64]))) := by
  unfold MemoryCanonical; decide +kernel
/-- A slot of exactly the size asked for, and one byte less; the own feed and another. -/
theorem witness_LifelinePairing : MemoryCanonical (lined { role := 2, slotBytes := 9 }) ∧ (lifeline (lined {}) 1).role ≠ 2 ∧
    ((lifeline (lined { role := 2, slotBytes := 9 }) 1).role = 2 ∧ (lifeline (lined { role := 2, slotBytes := 9 }) 1).slotBytes < (10#40).toNat ∧
      (9#40).toNat ≤ (lifeline (lined { role := 2, slotBytes := 9 }) 1).slotBytes) ∧
    ((lifeline (lined { role := 1, state := 1 }) 1).role = 1 ∧ (lifeline (lined { role := 1, state := 1 }) 1).state = 1) ∧ (1#2 ≠ 0) ∧
    ((0#4).toNat = (lined {}).power.feedId % 16 ∧ (1#4).toNat ≠ (lined {}).power.feedId % 16) ∧ objNat (lined {}) 0x700102 = 0 ∧ objNat (withObj 0x700102 1) 0x700102 ≠ 0 ∧
    ((lifeline (lined { role := 2, state := 2 }) 1).role ≠ 0 ∧ (lifeline (lined { role := 2, state := 2 }) 1).state = 2 ∧ (lifeline (lined {}) 1).state ≠ 2) ∧
    ((lifeline (lined { role := 1, state := 2, securing := true, disarming := true }) 1).securing = true ∧
      (lifeline (lined { role := 1, state := 2, securing := true, disarming := true }) 1).disarming = true ∧
      (lifeline (lined { role := 1, state := 2, securing := true }) 1).disarming = false) := by unfold MemoryCanonical; decide +kernel
/-- A payload that is one byte short of what ARM_REQ asked for, one that meets it, and one beyond it. -/
theorem witness_LifelineSecuring :
    (let x : Lifeline := { role := 2, hmark := some (7, 0, 0, false), needBytes := 513 }
     let s := lined x
     (lifeline s 1).role = 2 ∧ (lifeline s 1).hmark = some (7, 0, 0, false) ∧ 512 + (x.received + ([] : List Byte).length) < x.needBytes ∧
       x.needBytes = 512 + (x.received + [1#8].length) ∧ x.needBytes < 512 + (x.received + [1#8, 2#8].length) ∧
       (lifeline (lined { x with failed := true }) 1).failed = true) ∧ ((lifeline (lined {}) 1).role ≠ 2 ∧ (lifeline (lined {}) 1).hmark = none ∧ (lifeline (lined {}) 1).mark = none) ∧
    (let s (a d : Bool) := lined { role := 1, state := 2, securing := true, mark := some (7, 3, 9, a), disarming := d }
     (lifeline (s true false) 1).mark = some (7, 3, 9, true) ∧ (lifeline (s true false) 1).role = 1 ∧ 7 = (7 : Word).toNat ∧ 7 ≠ (8 : Word).toNat ∧
       (lifeline (s true true) 1).disarming = true ∧ (lifeline (s false false) 1).mark = some (7, 3, 9, false)) := by decide +kernel
/-- The number of the MARK message, and one half of the 16-bit space behind it. -/
theorem witness_AcknowledgedAndNack : (port (up 0) 2).sent = [] ∧
    (let m : SentMsg := { strand := 1, bytes := 8 }
     let s (m : SentMsg) (x : Lifeline) : State := { lined x with ports := [(2, { sent := [m] })] }
     (port (s m {}) 2).sent = m :: [] ∧ m.doneEn = false ∧ { m with doneEn := true }.doneEn = true ∧ ((lifeline (s m {}) m.strand).role ≠ 1 ∧ m.ll = 0) ∧
     (let x : Lifeline := { role := 1, mark := some (7, 0, 0, false) }
      (lifeline (s m x) m.strand).role = 1 ∧ (lifeline (s m x) m.strand).mark ≠ none ∧ x.payloadSent = false ∧ (m.seq + 65536 - x.markSeq) % 65536 < 32768 ∧
        32768 ≤ (32768 + 65536 - x.markSeq) % 65536 ∧ { m with ll := 2 }.ll = 2 ∧ { x with payloadSent := true }.payloadSent = true)) ∧
    ((1#12).toNat ≠ ownDev (up 0) ∧ (0#12).toNat = ownDev (up 0)) ∧ (up 0).posted.find? (fun q => q.1 == 1 && q.2.1 == 9) = none ∧
    (let s : State := { withSlot { busy := true } with posted := [(1, 9, 3, 3)] }
     s.posted.find? (fun q => q.1 == 1 && q.2.1 == 9) = some (1, 9, 3, 3) ∧ (slotOf s 3).busy = true ∧ (slotOf s 3).ending = false ∧ (slotOf s 3).written = false) ∧
    (1 ≤ (6#3).toNat ∧ (6#3).toNat ≤ 6 ∧ ¬ (7#3).toNat ≤ 6) := by decide +kernel

/-! Witnesses: tasks. -/

theorem witness_TaskMessagesAtCores : NewMessage (up 0) (coreDie 5) (fr 98) ∧
    (coreActive { up 0 with pkg := { enabled := 1 } } 5 = false ∧ (Machine.core (withCore { halted := true }) 5).halted = true ∧
      (Machine.core (withCore { task := some { slot := 3 } }) 5).task ≠ none ∧ (Machine.core (withCore { draining := some 3 }) 5).draining ≠ none) ∧
    (coreActive (up 0) 5 = true ∧ (Machine.core (up 0) 5).halted = false ∧ (Machine.core (up 0) 5).task = none ∧ (Machine.core (up 0) 5).draining = none) ∧
    (let w (p : Nat) : CoreTask := { slot := 3, phase := p, shape := List.range 32 }
     let s (p : Nat) := withCore { task := some (w p) }
     (Machine.core (s 1) 5).task = some (w 1) ∧ (w 1).phase = 1 ∧ (w 1).shape.length ≤ 32 ∧ (w 2).phase ≠ 1 ∧ (w 1).shape[31]? = some 31 ∧
       (w 2).slot = (3 : SlotId).val ∧ (w 2).slot ≠ (4 : SlotId).val ∧ (w 5).phase = 5 ∧ ((w 4).phase ≠ 2 ∧ (w 4).phase ≠ 5) ∧
       (readBand (s 1) 5 (w 1)).2.1 = stSuccess ∧ stillRuns (s 4) 5 4 = false ∧ stillRuns (s 4) 5 3 = true ∧ (Machine.core (s 4) 5).tags = [] ∧
       (w 4).span = (0#32).toNat ∧ (w 4).span ≠ (1#32).toNat ∧ 4 ≤ (w 4).phase ∧ (w 3).phase < 4) ∧
    (Machine.core (withCore { task := some { slot := 3 }, tags := [(0, { task := 3 })] }) 5).tags ≠ [] ∧
    (let s := withCore { draining := some 3 }
     stillRuns s 5 3 = false ∧ (Machine.core s 5).draining = some (3 : SlotId).val ∧ (Machine.core s 5).draining ≠ some (4 : SlotId).val) ∧
    ((getRange mapped 1 0x3000 1600).2 = stSuccess ∧ (getRange mapped 2 0x3000 1600).2 ≠ stSuccess) ∧
    (let w : CoreTask := { slot := 3, strand := 2, table := List.replicate 16 0 ++ [1] }
     checkOutcome (withCore { task := some { slot := 3 } }) 5 { slot := 3 } ≠ none ∧ (readBand mapped 5 w).2.1 ≠ stSuccess) ∧
    ((Machine.core (up 0) 5).waits = [] ∧ markerReached (marker (up 0) 5 255) (0#32).toNat = true ∧ markerReached (marker (up 0) 5 255) (1#32).toNat = false) := by
  decide +kernel
/-- A table of one level, whose control word says REDUCE. -/
def reducing : List Nat := 2 ^ 8 :: List.replicate 23 0 ++ [2 ^ 37]
/-- The last core of a mask of two, and the first; the third detection of a span and the fourth; the last span and one before. -/
theorem witness_TaskReports :
    (let x : Slot := { busy := true, mask := 3, passed := 2, spanDone := 2 }
     let s (x : Slot) := withSlot x
     NewMessage (s x) hstDie (fr 0) ∧ dieCore (fr 0).src = some 0 ∧ (slotOf (s x) 3).busy = true ∧ bit (slotOf (s x) 3).mask 0 = true ∧
     (x.ending = false ∧ x.started = false ∧ x.refusal = none ∧ allIn x.mask (x.passed ||| 2 ^ 0) = true ∧ x.counter = none ∧ waitOf x = none) ∧
     allIn x.mask ({ x with passed := 0 }.passed ||| 2 ^ 0) = false ∧
     ((5 : Fin 32).val < 6 ∧ 5 ≤ (5 : Fin 32).val) ∧ x.written = false ∧ x.span % 2 ^ 29 = (0#29).toNat ∧ x.span % 2 ^ 29 ≠ (1#29).toNat ∧
     allIn x.mask ({ x with spanDone := 0 }.spanDone ||| 2 ^ 0) = false ∧ (∀ p ∈ (withQueue {}).queues, p.2.held = none) ∧
     ({ x with detections := 2 }.detections < 3 ∧ 3 ≤ { x with detections := 3 }.detections ∧ x.opcode ≠ 1 ∧ { x with opcode := 1 }.opcode = 1 ∧
       hasGroup x.table = false ∧ hasGroup reducing = true) ∧ { x with ending := true }.ending = true) ∧
    ((slotOf (withSlot { busy := true, waiting := true }) 3).waiting = true ∧ (slotOf (up 0) 3).busy = false) ∧
    (let x : Slot := { busy := true, started := true, opcode := 1, mask := 1, spanDone := 1, table := reducing, spans := 2 }
     spanReady (withSlot x) 3 = true ∧ x.opcode = 1 ∧ hasGroup x.table = true ∧ x.span + 1 < x.spans ∧ x.spans ≤ { x with span := 1 }.span + 1 ∧ spanReady (up 0) 3 = false) := by
  decide +kernel
/-- Core 0 has no part in a task of core 1 alone. -/
theorem witness_TaskReports_stranger : dieCore (fr 0).src = some 0 ∧ bit (slotOf (withSlot { busy := true, mask := 2 }) 3).mask 0 = false := by decide +kernel
/-- SQ 4095 with 16 entries: TAIL 15 is taken, 16 is not; the same of CQ 4095; the aggregation time of 100 ns and one ns less. -/
theorem witness_QueuePairs :
    (let s := setReg (setReg (up 0) (sqOff 4095 0) (1 + 4 * 2 ^ 15)) (cqOff 4095 0) (1 + 4 * 2)
     (bit (reg s (sqOff 4095 0)) 0 = true ∧ (15 : Word).toNat % 2 ^ 16 < 2 ^ bits (reg s (sqOff 4095 0)) 19 15 ∧ (4095 : HostQueue).val ∉ s.hst.closing) ∧
     ¬ (16 : Word).toNat % 2 ^ 16 < 2 ^ bits (reg s (sqOff 4095 0)) 19 15 ∧
     (bit (reg s (cqOff 4095 0)) 0 = true ∧ (15 : Word).toNat % 2 ^ 16 < cqSize s 4095) ∧ ¬ (16 : Word).toNat % 2 ^ 16 < cqSize s 4095 ∧ cqHead s 4095 < cqSize s 4095) ∧
    NewMessage (up 0) hstDie (fr 0) ∧ bit (9 : Word).toNat 0 = true ∧ bit (8 : Word).toNat 0 = false ∧ bit (reg (up 0) (cqOff 4095 0)) 0 = false ∧
    (1 ≤ bits (33 : Word).toNat 5 1 ∧ bits (33 : Word).toNat 5 1 ≤ 16 ∧ ¬ bits (35 : Word).toNat 5 1 ≤ 16 ∧ ¬ 1 ≤ bits (1 : Word).toNat 5 1) ∧
    (let v : Word := 1 + 4095 * 2 ^ 3 + 16 * 2 ^ 15
     let s := setReg (up 0) (cqOff 4095 0) 9
     (1 ≤ bits v.toNat 19 15 ∧ bits v.toNat 19 15 ≤ 16) ∧ bit (reg s (cqOff (bits v.toNat 14 3) 0)) 0 = true ∧ bits (reg s (sqOff 4095 2)) 17 0 ≤ bits (reg s (sqOff 4095 2)) 35 18) ∧
    (let s : State := { up 0 with hst := { fetched := [(4095, [{ words := [] }])] } }
     fetched s 4095 ≠ [] ∧ ∀ c ∈ s.hst.cancels, c.1 ≠ (4095 : HostQueue).val) ∧
    (let s (t : Nat) (w : Nat) : State := setReg { up t with hst := { unsignalled := [(4095, (2, 0))] } } (cqOff 4095 0) (w * 2 ^ 17 + 2 ^ 26)
     let lim := bits (reg (s 0 0) (cqOff 4095 0)) 41 26 * 100
     tfind (up 0).hst.unsignalled (4095 : HostQueue).val = none ∧ tfind (s 0 0).hst.unsignalled (4095 : HostQueue).val = some (2, 0) ∧ now (s 99 0) < 0 + lim ∧
       lim ≠ 0 ∧ 0 + lim ≤ now (s 100 0) ∧ bit (reg (s 0 1) (cqOff 4095 0)) 17 = true ∧ bit (reg (s 0 0) (cqOff 4095 0)) 17 = false ∧
       bits (reg (up 0) (cqOff 4095 0)) 41 26 * 100 = 0 ∧ bit (reg (s 0 1) (msixOff 0 1)) 32 = true ∧ bit (reg (setReg (s 0 1) (msixOff 0 1) 0) (msixOff 0 1)) 32 = false) := by
  decide +kernel
theorem witness_QueuePairs_disable :
    (let s := setReg (setReg (up 0) (cqOff 1 0) 1) (sqOff 0 0) (1 + 2 ^ 3)
     bit (reg s (cqOff 1 0)) 0 = true ∧ ∃ k, k < 4096 ∧ bit (reg s (sqOff k 0)) 0 = true ∧ sqCq s k = (1 : HostQueue)) ∧
    ¬ (bit (reg (up 0) (cqOff 1 0)) 0 = true ∧ ∃ k, k < 4096 ∧ bit (reg (up 0) (sqOff k 0)) 0 = true ∧ sqCq (up 0) k = (1 : HostQueue)) :=
  ⟨⟨by decide +kernel, 0, by decide, by decide +kernel, by decide +kernel⟩, fun h => absurd h.1 (by decide +kernel)⟩

/-- A descriptor of strand 1 for an opcode, with the cores of a mask. -/
def descr (op : Nat) (cores : Nat := 0) (arg0 arg1 : Nat := 0) : List Nat := [op + 2 ^ 32, cores, 0, arg0, arg1]
/-- SQ 7 with 16 entries, TAIL 1, strands 0 to 1 allowed, strand 1 live and held by the HST die, and descriptors fetched. -/
def queued (l : List (List Nat)) : State :=
  let s := setReg (setReg (setReg mapped (sqOff 7 0) (1 + 4 * 2 ^ 15)) (sqOff 7 2) (2 ^ 18)) (sqOff 7 3) (2 ^ 16)
  { s with hst := { s.hst with lru := [1], fetched := if l.isEmpty then [] else [(7, l.map (fun w => { words := w }))] } }
theorem witness_FetchAndCancel :
    (let s := queued []
     stageDone s 4 = true ∧ bit (reg s (sqOff 7 0)) 0 = true ∧ (7 : HostQueue).val ∉ s.hst.closing ∧ (∀ c ∈ s.hst.cancels, c.1 ≠ (7 : HostQueue).val) ∧
       verdict s 7 (descr 7) = 0 ∧ verdict s 7 (descr 8) ≠ 0 ∧ freeSlot s = some 0) ∧ stageDone s0 4 = false ∧
    2 ≤ bits (2 * 2 ^ 28 : Word).toNat 29 28 ∧ bits (7 : Word).toNat 29 28 = 0 ∧ bits (7 + 2 ^ 28 : Word).toNat 29 28 = 1 ∧
    (let s : State := { queued [] with hst := { slots := [(3, { busy := true, sq := 7, seq := 9, cmdId := 5 })] } }
     3 ∈ busySlots s ∧ (slotOf s 3).sq = 7 ∧ (slotOf s 3).seq = 9 ∧ (slotOf s 3).cmdId = 5 ∧ (slotOf s 3).busy = true ∧ (slotOf s 3).written = false ∧ fetched s 7 = []) ∧
    (let d : Desc := { words := descr 7 }
     d ∈ fetched (queued [descr 7]) 7 ∧ d.seq = 0 ∧ tCmdId d.words = 0 ∧ (fetched (queued [descr 7]) 7).find? (fun d => d.seq == 0) = some d) := by decide +kernel
theorem witness_FetchAndCancel_none : ∀ seq id,
    ¬ ((∃ k ∈ busySlots (queued []), (slotOf (queued []) k).sq = 7 ∧ (slotOf (queued []) k).seq = seq ∧ (slotOf (queued []) k).cmdId = id) ∨
      ∃ d ∈ fetched (queued []) 7, d.seq = seq ∧ tCmdId d.words = id) := by
  have h1 : busySlots (queued []) = [] := by decide +kernel
  have h2 : fetched (queued []) 7 = [] := by decide +kernel
  simp [h1, h2]
theorem witness_Dispatch : frontTask (up 0) 7 1 = none ∧ frontTask (up 0) 7 2 = none ∧
    (let c : List Nat := descr 1 (2 ^ 5) 0x3000
     let s := queued [c]
     frontTask s 7 1 = some { words := c } ∧ coresBad s c = 0 ∧ coresOf (tCores c &&& activeMask s) = [5] ∧ coreTaken s 5 = false ∧
       stepHolds s 1 (tStep c) = false ∧ freeSlot s = some 0) := by decide +kernel
theorem witness_Dispatch_stops :
    (let c : List Nat := descr 1 (2 ^ 5) 0x3000
     let s := queued [c]
     coreTaken { s with cores := [(5, { draining := some 3 })] } 5 = true ∧ stepHolds { s with lifelines := [(1, { role := 1, state := 2 })] } 1 1 = true ∧
       frontTask { s with pkg := { enabled := 1 } } 7 1 = some { words := c } ∧ coresBad { s with pkg := { enabled := 1 } } c ≠ 0) := by decide +kernel
theorem witness_Dispatch_copy : frontTask (queued [descr 2 (2 ^ 5) 0x3000]) 7 2 = some { words := descr 2 (2 ^ 5) 0x3000 } ∧
    coresBad (queued [descr 2 (2 ^ 5) 0x3000]) (descr 2 (2 ^ 5) 0x3000) = 0 := by decide +kernel
/-- Of the tables that a task may name, one whose words are all 0, and one whose claims take a row counter, with none of the 1,024 free. -/
theorem witness_Dispatch_table : (let tab := (readWords mapped 1 0x3000 200).getD []
    tab.length = 200 ∧ claimsMode tab = false ∧ hShapeBase tab = 0 ∧ hScheduleBase tab = 0) ∧ (readShape mapped 1 0).isSome = true := by decide +kernel
theorem tget_range' {α : Type} (d v : α) : ∀ n a k, a ≤ k → k < a + n → tget d ((List.range' a n).map (fun i => (i, v))) k = v
  | 0, a, k, h1, h2 => by omega
  | n + 1, a, k, h1, h2 => by
    rw [List.range'_succ, List.map_cons, tget]
    split
    · rfl
    · exact tget_range' d v n (a + 1) k (by omega) (by omega)
theorem foldl_lt (f : Nat → Nat → Nat) (hf : ∀ b l, f b l = b ∨ f b l = l) (m : Nat) : ∀ (l : List Nat) (b : Nat), b < m → (∀ x ∈ l, x < m) → l.foldl f b < m
  | [], b, hb, _ => hb
  | x :: l, b, hb, hl => foldl_lt f hf m l (f b x) (by rcases hf b x with h | h <;> rw [h]; exacts [hb, hl x (by simp)]) (fun y hy => hl y (by simp [hy]))
theorem freeCounter_none (s : State) (h : ∀ k, k < 1024 → (rowCounter s k).armed = true) : freeCounter s = none := by
  refine List.findSome?_eq_none_iff.mpr fun i hi => if_neg ?_
  have hb := fun f hf => foldl_lt f hf 16 (List.range 16) 0 (by decide) (by simp)
  have hf : ∀ k, k < 1024 → ¬ (!(rowCounter s k).reserved && !(rowCounter s k).armed) = true := fun k hk => by rw [h k hk]; simp
  have := List.mem_range.mp hi
  refine hf _ ?_
  refine Nat.lt_of_lt_of_le (Nat.add_lt_add_left this _) (Nat.le_trans (Nat.le_of_eq (Nat.succ_mul _ 64).symm) (Nat.mul_le_mul_right (m := 16) 64 ?_))
  refine hb _ (fun b l => ?_)
  split <;> simp
theorem witness_Dispatch_counter :
    (claimsMode (claimer 2).table && sSource (claimer 2).table (cClaimSlot (claimer 2).table) == 0) = true ∧
      freeCounter { up 0 with counters := (List.range' 0 1024).map (fun k => (k, { armed := true })) } = none :=
  ⟨by decide +kernel, freeCounter_none _ fun k hk => by unfold rowCounter; rw [tget_range' _ _ 1024 0 k (Nat.zero_le _) (by omega)]⟩
theorem witness_Dispatch_reads : (getRange (up 0) 1 64 64).2 ≠ stSuccess ∧ (getRange (up 0) 1 64 (8 * scheduleWords (up 0) 1 64)).2 ≠ stSuccess ∧
    (getRange mapped 1 0 0).2 = stSuccess ∧ (getRange mapped 1 0x3000 64).2 = stSuccess ∧ scheduleBad [1] [0] = true := by decide +kernel
/-- Two peers expected and one arrived; a barrier of the running generation, of the next, and of another. -/
theorem witness_HostDieTasks :
    (∀ op ∈ [3, 4, 5, 6, 7], frontTask (up 0) 7 op = none ∧ frontTask (queued [descr op]) 7 op = some { words := descr op }) ∧
    stepHolds { up 0 with lifelines := [(1, { role := 1, state := 2 })] } 1 1 = true ∧ (lifeline (up 0) 1).role ≠ 1 ∧
    (let d : Desc := { words := descr 7 }
     stepHolds (queued [descr 7]) (tStrand d.words) (tStep d.words) = false ∧ freeSlot (takeFront (queued [descr 7]) 7 d) = some 0) ∧
    (rangeFault mapped 1 0x3000 2 false = none ∧ rangeFault mapped 2 0x3000 2 false = some stTranslationFault ∧
      (let s : State := { mapped with dict := { values := [(0x502001, [15#8])] } }
       peerList mapped 1 0x3000 1 = [0] ∧ 16 ≤ routePort mapped 0 ∧ routePort s 0 < 16)) ∧
    (readWords mapped 2 0x3000 8 = none ∧ readWords mapped 1 0x3000 8 = some (List.replicate 8 0) ∧ (loadMask mapped 1 (List.replicate 8 0) false stSuccess).1 ≠ stSuccess ∧
      (loadMask mapped 1 [2 * 2 ^ 5 + 2, 0, 0, 0, 0, 0, 0, 0] false stSuccess).1 = stSuccess ∧ (getRange mapped 1 0x3000 64).2 = stSuccess ∧ (getRange mapped 2 0x3000 64).2 ≠ stSuccess) ∧
    (let m : Mask := ⟨1, 0, 4, 4, 2, false⟩
     let u : State := { up 0 with hst := { masks := [(1023, m)] } }
     tfind u.hst.masks 1023 = some m ∧ m.strand = 1 ∧ 1023 ∉ freeingMasks u ∧ maskNamed u 1023 = false ∧ tfind (up 0).hst.masks 1023 = none ∧
       1023 ∈ freeingMasks { u with hst := { u.hst with maskFrees := [(4, 1023)] } } ∧
       maskNamed { u with hst := { u.hst with slots := [(3, { busy := true, opcode := 1, table := List.replicate 72 0 ++ [2 * 2 ^ 5 + 1023 * 2 ^ 16, 0, 0, 0, 0, 0, 0, 0, 1] })] } } 1023 = true) ∧
    (NewMessage (up 0) hstDie (fr 88) ∧ (0#16).toNat = (barrierOf (up 0) 4095).gen ∧ (1#16).toNat = ((barrierOf (up 0) 4095).gen + 1) % 65536 ∧
      (2#16).toNat ≠ (barrierOf (up 0) 4095).gen ∧ (2#16).toNat ≠ ((barrierOf (up 0) 4095).gen + 1) % 65536) ∧
    (let s : State := { withSlot { busy := true } with hst := { slots := [(3, { busy := true })], invalidating := [(3, 1, 0, 65536)] } }
     s.hst.invalidating.find? (fun i => i.1 == (3 : SlotId).val) = some ((3 : SlotId).val, 1, 0, 65536) ∧ (slotOf s 3).busy = true ∧ (slotOf s 3).ending = false ∧ s.cores = [] ∧
       (slotOf { s with hst := { s.hst with slots := [(4, { strand := 1 })] } } 4).strand = 1 ∧ overlaps 65535 512 0 65536 = true) ∧
    (up 0).hst.invalidating.find? (fun i => i.1 == (3 : SlotId).val) = none := by decide +kernel
/-- A ring of 2 entries with one taken, at its first place and at its last; a full one; rings in device memory and in the host's. -/
theorem witness_Completion :
    (let x : Slot := { busy := true, mask := 1, done := 1, opcode := 1 }
     let s (tail : Nat) : State := setReg (setReg (withSlot x) (cqOff 0 0) (1 + 1 * 2)) (cqOff 0 2) (tail * 2 ^ 16)
     slotReady (s 0) 3 = true ∧ cqHeld (s 0) 0 < cqSize (s 0) 0 ∧ (s 0).hst.refused = [] ∧ (s 0).hst.maskFrees = [] ∧ (s 0).hst.closing = [] ∧
     (∀ p ∈ (s 0).hst.strands, p.2.releasing = false) ∧ cqTail (s 0) 0 < cqSize (s 0) 0 ∧ cqSize (s 0) 0 ≤ 2 ^ 16 ∧ sqCq (s 0) x.sq = 0 ∧
     cqTail (s 0) 0 + 1 < cqSize (s 0) 0 ∧ cqTail (s 1) 0 + 1 = cqSize (s 1) 0 ∧ isHost 0x400000000000 = true ∧ isHost 0x3FFFFFFFFFFF = false ∧
     aborted x = false ∧ aborted { x with ending := true, started := true } = true ∧ slotReady (up 0) 3 = false) := by decide +kernel

/-! Witnesses: the Limund link. -/

/-- This device is 5 and device 0 lies behind port 15, which may train; strand 1 is live and its peer is strand 0 of device 0. -/
def linked (x : Port) : State :=
  { mapped with ports := [(15, x)], dict := { values := [(0x500101, [5#8]), (0x501002, [0#8, 0#8, 0#8, 0x80#8]), (0x502001, [15#8])] } }
/-- Every state of a port, the second and the third retrain in a row, and a peer that has the device number of this one. -/
theorem witness_PortStates :
    let s (x : Port) := linked x
    ((port (s {}) 15).state = 0 ∧ genMax (s {}) 15 ≠ 0 ∧ dieFailed (s {}) (88 + 15 / 2) = false) ∧ (genMax (withObj 0x501002 0) 1 = 0 ∧
      dieFailed { s {} with pkg := { failedDies := [95] } } 95 = true) ∧
    ((port (s { state := 1 }) 15).state = 1 ∧ min (genMax (s {}) 15) (2 : Fin 3).val ≠ 0 ∧ min (genMax (s {}) 15) (0 : Fin 3).val = 0 ∧
      (port (s { state := 1, attempt := 3 }) 15).attempt = 3 ∧ (port (s { state := 1 }) 15).attempt ≠ 3) ∧
    ((port (s { state := 2 }) 15).state = 2 ∧ (5#12).toNat = ownDev (s {}) ∧ (0#12).toNat ≠ ownDev (s {}) ∧ (port (s { state := 2 }) 15).mgmtSent = false ∧
      (port (s { state := 2, mgmtSent := true }) 15).mgmtSent = true) ∧ (port (s { state := 3 }) 15).state = 3 ∧
    ((port (s { state := 4, retrainFails := 1 }) 15).state = 4 ∧ (port (s { state := 4, retrainFails := 1 }) 15).retrainFails < 2 ∧
      2 ≤ (port (s { state := 4, retrainFails := 2 }) 15).retrainFails) ∧
    (∀ n ∈ [50000, 1000000, 100000000], now (s {}) < (port (s {}) 15).since + n ∧ (port (s {}) 15).since + n ≤ now { s {} with clock := { reftime := n } }) ∧
    (now (s {}) ≤ (port (s {}) 15).since + 50000 ∧ (port (s {}) 15).since + 50000 < now { s {} with clock := { reftime := 50001 } }) ∧
    (let m : SentMsg := { task := some 3 }
     let t : State := { s { state := 3, sending := [m] } with hst := { slots := [(3, { busy := true })] } }
     (m ∈ (port t 15).sent ∨ m ∈ (port t 15).sending) ∧ m.posted = true ∧ m.mcast = false ∧ (slotOf t 3).busy = true ∧ (slotOf t 3).written = false ∧
       (slotOf t 3).ending = false) := by decide +kernel
theorem witness_DigestsAndTime : (port (linked {}) 15).epochDiffSince = none ∧ (port (linked { epochDiffSince := some 0 }) 15).epochDiffSince = some 0 ∧
    (port (linked { state := 3 }) 15).state = 3 ∧ (port (linked { state := 2 }) 15).state ≠ 3 := by decide +kernel
/-- Frame 65535 is followed by frame 0. -/
theorem witness_Frames :
    let f : LinkFrame := ⟨0, 0, false, 0, 0, []⟩
    let s (x : Port) := linked x
    (port (s { state := 1 }) 15).state < 2 ∧ 2 ≤ (port (s { state := 2, rxSeq := 65535 }) 15).state ∧ (port (s { state := 2, nakActive := true }) 15).nakActive = true ∧
      (port (s { state := 2 }) 15).nakActive = false ∧ f.frameSeq.toNat = ((port (s { rxSeq := 65535 }) 15).rxSeq + 1) % 65536 ∧
      f.frameSeq.toNat ≠ ((port (s {}) 15).rxSeq + 1) % 65536 := by decide +kernel
/-- Idle; control messages of types 11, 4, 1 and 2, the last for this device, for one behind port 15 and for one without a route; a message for memory. -/
theorem witness_FlitsThatArrive :
    let s := linked { state := 3 }
    let c (m : Nat) : Flit := ⟨1, false, false, false, 3, 0, 0, 0, [BitVec.ofNat 64 m, 0, 0, 0]⟩
    let g (dst : BitVec 12) (n : StrandId) : Flit := ⟨2, true, true, false, 4, dst, n, 0, [2, 8, 0, 0, 77]⟩
    (⟨0, false, false, false, 0, 0, 0, 0, []⟩ : Flit).cls = 0 ∧
    (∀ m ∈ [11, 4, 1 + 5 * 2 ^ 8, 2, 2 + 7 * 2 ^ 8], (c m).cls = 1 ∧ controlMessages (c m) = [m]) ∧
    (bits (1 + 5 * 2 ^ 8) 19 8 = ownDev s ∧ bits 2 19 8 ≠ ownDev s ∧ routePort s (bits 2 19 8) < 16 ∧ 16 ≤ routePort s (bits (2 + 7 * 2 ^ 8) 19 8)) ∧
    (2 ≤ (g 0 1).cls.val ∧ (g 0 1).mcast = false ∧ (g 0 1).dstDev.toNat ≠ ownDev s ∧ routePort s (g 0 1).dstDev.toNat < 16 ∧ (port s 15).state ≠ 0 ∧
      (port (linked {}) 15).state = 0 ∧ (g 0 1).first = true) ∧
    ((g 5 1).dstDev.toNat = ownDev s ∧ strandLive s 1 = true ∧ lnkHolds s (15 / 2) 1 = false) ∧
    (strandLive s 2 = false ∧ linkOk s 2 = false ∧ (tget [] s.lnkCache 7).length < 32768) ∧
    (let t : State := { s with lnkCache := [(7, [1])] }
     let ws := flitWords (g 5 1)
     lnkHolds t 7 1 = true ∧ (port t 15).waiting = [] ∧ linkOk t 1 = true ∧ peerDev t 1 = mSrcDev (ws.take 4) ∧ (strand t 1).isSome = true ∧ (g 5 1).last = true ∧
       ws.drop 4 = [77] ∧ mKind (ws.take 4) = 2 ∧ (lifeline t 1).role = 0 ∧ translate t 1 (mOffset (ws.take 4)) true = .ok 0 ∧ mOffset (ws.take 4) % 512 ≤ 504 ∧
       (isNear 0 = true ∧ stackFailed t (stackOf 0) = false ∧ (stack t (stackOf 0)).poison.contains (lineOf 0) = false) ∧
       routePort t (peerDev t 1) < 16 ∧ (g 5 1).msgSeq.toNat = 0 ∧ ((1#16).toNat ≠ 0 ∧ ((1#16).toNat + 65536 - 0) % 65536 < 32768)) := by decide +kernel
theorem witness_StrandEntryFill : (strandLive mapped 2 = false ∧ lnkHolds mapped 7 2 = false) ∧ strandLive mapped 1 = true ∧ (port mapped 15).waiting = [] ∧
    lnkHolds { mapped with lnkCache := [(7, [1])] } 7 1 = true ∧ lnkHolds mapped 7 1 = false := by decide +kernel
/-- Both classes ready and each alone; the last flit of a frame; a message of a group at its limit. -/
theorem witness_FlitSelect :
    let g : Flit := ⟨2, true, true, false, 4, 0, 0, 0, [1, 8, 0, 0, 77]⟩
    let m (cls : Nat) : SentMsg := { strand := 1, cls := cls, flits := [g] }
    let s (x : Port) : State := let t := linked { x with state := 3 }
      { t with hst := { strands := t.hst.strands.map (fun y => (y.1, { y.2 with txCredit := 1 })) } }
    (port (linked {}) 15).state ≠ 3 ∧ ((port (s {}) 15).state = 3 ∧ classPick (s {}) 15 2 = none ∧ classPick (s {}) 15 3 = none ∧ (port (s {}) 15).control = []) ∧
    ((port (s { control := [2] }) 15).control ≠ [] ∧ 7 ≤ (port (s { control := [2] }) 15).slotsSinceControl) ∧
    ((port (s {}) 15).frame.length < 24 ∧ 24 ≤ (port (s { frame := List.replicate 24 g }) 15).frame.length) ∧
    (classPick (s { sending := [m 2] }) 15 2 = some (m 2) ∧ classPick (s { sending := [m 2] }) 15 3 = none) ∧
    (classPick (s { sending := [m 3] }) 15 3 = some (m 3) ∧ classPick (s { sending := [m 3] }) 15 2 = none) ∧
    (let t := s { sending := [m 2, { m 3 with strand := 1, rcv := 1, dst := 1, posted := false }] }
     classPick t 15 2 = some (m 2) ∧ classPick t 15 3 ≠ none ∧ (port t 15).lastClass ≠ 2 ∧ (port (s { lastClass := 2 }) 15).lastClass = 2) ∧
    (let n : SentMsg := { m 2 with mcast := true, lead := true }
     classPick (s { sending := [n] }) 15 2 = some n ∧ classPick (s { sending := [n] }) 15 3 = none ∧ n.posted = true) ∧
    (m 2).posted = true ∧ (m 2).mcast = false ∧ (m 2).kind ≠ 4 ∧ (strand (s {}) 1).isSome = true ∧ (m 2).whole = true ∧ (m 2).cls = 2 ∧ (m 3).cls = 3 := by
  decide +kernel
/-- A bound port, a port that is UP, none; a peer that is a strand of this device; a group with and without a DX8 port. -/
theorem witness_LimundSends :
    let d (kind n : Nat) : List Nat := [kind, 8, 0, 0, 0x3000, n]
    let base (w0 w3 w4 : Nat) (own : Byte) (bound : Option Nat) (x : Port) : State := { up 0 with
      mem := mapped.mem ++ [(0x8001, 0x80#8)], ports := [(15, x)], lnkCache := [(7, [1])]
      hst := { strands := [(1, { words := [w0, 0x1000, 0, w3, w4], port := bound })] }
      dict := { values := [(0x500101, [own]), (0x502001, [15#8]), (0x503001, [0#8, 0x80#8])] } }
    let dx (b : Bool) : Port := { state := 3, dx8 := b }
    (bits (word (d 1 1) 5) 17 0 = 1 ∧ bits (word (d 1 1) 1) 31 0 / 8 = 1 ∧ bits (word (d 1 1) 4) 47 0 = 0x3000) ∧
    (strandLive (up 0) 1 = false ∧ translate (up 0) 1 0x3000 false = .err stTranslationFault) ∧
    (let s := base 12 0 0 5#8 (some 15) (dx true)
     lnkHolds s 7 1 = true ∧ translate s 1 0x3000 false = .ok 0x3000 ∧ linkOk s 1 = true ∧ (strand s 1).isSome = true ∧ bit (strandWord s 1 4) 12 = false ∧
       peerDev s 1 ≠ ownDev s ∧ (port s 15).state ≠ 0 ∧ (port s 15).dx8 = true ∧ mKind (d 3 1) = 3 ∧ mKind (d 1 1) ≠ 3) ∧
    linkOk (base 8 0 0 5#8 none {}) 1 = false ∧ (port (base 12 0 0 5#8 none (dx false)) 15).dx8 = false ∧
    (upPort (base 12 (2 ^ 57) 0 5#8 none (dx false)) 1 = some 15 ∧ upPort (base 12 0 0 5#8 none (dx false)) 1 = none) ∧
    peerDev (base 12 0 0 0#8 none {}) 1 = ownDev (base 12 0 0 0#8 none {}) ∧
    (let s (b : Bool) := base 12 0 0x1000 5#8 none (dx b)
     bit (strandWord (s true) 1 4) 12 = true ∧ groupPorts (s true) (bits (strandWord (s true) 1 4) 11 0) = [15] ∧ (port (s true) 15).dx8 = true ∧
       (port (s false) 15).dx8 = false) ∧ (0#12).toNat ≠ ownDev (linked {}) ∧ (5#12).toNat = ownDev (linked {}) ∧ (strand (linked {}) 1).isSome = true ∧
    strand (linked {}) 2 = none := by decide +kernel
/-- Group 0: member 6 attached at 100 of 200 bytes, member 5 detached; and a second attached member that has everything. -/
theorem witness_Multicast :
    let s (ms : List Member) (since : Option Nat := none) (t : Nat := 0) : State := { linked { state := 3 } with
      groups := [(0, { sent := 200, members := ms, limitSince := since, starts := [0, 100], strand := 1 })], clock := { reftime := t } }
    let a : Member := { dev := 6, acked := 100 }
    let b : Member := { dev := 5, acked := 40, attached := false }
    let e : Member := { dev := 7, acked := 200 }
    (a ∈ (group (s [a, b]) 0).members ∧ a.dev = (6#12).toNat ∧ a.dev ≠ (5#12).toNat ∧ a.attached = true ∧ b ∈ (group (s [a, b]) 0).members ∧ b.attached = false ∧
      slowest (s [a, b]) 0 = 100 ∧ (99 : Word).toNat < 100 ∧ 100 ≤ (100 : Word).toNat ∧ (∀ y ∈ (group (s [a]) 0).members, y.dev ≠ (5#12).toNat)) ∧
    (∃ m ∈ (port (linked { sending := [{ mcast := true, started := true }] }) 15).sending, m.posted = true ∧ m.mcast = true ∧ m.rcv = 0 ∧ m.started = true) ∧
    (let lim := objNat (s []) 0x503002 * 1000
     0 < lim ∧ (group (s [a, e]) 0).limitSince = none ∧ (group (s [a, e] (some 0)) 0).limitSince = some 0 ∧ now (s [a, e] (some 0) (lim - 1)) - 0 < lim ∧
       (let t := s [a, b, e] (some 0) lim
        let att := (group t 0).members.filter (·.attached)
        lim ≤ now t - 0 ∧ att.find? (fun m => m.acked == slowest t 0 && decide (m.acked < (group t 0).sent)) = some a ∧
          (∀ y ∈ att, y.dev = a.dev ∨ y.acked = (group t 0).sent) ∧ 1 < att.length) ∧
       (let t := s [a, { e with acked := 150 }] (some 0) lim
        ∃ y ∈ (group t 0).members.filter (·.attached), y.dev ≠ a.dev ∧ y.acked ≠ (group t 0).sent) ∧
       ((s [a] (some 0) lim).groups.length = 1 ∧ ((group (s [a]) 0).members.filter (·.attached)).length ≤ 1) ∧
       (∀ m ∈ (group (s [e]) 0).members.filter (·.attached), m.acked = slowest (s [e]) 0 → (group (s [e]) 0).sent ≤ m.acked)) ∧
    routePort (linked {}) (0#12).toNat < 16 ∧
    (let t := s [a]
     let x := group t 0
     (min (8 : Word).toNat x.sent ≤ (8 : Word).toNat) ∧ (100 < min (200 : Word).toNat x.sent ∧ routePort t (0#12).toNat < 16 ∧ (∀ y ∈ x.starts, y ≤ 100 ∨ 200 ≤ y) ∧
       slowest t 0 ≤ 100) ∧ (min (100 : Word).toNat x.sent ≤ slowest t 0 ∧ bits (groupWord t 0 2) 47 0 = 0 ∧ (∀ y ∈ x.starts, y ≤ 0 ∨ 100 ≤ y)) ∧ (strand t x.strand).isSome = true ∧
       (let u : State := { t with dict := { values := t.dict.values ++ [(0x503001, [0#8, 0x80#8])] }, mem := t.mem ++ [(0x8011, 0x40#8)] }
        bits (groupWord u 0 2) 47 0 ≠ 0 ∧ slowest u 0 = 100)) ∧
    (let t : State := { up 0 with groups := [(0, { hdr := [1], gap := some (7, 15) })] }
     mKind (group t 0).hdr = 1 ∧ (group t 0).gap = some (7, 15) ∧ (queue t (mTgt (group t 0).hdr)).marker = none ∧ mKind (group (up 0) 0).hdr ≠ 1) ∧
    (let m : QMarker := { first := 3, count := 65534, bytes := 8, tFirst := 0, tLast := 0, row := none }
     (queue (withQueue { marker := some m }) 160).marker = some m ∧ m.count + (1#16).toNat ≤ 65535 ∧ 65535 < m.count + (2#16).toNat) := by decide +kernel
/-- Context 7 of die 7: complete, faulted, waiting, at its end, and with the entry of index 9 in both inputs; an output of 8,190 and of 8,191 entries. -/
theorem witness_MergeContexts :
    let s (w : Nat) (c : MergeCtx) : State := { setReg (up 0) (mergeOff 7 7 0) w with merges := [(63, c)] }
    let ins (t : State) := (List.range (mergeInputs t 7 7)).map (fun i => (merge t 7 7).inputs.getD i ({} : MergeIn))
    let one : MergeCtx := { inputs := [{ entries := [(9, 0x3F800000#32), (10, 1#32)] }, { entries := [(9, 0x3F800000#32)] }] }
    bit (64 : Word).toNat 6 = true ∧ bit (63 : Word).toNat 6 = false ∧
    (mergeState (s 2 {}) 7 7 ≠ 1 ∧ mergeState (s 2 {}) 7 7 ≠ 3) ∧ (mergeState (s 3 {}) 7 7 = 3 ∧ (merge (s 3 {}) 7 7).out = [] ∧
      (merge (s 3 { out := [(0, 0)] }) 7 7).out ≠ []) ∧
    (mergeState (s 5 {}) 7 7 = 1 ∧ (∃ i ∈ ins (s 5 {}), i.entries = [] ∧ i.ended = false)) ∧
    (∀ i ∈ ins (s 5 { inputs := [{ ended := true }, { ended := true }] }), i.entries = [] ∧ i.ended = true) ∧ bit 5 4 = false ∧ bit 21 4 = true ∧ bit 37 5 = true ∧
    (let t := s 5 one
     mergeState t 7 7 = 1 ∧ (∀ i ∈ ins t, i.entries ≠ [] ∨ i.ended = true) ∧ (∃ i ∈ ins t, i.entries.head? = some (9, 0x3F800000#32)) ∧
       (∀ i ∈ ins t, ∀ e ∈ i.entries.head?, 9 ≤ e.1) ∧ isZeroF32 (addF32 0x3F800000 0x3F800000) = false ∧ isZeroF32 (addF32 0 0) = true) ∧
    ((merge (s 5 { one with out := List.replicate 8190 (0, 0) }) 7 7).out.length < 8191 ∧ 8191 ≤ (merge (s 5 { one with out := List.replicate 8191 (0, 0) }) 7 7).out.length) := by
  decide +kernel

/-! Numbers and layouts: the manual's worked cases. -/

/-- 03, one element, two rounding modes: 1.1796875 becomes E4M3 0x39 to nearest even, 0x3A with r = 0x9C40 and 0x39 with r = 0x2A10. -/
theorem test_convert_e4m3 : ((convertBlock 4 [] [0x3F970000#32]).2.map (·.bits), (convertBlock (4 + 32) [0x9C40] [0x3F970000#32]).2.map (·.bits),
    (convertBlock (4 + 32) [0x2A10] [0x3F970000#32]).2.map (·.bits)) = ([0x39], [0x3A], [0x39]) := by decide +kernel
/-- 03, the same case into an MXFP4 block with 5.0: the scale is 0x7F, 5.0 becomes 4 and 1.1796875 becomes 1. -/
theorem test_convert_mxfp4 : (let r := convertBlock 12 [] [0x40A00000#32, 0x3F970000#32]; (r.1, r.2.map (·.bits))) = (0x7F, [6, 2]) := by decide +kernel
/-- R75: 1e9 saturates to 448 in E4M3, and is NaN there with OVF_INF. -/
theorem test_convert_overflow : ((convertBlock 4 [] [0x4E6E6B28#32]).2.map (fun c => (c.bits, c.sat)), (convertBlock (4 + 64) [] [0x4E6E6B28#32]).2.map (fun c => (c.bits, c.nan))) =
    ([(0x7E, 1)], [(0x7F, 1)]) := by decide +kernel
/-- R65: planes 1, 0, 1 of a PINT3 element are -3 (04, the case of a padded grid); a PINT1 element is 1 or -1. -/
theorem test_pint : decodeElem 19 5 = .fin true 3 0 ∧ decodeElem 17 1 = .fin false 1 0 ∧ decodeElem 17 0 = .fin true 1 0 := by decide +kernel
/-- R67, Table: Operand pairs and rates. -/
theorem test_rates : (macsPerStitch 3 3, macsPerStitch 4 13, macsPerStitch 11 12, macsPerStitch 11 4, macsPerStitch 4 20, pairRate8 3 19) = (32768, 65536, 131072, 65536, 131072, 0) := by
  decide +kernel
/-- R72: 1.5 + 0.5 is 2, and the largest finite number doubled is infinite. -/
theorem test_addF32 : (addF32 0x3FC00000 0x3F000000, addF32 0x7F7FFFFF 0x7F7FFFFF) = (0x40000000, 0x7F800000) := by decide +kernel
/-- R79: the known answer of the published generator for a key and a counter of 0 (PRESUMED: the published test vector). -/
theorem test_philox : philox 10 (0, 0, 0, 0) 0 0 = (0x6627E8D5, 0xE169C58D, 0xBC57AC4C, 0x9B00DBD8) := by decide +kernel
/-- R453: CRC-32 of the nine digits (PRESUMED: the check value of the standard). -/
theorem test_crc32 : crc32 [0x31, 0x32, 0x33, 0x34, 0x35, 0x36, 0x37, 0x38, 0x39] = 0xCBF43926 := by decide +kernel
/-- 04, the case of a padded grid: a PINT3 weight of 900 by 3,000, element (777, 2,049), its three planes, its scale and its size. -/
theorem test_padded_grid : (let d := [19, 900 + 3000 * 2 ^ 32, 0, 0, 0, 0, 0, 0]
    ((List.range 3).map (elemAddr d 0 777 2049), scaleAddr d 0 777 2049, matrixBytes d)) = ([(1081488, 1), (1082000, 1), (1082512, 1)], 90148, 1179648) := by decide +kernel
/-- 02, the case of a late row: stitch 600,000 at 1,500 stitches per microsecond is reached 399,989.3 ns after t0. -/
theorem test_earliestReach : earliestReach [1500 * 2 ^ 16 + 1 * 2 ^ 32] 600000 = 399989 := by decide +kernel

/-! One step of each family, from a small state. -/

/-- R47: an edge of the reference clock is 10 ns. -/
theorem test_referenceClockEdge : gives (.referenceClockEdge 0) (up 7) (fun t => now t == 17) = true := by decide +kernel
/-- R49: a load above REFTIME is taken at once and locks; one below is slewed to. -/
theorem test_reftimeLoad : gives (.reftimeLoad 9) (up 7) (fun t => now t == 9 && t.clock.locked) = true := by decide +kernel
theorem test_reftimeLoad_below : gives (.reftimeLoad 5) (up 7) (fun t => now t == 7 && t.clock.slew == -2000 && t.clock.locked) = true := by decide +kernel
/-- R359: a request to fence core 64 is refused; the fault of a core that is not active fences nothing more. -/
theorem test_fenceCoreRequest : gives (.fenceCoreRequest 64) (up 0) (fun t => t.pkg.fenced == 0) = true := by decide +kernel
theorem test_coreInternalFault : gives (.coreInternalFault 5) { up 0 with pkg := { enabled := 1 } } (fun t => t.pkg.fenced == 0 && t.net.chain.isEmpty) = true := by decide +kernel
/-- 02, Table: Pace registers: bit 0 of CORE_PACE_CLEAR clears the overrun counters. -/
theorem test_corePaceClear : gives (.corePaceClear 5 1) (setReg (up 0) (coreOff 5 CORE_OVR_NS) 140) (fun t => reg t (coreOff 5 CORE_OVR_NS) == 0) = true := by decide +kernel
/-- 11, the case of a lost packet, step 3: no room for a new packet under the native policy. It is dropped whole and counted (R294). -/
theorem test_openPacket_drop : gives (.openPacket 160 .host) (withQueue { enabled := true, len := 4, landed := 3, seqNext := 3 })
    (fun t => reg t (coreOff 5 QUE_DROP_PKT_COUNT) == 1 && (queue t 160).seqNext == 4) = true := by decide +kernel
/-- R286, R287: the length word of a packet of one word, numbered 0, holds its 8 bytes. -/
theorem test_close : gives (.close 160 .host) (withQueue { enabled := true, len := 4, landed := 1, open_ := some { packet with n := 2 } })
    (fun t => rd64 t (queRowDpa t 160 0) == 8 && (queue t 160).open_ == none) = true := by decide +kernel
theorem test_data : gives (.data 160 .host 0x0123456789ABCDEF) (withQueue { enabled := true, len := 4, landed := 1, open_ := some { packet with n := 1 } })
    (fun t => rd64 t (queRowDpa t 160 0 + 8) == 0x0123456789ABCDEF) = true := by decide +kernel
/-- R284: LEN 1 is refused and ENABLE reads 0. -/
theorem test_queueEnable_refused : gives (.queueEnable 160 9) (setReg (up 0) (regionOff 5 1 0 0) (2 ^ 20)) (fun t => !(queue t 160).enabled && reg t (queOff 160 0) % 2 == 0) = true := by
  decide +kernel
/-- R214: a stitch marker takes the low 32 bits written. -/
theorem test_stitchMarkerWrite : gives (.stitchMarkerWrite 5 255 0x1_0000_0007) (up 0) (fun t => marker t 5 255 == 7) = true := by decide +kernel
/-- R205: three bytes at offset 100 of the first row of window 63 wait in the gathering buffer. -/
theorem test_narrowWrite : gives (.narrowWrite 5 .host 63 0 100 [1, 2, 3] false) (setReg (up 0) (windowOff 5 63 0) (1 + 3 * 2 ^ 8 + 2 ^ 44))
    (fun t => (Machine.core t 5).gb.length == 1) = true := by decide +kernel
/-- R225: a power-up of a powered bank completes at once with RESULT 0; R223: a power-down of a powered one shows RESULT 1. -/
theorem test_bankPowerUp : gives (.bankPowerUp 5 1 7) (up 0) (fun t => (Machine.core t 5).bankResult == 0 && (Machine.core t 5).bankReq == none) = true := by decide +kernel
theorem test_bankPowerDown : gives (.bankPowerDown 5 1 7) (up 0) (fun t => (Machine.core t 5).bankResult == 1) = true := by decide +kernel
/-- R296: credits are added. -/
theorem test_queueCredit : gives (.queueCredit (fr 0) 5 160 3) (withQueue { enabled := true, len := 4, credits := 2 }) (fun t => (queue t 160).credits == 5) = true := by decide +kernel
/-- R252: the third claim of four chunks takes chunk 2, and core 0 is its owner. -/
theorem test_claim : gives (.claim (fr 0) 64 1) (withCounter { armed := true, attempt := 1, k := 4, next := 2 })
    (fun t => (rowCounter t 64).next == 3 && tfind (rowCounter t 64).owners 2 == some 0) = true := by decide +kernel
/-- R252: a claim of an old attempt takes nothing and is counted. -/
theorem test_claim_stale : gives (.claim (fr 0) 64 0) (withCounter { armed := true, attempt := 1, k := 4, next := 2 })
    (fun t => (rowCounter t 64).next == 2 && t.hst.claimsDropped == 1) = true := by decide +kernel
/-- R404: ACTIVATE of a VALID entry makes the strand live; R405: RELEASE of one that is not live is refused. -/
theorem test_strandActivate : gives (.strandActivate 262143) tabled (fun t => strandLive t 262143 && t.hst.strandResult == 0) = true := by decide +kernel
theorem test_strandRelease : gives (.strandRelease 262143) tabled (fun t => t.hst.strandResult == 2 && t.hst.strandStatus == stStrandInvalid) = true := by decide +kernel
/-- R408: a doorbell write to a queue that is not enabled is dropped and counted. -/
theorem test_sqTailDoorbell_dropped : gives (.sqTailDoorbell 5 3) (up 0) (fun t => reg t (hstOff HST_POSTED_DROP_COUNT) == 1 && bits (reg t (hstOff HST_LAST_DROP)) 15 0 != 0) = true := by
  decide +kernel
/-- R467 and R59: 101 in 0x2011:02 is refused, and stays so for the value read back. -/
theorem test_write_range : gives (.write .mailbox 0x2011 2 0 [101]) (up 0) (fun t => objNat t 0x201102 == objNat (up 0) 0x201102 &&
    (match t.out with | .reply _ _ h _ :: _ => h / 2 ^ 48 == 0x0501 | _ => false)) = true := by decide +kernel
/-- R463: an index that does not exist is unknown; an object that may not be written refuses. -/
theorem test_read_unknown : gives (.read .mailbox 0xF000 0 0 false) (up 0) (fun t => match t.out with | .reply _ _ h _ :: _ => h / 2 ^ 48 == stObjectUnknown | _ => false) = true := by
  decide +kernel
/-- R479: an arming less than 1 ms ahead is refused; a disarm clears an epoch that is not frozen. -/
theorem test_epochArm_early : gives (.epochArm 999999) (up 0) (fun t => t.dict.armState == 0) = true := by decide +kernel
theorem test_epochDisarm : gives .epochDisarm { up 0 with dict := { armState := 1 } } (fun t => t.dict.armState == 0) = true := by decide +kernel
/-- R480: a freeze is kept at its die. -/
theorem test_freeze : gives (.freeze (fr 98) 5 77) (up 0) (fun t => leNat (dieObj t 5 0x102002) == 77) = true := by decide +kernel
/-- R366: a link that fails at its fourth attempt is DOWN; R367: the third retrain failure in a row too. -/
theorem test_trainingFails : gives (.limundTrainingDone 15 false 2) (linked { state := 1, attempt := 3 }) (fun t => (port t 15).state == 0) = true := by decide +kernel
theorem test_retrainTimeout : gives (.retrainTimeout 15) { linked { state := 4, retrainFails := 2 } with clock := { reftime := 50000 } } (fun t => (port t 15).state == 0) = true := by decide +kernel
/-- R370: a frame that fails is counted, and asked for again once. -/
theorem test_frameReceive_bad : gives (.frameReceive 15 none 3) (linked { state := 3 })
    (fun t => reg t (portOff 15 LNK_FEC_UNCORR_COUNT) == 1 && reg t (portOff 15 LNK_FEC_CORR_COUNT) == 3 && (port t 15).nakActive) = true := by decide +kernel
/-- R382: credit saturates at 65,535. -/
theorem test_credit : gives (.credit 15 5 1 65535) { linked { state := 3 } with hst := { strands := [(1, { txCredit := 9 })] } }
    (fun t => (strand t 1).any (·.txCredit == 65535)) = true := by decide +kernel
/-- R385: the acknowledgement of member 6 moves its offset from 100 to 150. -/
theorem test_mcastAck : gives (.mcastAck 0 6 150) { linked { state := 3 } with groups := [(0, { sent := 200, members := [{ dev := 6, acked := 100 }] })] }
    (fun t => (group t 0).members.map (·.acked) == [150]) = true := by decide +kernel
/-- R388: OPEN activates a context. -/
theorem test_mergeContextOpen : gives (.mergeContextOpen 7 7 64) (up 0) (fun t => mergeState t 7 7 == 1) = true := by decide +kernel
/-- R451: at 41 V the device binds off with cause 1; above it runs on. -/
theorem test_bindOff : gives (.bindOff 41000) (up 0) (fun t => t.power.powerState == 3 && t.power.cause == 1) = true := by decide +kernel
theorem test_bindOff_above : gives (.bindOff 41001) (up 0) (fun t => t.power.powerState == 2) = true := by decide +kernel
/-- R443, Table: Throttle sources: a die at 105 degrees throttles, and at 104 it does not. -/
theorem test_thermalThrottle : gives (.thermalThrottle 0 105 0) (up 0) (fun t => t.power.thermal) = true := by decide +kernel
theorem test_thermalThrottle_below : gives (.thermalThrottle 0 104 0) (up 0) (fun t => !t.power.thermal) = true := by decide +kernel
/-- R443, Table: Throttle sources: the sag warning at 43 V. -/
theorem test_sagWarning : gives (.sagWarning 43000 false) (up 0) (fun t => t.power.sag && reg t (pwrOff MGT_SAG_WARN_COUNT) == 1) = true := by decide +kernel
/-- R436: an answer with another feed arms the lifeline; R428: ARM of a strand that is not live is refused. -/
theorem test_armAck : gives (.armAck 1 3 0 0) { mapped with lifelines := [(1, { role := 1, state := 1 })] } (fun t => (lifeline t 1).state == 2 && !(lifeline t 1).correlated) = true := by
  decide +kernel
theorem test_arm_refused : gives (.arm 2) mapped (fun t => t.llResult == 2 && t.llStatus == stStrandInvalid) = true := by decide +kernel
/-- R510: the third refused response bars the fourth, whatever it holds; R512: a mux select of 0x20 stays shut without an unlock. -/
theorem test_unlock_barred : gives (.unlockResponse [] 0 0 0 true) { up 0 with sec := { refusals := 3 } } (fun t => t.sec.unlocks == 0 && t.sec.refusals == 3) = true := by decide +kernel
theorem test_tmuxSelect : gives (.tmuxSelect 0x20 true) (up 0) (fun t => t.sec.lockReject && t.sec.tmuxSel == 0) = true := by decide +kernel
/-- R507: a version request answers a first connection. -/
theorem test_getVersion : gives (.getVersion 7) (up 0) (fun t => match t.out with | .spdm "VERSION" 7 _ :: _ => true | _ => false) = true := by decide +kernel
/-- R334, Table: Far-tier CXL features: an event record of an expander is counted. -/
theorem test_expanderEventRecord : gives (.expanderEventRecord 3 1) (up 0) (fun t => reg t (farOff 3 FAR_EVENT_COUNT) == 1) = true := by decide +kernel
/-- R344: the third page becomes host-biased, its neighbours do not. -/
theorem test_biasChange : gives (.biasChange 3 1 true) (up 0) (fun t => hostBias t (3 * 2 ^ 21) && !hostBias t (2 * 2 ^ 21 - 1) && !hostBias t (4 * 2 ^ 21)) = true := by decide +kernel
/-- R356: an acknowledgement releases its message. -/
theorem test_chainAck : gives (.chainAck 0 98 0) { up 0 with net := { chain := [{ src := 0, dst := 98, seq := 0, msg := .doorbell false 0 0 }] } } (fun t => t.net.chain.isEmpty) = true := by
  decide +kernel
/-- R238: a dispatch at an idle core starts its task. -/
theorem test_dispatch : gives (.dispatch (fr 98) 5 3 0 1) (up 0) (fun t => (Machine.core t 5).task.isSome) = true := by decide +kernel

end Sys2Proof.Tests
end

section
/-! PROOF. Scope (00_scope.md): what every command keeps. Both statements read off `exec_within`, which says of each command which changes it
can make; the inversion lemmas below turn "the command answered t" and "the step answered t" into those changes. -/

namespace Sys2Proof.Machine

open Sys2Proof Sys2Proof.Safety

/-- What a command has answered comes from the state before by the changes that the command may make. -/
theorem within_of_exec {c : Instr} {s t : State} (h : exec c s = .next t) : Within (partMask (touches c) (startsTime c)) s t := by
  obtain ⟨u, hu, w⟩ := exec_within c s
  rw [hu, Host.Outcome.next.injEq] at h
  exact h ▸ w

/-- What a step can be: idling on an empty queue, or the front command on the state with the queue's rest. -/
theorem step_cases {s t : State} (h : step s = .next t) :
    (s.pending = [] ∧ t = s) ∨ ∃ c rest, s.pending = c :: rest ∧ exec c { s with pending := rest } = .next t := by
  unfold step at h
  split at h
  next hp => exact .inl ⟨hp, (Host.Outcome.next.inj h).symm⟩
  next c rest hp => exact .inr ⟨c, rest, hp, h⟩

theorem Within.inv {m : Nat} {s t : State} (h : Within m s t) (i : Inv s) : Inv t := ⟨h.memory i.memory, h.registers i.registers⟩

/-- The invariant does not speak of the queue of commands. -/
theorem inv_withPending {s : State} (i : Inv s) (l : List Instr) : Inv { s with pending := l } := ⟨i.memory, i.registers⟩

/-- Settles O3: a step idles or runs the front command, whose changes of memory and registers keep the invariant (R9, R324). -/
theorem stepKeepsInv : Obligations.StepKeepsInv := by
  intro s t i h
  rcases step_cases h with ⟨-, rfl⟩ | ⟨c, rest, -, he⟩
  · exact i
  · exact (within_of_exec he).inv (inv_withPending i rest)

/-- Settles O4: every change of the package keeps the cores enabled at grading and only adds to the fenced cores and fenced routers
(R4, R361). -/
theorem gradedDiesStayDisabled : Obligations.GradedDiesStayDisabled := by
  intro c s t h
  have grows : PkgGrows s.pkg t.pkg := (within_of_exec h).package
  have sameEnabled : t.pkg.enabled = s.pkg.enabled := grows.1
  exact ⟨sameEnabled, coreActive_mono grows, routerFenced_mono grows⟩

end Sys2Proof.Machine
end

section
/-! PROOF. The package (01_package_and_dataflow.md): failures of routers, ring dies, connections and modules, and ROUTE_WRITE. What a fence or
a failure marks in the package is read off where it is marked; that it stays marked through all that follows is `Within.package`. -/

namespace Sys2Proof.Machine

open Sys2Proof Sys2Proof.Safety

/-! Fences (14 R359 to R361): the mark is set, and what the loss takes with it does not unset it. -/

theorem coreActive_markFenced (s : State) (c : Nat) : coreActive (updPkg s (markFenced c)) c = false := by
  unfold coreActive activeMask updPkg markFenced bit
  simp only [Nat.testBit_and, Nat.testBit_xor, Nat.testBit_mod_two_pow, Nat.testBit_two_pow_sub_one, Nat.testBit_or, Nat.testBit_two_pow_self,
    Bool.or_true, Bool.and_true, bne_self_eq_false, Bool.and_false]

theorem fenceEffects_inactive (s : State) (c : Nat) : coreActive (fenceEffects s c) c = false := by
  unfold fenceEffects
  split
  · next inactive => simpa using inactive
  · exact coreActive_mono (coreLost_within (M := 0x3100808d9) rfl _ c _ .refl).package c (coreActive_markFenced s c)

theorem fenceCore_inactive (s : State) (c : Nat) : coreActive (fenceCore s c) c = false := by
  unfold fenceCore
  split
  · next inactive => simpa using inactive
  · exact fenceEffects_inactive _ c

theorem routerLost_inactive (s : State) {d c : Nat} (h : dieCore d = some c) : coreActive (routerLost s d) c = false := by
  unfold routerLost
  simp only [h]
  exact coreActive_mono (rewriteRoutes_within (M := 0x310000c89) rfl _ .refl).package c (fenceCore_inactive _ c)

theorem routerFenced_markRouter (s : State) (d : Nat) : routerFenced (updPkg s (markRouter d)) d = true := by
  simp [routerFenced, updPkg, markRouter]

theorem fenceRouter_fenced (s : State) (d : Nat) : routerFenced (fenceRouter s d) d = true := by
  unfold fenceRouter
  split
  · assumption
  · exact routerFenced_mono (routerLost_within (M := 0x310080cd9) rfl _ d .refl).package d (routerFenced_markRouter s d)

theorem fenceRouter_inactive {s : State} {d c : Nat} (hc : dieCore d = some c) (new : routerFenced s d = false) :
    coreActive (fenceRouter s d) c = false := by
  unfold fenceRouter
  rw [new]
  exact routerLost_inactive _ hc

/-! Ring dies (01 R17; 14 R362). -/

theorem raise_pkg (s : State) (die code severity n c : Nat) (args : List Nat) : (raise s die code severity n c args).pkg = s.pkg :=
  (raise_within (M := 0x310000081) rfl s die code severity n c args .refl).same .pkg rfl

/-- Of the package, the loss of a ring die marks at most the device. -/
theorem ringLost_pkg (s : State) (die : Nat) : (ringLost s die).pkg = if 98 ≤ die then markLost s.pkg else s.pkg := by
  unfold ringLost
  dsimp only
  split
  · next link => rw [if_neg (by omega)]; exact raise_pkg ..
  · split
    · next far => rw [if_neg (by omega)]; exact raise_pkg ..
    · split
      · exact congrArg markLost (raise_pkg ..)
      · exact raise_pkg ..

theorem failRing_new {s : State} {die : Nat} (new : dieFailed s die = false) :
    failRing s die = ringLost (updPkg s (markFailed die)) die := by
  simp [failRing, new]

theorem failRing_failed (s : State) (die : Nat) : dieFailed (failRing s die) die = true := by
  cases h : dieFailed s die with
  | true => simp [failRing, h]
  | false =>
    rw [failRing_new h, dieFailed, ringLost_pkg]
    split <;> simp [updPkg, markLost, markFailed]

/-- The HST die and the management die (98, 99) take the device with them. -/
theorem failRing_deviceLost {s : State} {die : Nat} (new : dieFailed s die = false) (h : 98 ≤ die) : (failRing s die).pkg.deviceLost = true := by
  rw [failRing_new new, ringLost_pkg, if_pos h]
  rfl

/-! Connections (14 R350). -/

theorem connDown_markDown (s : State) (k : Nat) : (updPkg s (markDown k)).pkg.connDown.contains k = true := by
  simp [updPkg, markDown]

theorem connFail_down (s : State) {d p e : Nat} (h : neighbour d p = some e) : (connFail s d p).pkg.connDown.contains (connKey d p) = true := by
  unfold connFail
  simp only [h]
  split
  · assumption
  · have after : Within 0x310080cd9 (updPkg s (markDown (connKey d p)))
        (fenceIfCut (fenceIfCut (rewriteRoutes (updPkg s (markDown (connKey d p)))) d) e) :=
      fenceIfCut_within rfl _ e (fenceIfCut_within rfl _ d (rewriteRoutes_within rfl _ .refl))
    exact connDown_mono after.package _ (connDown_markDown s _)

/-- The first module of a connection (14 R350). -/
theorem execUcieModuleFailure_first {d : MeshDie} {p : Fin 7} {e : Nat} {s : State} (h : neighbour d p = some e)
    (first : tget 0 s.pkg.modulesFailed (connKey d p) = 0) :
    execUcieModuleFailure d p s = .next (raise (updPkg s (markModule (connKey d p) 1)) mgtDie 0x601 1 0 0 [d, e]) := by
  simp [execUcieModuleFailure, h, first]

/-- A module that is not the first of its connection to fail (14 R350). -/
theorem execUcieModuleFailure_more {d : MeshDie} {p : Fin 7} {e n : Nat} {s : State} (h : neighbour d p = some e)
    (more : tget 0 s.pkg.modulesFailed (connKey d p) = n + 1) :
    execUcieModuleFailure d p s = .next (connFail (updPkg s (markModule (connKey d p) (n + 2))) d p) := by
  simp [execUcieModuleFailure, h, more]

/-! Retries of a hop (14 R350), counted at the routers of both its ends. -/

theorem ringOf_ge {d e : Nat} (h : ringOf d = some e) : 80 ≤ e := by
  unfold ringOf at h
  grind

/-- No connection leads back to its own die. -/
theorem neighbour_ne {d p e : Nat} (hd : d < 80) (h : neighbour d p = some e) : e ≠ d := by
  unfold neighbour at h
  split at h
  case h_5 => have := ringOf_ge h; omega
  all_goals simp_all <;> omega

theorem rtrOff_injective {d e o : Nat} (h : rtrOff d o = rtrOff e o) : d = e := by
  unfold rtrOff at h
  omega

/-! ROUTE_WRITE (14 R361). -/

/-- What a run of conditional table writes leaves at a key that none of them has. -/
theorem tfind_foldl_tset_other {α β : Type} (P : β → Prop) [DecidablePred P] (key : β → Nat) (val : β → α) (l : List β) (t : Tab α) {k : Nat}
    (h : ∀ i ∈ l, P i → key i ≠ k) : tfind (l.foldl (fun t i => if P i then tset t (key i) (val i) else t) t) k = tfind t k := by
  induction l generalizing t with
  | nil => rfl
  | cons i l ih =>
    rw [List.foldl_cons, ih _ fun j hj => h j (List.mem_cons_of_mem i hj)]
    split
    · next hi => rw [tfind_tset, if_neg (h i List.mem_cons_self hi)]
    · rfl

/-- What it leaves at a key that one of them has, where no two have the same. -/
theorem tfind_foldl_tset_at {α β : Type} (P : β → Prop) [DecidablePred P] (key : β → Nat) (val : β → α) (l : List β) (t : Tab α) {i : β}
    (distinct : ∀ j, key j = key i → j = i) (hi : i ∈ l) (hP : P i) :
    tfind (l.foldl (fun t i => if P i then tset t (key i) (val i) else t) t) (key i) = some (val i) := by
  induction l generalizing t with
  | nil => cases hi
  | cons j l ih =>
    rw [List.foldl_cons]
    by_cases again : i ∈ l
    · exact ih _ again
    · obtain rfl : i = j := (List.mem_cons.mp hi).resolve_right again
      rw [tfind_foldl_tset_other P key val l _ fun j hj _ hk => again (distinct j hk ▸ hj), if_pos hP, tfind_tset, if_pos rfl]

/-- The key of the route entry of a die to a destination, on the chain or the bulk network. -/
def routeKey (chainNet : Bool) (die dst : Nat) : Nat := (b2n chainNet * 128 + die) * 128 + dst

/-- The routes with the ten entries from FIRST that a message carries (14 R361). -/
def writtenRoutes (t : Tab Nat) (die first : Nat) (chainNet : Bool) (entries : Nat) : Tab Nat :=
  (List.range 10).foldl (fun t i => if first + i < 100 then
    tset t (routeKey chainNet die (first + i)) (bits entries (4 * i + 3) (4 * i) % (if chainNet then 8 else 16)) else t) t

theorem writtenRoutes_at (t : Tab Nat) (die first : Nat) (chainNet : Bool) (entries : Nat) {i : Nat} (hi : i < 10) (hdst : first + i < 100) :
    tfind (writtenRoutes t die first chainNet entries) (routeKey chainNet die (first + i)) =
      some (bits entries (4 * i + 3) (4 * i) % (if chainNet then 8 else 16)) :=
  tfind_foldl_tset_at (fun i => first + i < 100) (fun i => routeKey chainNet die (first + i)) _ _ t
    (fun j hj => by simpa [routeKey] using hj) (List.mem_range.mpr hi) hdst

theorem writtenRoutes_other (t : Tab Nat) (die first : Nat) (chainNet : Bool) (entries : Nat) {k : Nat}
    (h : ∀ i, i < 10 → k ≠ routeKey chainNet die (first + i)) : tfind (writtenRoutes t die first chainNet entries) k = tfind t k :=
  tfind_foldl_tset_other (fun i => first + i < 100) (fun i => routeKey chainNet die (first + i)) _ _ t
    (fun i hi _ hk => h i (List.mem_range.mp hi) hk.symm)

/-- A field of an entry has 3 bits on the chain network; on the bulk network all its 4. -/
theorem routeField_eq (chainNet : Bool) (w i : Nat) :
    (if chainNet then bits w (4 * i + 3) (4 * i) % 8 else bits w (4 * i + 3) (4 * i)) =
      bits w (4 * i + 3) (4 * i) % (if chainNet then 8 else 16) := by
  cases chainNet with
  | true => rfl
  | false =>
    have small := bits_lt w (4 * i + 3) (4 * i)
    rw [show 4 * i + 3 + 1 - 4 * i = 4 by omega] at small
    exact (Nat.mod_eq_of_lt small).symm

/-- The end of a rewrite, where no entry leads into a lost connection any more (14 R361). -/
def rewriteEnds (s : State) : State := if routesClean s then updPkg s markRewritten else s

theorem rewriteEnds_routes (s : State) : (rewriteEnds s).pkg.routes = s.pkg.routes := by
  unfold rewriteEnds
  split <;> rfl

theorem rewriteEnds_parts (s : State) : OnlyParts [.pkg] s (rewriteEnds s) :=
  Within.onlyParts (back := false) (.ite (updPkg_within rfl markRewritten_grows .refl) .refl)

theorem execRouteWrite_new {f : Frame} {d : DieId} {s : State} (new : NewMessage s d f) (first : BitVec 8) (chainNet : Bool)
    (entries : BitVec 40) :
    execRouteWrite f d first chainNet entries s =
      .next (rewriteEnds (updPkg (tookMessage s d f) (markRoutes (writtenRoutes s.pkg.routes d first.toNat chainNet entries.toNat)))) := by
  unfold execRouteWrite
  rw [onChain_new _ new]
  simp only [routeField_eq]
  rfl

/-! The statement's parts. -/

theorem dieAndConnectionFailures : Claims.DieAndConnectionFailures := by
  refine ⟨fun d s => ?_, fun r s => ?_, fun d p e s h => ?_⟩
  · exact ⟨fenceRouter s d, rfl, fenceRouter_fenced s d, fun c hc new => fenceRouter_inactive hc new⟩
  · exact ⟨failRing s (80 + r), rfl, failRing_failed s _, fun new hr => failRing_deviceLost new (by omega)⟩
  · exact ⟨connFail s d p, rfl, connFail_down s h⟩

theorem moduleFailures : Claims.ModuleFailures := by
  intro d p e s h
  cases failed : tget 0 s.pkg.modulesFailed (connKey d p) with
  | zero =>
    refine ⟨_, execUcieModuleFailure_first h failed, fun _ => ⟨?_, raise_mgt_logged .., ?_⟩, nofun⟩
    · rw [raise_pkg]
      simp [updPkg, markModule, tget_tset]
    · rw [raise_pkg]
      rfl
  | succ n => exact ⟨_, execUcieModuleFailure_more h failed, nofun, fun _ => connFail_down _ h⟩

theorem adapterRetryIsCounted : Claims.AdapterRetryIsCounted := by
  intro d p e s h
  obtain ⟨t, ht, changes⟩ := execUcieAdapterRetry_within (M := partMask [.regs] false) rfl d p s .refl
  refine ⟨t, ht, changes.onlyParts, ?_⟩
  have apart : rtrOff e MGT_RTR_HOP_RETRY_COUNT ≠ rtrOff d MGT_RTR_HOP_RETRY_COUNT :=
    fun same => neighbour_ne d.isLt h (rtrOff_injective same)
  simp only [execUcieAdapterRetry, h, Host.Outcome.next.injEq] at ht
  subst ht
  split
  · next mesh =>
    refine ⟨by simp [apart], fun _ => by simp [apart.symm], fun off hd he => by simp [hd.symm, he.symm]⟩
  · next ring =>
    refine ⟨by simp, fun mesh => absurd mesh ring, fun off hd _ => by simp [hd.symm]⟩

theorem routeWrite : Claims.RouteWrite := by
  intro f d first chainNet entries s new
  refine ⟨_, execRouteWrite_new new first chainNet entries, ?_, fun i hi hdst => ?_, fun k hk => ?_⟩
  · have written : OnlyParts [.pkg, .net] s
        (updPkg (tookMessage s d f) (markRoutes (writtenRoutes s.pkg.routes d first.toNat chainNet entries.toNat))) :=
      Within.onlyParts (back := false) (updPkg_within rfl (markRoutes_grows _) (.net .refl rfl))
    exact OnlyParts.trans written (rewriteEnds_parts _) (fun _ => id) (by decide)
  · rw [rewriteEnds_routes]
    exact writtenRoutes_at _ _ _ _ _ hi hdst
  · rw [rewriteEnds_routes]
    exact writtenRoutes_other _ _ _ _ _ hk

/-- Settles O9: the fence, the failure and the lost connection are marked and stay marked (R17, R350, R361); a module's failure is told by how
many failed before it; a retry is counted at two different routers; and ROUTE_WRITE is ten table writes with distinct keys. -/
theorem packageFailures : Obligations.PackageFailures :=
  ⟨dieAndConnectionFailures, moduleFailures, adapterRetryIsCounted, routeWrite⟩

end Sys2Proof.Machine
end

section
/-! PROOF. Reference time (02 R47 to R51): what an edge of the reference clock does to the clock alone, and that the counters of time that
follow the edge leave the clock as it is. -/

namespace Sys2Proof.Machine

open Sys2Proof Sys2Proof.Safety

/-! The clock at an edge (02 R49, R50). -/

/-- An edge absorbs at most 2/1000 ns of the offset. -/
theorem edgeClock_slew (k : Clock) (spread : Int) :
    (edgeClock k spread).slew = if k.slew > 2 then k.slew - 2 else if k.slew < -2 then k.slew + 2 else 0 := by
  simp only [edgeClock]
  grind

/-- Where the corrections make n steps of 10 ns, REFTIME takes them, and less than one step is left over. -/
theorem edgeClock_steps (k : Clock) (spread : Int) {n : Nat} (h : (10000 + (k.slew - (edgeClock k spread).slew) + spread + k.frac) / 10000 = n) :
    (edgeClock k spread).reftime = (k.reftime + 10 * n) % 2 ^ 64 ∧ 0 ≤ (edgeClock k spread).frac ∧ (edgeClock k spread).frac < 10000 := by
  simp only [edgeClock, Int.sub_sub_self] at h ⊢
  rw [h, Int.toNat_natCast]
  exact ⟨rfl, by omega, by omega⟩

/-- Without spread, slew or remainder an edge is 10 ns. -/
theorem edgeClock_steady {k : Clock} (slew : k.slew = 0) (frac : k.frac = 0) :
    (edgeClock k 0).reftime = (k.reftime + 10) % 2 ^ 64 ∧ (edgeClock k 0).frac = 0 := by
  simp [edgeClock, slew, frac]

/-- The counters of time that an edge moves leave the clock as it is. -/
theorem ticks_clock (s : State) (l : List Nat) : (deviceTick (each l s coreTick)).clock = s.clock :=
  calc (deviceTick (each l s coreTick)).clock
    _ = (each l s coreTick).clock := (deviceTick_within (M := 0x80081) rfl _ .refl).same .clock rfl
    _ = s.clock := each_keeps (·.clock) l s coreTick fun s c _ => (coreTick_within (M := 0x11) rfl s c .refl).same .clock rfl

/-- Of an edge the clock keeps what `edgeClock` makes of it. -/
theorem referenceClockEdge_clock (spread : Int) (s : State) :
    ∃ t, exec (.referenceClockEdge spread) s = .next t ∧ t.clock = edgeClock s.clock spread :=
  ⟨_, rfl, ticks_clock { s with clock := edgeClock s.clock spread } _⟩

/-! The statement's parts. -/

theorem reftimeLoad : Claims.ReftimeLoad := by
  intro v s
  refine ⟨fun locked => ?_, fun free ahead => ?_, fun free behind => ?_⟩ <;> refine congrArg Host.Outcome.next ?_
  · simp [loadTime, locked]
  · simp [loadTime, free, ahead]
  · simp [loadTime, free, Nat.not_le.mpr behind]

theorem referenceTime : Claims.ReferenceTime := by
  refine ⟨fun _ _ => rfl, fun s had => ?_, fun s lost => ?_, fun z s lost => ?_, fun z s had => ?_, fun d f v s new => ?_⟩
  · have started : execRefclkLost s = .next (raise { s with clock := { s.clock with refclkLost := true } } mgtDie 0x102 1 0 0 []) := by
      simp [execRefclkLost, had]
    exact ⟨_, started, (raise_within (M := 0x310000081) rfl _ mgtDie 0x102 1 0 0 [] .refl).same .clock rfl, raise_mgt_logged ..⟩
  · exact congrArg Host.Outcome.next (if_pos lost)
  · exact congrArg Host.Outcome.next (if_pos lost)
  · exact congrArg Host.Outcome.next (if_neg (by simp [had]))
  · have taken : execReftimeDistribution d f v s =
        .next { tookMessage s d f with clock := { s.clock with dieTime := tset s.clock.dieTime d v.toNat } } :=
      congrArg Host.Outcome.next (onChain_new _ new)
    exact ⟨_, taken, Within.onlyParts (l := [.clock, .net]) (back := false) (.clock (.net .refl rfl) rfl (Nat.le_refl _)), rfl⟩

theorem clockEdge : Claims.ClockEdge := by
  intro spread s
  obtain ⟨t, edge, clock⟩ := referenceClockEdge_clock spread s
  refine ⟨t, edge, (within_of_exec edge).onlyParts, fun noSpread slew frac => ?_, ?_, fun n steps => ?_⟩
  · rw [clock, noSpread]
    exact edgeClock_steady slew frac
  · rw [clock]
    exact edgeClock_slew s.clock spread
  · rw [clock] at steps ⊢
    exact edgeClock_steps s.clock spread steps

/-- Settles O11: loads, slews, losses and returns write the clock's fields alone; the loss is the management die's own event, logged at once
(R475); and an edge is `edgeClock`, whose division by 10,000 leaves the remainder to the next edge (R49, R50). That a load taken at once
leaves a running slew as it is, is the model's choice (log entry 84), and so is that REFTIME moves by whole tens of ns (log entry 30). -/
theorem referenceTimeKeeping : Obligations.ReferenceTimeKeeping := ⟨reftimeLoad, referenceTime, clockEdge⟩

end Sys2Proof.Machine
end

section
/-! PROOF. The governor (02 R34, R54 to R56): each rule of R54 writes one voltage, so the end of a window is told by where that voltage lies. -/

namespace Sys2Proof.Machine

open Sys2Proof Sys2Proof.Safety

/-! The floor (02 R34) depends on the junction temperature alone, and is at most 850 mV. -/

theorem vFloor_congr {s t : State} {c : Nat} (h : (core t c).temp = (core s c).temp) : vFloor t c = vFloor s c := by
  unfold vFloor
  rw [h]

/-- The highest voltage step is the highest floor. -/
theorem vFloor_le_top (s : State) (c : Nat) : vFloor s c ≤ 850 := by
  unfold vFloor
  generalize find : List.find? _ _ = v
  cases v with
  | none => exact Nat.le_refl _
  | some v =>
    obtain ⟨k, step, rfl⟩ := List.mem_map.mp (List.mem_of_find?_eq_some find)
    have : k < 41 := List.mem_range.mp step
    show 650 + 5 * k ≤ 850
    omega

/-! What the rules of R54 write. -/

theorem floorRule_below {s : State} {c : Nat} (h : (core s c).vcore < vFloor s c) :
    floorRule s c = some (updCore s c (fun x => { x with vcore := min 850 (x.vcore + 5), floorActed := true })) := if_pos h

theorem floorRule_above {s : State} {c : Nat} (h : vFloor s c ≤ (core s c).vcore) : floorRule s c = none := if_neg (Nat.not_lt.mpr h)

/-- Where R54 may move a core's voltage at the end of a window: by one step with the governor on, not below the floor where it was not, and to
850 mV with the governor off. -/
structure GovernedTo (s : State) (c v : Nat) : Prop where
  step : objNat s 0x201101 = 1 → v ≤ (core s c).vcore + 5 ∧ (core s c).vcore ≤ v + 5 ∨ 850 < (core s c).vcore
  floor : vFloor s c ≤ (core s c).vcore → vFloor s c ≤ v
  off : objNat s 0x201101 ≠ 1 → vFloor s c ≤ (core s c).vcore → pwrLimiting s = false → v = 850

/-- Of a core, the rules write the voltage and the marks of the rules that acted. -/
def Governed (s t : State) (c : Nat) : Prop :=
  ∃ v acted limited, core t c = { core s c with vcore := v, floorActed := acted, pwrLimited := limited } ∧ GovernedTo s c v

theorem governed_floorRaise {s : State} {c : Nat} (below : (core s c).vcore < vFloor s c) :
    Governed s (updCore s c (fun x => { x with vcore := min 850 (x.vcore + 5), floorActed := true })) c := by
  have top := vFloor_le_top s c
  exact ⟨min 850 ((core s c).vcore + 5), true, (core s c).pwrLimited, by simp,
    ⟨fun _ => .inl (by omega), fun above => by omega, fun _ above => by omega⟩⟩

/-- A step down, where the governor is on or the power limiter asks for it. -/
theorem governed_lowerStep {s : State} {c : Nat} (above : vFloor s c ≤ (core s c).vcore)
    (asked : objNat s 0x201101 = 1 ∨ pwrLimiting s = true) : Governed s (lowerStep s c) c :=
  ⟨max (vFloor s c) ((core s c).vcore - 5), (core s c).floorActed, (core s c).pwrLimited, by simp [lowerStep],
    ⟨fun _ => .inl (by omega), fun _ => by omega, fun off _ quiet => by simp_all⟩⟩

theorem governed_raiseStep {s : State} {c : Nat} (on : objNat s 0x201101 = 1) : Governed s (raiseStep s c) c := by
  have top := vFloor_le_top s c
  exact ⟨min 850 ((core s c).vcore + 5), (core s c).floorActed, (core s c).pwrLimited, by simp [raiseStep],
    ⟨fun _ => by omega, fun _ => by omega, fun off => absurd on off⟩⟩

theorem governed_off {s : State} {c : Nat} (off : objNat s 0x201101 ≠ 1) : Governed s (updCore s c (fun x => { x with vcore := 850 })) c :=
  ⟨850, (core s c).floorActed, (core s c).pwrLimited, by simp,
    ⟨fun on => absurd on off, fun _ => vFloor_le_top s c, fun _ _ _ => rfl⟩⟩

theorem governed_held {s : State} {c : Nat} (on : objNat s 0x201101 = 1) : Governed s s c :=
  ⟨(core s c).vcore, (core s c).floorActed, (core s c).pwrLimited, rfl, ⟨fun _ => .inl (by omega), id, fun off => absurd on off⟩⟩

theorem Governed.limited {s t : State} {c : Nat} (h : Governed s t c) : Governed s (updCore t c (fun x => { x with pwrLimited := true })) c := by
  obtain ⟨v, acted, limited, core_eq, v_ok⟩ := h
  exact ⟨v, acted, true, by simp [core_eq], v_ok⟩

/-- The rules of R54 in their order, each by its own lemma. -/
theorem governor_governed (s : State) (c : Nat) : Governed s (governor s c) c := by
  unfold governor
  dsimp only
  by_cases below : (core s c).vcore < vFloor s c
  · rw [floorRule_below below]
    exact governed_floorRaise below
  have above : vFloor s c ≤ (core s c).vcore := Nat.not_lt.mp below
  rw [floorRule_above above]
  dsimp only
  split
  next limiting => exact (governed_lowerStep above (.inr limiting)).limited
  next =>
    split
    next off => exact governed_off (by simpa using off)
    next notOff =>
      have on : objNat s 0x201101 = 1 := by simpa using notOff
      split
      next idle => exact governed_lowerStep above (.inl on)
      next =>
        split
        next slow => exact governed_lowerStep above (.inl on)
        next =>
          split
          next limited => exact governed_raiseStep on
          next => exact governed_held on

/-- They write no other core. -/
theorem governor_other (s : State) {c d : Nat} (h : d ≠ c) : core (governor s c) d = core s d := by
  unfold governor floorRule
  grind [lowerStep, raiseStep, core_updCore]

/-! The statement's parts. -/

theorem floorCheck : Claims.FloorCheck := by
  intro c s
  refine ⟨_, rfl, fun above => ?_, fun below => ⟨(within_of_exec (c := .floorCheck c) rfl).onlyParts, ?_⟩⟩
  · rw [floorRule_above above]
    rfl
  · rw [floorRule_below below]
    exact ⟨fun d other => by simp [other.symm], by simp⟩

/-- The window goes on until 10 microseconds of REFTIME have passed (02 R54). -/
theorem governorWindowEnd_early {c : CoreId} {s : State} (early : now s < (core s c).winSince + 10000) :
    execGovernorWindowEnd c s = .next s := congrArg Host.Outcome.next (if_pos early)

/-- The state on which the rules act: the mark that the power limiter acted is cleared first. -/
def unmarked (s : State) (c : Nat) : State := updCore s c (fun x => { x with pwrLimited := false })

/-- The voltages that the rules allow do not depend on that mark. -/
theorem governedTo_unmarked {s : State} {c v : Nat} (h : GovernedTo (unmarked s c) c v) : GovernedTo s c v := by
  have floor : vFloor (unmarked s c) c = vFloor s c := vFloor_congr (by simp [unmarked])
  obtain ⟨step, keeps, off⟩ := h
  rw [floor] at keeps off
  simp only [unmarked, core_updCore, if_true] at step keeps off
  exact ⟨step, keeps, off⟩

/-- The record of the window that ends at a moment, and the new window (02 R54, R536; 01 R10). -/
def windowClosed (t : Nat) (x : Core) : Core :=
  { x with floorRaise := x.floorActed, floorActed := false, paceMeas := x.winStitches / 10, winState := dominant x.shares
           shares := [0, 0, 0, 0], winStitches := 0, winSince := t }

/-- At its end the core has a voltage of the rules, and the record of the window. -/
theorem governorWindowEnd_ends {c : CoreId} {s : State} (ends : (core s c).winSince + 10000 ≤ now s) :
    ∃ t v acted limited, execGovernorWindowEnd c s = .next t ∧ GovernedTo s c v ∧ (∀ d, d ≠ c.val → core t d = core s d) ∧
      core t c = windowClosed (now s) { core s c with vcore := v, floorActed := acted, pwrLimited := limited } := by
  let u := governor (unmarked s c) c
  have late : execGovernorWindowEnd c s = .next (updCore u c (windowClosed (now u))) :=
    congrArg Host.Outcome.next (if_neg (Nat.not_lt.mpr ends))
  have time : now u = now s := congrArg Clock.reftime ((governor_within (M := 0x10) rfl (unmarked s c) c .refl).same .clock rfl)
  obtain ⟨v, acted, limited, ruled, v_ok⟩ := governor_governed (unmarked s c) c
  refine ⟨_, v, acted, limited, late, governedTo_unmarked v_ok, fun d other => ?_, ?_⟩
  · rw [core_updCore, if_neg other.symm, governor_other _ other]
    simp [unmarked, other.symm]
  · rw [core_updCore, if_pos rfl, time, ruled]
    simp [unmarked]

theorem governorWindow : Claims.GovernorWindow := by
  intro c s
  by_cases early : now s < (core s c).winSince + 10000
  · have same := governorWindowEnd_early early
    exact ⟨s, same, fun p _ => by cases p <;> rfl, fun _ _ => rfl, fun _ => rfl, fun ends => absurd early (Nat.not_lt.mpr ends)⟩
  · obtain ⟨t, v, acted, limited, ended, ⟨step, floor, off⟩, others, record⟩ := governorWindowEnd_ends (Nat.not_lt.mp early)
    refine ⟨t, ended, (within_of_exec (c := .governorWindowEnd c) ended).onlyParts, others, fun h => absurd h early, fun _ => ?_⟩
    rw [record]
    exact ⟨rfl, rfl, rfl, rfl, rfl, step, floor, off⟩

/-- Settles O12: the floor's rule is R54's first; at a window's end each of the rules writes one voltage, and `GovernedTo` holds of it. That a
governor that is off sets 850 mV at once, where R54 moves one step at most, is the reading of log entry 31. -/
theorem governorSteps : Obligations.GovernorSteps := ⟨floorCheck, governorWindow⟩

end Sys2Proof.Machine
end

section
/-! PROOF. A stitch of a core (02 R32, R37, R43; 08 R195, R208): which of its outcomes it has, what a stall writes, and what the items of
a stitch do on a core without a task. -/

namespace Sys2Proof.Machine

open Sys2Proof Sys2Proof.Safety

/-! The outcomes of a stitch (02 R32, R37). -/

/-- Nothing but a handshake or a credit holds the core's stitches. -/
def TakesStitches (s : State) (c : Nat) : Prop :=
  coreActive s c = true ∧ (core s c).halted = false ∧ issueWait s c = false ∧ passWait (core s c) = false

theorem TakesStitches.guard {s : State} {c : Nat} (free : TakesStitches s c) :
    ¬ (!coreActive s c || (core s c).halted || issueWait s c || passWait (core s c)) = true := by
  obtain ⟨active, running, issued, passed⟩ := free
  simp [active, running, issued, passed]

theorem execStitch_held {c : CoreId} {s : State} (items : List StageItem) (held : ¬ TakesStitches s c) : execStitch c items s = .next s := by
  refine congrArg Host.Outcome.next (if_pos ?_)
  rw [TakesStitches] at held
  grind

theorem execStitch_pending {c : CoreId} {s : State} {items : List StageItem} {p : Nat × Option Nat} (free : TakesStitches s c)
    (pending : pendingOf s c ((core s c).heldItems ++ items) = some p) : execStitch c items s = .next (beginStall s c p) := by
  rw [execStitch, if_neg free.guard]
  simp only [pending]

theorem execStitch_uncredited {c : CoreId} {s : State} {items : List StageItem} (free : TakesStitches s c)
    (ready : pendingOf s c ((core s c).heldItems ++ items) = none) (poor : (core s c).credits < 4) : execStitch c items s = .next s := by
  rw [execStitch, if_neg free.guard]
  simp only [ready, poor, if_true]

/-! What a stall writes (02 R32, R43). -/

/-- The row that is awaited is due. -/
def awaitedDue (s : State) (c : Nat) (p : Nat × Option Nat) : Bool := match p.2 with
  | some i => rowDue s c i
  | none => false

/-- The waits of a core: its stall, and the episodes whose rows are not accepted. -/
def openWaits (x : Core) : List Stall := x.stall.toList ++ x.episodes

/-- A wait is for this resource and stream. -/
def sameWait (p : Nat × Option Nat) (x : Stall) : Bool := x.resource == p.1 && x.stream == p.2

/-- The episodes that stay open when a core begins to wait. -/
def keptWaits (x : Core) (p : Nat × Option Nat) : List Stall := (openWaits x).filter (fun w => w.stream.isSome && !sameWait p w)

/-- The stall in which a core begins to wait: a wait for the same goes on, as an overrun once its row is due. -/
def begunStall (s : State) (c : Nat) (p : Nat × Option Nat) : Stall :=
  let w := ((openWaits (core s c)).find? (sameWait p)).getD ⟨p.1, p.2, now s, false, false, 0⟩
  { w with scheduled := w.scheduled || awaitedDue s c p }

theorem core_beginStall (s : State) (c : Nat) (p : Nat × Option Nat) :
    core (beginStall s c p) c = { core s c with stall := some (begunStall s c p), episodes := keptWaits (core s c) p } :=
  (core_updCore ..).trans (if_pos rfl)

theorem beginStall_other (s : State) {c d : Nat} (p : Nat × Option Nat) (h : d ≠ c) : core (beginStall s c p) d = core s d :=
  (core_updCore ..).trans (if_neg h.symm)

theorem beginStall_parts (s : State) (c : Nat) (p : Nat × Option Nat) : OnlyParts [.cores] s (beginStall s c p) := by
  unfold beginStall
  exact Within.onlyParts (back := false) (updCore_within rfl s c _ .refl)

theorem begunStall_new {s : State} {c : Nat} {p : Nat × Option Nat} (new : (openWaits (core s c)).find? (sameWait p) = none) :
    begunStall s c p = ⟨p.1, p.2, now s, awaitedDue s c p, false, 0⟩ := by
  simp [begunStall, new]

theorem begunStall_again {s : State} {c : Nat} {p : Nat × Option Nat} {x : Stall} (again : (openWaits (core s c)).find? (sameWait p) = some x) :
    begunStall s c p = { x with scheduled := x.scheduled || awaitedDue s c p } := by
  simp [begunStall, again]

/-! A stitch of an idle core (02 R37). -/

/-- A core without a task, a stall or an open episode, that has a credit and no item left from its last stitch. -/
structure IdleStitch (s : State) (c : Nat) : Prop where
  free : TakesStitches s c
  credit : 4 ≤ (core s c).credits
  idle : (core s c).task = none
  moving : (core s c).stall = none
  settled : (core s c).episodes = []
  unheld : (core s c).heldItems = []

/-- A core without a task has no lanes, and waits for what the items wait for. -/
theorem pendingOf_idle {s : State} {c : Nat} (idle : (core s c).task = none) (items : List StageItem) :
    pendingOf s c items = (items.findSome? (itemPending s c)).or (produceWait s c items) := by
  simp [pendingOf, idle]

/-- The stall that it begins is the only one. -/
theorem IdleStitch.core_stalls {s : State} {c : Nat} (h : IdleStitch s c) (r : Nat) :
    core (beginStall s c (r, none)) c = { core s c with stall := some ⟨r, none, now s, false, false, 0⟩ } := by
  have none_open : openWaits (core s c) = [] := by simp [openWaits, h.moving, h.settled]
  have none_kept : keptWaits (core s c) (r, none) = (core s c).episodes := by simp [keptWaits, none_open, h.settled]
  rw [core_beginStall, begunStall_new (by simp [none_open]), none_kept]
  rfl

theorem IdleStitch.stalls {s : State} {c : CoreId} (h : IdleStitch s c) {items : List StageItem} {r : Nat}
    (pending : items.findSome? (itemPending s c) = some (r, none)) :
    ∃ t, execStitch c items s = .next t ∧ core t c = { core s c with stall := some ⟨r, none, now s, false, false, 0⟩ } ∧
      OnlyParts [.cores] s t := by
  refine ⟨_, execStitch_pending h.free (p := (r, none)) ?_, h.core_stalls r, beginStall_parts s c _⟩
  rw [h.unheld, List.nil_append, pendingOf_idle h.idle, pending]
  rfl

/-- The stitch as the core takes it, before its items: the credits it uses, its counts, and the items it leaves for the next one. -/
def stitchTaken (s : State) (c : Nat) (held : List StageItem) : State :=
  bumpCore (updCore (bumpCore (endStall s c) c SPM_BANK_WAIT_COUNT held.length) c (fun x =>
    { x with credits := x.credits - 4, winStitches := x.winStitches + 1, lastFormatFault := none, heldItems := held })) c CORE_STITCH_COUNT 1

theorem IdleStitch.endStall_eq {s : State} {c : Nat} (h : IdleStitch s c) :
    endStall s c = updCore s c (fun x => { x with stall := none, episodes := [] }) := by
  simp [endStall, each, h.moving, h.settled]

theorem IdleStitch.core_taken {s : State} {c : Nat} (h : IdleStitch s c) (held : List StageItem) : core (stitchTaken s c held) c =
    { core s c with credits := (core s c).credits - 4, winStitches := (core s c).winStitches + 1, lastFormatFault := none, heldItems := held } := by
  simp [stitchTaken, h.endStall_eq, ← h.moving, ← h.settled]

theorem IdleStitch.taken_within {s : State} {c : Nat} (h : IdleStitch s c) (held : List StageItem) :
    Within (partMask [.regs, .cores] false) s (stitchTaken s c held) := by
  rw [stitchTaken, h.endStall_eq]
  exact bumpCore_within rfl _ c _ _ (updCore_within rfl _ c _ (bumpCore_within rfl _ c _ _ (updCore_within rfl s c _ .refl)))

theorem IdleStitch.reg_taken {s : State} {c : Nat} (h : IdleStitch s c) (held : List StageItem) (off : Nat) :
    reg (stitchTaken s c held) off =
      if off = coreOff c CORE_STITCH_COUNT then (reg s off + 1) % 2 ^ 64
      else if off = coreOff c SPM_BANK_WAIT_COUNT then (reg s off + held.length) % 2 ^ 64 else reg s off := by
  have apart : coreOff c SPM_BANK_WAIT_COUNT ≠ coreOff c CORE_STITCH_COUNT := by simp [coreOff, SPM_BANK_WAIT_COUNT, CORE_STITCH_COUNT]
  rw [stitchTaken, h.endStall_eq]
  split
  next stitch => simp [stitch, apart]
  next noStitch =>
    split
    next wait => simp [wait, apart.symm]
    next noWait => simp [Ne.symm noStitch, Ne.symm noWait]

/-- A core without a task finishes nothing at the end of a stitch. -/
theorem stitchEnd_idle {s : State} {c : Nat} (idle : (core s c).task = none) : copyEnd (spanEnd (settleFormat s c) c) c = s := by
  have format : settleFormat s c = s := by
    unfold settleFormat
    split
    · rfl
    · exact faultCore_idle s c _ _ _ _ idle
  simp [format, spanEnd, copyEnd, idle]

/-- With no handshake pending the core takes the stitch, and its items in the order of their banks. -/
theorem IdleStitch.takes {s : State} {c : CoreId} (h : IdleStitch s c) {items go held : List StageItem}
    (ready : pendingOf s c items = none) (order : bankOrder (endStall s c) c [] items = (go, held))
    (idle : (core (each go (stitchTaken s c held) (fun s x => takeItem s c x)) c).task = none) :
    execStitch c items s = .next (each go (stitchTaken s c held) (fun s x => takeItem s c x)) := by
  have lanes : laneStitch (stitchTaken s c held) c = stitchTaken s c held := by simp [laneStitch, h.core_taken, h.idle]
  rw [execStitch, if_neg h.free.guard]
  simp only [h.unheld, List.nil_append, ready, if_neg (Nat.not_lt.mpr h.credit), order]
  refine congrArg Host.Outcome.next ?_
  refine Eq.trans ?_ (stitchEnd_idle idle)
  exact congrArg (fun u => copyEnd (spanEnd (settleFormat (each go u (fun s x => takeItem s c x)) c) c) c) lanes

/-! What its items wait for, and what they do (02 R32; 08 R195, R199, R206, R208). -/

/-- Credits and counts of a stitch taken (02 R37). -/
def TookStitch (s t : State) (c : Nat) : Prop :=
  reg t (coreOff c CORE_STITCH_COUNT) = (reg s (coreOff c CORE_STITCH_COUNT) + 1) % 2 ^ 64 ∧
    (core t c).credits = (core s c).credits - 4 ∧ (core t c).winStitches = (core s c).winStitches + 1

theorem IdleStitch.took {s : State} {c : Nat} (h : IdleStitch s c) (held : List StageItem) : TookStitch s (stitchTaken s c held) c :=
  ⟨by rw [h.reg_taken, if_pos rfl], by rw [h.core_taken], by rw [h.core_taken]⟩

theorem TookStitch.updCore {s t : State} {c : Nat} (h : TookStitch s t c) (f : Core → Core)
    (keeps : (f (core t c)).credits = (core t c).credits ∧ (f (core t c)).winStitches = (core t c).winStitches) :
    TookStitch s (updCore t c f) c := by
  obtain ⟨count, credits, stitches⟩ := h
  exact ⟨count, by simpa [keeps.1] using credits, by simpa [keeps.2] using stitches⟩

/-- An item that names no bank waits for none. -/
theorem bankOrder_single (s : State) (c : Nat) (x : StageItem) : bankOrder s c [] [x] = ([x], []) := by
  simp [bankOrder]

/-- Of two reads of a row, the second waits for the bank. -/
theorem bankOrder_sameRow (s : State) (c : Nat) (m : Fin 3) (row : Nat) (a b : Bool) :
    bankOrder s c [] [.readRow m row a, .readRow m row b] = ([.readRow m row a], [.readRow m row b]) := by
  simp [bankOrder, itemBanks]

theorem itemPending_issue (s : State) (c : Nat) (r w : List (Fin 3 × Nat × Nat)) :
    itemPending s c (.scoreboardIssue r w) = if sbWaits s c (r.take 4) (w.take 2) then some (resScoreboard, none) else none := rfl

theorem itemPending_done (s : State) (c e : Nat) : itemPending s c (.scoreboardDone e) = none := by
  show (if sbWaits s c [] [] then some (resScoreboard, none) else none) = none
  simp [sbWaits]

theorem itemPending_full {s : State} {c : Nat} {m : Fin 3} {r : RegionId} (data : List Byte) (full : regionFull s c m r = true) :
    itemPending s c (.produce m r data) = some (resRegionFull, none) := by
  show (if regionFull s c m r then some (resRegionFull, none) else none).or _ = _
  rw [full]
  rfl

theorem itemPending_read {s : State} {c : Nat} {m : Fin 3} {row : Nat} (fails : Bool) (idle : (core s c).task = none)
    (quiet : sbWaits s c [(m, row, 1)] [] = false) (whole : ¬ (m.val = 0 ∧ (core s c).reloads.contains row = true)) :
    itemPending s c (.readRow m row fails) = none := by
  have written : unwritten s c m row = false := by simp [unwritten, idle]
  have loaded : (m.val == 0 && (core s c).reloads.contains row) = false := by simpa using whole
  have unqueued : rowQueue s c m row = none := by simp [rowQueue, idle]
  show (if unwritten s c m row then some (resRegionEmpty, none) else if m.val == 0 && (core s c).reloads.contains row then some (resRow, none)
    else (rowQueue s c m row).map _).or (if sbWaits s c [(m, row, 1)] [] then _ else _) = _
  rw [written, loaded, unqueued, quiet]
  rfl

/-- A read of a row that is powered, whose detection word holds, and of which no buffer holds a part, changes nothing. -/
theorem readRow_clean {s : State} {c m row : Nat} (powered : bankPowered s c m (row / memBankRows m) = true) (unbuffered : (core s c).gb = [])
    (good : (core s c).badRows.contains (rowKey m row) = false) : readRow s c m row false = s := by
  have unflushed : flushRow s c m row false = s := by simp [flushRow, gbFind, unbuffered]
  simp only [readRow, powered, unflushed, good]
  rfl

theorem core_sbIssue (s : State) (c : Nat) (reads writes : List (Fin 3 × Nat × Nat)) :
    (core (sbIssue s c reads writes) c).sb.length = (core s c).sb.length + reads.length + writes.length := by
  simp [sbIssue, Nat.add_assoc]

theorem core_sbDone (s : State) (c e : Nat) : core (sbDone s c e) c = { core s c with sb := (core s c).sb.filter (fun z => z.id != e) } := by
  simp [sbDone]

theorem TookStitch.issue {s t : State} {c : Nat} (h : TookStitch s t c) (reads writes : List (Fin 3 × Nat × Nat)) :
    TookStitch s (sbIssue t c reads writes) c := h.updCore _ ⟨rfl, rfl⟩

theorem TookStitch.done {s t : State} {c : Nat} (h : TookStitch s t c) (e : Nat) : TookStitch s (sbDone t c e) c := h.updCore _ ⟨rfl, rfl⟩

/-- The banks are powered as before the stitch. -/
theorem IdleStitch.powered_taken {s : State} {c : Nat} (h : IdleStitch s c) (held : List StageItem) (m b : Nat) :
    bankPowered (stitchTaken s c held) c m b = bankPowered s c m b := by
  have same (off : Nat) (stitch : off ≠ CORE_STITCH_COUNT) (wait : off ≠ SPM_BANK_WAIT_COUNT) :
      coreReg (stitchTaken s c held) c off = coreReg s c off := by
    rw [coreReg, h.reg_taken, if_neg (by simpa [coreOff] using stitch), if_neg (by simpa [coreOff] using wait)]
    rfl
  simp only [bankPowered, same SPM_PWR_MAP_W (by decide) (by decide), same SPM_PWR_MAP_AP (by decide) (by decide)]

/-! The statement's parts: a stitch of each kind on such a core. -/

section

variable {s : State} {c : CoreId} (h : IdleStitch s c)
include h

theorem IdleStitch.takes_nothing :
    ∃ t, execStitch c [] s = .next t ∧ TookStitch s t c ∧ OnlyParts [.regs, .cores] s t := by
  have ready : pendingOf s c [] = none := pendingOf_idle h.idle []
  exact ⟨_, h.takes ready rfl (by simp [each, h.core_taken, h.idle]), h.took [], (h.taken_within []).onlyParts⟩

theorem IdleStitch.takes_done (e : Nat) :
    ∃ t, execStitch c [.scoreboardDone e] s = .next t ∧ TookStitch s t c ∧
      (core t c).sb = (core s c).sb.filter (fun z => z.id != e) ∧ OnlyParts [.regs, .cores] s t := by
  have ready : pendingOf s c [.scoreboardDone e] = none := by
    rw [pendingOf_idle h.idle, List.findSome?_singleton, itemPending_done]
    rfl
  refine ⟨_, h.takes ready (bankOrder_single ..) ?_, (h.took []).done e, ?_, (sbDone_within rfl _ c e (h.taken_within [])).onlyParts⟩
  · simp [each, takeItem, core_sbDone, h.core_taken, h.idle]
  · simp [each, takeItem, core_sbDone, h.core_taken]

theorem IdleStitch.takes_issue {r w : List (Fin 3 × Nat × Nat)} (quiet : sbWaits s c (r.take 4) (w.take 2) = false) :
    ∃ t, execStitch c [.scoreboardIssue r w] s = .next t ∧ TookStitch s t c ∧
      (core t c).sb.length = (core s c).sb.length + min 4 r.length + min 2 w.length ∧ OnlyParts [.regs, .cores] s t := by
  have ready : pendingOf s c [.scoreboardIssue r w] = none := by
    rw [pendingOf_idle h.idle, List.findSome?_singleton, itemPending_issue, quiet]
    rfl
  refine ⟨_, h.takes ready (bankOrder_single ..) ?_, (h.took []).issue _ _, ?_, (sbIssue_within rfl _ c _ _ (h.taken_within [])).onlyParts⟩
  · simp [each, takeItem, sbIssue, h.core_taken, h.idle]
  · refine (core_sbIssue ..).trans ?_
    rw [h.core_taken, List.length_take, List.length_take]

theorem IdleStitch.takes_read {m : Fin 3} {row : Nat} (powered : bankPowered s c m (row / memBankRows m) = true)
    (quiet : sbWaits s c [(m, row, 1)] [] = false) (whole : ¬ (m.val = 0 ∧ (core s c).reloads.contains row = true))
    (good : (core s c).badRows.contains (rowKey m row) = false) (unbuffered : (core s c).gb = []) :
    ∃ t, execStitch c [.readRow m row false, .readRow m row false] s = .next t ∧ TookStitch s t c ∧ OnlyParts [.regs, .cores] s t ∧
      (core t c).heldItems = [.readRow m row false] ∧
      coreReg t c SPM_BANK_WAIT_COUNT = (coreReg s c SPM_BANK_WAIT_COUNT + 1) % 2 ^ 64 := by
  have ready : pendingOf s c [.readRow m row false, .readRow m row false] = none := by
    rw [pendingOf_idle h.idle]
    simp [itemPending_read false h.idle quiet whole, produceWait]
  have read : each [.readRow m row false] (stitchTaken s c [.readRow m row false]) (fun s x => takeItem s c x) =
      stitchTaken s c [.readRow m row false] :=
    readRow_clean (by rw [h.powered_taken]; exact powered) (by rw [h.core_taken]; exact unbuffered) (by rw [h.core_taken]; exact good)
  have taken := h.takes ready (bankOrder_sameRow ..) (by rw [read, h.core_taken]; exact h.idle)
  rw [read] at taken
  refine ⟨_, taken, h.took _, (h.taken_within _).onlyParts, by rw [h.core_taken], ?_⟩
  rw [coreReg, h.reg_taken, if_neg (by simp [coreOff, SPM_BANK_WAIT_COUNT, CORE_STITCH_COUNT]), if_pos rfl]
  rfl

end

theorem stitch : Claims.Stitch := by
  intro c s free due waits same kept
  refine ⟨execStitch_held, fun items p free pending => ?_, fun items ready poor => ?_,
    fun free credit idle moving settled unheld => ?_⟩
  · refine ⟨_, execStitch_pending free pending, beginStall_parts s c p, fun d other => beginStall_other s p other,
      fun new => ?_, fun x again => ?_⟩
    · rw [core_beginStall, begunStall_new new]
      rfl
    · rw [core_beginStall, begunStall_again again]
      rfl
  · by_cases takes : TakesStitches s c
    · exact execStitch_uncredited takes ready poor
    · exact execStitch_held items takes
  · have h : IdleStitch s c := ⟨free, credit, idle, moving, settled, unheld⟩
    exact ⟨h.takes_nothing, h.takes_done, fun r w quiet => h.takes_issue quiet,
      fun r w busy => h.stalls (by rw [List.findSome?_singleton, itemPending_issue, busy]; rfl),
      fun m r data full => h.stalls (by rw [List.findSome?_singleton, itemPending_full data full]),
      fun m row powered quiet whole good unbuffered => h.takes_read powered quiet whole good unbuffered⟩

end Sys2Proof.Machine
end

section
/-! PROOF. Stalls that last too long (02 R46; 15 R378; 16 R414; 09 R246): each of the waits is marked as reported, and its die raises event
0x0202 (19 R474). -/

namespace Sys2Proof.Machine

open Sys2Proof Sys2Proof.Safety

/-- A wait since a moment has lasted longer than 0x2014:02 microseconds. -/
def LongWait (s : State) (since : Nat) : Prop := objNat s 0x201402 * 1000 < now s - since

theorem LongWait.decide {s : State} {since : Nat} (h : LongWait s since) : decide (objNat s 0x201402 * 1000 < now s - since) = true :=
  decide_eq_true h

/-! Each wait that is long and was not reported (log entry 15 for the codes of what is awaited). -/

theorem longStall_core {c : CoreId} {st : Stall} {s : State} (stalled : (core s c).stall = some st) (new : st.reported = false)
    (long : LongWait s st.since) : ∃ n, execLongStallEvent (.core c) s =
      .next (raise (updCore s c (fun x => { x with stall := some { st with reported := true } })) (coreDie c) 0x202 1 n c [c, st.resource]) := by
  simp only [execLongStallEvent, stalled, new, long.decide]
  exact ⟨_, rfl⟩

theorem longStall_issue {c : CoreId} {w : CoreTask} {s : State} (free : (core s c).stall = none) (task : (core s c).task = some w)
    (waits : issueWait s c = true) (new : (slotOf s w.slot).reported = false) (long : LongWait s (slotOf s w.slot).since) :
    execLongStallEvent (.core c) s =
      .next (raise (updSlot s w.slot (fun x => { x with reported := true })) (coreDie c) 0x202 1 w.strand c [c, resWait]) := by
  refine congrArg Host.Outcome.next ?_
  simp only [free, task, waits, new, long.decide]
  rfl

theorem longStall_unsent {n : StrandId} {m : SentMsg} {s : State} (waits : s.unsent.find? (fun m => m.strand == n.val && !m.reported) = some m)
    (long : LongWait s m.since) : ∃ l, execLongStallEvent (.strand n) s =
      .next (raise { s with unsent := l } m.die 0x202 1 n 0 [n, resPort]) := by
  simp only [execLongStallEvent, waits, long.decide]
  exact ⟨_, rfl⟩

theorem longStall_barrier {k : SlotId} {s : State} (busy : (slotOf s k).busy = true) (barrier : (slotOf s k).opcode = opBarrier)
    (waits : (slotOf s k).written = false) (new : (slotOf s k).reported = false) (long : LongWait s (slotOf s k).since) :
    execLongStallEvent (.barrier k) s =
      .next (raise (updSlot s k (fun x => { x with reported := true })) hstDie 0x202 1 (slotOf s k).strand 0 [k, resBarrier]) := by
  refine congrArg Host.Outcome.next ?_
  simp only [busy, barrier, waits, new, long.decide]
  rfl

/-- A core that waits for nothing has no long stall. -/
theorem longStall_none {c : CoreId} {s : State} (free : (core s c).stall = none) (issues : issueWait s c = false) :
    execLongStallEvent (.core c) s = .next s := by
  refine congrArg Host.Outcome.next ?_
  simp only [free, issues, Bool.false_and, Bool.false_eq_true, if_false]
  split <;> rfl

theorem longStalls : Claims.LongStalls := by
  refine ⟨fun c st s stalled new long => ?_, fun n m s waits away long => ?_, fun k s busy barrier waits new long => ?_,
    fun c w s free task waits new long => ?_, fun c s free issues => longStall_none free issues⟩
  · obtain ⟨n, told⟩ := longStall_core stalled new long
    have away := coreDie_ne_mgt c c.isLt
    exact ⟨_, told, raise_sentEvent s _ _ _ _ _ _ _ away rfl rfl, by rw [raise_sends _ _ _ _ _ _ _ away]; simp⟩
  · obtain ⟨l, told⟩ := longStall_unsent waits long
    exact ⟨_, told, raise_sentEvent s _ _ _ _ _ _ _ away rfl rfl⟩
  · have away : hstDie ≠ mgtDie := by decide
    exact ⟨_, longStall_barrier busy barrier waits new long, raise_sentEvent s _ _ _ _ _ _ _ away rfl rfl,
      by rw [raise_sends _ _ _ _ _ _ _ away]; simp⟩
  · have away := coreDie_ne_mgt c c.isLt
    exact ⟨_, longStall_issue free task waits new long, raise_sentEvent s _ _ _ _ _ _ _ away rfl rfl,
      by rw [raise_sends _ _ _ _ _ _ _ away]; simp, by rw [raise_sends _ _ _ _ _ _ _ away]; simp⟩

/-- Settles O21: a stitch has one of four outcomes, in the order of `execStitch`, and on an idle core its items do what they name; every long
wait raises one event, since what waits is marked as reported. The codes of what is awaited, and that the first stage that waits names the
stall, are the model's choice (log entry 15), and so are the event's arguments (log entry 46). -/
theorem stitchesAndStalls : Obligations.StitchesAndStalls := ⟨stitch, longStalls⟩

end Sys2Proof.Machine
end

section
/-! PROOF. Pace shares (02 R59): a write of a value out of an object's range is refused on every path (19 R463). -/

namespace Sys2Proof.Machine

open Sys2Proof Sys2Proof.Safety

/-- A value that fits a writable object which takes no segments, and lies outside its range, is refused (19 R463). -/
theorem writeObj_outOfRange {s : State} {o : Obj} {v : List Byte} (writable : writeDenied s o = 0) (fits : valueFits o v = true)
    (small : isLarge o = false) (out : rangeOk o.key (leNat v) = false) : writeObj s o v = (stValueOutOfRange, s) := by
  simp [writeObj, writable, fits, small, out]

/-- A WRITE of an object that takes no segments, with its TYPE or none, answers what the write of the value does (19 R463, R465). -/
theorem execWrite_refused {path : DictPath} {index : BitVec 16} {sub type : Byte} {v : List Byte} {s : State} {o : Obj} {status : Nat}
    (up : pathUp s path = true) (short : v.length ≤ 1024) (named : dictObj (index.toNat * 256 + sub.toNat) = some o)
    (typed : type.toNat = 0 ∨ type.toNat = o.type) (small : isLarge o = false) (refused : writeObj s o v = (status, s)) :
    execWrite path index sub type v s =
      .next (replies s path ⟨2, false, type.toNat, index.toNat, sub.toNat, v.length, 0, 0, v, []⟩ status o.type []) := by
  have typeOk : ¬ (type.toNat ≠ 0 ∧ type.toNat ≠ o.type) := by omega
  have lenOk : ¬ 1024 < v.length := Nat.not_lt.mpr short
  simp [execWrite, dictRequest, dictApply, onObject, replies, up, named, typeOk, lenOk, small, refused]

/-- The shares of the governor are writable bytes (02, the object table). -/
theorem dictObj_paceShare {sub : Byte} (h : sub ∈ [2#8, 3#8, 4#8]) : ∃ o, dictObj (0x2011 * 256 + sub.toNat) = some o ∧
    o.key = 0x2011 * 256 + sub.toNat ∧ o.type = 2 ∧ o.size = 1 ∧ o.access = .rws := by
  simp only [List.mem_cons, List.not_mem_nil, or_false] at h
  rcases h with rfl | rfl | rfl
  · exact ⟨⟨0x201102, 2, 1, .rws, 30⟩, by decide +kernel, rfl, rfl, rfl, rfl⟩
  · exact ⟨⟨0x201103, 2, 1, .rws, 20⟩, by decide +kernel, rfl, rfl, rfl, rfl⟩
  · exact ⟨⟨0x201104, 2, 1, .rws, 60⟩, by decide +kernel, rfl, rfl, rfl, rfl⟩

/-- A share is a percentage (02 R59). -/
theorem rangeOk_paceShare {sub : Byte} (h : sub ∈ [2#8, 3#8, 4#8]) (n : Nat) : rangeOk (0x2011 * 256 + sub.toNat) n = decide (n ≤ 100) := by
  simp only [List.mem_cons, List.not_mem_nil, or_false] at h
  rcases h with rfl | rfl | rfl <;> simp [rangeOk, inRange]

/-- Settles O36: each of the three objects is a writable byte that takes no segments, so its range alone refuses the value, whatever the state
and the path (R59). -/
theorem paceSharesRefused : Obligations.PaceSharesRefused := by
  intro path sub type v s up share len above typed
  obtain ⟨o, named, key, octet, size, right⟩ := dictObj_paceShare share
  have refused : writeObj s o v = (stValueOutOfRange, s) :=
    writeObj_outOfRange (by simp [writeDenied, right]) (by simp [valueFits, octet, anyLength, key, size, len])
      (by simp [isLarge, size]) (by rw [key, rangeOk_paceShare share]; simpa using above)
  have answered : execWrite path 0x2011 sub type v s =
      .next (replies s path ⟨2, false, type.toNat, 0x2011, sub.toNat, v.length, 0, 0, v, []⟩ stValueOutOfRange o.type []) :=
    execWrite_refused up (by omega) named (octet ▸ typed) (by simp [isLarge, size]) refused
  rw [len, octet] at answered
  exact answered

end Sys2Proof.Machine
end

section
/-! PROOF. The state at reset (02 R49; 18 R446): nothing is listed in it, so every register and every byte has its default. -/

namespace Sys2Proof.Machine

open Sys2Proof Sys2Proof.Safety

/-- A register that the table does not list reads its reset value. -/
theorem reg_unlisted {s : State} (h : s.regs = []) (off : Nat) : reg s off = regReset off := by
  rw [reg, h, tget]

/-- STAGE 15 says that no cast-on stage has completed (18 R446). -/
theorem stageDone_none {s : State} (h : s.power.stage = 15) (k : Nat) : stageDone s k = false := by
  simp [stageDone, h]

theorem inv_unlisted {s : State} (mem : s.mem = []) (regs : s.regs = []) : Inv s where
  memory := by rw [MemoryCanonical, mem]; rfl
  registers := by rw [RegistersWords, regs]; nofun

/-- Settles O2: the tables of the reset state are empty, and STAGE is 15. -/
theorem resetState : Obligations.ResetState :=
  ⟨rfl, rfl, rfl, reg_unlisted rfl, rfl, stageDone_none rfl, rfl, inv_unlisted rfl rfl⟩

end Sys2Proof.Machine
end

section
/-! PROOF. Claims and their answers (05 R129, R133, R134; 09 R252, R255): the state that each outcome of CLAIM, ANSWER and LOCAL_CLAIM leaves,
and from it the parts that it leaves as they were. -/

namespace Sys2Proof.Machine

open Sys2Proof Sys2Proof.Safety

/-- A message that is taken changes the network alone (14 R356). -/
theorem tookMessage_within {M : Nat} {s0 s : State} (hM : Sub 0x100000000 M) (die : Nat) (f : Frame) (h : Within M s0 s) :
    Within M s0 (tookMessage s die f) := h.net (hM.has rfl)

/-! CLAIM at the slice (09 R252). -/

/-- The lowest chunk goes to core n, which the counter records as its owner. -/
def grantChunk (n : Nat) (x : RowCounter) : RowCounter := { x with next := x.next + 1, owners := tset x.owners x.next n }

section

variable {f : Frame} {c : CounterId} {attempt : BitVec 2} {n : Nat} {s : State}
  (new : NewMessage s (sliceDie (counterSlice c)) f) (sender : dieCore f.src = some n)
include new sender

theorem execClaim_dropped (refused : attempt.toNat ≠ (rowCounter s c).attempt ∨ coreActive s n = false) :
    execClaim f c attempt s = .next (dropClaim (tookMessage s (sliceDie (counterSlice c)) f)) := by
  simp [execClaim, onSlice_new _ new, sender, refused]

variable (armed : (rowCounter s c).armed = true) (current : attempt.toNat = (rowCounter s c).attempt) (active : coreActive s n = true)
include armed current active

theorem execClaim_exhausted (exhausted : chunkCount (rowCounter s c) ≤ (rowCounter s c).next) :
    execClaim f c attempt s = .next (fromSlice (tookMessage s (sliceDie (counterSlice c)) f) c f.src
      (.answer n c (rowCounter s c).attempt true 0 0 0)) := by
  simp [execClaim, onSlice_new _ new, sender, armed, current, active, exhausted]

theorem execClaim_granted (left : (rowCounter s c).next < chunkCount (rowCounter s c)) :
    let x := rowCounter s c
    execClaim f c attempt s = .next (fromSlice (updCounter (tookMessage s (sliceDie (counterSlice c)) f) c (grantChunk n)) c f.src
      (.answer n c x.attempt false x.next (pinned x (x.next * 2 ^ x.chunkLog)) (pinned x (min ((x.next + 1) * 2 ^ x.chunkLog) x.k)))) := by
  simp [execClaim, onSlice_new _ new, sender, armed, current, active, Nat.not_le.mpr left, updCounter, grantChunk]

end

/-! ANSWER at the core (05 R129, R133, R134). -/

/-- The answer that the core's task waits for is taken. -/
theorem execAnswer_taken {f : Frame} {c : CoreId} {counter : CounterId} {attempt : BitVec 2} {empty : Bool} {chunk : BitVec 21} {i0 i1 : BitVec 32}
    {w : CoreTask} {s : State} (new : NewMessage s (coreDie c) f) (task : (core s c).task = some w) (asked : w.counter = some counter.val)
    (waits : w.claimInFlight = true) (current : w.attempt = attempt.toNat) :
    execAnswer f c counter attempt empty chunk i0 i1 s =
      .next (takeAnswer (tookMessage s (coreDie c) f) c empty chunk.toNat i0.toNat i1.toNat) := by
  simp [execAnswer, onChain_new _ new, task, asked, waits, current]

section

variable {s : State} {c : Nat} {w : CoreTask} (task : (core s c).task = some w) (k i j : Nat)
include task

theorem takeAnswer_empty_task : (core (takeAnswer s c true k i j) c).task = some { w with claimInFlight := false, dry := true } := by
  simp [takeAnswer_empty s c w k i j task]

theorem takeAnswer_empty_within {M : Nat} {s0 : State} (hM : Sub 0x10 M) (h : Within M s0 s) : Within M s0 (takeAnswer s c true k i j) := by
  rw [takeAnswer_empty s c w k i j task]
  exact updCore_within hM s c _ h

end

/-! LOCAL_CLAIM (09 R255). -/

/-- The local counter moves on from chunk k. -/
def countLocal (k : Nat) (w : CoreTask) : CoreTask := { w with localNext := some (k + 1) }

/-- A claim of a local counter with no chunk left is answered empty. -/
theorem execLocalClaim_exhausted {c : CoreId} {w : CoreTask} {s : State} (task : (core s c).task = some w) (computes : w.copy = false)
    (claiming : claimsMode w.table = true) (own : w.counter = none) (waits : w.claimInFlight = true) (phase : w.phase = 4)
    (exhausted : posEnd w - posFirst w ≤ w.localNext.getD 0 * chunkSize w.table) :
    execLocalClaim c s = .next (takeAnswer (updTask s c (countLocal (w.localNext.getD 0))) c true 0 0 0) := by
  simp only [execLocalClaim, task, computes, claiming, own, waits, phase, exhausted, if_true]
  rfl

/-- Settles O17: a claim has one of three outcomes at the slice, in the order of `execClaim`; the core takes the answer that its task waits
for; and a local counter with no chunk left answers empty. -/
theorem rowCounterClaims : Obligations.RowCounterClaims := by
  refine ⟨fun f c attempt n s new sender armed => ?_, fun f c counter attempt empty chunk i0 i1 w s new task asked waits current => ?_,
    fun c w s task computes claiming own waits phase exhausted => ?_⟩
  · have taken {M : Nat} (hM : Sub 0x100000000 M) : Within M s (tookMessage s (sliceDie (counterSlice c)) f) :=
      tookMessage_within hM _ f .refl
    refine ⟨fun refused => ?_, fun current active exhausted => ?_, fun current active left => ?_⟩
    · exact ⟨_, execClaim_dropped new sender refused, (dropClaim_within rfl _ (taken rfl)).onlyParts (back := false), rfl, rfl⟩
    · exact ⟨_, execClaim_exhausted new sender armed current active exhausted,
        (fromSlice_within rfl _ c f.src _ (taken rfl)).onlyParts (back := false), rfl⟩
    · refine ⟨_, execClaim_granted new sender armed current active left,
        (fromSlice_within rfl _ c f.src _ (updCounter_within rfl _ c _ (taken rfl))).onlyParts (back := false), ?_, rfl⟩
      simp [fromSlice, grantChunk]
  · have taken {M : Nat} (hM : Sub 0x100000000 M) : Within M s (tookMessage s (coreDie c) f) := tookMessage_within hM _ f .refl
    have kept : (core (tookMessage s (coreDie c) f) c).task = some w := task
    refine ⟨_, execAnswer_taken new task asked waits current, ?_, ?_⟩
    · rintro rfl
      exact ⟨takeAnswer_empty_task kept _ _ _, (takeAnswer_empty_within kept _ _ _ rfl (taken rfl)).onlyParts (back := false)⟩
    · rintro rfl streamed
      obtain ⟨⟨o, queued⟩, parts, counted⟩ := takeAnswer_chunk _ c w chunk.toNat i0.toNat i1.toNat kept streamed
      have arrival : OnlyParts [.net] s (tookMessage s (coreDie c) f) := (taken rfl).onlyParts (back := false)
      exact ⟨by rw [queued]; rfl, by rw [queued]; rfl, counted, OnlyParts.trans arrival parts (by simp) (by simp)⟩
  · have counted : (core (updTask s c (countLocal (w.localNext.getD 0))) c).task = some (countLocal (w.localNext.getD 0) w) := by
      simp [updTask, task]
    exact ⟨_, execLocalClaim_exhausted task computes claiming own waits phase exhausted,
      (takeAnswer_empty_within counted _ _ _ rfl (updTask_within rfl s c _ .refl)).onlyParts (back := false),
      takeAnswer_empty_task counted _ _ _⟩

end Sys2Proof.Machine
end

section
/-! PROOF. Row counters (06 R153, R160; 09 R250 to R256): what each of their messages leaves at the counter, at the core and at the task slot. -/

namespace Sys2Proof.Machine

open Sys2Proof Sys2Proof.Safety

/-! Arming and release (09 R250, R251, R253, R256). -/

/-- The copy of the summary that a counter keeps once it is read (05 R132). -/
def pinSummary (u : State) (x y : RowCounter) (base : Nat) : RowCounter :=
  { y with pin := (List.range (x.k + 1)).map (summaryAt u (.va x.strand) base) }

/-- What ARM2 sets before it reads the summary (09 R250). -/
theorem updCounter_armedAt (s : State) (c : CounterId) (f : Frame) (base : Nat) :
    updCounter (tookMessage s (sliceDie (counterSlice c)) f) c (fun x => { x with
      armed := true, reserved := false, summaryBase := base, attempt := 0, next := 0, owners := [], counts := [], final := [], based := 0,
      outBase := outRp0 (tookMessage s (sliceDie (counterSlice c)) f) x.slot }) = armedAt s c f base := by
  unfold armedAt updCounter
  rfl

section

variable {f : Frame} {c : CounterId} {s : State} (new : NewMessage s (sliceDie (counterSlice c)) f)
include new

/-- A message that changes its counter alone. -/
theorem onSlice_updCounter (g : RowCounter → RowCounter) : ∃ t, Host.Outcome.next (onSlice c f s (fun u => updCounter u c g)) = (.next t : Result) ∧
    OnlyParts [.counters, .net] s t ∧ rowCounter t c = g (rowCounter s c) ∧ ∀ d, d ≠ c.val → rowCounter t d = rowCounter s d := by
  refine ⟨_, congrArg _ (onSlice_new _ new), (updCounter_within rfl _ c g (tookMessage_within rfl _ f .refl)).onlyParts (back := false),
    by simp, fun d other => ?_⟩
  simp [other.symm]

/-- ARM2 ends the task where a line of the summary cannot be read (log entry 61), and else pins the summary and answers ARMED (05 R132). -/
theorem execArm2_new (base : BitVec 48) :
    let x := rowCounter s c
    let r := getRange (armedAt s c f base.toNat) x.strand base.toNat (4 * (x.k + 1))
    execArm2 f c base s = .next (if r.2 ≠ stSuccess then endTask r.1 x.slot r.2 (sliceDie (counterSlice c)) none false
      else fromSlice (updCounter r.1 c (fun y => pinSummary r.1 x y base.toNat)) c hstDie (.armed c)) := by
  simp only [execArm2, onSlice_new _ new, tookMessage_rowCounter_of, updCounter_armedAt, pinSummary]

variable {base : BitVec 48} {u : State} {e : Nat}
  (read : getRange (armedAt s c f base.toNat) (rowCounter s c).strand base.toNat (4 * ((rowCounter s c).k + 1)) = (u, e))
include read

theorem execArm2_unreadable (fault : e ≠ stSuccess) :
    execArm2 f c base s = .next (endTask u (rowCounter s c).slot e (sliceDie (counterSlice c)) none false) := by
  simp [execArm2_new new, read, fault]

theorem execArm2_pinned (readable : e = stSuccess) :
    execArm2 f c base s = .next (fromSlice (updCounter u c (fun y => pinSummary u (rowCounter s c) y base.toNat)) c hstDie (.armed c)) := by
  simp [execArm2_new new, read, readable]

end

/-- Reading the summary leaves the counters as ARM2 has set them. -/
theorem armedAt_counters {s u : State} {c : CounterId} {f : Frame} {base n va len e : Nat}
    (read : getRange (armedAt s c f base) n va len = (u, e)) : u.counters = (armedAt s c f base).counters := by
  have reads := getRange_within (M := 0x710000f89) rfl (armedAt s c f base) n va len .refl
  rw [read] at reads
  exact reads.same .counters rfl

theorem rowCounter_congr {s t : State} (h : t.counters = s.counters) (d : Nat) : rowCounter t d = rowCounter s d := by
  unfold rowCounter
  rw [h]

theorem rowCounter_armedAt (s : State) (c : CounterId) (f : Frame) (base d : Nat) : rowCounter (armedAt s c f base) d =
    if c.val = d then { rowCounter s c with armed := true, reserved := false, summaryBase := base, attempt := 0, next := 0, owners := [],
                                            counts := [], final := [], based := 0, outBase := outRp0 s (rowCounter s c).slot }
    else rowCounter s d :=
  rowCounter_updCounter ..

/-- The arming part of O18. -/
theorem rowCounterArming : Claims.RowCounterArming := by
  refine ⟨fun f c s new => ⟨fun chunkLog k => onSlice_updCounter new _, fun n => onSlice_updCounter new _, fun base u read => ?_,
    fun base u e read fault busy running unwritten => ?_, fun attempt armed => ?_, onSlice_updCounter new _⟩,
    fun f c s new busy counter => ?_⟩
  · have kept := rowCounter_congr (armedAt_counters read)
    refine ⟨_, execArm2_pinned new read rfl,
      (fromSlice_within rfl _ c hstDie _ (updCounter_within rfl u c _ .refl)).onlyParts (back := false), rfl, ?_, fun d other => ?_⟩
    · simp [fromSlice, pinSummary, kept, rowCounter_armedAt]
    · simp [fromSlice, kept, rowCounter_armedAt, other.symm]
  · refine ⟨_, execArm2_unreadable new read fault, ?_⟩
    simp [endTask_slotOf _ _ _ _ _ _ busy running unwritten]
  · obtain ⟨t, runs, parts, changed, others⟩ := onSlice_updCounter new (fun x =>
      if x.armed then { x with attempt := attempt.toNat, next := 0, owners := [], counts := [], final := [], based := 0 } else x)
    exact ⟨t, runs, parts, changed.trans (if_pos armed), others⟩
  · set k := (rowCounter s c).slot with hk
    let u := updSlot (tookMessage s hstDie f) k (fun x => { x with armedCounter := true })
    obtain ⟨others, waits, starts, since, told, own⟩ := proceed_slotOf u k
    refine ⟨proceed u k, ?_, ?_, fun j other => (others j other).trans ?_⟩
    · show execArmed f c s = _
      simp [execArmed, onChain_new _ new, ← hk, busy, counter, u]
    · simp [own, u]
    · simp [u, other.symm]

/-! Owners, counts and bases (06 R153, R160; 09 R252). -/

/-- A report is added to its chunk's count, and one that is final marks the chunk. -/
def addReport (chunk count : Nat) (final : Bool) (x : RowCounter) : RowCounter :=
  { x with counts := tmod 0 x.counts chunk (· + count)
           final := if final && !x.final.contains chunk then chunk :: x.final else x.final }

theorem addReport_final (chunk count : Nat) (x : RowCounter) : (addReport chunk count true x).final.contains chunk = true := by
  by_cases known : chunk ∈ x.final <;> simp [addReport, known]

/-- Answering bases moves on the count of the answered ones, and nothing else of the counter. -/
theorem sendBases_rowCounter (c n : Nat) (s : State) :
    ∃ b, (rowCounter s c).based ≤ b ∧ rowCounter (sendBases c n s) c = { rowCounter s c with based := b } := by
  induction n generalizing s with
  | zero => exact ⟨_, Nat.le_refl _, rfl⟩
  | succ n ih =>
    unfold sendBases
    dsimp only
    split
    · exact ⟨_, Nat.le_refl _, rfl⟩
    · split
      · exact ⟨_, Nat.le_refl _, rfl⟩
      next h owner =>
        refine (ih _).imp fun b answered => ⟨?_, answered.2.trans ?_⟩
        · have more := answered.1
          simp only [fromSlice, sendChain_rowCounter_of, rowCounter_updCounter, if_true] at more
          omega
        · simp [fromSlice]

section

variable {f : Frame} {c : CounterId} {attempt : BitVec 2} {chunk : BitVec 21} {count : BitVec 26} {final : Bool} {s : State}
  (new : NewMessage s (sliceDie (counterSlice c)) f)
include new

/-- A query for a recorded chunk is answered with its owner. -/
theorem execOwner_recorded {n h : Nat} (sender : dieCore f.src = some n) (owner : tfind (rowCounter s c).owners chunk.toNat = some h) :
    execOwner f c chunk s =
      .next (fromSlice (tookMessage s (sliceDie (counterSlice c)) f) c f.src (.ownerAns n c chunk.toNat h)) := by
  simp [execOwner, onSlice_new _ new, sender, owner]

theorem execReport_dropped (stale : attempt.toNat ≠ (rowCounter s c).attempt) :
    execReport f c attempt chunk count final s = .next (dropClaim (tookMessage s (sliceDie (counterSlice c)) f)) := by
  simp [execReport, onSlice_new _ new, stale]

theorem execReport_added (armed : (rowCounter s c).armed = true) (current : attempt.toNat = (rowCounter s c).attempt) :
    execReport f c attempt chunk count final s = .next (sendBases c (chunkCount (rowCounter s c))
      (updCounter (tookMessage s (sliceDie (counterSlice c)) f) c (addReport chunk.toNat count.toNat final))) := by
  simp only [execReport, onSlice_new _ new, tookMessage_rowCounter_of, armed, current, ne_eq, not_true_eq_false, or_self,
    Bool.true_eq_false, if_false]
  rfl

end

section

variable {f : Frame} {c : CoreId} {counter : CounterId} {w : CoreTask} {s : State} (new : NewMessage s (coreDie c) f)
  (task : (core s c).task = some w) (ours : w.counter = some counter.val)
include new task ours

/-- The core keeps an owner that it is told. -/
theorem execOwnerAns_kept (chunk : BitVec 21) (home : CoreId) : execOwnerAns f c counter chunk home s =
    .next (updCore (tookMessage s (coreDie c) f) c (fun x => { x with owners := tset x.owners chunk.toNat home })) := by
  simp [execOwnerAns, onChain_new _ new, task, ours]

/-- A base that comes before the core has counted waits with those before it. -/
theorem execBase_uncounted (uncounted : w.counted = false) (value : BitVec 48) : execBase f c counter value s =
    .next (updCore (tookMessage s (coreDie c) f) c (fun x => { x with bases := x.bases ++ [value.toNat] })) := by
  simp [execBase, onChain_new _ new, task, ours, mergeEmit, uncounted]

end

/-- The part of O18 on owners, counts and bases. -/
theorem ownersAndCounts : Claims.OwnersAndCounts := by
  refine ⟨fun f c chunk n h s new sender owner => ?_, fun f c counter chunk home w s new task ours => ?_,
    fun f c attempt chunk count final s new armed => ⟨fun stale => ?_, fun current => ?_⟩,
    fun f c counter value w s new task ours uncounted => ?_⟩
  · exact ⟨_, execOwner_recorded new sender owner,
      (fromSlice_within rfl _ c f.src _ (tookMessage_within rfl _ f .refl)).onlyParts (back := false), rfl⟩
  · exact ⟨_, execOwnerAns_kept new task ours chunk home,
      (updCore_within rfl _ c _ (tookMessage_within rfl _ f .refl)).onlyParts (back := false), by simp⟩
  · exact ⟨_, execReport_dropped new stale,
      (dropClaim_within rfl _ (tookMessage_within rfl _ f .refl)).onlyParts (back := false), rfl⟩
  · obtain ⟨b, more, answered⟩ := sendBases_rowCounter c (chunkCount (rowCounter s c))
      (updCounter (tookMessage s (sliceDie (counterSlice c)) f) c (addReport chunk.toNat count.toNat final))
    rw [rowCounter_updCounter, if_pos rfl, tookMessage_rowCounter_of] at more answered
    refine ⟨_, execReport_added new armed current, (sendBases_within rfl c _ _
      (updCounter_within rfl _ c _ (tookMessage_within rfl _ f .refl))).onlyParts (back := false), ?_, ?_, ?_⟩
    · rw [answered]; rfl
    · rintro rfl
      rw [answered]
      exact addReport_final _ count.toNat _
    · rw [answered]; exact more
  · exact ⟨_, execBase_uncounted new task ours uncounted value,
      (updCore_within rfl _ c _ (tookMessage_within rfl _ f .refl)).onlyParts (back := false), by simp⟩

/-- Settles O18: each message of a row counter by what it leaves at the counter, the core or the slot. That an unreadable summary ends the task
at the slice is the model's choice (log entry 61). -/
theorem rowCounterArmsAndOwners : Obligations.RowCounterArmsAndOwners := ⟨rowCounterArming, ownersAndCounts⟩

end Sys2Proof.Machine
end

section
/-! PROOF. The passes of the accumulator (06 R154 to R160; 07 R172): what a send pass puts on both networks and leaves at its core, what an
announcement leaves, when a merge pass starts and what its start does, and when a band is ready. -/

namespace Sys2Proof.Machine

open Sys2Proof Sys2Proof.Safety

theorem core_updTask (s : State) (c : Nat) (g : CoreTask → CoreTask) :
    core (updTask s c g) c = { core s c with task := (core s c).task.map g } := by
  simp [updTask]

/-! Rows that leave for their home cores (06 R154; 01 R535). -/

/-- A tag is held by a foreign row of a task. -/
def holdTag (slot time : Nat) (l : Tab Tag) (p : Nat × Nat × List Byte) : Tab Tag :=
  tset l p.1 { task := slot, write := true, kind := 3, since := time }

/-- Rows have left for their home cores, each under a free tag as far as there are any, in their order. -/
def RowsSent (c slot : Nat) (u t : State) (rows : List (Nat × List Byte)) : Prop :=
  t.net.bulk.map (fun x => (x.src, x.dst, x.type, x.tag, x.data)) = u.net.bulk.map (fun x => (x.src, x.dst, x.type, x.tag, x.data)) ++
    ((freeTags u c).zip rows).map (fun p => (coreDie c, coreDie p.2.1, .write, p.1, p.2.2)) ∧
  (core t c).tags = ((freeTags u c).zip rows).foldl (holdTag slot (now u)) (core u c).tags

/-- Announcements have left for their home cores, in their order. -/
def Announced (c : Nat) (u t : State) (l : List (Nat × Nat × Nat)) : Prop :=
  t.net.chain.map (fun x => (x.src, x.dst, x.msg)) = u.net.chain.map (fun x => (x.src, x.dst, x.msg)) ++
    l.map (fun p => (coreDie c, coreDie p.1, .announce p.1 p.2.1 p.2.2))

/-- What leaves depends on the networks, the core's tags and the time alone. -/
theorem RowsSent.of_eq {c slot : Nat} {u v t : State} {rows : List (Nat × List Byte)} (sent : RowsSent c slot v t rows)
    (bulk : v.net.bulk = u.net.bulk) (tags : (core v c).tags = (core u c).tags) (time : now v = now u) : RowsSent c slot u t rows := by
  have free : freeTags v c = freeTags u c := by unfold freeTags; rw [tags]
  rwa [RowsSent, bulk, tags, time, free] at sent

/-- The rows of a list leave under the tags that stand with them. -/
def sendTagged (c slot : Nat) (l : List (Nat × Nat × List Byte)) (s : State) : State := each l s (fun s p => sendRow s c slot p.1 p.2)

theorem core_sendRow (s : State) (c slot : Nat) (p : Nat × Nat × List Byte) :
    core (sendRow s c slot p.1 p.2) c = { core s c with tags := holdTag slot (now s) (core s c).tags p } := by
  simp [sendRow, holdTag]

section

variable (c slot : Nat) (l : List (Nat × Nat × List Byte)) (s : State)

theorem core_sendTagged : core (sendTagged c slot l s) c = { core s c with tags := l.foldl (holdTag slot (now s)) (core s c).tags } := by
  unfold sendTagged each
  induction l generalizing s with
  | nil => rfl
  | cons p l ih => rw [List.foldl_cons, ih, core_sendRow]; rfl

theorem sendTagged_bulk : (sendTagged c slot l s).net.bulk.map (fun x => (x.src, x.dst, x.type, x.tag, x.data)) =
    s.net.bulk.map (fun x => (x.src, x.dst, x.type, x.tag, x.data)) ++ l.map (fun p => (coreDie c, coreDie p.2.1, .write, p.1, p.2.2)) := by
  unfold sendTagged each
  induction l generalizing s with
  | nil => simp
  | cons p l ih => rw [List.foldl_cons, ih]; simp [sendRow, bumpCore, bump]

theorem sendTagged_chain : (sendTagged c slot l s).net.chain = s.net.chain := each_keeps (·.net.chain) l s _ (fun _ _ _ => rfl)
theorem sendTagged_now : now (sendTagged c slot l s) = now s := each_keeps now l s _ (fun _ _ _ => rfl)

end

/-- The announcements of a send pass leave. -/
def announceRows (c : Nat) (l : List (Nat × Nat × Nat)) (s : State) : State :=
  each l s (fun s p => sendChain s (coreDie c) (coreDie p.1) (.announce p.1 p.2.1 p.2.2))

section

variable (c : Nat) (l : List (Nat × Nat × Nat)) (s : State)

theorem announceRows_cores : (announceRows c l s).cores = s.cores := each_keeps (·.cores) l s _ (fun _ _ _ => rfl)
theorem announceRows_bulk : (announceRows c l s).net.bulk = s.net.bulk := each_keeps (·.net.bulk) l s _ (fun _ _ _ => rfl)

theorem announceRows_announced : Announced c s (announceRows c l s) l := by
  unfold Announced announceRows each
  induction l generalizing s with
  | nil => simp
  | cons p l ih => rw [List.foldl_cons, ih]; simp

end

/-- The rows that find a tag have left, and the others wait. -/
def rowsLeft (s : State) (c : Nat) (w : CoreTask) (rows : List (Nat × List Byte)) : State :=
  updTask (sendTagged c w.slot ((freeTags s c).zip rows) s) c (fun t => { t with outbox := some (rows.drop (freeTags s c).length) })

theorem core_rowsLeft {s : State} {c : Nat} {w : CoreTask} (task : (core s c).task = some w) (rows : List (Nat × List Byte)) :
    core (rowsLeft s c w rows) c = { core s c with
      task := some { w with outbox := some (rows.drop (freeTags s c).length) }
      tags := ((freeTags s c).zip rows).foldl (holdTag w.slot (now s)) (core s c).tags } := by
  simp [rowsLeft, core_updTask, core_sendTagged, task]

theorem rowsLeft_sent {s : State} {c : Nat} {w : CoreTask} (task : (core s c).task = some w) (rows : List (Nat × List Byte)) :
    RowsSent c w.slot s (rowsLeft s c w rows) rows :=
  ⟨sendTagged_bulk c w.slot _ s, by rw [core_rowsLeft task]⟩

section

variable {s : State} {c : Nat} {w : CoreTask} {rows : List (Nat × List Byte)} (outbox : w.outbox = some rows)
include outbox

/-- Too few tags: the announcements wait too. -/
theorem sendForeign_part (more : (freeTags s c).length < rows.length) : sendForeign s c w = rowsLeft s c w rows := by
  have rest : (rows.drop (freeTags s c).length).isEmpty = false := by simpa using more
  unfold freeTags at rest
  simp only [sendForeign, outbox, Option.getD_some, rest, Bool.not_false, if_true]
  rfl

/-- A tag for every row: the announcements follow the last one, and the core waits for what is announced to it. -/
theorem sendForeign_all (fits : rows.length ≤ (freeTags s c).length) : sendForeign s c w =
    updCore (updTask (announceRows c w.announces (rowsLeft s c w rows)) c (fun t => { t with sent := true })) c
      (fun x => { x with accPhase := 3, stall := if w.counter.isSome then some (passStall (rowsLeft s c w rows) resForeign) else x.stall }) := by
  have rest : (rows.drop (freeTags s c).length).isEmpty = true := by simpa using fits
  unfold freeTags at rest
  simp only [sendForeign, outbox, Option.getD_some, rest, Bool.not_true, Bool.false_eq_true, if_false]
  rfl

end

/-- What a send pass that is over leaves. -/
structure SendOver (c : Nat) (w : CoreTask) (rows : List (Nat × List Byte)) (s t : State) : Prop where
  rowsSent : RowsSent c w.slot s t rows
  announced : Announced c s t w.announces
  coreIs : core t c = { core s c with
    task := some { w with outbox := some [], sent := true }, tags := (core t c).tags, accPhase := 3
    stall := if w.counter.isSome then some (passStall s resForeign) else (core s c).stall }

theorem sendForeign_over {s : State} {c : Nat} {w : CoreTask} {rows : List (Nat × List Byte)} (task : (core s c).task = some w)
    (outbox : w.outbox = some rows) (fits : rows.length ≤ (freeTags s c).length) : SendOver c w rows s (sendForeign s c w) := by
  have sent := rowsLeft_sent task rows
  have spent := core_rowsLeft task rows
  rw [List.drop_of_length_le fits] at spent
  have time : now (rowsLeft s c w rows) = now s := sendTagged_now c w.slot _ s
  have coreIs : core (sendForeign s c w) c = { core (rowsLeft s c w rows) c with
      task := some { w with outbox := some [], sent := true }, accPhase := 3
      stall := if w.counter.isSome then some (passStall s resForeign) else (core s c).stall } := by
    have kept := core_congr (announceRows_cores c w.announces (rowsLeft s c w rows)) c
    simp [sendForeign_all outbox fits, core_updTask, kept, spent, passStall, time]
  refine ⟨⟨?_, ?_⟩, ?_, ?_⟩
  · rw [sendForeign_all outbox fits, ← sent.1]
    exact congrArg _ (announceRows_bulk ..)
  · rw [coreIs]; exact sent.2
  · have chain : (rowsLeft s c w rows).net.chain = s.net.chain := sendTagged_chain c w.slot _ s
    have announced := announceRows_announced c w.announces (rowsLeft s c w rows)
    rw [Announced, chain] at announced
    rw [sendForeign_all outbox fits]
    exact announced
  · rw [coreIs, spent]

/-! The send pass (06 R153, R154). -/

/-- A core whose claims are over has its send pass before it. -/
structure MaySend (s : State) (c : Nat) (w : CoreTask) : Prop where
  task : (core s c).task = some w
  computes : w.copy = false
  claiming : claimsMode w.table = true
  phase : w.phase = 4
  unsent : w.sent = false
  ended : claimsOver s c w = true

/-- The core knows the owner of the home chunk of each of its foreign rows. -/
def ownersKnown (s : State) (c : Nat) (w : CoreTask) : Bool :=
  (foreignChunks s c w).all (fun f => (ownerOf s c (homeChunk s c w f.2)).isSome)

/-- The rows of a send pass, with their home cores. -/
def plannedRows (u : State) (c : Nat) (w : CoreTask) : List (Nat × List Byte) := (sendPlan u c w).flatMap (fun p => p.2.2.map (fun d => (p.2.1, d)))
/-- Its announcements. -/
def plannedAnnounces (u : State) (c : Nat) (w : CoreTask) : List (Nat × Nat × Nat) := (sendPlan u c w).map (fun p => (p.2.1, p.1, p.2.2.length))

/-- The core's peak occupancy is kept in match mode (06 R163). -/
def notePeak (s : State) (c : Nat) (w : CoreTask) : State :=
  if laneMode w.table = 3 then setReg s (coreOff c CORE_ACC_PEAK_OCC) (core s c).accOcc else s

/-- A send pass has begun: its rows are made up, and their entries have left the accumulator (log entry 34). -/
def sendBegun (u : State) (c : Nat) (w : CoreTask) : State :=
  updCore (notePeak (fillOutbox u c w) c w) c (fun x => { takenOut w ((foreignChunks u c w).map (·.2)) x with accPhase := 2 })

/-- The task whose rows are made up. -/
def withRows (u : State) (c : Nat) (w : CoreTask) : CoreTask :=
  { w with outbox := some (plannedRows u c w), announces := plannedAnnounces u c w }

/-- Taking entries out changes the accumulator alone. -/
theorem takenOut_task (w : CoreTask) (gone : List Nat) (x : Core) (o : Option CoreTask) :
    takenOut w gone { x with task := o } = { takenOut w gone x with task := o } := by
  unfold takenOut
  split <;> rfl
theorem takenOut_tags (w : CoreTask) (gone : List Nat) (x : Core) : (takenOut w gone x).tags = x.tags := by
  unfold takenOut
  split <;> rfl
theorem takenOut_stall (w : CoreTask) (gone : List Nat) (x : Core) : (takenOut w gone x).stall = x.stall := by
  unfold takenOut
  split <;> rfl

theorem notePeak_cores (s : State) (c : Nat) (w : CoreTask) : (notePeak s c w).cores = s.cores := by
  unfold notePeak
  split <;> rfl
theorem notePeak_net (s : State) (c : Nat) (w : CoreTask) : (notePeak s c w).net = s.net := by
  unfold notePeak
  split <;> rfl
theorem notePeak_now (s : State) (c : Nat) (w : CoreTask) : now (notePeak s c w) = now s := by
  unfold notePeak
  split <;> rfl

theorem core_sendBegun {u : State} {c : Nat} {w : CoreTask} (task : (core u c).task = some w) : core (sendBegun u c w) c =
    { takenOut w ((foreignChunks u c w).map (·.2)) (core u c) with task := some (withRows u c w), accPhase := 2 } := by
  have made : core (notePeak (fillOutbox u c w) c w) c = { core u c with task := some (withRows u c w) } := by
    rw [core_congr (notePeak_cores (fillOutbox u c w) c w) c, fillOutbox, core_updTask, task]
    rfl
  rw [sendBegun, core_updCore, if_pos rfl, made, takenOut_task]

theorem sendBegun_within {M : Nat} {s0 : State} (hM : Sub 0x11 M) (u : State) (c : Nat) (w : CoreTask) (h : Within M s0 u) :
    Within M s0 (sendBegun u c w) :=
  updCore_within (Sub.up hM rfl) _ c _ (.ite (setReg_within (Sub.up hM rfl) _ _ _ (fillOutbox_within (Sub.up hM rfl) u c w h))
    (fillOutbox_within (Sub.up hM rfl) u c w h))

namespace MaySend

variable {s : State} {c : CoreId} {w : CoreTask} (may : MaySend s c w)
include may

theorem execSendPass_again (rows : w.outbox.isSome = true) : execSendPass c s = .next (sendForeign s c w) := by
  simp [execSendPass, may.task, may.computes, may.claiming, may.phase, may.unsent, may.ended, rows]

variable (first : w.outbox = none) (flushed : laneMode w.table = 3 → (core s c).spillBuf = [])
include first flushed

/-- With no part of a spill row left to write, a first send pass asks for owners, reads the records or begins. -/
theorem execSendPass_first : execSendPass c s = .next (
    if ownersKnown s c w then
      let r := if (foreignChunks s c w).isEmpty then (s, true) else readRecords s c w false
      if !r.2 then r.1
      else match (core (sendBegun r.1 c w) c).task with
        | some x => sendForeign (sendBegun r.1 c w) c x
        | none => sendBegun r.1 c w
    else updCore (askOwners s c w) c (fun x => { x with accPhase := 2 })) := by
  have spilled : (if laneMode w.table = 3 then flushSpill s c w else s) = s := by
    split
    next sorts => simp [flushSpill, flushed sorts]
    next => rfl
  have runs : stillRuns s c w.slot = true := by simp [stillRuns, may.task]
  simp only [execSendPass, may.task, may.computes, may.claiming, may.phase, may.unsent, may.ended, first, spilled, runs, Bool.not_true,
    Option.isSome_none, Bool.or_false, bne_self_eq_false, Bool.false_eq_true, if_false]
  rfl

theorem execSendPass_asks (unknown : ownersKnown s c w = false) :
    execSendPass c s = .next (updCore (askOwners s c w) c (fun x => { x with accPhase := 2 })) := by
  rw [may.execSendPass_first first flushed, unknown]
  rfl

theorem execSendPass_waits {u : State} (known : ownersKnown s c w = true) (foreign : (foreignChunks s c w).isEmpty = false)
    (read : readRecords s c w false = (u, false)) : execSendPass c s = .next u := by
  simp [may.execSendPass_first first flushed, known, foreign, read]

theorem execSendPass_begins {u : State} (known : ownersKnown s c w = true)
    (read : (if (foreignChunks s c w).isEmpty then (s, true) else readRecords s c w false) = (u, true)) (task : (core u c).task = some w) :
    execSendPass c s = .next (sendForeign (sendBegun u c w) c (withRows u c w)) := by
  simp only [may.execSendPass_first first flushed, known, read, core_sendBegun task, if_true, Bool.not_true, Bool.false_eq_true, if_false]

end MaySend

/-- A first send pass whose rows all find a tag is over at once. -/
theorem sendBegun_over {u : State} {c : Nat} {w : CoreTask} (task : (core u c).task = some w)
    (fits : (plannedRows u c w).length ≤ (freeTags u c).length) :
    let t := sendForeign (sendBegun u c w) c (withRows u c w)
    RowsSent c w.slot u t (plannedRows u c w) ∧ Announced c u t (plannedAnnounces u c w) ∧
      core t c = { takenOut w ((foreignChunks u c w).map (·.2)) (core u c) with
        task := some { w with outbox := some [], announces := plannedAnnounces u c w, sent := true }
        tags := (core t c).tags, accPhase := 3, stall := if w.counter.isSome then some (passStall u resForeign) else (core u c).stall } := by
  intro t
  have begun := core_sendBegun task
  have net : (sendBegun u c w).net = u.net := notePeak_net (fillOutbox u c w) c w
  have time : now (sendBegun u c w) = now u := notePeak_now (fillOutbox u c w) c w
  have tags : (core (sendBegun u c w) c).tags = (core u c).tags := by rw [begun]; exact takenOut_tags ..
  have free : freeTags (sendBegun u c w) c = freeTags u c := by unfold freeTags; rw [tags]
  obtain ⟨sent, announced, coreIs⟩ := sendForeign_over (by rw [begun]) (rfl : (withRows u c w).outbox = _) (free ▸ fits)
  refine ⟨sent.of_eq (by rw [net]) tags time, ?_, coreIs.trans ?_⟩
  · rw [Announced, net] at announced
    exact announced
  · rw [begun]
    simp only [takenOut_stall, passStall, time]
    rfl

/-- Asking for owners is noted at the core and sent over the chain; its task is as it was. -/
theorem askOwners_task (s : State) (c : Nat) (w : CoreTask) : (core (askOwners s c w) c).task = (core s c).task := by
  unfold askOwners
  split
  · rfl
  next k counter =>
    refine each_keeps (fun s => (core s c).task) _ s _ fun s h _ => ?_
    split
    · rfl
    · simp

/-! The merge pass starts (06 R155, R157; 08 R208). -/

/-- Every announced row has come, and the scoreboard holds no range that the pass needs. -/
def mergeFree (s : State) (c : Nat) (w : CoreTask) : Bool := mergeMayStart s c w && !sbWaits s c (mergeRanges s c w).1 (mergeRanges s c w).2

section

variable {s : State} {c : CoreId} {w : CoreTask} (task : (core s c).task = some w)
include task

theorem execMergePassStart_waits (held : mergeFree s c w = false) : execMergePassStart c s = .next s := by
  have stays : (!mergeMayStart s c w || sbWaits s c (mergeRanges s c w).1 (mergeRanges s c w).2) = true := by
    cases waits : mergeMayStart s c w <;> simp_all [mergeFree]
  simp [execMergePassStart, task, stays]

variable (free : mergeFree s c w = true)
include free

theorem execMergePassStart_starts {t : State} (pass : (if laneMode w.table = 3 then mergeCount s c w else mergeGather s c w) = t) :
    execMergePassStart c s = .next t := by
  have starts : (!mergeMayStart s c w || sbWaits s c (mergeRanges s c w).1 (mergeRanges s c w).2) = false := by
    simpa [mergeFree] using free
  simp [execMergePassStart, task, starts, pass]

/-- Where the records cannot be read now, the pass does not start (06 R143). -/
theorem execMergePassStart_unread {u : State} (read : readRecords s c w true = (u, false)) : execMergePassStart c s = .next u := by
  refine execMergePassStart_starts task free ?_
  split
  · simp [mergeCount, read]
  · simp [mergeGather, read]

end

/-! Counting in match mode (06 R157 to R160). -/

/-- The chunks of a core with the non-zeros of their home rows. -/
def chunkCounts (v : State) (c : Nat) (w : CoreTask) (l : List (List SortRow)) : List (Nat × Nat) :=
  (ownChunks v c).map (fun k => (k.idx, (chunkNonZeros v c w k (outNonZeros v c { w with runs := l })).length))

/-- The task whose records are sorted into runs and counted. -/
def withCounts (l : List (List SortRow)) (blocks : Nat) (w : CoreTask) : CoreTask :=
  { w with counted := true, runs := l, blocks := blocks, mergeLevels := mergeLevels 16 blocks }

/-- The core has counted, and waits for the bases of its chunks. -/
def countNoted (v : State) (c : Nat) (w : CoreTask) (l : List (List SortRow)) (blocks : Nat) : State :=
  let counts := chunkCounts v c w l
  updCore (updTask (bumpCore v c CORE_NUM_INF_COUNT (mergeSums (runRecs v c w l.flatten)).2) c (withCounts l blocks)) c (fun x => { x with
    accPhase := 6, homeCounts := counts
    stall := if w.counter.isSome && !counts.isEmpty then some (passStall v resBase) else if passWait x then none else x.stall })

/-- The counts are reported to the slice of counter k. -/
def reportCounts (c k attempt : Nat) (counts : List (Nat × Nat)) (s : State) : State :=
  each counts s (fun s p => each (countReports p.2) s (fun s r =>
    sendChain s (coreDie c) (sliceDie (counterSlice k)) (.report k attempt p.1 r.1 r.2)))

theorem reportCounts_cores (c k attempt : Nat) (counts : List (Nat × Nat)) (s : State) : (reportCounts c k attempt counts s).cores = s.cores :=
  each_keeps (·.cores) counts s _ (fun s _ _ => each_keeps (·.cores) _ s _ (fun _ _ _ => rfl))

theorem reportCounts_within {M : Nat} {s0 : State} (hM : Sub 0x100000000 M) (c k attempt : Nat) (counts : List (Nat × Nat)) (s : State)
    (h : Within M s0 s) : Within M s0 (reportCounts c k attempt counts s) :=
  each_within (fun _ _ h => each_within (fun t _ h => sendChain_within (Sub.up hM rfl) t _ _ _ h) h) h

/-- Messages of one destination for each element of a list. -/
theorem each_sendChain {α : Type} (l : List α) (s : State) (src dst : Nat) (m : α → Msg) :
    (each l s (fun s r => sendChain s src dst (m r))).net.chain.map (fun x => (x.dst, x.msg)) =
      s.net.chain.map (fun x => (x.dst, x.msg)) ++ l.map (fun r => (dst, m r)) := by
  unfold each
  induction l generalizing s with
  | nil => simp
  | cons r l ih => rw [List.foldl_cons, ih]; simp

theorem reportCounts_chain (c k attempt : Nat) (counts : List (Nat × Nat)) (s : State) :
    (reportCounts c k attempt counts s).net.chain.map (fun x => (x.dst, x.msg)) = s.net.chain.map (fun x => (x.dst, x.msg)) ++
      counts.flatMap (fun p => (countReports p.2).map (fun r => (sliceDie (counterSlice k), .report k attempt p.1 r.1 r.2))) := by
  unfold reportCounts each
  induction counts generalizing s with
  | nil => simp
  | cons p counts ih =>
    have first := each_sendChain (countReports p.2) s (coreDie c) (sliceDie (counterSlice k)) (fun r => .report k attempt p.1 r.1 r.2)
    unfold each at first
    rw [List.foldl_cons, ih, first]
    simp

/-- A core that misses a base of its chunks does not emit (06 R161). -/
theorem mergeEmit_waits {s : State} {c : Nat} (missing : (core s c).bases.length < (ownChunks s c).length) : mergeEmit s c = s := by
  unfold mergeEmit
  split
  · rfl
  · simp [missing]

theorem core_countNoted (v : State) (c : Nat) (w : CoreTask) (l : List (List SortRow)) (blocks : Nat) : ∃ o,
    core (countNoted v c w l blocks) c = { core v c with
      task := (core v c).task.map (withCounts l blocks), accPhase := 6, homeCounts := chunkCounts v c w l, stall := o } ∧
    (w.counter.isSome = true → chunkCounts v c w l ≠ [] → o = some (passStall v resBase)) := by
  refine ⟨_, by simp [countNoted, core_updTask]; rfl, fun counter owned => ?_⟩
  simp [counter, owned]

theorem countNoted_within {M : Nat} {s0 : State} (hM : Sub 0x11 M) (v : State) (c : Nat) (w : CoreTask) (l : List (List SortRow)) (blocks : Nat)
    (h : Within M s0 v) : Within M s0 (countNoted v c w l blocks) := by
  unfold countNoted
  exact updCore_within (Sub.up hM rfl) _ c _ (updTask_within (Sub.up hM rfl) _ c _ (bumpCore_within (Sub.up hM rfl) v c _ _ h))

section

variable {s u v : State} {c : Nat} {w : CoreTask} (read : readRecords s c w true = (u, true))
include read

theorem mergeCount_unsorted (sorted : sortPass u c w = (v, none)) : mergeCount s c w = v := by
  simp [mergeCount, read, sorted]

/-- The counts are reported, and the emit pass follows where it may. -/
theorem mergeCount_reports {l : List (List SortRow)} {k : Nat} (sorted : sortPass u c w = (v, some l)) (counter : w.counter = some k) :
    ∃ blocks, mergeCount s c w = mergeEmit (reportCounts c k w.attempt (chunkCounts v c w l) (countNoted v c w l blocks)) c := by
  refine ⟨mergeBlocks (passInputs u c w).1.length + mergeBlocks (passInputs u c w).2.length, ?_⟩
  simp only [mergeCount, read, sorted, counter, Bool.not_true, Bool.false_eq_true, if_false, countNoted, chunkCounts]
  rfl

/-- A pass that has counted waits for its bases, its counts on their way to the counter's slice (06 R160). -/
theorem mergeCount_counted {l : List (List SortRow)} {k : Nat} (sorted : sortPass u c w = (v, some l)) (counter : w.counter = some k)
    (still : (core v c).task = some w) (missing : (core v c).bases.length < (ownChunks v c).length) :
    ∃ t, mergeCount s c w = t ∧ (core t c).accPhase = 6 ∧ (∃ x, (core t c).task = some x ∧ x.counted = true ∧ x.runs = l) ∧
      (core t c).stall = some (passStall v resBase) ∧ OnlyParts [.regs, .cores, .net] v t ∧
      t.net.chain.map (fun x => (x.dst, x.msg)) = v.net.chain.map (fun x => (x.dst, x.msg)) ++ (ownChunks v c).flatMap (fun j =>
        (countReports (chunkNonZeros v c w j (outNonZeros v c { w with runs := l })).length).map (fun r =>
          (sliceDie (counterSlice k), .report k w.attempt j.idx r.1 r.2))) := by
  obtain ⟨blocks, reports⟩ := mergeCount_reports read sorted counter
  obtain ⟨o, noted, stalls⟩ := core_countNoted v c w l blocks
  set t := reportCounts c k w.attempt (chunkCounts v c w l) (countNoted v c w l blocks) with ht
  have coreIs : core t c = _ := (core_congr (reportCounts_cores ..) c).trans noted
  have chunks : ownChunks t c = ownChunks v c := by unfold ownChunks; rw [coreIs]
  have waits : mergeEmit t c = t := mergeEmit_waits (by rw [chunks, coreIs]; exact missing)
  have owned : chunkCounts v c w l ≠ [] := fun unowned => by
    rw [List.map_eq_nil_iff.mp unowned] at missing
    exact Nat.not_lt_zero _ missing
  refine ⟨t, reports.trans waits, by rw [coreIs], ⟨withCounts l blocks w, by rw [coreIs, still]; rfl, rfl, rfl⟩, ?_,
    (reportCounts_within rfl _ _ _ _ _ (countNoted_within rfl v c w l blocks .refl)).onlyParts (back := false), ?_⟩
  · rw [coreIs]
    exact stalls (by rw [counter]; rfl) owned
  · rw [ht, reportCounts_chain, chunkCounts, List.flatMap_map]
    rfl

end

/-! Adding up in gather mode (06 R156). -/

/-- Rows of partial-sum memory of the group's output. -/
def gatherSums (u : State) (c : Nat) (w : CoreTask) : List (Nat × Nat) :=
  (List.range (panelCount w (lastProd w.table))).flatMap (fun q => sumRows u c w (lastProd w.table) 0 q)

/-- The sums are complete, and the overflow rows that held received ones are free. -/
def gatherMerged (v : State) (c : Nat) (w : CoreTask) : State :=
  updCore (updTask (ovfFree v c (aOvfBase w.table) (core v c).foreignOvf) c (fun t => { t with merged := true })) c
    (fun x => { x with accPhase := 7, stall := if passWait x then none else x.stall })

/-- With nothing received the pass adds nothing. -/
theorem mergeGather_unsent {s u v : State} {c : Nat} {w : CoreTask} (read : readRecords s c w true = (u, true))
    (taken : takeRows u c (heldSums u c (gatherSums u c w)) (gatherSums u c w) = (v, true)) (unsent : foreignRecs v c w = []) :
    mergeGather s c w = spanEnd (gatherMerged v c w) c := by
  unfold gatherSums at taken
  simp only [mergeGather, read, taken, unsent, Bool.not_true, Bool.false_eq_true, if_false]
  rfl

/-- Freeing overflow rows changes the use of the areas alone. -/
theorem core_ovfFree (s : State) (c base : Nat) (gone : List Nat) : ∃ o, core (ovfFree s c base gone) c = { core s c with ovfUsed := o } := by
  unfold ovfFree
  split
  · exact ⟨_, rfl⟩
  · exact ⟨_, by rw [core_updCore, if_pos rfl]⟩

theorem core_gatherMerged {v : State} {c : Nat} {w : CoreTask} (task : (core v c).task = some w) : core (gatherMerged v c w) c =
    { core (ovfFree v c (aOvfBase w.table) (core v c).foreignOvf) c with
      task := some { w with merged := true }, accPhase := 7, stall := if passWait (core v c) then none else (core v c).stall } := by
  obtain ⟨o, freed⟩ := core_ovfFree v c (aOvfBase w.table) (core v c).foreignOvf
  rw [gatherMerged, core_updCore, if_pos rfl, core_updTask, freed]
  simp only [task, Option.map_some]
  rfl

theorem gatherMerged_within {M : Nat} {s0 : State} (hM : Sub 0x10 M) (v : State) (c : Nat) (w : CoreTask) (h : Within M s0 v) :
    Within M s0 (gatherMerged v c w) :=
  updCore_within hM _ c _ (updTask_within hM _ c _ (ovfFree_within hM v c _ _ h))

/-- A gather-mode task that is merged ends its span only with its last output tile. -/
theorem spanEnd_emitting {s : State} {c : Nat} {w : CoreTask} (task : (core s c).task = some { w with merged := true })
    (claiming : claimsMode w.table = true) (gathers : laneMode w.table = 2) (left : w.outDone ≠ outTotal w)
    (live : (zeroLevels w).isEmpty = true) : spanEnd s c = s := by
  have unfinished : (w.outDone == outTotal { w with merged := true }) = false := beq_eq_false_iff_ne.mpr left
  have bounds : (zeroLevels { w with merged := true }).isEmpty = true := live
  simp only [spanEnd, task, claiming, gathers, unfinished, bounds]
  simp

end Sys2Proof.Machine
end

section
/-! PROOF. O19: the obligation's parts, assembled from what each pass does. -/

namespace Sys2Proof.Machine

open Sys2Proof Sys2Proof.Safety

/-- A foreign announcement is kept while the group's foreign window is open (06 R155). -/
theorem execForeignAnnouncement_new {f : Frame} {c : CoreId} {s : State} (chunk : BitVec 21) (rows : BitVec 32) (new : NewMessage s (coreDie c) f) :
    execForeignAnnouncement f c chunk rows s = .next (if (core s c).foreignOpen then
      updCore (tookMessage s (coreDie c) f) c (fun x => { x with announced := x.announced ++ [(chunk.toNat, rows.toNat)] })
      else tookMessage s (coreDie c) f) :=
  congrArg Host.Outcome.next (onChain_new _ new)

/-- One band is ready where its token rows are all formed (07 R172). -/
def nextBand (w : CoreTask) : CoreTask :=
  if hPair w.table = true ∧ (w.bandsReady + 1) * orOne (bandRows w) ≤ w.midDone then { w with bandsReady := w.bandsReady + 1 } else w

theorem execFusedBandReady_next {c : CoreId} {w : CoreTask} {s : State} (task : (core s c).task = some w) :
    ∃ t, execFusedBandReady c s = .next t ∧ Within 0x10 s t ∧ core t c = { core s c with task := some (nextBand w) } := by
  simp only [execFusedBandReady, task, Bool.and_eq_true, decide_eq_true_eq, nextBand]
  split
  · exact ⟨_, rfl, updTask_within rfl s c _ .refl, by rw [core_updTask, task]; rfl⟩
  · exact ⟨_, rfl, .refl, by rw [← task]⟩

/-- Settles O19: each pass by what its command answers in the cases of its rules. That the entries of a foreign row leave the accumulator with
the send pass is the model's choice (log entry 34). -/
theorem mergePasses : Obligations.MergePasses := by
  refine ⟨fun c w s task computes claiming phase unsent ended => ?_, fun f c chunk rows s new => ?_, fun c w s task => ?_,
    fun c w s task => ?_⟩
  · have may : MaySend s c w := ⟨task, computes, claiming, phase, unsent, ended⟩
    refine ⟨fun rows outbox => ?_, fun first flushed => ⟨fun u known read still => ?_, fun u known foreign read => ?_, fun unknown => ?_⟩⟩
    · have again := may.execSendPass_again (by rw [outbox]; rfl)
      have parts := (sendForeign_within (M := 0x100000011) rfl s c w .refl).onlyParts (l := [.regs, .cores, .net]) (back := false)
      refine ⟨fun fits => ?_, fun more => ?_⟩
      · obtain ⟨sent, announced, coreIs⟩ := sendForeign_over task outbox fits
        exact ⟨_, again, parts, sent, announced, by rw [coreIs], by rw [coreIs], by rw [coreIs]⟩
      · have spent := core_rowsLeft task rows
        rw [sendForeign_part outbox more] at again parts
        exact ⟨_, again, parts, rowsLeft_sent task rows, sendTagged_chain .., by rw [spent], by rw [spent]⟩
    · intro rows fits
      obtain ⟨sent, announced, coreIs⟩ := sendBegun_over still fits
      exact ⟨_, may.execSendPass_begins first flushed known read still,
        (sendForeign_within rfl _ c _ (sendBegun_within rfl u c w .refl)).onlyParts (back := false), sent, announced, coreIs⟩
    · exact may.execSendPass_waits first flushed known foreign read
    · exact ⟨_, may.execSendPass_asks first flushed unknown, by simp, by simp [askOwners_task, task],
        (updCore_within rfl _ c _ (askOwners_within rfl s c w .refl)).onlyParts (back := false)⟩
  · have taken : Within (partMask [.cores, .net] false) s (tookMessage s (coreDie c) f) := tookMessage_within rfl _ f .refl
    refine ⟨_, execForeignAnnouncement_new chunk rows new, (Within.ite (updCore_within rfl _ c _ taken) taken).onlyParts,
      fun opened => ?_, fun closed => ?_⟩
    · simp [opened]
    · simp [closed]
  · refine ⟨execMergePassStart_waits task, fun u free read => execMergePassStart_unread task free read,
      fun u v free sorts read sorted => ?_, fun u v l k free sorts counter read sorted still missing => ?_,
      fun u v free gathers read taken unsent still left live => ?_⟩
    · exact execMergePassStart_starts task free ((if_pos sorts).trans (mergeCount_unsorted read sorted))
    · obtain ⟨t, pass, counted⟩ := mergeCount_counted read sorted counter still missing
      exact ⟨t, execMergePassStart_starts task free ((if_pos sorts).trans pass), counted⟩
    · have claiming : claimsMode w.table = true := by
        simp only [mergeMayStart, Bool.and_eq_true] at free
        tauto
      have pass : mergeGather s c w = gatherMerged v c w := (mergeGather_unsent read taken unsent).trans
        (spanEnd_emitting (by rw [core_gatherMerged still]) claiming gathers left live)
      exact ⟨_, execMergePassStart_starts task free ((if_neg (by rw [gathers]; decide)).trans pass), core_gatherMerged still,
        (gatherMerged_within rfl v c w .refl).onlyParts (back := false)⟩
  · obtain ⟨t, runs, within, coreIs⟩ := execFusedBandReady_next task
    exact ⟨t, runs, within.onlyParts (l := [.cores]) (back := false), coreIs⟩

end Sys2Proof.Machine
end

section
/-! PROOF. Lines of the shared cache (09 R249; 13 R342): a line that was read at its home slice is resident there, and a part of a resident line
is written back without a fill, whatever has become of its tier. -/

namespace Sys2Proof.Machine

open Sys2Proof Sys2Proof.Safety

theorem sliceDie_ne_mgt (k : Nat) : sliceDie k ≠ mgtDie := by
  unfold sliceDie mgtDie
  split <;> omega

/-! Words and bytes. -/

/-- Writing back the bytes that stand in memory changes none. -/
theorem mread_mwriteN_mreadN {m : Mem} (canonical : memWf m = true) (a n b : Nat) : mread (mwriteN m a (mreadN m a n)) b = mread m b := by
  have len : (mreadN m a n).length = n := by simp [mreadN]
  rcases Nat.lt_or_ge b a with below | above
  · exact mread_mwriteN _ _ _ _ canonical (.inl below)
  · obtain ⟨i, rfl⟩ := Nat.exists_eq_add_of_le above
    rcases Nat.lt_or_ge i n with inside | beyond
    · rw [mread_mwriteN_at _ _ _ _ canonical (by omega)]
      simp [mreadN]
    · exact mread_mwriteN _ _ _ _ canonical (.inr (by omega))

theorem rd64_of_mread {s t : State} (same : ∀ b, mread t.mem b = mread s.mem b) (a : Nat) : rd64 t a = rd64 s a := by
  simp only [rd64, mreadN, same]

theorem bits_putBits_same {hi lo : Nat} (w v : Nat) (h : lo ≤ hi ∧ hi < 64) :
    bits (putBits w hi lo v % 2 ^ 64) hi lo = v % 2 ^ (hi + 1 - lo) := by
  rcases bits_putBits w hi lo v with same | wide | none
  · exact same
  · omega
  · omega

/-- A word that holds a value from bit 32 on holds none below. -/
theorem bits_low_mul (v : Nat) : bits (v * 2 ^ 32 % 2 ^ 64) 31 0 = 0 := by
  simp only [bits, Nat.shiftRight_zero]
  omega

theorem bit_putBits_one (w : Nat) : bit (putBits w 32 32 1 % 2 ^ 64) 32 = true := by
  have one : bits (putBits w 32 32 1 % 2 ^ 64) 32 32 = 1 := bits_putBits_same w 1 (by decide)
  simpa [bit, bits, Nat.testBit, Nat.and_comm, Nat.and_one_is_mod] using one

/-! Reads and writes at the home slice. -/

theorem touchLine_resident (s : State) (l : Nat) : (touchLine s l).cache.resident.contains l = true := by
  unfold touchLine
  split
  · assumption
  · simp

theorem readMiss_resident {s : State} {a : Nat} {o : ReadOutcome} (good : (readMiss s a o).2 = stSuccess) :
    (readMiss s a o).1.cache.resident.contains (lineOf a) = true := by
  unfold readMiss at good ⊢
  generalize (if isNear a then readMif s a o else readFar s a o) = r at good ⊢
  by_cases got : r.2 = stSuccess
  · simp only [got, if_true]
    exact touchLine_resident _ _
  · simp only [got, if_false] at good

/-- A line that its home slice has read is resident. -/
theorem readLine_resident {s : State} {a : Nat} (good : (readLine s a (.ok 0)).2 = stSuccess) :
    (readLine s a (.ok 0)).1.cache.resident.contains (lineOf a) = true := by
  unfold readLine at good ⊢
  dsimp only at good ⊢
  split_ifs at good ⊢ with _ _ missing
  · exact readMiss_resident good
  · simpa using missing

section

variable {s u : State} {a e : Nat} (line : sliceRead s a = (u, e))

include line

theorem sliceRead_mem : u.mem = s.mem := by
  have within := sliceRead_within (M := 0x710000f89) rfl s a .refl
  rw [line] at within
  exact within.same .mem rfl

theorem sliceRead_resident (good : e = stSuccess) : u.cache.resident.contains (lineOf a) = true := by
  have answer : readLine (askHost s a false) a (.ok 0) = (u, e) := line
  have held := readLine_resident (s := askHost s a false) (a := a) (by rw [answer]; exact good)
  rwa [answer] at held

end

/-- A resident line differs from its tier. -/
def dirtied (s : State) (l : Nat) : State :=
  { s with cache := { s.cache with dirty := if s.cache.dirty.contains l then s.cache.dirty else l :: s.cache.dirty } }

theorem dirtied_within {M : Nat} {s0 : State} (hM : Sub 0x100 M) (s : State) (l : Nat) (h : Within M s0 s) : Within M s0 (dirtied s l) :=
  .cache h (Sub.has hM rfl)

section

variable {s : State} {a : Nat} (data : List Byte) (held : s.cache.resident.contains (lineOf a) = true) (part : data.length ≠ 512)

include held part

/-- A part of a resident line needs no fill. -/
theorem writeLine_part : (writeLine s a data (.ok 0)).1 =
    if isNear a && stackFailed s (stackOf a) then uncorrectable s a 0
    else if !isNear a && farOut s a then bump s (farOff (farPortOf a) FAR_OOR_COUNT) 1
    else if isNear a then bumpMif (bumpMif (wrBytes (dirtied s (lineOf a)) a data) a MIF_BYTES_WRITTEN data.length) a MIF_WRITE_CRC_COUNT 0
    else bump (wrBytes (dirtied s (lineOf a)) a data) (farOff (farPortOf a) FAR_BYTES_WRITTEN) data.length := by
  have notWhole : (data.length == 512 && a % 512 == 0) = false := by simp [part]
  have kept : touchLine s (lineOf a) = s := if_pos held
  simp only [writeLine, notWhole, kept, Bool.false_eq_true, if_false, apply_ite Prod.fst]
  rfl

/-- Where the line's tier is out of reach, the write is only counted. -/
theorem writeLine_part_effect : Within (partMask [.regs, .mem, .cache] false) s (writeLine s a data (.ok 0)).1 ∧
    ((writeLine s a data (.ok 0)).1.mem = s.mem ∨ (writeLine s a data (.ok 0)).1.mem = mwriteN s.mem a data) := by
  have written : Within (partMask [.regs, .mem, .cache] false) s (wrBytes (dirtied s (lineOf a)) a data) :=
    wrBytes_within rfl _ _ _ (dirtied_within rfl _ _ .refl)
  rw [writeLine_part data held part]
  split_ifs with lost out near
  · exact ⟨bumpMif_within rfl _ _ _ _ .refl, .inl rfl⟩
  · exact ⟨bump_within rfl _ _ _ .refl, .inl rfl⟩
  · exact ⟨bumpMif_within rfl _ _ _ _ (bumpMif_within rfl _ _ _ _ written), .inr rfl⟩
  · exact ⟨bump_within rfl _ _ _ written, .inr rfl⟩

theorem sliceWrite_part : Within (partMask [.regs, .mem, .cache, .out] false) s (sliceWrite s a data (.ok 0)).1 ∧
    ((sliceWrite s a data (.ok 0)).1.mem = s.mem ∨ (sliceWrite s a data (.ok 0)).1.mem = mwriteN s.mem a data) := by
  have asked : Within (partMask [.out] false) s (askHost s a true) := askHost_within rfl s a true .refl
  have mem : (askHost s a true).mem = s.mem := asked.same .mem rfl
  have heldThen : (askHost s a true).cache.resident.contains (lineOf a) = true := by rwa [show _ = s.cache from asked.same .cache rfl]
  obtain ⟨within, bytes⟩ := writeLine_part_effect data heldThen part
  rw [mem] at bytes
  have write : sliceWrite s a data (.ok 0) = writeLine (askHost s a true) a data (.ok 0) := by
    simp only [sliceWrite, heldThen, Bool.or_true, if_true]
  rw [write]
  exact ⟨(asked.up rfl).trans (within.up rfl), bytes⟩

end

/-- Bytes that stand in memory are written back to a resident line: memory and the networks are as they were. -/
theorem sliceWrite_back {s : State} {a n : Nat} (canonical : MemoryCanonical s) (held : s.cache.resident.contains (lineOf a) = true)
    (part : n ≠ 512) : OnlyParts [.regs, .mem, .cache, .out] s (sliceWrite s a (mreadN s.mem a n) (.ok 0)).1 ∧
      ∀ b, mread (sliceWrite s a (mreadN s.mem a n) (.ok 0)).1.mem b = mread s.mem b := by
  obtain ⟨within, same | written⟩ := sliceWrite_part (mreadN s.mem a n) held (by simpa [mreadN] using part)
  · exact ⟨within.onlyParts, fun b => by rw [same]⟩
  · exact ⟨within.onlyParts, fun b => by rw [written, mread_mwriteN_mreadN canonical]⟩

end Sys2Proof.Machine
end

section
/-! PROOF. Activation sparsity (07_activation_sparsity.md): what a report of the audit leaves in the predictor's state record and on the chain
(R187). The record's words are read off the state that the report leaves; its write back to the home slice changes none of them. -/

namespace Sys2Proof.Machine

open Sys2Proof Sys2Proof.Safety

/-! The record's window and band, with a report's counts. -/

/-- WIN_INACTIVE of the record at address a, with the report's. -/
def auditInactive (u : State) (a n : Nat) : Nat := (bits (rd64 u (a + 16)) 31 0 + n) % 2 ^ 32
/-- WIN_MISSES. -/
def auditMisses (u : State) (a n : Nat) : Nat := (bits (rd64 u (a + 16)) 63 32 + n) % 2 ^ 32
/-- WIN_TOKENS. -/
def auditTokens (u : State) (a n : Nat) : Nat := (bits (rd64 u (a + 24)) 31 0 + n) % 2 ^ 32
/-- BAND. -/
def auditBand (u : State) (a : Nat) : F32 := BitVec.ofNat 32 (bits (rd64 u a) 31 0)
/-- BAND after a widening: at most BAND_MAX. -/
def widerBand (band step max : F32) : F32 := if ltF32 max (addF32 band step) then max else addF32 band step

/-! The record's words, and what lies beside them. -/

/-- Of memory only the 48 bytes of the record at address a have changed. -/
def RecordChange (a : Nat) (u t : State) : Prop := MemoryCanonical t ∧ ∀ b, b < a ∨ a + 48 ≤ b → mread t.mem b = mread u.mem b

theorem RecordChange.wr64 {a x : Nat} {u t : State} (h : RecordChange a u t) (v : Nat) (inside : a ≤ x ∧ x + 8 ≤ a + 48) :
    RecordChange a u (wr64 t x v) := by
  obtain ⟨canonical, beside⟩ := h
  exact ⟨memWf_wr64 _ _ _ canonical, fun b outside => (mread_wr64 _ _ _ _ canonical (by omega)).trans (beside b outside)⟩

theorem RecordChange.of_mem {a : Nat} {u t v : State} (h : RecordChange a u t) (mem : v.mem = t.mem) : RecordChange a u v := by
  rwa [RecordChange, MemoryCanonical, mem]

section

variable {u : State} (a : Nat) (canonical : MemoryCanonical u)

include canonical

theorem auditNote_change (wi wm wt : Nat) : RecordChange a u (auditNote u a wi wm wt) :=
  RecordChange.wr64 (RecordChange.wr64 ⟨canonical, fun _ _ => rfl⟩ _ (by omega)) _ (by omega)

theorem auditNote_words (wi wm wt : Nat) : rd64 (auditNote u a wi wm wt) a = rd64 u a ∧
    rd64 (auditNote u a wi wm wt) (a + 16) = (wi + wm * 2 ^ 32) % 2 ^ 64 ∧
    bits (rd64 (auditNote u a wi wm wt) (a + 24)) 31 0 = wt % 2 ^ 32 := by
  have noted := memWf_wr64 u (a + 16) (wi + wm * 2 ^ 32) canonical
  refine ⟨?_, ?_, ?_⟩
  · rw [auditNote, rd64_wr64_ne _ _ _ _ noted (by omega), rd64_wr64_ne _ _ _ _ canonical (by omega)]
  · rw [auditNote, rd64_wr64_ne _ _ _ _ noted (by omega), rd64_wr64 _ _ _ canonical]
  · rw [auditNote, rd64_wr64 _ _ _ noted]
    exact bits_putBits_same _ wt (by decide)

variable (w0 : Nat) (widened : Bool) (wi wm : Nat)

theorem auditClose_change : RecordChange a u (auditClose u a w0 widened wi wm) :=
  .wr64 (.wr64 (.wr64 (.wr64 (.wr64 ⟨canonical, fun _ _ => rfl⟩ _ (by omega)) _ (by omega)) _ (by omega)) _ (by omega)) _ (by omega)

theorem auditClose_words : rd64 (auditClose u a w0 widened wi wm) a = w0 % 2 ^ 64 ∧
    rd64 (auditClose u a w0 widened wi wm) (a + 16) = 0 ∧
    bits (rd64 (auditClose u a w0 widened wi wm) (a + 24)) 31 0 = 0 ∧
    rd64 (auditClose u a w0 widened wi wm) (a + 32) = (rd64 u (a + 32) + wi) % 2 ^ 64 ∧
    rd64 (auditClose u a w0 widened wi wm) (a + 40) = (rd64 u (a + 40) + wm) % 2 ^ 64 := by
  have afterBand := memWf_wr64 u a w0 canonical
  have afterWindow := memWf_wr64 _ (a + 16) 0 afterBand
  have afterTokens v := memWf_wr64 _ (a + 24) v afterWindow
  have afterInactive v v' := memWf_wr64 _ (a + 32) v' (afterTokens v)
  have started : bits ((bits (rd64 u (a + 24)) 63 32 + b2n widened) % 2 ^ 32 * 2 ^ 32 % 2 ^ 64) 31 0 = 0 := bits_low_mul _
  have wf : memWf u.mem = true := canonical
  simpa [auditClose, rd64_wr64, rd64_wr64_ne, wf, afterBand, afterWindow, afterTokens, afterInactive] using started

end

/-! The outcomes of a report. -/

@[simp] theorem countSaturated_mem (s : State) : (countSaturated s).mem = s.mem := rfl
@[simp] theorem countSaturated_net (s : State) : (countSaturated s).net = s.net := rfl
@[simp] theorem countSaturated_now (s : State) : now (countSaturated s) = now s := rfl
@[simp] theorem auditNote_net (u : State) (a wi wm wt : Nat) : (auditNote u a wi wm wt).net = u.net := by
  simp only [auditNote, wr64_net]
@[simp] theorem auditClose_net (u : State) (a w0 : Nat) (widened : Bool) (wi wm : Nat) : (auditClose u a w0 widened wi wm).net = u.net := by
  simp only [auditClose, wr64_net]
@[simp] theorem auditClose_now (u : State) (a w0 : Nat) (widened : Bool) (wi wm : Nat) : now (auditClose u a w0 widened wi wm) = now u := by
  simp only [auditClose, wr64_now_of]

section

variable {u : State} {c n base a tokens inactive misses limit window : Nat} {step max : F32}

theorem applyAudit_counts (below : auditTokens u a tokens < window) :
    applyAudit u c n base a tokens inactive misses limit window step max =
      auditNote u a (auditInactive u a inactive) (auditMisses u a misses) (auditTokens u a tokens) := if_pos below

variable (full : window ≤ auditTokens u a tokens)

include full

theorem applyAudit_keepsBand (few : ¬ limit * auditInactive u a inactive < auditMisses u a misses * 65536) :
    applyAudit u c n base a tokens inactive misses limit window step max =
      auditClose u a (rd64 u a) false (auditInactive u a inactive) (auditMisses u a misses) :=
  (if_neg (Nat.not_lt.mpr full)).trans (if_neg (ne_true_of_eq_false (decide_eq_false few)))

variable (many : limit * auditInactive u a inactive < auditMisses u a misses * 65536)

include many

theorem applyAudit_widens (narrow : ltF32 (auditBand u a) max = true) :
    applyAudit u c n base a tokens inactive misses limit window step max =
      raise (bumpCore (auditClose u a (putBits (rd64 u a) 31 0 (widerBand (auditBand u a) step max).toNat) true (auditInactive u a inactive)
        (auditMisses u a misses)) c CORE_PRED_WIDEN_COUNT 1) (sliceDie (homeSlice a)) 0x301 1 n c
        [base, (widerBand (auditBand u a) step max).toNat, auditTokens u a tokens, auditInactive u a inactive, auditMisses u a misses] :=
  (if_neg (Nat.not_lt.mpr full)).trans ((if_pos (decide_eq_true many)).trans (if_pos narrow))

theorem applyAudit_saturates (wide : ltF32 (auditBand u a) max = false) :
    applyAudit u c n base a tokens inactive misses limit window step max =
      raise (countSaturated (auditClose u a (putBits (rd64 u a) 32 32 1) false (auditInactive u a inactive) (auditMisses u a misses)))
        (sliceDie (homeSlice a)) 0x302 2 n c
        [base, (auditBand u a).toNat, auditTokens u a tokens, auditInactive u a inactive, auditMisses u a misses] :=
  (if_neg (Nat.not_lt.mpr full)).trans ((if_pos (decide_eq_true many)).trans (if_neg (ne_true_of_eq_false wide)))

end

section

variable {u v : State} {c n base a tokens inactive misses limit window : Nat} {step max : F32}
  (applied : applyAudit u c n base a tokens inactive misses limit window step max = v)

include applied

/-- At the window the counts go into the totals, whatever becomes of the band. -/
theorem applyAudit_closes (full : window ≤ auditTokens u a tokens) :
    ∃ w0 widened, v.mem = (auditClose u a w0 widened (auditInactive u a inactive) (auditMisses u a misses)).mem := by
  subst applied
  by_cases many : limit * auditInactive u a inactive < auditMisses u a misses * 65536
  · cases band : ltF32 (auditBand u a) max
    · exact ⟨putBits (rd64 u a) 32 32 1, false, by rw [applyAudit_saturates full many band, raise_mem, countSaturated_mem]⟩
    · exact ⟨putBits (rd64 u a) 31 0 (widerBand (auditBand u a) step max).toNat, true, by
        rw [applyAudit_widens full many band, raise_mem, bumpCore_mem]⟩
  · exact ⟨rd64 u a, false, by rw [applyAudit_keepsBand full many]⟩

/-- Below the window the record counts on. -/
theorem applyAudit_counted (canonical : MemoryCanonical u) (below : auditTokens u a tokens < window) :
    rd64 v a = rd64 u a ∧ rd64 v (a + 16) = auditInactive u a inactive + auditMisses u a misses * 2 ^ 32 ∧
      bits (rd64 v (a + 24)) 31 0 = auditTokens u a tokens ∧ v.net = u.net := by
  obtain rfl := (applyAudit_counts below).symm.trans applied
  obtain ⟨band, counts, time⟩ := auditNote_words a canonical (auditInactive u a inactive) (auditMisses u a misses) (auditTokens u a tokens)
  have fits : auditInactive u a inactive + auditMisses u a misses * 2 ^ 32 < 2 ^ 64 := by
    have : auditInactive u a inactive < 2 ^ 32 := Nat.mod_lt _ (by decide)
    have : auditMisses u a misses < 2 ^ 32 := Nat.mod_lt _ (by decide)
    omega
  exact ⟨band, counts.trans (Nat.mod_eq_of_lt fits), time.trans (Nat.mod_mod _ _), auditNote_net ..⟩

/-- At the window the record starts over, with the counts in its totals. -/
theorem applyAudit_totals (canonical : MemoryCanonical u) (full : window ≤ auditTokens u a tokens) :
    rd64 v (a + 16) = 0 ∧ bits (rd64 v (a + 24)) 31 0 = 0 ∧ rd64 v (a + 32) = (rd64 u (a + 32) + auditInactive u a inactive) % 2 ^ 64 ∧
      rd64 v (a + 40) = (rd64 u (a + 40) + auditMisses u a misses) % 2 ^ 64 := by
  obtain ⟨w0, widened, mem⟩ := applyAudit_closes applied full
  obtain ⟨-, totals⟩ := auditClose_words a canonical w0 widened (auditInactive u a inactive) (auditMisses u a misses)
  simpa only [rd64_congr mem] using totals

/-- Within its limit the band stays, and no event is raised. -/
theorem applyAudit_kept (canonical : MemoryCanonical u) (full : window ≤ auditTokens u a tokens)
    (few : ¬ limit * auditInactive u a inactive < auditMisses u a misses * 65536) :
    v.net = u.net ∧ bits (rd64 v a) 31 0 = (auditBand u a).toNat := by
  obtain rfl := (applyAudit_keepsBand full few).symm.trans applied
  obtain ⟨band, -⟩ := auditClose_words a canonical (rd64 u a) false (auditInactive u a inactive) (auditMisses u a misses)
  refine ⟨auditClose_net .., ?_⟩
  rw [band, auditBand, BitVec.toNat_ofNat]
  simp only [bits, Nat.shiftRight_zero]
  omega

/-- Beyond it the band widens where it is below its bound. -/
theorem applyAudit_widened (canonical : MemoryCanonical u) (full : window ≤ auditTokens u a tokens)
    (many : limit * auditInactive u a inactive < auditMisses u a misses * 65536) (narrow : ltF32 (auditBand u a) max = true) :
    bits (rd64 v a) 31 0 = (widerBand (auditBand u a) step max).toNat ∧ SentEvent u v (sliceDie (homeSlice a)) 0x301 1
      [base, (widerBand (auditBand u a) step max).toNat, auditTokens u a tokens, auditInactive u a inactive, auditMisses u a misses] := by
  obtain rfl := (applyAudit_widens full many narrow).symm.trans applied
  obtain ⟨band, -⟩ := auditClose_words a canonical (putBits (rd64 u a) 31 0 (widerBand (auditBand u a) step max).toNat) true
    (auditInactive u a inactive) (auditMisses u a misses)
  refine ⟨?_, raise_sentEvent u _ _ _ _ _ _ _ (sliceDie_ne_mgt _)
    ((bumpCore_net ..).trans (auditClose_net ..)) ((bumpCore_now_of ..).trans (auditClose_now ..))⟩
  rw [rd64_congr ((raise_mem ..).trans (bumpCore_mem ..)), band, bits_putBits_same _ _ (by decide)]
  exact Nat.mod_eq_of_lt (BitVec.isLt _)

/-- At its bound the record saturates. -/
theorem applyAudit_saturated (canonical : MemoryCanonical u) (full : window ≤ auditTokens u a tokens)
    (many : limit * auditInactive u a inactive < auditMisses u a misses * 65536) (wide : ltF32 (auditBand u a) max = false) :
    bit (rd64 v a) 32 = true ∧ SentEvent u v (sliceDie (homeSlice a)) 0x302 2
      [base, (auditBand u a).toNat, auditTokens u a tokens, auditInactive u a inactive, auditMisses u a misses] := by
  obtain rfl := (applyAudit_saturates full many wide).symm.trans applied
  obtain ⟨flags, -⟩ := auditClose_words a canonical (putBits (rd64 u a) 32 32 1) false (auditInactive u a inactive) (auditMisses u a misses)
  refine ⟨?_, raise_sentEvent u _ _ _ _ _ _ _ (sliceDie_ne_mgt _)
    ((countSaturated_net _).trans (auditClose_net ..)) ((countSaturated_now _).trans (auditClose_now ..))⟩
  rw [rd64_congr ((raise_mem ..).trans (countSaturated_mem _)), flags]
  exact bit_putBits_one _

theorem applyAudit_change (canonical : MemoryCanonical u) : RecordChange a u v := by
  rcases Nat.lt_or_ge (auditTokens u a tokens) window with below | full
  · exact applied ▸ applyAudit_counts below ▸ auditNote_change a canonical _ _ _
  · obtain ⟨w0, widened, mem⟩ := applyAudit_closes applied full
    exact (auditClose_change a canonical w0 widened _ _).of_mem mem

theorem applyAudit_parts : OnlyParts [.regs, .mem, .hst, .dict, .net, .out] u v :=
  applied ▸ Within.onlyParts (back := false) (applyAudit_within rfl u c n base a tokens inactive misses limit window step max .refl)

end

/-! The command: the home slice reads the record, applies the report and writes the record back. -/

section

variable {c : CoreId} {n : StrandId} {base : BitVec 48} {tokens inactive misses : BitVec 32} {limit window : BitVec 16} {step max : F32}
  {a : Nat} {s u : State} {e : Nat} (mapped : translate s n base.toNat true = .ok a) (line : sliceRead s a = (u, e))

include mapped line

theorem execAuditReport_unread (bad : e ≠ stSuccess) :
    execAuditReport c n base tokens inactive misses limit window step max s = .next u := by
  simp only [execAuditReport, mapped, line, if_pos bad]

/-- A record that was read takes the report; writing it back to its slice changes neither memory nor the networks. -/
theorem execAuditReport_applies (canonical : MemoryCanonical s) (good : e = stSuccess) (v : State)
    (applied : applyAudit u c n base.toNat a tokens.toNat inactive.toNat misses.toNat limit.toNat window.toNat step max = v) :
    ∃ t, execAuditReport c n base tokens inactive misses limit window step max s = .next t ∧
      OnlyParts [.regs, .mem, .cache, .out] v t ∧ ∀ b, mread t.mem b = mread v.mem b := by
  have canonicalRead : MemoryCanonical u := by rwa [MemoryCanonical, sliceRead_mem line]
  have held : v.cache.resident.contains (lineOf a) = true := by
    rw [show v.cache = u.cache from applyAudit_parts applied .cache (by decide)]
    exact sliceRead_resident line good
  refine ⟨_, ?_, sliceWrite_back (n := 48) (applyAudit_change applied canonicalRead).1 held (by decide)⟩
  simp only [execAuditReport, mapped, line, good, applied, ne_eq, not_true_eq_false, if_false]

end

/-- An event on the chain is seen in every state with the same networks. -/
theorem sentEvent_of_net {u v t : State} {die code severity : Nat} {args : List Nat} (sent : SentEvent u v die code severity args)
    (net : t.net = v.net) : SentEvent u t die code severity args := by
  obtain ⟨e, chain, fields⟩ := sent
  exact ⟨e, (congrArg Net.chain net).trans chain, fields⟩

/-- Settles O20: the report's effect is that of `applyAudit` on the record that the home slice has read (07 R187), seen through the write back. -/
theorem auditReport : Obligations.AuditReport := by
  intro c n base tokens inactive misses limit window step max a s canonical mapped
  refine ⟨fun u e line bad => execAuditReport_unread mapped line bad, fun u line => ?_⟩
  intro wi wm wt band much
  have canonicalRead : MemoryCanonical u := by rwa [MemoryCanonical, sliceRead_mem line]
  generalize applied : applyAudit u c n base.toNat a tokens.toNat inactive.toNat misses.toNat limit.toNat window.toNat step max = v
  obtain ⟨t, runs, back, bytes⟩ := execAuditReport_applies mapped line canonical rfl v applied
  obtain ⟨-, beside⟩ := applyAudit_change applied canonicalRead
  have net : t.net = v.net := back .net (by decide)
  have words : ∀ x, rd64 t x = rd64 v x := rd64_of_mread bytes
  refine ⟨t, runs, OnlyParts.trans (applyAudit_parts applied) back (by decide) (by decide), fun b outside => ?_, fun below => ?_,
    fun full => ?_⟩
  · rw [bytes, beside b outside, sliceRead_mem line]
  · obtain ⟨band, counts, time, silent⟩ := applyAudit_counted applied canonicalRead below
    exact ⟨(words _).trans band, (words _).trans counts, (words _).symm ▸ time, net.trans silent⟩
  · obtain ⟨counts, time, inactives, missed⟩ := applyAudit_totals applied canonicalRead full
    simp only [words]
    refine ⟨counts, time, inactives, missed, fun few => ?_, fun many narrow => ?_, fun many wide => ?_⟩
    · obtain ⟨silent, kept⟩ := applyAudit_kept applied canonicalRead full (of_decide_eq_false few)
      exact ⟨net.trans silent, kept⟩
    · obtain ⟨widened, sent⟩ := applyAudit_widened applied canonicalRead full (of_decide_eq_true many) narrow
      exact ⟨widened, sentEvent_of_net (widened.symm ▸ sent) net⟩
    · obtain ⟨saturated, sent⟩ := applyAudit_saturated applied canonicalRead full (of_decide_eq_true many) wide
      exact ⟨saturated, sentEvent_of_net sent net⟩

end Sys2Proof.Machine
end

section
/-! PROOF. Scratchpads (08_scratchpads.md): which registers of a core's block lie apart, and one rule for each shared operation of the scratchpads. -/

namespace Sys2Proof.Machine

open Sys2Proof Sys2Proof.Safety

/-! Places of registers (08; 16). -/

theorem bits_mod_word (w : Nat) {hi : Nat} (lo : Nat) (h : hi < 64) : bits w hi lo % 2 ^ 64 = bits w hi lo :=
  Nat.mod_eq_of_lt ((bits_lt w hi lo).trans_le (Nat.pow_le_pow_right (by decide) (by omega)))

theorem coreOff_inj {c o p : Nat} : coreOff c o = coreOff c p ↔ o = p := by
  unfold coreOff
  omega

theorem coreOff_ne_hstOff {o : Nat} (c k : Nat) (h : o < 0x1000) : coreOff c k ≠ hstOff o := by
  unfold coreOff hstOff
  omega

theorem windowOff_inj {c w k j : Nat} : windowOff c w k = windowOff c w j ↔ k = j := by
  rw [windowOff, windowOff, coreOff_inj]
  omega

theorem windowOff_ne_markerOff {c w k : Nat} (j : Nat) (hw : w < 64) (hk : k < 4) : windowOff c w k ≠ markerOff c j := by
  rw [windowOff, markerOff, Ne, coreOff_inj]
  omega

theorem regionOff_ne_coreOff {c o : Nat} (m r w : Nat) (h : o < 0x2000) : regionOff c m r w ≠ coreOff c o := by
  rw [regionOff, Ne, coreOff_inj]
  omega

theorem reg_setReg_same (s : State) (off v : Nat) : reg (setReg s off v) off = v % 2 ^ 64 := (reg_setReg ..).trans (if_pos rfl)
theorem reg_setReg_other (s : State) {off o : Nat} (v : Nat) (other : o ≠ off) : reg (setReg s off v) o = reg s o :=
  (reg_setReg ..).trans (if_neg other.symm)

theorem setReg_parts (s : State) (off v : Nat) : OnlyParts [.regs] s (setReg s off v) :=
  (setReg_within (M := partMask [.regs] false) rfl s off v .refl).onlyParts

theorem updCore_parts (s : State) (c : Nat) (f : Core → Core) : OnlyParts [.cores] s (updCore s c f) :=
  (updCore_within (M := partMask [.cores] false) rfl s c f .refl).onlyParts

/-! Markers and windows (08 R210, R214, R215). -/

/-- The only wait of a core is answered once its marker has come to the target (09 R246). -/
theorem checkWait_answers {s : State} {c : Nat} {w : Nat × Nat × Nat} (waits : (core s c).waits = [w])
    (met : markerReached (marker s c w.2.1) w.2.2 = true) :
    (core (checkWait s c) c).waits = [] ∧ Sent s (checkWait s c) (coreDie c) hstDie (.markerReached w.1) := by
  simp [checkWait, each, waits, met, Sent]

/-- An open window shows STATE 1, and its marker 0 (08 R210). -/
theorem reg_openWindow (s : State) (c w off : Nat) : reg (openWindow s c w) off =
    if markerOff c (winMarker s c w) = off then 0
    else if windowOff c w 0 = off then putBits (reg s (windowOff c w 0)) 1 0 1 % 2 ^ 64 else reg s off := by
  obtain ⟨u, opened, regs⟩ : ∃ u, openWindow s c w =
      checkWait (setReg (setField u (windowOff c w 0) 1 0 1) (markerOff c (winMarker u c w)) 0) c ∧ u.regs = s.regs :=
    ⟨_, rfl, by split <;> rfl⟩
  have same (o : Nat) : reg u o = reg s o := reg_congr regs o
  simp [opened, winMarker, same]

theorem winState_openWindow (s : State) (c : Nat) {w : Nat} (hw : w < 64) : winState (openWindow s c w) c w = 1 := by
  rw [winState, reg_openWindow, if_neg (windowOff_ne_markerOff _ hw (by decide)).symm, if_pos rfl, bits_putBits_same _ _ (by decide)]
  rfl

theorem marker_openWindow (s : State) (c w : Nat) : marker (openWindow s c w) c (winMarker s c w) = 0 := by
  rw [marker, reg_openWindow, if_pos rfl, Nat.zero_mod]

theorem winState_setState (s : State) (c w v : Nat) : winState (setField s (windowOff c w 0) 1 0 v) c w = v % 4 := by
  rw [winState, reg_setField, if_pos rfl, bits_putBits_same _ _ (by decide)]
  rfl

/-- A window of which the buffer holds no row closes at once (08 R215). -/
theorem closeWin_unbuffered {s : State} {c w : Nat} (opened : winState s c w = 1)
    (unbuffered : (core s c).gb.all (fun g => g.win != some w) = true) :
    closeWin s c w = setField s (windowOff c w 0) 1 0 2 := by
  have none_held : (core s c).gb.filter (fun g => g.win == some w) = [] := by
    rw [List.filter_eq_nil_iff]
    intro g held
    simpa using List.all_eq_true.mp unbuffered g held
  simp [closeWin, closeWindow, each, opened, none_held]

/-! Rows and the gathering buffer (08 R205 to R207, R217, R219). -/

/-- An empty buffer has no part of a row to flush. -/
theorem flushRow_unbuffered {s : State} {c : Nat} (unbuffered : (core s c).gb = []) (m r : Nat) (fails : Bool) : flushRow s c m r fails = s := by
  simp [flushRow, gbFind, unbuffered]

theorem core_writeRow (s : State) (c m r : Nat) (data : List Byte) :
    core (writeRow s c m r data) c = { core s c with badRows := (core s c).badRows.filter (· != rowKey m r) } := by
  rw [writeRow, core_updCore, if_pos rfl]
  rfl

/-- Rows that the core's engines can read, with an empty buffer, are read from the state as it is (08 R206, R217). -/
theorem useRows_unbuffered {s u : State} {c : Nat} (unbuffered : (core s c).gb = []) {l : List (Nat × Nat)} (usable : useRows c l s = (u, true)) :
    u = s := by
  induction l with
  | nil => exact (congrArg Prod.fst usable).symm
  | cons p l ih =>
    rw [useRows, flushRow_unbuffered unbuffered] at usable
    dsimp only at usable
    split at usable
    · cases usable
    · split at usable
      · cases usable
      · split at usable
        · cases usable
        · exact ih usable

theorem gbStores_mem_congr {s t : State} (h : t.mem = s.mem) (c : Nat) (l : List GbRow) :
    (l.foldl (fun u g => gbStore u c g) t).mem = (l.foldl (fun u g => gbStore u c g) s).mem := by
  induction l generalizing s t with
  | nil => exact h
  | cons g l ih => exact ih (gbStore_mem_congr h c g)

/-- Flushing buffer rows writes their bytes, and leaves in the buffer what lies on none of their rows (08 R206). -/
theorem flushRows_does (l : List GbRow) (s : State) (c : Nat) (fails : Bool) :
    (each l s (fun s g => flushGb s c fails g)).mem = (l.foldl (fun u g => gbStore u c g) s).mem ∧
      (core (each l s (fun s g => flushGb s c fails g)) c).gb =
        (core s c).gb.filter (fun x => l.all (fun g => !(x.mem == g.mem && x.row == g.row))) := by
  induction l generalizing s with
  | nil => simp [each]
  | cons g l ih =>
    obtain ⟨stored, waits, forgotten⟩ := flushGb_does s c fails g
    obtain ⟨mem, gb⟩ := ih (flushGb s c fails g)
    refine ⟨mem.trans (gbStores_mem_congr stored c l), gb.trans ?_⟩
    rw [forgotten, List.filter_filter]
    simp only [List.all_cons, Bool.and_comm]

end Sys2Proof.Machine
end

section
/-! PROOF. Region and window entries and stitch markers (08 R198, R201, R210, R214): what each word of an entry takes. -/

namespace Sys2Proof.Machine

open Sys2Proof Sys2Proof.Safety

/-! Region entries (08 R198, R201). -/

section

variable (c : CoreId) (m : Fin 3) (r : RegionId) (v : Word) (s : State)

theorem execRegionEntryWrite_place : execRegionEntryWrite c m r 0 v s = .next (
    if namedRegion s c m r then rejectConfig (setField s (regionOff c m r (0 : Fin 8)) 49 49 (bits v.toNat 49 49)) c
    else setReg s (regionOff c m r (0 : Fin 8)) (bits v.toNat 49 0)) := rfl

theorem execRegionEntryWrite_pointers : execRegionEntryWrite c m r 1 v s = .next (
    if namedRegion s c m r then rejectConfig s c
    else setReg s (regionOff c m r (1 : Fin 8)) (bits v.toNat 20 0 + bits v.toNat 44 24 * 2 ^ 24)) := rfl

theorem execRegionEntryWrite_home : execRegionEntryWrite c m r 4 v s = .next (setReg s (regionOff c m r (4 : Fin 8)) (bits v.toNat 47 0)) := rfl

theorem execRegionEntryWrite_readOnly {word : Fin 8} (place : word ≠ 0) (pointers : word ≠ 1) (home : word ≠ 4) :
    execRegionEntryWrite c m r word v s = .next s := by
  have apart : word.val ≠ 0 ∧ word.val ≠ 1 ∧ word.val ≠ 4 := by omega
  simp [execRegionEntryWrite, apart]

end

theorem rejectConfig_parts (s : State) (c : Nat) : OnlyParts [.cores] s (rejectConfig s c) := updCore_parts s c _

/-- A word of HEAD and TAIL fits a register. -/
theorem pointerWord_mod (v : Nat) : (bits v 20 0 + bits v 44 24 * 2 ^ 24) % 2 ^ 64 = bits v 20 0 + bits v 44 24 * 2 ^ 24 := by
  have head := bits_lt v 20 0
  have tail := bits_lt v 44 24
  omega

/-! Window entries (08 R210). -/

/-- What word k of a closed window's entry takes: of word 0 not STATE, of words 2 and 3 the fields that they hold. -/
def windowWord (k : Fin 4) (v : Nat) : Nat :=
  if k.val = 0 then v / 4 * 4 % 2 ^ 64 else if k.val = 1 then v else if k.val = 2 then bits v 47 0 else bits v 31 0

section

variable {c : CoreId} {w : WindowId} {s : State} (word : Fin 4) (v : Word)

theorem execWindowEntryWrite_open (opened : winState s c w ≠ 0) : execWindowEntryWrite c w word v s = .next (rejectConfig s c) :=
  congrArg Host.Outcome.next (if_pos opened)

theorem execWindowEntryWrite_closed (closed : winState s c w = 0) :
    execWindowEntryWrite c w word v s = .next (setReg s (windowOff c w word) (windowWord word v.toNat)) := by
  rw [execWindowEntryWrite, if_neg (not_not.mpr closed), windowWord]
  split_ifs <;> rfl

end

/-- A word that a window's entry takes fits its register, and word 0 leaves STATE at 0. -/
theorem windowWord_mod (k : Fin 4) (v : Word) : windowWord k v.toNat % 2 ^ 64 = windowWord k v.toNat := by
  have word := v.isLt
  rw [windowWord]
  split_ifs
  · exact Nat.mod_mod _ _
  · exact Nat.mod_eq_of_lt word
  · exact bits_mod_word _ _ (by decide)
  · exact bits_mod_word _ _ (by decide)

theorem bits_state_windowWord (v : Word) : bits (windowWord 0 v.toNat) 1 0 = 0 := by
  simp only [windowWord, bits, Fin.val_zero, if_true, Nat.shiftRight_zero]
  omega

/-- A write of a closed window's entry leaves the window closed. -/
theorem winState_windowEntry {c : CoreId} {w : WindowId} {s : State} (word : Fin 4) (v : Word) (closed : winState s c w = 0) :
    winState (setReg s (windowOff c w word) (windowWord word v.toNat)) c w = 0 := by
  by_cases state : word = 0
  · subst state
    rw [winState, Fin.val_zero, reg_setReg_same, windowWord_mod]
    exact bits_state_windowWord v
  · have apart : windowOff c w 0 ≠ windowOff c w word := fun same => state (Fin.ext (windowOff_inj.mp same).symm)
    rw [winState, reg_setReg_other _ _ apart]
    exact closed

/-! Stitch markers (08 R214). -/

theorem markerWrite_answers {c : CoreId} {k : MarkerId} {s : State} (v : Nat) {w : Nat × Nat × Nat} (waits : (core s c).waits = [w])
    (awaits : w.2.1 = k.val) (met : markerReached (v % 2 ^ 32) w.2.2 = true) :
    (core (checkWait (setReg s (markerOff c k) (v % 2 ^ 32)) c) c).waits = [] ∧
      Sent s (checkWait (setReg s (markerOff c k) (v % 2 ^ 32)) c) (coreDie c) hstDie (.markerReached w.1) := by
  have count : marker (setReg s (markerOff c k) (v % 2 ^ 32)) c w.2.1 = v % 2 ^ 32 := by
    rw [awaits, marker, reg_setReg, if_pos rfl]
    omega
  exact checkWait_answers (s := setReg s (markerOff c k) (v % 2 ^ 32)) waits (by rw [count]; exact met)

/-- Settles O22: each word of an entry has its own case of the write; a marker's write is a register's, and then answers the waits that it meets. -/
theorem scratchEntries : Obligations.ScratchEntries := by
  refine ⟨fun c m r word v s => ?_, fun c w word v s => ?_, fun c k v s => ?_⟩
  · obtain rfl | place := eq_or_ne word 0
    · refine ⟨_, execRegionEntryWrite_place .., ?_⟩
      cases named : namedRegion s c m r
      · have took : reg (setReg s (regionOff c m r (0 : Fin 8)) (bits v.toNat 49 0)) (regionOff c m r (0 : Fin 8)) = bits v.toNat 49 0 :=
          (reg_setReg_same ..).trans (bits_mod_word _ _ (by decide))
        exact ⟨OnlyParts.mono (setReg_parts _ _ _) _ (by simp), fun off other => reg_setReg_other s _ other, fun _ _ => ⟨took, rfl⟩, by simp⟩
      · exact ⟨OnlyParts.trans (setReg_parts _ _ _) (rejectConfig_parts _ _) (by simp) (by simp), fun off other => reg_setReg_other s _ other,
          by simp, fun _ _ => ⟨by simp [rejectConfig], reg_setReg_same ..⟩, by simp⟩
    obtain rfl | pointers := eq_or_ne word 1
    · refine ⟨_, execRegionEntryWrite_pointers .., ?_⟩
      cases named : namedRegion s c m r
      · have took := (reg_setReg_same s (regionOff c m r (1 : Fin 8)) _).trans (pointerWord_mod v.toNat)
        exact ⟨OnlyParts.mono (setReg_parts _ _ _) _ (by simp), fun off other => reg_setReg_other s _ other, by simp, by simp,
          fun _ _ => ⟨took, rfl⟩, by simp⟩
      · exact ⟨OnlyParts.mono (rejectConfig_parts _ _) _ (by simp), fun off other => rfl, by simp, by simp, by simp, fun _ _ => rfl, by simp⟩
    obtain rfl | home := eq_or_ne word 4
    · have took := (reg_setReg_same s (regionOff c m r (4 : Fin 8)) _).trans (bits_mod_word v.toNat 0 (hi := 47) (by decide))
      exact ⟨_, execRegionEntryWrite_home .., OnlyParts.mono (setReg_parts _ _ _) _ (by simp), fun off other => reg_setReg_other s _ other,
        by simp, by simp, by simp, by simp, fun _ => took, by simp⟩
    · exact ⟨s, execRegionEntryWrite_readOnly c m r v s place pointers home, fun p _ => by cases p <;> rfl, fun off _ => rfl,
        by simp [place, pointers, home]⟩
  · by_cases closed : winState s c w = 0
    · have took : reg (setReg s (windowOff c w word) (windowWord word v.toNat)) (windowOff c w word) = windowWord word v.toNat :=
        (reg_setReg_same ..).trans (windowWord_mod word v)
      refine ⟨_, execWindowEntryWrite_closed word v closed, fun opened => absurd closed opened, fun _ => ⟨setReg_parts _ _ _,
        fun off other => reg_setReg_other s _ other, winState_windowEntry word v closed, ?_⟩⟩
      rw [took]
      refine ⟨?_, ?_, ?_, ?_⟩
      · rintro rfl
        exact Nat.mod_eq_of_lt ((Nat.div_mul_le_self _ _).trans_lt v.isLt)
      all_goals rintro rfl; rfl
    · exact ⟨_, execWindowEntryWrite_open word v closed, fun _ => rfl, fun h => absurd h closed⟩
  · refine ⟨_, rfl, ?_, ?_, fun off other => ?_, fun w waits awaits met => markerWrite_answers v.toNat waits awaits met⟩
    · exact (checkWait_within rfl _ c (setReg_within rfl s _ _ .refl)).onlyParts (back := false)
    · rw [checkWait_reg, reg_setReg_same]
      omega
    · rw [checkWait_reg, reg_setReg_other s _ other]

end Sys2Proof.Machine
end

section
/-! PROOF. Landing windows, narrow writes and the gathering buffer (08 R205, R206, R210 to R215, R538): what each of their commands leaves. -/

namespace Sys2Proof.Machine

open Sys2Proof Sys2Proof.Safety

/-! Windows open and close (08 R210, R215). -/

section

variable {c : CoreId} {w : WindowId} {s : State}

theorem execWinOpen_refused (refused : openRefused s c w false = true) : execWinOpen c w false s = .next (rejectConfig s c) :=
  congrArg Host.Outcome.next (if_pos refused)

theorem execWinOpen_software (opens : openRefused s c w false = false) :
    execWinOpen c w false s = .next (updCore (openWindow s c w) c (fun x => { x with windowTask := tdel x.windowTask w })) :=
  congrArg Host.Outcome.next (if_neg (Bool.eq_false_iff.mp opens))

theorem execWinOpen_faults {x : CoreTask} (task : (core s c).task = some x) (refused : openRefused s c w true = true) :
    execWinOpen c w true s = .next (faultCore s c stWindowViolation 31 0 0) := by
  simp only [execWinOpen, task, refused, if_true]

theorem execWinOpen_task {x : CoreTask} (task : (core s c).task = some x) (opens : openRefused s c w true = false) :
    execWinOpen c w true s = .next (ownWindow (openWindow s c w) c w x.slot) := by
  simp only [execWinOpen, task, opens, Bool.false_eq_true, if_false]

theorem windowTask_ownWindow (s : State) (c w k : Nat) : tfind (core (ownWindow s c w k) c).windowTask w = some k := by
  simp [ownWindow, tfind_tset]

theorem execWindowClosed_closing (closing : winState s c w = 2) (drained : winInflight s c w = 0) : execWindowClosed c w s =
    .next (updCore (setField s (windowOff c w 0) 1 0 0) c (fun x => { x with windowTask := tdel x.windowTask w })) :=
  congrArg Host.Outcome.next (if_pos ⟨closing, drained⟩)

theorem execWindowClosed_waits (waits : winState s c w ≠ 2 ∨ winInflight s c w ≠ 0) : execWindowClosed c w s = .next s :=
  congrArg Host.Outcome.next (if_neg (by tauto))

end

/-! A refused write (08 R212, R213). -/

theorem nackCount_ne_lastNack (c : Nat) : coreOff c SPM_NACK_COUNT ≠ coreOff c SPM_LAST_NACK := by simp [coreOff]

theorem recordNack_count (s : State) (c w off cause : Nat) (src : Source) :
    coreReg (recordNack s c w off cause src) c SPM_NACK_COUNT = (coreReg s c SPM_NACK_COUNT + 1) % 2 ^ 64 := by
  rw [recordNack, recordNackAt, coreReg, reg_setReg_other _ _ (nackCount_ne_lastNack c), reg_bumpCore, if_pos rfl]
  rfl

theorem recordNack_cause (s : State) (c w off cause : Nat) (src : Source) :
    bits (coreReg (recordNack s c w off cause src) c SPM_LAST_NACK) 7 0 = cause % 256 := by
  rw [recordNack, recordNackAt, coreReg, reg_setReg_same, bits, Nat.shiftRight_zero]
  omega

theorem recordNack_parts (s : State) (c w off cause : Nat) (src : Source) : OnlyParts [.regs] s (recordNack s c w off cause src) :=
  (recordNack_within (M := partMask [.regs] false) rfl s c w off cause src .refl).onlyParts

theorem recordNack_reg_hst (s : State) (c w off cause : Nat) (src : Source) {o : Nat} (ho : o < 0x1000) :
    reg (recordNack s c w off cause src) (hstOff o) = reg s (hstOff o) := by
  rw [recordNack, recordNackAt, reg_setReg_other _ _ (coreOff_ne_hstOff c _ ho).symm, reg_bumpCore, if_neg (coreOff_ne_hstOff c _ ho)]

/-- A refused write of the host has been counted and recorded (16 R420, R421). -/
def dropNoted (s : State) (status source index : Nat) : State :=
  setReg (bump s (hstOff HST_POSTED_DROP_COUNT) 1) (hstOff HST_LAST_DROP) (status + source * 2 ^ 16 + index * 2 ^ 18)

theorem postedDrop_sends (s : State) (status source index : Nat) :
    ∃ m, postedDrop s status source index = sendChain (dropNoted s status source index) hstDie mgtDie m :=
  ⟨_, raise_sends (dropNoted s status source index) hstDie 0x801 1 0 0 [status, source, index] (by decide)⟩

/-- A write of the host that is refused is counted at the HST die, and no register of a core changes. -/
theorem postedDrop_does (s : State) (status source index : Nat) : OnlyParts [.regs, .net] s (postedDrop s status source index) ∧
    reg (postedDrop s status source index) (hstOff HST_POSTED_DROP_COUNT) = (reg s (hstOff HST_POSTED_DROP_COUNT) + 1) % 2 ^ 64 ∧
    ∀ c k, coreReg (postedDrop s status source index) c k = coreReg s c k := by
  obtain ⟨m, sent⟩ := postedDrop_sends s status source index
  rw [sent, dropNoted]
  refine ⟨?_, ?_, fun c k => ?_⟩
  · exact (sendChain_within rfl _ _ _ _ (setReg_within rfl _ _ _ (bump_within rfl s _ _ .refl))).onlyParts (back := false)
  · rw [sendChain_reg_of, reg_setReg_other _ _ (by decide), reg_bump, if_pos rfl]
  · rw [coreReg, sendChain_reg_of, reg_setReg_other _ _ (coreOff_ne_hstOff c k (by decide)), reg_bump,
      if_neg (coreOff_ne_hstOff c k (by decide)).symm]
    rfl

section

variable {c : CoreId} {src : Source} {w : WindowId} {row off : Nat} {data : List Byte} {s : State} (fails : Bool)

theorem execNarrowWrite_refused (refused : narrowCause s c w row off data.length src ≠ 0) :
    let cause := narrowCause s c w row off data.length src
    execNarrowWrite c src w row off data fails s = .next (refuseNarrow (recordNack s c w row cause src) c w src cause) := by
  simp only [execNarrowWrite, ingressNarrow, refused, ne_eq, not_false_eq_true, if_true, if_false]

theorem execNarrowWrite_gathers (taken : narrowCause s c w row off data.length src = 0) (stores : winMode s c w ≠ 2) :
    execNarrowWrite c src w row off data fails s =
      .next (gatherBytes s c (winMem s c w) (winBase s c w + row) off (some w.val) data fails) := by
  simp only [execNarrowWrite, ingressNarrow, taken, stores, ne_eq, not_true_eq_false, if_false, if_true]

theorem execNarrowWrite_adds (taken : narrowCause s c w row off data.length src = 0) (adds : winMode s c w = 2) :
    execNarrowWrite c src w row off data fails s = .next (addWindow s c w row off data) := by
  simp only [execNarrowWrite, ingressNarrow, taken, adds, ne_eq, not_true_eq_false, if_false, if_true]

end

/-! A write that waits in the gathering buffer (08 R205). -/

theorem length_tset_le {α : Type} (t : Tab α) (k : Nat) (v : α) : (tset t k v).length ≤ t.length + 1 := by
  induction t with
  | nil => simp [tset]
  | cons p t ih =>
    rw [tset]
    split
    · simp
    · split
      · simp
      · simpa using ih

/-- The bytes of a buffer row with new ones at their offsets. -/
def mergeCells (t : Tab Byte) (cells : List (Nat × Byte)) : Tab Byte := cells.foldl (fun t p => tset t p.1 p.2) t

theorem length_mergeCells_le (t : Tab Byte) (cells : List (Nat × Byte)) : (mergeCells t cells).length ≤ t.length + cells.length := by
  induction cells generalizing t with
  | nil => exact Nat.le_refl _
  | cons p cells ih =>
    have first := length_tset_le t p.1 p.2
    have rest := ih (tset t p.1 p.2)
    simp only [mergeCells, List.foldl_cons, List.length_cons] at rest ⊢
    omega

/-- Bytes with the offsets that they take from a first one on. -/
def cellsFrom (off : Nat) (data : List Byte) : List (Nat × Byte) := data.zipIdx.map (fun p => (off + p.2, p.1))

theorem length_cellsFrom (off : Nat) (data : List Byte) : (cellsFrom off data).length = data.length := by simp [cellsFrom]

theorem cellsFrom_cons (off : Nat) (b : Byte) (data : List Byte) : cellsFrom off (b :: data) = (off, b) :: cellsFrom (off + 1) data := by
  simp [cellsFrom, List.zipIdx_cons, List.zipIdx_succ, Nat.add_assoc, Nat.add_comm 1]

theorem le_of_mem_cellsFrom {off : Nat} {data : List Byte} {p : Nat × Byte} (h : p ∈ cellsFrom off data) : off ≤ p.1 := by
  obtain ⟨q, -, rfl⟩ := List.mem_map.mp h
  exact Nat.le_add_right ..

theorem tfind_mergeCells_other (t : Tab Byte) {cells : List (Nat × Byte)} {k : Nat} (apart : ∀ p ∈ cells, p.1 ≠ k) :
    tfind (mergeCells t cells) k = tfind t k := by
  simpa [mergeCells] using tfind_foldl_tset_other (fun _ => True) Prod.fst Prod.snd cells t (fun p hp _ => apart p hp)

/-- Each byte stands at its offset. -/
theorem tfind_mergeCells (data : List Byte) (t : Tab Byte) (off : Nat) {i : Nat} (hi : i < data.length) :
    tfind (mergeCells t (cellsFrom off data)) (off + i) = data[i]? := by
  induction data generalizing t off i with
  | nil => simp at hi
  | cons b data ih =>
    rw [cellsFrom_cons]
    show tfind (mergeCells (tset t off b) (cellsFrom (off + 1) data)) (off + i) = _
    cases i with
    | zero =>
      have apart : ∀ p ∈ cellsFrom (off + 1) data, p.1 ≠ off := fun p hp => Nat.ne_of_gt (le_of_mem_cellsFrom hp)
      rw [Nat.add_zero off, tfind_mergeCells_other _ apart, tfind_tset, if_pos rfl, List.getElem?_cons_zero]
    | succ i =>
      rw [Nat.add_comm i 1, ← Nat.add_assoc, ih _ _ (by simpa using hi), Nat.add_comm 1, List.getElem?_cons_succ]

/-- The buffer row that narrow bytes begin (08 R205). -/
def begunGb (s : State) (m r : Nat) (win : Option Nat) (cells : List (Nat × Byte)) : GbRow :=
  { mem := m, row := r, win := win, last := now s, bytes := mergeCells [] cells }

/-- In an empty buffer fewer bytes than a row has begin a row of their own. -/
theorem gatherCells_begins {s : State} {c : Nat} (unbuffered : (core s c).gb = []) (m r : Nat) (win : Option Nat) {cells : List (Nat × Byte)}
    (part : cells.length < 512) (fails : Bool) :
    core (gatherCells s c m r win cells fails) c = { core s c with gb := [begunGb s m r win cells] } ∧
      OnlyParts [.cores] s (gatherCells s c m r win cells fails) := by
  have unheld : gbFind s c m r = none := by simp [gbFind, unbuffered]
  have few : (mergeCells [] cells).length ≠ 512 := ((length_mergeCells_le [] cells).trans_lt (by simpa using part)).ne
  have gathered : gatherCells s c m r win cells fails =
      updCore (gbDrop s c m r) c (fun x => { x with gb := x.gb ++ [begunGb s m r win cells] }) := by
    rw [mergeCells] at few
    simp [gatherCells, unheld, unbuffered, few, begunGb, mergeCells]
  rw [gathered, gbDrop]
  refine ⟨by simp [unbuffered], ?_⟩
  exact (updCore_within rfl _ c _ (updCore_within rfl s c _ .refl)).onlyParts (back := false)

/-! Elements that are added (08 R211, R538). -/

/-- The element at an address with a new one added, rounded once (03 R71). -/
def elemSum (s : State) (a : Nat) (data : List Byte) : F32 := addF32 (BitVec.ofNat 32 (rd32 s a)) (BitVec.ofNat 32 (leNat data))

/-- One element is added to what stands in its place, and no other byte is written. -/
theorem addElems_one {s : State} {c m row : Nat} (off : Nat) {data : List Byte} (one : data.length = 4) (unbuffered : (core s c).gb = [])
    (good : (core s c).badRows.contains (rowKey m row) = false) : (addElems s c m row off data).2 = true ∧
      (addElems s c m row off data).1.mem =
        mwriteN s.mem (rowDpa c m row + off) (leBytes 4 (elemSum s (rowDpa c m row + off) data).toNat) := by
  have whole : data.take 4 = data := List.take_of_length_le one.le
  have readable : rowKey m row ∉ (core s c).badRows := by simpa using good
  simp [addElems, flushRow_unbuffered unbuffered, readable, one, each, whole, wrBytes, elemSum]

theorem addWindow_one {s : State} {c w row : Nat} (off : Nat) {data : List Byte} (one : data.length = 4) (unbuffered : (core s c).gb = [])
    (good : (core s c).badRows.contains (rowKey (winMem s c w) (winBase s c w + row)) = false) :
    let a := rowDpa c (winMem s c w) (winBase s c w + row) + off
    (addWindow s c w row off data).mem = mwriteN s.mem a (leBytes 4 (elemSum s a data).toNat) := by
  obtain ⟨added, mem⟩ := addElems_one off one unbuffered good
  dsimp only
  rw [addWindow, if_pos added, countWindow_mem, mem]

/-- An FP32 element that has been written, read back. -/
theorem rd32_write {s t : State} {a : Nat} {x : F32} (canonical : MemoryCanonical s) (mem : t.mem = mwriteN s.mem a (leBytes 4 x.toNat)) :
    rd32 t a = x.toNat ∧ ∀ b, b < a ∨ a + 4 ≤ b → mread t.mem b = mread s.mem b := by
  have bytes : (leBytes 4 x.toNat).length = 4 := leBytes_length ..
  refine ⟨?_, fun b outside => ?_⟩
  · have back := mreadN_mwriteN (leBytes 4 x.toNat) s.mem a canonical
    rw [bytes] at back
    rw [rd32, mem, back, leNat_leBytes]
    exact Nat.mod_eq_of_lt x.isLt
  · rw [mem]
    exact mread_mwriteN _ _ _ _ canonical (by rw [bytes]; exact outside)

/-! The buffer is flushed (08 R206). -/

theorem gbFind_place {s : State} {c m row : Nat} {g : GbRow} (held : gbFind s c m row = some g) : g.mem = m ∧ g.row = row := by
  simpa using List.find?_some held

section

variable {c : CoreId} {m : Fin 3} {row : Nat} {s : State} (fails : Bool)

theorem execGbIdleFlush_none (unheld : gbFind s c m row = none) : execGbIdleFlush c m row fails s = .next s := by
  simp only [execGbIdleFlush, unheld]

theorem execGbIdleFlush_early {g : GbRow} (held : gbFind s c m row = some g) (early : now s < g.last + objNat s 0x405002) :
    execGbIdleFlush c m row fails s = .next s := by
  simp only [execGbIdleFlush, held, if_neg (Nat.not_le.mpr early)]

theorem execGbIdleFlush_idle {g : GbRow} (held : gbFind s c m row = some g) (idle : g.last + objNat s 0x405002 ≤ now s) :
    execGbIdleFlush c m row fails s = .next (flushGb s c fails g) := by
  simp only [execGbIdleFlush, held, if_pos idle]

end

/-- A flushed row is in the buffer no longer, and fails its check exactly where the read before the merge failed (08 R206, R207). -/
theorem flushGb_forgets {s : State} {c m row : Nat} {g : GbRow} (fails : Bool) (held : gbFind s c m row = some g) :
    gbFind (flushGb s c fails g) c m row = none ∧
      (core (flushGb s c fails g) c).badRows.contains (rowKey m row) = (fails || (core s c).badRows.contains (rowKey m row)) := by
  obtain ⟨rfl, rfl⟩ := gbFind_place held
  obtain ⟨stored, waits, flushed⟩ := flushGb_does s c fails g
  rw [gbFind, flushed]
  generalize (fails || (core s c).badRows.contains (rowKey g.mem g.row)) = bad
  refine ⟨by simp [List.find?_eq_none, imp_iff_not_or], ?_⟩
  cases bad <;> simp
/-! The statement's parts. -/


/-- Settles O23: each command has one state for each of its outcomes, and the statement reads off what that state holds. A narrow write that the
ingress takes either begins a buffer row, byte by byte, or adds one element in place. -/
theorem windowsAndNarrowWrites : Obligations.WindowsAndNarrowWrites := by
  refine ⟨fun c w s => ?_, fun c w s => ?_, ?_, fun c m row fails s => ?_, fun c fails s => ?_⟩
  · refine ⟨execWinOpen_refused, fun opens => ?_, fun x task refused => ?_, fun x task opens => ?_⟩
    · exact ⟨_, execWinOpen_software opens, winState_openWindow s c w.isLt, marker_openWindow s c w⟩
    · exact ⟨_, execWinOpen_faults task refused, faultCore_faulted s c _ _ _ _ x task⟩
    · exact ⟨_, execWinOpen_task task opens, winState_openWindow s c w.isLt, windowTask_ownWindow ..⟩
  · refine ⟨fun other => congrArg Host.Outcome.next (if_neg other), fun opened unbuffered => ?_, fun closing drained => ?_, execWindowClosed_waits⟩
    · exact ⟨_, congrArg Host.Outcome.next (closeWin_unbuffered opened unbuffered), winState_setState s c w 2, setReg_parts _ _ _,
        fun off other => reg_setReg_other s _ other⟩
    · exact ⟨_, execWindowClosed_closing closing drained, winState_setState s c w 0,
        OnlyParts.trans (setReg_parts _ _ _) (updCore_parts _ _ _) (by simp) (by simp)⟩
  · intro c src w row off data fails s cause
    refine ⟨fun refused => ?_, fun taken stores unbuffered _ part => ?_, fun taken adds one canonical unbuffered good => ?_⟩
    · refine ⟨recordNack s c w row cause src, recordNack_parts _ _ _ _ _ _, recordNack_count .., recordNack_cause .., ?_, ?_, ?_⟩
      · rintro rfl
        obtain ⟨parts, count, cores⟩ := postedDrop_does (recordNack s c w row cause .host) stWindowViolation 1
          (apertureOf (recordNack s c w row cause .host) c w)
        exact ⟨_, execNarrowWrite_refused fails refused, parts, count.trans (by rw [recordNack_reg_hst _ _ _ _ _ _ (by decide)]), cores c⟩
      · rintro x rfl
        exact ⟨_, execNarrowWrite_refused fails refused, (sendBulk_within rfl _ _ _ _ _ _ _ _ .refl).onlyParts (back := false),
          sentPacket_of rfl rfl ..⟩
      · rintro n d rfl
        exact execNarrowWrite_refused fails refused
    · have few : (cellsFrom off data).length < 512 := by rw [length_cellsFrom]; omega
      obtain ⟨buffer, parts⟩ := gatherCells_begins unbuffered (winMem s c w) (winBase s c w + row) (some w.val) few fails
      exact ⟨_, begunGb s (winMem s c w) (winBase s c w + row) (some w.val) (cellsFrom off data), execNarrowWrite_gathers fails taken stores,
        congrArg Core.gb buffer, rfl, rfl, rfl, rfl, fun i hi => tfind_mergeCells data [] off hi, parts⟩
    · exact ⟨_, execNarrowWrite_adds fails taken adds, rd32_write canonical (addWindow_one off one unbuffered good)⟩
  · refine ⟨execGbIdleFlush_none fails, fun g held early => execGbIdleFlush_early fails held early, fun g held idle => ?_⟩
    exact ⟨_, execGbIdleFlush_idle fails held idle, (flushGb_does s c fails g).1, flushGb_forgets fails held⟩
  · obtain ⟨stored, left⟩ := flushRows_does (core s c).gb s c fails
    refine ⟨_, rfl, left.trans ?_, stored⟩
    rw [List.filter_eq_nil_iff]
    intro g held
    simpa using ⟨g, held, rfl, rfl⟩

end Sys2Proof.Machine
end

section
/-! PROOF. Fills, copies, reloads and the scrub of scratchpad rows (08 R203, R204, R208, R218, R222): rows that are written whole, the operation's
place in the scoreboard, and what its end leaves. -/

namespace Sys2Proof.Machine

open Sys2Proof Sys2Proof.Safety

/-! Rows written whole (08 R203, R219). -/

theorem rowDpa_add (c m r n : Nat) : rowDpa c m (r + n) = rowDpa c m r + n * 512 := by
  unfold rowDpa
  ring

theorem mem_writeRow (s : State) (c m r : Nat) (data : List Byte) : (writeRow s c m r data).mem = mwriteN s.mem (rowDpa c m r) data := rfl

/-- A row that a fill or copy writes, where the buffer holds nothing: its bytes, its detection word, and the homes that it loses. -/
def putRow (c m : Nat) (s : State) (r : Nat) (data : List Byte) : State :=
  loseHomes (writeRow (flushRow s c m r false) c m r data) c m r

section

variable {s : State} {c : Nat} (unbuffered : (core s c).gb = []) (m r : Nat) (data : List Byte)
include unbuffered

theorem putRow_mem : (putRow c m s r data).mem = mwriteN s.mem (rowDpa c m r) data := by
  rw [putRow, flushRow_unbuffered unbuffered, loseHomes_mem, mem_writeRow]

theorem putRow_core : core (putRow c m s r data) c = { core s c with badRows := (core s c).badRows.filter (· != rowKey m r) } := by
  rw [putRow, flushRow_unbuffered unbuffered, loseHomes_core, core_writeRow]

end

/-- Rows written one after another, from row dst + k on. -/
def putRows (c m dst : Nat) (data : List (List Byte)) (k : Nat) (s : State) : State :=
  each (data.zipIdx k) s (fun s d => putRow c m s (dst + d.2) d.1)

theorem putRows_cons (c m dst k : Nat) (d : List Byte) (data : List (List Byte)) (s : State) :
    putRows c m dst (d :: data) k s = putRows c m dst data (k + 1) (putRow c m s (dst + k) d) := rfl

/-- Rows of 512 bytes that are written touch neither the core beside their detection words nor a byte outside them, and each reads back. -/
theorem putRows_does (c m dst : Nat) {data : List (List Byte)} (whole : ∀ d ∈ data, d.length = 512) {s : State} (canonical : MemoryCanonical s)
    (unbuffered : (core s c).gb = []) (k : Nat) :
    (∃ l, core (putRows c m dst data k s) c = { core s c with badRows := l }) ∧
      (∀ a, a < rowDpa c m (dst + k) ∨ rowDpa c m (dst + k + data.length) ≤ a → mread (putRows c m dst data k s).mem a = mread s.mem a) ∧
      ∀ i (hi : i < data.length), mreadN (putRows c m dst data k s).mem (rowDpa c m (dst + k + i)) 512 = data[i] := by
  induction data generalizing s k with
  | nil => exact ⟨⟨_, rfl⟩, fun _ _ => rfl, fun i hi => absurd hi (Nat.not_lt_zero i)⟩
  | cons d data ih =>
    have size : d.length = 512 := whole d (by simp)
    have mem := putRow_mem unbuffered m (dst + k) d
    have cell := putRow_core unbuffered m (dst + k) d
    have canonical' : MemoryCanonical (putRow c m s (dst + k) d) := by
      rw [MemoryCanonical, mem]
      exact mwriteN_wf _ _ _ canonical
    obtain ⟨⟨l, kept⟩, outside, inside⟩ := ih (fun d hd => whole d (by simp [hd])) canonical' (by rw [cell]; exact unbuffered) (k + 1)
    have next : rowDpa c m (dst + (k + 1)) = rowDpa c m (dst + k) + 512 := rowDpa_add c m (dst + k) 1
    have last : rowDpa c m (dst + k + (d :: data).length) = rowDpa c m (dst + (k + 1) + data.length) := by
      rw [List.length_cons, Nat.add_comm data.length 1, ← Nat.add_assoc, ← Nat.add_assoc]
    have rows : rowDpa c m (dst + (k + 1)) ≤ rowDpa c m (dst + (k + 1) + data.length) := by
      rw [rowDpa_add c m (dst + (k + 1))]
      exact Nat.le_add_right ..
    rw [putRows_cons]
    refine ⟨⟨l, by rw [kept, cell]⟩, fun a ha => ?_, fun i hi => ?_⟩
    · rw [last] at ha
      rw [outside a (by omega), mem]
      exact mread_mwriteN _ _ _ _ canonical (by omega)
    · cases i with
      | zero =>
        have first : mreadN (putRows c m dst data (k + 1) (putRow c m s (dst + k) d)).mem (rowDpa c m (dst + k)) 512 =
            mreadN (putRow c m s (dst + k) d).mem (rowDpa c m (dst + k)) 512 :=
          List.map_congr_left fun j hj => outside _ (.inl (by rw [List.mem_range] at hj; omega))
        have back := mreadN_mwriteN d s.mem (rowDpa c m (dst + k)) canonical
        rw [size] at back
        exact first.trans ((congrArg (mreadN · _ 512) mem).trans back)
      | succ i =>
        have later := inside i (by simpa using hi)
        rwa [show dst + (k + 1) + i = dst + k + (i + 1) by omega] at later

/-! Fills and copies (08 R203, R204). -/

/-- The rows that a fill or copy writes, as they stand before it. -/
def opData (s : State) (c : Nat) (o : SpmOp) : List (List Byte) :=
  if o.copy then (List.range o.rows).map (fun i => mreadN s.mem (rowDpa c o.mem (o.src + i)) 512)
  else List.replicate o.rows ((List.range 64).flatMap (fun _ => leBytes 8 o.pattern))

theorem spmApply_eq (s : State) (c : Nat) (o : SpmOp) :
    spmApply s c o.copy o.mem o.dst o.src o.rows o.pattern = putRows c o.mem o.dst (opData s c o) 0 s := rfl

theorem opData_length (s : State) (c : Nat) (o : SpmOp) : (opData s c o).length = o.rows := by
  rw [opData]
  split <;> simp

/-- Each of them is a whole row. -/
theorem opData_whole (s : State) (c : Nat) (o : SpmOp) : ∀ d ∈ opData s c o, d.length = 512 := by
  intro d hd
  rw [opData] at hd
  split at hd
  · obtain ⟨i, -, rfl⟩ := List.mem_map.mp hd
    simp [mreadN]
  · obtain ⟨-, rfl⟩ := List.mem_replicate.mp hd
    simp [List.length_flatMap, leBytes_length]

theorem opData_get (s : State) (c : Nat) (o : SpmOp) {i : Nat} (hi : i < (opData s c o).length) : (opData s c o)[i] =
    if o.copy then mreadN s.mem (rowDpa c o.mem (o.src + i)) 512 else (List.range 64).flatMap (fun _ => leBytes 8 o.pattern) := by
  simp only [opData] at hi ⊢
  split <;> simp

/-- The operation that SPM_OP0 to SPM_OP2 ask for. -/
def askedOp (s : State) (c : Nat) (pattern : Word) : SpmOp :=
  { copy := bits (coreReg s c SPM_OP0) 1 0 == 1, mem := bits (coreReg s c SPM_OP0) 3 2, dst := bits (coreReg s c SPM_OP0) 25 6,
    src := bits (coreReg s c SPM_OP0) 45 26, rows := bits (coreReg s c SPM_OP1) 19 0, pattern := pattern.toNat }

/-- The state in which an operation that starts stands before the scoreboard. -/
def opAsked (s : State) (c : Nat) (pattern : Word) : State :=
  updCore (setReg s (coreOff c SPM_OP2) pattern.toNat) c (fun x => { x with op := some (askedOp s c pattern), opState := 1 })

theorem core_opAsked (s : State) (c : Nat) (pattern : Word) :
    core (opAsked s c pattern) c = { core s c with op := some (askedOp s c pattern), opState := 1 } := (core_updCore ..).trans (if_pos rfl)

theorem sbWaits_congr {s t : State} {c : Nat} (h : (core t c).sb = (core s c).sb) (reads writes : List (Fin 3 × Nat × Nat)) :
    sbWaits t c reads writes = sbWaits s c reads writes := by
  have meets : sbMeets t c = sbMeets s c := by
    funext b r
    rw [sbMeets, sbMeets, h]
  rw [sbWaits, sbWaits, meets, h]

section

variable {s : State} {c : CoreId}

theorem execSpmOpStart_refused (pattern : Word) (refused : opRefused s c = true) :
    execSpmOpStart c pattern s = .next (updCore s c (fun x => { x with opState := 3 })) := congrArg Host.Outcome.next (if_pos refused)

theorem execSpmOpStart_starts (pattern : Word) (starts : opRefused s c = false) :
    execSpmOpStart c pattern s = .next (opIssue (opAsked s c pattern) c) := congrArg Host.Outcome.next (if_neg (Bool.eq_false_iff.mp starts))

/-- The state in which an operation has taken its entries of the scoreboard (08 R208). -/
def opHeld (s : State) (c : Nat) (o : SpmOp) : State :=
  updCore (sbIssue s c (opRanges o).1 (opRanges o).2) c (fun x => { x with op := some { o with held := some (core s c).sbNext } })

/-- The scoreboard is the core's. -/
theorem opIssue_reg (off : Nat) : reg (opIssue s c) off = reg s off :=
  reg_congr ((opIssue_within (M := 0x10) rfl s c .refl).same .regs rfl) off

theorem opIssue_none (idle : (core s c).op = none) : opIssue s c = s := by
  simp only [opIssue, idle]

theorem opIssue_held {o : SpmOp} (op : (core s c).op = some o) (held : o.held.isSome = true) : opIssue s c = s := by
  simp only [opIssue, op, held, Bool.true_or, if_true]

theorem opIssue_waits {o : SpmOp} (op : (core s c).op = some o) (waits : sbWaits s c (opRanges o).1 (opRanges o).2 = true) :
    opIssue s c = s := by
  simp only [opIssue, op, waits, Bool.or_true, if_true]

theorem opIssue_takes {o : SpmOp} (op : (core s c).op = some o) (unheld : o.held = none)
    (free : sbWaits s c (opRanges o).1 (opRanges o).2 = false) : opIssue s c = opHeld s c o := by
  simp only [opIssue, op, unheld, free, Option.isSome_none, Bool.or_self, Bool.false_eq_true, if_false]
  rfl

theorem execSpmOpDone_none (idle : (core s c).op = none) : execSpmOpDone c s = .next s := by
  simp only [execSpmOpDone, opIssue_none idle, idle]

theorem execSpmOpDone_waits {o : SpmOp} (op : (core s c).op = some o) (unheld : o.held = none)
    (waits : sbWaits s c (opRanges o).1 (opRanges o).2 = true) : execSpmOpDone c s = .next s := by
  simp only [execSpmOpDone, opIssue_waits op waits, op, unheld]

/-- An operation that waits no longer takes its entries, and ends as if it had held them. -/
theorem execSpmOpDone_takes {o : SpmOp} (op : (core s c).op = some o) (unheld : o.held = none)
    (free : sbWaits s c (opRanges o).1 (opRanges o).2 = false) : execSpmOpDone c s = execSpmOpDone c (opHeld s c o) := by
  have taken : (core (opHeld s c o) c).op = some { o with held := some (core s c).sbNext } := by simp [opHeld]
  rw [execSpmOpDone, execSpmOpDone, opIssue_takes op unheld free, opIssue_held taken rfl]

/-- The state in which an operation past the scoreboard has given its entries back. -/
def opReleased (s : State) (c id : Nat) : State := sbDone (updCore s c (fun x => { x with op := none })) c id

theorem core_opReleased (s : State) (c id : Nat) :
    core (opReleased s c id) c = { core s c with op := none, sb := (core s c).sb.filter (fun z => z.id != id) } := by
  simp [opReleased, sbDone]

theorem execSpmOpDone_held {o : SpmOp} {id : Nat} (op : (core s c).op = some o) (held : o.held = some id) {u : State} {b : Bool}
    (rows : opRows (opReleased s c id) c o.copy o.mem o.src o.rows = (u, b)) : execSpmOpDone c s = .next (
      if (opFault s c o.copy o.mem o.dst o.src o.rows).isSome || !b then updCore u c (fun x => { x with opState := 3 })
      else updCore (spmApply u c o.copy o.mem o.dst o.src o.rows o.pattern) c (fun x => { x with opState := 2 })) := by
  rw [opReleased] at rows
  simp only [execSpmOpDone, opIssue_held op (by simp [held]), op, held, rows]
  rfl

end

theorem opRows_unbuffered {s u : State} {c : Nat} (unbuffered : (core s c).gb = []) {copy : Bool} {m src n : Nat}
    (usable : opRows s c copy m src n = (u, true)) : u = s := by
  rw [opRows] at usable
  split at usable
  · exact useRows_unbuffered unbuffered usable
  · exact (congrArg Prod.fst usable).symm

/-! The statement's first part. -/

theorem fillAndCopy : Claims.FillAndCopy := by
  refine ⟨fun c pattern s => ⟨execSpmOpStart_refused pattern, fun starts => ?_⟩, fun c s => execSpmOpDone_none, fun c o s op unheld =>
    ⟨execSpmOpDone_waits op unheld, execSpmOpDone_takes op unheld⟩, fun c o id s u b op held rows => ?_⟩
  · intro o
    have op : (core (opAsked s c pattern) c).op = some o := congrArg Core.op (core_opAsked s c pattern)
    have same : ∀ r w, sbWaits (opAsked s c pattern) c r w = sbWaits s c r w := sbWaits_congr (by rw [core_opAsked])
    refine ⟨_, execSpmOpStart_starts pattern starts, ?_, ?_, fun waits => ?_, fun free => ?_⟩
    · exact (opIssue_within rfl _ c (updCore_within rfl _ c _ (setReg_within rfl s _ _ .refl))).onlyParts (back := false)
    · rw [coreReg, opIssue_reg]
      exact (reg_setReg_same ..).trans (Nat.mod_eq_of_lt pattern.isLt)
    · rw [opIssue_waits op ((same _ _).trans waits)]
      exact core_opAsked s c pattern
    · rw [opIssue_takes op rfl ((same _ _).trans free)]
      simp [opHeld, opAsked, sbIssue]
  · refine ⟨fun fails => ?_, fun clean ready canonical unbuffered => ?_⟩
    · refine (execSpmOpDone_held op held rows).trans (congrArg Host.Outcome.next (if_pos ?_))
      simpa [Option.isSome_iff_ne_none] using fails
    · subst ready
      obtain rfl : u = opReleased s c id := opRows_unbuffered (by rw [core_opReleased]; exact unbuffered) rows
      refine ⟨_, (execSpmOpDone_held op held rows).trans (congrArg Host.Outcome.next (if_neg (by simp [clean]))), ?_⟩
      rw [spmApply_eq]
      have start := core_opReleased s c id
      obtain ⟨⟨l, kept⟩, outside, inside⟩ := putRows_does c o.mem o.dst (opData_whole (opReleased s c id) c o)
        (s := opReleased s c id) canonical (by rw [start]; exact unbuffered) 0
      rw [opData_length] at outside
      refine ⟨by simp [kept, start], by simp, by simp [kept, start], fun i hi => ?_, outside⟩
      exact (inside i (by rw [opData_length]; exact hi)).trans (opData_get _ c o _)

end Sys2Proof.Machine
end

section
/-! PROOF. Reloads and the scrub of weight rows (08 R218, R222): what a row that has come from its home leaves, and what the scrub counts. -/

namespace Sys2Proof.Machine

open Sys2Proof Sys2Proof.Safety

/-! A reload (08 R218, R219). -/

/-- The other regions of a row lose their homes: registers of theirs, and events. -/
theorem loseOther_parts (s : State) (c row r : Nat) : OnlyParts [.regs, .hst, .dict, .net, .out] s (loseOther s c row r) :=
  (loseOther_within (M := partMask [.regs, .hst, .dict, .net, .out] false) rfl s c row r .refl).onlyParts

/-- No register below the regions' entries changes. -/
theorem loseOther_coreReg (s : State) {c : Nat} (hc : c < 64) (row r : Nat) {o : Nat} (ho : o < 0x2000) :
    coreReg (loseOther s c row r) c o = coreReg s c o := by
  refine each_keeps (fun u => coreReg u c o) _ s _ fun u q _ => ?_
  rw [raise_sends _ _ _ _ _ _ _ (coreDie_ne_mgt c hc), coreReg, sendChain_reg_of, reg_setField, if_neg (regionOff_ne_coreOff 0 q 0 ho)]
  rfl

/-- The core once a reload is over: the row is awaited no longer. -/
def reloadOver (row : Nat) (x : Core) : Core :=
  { x with reloads := x.reloads.filter (· != row), reloadData := tdel x.reloadData row,
           requests := x.requests.filter (fun r => !(r.kind == 1 && r.row == row)) }

/-- The state once the row has been rewritten from its home, and the reload counted. -/
def reloaded (s : State) (c row : Nat) (home : List Byte) : State :=
  let s := updCore s c (reloadOver row)
  let s := bumpCore (loseOther (writeRow (flushRow s c 0 row false) c 0 row home) c row ((homeRegion s c row).getD 0)) c SPM_RELOAD_COUNT 1
  corrected s c (rowStream s c row) 1

theorem corrected_parts (s : State) (c i n : Nat) : OnlyParts [.regs] s (corrected s c i n) :=
  (corrected_within (M := partMask [.regs] false) rfl s c i n .refl).onlyParts

/-- A flush leaves the core its task. -/
theorem flushRow_task (s : State) (c m r : Nat) (fails : Bool) : (core (flushRow s c m r fails) c).task = (core s c).task := by
  rw [flushRow]
  split
  · next g _ =>
    obtain ⟨-, waits, flushed⟩ := flushGb_does s c fails g
    rw [flushed]
  · rfl

theorem loseOther_core (s : State) (c row r k : Nat) : core (loseOther s c row r) k = core s k :=
  core_congr (loseOther_parts s c row r .cores (by decide)) k

theorem core_corrected (s : State) (c i n k : Nat) : core (corrected s c i n) k = core s k :=
  core_congr (corrected_parts s c i n .cores (by decide)) k

theorem reloaded_task (s : State) (c row : Nat) (home : List Byte) : (core (reloaded s c row home) c).task = (core s c).task := by
  simp [reloaded, core_corrected, loseOther_core, core_writeRow, flushRow_task, reloadOver]

section

variable {s : State} {c : Nat} (unbuffered : (core s c).gb = []) (row : Nat) (home : List Byte)
include unbuffered

theorem reloaded_core : core (reloaded s c row home) c =
    { reloadOver row (core s c) with badRows := (core s c).badRows.filter (· != rowKey 0 row) } := by
  have empty : (core (updCore s c (reloadOver row)) c).gb = [] := by simpa [reloadOver] using unbuffered
  simp [reloaded, core_corrected, loseOther_core, core_writeRow, flushRow_unbuffered empty, reloadOver]

theorem reloaded_mem : (reloaded s c row home).mem = mwriteN s.mem (rowDpa c 0 row) home := by
  have empty : (core (updCore s c (reloadOver row)) c).gb = [] := by simpa [reloadOver] using unbuffered
  simp only [reloaded, flushRow_unbuffered empty]
  refine (corrected_parts _ _ _ _ .mem (by decide)).trans ?_
  exact (loseOther_parts _ _ _ _ .mem (by decide)).trans rfl

theorem reloaded_count (hc : c < 64) :
    coreReg (reloaded s c row home) c SPM_RELOAD_COUNT = (coreReg s c SPM_RELOAD_COUNT + 1) % 2 ^ 64 := by
  have empty : (core (updCore s c (reloadOver row)) c).gb = [] := by simpa [reloadOver] using unbuffered
  have apart (o : Nat) (h : o < 0x800) : coreOff c SPM_RELOAD_COUNT ≠ coreOff c o := by
    rw [Ne, coreOff_inj, SPM_RELOAD_COUNT]
    omega
  have kept (u : State) (r : Nat) : coreReg (loseOther u c row r) c SPM_RELOAD_COUNT = coreReg u c SPM_RELOAD_COUNT :=
    loseOther_coreReg u hc row r (by decide)
  simp only [reloaded, flushRow_unbuffered empty]
  rw [coreReg, reg_corrected _ _ _ _ _ (apart _ (by decide)) (apart _ (by decide)) (fun j hj => apart _ (by omega)), reg_bumpCore, if_pos rfl]
  exact congrArg (fun n => (n + 1) % 2 ^ 64) (kept _ _)

end

/-- What a task does that awaited the row before its first span (08 R218; 09 R238). -/
def afterReload (u : State) (c : Nat) : Option CoreTask → State
  | some w => if w.phase = 3 then runPrologue u c w.span else u
  | none => u

section

variable {c : CoreId} {row : Nat} {s : State} (data : List Byte)

theorem execReloadDone_kept (fails : Bool) (kept : (core s c).reloads.contains row = false ∨ sbWaits s c [] [(0, row, 1)] = true) :
    execReloadDone c row data fails s = .next s := by
  have guard : (!(core s c).reloads.contains row || sbWaits s c [] [(0, row, 1)]) = true := by simpa using kept
  rw [execReloadDone, if_pos guard]

variable (awaited : (core s c).reloads.contains row = true) (free : sbWaits s c [] [(0, row, 1)] = false)
include awaited free

theorem execReloadDone_comes (fails : Bool) : execReloadDone c row data fails s = .next (
    let u := reloaded s c row (tget data (core s c).reloadData row)
    if fails then
      let v := bumpCore (updCore u c (fun x => { x with badRows := rowKey 0 row :: x.badRows })) c SPM_DET_WMEM_COUNT 1
      faultCore (setDetect v c 0 row (if (core v c).task.isSome then 3 else 0)) c stScratchpadRowFault 31 0 0
    else afterReload u c (core u c).task) := by
  have guard : ¬ (!(core s c).reloads.contains row || sbWaits s c [] [(0, row, 1)]) = true := by
    rw [awaited, free]
    decide
  rw [execReloadDone, if_neg guard]
  rfl

theorem execReloadDone_clean : execReloadDone c row data false s =
    .next (afterReload (reloaded s c row (tget data (core s c).reloadData row)) c (core s c).task) := by
  rw [execReloadDone_comes data awaited free, if_neg Bool.false_ne_true, reloaded_task]

/-- A row that fails its check again ends the task (08 R218). -/
theorem execReloadDone_faults {w : CoreTask} (task : (core s c).task = some w) :
    ∃ t, execReloadDone c row data true s = .next t ∧ Faulted s t c stScratchpadRowFault := by
  refine ⟨_, execReloadDone_comes data awaited free true, ?_⟩
  have same := (reloaded_task s c row (tget data (core s c).reloadData row)).trans task
  refine Faulted.of ?_ (faultCore_faulted _ c stScratchpadRowFault 31 0 0 w ?_)
  all_goals simp [setDetect, same, task]

end

/-! The scrub (08 R222). -/

/-- The scrub has counted a row, and goes on behind it. -/
def scrubbed (s : State) (c row : Nat) : State := updCore (bumpCore s c SPM_SCRUB_COUNT 1) c (fun x => { x with scrubPos := row + 1 })

theorem scrubbed_parts (s : State) (c row : Nat) : OnlyParts [.regs, .cores] s (scrubbed s c row) :=
  (updCore_within (M := partMask [.regs, .cores] false) rfl _ c _ (bumpCore_within rfl s c _ _ .refl)).onlyParts

theorem scrubbed_reg (s : State) (c row off : Nat) : reg (scrubbed s c row) off =
    if coreOff c SPM_SCRUB_COUNT = off then (reg s (coreOff c SPM_SCRUB_COUNT) + 1) % 2 ^ 64 else reg s off :=
  reg_bumpCore ..

theorem homeRegion_scrubbed (s : State) (c row : Nat) : homeRegion (scrubbed s c row) c row = homeRegion s c row :=
  homeRegion_congr (fun r k _ => (scrubbed_reg ..).trans (if_neg (regionOff_ne_coreOff 0 r k (by decide)).symm)) row

/-- An instruction that is to write a weight row holds it in the scoreboard. -/
def scrubHeld (s : State) (c row : Nat) : Bool := (core s c).sb.any (fun e => e.write && e.mem == 0 && overlaps row 1 e.first e.rows)

section

variable {c : CoreId} {row : Nat} {s : State} (fails : Bool)

theorem execResidentWeightScrub_skips (skipped : objNat s 0x405003 ≠ 1 ∨ scrubNext s c ≠ some row ∨ scrubHeld s c row = true) :
    execResidentWeightScrub c row fails s = .next s := congrArg Host.Outcome.next (if_pos skipped)

variable (on : objNat s 0x405003 = 1) (next : scrubNext s c = some row) (free : scrubHeld s c row = false)
include on next free

theorem execResidentWeightScrub_reads : execResidentWeightScrub c row fails s = .next (
    if fails || (core s c).badRows.contains (rowKey 0 row) then detect (scrubbed s c row) c 0 row else scrubbed s c row) := by
  have guard : ¬ (objNat s 0x405003 ≠ 1 ∨ scrubNext s c ≠ some row ∨ scrubHeld s c row = true) := by simp [on, next, free]
  refine congrArg Host.Outcome.next ((if_neg guard).trans ?_)
  show (if fails || (core (scrubbed s c row) c).badRows.contains (rowKey 0 row) then _ else _) = _
  have same : (core (scrubbed s c row) c).badRows = (core s c).badRows := by simp [scrubbed]
  rw [same]
  rfl

end

/-! The statement's second part. -/

theorem reloadAndScrub : Claims.ReloadAndScrub := by
  refine ⟨fun c row data fails s => ⟨execReloadDone_kept data fails, ?_, ?_⟩, fun c row fails s => ?_⟩
  · rintro awaited free rfl canonical unbuffered home
    have mem := reloaded_mem unbuffered row home
    have cell := reloaded_core unbuffered row home
    refine ⟨reloaded s c row home, execReloadDone_clean data awaited free, by rw [cell]; rfl, by rw [cell], ?_, fun a outside => ?_,
      reloaded_count unbuffered row home c.isLt⟩
    · rw [mem]
      exact mreadN_mwriteN home s.mem _ canonical
    · rw [mem]
      exact mread_mwriteN home s.mem _ _ canonical outside
  · rintro w awaited free rfl task
    exact execReloadDone_faults data awaited free task
  · intro held
    refine ⟨execResidentWeightScrub_skips fails, fun on next free whole good => ?_, fun on next free bad home fresh => ?_⟩
    · subst whole
      have read := execResidentWeightScrub_reads false on next free
      rw [good, Bool.false_or, if_neg Bool.false_ne_true] at read
      exact ⟨_, read, (scrubbed_reg ..).trans (if_pos rfl), by simp [scrubbed], scrubbed_parts s c row⟩
    · have read := execResidentWeightScrub_reads fails on next free
      rw [if_pos (by simpa using bad)] at read
      obtain ⟨reloads, count⟩ := detect_home (scrubbed s c row) c row (by rw [homeRegion_scrubbed]; exact home) (by simpa [scrubbed] using fresh)
      refine ⟨_, read, by rw [reloads]; simp [scrubbed], ?_⟩
      have kept := (scrubbed_reg s c row (coreOff c SPM_DET_WMEM_COUNT)).trans (if_neg (by rw [coreOff_inj]; decide))
      exact count.trans (congrArg (fun n => (n + 1) % 2 ^ 64) kept)

/-- Settles O24: fills and copies write their rows one after another from data fixed before the first (log entry 47 for what keeps them from it), and a
reload rewrites one row (log entry 101 for the data that its tag has not brought). -/
theorem scratchpadRows : Obligations.ScratchpadRows := ⟨fillAndCopy, reloadAndScrub⟩

end Sys2Proof.Machine
end

section
/-! PROOF. Bank power (08 R216, R223 to R225): the outcomes of a request, and what its end, its drain and its limit leave. -/

namespace Sys2Proof.Machine

open Sys2Proof Sys2Proof.Safety

/-! Requests (08 R223, R225). -/

theorem bankResult_setResult (s : State) (c r : Nat) : (core (setResult s c r) c).bankResult = r := by simp [setResult]
theorem bankReq_setResult (s : State) (c r : Nat) : (core (setResult s c r) c).bankReq = (core s c).bankReq := by simp [setResult]

theorem setResult_notePower_parts (s : State) (c m bank action r : Nat) :
    OnlyParts [.regs, .cores] s (setResult (notePower s c m bank action) c r) :=
  (setResult_within (M := partMask [.regs, .cores] false) rfl _ c r (notePower_within rfl s c m bank action .refl)).onlyParts

/-- The request's own register shows no bank's power. -/
theorem bankPowered_notePower (s : State) (c m bank action : Nat) (n b : Nat) :
    bankPowered (notePower s c m bank action) c n b = bankPowered s c n b := by
  have same (o : Nat) (h : o ≠ SPM_PWR_CTL) : coreReg (notePower s c m bank action) c o = coreReg s c o :=
    reg_setReg_other s _ (by rw [Ne, coreOff_inj]; exact h)
  simp only [bankPowered, same SPM_PWR_MAP_W (by decide), same SPM_PWR_MAP_AP (by decide)]

/-- A request and its result. -/
def requested (s : State) (c : Nat) (r : BankReq) : State := setResult (updCore s c (fun x => { x with bankReq := some r })) c 1

theorem bankReq_requested (s : State) (c : Nat) (r : BankReq) : (core (requested s c r) c).bankReq = some r := by
  rw [requested, bankReq_setResult]
  simp

section

variable {c : CoreId} {m : Fin 4} {bank : Fin 64} {s : State}

theorem execBankPower_busy (busy : (core s c).bankReq ≠ none) :
    execBankPowerDown c m bank s = .next (rejectConfig s c) ∧ execBankPowerUp c m bank s = .next (rejectConfig s c) := by
  have some_runs := Option.isSome_iff_ne_none.mpr busy
  exact ⟨congrArg Host.Outcome.next (if_pos some_runs), congrArg Host.Outcome.next (if_pos some_runs)⟩

variable (idle : (core s c).bankReq = none)
include idle

theorem execBankPowerUp_idle : execBankPowerUp c m bank s = .next (
    if bankCount m ≤ bank.val then setResult (notePower s c m bank 2) c 2
    else if bankPowered s c m bank then setResult (notePower s c m bank 2) c 0
    else requested (notePower s c m bank 2) c { up := true, mem := m, bank := bank, since := now s, wins := [] }) := by
  simp only [execBankPowerUp, idle, Option.isSome_none, Bool.false_eq_true, if_false, bankPowered_notePower]
  rfl

theorem execBankPowerDown_refused (refused : downRefused (notePower s c m bank 1) c m bank = true) :
    execBankPowerDown c m bank s = .next (setResult (notePower s c m bank 1) c 2) := by
  simp only [execBankPowerDown, idle, refused, Option.isSome_none, Bool.false_eq_true, if_false, if_true]

end

/-- The open windows that meet a bank. -/
def bankWindows (s : State) (c m bank : Nat) : List Nat :=
  (List.range 64).filter (fun w => winState s c w == 1 && winMem s c w == m && inBank m bank (winBase s c w) (winLen s c w))

/-- A bank before its drain: its windows close, and its rows of the gathering buffer are flushed (08 R223). -/
def bankSealed (s : State) (c m bank : Nat) : State :=
  let s := each (bankWindows s c m bank) s (fun s w => closeWin s c w)
  each ((core s c).gb.filter (fun g => g.mem == m && inBank m bank g.row 1)) s (fun s g => flushGb s c false g)

theorem bankSealed_within {M : Nat} {s0 : State} (hM : Sub 0x310000093 M) (s : State) (c m bank : Nat) (h : Within M s0 s) :
    Within M s0 (bankSealed s c m bank) :=
  each_within (fun u g hu => flushGb_within hM u c false g hu) (each_within (fun u w hu => closeWin_within hM u c w hu) h)

theorem bankSealed_now (s : State) (c m bank : Nat) : now (bankSealed s c m bank) = now s :=
  congrArg Clock.reftime ((bankSealed_within (M := 0x310000093) rfl s c m bank .refl).same .clock rfl)

theorem execBankPowerDown_drains {c : CoreId} {m : Fin 4} {bank : Fin 64} {s : State} (idle : (core s c).bankReq = none)
    (grants : downRefused (notePower s c m bank 1) c m bank = false) (powered : bankPowered s c m bank = true) :
    execBankPowerDown c m bank s = .next (requested (bankSealed (notePower s c m bank 1) c m bank) c
      { up := false, mem := m, bank := bank, since := now s, wins := bankWindows (notePower s c m bank 1) c m bank }) := by
  have time : now (bankSealed (notePower s c m bank 1) c m bank) = now s := bankSealed_now ..
  rw [← time]
  simp only [execBankPowerDown, idle, grants, powered, bankPowered_notePower, Option.isSome_none, Bool.not_true, Bool.false_eq_true, if_false]
  rfl

/-! The end of a request (08 R216, R223, R225). -/

theorem bit_putBits_b2n (w : Nat) {b : Nat} (hb : b < 64) (on : Bool) : bit (putBits w b b (b2n on) % 2 ^ 64) b = on := by
  have field : bits (putBits w b b (b2n on) % 2 ^ 64) b b = b2n on % 2 ^ (b + 1 - b) := bits_putBits_same w _ ⟨Nat.le_refl b, hb⟩
  rw [Nat.add_sub_cancel_left, bits, Nat.add_sub_cancel_left] at field
  cases on <;> simpa [bit, b2n, Nat.testBit, Nat.and_comm, Nat.and_one_is_mod] using field

/-- A bank of a memory is shown with the power that it has been given. -/
theorem bankPowered_setBank (s : State) (c : Nat) {m b : Nat} (on : Bool) (below : b < bankCount m) :
    bankPowered (setBank s c m b on) c m b = on := by
  unfold bankCount at below
  unfold bankPowered setBank
  split_ifs at below with weights activations sums
  · rw [if_pos weights, if_pos weights, coreReg, reg_setField, if_pos rfl]
    exact bit_putBits_b2n _ (by omega) on
  · rw [if_neg weights, if_neg weights, if_pos activations, coreReg, reg_setField, if_pos rfl]
    exact bit_putBits_b2n _ (by omega) on
  · rw [if_neg weights, if_neg weights, if_neg activations, coreReg, reg_setField, if_pos rfl]
    exact bit_putBits_b2n _ (by omega) on
  · omega

/-- The state once a request has ended with its bank up or down. -/
def bankEnded (s : State) (c : Nat) (r : BankReq) (on : Bool) : State :=
  setResult (updCore (setBank (zeroBank s c r.mem r.bank) c r.mem r.bank on) c (fun x => { x with bankReq := none })) c 0

/-- A bank is up or down, and every row of it zero (08 R216). -/
def BankCleared (c : Nat) (r : BankReq) (s t : State) (on : Bool) : Prop :=
  let lo := r.bank * memBankRows r.mem
  (core t c).bankReq = none ∧ (core t c).bankResult = 0 ∧
    (r.mem < 3 → r.bank < bankCount r.mem → bankPowered t c r.mem r.bank = on) ∧
    (∀ a, rowDpa c r.mem lo ≤ a → a < rowDpa c r.mem (lo + memBankRows r.mem) → mread t.mem a = 0) ∧
    (∀ a, a < rowDpa c r.mem lo ∨ rowDpa c r.mem (lo + memBankRows r.mem) ≤ a → mread t.mem a = mread s.mem a)

theorem setBank_mem (s : State) (c m bank : Nat) (on : Bool) : (setBank s c m bank on).mem = s.mem := by
  unfold setBank
  split <;> rfl

theorem bankEnded_mem (s : State) (c : Nat) (r : BankReq) (on : Bool) : (bankEnded s c r on).mem = mclear s.mem
    (rowDpa c r.mem (r.bank * memBankRows r.mem)) (rowDpa c r.mem (r.bank * memBankRows r.mem + memBankRows r.mem)) :=
  setBank_mem ..

theorem bankEnded_cleared (s : State) (c : Nat) (r : BankReq) (on : Bool) : BankCleared c r s (bankEnded s c r on) on := by
  refine ⟨by simp [bankEnded, setResult], bankResult_setResult .., fun _ below => bankPowered_setBank _ c on below, fun a low high => ?_,
    fun a outside => ?_⟩
  · rw [bankEnded_mem, mread_mclear, if_pos ⟨low, high⟩]
    rfl
  · rw [bankEnded_mem, mread_mclear, if_neg (by omega)]

section

variable {c : CoreId} {r : BankReq} {s : State} (req : (core s c).bankReq = some r)
include req

theorem execBankPowerUpDone_req : execBankPowerUpDone c s = .next (if !r.up then s else bankEnded s c r true) := by
  simp only [execBankPowerUpDone, req]
  rfl

theorem execBankDrained_req : execBankDrained c s = .next (if r.up || reqInflight s c r != 0 then s else bankEnded s c r false) := by
  simp only [execBankDrained, req]
  rfl

/-- The state in which a request has been abandoned (08 R224). -/
def bankAbandoned (s : State) (c : Nat) : State := setResult (updCore s c (fun x => { x with bankReq := none })) c 3

theorem execBankDrainTimeout_req : execBankDrainTimeout c s = .next (
    if r.up || reqInflight s c r == 0 || decide (now s < r.since + objNat s 0x405001 * 1000) then s
    else raise (bumpCore (bankAbandoned s c) c SPM_PWR_ABANDON_COUNT 1) (coreDie c) 0x403 1 0 c
      [c, r.mem, r.bank, reqInflight (bankAbandoned s c) c r, r.since]) := by
  simp only [execBankDrainTimeout, req]
  rfl

end

/-- The writes in flight do not depend on the request that waits for them. -/
theorem reqInflight_abandoned (s : State) (c : Nat) (r : BankReq) : reqInflight (bankAbandoned s c) c r = reqInflight s c r := by
  simp only [reqInflight, bankAbandoned, setResult, core_updCore, if_true]
  rfl

/-- Settles O25: a request has one state for each of its outcomes (RESULT 2 for a bank that a memory lacks is log entry 48), and an end that clears
the bank has the same effect whether it came up or went down. -/
theorem bankPower : Obligations.BankPower := by
  refine ⟨fun c m bank s => ?_, fun c r s req _ => ?_⟩
  · refine ⟨execBankPower_busy, fun idle refused => ?_, fun idle beyond => ?_, fun idle below powered => ?_, fun idle below dark => ?_,
      fun idle grants powered => ?_⟩
    · exact ⟨_, execBankPowerDown_refused idle refused, bankResult_setResult .., setResult_notePower_parts _ _ _ _ _ _⟩
    · have up := execBankPowerUp_idle (m := m) (bank := bank) idle
      rw [if_pos beyond] at up
      exact ⟨_, up, bankResult_setResult .., setResult_notePower_parts _ _ _ _ _ _⟩
    · have up := execBankPowerUp_idle (m := m) (bank := bank) idle
      rw [if_neg (Nat.not_le.mpr below), if_pos powered] at up
      exact ⟨_, up, bankResult_setResult .., (bankReq_setResult ..).trans idle⟩
    · have up := execBankPowerUp_idle (m := m) (bank := bank) idle
      rw [if_neg (Nat.not_le.mpr below), if_neg (Bool.eq_false_iff.mp dark)] at up
      exact ⟨_, up, bankResult_setResult .., bankReq_requested ..⟩
    · exact ⟨_, execBankPowerDown_drains idle grants powered, bankResult_setResult .., _, bankReq_requested .., rfl, rfl, rfl, rfl⟩
  · intro lo Cleared
    refine ⟨fun up => ⟨⟨_, ?_, bankEnded_cleared s c r true⟩, ?_, ?_⟩, fun drained => ?_,
      fun down => ⟨?_, fun drained => ⟨_, ?_, bankEnded_cleared s c r false⟩, fun early => ?_, fun flying late => ?_⟩⟩
    · exact (execBankPowerUpDone_req req).trans (by simp [up])
    · exact (execBankDrained_req req).trans (by simp [up])
    · exact (execBankDrainTimeout_req req).trans (by simp [up])
    · exact (execBankDrainTimeout_req req).trans (by simp [drained])
    · exact (execBankPowerUpDone_req req).trans (by simp [down])
    · exact (execBankDrained_req req).trans (by simp [down, drained])
    · exact (execBankDrainTimeout_req req).trans (by simp [early])
    · have guard : ¬ (r.up || reqInflight s c r == 0 || decide (now s < r.since + objNat s 0x405001 * 1000)) = true := by
        simpa [down, flying] using late
      have ends := execBankDrainTimeout_req req
      rw [if_neg guard, reqInflight_abandoned] at ends
      have other := coreDie_ne_mgt c c.isLt
      have event := raise_sentEvent s (bumpCore (bankAbandoned s c) c SPM_PWR_ABANDON_COUNT 1) (coreDie c) 0x403 1 0 c
        [c, r.mem, r.bank, reqInflight s c r, r.since] other rfl rfl
      refine ⟨_, ends, ?_, ?_, ?_, event⟩
      · rw [core_congr (raise_cores ..)]
        simp [bankAbandoned, setResult]
      · rw [core_congr (raise_cores ..)]
        exact bankResult_setResult ..
      · rw [raise_sends _ _ _ _ _ _ _ other, coreReg, sendChain_reg_of, reg_bumpCore, if_pos rfl]
        rfl

end Sys2Proof.Machine
end

section
/-! PROOF. Tasks (09_loop_descriptors_and_tiling.md): the facts that the cores' side and the HST die's side share. Reading lines leaves the registers
of the core blocks alone; closing windows leaves tasks, tags and task slots alone; freeing rows lets no queue hold back a write. -/

namespace Sys2Proof.Machine

open Sys2Proof Sys2Proof.Safety

/-! Registers of the core blocks (16 Table: BAR0 map) while lines are read (13 R329 to R342). -/

/-- An offset among the register blocks of the cores. -/
def CoreBlock (off : Nat) : Prop := 0x1000000 ≤ off ∧ off < 0x2000000

/-- The registers of the core blocks are as they were. -/
def CoreRegsKept (s t : State) : Prop := ∀ off, CoreBlock off → reg t off = reg s off

theorem coreBlock_coreOff {c o : Nat} (hc : c < 64) (ho : o < 0x10000) : CoreBlock (coreOff c o) := by
  unfold CoreBlock coreOff
  omega
theorem not_coreBlock_mifOff (k o : Nat) : ¬ CoreBlock (mifOff k o) := by
  unfold CoreBlock mifOff
  omega
theorem not_coreBlock_farOff (p o : Nat) : ¬ CoreBlock (farOff p o) := by
  unfold CoreBlock farOff
  omega

namespace CoreRegsKept

variable {s t : State}

theorem refl (s : State) : CoreRegsKept s s := fun _ _ => rfl
/-- What comes after leaves every register. -/
theorem regs {u : State} (h : CoreRegsKept s t) (same : u.regs = t.regs) : CoreRegsKept s u := fun off b => (reg_congr same off).trans (h off b)
theorem setReg (h : CoreRegsKept s t) {off : Nat} (v : Nat) (outside : ¬ CoreBlock off) : CoreRegsKept s (setReg t off v) := fun o block =>
  (reg_setReg_other t v (by rintro rfl; exact outside block)).trans (h o block)
theorem bump (h : CoreRegsKept s t) {off : Nat} (n : Nat) (outside : ¬ CoreBlock off) : CoreRegsKept s (bump t off n) := h.setReg _ outside
theorem ite {u : State} {p : Prop} [Decidable p] (h : p → CoreRegsKept s t) (k : ¬p → CoreRegsKept s u) : CoreRegsKept s (if p then t else u) := by
  split
  · exact h ‹_›
  · exact k ‹_›

theorem ringLost (h : CoreRegsKept s t) (die : Nat) : CoreRegsKept s (ringLost t die) := by
  have raised : CoreRegsKept s (raise t mgtDie 0x101 3 0 0 [die]) := fun off block =>
    (raise_reg _ _ _ _ _ _ _ (fun same => by subst same; exact absurd block.1 (by decide))).trans (h off block)
  unfold Machine.ringLost
  exact .ite (fun _ => raised.regs rfl) (fun _ => .ite (fun _ => raised.regs rfl) (fun _ => .ite (fun _ => raised.regs rfl) (fun _ => raised)))

theorem failRing (h : CoreRegsKept s t) (die : Nat) : CoreRegsKept s (failRing t die) := by
  unfold Machine.failRing
  have failed : CoreRegsKept s (updPkg t (markFailed die)) := h.regs rfl
  exact .ite (fun _ => h) (fun _ => failed.ringLost die)

theorem listPoison (h : CoreRegsKept s t) (l : Nat) : CoreRegsKept s (listPoison t l) := by
  unfold Machine.listPoison
  exact .ite (fun _ => h) (fun _ => .ite (fun _ => h.failRing _) (fun _ => h.regs rfl))

theorem evictLine (h : CoreRegsKept s t) (l : Nat) : CoreRegsKept s (evictLine t l) := by
  unfold Machine.evictLine
  refine .ite (fun _ => listPoison ?_ l) (fun _ => ?_) <;> exact h.regs rfl

theorem makeRoom (h : CoreRegsKept s t) (l : Nat) : CoreRegsKept s (makeRoom t l) := by
  unfold Machine.makeRoom
  dsimp only
  have chosen : CoreRegsKept s (freshFree t).2 := h.regs rfl
  refine .ite (fun _ => h) (fun _ => ?_)
  split
  · exact chosen.evictLine _
  · exact chosen

theorem touchLine (h : CoreRegsKept s t) (l : Nat) : CoreRegsKept s (touchLine t l) := by
  unfold Machine.touchLine
  exact .ite (fun _ => h) (fun _ => (h.makeRoom l).regs rfl)

theorem uncorrectable (h : CoreRegsKept s t) (a kind : Nat) : CoreRegsKept s (uncorrectable t a kind) := by
  have counted : CoreRegsKept s (bumpMif t a MIF_UNCORR_COUNT 1) := h.bump 1 (not_coreBlock_mifOff _ _)
  unfold Machine.uncorrectable
  exact .ite (fun _ => counted) (fun _ => counted.setReg _ (not_coreBlock_mifOff _ _))

theorem crcRetries (h : CoreRegsKept s t) (a n : Nat) : CoreRegsKept s (crcRetries t a n) := by
  unfold Machine.crcRetries
  refine bump ?_ n (not_coreBlock_mifOff _ _)
  exact .ite (fun _ => h) (fun _ => h.regs rfl)

theorem readMif (h : CoreRegsKept s t) (a : Nat) (n : Fin 4) : CoreRegsKept s (readMif t a (.ok n)).1 := by
  unfold Machine.readMif
  dsimp only
  split
  · exact h.uncorrectable a 0
  · exact (h.crcRetries a n).bump _ (not_coreBlock_mifOff _ _)

theorem readFar (h : CoreRegsKept s t) (a : Nat) (o : ReadOutcome) : CoreRegsKept s (readFar t a o).1 := by
  unfold Machine.readFar
  dsimp only
  split
  · exact h.bump _ (not_coreBlock_farOff _ _)
  · split <;> exact h.bump _ (not_coreBlock_farOff _ _)

theorem readMiss (h : CoreRegsKept s t) (a : Nat) (n : Fin 4) : CoreRegsKept s (readMiss t a (.ok n)).1 := by
  have read : CoreRegsKept s (if isNear a then Machine.readMif t a (.ok n) else Machine.readFar t a (.ok n)).1 := by
    split
    · exact h.readMif a n
    · exact h.readFar a (.ok n)
  unfold Machine.readMiss
  generalize (if isNear a then Machine.readMif t a (.ok n) else Machine.readFar t a (.ok n)) = r at read ⊢
  dsimp only
  split
  · exact read.touchLine _
  · exact read

theorem readLine (h : CoreRegsKept s t) (a : Nat) (n : Fin 4) : CoreRegsKept s (readLine t a (.ok n)).1 := by
  unfold Machine.readLine
  dsimp only
  split
  · exact h.uncorrectable a 0
  · split
    · exact h
    · split
      · exact h.readMiss a n
      · exact h

theorem askHost (h : CoreRegsKept s t) (a : Nat) (write : Bool) : CoreRegsKept s (askHost t a write) := by
  unfold Machine.askHost
  exact .ite (fun _ => h.regs rfl) (fun _ => h)

theorem getLine (h : CoreRegsKept s t) (n v : Nat) : CoreRegsKept s (getLine t n v).1 := by
  unfold Machine.getLine
  split
  · exact h
  · next x _ =>
    split
    · exact (h.askHost x false).readLine x 0
    · split
      · exact h.regs rfl
      · exact h

/-- Reading a range through the home slices leaves the registers of the core blocks alone. -/
theorem getRange (s : State) (n va len : Nat) : CoreRegsKept s (getRange s n va len).1 := by
  unfold Machine.getRange
  have kept (l : List (Nat × Nat)) : ∀ t, CoreRegsKept s t → CoreRegsKept s (untilFault (fun s p => Machine.getLine s n p.1) l t).1 := by
    induction l with
    | nil => exact fun _ h => h
    | cons p l ih =>
      intro t h
      unfold untilFault
      dsimp only
      split
      · exact ih _ (h.getLine n p.1)
      · exact h.getLine n p.1
  exact kept _ s (.refl s)

end CoreRegsKept

/-! Tasks, tags and task slots while windows close (08 R206, R215). -/

/-- The task and the tags of every core, and every task slot, are as they were. -/
structure WorkKept (s t : State) : Prop where
  task : ∀ d, (core t d).task = (core s d).task
  tags : ∀ d, (core t d).tags = (core s d).tags
  slots : ∀ k, slotOf t k = slotOf s k

namespace WorkKept

variable {s t : State}

theorem refl (s : State) : WorkKept s s := ⟨fun _ => rfl, fun _ => rfl, fun _ => rfl⟩
theorem trans {u : State} (h : WorkKept s t) (k : WorkKept t u) : WorkKept s u :=
  ⟨fun d => (k.task d).trans (h.task d), fun d => (k.tags d).trans (h.tags d), fun j => (k.slots j).trans (h.slots j)⟩
/-- What comes after leaves cores and task slots. -/
theorem parts {u : State} (h : WorkKept s t) (cores : u.cores = t.cores) (slots : u.hst.slots = t.hst.slots) : WorkKept s u :=
  h.trans ⟨fun d => by rw [core_congr cores], fun d => by rw [core_congr cores], slot_congr slots⟩
/-- What comes after changes neither cores nor the HST die. -/
theorem within {m : Nat} {u : State} (h : WorkKept s t) (w : Within m t u) (cores : m.testBit 4 = false) (hst : m.testBit 7 = false) : WorkKept s u :=
  h.parts (w.same .cores cores) (congrArg Hst.slots (w.same .hst hst))
theorem updCore (h : WorkKept s t) (c : Nat) {f : Core → Core} (task : ∀ x, (f x).task = x.task) (tags : ∀ x, (f x).tags = x.tags) :
    WorkKept s (updCore t c f) := by
  refine h.trans ⟨fun d => ?_, fun d => ?_, fun _ => rfl⟩ <;> rw [core_updCore] <;> split
  · next same => rw [task, same]
  · rfl
  · next same => rw [tags, same]
  · rfl
theorem ite {u : State} {p : Prop} [Decidable p] (h : p → WorkKept s t) (k : ¬p → WorkKept s u) : WorkKept s (if p then t else u) := by
  split
  · exact h ‹_›
  · exact k ‹_›
theorem each {α : Type} (h : WorkKept s t) (l : List α) {f : State → α → State} (kept : ∀ u x, WorkKept u (f u x)) : WorkKept s (each l t f) :=
  h.trans ⟨fun d => each_keeps (fun s => (core s d).task) l t f (fun s x _ => (kept s x).task d),
    fun d => each_keeps (fun s => (core s d).tags) l t f (fun s x _ => (kept s x).tags d),
    fun k => each_keeps (fun s => slotOf s k) l t f (fun s x _ => (kept s x).slots k)⟩

theorem raise (h : WorkKept s t) (die code severity n c : Nat) (args : List Nat) : WorkKept s (raise t die code severity n c args) := by
  refine h.parts (raise_cores ..) ?_
  unfold Machine.raise
  dsimp only
  split
  · exact logEvent_keeps (·.hst.slots) t _ (fun _ _ => rfl) (fun u => by unfold sendMsix; dsimp only; split <;> rfl) (fun _ _ => rfl)
  · rfl

theorem loseHomes (h : WorkKept s t) (c m row : Nat) : WorkKept s (loseHomes t c m row) := by
  unfold Machine.loseHomes
  exact .ite (fun _ => h) (fun _ => h.each _ (fun u r => ((refl u).parts (u := setField u (regionOff c 0 r 0) 49 49 0) rfl rfl).raise ..))

theorem checkWait (h : WorkKept s t) (c : Nat) : WorkKept s (checkWait t c) := by
  unfold Machine.checkWait
  refine .ite (fun _ => h) (fun _ => each ?_ _ (fun u w => (refl u).parts rfl rfl))
  exact h.updCore c (fun _ => rfl) (fun _ => rfl)

theorem gbMark (h : WorkKept s t) (c : Nat) (g : GbRow) : WorkKept s (gbMark t c g) := by
  unfold Machine.gbMark
  split
  · next w _ => exact (h.parts (u := setReg t (markerOff c (winMarker t c w)) ((marker t c (winMarker t c w) + 1) % 2 ^ 32)) rfl rfl).checkWait c
  · exact h

theorem gbStore (h : WorkKept s t) (c : Nat) (g : GbRow) : WorkKept s (gbStore t c g) :=
  h.each g.bytes (f := fun s p => wrBytes s (rowDpa c g.mem g.row + p.1) [p.2]) (fun u _ => (refl u).parts rfl rfl)

theorem flushGb (h : WorkKept s t) (c : Nat) (fails : Bool) (g : GbRow) : WorkKept s (flushGb t c fails g) := by
  have dropped : WorkKept s (gbDrop t c g.mem g.row) := h.updCore c (fun _ => rfl) (fun _ => rfl)
  have marked {u : State} (k : WorkKept s u) : WorkKept s (Machine.gbMark (bumpCore (Machine.loseHomes u c g.mem g.row) c SPM_GB_RMW_COUNT 1) c g) := by
    refine gbMark ?_ c g
    exact (k.loseHomes c g.mem g.row).parts rfl rfl
  have flushed := marked (updCore (dropped.gbStore c g) c
    (f := fun x => { x with badRows := (if fails || (core t c).badRows.contains (rowKey g.mem g.row) then [rowKey g.mem g.row] else []) ++ x.badRows.filter (· != rowKey g.mem g.row) })
    (fun _ => rfl) (fun _ => rfl))
  unfold Machine.flushGb
  exact .ite (fun _ => flushed.raise ..) (fun _ => flushed)

theorem closeWin (h : WorkKept s t) (c w : Nat) : WorkKept s (closeWin t c w) := by
  have flushed := h.each ((core t c).gb.filter (fun g => g.win == some w)) (fun u g => (refl u).flushGb c false g)
  unfold Machine.closeWin closeWindow
  exact .ite (fun _ => .ite (fun _ => flushed.parts rfl rfl) (fun _ => flushed)) (fun _ => h)

theorem closeTaskWindows (h : WorkKept s t) (c k : Nat) : WorkKept s (closeTaskWindows t c k) := by
  unfold Machine.closeTaskWindows
  exact updCore (h.each _ (fun u w => (refl u).closeWin c w)) c (fun _ => rfl) (fun _ => rfl)

end WorkKept

/-! Messages of the HST die to the cores of a task (09 R244, R245). -/

theorem mem_coresOf {m c : Nat} : c ∈ coresOf m ↔ c < 64 ∧ bit m c = true := by
  simp [coresOf]

/-- Each core of the list is sent its message. -/
theorem toCores_sends (s : State) {l : List Nat} (m : Nat → Msg) {d : Nat} (h : d ∈ l) :
    ∃ x ∈ (toCores s l m).net.chain, x.src = hstDie ∧ x.dst = coreDie d ∧ x.msg = m d := by
  have sent : (hstDie, coreDie d, m d) ∈ (toCores s l m).net.chain.map (fun x => (x.src, x.dst, x.msg)) := by
    rw [toCores_dsts]
    exact List.mem_append_right _ (List.mem_map.mpr ⟨d, h, rfl⟩)
  obtain ⟨x, hx, same⟩ := List.mem_map.mp sent
  exact ⟨x, hx, congrArg (·.1) same, congrArg (·.2.1) same, congrArg (·.2.2) same⟩

/-! Writes that a queue holds back (11 R296). -/

/-- No queue holds back a write. -/
def Unheld (s : State) : Prop := ∀ p ∈ s.queues, p.2.held = none

namespace Unheld

variable {s : State}

theorem queues {t : State} (h : Unheld s) (same : t.queues = s.queues) : Unheld t := by
  unfold Unheld
  rwa [same]
theorem within {m : Nat} {t : State} (h : Unheld s) (w : Within m s t) (queues : m.testBit 6 = false) : Unheld t :=
  h.queues (w.same .queues queues)
theorem updQueue (h : Unheld s) (q : Nat) {f : Queue → Queue} (keeps : ∀ x, x.held = none → (f x).held = none) : Unheld (updQueue s q f) := by
  intro p hp
  rcases mem_tset _ _ _ p hp with rfl | old
  · exact keeps _ (tget_all (fun x : Queue => x.held = none) _ _ _ rfl h)
  · exact h p old
theorem ite {t u : State} {p : Prop} [Decidable p] (h : p → Unheld t) (k : ¬p → Unheld u) : Unheld (if p then t else u) := by
  split
  · exact h ‹_›
  · exact k ‹_›
theorem each {α : Type} (h : Unheld s) (l : List α) {f : State → α → State} (keeps : ∀ s x, Unheld s → Unheld (f s x)) : Unheld (each l s f) := by
  unfold Machine.each
  induction l generalizing s with
  | nil => exact h
  | cons x l ih => exact ih (keeps s x h)

theorem markerTakesRow (h : Unheld s) (q : Nat) : Unheld (markerTakesRow s q) := by
  unfold Machine.markerTakesRow
  dsimp only
  have taken := h.each (List.range (queue s q).fullMarkers.length) (f := fun s i => match (queue s q).fullMarkers[i]? with
    | some m => if m.row.isNone && decide (0 < queFree (queue s q)) then
        let p := landPos s q
        Machine.updQueue s q (fun x => { x with fullMarkers := x.fullMarkers.set i { m with row := some p }, landed := x.landed + 1 }) else s
    | none => s) (fun s i k => by
      dsimp only
      split
      · exact .ite (fun _ => k.updQueue q (fun _ => id)) (fun _ => k)
      · exact k)
  split
  · exact .ite (fun _ => taken.updQueue q (fun _ => id)) (fun _ => taken)
  · exact taken

theorem freeRows (h : Unheld s) (q n : Nat) : Unheld (freeRows s q n) := by
  have taken := h.markerTakesRow q
  unfold Machine.freeRows
  refine .ite (fun _ => taken) (fun _ => .ite (fun _ => taken.queues rfl) (fun _ => .ite (fun _ => taken) (fun _ =>
    within ?_ (sendCredit_within (M := partMask [.ports] false) rfl _ _ _ _ .refl) rfl)))
  exact taken.updQueue q (fun _ => id)

theorem keepPackets (h : Unheld s) (c : Nat) (f : QPacket → QPacket) (g : QDrop → QDrop) : Unheld (keepPackets s c f g) :=
  h.each _ (fun _ _ k => k.updQueue _ (fun _ => id))

/-- With no write held back there is nothing to settle. -/
theorem settleAll (h : Unheld s) : settleAll s = s := by
  have none_held : s.queues.filter (fun p => p.2.held.isSome) = [] := by
    rw [List.filter_eq_nil_iff]
    intro p hp
    simp [h p hp]
  simp [Machine.settleAll, none_held, Machine.each]

end Unheld

end Sys2Proof.Machine
end

section
/-! PROOF. Task control at a core (09 R238, R239, R244 to R247; 10 R277, R280, R281; 06 R143): what each message of the HST die leaves there, and
what the core answers. -/

namespace Sys2Proof.Machine

open Sys2Proof Sys2Proof.Safety

/-! Rows that a core moves under tags of its own (10 R259, R261). -/

theorem core_tagsWithin_other (s : State) {c d : Nat} (n : Nat) (write : Bool) (l : List Nat) (other : d ≠ c) : core (tagsWithin s c n write l) d = core s d := by
  simp only [tagsWithin, holdPort]
  split
  · rfl
  · rw [bumpCore_core_of, core_updCore, if_neg other.symm]
    rfl

theorem task_tagsWithin (s : State) (c n : Nat) (write : Bool) (l : List Nat) : (core (tagsWithin s c n write l) c).task = (core s c).task := by
  simp only [tagsWithin, holdPort]
  split
  · rfl
  · rw [bumpCore_core_of, core_updCore, if_pos rfl]
    rfl

/-- One tag is issued for each row (10 R259). -/
theorem issueCount_tagsWithin (s : State) (c n : Nat) (write : Bool) (l : List Nat) :
    coreReg (tagsWithin s c n write l) c FET_TAG_ISSUE_COUNT = (coreReg s c FET_TAG_ISSUE_COUNT + l.length) % 2 ^ 64 := by
  have issued : coreReg (bumpCore (bumpCore s c FET_TAG_ISSUE_COUNT l.length) c (if write then FET_BYTES_WRITTEN else FET_BYTES_READ) (512 * l.length)) c
      FET_TAG_ISSUE_COUNT = (coreReg s c FET_TAG_ISSUE_COUNT + l.length) % 2 ^ 64 := by
    rw [coreReg, reg_bumpCore, if_neg (by rw [coreOff_inj]; cases write <;> decide), reg_bumpCore, if_pos rfl]
    rfl
  simp only [tagsWithin, holdPort]
  split
  · exact issued
  · rw [coreReg, reg_bumpCore, if_neg (by rw [coreOff_inj]; decide)]
    exact issued

theorem cores_getRange (s : State) (n va len : Nat) : (getRange s n va len).1.cores = s.cores :=
  (getRange_within (M := 0x710000f89) rfl s n va len .refl).same .cores rfl

theorem cores_getLine (s : State) (n v : Nat) : (getLine s n v).1.cores = s.cores :=
  (getLine_within (M := 0x710000f89) rfl s n v .refl).same .cores rfl

/-! DISPATCH (R238, R247). -/

/-- The table that a core holds once it has read the lines of it, and the status of the reading. -/
theorem fetchTable_result (s : State) (c : Nat) (x : Slot) : let g := getRange s x.strand x.arg0 (8 * x.table.length)
    (fetchTable s c x).2 = (if x.table = [] ∨ g.2 ≠ stSuccess then [] else (readWords g.1 x.strand x.arg0 x.table.length).getD [], if x.table = [] then 0 else g.2) := by
  dsimp only
  rw [fetchTable]
  by_cases empty : x.table = []
  · simp [empty]
  · by_cases good : (getRange s x.strand x.arg0 (8 * x.table.length)).2 = stSuccess
    · simp [empty, good]
    · simp [empty, good]

theorem core_fetchTable_other (s : State) {c d : Nat} (x : Slot) (other : d ≠ c) : core (fetchTable s c x).1 d = core s d := by
  have read := core_congr (cores_getRange s x.strand x.arg0 (8 * x.table.length)) d
  simp only [fetchTable]
  split
  · rfl
  · split
    · exact read
    · exact (core_tagsWithin_other _ _ _ _ other).trans read

/-- Each line of the table takes a tag (R238; 10 R259). -/
theorem issueCount_fetchTable (s : State) {c : Nat} (x : Slot) (hc : c < 64) (table : x.table ≠ [])
    (good : (getRange s x.strand x.arg0 (8 * x.table.length)).2 = stSuccess) : coreReg (fetchTable s c x).1 c FET_TAG_ISSUE_COUNT =
      (coreReg s c FET_TAG_ISSUE_COUNT + (linePieces x.arg0 (8 * x.table.length)).length) % 2 ^ 64 := by
  have kept : coreReg (getRange s x.strand x.arg0 (8 * x.table.length)).1 c FET_TAG_ISSUE_COUNT = coreReg s c FET_TAG_ISSUE_COUNT :=
    CoreRegsKept.getRange s _ _ _ _ (coreBlock_coreOff hc (by decide))
  have fetched : (fetchTable s c x).1 = tagsWithin (getRange s x.strand x.arg0 (8 * x.table.length)).1 c x.strand false
      ((linePieces x.arg0 (8 * x.table.length)).map (fun p => lineOf p.1)) := by
    simp [fetchTable, table, good]
  rw [fetched, issueCount_tagsWithin, List.length_map, kept]

/-- The task of slot x, as a core holds it once its table is read. -/
def takenTask (x : Slot) (slot rank cores : Nat) (r : State × List Nat × Nat) : CoreTask :=
  { slot := slot, rank := rank, cores := cores, phase := 1, copy := x.opcode == 2, strand := x.strand, step := x.step, table := r.2.1, fetchStatus := r.2.2,
    shape := x.shape, schedule := x.schedule, tDispatch := now r.1, counter := x.counter, tokenBase := x.tokenBase, predicting := objNat r.1 0x404001 == 1 }

section
variable {f : Frame} {c : CoreId} {slot : SlotId} {rank : Fin 64} {cores : Fin 65} {s : State} (new : NewMessage s (coreDie c) f)
include new

theorem execDispatch_refused (taken : coreActive s c = false ∨ (core s c).halted = true ∨ (core s c).task ≠ none ∨ (core s c).draining ≠ none) :
    execDispatch f c slot rank cores s = .next (tookMessage s (coreDie c) f) := by
  rw [execDispatch, onChain_new _ new, if_pos]
  simpa [Option.isSome_iff_ne_none, or_assoc] using taken

theorem execDispatch_takes (active : coreActive s c = true) (runs : (core s c).halted = false) (idle : (core s c).task = none)
    (drained : (core s c).draining = none) {r : State × List Nat × Nat} (read : fetchTable (tookMessage s (coreDie c) f) c (slotOf s slot) = r) :
    execDispatch f c slot rank cores s = .next (updCore r.1 c (fun y => { y with task := some (takenTask (slotOf s slot) slot rank cores r) })) := by
  rw [execDispatch, onChain_new _ new, if_neg (by simp [active, runs, idle, drained])]
  subst read
  rfl

end

/-! ISSUE_CHECKS (R234, R238, R239). -/

/-- The shapes of a task are latched in the core's registers. -/
def shapesLatched (c : Nat) (l : List (Nat × Nat)) (s : State) : State := each l s (fun s v => setReg s (coreOff c (0x580 + 8 * v.2)) v.1)

theorem shapesLatched_within {M : Nat} {s0 : State} (hM : Sub 0x1 M) (c : Nat) (l : List (Nat × Nat)) (s : State) (h : Within M s0 s) :
    Within M s0 (shapesLatched c l s) := each_within (fun t _ k => setReg_within hM t _ _ k) h

theorem cores_shapesLatched (c : Nat) (l : List (Nat × Nat)) (s : State) : (shapesLatched c l s).cores = s.cores := each_keeps (·.cores) l s _ (fun _ _ _ => rfl)

/-- Registers below the ones that the list names stay. -/
theorem reg_shapesLatched_below (c : Nat) (l : List Nat) (n : Nat) (s : State) {j : Nat} (below : j < n) :
    reg (shapesLatched c (l.zipIdx n) s) (coreOff c (0x580 + 8 * j)) = reg s (coreOff c (0x580 + 8 * j)) := by
  induction l generalizing s n with
  | nil => rfl
  | cons v l ih =>
    exact (ih (n + 1) (setReg s (coreOff c (0x580 + 8 * n)) v) (by omega)).trans (reg_setReg_other _ _ (by rw [Ne, coreOff_inj]; omega))

/-- Each shape is read back from its register (R234). -/
theorem reg_shapesLatched (c : Nat) (l : List Nat) (n : Nat) (s : State) {i v : Nat} (at_i : l[i]? = some v) :
    reg (shapesLatched c (l.zipIdx n) s) (coreOff c (0x580 + 8 * (n + i))) = v % 2 ^ 64 := by
  induction l generalizing s n i with
  | nil => simp at at_i
  | cons w l ih =>
    cases i with
    | zero =>
      obtain rfl : w = v := by simpa using at_i
      exact (reg_shapesLatched_below c l (n + 1) _ (by omega)).trans (reg_setReg_same s _ w)
    | succ i =>
      have later := ih (n + 1) (setReg s (coreOff c (0x580 + 8 * n)) w) (by simpa using at_i)
      rwa [show n + 1 + i = n + (i + 1) by omega] at later

theorem task_readBand (s : State) (c : Nat) (w : CoreTask) : (core (readBand s c w).1 c).task = (core s c).task := by
  have read : (core (getLine s w.strand (pStateBase w.table)).1 c).task = (core s c).task := congrArg Core.task (core_congr (cores_getLine s _ _) c)
  simp only [readBand]
  split
  · rfl
  · split
    · exact read
    · exact (task_tagsWithin ..).trans read

/-- A core refuses its task: counted, recorded, the task is given up, and the HST die is told (R238, R239; 12 R322). -/
def taskRefused (s : State) (c : Nat) (w : CoreTask) (r : Refuse) : State :=
  let s := bumpCore s c LOOP_REFUSE_COUNT 1
  let s := if w.copy then lceFault s c r.status r.check 0
    else setReg s (coreOff c LOOP_LAST_REFUSE) (r.check + r.slot * 2 ^ 5 + r.level * 2 ^ 8 + r.detail % 2 ^ 48 * 2 ^ 16)
  sendChain (updCore s c (fun x => { x with task := none })) (coreDie c) hstDie (.refused w.slot r.status r.check)

/-- What a refusal leaves. -/
def RefusedTask (s t : State) (c : Nat) (w : CoreTask) (r : Refuse) : Prop := OnlyParts [.regs, .cores, .net] s t ∧
  Sent s t (coreDie c) hstDie (.refused w.slot r.status r.check) ∧ core t c = { core s c with task := none } ∧
  reg t (coreOff c LOOP_REFUSE_COUNT) = (reg s (coreOff c LOOP_REFUSE_COUNT) + 1) % 2 ^ 64 ∧
  (w.copy = false → reg t (coreOff c LOOP_LAST_REFUSE) = (r.check + r.slot * 2 ^ 5 + r.level * 2 ^ 8 + r.detail % 2 ^ 48 * 2 ^ 16) % 2 ^ 64) ∧
  (w.copy = true → reg t (coreOff c LCE_LAST_FAULT) = (r.status + r.check * 2 ^ 16) % 2 ^ 64)

theorem taskRefused_does (s : State) (c : Nat) (w : CoreTask) (r : Refuse) : RefusedTask s (taskRefused s c w r) c w r := by
  have count_apart : coreOff c LOOP_LAST_REFUSE ≠ coreOff c LOOP_REFUSE_COUNT := by rw [Ne, coreOff_inj]; decide
  have fault_apart : coreOff c LCE_LAST_FAULT ≠ coreOff c LOOP_REFUSE_COUNT := by rw [Ne, coreOff_inj]; decide
  cases copy : w.copy with
  | false =>
    have refused : taskRefused s c w r = sendChain (updCore (setReg (bumpCore s c LOOP_REFUSE_COUNT 1) (coreOff c LOOP_LAST_REFUSE)
        (r.check + r.slot * 2 ^ 5 + r.level * 2 ^ 8 + r.detail % 2 ^ 48 * 2 ^ 16)) c (fun x => { x with task := none })) (coreDie c) hstDie
        (.refused w.slot r.status r.check) := by
      simp [taskRefused, copy]
    rw [refused]
    refine ⟨(sendChain_within (M := partMask [.regs, .cores, .net] false) rfl _ _ _ _ (updCore_within rfl _ _ _ (setReg_within rfl _ _ _
      (bumpCore_within rfl _ _ _ _ .refl)))).onlyParts, rfl, by simp, ?_, fun _ => ?_, fun h => by simp [copy] at h⟩
    · simp [count_apart]
    · simp
  | true =>
    have refused : taskRefused s c w r = sendChain (updCore (lceFault (bumpCore s c LOOP_REFUSE_COUNT 1) c r.status r.check 0) c
        (fun x => { x with task := none })) (coreDie c) hstDie (.refused w.slot r.status r.check) := by
      simp [taskRefused, copy]
    rw [refused]
    refine ⟨(sendChain_within (M := partMask [.regs, .cores, .net] false) rfl _ _ _ _ (updCore_within rfl _ _ _ (lceFault_within rfl _ _ _ _ _
      (bumpCore_within rfl _ _ _ _ .refl)))).onlyParts, rfl, by simp [lceFault], ?_, fun h => by simp [copy] at h, fun _ => ?_⟩
    · simp [lceFault, fault_apart]
    · simp [lceFault]

section
variable {c : CoreId} {s : State} {w : CoreTask} (task : (core s c).task = some w)
include task

theorem execIssueChecks_later (phase : w.phase ≠ 1) : execIssueChecks c s = .next s := by
  simp [execIssueChecks, task, phase]

variable (phase : w.phase = 1)
include phase

/-- The table is refused. -/
theorem execIssueChecks_refuses {r : Refuse} (refused : checkOutcome (shapesLatched c w.shape.zipIdx s) c w = some r) :
    execIssueChecks c s = .next (taskRefused (shapesLatched c w.shape.zipIdx s) c w r) := by
  rw [shapesLatched] at refused
  simp only [execIssueChecks, task, phase, refused]
  rfl

/-- The predictor's band cannot be read. -/
theorem execIssueChecks_unread (fine : checkOutcome (shapesLatched c w.shape.zipIdx s) c w = none) {b : State × Nat × F32}
    (read : readBand (shapesLatched c w.shape.zipIdx s) c w = b) (bad : b.2.1 ≠ stSuccess) :
    execIssueChecks c s = .next (taskRefused b.1 c w { check := 0, status := b.2.1 }) := by
  subst read
  rw [shapesLatched] at fine bad ⊢
  simp only [execIssueChecks, task, phase, fine]
  simp only [ne_eq, not_true_eq_false, if_false, Option.isSome_none, Bool.false_eq_true, bad, Option.or]
  rfl

theorem execIssueChecks_passes (fine : checkOutcome (shapesLatched c w.shape.zipIdx s) c w = none) {b : State × Nat × F32}
    (read : readBand (shapesLatched c w.shape.zipIdx s) c w = b) (good : b.2.1 = stSuccess) :
    execIssueChecks c s = .next (sendChain (updTask b.1 c (fun u => { readLocal b.1 c u with phase := 2, band := b.2.2 })) (coreDie c) hstDie (.passed w.slot)) := by
  subst read
  rw [shapesLatched] at fine good ⊢
  simp only [execIssueChecks, task, phase, fine]
  simp only [ne_eq, not_true_eq_false, if_false, Option.isSome_none, Bool.false_eq_true, good, Option.or]
  rfl

end

/-! GO (R244, R245). -/

theorem takeGo_idle {s : State} {c : Nat} (k span : Nat) (idle : (core s c).task = none) : takeGo s c k span = s := by
  simp [takeGo, idle]

section
variable {s : State} {c k : Nat} {w : CoreTask} (task : (core s c).task = some w)
include task

/-- A GO for another task, or out of its place. -/
theorem takeGo_other (span : Nat) (other : w.slot ≠ k ∨ w.phase ≠ 2 ∧ w.phase ≠ 5) : takeGo s c k span = s := by
  simp only [takeGo, task]
  rcases other with slot | ⟨first, next⟩
  · exact if_pos slot
  · simp [first, next]

theorem takeGo_first (span : Nat) (slot : w.slot = k) (phase : w.phase = 2) : takeGo s c k span = firstGo s c w span := by
  simp [takeGo, task, slot, phase]

theorem takeGo_next (span : Nat) (slot : w.slot = k) (phase : w.phase = 5) :
    takeGo s c k span = startSpan (updTask s c (fun t => { t with replays := 0 })) c span (nextAttempt w) := by
  simp [takeGo, task, slot, phase]

end

/-! WAIT (R246). -/

/-- Waits whose markers have not come to their targets stay. -/
theorem checkWait_unmet {s : State} {c : Nat} {w : Nat × Nat × Nat} (waits : (core s c).waits = [w])
    (unmet : markerReached (marker s c w.2.1) w.2.2 = false) : checkWait s c = s := by
  simp [checkWait, waits, unmet]

theorem core_awaiting {s : State} {c : Nat} (w : Nat × Nat × Nat) (waits : (core s c).waits = []) :
    (core (updCore s c (fun x => { x with waits := x.waits ++ [w] })) c).waits = [w] := by
  simp [waits]

/-! ABORT and CANCEL (10 R277, R280, R281). -/

/-- What the stop leaves of the core's work (10 R277 step 3, R280). -/
structure Stopped (s u : State) (c : Nat) : Prop where
  task : (core u c).task = none
  requests : (core u c).requests = []
  chunks : (core u c).chunks = []
  tags : (core u c).tags = (core s c).tags.map (fun p => (p.1, { p.2 with abandoned := true }))

theorem stopTask_stops {s : State} {c : Nat} {w : CoreTask} (task : (core s c).task = some w) (cancel : Bool) : ∃ u, Stopped s u c ∧
    stopTask s c cancel = if (core s c).tags = [] then sendChain u (coreDie c) hstDie (.drained w.slot)
      else updCore u c (fun x => { x with draining := some w.slot }) := by
  have counted : WorkKept s (if issueWait s c then bumpCore s c LOOP_ISSUE_WAIT_NS (now s - (slotOf s w.slot).since) else s) :=
    .ite (fun _ => (WorkKept.refl s).parts rfl rfl) (fun _ => .refl s)
  have kept := (((counted.within (rollTask_within (M := 0x41) rfl _ c (if w.phase ≤ 2 then [] else taskRegions w) .refl) rfl rfl).closeTaskWindows c w.slot).within
    (withdrawOf_within (M := 0x100000841) rfl _ c true .refl) rfl rfl).tags c
  simp only [stopTask, task]
  generalize withdrawOf _ c true = v at kept ⊢
  have core_stopped : core (if cancel then bumpCore (updCore v c Core.abandoned) c FET_CANCEL_COUNT 1 else updCore v c Core.abandoned) c = (core v c).abandoned := by
    cases cancel <;> simp
  generalize (if cancel then bumpCore (updCore v c Core.abandoned) c FET_CANCEL_COUNT 1 else updCore v c Core.abandoned) = u at core_stopped ⊢
  refine ⟨u, ⟨?_, ?_, ?_, ?_⟩, ?_⟩
  · rw [core_stopped]; rfl
  · rw [core_stopped]; rfl
  · rw [core_stopped]; rfl
  · rw [core_stopped, ← kept]; rfl
  · have held : holdsTags u c = !(core s c).tags.isEmpty := by
      rw [holdsTags, core_stopped, ← kept]
      simp [Core.abandoned]
    rw [held]
    by_cases none_held : (core s c).tags = [] <;> simp [none_held]

/-! REPLAY (06 R143; 08 R220). -/

/-- What a replay leaves of the attempt that it gives up. -/
structure CutOff (s u : State) (c : Nat) (w : CoreTask) : Prop where
  requests : (core u c).requests = []
  acc : (core u c).acc = []
  stall : (core u c).stall = none
  tags : ∀ p ∈ (core u c).tags, p.2.abandoned = true
  task : (core u c).task = some { w with replays := w.replays + 1, steps := w.steps - w.spanSteps }

theorem takeReplay_other {s : State} {c k : Nat} {w : CoreTask} (task : (core s c).task = some w) (other : w.slot ≠ k ∨ w.phase < 4) : takeReplay s c k = s := by
  simp only [takeReplay, task]
  exact if_pos other

theorem takeReplay_restarts {s : State} {c k : Nat} {w : CoreTask} (task : (core s c).task = some w) (slot : w.slot = k) (opened : 4 ≤ w.phase) : ∃ u,
    CutOff s u c w ∧ takeReplay s c k = startSpan u c w.span (if w.counter.isSome then (w.attempt + 1) % 4 else w.attempt) := by
  have kept : (core (withdrawOf (rollGroup s c (taskRegions w)) c false) c).task = some w := by
    rw [core_congr ((withdrawOf_within (M := 0x100000841) rfl _ c false (rollGroup_within rfl _ c _ .refl)).same .cores rfl), task]
  have counted (v : State) (b : Bool) (o : Nat) : (core (if b then bumpCore (bumpCore v c o 1) c SPM_STEP_REPLAY_COUNT 1 else bumpCore v c o 1) c).task =
      (core v c).task := by
    cases b <;> rfl
  simp only [takeReplay, task]
  rw [if_neg (by omega)]
  generalize withdrawOf (rollGroup s c (taskRegions w)) c false = v at kept ⊢
  generalize hu : (if (!w.copy && hasGroup w.table) = true then _ else _ : State) = u
  replace kept : (core u c).task = some w := by rw [← hu, counted, kept]
  refine ⟨_, ⟨?_, ?_, ?_, ?_, ?_⟩, rfl⟩
  -- The fields that the replay clears read back at once; tags and task need what the core had.
  all_goals rw [core_updTask, core_updCore, if_pos rfl]
  · intro p hp
    obtain ⟨q, -, rfl⟩ := List.mem_map.mp hp
    rfl
  · simp [kept]

end Sys2Proof.Machine
end

section
/-! PROOF. O51: the obligation's parts, assembled from what each message does at a core. -/

namespace Sys2Proof.Machine

open Sys2Proof Sys2Proof.Safety

/-- A message that stops a task: ABORT or CANCEL. -/
theorem stopMessages {f : Frame} {c : CoreId} {slot : SlotId} {s : State} (new : NewMessage s (coreDie c) f) {m : Instr}
    (stops : m ∈ [Instr.abort f c slot, .cancel f c slot]) : ∃ cancel, exec m s = .next (
      if stillRuns (tookMessage s (coreDie c) f) c slot then stopTask (tookMessage s (coreDie c) f) c cancel else stopGone (tookMessage s (coreDie c) f) c slot) := by
  simp only [List.mem_cons, List.not_mem_nil, or_false] at stops
  rcases stops with rfl | rfl
  · exact ⟨false, congrArg Host.Outcome.next (onChain_new _ new)⟩
  · exact ⟨true, congrArg Host.Outcome.next (onChain_new _ new)⟩

theorem stillRuns_task {s : State} {c k : Nat} (runs : stillRuns s c k = true) : ∃ w, (core s c).task = some w ∧ w.slot = k := by
  unfold stillRuns at runs
  split at runs
  · next w task => exact ⟨w, task, by simpa using runs⟩
  · cases runs

section
variable {f : Frame} {c : CoreId} {slot : SlotId} {s : State} (new : NewMessage s (coreDie c) f) {m : Instr} (stops : m ∈ [Instr.abort f c slot, .cancel f c slot])
include new stops

/-- The task is gone from the core: it still drains, or it has drained already and the core says so again (10 R278). -/
theorem stop_gone (gone : stillRuns s c slot = false) : ∃ t, exec m s = .next t ∧ OnlyParts [.cores, .net] s t ∧
    ((core s c).draining = some slot.val → core t c = { core s c with doneOwed := false } ∧ t.net.chain = s.net.chain) ∧
    ((core s c).draining ≠ some slot.val → OnlyParts [.net] s t ∧ Sent s t (coreDie c) hstDie (.drained slot)) := by
  obtain ⟨cancel, stopped⟩ := stopMessages new stops
  rw [show stillRuns (tookMessage s (coreDie c) f) c slot = false from gone, if_neg (by decide), stopGone, tookMessage_core_of] at stopped
  by_cases drains : (core s c).draining = some slot.val
  · rw [if_pos drains] at stopped
    exact ⟨_, stopped, (updCore_within (M := partMask [.cores, .net] false) rfl _ _ _ (tookMessage_within rfl _ _ .refl)).onlyParts,
      fun _ => ⟨by simp, rfl⟩, fun other => absurd drains other⟩
  · rw [if_neg drains] at stopped
    exact ⟨_, stopped, (sendChain_within (M := partMask [.cores, .net] false) rfl _ _ _ _ (tookMessage_within rfl _ _ .refl)).onlyParts,
      fun same => absurd same drains,
      fun _ => ⟨(sendChain_within (M := partMask [.net] false) rfl _ _ _ _ (tookMessage_within rfl _ _ .refl)).onlyParts, rfl⟩⟩

/-- The core runs the task: it gives it up, and tells at once, or once its tags have come back. -/
theorem stop_running (runs : stillRuns s c slot = true) : ∃ t, exec m s = .next t ∧ (core t c).task = none ∧ (core t c).requests = [] ∧ (core t c).chunks = [] ∧
    ((core s c).tags = [] → ∃ x ∈ t.net.chain, x.src = coreDie c ∧ x.dst = hstDie ∧ x.msg = .drained slot.val) ∧
    ((core s c).tags ≠ [] → (core t c).draining = some slot.val ∧ ∀ p ∈ (core t c).tags, p.2.abandoned = true) := by
  obtain ⟨cancel, stopped⟩ := stopMessages new stops
  obtain ⟨w, task, same⟩ := stillRuns_task runs
  obtain ⟨u, left, stop⟩ := stopTask_stops (s := tookMessage s (coreDie c) f) task cancel
  rw [show stillRuns (tookMessage s (coreDie c) f) c slot = true from runs, if_pos rfl, stop, tookMessage_core_of, same] at stopped
  by_cases free : (core s c).tags = []
  · rw [if_pos free] at stopped
    exact ⟨_, stopped, left.task, left.requests, left.chunks, fun _ => ⟨_, List.mem_append_right _ (List.mem_singleton_self _), rfl, rfl, rfl⟩,
      fun held => absurd free held⟩
  · rw [if_neg free] at stopped
    have drains : core (updCore u c (fun x => { x with draining := some slot.val })) c = { core u c with draining := some slot.val } := by simp
    refine ⟨_, stopped, ?_⟩
    rw [drains]
    refine ⟨left.task, left.requests, left.chunks, fun none_held => absurd none_held free, fun _ => ⟨rfl, fun p hp => ?_⟩⟩
    obtain ⟨q, -, rfl⟩ := List.mem_map.mp (left.tags ▸ hp)
    rfl

end

/-- Settles O51: each message of the HST die either finds no task that it concerns, or does at the core what the lemmas above say. -/
theorem taskMessagesAtCores : Obligations.TaskMessagesAtCores := by
  refine ⟨fun f c slot rank cores s new => ⟨execDispatch_refused new, fun active runs idle drained => ?_⟩, fun c s => ⟨?_, fun w task => ⟨?_, ?_⟩⟩,
    fun f c slot span s new => ⟨?_, fun w task => ⟨?_, ?_, ?_⟩⟩, fun f c slot k target s new waits => ?_, fun f c slot s new => ⟨fun gone _ stops => stop_gone new stops gone, fun runs _ stops => stop_running new stops runs⟩,
    fun f c slot span s new => ⟨?_, fun w task => ⟨?_, ?_⟩⟩⟩
  · -- DISPATCH
    intro x g
    have taken := execDispatch_takes new (slot := slot) (rank := rank) (cores := cores) active runs idle drained rfl
    have result := fetchTable_result (tookMessage s (coreDie c) f) c x
    refine ⟨_, takenTask x slot rank cores _, taken, ?_, fun d other => ?_, ?_, fun table good => ?_, rfl, rfl, rfl, rfl, ?_, rfl, rfl, congrArg Prod.fst result, congrArg Prod.snd result,
      rfl, rfl, rfl, rfl, rfl, ?_⟩
    · exact (updCore_within (M := partMask (.cores :: [.regs, .pkg, .hst, .cache, .mifs, .fars, .ports, .dict, .net, .out, .freeIdx]) false) rfl _ _ _
        (fetchTable_within rfl _ _ _ (tookMessage_within rfl _ _ .refl))).onlyParts
    · rw [core_updCore, if_neg other.symm]
      exact core_fetchTable_other _ _ other
    · rw [core_updCore, if_pos rfl]
    · exact issueCount_fetchTable _ x c.isLt table good
    · exact congrArg Clock.reftime ((fetchTable_within (M := 0x710000f99) rfl _ _ _ .refl).same .clock rfl)
    · exact beq_iff_eq
  · -- ISSUE_CHECKS without a task, out of its place, and in it
    exact fun idle => by simp [exec, execIssueChecks, idle]
  · exact execIssueChecks_later task
  · intro phase _
    have latched : Within (partMask [.regs] false) s (shapesLatched c w.shape.zipIdx s) := shapesLatched_within rfl _ _ _ .refl
    have held : (core (shapesLatched c w.shape.zipIdx s) c).task = some w := (congrArg Core.task (core_congr (cores_shapesLatched ..) c)).trans task
    have band_held := (task_readBand (shapesLatched c w.shape.zipIdx s) c w).trans held
    refine ⟨shapesLatched c w.shape.zipIdx s, latched.onlyParts, fun i v at_i => ?_, ?_⟩
    · simpa using reg_shapesLatched c w.shape 0 s at_i
    · refine ⟨(readBand_within (M := partMask (.cores :: [.regs, .pkg, .hst, .cache, .mifs, .fars, .ports, .dict, .net, .out, .freeIdx]) false) rfl _ _ _ .refl).onlyParts,
        band_held, fun fine good => ?_, fun fine bad => ⟨_, execIssueChecks_unread task phase fine rfl bad, taskRefused_does _ _ _ _⟩,
        fun r refused => ⟨_, execIssueChecks_refuses task phase refused, taskRefused_does _ _ _ _⟩⟩
      refine ⟨_, execIssueChecks_passes task phase fine rfl good,
        (sendChain_within (M := partMask [.cores, .net] false) rfl _ _ _ _ (updTask_within rfl _ _ _ .refl)).onlyParts, rfl, ?_⟩
      rw [sendChain_core_of, core_updTask, band_held]
      rfl
  · -- GO
    exact fun idle => congrArg Host.Outcome.next ((onChain_new _ new).trans (takeGo_idle (s := tookMessage s (coreDie c) f) _ _ idle))
  · exact fun other => congrArg Host.Outcome.next ((onChain_new _ new).trans (takeGo_other (s := tookMessage s (coreDie c) f) task _ other))
  · exact fun same phase => congrArg Host.Outcome.next ((onChain_new _ new).trans (takeGo_first (s := tookMessage s (coreDie c) f) task _ same phase))
  · intro same phase
    refine ⟨_, ?_, ?_, congrArg Host.Outcome.next ((onChain_new _ new).trans (takeGo_next (s := tookMessage s (coreDie c) f) task _ same phase))⟩
    · exact (updTask_within (M := partMask [.cores, .net] false) rfl _ _ _ (tookMessage_within rfl _ _ .refl)).onlyParts
    · rw [core_updTask, tookMessage_core_of, task]
      rfl
  · -- WAIT
    have awaiting := core_awaiting (s := tookMessage s (coreDie c) f) (slot.val, k.val, target.toNat) waits
    refine ⟨_, congrArg Host.Outcome.next (onChain_new _ new), ?_, fun met => ?_, fun unmet => ?_⟩
    · exact (checkWait_within (M := partMask [.cores, .net] false) rfl _ _ (updCore_within rfl _ _ _ (tookMessage_within rfl _ _ .refl))).onlyParts
    · obtain ⟨answered, sent⟩ := checkWait_answers awaiting met
      exact ⟨sent, answered⟩
    · rw [checkWait_unmet awaiting unmet]
      exact ⟨rfl, awaiting⟩
  · -- REPLAY
    exact fun idle => congrArg Host.Outcome.next ((onChain_new _ new).trans (by simp [idle]))
  · intro other
    refine congrArg Host.Outcome.next ((onChain_new _ new).trans ?_)
    simp only [tookMessage_core_of, task]
    by_cases span_same : w.span = span.toNat
    · rw [if_pos span_same]
      exact takeReplay_other task (other.resolve_left (absurd span_same))
    · exact if_neg span_same
  · intro span_same same opened
    obtain ⟨u, cut, restarts⟩ := takeReplay_restarts (s := tookMessage s (coreDie c) f) task same opened
    refine ⟨u, congrArg Host.Outcome.next ((onChain_new _ new).trans ?_), cut.requests, cut.acc, cut.stall, cut.tags, cut.task⟩
    simp only [tookMessage_core_of, task]
    rw [if_pos span_same, restarts]

end Sys2Proof.Machine
end

section
/-! PROOF. Reports at the HST die (09 R238, R244, R246; 10 R277 to R281; 06 R141, R143, R144): what each leaves of the slot, and what the cores are
told. -/

namespace Sys2Proof.Machine

open Sys2Proof Sys2Proof.Safety

/-! Whose reports count. -/

/-- A report from no core of the slot's task. -/
theorem onReport_stranger {f : Frame} {slot : SlotId} {s : State} (k : State → Nat → State) (new : NewMessage s hstDie f)
    (stranger : ∀ c, dieCore f.src = some c → (slotOf s slot).busy = false ∨ bit (slotOf s slot).mask c = false) : onReport f slot s k = tookMessage s hstDie f := by
  rw [onReport, onChain_new _ new]
  split
  · next c die => exact if_neg (by rcases stranger c die with free | apart <;> simp [*])
  · rfl

theorem onReport_part {f : Frame} {slot : SlotId} {s : State} {c : Nat} (k : State → Nat → State) (new : NewMessage s hstDie f) (die : dieCore f.src = some c)
    (busy : (slotOf s slot).busy = true) (part : bit (slotOf s slot).mask c = true) : onReport f slot s k = k (tookMessage s hstDie f) c := by
  rw [onReport, onChain_new _ new]
  simp [die, busy, part]

/-! PASSED (R238). -/

theorem settleRefusal_slotOf (s : State) (k j : Nat) : slotOf (settleRefusal s k) j = slotOf s j :=
  slot_congr (congrArg Hst.slots ((settleRefusal_within (M := 0x100000010) rfl s k .refl).same .hst rfl)) j

theorem settleRefusal_none {s : State} {k : Nat} (unrefused : (slotOf s k).refusal = none) : settleRefusal s k = s := by
  simp [settleRefusal, unrefused]

/-- A core of the task has yet to pass. -/
theorem proceed_waits {s : State} {k : Nat} (unpassed : allIn (slotOf s k).mask (slotOf s k).passed = false) : proceed s k = s := by
  simp [proceed, unpassed]

/-- The last core has passed, and nothing is waited for (R238). -/
theorem proceed_goes {s : State} {k : Nat} {x : Slot} (slot : slotOf s k = x) (busy : x.busy = true) (running : x.ending = false) (unstarted : x.started = false)
    (unrefused : x.refusal = none) (passed : allIn x.mask x.passed = true) (some_core : x.mask ≠ 0) (uncounted : x.counter = none) (unwaited : waitOf x = none) :
    proceed s k = toCores (setSlot s k { x with started := true }) (coresOf x.mask) (fun c => .go c k 0) := by
  subst slot
  simp [proceed, *]

/-- The slot once a core's pass is in. -/
def passedSlot (x : Slot) (c : Nat) : Slot := { x with passed := x.passed ||| 2 ^ c, answered := x.answered ||| 2 ^ c }

/-! REFUSED (R238). -/

/-- The slot once a core's refusal is in: the one whose check comes first in the table is kept. -/
def refusedSlot (x : Slot) (c status check : Nat) : Slot :=
  let y := if firstRefusal x.refusal check then { x with refusal := some (status, check), refusalDie := coreDie c } else x
  { y with answered := y.answered ||| 2 ^ c }

theorem refusedSlot_answered (x : Slot) (c status check : Nat) : (refusedSlot x c status check).answered = x.answered ||| 2 ^ c := by
  unfold refusedSlot
  split <;> rfl

theorem refusedSlot_first {x : Slot} (c status : Nat) {check : Nat} (first : x.refusal = none ∨ ∃ e k, x.refusal = some (e, k) ∧ check < k) :
    (refusedSlot x c status check).refusal = some (status, check) ∧ (refusedSlot x c status check).refusalDie = coreDie c := by
  have kept : firstRefusal x.refusal check = true := by
    rcases first with none | ⟨e, k, before, lower⟩
    · simp [firstRefusal, none]
    · simpa [firstRefusal, before] using lower
  simp [refusedSlot, kept]

theorem refusedSlot_later {x : Slot} (c status : Nat) {check e k : Nat} (before : x.refusal = some (e, k)) (later : k ≤ check) :
    (refusedSlot x c status check).refusal = x.refusal ∧ (refusedSlot x c status check).refusalDie = x.refusalDie := by
  have dropped : firstRefusal x.refusal check = false := by simpa [firstRefusal, before] using later
  simp [refusedSlot, dropped]

/-! DRAINED (10 R278, R281): rows that a stopped task could write take free values, every other byte stays. -/

theorem mread_mwrite_other (m : Mem) {k j : Nat} (v : Byte) (other : k ≠ j) : mread (mwrite m k v) j = mread m j := by
  induction m with
  | nil =>
    simp only [mwrite]
    split <;> simp [mread, other]
  | cons p m ih =>
    obtain ⟨a, w⟩ := p
    simp only [mwrite]
    split
    · split <;> simp [mread, other]
    · split
      · next same =>
        subst same
        split <;> simp [mread, other]
      · simp [mread, ih]

theorem mread_mwriteN_other (l : List Byte) (m : Mem) {k j : Nat} (outside : j < k ∨ k + l.length ≤ j) : mread (mwriteN m k l) j = mread m j := by
  induction l generalizing m k with
  | nil => rfl
  | cons v l ih =>
    rw [List.length_cons] at outside
    exact (ih (mwrite m k v) (by omega)).trans (mread_mwrite_other m v (by omega))

/-- Bytes that take free values lie in the range. -/
theorem mread_openBytes (s : State) (a n : Nat) {b : Nat} (outside : b < a ∨ a + n ≤ b) : mread (openBytes s (.dpa a) 0 n).mem b = mread s.mem b := by
  refine each_keeps (fun s : State => mread s.mem b) (List.range n) s _ (fun u i hi => ?_)
  rw [List.mem_range] at hi
  exact mread_mwriteN_other _ _ (by rw [List.length_singleton]; omega)

theorem mread_openRows (s : State) (k c : Nat) {b : Nat}
    (outside : ∀ r ∈ abortRows s c k, b < rowDpa c r.1 r.2.1 ∨ rowDpa c r.1 (r.2.1 + r.2.2) ≤ b) : mread (openRows s k c).mem b = mread s.mem b := by
  unfold openRows
  split
  · refine each_keeps (fun s : State => mread s.mem b) _ s _ (fun u r hr => mread_openBytes u _ _ ?_)
    have beyond : rowDpa c r.1 (r.2.1 + r.2.2) = rowDpa c r.1 r.2.1 + 512 * r.2.2 := by
      unfold rowDpa
      omega
    exact beyond ▸ outside r hr
  · rfl

theorem openRows_slotOf (s : State) (k c j : Nat) : slotOf (openRows s k c) j = slotOf s j :=
  slot_congr (congrArg Hst.slots ((openRows_within (M := 0x400000002) rfl s k c .refl).same .hst rfl)) j

theorem coreActive_congr {u v : State} (pkg : v.pkg = u.pkg) (c : Nat) : coreActive v c = coreActive u c := by
  unfold coreActive activeMask
  rw [pkg]

/-! The end of a task (10 R277, R279). -/

section
variable {s : State} {k : Nat} (busy : (slotOf s k).busy = true) (running : (slotOf s k).ending = false) (unwritten : (slotOf s k).written = false)
include busy running unwritten

/-- Every active core of the task but the one that reported is told. -/
theorem endTask_tells (status die : Nat) {skip : Option Nat} (cancel : Bool) {d : Nat} (hd : d < 64) (part : bit (slotOf s k).mask d = true)
    (active : coreActive s d = true) (told : skip ≠ some d) : ∃ m ∈ (endTask s k status die skip cancel).net.chain, m.src = hstDie ∧ m.dst = coreDie d ∧
      m.msg = if cancel then .cancel d k else .abort d k := by
  have still (u : State) : coreActive (disarmSlot (dropWaits u k) k) d = coreActive u d :=
    coreActive_congr (u := u) ((disarmSlot_within (M := 0x100000010) rfl _ k (dropWaits_within rfl u k .refl)).same .pkg rfl) d
  simp only [endTask, busy, running, unwritten]
  exact toCores_sends _ (fun c => if cancel then .cancel c k else .abort c k) (List.mem_filter.mpr ⟨mem_coresOf.mpr ⟨hd, part⟩, by rw [still]; simp [told, show coreActive (setSlot (countEnd s status) k _) d = true from active]⟩)

/-- The end counts once (06 R165). -/
theorem accAborts_endTask (status die : Nat) (skip : Option Nat) (cancel : Bool) :
    (endTask s k status die skip cancel).hst.accAborts = s.hst.accAborts + b2n (status == stSpillAreaFull || status == stReplayLimit) := by
  have disarmed (u : State) : (disarmSlot u k).hst = u.hst := (disarmSlot_within (M := 0x100000000) rfl u k .refl).same .hst rfl
  have dropped (u : State) : (dropWaits u k).hst = u.hst := (dropWaits_within (M := 0x10) rfl u k .refl).same .hst rfl
  simp only [endTask, busy, running, unwritten, Bool.not_true, Bool.or_self, Bool.false_eq_true, if_false, toCores_hst, disarmed, dropped]
  rfl

end

/-! DETECTION (06 R143, R144). -/

section
variable {s : State} {k : Nat}

theorem takeDetection_settled (settled : (slotOf s k).ending = true ∨ (slotOf s k).written = true) (span : Nat) : takeDetection s k span = s := by
  rcases settled with h | h <;> simp [takeDetection, h]

variable (busy : (slotOf s k).busy = true) (running : (slotOf s k).ending = false) (unwritten : (slotOf s k).written = false)
include busy running unwritten

/-- The fourth detection of a group ends the task (R144). -/
theorem takeDetection_ends (fourth : 3 ≤ (slotOf s k).detections) (compute : (slotOf s k).opcode = 1) (group : hasGroup (slotOf s k).table = true) :
    takeDetection s k (slotOf s k).span = endTask s k stReplayLimit hstDie none false := by
  simp [takeDetection, *]

/-- Any other is answered with REPLAY to every core (R143). -/
theorem takeDetection_replays (few : (slotOf s k).detections < 3 ∨ (slotOf s k).opcode ≠ 1 ∨ hasGroup (slotOf s k).table = false) : ∃ u,
    (∀ M s0, Sub 0x100000080 M → Within M s0 s → Within M s0 u) ∧
    slotOf u k = { slotOf s k with detections := (slotOf s k).detections + 1, spanDone := 0 } ∧
    takeDetection s k (slotOf s k).span = toCores u (coresOf (slotOf s k).mask) (fun c => .replay c k (slotOf s k).span) := by
  have goes_on : ¬ (decide (3 ≤ (slotOf s k).detections) && (slotOf s k).opcode == 1 && hasGroup (slotOf s k).table) = true := by
    simp only [Bool.and_eq_true, decide_eq_true_eq, beq_iff_eq]
    rintro ⟨⟨fourth, compute⟩, group⟩
    rcases few with few | other | none
    · omega
    · exact other compute
    · simp [none] at group
  simp only [takeDetection, busy, running, unwritten, Bool.not_true, Bool.or_self, bne_self_eq_false, Bool.false_eq_true, if_false, if_neg goes_on]
  refine ⟨_, fun M s0 hM w => ?_, ?_, rfl⟩
  · split
    · exact sendChain_within (hM.up rfl) _ _ _ _ (setSlot_within (hM.up rfl) _ _ _ w)
    · exact setSlot_within (hM.up rfl) _ _ _ w
  · split <;> simp

end

/-! A span commits (09 R244; 06 R141; 11 R292). -/

namespace Unheld

variable {s : State}

theorem updCore (h : Unheld s) (c : Nat) (f : Core → Core) : Unheld (updCore s c f) := h.queues rfl
theorem bumpCore (h : Unheld s) (c o n : Nat) : Unheld (bumpCore s c o n) := h.queues rfl
theorem emit (h : Unheld s) (o : Out) : Unheld (emit s o) := h.queues rfl
theorem setReg (h : Unheld s) (off v : Nat) : Unheld (setReg s off v) := h.queues rfl

theorem emptySums (h : Unheld s) (c r : Nat) : Unheld (emptySums s c r) :=
  h.within (emptySums_within (M := 0x1) rfl s c r .refl) rfl

theorem commitCore (h : Unheld s) (c : Nat) : Unheld (commitCore s c) := by
  unfold Machine.commitCore
  split
  · exact h
  · next t _ =>
    extract_lets l u1 u2 u3 none_ u4 a u5 u6 u7 u8 u9 u10 u11
    have h2 : Unheld u2 := .ite (fun _ => emptySums (.ite (fun _ => h.emptySums c _) (fun _ => h)) c _) (fun _ => .ite (fun _ => h.emptySums c _) (fun _ => h))
    have h4 : Unheld u4 := (h2.within (markGroup_within (M := 0x1) rfl u2 c l .refl) rfl).bumpCore c _ _
    have h7 : Unheld u7 := updCore (bumpCore (bumpCore (bumpCore (.ite (fun _ => h4) (fun _ => h4.emit _)) c _ _) c _ _) c _ _) c _
    have h8 : Unheld u8 := by
      refine each h7 l (fun s p k => ?_)
      split
      · next q _ =>
          refine freeRows (updQueue k q ?_) q _
          exact fun _ => id
      · exact k
    have h9 : Unheld u9 := h8.keepPackets c _ _
    have h11 : Unheld u11 := .ite (fun _ => (h9.bumpCore c _ _).setReg _ _) (fun _ => h9.bumpCore c _ _)
    exact .ite (fun _ => h11.updCore c _) (fun _ => h9.updCore c _)

end Unheld

end Sys2Proof.Machine
end

section
/-! PROOF. Spans that commit at the HST die (09 R244, R245; 06 R141), and O52. -/

namespace Sys2Proof.Machine

open Sys2Proof Sys2Proof.Safety

/-! A core leaves its task (09 R245; 10 R281). -/

theorem finishCore_unheld {s : State} (h : Unheld s) (c : Nat) : Unheld (finishCore s c) := by
  unfold finishCore
  split
  · exact h
  · next t _ =>
    extract_lets u1 u2 u3
    have h1 : Unheld u1 := .ite (fun _ => h) (fun _ => h.each _ (fun s w k => k.within (closeWin_within (M := 0x310000093) rfl s c w .refl) rfl))
    have h2 : Unheld u2 := .keepPackets (h1.within (closeTaskWindows_within (M := 0x310000093) rfl u1 c t.slot .refl) rfl) c _ _
    have h3 : Unheld u3 := h2.updCore c _
    exact .ite (fun _ => h3.updCore c _) (fun _ => h3.queues rfl)

/-- The core has no task any more, every other core has the one that it had, and the task slots are as they were. -/
theorem finishCore_does (s : State) (c : Nat) : (∀ d, (core (finishCore s c) d).task = if c = d then none else (core s d).task) ∧
    ∀ k, slotOf (finishCore s c) k = slotOf s k := by
  unfold finishCore
  split
  · next idle =>
    refine ⟨fun d => ?_, fun _ => rfl⟩
    split
    · next same => exact same ▸ idle
    · rfl
  · next t _ =>
    extract_lets u1 u2 u3
    have k1 : WorkKept s u1 := .ite (fun _ => .refl s) (fun _ => (WorkKept.refl s).each _ (fun u w => (WorkKept.refl u).closeWin c w))
    have k2 : WorkKept s u2 := (k1.closeTaskWindows c t.slot).within (keepPackets_within (M := 0x40) rfl _ c _ _ .refl) rfl rfl
    have left (d : Nat) : (core u3 d).task = if c = d then none else (core s d).task := by
      rw [core_updCore, ← k2.task d]
      split <;> rfl
    have slots : ∀ k, slotOf u3 k = slotOf s k := k2.slots
    clear_value u3
    refine ⟨fun d => ?_, fun k => ?_⟩
    · rw [← left d]
      split
      · rw [core_updCore]
        split
        · next same => rw [same]
        · rfl
      · rfl
    · split <;> exact slots k

theorem finishCores_unheld {s : State} (h : Unheld s) (l : List Nat) : Unheld (each l s finishCore) := h.each l (fun _ c k => finishCore_unheld k c)

theorem finishCores_slotOf (l : List Nat) (s : State) (k : Nat) : slotOf (each l s finishCore) k = slotOf s k :=
  each_keeps (fun s => slotOf s k) l s finishCore (fun s c _ => (finishCore_does s c).2 k)

theorem finishCores_task (l : List Nat) (s : State) (d : Nat) : (core (each l s finishCore) d).task = if d ∈ l then none else (core s d).task := by
  induction l generalizing s with
  | nil => simp [each]
  | cons c l ih =>
    refine (ih (finishCore s c)).trans ?_
    rw [(finishCore_does s c).1 d]
    by_cases same : c = d
    · simp [same]
    · simp [same, Ne.symm same]

/-! The span commits (09 R244; 06 R141). -/

theorem commitCores_unheld {s : State} (h : Unheld s) (l : List Nat) : Unheld (each l s commitCore) := h.each l (fun _ c k => k.commitCore c)

section
variable {s : State} {k : Nat}

/-- With another span to come, its GO goes to every core. -/
theorem commitSpan_next (unheld : Unheld s) (more : (slotOf s k).span + 1 < (slotOf s k).spans) : ∃ u, Unheld u ∧
    slotOf u k = { slotOf s k with span := (slotOf s k).span + 1, spanDone := 0, detections := 0 } ∧
    commitSpan s k = toCores u (coresOf (slotOf s k).mask) (fun c => .go c k ((slotOf s k).span + 1)) := by
  have unheld := commitCores_unheld unheld (coresOf (slotOf s k).mask)
  unfold commitSpan
  dsimp only
  rw [if_pos more]
  refine ⟨_, ?_, ?_, rfl⟩
  · split <;> exact unheld.queues rfl
  · split <;> simp

/-- After the last span the task ends on its cores. -/
theorem commitSpan_last (last : (slotOf s k).spans ≤ (slotOf s k).span + 1) : commitSpan s k =
    each (coresOf (slotOf s k).mask) (setSlot (each (coresOf (slotOf s k).mask) s commitCore) k { slotOf s k with spanDone := 0 }) finishCore := by
  unfold commitSpan
  dsimp only
  exact if_neg (Nat.not_lt.mpr last)

/-- A core of the span is still out. -/
theorem commitTry_waits (unheld : Unheld s) (out : allIn (slotOf s k).mask (slotOf s k).spanDone = false) : commitTry s k = s := by
  have unready : spanReady s k = false := by simp [spanReady, out]
  simp [commitTry, tryCommit, unready, unheld.settleAll]

end

section
variable {s : State} {k : SlotId} (ready : spanReady s k = true) (compute : (slotOf s k).opcode = 1) (group : hasGroup (slotOf s k).table = true)
include ready compute group

theorem execGroupCommit_ready : execGroupCommit k s = .next (settleAll (commitSpan s k)) := congrArg Host.Outcome.next (if_pos (by simp [ready, compute, group]))

variable (unheld : Unheld s)
include unheld

/-- A group commits, and another span follows. -/
theorem execGroupCommit_next (more : (slotOf s k).span + 1 < (slotOf s k).spans) : ∃ u,
    slotOf u k = { slotOf s k with span := (slotOf s k).span + 1, spanDone := 0, detections := 0 } ∧
    execGroupCommit k s = .next (toCores u (coresOf (slotOf s k).mask) (fun c => .go c k ((slotOf s k).span + 1))) := by
  obtain ⟨u, unheld_u, slot_u, commits⟩ := commitSpan_next unheld more
  refine ⟨u, slot_u, (execGroupCommit_ready ready compute group).trans (congrArg Host.Outcome.next ?_)⟩
  rw [commits]
  exact Unheld.settleAll (unheld_u.within (toCores_within (M := 0x100000000) rfl u _ _ .refl) rfl)

/-- The task's last group commits. -/
theorem execGroupCommit_last (last : (slotOf s k).spans ≤ (slotOf s k).span + 1) : execGroupCommit k s =
    .next (each (coresOf (slotOf s k).mask) (setSlot (each (coresOf (slotOf s k).mask) s commitCore) k { slotOf s k with spanDone := 0 }) finishCore) := by
  refine (execGroupCommit_ready ready compute group).trans (congrArg Host.Outcome.next ?_)
  rw [commitSpan_last last]
  refine Unheld.settleAll (finishCores_unheld ?_ _)
  exact Unheld.queues (commitCores_unheld unheld (coresOf (slotOf s k).mask)) rfl

end

/-! What each report of a core of the task leaves. -/

/-- The slot of a task that proceeds after a pass keeps all but the wait asked for and the start. -/
theorem passed_slot (u : State) (k c : Nat) : ∃ a b n r, slotOf (proceed (settleRefusal (updSlot u k (passedSlot · c)) k) k) k =
    { passedSlot (slotOf u k) c with waiting := a, started := b, since := n, reported := r } := by
  obtain ⟨-, a, b, n, r, kept⟩ := proceed_slotOf (settleRefusal (updSlot u k (passedSlot · c)) k) k
  rw [settleRefusal_slotOf, slotOf_updSlot, if_pos rfl] at kept
  exact ⟨a, b, n, r, kept⟩

theorem passed_unrefused {u : State} {k c : Nat} (unrefused : (slotOf u k).refusal = none) :
    settleRefusal (updSlot u k (passedSlot · c)) k = updSlot u k (passedSlot · c) :=
  settleRefusal_none (by rw [slotOf_updSlot, if_pos rfl]; exact unrefused)

section
variable {f : Frame} {slot : SlotId} {s : State} {c : Nat} (new : NewMessage s hstDie f)
include new

/-- A report from no core of the task changes nothing. -/
theorem report_stranger (stranger : ∀ c, dieCore f.src = some c → (slotOf s slot).busy = false ∨ bit (slotOf s slot).mask c = false) (st : BitVec 16)
    (ck : Fin 32) (sp : BitVec 29) :
    ∀ m ∈ [Instr.completionReportPassed f slot, .completionReportRefused f slot st ck, .completionReportSpanDone f slot sp, .completionReportDone f slot,
      .completionReportFault f slot st, .completionReportDrained f slot, .completionReportDetection f slot sp], exec m s = .next (tookMessage s hstDie f) := by
  simp only [List.mem_cons, List.not_mem_nil, or_false]
  rintro m (rfl | rfl | rfl | rfl | rfl | rfl | rfl) <;> exact congrArg Host.Outcome.next (onReport_stranger _ new stranger)

variable (die : dieCore f.src = some c) (busy : (slotOf s slot).busy = true) (part : bit (slotOf s slot).mask c = true)
include die busy part

theorem execPassed : execCompletionReportPassed f slot s =
    .next (proceed (settleRefusal (updSlot (tookMessage s hstDie f) slot (passedSlot · c)) slot) slot) :=
  congrArg Host.Outcome.next (onReport_part _ new die busy part)

/-- PASSED: the last pass starts the first span, where nothing is waited for. -/
theorem passed_does : ∃ t a b n r, exec (.completionReportPassed f slot) s = .next t ∧
    slotOf t slot = { passedSlot (slotOf s slot) c with waiting := a, started := b, since := n, reported := r } ∧
    ((slotOf s slot).ending = false → (slotOf s slot).started = false → (slotOf s slot).refusal = none →
      allIn (slotOf s slot).mask ((slotOf s slot).passed ||| 2 ^ c) = true → (slotOf s slot).counter = none → waitOf (slotOf s slot) = none →
      (slotOf t slot).started = true ∧
      ∀ d, d < 64 → bit (slotOf s slot).mask d = true → ∃ m ∈ t.net.chain, m.src = hstDie ∧ m.dst = coreDie d ∧ m.msg = .go d slot.val 0) ∧
    (allIn (slotOf s slot).mask ((slotOf s slot).passed ||| 2 ^ c) = false → (slotOf s slot).refusal = none → t.net = (tookMessage s hstDie f).net) := by
  have some_core : (slotOf s slot).mask ≠ 0 := fun none => by simp [none, bit] at part
  have slot_passed : slotOf (updSlot (tookMessage s hstDie f) slot (passedSlot · c)) slot = passedSlot (slotOf s slot) c := by rw [slotOf_updSlot, if_pos rfl]; rfl
  obtain ⟨a, b, n, r, slot_kept⟩ := passed_slot (tookMessage s hstDie f) slot c
  refine ⟨_, a, b, n, r, execPassed new die busy part, slot_kept, fun running unstarted unrefused passed uncounted unwaited => ?_, fun unpassed unrefused => ?_⟩
  · rw [passed_unrefused (u := tookMessage s hstDie f) unrefused,
      proceed_goes slot_passed busy running unstarted unrefused passed some_core uncounted unwaited]
    exact ⟨by simp, fun d hd member => toCores_sends _ _ (mem_coresOf.mpr ⟨hd, member⟩)⟩
  · rw [passed_unrefused (u := tookMessage s hstDie f) unrefused, proceed_waits (by rw [slot_passed]; exact unpassed)]
    rfl

theorem execRefused (status : BitVec 16) (check : Fin 32) : execCompletionReportRefused f slot status check s = .next (
    let u := tookMessage s hstDie f
    settleRefusal (setSlot (if (slotOf u slot).refusal.isNone then bump u (hstOff HST_REFUSE_COUNT) 1 else u) slot (refusedSlot (slotOf u slot) c status.toNat check)) slot) := by
  rw [execCompletionReportRefused, onReport_part _ new die busy part]
  rfl

/-- REFUSED: the first one is counted, and the one whose check comes first is kept. -/
theorem refused_does (status : BitVec 16) (check : Fin 32) : ∃ t, exec (.completionReportRefused f slot status check) s = .next t ∧
    OnlyParts [.regs, .cores, .hst, .net] s t ∧ slotOf t slot = refusedSlot (slotOf s slot) c status.toNat check ∧
    reg t (hstOff HST_REFUSE_COUNT) = if (slotOf s slot).refusal = none then (reg s (hstOff HST_REFUSE_COUNT) + 1) % 2 ^ 64 else reg s (hstOff HST_REFUSE_COUNT) := by
  refine ⟨_, execRefused new die busy part status check, (settleRefusal_within (M := partMask [.regs, .cores, .hst, .net] false) rfl _ _ (setSlot_within rfl _ _ _ ?_)).onlyParts, ?_, ?_⟩
  · split
    · exact bump_within rfl _ _ _ (tookMessage_within rfl _ _ .refl)
    · exact tookMessage_within rfl _ _ .refl
  · rw [settleRefusal_slotOf, slotOf_setSlot, if_pos rfl]
    rfl
  · rw [reg_congr ((settleRefusal_within (M := 0x100000010) rfl _ _ .refl).same .regs rfl)]
    cases none : (slotOf s slot).refusal with
    | none => simp [none]
    | some r => simp [none]

theorem execDone : execCompletionReportDone f slot s = .next (updSlot (tookMessage s hstDie f) slot (fun x => { x with done := x.done ||| 2 ^ c })) :=
  congrArg Host.Outcome.next (onReport_part _ new die busy part)

theorem execDrained : execCompletionReportDrained f slot s =
    .next (updSlot (openRows (tookMessage s hstDie f) slot c) slot (fun x => { x with drained := x.drained ||| 2 ^ c })) :=
  congrArg Host.Outcome.next (onReport_part _ new die busy part)

/-- DRAINED: rows that the stopped task could write take free values, where it was aborted; every other byte stays. -/
theorem drained_does : ∃ t, exec (.completionReportDrained f slot) s = .next t ∧
    OnlyParts (if aborted (slotOf s slot) && (slotOf s slot).status != stCancelled then [.mem, .hst, .net, .freeIdx] else [.hst, .net]) s t ∧
    (∀ b, (∀ r ∈ abortRows s c slot, b < rowDpa c r.1 r.2.1 ∨ rowDpa c r.1 (r.2.1 + r.2.2) ≤ b) → mread t.mem b = mread s.mem b) ∧
    slotOf t slot = { slotOf s slot with drained := (slotOf s slot).drained ||| 2 ^ c } ∧ ∀ j, j ≠ slot.val → slotOf t j = slotOf s j := by
  refine ⟨_, execDrained new die busy part, ?_, fun b outside => mread_openRows (tookMessage s hstDie f) slot c outside, ?_, fun j other => ?_⟩
  · split
    · exact (updSlot_within (M := partMask [.mem, .hst, .net, .freeIdx] false) rfl _ _ _ (openRows_within rfl _ _ _ (tookMessage_within rfl _ _ .refl))).onlyParts
    · next kept =>
      rw [show openRows (tookMessage s hstDie f) slot c = tookMessage s hstDie f from if_neg kept]
      exact (updSlot_within (M := partMask [.hst, .net] false) rfl _ _ _ (tookMessage_within rfl _ _ .refl)).onlyParts
  · rw [slotOf_updSlot, if_pos rfl, openRows_slotOf]
    rfl
  · rw [slotOf_updSlot, if_neg other.symm, openRows_slotOf]
    rfl

theorem execFault (status : BitVec 16) : execCompletionReportFault f slot status s =
    .next (endTask (tookMessage s hstDie f) slot status.toNat (coreDie c) (some c) false) :=
  congrArg Host.Outcome.next (onReport_part _ new die busy part)

/-- A report of another span comes too late (R244; 06 R143). -/
theorem report_otherSpan {span : BitVec 29} (other : (slotOf s slot).span % 2 ^ 29 ≠ span.toNat) :
    ∀ m ∈ [Instr.completionReportSpanDone f slot span, .completionReportDetection f slot span], exec m s = .next (tookMessage s hstDie f) := by
  simp only [List.mem_cons, List.not_mem_nil, or_false]
  rintro m (rfl | rfl) <;> exact congrArg Host.Outcome.next ((onReport_part _ new die busy part).trans (if_neg other))

theorem execSpanDone {span : BitVec 29} (same : (slotOf s slot).span % 2 ^ 29 = span.toNat) : execCompletionReportSpanDone f slot span s =
    .next (commitTry (updSlot (tookMessage s hstDie f) slot (fun x => { x with spanDone := x.spanDone ||| 2 ^ c })) slot) :=
  congrArg Host.Outcome.next ((onReport_part _ new die busy part).trans (if_pos same))

theorem execDetection {span : BitVec 29} (same : (slotOf s slot).span % 2 ^ 29 = span.toNat) : execCompletionReportDetection f slot span s =
    .next (takeDetection (tookMessage s hstDie f) slot (slotOf s slot).span) :=
  congrArg Host.Outcome.next ((onReport_part _ new die busy part).trans (if_pos same))

end

/-- Settles O52: a report from a core of the task does to the slot what the lemmas above say, any other does nothing. -/
theorem taskReports : Obligations.TaskReports := by
  refine ⟨fun f slot s new stranger => report_stranger new stranger, fun f slot c s new die busy part => ?_, fun f slot s new => ⟨fun idle => ?_, fun busy waiting => ?_⟩,
    fun slot s => ⟨fun unready => ?_, fun ready compute group unheld => ?_⟩⟩
  · intro x s'
    refine ⟨passed_does new die busy part, fun st ck => ?_, ?_, drained_does new die busy part, fun st => ⟨fun settled => ?_, fun running unwritten => ?_⟩, fun sp => ⟨report_otherSpan new die busy part,
      fun same => ⟨fun out unheld => ?_, fun settled => ?_, fun running unwritten few => ?_, fun running unwritten fourth compute group => ?_⟩⟩⟩
    · -- REFUSED
      obtain ⟨t, refuses, parts, slot_kept, counted⟩ := refused_does new die busy part st ck
      refine ⟨t, refuses, parts, ?_, fun first => ?_, fun e k before later => ?_, counted⟩ <;> rw [slot_kept]
      · exact refusedSlot_answered ..
      · exact refusedSlot_first c st.toNat first
      · exact refusedSlot_later c st.toNat before later
    · -- DONE
      exact ⟨_, execDone new die busy part, (updSlot_within (M := partMask [.hst, .net] false) rfl _ _ _ (tookMessage_within rfl _ _ .refl)).onlyParts,
        by simp [x], fun j other => by simp [other.symm]⟩
    · -- FAULT of a task that has ended, and of one that runs
      rw [show exec (.completionReportFault f slot st) s = _ from execFault new die busy part st, endTask_settled s' _ _ _ _ _ (.inr settled)]
    · have ended := endTask_slotOf s' slot st.toNat (coreDie c) (some c) false busy running unwritten slot
      rw [if_pos rfl] at ended
      refine ⟨_, execFault new die busy part st, (endTask_within (M := partMask [.cores, .hst, .net] false) rfl _ _ _ _ _ _ (tookMessage_within rfl _ _ .refl)).onlyParts,
        congrArg Slot.ending ended, congrArg Slot.status ended, congrArg Slot.srcDie ended, fun d hd other member active => ?_⟩
      exact endTask_tells (s := s') busy running unwritten _ _ false hd member active (by simpa using other.symm)
    · -- SPAN_DONE while a core is out
      have slot_out : slotOf (updSlot s' slot (fun x => { x with spanDone := x.spanDone ||| 2 ^ c })) slot = { x with spanDone := x.spanDone ||| 2 ^ c } := by
        rw [slotOf_updSlot, if_pos rfl]
        rfl
      have waits := commitTry_waits (s := updSlot s' slot (fun x => { x with spanDone := x.spanDone ||| 2 ^ c })) (k := slot) unheld (by rw [slot_out]; exact out)
      refine ⟨_, (execSpanDone new die busy part same).trans (congrArg Host.Outcome.next waits), ?_, slot_out⟩
      exact (updSlot_within (M := partMask [.hst, .net] false) rfl _ _ _ (tookMessage_within rfl _ _ .refl)).onlyParts
    · -- DETECTION of a task that has ended, one that replays the span, and the one that ends the task
      rw [show exec (.completionReportDetection f slot sp) s = _ from execDetection new die busy part same, takeDetection_settled (s := s') settled]
    · obtain ⟨u, within, slot_u, replays⟩ := takeDetection_replays (s := s') (k := slot) busy running unwritten few
      refine ⟨_, (execDetection new die busy part same).trans (congrArg Host.Outcome.next replays), ?_, ?_,
        fun d hd member => toCores_sends _ _ (mem_coresOf.mpr ⟨hd, member⟩)⟩
      · exact (toCores_within (M := partMask [.hst, .net] false) rfl _ _ _ (within _ _ rfl (tookMessage_within rfl _ _ .refl))).onlyParts
      · rw [toCores_slotOf, slot_u]
        rfl
    · have ended := endTask_slotOf s' slot stReplayLimit hstDie none false busy running unwritten slot
      rw [if_pos rfl] at ended
      have ends := takeDetection_ends (s := s') (k := slot) busy running unwritten fourth compute group
      refine ⟨_, (execDetection new die busy part same).trans (congrArg Host.Outcome.next ends),
        (endTask_within (M := partMask [.cores, .hst, .net] false) rfl _ _ _ _ _ _ (tookMessage_within rfl _ _ .refl)).onlyParts,
        congrArg Slot.ending ended, congrArg Slot.status ended, accAborts_endTask (s := s') busy running unwritten _ _ _ _⟩
  · -- MARKER_REACHED
    refine congrArg Host.Outcome.next ((onChain_new _ new).trans (if_neg ?_))
    rcases idle with h | h <;> simp [h]
  · obtain ⟨others, a, b, n, r, kept⟩ := proceed_slotOf (updSlot (tookMessage s hstDie f) slot (fun x => { x with waited := true })) slot
    refine ⟨_, a, b, n, r, congrArg Host.Outcome.next ((onChain_new _ new).trans (if_pos (by simp [busy, waiting]))), ?_, fun j other => ?_⟩
    · rw [kept, slotOf_updSlot, if_pos rfl]
      rfl
    · rw [others j other, slotOf_updSlot, if_neg other.symm]
      rfl
  · -- GROUP_COMMIT
    refine congrArg Host.Outcome.next (if_neg ?_)
    rcases unready with h | h | h <;> simp [h]
  · by_cases more : (slotOf s slot).span + 1 < (slotOf s slot).spans
    · obtain ⟨u, slot_u, commits⟩ := execGroupCommit_next ready compute group unheld more
      exact ⟨_, commits, fun _ => ⟨(toCores_slotOf ..).trans slot_u, fun d hd member => toCores_sends _ _ (mem_coresOf.mpr ⟨hd, member⟩)⟩,
        fun last => absurd more (Nat.not_lt.mpr last)⟩
    · refine ⟨_, execGroupCommit_last ready compute group unheld (Nat.not_lt.mp more), ?_⟩
      refine ⟨fun next => absurd next more, fun _ => ⟨?_, fun d hd member => ?_⟩⟩
      · rw [finishCores_slotOf, slotOf_setSlot, if_pos rfl]
      · rw [finishCores_task, if_pos (mem_coresOf.mpr ⟨hd, member⟩)]

end Sys2Proof.Machine
end

section
/-! PROOF. Tags of the fetch engine (10 R261, R269): which request takes a tag, what a row that is read leaves at its core, and the packet that goes out
for it. -/

namespace Sys2Proof.Machine

open Sys2Proof Sys2Proof.Safety

/-! When no tag is given (R261, R269). -/

/-- No task, a held port or no free tag: the engine issues nothing. -/
theorem tagStep_idle {s : State} {c : Nat} (idle : (core s c).task = none ∨ portHeld s c = true ∨ freeTags s c = []) (only3 : Bool) : tagStep s c only3 = s := by
  cases task : (core s c).task with
  | none => simp [tagStep, task]
  | some w =>
    have blocked : (portHeld s c || (freeTags s c).isEmpty) = true := by
      rcases idle with none | held | taken
      · simp [none] at task
      · simp [held]
      · simp [taken]
    simp [tagStep, task, blocked]

/-! A row takes a tag (R259, R269). -/

/-- What the engine keeps under the tag of a row. -/
def issuedTag (s : State) (t : CoreTask) (r : Req) (a : Nat) : Tag :=
  { task := t.slot, write := r.write, acc := r.acc, stream := r.stream, slot := r.slot, va := r.va, dpa := a, kind := r.kind, mem := r.mem, region := r.region,
    row := r.row, due := r.due, since := now s }

/-- The state once a request has taken a tag, before its packet leaves. -/
def tagTaken (s : State) (c : Nat) (t : CoreTask) (tag : Nat) (r : Req) (a : Nat) : State :=
  let u := updCore s c (fun x => { x with tags := tset x.tags tag (issuedTag s t r a), requests := x.requests.erase r })
  let u := bumpCore (bumpCore u c FET_TAG_ISSUE_COUNT 1) c FET_LATE_ISSUE_COUNT (b2n (reqClass t r == 2 && decide (r.latest < (now s : Int))))
  if reqClass t r = 2 then updCore u c (fun x => { x with lastWinner := r.stream }) else u

/-- The due time that a packet carries: none in class 3 (R271). -/
def packetDue (t : CoreTask) (r : Req) : Nat := if reqClass t r = 3 then 0 else r.due

theorem issueRow_read {s : State} {t : CoreTask} {r : Req} {a : Nat} (read : r.write = false) (ok : translate s t.strand r.va false = .ok a) (c tag : Nat) :
    issueRow s c t tag r = sendBulk (tagTaken s c t tag r a) (coreDie c) (servingDie a) .readRequest tag a (packetDue t r) [] := by
  simp only [issueRow, read, ok, Bool.false_eq_true, if_false]
  rw [tagTaken, issuedTag, read]
  rfl

section
variable (s : State) (c : Nat) (t : CoreTask) (tag : Nat) (r : Req) (a : Nat)

theorem tagTaken_core : ∃ n, core (tagTaken s c t tag r a) c =
    { core s c with tags := tset (core s c).tags tag (issuedTag s t r a), requests := (core s c).requests.erase r, lastWinner := n } := by
  by_cases second : reqClass t r = 2
  · exact ⟨r.stream, by simp [tagTaken, second]⟩
  · exact ⟨(core s c).lastWinner, by simp [tagTaken, second]⟩

theorem tagTaken_issueCount : coreReg (tagTaken s c t tag r a) c FET_TAG_ISSUE_COUNT = (coreReg s c FET_TAG_ISSUE_COUNT + 1) % 2 ^ 64 := by
  have late : coreOff c FET_LATE_ISSUE_COUNT ≠ coreOff c FET_TAG_ISSUE_COUNT := by rw [Ne, coreOff_inj]; decide
  by_cases second : reqClass t r = 2 <;> simp [tagTaken, second, coreReg, late]

theorem tagTaken_parts : OnlyParts [.regs, .cores] s (tagTaken s c t tag r a) := by
  have counted (n : Nat) (f : Core → Core) : Within (partMask [.regs, .cores] false) s (bumpCore (bumpCore (updCore s c f) c FET_TAG_ISSUE_COUNT 1) c FET_LATE_ISSUE_COUNT n) :=
    bumpCore_within rfl _ _ _ _ (bumpCore_within rfl _ _ _ _ (updCore_within rfl _ _ _ .refl))
  simp only [tagTaken]
  exact OnlyParts.ite (fun _ => (updCore_within rfl _ _ _ (counted _ _)).onlyParts) (fun _ => (counted _ _).onlyParts)

end

/-! A transfer of one row (R261). -/

/-- The port is free: a transfer of fewer than 8 rows holds it from now on for 40 ns. -/
theorem holdPort_core {s : State} {c : Nat} (unheld : portHeld s c = false) : core (holdPort s c 1) c = { core s c with portHold := some (now s + 40) } := by
  have past : max (now s) ((core s c).portHold.getD 0) = now s := by
    cases hold : (core s c).portHold with
    | none => simp
    | some t => simpa [portHeld, hold] using unheld
  simp [holdPort, past]

/-- Which rows join a transfer does not depend on the cores. -/
theorem transferOf_updCore (s : State) (c : Nat) (f : Core → Core) (t : CoreTask) (l : List Req) (r : Req) (n : Nat) :
    transferOf (updCore s c f) t l r n = transferOf s t l r n := by
  have same (v w : Nat) : samePage (updCore s c f) t.strand v w = samePage s t.strand v w := rfl
  induction n generalizing r with
  | zero => rfl
  | succ n ih => simp only [transferOf, same, ih]

section
variable {s : State} {c : CoreId} {w : CoreTask} {r : Req} {tag : Nat} (task : (core s c).task = some w) {free : List Nat} (tags : freeTags s c = tag :: free)
  (single : singleRead s c w r)
include task tags single

/-- Only the row of its request goes out, under the lowest free tag. -/
theorem issueTransfer_single : issueTransfer s c w r = holdPort (issueRow s c w tag r) c 1 := by
  obtain ⟨read, asked, roomless, ready, alone⟩ := single
  have runs : stillRuns s c w.slot = true := by simp [stillRuns, task]
  simp only [issueTransfer, asked, alone, roomless, tags, Bool.not_true, Bool.false_eq_true, if_false, if_true, List.filter_cons, ready, List.filter_nil,
    List.zip_cons_cons, List.zip_nil_left, each, List.foldl_cons, List.foldl_nil, runs, read, Bool.false_and]
  rfl

/-- What the transfer of one row leaves: its tag, its count, the port held, and the packet. -/
theorem issueTransfer_does (unheld : portHeld s c = false) {a : Nat} (ok : translate s w.strand r.va false = .ok a) :
    OnlyParts [.regs, .cores, .net] s (issueTransfer s c w r) ∧
    (∃ n, core (issueTransfer s c w r) c = { core s c with tags := tset (core s c).tags tag (issuedTag s w r a), requests := (core s c).requests.erase r,
                                                           lastWinner := n, portHold := some (now s + 40) }) ∧
    coreReg (issueTransfer s c w r) c FET_TAG_ISSUE_COUNT = (coreReg s c FET_TAG_ISSUE_COUNT + 1) % 2 ^ 64 ∧
    (issueTransfer s c w r).net.bulk = s.net.bulk ++
      [{ src := coreDie c, dst := servingDie a, seq := tget 0 s.net.bulkTx (pairKey (coreDie c) (servingDie a)), type := .readRequest,
         tag := tag, addr := a, due := packetDue w r, data := [], sentAt := now s }] := by
  obtain ⟨n, taken⟩ := tagTaken_core s c w tag r a
  have parts := tagTaken_parts s c w tag r a
  have time : now (tagTaken s c w tag r a) = now s := by rw [now, parts .clock (by decide), now]
  have net : (tagTaken s c w tag r a).net = s.net := parts .net (by decide)
  rw [issueTransfer_single task tags single, issueRow_read single.1 ok]
  refine ⟨OnlyParts.trans parts (holdPort_within (M := partMask [.regs, .cores, .net] false) rfl _ _ _ (sendBulk_within rfl _ _ _ _ _ _ _ _ .refl)).onlyParts (by decide) (by decide),
    ⟨n, ?_⟩, ?_, ?_⟩
  · have free_port : portHeld (tagTaken s c w tag r a) c = false := by
      rw [portHeld, taken, time]
      exact unheld
    rw [holdPort_core (s := sendBulk _ _ _ _ _ _ _ _) free_port, sendBulk_core_of, sendBulk_now_of, taken, time]
  · have small : coreOff c FET_SMALL_XFER_COUNT ≠ coreOff c FET_TAG_ISSUE_COUNT := by rw [Ne, coreOff_inj]; decide
    have held (u : State) : coreReg (holdPort u c 1) c FET_TAG_ISSUE_COUNT = coreReg u c FET_TAG_ISSUE_COUNT := by simp [holdPort, coreReg, small]
    rw [held, sendBulk_coreReg_of, tagTaken_issueCount]
  · have held (u : State) : (holdPort u c 1).net = u.net := rfl
    rw [held, sendBulk_bulk, net, time]

end

/-! TAG_ISSUE and CLASS3_PROMOTION (R269). -/

/-- A class-3 request that has waited too long is promoted. -/
def goesAhead (s : State) (c : Nat) (w : CoreTask) (r : Req) : Bool := reqClass w r == 3 && promoted s c r

/-- The state once a promotion is noted, where the request that is picked needs one. -/
def notedAhead (s : State) (c : Nat) (w : CoreTask) (r : Req) : State :=
  if goesAhead s c w r then updCore s c (fun x => { x with promotedAt := some (now s) }) else s

theorem notedAhead_cases (s : State) (c : Nat) (w : CoreTask) (r : Req) :
    notedAhead s c w r = s ∨ notedAhead s c w r = updCore s c (fun x => { x with promotedAt := some (now s) }) := by
  unfold notedAhead
  split
  · exact .inr rfl
  · exact .inl rfl

theorem notedAhead_core (s : State) (c : Nat) (w : CoreTask) (r : Req) : ∃ o, core (notedAhead s c w r) c = { core s c with promotedAt := o } := by
  rcases notedAhead_cases s c w r with same | noted
  · exact ⟨(core s c).promotedAt, by rw [same]⟩
  · exact ⟨some (now s), by simp [noted]⟩

/-- The note is the core's alone. -/
theorem notedAhead_keeps (s : State) (c : Nat) (w : CoreTask) (r : Req) : (notedAhead s c w r).regs = s.regs ∧ (notedAhead s c w r).net = s.net ∧
    now (notedAhead s c w r) = now s ∧ (∀ n v, translate (notedAhead s c w r) n v false = translate s n v false) ∧ OnlyParts [.cores] s (notedAhead s c w r) := by
  rcases notedAhead_cases s c w r with same | noted
  · rw [same]
    exact ⟨rfl, rfl, rfl, fun _ _ => rfl, Within.onlyParts (back := false) .refl⟩
  · rw [noted]
    exact ⟨rfl, rfl, rfl, fun _ _ => rfl, (updCore_within (M := partMask [.cores] false) rfl _ _ _ .refl).onlyParts⟩

/-- The note changes nothing that the transfer depends on. -/
theorem singleRead_notedAhead {s : State} {c : Nat} {w : CoreTask} {r : Req} (single : singleRead s c w r) : singleRead (notedAhead s c w r) c w r := by
  rcases notedAhead_cases s c w r with same | noted
  · rwa [same]
  rw [noted]
  obtain ⟨read, asked, roomless, ready, alone⟩ := single
  refine ⟨read, by simpa using asked, roomless, ?_, by simpa [transferOf_updCore] using alone⟩
  have room : bulkRoom (updCore s c (fun x => { x with promotedAt := some (now s) })) (coreDie c) = bulkRoom s (coreDie c) := rfl
  simpa [reqReady, xltHit, roomless, room] using ready

section
variable {s : State} {c : CoreId} {w : CoreTask} {r : Req} {tag : Nat} {free : List Nat} (task : (core s c).task = some w) (unheld : portHeld s c = false)
  (tags : freeTags s c = tag :: free) (picked : pickReq s c w = some r)
include task unheld tags picked

theorem tagStep_picked (only3 : Bool) : tagStep s c only3 = if only3 && !goesAhead s c w r then s else issueTransfer (notedAhead s c w r) c w r := by
  simp only [tagStep, task, unheld, tags, picked, List.isEmpty_cons, Bool.or_self, Bool.false_eq_true, if_false]
  rfl

/-- TAG_ISSUE: the row's request leaves under the lowest free tag, and the port is held. -/
theorem tagStep_does {a : Nat} (single : singleRead s c w r) (ok : translate s w.strand r.va false = .ok a) : ∃ t, tagStep s c false = t ∧
    OnlyParts [.regs, .cores, .net] s t ∧ (core t c).portHold = some (now s + 40) ∧ (core t c).requests = (core s c).requests.erase r ∧
    tfind (core t c).tags tag = some (issuedTag s w r a) ∧ coreReg t c FET_TAG_ISSUE_COUNT = (coreReg s c FET_TAG_ISSUE_COUNT + 1) % 2 ^ 64 ∧
    t.net.bulk = s.net.bulk ++ [{ src := coreDie c, dst := servingDie a, seq := tget 0 s.net.bulkTx (pairKey (coreDie c) (servingDie a)), type := .readRequest,
                                  tag := tag, addr := a, due := packetDue w r, data := [], sentAt := now s }] := by
  have alone := singleRead_notedAhead single
  obtain ⟨o, core_u⟩ := notedAhead_core s c w r
  obtain ⟨regs, net, time, pages, noted⟩ := notedAhead_keeps s c w r
  rw [tagStep_picked task unheld tags picked, Bool.false_and, if_neg Bool.false_ne_true]
  generalize notedAhead s c w r = u at *
  obtain ⟨parts, ⟨n, core_t⟩, counted, sent⟩ := issueTransfer_does (s := u) (free := free) (by rw [core_u]; exact task) (by rw [freeTags, core_u]; exact tags) alone
    (by rw [portHeld, core_u, time]; exact unheld) ((pages _ _).trans ok)
  have tag_u : issuedTag u w r a = issuedTag s w r a := by rw [issuedTag, issuedTag, time]
  rw [core_u, time, tag_u] at core_t
  rw [coreReg, coreReg, reg_congr regs] at counted
  rw [net, time] at sent
  refine ⟨_, rfl, OnlyParts.trans noted parts (by decide) (by decide), ?_, ?_, ?_, counted, sent⟩ <;> rw [core_t]
  exact (tfind_tset _ _ _ _).trans (if_pos rfl)

end

/-- The engine's commands at a core (R261, R269). -/
theorem tagIssue : Claims.TagIssue := by
  refine ⟨fun c s idle => ?_, fun c w r tag free a s task unheld tags picked single ok => ⟨?_, fun ahead => ?_, fun behind => ?_⟩, fun c s => ⟨fun held => ?_, fun free => ?_⟩⟩
  · exact ⟨congrArg Host.Outcome.next (tagStep_idle idle false), congrArg Host.Outcome.next (tagStep_idle idle true)⟩
  · obtain ⟨t, issues, parts, port, requests, taken, counted, sent⟩ := tagStep_does task unheld tags picked single ok
    exact ⟨t, congrArg Host.Outcome.next issues, parts, port, requests, ⟨_, taken, rfl, rfl, rfl, rfl, single.1, rfl⟩, counted, sent⟩
  · -- CLASS3_PROMOTION of a request that has waited too long, and of any other
    have goes : goesAhead s c w r = true := ahead
    refine congrArg Host.Outcome.next ?_
    rw [tagStep_picked task unheld tags picked, tagStep_picked task unheld tags picked, goes]
    rfl
  · have stays : goesAhead s c w r = false := behind
    refine congrArg Host.Outcome.next ?_
    rw [tagStep_picked task unheld tags picked, stays]
    rfl
  · exact congrArg Host.Outcome.next (if_pos held)
  · exact congrArg Host.Outcome.next (if_neg (by simp [free]))

end Sys2Proof.Machine
end

section
/-! PROOF. What comes back for a tag (10 R259, R275, R276, R280; 08 R213): the tag is free, an error ends the task, a row lands in its stream's region;
and O26. -/

namespace Sys2Proof.Machine

open Sys2Proof Sys2Proof.Safety

/-- A packet that is taken changes the network alone (14 R353). -/
theorem tookPacket_within {M : Nat} {s0 s : State} (hM : Sub 0x100000000 M) (die : Nat) (p : BulkTag) (h : Within M s0 s) :
    Within M s0 (tookPacket s die p) := h.net (hM.has rfl)

/-! A tag is freed (R259). -/

theorem tfind_tdel_self {α : Type} (t : Tab α) (k : Nat) : tfind (tdel t k) k = none := by
  induction t with
  | nil => rfl
  | cons p t ih =>
    obtain ⟨j, v⟩ := p
    by_cases same : j = k
    · simpa [tdel, same] using ih
    · simpa [tdel, tfind, same] using ih

theorem freeTag_running {s : State} {c : Nat} (running : (core s c).draining = none) (tag : Nat) :
    freeTag s c tag = updCore s c (fun x => { x with tags := tdel x.tags tag }) := by
  simp [freeTag, running]

section
variable {s : State} {c : Nat} (running : (core s c).draining = none) (tag : Nat)
include running

theorem freeTag_core : core (freeTag s c tag) c = { core s c with tags := tdel (core s c).tags tag } := by
  simp [freeTag_running running]

theorem freeTag_frees : tfind (core (freeTag s c tag) c).tags tag = none := by
  rw [freeTag_core running]
  exact tfind_tdel_self _ _

theorem freeTag_regs : (freeTag s c tag).regs = s.regs := by simp [freeTag_running running]

end

/-- The state once something has come for a tag: the tag is free, and what made it late is forgotten. -/
def rowFreed (s : State) (c : CoreId) (p : BulkTag) (tag : TagId) : State :=
  freeTag (updCore (tookPacket s (coreDie c) p) c (fun x => { x with lateCause := tdel x.lateCause tag })) c tag

theorem rowFreed_core {s : State} {c : CoreId} (running : (core s c).draining = none) (p : BulkTag) (tag : TagId) :
    core (rowFreed s c p tag) c = { core s c with lateCause := tdel (core s c).lateCause tag, tags := tdel (core s c).tags tag } := by
  rw [rowFreed, freeTag_core (by simpa using running)]
  simp

theorem rowFreed_regs {s : State} {c : CoreId} (running : (core s c).draining = none) (p : BulkTag) (tag : TagId) : (rowFreed s c p tag).regs = s.regs :=
  freeTag_regs (by simpa using running) tag

/-! A row moves (R273, R275). -/

theorem streamMoved_core (s : State) (c i n : Nat) : ∃ b, core (streamMoved s c i n) c = { core s c with streamBytes := b } := by
  unfold streamMoved
  split
  · exact ⟨(core s c).streamBytes, rfl⟩
  · exact ⟨tset (core s c).streamBytes i (tget 0 (core s c).streamBytes i + n), by simp⟩

/-- What a row of a running task leaves of its core. -/
theorem rowTaken_core {s : State} {c : CoreId} (running : (core s c).draining = none) (p : BulkTag) (tag : TagId) (g : Tag) (events : Nat) :
    ∃ b, core (rowTaken s c p tag g events) c =
      { core s c with lateCause := tdel (core s c).lateCause tag, tags := tdel (core s c).tags tag, streamBytes := b } := by
  obtain ⟨b, moved⟩ := streamMoved_core (bumpCore (rowFreed s c p tag) c FET_BYTES_READ 512) c g.stream 512
  refine ⟨b, (core_corrected _ _ _ _ _).trans ?_⟩
  rw [← rowFreed, moved, bumpCore_core_of, rowFreed_core running]

theorem rowTaken_task {s : State} {c : CoreId} (running : (core s c).draining = none) (p : BulkTag) (tag : TagId) (g : Tag) (events : Nat) :
    (core (rowTaken s c p tag g events) c).task = (core s c).task := by
  obtain ⟨b, taken⟩ := rowTaken_core running p tag g events
  rw [taken]

/-- Taking a row changes neither memory nor the registers of the scratchpads. -/
theorem rowTaken_mem {s : State} {c : CoreId} (running : (core s c).draining = none) (p : BulkTag) (tag : TagId) (g : Tag) (events : Nat) :
    (rowTaken s c p tag g events).mem = s.mem := by
  have moved (u : State) : (streamMoved u c g.stream 512).mem = u.mem := (streamMoved_within (M := 0x11) rfl u c g.stream 512 .refl).same .mem rfl
  rw [rowTaken, corrected_parts _ _ _ _ .mem (by decide), moved, freeTag_running (by simpa using running)]
  rfl

theorem rowTaken_spmSame {s : State} {c : CoreId} (running : (core s c).draining = none) (p : BulkTag) (tag : TagId) (g : Tag) (events : Nat) :
    SpmSame s (rowTaken s c p tag g events) c := by
  have counted := (SpmSame.of_regs (c := c) (rowFreed_regs running p tag)).trans (.of_bump _ c FET_BYTES_READ 512 (by decide) (by decide) (by decide))
  exact (counted.trans (.of_streamMoved _ _ _ _)).trans (.of_corrected _ _ _ _)

/-! The scales and metadata beside a row (05 R122). -/

/-- Lines that are read one after the other leave the registers of the core blocks alone. -/
theorem CoreRegsKept.readLines (n : Nat) (l : List (Nat × Nat)) (s : State) : CoreRegsKept s (untilFault (fun s (p : Nat × Nat) => Machine.getLine s n p.1) l s).1 := by
  have kept (t : State) (h : CoreRegsKept s t) : CoreRegsKept s (untilFault (fun s (p : Nat × Nat) => Machine.getLine s n p.1) l t).1 := by
    induction l generalizing t with
    | nil => exact h
    | cons p l ih =>
      unfold untilFault
      dsimp only
      split
      · exact ih _ (h.getLine n p.1)
      · exact h.getLine n p.1
  exact kept s (.refl s)

theorem CoreRegsKept.spmSame {s t : State} {c : Nat} (hc : c < 64) (h : CoreRegsKept s t) : SpmSame s t c :=
  ⟨fun _ _ _ => h _ (coreBlock_coreOff hc (by omega)), h _ (coreBlock_coreOff hc (by decide)), h _ (coreBlock_coreOff hc (by decide))⟩

theorem besideRows_spmSame (s : State) {c : Nat} (hc : c < 64) (t : CoreTask) (g : Tag) : SpmSame s (besideRows s c t g).1 c := by
  unfold besideRows
  extract_lets d f n o l r
  have lines : SpmSame s r.1 c := (CoreRegsKept.readLines t.strand l s).spmSame hc
  split
  · exact .of_regs rfl
  · split
    · exact lines.trans (.of_bump _ c FET_BYTES_READ _ (by decide) (by decide) (by decide))
    · exact lines

theorem besideRows_cores (s : State) (c : Nat) (t : CoreTask) (g : Tag) : (besideRows s c t g).1.cores = s.cores :=
  (besideRows_within (M := 0x710000f89) rfl s c t g .refl).same .cores rfl

theorem besideRows_mem (s : State) (c : Nat) (t : CoreTask) (g : Tag) : (besideRows s c t g).1.mem = s.mem :=
  (besideRows_within (M := 0x710000f89) rfl s c t g .refl).same .mem rfl

/-! A row lands at the TAIL of its region (08 R199, R202, R219). -/

/-- Counting a row that stands in memory, and moving TAIL on, leaves memory. -/
theorem countRegion_advanceTail_mem (s : State) (c m r : Nat) : (countRegion (advanceTail s c m r 1) c m r).mem = s.mem :=
  (countRegion_within (M := 0x100000011) rfl _ c m r (advanceTail_within rfl s c m r 1 .refl)).same .mem rfl

section
variable {s : State} {c m r : Nat} (unbuffered : (core s c).gb = []) (data : List Byte)
include unbuffered

theorem localWrite_mem {row : Nat} (allowed : localFault s c m row = none) : (localWrite s c m row data).mem = mwriteN s.mem (rowDpa c m row) data := by
  simp only [localWrite, allowed]
  exact putRow_mem unbuffered m row data

variable (allowed : localFault s c m (tailRow s c m r) = none)
include allowed

theorem appendRow_mem : (appendRow s c m r data).mem = mwriteN s.mem (rowDpa c m (tailRow s c m r)) data := by
  simp only [appendRow, allowed]
  rw [countRegion_advanceTail_mem, localWrite_mem unbuffered data allowed]

theorem landFetched_mem (va : Nat) : (landFetched s c m r va data).mem = mwriteN s.mem (rowDpa c m (tailRow s c m r)) data := by
  unfold landFetched
  extract_lets row
  split
  · have noted (u : State) : (noteRow (loseOther u c row r) c m row).mem = u.mem := loseOther_parts u c row r .mem (by decide)
    rw [countRegion_advanceTail_mem, noted, mem_writeRow, flushRow_unbuffered unbuffered]
  · exact appendRow_mem unbuffered data allowed

/-- A row of a stream lands there. -/
theorem landRead_mem {g : Tag} (streamed : g.kind = 0) (place : g.mem = m ∧ g.region = r) :
    (landRead s c g data).mem = mwriteN s.mem (rowDpa c m (tailRow s c m r)) data := by
  obtain ⟨rfl, rfl⟩ := place
  simp only [landRead, streamed, Nat.zero_ne_one, OfNat.zero_ne_ofNat, if_false]
  exact landFetched_mem unbuffered data allowed g.va

end

theorem noteStall_mem (s : State) (c i cause : Nat) : (noteStall s c i cause).mem = s.mem :=
  (noteStall_within (M := 0x10) rfl s c i cause .refl).same .mem rfl

/-! What each packet does, by what its tag is. -/

section
variable {s : State} {c : CoreId} {p : BulkTag} {tag : TagId} (new : NewPacket s (coreDie c) p)
include new

/-- A packet for a tag that the core does not hold (R280). -/
theorem answer_untagged (untagged : tfind (core s c).tags tag.val = none) :
    (∀ st data ev ca, exec (.readData c p tag st data ev ca) s = .next (tookPacket s (coreDie c) p)) ∧
      exec (.writeAcknowledge c p tag) s = .next (tookPacket s (coreDie c) p) ∧
      (∀ rd, exec (.negativeAcknowledge c p tag rd true) s = .next (tookPacket s (coreDie c) p)) := by
  refine ⟨fun st data ev ca => ?_, ?_, fun rd => ?_⟩ <;> refine congrArg Host.Outcome.next ((onBulk_new _ new).trans ?_) <;> simp [untagged]

variable {g : Tag} (tagged : tfind (core s c).tags tag.val = some g) (running : (core s c).draining = none)
include tagged running

section
variable (gone : g.abandoned = true)
include gone

/-- A row for an abandoned tag is counted as waste (R280). -/
theorem readData_abandoned (data : List Byte) (ev : Fin 8) (ca : Fin 6) : ∃ t, exec (.readData c p tag 0#16 data ev ca) s = .next t ∧
    OnlyParts [.regs, .cores, .net] s t ∧ tfind (core t c).tags tag.val = none ∧ coreReg t c FET_WASTE_BYTES = (coreReg s c FET_WASTE_BYTES + 512) % 2 ^ 64 := by
  refine ⟨bumpCore (rowFreed s c p tag) c FET_WASTE_BYTES 512,
    congrArg Host.Outcome.next ((onBulk_new _ new).trans ?_), ?_, ?_, ?_⟩
  · simp [tagged, gone, rowFreed]
  · exact (bumpCore_within (M := partMask [.regs, .cores, .net] false) rfl _ _ _ _ (freeTag_within rfl _ _ _ (updCore_within rfl _ _ _ (tookPacket_within rfl _ _ .refl)))).onlyParts
  · rw [bumpCore_core_of, rowFreed_core running]
    exact tfind_tdel_self _ _
  · rw [coreReg, reg_bumpCore, if_pos rfl, reg_congr (rowFreed_regs running p tag)]
    rfl

/-- The bytes of a write that was acknowledged count even so (R259). -/
theorem writeAcknowledge_abandoned : ∃ t, exec (.writeAcknowledge c p tag) s = .next t ∧ OnlyParts [.regs, .cores, .net] s t ∧
    tfind (core t c).tags tag.val = none ∧ coreReg t c FET_BYTES_WRITTEN = (coreReg s c FET_BYTES_WRITTEN + 512) % 2 ^ 64 := by
  have running_u : (core (bumpCore (tookPacket s (coreDie c) p) c FET_BYTES_WRITTEN 512) c).draining = none := running
  refine ⟨freeTag (bumpCore (tookPacket s (coreDie c) p) c FET_BYTES_WRITTEN 512) c tag, congrArg Host.Outcome.next ((onBulk_new _ new).trans ?_), ?_,
    freeTag_frees running_u tag, ?_⟩
  · simp [tagged, gone]
  · exact (freeTag_within (M := partMask [.regs, .cores, .net] false) rfl _ _ _ (bumpCore_within rfl _ _ _ _ (tookPacket_within rfl _ _ .refl))).onlyParts
  · rw [coreReg, reg_congr (freeTag_regs running_u tag), reg_bumpCore, if_pos rfl]
    rfl

/-- A refusal for an abandoned tag is counted (R280; 08 R213). -/
theorem negativeAcknowledge_abandoned (rd ab : Bool) : ∃ t, exec (.negativeAcknowledge c p tag rd ab) s = .next t ∧ OnlyParts [.regs, .cores, .net] s t ∧
    tfind (core t c).tags tag.val = none ∧ coreReg t c FET_ABORT_COUNT = (coreReg s c FET_ABORT_COUNT + 1) % 2 ^ 64 := by
  have running_u : (core (tookPacket s (coreDie c) p) c).draining = none := running
  refine ⟨bumpCore (freeTag (tookPacket s (coreDie c) p) c tag) c FET_ABORT_COUNT 1, congrArg Host.Outcome.next ((onBulk_new _ new).trans ?_), ?_,
    freeTag_frees running_u tag, ?_⟩
  · simp [tagged, gone]
  · exact (bumpCore_within (M := partMask [.regs, .cores, .net] false) rfl _ _ _ _ (freeTag_within rfl _ _ _ (tookPacket_within rfl _ _ .refl))).onlyParts
  · rw [coreReg, reg_bumpCore, if_pos rfl, reg_congr (freeTag_regs running_u tag)]
    rfl

end

variable {w : CoreTask} (held : g.abandoned = false) (task : (core s c).task = some w)
include held

/-- The row of a write is acknowledged, and the span does not commit yet (R259; 01 R29). -/
theorem writeAcknowledge_held
    (unready : spanReady (streamMoved (freeTag (bumpCore (tookPacket s (coreDie c) p) c FET_BYTES_WRITTEN 512) c tag) c g.stream 512) g.task = false) :
    ∃ t, exec (.writeAcknowledge c p tag) s = .next t ∧ tfind (core t c).tags tag.val = none ∧ OnlyParts [.regs, .cores, .net] s t := by
  refine ⟨streamMoved (freeTag (bumpCore (tookPacket s (coreDie c) p) c FET_BYTES_WRITTEN 512) c tag) c g.stream 512,
    congrArg Host.Outcome.next ((onBulk_new _ new).trans ?_), ?_, ?_⟩
  · simp [tagged, held, tryCommit, unready]
  · obtain ⟨b, moved⟩ := streamMoved_core (freeTag (bumpCore (tookPacket s (coreDie c) p) c FET_BYTES_WRITTEN 512) c tag) c g.stream 512
    have running_u : (core (bumpCore (tookPacket s (coreDie c) p) c FET_BYTES_WRITTEN 512) c).draining = none := running
    rw [moved]
    exact freeTag_frees running_u tag
  · exact (streamMoved_within (M := partMask [.regs, .cores, .net] false) rfl _ _ _ _ (freeTag_within rfl _ _ _ (bumpCore_within rfl _ _ _ _ (tookPacket_within rfl _ _ .refl)))).onlyParts

include task

/-- A read that comes back with an error ends the task (R276). -/
theorem readData_fails {st : BitVec 16} (failed : st ≠ 0#16) (data : List Byte) (ev : Fin 8) (ca : Fin 6) :
    ∃ t, exec (.readData c p tag st data ev ca) s = .next t ∧ Faulted s t c st.toNat := by
  have task_u : (core (corrected (rowFreed s c p tag) c g.stream ev) c).task = some w := by
    rw [core_corrected, rowFreed_core running]
    exact task
  refine ⟨faultCore (corrected (rowFreed s c p tag) c g.stream ev) c st.toNat g.stream g.slot g.va, congrArg Host.Outcome.next ((onBulk_new _ new).trans ?_),
    Faulted.of (task_u.trans task.symm) (faultCore_faulted _ _ _ _ _ _ w task_u)⟩
  simp [tagged, held, failed, rowFreed]

/-- A refused read or write ends the task (08 R213; 14 R355). -/
theorem negativeAcknowledge_fails (rd : Bool) : ∃ t, exec (.negativeAcknowledge c p tag rd false) s = .next t ∧
    Faulted s t c (if rd then stProtectionFault else stWindowViolation) := by
  have task_u : (core (freeTag (tookPacket s (coreDie c) p) c tag) c).task = some w := by
    rw [freeTag_core (by simpa using running)]
    simpa using task
  refine ⟨faultCore (freeTag (tookPacket s (coreDie c) p) c tag) c (if rd then stProtectionFault else stWindowViolation) g.stream g.slot g.va,
    congrArg Host.Outcome.next ((onBulk_new _ new).trans ?_), Faulted.of (task_u.trans task.symm) (faultCore_faulted _ _ _ _ _ _ w task_u)⟩
  simp [tagged, held]

/-- A line of the row's scales or metadata cannot be read: the task ends with its status (05 R122). -/
theorem readData_besideFails {ev : Fin 8} {u : State} {e a : Nat} (beside : besideRows (rowTaken s c p tag g ev) c w g = (u, some (e, a))) (data : List Byte)
    (ca : Fin 6) : ∃ t, exec (.readData c p tag 0#16 data ev ca) s = .next t ∧ Faulted s t c e := by
  have task_r := (rowTaken_task running p tag g ev).trans task
  have cores_u : u.cores = (rowTaken s c p tag g ev).cores := by simpa [beside] using besideRows_cores (rowTaken s c p tag g ev) c w g
  have task_u : (core u c).task = some w := by rw [core_congr cores_u, task_r]
  refine ⟨faultCore u c e g.stream g.slot a, congrArg Host.Outcome.next ((onBulk_new _ new).trans ?_), Faulted.of (task_u.trans task.symm) (faultCore_faulted _ _ _ _ _ _ w task_u)⟩
  simp only [rowTaken] at beside task_r
  simp [tagged, held, task_r, beside]

/-- The row lands, once the lines beside it are read. -/
theorem execReadData_lands {ev : Fin 8} {u : State} (beside : besideRows (rowTaken s c p tag g ev) c w g = (u, none)) (data : List Byte) (ca : Fin 6) :
    ∃ n, exec (.readData c p tag 0#16 data ev ca) s = .next (noteStall (landRead u c g data) c g.stream n) := by
  have task_r := (rowTaken_task running p tag g ev).trans task
  refine Exists.imp (fun n lands => congrArg Host.Outcome.next ((onBulk_new _ new).trans lands)) ?_
  simp only [rowTaken] at beside task_r
  simp only [tookPacket_core_of, tagged, held, task_r, beside, Bool.false_eq_true, if_false, ne_eq, not_true_eq_false]
  exact ⟨_, rfl⟩

/-- A row lands in its stream's region (R259). -/
theorem readData_lands {ev : Fin 8} {u : State} (beside : besideRows (rowTaken s c p tag g ev) c w g = (u, none)) {data : List Byte} (ca : Fin 6)
    (streamed : g.kind = 0) (place : g.mem < 3 ∧ g.region < 64) (canonical : MemoryCanonical s) (unbuffered : (core s c).gb = []) (whole : data.length = 512)
    (allowed : localFault s c g.mem (tailRow s c g.mem g.region) = none) : ∃ t, exec (.readData c p tag 0#16 data ev ca) s = .next t ∧
      mreadN t.mem (rowDpa c g.mem (tailRow s c g.mem g.region)) 512 = data ∧
      ∀ a, a < rowDpa c g.mem (tailRow s c g.mem g.region) ∨ rowDpa c g.mem (tailRow s c g.mem g.region) + 512 ≤ a → mread t.mem a = mread s.mem a := by
  obtain ⟨n, lands⟩ := execReadData_lands new tagged running held task beside data ca
  obtain ⟨b, taken⟩ := rowTaken_core running p tag g ev
  have read_u : (besideRows (rowTaken s c p tag g ev) c w g).1 = u := by rw [beside]
  have spm : SpmSame s u c := (rowTaken_spmSame running p tag g ev).trans (read_u ▸ besideRows_spmSame _ c.isLt w g)
  have mem_u : u.mem = s.mem := by rw [← read_u, besideRows_mem, rowTaken_mem running]
  have unbuffered_u : (core u c).gb = [] := by
    rw [← read_u, core_congr (besideRows_cores _ _ _ _), taken]
    exact unbuffered
  have tail : tailRow u c g.mem g.region = tailRow s c g.mem g.region := spm.tailRow_eq _ _ place.1 place.2
  have landed := landRead_mem (r := g.region) unbuffered_u data (by rw [tail, spm.localFault_eq _ _ place.1]; exact allowed) streamed ⟨rfl, rfl⟩
  rw [tail, mem_u] at landed
  refine ⟨_, lands, ?_, fun a outside => ?_⟩
  · rw [noteStall_mem, landed, ← whole]
    exact mreadN_mwriteN _ _ _ canonical
  · rw [noteStall_mem, landed]
    exact mread_mwriteN_other _ _ (by rwa [whole])

end

/-- Every answer to a tag. -/
theorem tagAnswers : Claims.TagAnswers := by
  intro c p tag s new
  refine ⟨answer_untagged new, fun g tagged gone running => ?_, fun g w tagged held running task => ⟨?_, ?_, ?_, ?_, ?_⟩⟩
  · exact ⟨readData_abandoned new tagged running gone, writeAcknowledge_abandoned new tagged running gone, negativeAcknowledge_abandoned new tagged running gone⟩
  · exact fun st data ev ca failed => readData_fails new tagged running held task failed data ev ca
  · exact negativeAcknowledge_fails new tagged running held task
  · exact writeAcknowledge_held new tagged running held
  · exact fun data ev ca u e a beside => readData_besideFails new tagged running held task beside data ca
  · exact fun data ev ca u streamed place canonical unbuffered whole allowed beside =>
      readData_lands new tagged running held task beside ca streamed place canonical unbuffered whole allowed

/-- Settles O26: a request that is picked takes the lowest free tag, and what comes back for a tag frees it, faults, or lands. -/
theorem tagsOfTheFetchEngine : Obligations.TagsOfTheFetchEngine := ⟨tagIssue, tagAnswers⟩

end Sys2Proof.Machine
end

section
/-! PROOF. Hardware queues (11): one rule for each shared operation of the queue engine, and what a command at a queue does in each of its cases. -/

namespace Sys2Proof.Machine

open Sys2Proof Sys2Proof.Safety

/-! Places of registers (11; 16). -/

theorem queOff_ne_regionOff (q : HwQueue) {w : Nat} (below : w < 8) (c m r k : Nat) : queOff q w ≠ regionOff c m r k := by
  unfold queOff regionOff coreOff
  omega

/-- TAIL moves in the region's pointer word alone. -/
theorem coreReg_advanceTail (s : State) (c m r n : Nat) {o : Nat} (below : o < 0x2000) : coreReg (advanceTail s c m r n) c o = coreReg s c o :=
  reg_setReg_other s _ (regionOff_ne_coreOff m r 1 below).symm

theorem coreReg_bumpCore_same (s : State) (c o n : Nat) : coreReg (bumpCore s c o n) c o = (coreReg s c o + n) % 2 ^ 64 :=
  (reg_bumpCore ..).trans (if_pos rfl)

theorem coreReg_bumpCore_other (s : State) (c n : Nat) {o k : Nat} (other : k ≠ o) : coreReg (bumpCore s c o n) c k = coreReg s c k :=
  (reg_bumpCore ..).trans (if_neg (by rw [coreOff_inj]; exact other.symm))

/-! Parts of the state that the records of a queue, and its ports, read. -/

theorem queue_congr {s t : State} (h : t.queues = s.queues) (q : Nat) : queue t q = queue s q := by unfold queue; rw [h]
theorem port_congr {s t : State} (h : t.ports = s.ports) (p : Nat) : port t p = port s p := by unfold port; rw [h]

@[simp] theorem setTag_queue_of (s : State) (q pos v r : Nat) : queue (setTag s q pos v) r = queue s r := rfl
@[simp] theorem setTag_coreReg_of (s : State) (q pos v c o : Nat) : coreReg (setTag s q pos v) c o = coreReg s c o := rfl

theorem queue_updQueue_same (s : State) (q : Nat) (f : Queue → Queue) : queue (updQueue s q f) q = f (queue s q) := (queue_updQueue ..).trans (if_pos rfl)

/-! The producer's side of a queue (R286, R294, R296): what markers and readable packets leave as it was. -/

/-- The producer's side: the open packet, the write that waits, the next number, and the core's count of dropped packets. -/
structure PortSide where
  open_ : Option QPacket
  held : Option (Option Nat)
  seqNext : Nat
  dropped : Nat

def portSide (s : State) (q : Nat) : PortSide :=
  { open_ := (queue s q).open_, held := (queue s q).held, seqNext := (queue s q).seqNext, dropped := coreReg s (queCore q) QUE_DROP_PKT_COUNT }

theorem portSide_congr {s t : State} (queues : t.queues = s.queues) (regs : t.regs = s.regs) (q : Nat) : portSide t q = portSide s q := by
  rw [portSide, portSide, queue_congr queues, coreReg, reg_congr regs]
  rfl

theorem portSide_updQueue {s : State} {q : Nat} {f : Queue → Queue}
    (same : (f (queue s q)).open_ = (queue s q).open_ ∧ (f (queue s q)).held = (queue s q).held ∧ (f (queue s q)).seqNext = (queue s q).seqNext) :
    portSide (updQueue s q f) q = portSide s q := by
  obtain ⟨opened, held, next⟩ := same
  simp only [portSide, queue_updQueue_same, updQueue_coreReg_of, opened, held, next]

theorem portSide_advanceTail (s : State) (q m r n : Nat) : portSide (advanceTail s (queCore q) m r n) q = portSide s q := by
  rw [portSide, coreReg_advanceTail _ _ _ _ _ (by decide)]
  rfl

theorem portSide_bumpCore (s : State) (q n : Nat) {o : Nat} (other : QUE_DROP_PKT_COUNT ≠ o) : portSide (bumpCore s (queCore q) o n) q = portSide s q := by
  rw [portSide, coreReg_bumpCore_other _ _ _ other]
  rfl

theorem portSide_wrBytes (s : State) (a : Nat) (l : List Byte) (q : Nat) : portSide (wrBytes s a l) q = portSide s q := portSide_congr rfl rfl q
theorem portSide_setTag (s : State) (q pos v : Nat) : portSide (setTag s q pos v) q = portSide s q := portSide_congr rfl rfl q

theorem portSide_writeMarker (s : State) (q pos : Nat) (m : QMarker) : portSide (writeMarker s q pos m) q = portSide s q := by
  unfold writeMarker
  dsimp only
  rw [portSide_bumpCore _ _ _ (by decide), portSide_advanceTail, portSide_updQueue ⟨rfl, rfl, rfl⟩, portSide_setTag, portSide_wrBytes]

theorem portSide_showFull (s : State) (q : Nat) : portSide (showFull s q) q = portSide s q := by
  unfold showFull
  refine each_keeps (portSide · q) _ s _ fun u i _ => ?_
  split
  · split
    · split
      · rw [portSide_writeMarker, portSide_updQueue ⟨rfl, rfl, rfl⟩]
      · rfl
    · rfl
  · rfl

theorem portSide_showMarker (s : State) (q : Nat) : portSide (showMarker s q) q = portSide s q := by
  unfold showMarker
  split
  · rfl
  · split
    · rfl
    · split
      · rw [portSide_writeMarker, portSide_updQueue ⟨rfl, rfl, rfl⟩]
      · rfl

theorem portSide_nextMarker (s : State) (q seq n : Nat) : portSide (nextMarker s q seq n) q = portSide s q := by
  unfold nextMarker
  dsimp only
  split
  · exact portSide_updQueue ⟨rfl, rfl, rfl⟩
  · split
    · rfl
    · rw [portSide_updQueue ⟨rfl, rfl, rfl⟩, portSide_showFull, portSide_updQueue ⟨rfl, rfl, rfl⟩]

theorem portSide_showPacket (s : State) (q : Nat) : portSide (showPacket s q) q = portSide s q := by
  unfold showPacket
  extract_lets u
  have shown : portSide u q = portSide s q := portSide_showFull s q
  split
  · exact shown
  · split
    · exact shown
    · extract_lets v w
      have beside : portSide v q = portSide s q := by
        unfold v
        split
        · split
          · exact (portSide_showMarker u q).trans shown
          · exact shown
        · exact shown
      rw [portSide_showFull, portSide_bumpCore _ _ _ (by decide), portSide_advanceTail, portSide_updQueue ⟨rfl, rfl, rfl⟩, beside]

/-! Rows that become free (R292, R295, R296; 15 R382). -/

/-- A queue but for the rows that it holds: which rows its markers have, how many rows hold no readable packet, and what it owes for freed rows. -/
def Queue.withoutRows (x : Queue) : Queue :=
  { x with marker := x.marker.map ({ · with row := none }), fullMarkers := x.fullMarkers.map ({ · with row := none }), landed := 0, owed := 0 }

theorem withoutRows_port {x y : Queue} (same : x.withoutRows = y.withoutRows) : x.open_ = y.open_ ∧ x.held = y.held ∧ x.seqNext = y.seqNext :=
  ⟨(congrArg Queue.open_ same :), (congrArg Queue.held same :), (congrArg Queue.seqNext same :)⟩

theorem withoutRows_reads {x y : Queue} (same : x.withoutRows = y.withoutRows) :
    x.readable = y.readable ∧ x.waiting = y.waiting ∧ x.result = y.result ∧ x.flushPending = y.flushPending :=
  ⟨(congrArg Queue.readable same :), (congrArg Queue.waiting same :), (congrArg Queue.result same :), (congrArg Queue.flushPending same :)⟩

theorem withoutRows_markers {x y : Queue} (same : x.withoutRows = y.withoutRows) :
    (y.fullMarkers = [] → x.fullMarkers = []) ∧ (y.marker = none → x.marker = none) := by
  have full : x.fullMarkers.map _ = y.fullMarkers.map _ := congrArg Queue.fullMarkers same
  have pending : x.marker.map _ = y.marker.map _ := congrArg Queue.marker same
  exact ⟨fun empty => by simpa [empty] using full, fun empty => by simpa [empty] using pending⟩

theorem markerTakesRow_withoutRows (s : State) (q : Nat) : (queue (markerTakesRow s q) q).withoutRows = (queue s q).withoutRows := by
  unfold markerTakesRow
  extract_lets u
  have full : (queue u q).withoutRows = (queue s q).withoutRows := by
    refine each_keeps (fun u => (queue u q).withoutRows) _ s _ fun v i _ => ?_
    dsimp only
    split
    · next m found =>
      split
      · have given : ((queue v q).fullMarkers.set i { m with row := some (landPos v q) }).map ({ · with row := none }) =
            (queue v q).fullMarkers.map ({ · with row := none }) := by
          obtain ⟨below, rfl⟩ := List.getElem?_eq_some_iff.mp found
          rw [List.map_set]
          exact (congrArg _ (List.getElem_map ..).symm).trans (List.set_getElem_self (by simpa using below))
        rw [queue_updQueue_same, Queue.withoutRows, given]
        rfl
      · rfl
    · rfl
  rw [← full]
  split
  · next m pending =>
    split
    · rw [queue_updQueue_same, Queue.withoutRows, Queue.withoutRows, pending]
      rfl
    · rfl
  · rfl

/-- CREDIT goes into a port's queue of control messages. -/
theorem receiving_sendCredit (s : State) (dst n flits p : Nat) : (port (sendCredit s dst n flits) p).receiving = (port s p).receiving := by
  unfold sendCredit controlTo sendControl
  dsimp only
  split
  · rw [port_updPort]
    split
    · next same => rw [same]
    · rfl
  · rfl

theorem queues_sendCredit (s : State) (dst n flits : Nat) : (sendCredit s dst n flits).queues = s.queues :=
  (sendCredit_within (M := 0x800) rfl s dst n flits .refl).same .queues rfl

theorem freeRows_does (s : State) (q n : Nat) : (queue (freeRows s q n) q).withoutRows = (queue s q).withoutRows ∧
    ∀ p, (port (freeRows s q n) p).receiving = (port s p).receiving := by
  have rows := markerTakesRow_withoutRows s q
  have ports (p : Nat) : (port (markerTakesRow s q) p).receiving = (port s p).receiving :=
    congrArg Port.receiving (port_congr ((markerTakesRow_within (M := 0x40) rfl s q .refl).same .ports rfl) p)
  unfold freeRows
  extract_lets u k w
  split
  · exact ⟨rows, ports⟩
  · split
    · exact ⟨rows, ports⟩
    · split
      · exact ⟨rows, ports⟩
      · refine ⟨?_, fun p => (receiving_sendCredit ..).trans (ports p)⟩
        rw [queue_congr (queues_sendCredit ..), queue_updQueue_same]
        exact rows

/-! Waits (R290, R291, R296): a stall and its end change cores alone. -/

theorem queueStall_parts (s : State) (q : Nat) : OnlyParts [.cores] s (queueStall s q) :=
  (queueStall_within (M := partMask [.cores] false) rfl s q .refl).onlyParts
theorem queueWoken_parts (before : Nat) (s : State) (q : Nat) : OnlyParts [.cores] s (queueWoken before s q) :=
  (queueWoken_within (M := partMask [.cores] false) rfl before s q .refl).onlyParts

theorem queueStall_unheld {s : State} {q : Nat} (free : (queue s q).held = none) : queueStall s q = s := by
  simp [queueStall, free]

theorem queueWoken_unstalled {s : State} {q : Nat} (before : Nat) (free : (core s (queCore q)).stall = none) : queueWoken before s q = s := by
  simp [queueWoken, free]

/-- With no write held back, and no message of a link die under way, freed rows let nothing go on. -/
theorem settle_quiet {s : State} {q : Nat} (quiet : QueueQuiet s q) : settle s q = s := by
  obtain ⟨free, idle⟩ := quiet
  have retried : retryHeld s q = s := by rw [retryHeld, free]
  rw [settle, retried]
  refine each_id _ s _ fun p below => ?_
  rw [idle p (List.mem_range.mp below)]
  rfl

theorem queueQuiet_of_same {s t : State} {q : Nat} (quiet : QueueQuiet s q) (held : (queue t q).held = (queue s q).held)
    (receiving : ∀ p, (port t p).receiving = (port s p).receiving) : QueueQuiet t q :=
  ⟨held.trans quiet.1, fun p below => (receiving p).trans (quiet.2 p below)⟩

theorem queueQuiet_updQueue {s : State} {q : Nat} {f : Queue → Queue} (quiet : QueueQuiet s q) (held : (f (queue s q)).held = (queue s q).held) :
    QueueQuiet (updQueue s q f) q :=
  queueQuiet_of_same quiet ((congrArg Queue.held (queue_updQueue_same s q f)).trans held) fun _ => rfl

/-! Full markers, where there are none (R295). -/

theorem showFull_none {s : State} {q : Nat} (unfull : (queue s q).fullMarkers = []) : showFull s q = s := by
  rw [showFull, unfull]
  rfl

end Sys2Proof.Machine
end

section
/-! PROOF. Writes to a queue's port (11 R286, R287, R294, R296; 16 R420, R421), and O14. -/

namespace Sys2Proof.Machine

open Sys2Proof Sys2Proof.Safety

/-! A packet that is dropped (R294, R295). -/

theorem portSide_markerTakesRow (s : State) (q : Nat) : portSide (markerTakesRow s q) q = portSide s q := by
  obtain ⟨opened, held, next⟩ := withoutRows_port (markerTakesRow_withoutRows s q)
  have regs : (markerTakesRow s q).regs = s.regs := (markerTakesRow_within (M := 0x40) rfl s q .refl).same .regs rfl
  rw [portSide, opened, held, next, coreReg, reg_congr regs]
  rfl

theorem portSide_joinMarker (s : State) (q seq n bytes : Nat) (drops : List QDrop) : portSide (joinMarker s q seq n bytes drops) q = portSide s q := by
  unfold joinMarker
  dsimp only
  rw [portSide_markerTakesRow, portSide_updQueue ⟨rfl, rfl, rfl⟩, portSide_nextMarker]

/-- A packet that is dropped stays open, marked and without rows, and is counted. -/
theorem portSide_dropOpen (s : State) (q : Nat) (k : QPacket) : portSide (dropOpen s q k) q =
    { portSide s q with open_ := some { k with dropped := true, rows := 0 }, dropped := (coreReg s (queCore q) QUE_DROP_PKT_COUNT + 1) % 2 ^ 64 } := by
  unfold dropOpen
  extract_lets u v
  have counted : portSide v q =
      { portSide s q with open_ := some { k with dropped := true, rows := 0 }, dropped := (coreReg s (queCore q) QUE_DROP_PKT_COUNT + 1) % 2 ^ 64 } := by
    rw [portSide, coreReg_bumpCore_same, bumpCore_queue_of, queue_updQueue_same]
    rfl
  split
  · rw [portSide_markerTakesRow, counted]
  · rw [portSide_joinMarker, counted]

/-! OPEN (R286, R294, R296). -/

theorem queues_writeRow (s : State) (c m r : Nat) (data : List Byte) : (writeRow s c m r data).queues = s.queues := rfl

/-- A row that lands is one more that holds no readable packet; a core producer pays for it with a credit under the DX8 policy. -/
theorem queue_takeRow (s : State) (q : Nat) : ∃ n, queue (takeRow s q) q = { queue s q with landed := (queue s q).landed + 1, credits := n } := by
  have landed : queue (landRow s q) q = { queue s q with landed := (queue s q).landed + 1 } := by
    rw [landRow, queue_updQueue_same, queue_congr (queues_writeRow ..)]
  unfold takeRow
  dsimp only
  split
  · exact ⟨_, by rw [queue_updQueue_same, landed]⟩
  · exact ⟨_, landed⟩

section

variable {q : HwQueue} {p : Producer} {s : State}

theorem queOpen_room (room : hasRoom s q = true) : ∃ n, queue (queOpen s q) q = { queue s q with
    open_ := some { seq := (queue s q).seqNext, pos := landPos s q, rows := 1, after := (queue s q).markers },
    seqNext := ((queue s q).seqNext + 1) % 65536, landed := (queue s q).landed + 1, credits := n } := by
  obtain ⟨n, taken⟩ := queue_takeRow s q
  refine ⟨n, ?_⟩
  rw [queOpen, if_pos room, queue_updQueue_same, taken]

theorem queOpen_dropped (full : hasRoom s q = false) (native : quePolicy s q = false) : portSide (queOpen s q) q =
    { portSide s q with open_ := some { seq := (queue s q).seqNext, pos := landPos s q, rows := 0, dropped := true, after := (queue s q).markers },
                        seqNext := ((queue s q).seqNext + 1) % 65536, dropped := (coreReg s (queCore q) QUE_DROP_PKT_COUNT + 1) % 2 ^ 64 } := by
  rw [queOpen, if_neg (by simp [full]), if_neg (by simp [native]), portSide_dropOpen, portSide, queue_updQueue_same]
  rfl

theorem queOpen_held (full : hasRoom s q = false) (dx8 : quePolicy s q = true) : queue (queOpen s q) q = { queue s q with held := some none } := by
  rw [queOpen, if_neg (by simp [full]), if_pos dx8, queue_updQueue_same]

theorem execOpenPacket_taken (port : portOk s q p = true) (shut : (queue s q).open_ = none) (free : (queue s q).held = none) :
    execOpenPacket q p s = .next (queueStall (queOpen s q) q) := by
  simp [execOpenPacket, port, shut, free]

theorem queueOpen : Claims.QueueOpen := by
  intro q p s port shut free
  have stalled := queueStall_parts (queOpen s q) q
  have kept : queue (queueStall (queOpen s q) q) q = queue (queOpen s q) q := queue_congr (stalled .queues (by decide)) q
  have regs (off : Nat) : reg (queueStall (queOpen s q) q) off = reg (queOpen s q) off := reg_congr (stalled .regs (by decide)) off
  refine ⟨_, execOpenPacket_taken port shut free, fun room => ?_, fun full native => ?_, fun full dx8 => kept.trans (queOpen_held full dx8)⟩
  · obtain ⟨n, opened⟩ := queOpen_room room
    rw [kept, opened]
    exact ⟨rfl, rfl, rfl⟩
  · have dropped := queOpen_dropped full native
    rw [kept, regs]
    exact ⟨congrArg PortSide.seqNext dropped, ⟨_, congrArg PortSide.open_ dropped, rfl, rfl⟩, congrArg PortSide.dropped dropped⟩

/-! A write that the port does not take (R286, R420, R421). -/

theorem execOpenPacket_refused (closed : portOk s q p = false) : execOpenPacket q p s = .next (producerFail s q stQueueProtocol p) := by
  simp [execOpenPacket, closed]
theorem execData_refused (v : Word) (closed : portOk s q p = false) : execData q p v s = .next (producerFail s q stQueueProtocol p) := by
  simp [execData, closed]
theorem execClose_refused (closed : portOk s q p = false) : execClose q p s = .next (producerFail s q stQueueProtocol p) := by
  simp [execClose, closed]

theorem reg_postedDrop_last (s : State) (status source index : Nat) :
    reg (postedDrop s status source index) (hstOff HST_LAST_DROP) = (status + source * 2 ^ 16 + index * 2 ^ 18) % 2 ^ 64 := by
  obtain ⟨m, sent⟩ := postedDrop_sends s status source index
  rw [sent, sendChain_reg_of, dropNoted, reg_setReg_same]

theorem queueProtocolDropsHostWrites : Claims.QueueProtocolDropsHostWrites := by
  intro q v s closed
  dsimp only
  obtain ⟨parts, counted, -⟩ := postedDrop_does s stQueueProtocol 2 q
  have same : queue (postedDrop s stQueueProtocol 2 q) q = queue s q := queue_congr (parts .queues (by decide)) q
  have last := reg_postedDrop_last s stQueueProtocol 2 q
  exact ⟨⟨_, execOpenPacket_refused closed, same, last, counted⟩, ⟨_, execData_refused v closed, same, last, counted⟩,
    ⟨_, execClose_refused closed, same, last, counted⟩⟩

/-! DATA and CLOSE (R286, R287). -/

/-- A word that stays in its packet's row needs no room. -/
theorem execData_stores {k : QPacket} (v : Word) (port : portOk s q p = true) (opened : (queue s q).open_ = some k) (free : (queue s q).held = none)
    (kept : k.dropped = false) (inside : k.n % 64 ≠ 0) : execData q p v s = .next (storeWord s q k v.toNat) := by
  have stored : queData s q k v.toNat = (storeWord s q k v.toNat, 0) := by
    rw [queData, if_neg (by simp [kept]), if_pos inside]
  have unheld : (queue (storeWord s q k v.toNat) q).held = none := by
    rw [storeWord, queue_updQueue_same]
    exact free
  simp [execData, port, opened, free, stored, queueStall_unheld unheld]

theorem mem_storeWord (k : QPacket) (v : Nat) :
    (storeWord s q k v).mem = (wr64 s (queRowDpa s q (k.pos + k.n / 64) + 8 * (k.n % 64)) v).mem := rfl

/-- A packet that closes: its length word stands in its first row, and its tags at its core. -/
def packetClosed (s : State) (q : Nat) (k : QPacket) : State :=
  tagPacket (wr64 s (queRowDpa s q k.pos) (8 * (k.n - 1) % 2 ^ 32 + k.seq * 2 ^ 32)) q k

theorem execClose_waits {k : QPacket} (port : portOk s q p = true) (opened : (queue s q).open_ = some k) (free : (queue s q).held = none)
    (kept : k.dropped = false) (unflushed : (queue s q).flushPending = false) :
    execClose q p s = .next (updQueue (packetClosed s q k) q (fun x => { x with
      open_ := none, waiting := x.waiting ++ [{ k with committed := queKind s q != 0 }] })) := by
  simp [execClose, port, opened, free, queClose, kept, unflushed, packetClosed]
  rfl

theorem packetClosed_does (k : QPacket) : (packetClosed s q k).mem = (wr64 s (queRowDpa s q k.pos) (8 * (k.n - 1) % 2 ^ 32 + k.seq * 2 ^ 32)).mem ∧
    (packetClosed s q k).queues = s.queues ∧ OnlyParts [.mem, .cores] s (packetClosed s q k) := by
  have tags := tagPacket_within (M := 0x10) rfl (wr64 s (queRowDpa s q k.pos) (8 * (k.n - 1) % 2 ^ 32 + k.seq * 2 ^ 32)) q k .refl
  exact ⟨tags.same .mem rfl, tags.same .queues rfl, (tagPacket_within rfl _ q k (wr64_within rfl s _ _ .refl)).onlyParts (back := false)⟩

theorem queueDataAndClose : Claims.QueueDataAndClose := by
  intro q p k s port opened free kept canonical
  refine ⟨fun v inside => ⟨_, execData_stores v port opened free kept inside, ?_, ?_, ?_, ?_⟩,
    fun unflushed => ⟨_, execClose_waits port opened free kept unflushed, ?_⟩⟩
  · rw [storeWord, queue_updQueue_same]
  · rw [rd64_congr (mem_storeWord ..), rd64_wr64 _ _ _ canonical]
    exact Nat.mod_eq_of_lt v.isLt
  · rw [mem_storeWord]
    exact fun a outside => mread_wr64 _ _ _ _ canonical outside
  · exact (updQueue_within rfl _ _ _ (wr64_within rfl s _ _ .refl)).onlyParts (back := false)
  · obtain ⟨mem, queues, parts⟩ := packetClosed_does (s := s) (q := q) k
    rw [queue_updQueue_same, queue_congr queues, rd64_congr ((updQueue_mem ..).trans mem), rd64_wr64 _ _ _ canonical, updQueue_mem, mem]
    exact ⟨rfl, rfl, rfl, fun a outside => mread_wr64 _ _ _ _ canonical outside,
      OnlyParts.trans parts (updQueue_within (M := partMask [.queues] false) rfl _ _ _ .refl).onlyParts (by decide) (by decide)⟩

end

/-- Settles O14: OPEN takes a row, is dropped and counted, or waits; the host's writes that a port does not take are recorded; DATA and CLOSE
write one word each. -/
theorem queueWrites : Obligations.QueueWrites := ⟨queueOpen, queueProtocolDropsHostWrites, queueDataAndClose⟩

end Sys2Proof.Machine
end

section
/-! PROOF. A queue is bound and unbound (11 R284), its packets and markers become readable (R288, R295), and O15. -/

namespace Sys2Proof.Machine

open Sys2Proof Sys2Proof.Safety

/-! QUEUE_ENABLE (R284). -/

/-- ENABLE is bit 0 of the word that is kept. -/
theorem bit_bits_low (v : Nat) : bit (bits v 33 0) 0 = bit v 0 := by
  rw [bits, bit, bit, Nat.testBit_mod_two_pow]
  simp

section

variable {q : HwQueue} {v : Word} {s : State}

theorem execQueueEnable_unbinds (bound : (queue s q).enabled = true) (clear : bit v.toNat 0 = false) :
    execQueueEnable q v s = .next (setReg (dropQueue s q) (queOff q 0) (bits v.toNat 33 0)) := by
  simp [execQueueEnable, bound, bit_bits_low, clear]

theorem execQueueEnable_rejects (bound : (queue s q).enabled = true) (enable : bit v.toNat 0 = true) :
    execQueueEnable q v s = .next (updCore s (queCore q) (fun x => { x with cfgReject := true })) := by
  simp [execQueueEnable, bound, bit_bits_low, enable]

theorem execQueueEnable_stores (free : (queue s q).enabled = false) (clear : bit v.toNat 0 = false) :
    execQueueEnable q v s = .next (setReg s (queOff q 0) (bits v.toNat 33 0)) := by
  simp [execQueueEnable, free, bit_bits_low, clear]

theorem execQueueEnable_refused (free : (queue s q).enabled = false) (enable : bit v.toNat 0 = true) (refused : bindResult s q (bits v.toNat 33 0) ≠ 0) :
    execQueueEnable q v s = .next (updQueue (setField (setReg s (queOff q 0) (bits v.toNat 33 0)) (queOff q 0) 0 0 0) q
      (fun x => { x with bindResult := bindResult s q (bits v.toNat 33 0) })) := by
  simp [execQueueEnable, free, bit_bits_low, enable, refused]

/-- A region's first word, read after the queue's word has been written. -/
theorem regionLen_setQueue (w c m r : Nat) : regionLen (setReg s (queOff q 0) w) c m r = regionLen s c m r := by
  rw [regionLen, reg_setReg_other s w (queOff_ne_regionOff q (by decide) c m r 0).symm]
  rfl

theorem bits_region (v : Nat) : bits (bits v 33 0) 9 4 = bits v 9 4 := by
  simp only [bits, Nat.shiftRight_eq_div_pow]
  omega

theorem execQueueEnable_binds (free : (queue s q).enabled = false) (enable : bit v.toNat 0 = true) (granted : bindResult s q (bits v.toNat 33 0) = 0) :
    ∃ t a, execQueueEnable q v s = .next t ∧
      queue t q = { enabled := true, first := a, len := regionLen s (queCore q) 1 (bits v.toNat 9 4), credits := regionLen s (queCore q) 1 (bits v.toNat 9 4),
                    seqNext := (queue s q).seqNext } ∧
      reg t (regionOff (queCore q) 1 (bits v.toNat 9 4) 1) = 0 := by
  simp only [execQueueEnable, free, bit_bits_low, enable, granted, bits_region, regionLen_setQueue, Bool.not_true, Bool.false_eq_true, if_false, ne_eq,
    not_true_eq_false]
  refine ⟨_, _, rfl, queue_updQueue_same .., ?_⟩
  rw [updQueue_reg_of, updCore_reg_of, reg_setReg_same, Nat.zero_mod]

end

theorem queueEnable : Claims.QueueEnable := by
  intro q v s
  cases bound : (queue s q).enabled <;> cases enable : bit v.toNat 0
  · exact ⟨_, execQueueEnable_stores bound enable, by simp⟩
  · by_cases refused : bindResult s q (bits v.toNat 33 0) = 0
    · obtain ⟨t, a, binds, entry, start⟩ := execQueueEnable_binds bound enable refused
      exact ⟨t, binds, by simp [refused, entry, start]⟩
    · refine ⟨_, execQueueEnable_refused bound enable refused, by simp, by simp, by simp,
        fun _ _ _ => ⟨queue_updQueue_same .., ?_, fun off other => ?_⟩, by simp [refused]⟩
      · rw [updQueue_reg_of, reg_setField, if_pos rfl]
        exact bit_putBits_b2n _ (by decide) false
      · rw [updQueue_reg_of, reg_setField, if_neg other.symm, reg_setReg_other _ _ other]
  · refine ⟨_, execQueueEnable_unbinds bound enable, by simp, by simp, fun _ _ => ?_, by simp, by simp⟩
    rw [setReg_queue_of, dropQueue, queue_updQueue_same, reg_setReg_same]
    exact ⟨rfl, rfl, rfl, rfl, rfl⟩
  · exact ⟨_, execQueueEnable_rejects bound enable, by simp⟩

/-! PACKET_READABLE (R288). -/

section

variable {q : HwQueue} {s : State}

/-- With no marker a packet that is committed becomes readable, and TAIL passes its rows. -/
theorem showPacket_first {k : QPacket} {rest : List QPacket} (waiting : (queue s q).waiting = k :: rest) (committed : k.committed = true)
    (unmarked : (queue s q).marker = none) (unfull : (queue s q).fullMarkers = []) :
    showPacket s q = bumpCore (advanceTail (updQueue s q (fun x => { x with waiting := rest, readable := x.readable + k.rows, landed := x.landed - k.rows }))
      (queCore q) 1 (queRegion s q) k.rows) (queCore q) QUE_PKT_IN_COUNT 1 := by
  have after : (queue (updQueue s q (fun x => { x with waiting := rest, readable := x.readable + k.rows, landed := x.landed - k.rows })) q).fullMarkers = [] := by
    rw [queue_updQueue_same]
    exact unfull
  unfold showPacket
  simp only [showFull_none unfull, waiting, committed, unmarked, unfull, List.any_nil, Bool.not_true, Bool.or_false, Bool.false_eq_true, if_false]
  exact showFull_none after

theorem showPacket_none (waiting : (queue s q).waiting = []) (unfull : (queue s q).fullMarkers = []) : showPacket s q = s := by
  unfold showPacket
  simp only [showFull_none unfull, waiting]

/-! MARKER_QUIET_TIMEOUT (R295). -/

theorem queue_writeMarker (pos : Nat) (m : QMarker) :
    queue (writeMarker s q pos m) q = { queue s q with readable := (queue s q).readable + 1, landed := (queue s q).landed - 1 } := by
  unfold writeMarker
  dsimp only
  rw [bumpCore_queue_of, advanceTail, setReg_queue_of, queue_updQueue_same, setTag_queue_of, wrBytes_queue_of]

theorem coreReg_writeMarker (pos : Nat) (m : QMarker) :
    coreReg (writeMarker s q pos m) (queCore q) QUE_MARK_COUNT = (coreReg s (queCore q) QUE_MARK_COUNT + 1) % 2 ^ 64 := by
  unfold writeMarker
  dsimp only
  rw [coreReg_bumpCore_same, coreReg_advanceTail _ _ _ _ _ (by decide), updQueue_coreReg_of, setTag_coreReg_of, wrBytes_coreReg_of]

theorem showMarker_row {m : QMarker} {pos : Nat} (marked : (queue s q).marker = some m) (row : m.row = some pos) (unfull : (queue s q).fullMarkers = []) :
    showMarker s q = writeMarker (updQueue s q (fun x => { x with marker := none })) q pos m := by
  simp [showMarker, marked, row, unfull]

theorem execMarkerQuietTimeout_shows {m : QMarker} (marked : (queue s q).marker = some m) (shut : (queue s q).open_ = none)
    (first : (queue s q).waiting.all (afterMarker m) = true) (quiet : m.tLast + 1000 ≤ now s) :
    execMarkerQuietTimeout q s = .next (queueWoken (queue s q).readable (showMarker s q) q) := by
  simp only [execMarkerQuietTimeout, marked, shut, first, quiet, Option.isNone_none, decide_true, Bool.and_true, if_true]

end

theorem queueReadable : Claims.QueueReadable := by
  refine ⟨fun q k rest s waiting committed unmarked unfull free => ?_, fun q s waiting unfull free => ?_,
    fun q m pos s marked row unfull shut first quiet => ?_, fun q s unmarked => ?_⟩
  · have shown := showPacket_first waiting committed unmarked unfull
    have unstalled : (core (showPacket s q) (queCore q)).stall = none := by rw [shown]; exact free
    refine ⟨showPacket s q, congrArg Host.Outcome.next (queueWoken_unstalled _ unstalled), ?_, ?_, ?_⟩
    · rw [shown, bumpCore_queue_of, advanceTail, setReg_queue_of, queue_updQueue_same]
    · rw [shown]
      exact (bumpCore_within rfl _ _ _ _ (advanceTail_within rfl _ _ _ _ _ (updQueue_within rfl s _ _ .refl))).onlyParts (back := false)
    · rw [shown]
      exact (coreReg_bumpCore_same ..).trans (by rw [coreReg_advanceTail _ _ _ _ _ (by decide)]; rfl)
  · exact congrArg Host.Outcome.next ((congrArg (queueWoken _ · q) (showPacket_none waiting unfull)).trans (queueWoken_unstalled _ free))
  · have woken := queueWoken_parts (queue s q).readable (showMarker s q) q
    refine ⟨_, execMarkerQuietTimeout_shows marked shut first quiet, ?_, ?_, ?_⟩
    · rw [queue_congr (woken .queues (by decide)), showMarker_row marked row unfull, queue_writeMarker, queue_updQueue_same]
    · exact OnlyParts.trans (showMarker_within (M := partMask [.regs, .mem, .cores, .queues] false) rfl s q .refl).onlyParts woken (by decide) (by decide)
    · rw [reg_congr (woken .regs (by decide)), showMarker_row marked row unfull]
      exact coreReg_writeMarker pos m
  · show execMarkerQuietTimeout q s = .next s
    rw [execMarkerQuietTimeout, unmarked]

/-- Settles O15: the word of a queue's entry binds it and drops its packets; packets and markers become readable in turn. -/
theorem queueBindsAndReads : Obligations.QueueBindsAndReads := ⟨queueEnable, queueReadable⟩

end Sys2Proof.Machine
end

section
/-! PROOF. Credits, releases, discards and flushes (11 R293, R296, R298, R299) of a queue at which no write waits, and O16. -/

namespace Sys2Proof.Machine

open Sys2Proof Sys2Proof.Safety

section

variable {q : HwQueue} {s : State}

/-! QUEUE_CREDIT and QUEUE_RELEASE (R293, R296). -/

theorem execQueueCredit_adds {f : Frame} {c : CoreId} (rows : BitVec 13) (new : NewMessage s (coreDie c) f) (quiet : QueueQuiet s q) :
    execQueueCredit f c q rows s = .next (updQueue (tookMessage s (coreDie c) f) q (fun x => { x with credits := x.credits + rows.toNat })) := by
  have taken : QueueQuiet (tookMessage s (coreDie c) f) q := quiet
  rw [execQueueCredit, onChain_new _ new, settle_quiet (queueQuiet_updQueue taken rfl)]

/-- Rows that software releases are readable no more, and nothing else of the queue changes but which rows it holds. -/
theorem releaseNow_does (unfull : (queue s q).fullMarkers = []) (n : Nat) :
    (queue (releaseNow s q n) q).withoutRows = { queue s q with readable := (queue s q).readable - n }.withoutRows ∧
      ∀ p, (port (releaseNow s q n) p).receiving = (port s p).receiving := by
  unfold releaseNow
  extract_lets u
  obtain ⟨rows, ports⟩ := freeRows_does (updQueue u q (fun x => { x with readable := x.readable - n })) q n
  rw [queue_updQueue_same] at rows
  rw [showFull_none ((withoutRows_markers rows).1 unfull)]
  exact ⟨rows, ports⟩

/-- After a release nothing waits to go on. -/
theorem settle_releaseNow (quiet : QueueQuiet s q) (unfull : (queue s q).fullMarkers = []) (n : Nat) :
    settle (releaseNow s q n) q = releaseNow s q n := by
  obtain ⟨rows, ports⟩ := releaseNow_does unfull n
  exact settle_quiet (queueQuiet_of_same quiet (withoutRows_port rows).2.1 ports)

theorem execQueueRelease_refused {rows : BitVec 13} (more : (queue s q).readable < rows.toNat) :
    execQueueRelease q rows s = .next (updQueue s q (fun x => { x with result := 2 })) := congrArg Host.Outcome.next (if_pos more)

theorem execQueueRelease_releases {rows : BitVec 13} (held : rows.toNat ≤ (queue s q).readable) (quiet : QueueQuiet s q)
    (unfull : (queue s q).fullMarkers = []) : ∃ t, execQueueRelease q rows s = .next t ∧
      (queue t q).result = 0 ∧ (queue t q).readable = (queue s q).readable - rows.toNat := by
  have quiet' : QueueQuiet (updQueue s q (fun x => { x with result := 0 })) q := queueQuiet_updQueue quiet rfl
  have shown : queue (updQueue s q (fun x => { x with result := 0 })) q = { queue s q with result := 0 } := queue_updQueue_same ..
  have unfull' : (queue (updQueue s q (fun x => { x with result := 0 })) q).fullMarkers = [] := by
    rw [shown]
    exact unfull
  obtain ⟨readable, -, result, -⟩ := withoutRows_reads (releaseNow_does unfull' rows.toNat).1
  rw [shown] at readable result
  refine ⟨_, congrArg Host.Outcome.next ((if_neg (by omega)).trans (settle_releaseNow quiet' unfull' _)), result, readable⟩

/-! DISCARD (R298). -/

theorem execDiscard_refused {by_ : Consumer} (empty : (queue s q).readable = 0) :
    execDiscard q by_ s = .next (updQueue s q (fun x => { x with result := 2 })) := congrArg Host.Outcome.next (if_pos empty)

/-- A discard of n rows has been counted, with RESULT 0. -/
def discardNoted (s : State) (q n : Nat) : State := updQueue (bumpCore s (queCore q) QUE_DISCARD_ROWS n) q (fun x => { x with result := 0 })

theorem queue_discardNoted (n : Nat) : queue (discardNoted s q n) q = { queue s q with result := 0 } := queue_updQueue_same ..

/-- The count lies beside the entries of the queues and of the regions. -/
theorem reg_discardNoted {n off : Nat} (beside : off ≠ coreOff (queCore q) QUE_DISCARD_ROWS) : reg (discardNoted s q n) off = reg s off := by
  rw [discardNoted, updQueue_reg_of, reg_bumpCore, if_neg beside.symm]

theorem execDiscard_software (held : (queue s q).readable ≠ 0) : execDiscard q .software s = .next (settle (releaseNow
    (discardNoted s q (rowsToLast s q (queue s q).readable (readPos s q))) q (rowsToLast s q (queue s q).readable (readPos s q))) q) :=
  congrArg Host.Outcome.next (if_neg held)

theorem execDiscard_task (held : (queue s q).readable ≠ 0) {n : Nat} (rest : rowsToLast s q (queue s q).readable (readPos s q) = n) :
    execDiscard q .task s = .next (releaseRegion (discardNoted s q n) (queCore q) 1 (queRegion (discardNoted s q n) q) n) := by
  subst rest
  exact congrArg Host.Outcome.next (if_neg held)

theorem execDiscard_software_does (held : (queue s q).readable ≠ 0) (quiet : QueueQuiet s q) (unfull : (queue s q).fullMarkers = []) :
    ∃ t, execDiscard q .software s = .next t ∧ (queue t q).result = 0 ∧
      (queue t q).readable = (queue s q).readable - rowsToLast s q (queue s q).readable (readPos s q) := by
  have same := execDiscard_software held
  generalize rowsToLast s q (queue s q).readable (readPos s q) = n at same ⊢
  have unfull' : (queue (discardNoted s q n) q).fullMarkers = [] := by
    rw [queue_discardNoted]
    exact unfull
  have quiet' : QueueQuiet (discardNoted s q n) q := queueQuiet_of_same quiet (by rw [queue_discardNoted]) fun _ => rfl
  obtain ⟨readable, -, result, -⟩ := withoutRows_reads (releaseNow_does unfull' n).1
  rw [settle_releaseNow quiet' unfull'] at same
  rw [queue_discardNoted] at readable result
  exact ⟨_, same, result, readable⟩

/-- Rows that a region holds are released to its HEAD, and no queue's RESULT changes (08 R199). -/
theorem releaseRegion_held {c m r n : Nat} (enough : n ≤ regionHeld s c m r) (j : Nat) : (queue (releaseRegion s c m r n) j).result = (queue s j).result ∧
    regionPtr (releaseRegion s c m r n) c m r = ptrWord (regionLen s c m r) (ptrHead (regionLen s c m r) (regionPtr s c m r) + n)
      (ptrTail (regionLen s c m r) (regionPtr s c m r)) % 2 ^ 64 := by
  rw [releaseRegion, if_neg (by omega)]
  dsimp only
  have moved := reg_setReg_same s (regionOff c m r 1) (ptrWord (regionLen s c m r) (ptrHead (regionLen s c m r) (regionPtr s c m r) + n)
    (ptrTail (regionLen s c m r) (regionPtr s c m r)))
  split
  · next k _ =>
    refine ⟨?_, moved⟩
    rw [queue_updQueue]
    split
    · next same => rw [same]; rfl
    · rfl
  · exact ⟨rfl, moved⟩

theorem execDiscard_task_does (held : (queue s q).readable ≠ 0) {n : Nat} (rest : rowsToLast s q (queue s q).readable (readPos s q) = n)
    (enough : n ≤ regionHeld s (queCore q) 1 (queRegion s q)) : ∃ t, execDiscard q .task s = .next t ∧ (queue t q).result = 0 ∧
      regionPtr t (queCore q) 1 (queRegion s q) = ptrWord (regionLen s (queCore q) 1 (queRegion s q))
        (ptrHead (regionLen s (queCore q) 1 (queRegion s q)) (regionPtr s (queCore q) 1 (queRegion s q)) + n)
        (ptrTail (regionLen s (queCore q) 1 (queRegion s q)) (regionPtr s (queCore q) 1 (queRegion s q))) % 2 ^ 64 := by
  have region (k : Nat) : reg (discardNoted s q n) (regionOff (queCore q) 1 (queRegion s q) k) = reg s (regionOff (queCore q) 1 (queRegion s q) k) :=
    reg_discardNoted (regionOff_ne_coreOff 1 _ k (by decide))
  have len : regionLen (discardNoted s q n) (queCore q) 1 (queRegion s q) = regionLen s (queCore q) 1 (queRegion s q) := congrArg (bits · 39 20) (region 0)
  have ptr : regionPtr (discardNoted s q n) (queCore q) 1 (queRegion s q) = regionPtr s (queCore q) 1 (queRegion s q) := region 1
  have entry : queRegion (discardNoted s q n) q = queRegion s q := by
    refine congrArg (bits · 9 4) (reg_discardNoted ?_)
    unfold queOff coreOff
    omega
  obtain ⟨result, head⟩ := releaseRegion_held (s := discardNoted s q n) (n := n) (by rwa [regionHeld, len, ptr]) q
  rw [len, ptr] at head
  rw [queue_discardNoted] at result
  exact ⟨_, (execDiscard_task held rest).trans (by rw [entry]), result, head⟩

/-! QUEUE_FLUSH (R299). -/

/-- What a flush leaves before the readable rows are released: no packet waits, no marker stands, and an open packet goes when it closes. -/
structure Withdrawn (s u : State) (q : Nat) : Prop where
  waiting : (queue u q).waiting = []
  marker : (queue u q).marker = none
  fullMarkers : (queue u q).fullMarkers = []
  result : (queue u q).result = 0
  flushPending : (queue u q).flushPending = (queue s q).open_.isSome
  held : (queue u q).held = (queue s q).held
  ports : u.ports = s.ports

theorem execQueueFlush_withdraws (unflushed : (queue s q).flushPending = false) : ∃ u gone, Withdrawn s u q ∧
    execQueueFlush q s = .next (settle (freeRows (releaseNow u q (queue u q).readable) q gone) q) := by
  rw [execQueueFlush, if_neg (by simp [unflushed])]
  extract_lets c u x v w gone y
  have shown : portSide u q = portSide s q := each_keeps (portSide · q) _ s _ fun u _ _ => portSide_showPacket u q
  have ports : u.ports = s.ports := each_keeps (·.ports) _ s _ fun u _ _ => (showPacket_within (M := 0x53) rfl u q .refl).same .ports rfl
  have opened : x.open_ = (queue s q).open_ := congrArg PortSide.open_ shown
  have held : x.held = (queue s q).held := congrArg PortSide.held shown
  have entry : queue y q =
      { x with marker := none, fullMarkers := [], waiting := [], landed := x.landed - gone, flushPending := x.open_.isSome, result := 0 } :=
    queue_updQueue_same ..
  have readable : (queue y q).readable = x.readable := by rw [entry]
  refine ⟨y, gone, ⟨?_, ?_, ?_, ?_, ?_, ?_, ports⟩, by rw [readable]⟩ <;> rw [entry]
  · rw [opened]
  · exact held

theorem execQueueFlush_does (unflushed : (queue s q).flushPending = false) (quiet : QueueQuiet s q) : ∃ t, execQueueFlush q s = .next t ∧
    (queue t q).readable = 0 ∧ (queue t q).waiting = [] ∧ (queue t q).marker = none ∧ (queue t q).fullMarkers = [] ∧ (queue t q).result = 0 ∧
      (queue t q).flushPending = (queue s q).open_.isSome := by
  obtain ⟨u, gone, withdrawn, runs⟩ := execQueueFlush_withdraws unflushed
  obtain ⟨released, receiving⟩ := releaseNow_does withdrawn.fullMarkers (queue u q).readable
  obtain ⟨freed, receiving'⟩ := freeRows_does (releaseNow u q (queue u q).readable) q gone
  have rows := freed.trans released
  obtain ⟨readable, waiting, result, flushPending⟩ := withoutRows_reads rows
  obtain ⟨full, pending⟩ := withoutRows_markers rows
  have settled : QueueQuiet (freeRows (releaseNow u q (queue u q).readable) q gone) q :=
    queueQuiet_of_same quiet ((withoutRows_port rows).2.1.trans withdrawn.held) fun p =>
      (receiving' p).trans ((receiving p).trans (congrArg Port.receiving (port_congr withdrawn.ports p)))
  rw [settle_quiet settled] at runs
  exact ⟨_, runs, readable.trans (Nat.sub_self _), waiting.trans withdrawn.waiting, pending withdrawn.marker, full withdrawn.fullMarkers,
    result.trans withdrawn.result, flushPending.trans withdrawn.flushPending⟩

end

/-- Settles O16: credits are added, rows are released or refused, a discard goes to the end of its packet, a flush empties the queue (log entry 51:
it withdraws closed packets at once). -/
theorem queueFrees : Obligations.QueueFrees :=
  ⟨fun _ _ _ rows _ new quiet => execQueueCredit_adds rows new quiet,
    fun _ _ _ => ⟨execQueueRelease_refused, execQueueRelease_releases⟩,
    fun _ _ _ empty => execDiscard_refused empty,
    fun _ _ held quiet unfull => execDiscard_software_does held quiet unfull,
    fun _ _ _ held rest enough => execDiscard_task_does held rest enough,
    fun _ _ pending => congrArg Host.Outcome.next (if_pos pending),
    fun _ _ unflushed quiet => execQueueFlush_does unflushed quiet⟩

end Sys2Proof.Machine
end

section
/-! PROOF. Translation walks (13 R338 to R340) and the retraining of channels (R331): what a walk and a retraining leave, and O29. -/

namespace Sys2Proof.Machine

open Sys2Proof Sys2Proof.Safety

/-! A walk of the tables (R338 to R340). -/

/-- An address that misses the cache has cost its core a walk. -/
def walked (s : State) (c ns : Nat) : State := bumpCore (bumpCore s c CORE_XLT_MISS_COUNT 1) c CORE_XLT_WALK_NS ns

theorem walked_within {M : Nat} {s0 : State} (hM : Sub 1 M) (s : State) (c ns : Nat) (h : Within M s0 s) : Within M s0 (walked s c ns) :=
  bumpCore_within (Sub.up hM rfl) _ _ _ _ (bumpCore_within (Sub.up hM rfl) _ _ _ _ h)

theorem coreReg_walked_miss (s : State) (c ns : Nat) :
    coreReg (walked s c ns) c CORE_XLT_MISS_COUNT = (coreReg s c CORE_XLT_MISS_COUNT + 1) % 2 ^ 64 :=
  (coreReg_bumpCore_other _ _ _ (by decide)).trans (coreReg_bumpCore_same ..)

theorem coreReg_walked_time (s : State) (c ns : Nat) :
    coreReg (walked s c ns) c CORE_XLT_WALK_NS = (coreReg s c CORE_XLT_WALK_NS + ns) % 2 ^ 64 :=
  (coreReg_bumpCore_same ..).trans (by rw [coreReg_bumpCore_other _ _ _ (by decide)])

theorem coreReg_walked_other (s : State) (c ns : Nat) {o : Nat} (miss : o ≠ CORE_XLT_MISS_COUNT) (time : o ≠ CORE_XLT_WALK_NS) :
    coreReg (walked s c ns) c o = coreReg s c o :=
  (coreReg_bumpCore_other _ _ _ time).trans (coreReg_bumpCore_other _ _ _ miss)

/-- The entry of the page that holds an address: it is the newest of the cache (R340). -/
theorem mem_xlt_xltAdd (s : State) (c n v size : Nat) : (n, v / orOne size * size, size) ∈ (core (xltAdd s c n v size) c).xlt := by
  simp [xltAdd]

theorem le_orOne (n : Nat) : n ≤ orOne n := by
  unfold orOne
  split <;> omega

/-- The base of a page lies at or below the addresses in it. -/
theorem pageBase_le (v size : Nat) : v / orOne size * size ≤ v :=
  (Nat.mul_le_mul_left _ (le_orOne size)).trans (Nat.div_mul_le_self v (orOne size))

section

variable {c : CoreId} {n : StrandId} {va : BitVec 48} {write : Bool} {s : State} (ns : Nat) (miss : xltHit s c n va.toNat = false)
include miss

theorem execTranslationWalk_finds {a : Nat} (found : translate s n va.toNat write = .ok a) :
    execTranslationWalk c n va ⟨write, ns⟩ s = .next (xltAdd (walked s c ns) c n va.toNat (pageSize s n va.toNat)) := by
  have found' : translate (walked s c ns) n va.toNat write = .ok a := found
  unfold walked at found'
  rw [execTranslationWalk, miss, if_neg Bool.false_ne_true]
  simp only [found']
  rfl

/-- A walk that finds no page is counted as a fault. -/
theorem execTranslationWalk_idle {e : Nat} (fails : translate s n va.toNat write = .err e) (idle : (core s c).task = none) :
    execTranslationWalk c n va ⟨write, ns⟩ s = .next (bumpCore (walked s c ns) c CORE_XLT_FAULT_COUNT 1) := by
  have fails' : translate (walked s c ns) n va.toNat write = .err e := fails
  have idle' : (core (bumpCore (walked s c ns) c CORE_XLT_FAULT_COUNT 1) c).task = none := idle
  unfold walked at fails' idle'
  rw [execTranslationWalk, miss, if_neg Bool.false_ne_true]
  simp only [fails', idle']
  rfl

/-- Where the running task is the walk's strand's, the core is stopped at the stream and slot of a request in that row. -/
theorem execTranslationWalk_faults {e : Nat} {w : CoreTask} (fails : translate s n va.toNat write = .err e) (task : (core s c).task = some w)
    (own : w.strand = n.val) : ∃ stream slot, execTranslationWalk c n va ⟨write, ns⟩ s =
      .next (faultCore (bumpCore (walked s c ns) c CORE_XLT_FAULT_COUNT 1) c e stream slot va.toNat) := by
  have fails' : translate (walked s c ns) n va.toNat write = .err e := fails
  have task' : (core (bumpCore (walked s c ns) c CORE_XLT_FAULT_COUNT 1) c).task = some w := task
  unfold walked at fails' task'
  rw [execTranslationWalk, miss, if_neg Bool.false_ne_true]
  simp only [fails', task', own, if_true]
  exact ⟨_, _, rfl⟩

end

theorem translationWalk : Claims.TranslationWalk := by
  intro c n va write ns s
  refine ⟨fun held => congrArg Host.Outcome.next (if_pos held), fun a miss found => ?_, fun e miss fails idle => ?_,
    fun e w miss fails task own => ?_⟩
  · refine ⟨_, execTranslationWalk_finds ns miss found,
      (xltAdd_within (M := partMask [.regs, .cores] false) rfl _ _ _ _ _ (walked_within rfl s c ns .refl)).onlyParts,
      coreReg_walked_miss s c ns, coreReg_walked_time s c ns, _, mem_xlt_xltAdd .., rfl, pageBase_le .., rfl⟩
  · refine ⟨_, execTranslationWalk_idle ns miss fails idle,
      (bumpCore_within (M := partMask [.regs] false) rfl _ _ _ _ (walked_within rfl s c ns .refl)).onlyParts,
      (coreReg_bumpCore_same ..).trans ?_⟩
    rw [coreReg_walked_other _ _ _ (by decide) (by decide)]
  · obtain ⟨stream, slot, stops⟩ := execTranslationWalk_faults ns miss fails task own
    exact ⟨_, stops, Faulted.of (u := bumpCore (walked s c ns) c CORE_XLT_FAULT_COUNT 1) rfl (faultCore_faulted _ c e stream slot _ w task)⟩

/-! A channel's retraining begins, waits, and is done (R331). -/

/-- A stack's record once the training of a channel has begun. -/
def retrainBegun (ch time : Nat) (x : Stack) : Stack :=
  { x with retraining := some ch, retrainSince := time, queued := x.queued.filter (· != ch) }
/-- A stack's record once a channel is back in service, with the time and temperature of its training. -/
def retrainEnded (ch time temp : Nat) (x : Stack) : Stack :=
  { x with retraining := none, lastTrained := tset x.lastTrained ch time, trainedTemp := tset x.trainedTemp ch temp }

theorem stack_updStack_same (s : State) (k : Nat) (f : Stack → Stack) : stack (updStack s k f) k = f (stack s k) :=
  (stack_updStack ..).trans (if_pos rfl)

theorem retrain_parts (s : State) (k ch : Nat) : OnlyParts [.regs, .mifs] s (retrain s k ch) :=
  (retrain_within (M := partMask [.regs, .mifs] false) rfl s k ch .refl).onlyParts

section

variable {s : State} {k ch : Nat}

theorem retrain_free (free : (stack s k).retraining = none) :
    retrain s k ch = bump (updStack s k (retrainBegun ch (now s))) (mifOff k MIF_RETRAIN_COUNT) 1 := by
  simp only [retrain, free, Option.isSome_none, Bool.false_eq_true, if_false]
  rfl

theorem stack_retrain_free (free : (stack s k).retraining = none) : stack (retrain s k ch) k = retrainBegun ch (now s) (stack s k) := by
  rw [retrain_free free]
  exact stack_updStack_same ..

theorem reg_retrain_free (free : (stack s k).retraining = none) :
    reg (retrain s k ch) (mifOff k MIF_RETRAIN_COUNT) = (reg s (mifOff k MIF_RETRAIN_COUNT) + 1) % 2 ^ 64 := by
  rw [retrain_free free]
  exact (reg_bump ..).trans (if_pos rfl)

/-- Behind another channel a new one waits last. -/
theorem retrain_busy {x : Nat} (busy : (stack s k).retraining = some x) (other : x ≠ ch) (new : (stack s k).queued.contains ch = false) :
    retrain s k ch = updStack s k (fun y => { y with queued := (stack s k).queued ++ [ch] }) := by
  have notTrained : (some x == some ch) = false := by simpa using other
  simp only [retrain, updStack, busy, new, notTrained, Option.isSome_some, if_true, Bool.or_false, Bool.false_eq_true, if_false]

theorem execRetrainDone_last {k : StackId} (trained : (stack s k).retraining = some ch) (alone : (stack s k).queued = []) :
    execRetrainDone k s = .next (updStack s k (retrainEnded ch (now s) (tget 0 s.power.temps (mifDie k)))) := by
  simp only [execRetrainDone, trained, stack_updStack_same, alone]
  rfl

theorem execRetrainDone_next {k : StackId} {q : Nat} {rest : List Nat} (trained : (stack s k).retraining = some ch)
    (waits : (stack s k).queued = q :: rest) :
    execRetrainDone k s = .next (retrain (updStack s k (retrainEnded ch (now s) (tget 0 s.power.temps (mifDie k)))) k q) := by
  simp only [execRetrainDone, trained, stack_updStack_same, waits]
  rfl

end

theorem tget_tset_same {α : Type} (d : α) (t : Tab α) (k : Nat) (v : α) : tget d (tset t k v) k = v := (tget_tset ..).trans (if_pos rfl)

theorem retraining : Claims.Retraining := by
  refine ⟨fun k ch s => ⟨fun early => ?_, fun on passed => ?_, fun temp moved => ?_, fun temp below above => ?_, fun recent is => ?_, fun t is => ?_⟩,
    fun k s idle => ?_, fun k ch s trained => ⟨fun alone => ?_, fun q rest waits => ?_⟩⟩
  · exact congrArg Host.Outcome.next (if_neg fun both => early.elim (fun off => off both.1) (fun early => absurd both.2 (Nat.not_le.mpr early)))
  · exact congrArg Host.Outcome.next (if_pos ⟨on, passed⟩)
  · exact congrArg Host.Outcome.next (if_pos moved)
  · exact ⟨_, congrArg Host.Outcome.next (if_neg fun moved => moved.elim (Nat.not_le.mpr below) (Nat.not_le.mpr above)),
      (Within.power (m := partMask [.power] false) .refl rfl).onlyParts, tget_tset_same ..⟩
  · subst is
    exact ⟨fun few => congrArg Host.Outcome.next (if_neg (Nat.not_le.mpr few)), fun many => congrArg Host.Outcome.next (if_pos many)⟩
  · subst is
    refine ⟨fun free => ⟨retrain_parts s k ch, ?_, ?_, reg_retrain_free free⟩, fun x busy other new => ?_⟩
    · rw [stack_retrain_free free, retrainBegun]
    · rw [stack_retrain_free free, retrainBegun]
    · rw [retrain_busy busy other new]
      exact ⟨(updStack_within (M := partMask [.mifs] false) rfl s k _ .refl).onlyParts, stack_updStack_same ..⟩
  · exact congrArg Host.Outcome.next (by rw [idle])
  · refine ⟨_, execRetrainDone_last trained alone, (updStack_within (M := partMask [.mifs] false) rfl s k _ .refl).onlyParts, ?_, ?_, ?_⟩ <;>
      rw [stack_updStack_same, retrainEnded]
    · exact tget_tset_same ..
    · exact tget_tset_same ..
  · have next := execRetrainDone_next trained waits
    have free : (stack (updStack s k (retrainEnded ch (now s) (tget 0 s.power.temps (mifDie k)))) k).retraining = none := by
      rw [stack_updStack_same, retrainEnded]
    refine ⟨_, next, (within_of_exec (c := .retrainDone k) next).onlyParts, ?_, ?_⟩ <;> rw [stack_retrain_free free, retrainBegun]
    rw [stack_updStack_same]
    exact tget_tset_same ..

/-- Settles O29: a walk is counted, and its page enters the cache or its failure stops the core (R338 to R340); one channel of a stack is trained
at a time (R331). -/
theorem walksAndRetraining : Obligations.WalksAndRetraining := ⟨translationWalk, retraining⟩

end Sys2Proof.Machine
end

section
/-! PROOF. The near-tier scrub (13 R332), the far tier's ports (R334, R336), bias (R344, R345) and the host's accesses (R344; 16 R395): what
each leaves where the rule acts and where it does not, and O30. -/

namespace Sys2Proof.Machine

open Sys2Proof Sys2Proof.Safety

/-! The scrub (13 R332; 19 R485). -/

/-- A line lies in the stack of its addresses (R326). -/
theorem stackOf_lineOf (a : Nat) : stackOf (lineOf a) = stackOf a := by
  have above : ∀ n, 9 ≤ n → (a / 512 * 512) >>> n = a >>> n := by
    intro n h
    obtain ⟨m, rfl⟩ := Nat.exists_eq_add_of_le h
    rw [Nat.shiftRight_add, Nat.shiftRight_add, Nat.shiftRight_eq_div_pow _ 9, Nat.shiftRight_eq_div_pow _ 9, Nat.mul_div_cancel _ (by decide)]
  simp only [stackOf, lineOf, bits, above _ (show 9 ≤ 12 by decide), above _ (show 9 ≤ 15 by decide), above _ (show 9 ≤ 18 by decide)]

theorem listPoison_new {s : State} {l : Nat} (new : (stack s (stackOf l)).poison.contains l = false) (room : (stack s (stackOf l)).poison.length < 65536) :
    listPoison s l = updStack s (stackOf l) (fun x => { x with poison := l :: x.poison }) := by
  rw [listPoison, if_neg (by simpa using new), if_neg (by omega)]

section

variable {s : State} {a : Nat} (sound : stackFailed s (stackOf a) = false) (clean : (stack s (stackOf a)).poison.contains (lineOf a) = false)
include sound clean

theorem readMif_corrected : readMif s a .odeccCorrected = (bumpMif (bumpMif s a MIF_ODECC_CORR_COUNT 1) a MIF_BYTES_READ 512, stSuccess) := by
  simp only [readMif, sound, clean, Bool.or_self, Bool.false_eq_true, if_false]

theorem readMif_uncorrectable : readMif s a .odeccUncorrectable = (uncorrectable s a 2, stTierUncorrectable) := by
  simp only [readMif, sound, clean, Bool.or_self, Bool.false_eq_true, if_false]

end

section

variable {dpa : BitVec 52} {s : State} (on : objNat s 0x600108 = 1) (near : isNear dpa.toNat = true)
  (clean : (stack s (stackOf dpa.toNat)).poison.contains (lineOf dpa.toNat) = false) (sound : stackFailed s (stackOf dpa.toNat) = false)
include on near clean sound

theorem execNearTierScrub_corrects : execNearTierScrub dpa .odeccCorrected s =
    .next (bumpMif (bumpMif s dpa.toNat MIF_ODECC_CORR_COUNT 1) dpa.toNat MIF_BYTES_READ 512) := by
  simp only [execNearTierScrub, on, near, clean, readMif_corrected sound clean, ne_eq, not_true_eq_false, Bool.false_eq_true, or_self, true_or,
    if_false, if_true]

theorem execNearTierScrub_poisons : execNearTierScrub dpa .odeccUncorrectable s =
    .next (listPoison (uncorrectable s dpa.toNat 2) (lineOf dpa.toNat)) := by
  have bad : stTierUncorrectable ≠ stSuccess := by decide
  simp only [execNearTierScrub, on, near, clean, readMif_uncorrectable sound clean, sound, bad, ne_eq, not_true_eq_false, Bool.false_eq_true,
    or_self, if_false]

theorem nearTierScrub_corrects : ∃ t, execNearTierScrub dpa .odeccCorrected s = .next t ∧ OnlyParts [.regs] s t ∧
    reg t (mifOff (stackOf dpa.toNat) MIF_ODECC_CORR_COUNT) = (reg s (mifOff (stackOf dpa.toNat) MIF_ODECC_CORR_COUNT) + 1) % 2 ^ 64 := by
  refine ⟨_, execNearTierScrub_corrects on near clean sound,
    (bumpMif_within (M := partMask [.regs] false) rfl _ _ _ _ (bumpMif_within rfl s _ _ _ .refl)).onlyParts, ?_⟩
  have apart (k : Nat) : mifOff k MIF_BYTES_READ ≠ mifOff k MIF_ODECC_CORR_COUNT := by simp [mifOff]
  rw [bumpMif, reg_bump, if_neg (apart _), bumpMif, reg_bump, if_pos rfl]

/-- The read of a bad line counts in registers alone, and the line joins its stack's list. -/
theorem nearTierScrub_poisons (room : (stack s (stackOf dpa.toNat)).poison.length < 65536) : ∃ t, execNearTierScrub dpa .odeccUncorrectable s = .next t ∧
    OnlyParts [.regs, .mifs] s t ∧ (stack t (stackOf dpa.toNat)).poison = lineOf dpa.toNat :: (stack s (stackOf dpa.toNat)).poison := by
  have counted : Within (partMask [.regs] false) s (uncorrectable s dpa.toNat 2) := uncorrectable_within rfl s _ _ .refl
  have same : stack (uncorrectable s dpa.toNat 2) (stackOf dpa.toNat) = stack s (stackOf dpa.toNat) := by
    unfold stack
    rw [show _ = s.mifs from counted.same .mifs rfl]
  have listed := listPoison_new (s := uncorrectable s dpa.toNat 2) (l := lineOf dpa.toNat) (by rw [stackOf_lineOf, same]; exact clean)
    (by rw [stackOf_lineOf, same]; exact room)
  refine ⟨_, (execNearTierScrub_poisons on near clean sound).trans (congrArg Host.Outcome.next listed),
    (updStack_within (M := partMask [.regs, .mifs] false) rfl _ _ _ (counted.up rfl)).onlyParts, ?_⟩
  rw [stackOf_lineOf, stack_updStack_same, same]

end

theorem execNearTierScrub_rests {dpa : BitVec 52} {s : State} (rests : objNat s 0x600108 ≠ 1 ∨ isNear dpa.toNat = false ∨
    (stack s (stackOf dpa.toNat)).poison.contains (lineOf dpa.toNat) = true) (o : ReadOutcome) : execNearTierScrub dpa o s = .next s := by
  refine congrArg Host.Outcome.next (if_pos ?_)
  rcases rests with off | beyond | listed
  · exact .inl off
  · exact .inr (.inl (by simp [beyond]))
  · exact .inr (.inr listed)

/-! Requests behind a far port (13 R334, R336). -/

theorem coreReg_corrected (s : State) (c i : Nat) {n : Nat} (counted : n ≠ 0) :
    coreReg (corrected s c i n) c FET_CORR_EVENT_COUNT = (coreReg s c FET_CORR_EVENT_COUNT + n) % 2 ^ 64 := by
  rw [corrected, if_neg counted]
  split
  · exact coreReg_bumpCore_same ..
  · have apart : coreOff c (0x680 + 8 * i) ≠ coreOff c FET_CORR_EVENT_COUNT := by
      rw [ne_eq, coreOff_inj]
      show ¬ 0x680 + 8 * i = 0x628
      omega
    rw [coreReg, reg_setField, if_neg apart]
    exact (coreReg_bumpCore_other _ _ _ (by decide)).trans (coreReg_bumpCore_same ..)

theorem farOff_ne_coreOff (p : Nat) {c : Nat} (k : Nat) {o : Nat} (inRange : c < 64) (block : o < 0x10000) : farOff p k ≠ coreOff c o :=
  fun same => not_coreBlock_farOff p k (same ▸ coreBlock_coreOff inRange block)

section

variable {p : FarPort} {c : CoreId} {tag : TagId} {s : State} {g : Tag} (held : tfind (core s c).tags tag.val = some g) (beyond : behind p g = true)
include held beyond

theorem execFarCompletionTimeout_early (early : now s < g.since + objNat s 0x302001 * 1000) : execFarCompletionTimeout p c tag s = .next s := by
  simp only [execFarCompletionTimeout, held, beyond, decide_eq_false (Nat.not_le.mpr early), Bool.and_false, Bool.false_eq_true, if_false]

theorem execFarCompletionTimeout_late (late : g.since + objNat s 0x302001 * 1000 ≤ now s) :
    execFarCompletionTimeout p c tag s = .next (farError (bump s (farOff p FAR_TIMEOUT_COUNT) 1) p c tag) := by
  simp only [execFarCompletionTimeout, held, beyond, decide_eq_true late, Bool.and_self, if_true]

theorem execFarLinkRetry_tagged : execFarLinkRetry p c tag s =
    .next (noteCause (corrected (bump s (farOff p FAR_LINK_RETRY_COUNT) 1) c g.stream 1) c tag 2) := by
  have held' : tfind (core (bump s (farOff p FAR_LINK_RETRY_COUNT) 1) c).tags tag.val = some g := held
  simp only [execFarLinkRetry, held', beyond, if_true]

theorem farCompletionTimeout_answers (late : g.since + objNat s 0x302001 * 1000 ≤ now s) : ∃ t, exec (.farCompletionTimeout p c tag) s = .next t ∧
    OnlyParts [.regs, .net] s t ∧ reg t (farOff p FAR_TIMEOUT_COUNT) = (reg s (farOff p FAR_TIMEOUT_COUNT) + 1) % 2 ^ 64 ∧
    SentPacket s t (farDie p) (coreDie c) .readData tag stTierUncorrectable [] := by
  have answered := execFarCompletionTimeout_late held beyond late
  exact ⟨_, answered, (within_of_exec (c := .farCompletionTimeout p c tag) answered).onlyParts, (reg_bump ..).trans (if_pos rfl),
    sentPacket_of rfl rfl ..⟩

theorem farLinkRetry_counts : ∃ t, exec (.farLinkRetry p c tag) s = .next t ∧ OnlyParts [.regs, .cores] s t ∧
    reg t (farOff p FAR_LINK_RETRY_COUNT) = (reg s (farOff p FAR_LINK_RETRY_COUNT) + 1) % 2 ^ 64 ∧
    coreReg t c FET_CORR_EVENT_COUNT = (coreReg s c FET_CORR_EVENT_COUNT + 1) % 2 ^ 64 := by
  have noted := execFarLinkRetry_tagged held beyond
  have apart {o : Nat} (block : o < 0x10000) : farOff p FAR_LINK_RETRY_COUNT ≠ coreOff c o := farOff_ne_coreOff _ _ c.isLt block
  refine ⟨_, noted, (within_of_exec (c := .farLinkRetry p c tag) noted).onlyParts, ?_, ?_⟩
  · refine (reg_corrected _ _ _ _ _ (apart (by decide)) (apart (by decide)) fun j few => apart (by omega)).trans ?_
    exact (reg_bump ..).trans (if_pos rfl)
  · refine (coreReg_corrected _ _ _ (by decide)).trans ?_
    rw [coreReg, reg_bump, if_neg (apart (by decide))]
    rfl

end

theorem execFarLinkRetry_untagged {p : FarPort} {c : CoreId} {tag : TagId} {s : State} (untagged : tfind (core s c).tags tag.val = none) :
    execFarLinkRetry p c tag s = .next (bump s (farOff p FAR_LINK_RETRY_COUNT) 1) := by
  have untagged' : tfind (core (bump s (farOff p FAR_LINK_RETRY_COUNT) 1) c).tags tag.val = none := untagged
  simp only [execFarLinkRetry, untagged']

/-! A port goes down (R336). -/

/-- What every step of a fold keeps holds after it. -/
theorem each_stays {α : Type} {P : State → Prop} {f : State → α → State} (stays : ∀ s y, P s → P (f s y)) (l : List α) {s : State} (h : P s) :
    P (each l s f) := by
  induction l generalizing s with
  | nil => exact h
  | cons y l ih => exact ih (stays s y h)

/-- What one step of a fold establishes, and every step keeps, holds after the fold. -/
theorem each_establishes {α : Type} {I P : State → Prop} {f : State → α → State} {l : List α} {x : α} (listed : x ∈ l)
    (kept : ∀ s y, I s → I (f s y)) (does : ∀ s, I s → P (f s x)) (stays : ∀ s y, P s → P (f s y)) {s : State} (h : I s) : P (each l s f) := by
  induction l generalizing s with
  | nil => cases listed
  | cons y l ih =>
    rcases List.mem_cons.mp listed with rfl | later
    · exact each_stays stays l (does s h)
    · exact ih later (kept s y h)

/-- The FAR die has answered a tag of a core with an error. -/
def FarAnswered (p c tag : Nat) (s : State) : Prop :=
  ∃ b ∈ s.net.bulk, b.src = farDie p ∧ b.dst = coreDie c ∧ b.type = .readData ∧ b.tag = tag ∧ b.addr = stTierUncorrectable

theorem farError_answers (s : State) (p c tag : Nat) : FarAnswered p c tag (farError s p c tag) :=
  ⟨_, List.mem_append_right _ (List.mem_singleton_self _), rfl, rfl, rfl, rfl, rfl⟩

theorem FarAnswered.farError {p c tag : Nat} {s : State} (h : FarAnswered p c tag s) (q d k : Nat) : FarAnswered p c tag (farError s q d k) := by
  obtain ⟨b, sent, fields⟩ := h
  exact ⟨b, List.mem_append_left _ sent, fields⟩

/-- The requests of a core behind a port are answered with errors. -/
def farErrors (p : Nat) (s : State) (c : Nat) : State :=
  each ((core s c).tags.filter (fun g => behind p g.2)) s (fun s g => farError s p c g.1)

theorem farErrors_cores (p : Nat) (s : State) (c : Nat) : (farErrors p s c).cores = s.cores := each_keeps (·.cores) _ s _ fun _ _ _ => rfl
theorem farErrors_fars (p : Nat) (s : State) (c : Nat) : (farErrors p s c).fars = s.fars := each_keeps (·.fars) _ s _ fun _ _ _ => rfl

theorem farErrors_answers {p c tag : Nat} {g : Tag} {s : State} (held : (tag, g) ∈ (core s c).tags) (beyond : behind p g = true) :
    FarAnswered p c tag (farErrors p s c) :=
  each_establishes (I := fun _ => True) (x := (tag, g)) (List.mem_filter.mpr ⟨held, beyond⟩) (fun _ _ _ => trivial)
    (fun s _ => farError_answers s p c tag) (fun _ _ h => h.farError ..) trivial

theorem FarAnswered.farErrors {p c tag : Nat} {s : State} (h : FarAnswered p c tag s) (q d : Nat) : FarAnswered p c tag (farErrors q s d) :=
  each_stays (fun _ _ h => h.farError ..) _ h

/-- A port that is down. -/
def downed (p : Nat) (s : State) : State := updFar s p (fun x => { x with link := 0, memActive := false })

theorem execFarLinkDown_eq (p : FarPort) (s : State) : execFarLinkDown p s = .next (each (List.range 64) (downed p s) (farErrors p)) := rfl

theorem farLinkDown (p : FarPort) (s : State) : ∃ t, exec (.farLinkDown p) s = .next t ∧ OnlyParts [.fars, .net] s t ∧ (far t p).link = 0 ∧
    (far t p).memActive = false ∧ ∀ c tag g, c < 64 → (tag, g) ∈ (core s c).tags → behind p g = true → FarAnswered p c tag t := by
  have fars : (each (List.range 64) (downed p s) (farErrors p)).fars = (downed p s).fars := each_keeps (·.fars) _ _ _ fun u c _ => farErrors_fars p u c
  have port : far (each (List.range 64) (downed p s) (farErrors p)) p = { far s p with link := 0, memActive := false } := by
    rw [far, fars]
    exact (far_updFar ..).trans (if_pos rfl)
  refine ⟨_, execFarLinkDown_eq p s, (within_of_exec (c := .farLinkDown p) (execFarLinkDown_eq p s)).onlyParts, by rw [port], by rw [port],
    fun c tag g below held beyond => ?_⟩
  refine each_establishes (I := fun u => u.cores = s.cores) (List.mem_range.mpr below) (fun u d same => (farErrors_cores p u d).trans same)
    (fun u same => farErrors_answers ?_ beyond) (fun _ _ h => h.farErrors ..) rfl
  rwa [core_congr same]

/-! An expander's event record (R334). -/

theorem farDie_ne_mgtDie (p : FarPort) : farDie p ≠ mgtDie := by
  have := p.isLt
  unfold farDie mgtDie
  omega

/-- The port's register counts the record, and the FAR die tells the management die. -/
theorem expanderEventRecord (p : FarPort) (record : Word) (s : State) : ∃ t, exec (.expanderEventRecord p record) s = .next t ∧
    reg t (farOff p FAR_EVENT_COUNT) = (reg s (farOff p FAR_EVENT_COUNT) + 1) % 2 ^ 64 ∧ SentEvent s t (farDie p) 0x502 1 [p.val, record.toNat] := by
  refine ⟨_, rfl, ?_, raise_sentEvent s _ _ _ _ _ _ _ (farDie_ne_mgtDie p) rfl rfl⟩
  rw [raise_sends _ _ _ _ _ _ _ (farDie_ne_mgtDie p)]
  exact (reg_bump ..).trans (if_pos rfl)

/-! Bias (R344, R345). -/

/-- The pages in host bias once a range of pages has taken a bias. -/
def biasedPages (first pages : Nat) (host : Bool) (l : List Nat) : List Nat :=
  l.filter (fun p => !decide (first ≤ p ∧ p < first + pages)) ++
    if host then (List.range (min (first + pages) 294912 - first)).map (first + ·) else []

theorem execBiasChange_eq (first pages : Nat) (host : Bool) (s : State) : execBiasChange first pages host s =
    .next { s with cache := { s.cache with hostBias := biasedPages first pages host s.cache.hostBias } } := rfl

/-- Of the near tier's pages, those of the range take the bias, and the others keep theirs. -/
theorem mem_biasedPages {first pages p : Nat} (host : Bool) (l : List Nat) (near : p < 294912) :
    p ∈ biasedPages first pages host l ↔ if first ≤ p ∧ p < first + pages then host = true else p ∈ l := by
  have new : p ∈ (List.range (min (first + pages) 294912 - first)).map (first + ·) ↔ first ≤ p ∧ p < first + pages := by
    simp only [List.mem_map, List.mem_range]
    exact ⟨fun ⟨i, named, is⟩ => by omega, fun _ => ⟨p - first, by omega, by omega⟩⟩
  rw [biasedPages, List.mem_append, List.mem_filter]
  by_cases inside : first ≤ p ∧ p < first + pages
  · have gone : ¬ (p ∈ l ∧ (!decide (first ≤ p ∧ p < first + pages)) = true) := by simp [inside]
    rw [if_pos inside, or_iff_right gone]
    cases host
    · simp
    · exact (new.trans (iff_true_intro inside)).trans (iff_true_intro rfl).symm
  · have unnamed : ¬ p ∈ if host = true then (List.range (min (first + pages) 294912 - first)).map (first + ·) else [] := by
      split
      · exact fun named => inside (new.mp named)
      · exact List.not_mem_nil
    rw [if_neg inside, or_iff_left unnamed, decide_eq_false inside]
    exact and_iff_left rfl

theorem biasChange (first pages : Nat) (host : Bool) (s : State) : ∃ t, exec (.biasChange first pages host) s = .next t ∧ OnlyParts [.cache] s t ∧
    ∀ a, isNear a = true → hostBias t a = if first ≤ a / 2 ^ 21 ∧ a / 2 ^ 21 < first + pages then host else hostBias s a := by
  refine ⟨_, execBiasChange_eq first pages host s, (within_of_exec (c := .biasChange first pages host) rfl).onlyParts, fun a near => ?_⟩
  have page : a / 2 ^ 21 < 294912 := Nat.div_lt_of_lt_mul (of_decide_eq_true near)
  rw [Bool.eq_iff_iff, hostBias, near, Bool.true_and, List.contains_iff_mem, mem_biasedPages host _ page]
  split
  · rfl
  · rw [hostBias, near, Bool.true_and, List.contains_iff_mem]

/-! The host's accesses (R342, R344). -/

/-- Counting a host's access changes the HST die alone. -/
theorem countHost_hst (s : State) (a : Nat) : ∃ h, countHost s a = { s with hst := h } := by
  unfold countHost
  split
  · exact ⟨s.hst, rfl⟩
  · exact ⟨_, rfl⟩

/-- A clean resident line of a sound stack is read in its slice. -/
theorem readLine_held {s : State} {a : Nat} (sound : stackFailed s (stackOf a) = false) (held : s.cache.resident.contains (lineOf a) = true)
    (clean : s.cache.poisoned.contains (lineOf a) = false) : readLine s a (.ok 0) = (s, stSuccess) := by
  simp only [readLine, sound, held, clean, Bool.and_false, Bool.not_true, Bool.false_eq_true, if_false]

section

variable {dpa : BitVec 52} {s : State} (active : s.hst.memActive = true) (near : isNear dpa.toNat = true)
  (sound : stackFailed s (stackOf dpa.toNat) = false) (held : s.cache.resident.contains (lineOf dpa.toNat) = true)
include active near sound held

theorem execCxlMemRequest_reads (clean : s.cache.poisoned.contains (lineOf dpa.toNat) = false) : ∃ h, execCxlMemRequest dpa none (.ok 0) s =
    .next (emit { s with hst := h } (.cxlMem stSuccess (mreadN s.mem (dpa.toNat / 64 * 64) 64))) := by
  obtain ⟨h, counted⟩ := countHost_hst s dpa.toNat
  refine ⟨h, ?_⟩
  have line : readLine { s with hst := h } dpa.toNat (.ok 0) = ({ s with hst := h }, stSuccess) := readLine_held sound held clean
  simp only [execCxlMemRequest, active, near, counted, line, Bool.not_true, Bool.or_self, Bool.false_eq_true, if_false]
  rfl

/-- The bytes of a write that stays in its line go to memory through the resident line. -/
theorem execCxlMemRequest_writes {d : List Byte} (inLine : d.length ≤ 512 - dpa.toNat % 512) (o : ReadOutcome) : ∃ t,
    execCxlMemRequest dpa (some d) o s = .next t ∧ t.mem = mwriteN s.mem dpa.toNat d := by
  obtain ⟨h, counted⟩ := countHost_hst s dpa.toNat
  obtain ⟨-, mem, -⟩ := writeLine_near { s with hst := h } dpa.toNat d near sound held
  refine ⟨emit (writeLine { s with hst := h } dpa.toNat d (.ok 0)).1 (.cxlMem (writeLine { s with hst := h } dpa.toNat d (.ok 0)).2 []), ?_, mem⟩
  simp only [execCxlMemRequest, active, near, counted, held, List.take_of_length_le inLine, Bool.not_true, Bool.or_self, Bool.or_true,
    Bool.false_eq_true, if_false, if_true, ne_eq, not_true_eq_false]

theorem cxlMemRequest_reads (clean : s.cache.poisoned.contains (lineOf dpa.toNat) = false) : ∃ t, execCxlMemRequest dpa none (.ok 0) s = .next t ∧
    OnlyParts [.hst, .out] s t ∧ t.out = .cxlMem stSuccess (mreadN s.mem (dpa.toNat / 64 * 64) 64) :: s.out := by
  obtain ⟨h, answers⟩ := execCxlMemRequest_reads active near sound held clean
  exact ⟨_, answers, (emit_within (M := partMask [.hst, .out] false) rfl _ _ (.hst .refl rfl)).onlyParts, rfl⟩

theorem cxlMemRequest_writes {d : List Byte} (inLine : d.length ≤ 512 - dpa.toNat % 512) (canonical : MemoryCanonical s) (o : ReadOutcome) : ∃ t,
    execCxlMemRequest dpa (some d) o s = .next t ∧ mreadN t.mem dpa.toNat d.length = d ∧
      ∀ b, b < dpa.toNat ∨ dpa.toNat + d.length ≤ b → mread t.mem b = mread s.mem b := by
  obtain ⟨t, writes, mem⟩ := execCxlMemRequest_writes active near sound held inLine o
  refine ⟨t, writes, ?_, fun b outside => ?_⟩ <;> rw [mem]
  · exact mreadN_mwriteN d s.mem _ canonical
  · exact mread_mwriteN d s.mem _ b canonical outside

end

theorem execCxlMemRequest_refused {dpa : BitVec 52} {s : State} (refused : s.hst.memActive = false ∨ isNear dpa.toNat = false)
    (data : Option (List Byte)) (o : ReadOutcome) : execCxlMemRequest dpa data o s = .next s := by
  refine congrArg Host.Outcome.next (if_pos ?_)
  rcases refused with inactive | beyond
  · simp [inactive]
  · simp [beyond]

/-- Settles O30: the scrub writes back or poisons (R332), a silent or lost port is answered for with errors (R334, R336), pages change their bias
(R344, R345), and the host's accesses go through the home slice (R344; 16 R395). -/
theorem tierEvents : Obligations.TierEvents := by
  refine ⟨fun dpa o s => ⟨fun rests => execNearTierScrub_rests rests o, fun on near clean sound => ⟨?_, ?_⟩⟩,
    fun p c tag s => ⟨fun g held beyond => ⟨execFarCompletionTimeout_early held beyond, farCompletionTimeout_answers held beyond,
      farLinkRetry_counts held beyond⟩, fun untagged => ⟨congrArg Host.Outcome.next (by rw [untagged]), execFarLinkRetry_untagged untagged⟩⟩,
    farLinkDown, expanderEventRecord, biasChange,
    fun dpa data o s => ⟨fun refused => execCxlMemRequest_refused refused data o, fun active near held clean => ⟨?_, ?_⟩⟩, fun _ _ => rfl⟩
  · rintro rfl
    exact nearTierScrub_corrects on near clean sound
  · rintro rfl room
    exact nearTierScrub_poisons on near clean sound room
  · rintro rfl rfl sound
    exact cxlMemRequest_reads active near sound held clean
  · rintro d rfl inLine canonical sound
    exact cxlMemRequest_writes active near sound held inLine canonical o

end Sys2Proof.Machine
end

section
/-! PROOF. Scope (00_scope.md): every command completes, changes only the parts of its list, and leaves the queue of commands behind it alone.
All of it is read off `exec_within`. -/

namespace Sys2Proof.Machine

open Sys2Proof Sys2Proof.Safety

/-- Settles O1: `step` matches on the queue, and its second case is the statement. -/
theorem stepRunsFrontCommand : Obligations.StepRunsFrontCommand := by
  intro c rest s hp
  unfold step
  rw [hp]

/-- Settles O5: what `exec_within` allows a command lies in the parts that `touches` lists. -/
theorem commandsTouchOnlyTheirParts : Obligations.CommandsTouchOnlyTheirParts := fun _ _ _ h => (within_of_exec h).onlyParts

/-- Settles O8: an empty queue idles, and the front command has an answer by `exec_within`. -/
theorem everyStepGoesOn : Obligations.EveryStepGoesOn := by
  intro s
  unfold GoesOn
  cases hp : s.pending with
  | nil => exact ⟨s, by unfold step; rw [hp]⟩
  | cons c rest =>
    obtain ⟨t, ht, -⟩ := exec_within c { s with pending := rest }
    exact ⟨t, by rw [stepRunsFrontCommand c rest s hp, ht]⟩

/-- No change that a command can make is one of the queue of commands. -/
theorem Within.queueOfCommands {m : Nat} {s t : State} (h : Within m s t) : t.pending = s.pending := by
  induction h with
  | refl => rfl
  | _ => assumption

/-- Settles O6: the empty queue is the first case of `step`; in the second the command runs on the rest of the queue and leaves it. -/
theorem waitingCommands : Obligations.WaitingCommands := by
  constructor
  · intro s hp
    unfold step
    rw [hp]
  · intro c rest s t hp h
    rw [stepRunsFrontCommand c rest s hp] at h
    exact (within_of_exec h).queueOfCommands

end Sys2Proof.Machine
end

section
/-! PROOF. The registers that clear counters and flags (the register tables of 02 to 20): what a cleared range reads as. -/

namespace Sys2Proof.Machine

open Sys2Proof Sys2Proof.Safety

theorem clearBy_parts (s : State) (v : Word) (lo hi : Nat) : OnlyParts [.regs] s (clearBy s v lo hi) :=
  Within.onlyParts (back := false) (.ite (clearRegs_within rfl s lo hi .refl) .refl)

theorem reg_clearBy (s : State) (v : Word) (lo hi off : Nat) :
    reg (clearBy s v lo hi) off = if bit v.toNat 0 = true ∧ lo ≤ off ∧ off ≤ hi then regReset off else reg s off := by
  unfold clearBy
  cases bit v.toNat 0
  · simp
  · simp [reg_clearRegs]

/-- A CLEAR register that covers one range of registers. -/
theorem clears_range {c : Instr} {v : Word} {lo hi : Nat} (h : ∀ s, exec c s = .next (clearBy s v lo hi)) (s : State) : ∃ t, exec c s = .next t ∧
    OnlyParts [.regs] s t ∧ (∀ off, bit v.toNat 0 = true → lo ≤ off ∧ off ≤ hi → reg t off = regReset off) ∧
      (∀ off, bit v.toNat 0 = false ∨ ¬ (lo ≤ off ∧ off ≤ hi) → reg t off = reg s off) := by
  refine ⟨_, h s, clearBy_parts s v lo hi, fun off hb hr => ?_, fun off ho => ?_⟩
  · rw [reg_clearBy, if_pos ⟨hb, hr⟩]
  · rw [reg_clearBy, if_neg (by rintro ⟨hb, hr⟩; rcases ho with ho | ho <;> simp_all)]

/-- MIF_CLEAR covers two ranges, since MIF_POISON_COUNT stays (13). -/
theorem mifClear_ranges (k : StackId) (v : Word) (s : State) : ∃ t, exec (.mifClear k v) s = .next t ∧ OnlyParts [.regs] s t ∧
    (∀ off, bit v.toNat 0 = true → (mifOff k MIF_CRC_RETRY_COUNT ≤ off ∧ off ≤ mifOff k MIF_RETRAIN_NS) ∨
      (mifOff k MIF_BYTES_READ ≤ off ∧ off ≤ mifOff k MIF_LAST_ERROR) → reg t off = regReset off) ∧
    (∀ off, bit v.toNat 0 = false ∨ ¬ ((mifOff k MIF_CRC_RETRY_COUNT ≤ off ∧ off ≤ mifOff k MIF_RETRAIN_NS) ∨
      (mifOff k MIF_BYTES_READ ≤ off ∧ off ≤ mifOff k MIF_LAST_ERROR)) → reg t off = reg s off) := by
  refine ⟨_, rfl, OnlyParts.trans (clearBy_parts s v _ _) (clearBy_parts _ v _ _) (fun _ h => h) (fun _ h => h), fun off hb hr => ?_, fun off ho => ?_⟩
  · rw [reg_clearBy, reg_clearBy]
    rcases hr with hr | hr
    · simp [hb, hr]
    · simp [hb, hr]
  · rw [reg_clearBy, reg_clearBy, if_neg (by rintro ⟨hb, hr⟩; rcases ho with ho | ho <;> simp_all),
      if_neg (by rintro ⟨hb, hr⟩; rcases ho with ho | ho <;> simp_all)]

theorem clearRegisters : Claims.ClearRegisters :=
  ⟨fun _ _ => clears_range (fun _ => rfl), fun _ _ => clears_range (fun _ => rfl), fun _ _ => clears_range (fun _ => rfl),
    fun _ _ => clears_range (fun _ => rfl), fun _ _ => clears_range (fun _ => rfl), fun _ _ => clears_range (fun _ => rfl),
    fun _ _ => clears_range (fun _ => rfl), fun _ _ => clears_range (fun _ => rfl), fun _ _ => clears_range (fun _ => rfl),
    fun _ _ => clears_range (fun _ => rfl), fun _ _ => clears_range (fun _ => rfl), mifClear_ranges,
    fun _ _ => clears_range (fun _ => rfl), fun _ _ => clears_range (fun _ => rfl), fun _ _ => clears_range (fun _ => rfl),
    fun _ _ => clears_range (fun _ => rfl), fun _ => clears_range (fun _ => rfl), fun _ => clears_range (fun _ => rfl),
    fun _ => clears_range (fun _ => rfl)⟩

/-- SPM_CLEAR (08): bit 0 clears the counters, bit 1 the flag of the core alone. -/
theorem spmClear_does (c : CoreId) (v : Word) (s : State) : ∃ t, exec (.spmClear c v) s = .next t ∧ OnlyParts [.regs, .cores] s t ∧
    (∀ off, bit v.toNat 0 = true → coreOff c SPM_DET_WMEM_COUNT ≤ off → off ≤ coreOff c SPM_PWR_ABANDON_COUNT → reg t off = regReset off) ∧
    (bit v.toNat 0 = false → t.regs = s.regs) ∧ (∀ d, d ≠ c.val → core t d = core s d) ∧
    core t c = (if bit v.toNat 1 then { core s c with cfgReject := false } else core s c) := by
  obtain ⟨t, ht⟩ : ∃ t, exec (.spmClear c v) s = .next t := ⟨_, rfl⟩
  have parts : OnlyParts [.regs, .cores] s t := (within_of_exec ht).onlyParts
  obtain rfl : _ = t := Host.Outcome.next.inj ht
  have cores : (clearBy s v (coreOff c SPM_DET_WMEM_COUNT) (coreOff c SPM_PWR_ABANDON_COUNT)).cores = s.cores := clearBy_parts s v _ _ .cores (by decide)
  refine ⟨_, rfl, parts, fun off hb h1 h2 => ?_, fun hb => ?_, fun d hd => ?_, ?_⟩
  · split
    · rw [updCore_reg_of, reg_clearBy, if_pos ⟨hb, h1, h2⟩]
    · rw [reg_clearBy, if_pos ⟨hb, h1, h2⟩]
  · simp only [clearBy, hb, Bool.false_eq_true, if_false]
    split <;> rfl
  · split
    · rw [core_updCore, if_neg (Ne.symm hd), core_congr cores]
    · rw [core_congr cores]
  · split
    · rw [core_updCore, if_pos rfl, core_congr cores]
    · rw [core_congr cores]

/-- Settles O13: each CLEAR register is `clearBy` over its table's range; SPM_CLEAR and SEC_CLEAR clear their flags besides. -/
theorem counterClears : Obligations.CounterClears := ⟨clearRegisters, spmClear_does, fun _ _ => rfl⟩

end Sys2Proof.Machine
end

section
/-! PROOF. Fencing a core (14 R359, R360): the mark that the fence sets, and what a FENCE message leaves of the core of its die. -/

namespace Sys2Proof.Machine

open Sys2Proof Sys2Proof.Safety

theorem fenceCore_fenced (s : State) (c : Nat) (active : coreActive s c = true) : bit (fenceCore s c).pkg.fenced c = true := by
  have marked : bit (updPkg s (markFenced c)).pkg.fenced c = true := by
    simp [updPkg, markFenced, bit, Nat.testBit_or]
  have sent : ∀ m, coreActive (sendChain s mgtDie (coreDie c) m) c = true := fun _ => active
  unfold fenceCore fenceEffects
  simp only [active, sent, Bool.not_true, Bool.false_eq_true, if_false]
  exact fenced_mono (coreLost_within (M := 0x3100808d9) rfl _ c _ .refl).package c marked

theorem fenceCore_of_inactive (s : State) (c : Nat) (inactive : coreActive s c = false) : fenceCore s c = s := by
  unfold fenceCore
  rw [inactive]
  rfl

theorem coreFaultFences : Claims.CoreFaultFences := fun c s =>
  ⟨fenceCore s c, rfl, fenceCore_inactive s c, fenceCore_fenced s c, fenceCore_of_inactive s c⟩

theorem fenceRequest_refused (s : State) (c : Nat) (h : stageDone s 4 = false ∨ 64 ≤ c ∨ (activeCount s = 1 ∧ coreActive s c = true)) :
    (fenceRequest s c).2 = s := by
  unfold fenceRequest
  split
  · rfl
  · next done =>
    rw [if_pos]
    rcases h with h | h
    · simp [h] at done
    · exact h

theorem fenceRequest_fences (s : State) (c : Nat) (done : stageDone s 4 = true) (low : c < 64) (more : activeCount s ≠ 1) :
    (fenceRequest s c).2 = fenceCore s c := by
  unfold fenceRequest
  rw [done, if_neg (by simp), if_neg (by omega)]

theorem fenceRequest_claim : Claims.FenceRequest := fun v s =>
  ⟨_, rfl, fun done low more => by rw [fenceRequest_fences s _ done low more]; exact fenceCore_inactive s _,
    fun early => fenceRequest_refused s _ (.inl early), fun high => fenceRequest_refused s _ (.inr (.inl high)),
    fun one active => fenceRequest_refused s _ (.inr (.inr ⟨one, active⟩))⟩

/-! FENCE at a core's die (R360 step 2; 08 R216). -/

theorem haltCore_halted (s : State) (c : Nat) : (core (haltCore s c) c).halted = true := by
  unfold haltCore
  rw [core_updCore, if_pos rfl]

/-- Its scratchpads read as memory that nothing has written (log entry 7). -/
theorem haltCore_spm (s : State) (c a : Nat) (low : 0x100000000000 + c * 0x100000000 ≤ a) (high : a < 0x100000000000 + (c + 1) * 0x100000000) :
    mread (haltCore s c).mem a = 0 := by
  have closed : ∀ u : State, (each (List.range 64) u (fun s w => setField s (windowOff c w 0) 1 0 0)).mem = u.mem :=
    fun u => each_keeps (·.mem) _ u _ (fun _ _ _ => rfl)
  unfold haltCore
  dsimp only
  rw [updCore_mem, closed, mread_mclear, if_pos ⟨low, high⟩]
  rfl

theorem haltCore_active (s : State) (c n : Nat) (h : coreActive s n = false) : coreActive (haltCore s c) n = false :=
  coreActive_mono (haltCore_within (M := 0x53) rfl s c .refl).package n h

section
variable {f : Frame} {d : DieId} {epoch : BitVec 16} {s : State} (new : NewMessage s d f)
include new

theorem fence_stops {c : Nat} (hc : dieCore d = some c) :
    exec (.fence f d 1#2 epoch) s = .next (haltCore (fenceEffects (tookMessage s d f) c) c) := by
  show execFence f d 1#2 epoch s = _
  unfold execFence
  rw [onChain_new _ new, hc]
  rfl

/-- ACTION 0, and a die without a core. -/
theorem fence_nothing {action : BitVec 2} (h : action = 0#2 ∨ dieCore d = none) : exec (.fence f d action epoch) s = .next (tookMessage s d f) := by
  show execFence f d action epoch s = _
  unfold execFence
  rw [onChain_new _ new]
  cases hc : dieCore d with
  | none => rfl
  | some c =>
    rcases h with h | h
    · subst h; rfl
    · simp [hc] at h

end

theorem fenceStopsTheCore : Claims.FenceStopsTheCore := by
  intro f d action epoch s new
  obtain ⟨t, ht, -⟩ := exec_within (.fence f d action epoch) s
  refine ⟨t, ht, fun c hc ha => ?_, fun h => ?_⟩
  · subst ha
    obtain rfl := Host.Outcome.next.inj ((fence_stops new hc).symm.trans ht)
    exact ⟨haltCore_halted _ c, haltCore_active _ c c (fenceEffects_inactive _ c), fun _ a low high => haltCore_spm _ c a low high⟩
  · exact (Host.Outcome.next.inj ((fence_nothing new h).symm.trans ht)).symm

/-- Settles O10: the fence marks the core, and no later effect of the same command unmarks it; FENCE with ACTION 1 runs `haltCore`. That lost
scratchpads read 0, that numbers above 63 are refused and that effects come with the decision are the model's (log entries 7, 61 and 19). -/
theorem coreFencing : Obligations.CoreFencing := ⟨coreFaultFences, fenceRequest_claim, fenceStopsTheCore⟩

end Sys2Proof.Machine
end

section
/-! PROOF. Hops, acknowledgements and resends of bulk packets (14 R352, R353, R355). -/

namespace Sys2Proof.Machine

open Sys2Proof Sys2Proof.Safety

/-- Noting that a row was detoured or resent changes its core's record alone. -/
theorem noteDetour_parts (s : State) (src dst : Nat) (type : BulkType) (tag : Nat) : OnlyParts [.cores] s (noteDetour s src dst type tag) :=
  Within.onlyParts (back := false) (noteDetour_within rfl s src dst type tag .refl)
theorem bump_parts (s : State) (off n : Nat) : OnlyParts [.regs] s (bump s off n) :=
  Within.onlyParts (back := false) (bump_within rfl s off n .refl)
theorem reg_noteDetour (s : State) (src dst : Nat) (type : BulkType) (tag off : Nat) : reg (noteDetour s src dst type tag) off = reg s off :=
  reg_congr (noteDetour_parts s src dst type tag .regs (by decide)) off

/-! A hop (R352, R355): what the router's table says decides. -/

section
variable (router : MeshDie) (p : BulkTag) (dst : DieId) (type : BulkType) (gran : Fin 8) (vc1 : Bool) (s : State)

theorem hop_straight (port : routeEntry s false router dst % 8 ≠ 7) (vc0 : (vc1 || bit (routeEntry s false router dst) 3) = false) :
    exec (.bulkPacketHop router p dst type gran vc1) s = .next (bump s (rtrOff router MGT_RTR_FWD_BYTES) (24 + 64 * (gran.val + 1))) := by
  show execBulkPacketHop router p dst type gran vc1 s = _
  simp only [execBulkPacketHop, if_neg port, vc0, Bool.false_eq_true, if_false]

theorem hop_detour (port : routeEntry s false router dst % 8 ≠ 7) (detour : (vc1 || bit (routeEntry s false router dst) 3) = true) :
    ∃ t, exec (.bulkPacketHop router p dst type gran vc1) s = .next t ∧ OnlyParts [.regs, .cores] s t ∧
      reg t (rtrOff router MGT_RTR_FWD_BYTES) = (reg s (rtrOff router MGT_RTR_FWD_BYTES) + (24 + 64 * (gran.val + 1))) % 2 ^ 64 ∧
      reg t (rtrOff router MGT_RTR_DETOUR_COUNT) = (reg s (rtrOff router MGT_RTR_DETOUR_COUNT) + 1) % 2 ^ 64 := by
  have e : exec (.bulkPacketHop router p dst type gran vc1) s = .next (noteDetour
      (bump (bump s (rtrOff router MGT_RTR_FWD_BYTES) (24 + 64 * (gran.val + 1))) (rtrOff router MGT_RTR_DETOUR_COUNT) 1) p.src dst type
      (packetTag s p.src dst p.seq)) := by
    show execBulkPacketHop router p dst type gran vc1 s = _
    simp only [execBulkPacketHop, if_neg port, detour, if_true]
    rfl
  have apart : rtrOff router MGT_RTR_DETOUR_COUNT ≠ rtrOff router MGT_RTR_FWD_BYTES := by
    simp [rtrOff, MGT_RTR_DETOUR_COUNT, MGT_RTR_FWD_BYTES]
  refine ⟨_, e, ?_, ?_, ?_⟩
  · exact OnlyParts.trans (OnlyParts.trans (bump_parts s _ _) (bump_parts _ _ _) (fun _ h => h) (fun _ h => h)) (noteDetour_parts _ _ _ _ _) (by decide) (by decide)
  · rw [reg_noteDetour, reg_bump, if_neg apart, reg_bump, if_pos rfl]
  · rw [reg_noteDetour, reg_bump, if_pos rfl, reg_bump, if_neg apart.symm]

theorem hop_discards (none_ : routeEntry s false router dst % 8 = 7) (answer : asks type = false) :
    exec (.bulkPacketHop router p dst type gran vc1) s = .next (bump s (rtrOff router MGT_RTR_NACK_COUNT) 1) := by
  show execBulkPacketHop router p dst type gran vc1 s = _
  simp only [execBulkPacketHop, if_pos none_, answer, Bool.false_eq_true, if_false]

theorem hop_refuses (none_ : routeEntry s false router dst % 8 = 7) (request : asks type = true) :
    ∃ t, exec (.bulkPacketHop router p dst type gran vc1) s = .next t ∧ OnlyParts [.regs, .net] s t ∧
      reg t (rtrOff router MGT_RTR_NACK_COUNT) = (reg s (rtrOff router MGT_RTR_NACK_COUNT) + 1) % 2 ^ 64 ∧
      ∃ l, t.net.bulk = l ++ [{ src := router, dst := p.src, seq := tget 0 s.net.bulkTx (pairKey router p.src), type := .nack,
                                 tag := packetTag s p.src dst p.seq, addr := 0, due := 0, data := [], sentAt := now s }] := by
  have e : exec (.bulkPacketHop router p dst type gran vc1) s = .next (sendBulk (dropBulk (bump s (rtrOff router MGT_RTR_NACK_COUNT) 1) p.src dst p.seq)
      router p.src .nack (packetTag s p.src dst p.seq) 0 0 []) := by
    show execBulkPacketHop router p dst type gran vc1 s = _
    simp only [execBulkPacketHop, if_pos none_, request, if_true]
    rfl
  refine ⟨_, e, ?_, ?_, _, rfl⟩
  · intro r hr
    cases r <;> first | (exfalso; simp at hr; done) | rfl
  · rw [sendBulk_reg_of]
    exact (reg_bump _ _ _ _).trans (if_pos rfl)

end

/-! Acknowledgements and resends (R353). -/

theorem endToEndAcknowledge_releases (die peer : DieId) (base : Fin 65536) (bitmap : BitVec 32) (s : State) :
    ∃ t, exec (.endToEndAcknowledge die peer base bitmap) s = .next t ∧ OnlyParts [.net] s t ∧
      ∀ b, b ∈ t.net.bulk ↔ b ∈ s.net.bulk ∧ ¬ (b.src = die ∧ b.dst = peer ∧ ∃ i, i < 32 ∧ bit bitmap.toNat i = true ∧ b.seq = (base.val + i) % 65536) := by
  refine ⟨_, rfl, fun r hr => ?_, fun b => ?_⟩
  · cases r <;> first | (exfalso; simp at hr; done) | rfl
  · have covered : (((List.range 32).filter (fun i => bit bitmap.toNat i)).map (fun (i : Nat) => (base.val + i) % 65536)).contains b.seq = true ↔
        ∃ i, i < 32 ∧ bit bitmap.toNat i = true ∧ b.seq = (base.val + i) % 65536 := by
      simp only [List.contains_iff_mem, List.mem_map, List.mem_filter, List.mem_range]
      exact ⟨fun ⟨i, ⟨h1, h2⟩, h3⟩ => ⟨i, h1, h2, h3.symm⟩, fun ⟨i, h1, h2, h3⟩ => ⟨i, ⟨h1, h2⟩, h3.symm⟩⟩
    rw [List.mem_filter, ← covered]
    simp only [Bool.not_eq_true', Bool.and_eq_false_iff, beq_eq_false_iff_ne, not_and, Bool.not_eq_true]
    constructor
    · rintro ⟨h1, h2⟩
      exact ⟨h1, fun a b => by rcases h2 with (h2 | h2) | h2; exacts [absurd a h2, absurd b h2, h2]⟩
    · rintro ⟨h1, h2⟩
      refine ⟨h1, ?_⟩
      by_cases a : b.src = die.val
      · by_cases c : b.dst = peer.val
        · exact .inr (h2 a c)
        · exact .inl (.inr c)
      · exact .inl (.inl a)

section
variable {src dst : DieId} {seq : Fin 65536} {b : BulkSend} {s : State}
  (alone : s.net.bulk = [b]) (h1 : b.src = src) (h2 : b.dst = dst) (h3 : b.seq = seq)
include alone h1 h2 h3

theorem bulkResend_early (early : now s < b.sentAt + objNat s 0x401001) : exec (.bulkResendTimeout src dst seq) s = .next s := by
  show execBulkResendTimeout src dst seq s = _
  simp [execBulkResendTimeout, alone, h1, h2, h3, early]

theorem bulkResend_due (due : b.sentAt + objNat s 0x401001 ≤ now s) : ∃ t, exec (.bulkResendTimeout src dst seq) s = .next t ∧
    t.net.bulk = [{ b with resent := true, sentAt := now s }] ∧ OnlyParts [.regs, .cores, .net] s t ∧
      reg t (rtrOff src MGT_RTR_RESEND_COUNT) = (reg s (rtrOff src MGT_RTR_RESEND_COUNT) + 1) % 2 ^ 64 := by
  have e : exec (.bulkResendTimeout src dst seq) s = .next (noteDetour
      (bump { s with net := { s.net with bulk := [{ b with resent := true, sentAt := now s }] } } (rtrOff src MGT_RTR_RESEND_COUNT) 1) src dst b.type b.tag) := by
    show execBulkResendTimeout src dst seq s = _
    simp [execBulkResendTimeout, alone, h1, h2, h3, Nat.not_lt.2 due]
  have parts := noteDetour_parts (bump { s with net := { s.net with bulk := [{ b with resent := true, sentAt := now s }] } } (rtrOff src MGT_RTR_RESEND_COUNT) 1)
    src dst b.type b.tag
  refine ⟨_, e, ?_, fun r hr => ?_, ?_⟩
  · rw [parts .net (by decide)]
    rfl
  · have kept := parts r (fun hc => hr (by simp at hc ⊢; tauto))
    cases r <;> first | (exfalso; simp at hr; done) | exact Eq.trans kept rfl
  · rw [reg_noteDetour, reg_bump, if_pos rfl]
    rfl

end

theorem bulkResend_none (src dst : DieId) (seq : Fin 65536) (s : State) (none_ : s.net.bulk = []) : exec (.bulkResendTimeout src dst seq) s = .next s := by
  show execBulkResendTimeout src dst seq s = _
  simp [execBulkResendTimeout, none_]

/-- Settles O28: each case of a hop, the acknowledgement and the resend. -/
theorem bulkTransport : Obligations.BulkTransport :=
  ⟨fun router p dst type gran vc1 s => ⟨hop_straight router p dst type gran vc1 s, hop_detour router p dst type gran vc1 s,
      hop_discards router p dst type gran vc1 s, hop_refuses router p dst type gran vc1 s⟩,
    endToEndAcknowledge_releases, fun _ _ _ _ _ alone h1 h2 h3 => ⟨bulkResend_early alone h1 h2 h3, bulkResend_due alone h1 h2 h3⟩, bulkResend_none⟩

end Sys2Proof.Machine
end

section
/-! PROOF. The chain's transport and its configuration messages (14 R356, R357; 19 R474, R480, R481). -/

namespace Sys2Proof.Machine

open Sys2Proof Sys2Proof.Safety

/-! Transport (R356, R357). -/

theorem chainAck_releases (die peer : DieId) (seq : Fin 1024) (s : State) : ∃ t, exec (.chainAck die peer seq) s = .next t ∧ OnlyParts [.net] s t ∧
    ∀ m, m ∈ t.net.chain ↔ m ∈ s.net.chain ∧ ¬ (m.src = die ∧ m.dst = peer ∧ m.seq = seq) := by
  refine ⟨_, rfl, fun r hr => ?_, fun m => ?_⟩
  · cases r <;> first | (exfalso; simp at hr; done) | rfl
  · simp only [List.mem_filter, Bool.not_eq_true', Bool.and_eq_false_iff, beq_eq_false_iff_ne]
    tauto

/-- The message that a resend names. -/
def namedBy (src dst seq : Nat) (m : ChainSend) : Bool := m.src == src && m.dst == dst && m.seq == seq
/-- It has waited for the time of 0x4010:02. -/
def resendDue (s : State) (src dst seq : Nat) (m : ChainSend) : Bool := namedBy src dst seq m && decide (m.sentAt + objNat s 0x401002 ≤ now s)
/-- The chain once the messages that are due have gone behind those that wait. -/
def resentChain (s : State) (src dst seq : Nat) : List ChainSend :=
  s.net.chain.filter (fun m => !resendDue s src dst seq m) ++ (s.net.chain.filter (resendDue s src dst seq)).map (fun m => { m with sentAt := now s })

theorem chainResend_is (src dst : DieId) (seq : Fin 1024) (s : State) :
    exec (.chainResendTimeout src dst seq) s = .next { s with net := { s.net with chain := resentChain s src dst seq } } := rfl

theorem namedBy_iff (src dst seq : Nat) (m : ChainSend) : namedBy src dst seq m = true ↔ m.src = src ∧ m.dst = dst ∧ m.seq = seq := by
  simp [namedBy, and_assoc]
theorem resendDue_iff (s : State) (src dst seq : Nat) (m : ChainSend) :
    resendDue s src dst seq m = true ↔ (m.src = src ∧ m.dst = dst ∧ m.seq = seq) ∧ m.sentAt + objNat s 0x401002 ≤ now s := by
  simp [resendDue, namedBy_iff]

/-- But for their times the messages are the same ones. -/
theorem resentChain_perm (s : State) (src dst seq : Nat) :
    ((resentChain s src dst seq).map (fun m => { m with sentAt := 0 })).Perm (s.net.chain.map (fun m => { m with sentAt := 0 })) := by
  have timeless : (resentChain s src dst seq).map (fun m => { m with sentAt := 0 }) =
      (s.net.chain.filter (fun m => !resendDue s src dst seq m) ++ s.net.chain.filter (resendDue s src dst seq)).map (fun m => { m with sentAt := 0 }) := by
    simp [resentChain, List.map_append, List.map_map, Function.comp_def]
  rw [timeless]
  refine List.Perm.map _ (List.perm_append_comm.trans ?_)
  exact List.filter_append_perm _ _

theorem resentChain_early (s : State) (src dst seq : Nat)
    (early : ∀ m ∈ s.net.chain, m.src = src → m.dst = dst → m.seq = seq → now s < m.sentAt + objNat s 0x401002) : resentChain s src dst seq = s.net.chain := by
  have waits : ∀ m ∈ s.net.chain, resendDue s src dst seq m = false := by
    intro m hm
    rw [Bool.eq_false_iff, Ne, resendDue_iff]
    rintro ⟨⟨a, b, c⟩, h⟩
    have := early m hm a b c
    omega
  unfold resentChain
  rw [List.filter_eq_self.2 (fun m hm => by rw [waits m hm]; rfl), List.filter_eq_nil_iff.2 (fun m hm => by simp [waits m hm])]
  simp

theorem resentChain_first (s : State) (src dst seq : Nat) (m : ChainSend) (l : List ChainSend) (chain : s.net.chain = m :: l)
    (named : m.src = src ∧ m.dst = dst ∧ m.seq = seq) (due : m.sentAt + objNat s 0x401002 ≤ now s)
    (only : l.all (fun x => !(x.src == src && x.dst == dst && x.seq == seq)) = true) : resentChain s src dst seq = l ++ [{ m with sentAt := now s }] := by
  have first : resendDue s src dst seq m = true := (resendDue_iff s src dst seq m).2 ⟨named, due⟩
  have others : ∀ x ∈ l, resendDue s src dst seq x = false := by
    intro x hx
    have := List.all_eq_true.1 only x hx
    unfold resendDue namedBy
    rw [Bool.not_eq_true'] at this
    rw [this, Bool.false_and]
  unfold resentChain
  rw [chain, List.filter_cons_of_neg (by simp [first]), List.filter_cons_of_pos first, List.filter_eq_self.2 (fun x hx => by rw [others x hx]; rfl),
    List.filter_eq_nil_iff.2 (fun x hx => by simp [others x hx])]
  rfl

theorem chainResend_claim (src dst : DieId) (seq : Fin 1024) (s : State) : ∃ t, exec (.chainResendTimeout src dst seq) s = .next t ∧ OnlyParts [.net] s t ∧
    (t.net.chain.map (fun m => { m with sentAt := 0 })).Perm (s.net.chain.map (fun m => { m with sentAt := 0 })) ∧
    ((∀ m ∈ s.net.chain, m.src = src → m.dst = dst → m.seq = seq → now s < m.sentAt + objNat s 0x401002) → t = s) ∧
    ∀ m, s.net.chain = m :: s.net.chain.tail → (m.src = src ∧ m.dst = dst ∧ m.seq = seq) → m.sentAt + objNat s 0x401002 ≤ now s →
      s.net.chain.tail.all (fun x => !(x.src == src.val && x.dst == dst.val && x.seq == seq.val)) = true →
      t.net.chain = s.net.chain.tail ++ [{ m with sentAt := now s }] := by
  refine ⟨_, chainResend_is src dst seq s, fun r hr => ?_, resentChain_perm s src dst seq, fun early => ?_, fun m chain named due only =>
    resentChain_first s src dst seq m _ chain named due only⟩
  · cases r <;> first | (exfalso; simp at hr; done) | rfl
  · rw [resentChain_early s src dst seq early]

theorem onChain_repeat {die : Nat} {f : Frame} {s : State} (k : State → State) (h : chainRepeat s die f = true) :
    onChain die f s k = bump s (rtrOff die MGT_RTR_DUP_COUNT) 1 := by
  unfold onChain
  rw [h, if_pos rfl]

theorem reservedChainMessage_counts (f : Frame) (die : DieId) (type : BitVec 6) (s : State) (reserved : type.toNat = 0 ∨ 0x0D ≤ type.toNat)
    (new : NewMessage s die f) : exec (.reservedChainMessage f die type) s = .next (bump (tookMessage s die f) (rtrOff die MGT_RTR_DUP_COUNT) 1) := by
  show execReservedChainMessage f die type s = _
  unfold execReservedChainMessage
  rw [onChain_new _ new, if_pos reserved]

/-! Configuration (19 R474). -/

/-- A part of a value reads as it was written. -/
theorem part_setPart (l : List Byte) (part v : Nat) : ((setPart l part v).drop (4 * part)).take 4 = leBytes 4 v := by
  unfold setPart
  have long : 4 * part ≤ (l ++ zeros (4 * part - l.length)).length := by
    simp [zeros]
    omega
  have head : ((l ++ zeros (4 * part - l.length)).take (4 * part)).length = 4 * part := by rw [List.length_take]; omega
  simp only []
  rw [List.append_assoc, List.drop_append_of_le_length (by omega), List.drop_of_length_le (by omega), List.nil_append,
    List.take_append_of_le_length (by rw [leBytes_length]), List.take_of_length_le (by rw [leBytes_length])]

theorem leNat_part (v : BitVec 32) : leNat (leBytes 4 v.toNat) = v.toNat := by
  rw [leNat_leBytes]
  exact Nat.mod_eq_of_lt v.isLt

/-- The octets that a die holds of an object once some are stored. -/
theorem dieObj_stored {s : State} {die key : Nat} {l : List Byte} (h : tfind s.dict.remote (dieKey die key) = some l) : dieObj s die key = l := by
  unfold dieObj
  rw [h]
  rfl

section
variable {f : Frame} {die : DieId} {index : BitVec 16} {sub : Byte} {part : BitVec 4} {s : State}

theorem config_repeats (v : BitVec 32) (again : chainRepeat s die f = true) :
    exec (.configWrite f die index sub part v) s = .next (bump s (rtrOff die MGT_RTR_DUP_COUNT) 1) ∧
      exec (.configRead f die index sub part) s = .next (bump s (rtrOff die MGT_RTR_DUP_COUNT) 1) :=
  ⟨congrArg Host.Outcome.next (onChain_repeat _ again), congrArg Host.Outcome.next (onChain_repeat _ again)⟩

theorem configWrite_stores (v : BitVec 32) (new : NewMessage s die f) : ∃ t, exec (.configWrite f die index sub part v) s = .next t ∧ OnlyParts [.dict, .net] s t ∧
    Sent s t die f.src (.config 4 index.toNat sub.toNat part.toNat 0) ∧
      leNat (((dieObj t die (objKey index sub)).drop (4 * part.toNat)).take 4) = v.toNat := by
  refine ⟨_, congrArg Host.Outcome.next (onChain_new _ new), fun r hr => ?_, rfl, ?_⟩
  · cases r <;> first | (exfalso; simp at hr; done) | rfl
  · rw [dieObj_stored (by rw [sendChain_dict]; exact (tfind_tset _ _ _ _).trans (if_pos rfl)), part_setPart, leNat_part]

theorem configRead_answers (new : NewMessage s die f) : ∃ t, exec (.configRead f die index sub part) s = .next t ∧ OnlyParts [.net] s t ∧
    Sent s t die f.src (.config 3 index.toNat sub.toNat part.toNat (leNat (((dieObj s die (objKey index sub)).drop (4 * part.toNat)).take 4))) := by
  refine ⟨_, congrArg Host.Outcome.next (onChain_new _ new), fun r hr => ?_, rfl⟩
  cases r <;> first | (exfalso; simp at hr; done) | rfl

theorem configData_kept (v : BitVec 32) (new : NewMessage s mgtDie f) : ∃ t, exec (.configData f index sub part v) s = .next t ∧ OnlyParts [.dict, .net] s t ∧
    tfind t.dict.answers (answerKey f.src (objKey index sub) part.toNat) = some v.toNat := by
  refine ⟨_, congrArg Host.Outcome.next (onChain_new _ new), fun r hr => ?_, (tfind_tset _ _ _ _).trans (if_pos rfl)⟩
  cases r <;> first | (exfalso; simp at hr; done) | rfl

theorem configDone_kept (new : NewMessage s mgtDie f) : ∃ t, exec (.configDone f index sub part) s = .next t ∧ OnlyParts [.dict, .net] s t ∧
    tfind t.dict.answers (answerKey f.src (objKey index sub) part.toNat) = some (2 ^ 32) := by
  refine ⟨_, congrArg Host.Outcome.next (onChain_new _ new), fun r hr => ?_, (tfind_tset _ _ _ _).trans (if_pos rfl)⟩
  cases r <;> first | (exfalso; simp at hr; done) | rfl

/-! Freezes and activations at a die (R480, R481). -/

theorem freeze_kept (epoch : BitVec 32) (new : NewMessage s die f) :
    ∃ t, exec (.freeze f die epoch) s = .next t ∧ OnlyParts [.dict, .net] s t ∧ leNat (dieObj t die 0x102002) = epoch.toNat := by
  refine ⟨_, congrArg Host.Outcome.next (onChain_new _ new), fun r hr => ?_, ?_⟩
  · cases r <;> first | (exfalso; simp at hr; done) | rfl
  · rw [dieObj_stored ((tfind_tset _ _ _ _).trans (if_pos rfl)), leNat_part]

theorem activate_kept (epoch : BitVec 32) (new : NewMessage s die f) :
    ∃ t, exec (.activate f die epoch) s = .next t ∧ OnlyParts [.dict, .net] s t ∧ leNat (dieObj t die 0x102001) = epoch.toNat := by
  refine ⟨_, congrArg Host.Outcome.next (onChain_new _ new), fun r hr => ?_, ?_⟩
  · cases r <;> first | (exfalso; simp at hr; done) | rfl
  · rw [dieObj_stored ((tfind_tset _ _ _ _).trans (if_pos rfl)), leNat_part]

end

/-! Events at the management die (R474, R475). -/

theorem event_message {f : Frame} {code : BitVec 16} {severity : BitVec 2} {arg : BitVec 46} {s : State} (new : NewMessage s mgtDie f) :
    (∀ e, eventInFlight (tookMessage s mgtDie f) f = some e → ∃ t, exec (.event f code severity arg) s = .next t ∧ latestEvent t = some e ∧ t.dict.eventSeq = s.dict.eventSeq + 1) ∧
    (eventInFlight (tookMessage s mgtDie f) f = none → code ≠ 0xFFFF#16 → ∃ t, exec (.event f code severity arg) s = .next t ∧
      LoggedEvent s t code.toNat severity.toNat [arg.toNat]) := by
  constructor
  · intro e he
    refine ⟨_, congrArg Host.Outcome.next (onChain_new _ new), ?_⟩
    rw [he]
    exact ⟨logEvent_latest _ _, logEvent_eventSeq _ _⟩
  · intro he first
    refine ⟨_, congrArg Host.Outcome.next (onChain_new _ new), ?_⟩
    rw [he]
    simp only [if_neg first]
    exact ⟨logEvent_eventSeq _ _, _, logEvent_latest _ _, rfl, rfl, rfl, rfl⟩

/-- Settles O31: each message's effect on the state in which its number is noted. That CONFIG_DONE is kept as the answer 2^32, that the management
die keeps copies of other dies' objects and that CODE 0xFFFF continues a record are the model's (log entries 58 and 20). -/
theorem chainMessages : Obligations.ChainMessages :=
  ⟨chainAck_releases, chainResend_claim, reservedChainMessage_counts,
    fun _ _ _ _ _ v _ => ⟨config_repeats v, fun new => ⟨configWrite_stores v new, configRead_answers new⟩,
      fun new => ⟨configData_kept v new, configDone_kept new⟩⟩,
    fun _ _ epoch _ new => ⟨freeze_kept epoch new, activate_kept epoch new⟩, fun _ _ _ _ _ new => event_message new⟩

end Sys2Proof.Machine
end

section
/-! PROOF. The requests of the bulk network and the registers over it (14 R351, R354; 12 R310; 08 R211 to R213). -/

namespace Sys2Proof.Machine

open Sys2Proof Sys2Proof.Safety

/-- A command completes in every state, and changes no part outside its list. -/
theorem completes_within (c : Instr) (s : State) : ∃ t, exec c s = .next t ∧ OnlyParts (touches c) s t := by
  obtain ⟨t, ht, -⟩ := exec_within c s
  exact ⟨t, ht, (within_of_exec ht).onlyParts⟩

theorem bulkCompletes : Claims.BulkCompletes :=
  ⟨fun _ _ _ _ _ _ => completes_within _, fun _ _ _ _ _ _ => completes_within _, fun _ _ _ _ _ _ => completes_within _,
    fun _ _ => completes_within _, fun _ _ _ => completes_within _⟩

/-! READ_REQUEST (R351). -/

/-- A packet that answers, seen from the state before the one it answers was taken. -/
theorem sentPacket_answer {s u : State} {d : Nat} {p : BulkTag} (net : OnlyParts [.regs, .mem, .cores, .cache, .hst, .mifs, .out] (tookPacket s d p) u)
    (src dst : Nat) (ty : BulkType) (tag a due : Nat) (data : List Byte) : SentPacket s (sendBulk u src dst ty tag a due data) src dst ty tag a data :=
  sentPacket_took (net .net (by decide)) (congrArg Clock.reftime (net .clock (by decide))) src dst ty tag a due data

section
variable {die : DieId} {p : BulkTag} {tag : TagId} {dpa : BitVec 52} {gran : Fin 8} {o : ReadOutcome} {s : State} (new : NewPacket s die p)
include new

theorem readRequest_is : exec (.readRequest die p tag dpa gran o) s = .next (let r := serveRead (tookPacket s die p) p tag dpa.toNat (64 * (gran + 1)) o
    match r.2 with
    | none => r.1
    | some (st, data) => sendBulk r.1 die p.src .readData tag st 0 data) :=
  congrArg Host.Outcome.next (onBulk_new _ new)

theorem readRequest_mirror (near : isNear dpa.toNat = false) (far : isFar dpa.toNat = false) (spm : isSpm dpa.toNat = false) (mirror : isMirror dpa.toNat = true) :
    ∃ t, exec (.readRequest die p tag dpa gran o) s = .next t ∧ OnlyParts [.net] s t ∧
      SentPacket s t die p.src .readData tag stSuccess (mirrorBytes (tookPacket s die p) (dpa.toNat / 8 * 8) (64 * (gran.val + 1))) := by
  refine ⟨_, readRequest_is new, ?_⟩
  simp only [serveRead, near, far, spm, mirror, Bool.or_self, Bool.false_eq_true, if_false, if_true]
  refine ⟨fun r hr => ?_, sentPacket_took rfl rfl _ _ _ _ _ _ _⟩
  cases r <;> first | (exfalso; simp at hr; done) | rfl

/-- A read of the near tier in device bias is answered with what the line gives. -/
theorem readRequest_near (near : isNear dpa.toNat = true) (bias : hostBias s dpa.toNat = false) :
    exec (.readRequest die p tag dpa gran o) s = .next (let u := tookPacket s die p
      let r := readLine u dpa.toNat o
      let v := answeredTier r.1 (!s.cache.resident.contains (lineOf dpa.toNat)) r.2 p.src tag dpa.toNat (tierDelay u dpa.toNat o)
      sendBulk v die p.src .readData tag r.2 0 (if r.2 = stSuccess then mreadN v.mem dpa.toNat (64 * (gran + 1)) else [])) := by
  rw [readRequest_is new]
  have own : askHost (tookPacket s die p) dpa.toNat false = tookPacket s die p := askHost_own _ _ _ bias
  simp only [serveRead, near, Bool.true_or, if_true, own]
  rfl

theorem readRequest_resident (near : isNear dpa.toNat = true) (bias : hostBias s dpa.toNat = false) (resident : s.cache.resident.contains (lineOf dpa.toNat) = true)
    (sound : s.cache.poisoned.contains (lineOf dpa.toNat) = false) (up : stackFailed s (stackOf dpa.toNat) = false) (clean : o = .ok 0) :
    ∃ t, exec (.readRequest die p tag dpa gran o) s = .next t ∧ t.mem = s.mem ∧
      SentPacket s t die p.src .readData tag stSuccess (mreadN s.mem dpa.toNat (64 * (gran.val + 1))) := by
  have read : readLine (tookPacket s die p) dpa.toNat o = (tookPacket s die p, stSuccess) := by
    subst clean
    have up' : stackFailed (tookPacket s die p) (stackOf dpa.toNat) = false := up
    simp only [readLine, near, up', tookPacket_cache, sound, resident, Bool.and_false, Bool.false_eq_true, if_false, Bool.not_true]
  have parts := answeredTier_parts (tookPacket s die p) (!s.cache.resident.contains (lineOf dpa.toNat)) stSuccess p.src tag dpa.toNat (tierDelay (tookPacket s die p) dpa.toNat o)
  have mem := parts .mem (by decide)
  refine ⟨_, readRequest_near new near bias, ?_⟩
  simp only [read, if_true]
  refine ⟨mem, ?_⟩
  rw [show mreadN s.mem dpa.toNat (64 * (gran.val + 1)) = mreadN _ dpa.toNat (64 * (gran.val + 1)) from congrArg (mreadN · _ _) mem.symm]
  exact sentPacket_answer (OnlyParts.mono parts _ (by decide)) _ _ _ _ _ _ _

theorem readRequest_uncorrectable (near : isNear dpa.toNat = true) (bias : hostBias s dpa.toNat = false)
    (lost : s.cache.poisoned.contains (lineOf dpa.toNat) = true ∨ stackFailed s (stackOf dpa.toNat) = true) :
    ∃ t, exec (.readRequest die p tag dpa gran o) s = .next t ∧ SentPacket s t die p.src .readData tag stTierUncorrectable [] := by
  obtain ⟨u, read, counted⟩ : ∃ u, readLine (tookPacket s die p) dpa.toNat o = (u, stTierUncorrectable) ∧ OnlyParts [.regs] (tookPacket s die p) u := by
    unfold readLine
    dsimp only
    split
    · exact ⟨_, rfl, Within.onlyParts (back := false) (uncorrectable_within rfl _ _ _ .refl)⟩
    · next up =>
      have poisoned : (tookPacket s die p).cache.poisoned.contains (lineOf dpa.toNat) = true := by
        rcases lost with h | h
        · exact h
        · exact absurd (show (isNear dpa.toNat && stackFailed (tookPacket s die p) (stackOf dpa.toNat)) = true by rw [near]; exact h) up
      exact ⟨_, if_pos poisoned, fun _ _ => Within.onlyParts (l := []) (back := false) .refl _ (by simp)⟩
  have parts := answeredTier_parts u (!s.cache.resident.contains (lineOf dpa.toNat)) stTierUncorrectable p.src tag dpa.toNat (tierDelay (tookPacket s die p) dpa.toNat o)
  refine ⟨_, readRequest_near new near bias, ?_⟩
  simp only [read]
  exact sentPacket_answer (OnlyParts.trans counted parts (by decide) (by decide)) _ _ _ _ _ _ _

end

/-! BULK_WRITE and ACCUMULATE_WRITE at a tier (R351; R310): a resident line of the near tier in device bias. -/

section
variable {p : BulkTag} {tag : TagId} {a : Nat} {data : List Byte} {s : State} (src : Source) (new : NewPacket s (sliceDie (homeSlice a)) p)
  (near : isNear a = true) (host : isHost a = false) (mirror : isMirror a = false) (spm : isSpm a = false) (bias : hostBias s a = false)
  (up : stackFailed s (stackOf a) = false) (resident : s.cache.resident.contains (lineOf a) = true)
include host mirror spm

theorem targetDie_near : targetDie (.tier a) = sliceDie (homeSlice a) := by
  simp only [targetDie, host, mirror, spm, Bool.false_eq_true, if_false]

include new near bias up resident

theorem bulkWrite_near (canonical : MemoryCanonical s) : ∃ t, exec (.bulkWrite p src tag (.tier a) data (.ok 0)) s = .next t ∧ mreadN t.mem a data.length = data ∧
    (∀ b, b < a ∨ a + data.length ≤ b → mread t.mem b = mread s.mem b) ∧ SentPacket s t (sliceDie (homeSlice a)) p.src .writeAck tag 0 [] ∧
      t.cache.dirty.contains (lineOf a) = true := by
  have e : exec (.bulkWrite p src tag (.tier a) data (.ok 0)) s = .next (let r := writeLine (tookPacket s (sliceDie (homeSlice a)) p) a data (.ok 0)
      answerWrite (writeEvents r.1 p tag 0) (sliceDie (homeSlice a)) p tag 0 r.2) := by
    show execBulkWrite p src tag (.tier a) data (.ok 0) s = _
    have own : askHost (tookPacket s (sliceDie (homeSlice a)) p) a true = tookPacket s (sliceDie (homeSlice a)) p := askHost_own _ _ _ bias
    simp only [execBulkWrite, targetDie_near host mirror spm]
    rw [onBulk_new _ new]
    simp only [host, near, own, Bool.false_eq_true, if_false, Bool.true_or, if_true]
    rfl
  obtain ⟨status, mem, net, dirty, -⟩ := writeLine_near (tookPacket s (sliceDie (homeSlice a)) p) a data near up resident
  have time : now (writeLine (tookPacket s (sliceDie (homeSlice a)) p) a data (.ok 0)).1 = now s :=
    congrArg Clock.reftime ((writeLine_within (M := 30333210507) rfl _ a data (.ok 0) .refl).same .clock rfl)
  refine ⟨_, e, ?_⟩
  simp only [writeEvents_none, answerWrite, status, ne_eq, not_true_eq_false, stSuccess, if_false, if_true]
  refine ⟨?_, fun b hb => ?_, sentPacket_took net time _ _ _ _ _ _ _, dirty⟩
  · rw [sendBulk_mem, mem]
    exact mreadN_mwriteN data s.mem a canonical
  · rw [sendBulk_mem, mem]
    exact mread_mwriteN data s.mem a b canonical hb

theorem accumulateWrite_near (sound : s.cache.poisoned.contains (lineOf a) = false) : ∃ t, exec (.accumulateWrite p src tag (.tier a) 0 data) s = .next t ∧
    t.mem = mwriteN s.mem a (addRow (mreadN s.mem a data.length) data) ∧ SentPacket s t (sliceDie (homeSlice a)) p.src .writeAck tag 0 [] := by
  have own : askHost (tookPacket s (sliceDie (homeSlice a)) p) a true = tookPacket s (sliceDie (homeSlice a)) p := askHost_own _ _ _ bias
  obtain ⟨status, mem, net, dirty, -⟩ := writeLine_near (tookPacket s (sliceDie (homeSlice a)) p) a (addRow (mreadN s.mem a data.length) data) near up resident
  have time : now (writeLine (tookPacket s (sliceDie (homeSlice a)) p) a (addRow (mreadN s.mem a data.length) data) (.ok 0)).1 = now s :=
    congrArg Clock.reftime ((writeLine_within (M := 30333210507) rfl _ a (addRow (mreadN s.mem a data.length) data) (.ok 0) .refl).same .clock rfl)
  have e : ∃ v, exec (.accumulateWrite p src tag (.tier a) 0 data) s = .next (sendBulk v (sliceDie (homeSlice a)) p.src .writeAck tag 0 0 []) ∧
      OnlyParts [.regs] (writeLine (tookPacket s (sliceDie (homeSlice a)) p) a (addRow (mreadN s.mem a data.length) data) (.ok 0)).1 v := by
    show ∃ v, execAccumulateWrite p src tag (.tier a) 0 data s = _ ∧ _
    simp only [execAccumulateWrite, targetDie_near host mirror spm]
    rw [onBulk_new _ new]
    simp only [near, own, Nat.add_zero, tookPacket_cache, resident, sound, Bool.true_or, Bool.false_eq_true, if_false, if_true, answerWrite, stSuccess, ne_eq,
      not_true_eq_false]
    have st : (writeLine (tookPacket s (sliceDie (homeSlice a)) p) a (addFp32 (mreadN s.mem a data.length) data).1 (.ok 0)).2 = 0 := status
    simp only [tookPacket_mem, st, not_true_eq_false, if_false, if_true]
    refine ⟨_, rfl, ?_⟩
    split
    · exact bump_parts _ _ _
    · exact Within.onlyParts (back := false) .refl
  obtain ⟨v, e, counted⟩ := e
  refine ⟨_, e, ?_, sentPacket_took ((counted .net (by decide)).trans net) ((congrArg Clock.reftime (counted .clock (by decide))).trans time) _ _ _ _ _ _ _⟩
  rw [sendBulk_mem, show v.mem = _ from counted .mem (by decide), mem]
  rfl

end

/-! A row that a landing window refuses (08 R212, R213). -/

theorem bulkWrite_refused (p : BulkTag) (src : Source) (tag : TagId) (c : CoreId) (w : WindowId) (off : Nat) (data : List Byte) (o : WriteOutcome) (s : State)
    (new : NewPacket s (coreDie c) p) (refused : rowCause s c w off src ≠ 0) : ∃ u, OnlyParts [.regs, .net] s u ∧
      coreReg u c SPM_NACK_COUNT = (coreReg s c SPM_NACK_COUNT + 1) % 2 ^ 64 ∧
      (∀ x, src = .core x → ∃ t, exec (.bulkWrite p src tag (.window c w off) data o) s = .next t ∧ OnlyParts [.net] u t ∧
        SentPacket s t (coreDie c) p.src .nack tag 0 []) ∧
      (∀ n d, src = .strand n d → exec (.bulkWrite p src tag (.window c w off) data o) s = .next (refuseStrand u d n (rowCause s c w off src))) ∧
      (src = .host → exec (.bulkWrite p src tag (.window c w off) data o) s = .next (postedDrop u stWindowViolation 1 0)) := by
  have cause : rowCause (tookPacket s (coreDie c) p) c w off src = rowCause s c w off src := rfl
  have e : exec (.bulkWrite p src tag (.window c w off) data o) s = .next (refuseRow
      (recordNack (tookPacket s (coreDie c) p) c w off (rowCause s c w off src) src) (coreDie c) p src tag (rowCause s c w off src)) := by
    show execBulkWrite p src tag (.window c w off) data o s = _
    simp only [execBulkWrite, targetDie]
    rw [onBulk_new _ new]
    simp only [ingressRow, cause, if_neg refused]
  have noted := recordNack_parts (tookPacket s (coreDie c) p) c w off (rowCause s c w off src) src
  have taken : OnlyParts [.net] s (tookPacket s (coreDie c) p) := fun r hr => by cases r <;> first | (exfalso; simp at hr; done) | rfl
  refine ⟨_, OnlyParts.trans taken noted (by decide) (by decide), recordNack_count _ _ _ _ _ _, fun x hx => ?_, fun n d hx => ?_, fun hx => ?_⟩
  · subst hx
    refine ⟨_, e, ?_, ?_⟩
    · simp only [refuseRow, answerWrite, ne_eq, not_true_eq_false, if_false, if_neg refused]
      exact Within.onlyParts (back := false) (sendBulk_within rfl _ _ _ _ _ _ _ _ .refl)
    · simp only [refuseRow, answerWrite, ne_eq, not_true_eq_false, if_false, if_neg refused]
      exact sentPacket_answer (OnlyParts.mono noted _ (by decide)) _ _ _ _ _ _ _
  · subst hx; exact e
  · subst hx; exact e

/-! Registers over the network (R354). -/

theorem registerRead_answers (p : BulkTag) (off : BitVec 26) (s : State) (new : NewPacket s (ownerDie off.toNat) p) :
    ∃ t, exec (.registerRead p off) s = .next t ∧ OnlyParts [.net] s t ∧
      SentPacket s t (ownerDie off.toNat) p.src .regData 0 (off.toNat / 8 * 8) (leBytes 8 (regView (tookPacket s (ownerDie off.toNat) p) (off.toNat / 8 * 8))) := by
  refine ⟨_, congrArg Host.Outcome.next (onBulk_new _ new), fun r hr => ?_, sentPacket_took rfl rfl _ _ _ _ _ _ _⟩
  cases r <;> first | (exfalso; simp at hr; done) | rfl

theorem bulkServes : Claims.BulkServes :=
  ⟨fun _ _ _ _ _ _ _ new => ⟨readRequest_mirror new, fun near bias resident sound up _ clean => readRequest_resident new near bias resident sound up clean,
      fun near bias lost _ _ => readRequest_uncorrectable new near bias lost⟩,
    fun _ src _ _ _ _ new near host mirror spm bias up canonical resident => ⟨bulkWrite_near src new near host mirror spm bias up resident canonical,
      accumulateWrite_near src new near host mirror spm bias up resident⟩,
    bulkWrite_refused, registerRead_answers, fun _ _ _ _ new => congrArg Host.Outcome.next (onBulk_new _ new)⟩

/-- Settles O27: each of the five completes by `exec_within`, and serves as its meaning on the state that has taken the packet. -/
theorem bulkRequests : Obligations.BulkRequests := ⟨bulkCompletes, bulkServes⟩

end Sys2Proof.Machine
end

section
/-! PROOF. Host write apertures and the configuration space (16 R419, R420; 18 R448). -/

namespace Sys2Proof.Machine

open Sys2Proof Sys2Proof.Safety

/-! What a dropped write leaves (R420). -/

theorem reg_postedDrop (s : State) (status source index off : Nat) : reg (postedDrop s status source index) off = reg (dropNoted s status source index) off := by
  obtain ⟨m, sent⟩ := postedDrop_sends s status source index
  rw [sent, sendChain_reg_of]

theorem apOff_ne_hstOff (a : Fin 16) (o : Nat) (h : o < 0x1000) : hstOff o ≠ apOff a := by
  have := a.isLt
  simp only [hstOff, apOff]
  omega

theorem postedDrop_count (s : State) (status source index : Nat) :
    reg (postedDrop s status source index) (hstOff HST_POSTED_DROP_COUNT) = (reg s (hstOff HST_POSTED_DROP_COUNT) + 1) % 2 ^ 64 :=
  (postedDrop_does s status source index).2.1
theorem postedDrop_last (s : State) (status source index : Nat) (h : status + source * 2 ^ 16 + index * 2 ^ 18 < 2 ^ 64) :
    reg (postedDrop s status source index) (hstOff HST_LAST_DROP) = status + source * 2 ^ 16 + index * 2 ^ 18 := by
  rw [reg_postedDrop, dropNoted, reg_setReg_same, Nat.mod_eq_of_lt h]
theorem postedDrop_other (s : State) (status source index off : Nat) (h1 : off ≠ hstOff HST_POSTED_DROP_COUNT) (h2 : off ≠ hstOff HST_LAST_DROP) :
    reg (postedDrop s status source index) off = reg s off := by
  rw [reg_postedDrop, dropNoted, reg_setReg, if_neg (Ne.symm h2), reg_bump, if_neg (Ne.symm h1)]
theorem postedDrop_told (s u : State) (status source index : Nat) (hn : u.net = s.net) (ht : now u = now s) :
    SentEvent s (postedDrop u status source index) hstDie 0x801 1 [status, source, index] := raise_sentEvent s _ _ _ _ _ _ _ (by decide) hn ht

/-! A write at an aperture (R419). -/

/-- ROW advances where the bytes reach byte 511. -/
def rowAdvanced (s : State) (a : Fin 16) (off n w : Nat) : State := if off + n = 512 then setField s (apOff a) 31 12 (bits w 31 12 + 1) else s

theorem rowAdvanced_reg (s : State) (a : Fin 16) (off n w : Nat) :
    reg (rowAdvanced s a off n w) (apOff a) = if off + n = 512 then putBits (reg s (apOff a)) 31 12 (bits w 31 12 + 1) % 2 ^ 64 else reg s (apOff a) := by
  unfold rowAdvanced
  split
  · rw [reg_setField, if_pos rfl]
  · rfl
theorem rowAdvanced_other (s : State) (a : Fin 16) (off n w o : Nat) (h : apOff a ≠ o) : reg (rowAdvanced s a off n w) o = reg s o := by
  unfold rowAdvanced
  split
  · rw [reg_setField, if_neg h]
  · rfl
theorem rowAdvanced_parts (s : State) (a : Fin 16) (off n w : Nat) : OnlyParts [.regs] s (rowAdvanced s a off n w) :=
  Within.onlyParts (back := false) (.ite (setField_within rfl s _ _ _ _ .refl) .refl)

section
variable {a : Fin 16} {off : Fin 512} {data : List Byte} {s : State}

theorem aperture_inactive (inactive : coreActive s (bits (reg s (apOff a)) 5 0) = false) : exec (.apertureWrite a off data) s =
    .next (rowAdvanced (postedDrop s stWindowViolation 1 a) a off (data.take (512 - off)).length (reg s (apOff a))) := by
  show execApertureWrite a off data s = _
  simp only [execApertureWrite, inactive, Bool.not_false, if_true]
  rfl

theorem aperture_active (active : coreActive s (bits (reg s (apOff a)) 5 0) = true) : exec (.apertureWrite a off data) s =
    .next (let w := reg s (apOff a)
      let r := ingressNarrow s (bits w 5 0) (bits w 11 6) (bits w 31 12) off .host (data.take (512 - off)) false
      rowAdvanced (if r.2 = 0 then r.1 else postedDrop r.1 stWindowViolation 1 a) a off (data.take (512 - off)).length w) := by
  show execApertureWrite a off data s = _
  simp only [execApertureWrite, active, Bool.not_true, Bool.false_eq_true, if_false]
  rfl

/-- What the drop of an aperture's write leaves, whatever the row does. -/
theorem aperture_dropped {u : State} {n : Nat} (ap : reg u (apOff a) = reg s (apOff a)) (count : reg u (hstOff HST_POSTED_DROP_COUNT) = reg s (hstOff HST_POSTED_DROP_COUNT)) :
    let w := reg s (apOff a)
    let t := rowAdvanced (postedDrop u stWindowViolation 1 a) a off n w
    reg t (apOff a) = (if off.val + n = 512 then putBits w 31 12 (bits w 31 12 + 1) % 2 ^ 64 else w) ∧
      reg t (hstOff HST_POSTED_DROP_COUNT) = (reg s (hstOff HST_POSTED_DROP_COUNT) + 1) % 2 ^ 64 ∧
      reg t (hstOff HST_LAST_DROP) = stWindowViolation + 2 ^ 16 + a.val * 2 ^ 18 := by
  have h1 := apOff_ne_hstOff a HST_POSTED_DROP_COUNT (by decide)
  have h2 := apOff_ne_hstOff a HST_LAST_DROP (by decide)
  refine ⟨?_, ?_, ?_⟩
  · rw [rowAdvanced_reg, postedDrop_other _ _ _ _ _ h1.symm h2.symm, ap]
  · rw [rowAdvanced_other _ _ _ _ _ _ h1.symm, postedDrop_count, count]
  · rw [rowAdvanced_other _ _ _ _ _ _ h2.symm, postedDrop_last _ _ _ _ (by have := a.isLt; simp only [stWindowViolation]; omega)]
    omega

theorem aperture_dead_core (inactive : coreActive s (bits (reg s (apOff a)) 5 0) = false) : let w := reg s (apOff a)
    let n := (data.take (512 - off)).length
    ∃ t, exec (.apertureWrite a off data) s = .next t ∧ OnlyParts [.regs, .net] s t ∧
      reg t (apOff a) = (if off.val + n = 512 then putBits w 31 12 (bits w 31 12 + 1) % 2 ^ 64 else w) ∧
      reg t (hstOff HST_POSTED_DROP_COUNT) = (reg s (hstOff HST_POSTED_DROP_COUNT) + 1) % 2 ^ 64 ∧
      reg t (hstOff HST_LAST_DROP) = stWindowViolation + 2 ^ 16 + a.val * 2 ^ 18 ∧ SentEvent s t hstDie 0x801 1 [stWindowViolation, 1, a.val] := by
  obtain ⟨row, count, last⟩ := aperture_dropped (a := a) (off := off) (s := s) (n := (data.take (512 - off)).length) rfl rfl
  have parts := rowAdvanced_parts (postedDrop s stWindowViolation 1 a) a off (data.take (512 - off)).length (reg s (apOff a))
  refine ⟨_, aperture_inactive inactive, OnlyParts.trans (postedDrop_does s _ _ _).1 parts (by decide) (by decide), row, count, last, ?_⟩
  obtain ⟨e, sent, rest⟩ := postedDrop_told s s stWindowViolation 1 a rfl rfl
  exact ⟨e, (congrArg Net.chain (parts .net (by decide))).trans sent, rest⟩

/-- The ingress counts what it refuses, and writes nothing. -/
theorem ingressNarrow_refused {c w off byte : Nat} {src : Source} {l : List Byte} {b : Bool} (refused : narrowCause s c w off byte l.length src ≠ 0) :
    ingressNarrow s c w off byte src l b = (recordNack s c w off (narrowCause s c w off byte l.length src) src, narrowCause s c w off byte l.length src) := by
  unfold ingressNarrow
  rw [if_pos refused]

theorem aperture_refused (active : coreActive s (bits (reg s (apOff a)) 5 0) = true)
    (refused : narrowCause s (bits (reg s (apOff a)) 5 0) (bits (reg s (apOff a)) 11 6) (bits (reg s (apOff a)) 31 12) off (data.take (512 - off)).length .host ≠ 0) :
    let w := reg s (apOff a)
    let n := (data.take (512 - off)).length
    ∃ t, exec (.apertureWrite a off data) s = .next t ∧ t.mem = s.mem ∧
      reg t (apOff a) = (if off.val + n = 512 then putBits w 31 12 (bits w 31 12 + 1) % 2 ^ 64 else w) ∧
      reg t (hstOff HST_POSTED_DROP_COUNT) = (reg s (hstOff HST_POSTED_DROP_COUNT) + 1) % 2 ^ 64 ∧
      reg t (hstOff HST_LAST_DROP) = stWindowViolation + 2 ^ 16 + a.val * 2 ^ 18 := by
  have e := aperture_active (a := a) (off := off) (data := data) active
  simp only [ingressNarrow_refused refused, if_neg refused] at e
  set w := reg s (apOff a) with hw
  set cause := narrowCause s (bits w 5 0) (bits w 11 6) (bits w 31 12) off (data.take (512 - off)).length .host
  set u := recordNack s (bits w 5 0) (bits w 11 6) (bits w 31 12) cause .host with hu
  have noted : OnlyParts [.regs] s u := recordNack_parts _ _ _ _ _ _
  have ap : reg u (apOff a) = reg s (apOff a) := by
    have below : ∀ o, coreOff (bits w 5 0) o ≠ apOff a := fun o => by
      have := a.isLt
      simp only [coreOff, apOff]
      omega
    rw [hu, recordNack, recordNackAt, reg_setReg, if_neg (below _), reg_bumpCore, if_neg (below _)]
  obtain ⟨row, count, last⟩ := aperture_dropped (a := a) (off := off) (s := s) (u := u) (n := (data.take (512 - off)).length) ap
    (recordNack_reg_hst _ _ _ _ _ _ (by decide))
  refine ⟨_, e, ?_, row, count, last⟩
  have parts := rowAdvanced_parts (postedDrop u stWindowViolation 1 a) a off (data.take (512 - off)).length w
  exact (parts .mem (by decide)).trans (((postedDrop_does u _ _ _).1 .mem (by decide)).trans (noted .mem (by decide)))

theorem aperture_taken (active : coreActive s (bits (reg s (apOff a)) 5 0) = true)
    (taken : narrowCause s (bits (reg s (apOff a)) 5 0) (bits (reg s (apOff a)) 11 6) (bits (reg s (apOff a)) 31 12) off (data.take (512 - off)).length .host = 0)
    (part : off.val + (data.take (512 - off)).length ≠ 512) : exec (.apertureWrite a off data) s =
      .next (ingressNarrow s (bits (reg s (apOff a)) 5 0) (bits (reg s (apOff a)) 11 6) (bits (reg s (apOff a)) 31 12) off .host (data.take (512 - off)) false).1 := by
  rw [aperture_active active]
  have status : (ingressNarrow s (bits (reg s (apOff a)) 5 0) (bits (reg s (apOff a)) 11 6) (bits (reg s (apOff a)) 31 12) off .host
      (data.take (512 - off)) false).2 = 0 := by
    unfold ingressNarrow
    rw [if_neg (by rw [taken]; simp)]
    split <;> rfl
  simp only [status, if_true, rowAdvanced, if_neg part]

end

theorem configRequest_claim (dword : BitVec 12) (s : State) :
    ((s.power.perstHeld = true ∨ now s < s.power.perstAt + 10 ^ 8) → exec (.configRequest dword) s = .next (emit s (.config none))) ∧
    (s.power.perstHeld = false → s.power.perstAt + 10 ^ 8 ≤ now s → stageDone s 2 = false → exec (.configRequest dword) s = .next (emit s (.config (some none)))) ∧
    (s.power.perstHeld = false → s.power.perstAt + 10 ^ 8 ≤ now s → stageDone s 2 = true →
      exec (.configRequest dword) s = .next (emit s (.config (some (some (Config.configSpace dword.toNat)))))) := by
  have e : exec (.configRequest dword) s = execConfigRequest dword s := rfl
  rw [e]
  unfold execConfigRequest
  refine ⟨fun h => ?_, fun held late done => ?_, fun held late done => ?_⟩
  · rw [if_pos (by simpa using h)]
  · rw [held, if_neg (by simpa using late), done]
    rfl
  · rw [held, if_neg (by simpa using late), done]
    rfl

theorem aperturesAndConfig : Claims.AperturesAndConfig := by
  refine ⟨fun a off data s => ⟨fun inactive part => ?_, aperture_dead_core, aperture_refused, aperture_taken⟩, configRequest_claim⟩
  rw [aperture_inactive inactive, rowAdvanced, if_neg part]

end Sys2Proof.Machine
end

section
/-! PROOF. Writes of registers over the bulk network (14 R354; 00 R9): which block an offset lies in, and the command that its register takes. -/

namespace Sys2Proof.Machine

open Sys2Proof Sys2Proof.Safety

/-- A register of a command leaves what its command leaves. -/
theorem next_nextOf (c : Instr) (s : State) : Host.Outcome.next (nextOf s (exec c s)) = exec c s := by
  obtain ⟨t, ht, -⟩ := exec_within c s
  rw [ht]
  rfl

theorem fin_ofNat_eq {n : Nat} [NeZero n] {x : Nat} {i : Fin n} (h : x = i) : Fin.ofNat n x = i := by
  subst h
  exact Fin.ext (Nat.mod_eq_of_lt i.isLt)

theorem bits_low (v k : Nat) : bits v k 0 = v % 2 ^ (k + 1) := rfl
theorem fin_ofNat_bits {n : Nat} [NeZero n] (v k : Nat) (h : n = 2 ^ (k + 1)) : Fin.ofNat n (bits v k 0) = Fin.ofNat n v := by
  refine Fin.ext ?_
  show bits v k 0 % n = v % n
  rw [bits_low, ← h, Nat.mod_mod]

theorem bit_eq_mod (v i : Nat) : bit v i = decide (v / 2 ^ i % 2 = 1) := by
  unfold bit
  rw [Nat.testBit_eq_decide_div_mod_eq]

/-! The block of an offset (16 Table: BAR0 map). -/

section
variable (s : State) (src : Nat) (v : Word)

/-- Where the two HST registers of a command lie. -/
theorem hstCommands_at : hstOff HST_CANCEL = 0xA0008 ∧ hstOff HST_CLEAR = 0xA0000 + HST_CLEAR := ⟨rfl, rfl⟩

theorem writeReg_queue (q : HwQueue) (w : Nat) (hw : w < 8) : writeReg s src (queOff q w) v = writeQueue s src q w v := by
  have := q.isLt
  generalize ho : queOff q w = o
  replace ho : 0x10000 + q * 0x40 + w * 8 = o := ho
  unfold writeReg
  dsimp only
  rw [if_pos (by omega), fin_ofNat_eq (i := q) (by omega), show o % 0x40 / 8 = w by omega]

theorem writeReg_sq (q : HostQueue) (w : Nat) (hw : w < 8) : writeReg s src (sqOff q w) v = writeSq s q w v := by
  have := q.isLt
  generalize ho : sqOff q w = o
  replace ho : 0x40000 + q * 0x40 + w * 8 = o := ho
  unfold writeReg
  dsimp only
  rw [if_neg (by omega), if_pos (by omega), fin_ofNat_eq (i := q) (by omega), show o % 0x40 / 8 = w by omega]

theorem writeReg_cq (q : HostQueue) (w : Nat) (hw : w < 4) : writeReg s src (cqOff q w) v = writeCq s q w v := by
  have := q.isLt
  generalize ho : cqOff q w = o
  replace ho : 0x80000 + q * 0x20 + w * 8 = o := ho
  unfold writeReg
  dsimp only
  rw [if_neg (by omega), if_neg (by omega), if_pos (by omega), fin_ofNat_eq (i := q) (by omega), show o % 0x20 / 8 = w by omega]

/-- Above the host interface's first registers no offset is one of HST_CANCEL and HST_CLEAR. -/
theorem writeReg_above (off : Nat) (h : 0xB0000 ≤ off) : writeReg s src off v =
    if off < 0xC0000 then writeAperture s (Fin.ofNat 16 ((off - 0xB0000) / 0x1000)) (off % 0x1000) v
    else if 0xE0000 ≤ off ∧ off < 0xE8000 then writeMsix s ((off - 0xE0000) / 16) (off % 16 / 8) v.toNat
    else if 0x100000 ≤ off ∧ off < 0x102000 then writeWindow s (off - 0x100000) v.toNat
    else if 0x200000 ≤ off ∧ off < 0x210000 then writeStrandCtl s (off % 0x10000) v.toNat
    else if 0x1000000 ≤ off ∧ off < 0x1400000 then writeCore s (Fin.ofNat 64 ((off - 0x1000000) / 0x10000)) (off % 0x10000) v
    else if 0x2000000 ≤ off ∧ off < 0x2800000 then writeLink s (Fin.ofNat 8 ((off - 0x2000000) / 0x100000)) (off % 0x100000) v
    else if 0x2800000 ≤ off ∧ off < 0x2880000 then
      (if off % 0x10000 = MIF_CLEAR then nextOf s (execMifClear (Fin.ofNat 8 ((off - 0x2800000) / 0x10000)) v s) else s)
    else if 0x3800000 ≤ off ∧ off < 0x3840000 then
      (if off % 0x10000 = FAR_CLEAR then nextOf s (execFarClear (Fin.ofNat 4 ((off - 0x3800000) / 0x10000)) v s) else s)
    else if 0x3C00000 ≤ off then writeMgt s off v
    else s := by
  obtain ⟨cancel, clear⟩ := hstCommands_at
  unfold writeReg
  dsimp only
  iterate 3 rw [if_neg (by omega)]
  rw [if_neg (by omega), if_neg (by rw [clear, HST_CLEAR]; omega)]
  by_cases hc : off < 0xC0000
  · rw [if_pos ⟨h, hc⟩, if_pos hc]
  · rw [if_neg (by omega), if_neg hc]

theorem writeReg_core (c : CoreId) (o : Nat) (ho : o < 0x10000) : writeReg s src (coreOff c o) v = writeCore s c o v := by
  have := c.isLt
  generalize hk : coreOff c o = k
  replace hk : 0x1000000 + c * 0x10000 + o = k := hk
  rw [writeReg_above s src v k (by omega)]
  iterate 4 rw [if_neg (by omega)]
  rw [if_pos (by omega), fin_ofNat_eq (i := c) (by omega), show k % 0x10000 = o by omega]

theorem writeReg_coreReg (c : CoreId) (o : Nat) (ho : o < 0x2000) : writeReg s src (coreOff c o) v = writeCoreReg s c o v := by
  rw [writeReg_core s src v c o (by omega)]
  unfold writeCore
  rw [if_neg (by omega), if_neg (by omega), if_neg (by omega)]

theorem writeReg_region (c : CoreId) (m : Fin 3) (r : RegionId) (w : Fin 8) :
    writeReg s src (regionOff c m r w) v = nextOf s (execRegionEntryWrite c m r w v s) := by
  have h1 := m.isLt
  have h2 := r.isLt
  have h3 := w.isLt
  rw [regionOff, writeReg_core s src v c _ (by omega)]
  unfold writeCore
  rw [if_pos (by omega), fin_ofNat_eq (i := m) (by omega), fin_ofNat_eq (i := r) (by omega), fin_ofNat_eq (i := w) (by omega)]

theorem writeReg_window (c : CoreId) (n : WindowId) (w : Fin 4) : writeReg s src (windowOff c n w) v = nextOf s (execWindowEntryWrite c n w v s) := by
  have h1 := n.isLt
  have h2 := w.isLt
  rw [windowOff, writeReg_core s src v c _ (by omega)]
  unfold writeCore
  rw [if_neg (by omega), if_pos (by omega), fin_ofNat_eq (i := n) (by omega), fin_ofNat_eq (i := w) (by omega)]

theorem writeReg_marker (c : CoreId) (k : MarkerId) : writeReg s src (markerOff c k) v = nextOf s (execStitchMarkerWrite c k v s) := by
  have := k.isLt
  rw [markerOff, writeReg_core s src v c _ (by omega)]
  unfold writeCore
  rw [if_neg (by omega), if_neg (by omega), if_pos (by omega), fin_ofNat_eq (i := k) (by omega)]

theorem writeReg_aperture (a : Fin 16) : writeReg s src (apOff a) v = setReg s (apOff a) (bits v.toNat 31 0) := by
  have := a.isLt
  have at_ : apOff a = 0xB0000 + a * 0x1000 := rfl
  rw [writeReg_above s src v _ (by omega), if_pos (by omega)]
  unfold writeAperture
  rw [if_pos (by omega), fin_ofNat_eq (i := a) (by omega)]

theorem writeReg_link (d : LnkDie) (o : Nat) (ho : o < 0x100000) : writeReg s src (lnkOff d o) v = writeLink s d o v := by
  have := d.isLt
  generalize hk : lnkOff d o = k
  replace hk : 0x2000000 + d * 0x100000 + o = k := hk
  rw [writeReg_above s src v k (by omega)]
  iterate 5 rw [if_neg (by omega)]
  rw [if_pos (by omega), fin_ofNat_eq (i := d) (by omega), show k % 0x100000 = o by omega]

theorem writeReg_merge (d : LnkDie) (x : Fin 8) (w : Nat) (hw : w < 4) : writeReg s src (mergeOff d x w) v =
    if w = 0 then nextOf s (execMergeContextOpen d x v s) else setReg s (mergeOff d x w) (if w = 3 then bits v.toNat 47 0 else bits v.toNat 35 0) := by
  have := x.isLt
  rw [mergeOff, writeReg_link s src v d _ (by omega)]
  unfold writeLink
  rw [if_neg (by rw [LNK_PORT_CLEAR]; omega), if_neg (by rw [LNK_PORT_CLEAR]; omega), if_neg (by rw [LNK_DIE_CLEAR]; omega), if_neg (by omega),
    if_pos (by omega)]
  dsimp only
  rw [show (0x3000 + x.val * 0x20 + w * 8) % 0x20 / 8 = w by omega, show (0x3000 + x.val * 0x20 + w * 8 - 0x3000) / 0x20 = x by omega,
    fin_ofNat_eq (i := x) rfl]
  rfl

theorem writeReg_mif (k : StackId) : writeReg s src (mifOff k MIF_CLEAR) v = nextOf s (execMifClear k v s) := by
  have := k.isLt
  generalize ho : mifOff k MIF_CLEAR = i
  replace ho : 0x2800000 + k * 0x10000 + 0x58 = i := ho
  rw [writeReg_above s src v i (by omega)]
  iterate 6 rw [if_neg (by omega)]
  rw [if_pos (by omega), if_pos (by show i % 0x10000 = 0x58; omega), fin_ofNat_eq (i := k) (by omega)]

theorem writeReg_far (p : FarPort) : writeReg s src (farOff p FAR_CLEAR) v = nextOf s (execFarClear p v s) := by
  have := p.isLt
  generalize ho : farOff p FAR_CLEAR = i
  replace ho : 0x3800000 + p * 0x10000 + 0x40 = i := ho
  rw [writeReg_above s src v i (by omega)]
  iterate 7 rw [if_neg (by omega)]
  rw [if_pos (by omega), if_pos (by show i % 0x10000 = 0x40; omega), fin_ofNat_eq (i := p) (by omega)]

theorem writeReg_mgt (off : Nat) (h : 0x3C00000 ≤ off) : writeReg s src off v = writeMgt s off v := by
  rw [writeReg_above s src v off (by omega)]
  iterate 8 rw [if_neg (by omega)]
  rw [if_pos h]

theorem writeReg_router (e : DieId) : writeReg s src (rtrOff e MGT_RTR_CLEAR) v = nextOf s (execMgtRtrClear e v s) := by
  have := e.isLt
  have at_ : rtrOff e MGT_RTR_CLEAR = 0x3C01000 + e * 0x100 + 0x38 := rfl
  rw [writeReg_mgt s src v _ (by omega)]
  unfold writeMgt
  rw [if_neg (by rw [MGT_REFTIME_LOAD]; omega), if_neg (by rw [MGT_REFTIME_SLEW]; omega), if_pos (by omega), if_pos (by show rtrOff e MGT_RTR_CLEAR % 0x100 = 0x38; omega),
    fin_ofNat_eq (i := e) (by omega)]

theorem writeReg_strandCtl (o : Nat) (ho : o < 0x10000) : writeReg s src (strandOff o) v = writeStrandCtl s o v.toNat := by
  generalize hk : strandOff o = k
  replace hk : 0x200000 + o = k := hk
  rw [writeReg_above s src v k (by omega)]
  iterate 3 rw [if_neg (by omega)]
  rw [if_pos (by omega), show k % 0x10000 = o by omega]

theorem writeReg_low (off : Nat) (h : off < 0x10000) : writeReg s src off v = s := by
  obtain ⟨cancel, clear⟩ := hstCommands_at
  unfold writeReg
  dsimp only
  iterate 4 rw [if_neg (by omega)]
  rw [if_neg (by omega)]
  iterate 9 rw [if_neg (by omega)]

end

/-! The commands behind a core's registers. -/

/-- The CLEAR registers of a core block and SPM_OP2, with the command of each. -/
noncomputable def coreCommands (c : CoreId) (v : Word) : List (Nat × Instr) :=
  [(CORE_PACE_CLEAR, .corePaceClear c v), (CORE_NUM_CLEAR, .coreNumClear c v), (CORE_FMT_CLEAR, .coreFmtClear c v),
    (CORE_LANE_CLEAR, .coreLaneClear c v), (CORE_ACC_CLEAR, .coreAccClear c v), (CORE_RFU_CLEAR, .coreRfuClear c v), (SPM_CLEAR, .spmClear c v),
    (LOOP_CLEAR, .loopClear c v), (FET_CLEAR, .fetClear c v), (QUE_CLEAR, .queClear c v), (LCE_CLEAR, .lceClear c v),
    (CORE_XLT_CLEAR, .coreXltClear c v), (SPM_OP2, .spmOpStart c v)]

theorem writeCoreReg_command (s : State) (c : CoreId) (v : Word) : ∀ r ∈ coreCommands c v, r.1 < 0x2000 ∧ writeCoreReg s c r.1 v = nextOf s (exec r.2 s) := by
  unfold coreCommands
  simp only [List.forall_mem_cons]
  exact ⟨⟨by decide, rfl⟩, ⟨by decide, rfl⟩, ⟨by decide, rfl⟩, ⟨by decide, rfl⟩, ⟨by decide, rfl⟩, ⟨by decide, rfl⟩, ⟨by decide, rfl⟩, ⟨by decide, rfl⟩,
    ⟨by decide, rfl⟩, ⟨by decide, rfl⟩, ⟨by decide, rfl⟩, ⟨by decide, rfl⟩, ⟨by decide, rfl⟩, by simp⟩

theorem writeCoreReg_readOnly (s : State) (c : CoreId) (v : Word) : ∀ r ∈ [CORE_PACE_STATUS, CORE_VCORE, LOOP_STATUS, FET_STATUS, SPM_STATUS, SPM_OP_STATUS],
    r < 0x2000 ∧ writeCoreReg s c r v = s := by
  simp only [List.forall_mem_cons]
  exact ⟨⟨by decide, rfl⟩, ⟨by decide, rfl⟩, ⟨by decide, rfl⟩, ⟨by decide, rfl⟩, ⟨by decide, rfl⟩, ⟨by decide, rfl⟩, by simp⟩

/-! The statement's clauses, block by block: a packet that is new has written the register at its offset. -/

section
variable {t : BulkTag} {off : BitVec 26} {value : Word} {s : State} {o : Nat} {u : State} (ho : off.toNat / 8 * 8 = o)
  (hu : tookPacket s (ownerDie off.toNat) t = u) (new : NewPacket s (ownerDie off.toNat) t)
include ho hu new

theorem registerWrite_is : exec (.registerWrite t off value) s = .next (writeReg u t.src o value) := by
  subst ho hu
  exact congrArg Host.Outcome.next (onBulk_new _ new)

/-- A register that has a command takes that command's effect. -/
theorem registerWrite_does {c : Instr} (h : writeReg u t.src o value = nextOf u (exec c u)) : exec (.registerWrite t off value) s = exec c u := by
  rw [registerWrite_is ho hu new, h, next_nextOf]

theorem registerWrite_keeps {x : State} (h : writeReg u t.src o value = x) : exec (.registerWrite t off value) s = .next x := by
  rw [registerWrite_is ho hu new, h]

theorem registerWrite_core (c : CoreId) :
    (∀ r ∈ coreCommands c value, o = coreOff c r.1 → exec (.registerWrite t off value) s = exec r.2 u) ∧
    (o = coreOff c SPM_OP0 → exec (.registerWrite t off value) s = .next (setReg u o (bits value.toNat 45 0))) ∧
    (o = coreOff c SPM_OP1 → exec (.registerWrite t off value) s = .next (setReg u o (bits value.toNat 19 0))) ∧
    (o = coreOff c QUE_TAG_PAGE → exec (.registerWrite t off value) s = .next (setReg u o (bits value.toNat 2 0))) ∧
    (o = coreOff c SPM_PWR_CTL →
      (bits value.toNat 9 8 = 1 → exec (.registerWrite t off value) s = exec (.bankPowerDown c (Fin.ofNat 4 value.toNat) (Fin.ofNat 64 (bits value.toNat 7 2))) u) ∧
      (bits value.toNat 9 8 = 2 → exec (.registerWrite t off value) s = exec (.bankPowerUp c (Fin.ofNat 4 value.toNat) (Fin.ofNat 64 (bits value.toNat 7 2))) u)) ∧
    (o = coreOff c SPM_WIN_CTL →
      (bits value.toNat 7 6 = 1 → exec (.registerWrite t off value) s = exec (.winOpen c (Fin.ofNat 64 value.toNat) false) u) ∧
      (bits value.toNat 7 6 = 2 → exec (.registerWrite t off value) s = exec (.winClose c (Fin.ofNat 64 value.toNat)) u)) ∧
    (∀ (m : Fin 3) (r : RegionId) (w : Fin 8), o = regionOff c m r w → exec (.registerWrite t off value) s = exec (.regionEntryWrite c m r w value) u) ∧
    (∀ (n : WindowId) (w : Fin 4), o = windowOff c n w → exec (.registerWrite t off value) s = exec (.windowEntryWrite c n w value) u) ∧
    (∀ k : MarkerId, o = markerOff c k → exec (.registerWrite t off value) s = exec (.stitchMarkerWrite c k value) u) ∧
    (∀ r ∈ [CORE_PACE_STATUS, CORE_VCORE, LOOP_STATUS, FET_STATUS, SPM_STATUS, SPM_OP_STATUS], o = coreOff c r →
      exec (.registerWrite t off value) s = .next u) := by
  have named : ∀ r, r < 0x2000 → o = coreOff c r → writeReg u t.src o value = writeCoreReg u c r value := fun r hr h => by
    rw [h, writeReg_coreReg u t.src value c r hr]
  refine ⟨fun r hr h => ?_, fun h => ?_, fun h => ?_, fun h => ?_, fun h => ⟨fun hc => ?_, fun hc => ?_⟩, fun h => ⟨fun hc => ?_, fun hc => ?_⟩, fun m r w h => ?_,
    fun n w h => ?_, fun k h => ?_, fun r hr h => ?_⟩
  · obtain ⟨low, does⟩ := writeCoreReg_command u c value r hr
    exact registerWrite_does ho hu new ((named _ low h).trans does)
  · exact registerWrite_keeps ho hu new ((named _ (by decide) h).trans (by rw [h]; rfl))
  · exact registerWrite_keeps ho hu new ((named _ (by decide) h).trans (by rw [h]; rfl))
  · exact registerWrite_keeps ho hu new ((named _ (by decide) h).trans (by rw [h]; rfl))
  · refine registerWrite_does ho hu new ((named _ (by decide) h).trans ?_)
    show writeBankPower u c value.toNat = _
    unfold writeBankPower
    rw [if_pos hc, fin_ofNat_bits (n := 4) _ 1 rfl]
    rfl
  · refine registerWrite_does ho hu new ((named _ (by decide) h).trans ?_)
    show writeBankPower u c value.toNat = _
    unfold writeBankPower
    rw [if_neg (by omega), if_pos hc, fin_ofNat_bits (n := 4) _ 1 rfl]
    rfl
  · refine registerWrite_does ho hu new ((named _ (by decide) h).trans ?_)
    show writeWinCtl u c value.toNat = _
    unfold writeWinCtl
    rw [if_pos hc, fin_ofNat_bits (n := 64) _ 5 rfl]
    rfl
  · refine registerWrite_does ho hu new ((named _ (by decide) h).trans ?_)
    show writeWinCtl u c value.toNat = _
    unfold writeWinCtl
    rw [if_neg (by omega), if_pos hc, fin_ofNat_bits (n := 64) _ 5 rfl]
    rfl
  · exact registerWrite_does ho hu new (by rw [h, writeReg_region]; rfl)
  · exact registerWrite_does ho hu new (by rw [h, writeReg_window]; rfl)
  · exact registerWrite_does ho hu new (by rw [h, writeReg_marker]; rfl)
  · obtain ⟨low, same⟩ := writeCoreReg_readOnly u c value r hr
    exact registerWrite_keeps ho hu new ((named _ low h).trans same)

theorem registerWrite_queue (q : HwQueue) :
    (o = queOff q 0 → exec (.registerWrite t off value) s = exec (.queueEnable q value) u) ∧
    (o = queOff q 3 →
      (value.toNat % 4 = 1 → exec (.registerWrite t off value) s =
        exec (.discard q (if t.src.val = coreDie (queCore q) ∧ (core u (queCore q)).task.isSome = true then .task else .software)) u) ∧
      (value.toNat % 4 = 2 → exec (.registerWrite t off value) s = exec (.queueFlush q) u) ∧
      (value.toNat % 4 = 3 → exec (.registerWrite t off value) s = exec (.queueRelease q (BitVec.ofNat 13 (value.toNat / 4))) u)) ∧
    (∀ w, producerAt u t.src q = some w →
      (o = queOff q 4 → exec (.registerWrite t off value) s = exec (.openPacket q w) u) ∧
      (o = queOff q 5 → exec (.registerWrite t off value) s = exec (.data q w value) u) ∧
      (o = queOff q 6 → exec (.registerWrite t off value) s = exec (.close q w) u)) := by
  have named : ∀ w, w < 8 → o = queOff q w → writeReg u t.src o value = writeQueue u t.src q w value := fun w hw h => by
    rw [h, writeReg_queue u t.src value q w hw]
  have ctl : ∀ k, value.toNat % 4 = k → bits value.toNat 1 0 = k := fun k hk => hk
  refine ⟨fun h => ?_, fun h => ⟨fun hc => ?_, fun hc => ?_, fun hc => ?_⟩, fun w hw => ⟨fun h => ?_, fun h => ?_, fun h => ?_⟩⟩
  · exact registerWrite_does ho hu new ((named 0 (by decide) h).trans rfl)
  · refine registerWrite_does ho hu new ((named 3 (by decide) h).trans ?_)
    simp only [writeQueue, ctl 1 hc, if_true, if_neg (show ¬(3 : Nat) = 0 by decide)]
    rfl
  · refine registerWrite_does ho hu new ((named 3 (by decide) h).trans ?_)
    simp only [writeQueue, ctl 2 hc, if_true, if_neg (show ¬(3 : Nat) = 0 by decide), if_neg (show ¬(2 : Nat) = 1 by decide)]
    rfl
  · have rows : BitVec.ofNat 13 (bits value.toNat 14 2) = BitVec.ofNat 13 (value.toNat / 4) := by
      refine BitVec.eq_of_toNat_eq ?_
      rw [BitVec.toNat_ofNat, BitVec.toNat_ofNat, bits, Nat.shiftRight_eq_div_pow, Nat.mod_mod]
    refine registerWrite_does ho hu new ((named 3 (by decide) h).trans ?_)
    simp only [writeQueue, ctl 3 hc, if_true, if_neg (show ¬(3 : Nat) = 0 by decide), if_neg (show ¬(3 : Nat) = 1 by decide), if_neg (show ¬(3 : Nat) = 2 by decide), rows]
    rfl
  · exact registerWrite_does ho hu new ((named 4 (by decide) h).trans (by unfold writeQueue; rw [hw]; rfl))
  · exact registerWrite_does ho hu new ((named 5 (by decide) h).trans (by unfold writeQueue; rw [hw]; rfl))
  · exact registerWrite_does ho hu new ((named 6 (by decide) h).trans (by unfold writeQueue; rw [hw]; rfl))

theorem registerWrite_hostQueue (q : HostQueue) :
    (o = sqOff q 0 → exec (.registerWrite t off value) s = exec (.queuePairEnable false q value) u) ∧
    (o = cqOff q 0 → exec (.registerWrite t off value) s = exec (.queuePairEnable true q value) u) ∧
    (o = sqOff q 1 ∨ o = cqOff q 1 → exec (.registerWrite t off value) s = .next (setReg u o (bits value.toNat 51 0))) ∧
    (o = sqOff q 2 → exec (.registerWrite t off value) s = .next (setReg u o (bits value.toNat 35 0))) ∧
    (o = sqOff q 3 → exec (.registerWrite t off value) s = .next u) := by
  refine ⟨fun h => ?_, fun h => ?_, fun h => ?_, fun h => ?_, fun h => ?_⟩
  · exact registerWrite_does ho hu new (by rw [h, writeReg_sq u _ _ q 0 (by decide)]; rfl)
  · exact registerWrite_does ho hu new (by rw [h, writeReg_cq u _ _ q 0 (by decide)]; rfl)
  · rcases h with h | h
    · exact registerWrite_keeps ho hu new (by rw [h, writeReg_sq u _ _ q 1 (by decide)]; rfl)
    · exact registerWrite_keeps ho hu new (by rw [h, writeReg_cq u _ _ q 1 (by decide)]; rfl)
  · exact registerWrite_keeps ho hu new (by rw [h, writeReg_sq u _ _ q 2 (by decide)]; rfl)
  · exact registerWrite_keeps ho hu new (by rw [h, writeReg_sq u _ _ q 3 (by decide)]; rfl)

theorem registerWrite_strandCtl (h : o = strandOff HST_STRAND_CTL) : let v := value.toNat
    let n : StrandId := Fin.ofNat 262144 v
    (bits v 20 18 = 1 → exec (.registerWrite t off value) s = exec (.strandActivate n) u) ∧
    (bits v 20 18 = 2 → exec (.registerWrite t off value) s = exec (.strandUpdate n) u) ∧
    (bits v 20 18 = 3 → exec (.registerWrite t off value) s = exec (.strandFlush n) u) ∧
    (bits v 20 18 = 4 → exec (.registerWrite t off value) s = exec (.strandRelease n) u) := by
  have at_ : writeReg u t.src o value = writeStrandCtl u HST_STRAND_CTL value.toNat := by rw [h, writeReg_strandCtl u _ _ _ (by decide)]
  have n_ : Fin.ofNat 262144 (bits value.toNat 17 0) = Fin.ofNat 262144 value.toNat := fin_ofNat_bits _ 17 rfl
  refine ⟨fun hc => ?_, fun hc => ?_, fun hc => ?_, fun hc => ?_⟩
  all_goals
    refine registerWrite_does ho hu new (at_.trans ?_)
    unfold writeStrandCtl
    rw [if_neg (by decide), if_pos rfl, hc, n_]
    rfl

theorem registerWrite_link (e : LnkDie) :
    (o = portOff (2 * e.val) LNK_PORT_CLEAR → exec (.registerWrite t off value) s = exec (.lnkPortClear (Fin.ofNat 16 (2 * e)) value) u) ∧
    (o = portOff (2 * e.val + 1) LNK_PORT_CLEAR → exec (.registerWrite t off value) s = exec (.lnkPortClear (Fin.ofNat 16 (2 * e + 1)) value) u) ∧
    (o = lnkOff e LNK_DIE_CLEAR → exec (.registerWrite t off value) s = exec (.lnkDieClear e value) u) ∧
    (∀ x : Fin 8, (o = mergeOff e x 0 → exec (.registerWrite t off value) s = exec (.mergeContextOpen e x value) u) ∧
      (o = mergeOff e x 3 → exec (.registerWrite t off value) s = .next (setReg u o (bits value.toNat 47 0))) ∧
      (o = mergeOff e x 1 ∨ o = mergeOff e x 2 → exec (.registerWrite t off value) s = .next (setReg u o (bits value.toNat 35 0)))) := by
  have even : portOff (2 * e.val) LNK_PORT_CLEAR = lnkOff e LNK_PORT_CLEAR := by simp only [portOff, lnkOff]; omega
  have odd : portOff (2 * e.val + 1) LNK_PORT_CLEAR = lnkOff e (0x1000 + LNK_PORT_CLEAR) := by simp only [portOff, lnkOff]; omega
  refine ⟨fun h => ?_, fun h => ?_, fun h => ?_, fun x => ⟨fun h => ?_, fun h => ?_, fun h => ?_⟩⟩
  · exact registerWrite_does ho hu new (by rw [h, even, writeReg_link u _ _ e _ (by decide)]; rfl)
  · exact registerWrite_does ho hu new (by rw [h, odd, writeReg_link u _ _ e _ (by decide)]; rfl)
  · exact registerWrite_does ho hu new (by rw [h, writeReg_link u _ _ e _ (by decide)]; rfl)
  · exact registerWrite_does ho hu new (by rw [h, writeReg_merge u _ _ e x 0 (by decide)]; rfl)
  · exact registerWrite_keeps ho hu new (by rw [h, writeReg_merge u _ _ e x 3 (by decide)]; rfl)
  · rcases h with h | h
    · exact registerWrite_keeps ho hu new (by rw [h, writeReg_merge u _ _ e x 1 (by decide)]; rfl)
    · exact registerWrite_keeps ho hu new (by rw [h, writeReg_merge u _ _ e x 2 (by decide)]; rfl)

theorem registerWrite_lifeline (h : o = llOff MGT_LL_CTL) : let v := value.toNat
    let n : StrandId := Fin.ofNat 262144 v
    (bits v 20 18 = 1 → exec (.registerWrite t off value) s = exec (.arm n) u) ∧
    (bits v 20 18 = 2 → exec (.registerWrite t off value) s = exec (.hold n) u) ∧
    (bits v 20 18 = 3 → exec (.registerWrite t off value) s = exec (.lifelineDisarm n) u) ∧
    (bits v 20 18 = 4 → exec (.registerWrite t off value) s = exec (.restore n) u) := by
  have at_ : writeReg u t.src o value = writeLifeline u MGT_LL_CTL value := by rw [h, writeReg_mgt u _ _ _ (by decide)]; rfl
  have n_ : Fin.ofNat 262144 (bits value.toNat 17 0) = Fin.ofNat 262144 value.toNat := fin_ofNat_bits _ 17 rfl
  refine ⟨fun hc => ?_, fun hc => ?_, fun hc => ?_, fun hc => ?_⟩
  all_goals
    refine registerWrite_does ho hu new (at_.trans ?_)
    unfold writeLifeline
    rw [if_pos rfl, hc, n_]
    rfl

theorem registerWrite_security (h : o = secOff SEC_CTL) :
    (value.toNat % 4 = 1 → exec (.registerWrite t off value) s = exec .fwCommit u) ∧
    (value.toNat % 4 = 2 → exec (.registerWrite t off value) s = exec .relock u) ∧
    (value.toNat % 4 = 0 → exec (.registerWrite t off value) s = .next u) := by
  have at_ : writeReg u t.src o value = writeSecurity u SEC_CTL value := by rw [h, writeReg_mgt u _ _ _ (by decide)]; rfl
  have b0 : bit value.toNat 0 = decide (value.toNat % 2 = 1) := by rw [bit_eq_mod]; simp
  have b1 : bit value.toNat 1 = decide (value.toNat / 2 % 2 = 1) := by rw [bit_eq_mod]; simp
  refine ⟨fun hc => ?_, fun hc => ?_, fun hc => ?_⟩
  · refine registerWrite_does ho hu new (at_.trans ?_)
    simp only [writeSecurity, if_true, b0, b1, decide_eq_true_eq]
    rw [if_neg (by omega), if_pos (by omega)]
    rfl
  · refine registerWrite_does ho hu new (at_.trans ?_)
    simp only [writeSecurity, if_true, b0, b1, decide_eq_true_eq]
    rw [if_pos (by omega), if_neg (by omega)]
    rfl
  · refine registerWrite_keeps ho hu new (at_.trans ?_)
    simp only [writeSecurity, if_true, b0, b1, decide_eq_true_eq]
    rw [if_neg (by omega), if_neg (by omega)]

end

theorem registerWrites : Claims.RegisterWrites := by
  intro t off value s
  generalize ho : off.toNat / 8 * 8 = o
  refine ⟨fun again => ?_, fun new => ?_⟩
  · have dup : (tget [] s.net.bulkRx (pairKey t.src (ownerDie off.toNat))).contains t.seq.val = true := by simpa using again
    refine ⟨bump s (rtrOff (ownerDie off.toNat) MGT_RTR_DUP_COUNT) 1, ?_, bump_parts _ _ _, (reg_bump _ _ _ _).trans (if_pos rfl)⟩
    show execRegisterWrite t off value s = _
    simp only [execRegisterWrite, onBulk, dup, if_true]
  · generalize hu : tookPacket s (ownerDie off.toNat) t = u
    have does : ∀ {c : Instr}, writeReg u t.src o value = nextOf u (exec c u) → exec (.registerWrite t off value) s = exec c u := registerWrite_does ho hu new
    have mgt : ∀ {k}, o = k → 0x3C00000 ≤ k → writeReg u t.src o value = writeMgt u k value := fun h hk => by rw [h, writeReg_mgt u _ _ _ hk]
    have producer : ∀ q : HwQueue, producerAt u t.src q = (if t.src.val = hstDie then some Producer.host else if 88 ≤ t.src.val ∧ t.src.val < 96 then
        some (.strand (Fin.ofNat 262144 (queProdStrand s q))) else (dieCore t.src).map (fun c => .core (Fin.ofNat 64 c))) := fun q => by subst hu; rfl
    refine ⟨registerWrite_core ho hu new, fun q => ?_, registerWrite_hostQueue ho hu new, fun h => does (by rw [h]; rfl), fun h => does (by rw [h]; rfl),
      fun a h => registerWrite_keeps ho hu new (by rw [h, writeReg_aperture]), fun h go => does ?_, registerWrite_strandCtl ho hu new,
      registerWrite_link ho hu new, fun k h => does (by rw [h, writeReg_mif]; rfl), fun p h => does (by rw [h, writeReg_far]; rfl),
      fun h => does ((mgt h (by decide)).trans rfl), fun h => does ((mgt h (by decide)).trans rfl), fun e h => does (by rw [h, writeReg_router]; rfl),
      fun h => does ((mgt h (by decide)).trans rfl), fun h => registerWrite_keeps ho hu new ((mgt h (by decide)).trans (by rw [h]; rfl)),
      registerWrite_lifeline ho hu new, fun h => does ((mgt h (by decide)).trans rfl), fun h => does ((mgt h (by decide)).trans rfl),
      registerWrite_security ho hu new, fun h => ?_⟩
    · obtain ⟨enable, control, ports⟩ := registerWrite_queue (value := value) ho hu new q
      exact ⟨enable, control, fun p hp w hw => ports w ((producer q).trans (hp.symm.trans hw))⟩
    · rw [h]
      show writeWindow u (0x100000 + MGT_DICT_GO - 0x100000) value.toNat = _
      simp only [writeWindow, MGT_DICT_GO, MGT_DICT_HDR0, MGT_DICT_HDR1, go, if_true]
      rfl
    · rcases h with h | h
      · exact registerWrite_keeps ho hu new (writeReg_low u _ _ _ h)
      · exact registerWrite_keeps ho hu new ((mgt h (by decide)).trans rfl)

/-- Settles O33: an aperture's write is dropped or goes through the ingress, and a register's write is its command's effect or a store of its fields.
That plain registers store their fields is the model's (log entry 26). -/
theorem hostWrites : Obligations.HostWrites := ⟨aperturesAndConfig, registerWrites⟩

end Sys2Proof.Machine
end

section
/-! SUPPORT. What an event of the management die leaves as it is (19 R475, R476). -/

namespace Sys2Proof.Machine

open Sys2Proof Sys2Proof.Safety

theorem mgtEvent_logged (s : State) (code severity : Nat) (args : List Nat) : LoggedEvent s (mgtEvent s code severity args) code severity args :=
  raise_mgt_logged ..

/-- The event logged about a state that has the clock and the log of another. -/
theorem mgtEvent_loggedFrom {s u : State} (code severity : Nat) (args : List Nat) (seq : u.dict.eventSeq = s.dict.eventSeq) (time : now u = now s) :
    LoggedEvent s (mgtEvent u code severity args) code severity args := by
  obtain ⟨count, e, last, hcode, hsev, htime, hargs⟩ := mgtEvent_logged u code severity args
  exact ⟨count.trans (by rw [seq]), e, last, hcode, hsev, htime.trans time, hargs⟩

/-- What neither the dictionary's log nor a message holds is as it was. -/
theorem mgtEvent_keeps {β : Type} (g : State → β) (s : State) (code severity : Nat) (args : List Nat) (hd : ∀ (u : State) d, g { u with dict := d } = g u)
    (hm : ∀ u, g (sendMsix u 0) = g u) (ho : ∀ u o, g (emit u o) = g u) : g (mgtEvent s code severity args) = g s := by
  unfold mgtEvent raise
  rw [if_pos rfl]
  exact logEvent_keeps g s _ hd hm ho

/-- Of the dictionary only the log and the marks of its delivery change. -/
theorem mgtEvent_log {β : Type} (g : Dict → β) (s : State) (code severity : Nat) (args : List Nat) (h1 : ∀ d x, g { d with lastEventMsix := x } = g d)
    (h2 : ∀ d x, g { d with tdpSeq := x } = g d) (h3 : ∀ d x y z, g { d with eventSeq := x, overwritten := y, events := z } = g d) :
    g (mgtEvent s code severity args).dict = g s.dict := by
  unfold mgtEvent raise
  rw [if_pos rfl]
  exact (logEvent_log g h1 h2 s _).trans (h3 ..)

theorem mgtEvent_parts (s : State) (code severity : Nat) (args : List Nat) : OnlyParts [.regs, .hst, .dict, .net, .out] s (mgtEvent s code severity args) :=
  Within.onlyParts (l := [.regs, .hst, .dict, .net, .out]) (back := false) (mgtEvent_within rfl s code severity args .refl)

theorem mgtEvent_sec (s : State) (code severity : Nat) (args : List Nat) : (mgtEvent s code severity args).sec = s.sec :=
  mgtEvent_parts s code severity args .sec (by decide)
theorem mgtEvent_divergent (s : State) (code severity : Nat) (args : List Nat) : (mgtEvent s code severity args).dict.divergent = s.dict.divergent :=
  mgtEvent_log (·.divergent) s code severity args (fun _ _ => rfl) (fun _ _ => rfl) (fun _ _ _ _ => rfl)

end Sys2Proof.Machine
end

section
/-! PROOF. The segment: heartbeats, divergence and the time master (19 R471, R483, R484). -/

namespace Sys2Proof.Machine

open Sys2Proof Sys2Proof.Safety

/-! A sender's divergence. -/

theorem setSegment_same {s : State} {dev : Nat} {bad : Bool} (h : s.dict.divergent.contains dev = bad) : setSegment s dev bad = s := if_pos h

/-- A sender that was not divergent becomes so, seen from a state whose log and clock are as they are. -/
theorem setSegment_enters {s u : State} {dev : Nat} (seq : u.dict.eventSeq = s.dict.eventSeq) (time : now u = now s) (h : u.dict.divergent.contains dev = false) :
    (setSegment u dev true).dict.divergent = u.dict.divergent ++ [dev] ∧ LoggedEvent s (setSegment u dev true) 0xB03 2 [dev] := by
  unfold setSegment
  rw [if_neg (by rw [h]; decide)]
  exact ⟨mgtEvent_divergent .., mgtEvent_loggedFrom _ _ _ seq time⟩

theorem setSegment_leaves {s u : State} {dev : Nat} (seq : u.dict.eventSeq = s.dict.eventSeq) (time : now u = now s) (h : u.dict.divergent.contains dev = true) :
    (setSegment u dev false).dict.divergent = u.dict.divergent.filter (· != dev) ∧ LoggedEvent s (setSegment u dev false) 0xB03 2 [dev] := by
  unfold setSegment
  rw [if_neg (by rw [h]; decide)]
  exact ⟨mgtEvent_divergent .., mgtEvent_loggedFrom _ _ _ seq time⟩

theorem differLong_iff (s : State) (dev : Nat) :
    differLong s dev = true ↔ ∃ t, tfind s.dict.peerSince dev = some t ∧ objNat s 0x501005 * 1000000 < now s - t := by
  unfold differLong
  cases h : tfind s.dict.peerSince dev <;> simp

theorem thas_of_tfind {α : Type} (t : Tab α) (k : Nat) (h : tfind t k = none) : thas t k = false := by
  induction t with
  | nil => rfl
  | cons p t ih =>
    obtain ⟨a, v⟩ := p
    unfold tfind at h
    split at h
    · exact absurd h (by simp)
    · next ne =>
      show (a == k || thas t k) = false
      rw [ih h]
      simp [ne]

/-! A heartbeat that arrives, once stage 0 has completed. -/

/-- The state that has counted a heartbeat. -/
def heard (s : State) : State := { s with dict := { s.dict with tdpReceived := s.dict.tdpReceived + 1 } }

section
variable {v2 master : Bool} {dev : BitVec 12} {epoch : BitVec 32} {time : Word} {digest : List Byte} {s : State}

theorem heartbeatReceived_off (h : s.power.stage = 15) : exec (.heartbeatReceived v2 master dev epoch time digest) s = .next s :=
  congrArg Host.Outcome.next (if_pos h)

/-- What R483 and R484 make of it: version 2 is compared, the time master followed. -/
theorem heartbeatReceived_on (h : s.power.stage ≠ 15) : exec (.heartbeatReceived v2 master dev epoch time digest) s =
    .next (if (master && objNat (if v2 then judgeSegment (heard s) dev.toNat epoch.toNat digest else heard s) 0x104001 == 1) = true
      then followMaster (if v2 then judgeSegment (heard s) dev.toNat epoch.toNat digest else heard s) time.toNat
      else if v2 then judgeSegment (heard s) dev.toNat epoch.toNat digest else heard s) :=
  congrArg Host.Outcome.next (if_neg h)

theorem heartbeatReceived_v1 (h : s.power.stage ≠ 15) (other : master = false ∨ objNat s 0x104001 ≠ 1) :
    exec (.heartbeatReceived false master dev epoch time digest) s = .next (heard s) := by
  rw [heartbeatReceived_on h]
  refine congrArg Host.Outcome.next (if_neg ?_)
  rcases other with m | o
  · simp [m]
  · have same : objNat (heard s) 0x104001 = objNat s 0x104001 := rfl
    simp [same, o]

theorem heartbeatReceived_v2 (h : s.power.stage ≠ 15) :
    exec (.heartbeatReceived true false dev epoch time digest) s = .next (judgeSegment (heard s) dev.toNat epoch.toNat digest) := heartbeatReceived_on h

theorem heartbeatReceived_master (h : s.power.stage ≠ 15) (o : objNat s 0x104001 = 1) :
    exec (.heartbeatReceived false true dev epoch time digest) s = .next (followMaster (heard s) time.toNat) := by
  have same : objNat (heard s) 0x104001 = objNat s 0x104001 := rfl
  rw [heartbeatReceived_on h]
  exact congrArg Host.Outcome.next (if_pos (by simp [same, o]))

/-- Equal epochs: the digests decide (R483). -/
theorem judgeSegment_equal (h : epoch.toNat = s.dict.epoch) :
    (digest ≠ configDigest s → s.dict.divergent.contains dev.toNat = false → let t := judgeSegment (heard s) dev.toNat epoch.toNat digest
      t.dict.divergent = s.dict.divergent ++ [dev.toNat] ∧ LoggedEvent s t 0xB03 2 [dev.toNat]) ∧
    (digest = configDigest s → s.dict.divergent.contains dev.toNat = true → let t := judgeSegment (heard s) dev.toNat epoch.toNat digest
      t.dict.divergent = s.dict.divergent.filter (· != dev.toNat) ∧ LoggedEvent s t 0xB03 2 [dev.toNat]) := by
  have same : configDigest (heard s) = configDigest s := rfl
  refine ⟨fun differ hd => ?_, fun agree hd => ?_⟩
  · dsimp only
    unfold judgeSegment
    rw [if_pos (show epoch.toNat = (heard s).dict.epoch from h), same, bne_iff_ne.2 differ]
    exact setSegment_enters rfl rfl hd
  · dsimp only
    unfold judgeSegment
    rw [if_pos (show epoch.toNat = (heard s).dict.epoch from h), same, agree, bne_self_eq_false]
    exact setSegment_leaves rfl rfl hd

/-- Epochs that begin to differ: the time of it is kept, and nothing is told yet. -/
theorem judgeSegment_first (h : epoch.toNat ≠ s.dict.epoch) (new : tfind s.dict.peerSince dev.toNat = none) (hd : s.dict.divergent.contains dev.toNat = false) :
    judgeSegment (heard s) dev.toNat epoch.toNat digest =
      { heard s with dict := { (heard s).dict with peerSince := tset s.dict.peerSince dev.toNat (now s) } } := by
  have none_ : thas (heard s).dict.peerSince dev.toNat = false := thas_of_tfind _ _ new
  unfold judgeSegment
  rw [if_neg (show epoch.toNat ≠ (heard s).dict.epoch from h), none_]
  refine setSegment_same (hd.trans (Eq.symm ?_))
  rw [Bool.eq_false_iff, Ne, differLong_iff]
  rintro ⟨t, ht, late⟩
  have since : tfind (tset s.dict.peerSince dev.toNat (now s)) dev.toNat = some t := ht
  rw [tfind_tset, if_pos rfl, Option.some.injEq] at since
  have passed : objNat s 0x501005 * 1000000 < now s - t := late
  omega

/-- The master's time: the first loads REFTIME, a later one slews what exceeds 1 µs (R484). -/
theorem followMaster_parts (s : State) (v : Nat) : OnlyParts [.clock, .dict] s (followMaster (heard s) v) := by
  have loads (u : State) : OnlyParts [.clock] u (loadTime u v) :=
    Within.onlyParts (l := [.clock]) (back := false) (loadTime_within rfl u v .refl)
  unfold followMaster
  split
  · exact OnlyParts.trans (l := [.dict]) (fun r hr => by cases r <;> first | (exfalso; simp at hr; done) | rfl) (loads _) (by decide) (by decide)
  · dsimp only
    split <;> intro r hr <;> cases r <;> first | (exfalso; simp at hr; done) | rfl

theorem followMaster_loads (v : Nat) (h : s.clock.locked = false) (ahead : now s ≤ v) :
    now (followMaster (heard s) v) = v ∧ (followMaster (heard s) v).clock.locked = true := by
  have open_ : (heard s).clock.locked = false := h
  unfold followMaster
  rw [open_]
  unfold loadTime
  rw [if_pos (by decide), open_, if_neg (by decide), if_pos (show (heard s).clock.reftime ≤ v from ahead)]
  exact ⟨rfl, rfl⟩

theorem followMaster_slews (v : Nat) (h : s.clock.locked = true) : (1000 < ((v : Int) - now s).natAbs → (followMaster (heard s) v).clock.slew = ((v : Int) - now s) * 1000) ∧
    (((v : Int) - now s).natAbs ≤ 1000 → (followMaster (heard s) v).clock = s.clock) := by
  have shut : (heard s).clock.locked = true := h
  unfold followMaster
  rw [shut, if_neg (by decide)]
  refine ⟨fun far => ?_, fun near => ?_⟩
  · dsimp only
    rw [show now (heard s) = now s from rfl, if_pos far]
    rfl
  · dsimp only
    rw [show now (heard s) = now s from rfl, if_neg (Nat.not_lt.2 near)]
    rfl

end

/-- Settles O40: the heartbeat leaves by sendHeartbeat, one received is judged by setSegment, and the master's moves the clock. -/
theorem segment : Obligations.Segment := by
  refine ⟨fun s => ⟨fun h => ?_, fun h => ?_⟩, fun v2 master dev epoch time digest s => ⟨heartbeatReceived_off, ?_, ?_, ?_, ?_⟩, fun dev s => ⟨?_, ?_⟩⟩
  · exact congrArg Host.Outcome.next (if_pos h)
  · refine ⟨_, congrArg Host.Outcome.next (if_neg h), fun r hr => ?_, rfl, rfl⟩
    cases r <;> first | (exfalso; simp at hr; done) | rfl
  · rintro h rfl other
    exact heartbeatReceived_v1 h other
  · rintro h rfl rfl same
    obtain ⟨enters, leaves⟩ := judgeSegment_equal (dev := dev) (digest := digest) same
    exact ⟨fun differ hd => ⟨_, heartbeatReceived_v2 h, enters differ hd⟩, fun agree hd => ⟨_, heartbeatReceived_v2 h, leaves agree hd⟩⟩
  · rintro h rfl rfl differ new hd
    refine ⟨_, (heartbeatReceived_v2 h).trans (congrArg Host.Outcome.next (judgeSegment_first differ new hd)), fun r hr => ?_, ?_, rfl⟩
    · cases r <;> first | (exfalso; simp at hr; done) | rfl
    · exact (tfind_tset ..).trans (if_pos rfl)
  · rintro h rfl rfl o
    exact ⟨_, heartbeatReceived_master h o, followMaster_parts s _, followMaster_loads _, followMaster_slews _⟩
  · intro quiet
    refine congrArg Host.Outcome.next ?_
    split
    · next late =>
      obtain ⟨t, ht, passed⟩ := (differLong_iff ..).1 late
      rcases quiet with hd | soon
      · exact setSegment_same hd
      · exact absurd (soon t ht) (by omega)
    · rfl
  · intro t0 hd since late
    have due : differLong s dev.toNat = true := (differLong_iff ..).2 ⟨t0, since, late⟩
    exact ⟨_, congrArg Host.Outcome.next (if_pos due), setSegment_enters rfl rfl hd⟩

end Sys2Proof.Machine
end

section
/-! PROOF. Debug unlocks and the test multiplexer (20 R510 to R512). -/

namespace Sys2Proof.Machine

open Sys2Proof Sys2Proof.Safety

/-! Octets of a selection. -/

theorem bits_octet (w k : Nat) : bits w (8 * k + 7) (8 * k) = w / 256 ^ k % 256 := by
  unfold bits
  rw [show 8 * k + 7 + 1 - 8 * k = 8 by omega, Nat.shiftRight_eq_div_pow, Nat.pow_mul]
  rfl

theorem putBits_octet (w k v : Nat) : putBits w (8 * k + 7) (8 * k) v = w / 256 ^ k / 256 * (256 * 256 ^ k) + v % 256 * 256 ^ k + w % 256 ^ k := by
  unfold putBits
  rw [bits_octet, show 8 * k + 7 + 1 - 8 * k = 8 by omega, show 2 ^ (8 * k) = 256 ^ k by rw [Nat.pow_mul]]
  generalize 256 ^ k = p
  have whole : w = w / p / 256 * (256 * p) + w / p % 256 * p + w % p := by
    have h1 := Nat.div_add_mod w p
    have h2 := Nat.div_add_mod (w / p) 256
    calc w = p * (256 * (w / p / 256) + w / p % 256) + w % p := by rw [h2, h1]
      _ = _ := by ring
  have cut : w - w / p % 256 * p = w / p / 256 * (256 * p) + w % p := by omega
  rw [cut]
  show _ + v % 256 * p = _
  ring

theorem octet_putBits (w k j v : Nat) : bits (putBits w (8 * k + 7) (8 * k) v) (8 * j + 7) (8 * j) = if j = k then v % 256 else bits w (8 * j + 7) (8 * j) := by
  rw [bits_octet, bits_octet, putBits_octet]
  rcases Nat.lt_trichotomy j k with lt | rfl | gt
  · rw [if_neg (Nat.ne_of_lt lt)]
    obtain ⟨d, rfl⟩ : ∃ d, k = j + 1 + d := ⟨k - (j + 1), by omega⟩
    have low (x : Nat) : x / 256 ^ j % 256 = x % (256 ^ j * 256) / 256 ^ j := (Nat.mod_mul_right_div_self x (256 ^ j) 256).symm
    have factor : 256 ^ (j + 1 + d) = 256 ^ j * 256 * 256 ^ d := by rw [Nat.pow_add, Nat.pow_succ]
    rw [low, low w, factor]
    congr 1
    generalize 256 ^ j * 256 = m, 256 ^ d = e
    rw [show w / (m * e) / 256 * (256 * (m * e)) + v % 256 * (m * e) + w % (m * e) = w % (m * e) + m * (w / (m * e) / 256 * (256 * e) + v % 256 * e) by ring,
      Nat.add_mul_mod_self_left, Nat.mod_mul_right_mod]
  · rw [if_pos rfl]
    have rest : w % 256 ^ j < 256 ^ j := Nat.mod_lt _ (by positivity)
    generalize 256 ^ j = p at *
    have pos : 0 < p := by omega
    rw [show w / p / 256 * (256 * p) + v % 256 * p + w % p = w % p + p * (w / p / 256 * 256 + v % 256) by ring, Nat.add_mul_div_left _ _ pos, Nat.div_eq_of_lt rest]
    omega
  · rw [if_neg (Nat.ne_of_gt gt)]
    obtain ⟨d, rfl⟩ : ∃ d, j = k + 1 + d := ⟨j - (k + 1), by omega⟩
    have high (x : Nat) : x / 256 ^ (k + 1 + d) = x / 256 ^ k / 256 / 256 ^ d := by
      rw [Nat.pow_add, Nat.pow_succ, Nat.div_div_eq_div_mul, Nat.div_div_eq_div_mul, Nat.mul_assoc]
    rw [high, high w]
    have rest : w % 256 ^ k < 256 ^ k := Nat.mod_lt _ (by positivity)
    generalize 256 ^ k = p at *
    have pos : 0 < p := by omega
    rw [show w / p / 256 * (256 * p) + v % 256 * p + w % p = w % p + p * (w / p / 256 * 256 + v % 256) by ring, Nat.add_mul_div_left _ _ pos, Nat.div_eq_of_lt rest,
      show (0 + (w / p / 256 * 256 + v % 256)) / 256 = w / p / 256 by omega]

/-- Octets of a list replaced one after the other. -/
theorem octet_replaced (f : Nat → Nat) (l : List Nat) (w j : Nat) (small : f j < 256) :
    bits (l.foldl (fun v k => putBits v (8 * k + 7) (8 * k) (f k)) w) (8 * j + 7) (8 * j) = if j ∈ l then f j else bits w (8 * j + 7) (8 * j) := by
  induction l generalizing w with
  | nil => simp
  | cons k l ih =>
    rw [List.foldl_cons, ih, octet_putBits]
    by_cases later : j ∈ l
    · simp [later]
    · by_cases here : j = k
      · subst here
        simp [later, Nat.mod_eq_of_lt small]
      · simp [later, here]

theorem mem_tmuxLocked (w k : Nat) : k ∈ tmuxLocked w ↔ k < 8 ∧ 0x20 ≤ bits w (8 * k + 7) (8 * k) := by simp [tmuxLocked]

theorem octet_lt (w k : Nat) : bits w (8 * k + 7) (8 * k) < 256 := by
  rw [bits_octet]
  omega

/-! The nonce (R510). -/

/-- Free words taken one after the other become octets, eight a word. -/
theorem freeWords_taken (l : List Nat) (a : List Byte × State) : ∃ o n, o.length = 8 * l.length ∧
    l.foldl (fun (a : List Byte × State) _ => let f := freshFree a.2
      (a.1 ++ leBytes 8 f.1, f.2)) a = (a.1 ++ o, { a.2 with freeIdx := n }) := by
  induction l generalizing a with
  | nil => exact ⟨[], a.2.freeIdx, rfl, by simp⟩
  | cons x l ih =>
    obtain ⟨o, n, length, taken⟩ := ih (a.1 ++ leBytes 8 (freshFree a.2).1, (freshFree a.2).2)
    refine ⟨leBytes 8 (freshFree a.2).1 ++ o, n, ?_, ?_⟩
    · rw [List.length_append, length, leBytes_length, List.length_cons]
      ring
    · rw [List.foldl_cons]
      exact taken.trans (by rw [List.append_assoc]; rfl)

theorem newNonce_is (s : State) : ∃ l n, l.length = 48 ∧ (newNonce s).2 = { s with freeIdx := n, sec := { s.sec with nonce := some l } } := by
  obtain ⟨l, n, length, taken⟩ := freeWords_taken (List.range 6) ([], s)
  refine ⟨l, n, length, ?_⟩
  unfold newNonce
  rw [taken]
  rfl

/-! A response (R510), and the end of an unlock (R511). -/

section
variable {nonce : List Byte} {serial : Word} {level : Byte} {dur : BitVec 32} {ok : Bool} {s : State}

theorem unlockResponse_unchecked (h : s.sec.refusals = 3) : exec (.unlockResponse nonce serial level dur ok) s = .next (mgtEvent s 0xC04 2 []) := by
  show Host.Outcome.next (unlockTry s nonce _ _ _ ok).2 = _
  unfold unlockTry
  rw [if_pos h]

theorem unlockResponse_accepted (h : s.sec.refusals ≠ 3) (good : s.sec.nonce = some nonce ∧ serial.toNat = Config.serial.toNat ∧ level.toNat ≤ 2 ∧ ok = true) :
    exec (.unlockResponse nonce serial level dur ok) s = .next (mgtEvent { s with sec := { s.sec with
      unlockLevel := level.toNat, unlocks := s.sec.unlocks + 1, unlockEnd := now s + dur.toNat * 10 ^ 9, nonce := none } } 0xC03 1 []) := by
  show Host.Outcome.next (unlockTry s nonce _ _ _ ok).2 = _
  unfold unlockTry
  rw [if_neg h, if_pos good]

theorem unlockResponse_refused (h : s.sec.refusals < 3)
    (bad : ¬(s.sec.nonce = some nonce ∧ serial.toNat = Config.serial.toNat ∧ level.toNat ≤ 2 ∧ ok = true)) :
    exec (.unlockResponse nonce serial level dur ok) s = .next (mgtEvent { s with sec := { s.sec with refusals := s.sec.refusals + 1, nonce := none } } 0xC04 2 []) := by
  show Host.Outcome.next (unlockTry s nonce _ _ _ ok).2 = _
  unfold unlockTry refuseUnlock
  rw [if_neg (by omega), if_neg bad, Nat.min_eq_right h]

end

theorem relock_ends (s : State) (h : s.sec.unlockLevel ≠ 0) : ∃ t, exec .relock s = .next t ∧ t.sec.unlockLevel = 0 ∧ LoggedEvent s t 0xC05 1 [] ∧
    ∀ k, k < 8 → bits t.sec.tmuxSel (8 * k + 7) (8 * k) = if 0x20 ≤ bits s.sec.tmuxSel (8 * k + 7) (8 * k) then 0 else bits s.sec.tmuxSel (8 * k + 7) (8 * k) := by
  refine ⟨_, congrArg Host.Outcome.next (if_neg h), ?_, mgtEvent_loggedFrom _ _ _ rfl rfl, fun k hk => ?_⟩
  · rw [mgtEvent_sec]
  · rw [mgtEvent_sec]
    refine (octet_replaced (fun _ => 0) _ _ k (by decide)).trans ?_
    simp only [mem_tmuxLocked, hk, true_and]

/-! A selection (R512). -/

/-- The octets that name a locked source, where no unlock of level 2 lets them. -/
def refusedOctets (s : State) (w : Nat) : List Nat := if s.sec.unlockLevel < 2 then tmuxLocked w else []
/-- A selection with the octets of a list as they were. -/
def keptSelection (s : State) (w : Nat) (l : List Nat) : Nat := l.foldl (fun v k => putBits v (8 * k + 7) (8 * k) (bits s.sec.tmuxSel (8 * k + 7) (8 * k))) w

theorem selectTmux_taken (s : State) (w : Word) (dictionary : Bool) (h : refusedOctets s w.toNat = []) :
    selectTmux s w.toNat dictionary = (0, { s with sec := { s.sec with tmuxSel := w.toNat } }) := by
  have none_ : (refusedOctets s w.toNat).isEmpty = true := List.isEmpty_iff.2 h
  unfold selectTmux
  rw [Nat.mod_eq_of_lt w.isLt]
  exact if_pos none_

theorem selectTmux_refused (s : State) (w : Word) (dictionary : Bool) (h : refusedOctets s w.toNat ≠ []) :
    selectTmux s w.toNat dictionary = (stLocked, { s with sec := { s.sec with
      lockReject := true, lockRefused := s.sec.lockRefused + 1,
      tmuxSel := if dictionary then s.sec.tmuxSel else keptSelection s w.toNat (refusedOctets s w.toNat) } }) := by
  have some_ : ¬(refusedOctets s w.toNat).isEmpty = true := fun e => h (List.isEmpty_iff.1 e)
  unfold selectTmux
  rw [Nat.mod_eq_of_lt w.isLt]
  exact if_neg some_

/-- Settles O42: an unlock's end and a selection replace octets of the multiplexer one after the other. -/
theorem debugUnlock : Obligations.DebugUnlock := by
  refine ⟨fun s => ?_, fun nonce serial level dur ok s => ⟨fun h => ?_, fun h good => ?_, fun h bad => ?_⟩, fun s => ⟨fun h => ?_, fun h => ?_, fun h => ?_, relock_ends s⟩,
    fun w dictionary s => ⟨fun free => ?_, fun low ⟨k, hk, locked⟩ => ?_⟩⟩
  · obtain ⟨l, n, length, is⟩ := newNonce_is s
    refine ⟨_, l, congrArg Host.Outcome.next is, fun r hr => ?_, length, rfl⟩
    cases r <;> first | (exfalso; simp at hr; done) | rfl
  · exact ⟨_, unlockResponse_unchecked h, mgtEvent_sec .., mgtEvent_logged ..⟩
  · exact ⟨_, unlockResponse_accepted h good, mgtEvent_loggedFrom _ _ _ rfl rfl, mgtEvent_sec ..⟩
  · exact ⟨_, unlockResponse_refused h bad, mgtEvent_loggedFrom _ _ _ rfl rfl, mgtEvent_sec ..⟩
  · have ended : endUnlock s = s := if_pos h
    refine ⟨congrArg Host.Outcome.next ended, congrArg Host.Outcome.next ?_⟩
    rw [ended, ite_self]
  · exact congrArg Host.Outcome.next (if_neg (Nat.not_le.2 h))
  · exact congrArg Host.Outcome.next (if_pos h)
  · have none_ : refusedOctets s w.toNat = [] := by
      unfold refusedOctets
      split
      · next low =>
        rcases free with high | free
        · omega
        · refine List.eq_nil_iff_forall_not_mem.2 fun k hk => ?_
          obtain ⟨h8, locked⟩ := (mem_tmuxLocked ..).1 hk
          exact absurd (free k h8) (Nat.not_lt.2 locked)
      · rfl
    exact congrArg (fun r : Nat × State => (Host.Outcome.next r.2 : Result)) (selectTmux_taken s w dictionary none_)
  · have all : refusedOctets s w.toNat = tmuxLocked w.toNat := if_pos low
    have is := selectTmux_refused s w dictionary (by rw [all]; exact List.ne_nil_of_mem ((mem_tmuxLocked ..).2 ⟨hk, locked⟩))
    refine ⟨_, congrArg (fun r : Nat × State => (Host.Outcome.next r.2 : Result)) is, fun r hr => ?_, rfl, rfl, congrArg Prod.fst is, fun hd => ?_, fun hd j hj => ?_⟩
    · cases r <;> first | (exfalso; simp at hr; done) | rfl
    · exact if_pos hd
    · subst hd
      refine (octet_replaced (fun k => bits s.sec.tmuxSel (8 * k + 7) (8 * k)) _ _ j (octet_lt ..)).trans ?_
      rw [all]
      simp only [mem_tmuxLocked, hj, true_and]

end Sys2Proof.Machine
end

section
/-! PROOF. Firmware commit, transfer and activation (20 R499, R501, R504 to R506). -/

namespace Sys2Proof.Machine

open Sys2Proof Sys2Proof.Safety

/-! The burn (R499, R506): counters rise and never fall. -/

/-- The counters that a commit burns: each image's version at its counter, the highest of them where several name one. -/
theorem burnTo_reaches (l : List ImageCheck) (t : Tab Nat) :
    (∀ c, tget 0 t c ≤ tget 0 (l.foldl (fun t i => tset t i.counter (max (tget 0 t i.counter) (min 64 i.svn))) t) c) ∧
    ∀ i ∈ l, min 64 i.svn ≤ tget 0 (l.foldl (fun t i => tset t i.counter (max (tget 0 t i.counter) (min 64 i.svn))) t) i.counter := by
  induction l generalizing t with
  | nil => exact ⟨fun _ => Nat.le_refl _, by simp⟩
  | cons i l ih =>
    obtain ⟨grows, reaches⟩ := ih (tset t i.counter (max (tget 0 t i.counter) (min 64 i.svn)))
    have at_ : min 64 i.svn ≤ tget 0 (tset t i.counter (max (tget 0 t i.counter) (min 64 i.svn))) i.counter := by
      rw [tget_tset, if_pos rfl]
      exact Nat.le_max_right ..
    refine ⟨fun c => Nat.le_trans ?_ (grows c), fun j hj => ?_⟩
    · rw [tget_tset]
      split
      · next h =>
        subst h
        exact Nat.le_max_left ..
      · exact Nat.le_refl _
    · rcases List.mem_cons.1 hj with rfl | later
      · exact Nat.le_trans at_ (grows _)
      · exact reaches j later

theorem rollback_raiseCounter (s : State) (c v d : Nat) : rollback (raiseCounter s c v) d = if c = d then min 64 (max (rollback s c) v) else rollback s d := by
  unfold rollback raiseCounter
  dsimp only
  rw [tget_tset]
  split
  · next h =>
    subst h
    rfl
  · rfl

theorem rollback_le (s : State) (c : Nat) : rollback s c ≤ 64 := Nat.min_le_left ..

theorem rollback_burnt (l : Tab Nat) (s : State) : (∀ c, rollback s c ≤ rollback (each l s (fun s p => raiseCounter s p.1 p.2)) c) ∧
    ∀ p ∈ l, min 64 p.2 ≤ rollback (each l s (fun s p => raiseCounter s p.1 p.2)) p.1 := by
  induction l generalizing s with
  | nil => exact ⟨fun _ => Nat.le_refl _, by simp⟩
  | cons p l ih =>
    obtain ⟨grows, reaches⟩ := ih (raiseCounter s p.1 p.2)
    refine ⟨fun c => Nat.le_trans ?_ (grows c), fun q hq => ?_⟩
    · rw [rollback_raiseCounter]
      have := rollback_le s c
      split
      · next h =>
        subst h
        omega
      · exact Nat.le_refl _
    · rcases List.mem_cons.1 hq with rfl | later
      · refine Nat.le_trans ?_ (grows _)
        rw [rollback_raiseCounter, if_pos rfl]
        omega
      · exact reaches q later

/-- What a burn leaves is the module with other counters. -/
theorem burnt_dict (l : Tab Nat) (s : State) : (each l s (fun s p => raiseCounter s p.1 p.2)).dict = s.dict ∧ now (each l s (fun s p => raiseCounter s p.1 p.2)) = now s :=
  ⟨each_keeps (·.dict) l s _ (fun _ _ _ => rfl), each_keeps now l s _ (fun _ _ _ => rfl)⟩

theorem rollback_congr {s t : State} (h : t.sec.counters = s.sec.counters) (c : Nat) : rollback t c = rollback s c := by
  unfold rollback
  rw [h]

theorem burnComplete_does (s : State) (h : s.sec.burning = true) : ∃ t, exec .burnComplete s = .next t ∧ t.sec.burning = false ∧ LoggedEvent s t 0xC02 1 [] ∧
    (∀ c, rollback s c ≤ rollback t c) ∧ ∀ p ∈ s.sec.burnTo, min 64 p.2 ≤ rollback t p.1 := by
  obtain ⟨dict, time⟩ := burnt_dict s.sec.burnTo s
  obtain ⟨grows, reaches⟩ := rollback_burnt s.sec.burnTo s
  refine ⟨_, congrArg Host.Outcome.next (if_neg (by rw [h]; decide)), ?_, mgtEvent_loggedFrom _ _ _ (congrArg (·.eventSeq) dict) time, ?_⟩
  · rw [mgtEvent_sec]
  · have counters := fun c => rollback_congr (congrArg (·.counters) (mgtEvent_sec
      { each s.sec.burnTo s (fun s p => raiseCounter s p.1 p.2) with
        sec := { (each s.sec.burnTo s (fun s p => raiseCounter s p.1 p.2)).sec with burning := false, burnTo := [] } } 0xC02 1 [])) c
    exact ⟨fun c => Nat.le_trans (grows c) (Nat.le_of_eq (counters c).symm), fun p hp => Nat.le_trans (reaches p hp) (Nat.le_of_eq (counters p.1).symm)⟩

/-! A set (R501). -/

theorem imageStatus_zero (s : State) (i : ImageCheck) :
    imageStatus s i = 0 ↔ i.formOk = true ∧ i.keysOk = true ∧ i.hashOk = true ∧ i.signaturesOk = true ∧ rollback s i.counter ≤ i.svn := by
  have invalid : stImageInvalid ≠ 0 := by decide
  have refused : stRollbackRefused ≠ 0 := by decide
  unfold imageStatus
  split
  · next h =>
    refine iff_of_false invalid ?_
    rintro ⟨a, b, c, d, -⟩
    simp [a, b, c, d] at h
  · next h =>
    simp only [Bool.not_eq_true', Bool.not_eq_false, Bool.and_eq_true] at h
    obtain ⟨⟨⟨a, b⟩, c⟩, d⟩ := h
    split
    · next low => exact iff_of_false refused (fun ⟨_, _, _, _, e⟩ => by omega)
    · next high => exact iff_of_true rfl ⟨a, b, c, d, Nat.not_lt.1 high⟩

theorem setStatus_zero (s : State) (l : List ImageCheck) : setStatus s l = 0 ↔ (∀ i ∈ l, imageStatus s i = 0) ∧ ∀ k, 1 ≤ k → k ≤ 7 → ∃ i ∈ l, i.kind.val = k := by
  have kinds : (List.range 7).all (fun k => l.any (fun i => i.kind.val == k + 1)) = true ↔ ∀ k, 1 ≤ k → k ≤ 7 → ∃ i ∈ l, i.kind.val = k := by
    simp only [List.all_eq_true, List.mem_range, List.any_eq_true, beq_iff_eq]
    exact ⟨fun h k low high => by simpa [Nat.sub_add_cancel low] using h (k - 1) (by omega), fun h k hk => h (k + 1) (by omega) (by omega)⟩
  unfold setStatus
  split
  · next e found =>
    have bad := List.find?_some found
    obtain ⟨i, hi, rfl⟩ := List.mem_map.1 (List.mem_of_find?_eq_some found)
    exact iff_of_false (by simpa using bad) (fun ⟨sound, _⟩ => by simp [sound i hi] at bad)
  · next none_ =>
    have sound : ∀ i ∈ l, imageStatus s i = 0 := fun i hi => by
      simpa using List.find?_eq_none.1 none_ _ (List.mem_map_of_mem hi)
    have invalid : stImageInvalid ≠ 0 := by decide
    split
    · next all => exact iff_of_true rfl ⟨sound, kinds.1 all⟩
    · next some_ => exact iff_of_false invalid (fun ⟨_, all⟩ => some_ (kinds.2 all))

/-! A transfer by the mailbox, path 1 (R504). -/

theorem transferFw_is {off : Nat} {data : List Byte} {last : Bool} {im : List ImageCheck} {s : State} {n : Nat} {t : State}
    (h : transferBytes s 1 off data.length last im = (n, t)) : exec (.transferFw off data last im) s = .next (emit t (.mailbox false (leBytes 2 n))) := by
  show Host.Outcome.next (emit (transferBytes s 1 off data.length last im).2 (.mailbox false (leBytes 2 (transferBytes s 1 off data.length last im).1))) = _
  rw [h]

/-- What the bytes that continue a transfer do. -/
def tookBytes (s : State) (path off len : Nat) (last : Bool) (im : List ImageCheck) : Nat × State :=
  if last then (setStatus s im, { s with sec := { s.sec with transfer := none, stagedImages := im, activatable := setStatus s im == 0 } })
  else (0, { s with sec := { s.sec with transfer := some (path, off + len), activatable := false } })

section
variable {path off len : Nat} {last : Bool} {im : List ImageCheck} {s : State}

theorem transferBytes_beyond (h : 33554432 < off + len) : transferBytes s path off len last im = (stValueOutOfRange, s) := if_pos h
theorem transferBytes_none (fits : off + len ≤ 33554432) (h : s.sec.transfer = none) :
    transferBytes s path off len last im = if off = 0 then tookBytes s path off len last im else (stTypeMismatch, s) := by
  unfold transferBytes
  dsimp only
  rw [if_neg (Nat.not_lt.2 fits), h]
  rfl
theorem transferBytes_some (fits : off + len ≤ 33554432) {p n : Nat} (h : s.sec.transfer = some (p, n)) :
    transferBytes s path off len last im = if p ≠ path then (stNotReady, s) else if off = n then tookBytes s path off len last im
      else if off = 0 then (if path = 1 then (stNotReady, s) else tookBytes s path off len last im)
      else (stTypeMismatch, { s with sec := { s.sec with transfer := none } }) := by
  unfold transferBytes
  dsimp only
  rw [if_neg (Nat.not_lt.2 fits), h]
  rfl

end

theorem transferFw_answers (off : Nat) (data : List Byte) (last : Bool) (im : List ImageCheck) (s : State) :
    let answers := fun (n : Nat) (t : State) => exec (.transferFw off data last im) s = .next (emit t (.mailbox false (leBytes 2 n)))
    (33554432 < off + data.length → answers stValueOutOfRange s) ∧
    (off + data.length ≤ 33554432 →
      (∀ p n, s.sec.transfer = some (p, n) → p ≠ 1 → answers stNotReady s) ∧
      (∀ n, s.sec.transfer = some (1, n) → off ≠ n → off = 0 → answers stNotReady s) ∧
      (∀ n, s.sec.transfer = some (1, n) → off ≠ n → off ≠ 0 → answers stTypeMismatch { s with sec := { s.sec with transfer := none } }) ∧
      (s.sec.transfer = none → off ≠ 0 → answers stTypeMismatch s) ∧
      ((s.sec.transfer = none ∧ off = 0 ∨ s.sec.transfer = some (1, off)) →
        (last = false → answers 0 { s with sec := { s.sec with transfer := some (1, off + data.length), activatable := false } }) ∧
        (last = true → answers (setStatus s im) { s with sec := { s.sec with transfer := none, stagedImages := im, activatable := setStatus s im == 0 } }))) := by
  dsimp only
  refine ⟨fun h => transferFw_is (transferBytes_beyond h), fun fits => ⟨fun p n h other => ?_, fun n h ne zero => ?_, fun n h ne nonzero => ?_, fun h nonzero => ?_,
    fun goes => ?_⟩⟩
  · exact transferFw_is ((transferBytes_some fits h).trans (if_pos other))
  · refine transferFw_is ((transferBytes_some fits h).trans ?_)
    rw [if_neg (by simp), if_neg ne, if_pos zero, if_pos rfl]
  · refine transferFw_is ((transferBytes_some fits h).trans ?_)
    rw [if_neg (by simp), if_neg ne, if_neg nonzero]
  · exact transferFw_is ((transferBytes_none fits h).trans (if_neg nonzero))
  · have took : transferBytes s 1 off data.length last im = tookBytes s 1 off data.length last im := by
      rcases goes with ⟨h, zero⟩ | h
      · exact (transferBytes_none fits h).trans (if_pos zero)
      · refine (transferBytes_some fits h).trans ?_
        rw [if_neg (by simp), if_pos rfl]
    refine ⟨fun more => transferFw_is (took.trans ?_), fun end_ => transferFw_is (took.trans ?_)⟩
    · subst more
      rfl
    · subst end_
      rfl

/-! Activation (R505). -/

theorem activateFw_answers (slot : Fin 16) (online : Bool) (s : State) :
    let answers := fun (n : Nat) (t : State) => exec (.activateFw slot online) s = .next (emit t (.mailbox false (leBytes 2 n)))
    (online = true → exec (.activateFw slot online) s = .next (emit s (.mailbox true []))) ∧
    (online = false → (slot.val = 2 → s.sec.activatable = true → answers 0 { s with sec := { s.sec with nextBank := some (1 - s.sec.activeBank) } }) ∧
      (slot.val = 2 → s.sec.activatable = false → answers stNotReady s) ∧ (slot.val = 1 → answers 0 { s with sec := { s.sec with nextBank := none } }) ∧
      (slot.val ≠ 1 → slot.val ≠ 2 → answers stValueOutOfRange s)) := by
  dsimp only
  refine ⟨fun on => by subst on; rfl, fun off => ?_⟩
  subst off
  have offline : exec (.activateFw slot false) s = .next (if slot.val = 2 then emit (activateBank s).2 (.mailbox false (leBytes 2 (activateBank s).1))
    else if slot.val = 1 then emit { s with sec := { s.sec with nextBank := none } } (.mailbox false (leBytes 2 0))
    else emit s (.mailbox false (leBytes 2 stValueOutOfRange))) := rfl
  rw [offline]
  refine ⟨fun two ready => ?_, fun two not => ?_, fun one => ?_, fun one two => ?_⟩
  · rw [if_pos two, activateBank, if_pos ready]
  · rw [if_pos two, activateBank, if_neg (by rw [not]; decide)]
  · rw [if_neg (by omega), if_pos one]
  · rw [if_neg two, if_neg one]

/-- Settles O41: a commit and its burn raise counters by folds that no counter falls in; a transfer is taken where it continues the mailbox's own. The statuses are those of
log entries 59 and 60. -/
theorem firmwareUpdate : Obligations.FirmwareUpdate := by
  refine ⟨fun s => ⟨fun h => ?_, fun sag burning => ?_⟩, fun s => ⟨fun h => ?_, burnComplete_does s⟩, fun s l => ?_, transferFw_answers, activateFw_answers⟩
  · have refused : commitFw s = (stNotReady, s) := if_pos (by rcases h with a | b <;> simp [*])
    exact ⟨congrArg (fun r : Nat × State => (Host.Outcome.next r.2 : Result)) refused, congrArg Prod.fst refused⟩
  · have taken := (if_neg (by simp [sag, burning]) : commitFw s = _)
    refine ⟨_, congrArg (fun r : Nat × State => (Host.Outcome.next r.2 : Result)) taken, fun r hr => ?_, rfl, congrArg Prod.fst taken, (burnTo_reaches s.sec.running []).2⟩
    cases r <;> first | (exfalso; simp at hr; done) | rfl
  · exact congrArg Host.Outcome.next (if_pos (by rw [h]; rfl))
  · rw [setStatus_zero]
    simp only [imageStatus_zero]

end Sys2Proof.Machine
end

section
/-! SUPPORT. Heartbeats, the move to ACTIVE, and what PERST_N leaves (18 R445, R449). -/

namespace Sys2Proof.Machine

open Sys2Proof Sys2Proof.Safety

theorem sendHeartbeat_parts (s : State) : OnlyParts [.dict, .out] s (sendHeartbeat s) :=
  Within.onlyParts (l := [.dict, .out]) (back := false) (sendHeartbeat_within rfl s .refl)
theorem endUnlock_parts (s : State) : OnlyParts [.regs, .hst, .dict, .sec, .net, .out] s (endUnlock s) :=
  Within.onlyParts (l := [.regs, .hst, .dict, .sec, .net, .out]) (back := false) (endUnlock_within rfl s .refl)

/-! ACTIVE (R445, 21 R524). -/

/-- Stage 1 complete, PERST_N deasserted, the bank ready and no stage failed. -/
def mayActivate (s : State) : Prop :=
  s.power.powerState = 1 ∧ stageDone s 1 = true ∧ s.power.perstHeld = false ∧ s.power.bankReady = true ∧ s.power.failed = false

theorem mayActivate_iff (s : State) :
    (s.power.powerState == 1 && stageDone s 1 && !s.power.perstHeld && s.power.bankReady && !s.power.failed) = true ↔ mayActivate s := by
  simp [mayActivate, and_assoc]

theorem tryActive_parts (s : State) : OnlyParts [.power] s (tryActive s) :=
  Within.onlyParts (l := [.power]) (back := false) (tryActive_within rfl s .refl)
theorem tryActive_keeps {β : Type} (g : Power → β) (h : ∀ p b, g { p with powerState := 2, busy := b } = g p) (s : State) : g (tryActive s).power = g s.power := by
  unfold tryActive
  split
  · exact h _ _
  · rfl
theorem tryActive_yes {s : State} (h : mayActivate s) : (tryActive s).power.powerState = 2 := by
  unfold tryActive
  rw [if_pos ((mayActivate_iff s).2 h)]
theorem tryActive_no {s : State} (h : ¬mayActivate s) : tryActive s = s := if_neg (fun e => h ((mayActivate_iff s).1 e))

/-! PERST_N resets all but the management die (R449). -/

theorem mread_filter_out (m : Mem) (p : Nat → Bool) (a : Nat) (h : p a = false) : mread (m.filter (fun c => p c.1)) a = 0 := by
  induction m with
  | nil => rfl
  | cons c m ih =>
    by_cases keep : p c.1 = true
    · rw [List.filter_cons_of_pos (by exact keep)]
      have ne : c.1 ≠ a := fun e => by rw [e, h] at keep; exact absurd keep (by decide)
      exact (if_neg ne).trans ih
    · rw [List.filter_cons_of_neg (by exact keep)]
      exact ih

theorem powerDown_memory (s : State) (a : Nat) (h : isNear a = true ∨ isSpm a = true) : mread (powerDown s).mem a = 0 := by
  refine mread_filter_out s.mem (fun a => isFar a || isHost a) a ?_
  have low : a < 0x9000000000 ∨ 0x100000000000 ≤ a ∧ a < 0x104000000000 := h.imp of_decide_eq_true of_decide_eq_true
  have far : isFar a = false := decide_eq_false (by omega)
  have host : isHost a = false := decide_eq_false (by omega)
  rw [far, host]
  rfl

theorem perstReset_power (s : State) : ∃ k, (perstReset s).power = { s.power with
    kept := k
    powerState := 1
    bindoff := false
    stage := if s.power.stage = 15 then 15 else min 1 s.power.stage
    busy := !stageDone s 1
    failed := s.power.failed && !stageDone s 1 } := by
  have unlocked : (endUnlock s).power = s.power := endUnlock_parts s .power (by decide)
  have done (u : State) (h : u.power = s.power) : stageDone u 1 = stageDone s 1 := by
    unfold stageDone
    rw [h]
  have same : (perstReset s).power = (perstDown (powerDown (endUnlock s))).power := by
    unfold perstReset
    dsimp only
    split
    · exact sendHeartbeat_parts _ .power (by decide)
    · rfl
  refine ⟨imageRecords (endUnlock s), same.trans ?_⟩
  rw [← done _ unlocked, ← unlocked]
  rfl

/-- What neither a heartbeat nor an unlock's end changes is that of a module whose dies have lost power. -/
theorem perstReset_keeps {β : Type} (g : State → β) (s : State) (hg : ∀ u, g (sendHeartbeat u) = g u) : g (perstReset s) = g (perstDown (powerDown (endUnlock s))) := by
  unfold perstReset
  dsimp only
  split
  · exact hg _
  · rfl

theorem perstReset_does (s : State) : (perstReset s).cores = [] ∧ now (perstReset s) = now s ∧ (perstReset s).clock.locked = false ∧
    (perstReset s).saves = s.saves ∧ ∀ a, isNear a = true ∨ isSpm a = true → mread (perstReset s).mem a = 0 := by
  have clock : (perstReset s).clock = { (endUnlock s).clock with dieTime := [], locked := false } :=
    perstReset_keeps (·.clock) s (fun u => sendHeartbeat_parts u .clock (by decide))
  have unlocked : (endUnlock s).clock = s.clock := endUnlock_parts s .clock (by decide)
  refine ⟨perstReset_keeps (·.cores) s (fun u => sendHeartbeat_parts u .cores (by decide)), ?_, ?_, ?_, fun a ha => ?_⟩
  · unfold now
    rw [clock, unlocked]
  · rw [clock]
  · exact (perstReset_keeps (·.saves) s (fun u => sendHeartbeat_parts u .saves (by decide))).trans (endUnlock_parts s .saves (by decide))
  · rw [perstReset_keeps (·.mem) s (fun u => sendHeartbeat_parts u .mem (by decide))]
    exact powerDown_memory _ a ha

/-! One bit of a latch. -/

theorem bit_putBits_pin (w : Nat) {b : Nat} (hb : b < 64) (on : Bool) : bit (putBits w b b (b2n on)) b = on := by
  have word := bit_putBits_b2n w hb on
  unfold bit at *
  rwa [Nat.testBit_mod_two_pow, decide_eq_true hb, Bool.true_and] at word

theorem bit_or_pin (w pin : Nat) : bit (w ||| 2 ^ pin) pin = true := by
  unfold bit
  rw [Nat.testBit_or, Nat.testBit_two_pow_self, Bool.or_true]

end Sys2Proof.Machine
end

section
/-! PROOF. Throttle sources and inputs (18 R442, R443, R457, R458). -/

namespace Sys2Proof.Machine

open Sys2Proof Sys2Proof.Safety

/-! Sag (R443). -/

/-- The state in which a sag warning has noted the bus, and the pin where it is asserted. -/
def sagNoted (bus : Nat) (pin : Bool) (s : State) : State :=
  let u := { s with power := { s.power with busMv := bus } }
  if pin then setLevel u 2 false else u

theorem sagNoted_is (bus : Nat) (pin : Bool) (s : State) : ∃ l k, sagNoted bus pin s = { s with power := { s.power with busMv := bus, levels := l, stuck := k } } := by
  unfold sagNoted
  cases pin
  · exact ⟨s.power.levels, s.power.stuck, rfl⟩
  · exact ⟨putBits s.power.levels 2 2 0, s.power.stuck, rfl⟩

theorem sagWarning_idle (bus : Nat) (pin : Bool) (s : State) (h : inputsAct s = false) :
    exec (.sagWarning bus pin) s = .next { s with power := { s.power with busMv := bus } } := by
  have same : inputsAct { s with power := { s.power with busMv := bus } } = inputsAct s := rfl
  exact congrArg Host.Outcome.next (if_pos (by rw [same, h]; rfl))
theorem sagWarning_acts (bus : Nat) (pin : Bool) (s : State) (h : inputsAct s = true) : exec (.sagWarning bus pin) s =
    .next (if ((decide ((sagNoted bus pin s).power.busMv ≤ 43000) || pin) && !(sagNoted bus pin s).power.sag && (sagNoted bus pin s).power.stage != 15) = true
      then bump { sagNoted bus pin s with power := { (sagNoted bus pin s).power with sag := true } } (pwrOff MGT_SAG_WARN_COUNT) 1 else sagNoted bus pin s) := by
  have same : inputsAct { s with power := { s.power with busMv := bus } } = inputsAct s := rfl
  refine (congrArg Host.Outcome.next (if_neg (by rw [same, h]; decide))).trans ?_
  obtain ⟨l, k, noted⟩ := sagNoted_is bus pin s
  have busMv : (sagNoted bus pin s).power.busMv = bus := by rw [noted]
  rw [busMv]
  rfl

theorem sagWarning_does (bus : Nat) (pin : Bool) (s : State) : ∃ t, exec (.sagWarning bus pin) s = .next t ∧ OnlyParts [.regs, .power] s t ∧ t.power.busMv = bus ∧
    (inputsAct s = true → s.power.stage ≠ 15 → (bus ≤ 43000 ∨ pin = true) → t.power.sag = true ∧
      reg t (pwrOff MGT_SAG_WARN_COUNT) = if s.power.sag = true then reg s (pwrOff MGT_SAG_WARN_COUNT) else (reg s (pwrOff MGT_SAG_WARN_COUNT) + 1) % 2 ^ 64) ∧
    ((inputsAct s = false ∨ 43000 < bus ∧ pin = false) → t.power.sag = s.power.sag ∧ t.regs = s.regs) := by
  cases acts : inputsAct s
  · refine ⟨_, sagWarning_idle bus pin s acts, fun r hr => ?_, rfl, fun h => absurd h (by decide), fun _ => ⟨rfl, rfl⟩⟩
    cases r <;> first | (exfalso; simp at hr; done) | rfl
  · obtain ⟨l, k, noted⟩ := sagNoted_is bus pin s
    refine ⟨_, sagWarning_acts bus pin s acts, ?_⟩
    rw [noted]
    split
    · next warns =>
      simp only [Bool.and_eq_true, Bool.or_eq_true, decide_eq_true_eq, Bool.not_eq_true', bne_iff_ne] at warns
      obtain ⟨⟨low, quiet⟩, _⟩ := warns
      refine ⟨fun r hr => ?_, rfl, fun _ _ _ => ⟨rfl, ?_⟩, fun none_ => ?_⟩
      · cases r <;> first | (exfalso; simp at hr; done) | rfl
      · rw [reg_bump, if_pos rfl, if_neg (by rw [show s.power.sag = false from quiet]; decide)]
        rfl
      · rcases none_ with h | ⟨high, off⟩
        · exact absurd h (by decide)
        · rcases low with h | h
          · omega
          · rw [h] at off
            exact absurd off (by decide)
    · next silent =>
      refine ⟨fun r hr => ?_, rfl, fun _ on low => ?_, fun _ => ⟨rfl, rfl⟩⟩
      · cases r <;> first | (exfalso; simp at hr; done) | rfl
      · have sag : s.power.sag = true := by
          by_contra quiet
          exact silent (by simp [low, quiet, on])
        exact ⟨sag, (if_pos sag).symm⟩

theorem sagWarningClear_does (bus : Nat) (s : State) : ∃ t, exec (.sagWarningClear bus) s = .next t ∧ OnlyParts [.power] s t ∧
    t.power.sag = if inputsAct s = true ∧ 44000 ≤ bus then false else s.power.sag := by
  have same : inputsAct { s with power := { s.power with busMv := bus } } = inputsAct s := rfl
  refine ⟨_, rfl, ?_⟩
  rw [same]
  by_cases h : inputsAct s = true ∧ 44000 ≤ bus
  · rw [if_pos h, if_pos (by simp [h])]
    refine ⟨fun r hr => ?_, rfl⟩
    cases r <;> first | (exfalso; simp at hr; done) | rfl
  · rw [if_neg h, if_neg (by simpa using h)]
    refine ⟨fun r hr => ?_, rfl⟩
    cases r <;> first | (exfalso; simp at hr; done) | rfl

theorem throttleN_does (s : State) : (∃ t, exec .throttleNAssert s = .next t ∧ OnlyParts [.power] s t ∧ t.power.throttleN = if inputsAct s then true else s.power.throttleN) ∧
    (∃ t, exec .throttleNDeassert s = .next t ∧ OnlyParts [.power] s t ∧ t.power.throttleN = if inputsAct s then false else s.power.throttleN) := by
  refine ⟨⟨_, rfl, ?_⟩, ⟨_, rfl, ?_⟩⟩
  all_goals
    cases inputsAct s
    all_goals
      refine ⟨fun r hr => ?_, rfl⟩
      cases r <;> first | (exfalso; simp at hr; done) | rfl

/-! The power window (R442). -/

theorem lasted_some (s : State) (t n : Nat) : lasted s (some t) n = true ↔ t + n ≤ now s := by simp [lasted]
theorem lasted_now (s : State) (n : Nat) (h : 0 < n) : lasted s (some (now s)) n = false := by simp [lasted, Nat.pos_iff_ne_zero.1 h]

/-- The power source after a window: what lasted above the limit sets it, else what lasted below 95 percent clears it. -/
def windowSrc (s : State) (limiting : Bool) (low : Prop) [Decidable low] : Bool :=
  let above := if limiting && allAtFloor s then (if s.power.overSince.isSome then s.power.overSince else some (now s)) else none
  let under := if low then (if s.power.underSince.isSome then s.power.underSince else some (now s)) else none
  if lasted s above 1000000 then true else if lasted s under 10000000 then false else s.power.powerSrc

section
variable {s : State} {limiting : Bool} {low : Prop} [Decidable low]

theorem windowSrc_above {t0 : Nat} (since : s.power.overSince = some t0) (lim : limiting = true) (floor : allAtFloor s = true) (late : t0 + 1000000 ≤ now s) :
    windowSrc s limiting low = true := by
  unfold windowSrc
  rw [lim, floor, since]
  exact if_pos ((lasted_some ..).2 late)
theorem windowSrc_under {t0 : Nat} (since : s.power.underSince = some t0) (lim : limiting = false) (h : low) (late : t0 + 10000000 ≤ now s) :
    windowSrc s limiting low = false := by
  unfold windowSrc
  rw [lim, since]
  dsimp only
  rw [if_pos h]
  exact (if_neg (by simp [lasted])).trans (if_pos ((lasted_some ..).2 late))
theorem windowSrc_fresh (above : s.power.overSince = none) (under : s.power.underSince = none) : windowSrc s limiting low = s.power.powerSrc := by
  have soon {p : Prop} [Decidable p] (n : Nat) (h : 0 < n) : lasted s (if p then some (now s) else none) n = false := by
    split
    · exact lasted_now s n h
    · rfl
  unfold windowSrc
  rw [above, under]
  simp only [Option.isSome_none, Bool.false_eq_true, if_false, soon 1000000 (by decide), soon 10000000 (by decide)]

end

theorem powerWindow_does (w da bus : Nat) (current : Bool) (s : State) : let lim := if current then 1500 else objNat s 0x202001
    let v := if current then da else w
    ∃ t, exec (.powerWindow w da bus current) s = .next t ∧ OnlyParts [.power] s t ∧ t.power.pin = w ∧ t.power.ibus = da ∧
      (if current then t.power.limitingCurrent else t.power.limiting) = decide (lim < v) ∧
      t.power.powerSrc = windowSrc s (decide (lim < v) || if current then s.power.limiting else s.power.limitingCurrent) (v * 100 < lim * 95) := by
  cases current
  · refine ⟨_, rfl, fun r hr => ?_, rfl, rfl, rfl, rfl⟩
    cases r <;> first | (exfalso; simp at hr; done) | rfl
  · refine ⟨_, rfl, fun r hr => ?_, rfl, rfl, rfl, ?_⟩
    · cases r <;> first | (exfalso; simp at hr; done) | rfl
    · rw [Bool.or_comm]
      rfl

theorem thermalThrottle_does (die : DieId) (temp highest : Nat) (s : State) : ∃ t, exec (.thermalThrottle die temp highest) s = .next t ∧ OnlyParts [.cores, .power] s t ∧
    tget 0 t.power.temps die = temp ∧ t.power.highest = highest ∧ (∀ c, dieCore die = some c → core t c = { core s c with temp := temp, tempKnown := true }) ∧
    t.power.thermal = if 105 ≤ temp ∨ 105 ≤ highest then true else if highest ≤ 100 then false else s.power.thermal := by
  refine ⟨_, rfl, ?_⟩
  cases at_ : dieCore die with
  | none =>
    refine ⟨fun r hr => ?_, (tget_tset ..).trans (if_pos rfl), rfl, fun c h => absurd h (by simp), rfl⟩
    cases r <;> first | (exfalso; simp at hr; done) | rfl
  | some d =>
    refine ⟨fun r hr => ?_, (tget_tset ..).trans (if_pos rfl), rfl, fun c h => ?_, rfl⟩
    · cases r <;> first | (exfalso; simp at hr; done) | rfl
    · obtain rfl : d = c := Option.some.inj h
      exact (core_updCore ..).trans (if_pos rfl)

/-! Chatter and held inputs (R457, R458). -/

/-- The state in which an input's chatter is latched and told of. -/
def chatterTold (s : State) (pin : Fin 3) : State :=
  mgtEvent { s with power := { s.power with chatter := s.power.chatter ||| 2 ^ pin.val, chatterCount := s.power.chatterCount + 1 } } 0xA03 2 [pin.val]

theorem chatterTold_power (s : State) (pin : Fin 3) :
    (chatterTold s pin).power = { s.power with chatter := s.power.chatter ||| 2 ^ pin.val, chatterCount := s.power.chatterCount + 1 } :=
  mgtEvent_parts _ _ _ _ .power (by decide)

theorem inputChatter_latches {s : State} {pin : Fin 3} (quiet : bit s.power.chatter pin = false) (state : s.power.powerState ≠ 3) (on : s.power.stage ≠ 15) :
    exec (.inputChatter pin) s = .next (if pin.val = 0 then perstActs (chatterTold s pin) (chatterTold s pin).power.highest (chatterTold s pin).power.busMv else chatterTold s pin) :=
  congrArg Host.Outcome.next (if_neg (by simp [quiet, state, on]))

/-- PERST_N's assertion, latched, keeps the latches. -/
theorem perstActs_chatter (s : State) (highest bus : Nat) : (perstActs s highest bus).power.chatter = s.power.chatter := by
  unfold perstActs
  dsimp only
  split_ifs
  · obtain ⟨k, power⟩ := perstReset_power { s with power := { s.power with perstHeld := true } }
    rw [power]
  · obtain ⟨k, power⟩ := perstReset_power { s with power := { s.power with perstHeld := true } }
    rw [power]
  · rfl

theorem perstActs_running (s : State) (highest bus : Nat) (h : s.power.powerState = 1 ∨ s.power.powerState = 2) :
    perstActs s highest bus = perstReset { s with power := { s.power with perstHeld := true } } := if_pos h

theorem inputHeld_does {s : State} {pin : Fin 3} (high : bit s.power.levels pin = false) (free : bit s.power.stuck pin = false) (on : s.power.stage ≠ 15) :
    ∃ t, exec (.inputHeld pin) s = .next t ∧ bit t.power.stuck pin = true ∧ LoggedEvent s t 0xA04 1 [pin.val] := by
  refine ⟨_, congrArg Host.Outcome.next (if_neg (by simp [high, free, on])), ?_, mgtEvent_loggedFrom _ _ _ rfl rfl⟩
  rw [mgtEvent_parts _ _ _ _ .power (by decide)]
  exact bit_or_pin ..

/-! Clearing a latch (R457). -/

/-- A write that names one pin clears that pin's latch alone. -/
theorem mgtInputClear_one {v : Word} {pin : Nat} (quiet : BitVec 3) (s : State) (h : (List.range 3).filter (fun p => bit v.toNat p) = [pin]) :
    exec (.mgtInputClear v quiet) s = .next (clearInput s pin (bit quiet.toNat pin)) := by
  show Host.Outcome.next (each ((List.range 3).filter (fun p => bit v.toNat p)) s _) = _
  rw [h]
  rfl

section
variable {s : State} {pin : Nat} {quiet : Bool}

theorem clearInput_free (h : bit s.power.chatter pin = false) : clearInput s pin quiet = s := if_pos (by rw [h]; rfl)
theorem clearInput_moving (h : bit s.power.chatter pin = true) :
    clearInput s pin false = { s with power := { s.power with clearRefused := s.power.clearRefused + 1 } } := (if_neg (by rw [h]; decide)).trans (if_pos rfl)
theorem clearInput_quiet (h : bit s.power.chatter pin = true) : clearInput s pin true =
    if pin = 0 then perstReleases { s with power := { s.power with chatter := putBits s.power.chatter pin pin 0 } }
    else { s with power := { s.power with chatter := putBits s.power.chatter pin pin 0 } } := (if_neg (by rw [h]; decide)).trans (if_neg (by decide))

end

theorem perstReleases_free {s : State} (free : bit s.power.chatter 0 = false) (high : bit s.power.levels 0 = true) :
    perstReleases s = tryActive { s with power := { s.power with perstHeld := false, perstAt := now s } } := if_neg (by simp [free, high])

theorem mgtInputClear_perst (quiet : BitVec 3) (s : State) (latched : bit s.power.chatter 0 = true) (still : bit quiet.toNat 0 = true) (high : bit s.power.levels 0 = true) :
    ∃ t, exec (.mgtInputClear 1 quiet) s = .next t ∧ OnlyParts [.power] s t ∧ bit t.power.chatter 0 = false ∧ t.power.perstHeld = false ∧ t.power.perstAt = now s := by
  have cleared : bit (putBits s.power.chatter 0 0 0) 0 = false := bit_putBits_pin _ (by decide) false
  have does := mgtInputClear_one (v := 1) quiet s (pin := 0) (by decide)
  rw [still, clearInput_quiet latched, if_pos rfl, perstReleases_free (by exact cleared) (by exact high)] at does
  · refine ⟨_, does, OnlyParts.trans (l := [.power]) (fun r hr => ?_) (tryActive_parts _) (by decide) (by decide), ?_, ?_, ?_⟩
    · cases r <;> first | (exfalso; simp at hr; done) | rfl
    · exact (tryActive_keeps (fun p => bit p.chatter 0) (fun _ _ => rfl) _).trans cleared
    · exact tryActive_keeps (·.perstHeld) (fun _ _ => rfl) _
    · exact tryActive_keeps (·.perstAt) (fun _ _ => rfl) _

theorem inputChatter_perst (s : State) (quiet : bit s.power.chatter 0 = false) (on : s.power.stage ≠ 15) (runs : s.power.powerState = 1 ∨ s.power.powerState = 2) :
    ∃ t, exec (.inputChatter 0) s = .next t ∧ bit t.power.chatter 0 = true ∧ t.power.powerState = 1 ∧ t.power.perstHeld = true ∧ t.cores = [] := by
  have told := chatterTold_power s 0
  have goes : (chatterTold s 0).power.powerState = 1 ∨ (chatterTold s 0).power.powerState = 2 := by
    rw [told]
    exact runs
  have does := inputChatter_latches (pin := 0) quiet (by omega) on
  rw [if_pos (by decide), perstActs_running _ _ _ goes] at does
  obtain ⟨k, power⟩ := perstReset_power { chatterTold s 0 with power := { (chatterTold s 0).power with perstHeld := true } }
  refine ⟨_, does, ?_, ?_, ?_, (perstReset_does _).1⟩
  · rw [power, told]
    exact bit_or_pin ..
  · rw [power]
  · rw [power]

/-- Settles O46: each source, latch and clear is one update of the power state, seen through setLevel, windowSrc, perstActs and clearInput. What 1 ms, a deasserted SAG_N and
the hold time mean comes with the command (log entry 57). -/
theorem throttleAndInputs : Obligations.ThrottleAndInputs := by
  refine ⟨sagWarning_does, sagWarningClear_does, throttleN_does, fun w da bus current s => ?_, thermalThrottle_does, fun pin s => ⟨fun h => ?_, fun quiet state on => ?_,
    fun quiet state on other => ?_, fun quiet on runs => inputChatter_perst s quiet on runs⟩, fun pin s => ⟨fun h => ?_, inputHeld_does⟩,
    fun quiet s => ⟨rfl, fun pin v named => ?_, fun latched still _ high => mgtInputClear_perst quiet s latched still high⟩⟩
  · obtain ⟨t, does, parts, pin, ibus, limit, src⟩ := powerWindow_does w da bus current s
    refine ⟨t, does, parts, pin, ibus, limit, fun t0 since above floor late => ?_, fun t0 since under other late => ?_, fun above under => ?_⟩
    · exact src.trans (windowSrc_above since (by simp [above]) floor late)
    · refine src.trans (windowSrc_under since ?_ under late)
      rw [other, Bool.or_false, decide_eq_false_iff_not]
      omega
    · exact src.trans (windowSrc_fresh above under)
  · exact congrArg Host.Outcome.next (if_pos (by rcases h with h | h | h <;> simp [h]))
  · refine ⟨_, inputChatter_latches quiet state on, ?_⟩
    have latched : bit (chatterTold s pin).power.chatter pin = true := by
      rw [chatterTold_power]
      exact bit_or_pin ..
    split
    · rw [perstActs_chatter]
      exact latched
    · exact latched
  · have does := inputChatter_latches quiet state on
    rw [if_neg (show ¬pin.val = 0 from fun e => other (Fin.ext e))] at does
    refine ⟨_, does, ?_, ?_, mgtEvent_loggedFrom _ _ _ rfl rfl⟩
    · rw [chatterTold_power]
      exact bit_or_pin ..
    · rw [chatterTold_power]
  · exact congrArg Host.Outcome.next (if_pos (by rcases h with h | h | h <;> simp [h]))
  · have one : (List.range 3).filter (fun p => bit v.toNat p) = [pin] ∧ pin ≠ 0 := by
      simp only [List.mem_cons, List.not_mem_nil, or_false] at named
      rcases named with ⟨rfl, rfl⟩ | ⟨rfl, rfl⟩ <;> decide
    obtain ⟨one, nonzero⟩ := one
    rw [mgtInputClear_one quiet s one]
    refine ⟨fun free => ?_, fun latched moving => ?_, fun latched still => ?_⟩
    · rw [clearInput_free free]
    · rw [moving, clearInput_moving latched]
    · rw [still, clearInput_quiet latched, if_neg nonzero]

end Sys2Proof.Machine
end

section
/-! PROOF. Power states and cast-on (18 R441, R445 to R447, R449; 20 R501; 21 R523, R524). -/

namespace Sys2Proof.Machine

open Sys2Proof Sys2Proof.Safety

/-! Stages (R446, R447). -/

theorem stageEnd_parts (s : State) (k : Nat) (busy : Bool) : OnlyParts [.power, .bg, .dict, .out] s (stageEnd s k busy) :=
  Within.onlyParts (l := [.power, .bg, .dict, .out]) (back := false) (stageEnd_within rfl s k busy .refl)
theorem stageEnd_power (s : State) (k : Nat) (busy : Bool) : (stageEnd s k busy).power = { s.power with stage := k, busy := busy, failed := false, tStage := now s } :=
  sendHeartbeat_parts _ .power (by decide)
theorem stageEnd_heartbeat (s : State) (k : Nat) (busy : Bool) (h : k ≠ 15) : (stageEnd s k busy).dict.heartbeats = s.dict.heartbeats + 1 := by
  unfold stageEnd sendHeartbeat
  rw [if_neg h]
  rfl

/-- A stage that fails holds the device, and is told of, seen from a state whose log and clock are as they are. -/
theorem stageFail_does (s u : State) (k status : Nat) (seq : u.dict.eventSeq = s.dict.eventSeq) (time : now u = now s) :
    (stageFail u k status).power = { u.power with failed := true, failStage := k, failStatus := status, busy := false } ∧
    LoggedEvent s (stageFail u k status) 0xA02 3 [k, status] :=
  ⟨mgtEvent_parts _ _ _ _ .power (by decide), mgtEvent_loggedFrom _ _ _ seq time⟩

/-! Stage 1 (20 R501). -/

/-- The new Alias key keeps all of the root of trust but its leaves and the mark of exhaustion. -/
theorem newAlias_keeps {β : Type} (g : Security → β) (h : ∀ x i a, g { x with identityLeaf := i, aliasLeaf := a } = g x) (h' : ∀ x b, g { x with exhaustedRaised := b } = g x) (s : State) :
    g (newAlias s).sec = g s.sec := by
  have checked (u : State) : g (checkIdentity u).sec = g u.sec := by
    unfold checkIdentity
    split
    · rfl
    · rw [mgtEvent_sec]
      exact h' _ _
  unfold newAlias
  split
  · exact (checked _).trans (h _ _ _)
  · exact checked _

/-- The module booted with a set. -/
def bootedWith (s : State) (set_ : List ImageCheck) : State :=
  tryActive (stageEnd (newAlias (findTorn (updPkg { s with sec := { s.sec with running := set_ } } markBooted))) 1 false)

theorem bootedWith_does (s : State) (set_ : List ImageCheck) :
    (bootedWith s set_).power.stage = 1 ∧ (bootedWith s set_).sec.running = set_ ∧ (bootedWith s set_).sec.activeBank = s.sec.activeBank := by
  have sec : (bootedWith s set_).sec = (newAlias (findTorn (updPkg { s with sec := { s.sec with running := set_ } } markBooted))).sec :=
    (tryActive_parts _ .sec (by decide)).trans (stageEnd_parts _ _ _ .sec (by decide))
  refine ⟨?_, ?_, ?_⟩
  · refine (tryActive_keeps (·.stage) (fun _ _ => rfl) _).trans ?_
    rw [stageEnd_power]
  · rw [sec]
    exact newAlias_keeps (·.running) (fun _ _ _ => rfl) (fun _ _ => rfl) _
  · rw [sec]
    exact newAlias_keeps (·.activeBank) (fun _ _ _ => rfl) (fun _ _ => rfl) _

section
variable {s : State} {banks : List (List ImageCheck)}

theorem stageOne_first (h : setStatus s (banks.getD s.sec.activeBank []) = 0) : stageOne s banks = bootedWith s (banks.getD s.sec.activeBank []) := if_pos h
theorem stageOne_second (h : setStatus s (banks.getD s.sec.activeBank []) ≠ 0) (h' : setStatus s (banks.getD (1 - s.sec.activeBank) []) = 0) : stageOne s banks =
    bootedWith (mgtEvent { s with sec := { s.sec with activeBank := 1 - s.sec.activeBank, fallback := true } } 0xC01 2 []) (banks.getD (1 - s.sec.activeBank) []) :=
  (if_neg h).trans (if_pos h')
theorem stageOne_neither (h : setStatus s (banks.getD s.sec.activeBank []) ≠ 0) (h' : setStatus s (banks.getD (1 - s.sec.activeBank) []) ≠ 0) : stageOne s banks =
    stageFail s 1 (setStatus s (banks.getD s.sec.activeBank [])) := (if_neg h).trans (if_neg h')

end

/-! Stage 3. -/

/-- A stack at stage 3: its die has failed, or it is trained. -/
def trainStack (s : State) (k : Nat) : State :=
  if dieFailed s (80 + k) then updStack s k (fun x => { x with state := 3, channels := 0 })
  else updStack s k (fun x => { x with
    state := 2, rate := objNat s 0x301001, channels := 48, lastTrained := (List.range 48).map (fun c => (c, now s))
    trainedTemp := (List.range 48).map (fun c => (c, tget 0 s.power.temps (80 + k))) })

theorem trainStack_pkg (s : State) (k : Nat) : (trainStack s k).pkg = s.pkg := by
  unfold trainStack
  split <;> rfl
theorem trainStack_state (s : State) (k j : Nat) : (stack (trainStack s k) j).state = if k = j then (if dieFailed s (80 + j) = true then 3 else 2) else (stack s j).state := by
  unfold trainStack
  split
  · next failed =>
    rw [stack_updStack]
    split
    · next same =>
      subst same
      exact (if_pos failed).symm
    · rfl
  · next sound =>
    rw [stack_updStack]
    split
    · next same =>
      subst same
      exact (if_neg sound).symm
    · rfl

theorem trainStacks_state (l : List Nat) (s : State) (k : Nat) :
    (stack (each l s trainStack) k).state = if k ∈ l then (if dieFailed s (80 + k) = true then 3 else 2) else (stack s k).state := by
  induction l generalizing s with
  | nil => simp [each]
  | cons x l ih =>
    have same : dieFailed (trainStack s x) (80 + k) = dieFailed s (80 + k) := by
      unfold dieFailed
      rw [trainStack_pkg]
    refine (ih (trainStack s x)).trans ?_
    rw [same, trainStack_state]
    by_cases here : x = k
    · simp [here]
    · simp [here, Ne.symm here]

/-- An expander port at stage 3. -/
def mapFar (farCaps : List Nat) (s : State) (p : Nat) : State :=
  let cap := min 1024 (farCaps.getD p 0)
  if cap = 0 ∨ dieFailed s (96 + p / 2) = true then updFar s p (fun x => { x with link := 0, width := 0, gts := 0, capacity := 0, memActive := false, present := decide (cap ≠ 0) })
  else updFar s p (fun x => { x with link := 2, width := 16, gts := 32, capacity := cap, memActive := true, present := true })

theorem mapFar_keeps {β : Type} (g : State → β) (h : ∀ u p f, g (updFar u p f) = g u) (caps : List Nat) (s : State) (p : Nat) : g (mapFar caps s p) = g s := by
  unfold mapFar
  dsimp only
  split <;> exact h _ _ _

theorem stageThree_does (s : State) (caps : List Nat) : ((stageThree s caps).hst.memActive = true ↔ s.hst.linkMode = 1) ∧
    ∀ k, k < 8 → (stack (stageThree s caps) k).state = if dieFailed s (80 + k) = true then 3 else 2 := by
  have is : stageThree s caps = { each (List.range 4) (each (List.range 8) s trainStack) (mapFar caps) with
      hst := { (each (List.range 4) (each (List.range 8) s trainStack) (mapFar caps)).hst with
        memActive := (each (List.range 4) (each (List.range 8) s trainStack) (mapFar caps)).hst.linkMode == 1 }
      power := { (each (List.range 4) (each (List.range 8) s trainStack) (mapFar caps)).power with
        farPrsnt := maskOver 4 (fun p => (far (each (List.range 4) (each (List.range 8) s trainStack) (mapFar caps)) p).present) } } := rfl
  have mode : (each (List.range 4) (each (List.range 8) s trainStack) (mapFar caps)).hst.linkMode = s.hst.linkMode :=
    (each_keeps (·.hst.linkMode) _ _ _ (fun u p _ => mapFar_keeps (·.hst.linkMode) (fun _ _ _ => rfl) caps u p)).trans
      (each_keeps (·.hst.linkMode) _ _ _ (fun u k _ => by unfold trainStack; split <;> rfl))
  have stacksAre (k : Nat) : stack (each (List.range 4) (each (List.range 8) s trainStack) (mapFar caps)) k = stack (each (List.range 8) s trainStack) k :=
    each_keeps (fun u => stack u k) _ _ _ (fun u p _ => mapFar_keeps (fun u => stack u k) (fun _ _ _ => rfl) caps u p)
  rw [is]
  refine ⟨?_, fun k hk => ?_⟩
  · show ((each (List.range 4) (each (List.range 8) s trainStack) (mapFar caps)).hst.linkMode == 1) = true ↔ _
    rw [mode, beq_iff_eq]
  · refine (congrArg (·.state) (stacksAre k)).trans ((trainStacks_state ..).trans (if_pos (List.mem_range.2 hk)))

/-! Stage 4 (14 R359; 08 R216). -/

theorem fenceCore_mono (s : State) (c n : Nat) (h : coreActive s n = false) : coreActive (fenceCore s c) n = false :=
  coreActive_mono (fenceCore_within (M := 0x3100808d9) rfl s c .refl).package n h

theorem fenced_each (l : List Nat) (s : State) (n : Nat) (h : n ∈ l ∨ coreActive s n = false) : coreActive (each l s fenceCore) n = false := by
  induction l generalizing s with
  | nil => exact h.resolve_left (by simp)
  | cons c l ih =>
    refine ih (fenceCore s c) ?_
    rcases h with h | h
    · rcases List.mem_cons.1 h with rfl | later
      · exact .inr (fenceCore_inactive s n)
      · exact .inl later
    · exact .inr (fenceCore_mono s c n h)

theorem stageFour_passes (s : State) (failed : Nat) (h : activeMask s &&& (2 ^ 64 - 1 - failed) ≠ 0) : (stageFour s failed).power.stage = 4 ∧
    (∀ a, isSpm a = true → mread (stageFour s failed).mem a = 0) ∧ ∀ n, n < 64 → bit failed n = true → coreActive (stageFour s failed) n = false := by
  unfold stageFour
  rw [if_neg h]
  refine ⟨?_, fun a ha => ?_, fun n hn bad => ?_⟩
  · rw [stageEnd_power]
  · rw [stageEnd_parts _ _ _ .mem (by decide)]
    exact mread_filter_out _ (fun a => !isSpm a) a (by rw [ha]; rfl)
  · have pkg := stageEnd_parts { each ((coresOf (activeMask s)).filter (fun c => bit failed c)) s fenceCore with
      mem := (each ((coresOf (activeMask s)).filter (fun c => bit failed c)) s fenceCore).mem.filter (fun c => !isSpm c.1) } 4 true .pkg (by decide)
    have same {t u : State} (e : t.pkg = u.pkg) : coreActive t n = coreActive u n := by
      unfold coreActive activeMask
      rw [e]
    refine (same pkg).trans (fenced_each _ s n ?_)
    cases active : coreActive s n
    · exact .inr rfl
    · refine .inl (List.mem_filter.2 ⟨List.mem_filter.2 ⟨List.mem_range.2 hn, active⟩, bad⟩)

/-! CAST_ON_STAGE_COMPLETE. -/

/-- The stage in progress, numbered. -/
def nextStage (s : State) : Nat := if s.power.stage = 15 then 0 else s.power.stage + 1

/-- A stage's effect where a stage runs. -/
def castOnNext (failed : Word) (banks : List (List ImageCheck)) (caps : List Nat) (mode : Fin 4) (s : State) (k : Nat) : State :=
  if k = 0 then (if s.power.powerState = 1 then stageEnd s 0 true else s)
  else if k = 1 then (if s.power.powerState = 1 then stageOne s banks else s)
  else if s.power.powerState ≠ 2 then s
  else if k = 2 then stageEnd { s with hst := { s.hst with linkMode := mode.val, linkWidth := 16 } } 2 true
  else if k = 3 then stageEnd (stageThree s caps) 3 true
  else if k = 4 then stageFour s failed.toNat
  else if k = 5 then (if portsSettled s then stageEnd s 5 false else s)
  else s

section
variable {failed : Word} {banks : List (List ImageCheck)} {caps : List Nat} {mode : Fin 4} {s : State}

theorem castOn_idle (h : s.power.busy = false ∨ s.power.started = false) : exec (.castOnStageComplete failed banks caps mode) s = .next s :=
  congrArg Host.Outcome.next (if_pos (by rcases h with h | h <;> simp [h]))
theorem castOn_runs (busy : s.power.busy = true) (started : s.power.started = true) {k : Nat} (h : nextStage s = k) :
    exec (.castOnStageComplete failed banks caps mode) s = .next (castOnNext failed banks caps mode s k) := by
  subst h
  exact congrArg Host.Outcome.next (if_neg (by simp [busy, started]))

theorem nextStage_of {k : Nat} (h : s.power.stage = k) (low : k ≠ 15) : nextStage s = k + 1 := by
  unfold nextStage
  rw [h, if_neg low]
theorem castOnNext_two (active : s.power.powerState = 2) : castOnNext failed banks caps mode s 2 = stageEnd { s with hst := { s.hst with linkMode := mode.val, linkWidth := 16 } } 2 true := by
  unfold castOnNext
  rw [if_neg (by decide), if_neg (by decide), if_neg (not_not.2 active), if_pos rfl]
theorem castOnNext_three (active : s.power.powerState = 2) : castOnNext failed banks caps mode s 3 = stageEnd (stageThree s caps) 3 true := by
  unfold castOnNext
  rw [if_neg (by decide), if_neg (by decide), if_neg (not_not.2 active), if_neg (by decide), if_pos rfl]
theorem castOnNext_four (active : s.power.powerState = 2) : castOnNext failed banks caps mode s 4 = stageFour s failed.toNat := by
  unfold castOnNext
  rw [if_neg (by decide), if_neg (by decide), if_neg (not_not.2 active), if_neg (by decide), if_neg (by decide), if_pos rfl]
theorem castOnNext_five (active : s.power.powerState = 2) : castOnNext failed banks caps mode s 5 = if portsSettled s then stageEnd s 5 false else s := by
  unfold castOnNext
  rw [if_neg (by decide), if_neg (by decide), if_neg (not_not.2 active), if_neg (by decide), if_neg (by decide), if_neg (by decide), if_pos rfl]
theorem castOnNext_waits {k : Nat} (h : 2 ≤ k) (inactive : s.power.powerState ≠ 2) : castOnNext failed banks caps mode s k = s := by
  unfold castOnNext
  rw [if_neg (by omega), if_neg (by omega), if_pos inactive]

/-- Stage 1 boots the active bank's set, else the other's, else fails. -/
theorem castOn_boots (busy : s.power.busy = true) (started : s.power.started = true) (zero : s.power.stage = 0) (standby : s.power.powerState = 1) :
    let c := Instr.castOnStageComplete failed banks caps mode
    (setStatus s (banks.getD s.sec.activeBank []) = 0 → ∃ t, exec c s = .next t ∧ t.power.stage = 1 ∧ t.sec.running = banks.getD s.sec.activeBank [] ∧ t.sec.activeBank = s.sec.activeBank) ∧
    (setStatus s (banks.getD s.sec.activeBank []) ≠ 0 → setStatus s (banks.getD (1 - s.sec.activeBank) []) = 0 →
      ∃ t, exec c s = .next t ∧ t.power.stage = 1 ∧ t.sec.running = banks.getD (1 - s.sec.activeBank) [] ∧ t.sec.activeBank = 1 - s.sec.activeBank) ∧
    (setStatus s (banks.getD s.sec.activeBank []) ≠ 0 → setStatus s (banks.getD (1 - s.sec.activeBank) []) ≠ 0 → ∃ t, exec c s = .next t ∧ t.power.stage = 0 ∧ t.power.failed = true ∧
      t.power.failStage = 1 ∧ t.power.failStatus = setStatus s (banks.getD s.sec.activeBank []) ∧ LoggedEvent s t 0xA02 3 [1, setStatus s (banks.getD s.sec.activeBank [])]) := by
  have runs : exec (.castOnStageComplete failed banks caps mode) s = .next (stageOne s banks) :=
    (castOn_runs busy started (nextStage_of zero (by decide))).trans (congrArg Host.Outcome.next (if_pos standby))
  dsimp only
  rw [runs]
  refine ⟨fun first => ⟨_, rfl, ?_⟩, fun first second => ⟨_, rfl, ?_⟩, fun first second => ⟨_, rfl, ?_⟩⟩
  · rw [stageOne_first first]
    exact bootedWith_does s _
  · rw [stageOne_second first second]
    obtain ⟨stage, running, bank⟩ := bootedWith_does (mgtEvent { s with sec := { s.sec with activeBank := 1 - s.sec.activeBank, fallback := true } } 0xC01 2 [])
      (banks.getD (1 - s.sec.activeBank) [])
    exact ⟨stage, running, bank.trans (by rw [mgtEvent_sec])⟩
  · rw [stageOne_neither first second]
    obtain ⟨power, told⟩ := stageFail_does s s 1 (setStatus s (banks.getD s.sec.activeBank [])) rfl rfl
    rw [power]
    exact ⟨zero, rfl, rfl, rfl, told⟩

/-- The stages of an ACTIVE device. -/
theorem castOn_active (busy : s.power.busy = true) (started : s.power.started = true) (active : s.power.powerState = 2) :
    let c := Instr.castOnStageComplete failed banks caps mode
    (s.power.stage = 1 → ∃ t, exec c s = .next t ∧ OnlyParts [.hst, .power, .bg, .dict, .out] s t ∧ t.power.stage = 2 ∧ t.hst.linkMode = mode) ∧
    (s.power.stage = 2 → ∃ t, exec c s = .next t ∧ OnlyParts [.hst, .mifs, .fars, .power, .bg, .dict, .out] s t ∧ t.power.stage = 3 ∧ (t.hst.memActive = true ↔ s.hst.linkMode = 1) ∧
      ∀ k, k < 8 → (stack t k).state = if dieFailed s (80 + k) = true then 3 else 2) ∧
    (s.power.stage = 3 → activeMask s &&& (2 ^ 64 - 1 - failed.toNat) = 0 → ∃ t, exec c s = .next t ∧ t.power.stage = 3 ∧ t.power.failed = true ∧ t.power.failStatus = stCoreFenced) ∧
    (s.power.stage = 3 → activeMask s &&& (2 ^ 64 - 1 - failed.toNat) ≠ 0 → ∃ t, exec c s = .next t ∧ t.power.stage = 4 ∧
      (∀ a, isSpm a = true → mread t.mem a = 0) ∧ ∀ n, n < 64 → bit failed.toNat n = true → coreActive t n = false) ∧
    (s.power.stage = 4 → portsSettled s = true → ∃ t, exec c s = .next t ∧ OnlyParts [.power, .bg, .dict, .out] s t ∧ t.power.stage = 5 ∧ t.power.busy = false) ∧
    (s.power.stage = 4 → portsSettled s = false → exec c s = .next s) := by
  have runs {k : Nat} (h : s.power.stage = k) (low : k ≠ 15) := castOn_runs (failed := failed) (banks := banks) (caps := caps) (mode := mode) busy started (nextStage_of h low)
  refine ⟨fun h => ?_, fun h => ?_, fun h none_ => ?_, fun h some_ => ?_, fun h settled => ?_, fun h open_ => ?_⟩
  · refine ⟨_, (runs h (by decide)).trans (congrArg Host.Outcome.next (castOnNext_two active)), ?_, ?_, ?_⟩
    · exact OnlyParts.trans (l := [.hst]) (fun r hr => by cases r <;> first | (exfalso; simp at hr; done) | rfl) (stageEnd_parts _ _ _) (by decide) (by decide)
    · rw [stageEnd_power]
    · rw [stageEnd_parts _ _ _ .hst (by decide)]
  · obtain ⟨mem, stacksAre⟩ := stageThree_does s caps
    have three : OnlyParts [.hst, .mifs, .fars, .power] s (stageThree s caps) :=
      Within.onlyParts (l := [.hst, .mifs, .fars, .power]) (back := false) (stageThree_within rfl s caps .refl)
    refine ⟨_, (runs h (by decide)).trans (congrArg Host.Outcome.next (castOnNext_three active)), OnlyParts.trans three (stageEnd_parts _ _ _) (by decide) (by decide), ?_, ?_, ?_⟩
    · rw [stageEnd_power]
    · rw [stageEnd_parts _ _ _ .hst (by decide)]
      exact mem
    · intro k hk
      have same : stack (stageEnd (stageThree s caps) 3 true) k = stack (stageThree s caps) k := by
        unfold stack
        rw [stageEnd_parts _ _ _ .mifs (by decide)]
      rw [same]
      exact stacksAre k hk
  · have fails : castOnNext failed banks caps mode s 4 = stageFail s 4 stCoreFenced := (castOnNext_four active).trans (if_pos none_)
    obtain ⟨power, _⟩ := stageFail_does s s 4 stCoreFenced rfl rfl
    refine ⟨_, (runs h (by decide)).trans (congrArg Host.Outcome.next fails), ?_⟩
    rw [power]
    exact ⟨h, rfl, rfl⟩
  · exact ⟨_, (runs h (by decide)).trans (congrArg Host.Outcome.next (castOnNext_four active)), stageFour_passes s _ some_⟩
  · refine ⟨_, (runs h (by decide)).trans (congrArg Host.Outcome.next ((castOnNext_five active).trans (if_pos settled))), stageEnd_parts _ _ _, ?_⟩
    rw [stageEnd_power]
    exact ⟨rfl, rfl⟩
  · exact (runs h (by decide)).trans (congrArg Host.Outcome.next ((castOnNext_five active).trans (if_neg (by rw [open_]; decide))))

end

/-- A stage 3 that fails names its stack and channel (13 R333). -/
def failNoted (k : StackId) (ch : Channel) (s : State) : State :=
  if nextStage s = 3 then updStack (setReg s (mifOff k MIF_LAST_ERROR) (3 + ch * 4)) k (fun x => { x with state := 3 }) else s
theorem failNoted_same (k : StackId) (ch : Channel) (s : State) : (failNoted k ch s).power = s.power ∧ (failNoted k ch s).dict = s.dict ∧ now (failNoted k ch s) = now s := by
  unfold failNoted
  split <;> exact ⟨rfl, rfl, rfl⟩

theorem castOnFail_does (status : BitVec 16) (k : StackId) (ch : Channel) (s : State) (busy : s.power.busy = true) (started : s.power.started = true) :
    ∃ t, exec (.castOnStageFail status k ch) s = .next t ∧ t.power.failed = true ∧ t.power.busy = false ∧ t.power.stage = s.power.stage ∧
      t.power.failStatus = status.toNat ∧ t.power.failStage = nextStage s ∧ LoggedEvent s t 0xA02 3 [nextStage s, status.toNat] := by
  obtain ⟨kept, dict, time⟩ := failNoted_same k ch s
  obtain ⟨power, told⟩ := stageFail_does s (failNoted k ch s) (nextStage s) status.toNat (by rw [dict]) time
  rw [kept] at power
  refine ⟨stageFail (failNoted k ch s) (nextStage s) status.toNat, congrArg Host.Outcome.next (if_neg (by simp [busy, started])), ?_⟩
  rw [power]
  exact ⟨rfl, rfl, rfl, rfl, rfl, told⟩

/-! PERST_N (R449). -/

/-- The state in which PERST_N's assertion has been noted. -/
def perstNoted (highest bus : Nat) (s : State) : State :=
  let u := setLevel { s with power := { s.power with highest := highest, busMv := bus } } 0 false
  { u with power := { u.power with perstHeld := true } }

section
variable {highest bus : Nat} {s : State}

theorem perstNAssert_resets (h : s.power.powerState = 1 ∨ s.power.powerState = 2 ∨ s.power.powerState = 4 ∧ s.power.cause ≠ 1 ∧ highest < 85 ∧ bus < 60000) :
    exec (.perstNAssert highest bus) s = .next (perstReset (perstNoted highest bus s)) := by
  refine congrArg Host.Outcome.next ((if_neg (by show ¬s.power.powerState = 3; omega)).trans ?_)
  by_cases runs : s.power.powerState = 1 ∨ s.power.powerState = 2
  · exact if_pos runs
  · exact (if_neg runs).trans (if_pos (by have := h; simp only [← or_assoc] at this; exact this.resolve_left runs))
theorem perstNAssert_holds (halted : s.power.powerState = 4) (h : s.power.cause = 1 ∨ 85 ≤ highest ∨ 60000 ≤ bus) :
    exec (.perstNAssert highest bus) s = .next (perstNoted highest bus s) := by
  refine congrArg Host.Outcome.next ((if_neg (by show ¬s.power.powerState = 3; omega)).trans ?_)
  refine (if_neg (by show ¬(s.power.powerState = 1 ∨ s.power.powerState = 2); omega)).trans (if_neg ?_)
  show ¬(s.power.powerState = 4 ∧ s.power.cause ≠ 1 ∧ highest < 85 ∧ bus < 60000)
  omega

theorem perstNAssert_resets_does
    (h : s.power.powerState = 1 ∨ s.power.powerState = 2 ∨ s.power.powerState = 4 ∧ s.power.cause ≠ 1 ∧ highest < 85 ∧ bus < 60000) :
    ∃ t, exec (.perstNAssert highest bus) s = .next t ∧ t.power.powerState = 1 ∧ t.power.perstHeld = true ∧ t.cores = [] ∧
      t.power.stage = (if s.power.stage = 15 then 15 else min 1 s.power.stage) ∧ now t = now s ∧
      t.clock.locked = false ∧ t.saves = s.saves ∧ (∀ a, isNear a = true ∨ isSpm a = true → mread t.mem a = 0) := by
  obtain ⟨k, power⟩ := perstReset_power (perstNoted highest bus s)
  obtain ⟨cores, time, unlocked, saves, memory⟩ := perstReset_does (perstNoted highest bus s)
  exact ⟨_, perstNAssert_resets h, congrArg (·.powerState) power, congrArg (·.perstHeld) power, cores, congrArg (·.stage) power, time, unlocked, saves, memory⟩

end

/-- PERST_N deasserts. -/
theorem perstNDeassert_does (s : State) (h : s.power.powerState ≠ 3) :
    (bit s.power.chatter 0 = true → ∃ t, exec .perstNDeassert s = .next t ∧ OnlyParts [.power] s t ∧ t.power.perstHeld = s.power.perstHeld) ∧
    (bit s.power.chatter 0 = false → ∃ t, exec .perstNDeassert s = .next t ∧ OnlyParts [.power] s t ∧ t.power.perstHeld = false ∧ t.power.perstAt = now s ∧
      t.power.powerState = if s.power.powerState = 1 ∧ stageDone s 1 = true ∧ s.power.bankReady = true ∧ s.power.failed = false then 2 else s.power.powerState) := by
  have does : exec .perstNDeassert s = .next (perstReleases (setLevel s 0 true)) := congrArg Host.Outcome.next (if_neg h)
  rw [does]
  refine ⟨fun latched => ⟨_, rfl, ?_⟩, fun free => ⟨_, rfl, ?_⟩⟩
  · have held : perstReleases (setLevel s 0 true) = setLevel s 0 true := if_pos (by
      rw [show bit (setLevel s 0 true).power.chatter 0 = true from latched]
      rfl)
    rw [held]
    refine ⟨fun r hr => ?_, rfl⟩
    cases r <;> first | (exfalso; simp at hr; done) | rfl
  · have high : bit (setLevel s 0 true).power.levels 0 = true := bit_putBits_pin _ (by decide) true
    rw [perstReleases_free (s := setLevel s 0 true) free high]
    refine ⟨OnlyParts.trans (l := [.power]) (fun r hr => ?_) (tryActive_parts _) (by decide) (by decide), tryActive_keeps (·.perstHeld) (fun _ _ => rfl) _,
      tryActive_keeps (·.perstAt) (fun _ _ => rfl) _, ?_⟩
    · cases r <;> first | (exfalso; simp at hr; done) | rfl
    · split
      · next may =>
        obtain ⟨standby, booted, ready, sound⟩ := may
        exact tryActive_yes ⟨standby, booted, rfl, ready, sound⟩
      · next mayNot =>
        refine congrArg (·.power.powerState) (tryActive_no ?_)
        rintro ⟨standby, booted, _, ready, sound⟩
        exact mayNot ⟨standby, booted, ready, sound⟩

/-! The bank, and the loss of the bus (R445). -/

theorem bankCharged_does (bank bus : Nat) (s : State) : ∃ t, exec (.bankCharged bank bus) s = .next t ∧ OnlyParts [.power] s t ∧ t.power.bankMv = bank ∧ t.power.busMv = bus ∧
    t.power.powerState = if s.power.powerState = 1 ∧ stageDone s 1 = true ∧ s.power.perstHeld = false ∧ bus ≤ bank + 1000 ∧ s.power.failed = false then 2 else s.power.powerState := by
  refine ⟨_, rfl, OnlyParts.trans (l := [.power]) (fun r hr => ?_) (tryActive_parts _) (by decide) (by decide), tryActive_keeps (·.bankMv) (fun _ _ => rfl) _,
    tryActive_keeps (·.busMv) (fun _ _ => rfl) _, ?_⟩
  · cases r <;> first | (exfalso; simp at hr; done) | rfl
  · split
    · next may =>
      obtain ⟨standby, booted, held, ready, sound⟩ := may
      exact tryActive_yes ⟨standby, booted, held, decide_eq_true ready, sound⟩
    · next mayNot =>
      refine congrArg (·.power.powerState) (tryActive_no ?_)
      rintro ⟨standby, booted, held, ready, sound⟩
      exact mayNot ⟨standby, booted, held, of_decide_eq_true ready, sound⟩

/-- An interrupted burn leaves each counter between its old and its new value (20 R499). -/
theorem rollback_breakBurn (s : State) (c : Nat) : rollback s c ≤ rollback (breakBurn s) c := by
  have raised (l : Tab Nat) (u : State) : rollback u c ≤ rollback (each l u (fun s p =>
      let f := freshFree s
      raiseCounter f.2 p.1 (rollback s p.1 + f.1 % (p.2 - rollback s p.1 + 1)))) c := by
    induction l generalizing u with
    | nil => exact Nat.le_refl _
    | cons p l ih =>
      refine Nat.le_trans ?_ (ih _)
      dsimp only
      rw [rollback_raiseCounter]
      have same : rollback (freshFree u).2 c = rollback u c := rfl
      have top := rollback_le u c
      split
      · next here =>
        rw [here, same]
        omega
      · rw [same]
  unfold breakBurn
  split
  · exact Nat.le_refl _
  · exact raised _ _

theorem busOff_does (s : State) : ∃ t, exec .busOff s = .next t ∧ t.power.powerState = 0 ∧ (∀ off, reg t off = regReset off) ∧ t.dict = {} ∧ t.cores = [] ∧ t.saves = s.saves ∧
    t.wear = s.wear ∧ t.pkg.fenced = s.pkg.fenced ∧ now t = 0 ∧ (∀ c, rollback s c ≤ rollback t c) ∧ ∀ a, isNear a = true ∨ isSpm a = true → mread t.mem a = 0 := by
  have broken : OnlyParts [.freeIdx, .sec] (powerDown s) (breakBurn (powerDown s)) :=
    Within.onlyParts (l := [.freeIdx, .sec]) (back := false) (breakBurn_within rfl (powerDown s) .refl)
  refine ⟨_, rfl, rfl, fun _ => rfl, rfl, broken .cores (by decide), broken .saves (by decide), broken .wear (by decide), ?_, rfl, fun c => rollback_breakBurn (powerDown s) c, fun a ha => ?_⟩
  · exact congrArg (·.fenced) (broken .pkg (by decide))
  · have mem : (breakBurn (powerDown s)).mem = (powerDown s).mem := broken .mem (by decide)
    show mread (breakBurn (powerDown s)).mem a = 0
    rw [mem]
    exact powerDown_memory s a ha

/-- Settles O44: each stage by its own function, PERST_N by perstReset, the bus by powerDown. The near tier and the scratchpads read 0 where no byte is kept (log entry 7);
other dies return to reset, STAGE is at most 1, and a stack whose die is lost stands at state 3 (log entry 57). -/
theorem powerStates : Obligations.PowerStates := by
  refine ⟨fun s => rfl, fun feed slot s => ⟨fun h => ?_, fun en off => ?_⟩, bankCharged_does, fun failed banks caps mode s => ⟨castOn_idle, fun busy started => ⟨fun off standby => ?_,
    castOn_boots busy started, fun on inactive => ?_, castOn_active busy started⟩⟩, fun status k ch s => ⟨fun h => ?_, castOnFail_does status k ch s⟩, fun highest bus s => ⟨fun h => ?_,
    perstNAssert_resets_does, fun halted h => ⟨_, perstNAssert_holds halted h, fun r hr => ?_, halted, rfl⟩⟩, fun s => ⟨fun h => ?_, fun h => (perstNDeassert_does s h).1,
    fun h free _ => (perstNDeassert_does s h).2 free⟩, busOff_does⟩
  · refine congrArg Host.Outcome.next (if_neg ?_)
    rcases h with h | ⟨state, started⟩
    · simp [h]
    · simp [state, started]
  · refine ⟨_, congrArg Host.Outcome.next (if_pos (by rcases off with h | h <;> simp [en, h])), fun r hr => ?_, rfl, rfl, rfl, rfl, rfl, rfl, rfl, rfl, rfl⟩
    cases r <;> first | (exfalso; simp at hr; done) | rfl
  · have zero : nextStage s = 0 := if_pos off
    refine ⟨_, (castOn_runs busy started zero).trans (congrArg Host.Outcome.next (if_pos standby)), stageEnd_parts _ _ _, ?_, ?_, stageEnd_heartbeat _ _ _ (by decide)⟩
    · rw [stageEnd_power]
    · rw [stageEnd_power]
  · have stage : s.power.stage ≠ 15 ∧ 1 ≤ s.power.stage := by
      simp only [List.mem_cons, List.not_mem_nil, or_false] at on
      omega
    exact (castOn_runs busy started (nextStage_of rfl stage.1)).trans (congrArg Host.Outcome.next (castOnNext_waits (by omega) inactive))
  · exact congrArg Host.Outcome.next (if_pos (by rcases h with h | h <;> simp [h]))
  · exact congrArg Host.Outcome.next (if_pos h)
  · cases r <;> first | (exfalso; simp at hr; done) | rfl
  · exact congrArg Host.Outcome.next (if_pos h)

end Sys2Proof.Machine
end

section
/-! SUPPORT. A lifeline and the words of its strand's entry that show it (17 R427). -/

namespace Sys2Proof.Machine

open Sys2Proof Sys2Proof.Safety

/-- An event of the management die, seen from a state whose log and clock are as they are. -/
theorem raise_mgt_loggedFrom {s u : State} (code severity strandN coreN : Nat) (args : List Nat) (seq : u.dict.eventSeq = s.dict.eventSeq) (time : now u = now s) :
    LoggedEvent s (raise u mgtDie code severity strandN coreN args) code severity args := by
  obtain ⟨count, e, last, hcode, hsev, htime, hargs⟩ := raise_mgt_logged u code severity strandN coreN args
  exact ⟨count.trans (by rw [seq]), e, last, hcode, hsev, htime.trans time, hargs⟩
theorem raise_mgt_keeps {β : Type} (g : State → β) (s : State) (code severity strandN coreN : Nat) (args : List Nat) (hd : ∀ (u : State) d, g { u with dict := d } = g u)
    (hm : ∀ u, g (sendMsix u 0) = g u) (ho : ∀ u o, g (emit u o) = g u) : g (raise s mgtDie code severity strandN coreN args) = g s := by
  unfold raise
  rw [if_pos rfl]
  exact logEvent_keeps g s _ hd hm ho
theorem logged_congr {s t u : State} {code severity : Nat} {args : List Nat} (h : LoggedEvent s t code severity args) (dict : u.dict = t.dict) :
    LoggedEvent s u code severity args := by
  obtain ⟨count, e, last, rest⟩ := h
  refine ⟨by rw [dict]; exact count, e, ?_, rest⟩
  unfold latestEvent at *
  rw [dict]
  exact last

/-! Words stored one after the other. -/

theorem words_stored (n : Nat) (l : List Nat) (k : Nat) (s : State) (canonical : MemoryCanonical s) :
    (∀ i, i < l.length → rd64 (each (l.zipIdx k) s (fun s w => wr64 s (strandEntry s n (16 + w.2)) w.1)) (strandEntry s n (16 + (k + i))) = l.getD i 0 % 2 ^ 64) ∧
    ∀ b, b + 8 ≤ strandEntry s n (16 + k) → rd64 (each (l.zipIdx k) s (fun s w => wr64 s (strandEntry s n (16 + w.2)) w.1)) b = rd64 s b := by
  induction l generalizing k s with
  | nil => exact ⟨fun i hi => absurd hi (by simp), fun _ _ => rfl⟩
  | cons x l ih =>
    have next : strandEntry s n (16 + (k + 1)) = strandEntry s n (16 + k) + 8 := by
      unfold strandEntry
      omega
    obtain ⟨later, before⟩ := ih (k + 1) (wr64 s (strandEntry s n (16 + k)) x) (memWf_wr64 s _ x canonical)
    refine ⟨fun i hi => ?_, fun b hb => ?_⟩
    · cases i with
      | zero => exact (before _ (Nat.le_of_eq next.symm)).trans (rd64_wr64 s _ x canonical)
      | succ i =>
        have there := later i (by simpa using hi)
        rw [show k + 1 + i = k + (i + 1) by omega] at there
        exact there
    · refine (before b (show b + 8 ≤ strandEntry s n (16 + (k + 1)) by omega)).trans (rd64_wr64_ne s _ x b canonical (.inl hb))

section
variable (s : State) (n : Nat) (f : Lifeline → Lifeline)

theorem setLl_parts : OnlyParts [.mem, .lifelines] s (setLl s n f) := Within.onlyParts (l := [.mem, .lifelines]) (back := false) (setLl_within rfl s n f .refl)
theorem setLl_lifelines : (setLl s n f).lifelines = (updLifeline s n f).lifelines := each_keeps (·.lifelines) _ _ _ (fun _ _ _ => rfl)
theorem lifeline_setLl (m : Nat) : lifeline (setLl s n f) m = if n = m then f (lifeline s n) else lifeline s m := by
  have same : lifeline (setLl s n f) m = lifeline (updLifeline s n f) m := by
    unfold lifeline
    rw [setLl_lifelines]
  rw [same, lifeline_updLifeline]
theorem lifeline_setLl_same : lifeline (setLl s n f) n = f (lifeline s n) := (lifeline_setLl s n f n).trans (if_pos rfl)

/-- Its words show it. -/
theorem setLl_shown (canonical : MemoryCanonical s) : LifelineShown (setLl s n f) n := by
  intro i hi
  have entry : strandEntry (setLl s n f) n (16 + i) = strandEntry (updLifeline s n f) n (16 + (0 + i)) := by
    unfold strandEntry reg
    rw [setLl_parts s n f .regs (by decide), Nat.zero_add]
    rfl
  have words : lifeline (setLl s n f) n = lifeline (updLifeline s n f) n := by
    unfold lifeline
    rw [setLl_lifelines]
  rw [entry, words]
  exact (words_stored n (llWords (lifeline (updLifeline s n f) n)) 0 (updLifeline s n f) canonical).1 i hi

end

/-- The words go on showing a lifeline where it, the memory and the base of the strand table stay. -/
theorem shown_congr {s t : State} {n : Nat} (h : LifelineShown s n) (mem : t.mem = s.mem) (lifelines : t.lifelines = s.lifelines)
    (base : reg t (strandOff HST_STRAND_BASE) = reg s (strandOff HST_STRAND_BASE)) : LifelineShown t n := by
  intro i hi
  have entry : strandEntry t n (16 + i) = strandEntry s n (16 + i) := by
    unfold strandEntry
    rw [base]
  rw [entry, rd64_congr mem, show lifeline t n = lifeline s n by unfold lifeline; rw [lifelines]]
  exact h i hi

/-- An action's end shows its result and leaves the lifelines. -/
theorem llEnd_parts (s : State) (result status : Nat) : OnlyParts [.llResult, .llStatus] s (llEnd s result status) := fun r hr => by
  cases r <;> first | (exfalso; simp at hr; done) | rfl
theorem setLl_llEnd_parts (s : State) (n : Nat) (f : Lifeline → Lifeline) (result status : Nat) :
    OnlyParts [.mem, .lifelines, .llResult, .llStatus] s (llEnd (setLl s n f) result status) :=
  OnlyParts.trans (setLl_parts s n f) (llEnd_parts _ result status) (by decide) (by decide)
theorem llEnd_shown {u : State} {n : Nat} (result status : Nat) (shown : LifelineShown u n) : LifelineShown (llEnd u result status) n :=
  shown_congr shown rfl rfl rfl
theorem setLl_llEnd_shown (s : State) (n : Nat) (f : Lifeline → Lifeline) (result status : Nat) (canonical : MemoryCanonical s) :
    LifelineShown (llEnd (setLl s n f) result status) n := llEnd_shown result status (setLl_shown s n f canonical)
theorem lifeline_llEnd (s : State) (result status m : Nat) : lifeline (llEnd s result status) m = lifeline s m := rfl
theorem llEnd_shows (s : State) (result status : Nat) : (llEnd s result status).llResult = result ∧ (llEnd s result status).llStatus = status := ⟨rfl, rfl⟩

/-! The end of a securing (R432, R436). -/

theorem countMarker_parts (s : State) (c k : Nat) : OnlyParts [.regs, .cores, .net] s (countMarker s c k) :=
  Within.onlyParts (l := [.regs, .cores, .net]) (back := false) (countMarker_within rfl s c k .refl)
theorem releaseStep_parts (s : State) (n : Nat) : OnlyParts [.regs, .cores, .net] s (releaseStep s n) := countMarker_parts s _ _
theorem lifeline_congr {s t : State} (h : t.lifelines = s.lifelines) (n : Nat) : lifeline t n = lifeline s n := by
  unfold lifeline
  rw [h]

theorem releaseStep_lifelines (s : State) (n : Nat) : (releaseStep s n).lifelines = s.lifelines := releaseStep_parts s n .lifelines (by decide)
theorem endSecuring_lifeline (s : State) (n : Nat) : lifeline (endSecuring s n) n = { lifeline s n with securing := false, mark := none } := by
  unfold endSecuring
  rw [lifeline_congr (releaseStep_lifelines _ n), lifeline_setLl_same]
theorem endSecuring_parts (s : State) (n : Nat) : OnlyParts [.regs, .mem, .cores, .lifelines, .net] s (endSecuring s n) := by
  unfold endSecuring
  exact OnlyParts.trans (setLl_parts s n _) (releaseStep_parts _ n) (by decide) (by decide)

/-- Where no disarm waits the securing alone ends; a disarm that waits clears the lifeline. -/
theorem securingEnds_stays (s : State) (n : Nat) (h : (lifeline s n).disarming = false) : securingEnds s n = endSecuring s n := by
  unfold securingEnds finishDisarm
  rw [endSecuring_lifeline, h, if_neg (by decide)]
theorem securingEnds_disarms (s : State) (n : Nat) (h : (lifeline s n).disarming = true) : securingEnds s n = llEnd (setLl (endSecuring s n) n (fun _ => {})) 0 0 := by
  unfold securingEnds finishDisarm
  rw [endSecuring_lifeline, h, if_pos rfl]

theorem securingEnds_regs (s : State) (n : Nat) : (securingEnds s n).regs = (endSecuring s n).regs := by
  unfold securingEnds finishDisarm
  split
  · exact setLl_llEnd_parts (endSecuring s n) n (fun _ => {}) 0 0 .regs (by decide)
  · rfl
theorem securingEnds_dict (s : State) (n : Nat) : (securingEnds s n).dict = s.dict := by
  have ended : (endSecuring s n).dict = s.dict := endSecuring_parts s n .dict (by decide)
  unfold securingEnds finishDisarm
  split
  · exact (setLl_llEnd_parts (endSecuring s n) n (fun _ => {}) 0 0 .dict (by decide)).trans ended
  · exact ended

/-- What a lifeline is once its securing has ended. -/
theorem securingEnds_does (s : State) (n : Nat) :
    ((lifeline s n).disarming = true → lifeline (securingEnds s n) n = {} ∧ (securingEnds s n).llResult = 0 ∧ (securingEnds s n).llStatus = 0) ∧
    ((lifeline s n).disarming = false → lifeline (securingEnds s n) n = { lifeline s n with securing := false, mark := none } ∧ (securingEnds s n).llResult = s.llResult) := by
  refine ⟨fun h => ?_, fun h => ?_⟩
  · rw [securingEnds_disarms s n h]
    exact ⟨(lifeline_llEnd ..).trans (lifeline_setLl_same ..), llEnd_shows _ 0 0⟩
  · rw [securingEnds_stays s n h]
    exact ⟨endSecuring_lifeline s n, endSecuring_parts s n .llResult (by decide)⟩

end Sys2Proof.Machine
end

section
/-! PROOF. The pairing of a lifeline (17 R428, R436). -/

namespace Sys2Proof.Machine

open Sys2Proof Sys2Proof.Safety

section
variable {n : StrandId} {s : State}

/-! The holder's answer. -/

/-- The state in which a holder has noted the request, where it takes it. -/
def armNoted (s : State) (n : Nat) (feed : BitVec 4) (size : BitVec 40) : State :=
  if armAnswer (lifeline s n) size.toNat = 0 then setLl s n (fun x => { x with state := 2, partnerFeed := feed.toNat, needBytes := size.toNat, hmark := none }) else s
theorem armReq_is {feed : BitVec 4} {k : BitVec 16} {size : BitVec 40} : exec (.armReq n feed k size) s = .next (postRecord (armNoted s n feed size) n 0x040
    [(armNoted s n feed size).power.feedId % 16 + armAnswer (lifeline s n) size.toNat * 2 ^ 4, (lifeline s n).slotBytes]) := rfl
theorem armReq_refused {feed : BitVec 4} {k : BitVec 16} {size : BitVec 40} {r : Nat} (h : armAnswer (lifeline s n) size.toNat = r) (nonzero : r ≠ 0) :
    exec (.armReq n feed k size) s = .next (postRecord s n 0x040 [s.power.feedId % 16 + r * 2 ^ 4, (lifeline s n).slotBytes]) := by
  rw [armReq_is, armNoted, h, if_neg nonzero]
theorem armReq_taken {feed : BitVec 4} {k : BitVec 16} {size : BitVec 40} (h : armAnswer (lifeline s n) size.toNat = 0) :
    exec (.armReq n feed k size) s = .next (postRecord (setLl s n (fun x => { x with state := 2, partnerFeed := feed.toNat, needBytes := size.toNat, hmark := none })) n 0x040
      [s.power.feedId % 16, (lifeline s n).slotBytes]) := by
  have power := setLl_parts s n (fun x => { x with state := 2, partnerFeed := feed.toNat, needBytes := size.toNat, hmark := none }) .power (by decide)
  rw [armReq_is, armNoted, h, if_pos rfl, Nat.zero_mul, Nat.add_zero, show State.power _ = s.power from power]

/-! The source's end of the action. -/

theorem armAck_waits {feed : BitVec 4} {r : BitVec 2} {size : BitVec 40} (h : (lifeline s n).role ≠ 1 ∨ (lifeline s n).state ≠ 1) :
    exec (.armAck n feed r size) s = .next s := congrArg Host.Outcome.next (if_pos h)
theorem armAck_runs {feed : BitVec 4} {r : BitVec 2} {size : BitVec 40} (role : (lifeline s n).role = 1) (state : (lifeline s n).state = 1) :
    exec (.armAck n feed r size) s = .next (
      if r ≠ 0#2 then llEnd (setLl s n (fun x => { x with state := 0 })) 2 stValueOutOfRange
      else if (feed.toNat == s.power.feedId % 16 && objNat s 0x700102 == 0) = true then llEnd (setLl s n (fun x => { x with state := 0 })) 2 stPartnerSameFeed
      else if (feed.toNat == s.power.feedId % 16) = true then
        let u := setLl s n (fun x => { x with state := 2, correlated := true, partnerFeed := feed.toNat })
        llEnd (raise { u with correlatedArms := u.correlatedArms + 1 } mgtDie 0x901 1 n 0 [n, peerDev u n]) 0 0
      else llEnd (setLl s n (fun x => { x with state := 2, partnerFeed := feed.toNat })) 0 0) :=
  congrArg Host.Outcome.next (if_neg (by simp [role, state]))

/-- A correlated pair is told of (R428). -/
theorem armAck_correlated (feed : BitVec 4) :
    let u := setLl s n (fun x => { x with state := 2, correlated := true, partnerFeed := feed.toNat })
    let t := llEnd (raise { u with correlatedArms := u.correlatedArms + 1 } mgtDie 0x901 1 n 0 [n, peerDev u n]) 0 0
    lifeline t n = { lifeline s n with state := 2, correlated := true, partnerFeed := feed.toNat } ∧
      t.correlatedArms = s.correlatedArms + 1 ∧ LoggedEvent s t 0x901 1 [n, peerDev s n] := by
  dsimp only
  have parts := setLl_parts s n (fun x => { x with state := 2, correlated := true, partnerFeed := feed.toNat })
  have changed := lifeline_setLl_same s n (fun x => { x with state := 2, correlated := true, partnerFeed := feed.toNat })
  generalize setLl s n (fun x => { x with state := 2, correlated := true, partnerFeed := feed.toNat }) = u at *
  have peer : peerDev u n = peerDev s n := by
    unfold peerDev strandWord strand
    rw [parts .hst (by decide)]
  rw [peer]
  refine ⟨?_, ?_, logged_congr (raise_mgt_loggedFrom (s := s) (u := { u with correlatedArms := u.correlatedArms + 1 }) _ _ _ _ _
    (congrArg (·.eventSeq) (parts .dict (by decide))) (congrArg (·.reftime) (parts .clock (by decide)))) rfl⟩
  · refine (lifeline_congr ?_ n).trans changed
    exact raise_mgt_keeps (·.lifelines) _ _ _ _ _ _ (fun _ _ => rfl) (fun v => by unfold sendMsix; dsimp only; split <;> rfl) (fun _ _ => rfl)
  · have counted : u.correlatedArms = s.correlatedArms := parts .correlatedArms (by decide)
    rw [← counted]
    exact raise_mgt_keeps (·.correlatedArms) { u with correlatedArms := u.correlatedArms + 1 } _ _ _ _ _ (fun _ _ => rfl)
      (fun v => by unfold sendMsix; dsimp only; split <;> rfl) (fun _ _ => rfl)

/-- An end of ARM that leaves the lifeline shown. -/
theorem armEnd_shown (canonical : MemoryCanonical s) (f : Lifeline → Lifeline) (result status : Nat) :
    let t := llEnd (setLl s n f) result status
    (OnlyParts [.mem, .lifelines, .llResult, .llStatus] s t ∧ LifelineShown t n) ∧ t.llResult = result ∧ t.llStatus = status ∧ lifeline t n = f (lifeline s n) := by
  obtain ⟨hresult, hstatus⟩ := llEnd_shows (setLl s n f) result status
  exact ⟨⟨setLl_llEnd_parts s n f result status, setLl_llEnd_shown s n f result status canonical⟩, hresult, hstatus, (lifeline_llEnd ..).trans (lifeline_setLl_same s n f)⟩

theorem armAck_does (canonical : MemoryCanonical s) (feed : BitVec 4) (r : BitVec 2) (size : BitVec 40) (role : (lifeline s n).role = 1) (state : (lifeline s n).state = 1) :
    let x := lifeline s n
    let c := Instr.armAck n feed r size
    let shown : State → Prop := fun t => OnlyParts [.mem, .lifelines, .llResult, .llStatus] s t ∧ LifelineShown t n
    (r ≠ 0 → ∃ t, exec c s = .next t ∧ shown t ∧ t.llResult = 2 ∧ t.llStatus = stValueOutOfRange ∧ lifeline t n = { x with state := 0 }) ∧
    (r = 0 → feed.toNat = s.power.feedId % 16 → objNat s 0x700102 = 0 →
      ∃ t, exec c s = .next t ∧ shown t ∧ t.llResult = 2 ∧ t.llStatus = stPartnerSameFeed ∧ lifeline t n = { x with state := 0 }) ∧
    (r = 0 → feed.toNat = s.power.feedId % 16 → objNat s 0x700102 ≠ 0 →
      ∃ t, exec c s = .next t ∧ t.llResult = 0 ∧ t.llStatus = 0 ∧ lifeline t n = { x with state := 2, correlated := true, partnerFeed := feed.toNat } ∧
        t.correlatedArms = s.correlatedArms + 1 ∧ LoggedEvent s t 0x901 1 [n, peerDev s n]) ∧
    (r = 0 → feed.toNat ≠ s.power.feedId % 16 →
      ∃ t, exec c s = .next t ∧ shown t ∧ t.llResult = 0 ∧ t.llStatus = 0 ∧ lifeline t n = { x with state := 2, partnerFeed := feed.toNat }) := by
  dsimp only
  rw [armAck_runs role state, show (0 : BitVec 2) = 0#2 from rfl]
  refine ⟨fun refused => ⟨_, rfl, ?_⟩, fun taken same free => ⟨_, rfl, ?_⟩, fun taken same allowed => ⟨_, rfl, ?_⟩, fun taken other => ⟨_, rfl, ?_⟩⟩
  · rw [if_pos refused]
    exact armEnd_shown canonical _ 2 _
  · rw [if_neg (not_not.2 taken), if_pos (by simp [same, free])]
    exact armEnd_shown canonical _ 2 _
  · rw [if_neg (not_not.2 taken), if_neg (by simp [allowed]), if_pos (by simp [same])]
    exact ⟨rfl, rfl, armAck_correlated feed⟩
  · rw [if_neg (not_not.2 taken), if_neg (by simp [other]), if_neg (by simp [other])]
    exact armEnd_shown canonical _ 0 0

/-! The partner's loss (R436). -/

/-- The state in which a partner's loss is noted and told of. -/
def partnerLost (s : State) (n : Nat) : State :=
  let u := setLl s n (fun x => { x with state := 3, failures := x.failures + 1, hmark := none })
  raise u mgtDie 0x902 2 n 0 [n, peerDev u n]

theorem lifelineBroken_runs (role : (lifeline s n).role ≠ 0) (state : (lifeline s n).state = 2) :
    exec (.lifelineBroken n) s = .next (if (lifeline s n).securing = true then securingEnds (partnerLost s n) n else partnerLost s n) :=
  congrArg Host.Outcome.next (if_neg (by simp [role, state]))

theorem partnerLost_does (canonical : MemoryCanonical s) : LoggedEvent s (partnerLost s n) 0x902 2 [n, peerDev s n] ∧
    lifeline (partnerLost s n) n = { lifeline s n with state := 3, failures := (lifeline s n).failures + 1, hmark := none } ∧ LifelineShown (partnerLost s n) n := by
  have parts := setLl_parts s n (fun x => { x with state := 3, failures := x.failures + 1, hmark := none })
  have changed := lifeline_setLl_same s n (fun x => { x with state := 3, failures := x.failures + 1, hmark := none })
  have shown := setLl_shown s n (fun x => { x with state := 3, failures := x.failures + 1, hmark := none }) canonical
  unfold partnerLost
  dsimp only
  generalize setLl s n (fun x => { x with state := 3, failures := x.failures + 1, hmark := none }) = u at *
  have peer : peerDev u n = peerDev s n := by
    unfold peerDev strandWord strand
    rw [parts .hst (by decide)]
  have lifelines : (raise u mgtDie 0x902 2 n 0 [n, peerDev s n]).lifelines = u.lifelines :=
    raise_mgt_keeps (·.lifelines) _ _ _ _ _ _ (fun _ _ => rfl) (fun v => by unfold sendMsix; dsimp only; split <;> rfl) (fun _ _ => rfl)
  have mem : (raise u mgtDie 0x902 2 n 0 [n, peerDev s n]).mem = u.mem :=
    raise_mgt_keeps (·.mem) _ _ _ _ _ _ (fun _ _ => rfl) (fun v => by unfold sendMsix; dsimp only; split <;> rfl) (fun _ _ => rfl)
  rw [peer]
  exact ⟨raise_mgt_loggedFrom _ _ _ _ _ (congrArg (·.eventSeq) (parts .dict (by decide))) (congrArg (·.reftime) (parts .clock (by decide))),
    (lifeline_congr lifelines n).trans changed, shown_congr shown mem lifelines (raise_reg _ _ _ _ _ _ _ (by decide))⟩

theorem lifelineBroken_does (canonical : MemoryCanonical s) (role : (lifeline s n).role ≠ 0) (state : (lifeline s n).state = 2) : let x := lifeline s n
    ∃ t, exec (.lifelineBroken n) s = .next t ∧ LoggedEvent s t 0x902 2 [n, peerDev s n] ∧
      (x.securing = false → lifeline t n = { x with state := 3, failures := x.failures + 1, hmark := none } ∧ LifelineShown t n) ∧
      (x.securing = true → x.disarming = false →
        lifeline t n = { x with state := 3, failures := x.failures + 1, hmark := none, securing := false, mark := none }) ∧
      (x.securing = true → x.disarming = true → lifeline t n = {} ∧ t.llResult = 0) := by
  dsimp only
  obtain ⟨told, lost, shown⟩ := partnerLost_does (n := n) canonical
  refine ⟨_, lifelineBroken_runs role state, ?_⟩
  rcases Bool.eq_false_or_eq_true (lifeline s n).securing with securing | securing
  · rw [if_pos securing]
    obtain ⟨disarms, stays⟩ := securingEnds_does (partnerLost s n) n
    have disarming : (lifeline (partnerLost s n) n).disarming = (lifeline s n).disarming := by rw [lost]
    refine ⟨logged_congr told (securingEnds_dict _ n), fun h => absurd h (by rw [securing]; decide), fun _ h => ?_, fun _ h => ?_⟩
    · exact (stays (disarming.trans h)).1.trans (by rw [lost])
    · obtain ⟨cleared, result, _⟩ := disarms (disarming.trans h)
      exact ⟨cleared, result⟩
  · rw [if_neg (by rw [securing]; decide)]
    exact ⟨told, fun _ => ⟨lost, shown⟩, fun h => absurd h (by rw [securing]; decide), fun h => absurd h (by rw [securing]; decide)⟩

end

/-- Settles O48: the answer to ARM_REQ is armAnswer's, and each end of ARM one setLl that the strand's entry shows. -/
theorem lifelinePairing : Obligations.LifelinePairing := by
  refine fun n s canonical => ⟨fun feed k size => ⟨fun other => ?_, fun role small => ?_, fun role fits => ?_⟩,
    fun feed r size => ⟨armAck_waits, armAck_does canonical feed r size⟩, fun h => ?_, fun role state => ?_, fun h => ?_, lifelineBroken_does canonical⟩
  · exact armReq_refused (if_pos other) (by decide)
  · exact armReq_refused ((if_neg (not_not.2 role)).trans (if_pos small)) (by decide)
  · have taken : armAnswer (lifeline s n) size.toNat = 0 := (if_neg (not_not.2 role)).trans (if_neg (Nat.not_lt.2 fits))
    exact ⟨_, armReq_taken taken, setLl_parts s n _, setLl_shown s n _ canonical, lifeline_setLl_same ..⟩
  · exact congrArg Host.Outcome.next (if_neg h)
  · exact ⟨_, congrArg Host.Outcome.next (if_pos ⟨role, state⟩), armEnd_shown canonical _ 2 _⟩
  · exact congrArg Host.Outcome.next (if_pos (by tauto))

end Sys2Proof.Machine
end

section
/-! PROOF. Lifeline control: ARM, HOLD, DISARM and RESTORE (17 R425, R427, R428, R438). -/

namespace Sys2Proof.Machine

open Sys2Proof Sys2Proof.Safety

section
variable {n : StrandId} {s : State}

/-! The gates that ARM and HOLD share. -/

/-- A training stream with a link. -/
def trains (s : State) (n : Nat) : Prop := linkOk s n = true ∧ bits (strandWord s n 0) 4 3 = 1

theorem trains_iff (s : State) (n : Nat) : ¬(!linkOk s n || bits (strandWord s n 0) 4 3 != 1) = true ↔ trains s n := by
  cases h : linkOk s n <;> simp [trains, h]

theorem armHold_stranger (idle : s.llResult ≠ 1) (h : ¬trains s n) : ∀ c ∈ [Instr.arm n, .hold n], exec c s = .next (llEnd s 2 stStrandInvalid) := by
  have gate : (!linkOk s n || bits (strandWord s n 0) 4 3 != 1) = true := not_not.1 (fun e => h ((trains_iff s n).1 e))
  simp only [List.forall_mem_cons, List.not_mem_nil, false_imp_iff, implies_true, and_true]
  exact ⟨congrArg Host.Outcome.next ((if_neg idle).trans (if_pos gate)), congrArg Host.Outcome.next ((if_neg idle).trans (if_pos gate))⟩

theorem armHold_full (idle : s.llResult ≠ 1) (h : trains s n) (full : (lifeline s n).role = 0 ∧ 256 ≤ llRoles s) :
    ∀ c ∈ [Instr.arm n, .hold n], exec c s = .next (llEnd s 2 stValueOutOfRange) := by
  have gate := (trains_iff s n).2 h
  simp only [List.forall_mem_cons, List.not_mem_nil, false_imp_iff, implies_true, and_true]
  exact ⟨congrArg Host.Outcome.next ((if_neg idle).trans ((if_neg gate).trans (if_pos full))),
    congrArg Host.Outcome.next ((if_neg idle).trans ((if_neg gate).trans (if_pos full)))⟩

/-! ARM (R428). -/

/-- The entry of the table that a lifeline keeps, or takes. -/
def takenIndex (s : State) (n : Nat) : Nat := if (lifeline s n).role = 0 then llIndex s else (lifeline s n).index
/-- The state in which a strand has become a source with a setup block. -/
def armedWith (s : State) (n : Nat) (w : List Nat) (k : Nat) : State :=
  setLl s n (fun x => { role := 1, state := 1, setup := w, kMax := k, period := pow2Below k, kCur := pow2Below k, index := takenIndex s n, armedAt := now s,
                        securedStep := x.securedStep, anchorStep := x.anchorStep, dataPos := x.dataPos, rngStep := x.rngStep })

theorem arm_unread (idle : s.llResult ≠ 1) (h : trains s n) (free : (lifeline s n).role = 0 → llRoles s < 256) (block : llBlock s n 8 = none) :
    exec (.arm n) s = .next (llEnd s 2 stTranslationFault) := by
  show execArm n s = _
  unfold execArm
  rw [if_neg idle, if_neg ((trains_iff s n).2 h), if_neg (fun ⟨role, full⟩ => by have := free role; omega), block]
theorem arm_read (idle : s.llResult ≠ 1) (h : trains s n) (free : (lifeline s n).role = 0 → llRoles s < 256) {w : List Nat} (block : llBlock s n 8 = some w) :
    exec (.arm n) s = .next (if bits (word w 0) 15 0 = 0 then llEnd s 2 stValueOutOfRange
      else postRecord (llEnd (armedWith s n w (bits (word w 0) 15 0)) 1 0) n 0x000 [(armedWith s n w (bits (word w 0) 15 0)).power.feedId % 16 + bits (word w 0) 15 0 * 2 ^ 4,
        512 + suParamBytes (lifeline (armedWith s n w (bits (word w 0) 15 0)) n) + suOptBytes (lifeline (armedWith s n w (bits (word w 0) 15 0)) n)]) := by
  show execArm n s = _
  unfold execArm
  rw [if_neg idle, if_neg ((trains_iff s n).2 h), if_neg (fun ⟨role, full⟩ => by have := free role; omega), block]
  rfl

theorem pow2Below_le {k : Nat} (h : k ≠ 0) : pow2Below k ≤ k := Nat.log2_self_le h
theorem lt_pow2Below (k : Nat) : k < 2 * pow2Below k := by
  unfold pow2Below
  rw [← Nat.pow_succ']
  exact Nat.lt_log2_self

theorem armedWith_lifeline (s : State) (n : Nat) (w : List Nat) (k : Nat) : lifeline (armedWith s n w k) n =
    { role := 1, state := 1, setup := w, kMax := k, period := pow2Below k, kCur := pow2Below k, index := takenIndex s n, armedAt := now s,
      securedStep := (lifeline s n).securedStep, anchorStep := (lifeline s n).anchorStep, dataPos := (lifeline s n).dataPos, rngStep := (lifeline s n).rngStep } :=
  lifeline_setLl_same ..

theorem arm_posts (canonical : MemoryCanonical s) (idle : s.llResult ≠ 1) (h : trains s n) (free : (lifeline s n).role = 0 → llRoles s < 256) {w : List Nat} {k : Nat}
    (block : llBlock s n 8 = some w) (hk : k = bits (word w 0) 15 0) (nonzero : k ≠ 0) : ∃ u y, y = lifeline u n ∧
    exec (.arm n) s = .next (postRecord u n 0 [s.power.feedId % 16 + k * 2 ^ 4, 512 + suParamBytes y + suOptBytes y]) ∧
    OnlyParts [.mem, .lifelines, .llResult, .llStatus] s u ∧ u.llResult = 1 ∧ u.llStatus = 0 ∧ LifelineShown u n ∧ y.role = 1 ∧ y.state = 1 ∧ y.setup = w ∧ y.kMax = k ∧
    y.period ≤ k ∧ k < 2 * y.period ∧ (∃ e, y.period = 2 ^ e) ∧ y.kCur = y.period ∧ y.securing = false ∧ y.failures = 0 ∧
    (∀ m, m ≠ n.val → lifeline u m = lifeline s m) := by
  have power : (armedWith s n w k).power = s.power := setLl_parts s n _ .power (by decide)
  obtain ⟨result, status⟩ := llEnd_shows (armedWith s n w k) 1 0
  refine ⟨llEnd (armedWith s n w k) 1 0, lifeline (armedWith s n w k) n, (lifeline_llEnd ..).symm, ?_, setLl_llEnd_parts s n _ 1 0, result, status,
    setLl_llEnd_shown s n _ 1 0 canonical, ?_⟩
  · rw [arm_read idle h free block, ← hk, if_neg nonzero, power]
  · rw [armedWith_lifeline]
    refine ⟨rfl, rfl, rfl, rfl, pow2Below_le nonzero, lt_pow2Below k, ⟨_, rfl⟩, rfl, rfl, rfl, fun m other => (lifeline_llEnd ..).trans ?_⟩
    exact (lifeline_setLl ..).trans (if_neg other.symm)

/-! HOLD (R427). -/

theorem hold_unread (idle : s.llResult ≠ 1) (h : trains s n) (free : (lifeline s n).role = 0 → llRoles s < 256) (block : llBlock s n 2 = none) :
    exec (.hold n) s = .next (llEnd s 2 stTranslationFault) := by
  show execHold n s = _
  unfold execHold
  rw [if_neg idle, if_neg ((trains_iff s n).2 h), if_neg (fun ⟨role, full⟩ => by have := free role; omega), block]
theorem hold_read (idle : s.llResult ≠ 1) (h : trains s n) (free : (lifeline s n).role = 0 → llRoles s < 256) {w : List Nat} (block : llBlock s n 2 = some w) :
    exec (.hold n) s = .next (llEnd (setLl s n (fun _ => { role := 2, index := takenIndex s n, slotVa := bits (word w 0) 47 0, slotBytes := bits (word w 1) 39 0 })) 0 0) := by
  show execHold n s = _
  unfold execHold takenIndex
  rw [if_neg idle, if_neg ((trains_iff s n).2 h), if_neg (fun ⟨role, full⟩ => by have := free role; omega), block]

theorem hold_does (canonical : MemoryCanonical s) (idle : s.llResult ≠ 1) (h : trains s n) (free : (lifeline s n).role = 0 → llRoles s < 256) {w : List Nat}
    (block : llBlock s n 2 = some w) : ∃ t, exec (.hold n) s = .next t ∧ OnlyParts [.mem, .lifelines, .llResult, .llStatus] s t ∧ t.llResult = 0 ∧ t.llStatus = 0 ∧
      LifelineShown t n ∧ (lifeline t n).role = 2 ∧ (lifeline t n).state = 0 ∧ (lifeline t n).slotVa = bits (word w 0) 47 0 ∧ (lifeline t n).slotBytes = bits (word w 1) 39 0 ∧
      (∀ m, m ≠ n.val → lifeline t m = lifeline s m) := by
  have held := lifeline_setLl_same s n (fun _ => { role := 2, index := takenIndex s n, slotVa := bits (word w 0) 47 0, slotBytes := bits (word w 1) 39 0 })
  refine ⟨_, hold_read idle h free block, setLl_llEnd_parts s n _ 0 0, (llEnd_shows ..).1, (llEnd_shows ..).2, setLl_llEnd_shown s n _ 0 0 canonical, ?_⟩
  rw [lifeline_llEnd, held]
  exact ⟨rfl, rfl, rfl, rfl, fun m other => (lifeline_llEnd ..).trans ((lifeline_setLl ..).trans (if_neg other.symm))⟩

/-! DISARM (R427). -/

theorem disarm_waits (idle : s.llResult ≠ 1) (h : (lifeline s n).securing = true) :
    exec (.lifelineDisarm n) s = .next (llEnd (updLifeline s n (fun x => { x with disarming := true })) 1 0) :=
  congrArg Host.Outcome.next ((if_neg idle).trans (if_pos h))
theorem disarm_clears (idle : s.llResult ≠ 1) (h : (lifeline s n).securing = false) :
    exec (.lifelineDisarm n) s = .next (llEnd (setLl s n (fun _ => {})) 0 0) :=
  congrArg Host.Outcome.next ((if_neg idle).trans (if_neg (by rw [h]; decide)))

/-! RESTORE (R438). -/

theorem restore_stranger (idle : s.llResult ≠ 1) (h : strandLive s n = false ∨ (lifeline s n).role ≠ 1) : exec (.restore n) s = .next (llEnd s 2 stStrandInvalid) :=
  congrArg Host.Outcome.next ((if_neg idle).trans (if_pos (by rcases h with h | h <;> simp [h])))
theorem restore_unread (idle : s.llResult ≠ 1) (live : strandLive s n = true) (role : (lifeline s n).role = 1) (block : llBlock s n 4 = none) :
    exec (.restore n) s = .next (llEnd s 2 stTranslationFault) := by
  show execRestore n s = _
  unfold execRestore
  rw [if_neg idle]
  dsimp only
  rw [if_neg (by simp [live, role]), block]

/-- What a restore to a step leaves before the skew is told of. -/
def restoredTo (s : State) (n : Nat) (w : List Nat) (step skew : Nat) : State :=
  setReg (updStrand (setLl s n (fun x => { x with securedStep := step, dataPos := word w 0, anchorStep := word w 2, failures := x.failures + 1 })) n
    (fun y => { y with stepLast := (step + 2 ^ 64 - 1) % 2 ^ 64 })) (llOff MGT_LL_SKEW) skew
/-- The skew told of, where there is one. -/
def skewTold (s : State) (n skew : Nat) : State := if skew = 0 then s else raise { s with drawSkews := s.drawSkews + 1 } mgtDie 0x903 1 n 0 [n, skew]

theorem restore_read (idle : s.llResult ≠ 1) (live : strandLive s n = true) (role : (lifeline s n).role = 1) {w : List Nat} (block : llBlock s n 4 = some w) :
    let x := lifeline s n
    let step : Nat := (suStepBase x + (word w 0 - suDataBase x) / suSamples x) % 2 ^ 64
    let skew : Nat := unsigned 64 ((word w 1 : Int) - ((step : Int) - 1))
    exec (.restore n) s = .next (if word w 0 < suDataBase x ∨ (word w 0 - suDataBase x) % orOne (suSamples x) ≠ 0 ∨ suSamples x = 0 then llEnd s 2 stValueOutOfRange
      else llEnd (setReg (skewTold (restoredTo s n w step skew) n skew) (llOff MGT_LL_NEXT_STEP) step) 0 0) := by
  show execRestore n s = _
  unfold execRestore
  rw [if_neg idle]
  dsimp only
  rw [if_neg (by simp [live, role]), block]
  rfl

theorem orOne_of_pos {k : Nat} (h : k ≠ 0) : orOne k = k := if_neg h

/-- A position that no step of the data begins at is refused. -/
theorem restore_refused (idle : s.llResult ≠ 1) (live : strandLive s n = true) (role : (lifeline s n).role = 1) {w : List Nat} (block : llBlock s n 4 = some w)
    (h : word w 0 < suDataBase (lifeline s n) ∨ suSamples (lifeline s n) = 0 ∨ (word w 0 - suDataBase (lifeline s n)) % suSamples (lifeline s n) ≠ 0) :
    exec (.restore n) s = .next (llEnd s 2 stValueOutOfRange) := by
  have read := restore_read idle live role block
  dsimp only at read
  rw [read, if_pos]
  by_cases zero : suSamples (lifeline s n) = 0
  · exact .inr (.inr zero)
  · rw [orOne_of_pos zero]
    tauto

theorem updStrand_parts (s : State) (n : Nat) (f : Strand → Strand) : OnlyParts [.hst] s (updStrand s n f) :=
  Within.onlyParts (l := [.hst]) (back := false) (updStrand_within rfl s n f .refl)
theorem strand_updStrand_some {s : State} {n : Nat} {f : Strand → Strand} {y : Strand} (h : strand s n = some y) : strand (updStrand s n f) n = some (f y) := by
  unfold updStrand
  rw [h]
  exact (strand_setStrand ..).trans (if_pos rfl)

theorem restoredTo_parts (s : State) (n : Nat) (w : List Nat) (step skew : Nat) : OnlyParts [.regs, .mem, .hst, .lifelines] s (restoredTo s n w step skew) := by
  unfold restoredTo
  exact OnlyParts.trans (OnlyParts.trans (n := [.mem, .hst, .lifelines]) (setLl_parts s n _) (updStrand_parts _ n _) (by decide) (by decide)) (setReg_parts _ _ skew)
    (by decide) (by decide)
theorem restoredTo_lifeline (s : State) (n : Nat) (w : List Nat) (step skew : Nat) : lifeline (restoredTo s n w step skew) n =
    { lifeline s n with securedStep := step, dataPos := word w 0, anchorStep := word w 2, failures := (lifeline s n).failures + 1 } := by
  unfold restoredTo
  rw [setReg_lifeline_of, lifeline_congr (updStrand_parts _ n _ .lifelines (by decide)), lifeline_setLl_same]
theorem restoredTo_strand (s : State) (n : Nat) (w : List Nat) (step skew : Nat) {y : Strand} (h : strand s n = some y) :
    strand (restoredTo s n w step skew) n = some { y with stepLast := (step + 2 ^ 64 - 1) % 2 ^ 64 } := by
  have same (f : Lifeline → Lifeline) : strand (setLl s n f) n = some y := by
    unfold strand
    rw [setLl_parts s n f .hst (by decide)]
    exact h
  unfold restoredTo
  rw [setReg_strand_of, strand_updStrand_some (same _)]
theorem restoredTo_skew (s : State) (n : Nat) (w : List Nat) (step : Nat) {skew : Nat} (h : skew < 2 ^ 64) : reg (restoredTo s n w step skew) (llOff MGT_LL_SKEW) = skew := by
  unfold restoredTo
  rw [reg_setReg, if_pos rfl, Nat.mod_eq_of_lt h]

section
variable {u : State} {m skew : Nat}

theorem skewTold_keeps {β : Type} (g : State → β) (u : State) (m skew : Nat) (hd : ∀ (u : State) d, g { u with dict := d } = g u) (hk : ∀ (u : State) d, g { u with drawSkews := d } = g u)
    (hm : ∀ u, g (sendMsix u 0) = g u) (ho : ∀ u o, g (emit u o) = g u) : g (skewTold u m skew) = g u := by
  unfold skewTold
  split
  · rfl
  · exact (raise_mgt_keeps g _ _ _ _ _ _ hd hm ho).trans (hk _ _)
theorem skewTold_lifeline : lifeline (skewTold u m skew) m = lifeline u m :=
  skewTold_keeps (lifeline · m) u m skew (fun _ _ => rfl) (fun _ _ => rfl) (fun v => by unfold sendMsix; dsimp only; split <;> rfl) (fun _ _ => rfl)
theorem skewTold_strand (k : Nat) : strand (skewTold u m skew) k = strand u k :=
  skewTold_keeps (strand · k) u m skew (fun _ _ => rfl) (fun _ _ => rfl) (fun v => by unfold sendMsix; dsimp only; split <;> rfl) (fun _ _ => rfl)
theorem skewTold_reg : reg (skewTold u m skew) (llOff MGT_LL_SKEW) = reg u (llOff MGT_LL_SKEW) := by
  unfold skewTold
  split
  · rfl
  · exact raise_reg _ _ _ _ _ _ _ (by decide)

end

/-- A skew is 0 exactly where the step agrees, and it is what the step misses. -/
theorem skew_zero (step w : Nat) : unsigned 64 ((w : Int) - ((step : Int) - 1)) = 0 ↔ ((step : Int) - 1 ≡ w [ZMOD 2 ^ 64]) := by
  rw [Int.modEq_iff_dvd]
  unfold unsigned
  omega
theorem skew_lt (z : Int) : unsigned 64 z < 2 ^ 64 := by
  unfold unsigned
  omega
theorem skew_missing (step w : Nat) : (step : Int) - 1 + (unsigned 64 ((w : Int) - ((step : Int) - 1)) : Nat) ≡ w [ZMOD 2 ^ 64] := by
  rw [Int.modEq_iff_dvd]
  unfold unsigned
  omega

theorem restore_does (idle : s.llResult ≠ 1) (live : strandLive s n = true) (role : (lifeline s n).role = 1) {w : List Nat} (block : llBlock s n 4 = some w)
    (above : suDataBase (lifeline s n) ≤ word w 0) (samples : suSamples (lifeline s n) ≠ 0) (whole : (word w 0 - suDataBase (lifeline s n)) % suSamples (lifeline s n) = 0) :
    let x := lifeline s n
    let step : Nat := (suStepBase x + (word w 0 - suDataBase x) / suSamples x) % 2 ^ 64
    ∃ t, exec (.restore n) s = .next t ∧ t.llResult = 0 ∧ t.llStatus = 0 ∧ reg t (llOff MGT_LL_NEXT_STEP) = step ∧
      (lifeline t n).securedStep = step ∧ (lifeline t n).dataPos = word w 0 ∧ (lifeline t n).anchorStep = word w 2 ∧ (lifeline t n).failures = x.failures + 1 ∧
      (∀ y, strand s n = some y → strand t n = some { y with stepLast := (step + 2 ^ 64 - 1) % 2 ^ 64 }) ∧
      ((step : Int) - 1 ≡ word w 1 [ZMOD 2 ^ 64] → t.drawSkews = s.drawSkews ∧ t.dict = s.dict ∧ reg t (llOff MGT_LL_SKEW) = 0) ∧
      (¬ ((step : Int) - 1 ≡ word w 1 [ZMOD 2 ^ 64]) → t.drawSkews = s.drawSkews + 1 ∧
        ∃ k : Nat, k < 2 ^ 64 ∧ ((step : Int) - 1 + k ≡ word w 1 [ZMOD 2 ^ 64]) ∧ reg t (llOff MGT_LL_SKEW) = k ∧ LoggedEvent s t 0x903 1 [n, k]) := by
  have read := restore_read idle live role block
  dsimp only at read
  rw [if_neg (by rw [orOne_of_pos samples]; omega)] at read
  dsimp only
  rw [read]
  have below : (suStepBase (lifeline s n) + (word w 0 - suDataBase (lifeline s n)) / suSamples (lifeline s n)) % 2 ^ 64 < 2 ^ 64 := Nat.mod_lt _ (by decide)
  generalize (suStepBase (lifeline s n) + (word w 0 - suDataBase (lifeline s n)) / suSamples (lifeline s n)) % 2 ^ 64 = step at *
  have zero := skew_zero step (word w 1)
  have small := skew_lt ((word w 1 : Int) - ((step : Int) - 1))
  have misses := skew_missing step (word w 1)
  generalize unsigned 64 ((word w 1 : Int) - ((step : Int) - 1)) = skew at *
  have parts := restoredTo_parts s n w step skew
  have life := restoredTo_lifeline s n w step skew
  have strands := fun y => restoredTo_strand s n w step skew (y := y)
  have shows := restoredTo_skew s n w step small
  generalize restoredTo s n w step skew = u at *
  have kept : lifeline (llEnd (setReg (skewTold u n skew) (llOff MGT_LL_NEXT_STEP) step) 0 0) n = lifeline u n := skewTold_lifeline
  have skewReg : reg (llEnd (setReg (skewTold u n skew) (llOff MGT_LL_NEXT_STEP) step) 0 0) (llOff MGT_LL_SKEW) = skew :=
    (reg_setReg ..).trans ((if_neg (by decide)).trans (skewTold_reg.trans shows))
  refine ⟨_, rfl, rfl, rfl, ?_, ?_, ?_, ?_, ?_, fun y hy => (skewTold_strand n).trans (strands y hy), fun agrees => ?_, fun misses_ => ?_⟩
  · exact (reg_setReg ..).trans ((if_pos rfl).trans (Nat.mod_eq_of_lt below))
  · rw [kept, life]
  · rw [kept, life]
  · rw [kept, life]
  · rw [kept, life]
  · have none_ : skew = 0 := zero.2 agrees
    have quiet : skewTold u n skew = u := if_pos none_
    refine ⟨?_, ?_, skewReg.trans none_⟩
    · exact (congrArg State.drawSkews quiet).trans (parts .drawSkews (by decide))
    · exact (congrArg State.dict quiet).trans (parts .dict (by decide))
  · have told : skewTold u n skew = raise { u with drawSkews := u.drawSkews + 1 } mgtDie 0x903 1 n 0 [n, skew] := if_neg (fun e => misses_ (zero.1 e))
    have count : u.drawSkews = s.drawSkews := parts .drawSkews (by decide)
    refine ⟨?_, skew, small, misses, skewReg, ?_⟩
    · refine (congrArg State.drawSkews told).trans ?_
      rw [← count]
      exact raise_mgt_keeps (·.drawSkews) { u with drawSkews := u.drawSkews + 1 } _ _ _ _ _ (fun _ _ => rfl)
        (fun v => by unfold sendMsix; dsimp only; split <;> rfl) (fun _ _ => rfl)
    · exact logged_congr (raise_mgt_loggedFrom (u := { u with drawSkews := u.drawSkews + 1 }) _ _ n 0 _ (congrArg (·.eventSeq) (parts .dict (by decide)))
        (congrArg (·.reftime) (parts .clock (by decide)))) (show (skewTold u n skew).dict = _ from congrArg State.dict told)

end

/-- Settles O47: the gates that ARM and HOLD share, each action's one change of the lifeline, and the skew of a restore. A K_MAX of 0 as VALUE_OUT_OF_RANGE, a strand that is no
training stream with a link as STRAND_INVALID, and a skew register of 0 are log entry 56. -/
theorem lifelineControl : Obligations.LifelineControl := by
  intro n s canonical
  dsimp only
  refine ⟨fun busy => ?_, fun idle => ⟨fun h => armHold_stranger idle (fun ⟨link, kind⟩ => by simp [link, kind] at h),
    fun link kind role full => armHold_full idle ⟨link, kind⟩ ⟨role, full⟩, fun link kind free => ⟨arm_unread idle ⟨link, kind⟩ free, fun w block zero => ?_,
      fun w k block hk nonzero => arm_posts canonical idle ⟨link, kind⟩ free block hk nonzero, hold_unread idle ⟨link, kind⟩ free,
      fun w block => hold_does canonical idle ⟨link, kind⟩ free block⟩, fun securing => ?_, fun still => ?_, restore_stranger idle,
    fun live role => ⟨restore_unread idle live role, fun w block => ⟨restore_refused idle live role block, fun above samples whole => restore_does idle live role block above samples whole⟩⟩⟩⟩
  · simp only [List.forall_mem_cons, List.not_mem_nil, false_imp_iff, implies_true, and_true]
    exact ⟨congrArg Host.Outcome.next (if_pos busy), congrArg Host.Outcome.next (if_pos busy), congrArg Host.Outcome.next (if_pos busy), congrArg Host.Outcome.next (if_pos busy)⟩
  · exact (arm_read idle ⟨link, kind⟩ free block).trans (congrArg Host.Outcome.next (if_pos zero))
  · refine ⟨_, disarm_waits idle securing, fun r hr => ?_, rfl, (lifeline_llEnd ..).trans ((lifeline_updLifeline ..).trans (if_pos rfl))⟩
    cases r <;> first | (exfalso; simp at hr; done) | rfl
  · refine ⟨_, disarm_clears idle still, setLl_llEnd_parts s n _ 0 0, (llEnd_shows ..).1, (llEnd_shows ..).2, ?_, setLl_llEnd_shown s n _ 0 0 canonical⟩
    exact (lifeline_llEnd ..).trans (lifeline_setLl_same ..)

end Sys2Proof.Machine
end

section
/-! PROOF. A securing at the holder and its end at the source (17 R432 to R434, R437). -/

namespace Sys2Proof.Machine

open Sys2Proof Sys2Proof.Safety

/-! What the link dies' writes and the released step leave. -/

theorem linkWrite_lifelines (s : State) (die n v : Nat) (data : List Byte) : (linkWrite s die n v data).1.lifelines = s.lifelines :=
  (linkWrite_within (M := 0x710000fdb) rfl s die n v data .refl).same .lifelines rfl
theorem lifeline_linkWrite (s : State) (die n v : Nat) (data : List Byte) (m : Nat) : lifeline (linkWrite s die n v data).1 m = lifeline s m :=
  lifeline_congr (linkWrite_lifelines ..) m
theorem updLifeline_parts (s : State) (n : Nat) (f : Lifeline → Lifeline) : OnlyParts [.lifelines] s (updLifeline s n f) := fun r hr => by
  cases r <;> first | (exfalso; simp at hr; done) | rfl
theorem lifeline_updLifeline_same (s : State) (n : Nat) (f : Lifeline → Lifeline) : lifeline (updLifeline s n f) n = f (lifeline s n) :=
  (lifeline_updLifeline ..).trans (if_pos rfl)

/-- A register that is no marker's keeps its word. -/
theorem reg_releaseStep (s : State) (n off : Nat) (high : 0x2000000 ≤ off) : reg (releaseStep s n) off = reg s off := by
  have marker : markerOff (suDoneCore (lifeline s n)) (suDoneMarker (lifeline s n)) ≠ off := by
    have core : suDoneCore (lifeline s n) < 64 := bits_lt ..
    have mark : suDoneMarker (lifeline s n) < 256 := bits_lt ..
    show 0x1000000 + suDoneCore (lifeline s n) * 0x10000 + (0x5800 + suDoneMarker (lifeline s n) * 8) ≠ off
    omega
  exact (checkWait_reg ..).trans ((reg_setReg ..).trans (if_neg marker))
theorem reg_endSecuring (s : State) (n off : Nat) (high : 0x2000000 ≤ off) : reg (securingEnds s n) off = reg s off := by
  have stored (u : State) (f : Lifeline → Lifeline) : reg (setLl u n f) off = reg u off := reg_congr (setLl_parts u n f .regs (by decide)) off
  rw [reg_congr (securingEnds_regs s n) off]
  unfold endSecuring
  rw [reg_releaseStep _ _ _ high, stored]

section
variable {n : StrandId} {s : State}

/-! MARK (R433). -/

/-- The slot that a securing takes: the first that is neither the anchor's nor the latest committed. -/
def securingSlot (anchor committed : Option Nat) : Nat := ((List.range 3).find? (fun k => anchor != some k && committed != some k)).getD 0

/-- Two of three slots are held at most, so one is free. -/
theorem securingSlot_free (anchor committed : Option Nat) :
    securingSlot anchor committed < 3 ∧ anchor ≠ some (securingSlot anchor committed) ∧ committed ≠ some (securingSlot anchor committed) := by
  unfold securingSlot
  cases found : (List.range 3).find? (fun k => anchor != some k && committed != some k) with
  | some k =>
    have free := List.find?_some found
    have low := List.mem_range.1 (List.mem_of_find?_eq_some found)
    simp only [Bool.and_eq_true, bne_iff_ne] at free
    exact ⟨low, free.1, free.2⟩
  | none =>
    have held : ∀ k, k < 3 → anchor = some k ∨ committed = some k := fun k hk => by
      have taken := List.find?_eq_none.1 found k (List.mem_range.2 hk)
      simp only [Bool.and_eq_true, bne_iff_ne] at taken
      tauto
    have h0 := held 0 (by decide)
    have h1 := held 1 (by decide)
    have h2 := held 2 (by decide)
    exfalso
    rcases h0 with h0 | h0 <;> rcases h1 with h1 | h1 <;> rcases h2 with h2 | h2 <;> simp_all

theorem mark_runs {step pos rng : Word} {bytes : BitVec 40} {anchor : Bool} (role : (lifeline s n).role = 2) :
    let x := lifeline s n
    let k := securingSlot (anchorSlot s n) x.committedSlot
    let u := updLifeline s n (fun x => { x with hmark := some (step.toNat, pos.toNat, rng.toNat, anchor), slot := k, received := 0, paramBytes := bytes.toNat, failed := false })
    let w := linkWrite u (strandLink s n) n (x.slotVa + k * x.slotBytes) (leBytes 8 0)
    exec (.mark n step pos rng bytes anchor) s = .next (if w.2.1 = stSuccess then w.1 else updLifeline w.1 n (fun y => { y with failed := true })) :=
  congrArg Host.Outcome.next (if_neg (not_not.2 role))

/-! COMMIT's answer (R432 step 6, R434). -/

theorem answerCommit_bad {step pos rng : Nat} {anchor : Bool} (h : (lifeline s n).hmark = some (step, pos, rng, anchor)) :
    answerCommit s n true = postRecord (updLifeline s n (fun x => { x with hmark := none })) n 0x0C0 [step, (lifeline s n).slot + 4] := by
  unfold answerCommit
  dsimp only
  rw [h]
  rfl
theorem answerCommit_whole {step pos rng : Nat} {anchor : Bool} (h : (lifeline s n).hmark = some (step, pos, rng, anchor)) : let x := lifeline s n
    let z := linkWrite s (strandLink s n) n (x.slotVa + x.slot * x.slotBytes) ([1, step, pos, rng, peerDev s n + b2n anchor * 2 ^ 12, x.received].flatMap (leBytes 8))
    answerCommit s n false = postRecord (updLifeline z.1 n (fun y => { y with hmark := none, committedSlot := if z.2.1 = stSuccess then some y.slot else y.committedSlot })) n 0x0C0
      [step, x.slot + if z.2.1 = stSuccess then 0 else 4] := by
  unfold answerCommit
  dsimp only
  rw [h]
  dsimp only
  generalize linkWrite s (strandLink s n) n _ _ = z
  by_cases done : z.2.1 = stSuccess
  · simp only [done, if_false, Bool.false_eq_true, ne_eq, not_true_eq_false, decide_false, Bool.or_self, if_true, b2n, Nat.zero_mul, Nat.add_zero]
  · simp only [done, if_false, Bool.false_eq_true, ne_eq, not_false_eq_true, decide_true, Bool.or_true, if_true, b2n, Nat.one_mul]
    rfl

/-! PAYLOAD (R432 steps 3 to 6). -/

/-- A securing goes on with what its slot holds now. -/
def payloadOn (s : State) (n : Nat) : State :=
  if (lifeline s n).failed || decide ((lifeline s n).needBytes < 512 + (lifeline s n).received) then answerCommit s n true
  else if (lifeline s n).needBytes = 512 + (lifeline s n).received then answerCommit s n false else s

theorem payload_runs {data : List Byte} {error : Bool} (role : (lifeline s n).role = 2) (mark : (lifeline s n).hmark ≠ none) :
    exec (.payload n data error) s = .next (payloadOn (if error then updLifeline s n (fun x => { x with failed := true }) else llAppend s (strandLink s n) n data) n) := by
  refine congrArg Host.Outcome.next (if_neg ?_)
  cases h : (lifeline s n).hmark
  · exact absurd h mark
  · simp [role]

theorem payloadOn_failed (h : (lifeline s n).failed = true ∨ (lifeline s n).needBytes < 512 + (lifeline s n).received) : payloadOn s n = answerCommit s n true :=
  if_pos (by simpa using h)
theorem payloadOn_whole (sound : (lifeline s n).failed = false) (h : (lifeline s n).needBytes = 512 + (lifeline s n).received) : payloadOn s n = answerCommit s n false :=
  (if_neg (by simp [sound, h])).trans (if_pos h)
theorem payloadOn_more (sound : (lifeline s n).failed = false) (h : 512 + (lifeline s n).received < (lifeline s n).needBytes) : payloadOn s n = s :=
  (if_neg (by simp [sound]; omega)).trans (if_neg (by omega))

theorem payload_error {data : List Byte} {step pos rng : Nat} {anchor : Bool} (role : (lifeline s n).role = 2) (mark : (lifeline s n).hmark = some (step, pos, rng, anchor)) :
    ∃ u, exec (.payload n data true) s = .next (postRecord u n 0x0C0 [step, (lifeline s n).slot + 4]) ∧ OnlyParts [.lifelines] s u ∧
      lifeline u n = { lifeline s n with failed := true, hmark := none } := by
  have changed := lifeline_updLifeline_same s n (fun x => { x with failed := true })
  have parts := updLifeline_parts s n (fun x => { x with failed := true })
  have runs := payload_runs (data := data) (error := true) role (by rw [mark]; exact Option.some_ne_none _)
  rw [if_pos rfl] at runs
  generalize updLifeline s n (fun x => { x with failed := true }) = v at *
  rw [payloadOn_failed (.inl (by rw [changed])), answerCommit_bad (by rw [changed]; exact mark)] at runs
  refine ⟨_, runs.trans (by rw [changed]), OnlyParts.trans parts (updLifeline_parts v n _) (by decide) (by decide), ?_⟩
  rw [lifeline_updLifeline_same, changed]

theorem payload_data {data : List Byte} {step pos rng : Nat} {anchor : Bool} (role : (lifeline s n).role = 2) (mark : (lifeline s n).hmark = some (step, pos, rng, anchor)) :
    let x := lifeline s n
    let c := Instr.payload n data false
    let w := linkWrite s (strandLink s n) n (x.slotVa + x.slot * x.slotBytes + 512 + x.received) data
    ∃ v, OnlyParts [.lifelines] w.1 v ∧ (lifeline v n).received = x.received + data.length ∧ ((lifeline v n).failed = true ↔ x.failed = true ∨ w.2.1 ≠ stSuccess) ∧
    (((lifeline v n).failed = true ∨ x.needBytes < 512 + (x.received + data.length)) → ∃ u, exec c s = .next (postRecord u n 0x0C0 [step, x.slot + 4]) ∧
      OnlyParts [.lifelines] v u ∧ (lifeline u n).hmark = none ∧ (lifeline u n).committedSlot = x.committedSlot) ∧
    ((lifeline v n).failed = false → x.needBytes = 512 + (x.received + data.length) →
      let z := linkWrite v (strandLink v n) n (x.slotVa + x.slot * x.slotBytes) ([1, step, pos, rng, peerDev v n + b2n anchor * 2 ^ 12, x.received + data.length].flatMap (leBytes 8))
      ∃ u, exec c s = .next (postRecord u n 0x0C0 [step, x.slot + if z.2.1 = stSuccess then 0 else 4]) ∧ OnlyParts [.lifelines] z.1 u ∧
        (lifeline u n).hmark = none ∧ (lifeline u n).committedSlot = if z.2.1 = stSuccess then some x.slot else x.committedSlot) ∧
    ((lifeline v n).failed = false → 512 + (x.received + data.length) < x.needBytes → exec c s = .next v) := by
  have runs := payload_runs (data := data) (error := false) role (by rw [mark]; exact Option.some_ne_none _)
  rw [if_neg (by decide)] at runs
  have kept := lifeline_linkWrite s (strandLink s n) n (slotAddr s n + 512 + (lifeline s n).received) data n
  have appended : llAppend s (strandLink s n) n data = updLifeline (linkWrite s (strandLink s n) n (slotAddr s n + 512 + (lifeline s n).received) data).1 n
    (fun x => { x with received := x.received + data.length,
                       failed := x.failed || decide ((linkWrite s (strandLink s n) n (slotAddr s n + 512 + (lifeline s n).received) data).2.1 ≠ stSuccess) }) := rfl
  rw [appended] at runs
  dsimp only
  rw [show (lifeline s n).slotVa + (lifeline s n).slot * (lifeline s n).slotBytes = slotAddr s n from rfl]
  generalize linkWrite s (strandLink s n) n (slotAddr s n + 512 + (lifeline s n).received) data = w at *
  have changed := lifeline_updLifeline_same w.1 n (fun x => { x with received := x.received + data.length, failed := x.failed || decide (w.2.1 ≠ stSuccess) })
  have parts := updLifeline_parts w.1 n (fun x => { x with received := x.received + data.length, failed := x.failed || decide (w.2.1 ≠ stSuccess) })
  rw [kept] at changed
  generalize updLifeline w.1 n (fun x => { x with received := x.received + data.length, failed := x.failed || decide (w.2.1 ≠ stSuccess) }) = v at *
  have hmark : (lifeline v n).hmark = some (step, pos, rng, anchor) := by rw [changed]; exact mark
  have slot : (lifeline v n).slot = (lifeline s n).slot := by rw [changed]
  have committed : (lifeline v n).committedSlot = (lifeline s n).committedSlot := by rw [changed]
  have received : (lifeline v n).received = (lifeline s n).received + data.length := by rw [changed]
  have needs : (lifeline v n).needBytes = (lifeline s n).needBytes := by rw [changed]
  have addr : (lifeline v n).slotVa + (lifeline v n).slot * (lifeline v n).slotBytes = slotAddr s n := by rw [changed]; rfl
  refine ⟨v, parts, received, ?_, fun fails => ?_, fun sound whole => ?_, fun sound more => ?_⟩
  · rw [changed]
    simp
  · rw [payloadOn_failed (fails.imp_right (fun h => by rw [needs, received]; exact h)), answerCommit_bad hmark, slot] at runs
    refine ⟨_, runs, updLifeline_parts v n _, ?_, ?_⟩
    · rw [lifeline_updLifeline_same]
    · rw [lifeline_updLifeline_same]
      exact committed
  · rw [payloadOn_whole sound (by rw [needs, received]; exact whole), answerCommit_whole hmark, received, slot] at runs
    rw [slot] at addr
    rw [addr] at runs
    refine ⟨_, runs, updLifeline_parts _ n _, ?_, ?_⟩
    · rw [lifeline_updLifeline_same]
    · rw [lifeline_updLifeline_same, lifeline_linkWrite, slot, committed]
  · rw [payloadOn_more sound (by rw [needs, received]; exact more)] at runs
    exact runs

/-! COMMIT at the source (R432 step 7, R434, R437). -/

theorem commit_none {step : Word} {slot : Fin 4} (h : (lifeline s n).mark = none) (f : Bool) : exec (.commit n step slot f) s = .next s := by
  show execCommit n step slot f s = _
  unfold execCommit
  dsimp only
  rw [h]

section
variable {step : Word} {slot : Fin 4} {m pos rng : Nat} {anchor : Bool}

theorem commit_other (mark : (lifeline s n).mark = some (m, pos, rng, anchor)) (h : (lifeline s n).role ≠ 1 ∨ m ≠ step.toNat) (f : Bool) :
    exec (.commit n step slot f) s = .next s := by
  show execCommit n step slot f s = _
  unfold execCommit
  dsimp only
  rw [mark]
  dsimp only
  rw [if_pos h]
theorem commit_done (mark : (lifeline s n).mark = some (m, pos, rng, anchor)) (role : (lifeline s n).role = 1) (same : m = step.toNat) :
    exec (.commit n step slot false) s = .next (securingEnds (bump (setLl s n (committedTo s ((lifeline s n).lastPayload - (lifeline s n).firstPayload + (lifeline s n).hold)
      m pos rng anchor)) (llOff MGT_LL_COMMIT_COUNT) 1) n) := by
  show execCommit n step slot false s = _
  unfold execCommit
  dsimp only
  rw [mark]
  dsimp only
  rw [if_neg (by simp [role, same]), if_neg (by decide)]
theorem commit_failed (mark : (lifeline s n).mark = some (m, pos, rng, anchor)) (role : (lifeline s n).role = 1) (same : m = step.toNat) :
    exec (.commit n step slot true) s = .next (if (anchor && !(lifeline s n).disarming) = true then
      sendOptimiser (sendPayload (sendMark (bump s (llOff MGT_LL_SKIP_COUNT) 1) n) n (suParamVa (lifeline s n)) (suParamBytes (lifeline s n))) n
      else securingEnds (bump s (llOff MGT_LL_SKIP_COUNT) 1) n) := by
  show execCommit n step slot true s = _
  unfold execCommit
  dsimp only
  rw [mark]
  dsimp only
  rw [if_neg (by simp [role, same]), if_pos rfl]

theorem commit_done_does (mark : (lifeline s n).mark = some (m, pos, rng, anchor)) (role : (lifeline s n).role = 1) (same : m = step.toNat) : let x := lifeline s n
    ∃ t, exec (.commit n step slot false) s = .next t ∧ reg t (llOff MGT_LL_COMMIT_COUNT) = (reg s (llOff MGT_LL_COMMIT_COUNT) + 1) % 2 ^ 64 ∧
      (x.disarming = true → lifeline t n = {} ∧ t.llResult = 0 ∧ t.llStatus = 0) ∧
      (x.disarming = false → let y := lifeline t n
        y.securedStep = m ∧ y.dataPos = pos ∧ y.rngStep = rng ∧ y.anchorStep = (if anchor then m else x.anchorStep) ∧ y.securing = false ∧ y.mark = none ∧ y.state = x.state ∧
        t.llResult = s.llResult) := by
  dsimp only
  have runs := commit_done (slot := slot) mark role same
  generalize (lifeline s n).lastPayload - (lifeline s n).firstPayload + (lifeline s n).hold = cost at runs
  have changed := lifeline_setLl_same s n (committedTo s cost m pos rng anchor)
  have parts := setLl_parts s n (committedTo s cost m pos rng anchor)
  generalize setLl s n (committedTo s cost m pos rng anchor) = u at *
  have count : reg u (llOff MGT_LL_COMMIT_COUNT) = reg s (llOff MGT_LL_COMMIT_COUNT) := reg_congr (parts .regs (by decide)) _
  have life : lifeline (bump u (llOff MGT_LL_COMMIT_COUNT) 1) n = committedTo s cost m pos rng anchor (lifeline s n) := (bump_lifeline_of ..).trans changed
  obtain ⟨disarms, stays⟩ := securingEnds_does (bump u (llOff MGT_LL_COMMIT_COUNT) 1) n
  have disarming : (lifeline (bump u (llOff MGT_LL_COMMIT_COUNT) 1) n).disarming = (lifeline s n).disarming := by rw [life]; rfl
  refine ⟨_, runs, ?_, fun h => disarms (disarming.trans h), fun h => ?_⟩
  · rw [reg_endSecuring _ _ _ (by decide), reg_bump, if_pos rfl, count]
  · obtain ⟨ended, result⟩ := stays (disarming.trans h)
    rw [ended, life]
    have kept : u.llResult = s.llResult := parts .llResult (by decide)
    exact ⟨rfl, rfl, rfl, rfl, rfl, rfl, rfl, result.trans kept⟩

theorem commit_failed_does (mark : (lifeline s n).mark = some (m, pos, rng, anchor)) (role : (lifeline s n).role = 1) (same : m = step.toNat)
    (ends : anchor = false ∨ (lifeline s n).disarming = true) : let x := lifeline s n
    ∃ t, exec (.commit n step slot true) s = .next t ∧ reg t (llOff MGT_LL_SKIP_COUNT) = (reg s (llOff MGT_LL_SKIP_COUNT) + 1) % 2 ^ 64 ∧
      (x.disarming = true → lifeline t n = {} ∧ t.llResult = 0) ∧ (x.disarming = false → lifeline t n = { x with securing := false, mark := none }) := by
  dsimp only
  have runs := commit_failed (slot := slot) mark role same
  rw [if_neg (by rcases ends with h | h <;> simp [h])] at runs
  obtain ⟨disarms, stays⟩ := securingEnds_does (bump s (llOff MGT_LL_SKIP_COUNT) 1) n
  refine ⟨_, runs, ?_, fun h => ?_, fun h => (stays h).1⟩
  · rw [reg_endSecuring _ _ _ (by decide), reg_bump, if_pos rfl]
  · obtain ⟨cleared, result, _⟩ := disarms h
    exact ⟨cleared, result⟩

end

end

/-- Settles O49: the slot is the first of three that neither the anchor nor the last commit holds; a holder's answer is answerCommit, the source's end securingEnds. What is to be
brought is ARM_REQ's size, and the securing fails as soon as more has come (log entry 56). -/
theorem lifelineSecuring : Obligations.LifelineSecuring := by
  refine fun n s => ⟨fun step pos rng bytes anchor => ⟨fun other => congrArg Host.Outcome.next (if_pos other), fun role => ?_⟩,
    fun data error => ⟨fun h => ?_, fun step pos rng anchor role mark => ⟨fun e => ?_, fun e => ?_⟩⟩,
    fun step slot => ⟨commit_none, fun m pos rng anchor mark => ⟨commit_other mark, fun role same => ⟨commit_done_does mark role same, commit_failed_does mark role same, fun held still => ?_⟩⟩⟩⟩
  · obtain ⟨low, anchorFree, committedFree⟩ := securingSlot_free (anchorSlot s n) (lifeline s n).committedSlot
    exact ⟨_, _, mark_runs role, low, anchorFree, committedFree, updLifeline_parts s n _, lifeline_updLifeline_same ..⟩
  · refine congrArg Host.Outcome.next (if_pos (h.imp_right (fun h => ?_)))
    rw [h]
    rfl
  · subst e
    exact payload_error role mark
  · subst e
    exact payload_data role mark
  · exact (commit_failed mark role same).trans (congrArg Host.Outcome.next (if_pos (by simp [held, still])))

end Sys2Proof.Machine
end

section
/-! PROOF. What the lifeline hears of the link: SEND_ACKNOWLEDGED and NACK (15 R379, R381; 17 R432, R434). -/

namespace Sys2Proof.Machine

open Sys2Proof Sys2Proof.Safety

theorem marker_countMarker (s : State) (c k : Nat) : marker (countMarker s c k) c k = (marker s c k + 1) % 2 ^ 32 := by
  have counted : reg (countMarker s c k) (markerOff c k) = (marker s c k + 1) % 2 ^ 32 % 2 ^ 64 := (checkWait_reg ..).trans ((reg_setReg ..).trans (if_pos rfl))
  show reg (countMarker s c k) (markerOff c k) % 2 ^ 32 = _
  rw [counted]
  omega

/-! An acknowledgement. -/

/-- The oldest message has left its port, and counts on its marker when asked. -/
def messageLeft (s : State) (p : Nat) (m : SentMsg) (rest : List SentMsg) : State :=
  let u := updPort s p (fun x => { x with sent := rest })
  if m.doneEn then countMarker u m.doneCore m.doneMarker else u
/-- The message is payload of the securing in flight. -/
def payloadHeard (s : State) (m : SentMsg) : State :=
  if (lifeline s m.strand).role ≠ 1 ∨ (lifeline s m.strand).mark.isNone = true then s
  else if m.ll = 2 then updLifeline s m.strand (fun y => { y with payloadLeft := y.payloadLeft - m.bytes, lastPayload := now s })
  else if m.ll = 0 ∧ (lifeline s m.strand).payloadSent = false ∧ (m.seq + 65536 - (lifeline s m.strand).markSeq) % 65536 < 32768 then
    let u := updLifeline s m.strand (fun y => { y with sentBytes := y.sentBytes + m.bytes })
    if suParamBytes (lifeline s m.strand) ≤ (lifeline u m.strand).sentBytes then sendOptimiser u m.strand else u
  else s

section
variable {p : PortId} {s : State} {m : SentMsg} {rest : List SentMsg}

theorem sendAcknowledged_none (h : (port s p).sent = []) : exec (.sendAcknowledged p) s = .next s := by
  show execSendAcknowledged p s = _
  unfold execSendAcknowledged
  rw [h]
theorem sendAcknowledged_some (h : (port s p).sent = m :: rest) : exec (.sendAcknowledged p) s = .next (payloadHeard (messageLeft s p m rest) m) := by
  show execSendAcknowledged p s = _
  unfold execSendAcknowledged
  rw [h]
  rfl

theorem messageLeft_does (s : State) (p : PortId) (m : SentMsg) (rest : List SentMsg) :
    OnlyParts [.regs, .cores, .ports, .net] s (messageLeft s p m rest) ∧ (port (messageLeft s p m rest) p).sent = rest ∧
    (m.doneEn = true → marker (messageLeft s p m rest) m.doneCore m.doneMarker = (marker s m.doneCore m.doneMarker + 1) % 2 ^ 32) ∧
    (m.doneEn = false → OnlyParts [.ports] s (messageLeft s p m rest)) := by
  have left : OnlyParts [.ports] s (updPort s p (fun x => { x with sent := rest })) := fun r hr => by
    cases r <;> first | (exfalso; simp at hr; done) | rfl
  have sent : (port (updPort s p (fun x => { x with sent := rest })) p).sent = rest := by rw [port_updPort, if_pos rfl]
  have words (c k : Nat) : marker (updPort s p (fun x => { x with sent := rest })) c k = marker s c k := rfl
  unfold messageLeft
  dsimp only
  generalize updPort s p (fun x => { x with sent := rest }) = u at *
  split
  · next asked =>
    have counted := countMarker_parts u m.doneCore m.doneMarker
    refine ⟨OnlyParts.trans left counted (by decide) (by decide), ?_, fun _ => ?_, fun h => absurd (asked.symm.trans h) (by decide)⟩
    · unfold port at *
      rw [counted .ports (by decide)]
      exact sent
    · rw [marker_countMarker, words]
  · next silent => exact ⟨OnlyParts.mono left _ (by decide), sent, fun h => absurd h silent, fun _ => left⟩

theorem messageLeft_lifeline (s : State) (p : PortId) (m : SentMsg) (rest : List SentMsg) (n : Nat) : lifeline (messageLeft s p m rest) n = lifeline s n :=
  lifeline_congr ((messageLeft_does s p m rest).1 .lifelines (by decide)) n
theorem messageLeft_now (s : State) (p : PortId) (m : SentMsg) (rest : List SentMsg) : now (messageLeft s p m rest) = now s :=
  congrArg (·.reftime) ((messageLeft_does s p m rest).1 .clock (by decide))

end

section
variable {s : State} {m : SentMsg}

theorem payloadHeard_stranger (h : (lifeline s m.strand).role ≠ 1 ∨ (lifeline s m.strand).mark = none) : payloadHeard s m = s :=
  if_pos (h.imp_right (fun e => by rw [e]; rfl))
theorem payloadHeard_record (one : m.ll = 1) : payloadHeard s m = s := by
  unfold payloadHeard
  split
  · rfl
  · rw [if_neg (by omega), if_neg (by omega)]
theorem payloadHeard_late (zero : m.ll = 0) (h : (lifeline s m.strand).payloadSent = true ∨ 32768 ≤ (m.seq + 65536 - (lifeline s m.strand).markSeq) % 65536) :
    payloadHeard s m = s := by
  unfold payloadHeard
  split
  · rfl
  · rw [if_neg (by omega), if_neg]
    rintro ⟨_, open_, early⟩
    rcases h with h | h
    · rw [h] at open_
      exact absurd open_ (by decide)
    · omega

theorem securing_of (role : (lifeline s m.strand).role = 1) (mark : (lifeline s m.strand).mark ≠ none) :
    ¬((lifeline s m.strand).role ≠ 1 ∨ (lifeline s m.strand).mark.isNone = true) := by
  rintro (h | h)
  · exact h role
  · exact mark (Option.isNone_iff_eq_none.1 h)
theorem payloadHeard_optimiser (role : (lifeline s m.strand).role = 1) (mark : (lifeline s m.strand).mark ≠ none) (two : m.ll = 2) :
    payloadHeard s m = updLifeline s m.strand (fun y => { y with payloadLeft := y.payloadLeft - m.bytes, lastPayload := now s }) :=
  (if_neg (securing_of role mark)).trans (if_pos two)
theorem payloadHeard_gather (role : (lifeline s m.strand).role = 1) (mark : (lifeline s m.strand).mark ≠ none) (zero : m.ll = 0)
    (open_ : (lifeline s m.strand).payloadSent = false) (early : (m.seq + 65536 - (lifeline s m.strand).markSeq) % 65536 < 32768) :
    payloadHeard s m = if suParamBytes (lifeline s m.strand) ≤ (lifeline s m.strand).sentBytes + m.bytes
      then sendOptimiser (updLifeline s m.strand (fun y => { y with sentBytes := y.sentBytes + m.bytes })) m.strand
      else updLifeline s m.strand (fun y => { y with sentBytes := y.sentBytes + m.bytes }) := by
  have heard := (if_neg (securing_of role mark)).trans ((if_neg (by omega)).trans (if_pos ⟨zero, open_, early⟩)) (a := payloadHeard s m)
  dsimp only at heard
  rw [lifeline_updLifeline_same] at heard
  exact heard

end

/-! A NACK (R381). -/

theorem disarmSlot_grows (s : State) (k : Nat) : ChainGrows s (disarmSlot s k) := by
  unfold disarmSlot
  split
  · exact .refl s
  · exact (ChainGrows.refl s).send _ _ _
theorem endTask_grows (s : State) (k status die : Nat) (skip : Option Nat) (cancel : Bool) : ChainGrows s (endTask s k status die skip cancel) := by
  have waits (u : State) : (dropWaits u k).net = u.net := each_keeps (·.net) _ _ _ (fun _ _ _ => rfl)
  have disarmed (u : State) (h : u.net = s.net) : ChainGrows s (disarmSlot (dropWaits u k) k) := (disarmSlot_grows _ k).after ((waits u).trans h)
  have sent (u : State) (l : List Nat) (m : Nat → Msg) : ChainGrows u (toCores u l m) := ChainGrows.each _ _ _ (fun u c _ => (ChainGrows.refl u).send _ _ _)
  unfold endTask
  dsimp only
  split
  · exact .refl s
  · exact ChainGrows.trans (disarmed (setSlot (countEnd s status) k _) rfl) (sent _ _ _)

/-- The event of a NACK at a link die. -/
def nackTold (s : State) (die n seq cause : Nat) : State :=
  sendChain s die mgtDie (.event ⟨0x704, 1, die, now s, n, 0, throttled s, [n, seq, cause]⟩)
/-- The status that a NACK ends a task with. -/
def nackStatus (cause kind : Nat) : Nat := if 1 ≤ cause ∧ cause ≤ 6 then stWindowViolation else if kind = 3 then stMergeInvalid else stPeerUnreachable

section
variable {s : State} {die n seq cause : Nat} (edge : die ≠ mgtDie)
include edge

theorem takeNack_none (h : s.posted.find? (fun p => p.1 == n && p.2.1 == seq) = none) : takeNack s die n seq cause = nackTold s die n seq cause := by
  have posted : (nackTold s die n seq cause).posted.find? (fun p => p.1 == n && p.2.1 == seq) = none := h
  unfold takeNack
  rw [raise_sends _ _ _ _ _ _ _ edge]
  unfold nackTold at *
  dsimp only
  rw [posted]
theorem takeNack_some {q : Nat × Nat × Nat × Nat} (h : s.posted.find? (fun p => p.1 == n && p.2.1 == seq) = some q) :
    takeNack s die n seq cause = endTask (nackTold s die n seq cause) q.2.2.1 (nackStatus cause q.2.2.2) die none false := by
  have posted : (nackTold s die n seq cause).posted.find? (fun p => p.1 == n && p.2.1 == seq) = some q := h
  unfold takeNack
  rw [raise_sends _ _ _ _ _ _ _ edge]
  unfold nackTold at *
  dsimp only
  rw [posted]
  rfl

theorem takeNack_parts : OnlyParts [.cores, .hst, .net] s (takeNack s die n seq cause) := by
  have told : OnlyParts [.net] s (nackTold s die n seq cause) := fun r hr => by cases r <;> first | (exfalso; simp at hr; done) | rfl
  cases h : s.posted.find? (fun p => p.1 == n && p.2.1 == seq) with
  | none =>
    rw [takeNack_none edge h]
    exact OnlyParts.mono told _ (by decide)
  | some q =>
    rw [takeNack_some edge h]
    exact OnlyParts.trans told (Within.onlyParts (l := [.cores, .hst, .net]) (back := false) (endTask_within rfl _ _ _ _ _ _ .refl)) (by decide) (by decide)
theorem takeNack_tells : ∃ m ∈ (takeNack s die n seq cause).net.chain, m.dst = mgtDie ∧ ∃ e, m.msg = .event e ∧ e.code = 0x704 ∧ e.severity = 1 ∧ e.args = [n, seq, cause] := by
  have told : ∃ m ∈ (nackTold s die n seq cause).net.chain, m.dst = mgtDie ∧ ∃ e, m.msg = .event e ∧ e.code = 0x704 ∧ e.severity = 1 ∧ e.args = [n, seq, cause] :=
    ⟨_, List.mem_append_right _ (List.mem_singleton.2 rfl), rfl, _, rfl, rfl, rfl, rfl⟩
  obtain ⟨m, sent, rest⟩ := told
  cases h : s.posted.find? (fun p => p.1 == n && p.2.1 == seq) with
  | none => exact ⟨m, by rw [takeNack_none edge h]; exact sent, rest⟩
  | some q => exact ⟨m, by rw [takeNack_some edge h]; exact (endTask_grows ..).subset sent, rest⟩
theorem takeNack_ends {q : Nat × Nat × Nat × Nat} (h : s.posted.find? (fun p => p.1 == n && p.2.1 == seq) = some q) (busy : (slotOf s q.2.2.1).busy = true)
    (runs : (slotOf s q.2.2.1).ending = false) (open_ : (slotOf s q.2.2.1).written = false) :
    (slotOf (takeNack s die n seq cause) q.2.2.1).ending = true ∧ (slotOf (takeNack s die n seq cause) q.2.2.1).status = nackStatus cause q.2.2.2 := by
  rw [takeNack_some edge h, endTask_slotOf _ _ _ _ _ _ (by exact busy) (by exact runs) (by exact open_), if_pos rfl]
  exact ⟨rfl, rfl⟩

end

/-- An answer where no mark is held is none. -/
theorem answerCommit_none {s : State} {n : Nat} {bad : Bool} (h : (lifeline s n).hmark = none) : answerCommit s n bad = s := by
  unfold answerCommit
  dsimp only
  rw [h]

section
variable {p : PortId} {dst : BitVec 12} {n : StrandId} {seq : BitVec 16} {cause : BitVec 3} {s : State}

/-- The state in which a NACK for this device has been counted, told of, and has ended its task. -/
def nackHeard (s : State) (p : PortId) (n : StrandId) (seq : BitVec 16) (cause : BitVec 3) : State :=
  takeNack (bump s (portOff p LNK_NACK_RX_COUNT) 1) (88 + p.val / 2) n seq.toNat cause.toNat

theorem nack_away (h : dst.toNat ≠ ownDev s) (b : Bool) : exec (.nack p dst n seq cause b) s = .next s := congrArg Host.Outcome.next (if_pos h)
theorem nack_abandoned (h : dst.toNat = ownDev s) : exec (.nack p dst n seq cause true) s = .next (bump s (portOff p LNK_NACK_RX_COUNT) 1) :=
  congrArg Host.Outcome.next ((if_neg (not_not.2 h)).trans (if_pos rfl))
theorem nack_heard (h : dst.toNat = ownDev s) : exec (.nack p dst n seq cause false) s =
    .next (if (lifeline (nackHeard s p n seq cause) n).role = 2 then answerCommit (nackHeard s p n seq cause) n true else nackHeard s p n seq cause) :=
  congrArg Host.Outcome.next ((if_neg (not_not.2 h)).trans (if_neg (by decide)))

theorem nackHeard_does : let u := nackHeard s p n seq cause
    OnlyParts [.regs, .cores, .hst, .net] s u ∧
    (∃ m ∈ u.net.chain, m.dst = mgtDie ∧ ∃ e, m.msg = .event e ∧ e.code = 0x704 ∧ e.severity = 1 ∧ e.args = [n.val, seq.toNat, cause.toNat]) ∧
    (s.posted.find? (fun q => q.1 == n.val && q.2.1 == seq.toNat) = none → OnlyParts [.regs, .net] s u ∧
      reg u (portOff p LNK_NACK_RX_COUNT) = (reg s (portOff p LNK_NACK_RX_COUNT) + 1) % 2 ^ 64) ∧
    (∀ q, s.posted.find? (fun q => q.1 == n.val && q.2.1 == seq.toNat) = some q → (slotOf s q.2.2.1).busy = true → (slotOf s q.2.2.1).ending = false → (slotOf s q.2.2.1).written = false →
      (slotOf u q.2.2.1).ending = true ∧ (slotOf u q.2.2.1).status = nackStatus cause.toNat q.2.2.2) := by
  have edge : 88 + p.val / 2 ≠ mgtDie := by
    have := p.isLt
    unfold mgtDie
    omega
  have counted : OnlyParts [.regs] s (bump s (portOff p LNK_NACK_RX_COUNT) 1) := fun r hr => by cases r <;> first | (exfalso; simp at hr; done) | rfl
  refine ⟨OnlyParts.trans counted (takeNack_parts edge) (by decide) (by decide), takeNack_tells edge, fun none_ => ?_,
    fun q found busy runs open_ => takeNack_ends edge found busy runs open_⟩
  have heard : nackHeard s p n seq cause = nackTold (bump s (portOff p LNK_NACK_RX_COUNT) 1) (88 + p.val / 2) n seq.toNat cause.toNat := takeNack_none edge none_
  rw [heard]
  refine ⟨OnlyParts.trans counted (m := [.net]) (fun r hr => ?_) (by decide) (by decide), (reg_bump ..).trans (if_pos rfl)⟩
  cases r <;> first | (exfalso; simp at hr; done) | rfl

end

/-- Settles O50: an acknowledgement is messageLeft and then payloadHeard; a NACK is nackHeard, and on a holder answerCommit's failure. -/
theorem acknowledgedAndNack : Obligations.AcknowledgedAndNack := by
  refine ⟨fun p s => ⟨sendAcknowledged_none, fun m rest sent => ?_⟩, fun p dst n seq cause s => ⟨fun away b => nack_away away b, fun here => ⟨nack_abandoned here, ?_⟩⟩⟩
  · obtain ⟨parts, left, counted, silent⟩ := messageLeft_does s p m rest
    have life := messageLeft_lifeline s p m rest m.strand
    have time := messageLeft_now s p m rest
    have does := sendAcknowledged_some sent
    generalize messageLeft s p m rest = v at *
    refine ⟨v, parts, left, counted, silent, fun h => ?_, fun role mark two => ?_, fun role mark zero open_ early => ?_, fun _ zero late => ?_⟩
    · rcases h with h | h | h
      · rwa [payloadHeard_stranger (.inl (by rw [life]; exact h))] at does
      · rwa [payloadHeard_stranger (.inr (by rw [life]; exact h))] at does
      · rwa [payloadHeard_record h] at does
    · rw [payloadHeard_optimiser (by rw [life]; exact role) (by rw [life]; exact mark) two] at does
      exact ⟨_, does, updLifeline_parts v _ _, by rw [lifeline_updLifeline_same, life, time]⟩
    · rw [payloadHeard_gather (by rw [life]; exact role) (by rw [life]; exact mark) zero (by rw [life]; exact open_) (by rw [life]; exact early), life] at does
      exact ⟨_, updLifeline_parts v _ _, by rw [lifeline_updLifeline_same, life], does⟩
    · rwa [payloadHeard_late zero (by rw [life]; exact late)] at does
  · obtain ⟨parts, tells, quiet, ends⟩ := nackHeard_does (p := p) (n := n) (seq := seq) (cause := cause) (s := s)
    have life : lifeline (nackHeard s p n seq cause) n = lifeline s n := lifeline_congr (parts .lifelines (by decide)) n
    have does := nack_heard (p := p) (n := n) (seq := seq) (cause := cause) here
    generalize nackHeard s p n seq cause = u at *
    rw [life] at does
    refine ⟨u, parts, tells, quiet, ends, fun h => does.trans (congrArg Host.Outcome.next ?_), fun step pos rng anchor role mark => ?_⟩
    · split
      · next role => exact answerCommit_none (by rw [life]; exact h.resolve_left (not_not.2 role))
      · rfl
    · rw [if_pos role, answerCommit_bad (by rw [life]; exact mark), life] at does
      exact ⟨_, updLifeline_parts u n _, does, by rw [lifeline_updLifeline_same, life]⟩

end Sys2Proof.Machine
end

section
/-! PROOF. SPDM connections, LMS signatures and the standard mailbox (16 R398; 20 R498, R507 to R509). -/

namespace Sys2Proof.Machine

open Sys2Proof Sys2Proof.Safety

/-! Connections. -/

/-- A connection that is set is the requester's own. -/
theorem spdmOf_setSpdm (s : State) (x : Spdm) : spdmOf (setSpdm s x) x.requester = some x := by
  show (s.sec.connections.filter (fun y => y.requester != x.requester) ++ [x]).find? (fun y => y.requester == x.requester) = some x
  rw [List.find?_append, List.find?_eq_none.2 (fun y hy => by simpa using (List.mem_filter.1 hy).2)]
  simp
theorem setSpdm_parts (s : State) (x : Spdm) : OnlyParts [.sec] s (setSpdm s x) := fun r hr => by
  cases r <;> first | (exfalso; simp at hr; done) | rfl
theorem emit_parts (s : State) (o : Out) : OnlyParts [.out] s (emit s o) := fun r hr => by
  cases r <;> first | (exfalso; simp at hr; done) | rfl

section
variable {s : State} {q n : Nat} {k : State → Spdm → State}

theorem spdmAt_early (h : ∀ x, spdmOf s q = some x → x.stage < n) : spdmAt s q n k = spdmError s q "ERROR UnexpectedRequest" := by
  unfold spdmAt
  split
  · next x found => exact if_neg (Nat.not_le.2 (h x found))
  · rfl
theorem spdmAt_reached {x : Spdm} (found : spdmOf s q = some x) (h : n ≤ x.stage) : spdmAt s q n k = k (setSpdm s { x with hash := none }) { x with hash := none } := by
  unfold spdmAt
  rw [found]
  exact if_pos h

end

/-- What a request answers at its stage: the answer goes out, and the connection is left as given. -/
structure SpdmAnswers (s t : State) (q : Nat) (x : Spdm) (o : Out) : Prop where
  parts : OnlyParts [.sec, .out] s t
  conn : spdmOf t q = some x
  out : t.out = o :: s.out

theorem spdm_answers {s : State} {q : Nat} (x : Spdm) (own : x.requester = q) (o : Out) : SpdmAnswers s (emit (setSpdm s x) o) q x o := by
  subst own
  exact ⟨OnlyParts.trans (setSpdm_parts s x) (emit_parts _ o) (by decide) (by decide), spdmOf_setSpdm s x, rfl⟩
theorem spdm_answers_twice {s : State} {q : Nat} (x y : Spdm) (own : y.requester = q) (o : Out) : SpdmAnswers s (emit (setSpdm (setSpdm s x) y) o) q y o := by
  subst own
  exact ⟨OnlyParts.trans (OnlyParts.trans (n := [.sec]) (setSpdm_parts s x) (setSpdm_parts _ y) (by decide) (by decide)) (emit_parts _ o) (by decide) (by decide),
    spdmOf_setSpdm _ y, rfl⟩

/-- The body of an answer to GET_MEASUREMENTS. -/
def measurementBody (s : State) (b : Nat) : List Byte :=
  if b = 0 then leBytes 1 11
  else if b = 0xFF then leBytes 1 11 ++ (List.range 11).flatMap (fun i => measurementBlock s (i + 1))
  else leBytes 1 1 ++ measurementBlock s b
theorem measurementBody_one {s : State} {b : Nat} (low : 1 ≤ b) (high : b ≤ 11) : measurementBody s b = leBytes 1 1 ++ measurementBlock s b := by
  unfold measurementBody
  rw [if_neg (by omega), if_neg (by omega)]

/-! A request at its stage (R507, R509). -/

section
variable {q : BitVec 48} {s : State} {x : Spdm} (found : spdmOf s q.toNat = some x) (own : x.requester = q.toNat)
include found own

theorem getCapabilities_answers (stage : 1 ≤ x.stage) : ∃ t, exec (.getCapabilities q) s = .next t ∧
    SpdmAnswers s t q.toNat { x with stage := 2, hash := none } (.spdm "CAPABILITIES" q.toNat (leBytes 4 (2 + 4 + 16))) := by
  refine ⟨_, congrArg Host.Outcome.next (spdmAt_reached found stage), ?_⟩
  rw [← own]
  exact spdm_answers_twice { x with hash := none } { x with stage := 2, hash := none } rfl _

theorem negotiate_answers (offered : Bool) (stage : 2 ≤ x.stage) : ∃ t, exec (.negotiateAlgorithms q offered) s = .next t ∧
    SpdmAnswers s t q.toNat { x with stage := if offered then 3 else x.stage, hash := none }
      (if offered then .spdm "ALGORITHMS" q.toNat (leBytes 4 0x80 ++ leBytes 4 2) else .spdm "ERROR InvalidRequest" q.toNat []) := by
  refine ⟨_, congrArg Host.Outcome.next (spdmAt_reached found stage), ?_⟩
  rw [← own]
  cases offered
  · exact spdm_answers { x with hash := none } rfl _
  · exact spdm_answers_twice { x with hash := none } { x with stage := 3, hash := none } rfl _

theorem getDigests_answers (stage : 3 ≤ x.stage) : ∃ t, exec (.getDigests q) s = .next t ∧
    SpdmAnswers s t q.toNat { x with hash := none } (.spdm "DIGESTS" q.toNat (leBytes 1 1 ++ sha384 (certChain s 0 Config.certLength))) := by
  refine ⟨_, congrArg Host.Outcome.next (spdmAt_reached found stage), ?_⟩
  rw [← own]
  exact spdm_answers { x with hash := none } rfl _

theorem getCertificate_answers (slot : Byte) (off len : BitVec 16) (stage : 3 ≤ x.stage) : ∃ t o, exec (.getCertificate q slot off len) s = .next t ∧
    SpdmAnswers s t q.toNat { x with hash := none } o ∧
    (slot = 0 → off.toNat ≤ Config.certLength → ∃ head, o = .spdm "CERTIFICATE" q.toNat (head ++ certChain s off.toNat len.toNat)) := by
  by_cases bad : slot ≠ 0 ∨ Config.certLength < off.toNat
  · refine ⟨_, _, congrArg Host.Outcome.next ((spdmAt_reached found stage).trans (if_pos bad)), spdm_answers { x with hash := none } own _, fun zero fits => ?_⟩
    exact absurd bad (by rw [not_or, not_not]; exact ⟨zero, Nat.not_lt.2 fits⟩)
  · refine ⟨_, _, congrArg Host.Outcome.next ((spdmAt_reached found stage).trans (if_neg bad)), spdm_answers { x with hash := none } own _, fun zero fits => ?_⟩
    rw [← own]
    exact ⟨_, rfl⟩

theorem challenge_answers (slot : Byte) (hash : List Byte) (stage : 3 ≤ x.stage) : ∃ t o, exec (.challenge q slot hash) s = .next t ∧
    SpdmAnswers s t q.toNat { x with hash := if slot = 0 then some hash else none } o ∧
    (slot = 0 → o = .spdm "CHALLENGE_AUTH" q.toNat (sha384 (certChain s 0 Config.certLength) ++ ecdsaAlias s hash)) := by
  by_cases zero : slot = 0
  · rw [if_pos zero]
    refine ⟨_, _, congrArg Host.Outcome.next ((spdmAt_reached found stage).trans (if_neg (not_not.2 zero))),
      spdm_answers_twice { x with hash := none } { x with hash := some hash } own _, fun _ => ?_⟩
    rw [← own]
    rfl
  · rw [if_neg zero]
    exact ⟨_, _, congrArg Host.Outcome.next ((spdmAt_reached found stage).trans (if_pos zero)), spdm_answers { x with hash := none } own _, fun h => absurd h zero⟩

theorem getMeasurements_answers (b : Byte) (signed : Bool) (hash : List Byte) (stage : 3 ≤ x.stage) : ∃ t o, exec (.getMeasurements q b signed hash) s = .next t ∧
    SpdmAnswers s t q.toNat { x with hash := if signed = true ∧ (b.toNat ≤ 11 ∨ b.toNat = 0xFF) then some hash else none } o ∧
    (1 ≤ b.toNat → b.toNat ≤ 11 →
      o = .spdm "MEASUREMENTS" q.toNat (leBytes 1 1 ++ measurementBlock s b.toNat ++ (if signed then ecdsaAlias s hash else []))) := by
  by_cases bad : 11 < b.toNat ∧ b.toNat ≠ 0xFF
  · rw [if_neg (by omega)]
    exact ⟨_, _, congrArg Host.Outcome.next ((spdmAt_reached found stage).trans (if_pos bad)), spdm_answers { x with hash := none } own _, fun _ high => by omega⟩
  · have whole : b.toNat ≤ 11 ∨ b.toNat = 0xFF := by omega
    have reached := (spdmAt_reached found stage (k := fun s x =>
      if 11 < b.toNat ∧ b.toNat ≠ 0xFF then spdmError s x.requester "ERROR InvalidRequest"
      else if signed then emit (setSpdm s { x with hash := some hash }) (.spdm "MEASUREMENTS" x.requester (measurementBody s b.toNat ++ ecdsaAlias s hash))
      else emit s (.spdm "MEASUREMENTS" x.requester (measurementBody s b.toNat)))).trans (if_neg bad)
    cases signed
    · rw [if_neg (by simp)]
      refine ⟨_, _, congrArg Host.Outcome.next reached, spdm_answers { x with hash := none } own _, fun low high => ?_⟩
      rw [if_neg (by decide), List.append_nil, ← measurementBody_one low high, ← own]
      rfl
    · rw [if_pos ⟨rfl, whole⟩]
      refine ⟨_, _, congrArg Host.Outcome.next reached, spdm_answers_twice { x with hash := none } { x with hash := some hash } own _, fun low high => ?_⟩
      rw [if_pos rfl, ← measurementBody_one low high, ← own]
      rfl

end

/-! The LMS half (R498, R508). -/

section
variable {q : BitVec 48} {s : State} {x : Spdm}

theorem getLms_stranger (h : spdmOf s q.toNat = none) : exec (.getLmsSignature q) s = .next (spdmError s q.toNat "ERROR UnexpectedRequest") := by
  show execGetLmsSignature q s = _
  unfold execGetLmsSignature
  dsimp only
  rw [h]
theorem getLms_exhausted (found : spdmOf s q.toNat = some x) (none_ : lmsLeaves ≤ s.sec.identityLeaf) : exec (.getLmsSignature q) s =
    .next (emit (checkIdentity (setSpdm s { x with hash := none })) (.spdm "KEY_EXHAUSTED" q.toNat (leBytes 2 stKeyExhausted))) := by
  show execGetLmsSignature q s = _
  unfold execGetLmsSignature
  dsimp only
  rw [found]
  exact congrArg Host.Outcome.next (if_pos none_)
theorem getLms_late (found : spdmOf s q.toNat = some x) (leaf : s.sec.identityLeaf < lmsLeaves) (late : x.hash = none) : exec (.getLmsSignature q) s =
    .next (spdmError (setSpdm s { x with hash := none }) q.toNat "ERROR UnexpectedRequest") := by
  show execGetLmsSignature q s = _
  unfold execGetLmsSignature
  dsimp only
  rw [found]
  dsimp only
  rw [if_neg (Nat.not_le.2 leaf), late]
theorem getLms_signs {h : List Byte} (found : spdmOf s q.toNat = some x) (leaf : s.sec.identityLeaf < lmsLeaves) (next : x.hash = some h)
    (room : s.sec.aliasLeaf < lmsLeaves) : exec (.getLmsSignature q) s =
    .next (emit { setSpdm s { x with hash := none } with sec := { (setSpdm s { x with hash := none }).sec with aliasLeaf := s.sec.aliasLeaf + 1 } }
      (.spdm "LMS_SIGNATURE" q.toNat (lmsAlias s h))) := by
  show execGetLmsSignature q s = _
  unfold execGetLmsSignature
  dsimp only
  rw [found]
  dsimp only
  rw [if_neg (Nat.not_le.2 leaf), next]
  dsimp only
  rw [if_neg (Nat.not_le.2 room)]
  rfl

/-- The key's exhaustion is raised once. -/
theorem checkIdentity_exhausted (s : State) (none_ : lmsLeaves ≤ s.sec.identityLeaf) : (checkIdentity s).sec.aliasLeaf = s.sec.aliasLeaf ∧
    (s.sec.exhaustedRaised = false → LoggedEvent s (checkIdentity s) 0xC07 2 []) := by
  unfold checkIdentity
  split
  · next quiet =>
    refine ⟨rfl, fun new => ?_⟩
    rw [new, decide_eq_false (Nat.not_lt.2 none_)] at quiet
    exact absurd quiet (by decide)
  · exact ⟨by rw [mgtEvent_sec], fun _ => mgtEvent_loggedFrom _ _ _ rfl rfl⟩

end

theorem renewal_early {s : State} (h : s.sec.aliasLeaf + 1024 < lmsLeaves) : exec .aliasLmsRenewal s = .next s :=
  congrArg Host.Outcome.next (if_neg (Nat.not_le.2 h))
theorem renewal_does {s : State} (due : lmsLeaves ≤ s.sec.aliasLeaf + 1024) (leaf : s.sec.identityLeaf + 1 < lmsLeaves) : ∃ t, exec .aliasLmsRenewal s = .next t ∧ t.sec.aliasLeaf = 0 ∧
    t.sec.identityLeaf = s.sec.identityLeaf + 1 ∧ LoggedEvent s t 0xC06 1 [] := by
  have fresh : newAlias s = { s with sec := { s.sec with identityLeaf := s.sec.identityLeaf + 1, aliasLeaf := 0 } } :=
    (if_pos (by omega)).trans (if_pos (by simp [leaf]))
  refine ⟨mgtEvent (newAlias s) 0xC06 1 [], congrArg Host.Outcome.next ((if_pos due).trans (if_pos (by omega))), ?_⟩
  rw [fresh]
  exact ⟨by rw [mgtEvent_sec], by rw [mgtEvent_sec], mgtEvent_loggedFrom _ _ _ rfl rfl⟩

/-! The standard mailbox (16 R398). -/

/-- Octets say a number as far as they reach. -/
theorem leBytes_congr (n : Nat) {v w : Nat} (h : v % 256 ^ n = w % 256 ^ n) : leBytes n v = leBytes n w := by
  induction n generalizing v w with
  | zero => rfl
  | succ n ih =>
    rw [Nat.pow_succ', Nat.mod_mul, Nat.mod_mul] at h
    have low : v % 256 = w % 256 := by
      have := congrArg (· % 256) h
      simpa [Nat.add_mul_mod_self_left] using this
    have high : v / 256 % 256 ^ n = w / 256 % 256 ^ n := by omega
    have octet : BitVec.ofNat 8 v = BitVec.ofNat 8 w := BitVec.eq_of_toNat_eq (by simpa using low)
    show BitVec.ofNat 8 v :: leBytes n (v / 256) = BitVec.ofNat 8 w :: leBytes n (w / 256)
    rw [octet, ih high]

theorem timestamp_reads (v : Word) (s : State) :
    ∃ t, exec (.timestamp (some v)) s = .next t ∧ OnlyParts [.hst, .out] s t ∧ exec (.timestamp none) t = .next (emit t (.mailbox false (leBytes 8 v.toNat))) := by
  refine ⟨_, rfl, fun r hr => ?_, congrArg (fun l => Host.Outcome.next (emit _ (.mailbox false l))) (leBytes_congr 8 ?_)⟩
  · cases r <;> first | (exfalso; simp at hr; done) | rfl
  · show ((v.toNat + 2 ^ 64 - now s % 2 ^ 64) % 2 ^ 64 + now s) % 2 ^ 64 = v.toNat % 2 ^ 64
    have := v.isLt
    omega

/-- Settles O43: spdmAt gates each request, setSpdm leaves the connection, and a timestamp reads as it was set. ERROR UnexpectedRequest for a stage that is not reached and the
octets of each answer are log entry 59. -/
theorem attestation : Obligations.Attestation := by
  refine ⟨fun q s => ⟨fun new full => ?_, fun room => ?_, fun slot off len hash b signed offered => ⟨fun n c named early => ?_, fun x found own => ⟨fun stage => ?_, fun stage => ?_,
      fun stage => ⟨?_, ?_, ?_, ?_⟩⟩⟩, getLms_stranger, fun x found leaf => ⟨getLms_late found leaf, fun h next room => ?_⟩, fun x found none_ => ?_⟩,
    fun s => ⟨renewal_early, renewal_does⟩, fun opcode off len v s => ⟨rfl, rfl, ⟨_, rfl, fun r hr => ?_, rfl⟩, ⟨_, _, rfl, emit_parts s _, rfl⟩, ⟨_, rfl, fun r hr => ?_, rfl⟩,
      timestamp_reads v s⟩⟩
  · exact congrArg Host.Outcome.next (if_pos (by simp [new, full]))
  · refine congrArg Host.Outcome.next (if_neg ?_)
    rcases room with known | room
    · simp [known]
    · simp [room]
  · simp only [List.mem_cons, List.not_mem_nil, or_false] at named
    rcases named with ⟨rfl, rfl⟩ | ⟨rfl, rfl⟩ | ⟨rfl, rfl⟩ | ⟨rfl, rfl⟩ | ⟨rfl, rfl⟩ | ⟨rfl, rfl⟩
    · exact congrArg Host.Outcome.next (spdmAt_early early)
    · exact congrArg Host.Outcome.next (spdmAt_early early)
    · exact congrArg Host.Outcome.next (spdmAt_early early)
    · exact congrArg Host.Outcome.next (spdmAt_early early)
    · exact congrArg Host.Outcome.next (spdmAt_early early)
    · exact congrArg Host.Outcome.next (spdmAt_early early)
  · obtain ⟨t, does, parts, conn, out⟩ := getCapabilities_answers found own stage
    exact ⟨t, does, parts, conn, out⟩
  · obtain ⟨t, does, parts, conn, out⟩ := negotiate_answers found own offered stage
    exact ⟨t, does, parts, conn, out⟩
  · obtain ⟨t, does, parts, conn, out⟩ := getDigests_answers found own stage
    exact ⟨t, does, parts, conn, out⟩
  · obtain ⟨t, o, does, ⟨parts, conn, out⟩, shows⟩ := getCertificate_answers found own slot off len stage
    refine ⟨t, does, parts, conn, fun zero fits => ?_⟩
    obtain ⟨head, is⟩ := shows zero fits
    exact ⟨head, out.trans (by rw [is])⟩
  · obtain ⟨t, o, does, ⟨parts, conn, out⟩, shows⟩ := challenge_answers found own slot hash stage
    exact ⟨t, does, parts, conn, fun zero => out.trans (by rw [shows zero])⟩
  · obtain ⟨t, o, does, ⟨parts, conn, out⟩, shows⟩ := getMeasurements_answers found own b signed hash stage
    exact ⟨t, does, parts, conn, fun low high => out.trans (by rw [shows low high])⟩
  · refine ⟨_, getLms_signs found leaf next room, fun r hr => ?_, rfl, rfl⟩
    cases r <;> first | (exfalso; simp at hr; done) | rfl
  · obtain ⟨kept, told⟩ := checkIdentity_exhausted (setSpdm s { x with hash := none }) none_
    refine ⟨_, getLms_exhausted found none_, List.mem_cons_self .., kept, fun new => ?_⟩
    obtain ⟨count, e, last, rest⟩ := told new
    exact ⟨count, e, last, rest⟩
  · cases r <;> first | (exfalso; simp at hr; done) | rfl
  · cases r <;> first | (exfalso; simp at hr; done) | rfl

end Sys2Proof.Machine
end

section
/-! PROOF. Strand control and the strand cache miss (16 R404 to R406). -/

namespace Sys2Proof.Machine

open Sys2Proof Sys2Proof.Safety

/-! Tables. -/

theorem mem_of_tfind {α : Type} {t : Tab α} {k : Nat} {v : α} (h : tfind t k = some v) : (k, v) ∈ t := by
  induction t with
  | nil => exact absurd h (by simp [tfind])
  | cons p t ih =>
    obtain ⟨a, w⟩ := p
    unfold tfind at h
    split at h
    · next same =>
      obtain rfl := Option.some.inj h
      subst same
      exact List.mem_cons_self ..
    · exact List.mem_cons_of_mem _ (ih h)
theorem tget_eq_tfind {α : Type} (d : α) (t : Tab α) (k : Nat) : tget d t k = (tfind t k).getD d := by
  induction t with
  | nil => rfl
  | cons p t ih =>
    obtain ⟨a, w⟩ := p
    unfold tget tfind
    split
    · rfl
    · exact ih
/-- A busy slot is listed. -/
theorem slot_listed {s : State} {k : Nat} (busy : (slotOf s k).busy = true) : (k, slotOf s k) ∈ s.hst.slots := by
  have here : slotOf s k = (tfind s.hst.slots k).getD {} := tget_eq_tfind ..
  cases found : tfind s.hst.slots k with
  | none =>
    rw [here, found] at busy
    exact absurd busy (by decide)
  | some v =>
    rw [here, found]
    exact mem_of_tfind found

/-! The caches of entries (R403, R406; 15 R377). -/

theorem hstBack_hst (s : State) (n : Nat) : (hstBack s n).hst = s.hst := (hstBack_within (M := 0x2) rfl s n .refl).same .hst rfl
theorem lnkBack_same (s : State) (n : Nat) : (lnkBack s n).hst = s.hst ∧ (lnkBack s n).lnkCache = s.lnkCache :=
  ⟨(lnkBack_within (M := 0x2) rfl s n .refl).same .hst rfl, (lnkBack_within (M := 0x2) rfl s n .refl).same .lnkCache rfl⟩

section
variable (s : State) (d n : Nat)

theorem hstTouch_hst : (hstTouch s n).hst = { s.hst with lru := (n :: s.hst.lru.filter (· != n)).take 16384 } :=
  each_keeps (·.hst) _ _ _ (fun u m _ => hstBack_hst u m)
theorem hstTouch_holds : hstHolds (hstTouch s n) n = true := by
  unfold hstHolds
  rw [hstTouch_hst]
  simp
theorem lnkTouch_hst : (lnkTouch s d n).hst = s.hst := each_keeps (·.hst) _ _ _ (fun u m _ => (lnkBack_same u m).1)
theorem lnkTouch_cache : (lnkTouch s d n).lnkCache = tset s.lnkCache d ((n :: (tget [] s.lnkCache d).filter (· != n)).take 32768) :=
  each_keeps (·.lnkCache) _ _ _ (fun u m _ => (lnkBack_same u m).2)
theorem lnkTouch_holds (e : Nat) : lnkHolds (lnkTouch s d n) e n = if d = e then true else lnkHolds s e n := by
  unfold lnkHolds
  rw [lnkTouch_cache, tget_tset]
  split
  · simp
  · rfl

/-- An entry that finds room sends none back. -/
theorem hstTouch_mem (room : s.hst.lru.length < 16384) : (hstTouch s n).mem = s.mem := by
  have none_ : (n :: s.hst.lru.filter (· != n)).drop 16384 = [] := List.drop_eq_nil_of_le (by
    have := List.length_filter_le (· != n) s.hst.lru
    simp only [List.length_cons]
    omega)
  unfold hstTouch
  dsimp only
  rw [none_]
  rfl
theorem lnkTouch_mem (room : (tget [] s.lnkCache d).length < 32768) : (lnkTouch s d n).mem = s.mem := by
  have none_ : (n :: (tget [] s.lnkCache d).filter (· != n)).drop 32768 = [] := List.drop_eq_nil_of_le (by
    have := List.length_filter_le (· != n) (tget [] s.lnkCache d)
    simp only [List.length_cons]
    omega)
  unfold lnkTouch
  dsimp only
  rw [none_]
  rfl

end

/-- Every link die of a list takes the entry. -/
theorem lnkTouches_hst (l : List Nat) (s : State) (n : Nat) : (each l s (fun s d => lnkTouch s d n)).hst = s.hst :=
  each_keeps (·.hst) _ _ _ (fun u d _ => lnkTouch_hst u d n)
theorem lnkTouches_holds (l : List Nat) (s : State) (n e : Nat) (h : e ∈ l ∨ lnkHolds s e n = true) : lnkHolds (each l s (fun s d => lnkTouch s d n)) e n = true := by
  induction l generalizing s with
  | nil => exact h.resolve_left (by simp)
  | cons d l ih =>
    refine ih (lnkTouch s d n) ?_
    rw [lnkTouch_holds]
    by_cases here : d = e
    · exact .inr (if_pos here)
    · rw [if_neg here]
      exact h.imp_left (fun hm => (List.mem_cons.1 hm).resolve_left (Ne.symm here))
theorem lnkTouches_mem (l : List Nat) (s : State) (n : Nat) (distinct : l.Nodup) (room : ∀ d ∈ l, (tget [] s.lnkCache d).length < 32768) :
    (each l s (fun s d => lnkTouch s d n)).mem = s.mem := by
  induction l generalizing s with
  | nil => rfl
  | cons d l ih =>
    obtain ⟨fresh, rest⟩ := List.nodup_cons.1 distinct
    refine (ih (lnkTouch s d n) rest (fun e he => ?_)).trans (lnkTouch_mem s d n (room d (List.mem_cons_self ..)))
    rw [lnkTouch_cache, tget_tset, if_neg (fun same : d = e => fresh (same ▸ he))]
    exact room e (List.mem_cons_of_mem _ he)

section
variable (s : State) (n : Nat)

theorem cacheEverywhere_parts : OnlyParts [.mem, .hst, .lnkCache] s (cacheEverywhere s n) :=
  Within.onlyParts (l := [.mem, .hst, .lnkCache]) (back := false) (cacheEverywhere_within rfl s n .refl)
theorem cacheEverywhere_holds : hstHolds (cacheEverywhere s n) n = true ∧ ∀ d, d < 8 → lnkHolds (cacheEverywhere s n) d n = true := by
  refine ⟨hstTouch_holds _ n, fun d hd => ?_⟩
  have kept : (cacheEverywhere s n).lnkCache = (each (List.range 8) s (fun s d => lnkTouch s d n)).lnkCache := (hstTouch_within (M := 0x82) rfl _ n .refl).same .lnkCache rfl
  unfold lnkHolds
  rw [kept]
  exact lnkTouches_holds (List.range 8) s n d (.inl (List.mem_range.2 hd))
theorem cacheEverywhere_strand (m : Nat) : strand (cacheEverywhere s n) m = strand s m := by
  unfold strand cacheEverywhere
  rw [hstTouch_hst, lnkTouches_hst]
theorem cacheEverywhere_mem (room : s.hst.lru.length < 16384) (rooms : ∀ d, (tget [] s.lnkCache d).length < 32768) : (cacheEverywhere s n).mem = s.mem := by
  unfold cacheEverywhere
  rw [hstTouch_mem _ _ (by rw [lnkTouches_hst]; exact room)]
  exact lnkTouches_mem _ _ _ List.nodup_range (fun d _ => rooms d)

end

/-! The gates of an action (R404). -/

theorem strandEnd_parts (s : State) (result status : Nat) : OnlyParts [.hst] s (strandEnd s result status) := fun r hr => by
  cases r <;> first | (exfalso; simp at hr; done) | rfl

section
variable {n : StrandId} {s : State}

theorem strandCtl_busy (busy : s.hst.strandResult = 1) : ∀ c ∈ [Instr.strandActivate n, .strandUpdate n, .strandFlush n, .strandRelease n],
    exec c s = .next (bump s (hstOff HST_CFG_REJECT_COUNT) 1) := by
  simp only [List.forall_mem_cons, List.not_mem_nil, false_imp_iff, implies_true, and_true]
  exact ⟨congrArg Host.Outcome.next (if_pos busy), congrArg Host.Outcome.next (if_pos busy), congrArg Host.Outcome.next (if_pos busy), congrArg Host.Outcome.next (if_pos busy)⟩

theorem strandCtl_stranger (idle : s.hst.strandResult ≠ 1) (none_ : strandLive s n = false) : ∀ c ∈ [Instr.strandUpdate n, .strandFlush n, .strandRelease n],
    exec c s = .next (strandEnd s 2 stStrandInvalid) := by
  have gate : (!strandLive s n) = true := by rw [none_]; rfl
  simp only [List.forall_mem_cons, List.not_mem_nil, false_imp_iff, implies_true, and_true]
  exact ⟨congrArg Host.Outcome.next ((if_neg idle).trans (if_pos gate)), congrArg Host.Outcome.next ((if_neg idle).trans (if_pos gate)),
    congrArg Host.Outcome.next ((if_neg idle).trans (if_pos gate))⟩

/-! ACTIVATE, UPDATE, FLUSH and a miss. -/

theorem entryWord (s : State) (n w : Nat) (h : w < 8) : word (entryWords s n) w = rd64 s (strandEntry s n w) := by
  have at_ : strandEntry s n 0 + 8 * w = strandEntry s n w := by
    unfold strandEntry
    omega
  unfold entryWords rdWords word
  rw [List.getD_eq_getElem?_getD, List.getElem?_map, List.getElem?_range h, Option.map_some, at_]
  rfl

theorem activate_early (idle : s.hst.strandResult ≠ 1) (early : stageDone s 3 = false) : exec (.strandActivate n) s = .next (strandEnd s 2 stNotReady) :=
  congrArg Host.Outcome.next ((if_neg idle).trans (if_pos (by rw [early]; rfl)))
theorem activate_invalid (idle : s.hst.strandResult ≠ 1) (up : stageDone s 3 = true) (h : bit (rd64 s (strandEntry s n 0)) 0 = false ∨ strandLive s n = true) :
    exec (.strandActivate n) s = .next (strandEnd s 2 stStrandInvalid) := by
  refine congrArg Host.Outcome.next ((if_neg idle).trans ((if_neg (by rw [up]; decide)).trans (if_pos ?_)))
  rw [entryWord s n 0 (by decide)]
  rcases h with h | h <;> simp [h]

/-- The state in which a strand is live with the words of its entry, before any cache holds it. -/
def activated (s : State) (n : Nat) : State :=
  setStrand (wrBytes s (strandEntry s n 8) (zeros 24)) n { words := entryWords s n, txCredit := bits (word (entryWords s n) 4) 31 16 }
theorem activated_lru (s : State) (n : Nat) : (activated s n).hst.lru = s.hst.lru := by
  unfold activated
  generalize zeros 24 = l
  rfl
theorem activated_lnkCache (s : State) (n : Nat) : (activated s n).lnkCache = s.lnkCache := by rw [activated, setStrand_lnkCache, wrBytes_lnkCache]
theorem activated_mem (s : State) (n : Nat) : (activated s n).mem = mwriteN s.mem (strandEntry s n 8) (zeros 24) := by
  rw [activated, setStrand_mem]
  generalize zeros 24 = l
  rfl
theorem activated_parts (s : State) (n : Nat) : OnlyParts [.mem, .hst] s (activated s n) :=
  Within.onlyParts (l := [.mem, .hst]) (back := false) (setStrand_within rfl _ n _ (wrBytes_within rfl s _ _ .refl))
theorem activate_runs (idle : s.hst.strandResult ≠ 1) (up : stageDone s 3 = true) (valid : bit (rd64 s (strandEntry s n 0)) 0 = true) (new : strandLive s n = false) :
    exec (.strandActivate n) s = .next (strandEnd (cacheEverywhere (activated s n) n) 0 0) := by
  refine congrArg Host.Outcome.next ((if_neg idle).trans ((if_neg (by rw [up]; decide)).trans (if_neg ?_)))
  rw [entryWord s n 0 (by decide), valid, new]
  decide

theorem activate_does (idle : s.hst.strandResult ≠ 1) (up : stageDone s 3 = true) (valid : bit (rd64 s (strandEntry s n 0)) 0 = true) (new : strandLive s n = false) :
    ∃ t, exec (.strandActivate n) s = .next t ∧ OnlyParts [.mem, .hst, .lnkCache] s t ∧ t.hst.strandResult = 0 ∧ t.hst.strandStatus = 0 ∧
      hstHolds t n = true ∧ (∀ d, d < 8 → lnkHolds t d n = true) ∧
      (∃ x, strand t n = some x ∧ x.words = rdWords s (strandEntry s n 0) 8 ∧ x.txCredit = bits (rd64 s (strandEntry s n 4)) 31 16 ∧ x.tasksDone = 0 ∧ x.stepLast = 0) ∧
      (s.hst.lru.length < 16384 → (∀ d, (tget [] s.lnkCache d).length < 32768) → t.mem = mwriteN s.mem (strandEntry s n 8) (zeros 24)) := by
  obtain ⟨holds, links⟩ := cacheEverywhere_holds (activated s n) n
  have live := cacheEverywhere_strand (activated s n) n n
  have parts := OnlyParts.trans (activated_parts s n) (cacheEverywhere_parts (activated s n) n) (n := [.mem, .hst, .lnkCache]) (by decide) (by decide)
  have mem := cacheEverywhere_mem (activated s n) n
  rw [activated_lru, activated_lnkCache, activated_mem] at mem
  have made : strand (activated s n) n = some { words := entryWords s n, txCredit := bits (word (entryWords s n) 4) 31 16 } := (strand_setStrand ..).trans (if_pos rfl)
  have does := activate_runs idle up valid new
  generalize cacheEverywhere (activated s n) n = u at *
  refine ⟨_, does, OnlyParts.trans parts (strandEnd_parts u 0 0) (by decide) (by decide), rfl, rfl, holds, links, ⟨_, live.trans made, rfl, ?_, rfl, rfl⟩, mem⟩
  dsimp only
  rw [entryWord s n 4 (by decide)]

theorem update_does (idle : s.hst.strandResult ≠ 1) (live : strandLive s n = true) :
    ∃ t, exec (.strandUpdate n) s = .next t ∧ OnlyParts [.mem, .hst, .lnkCache] s t ∧ t.hst.strandResult = 0 ∧ t.hst.strandStatus = 0 ∧
      (∃ x y, strand s n = some x ∧ strand t n = some y ∧ y = { x with words := rdWords s (strandEntry s n 0) 8 }) := by
  obtain ⟨x, found⟩ := Option.isSome_iff_exists.1 live
  have changed := strand_updStrand_some (f := fun x => { x with words := entryWords s n }) found
  have begun := updStrand_parts s n (fun x => { x with words := entryWords s n })
  have does : exec (.strandUpdate n) s = .next (strandEnd (cacheEverywhere (updStrand s n (fun x => { x with words := entryWords s n })) n) 0 0) :=
    congrArg Host.Outcome.next ((if_neg idle).trans (if_neg (by rw [live]; decide)))
  generalize updStrand s n (fun x => { x with words := entryWords s n }) = v at *
  have kept := cacheEverywhere_strand v n n
  have parts := OnlyParts.trans begun (cacheEverywhere_parts v n) (n := [.mem, .hst, .lnkCache]) (by decide) (by decide)
  generalize cacheEverywhere v n = u at *
  exact ⟨_, does, OnlyParts.trans parts (strandEnd_parts u 0 0) (by decide) (by decide), rfl, rfl, x, _, found, kept.trans changed, rfl⟩

theorem flushStrand_parts (s : State) (n : Nat) : OnlyParts [.mem] s (flushStrand s n) := Within.onlyParts (l := [.mem]) (back := false) (flushStrand_within rfl s n .refl)

/-- A strand without a lifeline shows its counts in its entry. -/
theorem flushStrand_words {x : Strand} (found : strand s n = some x) (canonical : MemoryCanonical s) (plain : (lifeline s n).role = 0) :
    rd64 (flushStrand s n) (strandEntry s n 9) = x.tasksDone % 2 ^ 64 ∧ rd64 (flushStrand s n) (strandEntry s n 10) = x.stepLast % 2 ^ 64 := by
  have credit : lnkBack s n = wr64 s (strandEntry s n 8) (x.txCredit % 65536 + x.txSeq % 65536 * 2 ^ 16 + x.rxSeq % 65536 * 2 ^ 32) := by
    unfold lnkBack
    rw [found]
  have again (v : Nat) : strand (wr64 s (strandEntry s n 8) v) n = some x := found
  have entries (v w : Nat) : strandEntry (wr64 s (strandEntry s n 8) v) n w = strandEntry s n w := rfl
  have flushed : flushStrand s n = hstBack (lnkBack s n) n := by
    have role : (lifeline (hstBack (lnkBack s n) n) n).role = 0 := by
      rw [lifeline_congr ((hstBack_within (M := 0x2) rfl _ n .refl).same .lifelines rfl), lifeline_congr ((lnkBack_within (M := 0x2) rfl s n .refl).same .lifelines rfl)]
      exact plain
    exact if_pos role
  rw [flushed, credit]
  generalize x.txCredit % 65536 + x.txSeq % 65536 * 2 ^ 16 + x.rxSeq % 65536 * 2 ^ 32 = v
  have back : hstBack (wr64 s (strandEntry s n 8) v) n = wr64 (wr64 (wr64 s (strandEntry s n 8) v) (strandEntry s n 9) x.tasksDone) (strandEntry s n 10) x.stepLast := by
    unfold hstBack
    rw [again]
    rfl
  have first := memWf_wr64 s (strandEntry s n 8) v canonical
  have second := memWf_wr64 _ (strandEntry s n 9) x.tasksDone first
  have apart : strandEntry s n 9 + 8 ≤ strandEntry s n 10 := by
    unfold strandEntry
    omega
  rw [back]
  exact ⟨(rd64_wr64_ne _ _ _ _ second (.inl apart)).trans (rd64_wr64 _ _ _ first), rd64_wr64 _ _ _ second⟩

theorem flush_does (idle : s.hst.strandResult ≠ 1) (live : strandLive s n = true) :
    ∃ t, exec (.strandFlush n) s = .next t ∧ OnlyParts [.mem, .hst] s t ∧ t.hst.strandResult = 0 ∧ t.hst.strandStatus = 0 ∧ t.hst.strands = s.hst.strands ∧
      (MemoryCanonical s → (lifeline s n).role = 0 →
        ∃ x, strand s n = some x ∧ rd64 t (strandEntry s n 9) = x.tasksDone % 2 ^ 64 ∧ rd64 t (strandEntry s n 10) = x.stepLast % 2 ^ 64) := by
  obtain ⟨x, found⟩ := Option.isSome_iff_exists.1 live
  have words := flushStrand_words found
  have parts := flushStrand_parts s n
  have does : exec (.strandFlush n) s = .next (strandEnd (flushStrand s n) 0 0) := congrArg Host.Outcome.next ((if_neg idle).trans (if_neg (by rw [live]; decide)))
  generalize flushStrand s n = u at *
  have hst : u.hst = s.hst := parts .hst (by decide)
  refine ⟨_, does, OnlyParts.trans parts (strandEnd_parts u 0 0) (by decide) (by decide), rfl, rfl, congrArg (·.strands) hst, fun canonical plain => ⟨x, found, words canonical plain⟩⟩

theorem miss_none (h : hstHolds s n = true ∨ strandLive s n = false) : exec (.strandCacheMiss n) s = .next s :=
  congrArg Host.Outcome.next (if_pos (by rcases h with h | h <;> simp [h]))
theorem miss_does (away : hstHolds s n = false) (live : strandLive s n = true) : ∃ t, exec (.strandCacheMiss n) s = .next t ∧ OnlyParts [.regs, .mem, .hst] s t ∧ hstHolds t n = true ∧
    reg t (hstOff HST_STRAND_MISS_COUNT) = (reg s (hstOff HST_STRAND_MISS_COUNT) + 1) % 2 ^ 64 := by
  have touched := hstTouch_within (M := 0x82) rfl (bump s (hstOff HST_STRAND_MISS_COUNT) 1) n .refl
  have counted : OnlyParts [.regs] s (bump s (hstOff HST_STRAND_MISS_COUNT) 1) := fun r hr => by cases r <;> first | (exfalso; simp at hr; done) | rfl
  refine ⟨_, congrArg Host.Outcome.next (if_neg (by rw [away, live]; decide)), OnlyParts.trans counted (Within.onlyParts (l := [.mem, .hst]) (back := false) touched) (by decide) (by decide),
    hstTouch_holds _ n, ?_⟩
  rw [reg_congr (touched.same .regs rfl), reg_bump, if_pos rfl]

end

/-! RELEASE (R405). -/

/-- What ends a task leaves a slot that has ended, and one that is not its own. -/
theorem endTask_ended (s : State) (j k status die : Nat) (skip : Option Nat) (cancel : Bool) (h : j ≠ k ∨ (slotOf s k).ending = true) :
    slotOf (endTask s j status die skip cancel) k = slotOf s k := by
  by_cases runs : (slotOf s j).busy = true ∧ (slotOf s j).ending = false ∧ (slotOf s j).written = false
  · obtain ⟨busy, going, open_⟩ := runs
    rw [endTask_slotOf _ _ _ _ _ _ busy going open_, if_neg]
    rintro rfl
    rcases h with h | h
    · exact h rfl
    · rw [going] at h
      exact absurd h (by decide)
  · rw [endTask_settled]
    cases hb : (slotOf s j).busy <;> cases he : (slotOf s j).ending <;> cases hw : (slotOf s j).written <;> simp_all

/-- Of a list of tasks cancelled each that runs ends so. -/
theorem cancelled_ends (l : List Nat) (s : State) (k : Nat) (listed : k ∈ l) (busy : (slotOf s k).busy = true) (going : (slotOf s k).ending = false) (open_ : (slotOf s k).written = false) :
    (slotOf (each l s (fun s k => endTask s k stCancelled hstDie none true)) k).ending = true ∧
      (slotOf (each l s (fun s k => endTask s k stCancelled hstDie none true)) k).status = stCancelled := by
  have stays (l : List Nat) (u : State) (ended : (slotOf u k).ending = true) : slotOf (each l u (fun s k => endTask s k stCancelled hstDie none true)) k = slotOf u k := by
    induction l generalizing u with
    | nil => rfl
    | cons j l ih =>
      have kept := endTask_ended u j k stCancelled hstDie none true (.inr ended)
      exact (ih _ (by rw [kept]; exact ended)).trans kept
  induction l generalizing s with
  | nil => exact absurd listed (by simp)
  | cons j l ih =>
    show (slotOf (each l (endTask s j stCancelled hstDie none true) _) k).ending = true ∧ (slotOf (each l (endTask s j stCancelled hstDie none true) _) k).status = _
    by_cases here : j = k
    · subst here
      have ended := (endTask_slotOf s j stCancelled hstDie none true busy going open_ j).trans (if_pos rfl)
      rw [stays l _ (by rw [ended]), ended]
      exact ⟨rfl, rfl⟩
    · have kept := endTask_ended s j k stCancelled hstDie none true (.inl here)
      exact ih _ ((List.mem_cons.1 listed).resolve_left (Ne.symm here)) (by rw [kept]; exact busy) (by rw [kept]; exact going) (by rw [kept]; exact open_)

/-- Tasks of a strand that has none that runs leave the module as it is. -/
theorem cancelled_none (l : List Nat) (s : State) (h : ∀ k ∈ l, (slotOf s k).busy = false) : each l s (fun s k => endTask s k stCancelled hstDie none true) = s :=
  each_id l s _ (fun k hk => endTask_settled _ _ _ _ _ _ (.inl (h k hk)))

/-! What a release's end leaves of a strand. -/

/-- Nothing of the device holds a strand any longer. -/
structure StrandGone (s : State) (n : Nat) : Prop where
  live : strandLive s n = false
  result : s.hst.strandResult = 0
  status : s.hst.strandStatus = 0
  cached : hstHolds s n = false
  linked : ∀ d, lnkHolds s d n = false
  masks : s.hst.masks.all (fun p => p.2.strand != n) = true

section
variable (s : State) (m n : Nat)

theorem endRelease_hst : (endRelease s m).hst = { s.hst with
    masks := s.hst.masks.filter (fun p => p.2.strand != m), strands := tdel s.hst.strands m, lru := s.hst.lru.filter (· != m), strandResult := 0, strandStatus := 0 } := by
  have kept := flushStrand_parts { s with hst := { s.hst with masks := s.hst.masks.filter (fun p => p.2.strand != m) } } m .hst (by decide)
  unfold endRelease
  dsimp only
  rw [show State.hst (flushStrand _ m) = _ from kept]
theorem endRelease_cache : (endRelease s m).lnkCache = s.lnkCache.map (fun p => (p.1, p.2.filter (· != m))) := by
  have kept := flushStrand_parts { s with hst := { s.hst with masks := s.hst.masks.filter (fun p => p.2.strand != m) } } m .lnkCache (by decide)
  unfold endRelease
  dsimp only
  rw [show State.lnkCache (flushStrand _ m) = _ from kept]

theorem tget_mapped {α β : Type} (d : α) (e : β) (f : α → β) (t : Tab α) (k : Nat) (h : f d = e) : tget e (t.map (fun p => (p.1, f p.2))) k = f (tget d t k) := by
  induction t with
  | nil => exact h.symm
  | cons p t ih =>
    show (if p.1 = k then f p.2 else tget e (t.map _) k) = f (if p.1 = k then p.2 else tget d t k)
    split
    · rfl
    · exact ih
theorem tfind_tdel {α : Type} (t : Tab α) (k j : Nat) (h : tfind t k = none) : tfind (tdel t j) k = none := by
  induction t with
  | nil => rfl
  | cons p t ih =>
    obtain ⟨a, v⟩ := p
    unfold tfind at h
    split at h
    · exact absurd h (by simp)
    · next ne =>
      by_cases keep : a = j
      · have gone : tdel ((a, v) :: t) j = tdel t j := by simp [tdel, keep]
        rw [gone]
        exact ih h
      · have stays : tdel ((a, v) :: t) j = (a, v) :: tdel t j := by simp [tdel, keep]
        rw [stays]
        unfold tfind
        rw [if_neg ne]
        exact ih h

theorem lnkHolds_endRelease (d : Nat) : lnkHolds (endRelease s m) d n = (lnkHolds s d n && n != m) := by
  unfold lnkHolds
  rw [endRelease_cache, tget_mapped [] [] (fun l => l.filter (· != m)) _ d rfl, Bool.eq_iff_iff]
  simp

theorem endRelease_gone : StrandGone (endRelease s n) n := by
  have hst := endRelease_hst s n
  refine ⟨?_, by rw [hst], by rw [hst], ?_, fun d => ?_, ?_⟩
  · unfold strandLive strand
    rw [hst]
    exact congrArg Option.isSome (tfind_tdel_self ..)
  · unfold hstHolds
    rw [hst]
    simp
  · rw [lnkHolds_endRelease]
    simp
  · rw [hst]
    simp
theorem endRelease_keepsGone {s : State} {n : Nat} (h : StrandGone s n) : StrandGone (endRelease s m) n := by
  have hst := endRelease_hst s m
  obtain ⟨live, result, status, cached, linked, masks⟩ := h
  refine ⟨?_, by rw [hst], by rw [hst], ?_, fun d => ?_, ?_⟩
  · unfold strandLive strand at *
    rw [hst]
    exact congrArg Option.isSome (tfind_tdel _ _ _ (by simpa using live))
  · unfold hstHolds at *
    rw [hst]
    simp only [List.contains_eq_mem, decide_eq_false_iff_not, List.mem_filter] at *
    exact fun ⟨listed, _⟩ => cached listed
  · rw [lnkHolds_endRelease, linked]
    rfl
  · rw [hst]
    simp only [List.all_eq_true, List.mem_filter] at *
    exact fun p ⟨listed, _⟩ => masks p listed

theorem strandBusy_endRelease : strandBusy (endRelease s m) n = strandBusy s n := by
  unfold strandBusy
  rw [endRelease_hst]

end

/-- A releasing strand none of whose tasks runs is gone after the others have been seen to. -/
theorem released_gone (l : List Nat) (s : State) (n : Nat) (idle : strandBusy s n = false) (h : n ∈ l ∨ StrandGone s n) :
    StrandGone (each l s (fun s n => if strandBusy s n then s else endRelease s n)) n := by
  induction l generalizing s with
  | nil => exact h.resolve_left (by simp)
  | cons m l ih =>
    show StrandGone (each l (if strandBusy s m = true then s else endRelease s m) _) n
    split
    · next busy =>
      refine ih s idle (h.imp_left (fun hm => (List.mem_cons.1 hm).resolve_left ?_))
      rintro rfl
      rw [idle] at busy
      exact absurd busy (by decide)
    · refine ih _ (by rw [strandBusy_endRelease]; exact idle) ?_
      rcases h with h | h
      · rcases List.mem_cons.1 h with rfl | later
        · exact .inr (endRelease_gone s n)
        · exact .inl later
      · exact .inr (endRelease_keepsGone m h)
theorem settleRelease_slotOf (s : State) (k : Nat) : slotOf (settleRelease s) k = slotOf s k :=
  each_keeps (fun u => slotOf u k) _ _ _ (fun u n _ => by
    split
    · rfl
    · unfold slotOf
      rw [endRelease_hst])

section
variable {n : StrandId} {s : State}

/-- The state in which a strand's release has begun. -/
def releasing (s : State) (n : Nat) : State := strandEnd (updStrand s n (fun x => { x with releasing := true })) 1 0
/-- Its tasks that run, cancelled. -/
def releaseCancelled (s : State) (n : Nat) : State :=
  each ((busySlots (releasing s n)).filter (fun k => (slotOf (releasing s n) k).strand == n)) (releasing s n) (fun s k => endTask s k stCancelled hstDie none true)

theorem releasing_hst (live : strandLive s n = true) : ∃ x : Strand, (releasing s n).hst = { s.hst with strands := tset s.hst.strands n { x with releasing := true }, strandResult := 1, strandStatus := 0 } := by
  obtain ⟨x, found⟩ := Option.isSome_iff_exists.1 live
  refine ⟨x, ?_⟩
  unfold releasing updStrand
  rw [found]
  rfl

/-- With no task of the strand waiting its release goes on with those that run. -/
theorem release_runs (idle : s.hst.strandResult ≠ 1) (live : strandLive s n = true) (none_ : ∀ q, (fetched s q).all (fun d => tStrand d.words != n.val) = true) :
    exec (.strandRelease n) s = .next (settleRelease (releaseCancelled s n)) := by
  obtain ⟨x, hst⟩ := releasing_hst live
  have waits (q : Nat) : fetched (releasing s n) q = fetched s q := by
    unfold fetched
    rw [hst]
  have fronts (q : Nat) : (((fetched (releasing s n) q).head?).map (fun d => tStrand d.words == n.val)).getD false = false := by
    rw [waits]
    have all := none_ q
    cases h : fetched s q with
    | nil => rfl
    | cons d l =>
      rw [h, List.all_cons, Bool.and_eq_true, bne_iff_ne] at all
      exact beq_eq_false_iff_ne.2 all.1
  have mine (q : Nat) : (fetched (releasing s n) q).filter (fun d => tStrand d.words == n.val) = [] := by
    rw [waits]
    exact List.filter_eq_nil_iff.2 (fun d hd => by simpa using List.all_eq_true.1 (none_ q) d hd)
  have quiet : each ((releasing s n).hst.fetched.map (·.1)) (releasing s n) (fun s q =>
        let s := if (((fetched s q).head?).map (fun d => tStrand d.words == n.val)).getD false then leaveWaits s q else s
        each ((fetched s q).filter (fun d => tStrand d.words == n.val)) s (fun s d =>
          refuseTask (setFetched s q ((fetched s q).filter (fun e => e.seq != d.seq))) q d.seq d.words stStrandReleased)) = releasing s n := by
    refine each_id _ _ _ (fun q _ => ?_)
    dsimp only
    rw [fronts, if_neg (by decide), mine]
    rfl
  refine congrArg Host.Outcome.next ((if_neg idle).trans ((if_neg (by rw [live]; decide)).trans ?_))
  exact congrArg (fun u => settleRelease (each ((busySlots u).filter (fun k => (slotOf u k).strand == n)) u (fun s k => endTask s k stCancelled hstDie none true))) quiet

theorem releaseCancelled_idle (live : strandLive s n = true) (still : strandBusy s n = false) : releaseCancelled s n = releasing s n := by
  obtain ⟨x, hst⟩ := releasing_hst live
  refine cancelled_none _ _ (fun k hk => ?_)
  obtain ⟨_, mine⟩ := List.mem_filter.1 hk
  have same : slotOf (releasing s n) k = slotOf s k := by
    unfold slotOf
    rw [hst]
  rw [same] at mine ⊢
  by_contra busy
  have listed := slot_listed (Bool.not_eq_false _ ▸ busy : (slotOf s k).busy = true)
  unfold strandBusy at still
  have none_ := (Bool.or_eq_false_iff.1 still).1
  refine absurd (List.any_eq_false.1 none_ _ listed) (not_not.2 ?_)
  rw [Bool.and_eq_true]
  exact ⟨Bool.not_eq_false _ ▸ busy, mine⟩

theorem release_does (idle : s.hst.strandResult ≠ 1) (live : strandLive s n = true) (none_ : ∀ q, (fetched s q).all (fun d => tStrand d.words != n.val) = true) :
    ∃ t, exec (.strandRelease n) s = .next t ∧ (strandBusy s n = false → StrandGone t n) ∧
      (∀ k, (slotOf s k).busy = true → (slotOf s k).ending = false → (slotOf s k).written = false → (slotOf s k).strand = n.val →
        (slotOf t k).ending = true ∧ (slotOf t k).status = stCancelled) := by
  obtain ⟨x, hst⟩ := releasing_hst live
  refine ⟨_, release_runs idle live none_, fun still => ?_, fun k busy going open_ mine => ?_⟩
  · rw [releaseCancelled_idle live still]
    refine released_gone _ _ n ?_ (.inl ?_)
    · unfold strandBusy at *
      rw [hst]
      exact still
    · rw [hst]
      have found : tfind (tset s.hst.strands n { x with releasing := true }) n = some { x with releasing := true } := (tfind_tset ..).trans (if_pos rfl)
      exact List.mem_map.2 ⟨_, List.mem_filter.2 ⟨mem_of_tfind found, rfl⟩, rfl⟩
  · have same : slotOf (releasing s n) k = slotOf s k := by
      unfold slotOf
      rw [hst]
    have listed : k ∈ (busySlots (releasing s n)).filter (fun k => (slotOf (releasing s n) k).strand == n) := by
      refine List.mem_filter.2 ⟨List.mem_map.2 ⟨_, List.mem_filter.2 ⟨slot_listed (by rw [same]; exact busy), by rw [same]; exact busy⟩, rfl⟩, ?_⟩
      rw [same, mine]
      exact beq_self_eq_true _
    rw [settleRelease_slotOf]
    exact cancelled_ends _ _ k listed (by rw [same]; exact busy) (by rw [same]; exact going) (by rw [same]; exact open_)

end

/-- Settles O32: the gates of an action, the caches that an entry enters, and a release that ends in StrandGone. STRAND_INVALID for UPDATE, FLUSH and RELEASE of a strand that is not
live is log entry 55. -/
theorem strandControl : Obligations.StrandControl := by
  refine fun n s => ⟨strandCtl_busy, strandCtl_stranger, activate_early, activate_invalid, activate_does, fun idle live => ⟨update_does idle live, flush_does idle live, fun none_ => ?_⟩,
    miss_none, miss_does⟩
  obtain ⟨t, does, gone, cancelled⟩ := release_does idle live none_
  refine ⟨t, does, fun still => ?_, cancelled⟩
  obtain ⟨live, result, status, cached, linked, masks⟩ := gone still
  exact ⟨live, result, status, cached, linked, masks⟩

end Sys2Proof.Machine
end

section
/-! PROOF. Configuration epochs: arming, freezing and activation (19 R479 to R481). -/

namespace Sys2Proof.Machine

open Sys2Proof Sys2Proof.Safety

/-! Arming (R479). -/

section
variable {s : State}

theorem armEpoch_refused {t : Nat} (h : s.dict.armState = 2 ∨ objNat s 0x102002 ≠ s.dict.epoch + 1 ∨ t < now s + 1000000) : armEpoch s t = (stEpochInvalid, s) := if_pos h
theorem armEpoch_arms {t : Nat} (free : s.dict.armState ≠ 2) (next : objNat s 0x102002 = s.dict.epoch + 1) (later : now s + 1000000 ≤ t) :
    (armEpoch s t).2 = { s with dict := { s.dict with values := tset s.dict.values 0x102003 (leBytes 8 t), armState := 1 } } :=
  congrArg Prod.snd (if_neg (by omega))

/-- The number that an object of eight octets was given. -/
theorem objNat_stored (u : State) (t : Nat) (small : t < 2 ^ 64) (h : tfind u.dict.values 0x102003 = some (leBytes 8 t)) : objNat u 0x102003 = t := by
  unfold objNat objBytes
  rw [show aliasKey 0x102003 = 0x102003 from rfl, h]
  exact (leNat_leBytes 8 t).trans (Nat.mod_eq_of_lt small)

theorem epochArm_does (time : Word) (free : s.dict.armState ≠ 2) (next : objNat s 0x102002 = s.dict.epoch + 1) (later : now s + 1000000 ≤ time.toNat) :
    ∃ t, exec (.epochArm time) s = .next t ∧ OnlyParts [.dict] s t ∧ t.dict.armState = 1 ∧ objNat t 0x102003 = time.toNat := by
  refine ⟨_, congrArg Host.Outcome.next (armEpoch_arms free next later), fun r hr => ?_, rfl, objNat_stored _ _ time.isLt ?_⟩
  · cases r <;> first | (exfalso; simp at hr; done) | rfl
  · exact (tfind_tset ..).trans (if_pos rfl)

/-! Messages to every die (R474). -/

theorem toEveryDie_dict (s : State) (m : Msg) : (toEveryDie s m).dict = s.dict := (toEveryDie_within (M := 0x100000000) rfl s m .refl).same .dict rfl
theorem toEveryDie_sends (s : State) (m : Msg) (d : Nat) (h : d < 99) : ∃ x ∈ (toEveryDie s m).net.chain, x.src = mgtDie ∧ x.dst = d ∧ x.msg = m :=
  each_establishes (I := fun _ => True) (P := fun u => ∃ x ∈ u.net.chain, x.src = mgtDie ∧ x.dst = d ∧ x.msg = m) (List.mem_range.2 h)
    (fun _ _ h => h) (fun u _ => ⟨_, by rw [sendChain_chain]; exact List.mem_append_right _ (List.mem_singleton_self _), rfl, rfl, rfl⟩)
    (fun u y ⟨x, hx, rest⟩ => ⟨x, by rw [sendChain_chain]; exact List.mem_append_left _ hx, rest⟩) trivial

/-- What was on the chain stays while more is sent. -/
theorem chainGrows_keeps {s t : State} {src d : Nat} {m : Msg} (g : ChainGrows s t) (h : ∃ x ∈ s.net.chain, x.src = src ∧ x.dst = d ∧ x.msg = m) :
    ∃ x ∈ t.net.chain, x.src = src ∧ x.dst = d ∧ x.msg = m := by
  obtain ⟨x, hx, rest⟩ := h
  exact ⟨x, g.subset hx, rest⟩

/-! Freezing (R480). -/

/-- The state whose staging set is frozen. -/
def frozenSet (s : State) : State := { s with dict := { s.dict with frozen := s.dict.staged, staged := [] } }

theorem epochFreeze_waits (h : ¬(s.dict.armState = 1 ∧ objNat s 0x102003 ≤ now s + 100000)) : exec .epochFreeze s = .next s := congrArg Host.Outcome.next (if_neg h)

theorem epochFreeze_due (armed : s.dict.armState = 1) (due : objNat s 0x102003 ≤ now s + 100000) : exec .epochFreeze s = .next (match epochFails (frozenSet s) with
    | [] => toEveryDie { frozenSet s with dict := { (frozenSet s).dict with armState := 2 } } (.config 6 0 0 0 ((s.dict.epoch + 1) % 2 ^ 32))
    | k :: _ => refuseEpoch (frozenSet s) k) := congrArg Host.Outcome.next (if_pos ⟨armed, due⟩)

theorem epochFreeze_sound (armed : s.dict.armState = 1) (due : objNat s 0x102003 ≤ now s + 100000) (sound : epochFails (frozenSet s) = []) :
    ∃ t, exec .epochFreeze s = .next t ∧ OnlyParts [.dict, .net] s t ∧ t.dict = { s.dict with frozen := s.dict.staged, staged := [], armState := 2 } ∧
      ∀ d, d < 99 → ∃ m ∈ t.net.chain, m.src = mgtDie ∧ m.dst = d ∧ m.msg = .config 6 0 0 0 ((s.dict.epoch + 1) % 2 ^ 32) := by
  have does := epochFreeze_due armed due
  rw [sound] at does
  have set_ : OnlyParts [.dict] s { frozenSet s with dict := { (frozenSet s).dict with armState := 2 } } := fun r hr => by cases r <;> first | (exfalso; simp at hr; done) | rfl
  exact ⟨_, does, OnlyParts.trans set_ (Within.onlyParts (l := [.net]) (back := false) (toEveryDie_within rfl _ _ .refl)) (by decide) (by decide), toEveryDie_dict _ _,
    fun d hd => toEveryDie_sends _ _ d hd⟩

theorem epochFreeze_refused (armed : s.dict.armState = 1) (due : objNat s 0x102003 ≤ now s + 100000) {k : Nat} {rest : List Nat} (fails : epochFails (frozenSet s) = k :: rest) :
    ∃ t, exec .epochFreeze s = .next t ∧ t.dict.armState = 0 ∧ t.dict.epoch = s.dict.epoch ∧ t.dict.values = s.dict.values ∧ t.dict.staged = s.dict.staged ∧
      LoggedEvent s t 0xB02 2 [k / 256, k % 256] := by
  have does := epochFreeze_due armed due
  rw [fails] at does
  have logs {β : Type} (g : Dict → β) := mgtEvent_log g { frozenSet s with dict := { (frozenSet s).dict with armState := 0, staged := s.dict.staged, frozen := [] } } 0xB02 2 [k / 256, k % 256]
  exact ⟨_, does, logs (·.armState) (fun _ _ => rfl) (fun _ _ => rfl) (fun _ _ _ _ => rfl), logs (·.epoch) (fun _ _ => rfl) (fun _ _ => rfl) (fun _ _ _ _ => rfl),
    logs (·.values) (fun _ _ => rfl) (fun _ _ => rfl) (fun _ _ _ _ => rfl), logs (·.staged) (fun _ _ => rfl) (fun _ _ => rfl) (fun _ _ _ _ => rfl), mgtEvent_loggedFrom _ _ _ rfl rfl⟩

/-! Activation (R481). -/

theorem lnkDie_ne_mgt {p : Nat} (h : p < 16) : lnkDie p ≠ mgtDie := by
  unfold lnkDie mgtDie
  omega

/-- Where a port stands toward its peer, told over the chain, changes nothing of the dictionary (15 R391). -/
theorem judgePort_dict (s : State) {p : Nat} (h : p < 16) : (judgePort s p).dict = s.dict := by
  unfold judgePort
  dsimp only
  split
  · rfl
  · unfold raise
    dsimp only
    rw [if_neg (lnkDie_ne_mgt h)]
    rfl
theorem judgePort_grows (s : State) (p : Nat) : ChainGrows s (judgePort s p) := ChainGrows.ite (fun _ => .refl s) (fun _ => (raise_grows ..).after rfl)

theorem portEpoch_dict (s : State) {p : Nat} (h : p < 16) : (portEpoch s p).dict = s.dict := judgePort_dict _ h
theorem portEpoch_grows (s : State) (p : Nat) : ChainGrows s (portEpoch s p) := by
  have digest (u : State) : ChainGrows u (sendDigest u p) := .of_net rfl
  exact ((judgePort_grows _ p).trans (digest _)).after rfl

theorem sendHeartbeat_keeps {β : Type} (g : Dict → β) (s : State) (h : ∀ d x y, g { d with heartbeats := x, tdpSeq := y } = g d) : g (sendHeartbeat s).dict = g s.dict := by
  unfold sendHeartbeat
  split
  · rfl
  · exact h ..
theorem sendHeartbeat_counts (s : State) (h : s.power.stage ≠ 15) : (sendHeartbeat s).dict.heartbeats = s.dict.heartbeats + 1 := by
  unfold sendHeartbeat
  rw [if_neg h]
  rfl

/-- The state in which the frozen values are in force. -/
def inForce (s : State) : State := { s with dict := { s.dict with
  values := s.dict.frozen.foldl (fun t p => tset t p.1 p.2) s.dict.values, frozen := [], epoch := (s.dict.epoch + 1) % 2 ^ 32, armState := 0, activated := now s } }
/-- The new epoch told to every die, logged, and brought before each port that is UP. -/
def epochTold (s : State) : State :=
  let u := mgtEvent (toEveryDie (inForce s) (.config 5 0 0 0 ((s.dict.epoch + 1) % 2 ^ 32))) 0xB01 1 [(s.dict.epoch + 1) % 2 ^ 32]
  each ((List.range 16).filter (fun p => (port u p).state == 3)) u portEpoch

theorem epochActivation_waits (h : ¬(s.dict.armState = 2 ∧ objNat s 0x102003 ≤ now s)) : exec .epochActivation s = .next s := congrArg Host.Outcome.next (if_neg h)
theorem epochActivation_due (frozen : s.dict.armState = 2) (due : objNat s 0x102003 ≤ now s) : exec .epochActivation s = .next (sendHeartbeat (epochTold s)) := by
  have sent := toEveryDie_dict (inForce s) (.config 5 0 0 0 ((s.dict.epoch + 1) % 2 ^ 32))
  refine congrArg Host.Outcome.next ((if_pos ⟨frozen, due⟩).trans ?_)
  show sendHeartbeat (each _ (mgtEvent (toEveryDie (inForce s) (.config 5 0 0 0 ((s.dict.epoch + 1) % 2 ^ 32))) 0xB01 1
    [(toEveryDie (inForce s) (.config 5 0 0 0 ((s.dict.epoch + 1) % 2 ^ 32))).dict.epoch]) portEpoch) = _
  rw [sent]
  rfl

theorem epochTold_dict (s : State) : (epochTold s).dict = (mgtEvent (toEveryDie (inForce s) (.config 5 0 0 0 ((s.dict.epoch + 1) % 2 ^ 32))) 0xB01 1 [(s.dict.epoch + 1) % 2 ^ 32]).dict :=
  each_keeps (·.dict) _ _ _ (fun u _ hp => portEpoch_dict u (List.mem_range.1 (List.mem_filter.1 hp).1))
theorem epochTold_keeps {β : Type} (g : Dict → β) (s : State) (h1 : ∀ d x, g { d with lastEventMsix := x } = g d) (h2 : ∀ d x, g { d with tdpSeq := x } = g d)
    (h3 : ∀ d x y z, g { d with eventSeq := x, overwritten := y, events := z } = g d) : g (epochTold s).dict = g (inForce s).dict := by
  rw [epochTold_dict, mgtEvent_log g _ _ _ _ h1 h2 h3, toEveryDie_dict]
theorem epochTold_power (s : State) : (epochTold s).power = s.power := by
  have kept : Within 0x391000881 (inForce s) (epochTold s) :=
    each_within (fun u p h => portEpoch_within rfl u p h) (mgtEvent_within rfl _ _ _ _ (toEveryDie_within rfl _ _ .refl))
  exact kept.same .power rfl
theorem epochTold_logs (s : State) : LoggedEvent s (epochTold s) 0xB01 1 [(s.dict.epoch + 1) % 2 ^ 32] := by
  have clock : (toEveryDie (inForce s) (.config 5 0 0 0 ((s.dict.epoch + 1) % 2 ^ 32))).clock = s.clock := (toEveryDie_within (M := 0x100000000) rfl (inForce s) _ .refl).same .clock rfl
  refine logged_congr (mgtEvent_loggedFrom 0xB01 1 _ ?_ ?_) (epochTold_dict s)
  · rw [toEveryDie_dict]
    rfl
  · unfold now
    rw [clock]
theorem epochTold_sends (s : State) (d : Nat) (h : d < 99) : ∃ x ∈ (epochTold s).net.chain, x.src = mgtDie ∧ x.dst = d ∧ x.msg = .config 5 0 0 0 ((s.dict.epoch + 1) % 2 ^ 32) :=
  chainGrows_keeps ((raise_grows ..).trans (ChainGrows.each _ _ _ (fun u p _ => portEpoch_grows u p))) (toEveryDie_sends (inForce s) _ d h)

/-- An event logged before a heartbeat leaves is the latest after it. -/
theorem logged_heartbeat {u : State} {code severity : Nat} {args : List Nat} (h : LoggedEvent s u code severity args) : LoggedEvent s (sendHeartbeat u) code severity args := by
  obtain ⟨count, e, last, rest⟩ := h
  have seq := sendHeartbeat_keeps (·.eventSeq) u (fun _ _ _ => rfl)
  have events := sendHeartbeat_keeps (·.events) u (fun _ _ _ => rfl)
  refine ⟨seq.trans count, e, ?_, rest⟩
  unfold latestEvent at last ⊢
  rw [seq, events]
  exact last

theorem epochActivation_does (frozen : s.dict.armState = 2) (due : objNat s 0x102003 ≤ now s) : ∃ t, exec .epochActivation s = .next t ∧ t.dict.epoch = (s.dict.epoch + 1) % 2 ^ 32 ∧
    t.dict.armState = 0 ∧ t.dict.activated = now s ∧ t.dict.values = s.dict.frozen.foldl (fun v p => tset v p.1 p.2) s.dict.values ∧
    LoggedEvent s t 0xB01 1 [(s.dict.epoch + 1) % 2 ^ 32] ∧ (s.power.stage ≠ 15 → t.dict.heartbeats = s.dict.heartbeats + 1) ∧
    (∀ d, d < 99 → ∃ m ∈ t.net.chain, m.src = mgtDie ∧ m.dst = d ∧ m.msg = .config 5 0 0 0 ((s.dict.epoch + 1) % 2 ^ 32)) := by
  have kept {β : Type} (g : Dict → β) (h : ∀ d x y, g { d with heartbeats := x, tdpSeq := y } = g d) (h1 : ∀ d x, g { d with lastEventMsix := x } = g d)
      (h2 : ∀ d x, g { d with tdpSeq := x } = g d) (h3 : ∀ d x y z, g { d with eventSeq := x, overwritten := y, events := z } = g d) :
      g (sendHeartbeat (epochTold s)).dict = g (inForce s).dict := (sendHeartbeat_keeps g _ h).trans (epochTold_keeps g s h1 h2 h3)
  refine ⟨_, epochActivation_due frozen due, kept (·.epoch) ?_ ?_ ?_ ?_, kept (·.armState) ?_ ?_ ?_ ?_, kept (·.activated) ?_ ?_ ?_ ?_, kept (·.values) ?_ ?_ ?_ ?_,
    logged_heartbeat (epochTold_logs s), fun on => ?_, fun d hd => ?_⟩
  case refine_17 =>
    rw [sendHeartbeat_counts _ (by rw [epochTold_power]; exact on)]
    exact congrArg (· + 1) (epochTold_keeps (·.heartbeats) s (fun _ _ => rfl) (fun _ _ => rfl) (fun _ _ _ _ => rfl))
  case refine_18 => exact chainGrows_keeps (.of_net ((sendHeartbeat_parts _) .net (by decide))) (epochTold_sends s d hd)
  all_goals intros; rfl

end

/-- Settles O39: a refusal leaves the state as it is. A freeze takes the staging set, and FREEZE goes to every other die where no constraint of R486 fails; where one
does, the set returns. An activation puts the frozen values in force before every die, the log and the segment hear of the new EPOCH. Which object the event of a refused
freeze names first, and its arguments, are the model's choice (log entry 58). -/
theorem configurationEpochs : Obligations.ConfigurationEpochs := by
  refine ⟨fun time s => ⟨fun h => ?_, epochArm_does time⟩, fun s => ⟨fun h => ?_, fun h => ?_⟩,
    fun s => ⟨epochFreeze_waits, fun armed due => ⟨epochFreeze_sound armed due, fun k rest => epochFreeze_refused armed due⟩⟩, fun s => ⟨epochActivation_waits, epochActivation_does⟩⟩
  · have refused := armEpoch_refused h
    exact ⟨congrArg Host.Outcome.next (congrArg Prod.snd refused), congrArg Prod.fst refused⟩
  · have refused : disarmEpoch s true = (stEpochInvalid, s) := if_pos h
    exact ⟨congrArg Host.Outcome.next (congrArg Prod.snd refused), congrArg Prod.fst refused⟩
  · exact congrArg Host.Outcome.next (congrArg Prod.snd (show disarmEpoch s true = _ from if_neg h))

end Sys2Proof.Machine
end

section
/-! SUPPORT. What a request of the dictionary is answered with, case by case (19 R463 to R468, R540). -/

namespace Sys2Proof.Machine

open Sys2Proof Sys2Proof.Safety

/-! A path that answers (R468). -/

theorem dictRequest_off {s : State} {path : DictPath} {r : DictReq} (h : pathUp s path = false) : dictRequest s path r = s := if_pos (by rw [h]; rfl)

/-- The reply carries what the request was answered with. -/
theorem dictRequest_answers {s t : State} {path : DictPath} {r : DictReq} {status type : Nat} {data : List Byte} (up : pathUp s path = true)
    (h : dictApply s (pathNo path) r = (⟨status, r.index, r.sub, type, data⟩, t)) : dictRequest s path r = replies t path r status type data := by
  unfold dictRequest
  rw [h, if_neg (by rw [up]; decide)]
  rfl

section
variable {s : State} {p : Nat} {r : DictReq} {o : Obj}

theorem dictApply_invalid (h : r.op = 0 ∨ 5 < r.op ∨ 1024 < r.len) : dictApply s p r = (⟨stDescriptorInvalid, r.index, r.sub, 0, []⟩, s) := if_pos h

theorem dictApply_unknown (op : 1 ≤ r.op ∧ r.op ≤ 4) (len : r.len ≤ 1024) (h : dictObj (r.index * 256 + r.sub) = none) :
    dictApply s p r = (⟨stObjectUnknown, r.index, r.sub, 0, []⟩, s) := by
  unfold dictApply
  rw [if_neg (by omega), if_neg (by omega), h]

theorem dictApply_object (op : 1 ≤ r.op ∧ r.op ≤ 4) (len : r.len ≤ 1024) (h : dictObj (r.index * 256 + r.sub) = some o) : dictApply s p r = onObject s p r o := by
  unfold dictApply
  rw [if_neg (by omega), if_neg (by omega), h]

theorem dictApply_next (op : r.op = 5) (len : r.len ≤ 1024) : dictApply s p r = onNext s r := by
  unfold dictApply
  rw [if_neg (by omega), if_pos op]

/-! A request that names an object (R463, R467). -/

/-- What a read shows: of a staged object the staged value where it is asked for (R463). -/
theorem readObj_value {staged : Bool} (plain : o.key ≠ 0x803001) :
    readObj s o staged = (if staged = true ∧ o.access = .rws then stagedBytes s o.key else dictValue s o, s) := by
  unfold readObj
  rw [if_neg plain]
  by_cases asked : staged = true ∧ o.access = .rws
  · rw [if_pos asked, if_pos (by simp [asked])]
  · rw [if_neg asked, if_neg (by simpa using asked)]

/-- Whether a request is one of segments. -/
def segmented (r : DictReq) : Bool := r.op == 3 || r.op == 4

theorem segmented_ne : (isLarge o != (r.op == 3 || r.op == 4)) = true ↔ isLarge o ≠ segmented r := bne_iff_ne
theorem segmented_eq (sized : isLarge o = segmented r) : ¬ (isLarge o != (r.op == 3 || r.op == 4)) = true := fun h => segmented_ne.1 h sized

theorem onObject_mismatch (h : (r.type ≠ 0 ∧ r.type ≠ o.type) ∨ isLarge o ≠ segmented r) : onObject s p r o = (⟨stTypeMismatch, r.index, r.sub, o.type, []⟩, s) := by
  unfold onObject
  dsimp only
  by_cases typed : r.type ≠ 0 ∧ r.type ≠ o.type
  · rw [if_pos typed]
  · rw [if_neg typed, if_pos (segmented_ne.2 (h.resolve_left typed))]

variable (typed : r.type = 0 ∨ r.type = o.type) (sized : isLarge o = segmented r)

include typed sized

theorem onObject_beyond (seg : r.op = 3 ∨ r.op = 4) (past : o.size ≤ r.off) : onObject s p r o = (⟨stValueOutOfRange, r.index, r.sub, o.type, []⟩, s) := by
  unfold onObject
  dsimp only
  rw [if_neg (by omega), if_neg (segmented_eq sized), if_pos ⟨seg, past⟩]

variable (within_ : (r.op = 3 ∨ r.op = 4) → r.off < o.size)

include within_

theorem onObject_noRead (op : r.op = 1 ∨ r.op = 3) (access : o.access = .wo) : onObject s p r o = (⟨stAccessDenied, r.index, r.sub, o.type, []⟩, s) := by
  unfold onObject
  dsimp only
  rw [if_neg (by omega), if_neg (segmented_eq sized), if_neg (by omega), if_pos op, if_pos access]

theorem onObject_reads (op : r.op = 1 ∨ r.op = 3) (access : o.access ≠ .wo) (plain : o.key ≠ 0x803001) :
    onObject s p r o = (⟨0, r.index, r.sub, o.type, let v := if r.staged = true ∧ o.access = .rws then stagedBytes s o.key else dictValue s o
      if r.op = 1 then v else (v.drop r.off).take 1024⟩, s) := by
  unfold onObject
  dsimp only
  rw [if_neg (by omega), if_neg (segmented_eq sized), if_neg (by omega), if_pos op, if_neg access, readObj_value plain]

theorem onObject_writes (op : r.op = 2) : onObject s p r o = (⟨(writeObj s o r.data).1, r.index, r.sub, o.type, []⟩, (writeObj s o r.data).2) := by
  unfold onObject
  dsimp only
  rw [if_neg (by omega), if_neg (segmented_eq sized), if_neg (by omega), if_neg (by omega), if_pos op]

theorem onObject_segDenied (op : r.op = 4) (denied : writeDenied s o ≠ 0) : onObject s p r o = (⟨writeDenied s o, r.index, r.sub, o.type, []⟩, s) := by
  unfold onObject
  dsimp only
  rw [if_neg (by omega), if_neg (segmented_eq sized), if_neg (by omega), if_neg (by omega), if_neg (by omega), if_pos denied]

theorem onObject_segWrites (op : r.op = 4) (granted : writeDenied s o = 0) (other : o.key ≠ 0x801001) :
    onObject s p r o = (⟨(writeSegment s p o r.off r.data).1, r.index, r.sub, o.type, []⟩, (writeSegment s p o r.off r.data).2) := by
  unfold onObject
  dsimp only
  rw [if_neg (by omega), if_neg (segmented_eq sized), if_neg (by omega), if_neg (by omega), if_neg (by omega),
    if_neg (by simp [granted]), if_neg other]

end

/-! A whole value (R463). -/

section
variable {s : State} {o : Obj} {v : List Byte}

theorem writeObj_denied (h : writeDenied s o ≠ 0) : writeObj s o v = (writeDenied s o, s) := if_pos h
theorem writeObj_unfit (granted : writeDenied s o = 0) (unfit : valueFits o v = false) : writeObj s o v = (stTypeMismatch, s) := by simp [writeObj, granted, unfit]
theorem writeObj_stages (granted : writeDenied s o = 0) (fits : valueFits o v = true) (range : rangeOk o.key (leNat v) = true) (access : o.access = .rws) :
    writeObj s o v = (0, { s with dict := { s.dict with staged := tset s.dict.staged (aliasKey o.key) v } }) := by simp [writeObj, granted, fits, range, access]
theorem writeObj_effects (granted : writeDenied s o = 0) (fits : valueFits o v = true) (range : rangeOk o.key (leNat v) = true) (access : o.access ≠ .rws) :
    writeObj s o v = writeEffect s o.key v := by simp [writeObj, granted, fits, range, access]

theorem writeDenied_ro (h : o.access = .ro) : writeDenied s o = stAccessDenied := if_pos h
theorem writeDenied_rwl (h : o.access = .rwl) : writeDenied s o = if s.sec.unlockLevel = 0 then stLocked else 0 := by simp [writeDenied, h]
theorem writeDenied_else (h1 : o.access ≠ .ro) (h2 : o.access ≠ .rwl) : writeDenied s o = 0 := by simp [writeDenied, h1, h2]

end

/-! NEXT (R540). -/

section
variable {s : State} {r : DictReq} {o : Obj} {k : Nat}

theorem onNext_none (h : nextKey (r.index * 256 + r.sub) = none) : onNext s r = (⟨stObjectUnknown, r.index, r.sub, 0, []⟩, s) := by
  unfold onNext
  rw [h]

theorem onNext_noRead (h : nextKey (r.index * 256 + r.sub) = some k) (named : dictObj k = some o) (access : o.access = .wo) :
    onNext s r = (⟨0, k / 256, k % 256, o.type, []⟩, s) := by
  unfold onNext
  rw [h]
  dsimp only
  rw [named]
  exact if_pos access

theorem onNext_reads (h : nextKey (r.index * 256 + r.sub) = some k) (named : dictObj k = some o) (access : o.access ≠ .wo) (plain : o.key ≠ 0x803001) :
    onNext s r = (⟨0, k / 256, k % 256, o.type, (if r.staged = true ∧ o.access = .rws then stagedBytes s o.key else dictValue s o).take 1024⟩, s) := by
  unfold onNext
  rw [h]
  dsimp only
  rw [named]
  dsimp only
  rw [if_neg access, readObj_value plain]

end

/-! The objects that exist (R461). -/

theorem objects_notLocked : objects.all (fun o => o.access != .rwl) = true := by decide +kernel

theorem findObj_isSome {key : Nat} : (∃ o, findObj key = some o) ↔ ∃ o ∈ objects, o.key = key := by
  unfold findObj
  rw [← Option.isSome_iff_exists, List.find?_isSome]
  simp

theorem highestSub_isSome {i : Nat} : (highestSub i).isSome = true ↔ ∃ o ∈ objects, o.key / 256 = i := by
  have kept (l : List Obj) (m : Option Nat) (h : m.isSome = true) : (l.foldl (fun m o => some (max (m.getD 0) (o.key % 256))) m).isSome = true := by
    induction l generalizing m with
    | nil => exact h
    | cons o l ih => exact ih _ rfl
  have found (l : List Obj) : (l.foldl (fun m o => some (max (m.getD 0) (o.key % 256))) none).isSome = true ↔ l ≠ [] := by
    cases l with
    | nil => simp
    | cons o l => exact ⟨fun _ => by simp, fun _ => kept l _ rfl⟩
  unfold highestSub
  rw [found, ← List.isEmpty_eq_false_iff, List.isEmpty_eq_false_iff_exists_mem]
  simp

/-- The keys of the objects, subindex 0 included. -/
def objectKeys : List Nat := objects.flatMap (fun o => [o.key / 256 * 256, o.key])

theorem dictObj_listed (k : Nat) : dictObj k ≠ none ↔ k ∈ objectKeys := by
  unfold dictObj objectKeys
  simp only [List.mem_flatMap, List.mem_cons, List.not_mem_nil, or_false, ne_eq]
  by_cases base : k % 256 = 0
  · rw [if_pos base, Option.map_eq_none_iff, ← ne_eq, ← Option.isSome_iff_ne_none, highestSub_isSome]
    constructor
    · rintro ⟨o, ho, h⟩
      exact ⟨o, ho, .inl (by omega)⟩
    · rintro ⟨o, ho, h⟩
      exact ⟨o, ho, by omega⟩
  · rw [if_neg base, ← ne_eq, ← Option.isSome_iff_ne_none, Option.isSome_iff_exists, findObj_isSome]
    constructor
    · rintro ⟨o, ho, rfl⟩
      exact ⟨o, ho, .inr rfl⟩
    · rintro ⟨o, ho, h⟩
      exact ⟨o, ho, by omega⟩

theorem dictObj_notLocked {key : Nat} {o : Obj} (h : dictObj key = some o) : o.access ≠ .rwl := by
  unfold dictObj at h
  split at h
  · obtain ⟨n, -, rfl⟩ := Option.map_eq_some_iff.1 h
    exact Access.noConfusion
  · exact bne_iff_ne.1 (List.all_eq_true.1 objects_notLocked o (List.mem_of_find?_eq_some h))

/-- The lesser of a candidate and a value above a bound. -/
def leastAbove (k : Nat) (m : Option Nat) (x : Nat) : Option Nat :=
  if x ≤ k then m else match m with
    | some y => some (min x y)
    | none => some x

/-- The fold of NEXT finds the least element above a bound. -/
theorem foldl_leastAbove (k : Nat) (l : List Nat) (m : Option Nat) :
    (l.foldl (leastAbove k) m = none ↔ m = none ∧ ∀ j ∈ l, j ≤ k) ∧
    (∀ x, l.foldl (leastAbove k) m = some x → (x ∈ l ∧ k < x ∨ m = some x) ∧ (∀ j ∈ l, k < j → x ≤ j) ∧ ∀ y, m = some y → x ≤ y) := by
  induction l generalizing m with
  | nil => exact ⟨by simp, fun x hx => ⟨.inr hx, by simp, fun y hy => by rw [Option.some.inj (hx.symm.trans hy)]⟩⟩
  | cons a l ih =>
    obtain ⟨empty, least⟩ := ih (leastAbove k m a)
    rw [List.foldl_cons]
    by_cases low : a ≤ k
    · have same : leastAbove k m a = m := if_pos low
      rw [same] at empty least ⊢
      refine ⟨by rw [empty]; simp [low], fun x hx => ?_⟩
      obtain ⟨from_, below, cap⟩ := least x hx
      refine ⟨from_.imp_left (fun h => ⟨List.mem_cons_of_mem _ h.1, h.2⟩), fun j hj above => ?_, cap⟩
      rcases List.mem_cons.1 hj with rfl | hj
      · omega
      · exact below j hj above
    · obtain ⟨y, hy, ya, ym, of_⟩ : ∃ y, leastAbove k m a = some y ∧ y ≤ a ∧ (∀ z, m = some z → y ≤ z) ∧ (y = a ∨ m = some y) := by
        unfold leastAbove
        rw [if_neg low]
        cases m with
        | none => exact ⟨a, rfl, le_refl a, fun _ h => absurd h (by simp), .inl rfl⟩
        | some z =>
          refine ⟨min a z, rfl, min_le_left .., fun w hw => ?_, ?_⟩
          · obtain rfl := Option.some.inj hw
            exact min_le_right ..
          · rcases min_choice a z with h | h <;> simp [h]
      rw [hy] at empty least ⊢
      refine ⟨by rw [empty]; simp [low], fun x hx => ?_⟩
      obtain ⟨from_, below, cap⟩ := least x hx
      have small := cap y rfl
      refine ⟨?_, fun j hj above => ?_, fun z hz => small.trans (ym z hz)⟩
      · rcases from_ with h | h
        · exact .inl ⟨List.mem_cons_of_mem _ h.1, h.2⟩
        · obtain rfl := Option.some.inj h
          rcases of_ with rfl | h
          · exact .inl ⟨List.mem_cons_self .., Nat.lt_of_not_le low⟩
          · exact .inr h
      · rcases List.mem_cons.1 hj with rfl | hj
        · exact small.trans ya
        · exact below j hj above

theorem nextKey_eq (n : Nat) : nextKey n = objectKeys.foldl (leastAbove n) none := rfl

theorem nextKey_least (n : Nat) : (nextKey n = none → ∀ j, n < j → dictObj j = none) ∧
    ∀ k, nextKey n = some k → n < k ∧ dictObj k ≠ none ∧ ∀ j, n < j → dictObj j ≠ none → k ≤ j := by
  obtain ⟨empty, least⟩ := foldl_leastAbove n objectKeys none
  rw [nextKey_eq]
  refine ⟨fun h j above => ?_, fun k h => ?_⟩
  · by_contra there
    exact absurd ((empty.1 h).2 j ((dictObj_listed j).1 there)) (by omega)
  · obtain ⟨from_, below, -⟩ := least k h
    obtain ⟨listed, above⟩ := from_.resolve_right (by simp)
    exact ⟨above, (dictObj_listed k).2 listed, fun j hj there => below j ((dictObj_listed j).1 there) hj⟩

end Sys2Proof.Machine
end

section
/-! PROOF. READ, WRITE and NEXT of the dictionary (19 R463, R467, R540). -/

namespace Sys2Proof.Machine

open Sys2Proof Sys2Proof.Safety

section
variable {path : DictPath} {index : BitVec 16} {sub type : Byte} {staged : Bool} {v : List Byte} {s : State} {o : Obj}

/-! The requests that the commands stand for. -/

def readReq (index : BitVec 16) (sub type : Byte) (staged : Bool) : DictReq := ⟨1, staged, type.toNat, index.toNat, sub.toNat, 0, 0, 0, [], []⟩
def writeReq (index : BitVec 16) (sub type : Byte) (v : List Byte) : DictReq := ⟨2, false, type.toNat, index.toNat, sub.toNat, v.length, 0, 0, v, []⟩
def nextReq (index : BitVec 16) (sub : Byte) (staged : Bool) : DictReq := ⟨5, staged, 0, index.toNat, sub.toNat, 0, 0, 0, [], []⟩

theorem readReq_unknown (p : Nat) (h : dictObj (index.toNat * 256 + sub.toNat) = none) :
    dictApply s p (readReq index sub type staged) = (⟨stObjectUnknown, index.toNat, sub.toNat, 0, []⟩, s) :=
  dictApply_unknown (by simp [readReq]) (by simp [readReq]) (by simpa only [readReq] using h)
theorem readReq_object (p : Nat) (h : dictObj (index.toNat * 256 + sub.toNat) = some o) :
    dictApply s p (readReq index sub type staged) = onObject s p (readReq index sub type staged) o :=
  dictApply_object (by simp [readReq]) (by simp [readReq]) (by simpa only [readReq] using h)
theorem writeReq_unknown (p : Nat) (short : v.length ≤ 1024) (h : dictObj (index.toNat * 256 + sub.toNat) = none) :
    dictApply s p (writeReq index sub type v) = (⟨stObjectUnknown, index.toNat, sub.toNat, 0, []⟩, s) :=
  dictApply_unknown (by simp [writeReq]) (by simpa only [writeReq] using short) (by simpa only [writeReq] using h)
theorem writeReq_object (p : Nat) (short : v.length ≤ 1024) (h : dictObj (index.toNat * 256 + sub.toNat) = some o) :
    dictApply s p (writeReq index sub type v) = onObject s p (writeReq index sub type v) o :=
  dictApply_object (by simp [writeReq]) (by simpa only [writeReq] using short) (by simpa only [writeReq] using h)

/-! Each request's answers. -/

variable (up : pathUp s path = true)

include up

theorem read_unknown (h : dictObj (index.toNat * 256 + sub.toNat) = none) :
    exec (.read path index sub type staged) s = .next (replies s path (readReq index sub type staged) stObjectUnknown 0 []) :=
  congrArg Host.Outcome.next (dictRequest_answers up (readReq_unknown _ h))

/-- What a WRITE makes of an object's value is its answer. -/
theorem write_answers {a : Nat × State} (short : v.length ≤ 1024) (named : dictObj (index.toNat * 256 + sub.toNat) = some o)
    (typed : type.toNat = 0 ∨ type.toNat = o.type) (small : isLarge o = false) (h : writeObj s o v = a) :
    exec (.write path index sub type v) s = .next (replies a.2 path (writeReq index sub type v) a.1 o.type []) := by
  refine congrArg Host.Outcome.next (dictRequest_answers up ((writeReq_object _ short named).trans ?_))
  rw [onObject_writes typed (small.trans rfl) (by simp [writeReq]) rfl]
  show (DictAns.mk (writeObj s o v).1 _ _ _ _, (writeObj s o v).2) = _
  rw [h]
  rfl

variable (named : dictObj (index.toNat * 256 + sub.toNat) = some o)

include named

theorem read_mismatch (h : (type.toNat ≠ 0 ∧ type.toNat ≠ o.type) ∨ isLarge o = true) :
    exec (.read path index sub type staged) s = .next (replies s path (readReq index sub type staged) stTypeMismatch o.type []) :=
  congrArg Host.Outcome.next (dictRequest_answers up ((readReq_object _ named).trans
    (onObject_mismatch (h.imp id (fun large => by rw [large]; exact Bool.noConfusion)))))

theorem write_mismatch (short : v.length ≤ 1024) (h : (type.toNat ≠ 0 ∧ type.toNat ≠ o.type) ∨ isLarge o = true) :
    exec (.write path index sub type v) s = .next (replies s path (writeReq index sub type v) stTypeMismatch o.type []) :=
  congrArg Host.Outcome.next (dictRequest_answers up ((writeReq_object _ short named).trans
    (onObject_mismatch (h.imp id (fun large => by rw [large]; exact Bool.noConfusion)))))

variable (typed : type.toNat = 0 ∨ type.toNat = o.type) (small : isLarge o = false)

include typed small

theorem read_denied (access : o.access = .wo) :
    exec (.read path index sub type staged) s = .next (replies s path (readReq index sub type staged) stAccessDenied o.type []) :=
  congrArg Host.Outcome.next (dictRequest_answers up ((readReq_object _ named).trans
    (onObject_noRead typed (small.trans rfl) (by simp [readReq]) (.inl rfl) access)))

theorem read_returns (access : o.access ≠ .wo) (plain : o.key ≠ 0x803001) : exec (.read path index sub type staged) s =
    .next (replies s path (readReq index sub type staged) 0 o.type (if staged = true ∧ o.access = .rws then stagedBytes s o.key else dictValue s o)) :=
  congrArg Host.Outcome.next (dictRequest_answers up ((readReq_object _ named).trans
    (onObject_reads typed (small.trans rfl) (by simp [readReq]) (.inl rfl) access plain)))

end

/-- NEXT answers with the next object, named in the reply in the request's place. -/
theorem next_answers {path : DictPath} {index : BitVec 16} {sub : Byte} {staged : Bool} {s : State} {status i j type : Nat} {data : List Byte} (up : pathUp s path = true)
    (h : onNext s (nextReq index sub staged) = (⟨status, i, j, type, data⟩, s)) :
    exec (.next path index sub staged) s = .next (replies s path { nextReq index sub staged with index := i, sub := j } status type data) := by
  have applied : dictApply s (pathNo path) (nextReq index sub staged) = (⟨status, i, j, type, data⟩, s) := (dictApply_next rfl (Nat.zero_le _)).trans h
  refine congrArg Host.Outcome.next ?_
  show dictRequest s path (nextReq index sub staged) = _
  unfold dictRequest
  rw [applied, if_neg (by rw [up]; decide)]
  rfl

/-- Settles O35: a path that answers refuses a request by its form, its object, its TYPE and its access right, in this order; the order is the model's choice (log entry
58). A read or a write that none of these refuses is answered with the value, or with what the write of it comes to. -/
theorem dictionaryReadsWrites : Obligations.DictionaryReadsWrites := by
  refine ⟨fun path index sub type staged v s => ⟨fun off => ?_, fun up long => ?_, fun up none_ => ⟨read_unknown up none_, fun short => ?_⟩,
    fun o up named h => ⟨read_mismatch up named h, fun short => write_mismatch up named short h⟩,
    fun o up named typed small => ⟨read_denied up named typed small, read_returns up named typed small, fun short => ⟨fun ro => ?_, fun other => ?_⟩⟩,
    fun up => ⟨fun last => next_answers up (onNext_none last), fun k o next named => ⟨fun wo => next_answers up (onNext_noRead next named wo),
      fun readable plain => next_answers up (onNext_reads next named readable plain)⟩⟩⟩, nextKey_least, fun key => ?_, fun o s => writeDenied_rwl⟩
  · exact ⟨congrArg Host.Outcome.next (dictRequest_off off), congrArg Host.Outcome.next (dictRequest_off off), congrArg Host.Outcome.next (dictRequest_off off)⟩
  · exact congrArg Host.Outcome.next (dictRequest_answers up (dictApply_invalid (.inr (.inr long))))
  · exact congrArg Host.Outcome.next (dictRequest_answers up (writeReq_unknown _ short none_))
  · have denied : writeDenied s o = stAccessDenied := writeDenied_ro ro
    exact write_answers up short named typed small ((writeObj_denied (by rw [denied]; decide)).trans (by rw [denied]))
  · have granted : writeDenied s o = 0 := writeDenied_else other (dictObj_notLocked named)
    refine ⟨fun unfit => write_answers up short named typed small (writeObj_unfit granted unfit),
      fun fits out => write_answers up short named typed small (writeObj_outOfRange granted fits small out), fun fits range => ⟨fun rws => ?_, fun plain => ?_⟩⟩
    · exact write_answers up short named typed small (writeObj_stages granted fits range rws)
    · exact write_answers up short named typed small (writeObj_effects granted fits range plain)
  · cases h : dictObj key with
    | none => rfl
    | some o => exact bne_iff_ne.2 (dictObj_notLocked h)

end Sys2Proof.Machine
end

section
/-! PROOF. Replies of the dictionary and segments (19 R466, R467). -/

namespace Sys2Proof.Machine

open Sys2Proof Sys2Proof.Safety

/-! The header of a reply (R466). -/

theorem replyHeader : Claims.ReplyHeader := by
  intro r a op type index sub len off tag status
  unfold replyHdr0 replyHdr1 bits bit
  simp only [Nat.shiftRight_eq_div_pow, Nat.testBit_eq_decide_div_mod_eq]
  have flag : b2n r.staged ≤ 1 ∧ decide (b2n r.staged = 1) = r.staged := by cases r.staged <;> decide
  obtain ⟨lt, shown⟩ := flag
  refine ⟨?_, (decide_eq_decide.2 ?_).trans shown, ?_, ?_, ?_, ?_, ?_, ?_, ?_⟩ <;> norm_num <;> omega

/-! Segments (R467). -/

section
variable {path : DictPath} {index : BitVec 16} {sub : Byte} {off : BitVec 32} {staged : Bool} {v : List Byte} {im : List ImageCheck} {s : State} {o : Obj}

/-! The requests that the commands stand for. -/

def segReadReq (index : BitVec 16) (sub : Byte) (off : BitVec 32) (staged : Bool) : DictReq := ⟨3, staged, 0, index.toNat, sub.toNat, 0, off.toNat, 0, [], []⟩
def segWriteReq (index : BitVec 16) (sub : Byte) (off : BitVec 32) (v : List Byte) (im : List ImageCheck) : DictReq :=
  ⟨4, false, 0, index.toNat, sub.toNat, v.length, off.toNat, 0, v, im⟩

theorem segReadReq_object (p : Nat) (h : dictObj (index.toNat * 256 + sub.toNat) = some o) :
    dictApply s p (segReadReq index sub off staged) = onObject s p (segReadReq index sub off staged) o :=
  dictApply_object (by simp [segReadReq]) (by simp [segReadReq]) (by simpa only [segReadReq] using h)
theorem segWriteReq_object (p : Nat) (short : v.length ≤ 1024) (h : dictObj (index.toNat * 256 + sub.toNat) = some o) :
    dictApply s p (segWriteReq index sub off v im) = onObject s p (segWriteReq index sub off v im) o :=
  dictApply_object (by simp [segWriteReq]) (by simpa only [segWriteReq] using short) (by simpa only [segWriteReq] using h)

/-! What is answered. -/

variable (up : pathUp s path = true) (named : dictObj (index.toNat * 256 + sub.toNat) = some o)

include up named

theorem segRead_answers {status : Nat} {data : List Byte} (h : onObject s (pathNo path) (segReadReq index sub off staged) o = (⟨status, index.toNat, sub.toNat, o.type, data⟩, s)) :
    exec (.segRead path index sub off staged) s = .next (replies s path (segReadReq index sub off staged) status o.type data) :=
  congrArg Host.Outcome.next (dictRequest_answers up ((segReadReq_object _ named).trans h))
theorem segWrite_answers {status : Nat} {t : State} (short : v.length ≤ 1024)
    (h : onObject s (pathNo path) (segWriteReq index sub off v im) o = (⟨status, index.toNat, sub.toNat, o.type, []⟩, t)) :
    exec (.segWrite path index sub off v im) s = .next (replies t path (segWriteReq index sub off v im) status o.type []) :=
  congrArg Host.Outcome.next (dictRequest_answers up ((segWriteReq_object _ short named).trans h))

theorem seg_small (short : v.length ≤ 1024) (small : isLarge o = false) :
    exec (.segRead path index sub off staged) s = .next (replies s path (segReadReq index sub off staged) stTypeMismatch o.type []) ∧
    exec (.segWrite path index sub off v im) s = .next (replies s path (segWriteReq index sub off v im) stTypeMismatch o.type []) :=
  ⟨segRead_answers up named (onObject_mismatch (.inr (by rw [small]; exact Bool.noConfusion))),
    segWrite_answers up named short (onObject_mismatch (.inr (by rw [small]; exact Bool.noConfusion)))⟩

theorem seg_beyond (short : v.length ≤ 1024) (large : isLarge o = true) (past : o.size ≤ off.toNat) :
    exec (.segRead path index sub off staged) s = .next (replies s path (segReadReq index sub off staged) stValueOutOfRange o.type []) ∧
    exec (.segWrite path index sub off v im) s = .next (replies s path (segWriteReq index sub off v im) stValueOutOfRange o.type []) :=
  ⟨segRead_answers up named (onObject_beyond (.inl rfl) (large.trans rfl) (.inl rfl) past),
    segWrite_answers up named short (onObject_beyond (.inl rfl) (large.trans rfl) (.inr rfl) past)⟩

variable (large : isLarge o = true) (within_ : off.toNat < o.size)

include large within_

theorem segRead_returns (access : o.access ≠ .wo) (plain : o.key ≠ 0x803001) :
    exec (.segRead path index sub off staged) s = .next (replies s path (segReadReq index sub off staged) 0 o.type
      (((if staged = true ∧ o.access = .rws then stagedBytes s o.key else dictValue s o).drop off.toNat).take 1024)) :=
  segRead_answers up named (onObject_reads (.inl rfl) (large.trans rfl) (fun _ => within_) (.inr rfl) access plain)

theorem segWrite_denied (short : v.length ≤ 1024) (denied : writeDenied s o ≠ 0) :
    exec (.segWrite path index sub off v im) s = .next (replies s path (segWriteReq index sub off v im) (writeDenied s o) o.type []) :=
  segWrite_answers up named short (onObject_segDenied (.inl rfl) (large.trans rfl) (fun _ => within_) rfl denied)

/-- What a segment's bytes come to is the answer. -/
theorem segWrite_takes (short : v.length ≤ 1024) (granted : writeDenied s o = 0) (other : o.key ≠ 0x801001) {a : Nat × State} (h : writeSegment s (pathNo path) o off.toNat v = a) :
    exec (.segWrite path index sub off v im) s = .next (replies a.2 path (segWriteReq index sub off v im) a.1 o.type []) := by
  refine segWrite_answers up named short ((onObject_segWrites (.inl rfl) (large.trans rfl) (fun _ => within_) rfl granted other).trans ?_)
  show (DictAns.mk (writeSegment s (pathNo path) o off.toNat v).1 _ _ _ _, (writeSegment s (pathNo path) o off.toNat v).2) = _
  rw [h]
  rfl

end

section
variable {s : State} {p : Nat} {o : Obj} {off : Nat} {v l : List Byte}

/-- A first segment, and one at the end of what its path holds of the object, continue (R467). -/
theorem heldPart_continues (h : off = 0 ∧ l = [] ∨ off ≠ 0 ∧ tfind s.dict.partials p = some (o.key, l) ∧ l.length = off) : heldPart s p o off = some l := by
  unfold heldPart
  rcases h with ⟨first, empty⟩ | ⟨later, held, len⟩
  · rw [if_pos first, empty]
  · rw [if_neg later, held]
    exact if_pos ⟨rfl, len⟩

theorem heldPart_breaks (later : off ≠ 0) (h : ∀ l, tfind s.dict.partials p = some (o.key, l) → l.length ≠ off) : heldPart s p o off = none := by
  unfold heldPart
  rw [if_neg later]
  cases held : tfind s.dict.partials p with
  | none => rfl
  | some kl =>
    obtain ⟨k, l⟩ := kl
    exact if_neg (fun ⟨same, len⟩ => h l (by rw [held, same]) len)

theorem writeSegment_breaks (h : heldPart s p o off = none) : writeSegment s p o off v = (stTypeMismatch, dropPartial s p) := by
  unfold writeSegment
  rw [h]

theorem writeSegment_adds (h : heldPart s p o off = some l) (len : l.length = off) (whole : v.length = 1024) (more : off + 1024 < o.size) :
    writeSegment s p o off v = (0, { dropPartial s p with dict := { (dropPartial s p).dict with partials := tset (dropPartial s p).dict.partials p (o.key, l ++ v) } }) := by
  have total : (l ++ v).length = off + 1024 := by rw [List.length_append, len, whole]
  unfold writeSegment
  rw [h]
  dsimp only
  rw [total, if_neg (by omega), if_neg, if_neg (by simp [whole])]
  simp only [Bool.or_eq_true, Bool.and_eq_true, beq_iff_eq, decide_eq_true_eq]
  omega

theorem writeSegment_last (h : heldPart s p o off = some l) (len : l.length = off) (end_ : off + v.length = o.size) :
    writeSegment s p o off v = writeObj (dropPartial s p) o (l ++ v) := by
  have total : (l ++ v).length = o.size := by rw [List.length_append, len, end_]
  unfold writeSegment
  rw [h]
  dsimp only
  rw [total, if_neg (lt_irrefl _), if_pos (by simp)]

end

theorem dictionarySegments : Claims.DictionarySegments := by
  intro path index sub off staged v im s
  refine ⟨fun off => ⟨congrArg Host.Outcome.next (dictRequest_off off), congrArg Host.Outcome.next (dictRequest_off off)⟩,
    fun up long => congrArg Host.Outcome.next (dictRequest_answers up (dictApply_invalid (.inr (.inr long)))),
    fun o up short named => ⟨seg_small up named short, seg_beyond up named short, fun large within_ => ⟨segRead_returns up named large within_, segWrite_denied up named large within_ short,
      fun granted other => ⟨fun l continues => ?_, fun later breaks => ?_⟩⟩⟩⟩
  · have held := heldPart_continues continues
    have len : l.length = off.toNat := by
      rcases continues with ⟨first, empty⟩ | ⟨-, -, len⟩
      · rw [empty, first]
        rfl
      · exact len
    exact ⟨fun whole more => segWrite_takes up named large within_ short granted other (writeSegment_adds held len whole more),
      fun end_ => segWrite_takes up named large within_ short granted other (writeSegment_last held len end_)⟩
  · exact segWrite_takes up named large within_ short granted other (writeSegment_breaks (heldPart_breaks later breaks))

/-- Settles O37: the fields of a reply's header lie beside each other. Of a segment the form is checked first, then the OFFSET, the access right and whether it continues
what its path holds; the order is the model's choice (log entry 58). -/
theorem repliesAndSegments : Obligations.RepliesAndSegments := ⟨replyHeader, dictionarySegments⟩

end Sys2Proof.Machine
end

section
/-! PROOF. The mailbox, the window and TDP as paths of the dictionary (19 R468, R470, R472, R473). -/

namespace Sys2Proof.Machine

open Sys2Proof Sys2Proof.Safety

/-! The mailbox (R472). -/

section
variable {h0 h1 : Word} {d : List Byte} {s : State}

/-- The state after a free value was drawn for a request. -/
def drawn (s : State) : State := { s with freeIdx := s.freeIdx + 1 }
/-- The request that a header and data make. -/
def headed (s : State) (h0 h1 : Word) (d : List Byte) : DictReq := dictReq h0.toNat h1.toNat d (Config.imageSet s.freeIdx)

theorem mailbox_applies (up : pathUp s .mailbox = true) (r : DictReq) : dictRequest (drawn s) .mailbox r =
    emit (dictApply (drawn s) 1 r).2 (.reply .mailbox (replyHdr0 r (dictApply (drawn s) 1 r).1) (replyHdr1 r (dictApply (drawn s) 1 r).1) (dictApply (drawn s) 1 r).1.data) :=
  if_neg (by rw [show pathUp (drawn s) .mailbox = pathUp s .mailbox from rfl, up]; decide)

end

/-- The first of the records that EVENT_READ returns is the one it asks for (R472). -/
theorem eventsFrom_first {s : State} {n : Nat} (k : Nat) (first : 1 ≤ n) (there : n ≤ s.dict.eventSeq) (kept : s.dict.eventSeq < n + 6144)
    (held : thas s.dict.events ((n - 1) % 6144) = true) : (slotWords s ((n - 1) % 6144)).flatMap (leBytes 8) <+: eventsFrom s n (k + 1) := by
  have start : max (max n 1) (s.dict.eventSeq + 1 - 6144) = n := by omega
  unfold eventsFrom
  dsimp only
  rw [start, List.range_succ_eq_map, List.map_cons, List.flatMap_cons, Nat.add_zero, if_pos ⟨there, held⟩]
  exact List.prefix_append ..

theorem eventRead_up {s : State} (seq : BitVec 32) (up : pathUp s .mailbox = true) : exec (.eventRead seq) s = .next (emit s (.mailbox false (eventsFrom s seq.toNat 16))) :=
  congrArg Host.Outcome.next (if_pos up)

/-! The window (R473). -/

/-- The request that the window's registers make of data. -/
def windowReq (s : State) (data : List Byte) : DictReq := dictReq (reg s (dictOff MGT_DICT_HDR0)) (reg s (dictOff MGT_DICT_HDR1)) data (Config.imageSet s.freeIdx)
/-- A state with other data in the window. -/
def withWindow (s : State) (w : List Byte) : State := { s with dict := { s.dict with window := w } }
theorem withWindow_reg (s : State) (w : List Byte) (o : Nat) : reg (withWindow s w) o = reg s o := rfl
theorem withWindow_window (s : State) (w : List Byte) : (withWindow s w).dict.window = w := rfl
/-- The window after an answer. -/
def windowHolds (u : State) (r : DictReq) (a : DictAns) (data : List Byte) : State :=
  withWindow (setReg (setReg u (dictOff MGT_DICT_HDR0) (replyHdr0 r a)) (dictOff MGT_DICT_HDR1) (replyHdr1 r a)) (a.data ++ data.drop a.data.length)

theorem setReg_pair (u : State) (m n v w : Nat) (apart : n ≠ m) : reg (setReg (setReg u m v) n w) m = v % 2 ^ 64 ∧ reg (setReg (setReg u m v) n w) n = w % 2 ^ 64 :=
  ⟨by rw [reg_setReg, if_neg apart, reg_setReg, if_pos rfl], by rw [reg_setReg, if_pos rfl]⟩

theorem windowHolds_shows (u : State) (r : DictReq) (a : DictAns) (data : List Byte) :
    reg (windowHolds u r a data) (dictOff MGT_DICT_HDR0) = replyHdr0 r a % 2 ^ 64 ∧ reg (windowHolds u r a data) (dictOff MGT_DICT_HDR1) = replyHdr1 r a % 2 ^ 64 ∧
      (windowHolds u r a data).dict.window = a.data ++ data.drop a.data.length := by
  obtain ⟨first, second⟩ := setReg_pair u (dictOff MGT_DICT_HDR0) (dictOff MGT_DICT_HDR1) (replyHdr0 r a) (replyHdr1 r a) (by decide)
  unfold windowHolds
  rw [withWindow_reg, withWindow_reg]
  exact ⟨first, second, withWindow_window ..⟩

theorem window_up {s : State} (up : pathUp s .window = true) (data : List Byte) (whole : (s.dict.window ++ zeros 1024).take 1024 = data) :
    exec .dictWindowGo s = .next (windowHolds (dictApply (drawn s) 2 (windowReq s data)).2 (windowReq s data) (dictApply (drawn s) 2 (windowReq s data)).1 data) := by
  show execDictWindowGo s = _
  unfold execDictWindowGo
  dsimp only
  rw [whole, if_neg (by rw [up]; decide)]
  rfl

theorem window_does {s : State} (up : pathUp s .window = true) (data : List Byte) (whole : (s.dict.window ++ zeros 1024).take 1024 = data) :
    let a := (dictApply (drawn s) 2 (windowReq s data)).1
    ∃ t, exec .dictWindowGo s = .next t ∧ reg t (dictOff MGT_DICT_HDR0) = replyHdr0 (windowReq s data) a % 2 ^ 64 ∧
      reg t (dictOff MGT_DICT_HDR1) = replyHdr1 (windowReq s data) a % 2 ^ 64 ∧ t.dict.window = a.data ++ data.drop a.data.length :=
  ⟨_, window_up up data whole, windowHolds_shows _ _ _ _⟩

/-! TDP (R470). -/

section
variable {version msg : Fin 16} {seq : BitVec 16} {group : Bool} {h0 h1 : Word} {d : List Byte} {s : State}

/-- The state that has counted a frame. -/
def framed (s : State) : State := { s with dict := { s.dict with tdpReceived := s.dict.tdpReceived + 1 } }

theorem tdp_off (off : s.power.stage = 15) : exec (.tdpFrameReceive version msg seq group h0 h1 d) s = .next s := congrArg Host.Outcome.next (if_pos off)
theorem tdp_discards (on : s.power.stage ≠ 15) (h1' : version.val ≠ 1) (h2' : version.val ≠ 2) : exec (.tdpFrameReceive version msg seq group h0 h1 d) s =
    .next { framed s with dict := { (framed s).dict with tdpDiscarded := s.dict.tdpDiscarded + 1 } } :=
  congrArg Host.Outcome.next ((if_neg on).trans (if_pos ⟨h1', h2'⟩))
theorem tdp_other (on : s.power.stage ≠ 15) (known : version.val = 1 ∨ version.val = 2) (other : msg.val ≠ 0) : exec (.tdpFrameReceive version msg seq group h0 h1 d) s = .next (framed s) :=
  congrArg Host.Outcome.next ((if_neg on).trans ((if_neg (by omega)).trans (if_pos other)))

/-- A request is answered unless it came to the group address. -/
theorem tdp_request (on : s.power.stage ≠ 15) (known : version.val = 1 ∨ version.val = 2) (request : msg.val = 0) {a : DictAns × State}
    (h : tdpAnswer (drawn (framed s)) version.val (headed s h0 h1 d) = a) :
    exec (.tdpFrameReceive version msg seq group h0 h1 d) s = .next (if group then a.2 else tdpSend a.2 version.val (headed s h0 h1 d) a.1) := by
  refine congrArg Host.Outcome.next ((if_neg on).trans ((if_neg (by omega)).trans ((if_neg (by omega)).trans ?_)))
  rw [← h]
  rfl

theorem tdpAnswer_two (u : State) (r : DictReq) : tdpAnswer u 2 r = dictApply u 0 r := if_neg (by simp)
theorem tdpAnswer_one (u : State) (r : DictReq) (h : r.op ∉ [1, 2, 5]) : tdpAnswer u 1 r = (⟨stDescriptorInvalid, r.index, r.sub, 0, []⟩, u) := by
  have barred : tdp1Allows r.op = false := by
    simp only [List.mem_cons, List.not_mem_nil, or_false, not_or] at h
    simp [tdp1Allows, h]
  exact if_pos ⟨rfl, barred⟩

theorem tdpSend_does (u : State) (v : Nat) (r : DictReq) (a : DictAns) : (tdpSend u v r a).dict.tdpSeq = u.dict.tdpSeq + 1 ∧
    (tdpSend u v r a).out = .reply .tdp (replyHdr0 r a) (replyHdr1 r a) a.data :: .tdpReply v u.dict.tdpSeq :: u.out := ⟨rfl, rfl⟩
theorem tdpSend_parts (u : State) (v : Nat) (r : DictReq) (a : DictAns) : OnlyParts [.dict, .out] u (tdpSend u v r a) := fun x hx => by
  cases x <;> first | (exfalso; simp at hx; done) | rfl

/-- Version 2 allows every operation. -/
theorem tdp_two (on : s.power.stage ≠ 15) (two : version.val = 2) (request : msg.val = 0) :
    exec (.tdpFrameReceive version msg seq group h0 h1 d) s = .next (if group then (dictApply (drawn (framed s)) 0 (headed s h0 h1 d)).2
      else tdpSend (dictApply (drawn (framed s)) 0 (headed s h0 h1 d)).2 2 (headed s h0 h1 d) (dictApply (drawn (framed s)) 0 (headed s h0 h1 d)).1) := by
  have does := tdp_request (seq := seq) (group := group) (h0 := h0) (h1 := h1) (d := d) on (.inr two) request rfl
  rw [two, tdpAnswer_two] at does
  exact does

/-- Version 1 refuses the others (R470). -/
theorem tdp_one (on : s.power.stage ≠ 15) (one : version.val = 1) (request : msg.val = 0) (barred : (headed s h0 h1 d).op ∉ [1, 2, 5]) :
    ∃ t, exec (.tdpFrameReceive version msg seq false h0 h1 d) s = .next t ∧ OnlyParts [.dict, .freeIdx, .out] s t ∧
      ∃ hdr0 hdr1, t.out = .reply .tdp hdr0 hdr1 [] :: .tdpReply 1 s.dict.tdpSeq :: s.out ∧
        hdr1 = (headed s h0 h1 d).off + (headed s h0 h1 d).tag * 2 ^ 32 + stDescriptorInvalid * 2 ^ 48 := by
  have took : OnlyParts [.dict, .freeIdx] s (drawn (framed s)) := fun x hx => by cases x <;> first | (exfalso; simp at hx; done) | rfl
  have does := tdp_request (seq := seq) (group := false) (h0 := h0) (h1 := h1) (d := d) on (.inl one) request rfl
  rw [one, tdpAnswer_one _ _ barred] at does
  exact ⟨_, does, OnlyParts.trans took (tdpSend_parts _ _ _ _) (by decide) (by decide), _, _, (tdpSend_does _ _ _ _).2, rfl⟩

end

/-- Settles O38: each path that answers makes a request of its header and data and applies it; the mailbox and TDP send the reply, the window holds it. -/
theorem dictionaryPaths : Obligations.DictionaryPaths := by
  refine ⟨fun h0 h1 d s => ⟨fun off => congrArg Host.Outcome.next (dictRequest_off off), fun up bad => ?_, fun up => ?_⟩,
    fun seq s => ⟨fun off => congrArg Host.Outcome.next (if_neg (by rw [off]; decide)), fun up => ⟨_, eventRead_up seq up, eventsFrom_first 15⟩⟩,
    fun s => ⟨fun off => congrArg Host.Outcome.next (if_pos (by rw [off]; rfl)), fun up => ?_⟩,
    fun version msg seq group h0 h1 d s => ⟨tdp_off, tdp_discards, tdp_other, fun on two request => ⟨fun grouped => ?_, fun single => ?_⟩, fun on one request single => ?_⟩⟩
  · exact congrArg Host.Outcome.next (dictRequest_answers (s := drawn s) up (dictApply_invalid bad))
  · exact congrArg Host.Outcome.next (mailbox_applies up (headed s h0 h1 d))
  · intro data r a
    exact window_does up data rfl
  · rw [grouped]
    exact tdp_two on two request
  · obtain ⟨next, sent⟩ := tdpSend_does (dictApply (drawn (framed s)) 0 (headed s h0 h1 d)).2 2 (headed s h0 h1 d) (dictApply (drawn (framed s)) 0 (headed s h0 h1 d)).1
    rw [single]
    exact ⟨_, tdp_two on two request, next, sent⟩
  · rw [single]
    exact tdp_one on one request

end Sys2Proof.Machine
end

section
/-! PROOF. Background work under its budgets (19 R485 to R490). -/

namespace Sys2Proof.Machine

open Sys2Proof Sys2Proof.Safety

/-! The share that a tier allows bounds what is served ahead of the foreground (R486, R488). -/

theorem fits_mul_le (n unit rest : Nat) : fits n unit rest * unit ≤ rest := by
  unfold fits
  split
  · next zero => simp [zero]
  · exact (Nat.mul_le_mul_right unit (min_le_right ..)).trans (Nat.div_mul_le_self ..)

/-- What a running unit was served ahead of the foreground stays within a share, and nothing else was served while a request waited. -/
structure WithinShare (share a i : Nat) (l : List BgServed) : Prop where
  ahead : aheadNs l (ofInstance a i) ≤ share
  waits : ∀ x ∈ l, x.use.waiting = true → x.done = x.ahead

theorem aheadNs_append (l : List BgServed) (y : BgServed) (p : BgServed → Bool) :
    aheadNs (l ++ [y]) p = aheadNs l p + if p y = true then y.ahead * y.use.unitNs else 0 := by
  unfold aheadNs
  by_cases h : p y = true <;> simp [h]

/-- Uses are served one after the other within the share (R488); a retraining that runs whatever the budget belongs to another activity. -/
theorem serveUse_share {s : State} {a i : Nat} {l : List BgServed} {x : BgUse} (h : WithinShare (1000 * bgShare s a (tget 0 s.bg.tier (bgKey a i))) a i l)
    (planned : useId x = a → x.forced = false) : WithinShare (1000 * bgShare s a (tget 0 s.bg.tier (bgKey a i))) a i (serveUse s l x) := by
  obtain ⟨ahead, waits⟩ := h
  unfold serveUse
  split
  · next forced =>
    have other : ofInstance a i { use := x, done := x.units, ahead := x.units } = false := by
      simp only [ofInstance, Bool.and_eq_false_iff, beq_eq_false_iff_ne]
      exact .inl (fun same => absurd (planned same) (by rw [forced]; decide))
    refine ⟨by rw [aheadNs_append, other]; simpa using ahead, fun y hy wait => ?_⟩
    rcases List.mem_append.1 hy with hy | hy
    · exact waits y hy wait
    · rw [List.mem_singleton.1 hy]
  · dsimp only
    have bound := fits_mul_le x.units x.unitNs (min (100000 - heldNs l (ofResource (bgResource (useId x) x.inst))) (1000 * bgShare s (useId x) (useTier s x) - aheadNs l (ofInstance (useId x) x.inst)))
    have cap := bound.trans (min_le_right ..)
    generalize fits x.units x.unitNs (min (100000 - heldNs l (ofResource (bgResource (useId x) x.inst))) _) = n at *
    refine ⟨?_, fun y hy wait => ?_⟩
    · rw [aheadNs_append]
      by_cases mine : useId x = a ∧ x.inst = i
      · obtain ⟨rfl, rfl⟩ := mine
        rw [if_pos (by simp [ofInstance])]
        unfold useTier at cap
        exact Nat.add_le_of_le_sub' ahead cap
      · rw [if_neg (by simpa [ofInstance] using mine)]
        exact ahead
    · rcases List.mem_append.1 hy with hy | hy
      · exact waits y hy wait
      · rw [List.mem_singleton.1 hy] at wait ⊢
        dsimp only at wait ⊢
        rw [if_pos wait, Nat.add_zero]

theorem serveAll_share {s : State} {a i : Nat} (uses : List BgUse) (l : List BgServed) (h : WithinShare (1000 * bgShare s a (tget 0 s.bg.tier (bgKey a i))) a i l)
    (planned : ∀ x ∈ uses, useId x = a → x.forced = false) : WithinShare (1000 * bgShare s a (tget 0 s.bg.tier (bgKey a i))) a i (uses.foldl (serveUse s) l) := by
  induction uses generalizing l with
  | nil => exact h
  | cons x uses ih => exact ih _ (serveUse_share h (planned x (List.mem_cons_self ..))) (fun y hy => planned y (List.mem_cons_of_mem _ hy))

theorem mem_bgOrder {s : State} {uses : List BgUse} {x : BgUse} (h : x ∈ bgOrder s uses) : x ∈ uses := by
  unfold bgOrder at h
  simp only [List.mem_append, List.mem_filter, List.mem_flatMap] at h
  rcases h with h | ⟨_, _, _, _, h⟩ <;> exact h.1

theorem heldNs_le_aheadNs {l : List BgServed} (p : BgServed → Bool) (waits : ∀ x ∈ l, x.use.waiting = true → x.done = x.ahead) :
    heldNs l (fun x => p x && x.use.waiting) ≤ aheadNs l p := by
  unfold heldNs aheadNs
  induction l with
  | nil => exact le_refl _
  | cons x l ih =>
    have rest := ih (fun y hy => waits y (List.mem_cons_of_mem _ hy))
    have same := waits x (List.mem_cons_self ..)
    cases mine : p x <;> cases wait : x.use.waiting <;> simp only [List.filter_cons, mine, wait, Bool.false_and, Bool.true_and, Bool.false_eq_true,
      if_true, if_false, List.map_cons, List.sum_cons]
    · exact rest
    · exact rest
    · omega
    · rw [same wait]
      omega

/-- A loss within a period is at most the share of the tier held (R486, R489). -/
theorem bgLoss_le {s : State} {uses : List BgUse} {a i : Nat} (planned : ∀ x ∈ uses, useId x = a → x.forced = false) :
    bgLoss s uses a i ≤ 1000 * bgShare s a (tget 0 s.bg.tier (bgKey a i)) := by
  have served := serveAll_share (s := s) (a := a) (i := i) (bgOrder s (uses.filter (fun x => bgRuns s (useId x)))) [] ⟨Nat.zero_le _, by simp⟩
    (fun x hx => planned x (List.mem_filter.1 (mem_bgOrder hx)).1)
  exact (heldNs_le_aheadNs _ served.waits).trans served.ahead

/-! The account of each running unit (R487, R489). -/

/-- What the tables hold for one unit of an activity: its debt, its tier, its work and its losses. -/
def account (s : State) (k : Nat) : Int × Nat × Nat × Nat := (tget 0 s.bg.debt k, tget 0 s.bg.tier k, tget 0 s.bg.units k, tget 0 s.bg.loss k)
/-- The account of a unit after a period that began with the tables of a state. -/
def nextAccount (b : State) (uses : List BgUse) (a i : Nat) : Int × Nat × Nat × Nat :=
  (bgDebt b a i (bgDone b uses a i), bgTier b a i (bgDebt b a i (bgDone b uses a i)), tget 0 b.bg.units (bgKey a i) + bgDone b uses a i, tget 0 b.bg.loss (bgKey a i) + bgLoss b uses a i)

theorem account_congr {s t : State} (h : t.bg = s.bg) (k : Nat) : account t k = account s k := by
  unfold account
  rw [h]

theorem account_eq {s : State} {k : Nat} {d : Int} {t u l : Nat} (h : account s k = (d, t, u, l)) :
    tget 0 s.bg.debt k = d ∧ tget 0 s.bg.tier k = t ∧ tget 0 s.bg.units k = u ∧ tget 0 s.bg.loss k = l := by
  cases h
  exact ⟨rfl, rfl, rfl, rfl⟩

theorem bgInstance_account (b s : State) (uses : List BgUse) (a i k : Nat) : account (bgInstance b s uses a i) k = if bgKey a i = k then nextAccount b uses a i else account s k := by
  have told (u : State) : account (mgtEvent u 0xB04 1 [a, i]) k = account u k := account_congr (mgtEvent_parts u _ _ _ .bg (by decide)) k
  unfold bgInstance
  dsimp only
  rw [apply_ite (account · k), told, ite_self]
  unfold account nextAccount
  dsimp only
  rw [tget_tset, tget_tset, tget_tset, tget_tset]
  split <;> rfl

theorem bgKey_inj {a a' i i' : Nat} (hi : i < 2 ^ 20) (hi' : i' < 2 ^ 20) (h : bgKey a i = bgKey a' i') : a = a' ∧ i = i' := by
  unfold bgKey at h
  omega
theorem bgInstances_lt {a i : Nat} (h : i < bgInstances a) : i < 2 ^ 20 := by
  have few : bgInstances a ≤ 384 := by
    unfold bgInstances
    split <;> omega
  omega

/-- Every unit of an activity takes its account. -/
def activityTurn (b : State) (uses : List BgUse) (s : State) (a : Nat) : State :=
  if bgRuns b a then each (List.range (bgInstances a)) s (fun s i => bgInstance b s uses a i) else s

theorem activityTurn_other (b s : State) (uses : List BgUse) {a a' i : Nat} (h : i < bgInstances a) (other : bgRuns b a' = true → a' ≠ a) :
    account (activityTurn b uses s a') (bgKey a i) = account s (bgKey a i) := by
  unfold activityTurn
  split
  · next runs =>
    refine each_keeps (account · (bgKey a i)) _ _ _ (fun u j hj => ?_)
    rw [bgInstance_account, if_neg (fun same => other runs (bgKey_inj (bgInstances_lt (List.mem_range.1 hj)) (bgInstances_lt h) same).1)]
  · rfl

theorem activityTurn_own (b s : State) (uses : List BgUse) {a i : Nat} (h : i < bgInstances a) (runs : bgRuns b a = true) :
    account (activityTurn b uses s a) (bgKey a i) = nextAccount b uses a i := by
  unfold activityTurn
  rw [if_pos runs]
  refine each_establishes (I := fun _ => True) (P := fun u => account u (bgKey a i) = nextAccount b uses a i) (List.mem_range.2 h) (fun _ _ h => h)
    (fun u _ => (bgInstance_account ..).trans (if_pos rfl)) (fun u j kept => ?_) trivial
  rw [bgInstance_account]
  split
  · next same =>
    have here : j = i := by
      unfold bgKey at same
      omega
    rw [here]
  · exact kept

theorem period_within (b s : State) (uses : List BgUse) : Within 0x330000081 s (each ((List.range 7).map (· + 1)) s (activityTurn b uses)) := by
  refine each_within (fun u a h => ?_) .refl
  unfold activityTurn
  split
  · exact each_within (fun v i hv => bgInstance_within rfl b v uses a i hv) h
  · exact h

/-- A boundary gives each unit of an activity that runs its next account, and leaves the others'. -/
theorem period_account (b s : State) (uses : List BgUse) {a i : Nat} (low : 1 ≤ a) (high : a ≤ 7) (h : i < bgInstances a) :
    (bgRuns b a = true → account (each ((List.range 7).map (· + 1)) s (activityTurn b uses)) (bgKey a i) = nextAccount b uses a i) ∧
    (bgRuns b a = false → account (each ((List.range 7).map (· + 1)) s (activityTurn b uses)) (bgKey a i) = account s (bgKey a i)) := by
  refine ⟨fun runs => ?_, fun rests => each_keeps (account · (bgKey a i)) _ _ _ (fun u a' _ => activityTurn_other b u uses h ?_)⟩
  · have listed : a ∈ (List.range 7).map (· + 1) := List.mem_map.2 ⟨a - 1, List.mem_range.2 (by omega), by omega⟩
    refine each_establishes (I := fun _ => True) (P := fun u => account u (bgKey a i) = nextAccount b uses a i) listed (fun _ _ h => h)
      (fun u _ => activityTurn_own b u uses h runs) (fun u a' kept => ?_) trivial
    by_cases same : a' = a
    · rw [same]
      exact activityTurn_own b u uses h runs
    · exact (activityTurn_other b u uses h (fun _ => same)).trans kept
  · rintro runs rfl
    rw [rests] at runs
    exact absurd runs (by decide)

/-- The state whose period has just ended. -/
def periodEnded (s : State) : State := { s with bg := { s.bg with lastPeriod := now s } }

theorem backgroundPeriod_early {uses : List BgUse} {s : State} (h : now s < s.bg.lastPeriod + 100000) : exec (.backgroundPeriod uses) s = .next s := congrArg Host.Outcome.next (if_pos h)
theorem backgroundPeriod_due {uses : List BgUse} {s : State} (h : s.bg.lastPeriod + 100000 ≤ now s) :
    exec (.backgroundPeriod uses) s = .next (each ((List.range 7).map (· + 1)) (periodEnded s) (activityTurn s uses)) := congrArg Host.Outcome.next (if_neg (by omega))

theorem backgroundPeriod_does (uses : List BgUse) (s : State) : ∃ t, exec (.backgroundPeriod uses) s = .next t ∧ OnlyParts [.regs, .hst, .bg, .dict, .net, .out] s t ∧
    (now s < s.bg.lastPeriod + 100000 → t = s) ∧ ∀ a i, s.bg.lastPeriod + 100000 ≤ now s → 1 ≤ a → a ≤ 7 → i < bgInstances a →
      (bgRuns s a = true → account t (bgKey a i) = nextAccount s uses a i) ∧ (bgRuns s a = false → account t (bgKey a i) = account s (bgKey a i)) := by
  by_cases early : now s < s.bg.lastPeriod + 100000
  · exact ⟨s, backgroundPeriod_early early, fun r _ => (by cases r <;> rfl), fun _ => rfl, fun a i due => absurd due (by omega)⟩
  · have ended : OnlyParts [.bg] s (periodEnded s) := fun r hr => by cases r <;> first | (exfalso; simp at hr; done) | rfl
    have served := Within.onlyParts (l := [.regs, .hst, .bg, .dict, .net, .out]) (back := false) (period_within s (periodEnded s) uses)
    exact ⟨_, backgroundPeriod_due (by omega), OnlyParts.trans ended served (by decide) (by decide), fun h => absurd h early,
      fun a i _ low high h => period_account s (periodEnded s) uses low high h⟩

theorem backgroundPeriod_accounts (uses : List BgUse) (s : State) : ∃ t, exec (.backgroundPeriod uses) s = .next t ∧ OnlyParts [.regs, .hst, .bg, .dict, .net, .out] s t ∧
    (now s < s.bg.lastPeriod + 100000 → t = s) ∧
    ∀ a i, s.bg.lastPeriod + 100000 ≤ now s → 1 ≤ a → a ≤ 7 → i < bgInstances a →
      (bgRuns s a = true →
        tget 0 t.bg.debt (bgKey a i) = tget 0 s.bg.debt (bgKey a i) + ((bgUnits s a i * 10 ^ 17 / bgPeriod s a : Nat) : Int) - ((bgDone s uses a i * 10 ^ 18 : Nat) : Int) ∧
        tget 0 t.bg.tier (bgKey a i) = (if bgUnits s a i = 0 then 0 else urgency s a (bgUnits s a i) (tget 0 s.bg.tier (bgKey a i)) (tget 0 t.bg.debt (bgKey a i))) ∧
        tget 0 t.bg.units (bgKey a i) = tget 0 s.bg.units (bgKey a i) + bgDone s uses a i ∧
        ((∀ x ∈ uses, useId x = a → x.forced = false) → tget 0 t.bg.loss (bgKey a i) ≤ tget 0 s.bg.loss (bgKey a i) + 1000 * bgShare s a (tget 0 s.bg.tier (bgKey a i)))) ∧
      (bgRuns s a = false → tget 0 t.bg.debt (bgKey a i) = tget 0 s.bg.debt (bgKey a i) ∧ tget 0 t.bg.tier (bgKey a i) = tget 0 s.bg.tier (bgKey a i) ∧
        tget 0 t.bg.units (bgKey a i) = tget 0 s.bg.units (bgKey a i) ∧ tget 0 t.bg.loss (bgKey a i) = tget 0 s.bg.loss (bgKey a i)) := by
  obtain ⟨t, does, parts, early, accounts⟩ := backgroundPeriod_does uses s
  refine ⟨t, does, parts, early, fun a i due low high h => ⟨fun runs => ?_, fun rests => ?_⟩⟩
  · obtain ⟨debt, tier, units, loss⟩ := account_eq ((accounts a i due low high h).1 runs)
    refine ⟨debt, by rw [debt]; exact tier, units, fun planned => ?_⟩
    rw [loss]
    exact Nat.add_le_add_left (bgLoss_le planned) _
  · exact account_eq ((accounts a i due low high h).2 rests)

/-! Sweeps, wear and scans (R485). -/

theorem agingMonitorSweep_does (c : CoreId) (s : State) : (bgRuns s 5 = false → exec (.agingMonitorSweep c) s = .next s) ∧
    (bgRuns s 5 = true → ∃ t, exec (.agingMonitorSweep c) s = .next t ∧ OnlyParts [.wear] s t ∧ tget 0 t.wear (4096 + c.val) = tget 0 s.wear (4096 + c.val) + 1) := by
  refine ⟨fun rests => congrArg Host.Outcome.next (if_neg (by rw [rests]; decide)), fun runs => ⟨_, congrArg Host.Outcome.next (if_pos runs), fun r hr => ?_, tget_tset_same ..⟩⟩
  cases r <;> first | (exfalso; simp at hr; done) | rfl

theorem mramWearLevel_does (block : Fin 4096) (s : State) : (bgRuns s 6 = false → exec (.mramWearLevel block) s = .next s) ∧
    (bgRuns s 6 = true → ∃ t, exec (.mramWearLevel block) s = .next t ∧ OnlyParts [.wear] s t ∧ tget 0 t.wear block = tget 0 s.wear block + 1) := by
  refine ⟨fun rests => congrArg Host.Outcome.next (if_neg (by rw [rests]; decide)), fun runs => ⟨_, congrArg Host.Outcome.next (if_pos runs), fun r hr => ?_, tget_tset_same ..⟩⟩
  cases r <;> first | (exfalso; simp at hr; done) | rfl

/-- The least of a list of margins, capped. -/
theorem least_margin (l : Tab Nat) (m : Nat) : l.foldl (fun m e => min m e.2) m ≤ m ∧ (∀ e ∈ l, l.foldl (fun m e => min m e.2) m ≤ e.2) ∧
    (l.foldl (fun m e => min m e.2) m = m ∨ ∃ e ∈ l, l.foldl (fun m e => min m e.2) m = e.2) := by
  induction l generalizing m with
  | nil => simp
  | cons x l ih =>
    obtain ⟨cap, below, from_⟩ := ih (min m x.2)
    refine ⟨cap.trans (min_le_left ..), fun e he => ?_, ?_⟩
    · rcases List.mem_cons.1 he with rfl | he
      · exact cap.trans (min_le_right ..)
      · exact below e he
    · rcases from_ with same | ⟨e, he, same⟩
      · rcases min_choice m x.2 with h | h
        · exact .inl (same.trans h)
        · exact .inr ⟨x, List.mem_cons_self .., same.trans h⟩
      · exact .inr ⟨e, List.mem_cons_of_mem _ he, same⟩

theorem eyeMonitorScan_none {p : PortId} {lane : Fin 8} {margin : BitVec 16} {s : State} (h : bgRuns s 4 = false ∨ (port s p).state ≠ 3) :
    exec (.eyeMonitorScan p lane margin) s = .next s := congrArg Host.Outcome.next (if_neg (by rcases h with h | h <;> simp [h]))

/-- The state that holds a lane's margin. -/
def scanned (s : State) (p lane margin : Nat) : State := updPort s p (fun x => { x with eyes := tset x.eyes lane margin })

theorem eyeMonitorScan_does {p : PortId} {lane : Fin 8} {margin : BitVec 16} {s : State} (runs : bgRuns s 4 = true) (up : (port s p).state = 3) :
    ∃ t, exec (.eyeMonitorScan p lane margin) s = .next t ∧ OnlyParts [.regs, .ports] s t ∧ tget 0 (port t p).eyes lane = margin.toNat ∧
      (∀ e ∈ (port t p).eyes, reg t (portOff p LNK_EYE_MARGIN) ≤ e.2) ∧
      (reg t (portOff p LNK_EYE_MARGIN) = 0xFFFF ∨ ∃ e ∈ (port t p).eyes, reg t (portOff p LNK_EYE_MARGIN) = e.2) := by
  have does : exec (.eyeMonitorScan p lane margin) s = .next (setReg (scanned s p lane margin.toNat) (portOff p LNK_EYE_MARGIN)
      ((port (scanned s p lane margin.toNat) p).eyes.foldl (fun m e => min m e.2) 0xFFFF)) := congrArg Host.Outcome.next (if_pos (by simp [runs, up]))
  have eyes : (port (scanned s p lane margin.toNat) p).eyes = tset (port s p).eyes lane margin.toNat := by
    unfold scanned
    rw [port_updPort, if_pos rfl]
  have parts : OnlyParts [.ports] s (scanned s p lane margin.toNat) := fun r hr => by cases r <;> first | (exfalso; simp at hr; done) | rfl
  generalize scanned s p lane margin.toNat = u at *
  obtain ⟨cap, below, from_⟩ := least_margin (port u p).eyes 0xFFFF
  have shown := reg_setReg_same u (portOff p LNK_EYE_MARGIN) ((port u p).eyes.foldl (fun m e => min m e.2) 0xFFFF)
  rw [Nat.mod_eq_of_lt (by omega)] at shown
  generalize (port u p).eyes.foldl (fun m e => min m e.2) 0xFFFF = least at *
  have kept : port (setReg u (portOff p LNK_EYE_MARGIN) least) p = port u p := rfl
  refine ⟨_, does, OnlyParts.trans parts (setReg_parts u _ _) (by decide) (by decide), ?_, ?_, ?_⟩
  · rw [kept, eyes]
    exact tget_tset_same ..
  · rw [shown, kept]
    exact below
  · rw [shown, kept]
    exact from_

theorem backgroundAccounts : Claims.BackgroundAccounts :=
  ⟨backgroundPeriod_accounts, agingMonitorSweep_does, mramWearLevel_does, fun _ _ _ _ => ⟨eyeMonitorScan_none, eyeMonitorScan_does⟩⟩

end Sys2Proof.Machine
end

section
/-! PROOF. Saturation telemetry (19 R491 to R493, 22 R532). -/

namespace Sys2Proof.Machine

open Sys2Proof Sys2Proof.Safety

section
variable {s : State} {l : List Measure}

/-! The first-saturated resource (R492, R532). -/

theorem mem_satCodes {c : Nat} : c ∈ satCodes s l ↔ (1 ≤ c ∧ c ≤ 11) ∧ satThreshold s c ≤ (satMeasure l c).value := by
  unfold satCodes
  simp only [List.mem_filter, List.mem_map, List.mem_range, decide_eq_true_eq]
  refine and_congr_left' ⟨?_, fun ⟨low, high⟩ => ⟨c - 1, by omega, by omega⟩⟩
  rintro ⟨x, hx, rfl⟩
  omega

theorem mem_satChoices {cs : List Nat} {c : Nat} : c ∈ satChoices cs ↔ c ∈ cs ∧ (c = 7 → 1 ∉ cs ∧ 2 ∉ cs ∧ 8 ∉ cs) ∧ (c = 6 → 3 ∉ cs ∧ 11 ∉ cs) := by
  unfold satChoices
  simp only [List.mem_filter, Bool.and_eq_true, Bool.not_eq_true', Bool.and_eq_false_iff, Bool.or_eq_false_iff, beq_eq_false_iff_ne, List.contains_eq_mem, decide_eq_false_iff_not, ne_eq]
  tauto

/-- Where a code is saturated, one may be FIRST: those that make way do so for another. -/
theorem satChoices_some {cs : List Nat} (h : cs ≠ []) : satChoices cs ≠ [] := by
  obtain ⟨c, hc⟩ := List.exists_mem_of_ne_nil cs h
  have plain (d : Nat) (hd : d ∈ cs) (h7 : d ≠ 7) (h6 : d ≠ 6) : satChoices cs ≠ [] := List.ne_nil_of_mem (mem_satChoices.2 ⟨hd, fun h => absurd h h7, fun h => absurd h h6⟩)
  by_cases free : c ∈ satChoices cs
  · exact List.ne_nil_of_mem free
  · rw [mem_satChoices] at free
    by_cases one : 1 ∈ cs
    · exact plain 1 one (by decide) (by decide)
    by_cases two : 2 ∈ cs
    · exact plain 2 two (by decide) (by decide)
    by_cases eight : 8 ∈ cs
    · exact plain 8 eight (by decide) (by decide)
    by_cases three : 3 ∈ cs
    · exact plain 3 three (by decide) (by decide)
    by_cases eleven : 11 ∈ cs
    · exact plain 11 eleven (by decide) (by decide)
    exact absurd ⟨hc, fun _ => ⟨one, two, eight⟩, fun _ => ⟨three, eleven⟩⟩ free

/-- The worse of the code held and the next one. -/
def worse (s : State) (l : List Measure) (b c : Nat) : Nat :=
  if b = 0 then c else if (satMeasure l b).value * satThreshold s c < (satMeasure l c).value * satThreshold s b then c else b

theorem satWorst_eq (cs : List Nat) : satWorst s l cs = cs.foldl (worse s l) 0 := rfl

theorem worst_listed (cs : List Nat) (b : Nat) : cs.foldl (worse s l) b = b ∨ cs.foldl (worse s l) b ∈ cs := by
  induction cs generalizing b with
  | nil => exact .inl rfl
  | cons c cs ih =>
    have either : worse s l b c = b ∨ worse s l b c = c := by
      unfold worse
      split
      · exact .inr rfl
      · split <;> simp
    rcases ih (worse s l b c) with h | h
    · rcases either with e | e
      · exact .inl (h.trans e)
      · exact .inr (List.mem_cons.2 (.inl (h.trans e)))
    · exact .inr (List.mem_cons_of_mem _ h)

theorem satWorst_mem {cs : List Nat} (some_ : cs ≠ []) (codes : ∀ c ∈ cs, 1 ≤ c) : satWorst s l cs ∈ cs := by
  obtain ⟨c, cs, rfl⟩ := List.exists_cons_of_ne_nil some_
  rw [satWorst_eq]
  show cs.foldl (worse s l) (worse s l 0 c) ∈ _
  rw [show worse s l 0 c = c from if_pos rfl]
  rcases worst_listed (s := s) (l := l) cs c with h | h
  · rw [h]
    exact List.mem_cons_self ..
  · exact List.mem_cons_of_mem _ h

/-- Of two ratios with positive thresholds the order is transitive. -/
theorem ratio_trans {x y z tx ty tz : Nat} (pos : 0 < ty) (h1 : x * ty ≤ y * tx) (h2 : y * tz ≤ z * ty) : x * tz ≤ z * tx := by
  refine Nat.le_of_mul_le_mul_left (c := ty) ?_ pos
  calc ty * (x * tz) = x * ty * tz := by ring
    _ ≤ y * tx * tz := Nat.mul_le_mul_right _ h1
    _ = y * tz * tx := by ring
    _ ≤ z * ty * tx := Nat.mul_le_mul_right _ h2
    _ = ty * (z * tx) := by ring

/-- No code has a larger ratio than the worst (R492). -/
theorem worst_ratio (pos : ∀ c, 1 ≤ c → c ≤ 11 → 0 < satThreshold s c) (cs : List Nat) (b : Nat) (codes : ∀ c ∈ b :: cs, 1 ≤ c ∧ c ≤ 11) (c : Nat) (hc : c ∈ b :: cs) :
    (satMeasure l c).value * satThreshold s (cs.foldl (worse s l) b) ≤ (satMeasure l (cs.foldl (worse s l) b)).value * satThreshold s c := by
  induction cs generalizing b c with
  | nil => rw [List.mem_singleton.1 hc]; exact le_refl _
  | cons d cs ih =>
    have hb := codes b (List.mem_cons_self ..)
    have hd := codes d (by simp)
    have step : (worse s l b d = b ∨ worse s l b d = d) ∧ (satMeasure l b).value * satThreshold s (worse s l b d) ≤ (satMeasure l (worse s l b d)).value * satThreshold s b ∧
        (satMeasure l d).value * satThreshold s (worse s l b d) ≤ (satMeasure l (worse s l b d)).value * satThreshold s d := by
      unfold worse
      rw [if_neg (by omega)]
      split
      · next more => exact ⟨.inr rfl, more.le, le_refl _⟩
      · next less => exact ⟨.inl rfl, le_refl _, Nat.le_of_not_lt less⟩
    obtain ⟨either, overB, overD⟩ := step
    have known : 1 ≤ worse s l b d ∧ worse s l b d ≤ 11 := by
      rcases either with e | e <;> rw [e]
      · exact hb
      · exact hd
    have rest := ih (worse s l b d) (fun x hx => by
      rcases List.mem_cons.1 hx with rfl | hx
      · exact known
      · exact codes x (by simp [hx]))
    have top := rest _ (List.mem_cons_self ..)
    have positive := pos _ known.1 known.2
    rcases List.mem_cons.1 hc with rfl | hc
    · exact ratio_trans positive overB top
    · rcases List.mem_cons.1 hc with rfl | hc
      · exact ratio_trans positive overD top
      · exact rest c (List.mem_cons_of_mem _ hc)

theorem satWorst_ratio (pos : ∀ c, 1 ≤ c → c ≤ 11 → 0 < satThreshold s c) {cs : List Nat} (codes : ∀ c ∈ cs, 1 ≤ c ∧ c ≤ 11) (c : Nat) (hc : c ∈ cs) :
    (satMeasure l c).value * satThreshold s (satWorst s l cs) ≤ (satMeasure l (satWorst s l cs)).value * satThreshold s c := by
  obtain ⟨d, cs, rfl⟩ := List.exists_cons_of_ne_nil (List.ne_nil_of_mem hc)
  rw [satWorst_eq]
  show _ * satThreshold s (cs.foldl (worse s l) (worse s l 0 d)) ≤ (satMeasure l (cs.foldl (worse s l) (worse s l 0 d))).value * _
  rw [show worse s l 0 d = d from if_pos rfl]
  exact worst_ratio pos cs d codes c hc

/-! The first sub-period with a saturated code. -/

theorem satHit_none (h : s.sat.subperiods.all (fun l => (satCodes s l).isEmpty) = true) : satHit s = none := by
  unfold satHit
  rw [List.find?_eq_none]
  rintro ⟨l, i⟩ hp
  have empty := List.all_eq_true.1 h l (List.fst_mem_of_mem_zipIdx hp)
  simp [empty]

theorem satHit_first {before after : List (List Measure)} (h : s.sat.subperiods = before ++ l :: after) (quiet : before.all (fun l => (satCodes s l).isEmpty) = true)
    (hit : satCodes s l ≠ []) : ∃ i, satHit s = some (l, i) := by
  unfold satHit
  rw [h, List.zipIdx_append, List.find?_append]
  have none_ : (before.zipIdx).find? (fun p => !(satCodes s p.1).isEmpty) = none := by
    rw [List.find?_eq_none]
    rintro ⟨m, i⟩ hp
    have empty := List.all_eq_true.1 quiet m (List.fst_mem_of_mem_zipIdx hp)
    simp [empty]
  refine ⟨0 + before.length, ?_⟩
  rw [none_, Option.none_or, List.zipIdx_cons, List.find?_cons_of_pos]
  simpa using hit

theorem satFirst_none (h : s.sat.subperiods.all (fun l => (satCodes s l).isEmpty) = true) : satFirst s = 0 := by
  unfold satFirst
  rw [satHit_none h]

theorem satWord_none (h : s.sat.subperiods.all (fun l => (satCodes s l).isEmpty) = true) : satWord s = 0 := by
  have quiet (c : Nat) : s.sat.subperiods.any (fun x => (satCodes s x).contains c) = false := by
    rw [List.any_eq_false]
    intro x hx
    have empty := List.isEmpty_iff.1 (List.all_eq_true.1 h x hx)
    simp [empty]
  have zero (c : Nat) : b2n (s.sat.subperiods.any (fun x => (satCodes s x).contains c)) * 2 ^ c = 0 := by rw [quiet, show b2n false = 0 from rfl, Nat.zero_mul]
  unfold satWord
  rw [satHit_none h]
  simp only [zero]
  rfl

theorem satFirst_hit {before after : List (List Measure)} (h : s.sat.subperiods = before ++ l :: after) (quiet : before.all (fun l => (satCodes s l).isEmpty) = true)
    (hit : satCodes s l ≠ []) : satFirst s = satWorst s l (satChoices (satCodes s l)) := by
  obtain ⟨i, found⟩ := satHit_first h quiet hit
  unfold satFirst
  rw [found]

/-! A window's end (R492, R493). -/

/-- The state after a window's record, before what is told of it. -/
def windowEnded (s : State) : State := { s with
  sat := { s.sat with
    subperiods := []
    first := satFirst s
    record := [now s, satWord s, 0, 0]
    held := satHeld s
    reported := if satTells s then satFirst s else s.sat.reported
    lastEvent := if satTells s then some (now s) else s.sat.lastEvent }
  cache := { s.cache with evicted := [] } }

theorem saturationWindowEnd_eq (s : State) : exec .saturationWindowEnd s =
    .next (if satTells s then mgtEvent (windowEnded s) 0xB05 1 [s.sat.reported, satFirst s] else windowEnded s) := rfl

theorem windowEnd_sat (s : State) : State.sat (if satTells s then mgtEvent (windowEnded s) 0xB05 1 [s.sat.reported, satFirst s] else windowEnded s) = (windowEnded s).sat := by
  split
  · exact mgtEvent_parts (windowEnded s) _ _ _ .sat (by decide)
  · rfl

theorem satTells_not (h : satFirst s = s.sat.reported ∨ satFirst s ≠ s.sat.first ∨ s.sat.held < 9) : satTells s = false := by
  unfold satTells satHeld
  rcases h with h | h | h
  · simp [h]
  · simp [h]
  · have short : ¬ 10 ≤ (if satFirst s = s.sat.first then s.sat.held + 1 else 1) := by split <;> omega
    simp [short]

theorem satTells_new (new : satFirst s ≠ s.sat.reported) (same : satFirst s = s.sat.first) (long : 9 ≤ s.sat.held) (first : s.sat.lastEvent = none) : satTells s = true := by
  unfold satTells satHeld
  rw [if_pos same, first]
  simp [new, long]

end

theorem saturationWindowEnd_does (s : State) : ∃ t, exec .saturationWindowEnd s = .next t ∧ t.sat.subperiods = [] ∧
    (s.sat.subperiods.all (fun l => (satCodes s l).isEmpty) = true → t.sat.first = 0 ∧ t.sat.record = [now s, 0, 0, 0]) ∧
    (∀ before l after, s.sat.subperiods = before ++ l :: after → before.all (fun l => (satCodes s l).isEmpty) = true → satCodes s l ≠ [] →
      t.sat.first ∈ satCodes s l ∧ (t.sat.first = 7 → 1 ∉ satCodes s l ∧ 2 ∉ satCodes s l ∧ 8 ∉ satCodes s l) ∧
      (t.sat.first = 6 → 3 ∉ satCodes s l ∧ 11 ∉ satCodes s l) ∧
      ((∀ c, 1 ≤ c → c ≤ 11 → 0 < satThreshold s c) → ∀ c ∈ satChoices (satCodes s l), (satMeasure l c).value * satThreshold s t.sat.first ≤ (satMeasure l t.sat.first).value * satThreshold s c)) ∧
    (t.sat.first = s.sat.reported ∨ t.sat.first ≠ s.sat.first ∨ s.sat.held < 9 → OnlyParts [.sat, .cache] s t) ∧
    (t.sat.first ≠ s.sat.reported → t.sat.first = s.sat.first → 9 ≤ s.sat.held → s.sat.lastEvent = none → LoggedEvent s t 0xB05 1 [s.sat.reported, t.sat.first]) := by
  have sat := windowEnd_sat s
  have ended : OnlyParts [.sat, .cache] s (windowEnded s) := fun r hr => by cases r <;> first | (exfalso; simp at hr; done) | rfl
  have first : (windowEnded s).sat.first = satFirst s := rfl
  refine ⟨_, saturationWindowEnd_eq s, ?_⟩
  rw [sat, first]
  refine ⟨rfl, fun quiet => ⟨satFirst_none quiet, ?_⟩, fun before l after split quiet hit => ?_, fun h => ?_, fun new same long none_ => ?_⟩
  · show [now s, satWord s, 0, 0] = _
    rw [satWord_none quiet]
  · have codes : ∀ c ∈ satChoices (satCodes s l), 1 ≤ c ∧ c ≤ 11 := fun c hc => (mem_satCodes.1 (mem_satChoices.1 hc).1).1
    have chosen := satWorst_mem (s := s) (l := l) (satChoices_some hit) (fun c hc => (codes c hc).1)
    obtain ⟨saturated, seven, six⟩ := mem_satChoices.1 chosen
    rw [satFirst_hit split quiet hit]
    exact ⟨saturated, seven, six, fun pos => satWorst_ratio pos codes⟩
  · rw [satTells_not h]
    exact ended
  · rw [if_pos (satTells_new new same long none_)]
    exact mgtEvent_loggedFrom _ _ _ rfl rfl

theorem saturationWindow : Claims.SaturationWindow := by
  refine ⟨fun sampled s => ?_, fun measures s => ⟨fun early => congrArg Host.Outcome.next (if_pos early), fun due ten => ?_⟩, saturationWindowEnd_does⟩
  · cases sampled <;> rfl
  · have all_ : (measures ++ List.replicate 10 ({ value := 0, inst := 0 } : Measure)).take 10 = measures := by rw [← ten, List.take_left]
    refine congrArg Host.Outcome.next ((if_neg (by omega)).trans ?_)
    rw [all_]

/-- Settles O34: at a boundary each unit of an activity that runs takes its next account, which depends on the tables before the boundary alone; what it is served
while a request waits lies within its tier's share. At a window's end FIRST is the worst of the codes that do not make way for another. -/
theorem backgroundAndSaturation : Obligations.BackgroundAndSaturation := ⟨backgroundAccounts, saturationWindow⟩

end Sys2Proof.Machine
end

section
/-! PROOF. Doorbells and queue pairs (16 R407, R408, R417, R420, R421). -/

namespace Sys2Proof.Machine

open Sys2Proof Sys2Proof.Safety

/-! Fields of a word beside one that is replaced. -/

section
variable (w v : Nat)

theorem bits_head_kept : bits (putBits w 31 16 v % 2 ^ 64) 15 0 = bits w 15 0 := by
  unfold putBits bits
  simp only [Nat.shiftRight_eq_div_pow]
  norm_num
  omega
theorem bits_tail_kept : bits (putBits w 15 0 v % 2 ^ 64) 31 16 = bits w 31 16 := by
  unfold putBits bits
  simp only [Nat.shiftRight_eq_div_pow]
  norm_num
  omega
theorem bit_phase_kept : bit (putBits w 15 0 v % 2 ^ 64) 32 = bit w 32 := by
  rw [bit_eq_mod, bit_eq_mod, decide_eq_decide]
  unfold putBits bits
  simp only [Nat.shiftRight_eq_div_pow]
  norm_num
  omega
theorem bits_cq_kept : bits (putBits (bits w 41 0 % 2 ^ 64) 0 0 v % 2 ^ 64) 41 1 = bits w 41 1 := by
  unfold putBits bits
  simp only [Nat.shiftRight_eq_div_pow]
  norm_num
  omega
theorem bits_sq_kept : bits (putBits (bits w 19 0 % 2 ^ 64) 0 0 v % 2 ^ 64) 19 1 = bits w 19 1 := by
  unfold putBits bits
  simp only [Nat.shiftRight_eq_div_pow]
  norm_num
  omega
theorem bits_of_bits (hi lo top : Nat) (h : lo ≤ hi ∧ hi ≤ top) : bits (bits w top 0) hi lo = bits w hi lo := by
  obtain ⟨k, rfl⟩ := Nat.exists_eq_add_of_le h.2
  have split_ : hi + k + 1 - 0 = lo + ((hi + 1 - lo) + k) := by omega
  unfold bits
  rw [split_, Nat.shiftRight_zero, Nat.shiftRight_eq_div_pow, Nat.shiftRight_eq_div_pow, pow_add, pow_add, Nat.mod_mul_right_div_self, Nat.mod_mul_right_mod]
theorem bit_of_bits (top : Nat) : bit (bits w top 0) 0 = bit w 0 := by
  have same : bits w top 0 % 2 = w % 2 := bits_of_bits w 0 0 top ⟨le_refl _, Nat.zero_le _⟩
  rw [bit_eq_mod, bit_eq_mod, pow_zero, Nat.div_one, Nat.div_one, same]

end

/-! The offsets of queue entries. -/

theorem sqOff_ne (q : Nat) {a b : Nat} (h : a ≠ b) : sqOff q a ≠ sqOff q b := by
  unfold sqOff
  omega
theorem cqOff_ne (q : Nat) {a b : Nat} (h : a ≠ b) : cqOff q a ≠ cqOff q b := by
  unfold cqOff
  omega

/-! Doorbells (R408, R421). -/

section
variable {q : HostQueue} {v : Word} {s : State}

/-- A doorbell of an SQ that is taken. -/
def TailOk (s : State) (q v : Nat) : Prop := bit (reg s (sqOff q 0)) 0 = true ∧ v % 2 ^ 16 < 2 ^ bits (reg s (sqOff q 0)) 19 15 ∧ q ∉ s.hst.closing
/-- A doorbell of a CQ that is taken. -/
def HeadOk (s : State) (q v : Nat) : Prop := bit (reg s (cqOff q 0)) 0 = true ∧ v % 2 ^ 16 < cqSize s q

theorem tailDoorbell_takes {q v : Nat} (h : TailOk s q v) : tailDoorbell s q v = setField s (sqOff q 3) 31 16 v := by
  obtain ⟨enabled, inside, open_⟩ := h
  exact if_pos (by simp [enabled, open_, show v % 65536 < _ from inside])
theorem tailDoorbell_drops {q v : Nat} (h : ¬ TailOk s q v) : tailDoorbell s q v = postedDrop s stDoorbellInvalid 0 q := by
  refine if_neg (fun taken => h ?_)
  simp only [Bool.and_eq_true, decide_eq_true_eq, Bool.not_eq_true', List.contains_eq_mem, decide_eq_false_iff_not] at taken
  exact ⟨taken.1.1, taken.1.2, taken.2⟩

/-- The entries that a new HEAD frees (16 R408; log entry 55). -/
def entriesTaken (s : State) (q v : Nat) : Nat := (v % 65536 + cqSize s q - cqHead s q) % cqSize s q
/-- The state that has freed entries. -/
def entriesFreed (s : State) (q v : Nat) : State := { s with hst := { s.hst with cqHeld := tset s.hst.cqHeld q (cqHeld s q - entriesTaken s q v) } }

theorem headDoorbell_takes {q v : Nat} (h : HeadOk s q v) : headDoorbell s q v = setField (entriesFreed s q v) (cqOff q 2) 15 0 v :=
  if_pos (by simpa [HeadOk] using h)
theorem headDoorbell_drops {q v : Nat} (h : ¬ HeadOk s q v) : headDoorbell s q v = postedDrop s stDoorbellInvalid 0 q :=
  if_neg (by simpa [HeadOk] using h)

theorem entriesTaken_eq {q v : Nat} (head : cqHead s q < cqSize s q) (inside : v % 2 ^ 16 < cqSize s q) :
    entriesTaken s q v = if cqHead s q ≤ v % 2 ^ 16 then v % 2 ^ 16 - cqHead s q else cqSize s q + v % 2 ^ 16 - cqHead s q := by
  unfold entriesTaken
  rw [show (65536 : Nat) = 2 ^ 16 from rfl]
  generalize v % 2 ^ 16 = n at *
  generalize cqSize s q = size at *
  split
  · rw [show n + size - cqHead s q = n - cqHead s q + size by omega, Nat.add_mod_right, Nat.mod_eq_of_lt (by omega)]
  · rw [Nat.mod_eq_of_lt (by omega), Nat.add_comm]

theorem sqTail_moves (h : TailOk s q v.toNat) : ∃ t, exec (.sqTailDoorbell q v) s = .next t ∧ OnlyParts [.regs] s t ∧ bits (reg t (sqOff q 3)) 31 16 = v.toNat % 2 ^ 16 ∧
    bits (reg t (sqOff q 3)) 15 0 = bits (reg s (sqOff q 3)) 15 0 ∧ ∀ off, off ≠ sqOff q 3 → reg t off = reg s off := by
  refine ⟨_, congrArg Host.Outcome.next (tailDoorbell_takes h), setReg_parts s _ _, ?_, ?_, fun off other => ?_⟩
  · rw [reg_setField, if_pos rfl, bits_putBits_same _ _ (by decide)]
  · rw [reg_setField, if_pos rfl, bits_head_kept]
  · rw [reg_setField, if_neg (Ne.symm other)]

theorem cqHead_moves (h : HeadOk s q v.toNat) : ∃ t, exec (.cqHeadDoorbell q v) s = .next t ∧ OnlyParts [.regs, .hst] s t ∧ cqHead t q = v.toNat % 2 ^ 16 ∧
    cqTail t q = cqTail s q ∧ cqPhase t q = cqPhase s q ∧
    (cqHead s q < cqSize s q → cqHeld t q = cqHeld s q - if cqHead s q ≤ v.toNat % 2 ^ 16 then v.toNat % 2 ^ 16 - cqHead s q else cqSize s q + v.toNat % 2 ^ 16 - cqHead s q) ∧
    ∀ off, off ≠ cqOff q 2 → reg t off = reg s off := by
  have freed : OnlyParts [.hst] s (entriesFreed s q v.toNat) := fun r hr => by cases r <;> first | (exfalso; simp at hr; done) | rfl
  have same (off : Nat) : reg (entriesFreed s q v.toNat) off = reg s off := rfl
  have held : cqHeld (entriesFreed s q v.toNat) q = cqHeld s q - entriesTaken s q v.toNat := tget_tset_same ..
  have does := headDoorbell_takes h
  generalize entriesFreed s q v.toNat = u at *
  refine ⟨_, congrArg Host.Outcome.next does, OnlyParts.trans freed (setReg_parts u _ _) (by decide) (by decide), ?_, ?_, ?_, fun inside => ?_, fun off other => ?_⟩
  · rw [cqHead, reg_setField, if_pos rfl, bits_putBits_same _ _ (by decide)]
  · rw [cqTail, reg_setField, if_pos rfl, bits_tail_kept, same]
    rfl
  · rw [cqPhase, reg_setField, if_pos rfl, bit_phase_kept, same]
    rfl
  · rw [← entriesTaken_eq inside h.2]
    exact held
  · rw [reg_setField, if_neg (Ne.symm other), same]

/-- A doorbell that is dropped is counted, recorded and told of. -/
theorem doorbell_drops (s : State) (q : HostQueue) : OnlyParts [.regs, .net] s (postedDrop s stDoorbellInvalid 0 q) ∧
    reg (postedDrop s stDoorbellInvalid 0 q) (hstOff HST_POSTED_DROP_COUNT) = (reg s (hstOff HST_POSTED_DROP_COUNT) + 1) % 2 ^ 64 ∧
    reg (postedDrop s stDoorbellInvalid 0 q) (hstOff HST_LAST_DROP) = stDoorbellInvalid + q * 2 ^ 18 ∧ SentEvent s (postedDrop s stDoorbellInvalid 0 q) hstDie 0x801 1 [stDoorbellInvalid, 0, q] := by
  have small : stDoorbellInvalid + 0 * 2 ^ 16 + q.val * 2 ^ 18 < 2 ^ 64 := by
    have := q.isLt
    unfold stDoorbellInvalid
    omega
  exact ⟨(postedDrop_does s stDoorbellInvalid 0 q).1, postedDrop_count .., (postedDrop_last s _ _ _ small).trans (by rw [Nat.zero_mul, Nat.add_zero]), postedDrop_told s s _ _ _ rfl rfl⟩

theorem doorbell_eq {f : Frame} (w : BitVec 16) (new : NewMessage s hstDie f) :
    exec (.doorbell f false q w) s = exec (.sqTailDoorbell q (w.zeroExtend 64)) (tookMessage s hstDie f) ∧
    exec (.doorbell f true q w) s = exec (.cqHeadDoorbell q (w.zeroExtend 64)) (tookMessage s hstDie f) := by
  have wide : (w.zeroExtend 64).toNat = w.toNat := by
    rw [BitVec.toNat_setWidth, Nat.mod_eq_of_lt (by omega)]
  have tail : exec (.sqTailDoorbell q (w.zeroExtend 64)) (tookMessage s hstDie f) = .next (tailDoorbell (tookMessage s hstDie f) q (w.zeroExtend 64).toNat) := rfl
  have head : exec (.cqHeadDoorbell q (w.zeroExtend 64)) (tookMessage s hstDie f) = .next (headDoorbell (tookMessage s hstDie f) q (w.zeroExtend 64).toNat) := rfl
  rw [tail, head, wide]
  exact ⟨congrArg Host.Outcome.next (onChain_new _ new), congrArg Host.Outcome.next (onChain_new _ new)⟩

/-! The enables (R407). -/

/-- Word 0 of an entry, with ENABLE as the checks leave it. -/
def enabledWord (s : State) (off w : Nat) (ok : Bool) : State := setField (setReg s off w) off 0 0 (b2n ok)

theorem enabledWord_reg (s : State) (off w o : Nat) (ok : Bool) : reg (enabledWord s off w ok) o = if off = o then putBits (w % 2 ^ 64) 0 0 (b2n ok) % 2 ^ 64 else reg s o := by
  unfold enabledWord
  rw [reg_setField, reg_setReg, if_pos rfl, reg_setReg]
  split <;> rfl
theorem enabledWord_other (s : State) {off o : Nat} (w : Nat) (ok : Bool) (h : off ≠ o) : reg (enabledWord s off w ok) o = reg s o := (enabledWord_reg ..).trans (if_neg h)
theorem enabledWord_parts (s : State) (off w : Nat) (ok : Bool) : OnlyParts [.regs] s (enabledWord s off w ok) :=
  OnlyParts.trans (setReg_parts s off w) (setReg_parts _ _ _) (by decide) (by decide)
theorem enabledWord_enable (s : State) (off w : Nat) (ok : Bool) : bit (reg (enabledWord s off w ok) off) 0 = ok := by
  rw [enabledWord_reg, if_pos rfl]
  exact bit_putBits_b2n _ (by decide) ok

/-- The size that a completion queue may have. -/
def cqGood (v : Nat) : Bool := decide (1 ≤ bits v 5 1 ∧ bits v 5 1 ≤ 16)
/-- A completion queue that comes into use is empty. -/
def cqEmptied (s : State) (q : Nat) : State :=
  let s := setReg s (cqOff q 2) (2 ^ 32)
  { s with hst := { s.hst with cqHeld := tset s.hst.cqHeld q 0, unsignalled := tdel s.hst.unsignalled q } }

theorem cqEnable_on (on : bit v.toNat 0 = true) : exec (.queuePairEnable true q v) s = .next
    (if cqGood v.toNat && !bit (reg s (cqOff q 0)) 0 then cqEmptied (enabledWord s (cqOff q 0) (bits v.toNat 41 0) (cqGood v.toNat)) q
      else enabledWord s (cqOff q 0) (bits v.toNat 41 0) (cqGood v.toNat)) := by
  have good : cqGood (bits v.toNat 41 0) = cqGood v.toNat := by
    unfold cqGood
    rw [bits_of_bits _ 5 1 41 (by decide)]
  rw [← good]
  exact congrArg Host.Outcome.next (if_pos ((bit_of_bits v.toNat _).trans on))

theorem cqEmptied_shows (u : State) (q : Nat) : cqHead (cqEmptied u q) q = 0 ∧ cqTail (cqEmptied u q) q = 0 ∧ cqPhase (cqEmptied u q) q = true ∧ cqHeld (cqEmptied u q) q = 0 := by
  have word2 : reg (cqEmptied u q) (cqOff q 2) = 2 ^ 32 := by
    show reg (setReg u (cqOff q 2) (2 ^ 32)) (cqOff q 2) = _
    rw [reg_setReg_same]
    rfl
  unfold cqHead cqTail cqPhase
  rw [word2]
  exact ⟨by decide, by decide, by decide, tget_tset_same ..⟩
theorem cqEmptied_reg (u : State) (q : Nat) {o : Nat} (h : cqOff q 2 ≠ o) : reg (cqEmptied u q) o = reg u o := reg_setReg_other u _ (Ne.symm h)
theorem cqEmptied_parts (u : State) (q : Nat) : OnlyParts [.regs, .hst] u (cqEmptied u q) := fun r hr => by cases r <;> first | (exfalso; simp at hr; done) | rfl

theorem cqEnable_does (on : bit v.toNat 0 = true) : ∃ t, exec (.queuePairEnable true q v) s = .next t ∧ OnlyParts [.regs, .hst] s t ∧
    bits (reg t (cqOff q 0)) 41 1 = bits v.toNat 41 1 ∧ (bit (reg t (cqOff q 0)) 0 = true ↔ 1 ≤ bits v.toNat 5 1 ∧ bits v.toNat 5 1 ≤ 16) ∧
    ((1 ≤ bits v.toNat 5 1 ∧ bits v.toNat 5 1 ≤ 16) → bit (reg s (cqOff q 0)) 0 = false → cqHead t q = 0 ∧ cqTail t q = 0 ∧ cqPhase t q = true ∧ cqHeld t q = 0) ∧
    ((¬ (1 ≤ bits v.toNat 5 1 ∧ bits v.toNat 5 1 ≤ 16) ∨ bit (reg s (cqOff q 0)) 0 = true) → reg t (cqOff q 2) = reg s (cqOff q 2) ∧ t.hst = s.hst) := by
  have does := cqEnable_on (s := s) (q := q) on
  have apart : cqOff q 0 ≠ cqOff q 2 := cqOff_ne q (by decide)
  have good : cqGood v.toNat = true ↔ 1 ≤ bits v.toNat 5 1 ∧ bits v.toNat 5 1 ≤ 16 := decide_eq_true_iff
  have parts := enabledWord_parts s (cqOff q 0) (bits v.toNat 41 0) (cqGood v.toNat)
  have enable := enabledWord_enable s (cqOff q 0) (bits v.toNat 41 0) (cqGood v.toNat)
  have word0 : bits (reg (enabledWord s (cqOff q 0) (bits v.toNat 41 0) (cqGood v.toNat)) (cqOff q 0)) 41 1 = bits v.toNat 41 1 := by
    rw [enabledWord_reg, if_pos rfl, bits_cq_kept]
  have word2 := enabledWord_other s (bits v.toNat 41 0) (cqGood v.toNat) apart
  generalize enabledWord s (cqOff q 0) (bits v.toNat 41 0) (cqGood v.toNat) = u at *
  rw [← good]
  by_cases fresh : cqGood v.toNat = true ∧ bit (reg s (cqOff q 0)) 0 = false
  · rw [if_pos (by simp [fresh])] at does
    have kept := cqEmptied_reg u q apart.symm
    refine ⟨_, does, OnlyParts.trans parts (cqEmptied_parts u q) (by decide) (by decide), by rw [kept]; exact word0, by rw [kept, enable], fun _ _ => cqEmptied_shows u q, fun h => ?_⟩
    rcases h with h | h
    · exact absurd fresh.1 h
    · rw [fresh.2] at h
      exact absurd h (by decide)
  · rw [if_neg (by simpa using fresh)] at does
    exact ⟨_, does, OnlyParts.mono parts _ (by decide), word0, by rw [enable], fun g b => absurd ⟨g, b⟩ fresh, fun _ => ⟨word2, parts .hst (by decide)⟩⟩

/-- What a submission queue needs to be enabled. -/
def sqGood (s : State) (q v : Nat) : Bool :=
  decide (1 ≤ bits v 19 15 ∧ bits v 19 15 ≤ 16) && bit (reg s (cqOff (bits v 14 3) 0)) 0 && decide (bits (reg s (sqOff q 2)) 17 0 ≤ bits (reg s (sqOff q 2)) 35 18)

theorem sqEnable_on (on : bit v.toNat 0 = true) : exec (.queuePairEnable false q v) s = .next
    (if sqGood s q v.toNat && !bit (reg s (sqOff q 0)) 0 then setReg (enabledWord s (sqOff q 0) (bits v.toNat 19 0) (sqGood s q v.toNat)) (sqOff q 3) 0
      else enabledWord s (sqOff q 0) (bits v.toNat 19 0) (sqGood s q v.toNat)) := by
  have good : sqGood s q (bits v.toNat 19 0) = sqGood s q v.toNat := by
    unfold sqGood
    rw [bits_of_bits _ 19 15 19 (by decide), bits_of_bits _ 14 3 19 (by decide)]
  rw [← good]
  exact congrArg Host.Outcome.next (if_pos ((bit_of_bits v.toNat _).trans on))

theorem sqEnable_does (on : bit v.toNat 0 = true) :
    let okSq : Prop := (1 ≤ bits v.toNat 19 15 ∧ bits v.toNat 19 15 ≤ 16) ∧ bit (reg s (cqOff (bits v.toNat 14 3) 0)) 0 = true ∧ bits (reg s (sqOff q 2)) 17 0 ≤ bits (reg s (sqOff q 2)) 35 18
    ∃ t, exec (.queuePairEnable false q v) s = .next t ∧ OnlyParts [.regs] s t ∧ bits (reg t (sqOff q 0)) 19 1 = bits v.toNat 19 1 ∧ (bit (reg t (sqOff q 0)) 0 = true ↔ okSq) ∧
      reg t (sqOff q 3) = if okSq ∧ bit (reg s (sqOff q 0)) 0 = false then 0 else reg s (sqOff q 3) := by
  intro okSq
  have does := sqEnable_on (s := s) (q := q) on
  have apart : sqOff q 0 ≠ sqOff q 3 := sqOff_ne q (by decide)
  have good : sqGood s q v.toNat = true ↔ okSq := by
    simp only [sqGood, Bool.and_eq_true, decide_eq_true_eq]
    exact and_assoc
  have parts := enabledWord_parts s (sqOff q 0) (bits v.toNat 19 0) (sqGood s q v.toNat)
  have enable := enabledWord_enable s (sqOff q 0) (bits v.toNat 19 0) (sqGood s q v.toNat)
  have word0 : bits (reg (enabledWord s (sqOff q 0) (bits v.toNat 19 0) (sqGood s q v.toNat)) (sqOff q 0)) 19 1 = bits v.toNat 19 1 := by
    rw [enabledWord_reg, if_pos rfl, bits_sq_kept]
  have word3 := enabledWord_other s (bits v.toNat 19 0) (sqGood s q v.toNat) apart
  generalize enabledWord s (sqOff q 0) (bits v.toNat 19 0) (sqGood s q v.toNat) = u at *
  by_cases fresh : okSq ∧ bit (reg s (sqOff q 0)) 0 = false
  · rw [if_pos (by simp [good.2 fresh.1, fresh.2])] at does
    have kept := reg_setReg_other u 0 apart
    rw [if_pos fresh]
    exact ⟨_, does, OnlyParts.trans parts (setReg_parts u _ _) (by decide) (by decide), by rw [kept]; exact word0, by rw [kept, enable]; exact good, reg_setReg_same u _ 0⟩
  · rw [if_neg (by rw [← good] at fresh; simpa using fresh)] at does
    rw [if_neg fresh]
    exact ⟨_, does, parts, word0, by rw [enable]; exact good, word3⟩

/-- A submission queue still leads to a completion queue. -/
def CqUsed (s : State) (q : Nat) : Prop := bit (reg s (cqOff q 0)) 0 = true ∧ ∃ k < 4096, bit (reg s (sqOff k 0)) 0 = true ∧ sqCq s k = q

theorem cqUsed_iff {q : Nat} : (bit (reg s (cqOff q 0)) 0 && (List.range 4096).any (fun k => bit (reg s (sqOff k 0)) 0 && sqCq s k == q)) = true ↔ CqUsed s q := by
  unfold CqUsed
  simp only [Bool.and_eq_true, List.any_eq_true, List.mem_range, beq_iff_eq]

theorem cqDisable_does (off_ : bit v.toNat 0 = false) : ∃ t, exec (.queuePairEnable true q v) s = .next t ∧ OnlyParts [.regs] s t ∧
    (CqUsed s q → reg t (hstOff HST_CFG_REJECT_COUNT) = (reg s (hstOff HST_CFG_REJECT_COUNT) + 1) % 2 ^ 64 ∧ reg t (cqOff q 0) = reg s (cqOff q 0)) ∧
    (¬ CqUsed s q → reg t (cqOff q 0) = bits v.toNat 41 0) := by
  have gate : ¬ bit (bits v.toNat 41 0) 0 = true := by
    rw [bit_of_bits, off_]
    decide
  by_cases used : CqUsed s q
  · have apart : hstOff HST_CFG_REJECT_COUNT ≠ cqOff q 0 := by
      have := q.isLt
      unfold hstOff cqOff
      omega
    refine ⟨_, congrArg Host.Outcome.next ((if_neg gate).trans (if_pos (cqUsed_iff.2 used))), bump_parts s _ _, fun _ => ⟨?_, ?_⟩, fun h => absurd used h⟩
    · rw [reg_bump, if_pos rfl]
    · rw [reg_bump, if_neg apart]
  · have does : exec (.queuePairEnable true q v) s = .next (setReg s (cqOff q 0) (bits v.toNat 41 0)) :=
      congrArg Host.Outcome.next ((if_neg gate).trans (if_neg (fun h => used (cqUsed_iff.1 h))))
    refine ⟨_, does, setReg_parts s _ _, fun h => absurd h used, fun _ => ?_⟩
    rw [reg_setReg_same, bits_mod_word _ _ (by decide)]

/-- A submission queue has tasks that it fetched and that have not completed. -/
def SqRuns (s : State) (q : Nat) : Prop := fetched s q ≠ [] ∨ ∃ k ∈ busySlots s, (slotOf s k).sq = q

theorem sqRuns_iff {q : Nat} : (!((fetched s q).isEmpty && !(busySlots s).any (fun k => (slotOf s k).sq == q))) = true ↔ SqRuns s q := by
  unfold SqRuns
  simp only [Bool.not_eq_true', Bool.and_eq_false_iff, Bool.not_eq_false', List.isEmpty_eq_false_iff, List.any_eq_true, beq_iff_eq, ne_eq]

theorem dropCancels_parts (s : State) (q : Nat) : OnlyParts [.hst] s (dropCancels s q) := by
  refine Within.onlyParts (l := [.hst]) (back := false) (dropCancels_within rfl s q .refl)
theorem dropCancels_keeps {β : Type} (g : Hst → β) (s : State) (q : Nat) (h : ∀ x c r, g { x with cancels := c, cancelResult := r } = g x) : g (dropCancels s q).hst = g s.hst := by
  unfold dropCancels
  dsimp only
  split
  · rfl
  · exact h ..
/-- Where no cancel waits for a task of the queue, none is dropped. -/
theorem dropCancels_none {q : Nat} (h : ∀ c ∈ s.hst.cancels, c.1 ≠ q) : dropCancels s q = s := by
  have all_ : s.hst.cancels.filter (fun c => c.1 != q) = s.hst.cancels := List.filter_eq_self.2 (fun c hc => bne_iff_ne.2 (h c hc))
  exact if_pos (by rw [all_])

theorem sqDisable_does (off_ : bit v.toNat 0 = false) : ∃ t, exec (.queuePairEnable false q v) s = .next t ∧ OnlyParts [.regs, .hst] s t ∧
    bits (reg t (sqOff q 0)) 19 1 = bits v.toNat 19 1 ∧
    ((bit (reg s (sqOff q 0)) 0 = true ∧ SqRuns s q) → bit (reg t (sqOff q 0)) 0 = true ∧ q.val ∈ t.hst.closing) ∧
    (¬ (bit (reg s (sqOff q 0)) 0 = true ∧ SqRuns s q) → bit (reg t (sqOff q 0)) 0 = false ∧ t.hst.closing = s.hst.closing ∧ t.hst.slots = s.hst.slots ∧
      ((∀ c ∈ s.hst.cancels, c.1 ≠ q) → t.hst = s.hst)) := by
  have gate : ¬ bit (bits v.toNat 19 0) 0 = true := by
    rw [bit_of_bits, off_]
    decide
  by_cases runs : bit (reg s (sqOff q 0)) 0 = true ∧ SqRuns s q
  · have does : exec (.queuePairEnable false q v) s = .next (let u := enabledWord s (sqOff q 0) (bits v.toNat 19 0) true
        { u with hst := { u.hst with closing := q.val :: u.hst.closing.filter (· != q.val) } }) :=
      congrArg Host.Outcome.next ((if_neg gate).trans (if_pos (Bool.and_eq_true_iff.2 ⟨runs.1, sqRuns_iff.2 runs.2⟩)))
    have parts := enabledWord_parts s (sqOff q 0) (bits v.toNat 19 0) true
    have enable := enabledWord_enable s (sqOff q 0) (bits v.toNat 19 0) true
    have word0 : bits (reg (enabledWord s (sqOff q 0) (bits v.toNat 19 0) true) (sqOff q 0)) 19 1 = bits v.toNat 19 1 := by
      rw [enabledWord_reg, if_pos rfl, bits_sq_kept]
    generalize enabledWord s (sqOff q 0) (bits v.toNat 19 0) true = u at *
    have closes : OnlyParts [.hst] u { u with hst := { u.hst with closing := q.val :: u.hst.closing.filter (· != q.val) } } := fun r hr => by
      cases r <;> first | (exfalso; simp at hr; done) | rfl
    exact ⟨_, does, OnlyParts.trans parts closes (by decide) (by decide), word0, fun _ => ⟨enable, List.mem_cons_self ..⟩, fun h => absurd runs h⟩
  · have rests : ¬ (bit (reg s (sqOff q 0)) 0 && !((fetched s q).isEmpty && !(busySlots s).any (fun k => (slotOf s k).sq == q.val))) = true :=
      fun h => runs ⟨(Bool.and_eq_true_iff.1 h).1, sqRuns_iff.1 (Bool.and_eq_true_iff.1 h).2⟩
    have parts := OnlyParts.trans (setReg_parts s (sqOff q 0) (bits v.toNat 19 0)) (dropCancels_parts _ q) (n := [.regs, .hst]) (by decide) (by decide)
    have word : reg (dropCancels (setReg s (sqOff q 0) (bits v.toNat 19 0)) q) (sqOff q 0) = bits v.toNat 19 0 := by
      rw [reg_congr (dropCancels_parts _ _ .regs (by decide)), reg_setReg_same, bits_mod_word _ _ (by decide)]
    have does : exec (.queuePairEnable false q v) s = .next (dropCancels (setReg s (sqOff q 0) (bits v.toNat 19 0)) q) := congrArg Host.Outcome.next ((if_neg gate).trans (if_neg rests))
    refine ⟨_, does, parts, ?_, fun h => absurd h runs, fun _ => ⟨?_, ?_, ?_, fun none_ => ?_⟩⟩
    · rw [word, bits_of_bits _ 19 1 19 (by decide)]
    · rw [word, bit_of_bits, off_]
    · exact dropCancels_keeps (·.closing) _ _ (fun _ _ _ => rfl)
    · exact dropCancels_keeps (·.slots) _ _ (fun _ _ _ => rfl)
    · rw [dropCancels_none (s := setReg s (sqOff q 0) (bits v.toNat 19 0)) none_]
      rfl

/-! The aggregation time (R417). -/

/-- The state in which a completion queue has no entry that was not told of. -/
def signalled (s : State) (q : Nat) : State := { s with hst := { s.hst with unsignalled := tdel s.hst.unsignalled q } }

/-- The state that has counted a message over MSI-X. -/
def msixCounted (s : State) (v : Nat) : State := { s with hst := { s.hst with msixSent := s.hst.msixSent + b2n (!bit (reg s (msixOff v 1)) 32) } }
theorem sendMsix_eq (s : State) (v : Nat) : sendMsix s v = if bit (reg s (msixOff v 1)) 32 then setReg (msixCounted s v) (pbaOff v) (reg s (pbaOff v) ||| 2 ^ (v % 64)) else emit (msixCounted s v) (.msix v) := rfl

theorem sendMsix_sends (u : State) (vec : Nat) (open_ : bit (reg u (msixOff vec 1)) 32 = false) : (sendMsix u vec).out = .msix vec :: u.out ∧ (sendMsix u vec).regs = u.regs := by
  rw [sendMsix_eq, open_]
  exact ⟨rfl, rfl⟩
theorem sendMsix_pends (u : State) (vec : Nat) (masked : bit (reg u (msixOff vec 1)) 32 = true) :
    (sendMsix u vec).out = u.out ∧ bit (reg (sendMsix u vec) (pbaOff vec)) (vec % 64) = true := by
  have low : vec % 64 < 64 := Nat.mod_lt _ (by decide)
  rw [sendMsix_eq, if_pos masked, reg_setReg_same]
  refine ⟨rfl, ?_⟩
  unfold bit
  rw [Nat.testBit_mod_two_pow, decide_eq_true low, Bool.true_and]
  exact bit_or_pin _ _
theorem sendMsix_parts (u : State) (vec : Nat) : OnlyParts [.regs, .hst, .out] u (sendMsix u vec) :=
  Within.onlyParts (l := [.regs, .hst, .out]) (back := false) (sendMsix_within rfl u vec .refl)
theorem sendMsix_unsignalled (u : State) (vec : Nat) : (sendMsix u vec).hst.unsignalled = u.hst.unsignalled := by
  unfold sendMsix
  dsimp only
  split <;> rfl

theorem signalCq_told {s : State} {q : Nat} (tells : bit (reg s (cqOff q 0)) 17 = true) : signalCq s q = sendMsix (signalled s q) (bits (reg s (cqOff q 0)) 16 6) := if_pos tells
theorem signalCq_quiet {s : State} {q : Nat} (quiet : bit (reg s (cqOff q 0)) 17 = false) : signalCq s q = signalled s q :=
  if_neg (fun tells => Bool.false_ne_true (quiet.symm.trans tells))

theorem aggregation_none (h : tfind s.hst.unsignalled q = none) : exec (.msixAggregationTimeout q) s = .next s := by
  show execMsixAggregationTimeout q s = _
  unfold execMsixAggregationTimeout
  rw [h]
theorem aggregation_some {n since : Nat} (h : tfind s.hst.unsignalled q = some (n, since)) : exec (.msixAggregationTimeout q) s =
    .next (if bits (reg s (cqOff q 0)) 41 26 * 100 ≠ 0 ∧ since + bits (reg s (cqOff q 0)) 41 26 * 100 ≤ now s then signalCq s q else s) := by
  show execMsixAggregationTimeout q s = _
  unfold execMsixAggregationTimeout
  rw [h]

theorem aggregation_due {n since : Nat} (h : tfind s.hst.unsignalled q = some (n, since)) (timed : bits (reg s (cqOff q 0)) 41 26 * 100 ≠ 0)
    (passed : since + bits (reg s (cqOff q 0)) 41 26 * 100 ≤ now s) : ∃ t, exec (.msixAggregationTimeout q) s = .next t ∧ OnlyParts [.regs, .hst, .out] s t ∧
      tfind t.hst.unsignalled q = none ∧ let vec := bits (reg s (cqOff q 0)) 16 6
      (bit (reg s (cqOff q 0)) 17 = true → bit (reg s (msixOff vec 1)) 32 = false → t.out = .msix vec :: s.out ∧ t.regs = s.regs) ∧
      (bit (reg s (cqOff q 0)) 17 = true → bit (reg s (msixOff vec 1)) 32 = true → t.out = s.out ∧ bit (reg t (pbaOff vec)) (vec % 64) = true) ∧
      (bit (reg s (cqOff q 0)) 17 = false → t.out = s.out ∧ t.regs = s.regs) := by
  have does := (aggregation_some h).trans (congrArg Host.Outcome.next (if_pos ⟨timed, passed⟩))
  have parts : OnlyParts [.hst] s (signalled s q) := fun r hr => by cases r <;> first | (exfalso; simp at hr; done) | rfl
  have gone : tfind (signalled s q).hst.unsignalled q = none := tfind_tdel_self ..
  rcases Bool.eq_false_or_eq_true (bit (reg s (cqOff q 0)) 17) with tells | quiet
  · rw [signalCq_told tells] at does
    refine ⟨_, does, OnlyParts.trans parts (sendMsix_parts _ _) (by decide) (by decide), by rw [sendMsix_unsignalled]; exact gone, fun _ => sendMsix_sends (signalled s q) _,
      fun _ => sendMsix_pends (signalled s q) _, fun quiet => ?_⟩
    rw [tells] at quiet
    exact absurd quiet (by decide)
  · rw [signalCq_quiet quiet] at does
    refine ⟨_, does, OnlyParts.mono parts _ (by decide), gone, fun tells => ?_, fun tells => ?_, fun _ => ⟨rfl, rfl⟩⟩ <;> exact absurd (tells.symm.trans quiet) (by decide)

end

/-- Settles O53: a doorbell that names an entry in use and a place within it moves TAIL or HEAD, and any other is dropped. ENABLE reads as its checks leave it, and a queue
that still has work refuses its end, or is closed once that work is done. A HEAD equal to the one held frees nothing (log entry 55), and the entries that are held are
counted beside the queue (log entry 16). -/
theorem queuePairs : Obligations.QueuePairs := by
  refine ⟨fun q v s => ⟨sqTail_moves, fun bad => ⟨_, congrArg Host.Outcome.next (tailDoorbell_drops bad), doorbell_drops s q⟩, cqHead_moves,
    fun bad => ⟨_, congrArg Host.Outcome.next (headDoorbell_drops bad), doorbell_drops s q⟩, fun f w => doorbell_eq w, fun on => ⟨cqEnable_does on, sqEnable_does on⟩,
    fun off_ => ⟨cqDisable_does off_, sqDisable_does off_⟩⟩, fun cq s => ⟨aggregation_none, fun n since found => ⟨fun early => ?_, aggregation_due found⟩⟩⟩
  exact (aggregation_some found).trans (congrArg Host.Outcome.next (if_neg (by omega)))

end Sys2Proof.Machine
end

section
/-! SUPPORT. Messages that look for a port, and tasks that end with them (15 R378, R383). -/

namespace Sys2Proof.Machine

open Sys2Proof Sys2Proof.Safety

theorem updPort_parts (s : State) (p : Nat) (f : Port → Port) : OnlyParts [.ports] s (updPort s p f) := fun r hr => by cases r <;> first | (exfalso; simp at hr; done) | rfl
theorem port_updPort_same (s : State) (p : Nat) (f : Port → Port) : port (updPort s p f) p = f (port s p) := (port_updPort ..).trans (if_pos rfl)
theorem port_updPort_other (s : State) {p q : Nat} (f : Port → Port) (h : q ≠ p) : port (updPort s p f) q = port s q := (port_updPort ..).trans (if_neg (Ne.symm h))
theorem slotOf_of_hst {s t : State} (h : t.hst = s.hst) (k : Nat) : slotOf t k = slotOf s k := by
  unfold slotOf
  rw [h]

theorem failSend_parts (s : State) (die status : Nat) (task : Option Nat) : OnlyParts [.cores, .hst, .net] s (failSend s die status task) :=
  Within.onlyParts (l := [.cores, .hst, .net]) (back := false) (failSend_within rfl s die status task .refl)
theorem failSend_some (s : State) (die status k : Nat) : failSend s die status (some k) = endTask s k status die none false := rfl
theorem failSend_port (s : State) (die status : Nat) (task : Option Nat) (p : Nat) : port (failSend s die status task) p = port s p :=
  port_congr (failSend_parts s die status task .ports (by decide)) p
/-- A task that another one's message ends is left, and so is one that has ended. -/
theorem failSend_slotOf (s : State) (die status : Nat) (task : Option Nat) (k : Nat) (h : task ≠ some k ∨ (slotOf s k).ending = true) :
    slotOf (failSend s die status task) k = slotOf s k := by
  cases task with
  | none => rfl
  | some j => exact endTask_ended s j k status die none false (h.imp_left (fun ne same => ne (by rw [same])))

/-! Ports that messages are bound to (R378). -/

theorem upPort_up {s : State} {n p : Nat} (h : upPort s n = some p) : (port s p).state = 3 := by
  have found := List.find?_some h
  simp only [Bool.and_eq_true, beq_iff_eq] at found
  exact found.2

/-- The port that a message of a strand joins. -/
def boundPort (s : State) (n : Nat) : Option Nat := match strand s n with
  | some x => match x.port with
    | some p => if (port s p).state = 0 then upPort s n else some p
    | none => upPort s n
  | none => upPort s n

theorem boundPort_notDown {s : State} {n p : Nat} (h : boundPort s n = some p) : (port s p).state ≠ 0 := by
  have up (h : upPort s n = some p) : (port s p).state ≠ 0 := by
    rw [upPort_up h]
    decide
  unfold boundPort at h
  split at h
  · split at h
    · split at h
      · exact up h
      · next open_ => exact Option.some.inj h ▸ open_
    · exact up h
  · exact up h

theorem bindMsg_waits {s : State} {m : SentMsg} (h : boundPort s m.strand = none) : bindMsg s m = { s with unsent := s.unsent ++ [m] } := by
  show (match boundPort s m.strand with | none => _ | some p => _) = _
  rw [h]
theorem bindMsg_binds {s : State} {m : SentMsg} {p : Nat} (h : boundPort s m.strand = some p) :
    bindMsg s m = if m.kind = 3 ∧ (port s p).dx8 = true then failSend s m.die stLinkClassUnsupported m.task
      else updPort (updStrand s m.strand (fun x => { x with port := some p })) p (fun x => { x with sending := x.sending ++ [m] }) := by
  show (match boundPort s m.strand with | none => _ | some p => _) = _
  rw [h]

/-- A message that joins a port changes only what the port has to send. -/
theorem bindMsg_keeps {β : Type} (g : Port → β) (s : State) (m : SentMsg) (q : Nat) (h : ∀ x l, g { x with sending := l } = g x) : g (port (bindMsg s m) q) = g (port s q) := by
  cases found : boundPort s m.strand with
  | none =>
    rw [bindMsg_waits found]
    rfl
  | some p =>
    rw [bindMsg_binds found]
    split
    · rw [failSend_port]
    · have kept : port (updStrand s m.strand (fun x => { x with port := some p })) = port s := by
        funext r
        exact port_congr (updStrand_parts s m.strand _ .ports (by decide)) r
      rw [port_updPort, kept]
      split
      · next same =>
        subst same
        exact h ..
      · rfl

/-- No message joins a port that is DOWN. -/
theorem bindMsg_down {s : State} (m : SentMsg) {q : Nat} (h : (port s q).state = 0) : port (bindMsg s m) q = port s q := by
  cases found : boundPort s m.strand with
  | none =>
    rw [bindMsg_waits found]
    rfl
  | some p =>
    have other : q ≠ p := by
      rintro rfl
      exact boundPort_notDown found h
    rw [bindMsg_binds found]
    split
    · rw [failSend_port]
    · rw [port_updPort_other _ _ other]
      exact port_congr (updStrand_parts s m.strand _ .ports (by decide)) q

theorem bindMsg_slotOf {s : State} (m : SentMsg) {k : Nat} (h : (slotOf s k).ending = true) : slotOf (bindMsg s m) k = slotOf s k := by
  cases found : boundPort s m.strand with
  | none =>
    rw [bindMsg_waits found]
    rfl
  | some p =>
    rw [bindMsg_binds found]
    split
    · exact failSend_slotOf _ _ _ _ _ (.inr h)
    · show slotOf (updStrand s m.strand _) k = _
      unfold updStrand
      split <;> rfl

end Sys2Proof.Machine
end

section
/-! PROOF. The states of a Limund port (15 R366, R367, R375, R383). -/

namespace Sys2Proof.Machine

open Sys2Proof Sys2Proof.Safety

/-! A port that goes DOWN (R383). -/

/-- A port holds no message and is DOWN. -/
structure PortEmpty (x : Port) : Prop where
  state : x.state = 0
  gen : x.gen = 0
  width : x.width = 0
  sending : x.sending = []
  sent : x.sent = []
  receiving : x.receiving = []

/-- Messages whose end a port's own end tells the tasks of. -/
def goneFrom (x : Port) : List SentMsg := (x.sent ++ x.sending.filter (fun m => m.started || m.mcast)).filter (·.posted)

section
variable {p : Nat} {s : State}

theorem portDown_shape (s : State) (p : Nat) : ∃ u kept, portDown s p = each kept (each (goneFrom (port s p)) u (fun s m => failSend s (lnkDie p) stLinkDown m.task)) bindMsg ∧
    OnlyParts [.ports] s u ∧ PortEmpty (port u p) ∧ (port u p).retrainFails = (port s p).retrainFails := by
  refine ⟨_, _, rfl, OnlyParts.trans (updPort_parts s p _) (updPort_parts _ p _) (by decide) (by decide), ?_, ?_⟩ <;> rw [port_updPort_same, portToDown, port_updPort_same]
  exact ⟨rfl, rfl, rfl, rfl, rfl, rfl⟩

/-- Of a list of messages each ends its task, with the first status that reaches it. -/
theorem failed_ends (l : List SentMsg) (s : State) (die status k : Nat) {m : SentMsg} (listed : m ∈ l) (task : m.task = some k) (busy : (slotOf s k).busy = true)
    (open_ : (slotOf s k).written = false) : let t := each l s (fun s m => failSend s die status m.task)
    (slotOf t k).ending = true ∧ ((slotOf s k).ending = false → (slotOf t k).status = status) := by
  have stays (l : List SentMsg) (u : State) (ended : (slotOf u k).ending = true) : slotOf (each l u (fun s m => failSend s die status m.task)) k = slotOf u k :=
    each_stays (P := fun v => slotOf v k = slotOf u k) (fun v n h => (failSend_slotOf v _ _ _ _ (.inr (by rw [h]; exact ended))).trans h) l rfl
  intro t
  rcases Bool.eq_false_or_eq_true (slotOf s k).ending with ended | going
  · have same : slotOf t k = slotOf s k := stays l s ended
    rw [same]
    exact ⟨ended, fun h => absurd (h.symm.trans ended) (by decide)⟩
  · suffices h : (slotOf t k).ending = true ∧ (slotOf t k).status = status from ⟨h.1, fun _ => h.2⟩
    induction l generalizing s with
    | nil => exact absurd listed (by simp)
    | cons n l ih =>
      have step : t = each l (failSend s die status n.task) (fun s m => failSend s die status m.task) := rfl
      rw [step]
      by_cases here : n.task = some k
      · have ended := (endTask_slotOf s k status die none false busy going open_ k).trans (if_pos rfl)
        rw [here, failSend_some, stays l _ (by rw [ended]), ended]
        exact ⟨rfl, rfl⟩
      · have other : m ∈ l := (List.mem_cons.1 listed).resolve_left (fun same => here (same ▸ task))
        have kept := failSend_slotOf s die status n.task k (.inl here)
        exact ih _ other (by rw [kept]; exact busy) (by rw [kept]; exact open_) (by rw [kept]; exact going)

/-- What a port's end leaves: nothing to send, and the tasks of its messages ended (R383). -/
structure WentDown (s t : State) (p : Nat) : Prop where
  empty : PortEmpty (port t p)
  fails : (port t p).retrainFails = (port s p).retrainFails
  tasks : ∀ m, m ∈ (port s p).sent ∨ m ∈ (port s p).sending → m.posted = true → m ∈ (port s p).sent ∨ m.started = true ∨ m.mcast = true →
    ∀ k, m.task = some k → (slotOf s k).busy = true → (slotOf s k).written = false → (slotOf t k).ending = true ∧
      ((slotOf s k).ending = false → (slotOf t k).status = stLinkDown)

theorem portDown_down (s : State) (p : Nat) : WentDown s (portDown s p) p := by
  obtain ⟨u, kept, shape, parts, empty, fails⟩ := portDown_shape s p
  rw [shape]
  have told : port (each (goneFrom (port s p)) u (fun s m => failSend s (lnkDie p) stLinkDown m.task)) p = port u p := each_keeps (port · p) _ _ _ (fun v m _ => failSend_port v _ _ _ p)
  have ends (m : SentMsg) := failed_ends (goneFrom (port s p)) u (lnkDie p) stLinkDown (m := m)
  generalize each (goneFrom (port s p)) u (fun s m => failSend s (lnkDie p) stLinkDown m.task) = v at *
  have same : port (each kept v bindMsg) p = port u p := each_stays (P := fun w => port w p = port u p)
    (fun w m h => (bindMsg_down m (by rw [h]; exact empty.state)).trans h) kept told
  refine ⟨by rw [same]; exact empty, by rw [same]; exact fails, fun m there posted gone k task busy open_ => ?_⟩
  have slots : slotOf u k = slotOf s k := slotOf_of_hst (parts .hst (by decide)) k
  have listed : m ∈ goneFrom (port s p) := by
    unfold goneFrom
    simp only [List.mem_filter, List.mem_append, Bool.or_eq_true]
    tauto
  obtain ⟨ended, status⟩ := ends m k listed task (by rw [slots]; exact busy) (by rw [slots]; exact open_)
  have stays : slotOf (each kept v bindMsg) k = slotOf v k := each_stays (P := fun w => slotOf w k = slotOf v k)
    (fun w m h => (bindMsg_slotOf m (by rw [h]; exact ended)).trans h) kept rfl
  rw [stays]
  exact ⟨ended, fun going => status (by rw [slots]; exact going)⟩

theorem portDown_parts (s : State) (p : Nat) : OnlyParts [.cores, .hst, .ports, .unsent, .net] s (portDown s p) :=
  Within.onlyParts (l := [.cores, .hst, .ports, .unsent, .net]) (back := false) (portDown_within rfl s p .refl)

/-! A port that comes UP. -/

/-- A port is UP and has DIGEST to send. -/
structure CameUp (s t : State) (p dev : Nat) : Prop where
  state : (port t p).state = 3
  fails : (port t p).retrainFails = 0
  digest : (port t p).control = (port s p).control ++ [control 4 dev (ownDev s) (s.dict.epoch % 2 ^ 32 + digest64 s * 2 ^ 32)]

/-- A port that has come UP at a time, with a message to send. -/
def upFrom (x : Port) (time m : Nat) : Port := { x with state := 3, since := time, retrainFails := 0, control := x.control ++ [m] }
/-- The DIGEST of a device to a peer (R391). -/
def digestTo (s : State) (dev : Nat) : Nat := control 4 dev (ownDev s) (s.dict.epoch % 2 ^ 32 + digest64 s * 2 ^ 32)

theorem portIsUp_keeps {β : Type} (g : Port → β) (s : State) (p : Nat) (h : ∀ x l, g { x with sending := l } = g x) :
    g (port (portIsUp s p) p) = g (upFrom (port s p) (now s) (digestTo s (port s p).peerDev)) := by
  have begun : port (sendDigest (updPort s p (fun x => { x with state := 3, since := now s, retrainFails := 0 })) p) p = upFrom (port s p) (now s) (digestTo s (port s p).peerDev) := by
    unfold sendDigest sendControl
    rw [port_updPort_same, port_updPort_same]
    rfl
  unfold portIsUp bindSends
  rw [each_keeps (fun v => g (port v p)) _ _ _ (fun v m _ => bindMsg_keeps g v m p h), ← begun]
  rfl
theorem portIsUp_up (s : State) (p : Nat) : CameUp s (portIsUp s p) p (port s p).peerDev :=
  ⟨portIsUp_keeps (·.state) s p (fun _ _ => rfl), portIsUp_keeps (·.retrainFails) s p (fun _ _ => rfl), portIsUp_keeps (·.control) s p (fun _ _ => rfl)⟩
theorem portIsUp_parts (s : State) (p : Nat) : OnlyParts [.cores, .hst, .ports, .unsent, .net] s (portIsUp s p) :=
  Within.onlyParts (l := [.cores, .hst, .ports, .unsent, .net]) (back := false) (portIsUp_within rfl s p .refl)

/-! Training (R366). -/

/-- A port alone has begun to train. -/
def Trains (s : State) (c : Instr) (p fails : Nat) : Prop := ∃ t, exec c s = .next t ∧ OnlyParts [.ports] s t ∧ (∀ r, r ≠ p → port t r = port s r) ∧
  port t p = { port s p with state := 1, since := now s, gen := 0, width := 0, attempt := 0, retrainFails := fails }

theorem trains_of_start {c : Instr} (h : exec c s = .next (startTraining s p)) : Trains s c p (port s p).retrainFails :=
  ⟨_, h, updPort_parts s p _, fun _ hq => port_updPort_other s _ hq, port_updPort_same ..⟩

theorem mayTrain_iff : mayTrain s p = true ↔ genMax s p ≠ 0 ∧ dieFailed s (88 + p / 2) = false := by
  unfold mayTrain lnkDie
  simp only [Bool.and_eq_true, bne_iff_ne, Bool.not_eq_true', ne_eq]

end

section
variable {p : PortId} {s : State}

theorem limundTraining_starts (down : (port s p).state = 0) (enabled : genMax s p ≠ 0) (there : dieFailed s (88 + p / 2) = false) :
    Trains s (.limundTrainingStart p) p (port s p).retrainFails ∧ ((port s p).since + 100000000 ≤ now s → Trains s (.downRetryTimer p) p (port s p).retrainFails) :=
  ⟨trains_of_start (congrArg Host.Outcome.next (if_pos ⟨down, mayTrain_iff.2 ⟨enabled, there⟩⟩)),
    fun late => trains_of_start (congrArg Host.Outcome.next (if_pos ⟨down, mayTrain_iff.2 ⟨enabled, there⟩, late⟩))⟩

theorem limundTraining_rests (h : (port s p).state ≠ 0 ∨ genMax s p = 0 ∨ dieFailed s (88 + p / 2) = true) :
    exec (.limundTrainingStart p) s = .next s ∧ exec (.downRetryTimer p) s = .next s := by
  have none_ : ¬ ((port s p).state = 0 ∧ mayTrain s p = true) := by
    rw [mayTrain_iff]
    rintro ⟨down, enabled, there⟩
    rcases h with h | h | h
    · exact h down
    · exact enabled h
    · rw [there] at h
      exact absurd h (by decide)
  exact ⟨congrArg Host.Outcome.next (if_neg none_), congrArg Host.Outcome.next (if_neg (fun h => none_ ⟨h.1, h.2.1⟩))⟩

theorem attemptOf_eq (g i : Nat) : attemptOf g i = match i with | 0 => (g, 8) | 1 => (1, 8) | 2 => (g, 4) | _ => (1, 4) := by
  match i with
  | 0 => rfl
  | 1 => rfl
  | 2 => rfl
  | n + 3 => simp [attemptOf]

/-- The words of a LINK_MGMT message that a peer reads (R374). -/
theorem linkMgmtMsg_fields (u : State) (p : Nat) : linkMgmtMsg u p % 256 = 9 ∧ bits (linkMgmtMsg u p) 31 20 = ownDev u % 4096 ∧ bits (linkMgmtMsg u p) 33 32 = genMax u p := by
  have small : genMax u p < 4 := (bits_lt _ _ _).trans_le (by rw [show 2 * p + 1 + 1 - 2 * p = 2 by omega]; decide)
  unfold linkMgmtMsg control bits
  simp only [Nat.shiftRight_eq_div_pow]
  generalize genMax u p = g at *
  norm_num
  omega

/-- The state of a port that has aligned, before its LINK_MGMT leaves. -/
def aligned (s : State) (p : Nat) (a : Nat × Nat) : State := updPort s p (fun x => { x with state := 2, since := now s, gen := a.1, width := a.2, mgmtSent := true, lastMgmt := now s })

theorem trainingDone_aligned {ok : Bool} {peer : Fin 3} (training : (port s p).state = 1) (good : ok = true) (common : min (genMax s p) peer.val ≠ 0) :
    let a := attemptOf (min (genMax s p) peer.val) (port s p).attempt
    ∃ t m, exec (.limundTrainingDone p ok peer) s = .next t ∧ OnlyParts [.ports] s t ∧ (∀ q, q ≠ p.val → port t q = port s q) ∧
      port t p = { port s p with state := 2, since := now s, gen := a.1, width := a.2, mgmtSent := true, lastMgmt := now s, control := (port s p).control ++ [m] } ∧ m % 256 = 9 ∧
      bits m 31 20 = ownDev s % 4096 ∧ bits m 33 32 = genMax s p := by
  intro a
  have does : exec (.limundTrainingDone p ok peer) s = .next (sendControl (aligned s p a) p (linkMgmtMsg (aligned s p a) p)) :=
    congrArg Host.Outcome.next ((if_neg (by rw [training]; decide)).trans (if_pos ⟨good, common⟩))
  refine ⟨_, _, does, OnlyParts.trans (updPort_parts s p _) (updPort_parts _ p _) (by decide) (by decide), fun q hq => ?_, ?_, linkMgmtMsg_fields (aligned s p a) p⟩
  · exact (port_updPort_other _ _ hq).trans (port_updPort_other _ _ hq)
  · unfold sendControl aligned
    rw [port_updPort_same, port_updPort_same]

theorem trainingDone_fails {ok : Bool} {peer : Fin 3} (training : (port s p).state = 1) (bad : ok = false ∨ min (genMax s p) peer.val = 0) :
    ∃ t, exec (.limundTrainingDone p ok peer) s = .next t ∧ reg t (portOff p LNK_TRAIN_FAIL_COUNT) = (reg s (portOff p LNK_TRAIN_FAIL_COUNT) + 1) % 2 ^ 64 ∧
      ((port s p).attempt ≠ 3 → OnlyParts [.regs, .ports] s t ∧ (∀ q, q ≠ p.val → port t q = port s q) ∧ port t p = { port s p with attempt := (port s p).attempt + 1 }) ∧
      ((port s p).attempt = 3 → OnlyParts [.regs, .cores, .hst, .ports, .unsent, .net] s t ∧ WentDown s t p) := by
  have does : exec (.limundTrainingDone p ok peer) s = .next (if (port s p).attempt = 3 then portDown (bump s (portOff p LNK_TRAIN_FAIL_COUNT) 1) p
      else updPort (bump s (portOff p LNK_TRAIN_FAIL_COUNT) 1) p (fun x => { x with attempt := x.attempt + 1 })) :=
    congrArg Host.Outcome.next ((if_neg (by rw [training]; decide)).trans (if_neg (by rintro ⟨good, common⟩; rcases bad with h | h; exacts [absurd (good.symm.trans h) (by decide), common h])))
  have counted := bump_parts s (portOff p LNK_TRAIN_FAIL_COUNT) 1
  have count : reg (bump s (portOff p LNK_TRAIN_FAIL_COUNT) 1) (portOff p LNK_TRAIN_FAIL_COUNT) = (reg s (portOff p LNK_TRAIN_FAIL_COUNT) + 1) % 2 ^ 64 := (reg_bump ..).trans (if_pos rfl)
  have ports : port (bump s (portOff p LNK_TRAIN_FAIL_COUNT) 1) = port s := rfl
  have slots : slotOf (bump s (portOff p LNK_TRAIN_FAIL_COUNT) 1) = slotOf s := rfl
  generalize bump s (portOff p LNK_TRAIN_FAIL_COUNT) 1 = u at *
  by_cases last : (port s p).attempt = 3
  · rw [if_pos last] at does
    have down := portDown_down u p
    refine ⟨_, does, (reg_congr (portDown_parts u p .regs (by decide)) _).trans count, fun h => absurd last h,
      fun _ => ⟨OnlyParts.trans counted (portDown_parts u p) (by decide) (by decide), down.empty, by rw [down.fails, ports], ?_⟩⟩
    have tasks := down.tasks
    rw [ports, slots] at tasks
    exact tasks
  · rw [if_neg last] at does
    refine ⟨_, does, count, fun _ => ⟨OnlyParts.trans counted (updPort_parts u p _) (by decide) (by decide), fun q hq => ?_, ?_⟩, fun h => absurd h last⟩
    · rw [port_updPort_other _ _ hq, ports]
    · rw [port_updPort_same, ports]

/-! CONFIG (R367, R375, R392). -/

section
variable {gm w : Nat} {dx8 : Bool} {dev : BitVec 12} {pp : BitVec 4} {echo : Word}

/-- The state of a port that knows its peer and its delay. -/
def met (s : State) (p : Nat) (dx8 : Bool) (dev pp echo : Nat) : State :=
  setReg (updPort s p (fun x => { x with dx8 := dx8, peerDev := dev, peerPort := pp, gen := if dx8 then 1 else x.gen })) (portOff p LNK_DELAY_NS) ((now s - echo) / 2)

theorem met_parts (s : State) (p : Nat) (dx8 : Bool) (dev pp echo : Nat) : OnlyParts [.regs, .ports] s (met s p dx8 dev pp echo) :=
  OnlyParts.trans (updPort_parts s p _) (setReg_parts _ _ _) (by decide) (by decide)
theorem met_port (s : State) (p : Nat) (dx8 : Bool) (dev pp echo : Nat) :
    port (met s p dx8 dev pp echo) p = { port s p with dx8 := dx8, peerDev := dev, peerPort := pp, gen := if dx8 then 1 else (port s p).gen }  := by
  unfold met
  rw [setReg_port_of, port_updPort_same]
theorem met_other (s : State) {p q : Nat} (dx8 : Bool) (dev pp echo : Nat) (h : q ≠ p) : port (met s p dx8 dev pp echo) q = port s q := by
  unfold met
  rw [setReg_port_of, port_updPort_other _ _ h]
theorem met_delay (s : State) (p : Nat) (dx8 : Bool) (dev pp echo : Nat) : reg (met s p dx8 dev pp echo) (portOff p LNK_DELAY_NS) = (now s - echo) / 2 % 2 ^ 64 := reg_setReg_same ..

theorem linkMgmt_does (config : (port s p).state = 2) : ∃ t, exec (.linkMgmt p gm w dx8 dev pp echo) s = .next t ∧ (port t p).peerDev = dev.toNat ∧ (port t p).peerPort = pp.toNat ∧
    (port t p).dx8 = dx8 ∧ (port t p).gen = (if dx8 then 1 else (port s p).gen) ∧ reg t (portOff p LNK_DELAY_NS) = (now s - echo.toNat) / 2 % 2 ^ 64 ∧
    (dev.toNat = ownDev s → (port t p).state = 2 ∧ SentEvent s t (88 + p / 2) 0x703 2 [p.val, dev.toNat]) ∧
    (dev.toNat ≠ ownDev s → (port s p).mgmtSent = false → OnlyParts [.regs, .ports] s t ∧ (∀ q, q ≠ p.val → port t q = port s q) ∧ (port t p).state = 2) ∧
    (dev.toNat ≠ ownDev s → (port s p).mgmtSent = true → CameUp s t p dev.toNat) := by
  have does : exec (.linkMgmt p gm w dx8 dev pp echo) s = .next (if dev.toNat = ownDev s then raise (met s p dx8 dev.toNat pp.toNat echo.toNat) (lnkDie p) 0x703 2 0 0 [p, dev.toNat]
      else if (port (met s p dx8 dev.toNat pp.toNat echo.toNat) p).mgmtSent then portIsUp (met s p dx8 dev.toNat pp.toNat echo.toNat) p else met s p dx8 dev.toNat pp.toNat echo.toNat) :=
    congrArg Host.Outcome.next (if_neg (by rw [config]; decide))
  have parts := met_parts s p dx8 dev.toNat pp.toNat echo.toNat
  have own := met_port s p dx8 dev.toNat pp.toNat echo.toNat
  have others (q : Nat) (h : q ≠ p.val) := met_other s dx8 dev.toNat pp.toNat echo.toNat h
  have delay := met_delay s p dx8 dev.toNat pp.toNat echo.toNat
  have dict : (met s p dx8 dev.toNat pp.toNat echo.toNat).dict = s.dict := rfl
  have same : ownDev (met s p dx8 dev.toNat pp.toNat echo.toNat) = ownDev s ∧ digest64 (met s p dx8 dev.toNat pp.toNat echo.toNat) = digest64 s ∧
      now (met s p dx8 dev.toNat pp.toNat echo.toNat) = now s := ⟨rfl, rfl, rfl⟩
  obtain ⟨device, digest, time⟩ := same
  generalize met s p dx8 dev.toNat pp.toNat echo.toNat = u at *
  by_cases self : dev.toNat = ownDev s
  · rw [if_pos self, raise_sends _ _ _ _ _ _ _ (lnkDie_ne_mgt p.isLt)] at does
    have told := raise_sentEvent s u (lnkDie p) 0x703 2 0 0 [p.val, dev.toNat] (lnkDie_ne_mgt p.isLt) (parts .net (by decide)) time
    rw [raise_sends _ _ _ _ _ _ _ (lnkDie_ne_mgt p.isLt)] at told
    have ports (m : Msg) : port (sendChain u (lnkDie p) mgtDie m) p = port u p := rfl
    refine ⟨_, does, by rw [ports, own], by rw [ports, own], by rw [ports, own], by rw [ports, own], (sendChain_reg_of ..).trans delay, fun _ => ⟨by rw [ports, own]; exact config, told⟩,
      fun h => absurd self h, fun h => absurd self h⟩
  · rw [if_neg self] at does
    have sent : (port u p).mgmtSent = (port s p).mgmtSent := by rw [own]
    rcases Bool.eq_false_or_eq_true (port s p).mgmtSent with told | quiet
    · rw [sent, if_pos told] at does
      have up := portIsUp_up u p
      have digested := up.digest
      rw [own, device, digest, dict] at digested
      refine ⟨_, does, ?_, ?_, ?_, ?_, (reg_congr (portIsUp_parts u p .regs (by decide)) _).trans delay, fun h => absurd h self,
        fun _ h => absurd (h.symm.trans told) (by decide), fun _ _ => ⟨up.state, up.fails, digested⟩⟩
      · exact (portIsUp_keeps (·.peerDev) u p (fun _ _ => rfl)).trans (by rw [own]; rfl)
      · exact (portIsUp_keeps (·.peerPort) u p (fun _ _ => rfl)).trans (by rw [own]; rfl)
      · exact (portIsUp_keeps (·.dx8) u p (fun _ _ => rfl)).trans (by rw [own]; rfl)
      · exact (portIsUp_keeps (·.gen) u p (fun _ _ => rfl)).trans (by rw [own]; rfl)
    · rw [sent, if_neg (by rw [quiet]; decide)] at does
      exact ⟨_, does, by rw [own], by rw [own], by rw [own], by rw [own], delay, fun h => absurd h self, fun _ _ => ⟨parts, others, by rw [own]; exact config⟩,
        fun _ h => absurd (h.symm.trans quiet) (by decide)⟩

end

theorem configTimeout_does : ((port s p).state = 2 → (port s p).since + 1000000 ≤ now s → Trains s (.configTimeout p) p (port s p).retrainFails) ∧
    ((port s p).state ≠ 2 ∨ now s < (port s p).since + 1000000 → exec (.configTimeout p) s = .next s) :=
  ⟨fun config late => trains_of_start (congrArg Host.Outcome.next (if_pos ⟨config, late⟩)), fun h => congrArg Host.Outcome.next (if_neg (by omega))⟩

/-! RETRAIN (R367). -/

theorem retrainEntry_does (up : (port s p).state = 3) : ∃ t, exec (.retrainEntry p) s = .next t ∧ OnlyParts [.regs, .ports] s t ∧ (∀ q, q ≠ p.val → port t q = port s q) ∧
    port t p = { port s p with state := 4, since := now s, replays := [] } ∧ reg t (portOff p LNK_RETRAIN_COUNT) = (reg s (portOff p LNK_RETRAIN_COUNT) + 1) % 2 ^ 64 := by
  refine ⟨_, congrArg Host.Outcome.next (if_pos up), OnlyParts.trans (updPort_parts s p _) (bump_parts _ _ _) (by decide) (by decide), fun q hq => ?_, ?_, ?_⟩
  · rw [bump_port_of, port_updPort_other _ _ hq]
  · rw [bump_port_of, port_updPort_same]
  · rw [reg_bump, if_pos rfl]
    rfl

theorem retrainEqualised_does (retrains : (port s p).state = 4) (soon : now s ≤ (port s p).since + 50000) :
    ∃ t, exec (.retrainEqualised p) s = .next t ∧ OnlyParts [.cores, .hst, .ports, .unsent, .net] s t ∧ CameUp s t p (port s p).peerDev :=
  ⟨_, congrArg Host.Outcome.next (if_pos ⟨retrains, soon⟩), portIsUp_parts s p, portIsUp_up s p⟩

theorem retrainTimeout_trains (retrains : (port s p).state = 4) (late : (port s p).since + 50000 ≤ now s) (few : (port s p).retrainFails < 2) :
    Trains s (.retrainTimeout p) p ((port s p).retrainFails + 1) := by
  have does : exec (.retrainTimeout p) s = .next (startTraining (updPort s p (fun x => { x with retrainFails := (port s p).retrainFails + 1 })) p) :=
    congrArg Host.Outcome.next ((if_neg (by omega)).trans (if_neg (by omega)))
  refine ⟨_, does, OnlyParts.trans (updPort_parts s p _) (updPort_parts _ p _) (by decide) (by decide), fun q hq => ?_, ?_⟩
  · exact (port_updPort_other _ _ hq).trans (port_updPort_other _ _ hq)
  · unfold startTraining
    rw [port_updPort_same, port_updPort_same]
    rfl

theorem retrainTimeout_ends (retrains : (port s p).state = 4) (late : (port s p).since + 50000 ≤ now s) (third : 2 ≤ (port s p).retrainFails) :
    ∃ t, exec (.retrainTimeout p) s = .next t ∧ OnlyParts [.cores, .hst, .ports, .unsent, .net] s t ∧ PortEmpty (port t p) ∧ (∀ m, m ∈ (port s p).sent ∨ m ∈ (port s p).sending →
      m.posted = true → m ∈ (port s p).sent ∨ m.started = true ∨ m.mcast = true → ∀ k, m.task = some k → (slotOf s k).busy = true → (slotOf s k).written = false →
        (slotOf t k).ending = true ∧ ((slotOf s k).ending = false → (slotOf t k).status = stLinkDown)) ∧ (port t p).retrainFails = 0 := by
  have does : exec (.retrainTimeout p) s = .next (portDown (updPort s p (fun x => { x with retrainFails := 0 })) p) :=
    congrArg Host.Outcome.next ((if_neg (by omega)).trans (if_pos (by omega)))
  have down := portDown_down (updPort s p (fun x => { x with retrainFails := 0 })) p
  have own := port_updPort_same s p (fun x => { x with retrainFails := 0 })
  have slots : slotOf (updPort s p (fun x => { x with retrainFails := 0 })) = slotOf s := rfl
  have parts := updPort_parts s p (fun x => { x with retrainFails := 0 })
  generalize updPort s p (fun x => { x with retrainFails := 0 }) = u at *
  have tasks := down.tasks
  rw [own, slots] at tasks
  exact ⟨_, does, OnlyParts.trans parts (portDown_parts u p) (by decide) (by decide), down.empty, tasks, by rw [down.fails, own]⟩

end

theorem portStates : Claims.PortStates := by
  intro p s
  refine ⟨limundTraining_starts, limundTraining_rests, fun soon => congrArg Host.Outcome.next (if_neg (by omega)), fun ok peer => ⟨fun other => congrArg Host.Outcome.next (if_pos other),
      fun training good common => ?_, fun training bad => ?_⟩, fun gm w dx8 dev pp echo => ⟨fun other => congrArg Host.Outcome.next (if_pos other), fun config => ?_⟩,
    configTimeout_does, ⟨fun other => congrArg Host.Outcome.next (if_neg other), retrainEntry_does⟩,
    ⟨fun other => ⟨congrArg Host.Outcome.next (if_neg (by omega)), congrArg Host.Outcome.next (if_pos (.inl other))⟩, fun late => congrArg Host.Outcome.next (if_neg (by omega)),
      fun soon => congrArg Host.Outcome.next (if_pos (.inr soon)), fun retrains soon => ?_, retrainTimeout_trains, fun retrains late third => ?_⟩, ?_⟩
  · have does := trainingDone_aligned (p := p) training good common
    dsimp only at does
    rw [attemptOf_eq] at does
    exact does
  · obtain ⟨t, does, count, next, down⟩ := trainingDone_fails (p := p) training bad
    refine ⟨t, does, count, next, fun last => ?_⟩
    obtain ⟨parts, ⟨state, gen, width, sending, sent, receiving⟩, -, tasks⟩ := down last
    exact ⟨parts, state, gen, width, sending, sent, receiving, tasks⟩
  · obtain ⟨t, does, peer, pport, cls, gen, delay, self, waits, up⟩ := linkMgmt_does (p := p) (gm := gm) (w := w) (dx8 := dx8) (dev := dev) (pp := pp) (echo := echo) config
    refine ⟨t, does, peer, pport, cls, gen, delay, self, waits, fun other sent => ?_⟩
    obtain ⟨state, fails, digest⟩ := up other sent
    exact ⟨state, fails, digest⟩
  · obtain ⟨t, does, parts, state, fails, digest⟩ := retrainEqualised_does retrains soon
    exact ⟨t, does, parts, state, fails, digest⟩
  · obtain ⟨t, does, parts, ⟨state, gen, width, sending, sent, receiving⟩, tasks, fails⟩ := retrainTimeout_ends retrains late third
    exact ⟨t, does, parts, ⟨state, gen, width, sending, sent, receiving, tasks⟩, fails⟩
  · obtain ⟨⟨state, gen, width, sending, sent, receiving⟩, -, tasks⟩ := portDown_down s p
    exact ⟨_, rfl, portDown_parts s p, state, gen, width, sending, sent, receiving, tasks⟩

end Sys2Proof.Machine
end

section
/-! PROOF. DIGEST and TIME of a Limund port (15 R391, R392). -/

namespace Sys2Proof.Machine

open Sys2Proof Sys2Proof.Safety

section
variable {p : PortId} {s : State}

/-- Whether a peer's digest, or epochs that differ since a time, make a port divergent (R391). -/
def divergesAt (s : State) (d epoch : Nat) (since : Option Nat) : Bool :=
  if epoch = s.dict.epoch then d != digest64 s else match since with
    | some a => decide (objNat s 0x501005 * 1000000 < now s - a)
    | none => false

/-- A port has been judged by what its peer said. -/
structure Judged (s t : State) (p epoch : Nat) (since : Option Nat) (div : Bool) : Prop where
  own : port t p = { port s p with peerEpoch := epoch, epochDiffSince := since, divergent := div }
  others : ∀ q, q ≠ p → port t q = port s q
  same : div = (port s p).divergent → OnlyParts [.regs, .ports] s t
  changed : div ≠ (port s p).divergent → SentEvent s t (88 + p / 2) (if div then 0x701 else 0x702) (if div then 2 else 1) [p] ∧ t.divergenceEvents = s.divergenceEvents + b2n div

theorem divergentNow_eq (u : State) (p : Nat) : divergentNow u p = divergesAt u (reg u (portOff p LNK_PEER_DIGEST)) (port u p).peerEpoch (port u p).epochDiffSince := rfl

theorem objBytes_congr {s t : State} (dict : t.dict = s.dict) (power : t.power = s.power) : objBytes t = objBytes s := by
  funext k
  unfold objBytes nodeDefault
  rw [dict, power]

theorem divergesAt_congr {s t : State} (dict : t.dict = s.dict) (power : t.power = s.power) (clock : t.clock = s.clock) : divergesAt t = divergesAt s := by
  funext d epoch since
  unfold divergesAt digest64 configDigest objNat now
  rw [objBytes_congr dict power, dict, clock]

/-- The state in which a port enters or leaves divergence, before it is told of. -/
def divergenceSet (s : State) (p : Nat) (div : Bool) : State :=
  { updPort s p (fun x => { x with divergent := div }) with divergenceEvents := s.divergenceEvents + b2n div }
theorem divergenceSet_port (s : State) (p q : Nat) (div : Bool) : port (divergenceSet s p div) q = port (updPort s p (fun x => { x with divergent := div })) q := rfl
theorem judgePort_eq (s : State) (p : Nat) : judgePort s p = if divergentNow s p = (port s p).divergent then s
    else raise (divergenceSet s p (divergentNow s p)) (lnkDie p) (if divergentNow s p then 0x701 else 0x702) (if divergentNow s p then 2 else 1) 0 0 [p] := rfl

/-- A port is judged from a state that differs from another in registers and ports alone. -/
theorem judgePort_judges {s u : State} {p : Nat} (hp : p < 16) (parts : OnlyParts [.regs, .ports] s u) {epoch : Nat} {since : Option Nat}
    (own : port u p = { port s p with peerEpoch := epoch, epochDiffSince := since }) (others : ∀ q, q ≠ p → port u q = port s q) :
    Judged s (judgePort u p) p epoch since (divergesAt s (reg u (portOff p LNK_PEER_DIGEST)) epoch since) ∧ (judgePort u p).regs = u.regs := by
  have clock : u.clock = s.clock := parts .clock (by decide)
  have events : u.divergenceEvents = s.divergenceEvents := parts .divergenceEvents (by decide)
  have net : u.net = s.net := parts .net (by decide)
  have judged : divergentNow u p = divergesAt s (reg u (portOff p LNK_PEER_DIGEST)) epoch since := by
    rw [divergentNow_eq, own, divergesAt_congr (parts .dict (by decide)) (parts .power (by decide)) clock]
  have held : (port u p).divergent = (port s p).divergent := by rw [own]
  rw [judgePort_eq, judged, held]
  generalize divergesAt s (reg u (portOff p LNK_PEER_DIGEST)) epoch since = div
  by_cases stays : div = (port s p).divergent
  · rw [if_pos stays]
    exact ⟨⟨by rw [own, stays], others, fun _ => parts, fun h => absurd stays h⟩, rfl⟩
  · rw [if_neg stays]
    have sent := raise_sentEvent s (divergenceSet u p div) (lnkDie p) (if div then 0x701 else 0x702) (if div then 2 else 1) 0 0 [p] (lnkDie_ne_mgt hp) net (congrArg Clock.reftime clock)
    rw [raise_sends _ _ _ _ _ _ _ (lnkDie_ne_mgt hp)] at sent ⊢
    refine ⟨⟨?_, fun q hq => ?_, fun h => absurd h stays, fun _ => ⟨sent, ?_⟩⟩, rfl⟩
    · rw [sendChain_port_of, divergenceSet_port, port_updPort_same, own]
    · rw [sendChain_port_of, divergenceSet_port, port_updPort_other _ _ hq, others q hq]
    · show u.divergenceEvents + b2n div = _
      rw [events]

/-- The state that has taken a peer's DIGEST. -/
def digestTaken (s : State) (p epoch d : Nat) : State :=
  updPort (setReg s (portOff p LNK_PEER_DIGEST) d) p (fun x => { x with
    peerEpoch := epoch
    epochDiffSince := if epoch = s.dict.epoch then none else if x.epochDiffSince.isSome then x.epochDiffSince else some (now s) })

theorem digest_does (epoch : BitVec 32) (d : Word) : ∃ t, exec (.digest p epoch d) s = .next t ∧ reg t (portOff p LNK_PEER_DIGEST) = d.toNat ∧
    (let since := if epoch.toNat = s.dict.epoch then none else if (port s p).epochDiffSince.isSome then (port s p).epochDiffSince else some (now s)
     Judged s t p epoch.toNat since (divergesAt s d.toNat epoch.toNat since)) := by
  have does : exec (.digest p epoch d) s = .next (judgePort (digestTaken s p epoch.toNat d.toNat) p) := rfl
  have parts : OnlyParts [.regs, .ports] s (digestTaken s p epoch.toNat d.toNat) := OnlyParts.trans (setReg_parts s _ _) (updPort_parts _ p _) (by decide) (by decide)
  have own := port_updPort_same (setReg s (portOff p LNK_PEER_DIGEST) d.toNat) p (fun x => { x with
    peerEpoch := epoch.toNat, epochDiffSince := if epoch.toNat = s.dict.epoch then none else if x.epochDiffSince.isSome then x.epochDiffSince else some (now s) })
  have heard : reg (digestTaken s p epoch.toNat d.toNat) (portOff p LNK_PEER_DIGEST) = d.toNat := (reg_setReg_same s _ _).trans (Nat.mod_eq_of_lt d.isLt)
  obtain ⟨judged, regs⟩ := judgePort_judges p.isLt parts own (fun q hq => port_updPort_other _ _ hq)
  rw [heard] at judged
  exact ⟨_, does, (reg_congr regs _).trans heard, judged⟩

theorem epochDisagreement_does {a : Nat} (since : (port s p).epochDiffSince = some a) : ∃ t, exec (.epochDisagreementTimeout p) s = .next t ∧
    Judged s t p (port s p).peerEpoch (some a) (divergesAt s (reg s (portOff p LNK_PEER_DIGEST)) (port s p).peerEpoch (some a)) :=
  ⟨_, congrArg Host.Outcome.next (if_pos (by rw [since]; rfl)), (judgePort_judges p.isLt (fun r _ => by cases r <;> rfl) (by rw [← since]) (fun _ _ => rfl)).1⟩

/-! Timers and TIME. -/

theorem digestTimer_does (up : (port s p).state = 3) : ∃ t, exec (.digestTimer p) s = .next t ∧ OnlyParts [.ports] s t ∧ (∀ q, q ≠ p.val → port t q = port s q) ∧
    port t p = { port s p with control := (port s p).control ++ [control 4 (port s p).peerDev (ownDev s) (s.dict.epoch % 2 ^ 32 + digest64 s * 2 ^ 32)] } :=
  ⟨_, congrArg Host.Outcome.next (if_pos up), updPort_parts s p _, fun _ hq => port_updPort_other s _ hq, port_updPort_same s p _⟩

theorem timeTimer_does (up : (port s p).state = 3) : ∃ t, exec (.timeTimer p) s = .next t ∧ OnlyParts [.ports] s t ∧ (∀ q, q ≠ p.val → port t q = port s q) ∧
    port t p = { port s p with timeLast := now s, control := (port s p).control ++ [control 5 (port s p).peerDev (ownDev s) (now s)] } := by
  have does : exec (.timeTimer p) s = .next (sendControl (updPort s p (fun x => { x with timeLast := now s })) p (control 5 (port s p).peerDev (ownDev s) (now s))) :=
    congrArg Host.Outcome.next (if_pos up)
  refine ⟨_, does, OnlyParts.trans (updPort_parts s p _) (updPort_parts _ p _) (by decide) (by decide), fun q hq => (port_updPort_other _ _ hq).trans (port_updPort_other _ _ hq), ?_⟩
  unfold sendControl
  rw [port_updPort_same, port_updPort_same]

theorem unsigned_word (z : Int) : ((unsigned 64 z % 2 ^ 64 : Nat) : Int) = z % 2 ^ 64 := by
  unfold unsigned
  norm_num
  omega

theorem time_does (v : Word) : ∃ t, exec (.time p v) s = .next t ∧ OnlyParts [.regs] s t ∧ (∀ off, off ≠ portOff p LNK_TIME_OFFSET → reg t off = reg s off) ∧
    (reg t (portOff p LNK_TIME_OFFSET) : Int) = ((v.toNat : Int) - now s - reg s (portOff p LNK_DELAY_NS)) % 2 ^ 64 :=
  ⟨_, rfl, setReg_parts s _ _, fun _ other => reg_setReg_other s _ other, by rw [reg_setReg_same]; exact unsigned_word _⟩

end

theorem digestsAndTime : Claims.DigestsAndTime := by
  intro p s
  refine ⟨fun epoch d => ?_, fun none_ => congrArg Host.Outcome.next (if_neg (by rw [none_]; decide)), fun a since => ?_, digestTimer_does,
    fun other => ⟨congrArg Host.Outcome.next (if_neg other), congrArg Host.Outcome.next (if_neg other)⟩, timeTimer_does, time_does⟩
  · obtain ⟨t, does, heard, own, others, same, changed⟩ := digest_does (p := p) (s := s) epoch d
    exact ⟨t, does, heard, own, others, same, changed⟩
  · obtain ⟨t, does, own, others, same, changed⟩ := epochDisagreement_does (p := p) since
    exact ⟨t, does, own, others, same, changed⟩

/-- Settles O57: no message joins a port that is DOWN, so a port's end leaves it empty and ends the tasks of what it held; a port that comes UP has DIGEST to send. One
LINK_MGMT leaves at the entry to CONFIG and none in answer, so that a port whose own has not left stays in CONFIG: the model's choice (log entry 29). -/
theorem limundPorts : Obligations.LimundPorts := ⟨portStates, digestsAndTime⟩

end Sys2Proof.Machine
end

section
/-! PROOF. Messages that are posted at a link die, and strand credit (15 R374, R378, R379, R382, R384, R390). -/

namespace Sys2Proof.Machine

open Sys2Proof Sys2Proof.Safety

/-! What a posted message reads. -/

theorem lnkMiss_none {s : State} {d n : Nat} (h : lnkHolds s d n = true ∨ strandLive s n = false) : lnkMiss s d n = s := by
  unfold lnkMiss
  rcases h with h | h <;> rw [h] <;> simp

theorem readFault_some {s : State} {n : Nat} : ∀ {k v : Nat}, (∃ i, i < k ∧ ∀ a, translate s n (v + 8 * i) false ≠ .ok a) → ∃ e, readFault s n v k = some e
  | 0, _, ⟨_, small, _⟩ => absurd small (Nat.not_lt_zero _)
  | k + 1, v, ⟨i, small, bad⟩ => by
    unfold readFault
    split
    · exact ⟨_, rfl⟩
    · next a found =>
      cases i with
      | zero => exact absurd found (bad a)
      | succ i => exact readFault_some ⟨i, Nat.lt_of_succ_lt_succ small, fun a => by
          rw [show v + 8 + 8 * i = v + 8 * (i + 1) by omega]
          exact bad a⟩

theorem readFault_none {s : State} {n : Nat} : ∀ {k v : Nat}, (∀ i, i < k → ∃ a, translate s n (v + 8 * i) false = .ok a) → readFault s n v k = none
  | 0, _, _ => rfl
  | k + 1, v, fine => by
    obtain ⟨a, found⟩ := fine 0 (Nat.succ_pos k)
    unfold readFault
    rw [show v = v + 8 * 0 from rfl, found]
    exact readFault_none (fun i small => by
      rw [show v + 8 * 0 + 8 + 8 * i = v + 8 * (i + 1) by omega]
      exact fine (i + 1) (Nat.succ_lt_succ small))

theorem word_take {w : List Nat} {i : Nat} (h : i < 4) : word (w.take 4) i = word w i := by
  unfold word
  rw [List.getD_eq_getElem?_getD, List.getD_eq_getElem?_getD, List.getElem?_take_of_lt h]

/-- The header of a message as it leaves: the words 0 to 3 of its descriptor, with this device as its source. -/
def sentHeader (s : State) (w : List Nat) : List Nat := [putBits (word w 0) 33 22 (ownDev s), word w 1, word w 2, word w 3]

theorem sentHeader_take (s : State) (w : List Nat) : sentHeader s (w.take 4) = sentHeader s w := by
  unfold sentHeader
  rw [word_take (by decide), word_take (by decide), word_take (by decide), word_take (by decide)]

theorem bits_putBits_below (w v : Nat) : bits (putBits w 33 22 v) 3 0 = bits w 3 0 := by
  have whole : putBits w 33 22 v = w - w / 4194304 % 4096 * 4194304 + v % 4096 * 4194304 := by
    unfold putBits bits
    rw [Nat.shiftRight_eq_div_pow]
    norm_num
  have low (u : Nat) : bits u 3 0 = u % 16 := by
    unfold bits
    rw [Nat.shiftRight_zero]
    norm_num
  rw [whole, low, low]
  omega
theorem mKind_cons (a : Nat) (l : List Nat) : mKind (a :: l) = bits a 3 0 := rfl
theorem mKind_sentHeader (s : State) (w : List Nat) : mKind (sentHeader s w) = mKind w :=
  (mKind_cons _ _).trans (bits_putBits_below _ _)

/-- A message with the flits that take it to its strand's peer. -/
def toPeer (s : State) (n : Nat) (x : Strand) (h data : List Nat) (m : SentMsg) : SentMsg :=
  { m with dst := peerDev s n, rcv := peerStrand s n, flits := mkFlits m.cls false (peerDev s n) (peerStrand s n) x.txSeq (h ++ data) }

/-- A message with the flits that take it to its group's members; the first port's counts on the marker asked for. -/
def toGroup (s : State) (g : Nat) (x : Strand) (h data : List Nat) (m : SentMsg) (lead : Bool) : SentMsg :=
  { m with mcast := true, lead := lead, rcv := g, doneEn := m.doneEn && lead, flits := mkFlits m.cls true (ownDev s) g x.txSeq (h ++ data) }

/-! A posted message's strand takes its next number, and its task is kept. -/

/-- The strand's next number is taken, and the posting task of a message of a kind is noted. -/
def noted (s : State) (n : Nat) (x : Strand) (task : Option Nat) (kind : Nat) : State := match task with
  | some k => { updStrand s n (fun y => { y with txSeq := (x.txSeq + 1) % 65536 }) with
      posted := (updStrand s n (fun y => { y with txSeq := (x.txSeq + 1) % 65536 })).posted ++ [(n, x.txSeq, k, kind)] }
  | none => updStrand s n (fun y => { y with txSeq := (x.txSeq + 1) % 65536 })

/-- What a strand's message says of itself, before it has a way to leave by. -/
def leaving (s : State) (die n : Nat) (x : Strand) (h : List Nat) (task : Option Nat) (done : Nat) : SentMsg :=
  { strand := n, die := die, cls := if mKind h = 3 then 3 else 2, seq := x.txSeq, kind := mKind h, off := mStream h, task := task,
    doneCore := bits done 23 18, doneMarker := bits done 31 24, doneEn := bit done 32, since := now s, bytes := mLength h,
    ll := if mKind h = 2 && lifelinePage s n (mOffset h) then (if mOffset h = 0xFFFFFFFFF800 then 2 else 1) else 0 }

section
variable (s : State) {n : Nat} {x : Strand} (task : Option Nat) (kind : Nat)

theorem noted_parts (n : Nat) (x : Strand) : OnlyParts [.hst, .posted] s (noted s n x task kind) := by
  have taken : OnlyParts [.hst, .posted] s (updStrand s n (fun y => { y with txSeq := (x.txSeq + 1) % 65536 })) :=
    OnlyParts.mono (updStrand_parts s n _) _ (by decide)
  unfold noted
  cases task with
  | none => exact taken
  | some k =>
    exact fun r hr => by cases r <;> first | (exfalso; simp at hr; done) | exact taken _ hr

theorem noted_ports (n : Nat) (x : Strand) : (noted s n x task kind).ports = s.ports := noted_parts s task kind n x .ports (by decide)

theorem noted_hst : (noted s n x task kind).hst = (updStrand s n (fun y => { y with txSeq := (x.txSeq + 1) % 65536 })).hst := by
  unfold noted
  cases task <;> rfl

theorem slotOf_noted (n : Nat) (x : Strand) (k : Nat) : slotOf (noted s n x task kind) k = slotOf s k := by
  rw [slotOf_of_hst (noted_hst s task kind)]
  unfold updStrand
  split <;> rfl

variable {s} (found : strand s n = some x)
include found

theorem strand_noted : strand (noted s n x task kind) n = some { x with txSeq := (x.txSeq + 1) % 65536 } :=
  (congrArg (fun h : Hst => tfind h.strands n) (noted_hst s task kind)).trans (strand_updStrand_some found)

theorem strandWord_noted (w : Nat) : strandWord (noted s n x task kind) n w = strandWord s n w := by
  unfold strandWord
  rw [strand_noted task kind found, found]

theorem upPort_noted : upPort (noted s n x task kind) n = upPort s n := by
  unfold upPort
  rw [strandWord_noted task kind found]
  unfold port
  rw [noted_ports]

theorem boundPort_noted : boundPort (noted s n x task kind) n = boundPort s n := by
  unfold boundPort
  rw [strand_noted task kind found, found, upPort_noted task kind found]
  unfold port
  rw [noted_ports]

end

theorem noted_posted_some (s : State) (n : Nat) (x : Strand) (k kind : Nat) : (noted s n x (some k) kind).posted = s.posted ++ [(n, x.txSeq, k, kind)] :=
  congrArg (· ++ _) (updStrand_parts s n _ .posted (by decide))
theorem noted_posted_none (s : State) (n : Nat) (x : Strand) (kind : Nat) : (noted s n x none kind).posted = s.posted := updStrand_parts s n _ .posted (by decide)

/-! The port that a strand's messages join (R378). -/

theorem boundPort_some_iff {s : State} {n p : Nat} {y : Strand} (found : strand s n = some y) : boundPort s n = some p ↔
    (y.port = some p ∧ (port s p).state ≠ 0) ∨ ((∀ q, y.port = some q → (port s q).state = 0) ∧ upPort s n = some p) := by
  unfold boundPort
  rw [found]
  dsimp only
  cases bound : y.port with
  | none => simp
  | some q =>
    by_cases down : (port s q).state = 0
    · simp only [down, if_true, Option.some.injEq]
      constructor
      · exact fun h => .inr ⟨fun r same => same ▸ down, h⟩
      · rintro (⟨rfl, up⟩ | ⟨-, h⟩)
        · exact absurd down up
        · exact h
    · simp only [down, if_false, Option.some.injEq]
      constructor
      · exact fun h => .inl ⟨h, h ▸ down⟩
      · rintro (⟨h, -⟩ | ⟨all, -⟩)
        · exact h
        · exact absurd (all q rfl) down

/-- Ports that a list names once each take what the list gives them, and no other port changes. -/
theorem each_updPort (f : Nat × Nat → Port → Port) : ∀ (l : List (Nat × Nat)) (s : State), (l.map Prod.fst).Nodup → let t := each l s (fun s q => updPort s q.1 (f q))
    OnlyParts [.ports] s t ∧ (∀ p, p ∉ l.map Prod.fst → port t p = port s p) ∧ ∀ q ∈ l, port t q.1 = f q (port s q.1)
  | [], s, _ => ⟨fun r _ => by cases r <;> rfl, fun _ _ => rfl, fun _ h => absurd h List.not_mem_nil⟩
  | q :: l, s, once => by
    obtain ⟨fresh, once⟩ := List.nodup_cons.mp once
    obtain ⟨parts, others, given⟩ := each_updPort f l (updPort s q.1 (f q)) once
    refine ⟨OnlyParts.trans (updPort_parts s q.1 (f q)) parts (by decide) (by decide), fun p out => ?_, fun r listed => ?_⟩
    · obtain ⟨differs, out⟩ := not_or.mp (fun h => out (List.mem_cons.mpr h))
      exact (others p out).trans (port_updPort_other s _ differs)
    · rcases List.mem_cons.mp listed with rfl | listed
      · exact (others _ fresh).trans (port_updPort_same ..)
      · refine (given r listed).trans (congrArg (f r) (port_updPort_other s _ ?_))
        rintro same
        exact fresh (same ▸ List.mem_map_of_mem listed)

/-- What ports are given in turn depends on objects and power alone, which ports do not change. -/
theorem each_updPort_fixed (f : State → Nat × Nat → Port → Port) (g : Nat × Nat → Port → Port) (d : Dict) (w : Power)
    (same : ∀ t q, t.dict = d → t.power = w → f t q = g q) : ∀ (l : List (Nat × Nat)) (s : State), s.dict = d → s.power = w →
    each l s (fun s q => updPort s q.1 (f s q)) = each l s (fun s q => updPort s q.1 (g q))
  | [], _, _, _ => rfl
  | q :: l, s, dict, power => by
    show each l (updPort s q.1 (f s q)) _ = each l (updPort s q.1 (g q)) _
    rw [same s q dict power]
    exact each_updPort_fixed f g d w same l _ dict power

theorem groupPorts_nodup (s : State) (g : Nat) : (groupPorts s g).Nodup := List.nodup_range.filter _

/-! Posting by the way that a strand's messages take. -/

section
variable {s : State} {die n : Nat} {x : Strand} (found : strand s n = some x) (ok : linkOk s n = true) (w data : List Nat) (task : Option Nat) (done : Nat)

theorem postMsg_fails {s : State} {n : Nat} (ok : linkOk s n = false) (die : Nat) (w data : List Nat) (task : Option Nat) (done : Nat) :
    postMsg s die n w data task done = failSend s die stStrandInvalid task := by
  unfold postMsg
  cases strand s n with
  | none => rfl
  | some x => simp [ok]

include found ok

/-- A strand without a group whose peer is on another device: the message is bound to a port. -/
theorem postMsg_binds (single : bit (strandWord s n 4) 12 = false) (away : peerDev s n ≠ ownDev s) : postMsg s die n w data task done =
    bindMsg (noted s n x task (mKind (sentHeader s w))) (toPeer s n x (sentHeader s w) data (leaving s die n x (sentHeader s w) task done)) := by
  unfold postMsg
  rw [found]
  simp only [ok, single, away, Bool.not_true, Bool.false_eq_true, if_false]
  rfl

/-- A strand without a group whose peer is here: the message is delivered at once. -/
theorem postMsg_delivers (single : bit (strandWord s n 4) 12 = false) (here : peerDev s n = ownDev s) : postMsg s die n w data task done =
    let v := deliverHere (noted s n x task (mKind (sentHeader s w))) die (peerStrand s n) x.txSeq (sentHeader s w) data
    if bit done 32 then countMarker v (bits done 23 18) (bits done 31 24) else v := by
  unfold postMsg
  rw [found]
  simp only [ok, single, here, Bool.not_true, Bool.false_eq_true, if_false, if_true]
  rfl

theorem postMsg_groupFails (grouped : bit (strandWord s n 4) 12 = true) (dx8 : ∃ p ∈ groupPorts s (bits (strandWord s n 4) 11 0), (port s p).dx8 = true) :
    postMsg s die n w data task done = failSend s die stLinkClassUnsupported task := by
  have some_ : (groupPorts s (bits (strandWord s n 4) 11 0)).any (fun p => (port s p).dx8) = true := List.any_eq_true.mpr dx8
  unfold postMsg
  rw [found]
  simp only [ok, grouped, some_, Bool.not_true, Bool.false_eq_true, if_false, if_true]

theorem postMsg_groupJoins (grouped : bit (strandWord s n 4) 12 = true) (able : ∀ p ∈ groupPorts s (bits (strandWord s n 4) 11 0), (port s p).dx8 = false) :
    let g := bits (strandWord s n 4) 11 0
    let h := sentHeader s w
    postMsg s die n w data task done = each (groupPorts s g).zipIdx
      (updGroup (noted s n x task (mKind h)) g (fun y => { y with starts := y.starts ++ [mStream h], strand := n, die := (groupPorts s g).headD 0 / 2 }))
      (fun s' q => updPort s' q.1 (fun y => { y with sending := y.sending ++ [toGroup s g x h data (leaving s die n x h task done) (q.2 == 0)] })) := by
  have none_ : (groupPorts s (bits (strandWord s n 4) 11 0)).any (fun p => (port s p).dx8) = false := by
    rw [List.any_eq_false]
    exact fun p listed => by rw [able p listed]; decide
  unfold postMsg
  rw [found]
  simp only [ok, grouped, none_, Bool.not_true, Bool.false_eq_true, if_false, if_true]
  refine each_updPort_fixed (fun s' q y => { y with sending := y.sending ++ [toGroup s' (bits (strandWord s n 4) 11 0) x (sentHeader s w) data
    (leaving s die n x (sentHeader s w) task done) (q.2 == 0)] }) _ s.dict s.power (fun t q dict power => ?_) _ _ ?_ ?_
  · unfold toGroup ownDev objNat
    rw [objBytes_congr dict power]
  · exact noted_parts s task (mKind (sentHeader s w)) n x .dict (by decide)
  · exact noted_parts s task (mKind (sentHeader s w)) n x .power (by decide)

end

theorem joined_parts (s : State) (n p : Nat) (f : Strand → Strand) (g : Port → Port) : OnlyParts [.hst, .ports] s (updPort (updStrand s n f) p g) :=
  OnlyParts.trans (updStrand_parts s n f) (updPort_parts _ p g) (by decide) (by decide)

theorem port_noted (s : State) (n : Nat) (x : Strand) (task : Option Nat) (kind p : Nat) : port (noted s n x task kind) p = port s p := port_congr (noted_ports s task kind n x) p
theorem port_updStrand (s : State) (n : Nat) (f : Strand → Strand) (p : Nat) : port (updStrand s n f) p = port s p := port_congr (updStrand_parts s n f .ports (by decide)) p

section
variable {s : State} {n : Nat} {x : Strand} (found : strand s n = some x) (task : Option Nat) (kind : Nat) {m : SentMsg} (own : m.strand = n)
include found own

theorem bindMsg_noted_joins {p : Nat} (bound : boundPort s n = some p) (able : ¬ (m.kind = 3 ∧ (port s p).dx8 = true)) :
    let t := bindMsg (noted s n x task kind) m
    OnlyParts [.hst, .ports, .posted] s t ∧ (port t p).sending = (port s p).sending ++ [m] ∧ (∀ q, q ≠ p → port t q = port s q) ∧
      strand t n = some { x with txSeq := (x.txSeq + 1) % 65536, port := some p } ∧ t.posted = (noted s n x task kind).posted := by
  subst own
  have joins : bindMsg (noted s m.strand x task kind) m = updPort (updStrand (noted s m.strand x task kind) m.strand (fun y => { y with port := some p })) p
      (fun y => { y with sending := y.sending ++ [m] }) := by
    rw [bindMsg_binds ((boundPort_noted task kind found).trans bound), if_neg]
    rwa [port_noted]
  intro t
  rw [show t = _ from joins]
  refine ⟨OnlyParts.trans (noted_parts s task kind _ x) (joined_parts _ _ p _ _) (by decide) (by decide), ?_, fun q differs => ?_, ?_, ?_⟩
  · rw [port_updPort_same, port_updStrand, port_noted]
  · rw [port_updPort_other _ _ differs, port_updStrand, port_noted]
  · exact strand_updStrand_some (f := fun y => { y with port := some p }) (strand_noted task kind found)
  · exact joined_parts _ _ _ _ _ .posted (by decide)

theorem bindMsg_noted_waits (unbound : boundPort s n = none) : bindMsg (noted s n x task kind) m =
    { noted s n x task kind with unsent := s.unsent ++ [m] } := by
  subst own
  rw [bindMsg_waits ((boundPort_noted task kind found).trans unbound), noted_parts s task kind _ x .unsent (by decide)]

theorem bindMsg_noted_fails {p : Nat} (bound : boundPort s n = some p) (dx8 : m.kind = 3 ∧ (port s p).dx8 = true) :
    bindMsg (noted s n x task kind) m = failSend (noted s n x task kind) m.die stLinkClassUnsupported m.task := by
  subst own
  rw [bindMsg_binds ((boundPort_noted task kind found).trans bound), if_pos]
  rwa [port_noted]

end

theorem updGroup_parts (s : State) (g : Nat) (f : Group → Group) : OnlyParts [.groups] s (updGroup s g f) := fun r hr => by cases r <;> first | (exfalso; simp at hr; done) | rfl
theorem unsent_parts (s : State) (l : List SentMsg) : OnlyParts [.unsent] s { s with unsent := l } := fun r hr => by cases r <;> first | (exfalso; simp at hr; done) | rfl

/-- Each port of a group takes its message, and nothing else but the group's own record changes. -/
theorem groupJoined (s : State) (n g : Nat) (x : Strand) (task : Option Nat) (kind : Nat) (f : Group → Group) (m : Bool → SentMsg) :
    let t := each (groupPorts s g).zipIdx (updGroup (noted s n x task kind) g f) (fun s q => updPort s q.1 (fun y => { y with sending := y.sending ++ [m (q.2 == 0)] }))
    OnlyParts [.hst, .ports, .groups, .posted] s t ∧ (∀ p, p ∉ groupPorts s g → port t p = port s p) ∧
      ∀ p ∈ groupPorts s g, ∃ lead, (port t p).sending = (port s p).sending ++ [m lead] := by
  have names : (groupPorts s g).zipIdx.map Prod.fst = groupPorts s g := List.zipIdx_map_fst ..
  obtain ⟨parts, others, given⟩ := each_updPort (fun q y => { y with sending := y.sending ++ [m (q.2 == 0)] }) (groupPorts s g).zipIdx
    (updGroup (noted s n x task kind) g f) (names.symm ▸ groupPorts_nodup s g)
  rw [names] at others
  have grouped : OnlyParts [.hst, .posted, .groups] s (updGroup (noted s n x task kind) g f) :=
    OnlyParts.trans (noted_parts s task kind n x) (updGroup_parts _ g f) (by decide) (by decide)
  have same (p : Nat) : port (updGroup (noted s n x task kind) g f) p = port s p := port_noted s n x task kind p
  refine ⟨OnlyParts.trans grouped parts (by decide) (by decide), fun p out => (others p out).trans (same p), fun p listed => ?_⟩
  obtain ⟨q, isIn, rfl⟩ := List.mem_map.mp (names.symm ▸ listed)
  exact ⟨q.2 == 0, by rw [given q isIn, same]⟩

/-! LNK_SEND_POST and CREDIT. -/

section
variable {s : State} {d : LnkDie} {task : Option SlotId} {desc : List Word} (held : lnkHolds s d (bits (word (desc.map (·.toNat)) 5) 17 0) = true ∨ strandLive s (bits (word (desc.map (·.toNat)) 5) 17 0) = false)

/-- A task that posts what cannot be sent ends with its status. -/
def postFails (s : State) (d : LnkDie) (st : Nat) (task : Option SlotId) : State := match task with
  | some j => endTask s j st (88 + d) none false
  | none => s

theorem failSend_map (s : State) (d : LnkDie) (st : Nat) (task : Option SlotId) : failSend s (88 + d) st (task.map (·.val)) = postFails s d st task := by
  cases task <;> rfl

include held

theorem execLnkSendPost_faults (bad : ∃ i, i < bits (word (desc.map (·.toNat)) 1) 31 0 / 8 ∧
      ∀ a, translate s (bits (word (desc.map (·.toNat)) 5) 17 0) (bits (word (desc.map (·.toNat)) 4) 47 0 + 8 * i) false ≠ .ok a) :
    ∃ e, exec (.lnkSendPost d task desc) s = .next (postFails s d e task) := by
  obtain ⟨e, fault⟩ := readFault_some bad
  refine ⟨e, ?_⟩
  show execLnkSendPost d task desc s = _
  unfold execLnkSendPost
  dsimp only
  rw [lnkMiss_none held, fault]
  exact congrArg Host.Outcome.next (failSend_map ..)

theorem execLnkSendPost_posts (fine : ∀ i, i < bits (word (desc.map (·.toNat)) 1) 31 0 / 8 →
      ∃ a, translate s (bits (word (desc.map (·.toNat)) 5) 17 0) (bits (word (desc.map (·.toNat)) 4) 47 0 + 8 * i) false = .ok a) :
    let w := desc.map (·.toNat)
    let n := bits (word w 5) 17 0
    exec (.lnkSendPost d task desc) s = .next (postMsg s (88 + d) n (w.take 4)
      ((readWords s n (bits (word w 4) 47 0) (bits (word w 1) 31 0 / 8)).getD []) (task.map (·.val)) (word w 5)) := by
  show execLnkSendPost d task desc s = _
  unfold execLnkSendPost
  dsimp only
  rw [lnkMiss_none held, readFault_none fine]

end

theorem execCredit_takes {dst : BitVec 12} {n : StrandId} (p : PortId) (flits : BitVec 16) {s : State} {y : Strand} (own : dst.toNat = ownDev s) (found : strand s n = some y) :
    ∃ t, exec (.credit p dst n flits) s = .next t ∧ OnlyParts [.hst] s t ∧
      strand t n = some { y with txCredit := min 65535 (y.txCredit + flits.toNat) } ∧ ∀ m, m ≠ n.val → strand t m = strand s m := by
  refine ⟨_, congrArg Host.Outcome.next (if_neg (fun h => h own)), updStrand_parts s n _, strand_updStrand_some found, fun m differs => ?_⟩
  unfold updStrand
  rw [found]
  exact (strand_setStrand ..).trans (if_neg (Ne.symm differs))

/-- Settles O59: a descriptor's payload is read, and its message is refused, bound to a port, kept, delivered here or given to each port of its group; the order of the
first two checks is the model's choice (log entry 27). -/
theorem limundSends : Obligations.LimundSends := by
  refine ⟨fun d task desc s => ?_, fun p dst n flits s => ⟨fun away => congrArg Host.Outcome.next (if_pos away), fun none_ => ?_, fun y own found => execCredit_takes p flits own found⟩⟩
  · intro w n va k ends h data flits cls held
    refine ⟨execLnkSendPost_faults held, fun fine => ?_⟩
    have posts := execLnkSendPost_posts (task := task) held fine
    have header : sentHeader s (w.take 4) = h := sentHeader_take s w
    have kind : mKind h = mKind w := mKind_sentHeader s w
    refine ⟨fun ok => posts.trans (congrArg Host.Outcome.next ((postMsg_fails ok _ _ _ _ _).trans (failSend_map ..))), fun y ok found => ?_⟩
    intro fits group
    let m := toPeer s n y h data (leaving s (88 + d) n y h (task.map (·.val)) (word w 5))
    have class_ : m.cls = cls := by
      show (if mKind h = 3 then 3 else 2) = _
      rw [kind]
    have bound {p : Nat} : boundPort s n = some p ↔ fits p := boundPort_some_iff found
    have binds (single : bit (strandWord s n 4) 12 = false) (away : peerDev s n ≠ ownDev s) :
        exec (.lnkSendPost d task desc) s = .next (bindMsg (noted s n y (task.map (·.val)) (mKind h)) m) := by
      have same := postMsg_binds found ok (w.take 4) data (die := 88 + d) (task.map (·.val)) (word w 5) single away
      rw [header] at same
      exact posts.trans (congrArg Host.Outcome.next same)
    refine ⟨fun single away p fit able => ?_, fun single away unfit => ?_, fun single away p fit bulk dx8 => ?_, fun single here => ?_, fun grouped dx8 => ?_, fun grouped able => ?_⟩
    · obtain ⟨parts, joined, others, taken, listed⟩ := bindMsg_noted_joins (m := m) found (task.map (·.val)) (mKind h) rfl (bound.mpr fit) (fun both =>
        able.elim (fun ne => ne (kind.symm.trans both.1)) (fun not => Bool.false_ne_true (not.symm.trans both.2)))
      refine ⟨_, m, binds single away, parts, joined, others, taken, rfl, class_, kind, rfl, rfl, rfl, ?_, rfl, rfl, rfl, ?_, ?_⟩
      · rw [← class_]
        rfl
      · rintro j rfl
        rw [← kind]
        exact listed.trans (noted_posted_some ..)
      · rintro rfl
        exact listed.trans (noted_posted_none ..)
    · have waits := bindMsg_noted_waits (m := m) found (task.map (·.val)) (mKind h) rfl (Option.eq_none_iff_forall_ne_some.mpr (fun p b => unfit p (bound.mp b)))
      refine ⟨_, m, (binds single away).trans (congrArg Host.Outcome.next waits),
        OnlyParts.trans (noted_parts s (task.map (·.val)) (mKind h) n y) (unsent_parts _ _) (by decide) (by decide), rfl, rfl, rfl, ?_⟩
      rw [← class_]
      rfl
    · have fails := bindMsg_noted_fails (m := m) found (task.map (·.val)) (mKind h) rfl (bound.mpr fit) ⟨kind.trans bulk, dx8⟩
      have left := failSend_parts (noted s n y (task.map (·.val)) (mKind h)) m.die stLinkClassUnsupported m.task
      refine ⟨_, (binds single away).trans (congrArg Host.Outcome.next fails), (left .ports (by decide)).trans (noted_ports ..),
        (left .unsent (by decide)).trans (noted_parts _ _ _ _ _ .unsent (by decide)), ?_⟩
      rintro j rfl busy going open_
      have slot := slotOf_noted s (some j.val) (mKind h) n y j
      have ended : slotOf (failSend (noted s n y (some j.val) (mKind h)) (88 + d) stLinkClassUnsupported (some j.val)) j = _ :=
        (endTask_slotOf _ _ _ _ _ _ (slot ▸ busy) (slot ▸ going) (slot ▸ open_) _).trans (if_pos rfl)
      exact ⟨congrArg Slot.ending ended, congrArg Slot.status ended⟩
    · have same := postMsg_delivers found ok (w.take 4) data (die := 88 + d) (task.map (·.val)) (word w 5) single here
      rw [header] at same
      refine ⟨noted s n y (task.map (·.val)) (mKind h), noted_parts s (task.map (·.val)) (mKind h) n y, strand_noted _ _ found, ?_⟩
      intro v
      rw [posts, same]
    · exact posts.trans (congrArg Host.Outcome.next ((postMsg_groupFails found ok _ _ _ _ grouped dx8).trans (failSend_map ..)))
    · have same := postMsg_groupJoins found ok (w.take 4) data (die := 88 + d) (task.map (·.val)) (word w 5) grouped able
      dsimp only at same
      rw [header] at same
      obtain ⟨parts, others, given⟩ := groupJoined s n group y (task.map (·.val)) (mKind h)
        (fun z => { z with starts := z.starts ++ [mStream h], strand := n, die := (groupPorts s group).headD 0 / 2 })
        (toGroup s group y h data (leaving s (88 + d) n y h (task.map (·.val)) (word w 5)))
      refine ⟨_, posts.trans (congrArg Host.Outcome.next same), parts, others, fun p listed => ?_⟩
      obtain ⟨lead, joined⟩ := given p listed
      refine ⟨_, joined, rfl, rfl, ?_⟩
      rw [← class_]
      rfl
  · refine congrArg Host.Outcome.next (ite_eq_left_iff.mpr (fun _ => ?_))
    unfold updStrand
    rw [none_]

end Sys2Proof.Machine
end

section
/-! PROOF. Multicast groups (15 R385 to R387). -/

namespace Sys2Proof.Machine

open Sys2Proof Sys2Proof.Safety

/-! Groups and control messages. -/

theorem group_updGroup_same (s : State) (g : Nat) (f : Group → Group) : group (updGroup s g f) g = f (group s g) := tget_tset_same ..
theorem group_updGroup_other (s : State) {g h : Nat} (f : Group → Group) (differs : h ≠ g) : group (updGroup s g f) h = group s h :=
  (tget_tset ..).trans (if_neg (Ne.symm differs))
theorem group_congr {s t : State} (same : t.groups = s.groups) (g : Nat) : group t g = group s g := by
  unfold group
  rw [same]

theorem controlTo_parts (s : State) (type dst fields : Nat) : OnlyParts [.ports] s (controlTo s type dst fields) :=
  OnlyParts.ite (fun _ => updPort_parts s _ _) (fun _ r _ => by cases r <;> rfl)
theorem controlTo_sends {s : State} {dst : Nat} (routed : routePort s dst < 16) (type fields : Nat) :
    (port (controlTo s type dst fields) (routePort s dst)).control = (port s (routePort s dst)).control ++ [control type dst (ownDev s) fields] := by
  unfold controlTo sendControl
  dsimp only
  rw [if_pos routed, port_updPort_same]
theorem controlTo_sending (s : State) (type dst fields p : Nat) : (port (controlTo s type dst fields) p).sending = (port s p).sending := by
  unfold controlTo sendControl
  dsimp only
  split
  · rw [port_updPort]
    split
    · next same => rw [same]
    · rfl
  · rfl
/-- What a port's queue of control messages holds stays there when more is sent. -/
theorem controlTo_mem {s : State} {m : Nat} (type dst fields p : Nat) (listed : m ∈ (port s p).control) : m ∈ (port (controlTo s type dst fields) p).control := by
  unfold controlTo sendControl
  dsimp only
  split
  · rw [port_updPort]
    split
    · next same => exact List.mem_append_left _ (same ▸ listed)
    · exact listed
  · exact listed

theorem ownDev_congr {s t : State} (dict : t.dict = s.dict) (power : t.power = s.power) : ownDev t = ownDev s := by
  unfold ownDev objNat
  rw [objBytes_congr dict power]
theorem routePort_congr {s t : State} (dict : t.dict = s.dict) (power : t.power = s.power) : routePort t = routePort s := by
  funext dev
  unfold routePort
  rw [objBytes_congr dict power]

/-! MCAST_ACK (R385, R387). -/

/-- What an acknowledgement makes of a member, when the retained buffer begins at `oldest`. -/
def memberAcked (dev off oldest : Nat) (busy : Bool) (y : Member) : Member :=
  if y.dev ≠ dev then y
  else { y with
    acked := max y.acked off
    attached := y.attached || ((!y.attached && decide (oldest ≤ off)) && !busy)
    joining := (!y.attached && decide (oldest ≤ off)) && busy }

/-- The members of a group once one has been heard. -/
def heardMembers (s : State) (g dev : Nat) : List Member :=
  if (group s g).members.any (·.dev == dev) then (group s g).members else (group s g).members ++ [{ dev := dev }]

/-- A message of the group has begun at a port. -/
def groupBusy (s : State) (g : Nat) : Bool := s.ports.any (fun p => p.2.sending.any (fun m => m.posted && m.mcast && m.rcv == g && m.started))

theorem groupBusy_iff {s : State} {g : Nat} : groupBusy s g = true ↔ ∃ q ∈ s.ports, ∃ m ∈ q.2.sending, m.posted = true ∧ m.mcast = true ∧ m.rcv = g ∧ m.started = true := by
  simp only [groupBusy, List.any_eq_true, Bool.and_eq_true, beq_iff_eq, and_assoc]

theorem memberAcked_other {dev off oldest : Nat} {busy : Bool} {y : Member} (h : y.dev ≠ dev) : memberAcked dev off oldest busy y = y := if_pos h
theorem memberAcked_own {dev off oldest : Nat} {busy : Bool} {y : Member} (h : y.dev = dev) : memberAcked dev off oldest busy y = { y with
    acked := max y.acked off
    attached := y.attached || ((!y.attached && decide (oldest ≤ off)) && !busy)
    joining := (!y.attached && decide (oldest ≤ off)) && busy } := if_neg (fun ne => ne h)

theorem mem_heardMembers {s : State} {g dev : Nat} {y : Member} (h : y ∈ (group s g).members) : y ∈ heardMembers s g dev := by
  unfold heardMembers
  split
  · exact h
  · exact List.mem_append_left _ h

/-- The state after an acknowledgement, before the limit is looked at. -/
def acked (s : State) (g dev off : Nat) : State :=
  updGroup s g (fun x => { x with members := (heardMembers s g dev).map (memberAcked dev off (slowest s g) (groupBusy s g)) })

theorem execMcastAck_eq (grp member : BitVec 12) (offset : Word) (s : State) : exec (.mcastAck grp member offset) s = .next (
    if (group (acked s grp.toNat member.toNat offset.toNat) grp.toNat).sent < slowest (acked s grp.toNat member.toNat offset.toNat) grp.toNat + 2 ^ 20
    then updGroup (acked s grp.toNat member.toNat offset.toNat) grp.toNat (fun x => { x with limitSince := none })
    else acked s grp.toNat member.toNat offset.toNat) := rfl

/-- The end of a limit changes neither who is slowest nor what has been sent. -/
theorem slowest_unlimited (u : State) (g : Nat) : slowest (updGroup u g (fun x => { x with limitSince := none })) g = slowest u g := by
  have same := group_updGroup_same u g (fun x => { x with limitSince := none })
  unfold slowest
  rw [same]
  rfl

theorem mcastAcked (grp member : BitVec 12) (offset : Word) (s : State) : let g := grp.toNat
    ∃ t, exec (.mcastAck grp member offset) s = .next t ∧ OnlyParts [.groups] s t ∧ (∀ h, h ≠ g → group t h = group s h) ∧
      (group t g).members = (heardMembers s g member.toNat).map (memberAcked member.toNat offset.toNat (slowest s g) (groupBusy s g)) ∧
      ((group s g).sent < slowest t g + 2 ^ 20 → (group t g).limitSince = none) := by
  intro g
  have noted : group (acked s g member.toNat offset.toNat) g = _ := group_updGroup_same ..
  have parts : OnlyParts [.groups] s (acked s g member.toNat offset.toNat) := updGroup_parts _ _ _
  have others (h : Nat) (differs : h ≠ g) : group (acked s g member.toNat offset.toNat) h = group s h := group_updGroup_other _ _ differs
  have eq := execMcastAck_eq grp member offset s
  rw [show grp.toNat = g from rfl] at eq
  generalize acked s g member.toNat offset.toNat = u at noted parts others eq
  by_cases free : (group u g).sent < slowest u g + 2 ^ 20
  · rw [if_pos free] at eq
    have freed : group (updGroup u g (fun x => { x with limitSince := none })) g = _ := group_updGroup_same ..
    exact ⟨_, eq, OnlyParts.trans parts (updGroup_parts _ _ _) (by decide) (by decide), fun h differs => (group_updGroup_other _ _ differs).trans (others h differs),
      by rw [freed, noted], fun _ => by rw [freed]⟩
  · rw [if_neg free] at eq
    exact ⟨u, eq, parts, others, by rw [noted], fun small => absurd (by rw [noted]; exact small) free⟩

/-! DETACH_TIMEOUT (R386). -/

/-- The member that a limit waits for. -/
def slowestMember (s : State) (g : Nat) : Option Member :=
  ((group s g).members.filter (·.attached)).find? (fun m => m.acked == slowest s g && decide (m.acked < (group s g).sent))

/-- A member may be detached: the limit has held for long enough, and every other attached member has everything. -/
def mayDetach (s : State) (g since : Nat) (m : Member) : Bool :=
  decide (objNat s 0x503002 * 1000 ≤ now s - since) && ((group s g).members.filter (·.attached)).all (fun y => y.dev == m.dev || y.acked == (group s g).sent)
    && decide (1 < ((group s g).members.filter (·.attached)).length)

/-- A group once a member has been detached. -/
def detachedGroup (dev : Nat) (x : Group) : Group :=
  { x with limitSince := none, members := x.members.map (fun y => if y.dev = dev then { y with attached := false } else y) }

/-- The member is told, leaves the send limit and is counted. -/
def detached (s : State) (g : Nat) (m : Member) : State :=
  bump (updGroup (controlTo s 7 m.dev (g % 4096 + m.acked * 2 ^ 12)) g (detachedGroup m.dev)) (lnkOff (group s g).die LNK_MCAST_DETACH_COUNT) 1

section
variable {grp : BitVec 12} {s : State}

theorem execDetachTimeout_unlimited (h : (group s grp.toNat).limitSince = none) : exec (.detachTimeout grp) s = .next s := by
  show execDetachTimeout grp s = _
  unfold execDetachTimeout
  dsimp only
  rw [h]

theorem execDetachTimeout_eq {a : Nat} (h : (group s grp.toNat).limitSince = some a) : exec (.detachTimeout grp) s = .next (match slowestMember s grp.toNat with
    | none => s
    | some m => if mayDetach s grp.toNat a m then detached s grp.toNat m else s) := by
  show execDetachTimeout grp s = _
  unfold execDetachTimeout
  dsimp only
  rw [h]
  rfl

/-- Nothing is detached where no member is both slowest and behind, or where the one that is may not be. -/
theorem execDetachTimeout_stays (h : ∀ a m, slowestMember s grp.toNat = some m → mayDetach s grp.toNat a m = false) : exec (.detachTimeout grp) s = .next s := by
  cases limit : (group s grp.toNat).limitSince with
  | none => exact execDetachTimeout_unlimited limit
  | some a =>
    rw [execDetachTimeout_eq limit]
    cases found : slowestMember s grp.toNat with
    | none => rfl
    | some m =>
      dsimp only
      rw [h a m found]
      rfl

theorem mayDetach_late {a : Nat} {m : Member} {g : Nat} (early : now s - a < objNat s 0x503002 * 1000) : mayDetach s g a m = false := by
  unfold mayDetach
  rw [decide_eq_false (Nat.not_le.mpr early)]
  rfl
theorem mayDetach_few {a : Nat} {m : Member} {g : Nat} (few : ((group s g).members.filter (·.attached)).length ≤ 1) : mayDetach s g a m = false := by
  unfold mayDetach
  rw [decide_eq_false (Nat.not_lt.mpr few), Bool.and_false]
theorem mayDetach_behind {a : Nat} {m : Member} {g : Nat} (behind : ∃ y ∈ (group s g).members.filter (·.attached), y.dev ≠ m.dev ∧ y.acked ≠ (group s g).sent) :
    mayDetach s g a m = false := by
  unfold mayDetach
  have short : ((group s g).members.filter (·.attached)).all (fun y => y.dev == m.dev || y.acked == (group s g).sent) = false := by
    rw [List.all_eq_false]
    obtain ⟨y, listed, other, less⟩ := behind
    exact ⟨y, listed, by simp [other, less]⟩
  rw [short, Bool.and_false, Bool.false_and]
theorem mayDetach_all {a : Nat} {m : Member} {g : Nat} (late : objNat s 0x503002 * 1000 ≤ now s - a) (many : 1 < ((group s g).members.filter (·.attached)).length)
    (all : ∀ y ∈ (group s g).members.filter (·.attached), y.dev = m.dev ∨ y.acked = (group s g).sent) : mayDetach s g a m = true := by
  unfold mayDetach
  have every : ((group s g).members.filter (·.attached)).all (fun y => y.dev == m.dev || y.acked == (group s g).sent) = true := by
    rw [List.all_eq_true]
    exact fun y listed => by simpa using all y listed
  rw [decide_eq_true late, every, decide_eq_true many]
  rfl

theorem slowestMember_none {g : Nat} (h : ∀ m ∈ (group s g).members.filter (·.attached), m.acked = slowest s g → (group s g).sent ≤ m.acked) : slowestMember s g = none := by
  unfold slowestMember
  rw [List.find?_eq_none]
  intro m listed both
  simp only [Bool.and_eq_true, beq_iff_eq, decide_eq_true_eq] at both
  exact absurd both.2 (Nat.not_lt.mpr (h m listed both.1))

end

theorem detached_group (s : State) (g : Nat) (m : Member) : group (detached s g m) g = detachedGroup m.dev (group s g) := by
  have told : group (controlTo s 7 m.dev (g % 4096 + m.acked * 2 ^ 12)) g = group s g := group_congr (controlTo_parts s _ _ _ .groups (by decide)) g
  exact (group_updGroup_same ..).trans (by rw [told])

theorem detached_does (s : State) {g : Nat} (m : Member) (small : g < 4096) : let t := detached s g m
    OnlyParts [.regs, .ports, .groups] s t ∧
      (routePort s m.dev < 16 → (port t (routePort s m.dev)).control = (port s (routePort s m.dev)).control ++ [control 7 m.dev (ownDev s) (g + m.acked * 2 ^ 12)]) ∧
      reg t (lnkOff (group s g).die LNK_MCAST_DETACH_COUNT) = (reg s (lnkOff (group s g).die LNK_MCAST_DETACH_COUNT) + 1) % 2 ^ 64 ∧ (group t g).limitSince = none ∧
      (∀ y ∈ (group t g).members, y.dev = m.dev → y.attached = false) ∧ ∀ y ∈ (group s g).members, y.dev ≠ m.dev → y ∈ (group t g).members := by
  intro t
  have known : group t g = _ := detached_group s g m
  have told := controlTo_parts s 7 m.dev (g % 4096 + m.acked * 2 ^ 12)
  have left : OnlyParts [.ports, .groups] s (updGroup (controlTo s 7 m.dev (g % 4096 + m.acked * 2 ^ 12)) g (detachedGroup m.dev)) :=
    OnlyParts.trans told (updGroup_parts _ _ _) (by decide) (by decide)
  refine ⟨OnlyParts.trans left (bump_parts _ _ _) (by decide) (by decide), fun routed => ?_, ?_, by rw [known]; rfl, fun y listed own => ?_, fun y listed other => ?_⟩
  · exact (controlTo_sends routed _ _).trans (by rw [Nat.mod_eq_of_lt small])
  · refine (reg_bump _ _ _ _).trans ((if_pos rfl).trans ?_)
    rw [reg_congr (left .regs (by decide))]
  · rw [known] at listed
    obtain ⟨z, _, rfl⟩ := List.mem_map.mp listed
    split at own
    · next same => rw [if_pos same]
    · next differs => exact absurd own differs
  · rw [known]
    exact List.mem_map.mpr ⟨y, listed, if_neg other⟩

/-! DETACH (R387). -/

/-- A die other than the management die sends its event over the chain. -/
theorem raise_parts {die : Nat} (other : die ≠ mgtDie) (s : State) (code severity n c : Nat) (args : List Nat) : OnlyParts [.net] s (raise s die code severity n c args) := by
  unfold raise
  dsimp only
  rw [if_neg other]
  exact fun r hr => by cases r <;> first | (exfalso; simp at hr; done) | rfl

/-- The member's gap record, as it is begun. -/
def gapRecorded (s : State) (d k g lo hi : Nat) : State :=
  setReg (setReg (setReg (setReg { s with gapNext := tset s.gapNext d ((k + 1) % 16) } (gapOff d k 0) (g + groupStrand s g * 2 ^ 12)) (gapOff d k 1) lo) (gapOff d k 2) hi)
    (gapOff d k 3) (now s)

theorem gapRecorded_parts (s : State) (d k g lo hi : Nat) : OnlyParts [.regs, .gapNext] s (gapRecorded s d k g lo hi) :=
  fun r hr => by cases r <;> first | (exfalso; simp at hr; done) | rfl
theorem gapRecorded_next (s : State) (d k g lo hi : Nat) : tget 0 (gapRecorded s d k g lo hi).gapNext d = (k + 1) % 16 := tget_tset_same ..
theorem gapRecorded_regs (s : State) (d k g lo hi : Nat) : let u := gapRecorded s d k g lo hi
    reg u (gapOff d k 0) = (g + groupStrand s g * 2 ^ 12) % 2 ^ 64 ∧ reg u (gapOff d k 1) = lo % 2 ^ 64 ∧ reg u (gapOff d k 2) = hi % 2 ^ 64 ∧ reg u (gapOff d k 3) = now s % 2 ^ 64 := by
  have apart {i j : Nat} (ne : i ≠ j) : gapOff d k i ≠ gapOff d k j := by
    unfold gapOff lnkOff
    omega
  unfold gapRecorded
  refine ⟨?_, ?_, ?_, reg_setReg_same ..⟩
  · rw [reg_setReg_other _ _ (apart (by decide)), reg_setReg_other _ _ (apart (by decide)), reg_setReg_other _ _ (apart (by decide)), reg_setReg_same]
  · rw [reg_setReg_other _ _ (apart (by decide)), reg_setReg_other _ _ (apart (by decide)), reg_setReg_same]
  · rw [reg_setReg_other _ _ (apart (by decide)), reg_setReg_same]

theorem askRange_parts (s : State) (g lo hi : Nat) : OnlyParts [.ports, .groups] s (askRange s g lo hi) :=
  OnlyParts.trans (updGroup_parts s g _) (controlTo_parts _ _ _ _) (by decide) (by decide)
theorem askRange_group (s : State) (g lo hi : Nat) : group (askRange s g lo hi) g = { group s g with asked := hi } :=
  (group_congr (controlTo_parts _ _ _ _ .groups (by decide)) g).trans (group_updGroup_same s g (fun x => { x with asked := hi }))
theorem askRange_sends {s : State} {g : Nat} (routed : routePort s (group s g).srcDev < 16) (lo hi : Nat) :
    (port (askRange s g lo hi) (routePort s (group s g).srcDev)).control = (port s (routePort s (group s g).srcDev)).control ++
      [control 8 (group s g).srcDev (ownDev s) (g % 4096 + lo % 2 ^ 64 * 2 ^ 12 + hi % 2 ^ 64 * 2 ^ 76)] :=
  controlTo_sends (s := updGroup s g (fun x => { x with asked := hi })) routed 8 (g % 4096 + lo % 2 ^ 64 * 2 ^ 12 + hi % 2 ^ 64 * 2 ^ 76)

/-- A member that its source has detached, and the gap record that it writes. -/
def detachedFrom (src lo d k : Nat) (x : Group) : Group := { x with detached := true, gap := some (d, k), partly := false, srcDev := src, accepted := lo }

theorem execDetach_eq (p : PortId) (src grp : BitVec 12) (lo : Word) (s : State) : exec (.detach p src grp lo) s = .next (
    let d := p.val / 2
    let k := tget 0 s.gapNext d
    let hi := max (group s grp.toNat).newest lo.toNat
    let u := updGroup (gapRecorded s d k grp.toNat lo.toNat hi) grp.toNat (detachedFrom src.toNat lo.toNat d k)
    askRange (raise u (88 + d) 0x706 1 (groupStrand u grp.toNat) 0 [grp.toNat, lo.toNat, hi]) grp.toNat lo.toNat hi) := rfl

theorem detachTold (p : PortId) (src grp : BitVec 12) (from_ : Word) (s : State) : let g := grp.toNat
    let d := p.val / 2
    let k := tget 0 s.gapNext d
    let hi := max (group s g).newest from_.toNat
    ∃ t, exec (.detach p src grp from_) s = .next t ∧ OnlyParts [.regs, .ports, .groups, .gapNext, .net] s t ∧ tget 0 t.gapNext d = (k + 1) % 16 ∧
      reg t (gapOff d k 0) = g + groupStrand s g * 2 ^ 12 ∧ reg t (gapOff d k 1) = from_.toNat ∧ reg t (gapOff d k 2) = hi % 2 ^ 64 ∧ reg t (gapOff d k 3) = now s % 2 ^ 64 ∧
      (group t g).detached = true ∧ (group t g).gap = some (d, k) ∧ (group t g).accepted = from_.toNat ∧ SentEvent s t (88 + d) 0x706 1 [g, from_.toNat, hi] ∧
      (routePort s src.toNat < 16 → (port t (routePort s src.toNat)).control = (port s (routePort s src.toNat)).control ++
        [control 8 src.toNat (ownDev s) (g + from_.toNat * 2 ^ 12 + hi % 2 ^ 64 * 2 ^ 76)]) := by
  intro g d k hi
  have eq := execDetach_eq p src grp from_ s
  dsimp only at eq
  have parts := gapRecorded_parts s d k g from_.toNat hi
  have next := gapRecorded_next s d k g from_.toNat hi
  obtain ⟨word0, word1, word2, word3⟩ := gapRecorded_regs s d k g from_.toNat hi
  change exec _ s = .next (askRange (raise (updGroup (gapRecorded s d k g from_.toNat hi) g (detachedFrom src.toNat from_.toNat d k)) (88 + d) 0x706 1 _ 0 [g, from_.toNat, hi]) g from_.toNat hi) at eq
  generalize gapRecorded s d k g from_.toNat hi = u at *
  have grouped : OnlyParts [.regs, .gapNext, .groups] s (updGroup u g (detachedFrom src.toNat from_.toNat d k)) :=
    OnlyParts.trans parts (updGroup_parts _ _ _) (by decide) (by decide)
  have known : group (updGroup u g (detachedFrom src.toNat from_.toNat d k)) g = detachedFrom src.toNat from_.toNat d k (group u g) := group_updGroup_same ..
  have vregs : (updGroup u g (detachedFrom src.toNat from_.toNat d k)).regs = u.regs := rfl
  have vnext : (updGroup u g (detachedFrom src.toNat from_.toNat d k)).gapNext = u.gapNext := rfl
  generalize updGroup u g (detachedFrom src.toNat from_.toNat d k) = v at *
  have here : 88 + d ≠ mgtDie := by
    unfold mgtDie
    omega
  have told := raise_parts here v 0x706 1 (groupStrand v g) 0 [g, from_.toNat, hi]
  have event : SentEvent s (raise v (88 + d) 0x706 1 (groupStrand v g) 0 [g, from_.toNat, hi]) (88 + d) 0x706 1 [g, from_.toNat, hi] :=
    raise_sentEvent s v _ _ _ _ _ _ here (grouped .net (by decide)) (congrArg Clock.reftime (grouped .clock (by decide)))
  generalize raise v (88 + d) 0x706 1 (groupStrand v g) 0 [g, from_.toNat, hi] = w at *
  have wgroup : group w g = detachedFrom src.toNat from_.toNat d k (group u g) := (group_congr (told .groups (by decide)) g).trans known
  have asks := askRange_parts w g from_.toNat hi
  have tgroup : group (askRange w g from_.toNat hi) g = _ := askRange_group ..
  have regs (off : Nat) : reg (askRange w g from_.toNat hi) off = reg u off :=
    reg_congr ((asks .regs (by decide)).trans ((told .regs (by decide)).trans vregs)) off
  have wparts : OnlyParts [.regs, .gapNext, .groups, .net] s w := OnlyParts.trans grouped told (by decide) (by decide)
  have source : (group w g).srcDev = src.toNat := by rw [wgroup]; rfl
  have route : routePort w = routePort s := routePort_congr (wparts .dict (by decide)) (wparts .power (by decide))
  have strandSmall : groupStrand s g < 2 ^ 18 := Nat.mod_lt _ (by decide)
  have small : g < 4096 := grp.isLt
  have wide : g + groupStrand s g * 2 ^ 12 < 2 ^ 64 := by omega
  refine ⟨_, eq, OnlyParts.trans wparts asks (by decide) (by decide), ?_, ?_, ?_, ?_, ?_, ?_, ?_, ?_, sentEvent_of_net event (asks .net (by decide)), fun routed => ?_⟩
  · rw [asks .gapNext (by decide), told .gapNext (by decide), vnext, next]
  · rw [regs, word0, Nat.mod_eq_of_lt wide]
  · rw [regs, word1, Nat.mod_eq_of_lt from_.isLt]
  · rw [regs, word2]
  · rw [regs, word3]
  · rw [tgroup, wgroup]
    rfl
  · rw [tgroup, wgroup]
    rfl
  · rw [tgroup, wgroup]
    rfl
  · have sends := askRange_sends (s := w) (g := g) (by rw [source, route]; exact routed) from_.toNat hi
    rw [source, route, ownDev_congr (wparts .dict (by decide)) (wparts .power (by decide)), Nat.mod_eq_of_lt small, Nat.mod_eq_of_lt from_.isLt] at sends
    exact sends.trans (by rw [port_congr (wparts .ports (by decide))])

end Sys2Proof.Machine
end

section
/-! PROOF. Multicast recovery (15 R387), and what its source and its members do. -/

namespace Sys2Proof.Machine

open Sys2Proof Sys2Proof.Safety

/-! RECOVER (R387). -/

theorem cutAt_whole {lo hi : Nat} {starts : List Nat} (whole : ∀ a ∈ starts, a ≤ lo ∨ hi ≤ a) : cutAt lo hi starts = [(lo, hi)] := by
  have none_ : starts.filter (fun a => decide (lo < a ∧ a < hi)) = [] := by
    rw [List.filter_eq_nil_iff]
    intro a listed both
    have bounds := of_decide_eq_true both
    have := whole a listed
    omega
  unfold cutAt
  dsimp only
  rw [none_]
  rfl

/-- The words of a piece of the stream, as a place keeps them. -/
def recoveryWords (s : State) (n : Nat) (va : Nat → Nat) (lo hi : Nat) : List Nat :=
  (List.range ((hi - lo) / 8)).map (fun i => match translate s n (va (lo + 8 * i)) false with | .ok a => rd64 s a | .err _ => 0)

/-- The message that brings a piece of the stream to a member. -/
def recoveryMsg (s : State) (g member : Nat) (y : Strand) (va : Nat → Nat) (lo hi : Nat) : SentMsg :=
  { strand := (group s g).strand, die := 88 + (group s g).die, seq := y.txSeq, kind := 4, dst := member, rcv := peerStrand s (group s g).strand,
    flits := mkFlits 2 false member (peerStrand s (group s g).strand) y.txSeq ([4 + ownDev s * 2 ^ 22, hi - lo, 0, lo] ++ recoveryWords s (group s g).strand va lo hi), since := now s }

theorem sendRecovery_eq {s : State} {g member : Nat} {y : Strand} (found : strand s (group s g).strand = some y) (routed : routePort s member < 16) (va : Nat → Nat) (lo hi : Nat) :
    sendRecovery s g member va (lo, hi) = updPort (bump (updStrand s (group s g).strand (fun y' => { y' with txSeq := (y.txSeq + 1) % 65536 }))
      (lnkOff (group s g).die LNK_RECOVER_BYTES) (hi - lo)) (routePort s member) (fun z => { z with sending := z.sending ++ [recoveryMsg s g member y va lo hi] }) := by
  unfold sendRecovery
  simp only [found, routed, if_true]
  rfl

/-- What sending a piece of the stream to a member comes to. -/
def Recovers (s t : State) (g member : Nat) (va : Nat → Nat) (lo hi : Nat) : Prop := ∀ y, strand s (group s g).strand = some y → ∃ m, OnlyParts [.regs, .hst, .ports] s t ∧
  (port t (routePort s member)).sending = (port s (routePort s member)).sending ++ [m] ∧ m.kind = 4 ∧ m.cls = 2 ∧ m.dst = member ∧ m.strand = (group s g).strand ∧
  m.flits = mkFlits 2 false member (peerStrand s (group s g).strand) y.txSeq ([4 + ownDev s * 2 ^ 22, hi - lo, 0, lo] ++ recoveryWords s (group s g).strand va lo hi) ∧
  strand t (group s g).strand = some { y with txSeq := (y.txSeq + 1) % 65536 } ∧
  reg t (lnkOff (group s g).die LNK_RECOVER_BYTES) = (reg s (lnkOff (group s g).die LNK_RECOVER_BYTES) + (hi - lo)) % 2 ^ 64

theorem sendRecovery_recovers {s : State} {g member : Nat} (routed : routePort s member < 16) (va : Nat → Nat) (lo hi : Nat) :
    Recovers s (sendRecovery s g member va (lo, hi)) g member va lo hi := by
  intro y found
  rw [sendRecovery_eq found routed]
  have parts := updStrand_parts s (group s g).strand (fun y' => { y' with txSeq := (y.txSeq + 1) % 65536 })
  have taken : strand (updStrand s (group s g).strand (fun y' => { y' with txSeq := (y.txSeq + 1) % 65536 })) (group s g).strand = some { y with txSeq := (y.txSeq + 1) % 65536 } :=
    strand_updStrand_some found
  generalize updStrand s (group s g).strand (fun y' => { y' with txSeq := (y.txSeq + 1) % 65536 }) = u at *
  refine ⟨recoveryMsg s g member y va lo hi, OnlyParts.trans (OnlyParts.trans parts (bump_parts _ _ _) (n := [.regs, .hst]) (by decide) (by decide)) (updPort_parts _ _ _) (by decide) (by decide), ?_, rfl, rfl, rfl, rfl, rfl, taken, ?_⟩
  · rw [port_updPort_same]
    exact congrArg (fun z : Port => z.sending ++ _) (port_congr (parts .ports (by decide)) _)
  · refine (reg_bump _ _ _ _).trans ((if_pos rfl).trans ?_)
    rw [reg_congr (parts .regs (by decide))]

/-- The range that a member asked for which its source has sent. -/
def sentTo (s : State) (g : Nat) (hi : Word) : Nat := min hi.toNat (group s g).sent
/-- Where the part of a range that the retained buffer no longer holds ends. -/
def retainedFrom (s : State) (g : Nat) (lo hi : Word) : Nat := max lo.toNat (min (sentTo s g hi) (slowest s g))

/-- The part of a range that is lost is reported and counted. -/
def reportLost (s : State) (g member lo mid : Nat) : State :=
  bump (controlTo s 10 member (g + lo * 2 ^ 12 + mid * 2 ^ 76 + ((group s g).starts.filter (fun a => decide (lo ≤ a ∧ a < mid))).length % 65536 * 2 ^ 140))
    (lnkOff (group s g).die LNK_LOST_BYTES) (mid - lo)

/-- What a source does for the part of a range that the retained buffer no longer holds. -/
def recoverOld (s : State) (g member lo mid : Nat) : State :=
  if mid ≤ lo then s
  else if bits (groupWord s g 2) 47 0 ≠ 0 then each (cutAt lo mid (group s g).starts) s (fun v c => sendRecovery v g member (fun o => bits (groupWord s g 2) 47 0 + o) c)
  else reportLost s g member lo mid

section
variable {grp : BitVec 12} {lo hi : Word} {s : State} (p : PortId) (member : BitVec 12)

theorem execRecover_eq (grp : BitVec 12) (lo hi : Word) (s : State) : exec (.recover p grp member lo hi) s = .next (
    if retainedFrom s grp.toNat lo hi < sentTo s grp.toNat hi then
      each (cutAt (retainedFrom s grp.toNat lo hi) (sentTo s grp.toNat hi) (group s grp.toNat).starts) (recoverOld s grp.toNat member.toNat lo.toNat (retainedFrom s grp.toNat lo hi))
        (fun v c => sendRecovery v grp.toNat member.toNat (fun o => bits (groupWord s grp.toNat 1) 47 0 + o % 2 ^ 20) c)
    else recoverOld s grp.toNat member.toNat lo.toNat (retainedFrom s grp.toNat lo hi)) := rfl

theorem recoverOld_none {g m a mid : Nat} (h : mid ≤ a) : recoverOld s g m a mid = s := if_pos h

theorem execRecover_empty (h : sentTo s grp.toNat hi ≤ lo.toNat) : exec (.recover p grp member lo hi) s = .next s := by
  have here : retainedFrom s grp.toNat lo hi = lo.toNat := by
    unfold retainedFrom
    omega
  rw [execRecover_eq, here, if_neg (Nat.not_lt.mpr h), recoverOld_none (Nat.le_refl _)]

theorem execRecover_retained (wide : lo.toNat < sentTo s grp.toNat hi) (whole : ∀ a ∈ (group s grp.toNat).starts, a ≤ lo.toNat ∨ sentTo s grp.toNat hi ≤ a)
    (kept : slowest s grp.toNat ≤ lo.toNat) : exec (.recover p grp member lo hi) s =
      .next (sendRecovery s grp.toNat member.toNat (fun o => bits (groupWord s grp.toNat 1) 47 0 + o % 2 ^ 20) (lo.toNat, sentTo s grp.toNat hi)) := by
  have here : retainedFrom s grp.toNat lo hi = lo.toNat := by
    unfold retainedFrom
    omega
  rw [execRecover_eq, here, if_pos wide, recoverOld_none (Nat.le_refl _), cutAt_whole whole]
  rfl

/-- Where the retained buffer holds nothing of the range, its source does no more than for the part that it no longer holds. -/
theorem execRecover_old (wide : lo.toNat < sentTo s grp.toNat hi) (old : sentTo s grp.toNat hi ≤ slowest s grp.toNat) : exec (.recover p grp member lo hi) s =
    .next (recoverOld s grp.toNat member.toNat lo.toNat (sentTo s grp.toNat hi)) := by
  have here : retainedFrom s grp.toNat lo hi = sentTo s grp.toNat hi := by
    unfold retainedFrom
    omega
  rw [execRecover_eq, here, if_neg (Nat.lt_irrefl _)]

end

theorem recoverOld_backed {s : State} {g m lo hi : Nat} (wide : lo < hi) (backing : bits (groupWord s g 2) 47 0 ≠ 0) (whole : ∀ a ∈ (group s g).starts, a ≤ lo ∨ hi ≤ a) :
    recoverOld s g m lo hi = sendRecovery s g m (fun o => bits (groupWord s g 2) 47 0 + o) (lo, hi) := by
  unfold recoverOld
  rw [if_neg (Nat.not_le.mpr wide), if_pos backing, cutAt_whole whole]
  rfl

theorem recoverOld_lost {s : State} {g m lo hi : Nat} (wide : lo < hi) (backing : bits (groupWord s g 2) 47 0 = 0) : recoverOld s g m lo hi = reportLost s g m lo hi := by
  unfold recoverOld
  rw [if_neg (Nat.not_le.mpr wide), if_neg (fun h => h backing)]

theorem reportLost_does {s : State} {m : Nat} (routed : routePort s m < 16) (g lo hi : Nat) : let t := reportLost s g m lo hi
    OnlyParts [.regs, .ports] s t ∧
      (port t (routePort s m)).control = (port s (routePort s m)).control ++
        [control 10 m (ownDev s) (g + lo * 2 ^ 12 + hi * 2 ^ 76 + ((group s g).starts.filter (fun a => decide (lo ≤ a ∧ a < hi))).length % 65536 * 2 ^ 140)] ∧
      (port t (routePort s m)).sending = (port s (routePort s m)).sending ∧
      reg t (lnkOff (group s g).die LNK_LOST_BYTES) = (reg s (lnkOff (group s g).die LNK_LOST_BYTES) + (hi - lo)) % 2 ^ 64 := by
  have told := controlTo_parts s 10 m (g + lo * 2 ^ 12 + hi * 2 ^ 76 + ((group s g).starts.filter (fun a => decide (lo ≤ a ∧ a < hi))).length % 65536 * 2 ^ 140)
  refine ⟨OnlyParts.trans told (bump_parts _ _ _) (by decide) (by decide), controlTo_sends routed _ _, controlTo_sending _ _ _ _ _, ?_⟩
  refine (reg_bump _ _ _ _).trans ((if_pos rfl).trans ?_)
  rw [reg_congr (told .regs (by decide))]

/-! LOST (R387): the gap record, the acknowledgement and the marker. -/

/-- A register lies in no core's block. -/
def beyondCores (off : Nat) : Prop := 0x2000000 ≤ off

theorem beyondCores_gap (d k w : Nat) : beyondCores (gapOff d k w) := by
  unfold beyondCores gapOff lnkOff
  omega

theorem reg_coreBlock {q c o : Nat} (small : q < 2048) (core_ : c = queCore q) (low : o < 0x10000) {off : Nat} (beyond : beyondCores off) : off ≠ coreOff c o := by
  unfold beyondCores at beyond
  unfold queCore at core_
  unfold coreOff
  omega

/-- The registers beyond the cores' blocks are as they were. -/
def KeepsBeyond (s t : State) : Prop := ∀ off, beyondCores off → reg t off = reg s off

theorem KeepsBeyond.trans {s t u : State} (h : KeepsBeyond s t) (k : KeepsBeyond t u) : KeepsBeyond s u := fun off beyond => (k off beyond).trans (h off beyond)
theorem keepsBeyond_of_regs {s t : State} (h : t.regs = s.regs) : KeepsBeyond s t := fun off _ => reg_congr h off

section
variable {q : Nat} (small : q < 2048)
include small

theorem writeMarker_beyond (s : State) (pos : Nat) (m : QMarker) : KeepsBeyond s (writeMarker s q pos m) := by
  intro off beyond
  unfold writeMarker
  dsimp only
  have region (u : State) : reg (advanceTail u (queCore q) 1 (queRegion u q) 1) off = reg u off := by
    have block : regionOff (queCore q) 1 (queRegion u q) 1 = coreOff (queCore q) (0x3000 + queRegion u q * 0x40 + 8) := by
      unfold regionOff coreOff
      omega
    have few : queRegion u q < 64 := Nat.mod_lt _ (by decide)
    generalize queRegion u q = r at *
    unfold advanceTail
    dsimp only
    rw [block]
    exact reg_setReg_other _ _ (reg_coreBlock small rfl (by omega) beyond)
  have counted (u : State) : reg (bumpCore u (queCore q) QUE_MARK_COUNT 1) off = reg u off :=
    (reg_bump u (coreOff (queCore q) QUE_MARK_COUNT) off 1).trans (if_neg (reg_coreBlock small rfl (o := QUE_MARK_COUNT) (by decide) beyond).symm)
  have tagged (u : State) (p v : Nat) : reg (setTag u q p v) off = reg u off := by
    unfold setTag
    rw [updCore_reg_of]
  rw [counted, region, updQueue_reg_of, tagged, wrBytes_reg_of]

theorem showFull_beyond (s : State) : KeepsBeyond s (showFull s q) := by
  intro off beyond
  refine each_keeps (reg · off) _ s _ (fun u i _ => ?_)
  split
  · split
    · split
      · exact writeMarker_beyond small _ _ _ off beyond
      · rfl
    · rfl
  · rfl

theorem nextMarker_beyond (s : State) (seq n : Nat) : KeepsBeyond s (nextMarker s q seq n) := by
  unfold nextMarker
  dsimp only
  split
  · exact keepsBeyond_of_regs rfl
  · split
    · exact keepsBeyond_of_regs rfl
    · next m _ _ =>
      have shown := (keepsBeyond_of_regs (s := s) (t := updQueue s q (fun x => { x with marker := none, fullMarkers := x.fullMarkers ++ [m] })) rfl).trans
        (showFull_beyond small _)
      exact fun off beyond => shown off beyond

theorem joinMarker_beyond (s : State) (seq n bytes : Nat) (drops : List QDrop) : KeepsBeyond s (joinMarker s q seq n bytes drops) := by
  unfold joinMarker
  dsimp only
  exact (nextMarker_beyond small s seq n).trans (KeepsBeyond.trans (keepsBeyond_of_regs rfl)
    (keepsBeyond_of_regs ((markerTakesRow_within (M := 0x40) rfl _ q .refl).same .regs rfl)))

end

/-! A marker takes the messages that are lost (R295, R387). -/

theorem nextMarker_fits {s : State} {q n : Nat} (seq : Nat) (fits : (queue s q).marker = none ∨ ∃ m, (queue s q).marker = some m ∧ m.count + n ≤ 65535) :
    OnlyParts [.queues] s (nextMarker s q seq n) := by
  unfold nextMarker
  dsimp only
  rcases fits with none_ | ⟨m, found, fits⟩
  · rw [none_]
    exact fun r hr => by cases r <;> first | (exfalso; simp at hr; done) | rfl
  · rw [found]
    dsimp only
    rw [if_pos fits]
    exact fun r _ => by cases r <;> rfl

/-- The pending marker that takes more drops. -/
theorem nextMarker_marker (s : State) (q seq n : Nat) : ∃ m, (queue (nextMarker s q seq n) q).marker = some m ∧
    ((queue s q).marker = none → m.first = seq ∧ m.count = 0) ∧
    (∀ m0, (queue s q).marker = some m0 → (m0.count + n ≤ 65535 → m = m0) ∧ (65535 < m0.count + n → m.first = seq ∧ m.count = 0)) := by
  unfold nextMarker
  dsimp only
  cases found : (queue s q).marker with
  | none =>
    refine ⟨_, congrArg Queue.marker (queue_updQueue_same ..), fun _ => ⟨rfl, rfl⟩, fun m0 h => absurd h.symm (Option.some_ne_none _)⟩
  | some m0 =>
    dsimp only
    by_cases fits : m0.count + n ≤ 65535
    · rw [if_pos fits]
      exact ⟨m0, found, fun h => absurd h (Option.some_ne_none _), fun m1 same => ⟨fun _ => Option.some.inj same, fun more => absurd (Option.some.inj same ▸ more) (Nat.not_lt.mpr fits)⟩⟩
    · rw [if_neg fits]
      exact ⟨_, congrArg Queue.marker (queue_updQueue_same ..), fun h => absurd h (Option.some_ne_none _), fun m1 same => ⟨fun less => absurd (Option.some.inj same ▸ less) fits, fun _ => ⟨rfl, rfl⟩⟩⟩

theorem nextMarker_now (s : State) (q seq n : Nat) : now (nextMarker s q seq n) = now s :=
  congrArg Clock.reftime ((nextMarker_within (M := 0x53) rfl s q seq n .refl).same .clock rfl)

/-- The marker that drops have joined. -/
theorem joinMarker_marker (s : State) (q seq n bytes : Nat) (drops : List QDrop) : ∃ m, (queue (joinMarker s q seq n bytes drops) q).marker = some m ∧ m.tLast = now s ∧
    ((queue s q).marker = none → m.first = seq ∧ m.count = n) ∧
    (∀ m0, (queue s q).marker = some m0 → (m0.count + n ≤ 65535 → m.first = m0.first ∧ m.count = m0.count + n) ∧ (65535 < m0.count + n → m.first = seq ∧ m.count = n)) := by
  obtain ⟨m, found, fresh, pending⟩ := nextMarker_marker s q seq n
  have time := nextMarker_now s q seq n
  unfold joinMarker
  dsimp only
  generalize nextMarker s q seq n = u at *
  have joined : (queue (updQueue u q (fun x => { x with marker := x.marker.map (fun m => { m with
      count := m.count + n, bytes := m.bytes + bytes, tLast := now u, drops := m.drops ++ drops }) })) q).marker =
      some { m with count := m.count + n, bytes := m.bytes + bytes, tLast := now u, drops := m.drops ++ drops } := by
    rw [queue_updQueue_same, found]
    rfl
  generalize updQueue u q _ = v at *
  have rows : (queue (markerTakesRow v q) q).marker.map ({ · with row := none }) = (queue v q).marker.map ({ · with row := none }) :=
    congrArg Queue.marker (markerTakesRow_withoutRows v q)
  rw [joined, Option.map_some, Option.map_eq_some_iff] at rows
  obtain ⟨k, standing, same⟩ := rows
  have first : k.first = m.first := (congrArg QMarker.first same :)
  have count : k.count = m.count + n := (congrArg QMarker.count same :)
  have last : k.tLast = now u := (congrArg QMarker.tLast same :)
  refine ⟨k, standing, last.trans time, fun none_ => ?_, fun m0 had => ⟨fun fits => ?_, fun more => ?_⟩⟩
  · obtain ⟨begins, zero⟩ := fresh none_
    exact ⟨first.trans begins, by omega⟩
  · have stays := (pending m0 had).1 fits
    exact ⟨first.trans (by rw [stays]), by rw [count, stays]⟩
  · obtain ⟨begins, zero⟩ := (pending m0 had).2 more
    exact ⟨first.trans begins, by omega⟩

theorem joinMarker_parts (s : State) (q seq n bytes : Nat) (drops : List QDrop) : OnlyParts [.regs, .mem, .cores, .queues] s (joinMarker s q seq n bytes drops) :=
  Within.onlyParts (l := [.regs, .mem, .cores, .queues]) (back := false) (joinMarker_within rfl s q seq n bytes drops .refl)
theorem joinMarker_fits {s : State} {q n : Nat} (seq bytes : Nat) (drops : List QDrop) (fits : (queue s q).marker = none ∨ ∃ m, (queue s q).marker = some m ∧ m.count + n ≤ 65535) :
    OnlyParts [.queues] s (joinMarker s q seq n bytes drops) := by
  unfold joinMarker
  dsimp only
  exact OnlyParts.trans (nextMarker_fits seq fits) (Within.onlyParts (l := [.queues]) (back := false) (markerTakesRow_within rfl _ q (updQueue_within rfl _ q _ .refl))) (by decide) (by decide)

/-! A member's acknowledgement (R385, R387). -/

theorem gapState_parts (s : State) (g v : Nat) : OnlyParts [.regs] s (gapState s g v) := by
  unfold gapState
  split
  · exact setReg_parts _ _ _
  · exact fun r _ => by cases r <;> rfl

theorem gapState_word {s : State} {g d k : Nat} (gap : (group s g).gap = some (d, k)) (v : Nat) : bits (reg (gapState s g v) (gapOff d k 0)) 31 30 = v % 4 := by
  unfold gapState setField
  rw [gap]
  dsimp only
  rw [reg_setReg_same]
  exact bits_putBits_same _ _ (by decide)

/-- What an acknowledgement does at a member: the state of its gap record stays, or becomes 2 where part was lost. -/
theorem accept_does (s : State) (g off : Nat) : let t := accept s g off
    OnlyParts [.regs, .ports, .groups] s t ∧ (group t g).accepted = off ∧ (group t g).partly = (group s g).partly ∧ (group t g).gap = (group s g).gap ∧
      (routePort s (group s g).srcDev < 16 → control 6 (group s g).srcDev (ownDev s) (g % 4096 + off % 2 ^ 64 * 2 ^ 12) ∈ (port t (routePort s (group s g).srcDev)).control) ∧
      ((group s g).partly = true → ∀ d k, (group s g).gap = some (d, k) → bits (reg s (gapOff d k 0)) 31 30 = 2 → bits (reg t (gapOff d k 0)) 31 30 = 2) := by
  have first := updGroup_parts s g (fun x => { x with accepted := off })
  have known := group_updGroup_same s g (fun x => { x with accepted := off })
  unfold accept
  dsimp only
  generalize updGroup s g (fun x => { x with accepted := off }) = u at *
  have second := controlTo_parts u 6 (group u g).srcDev (g % 4096 + off % 2 ^ 64 * 2 ^ 12)
  have source : (group u g).srcDev = (group s g).srcDev := by rw [known]
  have route : routePort u = routePort s := routePort_congr (first .dict (by decide)) (first .power (by decide))
  have told (routed : routePort s (group s g).srcDev < 16) : control 6 (group s g).srcDev (ownDev s) (g % 4096 + off % 2 ^ 64 * 2 ^ 12) ∈
      (port (controlTo u 6 (group u g).srcDev (g % 4096 + off % 2 ^ 64 * 2 ^ 12)) (routePort s (group s g).srcDev)).control := by
    have sends := controlTo_sends (s := u) (dst := (group u g).srcDev) (by rw [source, route]; exact routed) 6 (g % 4096 + off % 2 ^ 64 * 2 ^ 12)
    rw [source, route, ownDev_congr (first .dict (by decide)) (first .power (by decide))] at sends
    rw [source, sends]
    exact List.mem_append_right _ (List.mem_singleton.mpr rfl)
  generalize controlTo u 6 (group u g).srcDev (g % 4096 + off % 2 ^ 64 * 2 ^ 12) = v at *
  have parts : OnlyParts [.ports, .groups] s v := OnlyParts.trans first second (by decide) (by decide)
  have vgroup : group v g = { group s g with accepted := off } := (group_congr (second .groups (by decide)) g).trans known
  have vregs : v.regs = s.regs := parts .regs (by decide)
  have stays (w : State) (left : OnlyParts [.regs] v w) (lost : (group s g).partly = true → ∀ d k, (group s g).gap = some (d, k) → bits (reg v (gapOff d k 0)) 31 30 = 2 → bits (reg w (gapOff d k 0)) 31 30 = 2) :
      OnlyParts [.regs, .ports, .groups] s w ∧ (group w g).accepted = off ∧ (group w g).partly = (group s g).partly ∧ (group w g).gap = (group s g).gap ∧
      (routePort s (group s g).srcDev < 16 → control 6 (group s g).srcDev (ownDev s) (g % 4096 + off % 2 ^ 64 * 2 ^ 12) ∈ (port w (routePort s (group s g).srcDev)).control) ∧
      ((group s g).partly = true → ∀ d k, (group s g).gap = some (d, k) → bits (reg s (gapOff d k 0)) 31 30 = 2 → bits (reg w (gapOff d k 0)) 31 30 = 2) := by
    have same : group w g = { group s g with accepted := off } := (group_congr (left .groups (by decide)) g).trans vgroup
    refine ⟨OnlyParts.trans parts left (by decide) (by decide), by rw [same], by rw [same], by rw [same], fun routed => ?_, fun partly d k gap had => lost partly d k gap ?_⟩
    · rw [port_congr (left .ports (by decide))]
      exact told routed
    · rwa [reg_congr vregs]
  split
  · exact stays v (fun r _ => by cases r <;> rfl) (fun _ _ _ _ had => had)
  · split
    · generalize min (group v g).newest (off + 2 ^ 20) = e
      have asks := askRange_parts v g off e
      have same := askRange_group v g off e
      rw [vgroup] at same
      refine ⟨OnlyParts.trans parts asks (by decide) (by decide), by rw [same], by rw [same], by rw [same], fun routed => controlTo_mem _ _ _ _ (told routed), fun _ d k _ had => ?_⟩
      rwa [reg_congr ((asks .regs (by decide)).trans vregs)]
    · refine stays _ (gapState_parts v g _) (fun partly d k gap _ => ?_)
      have word := gapState_word (s := v) (g := g) (d := d) (k := k) (by rw [vgroup]; exact gap) (if (group v g).partly then 2 else 1)
      rw [vgroup] at word ⊢
      exact word.trans (by rw [partly]; rfl)

end Sys2Proof.Machine
end

section
/-! PROOF. LOST at a member, and multicast groups as a whole (15 R385 to R387). -/

namespace Sys2Proof.Machine

open Sys2Proof Sys2Proof.Safety

/-- The member's record says that part of its range is lost. -/
def lostNoted (s : State) (g : Nat) : State := gapState (updGroup s g (fun x => { x with partly := true })) g 2

theorem lostNoted_parts (s : State) (g : Nat) : OnlyParts [.regs, .groups] s (lostNoted s g) :=
  OnlyParts.trans (updGroup_parts s g _) (gapState_parts _ _ _) (by decide) (by decide)
theorem lostNoted_group (s : State) (g : Nat) : group (lostNoted s g) g = { group s g with partly := true } :=
  (group_congr (gapState_parts _ _ _ .groups (by decide)) g).trans (group_updGroup_same s g (fun x => { x with partly := true }))
theorem lostNoted_word {s : State} {g d k : Nat} (gap : (group s g).gap = some (d, k)) : bits (reg (lostNoted s g) (gapOff d k 0)) 31 30 = 2 :=
  gapState_word (s := updGroup s g (fun x => { x with partly := true })) (by rw [group_updGroup_same]; exact gap) 2

/-- The marker of a queue target takes the messages that are lost. -/
def lostMarked (s : State) (g n bytes : Nat) : State :=
  if mKind (group s g).hdr = 1 then joinMarker s (mTgt (group s g).hdr) (queue s (mTgt (group s g).hdr)).seqNext n bytes [] else s

theorem execLost_eq (p : PortId) (grp : BitVec 12) (lo hi : Word) (msgs : BitVec 16) (s : State) : exec (.lost p grp lo hi msgs) s =
    .next (accept (lostMarked (lostNoted s grp.toNat) grp.toNat msgs.toNat (hi.toNat - lo.toNat)) grp.toNat hi.toNat) := rfl

theorem mTgt_small (h : List Nat) : mTgt h < 2048 := Nat.mod_lt _ (by decide)

theorem lostMarked_parts (s : State) (g n bytes : Nat) : OnlyParts [.regs, .mem, .cores, .queues] s (lostMarked s g n bytes) := by
  unfold lostMarked
  exact OnlyParts.ite (fun _ => joinMarker_parts _ _ _ _ _ _) (fun _ r _ => by cases r <;> rfl)
theorem lostMarked_fits {s : State} {g n : Nat} (bytes : Nat) (fits : mKind (group s g).hdr ≠ 1 ∨ (queue s (mTgt (group s g).hdr)).marker = none ∨
    ∃ m, (queue s (mTgt (group s g).hdr)).marker = some m ∧ m.count + n ≤ 65535) : OnlyParts [.queues] s (lostMarked s g n bytes) := by
  unfold lostMarked
  refine OnlyParts.ite (fun queued => joinMarker_fits _ _ _ (fits.resolve_left (fun ne => ne queued))) (fun _ r _ => by cases r <;> rfl)
theorem lostMarked_other {s : State} {g : Nat} (other : mKind (group s g).hdr ≠ 1) (n bytes : Nat) : lostMarked s g n bytes = s := if_neg other
theorem lostMarked_beyond (s : State) (g n bytes : Nat) : KeepsBeyond s (lostMarked s g n bytes) := by
  unfold lostMarked
  split
  · exact joinMarker_beyond (mTgt_small _) _ _ _ _ _
  · exact keepsBeyond_of_regs rfl
theorem lostMarked_marker {s : State} {g : Nat} (queued : mKind (group s g).hdr = 1) (n bytes : Nat) : let q := mTgt (group s g).hdr
    ∃ m, (queue (lostMarked s g n bytes) q).marker = some m ∧ m.tLast = now s ∧ ((queue s q).marker = none → m.first = (queue s q).seqNext ∧ m.count = n) ∧
      (∀ m0, (queue s q).marker = some m0 → (m0.count + n ≤ 65535 → m.first = m0.first ∧ m.count = m0.count + n) ∧
        (65535 < m0.count + n → m.first = (queue s q).seqNext ∧ m.count = n)) := by
  unfold lostMarked
  rw [if_pos queued]
  exact joinMarker_marker ..

theorem lostTold (p : PortId) (grp : BitVec 12) (from_ to_ : Word) (msgs : BitVec 16) (s : State) : let g := grp.toNat
    let x := group s g
    let q := mTgt x.hdr
    ∃ t, exec (.lost p grp from_ to_ msgs) s = .next t ∧ OnlyParts [.regs, .mem, .cores, .queues, .ports, .groups] s t ∧
      ((mKind x.hdr ≠ 1 ∨ (queue s q).marker = none ∨ (∃ m0, (queue s q).marker = some m0 ∧ m0.count + msgs.toNat ≤ 65535)) → OnlyParts [.regs, .queues, .ports, .groups] s t) ∧
      (group t g).partly = true ∧ (group t g).accepted = to_.toNat ∧
      (∀ d k, x.gap = some (d, k) → bits (reg t (gapOff d k 0)) 31 30 = 2) ∧
      (routePort s x.srcDev < 16 → control 6 x.srcDev (ownDev s) (g + to_.toNat * 2 ^ 12) ∈ (port t (routePort s x.srcDev)).control) ∧
      (mKind x.hdr ≠ 1 → t.queues = s.queues) ∧
      (mKind x.hdr = 1 → ∃ m, (queue t q).marker = some m ∧ m.tLast = now s ∧
        ((queue s q).marker = none → m.first = (queue s q).seqNext ∧ m.count = msgs.toNat) ∧
        (∀ m0, (queue s q).marker = some m0 →
          (m0.count + msgs.toNat ≤ 65535 → m.first = m0.first ∧ m.count = m0.count + msgs.toNat) ∧
          (65535 < m0.count + msgs.toNat → m.first = (queue s q).seqNext ∧ m.count = msgs.toNat))) := by
  intro g x q
  have eq := execLost_eq p grp from_ to_ msgs s
  have noted := lostNoted_parts s g
  have ugroup := lostNoted_group s g
  have word (d k : Nat) (gap : x.gap = some (d, k)) : bits (reg (lostNoted s g) (gapOff d k 0)) 31 30 = 2 := lostNoted_word gap
  rw [show grp.toNat = g from rfl] at eq
  generalize lostNoted s g = u at *
  have header : (group u g).hdr = x.hdr := by rw [ugroup]
  have queues : u.queues = s.queues := noted .queues (by decide)
  have marked := lostMarked_parts u g msgs.toNat (to_.toNat - from_.toNat)
  have fits (h : mKind x.hdr ≠ 1 ∨ (queue s q).marker = none ∨ ∃ m0, (queue s q).marker = some m0 ∧ m0.count + msgs.toNat ≤ 65535) :
      OnlyParts [.queues] u (lostMarked u g msgs.toNat (to_.toNat - from_.toNat)) :=
    lostMarked_fits _ (by rw [header, queue_congr queues]; exact h)
  have other (h : mKind x.hdr ≠ 1) : lostMarked u g msgs.toNat (to_.toNat - from_.toNat) = u := lostMarked_other (by rw [header]; exact h) _ _
  have beyond := lostMarked_beyond u g msgs.toNat (to_.toNat - from_.toNat)
  have marker (h : mKind x.hdr = 1) := lostMarked_marker (s := u) (g := g) (by rw [header]; exact h) msgs.toNat (to_.toNat - from_.toNat)
  simp only [header, queue_congr queues, show now u = now s from congrArg Clock.reftime (noted .clock (by decide))] at marker
  generalize lostMarked u g msgs.toNat (to_.toNat - from_.toNat) = v at *
  have vparts : OnlyParts [.regs, .mem, .cores, .queues, .groups] s v := OnlyParts.trans noted marked (by decide) (by decide)
  have vgroup : group v g = { x with partly := true } := (group_congr (marked .groups (by decide)) g).trans ugroup
  obtain ⟨taken, accepted, partly, -, told, keeps⟩ := accept_does v g to_.toNat
  rw [vgroup] at partly told keeps
  have tqueues : (accept v g to_.toNat).queues = v.queues := taken .queues (by decide)
  refine ⟨_, eq, OnlyParts.trans vparts taken (by decide) (by decide), fun h => ?_, partly, accepted, fun d k gap => ?_, fun routed => ?_, fun h => ?_, fun h => ?_⟩
  · exact OnlyParts.trans (OnlyParts.trans noted (fits h) (n := [.regs, .queues, .groups]) (by decide) (by decide)) taken (by decide) (by decide)
  · exact keeps rfl d k gap (by rw [beyond _ (beyondCores_gap d k 0)]; exact word d k gap)
  · have route : routePort v = routePort s := routePort_congr (vparts .dict (by decide)) (vparts .power (by decide))
    rw [route, ownDev_congr (vparts .dict (by decide)) (vparts .power (by decide)), Nat.mod_eq_of_lt grp.isLt, Nat.mod_eq_of_lt to_.isLt] at told
    exact told routed
  · rw [tqueues, other h, queues]
  · rw [queue_congr tqueues]
    exact marker h

theorem recovered (p : PortId) (grp member : BitVec 12) (from_ to_ : Word) (s : State) : let g := grp.toNat
    let x := group s g
    let lo := from_.toNat
    let hi := min to_.toNat x.sent
    let backing := bits (groupWord s g 2) 47 0
    let retain := bits (groupWord s g 1) 47 0
    let q := routePort s member.toNat
    let sends : (Nat → Nat) → Prop := fun va => ∃ t, exec (.recover p grp member from_ to_) s = .next t ∧ Recovers s t g member.toNat va lo hi
    (hi ≤ lo → exec (.recover p grp member from_ to_) s = .next s) ∧
    (lo < hi → q < 16 → (∀ a ∈ x.starts, a ≤ lo ∨ hi ≤ a) →
      (slowest s g ≤ lo → sends (fun o => retain + o % 2 ^ 20)) ∧ (hi ≤ slowest s g → backing ≠ 0 → sends (fun o => backing + o))) ∧
    (lo < hi → q < 16 → hi ≤ slowest s g → backing = 0 → exec (.recover p grp member from_ to_) s = .next (reportLost s g member.toNat lo hi)) := by
  intro g x lo hi backing retain q sends
  refine ⟨fun empty => execRecover_empty p member empty, fun wide routed whole => ⟨fun kept => ?_, fun old backed => ?_⟩, fun wide routed old none_ => ?_⟩
  · exact ⟨_, execRecover_retained p member wide whole kept, sendRecovery_recovers routed _ _ _⟩
  · refine ⟨_, (execRecover_old p member wide old).trans (congrArg Host.Outcome.next (recoverOld_backed wide backed whole)), sendRecovery_recovers routed _ _ _⟩
  · exact (execRecover_old p member wide old).trans (congrArg Host.Outcome.next (recoverOld_lost wide none_))

theorem multicast : Claims.Multicast := by
  refine ⟨fun grp member offset s => ?_, fun grp s => ?_, fun p src grp from_ s => detachTold p src grp from_ s, fun p grp member from_ to_ s => ?_,
    fun p grp from_ to_ msgs s => lostTold p grp from_ to_ msgs s⟩
  · intro g busy
    obtain ⟨t, runs, parts, others, members, limit⟩ := mcastAcked grp member offset s
    have listed (y : Member) (h : y ∈ (group s g).members) : memberAcked member.toNat offset.toNat (slowest s g) (groupBusy s g) y ∈ (group t g).members := by
      rw [members]
      exact List.mem_map_of_mem (mem_heardMembers h)
    refine ⟨t, runs, parts, others, fun y h other => ?_, fun y h own => ?_, fun none_ => ?_, limit⟩
    · have stays := listed y h
      rwa [memberAcked_other other] at stays
    · refine ⟨_, listed y h, ?_⟩
      rw [memberAcked_own own]
      refine ⟨rfl, rfl, fun att => ?_, fun att behind => ?_, fun att reached => ⟨fun h => ?_, fun h => ?_⟩⟩
      · simp [att]
      · simp [att, behind]
      · have began : groupBusy s g = true := groupBusy_iff.mpr h
        simp [att, reached, began]
      · have idle : groupBusy s g = false := Bool.eq_false_iff.mpr (fun began => h (groupBusy_iff.mp began))
        simp [att, reached, idle]
    · have fresh : ({ dev := member.toNat } : Member) ∈ heardMembers s g member.toNat := by
        unfold heardMembers
        rw [if_neg]
        · exact List.mem_append_right _ (List.mem_singleton.mpr rfl)
        · rw [List.any_eq_true]
          rintro ⟨y, h, same⟩
          exact none_ y h (beq_iff_eq.mp same)
      refine ⟨memberAcked member.toNat offset.toNat (slowest s g) (groupBusy s g) { dev := member.toNat }, ?_, ?_⟩
      · rw [members]
        exact List.mem_map_of_mem fresh
      · rw [memberAcked_own (dev := member.toNat) (y := { dev := member.toNat }) rfl]
        exact ⟨rfl, Nat.zero_max _, rfl⟩
  · intro g x att
    refine ⟨execDetachTimeout_unlimited, fun a limit early => ?_, fun all => ?_, fun few => ?_, fun a m limit late found => ⟨fun behind => ?_, fun every many => ?_⟩⟩
    · rw [execDetachTimeout_eq limit]
      cases slowestMember s grp.toNat with
      | none => rfl
      | some m => exact congrArg Host.Outcome.next (if_neg (fun h => Bool.false_ne_true ((mayDetach_late early).symm.trans h)))
    · refine execDetachTimeout_stays (fun a m found => ?_)
      rw [slowestMember_none all] at found
      exact absurd found.symm (Option.some_ne_none _)
    · exact execDetachTimeout_stays (fun a m _ => mayDetach_few few)
    · refine execDetachTimeout_stays (fun b k same => ?_)
      obtain rfl : m = k := Option.some.inj (found.symm.trans same)
      exact mayDetach_behind behind
    · have runs := execDetachTimeout_eq limit
      rw [show slowestMember s grp.toNat = some m from found] at runs
      dsimp only at runs
      rw [mayDetach_all late many every, if_pos rfl] at runs
      exact ⟨_, runs, detached_does s m grp.isLt⟩
  · have does := recovered p grp member from_ to_ s
    dsimp only at does ⊢
    obtain ⟨empty, brings, lost⟩ := does
    refine ⟨empty, fun wide routed whole => ⟨fun kept y found => ?_, fun old backed y found => ?_⟩, fun wide routed old none_ => ?_⟩
    · obtain ⟨t, runs, does⟩ := (brings wide routed whole).1 kept
      obtain ⟨m, rest⟩ := does y found
      exact ⟨t, m, runs, rest⟩
    · obtain ⟨t, runs, does⟩ := (brings wide routed whole).2 old backed
      obtain ⟨m, rest⟩ := does y found
      exact ⟨t, m, runs, rest⟩
    · have told := reportLost_does (m := member.toNat) routed grp.toNat from_.toNat (min to_.toNat (group s grp.toNat).sent)
      dsimp only at told
      exact ⟨_, lost wide routed old none_, told⟩

end Sys2Proof.Machine
end

section
/-! PROOF. In-transit merging (15 R388 to R390). -/

namespace Sys2Proof.Machine

open Sys2Proof Sys2Proof.Safety

/-! The fields of a merge context's word 0, of which the state are the lowest two bits. -/

theorem bits_mod_64 (w : Nat) {hi lo : Nat} (h : lo ≤ hi ∧ hi < 64) : bits (w % 2 ^ 64) hi lo = bits w hi lo := by
  refine Nat.eq_of_testBit_eq (fun i => ?_)
  unfold bits
  rw [Nat.testBit_mod_two_pow, Nat.testBit_mod_two_pow, Nat.testBit_shiftRight, Nat.testBit_shiftRight, Nat.testBit_mod_two_pow]
  by_cases small : i < hi + 1 - lo
  · rw [decide_eq_true (show lo + i < 64 by omega), Bool.true_and]
  · rw [decide_eq_false small, Bool.false_and, Bool.false_and]

theorem bits_above {w v : Nat} (same : w / 4 = v / 4) (hi : Nat) {lo : Nat} (h : 2 ≤ lo) : bits w hi lo = bits v hi lo := by
  unfold bits
  have split_ (u : Nat) : u >>> lo = (u / 4) >>> (lo - 2) := by
    rw [Nat.shiftRight_eq_div_pow, Nat.shiftRight_eq_div_pow, Nat.div_div_eq_div_mul, show 4 = 2 ^ 2 from rfl, ← Nat.pow_add, Nat.add_sub_cancel' h]
  rw [split_, split_, same]
theorem bit_above {w v : Nat} (same : w / 4 = v / 4) {i : Nat} (h : 2 ≤ i) : bit w i = bit v i := by
  rw [bit_eq_mod, bit_eq_mod]
  have split_ (u : Nat) : u / 2 ^ i = u / 4 / 2 ^ (i - 2) := by
    rw [Nat.div_div_eq_div_mul, show 4 = 2 ^ 2 from rfl, ← Nat.pow_add, Nat.add_sub_cancel' h]
  rw [split_, split_, same]

theorem putBits_state_above (w v : Nat) : putBits w 1 0 v / 4 = w / 4 := by
  have whole : putBits w 1 0 v = w - w % 4 + v % 4 := by
    unfold putBits bits
    simp
  omega

theorem bits_state_kept (w v : Nat) {hi lo : Nat} (h : 2 ≤ lo) (k : lo ≤ hi ∧ hi < 64) : bits (putBits w 1 0 v % 2 ^ 64) hi lo = bits w hi lo :=
  (bits_mod_64 _ k).trans (bits_above (putBits_state_above w v) hi h)
theorem bit_state_kept (w v : Nat) {i : Nat} (h : 2 ≤ i) (k : i < 64) : bit (putBits w 1 0 v % 2 ^ 64) i = bit w i := by
  refine Eq.trans ?_ (bit_above (putBits_state_above w v) h)
  unfold bit
  rw [Nat.testBit_mod_two_pow, decide_eq_true k, Bool.true_and]

section
variable {st a b : Nat} (hs : st < 4) (ha : a < 16) (hb : b < 2 ^ 18)
include hs ha hb

theorem contextWord_fields : bits ((st + a * 2 ^ 2 + b * 2 ^ 10) % 2 ^ 64) 5 2 = a ∧ bits ((st + a * 2 ^ 2 + b * 2 ^ 10) % 2 ^ 64) 27 10 = b ∧
    bit ((st + a * 2 ^ 2 + b * 2 ^ 10) % 2 ^ 64) 6 = false ∧ bits ((st + a * 2 ^ 2 + b * 2 ^ 10) % 2 ^ 64) 1 0 = st := by
  rw [Nat.mod_eq_of_lt (by omega), bit_eq_mod]
  unfold bits
  simp only [Nat.shiftRight_eq_div_pow, decide_eq_false_iff_not]
  norm_num
  omega

end

/-! MERGE_CONTEXT_OPEN (R388). -/

theorem updMerge_parts (s : State) (d x : Nat) (f : MergeCtx → MergeCtx) : OnlyParts [.merges] s (updMerge s d x f) :=
  fun r hr => by cases r <;> first | (exfalso; simp at hr; done) | rfl
theorem merge_updMerge_same (s : State) (d x : Nat) (f : MergeCtx → MergeCtx) : merge (updMerge s d x f) d x = f (merge s d x) := tget_tset_same ..
theorem merge_updMerge_other (s : State) {d x e y : Nat} (f : MergeCtx → MergeCtx) (h : e * 8 + y ≠ d * 8 + x) : merge (updMerge s d x f) e y = merge s e y :=
  (tget_tset ..).trans (if_neg (Ne.symm h))

/-- Word 0 of a context as its opening writes it: the state as it was, and the fields that software sets. -/
def contextSet (s : State) (d x v : Nat) : State := setReg s (mergeOff d x 0) (mergeState s d x + bits v 5 2 * 2 ^ 2 + bits v 27 10 * 2 ^ 10)

theorem contextSet_fields (s : State) (d x v : Nat) : let w := reg (contextSet s d x v) (mergeOff d x 0)
    bits w 5 2 = bits v 5 2 ∧ bits w 27 10 = bits v 27 10 ∧ bit w 6 = false ∧ bits w 1 0 = mergeState s d x := by
  unfold contextSet
  rw [reg_setReg_same]
  exact contextWord_fields (Nat.mod_lt _ (by decide)) (Nat.mod_lt _ (by decide)) (Nat.mod_lt _ (by decide))

theorem mergeOpened (d : LnkDie) (x : Fin 8) (value : Word) (s : State) : let v := value.toNat
    ∃ t, exec (.mergeContextOpen d x value) s = .next t ∧ OnlyParts [.regs, .merges] s t ∧ (∀ off, off ≠ mergeOff d x 0 → reg t off = reg s off) ∧
      bits (reg t (mergeOff d x 0)) 5 2 = bits v 5 2 ∧ bits (reg t (mergeOff d x 0)) 27 10 = bits v 27 10 ∧ bit (reg t (mergeOff d x 0)) 6 = false ∧
      (bit v 6 = true → mergeState t d x = 1 ∧ merge t d x = {} ∧ ∀ d' x', d' * 8 + x' ≠ d.val * 8 + x.val → merge t d' x' = merge s d' x') ∧
      (bit v 6 = false → mergeState t d x = mergeState s d x ∧ t.merges = s.merges) := by
  intro v
  have eq : exec (.mergeContextOpen d x value) s = .next (if bit v 6 then updMerge (setField (contextSet s d x v) (mergeOff d x 0) 1 0 1) d x (fun _ => {}) else contextSet s d x v) := rfl
  obtain ⟨inputs, target, shut, state⟩ := contextSet_fields s d x v
  have parts : OnlyParts [.regs] s (contextSet s d x v) := setReg_parts s _ _
  have others (off : Nat) (ne : off ≠ mergeOff d x 0) : reg (contextSet s d x v) off = reg s off := reg_setReg_other _ _ ne
  generalize contextSet s d x v = u at *
  rcases Bool.eq_false_or_eq_true (bit v 6) with opens | stays
  · rw [opens, if_pos rfl] at eq
    have word : reg (updMerge (setField u (mergeOff d x 0) 1 0 1) d x (fun _ => {})) (mergeOff d x 0) = putBits (reg u (mergeOff d x 0)) 1 0 1 % 2 ^ 64 := reg_setReg_same ..
    refine ⟨_, eq, OnlyParts.trans (OnlyParts.trans parts (setReg_parts u _ _) (n := [.regs]) (by decide) (by decide)) (updMerge_parts _ _ _ _) (by decide) (by decide),
      fun off ne => (reg_setReg_other u _ ne).trans (others off ne), ?_, ?_, ?_, fun _ => ⟨?_, merge_updMerge_same _ _ _ _, fun d' x' ne => ?_⟩, fun h => absurd (opens.symm.trans h) (by decide)⟩
    · rw [word, bits_state_kept _ _ (by decide) (by decide), inputs]
    · rw [word, bits_state_kept _ _ (by decide) (by decide), target]
    · rw [word, bit_state_kept _ _ (by decide) (by decide), shut]
    · unfold mergeState
      rw [word]
      exact bits_putBits_same _ _ (by decide)
    · refine (merge_updMerge_other _ _ ne).trans ?_
      unfold merge
      exact congrArg (tget _ · _) (parts .merges (by decide))
  · rw [stays, if_neg Bool.false_ne_true] at eq
    exact ⟨u, eq, OnlyParts.mono parts _ (by decide), others, inputs, target, shut, fun h => absurd (stays.symm.trans h) (by decide), fun _ => ⟨state, parts .merges (by decide)⟩⟩

/-! MERGE_ENTRY_EMIT (R389). -/

/-- The message of a context's output entries, whose target context at the next hop is `v`. -/
def outputHeader (l : List (Nat × F32)) (v : Nat) (final : Bool) : List Nat :=
  [3 + v % 2048 * 2 ^ 10 + b2n final * 2 ^ 21, 8 * l.length, ((l.head?).map (·.1)).getD 0, 0]
def outputWords (l : List (Nat × F32)) : List Nat := l.map (fun e => (e.1 - ((l.head?).map (·.1)).getD 0) % 2 ^ 32 + e.2.toNat * 2 ^ 32)

theorem outputHeader_kind (l : List (Nat × F32)) (v : Nat) : mKind (outputHeader l v false) = 3 ∧ mEnd (outputHeader l v false) = false := by
  have kind (a : Nat) (r : List Nat) : mKind (a :: r) = bits a 3 0 := rfl
  have final (a : Nat) (r : List Nat) : mEnd (a :: r) = bit a 21 := rfl
  unfold outputHeader
  rw [kind, final, bit_eq_mod]
  have small : v % 2048 < 2048 := Nat.mod_lt _ (by decide)
  generalize v % 2048 = a at *
  unfold bits b2n
  simp only [Nat.shiftRight_zero, decide_eq_false_iff_not, Bool.false_eq_true, if_false]
  norm_num
  omega

/-- A context's output entries leave it. -/
def outputTaken (s : State) (d x : Nat) : State := updMerge { s with freeIdx := s.freeIdx + 1 } d x (fun c => { c with out := [] })

theorem outputTaken_parts (s : State) (d x : Nat) : OnlyParts [.merges, .freeIdx] s (outputTaken s d x) :=
  fun r hr => by cases r <;> first | (exfalso; simp at hr; done) | rfl
theorem outputTaken_merge (s : State) (d x : Nat) : merge (outputTaken s d x) d x = { merge s d x with out := [] } := merge_updMerge_same ..

theorem mergeSend_posts (s : State) (d x : Nat) (final : Bool) : mergeSend s d x final = postMsg (outputTaken s d x) (88 + d) (bits (reg s (mergeOff d x 0)) 27 10)
    (outputHeader (merge s d x).out (freshFree s).1 final) (outputWords (merge s d x).out) none 0 := by
  unfold outputHeader outputWords
  rw [← List.length_map (f := fun e : Nat × F32 => (e.1 - (((merge s d x).out.head?).map (·.1)).getD 0) % 2 ^ 32 + e.2.toNat * 2 ^ 32)]
  rfl

/-- The inputs that a context reads. -/
def mergeIns (s : State) (d x : Nat) : List MergeIn := (List.range (mergeInputs s d x)).map (fun i => (merge s d x).inputs.getD i ({} : MergeIn))
/-- The indices at the heads of the inputs that have entries. -/
def headIndices (ins : List MergeIn) : List Nat := ins.filterMap (fun i => (i.entries.head?).map (·.1))
/-- The values of an index, in input order. -/
def valuesAt (ins : List MergeIn) (idx : Nat) : List F32 := ins.filterMap (fun i => match i.entries.head? with
  | some e => if e.1 = idx then some e.2 else none
  | none => none)
/-- The inputs once the entries of an index have been taken. -/
def inputsWithout (l : List MergeIn) (idx : Nat) : List MergeIn := l.map (fun i => match i.entries with
  | e :: r => if e.1 = idx then { i with entries := r } else i
  | [] => i)
/-- The sum of an index's values in input order, with the addition of R72. -/
def mergeSum (ins : List MergeIn) (idx : Nat) : F32 := ((valuesAt ins idx).drop 1).foldl addF32 ((valuesAt ins idx).headD 0)

/-- The entries of an index have been taken from the inputs. -/
def indexTaken (s : State) (d x idx : Nat) : State := updMerge s d x (fun c => { c with inputs := inputsWithout c.inputs idx })

theorem execMergeEntryEmit_eq (d : LnkDie) (x : Fin 8) (s : State) : exec (.mergeEntryEmit d x) s = .next (
    if mergeState s d x = 3 then (if (merge s d x).out.isEmpty then s else mergeSend s d x false)
    else if mergeState s d x ≠ 1 ∨ (mergeIns s d x).any (fun i => i.entries.isEmpty && !i.ended) then s
    else match headIndices (mergeIns s d x) with
      | [] => if bit (reg (setField s (mergeOff d x 0) 1 0 2) (mergeOff d x 0)) 4 then setField s (mergeOff d x 0) 1 0 2 else mergeSend (setField s (mergeOff d x 0) 1 0 2) d x true
      | k :: ks => if bit (reg (indexTaken s d x (ks.foldl min k)) (mergeOff d x 0)) 5 && isZeroF32 (mergeSum (mergeIns s d x) (ks.foldl min k)) then indexTaken s d x (ks.foldl min k)
        else mergeOut (indexTaken s d x (ks.foldl min k)) d x (ks.foldl min k) (mergeSum (mergeIns s d x) (ks.foldl min k))) := rfl

section
variable {ins : List MergeIn}

theorem waits_iff : ins.any (fun i => i.entries.isEmpty && !i.ended) = true ↔ ∃ i ∈ ins, i.entries = [] ∧ i.ended = false := by
  simp [List.any_eq_true]

theorem headIndices_none (h : ∀ i ∈ ins, i.entries = []) : headIndices ins = [] := by
  unfold headIndices
  rw [List.filterMap_eq_nil_iff]
  exact fun i listed => by rw [h i listed]; rfl

theorem mem_headIndices {k : Nat} : k ∈ headIndices ins ↔ ∃ i ∈ ins, ∃ v, i.entries.head? = some (k, v) := by
  unfold headIndices
  simp

/-- The least number of a list is what taking minima comes to. -/
theorem foldl_min_least {m : Nat} : ∀ {k : Nat} {ks : List Nat}, m ∈ k :: ks → (∀ j ∈ k :: ks, m ≤ j) → ks.foldl min k = m
  | k, [], h, _ => (List.mem_singleton.mp h).symm
  | k, j :: ks, h, least => by
    refine foldl_min_least (k := min k j) (ks := ks) ?_ (fun i listed => ?_)
    · have first := least k List.mem_cons_self
      have second := least j (List.mem_cons_of_mem _ List.mem_cons_self)
      rcases List.mem_cons.mp h with rfl | h
      · exact List.mem_cons.mpr (.inl (Nat.min_eq_left second).symm)
      · rcases List.mem_cons.mp h with rfl | h
        · exact List.mem_cons.mpr (.inl (Nat.min_eq_right first).symm)
        · exact List.mem_cons_of_mem _ h
    · rcases List.mem_cons.mp listed with rfl | listed
      · exact le_min (least k List.mem_cons_self) (least j (List.mem_cons_of_mem _ List.mem_cons_self))
      · exact least i (List.mem_cons_of_mem _ (List.mem_cons_of_mem _ listed))

end

section
variable {d : LnkDie} {x : Fin 8} {s : State}

theorem emit_idle (h1 : mergeState s d x ≠ 1) (h3 : mergeState s d x ≠ 3) : exec (.mergeEntryEmit d x) s = .next s := by
  rw [execMergeEntryEmit_eq, if_neg h3, if_pos (.inl h1)]
theorem emit_faulted (h : mergeState s d x = 3) : exec (.mergeEntryEmit d x) s = .next (if (merge s d x).out.isEmpty then s else mergeSend s d x false) := by
  rw [execMergeEntryEmit_eq, if_pos h]
theorem emit_waits (h : mergeState s d x = 1) (waits : ∃ i ∈ mergeIns s d x, i.entries = [] ∧ i.ended = false) : exec (.mergeEntryEmit d x) s = .next s := by
  rw [execMergeEntryEmit_eq, if_neg (by rw [h]; decide), if_pos (.inr (waits_iff.mpr waits))]
theorem emit_ends (h : mergeState s d x = 1) (ended : ∀ i ∈ mergeIns s d x, i.entries = [] ∧ i.ended = true) : exec (.mergeEntryEmit d x) s = .next (
    if bit (reg s (mergeOff d x 0)) 4 then setField s (mergeOff d x 0) 1 0 2 else mergeSend (setField s (mergeOff d x 0) 1 0 2) d x true) := by
  have ready : ¬ (mergeState s d x ≠ 1 ∨ (mergeIns s d x).any (fun i => i.entries.isEmpty && !i.ended)) := by
    rintro (ne | waits)
    · exact ne h
    · obtain ⟨i, listed, -, goes⟩ := waits_iff.mp waits
      exact Bool.false_ne_true (goes.symm.trans (ended i listed).2)
  have word : bit (reg (setField s (mergeOff d x 0) 1 0 2) (mergeOff d x 0)) 4 = bit (reg s (mergeOff d x 0)) 4 := by
    unfold setField
    rw [reg_setReg_same, bit_state_kept _ _ (by decide) (by decide)]
  rw [execMergeEntryEmit_eq, if_neg (by rw [h]; decide), if_neg ready, headIndices_none (fun i listed => (ended i listed).1)]
  dsimp only
  rw [word]
theorem emit_index {idx : Nat} (h : mergeState s d x = 1) (ready : ∀ i ∈ mergeIns s d x, i.entries ≠ [] ∨ i.ended = true)
    (has : ∃ i ∈ mergeIns s d x, ∃ v, i.entries.head? = some (idx, v)) (least : ∀ i ∈ mergeIns s d x, ∀ e, i.entries.head? = some e → idx ≤ e.1) :
    exec (.mergeEntryEmit d x) s = .next (if bit (reg s (mergeOff d x 0)) 5 && isZeroF32 (mergeSum (mergeIns s d x) idx) then indexTaken s d x idx
      else mergeOut (indexTaken s d x idx) d x idx (mergeSum (mergeIns s d x) idx)) := by
  have goes : ¬ (mergeState s d x ≠ 1 ∨ (mergeIns s d x).any (fun i => i.entries.isEmpty && !i.ended)) := by
    rintro (ne | waits)
    · exact ne h
    · obtain ⟨i, listed, none_, goes⟩ := waits_iff.mp waits
      exact (ready i listed).elim (fun ne => ne none_) (fun ended => Bool.false_ne_true (goes.symm.trans ended))
  have inHeads : idx ∈ headIndices (mergeIns s d x) := mem_headIndices.mpr has
  have below (k : Nat) (listed : k ∈ headIndices (mergeIns s d x)) : idx ≤ k := by
    obtain ⟨i, isIn, v, head⟩ := mem_headIndices.mp listed
    exact least i isIn _ head
  rw [execMergeEntryEmit_eq, if_neg (by rw [h]; decide), if_neg goes]
  cases heads : headIndices (mergeIns s d x) with
  | nil => exact absurd (heads ▸ inHeads) List.not_mem_nil
  | cons k ks =>
    dsimp only
    rw [foldl_min_least (heads ▸ inHeads) (fun j listed => below j (heads ▸ listed))]
    rfl

end

/-! An entry that leaves (R389). -/

theorem mergeOff_ne_count (d x w : Nat) : mergeOff d x w ≠ lnkOff d LNK_MERGE_OUT_ENTRIES := by
  unfold mergeOff lnkOff LNK_MERGE_OUT_ENTRIES
  omega

/-- An entry that leaves is counted. -/
def entryCounted (s : State) (d : Nat) : State := bump s (lnkOff d LNK_MERGE_OUT_ENTRIES) 1

theorem entryCounted_parts (s : State) (d : Nat) : OnlyParts [.regs] s (entryCounted s d) := bump_parts _ _ _
theorem entryCounted_count (s : State) (d : Nat) : reg (entryCounted s d) (lnkOff d LNK_MERGE_OUT_ENTRIES) = (reg s (lnkOff d LNK_MERGE_OUT_ENTRIES) + 1) % 2 ^ 64 :=
  (reg_bump _ _ _ _).trans (if_pos rfl)
theorem entryCounted_word (s : State) (d x w : Nat) : reg (entryCounted s d) (mergeOff d x w) = reg s (mergeOff d x w) :=
  (reg_bump _ _ _ _).trans (if_neg (mergeOff_ne_count d x w).symm)

/-- An entry waits in the context's output message. -/
def entryQueued (s : State) (d x idx : Nat) (v : F32) : State := updMerge s d x (fun c => { c with out := c.out ++ [(idx, v)], outCount := c.outCount + 1 })

theorem mergeOut_eq (s : State) (d x idx : Nat) (v : F32) : mergeOut s d x idx v =
    if bit (reg (entryCounted s d) (mergeOff d x 0)) 4 then
      (linkWrite (updMerge (entryCounted s d) d x (fun c => { c with outCount := (merge (entryCounted s d) d x).outCount + 1 })) (88 + d) (bits (reg (entryCounted s d) (mergeOff d x 0)) 27 10)
        (bits (reg (entryCounted s d) (mergeOff d x 3)) 47 0 + 8 * (merge (entryCounted s d) d x).outCount) (leBytes 4 idx ++ leBytes 4 v.toNat)).1
    else if 8192 ≤ (merge (entryQueued (entryCounted s d) d x idx v) d x).out.length then mergeSend (entryQueued (entryCounted s d) d x idx v) d x false
      else entryQueued (entryCounted s d) d x idx v := rfl

end Sys2Proof.Machine
end

section
/-! PROOF. Merge contexts as a whole (15 R388 to R390), and O60. -/

namespace Sys2Proof.Machine

open Sys2Proof Sys2Proof.Safety

/-- What a message of a context's output entries comes to, from a state that keeps the context's word 0. -/
theorem mergeSend_does {s u : State} {d x : Nat} (final : Bool) {word : Nat} (target : bits (reg u (mergeOff d x 0)) 27 10 = bits word 27 10) (parts : OnlyParts [.regs, .merges] s u) :
    ∃ w v, OnlyParts [.regs, .merges, .freeIdx] s w ∧ w.regs = u.regs ∧ merge w d x = { merge u d x with out := [] } ∧
      mergeSend u d x final = postMsg w (88 + d) (bits word 27 10) (outputHeader (merge u d x).out v final) (outputWords (merge u d x).out) none 0 := by
  refine ⟨outputTaken u d x, (freshFree u).1, OnlyParts.trans parts (outputTaken_parts u d x) (by decide) (by decide), outputTaken_parts u d x .regs (by decide), outputTaken_merge u d x, ?_⟩
  rw [mergeSend_posts, target]

section
variable {d : LnkDie} {x : Fin 8} {s : State}

/-- The entries that a faulted context still has are sent without END. -/
theorem faulted_sends (h : mergeState s d x = 3) (some_ : (merge s d x).out ≠ []) : ∃ u v, OnlyParts [.merges, .freeIdx] s u ∧ merge u d x = { merge s d x with out := [] } ∧
    exec (.mergeEntryEmit d x) s = .next (postMsg u (88 + d) (bits (reg s (mergeOff d x 0)) 27 10) (outputHeader (merge s d x).out v false) (outputWords (merge s d x).out) none 0) := by
  have full : ¬ (merge s d x).out.isEmpty = true := fun empty => some_ (List.isEmpty_iff.mp empty)
  refine ⟨outputTaken s d x, (freshFree s).1, outputTaken_parts s d x, outputTaken_merge s d x, ?_⟩
  rw [emit_faulted h, if_neg full, mergeSend_posts]

/-- When all inputs have ended the context is done, and its output ends with END unless it goes to OUT_VA. -/
theorem ended_does (h : mergeState s d x = 1) (ended : ∀ i ∈ mergeIns s d x, i.entries = [] ∧ i.ended = true) :
    (bit (reg s (mergeOff d x 0)) 4 = true → ∃ t, exec (.mergeEntryEmit d x) s = .next t ∧ OnlyParts [.regs] s t ∧ mergeState t d x = 2) ∧
    (bit (reg s (mergeOff d x 0)) 4 = false → ∃ u v, OnlyParts [.regs, .merges, .freeIdx] s u ∧ mergeState u d x = 2 ∧ merge u d x = { merge s d x with out := [] } ∧
      exec (.mergeEntryEmit d x) s = .next (postMsg u (88 + d) (bits (reg s (mergeOff d x 0)) 27 10) (outputHeader (merge s d x).out v true) (outputWords (merge s d x).out) none 0)) := by
  have runs := emit_ends h ended
  have word : reg (setField s (mergeOff d x 0) 1 0 2) (mergeOff d x 0) = putBits (reg s (mergeOff d x 0)) 1 0 2 % 2 ^ 64 := reg_setReg_same ..
  have parts : OnlyParts [.regs] s (setField s (mergeOff d x 0) 1 0 2) := setReg_parts s _ _
  have same : merge (setField s (mergeOff d x 0) 1 0 2) d x = merge s d x := rfl
  generalize setField s (mergeOff d x 0) 1 0 2 = t at *
  have state : bits (reg t (mergeOff d x 0)) 1 0 = 2 := by
    rw [word]
    exact bits_putBits_same _ _ (by decide)
  refine ⟨fun own => ?_, fun sends => ?_⟩
  · rw [own, if_pos rfl] at runs
    exact ⟨t, runs, parts, state⟩
  · rw [sends, if_neg Bool.false_ne_true] at runs
    obtain ⟨w, v, wparts, regs, taken, posts⟩ := mergeSend_does (s := s) (u := t) (x := x) true (word := reg s (mergeOff d x 0))
      (by rw [word, bits_state_kept _ _ (by decide) (by decide)]) (OnlyParts.mono parts _ (by decide))
    rw [same] at taken posts
    refine ⟨w, v, wparts, ?_, taken, runs.trans (congrArg Host.Outcome.next posts)⟩
    unfold mergeState
    rw [reg_congr regs, state]

/-- The sum of the lowest index leaves the context, or is left out where it is zero and DROP_ZERO is set. -/
theorem index_does {idx : Nat} (h : mergeState s d x = 1) (ready : ∀ i ∈ mergeIns s d x, i.entries ≠ [] ∨ i.ended = true)
    (has : ∃ i ∈ mergeIns s d x, ∃ v, i.entries.head? = some (idx, v)) (least : ∀ i ∈ mergeIns s d x, ∀ e, i.entries.head? = some e → idx ≤ e.1) :
    let word0 := reg s (mergeOff d x 0)
    let c := merge s d x
    let sum := mergeSum (mergeIns s d x) idx
    let rest := inputsWithout c.inputs idx
    (bit word0 5 = true → isZeroF32 sum = true → ∃ t, exec (.mergeEntryEmit d x) s = .next t ∧ OnlyParts [.merges] s t ∧ merge t d x = { c with inputs := rest }) ∧
    (bit word0 5 = false ∨ isZeroF32 sum = false → let counted := fun u => reg u (lnkOff d LNK_MERGE_OUT_ENTRIES) = (reg s (lnkOff d LNK_MERGE_OUT_ENTRIES) + 1) % 2 ^ 64
      (bit word0 4 = true → ∃ u, OnlyParts [.regs, .merges] s u ∧ counted u ∧ merge u d x = { c with inputs := rest, outCount := c.outCount + 1 } ∧
        exec (.mergeEntryEmit d x) s = .next (linkWrite u (88 + d.val) (bits word0 27 10) (bits (reg s (mergeOff d x 3)) 47 0 + 8 * c.outCount) (leBytes 4 idx ++ leBytes 4 sum.toNat)).1) ∧
      (bit word0 4 = false → c.out.length < 8191 → ∃ t, exec (.mergeEntryEmit d x) s = .next t ∧ OnlyParts [.regs, .merges] s t ∧ counted t ∧
        merge t d x = { inputs := rest, out := c.out ++ [(idx, sum)], outCount := c.outCount + 1 }) ∧
      (bit word0 4 = false → 8191 ≤ c.out.length → ∃ u, OnlyParts [.regs, .merges, .freeIdx] s u ∧ counted u ∧
        merge u d x = { inputs := rest, out := [], outCount := c.outCount + 1 } ∧ ∃ h data, mKind h = 3 ∧ mEnd h = false ∧ data.length = c.out.length + 1 ∧
        exec (.mergeEntryEmit d x) s = .next (postMsg u (88 + d) (bits word0 27 10) h data none 0))) := by
  intro word0 c sum rest
  have runs := emit_index h ready has least
  rw [show mergeSum (mergeIns s d x) idx = sum from rfl, show reg s (mergeOff d x 0) = word0 from rfl] at runs
  have parts : OnlyParts [.merges] s (indexTaken s d x idx) := updMerge_parts s d x _
  have taken : merge (indexTaken s d x idx) d x = { c with inputs := rest } := merge_updMerge_same s d x (fun c => { c with inputs := inputsWithout c.inputs idx })
  have regs : (indexTaken s d x idx).regs = s.regs := rfl
  generalize indexTaken s d x idx = t at *
  refine ⟨fun drops zero => ?_, fun keeps => ?_⟩
  · rw [drops, zero, Bool.and_true, if_pos rfl] at runs
    exact ⟨t, runs, parts, taken⟩
  · have stays : (bit word0 5 && isZeroF32 sum) = false := by
      rcases keeps with h | h <;> rw [h]
      · rfl
      · exact Bool.and_false _
    rw [stays, if_neg Bool.false_ne_true, mergeOut_eq] at runs
    have cparts : OnlyParts [.regs, .merges] s (entryCounted t d) := OnlyParts.trans parts (entryCounted_parts t d) (by decide) (by decide)
    have count := entryCounted_count t d
    have words (w : Nat) : reg (entryCounted t d) (mergeOff d x w) = reg s (mergeOff d x w) := (entryCounted_word t d x w).trans (reg_congr regs _)
    have same : merge (entryCounted t d) d x = { c with inputs := rest } := Eq.trans rfl taken
    rw [reg_congr regs] at count
    generalize entryCounted t d = u at *
    rw [words, words, same, show reg s (mergeOff d x 0) = word0 from rfl] at runs
    refine ⟨fun own => ?_, fun sends short => ?_, fun sends full => ?_⟩
    · rw [own, if_pos rfl] at runs
      exact ⟨_, OnlyParts.trans cparts (updMerge_parts u d x _) (by decide) (by decide), count, (merge_updMerge_same ..).trans (by rw [same]), runs⟩
    · have queued : merge (entryQueued u d x idx sum) d x = { inputs := rest, out := c.out ++ [(idx, sum)], outCount := c.outCount + 1 } :=
        (merge_updMerge_same ..).trans (by rw [same])
      have less : ¬ 8192 ≤ (merge (entryQueued u d x idx sum) d x).out.length := by
        rw [queued, List.length_append, List.length_singleton]
        omega
      rw [sends, if_neg Bool.false_ne_true, if_neg less] at runs
      exact ⟨_, runs, OnlyParts.trans cparts (updMerge_parts u d x _) (by decide) (by decide), count, queued⟩
    · have queued : merge (entryQueued u d x idx sum) d x = { inputs := rest, out := c.out ++ [(idx, sum)], outCount := c.outCount + 1 } :=
        (merge_updMerge_same ..).trans (by rw [same])
      have qparts : OnlyParts [.regs, .merges] s (entryQueued u d x idx sum) := OnlyParts.trans cparts (updMerge_parts u d x _) (by decide) (by decide)
      have qregs : (entryQueued u d x idx sum).regs = u.regs := rfl
      have more : 8192 ≤ (merge (entryQueued u d x idx sum) d x).out.length := by
        rw [queued, List.length_append, List.length_singleton]
        omega
      rw [sends, if_neg Bool.false_ne_true, if_pos more] at runs
      generalize entryQueued u d x idx sum = w at *
      obtain ⟨p, v, pparts, pregs, ptaken, posts⟩ := mergeSend_does (s := s) (u := w) (x := x) false (word := word0) (by rw [reg_congr qregs, words]) qparts
      rw [queued] at ptaken posts
      obtain ⟨kind, open_⟩ := outputHeader_kind (c.out ++ [(idx, sum)]) v
      refine ⟨p, pparts, ?_, ptaken, _, _, kind, open_, ?_, runs.trans (congrArg Host.Outcome.next posts)⟩
      · show reg p _ = _
        rw [reg_congr (pregs.trans qregs), count]
      · unfold outputWords
        rw [List.length_map, List.length_append, List.length_singleton]

end

theorem mergeContexts : Claims.MergeContexts := by
  refine ⟨fun d x value s => mergeOpened d x value s, fun d x s => ?_⟩
  intro c st word0 ins runs posts
  refine ⟨fun h1 h3 => emit_idle h1 h3, fun h empty => ?_, fun h some_ => ?_, fun h waits => emit_waits h waits, fun h ended => ?_, fun idx h ready has least => index_does h ready has least⟩
  · refine (emit_faulted h).trans (congrArg Host.Outcome.next (if_pos ?_))
    rw [show (merge s d x).out = [] from empty]
    rfl
  · obtain ⟨u, v, parts, taken, does⟩ := faulted_sends h some_
    exact ⟨u, parts, taken, v, does⟩
  · obtain ⟨own, sends⟩ := ended_does h ended
    refine ⟨own, fun next => ?_⟩
    obtain ⟨u, v, parts, state, taken, does⟩ := sends next
    exact ⟨u, parts, state, taken, v, does⟩

/-- Settles O60: multicast acknowledgements, detachments and recovery, and merge contexts; the context that the next hop's message names is a free value (log entry 28). -/
theorem multicastAndMerge : Obligations.MulticastAndMerge := ⟨multicast, mergeContexts⟩

end Sys2Proof.Machine
end

section
/-! SUPPORT. Active cores and masks being freed, which reading and writing lines, delivering messages and starting steps leave as they are (01 R15; 04 R106; 16 R411). -/

namespace Sys2Proof.Machine

open Sys2Proof Sys2Proof.Safety

/-- The active cores and the masks being freed are as they were. -/
structure RangeKept (s t : State) : Prop where
  active : activeMask t = activeMask s
  frees : t.hst.maskFrees = s.hst.maskFrees

theorem activeMask_congr {s t : State} (h : t.pkg = s.pkg) : activeMask t = activeMask s := by
  unfold activeMask
  rw [h]

namespace RangeKept

variable {s t : State}

theorem refl (s : State) : RangeKept s s := ⟨rfl, rfl⟩
theorem trans {u : State} (h : RangeKept s t) (k : RangeKept t u) : RangeKept s u := ⟨k.active.trans h.active, k.frees.trans h.frees⟩
/-- What comes after changes neither the package nor the HST die. -/
theorem within {m : Nat} {u : State} (h : RangeKept s t) (w : Within m t u) (pkg : m.testBit 3 = false) (hst : m.testBit 7 = false) : RangeKept s u :=
  h.trans ⟨activeMask_congr (w.same .pkg pkg), congrArg Hst.maskFrees (w.same .hst hst)⟩
theorem ite {u : State} {p : Prop} [Decidable p] (h : p → RangeKept s t) (k : ¬p → RangeKept s u) : RangeKept s (if p then t else u) := by
  split
  · exact h ‹_›
  · exact k ‹_›

theorem ringLost (h : RangeKept s t) (die : Nat) : RangeKept s (ringLost t die) := by
  have raised : RangeKept s (raise t mgtDie 0x101 3 0 0 [die]) := h.trans ⟨activeMask_congr (raise_pkg ..),
    raise_mgt_keeps (·.hst.maskFrees) t _ _ _ _ _ (fun _ _ => rfl) (fun u => by unfold sendMsix; dsimp only; split <;> rfl) (fun _ _ => rfl)⟩
  unfold Machine.ringLost
  exact .ite (fun _ => raised.trans ⟨rfl, rfl⟩) (fun _ => .ite (fun _ => raised.trans ⟨rfl, rfl⟩) (fun _ => .ite (fun _ => raised.trans ⟨rfl, rfl⟩) (fun _ => raised)))

theorem failRing (h : RangeKept s t) (die : Nat) : RangeKept s (failRing t die) := by
  have failed : RangeKept s (updPkg t (markFailed die)) := h.trans ⟨rfl, rfl⟩
  unfold Machine.failRing
  exact .ite (fun _ => h) (fun _ => failed.ringLost die)

theorem listPoison (h : RangeKept s t) (l : Nat) : RangeKept s (listPoison t l) := by
  unfold Machine.listPoison
  exact .ite (fun _ => h) (fun _ => .ite (fun _ => h.failRing _) (fun _ => h.trans ⟨rfl, rfl⟩))

theorem evictLine (h : RangeKept s t) (l : Nat) : RangeKept s (evictLine t l) := by
  unfold Machine.evictLine
  refine .ite (fun _ => listPoison ?_ l) (fun _ => h.trans ⟨rfl, rfl⟩)
  exact h.trans ⟨rfl, rfl⟩

theorem makeRoom (h : RangeKept s t) (l : Nat) : RangeKept s (makeRoom t l) := by
  have chosen : RangeKept s (freshFree t).2 := h.trans ⟨rfl, rfl⟩
  unfold Machine.makeRoom
  dsimp only
  refine .ite (fun _ => h) (fun _ => ?_)
  split
  · exact chosen.evictLine _
  · exact chosen

theorem touchLine (h : RangeKept s t) (l : Nat) : RangeKept s (touchLine t l) := by
  unfold Machine.touchLine
  exact .ite (fun _ => h) (fun _ => (h.makeRoom l).trans ⟨rfl, rfl⟩)

theorem readMiss (h : RangeKept s t) (a : Nat) (o : ReadOutcome) : RangeKept s (readMiss t a o).1 := by
  have read : RangeKept s (if isNear a then readMif t a o else readFar t a o).1 := by
    split
    · exact h.within (readMif_within (M := 0x201) rfl t a o .refl) rfl rfl
    · exact h.within (readFar_within (M := 0x1) rfl t a o .refl) rfl rfl
  unfold Machine.readMiss
  generalize (if isNear a then readMif t a o else readFar t a o) = r at read ⊢
  dsimp only
  split
  · exact read.touchLine _
  · exact read

theorem readLine (h : RangeKept s t) (a : Nat) (n : Fin 4) : RangeKept s (readLine t a (.ok n)).1 := by
  unfold Machine.readLine
  dsimp only
  split
  · exact h.within (uncorrectable_within (M := 0x1) rfl t a 0 .refl) rfl rfl
  · split
    · exact h
    · split
      · exact h.readMiss a _
      · exact h

theorem askHost (h : RangeKept s t) (a : Nat) (write : Bool) : RangeKept s (askHost t a write) :=
  h.within (askHost_within (M := 0x200000000) rfl t a write .refl) rfl rfl

theorem getLine (h : RangeKept s t) (n v : Nat) : RangeKept s (getLine t n v).1 := by
  unfold Machine.getLine
  split
  · exact h
  · next x _ =>
    split
    · exact (h.askHost x false).readLine x 0
    · split
      · exact h.trans ⟨rfl, rfl⟩
      · exact h

theorem untilFault {α : Type} {f : State → α → State × Nat} (kept : ∀ u x, RangeKept s u → RangeKept s (f u x).1) : ∀ (l : List α) {t : State}, RangeKept s t → RangeKept s (untilFault f l t).1
  | [], _, h => h
  | x :: l, t, h => by
    unfold Machine.untilFault
    dsimp only
    split
    · exact untilFault kept l (kept t x h)
    · exact kept t x h

theorem getRange (s : State) (n va len : Nat) : RangeKept s (getRange s n va len).1 :=
  untilFault (fun _ p h => h.getLine n p.1) (linePieces va len) (.refl s)

theorem takeTokens (h : RangeKept s t) (n : Nat) (tab shape : List Nat) : RangeKept s (takeTokens t n tab shape).1 := by
  have read : RangeKept s (Machine.getLine t n (pStateBase tab + 8)).1 := h.getLine n _
  unfold Machine.takeTokens
  dsimp only
  generalize Machine.getLine t n (pStateBase tab + 8) = r at read ⊢
  split
  · exact h
  · split
    · split
      · exact read.trans ⟨rfl, rfl⟩
      · exact read
    · exact read

end RangeKept

/-- The active cores are as they were. -/
def ActiveKept (s t : State) : Prop := activeMask t = activeMask s

namespace ActiveKept

variable {s t : State}

theorem refl (s : State) : ActiveKept s s := rfl
theorem trans {u : State} (h : ActiveKept s t) (k : ActiveKept t u) : ActiveKept s u := Eq.trans k h
/-- What comes after leaves the package. -/
theorem pkg {u : State} (h : ActiveKept s t) (same : u.pkg = t.pkg) : ActiveKept s u := (activeMask_congr same).trans h
theorem within {m : Nat} {u : State} (h : ActiveKept s t) (w : Within m t u) (pkg : m.testBit 3 = false) : ActiveKept s u := h.pkg (w.same .pkg pkg)
theorem range {u : State} (h : ActiveKept s t) (k : RangeKept t u) : ActiveKept s u := h.trans k.active
theorem ite {u : State} {p : Prop} [Decidable p] (h : p → ActiveKept s t) (k : ¬p → ActiveKept s u) : ActiveKept s (if p then t else u) := by
  split
  · exact h ‹_›
  · exact k ‹_›
theorem each {α : Type} {f : State → α → State} (kept : ∀ u x, ActiveKept u (f u x)) (h : ActiveKept s t) (l : List α) : ActiveKept s (each l t f) :=
  h.trans (each_keeps activeMask l t f (fun u x _ => kept u x))

/-! Lines that are written (13 R342). -/

theorem writeLine (h : ActiveKept s t) (a : Nat) (data : List Byte) (o : WriteOutcome) : ActiveKept s (writeLine t a data o).1 := by
  unfold Machine.writeLine
  dsimp only
  split
  · exact h.within (uncorrectable_within (M := 0x1) rfl t a 0 .refl) rfl
  · split
    · exact h.pkg rfl
    · have cleared : ActiveKept s (if (data.length == 512 && a % 512 == 0) = true then clearPoison t (lineOf a) else t) := .ite (fun _ => h.pkg rfl) (fun _ => h)
      generalize (if (data.length == 512 && a % 512 == 0) = true then clearPoison t (lineOf a) else t) = u at *
      have touched : ActiveKept s (Machine.touchLine u (lineOf a)) := cleared.range ((RangeKept.refl u).touchLine _)
      generalize Machine.touchLine u (lineOf a) = v at *
      split
      · refine within (m := 0x310000181) (touched.pkg ?_) (writeCrc_within rfl _ a o .refl) rfl
        rfl
      · exact touched.pkg rfl

theorem sliceWrite (h : ActiveKept s t) (a : Nat) (data : List Byte) (o : WriteOutcome) : ActiveKept s (sliceWrite t a data o).1 := by
  have asked : ActiveKept s (askHost t a true) := h.range ((RangeKept.refl t).askHost a true)
  unfold Machine.sliceWrite
  dsimp only
  generalize askHost t a true = u at *
  have read : ActiveKept s (if (data.length == 512 && a % 512 == 0 || u.cache.resident.contains (lineOf a)) = true then (u, stSuccess) else readMiss u a (.ok 0)).1 := by
    split
    · exact asked
    · exact asked.range ((RangeKept.refl u).readMiss a _)
  generalize (if (data.length == 512 && a % 512 == 0 || u.cache.resident.contains (lineOf a)) = true then (u, stSuccess) else readMiss u a (.ok 0)) = r at *
  split
  · exact read.writeLine a data o
  · exact read

theorem putAt (h : ActiveKept s t) (die x : Nat) (data : List Byte) : ActiveKept s (putAt t die x data).1 := by
  unfold Machine.putAt
  split
  · exact h.sliceWrite x data _
  · split
    · exact h.pkg rfl
    · split
      · exact h.within (mirrorWrite_within (M := 0x100000000) rfl t die x data .refl) rfl
      · split <;> exact h

theorem ovfStore (h : ActiveKept s t) (c n a : Nat) (data : List Byte) : ActiveKept s (ovfStore t c n a data) := by
  have ends (r : State × Nat) (stored : ActiveKept s r.1) : ActiveKept s (if r.2 = stSuccess then tagsWithin (bumpCore r.1 c CORE_ACC_OVF_ROWS 1) c n true [a / 512 * 512]
      else faultCore r.1 c r.2 31 0 a) := by
    split
    · refine within (m := 0x11) (t := bumpCore r.1 c CORE_ACC_OVF_ROWS 1) ?_ (tagsWithin_within rfl _ c n true _ .refl) rfl
      exact stored.pkg rfl
    · exact stored.within (faultCore_within (M := 0x3100008d3) rfl _ c r.2 31 0 a .refl) rfl
  unfold Machine.ovfStore
  refine ends _ ?_
  split
  · exact h
  · exact h.putAt _ _ _

/-! Rows at an ingress (08 R211 to R214). -/

theorem countWindow (h : ActiveKept s t) (c w : Nat) (region : Bool) : ActiveKept s (countWindow t c w region) :=
  h.within (countWindow_within (M := 0x100000011) rfl t c w region .refl) rfl

theorem rowStored (h : ActiveKept s t) (c m row : Nat) (data : List Byte) : ActiveKept s (loseHomes (writeRow (flushRow t c m row false) c m row data) c m row) :=
  h.within (loseHomes_within (M := 0x310000093) rfl _ c m row (writeRow_within rfl _ c m row data (flushRow_within rfl t c m row false .refl))) rfl

theorem landWindowRow (h : ActiveKept s t) (c w off : Nat) (data : List Byte) : ActiveKept s (landWindowRow t c w off data) := by
  unfold Machine.landWindowRow
  dsimp only
  split
  · split
    · refine countWindow (within (m := 0x1) ?_ (advanceTail_within rfl _ _ _ _ _ .refl) rfl) c w true
      exact h.rowStored ..
    · split
      · next a u found =>
        exact ((h.within (ovfAlloc_within (M := 0x10) rfl found .refl) rfl).ovfStore ..).countWindow c w false
      · exact h
  · split
    · exact h.within (addWindow_within (M := 0x3100008d3) rfl t c w off 0 data .refl) rfl
    · exact (h.rowStored ..).countWindow c w false

theorem ingressRow (h : ActiveKept s t) (c w off : Nat) (src : Source) (data : List Byte) : ActiveKept s (ingressRow t c w off src data).1 := by
  unfold Machine.ingressRow
  dsimp only
  split
  · exact h.landWindowRow ..
  · exact h.within (recordNack_within (M := 0x1) rfl t c w off _ src .refl) rfl

theorem ingressNarrow (h : ActiveKept s t) (c w off byte : Nat) (src : Source) (data : List Byte) (fails : Bool) : ActiveKept s (ingressNarrow t c w off byte src data fails).1 :=
  h.within (ingressNarrow_within (M := 0x3100008d3) rfl t c w off byte src data fails .refl) rfl

theorem untilFault {α : Type} {f : State → α → State × Nat} (kept : ∀ u x, ActiveKept s u → ActiveKept s (f u x).1) : ∀ (l : List α) {t : State}, ActiveKept s t → ActiveKept s (untilFault f l t).1
  | [], _, h => h
  | x :: l, t, h => by
    unfold Machine.untilFault
    dsimp only
    split
    · exact untilFault kept l (kept t x h)
    · exact kept t x h

theorem windowStore (h : ActiveKept s t) (src : Source) (a : Nat) (data : List Byte) : ActiveKept s (windowStore t src a data).1 := by
  unfold Machine.windowStore
  dsimp only
  split
  · exact h.within (recordNackAt_within (M := 0x1) rfl t _ _ _ 1 src .refl) rfl
  · split
    · exact h.ingressRow ..
    · exact untilFault (fun _ _ k => k.ingressNarrow ..) _ h

theorem putLine (h : ActiveKept s t) (src : Source) (n v : Nat) (data : List Byte) : ActiveKept s (putLine t src n v data).1 := by
  unfold Machine.putLine
  split
  · exact h
  · split
    · exact h.windowStore ..
    · exact h.putAt ..

theorem putRange (h : ActiveKept s t) (src : Source) (n v : Nat) (data : List Byte) : ActiveKept s (putRange t src n v data).1 := by
  unfold Machine.putRange
  have kept (l : List (Nat × Nat)) : ∀ r : State × Nat × Nat, ActiveKept s r.1 → ActiveKept s (l.foldl (fun r p => if r.2.1 ≠ stSuccess then r else Machine.putLine r.1 src n p.1 ((data.drop (p.1 - v)).take p.2)) r).1 := by
    induction l with
    | nil => exact fun _ k => k
    | cons p l ih =>
      refine fun r k => ih (if r.2.1 ≠ stSuccess then r else Machine.putLine r.1 src n p.1 ((data.drop (p.1 - v)).take p.2)) ?_
      split
      · exact k
      · exact k.putLine ..
  exact kept _ _ h

/-! Messages that are delivered here (15 R380). -/

theorem linkWrite (h : ActiveKept s t) (die n v : Nat) (data : List Byte) : ActiveKept s (linkWrite t die n v data).1 := h.putRange ..

theorem llAppend (h : ActiveKept s t) (die n : Nat) (data : List Byte) : ActiveKept s (llAppend t die n data) := pkg (h.linkWrite die n _ data) rfl

theorem llCopy (h : ActiveKept s t) (die n : Nat) (data : List Byte) : ActiveKept s (llCopy t die n data) := by
  unfold Machine.llCopy
  dsimp only
  exact .ite (fun _ => h.llAppend ..) (fun _ => h)

theorem refuseMsg (h : ActiveKept s t) (die : Nat) (r : RecvMsg) (cause : Nat) : ActiveKept s (refuseMsg t die r cause).1 :=
  h.within (refuseMsg_within (M := 0x310000891) rfl t die r cause .refl) rfl
theorem refusePort (h : ActiveKept s t) (die : Nat) (r : RecvMsg) : ActiveKept s (refusePort t die r).1 :=
  h.within (refusePort_within (M := 0x710000891) rfl t die r .refl) rfl

theorem deliverRow (h : ActiveKept s t) (die : Nat) (r : RecvMsg) (ws : List Nat) : ActiveKept s (deliverRow t die r ws).1 := by
  unfold Machine.deliverRow
  dsimp only
  split
  · exact h
  · split
    · exact (h.linkWrite ..).llCopy ..
    · exact (h.linkWrite ..).refuseMsg ..

theorem deliverWord (h : ActiveKept s t) (die : Nat) (r : RecvMsg) (w : Nat) : ActiveKept s (deliverWord t die r w).1 := by
  unfold Machine.deliverWord
  dsimp only
  split
  · split
    · exact h.refusePort die r
    · exact h.refusePort die r
    · next p _ _ =>
      have taken : ActiveKept s (queData t (target t r).2.2.1 p w).1 := h.within (queData_within (M := 0x100000853) rfl t _ p w .refl) rfl
      split
      · exact taken.llCopy ..
      · exact taken.refusePort ..
  · split
    · split
      · exact h.refuseMsg ..
      · split
        · exact h.refuseMsg ..
        · exact h.within (mergeTake_within (M := 0x310002081) rfl t _ _ _ _ _ .refl) rfl
    · exact h

theorem pump : ∀ (n : Nat) {t : State} (_ : ActiveKept s t) (die : Nat) (r : RecvMsg), ActiveKept s (pump n t die r).1
  | 0, _, h, _, _ => h
  | n + 1, t, h, die, r => by
    unfold Machine.pump
    dsimp only
    split
    · exact h
    · split
      · split
        · split
          · exact pump n ((h.ingressRow ..).llCopy ..) die _
          · exact (h.ingressRow ..).refuseMsg ..
        · split
          · split
            · exact pump n ((h.ingressNarrow ..).llCopy ..) die _
            · exact (h.ingressNarrow ..).refuseMsg ..
          · exact h
      · split
        · split
          · exact pump n (h.deliverRow ..) die _
          · exact h
        · split
          · exact h
          · split
            · exact h
            · exact pump n (h.deliverWord ..) die _

theorem deliverHere (h : ActiveKept s t) (die n seq : Nat) (hd data : List Nat) : ActiveKept s (deliverHere t die n seq hd data) := by
  unfold Machine.deliverHere
  dsimp only
  refine within (m := 0x7100028d3) (pump _ ?_ die _) (putMsg_within rfl _ _ _ .refl) rfl
  exact h.within (startMsg_within (M := 0x7100008d3) rfl t die _ .refl) rfl

/-- A message is posted, or delivered here. -/
theorem postMsg (h : ActiveKept s t) (die n : Nat) (w data : List Nat) (task : Option Nat) (done : Nat) : ActiveKept s (postMsg t die n w data task done) := by
  have fails (u : State) (k : ActiveKept s u) (st : Nat) : ActiveKept s (failSend u die st task) := k.pkg (failSend_parts u die st task .pkg (by decide))
  cases found : strand t n with
  | none =>
    unfold Machine.postMsg
    rw [found]
    exact fails t h _
  | some x =>
    rcases Bool.eq_false_or_eq_true (linkOk t n) with ok | bad
    · have kept : ActiveKept s (noted t n x task (mKind (sentHeader t w))) := h.pkg (noted_parts t task _ n x .pkg (by decide))
      rcases Bool.eq_false_or_eq_true (bit (strandWord t n 4) 12) with grouped | single
      · by_cases dx8 : ∃ p ∈ groupPorts t (bits (strandWord t n 4) 11 0), (port t p).dx8 = true
        · rw [postMsg_groupFails found ok w data task done grouped dx8]
          exact fails t h _
        · have able : ∀ p ∈ groupPorts t (bits (strandWord t n 4) 11 0), (port t p).dx8 = false := fun p listed => Bool.eq_false_iff.mpr (fun yes => dx8 ⟨p, listed, yes⟩)
          rw [postMsg_groupJoins found ok w data task done grouped able]
          refine each (fun u q => ?_) (kept.pkg ?_) _
          · exact (refl u).pkg rfl
          · rfl
      · by_cases here : peerDev t n = ownDev t
        · rw [postMsg_delivers found ok w data task done single here]
          exact .ite (fun _ => (kept.deliverHere ..).within (countMarker_within (M := 0x100000011) rfl _ _ _ .refl) rfl) (fun _ => kept.deliverHere ..)
        · rw [postMsg_binds found ok w data task done single here]
          exact kept.within (bindMsg_within (M := 0x100020890) rfl _ _ .refl) rfl
    · rw [postMsg_fails bad]
      exact fails t h _

/-! A step that starts (17 R430 to R432). -/

theorem sendPayload (h : ActiveKept s t) (n va bytes : Nat) : ActiveKept s (sendPayload t n va bytes) := by
  unfold Machine.sendPayload
  refine each (fun u i => ?_) h _
  refine pkg ?_ (bump_parts _ _ _ .pkg (by decide))
  exact (refl u).postMsg ..

theorem sendOptimiser (h : ActiveKept s t) (n : Nat) : ActiveKept s (sendOptimiser t n) := by
  unfold Machine.sendOptimiser
  refine sendPayload ?_ _ _ _
  exact h.pkg rfl

theorem sendMark (h : ActiveKept s t) (n : Nat) : ActiveKept s (sendMark t n) := by
  unfold Machine.sendMark
  dsimp only
  split
  · exact h
  · refine postMsg ?_ _ _ _ _ _ _
    exact h.pkg rfl

theorem releaseStep (h : ActiveKept s t) (n : Nat) : ActiveKept s (releaseStep t n) := h.within (releaseStep_within (M := 0x100000011) rfl t n .refl) rfl

theorem stepStart (h : ActiveKept s t) (n step : Nat) : ActiveKept s (stepStart t n step) := by
  unfold Machine.stepStart
  dsimp only
  have seen : ActiveKept s (updStrand t n (fun y => { y with stepSeen := some step })) := h.within (updStrand_within (M := 0x80) rfl t n _ .refl) rfl
  generalize updStrand t n (fun y => { y with stepSeen := some step }) = u at *
  split
  · exact h
  · split
    · exact seen
    · split
      · split
        · refine releaseStep ?_ n
          exact pkg (pkg (u := updLifeline u n _) seen rfl) (bump_parts _ _ _ .pkg (by decide))
        · have marked (v : State) (k : ActiveKept s v) (f : Lifeline → Lifeline) : ActiveKept s (Machine.setLl v n f) := k.within (setLl_within (M := 0x80002) rfl v n f .refl) rfl
          split
          · refine sendOptimiser (sendMark (marked _ ?_ _) n) n
            exact seen.pkg rfl
          · refine sendMark (marked _ ?_ _) n
            exact seen.pkg rfl
      · refine releaseStep ?_ n
        exact .ite (fun _ => seen.pkg rfl) (fun _ => seen.pkg rfl)

theorem takeFront (h : ActiveKept s t) (q : Nat) (d : Desc) : ActiveKept s (takeFront t q d) := by
  unfold Machine.takeFront
  dsimp only
  refine stepStart (pkg ?_ (bump_parts _ _ _ .pkg (by decide))) _ _
  have left : ActiveKept s (leaveWaits (setFetched t q ((fetched t q).drop 1)) q) := h.pkg rfl
  exact left.within (hstTouch_within (M := 0x82) rfl _ _ .refl) rfl

end ActiveKept

end Sys2Proof.Machine
end

section
/-! PROOF. Dispatch to cores (16 R411 to R413; 09 R247, R250; 12 R301), and O54. -/

namespace Sys2Proof.Machine

open Sys2Proof Sys2Proof.Safety

/-! DISPATCH to the cores of a slot (09 R247). -/

theorem sendDispatch_hst (s : State) (k : Nat) : (sendDispatch s k).hst = s.hst := (sendDispatch_within (M := 0x100000000) rfl s k .refl).same .hst rfl
theorem slotOf_sendDispatch (s : State) (k j : Nat) : slotOf (sendDispatch s k) j = slotOf s j := slotOf_of_hst (sendDispatch_hst s k) j

/-- Messages of one die to others, in the order of a list. -/
theorem sentEach_chain {α : Type} (src : Nat) (dst : α → Nat) (m : α → Msg) : ∀ (l : List α) (s : State),
    (each l s (fun s x => sendChain s src (dst x) (m x))).net.chain.map (fun f => (f.src, f.dst, f.msg)) =
      s.net.chain.map (fun f => (f.src, f.dst, f.msg)) ++ l.map (fun x => (src, dst x, m x))
  | [], s => (List.append_nil _).symm
  | x :: l, s => by
    refine (sentEach_chain src dst m l (sendChain s src (dst x) (m x))).trans ?_
    simp [sendChain]

theorem sendDispatch_sends (s : State) (k i c : Nat) (listed : (slotCores s k)[i]? = some c) :
    ∃ m ∈ (sendDispatch s k).net.chain, m.src = hstDie ∧ m.dst = coreDie c ∧ m.msg = .dispatch c k i (slotCores s k).length := by
  have here : (c, i) ∈ (slotCores s k).zipIdx := List.mem_zipIdx_iff_getElem?.mpr listed
  have sent : (hstDie, coreDie c, Msg.dispatch c k i (slotCores s k).length) ∈ (sendDispatch s k).net.chain.map (fun f => (f.src, f.dst, f.msg)) := by
    unfold sendDispatch
    dsimp only
    rw [sentEach_chain hstDie (fun x : Nat × Nat => coreDie x.1) (fun x => .dispatch x.1 k x.2 (slotCores s k).length)]
    exact List.mem_append_right _ (List.mem_map.mpr ⟨(c, i), here, rfl⟩)
  obtain ⟨m, isIn, same⟩ := List.mem_map.mp sent
  exact ⟨m, isIn, congrArg (·.1) same, congrArg (·.2.1) same, congrArg (·.2.2) same⟩

/-- A slot that is filled and dispatched: it stands as filled, and each of its cores is sent DISPATCH. -/
theorem dispatched (s : State) (k : Nat) (x : Slot) : let t := sendDispatch (setSlot s k x) k
    slotOf t k = x ∧ ∀ i c, (coresOf x.mask)[i]? = some c → ∃ m ∈ t.net.chain, m.src = hstDie ∧ m.dst = coreDie c ∧ m.msg = .dispatch c k i (coresOf x.mask).length := by
  have filled : slotOf (setSlot s k x) k = x := (slotOf_setSlot ..).trans (if_pos rfl)
  refine ⟨(slotOf_sendDispatch ..).trans filled, fun i c listed => ?_⟩
  have cores : slotCores (setSlot s k x) k = coresOf x.mask := congrArg (fun y : Slot => coresOf y.mask) filled
  have sends := sendDispatch_sends (setSlot s k x) k i c (by rw [cores]; exact listed)
  rwa [cores] at sends

/-! A front task that leaves its SQ. -/

/-- What a front task that may not run after all comes to. -/
def Dropped (u : State) (q : Nat) (d : Desc) (t : State) (st : Nat) : Prop := OnlyParts [.regs, .hst] u t ∧ fetched t q = (fetched u q).drop 1 ∧
  reg t (hstOff HST_REFUSE_COUNT) = (reg u (hstOff HST_REFUSE_COUNT) + 1) % 2 ^ 64 ∧
  ∀ k, freeSlot u = some k → slotOf t k = { newSlot q d.seq d.words with ending := true, status := st } ∧ ∀ j, j ≠ k → slotOf t j = slotOf u j

theorem freeSlot_congr {s t : State} (h : ∀ k, slotOf t k = slotOf s k) : freeSlot t = freeSlot s := by
  unfold freeSlot
  simp only [h]

theorem fetched_setFetched (s : State) (q : Nat) (l : List Desc) : fetched (setFetched s q l) q = l := tget_tset_same ..

/-- A task that ends without running: its slot, where one is free. -/
theorem endedTask_free {s : State} {k : Nat} (free : freeSlot s = some k) (q seq : Nat) (w : List Nat) (status info : Nat) :
    endedTask s q seq w status info = setSlot s k { newSlot q seq w with ending := true, status := status, info := info } := by
  unfold endedTask
  rw [free]
theorem endedTask_fetched (s : State) (q seq : Nat) (w : List Nat) (status info p : Nat) : fetched (endedTask s q seq w status info) p = fetched s p := by
  unfold endedTask
  split <;> rfl
theorem endedTask_regs (s : State) (q seq : Nat) (w : List Nat) (status info : Nat) : (endedTask s q seq w status info).regs = s.regs := by
  unfold endedTask
  split <;> rfl

theorem dropFront_drops (u : State) (q : Nat) (d : Desc) (st : Nat) : Dropped u q d (dropFront u q d st) st := by
  refine ⟨Within.onlyParts (l := [.regs, .hst]) (back := false) (dropFront_within rfl u q d st .refl), ?_⟩
  have regs : (leaveWaits (setFetched u q ((fetched u q).drop 1)) q).regs = u.regs := rfl
  have slots (j : Nat) : slotOf (leaveWaits (setFetched u q ((fetched u q).drop 1)) q) j = slotOf u j := rfl
  have rest : fetched (leaveWaits (setFetched u q ((fetched u q).drop 1)) q) q = (fetched u q).drop 1 := fetched_setFetched u q _
  unfold dropFront refuseTask
  generalize leaveWaits (setFetched u q ((fetched u q).drop 1)) q = v at *
  have counted (j : Nat) : slotOf (bump v (hstOff HST_REFUSE_COUNT) 1) j = slotOf u j := slots j
  refine ⟨(endedTask_fetched ..).trans rest, ?_, fun k free => ?_⟩
  · rw [reg_congr (endedTask_regs ..), reg_bump, if_pos rfl, reg_congr regs]
  · rw [endedTask_free ((freeSlot_congr counted).trans free)]
    exact ⟨(slotOf_setSlot ..).trans (if_pos rfl), fun j other => ((slotOf_setSlot ..).trans (if_neg (Ne.symm other))).trans (counted j)⟩

/-- A front task that starts a step of a strand with no feed leaves the masks being freed as they are. -/
theorem takeFront_frees {s : State} {d : Desc} (q : Nat) (feeds : (lifeline s (tStrand d.words)).role ≠ 1) : (takeFront s q d).hst.maskFrees = s.hst.maskFrees := by
  have touched := hstTouch_within (M := 0x82) rfl (leaveWaits (setFetched s q ((fetched s q).drop 1)) q) (tStrand d.words) .refl
  have frees : (hstTouch (leaveWaits (setFetched s q ((fetched s q).drop 1)) q) (tStrand d.words)).hst.maskFrees = s.hst.maskFrees := by
    rw [hstTouch_hst]
    rfl
  have lines : (hstTouch (leaveWaits (setFetched s q ((fetched s q).drop 1)) q) (tStrand d.words)).lifelines = s.lifelines := touched.same .lifelines rfl
  unfold takeFront
  dsimp only
  generalize hstTouch (leaveWaits (setFetched s q ((fetched s q).drop 1)) q) (tStrand d.words) = u at *
  have kept : (bump u (hstOff HST_TASK_COUNT) 1).hst.maskFrees = s.hst.maskFrees := frees
  have same : (bump u (hstOff HST_TASK_COUNT) 1).lifelines = s.lifelines := lines
  generalize bump u (hstOff HST_TASK_COUNT) 1 = v at *
  have seen (f : Strand → Strand) : (updStrand v (tStrand d.words) f).hst.maskFrees = s.hst.maskFrees ∧ (updStrand v (tStrand d.words) f).lifelines = s.lifelines := by
    unfold updStrand
    split
    · exact ⟨kept, same⟩
    · exact ⟨kept, same⟩
  have other (w : State) (h : w.lifelines = s.lifelines) : (lifeline w (tStrand d.words)).role ≠ 1 := by
    unfold lifeline
    rw [h]
    exact feeds
  unfold stepStart
  dsimp only
  split
  · exact kept
  · rw [if_pos (other _ (seen _).2)]
    exact (seen _).1

/-! What a front task of cores meets first: its cores, and a lifeline that holds it (16 R411; 17 R431). -/

/-- A front task of cores: dropped, waiting for a core, held, or going on. -/
def guarded (s : State) (q : Nat) (d : Desc) (rest : State) : State :=
  if coresBad s d.words ≠ 0 then dropFront s q d (coresBad s d.words)
  else if (coresOf (tCores d.words &&& activeMask s)).any (coreTaken s) then s
  else if stepHolds s (tStrand d.words) (tStep d.words) then noteHold s q (tStrand d.words)
  else rest

theorem cores_untaken {s : State} {l : List Nat} (idle : ∀ c ∈ l, coreTaken s c = false) : ¬ l.any (coreTaken s) = true := fun h => by
  obtain ⟨c, listed, taken⟩ := List.any_eq_true.mp h
  exact Bool.false_ne_true ((idle c listed).symm.trans taken)

section
variable {s rest : State} {q : Nat} {d : Desc}

theorem guarded_bad (bad : coresBad s d.words ≠ 0) : guarded s q d rest = dropFront s q d (coresBad s d.words) := if_pos bad

variable (good : coresBad s d.words = 0)
include good

theorem guarded_taken (taken : ∃ c ∈ coresOf (tCores d.words &&& activeMask s), coreTaken s c = true) : guarded s q d rest = s :=
  (if_neg (fun h => h good)).trans (if_pos (List.any_eq_true.mpr taken))

variable (idle : ∀ c ∈ coresOf (tCores d.words &&& activeMask s), coreTaken s c = false)
include idle

theorem guarded_held (held : stepHolds s (tStrand d.words) (tStep d.words) = true) : guarded s q d rest = noteHold s q (tStrand d.words) :=
  (if_neg (fun h => h good)).trans ((if_neg (cores_untaken idle)).trans (if_pos held))
theorem guarded_goes (free : stepHolds s (tStrand d.words) (tStep d.words) = false) : guarded s q d rest = rest :=
  (if_neg (fun h => h good)).trans ((if_neg (cores_untaken idle)).trans (if_neg (fun h => Bool.false_ne_true (free.symm.trans h))))

end

theorem noteHold_does (s : State) (q n : Nat) : OnlyParts [.hst] s (noteHold s q n) ∧ (noteHold s q n).hst.slots = s.hst.slots ∧ (noteHold s q n).hst.fetched = s.hst.fetched ∧
    (q, n) ∈ (noteHold s q n).hst.llWaiting :=
  ⟨fun r hr => by cases r <;> first | (exfalso; simp at hr; done) | rfl, rfl, rfl, List.mem_cons_self⟩

/-! COPY (12 R301). -/

/-- A COPY that goes to its cores takes a slot. -/
def copyGoes (s : State) (q : Nat) (d : Desc) (k : Nat) : State :=
  sendDispatch (setSlot (takeFront s q d) k { coreSlot (takeFront s q d) q d ((readWords s (tStrand d.words) (tArg0 d.words) 32).getD []) [] [] with
    seed := strandWord s (tStrand d.words) 2 }) k

theorem execCopy_front {q : HostQueue} {s : State} {d : Desc} (found : frontTask s q 2 = some d) : exec (.copy q) s = .next (guarded s q d (match freeSlot s with
    | none => s
    | some k => copyGoes s q d k)) := by
  show execCopy q s = _
  unfold execCopy
  rw [found]
  unfold guarded
  cases freeSlot s <;> rfl

theorem frontTask_opcode {s : State} {q op : Nat} {d : Desc} (found : frontTask s q op = some d) : tOpcode d.words = op := by
  unfold frontTask at found
  split at found
  · split at found
    · next both => exact Option.some.inj found ▸ both.1
    · exact absurd found.symm (Option.some_ne_none _)
  · exact absurd found.symm (Option.some_ne_none _)

theorem copyGoes_does {s : State} {q : Nat} {d : Desc} (copy : tOpcode d.words = 2) (k : Nat) : let mask := tCores d.words &&& activeMask s
    let t := copyGoes s q d k
    ∃ freed, (∀ i c, (coresOf mask)[i]? = some c → ∃ m ∈ t.net.chain, m.src = hstDie ∧ m.dst = coreDie c ∧ m.msg = .dispatch c k i (coresOf mask).length) ∧
      ((lifeline s (tStrand d.words)).role ≠ 1 → freed = freeingMasks s) ∧ slotOf t k = { newSlot q d.seq d.words with
        mask := mask
        table := (readWords s (tStrand d.words) (tArg0 d.words) 32).getD []
        seed := strandWord s (tStrand d.words) 2
        freedMasks := freed
        activeAt := activeMask s
        spans := 1 } := by
  have active : activeMask (takeFront s q d) = activeMask s := (ActiveKept.refl s).takeFront q d
  have frees (feeds : (lifeline s (tStrand d.words)).role ≠ 1) : freeingMasks (takeFront s q d) = freeingMasks s := congrArg (List.map Prod.snd) (takeFront_frees q feeds)
  unfold copyGoes
  dsimp only
  generalize takeFront s q d = u at *
  obtain ⟨stands, sends⟩ := dispatched u k { coreSlot u q d ((readWords s (tStrand d.words) (tArg0 d.words) 32).getD []) [] [] with seed := strandWord s (tStrand d.words) 2 }
  have cores : tCores d.words &&& activeMask u = tCores d.words &&& activeMask s := by rw [active]
  refine ⟨freeingMasks u, fun i c listed => ?_, frees, stands.trans ?_⟩
  · rw [← cores] at listed ⊢
    exact sends i c listed
  · unfold coreSlot
    rw [cores, active, if_pos copy]
    rfl

end Sys2Proof.Machine
end

section
/-! PROOF. COMPUTE (16 R411, R412; 09 R238, R250; 10 R262), and O54. -/

namespace Sys2Proof.Machine

open Sys2Proof Sys2Proof.Safety

/-- The descriptor table of a COMPUTE. -/
def computeTable (s : State) (d : Desc) : List Nat := (readWords s (tStrand d.words) (tArg0 d.words) 200).getD []
/-- A task whose claimed slot is counted by rows takes a row counter. -/
def computeCounted (tab : List Nat) : Bool := claimsMode tab && sSource tab (cClaimSlot tab) == 0
/-- The shape block is read, and the stream schedule after it. -/
def shapeRead (s : State) (n : Nat) (tab : List Nat) : State × Nat := getRange s n (hShapeBase tab) (if hShapeBase tab = 0 then 0 else 64)
def scheduleRead (s : State) (n sb : Nat) : State × Nat := getRange s n sb (if sb = 0 then 0 else 8 * scheduleWords s n sb)
def scheduleOf (s : State) (n sb : Nat) : List Nat := if sb = 0 then [] else (readWords s n sb (scheduleWords s n sb)).getD []

/-- The slot's row counter is reserved. -/
def counterReserved (s : State) (k : Nat) (c : Option Nat) : State := match c with
  | some c => updCounter s c (fun _ => { reserved := true, slot := k })
  | none => s

/-- A COMPUTE that goes to its cores takes a slot, its tokens and its row counter. -/
def computeGoes (v : State) (q : Nat) (d : Desc) (tab shape sched : List Nat) (seed k : Nat) : State :=
  let r := takeTokens (takeFront v q d) (tStrand d.words) tab shape
  let c := if computeCounted tab then freeCounter r.1 else none
  let u := counterReserved r.1 k c
  sendDispatch (setSlot u k { coreSlot u q d tab shape sched with counter := c, tokenBase := r.2, seed := seed }) k

/-- A COMPUTE whose cores are free and that no lifeline holds. -/
def computeRest (s : State) (q : Nat) (d : Desc) : State :=
  if computeCounted (computeTable s d) && (freeCounter s).isNone then
    { s with hst := { s.hst with counterWaiting := q :: s.hst.counterWaiting.filter (· != q) } }
  else if (shapeRead s (tStrand d.words) (computeTable s d)).2 ≠ stSuccess then
    dropFront (shapeRead s (tStrand d.words) (computeTable s d)).1 q d (shapeRead s (tStrand d.words) (computeTable s d)).2
  else
    let g := (shapeRead s (tStrand d.words) (computeTable s d)).1
    let h := scheduleRead g (tStrand d.words) (hScheduleBase (computeTable s d))
    if h.2 ≠ stSuccess then dropFront h.1 q d h.2
    else
      let w := scheduleOf h.1 (tStrand d.words) (hScheduleBase (computeTable s d))
      if hScheduleBase (computeTable s d) ≠ 0 ∧ computeTable s d ≠ [] ∧ scheduleBad (computeTable s d) w = true then
        dropFront { h.1 with hst := { h.1.hst with schedInvalid := h.1.hst.schedInvalid + 1 } } q d stScheduleInvalid
      else match freeSlot h.1 with
        | none => h.1
        | some k => computeGoes h.1 q d (computeTable s d) ((readShape g (tStrand d.words) (hShapeBase (computeTable s d))).getD []) w (strandWord s (tStrand d.words) 2) k

theorem execCompute_front {q : HostQueue} {s : State} {d : Desc} (found : frontTask s q 1 = some d) : exec (.compute q) s = .next (guarded s q d (computeRest s q d)) := by
  show execCompute q s = _
  unfold execCompute
  rw [found]
  refine congrArg Host.Outcome.next (if_congr Iff.rfl rfl (if_congr Iff.rfl rfl (if_congr Iff.rfl rfl (if_congr Iff.rfl rfl (if_congr Iff.rfl rfl ?_)))))
  refine if_congr Iff.rfl rfl ?_
  refine if_congr Iff.rfl rfl ?_
  unfold computeTable shapeRead scheduleRead scheduleOf
  generalize (readWords s (tStrand d.words) (tArg0 d.words) 200).getD [] = tab
  generalize (getRange s (tStrand d.words) (hShapeBase tab) (if hShapeBase tab = 0 then 0 else 64)).1 = g
  generalize (getRange g (tStrand d.words) (hScheduleBase tab) (if hScheduleBase tab = 0 then 0 else 8 * scheduleWords g (tStrand d.words) (hScheduleBase tab))).1 = h
  cases freeSlot h <;> rfl

theorem freeCounter_congr {s t : State} (h : t.counters = s.counters) : freeCounter t = freeCounter s := by
  unfold freeCounter rowCounter
  rw [h]

theorem counterReserved_parts (s : State) (k : Nat) (c : Option Nat) : OnlyParts [.counters] s (counterReserved s k c) := by
  unfold counterReserved
  cases c with
  | none => exact fun r _ => by cases r <;> rfl
  | some c => exact fun r hr => by cases r <;> first | (exfalso; simp at hr; done) | rfl

theorem computeGoes_does {v : State} {q : Nat} {d : Desc} (compute : tOpcode d.words = 1) (tab shape sched : List Nat) (seed k : Nat) : let mask := tCores d.words &&& activeMask v
    let t := computeGoes v q d tab shape sched seed k
    ∃ base freed, (∀ i c, (coresOf mask)[i]? = some c → ∃ m ∈ t.net.chain, m.src = hstDie ∧ m.dst = coreDie c ∧ m.msg = .dispatch c k i (coresOf mask).length) ∧
      ((lifeline v (tStrand d.words)).role ≠ 1 → freed = freeingMasks v) ∧ slotOf t k = { newSlot q d.seq d.words with
        mask := mask
        table := tab
        shape := shape
        schedule := sched
        freedMasks := freed
        activeAt := activeMask v
        spans := spansOf tab shape
        tokenBase := base
        seed := seed
        counter := if computeCounted tab then freeCounter v else none } := by
  have front : ActiveKept v (takeFront v q d) := (ActiveKept.refl v).takeFront q d
  have frees (feeds : (lifeline v (tStrand d.words)).role ≠ 1) : freeingMasks (takeFront v q d) = freeingMasks v := congrArg (List.map Prod.snd) (takeFront_frees q feeds)
  have counters : (takeFront v q d).counters = v.counters := (takeFront_within (M := 0x7100e3fdb) rfl v q d .refl).same .counters rfl
  unfold computeGoes
  dsimp only
  generalize takeFront v q d = u at *
  have tokens : RangeKept u (takeTokens u (tStrand d.words) tab shape).1 := (RangeKept.refl u).takeTokens _ _ _
  have left : (takeTokens u (tStrand d.words) tab shape).1.counters = u.counters := (takeTokens_within (M := 0x710000f8b) rfl u _ tab shape .refl).same .counters rfl
  generalize takeTokens u (tStrand d.words) tab shape = r at *
  have free : freeCounter r.1 = freeCounter v := freeCounter_congr (left.trans counters)
  rw [free]
  generalize (if computeCounted tab = true then freeCounter v else none) = c
  have reserved := counterReserved_parts r.1 k c
  generalize counterReserved r.1 k c = w at *
  have active : activeMask w = activeMask v := (activeMask_congr (reserved .pkg (by decide))).trans (tokens.active.trans front)
  have freed : freeingMasks w = freeingMasks u := congrArg (List.map Prod.snd) ((congrArg Hst.maskFrees (reserved .hst (by decide))).trans tokens.frees)
  obtain ⟨stands, sends⟩ := dispatched w k { coreSlot w q d tab shape sched with counter := c, tokenBase := r.2, seed := seed }
  have cores : tCores d.words &&& activeMask w = tCores d.words &&& activeMask v := by rw [active]
  refine ⟨r.2, freeingMasks w, fun i c listed => ?_, fun feeds => freed.trans (frees feeds), stands.trans ?_⟩
  · rw [← cores] at listed ⊢
    exact sends i c listed
  · unfold coreSlot
    rw [cores, active, if_neg (by rw [compute]; decide)]

/-! What a COMPUTE that goes on meets, in order: its row counter, its shape block, its schedule, and a slot. -/

section
variable {s : State} {q : Nat} {d : Desc}

theorem computeRest_waits (counted : computeCounted (computeTable s d) = true) (none_ : freeCounter s = none) :
    computeRest s q d = { s with hst := { s.hst with counterWaiting := q :: s.hst.counterWaiting.filter (· != q) } } :=
  if_pos (by rw [counted, none_]; rfl)

variable (free : ¬ (computeCounted (computeTable s d) = true ∧ freeCounter s = none))
include free

theorem counter_there : ¬ (computeCounted (computeTable s d) && (freeCounter s).isNone) = true := by
  rw [Bool.and_eq_true, Option.isNone_iff_eq_none]
  exact free

theorem computeRest_unshaped (bad : (shapeRead s (tStrand d.words) (computeTable s d)).2 ≠ stSuccess) :
    computeRest s q d = dropFront (shapeRead s (tStrand d.words) (computeTable s d)).1 q d (shapeRead s (tStrand d.words) (computeTable s d)).2 :=
  (if_neg (counter_there free)).trans (if_pos bad)

variable (shaped : (shapeRead s (tStrand d.words) (computeTable s d)).2 = stSuccess)
include shaped

theorem computeRest_unscheduled {h : State × Nat} (read : scheduleRead (shapeRead s (tStrand d.words) (computeTable s d)).1 (tStrand d.words) (hScheduleBase (computeTable s d)) = h)
    (bad : h.2 ≠ stSuccess) : computeRest s q d = dropFront h.1 q d h.2 := by
  subst read
  exact (if_neg (counter_there free)).trans ((if_neg (fun ne => ne shaped)).trans (if_pos bad))

variable {h : State × Nat} (read : scheduleRead (shapeRead s (tStrand d.words) (computeTable s d)).1 (tStrand d.words) (hScheduleBase (computeTable s d)) = h) (found : h.2 = stSuccess)
include read found

theorem computeRest_invalid (based : hScheduleBase (computeTable s d) ≠ 0) (tabled : computeTable s d ≠ [])
    (bad : scheduleBad (computeTable s d) (scheduleOf h.1 (tStrand d.words) (hScheduleBase (computeTable s d))) = true) :
    computeRest s q d = dropFront { h.1 with hst := { h.1.hst with schedInvalid := h.1.hst.schedInvalid + 1 } } q d stScheduleInvalid := by
  subst read
  exact (if_neg (counter_there free)).trans ((if_neg (fun ne => ne shaped)).trans ((if_neg (fun ne => ne found)).trans (if_pos ⟨based, tabled, bad⟩)))

theorem computeRest_goes (good : hScheduleBase (computeTable s d) = 0 ∨ computeTable s d = [] ∨
      scheduleBad (computeTable s d) (scheduleOf h.1 (tStrand d.words) (hScheduleBase (computeTable s d))) = false) {k : Nat} (slot : freeSlot h.1 = some k) :
    computeRest s q d = computeGoes h.1 q d (computeTable s d)
      ((readShape (shapeRead s (tStrand d.words) (computeTable s d)).1 (tStrand d.words) (hShapeBase (computeTable s d))).getD [])
      (scheduleOf h.1 (tStrand d.words) (hScheduleBase (computeTable s d))) (strandWord s (tStrand d.words) 2) k := by
  subst read
  have fine : ¬ (hScheduleBase (computeTable s d) ≠ 0 ∧ computeTable s d ≠ [] ∧ scheduleBad (computeTable s d) (scheduleOf
      (scheduleRead (shapeRead s (tStrand d.words) (computeTable s d)).1 (tStrand d.words) (hScheduleBase (computeTable s d))).1 (tStrand d.words) (hScheduleBase (computeTable s d))) = true) := by
    rintro ⟨based, tabled, bad⟩
    rcases good with none_ | empty | good
    · exact based none_
    · exact tabled empty
    · exact Bool.false_ne_true (good.symm.trans bad)
  refine (if_neg (counter_there free)).trans ((if_neg (fun ne => ne shaped)).trans ((if_neg (fun ne => ne found)).trans ((if_neg fine).trans ?_)))
  rw [slot]

end

theorem getRange_parts (s : State) (n va len : Nat) : OnlyParts [.regs, .pkg, .hst, .cache, .mifs, .fars, .ports, .dict, .net, .out, .freeIdx] s (getRange s n va len).1 :=
  Within.onlyParts (l := [.regs, .pkg, .hst, .cache, .mifs, .fars, .ports, .dict, .net, .out, .freeIdx]) (back := false) (getRange_within rfl s n va len .refl)

/-- Settles O54: a front task of cores is dropped, waits for a core, is held by a lifeline, waits for a row counter, or goes to its cores, ranks ascending. -/
theorem dispatch : Obligations.Dispatch := by
  intro q s
  refine ⟨fun none_ => ?_, fun none_ => ?_, fun d => ?_⟩
  · show execCompute q s = _
    unfold execCompute
    rw [none_]
  · show execCopy q s = _
    unfold execCopy
    rw [none_]
  intro n mask front dropped sent
  have runs (c : Instr) (op : Nat) (h : front c op) (found : frontTask s q op = some d) : ∃ rest, exec c s = .next (guarded s q d rest) := by
    rcases h with ⟨rfl, rfl⟩ | ⟨rfl, rfl⟩
    · exact ⟨_, execCompute_front found⟩
    · exact ⟨_, execCopy_front found⟩
  have drops {u : State} {c : Instr} {st : Nat} (h : exec c s = .next (dropFront u q d st)) : dropped u c st := ⟨_, h, dropFront_drops u q d st⟩
  refine ⟨fun c op h found bad => ?_, fun c op h found good taken => ?_, fun c op h found good idle held => ?_, fun found good idle free k slot => ?_, fun found good idle goes => ?_⟩
  · obtain ⟨rest, does⟩ := runs c op h found
    exact drops (does.trans (congrArg Host.Outcome.next (guarded_bad bad)))
  · obtain ⟨rest, does⟩ := runs c op h found
    exact does.trans (congrArg Host.Outcome.next (guarded_taken good taken))
  · obtain ⟨rest, does⟩ := runs c op h found
    exact ⟨_, does.trans (congrArg Host.Outcome.next (guarded_held good idle held)), noteHold_does s q n⟩
  · have does := (execCopy_front found).trans (congrArg Host.Outcome.next (guarded_goes good idle free))
    rw [slot] at does
    obtain ⟨freed, sends, frees, stands⟩ := copyGoes_does (s := s) (q := q) (frontTask_opcode found) k
    exact ⟨_, freed, does, sends, frees, stands⟩
  · intro tab counted g x sb h w
    have does := (execCompute_front found).trans (congrArg Host.Outcome.next (guarded_goes good idle goes))
    have gparts : OnlyParts [.regs, .pkg, .hst, .cache, .mifs, .fars, .ports, .dict, .net, .out, .freeIdx] s g.1 := getRange_parts _ _ _ _
    have hparts : OnlyParts [.regs, .pkg, .hst, .cache, .mifs, .fars, .ports, .dict, .net, .out, .freeIdx] g.1 h.1 := getRange_parts _ _ _ _
    refine ⟨gparts, hparts, fun waits => ?_, fun free => ⟨fun bad => ?_, fun shaped bad => ?_, fun shaped read based tabled bad => ?_, fun k shaped read fine slot => ?_⟩⟩
    · refine ⟨_, does.trans (congrArg Host.Outcome.next (computeRest_waits waits.1 waits.2)), fun r hr => ?_, rfl, rfl, List.mem_cons_self⟩
      cases r <;> first | (exfalso; simp at hr; done) | rfl
    · exact drops (does.trans (congrArg Host.Outcome.next (computeRest_unshaped free bad)))
    · exact drops (does.trans (congrArg Host.Outcome.next (computeRest_unscheduled free shaped rfl bad)))
    · refine ⟨_, fun r hr => ?_, rfl, drops (does.trans (congrArg Host.Outcome.next (computeRest_invalid free shaped rfl read based tabled bad)))⟩
      cases r <;> first | (exfalso; simp at hr; done) | rfl
    · have active : activeMask h.1 = activeMask s := ((RangeKept.getRange ..).active.trans (RangeKept.getRange ..).active)
      have frees : freeingMasks h.1 = freeingMasks s := congrArg (List.map Prod.snd) ((RangeKept.getRange ..).frees.trans (RangeKept.getRange ..).frees)
      have counters : freeCounter h.1 = freeCounter s := freeCounter_congr ((hparts .counters (by decide)).trans (gparts .counters (by decide)))
      have lines : h.1.lifelines = s.lifelines := (hparts .lifelines (by decide)).trans (gparts .lifelines (by decide))
      obtain ⟨base, freed, sends, kept, stands⟩ := computeGoes_does (v := h.1) (q := q) (frontTask_opcode found) tab x w (strandWord s n 2) k
      rw [active] at sends stands
      rw [counters] at stands
      refine ⟨_, base, freed, does.trans (congrArg Host.Outcome.next (computeRest_goes free shaped rfl read fine slot)), sends, fun feeds => (kept ?_).trans frees, stands⟩
      unfold lifeline
      rw [lines]
      exact feeds

end Sys2Proof.Machine
end

section
/-! PROOF. Descriptors that are fetched (16 R397, R408, R410). -/

namespace Sys2Proof.Machine

open Sys2Proof Sys2Proof.Safety

/-- The next descriptor's number is taken. -/
def seqTaken (s : State) : State := { s with hst := { s.hst with fetchSeq := s.hst.fetchSeq + 1 } }
/-- A refusal that takes a number is counted. -/
def refusalSeq (s : State) : State := bump (seqTaken s) (hstOff HST_REFUSE_COUNT) 1

/-- A fetched descriptor waits for dispatch, or completes with its verdict. -/
def fetchOne (q : Nat) (s : State) (d : List Nat) : State :=
  let seq := s.hst.fetchSeq
  let r := lookCancel (seqTaken s) q (tCmdId d)
  let v := verdict r.1 q d
  if r.2 then refuseTask { r.1 with hst := { r.1.hst with cancelWait := seq :: r.1.hst.cancelWait } } q seq d stCancelled
  else if v ≠ 0 then refuseTask r.1 q seq d v
  else setFetched r.1 q (fetched r.1 q ++ [{ words := d, seq := seq }])

/-- The descriptors that a fetch brings: at most 16, and up to TAIL. -/
def fetchCount (s : State) (q : Nat) : Nat :=
  (bits (reg s (sqOff q 3)) 31 16 + 2 ^ bits (reg s (sqOff q 0)) 19 15 - bits (reg s (sqOff q 3)) 15 0) % 2 ^ bits (reg s (sqOff q 0)) 19 15
def fetchList (s : State) (q : Nat) (ds : List (List Word)) : List (List Nat) := (ds.take (min 16 (fetchCount s q))).map (fun d => d.map (·.toNat))

/-- HEAD moves by n descriptors. -/
def headMoved (s : State) (q n : Nat) : State := setField s (sqOff q 3) 15 0 ((bits (reg s (sqOff q 3)) 15 0 + n) % 2 ^ bits (reg s (sqOff q 0)) 19 15)

theorem execDescriptorFetch_eq (q : HostQueue) (ds : List (List Word)) (s : State) : exec (.descriptorFetch q ds) s = .next (
    if !stageDone s 4 || !bit (reg s (sqOff q 0)) 0 || s.hst.closing.contains q.val then s
    else each (fetchList s q ds) (headMoved s q (fetchList s q ds).length) (fetchOne q)) := rfl

theorem execDescriptorFetch_none {q : HostQueue} {s : State} (ds : List (List Word)) (shut : stageDone s 4 = false ∨ bit (reg s (sqOff q 0)) 0 = false ∨ q.val ∈ s.hst.closing) :
    exec (.descriptorFetch q ds) s = .next s := by
  rw [execDescriptorFetch_eq, if_pos]
  rcases shut with h | h | h
  · rw [h]
    rfl
  · rw [h, Bool.not_false, Bool.or_true, Bool.true_or]
  · rw [List.contains_iff_mem.mpr h, Bool.or_true]

theorem execDescriptorFetch_takes {q : HostQueue} {s : State} (ds : List (List Word)) (staged : stageDone s 4 = true) (enabled : bit (reg s (sqOff q 0)) 0 = true) (open_ : q.val ∉ s.hst.closing) :
    exec (.descriptorFetch q ds) s = .next (each (fetchList s q ds) (headMoved s q (fetchList s q ds).length) (fetchOne q)) := by
  have goes : s.hst.closing.contains q.val = false := Bool.eq_false_iff.mpr (fun h => open_ (List.contains_iff_mem.mp h))
  rw [execDescriptorFetch_eq, staged, enabled, goes]
  rfl

section
variable (s : State) (q n : Nat)

theorem headMoved_parts : OnlyParts [.regs] s (headMoved s q n) := setReg_parts s _ _
theorem headMoved_other {off : Nat} (other : off ≠ sqOff q 3) : reg (headMoved s q n) off = reg s off := reg_setReg_other _ _ other
theorem headMoved_head : bits (reg (headMoved s q n) (sqOff q 3)) 15 0 = (bits (reg s (sqOff q 3)) 15 0 + n) % 2 ^ bits (reg s (sqOff q 0)) 19 15 % 2 ^ 16 := by
  unfold headMoved
  rw [reg_setField, if_pos rfl]
  exact bits_putBits_same _ _ (by decide)
theorem headMoved_tail : bits (reg (headMoved s q n) (sqOff q 3)) 31 16 = bits (reg s (sqOff q 3)) 31 16 := by
  unfold headMoved
  rw [reg_setField, if_pos rfl, bits_tail_kept]
/-- The verdict on a descriptor reads nothing that a fetch changes. -/
theorem verdict_congr {s t : State} (parts : OnlyParts [.regs, .hst] s t) (strands : t.hst.strands = s.hst.strands) (limits : reg t (sqOff q 2) = reg s (sqOff q 2)) (d : List Nat) :
    verdict t q d = verdict s q d := by
  have cores : coresBad t d = coresBad s d := by
    unfold coresBad
    rw [activeMask_congr (parts .pkg (by decide))]
  unfold verdict strand
  rw [limits, strands, cores]

end

theorem lookCancel_none {s : State} {q : Nat} (none_ : ∀ c ∈ s.hst.cancels, c.1 ≠ q) (cmd : Nat) : lookCancel s q cmd = (s, false) := by
  have absent : s.hst.cancels.find? (fun c => c.1 == q) = none := List.find?_eq_none.mpr (fun c listed => by simpa using none_ c listed)
  unfold lookCancel
  rw [absent]

/-- A descriptor that passes waits in its SQ. -/
def fetchedOne (q : Nat) (s : State) (d : List Nat) : State :=
  setFetched (seqTaken s) q (fetched s q ++ [{ words := d, seq := s.hst.fetchSeq }])

section
variable {s : State} {q : Nat} (none_ : ∀ c ∈ s.hst.cancels, c.1 ≠ q)
include none_

theorem fetchOne_passes {d : List Nat} (good : verdict s q d = 0) : fetchOne q s d = fetchedOne q s d := by
  have same := lookCancel_none (s := seqTaken s) none_ (tCmdId d)
  have kept : verdict (seqTaken s) q d = 0 := good
  unfold fetchOne
  dsimp only
  rw [same]
  dsimp only
  rw [if_neg Bool.false_ne_true, if_neg (fun ne => ne kept)]
  rfl

theorem fetchOne_fails {d : List Nat} (bad : verdict s q d ≠ 0) : fetchOne q s d =
    refuseTask (seqTaken s) q s.hst.fetchSeq d (verdict s q d) := by
  have same := lookCancel_none (s := seqTaken s) none_ (tCmdId d)
  have kept : verdict (seqTaken s) q d = verdict s q d := rfl
  unfold fetchOne
  dsimp only
  rw [same]
  dsimp only
  rw [if_neg Bool.false_ne_true, if_pos (by rw [kept]; exact bad), kept]

end

section
variable (s : State)

theorem refusalSeq_slotOf (j : Nat) : slotOf (refusalSeq s) j = slotOf s j := rfl
theorem refusalSeq_fetched (q : Nat) : fetched (refusalSeq s) q = fetched s q := rfl
theorem refusalSeq_parts : OnlyParts [.regs, .hst] s (refusalSeq s) := fun r hr => by cases r <;> first | (exfalso; simp at hr; done) | rfl
theorem refusalSeq_reg (off : Nat) : reg (refusalSeq s) off = if hstOff HST_REFUSE_COUNT = off then (reg s (hstOff HST_REFUSE_COUNT) + 1) % 2 ^ 64 else reg s off :=
  reg_bump (seqTaken s) (hstOff HST_REFUSE_COUNT) off 1

end

/-- What taking a list of descriptors that pass comes to. -/
structure Fetches (q : Nat) (l : List (List Nat)) (s t : State) : Prop where
  parts : OnlyParts [.hst] s t
  waits : fetched t q = fetched s q ++ l.zipIdx.map (fun d => { words := d.1, seq := s.hst.fetchSeq + d.2 })
  slots : t.hst.slots = s.hst.slots
  count : t.hst.fetchSeq = s.hst.fetchSeq + l.length

theorem fetches_cons {q : Nat} {d : List Nat} {l : List (List Nat)} {s t : State} (h : Fetches q l (fetchedOne q s d) t) : Fetches q (d :: l) s t := by
  obtain ⟨parts, waits, slots, count⟩ := h
  have first : fetched (fetchedOne q s d) q = fetched s q ++ [{ words := d, seq := s.hst.fetchSeq }] := tget_tset_same ..
  have taken : OnlyParts [.hst] s (fetchedOne q s d) := fun r hr => by cases r <;> first | (exfalso; simp at hr; done) | rfl
  refine ⟨OnlyParts.trans taken parts (by decide) (by decide), ?_, slots, ?_⟩
  · rw [waits, first, List.zipIdx_cons', List.map_cons, List.map_map, List.append_assoc]
    refine congrArg (fetched s q ++ ·) (congrArg (_ :: ·) (List.map_congr_left (fun x _ => ?_)))
    show ({ words := x.1, seq := s.hst.fetchSeq + 1 + x.2 } : Desc) = { words := x.1, seq := s.hst.fetchSeq + (x.2 + 1) }
    congr 1
    omega
  · rw [count, List.length_cons]
    show s.hst.fetchSeq + 1 + l.length = _
    omega

theorem each_fetches {q : Nat} : ∀ (l : List (List Nat)) (s : State), (∀ c ∈ s.hst.cancels, c.1 ≠ q) → (∀ d ∈ l, verdict s q d = 0) → Fetches q l s (each l s (fetchOne q))
  | [], s, _, _ => ⟨fun r _ => by cases r <;> rfl, (List.append_nil _).symm, rfl, rfl⟩
  | d :: l, s, none_, good => by
    refine fetches_cons ?_
    have step : each (d :: l) s (fetchOne q) = each l (fetchedOne q s d) (fetchOne q) := congrArg (each l · (fetchOne q)) (fetchOne_passes none_ (good d List.mem_cons_self))
    rw [step]
    exact each_fetches l (fetchedOne q s d) none_ (fun e listed => good e (List.mem_cons_of_mem _ listed))

theorem descriptorsFetched (q : HostQueue) (ds : List (List Word)) (s : State) : let size := 2 ^ bits (reg s (sqOff q 0)) 19 15
    let head := bits (reg s (sqOff q 3)) 15 0
    let l := fetchList s q ds
    ((stageDone s 4 = false ∨ bit (reg s (sqOff q 0)) 0 = false ∨ q.val ∈ s.hst.closing) → exec (.descriptorFetch q ds) s = .next s) ∧
    (stageDone s 4 = true → bit (reg s (sqOff q 0)) 0 = true → q.val ∉ s.hst.closing → (∀ c ∈ s.hst.cancels, c.1 ≠ q) →
      ((∀ d ∈ l, verdict s q d = 0) → ∃ t, exec (.descriptorFetch q ds) s = .next t ∧ OnlyParts [.regs, .hst] s t ∧
        bits (reg t (sqOff q 3)) 15 0 = (head + l.length) % size % 2 ^ 16 ∧ bits (reg t (sqOff q 3)) 31 16 = bits (reg s (sqOff q 3)) 31 16 ∧
        (∀ off, off ≠ sqOff q 3 → reg t off = reg s off) ∧ fetched t q = fetched s q ++ l.zipIdx.map (fun d => { words := d.1, seq := s.hst.fetchSeq + d.2 }) ∧
        t.hst.slots = s.hst.slots ∧ t.hst.fetchSeq = s.hst.fetchSeq + l.length) ∧
      (∀ d k, l = [d] → verdict s q d ≠ 0 → freeSlot s = some k → ∃ t, exec (.descriptorFetch q ds) s = .next t ∧ OnlyParts [.regs, .hst] s t ∧
        bits (reg t (sqOff q 3)) 15 0 = (head + 1) % size % 2 ^ 16 ∧ reg t (hstOff HST_REFUSE_COUNT) = (reg s (hstOff HST_REFUSE_COUNT) + 1) % 2 ^ 64 ∧ fetched t q = fetched s q ∧
        slotOf t k = { newSlot q s.hst.fetchSeq d with ending := true, status := verdict s q d } ∧ ∀ j, j ≠ k → slotOf t j = slotOf s j)) := by
  intro size head l
  refine ⟨execDescriptorFetch_none ds, fun staged enabled open_ none_ => ?_⟩
  have does := execDescriptorFetch_takes ds staged enabled open_
  rw [show fetchList s q ds = l from rfl] at does
  have parts := headMoved_parts s q l.length
  have newHead := headMoved_head s q l.length
  have newTail := headMoved_tail s q l.length
  have others (off : Nat) (other : off ≠ sqOff q 3) := headMoved_other s q l.length other
  have hst : (headMoved s q l.length).hst = s.hst := parts .hst (by decide)
  have judged (d : List Nat) : verdict (headMoved s q l.length) q d = verdict s q d :=
    verdict_congr q (OnlyParts.mono parts _ (by decide)) (congrArg Hst.strands hst) (others _ (sqOff_ne q (by decide))) d
  generalize headMoved s q l.length = u at *
  have none_u : ∀ c ∈ u.hst.cancels, c.1 ≠ q := by rw [hst]; exact none_
  refine ⟨fun good => ?_, fun d k single bad free => ?_⟩
  · obtain ⟨fparts, waits, slots, count⟩ := each_fetches l u none_u (fun d listed => (judged d).trans (good d listed))
    have regs := fparts .regs (by decide)
    rw [show fetched u q = fetched s q from congrArg (fun h : Hst => tget [] h.fetched q) hst, hst] at waits
    rw [hst] at slots count
    exact ⟨_, does, OnlyParts.trans parts fparts (by decide) (by decide), by rw [reg_congr regs, newHead], by rw [reg_congr regs, newTail],
      fun off other => by rw [reg_congr regs, others off other], waits, slots, count⟩
  · rw [single] at does newHead
    have step : each [d] u (fetchOne q) = _ := fetchOne_fails none_u (d := d) (by rw [judged]; exact bad)
    rw [step, judged] at does
    have slots (j : Nat) : slotOf (refusalSeq u) j = slotOf s j := (refusalSeq_slotOf u j).trans (slotOf_of_hst hst j)
    have seq : u.hst.fetchSeq = s.hst.fetchSeq := by rw [hst]
    have apart : sqOff q 3 ≠ hstOff HST_REFUSE_COUNT := by
      have := q.isLt
      unfold sqOff hstOff HST_REFUSE_COUNT
      omega
    have bumped (off : Nat) : reg (refusalSeq u) off = _ := refusalSeq_reg u off
    have waits : fetched (refusalSeq u) q = fetched s q := (refusalSeq_fetched u q).trans (congrArg (fun h : Hst => tget [] h.fetched q) hst)
    have bparts := OnlyParts.trans parts (refusalSeq_parts u) (l := [.regs]) (m := [.regs, .hst]) (n := [.regs, .hst]) (by decide) (by decide)
    have refused : refuseTask (seqTaken u) q u.hst.fetchSeq d (verdict s q d) = endedTask (refusalSeq u) q u.hst.fetchSeq d (verdict s q d) 0 := rfl
    rw [refused] at does
    generalize refusalSeq u = v at *
    rw [endedTask_free ((freeSlot_congr slots).trans free), seq] at does
    refine ⟨_, does, OnlyParts.trans bparts (m := [.hst]) (fun r hr => ?_) (by decide) (by decide), ?_, ?_, waits, (slotOf_setSlot ..).trans (if_pos rfl), fun j other => ?_⟩
    · cases r <;> first | (exfalso; simp at hr; done) | rfl
    · exact (congrArg (bits · 15 0) ((bumped _).trans (if_neg (Ne.symm apart)))).trans newHead
    · exact (bumped _).trans ((if_pos rfl).trans (by rw [others _ (Ne.symm apart)]))
    · exact (slotOf_setSlot ..).trans ((if_neg (Ne.symm other)).trans (slots j))

end Sys2Proof.Machine
end

section
/-! PROOF. Tasks that HST_CANCEL ends (16 R418). -/

namespace Sys2Proof.Machine

open Sys2Proof Sys2Proof.Safety

/-! What the end of a task leaves of the HST die's state. -/

theorem disarmSlot_hst (s : State) (k : Nat) : (disarmSlot s k).hst = s.hst := by
  unfold disarmSlot
  split <;> rfl
theorem dropWaits_hst (s : State) (k : Nat) : (dropWaits s k).hst = s.hst := each_keeps (·.hst) _ _ _ (fun _ _ _ => rfl)

theorem mem_busySlots {s : State} {k : Nat} : k ∈ busySlots s ↔ ∃ x : Slot, (k, x) ∈ s.hst.slots ∧ x.busy = true := by
  unfold busySlots
  constructor
  · intro h
    obtain ⟨⟨_, x⟩, listed, rfl⟩ := List.mem_map.mp h
    obtain ⟨listed, busy⟩ := List.mem_filter.mp listed
    exact ⟨x, listed, busy⟩
  · rintro ⟨x, listed, busy⟩
    exact List.mem_map.mpr ⟨(k, x), List.mem_filter.mpr ⟨listed, busy⟩, rfl⟩

theorem busy_listed {k : Nat} : ∀ {t : Tab Slot}, (tget {} t k).busy = true → (k, tget {} t k) ∈ t
  | [], h => absurd h Bool.false_ne_true
  | (j, x) :: t, h => by
    unfold tget at h ⊢
    by_cases same : j = k
    · rw [if_pos same, same]
      exact List.mem_cons_self
    · rw [if_neg same] at h ⊢
      exact List.mem_cons_of_mem _ (busy_listed h)

theorem mem_busySlots_of_busy {s : State} {k : Nat} (busy : (slotOf s k).busy = true) : k ∈ busySlots s := mem_busySlots.mpr ⟨_, busy_listed busy, busy⟩

section
variable (s : State) (k status die : Nat) (skip : Option Nat) (cancel : Bool)

theorem endTask_keeps : (endTask s k status die skip cancel).hst.fetched = s.hst.fetched ∧ (endTask s k status die skip cancel).hst.cancelWait = s.hst.cancelWait ∧
    (endTask s k status die skip cancel).hst.cancelResult = s.hst.cancelResult := by
  unfold endTask
  dsimp only
  split
  · exact ⟨rfl, rfl, rfl⟩
  · rw [toCores_hst, disarmSlot_hst, dropWaits_hst]
    exact ⟨rfl, rfl, rfl⟩

/-- No slot becomes busy by the end of a task. -/
theorem endTask_busySlots {j : Nat} (listed : j ∈ busySlots (endTask s k status die skip cancel)) : j ∈ busySlots s := by
  by_cases runs : (slotOf s k).busy = true
  · obtain ⟨x, listed, busy⟩ := mem_busySlots.mp listed
    unfold endTask at listed
    dsimp only at listed
    split at listed
    · exact mem_busySlots.mpr ⟨x, listed, busy⟩
    · rw [toCores_hst, disarmSlot_hst, dropWaits_hst] at listed
      rcases mem_tset _ _ _ _ listed with new | old
      · have same : j = k := congrArg Prod.fst new
        exact same ▸ mem_busySlots_of_busy runs
      · exact mem_busySlots.mpr ⟨x, old, busy⟩
  · rwa [endTask_settled _ _ _ _ _ _ (.inl (Bool.eq_false_iff.mpr runs))] at listed

/-- The words of a slot by which a cancel names it. -/
def cancelKey (x : Slot) : Nat × Nat × Bool × Bool := (x.sq, x.seq, x.busy, x.written)

theorem endTask_key (j : Nat) : cancelKey (slotOf (endTask s k status die skip cancel) j) = cancelKey (slotOf s j) := by
  by_cases runs : (slotOf s k).busy = true ∧ (slotOf s k).ending = false ∧ (slotOf s k).written = false
  · obtain ⟨busy, going, open_⟩ := runs
    rw [endTask_slotOf _ _ _ _ _ _ busy going open_]
    split
    · next same => exact same ▸ rfl
    · rfl
  · rw [endTask_settled]
    by_contra none_
    exact runs (by simpa using none_)

theorem endTask_ends (busy : (slotOf s k).busy = true) (unwritten : (slotOf s k).written = false) : (slotOf (endTask s k status die skip cancel) k).ending = true := by
  by_cases ending : (slotOf s k).ending = true
  · rw [endTask_settled _ _ _ _ _ _ (.inr (.inl ending)), ending]
  · rw [endTask_slotOf _ _ _ _ _ _ busy (Bool.eq_false_iff.mpr ending) unwritten, if_pos rfl]

end

/-! One task is cancelled. -/

/-- The completion entry of a task is what the cancel waits for. -/
def cancelAwaits (s : State) (seq : Nat) : State := { s with hst := { s.hst with cancelWait := seq :: s.hst.cancelWait } }
/-- A cancelled task that is the front of its SQ waits for no counter and no lifeline. -/
def cancelFront (s : State) (q seq : Nat) : State := if ((fetched s q).head?.map (·.seq)) = some seq then leaveWaits s q else s

section
variable (s : State) (q seq : Nat)

theorem cancelFront_parts : OnlyParts [.hst] s (cancelFront (cancelAwaits s seq) q seq) := by
  unfold cancelFront
  split <;> exact fun r hr => by cases r <;> first | (exfalso; simp at hr; done) | rfl

theorem cancelFront_keeps : (cancelFront s q seq).hst.slots = s.hst.slots ∧ (cancelFront s q seq).hst.fetched = s.hst.fetched ∧ (cancelFront s q seq).hst.refused = s.hst.refused ∧
    (cancelFront s q seq).hst.cancelResult = s.hst.cancelResult ∧ (cancelFront s q seq).hst.cancelWait = s.hst.cancelWait := by
  unfold cancelFront
  split <;> exact ⟨rfl, rfl, rfl, rfl, rfl⟩

/-- A task of an SQ is cancelled: refused where it is fetched, ended where it runs. -/
def cancelIn (s : State) (q seq : Nat) : State := match (fetched s q).find? (fun d => d.seq == seq) with
  | some d => refuseTask (setFetched (cancelFront s q seq) q ((fetched (cancelFront s q seq) q).filter (fun e => e.seq != seq))) q seq d.words stCancelled
  | none => match (busySlots s).find? (fun k => (slotOf s k).sq == q && (slotOf s k).seq == seq) with
    | some k => endTask s k stCancelled hstDie none true
    | none => s

theorem cancelOne_eq : cancelOne s q seq = cancelIn (cancelAwaits s seq) q seq := rfl

theorem cancelIn_fetched {d : Desc} (found : (fetched s q).find? (fun d => d.seq == seq) = some d) : cancelIn s q seq =
    refuseTask (setFetched (cancelFront s q seq) q ((fetched s q).filter (fun e => e.seq != seq))) q seq d.words stCancelled := by
  obtain ⟨-, same, -, -, -⟩ := cancelFront_keeps s q seq
  have same : fetched (cancelFront s q seq) q = fetched s q := congrArg (tget [] · q) same
  unfold cancelIn
  rw [found, same]

theorem cancelIn_runs {k : Nat} (absent : (fetched s q).find? (fun d => d.seq == seq) = none)
    (found : (busySlots s).find? (fun k => (slotOf s k).sq == q && (slotOf s k).seq == seq) = some k) : cancelIn s q seq = endTask s k stCancelled hstDie none true := by
  unfold cancelIn
  rw [absent]
  dsimp only
  rw [found]

theorem cancelIn_neither (absent : (fetched s q).find? (fun d => d.seq == seq) = none)
    (absent' : (busySlots s).find? (fun k => (slotOf s k).sq == q && (slotOf s k).seq == seq) = none) : cancelIn s q seq = s := by
  unfold cancelIn
  rw [absent]
  dsimp only
  rw [absent']

theorem refuseTask_cancels (w : List Nat) (status : Nat) : (refuseTask s q seq w status).hst.cancelWait = s.hst.cancelWait ∧
    (refuseTask s q seq w status).hst.cancelResult = s.hst.cancelResult := by
  unfold refuseTask endedTask
  split <;> exact ⟨rfl, rfl⟩

theorem cancelIn_waits : (cancelIn s q seq).hst.cancelWait = s.hst.cancelWait ∧ (cancelIn s q seq).hst.cancelResult = s.hst.cancelResult := by
  cases found : (fetched s q).find? (fun d => d.seq == seq) with
  | some d =>
    obtain ⟨-, -, -, result, wait⟩ := cancelFront_keeps s q seq
    rw [cancelIn_fetched s q seq found]
    obtain ⟨kept, kept'⟩ := refuseTask_cancels (setFetched (cancelFront s q seq) q ((fetched s q).filter (fun e => e.seq != seq))) q seq d.words stCancelled
    exact ⟨kept.trans wait, kept'.trans result⟩
  | none =>
    cases runs : (busySlots s).find? (fun k => (slotOf s k).sq == q && (slotOf s k).seq == seq) with
    | some k =>
      rw [cancelIn_runs s q seq found runs]
      obtain ⟨-, kept, kept'⟩ := endTask_keeps s k stCancelled hstDie none true
      exact ⟨kept, kept'⟩
    | none =>
      rw [cancelIn_neither s q seq found runs]
      exact ⟨rfl, rfl⟩

theorem cancelOne_waits : (cancelOne s q seq).hst.cancelWait = seq :: s.hst.cancelWait ∧ (cancelOne s q seq).hst.cancelResult = s.hst.cancelResult :=
  cancelIn_waits (cancelAwaits s seq) q seq

end

theorem each_cancelOne_waits (q : Nat) : ∀ (l : List Nat) (s : State), (each l s (cancelOne · q ·)).hst.cancelResult = s.hst.cancelResult ∧
    ∀ seq, seq ∈ l ∨ seq ∈ s.hst.cancelWait → seq ∈ (each l s (cancelOne · q ·)).hst.cancelWait
  | [], s => ⟨rfl, fun seq h => h.resolve_left List.not_mem_nil⟩
  | n :: l, s => by
    obtain ⟨result, waits⟩ := each_cancelOne_waits q l (cancelOne s q n)
    obtain ⟨wait, kept⟩ := cancelOne_waits s q n
    refine ⟨result.trans kept, fun seq h => waits seq ?_⟩
    rw [wait, List.mem_cons]
    rcases h with h | h
    · rcases List.mem_cons.mp h with same | h
      · exact .inr (.inl same)
      · exact .inl h
    · exact .inr (.inr h)

/-- What cancelling the tasks of an SQ without fetched descriptors keeps. -/
structure Cancelling (q : Nat) (s u : State) : Prop where
  none_ : fetched u q = []
  slots : ∀ j ∈ busySlots u, j ∈ busySlots s
  keys : ∀ j, cancelKey (slotOf u j) = cancelKey (slotOf s j)
  ended : ∀ j, (slotOf s j).ending = true → (slotOf u j).ending = true

theorem Cancelling.trans {q : Nat} {s u v : State} (a : Cancelling q s u) (b : Cancelling q u v) : Cancelling q s v :=
  ⟨b.none_, fun j h => a.slots j (b.slots j h), fun j => (b.keys j).trans (a.keys j), fun j h => b.ended j (a.ended j h)⟩

theorem cancelIn_cancelling {q : Nat} {s : State} (none_ : fetched s q = []) (seq : Nat) : Cancelling q s (cancelIn s q seq) := by
  have absent : (fetched s q).find? (fun d => d.seq == seq) = none := by rw [none_, List.find?_nil]
  cases runs : (busySlots s).find? (fun k => (slotOf s k).sq == q && (slotOf s k).seq == seq) with
  | some k =>
    rw [cancelIn_runs s q seq absent runs]
    obtain ⟨same, -, -⟩ := endTask_keeps s k stCancelled hstDie none true
    exact ⟨(congrArg (tget [] · q) same).trans none_, fun j h => endTask_busySlots _ _ _ _ _ _ h, fun j => endTask_key _ _ _ _ _ _ j, fun j h =>
      (congrArg Slot.ending (endTask_ended s k j stCancelled hstDie none true (.inr h))).trans h⟩
  | none =>
    rw [cancelIn_neither s q seq absent runs]
    exact ⟨none_, fun _ h => h, fun _ => rfl, fun _ h => h⟩

theorem cancelOne_cancelling {q : Nat} {s : State} (none_ : fetched s q = []) (seq : Nat) : Cancelling q s (cancelOne s q seq) := by
  obtain ⟨none_, slots, keys, ended⟩ := cancelIn_cancelling (s := cancelAwaits s seq) none_ seq
  exact ⟨none_, slots, keys, ended⟩

theorem each_cancelling {q : Nat} : ∀ (l : List Nat) {s : State}, fetched s q = [] → Cancelling q s (each l s (cancelOne · q ·))
  | [], _, none_ => ⟨none_, fun _ h => h, fun _ => rfl, fun _ h => h⟩
  | n :: l, s, none_ => by
    have first := cancelOne_cancelling none_ n
    exact first.trans (each_cancelling l first.none_)

/-- A slot of an SQ is the only one with its number. -/
def OnlySlot (s : State) (q k : Nat) : Prop := ∀ j ∈ busySlots s, (slotOf s j).sq = q → (slotOf s j).seq = (slotOf s k).seq → j = k

theorem OnlySlot.kept {q k : Nat} {s u : State} (only : OnlySlot s q k) (c : Cancelling q s u) : OnlySlot u q k := by
  have sq (j : Nat) : (slotOf u j).sq = (slotOf s j).sq := congrArg (·.1) (c.keys j)
  have seq (j : Nat) : (slotOf u j).seq = (slotOf s j).seq := congrArg (·.2.1) (c.keys j)
  exact fun j listed same number => only j (c.slots j listed) (by rw [← sq, same]) (by rw [← seq, ← seq, number])

theorem cancelOne_ends {q k : Nat} {s : State} (none_ : fetched s q = []) (same : (slotOf s k).sq = q) (only : OnlySlot s q k) (busy : (slotOf s k).busy = true)
    (unwritten : (slotOf s k).written = false) : (slotOf (cancelOne s q (slotOf s k).seq) k).ending = true := by
  have found : (busySlots s).find? (fun j => (slotOf s j).sq == q && (slotOf s j).seq == (slotOf s k).seq) = some k := by
    cases h : (busySlots s).find? (fun j => (slotOf s j).sq == q && (slotOf s j).seq == (slotOf s k).seq) with
    | none => exact absurd (List.find?_eq_none.mp h k (mem_busySlots_of_busy busy)) (by simp [same])
    | some j =>
      have named := List.find?_some h
      rw [Bool.and_eq_true, beq_iff_eq, beq_iff_eq] at named
      exact congrArg some (only j (List.mem_of_find?_eq_some h) named.1 named.2)
  have absent : (fetched s q).find? (fun d => d.seq == (slotOf s k).seq) = none := by rw [none_, List.find?_nil]
  rw [cancelOne_eq, cancelIn_runs (cancelAwaits s _) q _ absent found]
  exact endTask_ends (cancelAwaits s _) k stCancelled hstDie none true busy unwritten

theorem each_cancelOne_ends {q k : Nat} : ∀ {l : List Nat} {s : State}, fetched s q = [] → (slotOf s k).sq = q → OnlySlot s q k → (slotOf s k).busy = true →
    (slotOf s k).written = false → (slotOf s k).seq ∈ l → (slotOf (each l s (cancelOne · q ·)) k).ending = true
  | [], _, _, _, _, _, _, h => absurd h List.not_mem_nil
  | n :: l, s, none_, same, only, busy, unwritten, h => by
    have first := cancelOne_cancelling none_ n
    have key := first.keys k
    rcases List.mem_cons.mp h with now | later
    · refine (each_cancelling l first.none_).ended k ?_
      rw [← now]
      exact cancelOne_ends none_ same only busy unwritten
    · refine each_cancelOne_ends (s := cancelOne s q n) first.none_ ((congrArg (·.1) key).trans same) (only.kept first) ((congrArg (·.2.2.1) key).trans busy) ((congrArg (·.2.2.2) key).trans unwritten) ?_
      have number : (slotOf (cancelOne s q n) k).seq = (slotOf s k).seq := congrArg (·.2.1) key
      exact number ▸ later

/-! The tasks that a cancel names. -/

/-- A task of an SQ has a number and a CMD_ID. -/
def TaskNamed (s : State) (q seq id : Nat) : Prop :=
  (∃ k ∈ busySlots s, (slotOf s k).sq = q ∧ (slotOf s k).seq = seq ∧ (slotOf s k).cmdId = id) ∨ ∃ d ∈ fetched s q, d.seq = seq ∧ tCmdId d.words = id
/-- Its tasks: those that run, then those that are fetched. -/
def sqTasks (s : State) (q : Nat) : List (Nat × Nat) :=
  ((busySlots s).filter (fun k => (slotOf s k).sq == q)).map (fun k => ((slotOf s k).seq, (slotOf s k).cmdId)) ++ (fetched s q).map (fun d => (d.seq, tCmdId d.words))

theorem mem_sqTasks {s : State} {q seq id : Nat} : (seq, id) ∈ sqTasks s q ↔ TaskNamed s q seq id := by
  unfold sqTasks TaskNamed
  rw [List.mem_append, List.mem_map, List.mem_map]
  constructor
  · rintro (⟨k, listed, named⟩ | ⟨d, listed, named⟩)
    · obtain ⟨listed, same⟩ := List.mem_filter.mp listed
      have number := congrArg Prod.fst named
      have name := congrArg Prod.snd named
      exact .inl ⟨k, listed, beq_iff_eq.mp same, number, name⟩
    · have number := congrArg Prod.fst named
      have name := congrArg Prod.snd named
      exact .inr ⟨d, listed, number, name⟩
  · rintro (⟨k, listed, same, number, name⟩ | ⟨d, listed, number, name⟩)
    · exact .inl ⟨k, List.mem_filter.mpr ⟨listed, beq_iff_eq.mpr same⟩, Prod.ext number name⟩
    · exact .inr ⟨d, listed, Prod.ext number name⟩

/-- The numbers of the tasks with a CMD_ID. -/
def namedSeqs (s : State) (q cmd : Nat) : List Nat := ((sqTasks s q).filter (fun p => p.2 == cmd)).map (·.1)

theorem mem_namedSeqs {s : State} {q cmd seq : Nat} : seq ∈ namedSeqs s q cmd ↔ TaskNamed s q seq cmd := by
  rw [← mem_sqTasks]
  unfold namedSeqs
  rw [List.mem_map]
  constructor
  · rintro ⟨⟨a, b⟩, listed, rfl⟩
    obtain ⟨listed, same⟩ := List.mem_filter.mp listed
    exact (beq_iff_eq.mp same : b = cmd) ▸ listed
  · exact fun listed => ⟨(seq, cmd), List.mem_filter.mpr ⟨listed, beq_iff_eq.mpr rfl⟩, rfl⟩

/-- Descriptors that an SQ has not fetched yet. -/
def unfetched (s : State) (q : Nat) : Nat :=
  (bits (reg s (sqOff q 3)) 31 16 + 2 ^ bits (reg s (sqOff q 0)) 19 15 - bits (reg s (sqOff q 3)) 15 0) % 2 ^ bits (reg s (sqOff q 0)) 19 15
/-- HST_CANCEL's RESULT. -/
def cancelSays (s : State) (r : Nat) : State := { s with hst := { s.hst with cancelResult := r } }
/-- The first task of a CMD_ID ends, or the cancel waits for one that is not fetched yet. -/
def cancelNamed (s : State) (q cmd : Nat) : State := match namedSeqs s q cmd with
  | x :: xs => cancelOne (cancelSays s 1) q (xs.foldl min x)
  | [] => if unfetched s q = 0 then cancelSays s 2 else { s with hst := { s.hst with cancelResult := 1, cancels := s.hst.cancels ++ [(q, cmd, unfetched s q)] } }
/-- Every task of an SQ ends. -/
def cancelAll (s : State) (q : Nat) : State :=
  if (sqTasks s q).isEmpty then cancelSays s 2 else each ((sqTasks s q).map (·.1)) (cancelSays s 1) (cancelOne · q ·)

theorem execHstCancel_eq (v : Word) (s : State) : exec (.hstCancel v) s = .next (
    if bits v.toNat 29 28 = 0 then cancelNamed s (bits v.toNat 11 0) (bits v.toNat 27 12)
    else if bits v.toNat 29 28 = 1 then cancelAll s (bits v.toNat 11 0) else s) := by
  show execHstCancel v s = _
  unfold execHstCancel cancelNamed
  refine congrArg Host.Outcome.next (ite_congr rfl (fun _ => ?_) (fun _ => rfl))
  show (match namedSeqs s (bits v.toNat 11 0) (bits v.toNat 27 12) with | x :: xs => _ | [] => _) = _
  cases namedSeqs s (bits v.toNat 11 0) (bits v.toNat 27 12) <;> rfl

section
variable (s : State) (q cmd : Nat)

theorem cancelNamed_none (none_ : ∀ seq, ¬ TaskNamed s q seq cmd) : OnlyParts [.hst] s (cancelNamed s q cmd) ∧ (cancelNamed s q cmd).hst.slots = s.hst.slots ∧
    (cancelNamed s q cmd).hst.cancelResult = (if unfetched s q = 0 then 2 else 1) ∧
    (cancelNamed s q cmd).hst.cancels = s.hst.cancels ++ if unfetched s q = 0 then [] else [(q, cmd, unfetched s q)] := by
  have empty : namedSeqs s q cmd = [] := List.eq_nil_iff_forall_not_mem.mpr (fun seq h => none_ seq (mem_namedSeqs.mp h))
  unfold cancelNamed
  rw [empty]
  dsimp only
  generalize unfetched s q = n
  split
  · exact ⟨fun r hr => by cases r <;> first | (exfalso; simp at hr; done) | rfl, rfl, rfl, (List.append_nil _).symm⟩
  · exact ⟨fun r hr => by cases r <;> first | (exfalso; simp at hr; done) | rfl, rfl, rfl, rfl⟩

theorem cancelNamed_first {seq : Nat} (named : TaskNamed s q seq cmd) (least : ∀ m, TaskNamed s q m cmd → seq ≤ m) :
    cancelNamed s q cmd = cancelOne (cancelSays s 1) q seq := by
  have listed := mem_namedSeqs.mpr named
  have below (m : Nat) (h : m ∈ namedSeqs s q cmd) := least m (mem_namedSeqs.mp h)
  unfold cancelNamed
  cases h : namedSeqs s q cmd with
  | nil => exact absurd (h ▸ listed) List.not_mem_nil
  | cons x xs =>
    rw [h] at listed below
    dsimp only
    rw [foldl_min_least listed below]

/-- The first task of a CMD_ID: a fetched one is refused, a running one ends. -/
theorem cancelNamed_ends {seq : Nat} (named : TaskNamed s q seq cmd) (least : ∀ m, TaskNamed s q m cmd → seq ≤ m) :
    ∃ u, OnlyParts [.hst] s u ∧ u.hst.slots = s.hst.slots ∧ u.hst.fetched = s.hst.fetched ∧ u.hst.refused = s.hst.refused ∧ u.hst.cancelResult = 1 ∧ seq ∈ u.hst.cancelWait ∧
      (∀ d, (fetched s q).find? (fun d => d.seq == seq) = some d → cancelNamed s q cmd =
        refuseTask (setFetched u q ((fetched s q).filter (fun e => e.seq != seq))) q seq d.words stCancelled) ∧
      ((∀ d ∈ fetched s q, d.seq ≠ seq) → ∃ k ∈ busySlots s, (slotOf s k).sq = q ∧ (slotOf s k).seq = seq ∧ cancelNamed s q cmd = endTask u k stCancelled hstDie none true) := by
  have parts : OnlyParts [.hst] s (cancelSays s 1) := fun r hr => by cases r <;> first | (exfalso; simp at hr; done) | rfl
  obtain ⟨slots, kept, refused, result, wait⟩ := cancelFront_keeps (cancelAwaits (cancelSays s 1) seq) q seq
  refine ⟨cancelFront (cancelAwaits (cancelSays s 1) seq) q seq, OnlyParts.trans parts (cancelFront_parts _ q seq) (by decide) (by decide), slots, kept, refused, result,
    wait ▸ List.mem_cons_self, fun d found => ?_, fun apart => ?_⟩
  · rw [cancelNamed_first s q cmd named least, cancelOne_eq, cancelIn_fetched (cancelAwaits (cancelSays s 1) seq) q seq found]
    rfl
  · have notFetched : (fetched s q).find? (fun d => d.seq == seq) = none := List.find?_eq_none.mpr (fun d listed => by simpa using apart d listed)
    have unmoved : cancelFront (cancelAwaits (cancelSays s 1) seq) q seq = cancelAwaits (cancelSays s 1) seq := by
      unfold cancelFront
      refine if_neg ?_
      show (fetched s q).head?.map (·.seq) ≠ some seq
      intro h
      obtain ⟨d, head, number⟩ := Option.map_eq_some_iff.mp h
      exact apart d (List.mem_of_head? head) number
    obtain ⟨k, listed, of, number, -⟩ := named.resolve_right (fun ⟨d, listed, number, _⟩ => apart d listed number)
    cases found : (busySlots s).find? (fun k => (slotOf s k).sq == q && (slotOf s k).seq == seq) with
    | none => exact absurd (List.find?_eq_none.mp found k listed) (by simp [of, number])
    | some j =>
      have named' := List.find?_some found
      rw [Bool.and_eq_true, beq_iff_eq, beq_iff_eq] at named'
      refine ⟨j, List.mem_of_find?_eq_some found, named'.1, named'.2, ?_⟩
      rw [cancelNamed_first s q cmd named least, cancelOne_eq, cancelIn_runs (cancelAwaits (cancelSays s 1) seq) q seq notFetched found, unmoved]

theorem cancelAll_none (none_ : ∀ seq id, ¬ TaskNamed s q seq id) : cancelAll s q = cancelSays s 2 := by
  have empty : sqTasks s q = [] := List.eq_nil_iff_forall_not_mem.mpr (fun p h => none_ p.1 p.2 (mem_sqTasks.mp h))
  exact if_pos (by rw [empty]; rfl)

theorem cancelAll_ends (some_ : ∃ seq id, TaskNamed s q seq id) : (cancelAll s q).hst.cancelResult = 1 ∧ (∀ seq id, TaskNamed s q seq id → seq ∈ (cancelAll s q).hst.cancelWait) ∧
    (fetched s q = [] → ∀ k ∈ busySlots s, (slotOf s k).sq = q → OnlySlot s q k → (slotOf s k).busy = true → (slotOf s k).written = false → (slotOf (cancelAll s q) k).ending = true) := by
  obtain ⟨seq, id, named⟩ := some_
  have listed (seq id : Nat) (named : TaskNamed s q seq id) : seq ∈ (sqTasks s q).map (·.1) := List.mem_map.mpr ⟨(seq, id), mem_sqTasks.mpr named, rfl⟩
  have does : cancelAll s q = each ((sqTasks s q).map (·.1)) (cancelSays s 1) (cancelOne · q ·) :=
    if_neg (fun h => absurd (mem_sqTasks.mpr named) (by rw [List.isEmpty_iff.mp h]; exact List.not_mem_nil))
  obtain ⟨result, waits⟩ := each_cancelOne_waits q ((sqTasks s q).map (·.1)) (cancelSays s 1)
  rw [does]
  exact ⟨result, fun seq id named => waits seq (.inl (listed seq id named)), fun none_ k inside of only busy unwritten =>
    each_cancelOne_ends (s := cancelSays s 1) none_ of only busy unwritten (listed _ _ (.inl ⟨k, inside, of, rfl, rfl⟩))⟩

end

theorem tasksCancelled (v : Word) (s : State) : let q := bits v.toNat 11 0
    let cmd := bits v.toNat 27 12
    (2 ≤ bits v.toNat 29 28 → exec (.hstCancel v) s = .next s) ∧
    (bits v.toNat 29 28 = 0 → exec (.hstCancel v) s = .next (cancelNamed s q cmd)) ∧
    (bits v.toNat 29 28 = 1 → exec (.hstCancel v) s = .next (cancelAll s q)) := by
  intro q cmd
  rw [execHstCancel_eq]
  refine ⟨fun h => ?_, fun h => ?_, fun h => ?_⟩
  · rw [if_neg (by omega), if_neg (by omega)]
  · rw [if_pos h]
  · rw [if_neg (by omega), if_pos h]

theorem fetchAndCancel : Claims.FetchAndCancel := by
  refine ⟨descriptorsFetched, fun v s => ?_⟩
  obtain ⟨reserved, named, all⟩ := tasksCancelled v s
  refine ⟨reserved, fun scope none_ => ⟨_, named scope, cancelNamed_none s _ _ none_⟩, fun scope seq is least => ?_, fun scope none_ => ⟨_, all scope, ?_⟩, fun scope some_ => ⟨_, all scope, cancelAll_ends s _ some_⟩⟩
  · rw [named scope]
    obtain ⟨u, parts, slots, kept, refused, result, wait, refuses, ends⟩ := cancelNamed_ends s _ _ is least
    refine ⟨u, parts, slots, kept, refused, result, wait, fun d found => congrArg Host.Outcome.next (refuses d found), fun apart => ?_⟩
    obtain ⟨k, listed, of, number, does⟩ := ends apart
    exact ⟨k, listed, of, number, congrArg Host.Outcome.next does⟩
  · rw [cancelAll_none s _ none_]
    exact ⟨fun r hr => by cases r <;> first | (exfalso; simp at hr; done) | rfl, rfl, rfl⟩

end Sys2Proof.Machine
end

section
/-! PROOF. Completion entries (16 R415, R416; 01 R29; 10 R278). -/

namespace Sys2Proof.Machine

open Sys2Proof Sys2Proof.Safety

/-! TAIL and the phase of a completion queue's word 2. -/

theorem bits_tail_of_phase (w v : Nat) : bits (putBits w 32 32 v % 2 ^ 64) 31 16 = bits w 31 16 := by
  unfold putBits bits
  simp only [Nat.shiftRight_eq_div_pow]
  norm_num
  omega
theorem bit_putBits_phase (w : Nat) (b : Bool) : bit (putBits w 32 32 (b2n b) % 2 ^ 64) 32 = b := by
  have field := bits_putBits_same w (b2n b) (show 32 ≤ 32 ∧ 32 < 64 by decide)
  unfold bits at field
  rw [Nat.shiftRight_eq_div_pow] at field
  rw [bit_eq_mod, show putBits w 32 32 (b2n b) % 2 ^ 64 / 2 ^ 32 % 2 = b2n b % 2 from field]
  cases b <;> rfl

/-! What a stopped task's open ranges leave (10 R278). -/

section
variable (s : State) (k : Nat)

theorem openRanges_parts : OnlyParts [.mem, .freeIdx] s (openRanges s k) := Within.onlyParts (l := [.mem, .freeIdx]) (back := false) (openRanges_within rfl s k .refl)

theorem openRanges_whole (whole : aborted (slotOf s k) = false) : openRanges s k = s := if_neg (by rw [whole]; exact Bool.false_ne_true)

theorem mread_openRanges {b : Nat} (outside : b ∉ abortBytes s k) : mread (openRanges s k).mem b = mread s.mem b := by
  unfold openRanges
  split
  · refine each_keeps (fun u : State => mread u.mem b) (abortBytes s k) s _ (fun u a listed => mread_openBytes u a 1 ?_)
    have apart : a ≠ b := fun same => outside (same ▸ listed)
    omega
  · rfl

end

/-! The entry goes to the ring. -/

/-- The entry of a slot. -/
def completionEntry (s : State) (x : Slot) (q : Nat) : List Byte :=
  [x.cmdId % 2 ^ 16 + x.sq * 2 ^ 16 + bits (reg s (sqOff x.sq 3)) 15 0 * 2 ^ 28 + b2n (cqPhase s q) * 2 ^ 63,
    (slotStatus x).1 + (slotStatus x).2.1 * 2 ^ 16 + (slotStatus x).2.2 * 2 ^ 24 + x.info % 2 ^ 32 * 2 ^ 32, x.strand, now s].flatMap (leBytes 8)
/-- Its place at TAIL. -/
def completionPlace (s : State) (q : Nat) : Nat := bits (reg s (cqOff q 1)) 51 0 + 32 * cqTail s q
def entryWritten (s : State) (x : Slot) (q : Nat) : State := ringWrite s (completionPlace s q) (completionEntry s x q)

section
variable (s : State) (x : Slot) (q : Nat)

theorem ringWrite_parts (a : Nat) (l : List Byte) : OnlyParts [.mem, .out] s (ringWrite s a l) := Within.onlyParts (l := [.mem, .out]) (back := false) (ringWrite_within rfl s a l .refl)

theorem ringWrite_host {a : Nat} (host : isHost a = true) (l : List Byte) : .hostWrite a l ∈ (ringWrite s a l).out ∧ (ringWrite s a l).mem = s.mem := by
  have wrote : ringWrite s a l = emit s (.hostWrite a l) := if_pos host
  rw [wrote]
  exact ⟨List.mem_cons_self, rfl⟩
theorem ringWrite_near {a : Nat} (near : isHost a = false) (l : List Byte) : (ringWrite s a l).mem = mwriteN s.mem a l := by
  have wrote : ringWrite s a l = wrBytes s a l := if_neg (by rw [near]; exact Bool.false_ne_true)
  rw [wrote]
  rfl

/-- Words of the host interface do not depend on memory. -/
theorem completionEntry_congr {s t : State} (regs : t.regs = s.regs) (clock : t.clock = s.clock) : completionEntry t x q = completionEntry s x q := by
  unfold completionEntry cqPhase now
  rw [reg_congr regs, reg_congr regs, clock]
theorem completionPlace_congr {s t : State} (regs : t.regs = s.regs) : completionPlace t q = completionPlace s q := by
  unfold completionPlace cqTail
  rw [reg_congr regs, reg_congr regs]

end

/-! TAIL and the phase move on, the entry is counted, the strand's words move on. -/

/-- TAIL moves to n; the phase turns where it is 0. -/
def tailAdvanced (s : State) (q n : Nat) : State := setField (setField s (cqOff q 2) 31 16 n) (cqOff q 2) 32 32 (b2n (cqPhase s q != (n == 0)))
/-- The queue holds one entry more. -/
def heldMore (s : State) (q status : Nat) : State :=
  { s with hst := { s.hst with cqHeld := tset s.hst.cqHeld q (cqHeld s q + 1), cplCancelled := s.hst.cplCancelled + b2n (status == stCancelled) } }
/-- The strand of a completed task. -/
def strandDone (x : Slot) (y : Strand) : Strand := { y with tasksDone := y.tasksDone + 1, stepLast := x.step }
/-- The queue and the count of completions have the entry. -/
def queueTallied (s : State) (x : Slot) (q n : Nat) : State := bump (heldMore (tailAdvanced s q n) q (slotStatus x).1) (hstOff HST_CPL_COUNT) 1
def entryTallied (s : State) (x : Slot) (q n : Nat) : State := updStrand (queueTallied s x q n) x.strand (strandDone x)

section
variable (s : State) (x : Slot) (q n : Nat)

theorem tailAdvanced_regs (off : Nat) : reg (tailAdvanced s q n) off = if cqOff q 2 = off then
    putBits (putBits (reg s (cqOff q 2)) 31 16 n % 2 ^ 64) 32 32 (b2n (cqPhase s q != (n == 0))) % 2 ^ 64 else reg s off := by
  unfold tailAdvanced
  rw [reg_setField, reg_setField, if_pos rfl, reg_setField]
  split <;> rfl
theorem tailAdvanced_parts : OnlyParts [.regs] s (tailAdvanced s q n) := OnlyParts.trans (setReg_parts s _ _) (setReg_parts _ _ _) (by decide) (by decide)
theorem heldMore_parts (status : Nat) : OnlyParts [.hst] s (heldMore s q status) := fun r hr => by cases r <;> first | (exfalso; simp at hr; done) | rfl

theorem entryTallied_regs (off : Nat) : reg (entryTallied s x q n) off =
    if hstOff HST_CPL_COUNT = off then (reg (tailAdvanced s q n) (hstOff HST_CPL_COUNT) + 1) % 2 ^ 64 else reg (tailAdvanced s q n) off := by
  have same (off : Nat) : reg (heldMore (tailAdvanced s q n) q (slotStatus x).1) off = reg (tailAdvanced s q n) off := reg_congr (heldMore_parts _ q _ .regs (by decide)) off
  unfold entryTallied
  rw [reg_congr (updStrand_parts _ x.strand (strandDone x) .regs (by decide))]
  unfold queueTallied
  rw [reg_bump, same, same]

theorem entryTallied_parts : OnlyParts [.regs, .hst] s (entryTallied s x q n) := by
  refine OnlyParts.trans (l := [.regs, .hst]) (m := [.hst]) ?_ (updStrand_parts _ x.strand (strandDone x)) (by decide) (by decide)
  refine OnlyParts.trans (l := [.regs, .hst]) (m := [.regs]) ?_ (bump_parts _ _ _) (by decide) (by decide)
  exact OnlyParts.trans (tailAdvanced_parts s q n) (heldMore_parts _ q _) (by decide) (by decide)

/-- A strand's record does not touch the rest of the HST die's state. -/
theorem updStrand_hst (f : Strand → Strand) (m : Nat) : (updStrand s m f).hst = { s.hst with strands := (updStrand s m f).hst.strands } := by
  unfold updStrand
  split <;> rfl

theorem updStrand_strands {f : Strand → Strand} {m : Nat} {p : Nat × Strand} (listed : p ∈ (updStrand s m f).hst.strands) :
    p ∈ s.hst.strands ∨ ∃ y, (m, y) ∈ s.hst.strands ∧ p = (m, f y) := by
  unfold updStrand at listed
  split at listed
  · exact .inl listed
  · next y found =>
    rcases mem_tset _ _ _ _ listed with new | old
    · exact .inr ⟨y, mem_of_tfind found, new⟩
    · exact .inl old

theorem entryTallied_hst : ∃ m c, (entryTallied s x q n).hst = { s.hst with strands := m, cqHeld := tset s.hst.cqHeld q (cqHeld s q + 1), cplCancelled := c } ∧
    (∀ p ∈ m, p ∈ s.hst.strands ∨ ∃ y, (x.strand, y) ∈ s.hst.strands ∧ p = (x.strand, strandDone x y)) := by
  have moved := updStrand_hst (queueTallied s x q n) (strandDone x) x.strand
  exact ⟨_, _, moved, fun p listed => updStrand_strands (queueTallied s x q n) listed⟩

theorem entryTallied_strand {y : Strand} (found : strand s x.strand = some y) : strand (entryTallied s x q n) x.strand = some (strandDone x y) :=
  strand_updStrand_some (s := queueTallied s x q n) found

end

/-! The slot is free. -/

/-- A row counter that no core disarmed is disarmed, and the slot is free. -/
def slotFreed (s : State) (x : Slot) (k : Nat) : State := forgetSlot (setSlot (if x.ending || x.refusal.isSome then s else disarmSlot s k) k {}) k x.seq

section
variable (s : State) (x : Slot) (k : Nat)

theorem slotFreed_parts : OnlyParts [.hst, .cache, .posted, .net] s (slotFreed s x k) := by
  refine Within.onlyParts (l := [.hst, .cache, .posted, .net]) (back := false) (forgetSlot_within rfl _ k _ (setSlot_within rfl _ _ _ ?_))
  exact Within.ite .refl (disarmSlot_within rfl s k .refl)

theorem slotFreed_hst : ∃ w r i, (slotFreed s x k).hst = { s.hst with slots := tset s.hst.slots k {}, cancelWait := w, cancelResult := r, maskFrees := s.hst.maskFrees.filter (fun p => p.1 != k), invalidating := i } := by
  have freed (u : State) (same : u.hst = s.hst) : ∃ w r i, (forgetSlot (setSlot u k {}) k x.seq).hst =
      { s.hst with slots := tset s.hst.slots k {}, cancelWait := w, cancelResult := r, maskFrees := s.hst.maskFrees.filter (fun p => p.1 != k), invalidating := i } := by
    rw [← same]
    exact ⟨_, _, _, rfl⟩
  unfold slotFreed
  split
  · exact freed s rfl
  · exact freed _ (disarmSlot_hst s k)

end

/-! The queue's vector is told. -/

theorem sendMsix_hst (s : State) (v : Nat) : ∃ c, (sendMsix s v).hst = { s.hst with msixSent := c } := by
  rw [sendMsix_eq]
  split <;> exact ⟨_, rfl⟩
theorem sendMsix_out (s : State) (v : Nat) {o : Out} (listed : o ∈ s.out) : o ∈ (sendMsix s v).out := by
  rw [sendMsix_eq]
  split
  · exact listed
  · exact List.mem_cons_of_mem _ listed
/-- Among the registers below the pending-bit array a message over MSI-X changes none. -/
theorem sendMsix_reg (s : State) (v : Nat) {off : Nat} (below : off < 0xE8000) : reg (sendMsix s v) off = reg s off := by
  have apart : off ≠ pbaOff v := by
    unfold pbaOff
    omega
  rw [sendMsix_eq]
  split
  · exact reg_setReg_other _ _ apart
  · rfl

/-- What telling of a completion keeps. -/
structure Told (s t : State) : Prop where
  hst : ∃ m c, t.hst = { s.hst with unsignalled := m, msixSent := c }
  out : ∀ o ∈ s.out, o ∈ t.out
  regs : ∀ off, off < 0xE8000 → reg t off = reg s off

theorem signalCq_told_keeps (s : State) (q : Nat) : Told s (signalCq s q) := by
  unfold signalCq
  dsimp only
  rw [show ({ s with hst := { s.hst with unsignalled := tdel s.hst.unsignalled q } } : State) = signalled s q from rfl]
  split
  · obtain ⟨c, hst⟩ := sendMsix_hst (signalled s q) (bits (reg (signalled s q) (cqOff q 0)) 16 6)
    exact ⟨⟨_, c, hst⟩, fun o listed => sendMsix_out (signalled s q) _ listed, fun off below => sendMsix_reg (signalled s q) _ below⟩
  · exact ⟨⟨_, _, rfl⟩, fun o listed => listed, fun off _ => rfl⟩

theorem aggregate_keeps (s : State) (q : Nat) (intr : Bool) : Told s (aggregate s q intr) := by
  unfold aggregate
  split
  · exact ⟨⟨_, _, rfl⟩, fun o listed => listed, fun off _ => rfl⟩
  · dsimp only
    split
    · exact signalCq_told_keeps s q
    · exact ⟨⟨_, _, rfl⟩, fun o listed => listed, fun off _ => rfl⟩

theorem aggregate_parts (s : State) (q : Nat) (intr : Bool) : OnlyParts [.regs, .hst, .out] s (aggregate s q intr) :=
  Within.onlyParts (l := [.regs, .hst, .out]) (back := false) (aggregate_within rfl s q intr .refl)

/-! Nothing waits for the slot. -/

/-- Nothing waits for a free slot: no refused task, no mask to free, no strand to release, no queue to close. -/
structure Unwaited (h : Hst) : Prop where
  refused : h.refused = []
  masks : h.maskFrees = []
  closing : h.closing = []
  strands : ∀ p ∈ h.strands, p.2.releasing = false

theorem settled_unwaited {s : State} (un : Unwaited s.hst) : settleClosing (settleRelease (settleRefused (settleMasks s))) = s := by
  obtain ⟨refused, masks, closing, strands⟩ := un
  have noMasks : settleMasks s = s := by
    unfold settleMasks
    rw [masks]
    rfl
  have noRefused : settleRefused s = s := by
    unfold settleRefused
    rw [refused]
    show ({ s with hst := { s.hst with refused := [] } } : State) = s
    rw [← refused]
  have noRelease : settleRelease s = s := by
    unfold settleRelease
    rw [List.filter_eq_nil_iff.mpr (fun p listed => by rw [strands p listed]; exact Bool.false_ne_true)]
    rfl
  have noClosing : settleClosing s = s := by
    unfold settleClosing
    rw [closing]
    rfl
  rw [noMasks, noRefused, noRelease, noClosing]

/-! A completion entry, from its write to its vector. -/

/-- The entry is written and the slot free; the vector is not told yet. -/
def beforeTold (s : State) (x : Slot) (k q : Nat) : State := slotFreed (entryTallied (entryWritten s x q) x q ((cqTail s q + 1) % cqSize (entryWritten s x q) q)) x k
/-- The state behind a completion entry, from the state with the open ranges on. -/
def completed (s : State) (x : Slot) (k q : Nat) : State := aggregate (beforeTold s x k q) q x.intr

theorem writeCompletion_eq (s : State) (k : Nat) : writeCompletion s k =
    settleRelease (settleRefused (settleMasks (completed (openRanges s k) (slotOf s k) k (sqCq (openRanges s k) (slotOf s k).sq)))) := rfl

theorem execCompletionWrite_waits {k : SlotId} {s : State} (waits : slotReady s k = false ∨ cqSize s (sqCq s (slotOf s k).sq) ≤ cqHeld s (sqCq s (slotOf s k).sq)) :
    exec (.completionWrite k) s = .next s := by
  refine congrArg Host.Outcome.next (if_neg ?_)
  rw [Bool.and_eq_true, Bool.not_eq_true', cqFull, decide_eq_false_iff_not]
  rintro ⟨ready, room⟩
  exact waits.elim (fun h => Bool.false_ne_true (h.symm.trans ready)) room

theorem execCompletionWrite_writes {k : SlotId} {s : State} (ready : slotReady s k = true) (room : cqHeld s (sqCq s (slotOf s k).sq) < cqSize s (sqCq s (slotOf s k).sq)) :
    exec (.completionWrite k) s = .next (settleClosing (writeCompletion s k)) := by
  refine congrArg Host.Outcome.next (if_pos ?_)
  rw [Bool.and_eq_true, Bool.not_eq_true', cqFull, decide_eq_false_iff_not]
  exact ⟨ready, Nat.not_le.mpr room⟩

section
variable (s : State) (x : Slot) (k q : Nat)

theorem entryWritten_parts : OnlyParts [.mem, .out] s (entryWritten s x q) := ringWrite_parts s _ _

theorem completed_parts : OnlyParts [.regs, .mem, .hst, .cache, .posted, .net, .out] s (completed s x k q) := by
  refine OnlyParts.trans (l := [.regs, .mem, .hst, .cache, .posted, .net, .out]) (m := [.regs, .hst, .out]) ?_ (aggregate_parts _ q x.intr) (by decide) (by decide)
  refine OnlyParts.trans (l := [.regs, .mem, .hst, .out]) (m := [.hst, .cache, .posted, .net]) ?_ (slotFreed_parts _ x k) (by decide) (by decide)
  exact OnlyParts.trans (entryWritten_parts s x q) (entryTallied_parts _ x q _) (by decide) (by decide)

theorem entryWritten_regs : (entryWritten s x q).regs = s.regs := entryWritten_parts s x q .regs (by decide)
theorem entryWritten_hst : (entryWritten s x q).hst = s.hst := entryWritten_parts s x q .hst (by decide)

theorem completed_hst : ∃ m c u w r i a, (completed s x k q).hst =
      { s.hst with slots := tset s.hst.slots k {}, strands := m, cqHeld := tset s.hst.cqHeld q (cqHeld s q + 1), cplCancelled := c, unsignalled := u, cancelWait := w, cancelResult := r, invalidating := i, msixSent := a, maskFrees := s.hst.maskFrees.filter (fun p => p.1 != k) } ∧
    (∀ p ∈ m, p ∈ s.hst.strands ∨ ∃ y, (x.strand, y) ∈ s.hst.strands ∧ p = (x.strand, strandDone x y)) := by
  have same := entryWritten_hst s x q
  have held : cqHeld (entryWritten s x q) q = cqHeld s q := congrArg (fun h : Hst => tget 0 h.cqHeld q) same
  obtain ⟨m, c, counted, strands⟩ := entryTallied_hst (entryWritten s x q) x q ((cqTail s q + 1) % cqSize (entryWritten s x q) q)
  obtain ⟨w, r, i, freed⟩ := slotFreed_hst (entryTallied (entryWritten s x q) x q ((cqTail s q + 1) % cqSize (entryWritten s x q) q)) x k
  obtain ⟨⟨u, a, told⟩, -, -⟩ := aggregate_keeps (beforeTold s x k q) q x.intr
  rw [same, held] at counted
  rw [same] at strands
  rw [counted] at freed
  rw [show (beforeTold s x k q).hst = _ from freed] at told
  exact ⟨m, c, u, w, r, i, a, told, strands⟩

/-- Nothing waits for the slot behind the entry either. -/
theorem completed_unwaited (un : Unwaited s.hst) : Unwaited (completed s x k q).hst := by
  obtain ⟨refused, masks, closing, strands⟩ := un
  obtain ⟨m, c, u, w, r, i, a, hst, listed⟩ := completed_hst s x k q
  rw [hst]
  refine ⟨refused, by rw [masks]; rfl, closing, fun p inside => ?_⟩
  rcases listed p inside with old | ⟨y, old, rfl⟩
  · exact strands p old
  · exact strands (x.strand, y) old

theorem completed_slotOf (j : Nat) : slotOf (completed s x k q) j = if k = j then {} else slotOf s j := by
  obtain ⟨m, c, u, w, r, i, a, hst, -⟩ := completed_hst s x k q
  exact (congrArg (fun h : Hst => tget {} h.slots j) hst).trans (tget_tset ..)
theorem completed_held : cqHeld (completed s x k q) q = cqHeld s q + 1 := by
  obtain ⟨m, c, u, w, r, i, a, hst, -⟩ := completed_hst s x k q
  exact (congrArg (fun h : Hst => tget 0 h.cqHeld q) hst).trans (tget_tset_same ..)

theorem completed_strand {y : Strand} (found : strand s x.strand = some y) : strand (completed s x k q) x.strand = some (strandDone x y) := by
  have there : strand (entryWritten s x q) x.strand = some y := (congrArg (fun h : Hst => tfind h.strands x.strand) (entryWritten_hst s x q)).trans found
  have moved := entryTallied_strand (entryWritten s x q) x q ((cqTail s q + 1) % cqSize (entryWritten s x q) q) there
  obtain ⟨w, r, i, freed⟩ := slotFreed_hst (entryTallied (entryWritten s x q) x q ((cqTail s q + 1) % cqSize (entryWritten s x q) q)) x k
  obtain ⟨⟨u, a, told⟩, -, -⟩ := aggregate_keeps (beforeTold s x k q) q x.intr
  have kept := congrArg (fun h : Hst => tfind h.strands x.strand) told
  have kept' := congrArg (fun h : Hst => tfind h.strands x.strand) freed
  exact kept.trans (kept'.trans moved)

/-- The registers below the pending-bit array: the queue's word 2 and the count of completions. -/
theorem completed_reg {off : Nat} (below : off < 0xE8000) : reg (completed s x k q) off =
    if hstOff HST_CPL_COUNT = off then (reg (tailAdvanced s q ((cqTail s q + 1) % cqSize s q)) off + 1) % 2 ^ 64 else reg (tailAdvanced s q ((cqTail s q + 1) % cqSize s q)) off := by
  obtain ⟨-, -, told⟩ := aggregate_keeps (beforeTold s x k q) q x.intr
  have regs := entryWritten_regs s x q
  have size : cqSize (entryWritten s x q) q = cqSize s q := congrArg (fun w => 2 ^ bits w 5 1) (reg_congr regs _)
  have moved (off : Nat) : reg (tailAdvanced (entryWritten s x q) q ((cqTail s q + 1) % cqSize s q)) off = reg (tailAdvanced s q ((cqTail s q + 1) % cqSize s q)) off := by
    have phase : cqPhase (entryWritten s x q) q = cqPhase s q := congrArg (bit · 32) (reg_congr regs _)
    rw [tailAdvanced_regs, tailAdvanced_regs, phase, reg_congr regs, reg_congr regs]
  have freed := reg_congr (slotFreed_parts (entryTallied (entryWritten s x q) x q ((cqTail s q + 1) % cqSize (entryWritten s x q) q)) x k .regs (by decide)) off
  refine (told off below).trans (freed.trans ?_)
  rw [entryTallied_regs, size, moved, moved]
  split
  · next same => rw [same]
  · rfl

theorem entryWritten_mem : (completed s x k q).mem = (entryWritten s x q).mem := by
  have told := aggregate_parts (beforeTold s x k q) q x.intr .mem (by decide)
  have freed := slotFreed_parts (entryTallied (entryWritten s x q) x q ((cqTail s q + 1) % cqSize (entryWritten s x q) q)) x k .mem (by decide)
  exact told.trans (freed.trans (entryTallied_parts (entryWritten s x q) x q _ .mem (by decide)))

theorem entryWritten_out {o : Out} (listed : o ∈ (entryWritten s x q).out) : o ∈ (completed s x k q).out := by
  obtain ⟨-, told, -⟩ := aggregate_keeps (beforeTold s x k q) q x.intr
  have freed := slotFreed_parts (entryTallied (entryWritten s x q) x q ((cqTail s q + 1) % cqSize (entryWritten s x q) q)) x k .out (by decide)
  have same : (beforeTold s x k q).out = (entryWritten s x q).out := freed.trans (entryTallied_parts (entryWritten s x q) x q _ .out (by decide))
  exact told o (same ▸ listed)

theorem completed_host (host : isHost (completionPlace s q) = true) : .hostWrite (completionPlace s q) (completionEntry s x q) ∈ (completed s x k q).out ∧ (completed s x k q).mem = s.mem := by
  obtain ⟨out, mem⟩ := ringWrite_host s host (completionEntry s x q)
  exact ⟨entryWritten_out s x k q out, (entryWritten_mem s x k q).trans mem⟩
theorem completed_near (near : isHost (completionPlace s q) = false) : (completed s x k q).mem = mwriteN s.mem (completionPlace s q) (completionEntry s x q) :=
  (entryWritten_mem s x k q).trans (ringWrite_near s near (completionEntry s x q))

end

section
variable (s : State) (x : Slot) (k : Nat) {q : Nat} (low : q < 4096)
include low

theorem completed_count : reg (completed s x k q) (hstOff HST_CPL_COUNT) = (reg s (hstOff HST_CPL_COUNT) + 1) % 2 ^ 64 := by
  have apart : cqOff q 2 ≠ hstOff HST_CPL_COUNT := by
    unfold cqOff hstOff HST_CPL_COUNT
    omega
  rw [completed_reg s x k q (by decide), if_pos rfl, tailAdvanced_regs, if_neg apart]

theorem completed_word : reg (completed s x k q) (cqOff q 2) =
    putBits (putBits (reg s (cqOff q 2)) 31 16 ((cqTail s q + 1) % cqSize s q) % 2 ^ 64) 32 32 (b2n (cqPhase s q != ((cqTail s q + 1) % cqSize s q == 0))) % 2 ^ 64 := by
  have apart : hstOff HST_CPL_COUNT ≠ cqOff q 2 := by
    unfold cqOff hstOff HST_CPL_COUNT
    omega
  have below : cqOff q 2 < 0xE8000 := by
    unfold cqOff
    omega
  rw [completed_reg s x k q below, if_neg apart, tailAdvanced_regs, if_pos rfl]

theorem completed_tail : cqTail (completed s x k q) q = (cqTail s q + 1) % cqSize s q % 2 ^ 16 := by
  show bits (reg (completed s x k q) (cqOff q 2)) 31 16 = _
  rw [completed_word s x k low, bits_tail_of_phase]
  exact bits_putBits_same _ _ (by decide)
theorem completed_phase : cqPhase (completed s x k q) q = (cqPhase s q != ((cqTail s q + 1) % cqSize s q == 0)) := by
  show bit (reg (completed s x k q) (cqOff q 2)) 32 = _
  rw [completed_word s x k low, bit_putBits_phase]

/-- TAIL moves on below the ring's end. -/
theorem completed_onward (inside : cqTail s q + 1 < cqSize s q) (small : cqSize s q ≤ 2 ^ 16) : cqTail (completed s x k q) q = cqTail s q + 1 ∧ cqPhase (completed s x k q) q = cqPhase s q := by
  rw [completed_tail s x k low, completed_phase s x k low, Nat.mod_eq_of_lt inside]
  exact ⟨Nat.mod_eq_of_lt (Nat.lt_of_lt_of_le inside small), by rw [show (cqTail s q + 1 == 0) = false from rfl, Bool.bne_false]⟩
/-- At the ring's end TAIL starts again, and the phase turns. -/
theorem completed_around (last : cqTail s q + 1 = cqSize s q) : cqTail (completed s x k q) q = 0 ∧ cqPhase (completed s x k q) q = !cqPhase s q := by
  rw [completed_tail s x k low, completed_phase s x k low, last, Nat.mod_self]
  exact ⟨rfl, Bool.bne_true _⟩

end

theorem sqCq_lt (s : State) (q : Nat) : sqCq s q < 4096 := Nat.mod_lt _ (by decide)

/-- Free values only where the task could write, and only where it stopped. -/
theorem completed_openRanges_parts {s : State} {k q : Nat} : OnlyParts ([.regs, .mem, .hst, .cache, .posted, .net, .out] ++ if aborted (slotOf s k) then [.freeIdx] else []) s
    (completed (openRanges s k) (slotOf s k) k q) := by
  have parts := completed_parts (openRanges s k) (slotOf s k) k q
  cases stopped : aborted (slotOf s k) with
  | true => exact OnlyParts.trans (openRanges_parts s k) parts (by decide) (by decide)
  | false =>
    rw [openRanges_whole s k stopped] at parts ⊢
    exact parts

theorem completion : Claims.Completion := by
  intro k s x cq
  refine ⟨execCompletionWrite_waits, fun ready room refused masks closing strands tail small => ?_⟩
  have opened := openRanges_parts s k
  have regs := opened .regs (by decide)
  have hst := opened .hst (by decide)
  have clock := opened .clock (by decide)
  have queue : sqCq (openRanges s k) x.sq = cq := congrArg (bits · 14 3) (reg_congr regs _)
  have un : Unwaited (openRanges s k).hst := hst ▸ ⟨refused, masks, closing, strands⟩
  have does : exec (.completionWrite k) s = .next (completed (openRanges s k) x k cq) := by
    rw [execCompletionWrite_writes ready room, writeCompletion_eq, settled_unwaited (completed_unwaited _ _ _ _ un), queue]
  have place := completionPlace_congr cq regs
  have entry := completionEntry_congr x cq regs clock
  have sameTail : cqTail (openRanges s k) cq = cqTail s cq := congrArg (bits · 31 16) (reg_congr regs _)
  have sameSize : cqSize (openRanges s k) cq = cqSize s cq := congrArg (fun w => 2 ^ bits w 5 1) (reg_congr regs _)
  have samePhase : cqPhase (openRanges s k) cq = cqPhase s cq := congrArg (bit · 32) (reg_congr regs _)
  have low : cq < 4096 := sqCq_lt s _
  refine ⟨_, does, completed_openRanges_parts, ?_, ?_, fun whole => by rw [openRanges_whole s k whole], fun b outside => mread_openRanges s k outside, ?_, fun j other => ?_, ?_, ?_, fun onward => ?_, fun last => ?_, fun y found => ?_⟩
  · have wrote := completed_host (openRanges s k) x k cq
    rw [place, entry] at wrote
    exact wrote
  · have wrote := completed_near (openRanges s k) x k cq
    rw [place, entry] at wrote
    exact wrote
  · exact (completed_slotOf _ _ _ _ _).trans (if_pos rfl)
  · exact (completed_slotOf _ _ _ _ _).trans ((if_neg (Ne.symm other)).trans (slotOf_of_hst hst j))
  · exact (completed_held _ _ _ _).trans (congrArg (fun h : Hst => tget 0 h.cqHeld cq + 1) hst)
  · rw [completed_count _ _ _ low, reg_congr regs]
  · rw [← sameTail, ← sameSize] at onward
    obtain ⟨newTail, newPhase⟩ := completed_onward (openRanges s k) x k low onward (sameSize ▸ small)
    exact ⟨newTail.trans (congrArg (· + 1) sameTail), newPhase.trans samePhase⟩
  · rw [← sameTail, ← sameSize] at last
    obtain ⟨newTail, newPhase⟩ := completed_around (openRanges s k) x k low last
    exact ⟨newTail, newPhase.trans (congrArg (!·) samePhase)⟩
  · exact completed_strand _ _ _ _ ((congrArg (fun h : Hst => tfind h.strands x.strand) hst).trans found)

/-- Settles O56: a descriptor that is fetched waits or completes with its verdict; a cancel folds over the tasks that it names; a completion entry is the chain of its
write, the counts, the freed slot and the vector, behind which nothing waits. The entries that a queue holds (log entry 16), a reserved SCOPE that does nothing
(log entry 55) and the free values in a stopped task's places (log entry 63) are the model's choices. -/
theorem fetchCancelComplete : Obligations.FetchCancelComplete := ⟨fetchAndCancel, completion⟩

end Sys2Proof.Machine
end
